-- ==== Sys2Proof/Word.lean ====
section
/-! DEFINITION. The byte and word types, the air-time constants of *Scope and conventions*, and the sparse
banks in which the state keeps numbered units (chains, band paths, slots, mailboxes ...). -/

namespace Sys2Proof

/-- One byte of a payload, a record or a memory image. -/
abbrev Byte := BitVec 8

/-- One 32-bit register of a BAR window. -/
abbrev Word := BitVec 32

/-- Tc in one second (R10). -/
abbrev tcPerSecond : Nat := 1966080000
/-- Tc in one millisecond. -/
abbrev tcPerMs : Nat := 1966080
/-- Tc in a 10 ms frame (R10). -/
abbrev tcPerFrame : Nat := 19660800
/-- Tc in one subframe of 1 ms. -/
abbrev tcPerSubframe : Nat := 1966080
/-- Tc in one loop tick of 31.25 µs (R10). -/
abbrev tcPerTick : Nat := 61440
/-- Tc in one collector cycle (R366). -/
abbrev tcPerCycle : Nat := 2048

/-- A numbered set of like things: `dflt` stands for every number that is not listed. The list is kept
in rising order of the numbers, so that equal banks built by the same writes are equal data. -/
structure Bank (α : Type) where
  dflt  : α
  cells : List (Nat × α)
  deriving DecidableEq, Repr

/-- The value listed for `k`, if any. -/
def Bank.find {α : Type} : List (Nat × α) → Nat → Option α
  | [], _ => none
  | (j, x) :: rest, k => if j = k then some x else Bank.find rest k

/-- The value of number `k`. -/
def Bank.get {α : Type} (b : Bank α) (k : Nat) : α := (Bank.find b.cells k).getD b.dflt

/-- Puts `x` at number `k` in the ordered list. -/
def Bank.put {α : Type} : List (Nat × α) → Nat → α → List (Nat × α)
  | [], k, x => [(k, x)]
  | (j, y) :: rest, k, x =>
    if k < j then (k, x) :: (j, y) :: rest
    else if k = j then (k, x) :: rest
    else (j, y) :: Bank.put rest k x

/-- Bank `b` with number `k` holding `x`. -/
def Bank.set {α : Type} (b : Bank α) (k : Nat) (x : α) : Bank α := { b with cells := Bank.put b.cells k x }

/-- Bank `b` with number `k` changed by `f`. -/
def Bank.mod {α : Type} (b : Bank α) (k : Nat) (f : α → α) : Bank α := b.set k (f (b.get k))

/-- Bank `b` with every number in `ks` changed by `f`. -/
def Bank.modAll {α : Type} (b : Bank α) (ks : List Nat) (f : Nat → α → α) : Bank α :=
  ks.foldl (fun acc k => acc.mod k (f k)) b

/-- An empty bank whose every number reads `x`. -/
def Bank.fill {α : Type} (x : α) : Bank α := { dflt := x, cells := [] }

/-- The numbers the bank lists are strictly rising. -/
def Bank.sorted {α : Type} (b : Bank α) : Prop := b.cells.Pairwise (fun p q => p.1 < q.1)

end Sys2Proof
end

