-- ==== Sys2Proof/Config.lean ====
section
/-! DEFINITION. The free values of the model: constants without a body, one for each value that the spec leaves
open. Nothing in Lean can evaluate them, so a claim about one of them holds whatever the hardware produces.
The functions of the crypto standards the spec names stand here too: the model uses their results and assumes
no property of them (log entry 5). -/

namespace Sys2Proof.Config

/-- Fresh random 32-bit numbers: session identifiers (R429), RETRY_AFTER (R278), clear-channel backoffs. -/
opaque randomWord : Nat → BitVec 32
/-- Fresh 16-byte session nonces (R428) and fabric nonces (R279). -/
opaque nonce : Nat → BitVec 128
/-- Fresh 32-byte debug challenges (R459). -/
opaque challenge : Nat → BitVec 256
/-- HMAC-SHA-256 truncated to 16 bytes, of a key and a message (R428, R357). -/
opaque hmacSha256 : List Byte → List Byte → BitVec 128
/-- HMAC-SHA-384 of a key and a message (R279, R404). -/
opaque hmacSha384 : List Byte → List Byte → BitVec 384
/-- ECDSA P-384 verification of a signature over a message under a public key (R442, R459). -/
opaque ecdsaP384 : List Byte → List Byte → List Byte → Bool
/-- ECDSA P-256 verification of a signature over a message under a public key (R229). -/
opaque ecdsaP256 : List Byte → List Byte → List Byte → Bool
/-- SHA-384 digest (R442). -/
opaque sha384 : List Byte → BitVec 384
/-- The four firmware root hashes in OTP, fixed at manufacture (R462). -/
opaque rootHash : Nat → BitVec 384
/-- The cassette root public key in OTP, fixed at manufacture (R462). -/
opaque cassetteRoot : List Byte
/-- The log key, generated by the part at first power-up (R462). -/
opaque logKey : List Byte
/-- The 64-bit serial number of the part (R509), fixed at manufacture. -/
opaque serial : BitVec 64
/-- VCO core and sub-band of a chain's synthesiser for an LO, Hz, at a temperature, 0.01 °C: set per part, not published (R65). -/
opaque vcoSubBand : Nat → Nat → Int → Nat
/-- Realised LO less requested LO of a chain's synthesiser, Hz; the model uses it within ±1 Hz (R60). -/
opaque loError : Nat → Nat → Int
/-- Share of protected band paths where R160's logarithm has no argument above zero, of the demand, Pp and XM. -/
opaque shareOpen : Nat → Nat → Nat → Nat
/-- Chip `n` of the maximal-length sequence of an order (R202): the spec names no polynomial. -/
opaque prbsChip : Nat → Nat → Bool
/-- Factory gain of a housekeeping channel, units per code, as numerator and denominator less one (R239): not published. -/
opaque factoryGain : Nat → Int × Nat
/-- Factory offset of a housekeeping channel, codes, likewise. -/
opaque factoryOffset : Nat → Int × Nat
/-- Expected ADC code of a test-DAC level, 1/16 code (R243): measured for each part. -/
opaque testDacCode : Nat → Int

/-- R249: the reading in 0.01 °C that a sensor's factory trim and the second-order correction make of its oscillator count over a
round of so many REFCLK periods: sensor, count, periods. -/
opaque sensorReading : Nat → Nat → Nat → Int
/-- Byte of a recording's data at an offset of its image (R327): what the converters and band paths delivered. -/
opaque captureByte : Nat → Nat → BitVec 8
/-- Prototype of the polyphase ÷3 and ×3 filters at a distance from its centre, 1/64 converter sample, Q1.17 (R87). -/
opaque thirdTap : Nat → Int
/-- Half-band coefficient of a preset and a length at an odd distance from the centre, Q1.17 (R90). -/
opaque halfTap : Nat → Nat → Nat → Int
/-- Chips on each side of its centre over which the shaping filter of the Beacon pilot extends (R124). -/
opaque rrcSpan : Nat
/-- Step of the Doppler rotator, k_d of R135: a frequency step, 2^−48 turns per sample, for an error of one. -/
opaque dopplerStep : Int
/-- What a member knows of the ingress band path that sources a flow on the hub (R118, R119). -/
structure HubPath where
  /-- Centre frequency and bandwidth, Hz. -/
  center    : Nat
  bw        : Nat
  /-- Marked conducted. -/
  conducted : Bool
  deriving DecidableEq, Repr, Inhabited

/-- The hub's ingress band path of a flow under a plan of Drover: no message of the spec carries it. -/
opaque hubReturn : Nat → Nat → HubPath
/-- The coefficient set that indirect learning computes from a model, the set in use and the pairs of a dwell (R115): the spec names
the method and no algorithm. -/
opaque learnDpd : Nat × Nat × Nat → List (Int × Int) → List ((Int × Int) × (Int × Int)) → List (Int × Int)
/-- The figures of the power model, mW, by domain and load (R26): the spec gives totals of whole profiles. -/
opaque powerFigure : Nat → Nat
/-- The payload of a control frame whose layout the spec does not give. -/
opaque framePayload : Nat → List (BitVec 8)
/-- A value that the spec leaves open at the point of use; the step draws one by its counter. -/
opaque freeInt : Nat → Int
/-- A natural number that the spec leaves open at the point of use. -/
opaque freeNat : Nat → Nat

end Sys2Proof.Config
end

