-- ==== Sys2Proof/Syntax.lean ====
section
/-! DEFINITION. The commands and events of the part: one constructor of `Instr` for each row of
spec/opcode_table.json, with the operands that the row's rule gives it, and the types of those operands. -/

namespace Sys2Proof

/-- The four host paths as SYS_HOST_CONFIG codes them (R411); `none` is a mailbox assigned to no path. -/
inductive HostPath where
  | pcie | ethernet | spi | none
  deriving DecidableEq, Repr

/-- One request as a host puts it into the request area of a mailbox (table *Request header*), without the opcode:
the command that carries it fixes the opcode. `payload` holds the bytes that follow the header; `length` is the
header's own count of them, which validation checks (R425). -/
structure HostRequest where
  mailbox : Nat := 0
  path    : HostPath := .pcie
  flags   : BitVec 16 := 0
  tag     : Nat := 0
  length  : Nat := 0
  session : Nat := 0
  payload : List Byte := []
  deriving DecidableEq, Repr

/-- The unit kinds of R367 (bits [31:24] of a unit identifier). -/
inductive UnitKind where
  | part | chain | ingress | egress | canceller | slot | cassette | converter | sensor | supply
  | lane | member | flow | extent | archive | bell | logbook | pairLink
  deriving DecidableEq, Repr

/-- A unit identifier (R367). -/
structure UnitId where
  kind  : UnitKind
  index : Nat
  deriving DecidableEq, Repr

/-- An air-time instant AT frame:offset (R10). -/
structure AirInstant where
  frame  : Nat
  offset : Nat
  deriving DecidableEq, Repr

/-- A direction of a band path or chain. -/
inductive Dir where
  | ingress | egress
  deriving DecidableEq, Repr

/-- A fault class code with the unit it names, as a detector or a command gives it. -/
structure Condition where
  cls  : Nat
  unit : UnitId
  deriving DecidableEq, Repr

/-- A Logbook record (table *Record layout*); the CRC is computed from the other fields when it is read. -/
structure Record where
  seq        : Nat := 0
  epoch      : Nat := 0
  code       : Nat := 0
  mono       : Nat := 0
  wall       : Nat := 0
  source     : Nat := 0
  severity   : Nat := 0
  flags      : Nat := 0
  repeats    : Nat := 0
  suppressed : Nat := 0
  params     : List Nat := [0, 0, 0, 0, 0, 0]
  lastRepeat : Nat := 0
  deriving DecidableEq, Repr

/-! ## Samples -/

/-- A complex sample: real and imaginary part in the format of its point (R91). -/
abbrev Cx := Int × Int

/-- What the converter brings for one block of sixteen output samples of an ingress band path: the samples under the filters of
the block as 12-bit codes, oldest first, and the number of the oldest on the converter clock (R87, R94). -/
structure RawBlock where
  first : Nat
  conv  : List Cx := []
  deriving DecidableEq, Repr

/-- What a FULL calibration sets in the digital front of a chain (R61, R63). The spec names the corrections and no format for
them: DC is in units of 2^−15, the other values are scaled by 2^17 (log entry 128). -/
structure FrontCal where
  /-- DC and LO leakage. -/
  dc    : Cx := (0, 0)
  /-- I/Q correction: gain, phase, and the 24-tap skew filter. -/
  gain  : Int := 131072
  phase : Int := 0
  skew  : List Int := []
  /-- Inverse of the step attenuator at 0 to 24 dB; a setting without a value takes its nominal inverse. -/
  steps : List Nat := []
  deriving DecidableEq, Repr

/-- Successive blocks from the numbers of their oldest samples and from their samples. -/
def rawBlocks (firsts : List Nat) (convs : List (List Cx)) : List RawBlock := firsts.zipWith RawBlock.mk convs

/-- What a FULL calibration leaves: the residual leakage that it measures and what it sets (R61, R74). -/
structure FrontResult where
  leak  : Int := 0
  front : FrontCal := {}
  deriving DecidableEq, Repr

/-- The converter samples of one ingress band path since it was last served. -/
structure PathBlocks where
  ib     : Nat
  blocks : List RawBlock
  deriving DecidableEq, Repr

/-- A detection of a donor synchronisation signal (R513). -/
structure DonorInput where
  /-- Ingress band path in which it was found. -/
  path     : Nat
  /-- The broadcast channel decoded with a valid SFN. -/
  valid    : Bool
  /-- The donor is NR (SSB) rather than LTE. -/
  nr       : Bool
  sfn      : Nat
  /-- It stands in the second half of its frame. -/
  second   : Bool
  /-- Its instant on the REFCLK count (monotonic time), Tc. -/
  timing   : Nat
  /-- Error bound of the timing, ns, and frequency against REFCLK, 0.01 ppb. -/
  bound    : Nat
  freq     : Int
  deriving DecidableEq, Repr

/-- A PTP Sync message after path-delay correction (R513, R34). -/
structure PtpInput where
  valid  : Bool
  /-- R417: transport, profile and domain of the message, coded as SYS_NET_CONFIG codes them. -/
  transport : Nat := 0
  profile   : Nat := 0
  domain    : Nat := 0
  /-- PTP time now, ns. -/
  time   : Nat
  /-- Servo offset from the master, ns. -/
  offset : Int
  bound  : Nat
  freq   : Int
  deriving DecidableEq, Repr

/-- What the world contributes to one loop tick. -/
structure TickInput where
  /-- CLIPPED blocks of receive chains in the tick: chain and count (R81). -/
  clipped : List (Nat × Nat) := []
  /-- The converter samples of ingress band paths since they were last served. -/
  paths   : List PathBlocks := []
  /-- The converter samples of receive chains under RAW capture in the tick, 12-bit codes: chain and samples (R321). -/
  adc     : List (Nat × RawBlock) := []
  deriving DecidableEq, Repr

/-- What one lane counted in a frame (R268, page 7): codewords corrected and uncorrectable, pre-FEC symbol errors per
10^9, bit errors and bits of a running test. -/
structure LaneFrame where
  lane      : Nat
  corrected : Nat := 0
  uncorr    : Nat := 0
  ser       : Nat := 0
  prbsErrors : Nat := 0
  prbsBits  : Nat := 0
  deriving DecidableEq, Repr

/-- What the world contributes to one frame boundary. -/
structure FrameInput where
  /-- Flows whose flits a port dropped in the frame that ended: port and flow (R299, R312). -/
  dropped : List (Nat × Nat) := []
  /-- What the lanes counted in the frame that ended. -/
  lanes   : List LaneFrame := []
  /-- Departure of each port's TT_REQ after this boundary, 1/16 Tc (R271). -/
  departs : List (Nat × Nat) := []
  deriving DecidableEq, Repr

/-- A MARGIN_CAP frame (R131). -/
structure MarginCap where
  member : Nat
  eb     : Nat
  cap    : Int
  at_    : AirInstant
  deriving DecidableEq, Repr

/-- The pilot level that a member injects, as the hub knows it, 0.01 dBFS. -/
structure MemberLevel where
  member : Nat
  eb     : Nat
  level  : Int
  deriving DecidableEq, Repr

/-- What a pilot period brings (R128, R130): the samples of the own ingress band paths since they were last served, and on a hub
the levels that members inject; the spec names no report that carries them (log entry 133). -/
structure PilotInput where
  paths  : List PathBlocks := []
  levels : List MemberLevel := []
  deriving DecidableEq, Repr

/-- What a slot's iteration finds at its sample (R180–R190). -/
structure IterInput where
  /-- CHAIN_GAIN: WB_PEAK, 0.01 dBFS; none without data. -/
  peak     : Option Int := none
  /-- CHAIN_GAIN: step-continuity residual after the slot's last change, 0.01 dB. -/
  residual : Nat := 0
  /-- Delay from the sample to the write, engine cycles of 2.035 ns. -/
  latency  : Nat := 0
  deriving DecidableEq, Repr

/-- The 2,048 samples that one housekeeping ADC takes in the accumulated part of a slot (R234, R235). -/
structure AdcSums where
  sum   : Int := 0
  sumsq : Nat := 0
  min   : Int := 0
  max   : Int := 0
  deriving DecidableEq, Repr

/-- What the two converters take in one housekeeping slot. -/
structure HkSlotInput where
  even : AdcSums := {}
  odd  : AdcSums := {}
  deriving DecidableEq, Repr

/-- One sensor over a round (R249): index and oscillator count. -/
structure SensorInput where
  index : Nat
  count : Nat
  deriving DecidableEq, Repr

/-- What identification reads from a cassette (R229). -/
structure IdentInput where
  /-- The 128 bytes of the identity record. -/
  record    : List Byte := []
  /-- The life copies A and B, 32 bytes each. -/
  lifeA     : List Byte := []
  lifeB     : List Byte := []
  /-- The secure element's certificate: signed body, signature, and the element's key; none without one. -/
  cert      : Option (List Byte × List Byte × List Byte) := none
  /-- Its signature over challenge and serial number. -/
  answer    : List Byte := []
  deriving DecidableEq, Repr

/-- Drain currents of a bias calibration (R227), mA: at code 0, at VG_MAX_CODE, and at the twelve search steps. -/
structure BiasInput where
  atZero : Int
  atMax  : Int
  steps  : List Int
  deriving DecidableEq, Repr

/-- The value at a comparator's input at an instant (R218): the comparator and the value. -/
structure CmpSample where
  cmp   : Nat
  value : Int
  deriving DecidableEq, Repr

/-- One upstream link of a member as Drover knows it: the member's port, the upstream peer and its port, the link delay
d, Tc, the lanes in use, and whether it is the alternate upstream. -/
structure Link where
  member : Nat
  port   : Nat
  peer   : Nat
  peerPort : Nat
  delay  : Nat
  lanes  : Nat
  alternate : Bool := false
  deriving DecidableEq, Repr

/-- An entry of a PLAN frame (table *Placement control frames*). -/
structure PlanEntry where
  /-- Descriptor word 0. -/
  word0   : Nat
  inn     : Nat
  out     : Nat
  localBp : Nat
  prio    : Nat
  deadline : Nat
  rate    : Nat
  deriving DecidableEq, Repr

/-- One band path of a BIND_STATUS frame. -/
structure Binding where
  bp      : Nat
  exists_ : Bool
  egress  : Bool
  flowFed : Bool
  flow    : Nat
  rate    : Nat
  deriving DecidableEq, Repr


/-- The model of a hub canceller: its instance, cluster offsets and taps (R473). -/
structure TapModel where
  inst    : Nat
  offsets : List Nat := []
  weights : List (List Cx) := []
  deriving DecidableEq, Repr

/-- One mirrored item of a PAIR_SYNC frame (R473, table *Mirrored items*). -/
inductive PairItem where
  /-- A command that changed stored or running configuration, Drover intents or tables. -/
  | command (opcode : Nat) (payload : List Byte)
  /-- Loop-guard models: tracked members as member, egress and ingress band path, A_m, G_m, 0.01 dB; and the hub cancellers
  whose taps come with them. -/
  | models (l : List (Nat × Nat × Nat × Int × Int)) (taps : List TapModel)
  /-- Loop states: egress band path, set-point, G_set, integrator. -/
  | loops (l : List (Nat × Int × Int × Int))
  /-- HALT state: sequence number and start. -/
  | halt (h : Option (Nat × Nat))
  /-- Host pen reasons. -/
  | hostPens (l : List UnitId)
  /-- Keeper counters: keeper and last accepted counter. -/
  | keepers (l : List (Nat × Nat))
  /-- The member ID table: member, serial number, state code, hops, parent. -/
  | members (l : List (Nat × BitVec 64 × Nat × Nat × Nat))
  /-- Drover's tables: last plan number, D_T, placement in force, and pending plans with their frames. -/
  | drover (seq dT : Nat) (whole : List (Nat × PlanEntry)) (pending : List (Nat × Nat))
  /-- Bindings and upstream links of a member as the hub knows them. -/
  | bindings (m : Nat) (l : List Binding)
  | links (m : Nat) (l : List Link)
  /-- One Logbook record (R408). -/
  | record (r : Record)
  deriving DecidableEq, Repr

/-- The fields of a control frame header that its type does not fix (table *Control frame header*). -/
structure FrameHeader where
  dest  : Nat := 0
  bcast : Bool := false
  up    : Bool := false
  /-- SRC; none is SRC_NONE. -/
  src   : Option Nat := none
  ttl   : Nat := 64
  deriving DecidableEq, Repr

/-- A HELLO payload (R273). -/
structure Hello where
  flockId   : Nat
  serial    : BitVec 64
  /-- none is 0xFFFF. -/
  member    : Option Nat := none
  /-- none is 0xFF. -/
  hops      : Option Nat := none
  /-- Flag [0]: the sender uses this link as its primary upstream. -/
  primary   : Bool := false
  hub       : Bool := false
  acquired  : Bool := false
  admitting : Bool := false
  port      : Nat
  lanes     : Nat := 1
  nonce     : BitVec 128 := 0
  deriving DecidableEq, Repr

/-- A JOIN_REQ payload (R279). -/
structure JoinReq where
  /-- REJOIN. -/
  rejoin    : Bool
  /-- Role code of the table *Role straps*. -/
  role      : Nat
  /-- none is 0xFFFF. -/
  member    : Option Nat
  serial    : BitVec 64
  fw        : Nat
  hops      : Nat
  lifecycle : Nat
  parent    : Nat
  nonce     : BitVec 128
  tag       : BitVec 128
  deriving DecidableEq, Repr

/-- A JOIN_RESP payload: result 0 is ACK. -/
structure JoinResp where
  result     : Nat
  retryAfter : Nat
  member     : Option Nat
  serial     : BitVec 64
  admitFrame : Nat
  deriving DecidableEq, Repr

/-- What a STATUS frame carries (R281, R42, R131, R164, R271, R363). -/
structure StatusReport where
  /-- Power state code. -/
  power  : Nat
  hops   : Nat := 0
  parent : Nat := 0
  /-- Time-error estimate E, ns; none while unknown (R42). -/
  e      : Option Nat := none
  /-- Units not IN_SERVICE. -/
  outOfService : Nat := 0
  /-- G_m of egress band paths, 0.01 dB, and the instant from which they hold (R131, R133). -/
  gains  : List (Nat × Int) := []
  at_    : AirInstant := ⟨0, 0⟩
  /-- N_est of gated flows, 0.01 dBFS (R164). -/
  noise  : List (Nat × Int) := []
  /-- Measured upstream links (R271). -/
  links  : List Link := []
  deriving DecidableEq, Repr

/-- A PAIR_HB heartbeat (R469). -/
structure Heartbeat where
  term    : Nat
  /-- Pair state code. -/
  state   : Nat
  serial  : BitVec 64
  /-- Air-time instant at departure. -/
  at_     : AirInstant
  /-- Sequence number of the last mirror frame applied. -/
  applied : Nat
  /-- The sender's preference, which R474 compares; the list of R469 does not name it (log entry 29). -/
  prefersStandby : Bool := false
  deriving DecidableEq, Repr

/-- The content of a control frame (table *Control frame types*). -/
inductive FrameBody where
  | hello (h : Hello)
  /-- t1, 1/16 Tc. -/
  | ttReq (t1 : Nat)
  /-- t2 and t3, 1/16 Tc. -/
  | ttResp (t2 t3 : Nat)
  | joinReq (r : JoinReq)
  | joinResp (r : JoinResp)
  | leave (member frame reason : Nat)
  | leaveAck (member frame reason : Nat)
  | status (r : StatusReport)
  | pathDown
  | rehome (member parent hops : Nat)
  | lost (root count : Nat)
  | laneSet (lanes frame : Nat)
  | expel
  | marginCap (f : MarginCap)
  | admitReq (units : List UnitId)
  | admitGrant (frame : Nat)
  /-- Flow, and the raise of G_OPEN of its contributors, 0.01 dB (R167). -/
  | gateRaise (l : List (Nat × Int))
  | plan (seq frame dT : Nat) (final : Bool) (entries : List PlanEntry)
  | planAck (seq status : Nat)
  | planCancel (seq : Nat)
  | bindStatus (l : List Binding)
  /-- Flow, late, dropped. -/
  | flowReport (l : List (Nat × Nat × Nat))
  | pairHb (h : Heartbeat)
  | pairSync (seq : Nat) (item : PairItem)
  /-- A frame of unknown type. -/
  | unknown (type : Nat)
  deriving DecidableEq, Repr

/-- A control frame. -/
structure CtrlFrame where
  head : FrameHeader
  body : FrameBody
  deriving DecidableEq, Repr

/-- One block of a flow (R94, R263): flags, timestamp, sequence number and its sixteen complex samples in Q5.18. -/
structure Block where
  valid    : Bool
  settling : Bool := false
  clipped  : Bool := false
  gapped   : Bool := false
  at_      : AirInstant
  bseq     : Nat := 0
  samples  : List (Int × Int) := []
  deriving DecidableEq, Repr

/-- What a flit brings (R262–R264). -/
inductive FlitContent where
  | idle
  /-- A data flit: its blocks carry the low 8 bits of their frame; the content names the full instant. -/
  | data (flow : Nat) (blocks : List Block)
  | control (frames : List CtrlFrame)
  /-- KIND 3. -/
  | reserved
  deriving DecidableEq, Repr

/-- One flit as it arrives: its codeword was uncorrectable or its CRC failed unless `good`. -/
structure Flit where
  good    : Bool := true
  pseq    : Nat := 0
  content : FlitContent
  deriving DecidableEq, Repr

/-- Why a lane goes DOWN (R268). -/
inductive LaneLoss where
  | signal | fecLock | uncorrectable
  deriving DecidableEq, Repr

/-- Why the archive goes OFFLINE (R333). -/
inductive ArchiveFail where
  | command | timeout | link | dataCrc | index
  deriving DecidableEq, Repr

/-- One segment of an archived capture as its index entry holds it (R330). -/
structure ArchiveEntry where
  segment  : Nat
  seq      : Nat
  serial   : Nat
  part     : Nat
  parts    : Nat
  trigMono : Nat
  trigWall : Nat
  epoch    : Nat
  keep     : Bool
  deriving DecidableEq, Repr

/-- One source of a capture: chain or band path, transmit or egress, kS/s, group delay, Tc (0 for RAW) (R322, R327). -/
structure CapSource where
  source : Nat
  egress : Bool
  rate   : Nat
  delay  : Nat
  deriving DecidableEq, Repr

/-- One converter sample of a RAW capture with its pin instant, thirds of a Tc, attenuation and flags (R326). -/
structure CapSample where
  x        : Cx
  at_      : AirInstant
  phase    : Nat
  atten    : Nat := 0
  gapped   : Bool := false
  clipped  : Bool := false
  unlocked : Bool := false
  deriving DecidableEq, Repr

/-- What a capture holds of one source, newest first: blocks (BAND), or samples (RAW) with the number of the next one on the converter
clock. -/
structure CapTrack where
  blocks  : List Block := []
  samples : List CapSample := []
  next    : Nat := 0
  deriving DecidableEq, Repr

/-- What a capture is, as its image header states it (R327). -/
structure CapInfo where
  /-- BAND; else RAW. -/
  band     : Bool := false
  lengthUs : Nat := 0
  preUs    : Nat := 0
  sources  : List CapSource := []
  preShort : Bool := false
  stoppedEarly : Bool := false
  corrupt  : Bool := false
  restored : Bool := false
  trigSources : Nat := 0
  trigAt   : AirInstant := ⟨0, 0⟩
  trigMono : Nat := 0
  trigWall : Nat := 0
  epoch    : Nat := 0
  /-- Pre-trigger time actually held, µs. -/
  preHeld  : Nat := 0
  /-- Spans of the image that read as zeros, offset and length (R317, R334). -/
  zeroed   : List (Nat × Nat) := []
  /-- Time the rings held when recording stopped, µs. -/
  heldUs   : Nat := 0
  /-- Archive serial; 0 if never archived. -/
  serial   : Nat := 0
  /-- The recordings of the sources, in source order. -/
  data     : List CapTrack := []
  /-- Which recording this is: bytes that the model does not hold are free (log entry 23). -/
  content  : Nat := 0
  deriving DecidableEq, Repr

/-- What the NVMe device offers when an archive operation ends (R329, R330). -/
structure ArchiveDevice where
  /-- Size of the namespace, bytes. -/
  bytes  : Nat := 0
  /-- Logical block size, bytes. -/
  block  : Nat := 4096
  /-- Link generation and width. -/
  gen    : Nat := 4
  width  : Nat := 4
  /-- The two index copies; none when a copy is not readable. -/
  copyA  : Option (List ArchiveEntry) := none
  copyB  : Option (List ArchiveEntry) := none
  /-- What the archived captures are, by serial. -/
  images : List (Nat × CapInfo) := []
  deriving DecidableEq, Repr


/-- A candidate sync position of a detector branch (R343, R344): rate code, which of the two sync words it is tried against, the
discriminator outputs at the 32 symbols, and the level at BELL_RF over them, 0.01 dBm. -/
structure SyncInput where
  rate   : Nat
  keeper : Bool
  soft   : List Int
  level  : Int
  deriving DecidableEq, Repr

/-- A chain payload (R360): its header and the control frames, with the Logbook records that R361 sends along. -/
structure ChainPacket where
  src     : Nat
  /-- none is 0xFFFF, broadcast. -/
  dst     : Option Nat
  /-- 0 HELLO, 1 frames, 2 ACK. -/
  kind    : Nat
  /-- none is 0xFF. -/
  hops    : Option Nat
  frames  : List CtrlFrame := []
  records : List Record := []
  deriving DecidableEq, Repr

/-- A payload as the decoder delivers it (R350): whether it decoded, and its content. -/
inductive BellBody where
  | keeper (decoded : Bool) (bytes : List Byte) (crc : Nat)
  | chain (good : Bool) (p : ChainPacket)
  deriving DecidableEq, Repr


/-- One firmware image in a flash slot or in the host image device (R442). -/
structure Image where
  /-- ID_FIRMWARE layout, 24 bits. -/
  version   : Nat := 0
  publicKey : List Byte := []
  signature : List Byte := []
  /-- Header and body, over whose digest the signature is made. -/
  body      : List Byte := []
  /-- R442: security counter. -/
  counter   : Nat := 0
  deriving DecidableEq, Repr

/-- What wakes the part from DORMANT (R456). -/
inductive WakeSource where
  | site (n : Nat) (rising : Bool)
  | timer
  | debug
  deriving DecidableEq, Repr

/-- A management datagram as it arrives (R415): its header and, for a REQUEST, the mailbox request with its header. -/
structure EthDatagram where
  magic   : Nat := 0x7216
  version : Nat := 1
  kind    : Nat
  mailbox : Nat := 0
  count   : Nat := 1
  xid     : Nat := 0
  session : Nat := 0
  address : Nat := 0
  body    : List Byte := []
  deriving DecidableEq, Repr

/-- What one dwell of an observation receiver brings (R77): its samples with the number of the converter sample of the chain to which
each is aligned; 1.0, the full scale of the input, is 2^18. -/
structure DwellInput where
  samples : List (Nat × Cx) := []
  deriving DecidableEq, Repr

/-- The BOOT straps and the TEST_MODE pin as they are sampled (R440, R497). -/
structure BootPins where
  boot : BitVec 2
  test : Bool := false
  deriving DecidableEq, Repr

/-- The rows of spec/opcode_table.json. A command row carries the request that brings it to its mailbox; an event
row carries what the world outside contributes to the event. -/
inductive Instr where
  /-- R489. The always-on supply enters its window and the whole part is reset until every rail is in range and REFCLK
      runs. -/
  | powerOnReset (role : BitVec 2) (boot : BootPins)
  /-- R448. RESET_N is held low for at least 1 µs and everything except the always-on domain is reset, with straps
      sampled at its rising edge. -/
  | resetN (role : BitVec 2) (boot : BootPins)
  /-- R444. A boot stage completes and READY_STATUS.BOOT_STAGE moves to the next stage, or to FAILED when no image
      verifies. -/
  | bootStageAdvance (us : Nat) (host : Option Image) (badA badB : Bool)
  /-- R445. The part sets READY, starts held doorbells in mailbox order, trains DOWN and MIRROR ports and starts
      cassette identification. -/
  | ready
  /-- R443. A trial slot fails to reach READY within 2 s, so the ROM clears the preference, boots the other slot and
      writes FW_TRIAL_REVERT. -/
  | trialTimeout
  /-- R449. 1 ms after a warm-reset response the part mutes, drains cassettes, puts HBM in self-refresh and resets. -/
  | warmReset
  /-- R450. A management core fails to service its watchdog and FIRMWARE_WATCHDOG is raised at HALT. -/
  | watchdogTimeout
  /-- R450. 10 ms after the watchdog HALT the part performs a watchdog reset that keeps the HALT state. -/
  | watchdogReset
  /-- R451. A unit reset of one subsystem finishes, a UNIT_RESET record is written and the completion event is posted.
      -/
  | unitResetComplete (us : Nat)
  /-- R456. An enabled wake source in DORMANT starts a DORMANT_WAKE boot. -/
  | dormantWake (w : WakeSource) (us : Nat)
  /-- R456. After the leave frame the part enters STANDBY, completes the flash mirror, closes sessions and powers
      down. -/
  | dormantEntry (us : Nat)
  /-- R492. 1 ms after entry to DORMANT completes, PWR_EN is driven low. -/
  | pwrEnDrop
  /-- R453. At the named frame boundary the part mutes, drains cassettes and powers down its traffic domains for
      STANDBY. -/
  | standbyEntry
  /-- R455. Leaving STANDBY, running configuration is re-applied and the move completes when every chain has locked.
      -/
  | standbyExitComplete
  /-- R454. At the slot boundary the QUIET mute source clears and loops without recent measurement are created anew.
      -/
  | quietExit
  /-- R464. PWR_FAIL_N held low for 2 µs starts the hold-up actions: drain stop, QUIET, life copies, mirror flush and
      PWR_FAIL record. -/
  | pwrFailNFall (failed : BitVec 8)
  /-- R465. PWR_FAIL_N has been high for 100 ms with supplies in range, so the part returns to its previous power
      state and posts PWR_RESTORED. -/
  | pwrRestore
  /-- R29. In DORMANT each tick of the 32.768 kHz oscillator advances monotonic time by 60,000 Tc. -/
  | aonOscTick
  /-- R30. An air-time loop-tick boundary passes and per-tick work, HV link frame and gain-stack reports proceed. -/
  | loopTick (i : TickInput)
  /-- R30. A reference-slot boundary passes and slot-aligned changes take effect. -/
  | slotBoundary
  /-- R30. A 1 ms subframe boundary passes, at which pair heartbeats are sent. -/
  | subframeBoundary
  /-- R30. A 10 ms frame boundary passes, starting HELLO, STATUS and time-transfer exchanges and frame-aligned
      changes. -/
  | frameBoundary (i : FrameInput)
  /-- R162. A symbol of a band path's numerology ends, its envelope is measured and the uplink gate decision is
      applied. -/
  | symbolBoundary (d : Dir) (n : Nat) (firsts : List Nat) (convs : List (List Cx))
  /-- R501. 1 ms after it rose, PPS_OUT returns low. -/
  | ppsOutPulseEnd
  /-- R513. A donor synchronisation signal with a valid SFN is detected, counting towards qualification of the DONOR
      source. -/
  | donorDetection (d : DonorInput)
  /-- R513. Four expected synchronisation periods pass without detection and the DONOR source fails. -/
  | donorSyncTimeout
  /-- R513. A PTP Sync message is received and timestamped, and the servo offset is updated. -/
  | ptpSyncRx (m : PtpInput)
  /-- R32. No valid Sync message arrives for 3 s and the PTP source fails. -/
  | ptpSyncTimeout
  /-- R500. A rising edge on PPS_IN is timestamped as the phase reference. -/
  | ppsInEdge (widthNs : Nat)
  /-- R32. Two consecutive expected PPS_IN edges are missing while PPS is enabled, and the PTP source fails. -/
  | ppsInMissing
  /-- R32. Four frames pass without a valid time-transfer exchange and the FLOCK source fails. -/
  | flockSourceTimeout
  /-- R32. A FAILED timing source returns to SEARCHING after 1 s. -/
  | sourceRetryTimer (code : Nat)
  /-- R33. A higher-priority source has been USABLE for REVERT_HOLD and is selected. -/
  | revertHoldExpiry
  /-- R37. Phase error has stayed within ±50 ns for 16 loop ticks, so air time is LOCKED and ACQUIRED is set. -/
  | atLocked
  /-- R45. At the first loop-tick boundary at least 20 µs after a step decision, air time is stepped and TIME_STEP is
      written. -/
  | airTimeStep
  /-- R45. One full longest-pattern period (or 10 ms) after a step, STEP_PENDING clears. -/
  | stepPendingEnd
  /-- R39. REF_IN has shown 1 s of edges within ±2 ppm of 10 MHz and is qualified. -/
  | refInQualify (freq : Int)
  /-- R40. The time-error estimate exceeds TIME_ERR_LIMIT, TDD_ALLOWED clears and TIME_LOSS is raised. -/
  | timeErrLimitExceeded
  /-- R50. A host-scheduled command reaches its instant, is validated in full and runs, posting its completion event.
      -/
  | scheduledCommandFire
  /-- R54. At its effective even frame a TDD pattern change takes effect for every consumer. -/
  | tddPatternEffective (p : Nat)
  /-- R53. A verification window ends and the pattern passes, fails or is void, posting TDD_VERIFIED or TDD_MISMATCH.
      -/
  | tddVerifyWindowEnd (p : Nat) (late : Bool) (offset : Nat)
  /-- R33. Command setting timing-source priorities and air-time parameters. -/
  | atSourceConfig (r : HostRequest)
  /-- R52. Command defining a TDD pattern to take effect at a named even frame. -/
  | tddPatternSet (r : HostRequest)
  /-- R55. Command setting wall time, slewed or stepped. -/
  | wallTimeSet (r : HostRequest)
  /-- R50. Command scheduling another command for an air-time or monotonic instant. -/
  | atSchedule (r : HostRequest)
  /-- R51. Command cancelling a pending scheduled command or calibration grant. -/
  | atCancel (r : HostRequest)
  /-- R67. Command enabling, retuning or powering down a chain. -/
  | rfChainConfig (r : HostRequest)
  /-- R67. Command enabling or disabling a transmit chain. -/
  | rfTxEnable (r : HostRequest)
  /-- R62. Command setting a receive step attenuator. -/
  | rfRxAtten (r : HostRequest)
  /-- R71. Command requesting a calibration of selected chains. -/
  | rfCalRun (r : HostRequest)
  /-- R72. Command granting a calibration window to selected chains. -/
  | rfCalGrant (r : HostRequest)
  /-- R71. Command setting CAL_TEMP_DELTA, auto calibration and OVERDRIVE_LIMIT. -/
  | rfPolicy (r : HostRequest)
  /-- R77. Command mapping transmit chains to observation inputs and setting dwell and attenuation. -/
  | rfObsMap (r : HostRequest)
  /-- R64. A waiting attenuator request is applied 1 µs after the previous change. -/
  | attenDeferredApply (c : Nat)
  /-- R66. A synthesiser is declared locked after 2 µs in the lock window, and the chain moves to READY or waits to
      return ACTIVE. -/
  | synthLock (c us : Nat)
  /-- R66. A synthesiser is declared unlocked; a transmit output is disabled in hardware or a receive chain delivers
      GAPPED zeros, and SYNTH_UNLOCK is raised. -/
  | synthUnlock (c : Nat)
  /-- R67. At the first slot boundary after an enable or after lock, a chain becomes ACTIVE and any held command
      starts. -/
  | chainActivate (c : Nat)
  /-- R69. Lock is not declared within 2 ms, the command completes E_NOT_READY and the chain retunes to its previous
      LO. -/
  | lockTimeout (c : Nat)
  /-- R69. The chain does not relock on its previous LO within a further 2 ms and SYNTH_UNLOCK is raised. -/
  | relockTimeout (c : Nat)
  /-- R74. 10 µs before a slot boundary or grant start, due calibrations are sorted and started, beginning mute ramps
      of transmit chains. -/
  | calEvaluation
  /-- R72. A due calibration starts at its opportunity and the chain enters CALIBRATING. -/
  | calibrationStart (c : Nat)
  /-- R74. A calibration ends, records its temperature or raises SYNTH_CAL_FAIL or IMAGE_CAL_FAIL, and frees its tone.
      -/
  | calibrationComplete (c us : Nat) (vcoOk : Bool) (rejection : Int) (result : FrontResult)
  /-- R72. A host calibration grant begins and serves due calibrations of the chains it covers. -/
  | grantStart (handle : Nat)
  /-- R81. A converter self-check finds a stuck bit or the die-to-die link loses samples, and CONVERTER_FAULT is
      raised. -/
  | converterSelfCheckFail (c : Nat)
  /-- R77. At a loop-tick boundary the observation receiver moves to the next ACTIVE assigned chain. -/
  | obsDwellStart (o : Nat)
  /-- R77. An OBS dwell ends; its power, DPD pairs, ACLR and repetitive-controller bins are evaluated, or the skip is
      counted. -/
  | obsDwellEnd (o : Nat) (i : DwellInput)
  /-- R82. Command creating or changing a band path. -/
  | bpConfig (r : HostRequest)
  /-- R82. Command removing a band path. -/
  | bpRelease (r : HostRequest)
  /-- R109. Command configuring a band path's detector window and tap. -/
  | bpDetector (r : HostRequest)
  /-- R98. Command requesting realignment of selected band paths at a named frame. -/
  | bpAlign (r : HostRequest)
  /-- R99. Command setting the SYNC_ALIGN pin mode and masks. -/
  | bpSyncPin (r : HostRequest)
  /-- R113. Command configuring the DPD model of a transmit chain. -/
  | dpdConfig (r : HostRequest)
  /-- R116. Command freezing, resuming or resetting DPD coefficient sets. -/
  | dpdControl (r : HostRequest)
  /-- R101. The F-sample fade-out of a settling band path ends and the change is applied, starting the zero interval.
      -/
  | fadeOutEnd (d : Dir) (n : Nat)
  /-- R101. The S zero samples of a settle end and the fade-in begins. -/
  | settleZerosEnd (d : Dir) (n : Nat)
  /-- R107. The fade-in ends, the settle is over and BP_SETTLED is posted. -/
  | fadeInEnd (n : Nat)
  /-- R98. At the named frame the selected band paths are realigned and the SYNC_ALIGN OUT pulse is driven. -/
  | alignmentApply
  /-- R99. A rising edge on SYNC_ALIGN in IN mode requests an alignment at the first frame at least 2 ms later. -/
  | syncAlignEdge (held : Bool)
  /-- R99. 1 µs after an applied alignment the SYNC_ALIGN OUT pulse ends. -/
  | syncAlignPulseEnd
  /-- R117. The hardware phase check finds an unexplained slip and ALIGN_LOSS is raised. -/
  | alignLossDetect (d : Dir) (n : Nat)
  /-- R110. A detector window ends; results are latched, published and passed on, and the uplink-noise cap is updated.
      -/
  | detectorWindowEnd (d : Dir) (n : Nat) (firsts : List Nat) (convs : List (List Cx)) (symbols : List (List Nat))
  /-- R117. A detector fails its self-check and DETECTOR_FAULT is raised. -/
  | detectorSelfCheckFail (d : Dir) (n : Nat)
  /-- R117. A settle has not ended within twice its duration plus 100 µs and the band path is reinitialised. -/
  | pathSettleTimeout (d : Dir) (n : Nat)
  /-- R115. At the next slot boundary after a usable dwell the new DPD set is applied. -/
  | dpdUpdateApply (t : Nat)
  /-- R116. An update that worsened NMSE by more than 1 dB is reverted at the next slot boundary, possibly raising
      DPD_DIVERGE. -/
  | dpdUpdateRevert (t : Nat)
  /-- R114. After a temperature band change the DPD coefficient set switches at the next slot boundary. -/
  | dpdSetSwitch (t : Nat)
  /-- R102. A block arrives at a flow-fed egress band path and its SETTLING or GAPPED flag starts or releases the
      mute. -/
  | flowBlockArrival (eb flow ksps : Nat) (blk : Block)
  /-- R120. Command setting loop margin parameters or marking an ingress band path conducted. -/
  | lgLoopConfig (r : HostRequest)
  /-- R123. Command configuring an egress band path's Beacon pilot. -/
  | lgBeaconConfig (r : HostRequest)
  /-- R133. Command configuring a canceller instance. -/
  | lgCancelConfig (r : HostRequest)
  /-- R139. Command freezing, resuming, restarting or restoring a canceller. -/
  | lgCancelControl (r : HostRequest)
  /-- R130. Command configuring the hub's Beacon searcher. -/
  | lgSearchConfig (r : HostRequest)
  /-- R142. Command setting oscillation and penning thresholds. -/
  | lgPolicy (r : HostRequest)
  /-- R128. A pilot period ends; the correlation yields estimates, loop transitions, qualification and hub caps. -/
  | pilotPeriodEnd (eb : Nat) (m : PilotInput)
  /-- R141. At a 125 µs boundary a loop in LADDER lowers its cap by 1 dB. -/
  | ladderStep (eb : Nat)
  /-- R142. A line-detector FFT frame is evaluated every 12.5 µs and may declare oscillation. -/
  | lineDetectorFrame (d : Dir) (n : Nat) (blocks : List RawBlock)
  /-- R143. The hold-off ends and the loop returns to GUARDED at the next slot boundary with a reduced cap. -/
  | holdoffEnd (d : Dir) (n : Nat)
  /-- R137. After 1,024 admitted samples the RE_ACQUIRE scalar fit completes and the previous credit applies again. -/
  | reacquireFitComplete (inst : Nat)
  /-- R139. A diverged canceller restores its snapshot at the next slot boundary. -/
  | cancellerSnapshotRestore (inst : Nat)
  /-- R132. A MARGIN_CAP control frame from the hub is received by a member. -/
  | marginCapReceive (f : MarginCap)
  /-- R131. A received hub cap takes effect at the air-time instant it carries. -/
  | marginCapApply (eb : Nat)
  /-- R151. M_cr has stayed below M_REQ for 100 ms and MARGIN_LOW is raised. -/
  | marginLowTimeout (eb : Nat)
  /-- R151. A guarded loop has had no valid measurement for 500 ms, or no hub cap for 100 ms, and BEACON_LOSS is
      raised. -/
  | beaconLossTimeout (eb : Nat)
  /-- R149. The active hub receives an ADMIT_REQ and names an admission frame. -/
  | admitReqReceive (member : Nat)
  /-- R149. A member receives its ADMIT_GRANT naming the admission frame. -/
  | admitGrantReceive (frame : Nat)
  /-- R150. At the admission frame PADDOCK units are admitted, exclusion is removed and soft-start begins. -/
  | admissionFrame
  /-- R152. Command setting G_cmd of an egress band path. -/
  | gsSetGain (r : HostRequest)
  /-- R156. Command setting or clearing the HOST mute source. -/
  | gsMute (r : HostRequest)
  /-- R158. Command setting a host network-protection back-off. -/
  | npBackoffSet (r : HostRequest)
  /-- R158. Command setting NP_BACKOFF_MAX and NP_SHARE_MAX. -/
  | npPolicy (r : HostRequest)
  /-- R161. Command configuring an uplink gate. -/
  | ulGateConfig (r : HostRequest)
  /-- R166. Command configuring uplink-noise control. -/
  | ulNoiseConfig (r : HostRequest)
  /-- R169. Command configuring donor rules. -/
  | npDonorConfig (r : HostRequest)
  /-- R173. Command configuring overpower and emission rules. -/
  | npOutputConfig (r : HostRequest)
  /-- R156. A mute, unmute, exclusion ramp or gain slew of a gain stack reaches its end. -/
  | gainRampEnd (eb : Nat)
  /-- R163. The noise-estimate window fills for the first time and NOISE_PENDING clears. -/
  | noiseWindowFilled (ib : Nat)
  /-- R167. CAP_UL has stayed below G_cmd − UL_DEFICIT for 1 s and UL_NOISE_RISE raises G_OPEN. -/
  | ulNoiseRiseTimeout (eb : Nat)
  /-- R168. The donor level stays below DONOR_MIN for DONOR_LOSS_TIME and DONOR_LOSS is raised. -/
  | donorLossTimeout (ib : Nat)
  /-- R170. The donor level has stayed at or above DONOR_MIN + 3 dB for 1 s and the loss condition ends. -/
  | donorRecovery (ib : Nat)
  /-- R172. The donor level exceeds DONOR_MAX for 32 loop ticks, DONOR_OVERLOAD is raised and the attenuator rises 6
      dB. -/
  | donorOverloadDetect (ib : Nat)
  /-- R176. Command creating, modifying or releasing a loop slot. -/
  | clSlotConfig (r : HostRequest)
  /-- R197. Command writing an inactive coefficient bank. -/
  | clBankWrite (r : HostRequest)
  /-- R197. Command requesting a bank swap of selected slots. -/
  | clBankSwap (r : HostRequest)
  /-- R178. Command setting a slot's base set-point. -/
  | clSetpoint (r : HostRequest)
  /-- R192. Command disabling, enabling or re-initialising a slot. -/
  | clSlotControl (r : HostRequest)
  /-- R193. Command configuring a repetitive controller. -/
  | clRepConfig (r : HostRequest)
  /-- R202. Command starting or ending a test-signal injection. -/
  | clInject (r : HostRequest)
  /-- R204. Command arming a trace buffer. -/
  | clTraceConfig (r : HostRequest)
  /-- R204. Command returning trace entries. -/
  | clTraceRead (r : HostRequest)
  /-- R190. Command setting plausibility, saturation and resume parameters. -/
  | clPolicy (r : HostRequest)
  /-- R181. A due slot iteration runs its law, writes its output or holds, and applies any pending bank swap. -/
  | slotIteration (n : Nat) (i : IterInput)
  /-- R199. An iteration misses its deadline and is abandoned; the third consecutive overrun raises LOOP_OVERRUN. -/
  | iterationOverrun (n : Nat)
  /-- R200. After RESUME_COUNT on-time iterations the overrun hold ends. -/
  | overrunHoldEnd (n : Nat)
  /-- R206. The output has sat at a limit for SAT_TIME and LOOP_SATURATED is raised. -/
  | loopSaturatedTimeout (n : Nat)
  /-- R195. At each bin boundary the repetitive controller writes G_cmd plus its table value. -/
  | repBinBoundary (t : Nat)
  /-- R196. At the start of the next pattern period the repetitive table is cleared. -/
  | repTableClear (t : Nat)
  /-- R203. An injection starts at the first iteration at or after its start frame. -/
  | injectionStart (n : Nat)
  /-- R203. An injection ends after its count or early, and its completion event is posted. -/
  | injectionEnd (n : Nat)
  /-- R209. No valid link frame for 10 µs clamps every gate, opens every drain switch and raises PA_SUPPLY. -/
  | hvLinkTimeout
  /-- R215. Command configuring a cassette's mode and protection. -/
  | paConfig (r : HostRequest)
  /-- R216. Command setting LEAD and LAG per band. -/
  | paTiming (r : HostRequest)
  /-- R226. Command writing the VG_ON code per band. -/
  | paBiasTable (r : HostRequest)
  /-- R219. Command setting a cassette comparator's thresholds per band. -/
  | cmpConfig (r : HostRequest)
  /-- R223. Command setting comparator speed modes. -/
  | cmpMode (r : HostRequest)
  /-- R211. Command enabling or shutting down cassettes. -/
  | paEnable (r : HostRequest)
  /-- R227. Command starting a gate-bias calibration. -/
  | paBiasCal (r : HostRequest)
  /-- R232. Command setting life rating, derating, uncertified policy and VHV window. -/
  | casPolicy (r : HostRequest)
  /-- R228. Command returning a cassette's identity and life records. -/
  | casIdentityRead (r : HostRequest)
  /-- R211. DSW_RAMP plus 50 µs after drain-up the cassette goes READY or DRAINING by the drain voltage. -/
  | drainRampEnd (n : Nat) (vDrain : Int)
  /-- R211. A draining cassette reaches PINCHED once its drain is below 5 V or 10 ms elapse. -/
  | drainingComplete (n us : Nat)
  /-- R215. A scheduled gate ON edge drives VG to VG_ON, applying any pending band change. -/
  | gateOnEdge (n : Nat)
  /-- R215. A scheduled gate OFF edge returns VG to the clamp. -/
  | gateOffEdge (n : Nat)
  /-- R220. A comparator enters TRIP and clamps the gate, and for VG or supply trips opens drain switches, counting
      the trip. -/
  | comparatorTrip (x : CmpSample)
  /-- R219. A comparator input returns inside its window with hysteresis and leaves TRIP. -/
  | comparatorTripClear (x : CmpSample)
  /-- R221. T_OFF_MIN after leaving TRIP the gate takes the scheduled level. -/
  | tOffMinExpiry (n : Nat)
  /-- R222. A comparator's input is seen on the safe side and the comparator is qualified. -/
  | comparatorQualify (x : CmpSample)
  /-- R224. A trip has lasted TRIP_HOLD without a break and its class is raised. -/
  | tripHoldExpiry (c : Nat)
  /-- R228. Every second the cassette serial is read, raising CASSETTE_ID on a missing or changed serial. -/
  | cassetteIdPoll (n : Nat) (serial : Option Nat)
  /-- R229. Identification reads the record and certificate, verifies the challenge and moves the cassette to PINCHED
      or keeps it ABSENT. -/
  | cassetteIdentify (n : Nat) (i : IdentInput)
  /-- R227. A bias calibration finishes its search, writes the table or raises GATE_BIAS, and posts completion. -/
  | biasCalComplete (n : Nat) (i : BiasInput)
  /-- R230. At each whole minute the cassette stress counter grows, possibly posting the warning or raising
      CASSETTE_LIFE. -/
  | stressMinute
  /-- R231. Every 10 minutes the older life-record copy is written. -/
  | lifeRecordWrite
  /-- R237. Command assigning spare housekeeping slots to channels. -/
  | hkSlotMap (r : HostRequest)
  /-- R241. Command requesting an urgent housekeeping slot. -/
  | hkUrgent (r : HostRequest)
  /-- R245. Command measuring a system-calibration point or reverting to factory. -/
  | hkCalPoint (r : HostRequest)
  /-- R243. Command setting the test DAC mode and code. -/
  | hkTestDac (r : HostRequest)
  /-- R247. Command setting a supply window. -/
  | hkSupplyWindow (r : HostRequest)
  /-- R254. Command setting throttle and shutdown temperatures. -/
  | hkThermalPolicy (r : HostRequest)
  /-- R235. A housekeeping slot ends and its samples are accumulated for its channel. -/
  | hkSlotEnd (i : HkSlotInput)
  /-- R241. An inserted urgent slot ends and its results go to the requester. -/
  | urgentSlotEnd (i : HkSlotInput)
  /-- R238. A round ends; records, temperatures, bands, throttle, shutdown, supply windows and converter tests are
      updated. -/
  | hkRoundEnd (sensors : List SensorInput)
  /-- R246. A system-calibration measurement completes and coefficients are stored, or the completion reports failure.
      -/
  | calPointComplete (written : Bool)
  /-- R240. Reading the low half of a channel's SUM latches the whole channel record into its shadow. -/
  | channelRecordLatch (c : Nat)
  /-- R257. Every 10 µs the clocks are measured and a deviant clock raises CLOCK_FAULT. -/
  | clockMonitorCheck (freqs : List Nat)
  /-- R261. Command configuring a port's function, bond and asymmetry. -/
  | flPortConfig (r : HostRequest)
  /-- R273. Command setting flock identity and membership parameters. -/
  | flFlockConfig (r : HostRequest)
  /-- R277. Command starting a join or rejoin. -/
  | flJoin (r : HostRequest)
  /-- R282. Command requesting a leave at a named frame. -/
  | flLeave (r : HostRequest)
  /-- R270. Command retraining, penning, releasing or testing a lane. -/
  | flLaneControl (r : HostRequest)
  /-- R281. Command returning a member's record on the hub. -/
  | flMemberQuery (r : HostRequest)
  /-- R280. Command expelling a member and blocking its serial. -/
  | flExpel (r : HostRequest)
  /-- R266. A powered lane detects signal and starts CDR lock and training. -/
  | signalDetect (l : Nat)
  /-- R266. A lane completes training, alignment and HELLO exchange and is UP. -/
  | laneUp (l : Nat) (precoding : Bool)
  /-- R266. A lane is not UP within 50 ms and returns to SIGNAL_WAIT. -/
  | laneTrainTimeout (l : Nat)
  /-- R268. Loss of signal or FEC lock, or excess uncorrectables, takes a lane DOWN and raises LANE_DOWN. -/
  | laneDown (l : Nat) (why : LaneLoss)
  /-- R268. The retrain wait of a DOWN lane expires and the lane retrains. -/
  | retrainBackoffExpiry (l : Nat)
  /-- R268. The pre-FEC symbol error ratio exceeds 10^−4 for 100 frames and LANE_SER_WARN is posted. -/
  | laneSerWarn (l : Nat)
  /-- R270. A returned lane completes LANE_QUAL clean frames and is offered to Drover. -/
  | laneQualComplete (l : Nat)
  /-- R269. A LANE_SET control frame naming a port's lane set from a frame is received. -/
  | laneSet (port lanes frame : Nat)
  /-- R310. At the named frame both sides change the port's flit distribution. -/
  | laneSetApply (port : Nat)
  /-- R262. A flit arrives; it is checked and its blocks or control frames are handled, or it is discarded. -/
  | flitReceive (port : Nat) (f : Flit)
  /-- R275. A HELLO frame is received and the port's role as upstream, alternate, downstream or idle is evaluated. -/
  | hello (port : Nat) (h : Hello)
  /-- R271. A TT_REQ is received, its arrival time recorded and a TT_RESP returned. -/
  | ttReq (port t1 : Nat)
  /-- R271. A TT_RESP is received and link delay and peer offset are computed. -/
  | ttResp (port t2 t3 bound : Nat) (freq : Int)
  /-- R278. A JOIN_REQ is received, verified, rate-limited and admitted, forwarded or NAKed. -/
  | joinReq (port : Nat) (h : FrameHeader) (q : JoinReq)
  /-- R280. A JOIN_RESP is received, routed back by a branch or moving the member to JOIN_WAIT, BACKOFF or REFUSED. -/
  | joinResp (port : Nat) (h : FrameHeader) (a : JoinResp)
  /-- R282. A LEAVE frame reaches the hub, which schedules the removal and holds the ID. -/
  | leave (port : Nat) (h : FrameHeader) (member frame reason : Nat)
  /-- R282. A LEAVE_ACK naming a leave frame is received by a member. -/
  | leaveAck (port : Nat) (h : FrameHeader) (member frame reason : Nat)
  /-- R281. A STATUS frame with liveness and reports is received from a child or forwarded. -/
  | status (port : Nat) (h : FrameHeader) (x : StatusReport)
  /-- R283. A PATH_DOWN from the upstream peer sends the member into REHOMING. -/
  | pathDown (port : Nat) (h : FrameHeader)
  /-- R305. A REHOME frame reaches the hub and triggers a re-placement. -/
  | rehome (port : Nat) (h : FrameHeader) (member parent hops : Nat)
  /-- R281. A LOST frame reaches the hub, which raises MEMBER_LOST and holds the IDs. -/
  | lost (port : Nat) (h : FrameHeader) (root count : Nat)
  /-- R280. An EXPEL frame makes the member leave at once and enter REFUSED. -/
  | expel (port : Nat) (h : FrameHeader)
  /-- R277. Once join is enabled, a path exists and air time is LOCKED on FLOCK, the member sends JOIN_REQ or REJOIN.
      -/
  | joinReqSend
  /-- R277. 16 frames pass without JOIN_RESP and the request is sent again. -/
  | joinRespTimeout
  /-- R280. RETRY_AFTER frames in BACKOFF pass and the member sends again. -/
  | backoffExpiry
  /-- R278. At the admission frame the member becomes JOINED and its flows are placed. -/
  | joinAdmission
  /-- R281. A child sends no STATUS for MEMBER_TIMEOUT frames, or no REHOME after its port goes down, and the parent
      sends LOST. -/
  | memberTimeout (member : Nat)
  /-- R283. No eligible port appears within REHOME_WAIT and the member becomes ORPHAN. -/
  | rehomeWaitExpiry
  /-- R281. LOST_HOLD or LEAVE_HOLD expires and the held member ID is freed. -/
  | idHoldExpiry (member : Nat)
  /-- R282. At the leave frame the member's transmitters mute, its gates close and its flows are removed. -/
  | leaveFrame
  /-- R301. Command setting a flow intent on the active hub. -/
  | dvIntentSet (r : HostRequest)
  /-- R301. Command clearing an intent. -/
  | dvIntentClear (r : HostRequest)
  /-- R294. Command setting D_T, plan lead, split and fill limit. -/
  | dvPolicy (r : HostRequest)
  /-- R303. Command requesting an incremental or full re-placement. -/
  | dvReplace (r : HostRequest)
  /-- R291. Command returning a flow's queue descriptor. -/
  | dvFlowQuery (r : HostRequest)
  /-- R311. Command penning or releasing a flow unit. -/
  | dvFlowControl (r : HostRequest)
  /-- R305. At the first frame boundary after a trigger Drover computes a plan and sends PLAN frames. -/
  | placementCompute
  /-- R306. A PLAN frame with descriptor changes is received by a member and acknowledged. -/
  | plan (port : Nat) (h : FrameHeader) (seq frame dT : Nat) (final : Bool) (entries : List PlanEntry)
  /-- R306. A PLAN_ACK with its status is received by the hub. -/
  | planAck (port : Nat) (h : FrameHeader) (seq status : Nat)
  /-- R306. A PLAN_CANCEL is received and the plan and every later one are discarded. -/
  | planCancel (port : Nat) (h : FrameHeader) (seq : Nat)
  /-- R306. An ACK is missing at the start of frame F − 1; the hub cancels and reissues the plan. -/
  | planAckTimeout
  /-- R288. A BIND_STATUS frame reports binding changes and triggers re-placement. -/
  | bindStatus (port : Nat) (h : FrameHeader) (l : List Binding)
  /-- R308. A FLOW_REPORT frame reports late and dropped blocks. -/
  | flowReport (port : Nat) (h : FrameHeader) (l : List (Nat × Nat × Nat))
  /-- R290. One frame before a plan, descriptors it activates are loaded into the cache. -/
  | descriptorLoad
  /-- R307. At frame F a member switches its descriptors to the new placement by block timestamp. -/
  | planApply
  /-- R307. D_T after AT F:0 the old descriptor fields are released. -/
  | planDrainEnd
  /-- R297. At the named frame a new D_T applies, flow-fed egress band paths settle and hub cancellers restart cold.
      -/
  | targetDelayApply
  /-- R295. At a summing member's deadline the arrived inputs of a timestamp are added and forwarded. -/
  | sumDeadline (flow frame offset : Nat)
  /-- R296. A block missing at its consume instant is replaced by a GAPPED block and counted late. -/
  | consumeDeadline (flow : Nat) (at_ : AirInstant)
  /-- R311. A flow unit in PADDOCK completes QUAL_FRAMES clean frames and qualifies. -/
  | flowQualComplete (flow : Nat)
  /-- R322. Command arming a capture slot. -/
  | capArm (r : HostRequest)
  /-- R324. Command triggering armed capture slots with HOST enabled. -/
  | capTrigger (r : HostRequest)
  /-- R323. Command disarming, stopping, releasing or draining a capture slot. -/
  | capControl (r : HostRequest)
  /-- R331. Command configuring the archive. -/
  | arConfig (r : HostRequest)
  /-- R330. Command mounting, formatting or managing archive captures. -/
  | arControl (r : HostRequest)
  /-- R334. Command restoring an archived capture into a slot. -/
  | arRestore (r : HostRequest)
  /-- R316. Command emptying the retired-extent list from the next power-on reset. -/
  | memRetireClear (r : HostRequest)
  /-- R324. The named AT instant of an armed slot arrives and triggers it. -/
  | captureAtInstant (slot : Nat)
  /-- R323. Every source reaches the stop instant and the capture becomes COMPLETE, joining the drain queue. -/
  | captureStop (slot : Nat)
  /-- R331. A capture's segments and both index copies are written and it becomes ARCHIVED. -/
  | drainComplete
  /-- R334. A restore finishes and the slot becomes RESTORED. -/
  | restoreComplete (corrupt : List Nat)
  /-- R333. An NVMe command fails or times out, the link goes down or a CRC fails, and the archive goes OFFLINE. -/
  | archiveFault (why : ArchiveFail)
  /-- R315. The patrol scrub reads HBM words and corrects errors, counting towards retirement. -/
  | patrolScrub (errors : List Nat)
  /-- R317. An uncorrectable HBM error raises HBM_ECC at FENCE and retires the extent. -/
  | hbmUncorrectable (extent : Nat) (flow inst : Option Nat) (chunk : Nat × Nat)
  /-- R316. A retiring fixed-region extent is remapped onto a free capture extent at the next frame boundary. -/
  | extentRemap
  /-- R314. HBM stack 1 has held no extent for 10 s and is powered down. -/
  | stackPowerDown
  /-- R336. Command configuring the Bell link. -/
  | bellConfig (r : HostRequest)
  /-- R345. Command enabling or disabling the Bell link. -/
  | bellEnable (r : HostRequest)
  /-- R358. Command installing or deleting a keeper key. -/
  | keeperKey (r : HostRequest)
  /-- R360. Command setting chain-traffic parameters. -/
  | bellChainConfig (r : HostRequest)
  /-- R343. A sync word is detected; reception starts, restarts on a better sync or is captured. -/
  | syncDetect (x : SyncInput)
  /-- R339. A Bell header is decoded and found valid or aborted as HDR_FAIL. -/
  | headerComplete (header crc : Nat)
  /-- R348. More than four clip events in one symbol abort the reception as COLLIDED. -/
  | clipCollision (events : Nat)
  /-- R350. A payload's last coded bit is received and decoded, accepted or counted in PAYLOAD_FAIL. -/
  | payloadComplete (b : BellBody)
  /-- R357. An accepted keeper request is authenticated and its service run, scheduling a response. -/
  | keeperRequest
  /-- R360. An accepted chain packet is handled as HELLO, frames for relaying or ACK. -/
  | chainPacketReceive
  /-- R351. A queued packet starts transmission once the receiver is free and any CCA holds. -/
  | bellTxStart (level : Int)
  /-- R351. A transmission's last symbol and turnaround end and the receiver returns to SEARCH. -/
  | bellTxEnd (switched : Bool)
  /-- R352. A clear-channel wait expires and the chain packet tries again, or is dropped after 8 attempts. -/
  | ccaRetry (level : Int)
  /-- R352. A keeper response reaches its scheduled start. -/
  | keeperResponseDue
  /-- R352. A keeper response not started 10 ms after its scheduled start is dropped. -/
  | keeperResponseExpiry
  /-- R355. A transmission lasts 100 ms and is ended by the watchdog, raising BELL_FAULT. -/
  | bellTxWatchdog
  /-- R354. SYN.BELL calibration starts when the receiver is in SEARCH with an empty queue. -/
  | synBellCalStart
  /-- R354. SYN.BELL locks after calibration and the receiver returns to SEARCH. -/
  | synBellLock (locked : Bool)
  /-- R364. 1 s after lock following BELL_FAULT, transmission resumes. -/
  | bellTxResume
  /-- R360. Every HELLO_INT the member broadcasts a chain HELLO. -/
  | chainHelloTimer
  /-- R360. A neighbour entry expires after 3 × HELLO_INT without a HELLO. -/
  | neighbourExpiry (member : Nat)
  /-- R361. Every STATUS_INT a non-JOINED member sends STATUS and records to its relay. -/
  | chainStatusTimer
  /-- R361. A unicast chain packet gets no ACK and is resent, or the relay is dropped. -/
  | chainAckTimeout
  /-- R359. A keeper_id's 300 s lockout ends. -/
  | keeperLockoutExpiry (keeper : Nat)
  /-- R373. Command setting a class's severity, ceiling and clear policy. -/
  | faultClassConfig (r : HostRequest)
  /-- R389. Command setting FAULT_N_LEVEL and FF_LEVEL. -/
  | faultPolicy (r : HostRequest)
  /-- R387. Command acknowledging fault entries. -/
  | faultAck (r : HostRequest)
  /-- R375. Command adding the host pen reason to a unit. -/
  | faultUnitPen (r : HostRequest)
  /-- R388. Command removing host and untracked pen reasons from a unit. -/
  | faultUnitRelease (r : HostRequest)
  /-- R377. Command scheduling release of the HALT state. -/
  | faultHaltRelease (r : HostRequest)
  /-- R380. Command clearing the first-fault record. -/
  | faultFfClear (r : HostRequest)
  /-- R515. Command injecting a raise or end of a fault class on a unit. -/
  | faultInject (r : HostRequest)
  /-- R370. Command returning fault entries. -/
  | faultTableRead (r : HostRequest)
  /-- R368. A collector cycle orders, classifies and records the raises and ends latched in the previous cycle. -/
  | collectorCycle
  /-- R374. At the start of cycle n + 2 ordered reactions begin and consequence windows open. -/
  | reactionStart
  /-- R378. A reaction reaches completion and its window's closing time is set. -/
  | reactionComplete
  /-- R383. A consequence window closes and persisting consequential conditions are raised afresh. -/
  | consequenceWindowClose
  /-- R377. At the release frame the HALT mute source clears and HALT_RELEASED is written. -/
  | haltReleaseFrame
  /-- R400. Command switching the Logbook mode. -/
  | logMode (r : HostRequest)
  /-- R397. Command returning Logbook records. -/
  | logRead (r : HostRequest)
  /-- R409. Command clearing the active bank. -/
  | logClear (r : HostRequest)
  /-- R405. Command retesting failed Logbook banks. -/
  | logMediaReset (r : HostRequest)
  /-- R511. Command writing a host note. -/
  | logWrite (r : HostRequest)
  /-- R404. Command verifying a span of seals. -/
  | logVerify (r : HostRequest)
  /-- R395. A submitted record is committed, merged, suppressed or lost, with seals inserted at multiples of 1,024. -/
  | recordCommit
  /-- R409. After the mirror is completed the bank is emptied and LOG_CLEARED committed. -/
  | logClearComplete (mirrored : Bool)
  /-- R405. The hourly bank scrub runs, and an uncorrectable error switches to the spare bank with LOG_MEDIA. -/
  | logBankScrub (corrected : Nat) (badA badB : Bool)
  /-- R407. A record is written to the flash mirror after a later commit or 1 s unchanged. -/
  | mirrorWrite (written retried : Bool)
  /-- R421. Writing DOORBELL captures requests and makes mailboxes PENDING or sets DOORBELL_OVERRUN. -/
  | doorbellWrite (path : HostPath) (mask : BitVec 16)
  /-- R424. The next registered command starts, is validated and runs, and its response is written. -/
  | commandStart
  /-- R434. Writing 1s to IRQ_STATUS clears source bits and updates IRQ_N. -/
  | irqStatusWrite (w : Word)
  /-- R434. Writing IRQ_ENABLE may signal vectors whose bits are already set. -/
  | irqEnableWrite (w : Word)
  /-- R435. Writing IRQ_N_ENABLE re-evaluates the IRQ_N level. -/
  | irqNEnableWrite (w : Word)
  /-- R422. Writing 1s to DOORBELL_OVERRUN clears its bits. -/
  | doorbellOverrunWrite (w : Word)
  /-- R436. Writing EVT_ACK consumes events and starts a fresh hold-off if some remain. -/
  | evtAckWrite (w : Word)
  /-- R436. The moderation hold-off elapses with unacknowledged events and EVENT is set. -/
  | eventHoldoffExpiry
  /-- R439. Writing 1s to SITE_EDGE clears edge bits. -/
  | siteEdgeWrite (w : Word)
  /-- R397. Writing LOG_CURSOR selects the records shown in the Logbook window from the next read. -/
  | logCursorWrite (w : Word)
  /-- R328. Writing CAP_WIN_SLOT or CAP_WIN_PAGE remaps the capture window from the next read. -/
  | capWinWrite (page : Bool) (w : Word)
  /-- R413. A write to any other register takes effect if aligned and writable, or is ignored and counted in
      BAD_ACCESS. -/
  | registerWrite (path : HostPath) (address size : Nat) (w : Word)
  /-- R14. Reading the low half of a 64-bit value copies the high half and its round number into the shadow. -/
  | lowHalfRead (path : HostPath) (address : Nat)
  /-- R414. An FLR, hot reset, PE_PERST_N or link loss resets only the PCIe side of the host interface. -/
  | pcieReset (linkUp : Bool)
  /-- R416. A management REQUEST datagram rings a mailbox, resends a stored response or is ignored. -/
  | ethRequest (d : EthDatagram)
  /-- R415. A management READ datagram returns READ_DATA from the host address map. -/
  | ethRead (d : EthDatagram)
  /-- R418. An SPI transfer reads or writes words of the host address map. -/
  | spiTransfer (command address count : Nat) (words : List Word)
  /-- R419. An I2C transfer sets the register pointer or reads the status map. -/
  | i2cTransfer (written : List Byte) (count : Nat)
  /-- R428. An unconsumed session nonce is replaced 60 s after its issue. -/
  | nonceExpiry (path : HostPath)
  /-- R429. A session is closed after SESSION_IDLE without a request and SESSION_EXPIRED is posted. -/
  | sessionIdleExpiry (session : Nat)
  /-- R428. A host path's 300 s session lockout ends. -/
  | hostLockoutExpiry (path : HostPath)
  /-- R439. Every 1 ms each enabled site input is sampled and an edge is accepted after DEBOUNCE samples. -/
  | siteSample (pins : BitVec 16)
  /-- R430. Command echoing its payload. -/
  | sysNop (r : HostRequest)
  /-- R428. Command opening a session. -/
  | sysSessionOpen (r : HostRequest)
  /-- R429. Command closing a session. -/
  | sysSessionClose (r : HostRequest)
  /-- R411. Command storing mailbox paths, idle time and I2C address. -/
  | sysHostConfig (r : HostRequest)
  /-- R415. Command storing Ethernet and PTP settings. -/
  | sysNetConfig (r : HostRequest)
  /-- R439. Command configuring site inputs. -/
  | sysSiteConfig (r : HostRequest)
  /-- R453. Command moving the part between power states. -/
  | pwrStateSet (r : HostRequest)
  /-- R456. Command setting wake sources and wake state. -/
  | pwrWakeConfig (r : HostRequest)
  /-- R26. Command setting POWER_LIMIT. -/
  | pwrLimitSet (r : HostRequest)
  /-- R448. Command requesting a warm or unit reset. -/
  | pwrReset (r : HostRequest)
  /-- R458. Command installing credentials and moving BLANK to PROVISIONED. -/
  | lcProvision (r : HostRequest)
  /-- R458. Command advancing the lifecycle to DEPLOYED or RETURNED. -/
  | lcAdvance (r : HostRequest)
  /-- R6. Command storing or removing a role for the next reset. -/
  | lcRoleSet (r : HostRequest)
  /-- R462. Command installing a credential, flock key or debug key. -/
  | keyInstall (r : HostRequest)
  /-- R460. Command allowing or forbidding AUTH debug. -/
  | dbgPolicy (r : HostRequest)
  /-- R441. Command writing data into the non-running image slot. -/
  | fwWrite (r : HostRequest)
  /-- R443. Command verifying, committing or preferring an image slot. -/
  | fwControl (r : HostRequest)
  /-- R463. Zeroisation for RETURNED completes, the return credential is installed and KEYS_ZEROISED is written. -/
  | keysZeroised
  /-- R459. A debug AUTH signature is checked and opens an AUTH session or counts a failure. -/
  | debugAuthRequest (signature : List Byte)
  /-- R459. An OPEN debug request in BLANK or RETURNED opens an OPEN session. -/
  | debugOpenRequest (halt : Bool)
  /-- R459. A debug session closes on disconnection or 600 s of inactivity. -/
  | debugSessionClose (disconnect : Bool)
  /-- R460. The 300 s debug port lockout ends. -/
  | debugLockoutExpiry
  /-- R466. A digest mismatch, glitch, key-slot write or inconsistent OTP raises SECURITY_VIOLATION at HALT. -/
  | securityViolation (kind : Nat)
  /-- R468. Command storing the hub-pair configuration. -/
  | pairConfig (r : HostRequest)
  /-- R475. Command requesting a planned or forced switchover. -/
  | pairSwitchover (r : HostRequest)
  /-- R479. Command reading the frozen mirrored Logbook tail. -/
  | pairTailRead (r : HostRequest)
  /-- R474. A PAIR_HB heartbeat is received, resolving roles or triggering demotion after a split. -/
  | pairHb (port : Nat) (h : Heartbeat)
  /-- R469. No heartbeat arrives within 500 µs of a subframe boundary on a mirror link. -/
  | pairHbMissed (link : Nat)
  /-- R473. A PAIR_SYNC mirror frame is received and applied in sequence. -/
  | pairSync (seq : Nat) (item : PairItem)
  /-- R473. Every 10 ms the active hub sends loop-guard models and loop states to the standby. -/
  | mirrorPeriodicSync
  /-- R474. A WAITING part hears no heartbeat within 2 s or STANDBY_WAIT and becomes ACTIVE_ALONE. -/
  | pairWaitTimeout
  /-- R480. A bulk transfer does not end within 2 s and PAIR_LINK is raised. -/
  | bulkSyncTimeout
  /-- R480. After 100 ms of heartbeats on every link PAIR_LINK ends. -/
  | pairLinkRecovery
  /-- R476. At the takeover frame the standby increases the term, becomes member 0 and bellwether, and re-places the
      flock. -/
  | pairTakeover
  /-- R479. At the frame boundary the losing or switching active hub mutes, takes member ID 1 and enters
      STANDBY_SYNCING. -/
  | pairDemote
  /-- R261. 5 ms after reset the UP and RING ports power their lanes and start training. -/
  | portTrainingStart
  /-- R39. REF_IN edges stop or leave ±2 ppm of 10 MHz and REF_IN loses its qualification, so holdover falls back to
      the averaged offset and HOLDOVER_STABILITY_LOCAL. -/
  | refInLoss (edges : Bool)
  /-- R314. HBM3 stack 1 finishes powering up, within 30 ms, and the command waiting for it completes, for example a
      CAP_ARM entering ARMED. -/
  | stackPowerUpComplete
  /-- R315. A read outside the patrol scrub returns a corrected HBM error, which rewrites the word, is counted and may
      retire the extent or raise HBM_ECC. -/
  | hbmCorrectedError (extent : Nat)
  /-- R330. An archive MOUNT, UNMOUNT, FORMAT, delete or KEEP change finishes and posts its completion event. -/
  | arControlComplete (d : ArchiveDevice)
  /-- R405. The full test of the targeted Logbook banks finishes; a passing bank becomes spare or active, and the
      completion carries OK or E_INTEGRITY. -/
  | logMediaResetComplete (passA passB : Bool)
  /-- R404. Verification of a span of seals finishes and posts OK or E_INTEGRITY with the first failing seal. -/
  | logVerifyComplete
  /-- R442. Verification of the non-running image slot under FW_CONTROL action 0 finishes, marking the slot preferred
      on trial or completing E_INTEGRITY. -/
  | fwVerifyComplete (image : Option Image)
  /-- R222. A cassette's comparators are not all qualified within 100 ms of PA_ENABLE, and its completion carries
      E_NOT_READY. -/
  | paEnableQualTimeout (n : Nat)
  /-- R419. Every 100 ms of monotonic time the heartbeat register of the I2C status map is incremented. -/
  | i2cHeartbeatTick
  deriving DecidableEq, Repr

end Sys2Proof
end

