-- ==== Sys2Proof/Decode.lean ====
section
/-! DEFINITION. The command that a word spells. No row of spec/opcode_table.json gives any bits: a command reaches the part as a
request in a mailbox, an event from its surroundings, and neither is a word of an encoding. -/

namespace Sys2Proof

/-- No word spells a command. -/
def decodeTableWord (nbits w : Nat) : Option Instr :=
  let _ := nbits
  let _ := w
  none

end Sys2Proof
end

