-- ==== Sys2Proof/Machine/State.lean ====
section
/-! DEFINITION. The state of the part as plain data: every register, buffer, counter, mode and pin the spec gives it,
grouped by the subsystem that owns it, the queue of commands that wait, and the two ways in which a step can stop.
Each field names the rule that gives it; the value after `:=` is its value at reset. -/

namespace Sys2Proof.Machine

/-! ## Codes shared by every subsystem -/

/-- Session roles (R428, R430); each includes the ones before it. -/
inductive Role where
  | monitor | operate | admin
  deriving DecidableEq, Repr

/-- Power states (R452). -/
inductive PowerState where
  | active | quiet | standby | dormant
  deriving DecidableEq, Repr

/-- Roles of the part (R3, R4). -/
inductive PartRole where
  | hub | remote | relay | unset
  deriving DecidableEq, Repr

/-- Lifecycle states (R458). -/
inductive Lifecycle where
  | blank | provisioned | deployed | returned
  deriving DecidableEq, Repr

/-- Status codes of responses and completions (table *Status codes*). -/
inductive Status where
  | ok | accepted | eOpcode | eLength | eRange | eState | eBusy | ePerm | eResource | eConflict
  | eTimeout | eNotReady | ePenned | eAuth | eIntegrity
  deriving DecidableEq, Repr

/-- The code of a status. -/
def Status.code : Status → Nat
  | .ok => 0x0000 | .accepted => 0x0001
  | .eOpcode => 0x0101 | .eLength => 0x0102 | .eRange => 0x0103 | .eState => 0x0104 | .eBusy => 0x0105
  | .ePerm => 0x0106 | .eResource => 0x0107 | .eConflict => 0x0108 | .eTimeout => 0x0109
  | .eNotReady => 0x010A | .ePenned => 0x010B | .eAuth => 0x010C | .eIntegrity => 0x010D

/-- What a command that outlasts its response leaves behind, so that its completion event can be posted (R427, R51). -/
structure Ticket where
  opcode  : Nat
  tag     : Nat
  /-- Mailbox of the command; 0xFF for none. -/
  mailbox : Nat
  /-- Session that issued the command; 0 for none. -/
  session : Nat := 0
  /-- Handle of the schedule, when the command was fired by one (R50). -/
  handle  : Option Nat := none
  /-- The schedule fired late (R51). -/
  late    : Bool := false
  deriving DecidableEq, Repr

/-! ## Host interface (chapter *Host interface and mailbox protocol*) -/

/-- Mailbox states (R421). -/
inductive MailboxState where
  | idle | pending | running | done
  deriving DecidableEq, Repr

/-- A request captured by a doorbell (R421). -/
structure Captured where
  opcode  : Nat
  request : HostRequest
  deriving DecidableEq, Repr

/-- The response area (table *Response header*). -/
structure Response where
  status  : Nat := 0
  opcode  : Nat := 0
  tag     : Nat := 0
  detail  : Nat := 0
  payload : List Byte := []
  deriving DecidableEq, Repr

/-- One mailbox (R421, R416, table *Page 10 host registers*). -/
structure Mailbox where
  /-- R421: state, 2 bits. -/
  state      : MailboxState := .idle
  /-- R421: the request area as the host wrote it, 512 words of 32 bits. -/
  area       : Bank Nat := Bank.fill 0
  /-- R421: the captured request. -/
  captured   : Option Captured := none
  /-- R421: the response area, 2,048 bytes. -/
  response   : Response := {}
  /-- R414: the response of the running command is discarded. -/
  discard    : Bool := false
  /-- R416: xid of the last REQUEST datagram accepted, 32 bits. -/
  xid        : Option Nat := none
  /-- Page 10: commands started, 32 bits. -/
  started    : Nat := 0
  /-- Page 10: commands rejected, 32 bits. -/
  rejected   : Nat := 0
  /-- Page 10: doorbells ignored (R422), 32 bits. -/
  ignored    : Nat := 0
  /-- Page 10: last status, 16 bits. -/
  lastStatus : Nat := 0
  /-- Page 10: last opcode, 16 bits. -/
  lastOpcode : Nat := 0
  deriving DecidableEq, Repr

/-- One open session (R429). -/
structure Session where
  /-- R429: identifier, 32 bits, non-zero. -/
  id       : Nat
  /-- R428: role. -/
  role     : Role
  /-- R429: path on which it was opened. -/
  path     : HostPath
  /-- Page 10: requests. -/
  requests : Nat := 0
  /-- R429: monotonic time of the last request. -/
  last     : Nat := 0
  deriving DecidableEq, Repr

/-- The session side of one host path (R428). -/
structure PathState where
  /-- R428: current nonce, 128 bits. -/
  nonce       : BitVec 128 := 0
  /-- R428: monotonic time of the nonce's issue. -/
  issued      : Nat := 0
  /-- R428: the path is up and its nonce has been issued. -/
  up          : Bool := false
  /-- R428: monotonic times of the E_AUTH results of the last 60 s. -/
  fails       : List Nat := []
  /-- R428: end of the 300 s lockout. -/
  lockedUntil : Option Nat := none
  deriving DecidableEq, Repr

/-- One event of the ring (table *Event entry*). -/
structure Event where
  seq     : Nat := 0
  kind    : Nat := 0
  mailbox : Nat := 0
  code    : Nat := 0
  tag     : Nat := 0
  status  : Nat := 0
  flags   : Nat := 0
  detail  : Nat := 0
  param   : Nat := 0
  mono    : Nat := 0
  deriving DecidableEq, Repr

/-- Stored host configuration (SYS_HOST_CONFIG). -/
structure HostConfig where
  /-- R411: path of each mailbox; default 0–11 PCIe, 12–13 Ethernet, 14–15 SPI. -/
  paths : Bank HostPath :=
    { dflt := .pcie, cells := [(12, .ethernet), (13, .ethernet), (14, .spi), (15, .spi)] }
  /-- R429: SESSION_IDLE, s; default 600. -/
  idle  : Nat := 600
  /-- R419: I2C target address, 7 bits; default 0x58. -/
  i2c   : Nat := 0x58
  deriving DecidableEq, Repr

/-- Stored network configuration (SYS_NET_CONFIG). The spec gives MGMT_PORT its default (R415) and the link its
detection; the other defaults are the model's (log entry 7). -/
structure NetConfig where
  /-- SYS_NET_CONFIG mode, 2 bits. -/
  mode       : Nat := 0
  /-- R417: PTP transport. -/
  transport  : Nat := 0
  /-- R417: PTP profile. -/
  profile    : Nat := 0
  /-- R417: PTP domain. -/
  domain     : Nat := 0
  /-- SYS_NET_CONFIG: IPv4 address. -/
  ipv4       : Nat := 0
  /-- SYS_NET_CONFIG: netmask. -/
  netmask    : Nat := 0
  /-- SYS_NET_CONFIG: gateway. -/
  gateway    : Nat := 0
  /-- R415: MGMT_PORT; default 7,216. -/
  mgmtPort   : Nat := 7216
  /-- R415: EVENT destination port; 0 none. -/
  eventPort  : Nat := 0
  /-- R415: EVENT destination address; 0 none. -/
  eventAddr  : Nat := 0
  deriving DecidableEq, Repr

/-- Stored site-input configuration (SYS_SITE_CONFIG, R439). -/
structure SiteConfig where
  /-- R439: DEBOUNCE of each input, ms; default 20. -/
  debounce : Bank Nat := Bank.fill 20
  /-- R439: enabled inputs; default 0xFFFF. -/
  enable   : BitVec 16 := 0xFFFF
  /-- R439: inverted inputs; default 0. -/
  invert   : BitVec 16 := 0
  /-- R439: events on rising edges; default 0. -/
  evRise   : BitVec 16 := 0
  /-- R439: events on falling edges; default 0. -/
  evFall   : BitVec 16 := 0
  deriving DecidableEq, Repr

/-- What leaves the part at its host paths. The list is the model's own record of outputs, newest first: the spec
gives each output, and names no place where it stays (log entry 4). -/
inductive HostOutput where
  | msix (vector : Nat)
  | ethResponse (mailbox : Nat) (xid : Nat) (response : Response)
  | ethReadData (xid : Nat) (words : List Nat)
  | ethEvent (event : Event)
  | spiData (words : List Nat)
  | i2cData (bytes : List Nat)
  | pcieData (words : List Nat)
  deriving DecidableEq, Repr

/-- One MSI-X table entry (R434). The mask bit after reset is log entry 8. -/
structure MsixEntry where
  addrLo  : Nat := 0
  addrHi  : Nat := 0
  data    : Nat := 0
  /-- Bit 0 masks the vector. -/
  control : Nat := 1
  deriving DecidableEq, Repr

/-- Host interface state. -/
structure HostState where
  /-- R421: the sixteen mailboxes. -/
  mailboxes       : Bank Mailbox := Bank.fill {}
  /-- R424: mailboxes whose doorbells are registered and whose commands have not started, in order. -/
  order           : List Nat := []
  /-- R422: DOORBELL_OVERRUN, 16 bits. -/
  overrun         : BitVec 16 := 0
  /-- R434: IRQ_STATUS, 32 bits; reset 0. -/
  irqStatus       : Word := 0
  /-- R434: IRQ_ENABLE, 32 bits; reset 0. -/
  irqEnable       : Word := 0
  /-- R435: IRQ_N_ENABLE, 32 bits; reset 0. -/
  irqNEnable      : Word := 0
  /-- R434: MSI-X table, 32 entries. -/
  msixTable       : Bank MsixEntry := Bank.fill {}
  /-- R434: MSI-X pending bit array, 32 bits. -/
  msixPba         : Word := 0
  /-- R431: the event ring, 1,024 entries by index. -/
  ring            : Bank Event := Bank.fill {}
  /-- R431: EVT_HEAD, 32 bits. -/
  evtHead         : Nat := 0
  /-- R436: EVT_ACK, 32 bits; reset 0. -/
  evtAck          : Nat := 0
  /-- R436: EVT_MODERATION hold-off, µs; reset 0. -/
  holdoff         : Nat := 0
  /-- R436: EVT_MODERATION count threshold; reset 1. -/
  threshold       : Nat := 1
  /-- R436: instant from which the hold-off runs. -/
  holdStart       : Option Nat := none
  /-- R431: EVT_OVERWRITTEN, 32 bits. -/
  evtOverwritten  : Nat := 0
  /-- R397: LOG_CURSOR, 32 bits; reset 0. -/
  logCursor       : Nat := 0
  /-- R328: CAP_WIN_SLOT, 4 bits. -/
  capWinSlot      : Nat := 0
  /-- R328: CAP_WIN_PAGE, 32 bits. -/
  capWinPage      : Nat := 0
  /-- R439: levels now at the SITE pins, 16 bits. -/
  sitePins        : BitVec 16 := 0
  /-- R439: debounced levels (SITE_LEVEL), 16 bits. -/
  siteLevel       : BitVec 16 := 0
  /-- R439: consecutive samples at the other level, per input. -/
  siteRun         : Bank Nat := Bank.fill 0
  /-- R439: inputs whose next sample sets the level directly. -/
  siteFresh       : BitVec 16 := 0xFFFF
  /-- R439: SITE_EDGE rising bits. -/
  siteRise        : BitVec 16 := 0
  /-- R439: SITE_EDGE falling bits. -/
  siteFall        : BitVec 16 := 0
  /-- R439: site configuration in force. -/
  site            : SiteConfig := {}
  /-- R413: BAD_ACCESS, 32 bits. -/
  badAccess       : Nat := 0
  /-- R429: open sessions, at most 16, by table place. -/
  sessions        : Bank (Option Session) := Bank.fill none
  /-- R429: identifiers handed out since power-on reset. -/
  usedSessions    : List Nat := []
  /-- R428: nonce, failures and lockout of PCIe (0), Ethernet (1) and SPI (2). -/
  paths           : Bank PathState := Bank.fill {}
  /-- Page 10: SESSION_AUTH_FAIL, 32 bits. -/
  authFail        : Nat := 0
  /-- SYS_HOST_CONFIG: host configuration in force. -/
  config          : HostConfig := {}
  /-- SYS_NET_CONFIG: network configuration in force. -/
  net             : NetConfig := {}
  /-- Page 10 HOST_STATUS[5]: PCIe link up. -/
  pcieUp          : Bool := false
  /-- Page 10 HOST_STATUS[6]: Ethernet link up. -/
  ethUp           : Bool := false
  /-- Page 10 HOST_STATUS[8:7]: Ethernet mode. -/
  ethMode         : Nat := 0
  /-- Page 10 ETH_REJECT, 32 bits. -/
  ethReject       : Nat := 0
  /-- Page 10 ETH_RESENT, 32 bits. -/
  ethResent       : Nat := 0
  /-- R419: I2C register pointer, 8 bits. -/
  i2cPointer      : Nat := 0
  /-- R419: heartbeat register, 8 bits. -/
  heartbeat       : Nat := 0
  /-- R14, R15: shadows by host address of the low half: high half and round or sequence number. -/
  shadows         : Bank (Nat × Nat) := Bank.fill (0, 0)
  /-- R240: channel records latched into their shadow blocks, eight words each. -/
  chanShadow      : Bank (List Nat) := Bank.fill []
  /-- R357: response of the last command that ran in an internal session. -/
  internalReply   : Option Response := none
  /-- What has left at the host paths, newest first (log entry 4). -/
  out             : List HostOutput := []
  deriving DecidableEq, Repr

/-! ## Fault collector (chapter *Fault collection and reaction*) -/

/-- Severities (R370): 0 NOTE, 1 WARN, 2 DEGRADE, 3 FENCE, 4 HALT. -/
abbrev Severity := Nat

/-- A raise latched by a detector or by FAULT_INJECT (R366, R371). -/
structure Raise where
  cls      : Nat
  unit     : UnitId
  /-- R371: the fixed severity of a sub-cause. -/
  fixed    : Option Severity := none
  /-- R369: preceded by a direct action. -/
  direct   : Bool := false
  /-- R390: raised by FAULT_INJECT. -/
  injected : Bool := false
  /-- R383: raised again after a window closed. -/
  afresh   : Bool := false
  /-- R390: class detail, parameter 4. -/
  detail4  : Nat := 0
  /-- R390: class detail, parameter 5. -/
  detail5  : Nat := 0
  /-- R366: number of the collector cycle in which it was latched. -/
  cycle    : Nat := 0
  deriving DecidableEq, Repr

/-- What a detector latches in a collector cycle (R366). -/
inductive Latch where
  | raise (r : Raise)
  | ended (c : Condition) (cycle : Nat) (injected : Bool)
  deriving DecidableEq, Repr

/-- Why a unit is penned (R375, R387, R388, R370). -/
inductive PenReason where
  | host
  | entry (handle : Nat)
  | untracked (cls : Nat)
  deriving DecidableEq, Repr

/-- One pen reason on one unit. -/
structure Pen where
  unit   : UnitId
  reason : PenReason
  deriving DecidableEq, Repr

/-- One entry of the fault table (R370, table *Entry block*). -/
structure FaultEntry where
  cls       : Nat
  unit      : UnitId
  severity  : Severity
  active    : Bool
  acked     : Bool
  /-- R370: its reaction is still in force. -/
  reaction  : Bool
  escalated : Bool
  injected  : Bool
  firstSeq  : Nat
  lastSeq   : Nat
  raises    : Nat
  firstTime : Nat
  lastTime  : Nat
  handle    : Nat
  deriving DecidableEq, Repr

/-- A consequence window (R381–R384). -/
structure Window where
  /-- R382: sequence number of the parent raise. -/
  parent  : Nat
  /-- R381: mask, bit n = subsystem n, 11 bits. -/
  mask    : BitVec 11
  /-- R382: the collector cycle in which the parent was latched. -/
  cycle   : Nat
  /-- R381: order number of the reaction. -/
  order   : Nat
  /-- R381: closing monotonic time, known once the reaction is complete. -/
  closeAt : Option Nat
  /-- R382: CONSEQUENTIAL raises in the window. -/
  count   : Nat
  /-- R383: conditions raised as CONSEQUENTIAL in it. -/
  raised  : List Raise
  deriving DecidableEq, Repr

/-- A reaction ordered by the collector (R368, R374). -/
structure Reaction where
  order    : Nat
  cls      : Nat
  unit     : UnitId
  severity : Severity
  /-- Sequence number of the record that ordered it. -/
  seq      : Nat
  /-- The cycle in which the raise was latched. -/
  cycle    : Nat
  /-- Handle of its entry; none for an untracked raise (R370). -/
  handle   : Option Nat
  /-- Monotonic time at which it began. -/
  startedAt : Option Nat := none
  detail4  : Nat
  detail5  : Nat
  deriving DecidableEq, Repr

/-- Configuration of one class (R373). -/
structure ClassConfig where
  severity : Severity
  ceiling  : Severity
  manual   : Bool
  deriving DecidableEq, Repr

/-- An own action or back-off that the collector has in force for a class and a unit (R374, R387). -/
structure OwnAction where
  cls    : Nat
  unit   : UnitId
  /-- The entry that tracks it; none when it is untracked (R370). -/
  handle : Option Nat
  /-- R172: dB that it added to the step attenuator. -/
  amount : Nat := 0
  deriving DecidableEq, Repr

/-- Fault collector state. -/
structure FaultState where
  /-- R385: conditions that hold and whose raise was masked. -/
  maskedNow    : List Condition := []
  /-- R366: raises and ends latched and not yet recorded, oldest first. -/
  latched      : List Latch := []
  /-- R386: conditions that their detectors report as holding now, with the raise that reported them. -/
  conditions   : List Raise := []
  /-- R370: the fault table, at most 256 entries. -/
  entries      : List FaultEntry := []
  /-- R370: entry handles handed out since power-on reset. -/
  handles      : Nat := 0
  /-- R373: class configuration that FAULT_CLASS_CONFIG has changed, by class code. -/
  classes      : Bank (Option ClassConfig) := Bank.fill none
  /-- Page 11 CLASS_CFG[31:16]: raises since reset, per class. -/
  classRaises  : Bank Nat := Bank.fill 0
  /-- R389: FAULT_N_LEVEL; default 3. -/
  faultNLevel  : Severity := 3
  /-- R380: FF_LEVEL; default 1. -/
  ffLevel      : Severity := 1
  /-- R389: FAULT_N as driven: true is low. -/
  faultN       : Bool := true
  /-- R377: the HALT state: sequence number of its raise and its start. -/
  halt         : Option (Nat × Nat) := none
  /-- Release frame named by FAULT_HALT_RELEASE. -/
  haltRelease  : Option Nat := none
  /-- R377: egress band paths that the HALT muted and that have not yet been admitted again. -/
  haltMuted    : List Nat := []
  /-- R375: pen reasons in force. -/
  pens         : List Pen := []
  /-- R17, R387: units in PADDOCK. -/
  paddock      : List UnitId := []
  /-- R374: own actions and back-offs in force. -/
  actions      : List OwnAction := []
  /-- R381: open windows, oldest first, at most 32. -/
  windows      : List Window := []
  /-- R368: reactions ordered and not complete, in order. -/
  reactions    : List Reaction := []
  /-- R390: reaction order numbers handed out. -/
  orders       : Nat := 0
  /-- R380: first-fault record (always-on domain). -/
  firstFault   : Option Record := none
  /-- R380: sequence numbers of its companions. -/
  companions   : List Nat := []
  /-- Page 11 FC_SEQ. -/
  lastSeq      : Nat := 0
  /-- Page 11 FC_RAISES. -/
  raises       : Nat := 0
  /-- Page 11 FC_CONSEQ. -/
  conseq       : Nat := 0
  /-- Page 11 FC_MASKED (R385). -/
  masked       : Nat := 0
  /-- Page 11 FC_ESCALATED. -/
  escalated    : Nat := 0
  /-- Page 11 FT_OVERFLOW (R370). -/
  overflow     : Nat := 0
  /-- Page 11 WINDOW_FULL (R384). -/
  windowFull   : Nat := 0
  deriving DecidableEq, Repr

/-! ## Logbook (chapter *Logbook*) -/

/-- The two record banks (R401, R405). -/
inductive BankSel where
  | bankA | bankB
  deriving DecidableEq, Repr

/-- One record bank. -/
structure LogBank where
  /-- R401: records held, newest first, at most 65,536. -/
  records : List Record := []
  /-- R405: marked failed. -/
  failed  : Bool := false
  deriving DecidableEq, Repr

/-- An event submitted to the writer (R395). -/
structure Submission where
  code     : Nat
  source   : Nat
  severity : Severity := 0
  flags    : Nat := 0
  params   : List Nat
  /-- R402: monotonic time of the event. -/
  mono     : Nat
  /-- R405: a LOG_WRITE that waits for LOG_MEDIA before it answers. -/
  ticket   : Option Ticket := none
  deriving DecidableEq, Repr

/-- IG-compatible window of one code (R399). -/
structure IgWindow where
  openedAt   : Option Nat := none
  committed  : Nat := 0
  suppressed : Nat := 0
  deriving DecidableEq, Repr

/-- Logbook state (always-on domain, except the flash mirror). -/
structure LogState where
  /-- R401: bank A. -/
  bankA        : LogBank := {}
  /-- R401: bank B. -/
  bankB        : LogBank := {}
  /-- R405: the active bank; none while both have failed. -/
  active       : Option BankSel := some .bankA
  /-- R406: emergency registers in use, newest first, at most 16. -/
  emergency    : List Record := []
  /-- R407: flash mirror, newest written first. -/
  mirror       : List Record := []
  /-- R407: seqs committed or changed since they were last mirrored, oldest first. -/
  unmirrored   : List Nat := []
  /-- R395: submissions waiting for the writer, oldest first. -/
  submissions  : List Submission := []
  /-- R395: last sequence number given. -/
  head         : Nat := 0
  /-- R401: LOST, 32 bits. -/
  lost         : Nat := 0
  /-- R401: LOG_FULL committed. -/
  full         : Bool := false
  /-- R399: mode is IG-compatible. -/
  ig           : Bool := false
  /-- R399: IG_LIMIT; default 4. -/
  igLimit      : Nat := 4
  /-- R399: IG_WINDOW, ms; default 10,000. -/
  igWindow     : Nat := 10000
  /-- R400, R410: mode before the last reset was IG-compatible. -/
  modeBefore   : Bool := false
  /-- R399: windows and counts per code. -/
  igCodes      : Bank IgWindow := Bank.fill {}
  /-- R404: the 24 bytes of the last seal that the next one chains from. -/
  sealBytes    : List Byte := []
  /-- R404: seq of the last LOG_SEAL. -/
  sealSeq      : Nat := 0
  /-- R404: records committed since the last seal, newest first. -/
  span         : List Record := []
  /-- R408: seqs committed or changed since they were last sent to the standby hub, oldest first. -/
  pairDirty    : List Nat := []
  /-- R407: monotonic time of the last commit or change. -/
  lastChange   : Nat := 0
  /-- R405: submissions wait until LOG_MEDIA is committed. -/
  mediaWait    : Bool := false
  /-- Page 10 LOG_GOOD_SEQ. -/
  goodSeq      : Nat := 0
  /-- Page 10 LOG_PAIR_SEQ. -/
  pairSeq      : Nat := 0
  /-- Page 10 LOG_MEDIA_STATS[15:0]: corrected words. -/
  corrected    : Nat := 0
  /-- Page 10 LOG_MEDIA_STATS[23:16]: flash write failures. -/
  flashFails   : Nat := 0
  /-- Page 10 LOG_MEDIA_STATS[31:24]: bank switches. -/
  switches     : Nat := 0
  /-- LOG_STATUS.MIRROR_FAULT (R407). -/
  mirrorFault  : Bool := false
  /-- LOG_CLEAR in progress, with its session. -/
  clearing     : Option Ticket := none
  /-- LOG_MEDIA_RESETs in progress, oldest first: target code and ticket. -/
  mediaReset   : List (Nat × Ticket) := []
  /-- LOG_VERIFY in progress: first and last seal, store, ticket. -/
  verifying    : List (Nat × Nat × Nat × Ticket) := []
  /-- R403: wall-time epoch, 16 bits. -/
  epoch        : Nat := 0
  deriving DecidableEq, Repr

/-! ## Start-up, resets, power states and security -/

/-- Reset kinds (R448). -/
inductive ResetKind where
  | powerOn | resetN | warm | watchdog | dormantWake | unit
  deriving DecidableEq, Repr

/-- Debug levels (R459). -/
inductive DebugLevel where
  | closed | auth | open_
  deriving DecidableEq, Repr

/-- Image slots (R441). -/
inductive SlotSel where
  | slotA | slotB
  deriving DecidableEq, Repr

/-- A power-state move in progress (R453, R456). -/
structure PowerMove where
  target : PowerState
  /-- Frame at which it takes effect, where it waits for one. -/
  frame  : Option Nat
  ticket : Option Ticket
  /-- R455: it leaves STANDBY and waits for the chains to lock. -/
  exit   : Bool := false
  deriving DecidableEq, Repr

/-- Wake configuration (PWR_WAKE_CONFIG; always-on domain). The defaults are the model's (log entry 7). -/
structure WakeConfig where
  siteRise  : BitVec 16 := 0
  siteFall  : BitVec 16 := 0
  timer     : Nat := 0
  wakeState : PowerState := .active
  debugWake : Bool := false
  deriving DecidableEq, Repr

/-- Key store (R462). `none` is an empty or zeroised slot. -/
structure KeyStore where
  /-- Firmware root hashes in OTP, four of 48 bytes. -/
  roots      : List (BitVec 384) := (List.range 4).map Config.rootHash
  /-- Revocation bits of the four hashes. -/
  revoked    : BitVec 4 := 0
  /-- Cassette root public key. -/
  cassette   : List Byte := Config.cassetteRoot
  /-- OTP image security counter. -/
  counter    : Nat := 0
  /-- Role credentials MONITOR, OPERATE, ADMIN, 32 bytes each. -/
  monitor    : Option (List Byte) := none
  operate    : Option (List Byte) := none
  admin      : Option (List Byte) := none
  /-- Flock key, 48 bytes. -/
  flock      : Option (List Byte) := none
  /-- Debug key, ECDSA P-384 public key. -/
  debug      : Option (List Byte) := none
  /-- Log key, 48 bytes. -/
  log        : List Byte := Config.logKey
  /-- R466: locked until the next reset. -/
  locked     : Bool := false
  deriving DecidableEq, Repr

/-- Start-up, power and security state. -/
structure SysState where
  /-- R448: a reset is held now (POWER_ON or RESET_N in progress). -/
  stage        : Nat := 0
  /-- R444: READY_STATUS.READY. -/
  ready        : Bool := false
  /-- R440: READY_STATUS.BOOT_SOURCE. -/
  bootSource   : Nat := 0
  /-- R444: READY_STATUS.CONFIG_LOADED. -/
  configLoaded : Bool := false
  /-- R440: BOOT straps as sampled, 2 bits (log entry 6 for the value at reset). -/
  bootStraps   : BitVec 2 := 0b11
  /-- R3: ROLE straps as sampled, 2 bits (log entry 6 for the value at reset). -/
  roleStraps   : BitVec 2 := 0b11
  /-- R497: TEST_MODE pin. -/
  testMode     : Bool := false
  /-- R3, R6: role in force. -/
  role         : PartRole := .unset
  /-- R6: stored role in boot flash. -/
  storedRole   : Option PartRole := none
  /-- R440: STRAP_RESERVED. -/
  strapReserved : Bool := true
  /-- R441: image slot A. -/
  imageA       : Option Image := none
  /-- R441: image slot B. -/
  imageB       : Option Image := none
  /-- R440: the image that the host image device offers. -/
  imageHost    : Option Image := none
  /-- FW_WRITE: bytes written into the non-running slot, by offset. -/
  fwBytes      : Bank Nat := Bank.fill 0xFF
  /-- R441, FW_CONTROL: preferred slot. -/
  preferred    : SlotSel := .slotA
  /-- R443: the preferred slot is on trial. -/
  trialSlot    : Bool := false
  /-- SEC_STATUS.SLOT: running slot. -/
  running      : SlotSel := .slotA
  /-- SEC_STATUS.TRIAL: the running image is on trial. -/
  trial        : Bool := false
  /-- SEC_STATUS.FALLBACK. -/
  fallback     : Bool := false
  /-- ID_FIRMWARE of the running image. -/
  firmware     : Nat := 0
  /-- Counter of the running image (R443). -/
  imageCounter : Nat := 0
  /-- FW_CONTROL action 0 in progress. -/
  fwVerify     : Option Ticket := none
  /-- SEC_STATUS.RESET_KIND. -/
  resetKind    : ResetKind := .powerOn
  /-- LAST_RESET: monotonic time of the last reset. -/
  lastReset    : Nat := 0
  /-- READY_TIME, µs. -/
  readyTime    : Nat := 0
  /-- RESET_COUNTS: warm, watchdog, unit, DORMANT wakes. -/
  warmResets   : Nat := 0
  wdtResets    : Nat := 0
  unitResets   : Nat := 0
  wakes        : Nat := 0
  /-- R449: monotonic time at which a warm reset begins. -/
  warmAt       : Option Nat := none
  /-- R450: monotonic time of the watchdog reset. -/
  wdtAt        : Option Nat := none
  /-- R451: unit resets in progress: subsystem, completion time, ticket. -/
  unitReset    : List (Nat × Nat × Ticket) := []
  /-- R452: power state. -/
  power        : PowerState := .active
  /-- R453: move in progress. -/
  move         : Option PowerMove := none
  /-- R456: wake configuration (always-on domain). -/
  wake         : WakeConfig := {}
  /-- R456: state to enter after READY of a wake boot. -/
  wakeTarget   : Option PowerState := none
  /-- R456, R492: monotonic time at which entry to DORMANT was completed. -/
  dormantAt    : Nat := 0
  /-- R492: PWR_EN pin. -/
  pwrEn        : Bool := true
  /-- R26: POWER_LIMIT, mW; default 85,000. -/
  powerLimit   : Nat := 85000
  /-- R26: the figures of the power model, mW, by resource (log entry 9). -/
  powerFigures : Bank Nat := { dflt := 0, cells := (List.range 168).map (fun k => (k, Config.powerFigure k)) }
  /-- R1: the part is of grade X; the model stands for a grade E part (log entry 17). -/
  gradeX       : Bool := false
  /-- R458: lifecycle (OTP). -/
  lifecycle    : Lifecycle := .blank
  /-- R459: level of the open debug session. -/
  debug        : DebugLevel := .closed
  /-- R459: monotonic time of the last debug activity. -/
  debugLast    : Nat := 0
  /-- R450: an OPEN debug session has a core halted. -/
  coreHalted   : Bool := false
  /-- SEC_STATUS.AUTH_ALLOWED (DBG_POLICY); default 1. -/
  authAllowed  : Bool := true
  /-- R459: current challenge, 256 bits. -/
  challenge    : BitVec 256 := 0
  /-- R460: failed AUTH signatures of the last 60 s. -/
  debugFails   : List Nat := []
  /-- R460: end of the port lockout. -/
  debugLocked  : Option Nat := none
  /-- DEBUG_FAILS since power-on reset. -/
  debugFailCount : Nat := 0
  /-- R462: key store. -/
  keys         : KeyStore := {}
  /-- R463: zeroisation in progress: return credential and ticket. -/
  zeroising    : Option (List Byte × Option Ticket) := none
  /-- SEC_STATUS.PWR_FAIL: PWR_FAIL_N low now. -/
  pwrFail      : Bool := false
  /-- R465: power state before the fall. -/
  pwrFailFrom  : Option PowerState := none
  /-- PWRFAIL_COUNT since power-on reset. -/
  pwrFailCount : Nat := 0
  /-- SYS_HOST_CONFIG as stored in boot flash. -/
  storedHost   : HostConfig := {}
  /-- SYS_NET_CONFIG as stored in boot flash. -/
  storedNet    : NetConfig := {}
  /-- SYS_SITE_CONFIG as stored in boot flash. -/
  storedSite   : SiteConfig := {}
  deriving DecidableEq, Repr

/-! ## Air time (chapter *Air time*) -/

/-- Air-time states (table *Air-time states*). -/
inductive AirLock where
  | freeRun | acquiring | locked | holdover
  deriving DecidableEq, Repr

/-- Source states (R32). -/
inductive SourceState where
  | absent | searching | qualifying | usable | failed
  deriving DecidableEq, Repr

/-- One timing source (R32, R33). -/
structure TimeSource where
  /-- R32: state, 3 bits. -/
  state       : SourceState := .searching
  /-- R44: source instant less air time on the continuous count, 2^−16 Tc, as last measured and corrected since. -/
  phase       : Int := 0
  /-- R38: the source's own error bound, ps. -/
  bound       : Nat := 0
  /-- R39: frequency of the source against REFCLK, 0.01 ppb. -/
  freq        : Int := 0
  /-- R33: monotonic time at which it became USABLE. -/
  usableSince : Nat := 0
  /-- R32: monotonic time at which it failed. -/
  failedAt    : Nat := 0
  /-- Consecutive detections or valid exchanges. -/
  run         : Nat := 0
  /-- Monotonic time of the last detection, Sync message or exchange. -/
  lastAt      : Nat := 0
  deriving DecidableEq, Repr

/-- One donor detection kept for qualification (R513). -/
structure DonorDetection where
  /-- Half-frame number: twice the SFN, plus one for a synchronisation signal in the second half of its frame. -/
  half   : Nat
  /-- Timing of the synchronisation signal on the REFCLK count, less DONOR_DELAY, Tc. -/
  timing : Int
  deriving DecidableEq, Repr

/-- Segment types (R52). -/
inductive SegType where
  | dl | ul | guard
  deriving DecidableEq, Repr

/-- The definition of a TDD pattern (R52, TDD_PATTERN_SET). -/
structure PatternDef where
  mu           : Nat
  segments     : List (Nat × SegType)
  refKind      : Nat
  refId        : Nat
  period       : Nat
  anchor       : Nat
  verifyFrames : Nat
  verifyRatio  : Nat
  tol          : Nat
  deriving DecidableEq, Repr

/-- Pattern states (table *Pattern states*). -/
inductive PatternState where
  | unset | asserted | provisional | verified | mismatch
  deriving DecidableEq, Repr

/-- Σ|x|² over samples, in units of 2^−36, their number, and the largest |x|² (R109). -/
structure PowerSum where
  sum   : Nat := 0
  count : Nat := 0
  peak  : Nat := 0
  deriving DecidableEq, Repr

/-- One TDD pattern TPp (R52–R54). -/
structure Pattern where
  /-- R53: state. -/
  state     : PatternState := .unset
  /-- R52: definition in force. -/
  defn      : Option PatternDef := none
  /-- R53: entered PROVISIONAL by a scheduled change from VERIFIED or ASSERTED. -/
  carried   : Bool := false
  /-- R53: the first window of this definition is still open. -/
  first     : Bool := true
  /-- R53: consecutive failed windows. -/
  fails     : Nat := 0
  /-- Page 6: windows passed. -/
  passed    : Nat := 0
  /-- Page 6: fitted offset, signed Tc. -/
  fitted    : Int := 0
  /-- Page 6: measured DL/UL ratio, 0.01 dB. -/
  ratio     : Int := 0
  /-- R54: the change waiting for its effective frame. -/
  waiting   : Option (Nat × PatternDef) := none
  /-- R53: sums over the reference's admitted samples, by segment, in the running verification window. -/
  powers    : List PowerSum := []
  /-- R53: frame in which the running verification window began. -/
  windowAt  : Nat := 0
  deriving DecidableEq, Repr

/-- When a scheduled command fires (AT_SCHEDULE). -/
inductive FireAt where
  | air (i : AirInstant)
  | mono (t : Nat)
  deriving DecidableEq, Repr

/-- A pending host-scheduled command (R50, R51). -/
structure Scheduled where
  handle  : Nat
  at_     : FireAt
  late    : Bool
  opcode  : Nat
  payload : List Byte
  tag     : Nat
  mailbox : Nat
  path    : HostPath
  session : Nat
  /-- R50: role of the session that scheduled it. -/
  role    : Role
  deriving DecidableEq, Repr

/-- Air-time configuration (AT_SOURCE_CONFIG). -/
structure AirConfig where
  /-- R33: priority list as set; none stands for the default of the role. -/
  priority     : Option (List Nat) := none
  /-- R33: revertive selection; default on. -/
  revertive    : Bool := true
  /-- R31/R35: donor ingress band path. -/
  donorPath    : Nat := 0
  /-- R35: DONOR_DELAY, signed Tc (default: log entry 7). -/
  donorDelay   : Int := 0
  /-- R44: SLEW_WINDOW, ns; default 1,000. -/
  slewWindow   : Nat := 1000
  /-- R44: SLEW_RATE, ppb; default 10,000. -/
  slewRate     : Nat := 10000
  /-- R40: TIME_ERR_LIMIT, ns; default 1,100. -/
  errLimit     : Nat := 1100
  /-- R38: HOLDOVER_STABILITY_REF, 0.01 ppb; default 100. -/
  stabRef      : Nat := 100
  /-- R38: HOLDOVER_STABILITY_LOCAL, 0.01 ppb; default 5,000. -/
  stabLocal    : Nat := 5000
  /-- R33: REVERT_HOLD, ms; default 10,000. -/
  revertHold   : Nat := 10000
  /-- R34: FRAME_EPOCH, ns; default 315,964,819 s. -/
  frameEpoch   : Nat := 315964819000000000
  deriving DecidableEq, Repr

/-- Air-time state. -/
structure AirState where
  /-- R29: monotonic device time, 64-bit Tc (always-on domain). -/
  mono         : Nat := 0
  /-- R28: frame counter, 32 bits; reset 0. -/
  frame        : Nat := 0
  /-- R28: offset counter, 0 to 19,660,799 Tc; reset 0. -/
  offset       : Nat := 0
  /-- R28: fractional accumulator, 16 bits; reset 0. -/
  frac         : Nat := 0
  /-- R30: SLOT_MU, 0–4; default 1. -/
  slotMu       : Nat := 1
  /-- AT_SOURCE_CONFIG. -/
  config       : AirConfig := {}
  /-- R32: the four sources by code. LOCAL qualifies at once and never fails. The others start SEARCHING and none is ever ABSENT,
  since the spec names no condition for that state (log entry 122). -/
  sources      : Bank TimeSource := { dflt := {}, cells := [(4, { state := .usable })] }
  /-- AT_STATUS.AT_STATE; reset FREE_RUN. -/
  lock         : AirLock := .freeRun
  /-- AT_STATUS.SOURCE: selected source code; 0 none. -/
  source       : Nat := 0
  /-- R37: ACQUIRED. -/
  acquired     : Bool := false
  /-- R36/Lock: consecutive loop ticks with the phase error within ±50 ns. -/
  lockTicks    : Nat := 0
  /-- R38: estimate at entry to ACQUIRING or HOLDOVER, in ns / (196,608 × 10^6). -/
  errBase      : Nat := 0
  /-- R38: growth of the estimate since entry, in ns / (196,608 × 10^6). -/
  errGrowth    : Nat := 0
  /-- AT_STATUS.REF_IN_PRESENT. -/
  refPresent   : Bool := false
  /-- R39: REF_IN qualified. -/
  refQualified : Bool := false
  /-- R39: monotonic time since which no REF_IN edge has been missing or outside ±2 ppm. -/
  refGoodFrom  : Nat := 0
  /-- R39: frequency of REF_IN against REFCLK, 0.01 ppb. -/
  refFreq      : Int := 0
  /-- R39: frequency samples of the last 60 s of LOCKED: monotonic time and value. -/
  freqLog      : List (Nat × Int) := []
  /-- FREQ_OFF: applied frequency correction, 0.01 ppb. -/
  freqOff      : Int := 0
  /-- R44: phase still to be slewed, 2^−16 Tc. -/
  slewLeft     : Int := 0
  /-- R48: the allowance of SLEW_RATE not yet used, below 2^−16 Tc, in 2^−16 Tc / 10^9; reset 0. -/
  slewRem      : Nat := 0
  /-- R28: the rate correction not yet applied to the fractional accumulator, in 2^−16 Tc / 10^11; reset 0. -/
  rateRem      : Int := 0
  /-- PHASE_ERR as last measured, 2^−16 Tc. -/
  phaseErr     : Int := 0
  /-- R45: a step is decided: the instant of the old count at which it is applied and its size, 2^−16 Tc. -/
  step         : Option (AirInstant × Int) := none
  /-- R45: STEP_PENDING. -/
  stepPending  : Bool := false
  /-- R45: monotonic time at which STEP_PENDING clears. -/
  stepEndAt    : Option Nat := none
  /-- R47: monotonic time before which no tick fires. -/
  noTickBefore : Nat := 0
  /-- R30: grid boundaries already passed at the present instant, by grid. -/
  gridDone     : Bank (Option AirInstant) := Bank.fill none
  /-- Monotonic time of the last loop tick (R47, R188). -/
  lastTick     : Nat := 0
  /-- HOLDOVER_MS: monotonic time of entry to HOLDOVER. -/
  holdoverAt   : Nat := 0
  /-- STEP_COUNT. -/
  steps        : Nat := 0
  /-- LATE_EVENTS. -/
  lateEvents   : Nat := 0
  /-- R513: detections of the DONOR source kept for qualification, oldest first. -/
  detections   : List DonorDetection := []
  /-- R513: expected synchronisation period, ms; 0 while unknown. -/
  donorPeriod  : Nat := 0
  /-- R513: PTP time since which every servo offset has been within ±100 ns, ns. -/
  ptpGoodFrom  : Option Nat := none
  /-- R34, R500: PTP time of the last Sync message and the monotonic time at which it was read. -/
  ptpAt        : Option (Nat × Nat) := none
  /-- R500: monotonic time of the last accepted PPS_IN edge. -/
  ppsAt        : Option Nat := none
  /-- R501: PPS_OUT level. -/
  ppsOut       : Bool := false
  /-- R501: monotonic time at which PPS_OUT returns low. -/
  ppsOutEnd    : Option Nat := none
  /-- R501: count of frames since FRAME_EPOCH less the extended frame count, modulo 100, once PTP has been selected. -/
  ppsBase      : Option Nat := none
  /-- R55: wall time in ns / (196,608 × 65,536) (always-on domain). -/
  wallAcc      : Nat := 0
  /-- R55: wall time has been set. -/
  wallSet      : Bool := false
  /-- R55: correction still to be slewed, same unit. -/
  wallSlew     : Int := 0
  /-- R51: pending scheduled commands, at most 256. -/
  scheduled    : List Scheduled := []
  /-- R51: handles handed out. -/
  handles      : Nat := 0
  /-- R52: the eight TDD patterns. -/
  patterns     : Bank Pattern := Bank.fill {}
  deriving DecidableEq, Repr

/-! ## RF transceiver complex -/

/-- Front-end states (table *Front-end states*). -/
inductive FeState where
  | off | calibrating | locking | ready | active
  deriving DecidableEq, Repr

/-- Operations of a synthesiser (R65, table *Calibration kinds*). -/
inductive RfOpKind where
  | retune | vcoBand | full
  deriving DecidableEq, Repr

/-- The window and LO of a chain (R58–R60), Hz. -/
structure RfWindow where
  low  : Nat := 0
  high : Nat := 0
  lo   : Nat := 0
  deriving DecidableEq, Repr

/-- An operation in progress on a chain. -/
structure RfOp where
  kind      : RfOpKind
  /-- Monotonic time at which it started. -/
  startedAt : Nat
  /-- R73: forced by temperature. -/
  forced    : Bool := false
  /-- RF_CAL_RUN in mode 1. -/
  hostNow   : Bool := false
  /-- The RF_CHAIN_CONFIG whose lock it is. -/
  ticket    : Option Ticket := none
  /-- The RF_CAL_RUN commands it serves. -/
  calRuns   : List Ticket := []
  /-- R69: monotonic time by which lock must be declared. -/
  deadline  : Option Nat := none
  deriving DecidableEq, Repr

/-- A calibration that is due (R71). -/
structure DueCal where
  kind    : RfOpKind
  since   : Nat
  hostNow : Bool := false
  runs    : List Ticket := []
  deriving DecidableEq, Repr

/-- A chain command held as PENDING_LOCK (R68). -/
inductive HeldCommand where
  | txEnable (t : Ticket) (deadline : Nat)
  | config (t : Ticket) (w : RfWindow) (atten : Nat)
  deriving DecidableEq, Repr

/-- One chain: RX.A0–RX.A7 are 0–7, TX.A0–TX.A7 are 8–15. -/
structure Chain where
  /-- R67: front-end state, 3 bits; reset OFF. -/
  fe         : FeState := .off
  /-- R67: return state. -/
  ret        : FeState := .off
  /-- R66: synthesiser locked. -/
  locked     : Bool := false
  /-- R58: window and LO in force. -/
  window     : RfWindow := {}
  /-- R69: the window and LO before the last change, with the front-end state then. -/
  previous   : Option (RfWindow × FeState) := none
  /-- Operation in progress. -/
  op         : Option RfOp := none
  /-- R67: operation that starts when the mute ramps have ended. -/
  nextOp     : Option RfOp := none
  /-- R69: monotonic time by which lock must be declared, with the command of an operation that has not started. -/
  deadline_  : Option Nat := none
  opTicket   : Option Ticket := none
  /-- R67: slot boundary at which the chain becomes ACTIVE, or at which a held command starts. -/
  activateAt : Option AirInstant := none
  /-- RF_TX_ENABLEs whose completion comes with ACTIVE, each with the monotonic time of R69 by which lock must be declared. -/
  enabling   : List (Ticket × Nat) := []
  /-- R68: held command. -/
  held       : Option HeldCommand := none
  /-- R67: leaves ACTIVE for READY when the mute ramps have ended. -/
  leaving    : Bool := false
  leaveTo    : FeState := .ready
  /-- R67: an RF_CHAIN_CONFIG with enable 0 turns the chain OFF at this monotonic time, and completes then. -/
  offAt      : Option (Nat × Ticket) := none
  /-- R71: due calibration. -/
  due        : Option DueCal := none
  /-- R72: a due calibration starts at this monotonic time (its mute ramps run). -/
  calAt      : Option Nat := none
  /-- CHAIN_STATUS.LAST_FORCED. -/
  lastForced : Bool := false
  /-- CHAIN_STATUS.IMAGE_DEGRADED. -/
  degraded   : Bool := false
  /-- R61, R63: corrections of the digital front. -/
  front      : FrontCal := {}
  /-- R62: attenuation in force, dB; 5 bits. -/
  atten      : Nat := 0
  /-- R63: attenuation before the last change. -/
  attenOld   : Nat := 0
  /-- R64: monotonic time of the last attenuator change. -/
  attenAt    : Option Nat := none
  /-- R64: request that waits 1 µs. -/
  attenWait  : Option Nat := none
  /-- R64: request stored until the chain delivers again. -/
  attenStore : Option Nat := none
  /-- R76: filtered temperature at the last FULL calibration, 0.01 °C; none without retained results. -/
  tCal       : Option Int := none
  /-- LOCK_STATS: duration of the last lock, µs. -/
  lockUs     : Nat := 0
  /-- LOCK_STATS: unlock events. -/
  unlocks    : Nat := 0
  /-- LAST_CAL: monotonic time of the last calibration end. -/
  lastCal    : Nat := 0
  /-- CAL_COUNTS. -/
  cals       : Nat := 0
  forcedCals : Nat := 0
  /-- IMAGE_REJ, 0.01 dB. -/
  imageRej   : Int := 0
  /-- CLIP_OR_LEAK: CLIPPED blocks of a receive chain. -/
  clipped    : Nat := 0
  /-- CLIP_OR_LEAK: LO leakage of a transmit chain, 0.01 dBFS. -/
  leak       : Int := 0
  /-- R66: output stage disabled in hardware. -/
  outputOff  : Bool := false
  /-- R66: receive chain delivers GAPPED zeros after an unlock. -/
  gapped     : Bool := false
  /-- R455: state to which the chain returns when STANDBY is left; OFF for none. -/
  resume     : FeState := .off
  /-- R69: monotonic time by which the previous LO must lock again. -/
  relockBy   : Option Nat := none
  deriving DecidableEq, Repr

/-- A host calibration grant (RF_CAL_GRANT). -/
structure Grant where
  handle   : Nat
  mask     : BitVec 16
  start    : AirInstant
  /-- Length, µs. -/
  duration : Nat
  refresh  : Bool
  session  : Nat
  /-- Monotonic time at which it ends, once it has begun. -/
  endAt    : Option Nat := none
  deriving DecidableEq, Repr

/-- One observation receiver (R77). -/
structure ObsState where
  /-- Transmit chain observed, 0–7. -/
  chain     : Nat := 0
  observing : Bool := false
  /-- Monotonic time at which the dwell ends. -/
  dwellEnd  : Nat := 0
  visits    : Nat := 0
  power     : Int := 0
  skips     : Nat := 0
  /-- R62-style attenuation of the input, dB. -/
  atten     : Nat := 0
  /-- Monotonic time at which the dwell began, and whether it came from another chain. -/
  startedAt : Nat := 0
  moved     : Bool := false
  /-- R115: the DPD input during the dwell, by number of its first converter sample, newest first. -/
  xs        : List (Nat × List Cx) := []
  /-- R196: DPD coefficients in use when the dwell began. -/
  coeffs    : List (Int × Int) := []
  deriving DecidableEq, Repr

/-- RF complex state. -/
structure RfState where
  /-- R67: the sixteen chains. -/
  chains      : Bank Chain := Bank.fill {}
  /-- R74: tone generators of A0–A3 (0) and A4–A7 (1) busy. -/
  tones       : Bank Bool := Bank.fill false
  /-- RF_FORCED_TOTAL. -/
  forcedTotal : Nat := 0
  /-- RF_CAL_GRANT: outstanding grants, at most four. -/
  grants      : List Grant := []
  /-- R71: CAL_TEMP_DELTA, 0.01 °C; default 1,000. -/
  tempDelta   : Nat := 1000
  /-- R71: temperature-triggered calibration; default on. -/
  autoCal     : Bool := true
  /-- R81: OVERDRIVE_LIMIT, 0.01 %; default 10. -/
  overdrive   : Nat := 10
  /-- R77: OBS input wired to TX.A0–TX.A7; none unless RF_OBS_MAP names one. -/
  obsMap      : Bank (Option Nat) := Bank.fill none
  /-- R77: OBS_DWELL, loop ticks; default 8. -/
  obsDwell    : Nat := 8
  /-- R79, RF_CAL_RUN: a calibration of SYN.BELL is due, with the commands it serves. -/
  bellDue     : Bool := false
  bellRuns    : List Ticket := []
  /-- SYN.BELL locked, and calibrating. -/
  bellLocked  : Bool := false
  bellCal     : Bool := false
  /-- R77: OBS0 and OBS1. -/
  obs         : Bank ObsState := Bank.fill {}
  deriving DecidableEq, Repr

/-! ## Channel engine -/

/-- The parameters of a band path that BP_CONFIG sets (R82–R90). -/
structure BpParams where
  chain       : Nat
  /-- R88: preset code, 2 bits. -/
  preset      : Nat
  /-- Carrier bandwidth, Hz. -/
  bw          : Nat
  /-- Carrier centre, Hz. -/
  center      : Nat
  /-- R23: an egress source is a flow rather than an ingress band path. -/
  srcFlow     : Bool
  srcId       : Nat
  /-- TDD pattern; none for FDD. -/
  tdd         : Option Nat
  /-- R31: numerology of the symbol grid for FDD. -/
  mu          : Nat
  /-- R159. -/
  protected_  : Bool
  /-- R97. -/
  alignStrict : Bool
  /-- R89: half-band stages d, 1–9. -/
  stages      : Nat
  deriving DecidableEq, Repr

/-- Where a settle stands (R101, R103, R105). `waiting`: the receive chain does not deliver. -/
inductive SettlePhase where
  | idle | fadeOut | waiting | zeros | fadeIn
  deriving DecidableEq, Repr

/-- What a span of a band path's output is (R101, R105, R106): samples of a fade, zeros of a settle, GAPPED zeros, or the samples
whose filters span an attenuator step. -/
inductive MarkKind where
  | fadeOut | fadeIn | zeros | gapped | step
  deriving DecidableEq, Repr

/-- A marked span of a band path's output, monotonic Tc from `lo` up to but not including `hi`. -/
structure Mark where
  kind : MarkKind
  lo   : Nat
  hi   : Nat
  deriving DecidableEq, Repr

/-- One output sample of a band path as its detectors and the loop guard see it. -/
structure Sampled where
  /-- R94: instant at the receive pin, or at the input of an egress band path. -/
  at_      : AirInstant
  /-- Ingress: before and after canceller subtraction (R109). Egress: after the gain stack, without and with the pilot (R126). -/
  pre      : Cx
  post     : Cx
  /-- Egress: the sample that came from the source. -/
  inp      : Cx := (0, 0)
  /-- R107: its block carries neither SETTLING nor GAPPED, and VALID is set. -/
  ok       : Bool
  /-- R109: it lies in a segment of the band path's own direction. -/
  own      : Bool := true
  settling : Bool := false
  /-- R127: the pilot was emitted in it. -/
  pilot    : Bool := false
  deriving DecidableEq, Repr

/-- One band path. -/
structure BandPath where
  params       : BpParams
  /-- R107: output samples of the last 20 ms, newest first. -/
  recent       : List Sampled := []
  /-- Samples that have reached the interpolators since the last loop tick (R112). -/
  fresh        : Nat := 0
  /-- R142: bin powers of the last nine frames of the line detector, newest first, and the instant of the newest. -/
  lines        : List (List Nat) := []
  linesAt      : Option AirInstant := none
  /-- R109: detector tap PRE. -/
  preTap       : Bool := false
  /-- R109: include_all. -/
  includeAll   : Bool := false
  /-- R101: phase of the settle in progress. -/
  phase        : SettlePhase := .idle
  /-- Monotonic times at which the phase began and ends. -/
  phaseSince   : Nat := 0
  phaseEnd     : Nat := 0
  /-- R107: marked spans of the last 20 ms that have ended, newest first. -/
  marks        : List Mark := []
  /-- R85: monotonic time since which an ingress band path has delivered GAPPED zeros. -/
  gapSince     : Option Nat := none
  /-- R86: frequency word of the NCO, and its phase at a monotonic time; 48 bits each. -/
  ncoWord      : Nat := 0
  ncoPhase     : Nat := 0
  ncoAt        : Nat := 0
  /-- R96: air-time count less monotonic time when the integer phases were chosen, 2^−16 Tc. -/
  trackRef     : Int := 0
  /-- R117: monotonic time by which the settle must have ended. -/
  settleBy     : Nat := 0
  /-- R101: parameters applied at the end of the fade-out. -/
  next         : Option BpParams := none
  /-- BP_RELEASE waits for the mute ramp. -/
  releasing    : Bool := false
  /-- R97: MISALIGNED. -/
  misaligned   : Bool := false
  /-- R97: ALIGN_ERR, 1/64 Tc. -/
  alignErr     : Int := 0
  /-- BP_CONFIG: the flow source arrives at another rate. -/
  rateMismatch : Bool := false
  /-- R102: the last block received carried SETTLING. -/
  srcSettling  : Bool := false
  /-- R104: the last block received was GAPPED, or none has arrived. -/
  srcGapped    : Bool := false
  /-- R117: DET_SEQ when the detector last failed. -/
  detFault     : Nat := 0
  /-- R117: DET_INVALID. -/
  detInvalid   : Bool := false
  /-- R110: window of 2^k loop ticks; default 0. -/
  windowK      : Nat := 0
  /-- R110: the window that BP_DETECTOR set, from the next window boundary on. -/
  windowNext   : Option Nat := none
  /-- R110: instant at which the last window ended. -/
  windowAt     : Option AirInstant := none
  /-- R147: consecutive windows with data. -/
  goodWindows  : Nat := 0
  /-- DET_MEAN, 0.01 dBFS; none is NO_DATA. -/
  detMean      : Option Int := none
  /-- R160: last valid DET_MEAN. -/
  lastMean     : Option Int := none
  /-- DET_PEAK, 0.01 dBFS. -/
  detPeak      : Option Int := none
  /-- DET_SEQ. -/
  detSeq       : Nat := 0
  /-- ENV_LAST, 0.01 dBFS. -/
  envLast      : Int := 0
  /-- CLIP_BLOCKS. -/
  clipBlocks   : Nat := 0
  /-- GAP_BLOCKS. -/
  gapBlocks    : Nat := 0
  /-- LAST_CHANGE. -/
  lastChange   : Nat := 0
  /-- SETTLE_TOTAL. -/
  settleTotal  : Nat := 0
  /-- SETTLE_SAMPLES. -/
  settleZeros  : Nat := 0
  /-- SETTLE_BLOCKS. -/
  settleBlocks : Nat := 0
  deriving DecidableEq, Repr

/-- DPD states (table *DPD states*). -/
inductive DpdState where
  | off | adapting | frozen | held
  deriving DecidableEq, Repr

/-- A coefficient set: complex coefficients in the order of R113; the empty list is the identity (R114). -/
abbrev DpdSet := List (Int × Int)

/-- What a DPD does at the next slot boundary. -/
inductive DpdPending where
  | apply (set : DpdSet)
  | revert
  | identity
  | copyAll
  | switch (band : Nat)
  deriving DecidableEq, Repr

/-- One DPD block (R113–R116). -/
structure Dpd where
  /-- R116: state, 2 bits; reset OFF. -/
  state      : DpdState := .off
  /-- R113: enabled odd orders. -/
  orders     : Nat := 0
  /-- R113: M. -/
  memory     : Nat := 1
  /-- R113: L. -/
  cross      : Nat := 0
  /-- R116: DPD_NMSE_LIMIT, 0.01 dB; default −3,000. -/
  limit      : Int := -3000
  /-- R114: six coefficient sets. -/
  sets       : Bank DpdSet := Bank.fill []
  /-- R114: the orders, M and L that the sets belong to, and the temperature at which each was last set, 0.01 °C. -/
  model      : Nat × Nat × Nat := (0, 1, 0)
  setTemp    : Bank Int := Bank.fill 0
  /-- R457: the sets have come through a reset or STANDBY and are checked against temperature when the chain is next enabled. -/
  check      : Bool := false
  /-- R114: active set, B0–B5. -/
  active     : Nat := 0
  /-- R116: best set since the last band change, with its NMSE. -/
  best       : Option (Int × DpdSet) := none
  /-- NMSE_LAST, 0.01 dB. -/
  nmseLast   : Int := 0
  /-- R116: NMSE before the last update, and the set then in force. -/
  before     : Option (Int × DpdSet) := none
  /-- UPDATES. -/
  updates    : Nat := 0
  /-- REJECTS. -/
  rejects    : Nat := 0
  /-- R116: consecutive rejections. -/
  rejectRun  : Nat := 0
  /-- R116: consecutive measurements above the limit. -/
  overRun    : Nat := 0
  /-- Actions due at the next slot boundary. -/
  pending    : List DpdPending := []
  /-- LAST_UPDATE. -/
  lastUpdate : Nat := 0
  /-- DWELLS_UNUSED. -/
  unused     : Nat := 0
  deriving DecidableEq, Repr

/-- Modes of the SYNC_ALIGN pin (R99). -/
inductive SyncMode where
  | off | in_ | out
  deriving DecidableEq, Repr

/-- An alignment that waits for its frame (R98, R99). -/
structure AlignPending where
  frame  : Nat
  inMask : Nat
  egMask : Nat
  /-- R99: requested at the pin. -/
  byPin  : Bool
  deriving DecidableEq, Repr

/-- Channel-engine state. -/
structure CeState where
  /-- R82: ingress band paths IB0–IB127. -/
  ib         : Bank (Option BandPath) := Bank.fill none
  /-- R82: egress band paths EB0–EB127. -/
  eb         : Bank (Option BandPath) := Bank.fill none
  /-- R112, R113: what the DPD of TX.A0–TX.A7 delivered in the last loop tick, as 14-bit codes of its DACs, and what entered it. -/
  dac        : Bank (List Cx) := Bank.fill []
  dpdIn      : Bank (List Cx) := Bank.fill []
  /-- COMPOSITE_CLIP of TX.A0–TX.A7 (R112). -/
  compClip   : Bank Nat := Bank.fill 0
  /-- R113: the eight DPD blocks. -/
  dpd        : Bank Dpd := Bank.fill {}
  /-- R98: pending BP_ALIGN. -/
  align      : Option AlignPending := none
  /-- R99: pending request of the pin. -/
  alignPin   : Option AlignPending := none
  /-- R99: SYNC_ALIGN mode; reset OFF. -/
  syncMode   : SyncMode := .off
  /-- R99: masks of IN mode. -/
  syncIn     : Nat := 0
  syncEg     : Nat := 0
  /-- CE_ALIGN: pin level. -/
  syncLevel  : Bool := false
  /-- R99: monotonic time at which the OUT pulse ends. -/
  syncEnd    : Option Nat := none
  /-- CE_ALIGN: ignored edges. -/
  syncIgnored : Nat := 0
  /-- CE_ALIGN: alignments applied. -/
  alignCount : Nat := 0
  /-- CE_ALIGN_FRAME. -/
  alignFrame : Nat := 0
  deriving DecidableEq, Repr

/-! ## What leaves over the fabric -/

/-- A flit that has left at a port (R262–R264): control frames, or blocks of a flow, and its 640 bytes. -/
structure WireItem where
  port   : Nat
  /-- R260: the lane of a data flit. -/
  lane   : Option Nat := none
  flow   : Nat := 0
  frames : List CtrlFrame := []
  blocks : List Block := []
  bytes  : List Byte := []
  deriving DecidableEq, Repr

/-! ## Loop guard -/

/-- Loop states (table *Loop states*). -/
inductive LoopState where
  | open_ | acquiring | guarded | ladder | holdoff
  deriving DecidableEq, Repr

/-- The settings of LG_LOOP_CONFIG for one egress band path (0.01 dB, ms). -/
structure LoopConfig where
  /-- R120: M_REQ; default 15 dB. -/
  mReq         : Int := 1500
  /-- R120: CREDIT_MAX; default 30 dB. -/
  creditMax    : Int := 3000
  /-- R148: QUAL_HEADROOM; default 6 dB. -/
  qualHeadroom : Int := 600
  /-- R148: QUAL_PERIODS; default 4. -/
  qualPeriods  : Nat := 4
  /-- R129: MARGIN_AVG; default 4. -/
  marginAvg    : Nat := 4
  /-- R141: CAP_RISE, 0.01 dB/s; default 10 dB/s. -/
  capRise      : Nat := 1000
  /-- R150: SOFT_RAMP, ms; default 2 s. -/
  softRamp     : Nat := 2000
  /-- R148: ADMIT_DEFICIT; default 20 dB. -/
  admitDeficit : Int := 2000
  deriving DecidableEq, Repr

/-- The settings of LG_BEACON_CONFIG for one egress band path. -/
structure BeaconConfig where
  /-- R124: N_MAX; default 16. -/
  nMax      : Nat := 16
  /-- R125: identity frames; default on. -/
  identity  : Bool := true
  /-- R123: explicit code index. -/
  explicit_ : Option Nat := none
  /-- R126: BEACON_REL; default −30 dB. -/
  rel       : Int := -3000
  /-- R126: PILOT_FLOOR; default −75 dBFS. -/
  floor     : Int := -7500
  /-- R124: PREFIX_MIN, µs; default 20. -/
  prefixMin : Nat := 20
  deriving DecidableEq, Repr

/-- Why a loop qualifies: ACQUIRING, PADDOCK, or a HALT or QUIET that ended (R148, R377, R454). -/
inductive QualMode where
  | acquiring | paddock | halt
  deriving DecidableEq, Repr

/-- The loop record of one egress band path (R118). -/
structure Loop where
  /-- R140: state, 3 bits. -/
  state      : LoopState := .open_
  /-- R119: CLOSED_BY_MEASUREMENT: the ingress band path on which the pilot was found. -/
  measuredOn : Option Nat := none
  /-- LG_LOOP_CONFIG settings. -/
  config     : LoopConfig := {}
  /-- LG_BEACON_CONFIG settings. -/
  beacon     : BeaconConfig := {}
  /-- LG_BEACON_CONFIG: settings that start at the next pilot-period boundary. -/
  beaconNext : Option BeaconConfig := none
  /-- R140, R141: the cap of the part's own measurement, 0.01 dB. -/
  cap        : Option Int := none
  /-- R129: averaged A and C as linear power ratios, in units of 10^−30; none before a measurement. -/
  aLin       : Option Nat := none
  cLin       : Option Nat := none
  /-- R129: single-period A and C, 0.01 dB. -/
  a1         : Int := 0
  c1         : Int := 0
  /-- R128: BOUND_A and BOUND_C. -/
  boundA     : Bool := false
  boundC     : Bool := false
  /-- R141: the latest measurement was valid. -/
  valid      : Bool := false
  /-- R148: consecutive valid measurements. -/
  validRun   : Nat := 0
  /-- R148: the last pilot period had no block with SETTLING. -/
  settled    : Bool := false
  /-- MEAS_SEQ. -/
  seq        : Nat := 0
  /-- PILOT_LEVEL, 0.01 dBFS. -/
  pilot      : Int := 0
  /-- R125: sign of the pilot of the present period is negative. -/
  pilotNeg   : Bool := false
  /-- R125: its sign in the period before. -/
  pilotOld   : Bool := false
  /-- R125: position in the identity frame, 0–31. -/
  idBit      : Nat := 0
  /-- R141: monotonic time from which the cap rises. -/
  riseAt     : Nat := 0
  /-- R132: cap last received from the hub and in force. -/
  hubCap     : Option Int := none
  /-- R131: hub cap received, with the instant at which it applies. -/
  hubNext    : Option (AirInstant × Int) := none
  /-- R151: monotonic time of the last hub cap. -/
  hubAt      : Nat := 0
  /-- R132: starting gain granted by the hub. -/
  hubGrant   : Option Int := none
  /-- R148: what it qualifies for. -/
  qualMode   : Option QualMode := none
  /-- LOOP_STATUS.QUAL_FAIL. -/
  qualFail   : Nat := 0
  /-- R148: it has qualified and waits for admission. -/
  qualified  : Bool := false
  /-- ADMIT_GAIN, 0.01 dB. -/
  admitGain  : Int := 0
  /-- R143: G_osc, 0.01 dB. -/
  gOsc       : Int := 0
  /-- R144: monotonic times of the mutes in PEN_WINDOW, newest first. -/
  mutes      : List Nat := []
  /-- OSC_MUTES: mutes since reset. -/
  muteCount  : Nat := 0
  /-- LAST_OSC. -/
  lastOsc    : Nat := 0
  /-- R143: monotonic time at which the hold-off ends. -/
  holdEnd    : Nat := 0
  /-- R142: consecutive frames in which the line detector saw a growing line. -/
  lineRun    : Nat := 0
  /-- R151: monotonic time since which M_cr has been below M_REQ. -/
  lowSince   : Option Nat := none
  /-- R151: monotonic time of the last valid measurement. -/
  lastValid  : Nat := 0
  /-- R151: BEACON_LOSS holds the cap. -/
  held       : Bool := false
  deriving DecidableEq, Repr

/-- Canceller states (table *Canceller states*). -/
inductive CancState where
  | idle | cold | converged | reAcquire | frozen | diverged
  deriving DecidableEq, Repr

/-- One canceller instance (R133). -/
structure Canceller where
  state      : CancState := .idle
  /-- Return ingress band path. -/
  ib         : Nat := 0
  /-- R133: the reference is an outgoing flow. -/
  refFlow    : Bool := false
  refId      : Nat := 0
  clusters   : Nat := 0
  /-- R136: automatic placement. -/
  auto_      : Bool := true
  taps       : Nat := 0
  span       : Nat := 0
  /-- R135: step size, Q0.16; default 1,311. -/
  mu         : Nat := 1311
  doppler    : Bool := false
  offsets    : List Nat := []
  /-- CANC_C: last measured C, 0.01 dB. -/
  c          : Int := 0
  /-- R137: C has been measured since the last cold start or restore. -/
  measured   : Bool := false
  /-- R136: strongest regions of the latest PRE delay profile, samples, strongest first. -/
  regions    : List Nat := []
  /-- R135: complex taps of each cluster, rotators, scaled by 2^30, and rotation per sample, 2^−48 turns. -/
  weights    : List (List Cx) := []
  rot        : List Cx := []
  dopp       : List Int := []
  /-- R133, R135: reference samples, newest first, and whether the instance may adapt on each. -/
  ref        : List (Cx × Bool) := []
  /-- R133: instant at the transmit pin of the newest reference sample. -/
  refAt      : AirInstant := ⟨0, 0⟩
  /-- R139: taps of the snapshot. -/
  snap       : List (List Cx) := []
  /-- R137: sums of the scalar fit: Σ pre × conj(y), Σ|y|², and the admitted samples taken. -/
  fitNum     : Cx := (0, 0)
  fitDen     : Nat := 0
  fitCount   : Nat := 0
  /-- R139: best C since the last cold start. -/
  best       : Option Int := none
  /-- R139: a snapshot is held. -/
  snapshot   : Bool := false
  /-- R139: consecutive measurements of C below 0 dB. -/
  negRun     : Nat := 0
  /-- R139: the snapshot is restored at the next slot boundary. -/
  restore    : Bool := false
  /-- R137: state before RE_ACQUIRE. -/
  before     : CancState := .cold
  /-- BULK_DELAY, Tc. -/
  bulk       : Nat := 0
  /-- DOPPLER, 0.1 Hz. -/
  rotator    : Int := 0
  coldStarts : Nat := 0
  diverges   : Nat := 0
  deriving DecidableEq, Repr

/-- What the correlation of one pilot period finds (R126–R129). -/
structure PilotMeasure where
  /-- Part of the period that was emitted, %. -/
  emitted   : Nat
  /-- No block of the band path or of its return carried SETTLING in the period. -/
  settled   : Bool
  /-- Loop attenuation at the PRE tap, 0.01 dB; none when the pilot is not found there, and its bound. -/
  a         : Option Int
  aBound    : Int
  /-- Cancellation at the POST tap; none when the pilot is not found there, and its bound. -/
  c         : Option Int
  cBound    : Int
  /-- Own ingress band path, overlapping the carrier of an open loop, on which its pilot was found. -/
  onPath    : Option Nat
  /-- Mean composite power over the admitted samples, pilot excluded, and mean input power, 0.01 dBFS. -/
  composite : Int
  input     : Int
  /-- R136: strongest regions of the PRE delay profile, samples, strongest first. -/
  regions   : List Nat
  deriving DecidableEq, Repr

/-- One member of the hub's searcher (R130, R131). -/
structure Tracked where
  member : Nat
  eb     : Nat
  ib     : Nat
  /-- Its pilot has been found; else `a` is its bound. -/
  found  : Bool := true
  /-- R125, R130: its last data bits, newest first, and the last correlation peak. -/
  bits   : List Bool := []
  peak   : Cx := (0, 0)
  /-- A_m, measured or its bound, 0.01 dB. -/
  a      : Int
  /-- G_m, 0.01 dB. -/
  g      : Int
  /-- Cap sent; none for an uncapped member. -/
  cap    : Option Int
  deriving DecidableEq, Repr

/-- G_m of one egress band path of a member (R131), 0.01 dB. -/
structure GainReport where
  member : Nat
  eb     : Nat
  gain   : Int
  deriving DecidableEq, Repr

/-- Hold-off of a searched ingress band path of a hub (R145). -/
structure HubHold where
  holdEnd : Nat := 0
  active  : Bool := false
  mutes   : List Nat := []
  lineRun : Nat := 0
  deriving DecidableEq, Repr

/-- Policy of LG_POLICY. -/
structure LgPolicy where
  /-- R142: OSC_MARGIN; default 3 dB. -/
  oscMargin  : Int := 300
  /-- R142: OSC_LOOP_GAIN; default −3 dB. -/
  oscGain    : Int := -300
  /-- R142: LINE_GROWTH; default 6 dB per 100 µs. -/
  lineGrowth : Int := 600
  /-- R143: hold-off, ms; default 1,000. -/
  holdoff    : Nat := 1000
  /-- R144: MUTES_TO_PEN; default 3. -/
  mutesToPen : Nat := 3
  /-- R144: PEN_WINDOW, s; default 60. -/
  penWindow  : Nat := 60
  /-- R143: RETRY_DROP; default 10 dB. -/
  retryDrop  : Int := 1000
  deriving DecidableEq, Repr

/-- Loop-guard state. -/
structure LgState where
  /-- R118: loop record of each existing egress band path. -/
  loops      : Bank (Option Loop) := Bank.fill none
  /-- R119: ingress band paths marked conducted. -/
  conducted  : List Nat := []
  /-- R133: the 32 canceller instances. -/
  canc       : Bank Canceller := Bank.fill {}
  policy     : LgPolicy := {}
  /-- Commands whose change waits for the next slot boundary: opcode and payload, oldest first. -/
  waiting    : List (Nat × List Byte) := []
  /-- R130: searched donor ingress band paths. -/
  searchMask : Nat := 0
  /-- R130: code degree of each searcher lane; 0 off. -/
  lanes      : List Nat := [0, 0, 0, 0]
  /-- R130: TRACKED_MAX; default 256. -/
  trackedMax : Nat := 256
  /-- R130: codes swept per lane per period; default 64. -/
  sweep      : Nat := 64
  /-- R131: tracked members. -/
  tracked    : List Tracked := []
  /-- R130: endpoint, member × 128 + band path, that a searched ingress band path has swept last; none before the first of a sweep. -/
  sweepAt    : Bank (Option Nat) := Bank.fill none
  /-- R131: G_m as members last reported it. -/
  gains      : List GainReport := []
  /-- R133: reported gain changes that wait for their instant, oldest first. -/
  gainNext   : List (AirInstant × GainReport) := []
  /-- R131: monotonic time from which caps of a searched ingress band path rise. -/
  hubRise    : Bank Nat := Bank.fill 0
  /-- SEARCH_STATUS: members swept in the current sweep of each searched ingress band path. -/
  swept      : Bank Nat := Bank.fill 0
  /-- R130: period end at which a searched ingress band path was last searched. -/
  searchedAt : Bank (Option AirInstant) := Bank.fill none
  /-- R131: M_agg of each searched ingress band path, 0.01 dB. -/
  mAgg       : Bank Int := Bank.fill 0
  /-- Page 2: monotonic times of the cap steps of the last second, by ingress band path. -/
  capSteps   : Bank (List Nat) := Bank.fill []
  /-- R145: hold-off of searched ingress band paths. -/
  hubHold    : Bank HubHold := Bank.fill {}
  /-- OSC_TOTAL. -/
  oscTotal   : Nat := 0
  /-- R149: frame at which this part's qualified units are admitted. -/
  admitFrame : Option Nat := none
  /-- R149: an ADMIT_REQ has left and awaits its grant. -/
  admitAsked : Bool := false
  /-- R149: the units that had qualified when admission was asked for. -/
  admitUnits : List UnitId := []
  deriving DecidableEq, Repr

/-! ## Housekeeping -/

/-- Samples accumulated for one channel in a round (R238). -/
structure HkAccum where
  sum   : Int := 0
  sumsq : Nat := 0
  min   : Int := 0
  max   : Int := 0
  count : Nat := 0
  /-- Slots of the channel in the round. -/
  slots : Nat := 0
  deriving DecidableEq, Repr

/-- A coefficient as a fraction (R239). -/
structure Frac where
  num : Int
  den : Nat
  deriving DecidableEq, Repr

/-- System calibration of a channel (R245, R246). -/
structure HkCal where
  /-- Gain, channel units per code. -/
  gain   : Frac
  /-- Offset, codes. -/
  offset : Frac
  deriving DecidableEq, Repr

/-- The published record of one channel (R238, R239). -/
structure HkRecord where
  acc    : HkAccum := {}
  round  : Nat := 0
  /-- VALUE; none is 0x8000_0000. -/
  value  : Option Int := none
  /-- CH_STATUS[4]: a single converter. -/
  single : Bool := false
  deriving DecidableEq, Repr

/-- Who asked for an urgent slot (R241, R242). -/
inductive UrgentBy where
  | host (t : Ticket)
  | trip (cmp : Nat)
  deriving DecidableEq, Repr

/-- A system-calibration measurement in progress (R245). -/
structure CalRun where
  channel : Nat
  point   : Nat
  left    : Nat
  value   : Int
  sum     : Int := 0
  count   : Nat := 0
  ticket  : Ticket
  deriving DecidableEq, Repr

/-- One supply window (R247). -/
structure SupplyWindow where
  lo      : Int
  hi      : Int
  /-- WINDOW_ROUNDS; default 2. -/
  rounds  : Nat := 2
  /-- Consecutive rounds out of the window, and inside it. -/
  outRun  : Nat := 0
  inRun   : Nat := 0
  checked : Bool := false
  isOut   : Bool := false
  deriving DecidableEq, Repr

/-- One temperature sensor (R249–R252). Temperatures in 0.01 °C. -/
structure Sensor where
  /-- Last three raw readings, newest first. -/
  raws      : List Int := []
  /-- R249: filtered temperature; 25 °C stands until a reading exists (log entry 15). -/
  filtered  : Int := 2500
  /-- R251: band held; B2 before the first reading. -/
  band      : Nat := 2
  candidate : Nat := 2
  dwell     : Nat := 0
  failed    : Bool := false
  /-- R250: consecutive rounds more than 25 °C from the others. -/
  offRun    : Nat := 0
  changes   : Nat := 0
  oscCount  : Nat := 0
  /-- R250: band and temperature that its consumers use. -/
  usedBand  : Nat := 2
  usedTemp  : Int := 2500
  deriving DecidableEq, Repr

/-- Nominal supply voltages of channels 46–77, mV (chapter *Package, balls and electrical characteristics*). -/
def supplyNominals : List Nat :=
  [750, 750, 750, 750, 750, 750, 750, 750, 850, 850, 850, 850, 800, 1800, 3300, 850,
   1800, 1800, 1800, 1800, 900, 900, 900, 900, 1100, 400, 1100, 400, 750, 750, 750, 1200]

/-- The default window of a channel: nominal ±5 % (R247). -/
def defaultWindow (k : Nat) : SupplyWindow :=
  let n : Int := ((supplyNominals.getD k 0 : Nat) : Int)
  { lo := (n * 95 + 99) / 100, hi := n * 105 / 100 }

/-- Housekeeping state. -/
structure HkState where
  /-- R236: number of the round in progress. -/
  round      : Nat := 0
  /-- HK_ROUND: number of the last completed round; none before the first. -/
  lastRound  : Option Nat := none
  /-- ROUND_END. -/
  roundEnd   : Nat := 0
  /-- R236: slot in progress, 0–127; 128 when the round is about to end. -/
  slot       : Nat := 0
  /-- Monotonic time of the start of the slot in progress. -/
  slotStart  : Nat := 0
  /-- R237: channel of each spare slot; default GND_REF (82). -/
  map        : Bank Nat := Bank.fill 82
  /-- HK_SLOT_MAP: map of the next round. -/
  mapNext    : Option (Bank Nat) := none
  /-- R238: accumulation of the round in progress. -/
  accum      : Bank HkAccum := Bank.fill {}
  /-- R238: published records of channels 0–84. -/
  records    : Bank HkRecord := Bank.fill {}
  /-- R241: urgent request pending, and running. -/
  urgent     : Option (Nat × UrgentBy) := none
  urgentRun  : Bool := false
  /-- R242: urgent slots of the round. -/
  urgentUsed : Nat := 0
  /-- URGENT_COUNT. -/
  urgents    : Nat := 0
  /-- URGENT_DROP. -/
  urgentDrop : Nat := 0
  /-- URGENT_CAP_DROP. -/
  urgentCap  : Nat := 0
  /-- R243: test DAC in HOST mode, and its code; from the next slot 127. -/
  dacHost    : Bool := false
  dacCode    : Nat := 0
  /-- R244: excluded converters, consecutive failing and passing rounds, error at the last test slot. -/
  excluded   : Bank Bool := Bank.fill false
  fails      : Bank Nat := Bank.fill 0
  passes     : Bank Nat := Bank.fill 0
  dacErr     : Bank Int := Bank.fill 0
  /-- R246: system calibrations (boot flash). -/
  cal        : Bank (Option HkCal) := Bank.fill none
  /-- R245: completed zero points: applied value, sum and count of codes. -/
  zero       : Bank (Option (Int × Int × Nat)) := Bank.fill none
  /-- R245: measurement in progress. -/
  calRun     : Option CalRun := none
  /-- R247: windows of channels 46–77, by channel less 46. -/
  windows    : Bank SupplyWindow := { dflt := ⟨0, 0, 2, 0, 0, false, false⟩, cells := (List.range 32).map (fun k => (k, defaultWindow k)) }
  /-- HK_SUPPLY_WINDOW: windows of the next round, by channel less 46: lo, hi, WINDOW_ROUNDS. -/
  windowNext : List (Nat × Int × Int × Nat) := []
  /-- R246: system calibrations of the next round, by channel. -/
  calNext    : List (Nat × Option HkCal) := []
  /-- R248: the 24 sensors. -/
  sensors    : Bank Sensor := Bank.fill {}
  /-- R254: T_gov and its sensor. -/
  tGov       : Int := 2500
  govIndex   : Nat := 0
  /-- R254: D_th, 0.01 dB. -/
  dTh        : Nat := 0
  /-- R254: T_THROTTLE; default 100 °C. -/
  tThrottle  : Int := 10000
  /-- R256: T_SHUT; default of grade E 115 °C. -/
  tShut      : Int := 11500
  /-- R254: slope, 0.01 dB/°C; default 50. -/
  slope      : Nat := 50
  /-- HK_THERMAL_POLICY: values first used at the end of the round that starts next. -/
  policyNext : Option (Nat × Int × Int × Nat) := none
  /-- R514: shutdown sub-cause. -/
  shutdown   : Bool := false
  /-- R514: dies without a valid sensor (0 main, 1 RF, 2 HV). -/
  blindDies  : List Nat := []
  /-- CLK_STATUS: failed clocks. -/
  clocks     : Nat := 0
  deriving DecidableEq, Repr

/-! ## Gain stacks and network protection -/

/-- A raised-cosine ramp (R156): where the multiplier stands. -/
inductive RampState where
  | open_ | falling | silent | rising
  deriving DecidableEq, Repr

/-- One ramp. -/
structure Ramp where
  state : RampState
  /-- Monotonic time at which a running ramp ends. -/
  endAt : Nat := 0
  deriving DecidableEq, Repr

/-- LIMITER codes (GS_STATUS). -/
inductive Limiter where
  | command | thermal | npBackoff | marginCap | ulNoiseCap | floor | ceiling | excluded | mute
  deriving DecidableEq, Repr

/-- What the gain stack applied from an instant on (R155, R156). -/
structure GainPoint where
  /-- Monotonic time. -/
  since   : Nat
  applied : Int
  target  : Int
  slewAt  : Option Nat
  ramp    : Ramp
  excl    : Ramp
  deriving DecidableEq, Repr

/-- What the control engine learns of a gain stack at a loop tick: G_eff, B_th, B_np and LIMITER (R154). -/
structure StackReport where
  gain    : Int := 0
  bTh     : Nat := 0
  bNp     : Nat := 0
  limiter : Limiter := .command
  deriving DecidableEq, Repr

/-- The gain stack of one egress band path (R152). -/
structure GainStack where
  /-- R227: monotonic time at which it was last seen neither muted nor excluded. -/
  openAt     : Option Nat := none
  /-- What it applied in the last 20 ms, newest first. -/
  past       : List GainPoint := []
  /-- R152: G_cmd (log entry 10 for its value before the first setting). -/
  gCmd       : Int := 0
  /-- R152: B_th. -/
  bTh        : Nat := 0
  /-- R152: B_np. -/
  bNp        : Nat := 0
  /-- R152: CAP_M; none for an open loop. -/
  capM       : Option Int := none
  /-- R152: CAP_UL. -/
  capUl      : Option Int := none
  /-- R156: HOST mute source. -/
  host       : Bool := false
  /-- R156: DONOR mute source: the donors that set it. -/
  donors     : List Nat := []
  /-- R150, R208: soft-start of the command: start and end gain, monotonic start, duration in Tc. -/
  soft       : Option (Int × Int × Nat × Nat) := none
  /-- R153: target. -/
  target     : Int := 0
  /-- R155: applied gain. -/
  applied    : Int := 0
  /-- R155: monotonic time up to which a running slew has been followed. -/
  slewAt     : Option Nat := none
  /-- R156: mute ramp. -/
  ramp       : Ramp := { state := .silent }
  /-- R156: exclusion ramp. -/
  excl       : Ramp := { state := .silent }
  /-- R153: LIMITER. -/
  limiter    : Limiter := .command
  /-- LIM_CHANGES. -/
  limChanges : Nat := 0
  /-- R131: the gain last reported to the hub. -/
  reported   : Int := 0
  /-- R154: what the control engine was told at the last loop tick. -/
  report     : StackReport := {}
  deriving DecidableEq, Repr

/-- Back-off causes (table *Back-off causes*, R374). -/
inductive BackoffCause where
  | detector | canceller | donorOverload | host | image | dpd | life | overpower | emission
  | degrade (cls : Nat)
  deriving DecidableEq, Repr

/-- One instance of a back-off cause on a band path or chain. -/
structure Backoff where
  cause  : BackoffCause
  /-- An egress band path or a transmit chain. -/
  unit   : UnitId
  /-- Instance: two instances of one cause on one scope count once. -/
  inst   : Nat
  amount : Nat
  deriving DecidableEq, Repr

/-- Gate modes (R161). -/
inductive GateMode where
  | gated | open_ | closed
  deriving DecidableEq, Repr

/-- The uplink gate of one ingress band path (R161–R163). -/
structure UlGate where
  mode      : GateMode := .gated
  /-- R162: HANG; default 1. -/
  hang      : Nat := 1
  /-- R162: G_OPEN, 0.01 dB; default 400. -/
  gOpen     : Int := 400
  /-- R167: raise of G_OPEN in force, 0.01 dB. -/
  raised    : Int := 0
  /-- R163: NOISE_WIN, ms; default 200. -/
  noiseWin  : Nat := 200
  /-- R163: envelopes of admitted UL symbols, newest first. -/
  envs      : List Int := []
  /-- R163: NOISE_PENDING. -/
  pendingN  : Bool := true
  /-- R163: N_est, 0.01 dBFS. -/
  nEst      : Int := 0
  /-- R162: symbols for which the gate stays open after an opening. -/
  hangLeft  : Nat := 0
  /-- R162: open in the last symbol. -/
  isOpen    : Bool := false
  /-- R162: blocks held for the decision of their symbol, oldest first. -/
  held      : List Block := []
  /-- R162: the latest decisions, newest first: start of the symbol and whether the gate is open in it. -/
  decided   : List (AirInstant × Bool) := []
  /-- Page 1: open symbols since reset. -/
  openCount : Nat := 0
  deriving DecidableEq, Repr

/-- Uplink-noise control of one egress band path (R165–R167). -/
structure UlNoise where
  enable  : Bool := false
  /-- UL_NOISE_LIMIT, 0.01 dBFS. -/
  limit   : Int := 0
  /-- UL_CAP_RISE, 0.01 dB/s; default 1,000. -/
  rise    : Nat := 1000
  /-- UL_DEFICIT, 0.01 dB; default 1,000. -/
  deficit : Int := 1000
  /-- R165: linear N(s) of the local source summed over the symbols of the window in which its gate was open, and their number. -/
  openSum : Nat := 0
  openNum : Nat := 0
  /-- R165: N_ul, once known. -/
  nUl     : Option Int := none
  /-- R166: the cap that the last N_ul gives, towards which CAP_UL rises, 0.01 dB. -/
  goal    : Option Int := none
  /-- R166: monotonic time from which CAP_UL rises. -/
  riseAt  : Nat := 0
  /-- R167: monotonic time since which CAP_UL has been below G_cmd − UL_DEFICIT. -/
  lowSince : Option Nat := none
  /-- R164: N_est of each contributor; 0xFFFF is the local source. -/
  contrib : Bank (Option Int) := Bank.fill none
  /-- R167: raise of G_OPEN sent to every contributor, 0.01 dB. -/
  raise_  : Int := 0
  /-- R167: the raise is to be sent at the next frame. -/
  send    : Bool := false
  deriving DecidableEq, Repr

/-- Donor rules of one ingress band path (R168–R172). -/
structure DonorRule where
  enable    : Bool := false
  /-- DONOR_MIN, 0.01 dBFS; default −6,000. -/
  minLevel  : Int := -6000
  /-- DONOR_LOSS_TIME, ms; default 200. -/
  lossTime  : Nat := 200
  /-- DONOR_MAX, 0.01 dBFS; default −300. -/
  maxLevel  : Int := -300
  ulMask    : Nat := 0
  lossSince : Option Nat := none
  okSince   : Option Nat := none
  loss      : Bool := false
  overTicks : Nat := 0
  overload  : Bool := false
  level     : Int := 0
  losses    : Nat := 0
  overloads : Nat := 0
  deriving DecidableEq, Repr

/-- Output rules and shares of one transmit chain (R160, R168, R173, R174). -/
structure OutputRule where
  enable    : Bool := false
  /-- OUTPUT_LIMIT, 0.01 dBm. -/
  limit     : Int := 0
  /-- OBS_COUPLING, 0.01 dB. -/
  coupling  : Int := 0
  /-- OVERPOWER_TRIP, 0.01 dB; default 200. -/
  trip      : Int := 200
  /-- ACLR_LIMIT, 0.01 dB; default 4,000. -/
  aclrLimit : Int := 4000
  /-- OUT_POWER, 0.01 dBm. -/
  power     : Int := 0
  /-- Consecutive measurements above OUTPUT_LIMIT + 0.5 dB. -/
  overRun   : Nat := 0
  /-- R173: consecutive measurements at or below OUTPUT_LIMIT. -/
  underRun  : Nat := 0
  /-- ACLR_WORST, 0.01 dB. -/
  aclr      : Int := 0
  /-- Consecutive failing dwells. -/
  failRun   : Nat := 0
  /-- R174: emission pre-back-off, 0.01 dB. -/
  emission  : Nat := 0
  /-- D_TH, D_NP and the shares X and Y of each, 0.01 dB; Pp, 0.01 %. -/
  dTh       : Nat := 0
  xTh       : Nat := 0
  yTh       : Nat := 0
  dNp       : Nat := 0
  xNp       : Nat := 0
  yNp       : Nat := 0
  pProt     : Nat := 0
  deriving DecidableEq, Repr

/-- Gain-stack and network-protection state. -/
structure NpState where
  /-- R152: gain stack of each egress band path. -/
  gain       : Bank GainStack := Bank.fill {}
  /-- R160: thermal demand D_th, 0.01 dB, as housekeeping last computed it. -/
  thermal    : Nat := 0
  /-- R158: back-off causes in force. -/
  backoffs   : List Backoff := []
  /-- R158: NP_BACKOFF_MAX, 0.01 dB; default 2,000. -/
  backoffMax : Nat := 2000
  /-- R160: NP_SHARE_MAX, 0.01 dB; default 2,000. -/
  shareMax   : Nat := 2000
  /-- R161: gate of each ingress band path that UL_GATE_CONFIG has configured. -/
  gates      : Bank (Option UlGate) := Bank.fill none
  /-- R165: noise control of each egress band path. -/
  noise      : Bank UlNoise := Bank.fill {}
  /-- R169: donor rules of each ingress band path. -/
  donors     : Bank DonorRule := Bank.fill {}
  /-- R168: output rules of TX.A0–TX.A7. -/
  outputs    : Bank OutputRule := Bank.fill {}
  deriving DecidableEq, Repr

/-! ## Control engine -/

/-- Loop kinds (table *Loop kinds*). -/
inductive SlotKind where
  | level | gain | chainGain | ulNoise | margin
  deriving DecidableEq, Repr

/-- Slot states (SLOT_STATUS.STATE). -/
inductive SlotRun where
  | disabled | softStart | running | hold
  deriving DecidableEq, Repr

/-- Hold reasons (SLOT_STATUS.HOLD_REASON). -/
inductive HoldReason where
  | none | stale | overrun | plausibility | loopGuard
  deriving DecidableEq, Repr

/-- One coefficient bank (R197, CL_BANK_WRITE). -/
structure Coeffs where
  /-- Kp, Q8.24. -/
  kp   : Int
  /-- Ki, 0.001 s^−1. -/
  ki   : Nat
  /-- Kd, µs. -/
  kd   : Nat
  /-- Tf, µs. -/
  tf   : Nat
  /-- Kt, 0.001 s^−1. -/
  kt   : Nat
  /-- Output limits, 0.01 dB. -/
  uMin : Int
  uMax : Int
  deriving DecidableEq, Repr

/-- An injection on a slot (R202, R203). -/
structure Injection where
  /-- Applied at the output rather than at the set-point. -/
  atOutput : Bool
  /-- 1 STEP, 2 PRBS, 3 SINE. -/
  shape    : Nat
  /-- 0.01 dB. -/
  amp      : Nat
  arg      : Nat
  /-- Trace buffer to arm; none for 0xFF. -/
  trace    : Option Nat
  count    : Nat
  /-- Start frame; none for the next iteration. -/
  frame    : Option Nat
  started  : Bool := false
  /-- Iterations run. -/
  done     : Nat := 0
  /-- R203: it ends at the next iteration, for this reason. -/
  stop     : Option Nat := none
  ticket   : Ticket
  deriving DecidableEq, Repr

/-- A soft-start in progress (R192). -/
structure SoftStart where
  /-- Start value of the output, 2^−16 dB. -/
  from_ : Int
  /-- Ramp time, Tc. -/
  ramp  : Nat
  /-- Start of the ramp: the first valid corrected measurement for LEVEL, and the feedback at it, 2^−16 dB. -/
  begun : Option (Nat × Int) := none
  deriving DecidableEq, Repr

/-- One loop slot (R176–R192). Values in 2^−16 dB are the engine's own (R184). -/
structure Slot where
  /-- R176: kind; none is FREE. -/
  kind      : Option SlotKind := none
  /-- R179: k, or m of an outer slot. -/
  rate      : Nat := 0
  /-- R176: target. -/
  target    : Nat := 0
  /-- R180: OBS feedback. -/
  obs       : Bool := false
  /-- CL_SLOT_CONFIG flag [1]: soft-start on enable. -/
  softFlag  : Bool := false
  /-- R178: base set-point, 0.01 units. -/
  setpoint  : Int := 0
  /-- CL_SETPOINT: ramp of the base set-point: start value (0.01 units), monotonic start, duration in Tc. -/
  spRamp    : Option (Int × Nat × Nat) := none
  /-- OUT_OFFSET or CG_HYST, 0.01 dB. -/
  param     : Int := 0
  /-- R192: soft-start ramp, ms. -/
  rampMs    : Nat := 0
  /-- SLOT_STATUS.STATE. -/
  run       : SlotRun := .disabled
  /-- SLOT_STATUS.HOLD_REASON. -/
  reason    : HoldReason := .none
  /-- R197: bank B is active. -/
  bankSel   : Bool := false
  /-- R197: banks A and B; none is empty. -/
  bankA     : Option Coeffs := none
  bankB     : Option Coeffs := none
  /-- R197: SWAP_PENDING. -/
  swap      : Bool := false
  /-- R185: SAT, and whether v lies above w. -/
  sat       : Bool := false
  satUp     : Bool := false
  /-- R183: I and D, 2^−16 dB. -/
  i         : Int := 0
  d         : Int := 0
  /-- R183: y of the last iteration that ran, 2^−16 dB. -/
  yPrev     : Option Int := none
  /-- R183: u before rounding, 2^−16 dB. -/
  uFine     : Int := 0
  /-- OUTPUT: last output written, 0.01 dB. -/
  u         : Int := 0
  /-- FEEDBACK: last corrected feedback, 0.01 units. -/
  y         : Int := 0
  /-- SETPOINT: effective set-point, 0.01 units. -/
  r         : Int := 0
  /-- Trace entry: injected value, 0.01 dB. -/
  injected  : Int := 0
  /-- Trace entry: iteration number since the slot was enabled. -/
  iter      : Nat := 0
  /-- R180: the measurement last used: window or dwell number, N_ul, or time of the estimate. -/
  lastSeq   : Option Int := none
  /-- R179: sample instant last processed. -/
  lastAt    : Option AirInstant := none
  /-- SLOT_COUNTS: overruns. -/
  overruns  : Nat := 0
  /-- SLOT_STATUS.OVR_RUN. -/
  ovrRun    : Nat := 0
  /-- R200: consecutive on-time iterations in an overrun hold. -/
  onTime    : Nat := 0
  /-- SLOT_COUNTS: implausible iterations. -/
  implCount : Nat := 0
  /-- R190: consecutive implausible iterations. -/
  implRun   : Nat := 0
  /-- R190: K_b by temperature band, 2^−16 dB, with the plausible updates of each. -/
  kBand     : Bank (Option (Int × Nat)) := Bank.fill none
  /-- R190: samples used since the slot was first enabled, up to 16. -/
  learned   : Nat := 0
  /-- R206: monotonic time since which u has equalled a limit. -/
  limitAt   : Option Nat := none
  /-- R192: soft-start in progress. -/
  soft      : Option SoftStart := none
  /-- R192: the next iteration sets I so that v equals the realised value. -/
  bumpless  : Bool := false
  /-- R201: the next iteration is late. -/
  late      : Bool := false
  /-- R181: delays of the last second: monotonic time and engine cycles. -/
  delays    : List (Nat × Nat) := []
  /-- R202: injection. -/
  inj       : Option Injection := none
  /-- R204: LIMITER at the last entry. -/
  limiter   : Limiter := .command
  deriving DecidableEq, Repr

/-- One entry of a trace (table *Trace entry*). -/
structure TraceEntry where
  mono  : Nat
  iter  : Nat
  r     : Int
  y     : Int
  u     : Int
  i     : Int
  inj   : Int
  flags : Nat
  deriving DecidableEq, Repr

/-- States of a trace buffer (TRACEj_STATUS). -/
inductive TraceState where
  | idle | armed | recording | frozen
  deriving DecidableEq, Repr

/-- One trace buffer (R204). -/
structure Trace where
  /-- 0 off, 1 START_UP, 2 TEST, 3 RECOVERY. -/
  mode       : Nat := 0
  slot       : Nat := 0
  decimation : Nat := 1
  pre        : Nat := 0
  triggers   : Nat := 0
  state      : TraceState := .idle
  /-- Entries, newest first, at most 1,024. -/
  entries    : List TraceEntry := []
  /-- Iterations seen, for the decimation. -/
  phase      : Nat := 0
  /-- RECOVERY: entries still to record after the trigger. -/
  left       : Option Nat := none
  /-- Monotonic time of the trigger. -/
  trigAt     : Nat := 0
  deriving DecidableEq, Repr

/-- One repetitive controller (R193–R196). -/
structure Rep where
  enabled    : Bool := false
  pattern    : Nat := 0
  /-- L and λ, Q0.16. -/
  lGain      : Nat := 16384
  lambda     : Nat := 66
  /-- 0.01 dB. -/
  limit      : Nat := 300
  stepMax    : Nat := 100
  /-- r[b], 2^−16 dB. -/
  table      : Bank Int := Bank.fill 0
  /-- R194: r_a[b], the correction last written in each bin. -/
  applied    : Bank Int := Bank.fill 0
  /-- R196: the table is cleared at the start of the next pattern period. -/
  clear      : Bool := false
  /-- R193: bin last written. -/
  bin        : Option Nat := none
  /-- R193: bin boundary last passed. -/
  binAt      : Option AirInstant := none
  /-- REP_STATUS[4]: a dwell was used in the last pattern period, and in the present one. -/
  usedLast   : Bool := false
  usedNow    : Bool := false
  updates    : Nat := 0
  /-- REP_RESID, 0.01 dB. -/
  resid      : Nat := 0
  /-- REP_LAST. -/
  last       : Nat := 0
  deriving DecidableEq, Repr

/-- Control-engine state. -/
structure ClState where
  /-- R176: the 512 slots. -/
  slots      : Bank Slot := Bank.fill {}
  /-- R204: the eight trace buffers. -/
  traces     : Bank Trace := Bank.fill {}
  /-- R193: repetitive controllers of TX.A0–TX.A7. -/
  reps       : Bank Rep := Bank.fill {}
  /-- R190: PLAUS_TOL, 0.01 dB; default 600. -/
  plausTol   : Int := 600
  /-- R190: PLAUS_COUNT; default 8. -/
  plausCount : Nat := 8
  /-- R206: SAT_TIME, 0.1 s; default 20. -/
  satTime    : Nat := 20
  /-- R200: RESUME_COUNT; default 64. -/
  resume     : Nat := 64
  /-- R188: R_o of RX.A0–RX.A7. -/
  raises     : Bank Nat := Bank.fill 0
  /-- R180: carrier power of each egress band path in the last usable dwell at the OBS pin, 0.01 dBm, with the dwell's number. -/
  carriers   : Bank (Option (Nat × Int)) := Bank.fill none
  /-- Page 3: cycles used in the ticks of the last second: tick, monotonic time, cycles, newest first. -/
  usage      : List (Nat × Nat × Nat) := []
  /-- CL_OVERRUNS. -/
  overruns   : Nat := 0
  /-- CL_LATE_TICKS. -/
  lateTicks  : Nat := 0
  /-- CL_SWAPS. -/
  swaps      : Nat := 0
  /-- CL_SWAP_SAT. -/
  swapSat    : Nat := 0
  /-- CL_INJECT[31:16]: injections completed. -/
  injDone    : Nat := 0
  deriving DecidableEq, Repr

/-! ## Power stage -/

/-- PA states as stored; PULSING is READY while every condition of R214 holds. -/
inductive PaState where
  | absent | pinched | drainUp | ready | draining
  deriving DecidableEq, Repr

/-- The identity record (table *Identity record*). -/
structure CasRecord where
  bytes     : List Byte := []
  serial    : Nat := 0
  idqTarget : Nat := 0
  vgMax     : Nat := 0
  tempco    : Int := 0
  rth       : Nat := 0
  ntcBeta   : Nat := 0
  fwdSlope  : Int := 0
  fwdIcpt   : Int := 0
  revSlope  : Int := 0
  revIcpt   : Int := 0
  rating    : Nat := 0
  deriving DecidableEq, Repr

/-- The life record (table *Life record*). -/
structure LifeRecord where
  seq     : Nat := 0
  stress  : Nat := 0
  minutes : Nat := 0
  trips   : Nat := 0
  maxTch  : Int := 0
  deriving DecidableEq, Repr

/-- Thresholds of one band of a comparator; none disables a side (R219). -/
structure Thresholds where
  hi    : Option Int
  lo    : Option Int
  hysHi : Int
  hysLo : Int
  deriving DecidableEq, Repr

/-- Comparator modes (table *Comparator modes*). -/
abbrev CmpMode := Nat

/-- One of the 40 comparators (R218–R224). -/
structure Cmp where
  /-- R223: mode, FAST after reset. -/
  mode      : CmpMode := 0
  /-- R222: qualified. -/
  qualified : Bool := false
  /-- R219: TRIP; every comparator starts in it. -/
  trip      : Bool := true
  /-- CMP_CONFIG has been given. -/
  configured : Bool := false
  /-- Thresholds per band B0–B5. -/
  bands     : List Thresholds := []
  /-- R224: monotonic time of entry to TRIP. -/
  tripAt    : Nat := 0
  /-- R224: monotonic times of the trips of the sliding second, newest first. -/
  window    : List Nat := []
  /-- Trips since reset. -/
  count     : Nat := 0
  /-- R224: the class has been raised in this trip. -/
  raised    : Bool := false
  /-- R225: trips of the last 20 ms that have ended: entry and exit, newest first. -/
  past      : List (Nat × Nat) := []
  /-- R221: monotonic time at which it last left TRIP. -/
  leftAt    : Option Nat := none
  /-- R242: drain value attached to the last trip record. -/
  value     : Option Int := none
  deriving DecidableEq, Repr

/-- A bias calibration in progress (R227). -/
structure BiasRun where
  ticket : Ticket
  /-- R227: monotonic time at which the gate was first held on. -/
  start  : Nat
  deriving DecidableEq, Repr

/-- One cassette (R211–R232). Configuration that PA_CONFIG has not given reads its smallest valid value (log entry 16). -/
structure Cassette where
  /-- R211: state. -/
  pa         : PaState := .absent
  /-- R215: mode, 0 OFF. -/
  mode       : Nat := 0
  pattern    : Nat := 0
  /-- SHUNT, 0.01 mΩ. -/
  shunt      : Nat := 50
  /-- VG_MAX_CODE; none for the record's. -/
  vgMax      : Option Nat := none
  /-- DSW_RAMP, µs. -/
  dswRamp    : Nat := 20
  /-- IDQ_TARGET, mA; 0 for the record's. -/
  idq        : Nat := 0
  /-- T_OFF_MIN, ns; default 2,000. -/
  tOffMin    : Nat := 2000
  /-- TRIP_LIMIT; default 4. -/
  tripLimit  : Nat := 4
  /-- TRIP_HOLD, µs; default 100. -/
  tripHold   : Nat := 100
  /-- R216: LEAD and LAG per band, Tc. -/
  lead       : List Nat := [0, 0, 0, 0, 0, 0]
  lag        : List Nat := [0, 0, 0, 0, 0, 0]
  /-- PA_TIMING: values for the next ON edge. -/
  timingNext : Option (List Nat × List Nat) := none
  /-- R226: VG_ON code per band. -/
  code       : List Nat := [0, 0, 0, 0, 0, 0]
  /-- R226: BIAS_UNSET. -/
  biasUnset  : Bool := true
  /-- R217: band in force. -/
  band       : Nat := 2
  /-- R215: VG_ON code in force. -/
  vgCode     : Nat := 0
  /-- R217: the code from which VG moves to it in CONTINUOUS mode, and the monotonic time at which it began. -/
  vgFrom     : Nat := 0
  vgAt       : Nat := 0
  /-- R215: the schedule has the gate on. -/
  sched      : Bool := false
  /-- R215: schedule edge last passed. -/
  edgeAt     : Option AirInstant := none
  /-- PULSES. -/
  pulses     : Nat := 0
  /-- R211: monotonic time of the end of DRAIN_UP. -/
  upEnd      : Nat := 0
  /-- R211: monotonic time at which DRAINING began. -/
  drainAt    : Nat := 0
  /-- R220: DRAIN_LATCHED. -/
  latched    : Bool := false
  /-- R209: held shut by a link loss until it is re-enabled through PADDOCK. -/
  linkHold   : Bool := false
  /-- R228: it becomes ABSENT after PINCHED. -/
  lost       : Bool := false
  /-- PA_ENABLE action 1 in progress, with its monotonic start. -/
  enabling   : Option (List Ticket × Nat) := none
  /-- PA_ENABLE action 0 in progress. -/
  closing    : Option Ticket := none
  /-- R229: the identity check before a re-enable is outstanding. -/
  checkDue   : Bool := false
  /-- It has been enabled since its identification. -/
  enabledOnce : Bool := false
  /-- R229: CERT_OK. -/
  certOk     : Bool := false
  /-- R229: UNCERTIFIED_ALLOWED. -/
  uncertified : Bool := false
  /-- R228: record in use. -/
  record     : CasRecord := {}
  /-- R231: life record in use. -/
  life       : LifeRecord := {}
  /-- R231: the copy written last is B. -/
  lifeB      : Bool := false
  /-- R231: the two copies in the identity memory; none is blank. -/
  copyA      : Option LifeRecord := none
  copyB      : Option LifeRecord := none
  /-- R231: LIFE_UNKNOWN. -/
  lifeUnknown : Bool := false
  /-- R232: LIFE_WARN and LIFE_EXPIRED. -/
  lifeWarn   : Bool := false
  lifeExpired : Bool := false
  /-- R232: DERATED. -/
  derated    : Bool := false
  /-- R230: sum of AF (10^−18) and rounds of the minute in progress. -/
  afSum      : Nat := 0
  afRounds   : Nat := 0
  /-- R230: T_ntc and T_ch, 0.01 °C. -/
  tNtc       : Int := 0
  tCh        : Int := 0
  /-- R227: calibration in progress. -/
  biasRun    : Option BiasRun := none
  /-- LAST_TRIP. -/
  lastTrip   : Nat := 0
  deriving DecidableEq, Repr

/-- Power-stage state. -/
structure PsState where
  /-- R211: the eight cassettes. -/
  cassettes  : Bank Cassette := Bank.fill {}
  /-- R218: the 40 comparators. -/
  cmps       : Bank Cmp := Bank.fill {}
  /-- R209: link valid. -/
  link       : Bool := true
  /-- PS_LINK_LOSS. -/
  linkLoss   : Nat := 0
  /-- CAS_POLICY: LIFE_RATING, stress-hours; default 87,600. -/
  rating     : Nat := 87600
  /-- CAS_POLICY: LIFE_WARN, %; default 90. -/
  warnPct    : Nat := 90
  /-- CAS_POLICY: derating; default on. -/
  derate     : Bool := true
  /-- CAS_POLICY: uncertified cassettes allowed. -/
  allowUncert : Bool := false
  /-- R218: window of S0 and S1, mV; default 40.0 to 57.0 V. -/
  vhvLo      : Nat := 40000
  vhvHi      : Nat := 57000
  /-- R455: cassettes to enable again when STANDBY is left. -/
  reEnable   : List Nat := []
  /-- PS_PWRFAIL: life copies written and failed at the last PWR_FAIL_N. -/
  failWrites : Nat := 0
  failFails  : Nat := 0
  deriving DecidableEq, Repr

/-! ## Flock fabric: lanes, ports and membership (chapter *Flock links and membership*) -/

/-- Lane states (table *Lane states*). -/
inductive LaneState where
  | off | signalWait | training | aligning | up | down
  deriving DecidableEq, Repr

/-- One SerDes lane (R259–R270). -/
structure Lane where
  /-- R266: state, 3 bits; reset OFF. -/
  state     : LaneState := .off
  /-- R266: monotonic time at which signal was detected. -/
  since     : Nat := 0
  /-- R266: precoding in use. -/
  precoding : Bool := false
  /-- R266, R267: band whose equaliser preset was last loaded. -/
  band      : Nat := 2
  /-- TRAIN_TIME, µs. -/
  trainTime : Nat := 0
  /-- CW_CORRECTED, 64 bits. -/
  corrected : Nat := 0
  /-- CW_UNCORR, 64 bits. -/
  uncorr    : Nat := 0
  /-- SER, symbol errors per 10^9 of the last frame. -/
  ser       : Nat := 0
  /-- R268: consecutive frames with a symbol error ratio above 10^−4. -/
  serRun    : Nat := 0
  /-- R268: consecutive frames with more than UNCORR_LIMIT uncorrectable codewords. -/
  badRun    : Nat := 0
  /-- TRAININGS, 32 bits. -/
  trainings : Nat := 0
  /-- LAST_DOWN: monotonic time. -/
  lastDown  : Nat := 0
  /-- R268: retrain wait, ms; 100 after a reset. -/
  wait      : Nat := 100
  /-- R268: monotonic time at which a DOWN lane retrains. -/
  retrainAt : Option Nat := none
  /-- R270: the lane has been UP since reset, so it qualifies when it returns. -/
  wasUp     : Bool := false
  /-- R270: QUAL_LEFT: frames left in qualification. -/
  qualLeft  : Nat := 0
  /-- R270: qualified and offered to Drover. -/
  offered   : Bool := false
  /-- FL_LANE_CONTROL: bit errors and bits of the running PRBS31 test. -/
  prbs      : Option (Nat × Nat) := none
  deriving DecidableEq, Repr

/-- Port functions (R261). -/
inductive PortFunction where
  | off | up | down | ring | mirror
  deriving DecidableEq, Repr

/-- Configuration of a port (FL_PORT_CONFIG). -/
structure PortConfig where
  function : PortFunction := .off
  /-- R260: bond, 1, 2 or 4; default 2. -/
  bond     : Nat := 2
  /-- R271: LINK_ASYM, signed ps (default: log entry 7). -/
  asym     : Int := 0
  /-- R272: ASYM_UNC, ps (default: log entry 7). -/
  asymUnc  : Nat := 0
  deriving DecidableEq, Repr

/-- One port (R260–R275). -/
structure FlPort where
  /-- R261: configuration in force. -/
  config    : PortConfig := {}
  /-- R269: lanes in use, rising. -/
  lanes     : List Nat := []
  /-- R310: lane set named for a frame: frame and lanes. -/
  laneNext  : Option (Nat × List Nat) := none
  /-- R273: the peer's last HELLO. -/
  peer      : Option Hello := none
  /-- R273: HELLO_MISMATCH. -/
  mismatch  : Bool := false
  /-- HELLO_MISMATCHES, 32 bits. -/
  mismatches : Nat := 0
  /-- R279: nonces of this side's latest and previous HELLO. -/
  nonce     : BitVec 128 := 0
  noncePrev : BitVec 128 := 0
  /-- R271: LINK_DELAY, 1/16 Tc. -/
  delay     : Int := 0
  /-- R271: LINK_OFFSET, 1/16 Tc. -/
  offset    : Int := 0
  /-- R271: t1 of the exchange in progress, 1/16 Tc. -/
  t1        : Option Nat := none
  /-- R32: consecutive valid exchanges. -/
  ttRun     : Nat := 0
  /-- R36: the port has failed as a source of air time and has not had four valid exchanges since. -/
  ttFailed  : Bool := false
  /-- Monotonic time of the last valid exchange. -/
  ttLast    : Nat := 0
  /-- TT_VALID, 32 bits. -/
  ttValid   : Nat := 0
  /-- FLITS_LOST, 32 bits. -/
  flitsLost : Nat := 0
  /-- R264: frames of unknown type discarded. -/
  unknown   : Nat := 0
  /-- R265: control frames queued, oldest first, at most 256. -/
  queue     : List CtrlFrame := []
  /-- CTRL_DROPS, 32 bits. -/
  ctrlDrops : Nat := 0
  /-- R260: the lane that carried the last data flit. -/
  lastLane : Option Nat := none
  /-- R281: monotonic time at which the port went down with a child on it. -/
  childDown : Option Nat := none
  deriving DecidableEq, Repr

/-- Membership states (table *Membership states*). -/
inductive MemberState where
  | detached | timeQual | joinWait | backoff | joined | rehoming | orphan | leaving | refused
  deriving DecidableEq, Repr

/-- Flock configuration in boot flash (FL_FLOCK_CONFIG). A part without one holds no FLOCK_ID and does not join
(log entry 7). -/
structure FlockConfig where
  /-- R273: FLOCK_ID; none when unset. -/
  flockId       : Option Nat := none
  /-- Preferred member ID. -/
  prefId        : Option Nat := none
  /-- Joining allowed; FL_STATUS.JOIN_ENABLED resets to 0. -/
  joinEnabled   : Bool := false
  /-- R278: ADMIT_LIMIT; default 64. -/
  admitLimit    : Nat := 64
  /-- R281: MEMBER_TIMEOUT, frames; default 4. -/
  memberTimeout : Nat := 4
  /-- R281: REHOME_WAIT, frames; default 4. -/
  rehomeWait    : Nat := 4
  /-- R270: LANE_QUAL, frames; default 100. -/
  laneQual      : Nat := 100
  /-- R268: UNCORR_LIMIT; default 16. -/
  uncorrLimit   : Nat := 16
  /-- R281: LOST_HOLD, s; default 600. -/
  lostHold      : Nat := 600
  /-- R282: LEAVE_HOLD, s; default 60. -/
  leaveHold     : Nat := 60
  deriving DecidableEq, Repr

/-- States of a member ID on the hub (FL_MEMBER_QUERY); a free ID has no record. -/
inductive IdState where
  | joined | heldLost | heldLeft | granted
  deriving DecidableEq, Repr

/-- The hub's record of a member ID. -/
structure MemberRec where
  serial   : BitVec 64
  state    : IdState
  hops     : Nat
  parent   : Nat
  role     : Nat := 0
  power    : Nat := 0
  /-- Monotonic time of the last STATUS. -/
  lastSeen : Nat := 0
  /-- R278: admission frame. -/
  admitAt  : Nat := 0
  /-- R282: leave frame. -/
  leaveAt  : Option Nat := none
  /-- R363: a lost member is heard over the Bell link. -/
  byBell   : Bool := false
  /-- R281, R282: monotonic time at which the hold ends. -/
  holdEnd  : Nat := 0
  deriving DecidableEq, Repr

/-- Why a member leaves (R282). -/
inductive LeaveCause where
  | command | expelled | dormant | displaced
  deriving DecidableEq, Repr

/-- Flock-fabric state. -/
structure FlState where
  /-- R259: lanes L0–L23. -/
  lanes       : Bank Lane := Bank.fill {}
  /-- R260: ports P0–P11. -/
  ports       : Bank FlPort := Bank.fill {}
  /-- R261: port configuration in boot flash; none where FL_PORT_CONFIG has stored none. -/
  storedPorts : Bank (Option PortConfig) := Bank.fill none
  /-- R273: flock configuration (boot flash). -/
  config      : FlockConfig := {}
  /-- MEMBER_STATE; reset DETACHED. -/
  state       : MemberState := .detached
  /-- R273: member ID while it is valid. -/
  memberId    : Option Nat := none
  /-- R277: held member ID (always-on domain). -/
  heldId      : Option Nat := none
  /-- R277: the next request is a REJOIN wherever an ID is held; FL_JOIN kind 0 clears it. -/
  rejoin      : Bool := true
  /-- R275: primary upstream port. -/
  primary     : Option Nat := none
  /-- R275: alternate upstream port. -/
  alternate   : Option Nat := none
  /-- R277: frame in which the last request was sent. -/
  sentAt      : Nat := 0
  /-- R278: admission frame and ID granted. -/
  grant       : Option (Nat × Nat) := none
  /-- R280: frame at which BACKOFF ends. -/
  backoffEnd  : Nat := 0
  /-- R280: consecutive hard refusals. -/
  hardRun     : Nat := 0
  /-- LAST_NAK, 8 bits. -/
  lastNak     : Nat := 0
  /-- FL_JOIN commands whose completion is due. -/
  joinTickets : List Ticket := []
  /-- R283: frame in which REHOMING began. -/
  rehomeFrom  : Nat := 0
  /-- R311: the frame at which the member last rejoined. -/
  rejoinedAt  : Option Nat := none
  /-- R282: leave frame and cause. -/
  leave       : Option (Nat × LeaveCause) := none
  /-- JOIN_ATTEMPTS, NAKS_RECEIVED, REHOMES, ORPHANS, 32 bits each. -/
  attempts    : Nat := 0
  naks        : Nat := 0
  rehomes     : Nat := 0
  orphans     : Nat := 0
  /-- R278: requests admitted or forwarded, and NAKed, in this frame and in the last. -/
  admitNow    : Nat := 0
  nakNow      : Nat := 0
  admitLast   : Nat := 0
  nakLast     : Nat := 0
  /-- ADMIT_TOTAL, NAK_TOTAL, 32 bits each. -/
  admitTotal  : Nat := 0
  nakTotal    : Nat := 0
  /-- NAK_REASON, by reason code. -/
  nakReasons  : Bank Nat := Bank.fill 0
  /-- R277: ports on which requests arrived: serial, port, frame. -/
  routes      : List (BitVec 64 × Nat × Nat) := []
  /-- R264: port behind which each member below lies, with its parent and the monotonic time of its last STATUS. -/
  below       : Bank (Option (Nat × Nat × Nat)) := Bank.fill none
  /-- R273–R282: the hub's member table. -/
  members     : Bank (Option MemberRec) := Bank.fill none
  /-- R280: serials blocked by FL_EXPEL and the end of the block; none lasts until the next hub reset. -/
  blocked     : List (BitVec 64 × Option Nat) := []
  /-- HUB_LOST, 32 bits. -/
  lostCount   : Nat := 0
  deriving DecidableEq, Repr

/-! ## Drover: flows, descriptors and placement (chapter *Flows, queues and Drover placement*) -/

/-- The placement of one flow at a member: the part of a descriptor that a plan sets (table *Queue descriptor*). -/
structure Placement where
  /-- 0 inactive, 1 downlink, 2 uplink. -/
  kind     : Nat := 0
  /-- Source or contributor here. -/
  source   : Bool := false
  consumer : Bool := false
  replicates : Bool := false
  sums     : Bool := false
  rate     : Nat := 0
  inn      : Nat := 0
  out      : Nat := 0
  localBp  : Nat := 0xFF
  prio     : Nat := 0
  deadline : Nat := 0
  /-- Service bits of word 0: 0 IN_SERVICE, 1 PENNED, 2 PADDOCK. -/
  service  : Nat := 0
  deriving DecidableEq, Repr

/-- A queue descriptor (R289–R291). -/
structure Descriptor where
  /-- Placement in force. -/
  place    : Placement := {}
  /-- R307: the placement before the last plan, until its drain ends. -/
  old      : Option Placement := none
  /-- Sequence number of the plan in force. -/
  plan     : Nat := 0
  /-- R290: held in the on-die cache. -/
  cached   : Bool := false
  blocks   : Nat := 0
  late     : Nat := 0
  gapped   : Nat := 0
  dropped  : Nat := 0
  lastTs   : Nat := 0
  /-- R378: monotonic time at which a block of the flow was last handled here. -/
  handledAt : Nat := 0
  /-- R291: alignment buffer: arriving port (15 local) and block, oldest first. -/
  buffer   : List (Nat × Block) := []
  /-- R295, R296: timestamp up to which blocks have been summed or consumed. -/
  done     : Option AirInstant := none
  /-- R308: late and dropped in this frame. -/
  lateNow  : Nat := 0
  dropNow  : Nat := 0
  /-- R312: the port that dropped last. -/
  dropPort : Option Nat := none
  /-- R298: blocks formed here of a group that is not complete, oldest first. -/
  group    : List Block := []
  /-- R312: consecutive frames in which a port dropped flits of the flow. -/
  dropRun  : Nat := 0
  /-- R311: consecutive clean frames in PADDOCK. -/
  cleanRun : Nat := 0
  /-- Page 7: late blocks in the last frame. -/
  lateLast : Nat := 0
  deriving DecidableEq, Repr

/-- A plan that a member holds (R306). -/
structure HeldPlan where
  seq     : Nat
  frame   : Nat
  dT      : Nat
  entries : List PlanEntry
  /-- The final frame of this member's plan has arrived. -/
  final   : Bool
  /-- PLAN_ACK status given. -/
  status  : Nat := 0
  deriving DecidableEq, Repr

/-- Why an endpoint is not served (R304): DELAY 1, LOAD 2, DESCRIPTORS 3, NO_PATH 4, SHED 5. -/
inductive Unreachable where
  | delay | load | descriptors | noPath | shed
  deriving DecidableEq, Repr

/-- Endpoint states (R304). -/
inductive EndState where
  | served | unbound | unreachable (why : Unreachable)
  deriving DecidableEq, Repr

/-- One endpoint of an intent. -/
structure Endpoint where
  flow   : Nat
  member : Nat
  bp     : Nat
  state  : EndState
  /-- R293: required delay R, Tc, when SERVED. -/
  r      : Nat := 0
  deriving DecidableEq, Repr

/-- An intent (R301). -/
structure Intent where
  uplink    : Bool
  flow      : Nat
  homeBp    : Nat
  protected_ : Bool
  priority  : Nat
  rate      : Nat
  /-- First member, last member, band path. -/
  ranges    : List (Nat × Nat × Nat)
  deriving DecidableEq, Repr

/-- A plan that the active hub has issued and that has not applied (R305, R306). -/
structure IssuedPlan where
  seq     : Nat
  frame   : Nat
  dT      : Nat
  /-- The whole placement from F on: member, flow, entry. -/
  whole   : List (Nat × PlanEntry)
  /-- What changes at each member. -/
  changes : List (Nat × List PlanEntry)
  /-- Members whose PLAN_ACK is missing. -/
  waiting : List Nat
  deriving DecidableEq, Repr

/-- Drover state. -/
structure DvState where
  /-- R289: one descriptor for every flow ID, 262,144 of 64 bytes. -/
  desc      : Bank Descriptor := Bank.fill {}
  /-- R306: plans held, by F. -/
  held      : List HeldPlan := []
  /-- DV_PLAN, DV_PLAN_FRAME. -/
  lastSeq   : Nat := 0
  lastFrame : Nat := 0
  /-- DV_CANCELS, 32 bits. -/
  cancels   : Nat := 0
  /-- DV_DESC[28:16]: peak of active descriptors. -/
  descPeak  : Nat := 0
  /-- DV_LATE, DV_DROPPED, DV_OVERFLOWS, 32 bits each. -/
  late      : Nat := 0
  dropped   : Nat := 0
  overflows : Nat := 0
  /-- R307: drains in progress: plan and the instant at which it ends. -/
  drains    : List (Nat × AirInstant) := []
  /-- R292: D_T in force, Tc; 0 before the first plan (log entry 18). -/
  targetTc  : Nat := 0
  /-- R297: D_T named for a frame. -/
  targetNext : Option (Nat × Nat) := none
  /-- R294: D_T is AUTO; default. -/
  auto      : Bool := true
  /-- R294: DELAY_MARGIN, Tc; default 39,322. -/
  margin    : Nat := 39322
  /-- R305: PLAN_LEAD; default 4. -/
  planLead  : Nat := 4
  /-- R302: SPLIT; default off. -/
  split     : Bool := false
  /-- R299: FILL_LIMIT, %; default 90. -/
  fillLimit : Nat := 90
  /-- R311: QUAL_FRAMES; default 16. -/
  qualFrames : Nat := 16
  /-- R301: intents. -/
  intents   : Bank (Option Intent) := Bank.fill none
  /-- R288: bindings that members have reported: member and bindings. -/
  bindings  : Bank (List Binding) := Bank.fill []
  /-- R288: bindings of this part as last reported. -/
  ownBinds  : List Binding := []
  /-- R302: upstream links of the members, as last reported. -/
  links     : Bank (List Link) := Bank.fill []
  /-- R303: the placement in force or pending last: member and entry. -/
  whole     : List (Nat × PlanEntry) := []
  /-- R306: plans pending, by F, at most 8. -/
  issued    : List IssuedPlan := []
  /-- Sequence number of the last plan issued, 32 bits. -/
  seq       : Nat := 0
  /-- R305: a trigger waits for the next frame boundary. -/
  trigger   : Bool := false
  /-- R305, R311: admission frame that the next plan uses. -/
  joinFrame : Option Nat := none
  /-- R303: DV_REPLACE asked for a full rebalance. -/
  full      : Bool := false
  /-- DV_POLICY: frame and D_T of a change that the next plan carries. -/
  dTFrame   : Option (Nat × Nat) := none
  /-- R304: endpoint states. -/
  ends      : List Endpoint := []
  /-- R312: ports whose flits a flow lost, to be shed at the next plan: member and port. -/
  overloaded : List (Nat × Nat) := []
  /-- R312: drops last reported: member, flow, frame. -/
  dropSeen  : List (Nat × Nat × Nat) := []
  /-- R311: on the active hub, the frame of the last FLOW_REPORT of a member, or of its entry to PADDOCK if later. -/
  reportAt  : List (Nat × Nat) := []
  /-- DV_WORST_R, Tc. -/
  worstR    : Nat := 0
  /-- PORT_CHARGE[31:16]: charge of each port in each of the last 100 frames, newest first. -/
  chargeLog : Bank (List Nat) := Bank.fill []
  /-- R311: flow units penned at every member (DV_FLOW_CONTROL action 2). -/
  pennedAll : List Nat := []
  deriving DecidableEq, Repr

/-! ## Memory, capture and archive (chapter *Memory, capture and archive*) -/

/-- Capture states (R323). -/
inductive CapState where
  | free | armed | triggered | complete | draining | archived | restored
  deriving DecidableEq, Repr

/-- One capture slot (R320–R326). -/
structure CapSlot where
  /-- R323: state, 3 bits; reset FREE. -/
  state    : CapState := .free
  info     : CapInfo := {}
  /-- R324: enabled trigger sources. -/
  triggers : Nat := 0
  drain    : Bool := false
  keepHbm  : Bool := false
  /-- Band paths of the capture are egress. -/
  egress   : Bool := false
  at_      : AirInstant := ⟨0, 0⟩
  classes  : List Nat := []
  severity : Nat := 0
  levelBp  : Nat := 0
  levelMode : Nat := 0
  /-- R324: the LEVEL condition held in the last window. -/
  levelWas : Bool := true
  site     : Nat := 0
  threshold : Int := 0
  oscMask  : Nat := 0
  /-- R322: extents held. -/
  extents  : List Nat := []
  /-- Monotonic time of arming. -/
  armedAt  : Nat := 0
  /-- R325: number of the management cycle of the first trigger. -/
  cycle    : Nat := 0
  /-- Monotonic time of the stop instant. -/
  stopAt   : Nat := 0
  /-- CAP_ARM waits for stack 1 (R314). -/
  arming   : Option Ticket := none
  deriving DecidableEq, Repr

/-- One 64 MiB extent (R316). -/
structure HbmExtent where
  /-- Monotonic times of the corrected errors of the last 24 hours, newest first. -/
  errors : List Nat := []
  deriving DecidableEq, Repr

/-- An archive operation in progress: action, serial, ticket (AR_CONTROL). -/
structure ArchiveOp where
  action : Nat
  serial : Nat
  ticket : Ticket
  deriving DecidableEq, Repr

/-- The refresh of one stack (R318). -/
structure HbmRefresh where
  /-- Interval in force, ns. -/
  interval : Nat := 3900
  /-- A new interval and the monotonic time of the next refresh command, from which it applies. -/
  next     : Option (Nat × Nat) := none
  deriving DecidableEq, Repr

/-- Memory, capture and archive state. -/
structure MemState where
  /-- R318: refresh of stacks 0 and 1. -/
  refresh   : Bank HbmRefresh := Bank.fill {}
  /-- R314: stack 1 is powered. -/
  stack1    : Bool := false
  /-- R314: stack 1 powers up: latest monotonic time at which it is ready. -/
  powering  : Option Nat := none
  /-- R314: monotonic time since which stack 1 has held no extent in use. -/
  emptyFrom : Nat := 0
  /-- R316: extents 0–767. -/
  extents   : Bank HbmExtent := Bank.fill {}
  /-- R315: corrected and uncorrectable errors of stacks 0 and 1 since reset. -/
  corrected : Bank Nat := Bank.fill 0
  uncorrectable : Bank Nat := Bank.fill 0
  /-- R316: monotonic times of the corrected errors of the last hour, by stack, newest first. -/
  hour      : Bank (List Nat) := Bank.fill []
  /-- R316: retired extents in boot flash. -/
  retiredStored : List Nat := []
  /-- R316: retired extents in force. -/
  retired   : List Nat := []
  /-- R316: fixed-region extents and the capture extents onto which they are remapped. -/
  remap     : List (Nat × Nat) := []
  /-- R316: fixed-region extents that wait to be remapped. -/
  remapDue  : List Nat := []
  /-- R316: RETIRE_PENDING. -/
  pendingRetire : Bool := false
  /-- R320: capture slots CS0–CS15. -/
  slots     : Bank CapSlot := Bank.fill {}
  /-- AR_CONFIG: archive in use. -/
  enable    : Bool := false
  /-- R332: OVERWRITE; default STOP. -/
  overwrite : Bool := false
  /-- R331: DRAIN_LIMIT, 0.1 GB/s; default 70. -/
  limit     : Nat := 70
  /-- R333: MOUNTED; else OFFLINE. -/
  mounted   : Bool := false
  /-- R332: ARCHIVE_FULL. -/
  full      : Bool := false
  /-- R331: slot being drained, its start, and the segments it takes. -/
  draining  : Option (Nat × Nat × List Nat) := none
  /-- R334: restores in progress: serial, slot, ticket; oldest first. -/
  restores  : List (Nat × Nat × Ticket) := []
  /-- AR_CONTROL operations in progress, oldest first. -/
  ops       : List ArchiveOp := []
  /-- R330: the index. -/
  index     : List ArchiveEntry := []
  /-- What the archived captures are, by serial. -/
  archived  : List (Nat × CapInfo) := []
  /-- AR_SEGMENTS: segments of the namespace. -/
  segments  : Nat := 0
  /-- R330: last write sequence. -/
  seq       : Nat := 0
  /-- AR_SERIAL. -/
  serial    : Nat := 0
  linkGen   : Nat := 0
  linkWidth : Nat := 0
  deriving DecidableEq, Repr

/-! ## Bell link (chapter *Bell link service radio*) -/

/-- Receiver states (R345). -/
inductive BellRx where
  | off | search | header | payload | transmit | calibrating
  deriving DecidableEq, Repr

/-- BELL_CONFIG in boot flash (R336, R343). -/
structure BellConfig where
  freq       : Nat := 0
  power      : Int := 0
  /-- Hub profile; else compact. -/
  hub        : Bool := false
  /-- none is 0xFF: keeper traffic off, chain traffic off. -/
  keeperRate : Option Nat := none
  chainRate  : Option Nat := none
  syncTol    : Nat := 2
  capture    : Bool := false
  captureDb  : Int := 600
  syncMetric : Nat := 45875
  keeperTurn : Nat := 2000
  keeperSync : Nat := 0
  ccaLevel   : Int := -9500
  whiten     : Bool := true
  ldpcIter   : Nat := 20
  deriving DecidableEq, Repr

/-- BELL_CHAIN_CONFIG; the code rate's default is the model's (log entry 7). -/
structure ChainConfig where
  relay     : Bool := true
  /-- Code rate 2/3; else 1/2. -/
  twoThirds : Bool := false
  helloInt  : Nat := 1000
  statusInt : Nat := 1000
  retries   : Nat := 3
  deriving DecidableEq, Repr

/-- A valid header (R339). -/
structure BellHeader where
  kind   : Nat
  /-- Payload code rate 2/3; else 1/2. -/
  twoThirds : Bool
  length : Nat
  seq    : Nat
  deriving DecidableEq, Repr

/-- The reception in progress (R343–R350). -/
structure Reception where
  sync   : SyncInput
  /-- R344: (Σ s c)² and 32 Σ s²: the square of m as a fraction. -/
  num    : Nat := 0
  den    : Nat := 1
  /-- Monotonic time at which its sync word ended. -/
  at_    : Nat
  header : Option BellHeader := none
  deriving DecidableEq, Repr

/-- A payload accepted and not yet handled: header, level, rate, monotonic time of its end, content. -/
structure BellArrival where
  header : BellHeader
  level  : Int
  rate   : Nat
  end_   : Nat
  body   : BellBody
  deriving DecidableEq, Repr

/-- What a packet in the transmit queue carries. -/
inductive BellContent where
  /-- Payload bytes: the first twelve while the status is awaited (R357), all of them with the tag afterwards. -/
  | response (bytes : List Byte)
  | chain (p : ChainPacket)
  deriving DecidableEq, Repr

/-- A keeper COMMAND whose response is awaited (R357): the keeper, the end of its request, the command's opcode and tag, and
its response once it has one. -/
structure KeeperWait where
  keeper : Nat
  ended  : Nat
  opcode : Nat
  tag    : Nat
  reply  : Option Response := none
  deriving DecidableEq, Repr

/-- One packet of the transmit queue (R351, R352). -/
structure BellTx where
  header    : BellHeader
  rate      : Nat
  content   : BellContent
  /-- Payload bytes of a chain packet (R360). -/
  bytes     : List Byte := []
  /-- Scheduled start of a keeper response. -/
  start     : Nat := 0
  /-- R357: a COMMAND response that waits for its command. -/
  waiting   : Option KeeperWait := none
  /-- R352: failed clear-channel attempts and the end of the wait. -/
  attempts  : Nat := 0
  ccaUntil  : Option Nat := none
  /-- R361: resends of a unicast chain packet so far. -/
  resends   : Nat := 0
  deriving DecidableEq, Repr

/-- One keeper key (R358). -/
structure KeeperKey where
  id      : Nat
  role    : Role
  key     : List Byte
  /-- Last accepted counter. -/
  counter : Nat := 0
  /-- Counter in boot flash, and requests accepted since it was written. -/
  stored  : Nat := 0
  since   : Nat := 0
  deriving DecidableEq, Repr

/-- A neighbour heard by HELLO (R360). -/
structure Neighbour where
  member : Nat
  hops   : Option Nat
  level  : Int
  heard  : Nat
  deriving DecidableEq, Repr

/-- A packet that has been sent: the packet and its symbols from the first of the preamble, in units of the rate's deviation or
inner deviation (R337, R338). -/
structure BellSent where
  tx      : BellTx
  symbols : List Int
  deriving DecidableEq, Repr

/-- Bell-link state. -/
structure BellState where
  /-- BELL_STATUS.CONFIGURED. -/
  configured : Bool := false
  config     : BellConfig := {}
  chain      : ChainConfig := {}
  /-- R345: receiver state, 3 bits; reset OFF. -/
  rx         : BellRx := .off
  enabled    : Bool := false
  /-- BELL_ENABLE whose completion is due, and a disable that waits for a transmission. -/
  enabling   : List Ticket := []
  disabling  : Option Ticket := none
  /-- R345: AGC_FROZEN. -/
  agcFrozen  : Bool := false
  /-- R345, R346: level to which the AGC was set when it froze, 0.01 dBm. -/
  agcLevel   : Int := 0
  /-- R346: SECOND_CORR. -/
  second     : Bool := false
  reception  : Option Reception := none
  /-- R350: accepted payloads not yet handled, oldest first. -/
  arrivals   : List BellArrival := []
  /-- R351: transmit queue, at most 16, in order of arrival. -/
  queue      : List BellTx := []
  /-- R351: packet being sent, its start and end. -/
  sending    : Option (BellTx × Nat × Nat) := none
  /-- R361: unicast packet whose ACK is awaited, and the time by which it must come. -/
  awaiting   : Option (BellTx × Nat) := none
  /-- R339: last packet sequence number. -/
  seq        : Nat := 0
  /-- R364: TX_SUSPENDED, and the end of the suspension once SYN.BELL has locked. -/
  suspended  : Bool := false
  resumeAt   : Option Nat := none
  /-- R79: filtered temperature at the last calibration, 0.01 °C. -/
  calTemp    : Int := 2500
  /-- R358: keeper keys (key slots and boot flash), at most 64. -/
  keys       : List KeeperKey := []
  /-- R359: failures of the last 60 s: keeper and monotonic time. -/
  fails      : List (Nat × Nat) := []
  /-- R359: keepers locked out and the end of the lockout. -/
  locked     : List (Nat × Nat) := []
  /-- R360: neighbours, at most 16. -/
  neighbours : List Neighbour := []
  /-- R361: the relay chosen. -/
  relay      : Option Nat := none
  /-- R362: members relayed for and when they were last heard. -/
  relayed    : List (Nat × Nat) := []
  helloAt    : Nat := 0
  statusAt   : Nat := 0
  /-- R361: sequence number of the newest record reported. -/
  reported   : Nat := 0
  /-- RX_SYNCS, RX_OK, HDR_FAIL, SUPERSEDED, COLLIDED, CAPTURED, PAYLOAD_FAIL, 32 bits each. -/
  syncs      : Nat := 0
  ok         : Nat := 0
  hdrFail    : Nat := 0
  superseded : Nat := 0
  collided   : Nat := 0
  captured   : Nat := 0
  payFail    : Nat := 0
  /-- TX_PACKETS, CCA_DEFER, TX_DROPPED, AUTH_FAIL, RELAYED, 32 bits each. -/
  packets    : Nat := 0
  ccaDefer   : Nat := 0
  dropped    : Nat := 0
  authFail   : Nat := 0
  relayCount : Nat := 0
  /-- LAST_LEVEL, 0.01 dBm; LAST_METRIC with its rate code. -/
  lastLevel  : Int := 0
  lastMetric : Int := 0
  lastRate   : Nat := 0
  /-- Packets that have been sent, newest first (log entry 4). -/
  sent       : List BellSent := []
  deriving DecidableEq, Repr

/-! ## Hub pair (chapter *Redundant hub pair*) -/

/-- Pair states (table *Pair states*). -/
inductive PairPhase where
  | unpaired | waiting | activeAlone | activePaired | standbySyncing | standbyReady
  deriving DecidableEq, Repr

/-- Pair configuration (PAIR_CONFIG). -/
structure PairConfig where
  enable      : Bool := false
  /-- 0 active, 1 standby. -/
  preferStandby : Bool := false
  /-- Mirror ports, bit p names Pp; default P11 (R469). -/
  ports       : BitVec 12 := 0x800
  sharedDonor : Bool := false
  peerSerial  : Nat := 0
  /-- STANDBY_WAIT, s; default 10 (R474). -/
  wait        : Nat := 10
  deriving DecidableEq, Repr

/-- One mirror link (R469, R480). -/
structure MirrorLink where
  /-- R469: monotonic time of the last heartbeat. -/
  lastHb   : Option Nat := none
  /-- R475: consecutive misses. -/
  missed   : Nat := 0
  /-- R469: instant at which it was last judged. -/
  judged   : Option AirInstant := none
  /-- PAIR_STATUS: heartbeats received. -/
  up       : Bool := false
  /-- R480: monotonic time since which heartbeats have come without a miss. -/
  upSince  : Nat := 0
  deriving DecidableEq, Repr

/-- Hub-pair state. -/
structure PairState where
  /-- R468: configuration as stored in boot flash. -/
  stored     : PairConfig := {}
  /-- R468: configuration in force. -/
  config     : PairConfig := {}
  /-- R468: term, 32 bits (always-on domain and boot flash). -/
  term       : Nat := 0
  /-- R474: pair state, 3 bits; reset UNPAIRED. -/
  phase      : PairPhase := .unpaired
  /-- R474: monotonic time at which WAITING began. -/
  waitFrom   : Nat := 0
  /-- R469: first and second mirror link. -/
  links      : Bank MirrorLink := Bank.fill {}
  /-- HB_MISSED[31:16]: misses since reset. -/
  misses     : Nat := 0
  /-- R469: term, state and serial number in the last heartbeat heard. -/
  peerTerm   : Nat := 0
  peerPhase  : PairPhase := .unpaired
  peerSerial : Nat := 0
  /-- MIRROR_SEQ: last mirror sequence sent. -/
  seqSent    : Nat := 0
  /-- MIRROR_SEQ: last mirror sequence applied. -/
  seqApplied : Nat := 0
  /-- R473: last sequence the peer has acknowledged. -/
  seqAcked   : Nat := 0
  /-- R473: items to send or sent and not acknowledged, with their sequence numbers, oldest first. -/
  outgoing   : List (Nat × PairItem) := []
  /-- R473: a bulk transfer runs: its deadline and the sequence that ends it. -/
  bulk       : Option (Nat × Nat) := none
  /-- R473: mirrored configuration: opcode and payload of each command, oldest first. -/
  mirrored   : List (Nat × List Byte) := []
  /-- R473: mirrored loop-guard models: member, egress and ingress band path, A_m, G_m; and cancellers with mirrored taps. -/
  models     : List (Nat × Nat × Nat × Int × Int) := []
  taps       : List TapModel := []
  /-- R473: mirrored loop states: egress band path, set-point, G_set, integrator. -/
  loops      : List (Nat × Int × Int × Int) := []
  /-- R473: mirrored HALT state. -/
  halt       : Option (Nat × Nat) := none
  /-- R473: mirrored host pen reasons. -/
  hostPens   : List UnitId := []
  /-- R473: mirrored number of the last plan, and pending plans with their frames. -/
  planSeq    : Nat := 0
  plans      : List (Nat × Nat) := []
  /-- R473: items of the kinds sent at each change, as last sent. -/
  sent       : List PairItem := []
  /-- R476: transmit chains that the mirrored configuration enables. -/
  enableTx   : List Nat := []
  /-- R408: mirrored Logbook tail, newest first, at most 4,096 records. -/
  tail       : List Record := []
  /-- R479: the frozen tail. -/
  frozen     : Option (List Record) := none
  /-- PAIR_STATUS.SWITCH_PENDING: takeover frame of a planned switchover, on either hub, or of a forced one. -/
  switchAt   : Option Nat := none
  /-- Egress band paths that a planned switchover has begun to mute. -/
  muting     : List Nat := []
  /-- The pending switchover was forced on this standby. -/
  forced     : Bool := false
  /-- R475: the standby takes over at the next frame boundary. -/
  failover   : Bool := false
  /-- R479: the part demotes at the next frame boundary. -/
  demote     : Bool := false
  /-- R479: the pending demotion ends a split. -/
  split      : Bool := false
  /-- TAKEOVER_FRAME. -/
  lastFrame  : Nat := 0
  /-- PAIR_COUNTS. -/
  takeovers  : Nat := 0
  demotions  : Nat := 0
  splits     : Nat := 0
  bulks      : Nat := 0
  deriving DecidableEq, Repr

/-! ## The whole part -/

/-- Why the part's model stops with a fault. -/
inductive Fault where
  deriving DecidableEq, Repr

/-- Why the model refuses a command. -/
inductive Refusal where
  /-- Answered by the dispatch for a command that has no meaning yet. Safe: nothing is claimed of it. -/
  | notModelled (mnemonic : String)
  deriving DecidableEq, Repr

/-- The state of the part. -/
structure State where
  /-- Air time, monotonic time, wall time, TDD patterns, scheduled commands. -/
  air     : AirState := {}
  /-- Host paths, mailboxes, sessions, events, interrupts, site inputs. -/
  host    : HostState := {}
  /-- Fault collector. -/
  fault   : FaultState := {}
  /-- Logbook. -/
  log     : LogState := {}
  /-- Start-up, resets, power states, security. -/
  sys     : SysState := {}
  /-- RF transceiver complex. -/
  rf      : RfState := {}
  /-- Channel engine. -/
  ce      : CeState := {}
  /-- Loop guard. -/
  lg      : LgState := {}
  /-- Gain stacks and network protection. -/
  np      : NpState := {}
  /-- Housekeeping. -/
  hk      : HkState := {}
  /-- Control engine. -/
  cl      : ClState := {}
  /-- Power-stage interface. -/
  ps      : PsState := {}
  /-- Flock fabric. -/
  fl      : FlState := {}
  /-- Drover: flows, queues and placement. -/
  dv      : DvState := {}
  /-- Memory, captures and archive. -/
  mem     : MemState := {}
  /-- Bell link. -/
  bell    : BellState := {}
  /-- Hub pair. -/
  pair    : PairState := {}
  /-- Control frames and blocks that have left over the fabric, newest first (log entry 4). -/
  wire    : List WireItem := []
  /-- The commands that wait, first in, first out. -/
  pending : List Instr := []
  /-- The model's own counter of free values drawn (log entry 3). -/
  drawn   : Nat := 0
  deriving DecidableEq, Repr

/-- The part right after power-on reset (R448): every field at the value its declaration gives. -/
def State.reset : State := {}

end Sys2Proof.Machine
end

