-- ==== Sys2Proof/Machine/Operands.lean ====
section
/-! DEFINITION. Operand forms: the fields of a request payload, the bytes of a response payload, the codes of units,
subsystems, roles and states, and the conversions between the units of time that the chapters use. -/

namespace Sys2Proof.Machine

open Sys2Proof

/-! ## Payload fields (least significant byte first) -/

/-- Byte at offset `o`; a byte beyond the end reads 0. -/
def u8 (p : List Byte) (o : Nat) : Nat := (p.getD o 0).toNat

/-- Unsigned 16-bit field. -/
def u16 (p : List Byte) (o : Nat) : Nat := u8 p o + 0x100 * u8 p (o + 1)

/-- Unsigned 32-bit field. -/
def u32 (p : List Byte) (o : Nat) : Nat := u16 p o + 0x1_0000 * u16 p (o + 2)

/-- Unsigned 64-bit field. -/
def u64 (p : List Byte) (o : Nat) : Nat := u32 p o + 0x1_0000_0000 * u32 p (o + 4)

/-- The two's-complement value of an unsigned number of `bits` bits. -/
def signedOf (bits n : Nat) : Int :=
  if n % 2 ^ bits < 2 ^ (bits - 1) then ((n % 2 ^ bits : Nat) : Int) else ((n % 2 ^ bits : Nat) : Int) - 2 ^ bits

/-- The unsigned number of `bits` bits that holds a signed value. -/
def unsignedOf (bits : Nat) (i : Int) : Nat := (i % (2 ^ bits : Int)).toNat

/-- Signed 8-bit field. -/
def s8 (p : List Byte) (o : Nat) : Int := signedOf 8 (u8 p o)

/-- Signed 16-bit field. -/
def s16 (p : List Byte) (o : Nat) : Int := signedOf 16 (u16 p o)

/-- Signed 32-bit field. -/
def s32 (p : List Byte) (o : Nat) : Int := signedOf 32 (u32 p o)

/-- The `n` bytes from offset `o`. -/
def bytesAt (p : List Byte) (o n : Nat) : List Byte := (List.range n).map (fun i => p.getD (o + i) 0)

/-- The `n` bytes from offset `o` are all zero: a reserved field (R9). -/
def zeros (p : List Byte) (o n : Nat) : Bool := (bytesAt p o n).all (· == 0)

/-- The unsigned number that `n` bytes from offset `o` spell. -/
def uN (p : List Byte) (o n : Nat) : Nat := (bytesAt p o n).foldr (fun b acc => b.toNat + 0x100 * acc) 0

/-- `n` bytes that spell a number, least significant first. -/
def le (n v : Nat) : List Byte := (List.range n).map (fun i => BitVec.ofNat 8 (v / 0x100 ^ i))

/-- Four bytes that spell a signed number. -/
def leS32 (v : Int) : List Byte := le 4 (unsignedOf 32 v)

/-- A value lies in a closed range. -/
def within (lo hi x : Nat) : Bool := decide (lo ≤ x) && decide (x ≤ hi)

/-- A signed value lies in a closed range. -/
def withinI (lo hi x : Int) : Bool := decide (lo ≤ x) && decide (x ≤ hi)

/-- The numbers whose bits are set in a mask, in rising order. -/
def maskBits (m : Nat) : List Nat := (List.range 64).filter (fun i => m.testBit i)

/-- The band paths that a 128-bit mask at offset `o` selects. -/
def mask128 (p : List Byte) (o : Nat) : List Nat :=
  let m := uN p o 16
  (List.range 128).filter (fun i => m.testBit i)

/-- The mask whose set bits are the numbers of a list. -/
def maskOf (l : List Nat) : Nat := l.foldl (fun acc i => acc ||| (1 <<< i)) 0

/-- Bits [hi:lo] of a number. -/
def bits (hi lo x : Nat) : Nat := (x >>> lo) % 2 ^ (hi + 1 - lo)

/-- One if the condition holds, else zero. -/
def flag (b : Bool) : Nat := if b then 1 else 0

/-- A value placed at bit `n`, cut to `w` bits. -/
def place (w n x : Nat) : Nat := (x % 2 ^ w) <<< n

/-- A counter of `w` bits that stops at its greatest value. -/
def satInc (w x : Nat) : Nat := if x + 1 < 2 ^ w then x + 1 else 2 ^ w - 1

/-- A list without one value. -/
def without (l : List Nat) (x : Nat) : List Nat := l.filter (· != x)

/-! ## Units of time -/

/-- Tc in `n` microseconds, rounded down. -/
def tcOfUs (n : Nat) : Nat := n * 196608 / 100

/-- Tc in `n` milliseconds. -/
def tcOfMs (n : Nat) : Nat := n * tcPerMs

/-- Tc in `n` seconds. -/
def tcOfS (n : Nat) : Nat := n * tcPerSecond

/-- 2^−16 Tc in `n` nanoseconds, rounded towards zero. -/
def fineOfNs (n : Int) : Int := (n * 196608 * 65536).tdiv 100000

/-- Tenths of a nanosecond in `n` units of 2^−16 Tc, rounded towards zero. -/
def tenthNsOfFine (n : Int) : Int := (n * 1000000).tdiv (196608 * 65536)

/-! ## Codes -/

/-- Kind code of a unit (R367). -/
def unitKindCode : UnitKind → Nat
  | .part => 0x00 | .chain => 0x01 | .ingress => 0x02 | .egress => 0x03 | .canceller => 0x04 | .slot => 0x05
  | .cassette => 0x06 | .converter => 0x07 | .sensor => 0x08 | .supply => 0x09 | .lane => 0x0A | .member => 0x0B
  | .flow => 0x0C | .extent => 0x0D | .archive => 0x0E | .bell => 0x0F | .logbook => 0x10 | .pairLink => 0x11

/-- Every unit kind. -/
def unitKinds : List UnitKind :=
  [.part, .chain, .ingress, .egress, .canceller, .slot, .cassette, .converter, .sensor, .supply, .lane, .member,
   .flow, .extent, .archive, .bell, .logbook, .pairLink]

/-- The 32-bit identifier of a unit (R367). -/
def unitCode (u : UnitId) : Nat := unitKindCode u.kind * 0x100_0000 + u.index % 0x100_0000

/-- The unit that a 32-bit identifier names, if its kind is one of R367. -/
def unitOfCode (n : Nat) : Option UnitId :=
  (unitKinds.find? (fun k => unitKindCode k == bits 31 24 n)).map (fun k => ⟨k, bits 23 0 n⟩)

/-- Shorthands for the units that the chapters name. -/
def partUnit : UnitId := ⟨.part, 0⟩
def chainUnit (c : Nat) : UnitId := ⟨.chain, c⟩
def ibUnit (b : Nat) : UnitId := ⟨.ingress, b⟩
def ebUnit (b : Nat) : UnitId := ⟨.egress, b⟩
def slotUnit (n : Nat) : UnitId := ⟨.slot, n⟩
def cassetteUnit (n : Nat) : UnitId := ⟨.cassette, n⟩
def laneUnit (l : Nat) : UnitId := ⟨.lane, l⟩
def memberUnit (m : Nat) : UnitId := ⟨.member, m⟩
def flowUnit (f : Nat) : UnitId := ⟨.flow, f⟩

/-- The unit of a band path. -/
def bpUnit (d : Dir) (n : Nat) : UnitId :=
  match d with
  | .ingress => ibUnit n
  | .egress => ebUnit n

/-- Code of a role (R5, ID_ROLE). -/
def PartRole.code : PartRole → Nat
  | .hub => 0 | .remote => 1 | .relay => 2 | .unset => 3

/-- Role named by the straps (R3). -/
def roleOfStraps (b : BitVec 2) : PartRole :=
  if b == 0 then .hub else if b == 1 then .remote else if b == 2 then .relay else .unset

/-- Code of a power state (R452). -/
def PowerState.code : PowerState → Nat
  | .active => 0 | .quiet => 1 | .standby => 2 | .dormant => 3

/-- Power state of a code. -/
def powerOfCode (n : Nat) : PowerState :=
  if n = 0 then .active else if n = 1 then .quiet else if n = 2 then .standby else .dormant

/-- Code of a lifecycle state (R458). -/
def Lifecycle.code : Lifecycle → Nat
  | .blank => 0 | .provisioned => 1 | .deployed => 2 | .returned => 3

/-- Code of a reset kind (R448). -/
def ResetKind.code : ResetKind → Nat
  | .powerOn => 0 | .resetN => 1 | .warm => 2 | .watchdog => 3 | .dormantWake => 4 | .unit => 5

/-- Code of a debug level (R459). -/
def DebugLevel.code : DebugLevel → Nat
  | .closed => 0 | .auth => 1 | .open_ => 2

/-- Code of a session role (SYS_SESSION_OPEN). -/
def Role.code : Role → Nat
  | .monitor => 0 | .operate => 1 | .admin => 2

/-- Role of a code. -/
def roleOfCode (n : Nat) : Role := if n = 0 then .monitor else if n = 1 then .operate else .admin

/-- Code of a host path (SYS_HOST_CONFIG). -/
def pathCode : HostPath → Nat
  | .pcie => 0 | .ethernet => 1 | .spi => 2 | .none => 3

/-- Host path of a code. -/
def pathOfCode (n : Nat) : HostPath :=
  if n = 0 then .pcie else if n = 1 then .ethernet else if n = 2 then .spi else .none

/-- Code of a mailbox state (R421). -/
def MailboxState.code : MailboxState → Nat
  | .idle => 0 | .pending => 1 | .running => 2 | .done => 3

end Sys2Proof.Machine
end

