-- ==== Sys2Proof/Machine/Ops.lean ====
section
/-! DEFINITION. The named operations every subsystem shares: updates of one subsystem's state, the passage of time,
submitting a Logbook record, raising and ending a fault condition, posting an event, setting an interrupt source. -/

namespace Sys2Proof.Machine

open Sys2Proof

/-! ## Updates of one subsystem -/

def State.modAir (s : State) (f : AirState → AirState) : State := { s with air := f s.air }
def State.modHost (s : State) (f : HostState → HostState) : State := { s with host := f s.host }
def State.modFault (s : State) (f : FaultState → FaultState) : State := { s with fault := f s.fault }
def State.modLog (s : State) (f : LogState → LogState) : State := { s with log := f s.log }
def State.modSys (s : State) (f : SysState → SysState) : State := { s with sys := f s.sys }

def State.modRf (s : State) (f : RfState → RfState) : State := { s with rf := f s.rf }
def State.modCe (s : State) (f : CeState → CeState) : State := { s with ce := f s.ce }
def State.modLg (s : State) (f : LgState → LgState) : State := { s with lg := f s.lg }
def State.modNp (s : State) (f : NpState → NpState) : State := { s with np := f s.np }
def State.modFl (s : State) (f : FlState → FlState) : State := { s with fl := f s.fl }
def State.modDv (s : State) (f : DvState → DvState) : State := { s with dv := f s.dv }
def State.modHk (s : State) (f : HkState → HkState) : State := { s with hk := f s.hk }
def State.modCl (s : State) (f : ClState → ClState) : State := { s with cl := f s.cl }
def State.modPs (s : State) (f : PsState → PsState) : State := { s with ps := f s.ps }
def State.modMem (s : State) (f : MemState → MemState) : State := { s with mem := f s.mem }
def State.modBell (s : State) (f : BellState → BellState) : State := { s with bell := f s.bell }
def State.modPair (s : State) (f : PairState → PairState) : State := { s with pair := f s.pair }

/-- Draws the next free value's index (log entry 3). -/
def draw (s : State) : Nat × State := (s.drawn, { s with drawn := s.drawn + 1 })

/-! ## The passage of time (R28, R29) -/

/-- The monotonic time now. -/
def now (s : State) : Nat := s.air.mono

/-- The air-time instant now. -/
def airNow (a : AirState) : AirInstant := ⟨a.frame, a.offset⟩

/-- `x` limited to ±`m`. -/
def clampI (m x : Int) : Int := max (-m) (min m x)

/-- A quotient rounded to the nearest whole number, to even on a tie. -/
def roundEven (num den : Int) : Int :=
  let q := num / den
  let r := 2 * (num - q * den)
  if r < den then q else if den < r then q + 1 else if q % 2 = 0 then q else q + 1

/-- A difference of two counts taken modulo `m` into the range −m/2 to m/2 (R35, R44). -/
def centred (m d : Int) : Int :=
  let r := d % m
  if r * 2 < m then r else r - m

/-- The air-time count in 2^−16 Tc. -/
def airCount (a : AirState) : Int := ((a.frame * tcPerFrame + a.offset : Nat) : Int) * 65536 + a.frac

/-- What SLEW_RATE lets air time be slewed over `dt` Tc, in 2^−16 Tc / 10^9; what the steps before have left over below
2^−16 Tc counts (R44, R48). -/
def slewAllowance (a : AirState) (dt : Nat) : Nat := dt * 65536 * a.config.slewRate + a.slewRem

/-- Air-time correction over `dt` Tc: the part that slewing takes from the phase still owed, at no more than
SLEW_RATE (R44, R48). Units of 2^−16 Tc. -/
def slewOver (a : AirState) (dt : Nat) : Int :=
  clampI ((slewAllowance a dt / 1000000000 : Nat) : Int) a.slewLeft

/-- The allowance of SLEW_RATE below 2^−16 Tc that is left over after `dt` Tc; none once nothing is owed. -/
def slewRemAfter (a : AirState) (dt : Nat) : Nat :=
  if slewOver a dt = a.slewLeft then 0 else slewAllowance a dt % 1000000000

/-- The applied frequency correction (0.01 ppb) over `dt` Tc, in 2^−16 Tc / 10^11, with what the steps before have left over
below 2^−16 Tc (R28, R29). -/
def rateFine (a : AirState) (dt : Nat) : Int := ((dt * 65536 : Nat) : Int) * a.freqOff + a.rateRem

/-- Air-time correction over `dt` Tc from the applied frequency correction. Units of 2^−16 Tc. -/
def rateOver (a : AirState) (dt : Nat) : Int := rateFine a dt / 100000000000

/-- The movement of the air-time count over `dt` Tc of monotonic time, 2^−16 Tc (R29, R44). -/
def fineOver (a : AirState) (dt : Nat) : Int := ((dt * 65536 : Nat) : Int) + slewOver a dt + rateOver a dt

/-- Growth of the time-error estimate over `dt` Tc, in ns / (196,608 × 10^6) (R38). -/
def errGrowthOver (a : AirState) (dt : Nat) : Nat :=
  match a.lock with
  | .locked | .freeRun => 0
  | _ => dt * (if a.refQualified then a.config.stabRef else a.config.stabLocal)

/-- The air-time count moved on by `fine` units of 2^−16 Tc, the frame counter wrapping modulo 2^32 (R10, R11). -/
def AirState.moveCount (a : AirState) (fine : Int) : AirState :=
  let c : Int := ((a.frame * tcPerFrame + a.offset : Nat) : Int) * 65536 + a.frac + fine
  let w : Nat := (c % ((4294967296 * tcPerFrame * 65536 : Nat) : Int)).toNat
  { a with
    frame := w / 65536 / tcPerFrame
    offset := w / 65536 % tcPerFrame
    frac := w % 65536 }

/-- The wall-time slew taken over `dt` Tc, at most 100 ppm (R55). -/
def wallSlewOver (a : AirState) (dt : Nat) : Int := clampI ((dt * 65536 * 10 : Nat) : Int) a.wallSlew

/-- The count has moved by `e` against the sources: the phase of each is smaller by that much. LOCAL is the part's own count,
so that its phase is 0 and stays so (table *Timing sources*, R44). -/
def movePhases (e : Int) (b : Bank TimeSource) : Bank TimeSource :=
  { b with
    dflt := { b.dflt with phase := b.dflt.phase - e }
    cells := b.cells.map (fun p => (p.1, if p.1 = 4 then p.2 else { p.2 with phase := p.2.phase - e })) }

/-- `dt` Tc of monotonic time pass. Air time is monotonic time plus an offset and rate correction, which the fractional
accumulator takes up (R28, R29); wall time runs at the air-time rate (R55). -/
def AirState.pass (a : AirState) (dt : Nat) : AirState :=
  let slew := slewOver a dt
  let ws := wallSlewOver a dt
  let fine := fineOver a dt
  { a.moveCount fine with
    mono := a.mono + dt
    slewLeft := a.slewLeft - slew
    slewRem := slewRemAfter a dt
    rateRem := rateFine a dt % 100000000000
    errGrowth := a.errGrowth + errGrowthOver a dt
    sources := movePhases slew a.sources
    wallAcc := if a.wallSet then (((a.wallAcc : Int) + fine * 100000 + ws).toNat) else a.wallAcc
    wallSlew := a.wallSlew - ws }

/-- `dt` Tc pass. -/
def advance (dt : Nat) (s : State) : State := s.modAir (fun a => a.pass dt)

/-- Time passes up to the monotonic instant `t`; nothing if it has passed already. -/
def advanceTo (t : Nat) (s : State) : State := advance (t - now s) s

/-- DORMANT: `n` ticks of AON_OSC pass. Monotonic time moves by 60,000 Tc for each, the air-time count stands still, and wall
time runs with monotonic time (R29, R55). -/
def AirState.sleep (a : AirState) (n : Nat) : AirState :=
  { a with
    mono := a.mono + 60000 * n
    wallAcc := if a.wallSet then a.wallAcc + 60000 * n * 65536 * 100000 else a.wallAcc }

/-- Time passes up to the monotonic instant `t`; in DORMANT up to the first tick of AON_OSC at or after it (R29). -/
def waitUntil (t : Nat) (s : State) : State :=
  if s.sys.power = .dormant then s.modAir (fun a => a.sleep ((t - a.mono + 59999) / 60000)) else advanceTo t s

/-- Tc of air time from the present instant to a later instant, by R11; 0 if the instant is not later. -/
def airAhead (a : AirState) (i : AirInstant) : Nat :=
  let df := (i.frame + 4294967296 - a.frame) % 4294967296
  if df < 2147483648 then (df * tcPerFrame + i.offset) - a.offset else 0

/-- An instant is later than the present (R11). -/
def isLater (a : AirState) (i : AirInstant) : Bool := decide (0 < airAhead a i)

/-- Adds to `dt` the Tc that the count still lacks to a movement of `fine`, or takes off those that it has too many; repeated,
since the corrections over them move it as well. -/
def refineTc (a : AirState) (fine : Int) : Nat → Nat → Nat
  | 0, dt => dt
  | n + 1, dt => refineTc a fine n (dt + -((fineOver a dt - fine) / 65536)).toNat

/-- The first Tc of monotonic time at which the air-time count has moved by `fine` units of 2^−16 Tc (R29, R48). -/
def tcOfFine (a : AirState) (fine : Int) : Nat :=
  let dt := refineTc a fine 8 (fine / 65536).toNat
  if fineOver a dt < fine then dt + 1 else if 0 < dt ∧ fine ≤ fineOver a (dt - 1) then dt - 1 else dt

/-- The monotonic time that takes air time from now to an instant, at the corrections now applied (R29, R48). -/
def monoOfAir (a : AirState) (i : AirInstant) : Nat :=
  let d := airAhead a i
  if d = 0 then 0 else tcOfFine a (((d * 65536 : Nat) : Int) - a.frac)

/-- Air time passes up to an instant: to the first Tc at which the count has reached it. The counters then read the instant,
and the fractional accumulator holds what the count has beyond it; the rate correction keeps what does not fit there. -/
def AirState.passTo (a : AirState) (i : AirInstant) : AirState :=
  let d := airAhead a i
  if d = 0 then a
  else
    let b := a.pass (monoOfAir a i)
    let past : Int := a.frac + fineOver a (monoOfAir a i) - ((d * 65536 : Nat) : Int)
    let kept : Int := max 0 (min 65535 past)
    { b with
      frame := i.frame % 4294967296
      offset := i.offset % tcPerFrame
      frac := kept.toNat
      rateRem := b.rateRem + (past - kept) * 100000000000 }

/-- Air time passes up to an instant; the count reads exactly that instant afterwards. -/
def advanceToAir (i : AirInstant) (s : State) : State := s.modAir (fun a => a.passTo i)

/-- The frame counter after `n` more frames (R11). -/
def framesAhead (s : State) (n : Nat) : Nat := (s.air.frame + n) % 4294967296

/-- Frames from the present frame to frame `f` (R11); 0 when it is not later. -/
def frameDistance (s : State) (f : Nat) : Nat :=
  let d := (f + 4294967296 - s.air.frame) % 4294967296
  if d < 2147483648 then d else 0

/-- One instant comes before another (R11). -/
def instantBefore (a b : AirInstant) : Bool :=
  if a.frame = b.frame then decide (a.offset < b.offset)
  else decide ((b.frame + 4294967296 - a.frame) % 4294967296 < 2147483648)

/-- An instant moved on by `d` Tc. -/
def instantAfter (a : AirInstant) (d : Nat) : AirInstant :=
  ⟨(a.frame + (a.offset + d) / tcPerFrame) % 4294967296, (a.offset + d) % tcPerFrame⟩

/-- The first boundary of a grid of `period` Tc, aligned to the start of the frame, that has not been passed:
the present instant if it is a boundary whose event has not run, else the next one (R30). -/
def nextBoundary (a : AirState) (grid period : Nat) : AirInstant :=
  if a.offset % period = 0 ∧ a.gridDone.get grid ≠ some (airNow a) then airNow a
  else
    let o := (a.offset / period + 1) * period
    if o < tcPerFrame then ⟨a.frame, o⟩ else ⟨(a.frame + 1) % 4294967296, 0⟩

/-- Time passes up to the next boundary of a grid, and the boundary counts as passed. -/
def advanceToBoundary (grid period : Nat) (s : State) : State :=
  let b := nextBoundary s.air grid period
  (advanceToAir b s).modAir (fun a => { a with gridDone := a.gridDone.set grid (some b) })

/-- Grid numbers of `gridDone`. -/
abbrev gridTick : Nat := 0
abbrev gridSlot : Nat := 1
abbrev gridSubframe : Nat := 2
abbrev gridFrame : Nat := 3

/-- Tc of a reference slot (R30). -/
def slotPeriod (a : AirState) : Nat := tcPerMs / 2 ^ a.slotMu

/-- Wall time now, ns (R55). -/
def wallNow (s : State) : Nat := s.air.wallAcc / (196608 * 65536) % 2 ^ 64

/-- Wall time that corresponds to the monotonic instant `t`, ns (R402). -/
def wallAt (s : State) (t : Nat) : Nat := wallNow s - (now s - t) * 100000 / 196608

/-! ## Logbook submissions (R395, R511) -/

/-- Source index of R367: subsystem in bits [15:12], index in bits [11:0]. -/
def sourceIndex (subsystem index : Nat) : Nat := subsystem * 4096 + index % 4096

/-- Six parameters, the missing ones zero (R394). -/
def params6 (l : List Nat) : List Nat := (List.range 6).map (fun i => l.getD i 0 % 4294967296)

/-- Submits a record to the Logbook writer, with the event at the present instant. -/
def submitLog (code source : Nat) (params : List Nat) (s : State) : State :=
  s.modLog (fun l => { l with
    submissions := l.submissions ++ [{ code, source, params := params6 params, mono := now s }] })

/-! ## Interrupts and events (R431–R436) -/

/-- Signals vector `k`: a message, or its pending bit while the vector is masked (R434). -/
def signalVector (h : HostState) (k : Nat) : HostState :=
  if (h.msixTable.get k).control.testBit 0 then { h with msixPba := h.msixPba ||| (1#32 <<< k) }
  else { h with out := .msix k :: h.out }

/-- Signals every vector of a mask; vectors 21–31 are never signalled (R434). -/
def signalVectors (h : HostState) (m : Word) : HostState :=
  (List.range 21).foldl (fun acc k => if m.getLsbD k then signalVector acc k else acc) h

/-- Sets IRQ_STATUS bits; a bit that becomes set while enabled signals its vector (R434). -/
def setIrqBits (h : HostState) (m : Word) : HostState :=
  let fresh := m &&& ~~~h.irqStatus
  signalVectors { h with irqStatus := h.irqStatus ||| m } (fresh &&& h.irqEnable)

/-- IRQ_STATUS bit numbers (table *IRQ_STATUS fields*). -/
abbrev irqEvent : Nat := 16
abbrev irqFault : Nat := 17
abbrev irqReady : Nat := 18
abbrev irqSite : Nat := 19
abbrev irqOverrun : Nat := 20

/-- Sets one IRQ_STATUS bit. -/
def setIrq (n : Nat) (s : State) : State := s.modHost (fun h => setIrqBits h (1#32 <<< n))

/-- EVENT is due: the count of unacknowledged events has reached the threshold, or the hold-off has elapsed (R436). -/
def eventDue (h : HostState) (t : Nat) : Bool :=
  decide (h.evtAck < h.evtHead) &&
    (decide (h.threshold ≤ h.evtHead - h.evtAck) ||
      (match h.holdStart with
       | some t0 => decide (t0 + tcOfUs h.holdoff ≤ t)
       | none => false))

/-- Posts one event (R431, R436); the sequence number and the time are set here. -/
def postEvent (e : Event) (s : State) : State :=
  s.modHost (fun h =>
    let seq := h.evtHead + 1
    let idx := (seq - 1) % 1024
    let old := (h.ring.get idx).seq
    let ev : Event := { e with seq := seq, mono := now s }
    let h1 : HostState := { h with
      ring := h.ring.set idx ev
      evtHead := seq
      evtOverwritten := if old ≠ 0 ∧ h.evtAck < old then h.evtOverwritten + 1 else h.evtOverwritten
      holdStart := if h.evtHead ≤ h.evtAck then some (now s) else h.holdStart
      out := if h.net.eventAddr ≠ 0 ∧ h.net.eventPort ≠ 0 then .ethEvent ev :: h.out else h.out }
    if eventDue h1 (now s) then setIrqBits h1 (1#32 <<< irqEvent) else h1)

/-- Posts a notice (R433). -/
def postNotice (code detail param : Nat) (s : State) : State :=
  postEvent { kind := 2, mailbox := 0xFF, code, detail := detail % 4294967296, param := param % 4294967296 } s

/-- The session table holds an open session of this identifier. -/
def sessionOpen (h : HostState) (id : Nat) : Bool :=
  (List.range 16).any (fun k => match h.sessions.get k with
    | some x => x.id == id
    | none => false)

/-- Posts the completion event of a command (R427, R51). -/
def complete (t : Ticket) (st : Status) (detail : Nat) (s : State) : State :=
  postEvent {
    kind := 1, mailbox := t.mailbox, code := t.opcode, tag := t.tag, status := st.code
    flags := flag t.late + 2 * flag t.handle.isSome
      + 4 * flag (t.session ≠ 0 && !sessionOpen s.host t.session)
    detail := detail % 4294967296, param := t.handle.getD 0 } s

/-- Completes a command whose ticket may be absent (a part of the machine's own work has none). -/
def completeOpt (t : Option Ticket) (st : Status) (detail : Nat) (s : State) : State :=
  match t with
  | some k => complete k st detail s
  | none => s

/-! ## Fault conditions (R366, R386) -/

/-- Number of the collector cycle now (R366). -/
def cycleNow (s : State) : Nat := now s / tcPerCycle

/-- A detector reports that a condition holds. -/
def conditionHolds (f : FaultState) (cls : Nat) (u : UnitId) : Bool :=
  f.conditions.any (fun r => r.cls == cls && r.unit == u)

/-- Latches a raise; the condition holds from now on (R366). -/
def raiseFault (r : Raise) (s : State) : State :=
  let r1 : Raise := { r with cycle := cycleNow s }
  s.modFault (fun f => { f with
    latched := f.latched ++ [.raise r1]
    conditions := r1 :: f.conditions.filter (fun x => !(x.cls == r.cls && x.unit == r.unit)) })

/-- Latches a raise unless its condition holds already: a level detector raises once. -/
def raiseLevel (r : Raise) (s : State) : State :=
  if conditionHolds s.fault r.cls r.unit then s else raiseFault r s

/-- Latches the end of a condition that holds (R386). -/
def endFault (cls : Nat) (u : UnitId) (s : State) : State :=
  if conditionHolds s.fault cls u then
    s.modFault (fun f => { f with
      latched := f.latched ++ [.ended ⟨cls, u⟩ (cycleNow s) false]
      conditions := f.conditions.filter (fun x => !(x.cls == cls && x.unit == u)) })
  else s

/-- Latches a raise that is a moment: it ends in the cycle in which it is raised (R386). -/
def raiseMoment (r : Raise) (s : State) : State := endFault r.cls r.unit (raiseFault r s)

end Sys2Proof.Machine
end

