-- ==== Sys2Proof/Machine/Flags.lean ====
section
/-! DEFINITION. Levels and status bits that the part computes from its state: IRQ_N, FAULT_N, the time-error
estimate and TDD_ALLOWED, and the severities of the fault classes. -/

namespace Sys2Proof.Machine

open Sys2Proof

/-- IRQ_N is driven low while an enabled source is set (R435). -/
def irqNLow (h : HostState) : Bool := (h.irqStatus &&& h.irqNEnable) ≠ 0

/-- One row of the table *Fault classes* (R391). -/
structure ClassRow where
  code     : Nat
  severity : Severity
  /-- Floor; 0 stands for none. -/
  floor    : Severity
  /-- Default clear policy is MANUAL. -/
  manual   : Bool
  /-- Raising subsystem (R512). -/
  subsystem : Nat
  deriving DecidableEq, Repr

/-- The table *Fault classes* with the raising subsystems of R512. -/
def faultClasses : List ClassRow :=
  [⟨0x10, 3, 0, false, 0⟩, ⟨0x11, 3, 0, true, 0⟩, ⟨0x12, 2, 0, false, 0⟩, ⟨0x13, 3, 0, true, 0⟩,
   ⟨0x14, 1, 0, false, 0⟩,
   ⟨0x20, 2, 0, false, 1⟩, ⟨0x21, 2, 0, false, 1⟩, ⟨0x22, 2, 0, false, 1⟩, ⟨0x23, 3, 0, false, 1⟩,
   ⟨0x30, 2, 0, false, 2⟩, ⟨0x31, 3, 3, true, 2⟩, ⟨0x32, 2, 0, false, 2⟩, ⟨0x33, 1, 0, false, 2⟩,
   ⟨0x40, 2, 0, false, 1⟩, ⟨0x41, 3, 0, false, 1⟩, ⟨0x42, 2, 0, false, 1⟩, ⟨0x43, 3, 0, true, 1⟩,
   ⟨0x44, 3, 0, true, 1⟩,
   ⟨0x50, 2, 0, false, 3⟩, ⟨0x51, 3, 0, true, 3⟩, ⟨0x52, 1, 0, false, 3⟩] ++
  [⟨0x60, 3, 0, true, 4⟩, ⟨0x61, 3, 0, true, 4⟩, ⟨0x62, 3, 0, true, 4⟩, ⟨0x63, 3, 0, true, 4⟩,
   ⟨0x64, 3, 0, true, 4⟩, ⟨0x65, 1, 0, false, 4⟩,
   ⟨0x70, 2, 0, false, 5⟩, ⟨0x71, 3, 0, false, 5⟩, ⟨0x72, 1, 0, false, 5⟩, ⟨0x73, 4, 0, true, 5⟩,
   ⟨0x80, 2, 0, false, 7⟩, ⟨0x81, 1, 0, false, 7⟩, ⟨0x82, 3, 0, false, 6⟩, ⟨0x83, 2, 0, false, 7⟩,
   ⟨0x90, 2, 0, false, 8⟩, ⟨0x91, 1, 0, false, 8⟩,
   ⟨0xA0, 1, 0, false, 9⟩, ⟨0xB0, 4, 0, true, 10⟩, ⟨0xB1, 4, 0, true, 10⟩, ⟨0xB2, 1, 0, true, 10⟩,
   ⟨0xC0, 1, 0, false, 7⟩]

/-- The table row of a class, if it is a class. -/
def classRow (c : Nat) : Option ClassRow := faultClasses.find? (fun r => r.code == c)

/-- The subsystem that raises a class (R512). -/
def classSubsystem (c : Nat) : Nat := ((classRow c).map (·.subsystem)).getD 10

/-- Severity, ceiling and clear policy of a class in force (R372, R373). -/
def classConfig (f : FaultState) (c : Nat) : ClassConfig :=
  match f.classes.get c with
  | some x => x
  | none =>
    match classRow c with
    | some r => ⟨r.severity, if r.severity = 4 then 4 else 3, r.manual⟩
    | none => ⟨0, 3, false⟩

/-- FAULT_N is driven low (R389). -/
def faultNLow (s : State) : Bool :=
  s.fault.halt.isSome || !s.sys.ready ||
    s.fault.entries.any (fun e => decide (s.fault.faultNLevel ≤ e.severity) && (e.active || !e.acked))

/-- The level of FAULT_N follows its causes within two collector cycles (R389). -/
def refreshFaultN (s : State) : State := s.modFault (fun f => { f with faultN := faultNLow s })

/-- The greatest effective severity among ACTIVE entries (FC_STATUS.WORST). -/
def worstSeverity (f : FaultState) : Severity :=
  f.entries.foldl (fun m e => if e.active then max m e.severity else m) 0

/-- The time-error estimate E in ns / (196,608 × 10^6); none while it is unknown (R38). -/
def timeErrScaled (a : AirState) : Option Nat :=
  if a.acquired then
    match a.lock with
    | .locked =>
      let src := a.sources.get a.source
      some (src.bound * 196608000 + (src.phase.natAbs * 100000000000 + 65535) / 65536)
    | .freeRun => none
    | _ => some (a.errBase + a.errGrowth)
  else none

/-- The estimate E in ns, rounded down (TIME_ERR). -/
def timeErrNs (a : AirState) : Option Nat := (timeErrScaled a).map (· / 196608000000)

/-- E is at or below TIME_ERR_LIMIT. -/
def timeErrOk (a : AirState) : Bool :=
  match timeErrScaled a with
  | some e => decide (e ≤ a.config.errLimit * 196608000000)
  | none => false

/-- TDD_ALLOWED (R40). -/
def tddAllowed (a : AirState) : Bool := a.acquired && timeErrOk a && !a.stepPending

/-- The part is the active hub of a pair, or a HUB without one (R41, R468). -/
def activeHub (s : State) : Bool :=
  s.sys.role == .hub &&
    (match s.pair.phase with
     | .unpaired => !s.pair.config.enable
     | .activeAlone | .activePaired => true
     | _ => false)

/-- The part is the standby hub of a pair. -/
def standbyHub (s : State) : Bool :=
  s.sys.role == .hub && (s.pair.phase == .standbySyncing || s.pair.phase == .standbyReady)

/-- Pattern `p` is in a state in which TDD bands on it may transmit (table *Pattern states*). -/
def patternSends (a : AirState) (p : Nat) : Bool :=
  match (a.patterns.get p).state with
  | .asserted | .verified => true
  | .provisional => (a.patterns.get p).carried
  | .unset | .mismatch => false

/-! ## Positions in a pattern (R52) -/

/-- Position of an instant in a pattern's period; patterns are anchored in even frames (R52). -/
def patternPos (d : PatternDef) (i : AirInstant) : Nat :=
  (i.frame % 2 * tcPerFrame + i.offset + 2 * tcPerFrame - d.anchor) % d.period

/-- The segments of a pattern with their starts. -/
def segmentStarts (d : PatternDef) : List (Nat × Nat × SegType) :=
  (d.segments.foldl (fun acc x => (acc.1 + x.1, acc.2 ++ [(acc.1, acc.1 + x.1, x.2)])) (0, ([] : List (Nat × Nat × SegType)))).2

/-- A segment of one type touches the span of `len` Tc from a position. -/
def segmentTouches (d : PatternDef) (t : SegType) (pos len : Nat) : Bool :=
  (List.range (len / max 1 d.period + 2)).any (fun k => (segmentStarts d).any (fun x =>
    x.2.2 == t && decide (pos < x.2.1 + k * d.period) && decide (x.1 + k * d.period < pos + len)))

end Sys2Proof.Machine
end

