-- ==== Sys2Proof/Machine/Decibel.lean ====
section
/-! DEFINITION. Decibel arithmetic: linear power ratios in units of 10^−30, and values in 0.01 dB (R8). The spec names
the functions and no rounding for them: a logarithm is rounded to the nearest 0.01 dB (log entry 11). -/

namespace Sys2Proof.Machine

open Sys2Proof

/-- One, as a linear power ratio. -/
abbrev unity : Nat := 10 ^ 30

/-- 10^(2^k / 1000) for k = 0 to 9, in units of 10^−30. -/
def powTable : List Nat :=
  [1002305238077899671915404889328,
   1004615790278395142404651985813,
   1009252886076684411915527764120,
   1018591388054116924079798867333,
   1037528415818012609628394543548,
   1076465213629834878304668489036,
   1158777356155126042254820061818,
   1342764961137863826205633427966,
   1803017740859568951455642730342,
   3250872973854343737194304114127]

/-- 10^(r / 1000) for 0 ≤ r < 1000. -/
def powFraction (r : Nat) : Nat :=
  (List.range 10).foldl (fun acc k => if r.testBit k then acc * powTable.getD k unity / unity else acc) unity

/-- The linear ratio of `n` (0.01 dB). -/
def linear (n : Int) : Nat :=
  let m := powFraction (n % 1000).toNat
  if 0 ≤ n / 1000 then m * 10 ^ (n / 1000).toNat else m / 10 ^ (-(n / 1000)).toNat

/-- Greatest `n` in [lo, lo + 2^fuel) whose linear ratio does not exceed `x`. -/
def logSearch (x : Nat) : Nat → Int → Int
  | 0, lo => lo
  | fuel + 1, lo => if linear (lo + 2 ^ fuel) ≤ x then logSearch x fuel (lo + 2 ^ fuel) else logSearch x fuel lo

/-- The value in 0.01 dB of a linear ratio, to the nearest; a ratio of zero reads −300 dB. -/
def decibel (x : Nat) : Int :=
  if x = 0 then -30000
  else
    let n := logSearch x 16 (-30000)
    if linear n * linear (n + 1) ≤ x * x then n + 1 else n

/-- The attenuation −10 log10 of a ratio of at most one, rounded up to the next 0.1 dB (R160), in 0.01 dB. -/
def attenuationUp (x : Nat) : Nat := 10 * ((List.range 601).find? (fun k => decide (linear (-((10 * k : Nat) : Int)) ≤ x))).getD 600

/-- The greatest whole number below 2^fuel more than `r` whose square does not exceed `x`. -/
def rootSearch (x : Nat) : Nat → Nat → Nat
  | 0, r => r
  | fuel + 1, r => if (r + 2 ^ fuel) * (r + 2 ^ fuel) ≤ x then rootSearch x fuel (r + 2 ^ fuel) else rootSearch x fuel r

/-- The amplitude factor of `n` (0.01 dB) as an unsigned Q12.20 number (R155). -/
def amplitude (n : Int) : Nat := rootSearch (linear n * 2 ^ 40 / unity) 32 0

/-- The sum of powers given in 0.01 dB. -/
def powerSum (l : List Int) : Nat := (l.map linear).sum

end Sys2Proof.Machine
end

