-- ==== Sys2Proof/Machine/FrameBytes.lean ====
section
/-! DEFINITION. The bytes of control frames and flits (R7, R262–R264), little-endian. -/

namespace Sys2Proof.Machine

open Sys2Proof

/-! ## CRC-16 (R262) -/

/-- One byte of CRC-16: polynomial 0x1021, most significant bit first. -/
def crc16Byte (c : BitVec 16) (b : Byte) : BitVec 16 :=
  (List.range 8).foldl (fun a _ => if a.getMsbD 0 then (a <<< 1) ^^^ 0x1021#16 else a <<< 1) (c ^^^ (b.setWidth 16 <<< 8))

/-- CRC-16 of R262: initial value 0xFFFF, no final XOR. -/
def crc16 (l : List Byte) : Nat := (l.foldl crc16Byte 0xFFFF#16).toNat

/-! ## Control frames (R264) -/

/-- Bytes 0–39 of a JOIN_REQ payload (table *JOIN_REQ payload*). -/
def joinBytes (r : JoinReq) : List Byte :=
  le 1 (flag r.rejoin) ++ le 1 r.role ++ le 2 (r.member.getD 0xFFFF) ++ le 8 r.serial.toNat ++ le 4 r.fw ++
    le 1 r.hops ++ le 1 r.lifecycle ++ le 2 r.parent ++ le 4 0 ++ le 16 r.nonce.toNat

/-- Table *HELLO payload*. -/
def helloBytes (h : Hello) : List Byte :=
  le 4 h.flockId ++ le 8 h.serial.toNat ++ le 2 (h.member.getD 0xFFFF) ++ le 1 (h.hops.getD 0xFF) ++
    le 1 (flag h.primary + 2 * flag h.hub + 4 * flag h.acquired + 8 * flag h.admitting) ++ le 1 h.port ++ le 1 h.lanes ++
    le 2 0 ++ le 16 h.nonce.toNat ++ le 4 0

/-- Table *JOIN_RESP payload*. -/
def joinRespBytes (r : JoinResp) : List Byte :=
  le 1 r.result ++ le 1 r.retryAfter ++ le 2 (r.member.getD 0xFFFF) ++ le 8 r.serial.toNat ++ le 4 r.admitFrame ++ le 8 0

/-- One entry of a PLAN frame (table *Placement control frames*). -/
def planEntryBytes (e : PlanEntry) : List Byte :=
  le 4 e.word0 ++ le 2 e.inn ++ le 2 e.out ++ le 1 e.localBp ++ le 1 e.prio ++ le 2 0 ++ le 4 e.deadline ++ le 4 e.rate ++ le 4 0

/-- One band path of a BIND_STATUS frame. -/
def bindingBytes (b : Binding) : List Byte :=
  le 1 b.bp ++ le 1 (flag b.exists_ + 2 * flag b.egress + 4 * flag b.flowFed) ++ le 2 0 ++ le 4 b.flow ++ le 4 b.rate

/-- A payload brought to a whole number of 8-byte units by zeros. -/
def wholeUnits (l : List Byte) : List Byte := l ++ List.replicate ((8 - l.length % 8) % 8) 0

/-- TYPE of a frame (table *Control frame types*); none where the spec gives the frame no type. -/
def frameType : FrameBody → Option Nat
  | .hello _ => some 0x01 | .ttReq _ => some 0x02 | .ttResp _ _ => some 0x03 | .joinReq _ => some 0x04
  | .joinResp _ => some 0x05 | .leave _ _ _ => some 0x06 | .leaveAck _ _ _ => some 0x07 | .status _ => some 0x08
  | .pathDown => some 0x09 | .rehome _ _ _ => some 0x0A | .lost _ _ => some 0x0B | .laneSet _ _ => some 0x0C
  | .expel => some 0x0D | .marginCap _ => some 0x10 | .admitReq _ => some 0x11 | .admitGrant _ => some 0x12
  | .plan _ _ _ _ _ => some 0x20 | .planAck _ _ => some 0x21 | .planCancel _ => some 0x22 | .bindStatus _ => some 0x23
  | .flowReport _ => some 0x24 | .pairSync _ _ => some 0x31 | .unknown t => some t
  | .gateRaise _ | .pairHb _ => none

/-- The payload of a frame whose layout the spec gives; none of one whose layout it leaves open (log entry 136). -/
def framePayload : FrameBody → Option (List Byte)
  | .hello h => some (helloBytes h)
  | .ttReq t1 => some (le 8 t1)
  | .ttResp t2 t3 => some (le 8 t2 ++ le 8 t3)
  | .joinReq r => some (joinBytes r ++ le 16 r.tag.toNat)
  | .joinResp r => some (joinRespBytes r)
  | .pathDown => some []
  | .expel => some []
  | .plan seq frame dT final l =>
    some (le 4 seq ++ le 4 frame ++ le 4 dT ++ le 1 l.length ++ le 1 (flag final) ++ le 2 0 ++ (l.map planEntryBytes).flatten)
  | .planAck seq st => some (le 4 seq ++ le 1 st ++ le 3 0)
  | .planCancel seq => some (le 4 seq)
  | .bindStatus l => some ((l.map bindingBytes).flatten)
  | .flowReport l => some ((l.map (fun p => le 4 p.1 ++ le 2 p.2.1 ++ le 2 p.2.2)).flatten)
  | .leave _ _ _ | .leaveAck _ _ _ | .status _ | .rehome _ _ _ | .lost _ _ | .laneSet _ _ | .marginCap _ | .admitReq _
  | .admitGrant _ | .gateRaise _ | .pairHb _ | .pairSync _ _ | .unknown _ => none

/-- The header word of a frame (table *Control frame header*). -/
def frameWord (type units : Nat) (h : FrameHeader) : Nat :=
  place 8 0 type + place 8 8 units + place 14 16 h.dest + place 1 30 (flag h.bcast) + place 1 31 (flag h.up) +
    place 14 32 (h.src.getD 0) + place 1 46 (flag h.src.isNone) + place 8 47 h.ttl

/-- The bytes of a frame, given what stands for its type and payload where the spec leaves them open; a payload has at most 78
units. -/
def frameBytes (openType : Nat) (openPayload : List Byte) (f : CtrlFrame) : List Byte :=
  let p := (wholeUnits ((framePayload f.body).getD openPayload)).take 624
  le 8 (frameWord ((frameType f.body).getD openType) (p.length / 8) f.head) ++ p

/-- A list cut into pieces of at most `k`, within `n` pieces. -/
def pieces {α : Type} (k : Nat) : Nat → List α → List (List α)
  | 0, l => [l]
  | n + 1, l => if l.length ≤ k then [l] else l.take k :: pieces k n (l.drop k)

/-- The frames that carry a report: one payload holds 52 band paths or 78 flows. -/
def splitBody : FrameBody → List FrameBody
  | .bindStatus l => (pieces 52 l.length l).map FrameBody.bindStatus
  | .flowReport l => (pieces 78 l.length l).map FrameBody.flowReport
  | b => [b]

/-! ## Flits (R262, R263) -/

/-- The 640 bytes of a flit from its kind, flow, number of blocks, sequence number and the bytes behind its header. -/
def flitBytes (kind flow blocks pseq : Nat) (body : List Byte) : List Byte :=
  let rest := (body ++ List.replicate (632 - body.length) 0).take 632
  let w := place 2 0 kind + place 18 2 flow + place 3 20 blocks + place 16 24 pseq
  le 8 (w + place 16 48 (crc16 (le 8 w ++ rest))) ++ rest

/-- A descriptor and the sixteen samples behind it (table *Block descriptor*); a block without samples carries zeros. -/
def blockBytes (b : Block) : List Byte :=
  le 8 (flag b.valid + 2 * flag b.settling + 4 * flag b.clipped + 8 * flag b.gapped + place 25 4 b.at_.offset +
    place 8 29 b.at_.frame + place 16 37 b.bseq) ++
  ((List.range 16).map (fun k =>
    let x := b.samples.getD k (0, 0)
    le 3 (unsignedOf 24 x.1) ++ le 3 (unsignedOf 24 x.2))).flatten

/-- Control frames packed in order into flits of 632 bytes behind the header: what the flits hold, last flit first. -/
def packFrames (l : List (CtrlFrame × List Byte)) : List (List (CtrlFrame × List Byte)) :=
  l.foldl (fun acc x => match acc with
    | cur :: rest =>
      if ((cur.map (fun y => y.2.length)).sum) + x.2.length ≤ 632 then (cur ++ [x]) :: rest else [x] :: cur :: rest
    | [] => [[x]]) []

end Sys2Proof.Machine
end

