-- ==== Sys2Proof/Machine/Wire.lean ====
section
/-! DEFINITION. Ports and lanes as every subsystem sees them, and how a control frame is routed and queued (R259–R265,
R275). -/

namespace Sys2Proof.Machine

open Sys2Proof

/-! ## Lanes and ports -/

def modLane (l : Nat) (f : Lane → Lane) (s : State) : State := s.modFl (fun x => { x with lanes := x.lanes.mod l f })
def modPort (p : Nat) (f : FlPort → FlPort) (s : State) : State := s.modFl (fun x => { x with ports := x.ports.mod p f })

/-- Code of a port function (R261). -/
def PortFunction.code : PortFunction → Nat
  | .off => 0 | .up => 1 | .down => 2 | .ring => 3 | .mirror => 4

/-- Port function of a code. -/
def portFunctionOf (n : Nat) : PortFunction :=
  if n = 1 then .up else if n = 2 then .down else if n = 3 then .ring else if n = 4 then .mirror else .off

/-- The lanes that a port of this configuration uses (R260). -/
def configLanes (p : Nat) (c : PortConfig) : List Nat :=
  if c.function = .off then [] else (List.range c.bond).map (fun k => 2 * p + k)

/-- The lanes of a port. -/
def portLanes (s : State) (p : Nat) : List Nat := configLanes p (s.fl.ports.get p).config

/-- The port that uses a lane: the even neighbour when its bond of 4 reaches over, else its own. -/
def portOfLane (s : State) (l : Nat) : Nat :=
  let p := l / 2
  if p % 2 = 1 ∧ (s.fl.ports.get (p - 1)).config.bond = 4 ∧ (s.fl.ports.get (p - 1)).config.function ≠ .off then p - 1
  else p

/-- A lane is PENNED. -/
def laneHeld (s : State) (l : Nat) : Bool := s.fault.pens.any (fun p => p.unit == laneUnit l)

/-- A port is up while one of its lanes is UP (R269) and its peer belongs to the flock (R273). -/
def portUp (s : State) (p : Nat) : Bool :=
  !(s.fl.ports.get p).mismatch && (portLanes s p).any (fun l => (s.fl.lanes.get l).state == .up && !laneHeld s l)

/-- A port is trained as far as its HELLO exchange. -/
def portTrained (s : State) (p : Nat) : Bool :=
  (portLanes s p).any (fun l => (s.fl.lanes.get l).state == .up || (s.fl.lanes.get l).state == .aligning ||
    (s.fl.lanes.get l).state == .training)

/-- The peer uses this link as its primary upstream. -/
def peerPrimary (s : State) (p : Nat) : Bool :=
  match (s.fl.ports.get p).peer with
  | some h => h.primary
  | none => false

/-- Use of a port (R275): 0 idle, 1 primary upstream, 2 alternate, 3 downstream. -/
def portUse (s : State) (p : Nat) : Nat :=
  if s.fl.primary = some p then 1
  else if s.fl.alternate = some p then 2
  else match (s.fl.ports.get p).config.function with
    | .down => 3
    | .ring => if peerPrimary s p then 3 else 0
    | _ => 0

/-- The first configured mirror port of a paired hub. -/
def mirrorPort (s : State) : Option Nat :=
  (List.range 12).find? (fun p => s.pair.config.ports.getLsbD p && (s.fl.ports.get p).config.function == .mirror)

/-- The port towards the hub: the primary upstream, or a mirror port of the standby hub (R470). -/
def upstreamPort (s : State) : Option Nat :=
  if s.sys.role = .hub then (if standbyHub s then mirrorPort s else none) else s.fl.primary

/-- Ports to which a broadcast is copied: every downstream port, and the mirror ports of the active hub, behind which the
standby's subtree lies (R264, R470). -/
def downPorts (s : State) : List Nat :=
  (List.range 12).filter (fun p => portUp s p && (portUse s p == 3 ||
    (activeHub s && (s.fl.ports.get p).config.function == .mirror)))

/-- The port whose subtree contains a member; the standby hub lies behind a mirror port. -/
def portTowards (s : State) (m : Nat) : Option Nat :=
  if m = 1 ∧ activeHub s then mirrorPort s else (s.fl.below.get m).map (·.1)

/-! ## The control queue (R265) -/

/-- A full queue first drops its oldest STATUS frame, else its oldest frame; the frame dropped, and the queue left. -/
def dropOne (l : List CtrlFrame) : Option CtrlFrame × List CtrlFrame :=
  let isStatus (f : CtrlFrame) : Bool := match f.body with
    | .status _ => true
    | _ => false
  match l.findIdx? isStatus with
  | some k => (l[k]?, l.take k ++ l.drop (k + 1))
  | none => (l.head?, l.drop 1)

/-- A frame joins the queue of a port; what had to be dropped. -/
def enqueueRaw (p : Nat) (f : CtrlFrame) (s : State) : Option CtrlFrame × State :=
  let q := (s.fl.ports.get p).queue
  if q.length < 256 then (none, modPort p (fun x => { x with queue := x.queue ++ [f] }) s)
  else
    let d := dropOne q
    (d.1, modPort p (fun x => { x with queue := d.2 ++ [f], ctrlDrops := x.ctrlDrops + 1 }) s)

/-- Uniform draw from 1 to 16 frames (R280). -/
def drawRetry (s : State) : Nat × State :=
  let d := draw s
  ((Config.randomWord d.1).toNat % 16 + 1, d.2)

/-- The port through which the response to a serial goes (R277): the one its request came by within the last 16 frames. -/
def routeOf (s : State) (serial : BitVec 64) : Option Nat :=
  (s.fl.routes.find? (fun r => r.1 == serial &&
    decide ((s.air.frame + 4294967296 - r.2.2) % 4294967296 ≤ 16))).map (·.2.1)

/-- A refusal travels back to its requester. -/
def refuse (r : JoinReq) (reason : Nat) (port : Nat) (s : State) : State :=
  let d := drawRetry s
  (enqueueRaw port ⟨{ src := some (s.fl.memberId.getD 0) },
    .joinResp ⟨reason, d.1, none, r.serial, 0⟩⟩ d.2).2.modFl (fun f => { f with
      nakNow := f.nakNow + 1, nakTotal := f.nakTotal + 1, nakReasons := f.nakReasons.mod reason (· + 1) })

/-- A frame joins the queue of a port. A JOIN_REQ dropped for it is answered with a refusal of reason RATE. -/
def enqueue (p : Nat) (f : CtrlFrame) (s : State) : State :=
  match enqueueRaw p f s with
  | (some ⟨_, .joinReq r⟩, s1) =>
    (match routeOf s1 r.serial with
     | some back => refuse r 1 back s1
     | none => s1)
  | (_, s1) => s1

/-! ## Sending (R264) -/

/-- A frame of this part's own, with its member ID as SRC. -/
def ownHead (s : State) : FrameHeader := { src := s.fl.memberId }

/-- A link-local frame. -/
def sendLink (p : Nat) (b : FrameBody) (s : State) : State := enqueue p ⟨{ ownHead s with ttl := 1 }, b⟩ s

/-- A frame towards the hub; a report too long for one goes in several. -/
def sendUp (b : FrameBody) (s : State) : State :=
  match upstreamPort s with
  | some p => (splitBody b).foldl (fun acc x => enqueue p ⟨{ ownHead s with up := true }, x⟩ acc) s
  | none => s

/-- A frame to one member below. -/
def sendTo (dest : Nat) (b : FrameBody) (s : State) : State :=
  match portTowards s dest with
  | some p => enqueue p ⟨{ ownHead s with dest := dest }, b⟩ s
  | none => s

/-- A frame to every member below. -/
def sendBelow (b : FrameBody) (s : State) : State :=
  (downPorts s).foldl (fun acc p => enqueue p ⟨{ ownHead s with bcast := true }, b⟩ acc) s

/-- A forwarder passes a frame on with one hop less, and discards one that would reach zero. -/
def forward (p : Nat) (f : CtrlFrame) (s : State) : State :=
  if f.head.ttl ≤ 1 then s else enqueue p { f with head := { f.head with ttl := f.head.ttl - 1 } } s

/-- A frame towards the hub goes on through a branch. -/
def forwardUp (f : CtrlFrame) (s : State) : State :=
  match upstreamPort s with
  | some p => forward p f s
  | none => s

/-- A broadcast goes on to every downstream port. -/
def forwardBelow (f : CtrlFrame) (s : State) : State := (downPorts s).foldl (fun acc p => forward p f acc) s

/-- A frame for one member goes on to the port whose subtree contains it. -/
def forwardTo (f : CtrlFrame) (s : State) : State :=
  match portTowards s f.head.dest with
  | some p => forward p f s
  | none => s

/-- The lane of the next data flit of a port: the next one in use in rising order (R260). -/
def nextLane (x : FlPort) : Option Nat :=
  match x.lastLane with
  | some l => if (x.lanes.find? (fun k => decide (l < k))).isSome then x.lanes.find? (fun k => decide (l < k)) else x.lanes.head?
  | none => x.lanes.head?

/-- A flit leaves at a port. Its sequence number is a free value: the model does not count the idle flits between (log entry
136). -/
def emitFlit (p kind flow blocks : Nat) (frames : List CtrlFrame) (l : List Block) (body : List Byte) (s : State) : State :=
  let d := draw s
  let lane := if kind = 1 then nextLane (s.fl.ports.get p) else none
  let s1 := if kind = 1 then modPort p (fun x => { x with lastLane := lane }) d.2 else d.2
  { s1 with wire :=
      { port := p, lane := lane, flow := flow, frames := frames, blocks := l
        bytes := flitBytes kind flow blocks (Config.freeNat d.1) body } :: s1.wire }

/-- Frames with their bytes. -/
def laidOut (l : List CtrlFrame) (s : State) : List (CtrlFrame × List Byte) :=
  l.mapIdx (fun k f => (f, frameBytes (Config.freeNat (s.drawn + 2 * k)) (Config.framePayload (s.drawn + 2 * k + 1)) f))

/-- In a loop tick the reserved slots of a lane carry five control flits; the frames at the head of a queue that fit into
them leave (R264, R265; the choice of the tick as the moment is log entry 19). -/
def drainQueue (s : State) (p : Nat) : State :=
  if portUp s p || portTrained s p then
    let q := (s.fl.ports.get p).queue
    let n := 5 * (max 1 (s.fl.ports.get p).lanes.length)
    let flits := (packFrames (laidOut q s)).reverse.take n
    let s1 := modPort p (fun x => { x with queue := x.queue.drop ((flits.map List.length).sum) })
      { s with drawn := s.drawn + 2 * q.length }
    flits.foldl (fun acc l => emitFlit p 2 0 0 (l.map (·.1)) [] ((l.map (·.2)).flatten) acc) s1
  else s

end Sys2Proof.Machine
end

