-- ==== Sys2Proof/Machine/Units.lean ====
section
/-! DEFINITION. Units and how they contain and feed one another: which band paths a chain carries, what feeds what, which
direction a chain serves, and the service state of a unit (R17, R56, R82, R118, R123, R159). -/

namespace Sys2Proof.Machine

open Sys2Proof

/-! ## Band paths and chains -/

/-- The existing ingress band paths. -/
def ibs (s : State) : List (Nat × BandPath) := s.ce.ib.cells.filterMap (fun p => p.2.map (fun b => (p.1, b)))

/-- The existing egress band paths. -/
def ebs (s : State) : List (Nat × BandPath) := s.ce.eb.cells.filterMap (fun p => p.2.map (fun b => (p.1, b)))

/-- A band path, if it exists. -/
def bandPath (s : State) (d : Dir) (n : Nat) : Option BandPath :=
  match d with
  | .ingress => s.ce.ib.get n
  | .egress => s.ce.eb.get n

/-- Changes a band path that exists. -/
def modBand (d : Dir) (n : Nat) (f : BandPath → BandPath) (s : State) : State :=
  match d with
  | .ingress => s.modCe (fun c => if (c.ib.get n).isSome then { c with ib := c.ib.mod n (fun x => x.map f) } else c)
  | .egress => s.modCe (fun c => if (c.eb.get n).isSome then { c with eb := c.eb.mod n (fun x => x.map f) } else c)

def ibExists (s : State) (n : Nat) : Bool := (s.ce.ib.get n).isSome
def ebExists (s : State) (n : Nat) : Bool := (s.ce.eb.get n).isSome

/-- The band path of a direction code (0 ingress, 1 egress) exists. -/
def dirOf (n : Nat) : Dir := if n = 0 then .ingress else .egress

/-- Chain of an ingress band path. -/
def ibChain (s : State) (n : Nat) : Nat := ((s.ce.ib.get n).map (·.params.chain)).getD 0

/-- Chain of an egress band path. -/
def ebChain (s : State) (n : Nat) : Nat := ((s.ce.eb.get n).map (·.params.chain)).getD 8

/-- The egress band paths of a transmit chain. -/
def ebsOfChain (s : State) (c : Nat) : List Nat := ((ebs s).filter (fun p => p.2.params.chain == c)).map (·.1)

/-- The ingress band paths of a receive chain. -/
def ibsOfChain (s : State) (c : Nat) : List Nat := ((ibs s).filter (fun p => p.2.params.chain == c)).map (·.1)

/-- Whether a chain carries downlink under a role; none when the role is UNSET (R56). -/
def chainDl (r : PartRole) (c : Nat) : Option Bool :=
  match r with
  | .hub => some (decide (c < 8))
  | .remote => some (decide (8 ≤ c))
  | .relay => some (decide (c < 4) || decide (12 ≤ c))
  | .unset => none

def dlChain (s : State) (c : Nat) : Bool := chainDl s.sys.role c == some true
def ulChain (s : State) (c : Nat) : Bool := chainDl s.sys.role c == some false

/-- A receive chain that faces the donor: a receive chain that carries downlink (R56). -/
def donorFacing (s : State) (c : Nat) : Bool := decide (c < 8) && dlChain s c

/-- The egress band paths that an ingress band path of this part feeds (R23). -/
def fedBy (s : State) (ib : Nat) : List Nat :=
  ((ebs s).filter (fun p => !p.2.params.srcFlow && p.2.params.srcId == ib)).map (·.1)

/-- Two carriers overlap in frequency (R83, R118). -/
def overlaps (x y : BpParams) : Bool :=
  decide (2 * (((x.center : Int) - y.center).natAbs) < x.bw + y.bw)

/-! ## Containment and service states (R17, R18, R147, R159) -/

/-- The part's own member ID in its flock (R123: 0 outside one). -/
def ownMember (s : State) : Nat := s.fl.memberId.getD 0

/-- The units that contain a unit (R159, R375): an egress band path lies in its chain, the cassette that the chain drives, its member
and the part. A lane lies in no unit that a fence takes with it, since a fenced part goes on forwarding (R376). -/
def containers (s : State) (u : UnitId) : List UnitId :=
  match u.kind with
  | .egress =>
    let c := ebChain s u.index
    [chainUnit c, cassetteUnit (c - 8), memberUnit (ownMember s), partUnit]
  | .ingress => [chainUnit (ibChain s u.index), memberUnit (ownMember s), partUnit]
  | .part | .lane => []
  | .member => if u.index = ownMember s then [partUnit] else []
  | _ => [memberUnit (ownMember s), partUnit]

/-- The fence set of TIME_LOSS: every egress band path on a TDD pattern, now or later (R40). -/
abbrev tddFence : UnitId := ⟨.part, 0x82⟩

/-- An egress band path that uses a TDD pattern. -/
def onPattern (s : State) (u : UnitId) : Bool :=
  u.kind == .egress && (match s.ce.eb.get u.index with
    | some b => b.params.tdd.isSome
    | none => false)

/-- A unit, or a unit that contains it, is PENNED. -/
def penned (s : State) (u : UnitId) : Bool :=
  s.fault.pens.any (fun p => p.unit == u || (containers s u).contains p.unit || (p.unit == tddFence && onPattern s u))

/-- A unit is in PADDOCK. -/
def inPaddock (s : State) (u : UnitId) : Bool := s.fault.paddock.contains u && !penned s u

/-- Service state code: 0 IN_SERVICE, 1 PENNED, 2 PADDOCK. -/
def serviceCode (s : State) (u : UnitId) : Nat := if penned s u then 1 else if inPaddock s u then 2 else 0

/-- The descriptors that are active here (R290). -/
def activeFlows (s : State) : List (Nat × Descriptor) := s.dv.desc.cells.filter (fun p => p.2.place.kind != 0)

/-- The units that a unit contains, itself first. -/
def contents (s : State) (u : UnitId) : List UnitId :=
  let inner : List UnitId := (ebs s).map (fun p => ebUnit p.1) ++ (ibs s).map (fun p => ibUnit p.1) ++
    (List.range 16).map chainUnit ++ (List.range 8).map cassetteUnit ++ (activeFlows s).map (fun p => flowUnit p.1) ++
    s.fl.memberId.toList.map memberUnit
  u :: inner.filter (fun v => v != u && (containers s v).contains u)

/-! ## Flock membership -/

/-- The part belongs, or is set to belong, to a flock: a role other than HUB joins one when it is enabled. -/
def inFlock (s : State) : Bool := s.fl.config.joinEnabled && s.fl.config.flockId.isSome

/-- The part is the flock's bellwether (R41): the active hub, or a RELAY outside a flock. -/
def bellwether (s : State) : Bool :=
  match s.sys.role with
  | .hub => activeHub s
  | .relay => !inFlock s
  | .remote | .unset => false

/-- A flow exists: it is active on this part, or an intent of the active hub names it. -/
def flowExists (s : State) (f : Nat) : Bool :=
  (s.dv.desc.get f).place.kind != 0 || s.dv.intents.cells.any (fun p => match p.2 with
    | some i => i.flow == f
    | none => false)

/-- The flows that an ingress band path of this part sources. -/
def flowsOf (s : State) (ib : Nat) : List Nat :=
  ((activeFlows s).filter (fun p => p.2.place.source && p.2.place.localBp == ib)).map (·.1)

/-- The ingress band paths of this part that source a flow. -/
def flowsSource (s : State) (f : Nat) : List Nat := ((ibs s).filter (fun p => (flowsOf s p.1).contains f)).map (·.1)

/-! ## Bindings of the control engine and the cassettes -/

/-- The slots that hold a loop. -/
def boundSlots (s : State) : List (Nat × Slot) := s.cl.slots.cells.filter (fun p => p.2.kind.isSome)

/-- Egress band path whose G_cmd a LEVEL or GAIN slot writes (R176). -/
def outputOf (x : Slot) : Option Nat := if x.kind = some .level ∨ x.kind = some .gain then some x.target else none

def slotOf (s : State) (n : Nat) : Slot := s.cl.slots.get n
def modSlot (n : Nat) (f : Slot → Slot) (s : State) : State := s.modCl (fun c => { c with slots := c.slots.mod n f })

/-- A slot of kind UL_NOISE or MARGIN (R178). -/
def isOuter (x : Slot) : Bool := x.kind == some .ulNoise || x.kind == some .margin

/-- A slot is enabled. -/
def slotEnabled (x : Slot) : Bool := x.kind.isSome && x.run != .disabled

/-- Period exponent p (R179). -/
def periodExp (s : State) (x : Slot) : Nat := if isOuter x then (slotOf s x.target).rate + x.rate else x.rate

/-- Engine cycles of one iteration. -/
def iterCycles : SlotKind → Nat
  | .level => 96 | .gain => 24 | .chainGain => 48 | .ulNoise => 64 | .margin => 64

/-- Sum of two fractions. -/
def addFrac (x y : Nat × Nat) : Nat × Nat := (x.1 * y.2 + y.1 * x.2, x.2 * y.2)

/-- The load, cycles per tick, as a fraction. -/
def loadOf (s : State) : Nat × Nat :=
  let slots := (boundSlots s).foldl (fun acc p =>
    let w := 2 ^ (16 - periodExp s p.2)
    acc + (if slotEnabled p.2 then ((p.2.kind.map iterCycles).getD 0) * w else 0) + (if p.2.inj.isSome then 8 * w else 0)) 0
  let traces := (List.range 8).map (fun j =>
    let t := s.cl.traces.get j
    let x := slotOf s t.slot
    if t.mode ≠ 0 ∧ x.kind.isSome then (8, 2 ^ periodExp s x * t.decimation) else (0, 1))
  let reps := (List.range 8).map (fun t => if (s.cl.reps.get t).enabled then (1536, s.rf.obsDwell) else (0, 1))
  (traces ++ reps).foldl addFrac (slots, 65536)

/-- The load rounded up. -/
def loadUp (s : State) : Nat := let f := loadOf s; (f.1 + f.2 - 1) / f.2

/-- A change from `s` to `t` is admitted (R182). -/
def loadAdmits (s t : State) : Bool :=
  let f := loadOf s
  let g := loadOf t
  decide (g.1 ≤ 13824 * g.2) || decide (g.1 * f.2 ≤ f.1 * g.2)

/-- A LEVEL or GAIN slot is bound to an egress band path (R177). -/
def outputLoopBound (s : State) (e : Nat) : Bool := (boundSlots s).any (fun p => outputOf p.2 == some e)

/-- A CHAIN_GAIN slot is bound to a receive chain (R62, R177). -/
def chainGainBound (s : State) (c : Nat) : Bool :=
  (boundSlots s).any (fun p => p.2.kind == some .chainGain && p.2.target == c)

/-- A control loop uses the detector of a band path (BP_DETECTOR). -/
def detectorUsed (s : State) (d : Dir) (n : Nat) : Bool :=
  d == .egress && (boundSlots s).any (fun p => p.2.kind == some .level && !p.2.obs && p.2.target == n)

/-- The forward detector of cassette `t` serves TX.A`t` (R173): the cassette is not ABSENT and its record has a slope. -/
def forwardServes (s : State) (t : Nat) : Bool :=
  (s.ps.cassettes.get t).pa != .absent && (s.ps.cassettes.get t).record.fwdSlope != 0

/-- LO_ACTUAL (R60). -/
def loActual (c lo : Nat) : Nat := ((lo : Int) + clampI 1 (Config.loError c lo)).toNat

/-! ## What a band path delivers (R85, R104, R105, R145) -/

/-- A receive chain delivers samples. -/
def chainDelivers (s : State) (c : Nat) : Bool :=
  let x := s.rf.chains.get c
  x.fe == .active && !x.gapped

/-- An ingress band path has no samples: its chain does not deliver (R105). -/
def ibLacks (s : State) (n : Nat) : Bool :=
  match s.ce.ib.get n with
  | none => true
  | some b => !chainDelivers s b.params.chain || b.phase == .waiting

/-- An ingress band path is PENNED or muted at its source: it measures on, but its consumers get GAPPED zeros (R85, R145). -/
def ibWithheld (s : State) (n : Nat) : Bool := penned s (ibUnit n) || (s.lg.hubHold.get n).active

/-- An ingress band path delivers GAPPED zeros. -/
def ibGapped (s : State) (n : Nat) : Bool := ibLacks s n || ibWithheld s n

/-- It delivers GAPPED zeros to an egress band path on this part: a FENCE or mute of another band path never acts on a protected
one (R159). -/
def ibGappedFor (s : State) (n : Nat) (p : BpParams) : Bool := ibLacks s n || (ibWithheld s n && !p.protected_)

/-- An ingress band path delivers blocks that carry SETTLING after which the egress stays muted (R101, R102). -/
def ibSettling (s : State) (n : Nat) : Bool :=
  match s.ce.ib.get n with
  | none => false
  | some b => b.phase != .idle

/-! ## Rates (R89, R101, R156) -/

/-- Output sample period P, Tc. -/
def samplePeriod (d : Nat) : Nat := 2 ^ (d + 1)

/-- Output rate, kS/s. -/
def rateKsps (d : Nat) : Nat := 983040 / 2 ^ d

/-- F = ceil(10 µs × r), samples. -/
def fadeSamples (d : Nat) : Nat := (98304 + 10 * 2 ^ d - 1) / (10 * 2 ^ d)

/-- Duration of F samples, Tc. -/
def fadeTc (d : Nat) : Nat := fadeSamples d * samplePeriod d

/-- The parameters a band path has or is about to take. -/
def aimedParams (b : BandPath) : BpParams := b.next.getD b.params

/-- Budget cost of an instance, taps × kS/s (R134). -/
def tapCost (s : State) (k : Canceller) : Nat :=
  match s.ce.ib.get k.ib with
  | some b => if k.state = .idle then 0 else k.clusters * k.taps * rateKsps (aimedParams b).stages
  | none => 0

/-- The budget in use (R134), with the ingress band path of `at_` at the stages given there. -/
def tapsUsedWith (at_ : Option (Nat × Nat)) (s : State) : Nat :=
  (s.lg.canc.cells.map (fun p =>
    match at_ with
    | some (n, d) => if p.2.ib = n ∧ p.2.state ≠ .idle then p.2.clusters * p.2.taps * rateKsps d else tapCost s p.2
    | none => tapCost s p.2)).sum

/-- The budget in use (R134). -/
def tapsUsed (s : State) : Nat := tapsUsedWith none s

/-- The budget of R134, taps × kS/s. -/
abbrev tapBudget : Nat := 2013265920

/-! ## Filters and delays (R90, R93) -/

/-- Half-band lengths N_E, N_P, N_F of a preset (R90). -/
def halfBand (preset : Nat) : Nat × Nat × Nat :=
  [(19, 23, 83), (15, 19, 59), (15, 15, 35), (11, 11, 23)].getD preset (11, 11, 23)

/-- H(d), Tc (R93). -/
def halfBandDelay (preset d : Nat) : Nat :=
  let (e, p, f) := halfBand preset
  if d ≤ 1 then f - 1 else (e - 1) * (2 ^ (d - 2) - 1) + (p - 1) * 2 ^ (d - 2) + (f - 1) * 2 ^ (d - 1)

/-- τ_IB or τ_EB, Tc (R93). -/
def groupDelay (d : Dir) (p : BpParams) : Nat :=
  (match d with
   | .ingress => 420
   | .egress => 448) + 24 + halfBandDelay p.preset p.stages

end Sys2Proof.Machine
end

