-- ==== Sys2Proof/Machine/Power.lean ====
section
/-! DEFINITION. The 128 power domains of R20 and the power model of R26: one figure for each powered domain and each load
configured in it. The spec gives totals of whole profiles only, so the figures themselves are free (log entry 9). -/

namespace Sys2Proof.Machine

open Sys2Proof

/-! ## Power domains (table *Power domains*), numbered in the order of the table -/

/-- Number of power domains. -/
abbrev domainCount : Nat := 128
abbrev domObs : Nat := 16
abbrev domBell : Nat := 18
abbrev domReferences : Nat := 19
abbrev domIngress : Nat := 20
abbrev domEgress : Nat := 36
abbrev domDpd : Nat := 52
abbrev domCanceller : Nat := 60
abbrev domBeacon : Nat := 68
abbrev domSearcher : Nat := 69
abbrev domMargins : Nat := 70
abbrev domControl : Nat := 71
abbrev domLane : Nat := 72
abbrev domPll : Nat := 96
abbrev domSwitching : Nat := 99
abbrev domDrover : Nat := 101
abbrev domHbm : Nat := 102
abbrev domNvme : Nat := 106
abbrev domPcie : Nat := 107
abbrev domEthernet : Nat := 108
abbrev domModem : Nat := 115
abbrev domCassette : Nat := 118
abbrev domAlwaysOn : Nat := 127

/-- The instances that LG_CANCEL_CONFIG configures and that wait for their slot boundary. -/
def waitingInstances (s : State) : List Nat :=
  (s.lg.waiting.filter (fun x => x.1 == 0x0503 && u8 x.2 1 == 1)).map (fun x => u8 x.2 0)

/-- The canceller instances in use. -/
def instancesInUse (s : State) : List Nat :=
  let on := (s.lg.canc.cells.filter (fun p => p.2.state != .idle)).map (·.1)
  on ++ (waitingInstances s).filter (fun i => !on.contains i)

/-- A lane is powered (R259). -/
def laneOn (s : State) (l : Nat) : Bool := (s.fl.lanes.get l).state != .off

/-- Any lane is powered. -/
def anyLane (s : State) : Bool := (List.range 24).any (laneOn s)

/-- Stack 1 is powered, or a command waits for it (R314). -/
def stack1On (s : State) : Bool := s.mem.stack1 || s.mem.powering.isSome

/-- At least one resource in a domain is configured for use (R20). -/
def domainUsed (s : State) (d : Nat) : Bool :=
  if d < domObs then (s.rf.chains.get d).fe != .off
  else if d < domBell then (List.range 8).any (fun t => s.rf.obsMap.get t == some (d - domObs))
  else if d = domBell then s.bell.rx != .off
  else if d = domReferences then true
  else if d < domEgress then (ibs s).any (fun p => p.1 / 8 == d - domIngress)
  else if d < domDpd then (ebs s).any (fun p => p.1 / 8 == d - domEgress)
  else if d < domCanceller then (s.ce.dpd.get (d - domDpd)).state != .off
  else if d < domBeacon then (instancesInUse s).any (fun i => i / 4 == d - domCanceller)
  else if d = domSearcher then s.lg.searchMask != 0
  else if d < domControl then !(ebs s).isEmpty
  else if d = domControl then !(boundSlots s).isEmpty
  else if d < domPll then laneOn s (d - domLane)
  else if d < domSwitching then (List.range 8).any (fun k => laneOn s (8 * (d - domPll) + k))
  else if d < domHbm then anyLane s
  else if d < domNvme then (d - domHbm) % 2 == 0 || stack1On s
  else if d = domNvme then s.mem.enable
  else if d = domPcie then s.host.pcieUp
  else if d = domEthernet then s.host.ethUp
  else if d = domModem then s.bell.rx != .off
  else if d < domCassette then true
  else if d < 126 then (s.ps.cassettes.get (d - domCassette)).pa != .absent
  else true

/-- A domain stays unpowered in STANDBY: chains, OBS, slices, DPD, loop guard and control engine (R453). -/
def offInStandby (d : Nat) : Bool := decide (d < domBell) || (decide (domIngress ≤ d) && decide (d < domLane))

/-- A domain is powered in a power state (R20, R452). -/
def domainIn (p : PowerState) (s : State) (d : Nat) : Bool :=
  match p with
  | .dormant => d == domAlwaysOn
  | .standby => !offInStandby d && domainUsed s d
  | _ => domainUsed s d || (decide (d < domObs) && (s.rf.chains.get d).resume != .off)

/-- A domain is powered now. -/
def domainOn (s : State) (d : Nat) : Bool := domainIn s.sys.power s d

/-- The power state that the power model counts with: the one in force, or that to which an exit from STANDBY leads. -/
def countedState (s : State) : PowerState :=
  match s.sys.move with
  | some m => if s.sys.power = .standby ∧ (m.target = .active ∨ m.target = .quiet) then m.target else s.sys.power
  | none => s.sys.power

/-- The domains that the power model counts. -/
def countedDomains (s : State) : List Nat := (List.range domainCount).filter (domainIn (countedState s) s)

/-! ## The power model (R26) -/

/-- Numbers of the configured loads, above those of the domains. -/
abbrev loadBand : Nat := 130
abbrev loadCanceller : Nat := 150
abbrev loadSlot : Nat := 151
abbrev loadCapture : Nat := 152
abbrev loadRefresh : Nat := 153
abbrev loadCassette : Nat := 160

/-- The load of the band paths, cancellers and loops. -/
def signalLoads (s : State) : List Nat :=
  (ibs s).map (fun p => loadBand + (aimedParams p.2).stages) ++ (ebs s).map (fun p => loadBand + (aimedParams p.2).stages) ++
  (instancesInUse s).map (fun _ => loadCanceller) ++ (boundSlots s).map (fun _ => loadSlot)

/-- The load of captures, and of cassettes whose drain is on or will be. -/
def stageLoads (s : State) : List Nat :=
  (s.mem.slots.cells.filter (fun p => p.2.state == .armed || p.2.state == .triggered)).map (fun _ => loadCapture) ++
  ((List.range 8).filter (fun n =>
    let x := s.ps.cassettes.get n
    x.pa == .drainUp || x.pa == .ready || x.enabling.isSome)).map (loadCassette + ·)

/-- The configured loads of the powered domains. -/
def loads (s : State) : List Nat :=
  match countedState s with
  | .dormant => []
  | .standby => [loadRefresh]
  | _ => signalLoads s ++ stageLoads s

/-- Modelled package power, mW (R26). -/
def modelledPower (s : State) : Nat := ((countedDomains s ++ loads s).map s.sys.powerFigures.get).sum

end Sys2Proof.Machine
end

