-- ==== Sys2Proof/Machine/Mailbox.lean ====
section
/-! DEFINITION. The mailbox protocol (R421–R430): what a command is to the part, the order in which its conditions
are checked, how it runs, and how its response leaves. Every command row of the table is one `CommandSpec`. -/

namespace Sys2Proof.Machine

open Sys2Proof

/-! ## Requests as they run -/

/-- Where a running command comes from: a mailbox, a schedule that fired (R50), or a keeper's internal session (R357). -/
inductive Origin where
  | mailbox (n : Nat) (path : HostPath)
  | scheduled (x : Scheduled)
  | keeper (role : Role)

/-- A command as it runs. -/
structure Req where
  opcode  : Nat
  flags   : BitVec 16
  tag     : Nat
  length  : Nat
  session : Nat
  payload : List Byte
  origin  : Origin

/-- The running form of a request captured by a mailbox. -/
def reqOf (opcode : Nat) (r : HostRequest) : Req :=
  { opcode, flags := r.flags, tag := r.tag, length := r.length, session := r.session, payload := r.payload
    origin := .mailbox r.mailbox r.path }

/-- What a command leaves for its completion event. -/
def ticketOf (q : Req) : Ticket :=
  match q.origin with
  | .mailbox n _ => { opcode := q.opcode, tag := q.tag, mailbox := n, session := q.session }
  | .scheduled x =>
    { opcode := q.opcode, tag := q.tag, mailbox := x.mailbox, session := x.session, handle := some x.handle
      late := x.late }
  | .keeper _ => { opcode := q.opcode, tag := q.tag, mailbox := 0xFF }

/-- The session table place of an open session on a path (R429, R430). -/
def sessionPlace (h : HostState) (id : Nat) (path : HostPath) : Option Nat :=
  if id = 0 then none
  else (List.range 16).find? (fun k => match h.sessions.get k with
    | some x => x.id == id && x.path == path
    | none => false)

/-- Role with which a command runs; none without a session (R430, R50, R357). -/
def reqRole (s : State) (q : Req) : Option Role :=
  match q.origin with
  | .mailbox _ path =>
    match sessionPlace s.host q.session path with
    | some k => (s.host.sessions.get k).map (·.role)
    | none => none
  | .scheduled x => some x.role
  | .keeper r => some r

/-- The path on which a command arrived. -/
def reqPath (q : Req) : HostPath :=
  match q.origin with
  | .mailbox _ p => p
  | .scheduled x => x.path
  | .keeper _ => .none

/-- Mailbox 0 runs only requests of ADMIN sessions (R430). -/
def onMailboxZero (q : Req) : Bool :=
  match q.origin with
  | .mailbox n _ => n == 0
  | _ => false

/-! ## Checks (R425, R426) -/

/-- One check of a command: whether it fails, and the status and detail it then gives. -/
structure Chk where
  bad    : Bool
  status : Status
  detail : Nat

/-- A field that must hold one of its valid values; `off` is its offset within the payload (R426). -/
def field (off : Nat) (ok : Bool) : Chk := ⟨!ok, .eRange, off⟩

/-- A condition with a status and no detail. -/
def need (st : Status) (ok : Bool) : Chk := ⟨!ok, st, 0⟩

/-- A condition with a status and a detail. -/
def needD (st : Status) (detail : Nat) (ok : Bool) : Chk := ⟨!ok, st, detail⟩

/-- What a command answers. `deferred`: the response waits for hardware and is written later (R424). -/
structure Reply where
  status   : Status := .ok
  detail   : Nat := 0
  payload  : List Byte := []
  deferred : Bool := false

/-- One command of the opcode groups (R438). -/
structure CommandSpec where
  opcode    : Nat
  /-- Role it needs; none for a command that needs no session (R430). -/
  role      : Option Role
  /-- Further conditions of E_PERM. -/
  perm      : State → Req → Bool := fun _ _ => true
  /-- Power states in which it is accepted. -/
  power     : List PowerState := [.active, .quiet, .standby]
  /-- Lifecycle states in which it is accepted. -/
  lifecycle : List Lifecycle := [.blank, .provisioned, .deployed, .returned]
  /-- E_LENGTH: the detail of R426 when the length is wrong. -/
  length    : Req → Option Nat
  /-- E_STATE conditions on the part as a whole. -/
  states    : State → Req → Bool := fun _ _ => true
  /-- The other checks, in the order of R425. -/
  checks    : State → Req → List Chk := fun _ _ => []
  /-- What it does once accepted. -/
  effect    : State → Req → State × Reply
  /-- What a rejection leaves behind where its rule says so (R428). -/
  reject    : State → Req → Status → State := fun s _ _ => s

/-- Length rule of a command of fixed length (R426). -/
def fixedLength (n : Nat) (q : Req) : Option Nat := if q.length = n then none else some 0x8000_0008

/-- E_PERM (R430). -/
def permitted (c : CommandSpec) (s : State) (q : Req) : Bool :=
  (match c.role with
   | none => true
   | some need =>
     match reqRole s q with
     | some r => decide (need.code ≤ r.code)
     | none => false) &&
  (!onMailboxZero q || reqRole s q == some .admin) && c.perm s q

/-- The first failing check of a list. -/
def firstBad (l : List Chk) : Option (Status × Nat) :=
  match l.find? (·.bad) with
  | some c => some (c.status, c.detail)
  | none => none

/-- The modelled package power after `s'` would exceed POWER_LIMIT by a rise from `s` (R26). -/
def powerExceeded (s s' : State) : Bool :=
  decide (s.sys.powerLimit < modelledPower s') && decide (modelledPower s < modelledPower s')

/-- Validation in the order of R425. `noState` leaves out every E_STATE condition (R50). The power model's E_RESOURCE
comes before E_CONFLICT. -/
def validate (c : CommandSpec) (noState : Bool) (s : State) (q : Req) : Option (Status × Nat) :=
  if permitted c s q = false then some (.ePerm, 0)
  else if 2032 < q.length then some (.eLength, 0x8000_0008)
  else
    match c.length q with
    | some d => some (.eLength, d)
    | none =>
      if noState = false ∧
          (c.power.contains s.sys.power && c.lifecycle.contains s.sys.lifecycle && c.states s q) = false then
        some (.eState, 0)
      else if (q.flags >>> 1) ≠ 0 then some (.eRange, 0x8000_0002)
      else
        match firstBad ((c.checks s q).filter (fun k => !(noState && k.status == .eState))) with
        | some (.eConflict, d) =>
          if powerExceeded s (c.effect s q).1 then some (.eResource, 0) else some (.eConflict, d)
        | some x => some x
        | none => if powerExceeded s (c.effect s q).1 then some (.eResource, 0) else none

/-! ## Responses -/

/-- The mailbox takes its response and becomes DONE; MB_DONE is set; an Ethernet mailbox sends the response; a final
status with EVENT_ALWAYS posts a completion event (R421, R415, R427). A response discarded by R414 leaves it IDLE. -/
def writeResponse (n : Nat) (q : Req) (st : Status) (detail : Nat) (payload : List Byte) (s : State) : State :=
  let mb := s.host.mailboxes.get n
  let resp : Response :=
    { status := st.code, opcode := q.opcode, tag := q.tag, detail := detail % 4294967296
      payload := if st = .ok ∨ st = .accepted then payload else [] }
  if mb.discard then
    s.modHost (fun h => { h with
      mailboxes := h.mailboxes.set n { mb with state := .idle, captured := none, discard := false } })
  else
    let s1 := s.modHost (fun h =>
      let h1 : HostState := { h with
        mailboxes := h.mailboxes.set n { mb with
          state := .done, captured := none, response := resp, lastStatus := st.code, lastOpcode := q.opcode } }
      let h2 : HostState := if h1.config.paths.get n = .ethernet then
          { h1 with out := .ethResponse n (mb.xid.getD 0) resp :: h1.out } else h1
      setIrqBits h2 (1#32 <<< n))
    if q.flags.getLsbD 0 ∧ st ≠ .accepted then complete (ticketOf q) st detail s1 else s1

/-- The answer of a command goes to where it came from. -/
def deliver (q : Req) (st : Status) (detail : Nat) (payload : List Byte) (s : State) : State :=
  match q.origin with
  | .mailbox n _ => writeResponse n q st detail payload s
  | .scheduled _ => complete (ticketOf q) st detail s
  | .keeper _ =>
    let resp : Response :=
      { status := st.code, opcode := q.opcode, tag := q.tag, detail := detail % 4294967296
        payload := if st = .ok ∨ st = .accepted then payload else [] }
    s.modHost (fun h => { h with internalReply := some resp })

/-- The command's mailbox is RUNNING and counts it; its session notes a request (R421, page 10). -/
def noteStart (q : Req) (s : State) : State :=
  match q.origin with
  | .mailbox n path =>
    s.modHost (fun h =>
      let h1 : HostState := { h with
        mailboxes := h.mailboxes.mod n (fun m => { m with state := .running, started := m.started + 1 }) }
      match sessionPlace h q.session path with
      | some k => { h1 with
          sessions := h1.sessions.mod k (fun x => x.map (fun y =>
            { y with requests := y.requests + 1, last := s.air.mono })) }
      | none => h1)
  | _ => s

/-- A rejected command is counted by its mailbox (page 10). -/
def noteReject (q : Req) (s : State) : State :=
  match q.origin with
  | .mailbox n _ =>
    s.modHost (fun h => { h with mailboxes := h.mailboxes.mod n (fun m => { m with rejected := m.rejected + 1 }) })
  | _ => s

/-! ## Mirroring to a standby hub (R473) -/

/-- Commands that change the stored or running configuration of the radio, the flock's flows and the keepers. What
belongs to one part of a pair alone (its host paths, ports, keys, lifecycle, images, power state, captures) is not
mirrored (log entry 30). -/
def mirroredOpcodes : List Nat :=
  [0x0201, 0x0204, 0x0205, 0x0301, 0x0302, 0x0303, 0x0306, 0x0307, 0x0401, 0x0402, 0x0403, 0x0405, 0x0410, 0x0411,
   0x0501, 0x0502, 0x0503, 0x0504, 0x0505, 0x0506] ++
  [0x0601, 0x0602, 0x0603, 0x0604, 0x0605, 0x0606, 0x0607, 0x0608, 0x0701, 0x0702, 0x0703, 0x0704, 0x0705, 0x0706, 0x070A,
   0x0801, 0x0802, 0x0803, 0x0804, 0x0805, 0x0806, 0x0808, 0x0901, 0x0905, 0x0906] ++
  [0x0B01, 0x0B02, 0x0B03, 0x0B06, 0x0D03, 0x0E01, 0x0E02, 0x0F01, 0x1003]

/-- A standby takes the mirrored items: it is synchronised, or a bulk transfer to it runs. -/
def standbyListens (p : PairState) : Bool := p.phase == .activePaired || (p.phase == .activeAlone && p.bulk.isSome)

/-- An item joins those that go to the standby, with the next mirror sequence number. -/
def mirrorItem (i : PairItem) (s : State) : State :=
  if activeHub s && standbyListens s.pair then
    s.modPair (fun p => { p with seqSent := p.seqSent + 1, outgoing := p.outgoing ++ [(p.seqSent + 1, i)] })
  else s

/-- At completion of a command that changes the configuration of an active hub of a pair, it is kept and mirrored. -/
def mirrorCommand (q : Req) (s : State) : State :=
  if s.pair.config.enable && activeHub s && mirroredOpcodes.contains q.opcode then
    let b := bytesAt q.payload 0 q.length
    mirrorItem (.command q.opcode b) (s.modPair (fun p => { p with mirrored := p.mirrored ++ [(q.opcode, b)] }))
  else s

/-- A command runs: validation, then its immediate effect, then its response (R424, R425). -/
def runCommand (c : CommandSpec) (q : Req) (s : State) : State :=
  let s1 := noteStart q s
  match validate c false s1 q with
  | some (st, d) => deliver q st d [] (noteReject q (c.reject s1 q st))
  | none =>
    let e := c.effect s1 q
    let m := mirrorCommand q e.1
    if e.2.deferred then m else deliver q e.2.status e.2.detail e.2.payload m

/-- A request whose opcode is not assigned (R425). -/
def runUnassigned (q : Req) (s : State) : State :=
  deliver q .eOpcode 0 [] (noteReject q (noteStart q s))

/-- The packet of the Bell queue that waits for this command's response (R357). -/
def awaitsReply (t : Ticket) (x : BellTx) : Bool :=
  match x.waiting with
  | some w => w.reply.isNone && w.opcode == t.opcode && w.tag == t.tag
  | none => false

/-- The response of a keeper's COMMAND goes to the packet that waits for it; when none waits any more the command's outcome
is posted to the event ring (R357). -/
def finishKeeper (t : Ticket) (st : Status) (detail : Nat) (payload : List Byte) (s : State) : State :=
  match s.bell.queue.find? (awaitsReply t) with
  | none => complete t st detail s
  | some x =>
    let resp : Response :=
      { status := st.code, opcode := t.opcode, tag := t.tag, detail := detail % 4294967296
        payload := if st = .ok ∨ st = .accepted then payload else [] }
    s.modBell (fun b => { b with queue := b.queue.map (fun y =>
      if y.header.seq = x.header.seq then { y with waiting := y.waiting.map (fun w => { w with reply := some resp }) } else y) })

/-- The response of a command that waited for hardware (R424): to its mailbox, to its keeper, or as its completion event
when it was fired by a schedule. -/
def finishDeferred (t : Ticket) (st : Status) (detail : Nat) (payload : List Byte) (s : State) : State :=
  if t.handle.isSome then complete t st detail s
  else if 16 ≤ t.mailbox then finishKeeper t st detail payload s
  else
    match (s.host.mailboxes.get t.mailbox).captured with
    | some c => writeResponse t.mailbox (reqOf c.opcode c.request) st detail payload s
    | none => s

/-! ## Doorbells (R421–R424) -/

/-- A doorbell that is ignored sets the mailbox's bit of DOORBELL_OVERRUN (R422). -/
def ignoreDoorbell (n : Nat) (s : State) : State :=
  s.modHost (fun h =>
    let h1 : HostState := { h with
      overrun := h.overrun ||| (1#16 <<< n)
      mailboxes := h.mailboxes.mod n (fun m => { m with ignored := m.ignored + 1 }) }
    setIrqBits h1 (1#32 <<< irqOverrun))

/-- A doorbell from this path on this mailbox is not ignored (R422). -/
def doorbellAccepted (h : HostState) (n : Nat) (path : HostPath) : Bool :=
  decide (n < 16) && h.config.paths.get n == path && path != .none &&
    ((h.mailboxes.get n).state == .idle || (h.mailboxes.get n).state == .done)

/-- A doorbell captures its request: the mailbox is PENDING and registered (R421, R424). -/
def capture (opcode : Nat) (r : HostRequest) (s : State) : State :=
  s.modHost (fun h => { h with
    mailboxes := h.mailboxes.mod r.mailbox (fun m => { m with state := .pending, captured := some ⟨opcode, r⟩ })
    order := h.order ++ [r.mailbox] })

/-- The mailbox's command leaves the queue of registered doorbells. -/
def unregister (n : Nat) (s : State) : State := s.modHost (fun h => { h with order := without h.order n })

/-- A host rings its mailbox with this command. Before READY the doorbell is held; behind another registered doorbell
it waits for its turn (R423, R424); otherwise the command starts. -/
def submit (c : CommandSpec) (r : HostRequest) (s : State) : State :=
  if doorbellAccepted s.host r.mailbox r.path = false then
    if r.mailbox < 16 then ignoreDoorbell r.mailbox s else s
  else
    let s1 := capture c.opcode r s
    if s.sys.ready = false ∨ s.host.order ≠ [] then s1
    else runCommand c (reqOf c.opcode r) (unregister r.mailbox s1)

end Sys2Proof.Machine
end

