-- ==== Sys2Proof/Machine/Logbook.lean ====
section
/-! DEFINITION. The Logbook (R392–R411): the one writer, its banks, modes, seals and mirror, and the commands and events
of the chapter *Logbook*. -/

namespace Sys2Proof.Machine

open Sys2Proof

/-! ## Record bytes (R392) -/

/-- One bit step of CRC-32C in its reflected form, polynomial 0x1EDC6F41 (R392). -/
def crcStep (c : BitVec 32) : BitVec 32 := if c.getLsbD 0 then (c >>> 1) ^^^ 0x82F63B78#32 else c >>> 1

/-- One byte of CRC-32C. -/
def crcByte (c : BitVec 32) (b : Byte) : BitVec 32 :=
  crcStep (crcStep (crcStep (crcStep (crcStep (crcStep (crcStep (crcStep (c ^^^ b.setWidth 32))))))))

/-- CRC-32C with initial value 0xFFFF_FFFF and final inversion (R392). -/
def crc32c (l : List Byte) : BitVec 32 := ~~~(l.foldl crcByte 0xFFFFFFFF#32)

/-- Bytes 0–59 of a record (table *Record layout*). -/
def recordBody (r : Record) : List Byte :=
  le 4 r.seq ++ le 2 r.epoch ++ le 2 r.code ++ le 8 r.mono ++ le 8 r.wall ++ le 2 r.source ++ le 1 r.severity ++
    le 1 r.flags ++ le 2 r.repeats ++ le 2 r.suppressed ++ ((List.range 6).map (fun i => le 4 (r.params.getD i 0))).flatten ++
    le 4 r.lastRepeat

/-- The 64 bytes of a record. -/
def recordBytes (r : Record) : List Byte := recordBody r ++ le 4 (crc32c (recordBody r)).toNat

/-- The bytes of a 384-bit digest, most significant first. -/
def digestBytes (v : BitVec 384) : List Byte := (List.range 48).map (fun i => (v >>> (8 * (47 - i))).setWidth 8)

/-! ## The record store -/

/-- The records held in the active bank, or in the emergency registers while no bank is active (R406). -/
def heldRecords (l : LogState) : List Record :=
  match l.active with
  | some .bankA => l.bankA.records
  | some .bankB => l.bankB.records
  | none => l.emergency

/-- The store with its record list replaced. -/
def setHeld (l : LogState) (rs : List Record) : LogState :=
  match l.active with
  | some .bankA => { l with bankA := { l.bankA with records := rs } }
  | some .bankB => { l with bankB := { l.bankB with records := rs } }
  | none => { l with emergency := rs }

/-- The sequence number after `n` (R395). -/
def nextSeq (n : Nat) : Nat := if n = 0xFFFF_FFFE then 1 else n + 1

/-- A sequence number is noted as changed since it was mirrored and sent to the standby (R407, R408). -/
def noteChange (seq t : Nat) (l : LogState) : LogState :=
  { l with
    unmirrored := if l.unmirrored.contains seq then l.unmirrored else l.unmirrored ++ [seq]
    pairDirty := if l.pairDirty.contains seq then l.pairDirty else l.pairDirty ++ [seq]
    lastChange := t }

/-- Commits a record with the next sequence number (R396). -/
def pushRecord (t : Nat) (r : Record) (l : LogState) : LogState :=
  let seq := nextSeq l.head
  let r1 : Record := { r with seq := seq, epoch := l.epoch }
  noteChange seq t { setHeld l (r1 :: heldRecords l) with head := seq, span := r1 :: l.span }

/-- Changes the most recent record (R396, R398). -/
def changeLast (t : Nat) (f : Record → Record) (l : LogState) : LogState :=
  match heldRecords l with
  | [] => l
  | r :: rest =>
    noteChange r.seq t { setHeld l (f r :: rest) with
      span := match l.span with
        | [] => []
        | x :: xs => (if x.seq = r.seq then f x else x) :: xs }

/-- The seal of the span since the last one (R404): HMAC-SHA-384 with the log key over the previous seal's 24 bytes, or
24 zero bytes when LOG_START lies in the span, and the records as committed. -/
def sealOf (key : List Byte) (l : LogState) : List Byte :=
  let prev := if l.span.any (fun r => r.code == 0x0100) then List.replicate 24 0 else l.sealBytes
  (digestBytes (Config.hmacSha384 key (prev ++ (l.span.reverse.map recordBytes).flatten))).take 24

/-- Room for ordinary records: 65,535 slots of a bank, 16 emergency registers (R401, R406). -/
def ordinaryRoom (l : LogState) : Nat :=
  match l.active with
  | some _ => 65535 - (heldRecords l).length
  | none => 16 - l.emergency.length

/-- LOG_SEAL is committed when the next sequence number would be a multiple of 1,024 (R404). -/
def commitSeal (key : List Byte) (t wall : Nat) (l : LogState) : LogState :=
  if nextSeq l.head % 1024 = 0 ∧ 0 < ordinaryRoom l then
    let b := sealOf key l
    let r : Record :=
      { code := 0x0105, mono := t, wall := wall, source := sourceIndex 10 0
        params := (List.range 6).map (fun i => u32 b (4 * i)) }
    let l1 := pushRecord t r l
    { l1 with sealBytes := b, sealSeq := l1.head, span := [] }
  else l

/-- An event that gets no record is counted in LOST, and in LOG_FULL (R401, R406). -/
def loseEvent (t : Nat) (l : LogState) : LogState :=
  let n := satInc 32 l.lost
  if l.full then changeLast t (fun r => { r with params := params6 (n :: r.params.tail) }) { l with lost := n }
  else { l with lost := n }

/-- A submission repeats the most recent record and may be merged into it (R398). -/
def mergesInto (x : Submission) (r : Record) : Bool :=
  !(x.code / 0x100 == 1) && r.code == x.code && r.source == x.source && r.severity == x.severity &&
    r.flags == x.flags && r.params == x.params && decide (r.repeats < 65535)

/-- Records that the IG-compatible mode never limits (R399). -/
def neverLimited (x : Submission) : Bool :=
  x.code / 0x100 == 1 || decide (0xF000 ≤ x.code) || decide (0x11FF < x.code) ||
    (decide (x.code < 0x100) && (decide (3 ≤ x.severity) || x.params.getD 2 0 != 0))

/-- The record of a submission. -/
def recordOf (x : Submission) (wall suppressed : Nat) : Record :=
  { code := x.code, mono := x.mono, wall := wall, source := x.source, severity := x.severity, flags := x.flags
    params := x.params, suppressed := suppressed }

/-- Commits a submission as a new record, sealing first and closing a full bank with LOG_FULL (R401, R404). The answer
says whether the submission itself was committed. -/
def commitNew (key : List Byte) (t wall : Nat) (x : Submission) (suppressed : Nat) (l : LogState) : LogState × Bool :=
  let l1 := commitSeal key t wall l
  if 0 < ordinaryRoom l1 then (pushRecord t (recordOf x wall suppressed) l1, true)
  else
    match l1.active with
    | some _ =>
      ({ pushRecord t { code := 0x0101, mono := t, wall := wall, source := sourceIndex 10 0
                        params := params6 [1, l1.head] } l1 with lost := 1, full := true }, false)
    | none => (loseEvent t l1, false)

/-- The window of a code still runs at instant `t` (R399). -/
def igOpen (w : IgWindow) (window t : Nat) : Bool :=
  match w.openedAt with
  | some t0 => decide (t < t0 + tcOfMs window)
  | none => false

/-- The writer handles one submission (R395–R401); the answer is its sequence number, or 0 when it was merged,
suppressed or lost. -/
def writeOne (key : List Byte) (t wall : Nat) (x : Submission) (l : LogState) : LogState × Nat :=
  if l.full then (loseEvent t l, 0)
  else if l.ig then
    let w := l.igCodes.get x.code
    if neverLimited x then
      let c := commitNew key t wall x w.suppressed l
      if c.2 then
        ({ c.1 with igCodes := c.1.igCodes.set x.code { w with suppressed := 0 } }, c.1.head)
      else (c.1, 0)
    else if igOpen w l.igWindow x.mono ∧ l.igLimit ≤ w.committed then
      ({ l with igCodes := l.igCodes.set x.code { w with suppressed := satInc 16 w.suppressed } }, 0)
    else
      let c := commitNew key t wall x w.suppressed l
      if c.2 then
        let w1 : IgWindow :=
          if igOpen w l.igWindow x.mono then { w with committed := w.committed + 1, suppressed := 0 }
          else { openedAt := some x.mono, committed := 1, suppressed := 0 }
        ({ c.1 with igCodes := c.1.igCodes.set x.code w1 }, c.1.head)
      else (c.1, 0)
  else
    match heldRecords l with
    | r :: _ =>
      if mergesInto x r ∧ 0 < ordinaryRoom l then
        (changeLast t (fun y => { y with repeats := y.repeats + 1, lastRepeat := x.mono % 4294967296 }) l, 0)
      else
        let c := commitNew key t wall x 0 l
        (c.1, if c.2 then c.1.head else 0)
    | [] =>
      let c := commitNew key t wall x 0 l
      (c.1, if c.2 then c.1.head else 0)

/-- The writer handles a submission in the part's state; the answer is its sequence number or 0. -/
def writeSubmission (x : Submission) (s : State) : State × Nat :=
  let r := writeOne s.sys.keys.log (now s) (wallAt s x.mono) x s.log
  ({ s with log := r.1 }, r.2)

/-- The writer handles a waiting submission; a LOG_WRITE that waits answers. -/
def commitOne (s : State) (x : Submission) : State :=
  let w := writeSubmission x s
  match x.ticket with
  | some t => finishDeferred t .ok 0 (le 4 w.2) w.1
  | none => w.1

/-- The writer handles every waiting submission in order of arrival (R395), unless LOG_MEDIA is awaited (R405). -/
def drainSubmissions (s : State) : State :=
  if s.log.mediaWait then s
  else s.log.submissions.foldl commitOne (s.modLog (fun l => { l with submissions := [] }))

/-- Commits a record at once, behind every submission that waits. -/
def writeNow (code source severity flags : Nat) (params : List Nat) (s : State) : State × Nat :=
  writeSubmission { code, source, severity, flags, params := params6 params, mono := now s } (drainSubmissions s)

/-! ## Reading (R397) -/

/-- The record of a sequence number in a list, the one written last counting (R407). -/
def findRecord (l : List Record) (seq : Nat) : Option Record := l.find? (fun r => r.seq == seq)

/-- Records that the window and LOG_READ serve: the active bank or the emergency registers (R397). -/
def servedRecords (l : LogState) : List Record := heldRecords l ++ (if l.active.isSome then l.emergency else [])

/-- The window entry `k` as 64 bytes (R397); the numbers wrap as R395 states. -/
def windowEntry (s : State) (k : Nat) : List Byte :=
  let n := s.host.logCursor + k
  match findRecord (servedRecords s.log) (if 0xFFFF_FFFE < n then n - 0xFFFF_FFFE else n) with
  | some r => if r.seq = 0 then List.replicate 64 0 else recordBytes r
  | none => List.replicate 64 0

/-- `a` is later than `b` or equal to it in the order of R395. -/
def seqAtLeast (a b : Nat) : Bool := decide ((a + 0xFFFF_FFFE - b) % 0xFFFF_FFFE < 0x8000_0000)

/-- Puts a record into a list in sequence order, once per sequence number. -/
def insertRecord (r : Record) : List Record → List Record
  | [] => [r]
  | x :: rest =>
    if x.seq = r.seq then x :: rest
    else if seqAtLeast r.seq x.seq then x :: insertRecord r rest
    else r :: x :: rest

/-- Records at or after `first` in sequence order. -/
def recordsFrom (l : List Record) (first : Nat) : List Record :=
  (l.filter (fun r => seqAtLeast r.seq first && r.seq != 0)).foldl (fun acc r => insertRecord r acc) []

/-- The payload that LOG_READ and PAIR_TAIL_READ answer (table *LOG_READ response*). -/
def readReply (l : List Record) (first count : Nat) : List Byte :=
  let rs := recordsFrom l first
  let out := rs.take count
  le 1 out.length ++ le 3 0 ++ le 4 (((rs.drop count).head?.map (·.seq)).getD 0) ++ (out.map recordBytes).flatten

/-! ## The flash mirror (R407) -/

/-- Writes one record to the flash mirror, a ring of 1,048,576 slots whose oldest sector of 1,024 is erased for the next (R407). -/
def mirrorRecord (r : Record) (l : LogState) : LogState :=
  { l with
    mirror := r :: (if l.mirror.length < 1048576 then l.mirror else l.mirror.take 1047552), unmirrored := without l.unmirrored r.seq, mirrorFault := false }

/-- Completes the mirror up to the newest record (R407, R409). -/
def mirrorAll (l : LogState) : LogState :=
  l.unmirrored.foldl (fun acc q => match findRecord (servedRecords acc) q with
    | some r => mirrorRecord r acc
    | none => { acc with unmirrored := without acc.unmirrored q }) l

/-! ## Media (R405, R406) -/

/-- The Logbook as a fault unit. -/
def logbookUnit : UnitId := ⟨.logbook, 0⟩

/-- Bank `b` is marked failed. -/
def markFailed (b : BankSel) (l : LogState) : LogState :=
  match b with
  | .bankA => { l with bankA := { records := [], failed := true } }
  | .bankB => { l with bankB := { records := [], failed := true } }

/-- The other bank. -/
def otherBank : BankSel → BankSel
  | .bankA => .bankB
  | .bankB => .bankA

/-- A bank carries its failed mark. -/
def bankFailed (l : LogState) : BankSel → Bool
  | .bankA => l.bankA.failed
  | .bankB => l.bankB.failed

/-- The spare bank is usable (LOG_STATUS.SPARE_OK). -/
def spareOk (l : LogState) : Bool :=
  match l.active with
  | some b => !bankFailed l (otherBank b)
  | none => false

/-- A bank fails (R405, R406): the active one hands over to the spare, or to the emergency registers when there is none;
LOG_MEDIA is raised with the last good sequence number, and every other submission waits for it. Its records stay readable from
the flash mirror. -/
def failBank (b : BankSel) (s : State) : State :=
  if s.log.active = some b then
    let good := s.log.head
    let spare := spareOk s.log
    let l1 := markFailed b (mirrorAll s.log)
    let l2 : LogState := { l1 with
      active := if spare then some (otherBank b) else none
      full := false
      switches := if spare then satInc 8 l1.switches else l1.switches
      mediaWait := true, goodSeq := good }
    raiseFault { cls := 0xB2, unit := logbookUnit, fixed := if spare then none else some 3, detail4 := good }
      { s with log := l2 }
  else s.modLog (markFailed b)

/-! ## The writer's events -/

/-- R395. The oldest waiting submission is committed, merged, suppressed or lost; while LOG_MEDIA is awaited it waits
(R405). -/
def recordCommit (s : State) : State :=
  if s.log.mediaWait then s
  else
    match s.log.submissions with
    | [] => s
    | x :: rest => commitOne (s.modLog (fun l => { l with submissions := rest })) x

def execRecordCommit (s : State) : Host.Outcome State Fault Refusal := .next (recordCommit s)

/-- R407. The oldest record that waits for the mirror is written: one that a later record follows at once, the newest
one when it has been unchanged for 1 s. A write that fails twice raises LOG_MEDIA with 1 (flash) in parameter 5. -/
def mirrorWrite (written retried : Bool) (s : State) : State :=
  match s.log.unmirrored with
  | [] => s
  | q :: _ =>
    let s1 := if q = s.log.head then advanceTo (s.log.lastChange + tcPerSecond) s else s
    match findRecord (servedRecords s1.log) q with
    | none => s1.modLog (fun l => { l with unmirrored := without l.unmirrored q })
    | some r =>
      if written then s1.modLog (mirrorRecord r)
      else if retried then s1.modLog (fun l => mirrorRecord r { l with flashFails := satInc 8 l.flashFails })
      else raiseFault { cls := 0xB2, unit := logbookUnit, detail4 := s1.log.head, detail5 := 1 }
        (s1.modLog (fun l => { l with flashFails := satInc 8 l.flashFails, mirrorFault := true }))

def execMirrorWrite (written retried : Bool) (s : State) : Host.Outcome State Fault Refusal :=
  .next (mirrorWrite written retried s)

/-- R405. The hourly scrub counts corrected words; an uncorrectable error marks its bank failed. -/
def logBankScrub (corrected : Nat) (badA badB : Bool) (s : State) : State :=
  let s1 := s.modLog (fun l => { l with corrected := min 65535 (l.corrected + corrected) })
  let s2 := if badA ∧ !s1.log.bankA.failed then failBank .bankA s1 else s1
  if badB ∧ !s2.log.bankB.failed then failBank .bankB s2 else s2

def execLogBankScrub (corrected : Nat) (badA badB : Bool) (s : State) : Host.Outcome State Fault Refusal :=
  .next (logBankScrub corrected badA badB s)

/-! ## Commands -/

/-- Power states in which Logbook commands are accepted. -/
def logPower : List PowerState := [.active, .quiet, .standby]

/-- LOG_MODE (0x0F01), R400. -/
def specLogMode : CommandSpec where
  opcode := 0x0F01
  role := some .admin
  power := logPower
  length := fixedLength 8
  checks := fun _ q =>
    [field 0 (within 0 1 (u8 q.payload 0)), field 1 (within 1 255 (u8 q.payload 1)), field 2 (zeros q.payload 2 2),
     field 4 (within 1000 3600000 (u32 q.payload 4))]
  effect := fun s q =>
    let toIg := u8 q.payload 0 == 1
    let s0 := drainSubmissions s
    let dropped := (s0.log.igCodes.cells.map (fun p => p.2.suppressed)).sum
    let s1 := s0.modLog (fun l => { l with
      ig := toIg, igLimit := u8 q.payload 1, igWindow := u32 q.payload 4
      igCodes := if l.ig && !toIg then Bank.fill {} else l.igCodes })
    (submitLog 0x0103 (sourceIndex 10 0)
      [flag toIg, u8 q.payload 1, u32 q.payload 4, if s0.log.ig && !toIg then dropped else 0] s1, {})

def execLogMode (r : HostRequest) (s : State) : Host.Outcome State Fault Refusal := .next (submit specLogMode r s)

/-- LOG_READ (0x0F02). -/
def specLogRead : CommandSpec where
  opcode := 0x0F02
  role := some .monitor
  power := logPower
  length := fixedLength 8
  states := fun s q => u8 q.payload 5 != 2 || standbyHub s
  checks := fun _ q =>
    [field 0 (within 1 0xFFFF_FFFE (u32 q.payload 0)), field 4 (within 1 31 (u8 q.payload 4)),
     field 5 (within 0 2 (u8 q.payload 5)), field 6 (zeros q.payload 6 2)]
  effect := fun s q =>
    let from_ := if u8 q.payload 5 = 0 then servedRecords s.log
      else if u8 q.payload 5 = 1 then s.log.mirror else s.pair.tail
    (s, { payload := readReply from_ (u32 q.payload 0) (u8 q.payload 4) })

def execLogRead (r : HostRequest) (s : State) : Host.Outcome State Fault Refusal := .next (submit specLogRead r s)

/-- LOG_CLEAR (0x0F03). -/
def specLogClear : CommandSpec where
  opcode := 0x0F03
  role := some .admin
  power := logPower
  length := fixedLength 0
  checks := fun s _ => [need .eBusy (s.log.clearing.isNone && s.log.mediaReset.isEmpty)]
  effect := fun s q => (s.modLog (fun l => { l with clearing := some (ticketOf q) }), { status := .accepted })

def execLogClear (r : HostRequest) (s : State) : Host.Outcome State Fault Refusal := .next (submit specLogClear r s)

/-- The banks that a LOG_MEDIA_RESET target names. -/
def resetTargets (t : Nat) : List BankSel := if t = 0 then [.bankA] else if t = 1 then [.bankB] else [.bankA, .bankB]

/-- LOG_MEDIA_RESET (0x0F04). -/
def specLogMediaReset : CommandSpec where
  opcode := 0x0F04
  role := some .admin
  power := logPower
  length := fixedLength 4
  checks := fun s q =>
    [field 0 (within 0 2 (u8 q.payload 0)), field 1 (zeros q.payload 1 3),
     need .eConflict (match s.log.active with
       | some b => !(resetTargets (u8 q.payload 0)).contains b
       | none => true)]
  effect := fun s q =>
    (s.modLog (fun l => { l with mediaReset := l.mediaReset ++ [(u8 q.payload 0, ticketOf q)] }), { status := .accepted })

def execLogMediaReset (r : HostRequest) (s : State) : Host.Outcome State Fault Refusal :=
  .next (submit specLogMediaReset r s)

/-- LOG_WRITE (0x0F05): the record carries HOST and source subsystem 10, and the response its sequence number, once LOG_MEDIA has
been committed where it is awaited (R405). -/
def specLogWrite : CommandSpec where
  opcode := 0x0F05
  role := some .operate
  power := logPower
  length := fixedLength 28
  checks := fun _ q =>
    [field 0 (within 0xF000 0xFFFF (u16 q.payload 0)), field 2 (within 0 2 (u8 q.payload 2)),
     field 3 (zeros q.payload 3 1)]
  effect := fun s q =>
    let ps := (List.range 6).map (fun i => u32 q.payload (4 + 4 * i))
    if s.log.mediaWait then
      (s.modLog (fun l => { l with submissions := l.submissions ++
        [{ code := u16 q.payload 0, source := sourceIndex 10 0, severity := u8 q.payload 2, flags := 0x80, params := params6 ps
           mono := now s, ticket := some (ticketOf q) }] }), { deferred := true })
    else
      let w := writeNow (u16 q.payload 0) (sourceIndex 10 0) (u8 q.payload 2) 0x80 ps s
      (w.1, { payload := le 4 w.2 })

def execLogWrite (r : HostRequest) (s : State) : Host.Outcome State Fault Refusal := .next (submit specLogWrite r s)

/-- The records of a LOG_VERIFY store: 0 bank, 1 flash mirror. -/
def verifyStore (l : LogState) (store : Nat) : List Record := if store = 1 then l.mirror else servedRecords l

/-- A store holds the seal of a sequence number (R404). -/
def sealHeld (l : LogState) (store seq : Nat) : Bool :=
  match findRecord (verifyStore l store) seq with
  | some r => r.code == 0x0105
  | none => false

/-- LOG_VERIFY (0x0F06). -/
def specLogVerify : CommandSpec where
  opcode := 0x0F06
  role := some .monitor
  power := logPower
  length := fixedLength 12
  checks := fun s q =>
    let store := u8 q.payload 8
    [field 0 (u32 q.payload 0 % 1024 == 0 && sealHeld s.log store (u32 q.payload 0)),
     field 4 (u32 q.payload 4 % 1024 == 0 && sealHeld s.log store (u32 q.payload 4)),
     field 8 (within 0 1 store), field 9 (zeros q.payload 9 3)]
  effect := fun s q =>
    (s.modLog (fun l => { l with
      verifying := l.verifying ++ [(u32 q.payload 0, u32 q.payload 4, u8 q.payload 8, ticketOf q)] }),
     { status := .accepted })

def execLogVerify (r : HostRequest) (s : State) : Host.Outcome State Fault Refusal := .next (submit specLogVerify r s)

/-! ## Completions -/

/-- R409. The mirror is completed; then the bank, or the emergency registers, are emptied, LOST is 0 and LOG_CLEARED is
the first record. If the mirror cannot be completed nothing is cleared. -/
def logClearComplete (mirrored : Bool) (s : State) : State :=
  match s.log.clearing with
  | none => s
  | some t =>
    let s0 := drainSubmissions s
    if mirrored then
      let held := heldRecords s0.log
      let firstSeq := (held.getLast?.map (·.seq)).getD 0
      let lastSeq := (held.head?.map (·.seq)).getD 0
      let s1 := s0.modLog (fun l => { setHeld (mirrorAll l) [] with lost := 0, full := false, clearing := none })
      let w := writeSubmission { code := 0x0102, source := sourceIndex 10 0
                                 params := params6 [firstSeq, lastSeq, t.session], mono := now s1 } s1
      complete t .ok w.2 w.1
    else complete t .eIntegrity 0 (s0.modLog (fun l => { l with clearing := none }))

def execLogClearComplete (mirrored : Bool) (s : State) : Host.Outcome State Fault Refusal :=
  .next (logClearComplete mirrored s)

/-- A bank passes its full test (R405): it becomes the spare, or active if none is. -/
def passBank (b : BankSel) (l : LogState) : LogState :=
  let l1 : LogState := match b with
    | .bankA => { l with bankA := { records := [], failed := false } }
    | .bankB => { l with bankB := { records := [], failed := false } }
  if l1.active.isNone then { l1 with active := some b } else l1

/-- R405, R406. The full test of the banks that the oldest LOG_MEDIA_RESET targets ends. LOG_MEDIA ends when either bank passes. -/
def logMediaResetComplete (passA passB : Bool) (s : State) : State :=
  match s.log.mediaReset with
  | [] => s
  | (t, k) :: rest =>
    let targets := resetTargets t
    let okA := !targets.contains .bankA || passA
    let okB := !targets.contains .bankB || passB
    let s1 := s.modLog (fun l => { l with mediaReset := rest })
    let s2 := if targets.contains .bankA then s1.modLog (if passA then passBank .bankA else markFailed .bankA) else s1
    let s3 := if targets.contains .bankB then s2.modLog (if passB then passBank .bankB else markFailed .bankB) else s2
    let s4 := if (targets.contains .bankA && passA) || (targets.contains .bankB && passB) then endFault 0xB2 logbookUnit s3
      else s3
    complete k (if okA && okB then .ok else .eIntegrity) 0 s4

def execLogMediaResetComplete (passA passB : Bool) (s : State) : Host.Outcome State Fault Refusal :=
  .next (logMediaResetComplete passA passB s)

/-- The seal of sequence number `seq` fits the records held (R404): the bytes of its record equal the seal computed
afresh over the 1,023 records before it. -/
def sealFits (key : List Byte) (l : List Record) (seq : Nat) : Bool :=
  let span := (List.range 1023).filterMap (fun i => findRecord l (seq - 1023 + i))
  let prev := match findRecord l (seq - 1024) with
    | some r => (r.params.map (le 4)).flatten
    | none => List.replicate 24 0
  let chain := if span.any (fun r => r.code == 0x0100) then List.replicate 24 0 else prev
  match findRecord l seq with
  | some r =>
    (r.params.map (le 4)).flatten ==
      (digestBytes (Config.hmacSha384 key (chain ++ (span.map recordBytes).flatten))).take 24
  | none => false

/-- The first seal of a span that fails, if any. -/
def firstBadSeal (key : List Byte) (l : List Record) (first last : Nat) : Option Nat :=
  ((List.range ((last - first) / 1024 + 1)).map (fun i => first + 1024 * i)).find? (fun q => !sealFits key l q)

/-- R404. Verification of the oldest requested span ends. -/
def logVerifyComplete (s : State) : State :=
  match s.log.verifying with
  | [] => s
  | (first, last, store, t) :: rest =>
    let s1 := s.modLog (fun l => { l with verifying := rest })
    match firstBadSeal s.sys.keys.log (verifyStore s.log store) first last with
    | none => complete t .ok 0 s1
    | some q => complete t .eIntegrity q s1

def execLogVerifyComplete (s : State) : Host.Outcome State Fault Refusal := .next (logVerifyComplete s)

end Sys2Proof.Machine
end

