-- ==== Sys2Proof/Machine/BellCode.lean ====
section
/-! DEFINITION. The codes of the service modem: Beacon codes (R122), the Bell link's sync words, whitening, CRC-16 and the two
error-correcting codes, and the length of its packets (R335–R342). -/

namespace Sys2Proof.Machine

open Sys2Proof

/-! ## Maximal-length and Beacon sequences (R122) -/

/-- Exponents below n, the constant included, of the polynomials of u and v (table *Beacon code generators*). -/
def uTaps (n : Nat) : List Nat := [[3, 0], [2, 0], [6, 4, 1, 0], [4, 3, 1, 0], [10, 6, 1, 0], [1, 0], [12, 3, 1, 0]].getD (n - 10) []
def vTaps (n : Nat) : List Nat :=
  [[7, 0], [9, 0], [11, 8, 6, 0], [12, 10, 9, 0], [13, 8, 4, 0], [14, 0], [15, 13, 4, 0]].getD (n - 10) []

/-- `k` chips of the sequence whose recurrence has these taps, from a register given oldest chip first (log entry 27). -/
def mChips (taps : List Nat) : Nat → List Bool → List Bool
  | 0, _ => []
  | _ + 1, [] => []
  | k + 1, c :: rest =>
    c :: mChips taps k (rest ++ [taps.foldl (fun a t => xor a ((c :: rest).getD t false)) false])

/-- The sequences u and v of degree `n`, one period each, from the all-ones state. -/
def uSequence (n : Nat) : List Bool := mChips (uTaps n) (2 ^ n - 1) (List.replicate n true)
def vSequence (n : Nat) : List Bool := mChips (vTaps n) (2 ^ n - 1) (List.replicate n true)

/-- Chips 0 to `k` − 1 of Beacon code `i` of degree `n` (R122). -/
def beaconChips (n i k : Nat) : List Bool :=
  let l := 2 ^ n - 1
  let u := uSequence n
  let v := vSequence n
  (List.range k).map (fun j =>
    if i = l then u.getD (j % l) false
    else if i = l + 1 then v.getD (j % l) false
    else xor (u.getD (j % l) false) (v.getD ((j + l - i % l) % l) false))

/-- The chain sync word of a flock: chips 0–31 of the degree-10 code FLOCK_ID mod 1,025 (R335). -/
def chainSync (flockId : Nat) : List Bool := beaconChips 10 (flockId % 1025) 32

/-! ## Bits and CRC-16 (R337, R339) -/

/-- The bits of a byte string, each byte least significant bit first. -/
def bitsOf (l : List Byte) : List Bool := (l.map (fun b => (List.range 8).map (fun i => b.getLsbD i))).flatten

/-- The header word (table *Bell header*). -/
def headerWord (h : BellHeader) : Nat :=
  place 2 0 h.kind + place 1 2 (flag h.twoThirds) + place 11 3 h.length + place 8 14 h.seq

/-- The header that a word spells; none when reserved bits are set. -/
def headerOf (w : Nat) : Option BellHeader :=
  if bits 31 22 w ≠ 0 then none
  else some { kind := bits 1 0 w, twoThirds := w.testBit 2, length := bits 13 3 w, seq := bits 21 14 w }

/-! ## Symbols (R337) -/

/-- Bits in two-level form: 1 positive. -/
def twoLevel (l : List Bool) : List Int := l.map (fun b => if b then 1 else -1)

/-- Pairs of bits in four-level form, the earlier bit first. -/
def fourLevel : List Bool → List Int
  | a :: b :: rest => (if a then (if b then -3 else -1) else (if b then 3 else 1)) :: fourLevel rest
  | _ => []

/-- The 32 preamble symbols as bits: alternating, starting with 1. -/
def preambleBits : List Bool := (List.range 32).map (fun k => k % 2 == 0)

/-! ## Correlation (R344) -/

/-- Σ s c over the symbols of a sync word. -/
def syncSum (word : List Bool) (soft : List Int) : Int := ((twoLevel word).zipWith (fun c x => c * x) soft).sum

/-- The square of the metric m as a fraction; without any signal m counts as 0. -/
def metricNum (word : List Bool) (soft : List Int) : Nat := (syncSum word soft).natAbs ^ 2
def metricDen (soft : List Int) : Nat := max 1 (32 * (soft.map (fun x => x.natAbs ^ 2)).sum)

/-- |m| in Q1.15, its fifteen bits found from the highest. -/
def metricAbs (num den : Nat) : Nat :=
  [14, 13, 12, 11, 10, 9, 8, 7, 6, 5, 4, 3, 2, 1, 0].foldl (fun a k =>
    if (a + 2 ^ k) ^ 2 * den ≤ num * 2 ^ 30 then a + 2 ^ k else a) 0

/-- m in Q1.15 as LAST_METRIC shows it. -/
def metricOf (word : List Bool) (soft : List Int) : Int :=
  let m := metricAbs (metricNum word soft) (metricDen soft)
  if syncSum word soft < 0 then -m else m

/-- Hamming distance of the hard decisions from a word. -/
def hardErrors (word : List Bool) (soft : List Int) : Nat :=
  ((List.range 32).filter (fun k => word.getD k false != decide (0 < soft.getD k 0))).length

/-! ## Convolutional code (R341) -/

/-- Parity of the bits of `x` that a generator selects. -/
def parity (x g : Nat) : Bool := ((List.range 7).map (fun i => (x &&& g).testBit i)).foldl xor false

/-- Outputs A and B for each input bit; the register holds the six earlier bits, the latest highest (log entry 27). -/
def convPairs : Nat → List Bool → List (Bool × Bool)
  | _, [] => []
  | r, b :: rest =>
    let x := r + 64 * flag b
    (parity x 0o133, parity x 0o171) :: convPairs (x / 2) rest

/-- A1, B1 and A2 of each pair of input bits. -/
def puncture : List (Bool × Bool) → List Bool
  | a :: b :: rest => [a.1, a.2, b.1] ++ puncture rest
  | l => (l.map (fun a => [a.1, a.2])).flatten

/-- The coded block with its six tail bits. -/
def convEncode (twoThirds : Bool) (l : List Bool) : List Bool :=
  let p := convPairs 0 (l ++ List.replicate 6 false)
  if twoThirds then puncture p else (p.map (fun a => [a.1, a.2])).flatten

/-- The 108 coded bits of a header. -/
def headerBits (h : BellHeader) : List Bool :=
  let b := le 4 (headerWord h)
  convEncode false (bitsOf (b ++ le 2 (crc16 b)))

/-! ## LDPC code (R342) -/

/-- Information columns k_b and rows m_b of the base matrix. -/
def ldpcKb (twoThirds : Bool) : Nat := if twoThirds then 16 else 12
def ldpcMb (twoThirds : Bool) : Nat := if twoThirds then 8 else 12

/-- Shift of information entry (i, j), if present. -/
def ldpcShift (mb i j : Nat) : Option Nat :=
  let r := (i + 2 * j) % mb
  if r = 0 ∨ r = 1 ∨ r = 5 then some ((17 * i * j + 11 * i + 3 * j) % 64) else none

/-- A block of 64 bits multiplied by the identity shifted right by `k`. -/
def shiftBlock (k : Nat) (x : List Bool) : List Bool := (List.range 64).map (fun r => x.getD ((r + k) % 64) false)

/-- Sum of two blocks. -/
def addBlock (x y : List Bool) : List Bool := (List.range 64).map (fun r => xor (x.getD r false) (y.getD r false))

/-- Row `i` of the information part applied to the information blocks. -/
def ldpcRow (mb i : Nat) (u : List (List Bool)) : List Bool :=
  u.zipIdx.foldl (fun acc (x, j) => match ldpcShift mb i j with
    | some k => addBlock acc (shiftBlock k x)
    | none => acc) (List.replicate 64 false)

/-- The parity blocks of a dual-diagonal structure from the row sums: the first is their total, the others follow row by row. -/
def ldpcParity (mb : Nat) (rows : List (List Bool)) : List (List Bool) :=
  let p0 := rows.foldl addBlock (List.replicate 64 false)
  let step := fun (acc : List (List Bool)) (i : Nat) =>
    let row := rows.getD i []
    let prev := if i = 0 then shiftBlock 1 p0 else acc.getD i []
    let mid := if i = mb / 2 then addBlock prev p0 else prev
    acc ++ [addBlock row mid]
  (List.range (mb - 1)).foldl step [p0]

/-- The parity bits of a full codeword's information bits. -/
def ldpcParityBits (twoThirds : Bool) (info : List Bool) : List Bool :=
  let kb := ldpcKb twoThirds
  let mb := ldpcMb twoThirds
  let u := (List.range kb).map (fun j => (info.drop (64 * j)).take 64)
  (ldpcParity mb ((List.range mb).map (fun i => ldpcRow mb i u))).flatten

/-- The coded bits of an information string: full codewords, the last shortened. `n` bounds the codewords. -/
def ldpcEncode (twoThirds : Bool) : Nat → List Bool → List Bool
  | 0, _ => []
  | n + 1, l =>
    let k := 64 * ldpcKb twoThirds
    if l.isEmpty then []
    else
      let w := l.take k
      w ++ ldpcParityBits twoThirds (w ++ List.replicate (k - w.length) false) ++ ldpcEncode twoThirds n (l.drop k)

/-- The coded bits of a chain payload given as bytes (R342). -/
def chainBits (twoThirds : Bool) (payload : List Byte) : List Bool :=
  let info := bitsOf (payload ++ le 4 (crc32c payload).toNat)
  ldpcEncode twoThirds (info.length / (64 * ldpcKb twoThirds) + 1) info

/-- The coded bits of a keeper payload (R341). -/
def keeperBits (twoThirds : Bool) (payload : List Byte) : List Bool :=
  convEncode twoThirds (bitsOf (payload ++ le 4 (crc32c payload).toNat))

/-- Coded bits XORed with the whitening sequence from its start (R340). -/
def whitenBits (l : List Bool) : List Bool :=
  let u := uSequence 10
  l.zipIdx.map (fun (b, i) => xor b (u.getD (i % 1023) false))

/-! ## Lengths (R336, R338, R341, R342, R355) -/

/-- µs of a symbol, and bits of a payload symbol, by rate code. -/
def symbolUs (rate : Nat) : Nat := [20, 10, 5, 5].getD rate 5
def bitsPerSymbol (rate : Nat) : Nat := if rate = 3 then 2 else 1

/-- Coded bits of a payload of `n` bytes. -/
def payloadBits (chain twoThirds : Bool) (n : Nat) : Nat :=
  let info := (n + 4) * 8
  if chain then
    let k := 64 * ldpcKb twoThirds
    info + ((info + k - 1) / k) * (1536 - k)
  else if twoThirds then (info + 6) / 2 * 3 else (info + 6) * 2

/-- Symbols of a number of coded bits. -/
def symbolsOf (rate n : Nat) : Nat := (n + bitsPerSymbol rate - 1) / bitsPerSymbol rate

/-- µs of a packet's coded header and of its payload. -/
def headerUs (rate : Nat) : Nat := symbolsOf rate 108 * symbolUs rate
def payloadUs (rate : Nat) (h : BellHeader) : Nat :=
  symbolsOf rate (payloadBits (h.kind == 2) h.twoThirds h.length) * symbolUs rate

/-- µs of a whole packet with its power ramps (R338). -/
def packetUs (rate : Nat) (h : BellHeader) : Nat := 64 * symbolUs rate + headerUs rate + payloadUs rate h + 20

end Sys2Proof.Machine
end

