-- ==== Sys2Proof/Machine/GainStack.lean ====
section
/-! DEFINITION. The gain stacks (R152–R160), their mute sources and ramps, the combination and sharing of back-off, and the
margin cap that the loop guard writes into them (R129, R140, R141). -/

namespace Sys2Proof.Machine

open Sys2Proof

/-! ## Mute and exclusion (R156) -/

/-- The transmit chain of an egress band path is not ACTIVE, or is about to leave ACTIVE (R67, R73). -/
def chainMutes (s : State) (c : Nat) : Bool :=
  let x := s.rf.chains.get c
  x.fe != .active || x.nextOp.isSome || x.calAt.isSome || x.leaving

/-- The mute sources of an egress band path, bit k for source k of the table *Mute sources*. -/
def muteMask (s : State) (e : Nat) (b : BandPath) : Nat :=
  let p := b.params
  let g := s.np.gain.get e
  let local_ := !p.srcFlow
  let settle := b.phase != .idle || b.releasing || (if local_ then ibSettling s p.srcId else b.srcSettling)
  let gapped := if local_ then ibGappedFor s p.srcId p else b.srcGapped || b.rateMismatch || penned s (flowUnit p.srcId)
  let holdoff := match s.lg.loops.get e with
    | some l => l.state == .holdoff
    | none => false
  let pattern := match p.tdd with
    | some t => !patternSends s.air t || s.air.stepPending
    | none => false
  flag g.host + 2 * flag holdoff + 4 * flag (penned s (ebUnit e)) + 8 * flag settle + 16 * flag gapped +
    32 * flag (chainMutes s p.chain || s.pair.muting.contains e) + 64 * flag pattern +
    128 * flag (s.fault.halt.isSome || s.fault.haltMuted.contains e) + 256 * flag (s.sys.power != .active) +
    512 * flag (!g.donors.isEmpty)

/-- Excluded in PADDOCK, or until a HALT or a QUIET that ended has been followed by admission (R147, R377, R454). -/
def excludedPaddock (s : State) (e : Nat) : Bool :=
  inPaddock s (ebUnit e) ||
    (match s.ce.eb.get e with
     | some b => b.params.srcFlow && inPaddock s (flowUnit b.params.srcId)
     | none => false) ||
    (match s.lg.loops.get e with
     | some l => l.qualMode == some .halt
     | none => false)

/-- Excluded while the loop is ACQUIRING. -/
def excludedAcquiring (s : State) (e : Nat) : Bool :=
  match s.lg.loops.get e with
  | some l => l.state == .acquiring
  | none => false

/-- Both kinds of exclusion. -/
def excluded (s : State) (e : Nat) : Bool := excludedPaddock s e || excludedAcquiring s e

/-! ## Target and applied gain (R153, R155) -/

abbrev gLow : Int := -3000
abbrev gHigh : Int := 7000

/-- The target gain and LIMITER of R153. -/
def gainTarget (g : GainStack) (excl muted : Bool) : Int × Limiter :=
  let t0 := g.gCmd - g.bTh - g.bNp
  let l0 : Limiter := if g.bTh = 0 ∧ g.bNp = 0 then .command else if g.bNp ≤ g.bTh then .thermal else .npBackoff
  let p1 : Int × Limiter := match g.capM with
    | some c => if c ≤ t0 then (c, .marginCap) else (t0, l0)
    | none => (t0, l0)
  let p2 : Int × Limiter := match g.capUl with
    | some c => if c < p1.1 then (c, .ulNoiseCap) else p1
    | none => p1
  let p3 : Int × Limiter := if p2.1 < gLow then (gLow, .floor) else p2
  let p4 : Int × Limiter := if gHigh < p3.1 then (gHigh, .ceiling) else p3
  (p4.1, if muted then .mute else if excl then .excluded else p4.2)

/-- The commanded gain of a soft-start at instant `t`, linear in dB (R150). -/
def softGain (x : Int × Int × Nat × Nat) (t : Nat) : Int :=
  let (from_, to_, start, dur) := x
  if start + dur ≤ t then to_ else from_ + (to_ - from_) * ((t - start : Nat) : Int) / (dur : Int)

/-- Duration of a soft-start: SOFT_RAMP, and never faster than 1 dB per 10 ms (R150). -/
def softDuration (from_ to_ : Int) (rampMs : Nat) : Nat := max (tcOfMs rampMs) ((to_ - from_).natAbs * 196608)

/-- The soft-start followed up to instant `t`. -/
def followSoft (t : Nat) (g : GainStack) : GainStack :=
  match g.soft with
  | none => g
  | some x => { g with gCmd := softGain x t, soft := if x.2.2.1 + x.2.2.2 ≤ t then none else some x }

/-- A slew followed up to instant `t`: 1 dB per 10 µs towards the target (R155). -/
def followSlew (t : Nat) (g : GainStack) : GainStack :=
  match g.slewAt with
  | none => g
  | some t0 =>
    let m := (t - t0) * 1000 / 196608
    if (g.target - g.applied).natAbs ≤ m then { g with applied := g.target, slewAt := none }
    else { g with
      applied := if g.applied < g.target then g.applied + m else g.applied - m
      slewAt := some (t0 + m * 196608 / 1000) }

/-- A new target: a change of at most 1 dB is applied at the next sample, a larger one starts a slew, and a slew in progress
goes on towards it (R155). -/
def aimAt (t : Nat) (target : Int) (g : GainStack) : GainStack :=
  if g.slewAt.isSome then { g with target := target }
  else if (target - g.applied).natAbs ≤ 100 then { g with target := target, applied := target }
  else { g with target := target, slewAt := some t }

/-- A ramp that has reached its end. -/
def settleRamp (t : Nat) (r : Ramp) : Ramp :=
  match r.state with
  | .falling => if r.endAt ≤ t then { r with state := .silent } else r
  | .rising => if r.endAt ≤ t then { r with state := .open_ } else r
  | _ => r

/-- A ramp of `f` Tc driven down or up; a ramp reversed while it runs turns back from its current factor (R156). -/
def driveRamp (t f : Nat) (down : Bool) (r0 : Ramp) : Ramp :=
  let r := settleRamp t r0
  match r.state, down with
  | .open_, true => ⟨.falling, t + f⟩
  | .silent, false => ⟨.rising, t + f⟩
  | .rising, true => ⟨.falling, t + f - (r.endAt - t)⟩
  | .falling, false => ⟨.rising, t + f - (r.endAt - t)⟩
  | _, _ => r

/-- What a gain stack applies from the monotonic instant `t` on. -/
def GainStack.point (t : Nat) (g : GainStack) : GainPoint := ⟨t, g.applied, g.target, g.slewAt, g.ramp, g.excl⟩

/-- A gain stack with what it applies from `t` on put on record; the record keeps 20 ms. -/
def GainStack.note (t : Nat) (g : GainStack) : GainStack :=
  { g with past := g.point t :: g.past.filter (fun x => decide (x.since < t ∧ t ≤ x.since + tcOfMs 20)) }

/-- The point in force at an instant. -/
def GainStack.at_ (t : Nat) (g : GainStack) : GainPoint := (g.past.find? (fun x => decide (x.since ≤ t))).getD (g.point t)

/-- The applied gain at an instant of a point's span (R155). -/
def GainPoint.gain (t : Nat) (x : GainPoint) : Int :=
  (followSlew t { applied := x.applied, target := x.target, slewAt := x.slewAt }).applied

/-- The gain stack of one egress band path brought to the present instant and to its present terms. -/
def refreshTerms (s : State) (e : Nat) (b : BandPath) (g : GainStack) : GainStack :=
  let t := now s
  let muted := muteMask s e b != 0
  let excl := excluded s e
  let g1 := followSlew t (followSoft t g)
  let x := gainTarget g1 excl muted
  let g2 := aimAt t x.1 g1
  let f := fadeTc b.params.stages
  GainStack.note t { g2 with
    openAt := if muted || excl then g.openAt else some t
    limiter := x.2
    limChanges := if x.2 = g.limiter then g.limChanges else g.limChanges + 1
    ramp := driveRamp t f muted g.ramp
    excl := driveRamp t f excl g.excl }

/-- One gain stack refreshed. -/
def refreshOne (s : State) (p : Nat × BandPath) : State :=
  s.modNp (fun n => { n with gain := n.gain.mod p.1 (refreshTerms s p.1 p.2) })

/-! ## Loop estimates (R120, R129) -/

/-- The canceller instance enabled on a return ingress band path. -/
def cancellerOf (s : State) (ib : Nat) : Option (Nat × Canceller) :=
  s.lg.canc.cells.find? (fun p => p.2.state != .idle && p.2.ib == ib)

/-- Return ingress band path of a loop closed on this part (R118, R119). -/
def returnIb (_s : State) (b : BandPath) (l : Loop) : Option Nat :=
  match l.measuredOn with
  | some n => some n
  | none => if b.params.srcFlow then none else some b.params.srcId

/-- C_cr counts as 0 (R137, R139). -/
def creditZero (c : Canceller) : Bool := c.state == .reAcquire || !c.measured

/-- Averaged A and C, 0.01 dB; none before the first measurement. -/
def loopAc (l : Loop) : Option (Int × Int) :=
  match l.aLin, l.cLin with
  | some a, some c => some (-(decibel a), -(decibel c))
  | _, _ => none

/-- Credited cancellation C_cr (R120). -/
def credited (s : State) (b : BandPath) (l : Loop) (c : Int) : Int :=
  let zero := match returnIb s b l with
    | some n => (match cancellerOf s n with
      | some (_, k) => creditZero k
      | none => false)
    | none => false
  if zero then 0 else min c l.config.creditMax

/-- The cap target T (R120), once measured. -/
def capTarget (s : State) (b : BandPath) (l : Loop) : Option Int :=
  (loopAc l).map (fun ac => ac.1 + credited s b l ac.2 - l.config.mReq)

/-- The credited margin M_cr at the effective gain of the stack (R120, R129). -/
def creditedMargin (s : State) (e : Nat) (b : BandPath) (l : Loop) : Option Int :=
  (loopAc l).map (fun ac => ac.1 + credited s b l ac.2 - (s.np.gain.get e).target)

/-- The margin M (R120). -/
def loopMargin (s : State) (e : Nat) (l : Loop) : Option Int :=
  (loopAc l).map (fun ac => ac.1 + ac.2 - (s.np.gain.get e).target)

/-- The fast loop gain (R129). -/
def fastGain (s : State) (e : Nat) (l : Loop) : Int := (s.np.gain.get e).target - l.a1 - l.c1

/-- Closed by configuration: the return ingress band path overlaps the carrier and is not marked conducted. The return of a
flow-fed band path of a REMOTE or RELAY lies on the hub, and what is known of it here no rule states (R118, R119, R132, log
entry 12). -/
def closedByConfig (s : State) (b : BandPath) : Bool :=
  if b.params.srcFlow then
    let r := Config.hubReturn b.params.srcId (s.dv.desc.get b.params.srcId).plan
    s.sys.role != .hub && !r.conducted &&
      decide (2 * (((r.center : Int) - b.params.center).natAbs) < r.bw + b.params.bw)
  else match s.ce.ib.get b.params.srcId with
    | some r => overlaps r.params b.params && !s.lg.conducted.contains b.params.srcId
    | none => false

/-- The loop is closed (R118, R119). -/
def loopClosed (s : State) (b : BandPath) (l : Loop) : Bool := closedByConfig s b || l.measuredOn.isSome

/-- The loop closes through the hub (R132). -/
def viaHub (s : State) (b : BandPath) (l : Loop) : Bool :=
  b.params.srcFlow && closedByConfig s b && l.measuredOn.isNone

/-- Changes the loop record of an egress band path that has one. -/
def modLoop (e : Nat) (f : Loop → Loop) (s : State) : State :=
  s.modLg (fun g => if (g.loops.get e).isSome then { g with loops := g.loops.mod e (fun x => x.map f) } else g)

/-- The margin cap in force: the part's own, or the lower of it and the hub's for a loop through the hub; none outside
GUARDED and LADDER (R132, R140). -/
def capInForce (s : State) (b : BandPath) (l : Loop) : Option Int :=
  if l.state = .guarded ∨ l.state = .ladder then
    (if viaHub s b l then
      (match l.cap, l.hubCap with
       | some x, some y => some (min x y)
       | some x, none => some x
       | none, y => y)
     else l.cap)
  else none

/-- The loop guard writes CAP_M (R152). -/
def writeCap (e : Nat) (s : State) : State :=
  match s.ce.eb.get e, s.lg.loops.get e with
  | some b, some l =>
    s.modNp (fun n => { n with gain := n.gain.mod e (fun g => { g with capM := capInForce s b l }) })
  | _, _ => s.modNp (fun n => { n with gain := n.gain.mod e (fun g => { g with capM := none }) })

/-- The margin cap has reached the lowest gain of the stack (R141, R151). -/
def capAtFloor (s : State) (e : Nat) : Bool :=
  match s.ce.eb.get e, s.lg.loops.get e with
  | some b, some l => (capInForce s b l).any (fun c => decide (c ≤ gLow))
  | _, _ => false

/-- M_cr is below M_REQ, or no longer; MARGIN_LOW ends with it (R151). -/
def noteMargin (e : Nat) (below : Bool) (s : State) : State :=
  if below then modLoop e (fun l => { l with lowSince := l.lowSince <|> some (now s) }) s
  else
    let s1 := modLoop e (fun l => { l with lowSince := none }) s
    if capAtFloor s1 e then s1 else endFault 0x30 (ebUnit e) s1

/-- CAP_M written, and MARGIN_LOW raised where it is the lowest gain of the stack (R151, R152). -/
def applyCap (e : Nat) (s : State) : State :=
  let s1 := writeCap e s
  if capAtFloor s1 e ∧ penned s1 (ebUnit e) = false then raiseLevel { cls := 0x30, unit := ebUnit e } s1 else s1

/-- The loop record evaluated at the present gain: a cap at most 1 dB above T comes down to it at once, and otherwise GUARDED falls
to LADDER below M_REQ (R129, R140, R141). A PENNED band path keeps its state. -/
def evalLoop (e : Nat) (s : State) : State :=
  match s.ce.eb.get e, s.lg.loops.get e with
  | some b, some l =>
    if penned s (ebUnit e) ∨ ¬ (l.state = .guarded ∨ l.state = .ladder) then writeCap e s
    else
      match creditedMargin s e b l, capTarget s b l with
      | some m, some t =>
        if l.state = .guarded ∧ l.cap.any (fun c => decide (t < c ∧ c ≤ t + 100)) then
          applyCap e (noteMargin e false (modLoop e (fun x => { x with cap := some (max gLow t) }) s))
        else
          let below := decide (m < l.config.mReq)
          applyCap e (noteMargin e below
            (if l.state = .guarded ∧ below then modLoop e (fun x => { x with state := .ladder }) s else s))
      | _, _ => applyCap e s
  | _, _ => s

/-- An ingress band path begins or ends to have no samples; a span that has ended leaves its mark (R105, R107). -/
def noteGap (s : State) (p : Nat × BandPath) : State :=
  let g := ibLacks s p.1
  if g = p.2.gapSince.isSome then s
  else modBand .ingress p.1 (fun b => match b.gapSince with
    | none => { b with gapSince := some (now s) }
    | some t => { b with gapSince := none, marks := ⟨.gapped, t, now s⟩ :: b.marks.filter (fun m => decide (now s ≤ m.hi + tcOfMs 20)) }) s

/-- Every gain stack brought up to its terms, the loops evaluated at the gains that result, and the caps that follow put
into force (R129, R154). -/
def refreshGains (s : State) : State :=
  let s0 := (ibs s).foldl noteGap s
  let s1 := (ebs s0).foldl refreshOne s0
  let s2 := (ebs s1).foldl (fun acc p => evalLoop p.1 acc) s1
  (ebs s2).foldl refreshOne s2

/-! ## Back-off (R158, R160) -/

/-- Causes summed, several instances of one cause counting once at the largest amount (R158). -/
def causeSum (l : List Backoff) : Nat :=
  let kinds := l.foldl (fun acc x => if acc.contains x.cause then acc else x.cause :: acc) []
  (kinds.map (fun k => l.foldl (fun m x => if x.cause = k then max m x.amount else m) 0)).sum

/-- The sum of the causes on one unit. -/
def causesOn (s : State) (u : UnitId) : Nat := causeSum (s.np.backoffs.filter (fun x => x.unit == u))

/-- Egress band paths of a chain that are neither muted nor excluded, with their last valid mean powers (R160). -/
def sharers (s : State) (c : Nat) : List (Bool × Int) :=
  ((ebs s).filter (fun p => p.2.params.chain == c && muteMask s p.1 p.2 == 0 && !excluded s p.1)).filterMap
    (fun p => p.2.lastMean.map (fun m => (p.2.params.protected_, m)))

/-- Pp as a linear ratio in units of 10^−30 (R160). -/
def protectedShare (s : State) (c : Nat) : Nat :=
  let l := sharers s c
  let total := powerSum (l.map (·.2))
  if total = 0 then 0 else powerSum ((l.filter (·.1)).map (·.2)) * unity / total

/-- The shares X and Y of a demand `d` (R160). Where the rule's second logarithm has no argument above zero the spec states
no share for protected band paths. -/
def shares (d pp xm : Nat) : Nat × Nat :=
  let f := linear (-(d : Int))
  if d = 0 then (0, 0)
  else if pp = 0 then ((d + 9) / 10 * 10, 0)
  else if pp < f ∧ linear (-(xm : Int)) ≤ (f - pp) * unity / (unity - pp) then
    (attenuationUp ((f - pp) * unity / (unity - pp)), 0)
  else
    let rest := (unity - pp) * linear (-(xm : Int)) / unity
    ((xm + 9) / 10 * 10, if rest < f then attenuationUp ((f - rest) * unity / pp) else Config.shareOpen d pp xm)

/-- The demands and shares of one chain computed (R158, R160). -/
def computeShares (s : State) (t : Nat) (o : OutputRule) : OutputRule :=
  let c := t + 8
  let pp := protectedShare s c
  let dNp := min s.np.backoffMax (causesOn s (chainUnit c))
  let th := shares s.np.thermal pp s.np.shareMax
  let np := shares dNp pp s.np.shareMax
  { o with
    dTh := s.np.thermal, xTh := th.1, yTh := th.2, dNp := dNp, xNp := np.1, yNp := np.2
    pProt := pp * 10000 / unity }

/-- B_th and B_np of one egress band path (R158, R160). -/
def writeBackoff (s : State) (p : Nat × BandPath) : State :=
  let o := s.np.outputs.get (p.2.params.chain - 8)
  let th := if p.2.params.protected_ then o.yTh else o.xTh
  let np := if p.2.params.protected_ then o.yNp else o.xNp
  s.modNp (fun n => { n with
    gain := n.gain.mod p.1 (fun g => { g with
      bTh := th, bNp := min n.backoffMax (np + causesOn s (ebUnit p.1)) }) })

/-- Back-off shared out again: once per housekeeping round and whenever a demand changes (R160). -/
def shareBackoff (s : State) : State :=
  let s1 := s.modNp (fun n => { n with outputs := n.outputs.modAll (List.range 8) (computeShares s) })
  refreshGains ((ebs s1).foldl writeBackoff s1)

/-- An instance of a cause takes an amount; 0 removes it. -/
def setBackoff (x : Backoff) (s : State) : State :=
  shareBackoff (s.modNp (fun n => { n with
    backoffs := (if x.amount = 0 then [] else [x]) ++
      n.backoffs.filter (fun y => !(y.cause == x.cause && y.unit == x.unit && y.inst == x.inst)) }))

/-- Every instance of a cause with one instance number ends. -/
def dropBackoffs (f : Backoff → Bool) (s : State) : State :=
  shareBackoff (s.modNp (fun n => { n with backoffs := n.backoffs.filter (fun y => !f y) }))

end Sys2Proof.Machine
end

