-- ==== Sys2Proof/Machine/Settle.lean ====
section
/-! DEFINITION. What a change does to band paths: the loop records and cancellers it restarts (R137, R140) and the settle
that it starts (R100–R108, R117). -/

namespace Sys2Proof.Machine

open Sys2Proof

/-! ## Loop records (R118, R140) -/

/-- The loop of an egress band path starts over: ACQUIRING when closed or after a change of an existing band path, OPEN
otherwise (R140, log entry 127). -/
def restartLoop (e : Nat) (mode : Option QualMode) (changed : Bool) (s : State) : State :=
  match s.ce.eb.get e with
  | none => s
  | some b =>
    let u := ebUnit e
    writeCap e (endFault 0x30 u (endFault 0x33 u (modLoop e (fun l =>
      let acquires := loopClosed s b l || changed
      { l with
        state := if acquires then .acquiring else .open_
        cap := none, aLin := none, cLin := none, validRun := 0, settled := false, qualified := false
        lowSince := none, hubGrant := none
        qualMode := match l.qualMode, mode with
          | some .paddock, some .acquiring => some .paddock
          | some .halt, some .acquiring => some .halt
          | _, m => if acquires ∨ m ≠ some .acquiring then m else none }) s)))

/-- An egress band path gets its loop record (R118). -/
def createLoop (e : Nat) (s : State) : State :=
  restartLoop e (some .acquiring) false
    (s.modLg (fun g => { g with loops := g.loops.set e (some { lastValid := now s }) }))

/-- An egress band path loses its loop record. -/
def removeLoop (e : Nat) (s : State) : State :=
  let u := ebUnit e
  (endFault 0x30 u (endFault 0x33 u s)).modLg (fun g => { g with loops := g.loops.set e none })

/-- An NCO, preset, chain or source change of an egress band path or of its return: ACQUIRING, except that a PENNED band path
keeps its state and HOLDOFF ends by its own rule (R140). -/
def loopChanged (e : Nat) (s : State) : State :=
  match s.lg.loops.get e with
  | none => s
  | some l => if penned s (ebUnit e) ∨ l.state = .holdoff then s else restartLoop e (some .acquiring) true s

/-- Closure evaluated again after a change of a conducted mark (R119). -/
def reviewClosure (e : Nat) (s : State) : State :=
  match s.ce.eb.get e, s.lg.loops.get e with
  | some b, some l =>
    if loopClosed s b l = (l.state != .open_) then s
    else if penned s (ebUnit e) ∨ l.state = .holdoff then s
    else restartLoop e (some .acquiring) false s
  | _, _ => s

/-- The loops whose return is an ingress band path. -/
def loopsOnReturn (s : State) (ib : Nat) : List Nat :=
  ((ebs s).filter (fun p => match s.lg.loops.get p.1 with
    | some l => returnIb s p.2 l == some ib
    | none => false)).map (·.1)

/-! ## Cancellers (R137) -/

/-- An instance restarts cold. -/
def coldStart (c : Canceller) : Canceller :=
  if c.state = .idle then c
  else { c with
    state := .cold, measured := false, c := 0, best := none, snapshot := false, negRun := 0, restore := false
    weights := [], rot := [], dopp := [], snap := [], fitNum := (0, 0), fitDen := 0, fitCount := 0
    coldStarts := c.coldStarts + 1 }

/-- The instances bound to an ingress band path, or with an egress band path as reference. -/
def restartCancellers (f : Canceller → Bool) (s : State) : State :=
  s.modLg (fun g => { g with
    canc := { g.canc with cells := g.canc.cells.map (fun p => if f p.2 then (p.1, coldStart p.2) else p) } })

/-- A change of a band path restarts what measures around it: cancellers cold (R137), loops ACQUIRING (R140). -/
def bandChanged (d : Dir) (n : Nat) (realign : Bool) (s : State) : State :=
  match d with
  | .ingress =>
    let s1 := restartCancellers (fun c => c.ib == n) s
    if realign then s1 else (loopsOnReturn s1 n).foldl (fun acc e => loopChanged e acc) s1
  | .egress =>
    let s1 := restartCancellers (fun c => !c.refFlow && c.refId == n) s
    if realign then s1 else loopChanged n s1

/-! ## The settle (R100–R108) -/

/-- Settle count of a preset (R88). -/
def settleCount (preset : Nat) : Nat := [1536, 768, 256, 96].getD preset 96

/-- S = settle count + 24 (R101). -/
def zeroSamples (p : BpParams) : Nat := settleCount p.preset + 24

/-- S × P, Tc. -/
def zeroTc (p : BpParams) : Nat := zeroSamples p * samplePeriod p.stages

/-- Duration of the zero interval and, for an ingress band path, the fade-in. -/
def settleTail (d : Dir) (p : BpParams) : Nat :=
  zeroTc p + (match d with
    | .ingress => fadeTc p.stages
    | .egress => 0)

/-- R117: instant by which a settle that starts now and lasts `dt` must have ended. -/
def settleDeadline (t dt : Nat) : Nat := t + 2 * dt + tcOfUs 100

/-! ### The sample grid and the marks -/

/-- Tc from now to the first sample of a band path of period `p` at or after it; `err` is the distance of its samples from the
grid, 1/64 Tc (R49, R95). -/
def sampleWait (a : AirState) (err : Int) (p : Nat) : Nat :=
  (((err - ((a.offset * 64 : Nat) : Int)) % ((p * 64 : Nat) : Int)).toNat + 63) / 64

/-- How the output of a phase is marked. -/
def SettlePhase.mark : SettlePhase → Option MarkKind
  | .idle => none
  | .fadeOut => some .fadeOut
  | .fadeIn => some .fadeIn
  | .zeros => some .zeros
  | .waiting => some .gapped

/-- The marks kept at instant `t`: those that ended in the last 20 ms. -/
def keepMarks (t : Nat) (l : List Mark) : List Mark := l.filter (fun m => decide (t ≤ m.hi + tcOfMs 20))

/-- The band path enters a phase of its settle at the monotonic instant `t`; the phase that ends leaves its mark. -/
def BandPath.enter (b : BandPath) (t : Nat) (ph : SettlePhase) (until_ : Nat) : BandPath :=
  { b with
    phase := ph, phaseSince := t, phaseEnd := until_
    marks := (match b.phase.mark with
      | some k => [⟨k, b.phaseSince, t⟩]
      | none => []) ++ keepMarks t b.marks }

/-! ### The NCO (R86) -/

/-- fCONV, Hz. -/
abbrev fConv : Nat := 2949120000

/-- Index of the converter sample at a monotonic instant. -/
def convIndex (t : Nat) : Nat := t * 3 / 2

/-- The frequency word: IF × 2^48 / fCONV rounded to even, negated for an ingress band path, modulo 2^48. -/
def ncoWord (d : Dir) (center lo : Nat) : Nat :=
  let w := roundEven (((center : Int) - lo) * 2 ^ 48) fConv
  ((match d with
    | .ingress => -w
    | .egress => w) % 2 ^ 48).toNat

/-- The phase of the NCO at the converter sample of index `n`. -/
def ncoPhaseAt (b : BandPath) (n : Nat) : Nat :=
  (((b.ncoPhase : Int) + b.ncoWord * ((n : Int) - convIndex b.ncoAt)) % 2 ^ 48).toNat

/-! ### The steps of a settle -/

/-- The band path takes parameters and begins its zero interval at its first sample from the present instant on (R101, R103,
R107). It is aligned from then on, and its NCO takes the word of the chain's LO (R86, R97). -/
def beginZeros (s : State) (d : Dir) (b : BandPath) (p : BpParams) : BandPath :=
  let a := s.air
  let per := samplePeriod p.stages
  let t := a.mono + sampleWait a 0 per
  let idx := (a.offset + sampleWait a 0 per) / per % 16
  { b.enter t .zeros (t + zeroTc p) with
    params := p, next := none
    settleZeros := zeroSamples p, settleBlocks := (idx + zeroSamples p + 15) / 16
    misaligned := false, alignErr := 0, rateMismatch := false
    trackRef := airCount a - ((a.mono * 65536 : Nat) : Int)
    ncoWord := ncoWord d p.center (loActual p.chain (s.rf.chains.get p.chain).window.lo)
    ncoPhase := ncoPhaseAt b (convIndex t), ncoAt := t }

/-- The change is applied: the zero interval begins, or an ingress band path waits for its chain (R105). What measures around the
band path starts afresh (R137, R140). -/
def applyChange (d : Dir) (n : Nat) (p : BpParams) (s : State) : State :=
  match bandPath s d n with
  | none => s
  | some b =>
    let waits := d == .ingress && !chainDelivers s p.chain
    let same := p.center == b.params.center && p.preset == b.params.preset && p.chain == b.params.chain &&
      p.srcFlow == b.params.srcFlow && p.srcId == b.params.srcId && p.stages == b.params.stages
    bandChanged d n same (modBand d n (fun b =>
      if waits then { b.enter (now s) .waiting 0 with params := p, next := none, misaligned := false, alignErr := 0 }
      else beginZeros s d b p) s)

/-- The fade-out of an ingress band path, or the mute ramp of an egress one, begins at its first sample from the present
instant on, towards the parameters `p` (R101, R103). -/
def beginFade (s : State) (b : BandPath) (p : Option BpParams) : BandPath :=
  let t := now s + sampleWait s.air b.alignErr (samplePeriod b.params.stages)
  { b.enter t .fadeOut (t + fadeTc b.params.stages) with
    next := p, lastChange := now s, settleTotal := b.settleTotal + 1 }

/-- A settling change begins (R101, R103, R108): a fade-out or mute ramp from the normal state or the fade-in; at once in the
zero interval or while the chain does not deliver; at the end of a fade-out that runs. -/
def startSettle (d : Dir) (n : Nat) (p : BpParams) (s : State) : State :=
  match bandPath s d n with
  | none => s
  | some b =>
    let by_ (t : Nat) : Nat := settleDeadline t (fadeTc b.params.stages + settleTail d p)
    let note (x : BandPath) : BandPath := { x with
      lastChange := now s, settleTotal := x.settleTotal + 1, settleBy := by_ (now s) }
    match b.phase with
    | .zeros | .waiting => applyChange d n p (modBand d n note s)
    | .fadeOut => modBand d n (fun x => { note x with next := some p }) s
    | .idle | .fadeIn =>
      if d = .ingress ∧ chainDelivers s b.params.chain = false then applyChange d n p (modBand d n note s)
      else modBand d n (fun x =>
        let y := beginFade s x (some p)
        { y with settleBy := by_ y.phaseSince }) s

/-- The chain of an ingress band path is about to stop delivering: fade-out without a change (R105). -/
def fadeForChain (n : Nat) (s : State) : State :=
  match s.ce.ib.get n with
  | none => s
  | some b =>
    match b.phase with
    | .idle | .fadeIn => modBand .ingress n (fun x => { beginFade s x none with settleBy := 0 }) s
    | .zeros => modBand .ingress n (fun x => { x.enter (now s) .waiting 0 with settleBy := 0 }) s
    | _ => s

/-- A receive chain stops delivering: its band paths deliver GAPPED zeros, and a change that was fading is applied (R105). -/
def chainStops (c : Nat) (s : State) : State :=
  refreshGains ((ibsOfChain s c).foldl (fun acc n =>
    let acc1 := (match (acc.ce.ib.get n).bind (·.next) with
      | some p => applyChange .ingress n p acc
      | none => acc)
    modBand .ingress n (fun b => 
      if b.params.chain ≠ c then b else { (if b.phase = .waiting then b else b.enter (now acc) .waiting 0) with settleBy := 0 }) acc1) s)

/-- A receive chain delivers again: each of its band paths outputs S zeros and then fades in (R105). -/
def chainDeliversAgain (c : Nat) (s : State) : State :=
  refreshGains ((ibsOfChain s c).foldl (fun acc n => modBand .ingress n (fun b =>
    match b.phase with
    | .waiting => { beginZeros acc .ingress b b.params with
        settleBy := settleDeadline (now acc) (settleTail .ingress b.params) }
    | _ => b) acc) s)

/-- The fade-out of an ingress band path or the mute ramp of a settling egress band path has ended (R101, R103). -/
def fadeOutDone (d : Dir) (n : Nat) (s : State) : State :=
  match bandPath s d n with
  | some b =>
    (match b.next with
     | some p => refreshGains (applyChange d n p s)
     | none => refreshGains (modBand d n (fun x => x.enter (now s) .waiting 0) s))
  | none => s

/-- The zero interval has ended: an ingress band path fades in up to the end of a block, an egress band path unmutes
(R101–R103, R107). -/
def zerosDone (d : Dir) (n : Nat) (s : State) : State :=
  match bandPath s d n with
  | none => s
  | some b =>
    match d with
    | .ingress =>
      let block := 16 * samplePeriod b.params.stages
      let o := s.air.offset + fadeTc b.params.stages
      modBand d n (fun x => x.enter (now s) .fadeIn (now s + ((o + block - 1) / block * block - s.air.offset))) s
    | .egress =>
      postNotice 0x0401 (128 + n) (now s)
        (refreshGains (modBand d n (fun x => { x.enter (now s) .idle 0 with settleBy := 0 }) s))

/-- The settle of an ingress band path is over (R107). -/
def fadeInDone (n : Nat) (s : State) : State :=
  postNotice 0x0401 n (now s)
    (refreshGains (modBand .ingress n (fun x => { x.enter (now s) .idle 0 with settleBy := 0 }) s))

/-- Realignment of one band path: it settles with its own parameters (R97, R98). -/
def realign (d : Dir) (n : Nat) (s : State) : State :=
  match bandPath s d n with
  | some b => startSettle d n (b.next.getD b.params) s
  | none => s

/-- Realignment that takes effect now: a fade or ramp that was to end now has ended, and a zero interval begins again (R97, R98,
R108). -/
def realignNow (d : Dir) (n : Nat) (s : State) : State :=
  let fading (x : State) : Bool := match bandPath x d n with
    | some b => b.phase == .fadeOut
    | none => false
  let s1 := if fading s then s else realign d n s
  if fading s1 then fadeOutDone d n s1 else s1

/-- A fade or ramp of a band path that is to be realigned, and that does not settle already, begins (R97, R98). -/
def realignFade (d : Dir) (n : Nat) (s : State) : State :=
  match bandPath s d n with
  | some b => if b.phase = .idle ∨ b.phase = .fadeIn then refreshGains (realign d n s) else s
  | none => s

/-- F of a band path, Tc. -/
def fadeOf (s : State) (x : Dir × Nat) : Nat := ((bandPath s x.1 x.2).map (fun b => fadeTc b.params.stages)).getD 0

/-- Insertion into the order of falling F. -/
def insertFade (s : State) (x : Dir × Nat) : List (Dir × Nat) → List (Dir × Nat)
  | [] => [x]
  | y :: rest => if fadeOf s y < fadeOf s x then x :: y :: rest else y :: insertFade s x rest

/-- The fades or ramps of a set of band paths begin so that each ends at the monotonic instant `t` (R97, R98). -/
def fadeTowards (t : Nat) (l : List (Dir × Nat)) (s : State) : State :=
  (l.foldl (fun acc x => insertFade s x acc) []).foldl (fun acc x =>
    realignFade x.1 x.2 (advanceTo (t - fadeOf s x) acc)) s

/-- The samples of a band path whose filters span a converter sample of the present instant: from the first sample on, S samples,
extended to whole blocks (R106). -/
def stepSpan (a : AirState) (b : BandPath) : Mark :=
  let per := samplePeriod b.params.stages
  let first := a.offset + sampleWait a b.alignErr per
  let lo := first / (16 * per) * (16 * per)
  let hi := (first + zeroTc b.params + 16 * per - 1) / (16 * per) * (16 * per)
  ⟨.step, a.mono + lo - a.offset, a.mono + hi - a.offset⟩

/-- The step attenuator of a receive chain changed: the span is marked SETTLING with VALID set and measures nothing (R106). -/
def markStep (c : Nat) (s : State) : State :=
  (ibsOfChain s c).foldl (fun acc n => modBand .ingress n (fun b =>
    { b with marks := stepSpan acc.air b :: keepMarks (now acc) b.marks }) acc) s

end Sys2Proof.Machine
end

