-- ==== Sys2Proof/Machine/Samples.lean ====
section
/-! DEFINITION. Arithmetic on samples: the formats and rounding of the channel engine (R91), the digital front (R61, R63), the way
from the converter to band rate and back (R86, R87, R90), block timestamps (R94), predistortion (R113), the shape of the
Beacon pilot (R124) and the spectra and profiles that the loop guard takes (R128, R142). The coefficients of the filters are
free values of Config: the spec gives lengths and masks, no coefficients (log entry 129). -/

namespace Sys2Proof.Machine

open Sys2Proof

/-! ## Complex numbers and formats (R91) -/

def cAdd (a b : Cx) : Cx := (a.1 + b.1, a.2 + b.2)
def cSub (a b : Cx) : Cx := (a.1 - b.1, a.2 - b.2)
def cMul (a b : Cx) : Cx := (a.1 * b.1 - a.2 * b.2, a.1 * b.2 + a.2 * b.1)
def cConj (a : Cx) : Cx := (a.1, -a.2)
def cScale (k : Int) (a : Cx) : Cx := (k * a.1, k * a.2)
/-- |a|². -/
def cNorm (a : Cx) : Nat := (a.1 * a.1 + a.2 * a.2).toNat

def cSum (l : List Cx) : Cx := l.foldl cAdd (0, 0)

/-- A quotient of both components, rounded to even. -/
def cRound (den : Int) (a : Cx) : Cx := (roundEven a.1 den, roundEven a.2 den)

/-- One component saturated symmetrically to Q5.18, and whether it was. -/
def saturate (x : Int) : Int × Bool := (clampI 8388607 x, decide (8388607 < x.natAbs))

/-- A sample limited to ±`m` in each component, and whether that changed it. -/
def cLimit (m : Int) (a : Cx) : Cx × Bool :=
  ((clampI m a.1, clampI m a.2), decide (m < a.1.natAbs) || decide (m < a.2.natAbs))

/-- A value with `f` more fraction bits requantised to a band-path sample, Q5.18. -/
def toBand (f : Nat) (a : Cx) : Cx × Bool := cLimit 8388607 (cRound ((2 ^ f : Nat) : Int) a)

/-- Power of a sum of |x|² over `n` samples in Q5.18, 0.01 dBFS; none without a sample (R109). -/
def meanPower (sum n : Nat) : Option Int := if n = 0 then none else some (decibel (sum * unity / (n * 2 ^ 36)))

/-- The sums of R109 over samples. -/
def powerOf (l : List Cx) : PowerSum :=
  l.foldl (fun p x => { sum := p.sum + cNorm x, count := p.count + 1, peak := max p.peak (cNorm x) }) {}

/-- Two sums together. -/
def PowerSum.plus (a b : PowerSum) : PowerSum := { sum := a.sum + b.sum, count := a.count + b.count, peak := max a.peak b.peak }

/-- Mean power of a sum, 0.01 dBFS. -/
def PowerSum.mean (p : PowerSum) : Option Int := meanPower p.sum p.count

/-! ## Sine and cosine (R86) -/

/-- exp(2πi × 2^k / 2^20) for k = 0 to 19, in units of 10^−30. -/
def circleTable : List Cx :=
  [(999999999982047294177282624148, 5992112452642427842879712),
   (999999999928189176709775095884, 11984224905069706421521562),
   (999999999712756706849413972219, 23968449808418218729186577),
   (999999998851026827562673307795, 47936899603066884549003990),
   (999999995404107312890971933140, 95873799095977345870517211),
   (999999981616429293808346915403, 191747597310703307439909562),
   (999999926465717851144731480707, 383495187571395589072461681),
   (999999705862882219160228217739, 766990318742704526938568358),
   (999998823451701909929025710172, 1533980186284765612303697150),
   (999995293809576171511580125700, 3067956762965976270145365491),
   (999981175282601142656990437729, 6135884649154475359640234590),
   (999924701839144540921646491196, 12271538285719926079408261951),
   (999698818696204220115765649666, 24541228522912288031734529459),
   (998795456205172392714771604759, 49067674327418014254954976943),
   (995184726672196886244836953109, 98017140329560601994195563889),
   (980785280403230449126182236134, 195090322016128267848284868477),
   (923879532511286756128183189397, 382683432365089771728459984030),
   (707106781186547524400844362105, 707106781186547524400844362105),
   (0, 1000000000000000000000000000000),
   (-1000000000000000000000000000000, 0)]

/-- exp(2πi × n / 2^20), in units of 10^−30. -/
def circlePoint (n : Nat) : Cx :=
  (List.range 20).foldl (fun acc k =>
    if n.testBit k then cRound (10 ^ 30) (cMul acc (circleTable.getD k (0, 0))) else acc) (10 ^ 30, 0)

/-- Cosine and sine from the table that the top 20 bits of a 48-bit phase address, 18 bits each, Q1.17 (R86). -/
def sinCos (phase : Nat) : Cx :=
  (cLimit 131071 (cRound (10 ^ 30) (cScale 131072 (circlePoint (phase / 2 ^ 28 % 2 ^ 20))))).1

/-- A falling raised cosine: its factor after `i` of `f` steps, scaled by 2^17 (R101, R156, R162). -/
def raisedCosine (i f : Nat) : Int :=
  if f ≤ i then 0
  else roundEven ((131072 * 10 ^ 30 : Int) + 131072 * (circlePoint (i * 2 ^ 19 / f)).1) (2 * 10 ^ 30)

/-! ## Filters (R87, R90) -/

/-- One output of a filter of `n` taps over the oldest samples of a list. -/
def fir (tap : Nat → Int) : Nat → Nat → List Cx → Cx
  | _, 0, _ => (0, 0)
  | _, _ + 1, [] => (0, 0)
  | k, n + 1, x :: rest => cAdd (cScale (tap k) x) (fir tap (k + 1) n rest)

/-- `count` outputs of a filter of `n` taps (Q1.17 coefficients) that steps on by `step` samples each time. -/
def filterRun (tap : Nat → Int) (n step : Nat) : Nat → List Cx → List (Cx × Bool)
  | 0, _ => []
  | c + 1, l => toBand 17 (fir tap 0 n l) :: filterRun tap n step c (l.drop step)

/-- Tap `k` of the polyphase filter at a sub-phase, from a prototype symmetric about its centre (R87). -/
def thirdTap (sub k : Nat) : Int := Config.thirdTap ((64 * k + sub : Nat) - 2304 : Int).natAbs

/-- Tap `k` of a half-band filter of length `n`: linear-phase, one half at its centre, zero at every other even distance (R90). -/
def halfTap (preset n k : Nat) : Int :=
  let j := ((k : Int) - ((n - 1) / 2 : Nat)).natAbs
  if j = 0 then 65536 else if j % 2 = 0 then 0 else Config.halfTap preset n j

/-- Lengths of stages 1 to d (table *Half-band lengths*). -/
def stageLengths (preset d : Nat) : List Nat :=
  let (e, p, f) := halfBand preset
  List.replicate (d - 2) e ++ (if 2 ≤ d then [p] else []) ++ [f]

/-- Samples that the first of these decimators needs for `count` outputs of the last. -/
def decimatorInput (count : Nat) (lengths : List Nat) : Nat := lengths.foldr (fun n c => 2 * (c - 1) + n) count

/-- A list of samples with their saturation marks split into the two. -/
def splitClip (l : List (Cx × Bool)) : List Cx × Bool := (l.map (·.1), l.any (·.2))

/-- The half-band decimators in order, `count` outputs of the last. -/
def decimate (preset count : Nat) : List Nat → List Cx × Bool → List Cx × Bool
  | [], x => x
  | n :: rest, x =>
    let y := splitClip (filterRun (halfTap preset n) n 2 (decimatorInput count rest) x.1)
    decimate preset count rest (y.1, x.2 || y.2)

/-! ## The digital front (R61, R63) -/

/-- The inverse of an attenuator setting, scaled by 2^17. -/
def attenInverse (f : FrontCal) (db : Nat) : Int := ((f.steps[db]?.getD (amplitude ((100 * db : Nat) : Int) / 8) : Nat) : Int)

/-- One converter sample with the 23 before it, newest first, corrected: DC and leakage out, gain, skew and phase, and the
inverse of the attenuation; Q5.15 (R61, R63, R91). -/
def frontSample (f : FrontCal) (db : Nat) (l : List Cx) : Cx × Bool :=
  let y := l.map (fun x => cSub (cScale 16 x) f.dc)
  let i := (y.getD 0 (0, 0)).1
  let skew : Int := if f.skew = [] then (y.getD 0 (0, 0)).2 * 131072 else ((f.skew.zip y).map (fun p => p.1 * p.2.2)).sum
  let q := roundEven (f.gain * skew) (2 ^ 17) + f.phase * i
  cLimit 524287 (cRound (2 ^ 34) (cScale (attenInverse f db) (i * 131072, q)))

/-- The converter samples from the 24th on, corrected; `db n` is the attenuation at the converter sample of number `n`. -/
def frontRun (f : FrontCal) (db : Nat → Nat) (first : Nat) (l : List Cx) : List (Cx × Bool) :=
  (List.range (l.length - 23)).map (fun k => frontSample f (db (first + 23 + k)) ((l.drop k).take 24).reverse)

/-! ## Down and up (R86, R87) -/

/-- Samples in Q5.15 turned by the NCO, whose phase is given at each, to Q5.18. -/
def mixDown (phase : Nat → Nat) (l : List Cx) : List (Cx × Bool) :=
  l.zipIdx.map (fun (x, k) => toBand 14 (cMul x (sinCos (phase k))))

/-- Sixteen band-path samples from the corrected converter samples under their filters (R86, R87, R90). -/
def downConvert (p : BpParams) (sub : Nat) (phase : Nat → Nat) (l : List Cx) : List Cx × Bool :=
  let lengths := stageLengths p.preset p.stages
  let x := splitClip (mixDown phase l)
  let y := splitClip (filterRun (thirdTap sub) 73 3 (decimatorInput 16 lengths) x.1)
  decimate p.preset 16 lengths (y.1, x.2 || y.2)

/-- Zeros put between the samples for interpolation by `k`. -/
def stuffZeros (k : Nat) (l : List Cx) : List Cx := (l.map (fun x => x :: List.replicate (k - 1) (0, 0))).flatten

/-- Interpolation by `k` with a filter of `n` taps, as many outputs as the filter has whole spans. -/
def interpolate (k n : Nat) (tap : Nat → Int) (l : List Cx) : List Cx :=
  let x := stuffZeros k l
  (filterRun (fun j => k * tap j) n 1 (x.length + 1 - n) x).map (·.1)

/-- Band-path samples brought to fCONV and turned to their IF; the oldest samples are the history of the filters. -/
def upConvert (p : BpParams) (sub : Nat) (phase : Nat → Nat) (count : Nat) (l : List Cx) : List Cx :=
  let x := (stageLengths p.preset p.stages).reverse.foldl (fun acc n => interpolate 2 n (halfTap p.preset n) acc) l
  let y := interpolate 3 73 (thirdTap sub) x
  let z := y.drop (y.length - count)
  z.zipIdx.map (fun (v, k) => (toBand 17 (cMul v (sinCos (phase k)))).1)

/-! ## Instants (R94, R96) -/

/-- Difference that air time has gained on the converter clock since the integer phases of a band path were chosen, in moves of
1/96 Tc (R96). -/
def trackMoves (a : AirState) (b : BandPath) : Int :=
  (((airCount a - ((a.mono * 65536 : Nat) : Int)) - b.trackRef) * 96).tdiv 65536

/-- Fractional sub-phase of the ÷3 or ×3 stage, 0–63: air time that gains moves the samples back on the converter clock (R96). -/
def subPhase (a : AirState) (b : BandPath) : Nat := (-(trackMoves a b) % 64).toNat

/-- Monotonic instant of the first output sample of a block at its receive pin, 1/96 Tc: the centre of its filters on the sample
clock less D_RX (R93, R94). -/
def pinFine (p : BpParams) (sub first : Nat) : Nat :=
  (first + 23) * 64 + (24 + halfBandDelay p.preset p.stages) * 96 + sub - 420 * 96

/-- The air-time instant of a monotonic instant given in 1/96 Tc, rounded to even (R94). -/
def airOfFine (a : AirState) (t : Nat) : AirInstant :=
  let off := roundEven ((airCount a - ((a.mono * 65536 : Nat) : Int)) * 96) 65536
  let n := (roundEven ((t : Int) + off) 96 % ((4294967296 * tcPerFrame : Nat) : Int)).toNat
  ⟨n / tcPerFrame, n % tcPerFrame⟩

/-- The instant `n` Tc before another (R11). -/
def instantBack (i : AirInstant) (n : Nat) : AirInstant :=
  let m := (((i.frame * tcPerFrame + i.offset : Nat) : Int) - n) % ((4294967296 * tcPerFrame : Nat) : Int)
  ⟨m.toNat / tcPerFrame, m.toNat % tcPerFrame⟩

/-- An instant lies in a span that ends before `hi`. -/
def inSpan (lo hi i : AirInstant) : Bool := !instantBefore i lo && instantBefore i hi

/-! ## Predistortion (R113) -/

/-- The terms of the polynomial: order k, delay m, and the cross lag l of a b-term; the a-terms come first (log entry 130). -/
def dpdTerms (orders memory cross : Nat) : List (Nat × Nat × Int) :=
  let ks := [3, 5, 7, 9].zipIdx.filterMap (fun (k, i) => if orders.testBit i then some k else none)
  let ms := List.range memory
  let ls := (List.range cross).flatMap (fun i => [((i + 1 : Nat) : Int), -((i + 1 : Nat) : Int)])
  (1 :: ks).flatMap (fun k => ms.map (fun m => (k, m, 0))) ++
    ks.flatMap (fun k => ms.flatMap (fun m => ls.map (fun l => (k, m, l))))

/-- The identity set of a model: a[1,0] = 1, every other coefficient 0 (R114); coefficients in Q2.16. -/
def dpdIdentity (terms : List (Nat × Nat × Int)) : List Cx := terms.zipIdx.map (fun (_, i) => if i = 0 then (65536, 0) else (0, 0))

/-- One output of the polynomial at index `n` of the composite, Q1.15 (R91, R113). The composite is in units of 2^−18. -/
def dpdSample (terms : List (Nat × Nat × Int)) (set : List Cx) (x : Int → Cx) (n : Int) : Cx :=
  let one (t : (Nat × Nat × Int) × Cx) : Cx :=
    let (k, m, l) := t.1
    let e := (k - 1) / 2
    cRound ((2 ^ (36 * e) : Nat) : Int) (cScale ((cNorm (x (n - m - l))) ^ e : Nat) (cMul t.2 (x (n - m))))
  (cLimit 32767 (cRound (2 ^ 19) (cSum ((terms.zip set).map one)))).1

/-! ## The Beacon pilot (R122, R124) -/

/-- π, in units of 10^−30. -/
abbrev piFine : Nat := 3141592653589793238462643383279

/-- Cosine and sine of 2π × num / 400, in units of 10^−30. -/
def circle400 (num : Nat) : Cx := circlePoint (num * 2 ^ 20 / 400 % 2 ^ 20)

/-- The root-raised-cosine pulse of roll-off 0.22 at `i` quarter chips from its centre, scaled by 2^17 (R124):
(sin(πt(1−α)) + 4αt cos(πt(1+α))) / (πt(1 − (4αt)²)) with t = i/4. -/
def rrcPulse (i : Int) : Int :=
  let n := i.natAbs
  if n = 0 then roundEven (131072 * (78 * (piFine : Int) + 88 * 10 ^ 30)) (100 * (piFine : Int))
  else
    let num := 50 * (circle400 (39 * n)).2 + 11 * (n : Int) * (circle400 (61 * n)).1
    let den := (piFine : Int) * n * (2500 - 121 * (n : Int) ^ 2)
    roundEven (131072 * num * 200 * den.sign) den.natAbs

/-- Sign of the chip `c` of a pilot period with `prefix_` chips before the code, counted from its start: the prefix is the final
chips of the code, and chips before the period are the last ones of the period before, under its sign (R124, R125). -/
def chipSign (code : List Bool) (prefix_ : Nat) (neg negOld : Bool) (c : Int) : Int :=
  let l : Int := code.length
  let k := ((c - prefix_) % l).toNat
  let last := (c % l).toNat
  let b := if c < 0 then xor (code.getD last false) negOld else xor (code.getD k false) neg
  if b then -1 else 1

/-- The pilot at sample `j` of its period, of unit mean power, scaled by 2^17: four samples a chip, each chip shaped by the pulse
(R124). -/
def pilotSample (code : List Bool) (prefix_ : Nat) (neg negOld : Bool) (j : Nat) : Int :=
  let c : Int := j / 4
  let r : Int := j % 4
  ((List.range (2 * Config.rrcSpan + 1)).map (fun i =>
    chipSign code prefix_ neg negOld (c - i) * rrcPulse (4 * ((i : Int) - Config.rrcSpan) + r))).sum

/-! ## Profiles and spectra (R128, R142) -/

/-- Σ_n x((n + k) mod N) × p(n) for a delay of `k` samples (R128). -/
def correlation (x : List Cx) (p : List Int) (k : Nat) : Cx :=
  cSum (p.zipIdx.map (fun (v, i) => cScale v (x.getD ((i + k) % x.length) (0, 0))))

/-- Its power, in the units of |x|² scaled by the mean power of `p` (R128). -/
def correlate (x : List Cx) (p : List Int) (k : Nat) : Nat :=
  let energy := (p.map (fun v => (v * v).toNat)).sum
  if energy = 0 ∨ x = [] then 0 else cNorm (correlation x p k) / (energy * x.length)

/-- Insertion into a rising list. -/
def insertNat (x : Nat) : List Nat → List Nat
  | [] => [x]
  | y :: rest => if x ≤ y then x :: y :: rest else y :: insertNat x rest

/-- The median of a list of powers; of an even number the lower of the two in the middle. -/
def medianOf (l : List Nat) : Nat := (l.foldl (fun acc x => insertNat x acc) []).getD ((l.length - 1) / 2) 0

/-- Powers of the bins of an `n`-point frame (R142). -/
def spectrum (l : List Cx) : List Nat :=
  let n := l.length
  (List.range n).map (fun k => cNorm (cSum (l.zipIdx.map (fun (x, i) =>
    cRound (2 ^ 17) (cMul x (cConj (sinCos (i * k % n * 2 ^ 48 / n))))))))

end Sys2Proof.Machine
end

