-- ==== Sys2Proof/Machine/AirTime.lean ====
section
/-! DEFINITION. Air time (R28–R55, R513): timing sources, lock and holdover, slews and steps, TDD patterns and wall
time. The grid boundaries and the step itself, on which every subsystem acts, stand in Machine/Grid.lean, and the
scheduling commands in Machine/Commands.lean. -/

namespace Sys2Proof.Machine

open Sys2Proof

/-! ## Source selection (R33, R41) -/

/-- Source codes of R31. -/
abbrev srcDonor : Nat := 1
abbrev srcPtp : Nat := 2
abbrev srcFlock : Nat := 3
abbrev srcLocal : Nat := 4

/-- The default priority list of the role (R33). -/
def defaultPriority (s : State) : List Nat :=
  match s.sys.role with
  | .hub => [srcPtp, srcDonor, srcLocal]
  | .remote => [srcFlock]
  | .relay => if inFlock s then [srcFlock] else [srcDonor, srcPtp]
  | .unset => []

/-- The priority list in force, without the sources that the part may not select: LOCAL unless it is bellwether, and
FLOCK when it is (R33, R41). -/
def priorityList (s : State) : List Nat :=
  ((s.air.config.priority.getD (defaultPriority s)).filter (· != 0)).filter
    (fun c => (c != srcLocal || bellwether s) && (c != srcFlock || !bellwether s))

/-- A standby hub takes air time from its mirror links ahead of the list (R472). -/
def selectionList (s : State) : List Nat := if standbyHub s then srcFlock :: without (priorityList s) srcFlock
  else priorityList s

/-- A source is USABLE (R32). -/
def sourceUsable (s : State) (c : Nat) : Bool := (s.air.sources.get c).state == .usable

/-- The step or slew decision of R44 for the selected source. A step falls on the first loop-tick boundary of the old
count at least 20 µs ahead (R45). -/
def decidePhase (s : State) : State :=
  let e := (s.air.sources.get s.air.source).phase
  if e.natAbs ≤ (fineOfNs s.air.config.slewWindow).natAbs then
    s.modAir (fun a => { a with slewLeft := e, phaseErr := e, step := none
                                stepPending := if a.step.isSome then a.stepEndAt.isSome else a.stepPending })
  else
    s.modAir (fun a =>
      let o := (a.offset + 39322 + tcPerTick - 1) / tcPerTick * tcPerTick
      let at_ : AirInstant := if o < tcPerFrame then ⟨a.frame, o⟩ else ⟨(a.frame + 1) % 4294967296, o - tcPerFrame⟩
      { a with slewLeft := 0, phaseErr := e, step := some (at_, e), stepPending := true, stepEndAt := none })

/-- PTP time now, carried on from the last Sync message. -/
def ptpNow (a : AirState) : Option Nat := a.ptpAt.map (fun p => p.1 + (a.mono - p.2) * 100000 / 196608)

/-- What the extended frame count of air time lacks, modulo 100, to the count of frames since FRAME_EPOCH that PTP gives
(R34, R501). The count of the present frame is the PTP count less the frames by which PTP is ahead. -/
def ppsFromPtp (a : AirState) : Option Nat :=
  match ptpNow a with
  | some t =>
    let count : Int := ((t : Int) - a.config.frameEpoch) / 10000000
    let ahead := centred 4294967296 (count - a.frame)
    some ((count - ahead - a.frame) % 100).toNat
  | none => a.ppsBase

/-- A source is selected: air time enters ACQUIRING towards it (table *Air-time states*, R38, R44). -/
def selectSource (c : Nat) (s : State) : State :=
  let e := (timeErrScaled s.air).getD 0
  decidePhase (s.modAir (fun a => { a with
    source := c, lock := .acquiring, lockTicks := 0, errBase := e, errGrowth := 0
    ppsBase := if c = srcPtp then ppsFromPtp a else a.ppsBase }))

/-- The average of the frequency samples of the last 60 s of LOCKED (R39): the mean of the samples kept, rounded down, each
counting once whatever the time between them. The rule does not say how it is averaged (log entry 119). -/
def averageFreq (a : AirState) : Int :=
  if a.freqLog.isEmpty then a.freqOff else (a.freqLog.map (·.2)).sum / (a.freqLog.length : Int)

/-- No source is left: HOLDOVER once ACQUIRED, else FREE_RUN (table *Air-time states*, R38, R39). -/
def loseSource (s : State) : State :=
  let e := (timeErrScaled s.air).getD 0
  s.modAir (fun a =>
    if a.acquired then
      if a.lock = .holdover then { a with source := 0 }
      else { a with
        source := 0, lock := .holdover, errBase := e, errGrowth := 0, holdoverAt := a.mono, slewLeft := 0
        freqOff := if a.refQualified then a.refFreq else averageFreq a }
    else { a with source := 0, lock := .freeRun, slewLeft := 0 })

/-- The listed sources ahead of the selected one that have been USABLE for REVERT_HOLD (R33). -/
def revertCandidates (s : State) : List Nat :=
  ((selectionList s).takeWhile (· != s.air.source)).filter (fun c =>
    sourceUsable s c && decide ((s.air.sources.get c).usableSince + tcOfMs s.air.config.revertHold ≤ now s))

/-- Re-evaluates the selection (R33). -/
def reselect (s : State) : State :=
  let l := selectionList s
  if s.air.source ≠ 0 ∧ l.contains s.air.source ∧ sourceUsable s s.air.source then
    match revertCandidates s with
    | c :: _ => if s.air.config.revertive then selectSource c s else s
    | [] => s
  else
    match l.find? (sourceUsable s) with
    | some c => selectSource c s
    | none => if s.air.source = 0 ∧ s.air.lock ≠ .acquiring then s else loseSource s

/-- A source fails (R32); when it was the selected one, selection is made again at once. -/
def failSource (c : Nat) (s : State) : State :=
  let st := (s.air.sources.get c).state
  if st = .usable ∨ st = .qualifying then
    let s1 := s.modAir (fun a => { a with
      sources := a.sources.mod c (fun x => { x with state := .failed, failedAt := a.mono, run := 0 })
      detections := if c = srcDonor then [] else a.detections
      ptpGoodFrom := if c = srcPtp then none else a.ptpGoodFrom })
    if s.air.source = c then reselect s1 else s1
  else s

/-- A source becomes USABLE (R32, R33). -/
def becomeUsable (c : Nat) (s : State) : State :=
  s.modAir (fun a => { a with
    sources := a.sources.mod c (fun x =>
      if x.state = .usable then x else { x with state := .usable, usableSince := a.mono }) })

/-- Frequency samples kept for holdover: those of the last 60 s (R39). -/
def keepFreq (t : Nat) (l : List (Nat × Int)) : List (Nat × Int) := l.filter (fun p => decide (t ≤ p.1 + tcOfS 60))

/-- A measurement of a source's phase against air time, 2^−16 Tc, with its error bound and frequency. -/
def measureSource (c : Nat) (phase : Int) (bound : Nat) (freq : Int) (s : State) : State :=
  s.modAir (fun a =>
    let a1 : AirState := { a with
      sources := a.sources.mod c (fun x => { x with phase := phase, bound := bound, freq := freq, lastAt := a.mono }) }
    if a.source = c then
      { a1 with
        phaseErr := phase, freqOff := freq
        slewLeft := if a.lock = .locked ∧ phase.natAbs ≤ (fineOfNs a.config.slewWindow).natAbs then phase
          else a1.slewLeft
        freqLog := if a.lock = .locked then (a.mono, freq) :: keepFreq a.mono a.freqLog else a.freqLog }
    else a1)

/-! ## DONOR (R35, R513) -/

/-- Every detection lies within ±200 ns of the straight line fitted through all of them by least squares (R513). -/
def lineFits (period : Nat) (l : List DonorDetection) : Bool :=
  let n : Int := l.length
  let t0 : Int := (l.head?.map (·.timing)).getD 0
  let pts : List (Int × Int) :=
    (List.range l.length).map (fun (k : Nat) =>
      ((k : Int), (l.getD k ⟨0, 0⟩).timing - t0 - ((k * period * tcPerMs : Nat) : Int)))
  let sx := (pts.map (·.1)).sum
  let sy := (pts.map (·.2)).sum
  let sxx := (pts.map (fun p => p.1 * p.1)).sum
  let sxy := (pts.map (fun p => p.1 * p.2)).sum
  let d := n * sxx - sx * sx
  let b := n * sxy - sx * sy
  let a := sy * sxx - sx * sxy
  pts.all (fun p => decide ((p.2 * d - a - b * p.1).natAbs * 1000 ≤ 393216 * d.natAbs))

/-- Every SFN is the one predicted from the first detection and the period (R513). -/
def sfnConsistent (period : Nat) (l : List DonorDetection) : Bool :=
  let h0 := (l.head?.map (·.half)).getD 0
  (List.range l.length).all (fun k => (l.getD k ⟨0, 0⟩).half % 2048 == (h0 + k * period / 5) % 2048)

/-- The expected period, ms, from the spacing of two detections: 10 ms for LTE, an SSB periodicity for NR (R513). -/
def periodOfSpacing (nr : Bool) (spacing : Int) : Nat :=
  let ms := ((spacing + tcPerMs / 2) / tcPerMs).toNat
  if nr then (if [5, 10, 20, 40, 80, 160].contains ms then ms else 0) else 10

/-- A spacing of two detections in whole ms. -/
def spacingMs (x y : DonorDetection) : Int := (y.timing - x.timing + tcPerMs / 2) / tcPerMs

/-- While DONOR is USABLE the spacing has changed: it is not the expected period, nor two or three periods once, which are
missed detections (R513, log entry 118). An LTE donor's period is always 10 ms. -/
def spacingChanged (nr : Bool) (period : Nat) (l : List DonorDetection) (d : DonorDetection) : Bool :=
  match l.getLast? with
  | none => false
  | some x =>
    if nr then
      let m := spacingMs x d
      let before : Int := match l.dropLast.getLast? with
        | some w => spacingMs w x
        | none => period
      let missed : Bool := (m == 2 * (period : Int) || m == 3 * (period : Int)) && before != m
      m != (period : Int) && !missed
    else period != 10

/-- The phase of the donor against air time: its frame number placed nearest to the present count (R35). -/
def donorPhase (a : AirState) (d : DonorDetection) : Int :=
  let airThen := airCount a - ((a.mono : Int) - d.timing) * 65536
  centred ((1024 * tcPerFrame * 65536 : Nat) : Int) (((d.half * (tcPerFrame / 2) * 65536 : Nat) : Int) - airThen)

/-- A donor synchronisation signal is detected (R513). -/
def donorDetection (i : DonorInput) (s : State) : State :=
  if i.valid = false ∨ i.path ≠ s.air.config.donorPath ∨ (s.air.sources.get srcDonor).state = .failed ∨
      (s.air.sources.get srcDonor).state = .absent then s
  else
    let d : DonorDetection := ⟨2 * i.sfn + flag i.second, (i.timing : Int) - s.air.config.donorDelay⟩
    let prev := s.air.detections.getLast?
    let period := match prev with
      | some p => periodOfSpacing i.nr (d.timing - p.timing)
      | none => if i.nr then 0 else 10
    let kept := s.air.detections ++ [d]
    let restart := prev.isSome && s.air.detections.length ≠ 1 && period ≠ s.air.donorPeriod ||
      (prev.isSome && (period = 0 || !sfnConsistent period kept))
    if sourceUsable s srcDonor ∧ spacingChanged i.nr s.air.donorPeriod s.air.detections d then
      let s1 := s.modAir (fun a => { a with
        detections := [d], donorPeriod := if i.nr then 0 else 10
        sources := a.sources.mod srcDonor (fun x => { x with state := .qualifying, run := 1, lastAt := a.mono }) })
      if s.air.source = srcDonor then reselect s1 else s1
    else if sourceUsable s srcDonor then
      measureSource srcDonor (donorPhase s.air d) (1000 * i.bound) i.freq
        (s.modAir (fun a => { a with
          detections := (a.detections ++ [d]).drop (a.detections.length + 1 - 8)
          sources := a.sources.mod srcDonor (fun x => { x with lastAt := a.mono }) }))
    else if restart then
      s.modAir (fun a => { a with
        detections := [d], donorPeriod := if i.nr then 0 else 10
        sources := a.sources.mod srcDonor (fun x => { x with state := .qualifying, run := 1, lastAt := a.mono }) })
    else
      let s1 := s.modAir (fun a => { a with
        detections := kept.drop (kept.length - 8), donorPeriod := period
        sources := a.sources.mod srcDonor (fun x =>
          { x with state := .qualifying, run := x.run + 1, lastAt := a.mono }) })
      if 8 ≤ kept.length ∧ lineFits period (kept.drop (kept.length - 8)) then
        becomeUsable srcDonor (measureSource srcDonor (donorPhase s1.air d) (1000 * i.bound) i.freq s1)
      else s1

def execDonorDetection (d : DonorInput) (s : State) : Host.Outcome State Fault Refusal := .next (donorDetection d s)

/-- Four expected synchronisation periods pass without a detection and DONOR fails (R513). Before the period of an NR donor is
known, the longest, 160 ms, is expected (log entry 118). -/
def donorSyncTimeout (s : State) : State :=
  let x := s.air.sources.get srcDonor
  let ms := if s.air.donorPeriod = 0 then 160 else s.air.donorPeriod
  if x.state = .usable ∨ x.state = .qualifying then
    failSource srcDonor (advanceTo (x.lastAt + 4 * tcOfMs ms) s)
  else s

def execDonorSyncTimeout (s : State) : Host.Outcome State Fault Refusal := .next (donorSyncTimeout s)

/-! ## Wall time (R55) -/

/-- One nanosecond in the unit of `wallAcc`. -/
abbrev wallNs : Nat := 196608 * 65536

/-- Low and high words of a 64-bit value. -/
def lohi (n : Nat) : List Nat := [n % 4294967296, n / 4294967296 % 4294967296]

/-- Wall time is set to `t` ns from PTP (0) or WALL_TIME_SET (1): a correction of 1 µs or less is slewed, a larger one
is stepped and recorded, a backward step raises the epoch first, and the first setting is a forward step (R55, R403). -/
def setWall (t kind : Nat) (s : State) : State :=
  let old := wallNow s
  let d : Int := (t : Int) - old
  if s.air.wallSet ∧ d.natAbs ≤ 1000 then
    s.modAir (fun a => { a with wallSlew := d * wallNs })
  else
    let s1 := if s.air.wallSet ∧ d < 0 then s.modLog (fun l => { l with epoch := (l.epoch + 1) % 65536 }) else s
    submitLog 0x0104 (sourceIndex 6 0) ([0] ++ lohi old ++ lohi t ++ [kind])
      (s1.modAir (fun a => { a with wallAcc := t * wallNs, wallSet := true, wallSlew := 0 }))

/-! ## PTP (R34, R417, R513) -/

/-- The phase of PTP time `t` against air time: the extended frame count of R34 and the offset within the frame. -/
def ptpPhase (a : AirState) (t : Nat) : Int :=
  let fine := fineOfNs ((t : Int) - a.config.frameEpoch)
  centred ((4294967296 * tcPerFrame * 65536 : Nat) : Int) (fine - airCount a)

/-- A Sync message counts: it is valid and of the configured transport, profile and domain (R417). -/
def ptpCounts (n : NetConfig) (m : PtpInput) : Bool :=
  m.valid && m.transport == n.transport && m.profile == n.profile && m.domain == n.domain

/-- A PTP Sync message is received (R513): the servo offset qualifies the source after 2 s within ±100 ns. -/
def ptpSyncRx (m : PtpInput) (s : State) : State :=
  let st := (s.air.sources.get srcPtp).state
  if ptpCounts s.host.net m = false ∨ st = .failed ∨ st = .absent then s
  else
    let good := decide (m.offset.natAbs ≤ 100)
    let s1 := s.modAir (fun a => { a with
      ptpAt := some (m.time, a.mono)
      ptpGoodFrom := if good then (match a.ptpGoodFrom with
        | some t => some t
        | none => some m.time) else none
      sources := a.sources.mod srcPtp (fun x =>
        { x with state := if x.state = .searching then .qualifying else x.state, lastAt := a.mono }) })
    let s2 := measureSource srcPtp (ptpPhase s1.air m.time) (1000 * m.bound) m.freq s1
    let s3 := match s2.air.ptpGoodFrom with
      | some t0 => if t0 + 2000000000 ≤ m.time then becomeUsable srcPtp s2 else s2
      | none => s2
    if sourceUsable s3 srcPtp then setWall m.time 0 s3 else s3

def execPtpSyncRx (m : PtpInput) (s : State) : Host.Outcome State Fault Refusal := .next (ptpSyncRx m s)

/-- No valid Sync message for 3 s and PTP fails (table *Timing sources*). -/
def ptpSyncTimeout (s : State) : State :=
  let x := s.air.sources.get srcPtp
  if x.state = .usable ∨ x.state = .qualifying then failSource srcPtp (advanceTo (x.lastAt + tcOfS 3) s) else s

def execPtpSyncTimeout (s : State) : Host.Outcome State Fault Refusal := .next (ptpSyncTimeout s)

/-- R500. A PPS_IN edge marks the second; pulses between 100 ns and 900 ms wide are accepted, and the edge is the phase
reference of PTP while a Sync message names the second. -/
def ppsInEdge (widthNs : Nat) (s : State) : State :=
  if widthNs < 100 ∨ 900000000 < widthNs then s
  else
    let s1 := s.modAir (fun a => { a with ppsAt := some a.mono })
    match s1.air.ptpAt with
    | some (t, m) =>
      let here := t + (now s1 - m) * 100000 / 196608
      let second := (here + 500000000) / 1000000000 * 1000000000
      let x := s1.air.sources.get srcPtp
      if x.state = .usable ∨ x.state = .qualifying then
        measureSource srcPtp (ptpPhase s1.air second) x.bound x.freq s1
      else s1
    | none => s1

def execPpsInEdge (widthNs : Nat) (s : State) : Host.Outcome State Fault Refusal := .next (ppsInEdge widthNs s)

/-- Two consecutive expected PPS_IN edges are missing while PPS is in use, and PTP fails. -/
def ppsInMissing (s : State) : State :=
  match s.air.ppsAt with
  | some t => failSource srcPtp ((advanceTo (t + tcOfS 2) s).modAir (fun a => { a with ppsAt := none }))
  | none => s

def execPpsInMissing (s : State) : Host.Outcome State Fault Refusal := .next (ppsInMissing s)

/-! ## Retries and the highest source -/

/-- A FAILED source returns to SEARCHING after 1 s (R32). -/
def sourceRetry (code : Nat) (s : State) : State :=
  let x := s.air.sources.get code
  if x.state = .failed then
    (advanceTo (x.failedAt + tcPerSecond) s).modAir (fun a => { a with
      sources := a.sources.mod code (fun y => { y with state := .searching, run := 0 }) })
  else s

def execSourceRetryTimer (code : Nat) (s : State) : Host.Outcome State Fault Refusal := .next (sourceRetry code s)

/-- A higher-priority source has been USABLE for REVERT_HOLD and is selected (R33). -/
def revertHoldExpiry (s : State) : State :=
  match ((selectionList s).takeWhile (· != s.air.source)).find? (sourceUsable s) with
  | some c =>
    if s.air.config.revertive then
      reselect (advanceTo ((s.air.sources.get c).usableSince + tcOfMs s.air.config.revertHold) s)
    else s
  | none => s

def execRevertHoldExpiry (s : State) : Host.Outcome State Fault Refusal := .next (revertHoldExpiry s)

/-! ## Lock, holdover and the time error (R37–R40) -/

/-- TIME_LOSS ends when E is at or below the limit again (R40). -/
def checkTimeLoss (s : State) : State := if timeErrOk s.air then endFault 0x82 partUnit s else s

/-- The phase error of the selected source at a loop tick: LOCKED follows it, or goes back to ACQUIRING when it exceeds
SLEW_WINDOW; ACQUIRING counts the ticks within ±50 ns (table *Air-time states*, R44). -/
def phaseTick (s : State) : State :=
  let e := (s.air.sources.get s.air.source).phase
  match s.air.lock with
  | .locked =>
    if e.natAbs ≤ (fineOfNs s.air.config.slewWindow).natAbs then s.modAir (fun a => { a with slewLeft := e })
    else decidePhase (s.modAir (fun a => { a with
      lock := .acquiring, lockTicks := 0, errBase := (timeErrScaled a).getD 0, errGrowth := 0 }))
  | .acquiring =>
    s.modAir (fun a => { a with
      lockTicks := if e.natAbs ≤ (fineOfNs 50).natAbs then a.lockTicks + 1 else 0
      slewLeft := if a.step.isSome then a.slewLeft else e })
  | _ => s

/-- The phase error has stayed within ±50 ns for 16 loop ticks: LOCKED, and ACQUIRED is set (R37). -/
def atLocked (s : State) : State :=
  if s.air.lock = .acquiring ∧ 16 ≤ s.air.lockTicks then
    checkTimeLoss (s.modAir (fun a => { a with lock := .locked, acquired := true }))
  else s

def execAtLocked (s : State) : Host.Outcome State Fault Refusal := .next (atLocked s)

/-- Tc until E exceeds the limit at the stability now in force; 0 when it exceeds it already (R38, R40). -/
def tcToErrLimit (a : AirState) : Nat :=
  match timeErrScaled a with
  | some e =>
    if e ≤ a.config.errLimit * 196608000000 then
      (a.config.errLimit * 196608000000 - e) / (if a.refQualified then a.config.stabRef else a.config.stabLocal) + 1
    else 0
  | none => 0

/-- E exceeds TIME_ERR_LIMIT while ACQUIRED is set: TIME_LOSS is raised (R40). TDD_ALLOWED follows E. -/
def timeErrLimitExceeded (s : State) : State :=
  if s.air.acquired ∧ (s.air.lock = .holdover ∨ s.air.lock = .acquiring ∨ timeErrOk s.air = false) then
    let s1 := advance (tcToErrLimit s.air) s
    if timeErrOk s1.air then s1 else raiseLevel { cls := 0x82, unit := partUnit } s1
  else s

def execTimeErrLimitExceeded (s : State) : Host.Outcome State Fault Refusal := .next (timeErrLimitExceeded s)

/-- One period of the longest pattern that is not UNSET, or 10 ms (R45). -/
def longestPattern (a : AirState) : Nat :=
  (List.range 8).foldl (fun m p =>
    let x := a.patterns.get p
    match x.state, x.defn with
    | .unset, _ => m
    | _, some d => max m d.period
    | _, none => m) 0

/-- STEP_PENDING clears (R45). -/
def stepPendingEnd (s : State) : State :=
  match s.air.stepEndAt with
  | some t =>
    (advanceTo t s).modAir (fun a => { a with stepEndAt := none, stepPending := a.step.isSome })
  | none => s

/-- 1 s of REF_IN edges has been counted, at a frequency of `freq` (0.01 ppb) from 10 MHz: REF_IN qualifies when they lie within
±2 ppm and none has been missing in that second, and in HOLDOVER the rate is disciplined to it. A count outside ±2 ppm starts
another second (R39). -/
def refInQualify (freq : Int) (s : State) : State :=
  let s1 := waitUntil (s.air.refGoodFrom + tcPerSecond) s
  if freq.natAbs ≤ 200000 then
    s1.modAir (fun a => { a with
      refPresent := true, refQualified := true, refFreq := freq
      freqOff := if a.lock = .holdover then freq else a.freqOff })
  else s1.modAir (fun a => { a with refPresent := true, refGoodFrom := a.mono })

def execRefInQualify (freq : Int) (s : State) : Host.Outcome State Fault Refusal := .next (refInQualify freq s)

/-- REF_IN loses its qualification: holdover falls back to the offset averaged over the last 60 s of LOCKED (R39). -/
def refInLoss (edges : Bool) (s : State) : State :=
  s.modAir (fun a => { a with
    refPresent := edges, refQualified := false, refGoodFrom := a.mono
    freqOff := if a.lock = .holdover then averageFreq a else a.freqOff })

def execRefInLoss (edges : Bool) (s : State) : Host.Outcome State Fault Refusal := .next (refInLoss edges s)

/-- PPS_OUT returns low 1 ms after it rose (R501). -/
def ppsOutPulseEnd (s : State) : State :=
  match s.air.ppsOutEnd with
  | some t => (advanceTo t s).modAir (fun a => { a with ppsOut := false, ppsOutEnd := none })
  | none => s

def execPpsOutPulseEnd (s : State) : Host.Outcome State Fault Refusal := .next (ppsOutPulseEnd s)

/-! ## TDD patterns (R52–R54) -/

/-- A pattern takes a new definition at its effective frame (R53, R54). -/
def applyPattern (f : Nat) (d : PatternDef) (x : Pattern) : Pattern :=
  { x with
    state := if d.refKind = 0 then .asserted else .provisional
    carried := x.state == .verified || x.state == .asserted
    defn := some d, first := true, fails := 0, waiting := none, powers := [], windowAt := f }

/-- Whether every DL segment exceeds every UL segment by `ratio` (0.01 dB): the least difference, if both kinds were
measured (R53). -/
def segmentRatio (segs : List (Nat × SegType)) (powers : List (Option Int)) : Option Int :=
  let pick (t : SegType) : List Int :=
    ((segs.zip powers).filter (fun p => p.1.2 == t)).filterMap (·.2)
  let diffs := (pick .dl).flatMap (fun d => (pick .ul).map (fun u => d - u))
  match diffs with
  | [] => none
  | x :: rest => some (rest.foldl min x)

/-- A window is void when a DL or UL segment has no admitted sample (R53). -/
def windowVoid (segs : List (Nat × SegType)) (powers : List (Option Int)) : Bool :=
  (List.range segs.length).any (fun k =>
    match segs[k]? with
    | some (_, .guard) => false
    | some _ => ((powers.getD k none).isNone)
    | none => false)

/-- What a window that is not void decides: the pattern is VERIFIED when it passes; when it fails, MISMATCH at the first
window or the second failure in a row, each with its notice (R53). -/
def judgeWindow (p : Nat) (fitted : Int) (d : PatternDef) (powers : List (Option Int)) (x : Pattern) (s : State) : State :=
  let ratio := segmentRatio d.segments powers
  let pass := (match ratio with
    | some r => decide (((10 * d.verifyRatio : Nat) : Int) ≤ r)
    | none => true) && decide (fitted.natAbs ≤ d.tol)
  let y : Pattern := { x with fitted := fitted, ratio := ratio.getD x.ratio, first := false }
  if pass then
    let s1 := s.modAir (fun a => { a with
      patterns := a.patterns.set p { y with state := .verified, fails := 0, passed := y.passed + 1 } })
    if x.state = .verified then s1 else postNotice 0x0202 p (unsignedOf 32 y.ratio) s1
  else
    let bad := x.first || decide (1 ≤ x.fails)
    let s1 := s.modAir (fun a => { a with
      patterns := a.patterns.set p { y with state := if bad then .mismatch else x.state, fails := x.fails + 1 } })
    if bad ∧ x.state ≠ .mismatch then postNotice 0x0201 p (unsignedOf 32 fitted) s1 else s1

/-- A verification window ends: the mean envelope power of each segment is that of the reference's admitted samples in it
(R53, R54, R111). -/
def tddVerifyWindowEnd (p : Nat) (fitted : Int) (s : State) : State :=
  let x := s.air.patterns.get p
  match x.defn with
  | none => s
  | some d =>
    if d.refKind = 0 ∨ x.state = .unset ∨ x.state = .asserted then s
    else
      let s0 := advanceToAir ⟨(x.windowAt + d.verifyFrames) % 4294967296, 0⟩ s
      let y : Pattern := { x with powers := [], windowAt := s0.air.frame }
      let powers := x.powers.map PowerSum.mean
      if windowVoid d.segments powers then s0.modAir (fun a => { a with patterns := a.patterns.set p y })
      else judgeWindow p fitted d powers y s0

def execTddVerifyWindowEnd (p : Nat) (late : Bool) (offset : Nat) (s : State) : Host.Outcome State Fault Refusal :=
  .next (tddVerifyWindowEnd p (if late then (offset : Int) else -(offset : Int)) s)

/-! ## Commands -/

/-- The source codes of AT_SOURCE_CONFIG. -/
def sourceList (p : List Byte) : List Nat := (List.range 4).map (u8 p)

/-- AT_SOURCE_CONFIG (0x0201). -/
def specAtSourceConfig : CommandSpec where
  opcode := 0x0201
  role := some .admin
  length := fixedLength 44
  checks := fun s q =>
    let p := q.payload
    let l := sourceList p
    (List.range 4).map (fun k =>
      field 0 (within 0 4 (u8 p k) && (u8 p k == 0 || !(l.take k).contains (u8 p k)))) ++
    [field 4 (within 0 1 (u8 p 4)), field 5 (within 0 127 (u8 p 5)),
     field 6 (zeros p 6 2), field 8 (withinI (-1966080) 1966080 (s32 p 8)), field 12 (within 100 10000 (u32 p 12)),
     field 16 (within 1000 100000 (u32 p 16)), field 20 (within 100 100000 (u32 p 20)),
     field 24 (within 1 10000 (u32 p 24)), field 28 (within 100 100000 (u32 p 28)),
     field 32 (within 1000 600000 (u32 p 32)),
     need .eConflict (!l.contains srcLocal || bellwether s),
     need .eConflict (!l.contains srcDonor || (ibExists s (u8 p 5) && donorFacing s (ibChain s (u8 p 5))))]
  effect := fun s q =>
    let p := q.payload
    (s.modAir (fun a => { a with config := {
      priority := some (sourceList p), revertive := u8 p 4 == 1, donorPath := u8 p 5, donorDelay := s32 p 8
      slewWindow := u32 p 12, slewRate := u32 p 16, errLimit := u32 p 20, stabRef := u32 p 24
      stabLocal := u32 p 28, revertHold := u32 p 32, frameEpoch := u64 p 36 } }), {})

def execAtSourceConfig (r : HostRequest) (s : State) : Host.Outcome State Fault Refusal :=
  .next (submit specAtSourceConfig r s)

/-- Segment type of a code. -/
def segTypeOf (n : Nat) : SegType := if n = 0 then .dl else if n = 1 then .ul else .guard

/-- The pattern definition in a TDD_PATTERN_SET payload. -/
def patternOf (p : List Byte) : PatternDef :=
  { mu := u8 p 1
    segments := (List.range (u8 p 2)).map (fun k => (u32 p (28 + 8 * k), segTypeOf (u8 p (32 + 8 * k))))
    refKind := u8 p 3, refId := u32 p 4, period := u32 p 8, anchor := u32 p 12, verifyFrames := u16 p 20
    verifyRatio := u16 p 22, tol := u32 p 24 }

/-- The periods of R52, Tc. -/
def patternPeriods : List Nat :=
  [983040, 1228800, 1966080, 2457600, 3932160, 4915200, 7864320, 9830400, 19660800]

/-- The first even frame at least two frames ahead (TDD_PATTERN_SET). -/
def firstEvenFrame (s : State) : Nat :=
  let f := framesAhead s 2
  if f % 2 = 0 then f else framesAhead s 3

/-- TDD_PATTERN_SET (0x0204). -/
def specTddPatternSet : CommandSpec where
  opcode := 0x0204
  role := some .operate
  length := fun q => if q.length = 28 + 8 * u8 q.payload 2 then none else some 2
  checks := fun s q =>
    let p := q.payload
    let n := u8 p 2
    let kind := u8 p 3
    let period := u32 p 8
    [field 0 (within 0 7 (u8 p 0)), field 1 (within 0 4 (u8 p 1)), field 2 (within 1 32 n), field 3 (within 0 2 kind),
     field 4 (if kind = 2 then within 0 262143 (u32 p 4) else if kind = 1 then within 0 127 (u32 p 4)
       else within 0 262143 (u32 p 4)),
     field 8 (patternPeriods.contains period &&
       (((List.range n).map (fun k => u32 p (28 + 8 * k))).sum == period)),
     field 12 (decide (u32 p 12 < period)),
     field 16 (u32 p 16 == 0 || (u32 p 16 % 2 == 0 && decide (2 ≤ frameDistance s (u32 p 16)))),
     field 20 (within 4 256 (u16 p 20)), field 22 (within 30 300 (u16 p 22)), field 24 (within 100 98304 (u32 p 24))] ++
    (List.range n).flatMap (fun k =>
      [field (32 + 8 * k) (within 0 2 (u8 p (32 + 8 * k))), field (33 + 8 * k) (zeros p (33 + 8 * k) 3)]) ++
    [need .eResource (kind == 0 || (kind == 1 && ibExists s (u32 p 4)) || (kind == 2 && flowExists s (u32 p 4)))]
  effect := fun s q =>
    let p := q.payload
    let f := if u32 p 16 = 0 then firstEvenFrame s else u32 p 16
    (s.modAir (fun a => { a with
      patterns := a.patterns.mod (u8 p 0) (fun x => { x with waiting := some (f, patternOf p) }) }), {})

def execTddPatternSet (r : HostRequest) (s : State) : Host.Outcome State Fault Refusal :=
  .next (submit specTddPatternSet r s)

/-- WALL_TIME_SET (0x0205). -/
def specWallTimeSet : CommandSpec where
  opcode := 0x0205
  role := some .admin
  length := fixedLength 8
  states := fun s _ => !sourceUsable s srcPtp
  effect := fun s q =>
    let s1 := setWall (u64 q.payload 0) 1 s
    (s1, { payload := le 8 (wallNow s) ++ le 2 s1.log.epoch })

def execWallTimeSet (r : HostRequest) (s : State) : Host.Outcome State Fault Refusal :=
  .next (submit specWallTimeSet r s)

end Sys2Proof.Machine
end

