-- ==== Sys2Proof/Machine/Tap.lean ====
section
/-! DEFINITION. What captures record (R321, R325, R326): the taps, the rings, and the bytes of chunks and records. -/

namespace Sys2Proof.Machine

open Sys2Proof

/-- Quotient rounded up. -/
def ceilDiv (a b : Nat) : Nat := (a + b - 1) / b

/-- Bytes of one stored unit of a source, and its samples: a RAW chunk of 4,096 samples, or a BAND block record of 16. -/
def unitBytes (band : Bool) (c : CapSource) : Nat := if band then 104 else if c.egress then 16448 else 12352
def unitSamples (band : Bool) : Nat := if band then 16 else 4096

/-- Units that `us` µs of a source take (R322). -/
def spanUnits (band : Bool) (c : CapSource) (us : Nat) : Nat := ceilDiv (us * c.rate) (1000 * unitSamples band)

/-- Bytes that `us` µs of a source take (R322). -/
def spanBytes (band : Bool) (c : CapSource) (us : Nat) : Nat := spanUnits band c us * unitBytes band c

/-! ## Recording -/

/-- A slot takes samples whose pin instant is at the monotonic instant `t`: up to the stop instant (R323). -/
def CapSlot.takes (c : CapSlot) (t : Nat) : Bool :=
  c.state == .armed || ((c.state == .triggered || c.state == .complete) && decide (t < c.stopAt))

/-- The recording of every source that a test selects, in the slots that record. -/
def tapSlots (band : Bool) (t : Nat) (sel : CapSource → Bool) (f : CapSlot → CapSource → CapTrack → CapTrack) (s : State) : State :=
  s.modMem (fun m => { m with slots := { m.slots with cells := m.slots.cells.map (fun p =>
    if p.2.info.band = band ∧ p.2.takes t then
      (p.1, { p.2 with info := { p.2.info with
        data := p.2.info.sources.mapIdx (fun k c => if sel c then f p.2 c (p.2.info.data.getD k {}) else p.2.info.data.getD k {}) } })
    else p) } })

/-- A block at the output of a band path, ahead of any substitution for a PENNED one, joins the rings of BAND captures; the
monotonic instant of its first sample at the pin is `t` (R321, R322). -/
def tapBlock (egress : Bool) (n t : Nat) (b : Block) (s : State) : State :=
  tapSlots true t (fun c => c.source == n && c.egress == egress)
    (fun x c d => { d with blocks := (b :: d.blocks).take (spanUnits true c x.info.lengthUs) }) s

/-- Pin instant of converter sample `n` of a chain, with its thirds of a Tc: 196 Tc before the tap for a receive chain, 212 Tc after it
for a transmit chain (R326). -/
def rawPin (a : AirState) (chain n : Nat) : AirInstant × Nat :=
  let off := roundEven ((airCount a - ((a.mono * 65536 : Nat) : Int)) * 3) 65536
  let delay : Int := if chain < 8 then -588 else 636
  let k := ((2 * n : Nat) + off + delay) % ((4294967296 * tcPerFrame * 3 : Nat) : Int)
  (⟨k.toNat / 3 / tcPerFrame, k.toNat / 3 % tcPerFrame⟩, k.toNat % 3)

/-- Attenuation of a receive chain at a converter sample (R63). -/
def attenAtSample (x : Chain) (n : Nat) : Nat :=
  match x.attenAt with
  | some t => if n < convIndex t then x.attenOld else x.atten
  | none => x.atten

/-- Converter samples of a chain, from number `first` on the converter clock, join the rings of RAW captures (R321, R326). -/
def tapRaw (c first : Nat) (l : List Cx) (s : State) : State :=
  let x := s.rf.chains.get c
  let top : Int := if c < 8 then 2047 else 8191
  let one (k : Nat) (v : Cx) : CapSample :=
    let p := rawPin s.air c (first + k)
    { x := v, at_ := p.1, phase := p.2, atten := if c < 8 then attenAtSample x (first + k) else 0
      gapped := if c < 8 then x.gapped else x.outputOff
      clipped := decide (top ≤ v.1.natAbs) || decide (top ≤ v.2.natAbs), unlocked := !x.locked }
  let pin (k : Nat) : Nat := if c < 8 then (first + k) * 2 / 3 - 196 else (first + k) * 2 / 3 + 212
  tapSlots false (pin 0) (fun y => y.source == c)
    (fun z y d =>
      let in_ := l.take (((List.range l.length).filter (fun k => z.takes (pin k))).length)
      let new := (in_.mapIdx one).drop (if d.samples.isEmpty then 0 else d.next - first)
      { d with next := max d.next (first + l.length)
               samples := (new.reverse ++ d.samples).take (4096 * spanUnits false y z.info.lengthUs) }) s

/-! ## Stored form (R326) -/

/-- A RAW chunk: its header, then its samples; receive codes are 12 bits each, I below Q (log entry 23). -/
def chunkBytes (egress corrupt : Bool) (l : List CapSample) : List Byte :=
  match l with
  | [] => []
  | x :: _ =>
    le 4 x.at_.frame ++ le 4 x.at_.offset ++ le 1 x.phase ++ le 1 x.atten ++
    le 2 (min 0xFFFF ((l.findIdx? (fun y => y.atten != x.atten)).getD 0xFFFF)) ++
    le 2 (flag (l.any (·.gapped)) + 2 * flag (l.any (·.clipped)) + 4 * flag corrupt + 8 * flag (l.any (·.unlocked))) ++
    List.replicate 50 0 ++
    (l.map (fun y =>
      if egress then le 2 (unsignedOf 16 y.x.1) ++ le 2 (unsignedOf 16 y.x.2)
      else le 3 (unsignedOf 12 y.x.1 + 4096 * unsignedOf 12 y.x.2))).flatten

/-- The stored bytes of unit `u` of a source, of which the image holds `n`; none where the recording lacks it. -/
def unitAt (i : CapInfo) (c : CapSource) (d : CapTrack) (corrupt : Bool) (n u : Nat) : Option (List Byte) :=
  if i.band then
    (if n ≤ u then none else (d.blocks[n - 1 - u]?).map blockBytes)
  else
    let l := ((d.samples.drop (4096 * (n - 1 - u))).take 4096).reverse
    if n ≤ u ∨ l.length < 4096 then none else some (chunkBytes c.egress corrupt l)

end Sys2Proof.Machine
end

