-- ==== Sys2Proof/Machine/Signal.lean ====
section
/-! DEFINITION. The samples of band paths (R85–R112, R124–R127, R133–R135, R152–R162): what an ingress band path makes of its
converter samples, the flags its blocks carry, canceller subtraction and adaptation, what leaves on its flows and what reaches
the egress band paths it feeds, their gain stacks with the pilot, and what the detectors measure. -/

namespace Sys2Proof.Machine

open Sys2Proof

/-! ## Beacon codes and periods (R122–R126) -/

/-- Code length of degree `n` (R122). -/
def codeLength (n : Nat) : Nat := 2 ^ n - 1

/-- PREFIX_MIN, Tc, rounded up. -/
def prefixTc (us : Nat) : Nat := (us * 196608 + 99) / 100

/-- The code period and the least prefix fit in 10 ms (R124). -/
def codeFits (period prefixMin n : Nat) : Bool :=
  decide (codeLength n * (4 * period) + prefixTc prefixMin ≤ tcPerFrame)

/-- The code degree of a pilot: the largest that fits, no greater than N_MAX (R124). -/
def codeDegree (period nMax prefixMin : Nat) : Nat :=
  ([16, 15, 14, 13, 12, 11, 10].find? (fun n => decide (n ≤ nMax) && codeFits period prefixMin n)).getD 10

/-- The pilot period, Tc: the least whole number of reference slots that divides 10 ms and holds the code period and the
least prefix (R124). -/
def pilotPeriod (a : AirState) (period prefixMin n : Nat) : Nat :=
  let slots := 10 * 2 ^ a.slotMu
  let need := codeLength n * (4 * period) + prefixTc prefixMin
  (((List.range (slots + 1)).find? (fun k =>
    decide (0 < k) && slots % k == 0 && decide (need ≤ k * slotPeriod a))).getD slots) * slotPeriod a

/-- Sample period of an egress band path. -/
def ebPeriod (s : State) (e : Nat) : Nat := samplePeriod (((s.ce.eb.get e).map (·.params.stages)).getD 1)

/-- Code degree in use for an egress band path under a beacon configuration. -/
def degreeOf (s : State) (e : Nat) (b : BeaconConfig) : Nat := codeDegree (ebPeriod s e) b.nMax b.prefixMin

/-- Rank of an egress band path among those whose carriers overlap its own (R123). -/
def codeRank (s : State) (e : Nat) : Nat :=
  match s.ce.eb.get e with
  | some b => ((ebs s).filter (fun p => decide (p.1 < e) && overlaps p.2.params b.params)).length
  | none => 0

/-- Code index in use (R123). -/
def codeIndex (s : State) (e : Nat) (b : BeaconConfig) : Nat :=
  match b.explicit_ with
  | some i => i
  | none => (ownMember s + 16384 * codeRank s e) % (2 ^ degreeOf s e b + 1)

/-- Pilot period of an egress band path, Tc. -/
def periodOf (s : State) (e : Nat) (b : BeaconConfig) : Nat :=
  pilotPeriod s.air (ebPeriod s e) b.prefixMin (degreeOf s e b)

/-- Prefix, chips (R124). -/
def prefixChips (s : State) (e : Nat) (b : BeaconConfig) : Nat :=
  (periodOf s e b - codeLength (degreeOf s e b) * (4 * ebPeriod s e)) / (4 * ebPeriod s e)

/-- CRC-7 with polynomial x^7 + x^3 + 1 over the low `n` bits of `v`, bit 0 first (R125). -/
def crc7 (v n : Nat) : Nat :=
  (List.range n).foldl (fun c i =>
    let fb := c.testBit 6 != v.testBit i
    let c1 := c * 2 % 128
    if fb then c1 ^^^ 9 else c1) 0

/-- The 32-bit identity frame (table *Identity frame*). -/
def identityFrame (member eb : Nat) : Nat :=
  let body := 0b1101 + member % 16384 * 16 + eb % 128 * 262144
  body + crc7 body 25 * 33554432

/-! ## Blocks on their way out (R25, R85, R295, R311) -/

def modDesc (f : Nat) (g : Descriptor → Descriptor) (s : State) : State :=
  s.modDv (fun d => { d with desc := d.desc.mod f g })

/-- The placement that governs a timestamp: before the last plan's F the one that plan replaced (R307). -/
def placeFor (s : State) (f : Nat) (t : AirInstant) : Placement :=
  let d := s.dv.desc.get f
  match d.old with
  | some o => if instantBefore t ⟨s.dv.lastFrame, 0⟩ ∧ d.plan = s.dv.lastSeq then o else d.place
  | none => d.place

/-- One row of the table *Flit charge*: group b, PACK in Tc, charge in flits/s. -/
def flitCharge (rate : Nat) : Nat × Nat × Nat :=
  if rate = 491520 then (6, 320, 5120000) else if rate = 245760 then (6, 640, 2560000)
  else if rate = 122880 then (6, 1280, 1280000) else if rate = 61440 then (4, 1536, 960000)
  else if rate = 30720 then (2, 1024, 960000) else if rate = 15360 then (1, 0, 960000)
  else if rate = 7680 then (1, 0, 480000) else if rate = 3840 then (1, 0, 240000)
  else if rate = 1920 then (1, 0, 120000) else (0, 0, 0)

/-- Blocks leave at the ports of a mask, up to six in a data flit (R263). -/
def emitBlocks (f mask : Nat) (l : List Block) (s : State) : State :=
  (maskBits (mask % 4096)).foldl (fun acc p =>
    (pieces 6 l.length l).foldl (fun a x => emitFlit p 1 f x.length [] x ((x.map blockBytes).flatten) a) acc) s

/-- Place of a block among the blocks of its frame at a rate in kS/s. -/
def blockIndex (rate : Nat) (t : AirInstant) : Nat := t.offset * rate / 31457280

/-- Two blocks of one group: groups start at block indices that are multiples of b (R298). -/
def sameGroup (rate : Nat) (a b : AirInstant) : Bool :=
  let n := max 1 (flitCharge rate).1
  a.frame == b.frame && blockIndex rate a / n == blockIndex rate b / n

/-- What has been gathered of a group leaves. -/
def flushGroup (f : Nat) (s : State) : State :=
  match (s.dv.desc.get f).group with
  | [] => s
  | x :: rest => modDesc f (fun d => { d with group := [] }) (emitBlocks f (placeFor s f x.at_).out (x :: rest) s)

/-- A block leaves the member that forms it: its group leaves in one flit with its last block, or before the first block of
another group (R298). -/
def sendGrouped (f : Nat) (p : Placement) (b : Block) (s : State) : State :=
  if p.out % 4096 = 0 then s
  else
    let s1 := if (s.dv.desc.get f).group.any (fun x => !sameGroup p.rate x.at_ b.at_) then flushGroup f s else s
    let s2 := modDesc f (fun d => { d with group := d.group ++ [b] }) s1
    if (blockIndex p.rate b.at_ + 1) % max 1 (flitCharge p.rate).1 = 0 then flushGroup f s2 else s2

/-- A block with zeros in place of its samples, VALID clear (R25). -/
def silenceBlock (b : Block) : Block := { b with valid := false, samples := [] }

/-- A contribution as it may leave: zeros with VALID clear while the flow unit is PENNED or in PADDOCK (R311). -/
def contribution (s : State) (f : Nat) (b : Block) : Block :=
  if penned s (flowUnit f) || inPaddock s (flowUnit f) then silenceBlock b else b

/-! ## Spans of a band path's output (R101–R107) -/

/-- The marked spans of a band path up to the monotonic instant `t`: those that have ended and those that run. -/
def BandPath.spans (b : BandPath) (t : Nat) : List Mark :=
  (b.phase.mark.map (fun k => (⟨k, b.phaseSince, t⟩ : Mark))).toList ++ (b.gapSince.map (fun x => (⟨.gapped, x, t⟩ : Mark))).toList ++
    b.marks

/-- A mark of some kind touches the span from `lo` to `hi`. -/
def BandPath.marked (b : BandPath) (lo hi : Nat) (k : MarkKind → Bool) : Bool :=
  (b.spans hi).any (fun m => k m.kind && decide (m.lo < hi) && decide (lo < m.hi))

/-- The samples of these spans are zeros. -/
def MarkKind.blank : MarkKind → Bool
  | .zeros | .gapped => true
  | .fadeOut | .fadeIn | .step => false

/-- Factor of an ingress band path's output at a monotonic instant, scaled by 2^17: zero in a zero interval or a gap, a raised cosine
in a fade (R101, R105). -/
def BandPath.fadeAt (b : BandPath) (t : Nat) : Int :=
  let f := fadeTc b.params.stages
  if b.marked t (t + 1) MarkKind.blank then 0
  else match (b.spans (t + 1)).find? (fun m => (m.kind == .fadeOut || m.kind == .fadeIn) && decide (m.lo ≤ t) && decide (t < m.hi)) with
    | some m => if m.kind = .fadeOut then raisedCosine (t - m.lo) f else raisedCosine (f - (t - m.lo)) f
    | none => 131072

/-! ## Directions and instants (R52, R109) -/

/-- The segment of a pattern at an instant. -/
def segmentAt (d : PatternDef) (i : AirInstant) : Option (Nat × SegType) :=
  ((segmentStarts d).zipIdx.find? (fun x => decide (x.1.1 ≤ patternPos d i) && decide (patternPos d i < x.1.2.1))).map
    (fun x => (x.2, x.1.2.2))

/-- An instant lies in a segment of the band path's own direction; every instant does for FDD. -/
def ownSegment (s : State) (p : BpParams) (i : AirInstant) : Bool :=
  match p.tdd with
  | none => true
  | some t => (match (s.air.patterns.get t).defn with
    | some d => (segmentAt d i).map (·.2) == some (if dlChain s p.chain then SegType.dl else SegType.ul)
    | none => false)

/-- Tc from one instant to another, negative when the second comes first (R11). -/
def airFrom (i j : AirInstant) : Int :=
  centred ((4294967296 * tcPerFrame : Nat) : Int) (((j.frame * tcPerFrame + j.offset : Nat) : Int) - (i.frame * tcPerFrame + i.offset : Nat))

/-- The monotonic time of an instant near the present. -/
def monoOf (a : AirState) (i : AirInstant) : Nat := ((a.mono : Int) + airFrom (airNow a) i).toNat

/-! ## Cancellers (R133, R135) -/

/-- Units of the taps and rotators. -/
abbrev tapUnit : Int := 2 ^ 30

/-- Taps of cluster `c`. -/
def Canceller.taps_ (k : Canceller) (c : Nat) : List Cx := (List.range k.taps).map (fun j => (k.weights.getD c []).getD j (0, 0))

/-- Tap energy, in units of 2^−60 (R139). -/
def tapEnergy (w : List (List Cx)) : Nat := (w.flatten.map cNorm).sum

/-- The largest rotation per sample of period `per`: 4 kHz, in 2^−48 turns. -/
def dopplerLimit (per : Nat) : Int := ((4000 * 2 ^ 48 * per / tcPerSecond : Nat) : Int)

/-- The reference `j` samples before the pin instant of an ingress sample, where `base` is the place of that instant in the list. -/
def Canceller.refAtLag (k : Canceller) (base : Int) (j : Nat) : Cx × Bool :=
  if base + j < 0 then ((0, 0), false) else k.ref.getD (base + j).toNat ((0, 0), false)

/-- Mean power of the reference over the span, in units of 2^−36 (R135). -/
def Canceller.refPower (k : Canceller) (base : Int) (per : Nat) : Nat :=
  let n := max 1 (k.span / per)
  ((List.range n).map (fun j => cNorm (k.refAtLag base j).1)).sum / n

/-- The rotators after one more sample. -/
def Canceller.turned (k : Canceller) : List Cx :=
  (List.range k.offsets.length).map (fun c =>
    let r := k.rot.getD c (tapUnit, 0)
    if k.doppler then
      cRound (10 ^ 30) (cMul r (circlePoint (((k.dopp.getD c 0) % 2 ^ 48).toNat / 2 ^ 28)))
    else r)

/-- One sample of the pseudocode of R135: the model's output, the POST sample, and the taps and rotators after it when the
instance adapts. Its arithmetic rounds to even (log entry 131). -/
def Canceller.sample (per : Nat) (i : AirInstant) (ok : Bool) (pre : Cx) (k : Canceller) : Canceller × Cx × Bool :=
  let base := roundEven (airFrom i k.refAt) per
  let rot := k.turned
  let lag (c j : Nat) : Cx := (k.refAtLag base (k.offsets.getD c 0 + j)).1
  let part (c : Nat) : Cx := cRound tapUnit (cMul (rot.getD c (0, 0))
    (cRound tapUnit (cSum ((k.taps_ c).zipIdx.map (fun (w, j) => cMul w (lag c j))))))
  let cs := List.range k.offsets.length
  let y := cSum (cs.map part)
  let post := cLimit 8388607 (cSub pre y)
  let e := post.1
  let adapts := ok && (k.refAtLag base 0).2 && (k.state == .cold || k.state == .converged || (k.state == .diverged && !k.restore))
  let fits := ok && (k.refAtLag base 0).2 && k.state == .reAcquire && decide (k.fitCount < 1024)
  let p : Int := ((k.refPower base per + 64 : Nat) : Int)
  let k1 := { k with rot := rot }
  let k2 : Canceller := if adapts then { k1 with
      weights := cs.map (fun c => (k.taps_ c).zipIdx.map (fun (w, j) =>
        cAdd w (cRound (65536 * p) (cScale k.mu (cMul e (cConj (cMul (rot.getD c (0, 0)) (lag c j))))))))
      dopp := if k.doppler then cs.map (fun c => clampI (dopplerLimit per)
        (k.dopp.getD c 0 + roundEven (Config.dopplerStep * (cMul e (cConj (part c))).2) p)) else k.dopp }
    else if fits then { k1 with
      fitNum := cAdd k.fitNum (cMul pre (cConj y)), fitDen := k.fitDen + cNorm y, fitCount := k.fitCount + 1 }
    else k1
  (k2, post.1, post.2)

/-- A block of samples through an instance: each with its pin instant. -/
def cancelRun (per : Nat) (ok : Bool) (k : Canceller) (l : List (AirInstant × Cx)) : Canceller × List (Cx × Bool) :=
  l.foldl (fun acc x =>
    let r := acc.1.sample per x.1 ok x.2
    (r.1, acc.2 ++ [r.2])) (k, [])

/-- Reference samples join an instance, oldest first; the newest leaves the transmit pin at `at_`. -/
def Canceller.pushRef (per : Nat) (at_ : AirInstant) (l : List (Cx × Bool)) (k : Canceller) : Canceller :=
  { k with ref := (l.reverse ++ k.ref).take ((k.bulk + tcPerFrame) / per), refAt := at_ }

/-- The instances that a test names take reference samples. -/
def pushRefs (f : Canceller → Bool) (per : Nat) (at_ : Canceller → AirInstant) (l : List (Cx × Bool)) (s : State) : State :=
  s.modLg (fun g => { g with canc := { g.canc with cells := g.canc.cells.map (fun p =>
    if p.2.state != .idle && f p.2 then (p.1, p.2.pushRef per (at_ p.2) l) else p) } })

/-! ## Egress band paths (R112, R126, R127, R152–R157) -/

/-- The samples kept for the detectors: those of 20 ms. -/
def keepRecent (b : BandPath) (l : List Sampled) : List Sampled :=
  (l ++ b.recent).take (2 * tcPerFrame / samplePeriod b.params.stages)

/-- Where a ramp stands at an instant, scaled by 2^17 (R156). -/
def rampFactor (r : Ramp) (t f : Nat) : Int :=
  match r.state with
  | .open_ => 131072
  | .silent => 0
  | .falling => raisedCosine (t + f - r.endAt) f
  | .rising => raisedCosine (r.endAt - t) f

/-- The pilot of an egress band path as it stands: its code, its prefix in chips, its period, Tc, and its level. -/
structure PilotWave where
  code    : List Bool
  prefix_ : Nat
  period  : Nat
  level   : Int
  neg     : Bool
  negOld  : Bool
  deriving DecidableEq, Repr

/-- The pilot of an egress band path in the present period. -/
def pilotWave (s : State) (e : Nat) (l : Loop) : PilotWave :=
  let n := degreeOf s e l.beacon
  { code := beaconChips n (codeIndex s e l.beacon) (codeLength n), prefix_ := prefixChips s e l.beacon
    period := periodOf s e l.beacon, level := l.pilot, neg := l.pilotNeg, negOld := l.pilotOld }

/-- Its sample at an instant, Q5.18 in the real component. -/
def PilotWave.at_ (w : PilotWave) (per : Nat) (i : AirInstant) : Cx :=
  cRound (2 ^ 19) ((amplitude w.level : Int) * pilotSample w.code w.prefix_ w.neg w.negOld (i.offset % max 1 w.period / per), 0)

/-- One sample through a gain stack: the applied gain as a Q12.20 factor, the exclusion ramp, the pilot, the mute ramp, and the
blanking of TDD; without the pilot, with it, and whether it saturated (R152, R155–R157). -/
def stackSample (g : GainStack) (f t : Nat) (own : Bool) (pilot x : Cx) : Cx × Cx × Bool :=
  let p := g.at_ t
  let y := toBand 20 (cScale (amplitude (p.gain t)) x)
  let z := toBand 17 (cScale (rampFactor p.excl t f) y.1)
  let out (v : Cx) : Cx × Bool := if own then toBand 17 (cScale (rampFactor p.ramp t f) v) else ((0, 0), false)
  let mixed := cLimit 8388607 (cAdd z.1 pilot)
  ((out z.1).1, (out mixed.1).1, y.2 || mixed.2)

/-- A block of sixteen samples reaches an egress band path; its first sample leaves the transmit pin at `pin`. -/
def egressBlock (e : Nat) (pin : AirInstant) (blk : Block) (s : State) : State :=
  match s.ce.eb.get e with
  | none => s
  | some b =>
    let per := samplePeriod b.params.stages
    let f := fadeTc b.params.stages
    let g := s.np.gain.get e
    let wave := (s.lg.loops.get e).map (pilotWave s e)
    let delay := groupDelay .egress b.params
    let t0 := monoOf s.air (instantBack pin delay)
    let zeroed := b.marked t0 (t0 + 16 * per) (· == .zeros)
    let ok := blk.valid && !blk.settling && !blk.gapped && !zeroed
    let one (k : Nat) : Sampled × Bool :=
      let i := instantAfter pin (k * per)
      let t := t0 + k * per
      let own := ownSegment s b.params i
      let x := if b.marked t (t + 1) (· == .zeros) then (0, 0) else blk.samples.getD k (0, 0)
      let r := stackSample g f t own ((wave.map (fun w => w.at_ per i)).getD (0, 0)) x
      ({ at_ := i, pre := r.1, post := r.2.1, inp := x, ok := ok, own := own, settling := blk.settling || zeroed
         pilot := own && rampFactor (g.at_ t).ramp t f != 0 }, r.2.2)
    let l := (List.range 16).map one
    let clipped := blk.clipped || l.any (·.2)
    let rec_ : Block := { blk with at_ := pin, settling := blk.settling || zeroed, clipped := clipped, samples := l.map (·.1.post) }
    tapBlock true e (t0 + delay) rec_ <| pushRefs (fun k => !k.refFlow && k.refId == e) per (fun _ => instantAfter pin (15 * per))
      (l.map (fun x => (x.1.post, x.1.ok && x.1.pilot)))
      (modBand .egress e (fun y => { y with
        recent := keepRecent y ((l.map (·.1)).reverse), fresh := y.fresh + 16
        clipBlocks := if clipped then y.clipBlocks + 1 else y.clipBlocks }) s)

/-! ## TDD verification (R53) -/

/-- Samples of the reference of a pattern join the sums of its segments. -/
def addSegments (d : PatternDef) (l : List (AirInstant × Cx)) (p : List PowerSum) : List PowerSum :=
  l.foldl (fun acc x => match segmentAt d x.1 with
    | some (k, _) => (List.range d.segments.length).map (fun j =>
        if j = k then (acc.getD j {}).plus (powerOf [x.2]) else acc.getD j {})
    | none => acc) p

/-- Admitted samples of a band path (`kind` 1) or flow (`kind` 2) join the windows of the patterns that it verifies. -/
def notePatterns (kind id : Nat) (l : List (AirInstant × Cx)) (s : State) : State :=
  s.modAir (fun a => { a with patterns := { a.patterns with cells := a.patterns.cells.map (fun p =>
    match p.2.defn with
    | some d => if d.refKind = kind ∧ d.refId = id then (p.1, { p.2 with powers := addSegments d l p.2.powers }) else p
    | none => p) } })

/-! ## Ingress band paths (R85, R86, R91, R94, R101–R107) -/

/-- An own block leaves on a flow that the ingress band path `n` sources: to the ports of the flow, or to this member's own sum
(R85, R295). -/
def sendOwn (n per : Nat) (blk : Block) (s : State) (f : Nat) : State :=
  let p := placeFor s f blk.at_
  let b := { contribution s f (if inPaddock s (ibUnit n) then silenceBlock blk else blk) with bseq := (s.dv.desc.get f).blocks % 65536 }
  let s1 := modDesc f (fun d => { d with blocks := d.blocks + 1, lastTs := b.at_.offset, handledAt := now s }) s
  let s2 := if p.kind = 2 ∧ p.sums then modDesc f (fun d => { d with buffer := d.buffer ++ [(15, b)] }) s1
    else sendGrouped f p b s1
  pushRefs (fun k => k.refFlow && k.refId == f) per (fun k => instantAfter b.at_ (k.bulk + 15 * per))
    ((List.range 16).map (fun k => (b.samples.getD k (0, 0), b.valid && !b.settling && !b.gapped))) s2

/-- Numerology of a band path's symbol grid (R31, R161). -/
def symbolMu (s : State) (b : BandPath) : Nat :=
  match b.params.tdd with
  | some t => ((s.air.patterns.get t).defn.map (·.mu)).getD 0
  | none => b.params.mu

/-- Tc of the longest symbol of a band path's grid: what the look-ahead of its gate holds back (R162). -/
def lookAhead (s : State) (b : BandPath) : Nat := 140288 / 2 ^ symbolMu s b + 1024

/-- A block of an ingress band path goes on to its flows and to the egress band paths it feeds, as GAPPED zeros where it is withheld
(R23, R85, R145, R159). -/
def passOn (n : Nat) (b : BandPath) (blk : Block) (s : State) : State :=
  let held := if (s.np.gates.get n).isSome then lookAhead s b else 0
  let gap : Block := { silenceBlock blk with gapped := true }
  let s1 := (flowsOf s n).foldl (sendOwn n (samplePeriod b.params.stages) (if ibWithheld s n then gap else blk)) s
  (fedBy s1 n).foldl (fun acc e => match acc.ce.eb.get e with
    | some x => egressBlock e (instantAfter blk.at_ (groupDelay .ingress b.params + 64 + groupDelay .egress x.params + held))
        (if ibGappedFor acc n x.params then gap else blk) acc
    | none => acc) s1

/-- One block of an ingress band path: from the converter to band rate, its flags, canceller subtraction, the detectors, and on
to its consumers. -/
def ingressBlock (n : Nat) (s : State) (x : RawBlock) : State :=
  match s.ce.ib.get n with
  | none => s
  | some b =>
    let c := s.rf.chains.get b.params.chain
    let per := samplePeriod b.params.stages
    let sub := subPhase s.air b
    let fine := pinFine b.params sub x.first
    let at_ := airOfFine s.air fine
    let lo := (fine + groupDelay .ingress b.params * 96) / 96
    let hi := lo + 16 * per
    let front := splitClip (frontRun c.front (attenAtSample c) x.first x.conv)
    let down := downConvert b.params sub (fun k => ncoPhaseAt b (x.first + 23 + k)) front.1
    let faded := (List.range 16).map (fun k => toBand 17 (cScale (b.fadeAt (lo + k * per)) (down.1.getD k (0, 0))))
    let gapped := b.marked lo hi (· == .gapped)
    let settling := b.marked lo hi (fun k => k != .gapped)
    let valid := !(List.range 16).all (fun k => b.marked (lo + k * per) (lo + k * per + 1) MarkKind.blank) && !gapped
    let ok := valid && !settling
    let pins := (List.range 16).map (fun k => instantAfter at_ (k * per))
    let pre := faded.map (·.1)
    let run := (cancellerOf s n).map (fun p => (p.1, cancelRun per ok p.2 (pins.zip pre)))
    let s1 := match run with
      | some r => s.modLg (fun g => { g with canc := g.canc.set r.1 r.2.1 })
      | none => s
    let post := splitClip (match run with
      | some r => r.2.2
      | none => pre.map (fun v => (v, false)))
    let clipped := front.2 || down.2 || post.2
    let seen : List Sampled := ((pins.zip (pre.zip post.1)).map (fun v =>
      { at_ := v.1, pre := v.2.1, post := v.2.2, ok := ok, own := ownSegment s b.params v.1, settling := settling }))
    let s2 := modBand .ingress n (fun y => { y with
      recent := keepRecent y seen.reverse
      clipBlocks := if clipped then y.clipBlocks + 1 else y.clipBlocks
      gapBlocks := if gapped then y.gapBlocks + 1 else y.gapBlocks }) s1
    let s3 := if ok then notePatterns 1 n (pins.zip post.1) s2 else s2
    let blk : Block := { valid := valid, settling := settling, clipped := clipped, gapped := gapped, at_ := at_
                         samples := if gapped then [] else post.1 }
    let s3 := tapBlock false n (fine / 96) { blk with samples := post.1 } s3
    match s3.np.gates.get n with
    | some _ => s3.modNp (fun y => { y with gates := y.gates.mod n (fun g => g.map (fun z => { z with held := z.held ++ [blk] })) })
    | none => passOn n b blk s3

/-- The blocks of an ingress band path since it was last served. -/
def feed (n : Nat) (l : List RawBlock) (s : State) : State := l.foldl (ingressBlock n) s

/-! ## Detectors (R107, R109–R111) -/

/-- The sample at a detector's tap. -/
def Sampled.tap (d : Dir) (b : BandPath) (x : Sampled) : Cx := if d = .ingress ∧ b.preTap then x.pre else x.post

/-- What a detector takes of a span: admitted samples, of the own direction unless include_all is set (R107, R109). -/
def BandPath.power (d : Dir) (b : BandPath) (lo hi : AirInstant) : PowerSum :=
  powerOf ((b.recent.filter (fun x => inSpan lo hi x.at_ && x.ok && (x.own || b.includeAll))).map (Sampled.tap d b))

/-! ## Uplink gates (R25, R162) -/

/-- Factor of a gate at an instant, scaled by 2^17: its decision for the symbol, reached over a raised cosine of `f` Tc from that of
the symbol before; none while the symbol is not decided. -/
def gateFactor (l : List (AirInstant × Bool)) (upTo : AirInstant) (f : Nat) (i : AirInstant) : Option Int :=
  if !instantBefore i upTo then none
  else match l.dropWhile (fun x => instantBefore i x.1) with
    | [] => some 0
    | [x] => some (if x.2 then 131072 else 0)
    | x :: y :: _ =>
      let k := (airFrom x.1 i).toNat
      some (if x.2 = y.2 then (if x.2 then 131072 else 0)
        else if x.2 then raisedCosine (f - k) f else raisedCosine k f)

/-- A held block as its gate lets it pass: a closed gate contributes zeros with VALID clear (R25, R162). -/
def gatedBlock (g : UlGate) (upTo : AirInstant) (f per : Nat) (b : Block) : Option Block :=
  let l := (List.range 16).map (fun k => gateFactor g.decided upTo f (instantAfter b.at_ (k * per)))
  if l.any (·.isNone) then none
  else
    let v := l.map (·.getD 0)
    if v.all (· == 0) then some (silenceBlock b)
    else some { b with samples := (b.samples.zip v).map (fun x => (toBand 17 (cScale x.2 x.1)).1) }

/-- The held blocks whose symbols are all decided leave (R162). -/
def releaseHeld (n mu : Nat) (upTo : AirInstant) (s : State) : State :=
  match s.np.gates.get n, s.ce.ib.get n with
  | some g, some b =>
    let per := samplePeriod b.params.stages
    let out := g.held.map (fun x => (x, gatedBlock g upTo (1024 / 2 ^ mu) per x))
    let s1 := s.modNp (fun y => { y with gates := y.gates.set n (some { g with held := (out.filter (·.2.isNone)).map (·.1) }) })
    (out.filterMap (·.2)).foldl (fun acc x => passOn n b x acc) s1
  | _, _ => s

end Sys2Proof.Machine
end

