-- ==== Sys2Proof/Machine/NetworkProtection.lean ====
section
/-! DEFINITION. Protecting the network (R161–R175): uplink gates and noise caps, donor and output rules, and the commands of
the chapter. -/

namespace Sys2Proof.Machine

open Sys2Proof

/-! ## Uplink gates (R161–R163) -/

/-- Symbols in NOISE_WIN at numerology µ. -/
def noiseSymbols (mu win : Nat) : Nat := 14 * 2 ^ mu * win

/-- Insertion into a rising list of powers. -/
def insertPower (x : Int) : List Int → List Int
  | [] => [x]
  | y :: rest => if x ≤ y then x :: y :: rest else y :: insertPower x rest

/-- N_est: the mean power of the lowest 10 % of the envelopes (R163). -/
def noiseEstimate (l : List Int) : Int :=
  let k := max 1 (l.length / 10)
  decibel (powerSum ((l.foldl (fun acc x => insertPower x acc) []).take k) / k)

/-- G_OPEN in force (R167). -/
def gOpenInForce (g : UlGate) : Int := g.gOpen + g.raised

/-- A symbol of a gated ingress band path ends: its envelope joins the window when it was admitted, and the gate decides. In DL and
GUARD segments it is closed (R162, R163). -/
def gateSymbol (mu : Nat) (env : Option Int) (own paddock : Bool) (g : UlGate) : UlGate :=
  let size := noiseSymbols mu g.noiseWin
  let envs := match env with
    | some x => if own then (x :: g.envs).take size else g.envs
    | none => g.envs
  let full := decide (size ≤ envs.length)
  let nEst := if full then noiseEstimate envs else g.nEst
  let hit : Bool := !g.pendingN && own && (match env with
    | some x => decide (nEst + gOpenInForce g ≤ x)
    | none => false)
  let open_ := own && !paddock && (match g.mode with
    | .open_ => true
    | .closed => false
    | .gated => !g.pendingN && (hit || decide (0 < g.hangLeft)))
  { g with
    envs := envs, nEst := nEst
    hangLeft := if hit then g.hang else g.hangLeft - 1
    isOpen := open_, openCount := if open_ then g.openCount + 1 else g.openCount }

/-- The next symbol end after an instant of the frame at numerology µ (R31), as an offset. -/
def symbolEnd (mu o : Nat) : Nat :=
  let len := 140288 / 2 ^ mu
  let h := o % 983040
  o - h + (if h < 1024 + len then 1024 + len else 1024 + ((h - 1024) / len + 1) * len)

/-- Time passes up to the end of a symbol of a band path's grid; the end counts as passed for that band path. -/
def advanceToSymbol (key mu : Nat) (s : State) : State :=
  let a := s.air
  let atEnd := decide (0 < a.offset) && symbolEnd mu (a.offset - 1) == a.offset &&
    a.gridDone.get key != some (airNow a)
  let o := symbolEnd mu a.offset
  let i : AirInstant := if atEnd then airNow a else if o < tcPerFrame then ⟨a.frame, o⟩ else ⟨(a.frame + 1) % 4294967296, 0⟩
  (advanceToAir i s).modAir (fun x => { x with gridDone := x.gridDone.set key (some i) })

/-- Start of the symbol that ends at an instant (R31). -/
def symbolStart (mu : Nat) (i : AirInstant) : AirInstant :=
  let len := 140288 / 2 ^ mu
  let h := (i.offset + 983040 - 1) % 983040
  instantBack i (h + 1 - (if h < 1024 + len then 0 else 1024 + (h - 1024) / len * len))

/-- A symbol in which the gate of a local source was open joins N(s) of the egress band paths it feeds (R165). -/
def noteOpen (nEst : Int) (s : State) (e : Nat) : State :=
  s.modNp (fun x => { x with noise := x.noise.mod e (fun u =>
    if u.enable then { u with openSum := u.openSum + linear nEst, openNum := u.openNum + 1 } else u) })

/-- The gate of an ingress band path decides for the symbol from `lo` to `hi`, and the blocks that waited for it leave
(R162, R165). -/
def gateDecides (n mu : Nat) (b : BandPath) (lo hi : AirInstant) (env : Option Int) (s : State) : State :=
  match s.np.gates.get n with
  | none => s
  | some g =>
    let g1 := gateSymbol mu env (ownSegment s b.params lo) (inPaddock s (ibUnit n)) g
    let s1 := releaseHeld n mu hi (s.modNp (fun x => { x with
      gates := x.gates.set n (some { g1 with decided := ((lo, g1.isOpen) :: g1.decided).take 4 }) }))
    if g1.isOpen then (fedBy s1 n).foldl (noteOpen g1.nEst) s1 else s1

/-- A symbol of a band path's numerology ends: its envelope is published, and an uplink gate decides (R111, R162). -/
def symbolBoundary (d : Dir) (n : Nat) (l : List RawBlock) (s : State) : State :=
  match bandPath s d n with
  | none => s
  | some b0 =>
    let mu := symbolMu s b0
    let key := 16 + (match d with
      | .ingress => n
      | .egress => 128 + n)
    let s0 := advanceToSymbol key mu s
    let s1 := if d = .ingress then feed n l s0 else s0
    (match bandPath s1 d n with
     | none => s1
     | some b =>
       let hi := airNow s1.air
       let lo := symbolStart mu hi
       let env := (b.power d lo hi).mean
       let s2 := modBand d n (fun x => { x with envLast := env.getD x.envLast }) s1
       if d = .ingress then gateDecides n mu b lo hi env s2 else s2)

def execSymbolBoundary (d : Dir) (n : Nat) (firsts : List Nat) (convs : List (List Cx)) (s : State) :
    Host.Outcome State Fault Refusal := .next (symbolBoundary d n (rawBlocks firsts convs) s)

/-- The noise window has filled for the first time since the band path was created or last settled (R163). -/
def noiseWindowFilled (ib : Nat) (s : State) : State :=
  match s.np.gates.get ib, s.ce.ib.get ib with
  | some g, some b =>
    if noiseSymbols (symbolMu s b) g.noiseWin ≤ g.envs.length then
      s.modNp (fun x => { x with
        gates := x.gates.set ib (some { g with pendingN := false, nEst := noiseEstimate g.envs }) })
    else s
  | _, _ => s

def execNoiseWindowFilled (ib : Nat) (s : State) : Host.Outcome State Fault Refusal := .next (noiseWindowFilled ib s)

/-- The estimate of a gate starts again: its band path was created or settled, or NOISE_WIN changed (R163). -/
def restartGate (ib : Nat) (s : State) : State :=
  s.modNp (fun x => { x with gates := x.gates.mod ib (fun g => g.map (fun y => { y with envs := [], pendingN := true })) })

/-! ## Uplink noise (R165–R167) -/

/-- N_ul over the symbols of a window, from the open symbols of the local source and, for a flow, from each symbol's contributors
whose gates were open in it (R165); none when no symbol had one. -/
def windowNoise (u : UlNoise) (symbols : List (List Nat)) : Option Int :=
  let sums := (symbols.map (fun l => powerSum (l.filterMap (fun m => u.contrib.get m)))).filter (· != 0)
  let n := sums.length + u.openNum
  if n = 0 then none else some (decibel ((sums.sum + u.openSum) / n))

/-- CAP_UL after a window (R166): a lower cap is written, a higher one rises later. -/
def noiseWindow (e : Nat) (symbols : List (List Nat)) (s : State) : State :=
  let u := s.np.noise.get e
  if u.enable = false then s
  else
    let fresh : UlNoise := { u with openSum := 0, openNum := 0 }
    match windowNoise u symbols with
    | none => s.modNp (fun x => { x with noise := x.noise.set e fresh })
    | some n =>
      let goal := u.limit - n
      let c := (s.np.gain.get e).capUl
      let rises : Bool := match c with
        | some v => decide (v < u.goal.getD v)
        | none => false
      s.modNp (fun x => { x with
        noise := x.noise.set e { fresh with nUl := some n, goal := some goal, riseAt := if rises then u.riseAt else now s }
        gain := x.gain.mod e (fun g => { g with
          capUl := match c with
            | some v => if goal < v then some goal else some v
            | none => some goal }) })

/-- CAP_UL rises towards its goal at UL_CAP_RISE, and the deficit of R167 is watched. -/
def noiseTick (s : State) (e : Nat) : State :=
  let u := s.np.noise.get e
  if u.enable = false then s
  else
    let t := now s
    let k := (t - u.riseAt) * u.rise / tcPerSecond
    let g := s.np.gain.get e
    let cap := match g.capUl, u.goal with
      | some c, some x => if c < x then some (min x (c + k)) else some c
      | c, _ => c
    let low := match cap with
      | some c => decide (c < g.gCmd - u.deficit)
      | none => false
    let s1 := s.modNp (fun x => { x with
      noise := x.noise.set e { u with
        riseAt := u.riseAt + k * tcPerSecond / u.rise
        lowSince := if low then (u.lowSince <|> some t) else none }
      gain := x.gain.set e { g with capUl := cap } })
    if low then s1 else endFault 0x40 (ebUnit e) s1

/-- CAP_UL has stayed below G_cmd − UL_DEFICIT for 1 s: UL_NOISE_RISE is raised, and again each second (R167). -/
def ulNoiseRiseTimeout (e : Nat) (s : State) : State :=
  match (s.np.noise.get e).lowSince with
  | none => s
  | some t =>
    let s1 := advanceTo (t + tcPerSecond) s
    raiseFault { cls := 0x40, unit := ebUnit e }
      (s1.modNp (fun x => { x with noise := x.noise.mod e (fun u => { u with lowSince := some (now s1) }) }))

def execUlNoiseRiseTimeout (eb : Nat) (s : State) : Host.Outcome State Fault Refusal := .next (ulNoiseRiseTimeout eb s)

/-- The own back-off of UL_NOISE_RISE: G_OPEN of every contributor rises by 2 dB, up to 20 dB, sent at the next frame; it
returns when the fault is cleared (R167). The bound is taken on the raise, not on the resulting G_OPEN (log entry 136). -/
def noiseBackoff (e : Nat) (on : Bool) (s : State) : State :=
  s.modNp (fun x => { x with
    noise := x.noise.mod e (fun u => { u with raise_ := if on then min 2000 (u.raise_ + 200) else 0, send := true }) })

/-- A raise of G_OPEN reaches the gates of the ingress band paths that source these flows (R167). -/
def raiseGates (l : List (Nat × Int)) (s : State) : State :=
  s.modNp (fun n => { n with gates := l.foldl (fun b x =>
    (flowsSource s x.1).foldl (fun b ib => b.mod ib (fun g => g.map (fun y => { y with raised := x.2 }))) b) n.gates })

/-! ## Donor rules (R168–R172) -/

/-- The mean power of a donor ingress band path over the loop tick that ends now, in segments of its own direction; none without
an admitted sample (R168). -/
def tickLevel (s : State) (b : BandPath) : Option Int :=
  let hi := airNow s.air
  (powerOf ((b.recent.filter (fun x => inSpan (instantBack hi tcPerTick) hi x.at_ && x.ok && x.own)).map (Sampled.tap .ingress b))).mean

/-- The donor rules of an ingress band path at a loop tick (R168, R169). -/
def donorTick (s : State) (n : Nat) : State :=
  let r := s.np.donors.get n
  match s.ce.ib.get n, (s.ce.ib.get n).bind (tickLevel s) with
  | some b, some level =>
    let counts : Bool := match b.params.tdd with
      | some t => (s.air.patterns.get t).state == .verified || (s.air.patterns.get t).state == .asserted
      | none => true
    if r.enable = false then s
    else
      let t := now s
      let adc := b.detMean.map (· - 100 * ((s.rf.chains.get b.params.chain).atten : Int))
      let exceeds := match adc with
        | some v => decide (r.maxLevel < v)
        | none => false
      let r1 : DonorRule := { r with
        level := adc.getD r.level
        lossSince := if counts then (if level < r.minLevel then (r.lossSince <|> some t) else none) else none
        okSince := if counts then (if r.minLevel + 300 ≤ level then (r.okSince <|> some t) else none) else none
        overTicks := if exceeds then r.overTicks + 1 else 0
        overload := r.overload && exceeds }
      let s1 := s.modNp (fun y => { y with donors := y.donors.set n r1 })
      if exceeds then s1 else endFault 0x42 (ibUnit n) s1
  | _, _ => s

/-- The donor level has stayed below DONOR_MIN for DONOR_LOSS_TIME (R168). -/
def donorLossTimeout (n : Nat) (s : State) : State :=
  let r := s.np.donors.get n
  match r.lossSince with
  | none => s
  | some t =>
    if r.enable = false ∨ r.loss then s
    else
      raiseLevel { cls := 0x41, unit := ibUnit n }
        ((advanceTo (t + tcOfMs r.lossTime) s).modNp (fun y => { y with
          donors := y.donors.set n { r with loss := true, losses := r.losses + 1, okSince := none } }))

def execDonorLossTimeout (ib : Nat) (s : State) : Host.Outcome State Fault Refusal := .next (donorLossTimeout ib s)

/-- The level has stayed at or above DONOR_MIN + 3 dB for 1 s, and the loss ends (R170). -/
def donorRecovery (n : Nat) (s : State) : State :=
  let r := s.np.donors.get n
  match r.okSince with
  | none => s
  | some t =>
    if r.loss then
      endFault 0x41 (ibUnit n) ((advanceTo (t + tcPerSecond) s).modNp (fun y => { y with
        donors := y.donors.set n { r with loss := false } }))
    else s

def execDonorRecovery (ib : Nat) (s : State) : Host.Outcome State Fault Refusal := .next (donorRecovery ib s)

/-- The level at the ADC has exceeded DONOR_MAX in 32 consecutive loop ticks (R168). The attenuator rises by the own action of
the class (R172). -/
def donorOverloadDetect (n : Nat) (s : State) : State :=
  let r := s.np.donors.get n
  if r.enable ∧ 32 ≤ r.overTicks ∧ r.overload = false then
    raiseLevel { cls := 0x42, unit := ibUnit n }
      (s.modNp (fun y => { y with donors := y.donors.set n { r with overload := true, overloads := r.overloads + 1 } }))
  else s

def execDonorOverloadDetect (ib : Nat) (s : State) : Host.Outcome State Fault Refusal := .next (donorOverloadDetect ib s)

/-- The FENCE reaction to DONOR_LOSS sets the DONOR mute source on the ul_mask, protected band paths apart; its clearing takes it
away wherever it was set (R159, R171). -/
def donorMute (n : Nat) (on : Bool) (s : State) : State :=
  let m := (s.np.donors.get n).ulMask
  let hit (e : Nat) : Bool := m.testBit e && (match s.ce.eb.get e with
    | some b => !b.params.protected_
    | none => true)
  refreshGains (s.modNp (fun y => { y with
    gain := y.gain.modAll ((List.range 128).filter (fun e => !on || hit e)) (fun _ g =>
      { g with donors := if on then n :: without g.donors n else without g.donors n }) }))

/-! ## Output rules (R168, R173, R174) -/

/-- The pre-back-off of a cause on a chain. -/
def preBackoff (cause : BackoffCause) (t amount : Nat) (s : State) : State :=
  setBackoff { cause, unit := chainUnit (t + 8), inst := 0, amount } s

/-- A measurement of a transmit chain's composite output power, 0.01 dBm (R168, R173). -/
def outputMeasured (t : Nat) (power : Int) (s : State) : State :=
  let o := s.np.outputs.get t
  let exceeds := decide (o.limit + 50 < power)
  let atOrUnder := decide (power ≤ o.limit)
  let o1 : OutputRule := { o with
    power := power
    overRun := if exceeds ∧ o.enable then o.overRun + 1 else 0
    underRun := if atOrUnder then o.underRun + 1 else 0 }
  let s1 := s.modNp (fun y => { y with outputs := y.outputs.set t o1 })
  if o.enable = false then s1
  else
    let s2 :=
      if o.limit + 50 ≤ power then preBackoff .overpower t (((power - o.limit + 50).toNat + 9) / 10 * 10) s1
      else if 10 ≤ o1.underRun then preBackoff .overpower t 0 s1
      else s1
    if o.limit + o.trip < power ∨ 3 ≤ o1.overRun then raiseLevel { cls := 0x43, unit := chainUnit (t + 8), direct := true } s2
    else endFault 0x43 (chainUnit (t + 8)) s2

/-- A usable OBS dwell gives ACLR_WORST (R168, R174). -/
def aclrMeasured (t : Nat) (worst : Int) (s : State) : State :=
  let o := s.np.outputs.get t
  if o.enable = false then s.modNp (fun y => { y with outputs := y.outputs.set t { o with aclr := worst } })
  else
    let e := if worst < o.aclrLimit + 300 then min 600 (o.emission + 100) else o.emission - 100
    let o1 : OutputRule := { o with
      aclr := worst, emission := e, failRun := if worst < o.aclrLimit then o.failRun + 1 else 0 }
    let s1 := preBackoff .emission t e (s.modNp (fun y => { y with outputs := y.outputs.set t o1 }))
    if 3 ≤ o1.failRun then raiseLevel { cls := 0x44, unit := chainUnit (t + 8), direct := true } s1
    else if o1.failRun = 0 then endFault 0x44 (chainUnit (t + 8)) s1
    else s1

/-! ## Commands -/

/-- Power states of the command groups of the signal path. -/
def activeOrQuiet : List PowerState := [.active, .quiet]

/-- The role is not UNSET. -/
def roleSet (s : State) (_ : Req) : Bool := s.sys.role != .unset

/-- GS_SET_GAIN (0x0601). -/
def specGsSetGain : CommandSpec where
  opcode := 0x0601
  role := some .operate
  power := activeOrQuiet
  length := fixedLength 8
  states := roleSet
  checks := fun s q =>
    let p := q.payload
    [field 0 (ebExists s (u8 p 0)), field 1 (zeros p 1 3), field 4 (withinI (-3000) 7000 (s32 p 4)),
     need .eConflict (!outputLoopBound s (u8 p 0))]
  effect := fun s q =>
    let p := q.payload
    let t := now s
    let v := s32 p 4
    (refreshGains (s.modNp (fun n => { n with
      gain := n.gain.mod (u8 p 0) (fun g0 =>
        let g := followSoft t g0
        match g.soft with
        | some (_, _, start, dur) =>
          { g with soft := some (g.gCmd, v, t, max (start + dur - t) ((v - g.gCmd).natAbs * 196608)) }
        | none => { g with gCmd := v }) })), {})

def execGsSetGain (r : HostRequest) (s : State) : Host.Outcome State Fault Refusal := .next (submit specGsSetGain r s)

/-- GS_MUTE (0x0602). -/
def specGsMute : CommandSpec where
  opcode := 0x0602
  role := some .operate
  power := activeOrQuiet
  length := fixedLength 20
  states := roleSet
  checks := fun _ q =>
    let p := q.payload
    [field 0 (uN p 0 16 != 0), field 16 (within 0 1 (u8 p 16)), field 17 (zeros p 17 3)]
  effect := fun s q =>
    let p := q.payload
    (refreshGains (s.modNp (fun n => { n with
      gain := n.gain.modAll ((mask128 p 0).filter (ebExists s)) (fun _ g => { g with host := u8 p 16 == 1 }) })), {})

def execGsMute (r : HostRequest) (s : State) : Host.Outcome State Fault Refusal := .next (submit specGsMute r s)

/-- NP_BACKOFF_SET (0x0603). -/
def specNpBackoffSet : CommandSpec where
  opcode := 0x0603
  role := some .operate
  power := activeOrQuiet
  length := fixedLength 8
  states := roleSet
  checks := fun s q =>
    let p := q.payload
    [field 0 (within 0 1 (u8 p 0)),
     field 1 (if u8 p 0 = 0 then ebExists s (u8 p 1) else within 8 15 (u8 p 1)),
     field 2 (zeros p 2 2), field 4 (within 0 4000 (u32 p 4))]
  effect := fun s q =>
    let p := q.payload
    let u := if u8 p 0 = 0 then ebUnit (u8 p 1) else chainUnit (u8 p 1)
    (setBackoff { cause := .host, unit := u, inst := 0, amount := u32 p 4 } s, {})

def execNpBackoffSet (r : HostRequest) (s : State) : Host.Outcome State Fault Refusal := .next (submit specNpBackoffSet r s)

/-- NP_POLICY (0x0604). -/
def specNpPolicy : CommandSpec where
  opcode := 0x0604
  role := some .admin
  power := activeOrQuiet
  length := fixedLength 8
  states := roleSet
  checks := fun _ q => [field 0 (within 300 4000 (u32 q.payload 0)), field 4 (within 1200 4000 (u32 q.payload 4))]
  effect := fun s q =>
    (shareBackoff (s.modNp (fun n => { n with backoffMax := u32 q.payload 0, shareMax := u32 q.payload 4 })), {})

def execNpPolicy (r : HostRequest) (s : State) : Host.Outcome State Fault Refusal := .next (submit specNpPolicy r s)

/-- UL_GATE_CONFIG (0x0605). -/
def specUlGateConfig : CommandSpec where
  opcode := 0x0605
  role := some .operate
  power := activeOrQuiet
  length := fixedLength 12
  states := roleSet
  checks := fun s q =>
    let p := q.payload
    [field 0 (ibExists s (u8 p 0)), field 1 (within 0 2 (u8 p 1)), field 2 (within 0 14 (u8 p 2)), field 3 (zeros p 3 1),
     field 4 (within 100 2000 (u32 p 4)), field 8 (within 20 2000 (u32 p 8)),
     need .eConflict (ulChain s (ibChain s (u8 p 0)))]
  effect := fun s q =>
    let p := q.payload
    let n := u8 p 0
    let old := (s.np.gates.get n).getD {}
    let g : UlGate := { old with
      mode := if u8 p 1 = 0 then .gated else if u8 p 1 = 1 then .open_ else .closed
      hang := u8 p 2, gOpen := (u32 p 4 : Int), noiseWin := u32 p 8 }
    let s1 := s.modNp (fun y => { y with gates := y.gates.set n (some g) })
    (if old.noiseWin = u32 p 8 then s1 else restartGate n s1, {})

def execUlGateConfig (r : HostRequest) (s : State) : Host.Outcome State Fault Refusal := .next (submit specUlGateConfig r s)

/-- UL_NOISE_CONFIG (0x0606). -/
def specUlNoiseConfig : CommandSpec where
  opcode := 0x0606
  role := some .operate
  power := activeOrQuiet
  length := fixedLength 16
  states := roleSet
  checks := fun s q =>
    let p := q.payload
    [field 0 (ebExists s (u8 p 0)), field 1 (within 0 1 (u8 p 1)), field 2 (zeros p 2 2),
     field 4 (withinI (-12000) 0 (s32 p 4)), field 8 (within 10 10000 (u32 p 8)), field 12 (within 300 3000 (u32 p 12)),
     need .eConflict (ulChain s (ebChain s (u8 p 0)))]
  effect := fun s q =>
    let p := q.payload
    let e := u8 p 0
    let on := u8 p 1 == 1
    let old := s.np.noise.get e
    let u : UlNoise := { old with
      enable := on, limit := s32 p 4, rise := u32 p 8, deficit := (u32 p 12 : Int), riseAt := now s
      goal := if on then old.nUl.map (fun n => s32 p 4 - n) else none
      lowSince := if on then old.lowSince else none }
    let s1 := s.modNp (fun y => { y with
      noise := y.noise.set e u
      gain := y.gain.mod e (fun g => { g with
        capUl := if on then (match g.capUl, u.goal with
          | some c, some x => some (min c x)
          | none, some x => some x
          | _, none => some gLow) else none }) })
    (refreshGains (if on then s1 else endFault 0x40 (ebUnit e) s1), {})

def execUlNoiseConfig (r : HostRequest) (s : State) : Host.Outcome State Fault Refusal := .next (submit specUlNoiseConfig r s)

/-- NP_DONOR_CONFIG (0x0607). -/
def specNpDonorConfig : CommandSpec where
  opcode := 0x0607
  role := some .operate
  power := activeOrQuiet
  length := fixedLength 32
  states := roleSet
  checks := fun s q =>
    let p := q.payload
    [field 0 (ibExists s (u8 p 0)), field 1 (within 0 1 (u8 p 1)), field 2 (zeros p 2 2),
     field 4 (withinI (-12000) 0 (s32 p 4)), field 8 (within 10 10000 (u32 p 8)), field 12 (withinI (-3000) 0 (s32 p 12)),
     need .eConflict (dlChain s (ibChain s (u8 p 0)) &&
       ((mask128 p 16).filter (ebExists s)).all (fun e => ulChain s (ebChain s e)))]
  effect := fun s q =>
    let p := q.payload
    let n := u8 p 0
    let old := s.np.donors.get n
    let r : DonorRule := { old with
      enable := u8 p 1 == 1, minLevel := s32 p 4, lossTime := u32 p 8, maxLevel := s32 p 12, ulMask := uN p 16 16 }
    if u8 p 1 = 1 then (s.modNp (fun y => { y with donors := y.donors.set n r }), {})
    else
      (endFault 0x42 (ibUnit n) (endFault 0x41 (ibUnit n) (s.modNp (fun y => { y with
        donors := y.donors.set n { r with
          lossSince := none, okSince := none, loss := false, overTicks := 0, overload := false } }))), {})

def execNpDonorConfig (r : HostRequest) (s : State) : Host.Outcome State Fault Refusal := .next (submit specNpDonorConfig r s)

/-- NP_OUTPUT_CONFIG (0x0608). -/
def specNpOutputConfig : CommandSpec where
  opcode := 0x0608
  role := some .operate
  power := activeOrQuiet
  length := fixedLength 20
  states := roleSet
  checks := fun s q =>
    let p := q.payload
    [field 0 (within 8 15 (u8 p 0)), field 1 (within 0 1 (u8 p 1)), field 2 (zeros p 2 2),
     field 4 (withinI (-2000) 6500 (s32 p 4)), field 8 (within 1000 6000 (u32 p 8)), field 12 (within 100 600 (u32 p 12)),
     field 16 (within 2000 6000 (u32 p 16)),
     need .eConflict (u8 p 1 == 0 || (s.rf.obsMap.get (u8 p 0 - 8)).isSome || forwardServes s (u8 p 0 - 8))]
  effect := fun s q =>
    let p := q.payload
    let t := u8 p 0 - 8
    let on := u8 p 1 == 1
    let s1 := s.modNp (fun y => { y with
      outputs := y.outputs.mod t (fun o => { o with
        enable := on, limit := s32 p 4, coupling := (u32 p 8 : Int), trip := (u32 p 12 : Int)
        aclrLimit := (u32 p 16 : Int)
        overRun := if on then o.overRun else 0, underRun := if on then o.underRun else 0
        failRun := if on then o.failRun else 0, emission := if on then o.emission else 0 }) })
    (if on then s1
     else endFault 0x43 (chainUnit (t + 8)) (endFault 0x44 (chainUnit (t + 8))
       (preBackoff .overpower t 0 (preBackoff .emission t 0 s1))), {})

def execNpOutputConfig (r : HostRequest) (s : State) : Host.Outcome State Fault Refusal :=
  .next (submit specNpOutputConfig r s)

end Sys2Proof.Machine
end

