-- ==== Sys2Proof/Machine/RfComplex.lean ====
section
/-! DEFINITION. RF transceiver complex (R56–R81): windows and LO placement, the front-end state machine, held commands,
attenuators, calibrations and grants. -/

namespace Sys2Proof.Machine

open Sys2Proof

/-! ## Chains -/

def modChain (c : Nat) (f : Chain → Chain) (s : State) : State :=
  s.modRf (fun r => { r with chains := r.chains.mod c f })

/-- Filtered temperature of a chain's RF-die sensor, 0.01 °C (table *Sensor assignment*). -/
def chainTemp (s : State) (c : Nat) : Int := (s.hk.sensors.get (16 + c % 8 / 2)).usedTemp

/-- Temperature moved since the chain's last FULL calibration; none without retained results. -/
def tempMoved (s : State) (c : Nat) : Option Nat :=
  ((s.rf.chains.get c).tCal).map (fun t => (chainTemp s c - t).natAbs)

/-- Retained calibration results are valid (R76). -/
def retainedValid (s : State) (c : Nat) : Bool :=
  match tempMoved s c with
  | some d => decide (d < s.rf.tempDelta)
  | none => false

/-- The tone generator of a chain: 0 for A0–A3, 1 for A4–A7 (R74). -/
def toneOf (c : Nat) : Nat := c % 8 / 4

/-- Longest duration of an operation, µs (table *Synthesiser timing*). -/
def opTime : RfOpKind → Nat
  | .retune => 40 | .vcoBand => 120 | .full => 350

/-- The path code of an operation in the RF_CHAIN_CONFIG response. -/
def opPath : RfOpKind → Nat
  | .retune => 1 | .vcoBand => 2 | .full => 3

/-- R59: automatic placement of the LO. A centre on a half hertz is rounded down; the rule does not round it (log entry 124). -/
def autoLo (low high : Nat) : Nat := max ((low + high) / 2 - 720000000) 250000000

/-- A window with its LO satisfies R57 and R58. -/
def windowValid (w : RfWindow) : Bool :=
  decide (380000000 ≤ w.low) && decide (w.high ≤ 7125000000) && decide (w.low < w.high) &&
    decide (w.high - w.low ≤ 1200000000) && within 250000000 7085000000 w.lo && decide (w.lo + 40000000 ≤ w.low) &&
    decide (w.high ≤ w.lo + 1400000000)

/-- The kind of operation that takes a chain's synthesiser from one LO to another (R65). -/
def retuneKind (s : State) (c from_ to_ : Nat) : RfOpKind :=
  if Config.vcoSubBand c from_ (chainTemp s c) = Config.vcoSubBand c to_ (chainTemp s c) then .retune else .vcoBand

/-- The chain is changing: CALIBRATING or LOCKING, or about to (R67, R68). -/
def chainBusy (x : Chain) : Bool := x.fe == .calibrating || x.fe == .locking || x.nextOp.isSome

/-- The next slot boundary (R30). -/
def nextSlot (s : State) : AirInstant := nextBoundary s.air gridSlot (slotPeriod s.air)

/-! ## Attenuators (R62–R64) -/

/-- The attenuator switches now; a request stored earlier is replaced by this one (R64). -/
def applyAtten (c v : Nat) (s : State) : State :=
  markStep c (modChain c (fun x => { x with atten := v, attenOld := x.atten, attenAt := some (now s), attenWait := none, attenStore := none }) s)

/-- An attenuation is requested; the answer is the monotonic time of the switching sample, 0 if stored (R64). -/
def requestAtten (c v : Nat) (s : State) : State × Nat :=
  let x := s.rf.chains.get c
  if x.fe = .calibrating ∨ x.fe = .locking then (modChain c (fun y => { y with attenStore := some v, attenWait := none }) s, 0)
  else
    match x.attenAt with
    | some t =>
      if now s < t + tcOfUs 1 then (modChain c (fun y => { y with attenWait := some v, attenStore := none }) s, t + tcOfUs 1)
      else (applyAtten c v s, now s)
    | none => (applyAtten c v s, now s)

/-- A waiting request is applied 1 µs after the previous change (R64). -/
def attenDeferredApply (c : Nat) (s : State) : State :=
  let x := s.rf.chains.get c
  match x.attenWait, x.attenAt with
  | some v, some t => applyAtten c v (advanceTo (t + tcOfUs 1) s)
  | _, _ => s

def execAttenDeferredApply (c : Nat) (s : State) : Host.Outcome State Fault Refusal := .next (attenDeferredApply c s)

/-! ## Operations -/

/-- Every egress band path of a chain is silent. -/
def chainSilent (s : State) (c : Nat) : Bool :=
  (ebsOfChain s c).all (fun e => (settleRamp (now s) (s.np.gain.get e).ramp).state == .silent)

/-- No ingress band path of a chain is still fading out. -/
def chainFaded (s : State) (c : Nat) : Bool :=
  (ibsOfChain s c).all (fun n => match s.ce.ib.get n with
    | some b => b.phase == .waiting || b.phase == .zeros
    | none => true)

/-- The state to which a chain comes back: the one it held in READY or ACTIVE, a READY chain that only waits for its slot
boundary counting as ACTIVE (R67). -/
def returnState (x : Chain) : FeState :=
  match x.fe with
  | .active => .active
  | .ready => if x.activateAt.isSome then x.ret else .ready
  | _ => x.ret

/-- An operation starts: the chain enters LOCKING or CALIBRATING, and a FULL calibration takes its tone (R65, R67, R74). An
RF_TX_ENABLE that waits for its slot boundary goes on waiting. -/
def startOp (c : Nat) (o : RfOp) (s : State) : State :=
  let x := s.rf.chains.get c
  let back := returnState x
  let s1 := s.modRf (fun r => { r with
    chains := r.chains.set c { x with
      fe := if o.kind = .retune then .locking else .calibrating
      ret := back, locked := false, op := some { o with startedAt := now s }
      nextOp := none, calAt := none, activateAt := none
      deadline_ := o.deadline }
    tones := if o.kind = .full then r.tones.set (toneOf c) true else r.tones })
  if c < 8 then chainStops c s1 else refreshGains s1

/-- An operation begins on a chain that may be delivering: band paths fade or mute first (R67, R105). -/
def beginOp (c : Nat) (o : RfOp) (s : State) : State :=
  if (s.rf.chains.get c).fe = .active then
    let s1 := modChain c (fun x => { x with nextOp := some o }) s
    if c < 8 then
      let s2 := (ibsOfChain s1 c).foldl (fun acc n => fadeForChain n acc) s1
      if chainFaded s2 c then startOp c o s2 else refreshGains s2
    else
      let s2 := refreshGains s1
      if chainSilent s2 c then startOp c o s2 else s2
  else startOp c o s

/-- The band paths of a chain whose LO changes: an NCO change of each (R86, R100). -/
def bandsRetuned (c : Nat) (s : State) : State :=
  if c < 8 then (ibsOfChain s c).foldl (fun acc n => bandChanged .ingress n false acc) s
  else (ebsOfChain s c).foldl (fun acc e =>
    bandChanged .egress e false (match acc.ce.eb.get e with
      | some b => startSettle .egress e b.params acc
      | none => acc)) s

/-- A receive chain that has become ACTIVE applies a stored attenuation without a step event (R64). -/
def takeStored (c : Nat) (s : State) : State :=
  modChain c (fun x => match x.attenStore with
    | some v => { x with atten := v, attenStore := none }
    | none => x) s

/-- A chain becomes ACTIVE; the RF_TX_ENABLEs that waited for it complete, and a held command goes on waiting for its slot boundary
(R67, R68). A receive chain that has lost its lock goes on delivering GAPPED zeros (R66). -/
def becomeActive (c : Nat) (s : State) : State :=
  let x := s.rf.chains.get c
  let s1 := modChain c (fun y => { y with
    fe := .active, ret := .active, activateAt := if y.held.isSome then y.activateAt else none, enabling := []
    outputOff := false, gapped := y.gapped && !y.locked }) s
  x.enabling.foldl (fun acc t => complete t.1 .ok 0 acc)
    (if c < 8 then (if (s1.rf.chains.get c).gapped then s1 else chainDeliversAgain c (takeStored c s1)) else refreshGains s1)

/-- A chain goes on to ACTIVE: its return state is ACTIVE, or an RF_TX_ENABLE waits for it (R67). -/
def wantsActive (x : Chain) : Bool := x.ret == .active || !x.enabling.isEmpty

/-- A chain is OFF: its domain is unpowered, and an RF_CHAIN_CONFIG that was turning it off completes (R67). Retained calibration
results stay (R76). -/
def powerDown (c : Nat) (s : State) : State :=
  let x := s.rf.chains.get c
  let s1 := s.modRf (fun r => { r with
    chains := r.chains.set c { x with
      fe := .off, ret := .off, locked := false, op := none, nextOp := none, activateAt := none, enabling := []
      held := none, due := none, calAt := none, relockBy := none, attenWait := none, attenStore := none
      outputOff := false, gapped := false, leaving := false, offAt := none, opTicket := none, previous := none
      deadline_ := none }
    tones := match x.op with
      | some o => if o.kind = .full then r.tones.set (toneOf c) false else r.tones
      | none => r.tones })
  let runs := (x.op.map (·.calRuns)).getD [] ++ (x.due.map (·.runs)).getD []
  let s2 := completeOpt (x.offAt.map (·.2)) .ok 0 (runs.foldl (fun acc t => complete t .eNotReady 0 acc) s1)
  endFault 0x10 (chainUnit c) (if c < 8 then chainStops c s2 else refreshGains s2)

/-- The command that is held and the RF_TX_ENABLEs that wait end without effect, with this status. -/
def dropHeld (c : Nat) (st : Status) (s : State) : State :=
  let x := s.rf.chains.get c
  let s1 := modChain c (fun y => { y with held := none, enabling := [] }) s
  let s2 := match x.held with
    | some (.txEnable t _) => complete t st 0 s1
    | some (.config t _ _) => complete t st 0 s1
    | none => s1
  x.enabling.foldl (fun acc t => complete t.1 st 0 acc) s2

/-- The commands that a disable leaves without effect complete E_CONFLICT (R68). -/
def cancelHeld (c : Nat) (s : State) : State := dropHeld c .eConflict s

/-- A chain that is being disabled is OFF before another configuration of it is taken. -/
def finishOff (c : Nat) (s : State) : State := if (s.rf.chains.get c).offAt.isSome then powerDown c s else s

/-- The LO on which the operation in progress will lock (R68). -/
def lockingLo (x : Chain) : Nat := x.window.lo

/-- A configuration takes effect on an enabled chain that is READY or ACTIVE: at once when the LO stays, else by a retune or
VCO_BAND calibration whose lock completes it (R67, R69). -/
def startConfig (c : Nat) (w : RfWindow) (atten : Nat) (t : Ticket) (s : State) : State :=
  let x := s.rf.chains.get c
  let s0 := if c < 8 ∧ chainGainBound s c = false ∧ atten ≠ x.atten then (requestAtten c atten s).1 else s
  if w.lo = x.window.lo then complete t .ok 0 (modChain c (fun y => { y with window := w }) s0)
  else
    let o : RfOp :=
      { kind := retuneKind s c x.window.lo w.lo, startedAt := now s, ticket := some t
        deadline := some (now s + tcOfMs 2) }
    let s1 := modChain c (fun y => { y with window := w, previous := some (x.window, x.fe) }) s0
    beginOp c o (bandsRetuned c s1)

/-- The tone generator of a chain is neither busy nor taken for a FULL calibration that is about to start (R74). -/
def toneFree (s : State) (c : Nat) : Bool :=
  !s.rf.tones.get (toneOf c) &&
    (List.range 16).all (fun k => k == c || toneOf k != toneOf c || (s.rf.chains.get k).calAt.isNone ||
      ((s.rf.chains.get k).due.map (·.kind)) != some .full)

/-- The DPD sets that a chain retained through a reset or STANDBY: one taken at a temperature that differs by CAL_TEMP_DELTA or more
from the present one is the identity again (R76, R457). -/
def checkSets (s : State) (c : Nat) (d : Dpd) : Dpd :=
  if d.check = false then d
  else { d with
    check := false
    sets := (List.range 6).foldl (fun b k =>
      if (chainTemp s c - d.setTemp.get k).natAbs < s.rf.tempDelta then b else b.set k []) d.sets }

/-- The retained sets of a chain that is enabled are checked. -/
def recheckDpd (c : Nat) (s : State) : State :=
  if c < 8 then s else s.modCe (fun x => { x with dpd := x.dpd.mod (c - 8) (checkSets s c) })

/-- A chain that is OFF is enabled: LOCKING with valid retained results, else a FULL calibration as soon as its tone is
free (R67, R71, R74). A receive chain goes on to ACTIVE, a transmit chain to READY. -/
def startFromOff (c : Nat) (w : RfWindow) (atten : Nat) (t : Option Ticket) (s : State) : State :=
  let d := now s + tcOfMs 2
  let s1 := modChain c (fun y => { y with
    window := w, previous := some (y.window, .off), ret := if c < 8 then .active else .ready
    atten := if c < 8 ∧ chainGainBound s c = false then atten else y.atten }) (recheckDpd c s)
  if retainedValid s c then startOp c { kind := .retune, startedAt := now s, ticket := t, deadline := some d } s1
  else if toneFree s1 c = false then
    modChain c (fun y => { y with
      fe := .calibrating, opTicket := t, deadline_ := some d
      due := some { kind := .full, since := now s } }) s1
  else startOp c { kind := .full, startedAt := now s, ticket := t, deadline := some d } s1

/-! ## Lock -/

/-- Lock is declared at the present instant (R66–R68). -/
def lockDeclared (c us : Nat) (s : State) : State :=
  let x := s.rf.chains.get c
  match x.op with
  | none => s
  | some o =>
    let atLock := o.forced || o.hostNow
    let toActive := x.ret == .active
    let slot := nextBoundary s.air gridSlot (slotPeriod s.air)
    let s1 := s.modRf (fun r => { r with
      chains := r.chains.set c { x with
        fe := .ready, locked := true, op := none, lockUs := us % 65536, relockBy := none, previous := none
        deadline_ := none
        activateAt := if (toActive && !atLock) || x.held.isSome || !x.enabling.isEmpty then some slot else none }
      tones := if o.kind = .full then r.tones.set (toneOf c) false else r.tones })
    let s2 := endFault 0x10 (chainUnit c) (completeOpt o.ticket .ok 0 s1)
    let s3 := o.calRuns.foldl (fun acc t => complete t .ok 0 acc) s2
    if toActive && atLock then becomeActive c s3 else refreshGains s3

/-- A synthesiser is declared locked `us` µs after it started (R65, R66). -/
def synthLock (c us : Nat) (s : State) : State :=
  let x := s.rf.chains.get c
  match x.op with
  | some o => if o.kind = .retune then lockDeclared c us (advanceTo (o.startedAt + tcOfUs us) s) else s
  | none =>
    if x.fe = .off ∨ x.locked then s
    else
      let s1 := endFault 0x10 (chainUnit c) (modChain c (fun y => { y with
        locked := true, outputOff := false, gapped := false
        activateAt := if y.fe = .ready ∧ y.activateAt.isNone ∧ wantsActive y then some (nextSlot s) else y.activateAt }) s)
      if c < 8 ∧ x.fe = .active then chainDeliversAgain c (takeStored c s1) else s1

def execSynthLock (c us : Nat) (s : State) : Host.Outcome State Fault Refusal := .next (synthLock c us s)

/-- A synthesiser is declared unlocked (R66); SYN.BELL, number 16, raises BELL_FAULT during a packet (R364). -/
def synthUnlock (c : Nat) (s : State) : State :=
  let x := s.rf.chains.get c
  if c = 16 then
    let busy := s.bell.rx == .header || s.bell.rx == .payload || s.bell.rx == .transmit
    let s1 := s.modRf (fun r => { r with bellLocked := false })
    if busy then raiseMoment { cls := 0xA0, unit := ⟨.bell, 0⟩, detail4 := 0 } s1 else s1
  else
  if x.fe = .ready ∨ x.fe = .active then
    let tx := decide (8 ≤ c)
    let s1 := modChain c (fun y => { y with
      locked := false, unlocks := y.unlocks + 1, outputOff := tx && y.fe == .active, gapped := !tx }) s
    if tx && x.fe == .ready then s1
    else raiseLevel { cls := 0x10, unit := chainUnit c, direct := tx } (refreshGains s1)
  else s

def execSynthUnlock (c : Nat) (s : State) : Host.Outcome State Fault Refusal := .next (synthUnlock c s)

/-- A carrier lies inside a window (R82). -/
def carrierInside (w : RfWindow) (b : BpParams) : Bool :=
  decide (2 * w.low + b.bw ≤ 2 * b.center) && decide (2 * b.center + b.bw ≤ 2 * w.high)

/-- The parameters that the band paths of a chain have or are settling to. -/
def chainBands (s : State) (c : Nat) : List BpParams :=
  ((if c < 8 then ibs s else ebs s).map (fun p => p.2.next.getD p.2.params)).filter (fun b => b.chain == c)

/-- The window would overlap that of another chain on the same OBS input (R77). -/
def obsOverlap (s : State) (c : Nat) (w : RfWindow) : Bool :=
  decide (8 ≤ c) && (match s.rf.obsMap.get (c - 8) with
    | none => false
    | some k => (List.range 8).any (fun t =>
        let x := s.rf.chains.get (t + 8)
        t != c - 8 && s.rf.obsMap.get t == some k && x.fe != .off && decide (x.window.low < w.high) &&
          decide (w.low < x.window.high)))

/-- The chain may take a window: every carrier lies inside it, and no chain on the same OBS input overlaps it (R77, R82). -/
def windowFits (s : State) (c : Nat) (w : RfWindow) : Bool := (chainBands s c).all (carrierInside w) && !obsOverlap s c w

/-- A held command starts as if it had arrived now (R68): the window of an RF_CHAIN_CONFIG is checked again. -/
def startHeld (c : Nat) (h : HeldCommand) (s : State) : State :=
  match h with
  | .txEnable t _ => complete t .ok 0 (becomeActive c s)
  | .config t w a => if windowFits s c w then startConfig c w a t s else complete t .eConflict 0 s

/-- The slot boundary at which a chain becomes ACTIVE or a held command starts (R67, R68). A transmit chain that has lost its lock
waits for it (R66, R69). A chain that an RF_CHAIN_CONFIG disables is OFF when its mute ramp has ended (R67, log entry 123). -/
def chainActivate (c : Nat) (s : State) : State :=
  let x := s.rf.chains.get c
  match x.offAt, x.activateAt with
  | some (t, _), _ => powerDown c (advanceTo t s)
  | none, none => s
  | none, some i =>
    let s1 := modChain c (fun y => { y with activateAt := none, held := none }) (advanceToAir i s)
    let awaits := decide (8 ≤ c) && !x.locked
    let s2 := if wantsActive x && !awaits then becomeActive c s1 else s1
    match x.held with
    | some (.txEnable t d) =>
      if awaits then modChain c (fun y => { y with enabling := y.enabling ++ [(t, d)] }) s2
      else startHeld c (.txEnable t d) s2
    | some h => startHeld c h s2
    | none => s2

def execChainActivate (c : Nat) (s : State) : Host.Outcome State Fault Refusal := .next (chainActivate c s)

/-- The chain tries its present LO once more, for at most 2 ms (R69). -/
def relockHere (c : Nat) (s : State) : State :=
  let x := s.rf.chains.get c
  let by_ := x.relockBy.getD (now s + tcOfMs 2)
  match x.op with
  | some o =>
    if o.kind = .retune then modChain c (fun y => { y with op := some { o with startedAt := now s }, relockBy := some by_ }) s
    else s
  | none =>
    if x.locked then s
    else modChain c (fun y => { y with relockBy := some by_ }) (startOp c { kind := .retune, startedAt := now s } s)

/-- The LO change of a configuration has not locked within 2 ms: the chain goes back to its previous LO and front-end state
(R69). -/
def configTimeout (c d : Nat) (s : State) : State :=
  let x := s.rf.chains.get c
  let t := ((x.op.bind (·.ticket)) <|> x.opTicket)
  let s1 := modChain c (fun y => { y with
    deadline_ := none, opTicket := none, op := y.op.map (fun o => { o with ticket := none }) }) (advanceTo d s)
  let s2 := completeOpt t .eNotReady 0 s1
  match x.previous with
  | some (_, .off) => powerDown c (dropHeld c .eNotReady s2)
  | some (w, fe) =>
    let s3 := modChain c (fun y => { y with
      window := w, ret := fe, previous := none, op := none, relockBy := some (now s2 + tcOfMs 2) }) s2
    startOp c { kind := retuneKind s3 c x.window.lo w.lo, startedAt := now s3 } (bandsRetuned c s3)
  | none => s2

/-- The RF_TX_ENABLE for which lock has not been declared, with its limit: the held one, or the first that waits (R69). -/
def waitingEnable (x : Chain) : Option (Ticket × Nat) :=
  match x.held with
  | some (.txEnable t d) => some (t, d)
  | _ => x.enabling.head?

/-- An RF_TX_ENABLE has not found lock within 2 ms of its acceptance: it completes E_NOT_READY, and the chain stays in its front-end
state and locks on its LO again (R69). -/
def enableTimeout (c : Nat) (t : Ticket) (d : Nat) (s : State) : State :=
  let s1 := modChain c (fun y =>
    let heldOne : Bool := match y.held with
      | some (.txEnable _ _) => true
      | _ => false
    if heldOne then { y with held := none } else { y with enabling := y.enabling.drop 1 }) (advanceTo d s)
  relockHere c (complete t .eNotReady 0 s1)

/-- Lock has not been declared within 2 ms (R69): whichever limit of the chain comes first has passed. -/
def lockTimeout (c : Nat) (s : State) : State :=
  let x := s.rf.chains.get c
  match x.deadline_, waitingEnable x with
  | some d, some (t, e) => if e < d then enableTimeout c t e s else configTimeout c d s
  | some d, none => configTimeout c d s
  | none, some (t, e) => enableTimeout c t e s
  | none, none => s

def execLockTimeout (c : Nat) (s : State) : Host.Outcome State Fault Refusal := .next (lockTimeout c s)

/-- The chain has not locked on its previous LO within a further 2 ms (R69). -/
def relockTimeout (c : Nat) (s : State) : State :=
  match (s.rf.chains.get c).relockBy with
  | some d => raiseLevel { cls := 0x10, unit := chainUnit c }
      (modChain c (fun y => { y with relockBy := none }) (advanceTo d s))
  | none => s

def execRelockTimeout (c : Nat) (s : State) : Host.Outcome State Fault Refusal := .next (relockTimeout c s)

/-! ## Calibration (R70–R76) -/

/-- No segment of the chain's own direction touches the span from `back` before a position to `ahead` after it. -/
def quietSpan (d : PatternDef) (dl : Bool) (pos back ahead : Nat) : Bool :=
  let own : SegType := if dl then .dl else .ul
  let lo : Int := (pos : Int) - back
  let hi : Int := (pos : Int) + ahead
  [(-1 : Int), 0, 1].all (fun k => (segmentStarts d).all (fun x =>
    x.2.2 != own || decide ((x.2.1 : Int) + k * d.period ≤ lo) || decide (hi ≤ (x.1 : Int) + k * d.period)))

/-- The TDD settings of a chain's band paths. -/
def chainPatterns (s : State) (c : Nat) : List (Option Nat) :=
  if c < 8 then ((ibs s).filter (fun p => p.2.params.chain == c)).map (·.2.params.tdd)
  else ((ebs s).filter (fun p => p.2.params.chain == c)).map (·.2.params.tdd)

/-- NO_QUIET_WINDOW: some band path of the chain is FDD (R72). -/
def noQuietWindow (s : State) (c : Nat) : Bool := (chainPatterns s c).any (·.isNone)

/-- A quiet run began at least 10 µs before an instant and lasts at least `need` µs after it (R72). -/
def quietRunOk (s : State) (c : Nat) (i : AirInstant) (need : Nat) : Bool :=
  let l := chainPatterns s c
  !l.isEmpty && l.all (fun p => match p with
    | none => false
    | some t => (match (s.air.patterns.get t).defn with
      | some d => quietSpan d (dlChain s c) (patternPos d i) (tcOfUs 10) (tcOfUs need)
      | none => false))

/-- A chain is idle: READY, waiting for its first calibration, or with every band path muted or PENNED (R72). -/
def chainIdle (s : State) (c : Nat) : Bool :=
  let x := s.rf.chains.get c
  x.fe == .ready || (x.fe == .calibrating && x.op.isNone) ||
    (if c < 8 then (ibsOfChain s c).all (fun n => penned s (ibUnit n))
     else (ebs s).all (fun p => p.2.params.chain != c || muteMask s p.1 p.2 != 0))

/-- Forced by temperature (R73). -/
def forcedNow (s : State) (c : Nat) : Bool :=
  match tempMoved s c with
  | some d => decide (4000 ≤ d)
  | none => false

/-- A FULL calibration becomes due; it takes the place of a VCO_BAND calibration that is due, which it contains (R71). -/
def fullDue (t : Nat) (d : Option DueCal) : DueCal :=
  match d with
  | some x => { x with kind := .full }
  | none => { kind := .full, since := t }

/-- The grants with refresh that start at an instant make a FULL calibration of their chains due (R71). -/
def refreshDue (i : AirInstant) (s : State) : State :=
  (List.range 16).foldl (fun acc c =>
    if acc.rf.grants.any (fun g => g.refresh && g.endAt.isNone && g.mask.getLsbD c && g.start == i) &&
        (acc.rf.chains.get c).fe != .off then
      modChain c (fun x => { x with due := some (fullDue (now acc) x.due) }) acc
    else acc) s

/-- The calibration of a chain that is due, a forced one included (R71, R73). -/
def dueOf (s : State) (c : Nat) : Option DueCal :=
  let x := s.rf.chains.get c
  if x.fe = .off ∨ x.op.isSome ∨ x.nextOp.isSome ∨ x.calAt.isSome ∨ x.offAt.isSome then none
  else if forcedNow s c then some (fullDue (now s) x.due)
  else x.due

/-- A grant covers the chain at an instant and leaves `us` µs (R72). -/
def grantCovers (s : State) (c : Nat) (i : AirInstant) (us : Nat) : Bool :=
  s.rf.grants.any (fun g => g.mask.getLsbD c && g.start == i && decide (us ≤ g.duration))

/-- The order of R74: forced first, then the larger temperature difference, then the lower index. -/
def calBefore (s : State) (a b : Nat) : Bool :=
  let fa := forcedNow s a
  let fb := forcedNow s b
  let da := (tempMoved s a).getD 0
  let db := (tempMoved s b).getD 0
  if fa != fb then fa else if da ≠ db then decide (db < da) else decide (a < b)

/-- Insertion into the order of R74. -/
def insertCal (s : State) (c : Nat) : List Nat → List Nat
  | [] => [c]
  | x :: rest => if calBefore s c x then c :: x :: rest else x :: insertCal s c rest

/-- One due calibration tested for the instant `i` (R74). -/
def tryCalibration (i : AirInstant) (s : State) (c : Nat) : State :=
  match dueOf s c with
  | none => s
  | some d =>
    let need := opTime d.kind + 10
    if d.kind = .full ∧ toneFree s c = false then s
    else if forcedNow s c || d.hostNow || chainIdle s c || grantCovers s c i (need - 10) || quietRunOk s c i need then
      let s1 := modChain c (fun x => { x with calAt := some (monoOfAir s.air i + now s), due := some d }) s
      refreshGains (if c < 8 then (ibsOfChain s1 c).foldl (fun acc n => fadeForChain n acc) s1 else s1)
    else s

/-- The next slot boundary or grant start that lies at least 10 µs ahead. -/
def calTarget (s : State) : AirInstant :=
  let p := slotPeriod s.air
  let o := (s.air.offset + tcOfUs 10 + 1 + p - 1) / p * p
  let slot : AirInstant := if o < tcPerFrame then ⟨s.air.frame, o⟩ else ⟨(s.air.frame + 1) % 4294967296, o - tcPerFrame⟩
  s.rf.grants.foldl (fun best g =>
    if g.endAt.isNone ∧ tcOfUs 10 ≤ airAhead s.air g.start ∧ airAhead s.air g.start < airAhead s.air best then g.start
    else best) slot

/-- The evaluation of R74, 10 µs before a slot boundary or grant start. -/
def calEvaluation (s : State) : State :=
  let i := calTarget s
  let s1 := refreshDue i (advanceTo (now s + (monoOfAir s.air i - (tcOfUs 10 + 1))) s)
  let l := ((List.range 16).filter (fun c => (dueOf s1 c).isSome)).foldl (fun acc c => insertCal s1 c acc) []
  l.foldl (tryCalibration i) s1

def execCalEvaluation (s : State) : Host.Outcome State Fault Refusal := .next (calEvaluation s)

/-- A calibration starts at its opportunity; a receive chain stops at the end of the longest fade (R72, R105). -/
def calibrationStart (c : Nat) (s : State) : State :=
  let x := s.rf.chains.get c
  match x.calAt, x.due with
  | some t, some d =>
    let fades := (ibsOfChain s c).foldl (fun m n => match s.ce.ib.get n with
      | some b => if b.phase = .fadeOut then max m b.phaseEnd else m
      | none => m) t
    let s1 := advanceTo (if c < 8 then fades else t) s
    if d.kind = .full ∧ toneFree s1 c = false then
      let s2 := modChain c (fun y => { y with calAt := none }) s1
      if c < 8 ∧ x.fe = .active then chainDeliversAgain c s2 else refreshGains s2
    else startOp c
      { kind := d.kind, startedAt := now s1, forced := forcedNow s c, hostNow := d.hostNow, calRuns := d.runs
        ticket := x.opTicket, deadline := x.deadline_ }
      (modChain c (fun y => { y with due := none, opTicket := none }) s1)
  | _, _ => s

def execCalibrationStart (c : Nat) (s : State) : Host.Outcome State Fault Refusal := .next (calibrationStart c s)

/-- After a FULL calibration of either chain an enabled canceller enters RE_ACQUIRE (R75, R137). -/
def cancellersReacquire (c : Nat) (s : State) : State :=
  s.modLg (fun g => { g with
    canc := { g.canc with cells := g.canc.cells.map (fun p =>
      let k := p.2
      let mine := ibChain s k.ib == c || (!k.refFlow && ebChain s k.refId == c)
      if k.state != .idle && mine then
        (p.1, { k with
          before := if k.state = .reAcquire then k.before else k.state, state := .reAcquire
          fitNum := (0, 0), fitDen := 0, fitCount := 0 })
      else p) } })

/-- A calibration that was forced by temperature or asked for in mode 1 writes CAL_FORCED: the chain, the temperature difference,
who asked for it, and the time the chain was held muted (R73). -/
def noteForced (c : Nat) (o : RfOp) (moved : Int) (s : State) : State :=
  if o.forced || o.hostNow then
    submitLog 0x0301 (sourceIndex 0 c) [c, unsignedOf 32 moved, flag (!o.forced), (now s - o.startedAt) * 100 / 196608] s
  else s

/-- A calibration ends `us` µs after it started: its results, its records and its tone (R73, R74, R81). -/
def calibrationComplete (c us : Nat) (vcoOk : Bool) (rejection leak : Int) (front : FrontCal) (s : State) : State :=
  let x := s.rf.chains.get c
  match x.op with
  | none => s
  | some o =>
    if o.kind = .retune then s
    else
      let s1 := advanceTo (o.startedAt + tcOfUs (min us (opTime o.kind))) s
      let moved : Int := match x.tCal with
        | some t => chainTemp s1 c - t
        | none => 0
      if vcoOk = false then
        let s2 := (noteForced c o moved s1).modRf (fun r => { r with
          chains := r.chains.set c { x with fe := .locking, op := some { o with kind := .retune, calRuns := [] } }
          tones := if o.kind = .full then r.tones.set (toneOf c) false else r.tones })
        raiseMoment { cls := 0x11, unit := chainUnit c } (o.calRuns.foldl (fun acc t => complete t .eIntegrity 0 acc) s2)
      else
        let full := o.kind == .full
        let good := decide (7500 ≤ rejection)
        let s2 := s1.modRf (fun r => { r with
          forcedTotal := if o.forced then r.forcedTotal + 1 else r.forcedTotal
          chains := r.chains.set c { x with
            cals := x.cals + 1, forcedCals := if o.forced then x.forcedCals + 1 else x.forcedCals
            lastForced := o.forced, lastCal := now s1
            imageRej := if full then rejection else x.imageRej
            front := if full && good then front else x.front
            leak := if full && decide (8 ≤ c) then leak else x.leak
            degraded := if full then !good else x.degraded
            tCal := if full && good then some (chainTemp s1 c) else x.tCal
            due := if full && !good then some { kind := .full, since := now s1 } else x.due } })
        let s3 := if full then cancellersReacquire c s2 else s2
        let s4 := if full then (if good then endFault 0x12 (chainUnit c) s3
          else raiseLevel { cls := 0x12, unit := chainUnit c } s3) else s3
        lockDeclared c ((now s1 - o.startedAt) * 100 / 196608) (noteForced c o moved s4)

def execCalibrationComplete (c us : Nat) (vcoOk : Bool) (rejection : Int) (result : FrontResult) (s : State) :
    Host.Outcome State Fault Refusal := .next (calibrationComplete c us vcoOk rejection result.leak result.front s)

/-- A grant begins (R72). -/
def grantStart (handle : Nat) (s : State) : State :=
  match s.rf.grants.find? (fun g => g.handle == handle) with
  | none => s
  | some g =>
    if g.endAt.isSome then s
    else
      let s1 := advanceToAir g.start s
      s1.modRf (fun r => { r with
        grants := r.grants.map (fun x => if x.handle = handle then { x with endAt := some (now s1 + tcOfUs g.duration) } else x) })

def execGrantStart (handle : Nat) (s : State) : Host.Outcome State Fault Refusal := .next (grantStart handle s)

/-- Grants that have not ended. -/
def liveGrants (s : State) : List Grant :=
  s.rf.grants.filter (fun g => match g.endAt with
    | some t => decide (now s < t)
    | none => true)

/-- The temperature-triggered cause of R71, evaluated once per housekeeping round. -/
def reviewTemperatures (s : State) : State :=
  (List.range 16).foldl (fun acc c =>
    let x := acc.rf.chains.get c
    let moved : Bool := match tempMoved acc c with
      | some d => decide (acc.rf.tempDelta ≤ d)
      | none => false
    if x.fe ≠ .off ∧ x.op.isNone ∧ acc.rf.autoCal ∧ moved then
      modChain c (fun y => { y with due := some (fullDue (now acc) y.due) }) acc
    else acc) s

/-- A converter self-check finds a stuck bit or lost samples (R81). -/
def converterSelfCheckFail (c : Nat) (s : State) : State :=
  raiseMoment { cls := 0x13, unit := chainUnit c }
    ((ibsOfChain s c).foldl (fun acc n => modBand .ingress n (fun b => { b with gapBlocks := b.gapBlocks + 1 }) acc) s)

def execConverterSelfCheckFail (c : Nat) (s : State) : Host.Outcome State Fault Refusal := .next (converterSelfCheckFail c s)

/-- CLIPPED blocks of a chain in one loop tick of 5,760 blocks: RF_OVERDRIVE above OVERDRIVE_LIMIT (R81). -/
def clipTick (s : State) (x : Nat × Nat) : State :=
  let s1 := if x.1 < 8 then modChain x.1 (fun y => { y with clipped := y.clipped + x.2 }) s
    else s.modCe (fun e => { e with compClip := e.compClip.mod (x.1 - 8) (· + x.2) })
  if s.rf.overdrive * 5760 < x.2 * 10000 then raiseMoment { cls := 0x14, unit := chainUnit x.1, detail4 := x.2 } s1 else s1

/-! ## Commands -/

/-- Window of an RF_CHAIN_CONFIG payload. -/
def windowOf (p : List Byte) : RfWindow :=
  let low := u64 p 8
  let high := u64 p 16
  { low, high, lo := if u8 p 2 = 0 then autoLo low high else u64 p 24 }

/-- RF_CHAIN_CONFIG (0x0301). -/
def specRfChainConfig : CommandSpec where
  opcode := 0x0301
  role := some .operate
  power := activeOrQuiet
  length := fixedLength 32
  checks := fun s q =>
    let p := q.payload
    let c := u8 p 0
    let on := u8 p 1 == 1
    let w := windowOf p
    let x := s.rf.chains.get c
    [field 0 (within 0 15 c), field 1 (within 0 1 (u8 p 1)), field 2 (!on || within 0 1 (u8 p 2)),
     field 3 (!on || (if c < 8 then within 0 24 (u8 p 3) || chainGainBound s c else u8 p 3 == 0)), field 4 (!on || zeros p 4 4),
     field 8 (!on || (within 380000000 7125000000 w.low)),
     field 16 (!on || (decide (w.low < w.high) && decide (w.high ≤ 7125000000) && decide (w.high - w.low ≤ 1200000000))),
     field 24 (!on || ((u8 p 2 == 1 || u64 p 24 == 0) && windowValid w)),
     need .eBusy (!on || x.held.isNone),
     need .eConflict (if on then windowFits s c w else (chainBands s c).isEmpty)]
  effect := fun s q =>
    let p := q.payload
    let c := u8 p 0
    let t := ticketOf q
    let x := s.rf.chains.get c
    if u8 p 1 = 0 then
      let s1 := completeOpt (x.op.bind (·.ticket) <|> x.opTicket) .eConflict 0 (cancelHeld c (finishOff c s))
      let rsp : Reply := { status := .accepted, payload := le 8 x.window.lo ++ le 8 0 }
      if x.fe = .off ∨ x.offAt.isSome then (complete t .ok 0 s1, rsp)
      else (refreshGains (modChain c (fun y => { y with
        offAt := some (now s + tcOfUs 10, t), leaving := true, leaveTo := .off, activateAt := none, deadline_ := none
        opTicket := none, nextOp := none, op := y.op.map (fun o => { o with ticket := none }) }) s1), rsp)
    else
      let s := finishOff c s
      let x := s.rf.chains.get c
      let w := windowOf p
      let path : Nat :=
        if x.fe = .off then (if retainedValid s c then 1 else 3)
        else if w.lo = lockingLo x then 0 else opPath (retuneKind s c (lockingLo x) w.lo)
      let eta := [0, 40, 120, 350].getD path 0
      let rsp : Reply := { status := .accepted, payload := le 8 w.lo ++ le 1 path ++ le 3 0 ++ le 4 eta }
      if x.fe = .off then (startFromOff c w (u8 p 3) (some t) s, rsp)
      else if chainBusy x then (modChain c (fun y => { y with held := some (.config t w (u8 p 3)) }) s, rsp)
      else (startConfig c w (u8 p 3) t s, rsp)

def execRfChainConfig (r : HostRequest) (s : State) : Host.Outcome State Fault Refusal :=
  .next (submit specRfChainConfig r s)

/-- A transmit chain leaves ACTIVE for READY after its mute ramps (R67). -/
def disableTx (c : Nat) (s : State) : State :=
  let x := s.rf.chains.get c
  let s1 := cancelHeld c s
  if x.fe = .active then
    let s2 := refreshGains (modChain c (fun y => { y with leaving := true, leaveTo := .ready, activateAt := none }) s1)
    if chainSilent s2 c then modChain c (fun y => { y with fe := .ready, ret := .ready, leaving := false }) s2 else s2
  else if x.fe = .off ∨ x.offAt.isSome then s1
  else modChain c (fun y => { y with ret := .ready, activateAt := none }) s1

/-- RF_TX_ENABLE (0x0302). A standby hub holds its transmit chains READY: an enable takes effect at takeover (R472, R476; log
entry 31). -/
def specRfTxEnable : CommandSpec where
  opcode := 0x0302
  role := some .operate
  power := activeOrQuiet
  length := fixedLength 4
  states := fun s q =>
    let c := u8 q.payload 0
    s.sys.role != .unset &&
      (!(u8 q.payload 1 == 1) || !within 8 15 c ||
        ((s.rf.chains.get c).fe != .off && (s.rf.chains.get c).offAt.isNone && !penned s (chainUnit c)))
  checks := fun s q =>
    let p := q.payload
    [field 0 (within 8 15 (u8 p 0)), field 1 (within 0 1 (u8 p 1)), field 2 (zeros p 2 2),
     need .eBusy (u8 p 1 == 0 || (s.rf.chains.get (u8 p 0)).held.isNone)]
  effect := fun s q =>
    let c := u8 q.payload 0
    let t := ticketOf q
    let x := s.rf.chains.get c
    if u8 q.payload 1 = 0 then (disableTx c (s.modPair (fun p => { p with enableTx := without p.enableTx c })), {})
    else if standbyHub s then (s.modPair (fun p => { p with enableTx := without p.enableTx c ++ [c] }), {})
    else if chainBusy x then
      (modChain c (fun y => { y with held := some (.txEnable t (now s + tcOfMs 2)) }) s, { status := .accepted })
    else
      (modChain c (fun y => { y with
        enabling := y.enabling ++ [(t, now s + tcOfMs 2)], activateAt := some (nextSlot s), leaving := false }) s,
        { status := .accepted })

def execRfTxEnable (r : HostRequest) (s : State) : Host.Outcome State Fault Refusal := .next (submit specRfTxEnable r s)

/-- RF_RX_ATTEN (0x0303). -/
def specRfRxAtten : CommandSpec where
  opcode := 0x0303
  role := some .operate
  power := activeOrQuiet
  length := fixedLength 4
  states := fun s q => !within 0 7 (u8 q.payload 0) || (s.rf.chains.get (u8 q.payload 0)).fe != .off
  checks := fun s q =>
    let p := q.payload
    [field 0 (within 0 7 (u8 p 0)), field 1 (within 0 24 (u8 p 1)), field 2 (zeros p 2 2),
     need .eBusy ((s.rf.chains.get (u8 p 0)).held.isNone), need .eConflict (!chainGainBound s (u8 p 0))]
  effect := fun s q =>
    let x := requestAtten (u8 q.payload 0) (u8 q.payload 1) s
    (x.1, { payload := le 8 x.2 })

def execRfRxAtten (r : HostRequest) (s : State) : Host.Outcome State Fault Refusal := .next (submit specRfRxAtten r s)

/-- RF_CAL_RUN (0x0304). SYN.BELL counts as a selected chain: selected while BELL.TRX is OFF it completes E_STATE (log entry 125). -/
def specRfCalRun : CommandSpec where
  opcode := 0x0304
  role := some .operate
  power := activeOrQuiet
  length := fixedLength 8
  states := fun s q =>
    (List.range 16).all (fun c => !(u32 q.payload 0).testBit c || (s.rf.chains.get c).fe != .off) &&
      (!(u32 q.payload 0).testBit 16 || s.bell.rx != .off)
  checks := fun s q =>
    let p := q.payload
    let m := u32 p 0
    [field 0 (decide (0 < m) && decide (m < 0x2_0000)), field 4 (within 0 1 (u8 p 4)), field 5 (within 0 1 (u8 p 5)),
     field 6 (zeros p 6 2),
     need .eBusy ((List.range 16).all (fun c => !m.testBit c ||
       (let x := s.rf.chains.get c
        x.held.isNone && x.fe != .calibrating && ((x.due.map (·.runs.isEmpty)).getD true))) && (!m.testBit 16 || s.rf.bellRuns.isEmpty))]
  effect := fun s q =>
    let p := q.payload
    let m := u32 p 0
    let t := ticketOf q
    let kind : RfOpKind := if u8 p 4 = 0 then .vcoBand else .full
    let s1 := s.modRf (fun r => { r with
      chains := r.chains.modAll ((List.range 16).filter (fun c => m.testBit c)) (fun _ x =>
        { x with due := some { kind := if ((x.due.map (·.kind)) == some .full) then .full else kind
                               since := (x.due.map (·.since)).getD s.air.mono
                               hostNow := u8 p 5 == 1, runs := [t] } })
      bellDue := r.bellDue || m.testBit 16
      bellRuns := if m.testBit 16 then [t] else r.bellRuns })
    (s1, { status := .accepted })

def execRfCalRun (r : HostRequest) (s : State) : Host.Outcome State Fault Refusal := .next (submit specRfCalRun r s)

/-- RF_CAL_GRANT (0x0305). -/
def specRfCalGrant : CommandSpec where
  opcode := 0x0305
  role := some .operate
  power := activeOrQuiet
  length := fixedLength 20
  checks := fun s q =>
    let p := q.payload
    let m := u32 p 0
    let i : AirInstant := ⟨u32 p 4, u32 p 8⟩
    let a := airAhead s.air i
    let len := tcOfUs (u32 p 12)
    [field 0 (decide (0 < m) && decide (m < 0x1_0000)), field 4 (decide (122880 ≤ a)),
     field 8 (decide (u32 p 8 < tcPerFrame)), field 12 (within 120 10000 (u32 p 12)), field 16 (within 0 1 (u8 p 16)),
     field 17 (zeros p 17 3),
     need .eBusy ((List.range 16).all (fun c => !m.testBit c || (s.rf.chains.get c).held.isNone)),
     need .eResource (decide ((liveGrants s).length < 4)),
     need .eConflict ((liveGrants s).all (fun g =>
       let b := airAhead s.air g.start
       (g.mask &&& BitVec.ofNat 16 m) == 0 || decide (a + len ≤ b) ||
         decide ((match g.endAt with
           | some t => t - now s
           | none => b + tcOfUs g.duration) ≤ a)))]
  effect := fun s q =>
    let p := q.payload
    let h := s.air.handles + 1
    ((s.modAir (fun a => { a with handles := h })).modRf (fun r => { r with
      grants := liveGrants s ++ [{ handle := h, mask := BitVec.ofNat 16 (u32 p 0), start := ⟨u32 p 4, u32 p 8⟩
                                   duration := u32 p 12, refresh := u8 p 16 == 1, session := q.session }] }),
     { payload := le 4 h })

def execRfCalGrant (r : HostRequest) (s : State) : Host.Outcome State Fault Refusal := .next (submit specRfCalGrant r s)

/-- RF_POLICY (0x0306). -/
def specRfPolicy : CommandSpec where
  opcode := 0x0306
  role := some .admin
  power := activeOrQuiet
  length := fixedLength 8
  checks := fun _ q =>
    let p := q.payload
    [field 0 (within 200 3900 (u16 p 0)), field 2 (within 0 1 (u8 p 2)), field 3 (zeros p 3 1),
     field 4 (within 1 10000 (u16 p 4)), field 6 (zeros p 6 2)]
  effect := fun s q =>
    let p := q.payload
    (s.modRf (fun r => { r with tempDelta := u16 p 0, autoCal := u8 p 2 == 1, overdrive := u16 p 4 }), {})

def execRfPolicy (r : HostRequest) (s : State) : Host.Outcome State Fault Refusal := .next (submit specRfPolicy r s)

/-- OBS input of TX.A`t` in an RF_OBS_MAP payload. -/
def obsOf (p : List Byte) (t : Nat) : Option Nat := if u8 p t = 0xFF then none else some (u8 p t)

/-- RF_OBS_MAP (0x0307). -/
def specRfObsMap : CommandSpec where
  opcode := 0x0307
  role := some .operate
  power := activeOrQuiet
  length := fixedLength 12
  checks := fun s q =>
    let p := q.payload
    let on (t : Nat) : Bool := (s.rf.chains.get (t + 8)).fe != .off
    let clash (a b : Nat) : Bool :=
      let x := (s.rf.chains.get (a + 8)).window
      let y := (s.rf.chains.get (b + 8)).window
      obsOf p a == obsOf p b && (obsOf p a).isSome && on a && on b && decide (x.low < y.high) && decide (y.low < x.high)
    (List.range 8).map (fun t => field 0 (u8 p t == 0 || u8 p t == 1 || u8 p t == 0xFF)) ++
    [field 8 (within 1 64 (u16 p 8)), field 10 (within 0 15 (u8 p 10)), field 11 (within 0 15 (u8 p 11)),
     need .eResource (loadAdmits s (s.modRf (fun r => { r with obsDwell := u16 p 8 }))),
     need .eConflict ([0, 1].all (fun k => decide (((List.range 8).filter (fun t => obsOf p t == some k)).length ≤ 4)) &&
       (List.range 8).all (fun a => (List.range 8).all (fun b => a == b || !clash a b)))]
  effect := fun s q =>
    let p := q.payload
    (s.modRf (fun r => { r with
      obsMap := (List.range 8).foldl (fun b t => b.set t (obsOf p t)) r.obsMap
      obsDwell := u16 p 8
      obs := (r.obs.mod 0 (fun o => { o with atten := u8 p 10 })).mod 1 (fun o => { o with atten := u8 p 11 }) }), {})

def execRfObsMap (r : HostRequest) (s : State) : Host.Outcome State Fault Refusal := .next (submit specRfObsMap r s)

end Sys2Proof.Machine
end

