-- ==== Sys2Proof/Machine/Trigger.lean ====
section
/-! DEFINITION. The triggers of captures (R324, R325): one operation that every trigger source calls. -/

namespace Sys2Proof.Machine

open Sys2Proof

/-- Trigger sources, bits of the table *Trigger sources*. -/
abbrev trigHost : Nat := 0
abbrev trigAt : Nat := 1
abbrev trigFault : Nat := 2
abbrev trigOsc : Nat := 3
abbrev trigLevel : Nat := 4
abbrev trigSite : Nat := 5

/-- The air-time instant that stood at the monotonic time `t`, counted back from now. -/
def airAtPast (s : State) (t : Nat) : AirInstant :=
  airNow (s.air.moveCount (-(((now s - t) * 65536 : Nat) : Int)))

def modCap (k : Nat) (f : CapSlot → CapSlot) (s : State) : State :=
  s.modMem (fun m => { m with slots := m.slots.mod k f })

/-- µs between two monotonic times, rounded down. -/
def usBetween (a b : Nat) : Nat := (b - a) * 100 / 196608

/-- The trigger instant `t` is noted in a capture: what it held before it, and when it stops. When the stop instant has
passed already, recording stops now and later samples stand in place of the oldest (R325). -/
def noteTrigger (bit t : Nat) (s : State) (c : CapSlot) : CapSlot :=
  let i := c.info
  let stop := t + tcOfUs (i.lengthUs - i.preUs)
  let late := decide (stop < now s)
  let held := if late then i.lengthUs - usBetween t (now s) else i.preUs
  let pre := min held (usBetween c.armedAt t)
  { c with
    state := .triggered, stopAt := max stop (now s)
    info := { i with
      trigSources := i.trigSources ||| (1 <<< bit), trigMono := t, trigAt := airAtPast s t, trigWall := wallAt s t
      epoch := s.log.epoch, preHeld := pre, preShort := decide (pre < i.preUs) } }

/-- A trigger condition of one slot is met. The first trigger counts; those of the same management cycle are all recorded,
and the earliest of their instants is used. -/
def fireSlot (k bit t : Nat) (s : State) : State :=
  let c := s.mem.slots.get k
  if c.triggers.testBit bit = false then s
  else if c.state = .armed then modCap k (fun x => { noteTrigger bit t s x with cycle := cycleNow s }) s
  else if c.state = .triggered ∧ c.cycle = cycleNow s then
    if t < c.info.trigMono then modCap k (noteTrigger bit t s) s
    else modCap k (fun x => { x with info := { x.info with trigSources := x.info.trigSources ||| (1 <<< bit) } }) s
  else s

/-- A trigger condition is met for every slot that `sel` selects. -/
def captureTrigger (bit t : Nat) (sel : CapSlot → Bool) (s : State) : State :=
  (List.range 16).foldl (fun acc k => if sel (acc.mem.slots.get k) then fireSlot k bit t acc else acc) s

/-- OSC_MUTE of band path `n` (R143): every slot whose mask names it. -/
def oscTrigger (n : Nat) (s : State) : State := captureTrigger trigOsc (now s) (fun c => c.oscMask.testBit n) s

/-- A slot's LEVEL condition on one window. -/
def levelHolds (c : CapSlot) (mean peak : Option Int) : Option Bool :=
  if c.levelMode = 0 then mean.map (fun m => decide (c.threshold < m))
  else if c.levelMode = 1 then mean.map (fun m => decide (m < c.threshold))
  else peak.map (fun p => decide (c.threshold < p))

/-- A detector window of a band path has ended: slots whose LEVEL condition it crosses trigger at its first block. -/
def levelTrigger (d : Dir) (n : Nat) (mean peak : Option Int) (start : Nat) (s : State) : State :=
  (List.range 16).foldl (fun acc k =>
    let c := acc.mem.slots.get k
    if c.state = .armed ∧ c.levelBp = n ∧ c.egress = (d == .egress) then
      match levelHolds c mean peak with
      | some true =>
        let s1 := modCap k (fun x => { x with levelWas := true }) acc
        if c.levelWas then s1 else fireSlot k trigLevel start s1
      | some false => modCap k (fun x => { x with levelWas := false }) acc
      | none => acc
    else acc) s

end Sys2Proof.Machine
end

