-- ==== Sys2Proof/Machine/ChannelEngine.lean ====
section
/-! DEFINITION. Band paths and the channel engine (R82–R117): creating, changing and releasing band paths, alignment,
detectors, predistortion, and the events of settles and ramps. -/

namespace Sys2Proof.Machine

open Sys2Proof

/-! ## Rates and delays -/

/-- 100 times the passband fraction of a preset (R88). -/
def passband (preset : Nat) : Nat := [42, 40, 36, 32].getD preset 32

/-- The carrier fits at ladder position `d` (R89). -/
def fitsAt (preset bw d : Nat) : Bool := decide (bw * 100 ≤ 2 * passband preset * (983040000 / 2 ^ d))

/-- Half-band stages of the lowest rate that holds a carrier (R89). -/
def stagesFor (preset bw : Nat) : Option Nat := [9, 8, 7, 6, 5, 4, 3, 2, 1].find? (fitsAt preset bw)

/-- Sum of the output rates of one direction, kS/s (R92). -/
def rateSum (l : List (Nat × BandPath)) : Nat := (l.map (fun p => rateKsps (p.2.next.getD p.2.params).stages)).sum

/-- The band paths of a direction. -/
def bandList (s : State) (d : Dir) : List (Nat × BandPath) :=
  match d with
  | .ingress => ibs s
  | .egress => ebs s

/-! ## Removing an egress band path -/

/-- An egress band path is gone (BP_RELEASE). -/
def removeEb (e : Nat) (s : State) : State :=
  let s1 := (removeLoop e s).modCe (fun c => { c with eb := c.eb.set e none })
  let s2 := s1.modNp (fun n => { n with
    gain := n.gain.set e {}, noise := n.noise.set e {}, backoffs := n.backoffs.filter (fun b => b.unit != ebUnit e) })
  shareBackoff (s2.modFault (fun f => { f with paddock := f.paddock.filter (· != ebUnit e) }))

/-- What waited for the mute ramps of a chain begins once all of them have ended (R67, BP_RELEASE). -/
def afterRamp (e : Nat) (s : State) : State :=
  match s.ce.eb.get e with
  | none => s
  | some b =>
    let c := b.params.chain
    let s1 := if b.releasing ∧ (s.np.gain.get e).ramp.state = .silent then removeEb e s else s
    let x := s1.rf.chains.get c
    if chainSilent s1 c = false then s1
    else if x.leaving && x.offAt.isNone then modChain c (fun y => { y with fe := y.leaveTo, ret := y.leaveTo, leaving := false }) s1
    else match x.nextOp with
      | some o => startOp c o s1
      | none => s1

/-- Ends of what runs in a gain stack. -/
def rampEnds (g : GainStack) : List Nat :=
  (match g.ramp.state with
   | .falling | .rising => [g.ramp.endAt]
   | _ => []) ++
  (match g.excl.state with
   | .falling | .rising => [g.excl.endAt]
   | _ => []) ++
  (match g.slewAt with
   | some t => [t + ((g.target - g.applied).natAbs * 196608 + 999) / 1000]
   | none => []) ++
  (match g.soft with
   | some x => [x.2.2.1 + x.2.2.2]
   | none => [])

/-- A power-state move is complete: POWER_STATE notice and record, and its completion (R453, R467). -/
def finishMove (s : State) : State :=
  match s.sys.move with
  | some m =>
    completeOpt m.ticket .ok 0 (submitLog 0x1002 (sourceIndex 10 0) [m.target.code]
      (postNotice 0x1001 m.target.code 0 (s.modSys (fun y => { y with move := none }))))
  | none => s

/-- Every egress band path is silent. -/
def allSilent (s : State) : Bool := (ebs s).all (fun p => (settleRamp (now s) (s.np.gain.get p.1).ramp).state == .silent)

/-- Every cassette is PINCHED or ABSENT. -/
def allPinched (s : State) : Bool :=
  (List.range 8).all (fun n => (s.ps.cassettes.get n).pa == .pinched || (s.ps.cassettes.get n).pa == .absent)

/-- A move to QUIET is complete when the ramps have ended, a move to STANDBY when every cassette is PINCHED (R453). -/
def reviewMove (s : State) : State :=
  match s.sys.move with
  | some m =>
    if m.exit = false ∧ m.target = s.sys.power ∧ ((m.target = .quiet ∧ allSilent s) ∨ (m.target = .standby ∧ allPinched s)) then
      finishMove s
    else s
  | none => s

/-- The next ramp or slew of a gain stack reaches its end (R155, R156). -/
def gainRampEnd (e : Nat) (s : State) : State :=
  match rampEnds (s.np.gain.get e) with
  | [] => s
  | t :: rest => reviewMove (afterRamp e (refreshGains (advanceTo (rest.foldl min t) s)))

def execGainRampEnd (eb : Nat) (s : State) : Host.Outcome State Fault Refusal := .next (gainRampEnd eb s)

/-! ## Settle events (R101–R108) -/

/-- The fade-out of a band path ends and the change is applied; when it faded for its chain, the chain's operation starts once
all of its band paths have faded (R101, R103, R105). -/
def fadeOutEnd (d : Dir) (n : Nat) (s : State) : State :=
  match bandPath s d n with
  | none => s
  | some b =>
    if b.phase = .fadeOut then
      let s1 := fadeOutDone d n (advanceTo b.phaseEnd s)
      match d with
      | .egress => s1
      | .ingress =>
        let c := b.params.chain
        (match (s1.rf.chains.get c).nextOp with
         | some o => if chainFaded s1 c then startOp c o s1 else s1
         | none => s1)
    else s

def execFadeOutEnd (d : Dir) (n : Nat) (s : State) : Host.Outcome State Fault Refusal := .next (fadeOutEnd d n s)

/-- The S zeros end (R101, R103). -/
def settleZerosEnd (d : Dir) (n : Nat) (s : State) : State :=
  match bandPath s d n with
  | some b => if b.phase = .zeros then zerosDone d n (advanceTo b.phaseEnd s) else s
  | none => s

def execSettleZerosEnd (d : Dir) (n : Nat) (s : State) : Host.Outcome State Fault Refusal := .next (settleZerosEnd d n s)

/-- The fade-in ends: the settle is over, and a gate's estimate starts again (R107, R163). -/
def fadeInEnd (n : Nat) (s : State) : State :=
  match s.ce.ib.get n with
  | some b => if b.phase = .fadeIn then restartGate n (fadeInDone n (advanceTo b.phaseEnd s)) else s
  | none => s

def execFadeInEnd (n : Nat) (s : State) : Host.Outcome State Fault Refusal := .next (fadeInEnd n s)

/-- A settle has not ended within twice its duration plus 100 µs (R117). -/
def pathSettleTimeout (d : Dir) (n : Nat) (s : State) : State :=
  match bandPath s d n with
  | some b =>
    if b.phase ≠ .idle ∧ b.settleBy ≠ 0 then
      raiseMoment { cls := 0x20, unit := bpUnit d n } (advanceTo b.settleBy s)
    else s
  | none => s

def execPathSettleTimeout (d : Dir) (n : Nat) (s : State) : Host.Outcome State Fault Refusal := .next (pathSettleTimeout d n s)

/-- The own action of PATH_SETTLE_TIMEOUT: the band path is reinitialised and settles once more (R117). -/
def reinitialise (d : Dir) (n : Nat) (s : State) : State :=
  match bandPath s d n with
  | some b => refreshGains (modBand d n (fun x => { x with
      settleBy := settleDeadline (now s) (settleTail d b.params), settleTotal := x.settleTotal + 1, lastChange := now s })
      (applyChange d n (b.next.getD b.params) s))
  | none => s

/-! ## Alignment (R97–R99) -/

/-- Selected band paths that are not aligned. -/
def misalignedOf (s : State) (p : AlignPending) : List (Dir × Nat) :=
  (((ibs s).filter (fun x => p.inMask.testBit x.1 && x.2.misaligned)).map (fun x => (Dir.ingress, x.1))) ++
  (((ebs s).filter (fun x => p.egMask.testBit x.1 && x.2.misaligned)).map (fun x => (Dir.egress, x.1)))

/-- The pending alignment that comes first. -/
def nextAlign (s : State) : Option AlignPending :=
  match s.ce.align, s.ce.alignPin with
  | some a, some b => if frameDistance s b.frame < frameDistance s a.frame then some b else some a
  | some a, none => some a
  | none, b => b

/-- The selected band paths realign at the named frame, with all their fades or ramps ending there (R98). -/
def alignmentApply (s : State) : State :=
  match nextAlign s with
  | none => s
  | some p =>
    let i : AirInstant := ⟨p.frame, 0⟩
    let l := misalignedOf s p
    let s1 := fadeTowards (now s + monoOfAir s.air i) l s
    let s4 := l.foldl (fun acc x => realignNow x.1 x.2 acc) (advanceToAir i s1)
    s4.modCe (fun c => { c with
      align := if p.byPin then c.align else none
      alignPin := if p.byPin then none else c.alignPin
      alignCount := c.alignCount + 1, alignFrame := p.frame
      syncEnd := if c.syncMode = .out then some (now s4 + tcOfUs 1) else c.syncEnd
      syncLevel := if c.syncMode = .out then true else c.syncLevel })

def execAlignmentApply (s : State) : Host.Outcome State Fault Refusal := .next (alignmentApply s)

/-- A rising edge on SYNC_ALIGN, held for two REFCLK periods or not (R99). -/
def syncAlignEdge (held : Bool) (s : State) : State :=
  if s.ce.syncMode = .in_ ∧ held then
    if s.ce.alignPin.isSome then s.modCe (fun c => { c with syncIgnored := c.syncIgnored + 1, syncLevel := true })
    else
      let o := s.air.offset + tcOfMs 2
      let f := framesAhead s ((o + tcPerFrame - 1) / tcPerFrame)
      s.modCe (fun c => { c with
        syncLevel := true, alignPin := some { frame := f, inMask := c.syncIn, egMask := c.syncEg, byPin := true } })
  else s

def execSyncAlignEdge (held : Bool) (s : State) : Host.Outcome State Fault Refusal := .next (syncAlignEdge held s)

/-- The OUT pulse ends (R99). -/
def syncAlignPulseEnd (s : State) : State :=
  match s.ce.syncEnd with
  | some t => (advanceTo t s).modCe (fun c => { c with syncEnd := none, syncLevel := false })
  | none => s

def execSyncAlignPulseEnd (s : State) : Host.Outcome State Fault Refusal := .next (syncAlignPulseEnd s)

/-- The phase check finds an unexplained slip (R117). -/
def alignLossDetect (d : Dir) (n : Nat) (s : State) : State :=
  if (bandPath s d n).isSome then
    raiseMoment { cls := 0x23, unit := bpUnit d n } (modBand d n (fun b => { b with misaligned := true }) s)
  else s

def execAlignLossDetect (d : Dir) (n : Nat) (s : State) : Host.Outcome State Fault Refusal := .next (alignLossDetect d n s)

/-- A band path is realigned at a step: it uses a TDD pattern or is marked align_strict (R97). -/
def followsStep (b : BandPath) : Bool := b.params.tdd.isSome || b.params.alignStrict

/-- The band paths that are realigned at a step (R97). -/
def stepPaths (s : State) : List (Dir × Nat) :=
  ((ibs s).filter (fun p => followsStep p.2)).map (fun p => (Dir.ingress, p.1)) ++
    ((ebs s).filter (fun p => followsStep p.2)).map (fun p => (Dir.egress, p.1))

/-- A band path keeps its old phases over a step of `e`, 2^−16 Tc: its samples now stand off the grid of 16P by the old distance and
the step, a sample after the grid counting positive (R95, R97; log entry 126). -/
def leaveGrid (e : Int) (b : BandPath) : BandPath :=
  let c := centred ((16 * samplePeriod b.params.stages * 65536 : Nat) : Int) (b.alignErr * 1024 + e)
  { b with misaligned := c != 0, alignErr := c / 1024, trackRef := b.trackRef + e }

/-- A step of air time leaves the integer phases where they were: band paths on a TDD pattern and those marked align_strict
have their fades end at the step and settle, every other one becomes MISALIGNED (R97). `e` is the step in 2^−16 Tc. -/
def stepBands (e : Int) (s : State) : State :=
  let keep (d : Dir) (acc : State) (p : Nat × BandPath) : State :=
    if followsStep p.2 then acc else modBand d p.1 (leaveGrid e) acc
  let s1 := (ebs s).foldl (keep .egress) ((ibs s).foldl (keep .ingress) s)
  refreshGains ((stepPaths s).foldl (fun acc x => realignNow x.1 x.2 acc) s1)

/-! ## Detectors (R109–R111) -/

/-- The next window boundary of a band path: a loop tick whose index in the hyperframe is a multiple of 2^k (R110). -/
def windowBoundary (a : AirState) (b : BandPath) : AirInstant :=
  let p := tcPerTick * 2 ^ b.windowK
  let t := a.frame % 1024 * tcPerFrame + a.offset
  if t % p = 0 ∧ b.windowAt ≠ some (airNow a) then airNow a
  else
    let up := (t / p + 1) * p - t
    let o := a.offset + up
    ⟨(a.frame + o / tcPerFrame) % 4294967296, o % tcPerFrame⟩

/-- A detector window ends: mean power and peak of what it admitted are latched (R109, R110). Mean power above peak is a
DETECTOR_FAULT (R117). -/
def detectorWindowEnd (d : Dir) (n : Nat) (l : List RawBlock) (symbols : List (List Nat)) (s : State) : State :=
  match bandPath s d n with
  | none => s
  | some b0 =>
    let i := windowBoundary s.air b0
    let s0 := advanceToAir i s
    let s1 := if d = .ingress then feed n l s0 else s0
    (match bandPath s1 d n with
     | none => s1
     | some b =>
       let x := b.power d (instantBack i (tcPerTick * 2 ^ b.windowK)) i
       let mean := x.mean
       let peak := if x.count = 0 then none else some (decibel (x.peak * unity / 2 ^ 36))
       let broken : Bool := match mean, peak with
         | some m, some p => decide (p < m)
         | _, _ => false
       let ok := !broken && !b.detInvalid
       let m := if ok then mean else none
       let s2 := modBand d n (fun x => { x with
         windowAt := some i, windowK := x.windowNext.getD x.windowK, windowNext := none
         detMean := m, detPeak := if ok then peak else none, lastMean := m <|> x.lastMean, detSeq := x.detSeq + 1
         goodWindows := if m.isSome then x.goodWindows + 1 else 0
         detInvalid := x.detInvalid || broken, detFault := if broken then x.detSeq + 1 else x.detFault }) s1
       let s2t := levelTrigger d n m (if ok then peak else none) (now s2 - tcPerTick * 2 ^ b.windowK) s2
       let s3 := if broken then raiseLevel { cls := 0x21, unit := bpUnit d n } s2t
         else if b.detFault < b.detSeq then endFault 0x21 (bpUnit d n) s2t else s2t
       match d with
       | .ingress => s3
       | .egress => refreshGains (noiseWindow n symbols s3))

def execDetectorWindowEnd (d : Dir) (n : Nat) (firsts : List Nat) (convs : List (List Cx)) (symbols : List (List Nat)) (s : State) :
    Host.Outcome State Fault Refusal := .next (detectorWindowEnd d n (rawBlocks firsts convs) symbols s)

/-- A detector fails its self-check (R117). The condition ends with the first whole window in which it has not failed
(log entry 132). -/
def detectorSelfCheckFail (d : Dir) (n : Nat) (s : State) : State :=
  if (bandPath s d n).isSome then
    raiseLevel { cls := 0x21, unit := bpUnit d n }
      (modBand d n (fun x => { x with
        detInvalid := true, detFault := x.detSeq, detMean := none, detPeak := none, goodWindows := 0 }) s)
  else s

def execDetectorSelfCheckFail (d : Dir) (n : Nat) (s : State) : Host.Outcome State Fault Refusal :=
  .next (detectorSelfCheckFail d n s)

/-- A block arrives at a flow-fed egress band path, whose flags act on its gain stack, and passes it; it is emitted the path-delay
target after its timestamp (R102, R104, R292, BP_CONFIG). -/
def flowBlockArrival (e ksps : Nat) (blk : Block) (s : State) : State :=
  match s.ce.eb.get e with
  | some b =>
    if b.params.srcFlow then
      egressBlock e (instantAfter blk.at_ s.dv.targetTc) blk (refreshGains (modBand .egress e (fun x => { x with
        srcSettling := blk.settling, srcGapped := blk.gapped, rateMismatch := ksps != rateKsps x.params.stages
        gapBlocks := if blk.gapped then x.gapBlocks + 1 else x.gapBlocks }) s))
    else s
  | none => s

/-- A block of a flow reaches an egress band path: it acts where the path is fed by that flow. -/
def execFlowBlockArrival (eb flow ksps : Nat) (blk : Block) (s : State) : Host.Outcome State Fault Refusal :=
  .next (if (s.ce.eb.get eb).any (fun b => b.params.srcId == flow) then flowBlockArrival eb ksps blk s else s)

/-! ## Digital predistortion (R113–R116) -/

def modDpd (t : Nat) (f : Dpd → Dpd) (s : State) : State := s.modCe (fun c => { c with dpd := c.dpd.mod t f })

def modRep (t : Nat) (f : Rep → Rep) (s : State) : State := s.modCl (fun c => { c with reps := c.reps.mod t f })

/-- A condition of R196 asks a repetitive controller for the table to be cleared. -/
def askRepClear (t : Nat) (s : State) : State := modRep t (fun r => if r.enabled then { r with clear := true } else r) s

/-- HELD after DPD_DIVERGE: the best set since the last band change is restored (R116). -/
def dpdDiverge (t : Nat) (s : State) : State :=
  raiseMoment { cls := 0x22, unit := chainUnit (t + 8) }
    (modDpd t (fun d => { d with
      state := .held, rejectRun := 0, overRun := 0, pending := []
      sets := match d.best with
        | some (_, x) => d.sets.set d.active x
        | none => d.sets }) s)

/-- Time passes to the next slot boundary ahead of what waits for it. -/
def toNextSlot (s : State) : State := advanceToAir (nextSlot s) s

/-- A new set is applied at the next slot boundary (R115). -/
def dpdUpdateApply (t : Nat) (s : State) : State :=
  let d := s.ce.dpd.get t
  match d.pending.findSome? (fun p => match p with
    | .apply x => some x
    | _ => none) with
  | some x =>
    let s1 := toNextSlot s
    modDpd t (fun d => { d with
      pending := d.pending.filter (fun p => match p with
        | .apply _ => false
        | _ => true)
      before := some (d.nmseLast, d.sets.get d.active), sets := d.sets.set d.active x, updates := d.updates + 1
      lastUpdate := now s1, setTemp := d.setTemp.set d.active (chainTemp s1 (t + 8)) }) s1
  | none => s

def execDpdUpdateApply (t : Nat) (s : State) : Host.Outcome State Fault Refusal := .next (dpdUpdateApply t s)

/-- An update that made the NMSE more than 1 dB worse is reverted at the next slot boundary (R116). -/
def dpdUpdateRevert (t : Nat) (s : State) : State :=
  let d := s.ce.dpd.get t
  if d.pending.contains .revert then
    let s1 := toNextSlot s
    let s2 := modDpd t (fun d => { d with
      pending := d.pending.filter (· != .revert)
      sets := match d.before with
        | some (_, x) => d.sets.set d.active x
        | none => d.sets
      before := none, rejects := d.rejects + 1, rejectRun := d.rejectRun + 1 }) s1
    if 3 ≤ (s2.ce.dpd.get t).rejectRun then dpdDiverge t s2 else s2
  else s

def execDpdUpdateRevert (t : Nat) (s : State) : Host.Outcome State Fault Refusal := .next (dpdUpdateRevert t s)

/-- The band of a waiting set switch. -/
def switchBand (l : List DpdPending) : Option Nat :=
  l.findSome? (fun p => match p with
    | .switch b => some b
    | _ => none)

/-- The coefficient set switches after a temperature band change (R114). -/
def dpdSetSwitch (t : Nat) (s : State) : State :=
  match switchBand (s.ce.dpd.get t).pending with
  | some b =>
    modDpd t (fun d => { d with
      pending := d.pending.filter (fun p => (switchBand [p]).isNone), active := b, best := none, before := none }) (toNextSlot s)
  | none => s

def execDpdSetSwitch (t : Nat) (s : State) : Host.Outcome State Fault Refusal := .next (dpdSetSwitch t s)

/-! ## The transmit direction (R61, R112, R113) -/

/-- Converter samples of one loop tick. -/
abbrev tickConv : Nat := tcPerTick * 3 / 2

/-- What an egress band path adds to the composite in a loop tick: its samples since the last tick brought to fCONV and turned to
its IF. -/
def egressTick (s : State) (b : BandPath) : List Cx :=
  let n := b.fresh * samplePeriod b.params.stages * 3 / 2
  let x := ((b.recent.take (b.fresh + 256)).map (·.post)).reverse
  let y := upConvert b.params (subPhase s.air b) (fun k => ncoPhaseAt b (convIndex (now s) - n + k)) n x
  let z := List.replicate (tickConv - y.length) (0, 0) ++ y
  z.drop (z.length - tickConv)

/-- The set that a DPD uses: the identity while it is OFF or its set has never been adapted (R113, R114, R116). -/
def Dpd.coefficients (d : Dpd) : List Cx :=
  let set := d.sets.get d.active
  if d.state = .off ∨ set = [] then dpdIdentity (dpdTerms d.orders d.memory d.cross) else set

/-- DPD output to the DAC: corrected by the digital front, rounded to 14 bits (R61, R91). The correction of a transmit chain has
the form of that of a receive chain (log entry 128). -/
def dacSample (f : FrontCal) (l : List Cx) : Cx :=
  let i := (l.getD 0 (0, 0)).1
  let skew : Int := if f.skew = [] then (l.getD 0 (0, 0)).2 * 131072 else ((f.skew.zip l).map (fun p => p.1 * p.2.2)).sum
  let y : Cx := (i, roundEven (roundEven (f.gain * skew) (2 ^ 17) + f.phase * i) (2 ^ 17))
  (cLimit 8191 (cRound 4 (cSub y f.dc))).1

/-- The transmit chain of TX.A`t` in a loop tick: its egress band paths summed, the sum saturated to ±1.0 and its saturated blocks
counted, predistortion, and the DAC (R81, R112, R113). Without samples it stays silent. -/
def transmitTick (s : State) (t : Nat) : State :=
  let l := (ebs s).filter (fun p => p.2.params.chain == t + 8 && p.2.fresh != 0)
  if l.isEmpty then
    tapRaw (t + 8) (convIndex (now s) - tickConv) (List.replicate tickConv (0, 0))
      (s.modCe (fun c => { c with dac := c.dac.set t [], dpdIn := c.dpdIn.set t [] }))
  else
    let parts := l.map (fun p => egressTick s p.2)
    let sum := (List.range tickConv).map (fun k => cLimit 262143 (cSum (parts.map (fun x => x.getD k (0, 0)))))
    let clips := ((List.range (tickConv / 16)).filter (fun k => ((sum.drop (16 * k)).take 16).any (·.2))).length
    let x := sum.map (·.1)
    let before := s.ce.dpdIn.get t
    let at_ (n : Int) : Cx := if n < 0 then before.getD (n + before.length).toNat (0, 0) else x.getD n.toNat (0, 0)
    let d := s.ce.dpd.get t
    let y := (List.range tickConv).map (fun n =>
      dpdSample (dpdTerms d.orders d.memory d.cross) d.coefficients at_ ((n : Nat) : Int))
    let z := (List.range tickConv).map (fun n => dacSample (s.rf.chains.get (t + 8)).front (((y.take (n + 1)).drop (n - 23)).reverse))
    let s1 := (s.modCe (fun c => { c with dac := c.dac.set t z, dpdIn := c.dpdIn.set t x })).modRf (fun r => { r with
      obs := r.obs.modAll [0, 1] (fun _ o =>
        if o.observing ∧ o.chain = t then { o with xs := (convIndex (now s) - tickConv, x) :: o.xs } else o) })
    let s2 := l.foldl (fun acc p => modBand .egress p.1 (fun b => { b with fresh := 0 }) acc)
      (tapRaw (t + 8) (convIndex (now s) - tickConv) z s1)
    if clips = 0 then s2 else clipTick s2 (t + 8, clips)

/-- Rate difference between air time and the converter clock, 0.01 ppb (R96). -/
def rateDifference (a : AirState) : Int := a.freqOff + (if a.slewLeft = 0 then 0 else a.slewLeft.sign * (a.config.slewRate * 100 : Nat))

/-- Every band path that a rate difference beyond ±200 ppm takes off its grid raises ALIGN_LOSS (R96, R117). -/
def trackingLimit (s : State) : State :=
  if (rateDifference s.air).natAbs ≤ 20000000 then s
  else
    let lost (p : Nat × BandPath) : Bool := !p.2.misaligned
    (((ibs s).filter lost).map (fun p => (Dir.ingress, p.1)) ++ ((ebs s).filter lost).map (fun p => (Dir.egress, p.1))).foldl
      (fun acc x => alignLossDetect x.1 x.2 acc) s

/-- The actions of DPD_CONTROL that wait for a slot boundary (actions 2 and 3). -/
def dpdSlot (s : State) : State :=
  let reset := (List.range 8).filter (fun t => (s.ce.dpd.get t).pending.contains .identity)
  (reset.foldl (fun acc t => askRepClear t acc) s).modCe (fun c => { c with dpd := { c.dpd with cells := c.dpd.cells.map (fun p =>
    let d := p.2
    let s0 := if d.pending.contains .identity then d.sets.set d.active [] else d.sets
    let s1 := if d.pending.contains .copyAll then (List.range 6).foldl (fun b k => b.set k (s0.get d.active)) s0 else s0
    let w := if d.pending.contains .copyAll then Bank.fill (d.setTemp.get d.active) else d.setTemp
    (p.1, { d with sets := s1, setTemp := w, pending := d.pending.filter (fun x => x != .identity && x != .copyAll) })) } })

/-! ## Commands -/

/-- The parameters in a BP_CONFIG payload at ladder position `d`. -/
def paramsOf (p : List Byte) (d : Nat) : BpParams :=
  { chain := u8 p 2, preset := u8 p 3, bw := u32 p 4, center := u64 p 8, srcFlow := u8 p 16 == 1, srcId := u32 p 20
    tdd := if u8 p 17 = 0xFF then none else some (u8 p 17), mu := u8 p 18, protected_ := (u8 p 19).testBit 0
    alignStrict := (u8 p 19).testBit 1, stages := d }

/-- A change of parameters settles the band path (R100). -/
def settles (x y : BpParams) : Bool :=
  x.chain != y.chain || x.preset != y.preset || x.stages != y.stages || x.center != y.center || x.srcFlow != y.srcFlow ||
    x.srcId != y.srcId

/-- BP_CONFIG (0x0401). -/
def specBpConfig : CommandSpec where
  opcode := 0x0401
  role := some .operate
  power := activeOrQuiet
  length := fixedLength 24
  states := roleSet
  checks := fun s q =>
    let p := q.payload
    let n := u8 p 0
    let dir := dirOf (u8 p 1)
    let c := u8 p 2
    let d := (stagesFor (u8 p 3) (u32 p 4)).getD 1
    let b := paramsOf p d
    let x := s.rf.chains.get c
    let others := (bandList s dir).filter (fun y => y.1 != n)
    [field 0 (within 0 127 n), field 1 (within 0 1 (u8 p 1)),
     field 2 (if u8 p 1 = 0 then within 0 7 c else within 8 15 c), field 3 (within 0 3 (u8 p 3)),
     field 4 (within 1400000 400000000 (u32 p 4) && (stagesFor (u8 p 3) (u32 p 4)).isSome),
     field 8 (x.fe == .off || carrierInside x.window b),
     field 16 (if u8 p 1 = 0 then u8 p 16 == 0 else within 0 1 (u8 p 16)),
     field 17 (within 0 7 (u8 p 17) || u8 p 17 == 0xFF), field 18 (u8 p 17 != 0xFF || within 0 4 (u8 p 18)),
     field 19 (decide (u8 p 19 < 16) && (u8 p 1 == 0 || !(u8 p 19).testBit 2)),
     field 20 (if u8 p 1 = 0 then u32 p 20 == 0 else if u8 p 16 = 0 then within 0 127 (u32 p 20)
       else within 0 262143 (u32 p 20)),
     need .eResource (decide (rateSum others + rateKsps d ≤ 7864320)),
     need .eResource (dir == .egress || decide (tapsUsedWith (some (n, d)) s ≤ tapBudget)),
     need .eResource (decide ((others.filter (fun y => (aimedParams y.2).chain == c)).length < 16)),
     need .eConflict ((match dir with
       | .ingress => !ebExists s n
       | .egress => !ibExists s n) && x.fe != .off),
     need .eConflict (dir == .ingress ||
       others.all (fun y => (aimedParams y.2).chain != c || !overlaps (aimedParams y.2) b)),
     need .eConflict (dir == .ingress || b.srcFlow || (match s.ce.ib.get b.srcId with
       | some y => (aimedParams y).stages == d
       | none => false)),
     need .eConflict (dir == .egress || (match s.ce.ib.get n with
       | some y => (aimedParams y).stages == d || ((fedBy s n).isEmpty && (flowsOf s n).isEmpty)
       | none => true)),
     need .eConflict (match b.tdd with
       | some t => (s.air.patterns.get t).state != .unset
       | none => true)]
  effect := fun s q =>
    let p := q.payload
    let n := u8 p 0
    let dir := dirOf (u8 p 1)
    let d := (stagesFor (u8 p 3) (u32 p 4)).getD 1
    let b := paramsOf p d
    let flags := u8 p 19
    let rsp (change : Nat) : Reply :=
      let st := change != 0
      { payload := le 4 (rateKsps d) ++ le 1 d ++ le 1 change ++ le 2 (fadeSamples d) ++
          le 4 (if st then zeroSamples b else 0) ++ le 4 (if st then zeroTc b else 0) ++ le 4 (groupDelay dir b) }
    match bandPath s dir n with
    | none =>
      let fresh : BandPath :=
        { params := b, preTap := flags.testBit 2, includeAll := flags.testBit 3
          srcGapped := b.srcFlow, lastChange := now s, settleTotal := 1
          settleBy := settleDeadline (now s) (settleTail dir b) }
      (match dir with
       | .ingress =>
         let s1 := s.modCe (fun c => { c with ib := c.ib.set n (some fresh) })
         let s2 := restartGate n (applyChange .ingress n b s1)
         (refreshGains s2, rsp 2)
       | .egress =>
         let s1 := (s.modCe (fun c => { c with eb := c.eb.set n (some fresh) })).modNp (fun y =>
           { y with gain := y.gain.set n {} })
         (shareBackoff (createLoop n (applyChange .egress n b s1)), rsp 2))
    | some old =>
      let s1 := modBand dir n (fun x => { x with preTap := flags.testBit 2, includeAll := flags.testBit 3 }) s
      if settles (aimedParams old) b then (refreshGains (startSettle dir n b s1), rsp 1)
      else
        (shareBackoff (modBand dir n (fun x => match x.next with
          | some _ => { x with next := some b }
          | none => { x with params := b }) s1), rsp 0)

def execBpConfig (r : HostRequest) (s : State) : Host.Outcome State Fault Refusal := .next (submit specBpConfig r s)

/-- BP_RELEASE (0x0402). -/
def specBpRelease : CommandSpec where
  opcode := 0x0402
  role := some .operate
  power := activeOrQuiet
  length := fixedLength 4
  checks := fun s q =>
    let p := q.payload
    let n := u8 p 0
    [field 0 (within 0 127 n && (!within 0 1 (u8 p 1) || (bandPath s (dirOf (u8 p 1)) n).isSome)),
     field 1 (within 0 1 (u8 p 1)), field 2 (zeros p 2 2),
     need .eConflict (u8 p 1 == 1 || ((fedBy s n).isEmpty && (flowsOf s n).isEmpty && (cancellerOf s n).isNone))]
  effect := fun s q =>
    let n := u8 q.payload 0
    if u8 q.payload 1 = 0 then
      ((s.modCe (fun c => { c with ib := c.ib.set n none })).modNp (fun y => { y with
        gates := y.gates.set n none, donors := y.donors.set n {} }), {})
    else
      let s1 := refreshGains (modBand .egress n (fun b => { b with releasing := true }) s)
      (if (settleRamp (now s1) (s1.np.gain.get n).ramp).state = .silent then removeEb n s1 else s1, {})

def execBpRelease (r : HostRequest) (s : State) : Host.Outcome State Fault Refusal := .next (submit specBpRelease r s)

/-- BP_DETECTOR (0x0403). -/
def specBpDetector : CommandSpec where
  opcode := 0x0403
  role := some .operate
  power := activeOrQuiet
  length := fixedLength 4
  checks := fun s q =>
    let p := q.payload
    let n := u8 p 0
    let d := dirOf (u8 p 1)
    let k := ((bandPath s d n).map (fun b => b.windowNext.getD b.windowK)).getD 0
    [field 0 (within 0 127 n && (!within 0 1 (u8 p 1) || (bandPath s d n).isSome)), field 1 (within 0 1 (u8 p 1)),
     field 2 (within 0 8 (u8 p 2)), field 3 (decide (u8 p 3 < 4)),
     need .eConflict (u8 p 2 == k || !detectorUsed s d n)]
  effect := fun s q =>
    let p := q.payload
    (modBand (dirOf (u8 p 1)) (u8 p 0) (fun b => { b with
      windowNext := some (u8 p 2), preTap := (u8 p 3).testBit 0, includeAll := (u8 p 3).testBit 1 }) s, {})

def execBpDetector (r : HostRequest) (s : State) : Host.Outcome State Fault Refusal := .next (submit specBpDetector r s)

/-- BP_ALIGN (0x0404). -/
def specBpAlign : CommandSpec where
  opcode := 0x0404
  role := some .operate
  power := activeOrQuiet
  length := fixedLength 36
  checks := fun s q =>
    [field 32 (u32 q.payload 32 == 0 || decide (2 ≤ frameDistance s (u32 q.payload 32))), need .eBusy s.ce.align.isNone]
  effect := fun s q =>
    let p := q.payload
    let f := if u32 p 32 = 0 then framesAhead s 2 else u32 p 32
    let a : AlignPending := { frame := f, inMask := uN p 0 16, egMask := uN p 16 16, byPin := false }
    (s.modCe (fun c => { c with align := some a }), { payload := le 4 f ++ le 2 (misalignedOf s a).length })

def execBpAlign (r : HostRequest) (s : State) : Host.Outcome State Fault Refusal := .next (submit specBpAlign r s)

/-- BP_SYNC_PIN (0x0405). -/
def specBpSyncPin : CommandSpec where
  opcode := 0x0405
  role := some .admin
  power := activeOrQuiet
  length := fixedLength 36
  checks := fun _ q => [field 0 (within 0 2 (u8 q.payload 0)), field 1 (zeros q.payload 1 3)]
  effect := fun s q =>
    let p := q.payload
    (s.modCe (fun c => { c with
      syncMode := if u8 p 0 = 0 then .off else if u8 p 0 = 1 then .in_ else .out
      syncIn := uN p 4 16, syncEg := uN p 20 16 }), {})

def execBpSyncPin (r : HostRequest) (s : State) : Host.Outcome State Fault Refusal := .next (submit specBpSyncPin r s)

/-- The back-off of DPD_DIVERGE lasts until the chain leaves HELD (R116, R387). -/
def endDpdBackoff (c : Nat) (s : State) : State := dropBackoffs (fun x => x.cause == .dpd && x.unit == chainUnit c) s

/-- DPD_CONFIG (0x0410). -/
def specDpdConfig : CommandSpec where
  opcode := 0x0410
  role := some .operate
  power := activeOrQuiet
  length := fixedLength 12
  states := fun s q =>
    let p := q.payload
    let d := s.ce.dpd.get (u8 p 0 - 8)
    !within 8 15 (u8 p 0) || (s.rf.chains.get (u8 p 0)).fe != .active ||
      d.model == (u8 p 2, u8 p 3, u8 p 4)
  checks := fun _ q =>
    let p := q.payload
    [field 0 (within 8 15 (u8 p 0)), field 1 (within 0 1 (u8 p 1)), field 2 (decide (u8 p 2 < 16)),
     field 3 (within 1 8 (u8 p 3)), field 4 (within 0 2 (u8 p 4)), field 5 (within 0 1 (u8 p 5)), field 6 (zeros p 6 2),
     field 8 (withinI (-5000) (-1000) (s32 p 8))]
  effect := fun s q =>
    let p := q.payload
    let d := s.ce.dpd.get (u8 p 0 - 8)
    let s0 := if d.model = (u8 p 2, u8 p 3, u8 p 4) then s else askRepClear (u8 p 0 - 8) s
    (endDpdBackoff (u8 p 0) (modDpd (u8 p 0 - 8) (fun d =>
      let same := d.model == (u8 p 2, u8 p 3, u8 p 4)
      { d with
        model := (u8 p 2, u8 p 3, u8 p 4)
        state := if u8 p 1 = 0 then .off else if u8 p 5 = 1 then .adapting else .frozen
        orders := u8 p 2, memory := u8 p 3, cross := u8 p 4, limit := s32 p 8
        sets := if same then d.sets else Bank.fill []
        best := if same then d.best else none, before := if same then d.before else none
        rejectRun := 0, overRun := 0, pending := if same then d.pending else [] }) s0), {})

def execDpdConfig (r : HostRequest) (s : State) : Host.Outcome State Fault Refusal := .next (submit specDpdConfig r s)

/-- DPD_CONTROL (0x0411). -/
def specDpdControl : CommandSpec where
  opcode := 0x0411
  role := some .operate
  power := activeOrQuiet
  length := fixedLength 4
  states := fun s q => !within 8 15 (u8 q.payload 0) || (s.ce.dpd.get (u8 q.payload 0 - 8)).state != .off
  checks := fun _ q =>
    [field 0 (within 8 15 (u8 q.payload 0)), field 1 (within 0 3 (u8 q.payload 1)), field 2 (zeros q.payload 2 2)]
  effect := fun s q =>
    let a := u8 q.payload 1
    let c := u8 q.payload 0
    let s1 := modDpd (c - 8) (fun d =>
      if a = 0 then { d with state := .frozen }
      else if a = 1 then { d with state := .adapting, rejectRun := 0, overRun := 0 }
      else if a = 2 then { d with pending := d.pending ++ [.identity] }
      else { d with pending := d.pending ++ [.copyAll] }) s
    (if a < 2 then endDpdBackoff c s1 else s1, {})

def execDpdControl (r : HostRequest) (s : State) : Host.Outcome State Fault Refusal := .next (submit specDpdControl r s)

end Sys2Proof.Machine
end

