-- ==== Sys2Proof/Machine/LoopGuard.lean ====
section
/-! DEFINITION. Loop guard (R118–R151): Beacon pilots, measurement, the margin cap and ladder, oscillation, cancellers, the
hub's search, qualification in PADDOCK, and the commands of the chapter. -/

namespace Sys2Proof.Machine

open Sys2Proof

/-! ## Loop state (R140–R144) -/

/-- The loop enters GUARDED with a cap of its own; a loop that only the hub measures has none (R132, R140). -/
def enterGuarded (e : Nat) (cap : Option Int) (s : State) : State :=
  refreshGains (writeCap e (modLoop e (fun l => { l with
    state := .guarded, cap := cap.map (max gLow), qualMode := none, qualified := false, riseAt := now s }) s))

/-- Oscillation is declared: the loop enters HOLDOFF, the band and its pilot mute, and the mute is recorded and counted
(R143, R144). -/
def declareOsc (e criterion : Nat) (s : State) : State :=
  match s.lg.loops.get e with
  | none => s
  | some l =>
    let t := now s
    let g := (s.np.gain.get e).target
    let p := s.lg.policy
    let mutes := t :: l.mutes.filter (fun x => decide (t < x + tcOfS p.penWindow))
    let s1 := (modLoop e (fun x => { x with
      state := .holdoff, gOsc := g, mutes := mutes, muteCount := x.muteCount + 1, lastOsc := t
      holdEnd := t + tcOfMs p.holdoff, lowSince := none, lineRun := 0 }) s).modLg (fun x => { x with oscTotal := x.oscTotal + 1 })
    let s2 := submitLog 0x0501 (sourceIndex 2 e) [unitCode (ebUnit e), criterion, unsignedOf 32 g, mutes.length]
      (refreshGains (writeCap e (oscTrigger e s1)))
    if p.mutesToPen ≤ mutes.length then raiseMoment { cls := 0x31, unit := ebUnit e, direct := true } s2 else s2

/-- The pilot criteria of R142 at the end of a pilot period. -/
def pilotCriteria (e : Nat) (s : State) : State :=
  match s.lg.loops.get e with
  | none => s
  | some l =>
    if l.state = .guarded ∨ l.state = .ladder then
      (match loopMargin s e l with
       | some m =>
         if m ≤ s.lg.policy.oscMargin then declareOsc e 0 s
         else if s.lg.policy.oscGain ≤ fastGain s e l then declareOsc e 1 s else s
       | none => s)
    else s

/-! ## Qualification (R148) -/

/-- G_set: the command, or the end point of a soft-start that runs. -/
def commandedGain (g : GainStack) : Int :=
  match g.soft with
  | some x => x.2.1
  | none => g.gCmd

/-- G_start (R148, R132): G_set for an open loop, else at most T − QUAL_HEADROOM and the gain the hub granted. -/
def startGain (s : State) (e : Nat) (b : BandPath) (l : Loop) : Int :=
  let set := commandedGain (s.np.gain.get e)
  let g := match capTarget s b l with
    | some t => if loopClosed s b l then min set (t - l.config.qualHeadroom) else set
    | none => set
  match l.hubGrant with
  | some h => if viaHub s b l then min g h else g
  | none => g

/-- QUAL_FAIL: the first unmet condition of R148, 0 for none. -/
def qualFailure (s : State) (e : Nat) (b : BandPath) (l : Loop) : Nat :=
  let closed := loopClosed s b l
  if l.settled = false then 1
  else if l.validRun < (if closed then l.config.qualPeriods else 1) then 2
  else if viaHub s b l && l.hubGrant.isNone then 3
  else if startGain s e b l < commandedGain (s.np.gain.get e) - l.config.admitDeficit then 4
  else 0

/-- The loop evaluated for qualification at the end of a pilot period. -/
def qualify (e : Nat) (s : State) : State :=
  match s.ce.eb.get e, s.lg.loops.get e with
  | some b, some l =>
    if l.qualMode.isSome then
      let f := qualFailure s e b l
      modLoop e (fun x => { x with
        qualFail := f, qualified := f == 0, admitGain := if f = 0 then startGain s e b l else x.admitGain }) s
    else s
  | _, _ => s

/-- An open loop is OPEN again (log entry 127). -/
def enterOpen (e : Nat) (s : State) : State :=
  refreshGains (writeCap e (modLoop e (fun l => { l with state := .open_, cap := none, qualMode := none, qualified := false }) s))

/-- The cap with which a qualified loop becomes GUARDED: T − QUAL_HEADROOM (R140). -/
def admitCap (s : State) (b : BandPath) (l : Loop) : Option Int := (capTarget s b l).map (fun t => t - l.config.qualHeadroom)

/-- A loop in ACQUIRING that has qualified becomes GUARDED at the slot boundary, an open one OPEN (R140). -/
def admitAcquired (s : State) : State :=
  (ebs s).foldl (fun acc p => match acc.lg.loops.get p.1 with
    | some l =>
      if l.qualMode = some .acquiring ∧ l.qualified ∧ penned acc (ebUnit p.1) = false then
        if loopClosed acc p.2 l = false then enterOpen p.1 acc
        else if (capTarget acc p.2 l).isSome ∨ viaHub acc p.2 l then enterGuarded p.1 (admitCap acc p.2 l) acc
        else acc
      else acc
    | none => acc) s

/-! ## Units in PADDOCK (R147–R149) -/

/-- QUAL_FRAMES as this part applies it (R311): only the active hub has a command for it (log entry 134). -/
def qualSpan (s : State) : Nat := if s.sys.role = .hub then s.dv.qualFrames else 16

/-- A unit in PADDOCK has done what the table *Qualification by unit* asks of it. The active hub takes another member as qualified
when it is JOINED and for QUAL_FRAMES frames has reported no block late or dropped (R311). -/
def unitQualified (s : State) (u : UnitId) : Bool :=
  match u.kind with
  | .egress => (match s.lg.loops.get u.index with
    | some l => l.qualified
    | none => true)
  | .ingress => (match s.ce.ib.get u.index with
    | some b => decide (16 ≤ b.goodWindows) && !b.detInvalid
    | none => true)
  | .chain => (ebsOfChain s u.index ++ ibsOfChain s u.index).isEmpty || (s.rf.chains.get u.index).fe == .active
  | .flow => decide (qualSpan s ≤ (s.dv.desc.get u.index).cleanRun)
  | .lane => false
  | .member =>
    if u.index = ownMember s then
      (s.sys.role == .hub || s.fl.state == .joined) && (activeFlows s).all (fun p => !inPaddock s (flowUnit p.1) ||
        decide (qualSpan s ≤ p.2.cleanRun))
    else
      (s.fl.members.get u.index).any (fun r => r.state == .joined) && (s.dv.reportAt.find? (fun x => x.1 == u.index)).all
        (fun x => decide (qualSpan s ≤ (s.air.frame + 4294967296 - x.2) % 4294967296))
  | _ => true

/-- A unit in PADDOCK may be admitted: everything in PADDOCK that shares with it a container in PADDOCK qualifies (R147). -/
def admissible (s : State) (u : UnitId) : Bool :=
  let tops := s.fault.paddock.filter (fun v => v == u || (containers s u).contains v)
  unitQualified s u && tops.all (fun t => s.fault.paddock.all (fun v =>
    !(v == t || (containers s v).contains t) || unitQualified s v))

/-- Something waits for an admission frame: a unit in PADDOCK that may be admitted, or a band path that a HALT or QUIET had
silenced and that has qualified. -/
def admissionWanted (s : State) : Bool :=
  s.fault.paddock.any (fun u => !penned s u && admissible s u) ||
    (ebs s).any (fun p => match s.lg.loops.get p.1 with
      | some l => l.qualMode == some .halt && l.qualified
      | none => false)

/-- The first frame boundary at least `n` frames ahead. -/
def frameBoundaryAhead (s : State) (n : Nat) : Nat :=
  framesAhead s (if s.air.offset = 0 then n else n + 1)

/-- The units that qualify for admission now, and the band paths that a HALT or QUIET had silenced among them. -/
def qualifiedUnits (s : State) : List UnitId :=
  s.fault.paddock.filter (fun u => !penned s u && admissible s u) ++
    ((ebs s).filter (fun p => (s.lg.loops.get p.1).any (fun l => l.qualMode == some .halt && l.qualified))).map (fun p => ebUnit p.1)

/-- The next plan of the active hub uses a frame (R149, R305). -/
def bindPlan (f : Nat) (s : State) : State := s.modDv (fun d => { d with trigger := true, joinFrame := some f })

/-- Admission is asked for once something is qualified: of the active hub in a flock, else at the first frame boundary at
least 2 frames ahead; the active hub names its own frame at least 4 ahead, which its placement uses too. A request whose reason
is gone is withdrawn (R149). -/
def seekAdmission (s : State) : State :=
  if admissionWanted s = false then s.modLg (fun g => { g with admitFrame := none, admitAsked := false, admitUnits := [] })
  else if s.lg.admitFrame.isSome ∨ s.lg.admitAsked then s
  else
    let s1 := s.modLg (fun g => { g with admitUnits := qualifiedUnits s })
    if s.fl.memberId.isNone then s1.modLg (fun g => { g with admitFrame := some (frameBoundaryAhead s 2) })
    else if activeHub s then
      bindPlan (frameBoundaryAhead s 4) (s1.modLg (fun g => { g with admitFrame := some (frameBoundaryAhead s 4) }))
    else sendUp (.admitReq (s.fault.paddock.filter (admissible s))) (s1.modLg (fun g => { g with admitAsked := true }))

/-- The frame from which a member's clean frames count (R311). -/
def noteReport (m : Nat) (s : State) : State :=
  s.modDv (fun d => { d with reportAt := (m, s.air.frame) :: d.reportAt.filter (fun x => x.1 != m) })

/-- A unit enters PADDOCK with what it contains (R147): loops ACQUIRING, windows counted afresh, and what is out of alignment
realigned. What is qualified at once seeks its admission. -/
def enterPaddock (u : UnitId) (s : State) : State :=
  let l := (contents s u).filter (fun v => !penned s v)
  let s1 := s.modFault (fun f => { f with paddock := f.paddock.filter (fun v => !l.contains v) ++ l })
  seekAdmission <| refreshGains (l.foldl (fun acc v => match v.kind with
    | .egress =>
      let acc1 := restartLoop v.index (some .paddock) false acc
      (match acc1.ce.eb.get v.index with
       | some b => if b.misaligned then realign .egress v.index acc1 else acc1
       | none => acc1)
    | .ingress =>
      let acc1 := modBand .ingress v.index (fun b => { b with goodWindows := 0 }) acc
      (match acc1.ce.ib.get v.index with
       | some b => if b.misaligned then realign .ingress v.index acc1 else acc1
       | none => acc1)
    | .flow => acc.modDv (fun d => { d with desc := d.desc.mod v.index (fun x => { x with cleanRun := 0 }) })
    | .member => noteReport v.index acc
    | .cassette => acc.modPs (fun p => { p with cassettes := p.cassettes.mod v.index (fun x => { x with linkHold := false }) })
    | _ => acc) s1)

/-! ## Measurement (R128–R132, R139) -/

/-- One step of the exponential filter in linear power with a time constant of `n` pilot periods (R129). -/
def average (old : Option Nat) (x : Int) (n : Nat) : Nat :=
  let v : Int := (linear (-x) : Int)
  match old with
  | none => v.toNat
  | some a => ((a : Int) + (v - a) / (n : Int)).toNat

/-- A canceller's measurement of C: CANCELLER_DIVERGE after four below 0 dB, or when the tap energy exceeds 16 times that of the
snapshot (R137–R139). -/
def measureCanceller (c1 : Int) (per : Nat) (k : Canceller) : Canceller × Bool :=
  let neg := if c1 < 0 then k.negRun + 1 else 0
  let bad := decide (4 ≤ neg) || (k.snapshot && decide (16 * tapEnergy k.snap < tapEnergy k.weights))
  let st : CancState :=
    if bad then .diverged
    else match k.state with
      | .cold | .diverged => if 2000 ≤ c1 then .converged else k.state
      | x => x
  let best := (List.range k.offsets.length).foldl (fun m c =>
    if tapEnergy [k.taps_ m] < tapEnergy [k.taps_ c] then c else m) 0
  ({ k with
     c := c1, measured := !bad
     rotator := if k.doppler then (k.dopp.getD best 0) * ((tcPerSecond * 10 : Nat) : Int) / ((2 ^ 48 * per : Nat) : Int) else k.rotator
     negRun := if bad then 0 else neg, state := st, restore := k.restore || bad
     diverges := if bad then k.diverges + 1 else k.diverges }, bad)

/-- An instance takes a measurement of C for a loop's unit: CANCELLER_DIVERGE holds until it has converged again (R139). -/
def takeMeasure (i : Nat) (c1 : Int) (per : Nat) (k : Canceller) (u : UnitId) (s : State) : State :=
  let r := measureCanceller c1 per k
  let s1 := s.modLg (fun g => { g with canc := g.canc.set i r.1 })
  if r.2 then raiseLevel { cls := 0x32, unit := u } s1
  else if r.1.state = .converged then endFault 0x32 u s1 else s1

/-- Key of an egress band path's pilot-period grid. -/
def pilotKey (e : Nat) : Nat := 300 + e

/-! ### What a pilot period shows (R126–R128) -/

/-- The samples of a band path in the last `n` before an instant, oldest first, zeros where they are not admitted (R128). -/
def periodSamples (per n : Nat) (hi : AirInstant) (tap : Sampled → Cx) (b : BandPath) : List Cx :=
  let l := b.recent.filter (fun x => inSpan (instantBack hi (n * per)) hi x.at_)
  let v := ((l.take n).map (fun x => if x.ok then tap x else (0, 0))).reverse
  List.replicate (n - v.length) (0, 0) ++ v

/-- The samples of one code period of a pilot: its chips after the prefix. -/
def PilotWave.codeSamples (w : PilotWave) : List Int :=
  (List.range (4 * w.code.length)).map (fun k => pilotSample w.code w.prefix_ w.neg w.negOld (4 * w.prefix_ + k))

/-- The delay profile of a pilot: power at every delay up to the prefix, in units of 2^−36, normalised by the emitted part of the
period, % (R128). -/
def delayProfile (w : PilotWave) (emitted : Nat) (x : List Cx) : List Nat :=
  let p := w.codeSamples
  (List.range (4 * w.prefix_)).map (fun k => correlate x p k * 100 / max 1 emitted)

/-- Power of a pilot that a profile shows, or the power of the detection threshold, 12 dB above the median: the sum over the bins
within 20 dB of a peak that exceeds it (R128). -/
def profilePower (l : List Nat) : Option Int × Int :=
  let peak := l.foldl max 0
  let threshold := medianOf l * linear 1200 / unity
  let level (x : Nat) : Int := decibel (x * unity / 2 ^ 36)
  (if 0 < peak ∧ threshold ≤ peak then some (level (l.filter (fun x => decide (peak ≤ 100 * x))).sum) else none, level threshold)

/-- Non-overlapping regions of `taps` samples with the most power, strongest first, within the span (R136). -/
def strongestRegions (taps limit : Nat) (l : List Nat) : Nat → List Nat → List Nat
  | 0, acc => acc
  | n + 1, acc =>
    let free := (List.range (limit + 1 - taps)).filter (fun o => acc.all (fun a => decide (a + taps ≤ o ∨ o + taps ≤ a)))
    let power (o : Nat) : Nat := ((l.drop o).take taps).sum
    match free with
    | [] => acc
    | x :: rest => strongestRegions taps limit l n (acc ++ [rest.foldl (fun m o => if power m < power o then o else m) x])

/-- What correlating an ingress band path with a pilot gives: its received power or the threshold, at PRE and at POST, and the PRE
profile. -/
def receivedPilot (s : State) (n : Nat) (w : PilotWave) (emitted : Nat) (hi : AirInstant) :
    (Option Int × Int) × (Option Int × Int) × List Nat :=
  match s.ce.ib.get n with
  | none => ((none, -30000), (none, -30000), [])
  | some r =>
    let per := samplePeriod r.params.stages
    let len := 4 * w.code.length
    let pre := delayProfile w emitted (periodSamples per len hi (·.pre) r)
    (profilePower pre, profilePower (delayProfile w emitted (periodSamples per len hi (·.post) r)), pre)

/-- The measurement of one pilot period of an egress band path that ends at `hi` (R119, R126–R128). -/
def measurePilot (s : State) (e : Nat) (b : BandPath) (l : Loop) (period : Nat) (hi : AirInstant) : PilotMeasure :=
  let lo := instantBack hi period
  let span := b.recent.filter (fun x => inSpan lo hi x.at_)
  let emitted := (span.filter (·.pilot)).length * 100 / max 1 span.length
  let w := pilotWave s e l
  let ret := returnIb s b l
  let calm (x : BandPath) : Bool := x.phase == .idle && (x.recent.filter (fun y => inSpan lo hi y.at_)).all (fun y => !y.settling)
  let mean (f : Sampled → Cx) : Int := ((powerOf ((span.filter (·.ok)).map f)).mean).getD (-30000)
  let base : PilotMeasure :=
    { emitted := emitted
      settled := calm b && ((ret.bind (s.ce.ib.get ·)).map calm).getD true
      a := none, aBound := 0, c := none, cBound := 0, onPath := none
      composite := mean (·.pre), input := mean (·.inp), regions := [] }
  let own := if loopClosed s b l then base else
    { base with onPath := ((ibs s).find? (fun p => overlaps p.2.params b.params &&
        (receivedPilot s p.1 w emitted hi).1.1.isSome)).map (·.1) }
  match ret <|> own.onPath with
  | none => own
  | some n =>
    let r := receivedPilot s n w emitted hi
    let pre := r.1.1.getD r.1.2
    let canc := (cancellerOf s n).map (·.2)
    { own with
      a := r.1.1.map (fun p => l.pilot - p), aBound := l.pilot - r.1.2
      c := if r.1.1.isSome then r.2.1.1.map (fun p => pre - p) else none, cBound := pre - r.2.1.2
      regions := (canc.map (fun k => strongestRegions k.taps (k.span / ebPeriod s e) r.2.2 k.clusters [])).getD [] }

/-- The canceller that serves a loop takes the period's C and the regions of its profile (R136, R139). -/
def servingCanceller (e : Nat) (ret : Option Nat) (m : PilotMeasure) (c1 : Int) (s : State) : State :=
  match ret.bind (cancellerOf s) with
  | none => s
  | some (i, k) => takeMeasure i c1 (ebPeriod s e) { k with regions := m.regions } (ebUnit e) s

/-- A closed loop is measured (R128, R129). -/
def measureLoop (e : Nat) (b : BandPath) (m : PilotMeasure) (s : State) : State :=
  match s.lg.loops.get e with
  | none => s
  | some l =>
    let a1 := m.a.getD m.aBound
    let c1 := m.c.getD m.cBound
    let s1 := modLoop e (fun x => { x with
      aLin := some (average x.aLin a1 x.config.marginAvg), cLin := some (average x.cLin c1 x.config.marginAvg)
      a1 := a1, c1 := c1, boundA := m.a.isNone, boundC := m.c.isNone }) s
    servingCanceller e (returnIb s b l) m c1 s1

/-- An open loop whose own pilot is found on an own ingress band path that overlaps its carrier is closed by measurement
(R119, R140). -/
def closeByMeasurement (e : Nat) (b : BandPath) (m : PilotMeasure) (s : State) : State :=
  match m.onPath, s.lg.loops.get e with
  | some n, some l =>
    (match s.ce.ib.get n with
     | none => s
     | some r =>
       if loopClosed s b l ∨ overlaps r.params b.params = false then s
       else
         let s1 := measureLoop e b m (modLoop e (fun x => { x with measuredOn := some n }) s)
         if l.qualMode.isSome ∨ inPaddock s (ebUnit e) then
           writeCap e (modLoop e (fun x => { x with
             state := .acquiring, validRun := 0, qualMode := if inPaddock s (ebUnit e) then some .paddock else x.qualMode }) s1)
         else
           (match s1.lg.loops.get e with
            | some l1 =>
              (match capTarget s1 b l1 with
               | some t =>
                 if t < (s1.np.gain.get e).target then
                   writeCap e (modLoop e (fun x => { x with state := .ladder, cap := none }) s1)
                 else enterGuarded e (some t) s1
               | none => s1)
            | none => s1))
  | _, _ => s

/-- The configuration that waits for a pilot-period boundary starts; a change of degree or index makes the loop ACQUIRING
(LG_BEACON_CONFIG). -/
def beaconBoundary (e : Nat) (s : State) : State :=
  match s.lg.loops.get e with
  | some l =>
    (match l.beaconNext with
     | some b =>
       let changed := degreeOf s e b != degreeOf s e l.beacon || codeIndex s e b != codeIndex s e l.beacon
       let s1 := modLoop e (fun x => { x with beacon := b, beaconNext := none }) s
       if changed && l.state != .open_ then loopChanged e s1 else s1
     | none => s)
  | none => s

/-- The pilot of the next period: its level and its sign (R125, R126). -/
def pilotNext (s : State) (e : Nat) (m : PilotMeasure) (l : Loop) : Loop :=
  let pc := if l.state = .acquiring then m.input + (s.np.gain.get e).gCmd else m.composite
  let bit := l.beacon.identity && (identityFrame (ownMember s) e).testBit ((l.idBit + 1) % 32)
  { l with
    pilot := max l.beacon.floor (pc + l.beacon.rel), pilotNeg := l.pilotNeg != bit, pilotOld := l.pilotNeg, idBit := (l.idBit + 1) % 32
    seq := l.seq + 1 }

/-! ## The hub's search (R130, R131, R138) -/

/-- Insertion into the rising order of members and band paths. -/
def insertEnd (x : Endpoint) : List Endpoint → List Endpoint
  | [] => [x]
  | y :: rest => if x.member * 128 + x.bp ≤ y.member * 128 + y.bp then x :: y :: rest else y :: insertEnd x rest

/-- The endpoints that flows of an ingress band path feed in the Drover tables, in ascending member order (R130). -/
def fedEnds (s : State) (n : Nat) : List Endpoint :=
  (s.dv.ends.filter (fun x => x.state == .served && (flowsOf s n).contains x.flow)).foldl (fun acc x => insertEnd x acc) []

/-- Code degree of the loops that a searched ingress band path carries: no command states it, and it is taken at the path's own
rate under the default beacon settings (log entry 133). -/
def searchDegree (per : Nat) : Nat := codeDegree per 16 20

/-- The pilot that a member would emit on a searched carrier with its default index of rank 0 (R123, log entry 133). -/
def searchWave (s : State) (per member : Nat) : PilotWave :=
  let n := searchDegree per
  let period := pilotPeriod s.air per 20 n
  { code := beaconChips n (member % (2 ^ n + 1)) (codeLength n)
    prefix_ := (period - codeLength n * (4 * per)) / (4 * per), period := period, level := 0, neg := false, negOld := false }

/-- The member and band path that the data bits name, newest bit first: a whole identity frame among the last 63 (R125, R130). -/
def identityOf (bits : List Bool) : Option (Nat × Nat) :=
  (List.range 32).findSome? (fun k =>
    let w := (bits.drop k).take 32
    let v : Nat := w.foldl (fun acc b => 2 * acc + (if b then 1 else 0)) 0
    if w.length = 32 ∧ v % 16 = 13 ∧ v / 2 ^ 25 = crc7 (v % 2 ^ 25) 25 then some (v / 2 ^ 4 % 2 ^ 14, v / 2 ^ 18 % 2 ^ 7) else none)

/-- The correlation at the strongest delay of a profile. -/
def peakOf (w : PilotWave) (profile : List Nat) (x : List Cx) : Cx :=
  correlation x w.codeSamples ((List.range profile.length).foldl (fun m k => if profile.getD m 0 < profile.getD k 0 then k else m) 0)

/-- Entry of a member's band path on a searched ingress band path. -/
def trackedEntry (l : List Tracked) (n : Nat) (x : Endpoint) : Option Tracked :=
  l.find? (fun t => t.member == x.member && t.eb == x.bp && t.ib == n)

/-- G_m as last reported; the lowest gain before a report. -/
def reportedGain (s : State) (member eb : Nat) : Int :=
  ((s.lg.gains.find? (fun g => g.member == member && g.eb == eb)).map (·.gain)).getD gLow

/-- One code tested on a searched ingress band path (R130): A_m or its bound, and the entries after it. A coupling is every
candidate's that shares the code until an identity frame names its member. -/
def searchCode (s : State) (n : Nat) (r : BandPath) (hi : AirInstant) (levels : List MemberLevel) (l : List Tracked)
    (x : Endpoint) : List Tracked :=
  let per := samplePeriod r.params.stages
  let w := searchWave s per x.member
  let found := receivedPilot s n w 100 hi
  let level := ((levels.find? (fun y => y.member == x.member && y.eb == x.bp)).map (·.level)).getD (-7500)
  let old := (trackedEntry l n x).getD { member := x.member, eb := x.bp, ib := n, a := 0, g := 0, cap := none }
  let peak := peakOf w found.2.2 (periodSamples per (4 * w.code.length) hi (·.pre) r)
  let bits := (decide ((cMul peak (cConj old.peak)).1 < 0) :: old.bits).take 63
  let base := 2 ^ searchDegree per + 1
  let other := l.any (fun y => y.ib == n && y.found && y.member % base == x.member % base &&
    !(y.member == x.member && y.eb == x.bp) && identityOf y.bits == some (y.member, y.eb))
  let mine := (identityOf bits).all (fun i => i == (x.member, x.bp)) && !other
  let new : Tracked := { old with
    found := found.1.1.isSome && mine, bits := bits, peak := peak
    a := level - (if mine then found.1.1.getD found.1.2 else found.1.2), g := reportedGain s x.member x.bp }
  if (trackedEntry l n x).isSome then l.map (fun t => if t.member == x.member && t.eb == x.bp && t.ib == n then new else t)
  else l ++ [new]

/-- C_cr of the hub's canceller on an ingress band path, under the default CREDIT_MAX (log entry 133). -/
def hubCredit (s : State) (ib : Nat) : Int :=
  match cancellerOf s ib with
  | some (_, k) => if creditZero k then 0 else min k.c ({} : LoopConfig).creditMax
  | none => 0

/-- G_m − A_m of an entry, its gain within the cap last sent. -/
def Tracked.term (t : Tracked) : Int := (t.cap.map (fun c => min c t.g)).getD t.g - t.a

/-- M_agg of a searched ingress band path (R131): the terms add in amplitude. -/
def aggregateMargin (s : State) (ib : Nat) (l : List Tracked) : Int :=
  -(2 * decibel ((l.map (fun t => linear (t.term / 2))).sum)) + hubCredit s ib

/-- The member with the largest (`down`) or smallest term, the lowest member ID on a tie. -/
def pickMember (down : Bool) (l : List Tracked) : Option Tracked :=
  l.foldl (fun best t => match best with
    | none => some t
    | some x =>
      if (if down then x.term < t.term else t.term < x.term) ∨ (x.term = t.term ∧ t.member < x.member) then some t else some x) none

/-- The instant at which a cap that the hub sends now applies: the second frame boundary from now (log entry 13). -/
def capInstant (s : State) : AirInstant := ⟨framesAhead s 2, 0⟩

/-- The hub sets the cap of a member. -/
def setCap (t : Tracked) (cap : Int) (s : State) : State :=
  s.modLg (fun g => { g with tracked := g.tracked.map (fun x =>
    if x.member == t.member && x.eb == t.eb && x.ib == t.ib then { x with cap := some cap } else x) })

/-- A cap is sent to a member (R131). -/
def sendCap (t : Tracked) (cap : Int) (s : State) : State :=
  sendTo t.member (.marginCap { member := t.member, eb := t.eb, cap := cap, at_ := capInstant s })
    ((setCap t cap s).modLg (fun g => { g with
      capSteps := g.capSteps.mod t.ib (fun l => now s :: l.filter (fun x => decide (now s < x + tcPerSecond))) }))

/-- Oscillation on a searched donor ingress band path of a hub: it is muted at its source (R145). -/
def declareHubOsc (n criterion : Nat) (s : State) : State :=
  let t := now s
  let p := s.lg.policy
  let h := s.lg.hubHold.get n
  let mutes := t :: h.mutes.filter (fun x => decide (t < x + tcOfS p.penWindow))
  let s1 := s.modLg (fun g => { g with
    hubHold := g.hubHold.set n { holdEnd := t + tcOfMs p.holdoff, active := true, mutes, lineRun := 0 }
    oscTotal := g.oscTotal + 1 })
  let s2 := submitLog 0x0501 (sourceIndex 2 n) [unitCode (ibUnit n), criterion, 0, mutes.length]
    (refreshGains (oscTrigger n s1))
  if p.mutesToPen ≤ mutes.length then raiseMoment { cls := 0x31, unit := ibUnit n, direct := true } s2 else s2

/-- The hub's ladder and the rise of its caps on one searched ingress band path, at a boundary of 4 loop ticks: below M_REQ the cap
of the member with the largest term comes down 1 dB, from M_REQ + 1 dB capped members rise, smallest term first (R131). The
settings are the defaults (log entry 133). -/
def hubLadder (s : State) (n : Nat) : State :=
  let l := s.lg.tracked.filter (fun t => t.ib == n)
  if l.isEmpty then s
  else
    let m := aggregateMargin s n l
    let cfg : LoopConfig := {}
    let s1 := s.modLg (fun g => { g with mAgg := g.mAgg.set n m })
    let still := s1.modLg (fun g => { g with hubRise := g.hubRise.set n (now s) })
    if m < cfg.mReq then
      (match pickMember true l with
       | some t => sendCap t (max gLow ((t.cap.map (fun c => min c t.g)).getD t.g - 100)) still
       | none => still)
    else if cfg.mReq + 100 ≤ m then
      (match pickMember false (l.filter (fun t => t.cap.any (· < gHigh))) with
       | some t =>
         let k := (now s - s.lg.hubRise.get n) * cfg.capRise / tcPerSecond
         setCap t (min gHigh (t.cap.getD gHigh + k))
           (s1.modLg (fun g => { g with hubRise := g.hubRise.set n (s.lg.hubRise.get n + k * tcPerSecond / cfg.capRise) }))
       | none => still)
    else still

/-- One searched ingress band path at the end of its pilot period `hi` (R130–R132, R138, R142): the codes found and the next of the
sweep are tested by the lanes of its degree; the hub's canceller is measured on the strongest member; every cap is sent again, a
starting gain where a member has none; and the pilot criterion is evaluated on M_agg. -/
def searchPath (hi : AirInstant) (levels : List MemberLevel) (s : State) (n : Nat) : State :=
  match s.ce.ib.get n with
  | none => s
  | some r =>
    let per := samplePeriod r.params.stages
    let lanes := (s.lg.lanes.filter (· == searchDegree per)).length
    let ends := fedEnds s n
    let key (x : Endpoint) : Nat := x.member * 128 + x.bp
    let kept := s.lg.tracked.filter (fun t => t.ib != n || ends.any (fun x => x.member == t.member && x.bp == t.eb))
    let live := (((kept.filter (·.found)).take s.lg.trackedMax).filter (fun t => t.ib == n))
    let rest := ends.filter (fun x => (s.lg.sweepAt.get n).all (fun k => decide (k < key x)))
    let fresh := rest.take (lanes * s.lg.sweep)
    let tested := (ends.filter (fun x => live.any (fun t => t.member == x.member && t.eb == x.bp))) ++
      fresh.filter (fun x => !live.any (fun t => t.member == x.member && t.eb == x.bp))
    let l := if lanes = 0 then kept else tested.foldl (searchCode s n r hi levels) kept
    let s1 := s.modLg (fun g => { g with
      tracked := l, searchedAt := g.searchedAt.set n (some hi)
      swept := g.swept.set n ((if (g.sweepAt.get n).isNone then 0 else g.swept.get n) + fresh.length)
      sweepAt := g.sweepAt.set n (if rest.length ≤ fresh.length then none else (fresh.getLast?.map key) <|> g.sweepAt.get n) })
    let mine := l.filter (fun t => t.ib == n)
    let strongest := (mine.filter (·.found)).foldl (fun (b : Option Tracked) t => match b with
      | some x => if t.a < x.a then some t else some x
      | none => some t) none
    let s2 := match cancellerOf s1 n, strongest with
      | some (i, k), some t =>
        let got := receivedPilot s1 n (searchWave s per t.member) 100 hi
        takeMeasure i (got.1.1.getD got.1.2 - got.2.1.1.getD got.2.1.2) per
          { k with regions := strongestRegions k.taps (k.span / per) got.2.2 k.clusters [] } (ibUnit n) s1
      | _, _ => s1
    let cfg : LoopConfig := {}
    let s3 := mine.foldl (fun acc t => sendCap t (t.cap.getD (max gLow (t.a + hubCredit s2 n - cfg.mReq))) acc) s2
    let now_ := s3.lg.tracked.filter (fun t => t.ib == n)
    let m := aggregateMargin s3 n now_
    let s4 := s3.modLg (fun g => { g with mAgg := g.mAgg.set n m })
    if now_.isEmpty ∨ (s4.lg.hubHold.get n).active then s4
    else if m ≤ s4.lg.policy.oscMargin then declareHubOsc n 0 s4
    else if s4.lg.policy.oscGain ≤ -m then declareHubOsc n 1 s4 else s4

/-- The hub's searcher at the end of a pilot period of one of its egress band paths: the searched ingress band paths whose own
pilot period ends at the same instant (R130, log entry 133). -/
def searchPeriod (hi : AirInstant) (levels : List MemberLevel) (s : State) : State :=
  if s.sys.role = .hub then
    ((List.range 128).filter (fun n => s.lg.searchMask.testBit n && s.lg.searchedAt.get n != some hi &&
      (s.ce.ib.get n).any (fun r => hi.offset % max 1 (pilotPeriod s.air (samplePeriod r.params.stages) 20
        (searchDegree (samplePeriod r.params.stages))) == 0))).foldl (searchPath hi levels) s
  else s

/-- Reported gain changes whose instant has come are taken: G_m, and the model of the hub's canceller on each path that the member
reaches, which scales with the amplitude that the members put there (R131, R133, log entry 133). -/
def takeGain (s : State) (r : GainReport) : State :=
  let total (l : List Tracked) : Nat := (l.map (fun t => amplitude (t.g - t.a))).sum
  let s1 := s.modLg (fun g => { g with
    gains := r :: g.gains.filter (fun x => !(x.member == r.member && x.eb == r.eb))
    tracked := g.tracked.map (fun t => if t.member == r.member && t.eb == r.eb then { t with g := r.gain } else t) })
  s1.modLg (fun g => { g with canc := { g.canc with cells := g.canc.cells.map (fun p =>
    let old := total (s.lg.tracked.filter (fun t => t.ib == p.2.ib))
    let new := total (s1.lg.tracked.filter (fun t => t.ib == p.2.ib))
    if p.2.refFlow && p.2.state != .idle && old != 0 && old != new then
      (p.1, { p.2 with weights := p.2.weights.map (fun w => w.map (fun v => cRound old (cScale new v))) })
    else p) } })

/-- The reported gain changes up to the present instant. -/
def takeGains (s : State) : State :=
  let due (x : AirInstant × GainReport) : Bool := !isLater s.air x.1
  ((s.lg.gainNext.filter due).map (·.2)).foldl takeGain
    (s.modLg (fun g => { g with gainNext := g.gainNext.filter (fun x => !due x) }))

/-! ## Events -/

/-- The blocks of the ingress band paths since they were last served. -/
def feedPaths (l : List PathBlocks) (s : State) : State := l.foldl (fun acc x => feed x.ib x.blocks acc) s

/-- What the measurement of a period does to a loop that is not penned (R119, R128, R129, R140, R142). -/
def takePeriod (e : Nat) (b : BandPath) (l : Loop) (m : PilotMeasure) (s : State) : State :=
  let valid := decide (25 ≤ m.emitted)
  let closed := loopClosed s b l
  let s1 := if valid then
      (if closed then (if (returnIb s b l).isSome then measureLoop e b m s else s) else closeByMeasurement e b m s)
    else s
  let good := valid && (closed || m.onPath.isNone)
  let s2 := modLoop e (fun x => { x with
    valid := valid, validRun := if good then x.validRun + 1 else 0, lastValid := if valid then now s1 else x.lastValid }) s1
  pilotCriteria e (refreshGains (if valid then endFault 0x33 (ebUnit e) s2 else s2))

/-- The pilot period of an egress band path ends (R124–R132, R139–R143, R148). -/
def pilotPeriodEnd (e : Nat) (m : PilotInput) (s : State) : State :=
  match s.ce.eb.get e, s.lg.loops.get e with
  | some _, some l0 =>
    let period := periodOf s e l0.beacon
    let s1 := feedPaths m.paths (advanceToBoundary (pilotKey e) period s)
    let hi := airNow s1.air
    (match s1.ce.eb.get e, s1.lg.loops.get e with
     | some b, some l =>
       let x := measurePilot s1 e b l period hi
       let s2 := if penned s1 (ebUnit e) then s1 else takePeriod e b l x s1
       let s3 := beaconBoundary e (modLoop e (fun y => { y with settled := x.settled }) s2)
       let s4 := qualify e (refreshGains (modLoop e (pilotNext s3 e x) s3))
       seekAdmission (searchPeriod hi m.levels s4)
     | _, _ => s1)
  | _, _ => s

def execPilotPeriodEnd (eb : Nat) (m : PilotInput) (s : State) : Host.Outcome State Fault Refusal :=
  .next (pilotPeriodEnd eb m s)

/-- The cap of a GUARDED loop rises towards T at CAP_RISE in 0.01 dB increments while the latest measurement is valid (R141);
done at every loop tick. -/
def riseCap (s : State) (p : Nat × BandPath) : State :=
  match s.lg.loops.get p.1 with
  | none => s
  | some l =>
    match l.cap, (capTarget s p.2 l) <|> (if viaHub s p.2 l then some gHigh else none) with
    | some c, some t =>
      if l.state = .guarded ∧ l.valid ∧ l.held = false ∧ penned s (ebUnit p.1) = false ∧ c < t then
        let k := (now s - l.riseAt) * l.config.capRise / tcPerSecond
        writeCap p.1 (modLoop p.1 (fun x => { x with
          cap := some (min t (c + k)), riseAt := x.riseAt + k * tcPerSecond / x.config.capRise }) s)
      else modLoop p.1 (fun x => { x with riseAt := now s }) s
    | _, _ => s

/-- A ladder boundary: every 4 loop ticks from the frame start (R141). -/
def ladderStep (e : Nat) (s : State) : State :=
  match s.ce.eb.get e, s.lg.loops.get e with
  | some b, some l =>
    if l.state ≠ .ladder ∨ penned s (ebUnit e) then s
    else
      let s1 := advanceToBoundary (500 + e) (4 * tcPerTick) s
      (match creditedMargin s1 e b l with
       | none => s1
       | some m =>
         let g := (s1.np.gain.get e).target
         let cap := max gLow ((match l.cap with
           | some c => min c g
           | none => g) - 100)
         let s2 := if m < l.config.mReq then
             refreshGains (writeCap e (modLoop e (fun x => { x with cap := some cap }) s1))
           else s1
         (match creditedMargin s2 e b l with
          | some m2 =>
            if l.config.mReq ≤ m2 then
              noteMargin e false (modLoop e (fun x => { x with state := .guarded, riseAt := now s2 }) s2)
            else s2
          | none => s2))
  | _, _ => s

def execLadderStep (eb : Nat) (s : State) : Host.Outcome State Fault Refusal := .next (ladderStep eb s)

/-- N_L: the largest power of two not above 25 µs × r, within 32 to 4,096 (R142). -/
def lineLength (stages : Nat) : Nat :=
  ([4096, 2048, 1024, 512, 256, 128, 64].find? (fun n => decide (40 * n ≤ rateKsps stages))).getD 32

/-- A frame in which a line grows against the frame of 100 µs before (R142): a bin at least 10 dB above the median has grown by
LINE_GROWTH, all growth lies within 3 adjacent bins, and the median has grown by less than 3 dB. -/
def lineGrows (growth : Int) (new old : List Nat) : Bool :=
  let n := new.length
  let grown (k : Nat) : Bool := decide (0 < new.getD k 0) && decide (old.getD k 0 * linear growth ≤ new.getD k 0 * unity)
  let l := (List.range n).filter grown
  let m := medianOf new
  l.any (fun k => decide (10 * m ≤ new.getD k 0)) &&
    (List.range n).any (fun k => l.all (fun j => decide ((j + n - k) % n < 3))) &&
    decide (m * unity < medianOf old * linear 300)

/-- A frame of the line detector on an ingress band path, taken once at an instant (R142). -/
def takeLine (s : State) (n : Nat) : State :=
  modBand .ingress n (fun b =>
    if b.linesAt = some (airNow s.air) then b
    else
      let k := lineLength b.params.stages
      let x := (b.recent.take k).map (·.post)
      { b with lines := (spectrum ((x ++ List.replicate (k - x.length) (0, 0)).reverse) :: b.lines).take 9
               linesAt := some (airNow s.air) }) s

/-- The latest frame of an ingress band path shows a growing line. -/
def lineSeen (s : State) (n : Nat) : Bool :=
  match s.ce.ib.get n with
  | some b => (match b.lines[0]?, b.lines[8]? with
    | some x, some y => lineGrows s.lg.policy.lineGrowth x y
    | _, _ => false)
  | none => false

/-- The state at the next frame of the line detector, every 12.5 µs, with the frame taken on the ingress band path it watches (R142). -/
def lineView (key : Nat) (watched : Option Nat) (blocks : List RawBlock) (s : State) : State :=
  let s0 := advanceToBoundary key 24576 s
  match watched with
  | some r => takeLine (feed r blocks s0) r
  | none => s0

/-- A frame of the line detector, every 12.5 µs, on the return of a loop or on a searched path of a hub: a line on two consecutive
frames declares oscillation (R142, R145). -/
def lineDetectorFrame (d : Dir) (n : Nat) (blocks : List RawBlock) (s : State) : State :=
  match d with
  | .egress =>
    (match s.ce.eb.get n, s.lg.loops.get n with
     | some b, some l =>
       let ret := returnIb s b l
       let s1 := lineView (828 + n) ret blocks s
       let run := if ret.any (lineSeen s1) then l.lineRun + 1 else 0
       if loopClosed s b l ∧ (l.state = .guarded ∨ l.state = .ladder) ∧ penned s (ebUnit n) = false ∧ 2 ≤ run then
         declareOsc n 2 s1
       else modLoop n (fun y => { y with lineRun := run }) s1
     | _, _ => s)
  | .ingress =>
    if s.sys.role = .hub ∧ s.lg.searchMask.testBit n ∧ ibExists s n then
      let s1 := lineView (700 + n) (some n) blocks s
      let run := if lineSeen s1 n then (s.lg.hubHold.get n).lineRun + 1 else 0
      if 2 ≤ run ∧ (s.lg.hubHold.get n).active = false then declareHubOsc n 2 s1
      else s1.modLg (fun g => { g with hubHold := g.hubHold.mod n (fun h => { h with lineRun := run }) })
    else s

def execLineDetectorFrame (d : Dir) (n : Nat) (l : List RawBlock) (s : State) : Host.Outcome State Fault Refusal :=
  .next (lineDetectorFrame d n l s)

/-- The hold-off ends: at the next slot boundary a band path that is not penned returns to GUARDED with its cap at G_osc −
RETRY_DROP, and its canceller starts cold (R143–R145). -/
def holdoffEnd (d : Dir) (n : Nat) (s : State) : State :=
  match d with
  | .egress =>
    (match s.ce.eb.get n, s.lg.loops.get n with
     | some b, some l =>
       if l.state = .holdoff ∧ penned s (ebUnit n) = false then
         let s1 := toNextSlot (advanceTo l.holdEnd s)
         let ret := returnIb s b l
         let s2 := restartCancellers (fun k => some k.ib == ret) s1
         enterGuarded n (some (l.gOsc - s.lg.policy.retryDrop)) s2
       else s
     | _, _ => s)
  | .ingress =>
    let h := s.lg.hubHold.get n
    if h.active then
      let s1 := toNextSlot (advanceTo h.holdEnd s)
      refreshGains (restartCancellers (fun k => k.ib == n)
        (s1.modLg (fun g => { g with hubHold := g.hubHold.mod n (fun x => { x with active := penned s (ibUnit n) }) })))
    else s

def execHoldoffEnd (d : Dir) (n : Nat) (s : State) : Host.Outcome State Fault Refusal := .next (holdoffEnd d n s)

/-- The factor of the scalar fit applied to every tap (R137). -/
def Canceller.fitted (k : Canceller) : Canceller :=
  { k with
    state := k.before
    weights := if k.fitDen = 0 then k.weights
      else k.weights.map (fun w => w.map (fun v => cRound k.fitDen (cMul k.fitNum v))) }

/-- After 1,024 admitted samples the scalar fit of RE_ACQUIRE completes and the previous C_cr applies again (R137). -/
def reacquireFitComplete (i : Nat) (s : State) : State :=
  if (s.lg.canc.get i).state = .reAcquire ∧ 1024 ≤ (s.lg.canc.get i).fitCount then
    refreshGains (s.modLg (fun g => { g with canc := g.canc.mod i Canceller.fitted }))
  else s

def execReacquireFitComplete (inst : Nat) (s : State) : Host.Outcome State Fault Refusal :=
  .next (reacquireFitComplete inst s)

/-- The snapshot is the model again, and C_cr counts as 0 until C is measured (R139). -/
def Canceller.restored (k : Canceller) : Canceller :=
  { k with restore := false, measured := false, weights := if k.snapshot then k.snap else k.weights }

/-- A diverged instance restores its snapshot at the next slot boundary (R139). -/
def cancellerSnapshotRestore (i : Nat) (s : State) : State :=
  if (s.lg.canc.get i).restore then
    refreshGains ((toNextSlot s).modLg (fun g => { g with canc := g.canc.mod i Canceller.restored }))
  else s

def execCancellerSnapshotRestore (inst : Nat) (s : State) : Host.Outcome State Fault Refusal :=
  .next (cancellerSnapshotRestore inst s)

/-- At a slot boundary an instance whose last C is its best since its cold start keeps a snapshot (R139). -/
def keepSnapshots (s : State) : State :=
  s.modLg (fun g => { g with canc := { g.canc with cells := g.canc.cells.map (fun p =>
    let k := p.2
    let better : Bool := match k.best with
      | some b => decide (b < k.c)
      | none => true
    if k.state != .idle && k.state != .diverged && k.measured && better then
      (p.1, { k with best := some k.c, snapshot := true, snap := k.weights })
    else p) } })

/-- Clusters set at new offsets: one that stays keeps what belongs to it, one that moves starts with zero taps (R136). -/
def Canceller.placed (aim : List Nat) (k : Canceller) : Canceller :=
  let keep {α : Type} (z : α) (l : List α) : List α := aim.map (fun o => if k.offsets.contains o then l.getD (k.offsets.idxOf o) z else z)
  { k with offsets := aim, weights := keep [] k.weights, snap := keep [] k.snap, rot := keep (tapUnit, 0) k.rot, dopp := keep 0 k.dopp }

/-- At a slot boundary an instance with automatic placement sets its clusters on the strongest regions of the latest PRE delay
profile (R136). -/
def placeClusters (s : State) : State :=
  s.modLg (fun g => { g with canc := { g.canc with cells := g.canc.cells.map (fun p =>
    let aim := p.2.regions.take p.2.clusters
    if p.2.auto_ && p.2.state != .idle && !aim.isEmpty && aim != p.2.offsets then (p.1, p.2.placed aim) else p) } })

/-- A hub cap is received for this part's band path (R131, R132). -/
def marginCapReceive (f : MarginCap) (s : State) : State :=
  if s.sys.role ≠ .hub ∧ f.member = ownMember s then
    modLoop f.eb (fun l => { l with hubNext := some (f.at_, f.cap), hubAt := now s }) s
  else s

def execMarginCapReceive (f : MarginCap) (s : State) : Host.Outcome State Fault Refusal := .next (marginCapReceive f s)

/-- A received cap takes effect at its instant; it is also the starting gain that R132 waits for (log entry 14). -/
def marginCapApply (e : Nat) (s : State) : State :=
  match s.lg.loops.get e with
  | some l =>
    (match l.hubNext with
     | some (i, c) =>
       refreshGains (writeCap e (modLoop e (fun x => { x with hubCap := some c, hubGrant := some c, hubNext := none })
         (advanceToAir i s)))
     | none => s)
  | none => s

def execMarginCapApply (eb : Nat) (s : State) : Host.Outcome State Fault Refusal := .next (marginCapApply eb s)

/-- M_cr has stayed below M_REQ for 100 ms (R151). -/
def marginLowTimeout (e : Nat) (s : State) : State :=
  match (s.lg.loops.get e).bind (·.lowSince) with
  | some t => raiseLevel { cls := 0x30, unit := ebUnit e } (advanceTo (t + tcOfMs 100) s)
  | none => s

def execMarginLowTimeout (eb : Nat) (s : State) : Host.Outcome State Fault Refusal := .next (marginLowTimeout eb s)

/-- A GUARDED or LADDER loop has had no valid measurement for 500 ms, or no hub cap for 100 ms (R151). -/
def beaconLossTimeout (e : Nat) (s : State) : State :=
  match s.ce.eb.get e, s.lg.loops.get e with
  | some b, some l =>
    if (l.state = .guarded ∨ l.state = .ladder) ∧ penned s (ebUnit e) = false then
      let own := l.lastValid + tcOfMs 500
      let t := if viaHub s b l then min own (l.hubAt + tcOfMs 100) else own
      raiseLevel { cls := 0x33, unit := ebUnit e } (advanceTo t s)
    else s
  | _, _ => s

def execBeaconLossTimeout (eb : Nat) (s : State) : Host.Outcome State Fault Refusal := .next (beaconLossTimeout eb s)

/-- The active hub receives an ADMIT_REQ and names a frame at least 4 frames ahead, which its placement uses too (R149). -/
def admitReqReceive (member : Nat) (s : State) : State :=
  if activeHub s then sendTo member (.admitGrant (frameBoundaryAhead s 4)) (bindPlan (frameBoundaryAhead s 4) s) else s

def execAdmitReqReceive (member : Nat) (s : State) : Host.Outcome State Fault Refusal := .next (admitReqReceive member s)

/-- A member receives the admission frame it asked for (R149). -/
def admitGrantReceive (f : Nat) (s : State) : State :=
  if s.lg.admitAsked then s.modLg (fun g => { g with admitFrame := some f, admitAsked := false }) else s

def execAdmitGrantReceive (frame : Nat) (s : State) : Host.Outcome State Fault Refusal := .next (admitGrantReceive frame s)

/-! ## Commands -/

/-- The settings of an LG_LOOP_CONFIG payload. -/
def loopConfigOf (p : List Byte) : LoopConfig :=
  { mReq := (u32 p 4 : Int), creditMax := (u32 p 8 : Int), qualHeadroom := (u32 p 12 : Int), qualPeriods := u16 p 16
    marginAvg := u16 p 18, capRise := u32 p 20, softRamp := u32 p 24, admitDeficit := (u32 p 28 : Int) }

/-- The instance that an LG_CANCEL_CONFIG payload describes; it starts cold (R137). -/
def cancellerFrom (s : State) (p : List Byte) : Canceller :=
  let old := s.lg.canc.get (u8 p 0)
  if u8 p 1 = 0 then { old with state := .idle }
  else
    coldStart { old with
      state := .cold, ib := u8 p 2, refFlow := u8 p 3 == 1, refId := u32 p 4, clusters := u8 p 8, auto_ := u8 p 9 == 0
      taps := u16 p 10, span := u32 p 12, mu := u16 p 16, doppler := u8 p 18 == 1
      offsets := (List.range (u8 p 8)).map (fun i => u32 p (20 + 4 * i))
      bulk := if u8 p 3 = 1 then s.dv.targetTc else 0 }

/-- The change of one loop-guard command at its slot boundary. After LG_CANCEL_CONTROL action 3 C_cr counts as 0 until C is measured
again, as after a restore by R139 (log entry 135). -/
def applyLg (s : State) (x : Nat × List Byte) : State :=
  let p := x.2
  if x.1 = 0x0501 then
    if u8 p 0 = 0 then
      let n := u8 p 1
      let s1 := s.modLg (fun g => { g with conducted := if u8 p 2 = 1 then n :: without g.conducted n else without g.conducted n })
      (fedBy s1 n).foldl (fun acc e => reviewClosure e acc) s1
    else modLoop (u8 p 1) (fun l => { l with config := loopConfigOf p }) s
  else if x.1 = 0x0503 then
    s.modLg (fun g => { g with canc := g.canc.set (u8 p 0) (cancellerFrom s p) })
  else if x.1 = 0x0504 then
    s.modLg (fun g => { g with canc := g.canc.mod (u8 p 0) (fun k =>
      if u8 p 1 = 0 then { k with before := k.state, state := .frozen }
      else if u8 p 1 = 1 then (if k.state = .frozen then { k with state := k.before } else k)
      else if u8 p 1 = 2 then coldStart k
      else k.restored) })
  else if x.1 = 0x0505 then
    s.modLg (fun g => { g with
      searchMask := uN p 0 16, lanes := (List.range 4).map (fun i => u8 p (16 + i)), trackedMax := u16 p 20
      sweep := u16 p 22, tracked := g.tracked.filter (fun t => (uN p 0 16).testBit t.ib), swept := Bank.fill 0, sweepAt := Bank.fill none })
  else
    s.modLg (fun g => { g with policy :=
      { oscMargin := (u32 p 0 : Int), oscGain := s32 p 4, lineGrowth := (u32 p 8 : Int), holdoff := u32 p 12
        mutesToPen := u8 p 16, penWindow := u16 p 18, retryDrop := (u32 p 20 : Int) } })

/-- The state with every waiting loop-guard change applied: what a later command is checked against. -/
def lgView (s : State) : State := (s.lg.waiting.foldl applyLg s).modLg (fun g => { g with waiting := [] })

/-- Waiting loop-guard changes take effect at a slot boundary. -/
def lgSlot (s : State) : State := if s.lg.waiting.isEmpty then s else refreshGains (lgView s)

/-- A change waits for the next slot boundary. -/
def lgWait (q : Req) (s : State) : State := s.modLg (fun g => { g with waiting := g.waiting ++ [(q.opcode, q.payload)] })

/-- LG_LOOP_CONFIG (0x0501). -/
def specLgLoopConfig : CommandSpec where
  opcode := 0x0501
  role := some .operate
  power := activeOrQuiet
  length := fixedLength 32
  states := roleSet
  checks := fun s q =>
    let p := q.payload
    [field 0 (within 0 1 (u8 p 0)), field 1 (within 0 127 (u8 p 1) && (bandPath s (dirOf (u8 p 0)) (u8 p 1)).isSome),
     field 2 (if u8 p 0 = 0 then within 0 1 (u8 p 2) else u8 p 2 == 0), field 3 (zeros p 3 1),
     field 4 (within 600 3000 (u32 p 4)), field 8 (within 0 3000 (u32 p 8)), field 12 (within 0 2000 (u32 p 12)),
     field 16 (within 1 64 (u16 p 16)), field 18 (within 1 64 (u16 p 18)), field 20 (within 10 10000 (u32 p 20)),
     field 24 (within 0 60000 (u32 p 24)), field 28 (within 0 4000 (u32 p 28))]
  effect := fun s q => (lgWait q s, {})

def execLgLoopConfig (r : HostRequest) (s : State) : Host.Outcome State Fault Refusal := .next (submit specLgLoopConfig r s)

/-- The settings of an LG_BEACON_CONFIG payload. -/
def beaconOf (p : List Byte) : BeaconConfig :=
  { nMax := u8 p 1, identity := u8 p 2 == 1, explicit_ := if u8 p 3 = 1 then some (u32 p 4) else none
    rel := s32 p 8, floor := s32 p 12, prefixMin := u16 p 16 }

/-- LG_BEACON_CONFIG (0x0502). Its code_index has no meaning while code_mode is 0 and is not checked then (log entry 139). -/
def specLgBeaconConfig : CommandSpec where
  opcode := 0x0502
  role := some .operate
  power := activeOrQuiet
  length := fixedLength 20
  states := roleSet
  checks := fun s q =>
    let p := q.payload
    let e := u8 p 0
    let b := beaconOf p
    let n := degreeOf s e b
    [field 0 (ebExists s e), field 1 (within 10 16 (u8 p 1)), field 2 (within 0 1 (u8 p 2)), field 3 (within 0 1 (u8 p 3)),
     field 4 (u8 p 3 == 0 || decide (u32 p 4 ≤ 2 ^ n)), field 8 (withinI (-4000) (-2000) (s32 p 8)),
     field 12 (withinI (-9000) (-5000) (s32 p 12)),
     field 16 (within 0 100 (u16 p 16) && codeFits (ebPeriod s e) (u16 p 16) 10), field 18 (zeros p 18 2),
     need .eConflict (u8 p 3 == 0 || (ebs s).all (fun y => y.1 == e ||
       (match s.ce.eb.get e, s.lg.loops.get y.1 with
        | some me, some l => !overlaps me.params y.2.params || codeIndex s y.1 (l.beaconNext.getD l.beacon) != u32 p 4
        | _, _ => true)))]
  effect := fun s q =>
    let p := q.payload
    let e := u8 p 0
    let b := beaconOf p
    (modLoop e (fun l => { l with beaconNext := some b }) s,
     { payload := le 1 (degreeOf s e b) ++ le 3 0 ++ le 4 (periodOf s e b) ++ le 4 (prefixChips s e b) ++
         le 4 (codeIndex s e b) })

def execLgBeaconConfig (r : HostRequest) (s : State) : Host.Outcome State Fault Refusal :=
  .next (submit specLgBeaconConfig r s)

/-- LG_CANCEL_CONFIG (0x0503). -/
def specLgCancelConfig : CommandSpec where
  opcode := 0x0503
  role := some .operate
  power := activeOrQuiet
  length := fixedLength 52
  states := fun s q => s.sys.role != .unset && !(u8 q.payload 1 == 1 && u8 q.payload 3 == 1 && s.sys.role != .hub)
  checks := fun s0 q =>
    let s := lgView s0
    let p := q.payload
    let on := u8 p 1 == 1
    let i := u8 p 0
    let ib := u8 p 2
    let per := samplePeriod (((s.ce.ib.get ib).map (fun b => (aimedParams b).stages)).getD 1)
    let taps := u16 p 10
    let span := u32 p 12
    let used := tapsUsed (s.modLg (fun g => { g with canc := g.canc.set i (cancellerFrom s p) }))
    [field 0 (within 0 31 i), field 1 (within 0 1 (u8 p 1)), field 2 (!on || ibExists s ib),
     field 3 (!on || within 0 1 (u8 p 3)),
     field 4 (!on || (if u8 p 3 = 0 then within 0 127 (u32 p 4) else within 0 262143 (u32 p 4))),
     field 8 (!on || within 1 8 (u8 p 8)), field 9 (!on || within 0 1 (u8 p 9)),
     field 10 (!on || (within 16 256 taps && taps % 16 == 0)),
     field 12 (!on || (within 1 39322 span && decide (u8 p 8 * taps * per ≤ span))),
     field 16 (!on || within 1 16384 (u16 p 16)), field 18 (!on || within 0 1 (u8 p 18)), field 19 (!on || zeros p 19 1)] ++
    (List.range 8).map (fun k => field 20 (!on || u8 p 9 == 0 || decide (u8 p 8 ≤ k) ||
      decide ((u32 p (20 + 4 * k) + taps) * per ≤ span))) ++
    [need .eResource (!on || decide (used ≤ tapBudget)),
     need .eConflict (!on || (if u8 p 3 = 0 then
         (match s.ce.eb.get (u32 p 4), s.ce.ib.get ib with
          | some e, some x => !(aimedParams e).srcFlow && (aimedParams e).srcId == ib &&
              (aimedParams e).stages == (aimedParams x).stages
          | _, _ => false)
       else (flowsOf s ib).contains (u32 p 4))),
     need .eConflict (!on || s.lg.canc.cells.all (fun y => y.1 == i || y.2.state == .idle || y.2.ib != ib))]
  effect := fun s0 q =>
    let s := lgView s0
    let p := q.payload
    let k := cancellerFrom s p
    let s1 := s.modLg (fun g => { g with canc := g.canc.set (u8 p 0) k })
    (lgWait q s0, { payload := le 4 k.bulk ++ le 4 0 ++ le 8 (tapCost s1 k) ++ le 8 (tapsUsed s1) })

def execLgCancelConfig (r : HostRequest) (s : State) : Host.Outcome State Fault Refusal :=
  .next (submit specLgCancelConfig r s)

/-- LG_CANCEL_CONTROL (0x0504). -/
def specLgCancelControl : CommandSpec where
  opcode := 0x0504
  role := some .operate
  power := activeOrQuiet
  length := fixedLength 4
  states := fun s q =>
    s.sys.role != .unset && (u8 q.payload 1 != 3 || ((lgView s).lg.canc.get (u8 q.payload 0)).snapshot ||
      ((lgView s).lg.canc.get (u8 q.payload 0)).state == .idle)
  checks := fun s q =>
    [field 0 (within 0 31 (u8 q.payload 0) && ((lgView s).lg.canc.get (u8 q.payload 0)).state != .idle),
     field 1 (within 0 3 (u8 q.payload 1)), field 2 (zeros q.payload 2 2)]
  effect := fun s q => (lgWait q s, {})

def execLgCancelControl (r : HostRequest) (s : State) : Host.Outcome State Fault Refusal :=
  .next (submit specLgCancelControl r s)

/-- LG_SEARCH_CONFIG (0x0505). -/
def specLgSearchConfig : CommandSpec where
  opcode := 0x0505
  role := some .operate
  power := activeOrQuiet
  length := fixedLength 24
  states := fun s _ => s.sys.role == .hub
  checks := fun s q =>
    let p := q.payload
    let l := mask128 p 0
    let lanes := (List.range 4).map (fun k => u8 p (16 + k))
    [field 0 (l.all (fun n => ibExists s n && donorFacing s (ibChain s n) && !(lgView s).lg.conducted.contains n))] ++
    (List.range 4).map (fun k => field 16 (u8 p (16 + k) == 0 || within 10 16 (u8 p (16 + k)))) ++
    [field 20 (within 1 256 (u16 p 20)), field 22 (within 1 64 (u16 p 22)),
     need .eConflict (l.all (fun n => match s.ce.ib.get n with
       | some b => lanes.contains (searchDegree (samplePeriod (aimedParams b).stages))
       | none => true))]
  effect := fun s q => (lgWait q s, {})

def execLgSearchConfig (r : HostRequest) (s : State) : Host.Outcome State Fault Refusal :=
  .next (submit specLgSearchConfig r s)

/-- LG_POLICY (0x0506). -/
def specLgPolicy : CommandSpec where
  opcode := 0x0506
  role := some .admin
  power := activeOrQuiet
  length := fixedLength 24
  states := roleSet
  checks := fun _ q =>
    let p := q.payload
    [field 0 (within 100 600 (u32 p 0)), field 4 (withinI (-600) (-100) (s32 p 4)), field 8 (within 300 2000 (u32 p 8)),
     field 12 (within 100 60000 (u32 p 12)), field 16 (within 1 10 (u8 p 16)), field 17 (zeros p 17 1),
     field 18 (within 10 3600 (u16 p 18)), field 20 (within 0 3000 (u32 p 20))]
  effect := fun s q => (lgWait q s, {})

def execLgPolicy (r : HostRequest) (s : State) : Host.Outcome State Fault Refusal := .next (submit specLgPolicy r s)

end Sys2Proof.Machine
end

