-- ==== Sys2Proof/Machine/Flock.lean ====
section
/-! DEFINITION. Flock links and membership (R259–R284): lanes and ports, time transfer, the choice of the upstream path,
joining, leaving and loss, and the commands of the flock fabric. Flits and their control frames stand in
Machine/Fabric.lean. -/

namespace Sys2Proof.Machine

open Sys2Proof

/-! ## HELLO (R273, R274) -/

/-- Hop count of this part: 0 on a hub, else its upstream peer's plus 1 while it is JOINED (R274). -/
def hopCount (s : State) : Option Nat :=
  if s.sys.role = .hub then some 0
  else if s.fl.state = .joined then
    (s.fl.primary.bind (fun p => ((s.fl.ports.get p).peer.bind (·.hops)))).map (· + 1)
  else none

/-- The part accepts and forwards joins (FL_STATUS.ADMITTING). -/
def admitting (s : State) : Bool := s.air.acquired && (activeHub s || s.fl.state == .joined)

/-- The HELLO that a port sends, with a fresh nonce. -/
def helloOf (s : State) (p : Nat) (nonce : BitVec 128) : Hello :=
  { flockId := s.fl.config.flockId.getD 0, serial := Config.serial, member := s.fl.memberId, hops := hopCount s
    primary := s.fl.primary == some p, hub := s.sys.role == .hub, acquired := s.air.acquired
    admitting := admitting s, port := p, lanes := (s.fl.ports.get p).lanes.length, nonce }

/-- One HELLO leaves on a port. -/
def sendHello (p : Nat) (s : State) : State :=
  let d := draw s
  let n := Config.nonce d.1
  sendLink p (.hello (helloOf s p n)) (modPort p (fun x => { x with noncePrev := x.nonce, nonce := n }) d.2)

/-- HELLO on every trained port, once per frame and at once on any change. A part without a FLOCK_ID sends none, since
the field must not be zero. -/
def sendHellos (s : State) : State :=
  if s.fl.config.flockId.isNone then s
  else ((List.range 12).filter (portTrained s)).foldl (fun acc p => sendHello p acc) s

/-! ## The upstream path (R275, R276, R283) -/

/-- Hops that the peer of a port advertises. -/
def peerHops (s : State) (p : Nat) : Option Nat := (s.fl.ports.get p).peer.bind (·.hops)

/-- A port is eligible as upstream (R275). -/
def eligible (s : State) (p : Nat) : Bool :=
  portUp s p && ((s.fl.ports.get p).config.function == .up || (s.fl.ports.get p).config.function == .ring) &&
    (match peerHops s p with
     | some h => decide (h ≤ 63)
     | none => false) && !peerPrimary s p

/-- FLOCK_INFO: the member ID of the part's bellwether (R41, R42). In a flock that is member 0; a part that is its own bellwether
gives its own ID, and 0xFFFF stands for none, as in HELLO (log entry 121). -/
def bellwetherId (s : State) : Nat :=
  if bellwether s then s.fl.memberId.getD 0xFFFF else if s.sys.role = .unset then 0xFFFF else 0

/-- FLOCK_INFO: hops to the bellwether: none for the bellwether itself, one for a standby hub, which takes air time from its
peer, and else the primary upstream peer's hops plus one. 0xFF stands for no path, as in HELLO (R42, R274, log entry 121). -/
def bellwetherHops (s : State) : Nat :=
  if bellwether s then 0
  else if s.sys.role = .hub then (if (mirrorPort s).isSome then 1 else 0xFF)
  else ((s.fl.primary.bind (peerHops s)).map (· + 1)).getD 0xFF

/-- Order of eligible ports: lower peer hops, then UP before RING, then the lower port number. -/
def portRank (s : State) (p : Nat) : Nat :=
  (peerHops s p).getD 255 * 64 + (if (s.fl.ports.get p).config.function = .up then 0 else 32) + p

/-- The best eligible port of a list. -/
def bestPort (s : State) (l : List Nat) : Option Nat :=
  (l.filter (eligible s)).foldl (fun best p => match best with
    | none => some p
    | some b => if portRank s p < portRank s b then some p else some b) none

/-- The alternate upstream: the next eligible port, if any. -/
def chooseAlternate (s : State) : State :=
  match s.fl.primary with
  | some p =>
    let a := match s.fl.alternate with
      | some x => if eligible s x ∧ x ≠ p then some x else bestPort s (without (List.range 12) p)
      | none => bestPort s (without (List.range 12) p)
    s.modFl (fun f => { f with alternate := a })
  | none => s.modFl (fun f => { f with alternate := none })

/-- A re-homed member reports its new place to the hub. -/
def sendRehome (s : State) : State :=
  match s.fl.primary with
  | some p =>
    let peer := (s.fl.ports.get p).peer
    sendUp (.rehome (ownMember s) ((peer.bind (·.member)).getD 0) ((hopCount s).getD 0)) s
  | none => s

/-- A port becomes the primary upstream. A REHOMING member is JOINED again, advertises its new hop count and sends REHOME
(R283); another member has a path. -/
def takePrimary (p : Nat) (s : State) : State :=
  let s1 := chooseAlternate (s.modFl (fun f => { f with primary := some p, rehomes := f.rehomes + 1 }))
  match s.fl.state with
  | .rehoming => sendHellos (sendRehome (s1.modFl (fun f => { f with state := .joined })))
  | .detached =>
    if s.fl.config.joinEnabled then s1.modFl (fun f => { f with state := .timeQual }) else s1
  | _ => s1

/-- A member without a primary takes the best eligible port (R275). -/
def choosePath (s : State) : State :=
  if s.sys.role = .hub ∨ s.sys.role = .unset then s
  else match s.fl.primary with
    | some _ => chooseAlternate s
    | none =>
      match bestPort s (List.range 12) with
      | some p => takePrimary p s
      | none => s

/-- The port from which FLOCK is taken: the primary upstream, the alternate while the primary has failed and the alternate is
QUALIFYING or USABLE, or the first mirror port of a standby hub (R36, R472). -/
def flockPort (s : State) : Option Nat :=
  if s.sys.role = .hub then (if standbyHub s then mirrorPort s else none)
  else match s.fl.primary, s.fl.alternate with
    | some p, some a => if (s.fl.ports.get p).ttFailed ∧ 0 < (s.fl.ports.get a).ttRun then some a else some p
    | some p, none => some p
    | none, _ => none

/-- FLOCK goes on from the port it is now taken from if that port is QUALIFYING or USABLE, and fails otherwise (R36). -/
def followFlock (s : State) : State :=
  match flockPort s with
  | some q => if 0 < (s.fl.ports.get q).ttRun then s else failSource srcFlock s
  | none => failSource srcFlock s

/-- The primary upstream is given up (R283): a JOINED member enters REHOMING and tells those below; with an alternate it takes
that at once. -/
def leavePrimary (s : State) : State :=
  let old := s.fl.primary
  let s1 := s.modFl (fun f => { f with primary := none })
  match s.fl.state with
  | .joined | .rehoming =>
    let s2 := sendBelow .pathDown (s1.modFl (fun f => { f with state := .rehoming, rehomeFrom := s.air.frame }))
    (match s.fl.alternate with
     | some a => if some a ≠ old ∧ eligible s2 a then takePrimary a s2 else choosePath s2
     | none => choosePath s2)
  | .timeQual | .joinWait | .backoff =>
    choosePath (s1.modFl (fun f => { f with state := if f.memberId.isSome then .orphan else .detached, grant := none }))
  | _ => choosePath s1

/-- The primary upstream is lost (R283); air time follows to the port that takes its place, or FLOCK fails (R36). -/
def losePrimary (s : State) : State := followFlock (leavePrimary s)

/-! ## Time transfer (R36, R271, R272) -/

/-- A port no longer delivers time: its run of exchanges ends. -/
def failTimePort (p : Nat) (s : State) : State := modPort p (fun x => { x with ttRun := 0, t1 := none, ttFailed := true }) s

/-- A lane of a port has gone down, or its exchanges have stopped. If FLOCK was taken from it and the alternate is not
QUALIFYING or USABLE, FLOCK fails (R32, R36). -/
def timePortLost (p : Nat) (s : State) : State :=
  let s1 := failTimePort p s
  if flockPort s = some p then followFlock s1 else s1

/-- Four frames pass without a valid time-transfer exchange: the port fails, and FLOCK with it unless the alternate is QUALIFYING
or USABLE (table *Timing sources*, R36). -/
def flockSourceTimeout (s : State) : State :=
  let x := s.air.sources.get srcFlock
  if x.state = .usable ∨ x.state = .qualifying then
    let s1 := advanceTo (x.lastAt + 4 * tcPerFrame) s
    match flockPort s1 with
    | some p => timePortLost p s1
    | none => failSource srcFlock s1
  else s

def execFlockSourceTimeout (s : State) : Host.Outcome State Fault Refusal := .next (flockSourceTimeout s)

/-- Picoseconds in 1/16 Tc, rounded towards zero. -/
def sixteenths (ps : Int) : Int := (ps * 196608 * 16).tdiv 100000000

/-- The air-time instant now, 1/16 Tc. -/
def nowSixteenths (s : State) : Nat := (airCount s.air).toNat / 4096

/-- A TT_REQ is received: t2 is its arrival, t3 the departure of the response, which follows by a time that the spec does
not fix. -/
def ttReq (p _t1 : Nat) (s : State) : State :=
  if portUp s p then
    let d := draw s
    let t2 := nowSixteenths s
    sendLink p (.ttResp t2 (t2 + Config.freeNat d.1)) d.2
  else s

def execTtReq (port t1 : Nat) (s : State) : Host.Outcome State Fault Refusal := .next (ttReq port t1 s)

/-- A valid exchange counts towards FLOCK on the port from which FLOCK is taken (R32, R36). -/
def flockExchange (p : Nat) (phase : Int) (bound : Nat) (freq : Int) (s : State) : State :=
  if flockPort s = some p then
    let x := s.air.sources.get srcFlock
    if x.state = .absent ∨ x.state = .failed then s
    else
      let s1 := measureSource srcFlock phase bound freq (s.modAir (fun a => { a with
        sources := a.sources.mod srcFlock (fun y => { y with
          state := if y.state = .searching then .qualifying else y.state, run := (s.fl.ports.get p).ttRun }) }))
      if 4 ≤ (s.fl.ports.get p).ttRun then becomeUsable srcFlock s1 else s1
  else s

/-- A TT_RESP is received: link delay, peer offset, and the FLOCK measurement with the peer's error bound and this hop's
own 1.5 ns plus ASYM_UNC (R271, R272). The exchange is invalid when 2 ms or more have passed. -/
def ttResp (p t2 t3 bound : Nat) (freq : Int) (s : State) : State :=
  let x := s.fl.ports.get p
  match x.t1 with
  | none => s
  | some t1 =>
    let t4 := nowSixteenths s
    let s1 := modPort p (fun y => { y with t1 := none }) s
    if portUp s p ∧ (t4 : Int) - t1 < 2 * tcPerMs * 16 then
      let asym := sixteenths x.config.asym
      let signed := if portUse s p = 3 then -asym else asym
      let there : Int := (t2 : Int) - t1
      let back : Int := (t4 : Int) - t3
      let d := (there + back - signed).tdiv 2
      let o := (there - back - asym).tdiv 2
      let s2 := modPort p (fun y => { y with
        delay := d, offset := o, ttRun := y.ttRun + 1, ttFailed := y.ttFailed && decide (y.ttRun < 3), ttLast := now s, ttValid := y.ttValid + 1 }) s1
      flockExchange p (o * 4096) (bound + 1500 + x.config.asymUnc) freq s2
    else modPort p (fun y => { y with ttRun := 0 }) s1

def execTtResp (port t2 t3 bound : Nat) (freq : Int) (s : State) : Host.Outcome State Fault Refusal :=
  .next (ttResp port t2 t3 bound freq s)

/-! ## Lanes (R266–R270) -/

/-- Drover takes note of a change of a port's lane set (R305). On a member the hub learns of it from STATUS. -/
def placementTrigger (s : State) : State := if activeHub s then s.modDv (fun d => { d with trigger := true }) else s

/-- The lanes of a port as a mask of places within the port. -/
def laneMask (s : State) (p : Nat) (l : List Nat) : Nat :=
  maskOf ((List.range (portLanes s p).length).filter (fun k => l.contains ((portLanes s p).getD k 99)))

/-- Members reached directly through a port. -/
def directChildren (s : State) (p : Nat) : List Nat :=
  (s.fl.below.cells.filter (fun x => match x.2 with
    | some (q, parent, _) => q == p && parent == ownMember s
    | none => false)).map (·.1)

/-- A port has lost its last lane, or its flock (R269, R281, R283). -/
def portDown (p : Nat) (s : State) : State :=
  let s1 := modPort p (fun x => { x with
    peer := none, childDown := if (directChildren s p).isEmpty then none else some (now s) }) s
  let s2 := failTimePort p (if s.fl.alternate = some p then s1.modFl (fun f => { f with alternate := none }) else s1)
  let s3 := if s.fl.primary = some p then losePrimary s2 else chooseAlternate s2
  if flockPort s = some p then followFlock s3 else s3

/-- The consequences of a lane that no longer serves its port. -/
def reviewPort (p : Nat) (wasUp : Bool) (s : State) : State :=
  if wasUp ∧ portUp s p = false then portDown p s else s

/-- A lane is withdrawn from its port, and the peer is told on the lanes that remain (R269). -/
def withdrawLane (l : Nat) (s : State) : State :=
  let p := portOfLane s l
  let s1 := modLane l (fun x => { x with qualLeft := 0, offered := false }) s
  if (s.fl.ports.get p).lanes.contains l then
    let rest := without (s.fl.ports.get p).lanes l
    let s2 := modPort p (fun x => { x with lanes := rest }) s1
    placementTrigger (if rest.isEmpty then s2 else sendLink p (.laneSet (laneMask s2 p rest) s.air.frame) s2)
  else s1

/-- The temperature sensor of a lane's PLL group, MT7–MT9. -/
def laneSensor (l : Nat) : Nat := 7 + l / 8

/-- A powered lane detects signal: CDR lock and equaliser training begin from the preset of its band (R266). -/
def signalDetect (l : Nat) (s : State) : State :=
  if (s.fl.lanes.get l).state = .signalWait ∧ (s.fl.lanes.get l).retrainAt = none then
    modLane l (fun x => { x with
      state := .training, since := now s, trainings := x.trainings + 1
      band := (s.hk.sensors.get (laneSensor l)).usedBand }) s
  else s

def execSignalDetect (l : Nat) (s : State) : Host.Outcome State Fault Refusal := .next (signalDetect l s)

/-- A lane completes training, alignment and the HELLO exchange. One that has been UP before qualifies first (R270). -/
def laneUp (l : Nat) (precoding : Bool) (s : State) : State :=
  let x := s.fl.lanes.get l
  let p := portOfLane s l
  if (x.state = .training ∨ x.state = .aligning) ∧ (s.fl.ports.get p).mismatch = false ∧
      now s ≤ x.since + tcOfMs 50 then
    let again := x.wasUp
    let s1 := endFault 0x80 (laneUnit l) (modLane l (fun y => { y with
      state := .up, precoding, trainTime := (now s - x.since) * 100 / 196608, wait := 100, retrainAt := none
      wasUp := true, badRun := 0, serRun := 0, qualLeft := if again then s.fl.config.laneQual else 0 }) s)
    let s2 := if again ∨ laneHeld s l then s1
      else placementTrigger (modPort p (fun y => { y with
        lanes := (portLanes s p).filter (fun k => k == l || y.lanes.contains k), childDown := none }) s1)
    choosePath (modPort p (fun y => { y with childDown := none }) s2)
  else s

def execLaneUp (l : Nat) (precoding : Bool) (s : State) : Host.Outcome State Fault Refusal := .next (laneUp l precoding s)

/-- A lane is not UP within 50 ms: it returns to SIGNAL_WAIT. One that had been lost waits twice as long (R266, R268). -/
def laneTrainTimeout (l : Nat) (s : State) : State :=
  let x := s.fl.lanes.get l
  if x.state = .training ∨ x.state = .aligning then
    let s1 := advanceTo (x.since + tcOfMs 50) s
    let w := min (2 * x.wait) 10000
    modLane l (fun y => { y with
      state := .signalWait, wait := if y.wasUp then w else y.wait
      retrainAt := if y.wasUp then some (now s1 + tcOfMs w) else none }) s1
  else s

def execLaneTrainTimeout (l : Nat) (s : State) : Host.Outcome State Fault Refusal := .next (laneTrainTimeout l s)

/-- Code of a lane loss, for the class detail of LANE_DOWN. -/
def laneLossCode : LaneLoss → Nat
  | .signal => 1 | .fecLock => 2 | .uncorrectable => 3

/-- An UP lane goes DOWN (R268, R269). -/
def laneDown (l : Nat) (why : LaneLoss) (s : State) : State :=
  let x := s.fl.lanes.get l
  let p := portOfLane s l
  if x.state = .up ∧ (why ≠ .uncorrectable ∨ 2 ≤ x.badRun) then
    let was := portUp s p
    let s1 := withdrawLane l (modLane l (fun y => { y with
      state := .down, lastDown := now s, retrainAt := some (now s + tcOfMs y.wait), badRun := 0, serRun := 0 }) s)
    let s2 := raiseLevel { cls := 0x80, unit := laneUnit l, detail4 := laneLossCode why, detail5 := p } s1
    if was ∧ portUp s2 p = false then portDown p s2 else timePortLost p s2
  else s

def execLaneDown (l : Nat) (why : LaneLoss) (s : State) : Host.Outcome State Fault Refusal := .next (laneDown l why s)

/-- The retrain wait of a lost lane ends (R268). -/
def retrainBackoffExpiry (l : Nat) (s : State) : State :=
  match (s.fl.lanes.get l).retrainAt with
  | some t => modLane l (fun y => { y with
      retrainAt := none, state := if y.state = .down then .signalWait else y.state }) (advanceTo t s)
  | none => s

def execRetrainBackoffExpiry (l : Nat) (s : State) : Host.Outcome State Fault Refusal := .next (retrainBackoffExpiry l s)

/-- LANE_SER_WARN after 100 consecutive frames (R268). -/
def laneSerWarn (l : Nat) (s : State) : State :=
  let x := s.fl.lanes.get l
  if 100 ≤ x.serRun then postNotice 0x0A02 l x.ser (modLane l (fun y => { y with serRun := 0 }) s) else s

def execLaneSerWarn (l : Nat) (s : State) : Host.Outcome State Fault Refusal := .next (laneSerWarn l s)

/-- A returned lane has completed its qualification and is offered to Drover (R270, R310). -/
def laneQualComplete (l : Nat) (s : State) : State :=
  let x := s.fl.lanes.get l
  if x.state = .up ∧ x.wasUp ∧ x.qualLeft = 0 ∧ x.offered = false ∧ laneHeld s l = false ∧
      (s.fl.ports.get (portOfLane s l)).lanes.contains l = false then
    placementTrigger ((modLane l (fun y => { y with offered := true }) s).modFault (fun f => { f with
      paddock := f.paddock.filter (· != laneUnit l) }))
  else s

def execLaneQualComplete (l : Nat) (s : State) : Host.Outcome State Fault Refusal := .next (laneQualComplete l s)

/-- The lanes of a port that may carry data. -/
def usableLanes (s : State) (p : Nat) : List Nat :=
  (portLanes s p).filter (fun l => (s.fl.lanes.get l).state == .up && !laneHeld s l)

/-- Every port with offered lanes names the plan's frame in a LANE_SET (R310). -/
def nameLanes (frame : Nat) (s : State) : State :=
  (List.range 12).foldl (fun acc p =>
    let add := (usableLanes acc p).filter (fun l => (acc.fl.lanes.get l).offered)
    if add.isEmpty then acc
    else
      let set := (portLanes acc p).filter (fun l => add.contains l || (acc.fl.ports.get p).lanes.contains l)
      sendLink p (.laneSet (laneMask acc p set) frame) (modPort p (fun x => { x with laneNext := some (frame, set) }) acc)) s

/-- LANE_SET from the peer: at once after a loss, else at the frame it names (R269, R310). -/
def laneSet (p mask frame : Nat) (s : State) : State :=
  let set := ((List.range (portLanes s p).length).filter (fun k => mask.testBit k)).map (fun k => (portLanes s p).getD k 0)
  if frameDistance s frame = 0 then
    placementTrigger (modPort p (fun x => { x with lanes := x.lanes.filter (fun l => set.contains l) }) s)
  else modPort p (fun x => { x with laneNext := some (frame, set) }) s

def execLaneSet (port lanes frame : Nat) (s : State) : Host.Outcome State Fault Refusal := .next (laneSet port lanes frame s)

/-- At the named frame the port's flit distribution changes (R270, R310). -/
def laneSetApply (p : Nat) (s : State) : State :=
  match (s.fl.ports.get p).laneNext with
  | some (f, set) =>
    let s1 := advanceToAir ⟨f, 0⟩ s
    let use := set.filter (fun l => (usableLanes s1 p).contains l)
    use.foldl (fun acc l => modLane l (fun y => { y with offered := false, qualLeft := 0 }) acc)
      (modPort p (fun x => { x with lanes := use, laneNext := none }) s1)
  | none => s

def execLaneSetApply (port : Nat) (s : State) : Host.Outcome State Fault Refusal := .next (laneSetApply port s)

/-- The lanes of a port are powered and wait for signal (R261, R266). -/
def powerPort (p : Nat) (s : State) : State :=
  if s.sys.role = .unset then s else
  (portLanes s p).foldl (fun acc l => modLane l (fun y => if y.state = .off then { y with state := .signalWait } else y) acc) s

/-- 5 ms after reset the UP and RING ports power their lanes (R261). -/
def portTrainingStart (s : State) : State :=
  ((List.range 12).filter (fun p => (s.fl.ports.get p).config.function == .up ||
    (s.fl.ports.get p).config.function == .ring)).foldl (fun acc p => powerPort p acc)
    (advanceTo (s.sys.lastReset + tcOfMs 5) s)

def execPortTrainingStart (s : State) : Host.Outcome State Fault Refusal := .next (portTrainingStart s)

/-- DOWN and MIRROR ports train once READY is set (R261). -/
def trainDownPorts (s : State) : State :=
  ((List.range 12).filter (fun p => (s.fl.ports.get p).config.function == .down ||
    (s.fl.ports.get p).config.function == .mirror)).foldl (fun acc p => powerPort p acc) s

/-- A port's lanes are unpowered. -/
def unpowerLanes (l : List Nat) (s : State) : State :=
  l.foldl (fun acc k => modLane k (fun y => { y with
    state := .off, qualLeft := 0, offered := false, retrainAt := none, prbs := none }) acc) s

/-! ## HELLO received (R273–R276) -/

/-- Two peers have set flag [0] towards each other: the one with more hops, then the higher member ID, withdraws (R275). -/
def mustWithdraw (s : State) (p : Nat) (h : Hello) : Bool :=
  s.fl.primary == some p && h.primary &&
    (match hopCount s, h.hops with
     | some a, some b => decide (b < a) || (a == b && decide (h.member.getD 0 < ownMember s))
     | some _, none => false
     | none, _ => true)

/-- Lanes in training have exchanged a HELLO: FEC and alignment stand. -/
def alignLanes (p : Nat) (s : State) : State :=
  (portLanes s p).foldl (fun acc l => modLane l (fun y => if y.state = .training then { y with state := .aligning } else y)
    acc) s

/-- After a split a member whose ID the hub of a pair holds for another serial is told to leave; it joins anew (R479). -/
def displace (p : Nat) (h : Hello) (s : State) : State :=
  match h.member with
  | some m =>
    (match s.fl.members.get m with
     | some r =>
       if activeHub s && s.pair.config.enable && r.serial != h.serial then
         enqueue p ⟨{ ownHead s with dest := m }, .leaveAck m (frameBoundaryAhead s 4) 3⟩ s
       else s
     | none => s)
  | none => s

/-- A HELLO is received on a port. -/
def hello (p : Nat) (h : Hello) (s : State) : State :=
  if portTrained s p = false then s
  else if s.fl.config.flockId ≠ some h.flockId then
    let was := portUp s p
    reviewPort p was ((portLanes s p).foldl (fun acc l => modLane l (fun y =>
        if y.state = .up ∨ y.state = .training then { y with state := .aligning, since := now s } else y) acc)
      (modPort p (fun x => { x with mismatch := true, mismatches := x.mismatches + 1, lanes := [] }) s))
  else
    let s1 := alignLanes p (modPort p (fun x => { x with mismatch := false, peer := some h }) s)
    let s2 := match h.member with
      | some m =>
        if portUse s1 p = 3 ∧ h.primary then
          s1.modFl (fun f => { f with below := f.below.set m (some (p, ownMember s1, (match f.below.get m with
            | some (_, _, t) => t
            | none => now s))) })
        else s1
      | none => s1
    let s3 := displace p h <|
      if mustWithdraw s2 p h then losePrimary s2
      else if s2.fl.primary = some p ∧ 63 < h.hops.getD 64 then losePrimary s2
      else s2
    choosePath s3

def execHello (port : Nat) (h : Hello) (s : State) : Host.Outcome State Fault Refusal := .next (hello port h s)

/-! ## Joining: the member's side (R277, R280) -/

/-- The authentication tag: HMAC-SHA-384 over bytes 0–39, keyed with the flock key, its first 128 bits (R279). -/
def joinTag (key : List Byte) (r : JoinReq) : BitVec 128 := (Config.hmacSha384 key (joinBytes r)).extractLsb' 256 128

/-- Every condition of R277 for sending, and a flock key to sign with. -/
def mayJoin (s : State) : Bool :=
  s.sys.ready && s.fl.config.joinEnabled && s.fl.primary.isSome && s.air.lock == .locked && s.air.source == srcFlock &&
    s.sys.keys.flock.isSome

/-- The request that this part makes now. -/
def ownRequest (s : State) : JoinReq :=
  let peer := s.fl.primary.bind (fun p => (s.fl.ports.get p).peer)
  let re := s.fl.rejoin && s.fl.heldId.isSome
  let r : JoinReq :=
    { rejoin := re, role := s.sys.role.code, member := if re then s.fl.heldId else s.fl.config.prefId
      serial := Config.serial, fw := s.sys.firmware, hops := ((peer.bind (·.hops)).getD 0) + 1
      lifecycle := s.sys.lifecycle.code, parent := (peer.bind (·.member)).getD 0
      nonce := (peer.map (·.nonce)).getD 0, tag := 0 }
  { r with tag := joinTag (s.sys.keys.flock.getD []) r }

/-- JOIN_REQ or REJOIN is sent and the member waits for its answer. -/
def sendJoin (s : State) : State :=
  match s.fl.primary with
  | some p =>
    (enqueue p ⟨{ src := none, up := true }, .joinReq (ownRequest s)⟩ s).modFl (fun f => { f with
      state := .joinWait, sentAt := s.air.frame, attempts := f.attempts + 1, grant := none })
  | none => s

/-- The conditions of R277 have come to hold. -/
def joinReqSend (s : State) : State :=
  if mayJoin s ∧ (s.fl.state = .timeQual ∨ s.fl.state = .orphan) then sendJoin s else s

def execJoinReqSend (s : State) : Host.Outcome State Fault Refusal := .next (joinReqSend s)

/-- 16 frames without an answer: the member sends again (R277). -/
def joinRespTimeout (s : State) : State :=
  if s.fl.state = .joinWait ∧ s.fl.grant = none then
    let s1 := advanceToAir ⟨(s.fl.sentAt + 16) % 4294967296, 0⟩ s
    if mayJoin s1 then sendJoin s1
    else s1.modFl (fun f => { f with state := if f.memberId.isSome then .orphan else .timeQual })
  else s

def execJoinRespTimeout (s : State) : Host.Outcome State Fault Refusal := .next (joinRespTimeout s)

/-- RETRY_AFTER has passed (R280). -/
def backoffExpiry (s : State) : State :=
  if s.fl.state = .backoff then
    let s1 := advanceToAir ⟨s.fl.backoffEnd, 0⟩ s
    if mayJoin s1 then sendJoin s1
    else s1.modFl (fun f => { f with state := if f.memberId.isSome then .orphan else .timeQual })
  else s

def execBackoffExpiry (s : State) : Host.Outcome State Fault Refusal := .next (backoffExpiry s)

/-- The FL_JOIN commands that wait complete. -/
def completeJoins (st : Status) (s : State) : State :=
  s.fl.joinTickets.foldl (fun acc t => complete t st 0 acc) (s.modFl (fun f => { f with joinTickets := [] }))

/-- Status of FL_JOIN for the refusal that stopped it. -/
def refusalStatus (reason : Nat) : Status := if reason = 5 then .eAuth else if reason = 4 then .eRange else .eConflict

/-- A JOIN_RESP for this part (R278, R280). -/
def ownResponse (r : JoinResp) (s : State) : State :=
  if s.fl.state ≠ .joinWait then s
  else if r.result = 0 then
    s.modFl (fun f => { f with grant := some (r.admitFrame, r.member.getD 0), hardRun := 0 })
  else
    let hard := decide (4 ≤ r.result)
    let n := if hard then s.fl.hardRun + 1 else 0
    let s1 := s.modFl (fun f => { f with naks := f.naks + 1, lastNak := r.result, hardRun := n })
    if 8 ≤ n then
      completeJoins (refusalStatus r.result) (postNotice 0x0A01 r.result n (s1.modFl (fun f => { f with state := .refused })))
    else s1.modFl (fun f => { f with state := .backoff, backoffEnd := framesAhead s r.retryAfter })

/-- A JOIN_RESP arrives: for this part, or to be routed back to the port its request came by. -/
def joinResp (h : FrameHeader) (r : JoinResp) (s : State) : State :=
  if r.serial = Config.serial then ownResponse r s
  else match routeOf s r.serial with
    | some p => forward p ⟨h, .joinResp r⟩ s
    | none => s

def execJoinResp (port : Nat) (h : FrameHeader) (a : JoinResp) (s : State) : Host.Outcome State Fault Refusal :=
  .next (let _ := port; joinResp h a s)

/-! ## Joining: the answering side (R278, R279) -/

/-- The port's parent check of a request that comes straight from its member: reason 0 for a wrong tag, 1 for a nonce that
is not current; none when it passes. -/
def authFailure (s : State) (p : Nat) (r : JoinReq) : Option Nat :=
  let x := s.fl.ports.get p
  if r.nonce ≠ x.nonce ∧ r.nonce ≠ x.noncePrev then some 1
  else match s.sys.keys.flock with
    | some k => if r.tag = joinTag k r then none else some 0
    | none => some 0

/-- The record of a serial in the member table. -/
def memberOf (s : State) (serial : BitVec 64) : Option (Nat × MemberRec) :=
  s.fl.members.cells.findSome? (fun p => match p.2 with
    | some x => if x.serial = serial then some (p.1, x) else none
    | none => none)

/-- An ID is free for a serial: no member has it, and it is held for no other serial (R279). -/
def idFree (s : State) (serial : BitVec 64) (m : Nat) : Bool :=
  decide (2 ≤ m) && (match s.fl.members.get m with
    | some x => x.serial == serial
    | none => true)

/-- ID that the hub gives (R279): the held one to a REJOIN within its hold, else the requested one if it is free, else the
lowest free one from 2 upwards. -/
def assignId (s : State) (r : JoinReq) : Option Nat :=
  let other := match r.member with
    | some q => if idFree s r.serial q then some q else ((List.range 16384).drop 2).find? (idFree s r.serial)
    | none => ((List.range 16384).drop 2).find? (idFree s r.serial)
  match memberOf s r.serial with
  | some (m, _) => if r.rejoin then some m else other
  | none => other

/-- A serial is blocked by FL_EXPEL. -/
def isBlocked (s : State) (serial : BitVec 64) : Bool :=
  s.fl.blocked.any (fun b => b.1 == serial && (match b.2 with
    | some t => decide (now s < t)
    | none => true))

/-- Hard refusals of the hub. -/
def hubRefusal (s : State) (r : JoinReq) : Option Nat :=
  if r.role ≠ 1 ∧ r.role ≠ 2 then some 7
  else if isBlocked s r.serial then some 8
  else if (((memberOf s r.serial).map (fun p => p.2.state == .joined && p.2.parent != r.parent)).getD false) then some 6
  else if 64 < r.hops then some 4
  else if (assignId s r).isNone then some 3
  else none

/-- One more request admitted or forwarded in this frame. -/
def countAdmit (s : State) : State := s.modFl (fun f => { f with admitNow := f.admitNow + 1, admitTotal := f.admitTotal + 1 })

/-- The hub grants: an admission frame at least 4 frames after this one, at which Drover places the member (R278, R305). -/
def grantJoin (p : Nat) (r : JoinReq) (m : Nat) (s : State) : State :=
  let f := framesAhead s 4
  let old (b : Bank (Option MemberRec)) : Bank (Option MemberRec) := match memberOf s r.serial with
    | some (o, _) => b.set o none
    | none => b
  let x : MemberRec :=
    { serial := r.serial, state := .granted, hops := r.hops, parent := r.parent, role := r.role, lastSeen := now s
      admitAt := f }
  let s1 := (countAdmit s).modFl (fun y => { y with members := (old y.members).set m (some x) })
  (enqueue p ⟨{ dest := m, src := some (ownMember s) }, .joinResp ⟨0, 0, some m, r.serial, f⟩⟩ s1).modDv
    (fun d => { d with joinFrame := some f, trigger := true })

/-- A JOIN_REQ arrives (R277–R279). Before READY it is discarded (table *Start-up*). -/
def joinReq (p : Nat) (h : FrameHeader) (r : JoinReq) (s : State) : State :=
  if s.sys.ready = false then s
  else
    let s1 := s.modFl (fun f => { f with routes := (r.serial, p, s.air.frame) ::
      (f.routes.filter (fun x => x.1 != r.serial &&
        decide ((s.air.frame + 4294967296 - x.2.2) % 4294967296 ≤ 16))) })
    match (if h.ttl = 64 then authFailure s p r else none) with
    | some why =>
      refuse r 5 p (submitLog 0x0A01 (sourceIndex 7 0)
        [r.serial.toNat % 4294967296, r.serial.toNat / 4294967296, p, why] s1)
    | none =>
      if s.air.acquired = false then refuse r 2 p s1
      else if s.fl.config.admitLimit ≤ s.fl.admitNow then refuse r 1 p s1
      else if activeHub s then
        match hubRefusal s1 r with
        | some reason => refuse r reason p s1
        | none =>
          (match assignId s1 r with
           | some m => grantJoin p r m s1
           | none => refuse r 3 p s1)
      else if 64 < r.hops then refuse r 4 p s1
      else if s.fl.state = .joined ∨ standbyHub s then forwardUp ⟨h, .joinReq r⟩ (countAdmit s1)
      else s1

def execJoinReq (port : Nat) (h : FrameHeader) (q : JoinReq) (s : State) : Host.Outcome State Fault Refusal :=
  .next (joinReq port h q s)

/-! ## Admission (R278, R311) -/

/-- Admission frames that are due: this part's own and those the hub has granted. -/
def admissionFrames (s : State) : List Nat :=
  (match s.fl.grant with
   | some (f, _) => if s.fl.state = .joinWait then [f] else []
   | none => []) ++
  s.fl.members.cells.filterMap (fun p => match p.2 with
    | some x => if x.state = .granted then some x.admitAt else none
    | none => none)

/-- The frame of a list that comes first. -/
def firstFrame (s : State) (l : List Nat) : Option Nat :=
  l.foldl (fun best f => match best with
    | none => some f
    | some b => if frameDistance s f < frameDistance s b then some f else some b) none

/-- This part becomes JOINED. The flows of a member that rejoins enter PADDOCK (R311). -/
def becomeJoined (m : Nat) (s : State) : State :=
  let again := s.fl.heldId == some m && s.fl.rejoin
  let flows := if again then (activeFlows s).map (fun p => flowUnit p.1) else []
  let s1 := (s.modFl (fun f => { f with
      state := .joined, memberId := some m, heldId := some m, rejoin := true, grant := none, hardRun := 0
      rejoinedAt := if again then some s.air.frame else none })).modFault (fun f => { f with
      paddock := f.paddock.filter (fun v => !flows.contains v) ++ flows })
  refreshGains (sendHellos (choosePath (completeJoins .ok (s1.modDv (fun d => { d with ownBinds := [] })))))

/-- At the admission frame the members granted for it are JOINED (R278). -/
def joinAdmission (s : State) : State :=
  match firstFrame s (admissionFrames s) with
  | none => s
  | some f =>
    let s1 := (advanceToAir ⟨f, 0⟩ s).modFl (fun x => { x with members := { x.members with
      cells := x.members.cells.map (fun p => (p.1, p.2.map (fun r =>
        if r.state = .granted ∧ r.admitAt = f then { r with state := .joined, lastSeen := s.air.mono } else r))) } })
    match s1.fl.grant with
    | some (g, m) => if g = f ∧ s1.fl.state = .joinWait then becomeJoined m s1 else s1
    | none => s1

def execJoinAdmission (s : State) : Host.Outcome State Fault Refusal := .next (joinAdmission s)

/-! ## Leaving (R282) -/

/-- Reason code of a LEAVE (log entry 20). -/
def LeaveCause.code : LeaveCause → Nat
  | .command => 0 | .expelled => 1 | .dormant => 2 | .displaced => 3

/-- The member asks to leave at a frame. -/
def startLeave (f : Nat) (why : LeaveCause) (s : State) : State :=
  sendUp (.leave (ownMember s) f why.code) (s.modFl (fun x => { x with state := .leaving, leave := some (f, why) }))

/-- A LEAVE reaches the hub, which schedules the removal, or passes a branch. -/
def leave (h : FrameHeader) (m f reason : Nat) (s : State) : State :=
  if activeHub s then
    match s.fl.members.get m with
    | some r =>
      let g := if 4 ≤ frameDistance s f then f else frameBoundaryAhead s 4
      sendTo m (.leaveAck m g reason)
        ((s.modFl (fun x => { x with members := x.members.set m (some { r with leaveAt := some g }) })).modDv
          (fun d => { d with trigger := true }))
    | none => s
  else forwardUp ⟨h, .leave m f reason⟩ s

def execLeave (port : Nat) (h : FrameHeader) (member frame reason : Nat) (s : State) : Host.Outcome State Fault Refusal :=
  .next (let _ := port; leave h member frame reason s)

/-- A LEAVE_ACK names the leave frame. One that this member did not ask for ends its membership, and it joins anew (R479). -/
def leaveAck (h : FrameHeader) (m f reason : Nat) (s : State) : State :=
  if h.dest = ownMember s ∧ s.fl.memberId.isSome ∧ s.sys.role ≠ .hub then
    match s.fl.leave with
    | some (_, why) => s.modFl (fun x => { x with leave := some (f, why) })
    | none => s.modFl (fun x => { x with state := .leaving, leave := some (f, .displaced) })
  else forwardTo ⟨h, .leaveAck m f reason⟩ s

def execLeaveAck (port : Nat) (h : FrameHeader) (member frame reason : Nat) (s : State) :
    Host.Outcome State Fault Refusal := .next (let _ := port; leaveAck h member frame reason s)

/-- An EXPEL makes the member leave, after which it is REFUSED (R280). -/
def expel (h : FrameHeader) (s : State) : State :=
  if h.dest = ownMember s ∧ s.fl.memberId.isSome ∧ s.sys.role ≠ .hub then
    startLeave (frameBoundaryAhead s 4) .expelled s
  else forwardTo ⟨h, .expel⟩ s

def execExpel (port : Nat) (h : FrameHeader) (s : State) : Host.Outcome State Fault Refusal :=
  .next (let _ := port; expel h s)

/-- Every egress band path is muted through HOST and every uplink gate closes (R282). -/
def silenceMember (s : State) : State :=
  refreshGains (s.modNp (fun n => { n with
    gain := (ebs s).foldl (fun g p => g.mod p.1 (fun x => { x with host := true })) n.gain
    gates := { n.gates with cells := n.gates.cells.map (fun p => (p.1, p.2.map (fun g =>
      { g with mode := .closed, isOpen := false }))) } }))

/-- At the leave frame this part is no longer a member. -/
def becomeLeft (why : LeaveCause) (s : State) : State :=
  let s1 := (silenceMember s).modFl (fun x => { x with
    memberId := none, leave := none, grant := none
    heldId := if why = .displaced then none else x.heldId
    state := if why = .expelled then .refused else .detached })
  let s2 := s1.modDv (fun d => { d with
    desc := { d.desc with cells := d.desc.cells.map (fun p => (p.1, { p.2 with place := {}, old := none, buffer := [] })) }
    held := [] })
  if why = .expelled ∨ why = .dormant then s2
  else if s2.fl.config.joinEnabled ∧ s2.fl.primary.isSome then s2.modFl (fun x => { x with state := .timeQual }) else s2

/-- The leave frames that are due. -/
def leaveFrames (s : State) : List Nat :=
  (match s.fl.leave with
   | some (f, _) => [f]
   | none => []) ++
  s.fl.members.cells.filterMap (fun p => p.2.bind (·.leaveAt))

/-- A leave frame arrives: the hub holds the ID for LEAVE_HOLD; a member that leaves falls silent (R282). -/
def leaveFrame (s : State) : State :=
  match firstFrame s (leaveFrames s) with
  | none => s
  | some f =>
    let s1 := advanceToAir ⟨f, 0⟩ s
    let s2 := s1.modFl (fun x => { x with members := { x.members with
      cells := x.members.cells.map (fun p => (p.1, p.2.map (fun r =>
        if r.leaveAt = some f then
          { r with state := .heldLeft, leaveAt := none, holdEnd := now s1 + tcOfS s.fl.config.leaveHold }
        else r))) } })
    match s2.fl.leave with
    | some (g, why) => if g = f then becomeLeft why s2 else s2
    | none => s2

def execLeaveFrame (s : State) : Host.Outcome State Fault Refusal := .next (leaveFrame s)

/-! ## STATUS and loss (R281, R283) -/

/-- The hub takes the reports of a STATUS: liveness, links, the gains G_m of the members
its searcher tracks (R131), and N_est of the flows it consumes (R164, R165, R281). -/
def hubStatus (m : Nat) (r : StatusReport) (s : State) : State :=
  let s1 := s.modFl (fun x => { x with members := x.members.mod m (fun o => o.map (fun y =>
    let z : MemberRec := { y with lastSeen := s.air.mono, power := r.power, hops := r.hops, parent := r.parent }
    if y.state = .heldLost then { z with byBell := true, holdEnd := s.air.mono + tcOfS s.fl.config.lostHold }
    else { z with byBell := false })) })
  let s2 := if s.dv.links.get m = r.links then s1
    else s1.modDv (fun d => { d with links := d.links.set m r.links, trigger := true })
  let s3 := takeGains (s2.modLg (fun g => { g with gainNext := g.gainNext ++ r.gains.map (fun v => (r.at_, ⟨m, v.1, v.2⟩)) }))
  s3.modNp (fun n => { n with
    noise := (ebs s).foldl (fun acc p =>
      match r.noise.find? (fun v => p.2.params.srcFlow && p.2.params.srcId == v.1) with
      | some v => acc.mod p.1 (fun u => { u with contrib := u.contrib.set m (some v.2) })
      | none => acc) n.noise })

/-- A STATUS arrives from below (R281). -/
def status (p : Nat) (h : FrameHeader) (r : StatusReport) (s : State) : State :=
  match h.src with
  | none => s
  | some m =>
    let s1 := s.modFl (fun x => { x with below := x.below.set m (some (p, r.parent, s.air.mono)) })
    if activeHub s then hubStatus m r s1 else forwardUp ⟨h, .status r⟩ s1

def execStatus (port : Nat) (h : FrameHeader) (x : StatusReport) (s : State) : Host.Outcome State Fault Refusal :=
  .next (status port h x s)

/-- The members of a list whose parent chain, within `n` steps, leads to `root`. -/
def leadsTo (parent : Nat → Option Nat) (root : Nat) : Nat → Nat → Bool
  | 0, m => m == root
  | n + 1, m => m == root || (match parent m with
    | some q => leadsTo parent root n q
    | none => false)

/-- The members below this part in the subtree of `root`. -/
def subtree (s : State) (root : Nat) : List Nat :=
  (s.fl.below.cells.filterMap (fun p => p.2.map (fun _ => p.1))).filter
    (leadsTo (fun m => (s.fl.below.get m).map (·.2.1)) root 64)

/-- The hub takes a loss: MEMBER_LOST once, the IDs of the subtree held for LOST_HOLD (R281). -/
def memberLost (root count : Nat) (s : State) : State :=
  let up (m : Nat) : Option Nat := (s.fl.members.get m).map (·.parent)
  let s1 := s.modFl (fun x => { x with
    lostCount := x.lostCount + 1
    members := { x.members with cells := x.members.cells.map (fun p => (p.1, p.2.map (fun r =>
      if (r.state = .joined ∨ r.state = .granted) ∧ leadsTo up root 64 p.1 then
        { r with state := .heldLost, holdEnd := s.air.mono + tcOfS x.config.lostHold }
      else r))) } })
  raiseMoment { cls := 0x81, unit := memberUnit root, detail4 := root, detail5 := count }
    (s1.modDv (fun d => { d with trigger := true }))

/-- A LOST reaches the hub or passes a branch. -/
def lost (h : FrameHeader) (root count : Nat) (s : State) : State :=
  if activeHub s then memberLost root count s else forwardUp ⟨h, .lost root count⟩ s

def execLost (port : Nat) (h : FrameHeader) (root count : Nat) (s : State) : Host.Outcome State Fault Refusal :=
  .next (let _ := port; lost h root count s)

/-- The instant at which a child counts as lost: MEMBER_TIMEOUT frames after its last STATUS, or REHOME_WAIT frames after its
port went down (R281). -/
def childDeadline (s : State) (p last : Nat) : Nat :=
  match (s.fl.ports.get p).childDown with
  | some t => min (t + s.fl.config.rehomeWait * tcPerFrame) (last + s.fl.config.memberTimeout * tcPerFrame)
  | none => last + s.fl.config.memberTimeout * tcPerFrame

/-- A child is declared lost by its parent. -/
def memberTimeout (m : Nat) (s : State) : State :=
  match s.fl.below.get m with
  | some (p, parent, last) =>
    if parent = ownMember s then
      let s1 := advanceTo (childDeadline s p last) s
      let l := subtree s1 m
      let s2 := s1.modFl (fun x => { x with below := x.below.modAll l (fun _ _ => none) })
      if activeHub s then memberLost m l.length s2 else sendUp (.lost m l.length) s2
    else s
  | none => s

def execMemberTimeout (member : Nat) (s : State) : Host.Outcome State Fault Refusal := .next (memberTimeout member s)

/-- A hold of an ID ends and the ID is free (R281, R282). -/
def idHoldExpiry (m : Nat) (s : State) : State :=
  match s.fl.members.get m with
  | some r =>
    if r.state = .heldLost ∨ r.state = .heldLeft then
      (advanceTo r.holdEnd s).modFl (fun x => { x with members := x.members.set m none })
    else s
  | none => s

def execIdHoldExpiry (member : Nat) (s : State) : Host.Outcome State Fault Refusal := .next (idHoldExpiry member s)

/-- PATH_DOWN from the upstream peer sends the member looking for another path; it goes on to those below (R283). -/
def pathDown (p : Nat) (h : FrameHeader) (s : State) : State :=
  if s.fl.primary = some p then
    if h.src.isSome ∧ h.src = ((s.fl.ports.get p).peer.bind (·.member)) then
      losePrimary (modPort p (fun x => { x with peer := x.peer.map (fun y => { y with hops := none }) }) s)
    else forwardBelow ⟨h, .pathDown⟩ s
  else if s.fl.alternate = some p then
    chooseAlternate (modPort p (fun x => { x with peer := x.peer.map (fun y => { y with hops := none }) }) s)
  else s

def execPathDown (port : Nat) (h : FrameHeader) (s : State) : Host.Outcome State Fault Refusal := .next (pathDown port h s)

/-- A REHOME passes a branch or reaches the hub, which keeps the ID and re-places (R281, R305). -/
def rehome (p : Nat) (h : FrameHeader) (m parent hops : Nat) (s : State) : State :=
  let s1 := s.modFl (fun x => { x with below := x.below.set m (some (p, parent, s.air.mono)) })
  if activeHub s then
    (s1.modFl (fun x => { x with
      members := x.members.mod m (fun o => o.map (fun r =>
        let st : IdState := if r.state = .heldLost then .joined else r.state
        { r with parent := parent, hops := hops, state := st, lastSeen := s.air.mono })) })).modDv (fun d => { d with trigger := true })
  else forwardUp ⟨h, .rehome m parent hops⟩ s1

def execRehome (port : Nat) (h : FrameHeader) (member parent hops : Nat) (s : State) : Host.Outcome State Fault Refusal :=
  .next (rehome port h member parent hops s)

/-- REHOME_WAIT has passed without an eligible port: the member is an ORPHAN and keeps its ID (R283). -/
def rehomeWaitExpiry (s : State) : State :=
  if s.fl.state = .rehoming then
    (advanceToAir ⟨(s.fl.rehomeFrom + s.fl.config.rehomeWait) % 4294967296, 0⟩ s).modFl (fun f => { f with
      state := .orphan, orphans := f.orphans + 1 })
  else s

def execRehomeWaitExpiry (s : State) : Host.Outcome State Fault Refusal := .next (rehomeWaitExpiry s)

/-! ## The frame boundary -/

/-- What a lane counted in the frame that ended (R268, R270). -/
def laneFrame (s : State) (i : FrameInput) (l : Nat) (x : Lane) : Lane :=
  let n : LaneFrame := (i.lanes.find? (fun k => k.lane == l)).getD { lane := l }
  if x.state ≠ .up then x
  else { x with
    corrected := (x.corrected + n.corrected) % 2 ^ 64, uncorr := (x.uncorr + n.uncorr) % 2 ^ 64, ser := n.ser
    serRun := if 100000 < n.ser then x.serRun + 1 else 0
    badRun := if s.fl.config.uncorrLimit < n.uncorr then x.badRun + 1 else 0
    prbs := x.prbs.map (fun p => (p.1 + n.prbsErrors, p.2 + n.prbsBits))
    qualLeft := if x.qualLeft = 0 ∨ laneHeld s l then x.qualLeft
      else if n.uncorr = 0 then x.qualLeft - 1 else s.fl.config.laneQual }

/-- One upstream link as this part reports it (R271); the delay in whole Tc, rounded up. -/
def linkOf (s : State) (p : Nat) (alt : Bool) : Option Link :=
  let x := s.fl.ports.get p
  x.peer.map (fun h => {
    member := ownMember s, port := p, peer := h.member.getD 0, peerPort := h.port
    delay := ((x.delay + 15) / 16).toNat, lanes := x.lanes.length, alternate := alt })

/-- The STATUS of a JOINED member (R281). -/
def statusReport (s : State) : StatusReport :=
  { power := s.sys.power.code, hops := (hopCount s).getD 0
    parent := ((s.fl.primary.bind (fun p => (s.fl.ports.get p).peer)).bind (·.member)).getD 0
    e := timeErrNs s.air
    outOfService := s.fault.pens.length + s.fault.paddock.length
    gains := (ebs s).map (fun p => (p.1, (s.np.gain.get p.1).target)), at_ := airNow s.air
    noise := (ibs s).flatMap (fun p => match s.np.gates.get p.1 with
      | some g => (flowsOf s p.1).map (fun f => (f, g.nEst))
      | none => [])
    links := ((s.fl.primary.bind (fun p => linkOf s p false)).toList) ++
      ((s.fl.alternate.bind (fun p => linkOf s p true)).toList) }

/-- A STATUS leaves with the gains as they stand (R131, R281). -/
def sendStatus (s : State) : State :=
  sendUp (.status (statusReport s)) (s.modNp (fun n => { n with
    gain := (ebs s).foldl (fun b p => b.mod p.1 (fun g => { g with reported := g.target })) n.gain }))

/-- A gain has moved by 1 dB or more since it was last reported (R131). -/
def gainMoved (s : State) : Bool :=
  (ebs s).any (fun p => decide (100 ≤ ((s.np.gain.get p.1).target - (s.np.gain.get p.1).reported).natAbs))

/-- The hub's raises of G_OPEN leave for the contributors, and act on this part's own (R167, log entry 136). -/
def sendRaises (s : State) : State :=
  let l := (ebs s).filter (fun p => (s.np.noise.get p.1).send)
  if l.isEmpty then s
  else
    let raises : List (Nat × Int) := (l.filter (fun p => p.2.params.srcFlow)).map (fun p => (p.2.params.srcId, ((s.np.noise.get p.1).raise_ : Int)))
    let local_ : List (Nat × Int) := (l.filter (fun p => !p.2.params.srcFlow)).map (fun p => (p.2.params.srcId, ((s.np.noise.get p.1).raise_ : Int)))
    let s1 := s.modNp (fun n => { n with
      gates := local_.foldl (fun b x => b.mod x.1 (fun g => g.map (fun y => { y with raised := x.2 }))) n.gates
      noise := l.foldl (fun b p => b.mod p.1 (fun u => { u with send := false })) n.noise })
    sendBelow (.gateRaise raises) (raiseGates raises s1)

/-- The work of a frame boundary: counts, HELLO, STATUS and time-transfer requests (R271, R274, R278, R281). -/
def flFrame (i : FrameInput) (s : State) : State :=
  let s1 := s.modFl (fun f => { f with
    admitLast := f.admitNow, nakLast := f.nakNow, admitNow := 0, nakNow := 0
    lanes := f.lanes.modAll (List.range 24) (laneFrame s i) })
  let s2 := sendHellos s1
  let s3 := sendRaises (if s2.fl.state = .joined then sendStatus s2 else s2)
  ((List.range 12).filter (portUp s3)).foldl (fun acc p =>
    let t1 := nowSixteenths acc + ((i.departs.find? (fun x => x.1 == p)).map (·.2)).getD 0
    sendLink p (.ttReq t1) (modPort p (fun x => { x with t1 := some t1 }) acc)) s3

/-! ## Commands -/

/-- FL_PORT_CONFIG configuration. -/
def portConfigOf (p : List Byte) : PortConfig :=
  { function := portFunctionOf (u8 p 1), bond := u8 p 2, asym := s32 p 4, asymUnc := u32 p 8 }

def specFlPortConfig : CommandSpec where
  opcode := 0x0A01
  role := some .admin
  length := fixedLength 12
  states := fun s _ => s.sys.role != .unset
  checks := fun s q =>
    let p := q.payload
    let port := u8 p 0
    let c := portConfigOf p
    let off (k : Nat) : Bool := (s.fl.ports.get k).config.function == .off
    let others := (without (List.range 12) port).any (fun k =>
      (s.fl.ports.get k).config.function == .up || (s.fl.ports.get k).config.function == .ring)
    [field 0 (within 0 11 port), field 1 (within 0 4 (u8 p 1)), field 2 ([1, 2, 4].contains (u8 p 2)),
     field 3 (zeros p 3 1), field 4 (withinI (-1000000) 1000000 (s32 p 4)), field 8 (within 0 100000 (u32 p 8)),
     need .eConflict (c.bond != 4 || (port % 2 == 0 && off (port + 1))),
     need .eConflict (port % 2 == 0 || c.function == .off || (s.fl.ports.get (port - 1)).config.bond != 4 || off (port - 1)),
     need .eConflict (s.sys.role != .hub || (c.function != .up && c.function != .ring)),
     need .eConflict (s.sys.role == .hub || c.function != .mirror),
     need .eConflict (s.fl.state != .joined || c.function == .up || c.function == .ring || others)]
  effect := fun s q =>
    let port := u8 q.payload 0
    let c := portConfigOf q.payload
    let was := portUp s port
    let s1 := unpowerLanes (portLanes s port) s
    let s2 := reviewPort port was (modPort port (fun x => { x with lanes := [], laneNext := none, mismatch := false }) s1)
    let s3 := (modPort port (fun x => { x with config := c, peer := none }) s2).modFl (fun f => { f with
      storedPorts := f.storedPorts.set port (some c) })
    (placementTrigger (powerPort port s3), {})

def execFlPortConfig (r : HostRequest) (s : State) : Host.Outcome State Fault Refusal := .next (submit specFlPortConfig r s)

/-- FL_FLOCK_CONFIG configuration. -/
def flockConfigOf (p : List Byte) : FlockConfig :=
  { flockId := some (u32 p 0), prefId := if u16 p 4 = 0xFFFF then none else some (u16 p 4), joinEnabled := u8 p 6 == 1
    admitLimit := u8 p 7, memberTimeout := u16 p 8, rehomeWait := u16 p 10, laneQual := u16 p 12
    uncorrLimit := u16 p 14, lostHold := u32 p 16, leaveHold := u32 p 20 }

/-- Joining has been allowed or forbidden: a member not yet admitted starts or stops trying (table *Membership states*). -/
def joinSettingChanged (s : State) : State :=
  if s.sys.role = .hub then s
  else if s.fl.config.joinEnabled then
    (if s.fl.state = .detached ∧ s.fl.primary.isSome then s.modFl (fun f => { f with state := .timeQual }) else choosePath s)
  else
    match s.fl.state with
    | .timeQual | .joinWait | .backoff => s.modFl (fun f => { f with state := .detached, grant := none })
    | _ => s

def specFlFlockConfig : CommandSpec where
  opcode := 0x0A02
  role := some .admin
  length := fixedLength 24
  states := fun s q => s.fl.state == .detached || s.fl.config.flockId == some (u32 q.payload 0)
  checks := fun _ q =>
    let p := q.payload
    [field 0 (u32 p 0 != 0), field 4 (within 2 16383 (u16 p 4) || u16 p 4 == 0xFFFF), field 6 (within 0 1 (u8 p 6)),
     field 7 (within 1 64 (u8 p 7)), field 8 (within 2 16 (u16 p 8)), field 10 (within 1 16 (u16 p 10)),
     field 12 (within 10 1000 (u16 p 12)), field 14 (within 1 1000 (u16 p 14)), field 16 (within 10 86400 (u32 p 16)),
     field 20 (within 0 86400 (u32 p 20))]
  effect := fun s q =>
    (reselect (joinSettingChanged (s.modFl (fun f => { f with config := flockConfigOf q.payload }))), {})

def execFlFlockConfig (r : HostRequest) (s : State) : Host.Outcome State Fault Refusal := .next (submit specFlFlockConfig r s)

def specFlJoin : CommandSpec where
  opcode := 0x0A03
  role := some .operate
  length := fixedLength 4
  states := fun s _ => s.sys.role != .hub && s.fl.config.joinEnabled && s.fl.state != .joined && s.fl.state != .leaving
  checks := fun s q =>
    [field 0 (within 0 1 (u8 q.payload 0)), field 1 (zeros q.payload 1 3),
     need .eConflict (u8 q.payload 0 == 0 || s.fl.heldId.isSome)]
  effect := fun s q =>
    let s1 := s.modFl (fun f => { f with
      joinTickets := f.joinTickets ++ [ticketOf q], rejoin := u8 q.payload 0 == 1, hardRun := 0
      state := if f.state = .refused then (if f.primary.isSome then .timeQual else .detached) else f.state })
    (choosePath s1, { status := .accepted })

def execFlJoin (r : HostRequest) (s : State) : Host.Outcome State Fault Refusal := .next (submit specFlJoin r s)

/-- The leave frame that FL_LEAVE grants. -/
def leaveAtFrame (s : State) (f : Nat) : Nat := if f = 0 then frameBoundaryAhead s 4 else f

def specFlLeave : CommandSpec where
  opcode := 0x0A04
  role := some .operate
  length := fixedLength 4
  states := fun s _ => s.fl.state == .joined
  checks := fun s q => [field 0 (u32 q.payload 0 == 0 || decide (4 ≤ frameDistance s (u32 q.payload 0)))]
  effect := fun s q =>
    let f := leaveAtFrame s (u32 q.payload 0)
    (startLeave f .command s, { payload := le 4 f })

def execFlLeave (r : HostRequest) (s : State) : Host.Outcome State Fault Refusal := .next (submit specFlLeave r s)

/-- A lane is penned: it carries nothing until it is released (R270). -/
def penLane (l : Nat) (s : State) : State :=
  let p := portOfLane s l
  let was := portUp s p
  reviewPort p was (withdrawLane l (s.modFault (fun f => { f with
    pens := f.pens.filter (fun x => !(x.unit == laneUnit l && x.reason == .host)) ++ [⟨laneUnit l, .host⟩]
    paddock := f.paddock.filter (· != laneUnit l) })))

/-- A released lane qualifies in PADDOCK (R270). -/
def qualifyLane (l : Nat) (s : State) : State :=
  (modLane l (fun x => { x with qualLeft := s.fl.config.laneQual, offered := false, prbs := none }) s).modFault
    (fun f => { f with paddock := f.paddock.filter (· != laneUnit l) ++ [laneUnit l] })

/-- The host's pen reason of a lane goes. -/
def releaseLane (l : Nat) (s : State) : State :=
  let s1 := s.modFault (fun f => { f with pens := f.pens.filter (fun x => !(x.unit == laneUnit l && x.reason == .host)) })
  if laneHeld s l ∧ laneHeld s1 l = false then choosePath (qualifyLane l s1) else s1

/-- A lane is taken out and trains again. -/
def retrainLane (l : Nat) (s : State) : State :=
  let p := portOfLane s l
  let was := portUp s p
  reviewPort p was (withdrawLane l (modLane l (fun x => { x with state := .signalWait, retrainAt := none }) s))

def specFlLaneControl : CommandSpec where
  opcode := 0x0A05
  role := some .operate
  length := fixedLength 4
  states := fun s q =>
    let l := u8 q.payload 0
    let a := u8 q.payload 1
    let x := s.fl.lanes.get l
    !(within 0 23 l && within 0 4 a) ||
      (x.state != .off && (a != 3 || laneHeld s l) && (a != 4 || x.prbs.isSome))
  checks := fun s q =>
    [field 0 (within 0 23 (u8 q.payload 0)), field 1 (within 0 4 (u8 q.payload 1)), field 2 (zeros q.payload 2 2),
     need .ePenned (u8 q.payload 1 != 0 || !laneHeld s (u8 q.payload 0))]
  effect := fun s q =>
    let l := u8 q.payload 0
    match u8 q.payload 1 with
    | 0 => (retrainLane l s, {})
    | 1 => (penLane l s, {})
    | 2 => (releaseLane l s, {})
    | 3 => (modLane l (fun x => { x with prbs := some (0, 0) }) s, {})
    | _ =>
      let n := ((s.fl.lanes.get l).prbs).getD (0, 0)
      (modLane l (fun x => { x with prbs := none }) s, { payload := le 8 n.1 ++ le 8 n.2 })

def execFlLaneControl (r : HostRequest) (s : State) : Host.Outcome State Fault Refusal := .next (submit specFlLaneControl r s)

/-- Code of an ID state (FL_MEMBER_QUERY). -/
def IdState.code : IdState → Nat
  | .joined => 1 | .heldLost => 2 | .heldLeft => 3 | .granted => 4

/-- The hub's own record: member 0 on the active hub, member 1 on the standby. -/
def hubRecord (s : State) (m : Nat) : Option MemberRec :=
  if s.fl.memberId = some m then
    some { serial := Config.serial, state := .joined, hops := 0, parent := m, role := 0, power := s.sys.power.code
           lastSeen := now s }
  else s.fl.members.get m

def specFlMemberQuery : CommandSpec where
  opcode := 0x0A06
  role := some .monitor
  length := fixedLength 4
  states := fun s _ => s.sys.role == .hub
  checks := fun _ q => [field 0 (within 0 16383 (u16 q.payload 0)), field 2 (zeros q.payload 2 2)]
  effect := fun s q =>
    match hubRecord s (u16 q.payload 0) with
    | some r =>
      (s, {
        payload := le 8 r.serial.toNat ++ le 1 r.state.code ++ le 1 r.hops ++ le 2 r.parent ++
          le 4 (place 8 0 r.role + place 8 8 r.power) ++ le 8 r.lastSeen })
    | none => (s, { payload := le 8 0 ++ le 1 0 ++ le 1 0 ++ le 2 0 ++ le 4 0 ++ le 8 0 })

def execFlMemberQuery (r : HostRequest) (s : State) : Host.Outcome State Fault Refusal := .next (submit specFlMemberQuery r s)

def specFlExpel : CommandSpec where
  opcode := 0x0A07
  role := some .admin
  length := fixedLength 8
  states := fun s _ => s.sys.role == .hub
  checks := fun s q =>
    let m := u16 q.payload 0
    [field 0 (within 2 16383 m && (match s.fl.members.get m with
       | some r => r.state == .joined
       | none => false)), field 2 (zeros q.payload 2 2), field 4 (within 0 31536000 (u32 q.payload 4))]
  effect := fun s q =>
    let m := u16 q.payload 0
    let t := u32 q.payload 4
    match s.fl.members.get m with
    | some r =>
      (sendTo m .expel (s.modFl (fun f => { f with
        blocked := (r.serial, if t = 0 then none else some (now s + tcOfS t)) ::
          f.blocked.filter (fun b => b.1 != r.serial) })), {})
    | none => (s, {})

def execFlExpel (r : HostRequest) (s : State) : Host.Outcome State Fault Refusal := .next (submit specFlExpel r s)

end Sys2Proof.Machine
end

