-- ==== Sys2Proof/Machine/ControlEngine.lean ====
section
/-! DEFINITION. The closed-loop control engine (R176–R207): slots, the PID law and the other kinds, plausibility, soft-start,
banks, overruns, injections, traces and the repetitive controllers. -/

namespace Sys2Proof.Machine

open Sys2Proof

/-! ## Fixed point (R184) -/

/-- Symmetric saturation of a signed 32-bit value. -/
def sat32 (x : Int) : Int := clampI 2147483647 x

/-- 2^−16 dB in 0.01 dB, and back. -/
def toFine (x : Int) : Int := sat32 (roundEven (x * 65536) 100)
def ofFine (x : Int) : Int := roundEven (x * 100) 65536

/-- A Q8.24 coefficient times a value (R184). -/
def mulQ (c x : Int) : Int := sat32 (roundEven (c * x) 16777216)

/-- ki_s, kd_s, kt_s and β of R183 at period exponent `p`, Q8.24, before the range check. -/
def kiOf (c : Coeffs) (p : Nat) : Int := roundEven ((c.ki * 2 ^ p * 16777216 * 3125 : Nat) : Int) 100000000000
def ktOf (c : Coeffs) (p : Nat) : Int := roundEven ((c.kt * 2 ^ p * 16777216 * 3125 : Nat) : Int) 100000000000
def kdOf (c : Coeffs) (p : Nat) : Int := roundEven ((c.kd * 100 * 16777216 : Nat) : Int) ((c.tf * 100 + 3125 * 2 ^ p : Nat) : Int)
def betaOf (c : Coeffs) (p : Nat) : Int := roundEven ((c.tf * 100 * 16777216 : Nat) : Int) ((c.tf * 100 + 3125 * 2 ^ p : Nat) : Int)

/-- A per-sample value fits Q8.24. -/
def fitsQ (x : Int) : Bool := decide (x.natAbs ≤ 2147483647)

/-! ## Slots -/

/-- The slot whose timing and band path a slot uses: its inner slot, or itself (R178, R179). -/
def baseSlot (s : State) (x : Slot) : Slot := if isOuter x then slotOf s x.target else x

/-- The unit that a slot actuates (R206). -/
def actuated (s : State) (x : Slot) : UnitId :=
  if x.kind = some .chainGain then chainUnit x.target else ebUnit (baseSlot s x).target

/-- The active bank (R197). -/
def bankOf (x : Slot) : Option Coeffs := if x.bankSel then x.bankB else x.bankA

/-- The outer slots of an inner slot. -/
def outersOf (s : State) (n : Nat) : List (Nat × Slot) := (boundSlots s).filter (fun p => isOuter p.2 && p.2.target == n)

/-- Code of a kind. -/
def SlotKind.code : SlotKind → Nat
  | .level => 1 | .gain => 2 | .chainGain => 3 | .ulNoise => 4 | .margin => 5

/-- Kind of a code. -/
def slotKindOf (n : Nat) : Option SlotKind := [SlotKind.level, .gain, .chainGain, .ulNoise, .margin].find? (fun k => k.code == n)

/-- Code of a LIMITER. -/
def Limiter.code : Limiter → Nat
  | .command => 0 | .thermal => 1 | .npBackoff => 2 | .marginCap => 3 | .ulNoiseCap => 4 | .floor => 5 | .ceiling => 6
  | .excluded => 7 | .mute => 8

/-- Code of a hold reason. -/
def HoldReason.code : HoldReason → Nat
  | .none => 0 | .stale => 1 | .overrun => 2 | .plausibility => 3 | .loopGuard => 4

/-! ## Sample grid (R179, R201) -/

/-- The last instant of the grid of 2^p ticks, counted from SFN 0 of the hyperframe. -/
def gridFloor (a : AirState) (p : Nat) : AirInstant :=
  let per := tcPerTick * 2 ^ p
  let t := a.frame % 1024 * tcPerFrame + a.offset
  let k := t / per * per
  ⟨a.frame / 1024 * 1024 + k / tcPerFrame, k % tcPerFrame⟩

/-- The instant `per` Tc after another. -/
def instantPlus (i : AirInstant) (per : Nat) : AirInstant :=
  let o := i.offset + per
  ⟨(i.frame + o / tcPerFrame) % 4294967296, o % tcPerFrame⟩

/-- The sample that is due: the last grid instant if it has not been processed, else the next one at which a loop tick falls:
after a step none falls within 30,720 Tc of the last tick (R47). -/
def dueSample (a : AirState) (p : Nat) (x : Slot) : AirInstant :=
  let f := gridFloor a p
  let i := if x.lastAt = some f then instantPlus f (tcPerTick * 2 ^ p) else f
  if isLater a i ∧ a.mono + monoOfAir a i < a.noTickBefore then instantPlus i (tcPerTick * 2 ^ p) else i

/-- Tc from the present to an instant, negative for one that has passed (R11). -/
def tcTo (a : AirState) (i : AirInstant) : Int :=
  centred ((4294967296 * tcPerFrame : Nat) : Int)
    (((i.frame * tcPerFrame + i.offset : Nat) : Int) - ((a.frame * tcPerFrame + a.offset : Nat) : Int))

/-- The engine runs the iteration of slot `m` before that of slot `n`: by the time the sample of `n` is taken, that of `m` is due
too, and its deadline is earlier, or the same and `m` the lower slot (R181). -/
def runsBefore (s : State) (m n : Nat) : Bool :=
  let x := slotOf s m
  let y := slotOf s n
  let dm := tcTo s.air (dueSample s.air (periodExp s x) x)
  let dn := tcTo s.air (dueSample s.air (periodExp s y) y)
  let em := dm + (tcPerTick * 2 ^ periodExp s x : Nat)
  let en := dn + (tcPerTick * 2 ^ periodExp s y : Nat)
  m != n && slotEnabled x && decide (dm ≤ max 0 dn) && (decide (em < en) || (em == en && decide (m < n)))

/-- It is the turn of slot `n` (R181). -/
def slotTurn (s : State) (n : Nat) : Bool := (boundSlots s).all (fun p => !runsBefore s p.1 n)

/-- Tc since an instant of the present or last hyperframe. -/
def tcSince (a : AirState) (i : AirInstant) : Nat :=
  (a.frame + 4294967296 - i.frame) % 4294967296 * tcPerFrame + a.offset - i.offset

/-- Air time has stepped: samples whose ticks were skipped are not run, and the next iteration of every slot is late (R201). -/
def stepSlots (s : State) : State :=
  s.modCl (fun c => { c with slots := { c.slots with cells := c.slots.cells.map (fun p =>
    (p.1, if slotEnabled p.2 then { p.2 with late := true, lastAt := some (gridFloor s.air (periodExp s p.2)) } else p.2)) } })

/-! ## Traces (R204) -/

/-- A trigger or start condition of a trace. -/
inductive TraceCause where
  | softStart | injection | injectionEnd | hold | sat | fault | limiter
  deriving DecidableEq, Repr

/-- Bit of CL_TRACE_CONFIG's triggers. -/
def TraceCause.bit : TraceCause → Option Nat
  | .hold => some 0 | .sat => some 1 | .fault => some 2 | .limiter => some 3 | _ => none

/-- What a cause does to a trace armed on its slot. -/
def traceCause (t : Nat) (c : TraceCause) (x : Trace) : Trace :=
  match x.mode, c with
  | 1, .softStart => if x.state = .armed then { x with state := .recording } else x
  | 2, .injection => if x.state = .armed then { x with state := .recording } else x
  | 2, .injectionEnd => if x.state = .recording then { x with state := .frozen } else x
  | 3, _ =>
    match c.bit with
    | some b =>
      if x.triggers.testBit b ∧ x.state = .recording ∧ x.left = none then { x with left := some (1024 - x.pre), trigAt := t }
      else x
    | none => x
  | _, _ => x

/-- A cause on a slot reaches its traces. -/
def causeTraces (n : Nat) (c : TraceCause) (s : State) : State :=
  s.modCl (fun k => { k with traces := k.traces.modAll (List.range 8) (fun _ x => if x.slot = n then traceCause (now s) c x else x) })

/-- One entry offered to a trace. -/
def traceEntry (e : TraceEntry) (x : Trace) : Trace :=
  if x.state ≠ .recording then x
  else if x.phase % x.decimation ≠ 0 then { x with phase := x.phase + 1 }
  else
    let l := (e :: x.entries).take 1024
    if x.mode = 3 then
      (match x.left with
       | some k => { x with entries := l, phase := x.phase + 1, left := some (k - 1), state := if k ≤ 1 then .frozen else .recording }
       | none => { x with entries := l, phase := x.phase + 1 })
    else { x with entries := l, phase := x.phase + 1, state := if l.length = 1024 then .frozen else .recording }

/-- Index of the trigger entry, in recording order. -/
def triggerIndex (x : Trace) : Option Nat :=
  match x.left with
  | some k => if 1024 - x.pre - k = 0 then none else some (x.entries.length - (1024 - x.pre - k))
  | none => none

/-- The iteration of a slot recorded in its traces. -/
def recordTrace (n t : Nat) (abandoned late : Bool) (latency : Nat) (s : State) : State :=
  let x := slotOf s n
  let e : TraceEntry :=
    { mono := t, iter := x.iter, r := x.r, y := x.y, u := x.u, i := ofFine x.i, inj := x.injected
      flags := x.limiter.code + 0x10 * x.reason.code + 0x80 * flag x.sat + 0x100 * flag abandoned + 0x200 * flag late +
        0x400 * flag x.bankSel + 0x800 * min latency 2097151 }
  s.modCl (fun k => { k with traces := k.traces.modAll (List.range 8) (fun _ y => if y.slot = n then traceEntry e y else y) })

/-! ## Injection (R202, R203) -/

/-- 2π in units of 2^−60. -/
abbrev twoPi60 : Int := 7244019458077122842

/-- sin of an angle of at most π/2 in magnitude, both in units of 2^−60, by its series. -/
def sinSeries (x : Int) : Int :=
  let x2 := x * x / 2 ^ 60
  ((List.range 12).foldl (fun (acc : Int × Int) k =>
    let t := -(acc.2 * x2 / 2 ^ 60) / (((2 * k + 2) * (2 * k + 3) : Nat) : Int)
    (acc.1 + t, t)) (x, x)).1

/-- sin(2π k / n), in units of 2^−60. -/
def sinCycle (k n : Nat) : Int :=
  let a : Int := twoPi60 * ((k % n : Nat) : Int) / (n : Int)
  let half := twoPi60 / 2
  let quarter := twoPi60 / 4
  if a ≤ quarter then sinSeries a else if a ≤ quarter + half then sinSeries (half - a) else sinSeries (a - twoPi60)

/-- The injected value of the iteration, 2^−16 dB (R202). -/
def injectionValue (j : Injection) : Int :=
  let a := toFine (j.amp : Int)
  if j.shape = 1 then a
  else if j.shape = 2 then (if Config.prbsChip j.arg j.done then a else -a)
  else roundEven (a * sinCycle j.done j.arg) (2 ^ 60)

/-- An injection acts at this iteration. -/
def injecting (x : Slot) : Option Injection :=
  match x.inj with
  | some j => if j.started ∧ j.done < j.count ∧ j.stop = none then some j else none
  | none => none

/-- An injection is due: its start frame has come. -/
def injectionDue (s : State) (j : Injection) : Bool :=
  match j.frame with
  | none => true
  | some f => frameDistance s f == 0

/-- An injection begins, and the traces that wait for it record (R203, R204). -/
def beginInjection (n : Nat) (s : State) : State :=
  causeTraces n .injection (modSlot n (fun x => { x with inj := x.inj.map (fun j => { j with started := true }) }) s)

/-- Ends an injection at its slot's next iteration, for a reason: 1 hold, 2 fault, 3 unit out of service, 4 CL_INJECT (R203). -/
def stopInjection (n why : Nat) (s : State) : State :=
  modSlot n (fun x => { x with inj := x.inj.map (fun j => { j with stop := j.stop <|> some why }) }) s

/-- The completion of an injection that has ended: iterations run in bits [20:0], the reason in bits [31:24]. -/
def endInjection (n : Nat) (s : State) : State :=
  match (slotOf s n).inj with
  | some j =>
    let s1 := causeTraces n .injectionEnd (modSlot n (fun x => { x with inj := none, injected := 0 }) s)
    complete j.ticket .ok (j.done + j.stop.getD 0 * 16777216) (s1.modCl (fun c => { c with injDone := c.injDone + 1 }))
  | none => s

/-- A fault is raised on a unit: injections on its slots end and traces trigger (R203, R204). -/
def slotFault (u : UnitId) (s : State) : State :=
  (boundSlots s).foldl (fun acc p =>
    if slotUnit p.1 = u ∨ actuated acc p.2 = u then causeTraces p.1 .fault (stopInjection p.1 2 acc) else acc) s

/-! ## Set-points and soft-start (R178, R192) -/

/-- The base set-point now, 2^−16 dB (R184). -/
def baseSetpoint (t : Nat) (x : Slot) : Int :=
  match x.spRamp with
  | some (a, t0, d) =>
    if t0 + d ≤ t then toFine x.setpoint
    else toFine a + roundEven ((toFine x.setpoint - toFine a) * ((t - t0 : Nat) : Int)) (d : Int)
  | none => toFine x.setpoint

/-- The effective set-point without a soft-start ramp, 2^−16 dB (R178). -/
def effectiveSetpoint (s : State) (n : Nat) (x : Slot) : Int :=
  let outer := (outersOf s n).foldl (fun acc p => acc + p.2.u) 0
  let inj := match injecting x with
    | some j => if j.atOutput then 0 else injectionValue j
    | none => 0
  sat32 (baseSetpoint (now s) x + toFine outer + inj)

/-- The set-point that a ramp of R192 gives at time `t`. -/
def rampSetpoint (t : Nat) (target : Int) (k : SoftStart) : Int :=
  match k.begun with
  | some (t0, y0) =>
    if t0 + k.ramp ≤ t then target else y0 + roundEven ((target - y0) * ((t - t0 : Nat) : Int)) (k.ramp : Int)
  | none => target

/-- The output that the actuator realises now, 2^−16 dB (R192). -/
def realised (s : State) (x : Slot) : Int :=
  match x.kind with
  | some .level | some .gain =>
    let g := s.np.gain.get x.target
    toFine (g.target + g.bTh + g.bNp)
  | some .chainGain => toFine ((100 * (s.rf.chains.get x.target).atten : Nat) : Int)
  | _ => toFine x.u

/-- A slot soft-starts from a value (R192). A CHAIN_GAIN slot and an outer slot have no ramp. -/
def softStart (n : Nat) (from_ : Int) (ramp : Nat) (s : State) : State :=
  let x := slotOf s n
  let ramped : Bool := x.kind == some .level || x.kind == some .gain
  let k : SoftStart := { from_, ramp, begun := if x.kind = some .gain then some (now s, from_) else none }
  causeTraces n .softStart (modSlot n (fun y => { y with
    d := 0, i := from_, bumpless := true, yPrev := none, uFine := from_, implRun := 0, reason := .none
    soft := if ramped then some k else none
    run := if ramped then .softStart else .running }) s)

/-- A slot is enabled (R192, CL_SLOT_CONTROL). -/
def enableSlot (n : Nat) (soft : Bool) (s : State) : State :=
  let x := slotOf s n
  let s1 := modSlot n (fun y => { y with
    run := .running, reason := .none, iter := 0, yPrev := none, ovrRun := 0, onTime := 0
    lastAt := some (gridFloor s.air (periodExp s x)) }) s
  if soft then softStart n (realised s x) (tcOfMs x.rampMs) s1 else s1

/-- A slot is disabled; its last output stays in force (R177). -/
def disableSlot (n : Nat) (s : State) : State :=
  endFault 0x50 (slotUnit n) (endFault 0x52 (slotUnit n)
    (stopInjection n 3 (modSlot n (fun y => { y with run := .disabled, reason := .none, soft := none, limitAt := none }) s)))

/-- The LEVEL or GAIN slot of an egress band path. -/
def slotOfEb (s : State) (e : Nat) : Option (Nat × Slot) := (boundSlots s).find? (fun p => outputOf p.2 == some e)

/-- The unit of a slot is admitted: the slot soft-starts from G_start over SOFT_RAMP (R150, R192). -/
def admitSlot (n : Nat) (gStart : Int) (rampMs : Nat) (s : State) : State := softStart n (toFine gStart) (tcOfMs rampMs) s

/-! ## Writing outputs -/

/-- The repetitive correction in force on an egress band path, 2^−16 dB (R195). -/
def repNow (s : State) (e : Nat) : Int :=
  match s.ce.eb.get e with
  | some b =>
    let r := s.cl.reps.get (b.params.chain - 8)
    if r.enabled ∧ b.params.tdd = some r.pattern then
      (match r.bin with
       | some k => r.applied.get k
       | none => 0)
    else 0
  | none => 0

/-- The engine writes G_cmd of an egress band path: the slot's output plus the repetitive correction (R177, R195). -/
def writeGcmd (e : Nat) (u : Int) (s : State) : State :=
  refreshGains (s.modNp (fun n => { n with
    gain := n.gain.mod e (fun g => { g with gCmd := u + ofFine (repNow s e), soft := none }) }))

/-- w(n) of R185 for an inner slot, from the latest gain-stack report (R154). -/
def boundByStack (g : StackReport) (u : Int) : Int :=
  let c := toFine (g.gain + g.bTh + g.bNp)
  match g.limiter with
  | .marginCap | .ulNoiseCap | .ceiling => min u c
  | .floor => max u c
  | _ => u

/-- SAT and its trace trigger (R185, R204). -/
def setSat (n : Nat) (v w : Int) (s : State) : State :=
  let x := slotOf s n
  let s1 := modSlot n (fun y => { y with sat := v != w, satUp := decide (w < v) }) s
  if v ≠ w ∧ x.sat = false then causeTraces n .sat s1 else s1

/-- The time at the limits of the bank (R206). -/
def noteLimit (n : Nat) (c : Coeffs) (s : State) : State :=
  let x := slotOf s n
  if x.u = c.uMin ∨ x.u = c.uMax then modSlot n (fun y => { y with limitAt := y.limitAt <|> some (now s) }) s
  else endFault 0x52 (slotUnit n) (modSlot n (fun y => { y with limitAt := none }) s)

/-! ## Plausibility (R190) -/

/-- The temperature band of a chain's RF-die sensor. -/
def chainBand (s : State) (c : Nat) : Nat := (s.hk.sensors.get (16 + c % 8 / 2)).usedBand

/-- The updated band nearest to `b`, the lower on a tie. -/
def nearestBand (l : List (Nat × Option (Int × Nat))) (b : Nat) : Option Int :=
  ((l.filterMap (fun p => p.2.map (fun k => (p.1, k.1)))).foldl (fun best p => match best with
    | none => some p
    | some q => if ((p.1 : Int) - b).natAbs < ((q.1 : Int) - b).natAbs then some p else some q) (none : Option (Nat × Int))).map (·.2)

/-- K_b of the current band with its count of plausible updates. -/
def kBandOf (x : Slot) (b : Nat) : Int × Nat := (x.kBand.get b).getD ((nearestBand x.kBand.cells b).getD 0, 0)

/-- A LEVEL sample checked against the model; `base` is x + G_eff + B_th + B_np in 2^−16 dB. The slot learns from it. -/
def checkLevel (tol : Int) (b : Nat) (base y : Int) (x : Slot) : Bool × Slot :=
  let k := kBandOf x b
  let meas := y - base
  if x.learned < 16 then
    let m : Int := ((x.learned + 1 : Nat) : Int)
    let v := if x.learned = 0 then meas else k.1 + roundEven (meas - k.1) m
    (true, { x with learned := x.learned + 1, kBand := x.kBand.set b (some (v, k.2)), implRun := 0 })
  else
    let lim := if k.2 < 256 then 2 * tol else tol
    if lim < ((meas - k.1).natAbs : Int) then (false, { x with implRun := x.implRun + 1, implCount := x.implCount + 1 })
    else (true, { x with kBand := x.kBand.set b (some (k.1 + roundEven (meas - k.1) 256, k.2 + 1)), implRun := 0 })

/-- R191: the band path is closed and near oscillation. -/
def guardHolds (s : State) (e : Nat) : Bool :=
  match s.ce.eb.get e, s.lg.loops.get e with
  | some b, some l =>
    loopClosed s b l && (l.state == .ladder || l.state == .holdoff ||
      (match loopMargin s e l with
       | some m => decide (m ≤ s.lg.policy.oscMargin + 300)
       | none => false))
  | _, _ => false

/-! ## Feedback (R180, R186–R191) -/

/-- What an iteration has to work with: the reason to hold, or none; the feedback in 2^−16 dB; the measurement it used. -/
structure Feed where
  hold : HoldReason := .none
  y    : Int := 0
  seq  : Option Int := none

/-- A held iteration for want of a sample. -/
def staleFeed : Feed := { hold := .stale }

/-- The corrected measurement of a LEVEL slot with its number (R186). -/
def levelSample (s : State) (x : Slot) : Option (Int × Int) :=
  let e := x.target
  let g := (s.np.gain.get e).report
  if x.obs then
    (s.cl.carriers.get e).map (fun p => ((p.1 : Int), p.2 + (s.np.outputs.get (ebChain s e - 8)).coupling + g.bTh + g.bNp))
  else
    match s.ce.eb.get e with
    | some b => b.detMean.map (fun m =>
        let pilot := match s.lg.loops.get e with
          | some l => if l.seq = 0 then 0 else linear l.pilot
          | none => 0
        ((b.detSeq : Int), decibel (linear m - pilot) + x.param + g.bTh + g.bNp))
    | none => none

/-- Mean input power of an egress band path over its last detector window, 0.01 dBFS (R190). -/
def windowInput (s : State) (e : Nat) : Int :=
  match s.ce.eb.get e with
  | some b => (b.windowAt.bind (fun hi => (powerOf ((b.recent.filter (fun x =>
      inSpan (instantBack hi (tcPerTick * 2 ^ b.windowK)) hi x.at_ && x.ok && (x.own || b.includeAll))).map (·.inp))).mean)).getD (-30000)
  | none => -30000

/-- x + G_eff + B_th + B_np of R190, 2^−16 dB. -/
def modelBase (s : State) (e : Nat) : Int :=
  let g := (s.np.gain.get e).report
  toFine (windowInput s e + g.gain + g.bTh + g.bNp)

/-- The feedback of a slot at its sample. -/
def slotFeed (s : State) (n : Nat) (i : IterInput) : Feed :=
  let x := slotOf s n
  let e := (baseSlot s x).target
  let lim := (s.np.gain.get e).report.limiter
  let out := serviceCode s (actuated s x) ≠ 0
  let shut := lim = .mute ∨ lim = .excluded
  match x.kind with
  | some .level =>
    (match levelSample s x with
     | some (q, y) =>
       if out ∨ shut ∨ x.lastSeq = some q then staleFeed
       else if guardHolds s e then { hold := .loopGuard, y := toFine y }
       else
         let c := checkLevel (toFine s.cl.plausTol) (chainBand s (ebChain s e)) (modelBase s e) (toFine y) x
         { hold := if c.1 then .none else .plausibility, y := toFine y, seq := some q }
     | none => staleFeed)
  | some .gain => if out ∨ shut then staleFeed else {}
  | some .chainGain =>
    (match i.peak with
     | some w =>
       if out ∨ chainDelivers s x.target = false then staleFeed
       else { hold := if 50 < i.residual then .plausibility else .none, y := toFine w }
     | none => staleFeed)
  | some .ulNoise =>
    (match (s.np.noise.get e).nUl with
     | some v => if out ∨ shut ∨ x.lastSeq = some v then staleFeed
       else { y := toFine (v + (s.np.gain.get e).report.gain), seq := some v }
     | none => staleFeed)
  | some .margin =>
    (match s.ce.eb.get e, s.lg.loops.get e with
     | some b, some l =>
       (match creditedMargin s e b l with
        | some m =>
          if out ∨ shut ∨ l.state = .open_ ∨ l.state = .acquiring ∨ l.state = .holdoff ∨ x.lastSeq = some (l.lastValid : Int) then
            staleFeed
          else { y := toFine m, seq := some (l.lastValid : Int) }
        | none => staleFeed)
     | _, _ => staleFeed)
  | none => staleFeed

/-- The plausibility bookkeeping of a checked iteration, and PLAUSIBILITY at the PLAUS_COUNT-th implausible one in a row; it ends
with a plausible one (R190). -/
def notePlausibility (n : Nat) (f : Feed) (s : State) : State :=
  let x := slotOf s n
  let u := actuated s x
  let checked : Bool := (x.kind == some .level && f.seq.isSome) || x.kind == some .chainGain
  let s1 := match x.kind with
    | some .level =>
      if f.seq.isSome then
        modSlot n (fun y => (checkLevel (toFine s.cl.plausTol) (chainBand s (ebChain s x.target)) (modelBase s x.target) f.y y).2) s
      else s
    | some .chainGain =>
      if f.hold = .plausibility then modSlot n (fun y => { y with implRun := y.implRun + 1, implCount := y.implCount + 1 }) s
      else if f.hold = .none then modSlot n (fun y => { y with implRun := 0 }) s else s
    | _ => s
  if checked = false then s1
  else if f.hold = .plausibility then
    (if s.cl.plausCount ≤ (slotOf s1 n).implRun then raiseLevel { cls := 0x51, unit := u } s1 else s1)
  else if f.hold = .none then endFault 0x51 u s1 else s1

/-! ## Iterations -/

/-- A pending swap takes effect (R197, R198). -/
def takeSwap (n : Nat) (s : State) : State :=
  let x := slotOf s n
  if x.swap = false then s
  else
    let s1 := modSlot n (fun y => { y with bankSel := !y.bankSel, swap := false }) s
    let s2 := match bankOf (slotOf s1 n) with
      | some c => if x.kind = some SlotKind.chainGain then s1
        else modSlot n (fun y => { y with i := max (toFine c.uMin) (min (toFine c.uMax) y.i) }) s1
      | none => s1
    let s3 := s2.modCl (fun c => { c with swaps := c.swaps + 1, swapSat := if x.sat then c.swapSat + 1 else c.swapSat })
    if x.sat then
      submitLog 0x0701 (sourceIndex 3 n) [n, flag x.bankSel, flag (!x.bankSel), unsignedOf 32 x.u] s3
    else s3

/-- A new output limited to 1 dB per 10 ms while a soft-start runs (R192). -/
def rateLimit (p : Nat) (x : Slot) (u : Int) : Int :=
  if x.soft.isSome then
    let m : Int := ((2 ^ p * 1024 / 5 : Nat) : Int)
    max (x.uFine - m) (min (x.uFine + m) u)
  else u

/-- The soft-start is over once its time has passed and the rate limit no longer binds (R192). -/
def softOver (t : Nat) (k : SoftStart) (bound : Bool) : Bool :=
  !bound && (match k.begun with
    | some (t0, _) => decide (t0 + k.ramp ≤ t)
    | none => false)

/-- The output of a LEVEL or GAIN slot is written; the others only hold theirs. -/
def putOutput (n : Nat) (u : Int) (s : State) : State :=
  match outputOf (slotOf s n) with
  | some e => writeGcmd e (ofFine u) (modSlot n (fun y => { y with u := ofFine u, uFine := u }) s)
  | none => modSlot n (fun y => { y with u := ofFine u, uFine := u }) s

/-- One iteration of the PID law (R183–R186) of a LEVEL or outer slot that runs. -/
def pidIteration (n : Nat) (c : Coeffs) (y : Int) (s : State) : State :=
  let x := slotOf s n
  let p := periodExp s x
  let t := now s
  let overrun := x.reason = .overrun
  let k := x.soft.map (fun k => { k with begun := k.begun <|> some (t, y) })
  let target := effectiveSetpoint s n x
  let r := match k with
    | some k => rampSetpoint t target k
    | none => target
  let e := sat32 (if x.kind = some .margin then y - r else r - y)
  let j := match injecting x with
    | some j => if j.atOutput then injectionValue j else 0
    | none => 0
  let d := match x.yPrev with
    | some y0 => if x.late then x.d else sat32 (mulQ (betaOf c p) x.d - mulQ (sat32 (kdOf c p)) (sat32 (y - y0)))
    | none => x.d
  let i0 := if x.bumpless then sat32 (x.i - mulQ c.kp e - j) else x.i
  let v := sat32 (mulQ c.kp e + i0 + d + j)
  let u0 := max (toFine c.uMin) (min (toFine c.uMax) v)
  let u := rateLimit p x u0
  let s1 := if overrun then s else putOutput n u s
  let w := if overrun then toFine x.u
    else if isOuter x then u else boundByStack (s1.np.gain.get x.target).report u
  let inner := baseSlot s x
  let push := mulQ (sat32 (kiOf c p)) e
  let stopped : Bool := isOuter x && inner.sat && (if inner.satUp then decide (0 < push) else decide (push < 0))
  let integ := sat32 (i0 + (if stopped then 0 else push) + mulQ (sat32 (ktOf c p)) (sat32 (w - v)))
  let s2 := modSlot n (fun z => { z with
    i := integ, bumpless := false, d := d, yPrev := some y, r := ofFine r, y := ofFine y
    soft := k.bind (fun k => if softOver t k (u != u0) then none else some k) }) s1
  noteLimit n c (setSat n v w s2)

/-- One iteration of a GAIN slot (R189, R192). -/
def gainIteration (n : Nat) (c : Coeffs) (s : State) : State :=
  let x := slotOf s n
  let p := periodExp s x
  let t := now s
  let target := effectiveSetpoint s n x
  let j := match injecting x with
    | some j => if j.atOutput then injectionValue j else 0
    | none => 0
  let v := sat32 ((match x.soft with
    | some k => rampSetpoint t target k
    | none => target) + j)
  let u0 := max (toFine c.uMin) (min (toFine c.uMax) v)
  let u := rateLimit p x u0
  let s1 := if x.reason = .overrun then s else putOutput n u s
  let w := if x.reason = .overrun then toFine x.u else boundByStack (s1.np.gain.get x.target).report u
  let s2 := modSlot n (fun z => { z with
    r := ofFine target, soft := x.soft.bind (fun k => if softOver t k (u != u0) then none else some k) }) s1
  noteLimit n c (setSat n v w s2)

/-- The attenuation that R188 gives, dB. `w` is WB_PEAK, `t` the set-point and `h` the hysteresis, 0.01 dB. -/
def chainGainLaw (w t h : Int) (a lo hi : Int) : Int :=
  let step : Int :=
    if 0 ≤ w then 6
    else if t + h < w then min 6 ((w - t + 99) / 100)
    else if w < t - h then -(min 6 ((t - w) / 100))
    else 0
  max lo (min hi (a + step))

/-- a_lo (R188). -/
def attenFloor (s : State) (c : Nat) (b : Coeffs) : Int := min 24 (b.uMin / 100 + 6 * (s.cl.raises.get c : Nat))

/-- One iteration of a CHAIN_GAIN slot (R188). -/
def chainGainIteration (n : Nat) (c : Coeffs) (w : Int) (s : State) : State :=
  let x := slotOf s n
  let a := (s.rf.chains.get x.target).atten
  let v := chainGainLaw (ofFine w) (ofFine (baseSetpoint (now s) x)) x.param (a : Int) (attenFloor s x.target c) (c.uMax / 100)
  let s1 := if x.reason = .overrun ∨ v = (a : Int) then s else (requestAtten x.target v.toNat s).1
  noteLimit n c (modSlot n (fun z => { z with
    r := ofFine (baseSetpoint (now s) x), y := ofFine w
    u := if x.reason = .overrun then z.u else 100 * v, uFine := if x.reason = .overrun then z.uFine else toFine (100 * v) }) s1)

/-- A held iteration writes nothing (R187); an injection ends at a hold other than STALE (R203). -/
def holdIteration (n : Nat) (f : Feed) (s : State) : State :=
  let x := slotOf s n
  let s1 := modSlot n (fun y => { y with
    run := .hold, reason := if y.reason = .overrun then .overrun else f.hold, late := true
    y := if f.hold = .stale then y.y else ofFine f.y }) s
  let s2 := if f.hold = .stale then s1 else stopInjection n 1 s1
  if x.run = .hold then s2 else causeTraces n .hold s2

/-- An iteration that runs: swap, law, and the counts of late ticks and injections (R197, R201, R203). -/
def runIteration (n : Nat) (f : Feed) (s : State) : State :=
  let x := slotOf s n
  let s1 := modSlot n (fun y => { y with
    reason := if y.reason = .overrun then .overrun else .none
    injected := match injecting y with
      | some j => ofFine (injectionValue j)
      | none => 0 }) (takeSwap n s)
  let s2 := match bankOf (slotOf s1 n) with
    | none => s1
    | some c =>
      match x.kind with
      | some .gain => gainIteration n c s1
      | some .chainGain => chainGainIteration n c f.y s1
      | some _ => pidIteration n c f.y s1
      | none => s1
  let s3 := modSlot n (fun y => { y with
    run := if y.reason = .overrun then .hold else if y.soft.isSome then .softStart else .running
    late := false
    inj := y.inj.map (fun j => if j.started ∧ j.done < j.count ∧ j.stop = none then { j with done := j.done + 1 } else j) }) s2
  if x.late then s3.modCl (fun c => { c with lateTicks := c.lateTicks + 1 }) else s3

/-- Cycles used in a tick noted for one second (page 3). -/
def noteUsage (cycles : Nat) (s : State) : State :=
  let k := s.air.frame * 320 + s.air.offset / tcPerTick
  s.modCl (fun c =>
    let l := c.usage.filter (fun x => decide (now s < x.2.1 + tcPerSecond))
    { c with usage := match l with
      | (t, m, y) :: rest => if t = k then (t, m, y + cycles) :: rest else (k, now s, cycles) :: l
      | [] => [(k, now s, cycles)] })

/-- The iteration of a slot for its due sample, when its turn has come (R181–R192); an iteration that is not first in the order of
R181 does not run yet. -/
def slotIteration (n : Nat) (i : IterInput) (s : State) : State :=
  let x := slotOf s n
  if slotEnabled x = false ∨ slotTurn s n = false then s
  else
    let due := dueSample s.air (periodExp s x) x
    let s1 := advanceToAir due s
    let sample := now s1 - tcSince s1.air due
    let s2 := advanceTo (sample + 4 * i.latency) s1
    let s3 := match x.inj with
      | some j =>
        let a := if j.started = false ∧ injectionDue s2 j then beginInjection n s2 else s2
        if serviceCode s2 (actuated s2 x) ≠ 0 then stopInjection n 3 a else a
      | none => s2
    let f := slotFeed s3 n i
    let s4 := notePlausibility n f s3
    let s5 := modSlot n (fun y => { y with
      lastAt := some due, iter := y.iter + 1, ovrRun := 0, lastSeq := f.seq <|> y.lastSeq
      onTime := if y.reason = .overrun then y.onTime + 1 else 0
      delays := (now s4, i.latency) :: y.delays.filter (fun d => decide (now s4 < d.1 + tcPerSecond)) }) s4
    let s6 := if f.hold = .none then runIteration n f s5 else holdIteration n f s5
    let lim := (s6.np.gain.get (baseSlot s6 x).target).limiter
    let s7 := if lim ≠ x.limiter ∧ x.kind ≠ some .chainGain then
        modSlot n (fun y => { y with limiter := lim }) (causeTraces n .limiter s6) else s6
    noteUsage ((x.kind.map iterCycles).getD 0) (recordTrace n sample false (x.late && f.hold == .none) i.latency s7)

def execSlotIteration (n : Nat) (i : IterInput) (s : State) : Host.Outcome State Fault Refusal := .next (slotIteration n i s)

/-- An iteration has not completed when the next sample arrives: it is abandoned; the third in a row holds the slot and raises
LOOP_OVERRUN (R199, R200). -/
def iterationOverrun (n : Nat) (s : State) : State :=
  let x := slotOf s n
  if slotEnabled x = false then s
  else
    let p := periodExp s x
    let due := dueSample s.air p x
    let s1 := advanceToAir (instantPlus due (tcPerTick * 2 ^ p)) s
    let third := decide (2 ≤ x.ovrRun)
    let s2 := modSlot n (fun y => { y with
      lastAt := some due, overruns := y.overruns + 1, ovrRun := min 3 (y.ovrRun + 1), onTime := 0
      run := if third then .hold else y.run, reason := if third then .overrun else y.reason
      late := y.late || third }) s1
    let s3 := s2.modCl (fun c => { c with overruns := c.overruns + 1 })
    let s4 := if third ∧ x.run ≠ .hold then causeTraces n .hold (stopInjection n 1 s3)
      else if third then stopInjection n 1 s3 else s3
    let s5 := if third then raiseLevel { cls := 0x50, unit := slotUnit n } s4 else s4
    recordTrace n (now s1 - tcPerTick * 2 ^ p) true false 0 s5

def execIterationOverrun (n : Nat) (s : State) : Host.Outcome State Fault Refusal := .next (iterationOverrun n s)

/-- After RESUME_COUNT consecutive on-time iterations the overrun hold ends (R200). -/
def overrunHoldEnd (n : Nat) (s : State) : State :=
  let x := slotOf s n
  if x.reason = .overrun ∧ s.cl.resume ≤ x.onTime then
    endFault 0x50 (slotUnit n) (modSlot n (fun y => { y with
      reason := .none, run := if y.soft.isSome then .softStart else .running, onTime := 0, late := true }) s)
  else s

def execOverrunHoldEnd (n : Nat) (s : State) : Host.Outcome State Fault Refusal := .next (overrunHoldEnd n s)

/-- The output has equalled a limit for SAT_TIME (R206). -/
def loopSaturatedTimeout (n : Nat) (s : State) : State :=
  match (slotOf s n).limitAt with
  | some t => raiseLevel { cls := 0x52, unit := slotUnit n } (advanceTo (t + s.cl.satTime * 196608000) s)
  | none => s

def execLoopSaturatedTimeout (n : Nat) (s : State) : Host.Outcome State Fault Refusal := .next (loopSaturatedTimeout n s)

/-- An injection starts at the first iteration at or after its start frame (R203). -/
def injectionStart (n : Nat) (s : State) : State :=
  let x := slotOf s n
  match x.inj with
  | some j =>
    if j.started then s
    else
      let s1 := match j.frame with
        | some f => advanceToAir ⟨f, 0⟩ s
        | none => s
      beginInjection n (advanceToAir (dueSample s1.air (periodExp s1 x) x) s1)
  | none => s

def execInjectionStart (n : Nat) (s : State) : Host.Outcome State Fault Refusal := .next (injectionStart n s)

/-- An injection whose count is done, or that ends early, posts its completion (R203). -/
def injectionEnd (n : Nat) (s : State) : State :=
  match (slotOf s n).inj with
  | some j => if j.count ≤ j.done ∨ j.stop.isSome then endInjection n s else s
  | none => s

def execInjectionEnd (n : Nat) (s : State) : Host.Outcome State Fault Refusal := .next (injectionEnd n s)

/-! ## Repetitive controllers (R193–R196) -/

/-- The pattern of a repetitive controller. -/
def repPattern (s : State) (t : Nat) : Option PatternDef := (s.air.patterns.get (s.cl.reps.get t).pattern).defn

/-- Bin `b` overlaps a segment of the chain's own direction (R193). -/
def binInUse (s : State) (t : Nat) (d : PatternDef) (b : Nat) : Bool :=
  let own : SegType := if dlChain s (t + 8) then .dl else .ul
  (segmentStarts d).any (fun x => x.2.2 == own && decide (x.1 < (b + 1) * (d.period / 64)) && decide (b * (d.period / 64) < x.2.1))

/-- The bins in use of a controller, rising. -/
def binsInUse (s : State) (t : Nat) : List Nat :=
  match repPattern s t with
  | some d => (List.range 64).filter (binInUse s t d)
  | none => []

/-- The band paths on which a controller acts (R193). -/
def repTargets (s : State) (t : Nat) : List (Nat × Int) :=
  ((ebs s).filter (fun p => p.2.params.chain == t + 8 && p.2.params.tdd == some (s.cl.reps.get t).pattern)).filterMap
    (fun p => (slotOfEb s p.1).map (fun x => (p.1, x.2.u)))

/-- A controller's table is cleared (R196). -/
def clearRep (r : Rep) : Rep := { r with table := Bank.fill 0, applied := Bank.fill 0, clear := false }

/-- The next bin boundary of a pattern: the present instant if it has not been passed, else the next. -/
def nextBin (a : AirState) (d : PatternDef) (r : Rep) : AirInstant × Nat :=
  let w := d.period / 64
  let pos := patternPos d (airNow a)
  if pos % w = 0 ∧ r.binAt ≠ some (airNow a) then (airNow a, pos / w)
  else (instantPlus (airNow a) (w - pos % w), (pos / w + 1) % 64)

/-- A bin boundary: G_cmd = u + r[b] on each band path of the controller; bin 0 starts a pattern period (R195, R196). -/
def repBinBoundary (t : Nat) (s : State) : State :=
  match repPattern s t with
  | none => s
  | some d =>
    let r := s.cl.reps.get t
    if r.enabled = false ∧ r.clear = false then s
    else
      let (i, b) := nextBin s.air d r
      let s1 := modRep t (fun y =>
        let z := if b = 0 ∧ y.clear then clearRep y else y
        { z with
          bin := some b, binAt := some i, applied := z.applied.set b (z.table.get b)
          usedLast := if b = 0 then z.usedNow else z.usedLast, usedNow := if b = 0 then false else z.usedNow })
        (advanceToAir i s)
      (repTargets s1 t).foldl (fun acc p => writeGcmd p.1 p.2 acc) s1

def execRepBinBoundary (t : Nat) (s : State) : Host.Outcome State Fault Refusal := .next (repBinBoundary t s)

/-- The table is cleared at the start of the next pattern period (R196). -/
def repTableClear (t : Nat) (s : State) : State :=
  let r := s.cl.reps.get t
  if r.clear = false then s
  else
    let s1 := match repPattern s t with
      | some d =>
        let pos := patternPos d (airNow s.air)
        if pos = 0 then s else advanceToAir (instantPlus (airNow s.air) (d.period - pos)) s
      | none => s
    let s2 := modRep t clearRep s1
    (repTargets s2 t).foldl (fun acc p => writeGcmd p.1 p.2 acc) s2

def execRepTableClear (t : Nat) (s : State) : Host.Outcome State Fault Refusal := .next (repTableClear t s)

/-- The controllers of a pattern whose period, anchor or segments change (R196). -/
def patternClears (p : Nat) (s : State) : State :=
  (List.range 8).foldl (fun acc t => if (acc.cl.reps.get t).pattern = p then askRepClear t acc else acc) s

/-- limit_steps of R194: each in-use bin, from the first after a bin not in use, to within `m` of its predecessor. -/
def limitSteps (m : Int) (order : List Nat) (tab : Bank Int) : Bank Int :=
  (order.foldl (fun (acc : Option Int × Bank Int) b =>
    match acc.1 with
    | none => (some (acc.2.get b), acc.2)
    | some prev =>
      let v := max (prev - m) (min (prev + m) (acc.2.get b))
      (some v, acc.2.set b v)) (none, tab)).2

/-- The in-use bins in ascending cyclic order from the first one after a bin not in use. -/
def stepOrder (use_ : List Nat) : List Nat :=
  match (List.range 64).find? (fun b => use_.contains ((b + 1) % 64) && !use_.contains b) with
  | some b => (List.range 64).filterMap (fun k => if use_.contains ((b + 1 + k) % 64) then some ((b + 1 + k) % 64) else none)
  | none => use_

/-- The update of R194 after a usable dwell; `q` holds the plant gain of each formed bin, 0.01 dB. -/
def repUpdate (t : Nat) (q : List (Nat × Int)) (s : State) : State :=
  let r := s.cl.reps.get t
  let use_ := binsInUse s t
  let formed := q.filter (fun x => use_.contains x.1)
  if r.enabled = false then s
  else
    let mean := roundEven ((formed.map (fun x => toFine x.2)).sum) (formed.length : Int)
    let err (b : Nat) : Option Int := (formed.find? (fun x => x.1 == b)).map (fun x => -(toFine x.2 - mean + r.applied.get b))
    let tv (b : Nat) : Int := r.table.get b + (match err b with
      | some e => roundEven ((r.lGain : Int) * e) 65536
      | none => 0)
    let n := use_.length
    let sv (k : Nat) : Int :=
      roundEven (tv (use_.getD ((k + n - 1) % n) 0) + 2 * tv (use_.getD k 0) + tv (use_.getD ((k + 1) % n) 0)) 4
    let ss := (List.range n).map (fun k => (use_.getD k 0, sv k))
    let m := roundEven ((ss.map (·.2)).sum) (n : Int)
    let lim := toFine (r.limit : Int)
    let tab := ss.foldl (fun (acc : Bank Int) x =>
      acc.set x.1 (clampI lim (roundEven (((65536 - r.lambda : Nat) : Int) * (x.2 - m)) 65536))) (Bank.fill 0)
    let worst := formed.foldl (fun acc x => max acc (((err x.1).getD 0).natAbs)) 0
    modRep t (fun y => { y with
      table := limitSteps (toFine (r.stepMax : Int)) (stepOrder use_) tab
      updates := y.updates + 1, usedNow := true, last := now s, resid := (ofFine (worst : Int)).toNat }) s

/-! ## Commands -/

/-- Valid set-points of a kind (CL_SLOT_CONFIG). -/
def setpointOk (k : SlotKind) (v : Int) : Bool :=
  match k with
  | .gain => withinI (-3000) 7000 v
  | .level => withinI (-2000) 6500 v
  | .chainGain => withinI (-3000) 0 v
  | .ulNoise => withinI (-12000) 0 v
  | .margin => withinI 600 4000 v

/-- Valid values of `param`. -/
def paramOk (k : SlotKind) (v : Int) : Bool :=
  match k with
  | .level => withinI (-2000) 10000 v
  | .chainGain => withinI 100 1200 v
  | _ => v == 0

/-- Valid targets of a kind. An outer slot named as the inner one is no LEVEL or GAIN slot, and the error list answers it with
E_CONFLICT: it passes here and is turned away there (log entry 137). -/
def targetOk (s : State) (k : SlotKind) (t : Nat) : Bool :=
  match k with
  | .level | .gain => ebExists s t
  | .chainGain => within 0 7 t && (s.rf.chains.get t).fe != .off
  | .ulNoise | .margin => decide (t < 512) && ((outputOf (slotOf s t)).isSome || isOuter (slotOf s t))

/-- The slot that a CL_SLOT_CONFIG payload leaves, before enabling. -/
def configuredSlot (k : SlotKind) (p : List Byte) (x : Slot) : Slot :=
  { x with
    kind := some k, rate := u8 p 3, target := u16 p 4, obs := u8 p 6 == 1, softFlag := (u8 p 7).testBit 1
    setpoint := s32 p 8, spRamp := none, param := s32 p 12, rampMs := u32 p 16 }

/-- A LEVEL or GAIN slot that becomes the writer of G_cmd starts from the command in force (R177). -/
def takesOver (s : State) (k : SlotKind) (x : Slot) : Slot :=
  if (k = .level ∨ k = .gain) ∧ x.run = .disabled then { x with u := (s.np.gain.get x.target).gCmd - ofFine (repNow s x.target) } else x

/-- A slot is released; its output stays in place (R177). -/
def releaseSlot (n : Nat) (s : State) : State :=
  let s0 := stopInjection n 3 s
  endFault 0x50 (slotUnit n) (endFault 0x52 (slotUnit n) (modSlot n (fun _ => {}) (endInjection n s0)))

/-- The effect of CL_SLOT_CONFIG. -/
def slotConfig (p : List Byte) (s : State) : State :=
  let n := u16 p 0
  match slotKindOf (u8 p 2) with
  | none => releaseSlot n s
  | some k =>
    let x := slotOf s n
    let s1 := modSlot n (fun y => takesOver s k (configuredSlot k p y)) s
    let s2 := if k = .level ∧ u8 p 6 = 0 then
        modBand .egress (u16 p 4) (fun b => { b with windowNext := some (u8 p 3) }) s1 else s1
    if (u8 p 7).testBit 0 ∧ slotEnabled x = false then enableSlot n ((u8 p 7).testBit 1) s2
    else if slotEnabled x then modSlot n (fun y => { y with lastAt := some (gridFloor s2.air (periodExp s2 y)) }) s2
    else s2

/-- CL_SLOT_CONFIG (0x0701). -/
def specClSlotConfig : CommandSpec where
  opcode := 0x0701
  role := some .operate
  power := activeOrQuiet
  length := fixedLength 20
  states := roleSet
  checks := fun s q =>
    let p := q.payload
    let n := u16 p 0
    let x := slotOf s n
    let t := u16 p 4
    match slotKindOf (u8 p 2) with
    | none =>
      [field 0 (decide (n < 512)), field 2 (u8 p 2 == 0), need .eConflict ((outersOf s n).isEmpty)]
    | some k =>
      let outer : Bool := k == SlotKind.ulNoise || k == SlotKind.margin
      let e := (slotOf s t).target
      [field 0 (decide (n < 512)),
       field 3 (if outer then within 1 8 (u8 p 3) else within 0 8 (u8 p 3)), field 4 (targetOk s k t),
       field 6 (if k = .level then within 0 1 (u8 p 6) else u8 p 6 == 0), field 7 (decide (u8 p 7 < 4)),
       field 8 (setpointOk k (s32 p 8)), field 12 (paramOk k (s32 p 12)), field 16 (within 0 60000 (u32 p 16)),
       need .eResource (loadAdmits s (slotConfig p s)),
       need .eConflict (match k with
         | .level | .gain => (slotOfEb s t).all (fun y => y.1 == n)
         | .chainGain => (boundSlots s).all (fun y => y.1 == n || y.2.kind != some .chainGain || y.2.target != t)
         | _ => true),
       need .eConflict (!outer || (((outersOf s t).filter (fun y => y.1 != n)).length < 2 && !isOuter (slotOf s t))),
       need .eConflict (x.kind.isNone || (x.kind == some k && x.target == t)),
       need .eConflict (match k with
         | .ulNoise => ulChain s (ebChain s e)
         | .margin => (match s.ce.eb.get e, s.lg.loops.get e with
           | some b, some l => loopClosed s b l
           | _, _ => false)
         | _ => true),
       need .eConflict (k != .level || u8 p 6 == 0 || (s.rf.obsMap.get (ebChain s t - 8)).isSome),
       need .eConflict (k != .level || u8 p 6 == 1 || (boundSlots s).all (fun y =>
         y.1 == n || y.2.kind != some .level || y.2.obs || y.2.target != t || y.2.rate == u8 p 3)),
       need .eConflict (!(u8 p 7).testBit 0 || (bankOf x).isSome)]
  effect := fun s q =>
    let t := slotConfig q.payload s
    (t, { payload := le 4 (loadUp t) ++ le 1 (periodExp t (slotOf t (u16 q.payload 0))) ++ le 3 0 })

def execClSlotConfig (r : HostRequest) (s : State) : Host.Outcome State Fault Refusal := .next (submit specClSlotConfig r s)

/-- The bank in a CL_BANK_WRITE payload. -/
def coeffsOf (p : List Byte) : Coeffs :=
  { kp := s32 p 4, ki := u32 p 8, kd := u32 p 12, tf := u32 p 16, kt := u32 p 20, uMin := s32 p 24, uMax := s32 p 28 }

/-- Output range of a kind, 0.01 dB (CL_BANK_WRITE). -/
def outputRange (k : SlotKind) (v : Int) : Bool :=
  match k with
  | .level | .gain => withinI (-3000) 7000 v
  | .chainGain => withinI 0 2400 v && v % 100 == 0
  | .ulNoise | .margin => withinI (-4000) 0 v

/-- CL_BANK_WRITE (0x0702). -/
def specClBankWrite : CommandSpec where
  opcode := 0x0702
  role := some .operate
  power := activeOrQuiet
  length := fixedLength 32
  states := roleSet
  checks := fun s q =>
    let p := q.payload
    let n := u16 p 0
    let x := slotOf s n
    let c := coeffsOf p
    let k := x.kind.getD .level
    let e := periodExp s x
    let plain : Bool := k == SlotKind.chainGain
    [field 0 (decide (n < 512) && x.kind.isSome), field 2 (within 0 1 (u8 p 2)), field 3 (zeros p 3 1),
     field 4 (withinI (-268435456) 268435456 c.kp && (!plain || c.kp == 0)),
     field 8 (within 0 10000000 c.ki && (!plain || c.ki == 0) && fitsQ (kiOf c e)),
     field 12 (within 0 1000000 c.kd && (!plain || c.kd == 0) && fitsQ (kdOf c e)),
     field 16 (within 0 1000000 c.tf && (!plain || c.tf == 0)),
     field 20 (within 0 10000000 c.kt && (!plain || c.kt == 0) && fitsQ (ktOf c e)),
     field 24 (outputRange k c.uMin), field 28 (outputRange k c.uMax && decide (c.uMin ≤ c.uMax)),
     need .eConflict (!(slotEnabled x && x.bankSel == (u8 p 2 == 1)))]
  effect := fun s q =>
    let p := q.payload
    (modSlot (u16 p 0) (fun x =>
      if u8 p 2 = 0 then { x with bankA := some (coeffsOf p) } else { x with bankB := some (coeffsOf p) }) s, {})

def execClBankWrite (r : HostRequest) (s : State) : Host.Outcome State Fault Refusal := .next (submit specClBankWrite r s)

/-- The slots that a CL_BANK_SWAP mask selects. -/
def swapSlots (p : List Byte) : List Nat := let m := uN p 0 64; (List.range 512).filter (fun i => m.testBit i)

/-- CL_BANK_SWAP (0x0703). -/
def specClBankSwap : CommandSpec where
  opcode := 0x0703
  role := some .operate
  power := activeOrQuiet
  length := fixedLength 68
  states := roleSet
  checks := fun s q =>
    let p := q.payload
    let l := (swapSlots p).map (slotOf s)
    [field 0 (!l.isEmpty), field 64 (within 0 1 (u8 p 64)), field 65 (zeros p 65 3),
     need .eBusy (l.all (fun x => !x.swap)),
     need .eConflict (l.all (fun x => x.kind.isSome && (if u8 p 64 = 0 then x.bankA else x.bankB).isSome))]
  effect := fun s q =>
    let b := u8 q.payload 64 == 1
    ((swapSlots q.payload).foldl (fun acc n => modSlot n (fun x => { x with swap := x.bankSel != b }) acc) s, {})

def execClBankSwap (r : HostRequest) (s : State) : Host.Outcome State Fault Refusal := .next (submit specClBankSwap r s)

/-- CL_SETPOINT (0x0704). -/
def specClSetpoint : CommandSpec where
  opcode := 0x0704
  role := some .operate
  power := activeOrQuiet
  length := fixedLength 12
  states := roleSet
  checks := fun s q =>
    let p := q.payload
    let x := slotOf s (u16 p 0)
    [field 0 (decide (u16 p 0 < 512) && x.kind.isSome), field 2 (zeros p 2 2),
     field 4 (setpointOk (x.kind.getD .level) (s32 p 4)), field 8 (within 0 60000 (u32 p 8))]
  effect := fun s q =>
    let p := q.payload
    let t := now s
    (modSlot (u16 p 0) (fun x => { x with
      setpoint := s32 p 4
      spRamp := if u32 p 8 = 0 ∨ x.soft.isSome then none else some (baseSetpoint t x, t, tcOfMs (u32 p 8)) }) s, {})

def execClSetpoint (r : HostRequest) (s : State) : Host.Outcome State Fault Refusal := .next (submit specClSetpoint r s)

/-- The effect of CL_SLOT_CONTROL. -/
def slotControl (n action : Nat) (s : State) : State :=
  let x := slotOf s n
  if action = 0 then disableSlot n s
  else if action = 1 then (if slotEnabled x then s else enableSlot n x.softFlag s)
  else enableSlot n true s

/-- CL_SLOT_CONTROL (0x0705). -/
def specClSlotControl : CommandSpec where
  opcode := 0x0705
  role := some .operate
  power := activeOrQuiet
  length := fixedLength 4
  states := roleSet
  checks := fun s q =>
    let p := q.payload
    let n := u16 p 0
    let x := slotOf s n
    [field 0 (decide (n < 512) && x.kind.isSome), field 2 (within 0 2 (u8 p 2)), field 3 (zeros p 3 1),
     need .ePenned (u8 p 2 == 0 || !penned s (actuated s x)),
     need .eResource (loadAdmits s (slotControl n (u8 p 2) s)),
     need .eConflict (u8 p 2 == 0 || (bankOf x).isSome)]
  effect := fun s q => (slotControl (u16 q.payload 0) (u8 q.payload 2) s, {})

def execClSlotControl (r : HostRequest) (s : State) : Host.Outcome State Fault Refusal := .next (submit specClSlotControl r s)

/-- The effect of CL_REP_CONFIG. -/
def repConfig (p : List Byte) (s : State) : State :=
  modRep (u8 p 0 - 8) (fun r =>
    let y : Rep := { r with
      pattern := u8 p 2, lGain := u16 p 4, lambda := u16 p 6, limit := u16 p 8, stepMax := u16 p 10 }
    if u8 p 1 = 0 then { y with enabled := false, clear := true }
    else if r.enabled then { y with clear := r.clear || r.pattern != u8 p 2 }
    else { clearRep y with enabled := true, bin := none, binAt := none, updates := 0 }) s

/-- CL_REP_CONFIG (0x0706). -/
def specClRepConfig : CommandSpec where
  opcode := 0x0706
  role := some .operate
  power := activeOrQuiet
  length := fixedLength 12
  states := roleSet
  checks := fun s q =>
    let p := q.payload
    let t := u8 p 0 - 8
    [field 0 (within 8 15 (u8 p 0)), field 1 (within 0 1 (u8 p 1)), field 2 (within 0 7 (u8 p 2)), field 3 (zeros p 3 1),
     field 4 (within 1 32768 (u16 p 4)), field 6 (within 0 655 (u16 p 6)), field 8 (within 10 300 (u16 p 8)),
     field 10 (within 10 100 (u16 p 10)),
     need .eResource (loadAdmits s (repConfig p s)),
     need .eConflict ((s.air.patterns.get (u8 p 2)).state != .unset && (s.rf.obsMap.get t).isSome &&
       (s.ce.dpd.get t).state != .off)]
  effect := fun s q => (repConfig q.payload s, {})

def execClRepConfig (r : HostRequest) (s : State) : Host.Outcome State Fault Refusal := .next (submit specClRepConfig r s)

/-- A trace buffer cleared and armed; RECOVERY records from the start (R204). -/
def armTrace (mode slot decimation pre triggers : Nat) : Trace :=
  { mode, slot, decimation, pre, triggers, state := if mode = 0 then .idle else if mode = 3 then .recording else .armed }

/-- The effect of starting an injection. -/
def startInjection (p : List Byte) (t : Ticket) (s : State) : State :=
  let n := u16 p 0
  let s1 := modSlot n (fun x => { x with inj := some {
    atOutput := u8 p 2 == 1, shape := u8 p 3, amp := u32 p 4, arg := u16 p 8
    trace := if u8 p 10 = 0xFF then none else some (u8 p 10), count := u32 p 12
    frame := if u32 p 16 = 0 then none else some (u32 p 16), ticket := t } }) s
  if u8 p 10 = 0xFF then s1 else s1.modCl (fun c => { c with traces := c.traces.set (u8 p 10) (armTrace 2 n 1 0 0) })

/-- CL_INJECT (0x0707). -/
def specClInject : CommandSpec where
  opcode := 0x0707
  role := some .operate
  power := activeOrQuiet
  length := fixedLength 20
  states := fun s q =>
    let x := slotOf s (u16 q.payload 0)
    roleSet s q && (!(decide (u16 q.payload 0 < 512) && slotEnabled x) || serviceCode s (actuated s x) == 0)
  checks := fun s q =>
    let p := q.payload
    let x := slotOf s (u16 p 0)
    let on := u8 p 3 != 0
    [field 0 (decide (u16 p 0 < 512) && slotEnabled x &&
       (x.kind == some .level || x.kind == some .ulNoise || x.kind == some .margin)),
     field 2 (within 0 1 (u8 p 2)), field 3 (within 0 3 (u8 p 3)), field 4 (within 1 300 (u32 p 4)),
     field 8 (if u8 p 3 = 2 then within 7 15 (u16 p 8) else if u8 p 3 = 3 then within 4 4096 (u16 p 8) else u16 p 8 == 0),
     field 10 (within 0 7 (u8 p 10) || u8 p 10 == 0xFF), field 11 (zeros p 11 1), field 12 (within 1 1048576 (u32 p 12)),
     field 16 (u32 p 16 == 0 || decide (2 ≤ frameDistance s (u32 p 16))),
     need .eBusy (!on || x.inj.isNone),
     need .eResource (!on || decide (((boundSlots s).filter (fun y => y.2.inj.isSome)).length < 16)),
     need .eResource (!on || loadAdmits s (startInjection p (ticketOf q) s))]
  effect := fun s q =>
    if u8 q.payload 3 = 0 then (stopInjection (u16 q.payload 0) 4 s, {})
    else (startInjection q.payload (ticketOf q) s, { status := .accepted })

def execClInject (r : HostRequest) (s : State) : Host.Outcome State Fault Refusal := .next (submit specClInject r s)

/-- The effect of CL_TRACE_CONFIG. -/
def traceConfig (p : List Byte) (s : State) : State :=
  s.modCl (fun c => { c with traces := c.traces.set (u8 p 0) (armTrace (u8 p 1) (u16 p 2) (u16 p 4) (u16 p 6) (u8 p 8)) })

/-- CL_TRACE_CONFIG (0x0708). -/
def specClTraceConfig : CommandSpec where
  opcode := 0x0708
  role := some .operate
  power := activeOrQuiet
  length := fixedLength 12
  states := roleSet
  checks := fun s q =>
    let p := q.payload
    [field 0 (within 0 7 (u8 p 0)), field 1 (within 0 3 (u8 p 1)),
     field 2 (decide (u16 p 2 < 512) && (slotOf s (u16 p 2)).kind.isSome), field 4 (within 1 256 (u16 p 4)),
     field 6 (within 0 1023 (u16 p 6)), field 8 (decide (u8 p 8 < 16) && (u8 p 1 != 3 || u8 p 8 != 0)),
     field 9 (zeros p 9 3), need .eResource (loadAdmits s (traceConfig p s))]
  effect := fun s q => (traceConfig q.payload s, {})

def execClTraceConfig (r : HostRequest) (s : State) : Host.Outcome State Fault Refusal := .next (submit specClTraceConfig r s)

/-- Code of a trace state. -/
def TraceState.code : TraceState → Nat
  | .idle => 0 | .armed => 1 | .recording => 2 | .frozen => 3

/-- TRACEj_STATUS, first word. -/
def traceStatus (x : Trace) : Nat := x.mode + 4 * x.state.code + 16 * x.slot

/-- The 32 bytes of a trace entry. -/
def traceBytes (e : TraceEntry) : List Byte :=
  le 4 e.mono ++ le 4 e.iter ++ leS32 e.r ++ leS32 e.y ++ leS32 e.u ++ leS32 e.i ++ leS32 e.inj ++ le 4 e.flags

/-- CL_TRACE_READ (0x0709). -/
def specClTraceRead : CommandSpec where
  opcode := 0x0709
  role := some .monitor
  power := activeOrQuiet
  length := fixedLength 8
  states := roleSet
  checks := fun _ q =>
    let p := q.payload
    [field 0 (within 0 7 (u8 p 0)), field 1 (zeros p 1 1), field 2 (within 0 1023 (u16 p 2)),
     field 4 (within 1 60 (u16 p 4)), field 6 (zeros p 6 2)]
  effect := fun s q =>
    let p := q.payload
    let x := s.cl.traces.get (u8 p 0)
    let l := (x.entries.reverse.drop (u16 p 2)).take (u16 p 4)
    (s, { payload := le 2 l.length ++ le 2 ((triggerIndex x).getD 0xFFFF) ++ le 4 (traceStatus x) ++ l.flatMap traceBytes })

def execClTraceRead (r : HostRequest) (s : State) : Host.Outcome State Fault Refusal := .next (submit specClTraceRead r s)

/-- CL_POLICY (0x070A). -/
def specClPolicy : CommandSpec where
  opcode := 0x070A
  role := some .admin
  power := activeOrQuiet
  length := fixedLength 12
  states := roleSet
  checks := fun _ q =>
    let p := q.payload
    [field 0 (within 100 2000 (u32 p 0)), field 4 (within 1 64 (u16 p 4)), field 6 (within 1 600 (u16 p 6)),
     field 8 (within 8 1024 (u16 p 8)), field 10 (zeros p 10 2)]
  effect := fun s q =>
    let p := q.payload
    (s.modCl (fun c => { c with
      plausTol := (u32 p 0 : Nat), plausCount := u16 p 4, satTime := u16 p 6, resume := u16 p 8 }), {})

def execClPolicy (r : HostRequest) (s : State) : Host.Outcome State Fault Refusal := .next (submit specClPolicy r s)

/-- A reset of the control engine: I, D, K_b, the tables and the traces are lost, every injection is off, and every enabled
slot soft-starts from the measured value (R207). -/
def resetEngine (s : State) : State :=
  let live := (boundSlots s).filter (fun p => slotEnabled p.2)
  let s1 := (boundSlots s).foldl (fun acc p => modSlot p.1 (fun x => { x with
    i := 0, d := 0, kBand := Bank.fill none, learned := 0, inj := none, injected := 0, sat := false, swap := false
    overruns := 0, implCount := 0, implRun := 0, ovrRun := 0, delays := [], lastSeq := none, limitAt := none, soft := none }) acc) s
  let s2 := s1.modCl (fun c => { c with
    traces := Bank.fill {}, carriers := Bank.fill none, usage := [], overruns := 0, lateTicks := 0, swaps := 0, swapSat := 0
    injDone := 0
    reps := { c.reps with cells := c.reps.cells.map (fun p =>
      (p.1, { clearRep p.2 with bin := none, binAt := none, updates := 0, resid := 0, usedLast := false, usedNow := false })) } })
  live.foldl (fun acc p => enableSlot p.1 true acc) s2

end Sys2Proof.Machine
end

