-- ==== Sys2Proof/Machine/Housekeeping.lean ====
section
/-! DEFINITION. Housekeeping (R234–R247, R257): the converter pair, slots and records, urgent requests, the test DAC, system
calibration and the clock monitor. What the end of a round decides about temperatures and supplies is in Machine/Thermal.lean. -/

namespace Sys2Proof.Machine

open Sys2Proof

/-! ## Slots and channels (R235–R237) -/

/-- Tc of a slot: 18.75 µs. -/
abbrev hkSlotTc : Nat := 36864

/-- The channel of a slot (R237). -/
def slotChannel (h : HkState) (k : Nat) : Nat := if k < 82 then k else if k = 126 then 83 else if k = 127 then 84 else h.map.get k

/-- Housekeeping is powered (R20). -/
def hkPowered (s : State) : Bool := s.sys.power != .dormant

/-- Sums of one slot without the samples of excluded converters (R244). -/
def slotSums (h : HkState) (i : HkSlotInput) : HkAccum :=
  let l := (if h.excluded.get 0 then [] else [i.even]) ++ (if h.excluded.get 1 then [] else [i.odd])
  match l with
  | [] => { slots := 1 }
  | x :: rest => rest.foldl (fun a y =>
      { a with sum := a.sum + y.sum, sumsq := a.sumsq + y.sumsq, min := min a.min y.min, max := max a.max y.max, count := a.count + 2048 })
      { sum := x.sum, sumsq := x.sumsq, min := x.min, max := x.max, count := 2048, slots := 1 }

/-- Two accumulations joined. -/
def joinAccum (a b : HkAccum) : HkAccum :=
  if a.count = 0 then { b with slots := a.slots + b.slots }
  else if b.count = 0 then { a with slots := a.slots + b.slots }
  else { sum := a.sum + b.sum, sumsq := a.sumsq + b.sumsq, min := min a.min b.min, max := max a.max b.max
         count := a.count + b.count, slots := a.slots + b.slots }

/-! ## Conversion (R239) -/

/-- Coefficients in force of a channel. The gain of a drain-current channel is that of the shunt voltage, scaled by SHUNT. -/
def coefficients (s : State) (c : Nat) : HkCal :=
  match s.hk.cal.get c with
  | some k => k
  | none =>
    let g := Config.factoryGain c
    let o := Config.factoryOffset c
    let shunt := (s.ps.cassettes.get (c / 5)).shunt
    { gain := if c < 40 ∧ c % 5 = 0 then ⟨g.1 * 100, (g.2 + 1) * shunt⟩ else ⟨g.1, g.2 + 1⟩, offset := ⟨o.1, o.2 + 1⟩ }

/-- gain × (sum / count − offset), rounded to even; none without samples. -/
def convert (k : HkCal) (sum : Int) (count : Nat) : Option Int :=
  if count = 0 then none
  else some (roundEven (k.gain.num * (sum * k.offset.den - k.offset.num * count)) ((k.gain.den * count * k.offset.den : Nat) : Int))

/-- VALUE of a channel's published record. -/
def hkValue (s : State) (c : Nat) : Option Int := (s.hk.records.get c).value

/-! ## Slot ends (R235, R243, R244) -/

/-- Test-DAC level of a round (R243). -/
def dacLevel (round : Nat) : Nat := round % 8

/-- A converter fails its test slot (R244). -/
def testFails (expected16 : Int) (x : AdcSums) : Bool :=
  decide (82 * 16 * 2048 < (x.sum * 16 - expected16 * 2048).natAbs) ||
    decide (16 * 2048 * 2048 < (x.sumsq : Int) * 2048 - x.sum * x.sum)

/-- The test of one converter in slot 127 (R244). -/
def testConverter (k : Nat) (x : AdcSums) (s : State) : State :=
  let h := s.hk
  let e := Config.testDacCode (dacLevel h.round)
  let s1 := s.modHk (fun y => { y with dacErr := y.dacErr.set k (roundEven (x.sum * 16 - e * 2048) 32768) })
  if h.dacHost then s1
  else if testFails e x then
    let n := min 255 (h.fails.get k + 1)
    let s2 := s1.modHk (fun y => { y with fails := y.fails.set k n, passes := y.passes.set k 0 })
    if n = 4 ∧ h.excluded.get k = false then
      raiseLevel { cls := 0x72, unit := ⟨.converter, k⟩ } (s2.modHk (fun y => { y with excluded := y.excluded.set k true }))
    else s2
  else
    let n := min 255 (h.passes.get k + 1)
    let s2 := s1.modHk (fun y => { y with passes := y.passes.set k n, fails := y.fails.set k 0 })
    if 64 ≤ n ∧ h.excluded.get k then
      endFault 0x72 ⟨.converter, k⟩ (s2.modHk (fun y => { y with excluded := y.excluded.set k false }))
    else s2

/-- The next slot begins: an urgent slot when one is pending (R241). -/
def beginSlot (h : HkState) (t : Nat) : HkState := { h with slotStart := t, urgentRun := h.urgent.isSome }

/-- A slot of the round ends and its samples are accumulated (R235, R238). -/
def hkSlotEnd (i : HkSlotInput) (s : State) : State :=
  if hkPowered s = false ∨ s.hk.urgentRun ∨ 128 ≤ s.hk.slot then s
  else
    let s1 := advanceTo (s.hk.slotStart + hkSlotTc) s
    let k := s.hk.slot
    let c := slotChannel s.hk k
    let s2 := s1.modHk (fun h => { beginSlot h (now s1) with
      accum := h.accum.mod c (fun a => joinAccum a (slotSums h i)), slot := k + 1 })
    if k = 127 then testConverter 1 i.odd (testConverter 0 i.even s2) else s2

def execHkSlotEnd (i : HkSlotInput) (s : State) : Host.Outcome State Fault Refusal := .next (hkSlotEnd i s)

/-! ## Urgent requests (R241, R242) -/

/-- An urgent request would be dropped, and by which rule: 1 one is pending or running, 2 sixteen have been used. -/
def urgentDropped (h : HkState) : Nat := if h.urgent.isSome then 1 else if 16 ≤ h.urgentUsed then 2 else 0

/-- A dropped request is counted (R242). -/
def countDrop (s : State) : State :=
  s.modHk (fun h =>
    if h.urgent.isSome then { h with urgentDrop := h.urgentDrop + 1 }
    else if 16 ≤ h.urgentUsed then { h with urgentCap := h.urgentCap + 1 } else h)

/-- A request for an urgent slot: pending, or dropped and counted (R241, R242). -/
def requestUrgent (c : Nat) (b : UrgentBy) (s : State) : State :=
  if urgentDropped s.hk = 0 then s.modHk (fun h => { h with urgent := some (c, b), urgentUsed := h.urgentUsed + 1 })
  else countDrop s

/-- The payload of the HK_URGENT response. -/
def urgentReply (a : HkAccum) (t : Nat) (v : Option Int) : List Byte :=
  le 8 (unsignedOf 64 a.sum) ++ le 8 a.sumsq ++ le 2 (unsignedOf 16 a.min) ++ le 2 (unsignedOf 16 a.max) ++ le 4 a.count ++
    le 8 t ++ (match v with
      | some x => leS32 x
      | none => le 4 0x8000_0000)

/-- An urgent slot ends; its results go to the requester alone, and the round resumes (R241). -/
def urgentSlotEnd (i : HkSlotInput) (s : State) : State :=
  match s.hk.urgent with
  | none => s
  | some (c, b) =>
    if hkPowered s = false ∨ s.hk.urgentRun = false then s
    else
      let s1 := advanceTo (s.hk.slotStart + hkSlotTc) s
      let a := slotSums s.hk i
      let v := convert (coefficients s c) a.sum a.count
      let s2 := s1.modHk (fun h => beginSlot { h with urgent := none, urgents := h.urgents + 1 } (now s1))
      match b with
      | .host t => finishDeferred t .ok 0 (urgentReply a (now s2) v) s2
      | .trip k => s2.modPs (fun p => { p with cmps := p.cmps.mod k (fun x => { x with value := v }) })

def execUrgentSlotEnd (i : HkSlotInput) (s : State) : Host.Outcome State Fault Refusal := .next (urgentSlotEnd i s)

/-! ## Records at the end of a round (R238, R239) -/

/-- Every channel's record is published. -/
def publishRecords (s : State) : State :=
  let one := s.hk.excluded.get 0 != s.hk.excluded.get 1
  s.modHk (fun h => { h with
    records := h.records.modAll (List.range 85) (fun c _ =>
      let a := h.accum.get c
      { acc := a, round := h.round, value := convert (coefficients s c) a.sum a.count, single := one })
    accum := Bank.fill {} })

/-- The calibration measurement takes a round (R245). -/
def measureCal (s : State) : State :=
  s.modHk (fun h => { h with calRun := h.calRun.map (fun r =>
    let a := (h.records.get r.channel).acc
    if r.left = 0 then r else { r with left := r.left - 1, sum := r.sum + a.sum, count := r.count + a.count }) })

/-! ## System calibration (R245, R246) -/

/-- Calibratable channels. -/
def calibratable (c : Nat) : Bool := decide (c < 40) || within 78 81 c

/-- c_f − c_z is less than 512 codes in magnitude (R245). -/
def tooClose (zs : Int) (zc : Nat) (fs : Int) (fc : Nat) : Bool :=
  decide ((fs * zc - zs * fc).natAbs < 512 * (fc * zc))

/-- The coefficients of R245; the applied values are in 0.001 units. -/
def calOf (vz : Int) (zs : Int) (zc : Nat) (vf : Int) (fs : Int) (fc : Nat) : HkCal :=
  let dn := fs * zc - zs * fc
  let dd := fc * zc
  let sg : Int := if dn < 0 then -1 else 1
  let gain : Frac := ⟨sg * (vf - vz) * dd, 1000 * dn.natAbs⟩
  -- c_z − v_z / gain, with v_z / gain = v_z (c_f − c_z) / (v_f − v_z)
  let dv := vf - vz
  let sv : Int := if dv < 0 then -1 else 1
  let offset : Frac := if dv = 0 then ⟨zs, zc⟩
    else ⟨zs * (dv.natAbs * dd : Nat) - sv * vz * dn * zc, zc * (dv.natAbs * dd)⟩
  { gain, offset }

/-- A calibration ends: a point 0 is kept, a point 1 or 2 is written to flash and applies; the completion carries the mean in
1/16 code (R245, R246). -/
def calPointComplete (written : Bool) (s : State) : State :=
  match s.hk.calRun with
  | none => s
  | some r =>
    if r.left ≠ 0 then s
    else
      let s1 := s.modHk (fun h => { h with calRun := none })
      let mean := if r.count = 0 then 0 else unsignedOf 32 (roundEven (16 * r.sum) (r.count : Int))
      if r.point = 0 then
        complete r.ticket .ok mean (s1.modHk (fun h => { h with zero := h.zero.set r.channel (some (r.value, r.sum, r.count)) }))
      else if r.point = 1 then
        (match s.hk.zero.get r.channel with
         | some (vz, zs, zc) =>
           if tooClose zs zc r.sum r.count then complete r.ticket .eConflict 0 s1
           else if written then
             complete r.ticket .ok mean (s1.modHk (fun h =>
               { h with calNext := h.calNext ++ [(r.channel, some (calOf vz zs zc r.value r.sum r.count))] }))
           else complete r.ticket .eIntegrity 0 s1
         | none => complete r.ticket .eConflict 0 s1)
      else if written then complete r.ticket .ok mean (s1.modHk (fun h => { h with calNext := h.calNext ++ [(r.channel, none)] }))
      else complete r.ticket .eIntegrity 0 s1

def execCalPointComplete (written : Bool) (s : State) : Host.Outcome State Fault Refusal := .next (calPointComplete written s)

/-! ## Record latch and clock monitor (R240, R257) -/

/-- CH_STATUS of a channel (table *Channel block*). -/
def chStatus (s : State) (c : Nat) : Nat :=
  let r := s.hk.records.get c
  let w := s.hk.windows.get (c - 46)
  let win := 46 ≤ c ∧ c ≤ 77
  flag (r.acc.count != 0) + 2 * flag (s.hk.cal.get c).isSome + 4 * flag (decide win && w.checked) +
    8 * flag (decide win && w.isOut) + 16 * flag r.single + 256 * min r.acc.slots 255 +
    65536 * (if win then min w.outRun 15 else 0)

/-- The eight words latched with the low half of SUM (R240): the high half of SUM, both halves of SUMSQ, MIN_MAX, COUNT, ROUND,
VALUE and CH_STATUS. -/
def channelWords (s : State) (c : Nat) : List Nat :=
  let r := s.hk.records.get c
  [unsignedOf 64 r.acc.sum / 4294967296, r.acc.sumsq % 4294967296, r.acc.sumsq / 4294967296 % 4294967296,
   unsignedOf 16 r.acc.min + 65536 * unsignedOf 16 r.acc.max, r.acc.count, r.round % 4294967296,
   (match r.value with
    | some v => unsignedOf 32 v
    | none => 0x8000_0000), chStatus s c]

/-- Reading the low half of a channel's SUM latches its record (R240). -/
def channelRecordLatch (c : Nat) (s : State) : State :=
  if c ≤ 84 then s.modHost (fun h => { h with chanShadow := h.chanShadow.set c (channelWords s c) }) else s

def execChannelRecordLatch (c : Nat) (s : State) : Host.Outcome State Fault Refusal := .next (channelRecordLatch c s)

/-- Nominal frequencies of REFCLK and the main-die clocks of CLK_STATUS, kHz (R257, R499). -/
def clockNominals : List Nat := [122880, 1966080, 983040, 491520]

/-- The clocks of CLK_STATUS that have failed: a measured frequency, in kHz, more than 10 % from the nominal one, or no edge for
1 µs, which counts as 0 (R257). -/
def failedClocks (freqs : List Nat) : Nat :=
  maskOf ((List.range 4).filter (fun k =>
    let n := clockNominals.getD k 0
    let f := freqs.getD k 0
    decide (n < 10 * (f - n + (n - f)))))

/-- The clocks are measured (R257). -/
def clockMonitorCheck (freqs : List Nat) (s : State) : State :=
  if hkPowered s = false then s
  else
    let f := failedClocks freqs
    let fresh := (List.range 4).find? (fun k => f.testBit k && !s.hk.clocks.testBit k)
    let s1 := s.modHk (fun h => { h with clocks := f })
    match fresh with
    | some k => raiseFault { cls := 0x73, unit := partUnit, detail4 := k } s1
    | none => if f = 0 then endFault 0x73 partUnit s1 else s1

def execClockMonitorCheck (freqs : List Nat) (s : State) : Host.Outcome State Fault Refusal := .next (clockMonitorCheck freqs s)

/-! ## Commands -/

/-- HK_SLOT_MAP (0x0901). -/
def specHkSlotMap : CommandSpec where
  opcode := 0x0901
  role := some .operate
  length := fixedLength 48
  checks := fun _ q =>
    let p := q.payload
    [field 0 (within 82 125 (u8 p 0)), field 1 (decide (1 ≤ u8 p 1) && decide (u8 p 0 + u8 p 1 ≤ 126)), field 2 (zeros p 2 2)] ++
      (List.range (min (u8 p 1) 44)).map (fun k => field 4 (decide (u8 p (4 + k) ≤ 83)))
  effect := fun s q =>
    let p := q.payload
    let m := (List.range (u8 p 1)).foldl (fun (acc : Bank Nat) k => acc.set (u8 p 0 + k) (u8 p (4 + k))) (s.hk.mapNext.getD s.hk.map)
    (s.modHk (fun h => { h with mapNext := some m }), { payload := le 4 (s.hk.round + 1) })

def execHkSlotMap (r : HostRequest) (s : State) : Host.Outcome State Fault Refusal := .next (submit specHkSlotMap r s)

/-- HK_URGENT (0x0902). A dropped request is counted and completes E_BUSY. -/
def specHkUrgent : CommandSpec where
  opcode := 0x0902
  role := some .operate
  length := fixedLength 4
  checks := fun s q =>
    [field 0 (decide (u8 q.payload 0 ≤ 83)), field 1 (zeros q.payload 1 3), need .eBusy (urgentDropped s.hk == 0)]
  effect := fun s q => (requestUrgent (u8 q.payload 0) (.host (ticketOf q)) s, { deferred := true })
  reject := fun s _ st => if st = .eBusy then countDrop s else s

def execHkUrgent (r : HostRequest) (s : State) : Host.Outcome State Fault Refusal := .next (submit specHkUrgent r s)

/-- HK_CAL_POINT (0x0903). -/
def specHkCalPoint : CommandSpec where
  opcode := 0x0903
  role := some .admin
  length := fixedLength 8
  states := fun s q =>
    let c := u8 q.payload 0
    let pa := (s.ps.cassettes.get (c / 5)).pa
    !calibratable c || ((decide (40 ≤ c) || pa == .absent || pa == .pinched) &&
      (u8 q.payload 1 != 1 || (s.hk.zero.get c).isSome))
  checks := fun s q =>
    let p := q.payload
    [field 0 (calibratable (u8 p 0)), field 1 (within 0 2 (u8 p 1)), field 2 (within 1 256 (u16 p 2)),
     need .eBusy s.hk.calRun.isNone]
  effect := fun s q =>
    let p := q.payload
    (s.modHk (fun h => { h with calRun := some {
      channel := u8 p 0, point := u8 p 1, left := if u8 p 1 = 2 then 0 else u16 p 2, value := s32 p 4, ticket := ticketOf q } }),
     { status := .accepted })

def execHkCalPoint (r : HostRequest) (s : State) : Host.Outcome State Fault Refusal := .next (submit specHkCalPoint r s)

/-- HK_TEST_DAC (0x0904). -/
def specHkTestDac : CommandSpec where
  opcode := 0x0904
  role := some .operate
  length := fixedLength 4
  checks := fun _ q =>
    let p := q.payload
    [field 0 (within 0 1 (u8 p 0)), field 1 (zeros p 1 1), field 2 (if u8 p 0 = 1 then decide (u16 p 2 ≤ 1023) else u16 p 2 == 0)]
  effect := fun s q => (s.modHk (fun h => { h with dacHost := u8 q.payload 0 == 1, dacCode := u16 q.payload 2 }), {})

def execHkTestDac (r : HostRequest) (s : State) : Host.Outcome State Fault Refusal := .next (submit specHkTestDac r s)

/-- HK_SUPPLY_WINDOW (0x0905). -/
def specHkSupplyWindow : CommandSpec where
  opcode := 0x0905
  role := some .admin
  length := fixedLength 12
  checks := fun _ q =>
    let p := q.payload
    let n : Int := ((supplyNominals.getD (u8 p 0 - 46) 0 : Nat) : Int)
    let lo := s32 p 4
    let hi := s32 p 8
    [field 0 (within 46 77 (u8 p 0)), field 1 (within 1 16 (u8 p 1)), field 2 (zeros p 2 2),
     field 4 (decide (n * 85 ≤ lo * 100) && decide (lo ≤ n)), field 8 (decide (lo < hi) && decide (hi * 100 ≤ n * 115))]
  effect := fun s q =>
    let p := q.payload
    (s.modHk (fun h => { h with windowNext := h.windowNext ++ [(u8 p 0 - 46, s32 p 4, s32 p 8, u8 p 1)] }), {})

def execHkSupplyWindow (r : HostRequest) (s : State) : Host.Outcome State Fault Refusal := .next (submit specHkSupplyWindow r s)

/-- HK_THERMAL_POLICY (0x0906). -/
def specHkThermalPolicy : CommandSpec where
  opcode := 0x0906
  role := some .admin
  length := fixedLength 8
  checks := fun s q =>
    let p := q.payload
    [field 0 (within 8000 11500 (u16 p 0)), field 2 (within 9000 (if s.sys.gradeX then 12600 else 11800) (u16 p 2)),
     field 4 (within 10 200 (u16 p 4)), field 6 (zeros p 6 2), need .eConflict (decide (u16 p 0 + 500 ≤ u16 p 2))]
  effect := fun s q =>
    let p := q.payload
    (s.modHk (fun h => { h with policyNext := some (h.round + 1, (u16 p 0 : Nat), (u16 p 2 : Nat), u16 p 4) }), {})

def execHkThermalPolicy (r : HostRequest) (s : State) : Host.Outcome State Fault Refusal := .next (submit specHkThermalPolicy r s)

end Sys2Proof.Machine
end

