-- ==== Sys2Proof/Machine/PowerStage.lean ====
section
/-! DEFINITION. The power stage (R208–R233): cassette states, gate schedules, comparators and their hardware actions, bias,
cassette identity and life. -/

namespace Sys2Proof.Machine

open Sys2Proof

def cas (s : State) (n : Nat) : Cassette := s.ps.cassettes.get n
def modCas (n : Nat) (f : Cassette → Cassette) (s : State) : State := s.modPs (fun p => { p with cassettes := p.cassettes.mod n f })
def modCmp (c : Nat) (f : Cmp → Cmp) (s : State) : State := s.modPs (fun p => { p with cmps := p.cmps.mod c f })

/-! ## Comparators (R218–R222) -/

/-- The supply monitors that act on cassette `n`: VHV and VNEG of its side, and S4–S7 (R218, R220). -/
def monitorsOf (n : Nat) : List Nat := [32 + n / 4, 34 + n / 4, 36, 37, 38, 39]

/-- The comparators that hold cassette `n`. -/
def cmpsOf (n : Nat) : List Nat := [4 * n, 4 * n + 1, 4 * n + 2, 4 * n + 3] ++ monitorsOf n

/-- The cassettes on which a comparator acts (R220). -/
def cassettesOf (c : Nat) : List Nat :=
  if c < 32 then [c / 4] else if c = 32 ∨ c = 34 then [0, 1, 2, 3] else if c = 33 ∨ c = 35 then [4, 5, 6, 7] else List.range 8

/-- The fault class of a comparator (R218). -/
def cmpClass (c : Nat) : Nat := if c < 32 then 0x60 + c % 4 else 0x62

/-- A trip of this comparator opens drain switches (R220). -/
def opensDrain (c : Nat) : Bool := if c < 32 then c % 4 == 3 else decide (34 ≤ c)

/-- A comparator holds the gate: unqualified, in TRIP, or within T_OFF_MIN of leaving it (R214, R221). -/
def cmpHolds (t tOff : Nat) (x : Cmp) : Bool :=
  !x.qualified || x.trip || (match x.leftAt with
    | some l => decide (t * 100000 < l * 100000 + tOff * 196608)
    | none => false)

/-! ## Windows (R212, R218, R219) -/

/-- A threshold as a 10-bit code over an input range, rounded up or down; a code counts 1/1,024 of the range (log entry 140). -/
def thresholdCode (base span v : Int) (up : Bool) : Int :=
  let q := (v - base) * 1024
  max 0 (min 1023 (if up then -((-q) / span) else q / span))

/-- The input range of comparator `j` of a cassette: the factor that brings its unit to the range's, the lowest input and the
span. IDS is set in mA and compared as shunt voltage in 10 nV (R218). -/
def cmpRange (shunt j : Nat) : Int × Int × Int :=
  if j = 0 then (shunt, 0, 10000000) else if j = 1 then (1, 0, 2500) else if j = 2 then (1, 0, 62500) else (1, -10000, 10000)

/-- The fixed windows of S2–S7 and their hysteresis, mV; of S6 in 0.01 % (R218). -/
def monitorWindow (k : Nat) : Int × Int × Int :=
  if k < 4 then (-10600, -9400, 100) else if k = 4 then (11200, 12800, 100) else if k = 5 then (3100, 3500, 30)
  else if k = 6 then (-200, 200, 0) else (1140, 1260, 10)

/-- The sides of a cassette's comparator in 1/1,024 of its range's unit; the lower side of DRN only where `lower` (R212). -/
def paSides (s : State) (n j : Nat) (lower : Bool) : Thresholds :=
  let t := (s.ps.cmps.get (4 * n + j)).bands.getD (cas s n).band ⟨none, none, 0, 0⟩
  let r := cmpRange (cas s n).shunt j
  let code (up : Bool) (v : Int) : Int := r.2.1 * 1024 + r.2.2 * thresholdCode r.2.1 r.2.2 (v * r.1) up
  { hi := t.hi.map (code false), lo := if lower then t.lo.map (code true) else none
    hysHi := t.hysHi * r.1 * 1024, hysLo := t.hysLo * r.1 * 1024 }

/-- The window in force of a comparator, in the same measure as `cmpInput` (R212, R218, R219). -/
def cmpSides (s : State) (c : Nat) : Thresholds :=
  if c < 32 then paSides s (c / 4) (c % 4) (c % 4 != 2 || (cas s (c / 4)).pa == .ready)
  else if c < 34 then ⟨some ((s.ps.vhvHi : Int) * 1024), some ((s.ps.vhvLo : Int) * 1024), 512000, 512000⟩
  else
    let w := monitorWindow (c - 32)
    ⟨some (w.2.1 * 1024), some (w.1 * 1024), w.2.2 * 1024, w.2.2 * 1024⟩

/-- A comparator's input in the measure of `cmpSides`: mA for IDS, 0.01 % for S6, else mV. -/
def cmpInput (s : State) (c : Nat) (v : Int) : Int :=
  if c < 32 then v * (cmpRange (cas s (c / 4)).shunt (c % 4)).1 * 1024 else v * 1024

/-- An input beyond an enabled side: TRIP (R219). -/
def outSide (t : Thresholds) (x : Int) : Bool := t.hi.any (fun h => decide (h < x)) || t.lo.any (fun l => decide (x < l))

/-- An input on the safe side of each enabled side by its hysteresis (R219, R222). -/
def safeSide (t : Thresholds) (x : Int) : Bool :=
  t.hi.all (fun h => decide (x < h - t.hysHi)) && t.lo.all (fun l => decide (l + t.hysLo < x))

/-- Comparator `c` with `v` at its input would be in TRIP, or is on the safe side. -/
def cmpBeyond (s : State) (c : Nat) (v : Int) : Bool := outSide (cmpSides s c) (cmpInput s c v)
def cmpSafe (s : State) (c : Nat) (v : Int) : Bool := safeSide (cmpSides s c) (cmpInput s c v)

/-- The drain voltage `v` is above the lower threshold of DRN plus its hysteresis (R211). -/
def drainGood (s : State) (n : Nat) (v : Int) : Bool :=
  let t := paSides s n 2 true
  t.lo.all (fun l => decide (l + t.hysLo < cmpInput s (4 * n + 2) v))

/-- Every comparator that acts on a cassette is qualified (R211). -/
def allQualified (s : State) (n : Nat) : Bool := (cmpsOf n).all (fun c => (s.ps.cmps.get c).qualified)

/-! ## PULSING (R214) -/

/-- The temperature sensor of a cassette (R217). -/
def casSensor (n : Nat) : Nat := 22 + n / 4

/-- The conditions of R214 other than the comparators and the chain's mute ramp. -/
def mayPulse (s : State) (n : Nat) : Bool :=
  let x := cas s n
  x.pa == .ready && !x.biasUnset && !penned s (cassetteUnit n) && (s.rf.chains.get (8 + n)).fe == .active &&
    s.sys.power == .active && s.fault.halt.isNone && s.ps.link && x.mode != 0 &&
    (x.mode != 2 || (patternSends s.air x.pattern && tddAllowed s.air))

/-- A comparator holds the cassette. -/
def casHeld (s : State) (n : Nat) : Bool := (cmpsOf n).any (fun c => cmpHolds (now s) (cas s n).tOffMin (s.ps.cmps.get c))

/-- A trip held the gate of a cassette at the clamp at the monotonic instant `t` of the last 20 ms: during TRIP and T_OFF_MIN after it
(R221, R225). -/
def heldAt (s : State) (n t : Nat) : Bool :=
  (cmpsOf n).any (fun c =>
    let x := s.ps.cmps.get c
    !x.qualified || (x.trip && decide (x.tripAt ≤ t)) ||
      x.past.any (fun p => decide (p.1 ≤ t) && decide (t * 100000 < p.2 * 100000 + (cas s n).tOffMin * 196608)))

/-- The cassette is PULSING (R214). -/
def pulsing (s : State) (n : Nat) : Bool := mayPulse s n && !casHeld s n && !chainMutes s (8 + n)

/-- PA state code (table *PA states*). -/
def paCode (s : State) (n : Nat) : Nat :=
  match (cas s n).pa with
  | .absent => 0 | .pinched => 1 | .drainUp => 2 | .ready => if pulsing s n then 4 else 3 | .draining => 5

/-- The gate is held on by the calibration of R227, or follows the schedule (R215). -/
def gateOn (s : State) (n : Nat) : Bool :=
  let x := cas s n
  (x.biasRun.isSome && !casHeld s n) || (mayPulse s n && !casHeld s n && (x.mode == 1 || x.sched))

/-- The drain switch is on: DRAIN_UP or READY. -/
def drainOn (x : Cassette) : Bool := x.pa == .drainUp || x.pa == .ready

/-- The code that VG has reached on its way to VG_ON: in CONTINUOUS mode it moves by 16 codes per µs (R217). -/
def vgReached (t : Nat) (x : Cassette) : Nat :=
  let d := 16 * ((t - x.vgAt) * 100 / 196608)
  if x.vgFrom < x.vgCode then min x.vgCode (x.vgFrom + d) else max x.vgCode (x.vgFrom - d)

/-- The level of PA`n`_VG in units of 2^−9 V (R210, R226): −8 V at the clamp, −8 V + code × 8/4,096 V while the gate is on. The
step codes of a calibration are not held (R227). -/
def vgPin (s : State) (n : Nat) : Int := -4096 + (if gateOn s n then ((vgReached (now s) (cas s n) : Nat) : Int) else 0)

/-- VG_MAX_CODE and IDQ_TARGET in force. -/
def vgMaxOf (x : Cassette) : Nat := x.vgMax.getD x.record.vgMax
def idqOf (x : Cassette) : Nat := if x.idq = 0 then x.record.idqTarget else x.idq

/-! ## State transitions (R211) -/

/-- A cassette is taken away: the derating that its stress had caused goes with it (R232). -/
def cassetteGone (n : Nat) (s : State) : State :=
  dropBackoffs (fun x => x.cause == .life && x.unit == chainUnit (8 + n)) (modCas n (fun y => { y with derated := false }) s)

/-- PINCHED is reached (R211, R228). -/
def reachPinched (n : Nat) (s : State) : State :=
  let x := cas s n
  let s1 := modCas n (fun y => { y with pa := if y.lost then .absent else .pinched, lost := false, closing := none, sched := false }) s
  completeOpt x.closing .ok 0 (if x.lost then cassetteGone n s1 else s1)

/-- Completes what an enable has left waiting. -/
def completeEnable (e : Option (List Ticket × Nat)) (st : Status) (s : State) : State :=
  match e with
  | some (l, _) => l.foldl (fun acc t => complete t st 0 acc) s
  | none => s

/-- A cassette leaves DRAIN_UP or READY for DRAINING. A fault ends an enable in progress with E_INTEGRITY, and a calibration
likewise. -/
def startDraining (n : Nat) (latch : Bool) (s : State) : State :=
  let x := cas s n
  if drainOn x then
    let s1 := modCas n (fun y => { y with
      pa := .draining, drainAt := now s, latched := y.latched || latch, enabling := none, biasRun := none }) s
    let s2 := completeEnable x.enabling .eIntegrity s1
    match x.biasRun with
    | some b => complete b.ticket .eIntegrity 0 s2
    | none => s2
  else s

/-- An enable that waits in PINCHED is ended by a fault. -/
def abortEnable (n : Nat) (s : State) : State :=
  let x := cas s n
  if x.pa = .pinched ∨ x.pa = .draining then
    completeEnable x.enabling .eIntegrity (modCas n (fun y => { y with enabling := none, checkDue := false }) s)
  else s

/-- The FENCE reaction on a cassette, or any other shut-down by the part (R213). -/
def shutCassette (n : Nat) (s : State) : State := startDraining n false (abortEnable n s)

/-- An enable proceeds from PINCHED to DRAIN_UP once identity and comparators allow (R211, R229). -/
def tryDrainUp (n : Nat) (s : State) : State :=
  let x := cas s n
  if x.pa = .pinched ∧ x.enabling.isSome ∧ x.checkDue = false ∧ allQualified s n ∧ s.ps.link ∧ x.linkHold = false ∧
      penned s (cassetteUnit n) = false then
    modCas n (fun y => { y with
      pa := .drainUp, upEnd := now s + tcOfUs (y.dswRamp + 50), latched := false, enabledOnce := true }) s
  else s

/-- DSW_RAMP plus 50 µs have passed: READY with the drain above its lower threshold plus hysteresis, else DRAINING with
PA_SUPPLY (R211, R212). -/
def drainRampEnd (n : Nat) (vDrain : Int) (s : State) : State :=
  let x := cas s n
  if x.pa ≠ .drainUp then s
  else
    let s1 := advanceTo x.upEnd s
    if drainGood s n vDrain then
      completeEnable x.enabling .ok (modCas n (fun y => { y with pa := .ready, enabling := none }) s1)
    else raiseMoment { cls := 0x62, unit := cassetteUnit n, detail4 := 2 } (startDraining n false s1)

def execDrainRampEnd (n : Nat) (vDrain : Int) (s : State) : Host.Outcome State Fault Refusal := .next (drainRampEnd n vDrain s)

/-- DRAINING ends: 10 µs of clamp, DSW off, then `us` microseconds until the drain is below 5 V, at most 10 ms (R211). -/
def drainingComplete (n us : Nat) (s : State) : State :=
  let x := cas s n
  if x.pa ≠ .draining then s
  else reviewMove (tryDrainUp n (reachPinched n (advanceTo (x.drainAt + tcOfUs (10 + min us 10000)) s)))

def execDrainingComplete (n us : Nat) (s : State) : Host.Outcome State Fault Refusal := .next (drainingComplete n us s)

/-- Comparators not qualified within 100 ms of PA_ENABLE (PA_ENABLE). -/
def paEnableQualTimeout (n : Nat) (s : State) : State :=
  let x := cas s n
  match x.enabling with
  | some (_, t0) =>
    if x.pa = .pinched then
      completeEnable x.enabling .eNotReady (modCas n (fun y => { y with enabling := none }) (advanceTo (t0 + tcOfMs 100) s))
    else s
  | none => s

def execPaEnableQualTimeout (n : Nat) (s : State) : Host.Outcome State Fault Refusal := .next (paEnableQualTimeout n s)

/-- No valid link frame for 10 µs (R209). -/
def hvLinkTimeout (s : State) : State :=
  if s.ps.link = false then s
  else
    let s1 := s.modPs (fun p => { p with link := false, linkLoss := p.linkLoss + 1 })
    (List.range 8).foldl (fun acc n =>
      if (cas acc n).pa = .absent then acc
      else raiseMoment { cls := 0x62, unit := cassetteUnit n, direct := true, detail4 := 1 }
        (modCas n (fun y => { y with linkHold := true }) (startDraining n false (abortEnable n acc)))) s1

def execHvLinkTimeout (s : State) : Host.Outcome State Fault Refusal := .next (hvLinkTimeout s)

/-! ## Gate schedule (R215–R217) -/

/-- The runs of the chain's own direction in a pattern period, widened by LEAD and LAG: start and end, Tc from the anchor. -/
def ownRuns (d : PatternDef) (own : SegType) : List (Nat × Nat) :=
  (segmentStarts d).foldl (fun acc x =>
    if x.2.2 != own then acc
    else match acc.getLast? with
      | some (a, b) => if b = x.1 then acc.dropLast ++ [(a, x.2.1)] else acc ++ [(x.1, x.2.1)]
      | none => [(x.1, x.2.1)]) ([] : List (Nat × Nat))

/-- The gate windows of a cassette over three periods, in Tc from the start of the middle one; gaps below 1,968 Tc are closed. -/
def gateWindows (s : State) (n : Nat) (d : PatternDef) : List (Int × Int) :=
  let x := cas s n
  let own : SegType := if dlChain s (8 + n) then .dl else .ul
  let lead : Int := ((x.lead.getD x.band 0 : Nat) : Int)
  let lag : Int := ((x.lag.getD x.band 0 : Nat) : Int)
  let runs := ownRuns d own
  let all := [(-1 : Int), 0, 1, 2].flatMap (fun k => runs.map (fun r =>
    ((r.1 : Int) + k * d.period - lead, (r.2 : Int) + k * d.period + lag)))
  all.foldl (fun acc w => match acc.getLast? with
    | some (a, b) => if w.1 < b + 1968 then acc.dropLast ++ [(a, max b w.2)] else acc ++ [w]
    | none => [w]) ([] : List (Int × Int))

/-- Tc to the next ON edge (`on`) or OFF edge of the schedule, at or after the present instant. -/
def nextEdge (s : State) (n : Nat) (on : Bool) : Option Nat :=
  match (s.air.patterns.get (cas s n).pattern).defn with
  | none => none
  | some d =>
    let pos : Int := ((patternPos d (airNow s.air) : Nat) : Int)
    let skip : Bool := (cas s n).edgeAt == some (airNow s.air)
    let edges := (gateWindows s n d).map (fun w => if on then w.1 else w.2)
    ((edges.filter (fun e => if skip then decide (pos < e) else decide (pos ≤ e))).head?).map (fun e => (e - pos).toNat)

/-- A pending band change applies with the new band's values (R217). -/
def takeBand (s : State) (n : Nat) (x : Cassette) : Cassette :=
  let b := (s.hk.sensors.get (casSensor n)).usedBand
  let code := x.code.getD b 0
  { x with
    band := b, vgCode := code
    vgFrom := if x.mode = 1 ∧ gateOn s n then (if code = x.vgCode then x.vgFrom else vgReached (now s) x) else code
    vgAt := if code = x.vgCode then x.vgAt else now s
    lead := (x.timingNext.map (·.1)).getD x.lead, lag := (x.timingNext.map (·.2)).getD x.lag, timingNext := none }

/-- A scheduled ON edge (R215, R217). -/
def gateOnEdge (n : Nat) (s : State) : State :=
  let x := cas s n
  if x.mode ≠ 2 then s
  else
    match nextEdge s n true with
    | none => s
    | some dt =>
      let i := instantPlus (airNow s.air) dt
      let s1 := if dt = 0 then s else advanceToAir i s
      let s2 := modCas n (fun y => { takeBand s1 n y with sched := true, edgeAt := some i }) s1
      if gateOn s2 n then modCas n (fun y => { y with pulses := y.pulses + 1 }) s2 else s2

def execGateOnEdge (n : Nat) (s : State) : Host.Outcome State Fault Refusal := .next (gateOnEdge n s)

/-- A scheduled OFF edge (R215). -/
def gateOffEdge (n : Nat) (s : State) : State :=
  let x := cas s n
  if x.mode ≠ 2 then s
  else
    match nextEdge s n false with
    | none => s
    | some dt =>
      let i := instantPlus (airNow s.air) dt
      let s1 := if dt = 0 then s else advanceToAir i s
      modCas n (fun y => { y with sched := false, edgeAt := some i }) s1

def execGateOffEdge (n : Nat) (s : State) : Host.Outcome State Fault Refusal := .next (gateOffEdge n s)

/-- A band change reaches a cassette in CONTINUOUS mode at once, one in PATTERN mode at its next ON edge (R217). One in mode OFF,
for which the rule names no instant, takes it at once (log entry 141). -/
def bandsChanged (s : State) : State :=
  (List.range 8).foldl (fun acc n => if (cas acc n).mode = 2 then acc else modCas n (takeBand acc n) acc) s

/-! ## Comparator events (R219–R224) -/

/-- Drain switches opened in hardware by a trip (R220). -/
def openDrains (c : Nat) (s : State) : State :=
  if opensDrain c then
    (cassettesOf c).foldl (fun acc n =>
      if drainOn (cas acc n) then startDraining n true acc
      else abortEnable n acc) s
  else s

/-- A comparator's class is raised on every cassette on which it acts (R224, R233). -/
def raiseCmp (c : Nat) (moment : Bool) (s : State) : State :=
  (cassettesOf c).foldl (fun acc n =>
    let r : Raise := { cls := cmpClass c, unit := cassetteUnit n, direct := true, detail4 := 3 + c }
    if (cas acc n).pa = .absent then acc else if moment then raiseMoment r acc else raiseLevel r acc) s

/-- The input of a qualified comparator passes a threshold and it enters TRIP: the gate is clamped, drains may open, the trip is counted, published and perhaps raised
(R220, R224, R242). -/
def comparatorTrip (c : Nat) (v : Int) (s : State) : State :=
  let x := s.ps.cmps.get c
  if 40 ≤ c ∨ x.qualified = false ∨ x.trip ∨ cmpBeyond s c v = false then s
  else
    let t := now s
    let w := t :: x.window.filter (fun u => decide (t < u + tcPerSecond))
    let s1 := modCmp c (fun y => { y with trip := true, tripAt := t, window := w, count := y.count + 1, raised := false, value := none }) s
    let s2 := (cassettesOf c).foldl (fun acc n => modCas n (fun y =>
      { y with lastTrip := t, life := { y.life with trips := y.life.trips + 1 } }) acc) s1
    let s3 := openDrains c s2
    if c < 32 ∧ c % 4 ≠ 3 then
      let s4 := if c % 4 = 0 then requestUrgent (5 * (c / 4)) (.trip c) s3
        else if c % 4 = 2 then requestUrgent (5 * (c / 4) + 1) (.trip c) s3 else s3
      if (cas s4 (c / 4)).tripLimit ≤ w.length then raiseCmp c true s4 else s4
    else raiseCmp c false (modCmp c (fun y => { y with raised := true }) s3)

def execComparatorTrip (x : CmpSample) (s : State) : Host.Outcome State Fault Refusal := .next (comparatorTrip x.cmp x.value s)

/-- The class of a comparator ends on a cassette when no comparator of that class holds it raised there. -/
def endCmp (c : Nat) (s : State) : State :=
  (cassettesOf c).foldl (fun acc n =>
    if (cmpsOf n).any (fun k => cmpClass k == cmpClass c && (acc.ps.cmps.get k).trip && (acc.ps.cmps.get k).raised) then acc
    else endFault (cmpClass c) (cassetteUnit n) acc) s

/-- A comparator's input is inside by the hysteresis and it leaves TRIP; T_OFF_MIN starts (R219, R221). -/
def comparatorTripClear (c : Nat) (v : Int) (s : State) : State :=
  let x := s.ps.cmps.get c
  if 40 ≤ c ∨ x.qualified = false ∨ x.trip = false ∨ cmpSafe s c v = false then s
  else endCmp c (modCmp c (fun y => { y with
    trip := false, raised := false, leftAt := some (now s)
    past := (y.tripAt, now s) :: y.past.filter (fun p => decide (now s ≤ p.2 + tcOfMs 20)) }) s)

def execComparatorTripClear (x : CmpSample) (s : State) : Host.Outcome State Fault Refusal :=
  .next (comparatorTripClear x.cmp x.value s)

/-- T_OFF_MIN has passed since the last comparator left TRIP: the gate takes the level of the schedule (R221). -/
def tOffMinExpiry (n : Nat) (s : State) : State :=
  let last := ((cmpsOf n).filterMap (fun c => (s.ps.cmps.get c).leftAt)).foldl max 0
  if last = 0 then s else advanceTo (last + ((cas s n).tOffMin * 196608 + 99999) / 100000) s

def execTOffMinExpiry (n : Nat) (s : State) : Host.Outcome State Fault Refusal := .next (tOffMinExpiry n s)

/-- A comparator is seen on the safe side of each enabled side and is qualified (R222). -/
def comparatorQualify (c : Nat) (v : Int) (s : State) : State :=
  if 40 ≤ c ∨ (s.ps.cmps.get c).qualified ∨ cmpSafe s c v = false then s
  else (cassettesOf c).foldl (fun acc n => tryDrainUp n acc)
    (modCmp c (fun y => { y with qualified := true, trip := false, raised := false }) s)

def execComparatorQualify (x : CmpSample) (s : State) : Host.Outcome State Fault Refusal :=
  .next (comparatorQualify x.cmp x.value s)

/-- A trip of IDS, REV or DRN has lasted TRIP_HOLD (R224). -/
def tripHoldExpiry (c : Nat) (s : State) : State :=
  let x := s.ps.cmps.get c
  if 32 ≤ c ∨ c % 4 = 3 ∨ x.trip = false ∨ x.qualified = false ∨ x.raised then s
  else
    let s1 := advanceTo (x.tripAt + tcOfUs (cas s (c / 4)).tripHold) s
    raiseCmp c false (modCmp c (fun y => { y with raised := true }) s1)

def execTripHoldExpiry (c : Nat) (s : State) : Host.Outcome State Fault Refusal := .next (tripHoldExpiry c s)

/-! ## Identity (R228, R229, R231) -/

/-- The identity record in 128 bytes, if magic, format, ranges and CRC hold (table *Identity record*). -/
def recordOfBytes (b : List Byte) : Option CasRecord :=
  if b.length = 128 ∧ u32 b 0 = 0x43415331 ∧ u16 b 4 = 1 ∧ u64 b 32 ≠ 0 ∧ within 1 20000 (u32 b 40) ∧ u16 b 44 ≤ 4095 ∧
      within 1 100000 (u32 b 48) ∧ within 2000 6000 (u32 b 52) ∧ zeros b 76 48 ∧
      u32 b 124 = (crc32c (bytesAt b 0 124)).toNat then
    some { bytes := b, serial := u64 b 32, idqTarget := u32 b 40, vgMax := u16 b 44, tempco := s16 b 46, rth := u32 b 48
           ntcBeta := u32 b 52, fwdSlope := s32 b 56, fwdIcpt := s32 b 60, revSlope := s32 b 64, revIcpt := s32 b 68
           rating := u32 b 72 }
  else none

/-- One life copy: none when blank, an error when its CRC fails (table *Life record*). -/
def lifeOfBytes (b : List Byte) : Option (Option LifeRecord) :=
  if b.all (· == 0xFF) then some none
  else if b.length = 32 ∧ u32 b 28 = (crc32c (bytesAt b 0 28)).toNat then
    some (some { seq := u32 b 0, stress := u64 b 4, minutes := u32 b 12, trips := u32 b 16, maxTch := s16 b 20 })
  else none

/-- The 32 bytes of a life record. -/
def lifeBytes (l : LifeRecord) : List Byte :=
  let body := le 4 l.seq ++ le 8 l.stress ++ le 4 l.minutes ++ le 4 l.trips ++ le 2 (unsignedOf 16 l.maxTch) ++ le 6 0
  body ++ le 4 (crc32c body).toNat

/-- Rating in force, stress-hours (R232). -/
def ratingOf (s : State) (x : Cassette) : Nat := if x.record.rating = 0 then s.ps.rating else x.record.rating

/-- Stress as a fraction of the rating, 0.01 %. -/
def lifePct (s : State) (x : Cassette) : Nat := x.life.stress * 10000 / (ratingOf s x * 1000000)

/-- The warning of R232 for a cassette. -/
def lifeWarning (n : Nat) (s : State) : State :=
  let x := cas s n
  let pct := lifePct s x
  submitLog 0x0801 (sourceIndex 4 n) [n, pct, x.record.serial % 4294967296, x.record.serial / 4294967296]
    (postNotice 0x0801 n pct (modCas n (fun y => { y with lifeWarn := true }) s))

/-- Which life record an identification leaves: the record in use, whether it is unknown, and whether copy B is the later
(R231). -/
def chooseLife (rating warn : Nat) (a b : Option (Option LifeRecord)) : LifeRecord × Bool × Bool :=
  match a, b with
  | some (some x), some (some y) => if x.seq < y.seq then (y, false, true) else (x, false, false)
  | some (some x), _ => (x, false, false)
  | _, some (some y) => (y, false, true)
  | some none, some none => ({}, false, false)
  | _, _ => ({ stress := rating * 10000 * warn }, true, false)

/-- CASSETTE_ID is raised (R228, R229). -/
def raiseId (n : Nat) (s : State) : State := raiseMoment { cls := 0x64, unit := cassetteUnit n } s

/-- The failed step of the certificate check: 0 no certificate, 1 chain, 2 challenge signature; none if it passes (R229). -/
def certStep (s : State) (i : IdentInput) (challenge : BitVec 256) (serial : Nat) : Option Nat :=
  match i.cert with
  | none => some 0
  | some (body, sig, key) =>
    if Config.ecdsaP256 s.sys.keys.cassette body sig = false then some 1
    else if Config.ecdsaP256 key ((List.range 32).map (fun k => (challenge >>> (8 * (31 - k))).setWidth 8) ++ le 8 serial) i.answer
        = false then some 2
    else none

/-- Identification fails: CASSETTE_ID is raised and the cassette stays ABSENT, or PINCHED when the check was that of a re-enable
(R229, R233). -/
def identFails (n : Nat) (s : State) : State :=
  raiseId n (modCas n (fun y => { y with certOk := false }) (abortEnable n s))

/-- The identity has changed: a PINCHED cassette becomes ABSENT (R211, R228). -/
def identChanged (n : Nat) (s : State) : State :=
  raiseId n (cassetteGone n (modCas n (fun y => { y with pa := .absent, certOk := false }) (abortEnable n s)))

/-- Identification of a cassette: of one that is ABSENT, or before a re-enable from PINCHED (R229, R231). -/
def cassetteIdentify (n : Nat) (i : IdentInput) (s : State) : State :=
  let x := cas s n
  if 8 ≤ n ∨ s.sys.ready = false ∨ ¬ (x.pa = .absent ∨ (x.pa = .pinched ∧ x.checkDue)) then s
  else
    match recordOfBytes i.record with
    | none => identFails n s
    | some r =>
      if x.pa = .pinched ∧ r.serial ≠ x.record.serial then identChanged n s else
      let (k, s1) := draw s
      let step := certStep s1 i (Config.challenge k) r.serial
      let allowed := s1.ps.allowUncert && s1.sys.lifecycle == .provisioned
      if step.isSome ∧ allowed = false then identFails n s1
      else
        let s2 := match step with
          | some f => submitLog 0x0802 (sourceIndex 4 n) [n, f, r.serial % 4294967296, r.serial / 4294967296] s1
          | none => s1
        let fresh := x.pa == .absent
        let life := chooseLife (if r.rating = 0 then s2.ps.rating else r.rating) s2.ps.warnPct (lifeOfBytes i.lifeA) (lifeOfBytes i.lifeB)
        let s3 := modCas n (fun y => { y with
          pa := .pinched, certOk := step.isNone, uncertified := step.isSome, record := r, checkDue := false, lost := false
          life := if fresh then life.1 else y.life, lifeUnknown := if fresh then life.2.1 else y.lifeUnknown
          lifeB := if fresh then life.2.2 else y.lifeB
          copyA := if fresh then (lifeOfBytes i.lifeA).getD none else y.copyA
          copyB := if fresh then (lifeOfBytes i.lifeB).getD none else y.copyB
          enabledOnce := if fresh then false else y.enabledOnce
          lifeWarn := if fresh then false else y.lifeWarn, lifeExpired := if fresh then false else y.lifeExpired
          linkHold := if fresh then false else y.linkHold
          afSum := 0, afRounds := 0 }) s2
        let s4 := if fresh ∧ life.2.1 then lifeWarning n s3 else s3
        tryDrainUp n s4

def execCassetteIdentify (n : Nat) (i : IdentInput) (s : State) : Host.Outcome State Fault Refusal := .next (cassetteIdentify n i s)

/-- The serial number is read, or no acknowledgement comes (R228). -/
def cassetteIdPoll (n : Nat) (serial : Option Nat) (s : State) : State :=
  let x := cas s n
  if 8 ≤ n ∨ x.pa = .absent ∨ serial = some x.record.serial then s
  else if x.pa = .pinched then identChanged n s
  else raiseId n (startDraining n false (modCas n (fun y => { y with lost := true }) s))

def execCassetteIdPoll (n : Nat) (serial : Option Nat) (s : State) : Host.Outcome State Fault Refusal :=
  .next (cassetteIdPoll n serial s)

/-! ## Life accounting (R230–R232) -/

/-- One in the fixed point of R230, 10^18. -/
abbrev unit18 : Int := 1000000000000000000

/-- exp of a value in 10^−18, by the series of an eighth root of a 512th part, squared up again. -/
def expFixed (x : Int) : Int :=
  let z := x / 512
  let e := ((List.range 12).foldl (fun (acc : Int × Int) k =>
    let t := acc.2 * z / unit18 / ((k + 1 : Nat) : Int)
    (acc.1 + t, t)) (unit18, unit18)).1
  (List.range 9).foldl (fun acc _ => acc * acc / unit18) e

/-- ln of a positive value in 10^−18, by Newton's iteration on `expFixed`. -/
def lnFixed (x : Int) : Int :=
  (List.range 60).foldl (fun y _ =>
    let e := expFixed y
    if e ≤ 0 then y + unit18 else y + 2 * unit18 * (x - e) / (x + e)) 0

/-- T_ntc in 10^−18 K from the divider voltage: 10 kΩ pull-up to 2.5 V, 10 kΩ at 25 °C (R228, R230). -/
def ntcKelvin (mv : Int) (beta : Nat) : Option Int :=
  if 0 < mv ∧ mv < 2500 ∧ 0 < beta then
    some (unit18 * unit18 / (unit18 * 100 / 29815 + lnFixed (mv * unit18 / (2500 - mv)) / (beta : Int)))
  else none

/-- Forward power at the cassette's output, 0.01 dBm (R173). -/
def fwdPower (x : Cassette) (mv : Int) : Int := x.record.fwdIcpt + roundEven (x.record.fwdSlope * mv) 100

/-- Reflected power likewise. -/
def revPower (x : Cassette) (mv : Int) : Int := x.record.revIcpt + roundEven (x.record.revSlope * mv) 100

/-- T_ntc and T_ch of a cassette, 10^−18 K (R230). -/
def channelTemp (s : State) (n : Nat) : Option (Int × Int) :=
  let x := cas s n
  match hkValue s (5 * n), hkValue s (5 * n + 1), hkValue s (5 * n + 2), hkValue s (5 * n + 4) with
  | some i, some v, some f, some t =>
    (ntcKelvin t x.record.ntcBeta).map (fun k =>
      let fwd : Int := ((linear (fwdPower x f) * 1000 / unity : Nat) : Int)
      (k, k + (x.record.rth : Int) * max 0 (v * i - fwd) * 1000000000))
  | _, _, _, _ => none

/-- The acceleration factor at a channel temperature (R230), 10^−18. -/
def accelFactor (tch : Int) : Int :=
  expFixed (105000000000 * (unit18 * 100 / 42315 - unit18 * unit18 / tch) / 8617333)

/-- 10^−18 K in 0.01 °C. -/
def celsius100 (k : Int) : Int := roundEven k 10000000000000000 - 27315

/-- The estimate of one housekeeping round for each cassette whose drain is on, and the forward-detector measurement of its chain
(R173, R230). -/
def stressRound (s : State) : State :=
  (List.range 8).foldl (fun acc n =>
    let x := cas acc n
    let acc1 :=
      if drainOn x then
        (match channelTemp acc n with
         | some (k, c) => modCas n (fun y => { y with
             tNtc := celsius100 k, tCh := celsius100 c, afSum := y.afSum + (accelFactor c).toNat, afRounds := y.afRounds + 1
             life := { y.life with maxTch := max y.life.maxTch (celsius100 c) } }) acc
         | none => modCas n (fun y => { y with afRounds := y.afRounds + 1 }) acc)
      else if x.pa = .absent then acc
      else modCas n (fun y => { y with afRounds := y.afRounds + 1 }) acc
    if forwardServes acc1 n then
      (match hkValue acc1 (5 * n + 2) with
       | some mv => outputMeasured n (fwdPower x mv) acc1
       | none => acc1)
    else acc1) s

/-- What a cassette's stress has reached (R232). -/
def checkLife (n : Nat) (s : State) : State :=
  let x := cas s n
  let full := ratingOf s x * 1000000
  let s1 := if x.lifeWarn = false ∧ full * s.ps.warnPct ≤ x.life.stress * 100 then lifeWarning n s else s
  if full ≤ x.life.stress ∧ x.lifeExpired = false then
    raiseMoment { cls := 0x65, unit := cassetteUnit n } (modCas n (fun y => { y with lifeExpired := true }) s1)
  else s1

/-- A whole minute of monotonic time: each identified cassette's counter grows (R230, R232). -/
def stressMinute (s : State) : State :=
  let m := tcOfS 60
  let s1 := advanceTo ((now s / m + 1) * m) s
  (List.range 8).foldl (fun acc n =>
    let x := cas acc n
    if x.pa = .absent then acc
    else
      let add := if x.afRounds = 0 then 0 else (roundEven ((x.afSum * 1000000 : Nat) : Int) ((x.afRounds * 60 * 1000000000000000000 : Nat) : Int)).toNat
      checkLife n (modCas n (fun y => { y with
        afSum := 0, afRounds := 0
        life := { y.life with stress := y.life.stress + add, minutes := y.life.minutes + flag (drainOn y) } }) acc)) s1

def execStressMinute (s : State) : Host.Outcome State Fault Refusal := .next (stressMinute s)

/-- The older life copy of a cassette is written (R231). -/
def writeLife (n : Nat) (s : State) : State :=
  modCas n (fun y =>
    let l : LifeRecord := { y.life with seq := (y.life.seq + 1) % 4294967296 }
    if y.lifeB then { y with life := l, copyA := some l, lifeB := false } else { y with life := l, copyB := some l, lifeB := true }) s

/-- The identified cassettes. -/
def identified (s : State) : List Nat := (List.range 8).filter (fun n => (cas s n).pa != .absent)

/-- Every 10 minutes of monotonic time the older copies are written (R231). -/
def lifeRecordWrite (s : State) : State :=
  let m := tcOfS 600
  let s1 := advanceTo ((now s / m + 1) * m) s
  (identified s1).foldl (fun acc n => writeLife n acc) s1

def execLifeRecordWrite (s : State) : Host.Outcome State Fault Refusal := .next (lifeRecordWrite s)

/-! ## Bias calibration (R227) -/

/-- An egress band path of TX.A`n` was neither muted nor excluded at some time since `t` (R227). -/
def casOpenedSince (s : State) (n t : Nat) : Bool :=
  (ebs s).any (fun p => p.2.params.chain == 8 + n && (s.np.gain.get p.1).openAt.any (fun u => decide (t ≤ u)))

/-- Every egress band path of TX.A`n` is muted or excluded, or none exists. -/
def casSilent (s : State) (n : Nat) : Bool :=
  ((ebs s).filter (fun p => p.2.params.chain == 8 + n)).all (fun p => muteMask s p.1 p.2 != 0 || excluded s p.1)

/-- The binary search over the twelve step currents: the lowest code that reaches the target. -/
def biasSearch (target : Int) : List Int → Nat → Nat → Nat
  | [], _, hi => hi
  | i :: rest, lo, hi =>
    if hi ≤ lo then hi
    else
      let mid := (lo + hi) / 2
      if target ≤ i then biasSearch target rest lo mid else biasSearch target rest (mid + 1) hi

/-- T_mid of each band, 0.1 °C. -/
def bandMids : List Int := [-250, 75, 425, 725, 925, 1100]

/-- The code of each band from the code found at the present temperature (R227). TEMPCO in µV/°C, temperature in 0.01 °C. -/
def biasTable (tempco tNow : Int) (vgMax band code : Nat) : List Nat :=
  (List.range 6).map (fun b =>
    if b = band then code
    else (max 0 (min (vgMax : Int) ((code : Int) + roundEven (tempco * (bandMids.getD b 0 * 10 - tNow) * 4096) 800000000))).toNat)

/-- A bias calibration ends (R227). -/
def biasCalComplete (n : Nat) (i : BiasInput) (s : State) : State :=
  let x := cas s n
  match x.biasRun with
  | none => s
  | some r =>
    let s1 := modCas n (fun y => { y with biasRun := none }) s
    let target : Int := ((idqOf x : Nat) : Int)
    let b := (s.hk.sensors.get (casSensor n)).usedBand
    if casSilent s n = false ∨ casOpenedSince s n r.start then complete r.ticket .eConflict 0 s1
    else if target < i.atZero ∨ i.atMax < target then
      complete r.ticket .eIntegrity 0 (raiseMoment { cls := 0x63, unit := cassetteUnit n } s1)
    else
      let code := biasSearch target (i.steps.take 12) 0 (vgMaxOf x)
      let tab := biasTable x.record.tempco (s.hk.sensors.get (casSensor n)).usedTemp (vgMaxOf x) b code
      complete r.ticket .ok code (bandsChanged (modCas n (fun y => { y with code := tab, biasUnset := false }) s1))

def execBiasCalComplete (n : Nat) (i : BiasInput) (s : State) : Host.Outcome State Fault Refusal := .next (biasCalComplete n i s)

/-! ## Commands -/

/-- PA_CONFIG (0x0801). -/
def specPaConfig : CommandSpec where
  opcode := 0x0801
  role := some .operate
  length := fixedLength 28
  states := fun s q =>
    let n := u8 q.payload 0
    !(decide (n < 8)) || (cas s n).pa == .absent || (cas s n).pa == .pinched
  checks := fun s q =>
    let p := q.payload
    [field 0 (decide (u8 p 0 < 8)), field 1 (within 0 2 (u8 p 1)), field 2 (within 0 7 (u8 p 2)), field 3 (zeros p 3 1),
     field 4 (within 50 5000 (u32 p 4)), field 8 (decide (u16 p 8 ≤ 4095) || u16 p 8 == 0xFFFF), field 10 (within 20 5000 (u16 p 10)),
     field 12 (within 0 20000 (u32 p 12)), field 16 (within 250 64000 (u32 p 16)), field 20 (within 1 64 (u16 p 20)),
     field 22 (zeros p 22 2), field 24 (within 10 10000 (u32 p 24)),
     need .eConflict (u8 p 1 != 2 || (s.air.patterns.get (u8 p 2)).state != .unset)]
  effect := fun s q =>
    let p := q.payload
    (modCas (u8 p 0) (fun x => { x with
      mode := u8 p 1, pattern := u8 p 2, shunt := u32 p 4, vgMax := if u16 p 8 = 0xFFFF then none else some (u16 p 8)
      dswRamp := u16 p 10, idq := u32 p 12, tOffMin := u32 p 16, tripLimit := u16 p 20, tripHold := u32 p 24
      sched := false, edgeAt := none }) s, {})

def execPaConfig (r : HostRequest) (s : State) : Host.Outcome State Fault Refusal := .next (submit specPaConfig r s)

/-- Six 32-bit values from an offset. -/
def six32 (p : List Byte) (o : Nat) : List Nat := (List.range 6).map (fun k => u32 p (o + 4 * k))

/-- Six checks of a LEAD or LAG list. -/
def edgeFields (p : List Byte) (o : Nat) : List Chk :=
  (List.range 6).map (fun k => field o (decide (u32 p (o + 4 * k) ≤ 19648) && u32 p (o + 4 * k) % 16 == 0))

/-- PA_TIMING (0x0802). -/
def specPaTiming : CommandSpec where
  opcode := 0x0802
  role := some .operate
  length := fixedLength 52
  checks := fun _ q =>
    let p := q.payload
    [field 0 (decide (u8 p 0 < 8)), field 1 (zeros p 1 3)] ++ edgeFields p 4 ++ edgeFields p 28
  effect := fun s q =>
    let p := q.payload
    (modCas (u8 p 0) (fun x => { x with timingNext := some (six32 p 4, six32 p 28) }) s, {})

def execPaTiming (r : HostRequest) (s : State) : Host.Outcome State Fault Refusal := .next (submit specPaTiming r s)

/-- PA_BIAS_TABLE (0x0803). -/
def specPaBiasTable : CommandSpec where
  opcode := 0x0803
  role := some .operate
  length := fixedLength 14
  checks := fun s q =>
    let p := q.payload
    [field 0 (decide (u8 p 0 < 8)), field 1 (zeros p 1 1)] ++
      (List.range 6).map (fun k => field 2 (decide (u16 p (2 + 2 * k) ≤ vgMaxOf (cas s (u8 p 0)))))
  effect := fun s q =>
    let p := q.payload
    (bandsChanged (modCas (u8 p 0) (fun x => { x with
      code := (List.range 6).map (fun k => u16 p (2 + 2 * k)), biasUnset := false }) s), {})

def execPaBiasTable (r : HostRequest) (s : State) : Host.Outcome State Fault Refusal := .next (submit specPaBiasTable r s)

/-- Range of a comparator's threshold (R218): mA through SHUNT, or mV. -/
def thresholdRange (shunt j : Nat) : Int × Int :=
  if j = 0 then (0, ((10000000 / shunt : Nat) : Int)) else if j = 1 then (0, 2500) else if j = 2 then (0, 62500) else (-10000, 0)

/-- One side of a comparator; 0x8000_0000 disables it. -/
def sideOf (p : List Byte) (o : Nat) : Option Int := if u32 p o = 0x8000_0000 then none else some (s32 p o)

/-- The thresholds of one band in a CMP_CONFIG payload. -/
def thresholdsAt (p : List Byte) (b : Nat) : Thresholds :=
  { hi := sideOf p (4 + 16 * b), lo := sideOf p (8 + 16 * b), hysHi := s32 p (12 + 16 * b), hysLo := s32 p (16 + 16 * b) }

/-- The checks of one band. -/
def bandChecks (p : List Byte) (r : Int × Int) (b : Nat) : List Chk :=
  let t := thresholdsAt p b
  let inside (x : Option Int) : Bool := match x with
    | some v => withinI r.1 r.2 v
    | none => true
  let order : Bool := match t.hi, t.lo with
    | some h, some l => decide (l + t.hysLo < h - t.hysHi)
    | _, _ => true
  [field 4 (inside t.hi && inside t.lo && decide (0 ≤ t.hysHi) && decide (0 ≤ t.hysLo) && order)]

/-- CMP_CONFIG (0x0804). -/
def specCmpConfig : CommandSpec where
  opcode := 0x0804
  role := some .operate
  length := fixedLength 100
  checks := fun s q =>
    let p := q.payload
    let r := thresholdRange (cas s (u8 p 0)).shunt (u8 p 1)
    [field 0 (decide (u8 p 0 < 8)), field 1 (within 0 3 (u8 p 1)), field 2 (zeros p 2 2)] ++ (List.range 6).flatMap (bandChecks p r)
  effect := fun s q =>
    let p := q.payload
    (modCmp (4 * u8 p 0 + u8 p 1) (fun c => { c with configured := true, bands := (List.range 6).map (thresholdsAt p) }) s, {})

def execCmpConfig (r : HostRequest) (s : State) : Host.Outcome State Fault Refusal := .next (submit specCmpConfig r s)

/-- CMP_MODE (0x0805). -/
def specCmpMode : CommandSpec where
  opcode := 0x0805
  role := some .admin
  length := fixedLength 12
  states := fun s q =>
    u64 q.payload 0 / 2 ^ 40 != 0 || (maskBits (u64 q.payload 0)).all (fun c => (cassettesOf c).all (fun n =>
      (cas s n).pa == .absent || (cas s n).pa == .pinched))
  checks := fun _ q =>
    let p := q.payload
    [field 0 (u64 p 0 != 0 && decide (u64 p 0 < 2 ^ 40)), field 8 (within 0 3 (u8 p 8)), field 9 (zeros p 9 3)]
  effect := fun s q =>
    ((maskBits (u64 q.payload 0)).foldl (fun acc c => modCmp c (fun x =>
      { x with mode := u8 q.payload 8, qualified := false, trip := true, raised := false, leftAt := none }) acc) s, {})

def execCmpMode (r : HostRequest) (s : State) : Host.Outcome State Fault Refusal := .next (submit specCmpMode r s)

/-- PA_ENABLE on one cassette. -/
def paEnableOne (action : Nat) (t : Ticket) (s : State) (n : Nat) : State :=
  let x := cas s n
  if action = 1 then
    match x.pa with
    | .ready => complete t .ok 0 s
    | .drainUp => modCas n (fun y => { y with enabling := some (((y.enabling.map (·.1)).getD []) ++ [t], now s) }) s
    | _ => tryDrainUp n (modCas n (fun y => { y with
        enabling := some (((y.enabling.map (·.1)).getD []) ++ [t], now s), checkDue := y.enabledOnce }) s)
  else
    let s1 := abortEnable n s
    match x.pa with
    | .pinched => complete t .ok 0 s1
    | .draining => modCas n (fun y => { y with closing := some t, enabling := none }) (completeOpt x.closing .ok 0 s1)
    | _ => modCas n (fun y => { y with closing := some t }) (startDraining n false s1)

/-- PA_ENABLE (0x0806). -/
def specPaEnable : CommandSpec where
  opcode := 0x0806
  role := some .operate
  length := fixedLength 4
  states := fun s q =>
    let l := maskBits (u8 q.payload 0)
    roleSet s q && l.all (fun n => (cas s n).pa != .absent) &&
      (u8 q.payload 1 != 1 || l.all (fun n => !penned s (cassetteUnit n)))
  checks := fun s q =>
    let p := q.payload
    let l := maskBits (u8 p 0)
    [field 0 (u8 p 0 != 0), field 1 (within 0 1 (u8 p 1)), field 2 (zeros p 2 2),
     need .eConflict (u8 p 1 != 1 || l.all (fun n => (List.range 4).all (fun j => (s.ps.cmps.get (4 * n + j)).configured))),
     need .eConflict (u8 p 1 != 0 || l.all (fun n => (s.rf.chains.get (8 + n)).fe != .active))]
  effect := fun s q =>
    ((maskBits (u8 q.payload 0)).foldl (paEnableOne (u8 q.payload 1) (ticketOf q)) s, { status := .accepted })

def execPaEnable (r : HostRequest) (s : State) : Host.Outcome State Fault Refusal := .next (submit specPaEnable r s)

/-- PA_BIAS_CAL (0x0807). -/
def specPaBiasCal : CommandSpec where
  opcode := 0x0807
  role := some .operate
  length := fixedLength 4
  states := fun s q =>
    let n := u8 q.payload 0
    !(decide (n < 8)) || ((cas s n).pa == .ready && !pulsing s n && casSilent s n)
  checks := fun s q =>
    [field 0 (decide (u8 q.payload 0 < 8)), field 1 (zeros q.payload 1 3),
     need .eBusy ((List.range 8).all (fun n => (cas s n).biasRun.isNone))]
  effect := fun s q => (modCas (u8 q.payload 0) (fun x => { x with biasRun := some ⟨ticketOf q, now s⟩ }) s, { status := .accepted })

def execPaBiasCal (r : HostRequest) (s : State) : Host.Outcome State Fault Refusal := .next (submit specPaBiasCal r s)

/-- CAS_POLICY (0x0808). -/
def specCasPolicy : CommandSpec where
  opcode := 0x0808
  role := some .admin
  length := fixedLength 16
  checks := fun _ q =>
    let p := q.payload
    [field 0 (within 1000 1000000 (u32 p 0)), field 4 (within 50 99 (u8 p 4)), field 5 (within 0 1 (u8 p 5)),
     field 6 (within 0 1 (u8 p 6)), field 7 (zeros p 7 1), field 8 (within 36000 48000 (u32 p 8)),
     field 12 (within 50000 59000 (u32 p 12))]
  effect := fun s q =>
    let p := q.payload
    (s.modPs (fun x => { x with
      rating := u32 p 0, warnPct := u8 p 4, derate := u8 p 5 == 1, allowUncert := u8 p 6 == 1, vhvLo := u32 p 8, vhvHi := u32 p 12 }),
     {})

def execCasPolicy (r : HostRequest) (s : State) : Host.Outcome State Fault Refusal := .next (submit specCasPolicy r s)

/-- CAS_IDENTITY_READ (0x0809). -/
def specCasIdentityRead : CommandSpec where
  opcode := 0x0809
  role := some .monitor
  length := fixedLength 4
  states := fun s q => !(decide (u8 q.payload 0 < 8)) || (cas s (u8 q.payload 0)).pa != .absent
  checks := fun _ q => [field 0 (decide (u8 q.payload 0 < 8)), field 1 (zeros q.payload 1 3)]
  effect := fun s q =>
    let x := cas s (u8 q.payload 0)
    (s, { payload := x.record.bytes ++ lifeBytes x.life })

def execCasIdentityRead (r : HostRequest) (s : State) : Host.Outcome State Fault Refusal := .next (submit specCasIdentityRead r s)

/-- A reset of the power-stage unit: every cassette ABSENT, every comparator in TRIP in FAST mode (R222, R223, R451). -/
def resetPowerStage (s : State) : State :=
  s.modPs (fun p => { p with
    cassettes := { p.cassettes with cells := p.cassettes.cells.map (fun x => (x.1, { x.2 with
      pa := .absent, enabling := none, closing := none, biasRun := none, latched := false, sched := false, edgeAt := none
      lost := false, linkHold := false, pulses := 0 })) }
    cmps := { p.cmps with cells := p.cmps.cells.map (fun x => (x.1, { x.2 with
      mode := 0, qualified := false, trip := true, raised := false, leftAt := none, window := [], count := 0 })) }
    link := true, linkLoss := 0 })

end Sys2Proof.Machine
end

