-- ==== Sys2Proof/Machine/Thermal.lean ====
section
/-! DEFINITION. The end of a housekeeping round (R236–R256, R514): records, supply windows, temperatures, bands, throttle and
shutdown, and their delivery to the consumers (R253). -/

namespace Sys2Proof.Machine

open Sys2Proof

/-! ## Supply windows (R247) -/

/-- Any chain of port pair `k` is powered. -/
def pairPowered (s : State) (k : Nat) : Bool :=
  [2 * k, 2 * k + 1, 8 + 2 * k, 9 + 2 * k].any (domainOn s)

/-- The domain that a sense channel's rail feeds is powered. -/
def supplyPowered (s : State) (ch : Nat) : Bool :=
  if ch ≤ 61 then true
  else if ch ≤ 69 then pairPowered s ((ch - 62) % 4)
  else if ch ≤ 71 then domainOn s domHbm
  else if ch ≤ 73 then s.mem.stack1
  else if ch ≤ 76 then domainOn s (domPll + (ch - 74))
  else anyLane s

/-- A channel's MIN or MAX lies outside its window; none without samples. -/
def outOfWindow (s : State) (ch : Nat) (w : SupplyWindow) : Option Bool :=
  let a := (s.hk.records.get ch).acc
  let k := coefficients s ch
  if a.count = 0 then none
  else
    match convert k a.min 1, convert k a.max 1 with
    | some x, some y => some (!(withinI w.lo w.hi x && withinI w.lo w.hi y))
    | _, _ => none

/-- One round of one supply window. -/
def checkWindow (s : State) (ch : Nat) : State :=
  let k := ch - 46
  let w := s.hk.windows.get k
  let u : UnitId := ⟨.supply, ch⟩
  let put := fun (x : SupplyWindow) => s.modHk (fun h => { h with windows := h.windows.set k x })
  if supplyPowered s ch = false then put { w with checked := false, isOut := false, outRun := 0, inRun := 0 }
  else
    match outOfWindow s ch w with
    | none => put { w with checked := true }
    | some true =>
      let s1 := put { w with checked := true, isOut := true, outRun := w.outRun + 1, inRun := 0 }
      if w.rounds ≤ w.outRun + 1 then raiseLevel { cls := 0x71, unit := u, detail4 := ch } s1 else s1
    | some false =>
      let s1 := put { w with checked := true, isOut := false, outRun := 0, inRun := w.inRun + 1 }
      if 16 ≤ w.inRun + 1 then endFault 0x71 u s1 else s1

/-! ## Sensors (R249–R252) -/

/-- Die of a sensor: 0 main, 1 RF, 2 HV. -/
def dieOf (k : Nat) : Nat := if k < 16 then 0 else if k < 22 then 1 else 2

/-- The sensors of a die. -/
def sensorsOf (die : Nat) : List Nat := (List.range 24).filter (fun k => dieOf k == die)

/-- Sensors of a die that have not failed. -/
def validSensors (h : HkState) (die : Nat) : List Nat := (sensorsOf die).filter (fun k => !(h.sensors.get k).failed)

/-- Median; of an even number the mean of the middle two, rounded down (log entry 25). -/
def median (l : List Int) : Option Int :=
  let m := l.mergeSort (fun a b => decide (a ≤ b))
  let n := m.length
  if n = 0 then none
  else if n % 2 = 1 then some (m.getD (n / 2) 0)
  else some ((m.getD (n / 2 - 1) 0 + m.getD (n / 2) 0) / 2)

/-- The band that contains a temperature. -/
def bandOf (t : Int) : Nat :=
  if t < -1000 then 0 else if t < 2500 then 1 else if t < 6000 then 2 else if t < 8500 then 3 else if t < 10000 then 4 else 5

/-- Lower boundary of bands B1–B5, 0.01 °C. -/
def bandLow (b : Nat) : Int := [-100000, -1000, 2500, 6000, 8500, 10000].getD b 10000

/-- A filtered temperature lies at least 2 °C beyond the current band's boundary on the candidate's side (R251). -/
def beyond (band : Nat) (t : Int) : Bool :=
  if band < bandOf t then decide (bandLow (band + 1) + 200 ≤ t) else if bandOf t < band then decide (t ≤ bandLow band - 200) else false

/-- REFCLK periods of the round that ends: 2,304 for each of its slots, urgent ones included (R236, R249). -/
def roundPeriods (h : HkState) : Nat := 2304 * (128 + h.urgentUsed)

/-- A reading is plausible (R250). -/
def readingOk (count : Nat) (raw : Int) : Bool := count != 0 && withinI (-6000) 16000 raw

/-- A sensor takes a raw reading: filtered temperature and band (R249, R251, R252). -/
def takeReading (count : Nat) (raw : Int) (y : Sensor) : Sensor :=
  let raws := (raw :: y.raws).take 3
  let f := if raws.length = 3 then (median raws).getD raw else raw
  let c := bandOf f
  let y1 : Sensor := { y with raws, filtered := f, candidate := c, oscCount := count }
  if y.raws.isEmpty then { y1 with band := c, dwell := 0, changes := if c = y.band then y.changes else y.changes + 1 }
  else if beyond y.band f then
    if 4 ≤ y.dwell + 1 then { y1 with band := c, dwell := 0, changes := y.changes + 1 } else { y1 with dwell := y.dwell + 1 }
  else { y1 with dwell := 0 }

/-- The sensor fails (R250). -/
def failSensor (k : Nat) (s : State) : State :=
  raiseLevel { cls := 0x72, unit := ⟨.sensor, k⟩ } (s.modHk (fun h => { h with sensors := h.sensors.mod k (fun y => { y with failed := true }) }))

/-- One sensor's reading of the round; a sensor that the input leaves out counted nothing. -/
def readSensor (l : List SensorInput) (s : State) (k : Nat) : State :=
  if (s.hk.sensors.get k).failed then s
  else
    let n := ((l.find? (fun i => i.index == k)).map (·.count)).getD 0
    let raw := Config.sensorReading k n (roundPeriods s.hk)
    if readingOk n raw then s.modHk (fun h => { h with sensors := h.sensors.mod k (takeReading n raw) })
    else failSensor k (s.modHk (fun h => { h with sensors := h.sensors.mod k (fun y => { y with oscCount := n }) }))

/-- A sensor against the median of the other valid sensors of its die (R250). -/
def compareSensor (v : State) (s : State) (k : Nat) : State :=
  let y := v.hk.sensors.get k
  if y.failed then s
  else
    match median (((validSensors v.hk (dieOf k)).filter (· != k)).map (fun n => (v.hk.sensors.get n).filtered)) with
    | none => s
    | some m =>
      let run := if 2500 < (y.filtered - m).natAbs then y.offRun + 1 else 0
      let s1 := s.modHk (fun h => { h with sensors := h.sensors.mod k (fun z => { z with offRun := run }) })
      if 4 ≤ run then failSensor k s1 else s1

/-- The hottest of some sensors. -/
def hottest (h : HkState) (l : List Nat) : Option Nat :=
  match l with
  | [] => none
  | k :: rest => some (rest.foldl (fun b n => if (h.sensors.get b).filtered < (h.sensors.get n).filtered then n else b) k)

/-- The band and temperature that a sensor's consumers use (R250). -/
def usedOf (h : HkState) (k : Nat) (y : Sensor) : Sensor :=
  if y.failed then
    match hottest h (validSensors h (dieOf k)) with
    | some n => { y with usedBand := (h.sensors.get n).band, usedTemp := (h.sensors.get n).filtered }
    | none => y
  else { y with usedBand := y.band, usedTemp := y.filtered }

/-- A sub-cause of OVERTEMP arises: 0 throttle, 1 T_SHUT, 2 + die a die without a valid sensor (R514). -/
def raiseOvertemp (fixed : Option Severity) (cause : Nat) (s : State) : State :=
  raiseFault { cls := 0x70, unit := partUnit, fixed, detail4 := cause, detail5 := unsignedOf 32 s.hk.tGov } s

/-- The condition of OVERTEMP ends when no sub-cause remains (R514). -/
def reviewOvertemp (s : State) : State :=
  if s.hk.dTh = 0 ∧ s.hk.shutdown = false ∧ s.hk.blindDies.isEmpty then endFault 0x70 partUnit s else s

/-- Dies that have lost their last valid sensor, or have one again after a reset of housekeeping (R250, R514). -/
def blindCheck (s : State) (die : Nat) : State :=
  if (validSensors s.hk die).isEmpty ∧ !s.hk.blindDies.contains die then
    raiseOvertemp (some 4) (2 + die) (s.modHk (fun h => { h with blindDies := h.blindDies ++ [die] }))
  else if !(validSensors s.hk die).isEmpty ∧ s.hk.blindDies.contains die then
    reviewOvertemp (s.modHk (fun h => { h with blindDies := without h.blindDies die }))
  else s

/-- All sensors at the end of a round. -/
def readSensors (l : List SensorInput) (s : State) : State :=
  let s1 := (List.range 24).foldl (readSensor l) s
  let s2 := (List.range 24).foldl (compareSensor s1) s1
  let s3 := s2.modHk (fun h => { h with sensors := h.sensors.modAll (List.range 24) (usedOf h) })
  [0, 1, 2].foldl blindCheck s3

/-! ## Throttling and shutdown (R254–R256) -/

/-- The demand of R254 at a temperature. -/
def thermalDemand (h : HkState) (t : Int) : Nat :=
  if t ≤ h.tThrottle then 0
  else
    let d := (h.slope * (t - h.tThrottle).toNat) / 100
    min 1200 (d - d % 10)

/-- D_th after one round (R254). -/
def nextDemand (h : HkState) : Nat :=
  let f := thermalDemand h h.tGov
  let g := thermalDemand h (h.tGov + 40)
  if h.dTh ≤ f then f else if g < h.dTh then g else h.dTh

/-- T_gov: the highest filtered temperature among the valid sensors; it stays when there is none. -/
def governTemp (h : HkState) : HkState :=
  match hottest h ((List.range 24).filter (fun k => !(h.sensors.get k).failed)) with
  | some k => { h with tGov := (h.sensors.get k).filtered, govIndex := k }
  | none => h

/-- OVERTEMP stands at DEGRADE or above with its own action in force, so that D_th is applied (R255). -/
def thermalApplies (f : FaultState) : Bool :=
  f.actions.any (fun a => a.cls == 0x70 &&
    (match a.handle with
     | some n => f.entries.any (fun e => e.handle == n && decide (2 ≤ e.severity))
     | none => decide (2 ≤ (classConfig f 0x70).severity)))

/-- D_th reaches the gain stacks, shared out once per round (R158, R160, R255). -/
def applyThermal (s : State) : State :=
  shareBackoff (s.modNp (fun n => { n with thermal := if thermalApplies s.fault then s.hk.dTh else 0 }))

/-- Demand and shutdown at the end of a round. -/
def throttle (s : State) : State :=
  let s1 := s.modHk governTemp
  let was := s1.hk.dTh
  let s2 := s1.modHk (fun h => { h with dTh := nextDemand h })
  let s3 := if was = 0 ∧ s2.hk.dTh ≠ 0 then raiseOvertemp none 0 s2 else s2
  let s4 :=
    if s3.hk.shutdown = false ∧ s3.hk.tShut ≤ s3.hk.tGov then
      raiseOvertemp (some 4) 1 (s3.modHk (fun h => { h with shutdown := true }))
    else if s3.hk.shutdown ∧ s3.hk.tGov < s3.hk.tThrottle then s3.modHk (fun h => { h with shutdown := false })
    else s3
  applyThermal (reviewOvertemp s4)

/-! ## Delivery (R253) -/

/-- The refresh interval that the band of a stack's sensor asks for, MT10 or MT11, ns (R318). -/
def refreshFor (s : State) (k : Nat) : Nat := if 4 ≤ (s.hk.sensors.get (10 + k)).usedBand then 1950 else 3900

/-- What a stack's refresh is at a monotonic instant: a new interval is in force from its refresh command on. -/
def HbmRefresh.at_ (r : HbmRefresh) (t : Nat) : HbmRefresh :=
  match r.next with
  | some (i, u) => if u ≤ t then { interval := i } else r
  | none => r

/-- Each stack takes the interval of its band from its next refresh command, whose instant within the old interval is free (R253, R318).
The rule is the same for the self-refresh of STANDBY. -/
def deliverRefresh (s : State) : State :=
  [0, 1].foldl (fun acc k =>
    let r := (acc.mem.refresh.get k).at_ (now acc)
    let i := refreshFor acc k
    let d := draw acc
    if i = (r.next.map (·.1)).getD r.interval then acc.modMem (fun m => { m with refresh := m.refresh.set k r })
    else d.2.modMem (fun m => { m with refresh := m.refresh.set k { r with
      next := some (i, now acc + Config.freeNat d.1 % (r.interval * 1966080 / 1000000)) } })) s

/-- A stack that is powered refreshes itself in STANDBY (R318). -/
def selfRefresh (s : State) (k : Nat) : Bool := s.sys.power == .standby && (k == 0 || s.mem.stack1)

/-- DPD sets switch at the next slot boundary, lanes take the preset of their band without retraining (R114, R267). -/
def deliverBands (s : State) : State :=
  let s1 := (List.range 8).foldl (fun acc t =>
    let b := chainBand acc t
    let d := acc.ce.dpd.get t
    let others := d.pending.filter (fun p => (switchBand [p]).isNone)
    if d.active = b then if (switchBand d.pending).isNone then acc else modDpd t (fun x => { x with pending := others }) acc
    else if switchBand d.pending = some b then acc
    else modDpd t (fun x => { x with pending := others ++ [.switch b] }) acc) s
  let s2 := s1.modFl (fun f => { f with lanes := f.lanes.modAll (List.range 24) (fun l x =>
    if x.state = .off then x else { x with band := (s1.hk.sensors.get (laneSensor l)).usedBand }) })
  bandsChanged (deliverRefresh s2)

/-! ## The round (R236) -/

/-- What was commanded for the next round takes effect as it starts (R237, R246, HK_SUPPLY_WINDOW). -/
def startRound (t : Nat) (h : HkState) : HkState :=
  { h with
    lastRound := some h.round, roundEnd := t, round := (h.round + 1) % 4294967296, slot := 0, slotStart := t, urgentUsed := 0
    map := h.mapNext.getD h.map, mapNext := none
    windows := h.windowNext.foldl (fun b x =>
      b.mod x.1 (fun w => { w with lo := x.2.1, hi := x.2.2.1, rounds := x.2.2.2 })) h.windows
    windowNext := []
    cal := h.calNext.foldl (fun b x => b.set x.1 x.2) h.cal
    calNext := [] }

/-- A thermal policy is first used at the end of the first round that started after it (HK_THERMAL_POLICY). -/
def takePolicy (h : HkState) : HkState :=
  match h.policyNext with
  | some (n, a, b, c) => if n ≤ h.round then { h with tThrottle := a, tShut := b, slope := c, policyNext := none } else h
  | none => h

/-- R238. The round ends after slot 127 and any urgent slot that was due. -/
def hkRoundEnd (sensors : List SensorInput) (s : State) : State :=
  if hkPowered s = false ∨ s.hk.slot ≠ 128 ∨ s.hk.urgentRun then s
  else
    let s1 := measureCal (publishRecords s)
    let s2 := ((List.range 32).map (· + 46)).foldl checkWindow s1
    let s3 := throttle ((readSensors sensors s2).modHk takePolicy)
    let s4 := s3.modHk (startRound (now s3))
    reviewTemperatures (stressRound (deliverBands s4))

def execHkRoundEnd (sensors : List SensorInput) (s : State) : Host.Outcome State Fault Refusal := .next (hkRoundEnd sensors s)

end Sys2Proof.Machine
end

