-- ==== Sys2Proof/Machine/Bell.lean ====
section
/-! DEFINITION. The Bell link (R335–R364): receiver, transmitter, SYN.BELL, chain traffic and the Bell commands. Keeper services
are in Machine/Keeper.lean. -/

namespace Sys2Proof.Machine

open Sys2Proof

def bellUnit : UnitId := ⟨.bell, 0⟩

/-- Filtered temperature at SYN.BELL (RFT5). -/
def bellTemp (s : State) : Int := (s.hk.sensors.get 21).usedTemp

/-- SYN.BELL is due by temperature (R79). -/
def bellTempMoved (s : State) : Bool := decide (4000 ≤ (bellTemp s - s.bell.calTemp).natAbs)

/-- A calibration of SYN.BELL is due: CAL_PENDING. -/
def bellCalDue (s : State) : Bool := s.rf.bellDue || bellTempMoved s

/-- HALT is in force. -/
def halted (s : State) : Bool := s.fault.halt.isSome

/-- Chain traffic runs (R360). -/
def chainOn (s : State) : Bool := s.bell.enabled && s.bell.config.chainRate.isSome && s.fl.config.flockId.isSome

/-- The part can relay: JOINED, or the hub itself (R361, R362). -/
def canRelay (s : State) : Bool := s.fl.state == .joined || activeHub s

/-- Whether packets of a kind may be sent in the present state (R353). -/
def maySend (s : State) (chain : Bool) : Bool := s.sys.power == .active && !(chain && halted s)

/-! ## Receiver (R343–R350) -/

/-- The sync word of a kind of traffic, first bit sent first (R335, R338); KEEPER_SYNC from bit 0 (R337). -/
def syncWord (s : State) (keeper : Bool) : List Bool :=
  if keeper then (List.range 32).map (fun k => s.bell.config.keeperSync.testBit k) else chainSync (s.fl.config.flockId.getD 0)

/-- The sync word as it is sent at a rate: complemented at 400 kb/s (R337). -/
def sentSync (s : State) (keeper : Bool) (rate : Nat) : List Bool :=
  if rate = 3 then (syncWord s keeper).map (fun b => !b) else syncWord s keeper

/-- A detector branch of the profile in use looks for this sync, and detects it (R343). -/
def syncDetected (s : State) (x : SyncInput) : Bool :=
  let c := s.bell.config
  let rateOk :=
    if c.hub then
      if x.keeper then c.keeperRate.isSome && decide (x.rate ≤ 2) else c.chainRate.isSome && (x.rate == 2 || x.rate == 3)
    else if x.keeper then c.keeperRate == some x.rate else c.chainRate == some x.rate
  rateOk && x.soft.length == 32 && decide (hardErrors (sentSync s x.keeper x.rate) x.soft ≤ c.syncTol) &&
    (!c.hub || decide (c.syncMetric ^ 2 * metricDen x.soft ≤ metricNum (syncWord s x.keeper) x.soft * 2 ^ 32))

/-- The reception that a sync starts. -/
def receptionOf (s : State) (x : SyncInput) : Reception :=
  { sync := x, num := metricNum (syncWord s x.keeper) x.soft, den := metricDen x.soft, at_ := now s }

/-- Reception starts on a sync: HEADER, the AGC set to its level and frozen, the second correlator running. -/
def startReception (r : Reception) (b : BellState) : BellState :=
  { b with rx := .header, reception := some r, agcFrozen := true, agcLevel := r.sync.level, second := true }

/-- Reception ends: SEARCH with the AGC free. -/
def endReception (b : BellState) : BellState :=
  { b with rx := .search, reception := none, agcFrozen := false, second := false }

/-- R343, R346, R349. A sync word is found. -/
def syncDetect (x : SyncInput) (s : State) : State :=
  let b := s.bell
  if syncDetected s x = false ∨ !(b.rx == .search || b.second) then s
  else
    let seen := fun (y : BellState) =>
      { y with syncs := y.syncs + 1, lastLevel := x.level, lastRate := x.rate
               lastMetric := metricOf (syncWord s x.keeper) x.soft }
    let n := receptionOf s x
    match b.rx, b.reception with
    | .search, _ => s.modBell (fun y => startReception n (seen y))
    | .header, some r =>
      if r.num * n.den < n.num * r.den then
        s.modBell (fun y => { startReception n (seen y) with superseded := y.superseded + 1 })
      else s.modBell seen
    | .payload, some r =>
      if b.config.capture ∧ r.sync.level + b.config.captureDb ≤ x.level then
        s.modBell (fun y => { startReception n (seen y) with collided := y.collided + 1, captured := y.captured + 1 })
      else s.modBell seen
    | _, _ => s

def execSyncDetect (x : SyncInput) (s : State) : Host.Outcome State Fault Refusal := .next (syncDetect x s)

/-- A header's KIND matches the sync word on which it was found, and its LENGTH is within its kind's limit (R339). -/
def headerFits (keeper : Bool) (h : BellHeader) : Bool :=
  if keeper then decide (h.kind ≤ 1) && decide (h.length ≤ 255) else h.kind == 2 && decide (h.length ≤ 1024)

/-- R339, R347. The header of the reception is decoded. -/
def headerComplete (header crc : Nat) (s : State) : State :=
  match s.bell.rx, s.bell.reception with
  | .header, some r =>
    let s1 := advanceTo (r.at_ + tcOfUs (headerUs r.sync.rate)) s
    let ok := crc == crc16 (le 4 header)
    (match headerOf header with
     | some h =>
       if ok && headerFits r.sync.keeper h then
         s1.modBell (fun b => { b with rx := .payload, reception := some { r with header := some h }, second := b.config.capture })
       else s1.modBell (fun b => { endReception b with hdrFail := b.hdrFail + 1 })
     | none => s1.modBell (fun b => { endReception b with hdrFail := b.hdrFail + 1 }))
  | _, _ => s

def execHeaderComplete (header crc : Nat) (s : State) : Host.Outcome State Fault Refusal := .next (headerComplete header crc s)

/-- R348. More than four clip events in one symbol. -/
def clipCollision (events : Nat) (s : State) : State :=
  if (s.bell.rx = .header ∨ s.bell.rx = .payload) ∧ s.bell.agcFrozen ∧ 4 < events then
    s.modBell (fun b => { endReception b with collided := b.collided + 1 })
  else s

def execClipCollision (events : Nat) (s : State) : Host.Outcome State Fault Refusal := .next (clipCollision events s)

/-- The payload decoded, is of its header's kind and length, and its CRC passes (R350). -/
def bodyOk (h : BellHeader) (b : BellBody) : Bool :=
  match b with
  | .keeper d bytes crc => d && h.kind != 2 && bytes.length == h.length && crc == (crc32c bytes).toNat
  | .chain good _ => good && h.kind == 2

/-- R350. The payload's last coded bit has been received. -/
def payloadComplete (body : BellBody) (s : State) : State :=
  match s.bell.rx, s.bell.reception.bind (fun r => r.header.map (fun h => (r, h))) with
  | .payload, some (r, h) =>
    let s1 := advanceTo (r.at_ + tcOfUs (headerUs r.sync.rate + payloadUs r.sync.rate h)) s
    if bodyOk h body then
      s1.modBell (fun b => { endReception b with
        ok := b.ok + 1
        arrivals := b.arrivals ++ [{ header := h, level := r.sync.level, rate := r.sync.rate, end_ := now s1, body }] })
    else s1.modBell (fun b => { endReception b with payFail := b.payFail + 1 })
  | _, _ => s

def execPayloadComplete (b : BellBody) (s : State) : Host.Outcome State Fault Refusal := .next (payloadComplete b s)

/-! ## The transmit queue (R351, R352) -/

/-- A packet joins the queue; the seventeenth is dropped. -/
def bellQueue (x : BellTx) (s : State) : State :=
  if 16 ≤ s.bell.queue.length then s.modBell (fun b => { b with dropped := b.dropped + 1 })
  else s.modBell (fun b => { b with seq := (b.seq + 1) % 256, queue := b.queue ++ [{ x with header := { x.header with seq := (b.seq + 1) % 256 } }] })

/-- The chain header (R360). -/
def chainHeaderBytes (p : ChainPacket) : List Byte :=
  le 2 p.src ++ le 2 (p.dst.getD 0xFFFF) ++ le 1 p.kind ++ le 1 (p.hops.getD 0xFF) ++ le 2 0

/-- The payload of a chain packet: its header, its control frames packed as in a flit, and the records behind them (log entry
26). -/
def chainBytes (p : ChainPacket) (s : State) : List Byte :=
  (chainHeaderBytes p ++ ((laidOut p.frames s).map (·.2)).flatten ++ (p.records.map recordBytes).flatten).take 1024

/-- A chain packet is queued. -/
def queueChain (p : ChainPacket) (s : State) : State :=
  if chainOn s then
    let l := chainBytes p s
    bellQueue {
      header := { kind := 2, twoThirds := s.bell.chain.twoThirds, length := l.length, seq := 0 }
      rate := s.bell.config.chainRate.getD 2, content := .chain p, bytes := l } { s with drawn := s.drawn + 2 * p.frames.length }
  else s

/-- A packet is a keeper response. -/
def isResponse (x : BellTx) : Bool :=
  match x.content with
  | .response _ => true
  | .chain _ => false

/-- The packet that may start next: the first response whose scheduled start has come, else the first chain packet when no
response waits ahead of it. -/
def nextToSend (s : State) : Option BellTx :=
  match s.bell.queue.find? (fun x => isResponse x && x.waiting.isNone && decide (x.start ≤ now s)) with
  | some x => if maySend s false then some x else none
  | none => (s.bell.queue.find? (fun x => !isResponse x)).bind (fun x => if maySend s true then some x else none)

/-- The transmitter is free: SEARCH, not suspended, no calibration outstanding by temperature (R79, R351, R354, R364). A part whose
role is UNSET holds it muted (R4). -/
def txFree (s : State) : Bool :=
  s.sys.role != .unset && s.bell.rx == .search && s.bell.sending.isNone && !s.bell.suspended && !bellTempMoved s && s.rf.bellLocked

/-- A packet leaves the queue. -/
def unqueue (x : BellTx) (b : BellState) : BellState := { b with queue := b.queue.filter (fun y => y.header.seq != x.header.seq) }

/-- A packet starts. -/
def sendPacket (x : BellTx) (s : State) : State :=
  let us := packetUs x.rate x.header
  s.modBell (fun b => { unqueue x b with
    rx := .transmit, agcFrozen := false, second := false, reception := none
    sending := some (x, now s, now s + tcOfUs us) })

/-- A chain packet's attempt finds the channel clear, or waits a random 1 to 16 ms, or is dropped after the eighth (R352). -/
def ccaAttempt (x : BellTx) (level : Int) (s : State) : State :=
  if level < s.bell.config.ccaLevel then sendPacket x s
  else if 8 ≤ x.attempts + 1 then s.modBell (fun b => { unqueue x b with dropped := b.dropped + 1 })
  else
    let r := (Config.randomWord (draw s).1).toNat % 15001
    let until_ := now s + tcOfUs (1000 + r)
    (draw s).2.modBell (fun b => { b with
      ccaDefer := b.ccaDefer + 1
      queue := b.queue.map (fun y => if y.header.seq = x.header.seq then { y with attempts := y.attempts + 1, ccaUntil := some until_ } else y) })

/-- R351, R352. A queued packet starts; `level` is the highest over the last 8 symbols at BELL_RF. -/
def bellTxStart (level : Int) (s : State) : State :=
  if txFree s = false then s
  else
    match nextToSend s with
    | none => s
    | some x => if isResponse x then sendPacket x s else if x.ccaUntil.isSome then s else ccaAttempt x level s

def execBellTxStart (level : Int) (s : State) : Host.Outcome State Fault Refusal := .next (bellTxStart level s)

/-- R352. The wait of the first chain packet expires and it tries again. -/
def ccaRetry (level : Int) (s : State) : State :=
  match s.bell.queue.find? (fun x => !isResponse x) with
  | none => s
  | some x =>
    match x.ccaUntil with
    | none => s
    | some t =>
      let s1 := (advanceTo t s).modBell (fun b => { b with
        queue := b.queue.map (fun y => if y.header.seq = x.header.seq then { y with ccaUntil := none } else y) })
      if txFree s1 && maySend s1 true then ccaAttempt { x with ccaUntil := none } level s1 else s1

def execCcaRetry (level : Int) (s : State) : Host.Outcome State Fault Refusal := .next (ccaRetry level s)

/-- The whitened coded bits of a packet from the first header bit (R340). -/
def airBits (c : BellConfig) (x : BellTx) : List Bool :=
  match x.content with
  | .response bytes =>
    let l := headerBits x.header ++ keeperBits x.header.twoThirds bytes
    if c.whiten then whitenBits l else l
  | .chain _ => whitenBits (headerBits x.header ++ chainBits x.header.twoThirds x.bytes)

/-- The symbols of a packet (R337, R338): preamble and sync word in two-level form, header and payload in the rate's. -/
def packetSymbols (s : State) (x : BellTx) : List Int :=
  let front := twoLevel (preambleBits ++ sentSync s (isResponse x) x.rate)
  let rest := airBits s.bell.config x
  if x.rate = 3 then front.map (fun v => 3 * v) ++ fourLevel rest else front ++ twoLevel rest

/-- A unicast chain packet that needs an ACK (R361). -/
def needsAck (x : BellTx) : Bool :=
  match x.content with
  | .chain p => p.dst.isSome && p.kind == 1
  | .response _ => false

/-- Everything of the link stops: OFF (BELL_ENABLE, STANDBY, resets). Commands that wait for it complete. -/
def bellOff (s : State) : State :=
  let b := s.bell
  let s1 := b.enabling.foldl (fun acc t => complete t .eNotReady 0 acc) s
  let s2 := s1.rf.bellRuns.foldl (fun acc t => complete t .eNotReady 0 acc) s1
  let s3 := (s2.modRf (fun r => { r with bellLocked := false, bellCal := false, bellDue := false, bellRuns := [] })).modBell (fun y =>
    { endReception y with
      rx := .off, enabled := false, enabling := [], disabling := none, queue := [], sending := none, awaiting := none
      arrivals := [], suspended := false, resumeAt := none, neighbours := [], relay := none, relayed := [] })
  match b.disabling with
  | some t => finishDeferred t .ok 0 [] s3
  | none => s3

/-- R351. The last symbol and the turnaround end. A transmit/receive switch that takes longer than 20 µs raises BELL_FAULT
(R364). -/
def bellTxEnd (switched : Bool) (s : State) : State :=
  match s.bell.sending with
  | none => s
  | some (x, _, e) =>
    let s1 := advanceTo (e + tcOfUs 20) s
    let s2 := s1.modBell (fun b => { endReception b with
      sending := none, packets := b.packets + 1, sent := { tx := x, symbols := packetSymbols s1 x } :: b.sent
      awaiting := if needsAck x then some (x, e + tcOfUs b.config.keeperTurn) else b.awaiting })
    let s3 := if switched then s2 else raiseMoment { cls := 0xA0, unit := bellUnit, detail4 := 3 } s2
    if s3.bell.disabling.isSome then bellOff s3 else s3

def execBellTxEnd (switched : Bool) (s : State) : Host.Outcome State Fault Refusal := .next (bellTxEnd switched s)

/-- R352. A response that has not started 10 ms after its scheduled start is dropped. -/
def keeperResponseExpiry (s : State) : State :=
  match s.bell.queue.find? (fun x => isResponse x && x.waiting.isNone) with
  | none => s
  | some x =>
    let s1 := advanceTo (x.start + tcOfMs 10) s
    s1.modBell (fun b => { unqueue x b with dropped := b.dropped + 1 })

def execKeeperResponseExpiry (s : State) : Host.Outcome State Fault Refusal := .next (keeperResponseExpiry s)

/-- R355. A transmission has lasted 100 ms. -/
def bellTxWatchdog (s : State) : State :=
  match s.bell.sending with
  | none => s
  | some (_, start, _) =>
    let s1 := (advanceTo (start + tcOfMs 100) s).modBell (fun b => { endReception b with sending := none })
    let s2 := raiseMoment { cls := 0xA0, unit := bellUnit, detail4 := 2 } s1
    if s2.bell.disabling.isSome then bellOff s2 else s2

def execBellTxWatchdog (s : State) : Host.Outcome State Fault Refusal := .next (bellTxWatchdog s)

/-! ## SYN.BELL (R79, R354, R364) -/

/-- SYN.BELL starts to calibrate: the receiver is deaf. -/
def startBellCal (s : State) : State :=
  (s.modRf (fun r => { r with bellCal := true, bellLocked := false, bellDue := false })).modBell (fun b =>
    { endReception b with rx := .calibrating })

/-- R354. A due calibration starts in SEARCH with an empty transmit queue. -/
def synBellCalStart (s : State) : State :=
  if s.bell.rx = .search ∧ s.bell.queue.isEmpty ∧ bellCalDue s then startBellCal s else s

def execSynBellCalStart (s : State) : Host.Outcome State Fault Refusal := .next (synBellCalStart s)

/-- The own action of BELL_FAULT (R364): idle, a FULL calibration at once, transmission suspended until 1 s after lock. -/
def bellFaultAction (s : State) : State :=
  if s.bell.rx = .off then s
  else startBellCal (s.modBell (fun b => { b with sending := none, suspended := true, resumeAt := none }))

/-- R354. SYN.BELL locks and the receiver searches; or VCO selection has failed twice, which raises BELL_FAULT and leaves the
receiver deaf until the calibration that the own action starts has locked. -/
def synBellLock (locked : Bool) (s : State) : State :=
  if s.rf.bellCal = false then s
  else if locked then
    let s1 := (s.modRf (fun r => { r with bellCal := false, bellLocked := true, bellRuns := [] })).modBell (fun b =>
      { endReception b with
        enabling := [], calTemp := bellTemp s, resumeAt := if b.suspended then some (now s + tcPerSecond) else none
        helloAt := if !b.enabling.isEmpty then now s + tcOfMs b.chain.helloInt else b.helloAt
        statusAt := if !b.enabling.isEmpty then now s + tcOfMs b.chain.statusInt else b.statusAt })
    (s.bell.enabling ++ s.rf.bellRuns).foldl (fun acc t => complete t .ok 0 acc) s1
  else
    s.rf.bellRuns.foldl (fun acc t => complete t .eIntegrity 0 acc)
      (raiseMoment { cls := 0xA0, unit := bellUnit, detail4 := 1 } (s.modRf (fun r => { r with bellRuns := [] })))

def execSynBellLock (locked : Bool) (s : State) : Host.Outcome State Fault Refusal := .next (synBellLock locked s)

/-- R364. 1 s after lock transmission resumes. -/
def bellTxResume (s : State) : State :=
  match s.bell.resumeAt with
  | some t => (advanceTo t s).modBell (fun b => { b with suspended := false, resumeAt := none })
  | none => s

def execBellTxResume (s : State) : Host.Outcome State Fault Refusal := .next (bellTxResume s)

/-! ## Chain traffic (R360–R363) -/

/-- The chain header of a packet from this part. -/
def chainFrom (s : State) (dst : Option Nat) (kind : Nat) (frames : List CtrlFrame) (records : List Record) : ChainPacket :=
  { src := ownMember s, dst, kind, hops := if canRelay s then hopCount s else none, frames, records }

/-- The relay: the JOINED neighbour with the lowest hops, the higher level on a tie (R361). -/
def chooseRelay (l : List Neighbour) : Option Nat :=
  let cand := l.filter (fun n => n.hops.isSome)
  match cand with
  | [] => none
  | x :: rest =>
    some (rest.foldl (fun b n =>
      let hb := b.hops.getD 255
      let hn := n.hops.getD 255
      if hn < hb ∨ (hn = hb ∧ b.level < n.level) then n else b) x).member

/-- The relay is chosen again from the table. -/
def reviewRelay (s : State) : State :=
  s.modBell (fun b => { b with relay := if canRelay s then none else chooseRelay b.neighbours })

/-- A HELLO is heard: its sender enters the table or renews its entry; in a full table it replaces the lowest level (R360). -/
def hearNeighbour (n : Neighbour) (l : List Neighbour) : List Neighbour :=
  let others := l.filter (fun x => x.member != n.member)
  if others.length < 16 then others ++ [n]
  else
    match (others.mergeSort (fun a b => decide (a.level ≤ b.level))).head? with
    | some w => others.filter (fun x => x.member != w.member) ++ [n]
    | none => [n]

/-- Members relayed for within the last 10 s (R362). -/
def liveRelayed (s : State) : List (Nat × Nat) := s.bell.relayed.filter (fun p => decide (now s < p.2 + tcOfS 10))

/-- One frame from a member that is relayed for goes on towards the hub, unchanged; the hub takes a STATUS itself (R362, R363). -/
def relayFrame (s : State) (f : CtrlFrame) : State :=
  let s1 := s.modBell (fun b => { b with relayCount := b.relayCount + 1 })
  if activeHub s then
    (match f.body, f.head.src with
     | .status r, some m => hubStatus m r s1
     | _, _ => s1)
  else
    match s.fl.primary with
    | some p => enqueue p f s1
    | none => s1

/-- Frames for relaying: refused in silence, or remembered, answered and forwarded (R361, R362). -/
def relayPacket (p : ChainPacket) (s : State) : State :=
  let live := liveRelayed s
  if s.bell.chain.relay = false ∨ canRelay s = false ∨ (8 ≤ live.length ∧ live.all (fun x => x.1 != p.src)) then s
  else
    let s1 := s.modBell (fun b => { b with relayed := live.filter (fun x => x.1 != p.src) ++ [(p.src, now s)] })
    p.frames.foldl relayFrame (queueChain (chainFrom s (some p.src) 2 [] []) s1)

/-- A control frame that arrives downstream for a member relayed for is sent to it over the Bell link (R362). -/
def relayDown (dest : Nat) (f : CtrlFrame) (s : State) : Option State :=
  if s.bell.chain.relay && (liveRelayed s).any (fun p => p.1 == dest) then
    some ((queueChain (chainFrom s (some dest) 1 [f] []) s).modBell (fun b => { b with relayCount := b.relayCount + 1 }))
  else none

/-- R360. HELLO_INT has passed. -/
def chainHelloTimer (s : State) : State :=
  if chainOn s then
    let s1 := advanceTo s.bell.helloAt s
    queueChain (chainFrom s1 none 0 [] []) (s1.modBell (fun b => { b with helloAt := now s1 + tcOfMs b.chain.helloInt }))
  else s

def execChainHelloTimer (s : State) : Host.Outcome State Fault Refusal := .next (chainHelloTimer s)

/-- R360. An entry has gone 3 × HELLO_INT without a HELLO. -/
def neighbourExpiry (member : Nat) (s : State) : State :=
  match s.bell.neighbours.find? (fun n => n.member == member) with
  | some n =>
    reviewRelay ((advanceTo (n.heard + 3 * tcOfMs s.bell.chain.helloInt) s).modBell (fun b => { b with
      neighbours := b.neighbours.filter (fun x => x.member != member) }))
  | none => s

def execNeighbourExpiry (member : Nat) (s : State) : Host.Outcome State Fault Refusal := .next (neighbourExpiry member s)

/-- R361. STATUS_INT has passed: a member that is not JOINED reports to its relay. -/
def chainStatusTimer (s : State) : State :=
  if chainOn s then
    let s1 := (advanceTo s.bell.statusAt s)
    let s2 := s1.modBell (fun b => { b with statusAt := now s1 + tcOfMs b.chain.statusInt })
    match canRelay s, s.bell.relay with
    | false, some m =>
      let f : CtrlFrame := { head := { up := true, src := some (ownMember s) }, body := .status (statusReport s) }
      let all := (recordsFrom (servedRecords s.log) (nextSeq s.bell.reported)).filter (fun r => decide (1 ≤ r.severity))
      let p := chainFrom s (some m) 1 [f] []
      let rs := all.take ((1024 - (chainBytes p s2).length) / 64)
      let upTo := if rs.length = all.length then s.log.head else (rs.getLast?.map (·.seq)).getD s.bell.reported
      queueChain { p with records := rs } (s2.modBell (fun b => { b with reported := upTo }))
    | _, _ => s2
  else s

def execChainStatusTimer (s : State) : Host.Outcome State Fault Refusal := .next (chainStatusTimer s)

/-- R361. No ACK has come: resent up to RETRIES times, then the relay leaves the table and another is chosen. -/
def chainAckTimeout (s : State) : State :=
  match s.bell.awaiting with
  | none => s
  | some (x, t) =>
    let s1 := (advanceTo t s).modBell (fun b => { b with awaiting := none })
    if x.resends < s.bell.chain.retries then
      bellQueue { x with resends := x.resends + 1, attempts := 0, ccaUntil := none } s1
    else
      match x.content with
      | .chain p => reviewRelay (s1.modBell (fun b => { b with neighbours := b.neighbours.filter (fun n => some n.member != p.dst) }))
      | .response _ => s1

def execChainAckTimeout (s : State) : Host.Outcome State Fault Refusal := .next (chainAckTimeout s)

/-! ## Keeper lockout (R359) -/

/-- R359. A lockout of 300 s ends. -/
def keeperLockoutExpiry (keeper : Nat) (s : State) : State :=
  match s.bell.locked.find? (fun p => p.1 == keeper) with
  | some p => (waitUntil p.2 s).modBell (fun b => { b with locked := b.locked.filter (fun x => x.1 != keeper) })
  | none => s

def execKeeperLockoutExpiry (keeper : Nat) (s : State) : Host.Outcome State Fault Refusal := .next (keeperLockoutExpiry keeper s)

/-! ## Commands -/

/-- Power states in which Bell commands are accepted. -/
def bellPower : List PowerState := [.active, .quiet]

/-- The configuration in a BELL_CONFIG payload. -/
def bellConfigOf (p : List Byte) : BellConfig :=
  { freq := u64 p 0, power := s8 p 8, hub := u8 p 9 == 1
    keeperRate := if u8 p 10 = 0xFF then none else some (u8 p 10), chainRate := if u8 p 11 = 0xFF then none else some (u8 p 11)
    syncTol := u8 p 12, capture := u8 p 13 == 1, captureDb := (u16 p 14 : Nat), syncMetric := u16 p 16, keeperTurn := u16 p 18
    keeperSync := u32 p 20, ccaLevel := s32 p 24, whiten := u8 p 28 == 1, ldpcIter := u8 p 29 }

/-- BELL_CONFIG (0x0D01). -/
def specBellConfig : CommandSpec where
  opcode := 0x0D01
  role := some .admin
  power := bellPower
  length := fixedLength 32
  states := fun s _ => s.bell.rx == .off
  checks := fun s q =>
    let p := q.payload
    let c := bellConfigOf p
    [field 0 (within 779000000 960000000 c.freq), field 8 (withinI (-20) 10 c.power), field 9 (within 0 1 (u8 p 9)),
     field 10 (decide (u8 p 10 ≤ 2) || u8 p 10 == 0xFF), field 11 (within 2 3 (u8 p 11) || u8 p 11 == 0xFF),
     field 12 (within 0 4 c.syncTol), field 13 (within 0 1 (u8 p 13)), field 14 (withinI 300 1200 c.captureDb),
     field 16 (within 32768 62259 c.syncMetric), field 18 (within 100 10000 c.keeperTurn),
     field 20 (c.keeperSync != 0 && c.keeperSync != 0xFFFF_FFFF), field 24 (withinI (-12000) (-6000) c.ccaLevel),
     field 28 (within 0 1 (u8 p 28)), field 29 (within 1 20 c.ldpcIter), field 30 (zeros p 30 2),
     need .eConflict (c.keeperRate.isSome || c.chainRate.isSome),
     need .eConflict (c.chainRate.isNone || s.fl.config.flockId.isSome)]
  effect := fun s q => (s.modBell (fun b => { b with config := bellConfigOf q.payload, configured := true }), {})

def execBellConfig (r : HostRequest) (s : State) : Host.Outcome State Fault Refusal := .next (submit specBellConfig r s)

/-- BELL_ENABLE (0x0D02). -/
def specBellEnable : CommandSpec where
  opcode := 0x0D02
  role := some .operate
  power := bellPower
  length := fixedLength 4
  states := fun s _ => s.bell.configured
  checks := fun _ q => [field 0 (within 0 1 (u8 q.payload 0)), field 1 (zeros q.payload 1 3)]
  effect := fun s q =>
    let t := ticketOf q
    if u8 q.payload 0 = 1 then
      if s.bell.rx = .off then
        (startBellCal (s.modBell (fun b => { b with enabled := true, enabling := [t] })), { status := .accepted })
      else if s.bell.enabling.isEmpty then (complete t .ok 0 s, { status := .accepted })
      else (s.modBell (fun b => { b with enabling := b.enabling ++ [t] }), { status := .accepted })
    else if s.bell.sending.isSome then
      (s.modBell (fun b => { b with queue := [], reception := none, disabling := some t }), { deferred := true })
    else (bellOff s, {})

def execBellEnable (r : HostRequest) (s : State) : Host.Outcome State Fault Refusal := .next (submit specBellEnable r s)

/-- KEEPER_KEY (0x0D03). -/
def specKeeperKey : CommandSpec where
  opcode := 0x0D03
  role := some .admin
  power := bellPower
  lifecycle := [.provisioned, .deployed]
  length := fixedLength 36
  states := fun s _ => !s.sys.keys.locked
  checks := fun s q =>
    let p := q.payload
    let known := s.bell.keys.any (fun k => k.id == u16 p 0)
    [field 0 (decide (u16 p 0 ≤ 65534) && (u8 p 2 != 0 || known)), field 2 (within 0 1 (u8 p 2)), field 3 (within 0 1 (u8 p 3)),
     need .eResource (u8 p 2 == 0 || known || decide (s.bell.keys.length < 64))]
  effect := fun s q =>
    let p := q.payload
    let id := u16 p 0
    (s.modBell (fun b =>
      let others := b.keys.filter (fun k => k.id != id)
      if u8 p 2 = 0 then { b with keys := others }
      else { b with
        keys := others ++ [{ id, role := roleOfCode (u8 p 3), key := bytesAt p 4 32 }]
        locked := b.locked.filter (fun x => x.1 != id), fails := b.fails.filter (fun x => x.1 != id) }), {})

def execKeeperKey (r : HostRequest) (s : State) : Host.Outcome State Fault Refusal := .next (submit specKeeperKey r s)

/-- BELL_CHAIN_CONFIG (0x0D04). -/
def specBellChainConfig : CommandSpec where
  opcode := 0x0D04
  role := some .operate
  power := bellPower
  length := fixedLength 8
  checks := fun _ q =>
    let p := q.payload
    [field 0 (within 0 1 (u8 p 0)), field 1 (within 0 1 (u8 p 1)), field 2 (within 100 10000 (u16 p 2)),
     field 4 (within 100 60000 (u16 p 4)), field 6 (within 0 7 (u8 p 6)), field 7 (zeros p 7 1)]
  effect := fun s q =>
    let p := q.payload
    (s.modBell (fun b => { b with chain := {
      relay := u8 p 0 == 1, twoThirds := u8 p 1 == 1, helloInt := u16 p 2, statusInt := u16 p 4, retries := u8 p 6 } }), {})

def execBellChainConfig (r : HostRequest) (s : State) : Host.Outcome State Fault Refusal := .next (submit specBellChainConfig r s)

end Sys2Proof.Machine
end

