-- ==== Sys2Proof/Machine/Drover.lean ====
section
/-! DEFINITION. Flows, queues and Drover placement (R285–R312): descriptors, delay alignment, uplink sums, the computation
of a placement on the active hub, plans, and the commands of Drover. -/

namespace Sys2Proof.Machine

open Sys2Proof

/-! ## Descriptors and entries -/

/-- Flow that a PLAN entry names. -/
def entryFlow (e : PlanEntry) : Nat := bits 17 0 e.word0

/-- The placement that a PLAN entry describes (table *Queue descriptor*). -/
def placementOf (e : PlanEntry) : Placement :=
  { kind := bits 19 18 e.word0, source := e.word0.testBit 20, consumer := e.word0.testBit 21
    replicates := e.word0.testBit 22, sums := e.word0.testBit 23, rate := e.rate, inn := e.inn, out := e.out
    localBp := e.localBp, prio := e.prio, deadline := e.deadline, service := bits 25 24 e.word0 }

/-- Descriptor word 0 of a flow under a placement. -/
def word0Of (flow : Nat) (p : Placement) : Nat :=
  place 18 0 flow + place 2 18 p.kind + place 1 20 (flag p.source) + place 1 21 (flag p.consumer) +
    place 1 22 (flag p.replicates) + place 1 23 (flag p.sums) + place 2 24 p.service

/-- Code of an unreachable reason. -/
def Unreachable.code : Unreachable → Nat
  | .delay => 1 | .load => 2 | .descriptors => 3 | .noPath => 4 | .shed => 5

/-- State and reason codes of an endpoint (ENDPOINT_STATE). -/
def EndState.codes : EndState → Nat × Nat
  | .served => (0, 0) | .unbound => (1, 0) | .unreachable w => (2, w.code)

/-- Home member of a flow: member 1's streams belong to the active hub (R285, R287). -/
def homeOf (flow : Nat) : Nat := if flow / 16 = 1 then 0 else flow / 16

/-- A ladder rate (R89). -/
def ladderRate (rate : Nat) : Bool := (flitCharge rate).1 != 0

/-- Half-band stages of a ladder rate. -/
def stagesOfRate (rate : Nat) : Nat := (([1, 2, 3, 4, 5, 6, 7, 8, 9].find? (fun d => rateKsps d == rate))).getD 9

/-- Data flits per second of a lane (R298). -/
abbrev laneFlits : Nat := 10177893

/-- HOP_LAT and SUM_LAT, Tc (table *Delay terms*). -/
abbrev hopLat : Nat := 2949
abbrev sumLat : Nat := 983

/-! ## Bindings (R288) -/

/-- The band paths of this part as BIND_STATUS reports them. -/
def ownBindings (s : State) : List Binding :=
  (ibs s).map (fun p => ⟨p.1, true, false, false, 0, rateKsps p.2.params.stages⟩) ++
  (ebs s).map (fun p => ⟨p.1, true, true, p.2.params.srcFlow, if p.2.params.srcFlow then p.2.params.srcId else 0,
    rateKsps p.2.params.stages⟩)

/-- What has changed since the last report; a band path that is gone is reported as not existing. -/
def bindingChanges (old new : List Binding) : List Binding :=
  new.filter (fun b => !old.contains b) ++
  (old.filter (fun b => !new.any (fun c => c.bp == b.bp && c.egress == b.egress))).map (fun b => { b with exists_ := false })

/-- A report merged into what was known. -/
def mergeBindings (old l : List Binding) : List Binding :=
  old.filter (fun b => !l.any (fun c => c.bp == b.bp && c.egress == b.egress)) ++ l.filter (·.exists_)

/-- A member's bindings reach the hub and trigger a re-placement (R305). -/
def takeBindings (m : Nat) (l : List Binding) (s : State) : State :=
  s.modDv (fun d => { d with bindings := d.bindings.set m (mergeBindings (d.bindings.get m) l), trigger := true })

/-- Changes of this part's bindings are reported (R288). -/
def reportBindings (s : State) : State :=
  let new := ownBindings s
  let diff := bindingChanges s.dv.ownBinds new
  if diff.isEmpty then s
  else if activeHub s then (takeBindings 0 diff s).modDv (fun d => { d with ownBinds := new })
  else if s.fl.state = .joined then (sendUp (.bindStatus diff) s).modDv (fun d => { d with ownBinds := new })
  else s

/-- A BIND_STATUS reaches the hub or passes a branch. -/
def bindStatus (h : FrameHeader) (l : List Binding) (s : State) : State :=
  if activeHub s then
    (match h.src with
     | some m => takeBindings m l s
     | none => s)
  else forwardUp ⟨h, .bindStatus l⟩ s

def execBindStatus (port : Nat) (h : FrameHeader) (l : List Binding) (s : State) : Host.Outcome State Fault Refusal :=
  .next (let _ := port; bindStatus h l s)

/-! ## The routing graph (R302, R470) -/

/-- One link crossed in one direction: sender and its port, receiver and its port. -/
structure Hop where
  from_    : Nat
  fromPort : Nat
  to_      : Nat
  toPort   : Nat
  delay    : Nat
  lanes    : Nat
  deriving DecidableEq, Repr

/-- The same link crossed the other way. -/
def Hop.back (h : Hop) : Hop := ⟨h.to_, h.toPort, h.from_, h.fromPort, h.delay, h.lanes⟩

/-- The mirror links as edges of the graph. -/
def mirrorLinks (s : State) : List Link :=
  ((List.range 12).filter (fun p => s.pair.config.ports.getLsbD p &&
    (s.fl.ports.get p).config.function == .mirror && portUp s p)).filterMap (fun p =>
      (linkOf s p false).map (fun l => { l with member := 1, port := l.peerPort, peer := 0, peerPort := p }))

/-- The nodes: the active hub, the standby while its mirror link is up, and the members JOINED or granted. -/
def nodes (s : State) : List Nat :=
  0 :: (if (mirrorLinks s).isEmpty then [] else [1]) ++
    s.fl.members.cells.filterMap (fun p => match p.2 with
      | some r => if r.state = .joined ∨ r.state = .granted then some p.1 else none
      | none => none)

/-- The edges, each in both directions: primary upstream links, alternates when SPLIT is enabled, mirror links. -/
def graphHops (s : State) : List Hop :=
  let ns := nodes s
  let ls := (s.dv.links.cells.flatMap (·.2) ++ mirrorLinks s).filter (fun l =>
    ns.contains l.member && ns.contains l.peer && (s.dv.split || !l.alternate))
  ls.flatMap (fun l =>
    let h : Hop := ⟨l.member, l.port, l.peer, l.peerPort, l.delay, l.lanes⟩
    [h, h.back])

/-- Every simple path of at most `n` hops from `m` to `target`. -/
def paths (g : List Hop) (target : Nat) : Nat → Nat → List Nat → List (List Hop)
  | 0, m, _ => if m = target then [[]] else []
  | n + 1, m, seen =>
    if m = target then [[]]
    else ((g.filter (fun h => h.from_ == m && !seen.contains h.to_)).flatMap (fun h =>
      (paths g target n h.to_ (h.to_ :: seen)).map (fun l => h :: l)))

/-- A path is at most 64 hops up and 64 down. -/
abbrev pathLimit : Nat := 128

/-- The paths from an endpoint to a flow's home. -/
def pathsHome (g : List Hop) (m home : Nat) : List (List Hop) := paths g home pathLimit m [m]

/-! ## Delays (R93, R293–R295) -/

/-- Group delay of an endpoint. The hub knows the filter preset of its own band paths alone: it takes the home band path's
preset for a flow homed at the hub, and the longest preset otherwise (log entry 21). -/
def tau (s : State) (i : Intent) (d : Dir) : Nat :=
  let st := stagesOfRate i.rate
  let known : Option Nat :=
    if homeOf i.flow = 0 then
      (if i.uplink then (s.ce.eb.get i.homeBp).map (·.params.preset) else (s.ce.ib.get i.homeBp).map (·.params.preset))
    else none
  let fixed (k : Nat) : Nat := (match d with
    | .ingress => 420
    | .egress => 448) + 24 + halfBandDelay k st
  match known with
  | some k => fixed k
  | none => [0, 1, 2, 3].foldl (fun m k => max m (fixed k)) 0

/-- Numerology of an uplink flow's gates: that of its consumer at the hub, else 0, whose symbols are longest (log entry 21). -/
def gateMu (s : State) (i : Intent) : Nat :=
  match (if homeOf i.flow = 0 then s.ce.eb.get i.homeBp else none) with
  | some b => (match b.params.tdd with
    | some t => ((s.air.patterns.get t).defn.map (·.mu)).getD b.params.mu
    | none => b.params.mu)
  | none => 0

/-- LOOK: one symbol and its ramp for an uplink flow. -/
def look (s : State) (i : Intent) : Nat := if i.uplink then 140288 / 2 ^ gateMu s i + 1024 else 0

/-- Delay at the point where a flow enters the fabric. -/
def entryDelay (s : State) (i : Intent) : Nat := tau s i .ingress + look s i + (flitCharge i.rate).2.1

/-- R of an endpoint path that crosses `sums` summing members (R293). -/
def requiredDelay (s : State) (i : Intent) (path : List Hop) (sums : Nat) : Nat :=
  entryDelay s i + (path.map (fun h => h.delay + hopLat)).sum + sums * sumLat + 64 + tau s i .egress

/-! ## Endpoints (R288, R301, R304) -/

/-- An endpoint is bound. -/
def isBound (s : State) (i : Intent) (m bp : Nat) : Bool :=
  (s.dv.bindings.get m).any (fun b => b.bp == bp && b.rate == i.rate && (if i.uplink then !b.egress
    else b.egress && b.flowFed && b.flow == i.flow))

/-- The home band path is bound. -/
def homeBound (s : State) (i : Intent) : Bool :=
  (s.dv.bindings.get (homeOf i.flow)).any (fun b => b.bp == i.homeBp && b.rate == i.rate && (if i.uplink then
    b.egress && b.flowFed && b.flow == i.flow else !b.egress))

/-- The endpoints of an intent among the members of the graph. -/
def endpointsOf (s : State) (i : Intent) : List (Nat × Nat) :=
  i.ranges.flatMap (fun r => ((nodes s).filter (fun m => within r.1 r.2.1 m)).map (fun m => (m, r.2.2)))

/-- Serving order: protected first, then priority descending, then intent number (R303). -/
def servesBefore (a b : Nat × Intent) : Bool :=
  if a.2.protected_ ≠ b.2.protected_ then a.2.protected_
  else if a.2.priority ≠ b.2.priority then decide (b.2.priority < a.2.priority)
  else decide (a.1 ≤ b.1)

/-- The intents in serving order. -/
def servingOrder (s : State) : List (Nat × Intent) :=
  (s.dv.intents.cells.filterMap (fun p => p.2.map (fun i => (p.1, i)))).mergeSort servesBefore

/-! ## Routing (R303) -/

/-- A served endpoint with its path, from the endpoint to the home. -/
structure Route where
  intent : Intent
  member : Nat
  bp     : Nat
  path   : List Hop

/-- What a computation has placed so far. -/
structure Work where
  routes : List Route := []
  /-- Charge of each sending port, flits/s, by member × 16 + port. -/
  load   : Bank Nat := Bank.fill 0
  ends   : List Endpoint := []

/-- The sending sides of a path: towards the home for an uplink flow, away from it for a downlink flow. -/
def sendingHops (i : Intent) (path : List Hop) : List Hop := if i.uplink then path else path.map Hop.back

/-- Key of a sending port. -/
def portKey (h : Hop) : Nat := h.from_ * 16 + h.fromPort

/-- The links of a path that a flow does not use yet. -/
def freshHops (w : Work) (i : Intent) (path : List Hop) : List Hop :=
  (sendingHops i path).filter (fun h => !w.routes.any (fun r => r.intent.flow == i.flow &&
    (sendingHops r.intent r.path).contains h))

/-- Limit of a sending port, flits/s (R299). -/
def portLimit (s : State) (h : Hop) : Nat := h.lanes * laneFlits * s.dv.fillLimit / 100

/-- The path fits within the limits of its ports. -/
def fits (s : State) (w : Work) (i : Intent) (path : List Hop) : Bool :=
  (freshHops w i path).all (fun h => decide (w.load.get (portKey h) + (flitCharge i.rate).2.2 ≤ portLimit s h))

/-- The members of a path. -/
def pathMembers (m : Nat) (path : List Hop) : List Nat := m :: path.map (·.to_)

/-- The flow has a role at a member already. -/
def roleAt (w : Work) (flow m : Nat) : Bool :=
  w.routes.any (fun r => r.intent.flow == flow && (pathMembers r.member r.path).contains m)

/-- Flows with a role at a member. -/
def flowsAt (w : Work) (m : Nat) : Nat :=
  (((w.routes.filter (fun r => (pathMembers r.member r.path).contains m)).map (·.intent.flow)).eraseDups).length

/-- Every member of the path has a descriptor free (R290). -/
def descriptorsFree (w : Work) (i : Intent) (m : Nat) (path : List Hop) : Bool :=
  (pathMembers m path).all (fun x => roleAt w i.flow x || decide (flowsAt w x < 4096))

/-- Figure of merit of a path by criteria 2 to 5 of R303: the smaller list in dictionary order is the better. -/
def score (s : State) (w : Work) (i : Intent) (m : Nat) (path : List Hop) : List Nat :=
  let fresh := freshHops w i path
  let charge := (flitCharge i.rate).2.2
  let worst := fresh.foldl (fun x h => max x ((w.load.get (portKey h) + charge) * 100000 / max 1 (portLimit s h))) 0
  let changed := if s.dv.full then 0 else ((pathMembers m path).filter (fun x =>
    !(s.dv.whole.any (fun e => e.1 == x && entryFlow e.2 == i.flow)))).length
  [worst, fresh.length * charge, changed] ++ (sendingHops i path).map (·.fromPort) ++ pathMembers m path

/-- Dictionary order. -/
def lexLess : List Nat → List Nat → Bool
  | [], [] => false
  | [], _ => true
  | _, [] => false
  | x :: xs, y :: ys => decide (x < y) || (x == y && lexLess xs ys)

/-- The best of a list of paths. -/
def bestPath (s : State) (w : Work) (i : Intent) (m : Nat) (l : List (List Hop)) : Option (List Hop) :=
  l.foldl (fun best p => match best with
    | none => some p
    | some b => if lexLess (score s w i m p) (score s w i m b) then some p else some b) none

/-- Members at which an uplink flow would be summed: two of its contributions, local or arriving, meet there. -/
def summers (s : State) (g : List Hop) (i : Intent) : List Nat :=
  let eps := (endpointsOf s i).filter (fun e => isBound s i e.1 e.2)
  let routes := eps.filterMap (fun e => ((pathsHome g e.1 (homeOf i.flow)).head?).map (fun p => (e.1, p)))
  let hops := (routes.flatMap (·.2)).eraseDups
  (nodes s).filter (fun m => 2 ≤ (hops.filter (fun h => h.to_ == m)).length + flag (eps.any (fun e => e.1 == m)))

/-- Summing members that a contribution passes on its path. -/
def sumsOn (sums : List Nat) (m : Nat) (path : List Hop) (uplink : Bool) : Nat :=
  if uplink then ((pathMembers m path).filter (fun x => sums.contains x)).length else 0

/-- An endpoint that is not served. -/
def notServed (w : Work) (i : Intent) (m bp : Nat) (st : EndState) : Work :=
  { w with ends := w.ends ++ [{ flow := i.flow, member := m, bp := bp, state := st }] }

/-- One endpoint of an intent is routed, or found unreachable with its reason (R303, R304). -/
def routeOne (s : State) (g : List Hop) (dT : Nat) (shed : List (Nat × Nat)) (sums : List Nat) (i : Intent) (w : Work)
    (e : Nat × Nat) : Work :=
  if shed.contains (i.flow, e.1) then notServed w i e.1 e.2 (.unreachable .shed)
  else
    let all := pathsHome g e.1 (homeOf i.flow)
    let timely := all.filter (fun p => decide (requiredDelay s i p (sumsOn sums e.1 p i.uplink) ≤ dT))
    let light := timely.filter (fits s w i)
    let free := light.filter (descriptorsFree w i e.1)
    match bestPath s w i e.1 free with
    | some p =>
      let fresh := freshHops w i p
      { routes := w.routes ++ [⟨i, e.1, e.2, p⟩]
        load := fresh.foldl (fun b h => b.mod (portKey h) (· + (flitCharge i.rate).2.2)) w.load
        ends := w.ends ++ [{ flow := i.flow, member := e.1, bp := e.2, state := .served
                             r := requiredDelay s i p (sumsOn sums e.1 p i.uplink) }] }
    | none =>
      notServed w i e.1 e.2 (.unreachable (if all.isEmpty then .noPath else if timely.isEmpty then .delay
        else if light.isEmpty then .load else .descriptors))

/-- One intent is routed. -/
def routeIntent (s : State) (g : List Hop) (dT : Nat) (shed : List (Nat × Nat)) (w : Work) (x : Nat × Intent) : Work :=
  let i := x.2
  let sums := if i.uplink then summers s g i else []
  (endpointsOf s i).foldl (fun acc e =>
    if homeBound s i ∧ isBound s i e.1 e.2 then routeOne s g dT shed sums i acc e else notServed acc i e.1 e.2 .unbound) w

/-- The whole placement under D_T, without the endpoints that are shed. -/
def routeAll (s : State) (dT : Nat) (shed : List (Nat × Nat)) : Work :=
  let g := graphHops s
  (servingOrder s).foldl (routeIntent s g dT shed) {}

/-- Largest R of a SERVED endpoint. -/
def worstDelay (w : Work) : Nat := w.ends.foldl (fun m e => if e.state = .served then max m e.r else m) 0

/-- D_T under AUTO: the smallest allowed value that leaves DELAY_MARGIN over the largest R (R294). -/
def autoTarget (margin worst : Nat) : Nat := min 2949120 (max 1 ((worst + margin + 245759) / 245760) * 245760)

/-! ## Shedding (R312) -/

/-- Order of removal: not protected first, then lower priority, higher rate, higher flow ID, higher member ID. -/
def shedBefore (a b : Route) : Bool :=
  if a.intent.protected_ ≠ b.intent.protected_ then !a.intent.protected_
  else if a.intent.priority ≠ b.intent.priority then decide (a.intent.priority < b.intent.priority)
  else if a.intent.rate ≠ b.intent.rate then decide (b.intent.rate < a.intent.rate)
  else if a.intent.flow ≠ b.intent.flow then decide (b.intent.flow < a.intent.flow)
  else decide (b.member ≤ a.member)

/-- Charge of a port by the routes that cross it, each flow once. -/
def chargeOf (l : List Route) : Nat :=
  (((l.map (fun r => (r.intent.flow, (flitCharge r.intent.rate).2.2))).eraseDups).map (·.2)).sum

/-- Endpoints removed from a port, in order, until the rest is within its limit. -/
def shedPort (limit : Nat) : List Route → List (Nat × Nat)
  | [] => []
  | r :: rest =>
    if chargeOf (r :: rest) ≤ limit then [] else (r.intent.flow, r.member) :: shedPort limit rest

/-- Endpoints shed for the overloaded ports, taken from the placement as it would be without limits. -/
def shedSet (s : State) (dT : Nat) : List (Nat × Nat) :=
  if s.dv.overloaded.isEmpty then []
  else
    let free := s.modDv (fun d => { d with fillLimit := 1000000 })
    let w := routeAll free dT []
    s.dv.overloaded.flatMap (fun p =>
      let crossing := w.routes.filter (fun r => (sendingHops r.intent r.path).any (fun h => h.from_ == p.1 && h.fromPort == p.2))
      let limit := ((crossing.flatMap (fun r => (sendingHops r.intent r.path).filter (fun h =>
        h.from_ == p.1 && h.fromPort == p.2))).head?.map (portLimit s)).getD 0
      shedPort limit (crossing.mergeSort shedBefore))

/-! ## From routes to descriptors -/

/-- The links that a flow uses, in the direction of its data. -/
def flowHops (w : Work) (flow : Nat) : List Hop :=
  ((w.routes.filter (fun r => r.intent.flow == flow)).flatMap (fun r => sendingHops r.intent r.path)).eraseDups

/-- Instant, as an offset from the timestamp, at which a flow's block leaves a member towards the next: the arrival for a
forwarder, the latest required arrival plus SUM_LAT where inputs meet (R293, R295). -/
def leaveDelay (s : State) (i : Intent) (hops : List Hop) (sources : List Nat) : Nat → Nat → Nat
  | 0, _ => entryDelay s i
  | n + 1, m =>
    let ins := hops.filter (fun h => h.to_ == m)
    let own := if sources.contains m then [entryDelay s i] else []
    let arrivals := own ++ ins.map (fun h => leaveDelay s i hops sources n h.from_ + h.delay + hopLat)
    arrivals.foldl max 0 + (if 2 ≤ arrivals.length ∧ i.uplink then sumLat else 0)

/-- The descriptor entry of a flow at a member. The standby hub sources a downlink flow of the active hub from its own ingress
band path, and sums an uplink flow for its own egress band path as well (R471). -/
def entryAt (s : State) (w : Work) (dT : Nat) (i : Intent) (m : Nat) : PlanEntry :=
  let routes := w.routes.filter (fun r => r.intent.flow == i.flow)
  let hops := flowHops w i.flow
  let home := homeOf i.flow
  let standby := m == 1 && home == 0
  let here := routes.filter (fun r => r.member == m)
  let ins := hops.filter (fun h => h.to_ == m)
  let outs := (hops.filter (fun h => h.from_ == m)).filter (fun h => i.uplink || home != 0 || h.to_ != 1)
  let contributes := i.uplink && !here.isEmpty
  let consumes := if i.uplink then m == home else !here.isEmpty
  let sources : Bool := if i.uplink then contributes else m == home || standby
  let sums := i.uplink && (standby || decide (2 ≤ ins.length + flag contributes))
  let bp := if (m = home ∨ standby) ∧ (i.uplink || sources) then i.homeBp
    else ((here.head?).map (·.bp)).getD 0xFF
  let take := dT - 64 - tau s i .egress
  let deadline :=
    if consumes && !sums then take
    else leaveDelay s i hops (if i.uplink then routes.map (·.member) else [home]) pathLimit m
  let p : Placement :=
    { kind := if i.uplink then 2 else 1, source := sources, consumer := consumes, sums := sums
      replicates := !i.uplink && decide (2 ≤ outs.length + flag consumes)
      service := if s.dv.pennedAll.contains i.flow then 1 else 0 }
  { word0 := word0Of i.flow p
    inn := if i.uplink then maskOf (ins.map (·.toPort)) + 32768 * flag contributes
      else if m = home ∨ standby then 15 else ((ins.head?).map (·.toPort)).getD 15
    out := maskOf (outs.map (·.fromPort)) + 32768 * flag (consumes || standby && i.uplink)
    localBp := bp, prio := flag i.protected_ + 2 * i.priority, deadline := deadline, rate := i.rate }

/-- The members at which a flow has a role. -/
def membersOf (w : Work) (i : Intent) : List Nat :=
  let routes := w.routes.filter (fun r => r.intent.flow == i.flow)
  if routes.isEmpty then [] else (homeOf i.flow :: routes.flatMap (fun r => pathMembers r.member r.path)).eraseDups

/-- The whole placement: every entry with its member. -/
def wholePlacement (s : State) (w : Work) (dT : Nat) : List (Nat × PlanEntry) :=
  (servingOrder s).flatMap (fun x => (membersOf w x.2).map (fun m => (m, entryAt s w dT x.2 m)))

/-- The entry that deactivates a flow (table *Placement control frames*). -/
def emptyEntry (flow : Nat) : PlanEntry := ⟨flow, 0, 0, 0xFF, 0, 0, 0⟩

/-- What changes from one placement to the next, by member. -/
def planChanges (old new : List (Nat × PlanEntry)) : List (Nat × List PlanEntry) :=
  let set := new.filter (fun e => !old.contains e)
  let drop := (old.filter (fun e => !new.any (fun x => x.1 == e.1 && entryFlow x.2 == entryFlow e.2))).map
    (fun e => (e.1, emptyEntry (entryFlow e.2)))
  let all := set ++ drop
  ((all.map (·.1)).eraseDups).map (fun m => (m, (all.filter (fun e => e.1 == m)).map (·.2)))

/-! ## Issuing a plan (R305, R306) -/

/-- PLAN frames to one member: at most 25 entries a frame, the last marked final. -/
def sendPlan (p : IssuedPlan) (m : Nat) (s : State) : State :=
  let l := ((p.changes.find? (fun c => c.1 == m)).map (·.2)).getD []
  let cut := pieces 25 l.length l
  (List.range cut.length).foldl (fun acc k =>
    sendTo m (.plan p.seq p.frame p.dT (k + 1 == cut.length) (cut.getD k [])) acc) s

/-- The placement that the next plan builds on: that of the last pending plan, else the one in force. -/
def baseOf (s : State) : List (Nat × PlanEntry) :=
  match s.dv.issued.getLast? with
  | some p => p.whole
  | none => s.dv.whole

/-- ENDPOINT_STATE at each change (R304). -/
def postEnds (old new : List Endpoint) (s : State) : State :=
  new.foldl (fun acc e =>
    if old.any (fun o => o.flow == e.flow && o.member == e.member && o.bp == e.bp && o.state == e.state) then acc
    else postNotice 0x0B01 e.flow (place 14 0 e.member + place 8 14 e.bp + place 3 22 e.state.codes.1 +
      place 3 25 e.state.codes.2) acc) s

/-- A plan held by a member takes its place by F. -/
def holdPlan (p : HeldPlan) (s : State) : State :=
  s.modDv (fun d => { d with held := d.held.filter (fun x => x.seq != p.seq) ++ [p] })

/-- Drover computes and issues one plan (R303–R306). -/
def issuePlan (s : State) : State :=
  let d := s.dv
  let f := match d.dTFrame with
    | some (f, _) => if 0 < frameDistance s f then f else framesAhead s d.planLead
    | none => match d.joinFrame with
      | some f => if 0 < frameDistance s f then f else framesAhead s d.planLead
      | none => framesAhead s d.planLead
  let first := autoTarget d.margin (worstDelay (routeAll s 2949120 []))
  let dT := match d.dTFrame with
    | some (_, x) => x
    | none => if d.targetTc = 0 then first else (d.targetNext.map (·.2)).getD d.targetTc
  let w := routeAll s dT (shedSet s dT)
  let whole := wholePlacement s w dT
  let changes := planChanges (baseOf s) whole
  let others := (if dT = d.targetTc then changes.map (·.1) else nodes s).filter (· != 0)
  let plan : IssuedPlan := ⟨d.seq + 1, f, dT, whole, changes, others⟩
  let s1 := s.modDv (fun x => { x with
    seq := x.seq + 1, issued := x.issued ++ [plan], trigger := false, joinFrame := none, full := false, dTFrame := none
    overloaded := [], ends := w.ends, worstR := worstDelay w
    targetNext := if dT = x.targetTc then x.targetNext else some (f, dT) })
  let own := ((changes.find? (fun c => c.1 == 0)).map (·.2)).getD []
  let s2 := nameLanes f (holdPlan ⟨plan.seq, f, dT, own, true, 0⟩ s1)
  postEnds d.ends w.ends (others.foldl (fun acc m => sendPlan plan m acc) s2)

/-- At the first frame boundary after a trigger, unless eight plans are pending (R305, R306). -/
def placementCompute (s : State) : State :=
  if activeHub s ∧ s.dv.trigger ∧ s.dv.issued.length < 8 then
    issuePlan (if s.air.offset = 0 then s else advanceToAir ⟨framesAhead s 1, 0⟩ s)
  else s

def execPlacementCompute (s : State) : Host.Outcome State Fault Refusal := .next (placementCompute s)

/-! ## Plans at a member (R290, R306, R307) -/

/-- Bytes of an alignment buffer of 2 ms at a rate: 104 bytes for each block of 16 samples (log entry 22). -/
def bufferBytes (rate : Nat) : Nat := (rate * 2 + 15) / 16 * 104

/-- Bytes of the FABRIC region left for alignment buffers: 2 GiB less the descriptor table (R313). -/
abbrev bufferPool : Nat := 2147483648 - 16777216

/-- The entries of a plan that this member can take, and the status of its PLAN_ACK: descriptors first, then buffers. -/
def admitEntries (s : State) (l : List PlanEntry) : List PlanEntry × Nat × Option Nat :=
  let active := activeFlows s
  let leaves := (l.filter (fun e => (placementOf e).kind == 0)).map entryFlow
  let kept := active.filter (fun p => !leaves.contains p.1)
  let start : List PlanEntry × Nat × Nat × Nat × Option Nat :=
    ([], kept.length, (kept.map (fun p => bufferBytes p.2.place.rate)).sum, 0, none)
  let r := l.foldl (fun (acc : List PlanEntry × Nat × Nat × Nat × Option Nat) e =>
    let (out, n, used, st, bad) := acc
    if (placementOf e).kind = 0 ∨ kept.any (fun p => p.1 == entryFlow e) then (out ++ [e], n, used, st, bad)
    else if 4096 ≤ n then (out, n, used, if st = 0 then 1 else st, bad)
    else if bufferPool < used + bufferBytes e.rate then
      (out, n, used, if st = 0 then 2 else st, if bad.isSome then bad else some (entryFlow e))
    else (out ++ [e], n + 1, used + bufferBytes e.rate, st, bad)) start
  (r.1, r.2.2.2.1, r.2.2.2.2)

/-- FABRIC_OVERFLOW on a flow (R312). -/
def fabricOverflow (flow : Nat) (s : State) : State :=
  if conditionHolds s.fault 0x83 (flowUnit flow) then s
  else placementTrigger (raiseFault { cls := 0x83, unit := flowUnit flow, detail4 := flow }
    (s.modDv (fun d => { d with overflows := d.overflows + 1 })))

/-- The last frame of a member's plan has arrived: it is held and acknowledged. -/
def finishPlan (p : HeldPlan) (s : State) : State :=
  let r := admitEntries s p.entries
  let s1 := holdPlan { p with entries := r.1, final := true, status := r.2.1 } s
  let s2 := if p.dT = s.dv.targetTc then s1 else s1.modDv (fun d => { d with targetNext := some (p.frame, p.dT) })
  let s3 := match r.2.2 with
    | some f => fabricOverflow f s2
    | none => s2
  nameLanes p.frame (sendUp (.planAck p.seq r.2.1) s3)

/-- A PLAN frame (R306): gathered until its final frame, and acknowledged again when it is repeated. -/
def plan (h : FrameHeader) (seq frame dT : Nat) (final : Bool) (entries : List PlanEntry) (s : State) : State :=
  if h.dest ≠ ownMember s then forwardTo ⟨h, .plan seq frame dT final entries⟩ s
  else match s.dv.held.find? (fun p => p.seq == seq) with
    | some p =>
      if p.final then (if final then sendUp (.planAck seq p.status) s else s)
      else
        let more := entries.filter (fun e => !p.entries.contains e)
        let q : HeldPlan := { p with entries := p.entries ++ more }
        if final then finishPlan q s else holdPlan q s
    | none =>
      let q : HeldPlan := ⟨seq, frame, dT, entries, false, 0⟩
      if final then finishPlan q s else holdPlan q s

def execPlan (port : Nat) (h : FrameHeader) (seq frame dT : Nat) (final : Bool) (entries : List PlanEntry) (s : State) :
    Host.Outcome State Fault Refusal := .next (let _ := port; plan h seq frame dT final entries s)

/-- A PLAN_CANCEL: it and every later plan are discarded (R306). -/
def dropPlans (seq : Nat) (s : State) : State :=
  s.modDv (fun d => { d with
    cancels := d.cancels + (d.held.filter (fun p => decide (seq ≤ p.seq))).length
    held := d.held.filter (fun p => decide (p.seq < seq))
    targetNext := match d.targetNext with
      | some (f, x) => if d.held.any (fun p => decide (seq ≤ p.seq) && p.frame == f) then none else some (f, x)
      | none => none })

def planCancel (h : FrameHeader) (seq : Nat) (s : State) : State := dropPlans seq (forwardBelow ⟨h, .planCancel seq⟩ s)

def execPlanCancel (port : Nat) (h : FrameHeader) (seq : Nat) (s : State) : Host.Outcome State Fault Refusal :=
  .next (let _ := port; planCancel h seq s)

/-- The flows of a member's changes that find no descriptor there, in the order of the entries; all that the plan changes there when
the hub's own count finds none (R290). -/
def excessFlows (s : State) (m : Nat) (l : List PlanEntry) : List Nat :=
  let flows := (l.filter (fun e => (placementOf e).kind != 0)).map entryFlow
  let gone := (l.filter (fun e => (placementOf e).kind == 0)).map entryFlow
  let had := (s.dv.whole.filter (fun e => e.1 == m)).map (fun e => entryFlow e.2)
  let more := (flows.filter (fun f => !had.contains f)).drop (4096 - (had.filter (fun f => !gone.contains f)).length)
  if more.isEmpty then flows else more

/-- A PLAN_ACK reaches the hub (R290, R306, R312). -/
def planAck (h : FrameHeader) (seq st : Nat) (s : State) : State :=
  if activeHub s then
    match h.src with
    | none => s
    | some m =>
      let entries := ((((s.dv.issued.find? (fun p => p.seq == seq)).bind (fun p => p.changes.find? (fun c => c.1 == m))).map
        (·.2)).getD [])
      let s1 := s.modDv (fun d => { d with
        issued := d.issued.map (fun p => if p.seq = seq then { p with waiting := without p.waiting m } else p) })
      if st = 1 then
        let flows := excessFlows s m entries
        let new := s1.dv.ends.map (fun e =>
          if e.member = m ∧ flows.contains e.flow ∧ e.state = .served then { e with state := .unreachable .descriptors } else e)
        postEnds s1.dv.ends new (s1.modDv (fun d => { d with ends := new }))
      else if st = 2 then
        (match (entries.filter (fun e => (placementOf e).kind != 0)).map entryFlow with
         | f :: _ => fabricOverflow f s1
         | [] => s1)
      else s1
  else forwardUp ⟨h, .planAck seq st⟩ s

def execPlanAck (port : Nat) (h : FrameHeader) (seq status : Nat) (s : State) : Host.Outcome State Fault Refusal :=
  .next (let _ := port; planAck h seq status s)

/-- An ACK is missing at the start of frame F − 1: the hub cancels and issues the plan again with a later F (R306). -/
def planAckTimeout (s : State) : State :=
  match s.dv.issued.find? (fun p => !p.waiting.isEmpty) with
  | none => s
  | some p =>
    let s1 := advanceToAir ⟨(p.frame + 4294967295) % 4294967296, 0⟩ s
    let s2 := dropPlans p.seq (sendBelow (.planCancel p.seq) s1)
    s2.modDv (fun d => { d with
      issued := d.issued.filter (fun x => decide (x.seq < p.seq)), trigger := true
      dTFrame := if p.dT = d.targetTc then d.dTFrame else some (s1.air.frame, p.dT) })

def execPlanAckTimeout (s : State) : Host.Outcome State Fault Refusal := .next (planAckTimeout s)

/-- The held plan whose F comes first. -/
def nextPlan (s : State) : Option HeldPlan :=
  (s.dv.held.filter (·.final)).foldl (fun best p => match best with
    | none => some p
    | some b => if frameDistance s p.frame < frameDistance s b.frame then some p else some b) none

/-- One frame before a plan, the descriptors that it activates are loaded into the cache (R290). -/
def descriptorLoad (s : State) : State :=
  match nextPlan s with
  | none => s
  | some p =>
    p.entries.foldl (fun acc e => if (placementOf e).kind = 0 then acc
        else modDesc (entryFlow e) (fun d => { d with cached := true }) acc)
      (advanceToAir ⟨(p.frame + 4294967295) % 4294967296, 0⟩ s)

def execDescriptorLoad (s : State) : Host.Outcome State Fault Refusal := .next (descriptorLoad s)

/-- The host's pen reason is put on a flow unit. -/
def penFlow (f : Nat) (s : State) : State :=
  s.modFault (fun x => { x with
    pens := x.pens.filter (fun p => !(p.unit == flowUnit f && p.reason == .host)) ++ [⟨flowUnit f, .host⟩]
    paddock := x.paddock.filter (· != flowUnit f) })

/-- The host's pen reason goes; a flow with none left enters PADDOCK (R311). -/
def releaseFlow (f : Nat) (s : State) : State :=
  let s1 := s.modFault (fun x => { x with pens := x.pens.filter (fun p => !(p.unit == flowUnit f && p.reason == .host)) })
  if penned s (flowUnit f) ∧ penned s1 (flowUnit f) = false then
    modDesc f (fun d => { d with cleanRun := 0 }) (s1.modFault (fun x => { x with
      paddock := x.paddock.filter (· != flowUnit f) ++ [flowUnit f] }))
  else s1

/-- One entry takes effect (R307): the placement before it stays for the drain; service bits pen or release. -/
def applyEntry (seq : Nat) (again : Bool) (s : State) (e : PlanEntry) : State :=
  let f := entryFlow e
  let old := (s.dv.desc.get f).place
  let new := placementOf e
  let fresh := old.kind == 0 && new.kind != 0
  let s1 := modDesc f (fun d =>
    let d1 : Descriptor := if fresh then { cached := true } else d
    { d1 with place := new, old := some old, plan := seq }) s
  let s2 := if new.service = 1 ∧ old.service ≠ 1 then penFlow f s1
    else if new.service ≠ 1 ∧ old.service = 1 then releaseFlow f s1 else s1
  let s3 := if again && fresh then s2.modFault (fun x => { x with
      paddock := x.paddock.filter (· != flowUnit f) ++ [flowUnit f] }) else s2
  if old.consumer && !new.consumer && old.kind == 1 then modBand .egress old.localBp (fun b =>
    if b.params.srcFlow && b.params.srcId == f then { b with srcGapped := true } else b) s3 else s3

/-- At frame F a member switches its descriptors (R307). -/
def planApply (s : State) : State :=
  match nextPlan s with
  | none => s
  | some p =>
    let s1 := advanceToAir ⟨p.frame, 0⟩ s
    let s2 := p.entries.foldl (applyEntry p.seq (s1.fl.rejoinedAt == some p.frame)) s1
    let n := (activeFlows s2).length
    refreshGains (s2.modDv (fun d => { d with
      held := d.held.filter (fun x => x.seq != p.seq), lastSeq := p.seq, lastFrame := p.frame
      descPeak := max d.descPeak n, drains := d.drains ++ [(p.seq, ⟨p.frame, max p.dT d.targetTc⟩)]
      whole := match d.issued.find? (fun x => x.seq == p.seq) with
        | some x => x.whole
        | none => d.whole
      issued := d.issued.filter (fun x => x.seq != p.seq) }))

def execPlanApply (s : State) : Host.Outcome State Fault Refusal := .next (planApply s)

/-- D_T after AT F:0 the old descriptor fields are released; a descriptor left inactive is written back to HBM (R290, R307). -/
def planDrainEnd (s : State) : State :=
  match s.dv.drains with
  | [] => s
  | (seq, i) :: rest =>
    (advanceToAir i s).modDv (fun d => { d with
      drains := rest
      desc := { d.desc with cells := d.desc.cells.map (fun p =>
        if p.2.plan = seq then (p.1, { p.2 with
          old := none, cached := p.2.place.kind != 0, buffer := if p.2.place.kind = 0 then [] else p.2.buffer })
        else p) } })

def execPlanDrainEnd (s : State) : Host.Outcome State Fault Refusal := .next (planDrainEnd s)

/-- At the named frame a new D_T applies: flow-fed egress band paths settle, and hub cancellers with a flow reference restart
cold (R297). -/
def targetDelayApply (s : State) : State :=
  match s.dv.targetNext with
  | none => s
  | some (f, x) =>
    let s1 := (advanceToAir ⟨f, 0⟩ s).modDv (fun d => { d with targetTc := x, targetNext := none })
    let s2 := ((ebs s1).filter (fun p => p.2.params.srcFlow)).foldl (fun acc p => realign .egress p.1 acc) s1
    let s3 := restartCancellers (fun c => c.refFlow) s2
    refreshGains (s3.modLg (fun g => { g with
      canc := { g.canc with cells := g.canc.cells.map (fun p => (p.1,
        if p.2.refFlow && p.2.state != .idle then { p.2 with bulk := x } else p.2)) } }))

def execTargetDelayApply (s : State) : Host.Outcome State Fault Refusal := .next (targetDelayApply s)

/-! ## Blocks (R295, R296, R299, R307) -/

/-- A block with a timestamp at or before what has been summed or consumed is late. -/
def isLate (d : Descriptor) (t : AirInstant) : Bool :=
  match d.done with
  | some x => x == t || instantBefore t x
  | none => false

/-- One more late block of a flow. -/
def noteLate (f : Nat) (s : State) : State :=
  modDesc f (fun d => { d with late := d.late + 1, lateNow := d.lateNow + 1 }) (s.modDv (fun d => { d with late := d.late + 1 }))

/-- The sum of blocks of one timestamp (R295); `flow` contributions that are not VALID add zeros. -/
def sumBlocks (t : AirInstant) (bseq : Nat) (l : List Block) (missing : Bool) : Block :=
  let live := l.filter (·.valid)
  let raw (k : Nat) : Int × Int := (live.map (fun b => b.samples.getD k (0, 0))).foldl (fun a x => (a.1 + x.1, a.2 + x.2)) (0, 0)
  let out := (List.range 16).map raw
  { valid := !live.isEmpty, settling := live.any (·.settling)
    clipped := l.any (·.clipped) || out.any (fun x => (saturate x.1).2 || (saturate x.2).2)
    gapped := (l.all (·.gapped)) && (!l.isEmpty || missing)
    at_ := t, bseq := bseq, samples := out.map (fun x => ((saturate x.1).1, (saturate x.2).1)) }

/-- A block reaches the local consumer's egress band path (R102, R104). -/
def consume (f : Nat) (p : Placement) (b : Block) (s : State) : State :=
  let s1 := modDesc f (fun d => { d with lastTs := b.at_.offset, handledAt := now s, gapped := if b.gapped then d.gapped + 1 else d.gapped }) s
  flowBlockArrival p.localBp p.rate b s1

/-- A summing member's deadline for a timestamp: what has arrived and its own contribution are added (R295). -/
def sumDeadline (f : Nat) (t : AirInstant) (s : State) : State :=
  let p := placeFor s f t
  if p.kind ≠ 2 ∨ p.sums = false then s
  else
    let s1 := advanceToAir (instantAfter t p.deadline) s
    let d := s1.dv.desc.get f
    let got := (d.buffer.filter (fun x => x.2.at_ == t)).map (·.2)
    let b := sumBlocks t d.blocks got true
    let s2 := modDesc f (fun x => { x with
      buffer := x.buffer.filter (fun y => !(y.2.at_ == t || instantBefore y.2.at_ t)), done := some t
      blocks := x.blocks + 1, lastTs := t.offset, handledAt := now s1, gapped := if b.gapped then x.gapped + 1 else x.gapped }) s1
    let s3 := sendGrouped f p b s2
    if p.out.testBit 15 then flowBlockArrival p.localBp p.rate b s3 else s3

def execSumDeadline (flow frame offset : Nat) (s : State) : Host.Outcome State Fault Refusal :=
  .next (sumDeadline flow ⟨frame, offset⟩ s)

/-- Delay of the egress band path that consumes a flow here. -/
def consumerDelay (s : State) (bp : Nat) : Nat := ((s.ce.eb.get bp).map (fun b => groupDelay .egress b.params)).getD 0

/-- The instant at which an egress band path must take a block: one that has not come is replaced by a GAPPED block and
counted late (R296). -/
def consumeDeadline (f : Nat) (t : AirInstant) (s : State) : State :=
  let p := placeFor s f t
  if p.consumer = false ∨ p.sums then s
  else
    let s1 := advanceToAir (instantAfter t (s.dv.targetTc - 64 - consumerDelay s p.localBp)) s
    let d := s1.dv.desc.get f
    let clear := modDesc f (fun x => { x with
      buffer := x.buffer.filter (fun y => !(y.2.at_ == t || instantBefore y.2.at_ t)), done := some t })
    match d.buffer.find? (fun x => x.2.at_ == t) with
    | some x => consume f p x.2 (clear s1)
    | none => consume f p { valid := false, gapped := true, at_ := t } (noteLate f (clear s1))

def execConsumeDeadline (flow : Nat) (at_ : AirInstant) (s : State) : Host.Outcome State Fault Refusal :=
  .next (consumeDeadline flow at_ s)

/-- A block of a flow arrives at a port: kept where it is consumed or summed (R286, R291). -/
def blockArrives (port f : Nat) (s : State) (b : Block) : State :=
  let p := placeFor s f b.at_
  if p.kind = 0 ∨ (p.kind = 1 ∧ p.source) then s
  else if isLate (s.dv.desc.get f) b.at_ ∧ (p.sums ∨ p.consumer) then noteLate f s
  else
    let s1 := modDesc f (fun d => { d with blocks := d.blocks + 1, lastTs := b.at_.offset, handledAt := now s }) s
    let s2 := notePatterns 2 f (if p.kind = 1 ∧ b.valid ∧ !b.settling ∧ !b.gapped then
      b.samples.zipIdx.map (fun (x, k) => (instantAfter b.at_ (k * (1966080 / max 1 p.rate)), x)) else [])
      s1
    if p.sums || p.consumer then modDesc f (fun d => { d with buffer := d.buffer ++ [(port, b)] }) s2 else s2

/-- A port has dropped a block of a flow (R299). -/
def noteDrop (s : State) (x : Nat × Nat) : State :=
  modDesc x.2 (fun d => { d with dropped := d.dropped + 1, dropNow := d.dropNow + 1, dropPort := some x.1 })
    (s.modDv (fun d => { d with dropped := d.dropped + 1 }))

/-- A flit that a member passes on whole: copied to the ports of the flow, or dropped and counted at each of them when the last of
its blocks has passed its deadline here (R298, R299). The order in which flits wait at a port is not held (log entry 143). -/
def forwardFlit (f : Nat) (l : List Block) (s : State) : State :=
  match l.getLast? with
  | none => s
  | some b =>
    let p := placeFor s f b.at_
    if p.kind = 0 ∨ (p.kind = 1 ∧ p.source) ∨ p.sums then s
    else if instantBefore (instantAfter b.at_ p.deadline) (airNow s.air) then
      (maskBits (p.out % 4096)).foldl (fun acc q => l.foldl (fun a _ => noteDrop a (q, f)) acc) s
    else emitBlocks f p.out l s

/-- A flow unit in PADDOCK has run clean for QUAL_FRAMES frames: admission is sought (R311). -/
def flowQualComplete (f : Nat) (s : State) : State := if inPaddock s (flowUnit f) then seekAdmission s else s

def execFlowQualComplete (flow : Nat) (s : State) : Host.Outcome State Fault Refusal := .next (flowQualComplete flow s)

/-! ## Overflow and reports (R308, R312) -/

/-- The most heavily charged port by which a flow leaves a member. -/
def guiltyPort (s : State) (m f : Nat) : Option Nat :=
  let ports := ((s.dv.whole.filter (fun e => e.1 == m && entryFlow e.2 == f)).flatMap (fun e => maskBits (e.2.out % 4096)))
  let charge (p : Nat) : Nat := ((s.dv.whole.filter (fun e => e.1 == m && e.2.out.testBit p)).map
    (fun e => (flitCharge e.2.rate).2.2)).sum
  ports.foldl (fun best p => match best with
    | none => some p
    | some b => if charge b < charge p then some p else some b) none

/-- A port of a member is to be shed at the next plan. -/
def markOverload (m : Nat) (p : Option Nat) (s : State) : State :=
  match p with
  | some q => s.modDv (fun d => { d with
      overloaded := d.overloaded.filter (· != (m, q)) ++ [(m, q)], trigger := true })
  | none => s

/-- A FLOW_REPORT reaches the hub or passes a branch. Drops in two consecutive frames are an overflow there (R312). -/
def flowReport (h : FrameHeader) (l : List (Nat × Nat × Nat)) (s : State) : State :=
  if activeHub s then
    match h.src with
    | none => s
    | some m =>
      let lossy := (l.filter (fun x => x.2.2 != 0)).map (·.1)
      let again := lossy.filter (fun f => s.dv.dropSeen.any (fun x => x.1 == m && x.2.1 == f &&
        (x.2.2 + 1) % 4294967296 == s.air.frame))
      let s1 := again.foldl (fun acc f => markOverload m (guiltyPort acc m f) acc) (noteReport m s)
      s1.modDv (fun d => { d with
        dropSeen := d.dropSeen.filter (fun x => x.1 != m) ++ lossy.map (fun f => (m, f, s.air.frame)) })
  else forwardUp ⟨h, .flowReport l⟩ s

def execFlowReport (port : Nat) (h : FrameHeader) (l : List (Nat × Nat × Nat)) (s : State) :
    Host.Outcome State Fault Refusal := .next (let _ := port; flowReport h l s)

/-- The frame's account of one active flow (R311, R312). -/
def flowFrame (s : State) (f : Nat) : State :=
  let d := s.dv.desc.get f
  let run := if d.dropNow = 0 then 0 else d.dropRun + 1
  let clean := d.dropNow == 0 && d.lateNow == 0
  let s1 := modDesc f (fun x => { x with
    dropRun := run, cleanRun := if clean then x.cleanRun + 1 else 0, lateLast := x.lateNow, lateNow := 0, dropNow := 0 }) s
  if 2 ≤ run then
    let s2 := fabricOverflow f s1
    if activeHub s2 then markOverload 0 d.dropPort s2 else s2
  else if run = 0 then endFault 0x83 (flowUnit f) s1 else s1

/-- Charge of a port by this part's own descriptors, in 0.01 % of its limit (PORT_CHARGE). -/
def portCharge (s : State) (p : Nat) : Nat :=
  let limit := (s.fl.ports.get p).lanes.length * laneFlits * s.dv.fillLimit / 100
  let sum := (((activeFlows s).filter (fun x => x.2.place.out.testBit p)).map (fun x => (flitCharge x.2.place.rate).2.2)).sum
  if limit = 0 then 0 else min 65535 (sum * 10000 / limit)

/-- The work of a frame boundary: drops, FLOW_REPORT, clean frames, bindings, repeated PLAN frames (R288, R306, R308, R312). -/
def dvFrame (i : FrameInput) (s : State) : State :=
  let s1 := i.dropped.foldl noteDrop s
  let rep := (activeFlows s1).filterMap (fun p =>
    if p.2.lateNow = 0 ∧ p.2.dropNow = 0 then none else some (p.1, p.2.lateNow % 65536, p.2.dropNow % 65536))
  let s2 := if rep.isEmpty ∨ s1.fl.state ≠ .joined then s1 else sendUp (.flowReport rep) s1
  let s3 := ((activeFlows s2).map (·.1)).foldl flowFrame s2
  let s4 := reportBindings s3
  let s5 := s4.dv.issued.foldl (fun acc p => p.waiting.foldl (fun a m => sendPlan p m a) acc) s4
  s5.modDv (fun d => { d with
    chargeLog := d.chargeLog.modAll (List.range 12) (fun p l => (portCharge s5 p :: l).take 100) })

/-! ## Commands -/

/-- F of the plan that the next computation issues (R305). -/
def nextF (s : State) : Nat :=
  match s.dv.dTFrame, s.dv.joinFrame with
  | some (f, _), _ => f
  | none, some f => f
  | none, none => framesAhead s (1 + s.dv.planLead)

/-- The intent of a DV_INTENT_SET payload. -/
def intentOf (p : List Byte) : Intent :=
  { uplink := u8 p 2 == 1, flow := u16 p 4 * 16 + u8 p 3, homeBp := u8 p 6, protected_ := (u8 p 7).testBit 0
    priority := bits 3 1 (u8 p 7), rate := u32 p 8
    ranges := (List.range (u16 p 12)).map (fun k => (u16 p (16 + 8 * k), u16 p (18 + 8 * k), u8 p (20 + 8 * k))) }

/-- A member is JOINED. -/
def isJoined (s : State) (m : Nat) : Bool :=
  match s.fl.members.get m with
  | some r => r.state == .joined
  | none => false

def specDvIntentSet : CommandSpec where
  opcode := 0x0B01
  role := some .operate
  length := fun q => if q.length = 16 + 8 * u16 q.payload 12 then none else some 12
  states := fun s _ => activeHub s
  checks := fun s q =>
    let p := q.payload
    let i := intentOf p
    let home := u16 p 4
    let r (k : Nat) : Nat × Nat × Nat := i.ranges.getD k (0, 0, 0)
    [field 0 (within 0 1023 (u16 p 0)), field 2 (within 0 1 (u8 p 2)),
     field 3 (within 0 15 (u8 p 3) || (home == 0 && within 0 31 (u8 p 3))),
     field 4 (home == 0 || (within 2 16383 home && isJoined s home)), field 6 (within 0 127 (u8 p 6)),
     field 7 (bits 7 4 (u8 p 7) == 0), field 8 (ladderRate (u32 p 8)), field 12 (within 1 250 (u16 p 12)),
     field 14 (zeros p 14 2)] ++
    (List.range (u16 p 12)).flatMap (fun k =>
      [field (16 + 8 * k) (decide ((r k).1 ≤ (r k).2.1) &&
         (List.range k).all (fun j => decide ((r j).2.1 < (r k).1) || decide ((r k).2.1 < (r j).1))),
       field (20 + 8 * k) (within 0 127 (r k).2.2), field (21 + 8 * k) (zeros p (21 + 8 * k) 3)]) ++
    [need .eBusy (decide (s.dv.issued.length < 8)),
     need .eResource ((s.dv.intents.get (u16 p 0)).isSome ||
       decide ((s.dv.intents.cells.filter (fun x => x.2.isSome)).length < 1024)),
     need .eConflict (s.dv.intents.cells.all (fun x => x.1 == u16 p 0 || (match x.2 with
       | some j => j.flow != i.flow
       | none => true))),
     need .eConflict (homeBound (reportBindings s) i)]
  effect := fun s q =>
    let i := intentOf q.payload
    (s.modDv (fun d => { d with intents := d.intents.set (u16 q.payload 0) (some i), trigger := true }),
      { payload := le 4 i.flow ++ le 4 (nextF s) })

def execDvIntentSet (r : HostRequest) (s : State) : Host.Outcome State Fault Refusal := .next (submit specDvIntentSet r s)

def specDvIntentClear : CommandSpec where
  opcode := 0x0B02
  role := some .operate
  length := fixedLength 4
  states := fun s _ => activeHub s
  checks := fun s q =>
    [field 0 ((s.dv.intents.get (u16 q.payload 0)).isSome), field 2 (zeros q.payload 2 2),
     need .eBusy (decide (s.dv.issued.length < 8))]
  effect := fun s q =>
    (s.modDv (fun d => { d with intents := d.intents.set (u16 q.payload 0) none, trigger := true }),
      { payload := le 4 (nextF s) })

def execDvIntentClear (r : HostRequest) (s : State) : Host.Outcome State Fault Refusal :=
  .next (submit specDvIntentClear r s)

/-- The state with the settings of a DV_POLICY payload, D_T apart. -/
def policySet (s : State) (p : List Byte) : State :=
  s.modDv (fun d => { d with
    auto := u8 p 0 == 0, planLead := u8 p 1, split := u8 p 2 == 1, fillLimit := u8 p 3, margin := u32 p 8
    qualFrames := u32 p 16 })

/-- D_T that a DV_POLICY asks for (R294). -/
def policyTarget (s : State) (p : List Byte) : Nat :=
  if u8 p 0 = 1 then u32 p 4 else autoTarget (u32 p 8) (worstDelay (routeAll (policySet s p) 2949120 []))

def specDvPolicy : CommandSpec where
  opcode := 0x0B03
  role := some .admin
  length := fixedLength 20
  states := fun s _ => activeHub s
  checks := fun s q =>
    let p := q.payload
    let fixed := u8 p 0 == 1
    [field 0 (within 0 1 (u8 p 0)), field 1 (within 2 64 (u8 p 1)), field 2 (within 0 1 (u8 p 2)),
     field 3 (within 50 100 (u8 p 3)),
     field 4 (if fixed then within 245760 2949120 (u32 p 4) && u32 p 4 % 245760 == 0 else u32 p 4 == 0),
     field 8 (within 0 491520 (u32 p 8)), field 12 (u32 p 12 == 0 || decide (u8 p 1 ≤ frameDistance s (u32 p 12))),
     field 16 (within 4 256 (u32 p 16)),
     needD .eConflict 4 (!fixed || decide (s.dv.worstR ≤ u32 p 4))]
  effect := fun s q =>
    let p := q.payload
    let s1 := policySet s p
    let x := policyTarget s p
    if x = s.dv.targetTc then (s1, { payload := le 4 x ++ le 4 0 })
    else
      let f := if u32 p 12 = 0 then frameBoundaryAhead s (u8 p 1) else u32 p 12
      (s1.modDv (fun d => { d with dTFrame := some (f, x), trigger := true }), { payload := le 4 x ++ le 4 f })

def execDvPolicy (r : HostRequest) (s : State) : Host.Outcome State Fault Refusal := .next (submit specDvPolicy r s)

def specDvReplace : CommandSpec where
  opcode := 0x0B04
  role := some .operate
  length := fixedLength 4
  states := fun s _ => activeHub s
  checks := fun s q =>
    [field 0 (within 0 1 (u8 q.payload 0)), field 1 (zeros q.payload 1 3),
     need .eBusy (decide (s.dv.issued.length < 8))]
  effect := fun s q =>
    (s.modDv (fun d => { d with full := d.full || u8 q.payload 0 == 1, trigger := true }), { payload := le 4 (nextF s) })

def execDvReplace (r : HostRequest) (s : State) : Host.Outcome State Fault Refusal := .next (submit specDvReplace r s)

/-- The 64 bytes of a queue descriptor (table *Queue descriptor*). -/
def descriptorBytes (s : State) (f : Nat) : List Byte :=
  let d := s.dv.desc.get f
  let p := d.place
  let next := (s.dv.held.filter (fun x => x.final && x.entries.any (fun e => entryFlow e == f))).head?
  let n := (next.bind (fun x => x.entries.find? (fun e => entryFlow e == f))).getD (emptyEntry 0)
  le 4 (word0Of f { p with service := serviceCode s (flowUnit f) }) ++ le 4 p.rate ++ le 2 p.inn ++ le 2 p.out ++ le 1 p.localBp ++ le 1 p.prio ++
    le 2 0 ++ le 4 p.deadline ++ le 4 d.plan ++ le 4 ((next.map (·.seq)).getD 0) ++ le 4 ((next.map (·.frame)).getD 0) ++
    le 2 n.inn ++ le 2 n.out ++ le 4 n.deadline ++ le 4 d.blocks ++ le 4 d.late ++ le 4 d.gapped ++ le 4 d.dropped ++
    le 4 d.lastTs ++ le 4 0

def specDvFlowQuery : CommandSpec where
  opcode := 0x0B05
  role := some .monitor
  length := fixedLength 4
  checks := fun _ q => [field 0 (within 0 262143 (u32 q.payload 0))]
  effect := fun s q => (s, { payload := descriptorBytes s (u32 q.payload 0) })

def execDvFlowQuery (r : HostRequest) (s : State) : Host.Outcome State Fault Refusal := .next (submit specDvFlowQuery r s)

def specDvFlowControl : CommandSpec where
  opcode := 0x0B06
  role := some .operate
  length := fixedLength 8
  states := fun s q =>
    let f := u32 q.payload 0
    let a := u8 q.payload 4
    !(within 0 3 a && within 0 262143 f) || (if 2 ≤ a then activeHub s else a == 0 || penned s (flowUnit f))
  checks := fun s q =>
    let f := u32 q.payload 0
    [field 0 (within 0 262143 f && (decide (2 ≤ u8 q.payload 4) || (s.dv.desc.get f).place.kind != 0)),
     field 4 (within 0 3 (u8 q.payload 4)), field 5 (zeros q.payload 5 3)]
  effect := fun s q =>
    let f := u32 q.payload 0
    match u8 q.payload 4 with
    | 0 => (refreshGains (penFlow f s), {})
    | 1 => (refreshGains (releaseFlow f s), {})
    | 2 => (s.modDv (fun d => { d with pennedAll := without d.pennedAll f ++ [f], trigger := true }), {})
    | _ => (s.modDv (fun d => { d with pennedAll := without d.pennedAll f, trigger := true }), {})

def execDvFlowControl (r : HostRequest) (s : State) : Host.Outcome State Fault Refusal :=
  .next (submit specDvFlowControl r s)

end Sys2Proof.Machine
end

