-- ==== Sys2Proof/Machine/Capture.lean ====
section
/-! DEFINITION. Memory, captures and archive (R313–R334): HBM extents and their retirement, the capture slots, the capture
image and the NVMe archive. -/

namespace Sys2Proof.Machine

open Sys2Proof

def extentUnit (e : Nat) : UnitId := ⟨.extent, e⟩
def archiveUnit : UnitId := ⟨.archive, 0⟩

/-! ## HBM regions and extents (R313–R316) -/

/-- Regions of the table *HBM regions*; capture extents are 52–767. -/
inductive HbmRegion where
  | system | fabric | cancel | capture
  deriving DecidableEq, Repr

/-- Region of an extent by its place. -/
def regionOfExtent (e : Nat) : HbmRegion :=
  if e < 16 then .system else if e < 48 then .fabric else if e < 52 then .cancel else .capture

/-- The extent whose content a physical extent holds: its own, or the fixed-region extent remapped onto it. -/
def contentOf (m : MemState) (e : Nat) : Nat := ((m.remap.find? (fun p => p.2 == e)).map (·.1)).getD e

/-- The region that an error in an extent affects. -/
def regionAt (m : MemState) (e : Nat) : HbmRegion := regionOfExtent (contentOf m e)

/-- Stack of an extent. -/
def stackOf (e : Nat) : Nat := if e < 384 then 0 else 1

/-- Capture extents in use: held by slots, or the targets of remaps. -/
def extentsUsed (m : MemState) : List Nat :=
  (m.slots.cells.map (fun p => p.2.extents)).flatten ++ m.remap.map (·.2)

/-- Free capture extents, stack 0 first (R314, R316). -/
def freeExtents (m : MemState) : List Nat :=
  ((List.range 716).map (· + 52)).filter (fun e => !(extentsUsed m).contains e && !m.retired.contains e)

/-- Stack 1 holds an extent in use (R314). -/
def stack1Used (m : MemState) : Bool := (extentsUsed m).any (fun e => decide (384 ≤ e))

/-- A stack is powered. -/
def stackPowered (m : MemState) (e : Nat) : Bool := decide (e < 384) || m.stack1

/-- Extents have been released: the 10 s of R314 start when stack 1 holds none. -/
def noteRelease (s : State) : State :=
  if stack1Used s.mem then s else s.modMem (fun m => { m with emptyFrom := now s })

/-- Stack 1 starts to power up where the extents need it (R314). -/
def powerFor (extents : List Nat) (s : State) : State :=
  if extents.any (fun e => decide (384 ≤ e)) ∧ s.mem.stack1 = false ∧ s.mem.powering.isNone then
    s.modMem (fun m => { m with powering := some (now s + tcOfMs 30) })
  else s

/-- A capture slot becomes FREE and its extents return to the pool. -/
def freeSlot (k : Nat) (s : State) : State := noteRelease (modCap k (fun _ => {}) s)

/-! ## Rings, images and bandwidth (R320–R327) -/

/-- Extents of a capture's rings (R322). -/
def ringExtents (i : CapInfo) : Nat := (i.sources.map (fun c => ceilDiv (spanBytes i.band c i.lengthUs) 67108864)).sum

/-- Write bandwidth of a capture's sources, kB/s (R320, R322). -/
def capBandwidth (i : CapInfo) : Nat :=
  (i.sources.map (fun c => if i.band then c.rate * 13 / 2 else if c.egress then c.rate * 4 else c.rate * 3)).sum

/-- A slot is recording, or about to. -/
def recording (c : CapSlot) : Bool := c.state == .armed || c.state == .triggered || c.arming.isSome

/-- Admitted capture write bandwidth, kB/s (CAP_BW). -/
def admittedBandwidth (m : MemState) : Nat :=
  (m.slots.cells.map (fun p => if recording p.2 then capBandwidth p.2.info else 0)).sum

/-- Bytes of each source's data in the image. -/
def sourceBytes (i : CapInfo) (c : CapSource) : Nat := spanBytes i.band c i.heldUs

/-- Size of the image, bytes (R327). -/
def imageSize (i : CapInfo) : Nat := 4096 + (i.sources.map (sourceBytes i)).sum

/-- The source entries of the header, the first one's data at `off` (table *Capture header*). -/
def sourceEntries (i : CapInfo) : Nat → List CapSource → List Byte
  | _, [] => []
  | off, c :: rest =>
    le 1 c.source ++ le 1 (flag c.egress) ++ le 2 0 ++ le 4 c.rate ++ le 4 c.delay ++ le 4 0 ++ le 8 off ++
      le 8 (i.preHeld * c.rate / 1000) ++ sourceEntries i (off + sourceBytes i c) rest

/-- The fields of the capture header (R327); zeros follow up to 4,096 bytes. -/
def imageHeader (i : CapInfo) : List Byte :=
  le 4 0x43415054 ++ le 1 (flag i.band) ++ le 1 i.sources.length ++
    le 2 (flag i.preShort + 2 * flag i.stoppedEarly + 4 * flag i.corrupt + 8 * flag i.restored) ++
    le 4 i.serial ++ le 2 i.trigSources ++ le 2 i.epoch ++ le 4 i.trigAt.frame ++ le 4 i.trigAt.offset ++
    le 8 i.trigMono ++ le 8 i.trigWall ++ le 4 i.lengthUs ++ le 4 i.preHeld ++ sourceEntries i 4096 i.sources

/-- A slot is mapped by the capture window (R328). -/
def slotReadable (c : CapSlot) : Bool :=
  c.state == .complete || c.state == .draining || c.state == .restored || (c.state == .archived && !c.extents.isEmpty)

/-- The data byte of an image at an offset behind its header: that of the source and unit in which it lies, oldest first (R327). A byte
that the recording does not hold is free (log entry 23). -/
def dataByte (i : CapInfo) (off : Nat) : Nat → Nat → List CapSource → Byte
  | _, _, [] => 0
  | k, start, c :: rest =>
    let n := spanUnits i.band c i.heldUs
    let w := unitBytes i.band c
    if off < start + n * w then
      let u := (off - start) / w
      let lost := i.zeroed.any (fun z => decide (z.1 < start + (u + 1) * w) && decide (start + u * w < z.1 + z.2))
      (match unitAt i c (i.data.getD k {}) lost n u with
       | some l => l.getD ((off - start) % w) 0
       | none => Config.captureByte i.content off)
    else dataByte i off (k + 1) (start + n * w) rest

/-- Byte of a slot's image; none beyond its end and where the slot is not mapped (R328). Data bytes that were lost are zero
(R317, R334). -/
def imageByte (c : CapSlot) (off : Nat) : Option Byte :=
  if slotReadable c = false ∨ imageSize c.info ≤ off then none
  else if off < 4096 then some ((imageHeader c.info).getD off 0)
  else if c.info.zeroed.any (fun z => decide (z.1 ≤ off) && decide (off < z.1 + z.2)) then some 0
  else some (dataByte c.info off 0 4096 c.info.sources)

/-! ## Draining (R331, R332) -/

/-- Segments of 1 GiB that an image takes. -/
def segmentsOf (i : CapInfo) : Nat := ceilDiv (imageSize i) 1073741824

/-- Segments without an entry, in rising order. -/
def freeSegments (m : MemState) : List Nat :=
  (List.range m.segments).filter (fun n => !m.index.any (fun e => e.segment == n))

/-- The drain queue: COMPLETE slots with drain set, in order of trigger time (R323). -/
def drainOrder (m : MemState) : List Nat :=
  ((m.slots.cells.filter (fun p => p.2.state == .complete && p.2.drain)).mergeSort
    (fun a b => decide (a.2.info.trigMono ≤ b.2.info.trigMono))).map (·.1)

/-- An archived capture leaves the index. -/
def dropSerial (serial : Nat) (m : MemState) : MemState :=
  { m with index := m.index.filter (fun e => e.serial != serial), archived := m.archived.filter (fun p => p.1 != serial) }

/-- OVERWRITE deletes captures without KEEP, oldest trigger first, until `need` segments are free (R332). -/
def overwriteFor (need : Nat) : Nat → State → State
  | 0, s => s
  | fuel + 1, s =>
    if need ≤ (freeSegments s.mem).length then s
    else
      match ((s.mem.index.filter (fun e => !e.keep)).mergeSort (fun a b => decide (a.trigMono ≤ b.trigMono))).head? with
      | none => s
      | some e =>
        let n := (s.mem.index.filter (fun x => x.serial == e.serial)).length
        overwriteFor need fuel
          (submitLog 0x0C01 (sourceIndex 8 0) [e.serial, n, e.trigMono % 4294967296, e.trigMono / 4294967296]
            (s.modMem (dropSerial e.serial)))

/-- The archive is in use and MOUNTED. -/
def archiveOpen (s : State) : Bool := s.mem.enable && s.mem.mounted && !s.sys.pwrFail

/-- The next capture of the queue starts to drain when the archive is free for it; by R332 when its image does not fit. -/
def pumpDrain (s : State) : State :=
  if archiveOpen s = false ∨ s.mem.draining.isSome then s
  else
    match drainOrder s.mem with
    | [] => s.modMem (fun m => { m with full := false })
    | k :: _ =>
      let need := segmentsOf (s.mem.slots.get k).info
      let s1 := if s.mem.overwrite then overwriteFor need s.mem.index.length s else s
      let free := freeSegments s1.mem
      if need ≤ free.length then
        let serial := s1.mem.serial + 1
        modCap k (fun c => { c with state := .draining, info := { c.info with serial := serial } })
          (s1.modMem (fun m => { m with full := false, serial := serial, draining := some (k, now s, free.take need) }))
      else if s1.mem.full then s1
      else postNotice 0x0C01 k free.length (s1.modMem (fun m => { m with full := true }))

/-- Draining stops: the segments stay free and the capture is COMPLETE (R331). -/
def stopDrain (s : State) : State :=
  match s.mem.draining with
  | some (k, _, _) =>
    modCap k (fun c => { c with state := .complete, info := { c.info with serial := 0 } })
      (s.modMem (fun m => { m with draining := none }))
  | none => s

/-- Tc that draining an image takes at DRAIN_LIMIT (R331). -/
def drainTime (m : MemState) (i : CapInfo) : Nat := imageSize i * tcPerSecond / (m.limit * 100000000)

/-- The index entries of a drained capture, write sequences from `seq`. -/
def entriesFor (serial seq : Nat) (i : CapInfo) (segs : List Nat) : List ArchiveEntry :=
  segs.zipIdx.map (fun (n, part) =>
    { segment := n, seq := seq + part, serial, part, parts := segs.length, trigMono := i.trigMono
      trigWall := i.trigWall, epoch := i.epoch, keep := false })

/-- R331. Both index copies are written: ARCHIVED, and its extents are released unless keep_hbm was set. -/
def drainComplete (s0 : State) : State :=
  match s0.mem.draining with
  | none => s0
  | some (k, start, segs) =>
    let i := (s0.mem.slots.get k).info
    let s := advanceTo (start + drainTime s0.mem i) s0
    let s1 := s.modMem (fun m => { m with
      draining := none, seq := m.seq + segs.length
      index := m.index ++ entriesFor i.serial (m.seq + 1) i segs, archived := m.archived ++ [(i.serial, i)] })
    let s2 := modCap k (fun c => { c with state := .archived, extents := if c.keepHbm then c.extents else [] }) s1
    pumpDrain (noteRelease s2)

def execDrainComplete (s : State) : Host.Outcome State Fault Refusal := .next (drainComplete s)

/-! ## Captures (R322–R325) -/

/-- The sources that a CAP_ARM names. -/
def armSources (s : State) (band egress : Bool) (l : List Nat) : List CapSource :=
  if band then
    l.map (fun n =>
      let d : Dir := if egress then .egress else .ingress
      match bandPath s d n with
      | some b => { source := n, egress, rate := rateKsps b.params.stages, delay := groupDelay d b.params }
      | none => { source := n, egress, rate := 0, delay := 0 })
  else l.map (fun c => { source := c, egress := decide (8 ≤ c), rate := 2949120, delay := 0 })

/-- The slot that a CAP_ARM describes, before it has its extents. -/
def armedSlot (s : State) (p : List Byte) : CapSlot :=
  let fl := u8 p 3
  let band := u8 p 1 == 1
  let egress := fl.testBit 2
  let d : Dir := if egress then .egress else .ingress
  let c : CapSlot := {
    info := { band, lengthUs := u32 p 4, preUs := u32 p 8, sources := armSources s band egress (mask128 p 12) }
    triggers := u8 p 2, drain := fl.testBit 0, keepHbm := fl.testBit 1, egress, at_ := ⟨u32 p 28, u32 p 32⟩
    classes := [u8 p 36, u8 p 37, u8 p 38, u8 p 39].filter (· != 0), severity := u8 p 40, levelBp := u8 p 41
    levelMode := u8 p 42, site := u8 p 43, threshold := s32 p 44, oscMask := uN p 48 16 }
  { c with levelWas := ((bandPath s d c.levelBp).bind (fun b => levelHolds c b.detMean b.detPeak)).getD false }

/-- The slot starts to record (R323). -/
def startArmed (k : Nat) (s : State) : State := modCap k (fun c => { c with state := .armed, armedAt := now s, arming := none }) s

/-- CAP_ARM (0x0C01). -/
def specCapArm : CommandSpec where
  opcode := 0x0C01
  role := some .operate
  length := fixedLength 64
  checks := fun s q =>
    let p := q.payload
    let c := armedSlot s p
    let n := c.info.sources.length
    let d : Dir := if c.egress then .egress else .ingress
    [field 0 (decide (u8 p 0 < 16) && (s.mem.slots.get (u8 p 0)).state == .free && (s.mem.slots.get (u8 p 0)).arming.isNone &&
       !s.mem.restores.any (fun r => r.2.1 == u8 p 0)),
     field 1 (within 0 1 (u8 p 1)), field 2 (within 1 63 (u8 p 2)), field 3 (within 0 7 (u8 p 3)),
     field 4 (within 1 10000000 (u32 p 4)), field 8 (within 0 (u32 p 4) (u32 p 8)),
     field 12 (if c.info.band then within 1 16 n else within 1 8 n && decide (uN p 12 16 < 65536)),
     field 28 (!(u8 p 2).testBit 1 || (decide (122880 ≤ airAhead s.air c.at_) && decide (c.at_.offset < tcPerFrame))),
     field 36 (c.classes.all (fun x => (classRow x).isSome)), field 40 (within 0 4 c.severity),
     field 41 (decide (c.levelBp < 128) && (bandPath s d c.levelBp).isSome), field 42 (within 0 2 c.levelMode),
     field 43 (within 0 31 c.site), field 44 (withinI (-15000) 3000 c.threshold),
     need .eResource (decide (ringExtents c.info ≤ (freeExtents s.mem).length)),
     need .eResource (decide (admittedBandwidth s.mem + capBandwidth c.info ≤ 160000000)),
     need .eConflict (c.info.sources.all (fun x =>
       if c.info.band then (bandPath s d x.source).isSome else (s.rf.chains.get x.source).fe != .off))]
  effect := fun s q =>
    let c := armedSlot s q.payload
    let k := u8 q.payload 0
    let ext := (freeExtents s.mem).take (ringExtents c.info)
    let t := ticketOf q
    let s1 := modCap k (fun _ => { c with extents := ext, arming := some t }) s
    if ext.any (fun e => decide (384 ≤ e)) ∧ s.mem.stack1 = false then (powerFor ext s1, { status := .accepted })
    else (complete t .ok 0 (startArmed k s1), { status := .accepted })

def execCapArm (r : HostRequest) (s : State) : Host.Outcome State Fault Refusal := .next (submit specCapArm r s)

/-- CAP_TRIGGER (0x0C02). -/
def specCapTrigger : CommandSpec where
  opcode := 0x0C02
  role := some .operate
  length := fixedLength 4
  checks := fun _ q => [field 2 (zeros q.payload 2 2)]
  effect := fun s q =>
    ((maskBits (u16 q.payload 0)).foldl (fun acc k => fireSlot k trigHost (now acc) acc) s, {})

def execCapTrigger (r : HostRequest) (s : State) : Host.Outcome State Fault Refusal := .next (submit specCapTrigger r s)

/-- Recording stops: the capture is frozen, and drains in its turn (R323). -/
def stopCapture (k : Nat) (early : Bool) (s : State) : State :=
  let c := s.mem.slots.get k
  let n := (draw s).1
  let i := c.info
  let post := i.lengthUs - i.preUs
  let onTime := !early && decide (c.stopAt = i.trigMono + tcOfUs post)
  let held := if onTime then i.preHeld + post else min i.lengthUs (i.preHeld + usBetween i.trigMono (now s))
  pumpDrain (modCap k (fun x => { x with
    state := .complete, stopAt := min x.stopAt (now s), info := { x.info with stoppedEarly := early, heldUs := held, content := n } })
    (draw s).2)

/-- An action of CAP_CONTROL is allowed in a slot's state (R323); a DRAINING slot answers E_BUSY to a stop or release. -/
def controlAllowed (c : CapSlot) (action : Nat) : Bool :=
  if action = 0 then c.state == .armed || c.state == .triggered
  else if action = 1 then c.state == .triggered || c.state == .draining
  else if action = 2 then c.state == .complete || c.state == .archived || c.state == .restored || c.state == .draining
  else c.state == .complete

/-- CAP_CONTROL (0x0C03). -/
def specCapControl : CommandSpec where
  opcode := 0x0C03
  role := some .operate
  length := fixedLength 4
  states := fun s q =>
    let k := u8 q.payload 0
    let a := u8 q.payload 1
    decide (15 < k) || decide (3 < a) || controlAllowed (s.mem.slots.get k) a
  checks := fun s q =>
    [field 0 (within 0 15 (u8 q.payload 0)), field 1 (within 0 3 (u8 q.payload 1)), field 2 (zeros q.payload 2 2),
     need .eBusy ((s.mem.slots.get (u8 q.payload 0)).state != .draining)]
  effect := fun s q =>
    let k := u8 q.payload 0
    let a := u8 q.payload 1
    (if a = 1 then stopCapture k true s
     else if a = 3 then pumpDrain (modCap k (fun c => { c with drain := true }) s)
     else freeSlot k s, {})

def execCapControl (r : HostRequest) (s : State) : Host.Outcome State Fault Refusal := .next (submit specCapControl r s)

/-- R324. The named instant of an armed slot arrives. -/
def captureAtInstant (slot : Nat) (s : State) : State :=
  let c := s.mem.slots.get slot
  if slot < 16 ∧ c.state = .armed ∧ c.triggers.testBit trigAt then
    let s1 := advanceToAir c.at_ s
    fireSlot slot trigAt (now s1) s1
  else s

def execCaptureAtInstant (slot : Nat) (s : State) : Host.Outcome State Fault Refusal := .next (captureAtInstant slot s)

/-- R323. Every source has recorded up to the stop instant. -/
def captureStop (slot : Nat) (s : State) : State :=
  let c := s.mem.slots.get slot
  if slot < 16 ∧ c.state = .triggered then stopCapture slot false (advanceTo c.stopAt s) else s

def execCaptureStop (slot : Nat) (s : State) : Host.Outcome State Fault Refusal := .next (captureStop slot s)

/-! ## Stack 1 (R314) -/

/-- Stack 1 has powered up: the captures that waited for it are ARMED. -/
def stackPowerUpComplete (s : State) : State :=
  match s.mem.powering with
  | none => s
  | some _ =>
    let s1 := s.modMem (fun m => { m with powering := none, stack1 := true, emptyFrom := now s })
    (List.range 16).foldl (fun acc k => match (acc.mem.slots.get k).arming with
      | some t => complete t .ok 0 (startArmed k acc)
      | none => acc) s1

def execStackPowerUpComplete (s : State) : Host.Outcome State Fault Refusal := .next (stackPowerUpComplete s)

/-- Stack 1 has held no extent in use for 10 s. -/
def stackPowerDown (s : State) : State :=
  if s.mem.stack1 ∧ stack1Used s.mem = false then
    (advanceTo (s.mem.emptyFrom + tcOfS 10) s).modMem (fun m => { m with stack1 := false })
  else s

def execStackPowerDown (s : State) : Host.Outcome State Fault Refusal := .next (stackPowerDown s)

/-! ## Memory errors (R315–R317) -/

/-- An extent is retired: listed in boot flash; one that holds fixed-region content waits to be remapped (R316). -/
def retireExtent (e : Nat) (s : State) : State :=
  if s.mem.retired.contains e then s
  else s.modMem (fun m =>
    let l := contentOf m e
    { m with
      retired := m.retired ++ [e], retiredStored := if m.retiredStored.contains e then m.retiredStored else m.retiredStored ++ [e]
      remapDue := if l < 52 ∧ !m.remapDue.contains l then m.remapDue ++ [l] else m.remapDue })

/-- One corrected error in an extent (R315, R316). -/
def correctedError (s : State) (e : Nat) : State :=
  if e < 768 ∧ stackPowered s.mem e then
    let t := now s
    let day := t :: (s.mem.extents.get e).errors.filter (fun x => decide (t < x + tcOfS 86400))
    let hour := t :: (s.mem.hour.get (stackOf e)).filter (fun x => decide (t < x + tcOfS 3600))
    let burst := decide (1024 ≤ hour.length)
    let s1 := s.modMem (fun m => { m with
      extents := m.extents.set e { errors := day }
      corrected := m.corrected.mod (stackOf e) (satInc 32)
      hour := m.hour.set (stackOf e) (if burst then [] else hour) })
    let s2 := if 16 ≤ day.length then retireExtent e s1 else s1
    if burst then raiseMoment { cls := 0x90, unit := extentUnit e, detail4 := stackOf e } s2 else s2
  else s

def execHbmCorrectedError (extent : Nat) (s : State) : Host.Outcome State Fault Refusal := .next (correctedError s extent)

/-- R315. A pass of the patrol scrub: corrected errors by extent. -/
def patrolScrub (errors : List Nat) (s : State) : State := errors.foldl correctedError s

def execPatrolScrub (errors : List Nat) (s : State) : Host.Outcome State Fault Refusal := .next (patrolScrub errors s)

/-- The raise of an uncorrectable error: FENCE on a unit (R317, R371). -/
def hbmFault (u : UnitId) (e : Nat) (s : State) : State :=
  raiseMoment { cls := 0x90, unit := u, fixed := some 3, detail4 := e } s

/-- The part as a unit that can be fenced as a member (R317). -/
def selfMember (s : State) : UnitId := memberUnit (s.fl.memberId.getD 0)

/-- The blocks of an alignment buffer that an error reaches, from a place on, become GAPPED (R296, R317). -/
def gapBuffer (chunk : Nat × Nat) (l : List (Nat × Block)) : List (Nat × Block) :=
  l.mapIdx (fun k p =>
    if chunk.1 ≤ k ∧ k < chunk.1 + chunk.2 then (p.1, { p.2 with valid := false, gapped := true, samples := [] }) else p)

/-- The reference samples that an error reaches become zero (R317). -/
def zeroRef (chunk : Nat × Nat) (c : Canceller) : Canceller :=
  { c with ref := c.ref.mapIdx (fun k x => if chunk.1 ≤ k ∧ k < chunk.1 + chunk.2 then ((0, 0), x.2) else x) }

/-- R317. An uncorrectable error in an extent: what it holds decides the effect (table *Uncorrectable errors*). `flow` is
the active flow and `inst` the canceller instance whose data lie there; `chunk` is the offset and length in the image of
the chunk or block record that is lost. An inactive descriptor is reset and nothing further is raised (R290). -/
def hbmUncorrectable (e : Nat) (flow inst : Option Nat) (chunk : Nat × Nat) (s : State) : State :=
  if e < 768 ∧ stackPowered s.mem e then
    let s1 := retireExtent e (s.modMem (fun m => { m with uncorrectable := m.uncorrectable.mod (stackOf e) (satInc 32) }))
    match regionAt s.mem e with
    | .system => hbmFault (selfMember s) e s1
    | .fabric =>
      (match flow with
       | some f => if (s.dv.desc.get f).cached then
           hbmFault (flowUnit f) e (modDesc f (fun d => { d with buffer := gapBuffer chunk d.buffer }) s1)
         else s1.modDv (fun d => { d with desc := d.desc.set f {} })
       | none => s1)
    | .cancel =>
      (match inst with
       | some k =>
         let ib := (s.lg.canc.get k).ib
         hbmFault (ibUnit ib) e (s1.modLg (fun g => { g with canc := g.canc.mod k (fun c => coldStart (zeroRef chunk c)) }))
       | none => s1)
    | .capture =>
      hbmFault (extentUnit e) e (s1.modMem (fun m => { m with
        slots := { m.slots with cells := m.slots.cells.map (fun p =>
          if p.2.extents.contains e then
            (p.1, { p.2 with info := { p.2.info with corrupt := true, zeroed := p.2.info.zeroed ++ [chunk] } })
          else p) } }))
  else s

def execHbmUncorrectable (extent : Nat) (flow inst : Option Nat) (chunk : Nat × Nat) (s : State) :
    Host.Outcome State Fault Refusal := .next (hbmUncorrectable extent flow inst chunk s)

/-- One retiring fixed-region extent takes a free capture extent; without one it stays in use (R316). -/
def remapOne (s : State) (l : Nat) : State :=
  match (freeExtents s.mem).head? with
  | some e =>
    powerFor [e] (s.modMem (fun m => { m with
      remap := m.remap.filter (fun p => p.1 != l) ++ [(l, e)], remapDue := without m.remapDue l }))
  | none => s

/-- R316. At the next frame boundary retiring extents of fixed regions are remapped, content and all. -/
def extentRemap (s : State) : State :=
  if s.mem.remapDue.isEmpty then s
  else
    let s1 := advanceToAir ⟨framesAhead s 1, 0⟩ s
    let s2 := s1.mem.remapDue.foldl remapOne s1
    s2.modMem (fun m => { m with pendingRetire := !m.remapDue.isEmpty })

def execExtentRemap (s : State) : Host.Outcome State Fault Refusal := .next (extentRemap s)

/-- MEM_RETIRE_CLEAR (0x0C20): the list in flash is emptied; the retirements in force last until power-on reset. -/
def specMemRetireClear : CommandSpec where
  opcode := 0x0C20
  role := some .admin
  length := fixedLength 0
  effect := fun s _ => (s.modMem (fun m => { m with retiredStored := [] }), {})

def execMemRetireClear (r : HostRequest) (s : State) : Host.Outcome State Fault Refusal :=
  .next (submit specMemRetireClear r s)

/-! ## The archive (R329–R334) -/

/-- Status with which an operation fails (log entry 24). -/
def archiveStatus (why : ArchiveFail) : Status :=
  match why with
  | .timeout => .eTimeout
  | .dataCrc => .eIntegrity
  | .index => .eIntegrity
  | .command => .eNotReady
  | .link => .eNotReady

/-- R333. ARCHIVE_FAULT: OFFLINE. Draining stops, restores and operations in progress fail, captures stay in HBM. -/
def archiveFault (why : ArchiveFail) (s : State) : State :=
  if s.mem.enable then
    let s1 := raiseLevel { cls := 0x91, unit := archiveUnit } (stopDrain s)
    let st := archiveStatus why
    let s2 := s1.mem.restores.foldl (fun acc r => complete r.2.2 st 0 (freeSlot r.2.1 acc)) s1
    let s3 := s1.mem.ops.foldl (fun acc o => complete o.ticket st 0 acc) s2
    s3.modMem (fun m => { m with mounted := false, restores := [], ops := [] })
  else s

def execArchiveFault (why : ArchiveFail) (s : State) : Host.Outcome State Fault Refusal := .next (archiveFault why s)

/-- AR_CONFIG (0x0C10). -/
def specArConfig : CommandSpec where
  opcode := 0x0C10
  role := some .admin
  length := fixedLength 4
  checks := fun _ q =>
    [field 0 (within 0 1 (u8 q.payload 0)), field 1 (within 0 1 (u8 q.payload 1)), field 2 (within 1 70 (u16 q.payload 2))]
  effect := fun s q =>
    let on := u8 q.payload 0 == 1
    let s1 := s.modMem (fun m => { m with enable := on, overwrite := u8 q.payload 1 == 1, limit := u16 q.payload 2 })
    (if on then pumpDrain s1
     else endFault 0x91 archiveUnit ((stopDrain s1).modMem (fun m => { m with mounted := false, full := false })), {})

def execArConfig (r : HostRequest) (s : State) : Host.Outcome State Fault Refusal := .next (submit specArConfig r s)

/-- AR_CONTROL (0x0C11). -/
def specArControl : CommandSpec where
  opcode := 0x0C11
  role := some .admin
  length := fixedLength 8
  states := fun s q =>
    let a := u8 q.payload 0
    decide (5 < a) || (s.mem.enable && (a == 0 || a == 2 || s.mem.mounted))
  checks := fun s q =>
    let a := u8 q.payload 0
    [field 0 (within 0 5 a), field 1 (zeros q.payload 1 3),
     field 4 (decide (a < 3) || s.mem.index.any (fun e => e.serial == u32 q.payload 4)),
     need .eBusy (!(a == 1 || a == 2 || a == 3) || (s.mem.draining.isNone && s.mem.restores.isEmpty))]
  effect := fun s q =>
    (s.modMem (fun m => { m with ops := m.ops ++ [⟨u8 q.payload 0, u32 q.payload 4, ticketOf q⟩] }), { status := .accepted })

def execArControl (r : HostRequest) (s : State) : Host.Outcome State Fault Refusal := .next (submit specArControl r s)

/-- Segments of a namespace of at most 8 TiB (R329, R330). -/
def namespaceSegments (bytes : Nat) : Nat := (min bytes 8796093022208 - 2097152) / 1073741824

/-- A namespace that R329 allows. -/
def namespaceOk (d : ArchiveDevice) : Bool := decide (68719476736 ≤ d.bytes) && (d.block == 512 || d.block == 4096)

/-- The index copy used at mount: the one valid in more entries, copy A on a tie; none when neither is readable (R330). -/
def mountIndex (d : ArchiveDevice) : Option (List ArchiveEntry) :=
  match d.copyA, d.copyB with
  | some a, some b => some (if a.length < b.length then b else a)
  | some a, none => some a
  | none, some b => some b
  | none, none => none

/-- The device's geometry and link as the part has found them. -/
def noteDevice (d : ArchiveDevice) (m : MemState) : MemState :=
  { m with segments := namespaceSegments d.bytes, linkGen := d.gen, linkWidth := d.width }

/-- KEEP of a serial is set or cleared in its index entries. -/
def setKeep (serial : Nat) (keep : Bool) (m : MemState) : MemState :=
  { m with index := m.index.map (fun e => if e.serial = serial then { e with keep := keep } else e) }

/-- R330, R333. The oldest archive operation ends. -/
def arControlComplete (d : ArchiveDevice) (s : State) : State :=
  match s.mem.ops with
  | [] => s
  | o :: rest =>
    let done := fun (x : State) =>
      pumpDrain (complete o.ticket .ok 0 (x.modMem (fun m => { m with ops := rest })))
    if o.action = 0 then
      (match namespaceOk d, mountIndex d with
       | true, some idx =>
         let top := idx.foldl (fun a e => max a e.serial) 0
         let seq := idx.foldl (fun a e => max a e.seq) 0
         done (endFault 0x91 archiveUnit (s.modMem (fun m => { noteDevice d m with
           mounted := true, index := idx, serial := max m.serial top, seq := max m.seq seq
           archived := m.archived.filter (fun p => idx.any (fun e => e.serial == p.1)) ++
             d.images.filter (fun p => !m.archived.any (fun q => q.1 == p.1)) })))
       | true, none => archiveFault .index s
       | false, _ => archiveFault .command s)
    else if o.action = 1 then done (s.modMem (fun m => { m with mounted := false }))
    else if o.action = 2 then
      if namespaceOk d then done (s.modMem (fun m => { noteDevice d m with index := [], archived := [] }))
      else archiveFault .command s
    else if o.action = 3 then done (s.modMem (dropSerial o.serial))
    else done (s.modMem (setKeep o.serial (o.action == 4)))

def execArControlComplete (d : ArchiveDevice) (s : State) : Host.Outcome State Fault Refusal := .next (arControlComplete d s)

/-- What an archived capture is: as the part or the mounted device knows it, else what its index entry says. -/
def archivedInfo (m : MemState) (serial : Nat) : CapInfo :=
  match m.archived.find? (fun p => p.1 == serial) with
  | some p => p.2
  | none =>
    match m.index.find? (fun e => e.serial == serial) with
    | some e => { serial, trigMono := e.trigMono, trigWall := e.trigWall, epoch := e.epoch }
    | none => { serial }

/-- Extents that a restored image takes: as many as its rings (R322). -/
def restoreExtents (m : MemState) (serial : Nat) : Nat := ringExtents (archivedInfo m serial)

/-- AR_RESTORE (0x0C12). -/
def specArRestore : CommandSpec where
  opcode := 0x0C12
  role := some .operate
  length := fixedLength 8
  states := fun s q =>
    let k := u8 q.payload 4
    decide (15 < k) ||
      ((s.mem.slots.get k).state == .free && (s.mem.slots.get k).arming.isNone &&
        !s.mem.restores.any (fun r => r.2.1 == k) && s.mem.enable && s.mem.mounted)
  checks := fun s q =>
    [field 0 (s.mem.index.any (fun e => e.serial == u32 q.payload 0)), field 4 (within 0 15 (u8 q.payload 4)),
     field 5 (zeros q.payload 5 3),
     need .eResource (decide (restoreExtents s.mem (u32 q.payload 0) ≤ (freeExtents s.mem).length))]
  effect := fun s q =>
    let serial := u32 q.payload 0
    let ext := (freeExtents s.mem).take (restoreExtents s.mem serial)
    let s1 := modCap (u8 q.payload 4) (fun c => { c with extents := ext }) s
    (powerFor ext (s1.modMem (fun m => { m with restores := m.restores ++ [(serial, u8 q.payload 4, ticketOf q)] })),
     { status := .accepted })

def execArRestore (r : HostRequest) (s : State) : Host.Outcome State Fault Refusal := .next (submit specArRestore r s)

/-- R334. The oldest restore ends; the listed parts failed their CRC and read as zeros, which is a data CRC failure of
R333 as well. -/
def restoreComplete (corrupt : List Nat) (s : State) : State :=
  match s.mem.restores with
  | [] => s
  | (serial, k, t) :: rest =>
    if (s.mem.slots.get k).extents.any (fun e => !stackPowered s.mem e) then s
    else
      let i := archivedInfo s.mem serial
      let s1 := modCap k (fun c => { c with
        state := .restored
        info := { i with
          restored := true, serial := serial, corrupt := i.corrupt || !corrupt.isEmpty
          zeroed := i.zeroed ++ corrupt.map (fun n => (n * 1073741824, 1073741824)) } })
        (s.modMem (fun m => { m with restores := rest }))
      let s2 := complete t .ok 0 s1
      if corrupt.isEmpty then s2 else archiveFault .dataCrc s2

def execRestoreComplete (corrupt : List Nat) (s : State) : Host.Outcome State Fault Refusal :=
  .next (restoreComplete corrupt s)

end Sys2Proof.Machine
end

