-- ==== Sys2Proof/Machine/Reset.lean ====
section
/-! DEFINITION. Resets and boot (R440–R451, R457): what each reset keeps, the boot stages, READY, firmware trial, warm and
watchdog resets, and unit resets. -/

namespace Sys2Proof.Machine

open Sys2Proof

/-- The source index of this chapter's records (R511). -/
abbrev mgmtSource : Nat := 10 * 4096

/-! ## Retention (R457) -/

/-- The reset keeps what only a warm or a watchdog reset keeps. -/
def ResetKind.warmLike : ResetKind → Bool
  | .warm | .watchdog => true
  | _ => false

/-- The reset keeps HALT state and Logbook mode. -/
def ResetKind.keepsHalt : ResetKind → Bool
  | .warm | .watchdog | .dormantWake => true
  | _ => false

/-- Air time after a reset: the air-time base reads AT 0:0; monotonic and wall time run on except over power-on reset. -/
def airAfter (k : ResetKind) (a : AirState) : AirState :=
  if k = .powerOn then {}
  else { mono := a.mono, wallAcc := a.wallAcc, wallSet := a.wallSet, wallSlew := a.wallSlew, handles := a.handles
         lastTick := a.mono, refGoodFrom := a.mono }

/-- The host interface after a reset: sessions are closed, rings and registers at their reset values, stored configuration in
force. Session identifiers already given are not given again before power-on reset (R429). -/
def hostAfter (k : ResetKind) (y : SysState) (h : HostState) : HostState :=
  { config := y.storedHost, net := y.storedNet, site := y.storedSite, sitePins := h.sitePins, out := h.out
    usedSessions := if k = .powerOn then [] else h.usedSessions }

/-- The collector after a reset. -/
def faultAfter (k : ResetKind) (f : FaultState) : FaultState :=
  { halt := if k.keepsHalt then f.halt else none
    handles := if k = .powerOn then 0 else f.handles
    firstFault := if k = .powerOn then none else f.firstFault
    companions := if k = .powerOn then [] else f.companions }

/-- The Logbook after a reset: after power-on the banks are empty, and sequence numbers and epoch continue from the highest in
the flash mirror (R410). Operations in progress end with the reset. -/
def logAfter (k : ResetKind) (l : LogState) : LogState :=
  if k = .powerOn then
    { mirror := l.mirror, modeBefore := l.ig, switches := 0
      head := l.mirror.foldl (fun m r => max m r.seq) 0, epoch := l.mirror.foldl (fun m r => max m r.epoch) 0 }
  else
    { l with
      modeBefore := l.ig, submissions := [], clearing := none, mediaReset := [], verifying := [], mediaWait := false
      corrected := 0, flashFails := 0, switches := 0
      ig := l.ig && k.keepsHalt
      igLimit := if k.keepsHalt then l.igLimit else 4
      igWindow := if k.keepsHalt then l.igWindow else 10000
      igCodes := if k.keepsHalt then l.igCodes else Bank.fill {} }

/-- The RF complex after a reset: calibration results survive warm and watchdog resets (R76). -/
def rfAfter (k : ResetKind) (r : RfState) : RfState :=
  if k.warmLike then
    { chains := { dflt := {}, cells := r.chains.cells.map (fun p => (p.1, { tCal := p.2.tCal, front := p.2.front })) } }
  else {}

/-- The channel engine after a reset: DPD coefficient sets survive warm and watchdog resets. -/
def ceAfter (k : ResetKind) (c : CeState) : CeState :=
  if k.warmLike then { dpd := { dflt := {}, cells := c.dpd.cells.map (fun p => (p.1, { sets := p.2.sets, model := p.2.model, setTemp := p.2.setTemp, check := true })) } } else {}

/-- Housekeeping after a reset: system calibrations are in boot flash (R246). -/
def hkAfter (t : Nat) (y : SysState) (h : HkState) : HkState :=
  { cal := h.cal, slotStart := t, tShut := if y.gradeX then 12300 else 11500 }

/-- The power stage after a reset: the life copies are in the cassettes (R231). -/
def psAfter (p : PsState) : PsState :=
  { cassettes := { dflt := {}, cells := p.cassettes.cells.map (fun x =>
      (x.1, { copyA := x.2.copyA, copyB := x.2.copyB, lifeB := x.2.lifeB })) } }

/-- The default function of a port (R261). -/
def defaultFunction (r : PartRole) (p : Nat) : PortFunction :=
  match r with
  | .hub => if p = 11 then .mirror else .down
  | .remote => if p < 2 then .ring else .down
  | _ => .off

/-- The fabric after a reset: port functions from boot flash or the defaults of the role; the held member ID is lost only at
power-on (R277). -/
def flAfter (k : ResetKind) (r : PartRole) (f : FlState) : FlState :=
  { storedPorts := f.storedPorts, config := f.config, heldId := if k = .powerOn then none else f.heldId
    ports := { dflt := {}, cells := (List.range 12).map (fun p =>
      (p, { config := (f.storedPorts.get p).getD { function := defaultFunction r p } })) } }

/-- A capture slot after a warm or watchdog reset: arming is cleared, finished captures stay (R319). -/
def slotAfter (c : CapSlot) : CapSlot :=
  match c.state with
  | .complete | .restored => c
  | .draining => { c with state := .complete }
  | _ => {}

/-- Memory after a reset (R316, R319). -/
def memAfter (k : ResetKind) (m : MemState) : MemState :=
  let retired := if k = .powerOn then m.retiredStored else m.retired
  if k.warmLike then
    let slots : Bank CapSlot := { dflt := {}, cells := m.slots.cells.map (fun p => (p.1, slotAfter p.2)) }
    { slots := slots, extents := m.extents, hour := m.hour, retiredStored := m.retiredStored, retired := retired, remap := m.remap
      remapDue := m.remapDue, pendingRetire := m.pendingRetire
      stack1 := m.stack1, emptyFrom := m.emptyFrom }
  else { retiredStored := m.retiredStored, retired := retired, remap := m.remap.filter (fun p => retired.contains p.1) }

/-- The Bell link after a reset: OFF, its configuration in boot flash, and keeper counters at least 64 above the stored ones
(R358). -/
def bellAfter (b : BellState) : BellState :=
  { configured := b.configured, config := b.config, chain := b.chain
    keys := b.keys.map (fun x => { x with counter := x.stored + 64, since := 0 }) }

/-- The pair after a reset: the stored configuration applies (R468). -/
def pairAfter (p : PairState) : PairState := { stored := p.stored, config := p.stored, term := p.term }

/-- Start-up and security after a reset. -/
def sysAfter (k : ResetKind) (t : Nat) (y : SysState) : SysState :=
  let c (n : Nat) : Nat := if k = .powerOn then 0 else n
  { bootStraps := y.bootStraps, roleStraps := y.roleStraps, testMode := y.testMode, pwrEn := !y.testMode, strapReserved := y.bootStraps == 0b11
    role := y.storedRole.getD (roleOfStraps y.roleStraps), storedRole := y.storedRole
    imageA := y.imageA, imageB := y.imageB, imageHost := y.imageHost, fwBytes := y.fwBytes
    preferred := y.preferred, trialSlot := y.trialSlot, resetKind := k, lastReset := t
    warmResets := c y.warmResets + (if k = .warm then 1 else 0)
    wdtResets := c y.wdtResets + (if k = .watchdog then 1 else 0)
    unitResets := c y.unitResets
    wakes := c y.wakes + (if k = .dormantWake then 1 else 0)
    wake := if k = .powerOn then {} else y.wake
    powerFigures := y.powerFigures, gradeX := y.gradeX, lifecycle := y.lifecycle
    debugFails := y.debugFails, debugLocked := y.debugLocked, debugFailCount := c y.debugFailCount
    keys := { y.keys with locked := false }
    zeroising := y.zeroising.map (fun z => (z.1, none))
    pwrFail := y.pwrFail, pwrFailCount := c y.pwrFailCount
    storedHost := y.storedHost, storedNet := y.storedNet, storedSite := y.storedSite }

/-- A debug session that is open closes, with its record (R459). -/
def closeDebug (s : State) : State :=
  if s.sys.debug = .closed then s
  else submitLog 0x1005 mgmtSource [(s.sys.debug).code, 0] (s.modSys (fun y => { y with debug := .closed, coreHalted := false }))

/-- A reset of kind `k` is applied at the present instant (R448, R457). -/
def resetTo (k : ResetKind) (s : State) : State :=
  let t := if k = .powerOn then 0 else now s
  let y := sysAfter k t s.sys
  let s1 : State :=
    { air := airAfter k s.air, host := hostAfter k y s.host, fault := faultAfter k s.fault, log := logAfter k s.log, sys := y
      rf := rfAfter k s.rf, ce := ceAfter k s.ce, hk := hkAfter t y s.hk, ps := psAfter s.ps, fl := flAfter k y.role s.fl
      mem := memAfter k s.mem, bell := bellAfter s.bell, pair := pairAfter s.pair, wire := s.wire, pending := s.pending
      drawn := s.drawn }
  if s.sys.debug = .closed then s1 else submitLog 0x1005 mgmtSource [(s.sys.debug).code, 0] s1

/-- The straps and the TEST_MODE pin are sampled (R3, R440, R497). -/
def sampleStraps (role boot : BitVec 2) (test : Bool) (s : State) : State :=
  s.modSys (fun y => { y with roleStraps := role, bootStraps := boot, testMode := test })

/-- The always-on supply has entered its window, and every rail and REFCLK are up: power-on reset ends (R489, R494). -/
def powerOnReset (role boot : BitVec 2) (test : Bool) (s : State) : State :=
  refreshFaultN (resetTo .powerOn (sampleStraps role boot test s))

def execPowerOnReset (role : BitVec 2) (boot : BootPins) (s : State) : Host.Outcome State Fault Refusal :=
  .next (powerOnReset role boot.boot boot.test s)

/-- RESET_N rises after at least 1 µs (R3, R448). -/
def resetN (role boot : BitVec 2) (test : Bool) (s : State) : State :=
  refreshFaultN (resetTo .resetN (sampleStraps role boot test s))

def execResetN (role : BitVec 2) (boot : BootPins) (s : State) : Host.Outcome State Fault Refusal :=
  .next (resetN role boot.boot boot.test s)

/-! ## Images (R440–R443) -/

/-- The image in a slot. -/
def imageOf (y : SysState) : SlotSel → Option Image
  | .slotA => y.imageA
  | .slotB => y.imageB

/-- The other slot. -/
def otherSlot : SlotSel → SlotSel
  | .slotA => .slotB
  | .slotB => .slotA

/-- The ROM accepts an image (R442). -/
def imageAccepted (k : KeyStore) (i : Image) : Bool :=
  ((List.range 4).any (fun n => !k.revoked.getLsbD n && k.roots[n]? == some (Config.sha384 i.publicKey))) &&
    Config.ecdsaP384 i.publicKey i.body i.signature && decide (k.counter ≤ i.counter)

/-- The image of a slot, if the ROM accepts it. -/
def slotImage (y : SysState) (k : SlotSel) : Option Image := (imageOf y k).filter (imageAccepted y.keys)

/-- The slot the ROM prefers, and the other one; a slot that is not the preferred one never runs on trial. -/
def bootSlot (y : SysState) : Option (SlotSel × Image) :=
  match slotImage y y.preferred with
  | some i => some (y.preferred, i)
  | none => (slotImage y (otherSlot y.preferred)).map (fun i => (otherSlot y.preferred, i))

/-- The image that runs: its slot (none for the host image device) and itself, by the BOOT straps (table *Boot straps*). -/
def bootImage (y : SysState) : Option (Option SlotSel × Image) :=
  let host := (y.imageHost.filter (imageAccepted y.keys)).map (fun i => ((none : Option SlotSel), i))
  let flash := (bootSlot y).map (fun p => (some p.1, p.2))
  if y.bootStraps = 0b01 then host
  else if y.bootStraps = 0b10 then (match flash with
    | some x => some x
    | none => host)
  else flash

/-- Image load and verification end (R442, R444). -/
def loadImage (s : State) : State :=
  match bootImage s.sys with
  | none => s.modSys (fun y => { y with stage := 7 })
  | some (some k, i) => s.modSys (fun y => { y with
      stage := 2, running := k, trial := y.trialSlot && k == y.preferred, firmware := i.version, imageCounter := i.counter
      bootSource := 0 })
  | some (none, i) => s.modSys (fun y => { y with
      stage := 2, firmware := i.version, imageCounter := i.counter, bootSource := 1
      fallback := y.bootStraps == 0b10 })

/-- Zeroisation ends: credentials become the return credential, other keys are gone, the lifecycle is RETURNED (R463). -/
def zeroise (cred : List Byte) (s : State) : State :=
  let s1 := s.modSys (fun y => { y with
    lifecycle := .returned, zeroising := none
    keys := { y.keys with monitor := some cred, operate := some cred, admin := some cred, flock := none, debug := none } })
  submitLog 0x1003 mgmtSource [3] (submitLog 0x1004 mgmtSource [] (s1.modBell (fun b => { b with keys := [] })))

/-- A path comes up, or its nonce is replaced: a fresh nonce is issued (R428). -/
def issueNonce (path : Nat) (s : State) : State :=
  let d := draw s
  d.2.modHost (fun h => { h with
    paths := h.paths.mod path (fun p => { p with nonce := Config.nonce d.1, issued := now s, up := true }) })

/-- Ethernet mode code of the network configuration; a detected link is 1000BASE-X or SGMII as the wire shows. -/
def ethModeOf (n : NetConfig) : Nat := if n.mode = 2 then 1 else if n.mode = 3 then 2 else 0

/-- LOG_START: the reset kind, the mode before, whether it was returned to native, and the highest sequence number in the flash
mirror (R410). -/
def logStart (s : State) : State :=
  let l := s.log
  submitLog 0x0100 mgmtSource
    [s.sys.resetKind.code, flag l.modeBefore, flag (l.modeBefore && !l.ig), l.mirror.foldl (fun m r => max m r.seq) 0] s

/-- Latest end of each boot stage, ms (table *Boot stages*). -/
def stageEnds : List Nat := [2, 30, 32, 100, 150, 175]

/-- A boot stage ends `us` microseconds on, at its latest at the time of the table *Boot stages* (R444). With TEST_MODE
high no stage ends (R497). -/
def bootStageAdvance (us : Nat) (host : Option Image) (badA badB : Bool) (s0 : State) : State :=
  let st := s0.sys.stage
  if 5 < st ∨ s0.sys.configLoaded ∨ s0.sys.testMode then s0
  else
    let t := now s0 + tcOfUs us
    let limit := s0.sys.lastReset + tcOfMs (stageEnds.getD st 175)
    let s := advanceTo (if now s0 < limit then min t limit else t) (s0.modSys (fun y => { y with imageHost := host }))
    match st with
    | 0 => s.modSys (fun y => { y with stage := 1 })
    | 1 => loadImage (match s.sys.zeroising with
        | some z => zeroise z.1 s
        | none => s)
    | 2 => issueNonce 2 (s.modSys (fun y => { y with stage := 3 }))
    | 3 => issueNonce 0 (issueNonce 1 ((s.modSys (fun y => { y with stage := 4 })).modHost (fun h => { h with
        pcieUp := true, ethUp := true, ethMode := ethModeOf h.net })))
    | 4 =>
      let s1 := logStart (s.modSys (fun y => { y with stage := 5 }))
      let s2 := if badA && !s1.log.bankA.failed then failBank .bankA s1 else s1
      if badB && !s2.log.bankB.failed then failBank .bankB s2 else s2
    | _ => s.modSys (fun y => { y with configLoaded := true })

def execBootStageAdvance (us : Nat) (host : Option Image) (badA badB : Bool) (s : State) : Host.Outcome State Fault Refusal :=
  .next (bootStageAdvance us host badA badB s)

/-- Mailbox numbers in ascending order. -/
def ascending (l : List Nat) : List Nat := (List.range 16).filter (fun n => l.contains n)

/-- The part sets READY (R443–R446): held doorbells are ordered by mailbox, DOWN and MIRROR ports train, a trial ends, a paired
hub waits for its peer, a hub without a pair is member 0 (R41), and after a wake the part goes on to its wake state (R456). -/
def ready (s : State) : State :=
  if s.sys.ready ∨ s.sys.stage ≠ 5 ∨ s.sys.configLoaded = false then s
  else
    let hub := s.sys.role == .hub
    let s1 := s.modSys (fun y => { y with
      stage := 6, ready := true, readyTime := (now s - y.lastReset) * 100 / 196608 % 4294967296
      trial := false, trialSlot := y.trialSlot && !y.trial
      move := match y.wakeTarget with
        | some .standby => some { target := .standby, frame := some (frameBoundaryAhead s 1), ticket := none }
        | _ => none
      wakeTarget := none })
    let s2 := (setIrq irqReady s1).modHost (fun h => { h with order := ascending h.order })
    let s3 := trainDownPorts s2
    let s4 := if hub && s3.pair.config.enable then s3.modPair (fun p => { p with phase := .waiting, waitFrom := now s })
      else if hub then s3.modFl (fun f => { f with memberId := some 0 }) else s3
    refreshFaultN s4

def execReady (s : State) : Host.Outcome State Fault Refusal := .next (ready s)

/-- The ROM clears the preference of a trial slot and takes the other one; FW_TRIAL_REVERT is written (R443). -/
def revertTrial (s : State) : State :=
  submitLog 0x1007 mgmtSource [match s.sys.preferred with
    | .slotA => 0
    | .slotB => 1]
    (s.modSys (fun y => { y with preferred := otherSlot y.preferred, trialSlot := false, trial := false }))

/-- READY has not been reached within 2 s of the boot of a trial slot: the other slot boots (R443). -/
def trialTimeout (s : State) : State :=
  if s.sys.trial = false ∨ s.sys.ready then s
  else (revertTrial (advanceTo (s.sys.lastReset + tcOfS 2) s)).modSys (fun y => { y with stage := 1, configLoaded := false })

def execTrialTimeout (s : State) : Host.Outcome State Fault Refusal := .next (trialTimeout s)

/-! ## Warm and watchdog resets (R449, R450) -/

/-- 1 ms after its response, a warm reset: mute over 10 µs, cassettes to DRAINING, HBM3 in self-refresh, reset (R449). -/
def warmReset (s : State) : State :=
  match s.sys.warmAt with
  | none => s
  | some t => refreshFaultN (resetTo .warm (advanceTo (t + tcOfUs 10) s))

def execWarmReset (s : State) : Host.Outcome State Fault Refusal := .next (warmReset s)

/-- A management core does not service its watchdog: FIRMWARE_WATCHDOG, and a reset 10 ms later (R450). -/
def watchdogTimeout (s : State) : State :=
  if (s.sys.debug = .open_ ∧ s.sys.coreHalted) ∨ s.sys.power = .dormant ∨ s.sys.wdtAt.isSome then s
  else raiseMoment { cls := 0xB0, unit := partUnit } (s.modSys (fun y => { y with wdtAt := some (now s + tcOfMs 10) }))

def execWatchdogTimeout (s : State) : Host.Outcome State Fault Refusal := .next (watchdogTimeout s)

/-- The watchdog reset; before READY it ends a firmware trial (R443, R450). -/
def watchdogReset (s : State) : State :=
  match s.sys.wdtAt with
  | none => s
  | some t =>
    let revert := s.sys.trial && !s.sys.ready
    let s1 := refreshFaultN (resetTo .watchdog (advanceTo t s))
    if revert then revertTrial s1 else s1

def execWatchdogReset (s : State) : Host.Outcome State Fault Refusal := .next (watchdogReset s)

/-! ## Unit resets (R451) -/

/-- Housekeeping is reset: bands and the test DAC return, D_th is held for the first round, calibrations, slot map, windows and
policy are applied again (R252, R451, R457). -/
def resetHousekeeping (s : State) : State :=
  let h := s.hk
  let s1 := { s with hk :=
    { cal := h.cal, map := h.map, dTh := h.dTh, tThrottle := h.tThrottle, tShut := h.tShut, slope := h.slope, shutdown := h.shutdown
      blindDies := h.blindDies, slotStart := now s
      windows := { h.windows with cells := h.windows.cells.map (fun p => (p.1, { lo := p.2.lo, hi := p.2.hi, rounds := p.2.rounds })) } } }
  let s2 := match h.calRun with
    | some r => complete r.ticket .eNotReady 0 s1
    | none => s1
  match h.urgent with
  | some (_, .host t) => finishDeferred t .eNotReady 0 [] s2
  | _ => s2

/-- Loop guard: every loop record anew, every canceller cold (R137, R140). -/
def resetLoopGuard (s : State) : State :=
  restartCancellers (fun c => c.state != .idle) ((ebs s).foldl (fun acc p => createLoop p.1 acc) s)

/-- What the reset of a subsystem does (table *Unit resets*). -/
def unitResetEffect (sub : Nat) (s : State) : State :=
  match sub with
  | 2 => refreshGains (resetLoopGuard s)
  | 3 => resetEngine s
  | 4 => refreshGains (resetPowerStage ((List.range 8).foldl (fun acc n => shutCassette n acc) s))
  | 5 => resetHousekeeping s
  | _ => bellOff s

/-- Latest end of a unit reset, ms. -/
def unitResetMs (sub : Nat) : Nat := if sub = 4 then 70 else if sub = 5 then 5 else 1

/-- A unit reset starts. -/
def startUnitReset (sub : Nat) (t : Ticket) (s : State) : State :=
  unitResetEffect sub (s.modSys (fun y => { y with unitReset := y.unitReset ++ [(sub, now s + tcOfMs (unitResetMs sub), t)] }))

/-- The oldest unit reset is complete, within the time of the table *Unit resets*: UNIT_RESET record and completion (R451). -/
def unitResetComplete (us : Nat) (s : State) : State :=
  match s.sys.unitReset with
  | [] => s
  | (sub, by_, t) :: rest =>
    let s1 := advanceTo (min by_ (now s + tcOfUs us)) s
    complete t .ok 0 (submitLog 0x1001 mgmtSource [sub]
      (s1.modSys (fun y => { y with unitReset := rest, unitResets := y.unitResets + 1 })))

def execUnitResetComplete (us : Nat) (s : State) : Host.Outcome State Fault Refusal := .next (unitResetComplete us s)

/-- PWR_RESET (0x1004). -/
def specPwrReset : CommandSpec where
  opcode := 0x1004
  role := some .admin
  length := fixedLength 4
  checks := fun _ q =>
    let p := q.payload
    [field 0 (within 0 1 (u8 p 0)),
     field 1 (if u8 p 0 = 0 then u8 p 1 == 0 else [2, 3, 4, 5, 9].contains (u8 p 1)), field 2 (zeros p 2 2)]
  effect := fun s q =>
    if u8 q.payload 0 = 0 then (s.modSys (fun y => { y with warmAt := some (now s + tcOfMs 1) }), {})
    else (startUnitReset (u8 q.payload 1) (ticketOf q) s, { status := .accepted })

def execPwrReset (r : HostRequest) (s : State) : Host.Outcome State Fault Refusal := .next (submit specPwrReset r s)

end Sys2Proof.Machine
end

