-- ==== Sys2Proof/Machine/PowerStates.lean ====
section
/-! DEFINITION. Power states, wake and supply loss (R452–R457, R464, R465). -/

namespace Sys2Proof.Machine

open Sys2Proof

/-! ## Entry to STANDBY (R452, R453) -/

/-- The state in which a chain comes back when STANDBY is left (R455). -/
def resumeOf (x : Chain) : FeState :=
  if x.fe = .off ∨ x.offAt.isSome then .off
  else if x.fe = .active ∨ wantsActive x then .active else .ready

/-- A chain is unpowered for STANDBY; commands that waited for it complete E_CONFLICT (R68), and the DPD sets
it keeps are checked when it comes back (R457, R76). -/
def standbyChain (s : State) (c : Nat) : State :=
  let back := resumeOf (s.rf.chains.get c)
  let s := if c < 8 then s else s.modCe (fun y => { y with dpd := y.dpd.mod (c - 8) (fun d => { d with check := true }) })
  modChain c (fun x => { x with resume := back }) (if back = .off then finishOff c s else powerDown c (cancelHeld c s))

/-- Every injection ends as if CL_INJECT had turned it off (R453, R202). -/
def endInjections (why : Nat) (s : State) : State :=
  (boundSlots s).foldl (fun acc p => endInjection p.1 (stopInjection p.1 why acc)) s

/-- The lane that stays powered in STANDBY: one lane in use of the primary upstream port of a member, or of the first mirror
port of a paired HUB (R452). -/
def standbyLane (s : State) : Option Nat :=
  let port := if s.sys.role = .hub then (if s.pair.config.enable then mirrorPort s else none)
    else if s.fl.memberId.isSome then s.fl.primary else none
  port.bind (fun p => ((s.fl.ports.get p).lanes ++ portLanes s p).head?)

/-- Every other lane is unpowered, and leaves its port's bond. -/
def standbyLanes (s : State) : State :=
  let keep := standbyLane s
  let off := (List.range 24).filter (fun l => some l != keep)
  (List.range 12).foldl (fun acc p => modPort p (fun x => { x with
    lanes := x.lanes.filter (fun l => some l == keep), laneNext := none }) acc) (unpowerLanes off s)

/-- Capture arming is cleared (R457); a CAP_ARM that waits for stack 1 completes E_CONFLICT. -/
def clearArming (s : State) : State :=
  (List.range 16).foldl (fun acc k =>
    let c := acc.mem.slots.get k
    if recording c then completeOpt c.arming .eConflict 0 (freeSlot k acc) else acc) s

/-- Cassettes that are on or being enabled pass through DRAINING, and are remembered for R455. -/
def standbyCassettes (s : State) : State :=
  let l := (List.range 8).filter (fun n => drainOn (cas s n) || (cas s n).enabling.isSome)
  l.foldl (fun acc n => shutCassette n acc) (s.modPs (fun p => { p with reEnable := l }))

/-- The steps of entry to STANDBY (R453, R457). -/
def enterStandby (s : State) : State :=
  let s1 := endInjections 4 (s.modSys (fun y => { y with power := .standby }))
  let s2 := standbyCassettes (clearArming (bellOff s1))
  refreshGains (standbyLanes ((List.range 16).foldl standbyChain s2))

/-- STANDBY takes effect at its frame boundary (R453). -/
def standbyEntry (s : State) : State :=
  match s.sys.move with
  | some ⟨.standby, some f, t, false⟩ =>
    let s1 := enterStandby (advanceToAir ⟨f, 0⟩ s)
    reviewMove (s1.modSys (fun y => { y with move := some ⟨.standby, none, t, false⟩ }))
  | _ => s

def execStandbyEntry (s : State) : Host.Outcome State Fault Refusal := .next (standbyEntry s)

/-! ## Exit from STANDBY (R455) -/

/-- A band path is created again with its parameters (R100, R101). -/
def recreateBand (d : Dir) (s : State) (p : Nat × BandPath) : State :=
  let b := p.2.next.getD p.2.params
  let s1 := applyChange d p.1 b (modBand d p.1 (fun x => { x with
    lastChange := now s, settleTotal := x.settleTotal + 1
    settleBy := settleDeadline (now s) (settleTail d b), srcGapped := b.srcFlow }) s)
  match d with
  | .ingress => restartGate p.1 s1
  | .egress => createLoop p.1 s1

/-- A cassette that was enabled is enabled again as by PA_ENABLE, without a command of its own. -/
def reEnableCassette (s : State) (n : Nat) : State :=
  if (cas s n).pa = .absent then s
  else tryDrainUp n (modCas n (fun y => { y with enabling := some ([], now s), checkDue := y.enabledOnce }) s)

/-- The kept running configuration is applied again, in the order of R455. -/
def leaveStandby (s : State) : State :=
  let s1 := (List.range 16).foldl (fun acc c =>
    let x := acc.rf.chains.get c
    if x.resume = .off then acc
    else modChain c (fun y => { y with ret := x.resume }) (startFromOff c x.window x.atten none acc)) s
  let s2 := (ebs s1).foldl (recreateBand .egress) ((ibs s1).foldl (recreateBand .ingress) s1)
  let s3 := resetEngine (restartCancellers (fun c => c.state != .idle) s2)
  let s4 := (s3.ps.reEnable.foldl reEnableCassette s3).modPs (fun p => { p with reEnable := [] })
  refreshGains (((List.range 12).filter (fun p => (s4.fl.ports.get p).config.function != .off)).foldl
    (fun acc p => powerPort p acc) s4)

/-- Every chain that STANDBY had unpowered has locked: the move is complete (R455). -/
def standbyExitComplete (s : State) : State :=
  match s.sys.move with
  | some m =>
    let back := (List.range 16).filter (fun c => (s.rf.chains.get c).resume != .off)
    if m.exit = true ∧ back.all (fun c => (s.rf.chains.get c).locked) then
      finishMove (back.foldl (fun acc c => modChain c (fun x => { x with resume := .off }) acc) s)
    else s
  | none => s

def execStandbyExitComplete (s : State) : Host.Outcome State Fault Refusal := .next (standbyExitComplete s)

/-! ## QUIET (R453, R454) -/

/-- QUIET begins at the next sample: every egress band path mutes, and injections end. -/
def enterQuiet (s : State) : State := refreshGains (endInjections 4 (s.modSys (fun y => { y with power := .quiet })))

/-- Leaving QUIET: loops without a valid measurement for 500 ms or more are created anew (R454). -/
def leaveQuiet (s : State) : State :=
  let stale := (ebs s).filter (fun p => match s.lg.loops.get p.1 with
    | some l => decide (l.lastValid + tcOfMs 500 ≤ now s)
    | none => false)
  refreshGains (stale.foldl (fun acc p => restartLoop p.1 (some .acquiring) true acc)
    (s.modSys (fun y => { y with power := .active })))

/-- The QUIET source clears at the next slot boundary (R453). -/
def quietExit (s : State) : State :=
  match s.sys.move with
  | some ⟨.active, _, _, false⟩ => if s.sys.power = .quiet then finishMove (leaveQuiet (toNextSlot s)) else s
  | _ => s

def execQuietExit (s : State) : Host.Outcome State Fault Refusal := .next (quietExit s)

/-! ## PWR_STATE_SET (0x1001) -/

/-- An active hub has a JOINED member as its downstream peer. -/
def joinedChild (s : State) : Bool :=
  activeHub s && s.fl.members.cells.any (fun p => match p.2 with
    | some r => r.state == .joined && r.parent == ownMember s
    | none => false)

/-- An active hub has JOINED members. -/
def joinedMembers (s : State) : Bool :=
  activeHub s && s.fl.members.cells.any (fun p => match p.2 with
    | some r => r.state == .joined
    | none => false)

/-- A new move replaces one in progress, whose command completes E_CONFLICT. -/
def replaceMove (m : PowerMove) (s : State) : State :=
  let s1 := s.modSys (fun y => { y with move := some m })
  match s.sys.move with
  | some old => completeOpt old.ticket .eConflict 0 s1
  | none => s1

/-- A move to a state begins (R453, R455, R456). -/
def startMove (target : PowerState) (t : Option Ticket) (s : State) : State :=
  match target with
  | .dormant =>
    if s.fl.state = .joined ∧ activeHub s = false then
      let f := frameBoundaryAhead s 4
      startLeave f .dormant (replaceMove { target, frame := some f, ticket := t } s)
    else replaceMove { target, frame := some (frameBoundaryAhead s 1), ticket := t } s
  | .standby => replaceMove { target, frame := some (frameBoundaryAhead s 1), ticket := t } s
  | _ =>
    if s.sys.power = .standby then
      leaveStandby ((replaceMove { target, frame := none, ticket := t, exit := true } s).modSys (fun y =>
        { y with power := target }))
    else if target = .quiet then reviewMove (enterQuiet (replaceMove { target, frame := none, ticket := t } s))
    else replaceMove { target, frame := none, ticket := t } s

def specPwrStateSet : CommandSpec where
  opcode := 0x1001
  role := some .operate
  perm := fun s q => u8 q.payload 0 != 3 || reqRole s q == some .admin
  length := fixedLength 4
  checks := fun s q =>
    let p := q.payload
    [field 0 (within 0 3 (u8 p 0)), field 1 (zeros p 1 3),
     need .eConflict (!(u8 p 0 == 2 && s.sys.power != .standby && joinedChild s)),
     need .eConflict (!(u8 p 0 == 3 && joinedMembers s))]
  effect := fun s q =>
    let target := powerOfCode (u8 q.payload 0)
    if target = s.sys.power then (s, {}) else (startMove target (some (ticketOf q)) s, { status := .accepted })

def execPwrStateSet (r : HostRequest) (s : State) : Host.Outcome State Fault Refusal := .next (submit specPwrStateSet r s)

/-! ## DORMANT (R456, R492) -/

/-- Every session closes. -/
def closeSessions (s : State) : State := s.modHost (fun h => { h with sessions := Bank.fill none })

/-- Entry to DORMANT: after the leave frame the steps of entry to STANDBY, the flash mirror, sessions and the debug session
closed, and power down within 100 ms (R456). -/
def dormantEntry (us : Nat) (s : State) : State :=
  match s.sys.move with
  | some ⟨.dormant, some f, _, _⟩ =>
    let s1 := advanceToAir ⟨f, 0⟩ s
    let s2 := match s1.fl.leave with
      | some (_, why) => if why = .dormant then becomeLeft why s1 else s1
      | none => s1
    let s3 := finishMove (enterStandby s2)
    let s4 := drainSubmissions (closeDebug (closeSessions (advance (min (tcOfUs us) (tcOfMs 100)) s3)))
    (s4.modLog mirrorAll).modSys (fun y => { y with power := .dormant, dormantAt := now s4 })
  | _ => s

def execDormantEntry (us : Nat) (s : State) : Host.Outcome State Fault Refusal := .next (dormantEntry us s)

/-- PWR_EN goes low 1 ms after entry to DORMANT is complete (R492). -/
def pwrEnDrop (s : State) : State :=
  if s.sys.power = .dormant ∧ s.sys.pwrEn then
    (waitUntil (s.sys.dormantAt + tcOfMs 1) s).modSys (fun y => { y with pwrEn := false })
  else s

def execPwrEnDrop (s : State) : Host.Outcome State Fault Refusal := .next (pwrEnDrop s)

/-- A wake source is enabled (R456). -/
def wakeEnabled (s : State) : WakeSource → Bool
  | .site n rising => if rising then s.sys.wake.siteRise.getLsbD n else s.sys.wake.siteFall.getLsbD n
  | .timer => s.sys.wake.timer != 0
  | .debug => s.sys.wake.debugWake

/-- An enabled wake source starts a DORMANT_WAKE boot once the supplies are back; a debug request leads to STANDBY (R456). -/
def dormantWake (w : WakeSource) (us : Nat) (s : State) : State :=
  if s.sys.power ≠ .dormant ∨ wakeEnabled s w = false then s
  else
    let s1 := match w with
      | .timer => waitUntil (s.sys.dormantAt + tcOfS s.sys.wake.timer) s
      | _ => s
    let s2 := if s1.sys.pwrEn then s1 else waitUntil (now s1 + tcOfUs us) s1
    (refreshFaultN (resetTo .dormantWake s2)).modSys (fun y => { y with
      wakeTarget := some (if w = .debug then .standby else y.wake.wakeState) })

def execDormantWake (w : WakeSource) (us : Nat) (s : State) : Host.Outcome State Fault Refusal :=
  .next (dormantWake w us s)

/-- DORMANT: one tick of AON_OSC (R29). -/
def aonOscTick (s : State) : State := if s.sys.power ≠ .dormant then s else s.modAir (fun a => a.sleep 1)

def execAonOscTick (s : State) : Host.Outcome State Fault Refusal := .next (aonOscTick s)

/-! ## PWR_WAKE_CONFIG (0x1002), PWR_LIMIT_SET (0x1003) -/

def specPwrWakeConfig : CommandSpec where
  opcode := 0x1002
  role := some .admin
  length := fixedLength 12
  checks := fun _ q =>
    let p := q.payload
    [field 4 (within 0 31536000 (u32 p 4)), field 8 (u8 p 8 == 0 || u8 p 8 == 2), field 9 (within 0 1 (u8 p 9)),
     field 10 (zeros p 10 2)]
  effect := fun s q =>
    let p := q.payload
    (s.modSys (fun y => { y with wake :=
      { siteRise := BitVec.ofNat 16 (u16 p 0), siteFall := BitVec.ofNat 16 (u16 p 2), timer := u32 p 4
        wakeState := powerOfCode (u8 p 8), debugWake := u8 p 9 == 1 } }), {})

def execPwrWakeConfig (r : HostRequest) (s : State) : Host.Outcome State Fault Refusal := .next (submit specPwrWakeConfig r s)

def specPwrLimitSet : CommandSpec where
  opcode := 0x1003
  role := some .admin
  length := fixedLength 4
  checks := fun s q =>
    [field 0 (within 5000 85000 (u32 q.payload 0)),
     needD .eConflict (modelledPower s) (decide (modelledPower s ≤ u32 q.payload 0))]
  effect := fun s q => (s.modSys (fun y => { y with powerLimit := u32 q.payload 0 }), {})

def execPwrLimitSet (r : HostRequest) (s : State) : Host.Outcome State Fault Refusal := .next (submit specPwrLimitSet r s)

/-! ## Supply loss (R464, R465) -/

/-- PWR_FAIL_N has been low for 2 µs: the hold-up actions (R464). Life copies of the cassettes in `failed` are not written. -/
def pwrFailFall (failed : BitVec 8) (s0 : State) : State :=
  if s0.sys.pwrFail ∨ s0.sys.power = .dormant then s0
  else
    let from_ := s0.sys.power
    let s := (stopDrain (advance (tcOfUs 2) s0)).modSys (fun y => { y with
      pwrFail := true, pwrFailFrom := some from_, pwrFailCount := y.pwrFailCount + 1 })
    let s1 := if from_ = .active then enterQuiet s else s
    let good := (identified s1).filter (fun n => !failed.getLsbD n)
    let bad := (identified s1).filter (fun n => failed.getLsbD n)
    let s2 := (good.foldl (fun acc n => writeLife n acc) s1).modPs (fun p => { p with
      failWrites := good.length, failFails := bad.length })
    let s3 := s2.modBell (fun b => { b with keys := b.keys.map (fun k => { k with stored := k.counter, since := 0 }) })
    let s4 := drainSubmissions (submitLog 0x1006 mgmtSource [] s3)
    postNotice 0x1002 0 0 (s4.modLog mirrorAll)

def execPwrFailNFall (failed : BitVec 8) (s : State) : Host.Outcome State Fault Refusal := .next (pwrFailFall failed s)

/-- PWR_FAIL_N has been high for 100 ms with every supply window holding: the part returns to its power state as
by a move (R453, R465). -/
def pwrRestore (s0 : State) : State :=
  if s0.sys.pwrFail = false ∨ (List.range 32).any (fun k => (s0.hk.windows.get k).isOut) then s0
  else
    let s := (advance (tcOfMs 100) s0).modSys (fun y => { y with pwrFail := false, pwrFailFrom := none })
    let s1 := match s0.sys.pwrFailFrom with
      | some .active => if s.sys.power = .quiet then leaveQuiet (toNextSlot s) else s
      | _ => s
    pumpDrain (postNotice 0x1003 0 0 s1)

def execPwrRestore (s : State) : Host.Outcome State Fault Refusal := .next (pwrRestore s)

end Sys2Proof.Machine
end

