-- ==== Sys2Proof/Machine/Security.lean ====
section
/-! DEFINITION. Lifecycle, debug port, keys and firmware images (R441–R443, R458–R463, R466). -/

namespace Sys2Proof.Machine

open Sys2Proof

/-! ## Lifecycle (R5, R6, R458, R463) -/

/-- LC_PROVISION (0x1010). -/
def specLcProvision : CommandSpec where
  opcode := 0x1010
  role := none
  lifecycle := [.blank]
  length := fixedLength 96
  states := fun s _ => !s.sys.keys.locked
  effect := fun s q =>
    let p := q.payload
    (submitLog 0x1003 mgmtSource [1] (s.modSys (fun y => { y with
      lifecycle := .provisioned
      keys := { y.keys with
        monitor := some (bytesAt p 0 32), operate := some (bytesAt p 32 32), admin := some (bytesAt p 64 32) } })), {})

def execLcProvision (r : HostRequest) (s : State) : Host.Outcome State Fault Refusal := .next (submit specLcProvision r s)

/-- LC_ADVANCE (0x1011). -/
def specLcAdvance : CommandSpec where
  opcode := 0x1011
  role := some .admin
  length := fixedLength 40
  states := fun s q =>
    !s.sys.keys.locked && (match u8 q.payload 0 with
      | 2 => s.sys.lifecycle == .provisioned
      | 3 => s.sys.lifecycle == .provisioned || s.sys.lifecycle == .deployed
      | _ => true)
  checks := fun _ q =>
    let p := q.payload
    [field 0 (within 2 3 (u8 p 0)), field 1 (zeros p 1 3), field 4 (u32 p 4 == 0x4C434144),
     field 8 (u8 p 0 == 3 || zeros p 8 32)]
  effect := fun s q =>
    let t := ticketOf q
    if u8 q.payload 0 = 2 then
      (complete t .ok 0 (submitLog 0x1003 mgmtSource [2] (s.modSys (fun y => { y with lifecycle := .deployed }))),
       { status := .accepted })
    else
      (s.modSys (fun y => { y with zeroising := some (bytesAt q.payload 8 32, some t) }), { status := .accepted })

def execLcAdvance (r : HostRequest) (s : State) : Host.Outcome State Fault Refusal := .next (submit specLcAdvance r s)

/-- Zeroisation is verified by readback: RETURNED, KEYS_ZEROISED, and the completion of LC_ADVANCE (R463). -/
def keysZeroised (s : State) : State :=
  match s.sys.zeroising with
  | some (cred, t) => completeOpt t .ok 0 (zeroise cred s)
  | none => s

def execKeysZeroised (s : State) : Host.Outcome State Fault Refusal := .next (keysZeroised s)

/-- The role of a code. -/
def partRoleOf (n : Nat) : PartRole := if n = 0 then .hub else if n = 1 then .remote else .relay

/-- LC_ROLE_SET (0x1012): the stored role takes effect at the next reset (R5, R6). -/
def specLcRoleSet : CommandSpec where
  opcode := 0x1012
  role := some .admin
  lifecycle := [.provisioned]
  length := fixedLength 4
  checks := fun _ q => [field 0 (within 0 2 (u8 q.payload 0) || u8 q.payload 0 == 0xFF), field 1 (zeros q.payload 1 3)]
  effect := fun s q =>
    let r := u8 q.payload 0
    (s.modSys (fun y => { y with storedRole := if r = 0xFF then none else some (partRoleOf r) }), {})

def execLcRoleSet (r : HostRequest) (s : State) : Host.Outcome State Fault Refusal := .next (submit specLcRoleSet r s)

/-! ## Keys (R462) -/

/-- Bytes of the key of a slot: role credentials 0–2, flock key 3, debug key 4. -/
def keySize (slot : Nat) : Nat := if slot = 4 then 97 else if slot = 3 then 48 else 32

/-- A key takes its slot. -/
def installKey (slot : Nat) (b : List Byte) (k : KeyStore) : KeyStore :=
  match slot with
  | 0 => { k with monitor := some b }
  | 1 => { k with operate := some b }
  | 2 => { k with admin := some b }
  | 3 => { k with flock := some b }
  | _ => { k with debug := some b }

/-- KEY_INSTALL (0x1013). -/
def specKeyInstall : CommandSpec where
  opcode := 0x1013
  role := some .admin
  perm := fun _ q => reqPath q != .ethernet
  lifecycle := [.provisioned, .deployed]
  length := fixedLength 104
  states := fun s _ => !s.sys.keys.locked
  checks := fun _ q =>
    let n := keySize (u8 q.payload 0)
    [field 0 (within 0 4 (u8 q.payload 0)), field 1 (zeros q.payload 1 3), field 4 (zeros q.payload (4 + n) (100 - n))]
  effect := fun s q =>
    let slot := u8 q.payload 0
    (s.modSys (fun y => { y with keys := installKey slot (bytesAt q.payload 4 (keySize slot)) y.keys }), {})

def execKeyInstall (r : HostRequest) (s : State) : Host.Outcome State Fault Refusal := .next (submit specKeyInstall r s)

/-! ## Debug port (R459, R460) -/

/-- DBG_POLICY (0x1014). -/
def specDbgPolicy : CommandSpec where
  opcode := 0x1014
  role := some .admin
  length := fixedLength 4
  checks := fun _ q => [field 0 (within 0 1 (u8 q.payload 0)), field 1 (zeros q.payload 1 3)]
  effect := fun s q =>
    let allow := u8 q.payload 0 == 1
    let s1 := s.modSys (fun y => { y with authAllowed := allow })
    (if allow = false ∧ s1.sys.debug = .auth then closeDebug s1 else s1, {})

def execDbgPolicy (r : HostRequest) (s : State) : Host.Outcome State Fault Refusal := .next (submit specDbgPolicy r s)

/-- A debug session opens, with its record. -/
def openDebug (l : DebugLevel) (s : State) : State :=
  submitLog 0x1005 mgmtSource [l.code, 1] (s.modSys (fun y => { y with debug := l, debugLast := now s }))

/-- What an AUTH signature covers: the 32-byte challenge followed by the serial number. -/
def authMessage (y : SysState) : List Byte :=
  (List.range 32).map (fun i => (y.challenge >>> (8 * i)).setWidth 8) ++ le 8 Config.serial.toNat

/-- A failed AUTH signature: its record, and the lock after three within 60 s. -/
def debugFailure (s : State) : State :=
  let l := now s :: s.sys.debugFails.filter (fun t => decide (now s < t + tcOfS 60))
  let lock := decide (3 ≤ l.length)
  let s1 := submitLog 0x1008 mgmtSource [2] (s.modSys (fun y => { y with
    debugFails := if lock then [] else l, debugFailCount := y.debugFailCount + 1
    debugLocked := if lock then some (now s + tcOfS 300) else y.debugLocked }))
  if lock then submitLog 0x1008 mgmtSource [3] s1 else s1

/-- An AUTH request is checked: PROVISIONED or DEPLOYED, allowed by DBG_POLICY, the port not locked, a debug key installed.
Every request is answered with a fresh challenge for the next. -/
def debugAuthRequest (signature : List Byte) (s : State) : State :=
  if s.sys.power = .dormant ∨ s.sys.debug ≠ .closed ∨ s.sys.debugLocked.isSome ∨ s.sys.authAllowed = false ∨
      ¬ (s.sys.lifecycle = .provisioned ∨ s.sys.lifecycle = .deployed) then s
  else
    match s.sys.keys.debug with
    | none => s
    | some k =>
      let good := Config.ecdsaP384 k (authMessage s.sys) signature
      let d := draw s
      let s1 := d.2.modSys (fun y => { y with challenge := Config.challenge d.1 })
      if good then openDebug .auth s1 else debugFailure s1

def execDebugAuthRequest (signature : List Byte) (s : State) : Host.Outcome State Fault Refusal :=
  .next (debugAuthRequest signature s)

/-- An OPEN request, in BLANK or RETURNED; with the session open the port can halt a management core (R450, R459). -/
def debugOpenRequest (halt : Bool) (s : State) : State :=
  if s.sys.power = .dormant ∨ ¬ (s.sys.lifecycle = .blank ∨ s.sys.lifecycle = .returned) then s
  else
    let s1 := if s.sys.debug = .closed then openDebug .open_ s else s
    s1.modSys (fun y => { y with debugLast := now s, coreHalted := halt && y.debug == .open_ })

def execDebugOpenRequest (halt : Bool) (s : State) : Host.Outcome State Fault Refusal := .next (debugOpenRequest halt s)

/-- The session closes on disconnection, or after 600 s without activity. -/
def debugSessionClose (disconnect : Bool) (s : State) : State :=
  if s.sys.debug = .closed then s
  else closeDebug (if disconnect then s else advanceTo (s.sys.debugLast + tcOfS 600) s)

def execDebugSessionClose (disconnect : Bool) (s : State) : Host.Outcome State Fault Refusal :=
  .next (debugSessionClose disconnect s)

/-- The lockout of the port ends. -/
def debugLockoutExpiry (s : State) : State :=
  match s.sys.debugLocked with
  | some t => (waitUntil t s).modSys (fun y => { y with debugLocked := none })
  | none => s

def execDebugLockoutExpiry (s : State) : Host.Outcome State Fault Refusal := .next (debugLockoutExpiry s)

/-- A digest mismatch, a glitch, a debug-port write to a key slot or inconsistent OTP (R466). -/
def securityViolation (kind : Nat) (s : State) : State :=
  raiseMoment { cls := 0xB1, unit := partUnit, detail4 := kind } s

def execSecurityViolation (kind : Nat) (s : State) : Host.Outcome State Fault Refusal := .next (securityViolation kind s)

/-! ## Firmware images (R441–R443) -/

/-- The image of a slot is replaced. -/
def setImage (k : SlotSel) (i : Option Image) (y : SysState) : SysState :=
  match k with
  | .slotA => { y with imageA := i }
  | .slotB => { y with imageB := i }

/-- FW_WRITE (0x1020): bytes written into the non-running slot, which holds no image until FW_CONTROL has verified it. -/
def specFwWrite : CommandSpec where
  opcode := 0x1020
  role := some .admin
  length := fun q => if q.length = 8 + u32 q.payload 4 then none else some 4
  checks := fun s q =>
    let off := u32 q.payload 0
    let n := u32 q.payload 4
    [field 0 (decide (off + n ≤ 16777216)), field 4 (within 1 2024 n), need .eBusy s.sys.fwVerify.isNone]
  effect := fun s q =>
    let off := u32 q.payload 0
    (s.modSys (fun y =>
      let z := setImage (otherSlot y.running) none y
      { z with fwBytes := (List.range (u32 q.payload 4)).foldl (fun b k => b.set (off + k) (u8 q.payload (8 + k))) z.fwBytes }),
     {})

def execFwWrite (r : HostRequest) (s : State) : Host.Outcome State Fault Refusal := .next (submit specFwWrite r s)

/-- FW_CONTROL (0x1021). -/
def specFwControl : CommandSpec where
  opcode := 0x1021
  role := some .admin
  length := fixedLength 4
  states := fun s q => u8 q.payload 0 != 1 || !s.sys.trial
  checks := fun s q =>
    [field 0 (within 0 2 (u8 q.payload 0)), field 1 (zeros q.payload 1 3),
     need .eBusy (u8 q.payload 0 != 0 || s.sys.fwVerify.isNone)]
  effect := fun s q =>
    match u8 q.payload 0 with
    | 0 => (s.modSys (fun y => { y with fwVerify := some (ticketOf q) }), { status := .accepted })
    | 1 => (s.modSys (fun y => { y with keys := { y.keys with counter := max y.keys.counter y.imageCounter } }), {})
    | _ => (s.modSys (fun y => { y with preferred := y.running, trialSlot := false }), {})

def execFwControl (r : HostRequest) (s : State) : Host.Outcome State Fault Refusal := .next (submit specFwControl r s)

/-- Verification of the non-running slot ends: an accepted image makes it preferred and on trial, else E_INTEGRITY (R442,
R443). -/
def fwVerifyComplete (image : Option Image) (s : State) : State :=
  match s.sys.fwVerify with
  | none => s
  | some t =>
    let k := otherSlot s.sys.running
    let s1 := s.modSys (fun y => setImage k image { y with fwVerify := none })
    if (image.filter (imageAccepted s.sys.keys)).isSome then
      complete t .ok 0 (s1.modSys (fun y => { y with preferred := k, trialSlot := true }))
    else complete t .eIntegrity 0 s1

def execFwVerifyComplete (image : Option Image) (s : State) : Host.Outcome State Fault Refusal :=
  .next (fwVerifyComplete image s)

end Sys2Proof.Machine
end

