-- ==== Sys2Proof/Machine/Faults.lean ====
section
/-! DEFINITION. The fault collector (R365–R391, R510, R512, R515): recording, severities, consequence windows, reactions and
their release, and the fault commands. -/

namespace Sys2Proof.Machine

open Sys2Proof

/-! ## Entries and severities (R370–R373) -/

/-- The entry of a class and unit. -/
def entryOf (f : FaultState) (cls : Nat) (u : UnitId) : Option FaultEntry :=
  f.entries.find? (fun e => e.cls == cls && e.unit == u)

/-- An entry changed, by handle. -/
def modEntry (h : Nat) (g : FaultEntry → FaultEntry) (s : State) : State :=
  s.modFault (fun f => { f with entries := f.entries.map (fun e => if e.handle = h then g e else e) })

/-- The severity of a raise that has no entry (R371). -/
def baseSeverity (f : FaultState) (r : Raise) : Severity := r.fixed.getD (classConfig f r.cls).severity

/-- The effective severity of a raise (R371, R372); a repeat never lowers its entry. -/
def raiseSeverity (f : FaultState) (r : Raise) : Severity :=
  match entryOf f r.cls r.unit with
  | some e =>
    let again := if e.acked then e.severity else max e.severity (min (e.severity + 1) (classConfig f r.cls).ceiling)
    max again (r.fixed.getD 0)
  | none => baseSeverity f r

/-- The source index of a raise (R367, R512). -/
def raiseSource (r : Raise) : Nat := sourceIndex (classSubsystem r.cls) r.unit.index

/-- A record of the collector (R390), written at once; its sequence number. -/
def writeFault (code source sev flags : Nat) (params : List Nat) (mono : Nat) (s : State) : State × Nat :=
  writeSubmission { code, source, severity := sev, flags, params := params6 params, mono } s

/-- A record of the collector that waits for the writer. -/
def submitFault (code source sev flags : Nat) (params : List Nat) (s : State) : State :=
  s.modLog (fun l => { l with submissions := l.submissions ++
    [{ code, source, severity := sev, flags, params := params6 params, mono := now s }] })

/-! ## Masking (R385) -/

/-- The classes that measure the emitted signal. -/
def maskedClasses : List Nat := [0x14, 0x30, 0x33, 0x40, 0x43, 0x44, 0x51, 0x52]

/-- The egress band paths that a unit contains, or that a slot actuates. -/
def ebsWithin (s : State) (u : UnitId) : List Nat :=
  match u.kind with
  | .egress => if ebExists s u.index then [u.index] else []
  | .slot => (let a := actuated s (slotOf s u.index)
    if a.kind = .egress ∧ ebExists s a.index then [a.index] else [])
  | .chain | .cassette | .part | .member =>
    ((ebs s).filter (fun p => (containers s (ebUnit p.1)).contains u)).map (·.1)
  | _ => []

/-- An egress band path whose output is zero: a mute source holds it and its ramp has ended. -/
def silent (s : State) (e : Nat) : Bool :=
  (match s.ce.eb.get e with
   | some b => muteMask s e b != 0
   | none => true) && (settleRamp (now s) (s.np.gain.get e).ramp).state == .silent

/-- A raise that is discarded because its unit emits nothing. -/
def maskedRaise (s : State) (r : Raise) : Bool :=
  let l := ebsWithin s r.unit
  maskedClasses.contains r.cls && !l.isEmpty && l.all (silent s)

/-! ## Pens and their release (R375, R376, R387) -/

/-- Units in one of the service states of R17. -/
def fenceable (u : UnitId) : Bool :=
  match u.kind with
  | .ingress | .egress | .chain | .cassette | .member | .lane | .flow => true
  | .part => u.index == 0
  | _ => false

/-- What a pen does at once to a unit that was not penned. -/
def penEffect (u : UnitId) (s : State) : State :=
  let shutAll (x : State) : State := (List.range 8).foldl (fun acc n => shutCassette n acc) x
  refreshGains (match u.kind with
    | .cassette => shutCassette u.index s
    | .lane => reviewPort (portOfLane s u.index) (portUp s (portOfLane s u.index)) (withdrawLane u.index s)
    | .part => if u.index = 0 then shutAll s else s
    | .member => if u.index = ownMember s then shutAll s else s
    | _ => s)

/-- A unit takes a pen reason (R375). -/
def penUnit (r : PenReason) (s : State) (u : UnitId) : State :=
  if s.fault.pens.contains ⟨u, r⟩ then s
  else
    let was := penned s u
    let s1 := s.modFault (fun f => { f with pens := f.pens ++ [⟨u, r⟩] })
    if was then s1 else penEffect u s1

/-- A unit that has no pen reason left returns by way of PADDOCK (R18, R270, R387). -/
def unpenned (s : State) (u : UnitId) : State :=
  match u.kind with
  | .lane => choosePath (qualifyLane u.index s)
  | _ =>
    if u = tddFence then ((ebs s).filter (fun p => p.2.params.tdd.isSome && !penned s (ebUnit p.1))).foldl
      (fun acc p => enterPaddock (ebUnit p.1) acc) s
    else if fenceable u then enterPaddock u s else s

/-- Every pen that `f` selects goes. -/
def dropPens (f : Pen → Bool) (s : State) : State :=
  let units := (s.fault.pens.filter f).foldl (fun acc p => if acc.contains p.unit then acc else acc ++ [p.unit]) []
  let s1 := s.modFault (fun x => { x with pens := x.pens.filter (fun p => !f p) })
  if units.isEmpty then s
  else refreshGains ((units.filter (fun u => !penned s1 u)).foldl unpenned s1)

/-! ## Own actions and back-offs (R374) -/

/-- Classes without an own action. -/
def noOwnAction : List Nat := [0x11, 0x14, 0x52, 0x60, 0x61, 0x62, 0x63, 0x71, 0x73, 0xB2, 0xC0]

/-- The transmit chain on which the DEGRADE back-off of a chain or cassette unit acts, or the band path. -/
def degradeScope (u : UnitId) : Option UnitId :=
  match u.kind with
  | .egress => some u
  | .chain => if 8 ≤ u.index then some u else none
  | .cassette => some (chainUnit (8 + u.index))
  | _ => none

/-- DONOR_OVERLOAD: 6 dB more in the attenuator, or in the loop's lower limit, or the back-off of the fed band paths (R172). -/
def donorOverloadAction (ib : Nat) (s : State) : State × Nat :=
  let c := ibChain s ib
  let a := (s.rf.chains.get c).atten
  let s1 := s.modCl (fun x => { x with raises := x.raises.mod c (· + 1) })
  if (boundSlots s).any (fun p => p.2.kind == some .chainGain && p.2.target == c && slotEnabled p.2) then (s1, 0)
  else if 24 ≤ a then
    ((fedBy s ib).foldl (fun acc e => setBackoff { cause := .donorOverload, unit := ebUnit e, inst := ib, amount := 300 } acc) s1, 0)
  else ((requestAtten c (min 24 (a + 6)) s1).1, min 24 (a + 6) - a)

/-- The member of a MEMBER_LOST has its ID held (R281). -/
def holdMember (m : Nat) (s : State) : State :=
  s.modFl (fun f => { f with members := f.members.mod m (fun o => o.map (fun r =>
    if r.state = .joined then { r with state := .heldLost, holdEnd := now s + tcOfS f.config.lostHold } else r)) })

/-- The own actions of the classes of the power stage and of the units outside the signal path (R374). -/
def doOwnSystem (cls : Nat) (u : UnitId) (s : State) : State × Nat :=
  match cls with
  | 0x65 => (if s.ps.derate then setBackoff { cause := .life, unit := chainUnit (8 + u.index), inst := 0, amount := 300 }
      (modCas u.index (fun x => { x with derated := true }) s) else s, 0)
  | 0x70 => (applyThermal s, 0)
  | 0x72 => (if u.kind = .converter then s.modHk (fun h => { h with excluded := h.excluded.set u.index true })
      else s.modHk (fun h => { h with sensors := h.sensors.mod u.index (fun y => { y with failed := true }) }), 0)
  | 0x80 => (if (s.fl.lanes.get u.index).state = .up then retrainLane u.index s else s, 0)
  | 0x81 => (holdMember u.index s, 0)
  | 0x83 => (placementTrigger s, 0)
  | 0x91 => ((stopDrain s).modMem (fun m => { m with mounted := false }), 0)
  | 0xA0 => (bellFaultAction s, 0)
  | 0xB0 => (s.modSys (fun y => { y with wdtAt := y.wdtAt <|> some (now s + tcOfMs 10) }), 0)
  | 0xB1 => (s.modSys (fun y => { y with keys := { y.keys with locked := true } }), 0)
  | _ => (s, 0)

/-- The own action of a class on a unit, as its chapter defines it; what it added to an attenuator, dB. Where the detector has
carried the action out already, it is not done twice. -/
def doOwn (cls : Nat) (u : UnitId) (s : State) : State × Nat :=
  let band : Dir := if u.kind = .ingress then .ingress else .egress
  match cls with
  | 0x12 => (if 8 ≤ u.index then setBackoff { cause := .image, unit := u, inst := 0, amount := 300 } s else s, 0)
  | 0x20 => (reinitialise band u.index s, 0)
  | 0x21 =>
    let s1 := modBand band u.index (fun b => { b with detInvalid := true, detMean := none, detPeak := none }) s
    (if band = .egress then setBackoff { cause := .detector, unit := u, inst := 0, amount := 300 } s1 else s1, 0)
  | 0x22 =>
    let t := u.index - 8
    let d := s.ce.dpd.get t
    let s1 := if d.state = .adapting ∨ d.state = .frozen then modDpd t (fun x => { x with state := .held }) s else s
    (if (s1.ce.dpd.get t).state = .held then setBackoff { cause := .dpd, unit := u, inst := 0, amount := 300 } s1 else s1, 0)
  | 0x32 => (setBackoff { cause := .canceller, unit := u, inst := 0, amount := 300 } s, 0)
  | 0x33 => (modLoop u.index (fun l => { l with held := true }) s, 0)
  | 0x40 => (noiseBackoff u.index true s, 0)
  | 0x42 => donorOverloadAction u.index s
  | _ => doOwnSystem cls u s

/-- The own action of a class ends, unless its chapter keeps it longer (R116, R232, R250, R466). -/
def undoOwn (cls : Nat) (u : UnitId) (s : State) : State :=
  let drop (c : BackoffCause) (v : UnitId) : State := dropBackoffs (fun x => x.cause == c && x.unit == v) s
  let band : Dir := if u.kind = .ingress then .ingress else .egress
  match cls with
  | 0x12 => drop .image u
  | 0x21 => modBand band u.index (fun b => { b with detInvalid := false }) (drop .detector u)
  | 0x32 => drop .canceller u
  | 0x33 => modLoop u.index (fun l => { l with held := false }) s
  | 0x40 => noiseBackoff u.index false s
  | 0x41 => donorMute u.index false s
  | 0x42 => dropBackoffs (fun x => x.cause == .donorOverload && x.inst == u.index) s
  | 0x70 => applyThermal s
  | 0x72 => if u.kind = .converter then s.modHk (fun h => { h with excluded := h.excluded.set u.index false }) else s
  | _ => (match degradeScope u with
    | some v => if noOwnAction.contains cls then drop (.degrade cls) v else s
    | none => s)

/-- What DONOR_OVERLOAD added to the attenuator of a chain goes, and its count R_o with it (R172, R188). -/
def undoAtten (s : State) (a : OwnAction) : State :=
  if a.cls = 0x42 then
    let c := ibChain s a.unit.index
    let s1 := s.modCl (fun x => { x with raises := x.raises.mod c (· - 1) })
    if a.amount = 0 then s1 else (requestAtten c ((s1.rf.chains.get c).atten - a.amount) s1).1
  else s

/-- Actions that `f` selects end; a class's action on a unit goes with the last of them. -/
def dropActions (f : OwnAction → Bool) (s : State) : State :=
  let gone := s.fault.actions.filter f
  let rest := s.fault.actions.filter (fun a => !f a)
  let s1 := gone.foldl undoAtten (s.modFault (fun x => { x with actions := rest }))
  let pairs := gone.foldl (fun acc a => if acc.contains (a.cls, a.unit) then acc else acc ++ [(a.cls, a.unit)]) []
  (pairs.filter (fun p => !rest.any (fun a => a.cls == p.1 && a.unit == p.2))).foldl (fun acc p => undoOwn p.1 p.2 acc) s1

/-- A reaction is released: its action, back-off and pen reason go (R387). -/
def releaseHandle (h : Nat) (s : State) : State :=
  dropPens (fun p => p.reason == .entry h)
    (dropActions (fun a => a.handle == some h) (modEntry h (fun e => { e with reaction := false }) s))

/-- An entry that is ENDED is released by its policy or once it is ACKED, and deleted once it is ACKED (R387). -/
def reviewEntry (h : Nat) (s : State) : State :=
  match s.fault.entries.find? (fun e => e.handle == h) with
  | none => s
  | some e =>
    if e.active then s
    else
      let s1 := if e.acked ∨ (classConfig s.fault e.cls).manual = false then releaseHandle h s else s
      if e.acked then s1.modFault (fun f => { f with entries := f.entries.filter (fun x => x.handle != h) }) else s1

/-- An entry is acknowledged, with its FAULT_ACKED record (R387). -/
def ackEntry (s : State) (e : FaultEntry) : State :=
  if e.acked then s
  else reviewEntry e.handle (submitFault 0xF1 (sourceIndex (classSubsystem e.cls) e.unit.index) e.severity 0
    [unitCode e.unit, 0, 0, e.handle, e.cls] (modEntry e.handle (fun x => { x with acked := true }) s))

/-! ## Consequence windows (R21, R381–R384) -/

/-- The subsystems that list a subsystem as a provider (R21); the gain stacks count as part of the channel engine. -/
def dependents (n : Nat) : List Nat :=
  match n with
  | 0 => [1, 3]
  | 1 => [2, 3]
  | 2 => [3, 1]
  | 5 => [3, 4, 1]
  | 6 => [2, 3, 4, 1, 0, 7]
  | 7 => [1, 6]
  | 8 => [7]
  | 9 => [2]
  | 10 => List.range 11
  | _ => []

/-- The subsystems of the units on which a reaction acts. -/
def actedOn (cls : Nat) (u : UnitId) : List Nat :=
  if cls = 0x82 then [1]
  else if cls = 0x42 then [0, 1]
  else
    match u.kind with
    | .part => [1]
    | .chain => [0, 1]
    | .ingress | .egress => [1]
    | .canceller => [2]
    | .slot => [3]
    | .cassette => [4, 1]
    | .converter | .sensor => [5]
    | .supply => if u.index ≤ 69 then [0, 1] else [7]
    | .lane | .member | .flow | .pairLink => [7]
    | .extent | .archive => [8]
    | .bell => [9]
    | .logbook => [10]

/-- The units of a rail's fence set (table *Supply sense groups*). -/
def supplyUnits (ch : Nat) : List UnitId :=
  if within 62 69 ch then
    let k := (ch - 62) % 4
    [chainUnit (2 * k), chainUnit (2 * k + 1), chainUnit (8 + 2 * k), chainUnit (9 + 2 * k)]
  else if within 74 76 ch then (List.range 8).map (fun i => laneUnit (i + 8 * (ch - 74)))
  else if ch = 77 then (List.range 24).map laneUnit
  else [partUnit]

/-- The fence set of a class and unit (R374, R40). -/
def fenceSet (cls : Nat) (u : UnitId) : List UnitId :=
  if cls = 0x71 then supplyUnits u.index else if cls = 0x82 then [tddFence] else [u]

/-- The fence set is the part (R376). -/
def fencesPart (s : State) (cls : Nat) (u : UnitId) : Bool :=
  (fenceSet cls u).any (fun v => v == partUnit || v == memberUnit (ownMember s))

/-- The mask of a reaction's window (R381). -/
def windowMask (s : State) (cls : Nat) (u : UnitId) (sev : Severity) : BitVec 11 :=
  if sev = 4 ∨ (sev = 3 ∧ fencesPart s cls u) then 0x7FF
  else
    let a := actedOn cls u
    BitVec.ofNat 11 (maskOf (a ++ a.flatMap dependents))

/-- The oldest open window in which a raise is CONSEQUENTIAL (R382). -/
def parentWindow (f : FaultState) (r : Raise) (sev : Severity) : Option Window :=
  if 4 ≤ sev then none
  else f.windows.find? (fun w => w.mask.getLsbD (classSubsystem r.cls) && w.cycle != r.cycle)

/-! ## One collector cycle (R368, R379–R386) -/

/-- A raise with its effective severity and the window in which it is CONSEQUENTIAL. -/
structure Graded where
  r      : Raise
  sev    : Severity
  parent : Option Window

/-- Record order: descending severity, then ascending source index (R379). -/
def gradedBefore (a b : Graded) : Bool :=
  decide (b.sev < a.sev) || (a.sev == b.sev && decide (raiseSource a.r ≤ raiseSource b.r))

/-- A raise takes its place in record order. -/
def insertGraded (g : Graded) : List Graded → List Graded
  | [] => [g]
  | x :: rest => if gradedBefore x g then x :: insertGraded g rest else g :: x :: rest

/-- Flags of a raise's record (R390). -/
def raiseFlags (r : Raise) (same conseq esc : Bool) : Nat :=
  flag same + 2 * flag conseq + 4 * flag esc + 8 * flag r.direct + 16 * flag r.injected + 32 * flag r.afresh

/-- A full table gives up the ENDED entry of WARN or lower whose condition ended earliest; taking it acknowledges it (R370). -/
def makeRoom (s : State) : State :=
  if s.fault.entries.length < 256 then s
  else
    let l := s.fault.entries.filter (fun e => !e.active && decide (e.severity ≤ 1))
    match l with
    | [] => s
    | e :: rest => ackEntry s (rest.foldl (fun m x => if x.lastTime < m.lastTime then x else m) e)

/-- A CONSEQUENTIAL raise is recorded with its window's parent and noted in the window; nothing else follows (R382). -/
def recordConsequential (s : State) (g : Graded) (w : Window) (same : Bool) (t : Nat) : State × Nat :=
  let p := writeFault g.r.cls (raiseSource g.r) (baseSeverity s.fault g.r) (raiseFlags g.r same true false)
    [unitCode g.r.unit, w.parent, 0, 0, g.r.detail4, g.r.detail5] t s
  (p.1.modFault (fun f => { f with
    conseq := f.conseq + 1, raises := f.raises + 1, lastSeq := p.2
    windows := f.windows.map (fun x => if x.order = w.order then { x with
      count := x.count + 1
      raised := g.r :: x.raised.filter (fun y => !(y.cls == g.r.cls && y.unit == g.r.unit)) } else x) }), p.2)

/-- An entry takes a raise: a repeat of an existing one, or a new one; none when the table is full (R370, R372). -/
def enterRaise (g : Graded) (seq t : Nat) (s : State) : State × Option Nat :=
  match entryOf s.fault g.r.cls g.r.unit with
  | some e => (modEntry e.handle (fun x => { x with
      severity := g.sev, active := true, reaction := true, escalated := x.escalated || decide (x.severity < g.sev)
      injected := g.r.injected, lastSeq := seq, raises := x.raises + 1, lastTime := t }) s, some e.handle)
  | none =>
    if 256 ≤ s.fault.entries.length then (s.modFault (fun f => { f with overflow := f.overflow + 1 }), none)
    else
      let h := s.fault.handles + 1
      (s.modFault (fun f => { f with
        handles := h
        entries := f.entries ++ [{ cls := g.r.cls, unit := g.r.unit, severity := g.sev, active := true, acked := false
                                   reaction := true, escalated := false, injected := g.r.injected, firstSeq := seq
                                   lastSeq := seq, raises := 1, firstTime := t, lastTime := t, handle := h }] }), some h)

/-- A raise is recorded, enters the table, and orders its reaction; from DEGRADE on a window opens (R370–R381). -/
def recordRaise (same : Bool) (t : Nat) (acc : State × List Nat) (g : Graded) : State × List Nat :=
  match g.parent with
  | some w =>
    let p := recordConsequential acc.1 g w same t
    (p.1, acc.2 ++ [p.2])
  | none =>
    let old := entryOf acc.1.fault g.r.cls g.r.unit
    let s0 := if old.isSome then acc.1 else makeRoom acc.1
    let esc := match old with
      | some e => !e.acked && decide (e.severity < g.sev)
      | none => false
    let order := s0.fault.orders + 1
    let room := old.isSome || decide (s0.fault.entries.length < 256)
    let handle := match old with
      | some e => e.handle
      | none => if room then s0.fault.handles + 1 else 0
    let fl := raiseFlags g.r same false esc
    let params := [unitCode g.r.unit, 0, order, handle, g.r.detail4, g.r.detail5]
    let p := writeFault g.r.cls (raiseSource g.r) g.sev fl params t s0
    let q := enterRaise g p.2 t p.1
    let s1 := q.1.modFault (fun f => { f with
      orders := order, raises := f.raises + 1, lastSeq := p.2
      classRaises := f.classRaises.mod g.r.cls (satInc 16)
      escalated := if esc then f.escalated + 1 else f.escalated
      reactions := f.reactions ++ [{ order, cls := g.r.cls, unit := g.r.unit, severity := g.sev, seq := p.2
                                     cycle := g.r.cycle, handle := q.2, detail4 := g.r.detail4, detail5 := g.r.detail5 }]
      firstFault := if f.firstFault.isNone ∧ f.ffLevel ≤ g.sev then
          some { seq := p.2, epoch := q.1.log.epoch, code := g.r.cls, mono := t, wall := wallAt q.1 t
                 source := raiseSource g.r, severity := g.sev, flags := fl, params := params6 params }
        else f.firstFault
      windowFull := if 2 ≤ g.sev ∧ 32 ≤ f.windows.length then f.windowFull + 1 else f.windowFull
      windows := if 2 ≤ g.sev ∧ f.windows.length < 32 then
          f.windows ++ [{ parent := p.2, mask := windowMask q.1 g.r.cls g.r.unit g.sev, cycle := g.r.cycle, order
                          closeAt := none, count := 0, raised := [] }]
        else f.windows })
    let s2 := slotFault g.r.unit (captureTrigger trigFault t
      (fun c => c.classes.contains g.r.cls && decide (c.severity ≤ g.sev)) s1)
    let s3 := if 1 ≤ g.sev then setIrq irqFault (postEvent
        { kind := 3, mailbox := 0xFF, code := g.r.cls, tag := p.2, status := g.sev, param := unitCode g.r.unit } s2) else s2
    (s3, acc.2 ++ [p.2])

/-- The end of a condition is recorded and its entry becomes ENDED (R386); one whose raise was masked is ignored (R385). -/
def recordEnd (t : Nat) (s : State) (c : Condition) : State :=
  let e := entryOf s.fault c.cls c.unit
  if e.isNone ∧ s.fault.maskedNow.contains c then
    s.modFault (fun f => { f with maskedNow := f.maskedNow.filter (· != c) })
  else
    let r : Raise := { cls := c.cls, unit := c.unit }
    let sev := (e.map (·.severity)).getD (baseSeverity s.fault r)
    let p := writeFault 0xF0 (raiseSource r) sev 0 [unitCode c.unit, 0, 0, (e.map (·.handle)).getD 0, c.cls] t s
    let s1 := p.1.modFault (fun f => { f with
      lastSeq := p.2, maskedNow := f.maskedNow.filter (· != c)
      windows := f.windows.map (fun w => { w with
        raised := w.raised.filter (fun y => !(y.cls == c.cls && y.unit == c.unit)) }) })
    match e with
    | some x => reviewEntry x.handle (modEntry x.handle (fun y => { y with active := false, lastSeq := p.2, lastTime := t }) s1)
    | none => s1

/-- The cycle in which an item was latched. -/
def latchCycle : Latch → Nat
  | .raise r => r.cycle
  | .ended _ c _ => c

/-- The raises among latched items. -/
def raisesOf (l : List Latch) : List Raise := l.filterMap (fun x => match x with
  | .raise r => some r
  | .ended _ _ _ => none)

/-- The ends among latched items that come before, or not before, a later raise of their pair. -/
def endsOf (early : Bool) : List Latch → List Condition
  | [] => []
  | .raise _ :: rest => endsOf early rest
  | .ended c _ _ :: rest =>
    let before := (raisesOf rest).any (fun r => r.cls == c.cls && r.unit == c.unit)
    if before = early then c :: endsOf early rest else endsOf early rest

/-- Raises with their severities and windows, in record order. -/
def gradeRaises (s : State) (l : List Raise) : List Graded :=
  (l.map (fun r =>
    let sev := raiseSeverity s.fault r
    { r, sev, parent := parentWindow s.fault r sev : Graded })).foldl (fun acc g => insertGraded g acc) []

/-- The LOG_MEDIA for which the writer waits (R405). -/
def awaitedMedia (s : State) (r : Raise) : Bool := s.log.mediaWait && r.cls == 0xB2 && r.unit == logbookUnit

/-- Everything latched in cycle `n` is ordered, classified and recorded; an awaited LOG_MEDIA comes first, and the submissions that
waited for it last (R405). -/
def processCycle (s : State) (n : Nat) : State :=
  let items := s.fault.latched.filter (fun x => latchCycle x == n)
  let t := n * tcPerCycle
  let s0 := s.modFault (fun f => { f with latched := f.latched.filter (fun x => latchCycle x != n) })
  let media := (raisesOf items).filter (awaitedMedia s0)
  let others := (raisesOf items).filter (fun r => !awaitedMedia s0 r)
  let p0 := (gradeRaises s0 media).foldl
    (recordRaise (decide (1 < (media ++ others.filter (fun r => !maskedRaise s0 r)).length)) t) (s0, [])
  let s1 := (endsOf true items).foldl (recordEnd t) p0.1
  let hidden := others.filter (maskedRaise s1)
  let live := others.filter (fun r => !maskedRaise s1 r)
  let s2 := s1.modFault (fun f => { f with
    masked := f.masked + hidden.length, maskedNow := f.maskedNow ++ hidden.map (fun r => ⟨r.cls, r.unit⟩) })
  let p := (gradeRaises s2 live).foldl (recordRaise (decide (1 < (media ++ live).length)) t) (s2, p0.2)
  let s3 := match s0.fault.firstFault, p.1.fault.firstFault with
    | none, some x => p.1.modFault (fun f => { f with companions := (p.2.filter (· != x.seq)).take 3 })
    | _, _ => p.1
  let s4 := (endsOf false items).foldl (recordEnd t) s3
  if media.isEmpty then s4 else drainSubmissions (s4.modLog (fun l => { l with mediaWait := false }))

/-- The cycles with latched items before cycle `n`, in order. -/
def waitingCycles (f : FaultState) (n : Nat) : List Nat :=
  (f.latched.foldl (fun acc x => let c := latchCycle x
    if c < n ∧ !acc.contains c then acc ++ [c] else acc) []).mergeSort (fun a b => decide (a ≤ b))

/-- The next collector cycle begins: records waiting for the writer are committed, and what was latched before is recorded
(R366, R368, R389). -/
def collectorCycle (s : State) : State :=
  if s.sys.power = .dormant then s
  else
    let s1 := drainSubmissions (advanceTo ((now s / tcPerCycle + 1) * tcPerCycle) s)
    refreshFaultN ((waitingCycles s1.fault (cycleNow s1)).foldl processCycle s1)

def execCollectorCycle (s : State) : Host.Outcome State Fault Refusal := .next (collectorCycle s)

/-! ## Reactions (R374–R378) -/

/-- The HALT state begins (R377). A release that was pending is void. -/
def enterHalt (seq : Nat) (s : State) : State :=
  refreshGains (s.modFault (fun f => { f with
    halt := f.halt <|> some (seq, now s), haltRelease := none, haltMuted := (ebs s).map (·.1) }))

/-- A reaction acts (R374). -/
def performReaction (r : Reaction) (s : State) : State :=
  let own := doOwn r.cls r.unit
  let none_ := noOwnAction.contains r.cls
  let p := own s
  let s1 := match none_ && decide (2 ≤ r.severity), degradeScope r.unit with
    | true, some v => setBackoff { cause := .degrade r.cls, unit := v, inst := 0, amount := 300 } p.1
    | _, _ => p.1
  let s2 := s1.modFault (fun f => { f with
    actions := f.actions ++ [{ cls := r.cls, unit := r.unit, handle := r.handle, amount := p.2 }] })
  let reason : PenReason := match r.handle with
    | some h => .entry h
    | none => .untracked r.cls
  let s3 := if r.severity = 3 then (fenceSet r.cls r.unit).foldl (penUnit reason) s2 else s2
  let s4 := if r.severity = 3 ∧ r.cls = 0x41 then donorMute r.unit.index true s3 else s3
  let s5 := if r.cls = 0x70 then applyThermal s4 else s4
  if 4 ≤ r.severity then enterHalt r.seq s5 else s5

/-- The entry of a reaction is no longer in force: it was released before the reaction began. -/
def releasedBefore (f : FaultState) (r : Reaction) : Option Nat :=
  r.handle.filter (fun h => !f.entries.any (fun e => e.handle == h && e.reaction))

/-- The oldest reaction that has not begun begins, two cycles after its raise (R368). One below DEGRADE is complete with it. -/
def reactionStart (s : State) : State :=
  match s.fault.reactions.find? (fun r => r.startedAt.isNone) with
  | none => s
  | some r =>
    let s1 := advanceTo ((r.cycle + 2) * tcPerCycle) s
    let s2 := performReaction r s1
    let s3 := s2.modFault (fun f => { f with
      reactions := if r.severity < 2 then f.reactions.filter (fun x => x.order != r.order)
        else f.reactions.map (fun x => if x.order = r.order then { x with startedAt := some (now s1) } else x) })
    refreshFaultN (match releasedBefore s3.fault r with
      | some h => releaseHandle h s3
      | none => s3)

def execReactionStart (s : State) : Host.Outcome State Fault Refusal := .next (reactionStart s)

/-- A flow unit has had a block handled since a reaction began (R378). -/
def flowHandled (t : Nat) (d : Descriptor) : Bool := d.place.kind == 0 || decide (t < d.handledAt)

/-- A unit fenced at a time is out: what it contains is silent, its cassette is PINCHED, and a block of its flow units has been
handled (R378). -/
def unitOut (s : State) (t : Nat) (u : UnitId) : Bool :=
  if u = tddFence then (ebs s).all (fun p => p.2.params.tdd.isNone || silent s p.1)
  else
    (ebsWithin s u).all (silent s) &&
      (match u.kind with
       | .cassette => (cas s u.index).pa == .pinched || (cas s u.index).pa == .absent
       | .flow => flowHandled t (s.dv.desc.get u.index)
       | .part => allPinched s && s.dv.desc.cells.all (fun p => flowHandled t p.2)
       | .member => u.index != ownMember s || (allPinched s && s.dv.desc.cells.all (fun p => flowHandled t p.2))
       | _ => true)

/-- A reaction that has begun is complete (R378). -/
def reactionDone (s : State) (r : Reaction) : Bool :=
  match r.startedAt with
  | none => false
  | some t =>
    if 4 ≤ r.severity then (ebs s).all (fun p => silent s p.1) && (List.range 8).all (fun n => !gateOn s n)
    else if r.severity = 3 then (fenceSet r.cls r.unit).all (unitOut s t) else true

/-- The oldest reaction that is complete now leaves the list; its window closes 2 ms later (R378, R381). -/
def reactionComplete (s : State) : State :=
  match s.fault.reactions.find? (reactionDone s) with
  | none => s
  | some r => s.modFault (fun f => { f with
      reactions := f.reactions.filter (fun x => x.order != r.order)
      windows := f.windows.map (fun w => if w.order = r.order then { w with closeAt := some (now s + 3932160) } else w) })

def execReactionComplete (s : State) : Host.Outcome State Fault Refusal := .next (reactionComplete s)

/-- The window that closes first closes; conditions raised in it that have not ended are raised afresh (R383). -/
def consequenceWindowClose (s : State) : State :=
  let l := s.fault.windows.filterMap (fun w => w.closeAt.map (fun t => (t, w)))
  match l with
  | [] => s
  | x :: rest =>
    let m := rest.foldl (fun a b => if b.1 < a.1 then b else a) x
    let s1 := advanceTo m.1 s
    s1.modFault (fun f => { f with
      windows := f.windows.filter (fun w => w.order != m.2.order)
      latched := f.latched ++ m.2.raised.reverse.map (fun r => .raise { r with afresh := true, cycle := cycleNow s1 }) })

def execConsequenceWindowClose (s : State) : Host.Outcome State Fault Refusal := .next (consequenceWindowClose s)

/-- The release frame of a HALT: the mute source clears, and what it muted qualifies again (R377). -/
def haltReleaseFrame (s : State) : State :=
  match s.fault.haltRelease with
  | none => s
  | some f =>
    let s1 := advanceToAir ⟨f, 0⟩ s
    let s2 := (submitFault 0xF3 (sourceIndex 10 0) 0 0 [unitCode partUnit] s1).modFault (fun x => { x with
      halt := none, haltRelease := none, haltMuted := [] })
    refreshFaultN (refreshGains ((ebs s2).foldl (fun acc p => modLoop p.1 (fun l => { l with
      qualMode := if l.qualMode = some .paddock then l.qualMode else some .halt
      validRun := 0, settled := false, qualified := false }) acc) s2))

def execHaltReleaseFrame (s : State) : Host.Outcome State Fault Refusal := .next (haltReleaseFrame s)

/-! ## Units and classes of the commands (R510, R515) -/

/-- A unit exists (R515). -/
def unitExists (s : State) (u : UnitId) : Bool :=
  match u.kind with
  | .part | .bell | .logbook => u.index == 0
  | .chain => decide (u.index < 16)
  | .canceller => decide (u.index < 32)
  | .cassette => decide (u.index < 8)
  | .converter => decide (u.index < 2)
  | .sensor | .lane => decide (u.index < 24)
  | .supply => within 46 77 u.index
  | .extent => decide (u.index < 768)
  | .ingress => ibExists s u.index
  | .egress => ebExists s u.index
  | .slot => decide (u.index < 512) && (slotOf s u.index).kind.isSome
  | .member => s.fl.memberId == some u.index || (activeHub s && (s.fl.members.get u.index).isSome)
  | .flow => (s.dv.desc.get u.index).place.kind != 0
  | .archive => u.index == 0 && s.mem.enable
  | .pairLink => u.index == 0 && s.pair.config.enable

/-- A unit is of a kind that R510 gives for a class. -/
def unitFits (s : State) (cls : Nat) (u : UnitId) : Bool :=
  let ebDl (up : Bool) : Bool := if up then ulChain s (ebChain s u.index) else true
  match u.kind with
  | .chain => [0x10, 0x11, 0x12, 0x13, 0x14].contains cls || ([0x22, 0x43, 0x44].contains cls && decide (8 ≤ u.index)) ||
      (cls == 0x51 && decide (u.index < 8))
  | .ingress => [0x20, 0x21, 0x23, 0x51].contains cls || (cls == 0x31 && s.sys.role == .hub) ||
      ((cls == 0x41 || cls == 0x42) && donorFacing s (ibChain s u.index))
  | .egress => [0x20, 0x21, 0x23, 0x30, 0x31, 0x32, 0x33, 0x51].contains cls || (cls == 0x40 && ebDl true)
  | .slot => cls == 0x50 || cls == 0x52
  | .cassette => within 0x60 0x65 cls
  | .supply => cls == 0x71
  | .converter | .sensor => cls == 0x72
  | .lane => cls == 0x80
  | .member => cls == 0x81
  | .flow => cls == 0x83
  | .extent => cls == 0x90
  | .archive => cls == 0x91
  | .bell => cls == 0xA0
  | .logbook => cls == 0xB2
  | .pairLink => cls == 0xC0
  | .part => [0x70, 0x73, 0x82, 0xB0, 0xB1].contains cls
  | .canceller => false

/-- The unit that a u32 field names, where it exists. -/
def existingUnit (s : State) (n : Nat) : Option UnitId := (unitOfCode n).filter (unitExists s)

/-- Fault commands are accepted in every state but DORMANT. -/
def faultPower : List PowerState := [.active, .quiet, .standby]

/-! ## Commands -/

/-- FAULT_CLASS_CONFIG (0x0E01). -/
def specFaultClassConfig : CommandSpec where
  opcode := 0x0E01
  role := some .admin
  power := faultPower
  length := fixedLength 4
  checks := fun _ q =>
    let p := q.payload
    let row := classRow (u8 p 0)
    [field 0 row.isSome, field 1 (within ((row.map (·.floor)).getD 0) 4 (u8 p 1)),
     field 2 (within 3 4 (u8 p 2) && (u8 p 1 != 4 || u8 p 2 == 4)), field 3 (within 0 1 (u8 p 3))]
  effect := fun s q =>
    let p := q.payload
    (s.modFault (fun f => { f with classes := f.classes.set (u8 p 0) (some ⟨u8 p 1, u8 p 2, u8 p 3 == 1⟩) }), {})

def execFaultClassConfig (r : HostRequest) (s : State) : Host.Outcome State Fault Refusal :=
  .next (submit specFaultClassConfig r s)

/-- FAULT_POLICY (0x0E02). -/
def specFaultPolicy : CommandSpec where
  opcode := 0x0E02
  role := some .admin
  power := faultPower
  length := fixedLength 4
  checks := fun _ q =>
    [field 0 (within 1 4 (u8 q.payload 0)), field 1 (within 1 4 (u8 q.payload 1)), field 2 (zeros q.payload 2 2)]
  effect := fun s q =>
    (refreshFaultN (s.modFault (fun f => { f with faultNLevel := u8 q.payload 0, ffLevel := u8 q.payload 1 })), {})

def execFaultPolicy (r : HostRequest) (s : State) : Host.Outcome State Fault Refusal := .next (submit specFaultPolicy r s)

/-- FAULT_ACK (0x0E03). -/
def specFaultAck : CommandSpec where
  opcode := 0x0E03
  role := some .operate
  power := faultPower
  length := fixedLength 8
  checks := fun s q =>
    let p := q.payload
    let m := u8 p 0
    [field 0 (within 0 2 m), field 1 (if m = 1 then (classRow (u8 p 1)).isSome else u8 p 1 == 0), field 2 (zeros p 2 2),
     field 4 (if m = 0 then s.fault.entries.any (fun e => e.handle == u32 p 4) else u32 p 4 == 0)]
  effect := fun s q =>
    let p := q.payload
    let m := u8 p 0
    let l := s.fault.entries.filter (fun e => !e.acked &&
      (if m = 0 then e.handle == u32 p 4 else if m = 1 then e.cls == u8 p 1 else true))
    let s1 := refreshFaultN (l.foldl ackEntry s)
    (s1, { payload := le 2 l.length ++ le 2 (s.fault.entries.length - s1.fault.entries.length) })

def execFaultAck (r : HostRequest) (s : State) : Host.Outcome State Fault Refusal := .next (submit specFaultAck r s)

/-- Unit kinds that FAULT_UNIT_PEN accepts. -/
def pennable (u : UnitId) : Bool :=
  [UnitKind.chain, .ingress, .egress, .cassette, .lane, .flow].contains u.kind

/-- FAULT_UNIT_PEN (0x0E04). -/
def specFaultUnitPen : CommandSpec where
  opcode := 0x0E04
  role := some .operate
  power := faultPower
  length := fixedLength 4
  states := roleSet
  checks := fun s q => [field 0 ((existingUnit s (u32 q.payload 0)).any pennable)]
  effect := fun s q =>
    match existingUnit s (u32 q.payload 0) with
    | some u => (submitFault 0xF4 (sourceIndex 10 u.index) 0 0 [unitCode u] (penUnit .host s u), {})
    | none => (s, {})

def execFaultUnitPen (r : HostRequest) (s : State) : Host.Outcome State Fault Refusal := .next (submit specFaultUnitPen r s)

/-- Handles of the entries that pen a unit, itself or by what contains it. -/
def penningEntries (s : State) (u : UnitId) : List FaultEntry :=
  let hs := (s.fault.pens.filter (fun p => p.unit == u || (containers s u).contains p.unit ||
    (p.unit == tddFence && onPattern s u))).filterMap (fun p => match p.reason with
      | .entry h => some h
      | _ => none)
  s.fault.entries.filter (fun e => hs.contains e.handle)

/-- A pen reason that no entry tracks. -/
def PenReason.isUntracked : PenReason → Bool
  | .untracked _ => true
  | _ => false

/-- Classes of what a unit holds untracked (R370). -/
def untrackedOn (s : State) (u : UnitId) : List Nat :=
  (s.fault.actions.filter (fun a => a.handle.isNone && a.unit == u)).map (·.cls) ++
    s.fault.pens.filterMap (fun p => match p.reason with
      | .untracked c => if p.unit = u then some c else none
      | _ => none)

/-- R388: the host's pen reasons and everything untracked go; ENDED entries that pen the unit are acknowledged; a condition
that still holds is raised afresh in the next cycle (R370). -/
def releaseUnit (u : UnitId) (s : State) : State :=
  let classes := untrackedOn s u
  let s1 := dropActions (fun a => a.handle.isNone && a.unit == u) s
  let s2 := dropPens (fun p => p.unit == u && (p.reason == .host || p.reason.isUntracked)) s1
  let s3 := ((penningEntries s2 u).filter (fun e => !e.active)).foldl ackEntry s2
  let again := s3.fault.conditions.filter (fun r => r.unit == u && classes.contains r.cls)
  s3.modFault (fun f => { f with
    latched := f.latched ++ again.map (fun r => .raise { r with afresh := true, cycle := cycleNow s3 + 1 }) })

/-- FAULT_UNIT_RELEASE (0x0E05). -/
def specFaultUnitRelease : CommandSpec where
  opcode := 0x0E05
  role := some .operate
  power := faultPower
  length := fixedLength 4
  states := fun s q => match existingUnit s (u32 q.payload 0) with
    | some u => penned s u || !(untrackedOn s u).isEmpty
    | none => true
  checks := fun s q =>
    [field 0 (existingUnit s (u32 q.payload 0)).isSome,
     need .eConflict (match existingUnit s (u32 q.payload 0) with
       | some u => !(penningEntries s u).any (·.active)
       | none => true)]
  effect := fun s q =>
    match existingUnit s (u32 q.payload 0) with
    | some u => (refreshFaultN (submitFault 0xF2 (sourceIndex 10 u.index) 0 0 [unitCode u] (releaseUnit u s)), {})
    | none => (s, {})

def execFaultUnitRelease (r : HostRequest) (s : State) : Host.Outcome State Fault Refusal :=
  .next (submit specFaultUnitRelease r s)

/-- FAULT_HALT_RELEASE (0x0E06). -/
def specFaultHaltRelease : CommandSpec where
  opcode := 0x0E06
  role := some .admin
  power := faultPower
  length := fixedLength 4
  states := fun s _ => s.fault.halt.isSome
  checks := fun s q =>
    [field 0 (u32 q.payload 0 == 0 || decide (4 ≤ frameDistance s (u32 q.payload 0))),
     need .eConflict (!s.fault.entries.any (fun e => e.active && e.severity == 4))]
  effect := fun s q =>
    let f := if u32 q.payload 0 = 0 then frameBoundaryAhead s 4 else u32 q.payload 0
    let s1 := (s.fault.entries.filter (fun e => e.severity == 4)).foldl ackEntry s
    (refreshFaultN (s1.modFault (fun x => { x with haltRelease := some f })), { payload := le 4 f })

def execFaultHaltRelease (r : HostRequest) (s : State) : Host.Outcome State Fault Refusal :=
  .next (submit specFaultHaltRelease r s)

/-- FAULT_FF_CLEAR (0x0E07). -/
def specFaultFfClear : CommandSpec where
  opcode := 0x0E07
  role := some .admin
  power := faultPower
  length := fixedLength 0
  effect := fun s _ =>
    (s.modFault (fun f => { f with firstFault := none, companions := [] }),
     { payload := le 4 ((s.fault.firstFault.map (·.seq)).getD 0) })

def execFaultFfClear (r : HostRequest) (s : State) : Host.Outcome State Fault Refusal := .next (submit specFaultFfClear r s)

/-- A condition that stands from an injection. -/
def injectedActive (f : FaultState) (cls : Nat) (u : UnitId) : Bool :=
  f.entries.any (fun e => e.cls == cls && e.unit == u && e.active && e.injected) ||
    f.windows.any (fun w => w.raised.any (fun r => r.cls == cls && r.unit == u && r.injected))

/-- FAULT_INJECT (0x0E08). -/
def specFaultInject : CommandSpec where
  opcode := 0x0E08
  role := some .admin
  power := faultPower
  lifecycle := [.provisioned, .returned]
  length := fixedLength 8
  checks := fun s q =>
    let p := q.payload
    [field 0 (classRow (u8 p 0)).isSome, field 1 (within 0 1 (u8 p 1)), field 2 (zeros p 2 2),
     field 4 ((existingUnit s (u32 p 4)).any (unitFits s (u8 p 0))),
     need .eConflict (u8 p 1 == 0 || (match existingUnit s (u32 p 4) with
       | some u => injectedActive s.fault (u8 p 0) u
       | none => true))]
  effect := fun s q =>
    let p := q.payload
    match existingUnit s (u32 p 4) with
    | some u =>
      let item : Latch := if u8 p 1 = 0 then .raise { cls := u8 p 0, unit := u, injected := true, cycle := cycleNow s + 1 }
        else .ended ⟨u8 p 0, u⟩ (cycleNow s + 1) true
      (s.modFault (fun f => { f with latched := f.latched ++ [item] }), {})
    | none => (s, {})

def execFaultInject (r : HostRequest) (s : State) : Host.Outcome State Fault Refusal := .next (submit specFaultInject r s)

/-- The eight words of an entry block (table *Entry block*). -/
def entryWords (e : FaultEntry) : List Nat :=
  [e.cls + 256 * e.severity + 2048 * flag e.active + 4096 * flag e.acked + 8192 * flag e.reaction + 16384 * flag e.escalated +
     32768 * flag e.injected + 65536 * classSubsystem e.cls + 1048576,
   unitCode e.unit, e.firstSeq, e.lastSeq, e.raises, e.firstTime % 4294967296, e.lastTime % 4294967296, e.handle]

/-- FAULT_TABLE_READ (0x0E09). -/
def specFaultTableRead : CommandSpec where
  opcode := 0x0E09
  role := some .monitor
  power := faultPower
  length := fixedLength 4
  checks := fun _ q => [field 0 (within 0 255 (u16 q.payload 0)), field 2 (within 1 60 (u16 q.payload 2))]
  effect := fun s q =>
    let l := (s.fault.entries.drop (u16 q.payload 0)).take (u16 q.payload 2)
    (s, { payload := le 2 l.length ++ le 2 s.fault.entries.length ++ ((l.map entryWords).flatten).flatMap (le 4) })

def execFaultTableRead (r : HostRequest) (s : State) : Host.Outcome State Fault Refusal := .next (submit specFaultTableRead r s)

end Sys2Proof.Machine
end

