-- ==== Sys2Proof/Machine/HostIf.lean ====
section
/-! DEFINITION. The host interface (R411–R439): register writes, doorbells, sessions and nonces, interrupts, the event
ring's registers, the PCIe side's reset, site inputs, and the SYS commands. Reads of the host address map stand in
`TelemetrySystem.lean`. -/

namespace Sys2Proof.Machine

open Sys2Proof

/-! ## Request areas and doorbells (R421–R424) -/

/-- The bytes of the request area of a mailbox. -/
def areaBytes (m : Mailbox) (n : Nat) : List Byte := (List.range n).map (fun i => BitVec.ofNat 8 (m.area.get (i / 4) / 0x100 ^ (i % 4)))

/-- The request that bytes of a request area spell (table *Request header*); bytes beyond the end read 0. -/
def requestOf (n : Nat) (path : HostPath) (b : List Byte) : HostRequest :=
  let len := u32 b 8
  { mailbox := n, path, flags := BitVec.ofNat 16 (u16 b 2), tag := u32 b 4, length := len, session := u32 b 12
    payload := bytesAt b 16 (min len 2032) }

/-- A doorbell captures the request area at that instant, or is ignored (R421, R422). -/
def ringMailbox (n : Nat) (path : HostPath) (s : State) : State :=
  if doorbellAccepted s.host n path then
    let b := areaBytes (s.host.mailboxes.get n) 2048
    capture (u16 b 0) (requestOf n path b) s
  else ignoreDoorbell n s

/-- The part answers on a path: the path has come up since the reset, its link is up, and the part is not DORMANT (R411,
R428, R445, R456). -/
def pathAnswers (s : State) (path : HostPath) : Bool :=
  (s.host.paths.get (pathCode path)).up && s.sys.power != .dormant && (path != .pcie || s.host.pcieUp) &&
    (path != .ethernet || s.host.ethUp) && path != .none

/-- A DOORBELL write rings the mailboxes of its bits, by ascending number (R424). Management Ethernet has no register
writes; its REQUEST datagrams ring (R411, R415). -/
def doorbellWrite (path : HostPath) (mask : BitVec 16) (s : State) : State :=
  if (path = .pcie ∨ path = .spi) ∧ pathAnswers s path then
    (List.range 16).foldl (fun acc n => if mask.getLsbD n then ringMailbox n path acc else acc) s
  else s

def execDoorbellWrite (path : HostPath) (mask : BitVec 16) (s : State) : Host.Outcome State Fault Refusal :=
  .next (doorbellWrite path mask s)

/-- W1C of DOORBELL_OVERRUN (R422). -/
def doorbellOverrunWrite (w : Word) (s : State) : State :=
  s.modHost (fun h => { h with overrun := h.overrun &&& ~~~(w.setWidth 16) })

def execDoorbellOverrunWrite (w : Word) (s : State) : Host.Outcome State Fault Refusal := .next (doorbellOverrunWrite w s)

/-! ## Interrupt registers (R434, R435) -/

/-- The implemented bits of IRQ_STATUS, IRQ_ENABLE and IRQ_N_ENABLE. -/
abbrev irqBits : Word := 0x001F_FFFF

/-- W1C of IRQ_STATUS. -/
def irqStatusWrite (w : Word) (s : State) : State := s.modHost (fun h => { h with irqStatus := h.irqStatus &&& ~~~w })

def execIrqStatusWrite (w : Word) (s : State) : Host.Outcome State Fault Refusal := .next (irqStatusWrite w s)

/-- IRQ_ENABLE is written: a bit that is enabled while set signals its vector. -/
def irqEnableWrite (w : Word) (s : State) : State :=
  s.modHost (fun h =>
    signalVectors { h with irqEnable := w &&& irqBits } (w &&& irqBits &&& ~~~h.irqEnable &&& h.irqStatus))

def execIrqEnableWrite (w : Word) (s : State) : Host.Outcome State Fault Refusal := .next (irqEnableWrite w s)

/-- IRQ_N_ENABLE is written; IRQ_N is the level `irqNLow` (R435). -/
def irqNEnableWrite (w : Word) (s : State) : State := s.modHost (fun h => { h with irqNEnable := w &&& irqBits })

def execIrqNEnableWrite (w : Word) (s : State) : Host.Outcome State Fault Refusal := .next (irqNEnableWrite w s)

/-- A field of an MSI-X entry is written: address low, address high, data, vector control. -/
def msixField (e : MsixEntry) (k : Nat) (v : Nat) : MsixEntry :=
  match k with
  | 0 => { e with addrLo := v }
  | 1 => { e with addrHi := v }
  | 2 => { e with data := v }
  | _ => { e with control := v }

/-- The MSI-X table is written; unmasking a vector with a pending message sends it (R434). -/
def msixWrite (word : Nat) (w : Word) (s : State) : State :=
  s.modHost (fun h =>
    let k := word / 4
    let h1 : HostState := { h with msixTable := h.msixTable.mod k (fun e => msixField e (word % 4) w.toNat) }
    if word % 4 = 3 ∧ w.getLsbD 0 = false ∧ h.msixPba.getLsbD k then
      { h1 with msixPba := h1.msixPba &&& ~~~(1#32 <<< k), out := .msix k :: h1.out }
    else h1)

/-! ## Event registers (R436) -/

/-- EVENT is set where it is due. -/
def moderate (s : State) : State := if eventDue s.host (now s) then setIrq irqEvent s else s

/-- EVT_ACK is written: a fresh hold-off starts where events stay unacknowledged. -/
def evtAckWrite (w : Word) (s : State) : State :=
  moderate (s.modHost (fun h => { h with
    evtAck := w.toNat, holdStart := if w.toNat < h.evtHead then some (now s) else none }))

def execEvtAckWrite (w : Word) (s : State) : Host.Outcome State Fault Refusal := .next (evtAckWrite w s)

/-- EVT_MODERATION is written. -/
def evtModerationWrite (w : Word) (s : State) : State :=
  moderate (s.modHost (fun h => { h with holdoff := bits 15 0 w.toNat, threshold := bits 23 16 w.toNat }))

/-- The hold-off elapses (R436). -/
def eventHoldoffExpiry (s : State) : State :=
  match s.host.holdStart with
  | some t => if s.host.evtAck < s.host.evtHead then moderate (advanceTo (t + tcOfUs s.host.holdoff) s) else s
  | none => s

def execEventHoldoffExpiry (s : State) : Host.Outcome State Fault Refusal := .next (eventHoldoffExpiry s)

/-! ## Other registers -/

/-- W1C of SITE_EDGE (R439). -/
def siteEdgeWrite (w : Word) (s : State) : State :=
  s.modHost (fun h => { h with
    siteRise := h.siteRise &&& ~~~(w.setWidth 16), siteFall := h.siteFall &&& ~~~((w >>> 16).setWidth 16) })

def execSiteEdgeWrite (w : Word) (s : State) : Host.Outcome State Fault Refusal := .next (siteEdgeWrite w s)

/-- LOG_CURSOR is written (R397). -/
def logCursorWrite (w : Word) (s : State) : State := s.modHost (fun h => { h with logCursor := w.toNat })

def execLogCursorWrite (w : Word) (s : State) : Host.Outcome State Fault Refusal := .next (logCursorWrite w s)

/-- CAP_WIN_PAGE or CAP_WIN_SLOT is written (R328). -/
def capWinWrite (page : Bool) (w : Word) (s : State) : State :=
  s.modHost (fun h => if page then { h with capWinPage := w.toNat } else { h with capWinSlot := bits 3 0 w.toNat })

def execCapWinWrite (page : Bool) (w : Word) (s : State) : Host.Outcome State Fault Refusal := .next (capWinWrite page w s)

/-- A word of a request area is written; a path reaches only its own mailboxes (R411), and the response area is read-only. -/
def areaWrite (path : HostPath) (n off : Nat) (w : Word) (s : State) : State :=
  if off < 0x800 ∧ s.host.config.paths.get n = path then
    s.modHost (fun h => { h with
      mailboxes := h.mailboxes.mod n (fun m => { m with area := m.area.set (off / 4) w.toNat }) })
  else s

/-- An aligned 32-bit write inside BAR0 (table *BAR0 registers*); read-only registers ignore it (R413). -/
def bar0Write (path : HostPath) (a : Nat) (w : Word) (s : State) : State :=
  if 0x1_0000 ≤ a then areaWrite path ((a - 0x1_0000) / 0x1000) (a % 0x1000) w s
  else if 0xE000 ≤ a ∧ a < 0xE200 then msixWrite ((a - 0xE000) / 4) w s
  else if a = 0x0200 then doorbellWrite path (w.setWidth 16) s
  else if a = 0x0208 then doorbellOverrunWrite w s
  else if a = 0x0300 then irqStatusWrite w s
  else if a = 0x0304 then irqEnableWrite w s
  else if a = 0x0308 then irqNEnableWrite w s
  else if a = 0x0404 then evtAckWrite w s
  else if a = 0x0408 then evtModerationWrite w s
  else if a = 0x0500 then logCursorWrite w s
  else if a = 0x0600 then capWinWrite false w s
  else if a = 0x0604 then capWinWrite true w s
  else if a = 0x0704 then siteEdgeWrite w s
  else s

/-- A write of `size` bytes at an address of the host address map (R411, R413). In BAR0 only an aligned 32-bit write takes
effect, any other one is counted; every other place ignores writes. -/
def registerWrite (path : HostPath) (address size : Nat) (w : Word) (s : State) : State :=
  if (path ≠ .pcie ∧ path ≠ .spi) ∨ pathAnswers s path = false ∨ 0x2_0000 ≤ address then s
  else if size = 4 ∧ address % 4 = 0 then bar0Write path address w s
  else s.modHost (fun h => { h with badAccess := h.badAccess + 1 })

def execRegisterWrite (path : HostPath) (address size : Nat) (w : Word) (s : State) : Host.Outcome State Fault Refusal :=
  .next (registerWrite path address size w s)

/-! ## The PCIe side (R412, R414) -/

/-- Vendor ID, Device ID, Revision ID and class code that the endpoint reports (R412). -/
def pcieIdentity : List Nat := [0x1F3C, 0x7216, 0xC0, 0x11_8000]

/-- A mailbox of the PCIe path after a reset of the PCIe side: PENDING is discarded, the response of a RUNNING command will be. -/
def pcieMailbox (m : Mailbox) : Mailbox :=
  match m.state with
  | .pending => { m with state := .idle, captured := none }
  | .running => { m with discard := true }
  | _ => m

/-- The PCIe side of the host interface is reset. -/
def pcieReset (linkUp : Bool) (s : State) : State :=
  s.modHost (fun h =>
    let mine := (List.range 16).filter (fun n => h.config.paths.get n == .pcie)
    { h with
      sessions := (List.range 16).foldl (fun b k => match b.get k with
        | some x => if x.path = .pcie then b.set k none else b
        | none => b) h.sessions
      irqEnable := 0, msixTable := Bank.fill {}
      order := h.order.filter (fun n => !(mine.contains n && (h.mailboxes.get n).state == .pending))
      mailboxes := mine.foldl (fun b n => b.mod n pcieMailbox) h.mailboxes
      pcieUp := linkUp })

def execPcieReset (linkUp : Bool) (s : State) : Host.Outcome State Fault Refusal := .next (pcieReset linkUp s)

/-! ## Management Ethernet requests (R415, R416) -/

/-- A datagram is discarded and counted. -/
def rejectDatagram (s : State) : State := s.modHost (fun h => { h with ethReject := h.ethReject + 1 })

/-- The header of a datagram is acceptable; a REQUEST carries session 0. -/
def datagramOk (d : EthDatagram) : Bool := d.magic == 0x7216 && d.version == 1

/-- A REQUEST datagram rings its mailbox; one that repeats the last accepted xid gets the stored response again, or
nothing while the command is not DONE. -/
def ethRequest (d : EthDatagram) (s : State) : State :=
  let n := d.mailbox
  let m := s.host.mailboxes.get n
  if pathAnswers s .ethernet = false ∨ d.kind ≠ 0 then s
  else if (datagramOk d && d.session == 0 && decide (n < 16) && s.host.config.paths.get n == .ethernet) = false then
    rejectDatagram s
  else if m.xid = some d.xid then
    if m.state = .done then
      s.modHost (fun h => { h with ethResent := h.ethResent + 1, out := .ethResponse n d.xid m.response :: h.out })
    else s
  else if doorbellAccepted s.host n .ethernet then
    capture (u16 d.body 0) (requestOf n .ethernet d.body)
      (s.modHost (fun h => { h with mailboxes := h.mailboxes.mod n (fun x => { x with xid := some d.xid }) }))
  else ignoreDoorbell n s

def execEthRequest (d : EthDatagram) (s : State) : Host.Outcome State Fault Refusal := .next (ethRequest d s)

/-! ## Sessions (R428–R430) -/

/-- The nonce of a path is replaced 60 s after its issue. -/
def nonceExpiry (path : HostPath) (s : State) : State :=
  let p := s.host.paths.get (pathCode path)
  if path = .none ∨ p.up = false then s else issueNonce (pathCode path) (advanceTo (p.issued + tcOfS 60) s)

def execNonceExpiry (path : HostPath) (s : State) : Host.Outcome State Fault Refusal := .next (nonceExpiry path s)

/-- The session table place of an identifier. -/
def placeOf (h : HostState) (id : Nat) : Option Nat :=
  (List.range 16).find? (fun k => match h.sessions.get k with
    | some x => x.id == id
    | none => false)

/-- A session closes. -/
def closeSession (id : Nat) (s : State) : State :=
  match placeOf s.host id with
  | some k => s.modHost (fun h => { h with sessions := h.sessions.set k none })
  | none => s

/-- A session has idled for SESSION_IDLE: it closes and SESSION_EXPIRED is posted (R429). -/
def sessionIdleExpiry (id : Nat) (s : State) : State :=
  match (placeOf s.host id).bind (fun k => s.host.sessions.get k) with
  | some x =>
    let s1 := advanceTo (x.last + tcOfS s.host.config.idle) s
    postNotice 0x0101 id (pathCode x.path) (closeSession id s1)
  | none => s

def execSessionIdleExpiry (session : Nat) (s : State) : Host.Outcome State Fault Refusal := .next (sessionIdleExpiry session s)

/-- A path's lockout ends. -/
def hostLockoutExpiry (path : HostPath) (s : State) : State :=
  match (s.host.paths.get (pathCode path)).lockedUntil with
  | some t => (waitUntil t s).modHost (fun h => { h with
      paths := h.paths.mod (pathCode path) (fun p => { p with lockedUntil := none }) })
  | none => s

def execHostLockoutExpiry (path : HostPath) (s : State) : Host.Outcome State Fault Refusal := .next (hostLockoutExpiry path s)

/-- A path is locked out now. -/
def lockedOut (s : State) (path : HostPath) : Bool :=
  match (s.host.paths.get (pathCode path)).lockedUntil with
  | some t => decide (now s < t)
  | none => false

/-- The credential of a role. -/
def credential (k : KeyStore) : Role → Option (List Byte)
  | .monitor => k.monitor
  | .operate => k.operate
  | .admin => k.admin

/-- The mailbox of a request. -/
def mailboxOf (q : Req) : Nat :=
  match q.origin with
  | .mailbox n _ => n
  | .scheduled x => x.mailbox
  | .keeper _ => 0xFF

/-- The request carries the nonce of its path. -/
def carriesNonce (s : State) (q : Req) : Bool :=
  uN q.payload 4 16 == (s.host.paths.get (pathCode (reqPath q))).nonce.toNat

/-- The nonce and the tag of SYS_SESSION_OPEN are right (R428). The tag's 16 bytes spell `Config.hmacSha256`'s answer with
the least significant byte first. -/
def openAuthentic (s : State) (q : Req) : Bool :=
  let p := q.payload
  s.sys.lifecycle == .blank ||
    (carriesNonce s q && (match credential s.sys.keys (roleOfCode (u8 p 0)) with
      | some k => (Config.hmacSha256 k (bytesAt p 4 16 ++ le 1 (u8 p 0) ++ le 1 (mailboxOf q) ++ le 1 (pathCode (reqPath q)))).toNat
          == uN p 20 16
      | none => false))

/-- The nonce that a SYS_SESSION_OPEN carried is consumed; the path receives a fresh one (R428). -/
def consumeNonce (s : State) (q : Req) : State :=
  if reqPath q != .none && carriesNonce s q then issueNonce (pathCode (reqPath q)) s else s

/-- An E_AUTH result of SYS_SESSION_OPEN: counted, written to the Logbook, and the fifth within 60 s locks the path (R428). -/
def openFailed (s : State) (q : Req) : State :=
  let path := pathCode (reqPath q)
  let s1 := submitLog 0x1008 mgmtSource [0, path, u8 q.payload 0]
    (s.modHost (fun h => { h with
      authFail := h.authFail + 1
      paths := h.paths.mod path (fun p => { p with fails := now s :: p.fails.filter (fun t => decide (now s < t + tcOfS 60)) }) }))
  if 5 ≤ (s1.host.paths.get path).fails.length ∧ lockedOut s (reqPath q) = false then
    submitLog 0x1008 mgmtSource [1, path, 0] (s1.modHost (fun h => { h with
      paths := h.paths.mod path (fun p => { p with lockedUntil := some (now s + tcOfS 300) }) }))
  else s1

/-- A session identifier from a random word: non-zero and not given since power-on reset (R429). -/
def freshSession (used : List Nat) (w : Nat) : Nat :=
  ((List.range (used.length + 2)).map (fun i => (w + i) % 4294967296)).find? (fun n => n != 0 && !used.contains n) |>.getD 1

/-- A free place of the session table. -/
def freePlace (h : HostState) : Option Nat := (List.range 16).find? (fun k => (h.sessions.get k).isNone)

/-- SYS_SESSION_OPEN (0x0101). -/
def specSysSessionOpen : CommandSpec where
  opcode := 0x0101
  role := none
  length := fixedLength 36
  checks := fun s q =>
    [field 0 (within 0 2 (u8 q.payload 0)), field 1 (zeros q.payload 1 3),
     need .eAuth (!lockedOut s (reqPath q) && reqPath q != .none && openAuthentic s q),
     need .eResource (freePlace s.host).isSome]
  effect := fun s q =>
    match freePlace s.host with
    | none => (s, {})
    | some k =>
      let s1 := consumeNonce s q
      let d := draw s1
      let id := freshSession s1.host.usedSessions (Config.randomWord d.1).toNat
      (d.2.modHost (fun h => { h with
          sessions := h.sessions.set k (some { id, role := roleOfCode (u8 q.payload 0), path := reqPath q, last := now s })
          usedSessions := id :: h.usedSessions }),
       { payload := le 4 id ++ le 4 s.host.config.idle })
  reject := fun s q st =>
    let s1 := if q.length = 36 then consumeNonce s q else s
    if st = .eAuth then openFailed s1 q else s1

def execSysSessionOpen (r : HostRequest) (s : State) : Host.Outcome State Fault Refusal := .next (submit specSysSessionOpen r s)

/-- The session that SYS_SESSION_CLOSE names; 0 is the caller's own. -/
def closeTarget (q : Req) : Nat := if u32 q.payload 0 = 0 then q.session else u32 q.payload 0

/-- SYS_SESSION_CLOSE (0x0102). -/
def specSysSessionClose : CommandSpec where
  opcode := 0x0102
  role := some .monitor
  perm := fun s q => closeTarget q == q.session || reqRole s q == some .admin
  length := fixedLength 4
  checks := fun s q => [field 0 (placeOf s.host (closeTarget q)).isSome]
  effect := fun s q => (closeSession (closeTarget q) s, {})

def execSysSessionClose (r : HostRequest) (s : State) : Host.Outcome State Fault Refusal :=
  .next (submit specSysSessionClose r s)

/-- SYS_NOP (0x0100). -/
def specSysNop : CommandSpec where
  opcode := 0x0100
  role := none
  length := fun _ => none
  effect := fun s q => (s, { payload := bytesAt q.payload 0 q.length })

def execSysNop (r : HostRequest) (s : State) : Host.Outcome State Fault Refusal := .next (submit specSysNop r s)

/-! ## Stored configuration -/

/-- SYS_HOST_CONFIG (0x0103). -/
def specSysHostConfig : CommandSpec where
  opcode := 0x0103
  role := some .admin
  length := fixedLength 24
  checks := fun _ q =>
    let p := q.payload
    (List.range 16).map (fun i => field 0 (within 0 3 (u8 p i))) ++
    [field 16 (within 10 86400 (u32 p 16)), field 20 (within 0x08 0x77 (u8 p 20)), field 21 (zeros p 21 3),
     need .eConflict ((List.range 16).any (fun i => pathOfCode (u8 p i) == reqPath q))]
  effect := fun s q =>
    let p := q.payload
    let paths : Bank HostPath := { dflt := .pcie, cells := (List.range 16).map (fun i => (i, pathOfCode (u8 p i))) }
    (s.modSys (fun y => { y with storedHost := { paths, idle := u32 p 16, i2c := u8 p 20 } }), {})

def execSysHostConfig (r : HostRequest) (s : State) : Host.Outcome State Fault Refusal := .next (submit specSysHostConfig r s)

/-- The network mask is contiguous: ones, then zeros. -/
def contiguous (m : Nat) : Bool := (List.range 33).any (fun k => m == 4294967296 - 2 ^ k)

/-- SYS_NET_CONFIG (0x0104): the PTP fields apply at once. -/
def specSysNetConfig : CommandSpec where
  opcode := 0x0104
  role := some .admin
  length := fixedLength 24
  checks := fun _ q =>
    let p := q.payload
    [field 0 (within 0 3 (u8 p 0)), field 1 (within 0 1 (u8 p 1)), field 2 (within 0 1 (u8 p 2)),
     field 4 (within 1 223 (bits 31 24 (u32 p 4))), field 8 (contiguous (u32 p 8)),
     field 16 (within 1024 65535 (u16 p 16)), need .eConflict (!(u8 p 2 == 1 && u8 p 1 == 1))]
  effect := fun s q =>
    let p := q.payload
    let n : NetConfig :=
      { mode := u8 p 0, transport := u8 p 1, profile := u8 p 2, domain := u8 p 3, ipv4 := u32 p 4, netmask := u32 p 8
        gateway := u32 p 12, mgmtPort := u16 p 16, eventPort := u16 p 18, eventAddr := u32 p 20 }
    ((s.modSys (fun y => { y with storedNet := n })).modHost (fun h => { h with
      net := { h.net with transport := n.transport, profile := n.profile, domain := n.domain } }), {})

def execSysNetConfig (r : HostRequest) (s : State) : Host.Outcome State Fault Refusal := .next (submit specSysNetConfig r s)

/-! ## Site inputs (R439) -/

/-- A site configuration applies: SITE_LEVEL follows a change of inversion, an input that is enabled starts anew, and one that
is disabled reads 0. -/
def applySite (c : SiteConfig) (h : HostState) : HostState :=
  let was := h.site.enable
  { h with
    site := c
    siteLevel := (h.siteLevel ^^^ (c.invert ^^^ h.site.invert)) &&& was &&& c.enable
    siteFresh := h.siteFresh ||| (c.enable &&& ~~~was)
    siteRun := (List.range 16).foldl (fun b n => if was.getLsbD n && c.enable.getLsbD n then b else b.set n 0) h.siteRun }

/-- SYS_SITE_CONFIG (0x0105). -/
def specSysSiteConfig : CommandSpec where
  opcode := 0x0105
  role := some .operate
  length := fixedLength 24
  checks := fun _ q => (List.range 16).map (fun i => field 0 (within 1 255 (u8 q.payload i)))
  effect := fun s q =>
    let p := q.payload
    let c : SiteConfig :=
      { debounce := { dflt := 20, cells := (List.range 16).map (fun i => (i, u8 p i)) }
        enable := BitVec.ofNat 16 (u16 p 16), invert := BitVec.ofNat 16 (u16 p 18)
        evRise := BitVec.ofNat 16 (u16 p 20), evFall := BitVec.ofNat 16 (u16 p 22) }
    ((s.modSys (fun y => { y with storedSite := c })).modHost (applySite c), {})

def execSysSiteConfig (r : HostRequest) (s : State) : Host.Outcome State Fault Refusal := .next (submit specSysSiteConfig r s)

/-- An input's new level is accepted: its edge bit, its event, and the captures that it triggers (R324, R439). -/
def siteEdge (n : Nat) (rising : Bool) (s : State) : State :=
  let bit : BitVec 16 := 1#16 <<< n
  let s1 := s.modHost (fun h => { h with
    siteLevel := if rising then h.siteLevel ||| bit else h.siteLevel &&& ~~~bit
    siteRise := if rising then h.siteRise ||| bit else h.siteRise
    siteFall := if rising then h.siteFall else h.siteFall ||| bit })
  let s2 := captureTrigger trigSite (now s) (fun c => bits 3 0 c.site == n && c.site.testBit 4 == !rising) s1
  let on := if rising then s.host.site.evRise.getLsbD n else s.host.site.evFall.getLsbD n
  if on then setIrq irqSite (postEvent { kind := 4, mailbox := 0xFF, code := n, status := flag (!rising) } s2) else s2

/-- One input is sampled. -/
def siteInput (pins : BitVec 16) (s : State) (n : Nat) : State :=
  let h := s.host
  let lvl := pins.getLsbD n != h.site.invert.getLsbD n
  if h.site.enable.getLsbD n = false then s
  else if h.siteFresh.getLsbD n then
    let bit : BitVec 16 := 1#16 <<< n
    s.modHost (fun x => { x with
      siteFresh := x.siteFresh &&& ~~~bit, siteRun := x.siteRun.set n 0
      siteLevel := if lvl then x.siteLevel ||| bit else x.siteLevel &&& ~~~bit })
  else if lvl = h.siteLevel.getLsbD n then s.modHost (fun x => { x with siteRun := x.siteRun.set n 0 })
  else if h.site.debounce.get n ≤ h.siteRun.get n + 1 then
    siteEdge n lvl (s.modHost (fun x => { x with siteRun := x.siteRun.set n 0 }))
  else s.modHost (fun x => { x with siteRun := x.siteRun.set n (h.siteRun.get n + 1) })

/-- The next multiple of a period of monotonic time. -/
def nextMono (period : Nat) (s : State) : Nat := (now s / period + 1) * period

/-- The site inputs are sampled at the next 1 ms of monotonic time; nothing in DORMANT, where edges only wake (R456). -/
def siteSample (pins : BitVec 16) (s : State) : State :=
  if s.sys.power = .dormant then s
  else
    let s1 := (advanceTo (nextMono tcPerMs s) s).modHost (fun h => { h with sitePins := pins })
    (List.range 16).foldl (siteInput pins) s1

def execSiteSample (pins : BitVec 16) (s : State) : Host.Outcome State Fault Refusal := .next (siteSample pins s)

/-! ## The I2C heartbeat (R419) -/

/-- The heartbeat register is incremented at the next 100 ms of monotonic time. -/
def i2cHeartbeatTick (s : State) : State :=
  (waitUntil (nextMono (tcOfMs 100) s) s).modHost (fun h => { h with heartbeat := (h.heartbeat + 1) % 256 })

def execI2cHeartbeatTick (s : State) : Host.Outcome State Fault Refusal := .next (i2cHeartbeatTick s)

end Sys2Proof.Machine
end

