-- ==== Sys2Proof/Machine/Pair.lean ====
section
/-! DEFINITION. The redundant hub pair (R468–R480): heartbeats, roles, mirroring, takeover, demotion, and the pair's commands.
Applying a mirrored command needs the table of all commands and stands in `PairSync.lean`. -/

namespace Sys2Proof.Machine

open Sys2Proof

/-- The pair link as a fault unit (R480). -/
def pairLinkUnit : UnitId := ⟨.pairLink, 0⟩

/-- The mirror links: ports whose function is MIRROR and which PAIR_CONFIG names, at most two (R469). -/
def mirrorPorts (s : State) : List Nat :=
  ((List.range 12).filter (fun p => s.pair.config.ports.getLsbD p && (s.fl.ports.get p).config.function == .mirror)).take 2

/-- Code of a pair state (table *Pair states*). -/
def PairPhase.code : PairPhase → Nat
  | .unpaired => 0 | .waiting => 1 | .activeAlone => 2 | .activePaired => 3 | .standbySyncing => 4 | .standbyReady => 5

/-- Pair state of a code. -/
def pairPhaseOf (n : Nat) : PairPhase :=
  if n = 1 then .waiting else if n = 2 then .activeAlone else if n = 3 then .activePaired else if n = 4 then .standbySyncing
  else if n = 5 then .standbyReady else .unpaired

/-- A paired hub after READY. -/
def pairRuns (s : State) : Bool := s.sys.role == .hub && s.sys.ready && s.pair.config.enable && s.pair.phase != .unpaired

/-! ## Mirrored items (R408, R473) -/

/-- Units with a host pen reason. -/
def hostPens (s : State) : List UnitId := (s.fault.pens.filter (fun p => p.reason == .host)).map (·.unit)

/-- The items that are sent at each change, as they stand. -/
def snapshotItems (s : State) : List PairItem :=
  [.halt s.fault.halt, .hostPens (hostPens s), .keepers (s.bell.keys.map (fun k => (k.id, k.counter))),
   .members (s.fl.members.cells.filterMap (fun p => p.2.map (fun r => (p.1, r.serial, r.state.code, r.hops, r.parent)))),
   .drover s.dv.seq s.dv.targetTc s.dv.whole (s.dv.issued.map (fun p => (p.seq, p.frame)))] ++
  s.dv.bindings.cells.map (fun p => .bindings p.1 p.2) ++ s.dv.links.cells.map (fun p => .links p.1 p.2)

/-- The loop-guard models: tracked members, and the cancellers whose taps go with them. -/
def modelItem (s : State) : PairItem :=
  .models (s.lg.tracked.map (fun t => (t.member, t.eb, t.ib, t.a, t.g)))
    ((s.lg.canc.cells.filter (fun p => p.2.state != .idle && p.2.state != .cold)).map
      (fun p => { inst := p.1, offsets := p.2.offsets, weights := p.2.weights }))

/-- The loop states: set-point, G_set and integrator of each egress band path. -/
def loopItem (s : State) : PairItem :=
  .loops ((ebs s).map (fun p =>
    let x := ((slotOfEb s p.1).map (·.2)).getD {}
    (p.1, x.setpoint, (s.np.gain.get p.1).gCmd, x.i)))

/-- Items of the kinds sent at each change that have changed, and records committed or changed since the last time. -/
def mirrorChanges (s : State) : State :=
  if activeHub s && standbyListens s.pair then
    let new := snapshotItems s
    let fresh := new.filter (fun i => !s.pair.sent.contains i)
    let recs := s.log.pairDirty.filterMap (findRecord (servedRecords s.log))
    let s1 := (fresh ++ recs.map PairItem.record).foldl (fun acc i => mirrorItem i acc) s
    (s1.modPair (fun p => { p with sent := new })).modLog (fun l => { l with pairDirty := [] })
  else s

/-- A bulk transfer of every item starts: mirror sequence numbers start anew at 1 (log entry 32). -/
def startBulk (s : State) : State :=
  let recs := (((servedRecords s.log).filter (fun r => r.seq != 0)).take 4096).reverse
  let items := s.pair.mirrored.map (fun c => PairItem.command c.1 c.2) ++ snapshotItems s ++ [modelItem s, loopItem s] ++
    recs.map PairItem.record
  (s.modPair (fun p => { p with
    phase := .activeAlone, seqSent := items.length, seqAcked := 0, bulks := p.bulks + 1, sent := snapshotItems s
    outgoing := (List.range items.length).zip items |>.map (fun x => (x.1 + 1, x.2))
    bulk := some (now s + tcOfS 2, items.length) })).modLog (fun l => { l with pairDirty := [] })

/-- The heartbeat of this hub now. -/
def heartbeat (s : State) : Heartbeat :=
  { term := s.pair.term, state := s.pair.phase.code, serial := Config.serial, at_ := airNow s.air, applied := s.pair.seqApplied
    prefersStandby := s.pair.config.preferStandby }

/-- The work of a subframe boundary: a heartbeat on every mirror link, and the oldest 32 items that the peer has not
acknowledged (R469, R473; the window is log entry 32). -/
def pairSubframe (s : State) : State :=
  if pairRuns s then
    let s1 := mirrorChanges s
    let h := heartbeat s1
    let s2 := (mirrorPorts s1).foldl (fun acc p => sendLink p (.pairHb h) acc) s1
    match mirrorPort s2 with
    | some p => (s2.pair.outgoing.take 32).foldl (fun acc i => sendLink p (.pairSync i.1 i.2) acc) s2
    | none => s2
  else s

/-- Every 10 ms the active hub sends its loop-guard models and loop states (R473). -/
def mirrorPeriodicSync (s : State) : State :=
  if pairRuns s && activeHub s then
    let s1 := advanceTo (nextMono (tcOfMs 10) s) s
    mirrorItem (loopItem s1) (mirrorItem (modelItem s1) s1)
  else s

def execMirrorPeriodicSync (s : State) : Host.Outcome State Fault Refusal := .next (mirrorPeriodicSync s)

/-! ## Roles (R468, R474, R479) -/

/-- The part becomes the active hub: member 0 and bellwether, with no standby synchronised. -/
def becomeActiveHub (s : State) : State :=
  reportBindings (reselect ((s.modPair (fun p => { p with phase := .activeAlone, bulk := none, outgoing := [] })).modFl
    (fun f => { f with memberId := some 0 })))

/-- The part becomes the standby: member 1, transmit chains held READY, a bulk transfer awaited (R472). -/
def becomeStandbyHub (s : State) : State :=
  let s1 := (s.modPair (fun p => { p with
    phase := .standbySyncing, seqApplied := 0, seqAcked := 0, outgoing := [], bulk := none, failover := false, demote := false
    split := false, switchAt := none, forced := false, mirrored := [], enableTx := [], muting := []
    tail := [], frozen := none })).modFl (fun f => { f with memberId := some 1 })
  let on := (List.range 8).filter (fun k => (s1.rf.chains.get (8 + k)).fe == .active)
  let s2 := s1.modPair (fun p => { p with enableTx := on.map (· + 8) })
  refreshGains (reselect ((List.range 8).foldl (fun acc k => disableTx (8 + k) acc) s2))

/-- R474: this part becomes active rather than the sender of a heartbeat. Where both prefer standby under equal terms the
lower serial number decides too (log entry 29). -/
def winsOver (s : State) (h : Heartbeat) : Bool :=
  if s.pair.term ≠ h.term then decide (h.term < s.pair.term)
  else if s.pair.config.preferStandby ≠ h.prefersStandby then !s.pair.config.preferStandby
  else decide (Config.serial.toNat < h.serial.toNat)

/-- The heartbeat comes from the peer that PAIR_CONFIG names, or any peer is accepted (R468). -/
def fromPeer (s : State) (h : Heartbeat) : Bool :=
  h.state != 0 && (s.pair.config.peerSerial == 0 || s.pair.config.peerSerial == h.serial.toNat)

/-- A heartbeat acknowledges mirrored items. -/
def takeAck (n : Nat) (s : State) : State :=
  let done := s.pair.outgoing.filter (fun i => decide (i.1 ≤ n))
  let newest := done.foldl (fun m i => match i.2 with
    | .record r => r.seq
    | _ => m) s.log.pairSeq
  (s.modPair (fun p => { p with
    seqAcked := if p.seqSent < n then p.seqAcked else n, outgoing := p.outgoing.filter (fun i => decide (n < i.1)) })).modLog
    (fun l => { l with pairSeq := newest })

/-- A heartbeat is noted on its link. -/
def noteHeartbeat (k : Nat) (h : Heartbeat) (s : State) : State :=
  s.modPair (fun p => { p with
    links := p.links.mod k (fun x => { x with
      lastHb := some (now s), missed := 0, up := true, upSince := if x.up then x.upSince else now s })
    peerTerm := h.term, peerPhase := pairPhaseOf h.state, peerSerial := h.serial.toNat })

/-- The active hub hears its peer: a split is resolved, a standby is brought into step (R473, R479). -/
def activeHears (h : Heartbeat) (s : State) : State :=
  if h.state = 2 ∨ h.state = 3 then
    if s.pair.term < h.term ∨ (s.pair.term = h.term ∧ h.serial.toNat < Config.serial.toNat) then
      s.modPair (fun p => { p with demote := true, split := true })
    else s
  else if h.state = 4 ∧ (s.pair.bulk.isNone && (s.pair.phase == .activeAlone || decide (h.applied < s.pair.seqAcked))) then startBulk s
  else
    let s1 := takeAck h.applied s
    match s1.pair.bulk with
    | some (_, last) =>
      if last ≤ h.applied then s1.modPair (fun p => { p with phase := .activePaired, bulk := none }) else s1
    | none => s1

/-- The standby hears its peer: it follows the term of the pair, and it is READY once the active hub has every item
acknowledged (log entry 32). -/
def standbyHears (h : Heartbeat) (s : State) : State :=
  if h.state = 2 ∨ h.state = 3 then
    s.modPair (fun p => { p with
      term := h.term, failover := false
      phase := if h.state = 3 then .standbyReady else p.phase })
  else s

/-- A PAIR_HB is received on a port (R469, R474, R479). -/
def pairHb (port : Nat) (h : Heartbeat) (s : State) : State :=
  match (mirrorPorts s).findIdx? (· == port) with
  | none => s
  | some k =>
    if (pairRuns s && fromPeer s h) = false then s
    else
      let s1 := noteHeartbeat k h s
      match s1.pair.phase with
      | .waiting => if winsOver s1 h then becomeActiveHub s1 else becomeStandbyHub s1
      | .activeAlone | .activePaired => activeHears h s1
      | .standbySyncing | .standbyReady => standbyHears h s1
      | .unpaired => s1

def execPairHb (port : Nat) (h : Heartbeat) (s : State) : Host.Outcome State Fault Refusal := .next (pairHb port h s)

/-- The next instant 500 µs after a subframe boundary. -/
def nextHbCheck (a : AirState) : AirInstant :=
  let half := tcPerMs / 2
  let o := if a.offset % tcPerMs < half then a.offset / tcPerMs * tcPerMs + half else (a.offset / tcPerMs + 1) * tcPerMs + half
  if o < tcPerFrame then ⟨a.frame, o⟩ else ⟨(a.frame + 1) % 4294967296, half⟩

/-- No heartbeat has come on a mirror link within 500 µs of a subframe boundary (R469, R475, R480). The links of one boundary
are judged at one instant. -/
def pairHbMissed (k : Nat) (s : State) : State :=
  if (pairRuns s && decide (k < (mirrorPorts s).length)) = false then s
  else
    let here := s.air.offset % tcPerMs == tcPerMs / 2
    let s1 := if here && (s.pair.links.get k).judged != some (airNow s.air) then s else advanceToAir (nextHbCheck s.air) s
    let s2 := s1.modPair (fun p => { p with
      misses := p.misses + 1
      links := p.links.mod k (fun x => { x with missed := x.missed + 1, up := false, judged := some (airNow s1.air) }) })
    let s3 := if 4 ≤ (s2.pair.links.get k).missed then raiseLevel { cls := 0xC0, unit := pairLinkUnit, detail4 := k } s2 else s2
    let all := (List.range (mirrorPorts s).length).all (fun j => decide (4 ≤ (s3.pair.links.get j).missed))
    if all ∧ s3.pair.phase = .standbyReady then s3.modPair (fun p => { p with failover := true }) else s3

def execPairHbMissed (link : Nat) (s : State) : Host.Outcome State Fault Refusal := .next (pairHbMissed link s)

/-- WAITING ends without a heartbeat (R474). -/
def pairWaitTimeout (s : State) : State :=
  if s.pair.phase = .waiting then
    let wait := if s.pair.config.preferStandby then s.pair.config.wait else 2
    becomeActiveHub (advanceTo (s.pair.waitFrom + tcOfS wait) s)
  else s

def execPairWaitTimeout (s : State) : Host.Outcome State Fault Refusal := .next (pairWaitTimeout s)

/-- A bulk transfer has not ended within 2 s (R480). It goes on. -/
def bulkSyncTimeout (s : State) : State :=
  match s.pair.bulk with
  | some (t, _) => raiseLevel { cls := 0xC0, unit := pairLinkUnit, detail4 := 0xFF } (advanceTo t s)
  | none => s

def execBulkSyncTimeout (s : State) : Host.Outcome State Fault Refusal := .next (bulkSyncTimeout s)

/-- After 100 ms of heartbeats on every link PAIR_LINK ends (R480). -/
def pairLinkRecovery (s : State) : State :=
  let n := (mirrorPorts s).length
  let l := (List.range n).map (fun k => s.pair.links.get k)
  if pairRuns s && decide (0 < n) && l.all (·.up) then
    endFault 0xC0 pairLinkUnit (advanceTo (l.foldl (fun m x => max m (x.upSince + tcOfMs 100)) 0) s)
  else s

def execPairLinkRecovery (s : State) : Host.Outcome State Fault Refusal := .next (pairLinkRecovery s)

/-! ## Takeover (R475–R477) -/

/-- Members 0 and 1 exchange their IDs. -/
def swapId (m : Nat) : Nat := if m = 0 then 1 else if m = 1 then 0 else m

/-- Members below that have told their new place are taken as they are now. -/
def adoptBelow (s : State) : State :=
  s.modFl (fun f => { f with members := { f.members with cells := f.members.cells.map (fun p => (p.1, p.2.map (fun r =>
    match f.below.get p.1 with
    | some (_, parent, _) => { r with parent := parent }
    | none => { r with parent := swapId r.parent }))) } })

/-- Drover's mirrored tables with the IDs of the pair exchanged; every pending plan with a later F is cancelled. -/
def adoptDrover (s : State) : State :=
  let later := s.pair.plans.filter (fun p => decide (0 < frameDistance s p.2))
  let s1 := later.foldl (fun acc p => sendBelow (.planCancel p.1) acc) s
  let s2 := match later.head? with
    | some p => dropPlans p.1 s1
    | none => s1
  s2.modDv (fun d => { d with
    seq := max d.seq s.pair.planSeq, whole := d.whole.map (fun e => (swapId e.1, e.2)), issued := [], ownBinds := []
    bindings := d.bindings.set 1 (d.bindings.get 0)
    links := { d.links with cells := d.links.cells.map (fun c => (c.1, c.2.map (fun l => { l with peer := swapId l.peer }))) }
    joinFrame := none, dTFrame := none })

/-- From T on this hub consumes every uplink flow and sources every downlink flow of the active hub (R476). -/
def takeFlows (s : State) : State :=
  (activeFlows s).foldl (fun acc x =>
    if homeOf x.1 ≠ 0 then acc
    else modDesc x.1 (fun d => { d with place := if d.place.kind = 2
      then { d.place with consumer := true, out := 32768 }
      else { d.place with source := true, inn := 15 } }) acc) s

/-- The mirrored HALT state and host pen reasons are adopted (R476). -/
def adoptFaults (s : State) : State :=
  let have_ := hostPens s
  let new := (s.pair.hostPens.filter (fun u => !have_.contains u)).map (fun u => (⟨u, .host⟩ : Pen))
  s.modFault (fun f => { f with
    halt := f.halt <|> s.pair.halt
    haltMuted := if f.halt.isNone && s.pair.halt.isSome then (ebs s).map (·.1) else f.haltMuted
    pens := f.pens ++ new })

/-- RF_TX_ENABLE is issued internally for the chains that the mirrored configuration enables (R476). -/
def enableChains (s : State) : State :=
  s.pair.enableTx.foldl (fun acc c =>
    let x := acc.rf.chains.get c
    if x.fe = .off ∨ penned acc (chainUnit c) then acc
    else if chainBusy x then modChain c (fun y => { y with ret := .active }) acc
    else modChain c (fun y => { y with ret := .active, activateAt := some (nextSlot acc), leaving := false }) acc) s

/-- Loops, cancellers and searcher start from the mirrored models (R473, R477). -/
def adoptModels (s : State) : State :=
  let warm (i : Nat) : Option TapModel := if s.pair.config.sharedDonor then s.pair.taps.find? (fun t => t.inst == i) else none
  let s1 := (restartCancellers (fun c => c.state != .idle) s).modLg (fun g => { g with
    tracked := s.pair.models.map (fun (m, e, ib, a, gm) => { member := m, eb := e, ib := ib, a := a, g := gm, cap := none })
    canc := { g.canc with cells := g.canc.cells.map (fun p =>
      match (warm p.1).filter (fun _ => p.2.state != .idle) with
      | some t => (p.1, { p.2 with
          before := .converged, state := .reAcquire, offsets := t.offsets, weights := t.weights
          fitNum := (0, 0), fitDen := 0, fitCount := 0 })
      | none => p) } })
  let s2 := s1.modNp (fun n => { n with
    gain := s.pair.loops.foldl (fun b x => b.mod x.1 (fun g => { g with gCmd := x.2.2.1 })) n.gain })
  (ebs s2).foldl (fun acc p => enterPaddock (ebUnit p.1) acc) s2

/-- Frame of a takeover that is due: a named one, or the next frame boundary. -/
def takeoverFrame (s : State) : Option Nat :=
  match s.pair.switchAt with
  | some f => some f
  | none => if s.pair.failover then some (framesAhead s 1) else none

/-- At the takeover frame the standby becomes the active hub (R476, R477). -/
def pairTakeover (s : State) : State :=
  match (if standbyHub s then takeoverFrame s else none) with
  | none => s
  | some t =>
    let s1 := (advanceToAir ⟨t, 0⟩ s).modPair (fun p => { p with
      term := p.term + 1, phase := .activeAlone, takeovers := p.takeovers + 1, lastFrame := t, frozen := some p.tail
      switchAt := none, forced := false, failover := false, outgoing := [], bulk := none, sent := [] })
    let s2 := failSource srcFlock (s1.modFl (fun f => { f with memberId := some 0 }))
    let s3 := takeFlows (adoptDrover (adoptBelow (adoptFaults s2)))
    let s4 := issuePlan (reportBindings s3)
    let s5 := adoptModels (enableChains s4)
    let s6 := submitLog 0x1101 (sourceIndex 7 0) [s5.pair.term, s.pair.peerSerial, t, s.pair.seqApplied] s5
    refreshFaultN (refreshGains (postNotice 0x1101 s5.pair.term t s6))

def execPairTakeover (s : State) : Host.Outcome State Fault Refusal := .next (pairTakeover s)

/-! ## Demotion (R475, R479) -/

/-- Drover's tables of the hub are discarded. -/
def discardTables (s : State) : State :=
  s.modDv (fun d => { d with
    intents := Bank.fill none, bindings := Bank.fill [], links := Bank.fill [], whole := [], issued := [], ends := []
    ownBinds := [], trigger := false, joinFrame := none, dTFrame := none })

/-- Frame of a demotion that is due. -/
def demoteFrame (s : State) : Option Nat :=
  if s.pair.demote then some (framesAhead s 1) else s.pair.switchAt

/-- Every egress band path mutes with its ramp ending at a monotonic time (PAIR_SWITCHOVER, planned). -/
def muteTowards (t : Nat) (s : State) : State :=
  ((ebs s).foldl (fun l p => insertFade s (.egress, p.1) l) []).foldl (fun acc x =>
    refreshGains ((advanceTo (t - fadeOf acc x) acc).modPair (fun p => { p with muting := p.muting ++ [x.2] }))) s

/-- At the frame boundary the losing or switching active hub becomes the standby (R479). -/
def pairDemote (s : State) : State :=
  match (if activeHub s && s.pair.config.enable then demoteFrame s else none) with
  | none => s
  | some t =>
    let s1 := advanceToAir ⟨t, 0⟩ (if s.pair.demote then s else muteTowards (now s + monoOfAir s.air ⟨t, 0⟩) s)
    let tail := s1.pair.tail
    let split := s.pair.split
    let s2 := (becomeStandbyHub (discardTables s1)).modPair (fun p => { p with
      frozen := some tail, demotions := p.demotions + 1, splits := p.splits + flag split, lastFrame := t })
    let s3 := submitLog 0x1102 (sourceIndex 7 0)
      [if split then s.pair.peerTerm else s.pair.term + 1, Config.serial.toNat, t, s.pair.seqApplied] s2
    if split then submitLog 0x1103 (sourceIndex 7 0) [s.pair.term, s.pair.peerTerm] s3 else s3

def execPairDemote (s : State) : Host.Outcome State Fault Refusal := .next (pairDemote s)

/-! ## Commands -/

/-- Number of ports that a mirror_ports field names. -/
def portCount (m : Nat) : Nat := (maskBits m).length

/-- PAIR_CONFIG (0x1101). -/
def specPairConfig : CommandSpec where
  opcode := 0x1101
  role := some .admin
  length := fixedLength 20
  states := fun s _ => s.sys.role == .hub
  checks := fun s q =>
    let p := q.payload
    let m := u16 p 2
    [field 0 (within 0 1 (u8 p 0)), field 1 (within 0 1 (u8 p 1)), field 2 (decide (m < 4096) && within 1 2 (portCount m)),
     field 4 (within 0 1 (u8 p 4)), field 5 (zeros p 5 3), field 16 (within 1 600 (u32 p 16)),
     need .eConflict ((maskBits m).all (fun k => (s.fl.ports.get k).config.function == .mirror))]
  effect := fun s q =>
    let p := q.payload
    let c : PairConfig :=
      { enable := u8 p 0 == 1, preferStandby := u8 p 1 == 1, ports := BitVec.ofNat 12 (u16 p 2), sharedDonor := u8 p 4 == 1
        peerSerial := u64 p 8, wait := u32 p 16 }
    (s.modPair (fun x => { x with stored := c }), {})

def execPairConfig (r : HostRequest) (s : State) : Host.Outcome State Fault Refusal := .next (submit specPairConfig r s)

/-- A heartbeat has arrived within the last 4 ms. -/
def heardLately (s : State) : Bool :=
  (List.range 2).any (fun k => match (s.pair.links.get k).lastHb with
    | some t => decide (now s ≤ t + tcOfMs 4)
    | none => false)

/-- PAIR_SWITCHOVER (0x1102). A planned switchover tells the standby its frame with the mirrored items. -/
def specPairSwitchover : CommandSpec where
  opcode := 0x1102
  role := some .admin
  length := fixedLength 8
  states := fun s q => s.sys.role == .hub &&
    (match u8 q.payload 0 with
     | 0 => s.pair.phase == .activePaired
     | 1 => standbyHub s
     | _ => true)
  checks := fun s q =>
    let p := q.payload
    [field 0 (within 0 1 (u8 p 0)), field 1 (zeros p 1 3),
     field 4 (u32 p 4 == 0 || decide (4 ≤ frameDistance s (u32 p 4))),
     need .eConflict (u8 p 0 == 0 || !heardLately s)]
  effect := fun s q =>
    let p := q.payload
    let t := if u32 p 4 = 0 then frameBoundaryAhead s 4 else u32 p 4
    let s1 := s.modPair (fun x => { x with switchAt := some t, forced := u8 p 0 == 1 })
    (if u8 p 0 = 0 then mirrorItem (.command 0x1102 (le 4 0 ++ le 4 t)) s1 else s1, { payload := le 4 t })

def execPairSwitchover (r : HostRequest) (s : State) : Host.Outcome State Fault Refusal := .next (submit specPairSwitchover r s)

/-- PAIR_TAIL_READ (0x1103). -/
def specPairTailRead : CommandSpec where
  opcode := 0x1103
  role := some .monitor
  length := fixedLength 8
  states := fun s _ => s.sys.role == .hub && s.pair.frozen.isSome
  checks := fun _ q =>
    [field 0 (within 1 0xFFFF_FFFE (u32 q.payload 0)), field 4 (within 1 31 (u8 q.payload 4)), field 6 (zeros q.payload 6 2)]
  effect := fun s q => (s, { payload := readReply (s.pair.frozen.getD []) (u32 q.payload 0) (u8 q.payload 4) })

def execPairTailRead (r : HostRequest) (s : State) : Host.Outcome State Fault Refusal := .next (submit specPairTailRead r s)

end Sys2Proof.Machine
end

