-- ==== Sys2Proof/Machine/Admission.lean ====
section
/-! DEFINITION. Admission from PADDOCK, and of band paths that a HALT or QUIET had silenced (R147–R150, R192, R311). -/

namespace Sys2Proof.Machine

open Sys2Proof

/-- The loop of an admitted egress band path: a closed one becomes GUARDED at T − QUAL_HEADROOM, an open one has qualified
(R140). -/
def admitLoop (e : Nat) (b : BandPath) (l : Loop) (s : State) : State :=
  let clear := modLoop e (fun x => { x with qualMode := none, qualified := false })
  if l.state = .acquiring ∧ ((capTarget s b l).isSome ∨ viaHub s b l) then enterGuarded e (admitCap s b l) (clear s) else clear s

/-- The gain of an admitted egress band path starts at G_start and ramps to G_set: through its control slot where it has one,
else in its gain stack (R150, R192). -/
def softStartBand (e : Nat) (gStart : Int) (rampMs : Nat) (s : State) : State :=
  match slotOfEb s e with
  | some (n, x) =>
    if x.run = .disabled then
      s.modNp (fun p => { p with gain := p.gain.mod e (fun g =>
        let set := commandedGain g
        { g with gCmd := gStart, soft := some (gStart, set, now s, softDuration gStart set rampMs) }) })
    else admitSlot n gStart rampMs (s.modNp (fun p => { p with gain := p.gain.mod e (fun g => { g with gCmd := gStart, soft := none }) }))
  | none => s.modNp (fun p => { p with gain := p.gain.mod e (fun g =>
      let set := commandedGain g
      { g with gCmd := gStart, soft := some (gStart, set, now s, softDuration gStart set rampMs) }) })

/-- The outer slots of an admitted egress band path start anew from their outputs (R192, R206). -/
def softStartOuters (e : Nat) (s : State) : State :=
  match slotOfEb s e with
  | some (n, _) => ((outersOf s n).filter (fun p => slotEnabled p.2)).foldl (fun acc p => softStart p.1 (realised acc p.2) 0 acc) s
  | none => s

/-- An egress band path is admitted. -/
def admitBand (s : State) (e : Nat) : State :=
  match s.ce.eb.get e, s.lg.loops.get e with
  | some b, some l => softStartOuters e (softStartBand e (startGain s e b l) l.config.softRamp (admitLoop e b l s))
  | _, _ => s

/-- The CHAIN_GAIN slots of an admitted receive chain start anew from the attenuation in force (R192). -/
def admitChain (s : State) (c : Nat) : State :=
  ((boundSlots s).filter (fun p => p.2.kind == some .chainGain && p.2.target == c && p.2.run != .disabled)).foldl
    (fun acc p => softStart p.1 (realised acc p.2) 0 acc) s

/-- Units in PADDOCK that are admitted at this frame: those that had qualified when it was asked for and still do (R149). -/
def admittedUnits (s : State) : List UnitId :=
  s.fault.paddock.filter (fun u => s.lg.admitUnits.contains u && !penned s u && admissible s u)

/-- Egress band paths that a HALT or QUIET had silenced and that have qualified. -/
def admittedQuiet (s : State) : List Nat :=
  ((ebs s).filter (fun p => !inPaddock s (ebUnit p.1) && s.lg.admitUnits.contains (ebUnit p.1) && (match s.lg.loops.get p.1 with
    | some l => l.qualMode == some .halt && l.qualified
    | none => false))).map (·.1)

/-- At the admission frame every unit that still qualifies is IN_SERVICE again (R147, R149, R150). What a lost condition has
withdrawn stays in PADDOCK. -/
def admissionFrame (s : State) : State :=
  match s.lg.admitFrame with
  | none => s
  | some f =>
    let s1 := advanceToAir ⟨f, 0⟩ s
    let units := admittedUnits s1
    let bands := (units.filter (fun u => u.kind == .egress)).map (·.index) ++ admittedQuiet s1
    let chains := (units.filter (fun u => u.kind == .chain && decide (u.index < 8))).map (·.index)
    let s2 := (s1.modFault (fun x => { x with paddock := x.paddock.filter (fun u => !units.contains u) })).modLg
      (fun g => { g with admitFrame := none, admitAsked := false, admitUnits := [] })
    let s3 := chains.foldl admitChain (bands.foldl admitBand s2)
    seekAdmission (refreshGains s3)

def execAdmissionFrame (s : State) : Host.Outcome State Fault Refusal := .next (admissionFrame s)

end Sys2Proof.Machine
end

