-- ==== Sys2Proof/Machine/Commands.lean ====
section
/-! DEFINITION. The commands by opcode, the start of the next registered command (R424), and host scheduling: AT_SCHEDULE,
AT_CANCEL and the firing of a scheduled command (R50, R51). -/

namespace Sys2Proof.Machine

open Sys2Proof

/-! ## The commands of the opcode groups (R438) -/

/-- Every command that can be scheduled, group by group. -/
def innerTable : List CommandSpec :=
  [specSysNop, specSysSessionOpen, specSysSessionClose, specSysHostConfig, specSysNetConfig, specSysSiteConfig] ++
  [specAtSourceConfig, specTddPatternSet, specWallTimeSet] ++
  [specRfChainConfig, specRfTxEnable, specRfRxAtten, specRfCalRun, specRfCalGrant, specRfPolicy, specRfObsMap] ++
  [specBpConfig, specBpRelease, specBpDetector, specBpAlign, specBpSyncPin, specDpdConfig, specDpdControl] ++
  [specLgLoopConfig, specLgBeaconConfig, specLgCancelConfig, specLgCancelControl, specLgSearchConfig, specLgPolicy] ++
  [specGsSetGain, specGsMute, specNpBackoffSet, specNpPolicy, specUlGateConfig, specUlNoiseConfig, specNpDonorConfig,
   specNpOutputConfig] ++
  [specClSlotConfig, specClBankWrite, specClBankSwap, specClSetpoint, specClSlotControl, specClRepConfig,
   specClInject, specClTraceConfig, specClTraceRead, specClPolicy] ++
  [specPaConfig, specPaTiming, specPaBiasTable, specCmpConfig, specCmpMode, specPaEnable, specPaBiasCal,
   specCasPolicy, specCasIdentityRead] ++
  [specHkSlotMap, specHkUrgent, specHkCalPoint, specHkTestDac, specHkSupplyWindow, specHkThermalPolicy] ++
  [specFlPortConfig, specFlFlockConfig, specFlJoin, specFlLeave, specFlLaneControl, specFlMemberQuery, specFlExpel] ++
  [specDvIntentSet, specDvIntentClear, specDvPolicy, specDvReplace, specDvFlowQuery, specDvFlowControl] ++
  [specCapArm, specCapTrigger, specCapControl, specArConfig, specArControl, specArRestore, specMemRetireClear] ++
  [specBellConfig, specBellEnable, specKeeperKey, specBellChainConfig] ++
  [specFaultClassConfig, specFaultPolicy, specFaultAck, specFaultUnitPen, specFaultUnitRelease, specFaultHaltRelease,
   specFaultFfClear, specFaultInject, specFaultTableRead] ++
  [specLogMode, specLogRead, specLogClear, specLogMediaReset, specLogWrite, specLogVerify] ++
  [specPwrStateSet, specPwrWakeConfig, specPwrLimitSet, specPwrReset, specLcProvision, specLcAdvance, specLcRoleSet,
   specKeyInstall, specDbgPolicy, specFwWrite, specFwControl] ++
  [specPairConfig, specPairSwitchover, specPairTailRead]

/-- The command of an opcode among those that can be scheduled. -/
def innerSpec (opcode : Nat) : Option CommandSpec := innerTable.find? (fun c => c.opcode == opcode)

/-! ## AT_SCHEDULE (R50, R51) -/

/-- The inner command of an AT_SCHEDULE as it is checked now. -/
def innerReq (q : Req) : Req :=
  let n := u32 q.payload 24
  { q with opcode := u16 q.payload 20, flags := 0, length := n, payload := bytesAt q.payload 28 n }

/-- A detail of the inner command as AT_SCHEDULE returns it: offsets move by 28, header items name the field that carries
them. -/
def innerDetail (st : Status) (d : Nat) : Nat :=
  if d = 0x8000_0008 then 24
  else if d = 0x8000_0000 then 20
  else if d < 0x8000_0000 ∧ (st = .eRange ∨ st = .eLength) then d + 28
  else d

/-- The error of the inner command, E_STATE left out. -/
def innerError (s : State) (q : Req) : Option (Status × Nat) :=
  let x := innerReq q
  match innerSpec x.opcode with
  | none => some (.eOpcode, 0)
  | some c => (validate c true s x).map (fun e => (e.1, innerDetail e.1 e.2))

/-- When an AT_SCHEDULE fires. -/
def fireAt (s : State) (p : List Byte) : FireAt :=
  if u8 p 0 = 0 then .air ⟨u32 p 4, u32 p 8⟩
  else if u8 p 0 = 1 then .mono (u64 p 12)
  else .mono (now s + u64 p 12)

/-- The air time of a later monotonic instant at the corrections now applied. -/
def airOfMono (a : AirState) (t : Nat) : AirInstant :=
  let d := t - a.mono
  let fine : Int := ((d * 65536 + a.frac : Nat) : Int) + slewOver a d + rateOver a d
  instantPlus (airNow a) (fine / 65536).toNat

/-- The firing instant in air time. -/
def fireInstant (a : AirState) : FireAt → AirInstant
  | .air i => i
  | .mono t => airOfMono a t

/-- AT_SCHEDULE (0x0210). -/
def specAtSchedule : CommandSpec where
  opcode := 0x0210
  role := some .operate
  length := fun q => if q.length = 28 + u32 q.payload 24 then none else some 24
  checks := fun s q =>
    let p := q.payload
    let ahead := match fireAt s p with
      | .air i => airAhead s.air i
      | .mono t => t - now s
    [field 0 (within 0 2 (u8 p 0)), field 1 (zeros p 1 3),
     field 4 (u8 p 0 != 0 || decide (122880 ≤ ahead)), field 8 (u8 p 0 != 0 || decide (u32 p 8 < tcPerFrame)),
     field 12 (u8 p 0 == 0 || decide (122880 ≤ ahead)), field 20 (u16 p 20 != 0x0210 && u16 p 20 != 0x0211),
     field 22 (zeros p 22 2), field 24 (decide (u32 p 24 ≤ 2004)),
     (match innerError s q with
      | some e => ⟨true, e.1, e.2⟩
      | none => need .ok true),
     need .eResource (decide (s.air.scheduled.length < 256))]
  effect := fun s q =>
    let h := s.air.handles + 1
    let at_ := fireAt s q.payload
    let x := innerReq q
    let i := fireInstant s.air at_
    (s.modAir (fun a => { a with
      handles := h
      scheduled := a.scheduled ++ [{
        handle := h, at_, late := false, opcode := x.opcode, payload := x.payload, tag := q.tag
        mailbox := (ticketOf q).mailbox, path := reqPath q, session := q.session
        role := (reqRole s q).getD .monitor }] }),
     { payload := le 4 h ++ le 4 i.frame ++ le 4 i.offset ++ le 2 (s.air.scheduled.length + 1) })

def execAtSchedule (r : HostRequest) (s : State) : Host.Outcome State Fault Refusal := .next (submit specAtSchedule r s)

/-! ## AT_CANCEL -/

/-- Sessions that hold a handle: of a scheduled command, or of a calibration grant. -/
def handleOwners (s : State) (h : Nat) : List Nat :=
  (s.air.scheduled.filter (fun x => x.handle == h)).map (·.session) ++
    ((liveGrants s).filter (fun g => g.handle == h)).map (·.session)

/-- AT_CANCEL (0x0211). A cancelled grant has no effect any more. -/
def specAtCancel : CommandSpec where
  opcode := 0x0211
  role := some .operate
  perm := fun s q => reqRole s q == some .admin || (handleOwners s (u32 q.payload 0)).all (· == q.session)
  power := [.active, .quiet, .standby, .dormant]
  length := fixedLength 4
  checks := fun s q => [field 0 (!(handleOwners s (u32 q.payload 0)).isEmpty)]
  effect := fun s q =>
    let h := u32 q.payload 0
    ((s.modAir (fun a => { a with scheduled := a.scheduled.filter (fun x => x.handle != h) })).modRf (fun r => { r with
      grants := r.grants.filter (fun g => g.handle != h) }), {})

def execAtCancel (r : HostRequest) (s : State) : Host.Outcome State Fault Refusal := .next (submit specAtCancel r s)

/-! ## Commands that start (R424, R425) -/

/-- Every command of the opcode groups. -/
def commandTable : List CommandSpec := innerTable ++ [specAtSchedule, specAtCancel]

/-- The command of an opcode. -/
def commandSpec (opcode : Nat) : Option CommandSpec := commandTable.find? (fun c => c.opcode == opcode)

/-- A request runs as the command of its opcode; an unassigned opcode is E_OPCODE. -/
def runRequest (q : Req) (s : State) : State :=
  match commandSpec q.opcode with
  | some c => runCommand c q s
  | none => runUnassigned q s

/-- The command that has waited longest starts, once the part is READY (R423, R424). -/
def commandStart (s : State) : State :=
  if s.sys.ready = false then s
  else
    match s.host.order with
    | [] => s
    | n :: _ =>
      (match (s.host.mailboxes.get n).captured with
       | some c => runRequest (reqOf c.opcode c.request) (unregister n s)
       | none => unregister n s)

def execCommandStart (s : State) : Host.Outcome State Fault Refusal := .next (commandStart s)

/-! ## Scheduled commands (R46, R50, R51) -/

/-- Monotonic Tc until a scheduled command fires; below 0 for an instant that a step has skipped. -/
def fireDelay (s : State) (x : Scheduled) : Int :=
  match x.at_ with
  | .mono t => (t : Int) - now s
  | .air i =>
    if isLater s.air i then monoOfAir s.air i
    else centred 4294967296 ((i.frame : Int) - s.air.frame) * tcPerFrame + i.offset - s.air.offset

/-- `x` fires before `y`: by instant, then by handle. -/
def firesBefore (s : State) (x y : Scheduled) : Bool :=
  decide (fireDelay s x < fireDelay s y) || (decide (fireDelay s x = fireDelay s y) && decide (x.handle ≤ y.handle))

/-- The scheduled command that fires next. -/
def nextScheduled (s : State) : Option Scheduled :=
  s.air.scheduled.foldl (fun b x => match b with
    | none => some x
    | some y => if firesBefore s x y then some x else some y) none

/-- A scheduled command as it runs, with the role of the session that scheduled it. -/
def scheduledReq (x : Scheduled) : Req :=
  { opcode := x.opcode, flags := 0, tag := x.tag, length := x.payload.length, session := x.session, payload := x.payload
    origin := .scheduled x }

/-- The next scheduled command reaches its instant, is validated in full and runs; its completion event carries its status. -/
def scheduledCommandFire (s : State) : State :=
  match nextScheduled s with
  | none => s
  | some x =>
    let s1 := match x.at_ with
      | .mono t => advanceTo t s
      | .air i => if isLater s.air i then advanceToAir i s else s
    runRequest (scheduledReq x) (s1.modAir (fun a => { a with scheduled := a.scheduled.filter (fun y => y.handle != x.handle) }))

def execScheduledCommandFire (s : State) : Host.Outcome State Fault Refusal := .next (scheduledCommandFire s)

end Sys2Proof.Machine
end

