-- ==== Sys2Proof/Machine/PairSync.lean ====
section
/-! DEFINITION. What a standby hub does with a mirrored item (R408, R471–R473). -/

namespace Sys2Proof.Machine

open Sys2Proof

/-- A mirrored command as the standby runs it: from no mailbox and no keeper of its own. -/
def mirroredReq (opcode : Nat) (payload : List Byte) : Req :=
  { opcode, flags := 0, tag := 0, length := payload.length, session := 0, payload, origin := .keeper .admin }

/-- A mirrored command takes effect on the standby. What its own checks refuse here, the state apart, leaves the standby as it
is; Drover's intents are taken as the active hub accepted them. -/
def applyMirrored (opcode : Nat) (payload : List Byte) (s : State) : State :=
  match commandSpec opcode with
  | none => s
  | some c =>
    let q := mirroredReq opcode payload
    if opcode / 256 = 0x0B ∨ validate c true s q = none then (c.effect s q).1 else s

/-- ID state of a code (FL_MEMBER_QUERY). -/
def idStateOf (n : Nat) : IdState :=
  if n = 2 then .heldLost else if n = 3 then .heldLeft else if n = 4 then .granted else .joined

/-- The member ID table of the active hub; what the standby has heard of a member itself stays. -/
def takeMembers (l : List (Nat × BitVec 64 × Nat × Nat × Nat)) (s : State) : State :=
  s.modFl (fun f => { f with members := l.foldl (fun t x =>
    let (m, serial, state, hops, parent) := x
    t.set m (some (match f.members.get m with
      | some r => { r with serial, state := idStateOf state, hops, parent }
      | none => { serial, state := idStateOf state, hops, parent }))) (Bank.fill none) })

/-- Counters of the keepers that the active hub holds. -/
def takeCounters (l : List (Nat × Nat)) (s : State) : State :=
  s.modBell (fun b => { b with keys := b.keys.map (fun k => match l.find? (fun x => x.1 == k.id) with
    | some x => { k with counter := x.2 }
    | none => k) })

/-- A record enters the mirrored tail in place of an earlier form of itself (R396, R408). -/
def takeRecord (r : Record) (l : List Record) : List Record := (r :: l.filter (fun x => x.seq != r.seq)).take 4096

/-- An item is applied (table *Mirrored items*). -/
def applyItem (i : PairItem) (s : State) : State :=
  match i with
  | .command op payload =>
    if op = 0x1102 then s.modPair (fun p => { p with switchAt := some (u32 payload 4) })
    else applyMirrored op payload (s.modPair (fun p => { p with mirrored := p.mirrored ++ [(op, payload)] }))
  | .models l taps => s.modPair (fun p => { p with models := l, taps := taps })
  | .loops l => s.modPair (fun p => { p with loops := l })
  | .halt h => s.modPair (fun p => { p with halt := h })
  | .hostPens l => s.modPair (fun p => { p with hostPens := l })
  | .keepers l => takeCounters l s
  | .members l => takeMembers l s
  | .drover seq dT whole pending =>
    (s.modPair (fun p => { p with planSeq := seq, plans := pending })).modDv (fun d => { d with whole, targetTc := dT })
  | .bindings m l => s.modDv (fun d => { d with bindings := d.bindings.set m l })
  | .links m l => s.modDv (fun d => { d with links := d.links.set m l })
  | .record r => s.modPair (fun p => { p with tail := takeRecord r p.tail })

/-- A PAIR_SYNC frame is received. The standby applies items in sequence order: one that does not follow the last applied is
left for its repetition. -/
def pairSync (seq : Nat) (item : PairItem) (s : State) : State :=
  if pairRuns s && standbyHub s && seq == s.pair.seqApplied + 1 then
    applyItem item (s.modPair (fun p => { p with seqApplied := seq }))
  else s

def execPairSync (seq : Nat) (item : PairItem) (s : State) : Host.Outcome State Fault Refusal := .next (pairSync seq item s)

end Sys2Proof.Machine
end

