-- ==== Sys2Proof/Machine/Fabric.lean ====
section
/-! DEFINITION. Flits as they arrive (R262–R264): discarded, or their blocks and control frames handled. -/

namespace Sys2Proof.Machine

open Sys2Proof

/-- A frame for a member behind the Bell link of this relay goes there (R362); any other goes to the handler of its type. -/
def orRelay (f : CtrlFrame) (g : State → State) (s : State) : State :=
  if f.head.up || f.head.bcast || f.head.ttl == 1 then g s else (relayDown f.head.dest f s).getD (g s)

/-- A frame that is for this part takes effect here, any other unicast frame goes on. -/
def forMember (m : Nat) (f : CtrlFrame) (here : State → State) (s : State) : State :=
  if s.fl.memberId = some m then here s else forwardTo f s

/-- A TT_RESP in a flit: the peer's error bound and frequency measurement that go with it stand in no field of the frame, so
both are free values. -/
def ttRespFrame (p t2 t3 : Nat) (s : State) : State :=
  let a := draw s
  let b := draw a.2
  ttResp p t2 t3 (Config.freeNat a.1) (Config.freeInt b.1) b.2

/-- One control frame (table *Control frame types*). A port whose peer belongs to another flock handles nothing but HELLO
(R273). -/
def handleFrame (p : Nat) (s : State) (f : CtrlFrame) : State :=
  let h := f.head
  match f.body with
  | .hello x => hello p x s
  | body =>
    if portUp s p = false then s
    else orRelay f (fun s =>
      match body with
      | .hello _ => s
      | .ttReq t1 => ttReq p t1 s
      | .ttResp t2 t3 => ttRespFrame p t2 t3 s
      | .joinReq r => joinReq p h r s
      | .joinResp r => joinResp h r s
      | .leave m frame reason => leave h m frame reason s
      | .leaveAck m frame reason => leaveAck h m frame reason s
      | .status r => status p h r s
      | .pathDown => pathDown p h s
      | .rehome m parent hops => rehome p h m parent hops s
      | .lost root count => lost h root count s
      | .laneSet lanes frame => laneSet p lanes frame s
      | .expel => expel h s
      | .marginCap c => forMember c.member f (marginCapReceive c) s
      | .admitReq _ => if activeHub s then (match h.src with
          | some m => admitReqReceive m s
          | none => s) else forwardUp f s
      | .admitGrant frame => forMember h.dest f (admitGrantReceive frame) s
      | .gateRaise l => sendBelow (.gateRaise l) (raiseGates l s)
      | .plan seq frame dT final entries => plan h seq frame dT final entries s
      | .planAck seq st => planAck h seq st s
      | .planCancel seq => planCancel h seq s
      | .bindStatus l => bindStatus h l s
      | .flowReport l => flowReport h l s
      | .pairHb x => pairHb p x s
      | .pairSync seq item => if (mirrorPorts s).contains p then pairSync seq item s else s
      | .unknown _ => modPort p (fun x => { x with unknown := (x.unknown + 1) % 4294967296 }) s) s

/-- A flit is discarded: counted, its blocks missing at their deadlines (R262, R296). A flit of KIND 3 counts too, since
FLITS_LOST counts the flits discarded. -/
def loseFlit (p : Nat) (s : State) : State := modPort p (fun x => { x with flitsLost := (x.flitsLost + 1) % 4294967296 }) s

/-- A flit arrives on a port. -/
def flitReceive (p : Nat) (x : Flit) (s : State) : State :=
  if portTrained s p = false then s
  else if x.good = false then loseFlit p s
  else
    match x.content with
    | .idle => s
    | .reserved => loseFlit p s
    | .data flow blocks => if portUp s p then forwardFlit flow blocks (blocks.foldl (blockArrives p flow) s) else s
    | .control frames => frames.foldl (handleFrame p) s

def execFlitReceive (port : Nat) (f : Flit) (s : State) : Host.Outcome State Fault Refusal := .next (flitReceive port f s)

end Sys2Proof.Machine
end

