-- ==== Sys2Proof/Machine/Grid.lean ====
section
/-! DEFINITION. The air-time grid on which every subsystem acts: loop ticks, slot, subframe and frame boundaries, the
air-time step and TDD pattern changes (R30, R45–R49, R54, R501). -/

namespace Sys2Proof.Machine

open Sys2Proof

/-! ## The loop tick (R30, R47, R81, R141, R154, R163–R168, R208) -/

/-- The next loop tick: the next boundary of the grid, and after a step the first one that lies at least 30,720 Tc after the
last tick (R47). -/
def nextTick (a : AirState) : AirInstant :=
  let b := nextBoundary a gridTick tcPerTick
  if a.mono + monoOfAir a b < a.noTickBefore then
    let o := b.offset + tcPerTick
    if o < tcPerFrame then ⟨b.frame, o⟩ else ⟨(b.frame + 1) % 4294967296, 0⟩
  else b

/-- The fades and ramps that must end at a step begin so that they do (R45, R97). -/
def approachStep (at_ : AirInstant) (s : State) : State :=
  advanceToAir at_ (fadeTowards (now s + monoOfAir s.air at_) (stepPaths s) s)

/-- Time passes up to the next loop tick. -/
def toTick (s : State) : State :=
  let b := nextTick s.air
  let s1 := match s.air.step with
    | some (i, _) => if i = b then approachStep b s else advanceToAir b s
    | none => advanceToAir b s
  s1.modAir (fun a => { a with gridDone := a.gridDone.set gridTick (some b), lastTick := a.mono })

/-- The donor ingress band paths whose rules are enabled. -/
def donorPaths (s : State) : List Nat := ((ibs s).filter (fun p => (s.np.donors.get p.1).enable)).map (·.1)

/-- The hub's ladder on every searched path, at a boundary of 4 loop ticks (R131). -/
def hubLadders (s : State) : State :=
  if s.sys.role = .hub ∧ s.air.offset % (4 * tcPerTick) = 0 then
    ((List.range 128).filter (fun n => s.lg.searchMask.testBit n && ibExists s n)).foldl hubLadder s
  else s

/-- The samples of a loop tick: what the ingress band paths bring, what the transmit chains send, clip counts, and the tracking
limit (R81, R96, R112). -/
def tickSamples (i : TickInput) (s : State) : State :=
  let s0 := i.adc.foldl (fun acc x => if x.1 < 8 then tapRaw x.1 x.2.first x.2.conv acc else acc) s
  let s1 := trackingLimit ((List.range 8).foldl transmitTick (feedPaths i.paths s0))
  (i.clipped.filter (fun x => decide (x.1 < 8))).foldl clipTick s1

/-- The gain stacks report to the control engine (R154). -/
def reportStacks (s : State) : State :=
  s.modNp (fun n => { n with gain := (ebs s).foldl (fun b p => b.mod p.1 (fun g => { g with
    report := ⟨g.target, g.bTh, g.bNp, g.limiter⟩ })) n.gain })

/-- A loop tick: time-error and source selection, control frames onto the flits, the HV link frame, the samples, donor and
noise rules, rising caps, the hub's ladder, and the gain-stack reports. -/
def loopTick (i : TickInput) (s : State) : State :=
  let s1 := checkTimeLoss (phaseTick (reselect (toTick s)))
  let s2 := (List.range 12).foldl drainQueue (s1.modPs (fun p => { p with link := true }))
  let s3 := tickSamples i s2
  let s4 := (donorPaths s3).foldl donorTick s3
  let s5 := takeGains (((ebs s4).map (·.1)).foldl noiseTick s4)
  let s6 := hubLadders ((ebs s5).foldl riseCap s5)
  let s7 := reportStacks (refreshGains s6)
  if s7.fl.state = .joined ∧ gainMoved s7 then sendStatus s7 else s7

def execLoopTick (i : TickInput) (s : State) : Host.Outcome State Fault Refusal := .next (loopTick i s)

/-! ## Slot, subframe and frame boundaries -/

/-- A reference-slot boundary: loop-guard changes, canceller placement and snapshots, DPD actions and admission of loops that
acquire (R30, R49, R136, R139, R148). -/
def slotBoundary (s : State) : State :=
  let s1 := lgSlot (advanceToBoundary gridSlot (slotPeriod s.air) s)
  admitAcquired (dpdSlot (placeClusters (keepSnapshots s1)))

def execSlotBoundary (s : State) : Host.Outcome State Fault Refusal := .next (slotBoundary s)

/-- A subframe boundary, at which a hub pair sends its heartbeat and its mirror items (R30, R469, R473). -/
def subframeBoundary (s : State) : State := pairSubframe (advanceToBoundary gridSubframe tcPerMs s)

def execSubframeBoundary (s : State) : Host.Outcome State Fault Refusal := .next (subframeBoundary s)

/-- PPS_OUT rises at a frame whose count of frames since FRAME_EPOCH is a multiple of 100 (R501). The count goes on across the
wrap of the frame counter, whose 2^32 frames are 96 modulo 100. -/
def ppsFrame (s : State) : State :=
  let a := s.air
  let base := if a.frame = 0 then a.ppsBase.map (fun b => (b + 96) % 100) else a.ppsBase
  let rise : Bool := a.acquired && decide ((a.frame + base.getD 0) % 100 = 0)
  s.modAir (fun x => { x with
    ppsBase := base
    ppsOut := x.ppsOut || rise
    ppsOutEnd := if rise then some (x.mono + tcPerMs) else x.ppsOutEnd })

/-- A frame boundary: the second's pulse, HELLO, STATUS and time-transfer exchanges, flow reports and plans (R30). -/
def frameBoundary (i : FrameInput) (s : State) : State :=
  let s1 := dvFrame i (flFrame i (ppsFrame (advanceToBoundary gridFrame tcPerFrame s)))
  if s1.fault.paddock.isEmpty then s1 else seekAdmission s1

def execFrameBoundary (i : FrameInput) (s : State) : Host.Outcome State Fault Refusal := .next (frameBoundary i s)

/-! ## The air-time step (R45–R47, R97, R201) -/

/-- Instants of air time for which something waits. -/
def waitingInstants (s : State) : List AirInstant :=
  let at_ (f : Nat) : AirInstant := ⟨f, 0⟩
  s.air.scheduled.filterMap (fun x => match x.at_ with
    | .air i => some i
    | .mono _ => none) ++
  (s.rf.grants.filter (fun g => g.endAt.isNone)).map (·.start) ++
  s.lg.loops.cells.filterMap (fun p => p.2.bind (fun l => l.hubNext.map (·.1))) ++
  (s.cl.slots.cells.filterMap (fun p => p.2.inj.bind (fun j => if j.started then none else j.frame))).map at_ ++
  (s.mem.slots.cells.filter (fun p => p.2.state == .armed && p.2.triggers.testBit trigAt)).map (·.2.at_) ++
  (s.air.patterns.cells.filterMap (fun p => p.2.waiting.map (·.1))).map at_ ++
  (s.fl.ports.cells.filterMap (fun p => p.2.laneNext.map (·.1))).map at_ ++
  (s.dv.held.map (·.frame)).map at_ ++
  ((s.lg.admitFrame.toList ++ s.fault.haltRelease.toList ++ s.pair.switchAt.toList ++ (s.ce.align.map (·.frame)).toList ++
    (s.ce.alignPin.map (·.frame)).toList ++ (s.sys.move.bind (·.frame)).toList ++ leaveFrames s ++ admissionFrames s ++
    (s.dv.targetNext.map (·.1)).toList).map at_)

/-- An instant lies in the interval that a forward step of `e` skips (R46). The instant at which the new count begins counts as
skipped; the rule does not say to which side it belongs (log entry 120). -/
def skipped (a : AirState) (e : Int) (i : AirInstant) : Bool :=
  isLater a i && decide (((airAhead a i : Nat) : Int) * 65536 ≤ e)

/-- The count takes the step: old instant out, phases of every source measured against the new count (R44, R45). -/
def moveBy (e : Int) (a : AirState) : AirState :=
  let b := a.moveCount e
  let moved := centred 4294967296 ((b.frame : Int) - a.frame)
  { b with
    sources := movePhases e a.sources
    phaseErr := a.phaseErr - e
    gridDone := Bank.fill none
    ppsBase := if a.source = srcPtp then ppsFromPtp b
      else a.ppsBase.map (fun k => (((k + a.frame : Nat) : Int) + moved - b.frame).toNat % 100) }

/-- The step (R45–R47). -/
def applyStep (e : Int) (s : State) : State :=
  let old := airNow s.air
  let late := ((waitingInstants s).filter (skipped s.air e)).length
  let hold := if longestPattern s.air = 0 then 10 * tcPerMs else longestPattern s.air
  let s1 := s.modAir (fun a => moveBy e { a with
    scheduled := a.scheduled.map (fun x => match x.at_ with
      | .air i => if skipped a e i then { x with late := true } else x
      | .mono _ => x) })
  let s2 := s1.modAir (fun a => { a with
    step := none, stepPending := true, stepEndAt := some (a.mono + hold), noTickBefore := a.lastTick + 30720
    steps := a.steps + 1, lateEvents := a.lateEvents + late })
  let new := airNow s2.air
  submitLog 0x0104 (sourceIndex 6 0) [1, old.frame, old.offset, new.frame, new.offset, 2] (stepSlots (stepBands e s2))

/-- The decided step is applied at its boundary of the old count, just after the tick there (R45). -/
def airTimeStep (s : State) : State :=
  match s.air.step with
  | none => s
  | some (i, e) =>
    let s1 := if isLater s.air i then approachStep i s else s
    refreshGains (applyStep e (s1.modAir (fun a => { a with lastTick := a.mono })))

def execAirTimeStep (s : State) : Host.Outcome State Fault Refusal := .next (airTimeStep s)

def execStepPendingEnd (s : State) : Host.Outcome State Fault Refusal := .next (refreshGains (stepPendingEnd s))

/-! ## TDD pattern changes (R53, R54) -/

/-- A pattern change takes effect at its even frame, for every consumer at once (R54). -/
def tddPatternEffective (p : Nat) (s : State) : State :=
  match (s.air.patterns.get p).waiting with
  | none => s
  | some (f, d) =>
    let s1 := advanceToAir ⟨f, 0⟩ s
    let changed : Bool := match (s.air.patterns.get p).defn with
      | some o => o.period != d.period || o.anchor != d.anchor || o.segments != d.segments
      | none => true
    let s2 := if changed then patternClears p s1 else s1
    refreshGains (s2.modAir (fun a => { a with patterns := a.patterns.mod p (applyPattern f d) }))

def execTddPatternEffective (p : Nat) (s : State) : Host.Outcome State Fault Refusal := .next (tddPatternEffective p s)

end Sys2Proof.Machine
end

