-- ==== Sys2Proof/Machine/Observation.lean ====
section
/-! DEFINITION. The observation receivers: their dwells on the transmit chains, and what a dwell measures for the DPD, the
network-protection rules, the level loops and the repetitive controllers (R77, R115, R116, R173, R174, R180, R194). -/

namespace Sys2Proof.Machine

open Sys2Proof

def modObs (o : Nat) (f : ObsState → ObsState) (s : State) : State := s.modRf (fun r => { r with obs := r.obs.mod o f })

/-- The ACTIVE transmit chains assigned to an input, in ascending order (R77). -/
def obsChains (s : State) (o : Nat) : List Nat :=
  (List.range 8).filter (fun t => s.rf.obsMap.get t == some o && (s.rf.chains.get (t + 8)).fe == .active)

/-- The chain after the last one visited. -/
def nextObserved (s : State) (o : Nat) : Option Nat :=
  let l := obsChains s o
  match l.find? (fun t => decide ((s.rf.obs.get o).chain < t)) with
  | some t => some t
  | none => l.head?

/-- The loop-tick boundary at which a dwell may start: the present instant if it is one, else the next. -/
def dwellBoundary (a : AirState) : AirInstant :=
  if a.offset % tcPerTick = 0 then airNow a else nextTick a

/-- The receiver moves to the next assigned chain for OBS_DWELL loop ticks (R77). -/
def obsDwellStart (o : Nat) (s : State) : State :=
  if o ≤ 1 ∧ (s.rf.obs.get o).observing = false then
    let s1 := advanceToAir (dwellBoundary s.air) s
    match nextObserved s1 o with
    | some t => modObs o (fun x => { x with
        chain := t, observing := true, dwellEnd := now s1 + s1.rf.obsDwell * tcPerTick
        startedAt := now s1, moved := x.chain != t, xs := []
        coeffs := (s1.ce.dpd.get t).sets.get (s1.ce.dpd.get t).active }) s1
    | none => s
  else s

def execObsDwellStart (o : Nat) (s : State) : Host.Outcome State Fault Refusal := .next (obsDwellStart o s)

/-! ## What a dwell captures (R77, R115, R225) -/

/-- Air-time instant of a monotonic time near the present. -/
def airOf (a : AirState) (t : Nat) : AirInstant :=
  if t ≤ a.mono then instantBack (airNow a) (a.mono - t) else instantAfter (airNow a) (t - a.mono)

/-- TX.A`t` is in use at a monotonic instant: in segments of its own direction of one of its band paths, and not while a trip holds the
gate of its cassette (R56, R77, R225). -/
def chainInUse (s : State) (t n : Nat) : Bool :=
  !heldAt s t n && (ebs s).any (fun p => p.2.params.chain == t + 8 && ownSegment s p.2.params (airOf s.air n))

/-- Monotonic time of a converter sample. -/
def convTime (n : Nat) : Nat := n * 2 / 3

/-- The samples of a dwell that count: from 2 µs after a switch from another chain on, while the chain is in use. -/
def usedSamples (s : State) (o : Nat) (i : DwellInput) : List (Nat × Cx) :=
  let x := s.rf.obs.get o
  let lo := x.startedAt + (if x.moved then tcOfUs 2 else 0)
  i.samples.filter (fun v => decide (lo ≤ convTime v.1) && decide (convTime v.1 ≤ x.dwellEnd) && chainInUse s x.chain (convTime v.1))

/-- A pair of DPD input and observation, with the number of its converter sample (R115). -/
structure DwellPair where
  index : Nat
  x     : Cx
  o     : Cx
  deriving DecidableEq, Repr

/-- The DPD input at a converter sample of the dwell, while the composite stands at −20 dBFS or above: over its block of sixteen
samples (R115, log entry 138). -/
def ObsState.loudInput (s : ObsState) (n : Nat) : Option Cx :=
  match s.xs.find? (fun b => decide (b.1 ≤ n) && decide (n < b.1 + b.2.length)) with
  | some b =>
    let blk := (b.2.drop ((n - b.1) / 16 * 16)).take 16
    if 2 ^ 36 * blk.length ≤ 100 * (blk.map cNorm).sum then b.2[n - b.1]? else none
  | none => none

/-- The pairs that a dwell captures, at most 65,536 (R115). -/
def capturedPairs (s : State) (o : Nat) (i : DwellInput) : List DwellPair :=
  ((usedSamples s o i).filterMap (fun v => ((s.rf.obs.get o).loudInput v.1).map (fun x => ⟨v.1, x, v.2⟩))).take 65536

/-- Σ|o|² and Σ|x|² over pairs. -/
def pairPowers (l : List DwellPair) : Nat × Nat := ((l.map (fun p => cNorm p.o)).sum, (l.map (fun p => cNorm p.x)).sum)

/-- NMSE with the least-squares gain, 0.01 dB (R115): 1 − |Σ x conj(o)|² / (Σ|o|² Σ|x|²). -/
def nmseOf (l : List DwellPair) : Int :=
  let (so, sx) := pairPowers l
  let c := cNorm (cSum (l.map (fun p => cMul p.x (cConj p.o))))
  if so * sx = 0 then 0 else decibel ((so * sx - c) * unity / (so * sx))

/-- The set that indirect learning gives, 18 bits per component (R113, R115). -/
def learnedSet (d : Dpd) (l : List DwellPair) : DpdSet :=
  let y := Config.learnDpd d.model d.coefficients (l.map (fun p => (p.x, p.o)))
  (List.range (dpdTerms d.orders d.memory d.cross).length).map (fun k => (cLimit 131071 (y.getD k (0, 0))).1)

/-- A dwell on a chain whose DPD adapts: NMSE against the last update and the limit, and the next set (R115, R116). -/
def dpdDwell (t : Nat) (l : List DwellPair) (s : State) : State :=
  let d := s.ce.dpd.get t
  if d.state ≠ .adapting then s
  else if l.length < 16384 then modDpd t (fun x => { x with unused := x.unused + 1 }) s
  else
    let nmse := nmseOf l
    let worse := match d.before with
      | some (x, _) => decide (x + 100 < nmse)
      | none => false
    let inUse := d.sets.get d.active
    let best := match d.best with
      | some (x, old) => if nmse < x then some (nmse, inUse) else some (x, old)
      | none => some (nmse, inUse)
    let over_ := if d.limit < nmse then d.overRun + 1 else 0
    let rest := d.pending.filter (fun p => match p with
      | .apply _ | .revert => false
      | _ => true)
    let s1 := modDpd t (fun x => { x with
      nmseLast := nmse, best := best, overRun := over_
      rejectRun := if worse then x.rejectRun else if x.before.isSome then 0 else x.rejectRun
      before := if worse then x.before else none
      pending := rest ++ [if worse then .revert else .apply (learnedSet d l)] }) s
    if 16 ≤ over_ then dpdDiverge t s1 else s1

/-! ## Spectra of a dwell (R174, R180) -/

/-- Twice the frequency of bin `k` of `n`, Hz. -/
def binFreq (lo n k : Nat) : Int :=
  2 * (lo : Int) + 2 * (if 2 * k < n then (k : Int) else (k : Int) - n) * fConv / (n : Int)

/-- Power of the bins whose doubled frequency satisfies a test; none where there is no such bin. -/
def binPower (sp : List Nat) (lo : Nat) (f : Int → Bool) : Option Nat :=
  let l := (List.range sp.length).filter (fun k => f (binFreq lo sp.length k))
  if l.isEmpty then none else some ((l.map (fun k => sp.getD k 0)).sum)

/-- A doubled frequency lies in a carrier. -/
def inCarrier (p : BpParams) (f : Int) : Bool := decide (2 * (p.center : Int) - p.bw ≤ f) && decide (f < 2 * (p.center : Int) + p.bw)

/-- ACLR_WORST: each carrier against the regions of its own width beside it, clipped at the window and without other carriers; a side
without a region is not tested (R174). -/
def worstAclr (sp : List Nat) (w : RfWindow) (lo : Nat) (l : List BpParams) : Option Int :=
  (l.flatMap (fun p => [(-1 : Int), 1].filterMap (fun side =>
    let region := binPower sp lo (fun f =>
      inCarrier p (f - side * 2 * p.bw) && decide (2 * (w.low : Int) ≤ f) && decide (f ≤ 2 * (w.high : Int)) && l.all (fun q => !inCarrier q f))
    region.map (fun r => decibel ((binPower sp lo (inCarrier p)).getD 0) - decibel r)))).foldl
      (fun (m : Option Int) x => some (match m with
        | some y => min x y
        | none => x)) none

/-- Power at the OBS pin of a mean |o|² given as sum and count, 0.01 dBm: full scale is −5 dBm at 0 dB. -/
def pinPower (x : ObsState) (sum n : Nat) : Int := ((meanPower sum n).getD (-30000)) - 500 + 100 * (x.atten : Int)

/-- The plant gain of each bin of the repetitive controller with at least 256 pairs, 0.01 dB (R194). -/
def binGains (s : State) (t : Nat) (l : List DwellPair) : List (Nat × Int) :=
  match repPattern s t with
  | none => []
  | some d => (List.range 64).filterMap (fun b =>
      let m := l.filter (fun p => patternPos d (airOf s.air (convTime p.index)) / max 1 (d.period / 64) == b)
      let (so, sx) := pairPowers m
      if 256 ≤ m.length ∧ 0 < sx then some (b, decibel (so * unity / sx)) else none)

/-- What a usable dwell gives besides (R115): ACLR, carrier powers, the repetitive table. -/
def usableDwell (o t : Nat) (l : List DwellPair) (s : State) : State :=
  let x := s.rf.obs.get o
  let w := (s.rf.chains.get (t + 8)).window
  let lo := loActual (t + 8) w.lo
  let sp := spectrum (l.map (·.o))
  let es := (ebs s).filter (fun p => p.2.params.chain == t + 8)
  let s1 := match worstAclr sp w lo (es.map (·.2.params)) with
    | some v => aclrMeasured t v s
    | none => s
  let n := l.length
  let s2 := s1.modCl (fun c => { c with
    carriers := es.foldl (fun b p =>
      b.set p.1 (some (x.visits, pinPower x ((binPower sp lo (inCarrier p.2.params)).getD 0) (n * n)))) c.carriers })
  let d := s.ce.dpd.get t
  if d.sets.get d.active = x.coeffs then repUpdate t (binGains s t l) s2 else s2

/-- A dwell ends: what it measured is used, or the skip of a chain that was not in use is counted (R77). -/
def obsDwellEnd (o : Nat) (i : DwellInput) (s : State) : State :=
  let x := s.rf.obs.get o
  if x.observing = false then s
  else
    let s1 := modObs o (fun y => { y with observing := false }) (advanceTo x.dwellEnd s)
    let used := usedSamples s1 o i
    if used.isEmpty then modObs o (fun y => { y with skips := y.skips + 1 }) s1
    else
      let t := x.chain
      let power := pinPower x ((used.map (fun v => cNorm v.2)).sum) used.length
      let l := capturedPairs s1 o i
      let s2 := modObs o (fun y => { y with visits := y.visits + 1, power := power }) s1
      let s3 := outputMeasured t (power + (s2.np.outputs.get t).coupling) s2
      let s4 := if 16384 ≤ l.length then usableDwell o t l s3 else s3
      refreshGains (dpdDwell t l s4)

def execObsDwellEnd (o : Nat) (i : DwellInput) (s : State) : Host.Outcome State Fault Refusal := .next (obsDwellEnd o i s)

end Sys2Proof.Machine
end

