-- ==== Sys2Proof/Machine/TelemetrySignal.lean ====
section
/-! DEFINITION. Telemetry pages 0–5 of BAR2 as functions of the state: RF complex, channel engine and gain stacks, loop
guard, control engine, power stage and housekeeping (R437). A location that no table names reads 0 (R413). -/

namespace Sys2Proof.Machine

open Sys2Proof

/-- What stands at an aligned address of the host address map (R14, R240): a 32-bit register; the low half of a 64-bit
register with the round or sequence number that produced its value; the high half of the register four bytes below; the
low half of a channel's SUM; a word of a channel's shadow; or a value that the spec leaves open, of 32 bits or the low half of 64. -/
inductive Reg where
  | word (n : Nat)
  | low (v tag : Nat)
  | high
  | sum (c : Nat)
  | shadow (c k : Nat)
  | free
  | lowFree

/-- A reserved location (R413). -/
def rsv : Reg := .word 0

/-- A signed 32-bit register. -/
def sreg (i : Int) : Reg := .word (unsignedOf 32 i)

/-- A signed register that reads 0x8000_0000 without a value. -/
def sopt (i : Option Int) : Reg :=
  match i with
  | some v => sreg v
  | none => .word 0x8000_0000

/-- Two unsigned 16-bit fields, the low one first. -/
def halves (lo hi : Nat) : Reg := .word (place 16 0 lo + place 16 16 hi)

/-- Two signed 16-bit fields, the low one first. -/
def shalves (lo hi : Int) : Reg := .word (unsignedOf 16 lo + unsignedOf 16 hi * 65536)

/-- The register at byte offset `o` of a block. -/
def regOf (l : List Reg) (o : Nat) : Reg := l.getD (o / 4) rsv

/-- The bits k of a word for which `f` holds, k below `n`. -/
def bitSet (n : Nat) (f : Nat → Bool) : Nat := maskOf ((List.range n).filter f)

/-- `o` lies in `n` blocks of `size` bytes from `base`. -/
def inBlocks (base size n o : Nat) : Bool := decide (base ≤ o) && decide (o < base + size * n)

/-- Marks of the last second in a list of monotonic times. -/
def lastSecond (s : State) (l : List Nat) : Nat := (l.filter (fun t => decide (now s < t + tcPerSecond))).length

/-! ## Page 0: RF complex -/

/-- Front-end state code (table *Front-end states*). -/
def FeState.code : FeState → Nat
  | .off => 0 | .calibrating => 1 | .locking => 2 | .ready => 3 | .active => 4

/-- CHAIN_STATUS (table *CHAIN_STATUS fields*). -/
def chainStatus (s : State) (c : Nat) : Nat :=
  let x := s.rf.chains.get c
  x.fe.code + 8 * serviceCode s (chainUnit c) + 32 * flag x.locked + 64 * flag x.held.isSome + 128 * flag x.due.isSome +
    256 * flag (noQuietWindow s c) + 512 * flag x.lastForced + 1024 * flag x.degraded + 2048 * flag (ulChain s c) +
    place 5 16 x.atten

/-- Tag of the command held as PENDING_LOCK (R68). -/
def heldTag : Option HeldCommand → Nat
  | some (.txEnable t _) => t.tag
  | some (.config t _ _) => t.tag
  | none => 0

/-- The registers of a chain block. -/
def chainBlock (s : State) (c : Nat) : List Reg :=
  let x := s.rf.chains.get c
  [.word (chainStatus s c), halves x.lockUs x.unlocks, .low (loActual c x.window.lo) 0, .high, .low x.window.low 0, .high,
   .low x.window.high 0, .high, shalves (chainTemp s c) (x.tCal.getD 0), .word ((x.due.map (·.since)).getD 0),
   .low x.lastCal 0, .high, halves x.cals x.forcedCals, sreg x.imageRej,
   if c < 8 then .word x.clipped else sreg x.leak, .word (heldTag x.held)]

/-- The registers of an observation receiver. -/
def obsBlock (s : State) (k : Nat) : List Reg :=
  let x := s.rf.obs.get k
  [.word (place 3 0 x.chain + 8 * flag x.observing + place 4 8 x.atten), .word x.visits, sreg x.power, .word x.skips]

/-- Page 0 (table *RF telemetry*). -/
def page0 (s : State) (o : Nat) : Reg :=
  if o < 0x100 then
    regOf
      [.word (bitSet 16 (fun c => (s.rf.chains.get c).locked) + 65536 * flag s.rf.bellLocked),
       .word (bitSet 16 (fun c => (s.rf.chains.get c).fe == .calibrating) + 65536 * flag s.rf.bellCal +
         131072 * flag (s.rf.tones.get 0) + 262144 * flag (s.rf.tones.get 1)),
       .word (bitSet 16 (fun c => (s.rf.chains.get c).due.isSome) + 65536 * flag (bellCalDue s)),
       .word s.rf.forcedTotal, .word (place 3 0 (liveGrants s).length)] o
  else if inBlocks 0x100 0x40 16 o then regOf (chainBlock s ((o - 0x100) / 0x40)) ((o - 0x100) % 0x40)
  else if inBlocks 0x800 0x20 2 o then regOf (obsBlock s ((o - 0x800) / 0x20)) ((o - 0x800) % 0x20)
  else rsv

/-! ## Page 1: channel engine, gain stacks and network protection -/

/-- SYNC_ALIGN mode code (R99). -/
def SyncMode.code : SyncMode → Nat
  | .off => 0 | .in_ => 1 | .out => 2

/-- DPD state code (table *DPD states*). -/
def DpdState.code : DpdState → Nat
  | .off => 0 | .adapting => 1 | .frozen => 2 | .held => 3

/-- BP_STATUS (table *BP_STATUS fields*). -/
def bpStatus (s : State) (d : Dir) (n : Nat) (b : BandPath) : Nat :=
  let p := b.params
  let fading := d == .ingress && (b.phase == .fadeOut || b.phase == .fadeIn)
  let gapped := d == .egress && (if p.srcFlow then b.srcGapped else ibGapped s p.srcId)
  1 + 2 * flag (d == .egress) + 4 * flag (b.phase != .idle) + 8 * flag fading + 16 * flag b.misaligned +
    32 * flag p.alignStrict + 64 * flag p.protected_ + 128 * flag b.rateMismatch + 256 * flag gapped +
    512 * serviceCode s (bpUnit d n) + 2048 * flag b.detInvalid + 4096 * flag p.tdd.isSome + place 3 13 (p.tdd.getD 0) +
    place 4 16 p.chain + place 4 20 (p.stages - 1) + place 2 24 p.preset

/-- The registers of a band-path block; none of them has a value where no band path exists. -/
def bpBlock (s : State) (d : Dir) (n : Nat) : List Reg :=
  match bandPath s d n with
  | none => [rsv, rsv, .low 0 0, .high]
  | some b =>
    [.word (bpStatus s d n b), .word (place 18 0 b.params.srcId + 0x8000_0000 * flag b.params.srcFlow),
     .low b.params.center 0, .high, .word (groupDelay d b.params), .word b.settleZeros, .word b.settleBlocks,
     sreg b.alignErr, sopt b.detMean, sopt b.detPeak, .word b.detSeq, sreg b.envLast, .word b.clipBlocks, .word b.gapBlocks,
     .word b.lastChange, .word b.settleTotal]

/-- The registers of a DPD block. -/
def dpdBlock (s : State) (t : Nat) : List Reg :=
  let x := s.ce.dpd.get t
  [.word (x.state.code + place 3 2 x.active + 32 * flag (x.pending.contains .identity)), sreg x.nmseLast,
   sreg ((x.best.map (·.1)).getD 0), .word x.updates, .word x.rejects, .word x.lastUpdate, .word x.unused]

/-- A ramp is running. -/
def ramping (s : State) (r : Ramp) : Bool :=
  let x := (settleRamp (now s) r).state
  x == .falling || x == .rising

/-- GS_STATUS (table *GS_STATUS fields*). -/
def gsStatus (s : State) (e : Nat) (b : BandPath) : Nat :=
  let g := s.np.gain.get e
  let f := followSlew (now s) g
  g.limiter.code + place 10 4 (muteMask s e b) + 0x4000 * flag (excludedPaddock s e) + 0x8000 * flag (excludedAcquiring s e) +
    0x1_0000 * flag ((settleRamp (now s) g.ramp).state == .silent) + 0x2_0000 * flag (ramping s g.ramp || ramping s g.excl) +
    0x4_0000 * flag (f.applied != f.target) + 0x8_0000 * flag b.params.protected_ + 0x10_0000 * flag (s.np.noise.get e).enable

/-- The registers of a gain-stack block. -/
def gsBlock (s : State) (e : Nat) : List Reg :=
  let g := s.np.gain.get e
  [.word (((s.ce.eb.get e).map (gsStatus s e)).getD 0), sreg g.target, sreg g.gCmd, .word g.bTh, .word g.bNp, sopt g.capM,
   sopt g.capUl, .word g.limChanges]

/-- Gate mode code (UL_GATE_CONFIG). -/
def GateMode.code : GateMode → Nat
  | .gated => 0 | .open_ => 1 | .closed => 2

/-- The registers of a gate block; none where no gate is configured (R161). -/
def gateBlock (s : State) (n : Nat) : List Reg :=
  match s.np.gates.get n with
  | none => []
  | some g =>
    [.word (g.mode.code + 4 * flag g.isOpen + 8 * flag g.pendingN + 16 * flag (decide (0 < g.raised))), sreg g.nEst,
     .word g.openCount, sreg (gOpenInForce g)]

/-- An output pre-back-off of a cause is active on a transmit chain. -/
def preActive (s : State) (cause : BackoffCause) (t : Nat) : Bool :=
  s.np.backoffs.any (fun x => x.cause == cause && x.unit == chainUnit (8 + t) && x.amount != 0)

/-- The registers of a chain protection block. -/
def outputBlock (s : State) (t : Nat) : List Reg :=
  let x := s.np.outputs.get t
  [.word (flag x.enable + 2 * flag (preActive s .overpower t) + 4 * flag (preActive s .emission t) +
     place 8 8 x.overRun + place 8 16 x.failRun),
   sreg x.power, sreg x.aclr, .word x.dTh, halves x.xTh x.yTh, .word x.dNp, halves x.xNp x.yNp, .word x.pProt]

/-- The registers of a donor block. -/
def donorBlock (s : State) (n : Nat) : List Reg :=
  let x := s.np.donors.get n
  [.word (flag x.enable + 2 * flag x.loss + 4 * flag x.overload), sreg x.level, .word x.losses, .word x.overloads]

/-- Page 1 (tables *Channel-engine telemetry* and *Network-protection telemetry*). -/
def page1 (s : State) (o : Nat) : Reg :=
  if o < 0x1000 then
    regOf
      ([.word (rateSum (ibs s)), .word (rateSum (ebs s)), .word (place 8 0 (ibs s).length + place 8 8 (ebs s).length),
        .word (flag (s.ce.align.isSome || s.ce.alignPin.isSome) + 2 * s.ce.syncMode.code + 8 * flag s.ce.syncLevel +
          place 8 8 s.ce.syncIgnored + place 16 16 s.ce.alignCount),
        .word s.ce.alignFrame, rsv, rsv, rsv] ++ (List.range 8).map (fun t => .word (s.ce.compClip.get t))) o
  else if inBlocks 0x1000 0x40 128 o then regOf (bpBlock s .ingress ((o - 0x1000) / 0x40)) (o % 0x40)
  else if inBlocks 0x3000 0x40 128 o then regOf (bpBlock s .egress ((o - 0x3000) / 0x40)) (o % 0x40)
  else if inBlocks 0x6000 0x20 8 o then regOf (dpdBlock s ((o - 0x6000) / 0x20)) (o % 0x20)
  else if inBlocks 0x8000 0x20 128 o then regOf (gsBlock s ((o - 0x8000) / 0x20)) (o % 0x20)
  else if inBlocks 0x9000 0x10 128 o then regOf (gateBlock s ((o - 0x9000) / 0x10)) (o % 0x10)
  else if inBlocks 0xA000 0x20 8 o then regOf (outputBlock s ((o - 0xA000) / 0x20)) (o % 0x20)
  else if inBlocks 0xB000 0x10 128 o then regOf (donorBlock s ((o - 0xB000) / 0x10)) (o % 0x10)
  else rsv

/-! ## Page 2: loop guard -/

/-- Loop state code (table *Loop states*). -/
def LoopState.code : LoopState → Nat
  | .open_ => 0 | .acquiring => 1 | .guarded => 2 | .ladder => 3 | .holdoff => 4

/-- Canceller state code (table *Canceller states*). -/
def CancState.code : CancState → Nat
  | .idle => 0 | .cold => 1 | .converged => 2 | .reAcquire => 3 | .frozen => 4 | .diverged => 5

/-- The loop records with their band paths. -/
def loopList (s : State) : List (Nat × BandPath × Loop) :=
  (ebs s).filterMap (fun p => (s.lg.loops.get p.1).map (fun l => (p.1, p.2, l)))

/-- The canceller instance that serves a loop. -/
def loopCanceller (s : State) (b : BandPath) (l : Loop) : Option Nat := ((returnIb s b l).bind (cancellerOf s)).map (·.1)

/-- LOOP_STATUS (table *LOOP_STATUS fields*). -/
def loopStatus (s : State) (b : BandPath) (l : Loop) : Nat :=
  l.state.code + 8 * flag (loopClosed s b l) + 16 * flag l.measuredOn.isSome + 32 * flag l.boundA + 64 * flag l.boundC +
    128 * flag (viaHub s b l) + place 5 8 ((loopCanceller s b l).getD 0) + 8192 * flag (loopCanceller s b l).isSome +
    place 3 14 l.qualFail + 131072 * flag l.beacon.identity

/-- PILOT_CFG: code degree less 10, pilot period in slots, prefix chips in units of 16. -/
def pilotCfg (s : State) (e : Nat) (l : Loop) : Nat :=
  place 4 0 (degreeOf s e l.beacon - 10) + place 8 8 (periodOf s e l.beacon / slotPeriod s.air) +
    place 16 16 (prefixChips s e l.beacon / 16)

/-- The registers of a loop block; none where no band path exists. -/
def loopBlock (s : State) (e : Nat) : List Reg :=
  match s.ce.eb.get e, s.lg.loops.get e with
  | some b, some l =>
    let recent := (l.mutes.filter (fun t => decide (now s < t + tcOfS s.lg.policy.penWindow))).length
    let left := if l.state = .holdoff then (l.holdEnd - now s + tcPerMs - 1) / tcPerMs else 0
    [.word (loopStatus s b l), sreg (((loopAc l).map (·.1)).getD 0), sreg (((loopAc l).map (·.2)).getD 0),
     sreg ((loopMargin s e l).getD 0), sreg ((creditedMargin s e b l).getD 0), sopt (capInForce s b l),
     sreg ((capTarget s b l).getD 0), sreg l.pilot, sreg (fastGain s e l), .word (pilotCfg s e l),
     .word (place 17 0 (codeIndex s e l.beacon)), .word l.seq, .word (place 8 0 recent + place 24 8 l.muteCount),
     .word l.lastOsc, .word left, sreg l.admitGain]
  | _, _ => []

/-- The registers of a canceller block. -/
def cancBlock (s : State) (i : Nat) : List Reg :=
  let k := s.lg.canc.get i
  [.word (k.state.code + 8 * flag k.snapshot + 16 * flag k.doppler + place 3 5 (k.clusters - 1) + place 9 8 k.taps),
   .word (place 7 0 k.ib + 128 * flag k.refFlow + place 18 8 k.refId), sreg k.c, .word k.span, .word k.bulk,
   sreg k.rotator, .word k.coldStarts, .word k.diverges]

/-- The members that the searcher tracks: those found, up to TRACKED_MAX (R130). -/
def trackedFound (s : State) : List Tracked := (s.lg.tracked.filter (·.found)).take s.lg.trackedMax

/-- The registers of an ingress band path's aggregate, on a hub (R131). -/
def aggregateBlock (s : State) (n : Nat) : List Reg :=
  if s.sys.role ≠ .hub then []
  else
    [sreg (s.lg.mAgg.get n), .word (trackedFound s |>.filter (fun t => t.ib == n)).length,
     .word (if s.lg.searchMask.testBit n then s.lg.swept.get n else 0), .word (lastSecond s (s.lg.capSteps.get n))]

/-- The registers of a tracked entry. A member to which no cap has been sent reads 0 there. -/
def trackedBlock (s : State) (t : Nat) : List Reg :=
  match (trackedFound s)[t]? with
  | some x =>
    [.word (place 14 0 x.member + place 7 14 x.eb + place 7 21 x.ib + 0x8000_0000), sreg x.a, sreg x.g, sreg (x.cap.getD 0)]
  | none => []

/-- Loops in a state. -/
def loopsIn (s : State) (x : LoopState) : Nat := ((loopList s).filter (fun p => p.2.2.state == x)).length

/-- Page 2 (table *Loop-guard telemetry*). -/
def page2 (s : State) (o : Nat) : Reg :=
  if o < 0x1000 then
    regOf
      [.word (place 8 0 ((loopList s).filter (fun p => loopClosed s p.2.1 p.2.2)).length + place 8 8 (loopsIn s .ladder) +
         place 8 16 (loopsIn s .holdoff) + place 8 24 (s.lg.canc.cells.filter (fun p => p.2.state != .idle)).length),
       rsv, .low (tapsUsed s) 0, .high, .word s.lg.oscTotal,
       .word (bitSet 4 (fun k => s.lg.lanes.getD k 0 != 0) + place 9 4 (trackedFound s).length +
         place 16 16 ((List.range 128).map s.lg.swept.get).sum)] o
  else if inBlocks 0x1000 0x40 128 o then regOf (loopBlock s ((o - 0x1000) / 0x40)) (o % 0x40)
  else if inBlocks 0x4000 0x20 32 o then regOf (cancBlock s ((o - 0x4000) / 0x20)) (o % 0x20)
  else if inBlocks 0x5000 0x10 128 o then regOf (aggregateBlock s ((o - 0x5000) / 0x10)) (o % 0x10)
  else if inBlocks 0x6000 0x10 256 o then regOf (trackedBlock s ((o - 0x6000) / 0x10)) (o % 0x10)
  else rsv

/-! ## Page 3: control engine -/

/-- Slot state code (SLOT_STATUS.STATE). -/
def SlotRun.code : SlotRun → Nat
  | .disabled => 0 | .softStart => 1 | .running => 2 | .hold => 3

/-- SLOT_STATUS (table *SLOT_STATUS fields*). -/
def slotStatus (s : State) (n : Nat) (x : Slot) : Nat :=
  let traced := s.cl.traces.cells.any (fun p => p.2.slot == n && (p.2.state == .armed || p.2.state == .recording))
  ((x.kind.map (·.code)).getD 0) + 8 * x.run.code + 64 * x.reason.code + 512 * flag x.bankSel + 1024 * flag x.sat +
    2048 * flag x.swap + 4096 * flag (injecting x).isSome + 8192 * flag traced +
    16384 * flag (x.kind == some .level && slotEnabled x && decide (x.learned < 16)) + place 5 15 (periodExp s x) +
    (if isOuter x then place 9 20 x.target + 0x2000_0000 else 0) + place 2 30 (min x.ovrRun 3)

/-- The registers of a slot block; none of a FREE slot. -/
def slotBlock (s : State) (n : Nat) : List Reg :=
  let x := slotOf s n
  let band := chainBand s (ebChain s x.target)
  let ds := (x.delays.filter (fun p => decide (now s < p.1 + tcPerSecond))).map (·.2)
  let least := match ds with
    | [] => 0
    | d :: rest => rest.foldl min d
  if x.kind.isNone then []
  else
    [.word (slotStatus s n x), sreg x.r, sreg x.y, sreg x.u, sreg (ofFine x.i),
     sreg (if x.kind = some .level then ofFine (kBandOf x band).1 else 0), halves x.overruns x.implCount,
     halves least (ds.foldl max 0)]

/-- The registers of a repetitive block. -/
def repBlock (s : State) (t : Nat) (o : Nat) : Reg :=
  let r := s.cl.reps.get t
  if 0x100 ≤ o then sreg (ofFine (r.table.get ((o - 0x100) / 4)))
  else
    regOf
      [.word (flag r.enabled + place 3 1 r.pattern + 16 * flag r.usedLast + place 7 5 (binsInUse s t).length +
         place 20 12 r.updates),
       .word r.resid, .word r.last] o

/-- The registers of a trace buffer. -/
def traceBlock (s : State) (j : Nat) : List Reg :=
  let x := s.cl.traces.get j
  [.word (traceStatus x), .word x.entries.length, .word ((triggerIndex x).getD 0xFFFF), .word x.trigAt]

/-- Page 3 (table *Control-engine telemetry*). -/
def page3 (s : State) (o : Nat) : Reg :=
  let used := (s.cl.usage.filter (fun x => decide (now s < x.2.1 + tcPerSecond))).foldl (fun m x => max m x.2.2) 0
  let count := fun (r : SlotRun) => ((boundSlots s).filter (fun p => p.2.run == r)).length
  if o < 0x1000 then
    regOf
      [halves (loadUp s) used,
       .word (place 10 0 (boundSlots s).length + place 10 10 (count .running) + place 10 20 (count .hold)),
       .word s.cl.overruns, .word s.cl.lateTicks, .word s.cl.swaps, .word s.cl.swapSat,
       .word (place 5 0 ((boundSlots s).filter (fun p => (injecting p.2).isSome)).length + place 16 16 s.cl.injDone)] o
  else if inBlocks 0x1000 0x20 512 o then regOf (slotBlock s ((o - 0x1000) / 0x20)) (o % 0x20)
  else if inBlocks 0x6000 0x200 8 o then repBlock s ((o - 0x6000) / 0x200) (o % 0x200)
  else if inBlocks 0x7000 0x10 8 o then regOf (traceBlock s ((o - 0x7000) / 0x10)) (o % 0x10)
  else rsv

/-! ## Page 4: power stage -/

/-- The published value of a channel in units of 10 mV; 0 before its first record. -/
def hk10 (s : State) (c : Nat) : Int := (hkValue s c).getD 0 / 10

/-- PA_STATUS (table *PA_STATUS fields*). -/
def paStatus (s : State) (n : Nat) : Nat :=
  let x := cas s n
  paCode s n + 8 * serviceCode s (cassetteUnit n) + place 2 5 x.mode + place 3 7 x.pattern + 1024 * flag (gateOn s n) +
    2048 * flag x.certOk + 4096 * flag x.uncertified + 8192 * flag x.biasUnset + 16384 * flag x.biasRun.isSome +
    32768 * flag x.lifeWarn + 0x1_0000 * flag x.lifeExpired + 0x2_0000 * flag x.lifeUnknown + 0x4_0000 * flag x.derated +
    0x8_0000 * flag x.latched + place 3 20 x.band

/-- The registers of a PA block. -/
def paBlock (s : State) (n : Nat) : List Reg :=
  let x := cas s n
  let cmp := fun (j : Nat) => s.ps.cmps.get (4 * n + j)
  [.word (paStatus s n),
   .word (((List.range 4).map (fun j =>
     (flag (cmp j).qualified + 2 * flag (cmp j).trip + place 2 2 (cmp j).mode) * 16 ^ j)).sum),
   sopt (hkValue s (5 * n)), sopt (hkValue s (5 * n + 1)), sopt ((hkValue s (5 * n + 2)).map (fwdPower x)),
   sopt ((hkValue s (5 * n + 3)).map (revPower x)), shalves x.tNtc x.tCh, .word (place 12 0 x.vgCode),
   .low x.life.stress x.life.seq, .high, .word (ratingOf s x), .word (lifePct s x), .word (cmp 0).count, .word (cmp 1).count,
   .word (cmp 2).count, .word (cmp 3).count, .word x.lastTrip,
   .word (((List.range 4).map (fun j => place 8 (8 * j) (lastSecond s (cmp j).window))).sum),
   .low x.record.serial 0, .high, .word x.life.seq, .word x.pulses]

/-- Page 4 (table *Power-stage telemetry*). -/
def page4 (s : State) (o : Nat) : Reg :=
  let mon := fun (k : Nat) => s.ps.cmps.get (32 + k)
  if o < 0x100 then
    regOf
      [.word (flag s.ps.link + bitSet 8 (fun k => (mon k).qualified) * 256 + bitSet 8 (fun k => (mon k).trip) * 65536),
       shalves (hk10 s 40) (hk10 s 41), shalves (hk10 s 42) (hk10 s 43), .word s.ps.linkLoss,
       .word (place 8 0 s.ps.failWrites + place 8 8 s.ps.failFails),
       .word (((List.range 8).map (fun k => place 2 (2 * k) (mon k).mode)).sum)] o
  else if inBlocks 0x100 0x80 8 o then regOf (paBlock s ((o - 0x100) / 0x80)) (o % 0x80)
  else rsv

/-! ## Page 5: housekeeping -/

/-- The significand of `n / d` in units of 2^−23 of 2^e, rounded to nearest even. -/
def significand (n d : Nat) (e : Int) : Nat :=
  (if e ≤ 23 then roundEven ((n * 2 ^ (23 - e).toNat : Nat) : Int) ((d : Nat) : Int)
   else roundEven ((n : Nat) : Int) ((d * 2 ^ (e - 23).toNat : Nat) : Int)).toNat

/-- The binary32 code of a fraction, rounded to nearest even (table *Channel block*). -/
def binary32 (num : Int) (den : Nat) : Nat :=
  let n := num.natAbs
  let sign := if num < 0 then 0x8000_0000 else 0
  if n = 0 ∨ den = 0 then 0
  else
    let e0 : Int := (Nat.log2 n : Int) - Nat.log2 den
    let below := if 0 ≤ e0 then decide (n < den * 2 ^ e0.toNat) else decide (n * 2 ^ (-e0).toNat < den)
    let e := max (-126) (if below then e0 - 1 else e0)
    let m := significand n den e
    -- a significand below 2^23 is subnormal, and one that reaches 2^24 carries into the exponent
    let code := if m < 0x80_0000 then m else ((e + 127).toNat - 1) * 0x80_0000 + m
    sign + (if code < 0x7F80_0000 then code else 0x7F80_0000)

/-- HK_STATUS (table *HK_STATUS fields*). -/
def hkStatus (s : State) : Nat :=
  let h := s.hk
  flag (h.excluded.get 0) + 2 * flag (h.excluded.get 1) + 4 * flag (h.urgent.isSome && !h.urgentRun) +
    8 * flag h.urgentRun + 16 * flag h.dacHost + 32 * flag h.calRun.isSome + 64 * flag (h.dTh != 0) + 128 * flag h.shutdown +
    place 3 8 (((List.range 24).map (fun k => (h.sensors.get k).band)).foldl max 0)

/-- The registers of a channel block (R240). -/
def channelBlock (s : State) (c : Nat) : List Reg :=
  let k := coefficients s c
  [.sum c, .shadow c 0, .shadow c 1, .shadow c 2, .shadow c 3, .shadow c 4, .shadow c 5, .shadow c 6, .shadow c 7,
   .word (binary32 k.gain.num k.gain.den), .word (binary32 k.offset.num k.offset.den)]

/-- The registers of a sensor block. -/
def sensorBlock (s : State) (k : Nat) : List Reg :=
  let x := s.hk.sensors.get k
  [shalves (x.raws.headD 0) x.filtered, .word (place 3 0 x.band + place 3 3 x.candidate + place 3 6 x.dwell + 512 * flag x.failed),
   .word x.changes, .word x.oscCount]

/-- Page 5 (table *Housekeeping telemetry*). -/
def page5 (s : State) (o : Nat) : Reg :=
  let h := s.hk
  if o < 0x1000 then
    regOf
      ([.word (hkStatus s), .word (h.lastRound.getD 0), .low h.roundEnd (h.lastRound.getD 0), .high, .word h.urgents,
        .word h.urgentDrop, .word h.urgentCap, .word (unsignedOf 16 h.tGov + place 5 16 h.govIndex), .word h.dTh,
        shalves h.tThrottle h.tShut, shalves (h.dacErr.get 0) (h.dacErr.get 1),
        .word (min 255 (h.fails.get 0) + 256 * min 255 (h.fails.get 1) + 65536 * min 255 (h.passes.get 0) +
          0x100_0000 * min 255 (h.passes.get 1)),
        .word (place 4 0 h.clocks), .word (bitSet 32 (fun k => (h.windows.get k).isOut)), rsv, rsv] ++
       (List.range 8).map (fun i => sreg (Config.testDacCode i))) o
  else if inBlocks 0x1000 0x40 85 o then regOf (channelBlock s ((o - 0x1000) / 0x40)) (o % 0x40)
  else if inBlocks 0x3000 0x10 24 o then regOf (sensorBlock s ((o - 0x3000) / 0x10)) (o % 0x10)
  else rsv

end Sys2Proof.Machine
end

