-- ==== Sys2Proof/Machine/TelemetrySystem.lean ====
section
/-! DEFINITION. Telemetry pages 6–12 of BAR2, the registers of BAR0, the windows of BAR4, and the reads of the host paths:
register reads with the shadows of R14 and R240, management READ datagrams, SPI transfers and the I2C status map. -/

namespace Sys2Proof.Machine

open Sys2Proof

/-! ## Page 6: air time -/

/-- AT_STATE code (table *AT_STATUS fields*). -/
def AirLock.code : AirLock → Nat
  | .freeRun => 0 | .acquiring => 1 | .locked => 2 | .holdover => 3

/-- Source state code (R32). -/
def SourceState.code : SourceState → Nat
  | .absent => 0 | .searching => 1 | .qualifying => 2 | .usable => 3 | .failed => 4

/-- Pattern state code (table *Air-time telemetry*). -/
def PatternState.code : PatternState → Nat
  | .unset => 0 | .asserted => 1 | .provisional => 2 | .verified => 3 | .mismatch => 4

/-- AT_STATUS (table *AT_STATUS fields*). -/
def atStatus (s : State) : Nat :=
  let a := s.air
  a.lock.code + place 3 3 a.source + 64 * flag a.acquired + 128 * flag (tddAllowed a) + 256 * flag (bellwether s) +
    512 * flag a.refPresent + 1024 * flag a.refQualified + 2048 * flag a.stepPending + 4096 * flag (a.slewLeft != 0)

/-- Page 6 (table *Air-time telemetry*). -/
def page6 (s : State) (o : Nat) : Reg :=
  let a := s.air
  if o < 0x100 then
    regOf
      [.word (atStatus s), rsv, .low (a.offset + a.frame * 4294967296) 0, .high, .low a.mono 0, .high, .low (wallNow s) 0, .high,
       .word (((timeErrNs a).map (min 0x7FFF_FFFE)).getD 0x7FFF_FFFF), sreg (tenthNsOfFine a.phaseErr), sreg a.freqOff,
       .word (if a.lock = .holdover then (now s - a.holdoverAt) / tcPerMs else 0),
       .word (((List.range 4).map (fun k => (a.sources.get (k + 1)).state.code * 256 ^ k)).sum),
       .word (place 16 0 (bellwetherId s) + place 8 16 (bellwetherHops s)), .word a.steps, .word a.lateEvents, .word (place 16 0 s.log.epoch),
       .word (place 9 0 a.scheduled.length)] o
  else if inBlocks 0x100 0x10 8 o then
    let x := a.patterns.get ((o - 0x100) / 0x10)
    regOf [.word x.state.code, sreg x.fitted, sreg x.ratio, .word x.passed] (o % 0x10)
  else rsv

/-! ## Page 7: flock fabric -/

/-- Membership state code (table *Membership states*). -/
def MemberState.code : MemberState → Nat
  | .detached => 0 | .timeQual => 1 | .joinWait => 2 | .backoff => 3 | .joined => 4 | .rehoming => 5 | .orphan => 6
  | .leaving => 7 | .refused => 8

/-- Lane state code (table *Lane states*). -/
def LaneState.code : LaneState → Nat
  | .off => 0 | .signalWait => 1 | .training => 2 | .aligning => 3 | .up => 4 | .down => 5

/-- FL_STATUS (table *FL_STATUS fields*). -/
def flStatus (s : State) : Nat :=
  s.fl.state.code + 16 * flag s.fl.config.joinEnabled + 32 * flag s.fl.alternate.isSome + 64 * flag (s.sys.role == .hub) +
    128 * flag (admitting s) + place 8 8 s.fl.lastNak

/-- FL_UPSTREAM: primary, alternate and parent. -/
def flUpstream (s : State) : Nat :=
  let parent := ((s.fl.primary.bind (fun p => (s.fl.ports.get p).peer)).bind (·.member)).getD 0
  place 4 0 (s.fl.primary.getD 0) + 16 * flag s.fl.primary.isSome + place 4 5 (s.fl.alternate.getD 0) +
    512 * flag s.fl.alternate.isSome + place 14 16 parent

/-- Members in a state, on a hub. -/
def memberCount (s : State) (f : IdState → Bool) : Nat :=
  if s.sys.role ≠ .hub then 0
  else (s.fl.members.cells.filter (fun p => (p.2.map (fun r => f r.state)).getD false)).length

/-- The registers of a lane block. -/
def laneBlock (s : State) (l : Nat) : List Reg :=
  let x := s.fl.lanes.get l
  let p := portOfLane s l
  [.word (x.state.code + 8 * serviceCode s (laneUnit l) + place 4 5 p +
     512 * flag (x.state == .up && (s.fl.ports.get p).lanes.contains l) + 1024 * flag x.precoding + place 3 11 x.band +
     16384 * flag x.prbs.isSome),
   .word x.trainTime, .low x.corrected 0, .high, .low x.uncorr 0, .high, .word x.ser, .word x.trainings, .word x.lastDown,
   .word x.qualLeft, .word ((x.prbs.map (·.1)).getD 0)]

/-- The registers of a port block. PAYLOAD is 51.46 Gb/s for each lane in use (table *Port bonds*). -/
def portBlock (s : State) (p : Nat) : List Reg :=
  let x := s.fl.ports.get p
  let usable := flockPort s == some p && sourceUsable s srcFlock
  [.word (x.config.function.code + 8 * flag (portUp s p) + 16 * portUse s p + place 3 6 (portLanes s p).length +
     place 3 9 x.lanes.length + 4096 * flag usable + 8192 * flag x.mismatch),
   .word (place 14 0 ((x.peer.bind (·.member)).getD 0) + 16384 * flag ((x.peer.bind (·.member)).isSome) +
     place 8 15 ((x.peer.bind (·.hops)).getD 0)),
   sreg x.delay, sreg x.offset, .word (51460 * x.lanes.length), .word x.flitsLost, .word x.ctrlDrops,
   .word (place 9 0 x.queue.length), .word x.ttValid, .word x.mismatches]

/-- Page 7, lower half (table *Flock-link telemetry*). -/
def page7Links (s : State) (o : Nat) : Reg :=
  let f := s.fl
  let left := if f.state = .backoff then frameDistance s f.backoffEnd else 0
  if o < 0x1000 then
    regOf
      ([.word (flStatus s), .word (place 14 0 (f.memberId.getD 0) + 16384 * flag f.memberId.isSome + place 8 15 ((hopCount s).getD 0)),
        .word (flUpstream s), .word f.attempts, .word f.naks, .word left, .word f.rehomes, .word f.orphans,
        .word (place 8 0 f.admitLast + place 8 8 f.nakLast), .word f.admitTotal, .word f.nakTotal, rsv,
        halves (memberCount s (fun x => x == .joined)) (memberCount s (fun x => x == .heldLost || x == .heldLeft)),
        .word (if s.sys.role = .hub then f.lostCount else 0), rsv, rsv, rsv] ++
       (List.range 8).map (fun k => .word (f.nakReasons.get (k + 1)))) o
  else if inBlocks 0x1000 0x40 24 o then regOf (laneBlock s ((o - 0x1000) / 0x40)) (o % 0x40)
  else if inBlocks 0x2000 0x40 12 o then regOf (portBlock s ((o - 0x2000) / 0x40)) (o % 0x40)
  else rsv

/-- Endpoints of a flow, or of every flow, in a state. -/
def endCount (s : State) (flow : Option Nat) (f : EndState → Bool) : Nat :=
  (s.dv.ends.filter (fun e => (flow.isNone || flow == some e.flow) && f e.state)).length

/-- An endpoint state is UNREACHABLE. -/
def EndState.isUnreachable : EndState → Bool
  | .unreachable _ => true
  | _ => false

/-- The flow of place `k` among the flows homed at this part (R287). -/
def homeFlow (s : State) (k : Nat) : Option Nat :=
  if activeHub s then some k else if k < 16 ∧ s.sys.role ≠ .hub then s.fl.memberId.map (fun m => 16 * m + k) else none

/-- The registers of a home flow. -/
def homeBlock (s : State) (k : Nat) : List Reg :=
  match homeFlow s k with
  | none => []
  | some f =>
    let d := s.dv.desc.get f
    let intent := s.dv.intents.cells.find? (fun p => (p.2.map (fun i => i.flow == f)).getD false)
    let kind := match intent with
      | some (_, some i) => if i.uplink then 2 else 1
      | _ => d.place.kind
    let reasons := s.dv.ends.foldl (fun m e => match e.state with
      | .unreachable w => if e.flow = f then m ||| (1 <<< w.code) else m
      | _ => m) 0
    [.word (place 18 0 f + place 2 18 kind + 0x10_0000 * flag intent.isSome),
     halves (endCount s (some f) (fun x => x == .served)) (endCount s (some f) EndState.isUnreachable), .word d.lateLast,
     .word (place 8 0 reasons)]

/-- DV_STATUS (table *DV_STATUS fields*). -/
def dvStatus (s : State) : Nat :=
  let d := s.dv
  flag (activeHub s) + 2 * flag d.auto + 4 * flag d.split +
    place 4 3 (if activeHub s then d.issued.length else min 8 d.held.length) +
    128 * flag (d.targetNext.isSome || d.dTFrame.isSome) + place 8 8 d.fillLimit + place 8 16 d.planLead

/-- Page 7, upper half (table *Drover telemetry (page 7)*). -/
def page7Flows (s : State) (o : Nat) : Reg :=
  let d := s.dv
  if o < 0x9000 then
    regOf
      ([.word (dvStatus s), .word d.targetTc, .word d.lastSeq, .word d.lastFrame, .word d.cancels,
        .word (place 13 0 (activeFlows s).length + place 13 16 d.descPeak),
        (if activeHub s then halves (endCount s none (fun x => x == .served)) (endCount s none EndState.isUnreachable) else rsv),
        .word d.late, .word d.dropped, .word d.overflows, .word (if activeHub s then d.worstR else 0), rsv, rsv, rsv, rsv, rsv] ++
       (List.range 12).map (fun p => halves (portCharge s p) ((d.chargeLog.get p).foldl max (portCharge s p)))) (o - 0x8000)
  else if inBlocks 0x9000 0x10 32 o then regOf (homeBlock s ((o - 0x9000) / 0x10)) (o % 0x10)
  else rsv

/-! ## Page 8: memory and archive -/

/-- Capture state code (table *Capture states*). -/
def CapState.code : CapState → Nat
  | .free => 0 | .armed => 1 | .triggered => 2 | .complete => 3 | .draining => 4 | .archived => 5 | .restored => 6

/-- The registers of a capture slot. How far a drain has come is not fixed by the spec. -/
def capBlock (s : State) (k : Nat) : List Reg :=
  let c := s.mem.slots.get k
  let i := c.info
  let stopped := !(c.state == .free || c.state == .armed || c.state == .triggered)
  let drained : List Reg := match c.state with
    | .draining => [.lowFree, .high]
    | .archived => [.low (imageSize i) 0, .high]
    | _ => [.low 0 0, .high]
  [.word (c.state.code + 8 * flag i.band + 16 * flag i.preShort + 32 * flag i.stoppedEarly + 64 * flag i.corrupt +
     place 8 8 i.trigSources + place 16 16 c.extents.length), rsv, .low i.trigMono 0, .high,
   .low (if stopped then imageSize i else 0) 0, .high] ++ drained ++ [.word i.serial, .word i.preHeld]

/-- AR_STATUS. -/
def arStatus (m : MemState) : Nat :=
  (if m.enable then (if m.mounted then 2 else 1) else 0) + 4 * flag m.full + 8 * flag m.draining.isSome +
    16 * flag (!m.restores.isEmpty) + place 3 5 m.linkGen + place 3 8 m.linkWidth

/-- Page 8 (table *Memory and archive telemetry*). The drain rate is not fixed by the spec while the archive is in use. -/
def page8 (s : State) (o : Nat) : Reg :=
  let m := s.mem
  let band := fun (k : Nat) => (s.hk.sensors.get (10 + k)).usedBand
  if o < 0x1000 then
    regOf
      [.word (flag m.stack1 + 2 * flag m.pendingRetire + place 3 2 (band 0) + place 3 5 (band 1)),
       .word (place 10 0 (freeExtents m).length + place 10 16 m.retired.length), .word (admittedBandwidth m / 1000), rsv,
       .word (m.corrected.get 0), .word (m.uncorrectable.get 0), .word (m.corrected.get 1), .word (m.uncorrectable.get 1),
       .word (arStatus m), halves m.segments (freeSegments m).length, .word m.serial, if m.enable then .free else rsv] o
  else if inBlocks 0x1000 0x40 16 o then regOf (capBlock s ((o - 0x1000) / 0x40)) (o % 0x40)
  else rsv

/-! ## Page 9: Bell link -/

/-- Receiver state code (table *Receiver states*). -/
def BellRx.code : BellRx → Nat
  | .off => 0 | .search => 1 | .header => 2 | .payload => 3 | .transmit => 4 | .calibrating => 5

/-- BELL_STATUS (table *BELL_STATUS fields*). -/
def bellStatus (s : State) : Nat :=
  let b := s.bell
  let pendingCal := b.enabled && bellCalDue s && b.rx != .calibrating
  let rate := (b.reception.map (fun r => r.sync.rate)).getD 0
  b.rx.code + 8 * flag b.enabled + 16 * flag b.config.hub + 32 * flag pendingCal + 64 * flag b.agcFrozen +
    128 * flag b.suspended + place 2 8 rate + 1024 * flag b.second + 2048 * flag b.configured + place 5 12 b.queue.length

/-- The registers of a neighbour. -/
def neighbourBlock (s : State) (k : Nat) : List Reg :=
  match s.bell.neighbours[k]? with
  | some n =>
    [.word (place 14 0 n.member + 16384 + 32768 * flag n.hops.isSome + place 8 16 (n.hops.getD 0xFF)), sreg n.level,
     .word ((now s - n.heard) / tcPerMs)]
  | none => []

/-- Page 9 (table *Bell telemetry*). -/
def page9 (s : State) (o : Nat) : Reg :=
  let b := s.bell
  let lockouts := (b.locked.filter (fun p => decide (now s < p.2))).length
  if o < 0x100 then
    regOf
      [.word (bellStatus s), .word b.syncs, .word b.ok, .word b.hdrFail, .word b.superseded, .word b.collided, .word b.captured,
       .word b.payFail, .word b.packets, .word b.ccaDefer, .word b.dropped, .word b.authFail, sreg b.lastLevel,
       .word (unsignedOf 16 b.lastMetric + place 2 16 b.lastRate), .word (place 8 0 lockouts + place 8 8 b.keys.length),
       .word (place 14 0 (b.relay.getD 0) + 16384 * flag b.relay.isSome + place 8 16 (liveRelayed s).length),
       .word b.relayCount] o
  else if inBlocks 0x100 0x10 16 o then regOf (neighbourBlock s ((o - 0x100) / 0x10)) (o % 0x10)
  else rsv

/-! ## Page 10: management and security -/

/-- The registers of a session place. -/
def sessionBlock (s : State) (k : Nat) : List Reg :=
  match s.host.sessions.get k with
  | some x => [.word x.id, .word (x.role.code + 4 * pathCode x.path), .word x.requests, .word ((now s - x.last) / tcPerSecond)]
  | none => []

/-- The registers of a mailbox's statistics. -/
def mailboxBlock (s : State) (n : Nat) : List Reg :=
  let m := s.host.mailboxes.get n
  [.word m.started, .word m.rejected, .word m.ignored, halves m.lastStatus m.lastOpcode]

/-- Page 10, 0x0000–0x1FFF (table *Page 10 host registers*). -/
def page10Host (s : State) (o : Nat) : Reg :=
  let h := s.host
  let open_ := ((List.range 16).filter (fun k => (h.sessions.get k).isSome)).length
  let lockedPaths := flag (lockedOut s .pcie) + 2 * flag (lockedOut s .ethernet) + 4 * flag (lockedOut s .spi)
  if o < 0x100 then
    regOf
      [.word (place 5 0 open_ + 32 * flag h.pcieUp + 64 * flag h.ethUp + place 2 7 h.ethMode + place 3 9 lockedPaths),
       .word h.authFail, .word h.ethReject, .word h.ethResent] o
  else if inBlocks 0x100 0x10 16 o then regOf (sessionBlock s ((o - 0x100) / 0x10)) (o % 0x10)
  else if inBlocks 0x200 0x10 16 o then regOf (mailboxBlock s ((o - 0x200) / 0x10)) (o % 0x10)
  else rsv

/-- LOG_STATUS (table *LOG_STATUS fields*). -/
def logStatus (l : LogState) : Nat :=
  flag l.ig + 2 * flag (l.active == some .bankB) + 4 * flag (spareOk l) + 8 * flag l.active.isNone +
    place 5 4 l.emergency.length + 512 * flag l.full + 1024 * flag l.clearing.isSome + 2048 * flag l.mirrorFault

/-- Page 10, 0x2000–0x20FF (table *Logbook telemetry (page 10)*). -/
def page10Log (s : State) (o : Nat) : Reg :=
  let l := s.log
  let held := if l.active.isSome then heldRecords l else []
  regOf
    [.word (logStatus l), .word l.head, .word ((held.getLast?.map (·.seq)).getD 0), .word held.length, .word l.lost,
     .word ((l.mirror.head?.map (·.seq)).getD 0), .word (if activeHub s && s.pair.config.enable then l.pairSeq else 0),
     .word l.sealSeq, .word (place 8 0 l.igLimit + place 24 8 l.igWindow),
     .word (place 16 0 l.corrected + place 8 16 l.flashFails + place 8 24 l.switches), .word l.goodSeq] o

/-- SEC_STATUS (table *SEC_STATUS fields*). -/
def secStatus (s : State) : Nat :=
  let y := s.sys
  let locked := match y.debugLocked with
    | some t => decide (now s < t)
    | none => false
  y.lifecycle.code + 4 * (y.debug).code + 16 * flag y.authAllowed + 32 * flag locked + 64 * y.power.code +
    256 * flag (y.running == .slotB) + 512 * flag y.trial + 1024 * flag y.fallback + 2048 * y.resetKind.code +
    0x4000 * flag y.pwrFail + 0x8000 * flag y.strapReserved

/-- Page 10, 0x4000–0x4FFF (table *Start-up and security telemetry*). -/
def page10Sec (s : State) (o : Nat) : Reg :=
  let y := s.sys
  let k := y.keys
  regOf
    [.word (secStatus s), .word (((slotImage y .slotA).map (·.version)).getD 0), .word (((slotImage y .slotB).map (·.version)).getD 0),
     .word k.counter, .word (place 8 0 y.warmResets + place 8 8 y.wdtResets + place 8 16 y.unitResets + place 8 24 y.wakes),
     .word (flag k.monitor.isSome + 2 * flag k.operate.isSome + 4 * flag k.admin.isSome + 8 * flag k.flock.isSome +
       16 * flag (k.debug).isSome + place 7 5 s.bell.keys.length),
     .low y.lastReset 0, .high, .word y.debugFailCount, .word y.pwrFailCount] o

/-- PAIR_STATUS (table *PAIR_STATUS fields*). -/
def pairStatus (s : State) : Nat :=
  let p := s.pair
  let l := mirrorPorts s
  p.phase.code + 8 * flag p.config.preferStandby + place 4 4 (l.getD 0 0) + place 4 8 (l.getD 1 0) +
    4096 * flag (decide (1 < l.length)) + 8192 * flag (p.links.get 0).up + 16384 * flag (p.links.get 1).up +
    32768 * flag p.config.sharedDonor + 0x1_0000 * flag p.switchAt.isSome + 0x2_0000 * flag p.frozen.isSome

/-- Page 10, 0x5000–0x5FFF (table *Pair telemetry*). -/
def page10Pair (s : State) (o : Nat) : Reg :=
  let p := s.pair
  regOf
    [.word (pairStatus s), .word p.term, .low p.peerSerial 0, .high, .word (if standbyHub s then p.seqApplied else p.seqSent),
     .word (if standbyHub s then 0 else p.seqSent - p.seqAcked),
     .word (min 255 (p.links.get 0).missed + 256 * min 255 (p.links.get 1).missed + place 16 16 p.misses), .word p.lastFrame,
     .word (place 8 0 p.takeovers + place 8 8 p.demotions + place 8 16 p.splits + place 8 24 p.bulks),
     .word (((p.frozen.bind (·.head?)).map (·.seq)).getD 0)] o

/-- Page 10 (table *Telemetry pages*). -/
def page10 (s : State) (o : Nat) : Reg :=
  if o < 0x2000 then page10Host s o
  else if o < 0x2100 then page10Log s (o - 0x2000)
  else if 0x4000 ≤ o ∧ o < 0x5000 then page10Sec s (o - 0x4000)
  else if 0x5000 ≤ o ∧ o < 0x6000 then page10Pair s (o - 0x5000)
  else rsv

/-! ## Page 11: fault collector -/

/-- FC_STATUS (table *FC_STATUS fields*). -/
def fcStatus (f : FaultState) : Nat :=
  flag f.halt.isSome + 2 * flag f.faultN + 4 * flag f.firstFault.isSome + place 3 3 (worstSeverity f) + place 3 6 f.faultNLevel +
    place 3 9 f.ffLevel + place 6 12 f.windows.length + place 9 18 f.entries.length

/-- CLASS_CFG of a class number; 0 for a number that is no class. -/
def classCfg (f : FaultState) (c : Nat) : Nat :=
  match classRow c with
  | none => 0
  | some r =>
    let k := classConfig f c
    place 3 0 k.severity + place 3 3 r.floor + place 3 6 k.ceiling + 512 * flag k.manual + 1024 +
      65536 * min 65535 (f.classRaises.get c)

/-- The word of `b` at byte offset `o`, least significant byte first. -/
def wordAt (b : List Byte) (o : Nat) : Nat := u32 b (o / 4 * 4)

/-- The first-fault record: its monotonic and wall times are read by R14. -/
def ffReg (f : FaultState) (o : Nat) : Reg :=
  match f.firstFault with
  | none => if o = 8 ∨ o = 16 then .low 0 0 else if o = 12 ∨ o = 20 then .high else rsv
  | some r =>
    if o = 8 then .low r.mono r.seq else if o = 16 then .low r.wall r.seq else if o = 12 ∨ o = 20 then .high
    else .word (wordAt (recordBytes r) o)

/-- The registers of an open window. -/
def windowBlock (f : FaultState) (k : Nat) : List Reg :=
  match f.windows[k]? with
  | some w => [.word w.parent, .word (w.mask.toNat + 0x8000_0000), .word (w.closeAt.getD 0), .word w.count]
  | none => []

/-- Page 11 (table *Fault telemetry*). -/
def page11 (s : State) (o : Nat) : Reg :=
  let f := s.fault
  if o < 0x100 then
    regOf
      [.word (fcStatus f), .word f.lastSeq, .word f.raises, .word f.conseq, .word f.masked, .word f.escalated, .word f.overflow,
       .word f.windowFull, .word ((f.halt.map (·.1)).getD 0), .word ((f.halt.map (·.2)).getD 0)] o
  else if inBlocks 0x100 4 256 o then .word (classCfg f ((o - 0x100) / 4))
  else if inBlocks 0x800 4 16 o then ffReg f (o - 0x800)
  else if inBlocks 0x840 4 4 o then
    regOf (.word (flag f.firstFault.isSome + 2 * min 3 f.companions.length) ::
      (List.range 3).map (fun k => .word (f.companions.getD k 0))) (o - 0x840)
  else if inBlocks 0x1000 0x20 256 o then
    (match f.entries[(o - 0x1000) / 0x20]? with
     | some e => .word ((entryWords e).getD (o % 0x20 / 4) 0)
     | none => rsv)
  else if inBlocks 0x3000 0x10 32 o then regOf (windowBlock f ((o - 0x3000) / 0x10)) (o % 0x10)
  else rsv

/-! ## Page 12: the event ring -/

/-- The words of a ring entry (table *Event entry*). -/
def eventBlock (e : Event) : List Reg :=
  [.word e.seq, .word (place 8 0 e.kind + place 8 8 e.mailbox + place 16 16 e.code), .word e.tag, halves e.status e.flags,
   .word e.detail, .word e.param, .low e.mono e.seq, .high]

/-- BAR2 at an offset (R437); it reads 0 before READY (R446). -/
def bar2 (s : State) (a : Nat) : Reg :=
  let o := a % 0x1_0000
  if s.sys.ready = false then rsv
  else
    match a / 0x1_0000 with
    | 0 => page0 s o
    | 1 => page1 s o
    | 2 => page2 s o
    | 3 => page3 s o
    | 4 => page4 s o
    | 5 => page5 s o
    | 6 => page6 s o
    | 7 => if o < 0x8000 then page7Links s o else page7Flows s o
    | 8 => page8 s o
    | 9 => page9 s o
    | 10 => page10 s o
    | 11 => page11 s o
    | 12 => if o < 0x8000 then regOf (eventBlock (s.host.ring.get (o / 0x20))) (o % 0x20) else rsv
    | _ => rsv

/-! ## BAR0 -/

/-- READY_STATUS (table *READY_STATUS fields*). -/
def readyStatus (s : State) : Nat :=
  let held := !s.sys.ready && (List.range 16).any (fun n => (s.host.mailboxes.get n).state == .pending)
  flag s.sys.ready + place 3 1 s.sys.stage + place 1 4 s.sys.bootSource + 32 * flag s.sys.configLoaded + 64 * flag held

/-- The bytes of the response area: header, then payload (table *Response header*). -/
def responseBytes (r : Response) : List Byte :=
  le 2 r.status ++ le 2 r.opcode ++ le 4 r.tag ++ le 4 r.payload.length ++ le 4 r.detail ++ r.payload

/-- A word of the mailbox block; a path reads its own mailboxes (R411, R421). -/
def mailboxWord (path : HostPath) (s : State) (n o : Nat) : Nat :=
  let m := s.host.mailboxes.get n
  if s.host.config.paths.get n ≠ path then 0
  else if o < 0x800 then m.area.get (o / 4) else wordAt (responseBytes m.response) (o - 0x800)

/-- A word of the MSI-X table (R434). -/
def msixWord (e : MsixEntry) (k : Nat) : Nat := [e.addrLo, e.addrHi, e.data, e.control].getD k 0

/-- ID_ROLE. -/
def idRole (s : State) : Nat :=
  s.sys.roleStraps.toNat + 4 * s.sys.role.code + 16 * flag s.sys.storedRole.isSome + 32 * s.sys.lifecycle.code

/-- BAR0 at an offset, as a path reads it (table *BAR0 registers*). -/
def bar0 (path : HostPath) (s : State) (a : Nat) : Reg :=
  let h := s.host
  let perBox := fun (f : Nat → Nat) => ((List.range 16).map (fun n => place 2 (2 * n) (f n))).sum
  if 0x1_0000 ≤ a then .word (mailboxWord path s ((a - 0x1_0000) / 0x1000) (a % 0x1000))
  else if a < 0x100 then
    regOf
      [.word 0x7216, .word (0xC0 + 256 * flag s.sys.gradeX), .word s.sys.firmware, .word (idRole s), .low Config.serial.toNat 0, .high,
       .word (place 14 0 (s.fl.memberId.getD 0) + 16384 * flag s.fl.memberId.isSome)] a
  else if a < 0x200 then
    regOf [.word (readyStatus s), .word s.sys.readyTime, .word (modelledPower s), .word s.sys.powerLimit] (a - 0x100)
  else if a < 0x300 then
    regOf
      [rsv, .word (perBox (fun n => (h.mailboxes.get n).state.code)), .word h.overrun.toNat,
       .word (perBox (fun n => pathCode (h.config.paths.get n))), .word (bits 31 0 (h.paths.get (pathCode path)).nonce.toNat),
       .word (bits 63 32 (h.paths.get (pathCode path)).nonce.toNat), .word (bits 95 64 (h.paths.get (pathCode path)).nonce.toNat),
       .word (bits 127 96 (h.paths.get (pathCode path)).nonce.toNat)] (a - 0x200)
  else if a < 0x400 then regOf [.word h.irqStatus.toNat, .word h.irqEnable.toNat, .word h.irqNEnable.toNat] (a - 0x300)
  else if a < 0x500 then
    regOf [.word h.evtHead, .word h.evtAck, .word (place 16 0 h.holdoff + place 8 16 h.threshold), .word h.evtOverwritten]
      (a - 0x400)
  else if a = 0x500 then .word h.logCursor
  else if a = 0x600 then .word h.capWinSlot
  else if a = 0x604 then .word h.capWinPage
  else if a = 0x700 then .word h.siteLevel.toNat
  else if a = 0x704 then .word (h.siteRise.toNat + 65536 * h.siteFall.toNat)
  else if a = 0x800 then .word h.badAccess
  else if inBlocks 0xE000 0x10 32 a then .word (msixWord (h.msixTable.get ((a - 0xE000) / 0x10)) (a % 0x10 / 4))
  else if a = 0xF000 then .word h.msixPba.toNat
  else rsv

/-! ## BAR4 -/

/-- Four bytes of the capture window; 0xFF where no image byte is mapped (R328). -/
def captureWord (s : State) (o : Nat) : Nat :=
  let c := s.mem.slots.get s.host.capWinSlot
  let b := (List.range 4).map (fun i => (imageByte c (s.host.capWinPage * 0x1_0000 + o + i)).getD 0xFF)
  u32 b 0

/-- BAR4 at an offset: the Logbook window and the capture window; reads have no side effect (R397, R412, R413), and return 0
before READY (R446). -/
def bar4 (s : State) (a : Nat) : Reg :=
  if s.sys.ready = false then rsv
  else if a < 0x1000 then .word (wordAt (windowEntry s (a / 64)) (a % 64))
  else if 0x800_0000 ≤ a then .word (captureWord s (a - 0x800_0000))
  else rsv

/-! ## Reads (R14, R411, R413) -/

/-- A path answers reads: after a failed boot the SPI target does (R442). -/
def readAnswers (s : State) (path : HostPath) : Bool := pathAnswers s path || (path == .spi && s.sys.stage == 7)

/-- What stands at an aligned address of the host address map; after a failed boot only identity and READY_STATUS (R442). -/
def regAt (path : HostPath) (s : State) (a : Nat) : Reg :=
  if s.sys.stage = 7 ∧ ¬ (a < 0x20 ∨ a = 0x100) then rsv
  else if a < 0x2_0000 then bar0 path s a
  else if 0x0100_0000 ≤ a ∧ a < 0x0200_0000 then bar2 s (a - 0x0100_0000)
  else if 0x1000_0000 ≤ a ∧ a < 0x2000_0000 then bar4 s (a - 0x1000_0000)
  else rsv

/-- A 32-bit read of the register at an aligned address, with its side effect on the shadows (R14, R15, R240). -/
def readWord (path : HostPath) (a : Nat) (s : State) : Nat × State :=
  match regAt path s a with
  | .word n => (n % 4294967296, s)
  | .low v tag =>
    (v % 4294967296, s.modHost (fun h => { h with shadows := h.shadows.set a (v / 4294967296 % 4294967296, tag) }))
  | .high => ((s.host.shadows.get (a - 4)).1, s)
  | .sum c => (unsignedOf 64 (s.hk.records.get c).acc.sum % 4294967296, channelRecordLatch c s)
  | .shadow c k => ((s.host.chanShadow.get c).getD k 0, s)
  | .free => let d := draw s; (Config.freeNat d.1 % 4294967296, d.2)
  | .lowFree =>
    let d := draw s
    let v := Config.freeNat d.1
    (v % 4294967296, d.2.modHost (fun h => { h with shadows := h.shadows.set a (v / 4294967296 % 4294967296, 0) }))

/-- `n` words from an aligned address on, in ascending order. -/
def readWords (path : HostPath) : Nat → Nat → State → List Nat × State
  | 0, _, s => ([], s)
  | n + 1, a, s =>
    let r := readWord path a s
    let rest := readWords path n (a + 4) r.2
    (r.1 :: rest.1, rest.2)

/-- What leaves at a host path; with TEST_MODE high nothing is driven (R497). -/
def emitHost (x : HostOutput) (s : State) : State :=
  if s.sys.testMode then s else s.modHost (fun h => { h with out := x :: h.out })

/-- The low half of a 64-bit register is read on a path: its value leaves there. A read of any other register does the same
without a shadow. Reads of 1, 2 or 8 bytes are reads of the 32-bit registers that contain them (R413). -/
def lowHalfRead (path : HostPath) (address : Nat) (s : State) : State :=
  if readAnswers s path = false then s
  else
    let r := readWord path (address / 4 * 4) s
    match path with
    | .pcie => emitHost (.pcieData [r.1]) r.2
    | .ethernet => emitHost (.ethReadData 0 [r.1]) r.2
    | .spi => emitHost (.spiData [r.1]) r.2
    | .none => s

def execLowHalfRead (path : HostPath) (address : Nat) (s : State) : Host.Outcome State Fault Refusal :=
  .next (lowHalfRead path address s)

/-- Words that a READ asks for; the one-byte field counts 256 as 0 (table *Management datagram header*). -/
def readCount (d : EthDatagram) : Nat := if d.count = 0 then 256 else d.count

/-- A READ may be answered: inside BAR0 0x0000–0x0FFF always, elsewhere with an open session of the Ethernet path (R415). -/
def readAllowed (s : State) (d : EthDatagram) : Bool :=
  decide (d.address + 4 * readCount d ≤ 0x1000) || (sessionPlace s.host d.session .ethernet).isSome

/-- A READ datagram returns READ_DATA, or is discarded and counted. -/
def ethRead (d : EthDatagram) (s : State) : State :=
  if pathAnswers s .ethernet = false ∨ d.kind ≠ 2 then s
  else if (datagramOk d && d.address % 4 == 0 && decide (d.count ≤ 256) && readAllowed s d) = false then rejectDatagram s
  else
    let r := readWords .ethernet (readCount d) d.address s
    emitHost (.ethReadData d.xid r.1) r.2

def execEthRead (d : EthDatagram) (s : State) : Host.Outcome State Fault Refusal := .next (ethRead d s)

/-- Words written at auto-incrementing addresses (R418). -/
def writeWords : Nat → List Word → State → State
  | _, [], s => s
  | a, w :: rest, s => writeWords (a + 4) rest (registerWrite .spi a 4 w s)

/-- One SPI transfer: `count` words read with 0x03 or 0x0B, or whole `words` written with 0x02, at auto-incrementing addresses
(R418). An address that is no multiple of 4 has no stated read; a write there is ignored and counted (R413). -/
def spiTransfer (command address count : Nat) (words : List Word) (s : State) : State :=
  if readAnswers s .spi = false then s
  else if command = 0x02 then
    if address % 4 = 0 then writeWords address words s
    else words.foldl (fun acc w => registerWrite .spi address 4 w acc) s
  else if command = 0x03 ∨ command = 0x0B then
    if address % 4 = 0 then
      let r := readWords .spi count address s
      emitHost (.spiData r.1) r.2
    else
      let d := draw s
      emitHost (.spiData ((List.range count).map (fun k => Config.freeNat (d.1 + k) % 4294967296)))
        { d.2 with drawn := d.1 + count + 1 }
  else s

def execSpiTransfer (command address count : Nat) (words : List Word) (s : State) : Host.Outcome State Fault Refusal :=
  .next (spiTransfer command address count words s)

/-! ## The I2C status map (R419) -/

/-- T_gov in whole degrees, rounded to nearest even; 0x80 in DORMANT. -/
def i2cTemperature (s : State) : Nat :=
  if s.sys.power = .dormant then 0x80 else unsignedOf 8 (clampI 127 (roundEven s.hk.tGov 100))

/-- A register of the table *I2C status map*; none beyond the table. -/
def i2cRegister (s : State) (k : Nat) : Option Nat :=
  let power := modelledPower s / 100
  ([0x16,
    flag s.sys.ready + 2 * flag s.fault.faultN + 4 * flag s.fault.halt.isSome + 8 * s.sys.role.code + 32 * s.sys.power.code,
    place 3 0 (worstSeverity s.fault), i2cTemperature s,
    place 3 0 (((List.range 24).map (fun n => (s.hk.sensors.get n).band)).foldl max 0),
    power % 256, power / 256 % 256, s.sys.lifecycle.code, s.host.siteLevel.toNat % 256, s.host.siteLevel.toNat / 256,
    s.host.heartbeat % 256, 0, 0, 0, 0, 0])[k]?

/-- `n` consecutive registers from the pointer on. What lies beyond the table is not stated. -/
def i2cRead : Nat → State → List Nat × State
  | 0, s => ([], s)
  | n + 1, s =>
    let k := s.host.i2cPointer
    let r : Nat × State := match i2cRegister s k with
      | some v => (v, s)
      | none => let d := draw s; (Config.freeNat d.1 % 256, d.2)
    let rest := i2cRead n (r.2.modHost (fun h => { h with i2cPointer := (k + 1) % 256 }))
    (r.1 :: rest.1, rest.2)

/-- One I2C transfer: the first written byte sets the pointer, further ones are ignored, and a read returns consecutive
registers. The target answers in every power state. -/
def i2cTransfer (written : List Byte) (count : Nat) (s : State) : State :=
  let s1 := match written with
    | b :: _ => s.modHost (fun h => { h with i2cPointer := b.toNat })
    | [] => s
  let r := i2cRead count s1
  if count = 0 then s1 else emitHost (.i2cData r.1) r.2

def execI2cTransfer (written : List Byte) (count : Nat) (s : State) : Host.Outcome State Fault Refusal :=
  .next (i2cTransfer written count s)

end Sys2Proof.Machine
end

