-- ==== Sys2Proof/Machine/Keeper.lean ====
section
/-! DEFINITION. Keeper services and the handling of chain packets (R356–R363). -/

namespace Sys2Proof.Machine

open Sys2Proof

/-! ## Authentication (R356, R358, R359) -/

/-- Low 32 bits of the serial number. -/
def serialLo : Nat := Config.serial.toNat % 4294967296

/-- The first 8 bytes of the tag over the header and the payload before it; the tag's bytes stand as in SYS_SESSION_OPEN. -/
def keeperTag (key : List Byte) (h : BellHeader) (body : List Byte) : Nat :=
  (Config.hmacSha256 key (le 4 (headerWord h) ++ body)).toNat % 2 ^ 64

/-- Why a request fails authentication: 0 unknown keeper, 1 wrong tag, 2 stale counter. -/
def keeperFault (s : State) (h : BellHeader) (p : List Byte) : Option Nat :=
  match s.bell.keys.find? (fun k => k.id == u16 p 0) with
  | none => some 0
  | some k =>
    if p.length < 20 ∨ uN p (p.length - 8) 8 ≠ keeperTag k.key h (p.take (p.length - 8)) then some 1
    else if u32 p 2 ≤ k.counter then some 2
    else none

/-- Failures of a keeper within the last 60 s. -/
def recentFails (s : State) (id : Nat) : List (Nat × Nat) :=
  s.bell.fails.filter (fun x => x.1 == id && decide (now s < x.2 + tcOfS 60))

/-- A failure is counted and recorded; the fifth within 60 s locks the keeper out (R359). -/
def keeperFailed (id reason counter : Nat) (s : State) : State :=
  let s1 := submitLog 0x0D01 (sourceIndex 9 0) [id, reason, counter] (s.modBell (fun b => { b with
    authFail := (b.authFail + 1) % 4294967296, fails := (id, now s) :: recentFails s id ++ b.fails.filter (fun x => x.1 != id) }))
  if 5 ≤ (recentFails s1 id).length then
    submitLog 0x0D02 (sourceIndex 9 0) [id, 300] (s1.modBell (fun b => { b with
      locked := (id, now s + tcOfS 300) :: b.locked.filter (fun x => x.1 != id) }))
  else s1

/-- An accepted request moves the keeper's counter, which boot flash takes after every 64 (R358). -/
def acceptCounter (id counter : Nat) (s : State) : State :=
  s.modBell (fun b => { b with keys := b.keys.map (fun k =>
    if k.id ≠ id then k
    else if 64 ≤ k.since + 1 then { k with counter, stored := counter, since := 0 }
    else { k with counter, since := k.since + 1 }) })

/-! ## Responses (R352, R356) -/

/-- Payload bytes 0–11 of a response. -/
def responseHead (id counter service : Nat) (truncated : Bool) : List Byte :=
  le 2 id ++ le 4 counter ++ le 4 serialLo ++ le 1 service ++ le 1 (flag truncated)

/-- The whole payload with its tag. -/
def keeperBytes (key : List Byte) (h : BellHeader) (head : List Byte) (st : Status) (result : List Byte) : List Byte :=
  let b := head ++ le 2 st.code ++ le 2 0 ++ result
  b ++ le 8 (keeperTag key h b)

/-- Header of a response with `n` result bytes. -/
def responseHeader (a : BellHeader) (n seq : Nat) : BellHeader := { kind := 1, twoThirds := a.twoThirds, length := 24 + n, seq }

/-- A response is queued, at the rate and the code rate of its request. -/
def queueResponse (a : BellArrival) (key : List Byte) (start : Nat) (head : List Byte) (st : Status) (result : List Byte)
    (s : State) : State :=
  let h := responseHeader a.header result.length ((s.bell.seq + 1) % 256)
  bellQueue { header := h, rate := a.rate, content := .response (keeperBytes key h head st result), start } s

/-- A mailbox response as a keeper receives it: its header and at most 160 bytes of its payload. -/
def commandResult (r : Response) : List Byte :=
  le 2 r.status ++ le 2 r.opcode ++ le 4 r.tag ++ le 4 r.payload.length ++ le 4 r.detail ++ r.payload.take 160

/-! ## Services (R356, R357) -/

/-- DISCOVER. -/
def discoverResult (s : State) : List Byte :=
  le 8 Config.serial.toNat ++ le 2 (s.fl.memberId.getD 0xFFFF) ++ le 1 s.sys.role.code ++ le 1 s.sys.lifecycle.code ++
    le 2 ((s.fault.entries.filter (·.active)).map (·.cls)).eraseDups.length

/-- READ_TELEMETRY: what it answers, and the shadows that its reads leave. -/
def readResult (args : List Byte) (s : State) : (Status × List Byte) × State :=
  let o := u32 args 0
  let n := u8 args 4
  if args.length ≠ 5 then ((.eLength, []), s)
  else if o % 4 ≠ 0 ∨ n = 0 ∨ 48 < n ∨ 0x0100_0000 < o + 4 * n then ((.eRange, []), s)
  else
    let r := readWords .none n (0x0100_0000 + o) s
    ((.ok, (r.1.map (le 4)).flatten), r.2)

/-- LOG_TAIL: the newest records, newest first. -/
def tailResult (args : List Byte) (s : State) : Status × List Byte :=
  let n := u8 args 0
  if args.length ≠ 1 then (.eLength, [])
  else if n = 0 ∨ 3 < n then (.eRange, [])
  else (.ok, (((servedRecords s.log).filter (fun r => r.seq != 0)).take n |>.map recordBytes).flatten)

/-- The request that a COMMAND carries, in the internal session of the keeper's role. -/
def keeperReq (role : Role) (args : List Byte) : Req :=
  { opcode := u16 args 0, flags := BitVec.ofNat 16 (u16 args 2), tag := u32 args 4, length := u32 args 8, session := 0
    payload := args.drop 16, origin := .keeper role }

/-- COMMAND. Its response goes out at the scheduled start; while there is none the packet waits (R357). -/
def keeperCommand (a : BellArrival) (k : KeeperKey) (start : Nat) (counter : Nat) (args : List Byte) (s : State) : State :=
  let plain := responseHead k.id counter 3 false
  if args.length < 16 ∨ 176 < args.length ∨ u32 args 8 ≠ args.length - 16 then queueResponse a k.key start plain .eLength [] s
  else
    let q := keeperReq k.role args
    let s1 := runRequest q (s.modHost (fun h => { h with internalReply := none }))
    if s1.bell.rx = .off then s1
    else
      match s1.host.internalReply with
      | some r =>
        queueResponse a k.key start (responseHead k.id counter 3 (decide (160 < r.payload.length))) .ok (commandResult r)
          (s1.modHost (fun h => { h with internalReply := none }))
      | none =>
        bellQueue { header := responseHeader a.header 0 0, rate := a.rate, content := .response plain, start
                    waiting := some { keeper := k.id, ended := a.end_, opcode := q.opcode, tag := q.tag } } s1

/-- The service of an accepted request. -/
def keeperService (a : BellArrival) (k : KeeperKey) (p : List Byte) (s : State) : State :=
  let counter := u32 p 2
  let service := u8 p 10
  let args := (p.take (p.length - 8)).drop 12
  let start := a.end_ + tcOfUs s.bell.config.keeperTurn
  let head := responseHead k.id counter service false
  if u8 p 11 ≠ 0 ∨ 3 < service then queueResponse a k.key start head .eRange [] s
  else if service = 0 then
    let d := draw s
    let wait := tcOfMs (5 * ((Config.randomWord d.1).toNat % 16))
    if args.isEmpty then queueResponse a k.key (start + wait) head .ok (discoverResult s) d.2
    else queueResponse a k.key (start + wait) head .eLength [] d.2
  else if service = 1 then
    let r := readResult args s
    queueResponse a k.key start head r.1.1 r.1.2 r.2
  else if service = 2 then
    let r := tailResult args s
    queueResponse a k.key start head r.1 r.2 s
  else keeperCommand a k start counter args s

/-- The request is for this part (R357). -/
def keeperTarget (p : List Byte) : Bool := u8 p 10 == 0 || u32 p 6 == serialLo

/-- R356–R359. The oldest accepted keeper request is authenticated and its service runs. A response that another part sent, a
request for another part and one of a locked-out keeper are left without trace. -/
def keeperRequest (s : State) : State :=
  match s.bell.arrivals.find? (fun a => a.header.kind != 2) with
  | none => s
  | some a =>
    let s0 := s.modBell (fun b => { b with arrivals := b.arrivals.erase a })
    match a.body with
    | .chain _ _ => s0
    | .keeper _ p _ =>
      let id := u16 p 0
      if a.header.kind ≠ 0 ∨ keeperTarget p = false ∨ s.bell.locked.any (fun x => x.1 == id) then s0
      else
        match keeperFault s a.header p, s.bell.keys.find? (fun k => k.id == id) with
        | none, some k => keeperService a k p (acceptCounter id (u32 p 2) s0)
        | some reason, _ => keeperFailed id reason (u32 p 2) s0
        | none, none => s0

def execKeeperRequest (s : State) : Host.Outcome State Fault Refusal := .next (keeperRequest s)

/-! ## Scheduled starts (R352, R357) -/

/-- The instant at which something falls due for a response in the queue: its scheduled start, or, past it, its command's answer
or the end of the wait for it. -/
def responseDue (s : State) (x : BellTx) : Option Nat :=
  if now s < x.start then some x.start
  else x.waiting.map (fun w => if w.reply.isSome then now s else w.ended + tcOfMs 50)

/-- The response that falls due next. -/
def nextDue (s : State) : Option (BellTx × Nat) :=
  (s.bell.queue.filter isResponse).foldl (fun b x =>
    match responseDue s x, b with
    | some t, some (y, u) => if t < u then some (x, t) else some (y, u)
    | some t, none => some (x, t)
    | none, _ => b) none

/-- The bytes of a response that has waited for its command. -/
def settleResponse (x : BellTx) (w : KeeperWait) (s : State) : State :=
  match s.bell.keys.find? (fun k => k.id == w.keeper), x.content with
  | some k, .response head =>
    let fill (st : Status) (truncated : Bool) (result : List Byte) : State :=
      let h := responseHeader x.header result.length x.header.seq
      let y := { x with
        header := h, content := .response (keeperBytes k.key h (head.take 11 ++ le 1 (flag truncated)) st result)
        start := max x.start (now s), waiting := none }
      s.modBell (fun b => { b with queue := b.queue.map (fun z => if z.header.seq = x.header.seq then y else z) })
    (match w.reply with
     | some r => fill .ok (decide (160 < r.payload.length)) (commandResult r)
     | none => if w.ended + tcOfMs 50 ≤ now s then fill .eTimeout false [] else s)
  | _, _ => s.modBell (fun b => { unqueue x b with dropped := (b.dropped + 1) % 4294967296 })

/-- R352, R357. A keeper response reaches its scheduled start; one whose command has not answered then goes on waiting, until it
answers or 50 ms have passed since the end of the request. -/
def keeperResponseDue (s : State) : State :=
  match nextDue s with
  | none => s
  | some (x, t) =>
    let s1 := advanceTo t s
    match x.waiting with
    | some w => settleResponse x w s1
    | none => s1

def execKeeperResponseDue (s : State) : Host.Outcome State Fault Refusal := .next (keeperResponseDue s)

/-! ## Chain packets (R360–R362) -/

/-- The packet whose ACK is awaited went to this member. -/
def acknowledges (src : Nat) (w : Option (BellTx × Nat)) : Bool :=
  match w with
  | some (x, _) => (match x.content with
    | .chain q => q.dst == some src
    | .response _ => false)
  | none => false

/-- A chain packet for this part is handled by its kind. Frames that come from this member's relay end here. -/
def chainPacket (p : ChainPacket) (level : Int) (at_ : Nat) (s : State) : State :=
  if p.kind = 0 then
    reviewRelay (s.modBell (fun b => { b with
      neighbours := hearNeighbour { member := p.src, hops := p.hops, level, heard := at_ } b.neighbours }))
  else if p.kind = 1 then
    if s.bell.relay = some p.src then queueChain (chainFrom s (some p.src) 2 [] []) s else relayPacket p s
  else if p.kind = 2 ∧ acknowledges p.src s.bell.awaiting then s.modBell (fun b => { b with awaiting := none })
  else s

/-- R360. The oldest accepted chain packet is handled. -/
def chainPacketReceive (s : State) : State :=
  match s.bell.arrivals.find? (fun a => a.header.kind == 2) with
  | none => s
  | some a =>
    let s0 := s.modBell (fun b => { b with arrivals := b.arrivals.erase a })
    match a.body with
    | .keeper _ _ _ => s0
    | .chain _ p =>
      if chainOn s && (p.dst.isNone || p.dst == some (ownMember s)) then chainPacket p a.level a.end_ s0 else s0

def execChainPacketReceive (s : State) : Host.Outcome State Fault Refusal := .next (chainPacketReceive s)

end Sys2Proof.Machine
end

