-- ==== Sys2Proof/Machine/Dispatch.lean ====
section
/-! DEFINITION. The dispatch of every command and event to its meaning, one arm for each constructor. -/

namespace Sys2Proof.Machine

open Sys2Proof

def exec (i : Instr) (s : State) : Host.Outcome State Fault Refusal :=
  match i with
  | .powerOnReset role boot => Sys2Proof.Machine.execPowerOnReset role boot s
  | .resetN role boot => Sys2Proof.Machine.execResetN role boot s
  | .bootStageAdvance us host badA badB => Sys2Proof.Machine.execBootStageAdvance us host badA badB s
  | .ready => Sys2Proof.Machine.execReady s
  | .trialTimeout => Sys2Proof.Machine.execTrialTimeout s
  | .warmReset => Sys2Proof.Machine.execWarmReset s
  | .watchdogTimeout => Sys2Proof.Machine.execWatchdogTimeout s
  | .watchdogReset => Sys2Proof.Machine.execWatchdogReset s
  | .unitResetComplete us => Sys2Proof.Machine.execUnitResetComplete us s
  | .dormantWake w us => Sys2Proof.Machine.execDormantWake w us s
  | .dormantEntry us => Sys2Proof.Machine.execDormantEntry us s
  | .pwrEnDrop => Sys2Proof.Machine.execPwrEnDrop s
  | .standbyEntry => Sys2Proof.Machine.execStandbyEntry s
  | .standbyExitComplete => Sys2Proof.Machine.execStandbyExitComplete s
  | .quietExit => Sys2Proof.Machine.execQuietExit s
  | .pwrFailNFall failed => Sys2Proof.Machine.execPwrFailNFall failed s
  | .pwrRestore => Sys2Proof.Machine.execPwrRestore s
  | .aonOscTick => Sys2Proof.Machine.execAonOscTick s
  | .loopTick inp => Sys2Proof.Machine.execLoopTick inp s
  | .slotBoundary => Sys2Proof.Machine.execSlotBoundary s
  | .subframeBoundary => Sys2Proof.Machine.execSubframeBoundary s
  | .frameBoundary inp => Sys2Proof.Machine.execFrameBoundary inp s
  | .symbolBoundary d n firsts convs => Sys2Proof.Machine.execSymbolBoundary d n firsts convs s
  | .ppsOutPulseEnd => Sys2Proof.Machine.execPpsOutPulseEnd s
  | .donorDetection d => Sys2Proof.Machine.execDonorDetection d s
  | .donorSyncTimeout => Sys2Proof.Machine.execDonorSyncTimeout s
  | .ptpSyncRx m => Sys2Proof.Machine.execPtpSyncRx m s
  | .ptpSyncTimeout => Sys2Proof.Machine.execPtpSyncTimeout s
  | .ppsInEdge widthNs => Sys2Proof.Machine.execPpsInEdge widthNs s
  | .ppsInMissing => Sys2Proof.Machine.execPpsInMissing s
  | .flockSourceTimeout => Sys2Proof.Machine.execFlockSourceTimeout s
  | .sourceRetryTimer code => Sys2Proof.Machine.execSourceRetryTimer code s
  | .revertHoldExpiry => Sys2Proof.Machine.execRevertHoldExpiry s
  | .atLocked => Sys2Proof.Machine.execAtLocked s
  | .airTimeStep => Sys2Proof.Machine.execAirTimeStep s
  | .stepPendingEnd => Sys2Proof.Machine.execStepPendingEnd s
  | .refInQualify freq => Sys2Proof.Machine.execRefInQualify freq s
  | .timeErrLimitExceeded => Sys2Proof.Machine.execTimeErrLimitExceeded s
  | .scheduledCommandFire => Sys2Proof.Machine.execScheduledCommandFire s
  | .tddPatternEffective p => Sys2Proof.Machine.execTddPatternEffective p s
  | .tddVerifyWindowEnd p late offset => Sys2Proof.Machine.execTddVerifyWindowEnd p late offset s
  | .atSourceConfig r => Sys2Proof.Machine.execAtSourceConfig r s
  | .tddPatternSet r => Sys2Proof.Machine.execTddPatternSet r s
  | .wallTimeSet r => Sys2Proof.Machine.execWallTimeSet r s
  | .atSchedule r => Sys2Proof.Machine.execAtSchedule r s
  | .atCancel r => Sys2Proof.Machine.execAtCancel r s
  | .rfChainConfig r => Sys2Proof.Machine.execRfChainConfig r s
  | .rfTxEnable r => Sys2Proof.Machine.execRfTxEnable r s
  | .rfRxAtten r => Sys2Proof.Machine.execRfRxAtten r s
  | .rfCalRun r => Sys2Proof.Machine.execRfCalRun r s
  | .rfCalGrant r => Sys2Proof.Machine.execRfCalGrant r s
  | .rfPolicy r => Sys2Proof.Machine.execRfPolicy r s
  | .rfObsMap r => Sys2Proof.Machine.execRfObsMap r s
  | .attenDeferredApply c => Sys2Proof.Machine.execAttenDeferredApply c s
  | .synthLock c us => Sys2Proof.Machine.execSynthLock c us s
  | .synthUnlock c => Sys2Proof.Machine.execSynthUnlock c s
  | .chainActivate c => Sys2Proof.Machine.execChainActivate c s
  | .lockTimeout c => Sys2Proof.Machine.execLockTimeout c s
  | .relockTimeout c => Sys2Proof.Machine.execRelockTimeout c s
  | .calEvaluation => Sys2Proof.Machine.execCalEvaluation s
  | .calibrationStart c => Sys2Proof.Machine.execCalibrationStart c s
  | .calibrationComplete c us vcoOk rejection result => Sys2Proof.Machine.execCalibrationComplete c us vcoOk rejection result s
  | .grantStart handle => Sys2Proof.Machine.execGrantStart handle s
  | .converterSelfCheckFail c => Sys2Proof.Machine.execConverterSelfCheckFail c s
  | .obsDwellStart o => Sys2Proof.Machine.execObsDwellStart o s
  | .obsDwellEnd o inp => Sys2Proof.Machine.execObsDwellEnd o inp s
  | .bpConfig r => Sys2Proof.Machine.execBpConfig r s
  | .bpRelease r => Sys2Proof.Machine.execBpRelease r s
  | .bpDetector r => Sys2Proof.Machine.execBpDetector r s
  | .bpAlign r => Sys2Proof.Machine.execBpAlign r s
  | .bpSyncPin r => Sys2Proof.Machine.execBpSyncPin r s
  | .dpdConfig r => Sys2Proof.Machine.execDpdConfig r s
  | .dpdControl r => Sys2Proof.Machine.execDpdControl r s
  | .fadeOutEnd d n => Sys2Proof.Machine.execFadeOutEnd d n s
  | .settleZerosEnd d n => Sys2Proof.Machine.execSettleZerosEnd d n s
  | .fadeInEnd n => Sys2Proof.Machine.execFadeInEnd n s
  | .alignmentApply => Sys2Proof.Machine.execAlignmentApply s
  | .syncAlignEdge held => Sys2Proof.Machine.execSyncAlignEdge held s
  | .syncAlignPulseEnd => Sys2Proof.Machine.execSyncAlignPulseEnd s
  | .alignLossDetect d n => Sys2Proof.Machine.execAlignLossDetect d n s
  | .detectorWindowEnd d n firsts convs symbols => Sys2Proof.Machine.execDetectorWindowEnd d n firsts convs symbols s
  | .detectorSelfCheckFail d n => Sys2Proof.Machine.execDetectorSelfCheckFail d n s
  | .pathSettleTimeout d n => Sys2Proof.Machine.execPathSettleTimeout d n s
  | .dpdUpdateApply t => Sys2Proof.Machine.execDpdUpdateApply t s
  | .dpdUpdateRevert t => Sys2Proof.Machine.execDpdUpdateRevert t s
  | .dpdSetSwitch t => Sys2Proof.Machine.execDpdSetSwitch t s
  | .flowBlockArrival eb flow ksps blk => Sys2Proof.Machine.execFlowBlockArrival eb flow ksps blk s
  | .lgLoopConfig r => Sys2Proof.Machine.execLgLoopConfig r s
  | .lgBeaconConfig r => Sys2Proof.Machine.execLgBeaconConfig r s
  | .lgCancelConfig r => Sys2Proof.Machine.execLgCancelConfig r s
  | .lgCancelControl r => Sys2Proof.Machine.execLgCancelControl r s
  | .lgSearchConfig r => Sys2Proof.Machine.execLgSearchConfig r s
  | .lgPolicy r => Sys2Proof.Machine.execLgPolicy r s
  | .pilotPeriodEnd eb m => Sys2Proof.Machine.execPilotPeriodEnd eb m s
  | .ladderStep eb => Sys2Proof.Machine.execLadderStep eb s
  | .lineDetectorFrame d n blocks => Sys2Proof.Machine.execLineDetectorFrame d n blocks s
  | .holdoffEnd d n => Sys2Proof.Machine.execHoldoffEnd d n s
  | .reacquireFitComplete inst => Sys2Proof.Machine.execReacquireFitComplete inst s
  | .cancellerSnapshotRestore inst => Sys2Proof.Machine.execCancellerSnapshotRestore inst s
  | .marginCapReceive f => Sys2Proof.Machine.execMarginCapReceive f s
  | .marginCapApply eb => Sys2Proof.Machine.execMarginCapApply eb s
  | .marginLowTimeout eb => Sys2Proof.Machine.execMarginLowTimeout eb s
  | .beaconLossTimeout eb => Sys2Proof.Machine.execBeaconLossTimeout eb s
  | .admitReqReceive member => Sys2Proof.Machine.execAdmitReqReceive member s
  | .admitGrantReceive frame => Sys2Proof.Machine.execAdmitGrantReceive frame s
  | .admissionFrame => Sys2Proof.Machine.execAdmissionFrame s
  | .gsSetGain r => Sys2Proof.Machine.execGsSetGain r s
  | .gsMute r => Sys2Proof.Machine.execGsMute r s
  | .npBackoffSet r => Sys2Proof.Machine.execNpBackoffSet r s
  | .npPolicy r => Sys2Proof.Machine.execNpPolicy r s
  | .ulGateConfig r => Sys2Proof.Machine.execUlGateConfig r s
  | .ulNoiseConfig r => Sys2Proof.Machine.execUlNoiseConfig r s
  | .npDonorConfig r => Sys2Proof.Machine.execNpDonorConfig r s
  | .npOutputConfig r => Sys2Proof.Machine.execNpOutputConfig r s
  | .gainRampEnd eb => Sys2Proof.Machine.execGainRampEnd eb s
  | .noiseWindowFilled ib => Sys2Proof.Machine.execNoiseWindowFilled ib s
  | .ulNoiseRiseTimeout eb => Sys2Proof.Machine.execUlNoiseRiseTimeout eb s
  | .donorLossTimeout ib => Sys2Proof.Machine.execDonorLossTimeout ib s
  | .donorRecovery ib => Sys2Proof.Machine.execDonorRecovery ib s
  | .donorOverloadDetect ib => Sys2Proof.Machine.execDonorOverloadDetect ib s
  | .clSlotConfig r => Sys2Proof.Machine.execClSlotConfig r s
  | .clBankWrite r => Sys2Proof.Machine.execClBankWrite r s
  | .clBankSwap r => Sys2Proof.Machine.execClBankSwap r s
  | .clSetpoint r => Sys2Proof.Machine.execClSetpoint r s
  | .clSlotControl r => Sys2Proof.Machine.execClSlotControl r s
  | .clRepConfig r => Sys2Proof.Machine.execClRepConfig r s
  | .clInject r => Sys2Proof.Machine.execClInject r s
  | .clTraceConfig r => Sys2Proof.Machine.execClTraceConfig r s
  | .clTraceRead r => Sys2Proof.Machine.execClTraceRead r s
  | .clPolicy r => Sys2Proof.Machine.execClPolicy r s
  | .slotIteration n inp => Sys2Proof.Machine.execSlotIteration n inp s
  | .iterationOverrun n => Sys2Proof.Machine.execIterationOverrun n s
  | .overrunHoldEnd n => Sys2Proof.Machine.execOverrunHoldEnd n s
  | .loopSaturatedTimeout n => Sys2Proof.Machine.execLoopSaturatedTimeout n s
  | .repBinBoundary t => Sys2Proof.Machine.execRepBinBoundary t s
  | .repTableClear t => Sys2Proof.Machine.execRepTableClear t s
  | .injectionStart n => Sys2Proof.Machine.execInjectionStart n s
  | .injectionEnd n => Sys2Proof.Machine.execInjectionEnd n s
  | .hvLinkTimeout => Sys2Proof.Machine.execHvLinkTimeout s
  | .paConfig r => Sys2Proof.Machine.execPaConfig r s
  | .paTiming r => Sys2Proof.Machine.execPaTiming r s
  | .paBiasTable r => Sys2Proof.Machine.execPaBiasTable r s
  | .cmpConfig r => Sys2Proof.Machine.execCmpConfig r s
  | .cmpMode r => Sys2Proof.Machine.execCmpMode r s
  | .paEnable r => Sys2Proof.Machine.execPaEnable r s
  | .paBiasCal r => Sys2Proof.Machine.execPaBiasCal r s
  | .casPolicy r => Sys2Proof.Machine.execCasPolicy r s
  | .casIdentityRead r => Sys2Proof.Machine.execCasIdentityRead r s
  | .drainRampEnd n vDrain => Sys2Proof.Machine.execDrainRampEnd n vDrain s
  | .drainingComplete n us => Sys2Proof.Machine.execDrainingComplete n us s
  | .gateOnEdge n => Sys2Proof.Machine.execGateOnEdge n s
  | .gateOffEdge n => Sys2Proof.Machine.execGateOffEdge n s
  | .comparatorTrip x => Sys2Proof.Machine.execComparatorTrip x s
  | .comparatorTripClear x => Sys2Proof.Machine.execComparatorTripClear x s
  | .tOffMinExpiry n => Sys2Proof.Machine.execTOffMinExpiry n s
  | .comparatorQualify x => Sys2Proof.Machine.execComparatorQualify x s
  | .tripHoldExpiry c => Sys2Proof.Machine.execTripHoldExpiry c s
  | .cassetteIdPoll n serial => Sys2Proof.Machine.execCassetteIdPoll n serial s
  | .cassetteIdentify n inp => Sys2Proof.Machine.execCassetteIdentify n inp s
  | .biasCalComplete n inp => Sys2Proof.Machine.execBiasCalComplete n inp s
  | .stressMinute => Sys2Proof.Machine.execStressMinute s
  | .lifeRecordWrite => Sys2Proof.Machine.execLifeRecordWrite s
  | .hkSlotMap r => Sys2Proof.Machine.execHkSlotMap r s
  | .hkUrgent r => Sys2Proof.Machine.execHkUrgent r s
  | .hkCalPoint r => Sys2Proof.Machine.execHkCalPoint r s
  | .hkTestDac r => Sys2Proof.Machine.execHkTestDac r s
  | .hkSupplyWindow r => Sys2Proof.Machine.execHkSupplyWindow r s
  | .hkThermalPolicy r => Sys2Proof.Machine.execHkThermalPolicy r s
  | .hkSlotEnd inp => Sys2Proof.Machine.execHkSlotEnd inp s
  | .urgentSlotEnd inp => Sys2Proof.Machine.execUrgentSlotEnd inp s
  | .hkRoundEnd sensors => Sys2Proof.Machine.execHkRoundEnd sensors s
  | .calPointComplete written => Sys2Proof.Machine.execCalPointComplete written s
  | .channelRecordLatch c => Sys2Proof.Machine.execChannelRecordLatch c s
  | .clockMonitorCheck freqs => Sys2Proof.Machine.execClockMonitorCheck freqs s
  | .flPortConfig r => Sys2Proof.Machine.execFlPortConfig r s
  | .flFlockConfig r => Sys2Proof.Machine.execFlFlockConfig r s
  | .flJoin r => Sys2Proof.Machine.execFlJoin r s
  | .flLeave r => Sys2Proof.Machine.execFlLeave r s
  | .flLaneControl r => Sys2Proof.Machine.execFlLaneControl r s
  | .flMemberQuery r => Sys2Proof.Machine.execFlMemberQuery r s
  | .flExpel r => Sys2Proof.Machine.execFlExpel r s
  | .signalDetect l => Sys2Proof.Machine.execSignalDetect l s
  | .laneUp l precoding => Sys2Proof.Machine.execLaneUp l precoding s
  | .laneTrainTimeout l => Sys2Proof.Machine.execLaneTrainTimeout l s
  | .laneDown l why => Sys2Proof.Machine.execLaneDown l why s
  | .retrainBackoffExpiry l => Sys2Proof.Machine.execRetrainBackoffExpiry l s
  | .laneSerWarn l => Sys2Proof.Machine.execLaneSerWarn l s
  | .laneQualComplete l => Sys2Proof.Machine.execLaneQualComplete l s
  | .laneSet port lanes frame => Sys2Proof.Machine.execLaneSet port lanes frame s
  | .laneSetApply port => Sys2Proof.Machine.execLaneSetApply port s
  | .flitReceive port f => Sys2Proof.Machine.execFlitReceive port f s
  | .hello port h => Sys2Proof.Machine.execHello port h s
  | .ttReq port t1 => Sys2Proof.Machine.execTtReq port t1 s
  | .ttResp port t2 t3 bound freq => Sys2Proof.Machine.execTtResp port t2 t3 bound freq s
  | .joinReq port h q => Sys2Proof.Machine.execJoinReq port h q s
  | .joinResp port h a => Sys2Proof.Machine.execJoinResp port h a s
  | .leave port h member frame reason => Sys2Proof.Machine.execLeave port h member frame reason s
  | .leaveAck port h member frame reason => Sys2Proof.Machine.execLeaveAck port h member frame reason s
  | .status port h x => Sys2Proof.Machine.execStatus port h x s
  | .pathDown port h => Sys2Proof.Machine.execPathDown port h s
  | .rehome port h member parent hops => Sys2Proof.Machine.execRehome port h member parent hops s
  | .lost port h root count => Sys2Proof.Machine.execLost port h root count s
  | .expel port h => Sys2Proof.Machine.execExpel port h s
  | .joinReqSend => Sys2Proof.Machine.execJoinReqSend s
  | .joinRespTimeout => Sys2Proof.Machine.execJoinRespTimeout s
  | .backoffExpiry => Sys2Proof.Machine.execBackoffExpiry s
  | .joinAdmission => Sys2Proof.Machine.execJoinAdmission s
  | .memberTimeout member => Sys2Proof.Machine.execMemberTimeout member s
  | .rehomeWaitExpiry => Sys2Proof.Machine.execRehomeWaitExpiry s
  | .idHoldExpiry member => Sys2Proof.Machine.execIdHoldExpiry member s
  | .leaveFrame => Sys2Proof.Machine.execLeaveFrame s
  | .dvIntentSet r => Sys2Proof.Machine.execDvIntentSet r s
  | .dvIntentClear r => Sys2Proof.Machine.execDvIntentClear r s
  | .dvPolicy r => Sys2Proof.Machine.execDvPolicy r s
  | .dvReplace r => Sys2Proof.Machine.execDvReplace r s
  | .dvFlowQuery r => Sys2Proof.Machine.execDvFlowQuery r s
  | .dvFlowControl r => Sys2Proof.Machine.execDvFlowControl r s
  | .placementCompute => Sys2Proof.Machine.execPlacementCompute s
  | .plan port h seq frame dT final entries => Sys2Proof.Machine.execPlan port h seq frame dT final entries s
  | .planAck port h seq status => Sys2Proof.Machine.execPlanAck port h seq status s
  | .planCancel port h seq => Sys2Proof.Machine.execPlanCancel port h seq s
  | .planAckTimeout => Sys2Proof.Machine.execPlanAckTimeout s
  | .bindStatus port h l => Sys2Proof.Machine.execBindStatus port h l s
  | .flowReport port h l => Sys2Proof.Machine.execFlowReport port h l s
  | .descriptorLoad => Sys2Proof.Machine.execDescriptorLoad s
  | .planApply => Sys2Proof.Machine.execPlanApply s
  | .planDrainEnd => Sys2Proof.Machine.execPlanDrainEnd s
  | .targetDelayApply => Sys2Proof.Machine.execTargetDelayApply s
  | .sumDeadline flow frame offset => Sys2Proof.Machine.execSumDeadline flow frame offset s
  | .consumeDeadline flow at_ => Sys2Proof.Machine.execConsumeDeadline flow at_ s
  | .flowQualComplete flow => Sys2Proof.Machine.execFlowQualComplete flow s
  | .capArm r => Sys2Proof.Machine.execCapArm r s
  | .capTrigger r => Sys2Proof.Machine.execCapTrigger r s
  | .capControl r => Sys2Proof.Machine.execCapControl r s
  | .arConfig r => Sys2Proof.Machine.execArConfig r s
  | .arControl r => Sys2Proof.Machine.execArControl r s
  | .arRestore r => Sys2Proof.Machine.execArRestore r s
  | .memRetireClear r => Sys2Proof.Machine.execMemRetireClear r s
  | .captureAtInstant slot => Sys2Proof.Machine.execCaptureAtInstant slot s
  | .captureStop slot => Sys2Proof.Machine.execCaptureStop slot s
  | .drainComplete => Sys2Proof.Machine.execDrainComplete s
  | .restoreComplete corrupt => Sys2Proof.Machine.execRestoreComplete corrupt s
  | .archiveFault why => Sys2Proof.Machine.execArchiveFault why s
  | .patrolScrub errors => Sys2Proof.Machine.execPatrolScrub errors s
  | .hbmUncorrectable extent flow inst chunk => Sys2Proof.Machine.execHbmUncorrectable extent flow inst chunk s
  | .extentRemap => Sys2Proof.Machine.execExtentRemap s
  | .stackPowerDown => Sys2Proof.Machine.execStackPowerDown s
  | .bellConfig r => Sys2Proof.Machine.execBellConfig r s
  | .bellEnable r => Sys2Proof.Machine.execBellEnable r s
  | .keeperKey r => Sys2Proof.Machine.execKeeperKey r s
  | .bellChainConfig r => Sys2Proof.Machine.execBellChainConfig r s
  | .syncDetect x => Sys2Proof.Machine.execSyncDetect x s
  | .headerComplete header crc => Sys2Proof.Machine.execHeaderComplete header crc s
  | .clipCollision events => Sys2Proof.Machine.execClipCollision events s
  | .payloadComplete b => Sys2Proof.Machine.execPayloadComplete b s
  | .keeperRequest => Sys2Proof.Machine.execKeeperRequest s
  | .chainPacketReceive => Sys2Proof.Machine.execChainPacketReceive s
  | .bellTxStart level => Sys2Proof.Machine.execBellTxStart level s
  | .bellTxEnd switched => Sys2Proof.Machine.execBellTxEnd switched s
  | .ccaRetry level => Sys2Proof.Machine.execCcaRetry level s
  | .keeperResponseDue => Sys2Proof.Machine.execKeeperResponseDue s
  | .keeperResponseExpiry => Sys2Proof.Machine.execKeeperResponseExpiry s
  | .bellTxWatchdog => Sys2Proof.Machine.execBellTxWatchdog s
  | .synBellCalStart => Sys2Proof.Machine.execSynBellCalStart s
  | .synBellLock locked => Sys2Proof.Machine.execSynBellLock locked s
  | .bellTxResume => Sys2Proof.Machine.execBellTxResume s
  | .chainHelloTimer => Sys2Proof.Machine.execChainHelloTimer s
  | .neighbourExpiry member => Sys2Proof.Machine.execNeighbourExpiry member s
  | .chainStatusTimer => Sys2Proof.Machine.execChainStatusTimer s
  | .chainAckTimeout => Sys2Proof.Machine.execChainAckTimeout s
  | .keeperLockoutExpiry keeper => Sys2Proof.Machine.execKeeperLockoutExpiry keeper s
  | .faultClassConfig r => Sys2Proof.Machine.execFaultClassConfig r s
  | .faultPolicy r => Sys2Proof.Machine.execFaultPolicy r s
  | .faultAck r => Sys2Proof.Machine.execFaultAck r s
  | .faultUnitPen r => Sys2Proof.Machine.execFaultUnitPen r s
  | .faultUnitRelease r => Sys2Proof.Machine.execFaultUnitRelease r s
  | .faultHaltRelease r => Sys2Proof.Machine.execFaultHaltRelease r s
  | .faultFfClear r => Sys2Proof.Machine.execFaultFfClear r s
  | .faultInject r => Sys2Proof.Machine.execFaultInject r s
  | .faultTableRead r => Sys2Proof.Machine.execFaultTableRead r s
  | .collectorCycle => Sys2Proof.Machine.execCollectorCycle s
  | .reactionStart => Sys2Proof.Machine.execReactionStart s
  | .reactionComplete => Sys2Proof.Machine.execReactionComplete s
  | .consequenceWindowClose => Sys2Proof.Machine.execConsequenceWindowClose s
  | .haltReleaseFrame => Sys2Proof.Machine.execHaltReleaseFrame s
  | .logMode r => Sys2Proof.Machine.execLogMode r s
  | .logRead r => Sys2Proof.Machine.execLogRead r s
  | .logClear r => Sys2Proof.Machine.execLogClear r s
  | .logMediaReset r => Sys2Proof.Machine.execLogMediaReset r s
  | .logWrite r => Sys2Proof.Machine.execLogWrite r s
  | .logVerify r => Sys2Proof.Machine.execLogVerify r s
  | .recordCommit => Sys2Proof.Machine.execRecordCommit s
  | .logClearComplete mirrored => Sys2Proof.Machine.execLogClearComplete mirrored s
  | .logBankScrub corrected badA badB => Sys2Proof.Machine.execLogBankScrub corrected badA badB s
  | .mirrorWrite written retried => Sys2Proof.Machine.execMirrorWrite written retried s
  | .doorbellWrite path mask => Sys2Proof.Machine.execDoorbellWrite path mask s
  | .commandStart => Sys2Proof.Machine.execCommandStart s
  | .irqStatusWrite w => Sys2Proof.Machine.execIrqStatusWrite w s
  | .irqEnableWrite w => Sys2Proof.Machine.execIrqEnableWrite w s
  | .irqNEnableWrite w => Sys2Proof.Machine.execIrqNEnableWrite w s
  | .doorbellOverrunWrite w => Sys2Proof.Machine.execDoorbellOverrunWrite w s
  | .evtAckWrite w => Sys2Proof.Machine.execEvtAckWrite w s
  | .eventHoldoffExpiry => Sys2Proof.Machine.execEventHoldoffExpiry s
  | .siteEdgeWrite w => Sys2Proof.Machine.execSiteEdgeWrite w s
  | .logCursorWrite w => Sys2Proof.Machine.execLogCursorWrite w s
  | .capWinWrite page w => Sys2Proof.Machine.execCapWinWrite page w s
  | .registerWrite path address size w => Sys2Proof.Machine.execRegisterWrite path address size w s
  | .lowHalfRead path address => Sys2Proof.Machine.execLowHalfRead path address s
  | .pcieReset linkUp => Sys2Proof.Machine.execPcieReset linkUp s
  | .ethRequest d => Sys2Proof.Machine.execEthRequest d s
  | .ethRead d => Sys2Proof.Machine.execEthRead d s
  | .spiTransfer command address count words => Sys2Proof.Machine.execSpiTransfer command address count words s
  | .i2cTransfer written count => Sys2Proof.Machine.execI2cTransfer written count s
  | .nonceExpiry path => Sys2Proof.Machine.execNonceExpiry path s
  | .sessionIdleExpiry session => Sys2Proof.Machine.execSessionIdleExpiry session s
  | .hostLockoutExpiry path => Sys2Proof.Machine.execHostLockoutExpiry path s
  | .siteSample pins => Sys2Proof.Machine.execSiteSample pins s
  | .sysNop r => Sys2Proof.Machine.execSysNop r s
  | .sysSessionOpen r => Sys2Proof.Machine.execSysSessionOpen r s
  | .sysSessionClose r => Sys2Proof.Machine.execSysSessionClose r s
  | .sysHostConfig r => Sys2Proof.Machine.execSysHostConfig r s
  | .sysNetConfig r => Sys2Proof.Machine.execSysNetConfig r s
  | .sysSiteConfig r => Sys2Proof.Machine.execSysSiteConfig r s
  | .pwrStateSet r => Sys2Proof.Machine.execPwrStateSet r s
  | .pwrWakeConfig r => Sys2Proof.Machine.execPwrWakeConfig r s
  | .pwrLimitSet r => Sys2Proof.Machine.execPwrLimitSet r s
  | .pwrReset r => Sys2Proof.Machine.execPwrReset r s
  | .lcProvision r => Sys2Proof.Machine.execLcProvision r s
  | .lcAdvance r => Sys2Proof.Machine.execLcAdvance r s
  | .lcRoleSet r => Sys2Proof.Machine.execLcRoleSet r s
  | .keyInstall r => Sys2Proof.Machine.execKeyInstall r s
  | .dbgPolicy r => Sys2Proof.Machine.execDbgPolicy r s
  | .fwWrite r => Sys2Proof.Machine.execFwWrite r s
  | .fwControl r => Sys2Proof.Machine.execFwControl r s
  | .keysZeroised => Sys2Proof.Machine.execKeysZeroised s
  | .debugAuthRequest signature => Sys2Proof.Machine.execDebugAuthRequest signature s
  | .debugOpenRequest halt => Sys2Proof.Machine.execDebugOpenRequest halt s
  | .debugSessionClose disconnect => Sys2Proof.Machine.execDebugSessionClose disconnect s
  | .debugLockoutExpiry => Sys2Proof.Machine.execDebugLockoutExpiry s
  | .securityViolation kind => Sys2Proof.Machine.execSecurityViolation kind s
  | .pairConfig r => Sys2Proof.Machine.execPairConfig r s
  | .pairSwitchover r => Sys2Proof.Machine.execPairSwitchover r s
  | .pairTailRead r => Sys2Proof.Machine.execPairTailRead r s
  | .pairHb port h => Sys2Proof.Machine.execPairHb port h s
  | .pairHbMissed link => Sys2Proof.Machine.execPairHbMissed link s
  | .pairSync seq item => Sys2Proof.Machine.execPairSync seq item s
  | .mirrorPeriodicSync => Sys2Proof.Machine.execMirrorPeriodicSync s
  | .pairWaitTimeout => Sys2Proof.Machine.execPairWaitTimeout s
  | .bulkSyncTimeout => Sys2Proof.Machine.execBulkSyncTimeout s
  | .pairLinkRecovery => Sys2Proof.Machine.execPairLinkRecovery s
  | .pairTakeover => Sys2Proof.Machine.execPairTakeover s
  | .pairDemote => Sys2Proof.Machine.execPairDemote s
  | .portTrainingStart => Sys2Proof.Machine.execPortTrainingStart s
  | .refInLoss edges => Sys2Proof.Machine.execRefInLoss edges s
  | .stackPowerUpComplete => Sys2Proof.Machine.execStackPowerUpComplete s
  | .hbmCorrectedError extent => Sys2Proof.Machine.execHbmCorrectedError extent s
  | .arControlComplete d => Sys2Proof.Machine.execArControlComplete d s
  | .logMediaResetComplete passA passB => Sys2Proof.Machine.execLogMediaResetComplete passA passB s
  | .logVerifyComplete => Sys2Proof.Machine.execLogVerifyComplete s
  | .fwVerifyComplete image => Sys2Proof.Machine.execFwVerifyComplete image s
  | .paEnableQualTimeout n => Sys2Proof.Machine.execPaEnableQualTimeout n s
  | .i2cHeartbeatTick => Sys2Proof.Machine.execI2cHeartbeatTick s

end Sys2Proof.Machine
end

