-- ==== Sys2Proof/Safety.lean ====
section
/-! DEFINITION. The terms in which statements about the part are made: the parts of its state and what leaves them alone, a
command or event that runs, a command that its mailbox accepts, and the form that every step keeps. -/

namespace Sys2Proof

/-! ## The operands of a request, as statements write them -/

/-- The byte of a request's payload at `k`. -/
abbrev HostRequest.u8 (r : HostRequest) (k : Nat) : Nat := Machine.u8 r.payload k
/-- The 16-bit field of a request's payload at `k`. -/
abbrev HostRequest.u16 (r : HostRequest) (k : Nat) : Nat := Machine.u16 r.payload k
/-- The 32-bit field of a request's payload at `k`. -/
abbrev HostRequest.u32 (r : HostRequest) (k : Nat) : Nat := Machine.u32 r.payload k
/-- The 64-bit field of a request's payload at `k`. -/
abbrev HostRequest.u64 (r : HostRequest) (k : Nat) : Nat := Machine.u64 r.payload k

/-- The signed 32-bit field of a request's payload at `k`. -/
abbrev HostRequest.s32 (r : HostRequest) (k : Nat) : Int := Machine.s32 r.payload k
/-- The field of `n` bytes of a request's payload at `k`. -/
abbrev HostRequest.uN (r : HostRequest) (k n : Nat) : Nat := Machine.uN r.payload k n

end Sys2Proof

namespace Sys2Proof.Machine

open Sys2Proof

/-! ## Parts of the state -/

/-- The subsystems of `State`, the wire, the queue of waiting commands, and the model's counter of free values. -/
inductive Part where
  | air | host | fault | log | sys | rf | ce | lg | np | hk | cl | ps | fl | dv | mem | bell | pair | wire | drawn | pending
  deriving DecidableEq, Repr

/-- A part of the state is the same before and after. -/
def Part.same (p : Part) (s t : State) : Prop :=
  match p with
  | .air => t.air = s.air
  | .host => t.host = s.host
  | .fault => t.fault = s.fault
  | .log => t.log = s.log
  | .sys => t.sys = s.sys
  | .rf => t.rf = s.rf
  | .ce => t.ce = s.ce
  | .lg => t.lg = s.lg
  | .np => t.np = s.np
  | .hk => t.hk = s.hk
  | .cl => t.cl = s.cl
  | .ps => t.ps = s.ps
  | .fl => t.fl = s.fl
  | .dv => t.dv = s.dv
  | .mem => t.mem = s.mem
  | .bell => t.bell = s.bell
  | .pair => t.pair = s.pair
  | .wire => t.wire = s.wire
  | .drawn => t.drawn = s.drawn
  | .pending => t.pending = s.pending

/-- Every part outside `l` is the same before and after. -/
def ChangesOnly (l : List Part) (s t : State) : Prop := ∀ p, p ∉ l → p.same s t

/-- A command or event answers a next state; it changes nothing outside the parts `l`, and the next state satisfies `P`. -/
def Runs (i : Instr) (s : State) (l : List Part) (P : State → Prop) : Prop :=
  ∃ t, exec i s = .next t ∧ ChangesOnly l s t ∧ P t

/-- A command or event answers the state as it was. -/
def Still (i : Instr) (s : State) : Prop := exec i s = .next s

/-- The parts of the state that `l` does not name. -/
abbrev but (l : List Part) : List Part :=
  [Part.air, .host, .fault, .log, .sys, .rf, .ce, .lg, .np, .hk, .cl, .ps, .fl, .dv, .mem, .bell, .pair, .wire, .drawn, .pending].filter
    (fun p => !l.contains p)

/-- These parts and those in which the band paths stand: the channel engine, the loop guard and the network protection. -/
abbrev bands (l : List Part) : List Part := l ++ [.ce, .lg, .np]

/-! ## One unit of the state, as statements write it -/

/-- Monotonic device time. -/
abbrev State.now (s : State) : Nat := s.air.mono
abbrev State.power (s : State) : PowerState := s.sys.power
abbrev State.chain (s : State) (n : Nat) := s.rf.chains.get n
abbrev State.lane (s : State) (n : Nat) := s.fl.lanes.get n
abbrev State.port (s : State) (n : Nat) := s.fl.ports.get n
abbrev State.capture (s : State) (n : Nat) := s.mem.slots.get n
abbrev State.dpd (s : State) (n : Nat) := s.ce.dpd.get n
abbrev State.donor (s : State) (n : Nat) := s.np.donors.get n
abbrev State.cmp (s : State) (n : Nat) := s.ps.cmps.get n
abbrev State.mbx (s : State) (n : Nat) := s.host.mailboxes.get n
abbrev State.obs (s : State) (n : Nat) := s.rf.obs.get n
abbrev State.source (s : State) (n : Nat) := s.air.sources.get n
abbrev State.pattern (s : State) (n : Nat) := s.air.patterns.get n
abbrev State.desc (s : State) (n : Nat) := s.dv.desc.get n
abbrev State.canc (s : State) (n : Nat) := s.lg.canc.get n
abbrev State.rep (s : State) (n : Nat) := s.cl.reps.get n
abbrev State.loop (s : State) (n : Nat) := s.lg.loops.get n

/-! ## Accepted commands (R421–R426) -/

/-- The command rows of the table: the command's checks and effect, and the request that brings it to its mailbox. Every other
row is an event. -/
def commandOf : Instr → Option (CommandSpec × HostRequest)
  | .atSourceConfig r => some (specAtSourceConfig, r)
  | .tddPatternSet r => some (specTddPatternSet, r)
  | .wallTimeSet r => some (specWallTimeSet, r)
  | .atSchedule r => some (specAtSchedule, r)
  | .atCancel r => some (specAtCancel, r)
  | .rfChainConfig r => some (specRfChainConfig, r)
  | .rfTxEnable r => some (specRfTxEnable, r)
  | .rfRxAtten r => some (specRfRxAtten, r)
  | .rfCalRun r => some (specRfCalRun, r)
  | .rfCalGrant r => some (specRfCalGrant, r)
  | .rfPolicy r => some (specRfPolicy, r)
  | .rfObsMap r => some (specRfObsMap, r)
  | .bpConfig r => some (specBpConfig, r)
  | .bpRelease r => some (specBpRelease, r)
  | .bpDetector r => some (specBpDetector, r)
  | .bpAlign r => some (specBpAlign, r)
  | .bpSyncPin r => some (specBpSyncPin, r)
  | .dpdConfig r => some (specDpdConfig, r)
  | .dpdControl r => some (specDpdControl, r)
  | .lgLoopConfig r => some (specLgLoopConfig, r)
  | .lgBeaconConfig r => some (specLgBeaconConfig, r)
  | .lgCancelConfig r => some (specLgCancelConfig, r)
  | .lgCancelControl r => some (specLgCancelControl, r)
  | .lgSearchConfig r => some (specLgSearchConfig, r)
  | .lgPolicy r => some (specLgPolicy, r)
  | .gsSetGain r => some (specGsSetGain, r)
  | .gsMute r => some (specGsMute, r)
  | .npBackoffSet r => some (specNpBackoffSet, r)
  | .npPolicy r => some (specNpPolicy, r)
  | .ulGateConfig r => some (specUlGateConfig, r)
  | .ulNoiseConfig r => some (specUlNoiseConfig, r)
  | .npDonorConfig r => some (specNpDonorConfig, r)
  | .npOutputConfig r => some (specNpOutputConfig, r)
  | .clSlotConfig r => some (specClSlotConfig, r)
  | .clBankWrite r => some (specClBankWrite, r)
  | .clBankSwap r => some (specClBankSwap, r)
  | .clSetpoint r => some (specClSetpoint, r)
  | .clSlotControl r => some (specClSlotControl, r)
  | .clRepConfig r => some (specClRepConfig, r)
  | .clInject r => some (specClInject, r)
  | .clTraceConfig r => some (specClTraceConfig, r)
  | .clTraceRead r => some (specClTraceRead, r)
  | .clPolicy r => some (specClPolicy, r)
  | .paConfig r => some (specPaConfig, r)
  | .paTiming r => some (specPaTiming, r)
  | .paBiasTable r => some (specPaBiasTable, r)
  | .cmpConfig r => some (specCmpConfig, r)
  | .cmpMode r => some (specCmpMode, r)
  | .paEnable r => some (specPaEnable, r)
  | .paBiasCal r => some (specPaBiasCal, r)
  | .casPolicy r => some (specCasPolicy, r)
  | .casIdentityRead r => some (specCasIdentityRead, r)
  | .hkSlotMap r => some (specHkSlotMap, r)
  | .hkUrgent r => some (specHkUrgent, r)
  | .hkCalPoint r => some (specHkCalPoint, r)
  | .hkTestDac r => some (specHkTestDac, r)
  | .hkSupplyWindow r => some (specHkSupplyWindow, r)
  | .hkThermalPolicy r => some (specHkThermalPolicy, r)
  | .flPortConfig r => some (specFlPortConfig, r)
  | .flFlockConfig r => some (specFlFlockConfig, r)
  | .flJoin r => some (specFlJoin, r)
  | .flLeave r => some (specFlLeave, r)
  | .flLaneControl r => some (specFlLaneControl, r)
  | .flMemberQuery r => some (specFlMemberQuery, r)
  | .flExpel r => some (specFlExpel, r)
  | .dvIntentSet r => some (specDvIntentSet, r)
  | .dvIntentClear r => some (specDvIntentClear, r)
  | .dvPolicy r => some (specDvPolicy, r)
  | .dvReplace r => some (specDvReplace, r)
  | .dvFlowQuery r => some (specDvFlowQuery, r)
  | .dvFlowControl r => some (specDvFlowControl, r)
  | .capArm r => some (specCapArm, r)
  | .capTrigger r => some (specCapTrigger, r)
  | .capControl r => some (specCapControl, r)
  | .arConfig r => some (specArConfig, r)
  | .arControl r => some (specArControl, r)
  | .arRestore r => some (specArRestore, r)
  | .memRetireClear r => some (specMemRetireClear, r)
  | .bellConfig r => some (specBellConfig, r)
  | .bellEnable r => some (specBellEnable, r)
  | .keeperKey r => some (specKeeperKey, r)
  | .bellChainConfig r => some (specBellChainConfig, r)
  | .faultClassConfig r => some (specFaultClassConfig, r)
  | .faultPolicy r => some (specFaultPolicy, r)
  | .faultAck r => some (specFaultAck, r)
  | .faultUnitPen r => some (specFaultUnitPen, r)
  | .faultUnitRelease r => some (specFaultUnitRelease, r)
  | .faultHaltRelease r => some (specFaultHaltRelease, r)
  | .faultFfClear r => some (specFaultFfClear, r)
  | .faultInject r => some (specFaultInject, r)
  | .faultTableRead r => some (specFaultTableRead, r)
  | .logMode r => some (specLogMode, r)
  | .logRead r => some (specLogRead, r)
  | .logClear r => some (specLogClear, r)
  | .logMediaReset r => some (specLogMediaReset, r)
  | .logWrite r => some (specLogWrite, r)
  | .logVerify r => some (specLogVerify, r)
  | .sysNop r => some (specSysNop, r)
  | .sysSessionOpen r => some (specSysSessionOpen, r)
  | .sysSessionClose r => some (specSysSessionClose, r)
  | .sysHostConfig r => some (specSysHostConfig, r)
  | .sysNetConfig r => some (specSysNetConfig, r)
  | .sysSiteConfig r => some (specSysSiteConfig, r)
  | .pwrStateSet r => some (specPwrStateSet, r)
  | .pwrWakeConfig r => some (specPwrWakeConfig, r)
  | .pwrLimitSet r => some (specPwrLimitSet, r)
  | .pwrReset r => some (specPwrReset, r)
  | .lcProvision r => some (specLcProvision, r)
  | .lcAdvance r => some (specLcAdvance, r)
  | .lcRoleSet r => some (specLcRoleSet, r)
  | .keyInstall r => some (specKeyInstall, r)
  | .dbgPolicy r => some (specDbgPolicy, r)
  | .fwWrite r => some (specFwWrite, r)
  | .fwControl r => some (specFwControl, r)
  | .pairConfig r => some (specPairConfig, r)
  | .pairSwitchover r => some (specPairSwitchover, r)
  | .pairTailRead r => some (specPairTailRead, r)
  | _ => none

/-- The state in which the command of an accepted doorbell is validated: the doorbell is captured, the command has left the
queue of registered doorbells, and its mailbox and session count it. -/
def atStart (opcode : Nat) (r : HostRequest) (s : State) : State :=
  noteStart (reqOf opcode r) (unregister r.mailbox (capture opcode r s))

/-- The command of a doorbell starts at once: the part is READY, no other doorbell waits, the doorbell is not ignored (R422),
and no request of its mailbox was discarded (R414). -/
def Starts (r : HostRequest) (s : State) : Prop :=
  s.sys.ready = true ∧ s.host.order = [] ∧ doorbellAccepted s.host r.mailbox r.path = true ∧
    (s.host.mailboxes.get r.mailbox).discard = false

/-- The command starts at once, and every condition of R425 for it holds. -/
def Accepts (c : CommandSpec) (r : HostRequest) (s : State) : Prop :=
  Starts r s ∧ validate c false (atStart c.opcode r s) (reqOf c.opcode r) = none

/-- The command starts at once, and the first condition of R425 that fails gives this status and detail. -/
def Rejects (c : CommandSpec) (r : HostRequest) (s : State) (st : Status) (d : Nat) : Prop :=
  Starts r s ∧ validate c false (atStart c.opcode r s) (reqOf c.opcode r) = some (st, d)

/-- The place of a status in the order of validation (R425); the statuses that no validation gives come last. -/
def statusRank : Status → Nat
  | .eOpcode => 0
  | .ePerm => 1
  | .eLength => 2
  | .eState => 3
  | .eRange => 4
  | .eAuth => 5
  | .ePenned => 6
  | .eBusy => 7
  | .eResource => 8
  | .eConflict => 9
  | .ok => 10
  | .accepted => 10
  | .eTimeout => 10
  | .eNotReady => 10
  | .eIntegrity => 10

/-- The mailbox of a request is DONE and its response carries this status, the request's opcode and its tag (R421, R426). -/
def Answered (opcode : Nat) (r : HostRequest) (st : Status) (t : State) : Prop :=
  (t.host.mailboxes.get r.mailbox).state = .done ∧ (t.host.mailboxes.get r.mailbox).response.status = st.code ∧
    (t.host.mailboxes.get r.mailbox).response.opcode = opcode ∧ (t.host.mailboxes.get r.mailbox).response.tag = r.tag

/-- The payload of the response that the mailbox of a request holds. -/
def answerBytes (r : HostRequest) (t : State) : List Byte := (t.host.mailboxes.get r.mailbox).response.payload

/-- The command still runs: its response waits for hardware (R424). -/
def StillRuns (r : HostRequest) (t : State) : Prop := (t.host.mailboxes.get r.mailbox).state = .running

/-- The command that `i` carries has opcode `n`; where its request is accepted it runs and answers OK, and its next state
satisfies `P`. Beside its mailbox and what it owes the standby (R487), it changes nothing outside the parts `l`. -/
abbrev Does (n : Nat) (i : HostRequest → Instr) (r : HostRequest) (s : State) (l : List Part) (P : State → Prop) : Prop :=
  ∃ c, commandOf (i r) = some (c, r) ∧ c.opcode = n ∧
    (Accepts c r s → Runs (i r) s (.host :: .pair :: l) (fun t => Answered n r .ok t ∧ P t))

/-- Monotonic device time after is the later of the time before and the instant `x`. -/
abbrev waited (s t : State) (x : Nat) : Prop := t.air.mono = max s.air.mono x

/-- Monotonic device time after is the first multiple of the period after the time before. -/
abbrev ticked (s t : State) (period : Nat) : Prop := t.air.mono = (s.air.mono / period + 1) * period

/-- The condition of the fault class on the unit holds (R366). -/
abbrev holding (s : State) (cls : Nat) (u : UnitId) : Bool := conditionHolds s.fault cls u

/-- One raise of the class on the unit is latched. -/
def Raised (cls : Nat) (u : UnitId) (s t : State) : Prop :=
  ∃ x, t.fault.latched = s.fault.latched ++ [.raise x] ∧ x.cls = cls ∧ x.unit = u

/-- One raise of the class on the unit is latched, with its end: a moment (R366). -/
def RaisedOnce (cls : Nat) (u : UnitId) (s t : State) : Prop :=
  ∃ x y, t.fault.latched = s.fault.latched ++ [.raise x, y] ∧ x.cls = cls ∧ x.unit = u

/-- Records of these codes are submitted behind those that wait. -/
def Submits (l : List Nat) (s t : State) : Prop :=
  t.log.submissions.map (fun y => y.code) = s.log.submissions.map (fun y => y.code) ++ l

/-! ## Forms that every step keeps -/

/-- Air time is an instant: the frame counter has 32 bits, the offset lies within the frame, the fraction within one Tc (R10,
R11). -/
def AirState.inRange (a : AirState) : Prop := a.frame < 4294967296 ∧ a.offset < tcPerFrame ∧ a.frac < 65536

end Sys2Proof.Machine
end

