-- ==== Sys2Proof/Certificates/Slice0/Obligations.lean ====
section
/-! DEFINITION. The statements about the part. Each names the rules of the spec that it states; a statement's docstring says
where a clause rests on a choice of the model's own. `Runs i s l P` says that `i` answers a next state in which nothing outside
the parts `l` differs and `P` holds; `Accepts` is the condition of R422, R424 and R425 under which a command runs at once. -/

open Sys2Proof Sys2Proof.Machine

/-- A step takes the command at the front of the queue and runs it on the state with the rest of the queue. The queue is
the model's own (log entry 37). -/
def Obligations.StepRunsFrontCommand : Prop :=
 ∀ (s : State) (c : Instr) (rest : List Instr), s.pending = c :: rest → step s = exec c { s with pending := rest }

/-- On an empty queue one Tc passes, and in DORMANT nothing changes. The idle step is the model's choice (log entry 1).
-/
def Obligations.EmptyQueueLetsOneTcPass : Prop :=
 ∀ s : State, s.pending = [] → ∃ t, step s = .next t ∧ t.pending = [] ∧
  (s.power = .dormant → t = s) ∧
  (s.power ≠ .dormant → t.now = s.now + 1 ∧ ChangesOnly [.air] s t)

/-- After power-on reset the registers hold the values the spec states. The empty queue is the model's own. -/
def Obligations.ResetGivesSpecValues : Prop :=
 let s := State.reset
 s.air.frame = 0 ∧ s.air.offset = 0 ∧ s.now = 0 ∧ s.air.lock = .freeRun ∧ s.air.source = 0 ∧ ¬s.air.acquired ∧ s.host.irqStatus = 0 ∧ s.host.irqEnable = 0 ∧ s.host.irqNEnable = 0 ∧
  s.host.evtAck = 0 ∧ s.host.evtHead = 0 ∧ s.host.logCursor = 0 ∧ s.host.overrun = 0 ∧ s.host.threshold = 1 ∧ s.host.holdoff = 0 ∧
  (∀ n, (s.host.mailboxes.get n).state = .idle) ∧ ¬s.sys.ready ∧ s.sys.pwrEn ∧ s.sys.lifecycle = .blank ∧ s.sys.powerLimit = 85000 ∧ s.bell.rx = .off ∧ s.ce.syncMode = .off ∧ s.fault.entries = [] ∧
  s.fault.faultN ∧ s.pending = []

/-- The air-time count is in range at reset. -/
def Obligations.ResetAirTimeInRange : Prop :=
 State.reset.air.inRange

/-- Every step keeps the air-time count in the range of an air-time instant. -/
def Obligations.AirTimeStaysInRange : Prop :=
 ∀ s t : State, s.air.inRange → step s = .next t → t.air.inRange

/-- Every step leaves the queue without its front command and otherwise as it was. The queue is the model's own (log
entry 37). -/
def Obligations.EveryStepTakesOneFromQueue : Prop :=
 ∀ s t : State, step s = .next t → t.pending = s.pending.tail

/-- Monotonic device time never decreases but at a power-on reset. -/
def Obligations.MonotonicTimeNeverDecreases : Prop :=
 ∀ s t : State, (∀ (role : BitVec 2) (boot : BootPins) (rest : List Instr), s.pending ≠ .powerOnReset role boot :: rest) →
  step s = .next t → s.now ≤ t.now

/-- A doorbell on a PENDING or RUNNING mailbox, or from a path without it, is ignored and sets the overrun bit (R422).
-/
def Obligations.IgnoredDoorbellSetsOverrun : Prop :=
 ∀ (i : Instr) (c : CommandSpec) (r : HostRequest) (s : State), commandOf i = some (c, r) → r.mailbox < 16 →
  ((s.mbx r.mailbox).state = .pending ∨ (s.mbx r.mailbox).state = .running ∨ s.host.config.paths.get r.mailbox ≠ r.path) →
  ∃ t, exec i s = .next t ∧ ChangesOnly [.host] s t ∧ t.host.overrun.getLsbD r.mailbox ∧ (t.mbx r.mailbox).state = (s.mbx r.mailbox).state ∧
   (t.mbx r.mailbox).captured = (s.mbx r.mailbox).captured ∧ t.host.order = s.host.order

/-- Before READY, or behind another registered doorbell, a doorbell is held PENDING in the order of registration. -/
def Obligations.DoorbellWaitsItsTurn : Prop :=
 ∀ (i : Instr) (c : CommandSpec) (r : HostRequest) (s : State), commandOf i = some (c, r) →
  doorbellAccepted s.host r.mailbox r.path → (¬s.sys.ready ∨ s.host.order ≠ []) → ∃ t, exec i s = .next t ∧ ChangesOnly [.host] s t ∧ (t.mbx r.mailbox).state = .pending ∧
   (t.mbx r.mailbox).captured = some ⟨c.opcode, r⟩ ∧ t.host.order = s.host.order ++ [r.mailbox]

/-- A rejected command is answered with the status of its first failing check, without a payload. -/
def Obligations.RejectedCommandAnswersItsStatus : Prop :=
 ∀ (i : Instr) (c : CommandSpec) (r : HostRequest) (s : State) (st : Status) (d : Nat), commandOf i = some (c, r) →
  Rejects c r s st d → ∃ t, exec i s = .next t ∧ Answered c.opcode r st t ∧ answerBytes r t = [] ∧ (t.mbx r.mailbox).response.detail = d % 4294967296 ∧ t.host.irqStatus.getLsbD r.mailbox

/-- A rejected command raises no fault class, writes no fault record and changes nothing outside the host part (R365).
-/
def Obligations.RejectedCommandRaisesNoFault : Prop :=
 ∀ (i : Instr) (c : CommandSpec) (r : HostRequest) (s : State) (st : Status) (d : Nat), commandOf i = some (c, r) →
  Rejects c r s st d → ∃ t, exec i s = .next t ∧ t.fault = s.fault ∧ (∃ l, t.log.submissions = s.log.submissions ++ l ∧ ∀ x ∈ l, x.code = 0x1008) ∧
   (c.opcode ≠ 0x0101 → c.opcode ≠ 0x0902 → ChangesOnly [.host] s t)

/-- An accepted command completes: its mailbox is DONE with its reply, or RUNNING while its response waits for hardware.
-/
def Obligations.AcceptedCommandIsAnswered : Prop :=
 ∀ (i : Instr) (c : CommandSpec) (r : HostRequest) (s : State), commandOf i = some (c, r) → Accepts c r s →
  ∃ t, exec i s = .next t ∧ (¬(c.effect (atStart c.opcode r s) (reqOf c.opcode r)).2.deferred → Answered c.opcode r (c.effect (atStart c.opcode r s) (reqOf c.opcode r)).2.status t) ∧
   ((c.effect (atStart c.opcode r s) (reqOf c.opcode r)).2.deferred → StillRuns r t)

/-- The checks of every command that can be scheduled stand in the order of R425. -/
def Obligations.ChecksFollowValidationOrder : Prop :=
 ∀ c ∈ innerTable, ∀ (s : State) (q : Req), ((c.checks s q).map (fun k => statusRank k.status)).Pairwise (· ≤ ·)

/-- AT_SOURCE_CONFIG, TDD_PATTERN_SET, WALL_TIME_SET, AT_SCHEDULE and AT_CANCEL complete with their effects. -/
def Obligations.AirTimeCommandsSetTime : Prop :=
 ∀ (r : HostRequest) (s : State),
  (Does 0x0201 .atSourceConfig r s [.air] fun t => t.air = { s.air with config := {
    priority := some [r.u8 0, r.u8 1, r.u8 2, r.u8 3], revertive := r.u8 4 == 1, donorPath := r.u8 5, donorDelay := r.s32 8, slewWindow := r.u32 12,
    slewRate := r.u32 16, errLimit := r.u32 20, stabRef := r.u32 24, stabLocal := r.u32 28, revertHold := r.u32 32, frameEpoch := r.u64 36 } }) ∧
  (Does 0x0204 .tddPatternSet r s [.air] fun t => (∃ f, (t.pattern (r.u8 0)).waiting = some (f, patternOf r.payload) ∧ f % 2 = 0 ∧ (r.u32 16 ≠ 0 → f = r.u32 16) ∧
    (r.u32 16 = 0 → f = (s.air.frame + 2) % 4294967296 ∨ f = (s.air.frame + 3) % 4294967296)) ∧ (∀ p, p ≠ r.u8 0 → t.pattern p = s.pattern p) ∧ t.air = { s.air with patterns := t.air.patterns }) ∧
  (Does 0x0205 .wallTimeSet r s [.air, .log] fun t => t.air.wallSet ∧ (¬s.air.wallSet ∨ 1000 < ((r.u64 0 : Int) - wallNow s).natAbs → wallNow t = r.u64 0)) ∧
  (Does 0x0210 .atSchedule r s [.air] fun t => (∃ x, t.air = { s.air with handles := s.air.handles + 1, scheduled := s.air.scheduled ++ [x] } ∧
    x.handle = s.air.handles + 1 ∧ ¬x.late ∧ x.opcode = r.u16 20 ∧ x.session = r.session ∧ x.payload = bytesAt r.payload 28 (r.u32 24))) ∧
  (Does 0x0211 .atCancel r s [.air, .rf] fun t => t.air = { s.air with scheduled := s.air.scheduled.filter (fun x => x.handle != r.u32 0) } ∧
   t.rf = { s.rf with grants := s.rf.grants.filter (fun g => g.handle != r.u32 0) })

/-- A timing source fails at its deadline, a FAILED one returns to SEARCHING after 1 s, and a higher one is taken back
after REVERT_HOLD. The period of an NR donor that is not yet known is log entry 118. -/
def Obligations.TimingSourcesFailAndRetry : Prop :=
 ∀ (s : State) (c n : Nat),
  (((s.source 1).state = .usable ∨ (s.source 1).state = .qualifying) → Runs .donorSyncTimeout s [.air] fun t => (t.source 1).state = .failed ∧ t.air.detections = [] ∧
    waited s t ((s.source 1).lastAt + 4 * tcOfMs (if s.air.donorPeriod = 0 then 160 else s.air.donorPeriod))) ∧
  (((s.source 2).state = .usable ∨ (s.source 2).state = .qualifying) → Runs .ptpSyncTimeout s [.air] fun t => (t.source 2).state = .failed ∧ t.air.ptpGoodFrom = none ∧
    waited s t ((s.source 2).lastAt + tcOfS 3)) ∧
  (((s.source 3).state = .usable ∨ (s.source 3).state = .qualifying) → Runs .flockSourceTimeout s [.air, .fl] fun t => waited s t ((s.source 3).lastAt + 4 * 19660800) ∧
    (¬standbyHub s → (∀ a, s.fl.alternate = some a → (s.port a).ttRun = 0) → (t.source 3).state = .failed)) ∧
  (s.air.ppsAt = some n → ((s.source 2).state = .usable ∨ (s.source 2).state = .qualifying) → Runs .ppsInMissing s [.air] fun t => (t.source 2).state = .failed ∧ t.air.ppsAt = none ∧
    waited s t (n + tcOfS 2)) ∧
  ((s.source c).state = .failed → Runs (.sourceRetryTimer c) s [.air] fun t => (t.source c).state = .searching ∧ waited s t ((s.source c).failedAt + tcPerSecond)) ∧
  (s.air.config.revertive → s.air.source ≠ 0 → (selectionList s).contains s.air.source → sourceUsable s s.air.source →
   ((selectionList s).takeWhile (fun x => x != s.air.source)).find? (sourceUsable s) = some c → Runs .revertHoldExpiry s [.air] fun t => t.air.source = c ∧ t.air.lock = .acquiring ∧
    (s.source c).usableSince + tcOfMs s.air.config.revertHold ≤ t.now)

/-- Donor detections, PTP Sync messages, PPS_IN edges and REF_IN update their sources. -/
def Obligations.TimingInputsQualifySources : Prop :=
 ∀ (s : State) (i : DonorInput) (m : PtpInput) (w : Nat) (f : Int) (b : Bool),
  (i.valid → i.path = s.air.config.donorPath → (s.source 1).state ≠ .failed → (s.source 1).state ≠ .absent → Runs (.donorDetection i) s [.air] fun t => (t.source 1).lastAt = s.now ∧
    ((t.source 1).state = .qualifying ∨ (t.source 1).state = .usable) ∧ ((s.source 1).state = .usable → (t.source 1).state = (if spacingChanged i.nr s.air.donorPeriod s.air.detections
     ⟨2 * i.sfn + (if i.second then 1 else 0), i.timing - s.air.config.donorDelay⟩ then .qualifying else .usable))) ∧
  (ptpCounts s.host.net m → (s.source 2).state ≠ .failed → (s.source 2).state ≠ .absent → Runs (.ptpSyncRx m) s [.air, .log] fun t => t.air.ptpAt = some (m.time, s.now) ∧
    (100 < m.offset.natAbs → t.air.ptpGoodFrom = none) ∧ (∀ t0, m.offset.natAbs ≤ 100 → s.air.ptpGoodFrom = some t0 → t0 + 2000000000 ≤ m.time → (t.source 2).state = .usable)) ∧
  (100 ≤ w → w ≤ 900000000 → Runs (.ppsInEdge w) s [.air] fun t => t.air.ppsAt = some s.now) ∧
  ((w < 100 ∨ 900000000 < w) → Still (.ppsInEdge w) s) ∧
  Runs (.refInQualify f) s [.air] (fun t => ∃ a, a = (waitUntil (s.air.refGoodFrom + tcPerSecond) s).air ∧ (f.natAbs ≤ 200000 → t.air = { a with
    refPresent := true, refQualified := true, refFreq := f, freqOff := if a.lock = .holdover then f else a.freqOff }) ∧
   (200000 < f.natAbs → t.air = { a with refPresent := true, refGoodFrom := a.mono })) ∧
  Runs (.refInLoss b) s [.air] (fun t => t.air = { s.air with
   refPresent := b, refQualified := false, refGoodFrom := s.now, freqOff := if s.air.lock = .holdover then averageFreq s.air else s.air.freqOff })

/-- LOCKED after 16 ticks, the air-time step, the end of STEP_PENDING, TIME_LOSS, PPS_OUT's fall and a scheduled
command's firing. -/
def Obligations.AirTimeLocksStepsAndLoses : Prop :=
 ∀ (s : State) (i : AirInstant) (e : Int) (n : Nat) (x : Scheduled),
  (s.air.lock = .acquiring → 16 ≤ s.air.lockTicks → Runs .atLocked s [.air, .fault] fun t => t.air = { s.air with lock := .locked, acquired := true }) ∧
  (s.air.step = some (i, e) → Runs .airTimeStep s [.air, .fault, .log, .ce, .lg, .np, .cl] fun t => t.air.step = none ∧ t.air.steps = s.air.steps + 1 ∧ t.air.stepPending ∧ t.air.stepEndAt ≠ none) ∧
  (s.air.stepEndAt = some n → Runs .stepPendingEnd s (bands [.air, .fault]) fun t => t.air.stepEndAt = none ∧ t.air.stepPending = s.air.step.isSome ∧ waited s t n) ∧
  (s.air.acquired → ¬timeErrOk s.air → Runs .timeErrLimitExceeded s [.air, .fault] fun t => holding t 0x82 partUnit ∧ t.now = s.now) ∧
  (s.air.ppsOutEnd = some n → Runs .ppsOutPulseEnd s [.air] fun t => ¬t.air.ppsOut ∧ t.air.ppsOutEnd = none ∧ waited s t n) ∧
  (nextScheduled s = some x → x.opcode ≠ 0x0210 → Runs .scheduledCommandFire s (but [.wire, .pending]) fun t => ∀ y ∈ t.air.scheduled, y ∈ s.air.scheduled ∧ y.handle ≠ x.handle)

/-- Loop ticks, slots, subframes and frames end on their boundaries; TDD patterns take effect and are verified. -/
def Obligations.GridBoundariesAndPatterns : Prop :=
 ∀ (s : State) (i : TickInput) (j : FrameInput) (p f m : Nat) (late : Bool) (d : PatternDef) (r : Int),
  (s.air.inRange → s.air.step = none → Runs (.loopTick i) s (but [.host, .log, .sys, .hk, .cl, .bell, .pair, .pending]) fun t => t.air.offset % 61440 = 0) ∧
  (s.air.inRange → s.air.slotMu ≤ 4 → Runs .slotBoundary s [.air, .fault, .ce, .lg, .np, .cl] fun t => t.air.offset % slotPeriod s.air = 0) ∧
  (s.air.inRange → Runs .subframeBoundary s [.air, .log, .fl, .pair, .drawn] fun t => t.air.offset % 1966080 = 0) ∧
  (s.air.inRange → Runs (.frameBoundary j) s [.air, .fault, .lg, .np, .fl, .dv, .drawn] fun t => t.air.offset = 0) ∧
  ((s.pattern p).waiting = some (f, d) → Runs (.tddPatternEffective p) s [.air, .fault, .ce, .lg, .np, .cl] fun t => (t.pattern p).waiting = none ∧ (t.pattern p).defn = some d ∧
    (t.pattern p).state = (if d.refKind = 0 then .asserted else .provisional)) ∧
  ((s.pattern p).defn = some d → d.refKind ≠ 0 → (s.pattern p).state ≠ .unset →
   (s.pattern p).state ≠ .asserted → Runs (.tddVerifyWindowEnd p late m) s [.air, .host] fun t => ∃ w, w = (s.pattern p).powers.map PowerSum.mean ∧
    (windowVoid d.segments w → (t.pattern p).state = (s.pattern p).state) ∧ (¬windowVoid d.segments w → segmentRatio d.segments w = some r → 10 * (d.verifyRatio : Int) ≤ r →
     m ≤ d.tol → (t.pattern p).state = .verified ∧ (t.pattern p).fails = 0))

/-- The RF commands complete: windows, transmit enable, attenuation, calibration requests and grants, policy and
observation map. -/
def Obligations.RfCommandsConfigureChains : Prop :=
 ∀ (r : HostRequest) (s : State),
  (Accepts specRfChainConfig r s → Runs (.rfChainConfig r) s [.host, .fault, .rf, .ce, .lg, .np, .pair] fun t => Answered 0x0301 r .accepted t ∧
   (r.u8 1 = 0 → (s.chain (r.u8 0)).fe = .off ∨ (s.chain (r.u8 0)).offAt ≠ none → (t.chain (r.u8 0)).fe = .off) ∧ (r.u8 1 = 0 → (s.chain (r.u8 0)).fe ≠ .off → (s.chain (r.u8 0)).offAt = none →
    (t.chain (r.u8 0)).offAt = some (now s + tcOfUs 10, ticketOf (reqOf 0x0301 r)) ∧ (t.chain (r.u8 0)).leaving) ∧ (r.u8 1 = 1 → (s.chain (r.u8 0)).fe = .off →
    (t.chain (r.u8 0)).window = windowOf r.payload ∧ ((t.chain (r.u8 0)).fe = .locking ∨ (t.chain (r.u8 0)).fe = .calibrating)) ∧
   (r.u8 1 = 1 → (s.chain (r.u8 0)).fe ≠ .off → (s.chain (r.u8 0)).offAt = none → chainBusy (s.chain (r.u8 0)) → (t.chain (r.u8 0)).held ≠ none ∧
    (t.chain (r.u8 0)).window = (s.chain (r.u8 0)).window)) ∧
  (Accepts specRfTxEnable r s → Runs (.rfTxEnable r) s [.host, .fault, .rf, .ce, .lg, .np, .pair] fun t => (r.u8 1 = 0 → Answered 0x0302 r .ok t ∧ ((t.chain (r.u8 0)).fe ≠ .active ∨
    (t.chain (r.u8 0)).leaving)) ∧ (r.u8 1 = 1 → ¬standbyHub s → Answered 0x0302 r .accepted t ∧ (¬chainBusy (s.chain (r.u8 0)) → (t.chain (r.u8 0)).activateAt = some (nextSlot s)) ∧
    (chainBusy (s.chain (r.u8 0)) → (t.chain (r.u8 0)).held ≠ none)) ∧ (r.u8 1 = 1 → standbyHub s → Answered 0x0302 r .ok t ∧ r.u8 0 ∈ t.pair.enableTx ∧ t.rf = s.rf)) ∧
  (Does 0x0303 .rfRxAtten r s [.rf, .ce] fun t => ((s.chain (r.u8 0)).fe = .locking ∨ (s.chain (r.u8 0)).fe = .calibrating → (t.chain (r.u8 0)).attenStore = some (r.u8 1) ∧ answerBytes r t = le 8 0) ∧
   ((s.chain (r.u8 0)).fe ≠ .locking → (s.chain (r.u8 0)).fe ≠ .calibrating → (s.chain (r.u8 0)).attenAt = none → (t.chain (r.u8 0)).atten = r.u8 1 ∧ answerBytes r t = le 8 s.now)) ∧
  (Accepts specRfCalRun r s → Runs (.rfCalRun r) s [.host, .rf, .pair] fun t => Answered 0x0304 r .accepted t ∧ (∀ c, c < 16 → (r.u32 0).testBit c →
    ((t.chain c).due.map (fun d => d.hostNow)) = some (r.u8 5 == 1)) ∧ ((r.u32 0).testBit 16 → t.rf.bellDue)) ∧
  (Does 0x0305 .rfCalGrant r s [.air, .rf] fun t => answerBytes r t = le 4 (s.air.handles + 1) ∧ t.air = { s.air with handles := s.air.handles + 1 } ∧ t.rf = { s.rf with grants := liveGrants s ++ [{
    handle := s.air.handles + 1, mask := BitVec.ofNat 16 (r.u32 0), start := ⟨r.u32 4, r.u32 8⟩, duration := r.u32 12, refresh := r.u8 16 == 1, session := r.session }] }) ∧
  (Does 0x0306 .rfPolicy r s [.rf] fun t => t.rf = { s.rf with tempDelta := r.u16 0, autoCal := r.u8 2 == 1, overdrive := r.u16 4 }) ∧
  (Does 0x0307 .rfObsMap r s [.rf] fun t => (∀ k, k < 8 → t.rf.obsMap.get k = (if r.u8 k = 0xFF then none else some (r.u8 k))) ∧ t.rf.obsDwell = r.u16 8 ∧ (t.obs 0).atten = r.u8 10 ∧
   (t.obs 1).atten = r.u8 11 ∧ t.rf.chains = s.rf.chains)

/-- Lock, unlock, activation, and the timeouts of a locking chain. -/
def Obligations.SynthesisersLockAndUnlock : Prop :=
 ∀ (s : State) (c us n : Nat) (o : RfOp) (i : AirInstant) (w : RfWindow) (f : FeState) (k : Ticket) (v : Nat),
  ((s.chain c).op = some o → o.kind = .retune → Runs (.synthLock c us) s (bands [.air, .host, .fault, .rf]) fun t => (t.chain c).locked ∧ (t.chain c).op = none ∧ (t.chain c).lockUs = us % 65536 ∧
   ((t.chain c).fe = .ready ∨ (t.chain c).fe = .active)) ∧
  ((s.chain c).op = none → (s.chain c).fe ≠ .off → ¬(s.chain c).locked → Runs (.synthLock c us) s (bands [.air, .host, .fault, .rf]) fun t => (t.chain c).locked ∧ (t.chain c).fe = (s.chain c).fe) ∧
  (c ≠ 16 → ((s.chain c).fe = .ready ∨ (s.chain c).fe = .active) → Runs (.synthUnlock c) s (bands [.fault, .rf]) fun t => ¬(t.chain c).locked ∧ (t.chain c).unlocks = (s.chain c).unlocks + 1 ∧
    (c < 8 ∨ (s.chain c).fe = .active → holding t 0x10 (chainUnit c))) ∧
  Runs (.synthUnlock 16) s (bands [.fault, .rf]) (fun t => t.rf = { s.rf with bellLocked := false }) ∧
  ((s.chain c).activateAt = some i → (s.chain c).held = none → (s.chain c).offAt = none → (c < 8 ∨ (s.chain c).locked) → ((s.chain c).ret = .active ∨ (s.chain c).enabling ≠ []) →
   Runs (.chainActivate c) s (bands [.air, .host, .fault, .rf]) fun t => (t.chain c).fe = .active ∧ (t.chain c).activateAt = none ∧ (t.chain c).enabling = []) ∧
  ((s.chain c).offAt = some (n, k) → Runs (.chainActivate c) s (bands [.air, .host, .fault, .rf]) fun t => (t.chain c).fe = .off ∧ waited s t n) ∧
  ((s.chain c).deadline_ = some n → waitingEnable (s.chain c) = none → (s.chain c).previous = some (w, f) → Runs (.lockTimeout c) s (bands [.air, .host, .fault, .rf]) fun t => waited s t n ∧
    (f = .off → (t.chain c).fe = .off) ∧ (f ≠ .off → (t.chain c).window = w ∧ (t.chain c).relockBy ≠ none ∧ ((t.chain c).fe = .locking ∨ (t.chain c).fe = .calibrating))) ∧
  ((s.chain c).deadline_ = none → (s.chain c).held = some (.txEnable k n) → Runs (.lockTimeout c) s (bands [.air, .host, .fault, .rf]) fun t => (t.chain c).held = none ∧ waited s t n ∧
    ((s.chain c).op = none → ¬(s.chain c).locked → (t.chain c).relockBy ≠ none)) ∧
  ((s.chain c).relockBy = some n → Runs (.relockTimeout c) s [.air, .fault, .rf] fun t => (t.chain c).relockBy = none ∧ holding t 0x10 (chainUnit c)) ∧
  ((s.chain c).attenWait = some v → (s.chain c).attenAt = some n → Runs (.attenDeferredApply c) s [.air, .rf, .ce] fun t => (t.chain c).atten = v ∧ (t.chain c).attenWait = none ∧
    waited s t (n + tcOfUs 1) ∧ (t.chain c).attenAt = some t.now)

/-- Calibrations are evaluated, start and end; grants begin; converter faults; observation dwells. -/
def Obligations.CalibrationAndObservationRun : Prop :=
 ∀ (s : State) (c us k : Nat) (n : Nat) (d : DueCal) (o : RfOp) (g : Grant) (rej : Int) (x : FrontResult) (i : DwellInput),
  Runs .calEvaluation s (bands [.air, .fault, .rf]) (fun t => t.now = s.now + (monoOfAir s.air (calTarget s) - (tcOfUs 10 + 1)) ∧ (∀ j, (s.chain j).fe = .off → t.chain j = s.chain j)) ∧
  ((s.chain c).calAt = some n → (s.chain c).due = some d → (d.kind = .full → toneFree s c) → Runs (.calibrationStart c) s (bands [.air, .fault, .rf]) fun t =>
   (t.chain c).due = none ∧ (t.chain c).op ≠ none ∧ ¬(t.chain c).locked ∧ (t.chain c).fe = (if d.kind = .retune then .locking else .calibrating) ∧ (d.kind = .full → t.rf.tones.get (c % 8 / 4))) ∧
  ((s.chain c).op = some o → o.kind ≠ .retune → Runs (.calibrationComplete c us false rej x) s (bands [.air, .host, .fault, .log, .rf]) fun t => (t.chain c).fe = .locking ∧
    (t.chain c).cals = (s.chain c).cals) ∧
  ((s.chain c).op = some o → o.kind ≠ .retune → Runs (.calibrationComplete c us true rej x) s (bands [.air, .host, .fault, .log, .rf]) fun t =>
    (t.chain c).cals = (s.chain c).cals + 1 ∧ (t.chain c).locked ∧ (t.chain c).op = none ∧ (o.kind = .full → 7500 ≤ rej → (t.chain c).tCal = some (chainTemp s c) ∧ ¬(t.chain c).degraded) ∧
    (o.kind = .full → rej < 7500 → (t.chain c).degraded ∧ (t.chain c).due ≠ none)) ∧
  (s.rf.grants.find? (fun x => x.handle == k) = some g → g.endAt = none → Runs (.grantStart k) s [.air, .rf] fun t => ∀ x ∈ t.rf.grants, x.handle = k → x.endAt ≠ none) ∧
  Runs (.converterSelfCheckFail c) s [.fault, .ce] (fun t => RaisedOnce 0x13 (chainUnit c) s t) ∧
  (k ≤ 1 → ¬(s.obs k).observing → nextObserved s k = some n → Runs (.obsDwellStart k) s [.air, .rf] fun t => (t.obs k).observing ∧ (t.obs k).chain = n ∧
   (t.obs k).dwellEnd = t.now + s.rf.obsDwell * 61440) ∧
  ((s.obs k).observing → Runs (.obsDwellEnd k i) s [.air, .fault, .rf, .ce, .lg, .np, .cl] fun t => ¬(t.obs k).observing ∧ waited s t (s.obs k).dwellEnd ∧
   (let l := usedSamples (advanceTo (s.obs k).dwellEnd s) k i
   (l ≠ [] → (t.obs k).visits = (s.obs k).visits + 1 ∧ (t.obs k).power = pinPower (s.obs k) ((l.map (fun v => cNorm v.2)).sum) l.length) ∧ (l = [] → (t.obs k).skips = (s.obs k).skips + 1)))

/-- The channel-engine commands complete: band paths are configured, released, aligned; detectors, the alignment pin and
DPD are set. -/
def Obligations.ChannelCommandsConfigureBandPaths : Prop :=
 ∀ (r : HostRequest) (s : State),
  (Does 0x0401 .bpConfig r s (bands [.fault]) fun t => (bandPath t (dirOf (r.u8 1)) (r.u8 0)).map aimedParams = some (paramsOf r.payload ((stagesFor (r.u8 3) (r.u32 4)).getD 1))) ∧
  (Does 0x0402 .bpRelease r s (bands [.fault]) fun t => (r.u8 1 = 0 → t.ce = { s.ce with ib := s.ce.ib.set (r.u8 0) none }) ∧
   (r.u8 1 = 1 → ((t.ce.eb.get (r.u8 0)).map (fun b => b.releasing)).getD true)) ∧
  (Does 0x0403 .bpDetector r s [.ce] fun t => bandPath t (dirOf (r.u8 1)) (r.u8 0) = (bandPath s (dirOf (r.u8 1)) (r.u8 0)).map (fun b => { b with
     windowNext := some (r.u8 2), preTap := (r.u8 3).testBit 0, includeAll := (r.u8 3).testBit 1 })) ∧
  (Does 0x0404 .bpAlign r s [.ce] fun t => t.ce = { s.ce with align := some {
    frame := if r.u32 32 = 0 then framesAhead s 2 else r.u32 32, inMask := r.uN 0 16, egMask := r.uN 16 16, byPin := false } }) ∧
  (Does 0x0405 .bpSyncPin r s [.ce] fun t => t.ce = { s.ce with
    syncMode := if r.u8 0 = 0 then .off else if r.u8 0 = 1 then .in_ else .out, syncIn := r.uN 4 16, syncEg := r.uN 20 16 }) ∧
  (Does 0x0410 .dpdConfig r s [.fault, .ce, .lg, .np, .cl] fun t => (t.dpd (r.u8 0 - 8)).state = (if r.u8 1 = 0 then .off else if r.u8 5 = 1 then .adapting else .frozen) ∧
   (t.dpd (r.u8 0 - 8)).orders = r.u8 2 ∧ (t.dpd (r.u8 0 - 8)).memory = r.u8 3 ∧ (t.dpd (r.u8 0 - 8)).cross = r.u8 4 ∧ (t.dpd (r.u8 0 - 8)).limit = r.s32 8 ∧
   ((s.dpd (r.u8 0 - 8)).model ≠ (r.u8 2, r.u8 3, r.u8 4) → ∀ k, (t.dpd (r.u8 0 - 8)).sets.get k = [])) ∧
  (Does 0x0411 .dpdControl r s (bands [.fault]) fun t => (r.u8 1 = 0 → (t.dpd (r.u8 0 - 8)).state = .frozen) ∧ (r.u8 1 = 1 → (t.dpd (r.u8 0 - 8)).state = .adapting) ∧
   (r.u8 1 = 2 → DpdPending.identity ∈ (t.dpd (r.u8 0 - 8)).pending) ∧ (r.u8 1 = 3 → DpdPending.copyAll ∈ (t.dpd (r.u8 0 - 8)).pending))

/-- Settles pass from fade-out through zeros to fade-in; alignments are applied; SYNC_ALIGN; settle and alignment
faults. -/
def Obligations.SettlesFadeAndAlign : Prop :=
 ∀ (s : State) (d : Dir) (n m : Nat) (b : BandPath) (p : AlignPending) (h : Bool),
  (bandPath s d n = some b → b.phase = .fadeOut → Runs (.fadeOutEnd d n) s (bands [.air, .fault, .rf]) fun t => ∃ x, bandPath t d n = some x ∧ (x.phase = .zeros ∨ x.phase = .waiting) ∧ x.next = none ∧
    x.params = b.next.getD b.params) ∧
  (bandPath s d n = some b → b.phase = .zeros → Runs (.settleZerosEnd d n) s (bands [.air, .host, .fault]) fun t => waited s t b.phaseEnd ∧ (bandPath t d n).map (fun x => x.phase) = some (match d with
    | .ingress => .fadeIn
    | .egress => .idle)) ∧
  (s.ce.ib.get n = some b → b.phase = .fadeIn → Runs (.fadeInEnd n) s (bands [.air, .host, .fault]) fun t =>
   waited s t b.phaseEnd ∧ (t.ce.ib.get n).map (fun x => (x.phase, x.settleBy)) = some (.idle, 0)) ∧
  (bandPath s d n = some b → b.phase ≠ .idle → b.settleBy ≠ 0 → Runs (.pathSettleTimeout d n) s [.air, .fault] fun t => waited s t b.settleBy ∧ RaisedOnce 0x20 (bpUnit d n) s t) ∧
  (nextAlign s = some p → Runs .alignmentApply s (bands [.air, .fault]) fun t => t.ce.alignCount = s.ce.alignCount + 1 ∧
   t.ce.alignFrame = p.frame ∧ (p.byPin → t.ce.alignPin = none) ∧ (¬p.byPin → t.ce.align = none)) ∧
  (s.ce.syncMode = .in_ → Runs (.syncAlignEdge true) s [.ce] fun t => (s.ce.alignPin = none → t.ce.syncIgnored = s.ce.syncIgnored ∧
    t.ce.alignPin.map (fun x => (x.inMask, x.egMask, x.byPin)) = some (s.ce.syncIn, s.ce.syncEg, true)) ∧
   (s.ce.alignPin ≠ none → t.ce.syncIgnored = s.ce.syncIgnored + 1 ∧ t.ce.alignPin = s.ce.alignPin)) ∧
  ((¬h ∨ s.ce.syncMode ≠ .in_) → Still (.syncAlignEdge h) s) ∧
  (s.ce.syncEnd = some m → Runs .syncAlignPulseEnd s [.air, .ce] fun t => t.ce = { s.ce with syncEnd := none, syncLevel := false } ∧ waited s t m) ∧
  (bandPath s d n = some b → Runs (.alignLossDetect d n) s [.fault, .ce] fun t => bandPath t d n = some { b with misaligned := true } ∧ RaisedOnce 0x23 (bpUnit d n) s t)

/-- Detector windows and symbols end, DPD updates are applied, reverted and switched, and flow blocks set the source
marks. -/
def Obligations.DetectorsAndPredistortionRun : Prop :=
 ∀ (s : State) (d : Dir) (n k f : Nat) (b : BandPath) (fs : List Nat) (cs : List (List Cx)) (y : List (List Nat)) (a : Int)
  (g : UlGate) (blk : Block) (set old : DpdSet),
  (bandPath s d n = some b → Runs (.detectorWindowEnd d n fs cs y) s [.air, .fault, .ce, .lg, .np, .fl, .dv, .mem, .wire, .drawn] fun t =>
   ∃ x p v, bandPath t d n = some x ∧ x.detSeq = b.detSeq + 1 ∧ x.windowK = b.windowNext.getD b.windowK ∧ x.windowNext = none ∧
    p = x.power d (instantBack (windowBoundary s.air b) (tcPerTick * 2 ^ b.windowK)) (windowBoundary s.air b) ∧ v = decibel (p.peak * unity / 2 ^ 36) ∧ (p.count = 0 → x.detMean = none) ∧
    (0 < p.count → p.mean = some a → (v < a → x.detInvalid ∧ x.detMean = none) ∧ (a ≤ v → ¬b.detInvalid → x.detMean = some a ∧ x.detPeak = some v))) ∧
  (bandPath s d n = some b → Runs (.detectorSelfCheckFail d n) s [.fault, .ce] fun t =>
   bandPath t d n = some { b with detInvalid := true, detFault := b.detSeq, detMean := none, detPeak := none, goodWindows := 0 }) ∧
  (bandPath s d n = some b → Runs (.symbolBoundary d n fs cs) s [.air, .ce, .lg, .np, .fl, .dv, .mem, .wire, .drawn] fun t =>
   ∃ x lo e, bandPath t d n = some x ∧ lo = symbolStart (symbolMu s b) (airNow t.air) ∧ e = (x.power d lo (airNow t.air)).mean ∧ x.envLast = e.getD b.envLast ∧
   (d = .ingress → s.np.gates.get n = some g → ∃ v, t.np.gates.get n = some v ∧ (g.mode = .closed ∨ ¬ownSegment t x.params lo → ¬v.isOpen) ∧ (e = none → v.envs = g.envs) ∧
    (g.mode = .open_ → ¬inPaddock s (ibUnit n) → ownSegment t x.params lo → v.isOpen ∧ v.openCount = g.openCount + 1))) ∧
  (.apply set ∈ (s.dpd n).pending → Runs (.dpdUpdateApply n) s [.air, .ce] fun t => (t.dpd n).updates = (s.dpd n).updates + 1 ∧ (∀ x, .apply x ∉ (t.dpd n).pending) ∧
   ∃ x, .apply x ∈ (s.dpd n).pending ∧ (t.dpd n).sets.get (s.dpd n).active = x) ∧
  (.revert ∈ (s.dpd n).pending → (s.dpd n).before = some (a, old) → Runs (.dpdUpdateRevert n) s [.air, .fault, .ce] fun t => (t.dpd n).rejects = (s.dpd n).rejects + 1 ∧ .revert ∉ (t.dpd n).pending ∧
   ((s.dpd n).rejectRun < 2 → (t.dpd n).sets.get (s.dpd n).active = old ∧ (t.dpd n).state = (s.dpd n).state) ∧ (2 ≤ (s.dpd n).rejectRun → (t.dpd n).state = .held)) ∧
  (.switch k ∈ (s.dpd n).pending → Runs (.dpdSetSwitch n) s [.air, .ce] fun t => .switch (t.dpd n).active ∈ (s.dpd n).pending ∧ (t.dpd n).best = none ∧ ∀ x, .switch x ∉ (t.dpd n).pending) ∧
  (s.ce.eb.get n = some b → b.params.srcFlow → b.params.srcId = f → Runs (.flowBlockArrival n f k blk) s [.fault, .ce, .lg, .np, .mem] fun t =>
   (t.ce.eb.get n).map (fun x => (x.srcSettling, x.srcGapped, x.rateMismatch)) =
    some (blk.settling, blk.gapped, k != rateKsps b.params.stages)) ∧
  (s.ce.eb.get n = some b → (¬b.params.srcFlow ∨ b.params.srcId ≠ f) → Still (.flowBlockArrival n f k blk) s)

/-- The gain and protection commands complete with the gains, mutes, back-offs, gates and rules of their payloads. -/
def Obligations.ProtectionCommandsSetLimits : Prop :=
 ∀ (r : HostRequest) (s : State),
  (Does 0x0601 .gsSetGain r s (bands [.fault]) fun t => ((s.np.gain.get (r.u8 0)).soft = none → (t.np.gain.get (r.u8 0)).gCmd = r.s32 4)) ∧
  (Does 0x0602 .gsMute r s (bands [.fault]) fun t => ∀ e ∈ mask128 r.payload 0, ebExists s e → (t.np.gain.get e).host = (r.u8 16 == 1)) ∧
  (Does 0x0603 .npBackoffSet r s (bands [.fault]) fun t => (r.u32 4 ≠ 0 → ∃ x ∈ t.np.backoffs, x.cause = .host ∧ x.amount = r.u32 4 ∧
    x.unit = (if r.u8 0 = 0 then ebUnit (r.u8 1) else chainUnit (r.u8 1))) ∧ (r.u32 4 = 0 → ∀ x ∈ t.np.backoffs, ¬ (x.cause = .host ∧ x.inst = 0 ∧
    x.unit = (if r.u8 0 = 0 then ebUnit (r.u8 1) else chainUnit (r.u8 1))))) ∧
  (Does 0x0604 .npPolicy r s (bands [.fault]) fun t => t.np.backoffMax = r.u32 0 ∧ t.np.shareMax = r.u32 4) ∧
  (Does 0x0605 .ulGateConfig r s [.np] fun t => (t.np.gates.get (r.u8 0)).map (fun g => (g.mode, g.hang, g.gOpen, g.noiseWin)) =
    some (if r.u8 1 = 0 then .gated else if r.u8 1 = 1 then .open_ else .closed, r.u8 2, (r.u32 4 : Int), r.u32 8)) ∧
  (Does 0x0606 .ulNoiseConfig r s (bands [.fault]) fun t => (t.np.noise.get (r.u8 0)).enable = (r.u8 1 == 1) ∧ (t.np.noise.get (r.u8 0)).limit = r.s32 4 ∧ (t.np.noise.get (r.u8 0)).rise = r.u32 8 ∧
   (t.np.noise.get (r.u8 0)).deficit = (r.u32 12 : Int)) ∧
  (Does 0x0607 .npDonorConfig r s [.fault, .np] fun t => (t.donor (r.u8 0)).enable = (r.u8 1 == 1) ∧ (t.donor (r.u8 0)).minLevel = r.s32 4 ∧ (t.donor (r.u8 0)).lossTime = r.u32 8 ∧
   (t.donor (r.u8 0)).maxLevel = r.s32 12 ∧ (t.donor (r.u8 0)).ulMask = r.uN 16 16) ∧
  (Does 0x0608 .npOutputConfig r s (bands [.fault]) fun t => (t.np.outputs.get (r.u8 0 - 8)).enable = (r.u8 1 == 1) ∧ (t.np.outputs.get (r.u8 0 - 8)).limit = r.s32 4 ∧
   (t.np.outputs.get (r.u8 0 - 8)).coupling = (r.u32 8 : Int) ∧ (t.np.outputs.get (r.u8 0 - 8)).trip = (r.u32 12 : Int) ∧ (t.np.outputs.get (r.u8 0 - 8)).aclrLimit = (r.u32 16 : Int))

/-- Gain ramps end, the noise estimate starts, and uplink noise, donor loss, recovery and overload are detected. -/
def Obligations.ProtectionWatchesLevels : Prop :=
 ∀ (s : State) (n m : Nat) (l : List Nat) (g : UlGate) (b : BandPath),
  (rampEnds (s.np.gain.get n) = m :: l → Runs (.gainRampEnd n) s (bands [.air, .host, .fault, .log, .sys, .rf]) fun t => waited s t (l.foldl min m)) ∧
  (rampEnds (s.np.gain.get n) = [] → Still (.gainRampEnd n) s) ∧
  (s.np.gates.get n = some g → s.ce.ib.get n = some b → noiseSymbols (symbolMu s b) g.noiseWin ≤ g.envs.length → Runs (.noiseWindowFilled n) s [.np] fun t =>
    t.np.gates.get n = some { g with pendingN := false, nEst := noiseEstimate g.envs }) ∧
  ((s.np.noise.get n).lowSince = some m → Runs (.ulNoiseRiseTimeout n) s [.air, .fault, .np] fun t => waited s t (m + tcPerSecond) ∧ (t.np.noise.get n).lowSince = some t.now ∧
   holding t 0x40 (ebUnit n)) ∧
  ((s.donor n).lossSince = some m → (s.donor n).enable → ¬(s.donor n).loss → Runs (.donorLossTimeout n) s [.air, .fault, .np] fun t => (t.donor n).loss ∧
    (t.donor n).losses = (s.donor n).losses + 1 ∧ holding t 0x41 (ibUnit n) ∧ waited s t (m + tcOfMs (s.donor n).lossTime)) ∧
  ((s.donor n).okSince = some m → (s.donor n).loss → Runs (.donorRecovery n) s [.air, .fault, .np] fun t => ¬(t.donor n).loss ∧ ¬holding t 0x41 (ibUnit n) ∧ waited s t (m + tcPerSecond)) ∧
  ((s.donor n).enable → 32 ≤ (s.donor n).overTicks → ¬(s.donor n).overload → Runs (.donorOverloadDetect n) s [.fault, .np] fun t => (t.donor n).overload ∧
    (t.donor n).overloads = (s.donor n).overloads + 1 ∧ holding t 0x42 (ibUnit n))

/-- Loop-guard commands wait for the next slot boundary, which applies all of them; LG_BEACON_CONFIG waits for its pilot
period. That they wait for the slot boundary is log entry 45. -/
def Obligations.LoopGuardCommandsTakeEffectAtSlot : Prop :=
 ∀ (r : HostRequest) (s : State),
  (Does 0x0501 .lgLoopConfig r s [.lg] fun t => t.lg = { s.lg with waiting := s.lg.waiting ++ [(0x0501, r.payload)] }) ∧
  (Accepts specLgBeaconConfig r s → (s.loop (r.u8 0)).isSome → Runs (.lgBeaconConfig r) s [.host, .lg, .pair] fun t => Answered 0x0502 r .ok t ∧ (t.loop (r.u8 0)).bind (fun l => l.beaconNext) = some {
    nMax := r.u8 1, identity := r.u8 2 == 1, explicit_ := if r.u8 3 = 1 then some (r.u32 4) else none, rel := r.s32 8, floor := r.s32 12, prefixMin := r.u16 16 }) ∧
  (Does 0x0503 .lgCancelConfig r s [.lg] fun t => t.lg = { s.lg with waiting := s.lg.waiting ++ [(0x0503, r.payload)] }) ∧
  (Does 0x0504 .lgCancelControl r s [.lg] fun t => t.lg = { s.lg with waiting := s.lg.waiting ++ [(0x0504, r.payload)] }) ∧
  (Does 0x0505 .lgSearchConfig r s [.lg] fun t => t.lg = { s.lg with waiting := s.lg.waiting ++ [(0x0505, r.payload)] }) ∧
  (Does 0x0506 .lgPolicy r s [.lg] fun t => t.lg = { s.lg with waiting := s.lg.waiting ++ [(0x0506, r.payload)] }) ∧
  Runs .slotBoundary s [.air, .fault, .ce, .lg, .np, .cl] (fun t => t.lg.waiting = [] ∧ (s.lg.waiting = [(0x0506, r.payload)] → t.lg.policy = {
    oscMargin := (r.u32 0 : Int), oscGain := r.s32 4, lineGrowth := (r.u32 8 : Int), holdoff := r.u32 12, mutesToPen := r.u8 16, penWindow := r.u16 18, retryDrop := (r.u32 20 : Int) }) ∧
   (s.lg.waiting = [(0x0501, r.payload)] → r.u8 0 = 0 → r.u8 2 = 1 → r.u8 1 ∈ t.lg.conducted))

/-- Pilot periods, the ladder, the line detector, hold-off, cancellers, and the timeouts of loops. -/
def Obligations.LoopsAreMeasuredAndHeldOff : Prop :=
 ∀ (s : State) (e i k : Nat) (m : PilotInput) (b : BandPath) (l : Loop) (x : List RawBlock) (c q : Int),
  (let p := periodOf s e l.beacon
   let u := feedPaths m.paths (advanceToBoundary (pilotKey e) p s)
   s.ce.eb.get e = some b → s.loop e = some l → Runs (.pilotPeriodEnd e m) s (but [.host, .sys, .rf, .hk, .cl, .ps, .bell, .pair, .pending]) fun t =>
   ∃ y, t.loop e = some y ∧ y.seq = l.seq + 1 ∧ (penned s (ebUnit e) → y.valid = l.valid) ∧ (∀ d, ¬penned s (ebUnit e) → u.ce.eb.get e = some d →
     y.valid = decide (25 ≤ (measurePilot u e d l p (airNow u.air)).emitted))) ∧
  (s.ce.eb.get e = some b → s.loop e = some l → l.state = .ladder → ¬penned s (ebUnit e) →
   l.cap = some c → creditedMargin s e b l = some q → q < l.config.mReq → Runs (.ladderStep e) s (bands [.air, .fault]) fun t =>
   (t.loop e).bind (fun y => y.cap) = some (max gLow (min c (s.np.gain.get e).target - 100))) ∧
  (s.loop e = some l → l.state ≠ .ladder → Still (.ladderStep e) s) ∧
  (s.ce.eb.get e = some b → s.loop e = some l → loopClosed s b l → (l.state = .guarded ∨ l.state = .ladder) → ¬penned s (ebUnit e) →
   (returnIb s b l).any (lineSeen (lineView (828 + e) (returnIb s b l) x s)) → 1 ≤ l.lineRun → Runs (.lineDetectorFrame .egress e x) s (but [.host, .sys, .rf, .hk, .cl, .ps, .bell, .pair, .pending]) fun t =>
    (t.loop e).map (fun y => (y.state, y.muteCount)) = some (.holdoff, l.muteCount + 1)) ∧
  (s.ce.eb.get e = some b → s.loop e = some l → ¬(returnIb s b l).any (lineSeen (lineView (828 + e) (returnIb s b l) x s)) →
   Runs (.lineDetectorFrame .egress e x) s (but [.host, .sys, .rf, .hk, .cl, .ps, .bell, .pair, .pending]) fun t => t.loop e = some { l with lineRun := 0 }) ∧
  (s.sys.role = .hub → s.lg.searchMask.testBit e → ibExists s e → lineSeen (lineView (700 + e) (some e) x s) e → 1 ≤ (s.lg.hubHold.get e).lineRun → ¬(s.lg.hubHold.get e).active →
   Runs (.lineDetectorFrame .ingress e x) s (but [.host, .sys, .rf, .hk, .cl, .ps, .bell, .pair, .pending]) fun t => (t.lg.hubHold.get e).active ∧ t.lg.oscTotal = s.lg.oscTotal + 1) ∧
  (s.ce.eb.get e = some b → s.loop e = some l → l.state = .holdoff → ¬penned s (ebUnit e) → Runs (.holdoffEnd .egress e) s (bands [.air, .fault]) fun t => ∃ y, t.loop e = some y ∧
    (y.state = .guarded ∨ y.state = .ladder)) ∧
  ((s.lg.hubHold.get e).active → Runs (.holdoffEnd .ingress e) s (bands [.air, .fault]) fun t => (t.lg.hubHold.get e).active = penned s (ibUnit e)) ∧
  ((s.canc i).state = .reAcquire → 1024 ≤ (s.canc i).fitCount → Runs (.reacquireFitComplete i) s (bands [.fault]) fun t => (t.canc i).state = (s.canc i).before) ∧
  ((s.canc i).restore → Runs (.cancellerSnapshotRestore i) s (bands [.air, .fault]) fun t => ¬(t.canc i).restore ∧ ¬(t.canc i).measured) ∧
  ((s.loop e).bind (fun y => y.lowSince) = some k → Runs (.marginLowTimeout e) s [.air, .fault] fun t => holding t 0x30 (ebUnit e) ∧ waited s t (k + tcOfMs 100)) ∧
  (s.ce.eb.get e = some b → s.loop e = some l → (l.state = .guarded ∨ l.state = .ladder) → ¬penned s (ebUnit e) → Runs (.beaconLossTimeout e) s [.air, .fault] fun t => holding t 0x33 (ebUnit e))

/-- Hub caps are received and applied at their instant; admissions are asked, granted and take effect at their frame. -/
def Obligations.CapsAndAdmissionsAreExchanged : Prop :=
 ∀ (s : State) (f : MarginCap) (e m p k : Nat) (l : Loop) (i : AirInstant) (c : Int),
  (s.sys.role ≠ .hub → f.member = ownMember s → s.loop f.eb = some l → Runs (.marginCapReceive f) s [.lg] fun t => t.loop f.eb = some { l with hubNext := some (f.at_, f.cap), hubAt := s.now }) ∧
  ((s.sys.role = .hub ∨ f.member ≠ ownMember s) → Still (.marginCapReceive f) s) ∧
  (s.loop e = some l → l.hubNext = some (i, c) → Runs (.marginCapApply e) s (bands [.air, .fault]) fun t => (t.loop e).map (fun x => (x.hubCap, x.hubGrant, x.hubNext)) = some (some c, some c, none)) ∧
  (activeHub s → portTowards s m = some p → (s.port p).queue.length < 256 → Runs (.admitReqReceive m) s [.fl, .dv, .drawn] fun t => ∃ h, (t.port p).queue =
    (s.port p).queue ++ [⟨h, .admitGrant (frameBoundaryAhead s 4)⟩] ∧ h.dest = m ∧ t.dv.joinFrame = some (frameBoundaryAhead s 4)) ∧
  (¬activeHub s → Still (.admitReqReceive m) s) ∧
  (s.lg.admitAsked → Runs (.admitGrantReceive k) s [.lg] fun t => t.lg = { s.lg with admitFrame := some k, admitAsked := false }) ∧
  (¬s.lg.admitAsked → Still (.admitGrantReceive k) s) ∧
  (s.lg.admitFrame = some k → Runs .admissionFrame s [.air, .fault, .ce, .lg, .np, .cl, .fl, .dv, .drawn] fun t =>
   t.fault.paddock = s.fault.paddock.filter (fun u => !(admittedUnits (advanceToAir ⟨k, 0⟩ s)).contains u))

/-- The control-engine commands complete: slots, banks, swaps, set-points, repetitive controllers, injections and
traces. -/
def Obligations.ControlCommandsConfigureSlots : Prop :=
 ∀ (r : HostRequest) (s : State),
  (Does 0x0701 .clSlotConfig r s [.fault, .ce, .cl] fun t => (r.u8 2 = 0 → slotOf t (r.u16 0) = {}) ∧ (∀ k, slotKindOf (r.u8 2) = some k → (slotOf t (r.u16 0)).kind = some k ∧
    (slotOf t (r.u16 0)).rate = r.u8 3 ∧ (slotOf t (r.u16 0)).target = r.u16 4 ∧ (slotOf t (r.u16 0)).setpoint = r.s32 8 ∧ (slotOf t (r.u16 0)).param = r.s32 12)) ∧
  (Does 0x0702 .clBankWrite r s [.cl] fun t => (if r.u8 2 = 0 then (slotOf t (r.u16 0)).bankA else (slotOf t (r.u16 0)).bankB) = some {
    kp := r.s32 4, ki := r.u32 8, kd := r.u32 12, tf := r.u32 16, kt := r.u32 20, uMin := r.s32 24, uMax := r.s32 28 }) ∧
  (Does 0x0703 .clBankSwap r s [.cl] fun t => ∀ n, n < 512 → slotOf t n = (if (r.uN 0 64).testBit n then { slotOf s n with swap := (slotOf s n).bankSel != (r.u8 64 == 1) } else slotOf s n)) ∧
  (Does 0x0704 .clSetpoint r s [.cl] fun t => (slotOf t (r.u16 0)).setpoint = r.s32 4 ∧ (r.u32 8 = 0 → (slotOf t (r.u16 0)).spRamp = none)) ∧
  (Does 0x0705 .clSlotControl r s [.fault, .cl] fun t => slotEnabled (slotOf t (r.u16 0)) = decide (r.u8 2 ≠ 0)) ∧
  (Does 0x0706 .clRepConfig r s [.cl] fun t => (t.rep (r.u8 0 - 8)).enabled = decide (r.u8 1 ≠ 0) ∧ (t.rep (r.u8 0 - 8)).pattern = r.u8 2 ∧ (t.rep (r.u8 0 - 8)).lGain = r.u16 4 ∧
   (t.rep (r.u8 0 - 8)).lambda = r.u16 6 ∧ (t.rep (r.u8 0 - 8)).limit = r.u16 8 ∧ (t.rep (r.u8 0 - 8)).stepMax = r.u16 10) ∧
  (Accepts specClInject r s → Runs (.clInject r) s [.host, .cl, .pair] fun t => (r.u8 3 = 0 → Answered 0x0707 r .ok t ∧
    ∀ j, (slotOf s (r.u16 0)).inj = some j → ((slotOf t (r.u16 0)).inj.bind (fun x => x.stop)).isSome) ∧ (r.u8 3 ≠ 0 → Answered 0x0707 r .accepted t ∧
    (slotOf t (r.u16 0)).inj.map (fun j => (j.shape, j.amp, j.count, j.started)) = some (r.u8 3, r.u32 4, r.u32 12, false))) ∧
  (Does 0x0708 .clTraceConfig r s [.cl] fun t => (t.cl.traces.get (r.u8 0)).mode = r.u8 1 ∧ (t.cl.traces.get (r.u8 0)).slot = r.u16 2 ∧
   (t.cl.traces.get (r.u8 0)).decimation = r.u16 4 ∧ (t.cl.traces.get (r.u8 0)).entries = []) ∧
  (Does 0x0709 .clTraceRead r s [] fun t => t.cl = s.cl ∧ (answerBytes r t).take 2 = le 2 (min (r.u16 4) ((s.cl.traces.get (r.u8 0)).entries.length - r.u16 2))) ∧
  (Does 0x070A .clPolicy r s [.cl] fun t => t.cl = { s.cl with
            plausTol := (r.u32 0 : Nat), plausCount := r.u16 4, satTime := r.u16 6, resume := r.u16 8 })

/-- Iterations, overruns, saturation, injections and the repetitive controllers' bins. -/
def Obligations.ControlSlotsIterate : Prop :=
 ∀ (s : State) (n k : Nat) (i : IterInput) (j : Injection) (d : PatternDef),
  (slotEnabled (slotOf s n) → slotTurn s n → Runs (.slotIteration n i) s [.air, .fault, .log, .rf, .ce, .lg, .np, .cl] fun t => (slotOf t n).iter = (slotOf s n).iter + 1 ∧
   (slotOf t n).lastAt = some (dueSample s.air (periodExp s (slotOf s n)) (slotOf s n)) ∧ ((slotOf s n).kind = some .gain → serviceCode s (actuated s (slotOf s n)) ≠ 0 → (slotOf t n).run = .hold)) ∧
  (¬slotEnabled (slotOf s n) → Still (.slotIteration n i) s ∧ Still (.iterationOverrun n) s) ∧
  (¬slotTurn s n → Still (.slotIteration n i) s) ∧
  (slotEnabled (slotOf s n) → Runs (.iterationOverrun n) s [.air, .fault, .cl] fun t => (slotOf t n).overruns = (slotOf s n).overruns + 1 ∧ t.cl.overruns = s.cl.overruns + 1 ∧
   (2 ≤ (slotOf s n).ovrRun → (slotOf t n).run = .hold ∧ (slotOf t n).reason = .overrun ∧ holding t 0x50 (slotUnit n))) ∧
  ((slotOf s n).reason = .overrun → s.cl.resume ≤ (slotOf s n).onTime → Runs (.overrunHoldEnd n) s [.fault, .cl] fun t => (slotOf t n).reason = .none ∧ ¬holding t 0x50 (slotUnit n)) ∧
  ((slotOf s n).limitAt = some k → Runs (.loopSaturatedTimeout n) s [.air, .fault] fun t => holding t 0x52 (slotUnit n) ∧ waited s t (k + s.cl.satTime * 196608000)) ∧
  ((slotOf s n).inj = some j → ¬j.started → Runs (.injectionStart n) s [.air, .cl] fun t => (slotOf t n).inj = some { j with started := true }) ∧
  ((slotOf s n).inj = some j → (j.count ≤ j.done ∨ j.stop ≠ none) → Runs (.injectionEnd n) s [.host, .cl] fun t => (slotOf t n).inj = none ∧ t.cl.injDone = s.cl.injDone + 1) ∧
  (repPattern s n = some d → (s.rep n).enabled → Runs (.repBinBoundary n) s [.air, .fault, .ce, .lg, .np, .cl] fun t => (t.rep n).bin = some (nextBin s.air d (s.rep n)).2 ∧
   (t.rep n).binAt = some (nextBin s.air d (s.rep n)).1) ∧
  ((s.rep n).clear → Runs (.repTableClear n) s [.air, .fault, .ce, .lg, .np, .cl] fun t => ¬(t.rep n).clear ∧ ∀ b, (t.rep n).table.get b = 0)

/-- The power-stage commands complete: cassette and comparator settings, enabling, calibration, policy and identity. -/
def Obligations.PowerStageCommandsConfigure : Prop :=
 ∀ (r : HostRequest) (s : State),
  (Does 0x0801 .paConfig r s [.ps] fun t => cas t (r.u8 0) = { cas s (r.u8 0) with
    mode := r.u8 1, pattern := r.u8 2, shunt := r.u32 4, vgMax := if r.u16 8 = 0xFFFF then none else some (r.u16 8), dswRamp := r.u16 10,
    idq := r.u32 12, tOffMin := r.u32 16, tripLimit := r.u16 20, tripHold := r.u32 24, sched := false, edgeAt := none }) ∧
  (Does 0x0802 .paTiming r s [.ps] fun t => cas t (r.u8 0) = { cas s (r.u8 0) with timingNext := some (six32 r.payload 4, six32 r.payload 28) }) ∧
  (Does 0x0803 .paBiasTable r s [.ps] fun t => ¬(cas t (r.u8 0)).biasUnset ∧ (cas t (r.u8 0)).code = [r.u16 2, r.u16 4, r.u16 6, r.u16 8, r.u16 10, r.u16 12]) ∧
  (Does 0x0804 .cmpConfig r s [.ps] fun t => t.cmp (4 * r.u8 0 + r.u8 1) = { s.cmp (4 * r.u8 0 + r.u8 1) with
    configured := true, bands := (List.range 6).map (thresholdsAt r.payload) }) ∧
  (Does 0x0805 .cmpMode r s [.ps] fun t => ∀ c, c < 40 → (r.u64 0).testBit c → (t.cmp c).mode = r.u8 8 ∧ (t.cmp c).trip ∧ ¬(t.cmp c).qualified) ∧
  (Accepts specPaEnable r s → Runs (.paEnable r) s [.host, .ps, .pair] fun t => Answered 0x0806 r .accepted t ∧ ∀ n, n < 8 → (r.u8 0).testBit n →
    (r.u8 1 = 1 → (cas t n).pa = .ready ∨ (cas t n).pa = .drainUp ∨ (cas t n).enabling ≠ none) ∧ (r.u8 1 = 0 → (cas t n).pa = .pinched ∨ (cas t n).pa = .draining)) ∧
  (Accepts specPaBiasCal r s → Runs (.paBiasCal r) s [.host, .ps, .pair] fun t => Answered 0x0807 r .accepted t ∧ (cas t (r.u8 0)).biasRun ≠ none) ∧
  (Does 0x0808 .casPolicy r s [.ps] fun t => t.ps = { s.ps with
            rating := r.u32 0, warnPct := r.u8 4, derate := r.u8 5 == 1, allowUncert := r.u8 6 == 1, vhvLo := r.u32 8, vhvHi := r.u32 12 }) ∧
  (Does 0x0809 .casIdentityRead r s [] fun t => t.ps = s.ps ∧ answerBytes r t = (cas s (r.u8 0)).record.bytes ++ lifeBytes (cas s (r.u8 0)).life)

/-- Cassettes pass through their PA states, gates follow their edges, comparators trip, clear and qualify, and the HV
link is lost. -/
def Obligations.CassettesRunAndTrip : Prop :=
 ∀ (s : State) (n us c k : Nat) (v : Int) (l : List Ticket),
  ((cas s n).pa = .drainUp → Runs (.drainRampEnd n v) s [.air, .host, .fault, .ps] fun t => (cas t n).pa = (if drainGood s n v then .ready else .draining)) ∧
  ((cas s n).pa = .draining → Runs (.drainingComplete n us) s [.air, .host, .fault, .log, .sys, .ce, .lg, .np, .ps] fun t => waited s t ((cas s n).drainAt + tcOfUs (10 + min us 10000)) ∧
   ((cas s n).lost → (cas t n).pa = .absent) ∧ (¬(cas s n).lost → (cas s n).enabling = none → (cas t n).pa = .pinched)) ∧
  ((cas s n).enabling = some (l, k) → (cas s n).pa = .pinched → Runs (.paEnableQualTimeout n) s [.air, .host, .ps] fun t => (cas t n).enabling = none ∧ waited s t (k + tcOfMs 100)) ∧
  (s.ps.link → Runs .hvLinkTimeout s [.host, .fault, .ps] fun t => ¬t.ps.link ∧ t.ps.linkLoss = s.ps.linkLoss + 1 ∧ ∀ m, m < 8 → ¬drainOn (cas t m)) ∧
  ((cas s n).mode = 2 → nextEdge s n true = some k → Runs (.gateOnEdge n) s [.air, .ps] fun t => (cas t n).sched) ∧
  ((cas s n).mode = 2 → nextEdge s n false = some k → Runs (.gateOffEdge n) s [.air, .ps] fun t => ¬(cas t n).sched) ∧
  ((cas s n).mode ≠ 2 → Still (.gateOnEdge n) s ∧ Still (.gateOffEdge n) s) ∧
  (c < 40 → (s.cmp c).qualified → ¬(s.cmp c).trip → cmpBeyond s c v → Runs (.comparatorTrip ⟨c, v⟩) s [.host, .fault, .hk, .ps] fun t => (t.cmp c).trip ∧ (t.cmp c).count = (s.cmp c).count + 1 ∧
   (t.cmp c).tripAt = s.now ∧ (opensDrain c → ∀ m ∈ cassettesOf c, ¬drainOn (cas t m))) ∧
  (c < 40 → (s.cmp c).qualified → (s.cmp c).trip → cmpSafe s c v → Runs (.comparatorTripClear ⟨c, v⟩) s [.fault, .ps] fun t => ¬(t.cmp c).trip ∧ (t.cmp c).leftAt = some s.now) ∧
  (c < 40 → ¬(s.cmp c).qualified → cmpSafe s c v → Runs (.comparatorQualify ⟨c, v⟩) s [.ps] fun t => (t.cmp c).qualified ∧ ¬(t.cmp c).trip) ∧
  (c < 32 → c % 4 ≠ 3 → (s.cmp c).trip → (s.cmp c).qualified → ¬(s.cmp c).raised → Runs (.tripHoldExpiry c) s [.air, .fault, .ps] fun t => (t.cmp c).raised ∧
    waited s t ((s.cmp c).tripAt + tcOfUs (cas s (c / 4)).tripHold) ∧ ((cas s (c / 4)).pa ≠ .absent → holding t (0x60 + c % 4) (cassetteUnit (c / 4)))) ∧
  (((cmpsOf n).filterMap (fun m => (s.cmp m).leftAt)).foldl max 0 = k + 1 → Runs (.tOffMinExpiry n) s [.air] fun t => waited s t (k + 1 + ((cas s n).tOffMin * 196608 + 99999) / 100000))

/-- Cassette polls, identification, bias calibration, stress minutes and life records. -/
def Obligations.CassettesAreIdentifiedAndAged : Prop :=
 ∀ (s : State) (n : Nat) (q : Option Nat) (i : IdentInput) (rec : CasRecord) (b : BiasInput) (run : BiasRun),
  (q = some (cas s n).record.serial → Still (.cassetteIdPoll n q) s) ∧
  (n < 8 → (cas s n).pa ≠ .absent → q ≠ some (cas s n).record.serial → Runs (.cassetteIdPoll n q) s [.host, .fault, .ce, .lg, .np, .ps] fun t =>
   ((cas s n).pa = .pinched → (cas t n).pa = .absent ∧ ¬(cas t n).derated) ∧ ((cas s n).pa ≠ .pinched → (cas t n).lost) ∧
   ∃ l x y, t.fault.latched = s.fault.latched ++ l ++ [.raise x, y] ∧ x.cls = 0x64 ∧ x.unit = cassetteUnit n) ∧
  (n < 8 → s.sys.ready → (cas s n).pa = .absent → recordOfBytes i.record = none → Runs (.cassetteIdentify n i) s [.host, .fault, .log, .ce, .lg, .np, .ps, .drawn] fun t => (cas t n).pa = .absent ∧
    RaisedOnce 0x64 (cassetteUnit n) s t) ∧
  (n < 8 → s.sys.ready → (cas s n).pa = .absent → recordOfBytes i.record = some rec → i.cert = none →
   (cas s n).enabling = none → Runs (.cassetteIdentify n i) s [.host, .fault, .log, .ce, .lg, .np, .ps, .drawn] fun t => (¬s.ps.allowUncert → (cas t n).pa = .absent) ∧
    (s.ps.allowUncert → s.sys.lifecycle = .provisioned → (cas t n).pa = .pinched ∧ (cas t n).uncertified ∧ (cas t n).record = rec)) ∧
  ((cas s n).biasRun = some run → Runs (.biasCalComplete n b) s [.host, .fault, .ps] fun t => (cas t n).biasRun = none ∧ (¬casSilent s n → (cas t n).code = (cas s n).code) ∧
   (casSilent s n → ¬casOpenedSince s n run.start → b.atZero ≤ (idqOf (cas s n) : Int) → (idqOf (cas s n) : Int) ≤ b.atMax → ¬(cas t n).biasUnset ∧ (cas t n).code = biasTable (cas s n).record.tempco
     (s.hk.sensors.get (casSensor n)).usedTemp (vgMaxOf (cas s n)) (s.hk.sensors.get (casSensor n)).usedBand (biasSearch (idqOf (cas s n) : Int) (b.steps.take 12) 0 (vgMaxOf (cas s n))))) ∧
  Runs .stressMinute s [.air, .host, .fault, .log, .ps] (fun t => ticked s t (tcOfS 60) ∧
   (n < 8 → (cas s n).pa ≠ .absent → (cas t n).life.minutes = (cas s n).life.minutes + flag (drainOn (cas s n)))) ∧
  Runs .lifeRecordWrite s [.air, .ps] (fun t => ticked s t (tcOfS 600) ∧ (n < 8 → (cas s n).pa ≠ .absent → (cas t n).life.seq = ((cas s n).life.seq + 1) % 4294967296 ∧
    (cas t n).lifeB = !(cas s n).lifeB))

/-- The housekeeping commands complete: slot map, urgent request, calibration point, test DAC, supply window and thermal
policy. -/
def Obligations.HousekeepingCommandsComplete : Prop :=
 ∀ (r : HostRequest) (s : State) (d : Nat),
  (Does 0x0901 .hkSlotMap r s [.hk] fun t => answerBytes r t = le 4 (s.hk.round + 1) ∧ ∃ m, t.hk = { s.hk with mapNext := some m } ∧ ∀ k, k < r.u8 1 → m.get (r.u8 0 + k) = r.u8 (4 + k)) ∧
  (Accepts specHkUrgent r s → Runs (.hkUrgent r) s [.host, .hk, .pair] fun t => StillRuns r t ∧ t.hk.urgentUsed = s.hk.urgentUsed + 1 ∧ t.hk.urgent.map (fun x => x.1) = some (r.u8 0)) ∧
  (Rejects specHkUrgent r s .eBusy d → Runs (.hkUrgent r) s [.host, .hk, .pair] fun t => Answered 0x0902 r .eBusy t ∧ t.hk.urgent = s.hk.urgent ∧
   t.hk.urgentDrop + t.hk.urgentCap = s.hk.urgentDrop + s.hk.urgentCap + 1) ∧
  (Accepts specHkCalPoint r s → Runs (.hkCalPoint r) s [.host, .hk, .pair] fun t => Answered 0x0903 r .accepted t ∧ t.hk.calRun.map (fun x => (x.channel, x.point, x.value, x.left)) =
    some (r.u8 0, r.u8 1, r.s32 4, if r.u8 1 = 2 then 0 else r.u16 2)) ∧
  (Does 0x0904 .hkTestDac r s [.hk] fun t => t.hk = { s.hk with dacHost := r.u8 0 == 1, dacCode := r.u16 2 }) ∧
  (Does 0x0905 .hkSupplyWindow r s [.hk] fun t => t.hk = { s.hk with windowNext := s.hk.windowNext ++ [(r.u8 0 - 46, r.s32 4, r.s32 8, r.u8 1)] }) ∧
  (Does 0x0906 .hkThermalPolicy r s [.hk] fun t => t.hk = { s.hk with policyNext := some (s.hk.round + 1, (r.u16 0 : Nat), (r.u16 2 : Nat), r.u16 4) })

/-- Slots and urgent slots are accumulated, rounds publish every record, calibrations end, records latch, clocks are
watched. -/
def Obligations.HousekeepingRoundsMeasure : Prop :=
 ∀ (s : State) (i : HkSlotInput) (l : List SensorInput) (c : Nat) (b : UrgentBy) (w : Bool) (x : CalRun) (f : List Nat),
  (hkPowered s → ¬s.hk.urgentRun → s.hk.slot < 127 → Runs (.hkSlotEnd i) s [.air, .fault, .hk] fun t => t.hk.slot = s.hk.slot + 1 ∧ waited s t (s.hk.slotStart + 36864) ∧ t.hk.slotStart = t.now ∧
   t.hk.accum.get (slotChannel s.hk s.hk.slot) = joinAccum (s.hk.accum.get (slotChannel s.hk s.hk.slot)) (slotSums s.hk i) ∧
   ∀ n, n ≠ slotChannel s.hk s.hk.slot → t.hk.accum.get n = s.hk.accum.get n) ∧
  (s.hk.urgentRun → Still (.hkSlotEnd i) s ∧ Still (.hkRoundEnd l) s) ∧
  (hkPowered s → s.hk.urgentRun → s.hk.urgent = some (c, b) → Runs (.urgentSlotEnd i) s [.air, .host, .hk, .ps, .bell] fun t =>
   t.hk.urgent = none ∧ t.hk.urgents = s.hk.urgents + 1 ∧ t.hk.accum = s.hk.accum ∧ t.hk.slot = s.hk.slot ∧ ¬t.hk.urgentRun) ∧
  (hkPowered s → ¬s.hk.urgentRun → s.hk.slot = 128 → Runs (.hkRoundEnd l) s [.fault, .rf, .ce, .lg, .np, .hk, .ps, .fl, .mem, .drawn] fun t =>
   t.hk.round = (s.hk.round + 1) % 4294967296 ∧ t.hk.lastRound = some s.hk.round ∧ t.hk.slot = 0 ∧ t.hk.urgentUsed = 0 ∧ t.hk.map = s.hk.mapNext.getD s.hk.map ∧ t.hk.mapNext = none ∧
   ∀ n, n < 85 → (t.hk.records.get n).acc = s.hk.accum.get n ∧ (t.hk.records.get n).round = s.hk.round ∧ (t.hk.accum.get n).count = 0) ∧
  (s.hk.slot ≠ 128 → Still (.hkRoundEnd l) s) ∧
  (s.hk.calRun = some x → x.left = 0 → Runs (.calPointComplete w) s [.host, .hk] fun t => t.hk.calRun = none ∧ (x.point = 0 → t.hk.zero.get x.channel = some (x.value, x.sum, x.count))) ∧
  (c ≤ 84 → Runs (.channelRecordLatch c) s [.host] fun t => t.host.chanShadow.get c = channelWords s c) ∧
  (hkPowered s → Runs (.clockMonitorCheck f) s [.fault, .hk] fun t => t.hk.clocks = failedClocks f ∧ (failedClocks f = 0 → ¬holding t 0x73 partUnit) ∧
   ((List.range 4).any (fun k => (failedClocks f).testBit k && !s.hk.clocks.testBit k) → ∃ y, t.fault.latched = s.fault.latched ++ [.raise y] ∧ y.cls = 0x73 ∧ holding t 0x73 partUnit))

/-- The flock commands complete: ports, flock configuration, joining, leaving, lanes, member queries and expulsion. -/
def Obligations.FlockCommandsComplete : Prop :=
 ∀ (r : HostRequest) (s : State) (x : MemberRec),
  (Does 0x0A01 .flPortConfig r s [.air, .fl, .dv, .drawn] fun t => (t.port (r.u8 0)).config = portConfigOf r.payload ∧ (t.port (r.u8 0)).peer = none ∧
   t.fl.storedPorts.get (r.u8 0) = some (portConfigOf r.payload) ∧ ∀ l ∈ configLanes (r.u8 0) (portConfigOf r.payload), (t.lane l).state ≠ .off) ∧
  (Does 0x0A02 .flFlockConfig r s [.air, .fl, .drawn] fun t => t.fl.config = flockConfigOf r.payload ∧ (s.sys.role ≠ .hub → r.u8 6 = 0 → s.fl.state = .joinWait → t.fl.state = .detached)) ∧
  (Accepts specFlJoin r s → Runs (.flJoin r) s [.host, .fl, .pair, .drawn] fun t => Answered 0x0A03 r .accepted t ∧
   t.fl.joinTickets = s.fl.joinTickets ++ [ticketOf (reqOf 0x0A03 r)] ∧ t.fl.rejoin = (r.u8 0 == 1)) ∧
  (Does 0x0A04 .flLeave r s [.fl, .drawn] fun t => answerBytes r t = le 4 (leaveAtFrame s (r.u32 0)) ∧ t.fl.state = .leaving ∧ t.fl.leave = some (leaveAtFrame s (r.u32 0), .command)) ∧
  (Does 0x0A05 .flLaneControl r s [.air, .fault, .fl, .dv, .drawn] fun t => (r.u8 1 = 0 → (t.lane (r.u8 0)).state = .signalWait) ∧ (r.u8 1 = 1 → laneHeld t (r.u8 0)) ∧
   (r.u8 1 = 2 → t.fault.pens = s.fault.pens.filter (fun y => !(y.unit == laneUnit (r.u8 0) && y.reason == .host))) ∧ (r.u8 1 = 3 → (t.lane (r.u8 0)).prbs = some (0, 0)) ∧
   (r.u8 1 = 4 → (t.lane (r.u8 0)).prbs = none ∧ answerBytes r t = le 8 (((s.lane (r.u8 0)).prbs).getD (0, 0)).1 ++ le 8 (((s.lane (r.u8 0)).prbs).getD (0, 0)).2)) ∧
  (Does 0x0A06 .flMemberQuery r s [] fun t => t.fl = s.fl ∧ (hubRecord s (r.u16 0) = none → answerBytes r t = List.replicate 24 0) ∧
   (hubRecord s (r.u16 0) = some x → answerBytes r t = le 8 x.serial.toNat ++ le 1 x.state.code ++ le 1 x.hops ++ le 2 x.parent ++ le 4 (place 8 0 x.role + place 8 8 x.power) ++ le 8 x.lastSeen)) ∧
  (Accepts specFlExpel r s → s.fl.members.get (r.u16 0) = some x → Runs (.flExpel r) s [.host, .fl, .pair, .drawn] fun t => Answered 0x0A07 r .ok t ∧ t.fl.blocked.head? = some (x.serial,
    if r.u32 4 = 0 then none else some (s.now + tcOfS (r.u32 4))))

/-- Lanes train, fail, wait and return; a port's distribution follows LANE_SET; HELLO and time-transfer frames are
taken. -/
def Obligations.LanesTrainServeAndFail : Prop :=
 ∀ (s : State) (l p k n m : Nat) (b : Bool) (w : LaneLoss) (h : Hello) (set : List Nat) (q : Int),
  ((s.lane l).state = .signalWait → (s.lane l).retrainAt = none → Runs (.signalDetect l) s [.fl] fun t => (t.lane l).state = .training ∧ (t.lane l).since = s.now ∧
   (t.lane l).trainings = (s.lane l).trainings + 1) ∧
  ((s.lane l).state ≠ .signalWait → Still (.signalDetect l) s) ∧
  (((s.lane l).state = .training ∨ (s.lane l).state = .aligning) → (Runs (.laneTrainTimeout l) s [.air, .fl] fun t => (t.lane l).state = .signalWait ∧ waited s t ((s.lane l).since + tcOfMs 50) ∧
    ((s.lane l).wasUp → (t.lane l).retrainAt = some (t.now + tcOfMs (min (2 * (s.lane l).wait) 10000)))) ∧ (¬(s.port (portOfLane s l)).mismatch → s.now ≤ (s.lane l).since + tcOfMs 50 →
    Runs (.laneUp l b) s [.fault, .fl, .dv, .drawn] fun t => (t.lane l).state = .up ∧ (t.lane l).wait = 100 ∧ (t.lane l).precoding = b ∧ ¬holding t 0x80 (laneUnit l) ∧
     ((s.lane l).wasUp → (t.lane l).qualLeft = s.fl.config.laneQual))) ∧
  ((s.lane l).state = .up → (w = .uncorrectable → 2 ≤ (s.lane l).badRun) → Runs (.laneDown l w) s [.air, .fault, .fl, .dv, .drawn] fun t => (t.lane l).state = .down ∧ (t.lane l).lastDown = s.now ∧
    (t.lane l).retrainAt = some (s.now + tcOfMs (s.lane l).wait) ∧ l ∉ (t.port (portOfLane s l)).lanes ∧ holding t 0x80 (laneUnit l)) ∧
  ((s.lane l).retrainAt = some k → Runs (.retrainBackoffExpiry l) s [.air, .fl] fun t => (t.lane l).retrainAt = none ∧ waited s t k ∧ ((s.lane l).state = .down → (t.lane l).state = .signalWait)) ∧
  (100 ≤ (s.lane l).serRun → Runs (.laneSerWarn l) s [.host, .fl] fun t => (t.lane l).serRun = 0) ∧
  ((s.lane l).state = .up → (s.lane l).wasUp → (s.lane l).qualLeft = 0 → ¬(s.lane l).offered → ¬laneHeld s l → l ∉ (s.port (portOfLane s l)).lanes →
   Runs (.laneQualComplete l) s [.fault, .fl, .dv] fun t => (t.lane l).offered ∧ laneUnit l ∉ t.fault.paddock) ∧
  Runs (.laneSet p m n) s [.fl, .dv] (fun t => (frameDistance s n = 0 → ∀ x, x ∈ (t.port p).lanes ↔ x ∈ (s.port p).lanes ∧
    ∃ j, j < (portLanes s p).length ∧ m.testBit j ∧ (portLanes s p).getD j 0 = x) ∧ (frameDistance s n ≠ 0 → (t.port p).laneNext.map (fun x => x.1) = some n ∧ (t.port p).lanes = (s.port p).lanes)) ∧
  ((s.port p).laneNext = some (n, set) → Runs (.laneSetApply p) s [.air, .fl] fun t => (t.port p).laneNext = none ∧ (t.port p).lanes = set.filter (fun x => (usableLanes s p).contains x)) ∧
  (s.sys.role ≠ .unset → Runs .portTrainingStart s [.air, .fl] fun t => waited s t (s.sys.lastReset + tcOfMs 5) ∧ (p < 12 → ((s.port p).config.function = .up ∨ (s.port p).config.function = .ring) →
    ∀ x ∈ portLanes s p, (t.lane x).state ≠ .off)) ∧
  (portTrained s p → Runs (.flitReceive p { good := false, content := .idle }) s (but [.pending]) fun t => (t.port p).flitsLost = ((s.port p).flitsLost + 1) % 4294967296) ∧
  (Still (.flitReceive p { content := .idle }) s) ∧
  (portTrained s p → Runs (.hello p h) s [.air, .fl, .drawn] fun t => (s.fl.config.flockId ≠ some h.flockId → (t.port p).mismatch ∧
    (t.port p).mismatches = (s.port p).mismatches + 1) ∧
   (s.fl.config.flockId = some h.flockId → ¬(t.port p).mismatch ∧ (t.port p).peer = some h)) ∧
  (portUp s p → (s.port p).queue.length < 256 → Runs (.ttReq p k) s [.fl, .drawn] fun t => ∃ x, nowSixteenths s ≤ x ∧ (t.port p).queue = (s.port p).queue ++
    [⟨{ ownHead s with ttl := 1 }, .ttResp (nowSixteenths s) x⟩]) ∧
  (portUp s p → (s.port p).t1 = some k → Runs (.ttResp p n m l q) s [.air, .fl] fun t => (t.port p).t1 = none ∧
   ((nowSixteenths s : Int) - k < 2 * tcPerMs * 16 → (t.port p).ttRun = (s.port p).ttRun + 1 ∧ (t.port p).ttLast = s.now) ∧ (2 * tcPerMs * 16 ≤ (nowSixteenths s : Int) - k → (t.port p).ttRun = 0))

/-- Members join, are admitted, refused, leave, are expelled, lost and re-homed. -/
def Obligations.MembersJoinLeaveAndAreLost : Prop :=
 ∀ (s : State) (p m n k f : Nat) (h : FrameHeader) (q : JoinReq) (a : JoinResp) (x : MemberRec) (why : LeaveCause) (st : StatusReport),
  (mayJoin s → (s.fl.state = .timeQual ∨ s.fl.state = .orphan) → Runs .joinReqSend s [.fl, .drawn] fun t => t.fl.state = .joinWait ∧ t.fl.sentAt = s.air.frame ∧ t.fl.attempts = s.fl.attempts + 1) ∧
  (¬mayJoin s → Still .joinReqSend s) ∧
  (s.fl.state = .joinWait → s.fl.grant = none → mayJoin s → Runs .joinRespTimeout s [.air, .fl, .drawn] fun t => t.fl.state = .joinWait ∧ t.fl.attempts = s.fl.attempts + 1) ∧
  (s.fl.state = .backoff → mayJoin s → Runs .backoffExpiry s [.air, .fl, .drawn] fun t => t.fl.state = .joinWait ∧ t.fl.attempts = s.fl.attempts + 1) ∧
  (a.serial = Config.serial → s.fl.state = .joinWait → Runs (.joinResp p h a) s [.host, .fl, .drawn] fun t =>
   (a.result = 0 → t.fl.grant = some (a.admitFrame, a.member.getD 0) ∧ t.fl.state = .joinWait) ∧ (a.result ≠ 0 → t.fl.naks = s.fl.naks + 1 ∧ t.fl.lastNak = a.result ∧
    (a.result < 4 ∨ s.fl.hardRun < 7 → t.fl.state = .backoff ∧ t.fl.backoffEnd = framesAhead s a.retryAfter) ∧ (4 ≤ a.result → 7 ≤ s.fl.hardRun → t.fl.state = .refused))) ∧
  (¬s.sys.ready → Still (.joinReq p h q) s) ∧
  (s.sys.ready → h.ttl ≠ 64 → s.air.acquired → Runs (.joinReq p h q) s [.log, .fl, .dv, .drawn] fun t =>
    (s.fl.config.admitLimit ≤ s.fl.admitNow → t.fl.nakTotal = s.fl.nakTotal + 1 ∧ t.fl.members = s.fl.members) ∧
    (s.fl.admitNow < s.fl.config.admitLimit → activeHub s → hubRefusal s q = none → assignId s q = some m →
     t.fl.admitTotal = s.fl.admitTotal + 1 ∧ (t.fl.members.get m).map (fun y => (y.serial, y.state, y.admitAt)) = some (q.serial, .granted, framesAhead s 4))) ∧
  (firstFrame s (admissionFrames s) = some f → Runs .joinAdmission s [.air, .host, .fault, .ce, .lg, .np, .fl, .dv, .drawn] fun t =>
   (Bank.find s.fl.members.cells n = some (some x) → x.state = .granted → x.admitAt = f → (t.fl.members.get n).map (fun y => y.state) = some .joined) ∧
   (s.fl.grant = some (f, m) → s.fl.state = .joinWait → t.fl.state = .joined ∧ t.fl.memberId = some m)) ∧
  (activeHub s → s.fl.members.get m = some x → Runs (.leave p h m f k) s [.fl, .dv, .drawn] fun t =>
   t.fl.members.get m = some { x with leaveAt := some (if 4 ≤ frameDistance s f then f else frameBoundaryAhead s 4) }) ∧
  (h.dest = ownMember s → s.fl.memberId.isSome → s.sys.role ≠ .hub → Runs (.leaveAck p h m f k) s [.fl, .drawn] (fun t => t.fl.leave.map (fun y => y.1) = some f ∧
    (s.fl.leave = none → t.fl.state = .leaving)) ∧ Runs (.expel p h) s [.fl, .drawn] fun t => t.fl.state = .leaving ∧ t.fl.leave = some (frameBoundaryAhead s 4, .expelled)) ∧
  (firstFrame s (leaveFrames s) = some f → Runs .leaveFrame s [.air, .fault, .ce, .lg, .np, .fl, .dv] fun t =>
   s.fl.leave = some (f, why) → t.fl.memberId = none ∧ t.fl.leave = none ∧ (why = .expelled → t.fl.state = .refused)) ∧
  (h.src = some m → Runs (.status p h st) s [.lg, .np, .fl, .dv, .drawn] fun t => t.fl.below.get m = some (p, st.parent, s.now) ∧ (activeHub s → s.fl.members.get m = some x →
    (t.fl.members.get m).map (fun y => (y.lastSeen, y.parent, y.hops)) = some (s.now, st.parent, st.hops))) ∧
  (activeHub s → Runs (.lost p h m k) s [.fault, .fl, .dv, .drawn] fun t => t.fl.lostCount = s.fl.lostCount + 1 ∧ (Bank.find s.fl.members.cells m = some (some x) → x.state = .joined →
    (t.fl.members.get m).map (fun y => y.state) = some .heldLost)) ∧
  (Bank.find s.fl.below.cells m = some (some (p, ownMember s, k)) → Runs (.memberTimeout m) s [.air, .fault, .fl, .dv, .drawn] fun t => waited s t (childDeadline s p k) ∧ t.fl.below.get m = none) ∧
  (s.fl.members.get m = some x → (x.state = .heldLost ∨ x.state = .heldLeft) → Runs (.idHoldExpiry m) s [.air, .fl] fun t => t.fl.members.get m = none ∧ waited s t x.holdEnd) ∧
  (s.fl.primary = some p → h.src.isSome → h.src = (s.port p).peer.bind (fun y => y.member) → Runs (.pathDown p h) s [.air, .fl, .drawn] fun t => t.fl.primary ≠ some p) ∧
  (activeHub s → Runs (.rehome p h m n k) s [.fl, .dv, .drawn] fun t => t.fl.below.get m = some (p, n, s.now) ∧
   (s.fl.members.get m = some x → (t.fl.members.get m).map (fun y => (y.parent, y.hops)) = some (n, k))) ∧
  (s.fl.state = .rehoming → Runs .rehomeWaitExpiry s [.air, .fl] fun t => t.fl.state = .orphan ∧ t.fl.orphans = s.fl.orphans + 1)

/-- The Drover commands complete: intents, policy, re-placement, flow queries and flow control. -/
def Obligations.DroverCommandsComplete : Prop :=
 ∀ (r : HostRequest) (s : State),
  (Does 0x0B01 .dvIntentSet r s [.dv] fun t => t.dv = { s.dv with intents := s.dv.intents.set (r.u16 0) (some (intentOf r.payload)), trigger := true } ∧
   answerBytes r t = le 4 (intentOf r.payload).flow ++ le 4 (nextF s)) ∧
  (Does 0x0B02 .dvIntentClear r s [.dv] fun t => t.dv = { s.dv with intents := s.dv.intents.set (r.u16 0) none, trigger := true } ∧ answerBytes r t = le 4 (nextF s)) ∧
  (Does 0x0B03 .dvPolicy r s [.dv] fun t => t.dv.auto = (r.u8 0 == 0) ∧ t.dv.planLead = r.u8 1 ∧ t.dv.split = (r.u8 2 == 1) ∧
   t.dv.fillLimit = r.u8 3 ∧ t.dv.margin = r.u32 8 ∧ t.dv.qualFrames = r.u32 16 ∧ (policyTarget s r.payload = s.dv.targetTc → t.dv.dTFrame = s.dv.dTFrame ∧
    answerBytes r t = le 4 s.dv.targetTc ++ le 4 0) ∧ (policyTarget s r.payload ≠ s.dv.targetTc → t.dv.trigger ∧ t.dv.dTFrame.map (fun x => x.2) = some (policyTarget s r.payload))) ∧
  (Does 0x0B04 .dvReplace r s [.dv] fun t => t.dv = { s.dv with full := s.dv.full || r.u8 0 == 1, trigger := true } ∧ answerBytes r t = le 4 (nextF s)) ∧
  (Does 0x0B05 .dvFlowQuery r s [] fun t => t.dv = s.dv ∧ answerBytes r t = descriptorBytes s (r.u32 0)) ∧
  (Does 0x0B06 .dvFlowControl r s [.fault, .ce, .lg, .np, .dv] fun t => (r.u8 4 = 0 → penned t (flowUnit (r.u32 0))) ∧ (r.u8 4 = 1 → t.fault.pens = s.fault.pens.filter (fun y =>
    !(y.unit == flowUnit (r.u32 0) && y.reason == .host))) ∧ (r.u8 4 = 2 → r.u32 0 ∈ t.dv.pennedAll ∧ t.dv.trigger) ∧ (r.u8 4 = 3 → r.u32 0 ∉ t.dv.pennedAll ∧ t.dv.trigger))

/-- Plans are computed, held, acknowledged, cancelled, applied and drained; deadlines close timestamps; reports reach
the hub. -/
def Obligations.PlansAreIssuedHeldAndApplied : Prop :=
 ∀ (s : State) (p m n k f : Nat) (h : FrameHeader) (l : List PlanEntry) (x : HeldPlan) (y : IssuedPlan) (e : PlanEntry)
  (b : List Binding) (i : AirInstant) (ds : List (Nat × AirInstant)) (d : Descriptor) (q : List (Nat × Nat × Nat)),
  (activeHub s → s.dv.trigger → s.dv.issued.length < 8 → Runs .placementCompute s [.air, .host, .fl, .dv, .drawn] fun t =>
   t.dv.seq = s.dv.seq + 1 ∧ ¬t.dv.trigger ∧ t.dv.issued.length = s.dv.issued.length + 1) ∧
  ((¬s.dv.trigger ∨ 8 ≤ s.dv.issued.length) → Still .placementCompute s) ∧
  (h.dest = ownMember s → s.dv.held.find? (fun z => z.seq == n) = none → Runs (.plan p h n f k true l) s [.fault, .fl, .dv, .drawn] (fun t => t.dv.held.filter (fun z => z.seq == n) =
    [⟨n, f, k, (admitEntries s l).1, true, (admitEntries s l).2.1⟩]) ∧
   Runs (.plan p h n f k false l) s [.fault, .fl, .dv, .drawn] fun t => t.dv.held.filter (fun z => z.seq == n) = [⟨n, f, k, l, false, 0⟩]) ∧
  (activeHub s → h.src = some m → Runs (.planAck p h n k) s [.host, .fault, .fl, .dv, .drawn] fun t => ∀ z ∈ t.dv.issued, z.seq = n → m ∉ z.waiting) ∧
  Runs (.planCancel p h n) s [.fl, .dv, .drawn] (fun t => t.dv.held = s.dv.held.filter (fun z => decide (z.seq < n))) ∧
  (s.dv.issued.find? (fun z => !z.waiting.isEmpty) = some y → Runs .planAckTimeout s [.air, .fl, .dv, .drawn] fun t => t.dv.trigger ∧
   t.dv.issued = s.dv.issued.filter (fun z => decide (z.seq < y.seq)) ∧ t.dv.held = s.dv.held.filter (fun z => decide (z.seq < y.seq))) ∧
  (nextPlan s = some x → Runs .descriptorLoad s [.air, .dv] (fun t => e ∈ x.entries → (placementOf e).kind ≠ 0 → (t.desc (entryFlow e)).cached) ∧
   Runs .planApply s [.air, .fault, .ce, .lg, .np, .dv] fun t => t.dv.lastSeq = x.seq ∧ t.dv.lastFrame = x.frame ∧ t.dv.held = s.dv.held.filter (fun z => z.seq != x.seq) ∧
    t.dv.drains = s.dv.drains ++ [(x.seq, ⟨x.frame, max x.dT s.dv.targetTc⟩)] ∧ (x.entries = [e] → (t.desc (entryFlow e)).place = placementOf e ∧ (t.desc (entryFlow e)).plan = x.seq)) ∧
  (s.dv.drains = (n, i) :: ds → Runs .planDrainEnd s [.air, .dv] fun t => t.dv.drains = ds ∧ (Bank.find s.dv.desc.cells f = some d → d.plan = n → (t.desc f).old = none)) ∧
  (s.dv.targetNext = some (f, n) → Runs .targetDelayApply s [.air, .fault, .ce, .lg, .np, .dv] fun t => t.dv.targetTc = n ∧ t.dv.targetNext = none) ∧
  ((placeFor s f i).kind = 2 → (placeFor s f i).sums → Runs (.sumDeadline f i.frame i.offset) s [.air, .fault, .ce, .lg, .np, .fl, .dv, .mem, .wire, .drawn] fun t =>
   (t.desc f).done = some i ∧ (t.desc f).blocks = (s.desc f).blocks + 1) ∧
  ((placeFor s f i).consumer → ¬(placeFor s f i).sums → Runs (.consumeDeadline f i) s [.air, .fault, .ce, .lg, .np, .dv, .mem] fun t =>
   (t.desc f).done = some i ∧ ((s.desc f).buffer.find? (fun z => z.2.at_ == i) = none → (t.desc f).late = (s.desc f).late + 1 ∧ t.dv.late = s.dv.late + 1)) ∧
  (¬(placeFor s f i).consumer → ¬(placeFor s f i).sums → Still (.consumeDeadline f i) s ∧ Still (.sumDeadline f i.frame i.offset) s) ∧
  (inPaddock s (flowUnit f) → admissionWanted s → s.lg.admitFrame = none → ¬s.lg.admitAsked → (s.fl.memberId = none ∨ activeHub s) → Runs (.flowQualComplete f) s [.lg, .fl, .dv, .drawn] fun t =>
   t.lg.admitFrame = some (frameBoundaryAhead s (if s.fl.memberId.isNone then 2 else 4))) ∧
  (activeHub s → h.src = some m → Runs (.bindStatus p h b) s [.fl, .dv, .drawn] (fun t => t.dv.bindings.get m = mergeBindings (s.dv.bindings.get m) b ∧ t.dv.trigger) ∧
   Runs (.flowReport p h q) s [.fl, .dv, .drawn] fun t => ∀ z ∈ q, z.2.2 ≠ 0 → (m, z.1, s.air.frame) ∈ t.dv.dropSeen)

/-- The capture and archive commands complete: arming, triggers, slot control, the archive's configuration, operations
and restores. -/
def Obligations.CaptureAndArchiveCommandsComplete : Prop :=
 ∀ (r : HostRequest) (s : State),
  (Accepts specCapArm r s → Runs (.capArm r) s [.host, .mem, .pair] fun t => Answered 0x0C01 r .accepted t ∧ (t.capture (r.u8 0)).info = (armedSlot s r.payload).info ∧
   (t.capture (r.u8 0)).triggers = r.u8 2 ∧ (t.capture (r.u8 0)).extents = (freeExtents s.mem).take (ringExtents (armedSlot s r.payload).info) ∧
   ((s.mem.stack1 ∨ ∀ e ∈ (t.capture (r.u8 0)).extents, e < 384) → (t.capture (r.u8 0)).state = .armed ∧ (t.capture (r.u8 0)).armedAt = s.now) ∧
   (¬s.mem.stack1 → (∃ e ∈ (t.capture (r.u8 0)).extents, 384 ≤ e) → (t.capture (r.u8 0)).state = .free ∧ t.mem.powering ≠ none)) ∧
  (Does 0x0C02 .capTrigger r s [.mem] fun t => ∀ k, k < 16 → (r.u16 0).testBit k → (s.capture k).state = .armed → (s.capture k).triggers.testBit 0 →
    (t.capture k).state = .triggered ∧ (t.capture k).info.trigMono = s.now) ∧
  (Does 0x0C03 .capControl r s [.log, .mem, .drawn] fun t => ((r.u8 1 = 0 ∨ r.u8 1 = 2) → t.capture (r.u8 0) = {}) ∧ (r.u8 1 = 1 → (t.capture (r.u8 0)).info.stoppedEarly ∧
    ((t.capture (r.u8 0)).state = .complete ∨ (t.capture (r.u8 0)).state = .draining)) ∧ (r.u8 1 = 3 → (t.capture (r.u8 0)).drain)) ∧
  (Does 0x0C10 .arConfig r s [.fault, .log, .mem] fun t => t.mem.enable = (r.u8 0 == 1) ∧ t.mem.overwrite = (r.u8 1 == 1) ∧ t.mem.limit = r.u16 2 ∧
   (r.u8 0 = 0 → ¬t.mem.mounted ∧ t.mem.draining = none ∧ ¬holding t 0x91 archiveUnit)) ∧
  (Accepts specArControl r s → Runs (.arControl r) s [.host, .mem, .pair] fun t => Answered 0x0C11 r .accepted t ∧
   t.mem = { s.mem with ops := s.mem.ops ++ [⟨r.u8 0, r.u32 4, ticketOf (reqOf 0x0C11 r)⟩] }) ∧
  (Accepts specArRestore r s → Runs (.arRestore r) s [.host, .mem, .pair] fun t => Answered 0x0C12 r .accepted t ∧ t.mem.restores = s.mem.restores ++ [(r.u32 0, r.u8 4, ticketOf (reqOf 0x0C12 r))] ∧
   (t.capture (r.u8 4)).extents = (freeExtents s.mem).take (restoreExtents s.mem (r.u32 0))) ∧
  (Does 0x0C20 .memRetireClear r s [.mem] fun t => t.mem = { s.mem with retiredStored := [] })

/-- Captures trigger, stop and drain; stack 1 powers up and down; memory errors retire extents; archive operations end
or fail. -/
def Obligations.CapturesRecordDrainAndLoseMemory : Prop :=
 ∀ (s : State) (k e f n start : Nat) (segs : List Nat) (o : ArchiveOp) (ops : List ArchiveOp) (d : ArchiveDevice)
  (idx : List ArchiveEntry) (tk : Ticket) (rest : List (Nat × Nat × Ticket)) (why : ArchiveFail) (u v : Option Nat)
  (c : CapSlot) (ch : Nat × Nat),
  (k < 16 → (s.capture k).state = .armed → (s.capture k).triggers.testBit 1 → Runs (.captureAtInstant k) s [.air, .mem] fun t => (t.capture k).state = .triggered ∧
    (t.capture k).info.trigMono = t.now) ∧
  (k < 16 → (s.capture k).state = .triggered → Runs (.captureStop k) s [.air, .host, .log, .mem, .drawn] fun t => ((t.capture k).state = .complete ∨ (t.capture k).state = .draining) ∧
   ¬(t.capture k).info.stoppedEarly ∧ waited s t (s.capture k).stopAt) ∧
  (s.mem.draining = some (k, start, segs) → Runs .drainComplete s [.air, .host, .log, .mem] fun t => (t.capture k).state = .archived ∧ t.mem.seq = s.mem.seq + segs.length ∧
   waited s t (start + drainTime s.mem (s.capture k).info)) ∧
  (s.mem.powering = some n → Runs .stackPowerUpComplete s [.host, .mem] fun t => t.mem.powering = none ∧ t.mem.stack1 ∧
   (k < 16 → (s.capture k).arming ≠ none → (t.capture k).state = .armed ∧ (t.capture k).arming = none)) ∧
  (s.mem.stack1 → ¬stack1Used s.mem → Runs .stackPowerDown s [.air, .mem] fun t => ¬t.mem.stack1 ∧ waited s t (s.mem.emptyFrom + tcOfS 10)) ∧
  (e < 768 → stackPowered s.mem e → Runs (.hbmCorrectedError e) s [.fault, .mem] (fun t => t.mem.corrected.get (stackOf e) = satInc 32 (s.mem.corrected.get (stackOf e)) ∧
    (15 ≤ ((s.mem.extents.get e).errors.filter (fun x => decide (s.now < x + tcOfS 86400))).length → e ∈ t.mem.retired)) ∧
   Runs (.patrolScrub [e]) s [.fault, .mem] (fun t => exec (.hbmCorrectedError e) s = .next t) ∧
   Runs (.hbmUncorrectable e u v ch) s [.fault, .lg, .dv, .mem] (fun t => e ∈ t.mem.retired ∧ e ∈ t.mem.retiredStored ∨ e ∈ s.mem.retired) ∧
   (regionAt s.mem e = .capture → Bank.find s.mem.slots.cells k = some c → c.extents.contains e → Runs (.hbmUncorrectable e u v ch) s [.fault, .lg, .dv, .mem] fun t => (t.capture k).info.corrupt ∧
     (t.capture k).info.zeroed = c.info.zeroed ++ [ch])) ∧
  (¬stackPowered s.mem e → Still (.hbmCorrectedError e) s ∧ Still (.hbmUncorrectable e u v ch) s) ∧
  (s.mem.remapDue = [e] → (freeExtents s.mem).head? = some f → Runs .extentRemap s [.air, .mem] fun t => (e, f) ∈ t.mem.remap ∧ t.mem.remapDue = [] ∧ ¬t.mem.pendingRetire) ∧
  (s.mem.ops = o :: ops → o.action = 0 → namespaceOk d → mountIndex d = some idx → Runs (.arControlComplete d) s [.host, .fault, .log, .mem] fun t => t.mem.mounted ∧ t.mem.ops = ops ∧
    t.mem.segments = namespaceSegments d.bytes) ∧
  (s.mem.ops = o :: ops → o.action = 1 → Runs (.arControlComplete d) s [.host, .fault, .log, .mem] fun t => ¬t.mem.mounted ∧ t.mem.ops = ops) ∧
  (s.mem.ops = o :: ops → o.action = 4 → Runs (.arControlComplete d) s [.host, .fault, .log, .mem] fun t => ∀ x ∈ t.mem.index, x.serial = o.serial → x.keep) ∧
  (s.mem.restores = (n, k, tk) :: rest → ((s.capture k).extents.all (fun x => stackPowered s.mem x)) →
   Runs (.restoreComplete []) s [.host, .fault, .mem] fun t => t.mem.restores = rest ∧ (t.capture k).state = .restored ∧ (t.capture k).info.serial = n) ∧
  (s.mem.enable → Runs (.archiveFault why) s [.host, .fault, .mem] fun t => ¬t.mem.mounted ∧ t.mem.ops = [] ∧ t.mem.restores = [] ∧ t.mem.draining = none ∧ holding t 0x91 archiveUnit)

/-- The Bell commands complete: configuration, enabling, keeper keys and chain traffic. -/
def Obligations.BellCommandsComplete : Prop :=
 ∀ (r : HostRequest) (s : State),
  (Does 0x0D01 .bellConfig r s [.bell] fun t => t.bell = { s.bell with config := bellConfigOf r.payload, configured := true }) ∧
  (Accepts specBellEnable r s → r.u8 0 = 1 → s.bell.rx = .off → Runs (.bellEnable r) s [.host, .rf, .bell, .pair] fun t =>
   Answered 0x0D02 r .accepted t ∧ t.bell.enabled ∧ t.bell.rx = .calibrating ∧ t.rf.bellCal ∧ t.bell.enabling = [ticketOf (reqOf 0x0D02 r)]) ∧
  (Accepts specBellEnable r s → r.u8 0 = 0 → Runs (.bellEnable r) s [.host, .rf, .bell, .pair] fun t => (s.bell.sending = none → Answered 0x0D02 r .ok t ∧ ¬t.bell.enabled ∧ t.bell.rx = .off) ∧
   (s.bell.sending ≠ none → StillRuns r t ∧ t.bell.queue = [] ∧ t.bell.disabling = some (ticketOf (reqOf 0x0D02 r)))) ∧
  (Does 0x0D03 .keeperKey r s [.bell] fun t => (r.u8 2 = 0 → t.bell.keys = s.bell.keys.filter (fun k => k.id != r.u16 0)) ∧ (r.u8 2 = 1 → (∀ x ∈ t.bell.locked, x.1 ≠ r.u16 0) ∧
    (t.bell.keys.find? (fun k => k.id == r.u16 0)).map (fun k => (k.role, k.key, k.counter)) = some (roleOfCode (r.u8 3), bytesAt r.payload 4 32, 0))) ∧
  (Does 0x0D04 .bellChainConfig r s [.bell] fun t => t.bell = { s.bell with chain := {
    relay := r.u8 0 == 1, twoThirds := r.u8 1 == 1, helloInt := r.u16 2, statusInt := r.u16 4, retries := r.u8 6 } })

/-- Syncs, headers and payloads are received; keeper requests are authenticated; chain packets are handled. -/
def Obligations.BellLinkReceives : Prop :=
 ∀ (s : State) (x : SyncInput) (hdr crc n k : Nat) (r : Reception) (h : BellHeader) (body : BellBody) (a : BellArrival)
  (ok : Bool) (p : List Byte) (key : KeeperKey) (q : ChainPacket) (y : Nat × Nat),
  (syncDetected s x → s.bell.rx = .search → Runs (.syncDetect x) s [.bell] fun t => t.bell.rx = .header ∧ t.bell.syncs = s.bell.syncs + 1 ∧ t.bell.reception = some (receptionOf s x) ∧
   t.bell.agcFrozen) ∧
  (¬syncDetected s x → Still (.syncDetect x) s) ∧
  (s.bell.rx = .header → s.bell.reception = some r → Runs (.headerComplete hdr crc) s [.air, .bell] fun t => waited s t (r.at_ + tcOfUs (headerUs r.sync.rate)) ∧
   (crc = (crc16 (le 4 hdr)) → headerOf hdr = some h → headerFits r.sync.keeper h → t.bell.rx = .payload ∧ t.bell.reception = some { r with header := some h }) ∧
   (crc ≠ crc16 (le 4 hdr) → t.bell.rx = .search ∧ t.bell.reception = none ∧ t.bell.hdrFail = s.bell.hdrFail + 1)) ∧
  ((s.bell.rx = .header ∨ s.bell.rx = .payload) → s.bell.agcFrozen → 4 < n → Runs (.clipCollision n) s [.bell] fun t => t.bell.rx = .search ∧ t.bell.collided = s.bell.collided + 1) ∧
  (n ≤ 4 → Still (.clipCollision n) s) ∧
  (s.bell.rx = .payload → s.bell.reception = some r → r.header = some h → Runs (.payloadComplete body) s [.air, .bell] fun t => t.bell.rx = .search ∧ (bodyOk h body → t.bell.ok = s.bell.ok + 1 ∧
    t.bell.arrivals = s.bell.arrivals ++ [{ header := h, level := r.sync.level, rate := r.sync.rate, end_ := t.now, body }]) ∧
   (¬bodyOk h body → t.bell.payFail = s.bell.payFail + 1 ∧ t.bell.arrivals = s.bell.arrivals)) ∧
  (s.bell.arrivals.find? (fun z => z.header.kind != 2) = some a → a.body = .keeper ok p crc → a.header.kind = 0 →
   keeperTarget p → s.bell.locked.any (fun z => z.1 == u16 p 0) = false → Runs .keeperRequest s (but [.wire, .pending]) fun t =>
   (s.bell.keys.find? (fun z => z.id == u16 p 0) = none → t.bell.authFail = (s.bell.authFail + 1) % 4294967296 ∧ t.bell.keys = s.bell.keys ∧ t.bell.queue = s.bell.queue) ∧
   (s.bell.keys.find? (fun z => z.id == u16 p 0) = some key → keeperFault s a.header p = none → u8 p 10 ≤ 2 → (t.bell.keys.find? (fun z => z.id == u16 p 0)).map (fun z => z.counter) = some (u32 p 2) ∧
    t.bell.authFail = s.bell.authFail)) ∧
  (s.bell.arrivals.find? (fun z => z.header.kind == 2) = some a → a.body = .chain ok q → chainOn s → q.dst = none →
   q.kind = 0 → Runs .chainPacketReceive s [.lg, .np, .fl, .dv, .bell, .drawn] fun t => t.bell.arrivals = s.bell.arrivals.erase a ∧
    ({ member := q.src, hops := q.hops, level := a.level, heard := a.end_ } : Neighbour) ∈ t.bell.neighbours) ∧
  (s.bell.locked.find? (fun z => z.1 == k) = some y → Runs (.keeperLockoutExpiry k) s [.air, .bell] fun t => t.bell.locked = s.bell.locked.filter (fun z => z.1 != k) ∧
   (s.power ≠ .dormant → waited s t y.2))

/-- Packets start, wait for a clear channel, end and expire; SYN.BELL calibrates and locks; chain timers run. -/
def Obligations.BellLinkTransmits : Prop :=
 ∀ (s : State) (level : Int) (x : BellTx) (k e a : Nat) (b : Bool) (n : Neighbour),
  (txFree s → nextToSend s = some x → Runs (.bellTxStart level) s [.bell, .drawn] fun t => (isResponse x → t.bell.rx = .transmit ∧ t.bell.sending.map (fun z => z.1) = some x) ∧
   (¬isResponse x → x.ccaUntil = none → level < s.bell.config.ccaLevel → t.bell.rx = .transmit ∧ t.bell.sending.map (fun z => z.1) = some x) ∧
   (¬isResponse x → x.ccaUntil = none → s.bell.config.ccaLevel ≤ level → x.attempts < 7 → t.bell.sending = none ∧ t.bell.ccaDefer = s.bell.ccaDefer + 1)) ∧
  (¬txFree s → Still (.bellTxStart level) s) ∧
  (s.bell.queue.find? (fun z => !isResponse z) = some x → x.ccaUntil = some k → Runs (.ccaRetry level) s [.air, .bell, .drawn] fun t => waited s t k ∧
   (txFree s → maySend s true → level < s.bell.config.ccaLevel → t.bell.rx = .transmit)) ∧
  (s.bell.sending = some (x, a, e) → Runs (.bellTxEnd b) s [.air, .host, .fault, .rf, .bell] (fun t => t.bell.sending = none ∧ waited s t (e + tcOfUs 20) ∧ t.bell.packets = s.bell.packets + 1 ∧
    (¬b → ∃ y z, t.fault.latched = s.fault.latched ++ [.raise y, z] ∧ y.cls = 0xA0)) ∧
   Runs .bellTxWatchdog s [.air, .host, .fault, .rf, .bell] fun t => t.bell.sending = none ∧ waited s t (a + tcOfMs 100) ∧ ∃ y z, t.fault.latched = s.fault.latched ++ [.raise y, z] ∧ y.cls = 0xA0) ∧
  (s.bell.queue.find? (fun z => isResponse z && z.waiting.isNone) = some x → Runs .keeperResponseExpiry s [.air, .bell] fun t =>
   t.bell.dropped = s.bell.dropped + 1 ∧ waited s t (x.start + tcOfMs 10) ∧ ∀ z ∈ t.bell.queue, z.header.seq ≠ x.header.seq) ∧
  (nextDue s = some (x, k) → Runs .keeperResponseDue s [.air, .bell] fun t => waited s t k ∧ (x.waiting = none → t.bell.queue = s.bell.queue)) ∧
  (s.bell.rx = .search → s.bell.queue = [] → bellCalDue s → Runs .synBellCalStart s [.rf, .bell] fun t => t.bell.rx = .calibrating ∧ t.rf.bellCal ∧ ¬t.rf.bellLocked) ∧
  (s.bell.rx ≠ .search → Still .synBellCalStart s) ∧
  (s.rf.bellCal → Runs (.synBellLock true) s [.host, .fault, .rf, .bell] (fun t => t.bell.rx = .search ∧ t.rf.bellLocked ∧ ¬t.rf.bellCal ∧ t.bell.enabling = []) ∧
   Runs (.synBellLock false) s [.host, .fault, .rf, .bell] fun t => t.rf.bellRuns = [] ∧ ∃ y z, t.fault.latched = s.fault.latched ++ [.raise y, z] ∧ y.cls = 0xA0) ∧
  (s.bell.resumeAt = some k → Runs .bellTxResume s [.air, .bell] fun t => ¬t.bell.suspended ∧ t.bell.resumeAt = none ∧ waited s t k) ∧
  (chainOn s → Runs .chainHelloTimer s [.air, .bell, .drawn] (fun t => waited s t s.bell.helloAt ∧ t.bell.helloAt = t.now + tcOfMs s.bell.chain.helloInt) ∧
   Runs .chainStatusTimer s [.air, .bell, .drawn] fun t => waited s t s.bell.statusAt ∧ t.bell.statusAt = t.now + tcOfMs s.bell.chain.statusInt) ∧
  (¬chainOn s → Still .chainHelloTimer s ∧ Still .chainStatusTimer s) ∧
  (s.bell.neighbours.find? (fun z => z.member == k) = some n → Runs (.neighbourExpiry k) s [.air, .bell] fun t => t.bell.neighbours = s.bell.neighbours.filter (fun z => z.member != k) ∧
   waited s t (n.heard + 3 * tcOfMs s.bell.chain.helloInt)) ∧
  (s.bell.awaiting = some (x, k) → Runs .chainAckTimeout s [.air, .bell] fun t => t.bell.awaiting = none ∧ waited s t k ∧ (x.resends < s.bell.chain.retries → s.bell.queue.length < 16 →
    t.bell.queue.length = s.bell.queue.length + 1))

/-- FAULT_CLASS_CONFIG sets severity, ceiling and clear policy of a class; entries stay, and no severity is below the
floor (R373). -/
def Obligations.ClassConfigTouchesOnlyLaterRaises : Prop :=
 ∀ (r : HostRequest) (s : State), Does 0x0E01 .faultClassConfig r s [.fault] (fun t => t.fault = { s.fault with classes := s.fault.classes.set (r.u8 0) (some ⟨r.u8 1, r.u8 2, r.u8 3 == 1⟩) } ∧
   classConfig t.fault (r.u8 0) = ⟨r.u8 1, r.u8 2, r.u8 3 == 1⟩ ∧ (∀ c, c ≠ r.u8 0 → classConfig t.fault c = classConfig s.fault c) ∧ (∀ row, classRow (r.u8 0) = some row → row.floor ≤ r.u8 1) ∧
   ∀ x : Raise, x.cls = r.u8 0 → x.fixed = none → entryOf s.fault x.cls x.unit = none → raiseSeverity t.fault x = r.u8 1)

/-- The fault commands complete: policy, acknowledgement, pens, releases, first fault, injection and the table. -/
def Obligations.FaultCommandsComplete : Prop :=
 ∀ (r : HostRequest) (s : State) (u : UnitId),
  (Does 0x0E02 .faultPolicy r s [.fault] fun t => t.fault.faultNLevel = r.u8 0 ∧ t.fault.ffLevel = r.u8 1 ∧ t.fault.faultN = faultNLow t) ∧
  (Does 0x0E03 .faultAck r s (but [.air, .sys, .mem, .bell, .wire, .pending]) fun t => ∀ e ∈ t.fault.entries, (r.u8 0 = 0 → e.handle = r.u32 4 → e.acked) ∧
    (r.u8 0 = 1 → e.cls = r.u8 1 → e.acked) ∧ (r.u8 0 = 2 → e.acked)) ∧
  (Accepts specFaultUnitPen r s → existingUnit s (r.u32 0) = some u → Runs (.faultUnitPen r) s (but [.sys, .rf, .hk, .cl, .mem, .bell, .wire, .pending]) fun t =>
   Answered 0x0E04 r .ok t ∧ ⟨u, .host⟩ ∈ t.fault.pens ∧ penned t u) ∧
  (Accepts specFaultUnitRelease r s → existingUnit s (r.u32 0) = some u → Runs (.faultUnitRelease r) s (but [.air, .sys, .mem, .bell, .wire, .pending]) fun t =>
   Answered 0x0E05 r .ok t ∧ ⟨u, .host⟩ ∉ t.fault.pens ∧ ∀ a ∈ t.fault.actions, a.unit = u → a.handle ≠ none) ∧
  (Does 0x0E06 .faultHaltRelease r s (but [.air, .sys, .mem, .bell, .wire, .pending]) fun t => answerBytes r t = le 4 (if r.u32 0 = 0 then frameBoundaryAhead s 4 else r.u32 0) ∧
   t.fault.haltRelease = some (if r.u32 0 = 0 then frameBoundaryAhead s 4 else r.u32 0) ∧ t.fault.halt = s.fault.halt) ∧
  (Does 0x0E07 .faultFfClear r s [.fault] fun t => t.fault = { s.fault with firstFault := none, companions := [] } ∧ answerBytes r t = le 4 ((s.fault.firstFault.map (fun x => x.seq)).getD 0)) ∧
  (Accepts specFaultInject r s → existingUnit s (r.u32 4) = some u → Runs (.faultInject r) s [.host, .fault, .pair] fun t =>
   Answered 0x0E08 r .ok t ∧ t.fault = { s.fault with latched := s.fault.latched ++ [if r.u8 1 = 0 then .raise { cls := r.u8 0, unit := u, injected := true, cycle := cycleNow s + 1 }
    else .ended ⟨r.u8 0, u⟩ (cycleNow s + 1) true] }) ∧
  (Does 0x0E09 .faultTableRead r s [] fun t => t.fault = s.fault ∧ answerBytes r t = le 2 ((s.fault.entries.drop (r.u16 0)).take (r.u16 2)).length ++ le 2 s.fault.entries.length ++
    ((((s.fault.entries.drop (r.u16 0)).take (r.u16 2)).map entryWords).flatten).flatMap (le 4))

/-- The collector records a raise, enters or escalates it; reactions act and complete; windows close; a HALT is
released. -/
def Obligations.CollectorRecordsAndReacts : Prop :=
 ∀ (s : State) (r : Raise) (e : FaultEntry) (x : Reaction) (w : Window) (k : Nat),
  (s.power = .dormant → Still .collectorCycle s) ∧
  (s.power ≠ .dormant → Runs .collectorCycle s (but [.sys, .pair, .wire, .pending]) fun t => ticked s t tcPerCycle ∧ (s.fault.entries.length ≤ 256 → t.fault.entries.length ≤ 256) ∧
   (s.fault.windows.length ≤ 32 → t.fault.windows.length ≤ 32) ∧ (s.fault.latched = [.raise r] → r.cycle ≤ cycleNow s → s.fault.windows = [] → s.log.submissions = [] →
    ¬maskedClasses.contains r.cls → t.fault.raises = s.fault.raises + 1 ∧ (entryOf s.fault r.cls r.unit = none → s.fault.entries.length < 256 → ∃ y, t.fault.entries = s.fault.entries ++ [y] ∧
     y.cls = r.cls ∧ y.unit = r.unit ∧ y.severity = baseSeverity s.fault r ∧ y.active ∧ ¬y.acked) ∧
    (entryOf s.fault r.cls r.unit = some e → ¬e.acked → r.fixed = none → ∃ y ∈ t.fault.entries, y.handle = e.handle ∧
     y.active ∧ y.severity = max e.severity (min (e.severity + 1) (classConfig s.fault r.cls).ceiling)))) ∧
  (s.fault.reactions.find? (fun y => y.startedAt.isNone) = some x → Runs .reactionStart s (but [.log, .pair, .wire, .pending]) fun t =>
   waited s t ((x.cycle + 2) * tcPerCycle) ∧ (4 ≤ x.severity → t.fault.halt ≠ none) ∧ (x.severity < 2 → t.fault.reactions = s.fault.reactions.filter (fun y => y.order != x.order)) ∧
   (x.handle = none → ∃ a ∈ t.fault.actions, a.cls = x.cls ∧ a.unit = x.unit ∧ a.handle = none)) ∧
  (s.fault.reactions.find? (reactionDone s) = some x → Runs .reactionComplete s [.fault] fun t => t.fault.reactions = s.fault.reactions.filter (fun y => y.order != x.order) ∧
   ∀ y ∈ t.fault.windows, y.order = x.order → y.closeAt = some (s.now + 3932160)) ∧
  (s.fault.windows = [w] → w.closeAt = some k → Runs .consequenceWindowClose s [.air, .fault] fun t => t.fault.windows = [] ∧
   waited s t k ∧ t.fault.latched = s.fault.latched ++ w.raised.reverse.map (fun y => .raise { y with afresh := true, cycle := cycleNow t })) ∧
  (s.fault.haltRelease = some k → Runs .haltReleaseFrame s (bands [.air, .fault, .log]) fun t => t.fault.halt = none ∧ t.fault.haltRelease = none ∧ t.fault.haltMuted = [])

/-- The Logbook commands complete: mode, reading, clearing, media reset, host records and verification. -/
def Obligations.LogbookCommandsComplete : Prop :=
 ∀ (r : HostRequest) (s : State),
  (Does 0x0F01 .logMode r s [.log, .bell] fun t => t.log.ig = (r.u8 0 == 1) ∧ t.log.igLimit = r.u8 1 ∧ t.log.igWindow = r.u32 4 ∧
   (s.log.submissions = [] → (¬s.log.ig ∨ r.u8 0 = 1) → heldRecords t.log = heldRecords s.log ∧ t.log.submissions = [{
               code := 0x0103, source := sourceIndex 10 0, mono := s.now, params := params6 [r.u8 0, r.u8 1, r.u32 4, 0] }])) ∧
  (Does 0x0F02 .logRead r s [] fun t => t.log = s.log ∧ answerBytes r t = readReply (if r.u8 5 = 0 then servedRecords s.log else if r.u8 5 = 1 then s.log.mirror else s.pair.tail) (r.u32 0) (r.u8 4)) ∧
  (Accepts specLogClear r s → Runs (.logClear r) s [.host, .log, .pair] fun t => Answered 0x0F03 r .accepted t ∧ t.log = { s.log with clearing := some (ticketOf (reqOf 0x0F03 r)) }) ∧
  (Accepts specLogMediaReset r s → Runs (.logMediaReset r) s [.host, .log, .pair] fun t => Answered 0x0F04 r .accepted t ∧
   t.log = { s.log with mediaReset := s.log.mediaReset ++ [(r.u8 0, ticketOf (reqOf 0x0F04 r))] }) ∧
  (Accepts specLogWrite r s → ¬s.log.mediaWait → s.log.submissions = [] → ¬s.log.full → 1 < ordinaryRoom s.log →
   nextSeq s.log.head % 1024 ≠ 0 → (¬s.log.ig → ∀ y ∈ (heldRecords s.log).head?, y.code ≠ r.u16 0) →
   Runs (.logWrite r) s [.host, .log, .bell, .pair] fun t => Answered 0x0F05 r .ok t ∧ answerBytes r t = le 4 (nextSeq s.log.head) ∧
    ∃ y, heldRecords t.log = y :: heldRecords s.log ∧ y.seq = nextSeq s.log.head ∧ y.code = r.u16 0 ∧ y.severity = r.u8 2 ∧ y.flags = 0x80 ∧ y.mono = s.now ∧
     y.params = (List.range 6).map (fun i => r.u32 (4 + 4 * i))) ∧
  (Accepts specLogVerify r s → Runs (.logVerify r) s [.host, .log, .pair] fun t => Answered 0x0F06 r .accepted t ∧ t.log = { s.log with verifying := s.log.verifying ++
    [(r.u32 0, r.u32 4, r.u8 8, ticketOf (reqOf 0x0F06 r))] })

/-- The writer commits, merges or loses; the mirror follows; a failed bank hands over; clearing, media test and
verification end. -/
def Obligations.LogbookWriterCommitsAndRecovers : Prop :=
 ∀ (s : State) (x : Submission) (rest : List Submission) (y : Record) (l : List Record) (q : Nat) (qs : List Nat) (k : Ticket)
  (n tgt first last store : Nat) (a b c d : Bool) (vs : List (Nat × Nat × Nat × Ticket)) (ms : List (Nat × Ticket)),
  ((s.log.mediaWait ∨ s.log.submissions = []) → Still .recordCommit s) ∧
  (¬s.log.mediaWait → s.log.submissions = x :: rest → Runs .recordCommit s [.host, .log, .bell] fun t => t.log.submissions = rest ∧
   (s.log.full → heldRecords s.log = y :: l → t.log.lost = min (s.log.lost + 1) 0xFFFF_FFFF ∧ t.log.head = s.log.head ∧
    heldRecords t.log = { y with params := params6 (min (s.log.lost + 1) 0xFFFF_FFFF :: y.params.tail) } :: l) ∧
   (¬s.log.full → ¬s.log.ig → heldRecords s.log = y :: l → mergesInto x y → 0 < ordinaryRoom s.log →
    heldRecords t.log = { y with repeats := y.repeats + 1, lastRepeat := x.mono % 4294967296 } :: l ∧ t.log.head = s.log.head) ∧
   (¬s.log.full → ¬s.log.ig → (∀ z ∈ (heldRecords s.log).head?, ¬mergesInto x z) → 0 < ordinaryRoom s.log → nextSeq s.log.head % 1024 ≠ 0 → t.log.head = nextSeq s.log.head ∧ t.log.lost = s.log.lost ∧
    heldRecords t.log = { recordOf x (wallAt s x.mono) 0 with seq := nextSeq s.log.head, epoch := s.log.epoch } :: heldRecords s.log)) ∧
  (s.log.unmirrored = q :: qs → findRecord (servedRecords s.log) q = some y → Runs (.mirrorWrite true c) s [.air, .fault, .log] fun t =>
   t.log.mirror.head? = some y ∧ ¬t.log.mirrorFault ∧ t.log.unmirrored = without (q :: qs) q ∧ t.log.head = s.log.head ∧ (q = s.log.head → waited s t (s.log.lastChange + tcPerSecond))) ∧
  (s.log.unmirrored = [] → Still (.mirrorWrite d c) s) ∧
  (s.log.active = some .bankA → ¬s.log.bankA.failed → Runs (.logBankScrub n a false) s [.fault, .log] fun t =>
   t.log.corrected = min 65535 (s.log.corrected + n) ∧ (¬a → t.log.active = some .bankA ∧ heldRecords t.log = heldRecords s.log) ∧
   (a → t.log.bankA.failed ∧ t.log.mediaWait ∧ t.log.goodSeq = s.log.head ∧ t.log.active = (if s.log.bankB.failed then none else some .bankB))) ∧
  (s.log.clearing = some k → s.log.submissions = [] → Runs (.logClearComplete d) s [.host, .log, .bell] fun t => t.log.clearing = none ∧
   (¬d → heldRecords t.log = heldRecords s.log ∧ t.log.lost = s.log.lost ∧ t.host = (complete k .eIntegrity 0 s).host) ∧ (d → nextSeq s.log.head % 1024 ≠ 0 → t.log.lost = 0 ∧ ¬t.log.full ∧
    (heldRecords t.log).map (fun z => (z.code, z.seq)) = [(0x0102, nextSeq s.log.head)] ∧ t.host = (complete k .ok (nextSeq s.log.head) s).host)) ∧
  (s.log.mediaReset = (tgt, k) :: ms → Runs (.logMediaResetComplete a b) s [.host, .fault, .log] fun t => t.log.mediaReset = ms ∧ (tgt = 0 → t.log.bankA.failed = !a ∧ t.log.bankB = s.log.bankB ∧
    t.log.active = (if a ∧ s.log.active = none then some .bankA else s.log.active) ∧ t.host = (complete k (if a then .ok else .eIntegrity) 0 s).host)) ∧
  (s.log.verifying = (first, last, store, k) :: vs → Runs .logVerifyComplete s [.host, .log] fun t => t.log = { s.log with verifying := vs } ∧
   t.host = (match firstBadSeal s.sys.keys.log (verifyStore s.log store) first last with
    | none => complete k .ok 0 s
    | some z => complete k .eIntegrity z s).host)

/-- The SYS commands complete: NOP echoes, sessions open and close, host, network and site configurations are stored. -/
def Obligations.SystemCommandsComplete : Prop :=
 ∀ (r : HostRequest) (s : State),
  (Does 0x0100 .sysNop r s [] fun t => answerBytes r t = bytesAt r.payload 0 r.length) ∧
  (Accepts specSysSessionOpen r s → s.host.usedSessions.length < 0xFFFF_FFFE → Runs (.sysSessionOpen r) s [.host, .log, .pair, .drawn] fun t =>
   Answered 0x0101 r .ok t ∧ ∃ k x, s.host.sessions.get k = none ∧ t.host.sessions.get k = some x ∧ x.path = r.path ∧ x.role = roleOfCode (r.u8 0) ∧ x.id ≠ 0 ∧ x.id ∉ s.host.usedSessions ∧
    t.host.usedSessions = x.id :: s.host.usedSessions ∧ answerBytes r t = le 4 x.id ++ le 4 s.host.config.idle) ∧
  (Does 0x0102 .sysSessionClose r s [] fun t => ∃ k, placeOf s.host (closeTarget (reqOf 0x0102 r)) = some k ∧ t.host.sessions.get k = none ∧
    ∀ j, j ≠ k → (t.host.sessions.get j).map (fun x => (x.id, x.role, x.path)) = (s.host.sessions.get j).map (fun x => (x.id, x.role, x.path))) ∧
  (Does 0x0103 .sysHostConfig r s [.sys] fun t => t.host.config = s.host.config ∧ t.sys.storedHost.idle = r.u32 16 ∧ t.sys.storedHost.i2c = r.u8 20 ∧
   ∀ n, n < 16 → t.sys.storedHost.paths.get n = pathOfCode (r.u8 n)) ∧
  (Does 0x0104 .sysNetConfig r s [.sys] fun t => t.sys.storedNet = {
             mode := r.u8 0, transport := r.u8 1, profile := r.u8 2, domain := r.u8 3, ipv4 := r.u32 4, netmask := r.u32 8, gateway := r.u32 12, mgmtPort := r.u16 16,
             eventPort := r.u16 18, eventAddr := r.u32 20 } ∧ t.host.net = { s.host.net with transport := r.u8 1, profile := r.u8 2, domain := r.u8 3 }) ∧
  (Does 0x0105 .sysSiteConfig r s [.sys] fun t => t.host.site = t.sys.storedSite ∧ t.host.site.enable = BitVec.ofNat 16 (r.u16 16) ∧ t.host.site.invert = BitVec.ofNat 16 (r.u16 18) ∧
   (∀ n, n < 16 → t.host.site.debounce.get n = r.u8 n) ∧ t.host.siteFresh = (s.host.siteFresh ||| (t.host.site.enable &&& ~~~s.host.site.enable)))

/-- A REQUEST that repeats the last accepted xid is not executed; a new one on a busy mailbox is an ignored doorbell
(R416). -/
def Obligations.RepeatedRequestIsNotExecuted : Prop :=
 ∀ (d : EthDatagram) (s : State), pathAnswers s .ethernet → d.kind = 0 → datagramOk d → d.session = 0 →
  d.mailbox < 16 → s.host.config.paths.get d.mailbox = .ethernet → Runs (.ethRequest d) s [.host] (fun t =>
   ((s.mbx d.mailbox).xid = some d.xid → t.host.mailboxes = s.host.mailboxes ∧ t.host.order = s.host.order ∧ ((s.mbx d.mailbox).state = .done → t.host.ethResent = s.host.ethResent + 1 ∧
     t.host.out = .ethResponse d.mailbox d.xid (s.mbx d.mailbox).response :: s.host.out) ∧ ((s.mbx d.mailbox).state ≠ .done → t = s)) ∧ ((s.mbx d.mailbox).xid ≠ some d.xid →
    (((s.mbx d.mailbox).state = .pending ∨ (s.mbx d.mailbox).state = .running) → t.host.overrun.getLsbD d.mailbox ∧ t.host.order = s.host.order ∧ t.mbx d.mailbox = { s.mbx d.mailbox with
      ignored := (s.mbx d.mailbox).ignored + 1 }) ∧ (((s.mbx d.mailbox).state = .idle ∨ (s.mbx d.mailbox).state = .done) →
     t.host.order = s.host.order ++ [d.mailbox] ∧ (t.mbx d.mailbox).state = .pending ∧ (t.mbx d.mailbox).xid = some d.xid ∧
     (t.mbx d.mailbox).captured = some ⟨u16 d.body 0, requestOf d.mailbox .ethernet d.body⟩)))

/-- Register writes ring mailboxes, start commands, acknowledge, enable and signal; a low-half read latches its high
half. -/
def Obligations.HostRegistersRingAndSignal : Prop :=
 ∀ (s : State) (p : HostPath) (mask : BitVec 16) (w : Word) (n k a size v tag : Nat) (page : Bool) (rest : List Nat) (c : Captured),
  ((p = .pcie ∨ p = .spi) → pathAnswers s p → Runs (.doorbellWrite p mask) s [.host] fun t =>
   t.host.order = s.host.order ++ (List.range 16).filter (fun m => mask.getLsbD m && doorbellAccepted s.host m p) ∧ (n < 16 → ¬mask.getLsbD n → t.mbx n = s.mbx n) ∧
   (n < 16 → mask.getLsbD n → doorbellAccepted s.host n p → (t.mbx n).state = .pending ∧ (t.mbx n).captured = some ⟨u16 (areaBytes (s.mbx n) 2048) 0, requestOf n p (areaBytes (s.mbx n) 2048)⟩) ∧
   (n < 16 → mask.getLsbD n → ¬doorbellAccepted s.host n p → t.host.overrun.getLsbD n)) ∧
  (¬pathAnswers s p → Still (.doorbellWrite p mask) s) ∧
  Runs (.doorbellOverrunWrite w) s [.host] (fun t => t.host = { s.host with overrun := s.host.overrun &&& ~~~(w.setWidth 16) }) ∧
  (s.sys.ready → s.host.order = n :: rest → (s.mbx n).captured = some c → c.request.mailbox = n → n ≠ 0 → ¬(s.mbx n).discard → Runs .commandStart s (but [.wire, .pending]) fun t =>
   (commandSpec c.opcode = none → Answered c.opcode c.request .eOpcode t ∧ t.host.order = without (n :: rest) n) ∧
   (c.opcode = 0x0100 → c.request.length ≤ 2032 → c.request.flags >>> 1 = 0 → s.power ≠ .dormant →
    Answered 0x0100 c.request .ok t ∧ t.host.order = without (n :: rest) n ∧ answerBytes c.request t = bytesAt c.request.payload 0 c.request.length)) ∧
  Runs (.irqStatusWrite w) s [.host] (fun t => t.host = { s.host with irqStatus := s.host.irqStatus &&& ~~~w }) ∧
  Runs (.irqEnableWrite w) s [.host] (fun t => t.host.irqEnable = (w &&& 0x001F_FFFF) ∧ t.host.irqStatus = s.host.irqStatus ∧
   (k < 21 → w.getLsbD k → ¬s.host.irqEnable.getLsbD k → s.host.irqStatus.getLsbD k → (¬(s.host.msixTable.get k).control.testBit 0 → HostOutput.msix k ∈ t.host.out) ∧
    ((s.host.msixTable.get k).control.testBit 0 → t.host.msixPba.getLsbD k))) ∧
  Runs (.irqNEnableWrite w) s [.host] (fun t => t.host = { s.host with irqNEnable := w &&& 0x001F_FFFF } ∧ irqNLow t.host = decide (s.host.irqStatus &&& (w &&& 0x001F_FFFF) ≠ 0)) ∧
  Runs (.evtAckWrite w) s [.host] (fun t => t.host.evtAck = w.toNat ∧ t.host.evtHead = s.host.evtHead ∧ t.host.holdStart = if w.toNat < s.host.evtHead then some s.now else none) ∧
  ((p = .pcie ∨ p = .spi) → pathAnswers s p → a < 0x2_0000 → (size ≠ 4 ∨ a % 4 ≠ 0) → Runs (.registerWrite p a size w) s [.host] fun t => t.host = { s.host with badAccess := s.host.badAccess + 1 }) ∧
  ((p = .pcie ∨ p = .spi) → pathAnswers s p → n < 16 → k < 0x200 → s.host.config.paths.get n = p → Runs (.registerWrite p (0x1_0000 + 0x1000 * n + 4 * k) 4 w) s [.host] fun t =>
    (t.mbx n).area.get k = w.toNat ∧ (t.mbx n).state = (s.mbx n).state) ∧
  (¬pathAnswers s p → Still (.registerWrite p a size w) s) ∧
  Runs (.logCursorWrite w) s [.host] (fun t => t.host = { s.host with logCursor := w.toNat }) ∧
  Runs (.capWinWrite page w) s [.host] (fun t => t.host = { s.host with
   capWinPage := if page then w.toNat else s.host.capWinPage, capWinSlot := if page then s.host.capWinSlot else w.toNat % 16 }) ∧
  Runs (.siteEdgeWrite w) s [.host] (fun t => t.host = { s.host with
   siteRise := s.host.siteRise &&& ~~~(w.setWidth 16), siteFall := s.host.siteFall &&& ~~~((w >>> 16).setWidth 16) }) ∧
  (pathAnswers s .pcie → regAt .pcie s (a / 4 * 4) = .low v tag → Runs (.lowHalfRead .pcie a) s [.host, .drawn] fun t => t.host.out = .pcieData [v % 4294967296] :: s.host.out ∧
   t.host.shadows.get (a / 4 * 4) = (v / 4294967296 % 4294967296, tag))

/-- Reads and transfers answer; sessions, nonces and lockouts time out; the PCIe side resets; site inputs are debounced.
-/
def Obligations.HostPathsTransferAndTimeOut : Prop :=
 ∀ (s : State) (d : EthDatagram) (words : List Word) (w : Word) (b : Byte) (n k id h0 : Nat) (p : HostPath) (x : Session) (link : Bool)
  (pins : BitVec 16),
  (pathAnswers s .ethernet → d.kind = 2 → datagramOk d → d.address = 0 → d.count = 1 → Runs (.ethRead d) s [.host, .drawn] fun t => t.host.out = .ethReadData d.xid [0x7216] :: s.host.out) ∧
  (pathAnswers s .ethernet → d.kind = 2 → d.magic ≠ 0x7216 → Runs (.ethRead d) s [.host, .drawn] fun t => t.host = { s.host with ethReject := s.host.ethReject + 1 }) ∧
  (pathAnswers s .spi → Runs (.spiTransfer 0x02 0x0500 k [w]) s [.host, .drawn] fun t => t.host = { s.host with logCursor := w.toNat }) ∧
  (pathAnswers s .spi → Runs (.spiTransfer 0x03 0 1 words) s [.host, .drawn] fun t => t.host.out = .spiData [0x7216] :: s.host.out) ∧
  (¬readAnswers s .spi → Still (.spiTransfer n id k words) s) ∧
  Runs (.i2cTransfer [b] 0) s [.host, .drawn] (fun t => t.host = { s.host with i2cPointer := b.toNat }) ∧
  Runs (.i2cTransfer [10] 1) s [.host, .drawn] (fun t => t.host.out = .i2cData [s.host.heartbeat % 256] :: s.host.out ∧ t.host.i2cPointer = 11) ∧
  Runs .i2cHeartbeatTick s [.air, .host] (fun t => t.host = { s.host with heartbeat := (s.host.heartbeat + 1) % 256 } ∧ (s.power ≠ .dormant → ticked s t (tcOfMs 100))) ∧
  (s.host.holdStart = some h0 → s.host.evtAck < s.host.evtHead → Runs .eventHoldoffExpiry s [.air, .host] fun t => waited s t (h0 + tcOfUs s.host.holdoff) ∧ t.host.irqStatus.getLsbD irqEvent) ∧
  (placeOf s.host id = some k → s.host.sessions.get k = some x → Runs (.sessionIdleExpiry id) s [.air, .host] fun t =>
   t.host.sessions = s.host.sessions.set k none ∧ waited s t (x.last + tcOfS s.host.config.idle) ∧ t.host.evtHead = s.host.evtHead + 1 ∧ (t.host.ring.get (s.host.evtHead % 1024)).code = 0x0101 ∧
   (t.host.ring.get (s.host.evtHead % 1024)).detail = id % 4294967296) ∧
  ((s.host.paths.get (pathCode p)).lockedUntil = some h0 → Runs (.hostLockoutExpiry p) s [.air, .host] fun t => (t.host.paths.get (pathCode p)).lockedUntil = none ∧
   (s.power ≠ .dormant → waited s t h0)) ∧
  (p ≠ .none → (s.host.paths.get (pathCode p)).up → Runs (.nonceExpiry p) s [.air, .host, .drawn] fun t => t.drawn = s.drawn + 1 ∧ waited s t ((s.host.paths.get (pathCode p)).issued + tcOfS 60) ∧
   (t.host.paths.get (pathCode p)).issued = t.now ∧ (t.host.paths.get (pathCode p)).nonce = Config.nonce s.drawn) ∧
  Runs (.pcieReset link) s [.host] (fun t => t.host.pcieUp = link ∧ t.host.irqEnable = 0 ∧ t.host.irqStatus = s.host.irqStatus ∧
   (∀ j, j < 16 → (∀ y, s.host.sessions.get j = some y → y.path = .pcie) → t.host.sessions.get j = none) ∧ (n < 16 → s.host.config.paths.get n ≠ .pcie → t.mbx n = s.mbx n) ∧
   (n < 16 → s.host.config.paths.get n = .pcie → (s.mbx n).state = .pending → (t.mbx n).state = .idle ∧ n ∉ t.host.order) ∧ (n < 16 → s.host.config.paths.get n = .pcie → (s.mbx n).state = .running →
    (t.mbx n).state = .running ∧ (t.mbx n).discard)) ∧
  (s.power = .dormant → Still (.siteSample pins) s) ∧
  (s.power ≠ .dormant → Runs (.siteSample pins) s [.air, .host, .mem] fun t => t.host.sitePins = pins ∧ ticked s t tcPerMs ∧
   (n < 16 → ¬s.host.site.enable.getLsbD n → t.host.siteLevel.getLsbD n = s.host.siteLevel.getLsbD n) ∧ (n < 16 → s.host.site.enable.getLsbD n → s.host.siteFresh.getLsbD n →
    t.host.siteLevel.getLsbD n = (pins.getLsbD n != s.host.site.invert.getLsbD n) ∧ t.host.siteRise.getLsbD n = s.host.siteRise.getLsbD n ∧ ¬t.host.siteFresh.getLsbD n) ∧
   (n < 16 → s.host.site.enable.getLsbD n → ¬s.host.siteFresh.getLsbD n → (pins.getLsbD n != s.host.site.invert.getLsbD n) → ¬s.host.siteLevel.getLsbD n →
    (s.host.siteRun.get n + 1 < s.host.site.debounce.get n → ¬t.host.siteLevel.getLsbD n ∧ t.host.siteRun.get n = s.host.siteRun.get n + 1) ∧
    (s.host.site.debounce.get n ≤ s.host.siteRun.get n + 1 → t.host.siteLevel.getLsbD n ∧ t.host.siteRise.getLsbD n)))

/-- The power, lifecycle, key, debug and firmware commands complete. -/
def Obligations.ManagementCommandsComplete : Prop :=
 ∀ (r : HostRequest) (s : State),
  (Accepts specPwrStateSet r s → Runs (.pwrStateSet r) s (but [.air, .hk, .dv, .mem, .bell, .wire, .pending]) fun t => (powerOfCode (r.u8 0) = s.power → Answered 0x1001 r .ok t ∧ t.sys = s.sys) ∧
   (powerOfCode (r.u8 0) ≠ s.power → Answered 0x1001 r .accepted t) ∧ (powerOfCode (r.u8 0) = .standby → s.power ≠ .standby → t.power = s.power ∧
    t.sys.move = some { target := .standby, frame := some (frameBoundaryAhead s 1), ticket := some (ticketOf (reqOf 0x1001 r)) }) ∧ (powerOfCode (r.u8 0) = .quiet → t.power = .quiet) ∧
   (powerOfCode (r.u8 0) = .active → s.power = .standby → t.power = .active) ∧ (powerOfCode (r.u8 0) = .active → s.power = .quiet → t.power = .quiet ∧
    t.sys.move = some { target := .active, frame := none, ticket := some (ticketOf (reqOf 0x1001 r)) }) ∧ (powerOfCode (r.u8 0) = .dormant → s.fl.state ≠ .joined → t.power = s.power ∧
    t.sys.move = some { target := .dormant, frame := some (frameBoundaryAhead s 1), ticket := some (ticketOf (reqOf 0x1001 r)) })) ∧
  (Does 0x1002 .pwrWakeConfig r s [.sys] fun t => t.sys = { s.sys with wake := {
                  siteRise := BitVec.ofNat 16 (r.u16 0), siteFall := BitVec.ofNat 16 (r.u16 2), timer := r.u32 4, wakeState := powerOfCode (r.u8 8), debugWake := r.u8 9 == 1 } }) ∧
  (Does 0x1003 .pwrLimitSet r s [.sys] fun t => t.sys = { s.sys with powerLimit := r.u32 0 } ∧ modelledPower s ≤ t.sys.powerLimit) ∧
  (Accepts specPwrReset r s → Runs (.pwrReset r) s (but [.air, .log, .fl, .dv, .mem, .wire, .drawn, .pending]) fun t =>
   (r.u8 0 = 0 → Answered 0x1004 r .ok t ∧ t.sys = { s.sys with warmAt := some (s.now + tcOfMs 1) }) ∧ (r.u8 0 = 1 → Answered 0x1004 r .accepted t ∧ t.sys.unitReset =
    s.sys.unitReset ++ [(r.u8 1, s.now + tcOfMs (unitResetMs (r.u8 1)), ticketOf (reqOf 0x1004 r))])) ∧
  (Does 0x1010 .lcProvision r s [.log, .sys] fun t => t.sys.lifecycle = .provisioned ∧ t.sys.keys = { s.sys.keys with
                  monitor := some (bytesAt r.payload 0 32), operate := some (bytesAt r.payload 32 32), admin := some (bytesAt r.payload 64 32) }) ∧
  (Accepts specLcAdvance r s → Runs (.lcAdvance r) s [.host, .log, .sys, .pair] fun t => Answered 0x1011 r .accepted t ∧ (r.u8 0 = 2 → t.sys = { s.sys with lifecycle := .deployed }) ∧
   (r.u8 0 = 3 → t.sys = { s.sys with
    zeroising := some (bytesAt r.payload 8 32, some (ticketOf (reqOf 0x1011 r))) })) ∧
  (Does 0x1012 .lcRoleSet r s [.sys] fun t => t.sys = { s.sys with storedRole := if r.u8 0 = 0xFF then none else some (partRoleOf (r.u8 0)) }) ∧
  (Does 0x1013 .keyInstall r s [.sys] fun t => t.sys = { s.sys with
   keys := installKey (r.u8 0) (bytesAt r.payload 4 (keySize (r.u8 0))) s.sys.keys }) ∧
  (Does 0x1014 .dbgPolicy r s [.log, .sys] fun t => t.sys.authAllowed = (r.u8 0 == 1) ∧ (r.u8 0 = 0 → t.sys.debug ≠ .auth) ∧ (s.sys.debug ≠ .auth → t.sys.debug = s.sys.debug)) ∧
  (Does 0x1020 .fwWrite r s [.sys] fun t => imageOf t.sys (otherSlot s.sys.running) = none ∧ imageOf t.sys s.sys.running = imageOf s.sys s.sys.running ∧
   ∀ k, k < r.u32 4 → t.sys.fwBytes.get (r.u32 0 + k) = r.u8 (8 + k)) ∧
  (Accepts specFwControl r s → Runs (.fwControl r) s [.host, .sys, .pair] fun t => (r.u8 0 = 0 → Answered 0x1021 r .accepted t ∧ t.sys = { s.sys with fwVerify := some (ticketOf (reqOf 0x1021 r)) }) ∧
   (r.u8 0 = 1 → Answered 0x1021 r .ok t ∧ t.sys = { s.sys with
    keys := { s.sys.keys with counter := max s.sys.keys.counter s.sys.imageCounter } }) ∧
   (r.u8 0 = 2 → Answered 0x1021 r .ok t ∧ t.sys = { s.sys with preferred := s.sys.running, trialSlot := false }))

/-- Each reset keeps and loses what the table says; boot stages follow in order; READY orders held doorbells; trials
revert. -/
def Obligations.ResetsKeepWhatRetentionSays : Prop :=
 ∀ (s : State) (role : BitVec 2) (boot : BootPins) (us k u : Nat) (x : Option Image) (badA badB : Bool) (tk : Ticket) (sub by_ : Nat)
  (rest : List (Nat × Nat × Ticket)),
  Runs (.powerOnReset role boot) s (but [.wire, .drawn, .pending]) (fun t => t.now = 0 ∧ ¬t.sys.ready ∧ t.sys.stage = 0 ∧ t.sys.resetKind = .powerOn ∧
   t.fault.halt = none ∧ heldRecords t.log = [] ∧ t.log.mirror = s.log.mirror ∧ t.log.head = s.log.mirror.foldl (fun m y => max m y.seq) 0 ∧
   ¬t.log.ig ∧ t.host.sessions.get k = none ∧ t.sys.lifecycle = s.sys.lifecycle ∧ (t.chain k).fe = .off ∧ t.sys.role = s.sys.storedRole.getD (roleOfStraps role)) ∧
  Runs (.resetN role boot) s (but [.wire, .drawn, .pending]) (fun t => t.now = s.now ∧ t.air.wallAcc = s.air.wallAcc ∧ t.air.frame = 0 ∧ t.air.offset = 0 ∧
   ¬t.sys.ready ∧ t.sys.resetKind = .resetN ∧ t.fault.halt = none ∧ heldRecords t.log = heldRecords s.log ∧ t.log.head = s.log.head ∧
   ¬t.log.ig ∧ t.host.sessions.get k = none ∧ (t.chain k).fe = .off) ∧
  (s.sys.warmAt = none → Still .warmReset s) ∧
  (s.sys.warmAt = some u → Runs .warmReset s (but [.wire, .drawn, .pending]) fun t => waited s t (u + tcOfUs 10) ∧ ¬t.sys.ready ∧
   t.sys.resetKind = .warm ∧ t.sys.warmResets = s.sys.warmResets + 1 ∧ t.fault.halt = s.fault.halt ∧ t.log.ig = s.log.ig ∧
   ¬t.host.pcieUp ∧ t.host.sessions.get k = none ∧ ∀ y ∈ t.rf.chains.cells, y.2.fe = .off) ∧
  (s.power ≠ .dormant → s.sys.wdtAt = none → ¬s.sys.coreHalted → Runs .watchdogTimeout s [.fault, .sys] fun t => t.sys = { s.sys with wdtAt := some (s.now + tcOfMs 10) } ∧
    RaisedOnce 0xB0 partUnit s t) ∧
  (s.sys.debug = .open_ → s.sys.coreHalted → Still .watchdogTimeout s) ∧
  (s.sys.wdtAt = some u → Runs .watchdogReset s (but [.wire, .drawn, .pending]) fun t => waited s t u ∧ ¬t.sys.ready ∧
   t.sys.resetKind = .watchdog ∧ t.sys.wdtResets = s.sys.wdtResets + 1 ∧ t.fault.halt = s.fault.halt ∧
   t.sys.preferred = (if s.sys.trial ∧ ¬s.sys.ready then otherSlot s.sys.preferred else s.sys.preferred)) ∧
  (s.sys.stage ≤ 5 → ¬s.sys.configLoaded → ¬s.sys.testMode → Runs (.bootStageAdvance us x badA badB) s [.air, .host, .fault, .log, .sys, .bell, .drawn] fun t =>
   (s.now < s.sys.lastReset + tcOfMs (stageEnds.getD s.sys.stage 175) → t.now ≤ s.sys.lastReset + tcOfMs (stageEnds.getD s.sys.stage 175)) ∧
   (s.sys.stage = 0 ∨ s.sys.stage = 2 ∨ s.sys.stage = 3 ∨ s.sys.stage = 4 → t.sys.stage = s.sys.stage + 1) ∧
   (s.sys.stage = 1 → s.sys.zeroising = none → (match bootImage { s.sys with imageHost := x } with
    | none => t.sys.stage = 7
    | some (some j, i) => t.sys.stage = 2 ∧ t.sys.running = j ∧ t.sys.firmware = i.version ∧ t.sys.bootSource = 0
    | some (none, i) => t.sys.stage = 2 ∧ t.sys.firmware = i.version ∧ t.sys.bootSource = 1)) ∧
   (s.sys.stage = 2 → (t.host.paths.get 2).up) ∧ (s.sys.stage = 3 → (t.host.paths.get 0).up ∧ (t.host.paths.get 1).up ∧ t.host.pcieUp) ∧ (s.sys.stage = 4 → ¬badA → ¬badB → Submits [0x0100] s t) ∧
   (s.sys.stage = 5 → t.sys.configLoaded)) ∧
  ((5 < s.sys.stage ∨ s.sys.testMode) → Still (.bootStageAdvance us x badA badB) s) ∧
  (¬s.sys.ready → s.sys.stage = 5 → s.sys.configLoaded → Runs .ready s [.host, .fault, .sys, .fl, .pair] fun t => t.sys.ready ∧ t.sys.stage = 6 ∧
   ¬t.sys.trial ∧ t.host.irqStatus.getLsbD irqReady ∧ t.host.order = (List.range 16).filter (fun n => s.host.order.contains n)) ∧
  (s.sys.trial → ¬s.sys.ready → Runs .trialTimeout s [.air, .log, .sys] fun t => t.sys.preferred = otherSlot s.sys.preferred ∧
   ¬t.sys.trial ∧ t.sys.stage = 1 ∧ waited s t (s.sys.lastReset + tcOfS 2)) ∧
  (s.sys.unitReset = (sub, by_, tk) :: rest → Runs (.unitResetComplete us) s [.air, .host, .log, .sys] fun t => t.sys = { s.sys with
    unitReset := rest, unitResets := s.sys.unitResets + 1 } ∧ waited s t (min by_ (s.now + tcOfUs us)) ∧ t.host.evtHead = s.host.evtHead + 1 ∧ Submits [0x1001] s t)

/-- Power states are entered and left; supply loss is held up; keys are zeroised; debug sessions open, lock and close.
-/
def Obligations.PowerStatesAndSecurityEvents : Prop :=
 ∀ (s : State) (w : WakeSource) (m : PowerMove) (tk : Option Ticket) (k : Ticket) (f us u c : Nat) (fr : Option Nat)
  (b : Bool) (failed : BitVec 8) (cred key sig : List Byte) (x : Option Image),
  (s.sys.move = some ⟨.standby, some f, tk, false⟩ → Runs .standbyEntry s (but [.hk, .dv, .pair, .wire, .drawn, .pending]) fun t => t.power = .standby ∧ t.bell.rx = .off ∧
   (c < 16 → (t.chain c).fe = .off)) ∧
  (s.sys.move = some m → m.exit → (∀ j, j < 16 → (s.chain j).resume ≠ .off → (s.chain j).locked) →
   Runs .standbyExitComplete s [.host, .log, .sys, .rf] fun t => t.sys = { s.sys with move := none } ∧ (c < 16 → (t.chain c).resume = .off)) ∧
  (s.sys.move = some ⟨.active, fr, tk, false⟩ → s.power = .quiet → Runs .quietExit s (bands [.air, .host, .fault, .log, .sys]) fun t => t.power = .active ∧ t.sys.move = none) ∧
  (s.sys.move = some ⟨.dormant, some f, tk, b⟩ → Runs (.dormantEntry us) s (but [.hk, .pair, .wire, .drawn, .pending]) fun t => t.power = .dormant ∧ t.sys.move = none ∧
   t.host.sessions.get c = none ∧ t.sys.debug = .closed ∧ t.sys.dormantAt = t.now ∧ t.log.unmirrored = [] ∧ t.bell.rx = .off) ∧
  (s.power = .dormant → s.sys.pwrEn → Runs .pwrEnDrop s [.air, .sys] fun t => t.sys = { s.sys with pwrEn := false } ∧
   max s.now (s.sys.dormantAt + tcOfMs 1) ≤ t.now ∧ t.now < max s.now (s.sys.dormantAt + tcOfMs 1) + 60000) ∧
  (s.power ≠ .dormant → Still .pwrEnDrop s ∧ Still .aonOscTick s ∧ Still (.dormantWake w us) s) ∧
  (s.power = .dormant → Runs .aonOscTick s [.air] fun t => t.now = s.now + 60000 ∧ t.air.frame = s.air.frame ∧ t.air.offset = s.air.offset) ∧
  (s.power = .dormant → wakeEnabled s w → Runs (.dormantWake w us) s (but [.wire, .drawn, .pending]) fun t => t.sys.resetKind = .dormantWake ∧
   ¬t.sys.ready ∧ t.power = .active ∧ t.sys.wakes = s.sys.wakes + 1 ∧ t.fault.halt = s.fault.halt ∧ t.sys.wakeTarget = some (if w = .debug then .standby else s.sys.wake.wakeState)) ∧
  (¬wakeEnabled s w → Still (.dormantWake w us) s) ∧
  (¬s.sys.pwrFail → s.power ≠ .dormant → Runs (.pwrFailNFall failed) s (but [.rf, .hk, .fl, .dv, .pair, .wire, .drawn, .pending]) fun t => t.sys.pwrFail ∧
   t.sys.pwrFailFrom = some s.power ∧ t.sys.pwrFailCount = s.sys.pwrFailCount + 1 ∧ t.log.unmirrored = [] ∧
   t.power = (if s.power = .active then .quiet else s.power) ∧ ∀ y ∈ t.bell.keys, y.stored = y.counter) ∧
  (s.sys.pwrFail → (∀ j, j < 32 → ¬(s.hk.windows.get j).isOut) → Runs .pwrRestore s [.air, .host, .fault, .log, .sys, .ce, .lg, .np, .mem] fun t => ¬t.sys.pwrFail ∧
   (s.sys.pwrFailFrom = some .active → s.power = .quiet → t.power = .active) ∧ (s.sys.pwrFailFrom ≠ some .active → t.power = s.power)) ∧
  (s.sys.zeroising = some (cred, tk) → Runs .keysZeroised s [.host, .log, .sys, .bell] fun t => t.sys.lifecycle = .returned ∧ t.sys.zeroising = none ∧
   t.sys.keys = { s.sys.keys with monitor := some cred, operate := some cred, admin := some cred, flock := none, debug := none } ∧ t.bell.keys = []) ∧
  (s.power ≠ .dormant → s.sys.debug = .closed → s.sys.debugLocked = none → s.sys.authAllowed → s.sys.lifecycle = .deployed →
   s.sys.keys.debug = some key → Runs (.debugAuthRequest sig) s [.log, .sys, .drawn] fun t => t.sys.challenge = Config.challenge s.drawn ∧
   (if Config.ecdsaP384 key (authMessage s.sys) sig then t.sys.debug = .auth ∧ t.sys.debugLast = s.now else t.sys.debug = .closed ∧ t.sys.debugFailCount = s.sys.debugFailCount + 1 ∧
    t.sys.debugLocked = (if 2 ≤ (s.sys.debugFails.filter (fun j => decide (s.now < j + tcOfS 60))).length then some (s.now + tcOfS 300) else none))) ∧
  (s.sys.debugLocked = some u → Still (.debugAuthRequest sig) s) ∧
  (s.power ≠ .dormant → s.sys.debug = .closed → (s.sys.lifecycle = .blank ∨ s.sys.lifecycle = .returned) →
   Runs (.debugOpenRequest b) s [.log, .sys] fun t => t.sys.debug = .open_ ∧ t.sys.coreHalted = b) ∧
  (s.sys.debug ≠ .closed → Runs (.debugSessionClose b) s [.air, .log, .sys] fun t => t.sys.debug = .closed ∧ ¬t.sys.coreHalted ∧
   (¬b → waited s t (s.sys.debugLast + tcOfS 600)) ∧ (b → t.now = s.now)) ∧
  (s.sys.debugLocked = some u → Runs .debugLockoutExpiry s [.air, .sys] fun t => t.sys = { s.sys with debugLocked := none } ∧ (s.power ≠ .dormant → waited s t u)) ∧
  Runs (.securityViolation us) s [.fault] (fun t => ∃ x y, t.fault.latched = s.fault.latched ++ [.raise x, y] ∧ x.cls = 0xB1 ∧ x.unit = partUnit ∧ x.detail4 = us) ∧
  (s.sys.fwVerify = some k → Runs (.fwVerifyComplete x) s [.host, .sys] fun t => t.sys.fwVerify = none ∧ imageOf t.sys (otherSlot s.sys.running) = x ∧
   (if (x.filter (imageAccepted s.sys.keys)).isSome then t.sys.preferred = otherSlot s.sys.running ∧ t.sys.trialSlot ∧ t.host = (complete k .ok 0 s).host
   else t.sys.preferred = s.sys.preferred ∧ t.sys.trialSlot = s.sys.trialSlot ∧ t.host = (complete k .eIntegrity 0 s).host))

/-- The pair commands complete; mirrored items are sent every 10 ms and applied in sequence; PAIR_LINK is raised and
ends. -/
def Obligations.PairCommandsAndMirroring : Prop :=
 ∀ (r : HostRequest) (s : State) (q u n p : Nat) (h : Option (Nat × Nat)) (y : Record) (item : PairItem),
  (Does 0x1101 .pairConfig r s [] fun t => t.pair = { s.pair with stored :=
   {
    enable := r.u8 0 == 1, preferStandby := r.u8 1 == 1, ports := BitVec.ofNat 12 (r.u16 2), sharedDonor := r.u8 4 == 1, peerSerial := r.u64 8, wait := r.u32 16 } }) ∧
  (Accepts specPairSwitchover r s → q = (if r.u32 4 = 0 then frameBoundaryAhead s 4 else r.u32 4) →
   Runs (.pairSwitchover r) s [.host, .pair] fun t => Answered 0x1102 r .ok t ∧ answerBytes r t = le 4 q ∧ t.pair.switchAt = some q ∧ t.pair.phase = s.pair.phase ∧ (r.u8 0 = 0 → ¬t.pair.forced ∧
     t.pair.outgoing = s.pair.outgoing ++ [(s.pair.seqSent + 1, .command 0x1102 (le 4 0 ++ le 4 q))]) ∧ (r.u8 0 = 1 → t.pair.forced ∧ t.pair.outgoing = s.pair.outgoing)) ∧
  (Does 0x1103 .pairTailRead r s [] fun t => t.pair = s.pair ∧ answerBytes r t = readReply (s.pair.frozen.getD []) (r.u32 0) (r.u8 4)) ∧
  (pairRuns s → activeHub s → standbyListens s.pair → Runs .mirrorPeriodicSync s [.air, .pair] fun t => ticked s t (tcOfMs 10) ∧ t.pair.seqSent = s.pair.seqSent + 2 ∧
   t.pair.outgoing = s.pair.outgoing ++ [(s.pair.seqSent + 1, modelItem s), (s.pair.seqSent + 2, loopItem s)]) ∧
  (¬pairRuns s → Still .mirrorPeriodicSync s ∧ Still (.pairSync q item) s ∧ Still .pairLinkRecovery s) ∧
  (pairRuns s → standbyHub s → Runs (.pairSync (s.pair.seqApplied + 1) (.halt h)) s (but [.wire, .pending]) fun t => t.pair = { s.pair with seqApplied := s.pair.seqApplied + 1, halt := h }) ∧
  (pairRuns s → standbyHub s → Runs (.pairSync (s.pair.seqApplied + 1) (.record y)) s (but [.wire, .pending]) fun t => t.pair.tail.head? = some y ∧ t.pair.seqApplied = s.pair.seqApplied + 1) ∧
  (q ≠ s.pair.seqApplied + 1 → Still (.pairSync q item) s) ∧
  (s.pair.bulk = some (u, n) → ¬holding s 0xC0 pairLinkUnit → Runs .bulkSyncTimeout s [.air, .fault] fun t => waited s t u ∧ t.pair = s.pair ∧ Raised 0xC0 pairLinkUnit s t) ∧
  (s.pair.bulk = none → Still .bulkSyncTimeout s) ∧
  (pairRuns s → mirrorPorts s = [p] → (s.pair.links.get 0).up → holding s 0xC0 pairLinkUnit → Runs .pairLinkRecovery s [.air, .fault] fun t => waited s t ((s.pair.links.get 0).upSince + tcOfMs 100) ∧
    ¬holding t 0xC0 pairLinkUnit ∧ t.fault.latched = s.fault.latched ++ [.ended ⟨0xC0, pairLinkUnit⟩ (cycleNow t) false])

/-- Heartbeats decide roles and bring the standby into step; missed ones fail over; takeover and demotion exchange
roles. -/
def Obligations.PairRolesFollowHeartbeats : Prop :=
 ∀ (s : State) (port k f p m : Nat) (h : Heartbeat),
  ((mirrorPorts s).findIdx? (· == port) = some k → pairRuns s → fromPeer s h → Runs (.pairHb port h) s (but [.sys, .hk, .cl, .ps, .mem, .bell, .wire, .pending]) fun t =>
   (t.pair.links.get k).missed = 0 ∧ (t.pair.links.get k).up ∧ (t.pair.links.get k).lastHb = some s.now ∧
   (s.pair.phase = .waiting → h.term < s.pair.term → t.pair.phase = .activeAlone ∧ t.fl.memberId = some 0) ∧
   (s.pair.phase = .waiting → s.pair.term < h.term → t.pair.phase = .standbySyncing ∧ t.fl.memberId = some 1) ∧
   (s.pair.phase = .activeAlone → h.state = 2 → s.pair.term < h.term → t.pair.demote ∧ t.pair.split) ∧
   (s.pair.phase = .activeAlone → h.state = 4 → s.pair.bulk = none → t.pair.bulks = s.pair.bulks + 1 ∧ t.pair.bulk ≠ none ∧ t.pair.seqAcked = 0) ∧
   ((s.pair.phase = .standbySyncing ∨ s.pair.phase = .standbyReady) → h.state = 3 → t.pair.phase = .standbyReady ∧ ¬t.pair.failover ∧ t.pair.term = h.term)) ∧
  ((mirrorPorts s).findIdx? (· == port) = none → Still (.pairHb port h) s) ∧
  (pairRuns s → mirrorPorts s = [p] → Runs (.pairHbMissed 0) s [.air, .fault, .pair] fun t => t.pair.misses = s.pair.misses + 1 ∧
   (t.pair.links.get 0).missed = (s.pair.links.get 0).missed + 1 ∧ ¬(t.pair.links.get 0).up ∧ (3 ≤ (s.pair.links.get 0).missed → ¬holding s 0xC0 pairLinkUnit → Raised 0xC0 pairLinkUnit s t) ∧
   (3 ≤ (s.pair.links.get 0).missed → s.pair.phase = .standbyReady → t.pair.failover) ∧ (s.pair.phase ≠ .standbyReady → t.pair.failover = s.pair.failover)) ∧
  (¬pairRuns s → Still (.pairHbMissed k) s) ∧
  (s.pair.phase = .waiting → Runs .pairWaitTimeout s [.air, .fl, .dv, .pair, .drawn] fun t => t.pair.phase = .activeAlone ∧ t.fl.memberId = some 0 ∧
   waited s t (s.pair.waitFrom + tcOfS (if s.pair.config.preferStandby then s.pair.config.wait else 2))) ∧
  (s.pair.phase ≠ .waiting → Still .pairWaitTimeout s) ∧
  (standbyHub s → takeoverFrame s = some f → Runs .pairTakeover s (but [.sys, .hk, .cl, .mem, .bell, .wire, .pending]) fun t => t.pair.term = s.pair.term + 1 ∧
   t.pair.phase = .activeAlone ∧ t.pair.takeovers = s.pair.takeovers + 1 ∧ t.pair.lastFrame = f ∧ t.pair.frozen = some s.pair.tail ∧
   t.fl.memberId = some 0 ∧ t.fault.halt = (s.fault.halt <|> s.pair.halt)) ∧
  ((¬standbyHub s ∨ takeoverFrame s = none) → Still .pairTakeover s) ∧
  (activeHub s → s.pair.config.enable → demoteFrame s = some f → Runs .pairDemote s [.air, .host, .fault, .log, .rf, .ce, .lg, .np, .fl, .dv, .pair] fun t =>
   t.pair.phase = .standbySyncing ∧ t.fl.memberId = some 1 ∧ t.pair.demotions = s.pair.demotions + 1 ∧ t.pair.lastFrame = f ∧
   t.pair.splits = s.pair.splits + (if s.pair.split then 1 else 0) ∧ t.pair.frozen = some s.pair.tail ∧ t.dv.intents.get m = none) ∧
  (¬activeHub s → Still .pairDemote s)
end

