-- ==== Sys2Proof/Laws/Bank.lean ====
section
/-! SUPPORT. Reading a numbered unit of a bank after a write: the same number reads what was written, and every other number
reads as before. -/

namespace Sys2Proof

variable {α : Type}

theorem find_put_same (l : List (Nat × α)) (k : Nat) (x : α) : Bank.find (Bank.put l k x) k = some x := by
  induction l with
  | nil => simp [Bank.put, Bank.find]
  | cons p l ih =>
    obtain ⟨j, y⟩ := p
    simp only [Bank.put]
    split
    · simp [Bank.find]
    · split
      · simp [Bank.find]
      · rename_i h1 h2
        simp only [Bank.find]
        rw [if_neg (fun h => h2 h.symm)]
        exact ih

theorem find_put_other (l : List (Nat × α)) (k j : Nat) (x : α) (h : j ≠ k) : Bank.find (Bank.put l k x) j = Bank.find l j := by
  induction l with
  | nil => simp [Bank.put, Bank.find, Ne.symm h]
  | cons p l ih =>
    obtain ⟨i, y⟩ := p
    simp only [Bank.put]
    split
    · simp [Bank.find, Ne.symm h]
    · split
      · rename_i h1 h2
        subst h2
        simp [Bank.find, Ne.symm h]
      · simp only [Bank.find]
        rw [ih]

@[simp] theorem get_set_same (b : Bank α) (k : Nat) (x : α) : (b.set k x).get k = x := by
  simp [Bank.get, Bank.set, find_put_same]

theorem get_set_other (b : Bank α) {k j : Nat} (x : α) (h : j ≠ k) : (b.set k x).get j = b.get j := by
  simp [Bank.get, Bank.set, find_put_other _ _ _ _ h]

@[simp] theorem get_mod_same (b : Bank α) (k : Nat) (f : α → α) : (b.mod k f).get k = f (b.get k) := by
  simp [Bank.mod]

theorem get_mod_other (b : Bank α) {k j : Nat} (f : α → α) (h : j ≠ k) : (b.mod k f).get j = b.get j := by
  simp [Bank.mod, get_set_other _ _ h]

/-- A bank in order stays in order. -/
theorem sorted_set (b : Bank α) (k : Nat) (x : α) (h : b.sorted) : (b.set k x).sorted := by
  have key : ∀ l : List (Nat × α), l.Pairwise (fun p q => p.1 < q.1) → (Bank.put l k x).Pairwise (fun p q => p.1 < q.1) ∧
      ∀ p ∈ Bank.put l k x, p.1 = k ∨ ∃ q ∈ l, q.1 = p.1 := by
    intro l hl
    induction l with
    | nil => simp [Bank.put]
    | cons p l ih =>
      obtain ⟨j, y⟩ := p
      rw [List.pairwise_cons] at hl
      obtain ⟨h1, h2⟩ := ih hl.2
      simp only [Bank.put]
      split
      · rename_i hk
        refine ⟨List.pairwise_cons.2 ⟨?_, List.pairwise_cons.2 hl⟩, ?_⟩
        · intro q hq
          rcases List.mem_cons.1 hq with rfl | hq
          · exact hk
          · exact Nat.lt_trans hk (hl.1 q hq)
        · intro q hq
          rcases List.mem_cons.1 hq with rfl | hq
          · exact .inl rfl
          · exact .inr ⟨q, hq, rfl⟩
      · split
        · rename_i _ hk
          subst hk
          refine ⟨List.pairwise_cons.2 ⟨fun q hq => hl.1 q hq, hl.2⟩, ?_⟩
          intro q hq
          rcases List.mem_cons.1 hq with rfl | hq
          · exact .inl rfl
          · exact .inr ⟨q, List.mem_cons_of_mem _ hq, rfl⟩
        · rename_i hk1 hk2
          refine ⟨List.pairwise_cons.2 ⟨?_, h1⟩, ?_⟩
          · intro q hq
            rcases h2 q hq with h | ⟨r, hr, h⟩
            · show j < q.1
              omega
            · have := hl.1 r hr
              show j < q.1
              omega
          · intro q hq
            rcases List.mem_cons.1 hq with rfl | hq
            · exact .inr ⟨(j, y), List.mem_cons_self, rfl⟩
            · rcases h2 q hq with h | ⟨r, hr, h⟩
              · exact .inl h
              · exact .inr ⟨r, List.mem_cons_of_mem _ hr, h⟩
  exact (key b.cells h).1

end Sys2Proof
end

