-- ==== Sys2Proof/Laws/Frames.lean ====
section
/-! SUPPORT. The frame relation `Only m s t`: only the parts of the state whose bits `m` holds may differ between `s` and `t`.
Its rules, and one lemma for each update of a subsystem. The other files of this group hold one lemma for each operation of
the model: what it touches at most. They compose: an operation's lemma takes the lemma of the state it is applied to. -/

namespace Sys2Proof.Machine

open Sys2Proof

/-- The bit of a part in a mask. -/
def Part.bit : Part → Nat
  | .air => 0
  | .host => 1
  | .fault => 2
  | .log => 3
  | .sys => 4
  | .rf => 5
  | .ce => 6
  | .lg => 7
  | .np => 8
  | .hk => 9
  | .cl => 10
  | .ps => 11
  | .fl => 12
  | .dv => 13
  | .mem => 14
  | .bell => 15
  | .pair => 16
  | .wire => 17
  | .drawn => 18
  | .pending => 19

/-- Parts whose bits `m` does not hold are the same. -/
def Only (m : Nat) (s t : State) : Prop := ∀ p : Part, m.testBit p.bit = false → p.same s t

theorem Only.refl (m : Nat) (s : State) : Only m s s := by intro p _; cases p <;> rfl

theorem Only.trans {m : Nat} {s t u : State} (h : Only m s t) (k : Only m t u) : Only m s u := by
  intro p hp
  have a := h p hp
  have b := k p hp
  cases p <;> exact Eq.trans b a

theorem Only.weaken {m n : Nat} {s t : State} (h : Only m s t) (k : m &&& n = m) : Only n s t := by
  intro p hp
  apply h p
  rw [← k, Nat.testBit_and, hp, Bool.and_false]

theorem Only.lift {m n : Nat} {s0 s t : State} (h : Only m s0 s) (k : n &&& m = n) (h0 : Only n s t) : Only m s0 t :=
  h.trans (h0.weaken k)

theorem Only.upd {m : Nat} {s t u : State} (h : Only m s t) (k : Only m t u) : Only m s u := h.trans k

/-- The frame relation gives the frame of a statement. -/
theorem Only.changesOnly {m : Nat} {s t : State} {l : List Part} (h : Only m s t) (k : ∀ p, p ∉ l → m.testBit p.bit = false) :
    ChangesOnly l s t := fun p hp => h p (k p hp)

theorem Only.ite {m : Nat} {s : State} {t u : State} {c : Prop} {d : Decidable c} (h : Only m s t)
    (k : Only m s u) : Only m s (if c then t else u) := by
  by_cases hc : c
  · rw [if_pos hc]; exact h
  · rw [if_neg hc]; exact k

theorem Only.foldl {α : Type} {m : Nat} {s : State} {u : State} {g : State → α → State} {l : List α}
    (h : Only m s u) (k : ∀ a x, Only m s a → Only m s (g a x)) : Only m s (l.foldl g u) := by
  induction l generalizing u with
  | nil => exact h
  | cons x xs ih => exact ih (k _ _ h)

theorem Only.ite1 {β : Type} {m : Nat} {s : State} {t u : State × β} {c : Prop} {d : Decidable c} (h : Only m s t.1)
    (k : Only m s u.1) : Only m s (if c then t else u).1 := by
  by_cases hc : c
  · rw [if_pos hc]; exact h
  · rw [if_neg hc]; exact k

theorem Only.foldl1 {β : Type} {α : Type} {m : Nat} {s : State} {u : State × β} {g : (State × β) → α → (State × β)} {l : List α}
    (h : Only m s u.1) (k : ∀ a x, Only m s a.1 → Only m s (g a x).1) : Only m s (l.foldl g u).1 := by
  induction l generalizing u with
  | nil => exact h
  | cons x xs ih => exact ih (k _ _ h)

theorem Only.ite2 {β : Type} {m : Nat} {s : State} {t u : β × State} {c : Prop} {d : Decidable c} (h : Only m s t.2)
    (k : Only m s u.2) : Only m s (if c then t else u).2 := by
  by_cases hc : c
  · rw [if_pos hc]; exact h
  · rw [if_neg hc]; exact k

theorem Only.foldl2 {β : Type} {α : Type} {m : Nat} {s : State} {u : β × State} {g : (β × State) → α → (β × State)} {l : List α}
    (h : Only m s u.2) (k : ∀ a x, Only m s a.2 → Only m s (g a x).2) : Only m s (l.foldl g u).2 := by
  induction l generalizing u with
  | nil => exact h
  | cons x xs ih => exact ih (k _ _ h)

theorem State_modAir_only {m : Nat} {s0 s : State} {f : AirState → AirState} (h : Only m s0 s) (k : 1 &&& m = 1) :
    Only m s0 (s.modAir f) := by
  refine h.lift k ?_
  intro p hp
  cases p <;> first | rfl | exact absurd hp (by decide)

theorem State_modHost_only {m : Nat} {s0 s : State} {f : HostState → HostState} (h : Only m s0 s) (k : 2 &&& m = 2) :
    Only m s0 (s.modHost f) := by
  refine h.lift k ?_
  intro p hp
  cases p <;> first | rfl | exact absurd hp (by decide)

theorem State_modFault_only {m : Nat} {s0 s : State} {f : FaultState → FaultState} (h : Only m s0 s) (k : 4 &&& m = 4) :
    Only m s0 (s.modFault f) := by
  refine h.lift k ?_
  intro p hp
  cases p <;> first | rfl | exact absurd hp (by decide)

theorem State_modLog_only {m : Nat} {s0 s : State} {f : LogState → LogState} (h : Only m s0 s) (k : 8 &&& m = 8) :
    Only m s0 (s.modLog f) := by
  refine h.lift k ?_
  intro p hp
  cases p <;> first | rfl | exact absurd hp (by decide)

theorem State_modSys_only {m : Nat} {s0 s : State} {f : SysState → SysState} (h : Only m s0 s) (k : 16 &&& m = 16) :
    Only m s0 (s.modSys f) := by
  refine h.lift k ?_
  intro p hp
  cases p <;> first | rfl | exact absurd hp (by decide)

theorem State_modRf_only {m : Nat} {s0 s : State} {f : RfState → RfState} (h : Only m s0 s) (k : 32 &&& m = 32) :
    Only m s0 (s.modRf f) := by
  refine h.lift k ?_
  intro p hp
  cases p <;> first | rfl | exact absurd hp (by decide)

theorem State_modCe_only {m : Nat} {s0 s : State} {f : CeState → CeState} (h : Only m s0 s) (k : 64 &&& m = 64) :
    Only m s0 (s.modCe f) := by
  refine h.lift k ?_
  intro p hp
  cases p <;> first | rfl | exact absurd hp (by decide)

theorem State_modLg_only {m : Nat} {s0 s : State} {f : LgState → LgState} (h : Only m s0 s) (k : 128 &&& m = 128) :
    Only m s0 (s.modLg f) := by
  refine h.lift k ?_
  intro p hp
  cases p <;> first | rfl | exact absurd hp (by decide)

theorem State_modNp_only {m : Nat} {s0 s : State} {f : NpState → NpState} (h : Only m s0 s) (k : 256 &&& m = 256) :
    Only m s0 (s.modNp f) := by
  refine h.lift k ?_
  intro p hp
  cases p <;> first | rfl | exact absurd hp (by decide)

theorem State_modHk_only {m : Nat} {s0 s : State} {f : HkState → HkState} (h : Only m s0 s) (k : 512 &&& m = 512) :
    Only m s0 (s.modHk f) := by
  refine h.lift k ?_
  intro p hp
  cases p <;> first | rfl | exact absurd hp (by decide)

theorem State_modCl_only {m : Nat} {s0 s : State} {f : ClState → ClState} (h : Only m s0 s) (k : 1024 &&& m = 1024) :
    Only m s0 (s.modCl f) := by
  refine h.lift k ?_
  intro p hp
  cases p <;> first | rfl | exact absurd hp (by decide)

theorem State_modPs_only {m : Nat} {s0 s : State} {f : PsState → PsState} (h : Only m s0 s) (k : 2048 &&& m = 2048) :
    Only m s0 (s.modPs f) := by
  refine h.lift k ?_
  intro p hp
  cases p <;> first | rfl | exact absurd hp (by decide)

theorem State_modFl_only {m : Nat} {s0 s : State} {f : FlState → FlState} (h : Only m s0 s) (k : 4096 &&& m = 4096) :
    Only m s0 (s.modFl f) := by
  refine h.lift k ?_
  intro p hp
  cases p <;> first | rfl | exact absurd hp (by decide)

theorem State_modDv_only {m : Nat} {s0 s : State} {f : DvState → DvState} (h : Only m s0 s) (k : 8192 &&& m = 8192) :
    Only m s0 (s.modDv f) := by
  refine h.lift k ?_
  intro p hp
  cases p <;> first | rfl | exact absurd hp (by decide)

theorem State_modMem_only {m : Nat} {s0 s : State} {f : MemState → MemState} (h : Only m s0 s) (k : 16384 &&& m = 16384) :
    Only m s0 (s.modMem f) := by
  refine h.lift k ?_
  intro p hp
  cases p <;> first | rfl | exact absurd hp (by decide)

theorem State_modBell_only {m : Nat} {s0 s : State} {f : BellState → BellState} (h : Only m s0 s) (k : 32768 &&& m = 32768) :
    Only m s0 (s.modBell f) := by
  refine h.lift k ?_
  intro p hp
  cases p <;> first | rfl | exact absurd hp (by decide)

theorem State_modPair_only {m : Nat} {s0 s : State} {f : PairState → PairState} (h : Only m s0 s) (k : 65536 &&& m = 65536) :
    Only m s0 (s.modPair f) := by
  refine h.lift k ?_
  intro p hp
  cases p <;> first | rfl | exact absurd hp (by decide)

end Sys2Proof.Machine
end

