-- ==== Sys2Proof/Laws/FramesBase.lean ====
section
/-! SUPPORT. Frames of the shared operations, the mailbox protocol and the Logbook: what each operation touches at most. -/

namespace Sys2Proof.Machine

open Sys2Proof

theorem draw_only {m : Nat} {s0 : State} {s : State} (h : Only m s0 s) (k : 262144 &&& m = 262144) : Only m s0 (draw s).2 := by
  refine Only.lift h k ?_
  clear h k; have h := Only.refl 262144 s
  unfold draw
  exact (Only.upd h (by intro p hp; cases p <;> first | rfl | exact absurd hp (by decide)))

theorem advance_only {m : Nat} {s0 : State} {x0 : Nat} {s : State} (h : Only m s0 s) (k : 1 &&& m = 1) : Only m s0 (advance x0 s) := by
  refine Only.lift h k ?_
  clear h k; have h := Only.refl 1 s
  unfold advance
  exact (State_modAir_only h rfl)

theorem advanceTo_only {m : Nat} {s0 : State} {x0 : Nat} {s : State} (h : Only m s0 s) (k : 1 &&& m = 1) : Only m s0 (advanceTo x0 s) := by
  refine Only.lift h k ?_
  clear h k; have h := Only.refl 1 s
  unfold advanceTo
  exact (advance_only h rfl)

theorem waitUntil_only {m : Nat} {s0 : State} {x0 : Nat} {s : State} (h : Only m s0 s) (k : 1 &&& m = 1) : Only m s0 (waitUntil x0 s) := by
  refine Only.lift h k ?_
  clear h k; have h := Only.refl 1 s
  unfold waitUntil
  exact (Only.ite (State_modAir_only h rfl) (advanceTo_only h rfl))

theorem advanceToAir_only {m : Nat} {s0 : State} {x0 : AirInstant} {s : State} (h : Only m s0 s) (k : 1 &&& m = 1) : Only m s0 (advanceToAir x0 s) := by
  refine Only.lift h k ?_
  clear h k; have h := Only.refl 1 s
  unfold advanceToAir
  exact (State_modAir_only h rfl)

theorem advanceToBoundary_only {m : Nat} {s0 : State} {x0 : Nat} {x1 : Nat} {s : State} (h : Only m s0 s) (k : 1 &&& m = 1) : Only m s0 (advanceToBoundary x0 x1 s) := by
  refine Only.lift h k ?_
  clear h k; have h := Only.refl 1 s
  unfold advanceToBoundary
  exact (State_modAir_only (advanceToAir_only h rfl) rfl)

theorem submitLog_only {m : Nat} {s0 : State} {x0 : Nat} {x1 : Nat} {x2 : List Nat} {s : State} (h : Only m s0 s) (k : 8 &&& m = 8) : Only m s0 (submitLog x0 x1 x2 s) := by
  refine Only.lift h k ?_
  clear h k; have h := Only.refl 8 s
  unfold submitLog
  exact (State_modLog_only h rfl)

theorem setIrq_only {m : Nat} {s0 : State} {x0 : Nat} {s : State} (h : Only m s0 s) (k : 2 &&& m = 2) : Only m s0 (setIrq x0 s) := by
  refine Only.lift h k ?_
  clear h k; have h := Only.refl 2 s
  unfold setIrq
  exact (State_modHost_only h rfl)

theorem postEvent_only {m : Nat} {s0 : State} {x0 : Event} {s : State} (h : Only m s0 s) (k : 2 &&& m = 2) : Only m s0 (postEvent x0 s) := by
  refine Only.lift h k ?_
  clear h k; have h := Only.refl 2 s
  unfold postEvent
  exact (State_modHost_only h rfl)

theorem postNotice_only {m : Nat} {s0 : State} {x0 : Nat} {x1 : Nat} {x2 : Nat} {s : State} (h : Only m s0 s) (k : 2 &&& m = 2) : Only m s0 (postNotice x0 x1 x2 s) := by
  refine Only.lift h k ?_
  clear h k; have h := Only.refl 2 s
  unfold postNotice
  exact (postEvent_only h rfl)

theorem complete_only {m : Nat} {s0 : State} {x0 : Ticket} {x1 : Status} {x2 : Nat} {s : State} (h : Only m s0 s) (k : 2 &&& m = 2) : Only m s0 (complete x0 x1 x2 s) := by
  refine Only.lift h k ?_
  clear h k; have h := Only.refl 2 s
  unfold complete
  exact (postEvent_only h rfl)

theorem completeOpt_only {m : Nat} {s0 : State} {x0 : Option Ticket} {x1 : Status} {x2 : Nat} {s : State} (h : Only m s0 s) (k : 2 &&& m = 2) : Only m s0 (completeOpt x0 x1 x2 s) := by
  refine Only.lift h k ?_
  clear h k; have h := Only.refl 2 s
  unfold completeOpt
  exact (by split; exact (complete_only h rfl); exact h)

theorem raiseFault_only {m : Nat} {s0 : State} {x0 : Raise} {s : State} (h : Only m s0 s) (k : 4 &&& m = 4) : Only m s0 (raiseFault x0 s) := by
  refine Only.lift h k ?_
  clear h k; have h := Only.refl 4 s
  unfold raiseFault
  exact (State_modFault_only h rfl)

theorem raiseLevel_only {m : Nat} {s0 : State} {x0 : Raise} {s : State} (h : Only m s0 s) (k : 4 &&& m = 4) : Only m s0 (raiseLevel x0 s) := by
  refine Only.lift h k ?_
  clear h k; have h := Only.refl 4 s
  unfold raiseLevel
  exact (Only.ite h (raiseFault_only h rfl))

theorem endFault_only {m : Nat} {s0 : State} {x0 : Nat} {x1 : UnitId} {s : State} (h : Only m s0 s) (k : 4 &&& m = 4) : Only m s0 (endFault x0 x1 s) := by
  refine Only.lift h k ?_
  clear h k; have h := Only.refl 4 s
  unfold endFault
  exact (Only.ite (State_modFault_only h rfl) h)

theorem raiseMoment_only {m : Nat} {s0 : State} {x0 : Raise} {s : State} (h : Only m s0 s) (k : 4 &&& m = 4) : Only m s0 (raiseMoment x0 s) := by
  refine Only.lift h k ?_
  clear h k; have h := Only.refl 4 s
  unfold raiseMoment
  exact (endFault_only (raiseFault_only h rfl) rfl)

theorem refreshFaultN_only {m : Nat} {s0 : State} {s : State} (h : Only m s0 s) (k : 4 &&& m = 4) : Only m s0 (refreshFaultN s) := by
  refine Only.lift h k ?_
  clear h k; have h := Only.refl 4 s
  unfold refreshFaultN
  exact (State_modFault_only h rfl)

theorem modLane_only {m : Nat} {s0 : State} {x0 : Nat} {x1 : Lane → Lane} {s : State} (h : Only m s0 s) (k : 4096 &&& m = 4096) : Only m s0 (modLane x0 x1 s) := by
  refine Only.lift h k ?_
  clear h k; have h := Only.refl 4096 s
  unfold modLane
  exact (State_modFl_only h rfl)

theorem modPort_only {m : Nat} {s0 : State} {x0 : Nat} {x1 : FlPort → FlPort} {s : State} (h : Only m s0 s) (k : 4096 &&& m = 4096) : Only m s0 (modPort x0 x1 s) := by
  refine Only.lift h k ?_
  clear h k; have h := Only.refl 4096 s
  unfold modPort
  exact (State_modFl_only h rfl)

theorem enqueueRaw_only {m : Nat} {s0 : State} {x0 : Nat} {x1 : CtrlFrame} {s : State} (h : Only m s0 s) (k : 4096 &&& m = 4096) : Only m s0 (enqueueRaw x0 x1 s).2 := by
  refine Only.lift h k ?_
  clear h k; have h := Only.refl 4096 s
  unfold enqueueRaw
  exact (Only.ite2 (modPort_only h rfl) (modPort_only h rfl))

theorem drawRetry_only {m : Nat} {s0 : State} {s : State} (h : Only m s0 s) (k : 262144 &&& m = 262144) : Only m s0 (drawRetry s).2 := by
  refine Only.lift h k ?_
  clear h k; have h := Only.refl 262144 s
  unfold drawRetry
  exact (draw_only h rfl)

theorem refuse_only {m : Nat} {s0 : State} {x0 : JoinReq} {x1 : Nat} {x2 : Nat} {s : State} (h : Only m s0 s) (k : 266240 &&& m = 266240) : Only m s0 (refuse x0 x1 x2 s) := by
  refine Only.lift h k ?_
  clear h k; have h := Only.refl 266240 s
  unfold refuse
  exact (State_modFl_only (enqueueRaw_only (drawRetry_only h rfl) rfl) rfl)

theorem enqueue_only {m : Nat} {s0 : State} {x0 : Nat} {x1 : CtrlFrame} {s : State} (h : Only m s0 s)
    (k : 266240 &&& m = 266240) : Only m s0 (enqueue x0 x1 s) := by
  refine Only.lift h k ?_
  have h1 : Only 266240 s (enqueueRaw x0 x1 s).2 := enqueueRaw_only (Only.refl _ _) rfl
  unfold enqueue
  split <;> rename_i heq <;> rw [heq] at h1
  · split
    · exact refuse_only h1 rfl
    · exact h1
  · exact h1

theorem sendLink_only {m : Nat} {s0 : State} {x0 : Nat} {x1 : FrameBody} {s : State} (h : Only m s0 s) (k : 266240 &&& m = 266240) : Only m s0 (sendLink x0 x1 s) := by
  refine Only.lift h k ?_
  clear h k; have h := Only.refl 266240 s
  unfold sendLink
  exact (enqueue_only h rfl)

theorem sendUp_only {m : Nat} {s0 : State} {x0 : FrameBody} {s : State} (h : Only m s0 s) (k : 266240 &&& m = 266240) : Only m s0 (sendUp x0 s) := by
  refine Only.lift h k ?_
  clear h k; have h := Only.refl 266240 s
  unfold sendUp
  exact (by split; exact (Only.foldl h (fun _ _ h0 => (enqueue_only h0 rfl))); exact h)

theorem sendTo_only {m : Nat} {s0 : State} {x0 : Nat} {x1 : FrameBody} {s : State} (h : Only m s0 s) (k : 266240 &&& m = 266240) : Only m s0 (sendTo x0 x1 s) := by
  refine Only.lift h k ?_
  clear h k; have h := Only.refl 266240 s
  unfold sendTo
  exact (by split; exact (enqueue_only h rfl); exact h)

theorem sendBelow_only {m : Nat} {s0 : State} {x0 : FrameBody} {s : State} (h : Only m s0 s) (k : 266240 &&& m = 266240) : Only m s0 (sendBelow x0 s) := by
  refine Only.lift h k ?_
  clear h k; have h := Only.refl 266240 s
  unfold sendBelow
  exact (Only.foldl h (fun _ _ h0 => (enqueue_only h0 rfl)))

theorem forward_only {m : Nat} {s0 : State} {x0 : Nat} {x1 : CtrlFrame} {s : State} (h : Only m s0 s) (k : 266240 &&& m = 266240) : Only m s0 (forward x0 x1 s) := by
  refine Only.lift h k ?_
  clear h k; have h := Only.refl 266240 s
  unfold forward
  exact (Only.ite h (enqueue_only h rfl))

theorem forwardUp_only {m : Nat} {s0 : State} {x0 : CtrlFrame} {s : State} (h : Only m s0 s) (k : 266240 &&& m = 266240) : Only m s0 (forwardUp x0 s) := by
  refine Only.lift h k ?_
  clear h k; have h := Only.refl 266240 s
  unfold forwardUp
  exact (by split; exact (forward_only h rfl); exact h)

theorem forwardBelow_only {m : Nat} {s0 : State} {x0 : CtrlFrame} {s : State} (h : Only m s0 s) (k : 266240 &&& m = 266240) : Only m s0 (forwardBelow x0 s) := by
  refine Only.lift h k ?_
  clear h k; have h := Only.refl 266240 s
  unfold forwardBelow
  exact (Only.foldl h (fun _ _ h0 => (forward_only h0 rfl)))

theorem forwardTo_only {m : Nat} {s0 : State} {x0 : CtrlFrame} {s : State} (h : Only m s0 s) (k : 266240 &&& m = 266240) : Only m s0 (forwardTo x0 s) := by
  refine Only.lift h k ?_
  clear h k; have h := Only.refl 266240 s
  unfold forwardTo
  exact (by split; exact (forward_only h rfl); exact h)

theorem emitFlit_only {m : Nat} {s0 : State} {x0 : Nat} {x1 : Nat} {x2 : Nat} {x3 : Nat} {x4 : List CtrlFrame} {x5 : List Block} {x6 : List Byte} {s : State} (h : Only m s0 s) (k : 397312 &&& m = 397312) : Only m s0 (emitFlit x0 x1 x2 x3 x4 x5 x6 s) := by
  refine Only.lift h k ?_
  clear h k; have h := Only.refl 397312 s
  unfold emitFlit
  exact (Only.upd (Only.ite (modPort_only (draw_only h rfl) rfl) (draw_only h rfl)) (by intro p hp; cases p <;> first | rfl | exact absurd hp (by decide)))

theorem drainQueue_only {m : Nat} {s0 : State} {s : State} {x1 : Nat} (h : Only m s0 s) (k : 397312 &&& m = 397312) : Only m s0 (drainQueue s x1) := by
  refine Only.lift h k ?_
  clear h k; have h := Only.refl 397312 s
  unfold drainQueue
  exact (Only.ite (Only.foldl (modPort_only (Only.upd h (by intro p hp; cases p <;> first | rfl | exact absurd hp (by decide))) rfl) (fun _ _ h0 => (emitFlit_only h0 rfl))) h)

theorem modBand_only {m : Nat} {s0 : State} {x0 : Dir} {x1 : Nat} {x2 : BandPath → BandPath} {s : State} (h : Only m s0 s) (k : 64 &&& m = 64) : Only m s0 (modBand x0 x1 x2 s) := by
  refine Only.lift h k ?_
  clear h k; have h := Only.refl 64 s
  unfold modBand
  exact (by split; exact (State_modCe_only h rfl); exact (State_modCe_only h rfl))

theorem modSlot_only {m : Nat} {s0 : State} {x0 : Nat} {x1 : Slot → Slot} {s : State} (h : Only m s0 s) (k : 1024 &&& m = 1024) : Only m s0 (modSlot x0 x1 s) := by
  refine Only.lift h k ?_
  clear h k; have h := Only.refl 1024 s
  unfold modSlot
  exact (State_modCl_only h rfl)

theorem writeResponse_only {m : Nat} {s0 : State} {x0 : Nat} {x1 : Req} {x2 : Status} {x3 : Nat} {x4 : List Byte} {s : State} (h : Only m s0 s) (k : 2 &&& m = 2) : Only m s0 (writeResponse x0 x1 x2 x3 x4 s) := by
  refine Only.lift h k ?_
  clear h k; have h := Only.refl 2 s
  unfold writeResponse
  exact (Only.ite (State_modHost_only h rfl) (Only.ite (complete_only (State_modHost_only h rfl) rfl) (State_modHost_only h rfl)))

theorem deliver_only {m : Nat} {s0 : State} {x0 : Req} {x1 : Status} {x2 : Nat} {x3 : List Byte} {s : State} (h : Only m s0 s) (k : 2 &&& m = 2) : Only m s0 (deliver x0 x1 x2 x3 s) := by
  refine Only.lift h k ?_
  clear h k; have h := Only.refl 2 s
  unfold deliver
  exact (by split; exact (writeResponse_only h rfl); exact (complete_only h rfl); exact (State_modHost_only h rfl))

theorem noteStart_only {m : Nat} {s0 : State} {x0 : Req} {s : State} (h : Only m s0 s) (k : 2 &&& m = 2) : Only m s0 (noteStart x0 s) := by
  refine Only.lift h k ?_
  clear h k; have h := Only.refl 2 s
  unfold noteStart
  exact (by split; exact (State_modHost_only h rfl); exact h)

theorem noteReject_only {m : Nat} {s0 : State} {x0 : Req} {s : State} (h : Only m s0 s) (k : 2 &&& m = 2) : Only m s0 (noteReject x0 s) := by
  refine Only.lift h k ?_
  clear h k; have h := Only.refl 2 s
  unfold noteReject
  exact (by split; exact (State_modHost_only h rfl); exact h)

theorem mirrorItem_only {m : Nat} {s0 : State} {x0 : PairItem} {s : State} (h : Only m s0 s) (k : 65536 &&& m = 65536) : Only m s0 (mirrorItem x0 s) := by
  refine Only.lift h k ?_
  clear h k; have h := Only.refl 65536 s
  unfold mirrorItem
  exact (Only.ite (State_modPair_only h rfl) h)

theorem mirrorCommand_only {m : Nat} {s0 : State} {x0 : Req} {s : State} (h : Only m s0 s) (k : 65536 &&& m = 65536) : Only m s0 (mirrorCommand x0 s) := by
  refine Only.lift h k ?_
  clear h k; have h := Only.refl 65536 s
  unfold mirrorCommand
  exact (Only.ite (mirrorItem_only (State_modPair_only h rfl) rfl) h)

/-- A command of the table touches at most these parts when it takes effect and when it is rejected. -/
def SpecOnly (m : Nat) (c : CommandSpec) : Prop :=
  (∀ s q, Only m s (c.effect s q).1) ∧ ∀ s q st, Only m s (c.reject s q st)
theorem SpecOnly.weaken {m n : Nat} {c : CommandSpec} (h : SpecOnly m c) (k : m &&& n = m) : SpecOnly n c :=
  ⟨fun s q => (h.1 s q).weaken k, fun s q st => (h.2 s q st).weaken k⟩
theorem runCommand_only {m n : Nat} {s0 : State} {c : CommandSpec} {q : Req} {s : State} (hc : SpecOnly n c) (h : Only m s0 s)
    (k1 : n &&& m = n) (k2 : 65536 &&& m = 65536) (k3 : 2 &&& m = 2) : Only m s0 (runCommand c q s) := by
  have h1 : Only m s0 (noteStart q s) := noteStart_only h k3
  unfold runCommand
  dsimp only
  split
  · exact deliver_only (noteReject_only (h1.trans ((hc.2 _ _ _).weaken k1)) k3) k3
  · have h2 := mirrorCommand_only (x0 := q) (h1.trans ((hc.1 (noteStart q s) q).weaken k1)) k2
    split
    · exact h2
    · exact deliver_only h2 k3

theorem runUnassigned_only {m : Nat} {s0 : State} {x0 : Req} {s : State} (h : Only m s0 s) (k : 2 &&& m = 2) : Only m s0 (runUnassigned x0 s) := by
  refine Only.lift h k ?_
  clear h k; have h := Only.refl 2 s
  unfold runUnassigned
  exact (deliver_only (noteReject_only (noteStart_only h rfl) rfl) rfl)

theorem finishKeeper_only {m : Nat} {s0 : State} {x0 : Ticket} {x1 : Status} {x2 : Nat} {x3 : List Byte} {s : State} (h : Only m s0 s) (k : 32770 &&& m = 32770) : Only m s0 (finishKeeper x0 x1 x2 x3 s) := by
  refine Only.lift h k ?_
  clear h k; have h := Only.refl 32770 s
  unfold finishKeeper
  exact (by split; exact (complete_only h rfl); exact (State_modBell_only h rfl))

theorem finishDeferred_only {m : Nat} {s0 : State} {x0 : Ticket} {x1 : Status} {x2 : Nat} {x3 : List Byte} {s : State} (h : Only m s0 s) (k : 32770 &&& m = 32770) : Only m s0 (finishDeferred x0 x1 x2 x3 s) := by
  refine Only.lift h k ?_
  clear h k; have h := Only.refl 32770 s
  unfold finishDeferred
  exact (Only.ite (complete_only h rfl) (Only.ite (finishKeeper_only h rfl) (by split; exact (writeResponse_only h rfl); exact h)))

theorem ignoreDoorbell_only {m : Nat} {s0 : State} {x0 : Nat} {s : State} (h : Only m s0 s) (k : 2 &&& m = 2) : Only m s0 (ignoreDoorbell x0 s) := by
  refine Only.lift h k ?_
  clear h k; have h := Only.refl 2 s
  unfold ignoreDoorbell
  exact (State_modHost_only h rfl)

theorem capture_only {m : Nat} {s0 : State} {x0 : Nat} {x1 : HostRequest} {s : State} (h : Only m s0 s) (k : 2 &&& m = 2) : Only m s0 (capture x0 x1 s) := by
  refine Only.lift h k ?_
  clear h k; have h := Only.refl 2 s
  unfold capture
  exact (State_modHost_only h rfl)

theorem unregister_only {m : Nat} {s0 : State} {x0 : Nat} {s : State} (h : Only m s0 s) (k : 2 &&& m = 2) : Only m s0 (unregister x0 s) := by
  refine Only.lift h k ?_
  clear h k; have h := Only.refl 2 s
  unfold unregister
  exact (State_modHost_only h rfl)

theorem submit_only {m n : Nat} {s0 : State} {c : CommandSpec} {r : HostRequest} {s : State} (hc : SpecOnly n c) (h : Only m s0 s)
    (k1 : n &&& m = n) (k2 : 65536 &&& m = 65536) (k3 : 2 &&& m = 2) : Only m s0 (submit c r s) := by
  unfold submit
  dsimp only
  split
  · split
    · exact ignoreDoorbell_only h k3
    · exact h
  · split
    · exact capture_only h k3
    · exact runCommand_only hc (unregister_only (capture_only h k3) k3) k1 k2 k3

theorem writeSubmission_only {m : Nat} {s0 : State} {x0 : Submission} {s : State} (h : Only m s0 s) (k : 8 &&& m = 8) : Only m s0 (writeSubmission x0 s).1 := by
  refine Only.lift h k ?_
  clear h k; have h := Only.refl 8 s
  unfold writeSubmission
  exact (Only.upd h (by intro p hp; cases p <;> first | rfl | exact absurd hp (by decide)))

theorem commitOne_only {m : Nat} {s0 : State} {s : State} {x1 : Submission} (h : Only m s0 s) (k : 32778 &&& m = 32778) : Only m s0 (commitOne s x1) := by
  refine Only.lift h k ?_
  clear h k; have h := Only.refl 32778 s
  unfold commitOne
  exact (by (try dsimp only); split; exact (finishDeferred_only (writeSubmission_only h rfl) rfl); exact (writeSubmission_only h rfl))

theorem drainSubmissions_only {m : Nat} {s0 : State} {s : State} (h : Only m s0 s) (k : 32778 &&& m = 32778) : Only m s0 (drainSubmissions s) := by
  refine Only.lift h k ?_
  clear h k; have h := Only.refl 32778 s
  unfold drainSubmissions
  exact (Only.ite h (Only.foldl (State_modLog_only h rfl) (fun _ _ h0 => (commitOne_only h0 rfl))))

theorem writeNow_only {m : Nat} {s0 : State} {x0 : Nat} {x1 : Nat} {x2 : Nat} {x3 : Nat} {x4 : List Nat} {s : State} (h : Only m s0 s) (k : 32778 &&& m = 32778) : Only m s0 (writeNow x0 x1 x2 x3 x4 s).1 := by
  refine Only.lift h k ?_
  clear h k; have h := Only.refl 32778 s
  unfold writeNow
  exact (writeSubmission_only (drainSubmissions_only h rfl) rfl)

theorem failBank_only {m : Nat} {s0 : State} {x0 : BankSel} {s : State} (h : Only m s0 s) (k : 12 &&& m = 12) : Only m s0 (failBank x0 s) := by
  refine Only.lift h k ?_
  clear h k; have h := Only.refl 12 s
  unfold failBank
  exact (Only.ite (raiseFault_only (Only.upd h (by intro p hp; cases p <;> first | rfl | exact absurd hp (by decide))) rfl) (State_modLog_only h rfl))

theorem recordCommit_only {m : Nat} {s0 : State} {s : State} (h : Only m s0 s) (k : 32778 &&& m = 32778) : Only m s0 (recordCommit s) := by
  refine Only.lift h k ?_
  clear h k; have h := Only.refl 32778 s
  unfold recordCommit
  exact (Only.ite h (by split; exact h; exact (commitOne_only (State_modLog_only h rfl) rfl)))

theorem mirrorWrite_only {m : Nat} {s0 : State} {x0 : Bool} {x1 : Bool} {s : State} (h : Only m s0 s) (k : 13 &&& m = 13) : Only m s0 (mirrorWrite x0 x1 s) := by
  refine Only.lift h k ?_
  clear h k; have h := Only.refl 13 s
  unfold mirrorWrite
  exact (by split; exact h; exact (by (try dsimp only); split; exact (State_modLog_only (Only.ite (advanceTo_only h rfl) h) rfl); exact (Only.ite (State_modLog_only (Only.ite (advanceTo_only h rfl) h) rfl) (Only.ite (State_modLog_only (Only.ite (advanceTo_only h rfl) h) rfl) (raiseFault_only (State_modLog_only (Only.ite (advanceTo_only h rfl) h) rfl) rfl)))))

theorem logBankScrub_only {m : Nat} {s0 : State} {x0 : Nat} {x1 : Bool} {x2 : Bool} {s : State} (h : Only m s0 s) (k : 12 &&& m = 12) : Only m s0 (logBankScrub x0 x1 x2 s) := by
  refine Only.lift h k ?_
  clear h k; have h := Only.refl 12 s
  unfold logBankScrub
  exact (Only.ite (failBank_only (Only.ite (failBank_only (State_modLog_only h rfl) rfl) (State_modLog_only h rfl)) rfl) (Only.ite (failBank_only (State_modLog_only h rfl) rfl) (State_modLog_only h rfl)))

theorem specLogMode_only : SpecOnly 32778 specLogMode := by
  constructor
  · intro s q
    have h := Only.refl 32778 s
    dsimp only [specLogMode]
    exact (submitLog_only (State_modLog_only (drainSubmissions_only h rfl) rfl) rfl)
  · intro s q st
    have h := Only.refl 32778 s
    dsimp only [specLogMode]
    exact h

theorem specLogRead_only : SpecOnly 0 specLogRead := by
  constructor
  · intro s q
    have h := Only.refl 0 s
    dsimp only [specLogRead]
    exact h
  · intro s q st
    have h := Only.refl 0 s
    dsimp only [specLogRead]
    exact h

theorem specLogClear_only : SpecOnly 8 specLogClear := by
  constructor
  · intro s q
    have h := Only.refl 8 s
    dsimp only [specLogClear]
    exact (State_modLog_only h rfl)
  · intro s q st
    have h := Only.refl 8 s
    dsimp only [specLogClear]
    exact h

theorem specLogMediaReset_only : SpecOnly 8 specLogMediaReset := by
  constructor
  · intro s q
    have h := Only.refl 8 s
    dsimp only [specLogMediaReset]
    exact (State_modLog_only h rfl)
  · intro s q st
    have h := Only.refl 8 s
    dsimp only [specLogMediaReset]
    exact h

theorem specLogWrite_only : SpecOnly 32778 specLogWrite := by
  constructor
  · intro s q
    have h := Only.refl 32778 s
    dsimp only [specLogWrite]
    exact (Only.ite1 (State_modLog_only h rfl) (writeNow_only h rfl))
  · intro s q st
    have h := Only.refl 32778 s
    dsimp only [specLogWrite]
    exact h

theorem specLogVerify_only : SpecOnly 8 specLogVerify := by
  constructor
  · intro s q
    have h := Only.refl 8 s
    dsimp only [specLogVerify]
    exact (State_modLog_only h rfl)
  · intro s q st
    have h := Only.refl 8 s
    dsimp only [specLogVerify]
    exact h

theorem logClearComplete_only {m : Nat} {s0 : State} {x0 : Bool} {s : State} (h : Only m s0 s) (k : 32778 &&& m = 32778) : Only m s0 (logClearComplete x0 s) := by
  refine Only.lift h k ?_
  clear h k; have h := Only.refl 32778 s
  unfold logClearComplete
  exact (by split; exact h; exact (Only.ite (complete_only (writeSubmission_only (State_modLog_only (drainSubmissions_only h rfl) rfl) rfl) rfl) (complete_only (State_modLog_only (drainSubmissions_only h rfl) rfl) rfl)))

theorem logMediaResetComplete_only {m : Nat} {s0 : State} {x0 : Bool} {x1 : Bool} {s : State} (h : Only m s0 s) (k : 14 &&& m = 14) : Only m s0 (logMediaResetComplete x0 x1 s) := by
  refine Only.lift h k ?_
  clear h k; have h := Only.refl 14 s
  unfold logMediaResetComplete
  exact (by split; exact h; exact (complete_only (Only.ite (endFault_only (Only.ite (State_modLog_only (Only.ite (State_modLog_only (State_modLog_only h rfl) rfl) (State_modLog_only h rfl)) rfl) (Only.ite (State_modLog_only (State_modLog_only h rfl) rfl) (State_modLog_only h rfl))) rfl) (Only.ite (State_modLog_only (Only.ite (State_modLog_only (State_modLog_only h rfl) rfl) (State_modLog_only h rfl)) rfl) (Only.ite (State_modLog_only (State_modLog_only h rfl) rfl) (State_modLog_only h rfl)))) rfl))

theorem logVerifyComplete_only {m : Nat} {s0 : State} {s : State} (h : Only m s0 s) (k : 10 &&& m = 10) : Only m s0 (logVerifyComplete s) := by
  refine Only.lift h k ?_
  clear h k; have h := Only.refl 10 s
  unfold logVerifyComplete
  exact (by split; exact h; exact (by (try dsimp only); split; exact (complete_only (State_modLog_only h rfl) rfl); exact (complete_only (State_modLog_only h rfl) rfl)))

end Sys2Proof.Machine
end

