-- ==== Sys2Proof/Laws/FramesRadio.lean ====
section
/-! SUPPORT. Frames of gain stacks, the RF complex, the channel engine and the loop guard: what each operation touches at most. -/

namespace Sys2Proof.Machine

open Sys2Proof

theorem refreshOne_only {m : Nat} {s0 : State} {s : State} {x1 : Nat × BandPath} (h : Only m s0 s) (k : 256 &&& m = 256) : Only m s0 (refreshOne s x1) := by
  refine Only.lift h k ?_
  clear h k; have h := Only.refl 256 s
  unfold refreshOne
  exact (State_modNp_only h rfl)

theorem modLoop_only {m : Nat} {s0 : State} {x0 : Nat} {x1 : Loop → Loop} {s : State} (h : Only m s0 s) (k : 128 &&& m = 128) : Only m s0 (modLoop x0 x1 s) := by
  refine Only.lift h k ?_
  clear h k; have h := Only.refl 128 s
  unfold modLoop
  exact (State_modLg_only h rfl)

theorem writeCap_only {m : Nat} {s0 : State} {x0 : Nat} {s : State} (h : Only m s0 s) (k : 256 &&& m = 256) : Only m s0 (writeCap x0 s) := by
  refine Only.lift h k ?_
  clear h k; have h := Only.refl 256 s
  unfold writeCap
  exact (by split; exact (State_modNp_only h rfl); exact (State_modNp_only h rfl))

theorem noteMargin_only {m : Nat} {s0 : State} {x0 : Nat} {x1 : Bool} {s : State} (h : Only m s0 s) (k : 132 &&& m = 132) : Only m s0 (noteMargin x0 x1 s) := by
  refine Only.lift h k ?_
  clear h k; have h := Only.refl 132 s
  unfold noteMargin
  exact (Only.ite (modLoop_only h rfl) (Only.ite (modLoop_only h rfl) (endFault_only (modLoop_only h rfl) rfl)))

theorem applyCap_only {m : Nat} {s0 : State} {x0 : Nat} {s : State} (h : Only m s0 s) (k : 260 &&& m = 260) : Only m s0 (applyCap x0 s) := by
  refine Only.lift h k ?_
  clear h k; have h := Only.refl 260 s
  unfold applyCap
  exact (Only.ite (raiseLevel_only (writeCap_only h rfl) rfl) (writeCap_only h rfl))

theorem evalLoop_only {m : Nat} {s0 : State} {x0 : Nat} {s : State} (h : Only m s0 s) (k : 388 &&& m = 388) : Only m s0 (evalLoop x0 s) := by
  refine Only.lift h k ?_
  clear h k; have h := Only.refl 388 s
  unfold evalLoop
  exact (by split; exact (Only.ite (writeCap_only h rfl) (by split; exact (Only.ite (applyCap_only (noteMargin_only (modLoop_only h rfl) rfl) rfl) (applyCap_only (noteMargin_only (Only.ite (modLoop_only h rfl) h) rfl) rfl)); exact (applyCap_only h rfl))); exact h)

theorem noteGap_only {m : Nat} {s0 : State} {s : State} {x1 : Nat × BandPath} (h : Only m s0 s) (k : 64 &&& m = 64) : Only m s0 (noteGap s x1) := by
  refine Only.lift h k ?_
  clear h k; have h := Only.refl 64 s
  unfold noteGap
  exact (Only.ite h (modBand_only h rfl))

theorem refreshGains_only {m : Nat} {s0 : State} {s : State} (h : Only m s0 s) (k : 452 &&& m = 452) : Only m s0 (refreshGains s) := by
  refine Only.lift h k ?_
  clear h k; have h := Only.refl 452 s
  unfold refreshGains
  exact (Only.foldl (Only.foldl (Only.foldl (Only.foldl h (fun _ _ h0 => (noteGap_only h0 rfl))) (fun _ _ h0 => (refreshOne_only h0 rfl))) (fun _ _ h0 => (evalLoop_only h0 rfl))) (fun _ _ h0 => (refreshOne_only h0 rfl)))

theorem writeBackoff_only {m : Nat} {s0 : State} {s : State} {x1 : Nat × BandPath} (h : Only m s0 s) (k : 256 &&& m = 256) : Only m s0 (writeBackoff s x1) := by
  refine Only.lift h k ?_
  clear h k; have h := Only.refl 256 s
  unfold writeBackoff
  exact (State_modNp_only h rfl)

theorem shareBackoff_only {m : Nat} {s0 : State} {s : State} (h : Only m s0 s) (k : 452 &&& m = 452) : Only m s0 (shareBackoff s) := by
  refine Only.lift h k ?_
  clear h k; have h := Only.refl 452 s
  unfold shareBackoff
  exact (refreshGains_only (Only.foldl (State_modNp_only h rfl) (fun _ _ h0 => (writeBackoff_only h0 rfl))) rfl)

theorem setBackoff_only {m : Nat} {s0 : State} {x0 : Backoff} {s : State} (h : Only m s0 s) (k : 452 &&& m = 452) : Only m s0 (setBackoff x0 s) := by
  refine Only.lift h k ?_
  clear h k; have h := Only.refl 452 s
  unfold setBackoff
  exact (shareBackoff_only (State_modNp_only h rfl) rfl)

theorem dropBackoffs_only {m : Nat} {s0 : State} {x0 : Backoff → Bool} {s : State} (h : Only m s0 s) (k : 452 &&& m = 452) : Only m s0 (dropBackoffs x0 s) := by
  refine Only.lift h k ?_
  clear h k; have h := Only.refl 452 s
  unfold dropBackoffs
  exact (shareBackoff_only (State_modNp_only h rfl) rfl)

theorem restartLoop_only {m : Nat} {s0 : State} {x0 : Nat} {x1 : Option QualMode} {x2 : Bool} {s : State} (h : Only m s0 s) (k : 388 &&& m = 388) : Only m s0 (restartLoop x0 x1 x2 s) := by
  refine Only.lift h k ?_
  clear h k; have h := Only.refl 388 s
  unfold restartLoop
  exact (by split; exact h; exact (writeCap_only (endFault_only (endFault_only (modLoop_only h rfl) rfl) rfl) rfl))

theorem createLoop_only {m : Nat} {s0 : State} {x0 : Nat} {s : State} (h : Only m s0 s) (k : 388 &&& m = 388) : Only m s0 (createLoop x0 s) := by
  refine Only.lift h k ?_
  clear h k; have h := Only.refl 388 s
  unfold createLoop
  exact (restartLoop_only (State_modLg_only h rfl) rfl)

theorem removeLoop_only {m : Nat} {s0 : State} {x0 : Nat} {s : State} (h : Only m s0 s) (k : 132 &&& m = 132) : Only m s0 (removeLoop x0 s) := by
  refine Only.lift h k ?_
  clear h k; have h := Only.refl 132 s
  unfold removeLoop
  exact (State_modLg_only (endFault_only (endFault_only h rfl) rfl) rfl)

theorem loopChanged_only {m : Nat} {s0 : State} {x0 : Nat} {s : State} (h : Only m s0 s) (k : 388 &&& m = 388) : Only m s0 (loopChanged x0 s) := by
  refine Only.lift h k ?_
  clear h k; have h := Only.refl 388 s
  unfold loopChanged
  exact (by split; exact h; exact (Only.ite h (restartLoop_only h rfl)))

theorem reviewClosure_only {m : Nat} {s0 : State} {x0 : Nat} {s : State} (h : Only m s0 s) (k : 388 &&& m = 388) : Only m s0 (reviewClosure x0 s) := by
  refine Only.lift h k ?_
  clear h k; have h := Only.refl 388 s
  unfold reviewClosure
  exact (by split; exact (Only.ite h (Only.ite h (restartLoop_only h rfl))); exact h)

theorem restartCancellers_only {m : Nat} {s0 : State} {x0 : Canceller → Bool} {s : State} (h : Only m s0 s) (k : 128 &&& m = 128) : Only m s0 (restartCancellers x0 s) := by
  refine Only.lift h k ?_
  clear h k; have h := Only.refl 128 s
  unfold restartCancellers
  exact (State_modLg_only h rfl)

theorem bandChanged_only {m : Nat} {s0 : State} {x0 : Dir} {x1 : Nat} {x2 : Bool} {s : State} (h : Only m s0 s) (k : 388 &&& m = 388) : Only m s0 (bandChanged x0 x1 x2 s) := by
  refine Only.lift h k ?_
  clear h k; have h := Only.refl 388 s
  unfold bandChanged
  exact (by split; exact (Only.ite (restartCancellers_only h rfl) (Only.foldl (restartCancellers_only h rfl) (fun _ _ h0 => (loopChanged_only h0 rfl)))); exact (Only.ite (restartCancellers_only h rfl) (loopChanged_only (restartCancellers_only h rfl) rfl)))

theorem applyChange_only {m : Nat} {s0 : State} {x0 : Dir} {x1 : Nat} {x2 : BpParams} {s : State} (h : Only m s0 s) (k : 452 &&& m = 452) : Only m s0 (applyChange x0 x1 x2 s) := by
  refine Only.lift h k ?_
  clear h k; have h := Only.refl 452 s
  unfold applyChange
  exact (by split; exact h; exact (bandChanged_only (modBand_only h rfl) rfl))

theorem startSettle_only {m : Nat} {s0 : State} {x0 : Dir} {x1 : Nat} {x2 : BpParams} {s : State} (h : Only m s0 s) (k : 452 &&& m = 452) : Only m s0 (startSettle x0 x1 x2 s) := by
  refine Only.lift h k ?_
  clear h k; have h := Only.refl 452 s
  unfold startSettle
  exact (by split; exact h; exact (by (try dsimp only); split; exact (applyChange_only (modBand_only h rfl) rfl); exact (applyChange_only (modBand_only h rfl) rfl); exact (modBand_only h rfl); exact (Only.ite (applyChange_only (modBand_only h rfl) rfl) (modBand_only h rfl)); exact (Only.ite (applyChange_only (modBand_only h rfl) rfl) (modBand_only h rfl))))

theorem fadeForChain_only {m : Nat} {s0 : State} {x0 : Nat} {s : State} (h : Only m s0 s) (k : 64 &&& m = 64) : Only m s0 (fadeForChain x0 s) := by
  refine Only.lift h k ?_
  clear h k; have h := Only.refl 64 s
  unfold fadeForChain
  exact (by split; exact h; exact (by split; exact (modBand_only h rfl); exact (modBand_only h rfl); exact (modBand_only h rfl); exact h))

theorem chainStops_only {m : Nat} {s0 : State} {x0 : Nat} {s : State} (h : Only m s0 s) (k : 452 &&& m = 452) : Only m s0 (chainStops x0 s) := by
  refine Only.lift h k ?_
  clear h k; have h := Only.refl 452 s
  unfold chainStops
  exact (refreshGains_only (Only.foldl h (fun _ _ h0 => (modBand_only (by split; exact (applyChange_only h0 rfl); exact h0) rfl))) rfl)

theorem chainDeliversAgain_only {m : Nat} {s0 : State} {x0 : Nat} {s : State} (h : Only m s0 s) (k : 452 &&& m = 452) : Only m s0 (chainDeliversAgain x0 s) := by
  refine Only.lift h k ?_
  clear h k; have h := Only.refl 452 s
  unfold chainDeliversAgain
  exact (refreshGains_only (Only.foldl h (fun _ _ h0 => (modBand_only h0 rfl))) rfl)

theorem fadeOutDone_only {m : Nat} {s0 : State} {x0 : Dir} {x1 : Nat} {s : State} (h : Only m s0 s) (k : 452 &&& m = 452) : Only m s0 (fadeOutDone x0 x1 s) := by
  refine Only.lift h k ?_
  clear h k; have h := Only.refl 452 s
  unfold fadeOutDone
  exact (by split; exact (by split; exact (refreshGains_only (applyChange_only h rfl) rfl); exact (refreshGains_only (modBand_only h rfl) rfl)); exact h)

theorem zerosDone_only {m : Nat} {s0 : State} {x0 : Dir} {x1 : Nat} {s : State} (h : Only m s0 s) (k : 454 &&& m = 454) : Only m s0 (zerosDone x0 x1 s) := by
  refine Only.lift h k ?_
  clear h k; have h := Only.refl 454 s
  unfold zerosDone
  exact (by split; exact h; exact (by split; exact (modBand_only h rfl); exact (postNotice_only (refreshGains_only (modBand_only h rfl) rfl) rfl)))

theorem fadeInDone_only {m : Nat} {s0 : State} {x0 : Nat} {s : State} (h : Only m s0 s) (k : 454 &&& m = 454) : Only m s0 (fadeInDone x0 s) := by
  refine Only.lift h k ?_
  clear h k; have h := Only.refl 454 s
  unfold fadeInDone
  exact (postNotice_only (refreshGains_only (modBand_only h rfl) rfl) rfl)

theorem realign_only {m : Nat} {s0 : State} {x0 : Dir} {x1 : Nat} {s : State} (h : Only m s0 s) (k : 452 &&& m = 452) : Only m s0 (realign x0 x1 s) := by
  refine Only.lift h k ?_
  clear h k; have h := Only.refl 452 s
  unfold realign
  exact (by split; exact (startSettle_only h rfl); exact h)

theorem realignNow_only {m : Nat} {s0 : State} {x0 : Dir} {x1 : Nat} {s : State} (h : Only m s0 s) (k : 452 &&& m = 452) : Only m s0 (realignNow x0 x1 s) := by
  refine Only.lift h k ?_
  clear h k; have h := Only.refl 452 s
  unfold realignNow
  exact (Only.ite (fadeOutDone_only (Only.ite h (realign_only h rfl)) rfl) (Only.ite h (realign_only h rfl)))

theorem realignFade_only {m : Nat} {s0 : State} {x0 : Dir} {x1 : Nat} {s : State} (h : Only m s0 s) (k : 452 &&& m = 452) : Only m s0 (realignFade x0 x1 s) := by
  refine Only.lift h k ?_
  clear h k; have h := Only.refl 452 s
  unfold realignFade
  exact (by split; exact (Only.ite (refreshGains_only (realign_only h rfl) rfl) h); exact h)

theorem fadeTowards_only {m : Nat} {s0 : State} {x0 : Nat} {x1 : List (Dir × Nat)} {s : State} (h : Only m s0 s) (k : 453 &&& m = 453) : Only m s0 (fadeTowards x0 x1 s) := by
  refine Only.lift h k ?_
  clear h k; have h := Only.refl 453 s
  unfold fadeTowards
  exact (Only.foldl h (fun _ _ h0 => (realignFade_only (advanceTo_only h0 rfl) rfl)))

theorem markStep_only {m : Nat} {s0 : State} {x0 : Nat} {s : State} (h : Only m s0 s) (k : 64 &&& m = 64) : Only m s0 (markStep x0 s) := by
  refine Only.lift h k ?_
  clear h k; have h := Only.refl 64 s
  unfold markStep
  exact (Only.foldl h (fun _ _ h0 => (modBand_only h0 rfl)))

theorem tapSlots_only {m : Nat} {s0 : State} {x0 : Bool} {x1 : Nat} {x2 : CapSource → Bool} {x3 : CapSlot → CapSource → CapTrack → CapTrack} {s : State} (h : Only m s0 s) (k : 16384 &&& m = 16384) : Only m s0 (tapSlots x0 x1 x2 x3 s) := by
  refine Only.lift h k ?_
  clear h k; have h := Only.refl 16384 s
  unfold tapSlots
  exact (State_modMem_only h rfl)

theorem tapBlock_only {m : Nat} {s0 : State} {x0 : Bool} {x1 : Nat} {x2 : Nat} {x3 : Block} {s : State} (h : Only m s0 s) (k : 16384 &&& m = 16384) : Only m s0 (tapBlock x0 x1 x2 x3 s) := by
  refine Only.lift h k ?_
  clear h k; have h := Only.refl 16384 s
  unfold tapBlock
  exact (tapSlots_only h rfl)

theorem tapRaw_only {m : Nat} {s0 : State} {x0 : Nat} {x1 : Nat} {x2 : List Cx} {s : State} (h : Only m s0 s) (k : 16384 &&& m = 16384) : Only m s0 (tapRaw x0 x1 x2 s) := by
  refine Only.lift h k ?_
  clear h k; have h := Only.refl 16384 s
  unfold tapRaw
  exact (tapSlots_only h rfl)

theorem modDesc_only {m : Nat} {s0 : State} {x0 : Nat} {x1 : Descriptor → Descriptor} {s : State} (h : Only m s0 s) (k : 8192 &&& m = 8192) : Only m s0 (modDesc x0 x1 s) := by
  refine Only.lift h k ?_
  clear h k; have h := Only.refl 8192 s
  unfold modDesc
  exact (State_modDv_only h rfl)

theorem emitBlocks_only {m : Nat} {s0 : State} {x0 : Nat} {x1 : Nat} {x2 : List Block} {s : State} (h : Only m s0 s) (k : 397312 &&& m = 397312) : Only m s0 (emitBlocks x0 x1 x2 s) := by
  refine Only.lift h k ?_
  clear h k; have h := Only.refl 397312 s
  unfold emitBlocks
  exact (Only.foldl h (fun _ _ h0 => (Only.foldl h0 (fun _ _ h1 => (emitFlit_only h1 rfl)))))

theorem flushGroup_only {m : Nat} {s0 : State} {x0 : Nat} {s : State} (h : Only m s0 s) (k : 405504 &&& m = 405504) : Only m s0 (flushGroup x0 s) := by
  refine Only.lift h k ?_
  clear h k; have h := Only.refl 405504 s
  unfold flushGroup
  exact (by split; exact h; exact (modDesc_only (emitBlocks_only h rfl) rfl))

theorem sendGrouped_only {m : Nat} {s0 : State} {x0 : Nat} {x1 : Placement} {x2 : Block} {s : State} (h : Only m s0 s) (k : 405504 &&& m = 405504) : Only m s0 (sendGrouped x0 x1 x2 s) := by
  refine Only.lift h k ?_
  clear h k; have h := Only.refl 405504 s
  unfold sendGrouped
  exact (Only.ite h (Only.ite (flushGroup_only (modDesc_only (Only.ite (flushGroup_only h rfl) h) rfl) rfl) (modDesc_only (Only.ite (flushGroup_only h rfl) h) rfl)))

theorem pushRefs_only {m : Nat} {s0 : State} {x0 : Canceller → Bool} {x1 : Nat} {x2 : Canceller → AirInstant} {x3 : List (Cx × Bool)} {s : State} (h : Only m s0 s) (k : 128 &&& m = 128) : Only m s0 (pushRefs x0 x1 x2 x3 s) := by
  refine Only.lift h k ?_
  clear h k; have h := Only.refl 128 s
  unfold pushRefs
  exact (State_modLg_only h rfl)

theorem egressBlock_only {m : Nat} {s0 : State} {x0 : Nat} {x1 : AirInstant} {x2 : Block} {s : State} (h : Only m s0 s) (k : 16576 &&& m = 16576) : Only m s0 (egressBlock x0 x1 x2 s) := by
  refine Only.lift h k ?_
  clear h k; have h := Only.refl 16576 s
  unfold egressBlock
  exact (by split; exact h; exact (tapBlock_only (pushRefs_only (modBand_only h rfl) rfl) rfl))

theorem notePatterns_only {m : Nat} {s0 : State} {x0 : Nat} {x1 : Nat} {x2 : List (AirInstant × Cx)} {s : State} (h : Only m s0 s) (k : 1 &&& m = 1) : Only m s0 (notePatterns x0 x1 x2 s) := by
  refine Only.lift h k ?_
  clear h k; have h := Only.refl 1 s
  unfold notePatterns
  exact (State_modAir_only h rfl)

theorem sendOwn_only {m : Nat} {s0 : State} {x0 : Nat} {x1 : Nat} {x2 : Block} {s : State} {x4 : Nat} (h : Only m s0 s) (k : 405632 &&& m = 405632) : Only m s0 (sendOwn x0 x1 x2 s x4) := by
  refine Only.lift h k ?_
  clear h k; have h := Only.refl 405632 s
  unfold sendOwn
  exact (pushRefs_only (Only.ite (modDesc_only (modDesc_only h rfl) rfl) (sendGrouped_only (modDesc_only h rfl) rfl)) rfl)

theorem passOn_only {m : Nat} {s0 : State} {x0 : Nat} {x1 : BandPath} {x2 : Block} {s : State} (h : Only m s0 s) (k : 422080 &&& m = 422080) : Only m s0 (passOn x0 x1 x2 s) := by
  refine Only.lift h k ?_
  clear h k; have h := Only.refl 422080 s
  unfold passOn
  exact (Only.foldl (Only.foldl h (fun _ _ h0 => (sendOwn_only h0 rfl))) (fun _ _ h0 => (by split; exact (egressBlock_only h0 rfl); exact h0)))

theorem ingressBlock_only {m : Nat} {s0 : State} {x0 : Nat} {s : State} {x2 : RawBlock} (h : Only m s0 s) (k : 422337 &&& m = 422337) : Only m s0 (ingressBlock x0 s x2) := by
  refine Only.lift h k ?_
  clear h k; have h := Only.refl 422337 s
  unfold ingressBlock
  exact (by split; exact h; exact (by (try dsimp only); split; exact (State_modNp_only (tapBlock_only (Only.ite (notePatterns_only (modBand_only (by split; exact (State_modLg_only h rfl); exact h) rfl) rfl) (modBand_only (by split; exact (State_modLg_only h rfl); exact h) rfl)) rfl) rfl); exact (passOn_only (tapBlock_only (Only.ite (notePatterns_only (modBand_only (by split; exact (State_modLg_only h rfl); exact h) rfl) rfl) (modBand_only (by split; exact (State_modLg_only h rfl); exact h) rfl)) rfl) rfl)))

theorem feed_only {m : Nat} {s0 : State} {x0 : Nat} {x1 : List RawBlock} {s : State} (h : Only m s0 s) (k : 422337 &&& m = 422337) : Only m s0 (feed x0 x1 s) := by
  refine Only.lift h k ?_
  clear h k; have h := Only.refl 422337 s
  unfold feed
  exact (Only.foldl h (fun _ _ h0 => (ingressBlock_only h0 rfl)))

theorem releaseHeld_only {m : Nat} {s0 : State} {x0 : Nat} {x1 : Nat} {x2 : AirInstant} {s : State} (h : Only m s0 s) (k : 422336 &&& m = 422336) : Only m s0 (releaseHeld x0 x1 x2 s) := by
  refine Only.lift h k ?_
  clear h k; have h := Only.refl 422336 s
  unfold releaseHeld
  exact (by split; exact (Only.foldl (State_modNp_only h rfl) (fun _ _ h0 => (passOn_only h0 rfl))); exact h)

theorem advanceToSymbol_only {m : Nat} {s0 : State} {x0 : Nat} {x1 : Nat} {s : State} (h : Only m s0 s) (k : 1 &&& m = 1) : Only m s0 (advanceToSymbol x0 x1 s) := by
  refine Only.lift h k ?_
  clear h k; have h := Only.refl 1 s
  unfold advanceToSymbol
  exact (State_modAir_only (advanceToAir_only h rfl) rfl)

theorem noteOpen_only {m : Nat} {s0 : State} {x0 : ℤ} {s : State} {x2 : Nat} (h : Only m s0 s) (k : 256 &&& m = 256) : Only m s0 (noteOpen x0 s x2) := by
  refine Only.lift h k ?_
  clear h k; have h := Only.refl 256 s
  unfold noteOpen
  exact (State_modNp_only h rfl)

theorem gateDecides_only {m : Nat} {s0 : State} {x0 : Nat} {x1 : Nat} {x2 : BandPath} {x3 : AirInstant} {x4 : AirInstant} {x5 : Option ℤ} {s : State} (h : Only m s0 s) (k : 422336 &&& m = 422336) : Only m s0 (gateDecides x0 x1 x2 x3 x4 x5 s) := by
  refine Only.lift h k ?_
  clear h k; have h := Only.refl 422336 s
  unfold gateDecides
  exact (by split; exact h; exact (Only.ite (Only.foldl (releaseHeld_only (State_modNp_only h rfl) rfl) (fun _ _ h0 => (noteOpen_only h0 rfl))) (releaseHeld_only (State_modNp_only h rfl) rfl)))

theorem symbolBoundary_only {m : Nat} {s0 : State} {x0 : Dir} {x1 : Nat} {x2 : List RawBlock} {s : State} (h : Only m s0 s) (k : 422337 &&& m = 422337) : Only m s0 (symbolBoundary x0 x1 x2 s) := by
  refine Only.lift h k ?_
  clear h k; have h := Only.refl 422337 s
  unfold symbolBoundary
  exact (by split; exact h; exact (by (try dsimp only); split; exact (Only.ite (feed_only (advanceToSymbol_only h rfl) rfl) (advanceToSymbol_only h rfl)); exact (Only.ite (gateDecides_only (modBand_only (Only.ite (feed_only (advanceToSymbol_only h rfl) rfl) (advanceToSymbol_only h rfl)) rfl) rfl) (modBand_only (Only.ite (feed_only (advanceToSymbol_only h rfl) rfl) (advanceToSymbol_only h rfl)) rfl))))

theorem noiseWindowFilled_only {m : Nat} {s0 : State} {x0 : Nat} {s : State} (h : Only m s0 s) (k : 256 &&& m = 256) : Only m s0 (noiseWindowFilled x0 s) := by
  refine Only.lift h k ?_
  clear h k; have h := Only.refl 256 s
  unfold noiseWindowFilled
  exact (by split; exact (Only.ite (State_modNp_only h rfl) h); exact h)

theorem restartGate_only {m : Nat} {s0 : State} {x0 : Nat} {s : State} (h : Only m s0 s) (k : 256 &&& m = 256) : Only m s0 (restartGate x0 s) := by
  refine Only.lift h k ?_
  clear h k; have h := Only.refl 256 s
  unfold restartGate
  exact (State_modNp_only h rfl)

theorem noiseWindow_only {m : Nat} {s0 : State} {x0 : Nat} {x1 : List (List Nat)} {s : State} (h : Only m s0 s) (k : 256 &&& m = 256) : Only m s0 (noiseWindow x0 x1 s) := by
  refine Only.lift h k ?_
  clear h k; have h := Only.refl 256 s
  unfold noiseWindow
  exact (Only.ite h (by (try dsimp only); split; exact (State_modNp_only h rfl); exact (State_modNp_only h rfl)))

theorem noiseTick_only {m : Nat} {s0 : State} {s : State} {x1 : Nat} (h : Only m s0 s) (k : 260 &&& m = 260) : Only m s0 (noiseTick s x1) := by
  refine Only.lift h k ?_
  clear h k; have h := Only.refl 260 s
  unfold noiseTick
  exact (Only.ite h (Only.ite (State_modNp_only h rfl) (endFault_only (State_modNp_only h rfl) rfl)))

theorem ulNoiseRiseTimeout_only {m : Nat} {s0 : State} {x0 : Nat} {s : State} (h : Only m s0 s) (k : 261 &&& m = 261) : Only m s0 (ulNoiseRiseTimeout x0 s) := by
  refine Only.lift h k ?_
  clear h k; have h := Only.refl 261 s
  unfold ulNoiseRiseTimeout
  exact (by split; exact h; exact (raiseFault_only (State_modNp_only (advanceTo_only h rfl) rfl) rfl))

theorem noiseBackoff_only {m : Nat} {s0 : State} {x0 : Nat} {x1 : Bool} {s : State} (h : Only m s0 s) (k : 256 &&& m = 256) : Only m s0 (noiseBackoff x0 x1 s) := by
  refine Only.lift h k ?_
  clear h k; have h := Only.refl 256 s
  unfold noiseBackoff
  exact (State_modNp_only h rfl)

theorem raiseGates_only {m : Nat} {s0 : State} {x0 : List (Nat × ℤ)} {s : State} (h : Only m s0 s) (k : 256 &&& m = 256) : Only m s0 (raiseGates x0 s) := by
  refine Only.lift h k ?_
  clear h k; have h := Only.refl 256 s
  unfold raiseGates
  exact (State_modNp_only h rfl)

theorem donorTick_only {m : Nat} {s0 : State} {s : State} {x1 : Nat} (h : Only m s0 s) (k : 260 &&& m = 260) : Only m s0 (donorTick s x1) := by
  refine Only.lift h k ?_
  clear h k; have h := Only.refl 260 s
  unfold donorTick
  exact (by (try dsimp only); split; exact (Only.ite h (Only.ite (State_modNp_only h rfl) (endFault_only (State_modNp_only h rfl) rfl))); exact h)

theorem donorLossTimeout_only {m : Nat} {s0 : State} {x0 : Nat} {s : State} (h : Only m s0 s) (k : 261 &&& m = 261) : Only m s0 (donorLossTimeout x0 s) := by
  refine Only.lift h k ?_
  clear h k; have h := Only.refl 261 s
  unfold donorLossTimeout
  exact (by (try dsimp only); split; exact h; exact (Only.ite h (raiseLevel_only (State_modNp_only (advanceTo_only h rfl) rfl) rfl)))

theorem donorRecovery_only {m : Nat} {s0 : State} {x0 : Nat} {s : State} (h : Only m s0 s) (k : 261 &&& m = 261) : Only m s0 (donorRecovery x0 s) := by
  refine Only.lift h k ?_
  clear h k; have h := Only.refl 261 s
  unfold donorRecovery
  exact (by (try dsimp only); split; exact h; exact (Only.ite (endFault_only (State_modNp_only (advanceTo_only h rfl) rfl) rfl) h))

theorem donorOverloadDetect_only {m : Nat} {s0 : State} {x0 : Nat} {s : State} (h : Only m s0 s) (k : 260 &&& m = 260) : Only m s0 (donorOverloadDetect x0 s) := by
  refine Only.lift h k ?_
  clear h k; have h := Only.refl 260 s
  unfold donorOverloadDetect
  exact (Only.ite (raiseLevel_only (State_modNp_only h rfl) rfl) h)

theorem donorMute_only {m : Nat} {s0 : State} {x0 : Nat} {x1 : Bool} {s : State} (h : Only m s0 s) (k : 452 &&& m = 452) : Only m s0 (donorMute x0 x1 s) := by
  refine Only.lift h k ?_
  clear h k; have h := Only.refl 452 s
  unfold donorMute
  exact (refreshGains_only (State_modNp_only h rfl) rfl)

theorem preBackoff_only {m : Nat} {s0 : State} {x0 : BackoffCause} {x1 : Nat} {x2 : Nat} {s : State} (h : Only m s0 s) (k : 452 &&& m = 452) : Only m s0 (preBackoff x0 x1 x2 s) := by
  refine Only.lift h k ?_
  clear h k; have h := Only.refl 452 s
  unfold preBackoff
  exact (setBackoff_only h rfl)

theorem outputMeasured_only {m : Nat} {s0 : State} {x0 : Nat} {x1 : ℤ} {s : State} (h : Only m s0 s) (k : 452 &&& m = 452) : Only m s0 (outputMeasured x0 x1 s) := by
  refine Only.lift h k ?_
  clear h k; have h := Only.refl 452 s
  unfold outputMeasured
  exact (Only.ite (State_modNp_only h rfl) (Only.ite (raiseLevel_only (Only.ite (preBackoff_only (State_modNp_only h rfl) rfl) (Only.ite (preBackoff_only (State_modNp_only h rfl) rfl) (State_modNp_only h rfl))) rfl) (endFault_only (Only.ite (preBackoff_only (State_modNp_only h rfl) rfl) (Only.ite (preBackoff_only (State_modNp_only h rfl) rfl) (State_modNp_only h rfl))) rfl)))

theorem aclrMeasured_only {m : Nat} {s0 : State} {x0 : Nat} {x1 : ℤ} {s : State} (h : Only m s0 s) (k : 452 &&& m = 452) : Only m s0 (aclrMeasured x0 x1 s) := by
  refine Only.lift h k ?_
  clear h k; have h := Only.refl 452 s
  unfold aclrMeasured
  exact (Only.ite (State_modNp_only h rfl) (Only.ite (raiseLevel_only (preBackoff_only (State_modNp_only h rfl) rfl) rfl) (Only.ite (endFault_only (preBackoff_only (State_modNp_only h rfl) rfl) rfl) (preBackoff_only (State_modNp_only h rfl) rfl))))

theorem specGsSetGain_only : SpecOnly 452 specGsSetGain := by
  constructor
  · intro s q
    have h := Only.refl 452 s
    dsimp only [specGsSetGain]
    exact (refreshGains_only (State_modNp_only h rfl) rfl)
  · intro s q st
    have h := Only.refl 452 s
    dsimp only [specGsSetGain]
    exact h

theorem specGsMute_only : SpecOnly 452 specGsMute := by
  constructor
  · intro s q
    have h := Only.refl 452 s
    dsimp only [specGsMute]
    exact (refreshGains_only (State_modNp_only h rfl) rfl)
  · intro s q st
    have h := Only.refl 452 s
    dsimp only [specGsMute]
    exact h

theorem specNpBackoffSet_only : SpecOnly 452 specNpBackoffSet := by
  constructor
  · intro s q
    have h := Only.refl 452 s
    dsimp only [specNpBackoffSet]
    exact (setBackoff_only h rfl)
  · intro s q st
    have h := Only.refl 452 s
    dsimp only [specNpBackoffSet]
    exact h

theorem specNpPolicy_only : SpecOnly 452 specNpPolicy := by
  constructor
  · intro s q
    have h := Only.refl 452 s
    dsimp only [specNpPolicy]
    exact (shareBackoff_only (State_modNp_only h rfl) rfl)
  · intro s q st
    have h := Only.refl 452 s
    dsimp only [specNpPolicy]
    exact h

theorem specUlGateConfig_only : SpecOnly 256 specUlGateConfig := by
  constructor
  · intro s q
    have h := Only.refl 256 s
    dsimp only [specUlGateConfig]
    exact (Only.ite (State_modNp_only h rfl) (restartGate_only (State_modNp_only h rfl) rfl))
  · intro s q st
    have h := Only.refl 256 s
    dsimp only [specUlGateConfig]
    exact h

theorem specUlNoiseConfig_only : SpecOnly 452 specUlNoiseConfig := by
  constructor
  · intro s q
    have h := Only.refl 452 s
    dsimp only [specUlNoiseConfig]
    exact (refreshGains_only (Only.ite (State_modNp_only h rfl) (endFault_only (State_modNp_only h rfl) rfl)) rfl)
  · intro s q st
    have h := Only.refl 452 s
    dsimp only [specUlNoiseConfig]
    exact h

theorem specNpDonorConfig_only : SpecOnly 260 specNpDonorConfig := by
  constructor
  · intro s q
    have h := Only.refl 260 s
    dsimp only [specNpDonorConfig]
    exact (Only.ite1 (State_modNp_only h rfl) (endFault_only (endFault_only (State_modNp_only h rfl) rfl) rfl))
  · intro s q st
    have h := Only.refl 260 s
    dsimp only [specNpDonorConfig]
    exact h

theorem specNpOutputConfig_only : SpecOnly 452 specNpOutputConfig := by
  constructor
  · intro s q
    have h := Only.refl 452 s
    dsimp only [specNpOutputConfig]
    exact (Only.ite (State_modNp_only h rfl) (endFault_only (endFault_only (preBackoff_only (preBackoff_only (State_modNp_only h rfl) rfl) rfl) rfl) rfl))
  · intro s q st
    have h := Only.refl 452 s
    dsimp only [specNpOutputConfig]
    exact h

theorem modChain_only {m : Nat} {s0 : State} {x0 : Nat} {x1 : Chain → Chain} {s : State} (h : Only m s0 s) (k : 32 &&& m = 32) : Only m s0 (modChain x0 x1 s) := by
  refine Only.lift h k ?_
  clear h k; have h := Only.refl 32 s
  unfold modChain
  exact (State_modRf_only h rfl)

theorem applyAtten_only {m : Nat} {s0 : State} {x0 : Nat} {x1 : Nat} {s : State} (h : Only m s0 s) (k : 96 &&& m = 96) : Only m s0 (applyAtten x0 x1 s) := by
  refine Only.lift h k ?_
  clear h k; have h := Only.refl 96 s
  unfold applyAtten
  exact (markStep_only (modChain_only h rfl) rfl)

theorem requestAtten_only {m : Nat} {s0 : State} {x0 : Nat} {x1 : Nat} {s : State} (h : Only m s0 s) (k : 96 &&& m = 96) : Only m s0 (requestAtten x0 x1 s).1 := by
  refine Only.lift h k ?_
  clear h k; have h := Only.refl 96 s
  unfold requestAtten
  exact (Only.ite1 (modChain_only h rfl) (by split; exact (Only.ite1 (modChain_only h rfl) (applyAtten_only h rfl)); exact (applyAtten_only h rfl)))

theorem attenDeferredApply_only {m : Nat} {s0 : State} {x0 : Nat} {s : State} (h : Only m s0 s) (k : 97 &&& m = 97) : Only m s0 (attenDeferredApply x0 s) := by
  refine Only.lift h k ?_
  clear h k; have h := Only.refl 97 s
  unfold attenDeferredApply
  exact (by (try dsimp only); split; exact (applyAtten_only (advanceTo_only h rfl) rfl); exact h)

theorem startOp_only {m : Nat} {s0 : State} {x0 : Nat} {x1 : RfOp} {s : State} (h : Only m s0 s) (k : 484 &&& m = 484) : Only m s0 (startOp x0 x1 s) := by
  refine Only.lift h k ?_
  clear h k; have h := Only.refl 484 s
  unfold startOp
  exact (Only.ite (chainStops_only (State_modRf_only h rfl) rfl) (refreshGains_only (State_modRf_only h rfl) rfl))

theorem beginOp_only {m : Nat} {s0 : State} {x0 : Nat} {x1 : RfOp} {s : State} (h : Only m s0 s) (k : 484 &&& m = 484) : Only m s0 (beginOp x0 x1 s) := by
  refine Only.lift h k ?_
  clear h k; have h := Only.refl 484 s
  unfold beginOp
  exact (Only.ite (Only.ite (Only.ite (startOp_only (Only.foldl (modChain_only h rfl) (fun _ _ h0 => (fadeForChain_only h0 rfl))) rfl) (refreshGains_only (Only.foldl (modChain_only h rfl) (fun _ _ h0 => (fadeForChain_only h0 rfl))) rfl)) (Only.ite (startOp_only (refreshGains_only (modChain_only h rfl) rfl) rfl) (refreshGains_only (modChain_only h rfl) rfl))) (startOp_only h rfl))

theorem bandsRetuned_only {m : Nat} {s0 : State} {x0 : Nat} {s : State} (h : Only m s0 s) (k : 452 &&& m = 452) : Only m s0 (bandsRetuned x0 s) := by
  refine Only.lift h k ?_
  clear h k; have h := Only.refl 452 s
  unfold bandsRetuned
  exact (Only.ite (Only.foldl h (fun _ _ h0 => (bandChanged_only h0 rfl))) (Only.foldl h (fun _ _ h0 => (bandChanged_only (by split; exact (startSettle_only h0 rfl); exact h0) rfl))))

theorem takeStored_only {m : Nat} {s0 : State} {x0 : Nat} {s : State} (h : Only m s0 s) (k : 32 &&& m = 32) : Only m s0 (takeStored x0 s) := by
  refine Only.lift h k ?_
  clear h k; have h := Only.refl 32 s
  unfold takeStored
  exact (modChain_only h rfl)

theorem becomeActive_only {m : Nat} {s0 : State} {x0 : Nat} {s : State} (h : Only m s0 s) (k : 486 &&& m = 486) : Only m s0 (becomeActive x0 s) := by
  refine Only.lift h k ?_
  clear h k; have h := Only.refl 486 s
  unfold becomeActive
  exact (Only.foldl (Only.ite (Only.ite (modChain_only h rfl) (chainDeliversAgain_only (takeStored_only (modChain_only h rfl) rfl) rfl)) (refreshGains_only (modChain_only h rfl) rfl)) (fun _ _ h0 => (complete_only h0 rfl)))

theorem powerDown_only {m : Nat} {s0 : State} {x0 : Nat} {s : State} (h : Only m s0 s) (k : 486 &&& m = 486) : Only m s0 (powerDown x0 s) := by
  refine Only.lift h k ?_
  clear h k; have h := Only.refl 486 s
  unfold powerDown
  exact (endFault_only (Only.ite (chainStops_only (completeOpt_only (Only.foldl (State_modRf_only h rfl) (fun _ _ h0 => (complete_only h0 rfl))) rfl) rfl) (refreshGains_only (completeOpt_only (Only.foldl (State_modRf_only h rfl) (fun _ _ h0 => (complete_only h0 rfl))) rfl) rfl)) rfl)

theorem dropHeld_only {m : Nat} {s0 : State} {x0 : Nat} {x1 : Status} {s : State} (h : Only m s0 s) (k : 34 &&& m = 34) : Only m s0 (dropHeld x0 x1 s) := by
  refine Only.lift h k ?_
  clear h k; have h := Only.refl 34 s
  unfold dropHeld
  exact (Only.foldl (by split; exact (complete_only (modChain_only h rfl) rfl); exact (complete_only (modChain_only h rfl) rfl); exact (modChain_only h rfl)) (fun _ _ h0 => (complete_only h0 rfl)))

theorem cancelHeld_only {m : Nat} {s0 : State} {x0 : Nat} {s : State} (h : Only m s0 s) (k : 34 &&& m = 34) : Only m s0 (cancelHeld x0 s) := by
  refine Only.lift h k ?_
  clear h k; have h := Only.refl 34 s
  unfold cancelHeld
  exact (dropHeld_only h rfl)

theorem finishOff_only {m : Nat} {s0 : State} {x0 : Nat} {s : State} (h : Only m s0 s) (k : 486 &&& m = 486) : Only m s0 (finishOff x0 s) := by
  refine Only.lift h k ?_
  clear h k; have h := Only.refl 486 s
  unfold finishOff
  exact (Only.ite (powerDown_only h rfl) h)

theorem startConfig_only {m : Nat} {s0 : State} {x0 : Nat} {x1 : RfWindow} {x2 : Nat} {x3 : Ticket} {s : State} (h : Only m s0 s) (k : 486 &&& m = 486) : Only m s0 (startConfig x0 x1 x2 x3 s) := by
  refine Only.lift h k ?_
  clear h k; have h := Only.refl 486 s
  unfold startConfig
  exact (Only.ite (complete_only (modChain_only (Only.ite (requestAtten_only h rfl) h) rfl) rfl) (beginOp_only (bandsRetuned_only (modChain_only (Only.ite (requestAtten_only h rfl) h) rfl) rfl) rfl))

theorem recheckDpd_only {m : Nat} {s0 : State} {x0 : Nat} {s : State} (h : Only m s0 s) (k : 64 &&& m = 64) : Only m s0 (recheckDpd x0 s) := by
  refine Only.lift h k ?_
  clear h k; have h := Only.refl 64 s
  unfold recheckDpd
  exact (Only.ite h (State_modCe_only h rfl))

theorem startFromOff_only {m : Nat} {s0 : State} {x0 : Nat} {x1 : RfWindow} {x2 : Nat} {x3 : Option Ticket} {s : State} (h : Only m s0 s) (k : 484 &&& m = 484) : Only m s0 (startFromOff x0 x1 x2 x3 s) := by
  refine Only.lift h k ?_
  clear h k; have h := Only.refl 484 s
  unfold startFromOff
  exact (Only.ite (startOp_only (modChain_only (recheckDpd_only h rfl) rfl) rfl) (Only.ite (modChain_only (modChain_only (recheckDpd_only h rfl) rfl) rfl) (startOp_only (modChain_only (recheckDpd_only h rfl) rfl) rfl)))

theorem lockDeclared_only {m : Nat} {s0 : State} {x0 : Nat} {x1 : Nat} {s : State} (h : Only m s0 s) (k : 486 &&& m = 486) : Only m s0 (lockDeclared x0 x1 s) := by
  refine Only.lift h k ?_
  clear h k; have h := Only.refl 486 s
  unfold lockDeclared
  exact (by (try dsimp only); split; exact h; exact (Only.ite (becomeActive_only (Only.foldl (endFault_only (completeOpt_only (State_modRf_only h rfl) rfl) rfl) (fun _ _ h0 => (complete_only h0 rfl))) rfl) (refreshGains_only (Only.foldl (endFault_only (completeOpt_only (State_modRf_only h rfl) rfl) rfl) (fun _ _ h0 => (complete_only h0 rfl))) rfl)))

theorem synthLock_only {m : Nat} {s0 : State} {x0 : Nat} {x1 : Nat} {s : State} (h : Only m s0 s) (k : 487 &&& m = 487) : Only m s0 (synthLock x0 x1 s) := by
  refine Only.lift h k ?_
  clear h k; have h := Only.refl 487 s
  unfold synthLock
  exact (by (try dsimp only); split; exact (Only.ite (lockDeclared_only (advanceTo_only h rfl) rfl) h); exact (Only.ite h (Only.ite (chainDeliversAgain_only (takeStored_only (endFault_only (modChain_only h rfl) rfl) rfl) rfl) (endFault_only (modChain_only h rfl) rfl))))

theorem synthUnlock_only {m : Nat} {s0 : State} {x0 : Nat} {s : State} (h : Only m s0 s) (k : 484 &&& m = 484) : Only m s0 (synthUnlock x0 s) := by
  refine Only.lift h k ?_
  clear h k; have h := Only.refl 484 s
  unfold synthUnlock
  exact (Only.ite (Only.ite (raiseMoment_only (State_modRf_only h rfl) rfl) (State_modRf_only h rfl)) (Only.ite (Only.ite (modChain_only h rfl) (raiseLevel_only (refreshGains_only (modChain_only h rfl) rfl) rfl)) h))

theorem startHeld_only {m : Nat} {s0 : State} {x0 : Nat} {x1 : HeldCommand} {s : State} (h : Only m s0 s) (k : 486 &&& m = 486) : Only m s0 (startHeld x0 x1 s) := by
  refine Only.lift h k ?_
  clear h k; have h := Only.refl 486 s
  unfold startHeld
  exact (by split; exact (complete_only (becomeActive_only h rfl) rfl); exact (Only.ite (startConfig_only h rfl) (complete_only h rfl)))

theorem chainActivate_only {m : Nat} {s0 : State} {x0 : Nat} {s : State} (h : Only m s0 s) (k : 487 &&& m = 487) : Only m s0 (chainActivate x0 s) := by
  refine Only.lift h k ?_
  clear h k; have h := Only.refl 487 s
  unfold chainActivate
  exact (by (try dsimp only); split; exact (powerDown_only (advanceTo_only h rfl) rfl); exact h; exact (by (try dsimp only); split; exact (Only.ite (modChain_only (Only.ite (becomeActive_only (modChain_only (advanceToAir_only h rfl) rfl) rfl) (modChain_only (advanceToAir_only h rfl) rfl)) rfl) (startHeld_only (Only.ite (becomeActive_only (modChain_only (advanceToAir_only h rfl) rfl) rfl) (modChain_only (advanceToAir_only h rfl) rfl)) rfl)); exact (startHeld_only (Only.ite (becomeActive_only (modChain_only (advanceToAir_only h rfl) rfl) rfl) (modChain_only (advanceToAir_only h rfl) rfl)) rfl); exact (Only.ite (becomeActive_only (modChain_only (advanceToAir_only h rfl) rfl) rfl) (modChain_only (advanceToAir_only h rfl) rfl))))

theorem relockHere_only {m : Nat} {s0 : State} {x0 : Nat} {s : State} (h : Only m s0 s) (k : 484 &&& m = 484) : Only m s0 (relockHere x0 s) := by
  refine Only.lift h k ?_
  clear h k; have h := Only.refl 484 s
  unfold relockHere
  exact (by (try dsimp only); split; exact (Only.ite (modChain_only h rfl) h); exact (Only.ite h (modChain_only (startOp_only h rfl) rfl)))

theorem configTimeout_only {m : Nat} {s0 : State} {x0 : Nat} {x1 : Nat} {s : State} (h : Only m s0 s) (k : 487 &&& m = 487) : Only m s0 (configTimeout x0 x1 s) := by
  refine Only.lift h k ?_
  clear h k; have h := Only.refl 487 s
  unfold configTimeout
  exact (by (try dsimp only); split; exact (powerDown_only (dropHeld_only (completeOpt_only (modChain_only (advanceTo_only h rfl) rfl) rfl) rfl) rfl); exact (startOp_only (bandsRetuned_only (modChain_only (completeOpt_only (modChain_only (advanceTo_only h rfl) rfl) rfl) rfl) rfl) rfl); exact (completeOpt_only (modChain_only (advanceTo_only h rfl) rfl) rfl))

theorem enableTimeout_only {m : Nat} {s0 : State} {x0 : Nat} {x1 : Ticket} {x2 : Nat} {s : State} (h : Only m s0 s) (k : 487 &&& m = 487) : Only m s0 (enableTimeout x0 x1 x2 s) := by
  refine Only.lift h k ?_
  clear h k; have h := Only.refl 487 s
  unfold enableTimeout
  exact (relockHere_only (complete_only (modChain_only (advanceTo_only h rfl) rfl) rfl) rfl)

theorem lockTimeout_only {m : Nat} {s0 : State} {x0 : Nat} {s : State} (h : Only m s0 s) (k : 487 &&& m = 487) : Only m s0 (lockTimeout x0 s) := by
  refine Only.lift h k ?_
  clear h k; have h := Only.refl 487 s
  unfold lockTimeout
  exact (by (try dsimp only); split; exact (Only.ite (enableTimeout_only h rfl) (configTimeout_only h rfl)); exact (configTimeout_only h rfl); exact (enableTimeout_only h rfl); exact h)

theorem relockTimeout_only {m : Nat} {s0 : State} {x0 : Nat} {s : State} (h : Only m s0 s) (k : 37 &&& m = 37) : Only m s0 (relockTimeout x0 s) := by
  refine Only.lift h k ?_
  clear h k; have h := Only.refl 37 s
  unfold relockTimeout
  exact (by split; exact (raiseLevel_only (modChain_only (advanceTo_only h rfl) rfl) rfl); exact h)

theorem refreshDue_only {m : Nat} {s0 : State} {x0 : AirInstant} {s : State} (h : Only m s0 s) (k : 32 &&& m = 32) : Only m s0 (refreshDue x0 s) := by
  refine Only.lift h k ?_
  clear h k; have h := Only.refl 32 s
  unfold refreshDue
  exact (Only.foldl h (fun _ _ h0 => (Only.ite (modChain_only h0 rfl) h0)))

theorem tryCalibration_only {m : Nat} {s0 : State} {x0 : AirInstant} {s : State} {x2 : Nat} (h : Only m s0 s) (k : 484 &&& m = 484) : Only m s0 (tryCalibration x0 s x2) := by
  refine Only.lift h k ?_
  clear h k; have h := Only.refl 484 s
  unfold tryCalibration
  exact (by split; exact h; exact (Only.ite h (Only.ite (refreshGains_only (Only.ite (Only.foldl (modChain_only h rfl) (fun _ _ h0 => (fadeForChain_only h0 rfl))) (modChain_only h rfl)) rfl) h)))

theorem calEvaluation_only {m : Nat} {s0 : State} {s : State} (h : Only m s0 s) (k : 485 &&& m = 485) : Only m s0 (calEvaluation s) := by
  refine Only.lift h k ?_
  clear h k; have h := Only.refl 485 s
  unfold calEvaluation
  exact (Only.foldl (refreshDue_only (advanceTo_only h rfl) rfl) (fun _ _ h0 => (tryCalibration_only h0 rfl)))

theorem calibrationStart_only {m : Nat} {s0 : State} {x0 : Nat} {s : State} (h : Only m s0 s) (k : 485 &&& m = 485) : Only m s0 (calibrationStart x0 s) := by
  refine Only.lift h k ?_
  clear h k; have h := Only.refl 485 s
  unfold calibrationStart
  exact (by (try dsimp only); split; exact (Only.ite (Only.ite (chainDeliversAgain_only (modChain_only (advanceTo_only h rfl) rfl) rfl) (refreshGains_only (modChain_only (advanceTo_only h rfl) rfl) rfl)) (startOp_only (modChain_only (advanceTo_only h rfl) rfl) rfl)); exact h)

theorem cancellersReacquire_only {m : Nat} {s0 : State} {x0 : Nat} {s : State} (h : Only m s0 s) (k : 128 &&& m = 128) : Only m s0 (cancellersReacquire x0 s) := by
  refine Only.lift h k ?_
  clear h k; have h := Only.refl 128 s
  unfold cancellersReacquire
  exact (State_modLg_only h rfl)

theorem noteForced_only {m : Nat} {s0 : State} {x0 : Nat} {x1 : RfOp} {x2 : ℤ} {s : State} (h : Only m s0 s) (k : 8 &&& m = 8) : Only m s0 (noteForced x0 x1 x2 s) := by
  refine Only.lift h k ?_
  clear h k; have h := Only.refl 8 s
  unfold noteForced
  exact (Only.ite (submitLog_only h rfl) h)

theorem calibrationComplete_only {m : Nat} {s0 : State} {x0 : Nat} {x1 : Nat} {x2 : Bool} {x3 : ℤ} {x4 : ℤ} {x5 : FrontCal} {s : State} (h : Only m s0 s) (k : 495 &&& m = 495) : Only m s0 (calibrationComplete x0 x1 x2 x3 x4 x5 s) := by
  refine Only.lift h k ?_
  clear h k; have h := Only.refl 495 s
  unfold calibrationComplete
  exact (by (try dsimp only); split; exact h; exact (Only.ite h (Only.ite (raiseMoment_only (Only.foldl (State_modRf_only (noteForced_only (advanceTo_only h rfl) rfl) rfl) (fun _ _ h0 => (complete_only h0 rfl))) rfl) (lockDeclared_only (noteForced_only (Only.ite (Only.ite (endFault_only (Only.ite (cancellersReacquire_only (State_modRf_only (advanceTo_only h rfl) rfl) rfl) (State_modRf_only (advanceTo_only h rfl) rfl)) rfl) (raiseLevel_only (Only.ite (cancellersReacquire_only (State_modRf_only (advanceTo_only h rfl) rfl) rfl) (State_modRf_only (advanceTo_only h rfl) rfl)) rfl)) (Only.ite (cancellersReacquire_only (State_modRf_only (advanceTo_only h rfl) rfl) rfl) (State_modRf_only (advanceTo_only h rfl) rfl))) rfl) rfl))))

theorem grantStart_only {m : Nat} {s0 : State} {x0 : Nat} {s : State} (h : Only m s0 s) (k : 33 &&& m = 33) : Only m s0 (grantStart x0 s) := by
  refine Only.lift h k ?_
  clear h k; have h := Only.refl 33 s
  unfold grantStart
  exact (by split; exact h; exact (Only.ite h (State_modRf_only (advanceToAir_only h rfl) rfl)))

theorem reviewTemperatures_only {m : Nat} {s0 : State} {s : State} (h : Only m s0 s) (k : 32 &&& m = 32) : Only m s0 (reviewTemperatures s) := by
  refine Only.lift h k ?_
  clear h k; have h := Only.refl 32 s
  unfold reviewTemperatures
  exact (Only.foldl h (fun _ _ h0 => (Only.ite (modChain_only h0 rfl) h0)))

theorem converterSelfCheckFail_only {m : Nat} {s0 : State} {x0 : Nat} {s : State} (h : Only m s0 s) (k : 68 &&& m = 68) : Only m s0 (converterSelfCheckFail x0 s) := by
  refine Only.lift h k ?_
  clear h k; have h := Only.refl 68 s
  unfold converterSelfCheckFail
  exact (raiseMoment_only (Only.foldl h (fun _ _ h0 => (modBand_only h0 rfl))) rfl)

theorem clipTick_only {m : Nat} {s0 : State} {s : State} {x1 : Nat × Nat} (h : Only m s0 s) (k : 100 &&& m = 100) : Only m s0 (clipTick s x1) := by
  refine Only.lift h k ?_
  clear h k; have h := Only.refl 100 s
  unfold clipTick
  exact (Only.ite (raiseMoment_only (Only.ite (modChain_only h rfl) (State_modCe_only h rfl)) rfl) (Only.ite (modChain_only h rfl) (State_modCe_only h rfl)))

theorem specRfChainConfig_only : SpecOnly 486 specRfChainConfig := by
  constructor
  · intro s q
    have h := Only.refl 486 s
    dsimp only [specRfChainConfig]
    exact (Only.ite1 (Only.ite1 (complete_only (completeOpt_only (cancelHeld_only (finishOff_only h rfl) rfl) rfl) rfl) (refreshGains_only (modChain_only (completeOpt_only (cancelHeld_only (finishOff_only h rfl) rfl) rfl) rfl) rfl)) (Only.ite1 (startFromOff_only (finishOff_only h rfl) rfl) (Only.ite1 (modChain_only (finishOff_only h rfl) rfl) (startConfig_only (finishOff_only h rfl) rfl))))
  · intro s q st
    have h := Only.refl 486 s
    dsimp only [specRfChainConfig]
    exact h

theorem disableTx_only {m : Nat} {s0 : State} {x0 : Nat} {s : State} (h : Only m s0 s) (k : 486 &&& m = 486) : Only m s0 (disableTx x0 s) := by
  refine Only.lift h k ?_
  clear h k; have h := Only.refl 486 s
  unfold disableTx
  exact (Only.ite (Only.ite (modChain_only (refreshGains_only (modChain_only (cancelHeld_only h rfl) rfl) rfl) rfl) (refreshGains_only (modChain_only (cancelHeld_only h rfl) rfl) rfl)) (Only.ite (cancelHeld_only h rfl) (modChain_only (cancelHeld_only h rfl) rfl)))

theorem specRfTxEnable_only : SpecOnly 66022 specRfTxEnable := by
  constructor
  · intro s q
    have h := Only.refl 66022 s
    dsimp only [specRfTxEnable]
    exact (Only.ite1 (disableTx_only (State_modPair_only h rfl) rfl) (Only.ite1 (State_modPair_only h rfl) (Only.ite1 (modChain_only h rfl) (modChain_only h rfl))))
  · intro s q st
    have h := Only.refl 66022 s
    dsimp only [specRfTxEnable]
    exact h

theorem specRfRxAtten_only : SpecOnly 96 specRfRxAtten := by
  constructor
  · intro s q
    have h := Only.refl 96 s
    dsimp only [specRfRxAtten]
    exact (requestAtten_only h rfl)
  · intro s q st
    have h := Only.refl 96 s
    dsimp only [specRfRxAtten]
    exact h

theorem specRfCalRun_only : SpecOnly 32 specRfCalRun := by
  constructor
  · intro s q
    have h := Only.refl 32 s
    dsimp only [specRfCalRun]
    exact (State_modRf_only h rfl)
  · intro s q st
    have h := Only.refl 32 s
    dsimp only [specRfCalRun]
    exact h

theorem specRfCalGrant_only : SpecOnly 33 specRfCalGrant := by
  constructor
  · intro s q
    have h := Only.refl 33 s
    dsimp only [specRfCalGrant]
    exact (State_modRf_only (State_modAir_only h rfl) rfl)
  · intro s q st
    have h := Only.refl 33 s
    dsimp only [specRfCalGrant]
    exact h

theorem specRfPolicy_only : SpecOnly 32 specRfPolicy := by
  constructor
  · intro s q
    have h := Only.refl 32 s
    dsimp only [specRfPolicy]
    exact (State_modRf_only h rfl)
  · intro s q st
    have h := Only.refl 32 s
    dsimp only [specRfPolicy]
    exact h

theorem specRfObsMap_only : SpecOnly 32 specRfObsMap := by
  constructor
  · intro s q
    have h := Only.refl 32 s
    dsimp only [specRfObsMap]
    exact (State_modRf_only h rfl)
  · intro s q st
    have h := Only.refl 32 s
    dsimp only [specRfObsMap]
    exact h

theorem modCap_only {m : Nat} {s0 : State} {x0 : Nat} {x1 : CapSlot → CapSlot} {s : State} (h : Only m s0 s) (k : 16384 &&& m = 16384) : Only m s0 (modCap x0 x1 s) := by
  refine Only.lift h k ?_
  clear h k; have h := Only.refl 16384 s
  unfold modCap
  exact (State_modMem_only h rfl)

theorem fireSlot_only {m : Nat} {s0 : State} {x0 : Nat} {x1 : Nat} {x2 : Nat} {s : State} (h : Only m s0 s) (k : 16384 &&& m = 16384) : Only m s0 (fireSlot x0 x1 x2 s) := by
  refine Only.lift h k ?_
  clear h k; have h := Only.refl 16384 s
  unfold fireSlot
  exact (Only.ite h (Only.ite (modCap_only h rfl) (Only.ite (Only.ite (modCap_only h rfl) (modCap_only h rfl)) h)))

theorem captureTrigger_only {m : Nat} {s0 : State} {x0 : Nat} {x1 : Nat} {x2 : CapSlot → Bool} {s : State} (h : Only m s0 s) (k : 16384 &&& m = 16384) : Only m s0 (captureTrigger x0 x1 x2 s) := by
  refine Only.lift h k ?_
  clear h k; have h := Only.refl 16384 s
  unfold captureTrigger
  exact (Only.foldl h (fun _ _ h0 => (Only.ite (fireSlot_only h0 rfl) h0)))

theorem oscTrigger_only {m : Nat} {s0 : State} {x0 : Nat} {s : State} (h : Only m s0 s) (k : 16384 &&& m = 16384) : Only m s0 (oscTrigger x0 s) := by
  refine Only.lift h k ?_
  clear h k; have h := Only.refl 16384 s
  unfold oscTrigger
  exact (captureTrigger_only h rfl)

theorem levelTrigger_only {m : Nat} {s0 : State} {x0 : Dir} {x1 : Nat} {x2 : Option ℤ} {x3 : Option ℤ} {x4 : Nat} {s : State} (h : Only m s0 s) (k : 16384 &&& m = 16384) : Only m s0 (levelTrigger x0 x1 x2 x3 x4 s) := by
  refine Only.lift h k ?_
  clear h k; have h := Only.refl 16384 s
  unfold levelTrigger
  exact (Only.foldl h (fun _ _ h0 => (Only.ite (by split; exact (Only.ite (modCap_only h0 rfl) (fireSlot_only (modCap_only h0 rfl) rfl)); exact (modCap_only h0 rfl); exact h0) h0)))

theorem removeEb_only {m : Nat} {s0 : State} {x0 : Nat} {s : State} (h : Only m s0 s) (k : 452 &&& m = 452) : Only m s0 (removeEb x0 s) := by
  refine Only.lift h k ?_
  clear h k; have h := Only.refl 452 s
  unfold removeEb
  exact (shareBackoff_only (State_modFault_only (State_modNp_only (State_modCe_only (removeLoop_only h rfl) rfl) rfl) rfl) rfl)

theorem afterRamp_only {m : Nat} {s0 : State} {x0 : Nat} {s : State} (h : Only m s0 s) (k : 484 &&& m = 484) : Only m s0 (afterRamp x0 s) := by
  refine Only.lift h k ?_
  clear h k; have h := Only.refl 484 s
  unfold afterRamp
  exact (by split; exact h; exact (Only.ite (Only.ite (removeEb_only h rfl) h) (Only.ite (modChain_only (Only.ite (removeEb_only h rfl) h) rfl) (by split; exact (startOp_only (Only.ite (removeEb_only h rfl) h) rfl); exact (Only.ite (removeEb_only h rfl) h)))))

theorem finishMove_only {m : Nat} {s0 : State} {s : State} (h : Only m s0 s) (k : 26 &&& m = 26) : Only m s0 (finishMove s) := by
  refine Only.lift h k ?_
  clear h k; have h := Only.refl 26 s
  unfold finishMove
  exact (by split; exact (completeOpt_only (submitLog_only (postNotice_only (State_modSys_only h rfl) rfl) rfl) rfl); exact h)

theorem reviewMove_only {m : Nat} {s0 : State} {s : State} (h : Only m s0 s) (k : 26 &&& m = 26) : Only m s0 (reviewMove s) := by
  refine Only.lift h k ?_
  clear h k; have h := Only.refl 26 s
  unfold reviewMove
  exact (by split; exact (Only.ite (finishMove_only h rfl) h); exact h)

theorem gainRampEnd_only {m : Nat} {s0 : State} {x0 : Nat} {s : State} (h : Only m s0 s) (k : 511 &&& m = 511) : Only m s0 (gainRampEnd x0 s) := by
  refine Only.lift h k ?_
  clear h k; have h := Only.refl 511 s
  unfold gainRampEnd
  exact (by split; exact h; exact (reviewMove_only (afterRamp_only (refreshGains_only (advanceTo_only h rfl) rfl) rfl) rfl))

theorem fadeOutEnd_only {m : Nat} {s0 : State} {x0 : Dir} {x1 : Nat} {s : State} (h : Only m s0 s) (k : 485 &&& m = 485) : Only m s0 (fadeOutEnd x0 x1 s) := by
  refine Only.lift h k ?_
  clear h k; have h := Only.refl 485 s
  unfold fadeOutEnd
  exact (by split; exact h; exact (Only.ite (by (try dsimp only); split; exact (fadeOutDone_only (advanceTo_only h rfl) rfl); exact (by (try dsimp only); split; exact (Only.ite (startOp_only (fadeOutDone_only (advanceTo_only h rfl) rfl) rfl) (fadeOutDone_only (advanceTo_only h rfl) rfl)); exact (fadeOutDone_only (advanceTo_only h rfl) rfl))) h))

theorem settleZerosEnd_only {m : Nat} {s0 : State} {x0 : Dir} {x1 : Nat} {s : State} (h : Only m s0 s) (k : 455 &&& m = 455) : Only m s0 (settleZerosEnd x0 x1 s) := by
  refine Only.lift h k ?_
  clear h k; have h := Only.refl 455 s
  unfold settleZerosEnd
  exact (by split; exact (Only.ite (zerosDone_only (advanceTo_only h rfl) rfl) h); exact h)

theorem fadeInEnd_only {m : Nat} {s0 : State} {x0 : Nat} {s : State} (h : Only m s0 s) (k : 455 &&& m = 455) : Only m s0 (fadeInEnd x0 s) := by
  refine Only.lift h k ?_
  clear h k; have h := Only.refl 455 s
  unfold fadeInEnd
  exact (by split; exact (Only.ite (restartGate_only (fadeInDone_only (advanceTo_only h rfl) rfl) rfl) h); exact h)

theorem pathSettleTimeout_only {m : Nat} {s0 : State} {x0 : Dir} {x1 : Nat} {s : State} (h : Only m s0 s) (k : 5 &&& m = 5) : Only m s0 (pathSettleTimeout x0 x1 s) := by
  refine Only.lift h k ?_
  clear h k; have h := Only.refl 5 s
  unfold pathSettleTimeout
  exact (by split; exact (Only.ite (raiseMoment_only (advanceTo_only h rfl) rfl) h); exact h)

theorem reinitialise_only {m : Nat} {s0 : State} {x0 : Dir} {x1 : Nat} {s : State} (h : Only m s0 s) (k : 452 &&& m = 452) : Only m s0 (reinitialise x0 x1 s) := by
  refine Only.lift h k ?_
  clear h k; have h := Only.refl 452 s
  unfold reinitialise
  exact (by split; exact (refreshGains_only (modBand_only (applyChange_only h rfl) rfl) rfl); exact h)

theorem alignmentApply_only {m : Nat} {s0 : State} {s : State} (h : Only m s0 s) (k : 453 &&& m = 453) : Only m s0 (alignmentApply s) := by
  refine Only.lift h k ?_
  clear h k; have h := Only.refl 453 s
  unfold alignmentApply
  exact (by split; exact h; exact (State_modCe_only (Only.foldl (advanceToAir_only (fadeTowards_only h rfl) rfl) (fun _ _ h0 => (realignNow_only h0 rfl))) rfl))

theorem syncAlignEdge_only {m : Nat} {s0 : State} {x0 : Bool} {s : State} (h : Only m s0 s) (k : 64 &&& m = 64) : Only m s0 (syncAlignEdge x0 s) := by
  refine Only.lift h k ?_
  clear h k; have h := Only.refl 64 s
  unfold syncAlignEdge
  exact (Only.ite (Only.ite (State_modCe_only h rfl) (State_modCe_only h rfl)) h)

theorem syncAlignPulseEnd_only {m : Nat} {s0 : State} {s : State} (h : Only m s0 s) (k : 65 &&& m = 65) : Only m s0 (syncAlignPulseEnd s) := by
  refine Only.lift h k ?_
  clear h k; have h := Only.refl 65 s
  unfold syncAlignPulseEnd
  exact (by split; exact (State_modCe_only (advanceTo_only h rfl) rfl); exact h)

theorem alignLossDetect_only {m : Nat} {s0 : State} {x0 : Dir} {x1 : Nat} {s : State} (h : Only m s0 s) (k : 68 &&& m = 68) : Only m s0 (alignLossDetect x0 x1 s) := by
  refine Only.lift h k ?_
  clear h k; have h := Only.refl 68 s
  unfold alignLossDetect
  exact (Only.ite (raiseMoment_only (modBand_only h rfl) rfl) h)

theorem stepBands_only {m : Nat} {s0 : State} {x0 : ℤ} {s : State} (h : Only m s0 s) (k : 452 &&& m = 452) : Only m s0 (stepBands x0 s) := by
  refine Only.lift h k ?_
  clear h k; have h := Only.refl 452 s
  unfold stepBands
  exact (refreshGains_only (Only.foldl (Only.foldl (Only.foldl h (fun _ _ h0 => (Only.ite h0 (modBand_only h0 rfl)))) (fun _ _ h0 => (Only.ite h0 (modBand_only h0 rfl)))) (fun _ _ h0 => (realignNow_only h0 rfl))) rfl)

theorem detectorWindowEnd_only {m : Nat} {s0 : State} {x0 : Dir} {x1 : Nat} {x2 : List RawBlock} {x3 : List (List Nat)} {s : State} (h : Only m s0 s) (k : 422341 &&& m = 422341) : Only m s0 (detectorWindowEnd x0 x1 x2 x3 s) := by
  refine Only.lift h k ?_
  clear h k; have h := Only.refl 422341 s
  unfold detectorWindowEnd
  exact (by split; exact h; exact (by (try dsimp only); split; exact (Only.ite (feed_only (advanceToAir_only h rfl) rfl) (advanceToAir_only h rfl)); exact (by (try dsimp only); split; exact (Only.ite (raiseLevel_only (levelTrigger_only (modBand_only (Only.ite (feed_only (advanceToAir_only h rfl) rfl) (advanceToAir_only h rfl)) rfl) rfl) rfl) (Only.ite (endFault_only (levelTrigger_only (modBand_only (Only.ite (feed_only (advanceToAir_only h rfl) rfl) (advanceToAir_only h rfl)) rfl) rfl) rfl) (levelTrigger_only (modBand_only (Only.ite (feed_only (advanceToAir_only h rfl) rfl) (advanceToAir_only h rfl)) rfl) rfl))); exact (refreshGains_only (noiseWindow_only (Only.ite (raiseLevel_only (levelTrigger_only (modBand_only (Only.ite (feed_only (advanceToAir_only h rfl) rfl) (advanceToAir_only h rfl)) rfl) rfl) rfl) (Only.ite (endFault_only (levelTrigger_only (modBand_only (Only.ite (feed_only (advanceToAir_only h rfl) rfl) (advanceToAir_only h rfl)) rfl) rfl) rfl) (levelTrigger_only (modBand_only (Only.ite (feed_only (advanceToAir_only h rfl) rfl) (advanceToAir_only h rfl)) rfl) rfl))) rfl) rfl))))

theorem detectorSelfCheckFail_only {m : Nat} {s0 : State} {x0 : Dir} {x1 : Nat} {s : State} (h : Only m s0 s) (k : 68 &&& m = 68) : Only m s0 (detectorSelfCheckFail x0 x1 s) := by
  refine Only.lift h k ?_
  clear h k; have h := Only.refl 68 s
  unfold detectorSelfCheckFail
  exact (Only.ite (raiseLevel_only (modBand_only h rfl) rfl) h)

theorem flowBlockArrival_only {m : Nat} {s0 : State} {x0 : Nat} {x1 : Nat} {x2 : Block} {s : State} (h : Only m s0 s) (k : 16836 &&& m = 16836) : Only m s0 (flowBlockArrival x0 x1 x2 s) := by
  refine Only.lift h k ?_
  clear h k; have h := Only.refl 16836 s
  unfold flowBlockArrival
  exact (by split; exact (Only.ite (egressBlock_only (refreshGains_only (modBand_only h rfl) rfl) rfl) h); exact h)

theorem modDpd_only {m : Nat} {s0 : State} {x0 : Nat} {x1 : Dpd → Dpd} {s : State} (h : Only m s0 s) (k : 64 &&& m = 64) : Only m s0 (modDpd x0 x1 s) := by
  refine Only.lift h k ?_
  clear h k; have h := Only.refl 64 s
  unfold modDpd
  exact (State_modCe_only h rfl)

theorem modRep_only {m : Nat} {s0 : State} {x0 : Nat} {x1 : Rep → Rep} {s : State} (h : Only m s0 s) (k : 1024 &&& m = 1024) : Only m s0 (modRep x0 x1 s) := by
  refine Only.lift h k ?_
  clear h k; have h := Only.refl 1024 s
  unfold modRep
  exact (State_modCl_only h rfl)

theorem askRepClear_only {m : Nat} {s0 : State} {x0 : Nat} {s : State} (h : Only m s0 s) (k : 1024 &&& m = 1024) : Only m s0 (askRepClear x0 s) := by
  refine Only.lift h k ?_
  clear h k; have h := Only.refl 1024 s
  unfold askRepClear
  exact (modRep_only h rfl)

theorem dpdDiverge_only {m : Nat} {s0 : State} {x0 : Nat} {s : State} (h : Only m s0 s) (k : 68 &&& m = 68) : Only m s0 (dpdDiverge x0 s) := by
  refine Only.lift h k ?_
  clear h k; have h := Only.refl 68 s
  unfold dpdDiverge
  exact (raiseMoment_only (modDpd_only h rfl) rfl)

theorem toNextSlot_only {m : Nat} {s0 : State} {s : State} (h : Only m s0 s) (k : 1 &&& m = 1) : Only m s0 (toNextSlot s) := by
  refine Only.lift h k ?_
  clear h k; have h := Only.refl 1 s
  unfold toNextSlot
  exact (advanceToAir_only h rfl)

theorem dpdUpdateApply_only {m : Nat} {s0 : State} {x0 : Nat} {s : State} (h : Only m s0 s) (k : 65 &&& m = 65) : Only m s0 (dpdUpdateApply x0 s) := by
  refine Only.lift h k ?_
  clear h k; have h := Only.refl 65 s
  unfold dpdUpdateApply
  exact (by (try dsimp only); split; exact (modDpd_only (toNextSlot_only h rfl) rfl); exact h)

theorem dpdUpdateRevert_only {m : Nat} {s0 : State} {x0 : Nat} {s : State} (h : Only m s0 s) (k : 69 &&& m = 69) : Only m s0 (dpdUpdateRevert x0 s) := by
  refine Only.lift h k ?_
  clear h k; have h := Only.refl 69 s
  unfold dpdUpdateRevert
  exact (Only.ite (Only.ite (dpdDiverge_only (modDpd_only (toNextSlot_only h rfl) rfl) rfl) (modDpd_only (toNextSlot_only h rfl) rfl)) h)

theorem dpdSetSwitch_only {m : Nat} {s0 : State} {x0 : Nat} {s : State} (h : Only m s0 s) (k : 65 &&& m = 65) : Only m s0 (dpdSetSwitch x0 s) := by
  refine Only.lift h k ?_
  clear h k; have h := Only.refl 65 s
  unfold dpdSetSwitch
  exact (by split; exact (modDpd_only (toNextSlot_only h rfl) rfl); exact h)

theorem transmitTick_only {m : Nat} {s0 : State} {s : State} {x1 : Nat} (h : Only m s0 s) (k : 16484 &&& m = 16484) : Only m s0 (transmitTick s x1) := by
  refine Only.lift h k ?_
  clear h k; have h := Only.refl 16484 s
  unfold transmitTick
  exact (Only.ite (tapRaw_only (State_modCe_only h rfl) rfl) (Only.ite (Only.foldl (tapRaw_only (State_modRf_only (State_modCe_only h rfl) rfl) rfl) (fun _ _ h0 => (modBand_only h0 rfl))) (clipTick_only (Only.foldl (tapRaw_only (State_modRf_only (State_modCe_only h rfl) rfl) rfl) (fun _ _ h0 => (modBand_only h0 rfl))) rfl)))

theorem trackingLimit_only {m : Nat} {s0 : State} {s : State} (h : Only m s0 s) (k : 68 &&& m = 68) : Only m s0 (trackingLimit s) := by
  refine Only.lift h k ?_
  clear h k; have h := Only.refl 68 s
  unfold trackingLimit
  exact (Only.ite h (Only.foldl h (fun _ _ h0 => (alignLossDetect_only h0 rfl))))

theorem dpdSlot_only {m : Nat} {s0 : State} {s : State} (h : Only m s0 s) (k : 1088 &&& m = 1088) : Only m s0 (dpdSlot s) := by
  refine Only.lift h k ?_
  clear h k; have h := Only.refl 1088 s
  unfold dpdSlot
  exact (State_modCe_only (Only.foldl h (fun _ _ h0 => (askRepClear_only h0 rfl))) rfl)

theorem specBpConfig_only : SpecOnly 452 specBpConfig := by
  constructor
  · intro s q
    have h := Only.refl 452 s
    dsimp only [specBpConfig]
    cases bandPath s (dirOf (u8 q.payload 1)) (u8 q.payload 0) with
    | none =>
      cases dirOf (u8 q.payload 1) with
      | ingress => exact (refreshGains_only (restartGate_only (applyChange_only (State_modCe_only h rfl) rfl) rfl) rfl)
      | egress =>
        dsimp only
        refine shareBackoff_only ?_ rfl
        refine createLoop_only ?_ rfl
        refine applyChange_only ?_ rfl
        refine State_modNp_only ?_ rfl
        exact State_modCe_only h rfl
    | some old =>
      dsimp only
      split
      · exact refreshGains_only (startSettle_only (modBand_only h rfl) rfl) rfl
      · dsimp only
        refine shareBackoff_only ?_ rfl
        refine modBand_only ?_ rfl
        exact modBand_only h rfl
  · intro s q st
    exact Only.refl 452 s

theorem specBpRelease_only : SpecOnly 452 specBpRelease := by
  constructor
  · intro s q
    have h := Only.refl 452 s
    dsimp only [specBpRelease]
    split
    · exact State_modNp_only (State_modCe_only h rfl) rfl
    · dsimp only
      have k := refreshGains_only (modBand_only (x0 := .egress) (x1 := u8 q.payload 0)
        (x2 := fun b => { b with releasing := true }) h rfl) rfl
      refine Only.ite ?_ k
      exact removeEb_only k rfl
  · intro s q st
    exact Only.refl 452 s

theorem specBpDetector_only : SpecOnly 64 specBpDetector := by
  constructor
  · intro s q
    have h := Only.refl 64 s
    dsimp only [specBpDetector]
    exact (modBand_only h rfl)
  · intro s q st
    have h := Only.refl 64 s
    dsimp only [specBpDetector]
    exact h

theorem specBpAlign_only : SpecOnly 64 specBpAlign := by
  constructor
  · intro s q
    have h := Only.refl 64 s
    dsimp only [specBpAlign]
    exact (State_modCe_only h rfl)
  · intro s q st
    have h := Only.refl 64 s
    dsimp only [specBpAlign]
    exact h

theorem specBpSyncPin_only : SpecOnly 64 specBpSyncPin := by
  constructor
  · intro s q
    have h := Only.refl 64 s
    dsimp only [specBpSyncPin]
    exact (State_modCe_only h rfl)
  · intro s q st
    have h := Only.refl 64 s
    dsimp only [specBpSyncPin]
    exact h

theorem endDpdBackoff_only {m : Nat} {s0 : State} {x0 : Nat} {s : State} (h : Only m s0 s) (k : 452 &&& m = 452) : Only m s0 (endDpdBackoff x0 s) := by
  refine Only.lift h k ?_
  clear h k; have h := Only.refl 452 s
  unfold endDpdBackoff
  exact (dropBackoffs_only h rfl)

theorem specDpdConfig_only : SpecOnly 1476 specDpdConfig := by
  constructor
  · intro s q
    have h := Only.refl 1476 s
    dsimp only [specDpdConfig]
    exact (endDpdBackoff_only (modDpd_only (Only.ite h (askRepClear_only h rfl)) rfl) rfl)
  · intro s q st
    have h := Only.refl 1476 s
    dsimp only [specDpdConfig]
    exact h

theorem specDpdControl_only : SpecOnly 452 specDpdControl := by
  constructor
  · intro s q
    have h := Only.refl 452 s
    dsimp only [specDpdControl]
    exact (Only.ite (endDpdBackoff_only (modDpd_only h rfl) rfl) (modDpd_only h rfl))
  · intro s q st
    have h := Only.refl 452 s
    dsimp only [specDpdControl]
    exact h

theorem enterGuarded_only {m : Nat} {s0 : State} {x0 : Nat} {x1 : Option ℤ} {s : State} (h : Only m s0 s) (k : 452 &&& m = 452) : Only m s0 (enterGuarded x0 x1 s) := by
  refine Only.lift h k ?_
  clear h k; have h := Only.refl 452 s
  unfold enterGuarded
  exact (refreshGains_only (writeCap_only (modLoop_only h rfl) rfl) rfl)

theorem declareOsc_only {m : Nat} {s0 : State} {x0 : Nat} {x1 : Nat} {s : State} (h : Only m s0 s) (k : 16844 &&& m = 16844) : Only m s0 (declareOsc x0 x1 s) := by
  refine Only.lift h k ?_
  clear h k; have h := Only.refl 16844 s
  unfold declareOsc
  exact (by split; exact h; exact (Only.ite (raiseMoment_only (submitLog_only (refreshGains_only (writeCap_only (oscTrigger_only (State_modLg_only (modLoop_only h rfl) rfl) rfl) rfl) rfl) rfl) rfl) (submitLog_only (refreshGains_only (writeCap_only (oscTrigger_only (State_modLg_only (modLoop_only h rfl) rfl) rfl) rfl) rfl) rfl)))

theorem pilotCriteria_only {m : Nat} {s0 : State} {x0 : Nat} {s : State} (h : Only m s0 s) (k : 16844 &&& m = 16844) : Only m s0 (pilotCriteria x0 s) := by
  refine Only.lift h k ?_
  clear h k; have h := Only.refl 16844 s
  unfold pilotCriteria
  exact (by split; exact h; exact (Only.ite (by split; exact (Only.ite (declareOsc_only h rfl) (Only.ite (declareOsc_only h rfl) h)); exact h) h))

theorem qualify_only {m : Nat} {s0 : State} {x0 : Nat} {s : State} (h : Only m s0 s) (k : 128 &&& m = 128) : Only m s0 (qualify x0 s) := by
  refine Only.lift h k ?_
  clear h k; have h := Only.refl 128 s
  unfold qualify
  exact (by split; exact (Only.ite (modLoop_only h rfl) h); exact h)

theorem enterOpen_only {m : Nat} {s0 : State} {x0 : Nat} {s : State} (h : Only m s0 s) (k : 452 &&& m = 452) : Only m s0 (enterOpen x0 s) := by
  refine Only.lift h k ?_
  clear h k; have h := Only.refl 452 s
  unfold enterOpen
  exact (refreshGains_only (writeCap_only (modLoop_only h rfl) rfl) rfl)

theorem admitAcquired_only {m : Nat} {s0 : State} {s : State} (h : Only m s0 s) (k : 452 &&& m = 452) : Only m s0 (admitAcquired s) := by
  refine Only.lift h k ?_
  clear h k; have h := Only.refl 452 s
  unfold admitAcquired
  exact (Only.foldl h (fun _ _ h0 => (by split; exact (Only.ite (Only.ite (enterOpen_only h0 rfl) (Only.ite (enterGuarded_only h0 rfl) h0)) h0); exact h0)))

theorem bindPlan_only {m : Nat} {s0 : State} {x0 : Nat} {s : State} (h : Only m s0 s) (k : 8192 &&& m = 8192) : Only m s0 (bindPlan x0 s) := by
  refine Only.lift h k ?_
  clear h k; have h := Only.refl 8192 s
  unfold bindPlan
  exact (State_modDv_only h rfl)

theorem seekAdmission_only {m : Nat} {s0 : State} {s : State} (h : Only m s0 s) (k : 274560 &&& m = 274560) : Only m s0 (seekAdmission s) := by
  refine Only.lift h k ?_
  clear h k; have h := Only.refl 274560 s
  unfold seekAdmission
  exact (Only.ite (State_modLg_only h rfl) (Only.ite h (Only.ite (State_modLg_only (State_modLg_only h rfl) rfl) (Only.ite (bindPlan_only (State_modLg_only (State_modLg_only h rfl) rfl) rfl) (sendUp_only (State_modLg_only (State_modLg_only h rfl) rfl) rfl)))))

theorem noteReport_only {m : Nat} {s0 : State} {x0 : Nat} {s : State} (h : Only m s0 s) (k : 8192 &&& m = 8192) : Only m s0 (noteReport x0 s) := by
  refine Only.lift h k ?_
  clear h k; have h := Only.refl 8192 s
  unfold noteReport
  exact (State_modDv_only h rfl)

theorem enterPaddock_only {m : Nat} {s0 : State} {x0 : UnitId} {s : State} (h : Only m s0 s) (k : 276932 &&& m = 276932) : Only m s0 (enterPaddock x0 s) := by
  refine Only.lift h k ?_
  clear h k; have h := Only.refl 276932 s
  unfold enterPaddock
  exact (seekAdmission_only (refreshGains_only (Only.foldl (State_modFault_only h rfl) (fun _ _ h0 => (by split; exact (by (try dsimp only); split; exact (Only.ite (realign_only (restartLoop_only h0 rfl) rfl) (restartLoop_only h0 rfl)); exact (restartLoop_only h0 rfl)); exact (by (try dsimp only); split; exact (Only.ite (realign_only (modBand_only h0 rfl) rfl) (modBand_only h0 rfl)); exact (modBand_only h0 rfl)); exact (State_modDv_only h0 rfl); exact (noteReport_only h0 rfl); exact (State_modPs_only h0 rfl); exact h0))) rfl) rfl)

theorem takeMeasure_only {m : Nat} {s0 : State} {x0 : Nat} {x1 : ℤ} {x2 : Nat} {x3 : Canceller} {x4 : UnitId} {s : State} (h : Only m s0 s) (k : 132 &&& m = 132) : Only m s0 (takeMeasure x0 x1 x2 x3 x4 s) := by
  refine Only.lift h k ?_
  clear h k; have h := Only.refl 132 s
  unfold takeMeasure
  exact (Only.ite (raiseLevel_only (State_modLg_only h rfl) rfl) (Only.ite (endFault_only (State_modLg_only h rfl) rfl) (State_modLg_only h rfl)))

theorem servingCanceller_only {m : Nat} {s0 : State} {x0 : Nat} {x1 : Option Nat} {x2 : PilotMeasure} {x3 : ℤ} {s : State} (h : Only m s0 s) (k : 132 &&& m = 132) : Only m s0 (servingCanceller x0 x1 x2 x3 s) := by
  refine Only.lift h k ?_
  clear h k; have h := Only.refl 132 s
  unfold servingCanceller
  exact (by split; exact h; exact (takeMeasure_only h rfl))

theorem measureLoop_only {m : Nat} {s0 : State} {x0 : Nat} {x1 : BandPath} {x2 : PilotMeasure} {s : State} (h : Only m s0 s) (k : 132 &&& m = 132) : Only m s0 (measureLoop x0 x1 x2 s) := by
  refine Only.lift h k ?_
  clear h k; have h := Only.refl 132 s
  unfold measureLoop
  exact (by split; exact h; exact (servingCanceller_only (modLoop_only h rfl) rfl))

theorem closeByMeasurement_only {m : Nat} {s0 : State} {x0 : Nat} {x1 : BandPath} {x2 : PilotMeasure} {s : State} (h : Only m s0 s) (k : 452 &&& m = 452) : Only m s0 (closeByMeasurement x0 x1 x2 s) := by
  refine Only.lift h k ?_
  clear h k; have h := Only.refl 452 s
  unfold closeByMeasurement
  exact (by split; exact (by split; exact h; exact (Only.ite h (Only.ite (writeCap_only (modLoop_only (measureLoop_only (modLoop_only h rfl) rfl) rfl) rfl) (by split; exact (by split; exact (Only.ite (writeCap_only (modLoop_only (measureLoop_only (modLoop_only h rfl) rfl) rfl) rfl) (enterGuarded_only (measureLoop_only (modLoop_only h rfl) rfl) rfl)); exact (measureLoop_only (modLoop_only h rfl) rfl)); exact (measureLoop_only (modLoop_only h rfl) rfl))))); exact h)

theorem beaconBoundary_only {m : Nat} {s0 : State} {x0 : Nat} {s : State} (h : Only m s0 s) (k : 388 &&& m = 388) : Only m s0 (beaconBoundary x0 s) := by
  refine Only.lift h k ?_
  clear h k; have h := Only.refl 388 s
  unfold beaconBoundary
  exact (by split; exact (by split; exact (Only.ite (loopChanged_only (modLoop_only h rfl) rfl) (modLoop_only h rfl)); exact h); exact h)

theorem setCap_only {m : Nat} {s0 : State} {x0 : Tracked} {x1 : ℤ} {s : State} (h : Only m s0 s) (k : 128 &&& m = 128) : Only m s0 (setCap x0 x1 s) := by
  refine Only.lift h k ?_
  clear h k; have h := Only.refl 128 s
  unfold setCap
  exact (State_modLg_only h rfl)

theorem sendCap_only {m : Nat} {s0 : State} {x0 : Tracked} {x1 : ℤ} {s : State} (h : Only m s0 s) (k : 266368 &&& m = 266368) : Only m s0 (sendCap x0 x1 s) := by
  refine Only.lift h k ?_
  clear h k; have h := Only.refl 266368 s
  unfold sendCap
  exact (sendTo_only (State_modLg_only (setCap_only h rfl) rfl) rfl)

theorem declareHubOsc_only {m : Nat} {s0 : State} {x0 : Nat} {x1 : Nat} {s : State} (h : Only m s0 s) (k : 16844 &&& m = 16844) : Only m s0 (declareHubOsc x0 x1 s) := by
  refine Only.lift h k ?_
  clear h k; have h := Only.refl 16844 s
  unfold declareHubOsc
  exact (Only.ite (raiseMoment_only (submitLog_only (refreshGains_only (oscTrigger_only (State_modLg_only h rfl) rfl) rfl) rfl) rfl) (submitLog_only (refreshGains_only (oscTrigger_only (State_modLg_only h rfl) rfl) rfl) rfl))

theorem hubLadder_only {m : Nat} {s0 : State} {s : State} {x1 : Nat} (h : Only m s0 s) (k : 266368 &&& m = 266368) : Only m s0 (hubLadder s x1) := by
  refine Only.lift h k ?_
  clear h k; have h := Only.refl 266368 s
  unfold hubLadder
  exact (Only.ite h (Only.ite (by split; exact (sendCap_only (State_modLg_only (State_modLg_only h rfl) rfl) rfl); exact (State_modLg_only (State_modLg_only h rfl) rfl)) (Only.ite (by split; exact (setCap_only (State_modLg_only (State_modLg_only h rfl) rfl) rfl); exact (State_modLg_only (State_modLg_only h rfl) rfl)) (State_modLg_only (State_modLg_only h rfl) rfl))))

theorem searchPath_only {m : Nat} {s0 : State} {x0 : AirInstant} {x1 : List MemberLevel} {s : State} {x3 : Nat} (h : Only m s0 s) (k : 283084 &&& m = 283084) : Only m s0 (searchPath x0 x1 s x3) := by
  refine Only.lift h k ?_
  clear h k; have h := Only.refl 283084 s
  unfold searchPath
  exact (by split; exact h; exact (Only.ite (State_modLg_only (Only.foldl (by split; exact (takeMeasure_only (State_modLg_only h rfl) rfl); exact (State_modLg_only h rfl)) (fun _ _ h0 => (sendCap_only h0 rfl))) rfl) (Only.ite (declareHubOsc_only (State_modLg_only (Only.foldl (by split; exact (takeMeasure_only (State_modLg_only h rfl) rfl); exact (State_modLg_only h rfl)) (fun _ _ h0 => (sendCap_only h0 rfl))) rfl) rfl) (Only.ite (declareHubOsc_only (State_modLg_only (Only.foldl (by split; exact (takeMeasure_only (State_modLg_only h rfl) rfl); exact (State_modLg_only h rfl)) (fun _ _ h0 => (sendCap_only h0 rfl))) rfl) rfl) (State_modLg_only (Only.foldl (by split; exact (takeMeasure_only (State_modLg_only h rfl) rfl); exact (State_modLg_only h rfl)) (fun _ _ h0 => (sendCap_only h0 rfl))) rfl)))))

theorem searchPeriod_only {m : Nat} {s0 : State} {x0 : AirInstant} {x1 : List MemberLevel} {s : State} (h : Only m s0 s) (k : 283084 &&& m = 283084) : Only m s0 (searchPeriod x0 x1 s) := by
  refine Only.lift h k ?_
  clear h k; have h := Only.refl 283084 s
  unfold searchPeriod
  exact (Only.ite (Only.foldl h (fun _ _ h0 => (searchPath_only h0 rfl))) h)

theorem takeGain_only {m : Nat} {s0 : State} {s : State} {x1 : GainReport} (h : Only m s0 s) (k : 128 &&& m = 128) : Only m s0 (takeGain s x1) := by
  refine Only.lift h k ?_
  clear h k; have h := Only.refl 128 s
  unfold takeGain
  exact (State_modLg_only (State_modLg_only h rfl) rfl)

theorem takeGains_only {m : Nat} {s0 : State} {s : State} (h : Only m s0 s) (k : 128 &&& m = 128) : Only m s0 (takeGains s) := by
  refine Only.lift h k ?_
  clear h k; have h := Only.refl 128 s
  unfold takeGains
  exact (Only.foldl (State_modLg_only h rfl) (fun _ _ h0 => (takeGain_only h0 rfl)))

theorem feedPaths_only {m : Nat} {s0 : State} {x0 : List PathBlocks} {s : State} (h : Only m s0 s) (k : 422337 &&& m = 422337) : Only m s0 (feedPaths x0 s) := by
  refine Only.lift h k ?_
  clear h k; have h := Only.refl 422337 s
  unfold feedPaths
  exact (Only.foldl h (fun _ _ h0 => (feed_only h0 rfl)))

theorem takePeriod_only {m : Nat} {s0 : State} {x0 : Nat} {x1 : BandPath} {x2 : Loop} {x3 : PilotMeasure} {s : State} (h : Only m s0 s) (k : 16844 &&& m = 16844) : Only m s0 (takePeriod x0 x1 x2 x3 s) := by
  refine Only.lift h k ?_
  clear h k; have h := Only.refl 16844 s
  unfold takePeriod
  exact (pilotCriteria_only (refreshGains_only (Only.ite (endFault_only (modLoop_only (Only.ite (Only.ite (Only.ite (measureLoop_only h rfl) h) (closeByMeasurement_only h rfl)) h) rfl) rfl) (modLoop_only (Only.ite (Only.ite (Only.ite (measureLoop_only h rfl) h) (closeByMeasurement_only h rfl)) h) rfl)) rfl) rfl)

theorem pilotPeriodEnd_only {m : Nat} {s0 : State} {x0 : Nat} {x1 : PilotInput} {s : State} (h : Only m s0 s) (k : 422349 &&& m = 422349) : Only m s0 (pilotPeriodEnd x0 x1 s) := by
  refine Only.lift h k ?_
  clear h k; have h := Only.refl 422349 s
  unfold pilotPeriodEnd
  exact (by split; exact (by (try dsimp only); split; exact (seekAdmission_only (searchPeriod_only (qualify_only (refreshGains_only (modLoop_only (beaconBoundary_only (modLoop_only (Only.ite (feedPaths_only (advanceToBoundary_only h rfl) rfl) (takePeriod_only (feedPaths_only (advanceToBoundary_only h rfl) rfl) rfl)) rfl) rfl) rfl) rfl) rfl) rfl) rfl); exact (feedPaths_only (advanceToBoundary_only h rfl) rfl)); exact h)

theorem riseCap_only {m : Nat} {s0 : State} {s : State} {x1 : Nat × BandPath} (h : Only m s0 s) (k : 384 &&& m = 384) : Only m s0 (riseCap s x1) := by
  refine Only.lift h k ?_
  clear h k; have h := Only.refl 384 s
  unfold riseCap
  exact (by split; exact h; exact (by split; exact (Only.ite (writeCap_only (modLoop_only h rfl) rfl) (modLoop_only h rfl)); exact h))

theorem ladderStep_only {m : Nat} {s0 : State} {x0 : Nat} {s : State} (h : Only m s0 s) (k : 453 &&& m = 453) : Only m s0 (ladderStep x0 s) := by
  refine Only.lift h k ?_
  clear h k; have h := Only.refl 453 s
  unfold ladderStep
  exact (by split; exact (Only.ite h (by (try dsimp only); split; exact (advanceToBoundary_only h rfl); exact (by (try dsimp only); split; exact (Only.ite (noteMargin_only (modLoop_only (Only.ite (refreshGains_only (writeCap_only (modLoop_only (advanceToBoundary_only h rfl) rfl) rfl) rfl) (advanceToBoundary_only h rfl)) rfl) rfl) (Only.ite (refreshGains_only (writeCap_only (modLoop_only (advanceToBoundary_only h rfl) rfl) rfl) rfl) (advanceToBoundary_only h rfl))); exact (Only.ite (refreshGains_only (writeCap_only (modLoop_only (advanceToBoundary_only h rfl) rfl) rfl) rfl) (advanceToBoundary_only h rfl))))); exact h)

theorem takeLine_only {m : Nat} {s0 : State} {s : State} {x1 : Nat} (h : Only m s0 s) (k : 64 &&& m = 64) : Only m s0 (takeLine s x1) := by
  refine Only.lift h k ?_
  clear h k; have h := Only.refl 64 s
  unfold takeLine
  exact (modBand_only h rfl)

theorem lineView_only {m : Nat} {s0 : State} {x0 : Nat} {x1 : Option Nat} {x2 : List RawBlock} {s : State} (h : Only m s0 s) (k : 422337 &&& m = 422337) : Only m s0 (lineView x0 x1 x2 s) := by
  refine Only.lift h k ?_
  clear h k; have h := Only.refl 422337 s
  unfold lineView
  exact (by (try dsimp only); split; exact (takeLine_only (feed_only (advanceToBoundary_only h rfl) rfl) rfl); exact (advanceToBoundary_only h rfl))

theorem lineDetectorFrame_only {m : Nat} {s0 : State} {x0 : Dir} {x1 : Nat} {x2 : List RawBlock} {s : State} (h : Only m s0 s) (k : 422349 &&& m = 422349) : Only m s0 (lineDetectorFrame x0 x1 x2 s) := by
  refine Only.lift h k ?_
  clear h k; have h := Only.refl 422349 s
  unfold lineDetectorFrame
  exact (by split; exact (by split; exact (Only.ite (declareOsc_only (lineView_only h rfl) rfl) (modLoop_only (lineView_only h rfl) rfl)); exact h); exact (Only.ite (Only.ite (declareHubOsc_only (lineView_only h rfl) rfl) (State_modLg_only (lineView_only h rfl) rfl)) h))

theorem holdoffEnd_only {m : Nat} {s0 : State} {x0 : Dir} {x1 : Nat} {s : State} (h : Only m s0 s) (k : 453 &&& m = 453) : Only m s0 (holdoffEnd x0 x1 s) := by
  refine Only.lift h k ?_
  clear h k; have h := Only.refl 453 s
  unfold holdoffEnd
  exact (by split; exact (by split; exact (Only.ite (enterGuarded_only (restartCancellers_only (toNextSlot_only (advanceTo_only h rfl) rfl) rfl) rfl) h); exact h); exact (Only.ite (refreshGains_only (restartCancellers_only (State_modLg_only (toNextSlot_only (advanceTo_only h rfl) rfl) rfl) rfl) rfl) h))

theorem reacquireFitComplete_only {m : Nat} {s0 : State} {x0 : Nat} {s : State} (h : Only m s0 s) (k : 452 &&& m = 452) : Only m s0 (reacquireFitComplete x0 s) := by
  refine Only.lift h k ?_
  clear h k; have h := Only.refl 452 s
  unfold reacquireFitComplete
  exact (Only.ite (refreshGains_only (State_modLg_only h rfl) rfl) h)

theorem cancellerSnapshotRestore_only {m : Nat} {s0 : State} {x0 : Nat} {s : State} (h : Only m s0 s) (k : 453 &&& m = 453) : Only m s0 (cancellerSnapshotRestore x0 s) := by
  refine Only.lift h k ?_
  clear h k; have h := Only.refl 453 s
  unfold cancellerSnapshotRestore
  exact (Only.ite (refreshGains_only (State_modLg_only (toNextSlot_only h rfl) rfl) rfl) h)

theorem keepSnapshots_only {m : Nat} {s0 : State} {s : State} (h : Only m s0 s) (k : 128 &&& m = 128) : Only m s0 (keepSnapshots s) := by
  refine Only.lift h k ?_
  clear h k; have h := Only.refl 128 s
  unfold keepSnapshots
  exact (State_modLg_only h rfl)

theorem placeClusters_only {m : Nat} {s0 : State} {s : State} (h : Only m s0 s) (k : 128 &&& m = 128) : Only m s0 (placeClusters s) := by
  refine Only.lift h k ?_
  clear h k; have h := Only.refl 128 s
  unfold placeClusters
  exact (State_modLg_only h rfl)

theorem marginCapReceive_only {m : Nat} {s0 : State} {x0 : MarginCap} {s : State} (h : Only m s0 s) (k : 128 &&& m = 128) : Only m s0 (marginCapReceive x0 s) := by
  refine Only.lift h k ?_
  clear h k; have h := Only.refl 128 s
  unfold marginCapReceive
  exact (Only.ite (modLoop_only h rfl) h)

theorem marginCapApply_only {m : Nat} {s0 : State} {x0 : Nat} {s : State} (h : Only m s0 s) (k : 453 &&& m = 453) : Only m s0 (marginCapApply x0 s) := by
  refine Only.lift h k ?_
  clear h k; have h := Only.refl 453 s
  unfold marginCapApply
  exact (by split; exact (by split; exact (refreshGains_only (writeCap_only (modLoop_only (advanceToAir_only h rfl) rfl) rfl) rfl); exact h); exact h)

theorem marginLowTimeout_only {m : Nat} {s0 : State} {x0 : Nat} {s : State} (h : Only m s0 s) (k : 5 &&& m = 5) : Only m s0 (marginLowTimeout x0 s) := by
  refine Only.lift h k ?_
  clear h k; have h := Only.refl 5 s
  unfold marginLowTimeout
  exact (by split; exact (raiseLevel_only (advanceTo_only h rfl) rfl); exact h)

theorem beaconLossTimeout_only {m : Nat} {s0 : State} {x0 : Nat} {s : State} (h : Only m s0 s) (k : 5 &&& m = 5) : Only m s0 (beaconLossTimeout x0 s) := by
  refine Only.lift h k ?_
  clear h k; have h := Only.refl 5 s
  unfold beaconLossTimeout
  exact (by split; exact (Only.ite (raiseLevel_only (advanceTo_only h rfl) rfl) h); exact h)

theorem admitReqReceive_only {m : Nat} {s0 : State} {x0 : Nat} {s : State} (h : Only m s0 s) (k : 274432 &&& m = 274432) : Only m s0 (admitReqReceive x0 s) := by
  refine Only.lift h k ?_
  clear h k; have h := Only.refl 274432 s
  unfold admitReqReceive
  exact (Only.ite (sendTo_only (bindPlan_only h rfl) rfl) h)

theorem admitGrantReceive_only {m : Nat} {s0 : State} {x0 : Nat} {s : State} (h : Only m s0 s) (k : 128 &&& m = 128) : Only m s0 (admitGrantReceive x0 s) := by
  refine Only.lift h k ?_
  clear h k; have h := Only.refl 128 s
  unfold admitGrantReceive
  exact (Only.ite (State_modLg_only h rfl) h)

theorem applyLg_only {m : Nat} {s0 : State} {s : State} {x1 : Nat × List Byte} (h : Only m s0 s) (k : 388 &&& m = 388) : Only m s0 (applyLg s x1) := by
  refine Only.lift h k ?_
  clear h k; have h := Only.refl 388 s
  unfold applyLg
  exact (Only.ite (Only.ite (Only.foldl (State_modLg_only h rfl) (fun _ _ h0 => (reviewClosure_only h0 rfl))) (modLoop_only h rfl)) (Only.ite (State_modLg_only h rfl) (Only.ite (State_modLg_only h rfl) (Only.ite (State_modLg_only h rfl) (State_modLg_only h rfl)))))

theorem lgView_only {m : Nat} {s0 : State} {s : State} (h : Only m s0 s) (k : 388 &&& m = 388) : Only m s0 (lgView s) := by
  refine Only.lift h k ?_
  clear h k; have h := Only.refl 388 s
  unfold lgView
  exact (State_modLg_only (Only.foldl h (fun _ _ h0 => (applyLg_only h0 rfl))) rfl)

theorem lgSlot_only {m : Nat} {s0 : State} {s : State} (h : Only m s0 s) (k : 452 &&& m = 452) : Only m s0 (lgSlot s) := by
  refine Only.lift h k ?_
  clear h k; have h := Only.refl 452 s
  unfold lgSlot
  exact (Only.ite h (refreshGains_only (lgView_only h rfl) rfl))

theorem lgWait_only {m : Nat} {s0 : State} {x0 : Req} {s : State} (h : Only m s0 s) (k : 128 &&& m = 128) : Only m s0 (lgWait x0 s) := by
  refine Only.lift h k ?_
  clear h k; have h := Only.refl 128 s
  unfold lgWait
  exact (State_modLg_only h rfl)

theorem specLgLoopConfig_only : SpecOnly 128 specLgLoopConfig := by
  constructor
  · intro s q
    have h := Only.refl 128 s
    dsimp only [specLgLoopConfig]
    exact (lgWait_only h rfl)
  · intro s q st
    have h := Only.refl 128 s
    dsimp only [specLgLoopConfig]
    exact h

theorem specLgBeaconConfig_only : SpecOnly 128 specLgBeaconConfig := by
  constructor
  · intro s q
    have h := Only.refl 128 s
    dsimp only [specLgBeaconConfig]
    exact (modLoop_only h rfl)
  · intro s q st
    have h := Only.refl 128 s
    dsimp only [specLgBeaconConfig]
    exact h

theorem specLgCancelConfig_only : SpecOnly 128 specLgCancelConfig := by
  constructor
  · intro s q
    have h := Only.refl 128 s
    dsimp only [specLgCancelConfig]
    exact (lgWait_only h rfl)
  · intro s q st
    have h := Only.refl 128 s
    dsimp only [specLgCancelConfig]
    exact h

theorem specLgCancelControl_only : SpecOnly 128 specLgCancelControl := by
  constructor
  · intro s q
    have h := Only.refl 128 s
    dsimp only [specLgCancelControl]
    exact (lgWait_only h rfl)
  · intro s q st
    have h := Only.refl 128 s
    dsimp only [specLgCancelControl]
    exact h

theorem specLgSearchConfig_only : SpecOnly 128 specLgSearchConfig := by
  constructor
  · intro s q
    have h := Only.refl 128 s
    dsimp only [specLgSearchConfig]
    exact (lgWait_only h rfl)
  · intro s q st
    have h := Only.refl 128 s
    dsimp only [specLgSearchConfig]
    exact h

theorem specLgPolicy_only : SpecOnly 128 specLgPolicy := by
  constructor
  · intro s q
    have h := Only.refl 128 s
    dsimp only [specLgPolicy]
    exact (lgWait_only h rfl)
  · intro s q st
    have h := Only.refl 128 s
    dsimp only [specLgPolicy]
    exact h

end Sys2Proof.Machine
end

