-- ==== Sys2Proof/Laws/FramesPower.lean ====
section
/-! SUPPORT. Frames of the control engine, housekeeping and the power stage: what each operation touches at most. -/

namespace Sys2Proof.Machine

open Sys2Proof

theorem stepSlots_only {m : Nat} {s0 : State} {s : State} (h : Only m s0 s) (k : 1024 &&& m = 1024) : Only m s0 (stepSlots s) := by
  refine Only.lift h k ?_
  clear h k; have h := Only.refl 1024 s
  unfold stepSlots
  exact (State_modCl_only h rfl)

theorem causeTraces_only {m : Nat} {s0 : State} {x0 : Nat} {x1 : TraceCause} {s : State} (h : Only m s0 s) (k : 1024 &&& m = 1024) : Only m s0 (causeTraces x0 x1 s) := by
  refine Only.lift h k ?_
  clear h k; have h := Only.refl 1024 s
  unfold causeTraces
  exact (State_modCl_only h rfl)

theorem recordTrace_only {m : Nat} {s0 : State} {x0 : Nat} {x1 : Nat} {x2 : Bool} {x3 : Bool} {x4 : Nat} {s : State} (h : Only m s0 s) (k : 1024 &&& m = 1024) : Only m s0 (recordTrace x0 x1 x2 x3 x4 s) := by
  refine Only.lift h k ?_
  clear h k; have h := Only.refl 1024 s
  unfold recordTrace
  exact (State_modCl_only h rfl)

theorem beginInjection_only {m : Nat} {s0 : State} {x0 : Nat} {s : State} (h : Only m s0 s) (k : 1024 &&& m = 1024) : Only m s0 (beginInjection x0 s) := by
  refine Only.lift h k ?_
  clear h k; have h := Only.refl 1024 s
  unfold beginInjection
  exact (causeTraces_only (modSlot_only h rfl) rfl)

theorem stopInjection_only {m : Nat} {s0 : State} {x0 : Nat} {x1 : Nat} {s : State} (h : Only m s0 s) (k : 1024 &&& m = 1024) : Only m s0 (stopInjection x0 x1 s) := by
  refine Only.lift h k ?_
  clear h k; have h := Only.refl 1024 s
  unfold stopInjection
  exact (modSlot_only h rfl)

theorem endInjection_only {m : Nat} {s0 : State} {x0 : Nat} {s : State} (h : Only m s0 s) (k : 1026 &&& m = 1026) : Only m s0 (endInjection x0 s) := by
  refine Only.lift h k ?_
  clear h k; have h := Only.refl 1026 s
  unfold endInjection
  exact (by split; exact (complete_only (State_modCl_only (causeTraces_only (modSlot_only h rfl) rfl) rfl) rfl); exact h)

theorem slotFault_only {m : Nat} {s0 : State} {x0 : UnitId} {s : State} (h : Only m s0 s) (k : 1024 &&& m = 1024) : Only m s0 (slotFault x0 s) := by
  refine Only.lift h k ?_
  clear h k; have h := Only.refl 1024 s
  unfold slotFault
  exact (Only.foldl h (fun _ _ h0 => (Only.ite (causeTraces_only (stopInjection_only h0 rfl) rfl) h0)))

theorem softStart_only {m : Nat} {s0 : State} {x0 : Nat} {x1 : ℤ} {x2 : Nat} {s : State} (h : Only m s0 s) (k : 1024 &&& m = 1024) : Only m s0 (softStart x0 x1 x2 s) := by
  refine Only.lift h k ?_
  clear h k; have h := Only.refl 1024 s
  unfold softStart
  exact (causeTraces_only (modSlot_only h rfl) rfl)

theorem enableSlot_only {m : Nat} {s0 : State} {x0 : Nat} {x1 : Bool} {s : State} (h : Only m s0 s) (k : 1024 &&& m = 1024) : Only m s0 (enableSlot x0 x1 s) := by
  refine Only.lift h k ?_
  clear h k; have h := Only.refl 1024 s
  unfold enableSlot
  exact (Only.ite (softStart_only (modSlot_only h rfl) rfl) (modSlot_only h rfl))

theorem disableSlot_only {m : Nat} {s0 : State} {x0 : Nat} {s : State} (h : Only m s0 s) (k : 1028 &&& m = 1028) : Only m s0 (disableSlot x0 s) := by
  refine Only.lift h k ?_
  clear h k; have h := Only.refl 1028 s
  unfold disableSlot
  exact (endFault_only (endFault_only (stopInjection_only (modSlot_only h rfl) rfl) rfl) rfl)

theorem admitSlot_only {m : Nat} {s0 : State} {x0 : Nat} {x1 : ℤ} {x2 : Nat} {s : State} (h : Only m s0 s) (k : 1024 &&& m = 1024) : Only m s0 (admitSlot x0 x1 x2 s) := by
  refine Only.lift h k ?_
  clear h k; have h := Only.refl 1024 s
  unfold admitSlot
  exact (softStart_only h rfl)

theorem writeGcmd_only {m : Nat} {s0 : State} {x0 : Nat} {x1 : ℤ} {s : State} (h : Only m s0 s) (k : 452 &&& m = 452) : Only m s0 (writeGcmd x0 x1 s) := by
  refine Only.lift h k ?_
  clear h k; have h := Only.refl 452 s
  unfold writeGcmd
  exact (refreshGains_only (State_modNp_only h rfl) rfl)

theorem setSat_only {m : Nat} {s0 : State} {x0 : Nat} {x1 : ℤ} {x2 : ℤ} {s : State} (h : Only m s0 s) (k : 1024 &&& m = 1024) : Only m s0 (setSat x0 x1 x2 s) := by
  refine Only.lift h k ?_
  clear h k; have h := Only.refl 1024 s
  unfold setSat
  exact (Only.ite (causeTraces_only (modSlot_only h rfl) rfl) (modSlot_only h rfl))

theorem noteLimit_only {m : Nat} {s0 : State} {x0 : Nat} {x1 : Coeffs} {s : State} (h : Only m s0 s) (k : 1028 &&& m = 1028) : Only m s0 (noteLimit x0 x1 s) := by
  refine Only.lift h k ?_
  clear h k; have h := Only.refl 1028 s
  unfold noteLimit
  exact (Only.ite (modSlot_only h rfl) (endFault_only (modSlot_only h rfl) rfl))

theorem notePlausibility_only {m : Nat} {s0 : State} {x0 : Nat} {x1 : Feed} {s : State} (h : Only m s0 s) (k : 1028 &&& m = 1028) : Only m s0 (notePlausibility x0 x1 s) := by
  refine Only.lift h k ?_
  clear h k; have h := Only.refl 1028 s
  unfold notePlausibility
  exact (Only.ite (by split; exact (Only.ite (modSlot_only h rfl) h); exact (Only.ite (modSlot_only h rfl) (Only.ite (modSlot_only h rfl) h)); exact h) (Only.ite (Only.ite (raiseLevel_only (by split; exact (Only.ite (modSlot_only h rfl) h); exact (Only.ite (modSlot_only h rfl) (Only.ite (modSlot_only h rfl) h)); exact h) rfl) (by split; exact (Only.ite (modSlot_only h rfl) h); exact (Only.ite (modSlot_only h rfl) (Only.ite (modSlot_only h rfl) h)); exact h)) (Only.ite (endFault_only (by split; exact (Only.ite (modSlot_only h rfl) h); exact (Only.ite (modSlot_only h rfl) (Only.ite (modSlot_only h rfl) h)); exact h) rfl) (by split; exact (Only.ite (modSlot_only h rfl) h); exact (Only.ite (modSlot_only h rfl) (Only.ite (modSlot_only h rfl) h)); exact h))))

theorem takeSwap_only {m : Nat} {s0 : State} {x0 : Nat} {s : State} (h : Only m s0 s) (k : 1032 &&& m = 1032) : Only m s0 (takeSwap x0 s) := by
  refine Only.lift h k ?_
  clear h k; have h := Only.refl 1032 s
  unfold takeSwap
  exact (Only.ite h (Only.ite (submitLog_only (State_modCl_only (by split; exact (Only.ite (modSlot_only h rfl) (modSlot_only (modSlot_only h rfl) rfl)); exact (modSlot_only h rfl)) rfl) rfl) (State_modCl_only (by split; exact (Only.ite (modSlot_only h rfl) (modSlot_only (modSlot_only h rfl) rfl)); exact (modSlot_only h rfl)) rfl)))

theorem putOutput_only {m : Nat} {s0 : State} {x0 : Nat} {x1 : ℤ} {s : State} (h : Only m s0 s) (k : 1476 &&& m = 1476) : Only m s0 (putOutput x0 x1 s) := by
  refine Only.lift h k ?_
  clear h k; have h := Only.refl 1476 s
  unfold putOutput
  exact (by split; exact (writeGcmd_only (modSlot_only h rfl) rfl); exact (modSlot_only h rfl))

theorem pidIteration_only {m : Nat} {s0 : State} {x0 : Nat} {x1 : Coeffs} {x2 : ℤ} {s : State} (h : Only m s0 s) (k : 1476 &&& m = 1476) : Only m s0 (pidIteration x0 x1 x2 s) := by
  refine Only.lift h k ?_
  clear h k; have h := Only.refl 1476 s
  unfold pidIteration
  exact (noteLimit_only (setSat_only (modSlot_only (Only.ite h (putOutput_only h rfl)) rfl) rfl) rfl)

theorem gainIteration_only {m : Nat} {s0 : State} {x0 : Nat} {x1 : Coeffs} {s : State} (h : Only m s0 s) (k : 1476 &&& m = 1476) : Only m s0 (gainIteration x0 x1 s) := by
  refine Only.lift h k ?_
  clear h k; have h := Only.refl 1476 s
  unfold gainIteration
  exact (noteLimit_only (setSat_only (modSlot_only (Only.ite h (putOutput_only h rfl)) rfl) rfl) rfl)

theorem chainGainIteration_only {m : Nat} {s0 : State} {x0 : Nat} {x1 : Coeffs} {x2 : ℤ} {s : State} (h : Only m s0 s) (k : 1124 &&& m = 1124) : Only m s0 (chainGainIteration x0 x1 x2 s) := by
  refine Only.lift h k ?_
  clear h k; have h := Only.refl 1124 s
  unfold chainGainIteration
  exact (noteLimit_only (modSlot_only (Only.ite h (requestAtten_only h rfl)) rfl) rfl)

theorem holdIteration_only {m : Nat} {s0 : State} {x0 : Nat} {x1 : Feed} {s : State} (h : Only m s0 s) (k : 1024 &&& m = 1024) : Only m s0 (holdIteration x0 x1 s) := by
  refine Only.lift h k ?_
  clear h k; have h := Only.refl 1024 s
  unfold holdIteration
  exact (Only.ite (Only.ite (modSlot_only h rfl) (stopInjection_only (modSlot_only h rfl) rfl)) (causeTraces_only (Only.ite (modSlot_only h rfl) (stopInjection_only (modSlot_only h rfl) rfl)) rfl))

theorem runIteration_only {m : Nat} {s0 : State} {x0 : Nat} {x1 : Feed} {s : State} (h : Only m s0 s) (k : 1516 &&& m = 1516) : Only m s0 (runIteration x0 x1 s) := by
  refine Only.lift h k ?_
  clear h k; have h := Only.refl 1516 s
  unfold runIteration
  exact (Only.ite (State_modCl_only (modSlot_only (by split; exact (modSlot_only (takeSwap_only h rfl) rfl); exact (by split; exact (gainIteration_only (modSlot_only (takeSwap_only h rfl) rfl) rfl); exact (chainGainIteration_only (modSlot_only (takeSwap_only h rfl) rfl) rfl); exact (pidIteration_only (modSlot_only (takeSwap_only h rfl) rfl) rfl); exact (modSlot_only (takeSwap_only h rfl) rfl))) rfl) rfl) (modSlot_only (by split; exact (modSlot_only (takeSwap_only h rfl) rfl); exact (by split; exact (gainIteration_only (modSlot_only (takeSwap_only h rfl) rfl) rfl); exact (chainGainIteration_only (modSlot_only (takeSwap_only h rfl) rfl) rfl); exact (pidIteration_only (modSlot_only (takeSwap_only h rfl) rfl) rfl); exact (modSlot_only (takeSwap_only h rfl) rfl))) rfl))

theorem noteUsage_only {m : Nat} {s0 : State} {x0 : Nat} {s : State} (h : Only m s0 s) (k : 1024 &&& m = 1024) : Only m s0 (noteUsage x0 s) := by
  refine Only.lift h k ?_
  clear h k; have h := Only.refl 1024 s
  unfold noteUsage
  exact (State_modCl_only h rfl)

theorem slotIteration_only {m : Nat} {s0 : State} {x0 : Nat} {x1 : IterInput} {s : State} (h : Only m s0 s) (k : 1517 &&& m = 1517) : Only m s0 (slotIteration x0 x1 s) := by
  refine Only.lift h k ?_
  clear h k; have h := Only.refl 1517 s
  unfold slotIteration
  exact (Only.ite h (noteUsage_only (recordTrace_only (Only.ite (modSlot_only (causeTraces_only (Only.ite (runIteration_only (modSlot_only (notePlausibility_only (by split; exact (Only.ite (stopInjection_only (Only.ite (beginInjection_only (advanceTo_only (advanceToAir_only h rfl) rfl) rfl) (advanceTo_only (advanceToAir_only h rfl) rfl)) rfl) (Only.ite (beginInjection_only (advanceTo_only (advanceToAir_only h rfl) rfl) rfl) (advanceTo_only (advanceToAir_only h rfl) rfl))); exact (advanceTo_only (advanceToAir_only h rfl) rfl)) rfl) rfl) rfl) (holdIteration_only (modSlot_only (notePlausibility_only (by split; exact (Only.ite (stopInjection_only (Only.ite (beginInjection_only (advanceTo_only (advanceToAir_only h rfl) rfl) rfl) (advanceTo_only (advanceToAir_only h rfl) rfl)) rfl) (Only.ite (beginInjection_only (advanceTo_only (advanceToAir_only h rfl) rfl) rfl) (advanceTo_only (advanceToAir_only h rfl) rfl))); exact (advanceTo_only (advanceToAir_only h rfl) rfl)) rfl) rfl) rfl)) rfl) rfl) (Only.ite (runIteration_only (modSlot_only (notePlausibility_only (by split; exact (Only.ite (stopInjection_only (Only.ite (beginInjection_only (advanceTo_only (advanceToAir_only h rfl) rfl) rfl) (advanceTo_only (advanceToAir_only h rfl) rfl)) rfl) (Only.ite (beginInjection_only (advanceTo_only (advanceToAir_only h rfl) rfl) rfl) (advanceTo_only (advanceToAir_only h rfl) rfl))); exact (advanceTo_only (advanceToAir_only h rfl) rfl)) rfl) rfl) rfl) (holdIteration_only (modSlot_only (notePlausibility_only (by split; exact (Only.ite (stopInjection_only (Only.ite (beginInjection_only (advanceTo_only (advanceToAir_only h rfl) rfl) rfl) (advanceTo_only (advanceToAir_only h rfl) rfl)) rfl) (Only.ite (beginInjection_only (advanceTo_only (advanceToAir_only h rfl) rfl) rfl) (advanceTo_only (advanceToAir_only h rfl) rfl))); exact (advanceTo_only (advanceToAir_only h rfl) rfl)) rfl) rfl) rfl))) rfl) rfl))

theorem iterationOverrun_only {m : Nat} {s0 : State} {x0 : Nat} {s : State} (h : Only m s0 s) (k : 1029 &&& m = 1029) : Only m s0 (iterationOverrun x0 s) := by
  refine Only.lift h k ?_
  clear h k; have h := Only.refl 1029 s
  unfold iterationOverrun
  exact (Only.ite h (recordTrace_only (Only.ite (raiseLevel_only (Only.ite (causeTraces_only (stopInjection_only (State_modCl_only (modSlot_only (advanceToAir_only h rfl) rfl) rfl) rfl) rfl) (Only.ite (stopInjection_only (State_modCl_only (modSlot_only (advanceToAir_only h rfl) rfl) rfl) rfl) (State_modCl_only (modSlot_only (advanceToAir_only h rfl) rfl) rfl))) rfl) (Only.ite (causeTraces_only (stopInjection_only (State_modCl_only (modSlot_only (advanceToAir_only h rfl) rfl) rfl) rfl) rfl) (Only.ite (stopInjection_only (State_modCl_only (modSlot_only (advanceToAir_only h rfl) rfl) rfl) rfl) (State_modCl_only (modSlot_only (advanceToAir_only h rfl) rfl) rfl)))) rfl))

theorem overrunHoldEnd_only {m : Nat} {s0 : State} {x0 : Nat} {s : State} (h : Only m s0 s) (k : 1028 &&& m = 1028) : Only m s0 (overrunHoldEnd x0 s) := by
  refine Only.lift h k ?_
  clear h k; have h := Only.refl 1028 s
  unfold overrunHoldEnd
  exact (Only.ite (endFault_only (modSlot_only h rfl) rfl) h)

theorem loopSaturatedTimeout_only {m : Nat} {s0 : State} {x0 : Nat} {s : State} (h : Only m s0 s) (k : 5 &&& m = 5) : Only m s0 (loopSaturatedTimeout x0 s) := by
  refine Only.lift h k ?_
  clear h k; have h := Only.refl 5 s
  unfold loopSaturatedTimeout
  exact (by split; exact (raiseLevel_only (advanceTo_only h rfl) rfl); exact h)

theorem injectionStart_only {m : Nat} {s0 : State} {x0 : Nat} {s : State} (h : Only m s0 s) (k : 1025 &&& m = 1025) : Only m s0 (injectionStart x0 s) := by
  refine Only.lift h k ?_
  clear h k; have h := Only.refl 1025 s
  unfold injectionStart
  exact (by (try dsimp only); split; exact (Only.ite h (beginInjection_only (advanceToAir_only (by split; exact (advanceToAir_only h rfl); exact h) rfl) rfl)); exact h)

theorem injectionEnd_only {m : Nat} {s0 : State} {x0 : Nat} {s : State} (h : Only m s0 s) (k : 1026 &&& m = 1026) : Only m s0 (injectionEnd x0 s) := by
  refine Only.lift h k ?_
  clear h k; have h := Only.refl 1026 s
  unfold injectionEnd
  exact (by split; exact (Only.ite (endInjection_only h rfl) h); exact h)

theorem repBinBoundary_only {m : Nat} {s0 : State} {x0 : Nat} {s : State} (h : Only m s0 s) (k : 1477 &&& m = 1477) : Only m s0 (repBinBoundary x0 s) := by
  refine Only.lift h k ?_
  clear h k; have h := Only.refl 1477 s
  unfold repBinBoundary
  exact (by split; exact h; exact (Only.ite h (by split; exact (Only.foldl (modRep_only (advanceToAir_only h rfl) rfl) (fun _ _ h0 => (writeGcmd_only h0 rfl))))))

theorem repTableClear_only {m : Nat} {s0 : State} {x0 : Nat} {s : State} (h : Only m s0 s) (k : 1477 &&& m = 1477) : Only m s0 (repTableClear x0 s) := by
  refine Only.lift h k ?_
  clear h k; have h := Only.refl 1477 s
  unfold repTableClear
  exact (Only.ite h (Only.foldl (modRep_only (by split; exact (Only.ite h (advanceToAir_only h rfl)); exact h) rfl) (fun _ _ h0 => (writeGcmd_only h0 rfl))))

theorem patternClears_only {m : Nat} {s0 : State} {x0 : Nat} {s : State} (h : Only m s0 s) (k : 1024 &&& m = 1024) : Only m s0 (patternClears x0 s) := by
  refine Only.lift h k ?_
  clear h k; have h := Only.refl 1024 s
  unfold patternClears
  exact (Only.foldl h (fun _ _ h0 => (Only.ite (askRepClear_only h0 rfl) h0)))

theorem repUpdate_only {m : Nat} {s0 : State} {x0 : Nat} {x1 : List (Nat × ℤ)} {s : State} (h : Only m s0 s) (k : 1024 &&& m = 1024) : Only m s0 (repUpdate x0 x1 s) := by
  refine Only.lift h k ?_
  clear h k; have h := Only.refl 1024 s
  unfold repUpdate
  exact (Only.ite h (modRep_only h rfl))

theorem releaseSlot_only {m : Nat} {s0 : State} {x0 : Nat} {s : State} (h : Only m s0 s) (k : 1030 &&& m = 1030) : Only m s0 (releaseSlot x0 s) := by
  refine Only.lift h k ?_
  clear h k; have h := Only.refl 1030 s
  unfold releaseSlot
  exact (endFault_only (endFault_only (modSlot_only (endInjection_only (stopInjection_only h rfl) rfl) rfl) rfl) rfl)

theorem slotConfig_only {m : Nat} {s0 : State} {x0 : List Byte} {s : State} (h : Only m s0 s) (k : 1094 &&& m = 1094) : Only m s0 (slotConfig x0 s) := by
  refine Only.lift h k ?_
  clear h k; have h := Only.refl 1094 s
  unfold slotConfig
  exact (by (try dsimp only); split; exact (releaseSlot_only h rfl); exact (Only.ite (enableSlot_only (Only.ite (modBand_only (modSlot_only h rfl) rfl) (modSlot_only h rfl)) rfl) (Only.ite (modSlot_only (Only.ite (modBand_only (modSlot_only h rfl) rfl) (modSlot_only h rfl)) rfl) (Only.ite (modBand_only (modSlot_only h rfl) rfl) (modSlot_only h rfl)))))

theorem specClSlotConfig_only : SpecOnly 1094 specClSlotConfig := by
  constructor
  · intro s q
    have h := Only.refl 1094 s
    dsimp only [specClSlotConfig]
    exact (slotConfig_only h rfl)
  · intro s q st
    have h := Only.refl 1094 s
    dsimp only [specClSlotConfig]
    exact h

theorem specClBankWrite_only : SpecOnly 1024 specClBankWrite := by
  constructor
  · intro s q
    have h := Only.refl 1024 s
    dsimp only [specClBankWrite]
    exact (modSlot_only h rfl)
  · intro s q st
    have h := Only.refl 1024 s
    dsimp only [specClBankWrite]
    exact h

theorem specClBankSwap_only : SpecOnly 1024 specClBankSwap := by
  constructor
  · intro s q
    have h := Only.refl 1024 s
    dsimp only [specClBankSwap]
    exact (Only.foldl h (fun _ _ h0 => (modSlot_only h0 rfl)))
  · intro s q st
    have h := Only.refl 1024 s
    dsimp only [specClBankSwap]
    exact h

theorem specClSetpoint_only : SpecOnly 1024 specClSetpoint := by
  constructor
  · intro s q
    have h := Only.refl 1024 s
    dsimp only [specClSetpoint]
    exact (modSlot_only h rfl)
  · intro s q st
    have h := Only.refl 1024 s
    dsimp only [specClSetpoint]
    exact h

theorem slotControl_only {m : Nat} {s0 : State} {x0 : Nat} {x1 : Nat} {s : State} (h : Only m s0 s) (k : 1028 &&& m = 1028) : Only m s0 (slotControl x0 x1 s) := by
  refine Only.lift h k ?_
  clear h k; have h := Only.refl 1028 s
  unfold slotControl
  exact (Only.ite (disableSlot_only h rfl) (Only.ite (Only.ite h (enableSlot_only h rfl)) (enableSlot_only h rfl)))

theorem specClSlotControl_only : SpecOnly 1028 specClSlotControl := by
  constructor
  · intro s q
    have h := Only.refl 1028 s
    dsimp only [specClSlotControl]
    exact (slotControl_only h rfl)
  · intro s q st
    have h := Only.refl 1028 s
    dsimp only [specClSlotControl]
    exact h

theorem repConfig_only {m : Nat} {s0 : State} {x0 : List Byte} {s : State} (h : Only m s0 s) (k : 1024 &&& m = 1024) : Only m s0 (repConfig x0 s) := by
  refine Only.lift h k ?_
  clear h k; have h := Only.refl 1024 s
  unfold repConfig
  exact (modRep_only h rfl)

theorem specClRepConfig_only : SpecOnly 1024 specClRepConfig := by
  constructor
  · intro s q
    have h := Only.refl 1024 s
    dsimp only [specClRepConfig]
    exact (repConfig_only h rfl)
  · intro s q st
    have h := Only.refl 1024 s
    dsimp only [specClRepConfig]
    exact h

theorem startInjection_only {m : Nat} {s0 : State} {x0 : List Byte} {x1 : Ticket} {s : State} (h : Only m s0 s) (k : 1024 &&& m = 1024) : Only m s0 (startInjection x0 x1 s) := by
  refine Only.lift h k ?_
  clear h k; have h := Only.refl 1024 s
  unfold startInjection
  exact (Only.ite (modSlot_only h rfl) (State_modCl_only (modSlot_only h rfl) rfl))

theorem specClInject_only : SpecOnly 1024 specClInject := by
  constructor
  · intro s q
    have h := Only.refl 1024 s
    dsimp only [specClInject]
    exact (Only.ite1 (stopInjection_only h rfl) (startInjection_only h rfl))
  · intro s q st
    have h := Only.refl 1024 s
    dsimp only [specClInject]
    exact h

theorem traceConfig_only {m : Nat} {s0 : State} {x0 : List Byte} {s : State} (h : Only m s0 s) (k : 1024 &&& m = 1024) : Only m s0 (traceConfig x0 s) := by
  refine Only.lift h k ?_
  clear h k; have h := Only.refl 1024 s
  unfold traceConfig
  exact (State_modCl_only h rfl)

theorem specClTraceConfig_only : SpecOnly 1024 specClTraceConfig := by
  constructor
  · intro s q
    have h := Only.refl 1024 s
    dsimp only [specClTraceConfig]
    exact (traceConfig_only h rfl)
  · intro s q st
    have h := Only.refl 1024 s
    dsimp only [specClTraceConfig]
    exact h

theorem specClTraceRead_only : SpecOnly 0 specClTraceRead := by
  constructor
  · intro s q
    have h := Only.refl 0 s
    dsimp only [specClTraceRead]
    exact h
  · intro s q st
    have h := Only.refl 0 s
    dsimp only [specClTraceRead]
    exact h

theorem specClPolicy_only : SpecOnly 1024 specClPolicy := by
  constructor
  · intro s q
    have h := Only.refl 1024 s
    dsimp only [specClPolicy]
    exact (State_modCl_only h rfl)
  · intro s q st
    have h := Only.refl 1024 s
    dsimp only [specClPolicy]
    exact h

theorem resetEngine_only {m : Nat} {s0 : State} {s : State} (h : Only m s0 s) (k : 1024 &&& m = 1024) : Only m s0 (resetEngine s) := by
  refine Only.lift h k ?_
  clear h k; have h := Only.refl 1024 s
  unfold resetEngine
  exact (Only.foldl (State_modCl_only (Only.foldl h (fun _ _ h0 => (modSlot_only h0 rfl))) rfl) (fun _ _ h0 => (enableSlot_only h0 rfl)))

theorem testConverter_only {m : Nat} {s0 : State} {x0 : Nat} {x1 : AdcSums} {s : State} (h : Only m s0 s) (k : 516 &&& m = 516) : Only m s0 (testConverter x0 x1 s) := by
  refine Only.lift h k ?_
  clear h k; have h := Only.refl 516 s
  unfold testConverter
  exact (Only.ite (State_modHk_only h rfl) (Only.ite (Only.ite (raiseLevel_only (State_modHk_only (State_modHk_only (State_modHk_only h rfl) rfl) rfl) rfl) (State_modHk_only (State_modHk_only h rfl) rfl)) (Only.ite (endFault_only (State_modHk_only (State_modHk_only (State_modHk_only h rfl) rfl) rfl) rfl) (State_modHk_only (State_modHk_only h rfl) rfl))))

theorem hkSlotEnd_only {m : Nat} {s0 : State} {x0 : HkSlotInput} {s : State} (h : Only m s0 s) (k : 517 &&& m = 517) : Only m s0 (hkSlotEnd x0 s) := by
  refine Only.lift h k ?_
  clear h k; have h := Only.refl 517 s
  unfold hkSlotEnd
  exact (Only.ite h (Only.ite (testConverter_only (testConverter_only (State_modHk_only (advanceTo_only h rfl) rfl) rfl) rfl) (State_modHk_only (advanceTo_only h rfl) rfl)))

theorem countDrop_only {m : Nat} {s0 : State} {s : State} (h : Only m s0 s) (k : 512 &&& m = 512) : Only m s0 (countDrop s) := by
  refine Only.lift h k ?_
  clear h k; have h := Only.refl 512 s
  unfold countDrop
  exact (State_modHk_only h rfl)

theorem requestUrgent_only {m : Nat} {s0 : State} {x0 : Nat} {x1 : UrgentBy} {s : State} (h : Only m s0 s) (k : 512 &&& m = 512) : Only m s0 (requestUrgent x0 x1 s) := by
  refine Only.lift h k ?_
  clear h k; have h := Only.refl 512 s
  unfold requestUrgent
  exact (Only.ite (State_modHk_only h rfl) (countDrop_only h rfl))

theorem urgentSlotEnd_only {m : Nat} {s0 : State} {x0 : HkSlotInput} {s : State} (h : Only m s0 s) (k : 35331 &&& m = 35331) : Only m s0 (urgentSlotEnd x0 s) := by
  refine Only.lift h k ?_
  clear h k; have h := Only.refl 35331 s
  unfold urgentSlotEnd
  exact (by split; exact h; exact (Only.ite h (by (try dsimp only); split; exact (finishDeferred_only (State_modHk_only (advanceTo_only h rfl) rfl) rfl); exact (State_modPs_only (State_modHk_only (advanceTo_only h rfl) rfl) rfl))))

theorem publishRecords_only {m : Nat} {s0 : State} {s : State} (h : Only m s0 s) (k : 512 &&& m = 512) : Only m s0 (publishRecords s) := by
  refine Only.lift h k ?_
  clear h k; have h := Only.refl 512 s
  unfold publishRecords
  exact (State_modHk_only h rfl)

theorem measureCal_only {m : Nat} {s0 : State} {s : State} (h : Only m s0 s) (k : 512 &&& m = 512) : Only m s0 (measureCal s) := by
  refine Only.lift h k ?_
  clear h k; have h := Only.refl 512 s
  unfold measureCal
  exact (State_modHk_only h rfl)

theorem calPointComplete_only {m : Nat} {s0 : State} {x0 : Bool} {s : State} (h : Only m s0 s) (k : 514 &&& m = 514) : Only m s0 (calPointComplete x0 s) := by
  refine Only.lift h k ?_
  clear h k; have h := Only.refl 514 s
  unfold calPointComplete
  exact (by split; exact h; exact (Only.ite h (Only.ite (complete_only (State_modHk_only (State_modHk_only h rfl) rfl) rfl) (Only.ite (by split; exact (Only.ite (complete_only (State_modHk_only h rfl) rfl) (Only.ite (complete_only (State_modHk_only (State_modHk_only h rfl) rfl) rfl) (complete_only (State_modHk_only h rfl) rfl))); exact (complete_only (State_modHk_only h rfl) rfl)) (Only.ite (complete_only (State_modHk_only (State_modHk_only h rfl) rfl) rfl) (complete_only (State_modHk_only h rfl) rfl))))))

theorem channelRecordLatch_only {m : Nat} {s0 : State} {x0 : Nat} {s : State} (h : Only m s0 s) (k : 2 &&& m = 2) : Only m s0 (channelRecordLatch x0 s) := by
  refine Only.lift h k ?_
  clear h k; have h := Only.refl 2 s
  unfold channelRecordLatch
  exact (Only.ite (State_modHost_only h rfl) h)

theorem clockMonitorCheck_only {m : Nat} {s0 : State} {x0 : List Nat} {s : State} (h : Only m s0 s) (k : 516 &&& m = 516) : Only m s0 (clockMonitorCheck x0 s) := by
  refine Only.lift h k ?_
  clear h k; have h := Only.refl 516 s
  unfold clockMonitorCheck
  exact (Only.ite h (by (try dsimp only); split; exact (raiseFault_only (State_modHk_only h rfl) rfl); exact (Only.ite (endFault_only (State_modHk_only h rfl) rfl) (State_modHk_only h rfl))))

theorem specHkSlotMap_only : SpecOnly 512 specHkSlotMap := by
  constructor
  · intro s q
    have h := Only.refl 512 s
    dsimp only [specHkSlotMap]
    exact (State_modHk_only h rfl)
  · intro s q st
    have h := Only.refl 512 s
    dsimp only [specHkSlotMap]
    exact h

theorem specHkUrgent_only : SpecOnly 512 specHkUrgent := by
  constructor
  · intro s q
    have h := Only.refl 512 s
    dsimp only [specHkUrgent]
    exact (requestUrgent_only h rfl)
  · intro s q st
    have h := Only.refl 512 s
    dsimp only [specHkUrgent]
    exact (Only.ite (countDrop_only h rfl) h)

theorem specHkCalPoint_only : SpecOnly 512 specHkCalPoint := by
  constructor
  · intro s q
    have h := Only.refl 512 s
    dsimp only [specHkCalPoint]
    exact (State_modHk_only h rfl)
  · intro s q st
    have h := Only.refl 512 s
    dsimp only [specHkCalPoint]
    exact h

theorem specHkTestDac_only : SpecOnly 512 specHkTestDac := by
  constructor
  · intro s q
    have h := Only.refl 512 s
    dsimp only [specHkTestDac]
    exact (State_modHk_only h rfl)
  · intro s q st
    have h := Only.refl 512 s
    dsimp only [specHkTestDac]
    exact h

theorem specHkSupplyWindow_only : SpecOnly 512 specHkSupplyWindow := by
  constructor
  · intro s q
    have h := Only.refl 512 s
    dsimp only [specHkSupplyWindow]
    exact (State_modHk_only h rfl)
  · intro s q st
    have h := Only.refl 512 s
    dsimp only [specHkSupplyWindow]
    exact h

theorem specHkThermalPolicy_only : SpecOnly 512 specHkThermalPolicy := by
  constructor
  · intro s q
    have h := Only.refl 512 s
    dsimp only [specHkThermalPolicy]
    exact (State_modHk_only h rfl)
  · intro s q st
    have h := Only.refl 512 s
    dsimp only [specHkThermalPolicy]
    exact h

theorem modCas_only {m : Nat} {s0 : State} {x0 : Nat} {x1 : Cassette → Cassette} {s : State} (h : Only m s0 s) (k : 2048 &&& m = 2048) : Only m s0 (modCas x0 x1 s) := by
  refine Only.lift h k ?_
  clear h k; have h := Only.refl 2048 s
  unfold modCas
  exact (State_modPs_only h rfl)

theorem modCmp_only {m : Nat} {s0 : State} {x0 : Nat} {x1 : Cmp → Cmp} {s : State} (h : Only m s0 s) (k : 2048 &&& m = 2048) : Only m s0 (modCmp x0 x1 s) := by
  refine Only.lift h k ?_
  clear h k; have h := Only.refl 2048 s
  unfold modCmp
  exact (State_modPs_only h rfl)

theorem cassetteGone_only {m : Nat} {s0 : State} {x0 : Nat} {s : State} (h : Only m s0 s) (k : 2500 &&& m = 2500) : Only m s0 (cassetteGone x0 s) := by
  refine Only.lift h k ?_
  clear h k; have h := Only.refl 2500 s
  unfold cassetteGone
  exact (dropBackoffs_only (modCas_only h rfl) rfl)

theorem reachPinched_only {m : Nat} {s0 : State} {x0 : Nat} {s : State} (h : Only m s0 s) (k : 2502 &&& m = 2502) : Only m s0 (reachPinched x0 s) := by
  refine Only.lift h k ?_
  clear h k; have h := Only.refl 2502 s
  unfold reachPinched
  exact (completeOpt_only (Only.ite (cassetteGone_only (modCas_only h rfl) rfl) (modCas_only h rfl)) rfl)

theorem completeEnable_only {m : Nat} {s0 : State} {x0 : Option (List Ticket × Nat)} {x1 : Status} {s : State} (h : Only m s0 s) (k : 2 &&& m = 2) : Only m s0 (completeEnable x0 x1 s) := by
  refine Only.lift h k ?_
  clear h k; have h := Only.refl 2 s
  unfold completeEnable
  exact (by split; exact (Only.foldl h (fun _ _ h0 => (complete_only h0 rfl))); exact h)

theorem startDraining_only {m : Nat} {s0 : State} {x0 : Nat} {x1 : Bool} {s : State} (h : Only m s0 s) (k : 2050 &&& m = 2050) : Only m s0 (startDraining x0 x1 s) := by
  refine Only.lift h k ?_
  clear h k; have h := Only.refl 2050 s
  unfold startDraining
  exact (Only.ite (by (try dsimp only); split; exact (complete_only (completeEnable_only (modCas_only h rfl) rfl) rfl); exact (completeEnable_only (modCas_only h rfl) rfl)) h)

theorem abortEnable_only {m : Nat} {s0 : State} {x0 : Nat} {s : State} (h : Only m s0 s) (k : 2050 &&& m = 2050) : Only m s0 (abortEnable x0 s) := by
  refine Only.lift h k ?_
  clear h k; have h := Only.refl 2050 s
  unfold abortEnable
  exact (Only.ite (completeEnable_only (modCas_only h rfl) rfl) h)

theorem shutCassette_only {m : Nat} {s0 : State} {x0 : Nat} {s : State} (h : Only m s0 s) (k : 2050 &&& m = 2050) : Only m s0 (shutCassette x0 s) := by
  refine Only.lift h k ?_
  clear h k; have h := Only.refl 2050 s
  unfold shutCassette
  exact (startDraining_only (abortEnable_only h rfl) rfl)

theorem tryDrainUp_only {m : Nat} {s0 : State} {x0 : Nat} {s : State} (h : Only m s0 s) (k : 2048 &&& m = 2048) : Only m s0 (tryDrainUp x0 s) := by
  refine Only.lift h k ?_
  clear h k; have h := Only.refl 2048 s
  unfold tryDrainUp
  exact (Only.ite (modCas_only h rfl) h)

theorem drainRampEnd_only {m : Nat} {s0 : State} {x0 : Nat} {x1 : ℤ} {s : State} (h : Only m s0 s) (k : 2055 &&& m = 2055) : Only m s0 (drainRampEnd x0 x1 s) := by
  refine Only.lift h k ?_
  clear h k; have h := Only.refl 2055 s
  unfold drainRampEnd
  exact (Only.ite h (Only.ite (completeEnable_only (modCas_only (advanceTo_only h rfl) rfl) rfl) (raiseMoment_only (startDraining_only (advanceTo_only h rfl) rfl) rfl)))

theorem drainingComplete_only {m : Nat} {s0 : State} {x0 : Nat} {x1 : Nat} {s : State} (h : Only m s0 s) (k : 2527 &&& m = 2527) : Only m s0 (drainingComplete x0 x1 s) := by
  refine Only.lift h k ?_
  clear h k; have h := Only.refl 2527 s
  unfold drainingComplete
  exact (Only.ite h (reviewMove_only (tryDrainUp_only (reachPinched_only (advanceTo_only h rfl) rfl) rfl) rfl))

theorem paEnableQualTimeout_only {m : Nat} {s0 : State} {x0 : Nat} {s : State} (h : Only m s0 s) (k : 2051 &&& m = 2051) : Only m s0 (paEnableQualTimeout x0 s) := by
  refine Only.lift h k ?_
  clear h k; have h := Only.refl 2051 s
  unfold paEnableQualTimeout
  exact (by (try dsimp only); split; exact (Only.ite (completeEnable_only (modCas_only (advanceTo_only h rfl) rfl) rfl) h); exact h)

theorem hvLinkTimeout_only {m : Nat} {s0 : State} {s : State} (h : Only m s0 s) (k : 2054 &&& m = 2054) : Only m s0 (hvLinkTimeout s) := by
  refine Only.lift h k ?_
  clear h k; have h := Only.refl 2054 s
  unfold hvLinkTimeout
  exact (Only.ite h (Only.foldl (State_modPs_only h rfl) (fun _ _ h0 => (Only.ite h0 (raiseMoment_only (modCas_only (startDraining_only (abortEnable_only h0 rfl) rfl) rfl) rfl)))))

theorem gateOnEdge_only {m : Nat} {s0 : State} {x0 : Nat} {s : State} (h : Only m s0 s) (k : 2049 &&& m = 2049) : Only m s0 (gateOnEdge x0 s) := by
  refine Only.lift h k ?_
  clear h k; have h := Only.refl 2049 s
  unfold gateOnEdge
  exact (Only.ite h (by split; exact h; exact (Only.ite (modCas_only (modCas_only (Only.ite h (advanceToAir_only h rfl)) rfl) rfl) (modCas_only (Only.ite h (advanceToAir_only h rfl)) rfl))))

theorem gateOffEdge_only {m : Nat} {s0 : State} {x0 : Nat} {s : State} (h : Only m s0 s) (k : 2049 &&& m = 2049) : Only m s0 (gateOffEdge x0 s) := by
  refine Only.lift h k ?_
  clear h k; have h := Only.refl 2049 s
  unfold gateOffEdge
  exact (Only.ite h (by split; exact h; exact (modCas_only (Only.ite h (advanceToAir_only h rfl)) rfl)))

theorem bandsChanged_only {m : Nat} {s0 : State} {s : State} (h : Only m s0 s) (k : 2048 &&& m = 2048) : Only m s0 (bandsChanged s) := by
  refine Only.lift h k ?_
  clear h k; have h := Only.refl 2048 s
  unfold bandsChanged
  exact (Only.foldl h (fun _ _ h0 => (Only.ite h0 (modCas_only h0 rfl))))

theorem openDrains_only {m : Nat} {s0 : State} {x0 : Nat} {s : State} (h : Only m s0 s) (k : 2050 &&& m = 2050) : Only m s0 (openDrains x0 s) := by
  refine Only.lift h k ?_
  clear h k; have h := Only.refl 2050 s
  unfold openDrains
  exact (Only.ite (Only.foldl h (fun _ _ h0 => (Only.ite (startDraining_only h0 rfl) (abortEnable_only h0 rfl)))) h)

theorem raiseCmp_only {m : Nat} {s0 : State} {x0 : Nat} {x1 : Bool} {s : State} (h : Only m s0 s) (k : 4 &&& m = 4) : Only m s0 (raiseCmp x0 x1 s) := by
  refine Only.lift h k ?_
  clear h k; have h := Only.refl 4 s
  unfold raiseCmp
  exact (Only.foldl h (fun _ _ h0 => (Only.ite h0 (Only.ite (raiseMoment_only h0 rfl) (raiseLevel_only h0 rfl)))))

theorem comparatorTrip_only {m : Nat} {s0 : State} {x0 : Nat} {x1 : ℤ} {s : State} (h : Only m s0 s) (k : 2566 &&& m = 2566) : Only m s0 (comparatorTrip x0 x1 s) := by
  refine Only.lift h k ?_
  clear h k; have h := Only.refl 2566 s
  unfold comparatorTrip
  exact (Only.ite h (Only.ite (Only.ite (raiseCmp_only (Only.ite (requestUrgent_only (openDrains_only (Only.foldl (modCmp_only h rfl) (fun _ _ h0 => (modCas_only h0 rfl))) rfl) rfl) (Only.ite (requestUrgent_only (openDrains_only (Only.foldl (modCmp_only h rfl) (fun _ _ h0 => (modCas_only h0 rfl))) rfl) rfl) (openDrains_only (Only.foldl (modCmp_only h rfl) (fun _ _ h0 => (modCas_only h0 rfl))) rfl))) rfl) (Only.ite (requestUrgent_only (openDrains_only (Only.foldl (modCmp_only h rfl) (fun _ _ h0 => (modCas_only h0 rfl))) rfl) rfl) (Only.ite (requestUrgent_only (openDrains_only (Only.foldl (modCmp_only h rfl) (fun _ _ h0 => (modCas_only h0 rfl))) rfl) rfl) (openDrains_only (Only.foldl (modCmp_only h rfl) (fun _ _ h0 => (modCas_only h0 rfl))) rfl)))) (raiseCmp_only (modCmp_only (openDrains_only (Only.foldl (modCmp_only h rfl) (fun _ _ h0 => (modCas_only h0 rfl))) rfl) rfl) rfl)))

theorem endCmp_only {m : Nat} {s0 : State} {x0 : Nat} {s : State} (h : Only m s0 s) (k : 4 &&& m = 4) : Only m s0 (endCmp x0 s) := by
  refine Only.lift h k ?_
  clear h k; have h := Only.refl 4 s
  unfold endCmp
  exact (Only.foldl h (fun _ _ h0 => (Only.ite h0 (endFault_only h0 rfl))))

theorem comparatorTripClear_only {m : Nat} {s0 : State} {x0 : Nat} {x1 : ℤ} {s : State} (h : Only m s0 s) (k : 2052 &&& m = 2052) : Only m s0 (comparatorTripClear x0 x1 s) := by
  refine Only.lift h k ?_
  clear h k; have h := Only.refl 2052 s
  unfold comparatorTripClear
  exact (Only.ite h (endCmp_only (modCmp_only h rfl) rfl))

theorem tOffMinExpiry_only {m : Nat} {s0 : State} {x0 : Nat} {s : State} (h : Only m s0 s) (k : 1 &&& m = 1) : Only m s0 (tOffMinExpiry x0 s) := by
  refine Only.lift h k ?_
  clear h k; have h := Only.refl 1 s
  unfold tOffMinExpiry
  exact (Only.ite h (advanceTo_only h rfl))

theorem comparatorQualify_only {m : Nat} {s0 : State} {x0 : Nat} {x1 : ℤ} {s : State} (h : Only m s0 s) (k : 2048 &&& m = 2048) : Only m s0 (comparatorQualify x0 x1 s) := by
  refine Only.lift h k ?_
  clear h k; have h := Only.refl 2048 s
  unfold comparatorQualify
  exact (Only.ite h (Only.foldl (modCmp_only h rfl) (fun _ _ h0 => (tryDrainUp_only h0 rfl))))

theorem tripHoldExpiry_only {m : Nat} {s0 : State} {x0 : Nat} {s : State} (h : Only m s0 s) (k : 2053 &&& m = 2053) : Only m s0 (tripHoldExpiry x0 s) := by
  refine Only.lift h k ?_
  clear h k; have h := Only.refl 2053 s
  unfold tripHoldExpiry
  exact (Only.ite h (raiseCmp_only (modCmp_only (advanceTo_only h rfl) rfl) rfl))

theorem lifeWarning_only {m : Nat} {s0 : State} {x0 : Nat} {s : State} (h : Only m s0 s) (k : 2058 &&& m = 2058) : Only m s0 (lifeWarning x0 s) := by
  refine Only.lift h k ?_
  clear h k; have h := Only.refl 2058 s
  unfold lifeWarning
  exact (submitLog_only (postNotice_only (modCas_only h rfl) rfl) rfl)

theorem raiseId_only {m : Nat} {s0 : State} {x0 : Nat} {s : State} (h : Only m s0 s) (k : 4 &&& m = 4) : Only m s0 (raiseId x0 s) := by
  refine Only.lift h k ?_
  clear h k; have h := Only.refl 4 s
  unfold raiseId
  exact (raiseMoment_only h rfl)

theorem identFails_only {m : Nat} {s0 : State} {x0 : Nat} {s : State} (h : Only m s0 s) (k : 2054 &&& m = 2054) : Only m s0 (identFails x0 s) := by
  refine Only.lift h k ?_
  clear h k; have h := Only.refl 2054 s
  unfold identFails
  exact (raiseId_only (modCas_only (abortEnable_only h rfl) rfl) rfl)

theorem identChanged_only {m : Nat} {s0 : State} {x0 : Nat} {s : State} (h : Only m s0 s) (k : 2502 &&& m = 2502) : Only m s0 (identChanged x0 s) := by
  refine Only.lift h k ?_
  clear h k; have h := Only.refl 2502 s
  unfold identChanged
  exact (raiseId_only (cassetteGone_only (modCas_only (abortEnable_only h rfl) rfl) rfl) rfl)

theorem cassetteIdentify_only {m : Nat} {s0 : State} {x0 : Nat} {x1 : IdentInput} {s : State} (h : Only m s0 s)
    (k : 264654 &&& m = 264654) : Only m s0 (cassetteIdentify x0 x1 s) := by
  refine Only.lift h k ?_
  clear h k; have h := Only.refl 264654 s
  unfold cassetteIdentify
  have hd : Only 264654 s (draw s).2 := draw_only h rfl
  dsimp only
  split
  · exact h
  · split
    · exact identFails_only h rfl
    · split
      · exact identChanged_only h rfl
      · split
        · exact identFails_only hd rfl
        · refine tryDrainUp_only ?_ rfl
          have h2 : ∀ (o : Option Nat) (r : CasRecord), Only 264654 s (match o with
              | some f => submitLog 0x0802 (sourceIndex 4 x0) [x0, f, r.serial % 4294967296, r.serial / 4294967296] (draw s).2
              | none => (draw s).2) := by
            intro o r
            split
            · exact submitLog_only hd rfl
            · exact hd
          exact Only.ite (lifeWarning_only (modCas_only (h2 _ _) rfl) rfl) (modCas_only (h2 _ _) rfl)

theorem cassetteIdPoll_only {m : Nat} {s0 : State} {x0 : Nat} {x1 : Option Nat} {s : State} (h : Only m s0 s) (k : 2502 &&& m = 2502) : Only m s0 (cassetteIdPoll x0 x1 s) := by
  refine Only.lift h k ?_
  clear h k; have h := Only.refl 2502 s
  unfold cassetteIdPoll
  exact (Only.ite h (Only.ite (identChanged_only h rfl) (raiseId_only (startDraining_only (modCas_only h rfl) rfl) rfl)))

theorem stressRound_only {m : Nat} {s0 : State} {s : State} (h : Only m s0 s) (k : 2500 &&& m = 2500) : Only m s0 (stressRound s) := by
  refine Only.lift h k ?_
  clear h k; have h := Only.refl 2500 s
  unfold stressRound
  exact (Only.foldl h (fun _ _ h0 => (Only.ite (by split; exact (outputMeasured_only (Only.ite (by split; exact (modCas_only h0 rfl); exact (modCas_only h0 rfl)) (Only.ite h0 (modCas_only h0 rfl))) rfl); exact (Only.ite (by split; exact (modCas_only h0 rfl); exact (modCas_only h0 rfl)) (Only.ite h0 (modCas_only h0 rfl)))) (Only.ite (by split; exact (modCas_only h0 rfl); exact (modCas_only h0 rfl)) (Only.ite h0 (modCas_only h0 rfl))))))

theorem checkLife_only {m : Nat} {s0 : State} {x0 : Nat} {s : State} (h : Only m s0 s) (k : 2062 &&& m = 2062) : Only m s0 (checkLife x0 s) := by
  refine Only.lift h k ?_
  clear h k; have h := Only.refl 2062 s
  unfold checkLife
  exact (Only.ite (raiseMoment_only (modCas_only (Only.ite (lifeWarning_only h rfl) h) rfl) rfl) (Only.ite (lifeWarning_only h rfl) h))

theorem stressMinute_only {m : Nat} {s0 : State} {s : State} (h : Only m s0 s) (k : 2063 &&& m = 2063) : Only m s0 (stressMinute s) := by
  refine Only.lift h k ?_
  clear h k; have h := Only.refl 2063 s
  unfold stressMinute
  exact (Only.foldl (advanceTo_only h rfl) (fun _ _ h0 => (Only.ite h0 (checkLife_only (modCas_only h0 rfl) rfl))))

theorem writeLife_only {m : Nat} {s0 : State} {x0 : Nat} {s : State} (h : Only m s0 s) (k : 2048 &&& m = 2048) : Only m s0 (writeLife x0 s) := by
  refine Only.lift h k ?_
  clear h k; have h := Only.refl 2048 s
  unfold writeLife
  exact (modCas_only h rfl)

theorem lifeRecordWrite_only {m : Nat} {s0 : State} {s : State} (h : Only m s0 s) (k : 2049 &&& m = 2049) : Only m s0 (lifeRecordWrite s) := by
  refine Only.lift h k ?_
  clear h k; have h := Only.refl 2049 s
  unfold lifeRecordWrite
  exact (Only.foldl (advanceTo_only h rfl) (fun _ _ h0 => (writeLife_only h0 rfl)))

theorem biasCalComplete_only {m : Nat} {s0 : State} {x0 : Nat} {x1 : BiasInput} {s : State} (h : Only m s0 s) (k : 2054 &&& m = 2054) : Only m s0 (biasCalComplete x0 x1 s) := by
  refine Only.lift h k ?_
  clear h k; have h := Only.refl 2054 s
  unfold biasCalComplete
  exact (by (try dsimp only); split; exact h; exact (Only.ite (complete_only (modCas_only h rfl) rfl) (Only.ite (complete_only (raiseMoment_only (modCas_only h rfl) rfl) rfl) (complete_only (bandsChanged_only (modCas_only (modCas_only h rfl) rfl) rfl) rfl))))

theorem specPaConfig_only : SpecOnly 2048 specPaConfig := by
  constructor
  · intro s q
    have h := Only.refl 2048 s
    dsimp only [specPaConfig]
    exact (modCas_only h rfl)
  · intro s q st
    have h := Only.refl 2048 s
    dsimp only [specPaConfig]
    exact h

theorem specPaTiming_only : SpecOnly 2048 specPaTiming := by
  constructor
  · intro s q
    have h := Only.refl 2048 s
    dsimp only [specPaTiming]
    exact (modCas_only h rfl)
  · intro s q st
    have h := Only.refl 2048 s
    dsimp only [specPaTiming]
    exact h

theorem specPaBiasTable_only : SpecOnly 2048 specPaBiasTable := by
  constructor
  · intro s q
    have h := Only.refl 2048 s
    dsimp only [specPaBiasTable]
    exact (bandsChanged_only (modCas_only h rfl) rfl)
  · intro s q st
    have h := Only.refl 2048 s
    dsimp only [specPaBiasTable]
    exact h

theorem specCmpConfig_only : SpecOnly 2048 specCmpConfig := by
  constructor
  · intro s q
    have h := Only.refl 2048 s
    dsimp only [specCmpConfig]
    exact (modCmp_only h rfl)
  · intro s q st
    have h := Only.refl 2048 s
    dsimp only [specCmpConfig]
    exact h

theorem specCmpMode_only : SpecOnly 2048 specCmpMode := by
  constructor
  · intro s q
    have h := Only.refl 2048 s
    dsimp only [specCmpMode]
    exact (Only.foldl h (fun _ _ h0 => (modCmp_only h0 rfl)))
  · intro s q st
    have h := Only.refl 2048 s
    dsimp only [specCmpMode]
    exact h

theorem paEnableOne_only {m : Nat} {s0 : State} {x0 : Nat} {x1 : Ticket} {s : State} {x3 : Nat} (h : Only m s0 s) (k : 2050 &&& m = 2050) : Only m s0 (paEnableOne x0 x1 s x3) := by
  refine Only.lift h k ?_
  clear h k; have h := Only.refl 2050 s
  unfold paEnableOne
  exact (Only.ite (by split; exact (complete_only h rfl); exact (modCas_only h rfl); exact (tryDrainUp_only (modCas_only h rfl) rfl)) (by (try dsimp only); split; exact (complete_only (abortEnable_only h rfl) rfl); exact (modCas_only (completeOpt_only (abortEnable_only h rfl) rfl) rfl); exact (modCas_only (startDraining_only (abortEnable_only h rfl) rfl) rfl)))

theorem specPaEnable_only : SpecOnly 2050 specPaEnable := by
  constructor
  · intro s q
    have h := Only.refl 2050 s
    dsimp only [specPaEnable]
    exact (Only.foldl h (fun _ _ h0 => (paEnableOne_only h0 rfl)))
  · intro s q st
    have h := Only.refl 2050 s
    dsimp only [specPaEnable]
    exact h

theorem specPaBiasCal_only : SpecOnly 2048 specPaBiasCal := by
  constructor
  · intro s q
    have h := Only.refl 2048 s
    dsimp only [specPaBiasCal]
    exact (modCas_only h rfl)
  · intro s q st
    have h := Only.refl 2048 s
    dsimp only [specPaBiasCal]
    exact h

theorem specCasPolicy_only : SpecOnly 2048 specCasPolicy := by
  constructor
  · intro s q
    have h := Only.refl 2048 s
    dsimp only [specCasPolicy]
    exact (State_modPs_only h rfl)
  · intro s q st
    have h := Only.refl 2048 s
    dsimp only [specCasPolicy]
    exact h

theorem specCasIdentityRead_only : SpecOnly 0 specCasIdentityRead := by
  constructor
  · intro s q
    have h := Only.refl 0 s
    dsimp only [specCasIdentityRead]
    exact h
  · intro s q st
    have h := Only.refl 0 s
    dsimp only [specCasIdentityRead]
    exact h

theorem resetPowerStage_only {m : Nat} {s0 : State} {s : State} (h : Only m s0 s) (k : 2048 &&& m = 2048) : Only m s0 (resetPowerStage s) := by
  refine Only.lift h k ?_
  clear h k; have h := Only.refl 2048 s
  unfold resetPowerStage
  exact (State_modPs_only h rfl)

end Sys2Proof.Machine
end

