-- ==== Sys2Proof/Laws/FramesFabric.lean ====
section
/-! SUPPORT. Frames of air time, the flock, temperatures, the Bell link, Drover, memory and captures: what each operation touches at most. -/

namespace Sys2Proof.Machine

open Sys2Proof

theorem decidePhase_only {m : Nat} {s0 : State} {s : State} (h : Only m s0 s) (k : 1 &&& m = 1) : Only m s0 (decidePhase s) := by
  refine Only.lift h k ?_
  clear h k; have h := Only.refl 1 s
  unfold decidePhase
  exact (Only.ite (State_modAir_only h rfl) (State_modAir_only h rfl))

theorem selectSource_only {m : Nat} {s0 : State} {x0 : Nat} {s : State} (h : Only m s0 s) (k : 1 &&& m = 1) : Only m s0 (selectSource x0 s) := by
  refine Only.lift h k ?_
  clear h k; have h := Only.refl 1 s
  unfold selectSource
  exact (decidePhase_only (State_modAir_only h rfl) rfl)

theorem loseSource_only {m : Nat} {s0 : State} {s : State} (h : Only m s0 s) (k : 1 &&& m = 1) : Only m s0 (loseSource s) := by
  refine Only.lift h k ?_
  clear h k; have h := Only.refl 1 s
  unfold loseSource
  exact (State_modAir_only h rfl)

theorem reselect_only {m : Nat} {s0 : State} {s : State} (h : Only m s0 s) (k : 1 &&& m = 1) : Only m s0 (reselect s) := by
  refine Only.lift h k ?_
  clear h k; have h := Only.refl 1 s
  unfold reselect
  exact (Only.ite (by split; exact (Only.ite (selectSource_only h rfl) h); exact h) (by split; exact (selectSource_only h rfl); exact (Only.ite h (loseSource_only h rfl))))

theorem failSource_only {m : Nat} {s0 : State} {x0 : Nat} {s : State} (h : Only m s0 s) (k : 1 &&& m = 1) : Only m s0 (failSource x0 s) := by
  refine Only.lift h k ?_
  clear h k; have h := Only.refl 1 s
  unfold failSource
  exact (Only.ite (Only.ite (reselect_only (State_modAir_only h rfl) rfl) (State_modAir_only h rfl)) h)

theorem becomeUsable_only {m : Nat} {s0 : State} {x0 : Nat} {s : State} (h : Only m s0 s) (k : 1 &&& m = 1) : Only m s0 (becomeUsable x0 s) := by
  refine Only.lift h k ?_
  clear h k; have h := Only.refl 1 s
  unfold becomeUsable
  exact (State_modAir_only h rfl)

theorem measureSource_only {m : Nat} {s0 : State} {x0 : Nat} {x1 : ℤ} {x2 : Nat} {x3 : ℤ} {s : State} (h : Only m s0 s) (k : 1 &&& m = 1) : Only m s0 (measureSource x0 x1 x2 x3 s) := by
  refine Only.lift h k ?_
  clear h k; have h := Only.refl 1 s
  unfold measureSource
  exact (State_modAir_only h rfl)

theorem donorDetection_only {m : Nat} {s0 : State} {x0 : DonorInput} {s : State} (h : Only m s0 s) (k : 1 &&& m = 1) : Only m s0 (donorDetection x0 s) := by
  refine Only.lift h k ?_
  clear h k; have h := Only.refl 1 s
  unfold donorDetection
  exact (Only.ite h (Only.ite (Only.ite (reselect_only (State_modAir_only h rfl) rfl) (State_modAir_only h rfl)) (Only.ite (measureSource_only (State_modAir_only h rfl) rfl) (Only.ite (State_modAir_only h rfl) (Only.ite (becomeUsable_only (measureSource_only (State_modAir_only h rfl) rfl) rfl) (State_modAir_only h rfl))))))

theorem donorSyncTimeout_only {m : Nat} {s0 : State} {s : State} (h : Only m s0 s) (k : 1 &&& m = 1) : Only m s0 (donorSyncTimeout s) := by
  refine Only.lift h k ?_
  clear h k; have h := Only.refl 1 s
  unfold donorSyncTimeout
  exact (Only.ite (failSource_only (advanceTo_only h rfl) rfl) h)

theorem setWall_only {m : Nat} {s0 : State} {x0 : Nat} {x1 : Nat} {s : State} (h : Only m s0 s) (k : 9 &&& m = 9) : Only m s0 (setWall x0 x1 s) := by
  refine Only.lift h k ?_
  clear h k; have h := Only.refl 9 s
  unfold setWall
  exact (Only.ite (State_modAir_only h rfl) (submitLog_only (State_modAir_only (Only.ite (State_modLog_only h rfl) h) rfl) rfl))

theorem ptpSyncRx_only {m : Nat} {s0 : State} {x0 : PtpInput} {s : State} (h : Only m s0 s) (k : 9 &&& m = 9) : Only m s0 (ptpSyncRx x0 s) := by
  refine Only.lift h k ?_
  clear h k; have h := Only.refl 9 s
  unfold ptpSyncRx
  exact (Only.ite h (Only.ite (setWall_only (by split; exact (Only.ite (becomeUsable_only (measureSource_only (State_modAir_only h rfl) rfl) rfl) (measureSource_only (State_modAir_only h rfl) rfl)); exact (measureSource_only (State_modAir_only h rfl) rfl)) rfl) (by split; exact (Only.ite (becomeUsable_only (measureSource_only (State_modAir_only h rfl) rfl) rfl) (measureSource_only (State_modAir_only h rfl) rfl)); exact (measureSource_only (State_modAir_only h rfl) rfl))))

theorem ptpSyncTimeout_only {m : Nat} {s0 : State} {s : State} (h : Only m s0 s) (k : 1 &&& m = 1) : Only m s0 (ptpSyncTimeout s) := by
  refine Only.lift h k ?_
  clear h k; have h := Only.refl 1 s
  unfold ptpSyncTimeout
  exact (Only.ite (failSource_only (advanceTo_only h rfl) rfl) h)

theorem ppsInEdge_only {m : Nat} {s0 : State} {x0 : Nat} {s : State} (h : Only m s0 s) (k : 1 &&& m = 1) : Only m s0 (ppsInEdge x0 s) := by
  refine Only.lift h k ?_
  clear h k; have h := Only.refl 1 s
  unfold ppsInEdge
  exact (Only.ite h (by (try dsimp only); split; exact (Only.ite (measureSource_only (State_modAir_only h rfl) rfl) (State_modAir_only h rfl)); exact (State_modAir_only h rfl)))

theorem ppsInMissing_only {m : Nat} {s0 : State} {s : State} (h : Only m s0 s) (k : 1 &&& m = 1) : Only m s0 (ppsInMissing s) := by
  refine Only.lift h k ?_
  clear h k; have h := Only.refl 1 s
  unfold ppsInMissing
  exact (by split; exact (failSource_only (State_modAir_only (advanceTo_only h rfl) rfl) rfl); exact h)

theorem sourceRetry_only {m : Nat} {s0 : State} {x0 : Nat} {s : State} (h : Only m s0 s) (k : 1 &&& m = 1) : Only m s0 (sourceRetry x0 s) := by
  refine Only.lift h k ?_
  clear h k; have h := Only.refl 1 s
  unfold sourceRetry
  exact (Only.ite (State_modAir_only (advanceTo_only h rfl) rfl) h)

theorem revertHoldExpiry_only {m : Nat} {s0 : State} {s : State} (h : Only m s0 s) (k : 1 &&& m = 1) : Only m s0 (revertHoldExpiry s) := by
  refine Only.lift h k ?_
  clear h k; have h := Only.refl 1 s
  unfold revertHoldExpiry
  exact (by split; exact (Only.ite (reselect_only (advanceTo_only h rfl) rfl) h); exact h)

theorem checkTimeLoss_only {m : Nat} {s0 : State} {s : State} (h : Only m s0 s) (k : 4 &&& m = 4) : Only m s0 (checkTimeLoss s) := by
  refine Only.lift h k ?_
  clear h k; have h := Only.refl 4 s
  unfold checkTimeLoss
  exact (Only.ite (endFault_only h rfl) h)

theorem phaseTick_only {m : Nat} {s0 : State} {s : State} (h : Only m s0 s) (k : 1 &&& m = 1) : Only m s0 (phaseTick s) := by
  refine Only.lift h k ?_
  clear h k; have h := Only.refl 1 s
  unfold phaseTick
  exact (by (try dsimp only); split; exact (Only.ite (State_modAir_only h rfl) (decidePhase_only (State_modAir_only h rfl) rfl)); exact (State_modAir_only h rfl); exact h)

theorem atLocked_only {m : Nat} {s0 : State} {s : State} (h : Only m s0 s) (k : 5 &&& m = 5) : Only m s0 (atLocked s) := by
  refine Only.lift h k ?_
  clear h k; have h := Only.refl 5 s
  unfold atLocked
  exact (Only.ite (checkTimeLoss_only (State_modAir_only h rfl) rfl) h)

theorem timeErrLimitExceeded_only {m : Nat} {s0 : State} {s : State} (h : Only m s0 s) (k : 5 &&& m = 5) : Only m s0 (timeErrLimitExceeded s) := by
  refine Only.lift h k ?_
  clear h k; have h := Only.refl 5 s
  unfold timeErrLimitExceeded
  exact (Only.ite (Only.ite (advance_only h rfl) (raiseLevel_only (advance_only h rfl) rfl)) h)

theorem stepPendingEnd_only {m : Nat} {s0 : State} {s : State} (h : Only m s0 s) (k : 1 &&& m = 1) : Only m s0 (stepPendingEnd s) := by
  refine Only.lift h k ?_
  clear h k; have h := Only.refl 1 s
  unfold stepPendingEnd
  exact (by split; exact (State_modAir_only (advanceTo_only h rfl) rfl); exact h)

theorem refInQualify_only {m : Nat} {s0 : State} {x0 : ℤ} {s : State} (h : Only m s0 s) (k : 1 &&& m = 1) : Only m s0 (refInQualify x0 s) := by
  refine Only.lift h k ?_
  clear h k; have h := Only.refl 1 s
  unfold refInQualify
  exact (Only.ite (State_modAir_only (waitUntil_only h rfl) rfl) (State_modAir_only (waitUntil_only h rfl) rfl))

theorem refInLoss_only {m : Nat} {s0 : State} {x0 : Bool} {s : State} (h : Only m s0 s) (k : 1 &&& m = 1) : Only m s0 (refInLoss x0 s) := by
  refine Only.lift h k ?_
  clear h k; have h := Only.refl 1 s
  unfold refInLoss
  exact (State_modAir_only h rfl)

theorem ppsOutPulseEnd_only {m : Nat} {s0 : State} {s : State} (h : Only m s0 s) (k : 1 &&& m = 1) : Only m s0 (ppsOutPulseEnd s) := by
  refine Only.lift h k ?_
  clear h k; have h := Only.refl 1 s
  unfold ppsOutPulseEnd
  exact (by split; exact (State_modAir_only (advanceTo_only h rfl) rfl); exact h)

theorem judgeWindow_only {m : Nat} {s0 : State} {x0 : Nat} {x1 : ℤ} {x2 : PatternDef} {x3 : List (Option ℤ)} {x4 : Pattern} {s : State} (h : Only m s0 s) (k : 3 &&& m = 3) : Only m s0 (judgeWindow x0 x1 x2 x3 x4 s) := by
  refine Only.lift h k ?_
  clear h k; have h := Only.refl 3 s
  unfold judgeWindow
  exact (Only.ite (Only.ite (State_modAir_only h rfl) (postNotice_only (State_modAir_only h rfl) rfl)) (Only.ite (postNotice_only (State_modAir_only h rfl) rfl) (State_modAir_only h rfl)))

theorem tddVerifyWindowEnd_only {m : Nat} {s0 : State} {x0 : Nat} {x1 : ℤ} {s : State} (h : Only m s0 s) (k : 3 &&& m = 3) : Only m s0 (tddVerifyWindowEnd x0 x1 s) := by
  refine Only.lift h k ?_
  clear h k; have h := Only.refl 3 s
  unfold tddVerifyWindowEnd
  exact (by (try dsimp only); split; exact h; exact (Only.ite h (Only.ite (State_modAir_only (advanceToAir_only h rfl) rfl) (judgeWindow_only (advanceToAir_only h rfl) rfl))))

theorem specAtSourceConfig_only : SpecOnly 1 specAtSourceConfig := by
  constructor
  · intro s q
    have h := Only.refl 1 s
    dsimp only [specAtSourceConfig]
    exact (State_modAir_only h rfl)
  · intro s q st
    have h := Only.refl 1 s
    dsimp only [specAtSourceConfig]
    exact h

theorem specTddPatternSet_only : SpecOnly 1 specTddPatternSet := by
  constructor
  · intro s q
    have h := Only.refl 1 s
    dsimp only [specTddPatternSet]
    exact (State_modAir_only h rfl)
  · intro s q st
    have h := Only.refl 1 s
    dsimp only [specTddPatternSet]
    exact h

theorem specWallTimeSet_only : SpecOnly 9 specWallTimeSet := by
  constructor
  · intro s q
    have h := Only.refl 9 s
    dsimp only [specWallTimeSet]
    exact (setWall_only h rfl)
  · intro s q st
    have h := Only.refl 9 s
    dsimp only [specWallTimeSet]
    exact h

theorem sendHello_only {m : Nat} {s0 : State} {x0 : Nat} {s : State} (h : Only m s0 s) (k : 266240 &&& m = 266240) : Only m s0 (sendHello x0 s) := by
  refine Only.lift h k ?_
  clear h k; have h := Only.refl 266240 s
  unfold sendHello
  exact (sendLink_only (modPort_only (draw_only h rfl) rfl) rfl)

theorem sendHellos_only {m : Nat} {s0 : State} {s : State} (h : Only m s0 s) (k : 266240 &&& m = 266240) : Only m s0 (sendHellos s) := by
  refine Only.lift h k ?_
  clear h k; have h := Only.refl 266240 s
  unfold sendHellos
  exact (Only.ite h (Only.foldl h (fun _ _ h0 => (sendHello_only h0 rfl))))

theorem chooseAlternate_only {m : Nat} {s0 : State} {s : State} (h : Only m s0 s) (k : 4096 &&& m = 4096) : Only m s0 (chooseAlternate s) := by
  refine Only.lift h k ?_
  clear h k; have h := Only.refl 4096 s
  unfold chooseAlternate
  exact (by split; exact (State_modFl_only h rfl); exact (State_modFl_only h rfl))

theorem sendRehome_only {m : Nat} {s0 : State} {s : State} (h : Only m s0 s) (k : 266240 &&& m = 266240) : Only m s0 (sendRehome s) := by
  refine Only.lift h k ?_
  clear h k; have h := Only.refl 266240 s
  unfold sendRehome
  exact (by split; exact (sendUp_only h rfl); exact h)

theorem takePrimary_only {m : Nat} {s0 : State} {x0 : Nat} {s : State} (h : Only m s0 s) (k : 266240 &&& m = 266240) : Only m s0 (takePrimary x0 s) := by
  refine Only.lift h k ?_
  clear h k; have h := Only.refl 266240 s
  unfold takePrimary
  exact (by (try dsimp only); split; exact (sendHellos_only (sendRehome_only (State_modFl_only (chooseAlternate_only (State_modFl_only h rfl) rfl) rfl) rfl) rfl); exact (Only.ite (State_modFl_only (chooseAlternate_only (State_modFl_only h rfl) rfl) rfl) (chooseAlternate_only (State_modFl_only h rfl) rfl)); exact (chooseAlternate_only (State_modFl_only h rfl) rfl))

theorem choosePath_only {m : Nat} {s0 : State} {s : State} (h : Only m s0 s) (k : 266240 &&& m = 266240) : Only m s0 (choosePath s) := by
  refine Only.lift h k ?_
  clear h k; have h := Only.refl 266240 s
  unfold choosePath
  exact (Only.ite h (by split; exact (chooseAlternate_only h rfl); exact (by split; exact (takePrimary_only h rfl); exact h)))

theorem followFlock_only {m : Nat} {s0 : State} {s : State} (h : Only m s0 s) (k : 1 &&& m = 1) : Only m s0 (followFlock s) := by
  refine Only.lift h k ?_
  clear h k; have h := Only.refl 1 s
  unfold followFlock
  exact (by split; exact (Only.ite h (failSource_only h rfl)); exact (failSource_only h rfl))

theorem leavePrimary_only {m : Nat} {s0 : State} {s : State} (h : Only m s0 s) (k : 266240 &&& m = 266240) : Only m s0 (leavePrimary s) := by
  refine Only.lift h k ?_
  clear h k; have h := Only.refl 266240 s
  unfold leavePrimary
  exact (by (try dsimp only); split; exact (by (try dsimp only); split; exact (Only.ite (takePrimary_only (sendBelow_only (State_modFl_only (State_modFl_only h rfl) rfl) rfl) rfl) (choosePath_only (sendBelow_only (State_modFl_only (State_modFl_only h rfl) rfl) rfl) rfl)); exact (choosePath_only (sendBelow_only (State_modFl_only (State_modFl_only h rfl) rfl) rfl) rfl)); exact (by (try dsimp only); split; exact (Only.ite (takePrimary_only (sendBelow_only (State_modFl_only (State_modFl_only h rfl) rfl) rfl) rfl) (choosePath_only (sendBelow_only (State_modFl_only (State_modFl_only h rfl) rfl) rfl) rfl)); exact (choosePath_only (sendBelow_only (State_modFl_only (State_modFl_only h rfl) rfl) rfl) rfl)); exact (choosePath_only (State_modFl_only (State_modFl_only h rfl) rfl) rfl); exact (choosePath_only (State_modFl_only (State_modFl_only h rfl) rfl) rfl); exact (choosePath_only (State_modFl_only (State_modFl_only h rfl) rfl) rfl); exact (choosePath_only (State_modFl_only h rfl) rfl))

theorem losePrimary_only {m : Nat} {s0 : State} {s : State} (h : Only m s0 s) (k : 266241 &&& m = 266241) : Only m s0 (losePrimary s) := by
  refine Only.lift h k ?_
  clear h k; have h := Only.refl 266241 s
  unfold losePrimary
  exact (followFlock_only (leavePrimary_only h rfl) rfl)

theorem failTimePort_only {m : Nat} {s0 : State} {x0 : Nat} {s : State} (h : Only m s0 s) (k : 4096 &&& m = 4096) : Only m s0 (failTimePort x0 s) := by
  refine Only.lift h k ?_
  clear h k; have h := Only.refl 4096 s
  unfold failTimePort
  exact (modPort_only h rfl)

theorem timePortLost_only {m : Nat} {s0 : State} {x0 : Nat} {s : State} (h : Only m s0 s) (k : 4097 &&& m = 4097) : Only m s0 (timePortLost x0 s) := by
  refine Only.lift h k ?_
  clear h k; have h := Only.refl 4097 s
  unfold timePortLost
  exact (Only.ite (followFlock_only (failTimePort_only h rfl) rfl) (failTimePort_only h rfl))

theorem flockSourceTimeout_only {m : Nat} {s0 : State} {s : State} (h : Only m s0 s) (k : 4097 &&& m = 4097) : Only m s0 (flockSourceTimeout s) := by
  refine Only.lift h k ?_
  clear h k; have h := Only.refl 4097 s
  unfold flockSourceTimeout
  exact (Only.ite (by (try dsimp only); split; exact (timePortLost_only (advanceTo_only h rfl) rfl); exact (failSource_only (advanceTo_only h rfl) rfl)) h)

theorem ttReq_only {m : Nat} {s0 : State} {x0 : Nat} {x1 : Nat} {s : State} (h : Only m s0 s) (k : 266240 &&& m = 266240) : Only m s0 (ttReq x0 x1 s) := by
  refine Only.lift h k ?_
  clear h k; have h := Only.refl 266240 s
  unfold ttReq
  exact (Only.ite (sendLink_only (draw_only h rfl) rfl) h)

theorem flockExchange_only {m : Nat} {s0 : State} {x0 : Nat} {x1 : ℤ} {x2 : Nat} {x3 : ℤ} {s : State} (h : Only m s0 s) (k : 1 &&& m = 1) : Only m s0 (flockExchange x0 x1 x2 x3 s) := by
  refine Only.lift h k ?_
  clear h k; have h := Only.refl 1 s
  unfold flockExchange
  exact (Only.ite (Only.ite h (Only.ite (becomeUsable_only (measureSource_only (State_modAir_only h rfl) rfl) rfl) (measureSource_only (State_modAir_only h rfl) rfl))) h)

theorem ttResp_only {m : Nat} {s0 : State} {x0 : Nat} {x1 : Nat} {x2 : Nat} {x3 : Nat} {x4 : ℤ} {s : State} (h : Only m s0 s) (k : 4097 &&& m = 4097) : Only m s0 (ttResp x0 x1 x2 x3 x4 s) := by
  refine Only.lift h k ?_
  clear h k; have h := Only.refl 4097 s
  unfold ttResp
  exact (by (try dsimp only); split; exact h; exact (Only.ite (flockExchange_only (modPort_only (modPort_only h rfl) rfl) rfl) (modPort_only (modPort_only h rfl) rfl)))

theorem placementTrigger_only {m : Nat} {s0 : State} {s : State} (h : Only m s0 s) (k : 8192 &&& m = 8192) : Only m s0 (placementTrigger s) := by
  refine Only.lift h k ?_
  clear h k; have h := Only.refl 8192 s
  unfold placementTrigger
  exact (Only.ite (State_modDv_only h rfl) h)

theorem portDown_only {m : Nat} {s0 : State} {x0 : Nat} {s : State} (h : Only m s0 s) (k : 266241 &&& m = 266241) : Only m s0 (portDown x0 s) := by
  refine Only.lift h k ?_
  clear h k; have h := Only.refl 266241 s
  unfold portDown
  exact (Only.ite (followFlock_only (Only.ite (losePrimary_only (failTimePort_only (Only.ite (State_modFl_only (modPort_only h rfl) rfl) (modPort_only h rfl)) rfl) rfl) (chooseAlternate_only (failTimePort_only (Only.ite (State_modFl_only (modPort_only h rfl) rfl) (modPort_only h rfl)) rfl) rfl)) rfl) (Only.ite (losePrimary_only (failTimePort_only (Only.ite (State_modFl_only (modPort_only h rfl) rfl) (modPort_only h rfl)) rfl) rfl) (chooseAlternate_only (failTimePort_only (Only.ite (State_modFl_only (modPort_only h rfl) rfl) (modPort_only h rfl)) rfl) rfl)))

theorem reviewPort_only {m : Nat} {s0 : State} {x0 : Nat} {x1 : Bool} {s : State} (h : Only m s0 s) (k : 266241 &&& m = 266241) : Only m s0 (reviewPort x0 x1 s) := by
  refine Only.lift h k ?_
  clear h k; have h := Only.refl 266241 s
  unfold reviewPort
  exact (Only.ite (portDown_only h rfl) h)

theorem withdrawLane_only {m : Nat} {s0 : State} {x0 : Nat} {s : State} (h : Only m s0 s) (k : 274432 &&& m = 274432) : Only m s0 (withdrawLane x0 s) := by
  refine Only.lift h k ?_
  clear h k; have h := Only.refl 274432 s
  unfold withdrawLane
  exact (Only.ite (placementTrigger_only (Only.ite (modPort_only (modLane_only h rfl) rfl) (sendLink_only (modPort_only (modLane_only h rfl) rfl) rfl)) rfl) (modLane_only h rfl))

theorem signalDetect_only {m : Nat} {s0 : State} {x0 : Nat} {s : State} (h : Only m s0 s) (k : 4096 &&& m = 4096) : Only m s0 (signalDetect x0 s) := by
  refine Only.lift h k ?_
  clear h k; have h := Only.refl 4096 s
  unfold signalDetect
  exact (Only.ite (modLane_only h rfl) h)

theorem laneUp_only {m : Nat} {s0 : State} {x0 : Nat} {x1 : Bool} {s : State} (h : Only m s0 s) (k : 274436 &&& m = 274436) : Only m s0 (laneUp x0 x1 s) := by
  refine Only.lift h k ?_
  clear h k; have h := Only.refl 274436 s
  unfold laneUp
  exact (Only.ite (choosePath_only (modPort_only (Only.ite (endFault_only (modLane_only h rfl) rfl) (placementTrigger_only (modPort_only (endFault_only (modLane_only h rfl) rfl) rfl) rfl)) rfl) rfl) h)

theorem laneTrainTimeout_only {m : Nat} {s0 : State} {x0 : Nat} {s : State} (h : Only m s0 s) (k : 4097 &&& m = 4097) : Only m s0 (laneTrainTimeout x0 s) := by
  refine Only.lift h k ?_
  clear h k; have h := Only.refl 4097 s
  unfold laneTrainTimeout
  exact (Only.ite (modLane_only (advanceTo_only h rfl) rfl) h)

theorem laneDown_only {m : Nat} {s0 : State} {x0 : Nat} {x1 : LaneLoss} {s : State} (h : Only m s0 s) (k : 274437 &&& m = 274437) : Only m s0 (laneDown x0 x1 s) := by
  refine Only.lift h k ?_
  clear h k; have h := Only.refl 274437 s
  unfold laneDown
  exact (Only.ite (Only.ite (portDown_only (raiseLevel_only (withdrawLane_only (modLane_only h rfl) rfl) rfl) rfl) (timePortLost_only (raiseLevel_only (withdrawLane_only (modLane_only h rfl) rfl) rfl) rfl)) h)

theorem retrainBackoffExpiry_only {m : Nat} {s0 : State} {x0 : Nat} {s : State} (h : Only m s0 s) (k : 4097 &&& m = 4097) : Only m s0 (retrainBackoffExpiry x0 s) := by
  refine Only.lift h k ?_
  clear h k; have h := Only.refl 4097 s
  unfold retrainBackoffExpiry
  exact (by split; exact (modLane_only (advanceTo_only h rfl) rfl); exact h)

theorem laneSerWarn_only {m : Nat} {s0 : State} {x0 : Nat} {s : State} (h : Only m s0 s) (k : 4098 &&& m = 4098) : Only m s0 (laneSerWarn x0 s) := by
  refine Only.lift h k ?_
  clear h k; have h := Only.refl 4098 s
  unfold laneSerWarn
  exact (Only.ite (postNotice_only (modLane_only h rfl) rfl) h)

theorem laneQualComplete_only {m : Nat} {s0 : State} {x0 : Nat} {s : State} (h : Only m s0 s) (k : 12292 &&& m = 12292) : Only m s0 (laneQualComplete x0 s) := by
  refine Only.lift h k ?_
  clear h k; have h := Only.refl 12292 s
  unfold laneQualComplete
  exact (Only.ite (placementTrigger_only (State_modFault_only (modLane_only h rfl) rfl) rfl) h)

theorem nameLanes_only {m : Nat} {s0 : State} {x0 : Nat} {s : State} (h : Only m s0 s) (k : 266240 &&& m = 266240) : Only m s0 (nameLanes x0 s) := by
  refine Only.lift h k ?_
  clear h k; have h := Only.refl 266240 s
  unfold nameLanes
  exact (Only.foldl h (fun _ _ h0 => (Only.ite h0 (sendLink_only (modPort_only h0 rfl) rfl))))

theorem laneSet_only {m : Nat} {s0 : State} {x0 : Nat} {x1 : Nat} {x2 : Nat} {s : State} (h : Only m s0 s) (k : 12288 &&& m = 12288) : Only m s0 (laneSet x0 x1 x2 s) := by
  refine Only.lift h k ?_
  clear h k; have h := Only.refl 12288 s
  unfold laneSet
  exact (Only.ite (placementTrigger_only (modPort_only h rfl) rfl) (modPort_only h rfl))

theorem laneSetApply_only {m : Nat} {s0 : State} {x0 : Nat} {s : State} (h : Only m s0 s) (k : 4097 &&& m = 4097) : Only m s0 (laneSetApply x0 s) := by
  refine Only.lift h k ?_
  clear h k; have h := Only.refl 4097 s
  unfold laneSetApply
  exact (by split; exact (Only.foldl (modPort_only (advanceToAir_only h rfl) rfl) (fun _ _ h0 => (modLane_only h0 rfl))); exact h)

theorem powerPort_only {m : Nat} {s0 : State} {x0 : Nat} {s : State} (h : Only m s0 s) (k : 4096 &&& m = 4096) : Only m s0 (powerPort x0 s) := by
  refine Only.lift h k ?_
  clear h k; have h := Only.refl 4096 s
  unfold powerPort
  exact (Only.ite h (Only.foldl h (fun _ _ h0 => (modLane_only h0 rfl))))

theorem portTrainingStart_only {m : Nat} {s0 : State} {s : State} (h : Only m s0 s) (k : 4097 &&& m = 4097) : Only m s0 (portTrainingStart s) := by
  refine Only.lift h k ?_
  clear h k; have h := Only.refl 4097 s
  unfold portTrainingStart
  exact (Only.foldl (advanceTo_only h rfl) (fun _ _ h0 => (powerPort_only h0 rfl)))

theorem trainDownPorts_only {m : Nat} {s0 : State} {s : State} (h : Only m s0 s) (k : 4096 &&& m = 4096) : Only m s0 (trainDownPorts s) := by
  refine Only.lift h k ?_
  clear h k; have h := Only.refl 4096 s
  unfold trainDownPorts
  exact (Only.foldl h (fun _ _ h0 => (powerPort_only h0 rfl)))

theorem unpowerLanes_only {m : Nat} {s0 : State} {x0 : List Nat} {s : State} (h : Only m s0 s) (k : 4096 &&& m = 4096) : Only m s0 (unpowerLanes x0 s) := by
  refine Only.lift h k ?_
  clear h k; have h := Only.refl 4096 s
  unfold unpowerLanes
  exact (Only.foldl h (fun _ _ h0 => (modLane_only h0 rfl)))

theorem alignLanes_only {m : Nat} {s0 : State} {x0 : Nat} {s : State} (h : Only m s0 s) (k : 4096 &&& m = 4096) : Only m s0 (alignLanes x0 s) := by
  refine Only.lift h k ?_
  clear h k; have h := Only.refl 4096 s
  unfold alignLanes
  exact (Only.foldl h (fun _ _ h0 => (modLane_only h0 rfl)))

theorem displace_only {m : Nat} {s0 : State} {x0 : Nat} {x1 : Hello} {s : State} (h : Only m s0 s) (k : 266240 &&& m = 266240) : Only m s0 (displace x0 x1 s) := by
  refine Only.lift h k ?_
  clear h k; have h := Only.refl 266240 s
  unfold displace
  exact (by split; exact (by split; exact (Only.ite (enqueue_only h rfl) h); exact h); exact h)

theorem hello_only {m : Nat} {s0 : State} {x0 : Nat} {x1 : Hello} {s : State} (h : Only m s0 s) (k : 266241 &&& m = 266241) : Only m s0 (hello x0 x1 s) := by
  refine Only.lift h k ?_
  clear h k; have h := Only.refl 266241 s
  unfold hello
  exact (Only.ite h (Only.ite (reviewPort_only (Only.foldl (modPort_only h rfl) (fun _ _ h0 => (modLane_only h0 rfl))) rfl) (choosePath_only (displace_only (Only.ite (losePrimary_only (by split; exact (Only.ite (State_modFl_only (alignLanes_only (modPort_only h rfl) rfl) rfl) (alignLanes_only (modPort_only h rfl) rfl)); exact (alignLanes_only (modPort_only h rfl) rfl)) rfl) (Only.ite (losePrimary_only (by split; exact (Only.ite (State_modFl_only (alignLanes_only (modPort_only h rfl) rfl) rfl) (alignLanes_only (modPort_only h rfl) rfl)); exact (alignLanes_only (modPort_only h rfl) rfl)) rfl) (by split; exact (Only.ite (State_modFl_only (alignLanes_only (modPort_only h rfl) rfl) rfl) (alignLanes_only (modPort_only h rfl) rfl)); exact (alignLanes_only (modPort_only h rfl) rfl)))) rfl) rfl)))

theorem sendJoin_only {m : Nat} {s0 : State} {s : State} (h : Only m s0 s) (k : 266240 &&& m = 266240) : Only m s0 (sendJoin s) := by
  refine Only.lift h k ?_
  clear h k; have h := Only.refl 266240 s
  unfold sendJoin
  exact (by split; exact (State_modFl_only (enqueue_only h rfl) rfl); exact h)

theorem joinReqSend_only {m : Nat} {s0 : State} {s : State} (h : Only m s0 s) (k : 266240 &&& m = 266240) : Only m s0 (joinReqSend s) := by
  refine Only.lift h k ?_
  clear h k; have h := Only.refl 266240 s
  unfold joinReqSend
  exact (Only.ite (sendJoin_only h rfl) h)

theorem joinRespTimeout_only {m : Nat} {s0 : State} {s : State} (h : Only m s0 s) (k : 266241 &&& m = 266241) : Only m s0 (joinRespTimeout s) := by
  refine Only.lift h k ?_
  clear h k; have h := Only.refl 266241 s
  unfold joinRespTimeout
  exact (Only.ite (Only.ite (sendJoin_only (advanceToAir_only h rfl) rfl) (State_modFl_only (advanceToAir_only h rfl) rfl)) h)

theorem backoffExpiry_only {m : Nat} {s0 : State} {s : State} (h : Only m s0 s) (k : 266241 &&& m = 266241) : Only m s0 (backoffExpiry s) := by
  refine Only.lift h k ?_
  clear h k; have h := Only.refl 266241 s
  unfold backoffExpiry
  exact (Only.ite (Only.ite (sendJoin_only (advanceToAir_only h rfl) rfl) (State_modFl_only (advanceToAir_only h rfl) rfl)) h)

theorem completeJoins_only {m : Nat} {s0 : State} {x0 : Status} {s : State} (h : Only m s0 s) (k : 4098 &&& m = 4098) : Only m s0 (completeJoins x0 s) := by
  refine Only.lift h k ?_
  clear h k; have h := Only.refl 4098 s
  unfold completeJoins
  exact (Only.foldl (State_modFl_only h rfl) (fun _ _ h0 => (complete_only h0 rfl)))

theorem ownResponse_only {m : Nat} {s0 : State} {x0 : JoinResp} {s : State} (h : Only m s0 s) (k : 4098 &&& m = 4098) : Only m s0 (ownResponse x0 s) := by
  refine Only.lift h k ?_
  clear h k; have h := Only.refl 4098 s
  unfold ownResponse
  exact (Only.ite h (Only.ite (State_modFl_only h rfl) (Only.ite (completeJoins_only (postNotice_only (State_modFl_only (State_modFl_only h rfl) rfl) rfl) rfl) (State_modFl_only (State_modFl_only h rfl) rfl))))

theorem joinResp_only {m : Nat} {s0 : State} {x0 : FrameHeader} {x1 : JoinResp} {s : State} (h : Only m s0 s) (k : 266242 &&& m = 266242) : Only m s0 (joinResp x0 x1 s) := by
  refine Only.lift h k ?_
  clear h k; have h := Only.refl 266242 s
  unfold joinResp
  exact (Only.ite (ownResponse_only h rfl) (by split; exact (forward_only h rfl); exact h))

theorem countAdmit_only {m : Nat} {s0 : State} {s : State} (h : Only m s0 s) (k : 4096 &&& m = 4096) : Only m s0 (countAdmit s) := by
  refine Only.lift h k ?_
  clear h k; have h := Only.refl 4096 s
  unfold countAdmit
  exact (State_modFl_only h rfl)

theorem grantJoin_only {m : Nat} {s0 : State} {x0 : Nat} {x1 : JoinReq} {x2 : Nat} {s : State} (h : Only m s0 s) (k : 274432 &&& m = 274432) : Only m s0 (grantJoin x0 x1 x2 s) := by
  refine Only.lift h k ?_
  clear h k; have h := Only.refl 274432 s
  unfold grantJoin
  exact (State_modDv_only (enqueue_only (State_modFl_only (countAdmit_only h rfl) rfl) rfl) rfl)

theorem joinReq_only {m : Nat} {s0 : State} {x0 : Nat} {x1 : FrameHeader} {x2 : JoinReq} {s : State} (h : Only m s0 s) (k : 274440 &&& m = 274440) : Only m s0 (joinReq x0 x1 x2 s) := by
  refine Only.lift h k ?_
  clear h k; have h := Only.refl 274440 s
  unfold joinReq
  exact (Only.ite h (by (try dsimp only); split; exact (refuse_only (submitLog_only (State_modFl_only h rfl) rfl) rfl); exact (Only.ite (refuse_only (State_modFl_only h rfl) rfl) (Only.ite (refuse_only (State_modFl_only h rfl) rfl) (Only.ite (by split; exact (refuse_only (State_modFl_only h rfl) rfl); exact (by split; exact (grantJoin_only (State_modFl_only h rfl) rfl); exact (refuse_only (State_modFl_only h rfl) rfl))) (Only.ite (refuse_only (State_modFl_only h rfl) rfl) (Only.ite (forwardUp_only (countAdmit_only (State_modFl_only h rfl) rfl) rfl) (State_modFl_only h rfl))))))))

theorem becomeJoined_only {m : Nat} {s0 : State} {x0 : Nat} {s : State} (h : Only m s0 s) (k : 274886 &&& m = 274886) : Only m s0 (becomeJoined x0 s) := by
  refine Only.lift h k ?_
  clear h k; have h := Only.refl 274886 s
  unfold becomeJoined
  exact (refreshGains_only (sendHellos_only (choosePath_only (completeJoins_only (State_modDv_only (State_modFault_only (State_modFl_only h rfl) rfl) rfl) rfl) rfl) rfl) rfl)

theorem joinAdmission_only {m : Nat} {s0 : State} {s : State} (h : Only m s0 s) (k : 274887 &&& m = 274887) : Only m s0 (joinAdmission s) := by
  refine Only.lift h k ?_
  clear h k; have h := Only.refl 274887 s
  unfold joinAdmission
  exact (by split; exact h; exact (by (try dsimp only); split; exact (Only.ite (becomeJoined_only (State_modFl_only (advanceToAir_only h rfl) rfl) rfl) (State_modFl_only (advanceToAir_only h rfl) rfl)); exact (State_modFl_only (advanceToAir_only h rfl) rfl)))

theorem startLeave_only {m : Nat} {s0 : State} {x0 : Nat} {x1 : LeaveCause} {s : State} (h : Only m s0 s) (k : 266240 &&& m = 266240) : Only m s0 (startLeave x0 x1 s) := by
  refine Only.lift h k ?_
  clear h k; have h := Only.refl 266240 s
  unfold startLeave
  exact (sendUp_only (State_modFl_only h rfl) rfl)

theorem leave_only {m : Nat} {s0 : State} {x0 : FrameHeader} {x1 : Nat} {x2 : Nat} {x3 : Nat} {s : State} (h : Only m s0 s) (k : 274432 &&& m = 274432) : Only m s0 (leave x0 x1 x2 x3 s) := by
  refine Only.lift h k ?_
  clear h k; have h := Only.refl 274432 s
  unfold leave
  exact (Only.ite (by split; exact (sendTo_only (State_modDv_only (State_modFl_only h rfl) rfl) rfl); exact h) (forwardUp_only h rfl))

theorem leaveAck_only {m : Nat} {s0 : State} {x0 : FrameHeader} {x1 : Nat} {x2 : Nat} {x3 : Nat} {s : State} (h : Only m s0 s) (k : 266240 &&& m = 266240) : Only m s0 (leaveAck x0 x1 x2 x3 s) := by
  refine Only.lift h k ?_
  clear h k; have h := Only.refl 266240 s
  unfold leaveAck
  exact (Only.ite (by split; exact (State_modFl_only h rfl); exact (State_modFl_only h rfl)) (forwardTo_only h rfl))

theorem expel_only {m : Nat} {s0 : State} {x0 : FrameHeader} {s : State} (h : Only m s0 s) (k : 266240 &&& m = 266240) : Only m s0 (expel x0 s) := by
  refine Only.lift h k ?_
  clear h k; have h := Only.refl 266240 s
  unfold expel
  exact (Only.ite (startLeave_only h rfl) (forwardTo_only h rfl))

theorem silenceMember_only {m : Nat} {s0 : State} {s : State} (h : Only m s0 s) (k : 452 &&& m = 452) : Only m s0 (silenceMember s) := by
  refine Only.lift h k ?_
  clear h k; have h := Only.refl 452 s
  unfold silenceMember
  exact (refreshGains_only (State_modNp_only h rfl) rfl)

theorem becomeLeft_only {m : Nat} {s0 : State} {x0 : LeaveCause} {s : State} (h : Only m s0 s) (k : 12740 &&& m = 12740) : Only m s0 (becomeLeft x0 s) := by
  refine Only.lift h k ?_
  clear h k; have h := Only.refl 12740 s
  unfold becomeLeft
  exact (Only.ite (State_modDv_only (State_modFl_only (silenceMember_only h rfl) rfl) rfl) (Only.ite (State_modFl_only (State_modDv_only (State_modFl_only (silenceMember_only h rfl) rfl) rfl) rfl) (State_modDv_only (State_modFl_only (silenceMember_only h rfl) rfl) rfl)))

theorem leaveFrame_only {m : Nat} {s0 : State} {s : State} (h : Only m s0 s) (k : 12741 &&& m = 12741) : Only m s0 (leaveFrame s) := by
  refine Only.lift h k ?_
  clear h k; have h := Only.refl 12741 s
  unfold leaveFrame
  exact (by split; exact h; exact (by (try dsimp only); split; exact (Only.ite (becomeLeft_only (State_modFl_only (advanceToAir_only h rfl) rfl) rfl) (State_modFl_only (advanceToAir_only h rfl) rfl)); exact (State_modFl_only (advanceToAir_only h rfl) rfl)))

theorem hubStatus_only {m : Nat} {s0 : State} {x0 : Nat} {x1 : StatusReport} {s : State} (h : Only m s0 s) (k : 12672 &&& m = 12672) : Only m s0 (hubStatus x0 x1 s) := by
  refine Only.lift h k ?_
  clear h k; have h := Only.refl 12672 s
  unfold hubStatus
  exact (State_modNp_only (takeGains_only (State_modLg_only (Only.ite (State_modFl_only h rfl) (State_modDv_only (State_modFl_only h rfl) rfl)) rfl) rfl) rfl)

theorem status_only {m : Nat} {s0 : State} {x0 : Nat} {x1 : FrameHeader} {x2 : StatusReport} {s : State} (h : Only m s0 s) (k : 274816 &&& m = 274816) : Only m s0 (status x0 x1 x2 s) := by
  refine Only.lift h k ?_
  clear h k; have h := Only.refl 274816 s
  unfold status
  exact (by split; exact h; exact (Only.ite (hubStatus_only (State_modFl_only h rfl) rfl) (forwardUp_only (State_modFl_only h rfl) rfl)))

theorem memberLost_only {m : Nat} {s0 : State} {x0 : Nat} {x1 : Nat} {s : State} (h : Only m s0 s) (k : 12292 &&& m = 12292) : Only m s0 (memberLost x0 x1 s) := by
  refine Only.lift h k ?_
  clear h k; have h := Only.refl 12292 s
  unfold memberLost
  exact (raiseMoment_only (State_modDv_only (State_modFl_only h rfl) rfl) rfl)

theorem lost_only {m : Nat} {s0 : State} {x0 : FrameHeader} {x1 : Nat} {x2 : Nat} {s : State} (h : Only m s0 s) (k : 274436 &&& m = 274436) : Only m s0 (lost x0 x1 x2 s) := by
  refine Only.lift h k ?_
  clear h k; have h := Only.refl 274436 s
  unfold lost
  exact (Only.ite (memberLost_only h rfl) (forwardUp_only h rfl))

theorem memberTimeout_only {m : Nat} {s0 : State} {x0 : Nat} {s : State} (h : Only m s0 s) (k : 274437 &&& m = 274437) : Only m s0 (memberTimeout x0 s) := by
  refine Only.lift h k ?_
  clear h k; have h := Only.refl 274437 s
  unfold memberTimeout
  exact (by split; exact (Only.ite (Only.ite (memberLost_only (State_modFl_only (advanceTo_only h rfl) rfl) rfl) (sendUp_only (State_modFl_only (advanceTo_only h rfl) rfl) rfl)) h); exact h)

theorem idHoldExpiry_only {m : Nat} {s0 : State} {x0 : Nat} {s : State} (h : Only m s0 s) (k : 4097 &&& m = 4097) : Only m s0 (idHoldExpiry x0 s) := by
  refine Only.lift h k ?_
  clear h k; have h := Only.refl 4097 s
  unfold idHoldExpiry
  exact (by split; exact (Only.ite (State_modFl_only (advanceTo_only h rfl) rfl) h); exact h)

theorem pathDown_only {m : Nat} {s0 : State} {x0 : Nat} {x1 : FrameHeader} {s : State} (h : Only m s0 s) (k : 266241 &&& m = 266241) : Only m s0 (pathDown x0 x1 s) := by
  refine Only.lift h k ?_
  clear h k; have h := Only.refl 266241 s
  unfold pathDown
  exact (Only.ite (Only.ite (losePrimary_only (modPort_only h rfl) rfl) (forwardBelow_only h rfl)) (Only.ite (chooseAlternate_only (modPort_only h rfl) rfl) h))

theorem rehome_only {m : Nat} {s0 : State} {x0 : Nat} {x1 : FrameHeader} {x2 : Nat} {x3 : Nat} {x4 : Nat} {s : State} (h : Only m s0 s) (k : 274432 &&& m = 274432) : Only m s0 (rehome x0 x1 x2 x3 x4 s) := by
  refine Only.lift h k ?_
  clear h k; have h := Only.refl 274432 s
  unfold rehome
  exact (Only.ite (State_modDv_only (State_modFl_only (State_modFl_only h rfl) rfl) rfl) (forwardUp_only (State_modFl_only h rfl) rfl))

theorem rehomeWaitExpiry_only {m : Nat} {s0 : State} {s : State} (h : Only m s0 s) (k : 4097 &&& m = 4097) : Only m s0 (rehomeWaitExpiry s) := by
  refine Only.lift h k ?_
  clear h k; have h := Only.refl 4097 s
  unfold rehomeWaitExpiry
  exact (Only.ite (State_modFl_only (advanceToAir_only h rfl) rfl) h)

theorem sendStatus_only {m : Nat} {s0 : State} {s : State} (h : Only m s0 s) (k : 266496 &&& m = 266496) : Only m s0 (sendStatus s) := by
  refine Only.lift h k ?_
  clear h k; have h := Only.refl 266496 s
  unfold sendStatus
  exact (sendUp_only (State_modNp_only h rfl) rfl)

theorem sendRaises_only {m : Nat} {s0 : State} {s : State} (h : Only m s0 s) (k : 266496 &&& m = 266496) : Only m s0 (sendRaises s) := by
  refine Only.lift h k ?_
  clear h k; have h := Only.refl 266496 s
  unfold sendRaises
  exact (Only.ite h (sendBelow_only (raiseGates_only (State_modNp_only h rfl) rfl) rfl))

theorem flFrame_only {m : Nat} {s0 : State} {x0 : FrameInput} {s : State} (h : Only m s0 s) (k : 266496 &&& m = 266496) : Only m s0 (flFrame x0 s) := by
  refine Only.lift h k ?_
  clear h k; have h := Only.refl 266496 s
  unfold flFrame
  exact (Only.foldl (sendRaises_only (Only.ite (sendStatus_only (sendHellos_only (State_modFl_only h rfl) rfl) rfl) (sendHellos_only (State_modFl_only h rfl) rfl)) rfl) (fun _ _ h0 => (sendLink_only (modPort_only h0 rfl) rfl)))

theorem specFlPortConfig_only : SpecOnly 274433 specFlPortConfig := by
  constructor
  · intro s q
    have h := Only.refl 274433 s
    dsimp only [specFlPortConfig]
    exact (placementTrigger_only (powerPort_only (State_modFl_only (modPort_only (reviewPort_only (modPort_only (unpowerLanes_only h rfl) rfl) rfl) rfl) rfl) rfl) rfl)
  · intro s q st
    have h := Only.refl 274433 s
    dsimp only [specFlPortConfig]
    exact h

theorem joinSettingChanged_only {m : Nat} {s0 : State} {s : State} (h : Only m s0 s) (k : 266240 &&& m = 266240) : Only m s0 (joinSettingChanged s) := by
  refine Only.lift h k ?_
  clear h k; have h := Only.refl 266240 s
  unfold joinSettingChanged
  exact (Only.ite h (Only.ite (Only.ite (State_modFl_only h rfl) (choosePath_only h rfl)) (by split; exact (State_modFl_only h rfl); exact (State_modFl_only h rfl); exact (State_modFl_only h rfl); exact h)))

theorem specFlFlockConfig_only : SpecOnly 266241 specFlFlockConfig := by
  constructor
  · intro s q
    have h := Only.refl 266241 s
    dsimp only [specFlFlockConfig]
    exact (reselect_only (joinSettingChanged_only (State_modFl_only h rfl) rfl) rfl)
  · intro s q st
    have h := Only.refl 266241 s
    dsimp only [specFlFlockConfig]
    exact h

theorem specFlJoin_only : SpecOnly 266240 specFlJoin := by
  constructor
  · intro s q
    have h := Only.refl 266240 s
    dsimp only [specFlJoin]
    exact (choosePath_only (State_modFl_only h rfl) rfl)
  · intro s q st
    have h := Only.refl 266240 s
    dsimp only [specFlJoin]
    exact h

theorem specFlLeave_only : SpecOnly 266240 specFlLeave := by
  constructor
  · intro s q
    have h := Only.refl 266240 s
    dsimp only [specFlLeave]
    exact (startLeave_only h rfl)
  · intro s q st
    have h := Only.refl 266240 s
    dsimp only [specFlLeave]
    exact h

theorem penLane_only {m : Nat} {s0 : State} {x0 : Nat} {s : State} (h : Only m s0 s) (k : 274437 &&& m = 274437) : Only m s0 (penLane x0 s) := by
  refine Only.lift h k ?_
  clear h k; have h := Only.refl 274437 s
  unfold penLane
  exact (reviewPort_only (withdrawLane_only (State_modFault_only h rfl) rfl) rfl)

theorem qualifyLane_only {m : Nat} {s0 : State} {x0 : Nat} {s : State} (h : Only m s0 s) (k : 4100 &&& m = 4100) : Only m s0 (qualifyLane x0 s) := by
  refine Only.lift h k ?_
  clear h k; have h := Only.refl 4100 s
  unfold qualifyLane
  exact (State_modFault_only (modLane_only h rfl) rfl)

theorem releaseLane_only {m : Nat} {s0 : State} {x0 : Nat} {s : State} (h : Only m s0 s) (k : 266244 &&& m = 266244) : Only m s0 (releaseLane x0 s) := by
  refine Only.lift h k ?_
  clear h k; have h := Only.refl 266244 s
  unfold releaseLane
  exact (Only.ite (choosePath_only (qualifyLane_only (State_modFault_only h rfl) rfl) rfl) (State_modFault_only h rfl))

theorem retrainLane_only {m : Nat} {s0 : State} {x0 : Nat} {s : State} (h : Only m s0 s) (k : 274433 &&& m = 274433) : Only m s0 (retrainLane x0 s) := by
  refine Only.lift h k ?_
  clear h k; have h := Only.refl 274433 s
  unfold retrainLane
  exact (reviewPort_only (withdrawLane_only (modLane_only h rfl) rfl) rfl)

theorem specFlLaneControl_only : SpecOnly 274437 specFlLaneControl := by
  constructor
  · intro s q
    have h := Only.refl 274437 s
    dsimp only [specFlLaneControl]
    exact (by (try dsimp only); split; exact (retrainLane_only h rfl); exact (penLane_only h rfl); exact (releaseLane_only h rfl); exact (modLane_only h rfl); exact (modLane_only h rfl))
  · intro s q st
    have h := Only.refl 274437 s
    dsimp only [specFlLaneControl]
    exact h

theorem specFlMemberQuery_only : SpecOnly 0 specFlMemberQuery := by
  constructor
  · intro s q
    have h := Only.refl 0 s
    dsimp only [specFlMemberQuery]
    exact (by split; exact h; exact h)
  · intro s q st
    have h := Only.refl 0 s
    dsimp only [specFlMemberQuery]
    exact h

theorem specFlExpel_only : SpecOnly 266240 specFlExpel := by
  constructor
  · intro s q
    have h := Only.refl 266240 s
    dsimp only [specFlExpel]
    exact (by (try dsimp only); split; exact (sendTo_only (State_modFl_only h rfl) rfl); exact h)
  · intro s q st
    have h := Only.refl 266240 s
    dsimp only [specFlExpel]
    exact h

theorem checkWindow_only {m : Nat} {s0 : State} {s : State} {x1 : Nat} (h : Only m s0 s) (k : 516 &&& m = 516) : Only m s0 (checkWindow s x1) := by
  refine Only.lift h k ?_
  clear h k; have h := Only.refl 516 s
  unfold checkWindow
  exact (Only.ite (State_modHk_only h rfl) (by split; exact (State_modHk_only h rfl); exact (Only.ite (raiseLevel_only (State_modHk_only h rfl) rfl) (State_modHk_only h rfl)); exact (Only.ite (endFault_only (State_modHk_only h rfl) rfl) (State_modHk_only h rfl))))

theorem failSensor_only {m : Nat} {s0 : State} {x0 : Nat} {s : State} (h : Only m s0 s) (k : 516 &&& m = 516) : Only m s0 (failSensor x0 s) := by
  refine Only.lift h k ?_
  clear h k; have h := Only.refl 516 s
  unfold failSensor
  exact (raiseLevel_only (State_modHk_only h rfl) rfl)

theorem readSensor_only {m : Nat} {s0 : State} {x0 : List SensorInput} {s : State} {x2 : Nat} (h : Only m s0 s) (k : 516 &&& m = 516) : Only m s0 (readSensor x0 s x2) := by
  refine Only.lift h k ?_
  clear h k; have h := Only.refl 516 s
  unfold readSensor
  exact (Only.ite h (Only.ite (State_modHk_only h rfl) (failSensor_only (State_modHk_only h rfl) rfl)))

theorem compareSensor_only {m : Nat} {s0 : State} {x0 : State} {s : State} {x2 : Nat} (h : Only m s0 s) (k : 516 &&& m = 516) : Only m s0 (compareSensor x0 s x2) := by
  refine Only.lift h k ?_
  clear h k; have h := Only.refl 516 s
  unfold compareSensor
  exact (Only.ite h (by split; exact h; exact (Only.ite (failSensor_only (State_modHk_only h rfl) rfl) (State_modHk_only h rfl))))

theorem raiseOvertemp_only {m : Nat} {s0 : State} {x0 : Option Severity} {x1 : Nat} {s : State} (h : Only m s0 s) (k : 4 &&& m = 4) : Only m s0 (raiseOvertemp x0 x1 s) := by
  refine Only.lift h k ?_
  clear h k; have h := Only.refl 4 s
  unfold raiseOvertemp
  exact (raiseFault_only h rfl)

theorem reviewOvertemp_only {m : Nat} {s0 : State} {s : State} (h : Only m s0 s) (k : 4 &&& m = 4) : Only m s0 (reviewOvertemp s) := by
  refine Only.lift h k ?_
  clear h k; have h := Only.refl 4 s
  unfold reviewOvertemp
  exact (Only.ite (endFault_only h rfl) h)

theorem blindCheck_only {m : Nat} {s0 : State} {s : State} {x1 : Nat} (h : Only m s0 s) (k : 516 &&& m = 516) : Only m s0 (blindCheck s x1) := by
  refine Only.lift h k ?_
  clear h k; have h := Only.refl 516 s
  unfold blindCheck
  exact (Only.ite (raiseOvertemp_only (State_modHk_only h rfl) rfl) (Only.ite (reviewOvertemp_only (State_modHk_only h rfl) rfl) h))

theorem readSensors_only {m : Nat} {s0 : State} {x0 : List SensorInput} {s : State} (h : Only m s0 s) (k : 516 &&& m = 516) : Only m s0 (readSensors x0 s) := by
  refine Only.lift h k ?_
  clear h k; have h := Only.refl 516 s
  unfold readSensors
  exact (Only.foldl (State_modHk_only (Only.foldl (Only.foldl h (fun _ _ h0 => (readSensor_only h0 rfl))) (fun _ _ h0 => (compareSensor_only h0 rfl))) rfl) (fun _ _ h0 => (blindCheck_only h0 rfl)))

theorem applyThermal_only {m : Nat} {s0 : State} {s : State} (h : Only m s0 s) (k : 452 &&& m = 452) : Only m s0 (applyThermal s) := by
  refine Only.lift h k ?_
  clear h k; have h := Only.refl 452 s
  unfold applyThermal
  exact (shareBackoff_only (State_modNp_only h rfl) rfl)

theorem throttle_only {m : Nat} {s0 : State} {s : State} (h : Only m s0 s) (k : 964 &&& m = 964) : Only m s0 (throttle s) := by
  refine Only.lift h k ?_
  clear h k; have h := Only.refl 964 s
  unfold throttle
  exact (applyThermal_only (reviewOvertemp_only (Only.ite (raiseOvertemp_only (State_modHk_only (Only.ite (raiseOvertemp_only (State_modHk_only (State_modHk_only h rfl) rfl) rfl) (State_modHk_only (State_modHk_only h rfl) rfl)) rfl) rfl) (Only.ite (State_modHk_only (Only.ite (raiseOvertemp_only (State_modHk_only (State_modHk_only h rfl) rfl) rfl) (State_modHk_only (State_modHk_only h rfl) rfl)) rfl) (Only.ite (raiseOvertemp_only (State_modHk_only (State_modHk_only h rfl) rfl) rfl) (State_modHk_only (State_modHk_only h rfl) rfl)))) rfl) rfl)

theorem deliverRefresh_only {m : Nat} {s0 : State} {s : State} (h : Only m s0 s) (k : 278528 &&& m = 278528) : Only m s0 (deliverRefresh s) := by
  refine Only.lift h k ?_
  clear h k; have h := Only.refl 278528 s
  unfold deliverRefresh
  exact (Only.foldl h (fun _ _ h0 => (Only.ite (State_modMem_only h0 rfl) (State_modMem_only (draw_only h0 rfl) rfl))))

theorem deliverBands_only {m : Nat} {s0 : State} {s : State} (h : Only m s0 s) (k : 284736 &&& m = 284736) : Only m s0 (deliverBands s) := by
  refine Only.lift h k ?_
  clear h k; have h := Only.refl 284736 s
  unfold deliverBands
  exact (bandsChanged_only (deliverRefresh_only (State_modFl_only (Only.foldl h (fun _ _ h0 => (Only.ite (Only.ite h0 (modDpd_only h0 rfl)) (Only.ite h0 (modDpd_only h0 rfl))))) rfl) rfl) rfl)

theorem hkRoundEnd_only {m : Nat} {s0 : State} {x0 : List SensorInput} {s : State} (h : Only m s0 s) (k : 285668 &&& m = 285668) : Only m s0 (hkRoundEnd x0 s) := by
  refine Only.lift h k ?_
  clear h k; have h := Only.refl 285668 s
  unfold hkRoundEnd
  exact (Only.ite h (reviewTemperatures_only (stressRound_only (deliverBands_only (State_modHk_only (throttle_only (State_modHk_only (readSensors_only (Only.foldl (measureCal_only (publishRecords_only h rfl) rfl) (fun _ _ h0 => (checkWindow_only h0 rfl))) rfl) rfl) rfl) rfl) rfl) rfl) rfl))

theorem syncDetect_only {m : Nat} {s0 : State} {x0 : SyncInput} {s : State} (h : Only m s0 s) (k : 32768 &&& m = 32768) : Only m s0 (syncDetect x0 s) := by
  refine Only.lift h k ?_
  clear h k; have h := Only.refl 32768 s
  unfold syncDetect
  exact (Only.ite h (by (try dsimp only); split; exact (State_modBell_only h rfl); exact (Only.ite (State_modBell_only h rfl) (State_modBell_only h rfl)); exact (Only.ite (State_modBell_only h rfl) (State_modBell_only h rfl)); exact h))

theorem headerComplete_only {m : Nat} {s0 : State} {x0 : Nat} {x1 : Nat} {s : State} (h : Only m s0 s) (k : 32769 &&& m = 32769) : Only m s0 (headerComplete x0 x1 s) := by
  refine Only.lift h k ?_
  clear h k; have h := Only.refl 32769 s
  unfold headerComplete
  exact (by split; exact (by (try dsimp only); split; exact (Only.ite (State_modBell_only (advanceTo_only h rfl) rfl) (State_modBell_only (advanceTo_only h rfl) rfl)); exact (State_modBell_only (advanceTo_only h rfl) rfl)); exact h)

theorem clipCollision_only {m : Nat} {s0 : State} {x0 : Nat} {s : State} (h : Only m s0 s) (k : 32768 &&& m = 32768) : Only m s0 (clipCollision x0 s) := by
  refine Only.lift h k ?_
  clear h k; have h := Only.refl 32768 s
  unfold clipCollision
  exact (Only.ite (State_modBell_only h rfl) h)

theorem payloadComplete_only {m : Nat} {s0 : State} {x0 : BellBody} {s : State} (h : Only m s0 s) (k : 32769 &&& m = 32769) : Only m s0 (payloadComplete x0 s) := by
  refine Only.lift h k ?_
  clear h k; have h := Only.refl 32769 s
  unfold payloadComplete
  exact (by split; exact (Only.ite (State_modBell_only (advanceTo_only h rfl) rfl) (State_modBell_only (advanceTo_only h rfl) rfl)); exact h)

theorem bellQueue_only {m : Nat} {s0 : State} {x0 : BellTx} {s : State} (h : Only m s0 s) (k : 32768 &&& m = 32768) : Only m s0 (bellQueue x0 s) := by
  refine Only.lift h k ?_
  clear h k; have h := Only.refl 32768 s
  unfold bellQueue
  exact (Only.ite (State_modBell_only h rfl) (State_modBell_only h rfl))

theorem queueChain_only {m : Nat} {s0 : State} {x0 : ChainPacket} {s : State} (h : Only m s0 s) (k : 294912 &&& m = 294912) : Only m s0 (queueChain x0 s) := by
  refine Only.lift h k ?_
  clear h k; have h := Only.refl 294912 s
  unfold queueChain
  exact (Only.ite (bellQueue_only (Only.upd h (by intro p hp; cases p <;> first | rfl | exact absurd hp (by decide))) rfl) h)

theorem sendPacket_only {m : Nat} {s0 : State} {x0 : BellTx} {s : State} (h : Only m s0 s) (k : 32768 &&& m = 32768) : Only m s0 (sendPacket x0 s) := by
  refine Only.lift h k ?_
  clear h k; have h := Only.refl 32768 s
  unfold sendPacket
  exact (State_modBell_only h rfl)

theorem ccaAttempt_only {m : Nat} {s0 : State} {x0 : BellTx} {x1 : ℤ} {s : State} (h : Only m s0 s) (k : 294912 &&& m = 294912) : Only m s0 (ccaAttempt x0 x1 s) := by
  refine Only.lift h k ?_
  clear h k; have h := Only.refl 294912 s
  unfold ccaAttempt
  exact (Only.ite (sendPacket_only h rfl) (Only.ite (State_modBell_only h rfl) (State_modBell_only (draw_only h rfl) rfl)))

theorem bellTxStart_only {m : Nat} {s0 : State} {x0 : ℤ} {s : State} (h : Only m s0 s) (k : 294912 &&& m = 294912) : Only m s0 (bellTxStart x0 s) := by
  refine Only.lift h k ?_
  clear h k; have h := Only.refl 294912 s
  unfold bellTxStart
  exact (Only.ite h (by split; exact h; exact (Only.ite (sendPacket_only h rfl) (Only.ite h (ccaAttempt_only h rfl)))))

theorem ccaRetry_only {m : Nat} {s0 : State} {x0 : ℤ} {s : State} (h : Only m s0 s) (k : 294913 &&& m = 294913) : Only m s0 (ccaRetry x0 s) := by
  refine Only.lift h k ?_
  clear h k; have h := Only.refl 294913 s
  unfold ccaRetry
  exact (by split; exact h; exact (by split; exact h; exact (Only.ite (ccaAttempt_only (State_modBell_only (advanceTo_only h rfl) rfl) rfl) (State_modBell_only (advanceTo_only h rfl) rfl))))

theorem bellOff_only {m : Nat} {s0 : State} {s : State} (h : Only m s0 s) (k : 32802 &&& m = 32802) : Only m s0 (bellOff s) := by
  refine Only.lift h k ?_
  clear h k; have h := Only.refl 32802 s
  unfold bellOff
  exact (by (try dsimp only); split; exact (finishDeferred_only (State_modBell_only (State_modRf_only (Only.foldl (Only.foldl h (fun _ _ h0 => (complete_only h0 rfl))) (fun _ _ h0 => (complete_only h0 rfl))) rfl) rfl) rfl); exact (State_modBell_only (State_modRf_only (Only.foldl (Only.foldl h (fun _ _ h0 => (complete_only h0 rfl))) (fun _ _ h0 => (complete_only h0 rfl))) rfl) rfl))

theorem bellTxEnd_only {m : Nat} {s0 : State} {x0 : Bool} {s : State} (h : Only m s0 s) (k : 32807 &&& m = 32807) : Only m s0 (bellTxEnd x0 s) := by
  refine Only.lift h k ?_
  clear h k; have h := Only.refl 32807 s
  unfold bellTxEnd
  exact (by split; exact h; exact (Only.ite (bellOff_only (Only.ite (State_modBell_only (advanceTo_only h rfl) rfl) (raiseMoment_only (State_modBell_only (advanceTo_only h rfl) rfl) rfl)) rfl) (Only.ite (State_modBell_only (advanceTo_only h rfl) rfl) (raiseMoment_only (State_modBell_only (advanceTo_only h rfl) rfl) rfl))))

theorem keeperResponseExpiry_only {m : Nat} {s0 : State} {s : State} (h : Only m s0 s) (k : 32769 &&& m = 32769) : Only m s0 (keeperResponseExpiry s) := by
  refine Only.lift h k ?_
  clear h k; have h := Only.refl 32769 s
  unfold keeperResponseExpiry
  exact (by split; exact h; exact (State_modBell_only (advanceTo_only h rfl) rfl))

theorem bellTxWatchdog_only {m : Nat} {s0 : State} {s : State} (h : Only m s0 s) (k : 32807 &&& m = 32807) : Only m s0 (bellTxWatchdog s) := by
  refine Only.lift h k ?_
  clear h k; have h := Only.refl 32807 s
  unfold bellTxWatchdog
  exact (by split; exact h; exact (Only.ite (bellOff_only (raiseMoment_only (State_modBell_only (advanceTo_only h rfl) rfl) rfl) rfl) (raiseMoment_only (State_modBell_only (advanceTo_only h rfl) rfl) rfl)))

theorem startBellCal_only {m : Nat} {s0 : State} {s : State} (h : Only m s0 s) (k : 32800 &&& m = 32800) : Only m s0 (startBellCal s) := by
  refine Only.lift h k ?_
  clear h k; have h := Only.refl 32800 s
  unfold startBellCal
  exact (State_modBell_only (State_modRf_only h rfl) rfl)

theorem synBellCalStart_only {m : Nat} {s0 : State} {s : State} (h : Only m s0 s) (k : 32800 &&& m = 32800) : Only m s0 (synBellCalStart s) := by
  refine Only.lift h k ?_
  clear h k; have h := Only.refl 32800 s
  unfold synBellCalStart
  exact (Only.ite (startBellCal_only h rfl) h)

theorem bellFaultAction_only {m : Nat} {s0 : State} {s : State} (h : Only m s0 s) (k : 32800 &&& m = 32800) : Only m s0 (bellFaultAction s) := by
  refine Only.lift h k ?_
  clear h k; have h := Only.refl 32800 s
  unfold bellFaultAction
  exact (Only.ite h (startBellCal_only (State_modBell_only h rfl) rfl))

theorem synBellLock_only {m : Nat} {s0 : State} {x0 : Bool} {s : State} (h : Only m s0 s) (k : 32806 &&& m = 32806) : Only m s0 (synBellLock x0 s) := by
  refine Only.lift h k ?_
  clear h k; have h := Only.refl 32806 s
  unfold synBellLock
  exact (Only.ite h (Only.ite (Only.foldl (State_modBell_only (State_modRf_only h rfl) rfl) (fun _ _ h0 => (complete_only h0 rfl))) (Only.foldl (raiseMoment_only (State_modRf_only h rfl) rfl) (fun _ _ h0 => (complete_only h0 rfl)))))

theorem bellTxResume_only {m : Nat} {s0 : State} {s : State} (h : Only m s0 s) (k : 32769 &&& m = 32769) : Only m s0 (bellTxResume s) := by
  refine Only.lift h k ?_
  clear h k; have h := Only.refl 32769 s
  unfold bellTxResume
  exact (by split; exact (State_modBell_only (advanceTo_only h rfl) rfl); exact h)

theorem reviewRelay_only {m : Nat} {s0 : State} {s : State} (h : Only m s0 s) (k : 32768 &&& m = 32768) : Only m s0 (reviewRelay s) := by
  refine Only.lift h k ?_
  clear h k; have h := Only.refl 32768 s
  unfold reviewRelay
  exact (State_modBell_only h rfl)

theorem relayFrame_only {m : Nat} {s0 : State} {s : State} {x1 : CtrlFrame} (h : Only m s0 s) (k : 307584 &&& m = 307584) : Only m s0 (relayFrame s x1) := by
  refine Only.lift h k ?_
  clear h k; have h := Only.refl 307584 s
  unfold relayFrame
  exact (Only.ite (by split; exact (hubStatus_only (State_modBell_only h rfl) rfl); exact (State_modBell_only h rfl)) (by split; exact (enqueue_only (State_modBell_only h rfl) rfl); exact (State_modBell_only h rfl)))

theorem relayPacket_only {m : Nat} {s0 : State} {x0 : ChainPacket} {s : State} (h : Only m s0 s) (k : 307584 &&& m = 307584) : Only m s0 (relayPacket x0 s) := by
  refine Only.lift h k ?_
  clear h k; have h := Only.refl 307584 s
  unfold relayPacket
  exact (Only.ite h (Only.foldl (queueChain_only (State_modBell_only h rfl) rfl) (fun _ _ h0 => (relayFrame_only h0 rfl))))

theorem chainHelloTimer_only {m : Nat} {s0 : State} {s : State} (h : Only m s0 s) (k : 294913 &&& m = 294913) : Only m s0 (chainHelloTimer s) := by
  refine Only.lift h k ?_
  clear h k; have h := Only.refl 294913 s
  unfold chainHelloTimer
  exact (Only.ite (queueChain_only (State_modBell_only (advanceTo_only h rfl) rfl) rfl) h)

theorem neighbourExpiry_only {m : Nat} {s0 : State} {x0 : Nat} {s : State} (h : Only m s0 s) (k : 32769 &&& m = 32769) : Only m s0 (neighbourExpiry x0 s) := by
  refine Only.lift h k ?_
  clear h k; have h := Only.refl 32769 s
  unfold neighbourExpiry
  exact (by split; exact (reviewRelay_only (State_modBell_only (advanceTo_only h rfl) rfl) rfl); exact h)

theorem chainStatusTimer_only {m : Nat} {s0 : State} {s : State} (h : Only m s0 s) (k : 294913 &&& m = 294913) : Only m s0 (chainStatusTimer s) := by
  refine Only.lift h k ?_
  clear h k; have h := Only.refl 294913 s
  unfold chainStatusTimer
  exact (Only.ite (by (try dsimp only); split; exact (queueChain_only (State_modBell_only (State_modBell_only (advanceTo_only h rfl) rfl) rfl) rfl); exact (State_modBell_only (advanceTo_only h rfl) rfl)) h)

theorem chainAckTimeout_only {m : Nat} {s0 : State} {s : State} (h : Only m s0 s) (k : 32769 &&& m = 32769) : Only m s0 (chainAckTimeout s) := by
  refine Only.lift h k ?_
  clear h k; have h := Only.refl 32769 s
  unfold chainAckTimeout
  exact (by split; exact h; exact (Only.ite (bellQueue_only (State_modBell_only (advanceTo_only h rfl) rfl) rfl) (by split; exact (reviewRelay_only (State_modBell_only (State_modBell_only (advanceTo_only h rfl) rfl) rfl) rfl); exact (State_modBell_only (advanceTo_only h rfl) rfl))))

theorem keeperLockoutExpiry_only {m : Nat} {s0 : State} {x0 : Nat} {s : State} (h : Only m s0 s) (k : 32769 &&& m = 32769) : Only m s0 (keeperLockoutExpiry x0 s) := by
  refine Only.lift h k ?_
  clear h k; have h := Only.refl 32769 s
  unfold keeperLockoutExpiry
  exact (by split; exact (State_modBell_only (waitUntil_only h rfl) rfl); exact h)

theorem specBellConfig_only : SpecOnly 32768 specBellConfig := by
  constructor
  · intro s q
    have h := Only.refl 32768 s
    dsimp only [specBellConfig]
    exact (State_modBell_only h rfl)
  · intro s q st
    have h := Only.refl 32768 s
    dsimp only [specBellConfig]
    exact h

theorem specBellEnable_only : SpecOnly 32802 specBellEnable := by
  constructor
  · intro s q
    have h := Only.refl 32802 s
    dsimp only [specBellEnable]
    exact (Only.ite1 (Only.ite1 (startBellCal_only (State_modBell_only h rfl) rfl) (Only.ite1 (complete_only h rfl) (State_modBell_only h rfl))) (Only.ite1 (State_modBell_only h rfl) (bellOff_only h rfl)))
  · intro s q st
    have h := Only.refl 32802 s
    dsimp only [specBellEnable]
    exact h

theorem specKeeperKey_only : SpecOnly 32768 specKeeperKey := by
  constructor
  · intro s q
    have h := Only.refl 32768 s
    dsimp only [specKeeperKey]
    exact (State_modBell_only h rfl)
  · intro s q st
    have h := Only.refl 32768 s
    dsimp only [specKeeperKey]
    exact h

theorem specBellChainConfig_only : SpecOnly 32768 specBellChainConfig := by
  constructor
  · intro s q
    have h := Only.refl 32768 s
    dsimp only [specBellChainConfig]
    exact (State_modBell_only h rfl)
  · intro s q st
    have h := Only.refl 32768 s
    dsimp only [specBellChainConfig]
    exact h

theorem takeBindings_only {m : Nat} {s0 : State} {x0 : Nat} {x1 : List Binding} {s : State} (h : Only m s0 s) (k : 8192 &&& m = 8192) : Only m s0 (takeBindings x0 x1 s) := by
  refine Only.lift h k ?_
  clear h k; have h := Only.refl 8192 s
  unfold takeBindings
  exact (State_modDv_only h rfl)

theorem reportBindings_only {m : Nat} {s0 : State} {s : State} (h : Only m s0 s) (k : 274432 &&& m = 274432) : Only m s0 (reportBindings s) := by
  refine Only.lift h k ?_
  clear h k; have h := Only.refl 274432 s
  unfold reportBindings
  exact (Only.ite h (Only.ite (State_modDv_only (takeBindings_only h rfl) rfl) (Only.ite (State_modDv_only (sendUp_only h rfl) rfl) h)))

theorem bindStatus_only {m : Nat} {s0 : State} {x0 : FrameHeader} {x1 : List Binding} {s : State} (h : Only m s0 s) (k : 274432 &&& m = 274432) : Only m s0 (bindStatus x0 x1 s) := by
  refine Only.lift h k ?_
  clear h k; have h := Only.refl 274432 s
  unfold bindStatus
  exact (Only.ite (by split; exact (takeBindings_only h rfl); exact h) (forwardUp_only h rfl))

theorem sendPlan_only {m : Nat} {s0 : State} {x0 : IssuedPlan} {x1 : Nat} {s : State} (h : Only m s0 s) (k : 266240 &&& m = 266240) : Only m s0 (sendPlan x0 x1 s) := by
  refine Only.lift h k ?_
  clear h k; have h := Only.refl 266240 s
  unfold sendPlan
  exact (Only.foldl h (fun _ _ h0 => (sendTo_only h0 rfl)))

theorem postEnds_only {m : Nat} {s0 : State} {x0 : List Endpoint} {x1 : List Endpoint} {s : State} (h : Only m s0 s) (k : 2 &&& m = 2) : Only m s0 (postEnds x0 x1 s) := by
  refine Only.lift h k ?_
  clear h k; have h := Only.refl 2 s
  unfold postEnds
  exact (Only.foldl h (fun _ _ h0 => (Only.ite h0 (postNotice_only h0 rfl))))

theorem holdPlan_only {m : Nat} {s0 : State} {x0 : HeldPlan} {s : State} (h : Only m s0 s) (k : 8192 &&& m = 8192) : Only m s0 (holdPlan x0 s) := by
  refine Only.lift h k ?_
  clear h k; have h := Only.refl 8192 s
  unfold holdPlan
  exact (State_modDv_only h rfl)

theorem issuePlan_only {m : Nat} {s0 : State} {s : State} (h : Only m s0 s) (k : 274434 &&& m = 274434) : Only m s0 (issuePlan s) := by
  refine Only.lift h k ?_
  clear h k; have h := Only.refl 274434 s
  unfold issuePlan
  exact (postEnds_only (Only.foldl (nameLanes_only (holdPlan_only (State_modDv_only h rfl) rfl) rfl) (fun _ _ h0 => (sendPlan_only h0 rfl))) rfl)

theorem placementCompute_only {m : Nat} {s0 : State} {s : State} (h : Only m s0 s) (k : 274435 &&& m = 274435) : Only m s0 (placementCompute s) := by
  refine Only.lift h k ?_
  clear h k; have h := Only.refl 274435 s
  unfold placementCompute
  exact (Only.ite (issuePlan_only (Only.ite h (advanceToAir_only h rfl)) rfl) h)

theorem fabricOverflow_only {m : Nat} {s0 : State} {x0 : Nat} {s : State} (h : Only m s0 s) (k : 8196 &&& m = 8196) : Only m s0 (fabricOverflow x0 s) := by
  refine Only.lift h k ?_
  clear h k; have h := Only.refl 8196 s
  unfold fabricOverflow
  exact (Only.ite h (placementTrigger_only (raiseFault_only (State_modDv_only h rfl) rfl) rfl))

theorem finishPlan_only {m : Nat} {s0 : State} {x0 : HeldPlan} {s : State} (h : Only m s0 s) (k : 274436 &&& m = 274436) : Only m s0 (finishPlan x0 s) := by
  refine Only.lift h k ?_
  clear h k; have h := Only.refl 274436 s
  unfold finishPlan
  exact (nameLanes_only (sendUp_only (by split; exact (fabricOverflow_only (Only.ite (holdPlan_only h rfl) (State_modDv_only (holdPlan_only h rfl) rfl)) rfl); exact (Only.ite (holdPlan_only h rfl) (State_modDv_only (holdPlan_only h rfl) rfl))) rfl) rfl)

theorem plan_only {m : Nat} {s0 : State} {x0 : FrameHeader} {x1 : Nat} {x2 : Nat} {x3 : Nat} {x4 : Bool} {x5 : List PlanEntry} {s : State} (h : Only m s0 s) (k : 274436 &&& m = 274436) : Only m s0 (plan x0 x1 x2 x3 x4 x5 s) := by
  refine Only.lift h k ?_
  clear h k; have h := Only.refl 274436 s
  unfold plan
  exact (Only.ite (forwardTo_only h rfl) (by split; exact (Only.ite (Only.ite (sendUp_only h rfl) h) (Only.ite (finishPlan_only h rfl) (holdPlan_only h rfl))); exact (Only.ite (finishPlan_only h rfl) (holdPlan_only h rfl))))

theorem dropPlans_only {m : Nat} {s0 : State} {x0 : Nat} {s : State} (h : Only m s0 s) (k : 8192 &&& m = 8192) : Only m s0 (dropPlans x0 s) := by
  refine Only.lift h k ?_
  clear h k; have h := Only.refl 8192 s
  unfold dropPlans
  exact (State_modDv_only h rfl)

theorem planCancel_only {m : Nat} {s0 : State} {x0 : FrameHeader} {x1 : Nat} {s : State} (h : Only m s0 s) (k : 274432 &&& m = 274432) : Only m s0 (planCancel x0 x1 s) := by
  refine Only.lift h k ?_
  clear h k; have h := Only.refl 274432 s
  unfold planCancel
  exact (dropPlans_only (forwardBelow_only h rfl) rfl)

theorem planAck_only {m : Nat} {s0 : State} {x0 : FrameHeader} {x1 : Nat} {x2 : Nat} {s : State} (h : Only m s0 s) (k : 274438 &&& m = 274438) : Only m s0 (planAck x0 x1 x2 s) := by
  refine Only.lift h k ?_
  clear h k; have h := Only.refl 274438 s
  unfold planAck
  exact (Only.ite (by split; exact h; exact (Only.ite (postEnds_only (State_modDv_only (State_modDv_only h rfl) rfl) rfl) (Only.ite (by split; exact (fabricOverflow_only (State_modDv_only h rfl) rfl); exact (State_modDv_only h rfl)) (State_modDv_only h rfl)))) (forwardUp_only h rfl))

theorem planAckTimeout_only {m : Nat} {s0 : State} {s : State} (h : Only m s0 s) (k : 274433 &&& m = 274433) : Only m s0 (planAckTimeout s) := by
  refine Only.lift h k ?_
  clear h k; have h := Only.refl 274433 s
  unfold planAckTimeout
  exact (by split; exact h; exact (State_modDv_only (dropPlans_only (sendBelow_only (advanceToAir_only h rfl) rfl) rfl) rfl))

theorem descriptorLoad_only {m : Nat} {s0 : State} {s : State} (h : Only m s0 s) (k : 8193 &&& m = 8193) : Only m s0 (descriptorLoad s) := by
  refine Only.lift h k ?_
  clear h k; have h := Only.refl 8193 s
  unfold descriptorLoad
  exact (by split; exact h; exact (Only.foldl (advanceToAir_only h rfl) (fun _ _ h0 => (Only.ite h0 (modDesc_only h0 rfl)))))

theorem penFlow_only {m : Nat} {s0 : State} {x0 : Nat} {s : State} (h : Only m s0 s) (k : 4 &&& m = 4) : Only m s0 (penFlow x0 s) := by
  refine Only.lift h k ?_
  clear h k; have h := Only.refl 4 s
  unfold penFlow
  exact (State_modFault_only h rfl)

theorem releaseFlow_only {m : Nat} {s0 : State} {x0 : Nat} {s : State} (h : Only m s0 s) (k : 8196 &&& m = 8196) : Only m s0 (releaseFlow x0 s) := by
  refine Only.lift h k ?_
  clear h k; have h := Only.refl 8196 s
  unfold releaseFlow
  exact (Only.ite (modDesc_only (State_modFault_only (State_modFault_only h rfl) rfl) rfl) (State_modFault_only h rfl))

theorem applyEntry_only {m : Nat} {s0 : State} {x0 : Nat} {x1 : Bool} {s : State} {x3 : PlanEntry} (h : Only m s0 s) (k : 8260 &&& m = 8260) : Only m s0 (applyEntry x0 x1 s x3) := by
  refine Only.lift h k ?_
  clear h k; have h := Only.refl 8260 s
  unfold applyEntry
  exact (Only.ite (modBand_only (Only.ite (State_modFault_only (Only.ite (penFlow_only (modDesc_only h rfl) rfl) (Only.ite (releaseFlow_only (modDesc_only h rfl) rfl) (modDesc_only h rfl))) rfl) (Only.ite (penFlow_only (modDesc_only h rfl) rfl) (Only.ite (releaseFlow_only (modDesc_only h rfl) rfl) (modDesc_only h rfl)))) rfl) (Only.ite (State_modFault_only (Only.ite (penFlow_only (modDesc_only h rfl) rfl) (Only.ite (releaseFlow_only (modDesc_only h rfl) rfl) (modDesc_only h rfl))) rfl) (Only.ite (penFlow_only (modDesc_only h rfl) rfl) (Only.ite (releaseFlow_only (modDesc_only h rfl) rfl) (modDesc_only h rfl)))))

theorem planApply_only {m : Nat} {s0 : State} {s : State} (h : Only m s0 s) (k : 8645 &&& m = 8645) : Only m s0 (planApply s) := by
  refine Only.lift h k ?_
  clear h k; have h := Only.refl 8645 s
  unfold planApply
  exact (by split; exact h; exact (refreshGains_only (State_modDv_only (Only.foldl (advanceToAir_only h rfl) (fun _ _ h0 => (applyEntry_only h0 rfl))) rfl) rfl))

theorem planDrainEnd_only {m : Nat} {s0 : State} {s : State} (h : Only m s0 s) (k : 8193 &&& m = 8193) : Only m s0 (planDrainEnd s) := by
  refine Only.lift h k ?_
  clear h k; have h := Only.refl 8193 s
  unfold planDrainEnd
  exact (by split; exact h; exact (State_modDv_only (advanceToAir_only h rfl) rfl))

theorem targetDelayApply_only {m : Nat} {s0 : State} {s : State} (h : Only m s0 s) (k : 8645 &&& m = 8645) : Only m s0 (targetDelayApply s) := by
  refine Only.lift h k ?_
  clear h k; have h := Only.refl 8645 s
  unfold targetDelayApply
  exact (by split; exact h; exact (refreshGains_only (State_modLg_only (restartCancellers_only (Only.foldl (State_modDv_only (advanceToAir_only h rfl) rfl) (fun _ _ h0 => (realign_only h0 rfl))) rfl) rfl) rfl))

theorem noteLate_only {m : Nat} {s0 : State} {x0 : Nat} {s : State} (h : Only m s0 s) (k : 8192 &&& m = 8192) : Only m s0 (noteLate x0 s) := by
  refine Only.lift h k ?_
  clear h k; have h := Only.refl 8192 s
  unfold noteLate
  exact (modDesc_only (State_modDv_only h rfl) rfl)

theorem consume_only {m : Nat} {s0 : State} {x0 : Nat} {x1 : Placement} {x2 : Block} {s : State} (h : Only m s0 s) (k : 25028 &&& m = 25028) : Only m s0 (consume x0 x1 x2 s) := by
  refine Only.lift h k ?_
  clear h k; have h := Only.refl 25028 s
  unfold consume
  exact (flowBlockArrival_only (modDesc_only h rfl) rfl)

theorem sumDeadline_only {m : Nat} {s0 : State} {x0 : Nat} {x1 : AirInstant} {s : State} (h : Only m s0 s) (k : 422341 &&& m = 422341) : Only m s0 (sumDeadline x0 x1 s) := by
  refine Only.lift h k ?_
  clear h k; have h := Only.refl 422341 s
  unfold sumDeadline
  exact (Only.ite h (Only.ite (flowBlockArrival_only (sendGrouped_only (modDesc_only (advanceToAir_only h rfl) rfl) rfl) rfl) (sendGrouped_only (modDesc_only (advanceToAir_only h rfl) rfl) rfl)))

theorem consumeDeadline_only {m : Nat} {s0 : State} {x0 : Nat} {x1 : AirInstant} {s : State} (h : Only m s0 s) (k : 25029 &&& m = 25029) : Only m s0 (consumeDeadline x0 x1 s) := by
  refine Only.lift h k ?_
  clear h k; have h := Only.refl 25029 s
  unfold consumeDeadline
  exact (Only.ite h (by (try dsimp only); split; exact (consume_only (modDesc_only (advanceToAir_only h rfl) rfl) rfl); exact (consume_only (noteLate_only (modDesc_only (advanceToAir_only h rfl) rfl) rfl) rfl)))

theorem blockArrives_only {m : Nat} {s0 : State} {x0 : Nat} {x1 : Nat} {s : State} {x3 : Block} (h : Only m s0 s) (k : 8193 &&& m = 8193) : Only m s0 (blockArrives x0 x1 s x3) := by
  refine Only.lift h k ?_
  clear h k; have h := Only.refl 8193 s
  unfold blockArrives
  exact (Only.ite h (Only.ite (noteLate_only h rfl) (Only.ite (modDesc_only (notePatterns_only (modDesc_only h rfl) rfl) rfl) (notePatterns_only (modDesc_only h rfl) rfl))))

theorem noteDrop_only {m : Nat} {s0 : State} {s : State} {x1 : Nat × Nat} (h : Only m s0 s) (k : 8192 &&& m = 8192) : Only m s0 (noteDrop s x1) := by
  refine Only.lift h k ?_
  clear h k; have h := Only.refl 8192 s
  unfold noteDrop
  exact (modDesc_only (State_modDv_only h rfl) rfl)

theorem forwardFlit_only {m : Nat} {s0 : State} {x0 : Nat} {x1 : List Block} {s : State} (h : Only m s0 s) (k : 405504 &&& m = 405504) : Only m s0 (forwardFlit x0 x1 s) := by
  refine Only.lift h k ?_
  clear h k; have h := Only.refl 405504 s
  unfold forwardFlit
  exact (by split; exact h; exact (Only.ite h (Only.ite (Only.foldl h (fun _ _ h0 => (Only.foldl h0 (fun _ _ h1 => (noteDrop_only h1 rfl))))) (emitBlocks_only h rfl))))

theorem flowQualComplete_only {m : Nat} {s0 : State} {x0 : Nat} {s : State} (h : Only m s0 s) (k : 274560 &&& m = 274560) : Only m s0 (flowQualComplete x0 s) := by
  refine Only.lift h k ?_
  clear h k; have h := Only.refl 274560 s
  unfold flowQualComplete
  exact (Only.ite (seekAdmission_only h rfl) h)

theorem markOverload_only {m : Nat} {s0 : State} {x0 : Nat} {x1 : Option Nat} {s : State} (h : Only m s0 s) (k : 8192 &&& m = 8192) : Only m s0 (markOverload x0 x1 s) := by
  refine Only.lift h k ?_
  clear h k; have h := Only.refl 8192 s
  unfold markOverload
  exact (by split; exact (State_modDv_only h rfl); exact h)

theorem flowReport_only {m : Nat} {s0 : State} {x0 : FrameHeader} {x1 : List (Nat × Nat × Nat)} {s : State} (h : Only m s0 s) (k : 274432 &&& m = 274432) : Only m s0 (flowReport x0 x1 s) := by
  refine Only.lift h k ?_
  clear h k; have h := Only.refl 274432 s
  unfold flowReport
  exact (Only.ite (by split; exact h; exact (State_modDv_only (Only.foldl (noteReport_only h rfl) (fun _ _ h0 => (markOverload_only h0 rfl))) rfl)) (forwardUp_only h rfl))

theorem flowFrame_only {m : Nat} {s0 : State} {s : State} {x1 : Nat} (h : Only m s0 s) (k : 8196 &&& m = 8196) : Only m s0 (flowFrame s x1) := by
  refine Only.lift h k ?_
  clear h k; have h := Only.refl 8196 s
  unfold flowFrame
  exact (Only.ite (Only.ite (markOverload_only (fabricOverflow_only (modDesc_only h rfl) rfl) rfl) (fabricOverflow_only (modDesc_only h rfl) rfl)) (Only.ite (endFault_only (modDesc_only h rfl) rfl) (modDesc_only h rfl)))

theorem dvFrame_only {m : Nat} {s0 : State} {x0 : FrameInput} {s : State} (h : Only m s0 s) (k : 274436 &&& m = 274436) : Only m s0 (dvFrame x0 s) := by
  refine Only.lift h k ?_
  clear h k; have h := Only.refl 274436 s
  unfold dvFrame
  exact (State_modDv_only (Only.foldl (reportBindings_only (Only.foldl (Only.ite (Only.foldl h (fun _ _ h0 => (noteDrop_only h0 rfl))) (sendUp_only (Only.foldl h (fun _ _ h0 => (noteDrop_only h0 rfl))) rfl)) (fun _ _ h0 => (flowFrame_only h0 rfl))) rfl) (fun _ _ h0 => (Only.foldl h0 (fun _ _ h1 => (sendPlan_only h1 rfl))))) rfl)

theorem specDvIntentSet_only : SpecOnly 8192 specDvIntentSet := by
  constructor
  · intro s q
    have h := Only.refl 8192 s
    dsimp only [specDvIntentSet]
    exact (State_modDv_only h rfl)
  · intro s q st
    have h := Only.refl 8192 s
    dsimp only [specDvIntentSet]
    exact h

theorem specDvIntentClear_only : SpecOnly 8192 specDvIntentClear := by
  constructor
  · intro s q
    have h := Only.refl 8192 s
    dsimp only [specDvIntentClear]
    exact (State_modDv_only h rfl)
  · intro s q st
    have h := Only.refl 8192 s
    dsimp only [specDvIntentClear]
    exact h

theorem policySet_only {m : Nat} {s0 : State} {s : State} {x1 : List Byte} (h : Only m s0 s) (k : 8192 &&& m = 8192) : Only m s0 (policySet s x1) := by
  refine Only.lift h k ?_
  clear h k; have h := Only.refl 8192 s
  unfold policySet
  exact (State_modDv_only h rfl)

theorem specDvPolicy_only : SpecOnly 8192 specDvPolicy := by
  constructor
  · intro s q
    have h := Only.refl 8192 s
    dsimp only [specDvPolicy]
    exact (Only.ite1 (policySet_only h rfl) (State_modDv_only (policySet_only h rfl) rfl))
  · intro s q st
    have h := Only.refl 8192 s
    dsimp only [specDvPolicy]
    exact h

theorem specDvReplace_only : SpecOnly 8192 specDvReplace := by
  constructor
  · intro s q
    have h := Only.refl 8192 s
    dsimp only [specDvReplace]
    exact (State_modDv_only h rfl)
  · intro s q st
    have h := Only.refl 8192 s
    dsimp only [specDvReplace]
    exact h

theorem specDvFlowQuery_only : SpecOnly 0 specDvFlowQuery := by
  constructor
  · intro s q
    have h := Only.refl 0 s
    dsimp only [specDvFlowQuery]
    exact h
  · intro s q st
    have h := Only.refl 0 s
    dsimp only [specDvFlowQuery]
    exact h

theorem specDvFlowControl_only : SpecOnly 8644 specDvFlowControl := by
  constructor
  · intro s q
    have h := Only.refl 8644 s
    dsimp only [specDvFlowControl]
    exact (by (try dsimp only); split; exact (refreshGains_only (penFlow_only h rfl) rfl); exact (refreshGains_only (releaseFlow_only h rfl) rfl); exact (State_modDv_only h rfl); exact (State_modDv_only h rfl))
  · intro s q st
    have h := Only.refl 8644 s
    dsimp only [specDvFlowControl]
    exact h

theorem noteRelease_only {m : Nat} {s0 : State} {s : State} (h : Only m s0 s) (k : 16384 &&& m = 16384) : Only m s0 (noteRelease s) := by
  refine Only.lift h k ?_
  clear h k; have h := Only.refl 16384 s
  unfold noteRelease
  exact (Only.ite h (State_modMem_only h rfl))

theorem powerFor_only {m : Nat} {s0 : State} {x0 : List Nat} {s : State} (h : Only m s0 s) (k : 16384 &&& m = 16384) : Only m s0 (powerFor x0 s) := by
  refine Only.lift h k ?_
  clear h k; have h := Only.refl 16384 s
  unfold powerFor
  exact (Only.ite (State_modMem_only h rfl) h)

theorem freeSlot_only {m : Nat} {s0 : State} {x0 : Nat} {s : State} (h : Only m s0 s) (k : 16384 &&& m = 16384) : Only m s0 (freeSlot x0 s) := by
  refine Only.lift h k ?_
  clear h k; have h := Only.refl 16384 s
  unfold freeSlot
  exact (noteRelease_only (modCap_only h rfl) rfl)

theorem overwriteFor_only {m : Nat} {s0 : State} {x0 x1 : Nat} {s : State} (h : Only m s0 s) (k : 16392 &&& m = 16392) :
    Only m s0 (overwriteFor x0 x1 s) := by
  refine Only.lift h k ?_
  clear h k; have h := Only.refl 16392 s
  have key : ∀ n t, Only 16392 s t → Only 16392 s (overwriteFor x0 n t) := by
    intro n
    induction n with
    | zero => intro t ht; exact ht
    | succ n ih =>
      intro t ht
      unfold overwriteFor
      dsimp only
      split
      · exact ht
      · split
        · exact ht
        · exact ih _ (submitLog_only (State_modMem_only ht rfl) rfl)
  exact key x1 s h

theorem pumpDrain_only {m : Nat} {s0 : State} {s : State} (h : Only m s0 s) (k : 16394 &&& m = 16394) : Only m s0 (pumpDrain s) := by
  refine Only.lift h k ?_
  clear h k; have h := Only.refl 16394 s
  unfold pumpDrain
  exact (Only.ite h (by split; exact (State_modMem_only h rfl); exact (Only.ite (modCap_only (State_modMem_only (Only.ite (overwriteFor_only h rfl) h) rfl) rfl) (Only.ite (Only.ite (overwriteFor_only h rfl) h) (postNotice_only (State_modMem_only (Only.ite (overwriteFor_only h rfl) h) rfl) rfl)))))

theorem stopDrain_only {m : Nat} {s0 : State} {s : State} (h : Only m s0 s) (k : 16384 &&& m = 16384) : Only m s0 (stopDrain s) := by
  refine Only.lift h k ?_
  clear h k; have h := Only.refl 16384 s
  unfold stopDrain
  exact (by split; exact (modCap_only (State_modMem_only h rfl) rfl); exact h)

theorem drainComplete_only {m : Nat} {s0 : State} {s : State} (h : Only m s0 s) (k : 16395 &&& m = 16395) : Only m s0 (drainComplete s) := by
  refine Only.lift h k ?_
  clear h k; have h := Only.refl 16395 s
  unfold drainComplete
  exact (by split; exact h; exact (pumpDrain_only (noteRelease_only (modCap_only (State_modMem_only (advanceTo_only h rfl) rfl) rfl) rfl) rfl))

theorem startArmed_only {m : Nat} {s0 : State} {x0 : Nat} {s : State} (h : Only m s0 s) (k : 16384 &&& m = 16384) : Only m s0 (startArmed x0 s) := by
  refine Only.lift h k ?_
  clear h k; have h := Only.refl 16384 s
  unfold startArmed
  exact (modCap_only h rfl)

theorem specCapArm_only : SpecOnly 16386 specCapArm := by
  constructor
  · intro s q
    have h := Only.refl 16386 s
    dsimp only [specCapArm]
    exact (Only.ite1 (powerFor_only (modCap_only h rfl) rfl) (complete_only (startArmed_only (modCap_only h rfl) rfl) rfl))
  · intro s q st
    have h := Only.refl 16386 s
    dsimp only [specCapArm]
    exact h

theorem specCapTrigger_only : SpecOnly 16384 specCapTrigger := by
  constructor
  · intro s q
    have h := Only.refl 16384 s
    dsimp only [specCapTrigger]
    exact (Only.foldl h (fun _ _ h0 => (fireSlot_only h0 rfl)))
  · intro s q st
    have h := Only.refl 16384 s
    dsimp only [specCapTrigger]
    exact h

theorem stopCapture_only {m : Nat} {s0 : State} {x0 : Nat} {x1 : Bool} {s : State} (h : Only m s0 s) (k : 278538 &&& m = 278538) : Only m s0 (stopCapture x0 x1 s) := by
  refine Only.lift h k ?_
  clear h k; have h := Only.refl 278538 s
  unfold stopCapture
  exact (pumpDrain_only (modCap_only (draw_only h rfl) rfl) rfl)

theorem specCapControl_only : SpecOnly 278538 specCapControl := by
  constructor
  · intro s q
    have h := Only.refl 278538 s
    dsimp only [specCapControl]
    exact (Only.ite (stopCapture_only h rfl) (Only.ite (pumpDrain_only (modCap_only h rfl) rfl) (freeSlot_only h rfl)))
  · intro s q st
    have h := Only.refl 278538 s
    dsimp only [specCapControl]
    exact h

theorem captureAtInstant_only {m : Nat} {s0 : State} {x0 : Nat} {s : State} (h : Only m s0 s) (k : 16385 &&& m = 16385) : Only m s0 (captureAtInstant x0 s) := by
  refine Only.lift h k ?_
  clear h k; have h := Only.refl 16385 s
  unfold captureAtInstant
  exact (Only.ite (fireSlot_only (advanceToAir_only h rfl) rfl) h)

theorem captureStop_only {m : Nat} {s0 : State} {x0 : Nat} {s : State} (h : Only m s0 s) (k : 278539 &&& m = 278539) : Only m s0 (captureStop x0 s) := by
  refine Only.lift h k ?_
  clear h k; have h := Only.refl 278539 s
  unfold captureStop
  exact (Only.ite (stopCapture_only (advanceTo_only h rfl) rfl) h)

theorem stackPowerUpComplete_only {m : Nat} {s0 : State} {s : State} (h : Only m s0 s) (k : 16386 &&& m = 16386) : Only m s0 (stackPowerUpComplete s) := by
  refine Only.lift h k ?_
  clear h k; have h := Only.refl 16386 s
  unfold stackPowerUpComplete
  exact (by split; exact h; exact (Only.foldl (State_modMem_only h rfl) (fun _ _ h0 => (by split; exact (complete_only (startArmed_only h0 rfl) rfl); exact h0))))

theorem stackPowerDown_only {m : Nat} {s0 : State} {s : State} (h : Only m s0 s) (k : 16385 &&& m = 16385) : Only m s0 (stackPowerDown s) := by
  refine Only.lift h k ?_
  clear h k; have h := Only.refl 16385 s
  unfold stackPowerDown
  exact (Only.ite (State_modMem_only (advanceTo_only h rfl) rfl) h)

theorem retireExtent_only {m : Nat} {s0 : State} {x0 : Nat} {s : State} (h : Only m s0 s) (k : 16384 &&& m = 16384) : Only m s0 (retireExtent x0 s) := by
  refine Only.lift h k ?_
  clear h k; have h := Only.refl 16384 s
  unfold retireExtent
  exact (Only.ite h (State_modMem_only h rfl))

theorem correctedError_only {m : Nat} {s0 : State} {s : State} {x1 : Nat} (h : Only m s0 s) (k : 16388 &&& m = 16388) : Only m s0 (correctedError s x1) := by
  refine Only.lift h k ?_
  clear h k; have h := Only.refl 16388 s
  unfold correctedError
  exact (Only.ite (Only.ite (raiseMoment_only (Only.ite (retireExtent_only (State_modMem_only h rfl) rfl) (State_modMem_only h rfl)) rfl) (Only.ite (retireExtent_only (State_modMem_only h rfl) rfl) (State_modMem_only h rfl))) h)

theorem patrolScrub_only {m : Nat} {s0 : State} {x0 : List Nat} {s : State} (h : Only m s0 s) (k : 16388 &&& m = 16388) : Only m s0 (patrolScrub x0 s) := by
  refine Only.lift h k ?_
  clear h k; have h := Only.refl 16388 s
  unfold patrolScrub
  exact (Only.foldl h (fun _ _ h0 => (correctedError_only h0 rfl)))

theorem hbmFault_only {m : Nat} {s0 : State} {x0 : UnitId} {x1 : Nat} {s : State} (h : Only m s0 s) (k : 4 &&& m = 4) : Only m s0 (hbmFault x0 x1 s) := by
  refine Only.lift h k ?_
  clear h k; have h := Only.refl 4 s
  unfold hbmFault
  exact (raiseMoment_only h rfl)

theorem hbmUncorrectable_only {m : Nat} {s0 : State} {x0 : Nat} {x1 : Option Nat} {x2 : Option Nat} {x3 : Nat × Nat} {s : State} (h : Only m s0 s) (k : 24708 &&& m = 24708) : Only m s0 (hbmUncorrectable x0 x1 x2 x3 s) := by
  refine Only.lift h k ?_
  clear h k; have h := Only.refl 24708 s
  unfold hbmUncorrectable
  exact (Only.ite (by (try dsimp only); split; exact (hbmFault_only (retireExtent_only (State_modMem_only h rfl) rfl) rfl); exact (by split; exact (Only.ite (hbmFault_only (modDesc_only (retireExtent_only (State_modMem_only h rfl) rfl) rfl) rfl) (State_modDv_only (retireExtent_only (State_modMem_only h rfl) rfl) rfl)); exact (retireExtent_only (State_modMem_only h rfl) rfl)); exact (by split; exact (hbmFault_only (State_modLg_only (retireExtent_only (State_modMem_only h rfl) rfl) rfl) rfl); exact (retireExtent_only (State_modMem_only h rfl) rfl)); exact (hbmFault_only (State_modMem_only (retireExtent_only (State_modMem_only h rfl) rfl) rfl) rfl)) h)

theorem remapOne_only {m : Nat} {s0 : State} {s : State} {x1 : Nat} (h : Only m s0 s) (k : 16384 &&& m = 16384) : Only m s0 (remapOne s x1) := by
  refine Only.lift h k ?_
  clear h k; have h := Only.refl 16384 s
  unfold remapOne
  exact (by split; exact (powerFor_only (State_modMem_only h rfl) rfl); exact h)

theorem extentRemap_only {m : Nat} {s0 : State} {s : State} (h : Only m s0 s) (k : 16385 &&& m = 16385) : Only m s0 (extentRemap s) := by
  refine Only.lift h k ?_
  clear h k; have h := Only.refl 16385 s
  unfold extentRemap
  exact (Only.ite h (State_modMem_only (Only.foldl (advanceToAir_only h rfl) (fun _ _ h0 => (remapOne_only h0 rfl))) rfl))

theorem specMemRetireClear_only : SpecOnly 16384 specMemRetireClear := by
  constructor
  · intro s q
    have h := Only.refl 16384 s
    dsimp only [specMemRetireClear]
    exact (State_modMem_only h rfl)
  · intro s q st
    have h := Only.refl 16384 s
    dsimp only [specMemRetireClear]
    exact h

theorem archiveFault_only {m : Nat} {s0 : State} {x0 : ArchiveFail} {s : State} (h : Only m s0 s) (k : 16390 &&& m = 16390) : Only m s0 (archiveFault x0 s) := by
  refine Only.lift h k ?_
  clear h k; have h := Only.refl 16390 s
  unfold archiveFault
  exact (Only.ite (State_modMem_only (Only.foldl (Only.foldl (raiseLevel_only (stopDrain_only h rfl) rfl) (fun _ _ h0 => (complete_only (freeSlot_only h0 rfl) rfl))) (fun _ _ h0 => (complete_only h0 rfl))) rfl) h)

theorem specArConfig_only : SpecOnly 16398 specArConfig := by
  constructor
  · intro s q
    have h := Only.refl 16398 s
    dsimp only [specArConfig]
    exact (Only.ite (pumpDrain_only (State_modMem_only h rfl) rfl) (endFault_only (State_modMem_only (stopDrain_only (State_modMem_only h rfl) rfl) rfl) rfl))
  · intro s q st
    have h := Only.refl 16398 s
    dsimp only [specArConfig]
    exact h

theorem specArControl_only : SpecOnly 16384 specArControl := by
  constructor
  · intro s q
    have h := Only.refl 16384 s
    dsimp only [specArControl]
    exact (State_modMem_only h rfl)
  · intro s q st
    have h := Only.refl 16384 s
    dsimp only [specArControl]
    exact h

theorem arControlComplete_only {m : Nat} {s0 : State} {x0 : ArchiveDevice} {s : State} (h : Only m s0 s) (k : 16398 &&& m = 16398) : Only m s0 (arControlComplete x0 s) := by
  refine Only.lift h k ?_
  clear h k; have h := Only.refl 16398 s
  unfold arControlComplete
  exact (by split; exact h; exact (Only.ite (by split; exact (pumpDrain_only (complete_only (State_modMem_only (endFault_only (State_modMem_only h rfl) rfl) rfl) rfl) rfl); exact (archiveFault_only h rfl); exact (archiveFault_only h rfl)) (Only.ite (pumpDrain_only (complete_only (State_modMem_only (State_modMem_only h rfl) rfl) rfl) rfl) (Only.ite (Only.ite (pumpDrain_only (complete_only (State_modMem_only (State_modMem_only h rfl) rfl) rfl) rfl) (archiveFault_only h rfl)) (Only.ite (pumpDrain_only (complete_only (State_modMem_only (State_modMem_only h rfl) rfl) rfl) rfl) (pumpDrain_only (complete_only (State_modMem_only (State_modMem_only h rfl) rfl) rfl) rfl))))))

theorem specArRestore_only : SpecOnly 16384 specArRestore := by
  constructor
  · intro s q
    have h := Only.refl 16384 s
    dsimp only [specArRestore]
    exact (powerFor_only (State_modMem_only (modCap_only h rfl) rfl) rfl)
  · intro s q st
    have h := Only.refl 16384 s
    dsimp only [specArRestore]
    exact h

theorem restoreComplete_only {m : Nat} {s0 : State} {x0 : List Nat} {s : State} (h : Only m s0 s) (k : 16390 &&& m = 16390) : Only m s0 (restoreComplete x0 s) := by
  refine Only.lift h k ?_
  clear h k; have h := Only.refl 16390 s
  unfold restoreComplete
  exact (by split; exact h; exact (Only.ite h (Only.ite (complete_only (modCap_only (State_modMem_only h rfl) rfl) rfl) (archiveFault_only (complete_only (modCap_only (State_modMem_only h rfl) rfl) rfl) rfl))))

end Sys2Proof.Machine
end

