-- ==== Sys2Proof/Laws/FramesSystem.lean ====
section
/-! SUPPORT. Frames of resets, power states, security, the fault collector, the host interface and the pair: what each operation touches at most. -/

namespace Sys2Proof.Machine

open Sys2Proof

theorem closeDebug_only {m : Nat} {s0 : State} {s : State} (h : Only m s0 s) (k : 24 &&& m = 24) : Only m s0 (closeDebug s) := by
  refine Only.lift h k ?_
  clear h k; have h := Only.refl 24 s
  unfold closeDebug
  exact (Only.ite h (submitLog_only (State_modSys_only h rfl) rfl))

theorem resetTo_only {m : Nat} {s0 : State} {x0 : ResetKind} {s : State} (h : Only m s0 s) (k : 131071 &&& m = 131071) : Only m s0 (resetTo x0 s) := by
  refine Only.lift h k ?_
  clear h k; have h := Only.refl 131071 s
  unfold resetTo
  exact (Only.ite (Only.upd h (by intro p hp; cases p <;> first | rfl | exact absurd hp (by decide))) (submitLog_only (Only.upd h (by intro p hp; cases p <;> first | rfl | exact absurd hp (by decide))) rfl))

theorem sampleStraps_only {m : Nat} {s0 : State} {x0 : BitVec 2} {x1 : BitVec 2} {x2 : Bool} {s : State} (h : Only m s0 s) (k : 16 &&& m = 16) : Only m s0 (sampleStraps x0 x1 x2 s) := by
  refine Only.lift h k ?_
  clear h k; have h := Only.refl 16 s
  unfold sampleStraps
  exact (State_modSys_only h rfl)

theorem powerOnReset_only {m : Nat} {s0 : State} {x0 : BitVec 2} {x1 : BitVec 2} {x2 : Bool} {s : State} (h : Only m s0 s) (k : 131071 &&& m = 131071) : Only m s0 (powerOnReset x0 x1 x2 s) := by
  refine Only.lift h k ?_
  clear h k; have h := Only.refl 131071 s
  unfold powerOnReset
  exact (refreshFaultN_only (resetTo_only (sampleStraps_only h rfl) rfl) rfl)

theorem resetN_only {m : Nat} {s0 : State} {x0 : BitVec 2} {x1 : BitVec 2} {x2 : Bool} {s : State} (h : Only m s0 s) (k : 131071 &&& m = 131071) : Only m s0 (resetN x0 x1 x2 s) := by
  refine Only.lift h k ?_
  clear h k; have h := Only.refl 131071 s
  unfold resetN
  exact (refreshFaultN_only (resetTo_only (sampleStraps_only h rfl) rfl) rfl)

theorem loadImage_only {m : Nat} {s0 : State} {s : State} (h : Only m s0 s) (k : 16 &&& m = 16) : Only m s0 (loadImage s) := by
  refine Only.lift h k ?_
  clear h k; have h := Only.refl 16 s
  unfold loadImage
  exact (by split; exact (State_modSys_only h rfl); exact (State_modSys_only h rfl); exact (State_modSys_only h rfl))

theorem zeroise_only {m : Nat} {s0 : State} {x0 : List Byte} {s : State} (h : Only m s0 s) (k : 32792 &&& m = 32792) : Only m s0 (zeroise x0 s) := by
  refine Only.lift h k ?_
  clear h k; have h := Only.refl 32792 s
  unfold zeroise
  exact (submitLog_only (submitLog_only (State_modBell_only (State_modSys_only h rfl) rfl) rfl) rfl)

theorem issueNonce_only {m : Nat} {s0 : State} {x0 : Nat} {s : State} (h : Only m s0 s) (k : 262146 &&& m = 262146) : Only m s0 (issueNonce x0 s) := by
  refine Only.lift h k ?_
  clear h k; have h := Only.refl 262146 s
  unfold issueNonce
  exact (State_modHost_only (draw_only h rfl) rfl)

theorem logStart_only {m : Nat} {s0 : State} {s : State} (h : Only m s0 s) (k : 8 &&& m = 8) : Only m s0 (logStart s) := by
  refine Only.lift h k ?_
  clear h k; have h := Only.refl 8 s
  unfold logStart
  exact (submitLog_only h rfl)

theorem bootStageAdvance_only {m : Nat} {s0 : State} {x0 : Nat} {x1 : Option Image} {x2 : Bool} {x3 : Bool} {s : State} (h : Only m s0 s) (k : 294943 &&& m = 294943) : Only m s0 (bootStageAdvance x0 x1 x2 x3 s) := by
  refine Only.lift h k ?_
  clear h k; have h := Only.refl 294943 s
  unfold bootStageAdvance
  exact (Only.ite h (by (try dsimp only); split; exact (State_modSys_only (advanceTo_only (State_modSys_only h rfl) rfl) rfl); exact (loadImage_only (by split; exact (zeroise_only (advanceTo_only (State_modSys_only h rfl) rfl) rfl); exact (advanceTo_only (State_modSys_only h rfl) rfl)) rfl); exact (issueNonce_only (State_modSys_only (advanceTo_only (State_modSys_only h rfl) rfl) rfl) rfl); exact (issueNonce_only (issueNonce_only (State_modHost_only (State_modSys_only (advanceTo_only (State_modSys_only h rfl) rfl) rfl) rfl) rfl) rfl); exact (Only.ite (failBank_only (Only.ite (failBank_only (logStart_only (State_modSys_only (advanceTo_only (State_modSys_only h rfl) rfl) rfl) rfl) rfl) (logStart_only (State_modSys_only (advanceTo_only (State_modSys_only h rfl) rfl) rfl) rfl)) rfl) (Only.ite (failBank_only (logStart_only (State_modSys_only (advanceTo_only (State_modSys_only h rfl) rfl) rfl) rfl) rfl) (logStart_only (State_modSys_only (advanceTo_only (State_modSys_only h rfl) rfl) rfl) rfl))); exact (State_modSys_only (advanceTo_only (State_modSys_only h rfl) rfl) rfl)))

theorem ready_only {m : Nat} {s0 : State} {s : State} (h : Only m s0 s) (k : 69654 &&& m = 69654) : Only m s0 (ready s) := by
  refine Only.lift h k ?_
  clear h k; have h := Only.refl 69654 s
  unfold ready
  exact (Only.ite h (refreshFaultN_only (Only.ite (State_modPair_only (trainDownPorts_only (State_modHost_only (setIrq_only (State_modSys_only h rfl) rfl) rfl) rfl) rfl) (Only.ite (State_modFl_only (trainDownPorts_only (State_modHost_only (setIrq_only (State_modSys_only h rfl) rfl) rfl) rfl) rfl) (trainDownPorts_only (State_modHost_only (setIrq_only (State_modSys_only h rfl) rfl) rfl) rfl))) rfl))

theorem revertTrial_only {m : Nat} {s0 : State} {s : State} (h : Only m s0 s) (k : 24 &&& m = 24) : Only m s0 (revertTrial s) := by
  refine Only.lift h k ?_
  clear h k; have h := Only.refl 24 s
  unfold revertTrial
  exact (submitLog_only (State_modSys_only h rfl) rfl)

theorem trialTimeout_only {m : Nat} {s0 : State} {s : State} (h : Only m s0 s) (k : 25 &&& m = 25) : Only m s0 (trialTimeout s) := by
  refine Only.lift h k ?_
  clear h k; have h := Only.refl 25 s
  unfold trialTimeout
  exact (Only.ite h (State_modSys_only (revertTrial_only (advanceTo_only h rfl) rfl) rfl))

theorem warmReset_only {m : Nat} {s0 : State} {s : State} (h : Only m s0 s) (k : 131071 &&& m = 131071) : Only m s0 (warmReset s) := by
  refine Only.lift h k ?_
  clear h k; have h := Only.refl 131071 s
  unfold warmReset
  exact (by split; exact h; exact (refreshFaultN_only (resetTo_only (advanceTo_only h rfl) rfl) rfl))

theorem watchdogTimeout_only {m : Nat} {s0 : State} {s : State} (h : Only m s0 s) (k : 20 &&& m = 20) : Only m s0 (watchdogTimeout s) := by
  refine Only.lift h k ?_
  clear h k; have h := Only.refl 20 s
  unfold watchdogTimeout
  exact (Only.ite h (raiseMoment_only (State_modSys_only h rfl) rfl))

theorem watchdogReset_only {m : Nat} {s0 : State} {s : State} (h : Only m s0 s) (k : 131071 &&& m = 131071) : Only m s0 (watchdogReset s) := by
  refine Only.lift h k ?_
  clear h k; have h := Only.refl 131071 s
  unfold watchdogReset
  exact (by split; exact h; exact (Only.ite (revertTrial_only (refreshFaultN_only (resetTo_only (advanceTo_only h rfl) rfl) rfl) rfl) (refreshFaultN_only (resetTo_only (advanceTo_only h rfl) rfl) rfl)))

theorem resetHousekeeping_only {m : Nat} {s0 : State} {s : State} (h : Only m s0 s) (k : 33282 &&& m = 33282) : Only m s0 (resetHousekeeping s) := by
  refine Only.lift h k ?_
  clear h k; have h := Only.refl 33282 s
  unfold resetHousekeeping
  exact (by (try dsimp only); split; exact (finishDeferred_only (by split; exact (complete_only (Only.upd h (by intro p hp; cases p <;> first | rfl | exact absurd hp (by decide))) rfl); exact (Only.upd h (by intro p hp; cases p <;> first | rfl | exact absurd hp (by decide)))) rfl); exact (by split; exact (complete_only (Only.upd h (by intro p hp; cases p <;> first | rfl | exact absurd hp (by decide))) rfl); exact (Only.upd h (by intro p hp; cases p <;> first | rfl | exact absurd hp (by decide)))))

theorem resetLoopGuard_only {m : Nat} {s0 : State} {s : State} (h : Only m s0 s) (k : 388 &&& m = 388) : Only m s0 (resetLoopGuard s) := by
  refine Only.lift h k ?_
  clear h k; have h := Only.refl 388 s
  unfold resetLoopGuard
  exact (restartCancellers_only (Only.foldl h (fun _ _ h0 => (createLoop_only h0 rfl))) rfl)

theorem unitResetEffect_only {m : Nat} {s0 : State} {x0 : Nat} {s : State} (h : Only m s0 s) (k : 36838 &&& m = 36838) : Only m s0 (unitResetEffect x0 s) := by
  refine Only.lift h k ?_
  clear h k; have h := Only.refl 36838 s
  unfold unitResetEffect
  exact (by split; exact (refreshGains_only (resetLoopGuard_only h rfl) rfl); exact (resetEngine_only h rfl); exact (refreshGains_only (resetPowerStage_only (Only.foldl h (fun _ _ h0 => (shutCassette_only h0 rfl))) rfl) rfl); exact (resetHousekeeping_only h rfl); exact (bellOff_only h rfl))

theorem startUnitReset_only {m : Nat} {s0 : State} {x0 : Nat} {x1 : Ticket} {s : State} (h : Only m s0 s) (k : 36854 &&& m = 36854) : Only m s0 (startUnitReset x0 x1 s) := by
  refine Only.lift h k ?_
  clear h k; have h := Only.refl 36854 s
  unfold startUnitReset
  exact (unitResetEffect_only (State_modSys_only h rfl) rfl)

theorem unitResetComplete_only {m : Nat} {s0 : State} {x0 : Nat} {s : State} (h : Only m s0 s) (k : 27 &&& m = 27) : Only m s0 (unitResetComplete x0 s) := by
  refine Only.lift h k ?_
  clear h k; have h := Only.refl 27 s
  unfold unitResetComplete
  exact (by split; exact h; exact (complete_only (submitLog_only (State_modSys_only (advanceTo_only h rfl) rfl) rfl) rfl))

theorem specPwrReset_only : SpecOnly 36854 specPwrReset := by
  constructor
  · intro s q
    have h := Only.refl 36854 s
    dsimp only [specPwrReset]
    exact (Only.ite1 (State_modSys_only h rfl) (startUnitReset_only h rfl))
  · intro s q st
    have h := Only.refl 36854 s
    dsimp only [specPwrReset]
    exact h

theorem standbyChain_only {m : Nat} {s0 : State} {s : State} {x1 : Nat} (h : Only m s0 s) (k : 486 &&& m = 486) : Only m s0 (standbyChain s x1) := by
  refine Only.lift h k ?_
  clear h k; have h := Only.refl 486 s
  unfold standbyChain
  exact (modChain_only (Only.ite (finishOff_only (Only.ite h (State_modCe_only h rfl)) rfl) (powerDown_only (cancelHeld_only (Only.ite h (State_modCe_only h rfl)) rfl) rfl)) rfl)

theorem endInjections_only {m : Nat} {s0 : State} {x0 : Nat} {s : State} (h : Only m s0 s) (k : 1026 &&& m = 1026) : Only m s0 (endInjections x0 s) := by
  refine Only.lift h k ?_
  clear h k; have h := Only.refl 1026 s
  unfold endInjections
  exact (Only.foldl h (fun _ _ h0 => (endInjection_only (stopInjection_only h0 rfl) rfl)))

theorem standbyLanes_only {m : Nat} {s0 : State} {s : State} (h : Only m s0 s) (k : 4096 &&& m = 4096) : Only m s0 (standbyLanes s) := by
  refine Only.lift h k ?_
  clear h k; have h := Only.refl 4096 s
  unfold standbyLanes
  exact (Only.foldl (unpowerLanes_only h rfl) (fun _ _ h0 => (modPort_only h0 rfl)))

theorem clearArming_only {m : Nat} {s0 : State} {s : State} (h : Only m s0 s) (k : 16386 &&& m = 16386) : Only m s0 (clearArming s) := by
  refine Only.lift h k ?_
  clear h k; have h := Only.refl 16386 s
  unfold clearArming
  exact (Only.foldl h (fun _ _ h0 => (Only.ite (completeOpt_only (freeSlot_only h0 rfl) rfl) h0)))

theorem standbyCassettes_only {m : Nat} {s0 : State} {s : State} (h : Only m s0 s) (k : 2050 &&& m = 2050) : Only m s0 (standbyCassettes s) := by
  refine Only.lift h k ?_
  clear h k; have h := Only.refl 2050 s
  unfold standbyCassettes
  exact (Only.foldl (State_modPs_only h rfl) (fun _ _ h0 => (shutCassette_only h0 rfl)))

theorem enterStandby_only {m : Nat} {s0 : State} {s : State} (h : Only m s0 s) (k : 56822 &&& m = 56822) : Only m s0 (enterStandby s) := by
  refine Only.lift h k ?_
  clear h k; have h := Only.refl 56822 s
  unfold enterStandby
  exact (refreshGains_only (standbyLanes_only (Only.foldl (standbyCassettes_only (clearArming_only (bellOff_only (endInjections_only (State_modSys_only h rfl) rfl) rfl) rfl) rfl) (fun _ _ h0 => (standbyChain_only h0 rfl))) rfl) rfl)

theorem standbyEntry_only {m : Nat} {s0 : State} {s : State} (h : Only m s0 s) (k : 56831 &&& m = 56831) : Only m s0 (standbyEntry s) := by
  refine Only.lift h k ?_
  clear h k; have h := Only.refl 56831 s
  unfold standbyEntry
  exact (by split; exact (reviewMove_only (State_modSys_only (enterStandby_only (advanceToAir_only h rfl) rfl) rfl) rfl); exact h)

theorem recreateBand_only {m : Nat} {s0 : State} {x0 : Dir} {s : State} {x2 : Nat × BandPath} (h : Only m s0 s) (k : 452 &&& m = 452) : Only m s0 (recreateBand x0 s x2) := by
  refine Only.lift h k ?_
  clear h k; have h := Only.refl 452 s
  unfold recreateBand
  exact (by (try dsimp only); split; exact (restartGate_only (applyChange_only (modBand_only h rfl) rfl) rfl); exact (createLoop_only (applyChange_only (modBand_only h rfl) rfl) rfl))

theorem reEnableCassette_only {m : Nat} {s0 : State} {s : State} {x1 : Nat} (h : Only m s0 s) (k : 2048 &&& m = 2048) : Only m s0 (reEnableCassette s x1) := by
  refine Only.lift h k ?_
  clear h k; have h := Only.refl 2048 s
  unfold reEnableCassette
  exact (Only.ite h (tryDrainUp_only (modCas_only h rfl) rfl))

theorem leaveStandby_only {m : Nat} {s0 : State} {s : State} (h : Only m s0 s) (k : 7652 &&& m = 7652) : Only m s0 (leaveStandby s) := by
  refine Only.lift h k ?_
  clear h k; have h := Only.refl 7652 s
  unfold leaveStandby
  exact (refreshGains_only (Only.foldl (State_modPs_only (Only.foldl (resetEngine_only (restartCancellers_only (Only.foldl (Only.foldl (Only.foldl h (fun _ _ h0 => (Only.ite h0 (modChain_only (startFromOff_only h0 rfl) rfl)))) (fun _ _ h0 => (recreateBand_only h0 rfl))) (fun _ _ h0 => (recreateBand_only h0 rfl))) rfl) rfl) (fun _ _ h0 => (reEnableCassette_only h0 rfl))) rfl) (fun _ _ h0 => (powerPort_only h0 rfl))) rfl)

theorem standbyExitComplete_only {m : Nat} {s0 : State} {s : State} (h : Only m s0 s) (k : 58 &&& m = 58) : Only m s0 (standbyExitComplete s) := by
  refine Only.lift h k ?_
  clear h k; have h := Only.refl 58 s
  unfold standbyExitComplete
  exact (by split; exact (Only.ite (finishMove_only (Only.foldl h (fun _ _ h0 => (modChain_only h0 rfl))) rfl) h); exact h)

theorem enterQuiet_only {m : Nat} {s0 : State} {s : State} (h : Only m s0 s) (k : 1494 &&& m = 1494) : Only m s0 (enterQuiet s) := by
  refine Only.lift h k ?_
  clear h k; have h := Only.refl 1494 s
  unfold enterQuiet
  exact (refreshGains_only (endInjections_only (State_modSys_only h rfl) rfl) rfl)

theorem leaveQuiet_only {m : Nat} {s0 : State} {s : State} (h : Only m s0 s) (k : 468 &&& m = 468) : Only m s0 (leaveQuiet s) := by
  refine Only.lift h k ?_
  clear h k; have h := Only.refl 468 s
  unfold leaveQuiet
  exact (refreshGains_only (Only.foldl (State_modSys_only h rfl) (fun _ _ h0 => (restartLoop_only h0 rfl))) rfl)

theorem quietExit_only {m : Nat} {s0 : State} {s : State} (h : Only m s0 s) (k : 479 &&& m = 479) : Only m s0 (quietExit s) := by
  refine Only.lift h k ?_
  clear h k; have h := Only.refl 479 s
  unfold quietExit
  exact (by split; exact (Only.ite (finishMove_only (leaveQuiet_only (toNextSlot_only h rfl) rfl) rfl) h); exact h)

theorem replaceMove_only {m : Nat} {s0 : State} {x0 : PowerMove} {s : State} (h : Only m s0 s) (k : 18 &&& m = 18) : Only m s0 (replaceMove x0 s) := by
  refine Only.lift h k ?_
  clear h k; have h := Only.refl 18 s
  unfold replaceMove
  exact (by (try dsimp only); split; exact (completeOpt_only (State_modSys_only h rfl) rfl); exact (State_modSys_only h rfl))

theorem startMove_only {m : Nat} {s0 : State} {x0 : PowerState} {x1 : Option Ticket} {s : State} (h : Only m s0 s) (k : 269822 &&& m = 269822) : Only m s0 (startMove x0 x1 s) := by
  refine Only.lift h k ?_
  clear h k; have h := Only.refl 269822 s
  unfold startMove
  exact (by split; exact (Only.ite (startLeave_only (replaceMove_only h rfl) rfl) (replaceMove_only h rfl)); exact (replaceMove_only h rfl); exact (Only.ite (leaveStandby_only (State_modSys_only (replaceMove_only h rfl) rfl) rfl) (Only.ite (reviewMove_only (enterQuiet_only (replaceMove_only h rfl) rfl) rfl) (replaceMove_only h rfl))))

theorem specPwrStateSet_only : SpecOnly 269822 specPwrStateSet := by
  constructor
  · intro s q
    have h := Only.refl 269822 s
    dsimp only [specPwrStateSet]
    exact (Only.ite1 h (startMove_only h rfl))
  · intro s q st
    have h := Only.refl 269822 s
    dsimp only [specPwrStateSet]
    exact h

theorem closeSessions_only {m : Nat} {s0 : State} {s : State} (h : Only m s0 s) (k : 2 &&& m = 2) : Only m s0 (closeSessions s) := by
  refine Only.lift h k ?_
  clear h k; have h := Only.refl 2 s
  unfold closeSessions
  exact (State_modHost_only h rfl)

theorem dormantEntry_only {m : Nat} {s0 : State} {x0 : Nat} {s : State} (h : Only m s0 s) (k : 65023 &&& m = 65023) : Only m s0 (dormantEntry x0 s) := by
  refine Only.lift h k ?_
  clear h k; have h := Only.refl 65023 s
  unfold dormantEntry
  exact (by split; exact (State_modSys_only (State_modLog_only (drainSubmissions_only (closeDebug_only (closeSessions_only (advance_only (finishMove_only (enterStandby_only (by split; exact (Only.ite (becomeLeft_only (advanceToAir_only h rfl) rfl) (advanceToAir_only h rfl)); exact (advanceToAir_only h rfl)) rfl) rfl) rfl) rfl) rfl) rfl) rfl) rfl); exact h)

theorem pwrEnDrop_only {m : Nat} {s0 : State} {s : State} (h : Only m s0 s) (k : 17 &&& m = 17) : Only m s0 (pwrEnDrop s) := by
  refine Only.lift h k ?_
  clear h k; have h := Only.refl 17 s
  unfold pwrEnDrop
  exact (Only.ite (State_modSys_only (waitUntil_only h rfl) rfl) h)

theorem dormantWake_only {m : Nat} {s0 : State} {x0 : WakeSource} {x1 : Nat} {s : State} (h : Only m s0 s) (k : 131071 &&& m = 131071) : Only m s0 (dormantWake x0 x1 s) := by
  refine Only.lift h k ?_
  clear h k; have h := Only.refl 131071 s
  unfold dormantWake
  exact (Only.ite h (State_modSys_only (refreshFaultN_only (resetTo_only (Only.ite (by split; exact (waitUntil_only h rfl); exact h) (waitUntil_only (by split; exact (waitUntil_only h rfl); exact h) rfl)) rfl) rfl) rfl))

theorem aonOscTick_only {m : Nat} {s0 : State} {s : State} (h : Only m s0 s) (k : 1 &&& m = 1) : Only m s0 (aonOscTick s) := by
  refine Only.lift h k ?_
  clear h k; have h := Only.refl 1 s
  unfold aonOscTick
  exact (Only.ite h (State_modAir_only h rfl))

theorem specPwrWakeConfig_only : SpecOnly 16 specPwrWakeConfig := by
  constructor
  · intro s q
    have h := Only.refl 16 s
    dsimp only [specPwrWakeConfig]
    exact (State_modSys_only h rfl)
  · intro s q st
    have h := Only.refl 16 s
    dsimp only [specPwrWakeConfig]
    exact h

theorem specPwrLimitSet_only : SpecOnly 16 specPwrLimitSet := by
  constructor
  · intro s q
    have h := Only.refl 16 s
    dsimp only [specPwrLimitSet]
    exact (State_modSys_only h rfl)
  · intro s q st
    have h := Only.refl 16 s
    dsimp only [specPwrLimitSet]
    exact h

theorem pwrFailFall_only {m : Nat} {s0 : State} {x0 : BitVec 8} {s : State} (h : Only m s0 s) (k : 52703 &&& m = 52703) : Only m s0 (pwrFailFall x0 s) := by
  refine Only.lift h k ?_
  clear h k; have h := Only.refl 52703 s
  unfold pwrFailFall
  exact (Only.ite h (postNotice_only (State_modLog_only (drainSubmissions_only (submitLog_only (State_modBell_only (State_modPs_only (Only.foldl (Only.ite (enterQuiet_only (State_modSys_only (stopDrain_only (advance_only h rfl) rfl) rfl) rfl) (State_modSys_only (stopDrain_only (advance_only h rfl) rfl) rfl)) (fun _ _ h0 => (writeLife_only h0 rfl))) rfl) rfl) rfl) rfl) rfl) rfl))

theorem pwrRestore_only {m : Nat} {s0 : State} {s : State} (h : Only m s0 s) (k : 16863 &&& m = 16863) : Only m s0 (pwrRestore s) := by
  refine Only.lift h k ?_
  clear h k; have h := Only.refl 16863 s
  unfold pwrRestore
  exact (Only.ite h (pumpDrain_only (postNotice_only (by split; exact (Only.ite (leaveQuiet_only (toNextSlot_only (State_modSys_only (advance_only h rfl) rfl) rfl) rfl) (State_modSys_only (advance_only h rfl) rfl)); exact (State_modSys_only (advance_only h rfl) rfl)) rfl) rfl))

theorem specLcProvision_only : SpecOnly 24 specLcProvision := by
  constructor
  · intro s q
    have h := Only.refl 24 s
    dsimp only [specLcProvision]
    exact (submitLog_only (State_modSys_only h rfl) rfl)
  · intro s q st
    have h := Only.refl 24 s
    dsimp only [specLcProvision]
    exact h

theorem specLcAdvance_only : SpecOnly 26 specLcAdvance := by
  constructor
  · intro s q
    have h := Only.refl 26 s
    dsimp only [specLcAdvance]
    exact (Only.ite1 (complete_only (submitLog_only (State_modSys_only h rfl) rfl) rfl) (State_modSys_only h rfl))
  · intro s q st
    have h := Only.refl 26 s
    dsimp only [specLcAdvance]
    exact h

theorem keysZeroised_only {m : Nat} {s0 : State} {s : State} (h : Only m s0 s) (k : 32794 &&& m = 32794) : Only m s0 (keysZeroised s) := by
  refine Only.lift h k ?_
  clear h k; have h := Only.refl 32794 s
  unfold keysZeroised
  exact (by split; exact (completeOpt_only (zeroise_only h rfl) rfl); exact h)

theorem specLcRoleSet_only : SpecOnly 16 specLcRoleSet := by
  constructor
  · intro s q
    have h := Only.refl 16 s
    dsimp only [specLcRoleSet]
    exact (State_modSys_only h rfl)
  · intro s q st
    have h := Only.refl 16 s
    dsimp only [specLcRoleSet]
    exact h

theorem specKeyInstall_only : SpecOnly 16 specKeyInstall := by
  constructor
  · intro s q
    have h := Only.refl 16 s
    dsimp only [specKeyInstall]
    exact (State_modSys_only h rfl)
  · intro s q st
    have h := Only.refl 16 s
    dsimp only [specKeyInstall]
    exact h

theorem specDbgPolicy_only : SpecOnly 24 specDbgPolicy := by
  constructor
  · intro s q
    have h := Only.refl 24 s
    dsimp only [specDbgPolicy]
    exact (Only.ite (closeDebug_only (State_modSys_only h rfl) rfl) (State_modSys_only h rfl))
  · intro s q st
    have h := Only.refl 24 s
    dsimp only [specDbgPolicy]
    exact h

theorem openDebug_only {m : Nat} {s0 : State} {x0 : DebugLevel} {s : State} (h : Only m s0 s) (k : 24 &&& m = 24) : Only m s0 (openDebug x0 s) := by
  refine Only.lift h k ?_
  clear h k; have h := Only.refl 24 s
  unfold openDebug
  exact (submitLog_only (State_modSys_only h rfl) rfl)

theorem debugFailure_only {m : Nat} {s0 : State} {s : State} (h : Only m s0 s) (k : 24 &&& m = 24) : Only m s0 (debugFailure s) := by
  refine Only.lift h k ?_
  clear h k; have h := Only.refl 24 s
  unfold debugFailure
  exact (Only.ite (submitLog_only (submitLog_only (State_modSys_only h rfl) rfl) rfl) (submitLog_only (State_modSys_only h rfl) rfl))

theorem debugAuthRequest_only {m : Nat} {s0 : State} {x0 : List Byte} {s : State} (h : Only m s0 s) (k : 262168 &&& m = 262168) : Only m s0 (debugAuthRequest x0 s) := by
  refine Only.lift h k ?_
  clear h k; have h := Only.refl 262168 s
  unfold debugAuthRequest
  exact (Only.ite h (by split; exact h; exact (Only.ite (openDebug_only (State_modSys_only (draw_only h rfl) rfl) rfl) (debugFailure_only (State_modSys_only (draw_only h rfl) rfl) rfl))))

theorem debugOpenRequest_only {m : Nat} {s0 : State} {x0 : Bool} {s : State} (h : Only m s0 s) (k : 24 &&& m = 24) : Only m s0 (debugOpenRequest x0 s) := by
  refine Only.lift h k ?_
  clear h k; have h := Only.refl 24 s
  unfold debugOpenRequest
  exact (Only.ite h (State_modSys_only (Only.ite (openDebug_only h rfl) h) rfl))

theorem debugSessionClose_only {m : Nat} {s0 : State} {x0 : Bool} {s : State} (h : Only m s0 s) (k : 25 &&& m = 25) : Only m s0 (debugSessionClose x0 s) := by
  refine Only.lift h k ?_
  clear h k; have h := Only.refl 25 s
  unfold debugSessionClose
  exact (Only.ite h (closeDebug_only (Only.ite h (advanceTo_only h rfl)) rfl))

theorem debugLockoutExpiry_only {m : Nat} {s0 : State} {s : State} (h : Only m s0 s) (k : 17 &&& m = 17) : Only m s0 (debugLockoutExpiry s) := by
  refine Only.lift h k ?_
  clear h k; have h := Only.refl 17 s
  unfold debugLockoutExpiry
  exact (by split; exact (State_modSys_only (waitUntil_only h rfl) rfl); exact h)

theorem securityViolation_only {m : Nat} {s0 : State} {x0 : Nat} {s : State} (h : Only m s0 s) (k : 4 &&& m = 4) : Only m s0 (securityViolation x0 s) := by
  refine Only.lift h k ?_
  clear h k; have h := Only.refl 4 s
  unfold securityViolation
  exact (raiseMoment_only h rfl)

theorem specFwWrite_only : SpecOnly 16 specFwWrite := by
  constructor
  · intro s q
    have h := Only.refl 16 s
    dsimp only [specFwWrite]
    exact (State_modSys_only h rfl)
  · intro s q st
    have h := Only.refl 16 s
    dsimp only [specFwWrite]
    exact h

theorem specFwControl_only : SpecOnly 16 specFwControl := by
  constructor
  · intro s q
    have h := Only.refl 16 s
    dsimp only [specFwControl]
    exact (by split; exact (State_modSys_only h rfl); exact (State_modSys_only h rfl); exact (State_modSys_only h rfl))
  · intro s q st
    have h := Only.refl 16 s
    dsimp only [specFwControl]
    exact h

theorem fwVerifyComplete_only {m : Nat} {s0 : State} {x0 : Option Image} {s : State} (h : Only m s0 s) (k : 18 &&& m = 18) : Only m s0 (fwVerifyComplete x0 s) := by
  refine Only.lift h k ?_
  clear h k; have h := Only.refl 18 s
  unfold fwVerifyComplete
  exact (by split; exact h; exact (Only.ite (complete_only (State_modSys_only (State_modSys_only h rfl) rfl) rfl) (complete_only (State_modSys_only h rfl) rfl)))

theorem modEntry_only {m : Nat} {s0 : State} {x0 : Nat} {x1 : FaultEntry → FaultEntry} {s : State} (h : Only m s0 s) (k : 4 &&& m = 4) : Only m s0 (modEntry x0 x1 s) := by
  refine Only.lift h k ?_
  clear h k; have h := Only.refl 4 s
  unfold modEntry
  exact (State_modFault_only h rfl)

theorem writeFault_only {m : Nat} {s0 : State} {x0 : Nat} {x1 : Nat} {x2 : Nat} {x3 : Nat} {x4 : List Nat} {x5 : Nat} {s : State} (h : Only m s0 s) (k : 8 &&& m = 8) : Only m s0 (writeFault x0 x1 x2 x3 x4 x5 s).1 := by
  refine Only.lift h k ?_
  clear h k; have h := Only.refl 8 s
  unfold writeFault
  exact (writeSubmission_only h rfl)

theorem submitFault_only {m : Nat} {s0 : State} {x0 : Nat} {x1 : Nat} {x2 : Nat} {x3 : Nat} {x4 : List Nat} {s : State} (h : Only m s0 s) (k : 8 &&& m = 8) : Only m s0 (submitFault x0 x1 x2 x3 x4 s) := by
  refine Only.lift h k ?_
  clear h k; have h := Only.refl 8 s
  unfold submitFault
  exact (State_modLog_only h rfl)

theorem penEffect_only {m : Nat} {s0 : State} {x0 : UnitId} {s : State} (h : Only m s0 s) (k : 276935 &&& m = 276935) : Only m s0 (penEffect x0 s) := by
  refine Only.lift h k ?_
  clear h k; have h := Only.refl 276935 s
  unfold penEffect
  exact (refreshGains_only (by split; exact (shutCassette_only h rfl); exact (reviewPort_only (withdrawLane_only h rfl) rfl); exact (Only.ite (Only.foldl h (fun _ _ h0 => (shutCassette_only h0 rfl))) h); exact (Only.ite (Only.foldl h (fun _ _ h0 => (shutCassette_only h0 rfl))) h); exact h) rfl)

theorem penUnit_only {m : Nat} {s0 : State} {x0 : PenReason} {s : State} {x2 : UnitId} (h : Only m s0 s) (k : 276935 &&& m = 276935) : Only m s0 (penUnit x0 s x2) := by
  refine Only.lift h k ?_
  clear h k; have h := Only.refl 276935 s
  unfold penUnit
  exact (Only.ite h (Only.ite (State_modFault_only h rfl) (penEffect_only (State_modFault_only h rfl) rfl)))

theorem unpenned_only {m : Nat} {s0 : State} {s : State} {x1 : UnitId} (h : Only m s0 s) (k : 276932 &&& m = 276932) : Only m s0 (unpenned s x1) := by
  refine Only.lift h k ?_
  clear h k; have h := Only.refl 276932 s
  unfold unpenned
  exact (by split; exact (choosePath_only (qualifyLane_only h rfl) rfl); exact (Only.ite (Only.foldl h (fun _ _ h0 => (enterPaddock_only h0 rfl))) (Only.ite (enterPaddock_only h rfl) h)))

theorem dropPens_only {m : Nat} {s0 : State} {x0 : Pen → Bool} {s : State} (h : Only m s0 s) (k : 276932 &&& m = 276932) : Only m s0 (dropPens x0 s) := by
  refine Only.lift h k ?_
  clear h k; have h := Only.refl 276932 s
  unfold dropPens
  exact (Only.ite h (refreshGains_only (Only.foldl (State_modFault_only h rfl) (fun _ _ h0 => (unpenned_only h0 rfl))) rfl))

theorem donorOverloadAction_only {m : Nat} {s0 : State} {x0 : Nat} {s : State} (h : Only m s0 s) (k : 1508 &&& m = 1508) : Only m s0 (donorOverloadAction x0 s).1 := by
  refine Only.lift h k ?_
  clear h k; have h := Only.refl 1508 s
  unfold donorOverloadAction
  exact (Only.ite1 (State_modCl_only h rfl) (Only.ite1 (Only.foldl (State_modCl_only h rfl) (fun _ _ h0 => (setBackoff_only h0 rfl))) (requestAtten_only (State_modCl_only h rfl) rfl)))

theorem holdMember_only {m : Nat} {s0 : State} {x0 : Nat} {s : State} (h : Only m s0 s) (k : 4096 &&& m = 4096) : Only m s0 (holdMember x0 s) := by
  refine Only.lift h k ?_
  clear h k; have h := Only.refl 4096 s
  unfold holdMember
  exact (State_modFl_only h rfl)

theorem doOwnSystem_only {m : Nat} {s0 : State} {x0 : Nat} {x1 : UnitId} {s : State} (h : Only m s0 s) (k : 326645 &&& m = 326645) :
    Only m s0 (doOwnSystem x0 x1 s).1 := by
  refine Only.lift h k ?_
  clear h k; have h := Only.refl 326645 s
  unfold doOwnSystem
  split <;> dsimp only
  · exact Only.ite (setBackoff_only (modCas_only h rfl) rfl) h
  · exact applyThermal_only h rfl
  · exact Only.ite (State_modHk_only h rfl) (State_modHk_only h rfl)
  · exact Only.ite (retrainLane_only h rfl) h
  · exact holdMember_only h rfl
  · exact placementTrigger_only h rfl
  · exact State_modMem_only (stopDrain_only h rfl) rfl
  · exact bellFaultAction_only h rfl
  · exact State_modSys_only h rfl
  · exact State_modSys_only h rfl
  · exact h

theorem doOwn_only {m : Nat} {s0 : State} {x0 : Nat} {x1 : UnitId} {s : State} (h : Only m s0 s) (k : 327669 &&& m = 327669) :
    Only m s0 (doOwn x0 x1 s).1 := by
  refine Only.lift h k ?_
  clear h k; have h := Only.refl 327669 s
  unfold doOwn
  dsimp only
  split
  · exact Only.ite (setBackoff_only h rfl) h
  · dsimp only; exact reinitialise_only h rfl
  · refine Only.ite (setBackoff_only ?_ rfl) ?_ <;> exact modBand_only h rfl
  · refine Only.ite (setBackoff_only ?_ rfl) ?_ <;> exact Only.ite (modDpd_only h rfl) h
  · dsimp only; exact setBackoff_only h rfl
  · dsimp only; exact modLoop_only h rfl
  · dsimp only; exact noiseBackoff_only h rfl
  · exact donorOverloadAction_only h rfl
  · exact doOwnSystem_only h rfl

theorem undoOwn_only {m : Nat} {s0 : State} {x0 : Nat} {x1 : UnitId} {s : State} (h : Only m s0 s) (k : 964 &&& m = 964) : Only m s0 (undoOwn x0 x1 s) := by
  refine Only.lift h k ?_
  clear h k; have h := Only.refl 964 s
  unfold undoOwn
  exact (by (try dsimp only); split; exact (dropBackoffs_only h rfl); exact (modBand_only (dropBackoffs_only h rfl) rfl); exact (dropBackoffs_only h rfl); exact (modLoop_only h rfl); exact (noiseBackoff_only h rfl); exact (donorMute_only h rfl); exact (dropBackoffs_only h rfl); exact (applyThermal_only h rfl); exact (Only.ite (State_modHk_only h rfl) h); exact (by split; exact (Only.ite (dropBackoffs_only h rfl) h); exact h))

theorem undoAtten_only {m : Nat} {s0 : State} {s : State} {x1 : OwnAction} (h : Only m s0 s) (k : 1120 &&& m = 1120) : Only m s0 (undoAtten s x1) := by
  refine Only.lift h k ?_
  clear h k; have h := Only.refl 1120 s
  unfold undoAtten
  exact (Only.ite (Only.ite (State_modCl_only h rfl) (requestAtten_only (State_modCl_only h rfl) rfl)) h)

theorem dropActions_only {m : Nat} {s0 : State} {x0 : OwnAction → Bool} {s : State} (h : Only m s0 s) (k : 2020 &&& m = 2020) : Only m s0 (dropActions x0 s) := by
  refine Only.lift h k ?_
  clear h k; have h := Only.refl 2020 s
  unfold dropActions
  exact (Only.foldl (Only.foldl (State_modFault_only h rfl) (fun _ _ h0 => (undoAtten_only h0 rfl))) (fun _ _ h0 => (undoOwn_only h0 rfl)))

theorem releaseHandle_only {m : Nat} {s0 : State} {x0 : Nat} {s : State} (h : Only m s0 s) (k : 278500 &&& m = 278500) : Only m s0 (releaseHandle x0 s) := by
  refine Only.lift h k ?_
  clear h k; have h := Only.refl 278500 s
  unfold releaseHandle
  exact (dropPens_only (dropActions_only (modEntry_only h rfl) rfl) rfl)

theorem reviewEntry_only {m : Nat} {s0 : State} {x0 : Nat} {s : State} (h : Only m s0 s) (k : 278500 &&& m = 278500) : Only m s0 (reviewEntry x0 s) := by
  refine Only.lift h k ?_
  clear h k; have h := Only.refl 278500 s
  unfold reviewEntry
  exact (by split; exact h; exact (Only.ite h (Only.ite (State_modFault_only (Only.ite (releaseHandle_only h rfl) h) rfl) (Only.ite (releaseHandle_only h rfl) h))))

theorem ackEntry_only {m : Nat} {s0 : State} {s : State} {x1 : FaultEntry} (h : Only m s0 s) (k : 278508 &&& m = 278508) : Only m s0 (ackEntry s x1) := by
  refine Only.lift h k ?_
  clear h k; have h := Only.refl 278508 s
  unfold ackEntry
  exact (Only.ite h (reviewEntry_only (submitFault_only (modEntry_only h rfl) rfl) rfl))

theorem makeRoom_only {m : Nat} {s0 : State} {s : State} (h : Only m s0 s) (k : 278508 &&& m = 278508) : Only m s0 (makeRoom s) := by
  refine Only.lift h k ?_
  clear h k; have h := Only.refl 278508 s
  unfold makeRoom
  exact (Only.ite h (by (try dsimp only); split; exact h; exact (ackEntry_only h rfl)))

theorem recordConsequential_only {m : Nat} {s0 : State} {s : State} {x1 : Graded} {x2 : Window} {x3 : Bool} {x4 : Nat} (h : Only m s0 s) (k : 12 &&& m = 12) : Only m s0 (recordConsequential s x1 x2 x3 x4).1 := by
  refine Only.lift h k ?_
  clear h k; have h := Only.refl 12 s
  unfold recordConsequential
  exact (State_modFault_only (writeFault_only h rfl) rfl)

theorem enterRaise_only {m : Nat} {s0 : State} {x0 : Graded} {x1 : Nat} {x2 : Nat} {s : State} (h : Only m s0 s) (k : 4 &&& m = 4) : Only m s0 (enterRaise x0 x1 x2 s).1 := by
  refine Only.lift h k ?_
  clear h k; have h := Only.refl 4 s
  unfold enterRaise
  exact (by split; exact (modEntry_only h rfl); exact (Only.ite1 (State_modFault_only h rfl) (State_modFault_only h rfl)))

theorem recordEnd_only {m : Nat} {s0 : State} {x0 : Nat} {s : State} {x2 : Condition} (h : Only m s0 s) (k : 278508 &&& m = 278508) : Only m s0 (recordEnd x0 s x2) := by
  refine Only.lift h k ?_
  clear h k; have h := Only.refl 278508 s
  unfold recordEnd
  exact (Only.ite (State_modFault_only h rfl) (by (try dsimp only); split; exact (reviewEntry_only (modEntry_only (State_modFault_only (writeFault_only h rfl) rfl) rfl) rfl); exact (State_modFault_only (writeFault_only h rfl) rfl)))

theorem processCycle_only {m : Nat} {s0 : State} {x1 : Nat} {s : State} (h : Only m s0 s) (k : 327662 &&& m = 327662) :
    Only m s0 (processCycle s x1) := by
  refine Only.lift h k ?_
  clear h k; have h := Only.refl 327662 s
  have rr : ∀ same t (acc : State × List Nat) g, Only 327662 s acc.1 → Only 327662 s (recordRaise same t acc g).1 := by
    intro same t acc g ha
    unfold recordRaise
    split
    · exact recordConsequential_only ha rfl
    · dsimp only
      exact Only.ite (setIrq_only (postEvent_only (slotFault_only (captureTrigger_only (State_modFault_only (enterRaise_only (writeFault_only (Only.ite ha (makeRoom_only ha rfl)) rfl) rfl) rfl) rfl) rfl) rfl) rfl) (slotFault_only (captureTrigger_only (State_modFault_only (enterRaise_only (writeFault_only (Only.ite ha (makeRoom_only ha rfl)) rfl) rfl) rfl) rfl) rfl)
  have rf : ∀ same t (l : List Graded) (acc : State × List Nat), Only 327662 s acc.1 →
      Only 327662 s (l.foldl (recordRaise same t) acc).1 := by
    intro same t l
    induction l with
    | nil => intro acc ha; exact ha
    | cons g gs ih => intro acc ha; exact ih _ (rr same t acc g ha)
  unfold processCycle
  dsimp only
  have b0 := State_modFault_only (f := fun f => { f with latched := f.latched.filter (fun x => latchCycle x != x1) }) h rfl
  have e1 : ∀ t0 (l : List Condition) (z : State), Only 327662 s z → Only 327662 s (l.foldl (recordEnd t0) z) :=
    fun t0 l z hz => Only.foldl hz (fun _ _ ha => recordEnd_only ha rfl)
  refine Only.ite ?_ (drainSubmissions_only (State_modLog_only ?_ rfl) rfl) <;>
  · refine e1 _ _ _ ?_
    split
    · exact State_modFault_only (rf _ _ _ _ (State_modFault_only (e1 _ _ _ (rf _ _ _ _ b0)) rfl)) rfl
    · exact rf _ _ _ _ (State_modFault_only (e1 _ _ _ (rf _ _ _ _ b0)) rfl)

theorem collectorCycle_only {m : Nat} {s0 : State} {s : State} (h : Only m s0 s) (k : 327663 &&& m = 327663) : Only m s0 (collectorCycle s) := by
  refine Only.lift h k ?_
  clear h k; have h := Only.refl 327663 s
  unfold collectorCycle
  exact (Only.ite h (refreshFaultN_only (Only.foldl (drainSubmissions_only (advanceTo_only h rfl) rfl) (fun _ _ h0 => (processCycle_only h0 rfl))) rfl))

theorem enterHalt_only {m : Nat} {s0 : State} {x0 : Nat} {s : State} (h : Only m s0 s) (k : 452 &&& m = 452) : Only m s0 (enterHalt x0 s) := by
  refine Only.lift h k ?_
  clear h k; have h := Only.refl 452 s
  unfold enterHalt
  exact (refreshGains_only (State_modFault_only h rfl) rfl)

theorem performReaction_only {m : Nat} {s0 : State} {x0 : Reaction} {s : State} (h : Only m s0 s) (k : 327671 &&& m = 327671) : Only m s0 (performReaction x0 s) := by
  refine Only.lift h k ?_
  clear h k; have h := Only.refl 327671 s
  unfold performReaction
  exact (Only.ite (enterHalt_only (Only.ite (applyThermal_only (Only.ite (donorMute_only (Only.ite (Only.foldl (State_modFault_only (by split; exact (setBackoff_only (doOwn_only h rfl) rfl); exact (doOwn_only h rfl)) rfl) (fun _ _ h0 => (penUnit_only h0 rfl))) (State_modFault_only (by split; exact (setBackoff_only (doOwn_only h rfl) rfl); exact (doOwn_only h rfl)) rfl)) rfl) (Only.ite (Only.foldl (State_modFault_only (by split; exact (setBackoff_only (doOwn_only h rfl) rfl); exact (doOwn_only h rfl)) rfl) (fun _ _ h0 => (penUnit_only h0 rfl))) (State_modFault_only (by split; exact (setBackoff_only (doOwn_only h rfl) rfl); exact (doOwn_only h rfl)) rfl))) rfl) (Only.ite (donorMute_only (Only.ite (Only.foldl (State_modFault_only (by split; exact (setBackoff_only (doOwn_only h rfl) rfl); exact (doOwn_only h rfl)) rfl) (fun _ _ h0 => (penUnit_only h0 rfl))) (State_modFault_only (by split; exact (setBackoff_only (doOwn_only h rfl) rfl); exact (doOwn_only h rfl)) rfl)) rfl) (Only.ite (Only.foldl (State_modFault_only (by split; exact (setBackoff_only (doOwn_only h rfl) rfl); exact (doOwn_only h rfl)) rfl) (fun _ _ h0 => (penUnit_only h0 rfl))) (State_modFault_only (by split; exact (setBackoff_only (doOwn_only h rfl) rfl); exact (doOwn_only h rfl)) rfl)))) rfl) (Only.ite (applyThermal_only (Only.ite (donorMute_only (Only.ite (Only.foldl (State_modFault_only (by split; exact (setBackoff_only (doOwn_only h rfl) rfl); exact (doOwn_only h rfl)) rfl) (fun _ _ h0 => (penUnit_only h0 rfl))) (State_modFault_only (by split; exact (setBackoff_only (doOwn_only h rfl) rfl); exact (doOwn_only h rfl)) rfl)) rfl) (Only.ite (Only.foldl (State_modFault_only (by split; exact (setBackoff_only (doOwn_only h rfl) rfl); exact (doOwn_only h rfl)) rfl) (fun _ _ h0 => (penUnit_only h0 rfl))) (State_modFault_only (by split; exact (setBackoff_only (doOwn_only h rfl) rfl); exact (doOwn_only h rfl)) rfl))) rfl) (Only.ite (donorMute_only (Only.ite (Only.foldl (State_modFault_only (by split; exact (setBackoff_only (doOwn_only h rfl) rfl); exact (doOwn_only h rfl)) rfl) (fun _ _ h0 => (penUnit_only h0 rfl))) (State_modFault_only (by split; exact (setBackoff_only (doOwn_only h rfl) rfl); exact (doOwn_only h rfl)) rfl)) rfl) (Only.ite (Only.foldl (State_modFault_only (by split; exact (setBackoff_only (doOwn_only h rfl) rfl); exact (doOwn_only h rfl)) rfl) (fun _ _ h0 => (penUnit_only h0 rfl))) (State_modFault_only (by split; exact (setBackoff_only (doOwn_only h rfl) rfl); exact (doOwn_only h rfl)) rfl)))))

theorem reactionStart_only {m : Nat} {s0 : State} {s : State} (h : Only m s0 s) (k : 327671 &&& m = 327671) : Only m s0 (reactionStart s) := by
  refine Only.lift h k ?_
  clear h k; have h := Only.refl 327671 s
  unfold reactionStart
  exact (by split; exact h; exact (refreshFaultN_only (by split; exact (releaseHandle_only (State_modFault_only (performReaction_only (advanceTo_only h rfl) rfl) rfl) rfl); exact (State_modFault_only (performReaction_only (advanceTo_only h rfl) rfl) rfl)) rfl))

theorem reactionComplete_only {m : Nat} {s0 : State} {s : State} (h : Only m s0 s) (k : 4 &&& m = 4) : Only m s0 (reactionComplete s) := by
  refine Only.lift h k ?_
  clear h k; have h := Only.refl 4 s
  unfold reactionComplete
  exact (by split; exact h; exact (State_modFault_only h rfl))

theorem consequenceWindowClose_only {m : Nat} {s0 : State} {s : State} (h : Only m s0 s) (k : 5 &&& m = 5) : Only m s0 (consequenceWindowClose s) := by
  refine Only.lift h k ?_
  clear h k; have h := Only.refl 5 s
  unfold consequenceWindowClose
  exact (by (try dsimp only); split; exact h; exact (State_modFault_only (advanceTo_only h rfl) rfl))

theorem haltReleaseFrame_only {m : Nat} {s0 : State} {s : State} (h : Only m s0 s) (k : 461 &&& m = 461) : Only m s0 (haltReleaseFrame s) := by
  refine Only.lift h k ?_
  clear h k; have h := Only.refl 461 s
  unfold haltReleaseFrame
  exact (by split; exact h; exact (refreshFaultN_only (refreshGains_only (Only.foldl (State_modFault_only (submitFault_only (advanceToAir_only h rfl) rfl) rfl) (fun _ _ h0 => (modLoop_only h0 rfl))) rfl) rfl))

theorem specFaultClassConfig_only : SpecOnly 4 specFaultClassConfig := by
  constructor
  · intro s q
    have h := Only.refl 4 s
    dsimp only [specFaultClassConfig]
    exact (State_modFault_only h rfl)
  · intro s q st
    have h := Only.refl 4 s
    dsimp only [specFaultClassConfig]
    exact h

theorem specFaultPolicy_only : SpecOnly 4 specFaultPolicy := by
  constructor
  · intro s q
    have h := Only.refl 4 s
    dsimp only [specFaultPolicy]
    exact (refreshFaultN_only (State_modFault_only h rfl) rfl)
  · intro s q st
    have h := Only.refl 4 s
    dsimp only [specFaultPolicy]
    exact h

theorem specFaultAck_only : SpecOnly 278508 specFaultAck := by
  constructor
  · intro s q
    have h := Only.refl 278508 s
    dsimp only [specFaultAck]
    exact (refreshFaultN_only (Only.foldl h (fun _ _ h0 => (ackEntry_only h0 rfl))) rfl)
  · intro s q st
    have h := Only.refl 278508 s
    dsimp only [specFaultAck]
    exact h

theorem specFaultUnitPen_only : SpecOnly 276943 specFaultUnitPen := by
  constructor
  · intro s q
    have h := Only.refl 276943 s
    dsimp only [specFaultUnitPen]
    exact (by split; exact (submitFault_only (penUnit_only h rfl) rfl); exact h)
  · intro s q st
    have h := Only.refl 276943 s
    dsimp only [specFaultUnitPen]
    exact h

theorem releaseUnit_only {m : Nat} {s0 : State} {x0 : UnitId} {s : State} (h : Only m s0 s) (k : 278508 &&& m = 278508) : Only m s0 (releaseUnit x0 s) := by
  refine Only.lift h k ?_
  clear h k; have h := Only.refl 278508 s
  unfold releaseUnit
  exact (State_modFault_only (Only.foldl (dropPens_only (dropActions_only h rfl) rfl) (fun _ _ h0 => (ackEntry_only h0 rfl))) rfl)

theorem specFaultUnitRelease_only : SpecOnly 278508 specFaultUnitRelease := by
  constructor
  · intro s q
    have h := Only.refl 278508 s
    dsimp only [specFaultUnitRelease]
    exact (by split; exact (refreshFaultN_only (submitFault_only (releaseUnit_only h rfl) rfl) rfl); exact h)
  · intro s q st
    have h := Only.refl 278508 s
    dsimp only [specFaultUnitRelease]
    exact h

theorem specFaultHaltRelease_only : SpecOnly 278508 specFaultHaltRelease := by
  constructor
  · intro s q
    have h := Only.refl 278508 s
    dsimp only [specFaultHaltRelease]
    exact (refreshFaultN_only (State_modFault_only (Only.foldl h (fun _ _ h0 => (ackEntry_only h0 rfl))) rfl) rfl)
  · intro s q st
    have h := Only.refl 278508 s
    dsimp only [specFaultHaltRelease]
    exact h

theorem specFaultFfClear_only : SpecOnly 4 specFaultFfClear := by
  constructor
  · intro s q
    have h := Only.refl 4 s
    dsimp only [specFaultFfClear]
    exact (State_modFault_only h rfl)
  · intro s q st
    have h := Only.refl 4 s
    dsimp only [specFaultFfClear]
    exact h

theorem specFaultInject_only : SpecOnly 4 specFaultInject := by
  constructor
  · intro s q
    have h := Only.refl 4 s
    dsimp only [specFaultInject]
    exact (by (try dsimp only); split; exact (State_modFault_only h rfl); exact h)
  · intro s q st
    have h := Only.refl 4 s
    dsimp only [specFaultInject]
    exact h

theorem specFaultTableRead_only : SpecOnly 0 specFaultTableRead := by
  constructor
  · intro s q
    have h := Only.refl 0 s
    dsimp only [specFaultTableRead]
    exact h
  · intro s q st
    have h := Only.refl 0 s
    dsimp only [specFaultTableRead]
    exact h

theorem ringMailbox_only {m : Nat} {s0 : State} {x0 : Nat} {x1 : HostPath} {s : State} (h : Only m s0 s) (k : 2 &&& m = 2) : Only m s0 (ringMailbox x0 x1 s) := by
  refine Only.lift h k ?_
  clear h k; have h := Only.refl 2 s
  unfold ringMailbox
  exact (Only.ite (capture_only h rfl) (ignoreDoorbell_only h rfl))

theorem doorbellWrite_only {m : Nat} {s0 : State} {x0 : HostPath} {x1 : BitVec 16} {s : State} (h : Only m s0 s) (k : 2 &&& m = 2) : Only m s0 (doorbellWrite x0 x1 s) := by
  refine Only.lift h k ?_
  clear h k; have h := Only.refl 2 s
  unfold doorbellWrite
  exact (Only.ite (Only.foldl h (fun _ _ h0 => (Only.ite (ringMailbox_only h0 rfl) h0))) h)

theorem doorbellOverrunWrite_only {m : Nat} {s0 : State} {x0 : Word} {s : State} (h : Only m s0 s) (k : 2 &&& m = 2) : Only m s0 (doorbellOverrunWrite x0 s) := by
  refine Only.lift h k ?_
  clear h k; have h := Only.refl 2 s
  unfold doorbellOverrunWrite
  exact (State_modHost_only h rfl)

theorem irqStatusWrite_only {m : Nat} {s0 : State} {x0 : Word} {s : State} (h : Only m s0 s) (k : 2 &&& m = 2) : Only m s0 (irqStatusWrite x0 s) := by
  refine Only.lift h k ?_
  clear h k; have h := Only.refl 2 s
  unfold irqStatusWrite
  exact (State_modHost_only h rfl)

theorem irqEnableWrite_only {m : Nat} {s0 : State} {x0 : Word} {s : State} (h : Only m s0 s) (k : 2 &&& m = 2) : Only m s0 (irqEnableWrite x0 s) := by
  refine Only.lift h k ?_
  clear h k; have h := Only.refl 2 s
  unfold irqEnableWrite
  exact (State_modHost_only h rfl)

theorem irqNEnableWrite_only {m : Nat} {s0 : State} {x0 : Word} {s : State} (h : Only m s0 s) (k : 2 &&& m = 2) : Only m s0 (irqNEnableWrite x0 s) := by
  refine Only.lift h k ?_
  clear h k; have h := Only.refl 2 s
  unfold irqNEnableWrite
  exact (State_modHost_only h rfl)

theorem msixWrite_only {m : Nat} {s0 : State} {x0 : Nat} {x1 : Word} {s : State} (h : Only m s0 s) (k : 2 &&& m = 2) : Only m s0 (msixWrite x0 x1 s) := by
  refine Only.lift h k ?_
  clear h k; have h := Only.refl 2 s
  unfold msixWrite
  exact (State_modHost_only h rfl)

theorem moderate_only {m : Nat} {s0 : State} {s : State} (h : Only m s0 s) (k : 2 &&& m = 2) : Only m s0 (moderate s) := by
  refine Only.lift h k ?_
  clear h k; have h := Only.refl 2 s
  unfold moderate
  exact (Only.ite (setIrq_only h rfl) h)

theorem evtAckWrite_only {m : Nat} {s0 : State} {x0 : Word} {s : State} (h : Only m s0 s) (k : 2 &&& m = 2) : Only m s0 (evtAckWrite x0 s) := by
  refine Only.lift h k ?_
  clear h k; have h := Only.refl 2 s
  unfold evtAckWrite
  exact (moderate_only (State_modHost_only h rfl) rfl)

theorem evtModerationWrite_only {m : Nat} {s0 : State} {x0 : Word} {s : State} (h : Only m s0 s) (k : 2 &&& m = 2) : Only m s0 (evtModerationWrite x0 s) := by
  refine Only.lift h k ?_
  clear h k; have h := Only.refl 2 s
  unfold evtModerationWrite
  exact (moderate_only (State_modHost_only h rfl) rfl)

theorem eventHoldoffExpiry_only {m : Nat} {s0 : State} {s : State} (h : Only m s0 s) (k : 3 &&& m = 3) : Only m s0 (eventHoldoffExpiry s) := by
  refine Only.lift h k ?_
  clear h k; have h := Only.refl 3 s
  unfold eventHoldoffExpiry
  exact (by split; exact (Only.ite (moderate_only (advanceTo_only h rfl) rfl) h); exact h)

theorem siteEdgeWrite_only {m : Nat} {s0 : State} {x0 : Word} {s : State} (h : Only m s0 s) (k : 2 &&& m = 2) : Only m s0 (siteEdgeWrite x0 s) := by
  refine Only.lift h k ?_
  clear h k; have h := Only.refl 2 s
  unfold siteEdgeWrite
  exact (State_modHost_only h rfl)

theorem logCursorWrite_only {m : Nat} {s0 : State} {x0 : Word} {s : State} (h : Only m s0 s) (k : 2 &&& m = 2) : Only m s0 (logCursorWrite x0 s) := by
  refine Only.lift h k ?_
  clear h k; have h := Only.refl 2 s
  unfold logCursorWrite
  exact (State_modHost_only h rfl)

theorem capWinWrite_only {m : Nat} {s0 : State} {x0 : Bool} {x1 : Word} {s : State} (h : Only m s0 s) (k : 2 &&& m = 2) : Only m s0 (capWinWrite x0 x1 s) := by
  refine Only.lift h k ?_
  clear h k; have h := Only.refl 2 s
  unfold capWinWrite
  exact (State_modHost_only h rfl)

theorem areaWrite_only {m : Nat} {s0 : State} {x0 : HostPath} {x1 : Nat} {x2 : Nat} {x3 : Word} {s : State} (h : Only m s0 s) (k : 2 &&& m = 2) : Only m s0 (areaWrite x0 x1 x2 x3 s) := by
  refine Only.lift h k ?_
  clear h k; have h := Only.refl 2 s
  unfold areaWrite
  exact (Only.ite (State_modHost_only h rfl) h)

theorem bar0Write_only {m : Nat} {s0 : State} {x0 : HostPath} {x1 : Nat} {x2 : Word} {s : State} (h : Only m s0 s) (k : 2 &&& m = 2) : Only m s0 (bar0Write x0 x1 x2 s) := by
  refine Only.lift h k ?_
  clear h k; have h := Only.refl 2 s
  unfold bar0Write
  exact (Only.ite (areaWrite_only h rfl) (Only.ite (msixWrite_only h rfl) (Only.ite (doorbellWrite_only h rfl) (Only.ite (doorbellOverrunWrite_only h rfl) (Only.ite (irqStatusWrite_only h rfl) (Only.ite (irqEnableWrite_only h rfl) (Only.ite (irqNEnableWrite_only h rfl) (Only.ite (evtAckWrite_only h rfl) (Only.ite (evtModerationWrite_only h rfl) (Only.ite (logCursorWrite_only h rfl) (Only.ite (capWinWrite_only h rfl) (Only.ite (capWinWrite_only h rfl) (Only.ite (siteEdgeWrite_only h rfl) h)))))))))))))

theorem registerWrite_only {m : Nat} {s0 : State} {x0 : HostPath} {x1 : Nat} {x2 : Nat} {x3 : Word} {s : State} (h : Only m s0 s) (k : 2 &&& m = 2) : Only m s0 (registerWrite x0 x1 x2 x3 s) := by
  refine Only.lift h k ?_
  clear h k; have h := Only.refl 2 s
  unfold registerWrite
  exact (Only.ite h (Only.ite (bar0Write_only h rfl) (State_modHost_only h rfl)))

theorem pcieReset_only {m : Nat} {s0 : State} {x0 : Bool} {s : State} (h : Only m s0 s) (k : 2 &&& m = 2) : Only m s0 (pcieReset x0 s) := by
  refine Only.lift h k ?_
  clear h k; have h := Only.refl 2 s
  unfold pcieReset
  exact (State_modHost_only h rfl)

theorem rejectDatagram_only {m : Nat} {s0 : State} {s : State} (h : Only m s0 s) (k : 2 &&& m = 2) : Only m s0 (rejectDatagram s) := by
  refine Only.lift h k ?_
  clear h k; have h := Only.refl 2 s
  unfold rejectDatagram
  exact (State_modHost_only h rfl)

theorem ethRequest_only {m : Nat} {s0 : State} {x0 : EthDatagram} {s : State} (h : Only m s0 s) (k : 2 &&& m = 2) : Only m s0 (ethRequest x0 s) := by
  refine Only.lift h k ?_
  clear h k; have h := Only.refl 2 s
  unfold ethRequest
  exact (Only.ite h (Only.ite (rejectDatagram_only h rfl) (Only.ite (Only.ite (State_modHost_only h rfl) h) (Only.ite (capture_only (State_modHost_only h rfl) rfl) (ignoreDoorbell_only h rfl)))))

theorem nonceExpiry_only {m : Nat} {s0 : State} {x0 : HostPath} {s : State} (h : Only m s0 s) (k : 262147 &&& m = 262147) : Only m s0 (nonceExpiry x0 s) := by
  refine Only.lift h k ?_
  clear h k; have h := Only.refl 262147 s
  unfold nonceExpiry
  exact (Only.ite h (issueNonce_only (advanceTo_only h rfl) rfl))

theorem closeSession_only {m : Nat} {s0 : State} {x0 : Nat} {s : State} (h : Only m s0 s) (k : 2 &&& m = 2) : Only m s0 (closeSession x0 s) := by
  refine Only.lift h k ?_
  clear h k; have h := Only.refl 2 s
  unfold closeSession
  exact (by split; exact (State_modHost_only h rfl); exact h)

theorem sessionIdleExpiry_only {m : Nat} {s0 : State} {x0 : Nat} {s : State} (h : Only m s0 s) (k : 3 &&& m = 3) : Only m s0 (sessionIdleExpiry x0 s) := by
  refine Only.lift h k ?_
  clear h k; have h := Only.refl 3 s
  unfold sessionIdleExpiry
  exact (by split; exact (postNotice_only (closeSession_only (advanceTo_only h rfl) rfl) rfl); exact h)

theorem hostLockoutExpiry_only {m : Nat} {s0 : State} {x0 : HostPath} {s : State} (h : Only m s0 s) (k : 3 &&& m = 3) : Only m s0 (hostLockoutExpiry x0 s) := by
  refine Only.lift h k ?_
  clear h k; have h := Only.refl 3 s
  unfold hostLockoutExpiry
  exact (by split; exact (State_modHost_only (waitUntil_only h rfl) rfl); exact h)

theorem consumeNonce_only {m : Nat} {s0 : State} {s : State} {x1 : Req} (h : Only m s0 s) (k : 262146 &&& m = 262146) : Only m s0 (consumeNonce s x1) := by
  refine Only.lift h k ?_
  clear h k; have h := Only.refl 262146 s
  unfold consumeNonce
  exact (Only.ite (issueNonce_only h rfl) h)

theorem openFailed_only {m : Nat} {s0 : State} {s : State} {x1 : Req} (h : Only m s0 s) (k : 10 &&& m = 10) : Only m s0 (openFailed s x1) := by
  refine Only.lift h k ?_
  clear h k; have h := Only.refl 10 s
  unfold openFailed
  exact (Only.ite (submitLog_only (State_modHost_only (submitLog_only (State_modHost_only h rfl) rfl) rfl) rfl) (submitLog_only (State_modHost_only h rfl) rfl))

theorem specSysSessionOpen_only : SpecOnly 262154 specSysSessionOpen := by
  constructor
  · intro s q
    have h := Only.refl 262154 s
    dsimp only [specSysSessionOpen]
    exact (by split; exact h; exact (State_modHost_only (draw_only (consumeNonce_only h rfl) rfl) rfl))
  · intro s q st
    have h := Only.refl 262154 s
    dsimp only [specSysSessionOpen]
    exact (Only.ite (openFailed_only (Only.ite (consumeNonce_only h rfl) h) rfl) (Only.ite (consumeNonce_only h rfl) h))

theorem specSysSessionClose_only : SpecOnly 2 specSysSessionClose := by
  constructor
  · intro s q
    have h := Only.refl 2 s
    dsimp only [specSysSessionClose]
    exact (closeSession_only h rfl)
  · intro s q st
    have h := Only.refl 2 s
    dsimp only [specSysSessionClose]
    exact h

theorem specSysNop_only : SpecOnly 0 specSysNop := by
  constructor
  · intro s q
    have h := Only.refl 0 s
    dsimp only [specSysNop]
    exact h
  · intro s q st
    have h := Only.refl 0 s
    dsimp only [specSysNop]
    exact h

theorem specSysHostConfig_only : SpecOnly 16 specSysHostConfig := by
  constructor
  · intro s q
    have h := Only.refl 16 s
    dsimp only [specSysHostConfig]
    exact (State_modSys_only h rfl)
  · intro s q st
    have h := Only.refl 16 s
    dsimp only [specSysHostConfig]
    exact h

theorem specSysNetConfig_only : SpecOnly 18 specSysNetConfig := by
  constructor
  · intro s q
    have h := Only.refl 18 s
    dsimp only [specSysNetConfig]
    exact (State_modHost_only (State_modSys_only h rfl) rfl)
  · intro s q st
    have h := Only.refl 18 s
    dsimp only [specSysNetConfig]
    exact h

theorem specSysSiteConfig_only : SpecOnly 18 specSysSiteConfig := by
  constructor
  · intro s q
    have h := Only.refl 18 s
    dsimp only [specSysSiteConfig]
    exact (State_modHost_only (State_modSys_only h rfl) rfl)
  · intro s q st
    have h := Only.refl 18 s
    dsimp only [specSysSiteConfig]
    exact h

theorem siteEdge_only {m : Nat} {s0 : State} {x0 : Nat} {x1 : Bool} {s : State} (h : Only m s0 s) (k : 16386 &&& m = 16386) : Only m s0 (siteEdge x0 x1 s) := by
  refine Only.lift h k ?_
  clear h k; have h := Only.refl 16386 s
  unfold siteEdge
  exact (Only.ite (setIrq_only (postEvent_only (captureTrigger_only (State_modHost_only h rfl) rfl) rfl) rfl) (captureTrigger_only (State_modHost_only h rfl) rfl))

theorem siteInput_only {m : Nat} {s0 : State} {x0 : BitVec 16} {s : State} {x2 : Nat} (h : Only m s0 s) (k : 16386 &&& m = 16386) : Only m s0 (siteInput x0 s x2) := by
  refine Only.lift h k ?_
  clear h k; have h := Only.refl 16386 s
  unfold siteInput
  exact (Only.ite h (Only.ite (State_modHost_only h rfl) (Only.ite (State_modHost_only h rfl) (Only.ite (siteEdge_only (State_modHost_only h rfl) rfl) (State_modHost_only h rfl)))))

theorem siteSample_only {m : Nat} {s0 : State} {x0 : BitVec 16} {s : State} (h : Only m s0 s) (k : 16387 &&& m = 16387) : Only m s0 (siteSample x0 s) := by
  refine Only.lift h k ?_
  clear h k; have h := Only.refl 16387 s
  unfold siteSample
  exact (Only.ite h (Only.foldl (State_modHost_only (advanceTo_only h rfl) rfl) (fun _ _ h0 => (siteInput_only h0 rfl))))

theorem i2cHeartbeatTick_only {m : Nat} {s0 : State} {s : State} (h : Only m s0 s) (k : 3 &&& m = 3) : Only m s0 (i2cHeartbeatTick s) := by
  refine Only.lift h k ?_
  clear h k; have h := Only.refl 3 s
  unfold i2cHeartbeatTick
  exact (State_modHost_only (waitUntil_only h rfl) rfl)

theorem mirrorChanges_only {m : Nat} {s0 : State} {s : State} (h : Only m s0 s) (k : 65544 &&& m = 65544) : Only m s0 (mirrorChanges s) := by
  refine Only.lift h k ?_
  clear h k; have h := Only.refl 65544 s
  unfold mirrorChanges
  exact (Only.ite (State_modLog_only (State_modPair_only (Only.foldl h (fun _ _ h0 => (mirrorItem_only h0 rfl))) rfl) rfl) h)

theorem startBulk_only {m : Nat} {s0 : State} {s : State} (h : Only m s0 s) (k : 65544 &&& m = 65544) : Only m s0 (startBulk s) := by
  refine Only.lift h k ?_
  clear h k; have h := Only.refl 65544 s
  unfold startBulk
  exact (State_modLog_only (State_modPair_only h rfl) rfl)

theorem pairSubframe_only {m : Nat} {s0 : State} {s : State} (h : Only m s0 s) (k : 331784 &&& m = 331784) : Only m s0 (pairSubframe s) := by
  refine Only.lift h k ?_
  clear h k; have h := Only.refl 331784 s
  unfold pairSubframe
  exact (Only.ite (by (try dsimp only); split; exact (Only.foldl (Only.foldl (mirrorChanges_only h rfl) (fun _ _ h0 => (sendLink_only h0 rfl))) (fun _ _ h0 => (sendLink_only h0 rfl))); exact (Only.foldl (mirrorChanges_only h rfl) (fun _ _ h0 => (sendLink_only h0 rfl)))) h)

theorem mirrorPeriodicSync_only {m : Nat} {s0 : State} {s : State} (h : Only m s0 s) (k : 65537 &&& m = 65537) : Only m s0 (mirrorPeriodicSync s) := by
  refine Only.lift h k ?_
  clear h k; have h := Only.refl 65537 s
  unfold mirrorPeriodicSync
  exact (Only.ite (mirrorItem_only (mirrorItem_only (advanceTo_only h rfl) rfl) rfl) h)

theorem becomeActiveHub_only {m : Nat} {s0 : State} {s : State} (h : Only m s0 s) (k : 339969 &&& m = 339969) : Only m s0 (becomeActiveHub s) := by
  refine Only.lift h k ?_
  clear h k; have h := Only.refl 339969 s
  unfold becomeActiveHub
  exact (reportBindings_only (reselect_only (State_modFl_only (State_modPair_only h rfl) rfl) rfl) rfl)

theorem becomeStandbyHub_only {m : Nat} {s0 : State} {s : State} (h : Only m s0 s) (k : 70119 &&& m = 70119) : Only m s0 (becomeStandbyHub s) := by
  refine Only.lift h k ?_
  clear h k; have h := Only.refl 70119 s
  unfold becomeStandbyHub
  exact (refreshGains_only (reselect_only (Only.foldl (State_modPair_only (State_modFl_only (State_modPair_only h rfl) rfl) rfl) (fun _ _ h0 => (disableTx_only h0 rfl))) rfl) rfl)

theorem takeAck_only {m : Nat} {s0 : State} {x0 : Nat} {s : State} (h : Only m s0 s) (k : 65544 &&& m = 65544) : Only m s0 (takeAck x0 s) := by
  refine Only.lift h k ?_
  clear h k; have h := Only.refl 65544 s
  unfold takeAck
  exact (State_modLog_only (State_modPair_only h rfl) rfl)

theorem noteHeartbeat_only {m : Nat} {s0 : State} {x0 : Nat} {x1 : Heartbeat} {s : State} (h : Only m s0 s) (k : 65536 &&& m = 65536) : Only m s0 (noteHeartbeat x0 x1 s) := by
  refine Only.lift h k ?_
  clear h k; have h := Only.refl 65536 s
  unfold noteHeartbeat
  exact (State_modPair_only h rfl)

theorem activeHears_only {m : Nat} {s0 : State} {x0 : Heartbeat} {s : State} (h : Only m s0 s) (k : 65544 &&& m = 65544) : Only m s0 (activeHears x0 s) := by
  refine Only.lift h k ?_
  clear h k; have h := Only.refl 65544 s
  unfold activeHears
  exact (Only.ite (Only.ite (State_modPair_only h rfl) h) (Only.ite (startBulk_only h rfl) (by (try dsimp only); split; exact (Only.ite (State_modPair_only (takeAck_only h rfl) rfl) (takeAck_only h rfl)); exact (takeAck_only h rfl))))

theorem standbyHears_only {m : Nat} {s0 : State} {x0 : Heartbeat} {s : State} (h : Only m s0 s) (k : 65536 &&& m = 65536) : Only m s0 (standbyHears x0 s) := by
  refine Only.lift h k ?_
  clear h k; have h := Only.refl 65536 s
  unfold standbyHears
  exact (Only.ite (State_modPair_only h rfl) h)

theorem pairHb_only {m : Nat} {s0 : State} {x0 : Nat} {x1 : Heartbeat} {s : State} (h : Only m s0 s) (k : 340463 &&& m = 340463) : Only m s0 (pairHb x0 x1 s) := by
  refine Only.lift h k ?_
  clear h k; have h := Only.refl 340463 s
  unfold pairHb
  exact (by split; exact h; exact (Only.ite h (by (try dsimp only); split; exact (Only.ite (becomeActiveHub_only (noteHeartbeat_only h rfl) rfl) (becomeStandbyHub_only (noteHeartbeat_only h rfl) rfl)); exact (activeHears_only (noteHeartbeat_only h rfl) rfl); exact (activeHears_only (noteHeartbeat_only h rfl) rfl); exact (standbyHears_only (noteHeartbeat_only h rfl) rfl); exact (standbyHears_only (noteHeartbeat_only h rfl) rfl); exact (noteHeartbeat_only h rfl))))

theorem pairHbMissed_only {m : Nat} {s0 : State} {x0 : Nat} {s : State} (h : Only m s0 s) (k : 65541 &&& m = 65541) : Only m s0 (pairHbMissed x0 s) := by
  refine Only.lift h k ?_
  clear h k; have h := Only.refl 65541 s
  unfold pairHbMissed
  exact (Only.ite h (Only.ite (State_modPair_only (Only.ite (raiseLevel_only (State_modPair_only (Only.ite h (advanceToAir_only h rfl)) rfl) rfl) (State_modPair_only (Only.ite h (advanceToAir_only h rfl)) rfl)) rfl) (Only.ite (raiseLevel_only (State_modPair_only (Only.ite h (advanceToAir_only h rfl)) rfl) rfl) (State_modPair_only (Only.ite h (advanceToAir_only h rfl)) rfl))))

theorem pairWaitTimeout_only {m : Nat} {s0 : State} {s : State} (h : Only m s0 s) (k : 339969 &&& m = 339969) : Only m s0 (pairWaitTimeout s) := by
  refine Only.lift h k ?_
  clear h k; have h := Only.refl 339969 s
  unfold pairWaitTimeout
  exact (Only.ite (becomeActiveHub_only (advanceTo_only h rfl) rfl) h)

theorem bulkSyncTimeout_only {m : Nat} {s0 : State} {s : State} (h : Only m s0 s) (k : 5 &&& m = 5) : Only m s0 (bulkSyncTimeout s) := by
  refine Only.lift h k ?_
  clear h k; have h := Only.refl 5 s
  unfold bulkSyncTimeout
  exact (by split; exact (raiseLevel_only (advanceTo_only h rfl) rfl); exact h)

theorem pairLinkRecovery_only {m : Nat} {s0 : State} {s : State} (h : Only m s0 s) (k : 5 &&& m = 5) : Only m s0 (pairLinkRecovery s) := by
  refine Only.lift h k ?_
  clear h k; have h := Only.refl 5 s
  unfold pairLinkRecovery
  exact (Only.ite (endFault_only (advanceTo_only h rfl) rfl) h)

theorem adoptBelow_only {m : Nat} {s0 : State} {s : State} (h : Only m s0 s) (k : 4096 &&& m = 4096) : Only m s0 (adoptBelow s) := by
  refine Only.lift h k ?_
  clear h k; have h := Only.refl 4096 s
  unfold adoptBelow
  exact (State_modFl_only h rfl)

theorem adoptDrover_only {m : Nat} {s0 : State} {s : State} (h : Only m s0 s) (k : 274432 &&& m = 274432) : Only m s0 (adoptDrover s) := by
  refine Only.lift h k ?_
  clear h k; have h := Only.refl 274432 s
  unfold adoptDrover
  exact (State_modDv_only (by split; exact (dropPlans_only (Only.foldl h (fun _ _ h0 => (sendBelow_only h0 rfl))) rfl); exact (Only.foldl h (fun _ _ h0 => (sendBelow_only h0 rfl)))) rfl)

theorem takeFlows_only {m : Nat} {s0 : State} {s : State} (h : Only m s0 s) (k : 8192 &&& m = 8192) : Only m s0 (takeFlows s) := by
  refine Only.lift h k ?_
  clear h k; have h := Only.refl 8192 s
  unfold takeFlows
  exact (Only.foldl h (fun _ _ h0 => (Only.ite h0 (modDesc_only h0 rfl))))

theorem adoptFaults_only {m : Nat} {s0 : State} {s : State} (h : Only m s0 s) (k : 4 &&& m = 4) : Only m s0 (adoptFaults s) := by
  refine Only.lift h k ?_
  clear h k; have h := Only.refl 4 s
  unfold adoptFaults
  exact (State_modFault_only h rfl)

theorem enableChains_only {m : Nat} {s0 : State} {s : State} (h : Only m s0 s) (k : 32 &&& m = 32) : Only m s0 (enableChains s) := by
  refine Only.lift h k ?_
  clear h k; have h := Only.refl 32 s
  unfold enableChains
  exact (Only.foldl h (fun _ _ h0 => (Only.ite h0 (Only.ite (modChain_only h0 rfl) (modChain_only h0 rfl)))))

theorem adoptModels_only {m : Nat} {s0 : State} {s : State} (h : Only m s0 s) (k : 276932 &&& m = 276932) : Only m s0 (adoptModels s) := by
  refine Only.lift h k ?_
  clear h k; have h := Only.refl 276932 s
  unfold adoptModels
  exact (Only.foldl (State_modNp_only (State_modLg_only (restartCancellers_only h rfl) rfl) rfl) (fun _ _ h0 => (enterPaddock_only h0 rfl)))

theorem pairTakeover_only {m : Nat} {s0 : State} {s : State} (h : Only m s0 s) (k : 342511 &&& m = 342511) : Only m s0 (pairTakeover s) := by
  refine Only.lift h k ?_
  clear h k; have h := Only.refl 342511 s
  unfold pairTakeover
  exact (by split; exact h; exact (refreshFaultN_only (refreshGains_only (postNotice_only (submitLog_only (adoptModels_only (enableChains_only (issuePlan_only (reportBindings_only (takeFlows_only (adoptDrover_only (adoptBelow_only (adoptFaults_only (failSource_only (State_modFl_only (State_modPair_only (advanceToAir_only h rfl) rfl) rfl) rfl) rfl) rfl) rfl) rfl) rfl) rfl) rfl) rfl) rfl) rfl) rfl) rfl))

theorem discardTables_only {m : Nat} {s0 : State} {s : State} (h : Only m s0 s) (k : 8192 &&& m = 8192) : Only m s0 (discardTables s) := by
  refine Only.lift h k ?_
  clear h k; have h := Only.refl 8192 s
  unfold discardTables
  exact (State_modDv_only h rfl)

theorem muteTowards_only {m : Nat} {s0 : State} {x0 : Nat} {s : State} (h : Only m s0 s) (k : 65989 &&& m = 65989) : Only m s0 (muteTowards x0 s) := by
  refine Only.lift h k ?_
  clear h k; have h := Only.refl 65989 s
  unfold muteTowards
  exact (Only.foldl h (fun _ _ h0 => (refreshGains_only (State_modPair_only (advanceTo_only h0 rfl) rfl) rfl)))

theorem pairDemote_only {m : Nat} {s0 : State} {s : State} (h : Only m s0 s) (k : 78319 &&& m = 78319) : Only m s0 (pairDemote s) := by
  refine Only.lift h k ?_
  clear h k; have h := Only.refl 78319 s
  unfold pairDemote
  exact (by split; exact h; exact (Only.ite (submitLog_only (submitLog_only (State_modPair_only (becomeStandbyHub_only (discardTables_only (advanceToAir_only (Only.ite h (muteTowards_only h rfl)) rfl) rfl) rfl) rfl) rfl) rfl) (submitLog_only (State_modPair_only (becomeStandbyHub_only (discardTables_only (advanceToAir_only (Only.ite h (muteTowards_only h rfl)) rfl) rfl) rfl) rfl) rfl)))

theorem specPairConfig_only : SpecOnly 65536 specPairConfig := by
  constructor
  · intro s q
    have h := Only.refl 65536 s
    dsimp only [specPairConfig]
    exact (State_modPair_only h rfl)
  · intro s q st
    have h := Only.refl 65536 s
    dsimp only [specPairConfig]
    exact h

theorem specPairSwitchover_only : SpecOnly 65536 specPairSwitchover := by
  constructor
  · intro s q
    have h := Only.refl 65536 s
    dsimp only [specPairSwitchover]
    exact (Only.ite (mirrorItem_only (State_modPair_only h rfl) rfl) (State_modPair_only h rfl))
  · intro s q st
    have h := Only.refl 65536 s
    dsimp only [specPairSwitchover]
    exact h

theorem specPairTailRead_only : SpecOnly 0 specPairTailRead := by
  constructor
  · intro s q
    have h := Only.refl 0 s
    dsimp only [specPairTailRead]
    exact h
  · intro s q st
    have h := Only.refl 0 s
    dsimp only [specPairTailRead]
    exact h

end Sys2Proof.Machine
end

