-- ==== Sys2Proof/Laws/FramesTop.lean ====
section
/-! SUPPORT. Frames of admission, commands, the fabric, the grid, the keepers and telemetry: what each operation touches at most. -/

namespace Sys2Proof.Machine

open Sys2Proof

theorem admitLoop_only {m : Nat} {s0 : State} {x0 : Nat} {x1 : BandPath} {x2 : Loop} {s : State} (h : Only m s0 s) (k : 452 &&& m = 452) : Only m s0 (admitLoop x0 x1 x2 s) := by
  refine Only.lift h k ?_
  clear h k; have h := Only.refl 452 s
  unfold admitLoop
  exact (Only.ite (enterGuarded_only (modLoop_only h rfl) rfl) (modLoop_only h rfl))

theorem softStartBand_only {m : Nat} {s0 : State} {x0 : Nat} {x1 : ℤ} {x2 : Nat} {s : State} (h : Only m s0 s) (k : 1280 &&& m = 1280) : Only m s0 (softStartBand x0 x1 x2 s) := by
  refine Only.lift h k ?_
  clear h k; have h := Only.refl 1280 s
  unfold softStartBand
  exact (by split; exact (Only.ite (State_modNp_only h rfl) (admitSlot_only (State_modNp_only h rfl) rfl)); exact (State_modNp_only h rfl))

theorem softStartOuters_only {m : Nat} {s0 : State} {x0 : Nat} {s : State} (h : Only m s0 s) (k : 1024 &&& m = 1024) : Only m s0 (softStartOuters x0 s) := by
  refine Only.lift h k ?_
  clear h k; have h := Only.refl 1024 s
  unfold softStartOuters
  exact (by split; exact (Only.foldl h (fun _ _ h0 => (softStart_only h0 rfl))); exact h)

theorem admitBand_only {m : Nat} {s0 : State} {s : State} {x1 : Nat} (h : Only m s0 s) (k : 1476 &&& m = 1476) : Only m s0 (admitBand s x1) := by
  refine Only.lift h k ?_
  clear h k; have h := Only.refl 1476 s
  unfold admitBand
  exact (by split; exact (softStartOuters_only (softStartBand_only (admitLoop_only h rfl) rfl) rfl); exact h)

theorem admitChain_only {m : Nat} {s0 : State} {s : State} {x1 : Nat} (h : Only m s0 s) (k : 1024 &&& m = 1024) : Only m s0 (admitChain s x1) := by
  refine Only.lift h k ?_
  clear h k; have h := Only.refl 1024 s
  unfold admitChain
  exact (Only.foldl h (fun _ _ h0 => (softStart_only h0 rfl)))

theorem admissionFrame_only {m : Nat} {s0 : State} {s : State} (h : Only m s0 s) (k : 275909 &&& m = 275909) : Only m s0 (admissionFrame s) := by
  refine Only.lift h k ?_
  clear h k; have h := Only.refl 275909 s
  unfold admissionFrame
  exact (by split; exact h; exact (seekAdmission_only (refreshGains_only (Only.foldl (Only.foldl (State_modLg_only (State_modFault_only (advanceToAir_only h rfl) rfl) rfl) (fun _ _ h0 => (admitBand_only h0 rfl))) (fun _ _ h0 => (admitChain_only h0 rfl))) rfl) rfl))

theorem specAtSchedule_only : SpecOnly 1 specAtSchedule := by
  constructor
  · intro s q
    have h := Only.refl 1 s
    dsimp only [specAtSchedule]
    exact (State_modAir_only h rfl)
  · intro s q st
    have h := Only.refl 1 s
    dsimp only [specAtSchedule]
    exact h

theorem specAtCancel_only : SpecOnly 33 specAtCancel := by
  constructor
  · intro s q
    have h := Only.refl 33 s
    dsimp only [specAtCancel]
    exact (State_modRf_only (State_modAir_only h rfl) rfl)
  · intro s q st
    have h := Only.refl 33 s
    dsimp only [specAtCancel]
    exact h

/-- Every command of the table touches at most these parts. -/
theorem commandTable_only : ∀ c ∈ commandTable, SpecOnly 393215 c := by
  have e : commandTable = [specSysNop, specSysSessionOpen, specSysSessionClose, specSysHostConfig, specSysNetConfig, specSysSiteConfig, specAtSourceConfig, specTddPatternSet, specWallTimeSet, specRfChainConfig, specRfTxEnable, specRfRxAtten, specRfCalRun, specRfCalGrant, specRfPolicy, specRfObsMap, specBpConfig, specBpRelease, specBpDetector, specBpAlign, specBpSyncPin, specDpdConfig, specDpdControl, specLgLoopConfig, specLgBeaconConfig, specLgCancelConfig, specLgCancelControl, specLgSearchConfig, specLgPolicy, specGsSetGain, specGsMute, specNpBackoffSet, specNpPolicy, specUlGateConfig, specUlNoiseConfig, specNpDonorConfig, specNpOutputConfig, specClSlotConfig, specClBankWrite, specClBankSwap, specClSetpoint, specClSlotControl, specClRepConfig, specClInject, specClTraceConfig, specClTraceRead, specClPolicy, specPaConfig, specPaTiming, specPaBiasTable, specCmpConfig, specCmpMode, specPaEnable, specPaBiasCal, specCasPolicy, specCasIdentityRead, specHkSlotMap, specHkUrgent, specHkCalPoint, specHkTestDac, specHkSupplyWindow, specHkThermalPolicy, specFlPortConfig, specFlFlockConfig, specFlJoin, specFlLeave, specFlLaneControl, specFlMemberQuery, specFlExpel, specDvIntentSet, specDvIntentClear, specDvPolicy, specDvReplace, specDvFlowQuery, specDvFlowControl, specCapArm, specCapTrigger, specCapControl, specArConfig, specArControl, specArRestore, specMemRetireClear, specBellConfig, specBellEnable, specKeeperKey, specBellChainConfig, specFaultClassConfig, specFaultPolicy, specFaultAck, specFaultUnitPen, specFaultUnitRelease, specFaultHaltRelease, specFaultFfClear, specFaultInject, specFaultTableRead, specLogMode, specLogRead, specLogClear, specLogMediaReset, specLogWrite, specLogVerify, specPwrStateSet, specPwrWakeConfig, specPwrLimitSet, specPwrReset, specLcProvision, specLcAdvance, specLcRoleSet, specKeyInstall, specDbgPolicy, specFwWrite, specFwControl, specPairConfig, specPairSwitchover, specPairTailRead, specAtSchedule, specAtCancel] := rfl
  rw [e]
  intro c hc
  simp only [List.mem_cons, List.not_mem_nil, or_false] at hc
  rcases hc with rfl | rfl | rfl | rfl | rfl | rfl | rfl | rfl | rfl | rfl | rfl | rfl | rfl | rfl | rfl | rfl | rfl | rfl | rfl | rfl | rfl | rfl | rfl | rfl | rfl | rfl | rfl | rfl | rfl | rfl | rfl | rfl | rfl | rfl | rfl | rfl | rfl | rfl | rfl | rfl | rfl | rfl | rfl | rfl | rfl | rfl | rfl | rfl | rfl | rfl | rfl | rfl | rfl | rfl | rfl | rfl | rfl | rfl | rfl | rfl | rfl | rfl | rfl | rfl | rfl | rfl | rfl | rfl | rfl | rfl | rfl | rfl | rfl | rfl | rfl | rfl | rfl | rfl | rfl | rfl | rfl | rfl | rfl | rfl | rfl | rfl | rfl | rfl | rfl | rfl | rfl | rfl | rfl | rfl | rfl | rfl | rfl | rfl | rfl | rfl | rfl | rfl | rfl | rfl | rfl | rfl | rfl | rfl | rfl | rfl | rfl | rfl | rfl | rfl | rfl | rfl | rfl
  · exact specSysNop_only.weaken rfl
  · exact specSysSessionOpen_only.weaken rfl
  · exact specSysSessionClose_only.weaken rfl
  · exact specSysHostConfig_only.weaken rfl
  · exact specSysNetConfig_only.weaken rfl
  · exact specSysSiteConfig_only.weaken rfl
  · exact specAtSourceConfig_only.weaken rfl
  · exact specTddPatternSet_only.weaken rfl
  · exact specWallTimeSet_only.weaken rfl
  · exact specRfChainConfig_only.weaken rfl
  · exact specRfTxEnable_only.weaken rfl
  · exact specRfRxAtten_only.weaken rfl
  · exact specRfCalRun_only.weaken rfl
  · exact specRfCalGrant_only.weaken rfl
  · exact specRfPolicy_only.weaken rfl
  · exact specRfObsMap_only.weaken rfl
  · exact specBpConfig_only.weaken rfl
  · exact specBpRelease_only.weaken rfl
  · exact specBpDetector_only.weaken rfl
  · exact specBpAlign_only.weaken rfl
  · exact specBpSyncPin_only.weaken rfl
  · exact specDpdConfig_only.weaken rfl
  · exact specDpdControl_only.weaken rfl
  · exact specLgLoopConfig_only.weaken rfl
  · exact specLgBeaconConfig_only.weaken rfl
  · exact specLgCancelConfig_only.weaken rfl
  · exact specLgCancelControl_only.weaken rfl
  · exact specLgSearchConfig_only.weaken rfl
  · exact specLgPolicy_only.weaken rfl
  · exact specGsSetGain_only.weaken rfl
  · exact specGsMute_only.weaken rfl
  · exact specNpBackoffSet_only.weaken rfl
  · exact specNpPolicy_only.weaken rfl
  · exact specUlGateConfig_only.weaken rfl
  · exact specUlNoiseConfig_only.weaken rfl
  · exact specNpDonorConfig_only.weaken rfl
  · exact specNpOutputConfig_only.weaken rfl
  · exact specClSlotConfig_only.weaken rfl
  · exact specClBankWrite_only.weaken rfl
  · exact specClBankSwap_only.weaken rfl
  · exact specClSetpoint_only.weaken rfl
  · exact specClSlotControl_only.weaken rfl
  · exact specClRepConfig_only.weaken rfl
  · exact specClInject_only.weaken rfl
  · exact specClTraceConfig_only.weaken rfl
  · exact specClTraceRead_only.weaken rfl
  · exact specClPolicy_only.weaken rfl
  · exact specPaConfig_only.weaken rfl
  · exact specPaTiming_only.weaken rfl
  · exact specPaBiasTable_only.weaken rfl
  · exact specCmpConfig_only.weaken rfl
  · exact specCmpMode_only.weaken rfl
  · exact specPaEnable_only.weaken rfl
  · exact specPaBiasCal_only.weaken rfl
  · exact specCasPolicy_only.weaken rfl
  · exact specCasIdentityRead_only.weaken rfl
  · exact specHkSlotMap_only.weaken rfl
  · exact specHkUrgent_only.weaken rfl
  · exact specHkCalPoint_only.weaken rfl
  · exact specHkTestDac_only.weaken rfl
  · exact specHkSupplyWindow_only.weaken rfl
  · exact specHkThermalPolicy_only.weaken rfl
  · exact specFlPortConfig_only.weaken rfl
  · exact specFlFlockConfig_only.weaken rfl
  · exact specFlJoin_only.weaken rfl
  · exact specFlLeave_only.weaken rfl
  · exact specFlLaneControl_only.weaken rfl
  · exact specFlMemberQuery_only.weaken rfl
  · exact specFlExpel_only.weaken rfl
  · exact specDvIntentSet_only.weaken rfl
  · exact specDvIntentClear_only.weaken rfl
  · exact specDvPolicy_only.weaken rfl
  · exact specDvReplace_only.weaken rfl
  · exact specDvFlowQuery_only.weaken rfl
  · exact specDvFlowControl_only.weaken rfl
  · exact specCapArm_only.weaken rfl
  · exact specCapTrigger_only.weaken rfl
  · exact specCapControl_only.weaken rfl
  · exact specArConfig_only.weaken rfl
  · exact specArControl_only.weaken rfl
  · exact specArRestore_only.weaken rfl
  · exact specMemRetireClear_only.weaken rfl
  · exact specBellConfig_only.weaken rfl
  · exact specBellEnable_only.weaken rfl
  · exact specKeeperKey_only.weaken rfl
  · exact specBellChainConfig_only.weaken rfl
  · exact specFaultClassConfig_only.weaken rfl
  · exact specFaultPolicy_only.weaken rfl
  · exact specFaultAck_only.weaken rfl
  · exact specFaultUnitPen_only.weaken rfl
  · exact specFaultUnitRelease_only.weaken rfl
  · exact specFaultHaltRelease_only.weaken rfl
  · exact specFaultFfClear_only.weaken rfl
  · exact specFaultInject_only.weaken rfl
  · exact specFaultTableRead_only.weaken rfl
  · exact specLogMode_only.weaken rfl
  · exact specLogRead_only.weaken rfl
  · exact specLogClear_only.weaken rfl
  · exact specLogMediaReset_only.weaken rfl
  · exact specLogWrite_only.weaken rfl
  · exact specLogVerify_only.weaken rfl
  · exact specPwrStateSet_only.weaken rfl
  · exact specPwrWakeConfig_only.weaken rfl
  · exact specPwrLimitSet_only.weaken rfl
  · exact specPwrReset_only.weaken rfl
  · exact specLcProvision_only.weaken rfl
  · exact specLcAdvance_only.weaken rfl
  · exact specLcRoleSet_only.weaken rfl
  · exact specKeyInstall_only.weaken rfl
  · exact specDbgPolicy_only.weaken rfl
  · exact specFwWrite_only.weaken rfl
  · exact specFwControl_only.weaken rfl
  · exact specPairConfig_only.weaken rfl
  · exact specPairSwitchover_only.weaken rfl
  · exact specPairTailRead_only.weaken rfl
  · exact specAtSchedule_only.weaken rfl
  · exact specAtCancel_only.weaken rfl
theorem commandSpec_only {n : Nat} {c : CommandSpec} (h : commandSpec n = some c) : SpecOnly 393215 c :=
  commandTable_only c (List.mem_of_find?_eq_some h)
theorem runRequest_only {m : Nat} {s0 : State} {x0 : Req} {s : State} (h : Only m s0 s) (k : 393215 &&& m = 393215) :
    Only m s0 (runRequest x0 s) := by
  refine Only.lift h k ?_
  clear h k; have h := Only.refl 393215 s
  unfold runRequest
  split
  · rename_i c hc
    exact runCommand_only (commandSpec_only hc) h rfl rfl rfl
  · exact runUnassigned_only h rfl

theorem commandStart_only {m : Nat} {s0 : State} {s : State} (h : Only m s0 s) (k : 393215 &&& m = 393215) : Only m s0 (commandStart s) := by
  refine Only.lift h k ?_
  clear h k; have h := Only.refl 393215 s
  unfold commandStart
  exact (Only.ite h (by split; exact h; exact (by split; exact (runRequest_only (unregister_only h rfl) rfl); exact (unregister_only h rfl))))

theorem scheduledCommandFire_only {m : Nat} {s0 : State} {s : State} (h : Only m s0 s) (k : 393215 &&& m = 393215) : Only m s0 (scheduledCommandFire s) := by
  refine Only.lift h k ?_
  clear h k; have h := Only.refl 393215 s
  unfold scheduledCommandFire
  exact (by split; exact h; exact (runRequest_only (State_modAir_only (by split; exact (advanceTo_only h rfl); exact (Only.ite (advanceToAir_only h rfl) h)) rfl) rfl))

theorem applyMirrored_only {m : Nat} {s0 : State} {x0 : Nat} {x1 : List Byte} {s : State} (h : Only m s0 s) (k : 393215 &&& m = 393215) :
    Only m s0 (applyMirrored x0 x1 s) := by
  refine Only.lift h k ?_
  clear h k; have h := Only.refl 393215 s
  unfold applyMirrored
  split
  · exact h
  · rename_i c hc
    dsimp only
    split
    · exact ((commandSpec_only hc).weaken rfl).1 _ _
    · exact h

theorem takeMembers_only {m : Nat} {s0 : State} {x0 : List (Nat × BitVec 64 × Nat × Nat × Nat)} {s : State} (h : Only m s0 s) (k : 4096 &&& m = 4096) : Only m s0 (takeMembers x0 s) := by
  refine Only.lift h k ?_
  clear h k; have h := Only.refl 4096 s
  unfold takeMembers
  exact (State_modFl_only h rfl)

theorem takeCounters_only {m : Nat} {s0 : State} {x0 : List (Nat × Nat)} {s : State} (h : Only m s0 s) (k : 32768 &&& m = 32768) : Only m s0 (takeCounters x0 s) := by
  refine Only.lift h k ?_
  clear h k; have h := Only.refl 32768 s
  unfold takeCounters
  exact (State_modBell_only h rfl)

theorem applyItem_only {m : Nat} {s0 : State} {x0 : PairItem} {s : State} (h : Only m s0 s) (k : 393215 &&& m = 393215) : Only m s0 (applyItem x0 s) := by
  refine Only.lift h k ?_
  clear h k; have h := Only.refl 393215 s
  unfold applyItem
  exact (by split; exact (Only.ite (State_modPair_only h rfl) (applyMirrored_only (State_modPair_only h rfl) rfl)); exact (State_modPair_only h rfl); exact (State_modPair_only h rfl); exact (State_modPair_only h rfl); exact (State_modPair_only h rfl); exact (takeCounters_only h rfl); exact (takeMembers_only h rfl); exact (State_modDv_only (State_modPair_only h rfl) rfl); exact (State_modDv_only h rfl); exact (State_modDv_only h rfl); exact (State_modPair_only h rfl))

theorem pairSync_only {m : Nat} {s0 : State} {x0 : Nat} {x1 : PairItem} {s : State} (h : Only m s0 s) (k : 393215 &&& m = 393215) : Only m s0 (pairSync x0 x1 s) := by
  refine Only.lift h k ?_
  clear h k; have h := Only.refl 393215 s
  unfold pairSync
  exact (Only.ite (applyItem_only (State_modPair_only h rfl) rfl) h)

theorem relayDown_only {m : Nat} {s0 : State} {x0 : Nat} {x1 : CtrlFrame} {s t : State} (h : Only m s0 s)
    (k : 294912 &&& m = 294912) (ht : relayDown x0 x1 s = some t) : Only m s0 t := by
  refine Only.lift h k ?_
  unfold relayDown at ht
  split at ht
  · injection ht with ht
    subst ht
    exact State_modBell_only (queueChain_only (Only.refl _ _) rfl) rfl
  · cases ht
theorem orRelay_only {m : Nat} {s0 : State} {x0 : CtrlFrame} {x1 : State → State} {s : State} (h : Only m s0 s)
    (k : 294912 &&& m = 294912) (hg : Only m s0 (x1 s)) : Only m s0 (orRelay x0 x1 s) := by
  unfold orRelay
  split
  · exact hg
  · cases hr : relayDown x0.head.dest x0 s with
    | none => exact hg
    | some t => exact relayDown_only h k hr

theorem forMember_only {m : Nat} {s0 : State} {x0 : Nat} {x1 : CtrlFrame} {x2 : State → State} {s : State} (h : Only m s0 s)
    (k : 266240 &&& m = 266240) (hg : Only m s0 (x2 s)) : Only m s0 (forMember x0 x1 x2 s) := by
  unfold forMember
  split
  · exact hg
  · exact forwardTo_only h k

theorem ttRespFrame_only {m : Nat} {s0 : State} {x0 : Nat} {x1 : Nat} {x2 : Nat} {s : State} (h : Only m s0 s) (k : 266241 &&& m = 266241) : Only m s0 (ttRespFrame x0 x1 x2 s) := by
  refine Only.lift h k ?_
  clear h k; have h := Only.refl 266241 s
  unfold ttRespFrame
  exact (ttResp_only (draw_only (draw_only h rfl) rfl) rfl)

theorem handleFrame_only {m : Nat} {s0 : State} {x0 : Nat} {x2 : CtrlFrame} {s : State} (h : Only m s0 s)
    (k : 393215 &&& m = 393215) : Only m s0 (handleFrame x0 s x2) := by
  refine Only.lift h k ?_
  clear h k; have h := Only.refl 393215 s
  unfold handleFrame
  dsimp only
  split
  · exact hello_only h rfl
  · split
    · exact h
    · refine orRelay_only h rfl ?_
      split <;> first
        | with_reducible exact h
        | ((with_reducible refine ttReq_only h ?_); exact rfl)
        | ((with_reducible refine ttRespFrame_only h ?_); exact rfl)
        | ((with_reducible refine joinReq_only h ?_); exact rfl)
        | ((with_reducible refine joinResp_only h ?_); exact rfl)
        | ((with_reducible refine leave_only h ?_); exact rfl)
        | ((with_reducible refine leaveAck_only h ?_); exact rfl)
        | ((with_reducible refine status_only h ?_); exact rfl)
        | ((with_reducible refine pathDown_only h ?_); exact rfl)
        | ((with_reducible refine rehome_only h ?_); exact rfl)
        | ((with_reducible refine lost_only h ?_); exact rfl)
        | ((with_reducible refine laneSet_only h ?_); exact rfl)
        | ((with_reducible refine expel_only h ?_); exact rfl)
        | ((with_reducible refine forMember_only h ?_ (marginCapReceive_only h ?_)) <;> exact rfl)
        | ((with_reducible refine forMember_only h ?_ (admitGrantReceive_only h ?_)) <;> exact rfl)
        | ((with_reducible refine sendBelow_only (raiseGates_only h ?_) ?_) <;> exact rfl)
        | ((with_reducible refine plan_only h ?_); exact rfl)
        | ((with_reducible refine planAck_only h ?_); exact rfl)
        | ((with_reducible refine planCancel_only h ?_); exact rfl)
        | ((with_reducible refine bindStatus_only h ?_); exact rfl)
        | ((with_reducible refine flowReport_only h ?_); exact rfl)
        | ((with_reducible refine pairHb_only h ?_); exact rfl)
        | ((with_reducible refine modPort_only h ?_); exact rfl)
        | ((with_reducible refine Only.ite (pairSync_only h ?_) h); exact rfl)
        | (split
           · split
             · exact admitReqReceive_only h rfl
             · exact h
           · exact forwardUp_only h rfl)

theorem loseFlit_only {m : Nat} {s0 : State} {x0 : Nat} {s : State} (h : Only m s0 s) (k : 4096 &&& m = 4096) : Only m s0 (loseFlit x0 s) := by
  refine Only.lift h k ?_
  clear h k; have h := Only.refl 4096 s
  unfold loseFlit
  exact (modPort_only h rfl)

theorem flitReceive_only {m : Nat} {s0 : State} {x0 : Nat} {x1 : Flit} {s : State} (h : Only m s0 s) (k : 524287 &&& m = 524287) : Only m s0 (flitReceive x0 x1 s) := by
  refine Only.lift h k ?_
  clear h k; have h := Only.refl 524287 s
  unfold flitReceive
  exact (Only.ite h (Only.ite (loseFlit_only h rfl) (by split; exact h; exact (loseFlit_only h rfl); exact (Only.ite (forwardFlit_only (Only.foldl h (fun _ _ h0 => (blockArrives_only h0 rfl))) rfl) h); exact (Only.foldl h (fun _ _ h0 => (handleFrame_only h0 rfl))))))

theorem approachStep_only {m : Nat} {s0 : State} {x0 : AirInstant} {s : State} (h : Only m s0 s) (k : 453 &&& m = 453) : Only m s0 (approachStep x0 s) := by
  refine Only.lift h k ?_
  clear h k; have h := Only.refl 453 s
  unfold approachStep
  exact (advanceToAir_only (fadeTowards_only h rfl) rfl)

theorem toTick_only {m : Nat} {s0 : State} {s : State} (h : Only m s0 s) (k : 453 &&& m = 453) : Only m s0 (toTick s) := by
  refine Only.lift h k ?_
  clear h k; have h := Only.refl 453 s
  unfold toTick
  exact (State_modAir_only (by split; exact (Only.ite (approachStep_only h rfl) (advanceToAir_only h rfl)); exact (advanceToAir_only h rfl)) rfl)

theorem hubLadders_only {m : Nat} {s0 : State} {s : State} (h : Only m s0 s) (k : 266368 &&& m = 266368) : Only m s0 (hubLadders s) := by
  refine Only.lift h k ?_
  clear h k; have h := Only.refl 266368 s
  unfold hubLadders
  exact (Only.ite (Only.foldl h (fun _ _ h0 => (hubLadder_only h0 rfl))) h)

theorem tickSamples_only {m : Nat} {s0 : State} {x0 : TickInput} {s : State} (h : Only m s0 s) (k : 422373 &&& m = 422373) : Only m s0 (tickSamples x0 s) := by
  refine Only.lift h k ?_
  clear h k; have h := Only.refl 422373 s
  unfold tickSamples
  exact (Only.foldl (trackingLimit_only (Only.foldl (feedPaths_only (Only.foldl h (fun _ _ h0 => (Only.ite (tapRaw_only h0 rfl) h0))) rfl) (fun _ _ h0 => (transmitTick_only h0 rfl))) rfl) (fun _ _ h0 => (clipTick_only h0 rfl)))

theorem reportStacks_only {m : Nat} {s0 : State} {s : State} (h : Only m s0 s) (k : 256 &&& m = 256) : Only m s0 (reportStacks s) := by
  refine Only.lift h k ?_
  clear h k; have h := Only.refl 256 s
  unfold reportStacks
  exact (State_modNp_only h rfl)

theorem loopTick_only {m : Nat} {s0 : State} {x0 : TickInput} {s : State} (h : Only m s0 s) (k : 424421 &&& m = 424421) : Only m s0 (loopTick x0 s) := by
  refine Only.lift h k ?_
  clear h k; have h := Only.refl 424421 s
  unfold loopTick
  exact (Only.ite (sendStatus_only (reportStacks_only (refreshGains_only (hubLadders_only (Only.foldl (takeGains_only (Only.foldl (Only.foldl (tickSamples_only (Only.foldl (State_modPs_only (checkTimeLoss_only (phaseTick_only (reselect_only (toTick_only h rfl) rfl) rfl) rfl) rfl) (fun _ _ h0 => (drainQueue_only h0 rfl))) rfl) (fun _ _ h0 => (donorTick_only h0 rfl))) (fun _ _ h0 => (noiseTick_only h0 rfl))) rfl) (fun _ _ h0 => (riseCap_only h0 rfl))) rfl) rfl) rfl) rfl) (reportStacks_only (refreshGains_only (hubLadders_only (Only.foldl (takeGains_only (Only.foldl (Only.foldl (tickSamples_only (Only.foldl (State_modPs_only (checkTimeLoss_only (phaseTick_only (reselect_only (toTick_only h rfl) rfl) rfl) rfl) rfl) (fun _ _ h0 => (drainQueue_only h0 rfl))) rfl) (fun _ _ h0 => (donorTick_only h0 rfl))) (fun _ _ h0 => (noiseTick_only h0 rfl))) rfl) (fun _ _ h0 => (riseCap_only h0 rfl))) rfl) rfl) rfl))

theorem slotBoundary_only {m : Nat} {s0 : State} {s : State} (h : Only m s0 s) (k : 1477 &&& m = 1477) : Only m s0 (slotBoundary s) := by
  refine Only.lift h k ?_
  clear h k; have h := Only.refl 1477 s
  unfold slotBoundary
  exact (admitAcquired_only (dpdSlot_only (placeClusters_only (keepSnapshots_only (lgSlot_only (advanceToBoundary_only h rfl) rfl) rfl) rfl) rfl) rfl)

theorem subframeBoundary_only {m : Nat} {s0 : State} {s : State} (h : Only m s0 s) (k : 331785 &&& m = 331785) : Only m s0 (subframeBoundary s) := by
  refine Only.lift h k ?_
  clear h k; have h := Only.refl 331785 s
  unfold subframeBoundary
  exact (pairSubframe_only (advanceToBoundary_only h rfl) rfl)

theorem ppsFrame_only {m : Nat} {s0 : State} {s : State} (h : Only m s0 s) (k : 1 &&& m = 1) : Only m s0 (ppsFrame s) := by
  refine Only.lift h k ?_
  clear h k; have h := Only.refl 1 s
  unfold ppsFrame
  exact (State_modAir_only h rfl)

theorem frameBoundary_only {m : Nat} {s0 : State} {x0 : FrameInput} {s : State} (h : Only m s0 s) (k : 274821 &&& m = 274821) : Only m s0 (frameBoundary x0 s) := by
  refine Only.lift h k ?_
  clear h k; have h := Only.refl 274821 s
  unfold frameBoundary
  exact (Only.ite (dvFrame_only (flFrame_only (ppsFrame_only (advanceToBoundary_only h rfl) rfl) rfl) rfl) (seekAdmission_only (dvFrame_only (flFrame_only (ppsFrame_only (advanceToBoundary_only h rfl) rfl) rfl) rfl) rfl))

theorem applyStep_only {m : Nat} {s0 : State} {x0 : ℤ} {s : State} (h : Only m s0 s) (k : 1485 &&& m = 1485) : Only m s0 (applyStep x0 s) := by
  refine Only.lift h k ?_
  clear h k; have h := Only.refl 1485 s
  unfold applyStep
  exact (submitLog_only (stepSlots_only (stepBands_only (State_modAir_only (State_modAir_only h rfl) rfl) rfl) rfl) rfl)

theorem airTimeStep_only {m : Nat} {s0 : State} {s : State} (h : Only m s0 s) (k : 1485 &&& m = 1485) : Only m s0 (airTimeStep s) := by
  refine Only.lift h k ?_
  clear h k; have h := Only.refl 1485 s
  unfold airTimeStep
  exact (by split; exact h; exact (refreshGains_only (applyStep_only (State_modAir_only (Only.ite (approachStep_only h rfl) h) rfl) rfl) rfl))

theorem tddPatternEffective_only {m : Nat} {s0 : State} {x0 : Nat} {s : State} (h : Only m s0 s) (k : 1477 &&& m = 1477) : Only m s0 (tddPatternEffective x0 s) := by
  refine Only.lift h k ?_
  clear h k; have h := Only.refl 1477 s
  unfold tddPatternEffective
  exact (by split; exact h; exact (refreshGains_only (State_modAir_only (Only.ite (patternClears_only (advanceToAir_only h rfl) rfl) (advanceToAir_only h rfl)) rfl) rfl))

theorem modObs_only {m : Nat} {s0 : State} {x0 : Nat} {x1 : ObsState → ObsState} {s : State} (h : Only m s0 s) (k : 32 &&& m = 32) : Only m s0 (modObs x0 x1 s) := by
  refine Only.lift h k ?_
  clear h k; have h := Only.refl 32 s
  unfold modObs
  exact (State_modRf_only h rfl)

theorem obsDwellStart_only {m : Nat} {s0 : State} {x0 : Nat} {s : State} (h : Only m s0 s) (k : 33 &&& m = 33) : Only m s0 (obsDwellStart x0 s) := by
  refine Only.lift h k ?_
  clear h k; have h := Only.refl 33 s
  unfold obsDwellStart
  exact (Only.ite (by (try dsimp only); split; exact (modObs_only (advanceToAir_only h rfl) rfl); exact h) h)

theorem dpdDwell_only {m : Nat} {s0 : State} {x0 : Nat} {x1 : List DwellPair} {s : State} (h : Only m s0 s) (k : 68 &&& m = 68) : Only m s0 (dpdDwell x0 x1 s) := by
  refine Only.lift h k ?_
  clear h k; have h := Only.refl 68 s
  unfold dpdDwell
  exact (Only.ite h (Only.ite (modDpd_only h rfl) (Only.ite (dpdDiverge_only (modDpd_only h rfl) rfl) (modDpd_only h rfl))))

theorem usableDwell_only {m : Nat} {s0 : State} {x0 : Nat} {x1 : Nat} {x2 : List DwellPair} {s : State} (h : Only m s0 s) (k : 1476 &&& m = 1476) : Only m s0 (usableDwell x0 x1 x2 s) := by
  refine Only.lift h k ?_
  clear h k; have h := Only.refl 1476 s
  unfold usableDwell
  exact (Only.ite (repUpdate_only (State_modCl_only (by split; exact (aclrMeasured_only h rfl); exact h) rfl) rfl) (State_modCl_only (by split; exact (aclrMeasured_only h rfl); exact h) rfl))

theorem obsDwellEnd_only {m : Nat} {s0 : State} {x0 : Nat} {x1 : DwellInput} {s : State} (h : Only m s0 s) (k : 1509 &&& m = 1509) : Only m s0 (obsDwellEnd x0 x1 s) := by
  refine Only.lift h k ?_
  clear h k; have h := Only.refl 1509 s
  unfold obsDwellEnd
  exact (Only.ite h (Only.ite (modObs_only (modObs_only (advanceTo_only h rfl) rfl) rfl) (refreshGains_only (dpdDwell_only (Only.ite (usableDwell_only (outputMeasured_only (modObs_only (modObs_only (advanceTo_only h rfl) rfl) rfl) rfl) rfl) (outputMeasured_only (modObs_only (modObs_only (advanceTo_only h rfl) rfl) rfl) rfl)) rfl) rfl)))

theorem readWord_only {m : Nat} {s0 : State} {x0 : HostPath} {x1 : Nat} {s : State} (h : Only m s0 s) (k : 262146 &&& m = 262146) : Only m s0 (readWord x0 x1 s).2 := by
  refine Only.lift h k ?_
  clear h k; have h := Only.refl 262146 s
  unfold readWord
  exact (by split; exact h; exact (State_modHost_only h rfl); exact h; exact (channelRecordLatch_only h rfl); exact h; exact (draw_only h rfl); exact (State_modHost_only (draw_only h rfl) rfl))

theorem readWords_only {m : Nat} {s0 : State} {x0 : HostPath} {x1 x2 : Nat} {s : State} (h : Only m s0 s) (k : 262146 &&& m = 262146) :
    Only m s0 (readWords x0 x1 x2 s).2 := by
  induction x1 generalizing x2 s with
  | zero => exact h
  | succ n ih => exact ih (readWord_only h k)

theorem emitHost_only {m : Nat} {s0 : State} {x0 : HostOutput} {s : State} (h : Only m s0 s) (k : 2 &&& m = 2) : Only m s0 (emitHost x0 s) := by
  refine Only.lift h k ?_
  clear h k; have h := Only.refl 2 s
  unfold emitHost
  exact (Only.ite h (State_modHost_only h rfl))

theorem lowHalfRead_only {m : Nat} {s0 : State} {x0 : HostPath} {x1 : Nat} {s : State} (h : Only m s0 s) (k : 262146 &&& m = 262146) : Only m s0 (lowHalfRead x0 x1 s) := by
  refine Only.lift h k ?_
  clear h k; have h := Only.refl 262146 s
  unfold lowHalfRead
  exact (Only.ite h (by (try dsimp only); split; exact (emitHost_only (readWord_only h rfl) rfl); exact (emitHost_only (readWord_only h rfl) rfl); exact (emitHost_only (readWord_only h rfl) rfl); exact h))

theorem ethRead_only {m : Nat} {s0 : State} {x0 : EthDatagram} {s : State} (h : Only m s0 s) (k : 262146 &&& m = 262146) : Only m s0 (ethRead x0 s) := by
  refine Only.lift h k ?_
  clear h k; have h := Only.refl 262146 s
  unfold ethRead
  exact (Only.ite h (Only.ite (rejectDatagram_only h rfl) (emitHost_only (readWords_only h rfl) rfl)))

theorem writeWords_only {m : Nat} {s0 : State} {x0 : Nat} {x1 : List Word} {s : State} (h : Only m s0 s) (k : 2 &&& m = 2) :
    Only m s0 (writeWords x0 x1 s) := by
  induction x1 generalizing x0 s with
  | nil => exact h
  | cons w ws ih => exact ih (registerWrite_only h k)

theorem spiTransfer_only {m : Nat} {s0 : State} {x0 : Nat} {x1 : Nat} {x2 : Nat} {x3 : List Word} {s : State} (h : Only m s0 s) (k : 262146 &&& m = 262146) : Only m s0 (spiTransfer x0 x1 x2 x3 s) := by
  refine Only.lift h k ?_
  clear h k; have h := Only.refl 262146 s
  unfold spiTransfer
  exact (Only.ite h (Only.ite (Only.ite (writeWords_only h rfl) (Only.foldl h (fun _ _ h0 => (registerWrite_only h0 rfl)))) (Only.ite (Only.ite (emitHost_only (readWords_only h rfl) rfl) (emitHost_only (Only.upd (draw_only h rfl) (by intro p hp; cases p <;> first | rfl | exact absurd hp (by decide))) rfl)) h)))

theorem i2cRead_only {m : Nat} {s0 : State} {x0 : Nat} {s : State} (h : Only m s0 s) (k : 262146 &&& m = 262146) :
    Only m s0 (i2cRead x0 s).2 := by
  refine Only.lift h k ?_
  clear h k; have h := Only.refl 262146 s
  have key : ∀ n t, Only 262146 s t → Only 262146 s (i2cRead n t).2 := by
    intro n
    induction n with
    | zero => intro t ht; exact ht
    | succ n ih =>
      intro t ht
      unfold i2cRead
      dsimp only
      refine ih _ (State_modHost_only ?_ rfl)
      split
      · exact ht
      · exact draw_only ht rfl
  exact key x0 s h

theorem i2cTransfer_only {m : Nat} {s0 : State} {x0 : List Byte} {x1 : Nat} {s : State} (h : Only m s0 s) (k : 262146 &&& m = 262146) : Only m s0 (i2cTransfer x0 x1 s) := by
  refine Only.lift h k ?_
  clear h k; have h := Only.refl 262146 s
  unfold i2cTransfer
  exact (Only.ite (by split; exact (State_modHost_only h rfl); exact h) (emitHost_only (i2cRead_only (by split; exact (State_modHost_only h rfl); exact h) rfl) rfl))

theorem keeperFailed_only {m : Nat} {s0 : State} {x0 : Nat} {x1 : Nat} {x2 : Nat} {s : State} (h : Only m s0 s) (k : 32776 &&& m = 32776) : Only m s0 (keeperFailed x0 x1 x2 s) := by
  refine Only.lift h k ?_
  clear h k; have h := Only.refl 32776 s
  unfold keeperFailed
  exact (Only.ite (submitLog_only (State_modBell_only (submitLog_only (State_modBell_only h rfl) rfl) rfl) rfl) (submitLog_only (State_modBell_only h rfl) rfl))

theorem acceptCounter_only {m : Nat} {s0 : State} {x0 : Nat} {x1 : Nat} {s : State} (h : Only m s0 s) (k : 32768 &&& m = 32768) : Only m s0 (acceptCounter x0 x1 s) := by
  refine Only.lift h k ?_
  clear h k; have h := Only.refl 32768 s
  unfold acceptCounter
  exact (State_modBell_only h rfl)

theorem queueResponse_only {m : Nat} {s0 : State} {x0 : BellArrival} {x1 : List Byte} {x2 : Nat} {x3 : List Byte} {x4 : Status} {x5 : List Byte} {s : State} (h : Only m s0 s) (k : 32768 &&& m = 32768) : Only m s0 (queueResponse x0 x1 x2 x3 x4 x5 s) := by
  refine Only.lift h k ?_
  clear h k; have h := Only.refl 32768 s
  unfold queueResponse
  exact (bellQueue_only h rfl)

theorem readResult_only {m : Nat} {s0 : State} {x0 : List Byte} {s : State} (h : Only m s0 s) (k : 262146 &&& m = 262146) : Only m s0 (readResult x0 s).2 := by
  refine Only.lift h k ?_
  clear h k; have h := Only.refl 262146 s
  unfold readResult
  exact (Only.ite2 h (Only.ite2 h (readWords_only h rfl)))

theorem keeperCommand_only {m : Nat} {s0 : State} {x0 : BellArrival} {x1 : KeeperKey} {x2 : Nat} {x3 : Nat} {x4 : List Byte} {s : State} (h : Only m s0 s) (k : 393215 &&& m = 393215) : Only m s0 (keeperCommand x0 x1 x2 x3 x4 s) := by
  refine Only.lift h k ?_
  clear h k; have h := Only.refl 393215 s
  unfold keeperCommand
  exact (Only.ite (queueResponse_only h rfl) (Only.ite (runRequest_only (State_modHost_only h rfl) rfl) (by split; exact (queueResponse_only (State_modHost_only (runRequest_only (State_modHost_only h rfl) rfl) rfl) rfl); exact (bellQueue_only (runRequest_only (State_modHost_only h rfl) rfl) rfl))))

theorem keeperService_only {m : Nat} {s0 : State} {x0 : BellArrival} {x1 : KeeperKey} {x2 : List Byte} {s : State} (h : Only m s0 s) (k : 393215 &&& m = 393215) : Only m s0 (keeperService x0 x1 x2 s) := by
  refine Only.lift h k ?_
  clear h k; have h := Only.refl 393215 s
  unfold keeperService
  exact (Only.ite (queueResponse_only h rfl) (Only.ite (Only.ite (queueResponse_only (draw_only h rfl) rfl) (queueResponse_only (draw_only h rfl) rfl)) (Only.ite (queueResponse_only (readResult_only h rfl) rfl) (Only.ite (queueResponse_only h rfl) (keeperCommand_only h rfl)))))

theorem keeperRequest_only {m : Nat} {s0 : State} {s : State} (h : Only m s0 s) (k : 393215 &&& m = 393215) : Only m s0 (keeperRequest s) := by
  refine Only.lift h k ?_
  clear h k; have h := Only.refl 393215 s
  unfold keeperRequest
  exact (by split; exact h; exact (by (try dsimp only); split; exact (State_modBell_only h rfl); exact (Only.ite (State_modBell_only h rfl) (by split; exact (keeperService_only (acceptCounter_only (State_modBell_only h rfl) rfl) rfl); exact (keeperFailed_only (State_modBell_only h rfl) rfl); exact (State_modBell_only h rfl)))))

theorem settleResponse_only {m : Nat} {s0 : State} {x0 : BellTx} {x1 : KeeperWait} {s : State} (h : Only m s0 s) (k : 32768 &&& m = 32768) : Only m s0 (settleResponse x0 x1 s) := by
  refine Only.lift h k ?_
  clear h k; have h := Only.refl 32768 s
  unfold settleResponse
  exact (by split; exact (by (try dsimp only); split; exact (State_modBell_only h rfl); exact (Only.ite (State_modBell_only h rfl) h)); exact (State_modBell_only h rfl))

theorem keeperResponseDue_only {m : Nat} {s0 : State} {s : State} (h : Only m s0 s) (k : 32769 &&& m = 32769) : Only m s0 (keeperResponseDue s) := by
  refine Only.lift h k ?_
  clear h k; have h := Only.refl 32769 s
  unfold keeperResponseDue
  exact (by split; exact h; exact (by (try dsimp only); split; exact (settleResponse_only (advanceTo_only h rfl) rfl); exact (advanceTo_only h rfl)))

theorem chainPacket_only {m : Nat} {s0 : State} {x0 : ChainPacket} {x1 : ℤ} {x2 : Nat} {s : State} (h : Only m s0 s) (k : 307584 &&& m = 307584) : Only m s0 (chainPacket x0 x1 x2 s) := by
  refine Only.lift h k ?_
  clear h k; have h := Only.refl 307584 s
  unfold chainPacket
  exact (Only.ite (reviewRelay_only (State_modBell_only h rfl) rfl) (Only.ite (Only.ite (queueChain_only h rfl) (relayPacket_only h rfl)) (Only.ite (State_modBell_only h rfl) h)))

theorem chainPacketReceive_only {m : Nat} {s0 : State} {s : State} (h : Only m s0 s) (k : 307584 &&& m = 307584) : Only m s0 (chainPacketReceive s) := by
  refine Only.lift h k ?_
  clear h k; have h := Only.refl 307584 s
  unfold chainPacketReceive
  exact (by split; exact h; exact (by (try dsimp only); split; exact (State_modBell_only h rfl); exact (Only.ite (chainPacket_only (State_modBell_only h rfl) rfl) (State_modBell_only h rfl))))

end Sys2Proof.Machine
end

