-- ==== Sys2Proof/Laws/FramesExec.lean ====
section
/-! SUPPORT. Frames of the commands and events: what each row of the table touches at most. -/

namespace Sys2Proof.Machine

open Sys2Proof

theorem execRecordCommit_only {s : State} {t : State} (h : execRecordCommit s = .next t) : Only 32778 s t := by
  injection h with h
  subst h
  have h := Only.refl 32778 s
  exact (recordCommit_only h rfl)

theorem execMirrorWrite_only {x0 : Bool} {x1 : Bool} {s : State} {t : State} (h : execMirrorWrite x0 x1 s = .next t) : Only 13 s t := by
  injection h with h
  subst h
  have h := Only.refl 13 s
  exact (mirrorWrite_only h rfl)

theorem execLogBankScrub_only {x0 : Nat} {x1 : Bool} {x2 : Bool} {s : State} {t : State} (h : execLogBankScrub x0 x1 x2 s = .next t) : Only 12 s t := by
  injection h with h
  subst h
  have h := Only.refl 12 s
  exact (logBankScrub_only h rfl)

theorem execLogMode_only {x0 : HostRequest} {s : State} {t : State} (h : execLogMode x0 s = .next t) : Only 98314 s t := by
  injection h with h
  subst h
  have h := Only.refl 98314 s
  exact (submit_only specLogMode_only h rfl rfl rfl)

theorem execLogRead_only {x0 : HostRequest} {s : State} {t : State} (h : execLogRead x0 s = .next t) : Only 65538 s t := by
  injection h with h
  subst h
  have h := Only.refl 65538 s
  exact (submit_only specLogRead_only h rfl rfl rfl)

theorem execLogClear_only {x0 : HostRequest} {s : State} {t : State} (h : execLogClear x0 s = .next t) : Only 65546 s t := by
  injection h with h
  subst h
  have h := Only.refl 65546 s
  exact (submit_only specLogClear_only h rfl rfl rfl)

theorem execLogMediaReset_only {x0 : HostRequest} {s : State} {t : State} (h : execLogMediaReset x0 s = .next t) : Only 65546 s t := by
  injection h with h
  subst h
  have h := Only.refl 65546 s
  exact (submit_only specLogMediaReset_only h rfl rfl rfl)

theorem execLogWrite_only {x0 : HostRequest} {s : State} {t : State} (h : execLogWrite x0 s = .next t) : Only 98314 s t := by
  injection h with h
  subst h
  have h := Only.refl 98314 s
  exact (submit_only specLogWrite_only h rfl rfl rfl)

theorem execLogVerify_only {x0 : HostRequest} {s : State} {t : State} (h : execLogVerify x0 s = .next t) : Only 65546 s t := by
  injection h with h
  subst h
  have h := Only.refl 65546 s
  exact (submit_only specLogVerify_only h rfl rfl rfl)

theorem execLogClearComplete_only {x0 : Bool} {s : State} {t : State} (h : execLogClearComplete x0 s = .next t) : Only 32778 s t := by
  injection h with h
  subst h
  have h := Only.refl 32778 s
  exact (logClearComplete_only h rfl)

theorem execLogMediaResetComplete_only {x0 : Bool} {x1 : Bool} {s : State} {t : State} (h : execLogMediaResetComplete x0 x1 s = .next t) : Only 14 s t := by
  injection h with h
  subst h
  have h := Only.refl 14 s
  exact (logMediaResetComplete_only h rfl)

theorem execLogVerifyComplete_only {s : State} {t : State} (h : execLogVerifyComplete s = .next t) : Only 10 s t := by
  injection h with h
  subst h
  have h := Only.refl 10 s
  exact (logVerifyComplete_only h rfl)

theorem execSymbolBoundary_only {x0 : Dir} {x1 : Nat} {x2 : List Nat} {x3 : List (List Cx)} {s : State} {t : State} (h : execSymbolBoundary x0 x1 x2 x3 s = .next t) : Only 422337 s t := by
  injection h with h
  subst h
  have h := Only.refl 422337 s
  exact (symbolBoundary_only h rfl)

theorem execNoiseWindowFilled_only {x0 : Nat} {s : State} {t : State} (h : execNoiseWindowFilled x0 s = .next t) : Only 256 s t := by
  injection h with h
  subst h
  have h := Only.refl 256 s
  exact (noiseWindowFilled_only h rfl)

theorem execUlNoiseRiseTimeout_only {x0 : Nat} {s : State} {t : State} (h : execUlNoiseRiseTimeout x0 s = .next t) : Only 261 s t := by
  injection h with h
  subst h
  have h := Only.refl 261 s
  exact (ulNoiseRiseTimeout_only h rfl)

theorem execDonorLossTimeout_only {x0 : Nat} {s : State} {t : State} (h : execDonorLossTimeout x0 s = .next t) : Only 261 s t := by
  injection h with h
  subst h
  have h := Only.refl 261 s
  exact (donorLossTimeout_only h rfl)

theorem execDonorRecovery_only {x0 : Nat} {s : State} {t : State} (h : execDonorRecovery x0 s = .next t) : Only 261 s t := by
  injection h with h
  subst h
  have h := Only.refl 261 s
  exact (donorRecovery_only h rfl)

theorem execDonorOverloadDetect_only {x0 : Nat} {s : State} {t : State} (h : execDonorOverloadDetect x0 s = .next t) : Only 260 s t := by
  injection h with h
  subst h
  have h := Only.refl 260 s
  exact (donorOverloadDetect_only h rfl)

theorem execGsSetGain_only {x0 : HostRequest} {s : State} {t : State} (h : execGsSetGain x0 s = .next t) : Only 65990 s t := by
  injection h with h
  subst h
  have h := Only.refl 65990 s
  exact (submit_only specGsSetGain_only h rfl rfl rfl)

theorem execGsMute_only {x0 : HostRequest} {s : State} {t : State} (h : execGsMute x0 s = .next t) : Only 65990 s t := by
  injection h with h
  subst h
  have h := Only.refl 65990 s
  exact (submit_only specGsMute_only h rfl rfl rfl)

theorem execNpBackoffSet_only {x0 : HostRequest} {s : State} {t : State} (h : execNpBackoffSet x0 s = .next t) : Only 65990 s t := by
  injection h with h
  subst h
  have h := Only.refl 65990 s
  exact (submit_only specNpBackoffSet_only h rfl rfl rfl)

theorem execNpPolicy_only {x0 : HostRequest} {s : State} {t : State} (h : execNpPolicy x0 s = .next t) : Only 65990 s t := by
  injection h with h
  subst h
  have h := Only.refl 65990 s
  exact (submit_only specNpPolicy_only h rfl rfl rfl)

theorem execUlGateConfig_only {x0 : HostRequest} {s : State} {t : State} (h : execUlGateConfig x0 s = .next t) : Only 65794 s t := by
  injection h with h
  subst h
  have h := Only.refl 65794 s
  exact (submit_only specUlGateConfig_only h rfl rfl rfl)

theorem execUlNoiseConfig_only {x0 : HostRequest} {s : State} {t : State} (h : execUlNoiseConfig x0 s = .next t) : Only 65990 s t := by
  injection h with h
  subst h
  have h := Only.refl 65990 s
  exact (submit_only specUlNoiseConfig_only h rfl rfl rfl)

theorem execNpDonorConfig_only {x0 : HostRequest} {s : State} {t : State} (h : execNpDonorConfig x0 s = .next t) : Only 65798 s t := by
  injection h with h
  subst h
  have h := Only.refl 65798 s
  exact (submit_only specNpDonorConfig_only h rfl rfl rfl)

theorem execNpOutputConfig_only {x0 : HostRequest} {s : State} {t : State} (h : execNpOutputConfig x0 s = .next t) : Only 65990 s t := by
  injection h with h
  subst h
  have h := Only.refl 65990 s
  exact (submit_only specNpOutputConfig_only h rfl rfl rfl)

theorem execAttenDeferredApply_only {x0 : Nat} {s : State} {t : State} (h : execAttenDeferredApply x0 s = .next t) : Only 97 s t := by
  injection h with h
  subst h
  have h := Only.refl 97 s
  exact (attenDeferredApply_only h rfl)

theorem execSynthLock_only {x0 : Nat} {x1 : Nat} {s : State} {t : State} (h : execSynthLock x0 x1 s = .next t) : Only 487 s t := by
  injection h with h
  subst h
  have h := Only.refl 487 s
  exact (synthLock_only h rfl)

theorem execSynthUnlock_only {x0 : Nat} {s : State} {t : State} (h : execSynthUnlock x0 s = .next t) : Only 484 s t := by
  injection h with h
  subst h
  have h := Only.refl 484 s
  exact (synthUnlock_only h rfl)

theorem execChainActivate_only {x0 : Nat} {s : State} {t : State} (h : execChainActivate x0 s = .next t) : Only 487 s t := by
  injection h with h
  subst h
  have h := Only.refl 487 s
  exact (chainActivate_only h rfl)

theorem execLockTimeout_only {x0 : Nat} {s : State} {t : State} (h : execLockTimeout x0 s = .next t) : Only 487 s t := by
  injection h with h
  subst h
  have h := Only.refl 487 s
  exact (lockTimeout_only h rfl)

theorem execRelockTimeout_only {x0 : Nat} {s : State} {t : State} (h : execRelockTimeout x0 s = .next t) : Only 37 s t := by
  injection h with h
  subst h
  have h := Only.refl 37 s
  exact (relockTimeout_only h rfl)

theorem execCalEvaluation_only {s : State} {t : State} (h : execCalEvaluation s = .next t) : Only 485 s t := by
  injection h with h
  subst h
  have h := Only.refl 485 s
  exact (calEvaluation_only h rfl)

theorem execCalibrationStart_only {x0 : Nat} {s : State} {t : State} (h : execCalibrationStart x0 s = .next t) : Only 485 s t := by
  injection h with h
  subst h
  have h := Only.refl 485 s
  exact (calibrationStart_only h rfl)

theorem execCalibrationComplete_only {x0 : Nat} {x1 : Nat} {x2 : Bool} {x3 : ℤ} {x4 : FrontResult} {s : State} {t : State} (h : execCalibrationComplete x0 x1 x2 x3 x4 s = .next t) : Only 495 s t := by
  injection h with h
  subst h
  have h := Only.refl 495 s
  exact (calibrationComplete_only h rfl)

theorem execGrantStart_only {x0 : Nat} {s : State} {t : State} (h : execGrantStart x0 s = .next t) : Only 33 s t := by
  injection h with h
  subst h
  have h := Only.refl 33 s
  exact (grantStart_only h rfl)

theorem execConverterSelfCheckFail_only {x0 : Nat} {s : State} {t : State} (h : execConverterSelfCheckFail x0 s = .next t) : Only 68 s t := by
  injection h with h
  subst h
  have h := Only.refl 68 s
  exact (converterSelfCheckFail_only h rfl)

theorem execRfChainConfig_only {x0 : HostRequest} {s : State} {t : State} (h : execRfChainConfig x0 s = .next t) : Only 66022 s t := by
  injection h with h
  subst h
  have h := Only.refl 66022 s
  exact (submit_only specRfChainConfig_only h rfl rfl rfl)

theorem execRfTxEnable_only {x0 : HostRequest} {s : State} {t : State} (h : execRfTxEnable x0 s = .next t) : Only 66022 s t := by
  injection h with h
  subst h
  have h := Only.refl 66022 s
  exact (submit_only specRfTxEnable_only h rfl rfl rfl)

theorem execRfRxAtten_only {x0 : HostRequest} {s : State} {t : State} (h : execRfRxAtten x0 s = .next t) : Only 65634 s t := by
  injection h with h
  subst h
  have h := Only.refl 65634 s
  exact (submit_only specRfRxAtten_only h rfl rfl rfl)

theorem execRfCalRun_only {x0 : HostRequest} {s : State} {t : State} (h : execRfCalRun x0 s = .next t) : Only 65570 s t := by
  injection h with h
  subst h
  have h := Only.refl 65570 s
  exact (submit_only specRfCalRun_only h rfl rfl rfl)

theorem execRfCalGrant_only {x0 : HostRequest} {s : State} {t : State} (h : execRfCalGrant x0 s = .next t) : Only 65571 s t := by
  injection h with h
  subst h
  have h := Only.refl 65571 s
  exact (submit_only specRfCalGrant_only h rfl rfl rfl)

theorem execRfPolicy_only {x0 : HostRequest} {s : State} {t : State} (h : execRfPolicy x0 s = .next t) : Only 65570 s t := by
  injection h with h
  subst h
  have h := Only.refl 65570 s
  exact (submit_only specRfPolicy_only h rfl rfl rfl)

theorem execRfObsMap_only {x0 : HostRequest} {s : State} {t : State} (h : execRfObsMap x0 s = .next t) : Only 65570 s t := by
  injection h with h
  subst h
  have h := Only.refl 65570 s
  exact (submit_only specRfObsMap_only h rfl rfl rfl)

theorem execGainRampEnd_only {x0 : Nat} {s : State} {t : State} (h : execGainRampEnd x0 s = .next t) : Only 511 s t := by
  injection h with h
  subst h
  have h := Only.refl 511 s
  exact (gainRampEnd_only h rfl)

theorem execFadeOutEnd_only {x0 : Dir} {x1 : Nat} {s : State} {t : State} (h : execFadeOutEnd x0 x1 s = .next t) : Only 485 s t := by
  injection h with h
  subst h
  have h := Only.refl 485 s
  exact (fadeOutEnd_only h rfl)

theorem execSettleZerosEnd_only {x0 : Dir} {x1 : Nat} {s : State} {t : State} (h : execSettleZerosEnd x0 x1 s = .next t) : Only 455 s t := by
  injection h with h
  subst h
  have h := Only.refl 455 s
  exact (settleZerosEnd_only h rfl)

theorem execFadeInEnd_only {x0 : Nat} {s : State} {t : State} (h : execFadeInEnd x0 s = .next t) : Only 455 s t := by
  injection h with h
  subst h
  have h := Only.refl 455 s
  exact (fadeInEnd_only h rfl)

theorem execPathSettleTimeout_only {x0 : Dir} {x1 : Nat} {s : State} {t : State} (h : execPathSettleTimeout x0 x1 s = .next t) : Only 5 s t := by
  injection h with h
  subst h
  have h := Only.refl 5 s
  exact (pathSettleTimeout_only h rfl)

theorem execAlignmentApply_only {s : State} {t : State} (h : execAlignmentApply s = .next t) : Only 453 s t := by
  injection h with h
  subst h
  have h := Only.refl 453 s
  exact (alignmentApply_only h rfl)

theorem execSyncAlignEdge_only {x0 : Bool} {s : State} {t : State} (h : execSyncAlignEdge x0 s = .next t) : Only 64 s t := by
  injection h with h
  subst h
  have h := Only.refl 64 s
  exact (syncAlignEdge_only h rfl)

theorem execSyncAlignPulseEnd_only {s : State} {t : State} (h : execSyncAlignPulseEnd s = .next t) : Only 65 s t := by
  injection h with h
  subst h
  have h := Only.refl 65 s
  exact (syncAlignPulseEnd_only h rfl)

theorem execAlignLossDetect_only {x0 : Dir} {x1 : Nat} {s : State} {t : State} (h : execAlignLossDetect x0 x1 s = .next t) : Only 68 s t := by
  injection h with h
  subst h
  have h := Only.refl 68 s
  exact (alignLossDetect_only h rfl)

theorem execDetectorWindowEnd_only {x0 : Dir} {x1 : Nat} {x2 : List Nat} {x3 : List (List Cx)} {x4 : List (List Nat)} {s : State} {t : State} (h : execDetectorWindowEnd x0 x1 x2 x3 x4 s = .next t) : Only 422341 s t := by
  injection h with h
  subst h
  have h := Only.refl 422341 s
  exact (detectorWindowEnd_only h rfl)

theorem execDetectorSelfCheckFail_only {x0 : Dir} {x1 : Nat} {s : State} {t : State} (h : execDetectorSelfCheckFail x0 x1 s = .next t) : Only 68 s t := by
  injection h with h
  subst h
  have h := Only.refl 68 s
  exact (detectorSelfCheckFail_only h rfl)

theorem execFlowBlockArrival_only {x0 : Nat} {x1 : Nat} {x2 : Nat} {x3 : Block} {s : State} {t : State} (h : execFlowBlockArrival x0 x1 x2 x3 s = .next t) : Only 16836 s t := by
  injection h with h
  subst h
  have h := Only.refl 16836 s
  exact (Only.ite (flowBlockArrival_only h rfl) h)

theorem execDpdUpdateApply_only {x0 : Nat} {s : State} {t : State} (h : execDpdUpdateApply x0 s = .next t) : Only 65 s t := by
  injection h with h
  subst h
  have h := Only.refl 65 s
  exact (dpdUpdateApply_only h rfl)

theorem execDpdUpdateRevert_only {x0 : Nat} {s : State} {t : State} (h : execDpdUpdateRevert x0 s = .next t) : Only 69 s t := by
  injection h with h
  subst h
  have h := Only.refl 69 s
  exact (dpdUpdateRevert_only h rfl)

theorem execDpdSetSwitch_only {x0 : Nat} {s : State} {t : State} (h : execDpdSetSwitch x0 s = .next t) : Only 65 s t := by
  injection h with h
  subst h
  have h := Only.refl 65 s
  exact (dpdSetSwitch_only h rfl)

theorem execBpConfig_only {x0 : HostRequest} {s : State} {t : State} (h : execBpConfig x0 s = .next t) : Only 65990 s t := by
  injection h with h
  subst h
  have h := Only.refl 65990 s
  exact (submit_only specBpConfig_only h rfl rfl rfl)

theorem execBpRelease_only {x0 : HostRequest} {s : State} {t : State} (h : execBpRelease x0 s = .next t) : Only 65990 s t := by
  injection h with h
  subst h
  have h := Only.refl 65990 s
  exact (submit_only specBpRelease_only h rfl rfl rfl)

theorem execBpDetector_only {x0 : HostRequest} {s : State} {t : State} (h : execBpDetector x0 s = .next t) : Only 65602 s t := by
  injection h with h
  subst h
  have h := Only.refl 65602 s
  exact (submit_only specBpDetector_only h rfl rfl rfl)

theorem execBpAlign_only {x0 : HostRequest} {s : State} {t : State} (h : execBpAlign x0 s = .next t) : Only 65602 s t := by
  injection h with h
  subst h
  have h := Only.refl 65602 s
  exact (submit_only specBpAlign_only h rfl rfl rfl)

theorem execBpSyncPin_only {x0 : HostRequest} {s : State} {t : State} (h : execBpSyncPin x0 s = .next t) : Only 65602 s t := by
  injection h with h
  subst h
  have h := Only.refl 65602 s
  exact (submit_only specBpSyncPin_only h rfl rfl rfl)

theorem execDpdConfig_only {x0 : HostRequest} {s : State} {t : State} (h : execDpdConfig x0 s = .next t) : Only 67014 s t := by
  injection h with h
  subst h
  have h := Only.refl 67014 s
  exact (submit_only specDpdConfig_only h rfl rfl rfl)

theorem execDpdControl_only {x0 : HostRequest} {s : State} {t : State} (h : execDpdControl x0 s = .next t) : Only 65990 s t := by
  injection h with h
  subst h
  have h := Only.refl 65990 s
  exact (submit_only specDpdControl_only h rfl rfl rfl)

theorem execPilotPeriodEnd_only {x0 : Nat} {x1 : PilotInput} {s : State} {t : State} (h : execPilotPeriodEnd x0 x1 s = .next t) : Only 422349 s t := by
  injection h with h
  subst h
  have h := Only.refl 422349 s
  exact (pilotPeriodEnd_only h rfl)

theorem execLadderStep_only {x0 : Nat} {s : State} {t : State} (h : execLadderStep x0 s = .next t) : Only 453 s t := by
  injection h with h
  subst h
  have h := Only.refl 453 s
  exact (ladderStep_only h rfl)

theorem execLineDetectorFrame_only {x0 : Dir} {x1 : Nat} {x2 : List RawBlock} {s : State} {t : State} (h : execLineDetectorFrame x0 x1 x2 s = .next t) : Only 422349 s t := by
  injection h with h
  subst h
  have h := Only.refl 422349 s
  exact (lineDetectorFrame_only h rfl)

theorem execHoldoffEnd_only {x0 : Dir} {x1 : Nat} {s : State} {t : State} (h : execHoldoffEnd x0 x1 s = .next t) : Only 453 s t := by
  injection h with h
  subst h
  have h := Only.refl 453 s
  exact (holdoffEnd_only h rfl)

theorem execReacquireFitComplete_only {x0 : Nat} {s : State} {t : State} (h : execReacquireFitComplete x0 s = .next t) : Only 452 s t := by
  injection h with h
  subst h
  have h := Only.refl 452 s
  exact (reacquireFitComplete_only h rfl)

theorem execCancellerSnapshotRestore_only {x0 : Nat} {s : State} {t : State} (h : execCancellerSnapshotRestore x0 s = .next t) : Only 453 s t := by
  injection h with h
  subst h
  have h := Only.refl 453 s
  exact (cancellerSnapshotRestore_only h rfl)

theorem execMarginCapReceive_only {x0 : MarginCap} {s : State} {t : State} (h : execMarginCapReceive x0 s = .next t) : Only 128 s t := by
  injection h with h
  subst h
  have h := Only.refl 128 s
  exact (marginCapReceive_only h rfl)

theorem execMarginCapApply_only {x0 : Nat} {s : State} {t : State} (h : execMarginCapApply x0 s = .next t) : Only 453 s t := by
  injection h with h
  subst h
  have h := Only.refl 453 s
  exact (marginCapApply_only h rfl)

theorem execMarginLowTimeout_only {x0 : Nat} {s : State} {t : State} (h : execMarginLowTimeout x0 s = .next t) : Only 5 s t := by
  injection h with h
  subst h
  have h := Only.refl 5 s
  exact (marginLowTimeout_only h rfl)

theorem execBeaconLossTimeout_only {x0 : Nat} {s : State} {t : State} (h : execBeaconLossTimeout x0 s = .next t) : Only 5 s t := by
  injection h with h
  subst h
  have h := Only.refl 5 s
  exact (beaconLossTimeout_only h rfl)

theorem execAdmitReqReceive_only {x0 : Nat} {s : State} {t : State} (h : execAdmitReqReceive x0 s = .next t) : Only 274432 s t := by
  injection h with h
  subst h
  have h := Only.refl 274432 s
  exact (admitReqReceive_only h rfl)

theorem execAdmitGrantReceive_only {x0 : Nat} {s : State} {t : State} (h : execAdmitGrantReceive x0 s = .next t) : Only 128 s t := by
  injection h with h
  subst h
  have h := Only.refl 128 s
  exact (admitGrantReceive_only h rfl)

theorem execLgLoopConfig_only {x0 : HostRequest} {s : State} {t : State} (h : execLgLoopConfig x0 s = .next t) : Only 65666 s t := by
  injection h with h
  subst h
  have h := Only.refl 65666 s
  exact (submit_only specLgLoopConfig_only h rfl rfl rfl)

theorem execLgBeaconConfig_only {x0 : HostRequest} {s : State} {t : State} (h : execLgBeaconConfig x0 s = .next t) : Only 65666 s t := by
  injection h with h
  subst h
  have h := Only.refl 65666 s
  exact (submit_only specLgBeaconConfig_only h rfl rfl rfl)

theorem execLgCancelConfig_only {x0 : HostRequest} {s : State} {t : State} (h : execLgCancelConfig x0 s = .next t) : Only 65666 s t := by
  injection h with h
  subst h
  have h := Only.refl 65666 s
  exact (submit_only specLgCancelConfig_only h rfl rfl rfl)

theorem execLgCancelControl_only {x0 : HostRequest} {s : State} {t : State} (h : execLgCancelControl x0 s = .next t) : Only 65666 s t := by
  injection h with h
  subst h
  have h := Only.refl 65666 s
  exact (submit_only specLgCancelControl_only h rfl rfl rfl)

theorem execLgSearchConfig_only {x0 : HostRequest} {s : State} {t : State} (h : execLgSearchConfig x0 s = .next t) : Only 65666 s t := by
  injection h with h
  subst h
  have h := Only.refl 65666 s
  exact (submit_only specLgSearchConfig_only h rfl rfl rfl)

theorem execLgPolicy_only {x0 : HostRequest} {s : State} {t : State} (h : execLgPolicy x0 s = .next t) : Only 65666 s t := by
  injection h with h
  subst h
  have h := Only.refl 65666 s
  exact (submit_only specLgPolicy_only h rfl rfl rfl)

theorem execSlotIteration_only {x0 : Nat} {x1 : IterInput} {s : State} {t : State} (h : execSlotIteration x0 x1 s = .next t) : Only 1517 s t := by
  injection h with h
  subst h
  have h := Only.refl 1517 s
  exact (slotIteration_only h rfl)

theorem execIterationOverrun_only {x0 : Nat} {s : State} {t : State} (h : execIterationOverrun x0 s = .next t) : Only 1029 s t := by
  injection h with h
  subst h
  have h := Only.refl 1029 s
  exact (iterationOverrun_only h rfl)

theorem execOverrunHoldEnd_only {x0 : Nat} {s : State} {t : State} (h : execOverrunHoldEnd x0 s = .next t) : Only 1028 s t := by
  injection h with h
  subst h
  have h := Only.refl 1028 s
  exact (overrunHoldEnd_only h rfl)

theorem execLoopSaturatedTimeout_only {x0 : Nat} {s : State} {t : State} (h : execLoopSaturatedTimeout x0 s = .next t) : Only 5 s t := by
  injection h with h
  subst h
  have h := Only.refl 5 s
  exact (loopSaturatedTimeout_only h rfl)

theorem execInjectionStart_only {x0 : Nat} {s : State} {t : State} (h : execInjectionStart x0 s = .next t) : Only 1025 s t := by
  injection h with h
  subst h
  have h := Only.refl 1025 s
  exact (injectionStart_only h rfl)

theorem execInjectionEnd_only {x0 : Nat} {s : State} {t : State} (h : execInjectionEnd x0 s = .next t) : Only 1026 s t := by
  injection h with h
  subst h
  have h := Only.refl 1026 s
  exact (injectionEnd_only h rfl)

theorem execRepBinBoundary_only {x0 : Nat} {s : State} {t : State} (h : execRepBinBoundary x0 s = .next t) : Only 1477 s t := by
  injection h with h
  subst h
  have h := Only.refl 1477 s
  exact (repBinBoundary_only h rfl)

theorem execRepTableClear_only {x0 : Nat} {s : State} {t : State} (h : execRepTableClear x0 s = .next t) : Only 1477 s t := by
  injection h with h
  subst h
  have h := Only.refl 1477 s
  exact (repTableClear_only h rfl)

theorem execClSlotConfig_only {x0 : HostRequest} {s : State} {t : State} (h : execClSlotConfig x0 s = .next t) : Only 66630 s t := by
  injection h with h
  subst h
  have h := Only.refl 66630 s
  exact (submit_only specClSlotConfig_only h rfl rfl rfl)

theorem execClBankWrite_only {x0 : HostRequest} {s : State} {t : State} (h : execClBankWrite x0 s = .next t) : Only 66562 s t := by
  injection h with h
  subst h
  have h := Only.refl 66562 s
  exact (submit_only specClBankWrite_only h rfl rfl rfl)

theorem execClBankSwap_only {x0 : HostRequest} {s : State} {t : State} (h : execClBankSwap x0 s = .next t) : Only 66562 s t := by
  injection h with h
  subst h
  have h := Only.refl 66562 s
  exact (submit_only specClBankSwap_only h rfl rfl rfl)

theorem execClSetpoint_only {x0 : HostRequest} {s : State} {t : State} (h : execClSetpoint x0 s = .next t) : Only 66562 s t := by
  injection h with h
  subst h
  have h := Only.refl 66562 s
  exact (submit_only specClSetpoint_only h rfl rfl rfl)

theorem execClSlotControl_only {x0 : HostRequest} {s : State} {t : State} (h : execClSlotControl x0 s = .next t) : Only 66566 s t := by
  injection h with h
  subst h
  have h := Only.refl 66566 s
  exact (submit_only specClSlotControl_only h rfl rfl rfl)

theorem execClRepConfig_only {x0 : HostRequest} {s : State} {t : State} (h : execClRepConfig x0 s = .next t) : Only 66562 s t := by
  injection h with h
  subst h
  have h := Only.refl 66562 s
  exact (submit_only specClRepConfig_only h rfl rfl rfl)

theorem execClInject_only {x0 : HostRequest} {s : State} {t : State} (h : execClInject x0 s = .next t) : Only 66562 s t := by
  injection h with h
  subst h
  have h := Only.refl 66562 s
  exact (submit_only specClInject_only h rfl rfl rfl)

theorem execClTraceConfig_only {x0 : HostRequest} {s : State} {t : State} (h : execClTraceConfig x0 s = .next t) : Only 66562 s t := by
  injection h with h
  subst h
  have h := Only.refl 66562 s
  exact (submit_only specClTraceConfig_only h rfl rfl rfl)

theorem execClTraceRead_only {x0 : HostRequest} {s : State} {t : State} (h : execClTraceRead x0 s = .next t) : Only 65538 s t := by
  injection h with h
  subst h
  have h := Only.refl 65538 s
  exact (submit_only specClTraceRead_only h rfl rfl rfl)

theorem execClPolicy_only {x0 : HostRequest} {s : State} {t : State} (h : execClPolicy x0 s = .next t) : Only 66562 s t := by
  injection h with h
  subst h
  have h := Only.refl 66562 s
  exact (submit_only specClPolicy_only h rfl rfl rfl)

theorem execHkSlotEnd_only {x0 : HkSlotInput} {s : State} {t : State} (h : execHkSlotEnd x0 s = .next t) : Only 517 s t := by
  injection h with h
  subst h
  have h := Only.refl 517 s
  exact (hkSlotEnd_only h rfl)

theorem execUrgentSlotEnd_only {x0 : HkSlotInput} {s : State} {t : State} (h : execUrgentSlotEnd x0 s = .next t) : Only 35331 s t := by
  injection h with h
  subst h
  have h := Only.refl 35331 s
  exact (urgentSlotEnd_only h rfl)

theorem execCalPointComplete_only {x0 : Bool} {s : State} {t : State} (h : execCalPointComplete x0 s = .next t) : Only 514 s t := by
  injection h with h
  subst h
  have h := Only.refl 514 s
  exact (calPointComplete_only h rfl)

theorem execChannelRecordLatch_only {x0 : Nat} {s : State} {t : State} (h : execChannelRecordLatch x0 s = .next t) : Only 2 s t := by
  injection h with h
  subst h
  have h := Only.refl 2 s
  exact (channelRecordLatch_only h rfl)

theorem execClockMonitorCheck_only {x0 : List Nat} {s : State} {t : State} (h : execClockMonitorCheck x0 s = .next t) : Only 516 s t := by
  injection h with h
  subst h
  have h := Only.refl 516 s
  exact (clockMonitorCheck_only h rfl)

theorem execHkSlotMap_only {x0 : HostRequest} {s : State} {t : State} (h : execHkSlotMap x0 s = .next t) : Only 66050 s t := by
  injection h with h
  subst h
  have h := Only.refl 66050 s
  exact (submit_only specHkSlotMap_only h rfl rfl rfl)

theorem execHkUrgent_only {x0 : HostRequest} {s : State} {t : State} (h : execHkUrgent x0 s = .next t) : Only 66050 s t := by
  injection h with h
  subst h
  have h := Only.refl 66050 s
  exact (submit_only specHkUrgent_only h rfl rfl rfl)

theorem execHkCalPoint_only {x0 : HostRequest} {s : State} {t : State} (h : execHkCalPoint x0 s = .next t) : Only 66050 s t := by
  injection h with h
  subst h
  have h := Only.refl 66050 s
  exact (submit_only specHkCalPoint_only h rfl rfl rfl)

theorem execHkTestDac_only {x0 : HostRequest} {s : State} {t : State} (h : execHkTestDac x0 s = .next t) : Only 66050 s t := by
  injection h with h
  subst h
  have h := Only.refl 66050 s
  exact (submit_only specHkTestDac_only h rfl rfl rfl)

theorem execHkSupplyWindow_only {x0 : HostRequest} {s : State} {t : State} (h : execHkSupplyWindow x0 s = .next t) : Only 66050 s t := by
  injection h with h
  subst h
  have h := Only.refl 66050 s
  exact (submit_only specHkSupplyWindow_only h rfl rfl rfl)

theorem execHkThermalPolicy_only {x0 : HostRequest} {s : State} {t : State} (h : execHkThermalPolicy x0 s = .next t) : Only 66050 s t := by
  injection h with h
  subst h
  have h := Only.refl 66050 s
  exact (submit_only specHkThermalPolicy_only h rfl rfl rfl)

theorem execDrainRampEnd_only {x0 : Nat} {x1 : ℤ} {s : State} {t : State} (h : execDrainRampEnd x0 x1 s = .next t) : Only 2055 s t := by
  injection h with h
  subst h
  have h := Only.refl 2055 s
  exact (drainRampEnd_only h rfl)

theorem execDrainingComplete_only {x0 : Nat} {x1 : Nat} {s : State} {t : State} (h : execDrainingComplete x0 x1 s = .next t) : Only 2527 s t := by
  injection h with h
  subst h
  have h := Only.refl 2527 s
  exact (drainingComplete_only h rfl)

theorem execPaEnableQualTimeout_only {x0 : Nat} {s : State} {t : State} (h : execPaEnableQualTimeout x0 s = .next t) : Only 2051 s t := by
  injection h with h
  subst h
  have h := Only.refl 2051 s
  exact (paEnableQualTimeout_only h rfl)

theorem execHvLinkTimeout_only {s : State} {t : State} (h : execHvLinkTimeout s = .next t) : Only 2054 s t := by
  injection h with h
  subst h
  have h := Only.refl 2054 s
  exact (hvLinkTimeout_only h rfl)

theorem execGateOnEdge_only {x0 : Nat} {s : State} {t : State} (h : execGateOnEdge x0 s = .next t) : Only 2049 s t := by
  injection h with h
  subst h
  have h := Only.refl 2049 s
  exact (gateOnEdge_only h rfl)

theorem execGateOffEdge_only {x0 : Nat} {s : State} {t : State} (h : execGateOffEdge x0 s = .next t) : Only 2049 s t := by
  injection h with h
  subst h
  have h := Only.refl 2049 s
  exact (gateOffEdge_only h rfl)

theorem execComparatorTrip_only {x0 : CmpSample} {s : State} {t : State} (h : execComparatorTrip x0 s = .next t) : Only 2566 s t := by
  injection h with h
  subst h
  have h := Only.refl 2566 s
  exact (comparatorTrip_only h rfl)

theorem execComparatorTripClear_only {x0 : CmpSample} {s : State} {t : State} (h : execComparatorTripClear x0 s = .next t) : Only 2052 s t := by
  injection h with h
  subst h
  have h := Only.refl 2052 s
  exact (comparatorTripClear_only h rfl)

theorem execTOffMinExpiry_only {x0 : Nat} {s : State} {t : State} (h : execTOffMinExpiry x0 s = .next t) : Only 1 s t := by
  injection h with h
  subst h
  have h := Only.refl 1 s
  exact (tOffMinExpiry_only h rfl)

theorem execComparatorQualify_only {x0 : CmpSample} {s : State} {t : State} (h : execComparatorQualify x0 s = .next t) : Only 2048 s t := by
  injection h with h
  subst h
  have h := Only.refl 2048 s
  exact (comparatorQualify_only h rfl)

theorem execTripHoldExpiry_only {x0 : Nat} {s : State} {t : State} (h : execTripHoldExpiry x0 s = .next t) : Only 2053 s t := by
  injection h with h
  subst h
  have h := Only.refl 2053 s
  exact (tripHoldExpiry_only h rfl)

theorem execCassetteIdentify_only {x0 : Nat} {x1 : IdentInput} {s : State} {t : State} (h : execCassetteIdentify x0 x1 s = .next t) : Only 264654 s t := by
  injection h with h
  subst h
  have h := Only.refl 264654 s
  exact (cassetteIdentify_only h rfl)

theorem execCassetteIdPoll_only {x0 : Nat} {x1 : Option Nat} {s : State} {t : State} (h : execCassetteIdPoll x0 x1 s = .next t) : Only 2502 s t := by
  injection h with h
  subst h
  have h := Only.refl 2502 s
  exact (cassetteIdPoll_only h rfl)

theorem execStressMinute_only {s : State} {t : State} (h : execStressMinute s = .next t) : Only 2063 s t := by
  injection h with h
  subst h
  have h := Only.refl 2063 s
  exact (stressMinute_only h rfl)

theorem execLifeRecordWrite_only {s : State} {t : State} (h : execLifeRecordWrite s = .next t) : Only 2049 s t := by
  injection h with h
  subst h
  have h := Only.refl 2049 s
  exact (lifeRecordWrite_only h rfl)

theorem execBiasCalComplete_only {x0 : Nat} {x1 : BiasInput} {s : State} {t : State} (h : execBiasCalComplete x0 x1 s = .next t) : Only 2054 s t := by
  injection h with h
  subst h
  have h := Only.refl 2054 s
  exact (biasCalComplete_only h rfl)

theorem execPaConfig_only {x0 : HostRequest} {s : State} {t : State} (h : execPaConfig x0 s = .next t) : Only 67586 s t := by
  injection h with h
  subst h
  have h := Only.refl 67586 s
  exact (submit_only specPaConfig_only h rfl rfl rfl)

theorem execPaTiming_only {x0 : HostRequest} {s : State} {t : State} (h : execPaTiming x0 s = .next t) : Only 67586 s t := by
  injection h with h
  subst h
  have h := Only.refl 67586 s
  exact (submit_only specPaTiming_only h rfl rfl rfl)

theorem execPaBiasTable_only {x0 : HostRequest} {s : State} {t : State} (h : execPaBiasTable x0 s = .next t) : Only 67586 s t := by
  injection h with h
  subst h
  have h := Only.refl 67586 s
  exact (submit_only specPaBiasTable_only h rfl rfl rfl)

theorem execCmpConfig_only {x0 : HostRequest} {s : State} {t : State} (h : execCmpConfig x0 s = .next t) : Only 67586 s t := by
  injection h with h
  subst h
  have h := Only.refl 67586 s
  exact (submit_only specCmpConfig_only h rfl rfl rfl)

theorem execCmpMode_only {x0 : HostRequest} {s : State} {t : State} (h : execCmpMode x0 s = .next t) : Only 67586 s t := by
  injection h with h
  subst h
  have h := Only.refl 67586 s
  exact (submit_only specCmpMode_only h rfl rfl rfl)

theorem execPaEnable_only {x0 : HostRequest} {s : State} {t : State} (h : execPaEnable x0 s = .next t) : Only 67586 s t := by
  injection h with h
  subst h
  have h := Only.refl 67586 s
  exact (submit_only specPaEnable_only h rfl rfl rfl)

theorem execPaBiasCal_only {x0 : HostRequest} {s : State} {t : State} (h : execPaBiasCal x0 s = .next t) : Only 67586 s t := by
  injection h with h
  subst h
  have h := Only.refl 67586 s
  exact (submit_only specPaBiasCal_only h rfl rfl rfl)

theorem execCasPolicy_only {x0 : HostRequest} {s : State} {t : State} (h : execCasPolicy x0 s = .next t) : Only 67586 s t := by
  injection h with h
  subst h
  have h := Only.refl 67586 s
  exact (submit_only specCasPolicy_only h rfl rfl rfl)

theorem execCasIdentityRead_only {x0 : HostRequest} {s : State} {t : State} (h : execCasIdentityRead x0 s = .next t) : Only 65538 s t := by
  injection h with h
  subst h
  have h := Only.refl 65538 s
  exact (submit_only specCasIdentityRead_only h rfl rfl rfl)

theorem execDonorDetection_only {x0 : DonorInput} {s : State} {t : State} (h : execDonorDetection x0 s = .next t) : Only 1 s t := by
  injection h with h
  subst h
  have h := Only.refl 1 s
  exact (donorDetection_only h rfl)

theorem execDonorSyncTimeout_only {s : State} {t : State} (h : execDonorSyncTimeout s = .next t) : Only 1 s t := by
  injection h with h
  subst h
  have h := Only.refl 1 s
  exact (donorSyncTimeout_only h rfl)

theorem execPtpSyncRx_only {x0 : PtpInput} {s : State} {t : State} (h : execPtpSyncRx x0 s = .next t) : Only 9 s t := by
  injection h with h
  subst h
  have h := Only.refl 9 s
  exact (ptpSyncRx_only h rfl)

theorem execPtpSyncTimeout_only {s : State} {t : State} (h : execPtpSyncTimeout s = .next t) : Only 1 s t := by
  injection h with h
  subst h
  have h := Only.refl 1 s
  exact (ptpSyncTimeout_only h rfl)

theorem execPpsInEdge_only {x0 : Nat} {s : State} {t : State} (h : execPpsInEdge x0 s = .next t) : Only 1 s t := by
  injection h with h
  subst h
  have h := Only.refl 1 s
  exact (ppsInEdge_only h rfl)

theorem execPpsInMissing_only {s : State} {t : State} (h : execPpsInMissing s = .next t) : Only 1 s t := by
  injection h with h
  subst h
  have h := Only.refl 1 s
  exact (ppsInMissing_only h rfl)

theorem execSourceRetryTimer_only {x0 : Nat} {s : State} {t : State} (h : execSourceRetryTimer x0 s = .next t) : Only 1 s t := by
  injection h with h
  subst h
  have h := Only.refl 1 s
  exact (sourceRetry_only h rfl)

theorem execRevertHoldExpiry_only {s : State} {t : State} (h : execRevertHoldExpiry s = .next t) : Only 1 s t := by
  injection h with h
  subst h
  have h := Only.refl 1 s
  exact (revertHoldExpiry_only h rfl)

theorem execAtLocked_only {s : State} {t : State} (h : execAtLocked s = .next t) : Only 5 s t := by
  injection h with h
  subst h
  have h := Only.refl 5 s
  exact (atLocked_only h rfl)

theorem execTimeErrLimitExceeded_only {s : State} {t : State} (h : execTimeErrLimitExceeded s = .next t) : Only 5 s t := by
  injection h with h
  subst h
  have h := Only.refl 5 s
  exact (timeErrLimitExceeded_only h rfl)

theorem execRefInQualify_only {x0 : ℤ} {s : State} {t : State} (h : execRefInQualify x0 s = .next t) : Only 1 s t := by
  injection h with h
  subst h
  have h := Only.refl 1 s
  exact (refInQualify_only h rfl)

theorem execRefInLoss_only {x0 : Bool} {s : State} {t : State} (h : execRefInLoss x0 s = .next t) : Only 1 s t := by
  injection h with h
  subst h
  have h := Only.refl 1 s
  exact (refInLoss_only h rfl)

theorem execPpsOutPulseEnd_only {s : State} {t : State} (h : execPpsOutPulseEnd s = .next t) : Only 1 s t := by
  injection h with h
  subst h
  have h := Only.refl 1 s
  exact (ppsOutPulseEnd_only h rfl)

theorem execTddVerifyWindowEnd_only {x0 : Nat} {x1 : Bool} {x2 : Nat} {s : State} {t : State} (h : execTddVerifyWindowEnd x0 x1 x2 s = .next t) : Only 3 s t := by
  injection h with h
  subst h
  have h := Only.refl 3 s
  exact (tddVerifyWindowEnd_only h rfl)

theorem execAtSourceConfig_only {x0 : HostRequest} {s : State} {t : State} (h : execAtSourceConfig x0 s = .next t) : Only 65539 s t := by
  injection h with h
  subst h
  have h := Only.refl 65539 s
  exact (submit_only specAtSourceConfig_only h rfl rfl rfl)

theorem execTddPatternSet_only {x0 : HostRequest} {s : State} {t : State} (h : execTddPatternSet x0 s = .next t) : Only 65539 s t := by
  injection h with h
  subst h
  have h := Only.refl 65539 s
  exact (submit_only specTddPatternSet_only h rfl rfl rfl)

theorem execWallTimeSet_only {x0 : HostRequest} {s : State} {t : State} (h : execWallTimeSet x0 s = .next t) : Only 65547 s t := by
  injection h with h
  subst h
  have h := Only.refl 65547 s
  exact (submit_only specWallTimeSet_only h rfl rfl rfl)

theorem execFlockSourceTimeout_only {s : State} {t : State} (h : execFlockSourceTimeout s = .next t) : Only 4097 s t := by
  injection h with h
  subst h
  have h := Only.refl 4097 s
  exact (flockSourceTimeout_only h rfl)

theorem execTtReq_only {x0 : Nat} {x1 : Nat} {s : State} {t : State} (h : execTtReq x0 x1 s = .next t) : Only 266240 s t := by
  injection h with h
  subst h
  have h := Only.refl 266240 s
  exact (ttReq_only h rfl)

theorem execTtResp_only {x0 : Nat} {x1 : Nat} {x2 : Nat} {x3 : Nat} {x4 : ℤ} {s : State} {t : State} (h : execTtResp x0 x1 x2 x3 x4 s = .next t) : Only 4097 s t := by
  injection h with h
  subst h
  have h := Only.refl 4097 s
  exact (ttResp_only h rfl)

theorem execSignalDetect_only {x0 : Nat} {s : State} {t : State} (h : execSignalDetect x0 s = .next t) : Only 4096 s t := by
  injection h with h
  subst h
  have h := Only.refl 4096 s
  exact (signalDetect_only h rfl)

theorem execLaneUp_only {x0 : Nat} {x1 : Bool} {s : State} {t : State} (h : execLaneUp x0 x1 s = .next t) : Only 274436 s t := by
  injection h with h
  subst h
  have h := Only.refl 274436 s
  exact (laneUp_only h rfl)

theorem execLaneTrainTimeout_only {x0 : Nat} {s : State} {t : State} (h : execLaneTrainTimeout x0 s = .next t) : Only 4097 s t := by
  injection h with h
  subst h
  have h := Only.refl 4097 s
  exact (laneTrainTimeout_only h rfl)

theorem execLaneDown_only {x0 : Nat} {x1 : LaneLoss} {s : State} {t : State} (h : execLaneDown x0 x1 s = .next t) : Only 274437 s t := by
  injection h with h
  subst h
  have h := Only.refl 274437 s
  exact (laneDown_only h rfl)

theorem execRetrainBackoffExpiry_only {x0 : Nat} {s : State} {t : State} (h : execRetrainBackoffExpiry x0 s = .next t) : Only 4097 s t := by
  injection h with h
  subst h
  have h := Only.refl 4097 s
  exact (retrainBackoffExpiry_only h rfl)

theorem execLaneSerWarn_only {x0 : Nat} {s : State} {t : State} (h : execLaneSerWarn x0 s = .next t) : Only 4098 s t := by
  injection h with h
  subst h
  have h := Only.refl 4098 s
  exact (laneSerWarn_only h rfl)

theorem execLaneQualComplete_only {x0 : Nat} {s : State} {t : State} (h : execLaneQualComplete x0 s = .next t) : Only 12292 s t := by
  injection h with h
  subst h
  have h := Only.refl 12292 s
  exact (laneQualComplete_only h rfl)

theorem execLaneSet_only {x0 : Nat} {x1 : Nat} {x2 : Nat} {s : State} {t : State} (h : execLaneSet x0 x1 x2 s = .next t) : Only 12288 s t := by
  injection h with h
  subst h
  have h := Only.refl 12288 s
  exact (laneSet_only h rfl)

theorem execLaneSetApply_only {x0 : Nat} {s : State} {t : State} (h : execLaneSetApply x0 s = .next t) : Only 4097 s t := by
  injection h with h
  subst h
  have h := Only.refl 4097 s
  exact (laneSetApply_only h rfl)

theorem execPortTrainingStart_only {s : State} {t : State} (h : execPortTrainingStart s = .next t) : Only 4097 s t := by
  injection h with h
  subst h
  have h := Only.refl 4097 s
  exact (portTrainingStart_only h rfl)

theorem execHello_only {x0 : Nat} {x1 : Hello} {s : State} {t : State} (h : execHello x0 x1 s = .next t) : Only 266241 s t := by
  injection h with h
  subst h
  have h := Only.refl 266241 s
  exact (hello_only h rfl)

theorem execJoinReqSend_only {s : State} {t : State} (h : execJoinReqSend s = .next t) : Only 266240 s t := by
  injection h with h
  subst h
  have h := Only.refl 266240 s
  exact (joinReqSend_only h rfl)

theorem execJoinRespTimeout_only {s : State} {t : State} (h : execJoinRespTimeout s = .next t) : Only 266241 s t := by
  injection h with h
  subst h
  have h := Only.refl 266241 s
  exact (joinRespTimeout_only h rfl)

theorem execBackoffExpiry_only {s : State} {t : State} (h : execBackoffExpiry s = .next t) : Only 266241 s t := by
  injection h with h
  subst h
  have h := Only.refl 266241 s
  exact (backoffExpiry_only h rfl)

theorem execJoinResp_only {x0 : Nat} {x1 : FrameHeader} {x2 : JoinResp} {s : State} {t : State} (h : execJoinResp x0 x1 x2 s = .next t) : Only 266242 s t := by
  injection h with h
  subst h
  have h := Only.refl 266242 s
  exact (joinResp_only h rfl)

theorem execJoinReq_only {x0 : Nat} {x1 : FrameHeader} {x2 : JoinReq} {s : State} {t : State} (h : execJoinReq x0 x1 x2 s = .next t) : Only 274440 s t := by
  injection h with h
  subst h
  have h := Only.refl 274440 s
  exact (joinReq_only h rfl)

theorem execJoinAdmission_only {s : State} {t : State} (h : execJoinAdmission s = .next t) : Only 274887 s t := by
  injection h with h
  subst h
  have h := Only.refl 274887 s
  exact (joinAdmission_only h rfl)

theorem execLeave_only {x0 : Nat} {x1 : FrameHeader} {x2 : Nat} {x3 : Nat} {x4 : Nat} {s : State} {t : State} (h : execLeave x0 x1 x2 x3 x4 s = .next t) : Only 274432 s t := by
  injection h with h
  subst h
  have h := Only.refl 274432 s
  exact (leave_only h rfl)

theorem execLeaveAck_only {x0 : Nat} {x1 : FrameHeader} {x2 : Nat} {x3 : Nat} {x4 : Nat} {s : State} {t : State} (h : execLeaveAck x0 x1 x2 x3 x4 s = .next t) : Only 266240 s t := by
  injection h with h
  subst h
  have h := Only.refl 266240 s
  exact (leaveAck_only h rfl)

theorem execExpel_only {x0 : Nat} {x1 : FrameHeader} {s : State} {t : State} (h : execExpel x0 x1 s = .next t) : Only 266240 s t := by
  injection h with h
  subst h
  have h := Only.refl 266240 s
  exact (expel_only h rfl)

theorem execLeaveFrame_only {s : State} {t : State} (h : execLeaveFrame s = .next t) : Only 12741 s t := by
  injection h with h
  subst h
  have h := Only.refl 12741 s
  exact (leaveFrame_only h rfl)

theorem execStatus_only {x0 : Nat} {x1 : FrameHeader} {x2 : StatusReport} {s : State} {t : State} (h : execStatus x0 x1 x2 s = .next t) : Only 274816 s t := by
  injection h with h
  subst h
  have h := Only.refl 274816 s
  exact (status_only h rfl)

theorem execLost_only {x0 : Nat} {x1 : FrameHeader} {x2 : Nat} {x3 : Nat} {s : State} {t : State} (h : execLost x0 x1 x2 x3 s = .next t) : Only 274436 s t := by
  injection h with h
  subst h
  have h := Only.refl 274436 s
  exact (lost_only h rfl)

theorem execMemberTimeout_only {x0 : Nat} {s : State} {t : State} (h : execMemberTimeout x0 s = .next t) : Only 274437 s t := by
  injection h with h
  subst h
  have h := Only.refl 274437 s
  exact (memberTimeout_only h rfl)

theorem execIdHoldExpiry_only {x0 : Nat} {s : State} {t : State} (h : execIdHoldExpiry x0 s = .next t) : Only 4097 s t := by
  injection h with h
  subst h
  have h := Only.refl 4097 s
  exact (idHoldExpiry_only h rfl)

theorem execPathDown_only {x0 : Nat} {x1 : FrameHeader} {s : State} {t : State} (h : execPathDown x0 x1 s = .next t) : Only 266241 s t := by
  injection h with h
  subst h
  have h := Only.refl 266241 s
  exact (pathDown_only h rfl)

theorem execRehome_only {x0 : Nat} {x1 : FrameHeader} {x2 : Nat} {x3 : Nat} {x4 : Nat} {s : State} {t : State} (h : execRehome x0 x1 x2 x3 x4 s = .next t) : Only 274432 s t := by
  injection h with h
  subst h
  have h := Only.refl 274432 s
  exact (rehome_only h rfl)

theorem execRehomeWaitExpiry_only {s : State} {t : State} (h : execRehomeWaitExpiry s = .next t) : Only 4097 s t := by
  injection h with h
  subst h
  have h := Only.refl 4097 s
  exact (rehomeWaitExpiry_only h rfl)

theorem execFlPortConfig_only {x0 : HostRequest} {s : State} {t : State} (h : execFlPortConfig x0 s = .next t) : Only 339971 s t := by
  injection h with h
  subst h
  have h := Only.refl 339971 s
  exact (submit_only specFlPortConfig_only h rfl rfl rfl)

theorem execFlFlockConfig_only {x0 : HostRequest} {s : State} {t : State} (h : execFlFlockConfig x0 s = .next t) : Only 331779 s t := by
  injection h with h
  subst h
  have h := Only.refl 331779 s
  exact (submit_only specFlFlockConfig_only h rfl rfl rfl)

theorem execFlJoin_only {x0 : HostRequest} {s : State} {t : State} (h : execFlJoin x0 s = .next t) : Only 331778 s t := by
  injection h with h
  subst h
  have h := Only.refl 331778 s
  exact (submit_only specFlJoin_only h rfl rfl rfl)

theorem execFlLeave_only {x0 : HostRequest} {s : State} {t : State} (h : execFlLeave x0 s = .next t) : Only 331778 s t := by
  injection h with h
  subst h
  have h := Only.refl 331778 s
  exact (submit_only specFlLeave_only h rfl rfl rfl)

theorem execFlLaneControl_only {x0 : HostRequest} {s : State} {t : State} (h : execFlLaneControl x0 s = .next t) : Only 339975 s t := by
  injection h with h
  subst h
  have h := Only.refl 339975 s
  exact (submit_only specFlLaneControl_only h rfl rfl rfl)

theorem execFlMemberQuery_only {x0 : HostRequest} {s : State} {t : State} (h : execFlMemberQuery x0 s = .next t) : Only 65538 s t := by
  injection h with h
  subst h
  have h := Only.refl 65538 s
  exact (submit_only specFlMemberQuery_only h rfl rfl rfl)

theorem execFlExpel_only {x0 : HostRequest} {s : State} {t : State} (h : execFlExpel x0 s = .next t) : Only 331778 s t := by
  injection h with h
  subst h
  have h := Only.refl 331778 s
  exact (submit_only specFlExpel_only h rfl rfl rfl)

theorem execHkRoundEnd_only {x0 : List SensorInput} {s : State} {t : State} (h : execHkRoundEnd x0 s = .next t) : Only 285668 s t := by
  injection h with h
  subst h
  have h := Only.refl 285668 s
  exact (hkRoundEnd_only h rfl)

theorem execSyncDetect_only {x0 : SyncInput} {s : State} {t : State} (h : execSyncDetect x0 s = .next t) : Only 32768 s t := by
  injection h with h
  subst h
  have h := Only.refl 32768 s
  exact (syncDetect_only h rfl)

theorem execHeaderComplete_only {x0 : Nat} {x1 : Nat} {s : State} {t : State} (h : execHeaderComplete x0 x1 s = .next t) : Only 32769 s t := by
  injection h with h
  subst h
  have h := Only.refl 32769 s
  exact (headerComplete_only h rfl)

theorem execClipCollision_only {x0 : Nat} {s : State} {t : State} (h : execClipCollision x0 s = .next t) : Only 32768 s t := by
  injection h with h
  subst h
  have h := Only.refl 32768 s
  exact (clipCollision_only h rfl)

theorem execPayloadComplete_only {x0 : BellBody} {s : State} {t : State} (h : execPayloadComplete x0 s = .next t) : Only 32769 s t := by
  injection h with h
  subst h
  have h := Only.refl 32769 s
  exact (payloadComplete_only h rfl)

theorem execBellTxStart_only {x0 : ℤ} {s : State} {t : State} (h : execBellTxStart x0 s = .next t) : Only 294912 s t := by
  injection h with h
  subst h
  have h := Only.refl 294912 s
  exact (bellTxStart_only h rfl)

theorem execCcaRetry_only {x0 : ℤ} {s : State} {t : State} (h : execCcaRetry x0 s = .next t) : Only 294913 s t := by
  injection h with h
  subst h
  have h := Only.refl 294913 s
  exact (ccaRetry_only h rfl)

theorem execBellTxEnd_only {x0 : Bool} {s : State} {t : State} (h : execBellTxEnd x0 s = .next t) : Only 32807 s t := by
  injection h with h
  subst h
  have h := Only.refl 32807 s
  exact (bellTxEnd_only h rfl)

theorem execKeeperResponseExpiry_only {s : State} {t : State} (h : execKeeperResponseExpiry s = .next t) : Only 32769 s t := by
  injection h with h
  subst h
  have h := Only.refl 32769 s
  exact (keeperResponseExpiry_only h rfl)

theorem execBellTxWatchdog_only {s : State} {t : State} (h : execBellTxWatchdog s = .next t) : Only 32807 s t := by
  injection h with h
  subst h
  have h := Only.refl 32807 s
  exact (bellTxWatchdog_only h rfl)

theorem execSynBellCalStart_only {s : State} {t : State} (h : execSynBellCalStart s = .next t) : Only 32800 s t := by
  injection h with h
  subst h
  have h := Only.refl 32800 s
  exact (synBellCalStart_only h rfl)

theorem execSynBellLock_only {x0 : Bool} {s : State} {t : State} (h : execSynBellLock x0 s = .next t) : Only 32806 s t := by
  injection h with h
  subst h
  have h := Only.refl 32806 s
  exact (synBellLock_only h rfl)

theorem execBellTxResume_only {s : State} {t : State} (h : execBellTxResume s = .next t) : Only 32769 s t := by
  injection h with h
  subst h
  have h := Only.refl 32769 s
  exact (bellTxResume_only h rfl)

theorem execChainHelloTimer_only {s : State} {t : State} (h : execChainHelloTimer s = .next t) : Only 294913 s t := by
  injection h with h
  subst h
  have h := Only.refl 294913 s
  exact (chainHelloTimer_only h rfl)

theorem execNeighbourExpiry_only {x0 : Nat} {s : State} {t : State} (h : execNeighbourExpiry x0 s = .next t) : Only 32769 s t := by
  injection h with h
  subst h
  have h := Only.refl 32769 s
  exact (neighbourExpiry_only h rfl)

theorem execChainStatusTimer_only {s : State} {t : State} (h : execChainStatusTimer s = .next t) : Only 294913 s t := by
  injection h with h
  subst h
  have h := Only.refl 294913 s
  exact (chainStatusTimer_only h rfl)

theorem execChainAckTimeout_only {s : State} {t : State} (h : execChainAckTimeout s = .next t) : Only 32769 s t := by
  injection h with h
  subst h
  have h := Only.refl 32769 s
  exact (chainAckTimeout_only h rfl)

theorem execKeeperLockoutExpiry_only {x0 : Nat} {s : State} {t : State} (h : execKeeperLockoutExpiry x0 s = .next t) : Only 32769 s t := by
  injection h with h
  subst h
  have h := Only.refl 32769 s
  exact (keeperLockoutExpiry_only h rfl)

theorem execBellConfig_only {x0 : HostRequest} {s : State} {t : State} (h : execBellConfig x0 s = .next t) : Only 98306 s t := by
  injection h with h
  subst h
  have h := Only.refl 98306 s
  exact (submit_only specBellConfig_only h rfl rfl rfl)

theorem execBellEnable_only {x0 : HostRequest} {s : State} {t : State} (h : execBellEnable x0 s = .next t) : Only 98338 s t := by
  injection h with h
  subst h
  have h := Only.refl 98338 s
  exact (submit_only specBellEnable_only h rfl rfl rfl)

theorem execKeeperKey_only {x0 : HostRequest} {s : State} {t : State} (h : execKeeperKey x0 s = .next t) : Only 98306 s t := by
  injection h with h
  subst h
  have h := Only.refl 98306 s
  exact (submit_only specKeeperKey_only h rfl rfl rfl)

theorem execBellChainConfig_only {x0 : HostRequest} {s : State} {t : State} (h : execBellChainConfig x0 s = .next t) : Only 98306 s t := by
  injection h with h
  subst h
  have h := Only.refl 98306 s
  exact (submit_only specBellChainConfig_only h rfl rfl rfl)

theorem execBindStatus_only {x0 : Nat} {x1 : FrameHeader} {x2 : List Binding} {s : State} {t : State} (h : execBindStatus x0 x1 x2 s = .next t) : Only 274432 s t := by
  injection h with h
  subst h
  have h := Only.refl 274432 s
  exact (bindStatus_only h rfl)

theorem execPlacementCompute_only {s : State} {t : State} (h : execPlacementCompute s = .next t) : Only 274435 s t := by
  injection h with h
  subst h
  have h := Only.refl 274435 s
  exact (placementCompute_only h rfl)

theorem execPlan_only {x0 : Nat} {x1 : FrameHeader} {x2 : Nat} {x3 : Nat} {x4 : Nat} {x5 : Bool} {x6 : List PlanEntry} {s : State} {t : State} (h : execPlan x0 x1 x2 x3 x4 x5 x6 s = .next t) : Only 274436 s t := by
  injection h with h
  subst h
  have h := Only.refl 274436 s
  exact (plan_only h rfl)

theorem execPlanCancel_only {x0 : Nat} {x1 : FrameHeader} {x2 : Nat} {s : State} {t : State} (h : execPlanCancel x0 x1 x2 s = .next t) : Only 274432 s t := by
  injection h with h
  subst h
  have h := Only.refl 274432 s
  exact (planCancel_only h rfl)

theorem execPlanAck_only {x0 : Nat} {x1 : FrameHeader} {x2 : Nat} {x3 : Nat} {s : State} {t : State} (h : execPlanAck x0 x1 x2 x3 s = .next t) : Only 274438 s t := by
  injection h with h
  subst h
  have h := Only.refl 274438 s
  exact (planAck_only h rfl)

theorem execPlanAckTimeout_only {s : State} {t : State} (h : execPlanAckTimeout s = .next t) : Only 274433 s t := by
  injection h with h
  subst h
  have h := Only.refl 274433 s
  exact (planAckTimeout_only h rfl)

theorem execDescriptorLoad_only {s : State} {t : State} (h : execDescriptorLoad s = .next t) : Only 8193 s t := by
  injection h with h
  subst h
  have h := Only.refl 8193 s
  exact (descriptorLoad_only h rfl)

theorem execPlanApply_only {s : State} {t : State} (h : execPlanApply s = .next t) : Only 8645 s t := by
  injection h with h
  subst h
  have h := Only.refl 8645 s
  exact (planApply_only h rfl)

theorem execPlanDrainEnd_only {s : State} {t : State} (h : execPlanDrainEnd s = .next t) : Only 8193 s t := by
  injection h with h
  subst h
  have h := Only.refl 8193 s
  exact (planDrainEnd_only h rfl)

theorem execTargetDelayApply_only {s : State} {t : State} (h : execTargetDelayApply s = .next t) : Only 8645 s t := by
  injection h with h
  subst h
  have h := Only.refl 8645 s
  exact (targetDelayApply_only h rfl)

theorem execSumDeadline_only {x0 : Nat} {x1 : Nat} {x2 : Nat} {s : State} {t : State} (h : execSumDeadline x0 x1 x2 s = .next t) : Only 422341 s t := by
  injection h with h
  subst h
  have h := Only.refl 422341 s
  exact (sumDeadline_only h rfl)

theorem execConsumeDeadline_only {x0 : Nat} {x1 : AirInstant} {s : State} {t : State} (h : execConsumeDeadline x0 x1 s = .next t) : Only 25029 s t := by
  injection h with h
  subst h
  have h := Only.refl 25029 s
  exact (consumeDeadline_only h rfl)

theorem execFlowQualComplete_only {x0 : Nat} {s : State} {t : State} (h : execFlowQualComplete x0 s = .next t) : Only 274560 s t := by
  injection h with h
  subst h
  have h := Only.refl 274560 s
  exact (flowQualComplete_only h rfl)

theorem execFlowReport_only {x0 : Nat} {x1 : FrameHeader} {x2 : List (Nat × Nat × Nat)} {s : State} {t : State} (h : execFlowReport x0 x1 x2 s = .next t) : Only 274432 s t := by
  injection h with h
  subst h
  have h := Only.refl 274432 s
  exact (flowReport_only h rfl)

theorem execDvIntentSet_only {x0 : HostRequest} {s : State} {t : State} (h : execDvIntentSet x0 s = .next t) : Only 73730 s t := by
  injection h with h
  subst h
  have h := Only.refl 73730 s
  exact (submit_only specDvIntentSet_only h rfl rfl rfl)

theorem execDvIntentClear_only {x0 : HostRequest} {s : State} {t : State} (h : execDvIntentClear x0 s = .next t) : Only 73730 s t := by
  injection h with h
  subst h
  have h := Only.refl 73730 s
  exact (submit_only specDvIntentClear_only h rfl rfl rfl)

theorem execDvPolicy_only {x0 : HostRequest} {s : State} {t : State} (h : execDvPolicy x0 s = .next t) : Only 73730 s t := by
  injection h with h
  subst h
  have h := Only.refl 73730 s
  exact (submit_only specDvPolicy_only h rfl rfl rfl)

theorem execDvReplace_only {x0 : HostRequest} {s : State} {t : State} (h : execDvReplace x0 s = .next t) : Only 73730 s t := by
  injection h with h
  subst h
  have h := Only.refl 73730 s
  exact (submit_only specDvReplace_only h rfl rfl rfl)

theorem execDvFlowQuery_only {x0 : HostRequest} {s : State} {t : State} (h : execDvFlowQuery x0 s = .next t) : Only 65538 s t := by
  injection h with h
  subst h
  have h := Only.refl 65538 s
  exact (submit_only specDvFlowQuery_only h rfl rfl rfl)

theorem execDvFlowControl_only {x0 : HostRequest} {s : State} {t : State} (h : execDvFlowControl x0 s = .next t) : Only 74182 s t := by
  injection h with h
  subst h
  have h := Only.refl 74182 s
  exact (submit_only specDvFlowControl_only h rfl rfl rfl)

theorem execDrainComplete_only {s : State} {t : State} (h : execDrainComplete s = .next t) : Only 16395 s t := by
  injection h with h
  subst h
  have h := Only.refl 16395 s
  exact (drainComplete_only h rfl)

theorem execCapArm_only {x0 : HostRequest} {s : State} {t : State} (h : execCapArm x0 s = .next t) : Only 81922 s t := by
  injection h with h
  subst h
  have h := Only.refl 81922 s
  exact (submit_only specCapArm_only h rfl rfl rfl)

theorem execCapTrigger_only {x0 : HostRequest} {s : State} {t : State} (h : execCapTrigger x0 s = .next t) : Only 81922 s t := by
  injection h with h
  subst h
  have h := Only.refl 81922 s
  exact (submit_only specCapTrigger_only h rfl rfl rfl)

theorem execCapControl_only {x0 : HostRequest} {s : State} {t : State} (h : execCapControl x0 s = .next t) : Only 344074 s t := by
  injection h with h
  subst h
  have h := Only.refl 344074 s
  exact (submit_only specCapControl_only h rfl rfl rfl)

theorem execCaptureAtInstant_only {x0 : Nat} {s : State} {t : State} (h : execCaptureAtInstant x0 s = .next t) : Only 16385 s t := by
  injection h with h
  subst h
  have h := Only.refl 16385 s
  exact (captureAtInstant_only h rfl)

theorem execCaptureStop_only {x0 : Nat} {s : State} {t : State} (h : execCaptureStop x0 s = .next t) : Only 278539 s t := by
  injection h with h
  subst h
  have h := Only.refl 278539 s
  exact (captureStop_only h rfl)

theorem execStackPowerUpComplete_only {s : State} {t : State} (h : execStackPowerUpComplete s = .next t) : Only 16386 s t := by
  injection h with h
  subst h
  have h := Only.refl 16386 s
  exact (stackPowerUpComplete_only h rfl)

theorem execStackPowerDown_only {s : State} {t : State} (h : execStackPowerDown s = .next t) : Only 16385 s t := by
  injection h with h
  subst h
  have h := Only.refl 16385 s
  exact (stackPowerDown_only h rfl)

theorem execHbmCorrectedError_only {x0 : Nat} {s : State} {t : State} (h : execHbmCorrectedError x0 s = .next t) : Only 16388 s t := by
  injection h with h
  subst h
  have h := Only.refl 16388 s
  exact (correctedError_only h rfl)

theorem execPatrolScrub_only {x0 : List Nat} {s : State} {t : State} (h : execPatrolScrub x0 s = .next t) : Only 16388 s t := by
  injection h with h
  subst h
  have h := Only.refl 16388 s
  exact (patrolScrub_only h rfl)

theorem execHbmUncorrectable_only {x0 : Nat} {x1 : Option Nat} {x2 : Option Nat} {x3 : Nat × Nat} {s : State} {t : State} (h : execHbmUncorrectable x0 x1 x2 x3 s = .next t) : Only 24708 s t := by
  injection h with h
  subst h
  have h := Only.refl 24708 s
  exact (hbmUncorrectable_only h rfl)

theorem execExtentRemap_only {s : State} {t : State} (h : execExtentRemap s = .next t) : Only 16385 s t := by
  injection h with h
  subst h
  have h := Only.refl 16385 s
  exact (extentRemap_only h rfl)

theorem execMemRetireClear_only {x0 : HostRequest} {s : State} {t : State} (h : execMemRetireClear x0 s = .next t) : Only 81922 s t := by
  injection h with h
  subst h
  have h := Only.refl 81922 s
  exact (submit_only specMemRetireClear_only h rfl rfl rfl)

theorem execArchiveFault_only {x0 : ArchiveFail} {s : State} {t : State} (h : execArchiveFault x0 s = .next t) : Only 16390 s t := by
  injection h with h
  subst h
  have h := Only.refl 16390 s
  exact (archiveFault_only h rfl)

theorem execArConfig_only {x0 : HostRequest} {s : State} {t : State} (h : execArConfig x0 s = .next t) : Only 81934 s t := by
  injection h with h
  subst h
  have h := Only.refl 81934 s
  exact (submit_only specArConfig_only h rfl rfl rfl)

theorem execArControl_only {x0 : HostRequest} {s : State} {t : State} (h : execArControl x0 s = .next t) : Only 81922 s t := by
  injection h with h
  subst h
  have h := Only.refl 81922 s
  exact (submit_only specArControl_only h rfl rfl rfl)

theorem execArControlComplete_only {x0 : ArchiveDevice} {s : State} {t : State} (h : execArControlComplete x0 s = .next t) : Only 16398 s t := by
  injection h with h
  subst h
  have h := Only.refl 16398 s
  exact (arControlComplete_only h rfl)

theorem execArRestore_only {x0 : HostRequest} {s : State} {t : State} (h : execArRestore x0 s = .next t) : Only 81922 s t := by
  injection h with h
  subst h
  have h := Only.refl 81922 s
  exact (submit_only specArRestore_only h rfl rfl rfl)

theorem execRestoreComplete_only {x0 : List Nat} {s : State} {t : State} (h : execRestoreComplete x0 s = .next t) : Only 16390 s t := by
  injection h with h
  subst h
  have h := Only.refl 16390 s
  exact (restoreComplete_only h rfl)

theorem execPowerOnReset_only {x0 : BitVec 2} {x1 : BootPins} {s : State} {t : State} (h : execPowerOnReset x0 x1 s = .next t) : Only 131071 s t := by
  injection h with h
  subst h
  have h := Only.refl 131071 s
  exact (powerOnReset_only h rfl)

theorem execResetN_only {x0 : BitVec 2} {x1 : BootPins} {s : State} {t : State} (h : execResetN x0 x1 s = .next t) : Only 131071 s t := by
  injection h with h
  subst h
  have h := Only.refl 131071 s
  exact (resetN_only h rfl)

theorem execBootStageAdvance_only {x0 : Nat} {x1 : Option Image} {x2 : Bool} {x3 : Bool} {s : State} {t : State} (h : execBootStageAdvance x0 x1 x2 x3 s = .next t) : Only 294943 s t := by
  injection h with h
  subst h
  have h := Only.refl 294943 s
  exact (bootStageAdvance_only h rfl)

theorem execReady_only {s : State} {t : State} (h : execReady s = .next t) : Only 69654 s t := by
  injection h with h
  subst h
  have h := Only.refl 69654 s
  exact (ready_only h rfl)

theorem execTrialTimeout_only {s : State} {t : State} (h : execTrialTimeout s = .next t) : Only 25 s t := by
  injection h with h
  subst h
  have h := Only.refl 25 s
  exact (trialTimeout_only h rfl)

theorem execWarmReset_only {s : State} {t : State} (h : execWarmReset s = .next t) : Only 131071 s t := by
  injection h with h
  subst h
  have h := Only.refl 131071 s
  exact (warmReset_only h rfl)

theorem execWatchdogTimeout_only {s : State} {t : State} (h : execWatchdogTimeout s = .next t) : Only 20 s t := by
  injection h with h
  subst h
  have h := Only.refl 20 s
  exact (watchdogTimeout_only h rfl)

theorem execWatchdogReset_only {s : State} {t : State} (h : execWatchdogReset s = .next t) : Only 131071 s t := by
  injection h with h
  subst h
  have h := Only.refl 131071 s
  exact (watchdogReset_only h rfl)

theorem execUnitResetComplete_only {x0 : Nat} {s : State} {t : State} (h : execUnitResetComplete x0 s = .next t) : Only 27 s t := by
  injection h with h
  subst h
  have h := Only.refl 27 s
  exact (unitResetComplete_only h rfl)

theorem execPwrReset_only {x0 : HostRequest} {s : State} {t : State} (h : execPwrReset x0 s = .next t) : Only 102390 s t := by
  injection h with h
  subst h
  have h := Only.refl 102390 s
  exact (submit_only specPwrReset_only h rfl rfl rfl)

theorem execStandbyEntry_only {s : State} {t : State} (h : execStandbyEntry s = .next t) : Only 56831 s t := by
  injection h with h
  subst h
  have h := Only.refl 56831 s
  exact (standbyEntry_only h rfl)

theorem execStandbyExitComplete_only {s : State} {t : State} (h : execStandbyExitComplete s = .next t) : Only 58 s t := by
  injection h with h
  subst h
  have h := Only.refl 58 s
  exact (standbyExitComplete_only h rfl)

theorem execQuietExit_only {s : State} {t : State} (h : execQuietExit s = .next t) : Only 479 s t := by
  injection h with h
  subst h
  have h := Only.refl 479 s
  exact (quietExit_only h rfl)

theorem execPwrStateSet_only {x0 : HostRequest} {s : State} {t : State} (h : execPwrStateSet x0 s = .next t) : Only 335358 s t := by
  injection h with h
  subst h
  have h := Only.refl 335358 s
  exact (submit_only specPwrStateSet_only h rfl rfl rfl)

theorem execDormantEntry_only {x0 : Nat} {s : State} {t : State} (h : execDormantEntry x0 s = .next t) : Only 65023 s t := by
  injection h with h
  subst h
  have h := Only.refl 65023 s
  exact (dormantEntry_only h rfl)

theorem execPwrEnDrop_only {s : State} {t : State} (h : execPwrEnDrop s = .next t) : Only 17 s t := by
  injection h with h
  subst h
  have h := Only.refl 17 s
  exact (pwrEnDrop_only h rfl)

theorem execDormantWake_only {x0 : WakeSource} {x1 : Nat} {s : State} {t : State} (h : execDormantWake x0 x1 s = .next t) : Only 131071 s t := by
  injection h with h
  subst h
  have h := Only.refl 131071 s
  exact (dormantWake_only h rfl)

theorem execAonOscTick_only {s : State} {t : State} (h : execAonOscTick s = .next t) : Only 1 s t := by
  injection h with h
  subst h
  have h := Only.refl 1 s
  exact (aonOscTick_only h rfl)

theorem execPwrWakeConfig_only {x0 : HostRequest} {s : State} {t : State} (h : execPwrWakeConfig x0 s = .next t) : Only 65554 s t := by
  injection h with h
  subst h
  have h := Only.refl 65554 s
  exact (submit_only specPwrWakeConfig_only h rfl rfl rfl)

theorem execPwrLimitSet_only {x0 : HostRequest} {s : State} {t : State} (h : execPwrLimitSet x0 s = .next t) : Only 65554 s t := by
  injection h with h
  subst h
  have h := Only.refl 65554 s
  exact (submit_only specPwrLimitSet_only h rfl rfl rfl)

theorem execPwrFailNFall_only {x0 : BitVec 8} {s : State} {t : State} (h : execPwrFailNFall x0 s = .next t) : Only 52703 s t := by
  injection h with h
  subst h
  have h := Only.refl 52703 s
  exact (pwrFailFall_only h rfl)

theorem execPwrRestore_only {s : State} {t : State} (h : execPwrRestore s = .next t) : Only 16863 s t := by
  injection h with h
  subst h
  have h := Only.refl 16863 s
  exact (pwrRestore_only h rfl)

theorem execLcProvision_only {x0 : HostRequest} {s : State} {t : State} (h : execLcProvision x0 s = .next t) : Only 65562 s t := by
  injection h with h
  subst h
  have h := Only.refl 65562 s
  exact (submit_only specLcProvision_only h rfl rfl rfl)

theorem execLcAdvance_only {x0 : HostRequest} {s : State} {t : State} (h : execLcAdvance x0 s = .next t) : Only 65562 s t := by
  injection h with h
  subst h
  have h := Only.refl 65562 s
  exact (submit_only specLcAdvance_only h rfl rfl rfl)

theorem execKeysZeroised_only {s : State} {t : State} (h : execKeysZeroised s = .next t) : Only 32794 s t := by
  injection h with h
  subst h
  have h := Only.refl 32794 s
  exact (keysZeroised_only h rfl)

theorem execLcRoleSet_only {x0 : HostRequest} {s : State} {t : State} (h : execLcRoleSet x0 s = .next t) : Only 65554 s t := by
  injection h with h
  subst h
  have h := Only.refl 65554 s
  exact (submit_only specLcRoleSet_only h rfl rfl rfl)

theorem execKeyInstall_only {x0 : HostRequest} {s : State} {t : State} (h : execKeyInstall x0 s = .next t) : Only 65554 s t := by
  injection h with h
  subst h
  have h := Only.refl 65554 s
  exact (submit_only specKeyInstall_only h rfl rfl rfl)

theorem execDbgPolicy_only {x0 : HostRequest} {s : State} {t : State} (h : execDbgPolicy x0 s = .next t) : Only 65562 s t := by
  injection h with h
  subst h
  have h := Only.refl 65562 s
  exact (submit_only specDbgPolicy_only h rfl rfl rfl)

theorem execDebugAuthRequest_only {x0 : List Byte} {s : State} {t : State} (h : execDebugAuthRequest x0 s = .next t) : Only 262168 s t := by
  injection h with h
  subst h
  have h := Only.refl 262168 s
  exact (debugAuthRequest_only h rfl)

theorem execDebugOpenRequest_only {x0 : Bool} {s : State} {t : State} (h : execDebugOpenRequest x0 s = .next t) : Only 24 s t := by
  injection h with h
  subst h
  have h := Only.refl 24 s
  exact (debugOpenRequest_only h rfl)

theorem execDebugSessionClose_only {x0 : Bool} {s : State} {t : State} (h : execDebugSessionClose x0 s = .next t) : Only 25 s t := by
  injection h with h
  subst h
  have h := Only.refl 25 s
  exact (debugSessionClose_only h rfl)

theorem execDebugLockoutExpiry_only {s : State} {t : State} (h : execDebugLockoutExpiry s = .next t) : Only 17 s t := by
  injection h with h
  subst h
  have h := Only.refl 17 s
  exact (debugLockoutExpiry_only h rfl)

theorem execSecurityViolation_only {x0 : Nat} {s : State} {t : State} (h : execSecurityViolation x0 s = .next t) : Only 4 s t := by
  injection h with h
  subst h
  have h := Only.refl 4 s
  exact (securityViolation_only h rfl)

theorem execFwWrite_only {x0 : HostRequest} {s : State} {t : State} (h : execFwWrite x0 s = .next t) : Only 65554 s t := by
  injection h with h
  subst h
  have h := Only.refl 65554 s
  exact (submit_only specFwWrite_only h rfl rfl rfl)

theorem execFwControl_only {x0 : HostRequest} {s : State} {t : State} (h : execFwControl x0 s = .next t) : Only 65554 s t := by
  injection h with h
  subst h
  have h := Only.refl 65554 s
  exact (submit_only specFwControl_only h rfl rfl rfl)

theorem execFwVerifyComplete_only {x0 : Option Image} {s : State} {t : State} (h : execFwVerifyComplete x0 s = .next t) : Only 18 s t := by
  injection h with h
  subst h
  have h := Only.refl 18 s
  exact (fwVerifyComplete_only h rfl)

theorem execCollectorCycle_only {s : State} {t : State} (h : execCollectorCycle s = .next t) : Only 327663 s t := by
  injection h with h
  subst h
  have h := Only.refl 327663 s
  exact (collectorCycle_only h rfl)

theorem execReactionStart_only {s : State} {t : State} (h : execReactionStart s = .next t) : Only 327671 s t := by
  injection h with h
  subst h
  have h := Only.refl 327671 s
  exact (reactionStart_only h rfl)

theorem execReactionComplete_only {s : State} {t : State} (h : execReactionComplete s = .next t) : Only 4 s t := by
  injection h with h
  subst h
  have h := Only.refl 4 s
  exact (reactionComplete_only h rfl)

theorem execConsequenceWindowClose_only {s : State} {t : State} (h : execConsequenceWindowClose s = .next t) : Only 5 s t := by
  injection h with h
  subst h
  have h := Only.refl 5 s
  exact (consequenceWindowClose_only h rfl)

theorem execHaltReleaseFrame_only {s : State} {t : State} (h : execHaltReleaseFrame s = .next t) : Only 461 s t := by
  injection h with h
  subst h
  have h := Only.refl 461 s
  exact (haltReleaseFrame_only h rfl)

theorem execFaultClassConfig_only {x0 : HostRequest} {s : State} {t : State} (h : execFaultClassConfig x0 s = .next t) : Only 65542 s t := by
  injection h with h
  subst h
  have h := Only.refl 65542 s
  exact (submit_only specFaultClassConfig_only h rfl rfl rfl)

theorem execFaultPolicy_only {x0 : HostRequest} {s : State} {t : State} (h : execFaultPolicy x0 s = .next t) : Only 65542 s t := by
  injection h with h
  subst h
  have h := Only.refl 65542 s
  exact (submit_only specFaultPolicy_only h rfl rfl rfl)

theorem execFaultAck_only {x0 : HostRequest} {s : State} {t : State} (h : execFaultAck x0 s = .next t) : Only 344046 s t := by
  injection h with h
  subst h
  have h := Only.refl 344046 s
  exact (submit_only specFaultAck_only h rfl rfl rfl)

theorem execFaultUnitPen_only {x0 : HostRequest} {s : State} {t : State} (h : execFaultUnitPen x0 s = .next t) : Only 342479 s t := by
  injection h with h
  subst h
  have h := Only.refl 342479 s
  exact (submit_only specFaultUnitPen_only h rfl rfl rfl)

theorem execFaultUnitRelease_only {x0 : HostRequest} {s : State} {t : State} (h : execFaultUnitRelease x0 s = .next t) : Only 344046 s t := by
  injection h with h
  subst h
  have h := Only.refl 344046 s
  exact (submit_only specFaultUnitRelease_only h rfl rfl rfl)

theorem execFaultHaltRelease_only {x0 : HostRequest} {s : State} {t : State} (h : execFaultHaltRelease x0 s = .next t) : Only 344046 s t := by
  injection h with h
  subst h
  have h := Only.refl 344046 s
  exact (submit_only specFaultHaltRelease_only h rfl rfl rfl)

theorem execFaultFfClear_only {x0 : HostRequest} {s : State} {t : State} (h : execFaultFfClear x0 s = .next t) : Only 65542 s t := by
  injection h with h
  subst h
  have h := Only.refl 65542 s
  exact (submit_only specFaultFfClear_only h rfl rfl rfl)

theorem execFaultInject_only {x0 : HostRequest} {s : State} {t : State} (h : execFaultInject x0 s = .next t) : Only 65542 s t := by
  injection h with h
  subst h
  have h := Only.refl 65542 s
  exact (submit_only specFaultInject_only h rfl rfl rfl)

theorem execFaultTableRead_only {x0 : HostRequest} {s : State} {t : State} (h : execFaultTableRead x0 s = .next t) : Only 65538 s t := by
  injection h with h
  subst h
  have h := Only.refl 65538 s
  exact (submit_only specFaultTableRead_only h rfl rfl rfl)

theorem execDoorbellWrite_only {x0 : HostPath} {x1 : BitVec 16} {s : State} {t : State} (h : execDoorbellWrite x0 x1 s = .next t) : Only 2 s t := by
  injection h with h
  subst h
  have h := Only.refl 2 s
  exact (doorbellWrite_only h rfl)

theorem execDoorbellOverrunWrite_only {x0 : Word} {s : State} {t : State} (h : execDoorbellOverrunWrite x0 s = .next t) : Only 2 s t := by
  injection h with h
  subst h
  have h := Only.refl 2 s
  exact (doorbellOverrunWrite_only h rfl)

theorem execIrqStatusWrite_only {x0 : Word} {s : State} {t : State} (h : execIrqStatusWrite x0 s = .next t) : Only 2 s t := by
  injection h with h
  subst h
  have h := Only.refl 2 s
  exact (irqStatusWrite_only h rfl)

theorem execIrqEnableWrite_only {x0 : Word} {s : State} {t : State} (h : execIrqEnableWrite x0 s = .next t) : Only 2 s t := by
  injection h with h
  subst h
  have h := Only.refl 2 s
  exact (irqEnableWrite_only h rfl)

theorem execIrqNEnableWrite_only {x0 : Word} {s : State} {t : State} (h : execIrqNEnableWrite x0 s = .next t) : Only 2 s t := by
  injection h with h
  subst h
  have h := Only.refl 2 s
  exact (irqNEnableWrite_only h rfl)

theorem execEvtAckWrite_only {x0 : Word} {s : State} {t : State} (h : execEvtAckWrite x0 s = .next t) : Only 2 s t := by
  injection h with h
  subst h
  have h := Only.refl 2 s
  exact (evtAckWrite_only h rfl)

theorem execEventHoldoffExpiry_only {s : State} {t : State} (h : execEventHoldoffExpiry s = .next t) : Only 3 s t := by
  injection h with h
  subst h
  have h := Only.refl 3 s
  exact (eventHoldoffExpiry_only h rfl)

theorem execSiteEdgeWrite_only {x0 : Word} {s : State} {t : State} (h : execSiteEdgeWrite x0 s = .next t) : Only 2 s t := by
  injection h with h
  subst h
  have h := Only.refl 2 s
  exact (siteEdgeWrite_only h rfl)

theorem execLogCursorWrite_only {x0 : Word} {s : State} {t : State} (h : execLogCursorWrite x0 s = .next t) : Only 2 s t := by
  injection h with h
  subst h
  have h := Only.refl 2 s
  exact (logCursorWrite_only h rfl)

theorem execCapWinWrite_only {x0 : Bool} {x1 : Word} {s : State} {t : State} (h : execCapWinWrite x0 x1 s = .next t) : Only 2 s t := by
  injection h with h
  subst h
  have h := Only.refl 2 s
  exact (capWinWrite_only h rfl)

theorem execRegisterWrite_only {x0 : HostPath} {x1 : Nat} {x2 : Nat} {x3 : Word} {s : State} {t : State} (h : execRegisterWrite x0 x1 x2 x3 s = .next t) : Only 2 s t := by
  injection h with h
  subst h
  have h := Only.refl 2 s
  exact (registerWrite_only h rfl)

theorem execPcieReset_only {x0 : Bool} {s : State} {t : State} (h : execPcieReset x0 s = .next t) : Only 2 s t := by
  injection h with h
  subst h
  have h := Only.refl 2 s
  exact (pcieReset_only h rfl)

theorem execEthRequest_only {x0 : EthDatagram} {s : State} {t : State} (h : execEthRequest x0 s = .next t) : Only 2 s t := by
  injection h with h
  subst h
  have h := Only.refl 2 s
  exact (ethRequest_only h rfl)

theorem execNonceExpiry_only {x0 : HostPath} {s : State} {t : State} (h : execNonceExpiry x0 s = .next t) : Only 262147 s t := by
  injection h with h
  subst h
  have h := Only.refl 262147 s
  exact (nonceExpiry_only h rfl)

theorem execSessionIdleExpiry_only {x0 : Nat} {s : State} {t : State} (h : execSessionIdleExpiry x0 s = .next t) : Only 3 s t := by
  injection h with h
  subst h
  have h := Only.refl 3 s
  exact (sessionIdleExpiry_only h rfl)

theorem execHostLockoutExpiry_only {x0 : HostPath} {s : State} {t : State} (h : execHostLockoutExpiry x0 s = .next t) : Only 3 s t := by
  injection h with h
  subst h
  have h := Only.refl 3 s
  exact (hostLockoutExpiry_only h rfl)

theorem execSysSessionOpen_only {x0 : HostRequest} {s : State} {t : State} (h : execSysSessionOpen x0 s = .next t) : Only 327690 s t := by
  injection h with h
  subst h
  have h := Only.refl 327690 s
  exact (submit_only specSysSessionOpen_only h rfl rfl rfl)

theorem execSysSessionClose_only {x0 : HostRequest} {s : State} {t : State} (h : execSysSessionClose x0 s = .next t) : Only 65538 s t := by
  injection h with h
  subst h
  have h := Only.refl 65538 s
  exact (submit_only specSysSessionClose_only h rfl rfl rfl)

theorem execSysNop_only {x0 : HostRequest} {s : State} {t : State} (h : execSysNop x0 s = .next t) : Only 65538 s t := by
  injection h with h
  subst h
  have h := Only.refl 65538 s
  exact (submit_only specSysNop_only h rfl rfl rfl)

theorem execSysHostConfig_only {x0 : HostRequest} {s : State} {t : State} (h : execSysHostConfig x0 s = .next t) : Only 65554 s t := by
  injection h with h
  subst h
  have h := Only.refl 65554 s
  exact (submit_only specSysHostConfig_only h rfl rfl rfl)

theorem execSysNetConfig_only {x0 : HostRequest} {s : State} {t : State} (h : execSysNetConfig x0 s = .next t) : Only 65554 s t := by
  injection h with h
  subst h
  have h := Only.refl 65554 s
  exact (submit_only specSysNetConfig_only h rfl rfl rfl)

theorem execSysSiteConfig_only {x0 : HostRequest} {s : State} {t : State} (h : execSysSiteConfig x0 s = .next t) : Only 65554 s t := by
  injection h with h
  subst h
  have h := Only.refl 65554 s
  exact (submit_only specSysSiteConfig_only h rfl rfl rfl)

theorem execSiteSample_only {x0 : BitVec 16} {s : State} {t : State} (h : execSiteSample x0 s = .next t) : Only 16387 s t := by
  injection h with h
  subst h
  have h := Only.refl 16387 s
  exact (siteSample_only h rfl)

theorem execI2cHeartbeatTick_only {s : State} {t : State} (h : execI2cHeartbeatTick s = .next t) : Only 3 s t := by
  injection h with h
  subst h
  have h := Only.refl 3 s
  exact (i2cHeartbeatTick_only h rfl)

theorem execMirrorPeriodicSync_only {s : State} {t : State} (h : execMirrorPeriodicSync s = .next t) : Only 65537 s t := by
  injection h with h
  subst h
  have h := Only.refl 65537 s
  exact (mirrorPeriodicSync_only h rfl)

theorem execPairHb_only {x0 : Nat} {x1 : Heartbeat} {s : State} {t : State} (h : execPairHb x0 x1 s = .next t) : Only 340463 s t := by
  injection h with h
  subst h
  have h := Only.refl 340463 s
  exact (pairHb_only h rfl)

theorem execPairHbMissed_only {x0 : Nat} {s : State} {t : State} (h : execPairHbMissed x0 s = .next t) : Only 65541 s t := by
  injection h with h
  subst h
  have h := Only.refl 65541 s
  exact (pairHbMissed_only h rfl)

theorem execPairWaitTimeout_only {s : State} {t : State} (h : execPairWaitTimeout s = .next t) : Only 339969 s t := by
  injection h with h
  subst h
  have h := Only.refl 339969 s
  exact (pairWaitTimeout_only h rfl)

theorem execBulkSyncTimeout_only {s : State} {t : State} (h : execBulkSyncTimeout s = .next t) : Only 5 s t := by
  injection h with h
  subst h
  have h := Only.refl 5 s
  exact (bulkSyncTimeout_only h rfl)

theorem execPairLinkRecovery_only {s : State} {t : State} (h : execPairLinkRecovery s = .next t) : Only 5 s t := by
  injection h with h
  subst h
  have h := Only.refl 5 s
  exact (pairLinkRecovery_only h rfl)

theorem execPairTakeover_only {s : State} {t : State} (h : execPairTakeover s = .next t) : Only 342511 s t := by
  injection h with h
  subst h
  have h := Only.refl 342511 s
  exact (pairTakeover_only h rfl)

theorem execPairDemote_only {s : State} {t : State} (h : execPairDemote s = .next t) : Only 78319 s t := by
  injection h with h
  subst h
  have h := Only.refl 78319 s
  exact (pairDemote_only h rfl)

theorem execPairConfig_only {x0 : HostRequest} {s : State} {t : State} (h : execPairConfig x0 s = .next t) : Only 65538 s t := by
  injection h with h
  subst h
  have h := Only.refl 65538 s
  exact (submit_only specPairConfig_only h rfl rfl rfl)

theorem execPairSwitchover_only {x0 : HostRequest} {s : State} {t : State} (h : execPairSwitchover x0 s = .next t) : Only 65538 s t := by
  injection h with h
  subst h
  have h := Only.refl 65538 s
  exact (submit_only specPairSwitchover_only h rfl rfl rfl)

theorem execPairTailRead_only {x0 : HostRequest} {s : State} {t : State} (h : execPairTailRead x0 s = .next t) : Only 65538 s t := by
  injection h with h
  subst h
  have h := Only.refl 65538 s
  exact (submit_only specPairTailRead_only h rfl rfl rfl)

theorem execAdmissionFrame_only {s : State} {t : State} (h : execAdmissionFrame s = .next t) : Only 275909 s t := by
  injection h with h
  subst h
  have h := Only.refl 275909 s
  exact (admissionFrame_only h rfl)

theorem execAtSchedule_only {x0 : HostRequest} {s : State} {t : State} (h : execAtSchedule x0 s = .next t) : Only 65539 s t := by
  injection h with h
  subst h
  have h := Only.refl 65539 s
  exact (submit_only specAtSchedule_only h rfl rfl rfl)

theorem execAtCancel_only {x0 : HostRequest} {s : State} {t : State} (h : execAtCancel x0 s = .next t) : Only 65571 s t := by
  injection h with h
  subst h
  have h := Only.refl 65571 s
  exact (submit_only specAtCancel_only h rfl rfl rfl)

theorem execCommandStart_only {s : State} {t : State} (h : execCommandStart s = .next t) : Only 393215 s t := by
  injection h with h
  subst h
  have h := Only.refl 393215 s
  exact (commandStart_only h rfl)

theorem execScheduledCommandFire_only {s : State} {t : State} (h : execScheduledCommandFire s = .next t) : Only 393215 s t := by
  injection h with h
  subst h
  have h := Only.refl 393215 s
  exact (scheduledCommandFire_only h rfl)

theorem execPairSync_only {x0 : Nat} {x1 : PairItem} {s : State} {t : State} (h : execPairSync x0 x1 s = .next t) : Only 393215 s t := by
  injection h with h
  subst h
  have h := Only.refl 393215 s
  exact (pairSync_only h rfl)

theorem execFlitReceive_only {x0 : Nat} {x1 : Flit} {s : State} {t : State} (h : execFlitReceive x0 x1 s = .next t) : Only 524287 s t := by
  injection h with h
  subst h
  have h := Only.refl 524287 s
  exact (flitReceive_only h rfl)

theorem execLoopTick_only {x0 : TickInput} {s : State} {t : State} (h : execLoopTick x0 s = .next t) : Only 424421 s t := by
  injection h with h
  subst h
  have h := Only.refl 424421 s
  exact (loopTick_only h rfl)

theorem execSlotBoundary_only {s : State} {t : State} (h : execSlotBoundary s = .next t) : Only 1477 s t := by
  injection h with h
  subst h
  have h := Only.refl 1477 s
  exact (slotBoundary_only h rfl)

theorem execSubframeBoundary_only {s : State} {t : State} (h : execSubframeBoundary s = .next t) : Only 331785 s t := by
  injection h with h
  subst h
  have h := Only.refl 331785 s
  exact (subframeBoundary_only h rfl)

theorem execFrameBoundary_only {x0 : FrameInput} {s : State} {t : State} (h : execFrameBoundary x0 s = .next t) : Only 274821 s t := by
  injection h with h
  subst h
  have h := Only.refl 274821 s
  exact (frameBoundary_only h rfl)

theorem execAirTimeStep_only {s : State} {t : State} (h : execAirTimeStep s = .next t) : Only 1485 s t := by
  injection h with h
  subst h
  have h := Only.refl 1485 s
  exact (airTimeStep_only h rfl)

theorem execStepPendingEnd_only {s : State} {t : State} (h : execStepPendingEnd s = .next t) : Only 453 s t := by
  injection h with h
  subst h
  have h := Only.refl 453 s
  exact (refreshGains_only (stepPendingEnd_only h rfl) rfl)

theorem execTddPatternEffective_only {x0 : Nat} {s : State} {t : State} (h : execTddPatternEffective x0 s = .next t) : Only 1477 s t := by
  injection h with h
  subst h
  have h := Only.refl 1477 s
  exact (tddPatternEffective_only h rfl)

theorem execObsDwellStart_only {x0 : Nat} {s : State} {t : State} (h : execObsDwellStart x0 s = .next t) : Only 33 s t := by
  injection h with h
  subst h
  have h := Only.refl 33 s
  exact (obsDwellStart_only h rfl)

theorem execObsDwellEnd_only {x0 : Nat} {x1 : DwellInput} {s : State} {t : State} (h : execObsDwellEnd x0 x1 s = .next t) : Only 1509 s t := by
  injection h with h
  subst h
  have h := Only.refl 1509 s
  exact (obsDwellEnd_only h rfl)

theorem execLowHalfRead_only {x0 : HostPath} {x1 : Nat} {s : State} {t : State} (h : execLowHalfRead x0 x1 s = .next t) : Only 262146 s t := by
  injection h with h
  subst h
  have h := Only.refl 262146 s
  exact (lowHalfRead_only h rfl)

theorem execEthRead_only {x0 : EthDatagram} {s : State} {t : State} (h : execEthRead x0 s = .next t) : Only 262146 s t := by
  injection h with h
  subst h
  have h := Only.refl 262146 s
  exact (ethRead_only h rfl)

theorem execSpiTransfer_only {x0 : Nat} {x1 : Nat} {x2 : Nat} {x3 : List Word} {s : State} {t : State} (h : execSpiTransfer x0 x1 x2 x3 s = .next t) : Only 262146 s t := by
  injection h with h
  subst h
  have h := Only.refl 262146 s
  exact (spiTransfer_only h rfl)

theorem execI2cTransfer_only {x0 : List Byte} {x1 : Nat} {s : State} {t : State} (h : execI2cTransfer x0 x1 s = .next t) : Only 262146 s t := by
  injection h with h
  subst h
  have h := Only.refl 262146 s
  exact (i2cTransfer_only h rfl)

theorem execKeeperRequest_only {s : State} {t : State} (h : execKeeperRequest s = .next t) : Only 393215 s t := by
  injection h with h
  subst h
  have h := Only.refl 393215 s
  exact (keeperRequest_only h rfl)

theorem execKeeperResponseDue_only {s : State} {t : State} (h : execKeeperResponseDue s = .next t) : Only 32769 s t := by
  injection h with h
  subst h
  have h := Only.refl 32769 s
  exact (keeperResponseDue_only h rfl)

theorem execChainPacketReceive_only {s : State} {t : State} (h : execChainPacketReceive s = .next t) : Only 307584 s t := by
  injection h with h
  subst h
  have h := Only.refl 307584 s
  exact (chainPacketReceive_only h rfl)

end Sys2Proof.Machine
end

