-- ==== Sys2Proof/Laws/State.lean ====
section
/-! SUPPORT. The state's accessors under its updates: an update of one subsystem gives that subsystem's new value and leaves
every other part as it was. -/

namespace Sys2Proof.Machine

open Sys2Proof

variable (s : State)

@[simp] theorem modAir_air (f : AirState → AirState) : (s.modAir f).air = f s.air := rfl
@[simp] theorem modAir_host (f : AirState → AirState) : (s.modAir f).host = s.host := rfl
@[simp] theorem modAir_fault (f : AirState → AirState) : (s.modAir f).fault = s.fault := rfl
@[simp] theorem modAir_log (f : AirState → AirState) : (s.modAir f).log = s.log := rfl
@[simp] theorem modAir_sys (f : AirState → AirState) : (s.modAir f).sys = s.sys := rfl
@[simp] theorem modAir_rf (f : AirState → AirState) : (s.modAir f).rf = s.rf := rfl
@[simp] theorem modAir_ce (f : AirState → AirState) : (s.modAir f).ce = s.ce := rfl
@[simp] theorem modAir_lg (f : AirState → AirState) : (s.modAir f).lg = s.lg := rfl
@[simp] theorem modAir_np (f : AirState → AirState) : (s.modAir f).np = s.np := rfl
@[simp] theorem modAir_hk (f : AirState → AirState) : (s.modAir f).hk = s.hk := rfl
@[simp] theorem modAir_cl (f : AirState → AirState) : (s.modAir f).cl = s.cl := rfl
@[simp] theorem modAir_ps (f : AirState → AirState) : (s.modAir f).ps = s.ps := rfl
@[simp] theorem modAir_fl (f : AirState → AirState) : (s.modAir f).fl = s.fl := rfl
@[simp] theorem modAir_dv (f : AirState → AirState) : (s.modAir f).dv = s.dv := rfl
@[simp] theorem modAir_mem (f : AirState → AirState) : (s.modAir f).mem = s.mem := rfl
@[simp] theorem modAir_bell (f : AirState → AirState) : (s.modAir f).bell = s.bell := rfl
@[simp] theorem modAir_pair (f : AirState → AirState) : (s.modAir f).pair = s.pair := rfl
@[simp] theorem modAir_wire (f : AirState → AirState) : (s.modAir f).wire = s.wire := rfl
@[simp] theorem modAir_drawn (f : AirState → AirState) : (s.modAir f).drawn = s.drawn := rfl
@[simp] theorem modAir_pending (f : AirState → AirState) : (s.modAir f).pending = s.pending := rfl

@[simp] theorem modHost_air (f : HostState → HostState) : (s.modHost f).air = s.air := rfl
@[simp] theorem modHost_host (f : HostState → HostState) : (s.modHost f).host = f s.host := rfl
@[simp] theorem modHost_fault (f : HostState → HostState) : (s.modHost f).fault = s.fault := rfl
@[simp] theorem modHost_log (f : HostState → HostState) : (s.modHost f).log = s.log := rfl
@[simp] theorem modHost_sys (f : HostState → HostState) : (s.modHost f).sys = s.sys := rfl
@[simp] theorem modHost_rf (f : HostState → HostState) : (s.modHost f).rf = s.rf := rfl
@[simp] theorem modHost_ce (f : HostState → HostState) : (s.modHost f).ce = s.ce := rfl
@[simp] theorem modHost_lg (f : HostState → HostState) : (s.modHost f).lg = s.lg := rfl
@[simp] theorem modHost_np (f : HostState → HostState) : (s.modHost f).np = s.np := rfl
@[simp] theorem modHost_hk (f : HostState → HostState) : (s.modHost f).hk = s.hk := rfl
@[simp] theorem modHost_cl (f : HostState → HostState) : (s.modHost f).cl = s.cl := rfl
@[simp] theorem modHost_ps (f : HostState → HostState) : (s.modHost f).ps = s.ps := rfl
@[simp] theorem modHost_fl (f : HostState → HostState) : (s.modHost f).fl = s.fl := rfl
@[simp] theorem modHost_dv (f : HostState → HostState) : (s.modHost f).dv = s.dv := rfl
@[simp] theorem modHost_mem (f : HostState → HostState) : (s.modHost f).mem = s.mem := rfl
@[simp] theorem modHost_bell (f : HostState → HostState) : (s.modHost f).bell = s.bell := rfl
@[simp] theorem modHost_pair (f : HostState → HostState) : (s.modHost f).pair = s.pair := rfl
@[simp] theorem modHost_wire (f : HostState → HostState) : (s.modHost f).wire = s.wire := rfl
@[simp] theorem modHost_drawn (f : HostState → HostState) : (s.modHost f).drawn = s.drawn := rfl
@[simp] theorem modHost_pending (f : HostState → HostState) : (s.modHost f).pending = s.pending := rfl

@[simp] theorem modFault_air (f : FaultState → FaultState) : (s.modFault f).air = s.air := rfl
@[simp] theorem modFault_host (f : FaultState → FaultState) : (s.modFault f).host = s.host := rfl
@[simp] theorem modFault_fault (f : FaultState → FaultState) : (s.modFault f).fault = f s.fault := rfl
@[simp] theorem modFault_log (f : FaultState → FaultState) : (s.modFault f).log = s.log := rfl
@[simp] theorem modFault_sys (f : FaultState → FaultState) : (s.modFault f).sys = s.sys := rfl
@[simp] theorem modFault_rf (f : FaultState → FaultState) : (s.modFault f).rf = s.rf := rfl
@[simp] theorem modFault_ce (f : FaultState → FaultState) : (s.modFault f).ce = s.ce := rfl
@[simp] theorem modFault_lg (f : FaultState → FaultState) : (s.modFault f).lg = s.lg := rfl
@[simp] theorem modFault_np (f : FaultState → FaultState) : (s.modFault f).np = s.np := rfl
@[simp] theorem modFault_hk (f : FaultState → FaultState) : (s.modFault f).hk = s.hk := rfl
@[simp] theorem modFault_cl (f : FaultState → FaultState) : (s.modFault f).cl = s.cl := rfl
@[simp] theorem modFault_ps (f : FaultState → FaultState) : (s.modFault f).ps = s.ps := rfl
@[simp] theorem modFault_fl (f : FaultState → FaultState) : (s.modFault f).fl = s.fl := rfl
@[simp] theorem modFault_dv (f : FaultState → FaultState) : (s.modFault f).dv = s.dv := rfl
@[simp] theorem modFault_mem (f : FaultState → FaultState) : (s.modFault f).mem = s.mem := rfl
@[simp] theorem modFault_bell (f : FaultState → FaultState) : (s.modFault f).bell = s.bell := rfl
@[simp] theorem modFault_pair (f : FaultState → FaultState) : (s.modFault f).pair = s.pair := rfl
@[simp] theorem modFault_wire (f : FaultState → FaultState) : (s.modFault f).wire = s.wire := rfl
@[simp] theorem modFault_drawn (f : FaultState → FaultState) : (s.modFault f).drawn = s.drawn := rfl
@[simp] theorem modFault_pending (f : FaultState → FaultState) : (s.modFault f).pending = s.pending := rfl

@[simp] theorem modLog_air (f : LogState → LogState) : (s.modLog f).air = s.air := rfl
@[simp] theorem modLog_host (f : LogState → LogState) : (s.modLog f).host = s.host := rfl
@[simp] theorem modLog_fault (f : LogState → LogState) : (s.modLog f).fault = s.fault := rfl
@[simp] theorem modLog_log (f : LogState → LogState) : (s.modLog f).log = f s.log := rfl
@[simp] theorem modLog_sys (f : LogState → LogState) : (s.modLog f).sys = s.sys := rfl
@[simp] theorem modLog_rf (f : LogState → LogState) : (s.modLog f).rf = s.rf := rfl
@[simp] theorem modLog_ce (f : LogState → LogState) : (s.modLog f).ce = s.ce := rfl
@[simp] theorem modLog_lg (f : LogState → LogState) : (s.modLog f).lg = s.lg := rfl
@[simp] theorem modLog_np (f : LogState → LogState) : (s.modLog f).np = s.np := rfl
@[simp] theorem modLog_hk (f : LogState → LogState) : (s.modLog f).hk = s.hk := rfl
@[simp] theorem modLog_cl (f : LogState → LogState) : (s.modLog f).cl = s.cl := rfl
@[simp] theorem modLog_ps (f : LogState → LogState) : (s.modLog f).ps = s.ps := rfl
@[simp] theorem modLog_fl (f : LogState → LogState) : (s.modLog f).fl = s.fl := rfl
@[simp] theorem modLog_dv (f : LogState → LogState) : (s.modLog f).dv = s.dv := rfl
@[simp] theorem modLog_mem (f : LogState → LogState) : (s.modLog f).mem = s.mem := rfl
@[simp] theorem modLog_bell (f : LogState → LogState) : (s.modLog f).bell = s.bell := rfl
@[simp] theorem modLog_pair (f : LogState → LogState) : (s.modLog f).pair = s.pair := rfl
@[simp] theorem modLog_wire (f : LogState → LogState) : (s.modLog f).wire = s.wire := rfl
@[simp] theorem modLog_drawn (f : LogState → LogState) : (s.modLog f).drawn = s.drawn := rfl
@[simp] theorem modLog_pending (f : LogState → LogState) : (s.modLog f).pending = s.pending := rfl

@[simp] theorem modSys_air (f : SysState → SysState) : (s.modSys f).air = s.air := rfl
@[simp] theorem modSys_host (f : SysState → SysState) : (s.modSys f).host = s.host := rfl
@[simp] theorem modSys_fault (f : SysState → SysState) : (s.modSys f).fault = s.fault := rfl
@[simp] theorem modSys_log (f : SysState → SysState) : (s.modSys f).log = s.log := rfl
@[simp] theorem modSys_sys (f : SysState → SysState) : (s.modSys f).sys = f s.sys := rfl
@[simp] theorem modSys_rf (f : SysState → SysState) : (s.modSys f).rf = s.rf := rfl
@[simp] theorem modSys_ce (f : SysState → SysState) : (s.modSys f).ce = s.ce := rfl
@[simp] theorem modSys_lg (f : SysState → SysState) : (s.modSys f).lg = s.lg := rfl
@[simp] theorem modSys_np (f : SysState → SysState) : (s.modSys f).np = s.np := rfl
@[simp] theorem modSys_hk (f : SysState → SysState) : (s.modSys f).hk = s.hk := rfl
@[simp] theorem modSys_cl (f : SysState → SysState) : (s.modSys f).cl = s.cl := rfl
@[simp] theorem modSys_ps (f : SysState → SysState) : (s.modSys f).ps = s.ps := rfl
@[simp] theorem modSys_fl (f : SysState → SysState) : (s.modSys f).fl = s.fl := rfl
@[simp] theorem modSys_dv (f : SysState → SysState) : (s.modSys f).dv = s.dv := rfl
@[simp] theorem modSys_mem (f : SysState → SysState) : (s.modSys f).mem = s.mem := rfl
@[simp] theorem modSys_bell (f : SysState → SysState) : (s.modSys f).bell = s.bell := rfl
@[simp] theorem modSys_pair (f : SysState → SysState) : (s.modSys f).pair = s.pair := rfl
@[simp] theorem modSys_wire (f : SysState → SysState) : (s.modSys f).wire = s.wire := rfl
@[simp] theorem modSys_drawn (f : SysState → SysState) : (s.modSys f).drawn = s.drawn := rfl
@[simp] theorem modSys_pending (f : SysState → SysState) : (s.modSys f).pending = s.pending := rfl

@[simp] theorem modRf_air (f : RfState → RfState) : (s.modRf f).air = s.air := rfl
@[simp] theorem modRf_host (f : RfState → RfState) : (s.modRf f).host = s.host := rfl
@[simp] theorem modRf_fault (f : RfState → RfState) : (s.modRf f).fault = s.fault := rfl
@[simp] theorem modRf_log (f : RfState → RfState) : (s.modRf f).log = s.log := rfl
@[simp] theorem modRf_sys (f : RfState → RfState) : (s.modRf f).sys = s.sys := rfl
@[simp] theorem modRf_rf (f : RfState → RfState) : (s.modRf f).rf = f s.rf := rfl
@[simp] theorem modRf_ce (f : RfState → RfState) : (s.modRf f).ce = s.ce := rfl
@[simp] theorem modRf_lg (f : RfState → RfState) : (s.modRf f).lg = s.lg := rfl
@[simp] theorem modRf_np (f : RfState → RfState) : (s.modRf f).np = s.np := rfl
@[simp] theorem modRf_hk (f : RfState → RfState) : (s.modRf f).hk = s.hk := rfl
@[simp] theorem modRf_cl (f : RfState → RfState) : (s.modRf f).cl = s.cl := rfl
@[simp] theorem modRf_ps (f : RfState → RfState) : (s.modRf f).ps = s.ps := rfl
@[simp] theorem modRf_fl (f : RfState → RfState) : (s.modRf f).fl = s.fl := rfl
@[simp] theorem modRf_dv (f : RfState → RfState) : (s.modRf f).dv = s.dv := rfl
@[simp] theorem modRf_mem (f : RfState → RfState) : (s.modRf f).mem = s.mem := rfl
@[simp] theorem modRf_bell (f : RfState → RfState) : (s.modRf f).bell = s.bell := rfl
@[simp] theorem modRf_pair (f : RfState → RfState) : (s.modRf f).pair = s.pair := rfl
@[simp] theorem modRf_wire (f : RfState → RfState) : (s.modRf f).wire = s.wire := rfl
@[simp] theorem modRf_drawn (f : RfState → RfState) : (s.modRf f).drawn = s.drawn := rfl
@[simp] theorem modRf_pending (f : RfState → RfState) : (s.modRf f).pending = s.pending := rfl

@[simp] theorem modCe_air (f : CeState → CeState) : (s.modCe f).air = s.air := rfl
@[simp] theorem modCe_host (f : CeState → CeState) : (s.modCe f).host = s.host := rfl
@[simp] theorem modCe_fault (f : CeState → CeState) : (s.modCe f).fault = s.fault := rfl
@[simp] theorem modCe_log (f : CeState → CeState) : (s.modCe f).log = s.log := rfl
@[simp] theorem modCe_sys (f : CeState → CeState) : (s.modCe f).sys = s.sys := rfl
@[simp] theorem modCe_rf (f : CeState → CeState) : (s.modCe f).rf = s.rf := rfl
@[simp] theorem modCe_ce (f : CeState → CeState) : (s.modCe f).ce = f s.ce := rfl
@[simp] theorem modCe_lg (f : CeState → CeState) : (s.modCe f).lg = s.lg := rfl
@[simp] theorem modCe_np (f : CeState → CeState) : (s.modCe f).np = s.np := rfl
@[simp] theorem modCe_hk (f : CeState → CeState) : (s.modCe f).hk = s.hk := rfl
@[simp] theorem modCe_cl (f : CeState → CeState) : (s.modCe f).cl = s.cl := rfl
@[simp] theorem modCe_ps (f : CeState → CeState) : (s.modCe f).ps = s.ps := rfl
@[simp] theorem modCe_fl (f : CeState → CeState) : (s.modCe f).fl = s.fl := rfl
@[simp] theorem modCe_dv (f : CeState → CeState) : (s.modCe f).dv = s.dv := rfl
@[simp] theorem modCe_mem (f : CeState → CeState) : (s.modCe f).mem = s.mem := rfl
@[simp] theorem modCe_bell (f : CeState → CeState) : (s.modCe f).bell = s.bell := rfl
@[simp] theorem modCe_pair (f : CeState → CeState) : (s.modCe f).pair = s.pair := rfl
@[simp] theorem modCe_wire (f : CeState → CeState) : (s.modCe f).wire = s.wire := rfl
@[simp] theorem modCe_drawn (f : CeState → CeState) : (s.modCe f).drawn = s.drawn := rfl
@[simp] theorem modCe_pending (f : CeState → CeState) : (s.modCe f).pending = s.pending := rfl

@[simp] theorem modLg_air (f : LgState → LgState) : (s.modLg f).air = s.air := rfl
@[simp] theorem modLg_host (f : LgState → LgState) : (s.modLg f).host = s.host := rfl
@[simp] theorem modLg_fault (f : LgState → LgState) : (s.modLg f).fault = s.fault := rfl
@[simp] theorem modLg_log (f : LgState → LgState) : (s.modLg f).log = s.log := rfl
@[simp] theorem modLg_sys (f : LgState → LgState) : (s.modLg f).sys = s.sys := rfl
@[simp] theorem modLg_rf (f : LgState → LgState) : (s.modLg f).rf = s.rf := rfl
@[simp] theorem modLg_ce (f : LgState → LgState) : (s.modLg f).ce = s.ce := rfl
@[simp] theorem modLg_lg (f : LgState → LgState) : (s.modLg f).lg = f s.lg := rfl
@[simp] theorem modLg_np (f : LgState → LgState) : (s.modLg f).np = s.np := rfl
@[simp] theorem modLg_hk (f : LgState → LgState) : (s.modLg f).hk = s.hk := rfl
@[simp] theorem modLg_cl (f : LgState → LgState) : (s.modLg f).cl = s.cl := rfl
@[simp] theorem modLg_ps (f : LgState → LgState) : (s.modLg f).ps = s.ps := rfl
@[simp] theorem modLg_fl (f : LgState → LgState) : (s.modLg f).fl = s.fl := rfl
@[simp] theorem modLg_dv (f : LgState → LgState) : (s.modLg f).dv = s.dv := rfl
@[simp] theorem modLg_mem (f : LgState → LgState) : (s.modLg f).mem = s.mem := rfl
@[simp] theorem modLg_bell (f : LgState → LgState) : (s.modLg f).bell = s.bell := rfl
@[simp] theorem modLg_pair (f : LgState → LgState) : (s.modLg f).pair = s.pair := rfl
@[simp] theorem modLg_wire (f : LgState → LgState) : (s.modLg f).wire = s.wire := rfl
@[simp] theorem modLg_drawn (f : LgState → LgState) : (s.modLg f).drawn = s.drawn := rfl
@[simp] theorem modLg_pending (f : LgState → LgState) : (s.modLg f).pending = s.pending := rfl

@[simp] theorem modNp_air (f : NpState → NpState) : (s.modNp f).air = s.air := rfl
@[simp] theorem modNp_host (f : NpState → NpState) : (s.modNp f).host = s.host := rfl
@[simp] theorem modNp_fault (f : NpState → NpState) : (s.modNp f).fault = s.fault := rfl
@[simp] theorem modNp_log (f : NpState → NpState) : (s.modNp f).log = s.log := rfl
@[simp] theorem modNp_sys (f : NpState → NpState) : (s.modNp f).sys = s.sys := rfl
@[simp] theorem modNp_rf (f : NpState → NpState) : (s.modNp f).rf = s.rf := rfl
@[simp] theorem modNp_ce (f : NpState → NpState) : (s.modNp f).ce = s.ce := rfl
@[simp] theorem modNp_lg (f : NpState → NpState) : (s.modNp f).lg = s.lg := rfl
@[simp] theorem modNp_np (f : NpState → NpState) : (s.modNp f).np = f s.np := rfl
@[simp] theorem modNp_hk (f : NpState → NpState) : (s.modNp f).hk = s.hk := rfl
@[simp] theorem modNp_cl (f : NpState → NpState) : (s.modNp f).cl = s.cl := rfl
@[simp] theorem modNp_ps (f : NpState → NpState) : (s.modNp f).ps = s.ps := rfl
@[simp] theorem modNp_fl (f : NpState → NpState) : (s.modNp f).fl = s.fl := rfl
@[simp] theorem modNp_dv (f : NpState → NpState) : (s.modNp f).dv = s.dv := rfl
@[simp] theorem modNp_mem (f : NpState → NpState) : (s.modNp f).mem = s.mem := rfl
@[simp] theorem modNp_bell (f : NpState → NpState) : (s.modNp f).bell = s.bell := rfl
@[simp] theorem modNp_pair (f : NpState → NpState) : (s.modNp f).pair = s.pair := rfl
@[simp] theorem modNp_wire (f : NpState → NpState) : (s.modNp f).wire = s.wire := rfl
@[simp] theorem modNp_drawn (f : NpState → NpState) : (s.modNp f).drawn = s.drawn := rfl
@[simp] theorem modNp_pending (f : NpState → NpState) : (s.modNp f).pending = s.pending := rfl

@[simp] theorem modHk_air (f : HkState → HkState) : (s.modHk f).air = s.air := rfl
@[simp] theorem modHk_host (f : HkState → HkState) : (s.modHk f).host = s.host := rfl
@[simp] theorem modHk_fault (f : HkState → HkState) : (s.modHk f).fault = s.fault := rfl
@[simp] theorem modHk_log (f : HkState → HkState) : (s.modHk f).log = s.log := rfl
@[simp] theorem modHk_sys (f : HkState → HkState) : (s.modHk f).sys = s.sys := rfl
@[simp] theorem modHk_rf (f : HkState → HkState) : (s.modHk f).rf = s.rf := rfl
@[simp] theorem modHk_ce (f : HkState → HkState) : (s.modHk f).ce = s.ce := rfl
@[simp] theorem modHk_lg (f : HkState → HkState) : (s.modHk f).lg = s.lg := rfl
@[simp] theorem modHk_np (f : HkState → HkState) : (s.modHk f).np = s.np := rfl
@[simp] theorem modHk_hk (f : HkState → HkState) : (s.modHk f).hk = f s.hk := rfl
@[simp] theorem modHk_cl (f : HkState → HkState) : (s.modHk f).cl = s.cl := rfl
@[simp] theorem modHk_ps (f : HkState → HkState) : (s.modHk f).ps = s.ps := rfl
@[simp] theorem modHk_fl (f : HkState → HkState) : (s.modHk f).fl = s.fl := rfl
@[simp] theorem modHk_dv (f : HkState → HkState) : (s.modHk f).dv = s.dv := rfl
@[simp] theorem modHk_mem (f : HkState → HkState) : (s.modHk f).mem = s.mem := rfl
@[simp] theorem modHk_bell (f : HkState → HkState) : (s.modHk f).bell = s.bell := rfl
@[simp] theorem modHk_pair (f : HkState → HkState) : (s.modHk f).pair = s.pair := rfl
@[simp] theorem modHk_wire (f : HkState → HkState) : (s.modHk f).wire = s.wire := rfl
@[simp] theorem modHk_drawn (f : HkState → HkState) : (s.modHk f).drawn = s.drawn := rfl
@[simp] theorem modHk_pending (f : HkState → HkState) : (s.modHk f).pending = s.pending := rfl

@[simp] theorem modCl_air (f : ClState → ClState) : (s.modCl f).air = s.air := rfl
@[simp] theorem modCl_host (f : ClState → ClState) : (s.modCl f).host = s.host := rfl
@[simp] theorem modCl_fault (f : ClState → ClState) : (s.modCl f).fault = s.fault := rfl
@[simp] theorem modCl_log (f : ClState → ClState) : (s.modCl f).log = s.log := rfl
@[simp] theorem modCl_sys (f : ClState → ClState) : (s.modCl f).sys = s.sys := rfl
@[simp] theorem modCl_rf (f : ClState → ClState) : (s.modCl f).rf = s.rf := rfl
@[simp] theorem modCl_ce (f : ClState → ClState) : (s.modCl f).ce = s.ce := rfl
@[simp] theorem modCl_lg (f : ClState → ClState) : (s.modCl f).lg = s.lg := rfl
@[simp] theorem modCl_np (f : ClState → ClState) : (s.modCl f).np = s.np := rfl
@[simp] theorem modCl_hk (f : ClState → ClState) : (s.modCl f).hk = s.hk := rfl
@[simp] theorem modCl_cl (f : ClState → ClState) : (s.modCl f).cl = f s.cl := rfl
@[simp] theorem modCl_ps (f : ClState → ClState) : (s.modCl f).ps = s.ps := rfl
@[simp] theorem modCl_fl (f : ClState → ClState) : (s.modCl f).fl = s.fl := rfl
@[simp] theorem modCl_dv (f : ClState → ClState) : (s.modCl f).dv = s.dv := rfl
@[simp] theorem modCl_mem (f : ClState → ClState) : (s.modCl f).mem = s.mem := rfl
@[simp] theorem modCl_bell (f : ClState → ClState) : (s.modCl f).bell = s.bell := rfl
@[simp] theorem modCl_pair (f : ClState → ClState) : (s.modCl f).pair = s.pair := rfl
@[simp] theorem modCl_wire (f : ClState → ClState) : (s.modCl f).wire = s.wire := rfl
@[simp] theorem modCl_drawn (f : ClState → ClState) : (s.modCl f).drawn = s.drawn := rfl
@[simp] theorem modCl_pending (f : ClState → ClState) : (s.modCl f).pending = s.pending := rfl

@[simp] theorem modPs_air (f : PsState → PsState) : (s.modPs f).air = s.air := rfl
@[simp] theorem modPs_host (f : PsState → PsState) : (s.modPs f).host = s.host := rfl
@[simp] theorem modPs_fault (f : PsState → PsState) : (s.modPs f).fault = s.fault := rfl
@[simp] theorem modPs_log (f : PsState → PsState) : (s.modPs f).log = s.log := rfl
@[simp] theorem modPs_sys (f : PsState → PsState) : (s.modPs f).sys = s.sys := rfl
@[simp] theorem modPs_rf (f : PsState → PsState) : (s.modPs f).rf = s.rf := rfl
@[simp] theorem modPs_ce (f : PsState → PsState) : (s.modPs f).ce = s.ce := rfl
@[simp] theorem modPs_lg (f : PsState → PsState) : (s.modPs f).lg = s.lg := rfl
@[simp] theorem modPs_np (f : PsState → PsState) : (s.modPs f).np = s.np := rfl
@[simp] theorem modPs_hk (f : PsState → PsState) : (s.modPs f).hk = s.hk := rfl
@[simp] theorem modPs_cl (f : PsState → PsState) : (s.modPs f).cl = s.cl := rfl
@[simp] theorem modPs_ps (f : PsState → PsState) : (s.modPs f).ps = f s.ps := rfl
@[simp] theorem modPs_fl (f : PsState → PsState) : (s.modPs f).fl = s.fl := rfl
@[simp] theorem modPs_dv (f : PsState → PsState) : (s.modPs f).dv = s.dv := rfl
@[simp] theorem modPs_mem (f : PsState → PsState) : (s.modPs f).mem = s.mem := rfl
@[simp] theorem modPs_bell (f : PsState → PsState) : (s.modPs f).bell = s.bell := rfl
@[simp] theorem modPs_pair (f : PsState → PsState) : (s.modPs f).pair = s.pair := rfl
@[simp] theorem modPs_wire (f : PsState → PsState) : (s.modPs f).wire = s.wire := rfl
@[simp] theorem modPs_drawn (f : PsState → PsState) : (s.modPs f).drawn = s.drawn := rfl
@[simp] theorem modPs_pending (f : PsState → PsState) : (s.modPs f).pending = s.pending := rfl

@[simp] theorem modFl_air (f : FlState → FlState) : (s.modFl f).air = s.air := rfl
@[simp] theorem modFl_host (f : FlState → FlState) : (s.modFl f).host = s.host := rfl
@[simp] theorem modFl_fault (f : FlState → FlState) : (s.modFl f).fault = s.fault := rfl
@[simp] theorem modFl_log (f : FlState → FlState) : (s.modFl f).log = s.log := rfl
@[simp] theorem modFl_sys (f : FlState → FlState) : (s.modFl f).sys = s.sys := rfl
@[simp] theorem modFl_rf (f : FlState → FlState) : (s.modFl f).rf = s.rf := rfl
@[simp] theorem modFl_ce (f : FlState → FlState) : (s.modFl f).ce = s.ce := rfl
@[simp] theorem modFl_lg (f : FlState → FlState) : (s.modFl f).lg = s.lg := rfl
@[simp] theorem modFl_np (f : FlState → FlState) : (s.modFl f).np = s.np := rfl
@[simp] theorem modFl_hk (f : FlState → FlState) : (s.modFl f).hk = s.hk := rfl
@[simp] theorem modFl_cl (f : FlState → FlState) : (s.modFl f).cl = s.cl := rfl
@[simp] theorem modFl_ps (f : FlState → FlState) : (s.modFl f).ps = s.ps := rfl
@[simp] theorem modFl_fl (f : FlState → FlState) : (s.modFl f).fl = f s.fl := rfl
@[simp] theorem modFl_dv (f : FlState → FlState) : (s.modFl f).dv = s.dv := rfl
@[simp] theorem modFl_mem (f : FlState → FlState) : (s.modFl f).mem = s.mem := rfl
@[simp] theorem modFl_bell (f : FlState → FlState) : (s.modFl f).bell = s.bell := rfl
@[simp] theorem modFl_pair (f : FlState → FlState) : (s.modFl f).pair = s.pair := rfl
@[simp] theorem modFl_wire (f : FlState → FlState) : (s.modFl f).wire = s.wire := rfl
@[simp] theorem modFl_drawn (f : FlState → FlState) : (s.modFl f).drawn = s.drawn := rfl
@[simp] theorem modFl_pending (f : FlState → FlState) : (s.modFl f).pending = s.pending := rfl

@[simp] theorem modDv_air (f : DvState → DvState) : (s.modDv f).air = s.air := rfl
@[simp] theorem modDv_host (f : DvState → DvState) : (s.modDv f).host = s.host := rfl
@[simp] theorem modDv_fault (f : DvState → DvState) : (s.modDv f).fault = s.fault := rfl
@[simp] theorem modDv_log (f : DvState → DvState) : (s.modDv f).log = s.log := rfl
@[simp] theorem modDv_sys (f : DvState → DvState) : (s.modDv f).sys = s.sys := rfl
@[simp] theorem modDv_rf (f : DvState → DvState) : (s.modDv f).rf = s.rf := rfl
@[simp] theorem modDv_ce (f : DvState → DvState) : (s.modDv f).ce = s.ce := rfl
@[simp] theorem modDv_lg (f : DvState → DvState) : (s.modDv f).lg = s.lg := rfl
@[simp] theorem modDv_np (f : DvState → DvState) : (s.modDv f).np = s.np := rfl
@[simp] theorem modDv_hk (f : DvState → DvState) : (s.modDv f).hk = s.hk := rfl
@[simp] theorem modDv_cl (f : DvState → DvState) : (s.modDv f).cl = s.cl := rfl
@[simp] theorem modDv_ps (f : DvState → DvState) : (s.modDv f).ps = s.ps := rfl
@[simp] theorem modDv_fl (f : DvState → DvState) : (s.modDv f).fl = s.fl := rfl
@[simp] theorem modDv_dv (f : DvState → DvState) : (s.modDv f).dv = f s.dv := rfl
@[simp] theorem modDv_mem (f : DvState → DvState) : (s.modDv f).mem = s.mem := rfl
@[simp] theorem modDv_bell (f : DvState → DvState) : (s.modDv f).bell = s.bell := rfl
@[simp] theorem modDv_pair (f : DvState → DvState) : (s.modDv f).pair = s.pair := rfl
@[simp] theorem modDv_wire (f : DvState → DvState) : (s.modDv f).wire = s.wire := rfl
@[simp] theorem modDv_drawn (f : DvState → DvState) : (s.modDv f).drawn = s.drawn := rfl
@[simp] theorem modDv_pending (f : DvState → DvState) : (s.modDv f).pending = s.pending := rfl

@[simp] theorem modMem_air (f : MemState → MemState) : (s.modMem f).air = s.air := rfl
@[simp] theorem modMem_host (f : MemState → MemState) : (s.modMem f).host = s.host := rfl
@[simp] theorem modMem_fault (f : MemState → MemState) : (s.modMem f).fault = s.fault := rfl
@[simp] theorem modMem_log (f : MemState → MemState) : (s.modMem f).log = s.log := rfl
@[simp] theorem modMem_sys (f : MemState → MemState) : (s.modMem f).sys = s.sys := rfl
@[simp] theorem modMem_rf (f : MemState → MemState) : (s.modMem f).rf = s.rf := rfl
@[simp] theorem modMem_ce (f : MemState → MemState) : (s.modMem f).ce = s.ce := rfl
@[simp] theorem modMem_lg (f : MemState → MemState) : (s.modMem f).lg = s.lg := rfl
@[simp] theorem modMem_np (f : MemState → MemState) : (s.modMem f).np = s.np := rfl
@[simp] theorem modMem_hk (f : MemState → MemState) : (s.modMem f).hk = s.hk := rfl
@[simp] theorem modMem_cl (f : MemState → MemState) : (s.modMem f).cl = s.cl := rfl
@[simp] theorem modMem_ps (f : MemState → MemState) : (s.modMem f).ps = s.ps := rfl
@[simp] theorem modMem_fl (f : MemState → MemState) : (s.modMem f).fl = s.fl := rfl
@[simp] theorem modMem_dv (f : MemState → MemState) : (s.modMem f).dv = s.dv := rfl
@[simp] theorem modMem_mem (f : MemState → MemState) : (s.modMem f).mem = f s.mem := rfl
@[simp] theorem modMem_bell (f : MemState → MemState) : (s.modMem f).bell = s.bell := rfl
@[simp] theorem modMem_pair (f : MemState → MemState) : (s.modMem f).pair = s.pair := rfl
@[simp] theorem modMem_wire (f : MemState → MemState) : (s.modMem f).wire = s.wire := rfl
@[simp] theorem modMem_drawn (f : MemState → MemState) : (s.modMem f).drawn = s.drawn := rfl
@[simp] theorem modMem_pending (f : MemState → MemState) : (s.modMem f).pending = s.pending := rfl

@[simp] theorem modBell_air (f : BellState → BellState) : (s.modBell f).air = s.air := rfl
@[simp] theorem modBell_host (f : BellState → BellState) : (s.modBell f).host = s.host := rfl
@[simp] theorem modBell_fault (f : BellState → BellState) : (s.modBell f).fault = s.fault := rfl
@[simp] theorem modBell_log (f : BellState → BellState) : (s.modBell f).log = s.log := rfl
@[simp] theorem modBell_sys (f : BellState → BellState) : (s.modBell f).sys = s.sys := rfl
@[simp] theorem modBell_rf (f : BellState → BellState) : (s.modBell f).rf = s.rf := rfl
@[simp] theorem modBell_ce (f : BellState → BellState) : (s.modBell f).ce = s.ce := rfl
@[simp] theorem modBell_lg (f : BellState → BellState) : (s.modBell f).lg = s.lg := rfl
@[simp] theorem modBell_np (f : BellState → BellState) : (s.modBell f).np = s.np := rfl
@[simp] theorem modBell_hk (f : BellState → BellState) : (s.modBell f).hk = s.hk := rfl
@[simp] theorem modBell_cl (f : BellState → BellState) : (s.modBell f).cl = s.cl := rfl
@[simp] theorem modBell_ps (f : BellState → BellState) : (s.modBell f).ps = s.ps := rfl
@[simp] theorem modBell_fl (f : BellState → BellState) : (s.modBell f).fl = s.fl := rfl
@[simp] theorem modBell_dv (f : BellState → BellState) : (s.modBell f).dv = s.dv := rfl
@[simp] theorem modBell_mem (f : BellState → BellState) : (s.modBell f).mem = s.mem := rfl
@[simp] theorem modBell_bell (f : BellState → BellState) : (s.modBell f).bell = f s.bell := rfl
@[simp] theorem modBell_pair (f : BellState → BellState) : (s.modBell f).pair = s.pair := rfl
@[simp] theorem modBell_wire (f : BellState → BellState) : (s.modBell f).wire = s.wire := rfl
@[simp] theorem modBell_drawn (f : BellState → BellState) : (s.modBell f).drawn = s.drawn := rfl
@[simp] theorem modBell_pending (f : BellState → BellState) : (s.modBell f).pending = s.pending := rfl

@[simp] theorem modPair_air (f : PairState → PairState) : (s.modPair f).air = s.air := rfl
@[simp] theorem modPair_host (f : PairState → PairState) : (s.modPair f).host = s.host := rfl
@[simp] theorem modPair_fault (f : PairState → PairState) : (s.modPair f).fault = s.fault := rfl
@[simp] theorem modPair_log (f : PairState → PairState) : (s.modPair f).log = s.log := rfl
@[simp] theorem modPair_sys (f : PairState → PairState) : (s.modPair f).sys = s.sys := rfl
@[simp] theorem modPair_rf (f : PairState → PairState) : (s.modPair f).rf = s.rf := rfl
@[simp] theorem modPair_ce (f : PairState → PairState) : (s.modPair f).ce = s.ce := rfl
@[simp] theorem modPair_lg (f : PairState → PairState) : (s.modPair f).lg = s.lg := rfl
@[simp] theorem modPair_np (f : PairState → PairState) : (s.modPair f).np = s.np := rfl
@[simp] theorem modPair_hk (f : PairState → PairState) : (s.modPair f).hk = s.hk := rfl
@[simp] theorem modPair_cl (f : PairState → PairState) : (s.modPair f).cl = s.cl := rfl
@[simp] theorem modPair_ps (f : PairState → PairState) : (s.modPair f).ps = s.ps := rfl
@[simp] theorem modPair_fl (f : PairState → PairState) : (s.modPair f).fl = s.fl := rfl
@[simp] theorem modPair_dv (f : PairState → PairState) : (s.modPair f).dv = s.dv := rfl
@[simp] theorem modPair_mem (f : PairState → PairState) : (s.modPair f).mem = s.mem := rfl
@[simp] theorem modPair_bell (f : PairState → PairState) : (s.modPair f).bell = s.bell := rfl
@[simp] theorem modPair_pair (f : PairState → PairState) : (s.modPair f).pair = f s.pair := rfl
@[simp] theorem modPair_wire (f : PairState → PairState) : (s.modPair f).wire = s.wire := rfl
@[simp] theorem modPair_drawn (f : PairState → PairState) : (s.modPair f).drawn = s.drawn := rfl
@[simp] theorem modPair_pending (f : PairState → PairState) : (s.modPair f).pending = s.pending := rfl

end Sys2Proof.Machine
end

