-- ==== Sys2Proof/Laws/Mailbox.lean ====
section
/-! SUPPORT. What the mailbox protocol does with an accepted command (R421–R427): it runs, and its answer stands in its
mailbox. -/

namespace Sys2Proof.Machine

open Sys2Proof

theorem signalVector_eq (h : HostState) (k : Nat) : ∃ p o, signalVector h k = { h with msixPba := p, out := o } := by
  unfold signalVector
  split
  · exact ⟨_, _, rfl⟩
  · exact ⟨_, _, rfl⟩

/-- Signalling vectors changes the pending bits and what has left, nothing else. -/
theorem signalVectors_eq (h : HostState) (m : Word) : ∃ p o, signalVectors h m = { h with msixPba := p, out := o } := by
  unfold signalVectors
  have key : ∀ (l : List Nat) (x : HostState), ∃ p o,
      l.foldl (fun acc k => if m.getLsbD k then signalVector acc k else acc) x = { x with msixPba := p, out := o } := by
    intro l
    induction l with
    | nil => intro x; exact ⟨_, _, rfl⟩
    | cons a l ih =>
      intro x
      rw [List.foldl_cons]
      split
      · obtain ⟨p, o, e⟩ := signalVector_eq x a
        obtain ⟨p', o', e'⟩ := ih (signalVector x a)
        exact ⟨p', o', by rw [e', e]⟩
      · exact ih x
  exact key _ _

/-- Setting IRQ_STATUS bits changes IRQ_STATUS, the pending bits and what has left, nothing else. -/
theorem setIrqBits_eq (h : HostState) (m : Word) :
    ∃ p o, setIrqBits h m = { h with irqStatus := h.irqStatus ||| m, msixPba := p, out := o } := by
  unfold setIrqBits
  exact signalVectors_eq _ _

@[simp] theorem setIrqBits_mailboxes (h : HostState) (m : Word) : (setIrqBits h m).mailboxes = h.mailboxes := by
  obtain ⟨_, _, e⟩ := setIrqBits_eq h m; rw [e]
@[simp] theorem setIrqBits_order (h : HostState) (m : Word) : (setIrqBits h m).order = h.order := by
  obtain ⟨_, _, e⟩ := setIrqBits_eq h m; rw [e]
@[simp] theorem setIrqBits_overrun (h : HostState) (m : Word) : (setIrqBits h m).overrun = h.overrun := by
  obtain ⟨_, _, e⟩ := setIrqBits_eq h m; rw [e]
@[simp] theorem setIrqBits_irqEnable (h : HostState) (m : Word) : (setIrqBits h m).irqEnable = h.irqEnable := by
  obtain ⟨_, _, e⟩ := setIrqBits_eq h m; rw [e]
@[simp] theorem setIrqBits_irqNEnable (h : HostState) (m : Word) : (setIrqBits h m).irqNEnable = h.irqNEnable := by
  obtain ⟨_, _, e⟩ := setIrqBits_eq h m; rw [e]
@[simp] theorem setIrqBits_msixTable (h : HostState) (m : Word) : (setIrqBits h m).msixTable = h.msixTable := by
  obtain ⟨_, _, e⟩ := setIrqBits_eq h m; rw [e]
@[simp] theorem setIrqBits_ring (h : HostState) (m : Word) : (setIrqBits h m).ring = h.ring := by
  obtain ⟨_, _, e⟩ := setIrqBits_eq h m; rw [e]
@[simp] theorem setIrqBits_evtHead (h : HostState) (m : Word) : (setIrqBits h m).evtHead = h.evtHead := by
  obtain ⟨_, _, e⟩ := setIrqBits_eq h m; rw [e]
@[simp] theorem setIrqBits_evtAck (h : HostState) (m : Word) : (setIrqBits h m).evtAck = h.evtAck := by
  obtain ⟨_, _, e⟩ := setIrqBits_eq h m; rw [e]
@[simp] theorem setIrqBits_holdoff (h : HostState) (m : Word) : (setIrqBits h m).holdoff = h.holdoff := by
  obtain ⟨_, _, e⟩ := setIrqBits_eq h m; rw [e]
@[simp] theorem setIrqBits_threshold (h : HostState) (m : Word) : (setIrqBits h m).threshold = h.threshold := by
  obtain ⟨_, _, e⟩ := setIrqBits_eq h m; rw [e]
@[simp] theorem setIrqBits_holdStart (h : HostState) (m : Word) : (setIrqBits h m).holdStart = h.holdStart := by
  obtain ⟨_, _, e⟩ := setIrqBits_eq h m; rw [e]
@[simp] theorem setIrqBits_evtOverwritten (h : HostState) (m : Word) : (setIrqBits h m).evtOverwritten = h.evtOverwritten := by
  obtain ⟨_, _, e⟩ := setIrqBits_eq h m; rw [e]
@[simp] theorem setIrqBits_logCursor (h : HostState) (m : Word) : (setIrqBits h m).logCursor = h.logCursor := by
  obtain ⟨_, _, e⟩ := setIrqBits_eq h m; rw [e]
@[simp] theorem setIrqBits_capWinSlot (h : HostState) (m : Word) : (setIrqBits h m).capWinSlot = h.capWinSlot := by
  obtain ⟨_, _, e⟩ := setIrqBits_eq h m; rw [e]
@[simp] theorem setIrqBits_capWinPage (h : HostState) (m : Word) : (setIrqBits h m).capWinPage = h.capWinPage := by
  obtain ⟨_, _, e⟩ := setIrqBits_eq h m; rw [e]
@[simp] theorem setIrqBits_sitePins (h : HostState) (m : Word) : (setIrqBits h m).sitePins = h.sitePins := by
  obtain ⟨_, _, e⟩ := setIrqBits_eq h m; rw [e]
@[simp] theorem setIrqBits_siteLevel (h : HostState) (m : Word) : (setIrqBits h m).siteLevel = h.siteLevel := by
  obtain ⟨_, _, e⟩ := setIrqBits_eq h m; rw [e]
@[simp] theorem setIrqBits_siteRun (h : HostState) (m : Word) : (setIrqBits h m).siteRun = h.siteRun := by
  obtain ⟨_, _, e⟩ := setIrqBits_eq h m; rw [e]
@[simp] theorem setIrqBits_siteFresh (h : HostState) (m : Word) : (setIrqBits h m).siteFresh = h.siteFresh := by
  obtain ⟨_, _, e⟩ := setIrqBits_eq h m; rw [e]
@[simp] theorem setIrqBits_siteRise (h : HostState) (m : Word) : (setIrqBits h m).siteRise = h.siteRise := by
  obtain ⟨_, _, e⟩ := setIrqBits_eq h m; rw [e]
@[simp] theorem setIrqBits_siteFall (h : HostState) (m : Word) : (setIrqBits h m).siteFall = h.siteFall := by
  obtain ⟨_, _, e⟩ := setIrqBits_eq h m; rw [e]
@[simp] theorem setIrqBits_site (h : HostState) (m : Word) : (setIrqBits h m).site = h.site := by
  obtain ⟨_, _, e⟩ := setIrqBits_eq h m; rw [e]
@[simp] theorem setIrqBits_badAccess (h : HostState) (m : Word) : (setIrqBits h m).badAccess = h.badAccess := by
  obtain ⟨_, _, e⟩ := setIrqBits_eq h m; rw [e]
@[simp] theorem setIrqBits_sessions (h : HostState) (m : Word) : (setIrqBits h m).sessions = h.sessions := by
  obtain ⟨_, _, e⟩ := setIrqBits_eq h m; rw [e]
@[simp] theorem setIrqBits_usedSessions (h : HostState) (m : Word) : (setIrqBits h m).usedSessions = h.usedSessions := by
  obtain ⟨_, _, e⟩ := setIrqBits_eq h m; rw [e]
@[simp] theorem setIrqBits_paths (h : HostState) (m : Word) : (setIrqBits h m).paths = h.paths := by
  obtain ⟨_, _, e⟩ := setIrqBits_eq h m; rw [e]
@[simp] theorem setIrqBits_authFail (h : HostState) (m : Word) : (setIrqBits h m).authFail = h.authFail := by
  obtain ⟨_, _, e⟩ := setIrqBits_eq h m; rw [e]
@[simp] theorem setIrqBits_config (h : HostState) (m : Word) : (setIrqBits h m).config = h.config := by
  obtain ⟨_, _, e⟩ := setIrqBits_eq h m; rw [e]
@[simp] theorem setIrqBits_net (h : HostState) (m : Word) : (setIrqBits h m).net = h.net := by
  obtain ⟨_, _, e⟩ := setIrqBits_eq h m; rw [e]
@[simp] theorem setIrqBits_pcieUp (h : HostState) (m : Word) : (setIrqBits h m).pcieUp = h.pcieUp := by
  obtain ⟨_, _, e⟩ := setIrqBits_eq h m; rw [e]
@[simp] theorem setIrqBits_ethUp (h : HostState) (m : Word) : (setIrqBits h m).ethUp = h.ethUp := by
  obtain ⟨_, _, e⟩ := setIrqBits_eq h m; rw [e]
@[simp] theorem setIrqBits_ethMode (h : HostState) (m : Word) : (setIrqBits h m).ethMode = h.ethMode := by
  obtain ⟨_, _, e⟩ := setIrqBits_eq h m; rw [e]
@[simp] theorem setIrqBits_ethReject (h : HostState) (m : Word) : (setIrqBits h m).ethReject = h.ethReject := by
  obtain ⟨_, _, e⟩ := setIrqBits_eq h m; rw [e]
@[simp] theorem setIrqBits_ethResent (h : HostState) (m : Word) : (setIrqBits h m).ethResent = h.ethResent := by
  obtain ⟨_, _, e⟩ := setIrqBits_eq h m; rw [e]
@[simp] theorem setIrqBits_i2cPointer (h : HostState) (m : Word) : (setIrqBits h m).i2cPointer = h.i2cPointer := by
  obtain ⟨_, _, e⟩ := setIrqBits_eq h m; rw [e]
@[simp] theorem setIrqBits_heartbeat (h : HostState) (m : Word) : (setIrqBits h m).heartbeat = h.heartbeat := by
  obtain ⟨_, _, e⟩ := setIrqBits_eq h m; rw [e]
@[simp] theorem setIrqBits_shadows (h : HostState) (m : Word) : (setIrqBits h m).shadows = h.shadows := by
  obtain ⟨_, _, e⟩ := setIrqBits_eq h m; rw [e]
@[simp] theorem setIrqBits_chanShadow (h : HostState) (m : Word) : (setIrqBits h m).chanShadow = h.chanShadow := by
  obtain ⟨_, _, e⟩ := setIrqBits_eq h m; rw [e]
@[simp] theorem setIrqBits_internalReply (h : HostState) (m : Word) : (setIrqBits h m).internalReply = h.internalReply := by
  obtain ⟨_, _, e⟩ := setIrqBits_eq h m; rw [e]
@[simp] theorem setIrqBits_irqStatus (h : HostState) (m : Word) : (setIrqBits h m).irqStatus = h.irqStatus ||| m := by
  obtain ⟨_, _, e⟩ := setIrqBits_eq h m; rw [e]

@[simp] theorem postEvent_mailboxes (e : Event) (s : State) : (postEvent e s).host.mailboxes = s.host.mailboxes := by
  unfold postEvent
  simp only [modHost_host, apply_ite HostState.mailboxes, setIrqBits_mailboxes, ite_self]

@[simp] theorem complete_mailboxes (t : Ticket) (st : Status) (d : Nat) (s : State) :
    (complete t st d s).host.mailboxes = s.host.mailboxes := by
  unfold complete; simp

/-- A command row rings its mailbox with its command. -/
theorem exec_command {i : Instr} {c : CommandSpec} {r : HostRequest} (h : commandOf i = some (c, r)) (s : State) :
    exec i s = .next (submit c r s) := by
  cases i <;> first | (cases h; rfl) | cases h

/-- The mailbox that a response is written to holds it and is DONE. -/
theorem writeResponse_mailbox {n : Nat} {q : Req} {st : Status} {d : Nat} {p : List Byte} {s : State}
    (h : (s.host.mailboxes.get n).discard = false) :
    ((writeResponse n q st d p s).host.mailboxes.get n).state = .done ∧
    ((writeResponse n q st d p s).host.mailboxes.get n).response =
      { status := st.code, opcode := q.opcode, tag := q.tag, detail := d % 4294967296
        payload := if st = .ok ∨ st = .accepted then p else [] } := by
  unfold writeResponse
  simp only [h, Bool.false_eq_true, if_false]
  split <;> simp only [complete_mailboxes, modHost_host, setIrqBits_mailboxes, apply_ite HostState.mailboxes, ite_self,
    get_set_same, and_self]

/-- A mailbox command that its mailbox accepts runs, and is answered unless its response waits for hardware. -/
theorem submit_accepted {c : CommandSpec} {r : HostRequest} {s : State} (h : Accepts c r s) :
    submit c r s =
      if (c.effect (atStart c.opcode r s) (reqOf c.opcode r)).2.deferred
      then mirrorCommand (reqOf c.opcode r) (c.effect (atStart c.opcode r s) (reqOf c.opcode r)).1
      else deliver (reqOf c.opcode r) (c.effect (atStart c.opcode r s) (reqOf c.opcode r)).2.status
        (c.effect (atStart c.opcode r s) (reqOf c.opcode r)).2.detail
        (c.effect (atStart c.opcode r s) (reqOf c.opcode r)).2.payload
        (mirrorCommand (reqOf c.opcode r) (c.effect (atStart c.opcode r s) (reqOf c.opcode r)).1) := by
  obtain ⟨⟨h1, h2, h3, -⟩, h5⟩ := h
  unfold submit
  rw [h3, h1, h2]
  simp only [Bool.true_eq_false, if_false, ne_eq, not_true_eq_false, or_self]
  unfold runCommand
  have e : noteStart (reqOf c.opcode r) (unregister r.mailbox (capture c.opcode r s)) = atStart c.opcode r s := rfl
  simp only [e, h5]

/-- Validation starts from a state that differs in the host part only. -/
theorem atStart_only {m : Nat} {o : Nat} {r : HostRequest} {s0 s : State} (h : Only m s0 s) (k : 2 &&& m = 2) :
    Only m s0 (atStart o r s) := noteStart_only (unregister_only (capture_only h k) k) k

@[simp] theorem atStart_air (o : Nat) (r : HostRequest) (s : State) : (atStart o r s).air = s.air :=
  atStart_only (Only.refl 2 s) rfl .air rfl
@[simp] theorem atStart_fault (o : Nat) (r : HostRequest) (s : State) : (atStart o r s).fault = s.fault :=
  atStart_only (Only.refl 2 s) rfl .fault rfl
@[simp] theorem atStart_log (o : Nat) (r : HostRequest) (s : State) : (atStart o r s).log = s.log :=
  atStart_only (Only.refl 2 s) rfl .log rfl
@[simp] theorem atStart_sys (o : Nat) (r : HostRequest) (s : State) : (atStart o r s).sys = s.sys :=
  atStart_only (Only.refl 2 s) rfl .sys rfl
@[simp] theorem atStart_rf (o : Nat) (r : HostRequest) (s : State) : (atStart o r s).rf = s.rf :=
  atStart_only (Only.refl 2 s) rfl .rf rfl
@[simp] theorem atStart_ce (o : Nat) (r : HostRequest) (s : State) : (atStart o r s).ce = s.ce :=
  atStart_only (Only.refl 2 s) rfl .ce rfl
@[simp] theorem atStart_lg (o : Nat) (r : HostRequest) (s : State) : (atStart o r s).lg = s.lg :=
  atStart_only (Only.refl 2 s) rfl .lg rfl
@[simp] theorem atStart_np (o : Nat) (r : HostRequest) (s : State) : (atStart o r s).np = s.np :=
  atStart_only (Only.refl 2 s) rfl .np rfl
@[simp] theorem atStart_hk (o : Nat) (r : HostRequest) (s : State) : (atStart o r s).hk = s.hk :=
  atStart_only (Only.refl 2 s) rfl .hk rfl
@[simp] theorem atStart_cl (o : Nat) (r : HostRequest) (s : State) : (atStart o r s).cl = s.cl :=
  atStart_only (Only.refl 2 s) rfl .cl rfl
@[simp] theorem atStart_ps (o : Nat) (r : HostRequest) (s : State) : (atStart o r s).ps = s.ps :=
  atStart_only (Only.refl 2 s) rfl .ps rfl
@[simp] theorem atStart_fl (o : Nat) (r : HostRequest) (s : State) : (atStart o r s).fl = s.fl :=
  atStart_only (Only.refl 2 s) rfl .fl rfl
@[simp] theorem atStart_dv (o : Nat) (r : HostRequest) (s : State) : (atStart o r s).dv = s.dv :=
  atStart_only (Only.refl 2 s) rfl .dv rfl
@[simp] theorem atStart_mem (o : Nat) (r : HostRequest) (s : State) : (atStart o r s).mem = s.mem :=
  atStart_only (Only.refl 2 s) rfl .mem rfl
@[simp] theorem atStart_bell (o : Nat) (r : HostRequest) (s : State) : (atStart o r s).bell = s.bell :=
  atStart_only (Only.refl 2 s) rfl .bell rfl
@[simp] theorem atStart_pair (o : Nat) (r : HostRequest) (s : State) : (atStart o r s).pair = s.pair :=
  atStart_only (Only.refl 2 s) rfl .pair rfl
@[simp] theorem atStart_wire (o : Nat) (r : HostRequest) (s : State) : (atStart o r s).wire = s.wire :=
  atStart_only (Only.refl 2 s) rfl .wire rfl
@[simp] theorem atStart_drawn (o : Nat) (r : HostRequest) (s : State) : (atStart o r s).drawn = s.drawn :=
  atStart_only (Only.refl 2 s) rfl .drawn rfl
@[simp] theorem atStart_pending (o : Nat) (r : HostRequest) (s : State) : (atStart o r s).pending = s.pending :=
  atStart_only (Only.refl 2 s) rfl .pending rfl

/-- After an accepted command every part but the host's and the pair's is what the command's effect made it. -/
theorem submit_after {c : CommandSpec} {r : HostRequest} {s : State} (h : Accepts c r s) :
    Only 65538 (c.effect (atStart c.opcode r s) (reqOf c.opcode r)).1 (submit c r s) := by
  rw [submit_accepted h]
  have h2 := mirrorCommand_only (x0 := reqOf c.opcode r) (Only.refl 65538 (c.effect (atStart c.opcode r s) (reqOf c.opcode r)).1) rfl
  split
  · exact h2
  · exact deliver_only h2 rfl

/-- An accepted command whose effect leaves the host part alone and waits for nothing is answered with its reply. -/
theorem submit_answered {c : CommandSpec} {r : HostRequest} {s : State} {m : Nat} (h : Accepts c r s) (hc : SpecOnly m c)
    (k : m.testBit 1 = false) (hd : (c.effect (atStart c.opcode r s) (reqOf c.opcode r)).2.deferred = false) :
    Answered c.opcode r (c.effect (atStart c.opcode r s) (reqOf c.opcode r)).2.status (submit c r s) ∧
    answerBytes r (submit c r s) =
      (if (c.effect (atStart c.opcode r s) (reqOf c.opcode r)).2.status = .ok ∨
          (c.effect (atStart c.opcode r s) (reqOf c.opcode r)).2.status = .accepted
       then (c.effect (atStart c.opcode r s) (reqOf c.opcode r)).2.payload else []) := by
  have e1 : (mirrorCommand (reqOf c.opcode r) (c.effect (atStart c.opcode r s) (reqOf c.opcode r)).1).host = (atStart c.opcode r s).host :=
    (mirrorCommand_only (x0 := reqOf c.opcode r) (Only.refl 65536 _) rfl .host rfl).trans (hc.1 _ _ .host k)
  have e2 : ((atStart c.opcode r s).host.mailboxes.get r.mailbox).discard = false := by
    have hd := h.1.2.2.2
    unfold atStart noteStart unregister capture reqOf
    simp only [modHost_host]
    split <;> simp [hd]
  have e3 := writeResponse_mailbox (n := r.mailbox) (q := reqOf c.opcode r)
    (st := (c.effect (atStart c.opcode r s) (reqOf c.opcode r)).2.status)
    (d := (c.effect (atStart c.opcode r s) (reqOf c.opcode r)).2.detail)
    (p := (c.effect (atStart c.opcode r s) (reqOf c.opcode r)).2.payload)
    (s := mirrorCommand (reqOf c.opcode r) (c.effect (atStart c.opcode r s) (reqOf c.opcode r)).1) (by rw [e1]; exact e2)
  have e4 : submit c r s = writeResponse r.mailbox (reqOf c.opcode r) (c.effect (atStart c.opcode r s) (reqOf c.opcode r)).2.status
      (c.effect (atStart c.opcode r s) (reqOf c.opcode r)).2.detail (c.effect (atStart c.opcode r s) (reqOf c.opcode r)).2.payload
      (mirrorCommand (reqOf c.opcode r) (c.effect (atStart c.opcode r s) (reqOf c.opcode r)).1) := by
    rw [submit_accepted h, hd]; rfl
  rw [e4]
  refine ⟨⟨e3.1, ?_, ?_, ?_⟩, ?_⟩
  · rw [e3.2]
  · rw [e3.2]; rfl
  · rw [e3.2]; rfl
  · unfold answerBytes; rw [e3.2]

end Sys2Proof.Machine
end

