-- ==== Sys2Proof/Laws/Parts.lean ====
section
/-! SUPPORT. For the shared operations: every part of the state that an operation leaves alone, as a rewriting rule. -/

namespace Sys2Proof.Machine

open Sys2Proof

@[simp] theorem refreshGains_keeps_air {s : State} : (refreshGains s).air = s.air :=
  refreshGains_only (Only.refl 452 s) rfl .air rfl
@[simp] theorem refreshGains_keeps_host {s : State} : (refreshGains s).host = s.host :=
  refreshGains_only (Only.refl 452 s) rfl .host rfl
@[simp] theorem refreshGains_keeps_log {s : State} : (refreshGains s).log = s.log :=
  refreshGains_only (Only.refl 452 s) rfl .log rfl
@[simp] theorem refreshGains_keeps_sys {s : State} : (refreshGains s).sys = s.sys :=
  refreshGains_only (Only.refl 452 s) rfl .sys rfl
@[simp] theorem refreshGains_keeps_rf {s : State} : (refreshGains s).rf = s.rf :=
  refreshGains_only (Only.refl 452 s) rfl .rf rfl
@[simp] theorem refreshGains_keeps_hk {s : State} : (refreshGains s).hk = s.hk :=
  refreshGains_only (Only.refl 452 s) rfl .hk rfl
@[simp] theorem refreshGains_keeps_cl {s : State} : (refreshGains s).cl = s.cl :=
  refreshGains_only (Only.refl 452 s) rfl .cl rfl
@[simp] theorem refreshGains_keeps_ps {s : State} : (refreshGains s).ps = s.ps :=
  refreshGains_only (Only.refl 452 s) rfl .ps rfl
@[simp] theorem refreshGains_keeps_fl {s : State} : (refreshGains s).fl = s.fl :=
  refreshGains_only (Only.refl 452 s) rfl .fl rfl
@[simp] theorem refreshGains_keeps_dv {s : State} : (refreshGains s).dv = s.dv :=
  refreshGains_only (Only.refl 452 s) rfl .dv rfl
@[simp] theorem refreshGains_keeps_mem {s : State} : (refreshGains s).mem = s.mem :=
  refreshGains_only (Only.refl 452 s) rfl .mem rfl
@[simp] theorem refreshGains_keeps_bell {s : State} : (refreshGains s).bell = s.bell :=
  refreshGains_only (Only.refl 452 s) rfl .bell rfl
@[simp] theorem refreshGains_keeps_pair {s : State} : (refreshGains s).pair = s.pair :=
  refreshGains_only (Only.refl 452 s) rfl .pair rfl
@[simp] theorem refreshGains_keeps_wire {s : State} : (refreshGains s).wire = s.wire :=
  refreshGains_only (Only.refl 452 s) rfl .wire rfl
@[simp] theorem refreshGains_keeps_drawn {s : State} : (refreshGains s).drawn = s.drawn :=
  refreshGains_only (Only.refl 452 s) rfl .drawn rfl
@[simp] theorem refreshGains_keeps_pending {s : State} : (refreshGains s).pending = s.pending :=
  refreshGains_only (Only.refl 452 s) rfl .pending rfl
@[simp] theorem shareBackoff_keeps_air {s : State} : (shareBackoff s).air = s.air :=
  shareBackoff_only (Only.refl 452 s) rfl .air rfl
@[simp] theorem shareBackoff_keeps_host {s : State} : (shareBackoff s).host = s.host :=
  shareBackoff_only (Only.refl 452 s) rfl .host rfl
@[simp] theorem shareBackoff_keeps_log {s : State} : (shareBackoff s).log = s.log :=
  shareBackoff_only (Only.refl 452 s) rfl .log rfl
@[simp] theorem shareBackoff_keeps_sys {s : State} : (shareBackoff s).sys = s.sys :=
  shareBackoff_only (Only.refl 452 s) rfl .sys rfl
@[simp] theorem shareBackoff_keeps_rf {s : State} : (shareBackoff s).rf = s.rf :=
  shareBackoff_only (Only.refl 452 s) rfl .rf rfl
@[simp] theorem shareBackoff_keeps_hk {s : State} : (shareBackoff s).hk = s.hk :=
  shareBackoff_only (Only.refl 452 s) rfl .hk rfl
@[simp] theorem shareBackoff_keeps_cl {s : State} : (shareBackoff s).cl = s.cl :=
  shareBackoff_only (Only.refl 452 s) rfl .cl rfl
@[simp] theorem shareBackoff_keeps_ps {s : State} : (shareBackoff s).ps = s.ps :=
  shareBackoff_only (Only.refl 452 s) rfl .ps rfl
@[simp] theorem shareBackoff_keeps_fl {s : State} : (shareBackoff s).fl = s.fl :=
  shareBackoff_only (Only.refl 452 s) rfl .fl rfl
@[simp] theorem shareBackoff_keeps_dv {s : State} : (shareBackoff s).dv = s.dv :=
  shareBackoff_only (Only.refl 452 s) rfl .dv rfl
@[simp] theorem shareBackoff_keeps_mem {s : State} : (shareBackoff s).mem = s.mem :=
  shareBackoff_only (Only.refl 452 s) rfl .mem rfl
@[simp] theorem shareBackoff_keeps_bell {s : State} : (shareBackoff s).bell = s.bell :=
  shareBackoff_only (Only.refl 452 s) rfl .bell rfl
@[simp] theorem shareBackoff_keeps_pair {s : State} : (shareBackoff s).pair = s.pair :=
  shareBackoff_only (Only.refl 452 s) rfl .pair rfl
@[simp] theorem shareBackoff_keeps_wire {s : State} : (shareBackoff s).wire = s.wire :=
  shareBackoff_only (Only.refl 452 s) rfl .wire rfl
@[simp] theorem shareBackoff_keeps_drawn {s : State} : (shareBackoff s).drawn = s.drawn :=
  shareBackoff_only (Only.refl 452 s) rfl .drawn rfl
@[simp] theorem shareBackoff_keeps_pending {s : State} : (shareBackoff s).pending = s.pending :=
  shareBackoff_only (Only.refl 452 s) rfl .pending rfl
@[simp] theorem endFault_keeps_air {x0 : Nat} {x1 : UnitId} {s : State} : (endFault x0 x1 s).air = s.air :=
  endFault_only (Only.refl 4 s) rfl .air rfl
@[simp] theorem endFault_keeps_host {x0 : Nat} {x1 : UnitId} {s : State} : (endFault x0 x1 s).host = s.host :=
  endFault_only (Only.refl 4 s) rfl .host rfl
@[simp] theorem endFault_keeps_log {x0 : Nat} {x1 : UnitId} {s : State} : (endFault x0 x1 s).log = s.log :=
  endFault_only (Only.refl 4 s) rfl .log rfl
@[simp] theorem endFault_keeps_sys {x0 : Nat} {x1 : UnitId} {s : State} : (endFault x0 x1 s).sys = s.sys :=
  endFault_only (Only.refl 4 s) rfl .sys rfl
@[simp] theorem endFault_keeps_rf {x0 : Nat} {x1 : UnitId} {s : State} : (endFault x0 x1 s).rf = s.rf :=
  endFault_only (Only.refl 4 s) rfl .rf rfl
@[simp] theorem endFault_keeps_ce {x0 : Nat} {x1 : UnitId} {s : State} : (endFault x0 x1 s).ce = s.ce :=
  endFault_only (Only.refl 4 s) rfl .ce rfl
@[simp] theorem endFault_keeps_lg {x0 : Nat} {x1 : UnitId} {s : State} : (endFault x0 x1 s).lg = s.lg :=
  endFault_only (Only.refl 4 s) rfl .lg rfl
@[simp] theorem endFault_keeps_np {x0 : Nat} {x1 : UnitId} {s : State} : (endFault x0 x1 s).np = s.np :=
  endFault_only (Only.refl 4 s) rfl .np rfl
@[simp] theorem endFault_keeps_hk {x0 : Nat} {x1 : UnitId} {s : State} : (endFault x0 x1 s).hk = s.hk :=
  endFault_only (Only.refl 4 s) rfl .hk rfl
@[simp] theorem endFault_keeps_cl {x0 : Nat} {x1 : UnitId} {s : State} : (endFault x0 x1 s).cl = s.cl :=
  endFault_only (Only.refl 4 s) rfl .cl rfl
@[simp] theorem endFault_keeps_ps {x0 : Nat} {x1 : UnitId} {s : State} : (endFault x0 x1 s).ps = s.ps :=
  endFault_only (Only.refl 4 s) rfl .ps rfl
@[simp] theorem endFault_keeps_fl {x0 : Nat} {x1 : UnitId} {s : State} : (endFault x0 x1 s).fl = s.fl :=
  endFault_only (Only.refl 4 s) rfl .fl rfl
@[simp] theorem endFault_keeps_dv {x0 : Nat} {x1 : UnitId} {s : State} : (endFault x0 x1 s).dv = s.dv :=
  endFault_only (Only.refl 4 s) rfl .dv rfl
@[simp] theorem endFault_keeps_mem {x0 : Nat} {x1 : UnitId} {s : State} : (endFault x0 x1 s).mem = s.mem :=
  endFault_only (Only.refl 4 s) rfl .mem rfl
@[simp] theorem endFault_keeps_bell {x0 : Nat} {x1 : UnitId} {s : State} : (endFault x0 x1 s).bell = s.bell :=
  endFault_only (Only.refl 4 s) rfl .bell rfl
@[simp] theorem endFault_keeps_pair {x0 : Nat} {x1 : UnitId} {s : State} : (endFault x0 x1 s).pair = s.pair :=
  endFault_only (Only.refl 4 s) rfl .pair rfl
@[simp] theorem endFault_keeps_wire {x0 : Nat} {x1 : UnitId} {s : State} : (endFault x0 x1 s).wire = s.wire :=
  endFault_only (Only.refl 4 s) rfl .wire rfl
@[simp] theorem endFault_keeps_drawn {x0 : Nat} {x1 : UnitId} {s : State} : (endFault x0 x1 s).drawn = s.drawn :=
  endFault_only (Only.refl 4 s) rfl .drawn rfl
@[simp] theorem endFault_keeps_pending {x0 : Nat} {x1 : UnitId} {s : State} : (endFault x0 x1 s).pending = s.pending :=
  endFault_only (Only.refl 4 s) rfl .pending rfl
@[simp] theorem raiseFault_keeps_air {x0 : Raise} {s : State} : (raiseFault x0 s).air = s.air :=
  raiseFault_only (Only.refl 4 s) rfl .air rfl
@[simp] theorem raiseFault_keeps_host {x0 : Raise} {s : State} : (raiseFault x0 s).host = s.host :=
  raiseFault_only (Only.refl 4 s) rfl .host rfl
@[simp] theorem raiseFault_keeps_log {x0 : Raise} {s : State} : (raiseFault x0 s).log = s.log :=
  raiseFault_only (Only.refl 4 s) rfl .log rfl
@[simp] theorem raiseFault_keeps_sys {x0 : Raise} {s : State} : (raiseFault x0 s).sys = s.sys :=
  raiseFault_only (Only.refl 4 s) rfl .sys rfl
@[simp] theorem raiseFault_keeps_rf {x0 : Raise} {s : State} : (raiseFault x0 s).rf = s.rf :=
  raiseFault_only (Only.refl 4 s) rfl .rf rfl
@[simp] theorem raiseFault_keeps_ce {x0 : Raise} {s : State} : (raiseFault x0 s).ce = s.ce :=
  raiseFault_only (Only.refl 4 s) rfl .ce rfl
@[simp] theorem raiseFault_keeps_lg {x0 : Raise} {s : State} : (raiseFault x0 s).lg = s.lg :=
  raiseFault_only (Only.refl 4 s) rfl .lg rfl
@[simp] theorem raiseFault_keeps_np {x0 : Raise} {s : State} : (raiseFault x0 s).np = s.np :=
  raiseFault_only (Only.refl 4 s) rfl .np rfl
@[simp] theorem raiseFault_keeps_hk {x0 : Raise} {s : State} : (raiseFault x0 s).hk = s.hk :=
  raiseFault_only (Only.refl 4 s) rfl .hk rfl
@[simp] theorem raiseFault_keeps_cl {x0 : Raise} {s : State} : (raiseFault x0 s).cl = s.cl :=
  raiseFault_only (Only.refl 4 s) rfl .cl rfl
@[simp] theorem raiseFault_keeps_ps {x0 : Raise} {s : State} : (raiseFault x0 s).ps = s.ps :=
  raiseFault_only (Only.refl 4 s) rfl .ps rfl
@[simp] theorem raiseFault_keeps_fl {x0 : Raise} {s : State} : (raiseFault x0 s).fl = s.fl :=
  raiseFault_only (Only.refl 4 s) rfl .fl rfl
@[simp] theorem raiseFault_keeps_dv {x0 : Raise} {s : State} : (raiseFault x0 s).dv = s.dv :=
  raiseFault_only (Only.refl 4 s) rfl .dv rfl
@[simp] theorem raiseFault_keeps_mem {x0 : Raise} {s : State} : (raiseFault x0 s).mem = s.mem :=
  raiseFault_only (Only.refl 4 s) rfl .mem rfl
@[simp] theorem raiseFault_keeps_bell {x0 : Raise} {s : State} : (raiseFault x0 s).bell = s.bell :=
  raiseFault_only (Only.refl 4 s) rfl .bell rfl
@[simp] theorem raiseFault_keeps_pair {x0 : Raise} {s : State} : (raiseFault x0 s).pair = s.pair :=
  raiseFault_only (Only.refl 4 s) rfl .pair rfl
@[simp] theorem raiseFault_keeps_wire {x0 : Raise} {s : State} : (raiseFault x0 s).wire = s.wire :=
  raiseFault_only (Only.refl 4 s) rfl .wire rfl
@[simp] theorem raiseFault_keeps_drawn {x0 : Raise} {s : State} : (raiseFault x0 s).drawn = s.drawn :=
  raiseFault_only (Only.refl 4 s) rfl .drawn rfl
@[simp] theorem raiseFault_keeps_pending {x0 : Raise} {s : State} : (raiseFault x0 s).pending = s.pending :=
  raiseFault_only (Only.refl 4 s) rfl .pending rfl
@[simp] theorem raiseLevel_keeps_air {x0 : Raise} {s : State} : (raiseLevel x0 s).air = s.air :=
  raiseLevel_only (Only.refl 4 s) rfl .air rfl
@[simp] theorem raiseLevel_keeps_host {x0 : Raise} {s : State} : (raiseLevel x0 s).host = s.host :=
  raiseLevel_only (Only.refl 4 s) rfl .host rfl
@[simp] theorem raiseLevel_keeps_log {x0 : Raise} {s : State} : (raiseLevel x0 s).log = s.log :=
  raiseLevel_only (Only.refl 4 s) rfl .log rfl
@[simp] theorem raiseLevel_keeps_sys {x0 : Raise} {s : State} : (raiseLevel x0 s).sys = s.sys :=
  raiseLevel_only (Only.refl 4 s) rfl .sys rfl
@[simp] theorem raiseLevel_keeps_rf {x0 : Raise} {s : State} : (raiseLevel x0 s).rf = s.rf :=
  raiseLevel_only (Only.refl 4 s) rfl .rf rfl
@[simp] theorem raiseLevel_keeps_ce {x0 : Raise} {s : State} : (raiseLevel x0 s).ce = s.ce :=
  raiseLevel_only (Only.refl 4 s) rfl .ce rfl
@[simp] theorem raiseLevel_keeps_lg {x0 : Raise} {s : State} : (raiseLevel x0 s).lg = s.lg :=
  raiseLevel_only (Only.refl 4 s) rfl .lg rfl
@[simp] theorem raiseLevel_keeps_np {x0 : Raise} {s : State} : (raiseLevel x0 s).np = s.np :=
  raiseLevel_only (Only.refl 4 s) rfl .np rfl
@[simp] theorem raiseLevel_keeps_hk {x0 : Raise} {s : State} : (raiseLevel x0 s).hk = s.hk :=
  raiseLevel_only (Only.refl 4 s) rfl .hk rfl
@[simp] theorem raiseLevel_keeps_cl {x0 : Raise} {s : State} : (raiseLevel x0 s).cl = s.cl :=
  raiseLevel_only (Only.refl 4 s) rfl .cl rfl
@[simp] theorem raiseLevel_keeps_ps {x0 : Raise} {s : State} : (raiseLevel x0 s).ps = s.ps :=
  raiseLevel_only (Only.refl 4 s) rfl .ps rfl
@[simp] theorem raiseLevel_keeps_fl {x0 : Raise} {s : State} : (raiseLevel x0 s).fl = s.fl :=
  raiseLevel_only (Only.refl 4 s) rfl .fl rfl
@[simp] theorem raiseLevel_keeps_dv {x0 : Raise} {s : State} : (raiseLevel x0 s).dv = s.dv :=
  raiseLevel_only (Only.refl 4 s) rfl .dv rfl
@[simp] theorem raiseLevel_keeps_mem {x0 : Raise} {s : State} : (raiseLevel x0 s).mem = s.mem :=
  raiseLevel_only (Only.refl 4 s) rfl .mem rfl
@[simp] theorem raiseLevel_keeps_bell {x0 : Raise} {s : State} : (raiseLevel x0 s).bell = s.bell :=
  raiseLevel_only (Only.refl 4 s) rfl .bell rfl
@[simp] theorem raiseLevel_keeps_pair {x0 : Raise} {s : State} : (raiseLevel x0 s).pair = s.pair :=
  raiseLevel_only (Only.refl 4 s) rfl .pair rfl
@[simp] theorem raiseLevel_keeps_wire {x0 : Raise} {s : State} : (raiseLevel x0 s).wire = s.wire :=
  raiseLevel_only (Only.refl 4 s) rfl .wire rfl
@[simp] theorem raiseLevel_keeps_drawn {x0 : Raise} {s : State} : (raiseLevel x0 s).drawn = s.drawn :=
  raiseLevel_only (Only.refl 4 s) rfl .drawn rfl
@[simp] theorem raiseLevel_keeps_pending {x0 : Raise} {s : State} : (raiseLevel x0 s).pending = s.pending :=
  raiseLevel_only (Only.refl 4 s) rfl .pending rfl
@[simp] theorem raiseMoment_keeps_air {x0 : Raise} {s : State} : (raiseMoment x0 s).air = s.air :=
  raiseMoment_only (Only.refl 4 s) rfl .air rfl
@[simp] theorem raiseMoment_keeps_host {x0 : Raise} {s : State} : (raiseMoment x0 s).host = s.host :=
  raiseMoment_only (Only.refl 4 s) rfl .host rfl
@[simp] theorem raiseMoment_keeps_log {x0 : Raise} {s : State} : (raiseMoment x0 s).log = s.log :=
  raiseMoment_only (Only.refl 4 s) rfl .log rfl
@[simp] theorem raiseMoment_keeps_sys {x0 : Raise} {s : State} : (raiseMoment x0 s).sys = s.sys :=
  raiseMoment_only (Only.refl 4 s) rfl .sys rfl
@[simp] theorem raiseMoment_keeps_rf {x0 : Raise} {s : State} : (raiseMoment x0 s).rf = s.rf :=
  raiseMoment_only (Only.refl 4 s) rfl .rf rfl
@[simp] theorem raiseMoment_keeps_ce {x0 : Raise} {s : State} : (raiseMoment x0 s).ce = s.ce :=
  raiseMoment_only (Only.refl 4 s) rfl .ce rfl
@[simp] theorem raiseMoment_keeps_lg {x0 : Raise} {s : State} : (raiseMoment x0 s).lg = s.lg :=
  raiseMoment_only (Only.refl 4 s) rfl .lg rfl
@[simp] theorem raiseMoment_keeps_np {x0 : Raise} {s : State} : (raiseMoment x0 s).np = s.np :=
  raiseMoment_only (Only.refl 4 s) rfl .np rfl
@[simp] theorem raiseMoment_keeps_hk {x0 : Raise} {s : State} : (raiseMoment x0 s).hk = s.hk :=
  raiseMoment_only (Only.refl 4 s) rfl .hk rfl
@[simp] theorem raiseMoment_keeps_cl {x0 : Raise} {s : State} : (raiseMoment x0 s).cl = s.cl :=
  raiseMoment_only (Only.refl 4 s) rfl .cl rfl
@[simp] theorem raiseMoment_keeps_ps {x0 : Raise} {s : State} : (raiseMoment x0 s).ps = s.ps :=
  raiseMoment_only (Only.refl 4 s) rfl .ps rfl
@[simp] theorem raiseMoment_keeps_fl {x0 : Raise} {s : State} : (raiseMoment x0 s).fl = s.fl :=
  raiseMoment_only (Only.refl 4 s) rfl .fl rfl
@[simp] theorem raiseMoment_keeps_dv {x0 : Raise} {s : State} : (raiseMoment x0 s).dv = s.dv :=
  raiseMoment_only (Only.refl 4 s) rfl .dv rfl
@[simp] theorem raiseMoment_keeps_mem {x0 : Raise} {s : State} : (raiseMoment x0 s).mem = s.mem :=
  raiseMoment_only (Only.refl 4 s) rfl .mem rfl
@[simp] theorem raiseMoment_keeps_bell {x0 : Raise} {s : State} : (raiseMoment x0 s).bell = s.bell :=
  raiseMoment_only (Only.refl 4 s) rfl .bell rfl
@[simp] theorem raiseMoment_keeps_pair {x0 : Raise} {s : State} : (raiseMoment x0 s).pair = s.pair :=
  raiseMoment_only (Only.refl 4 s) rfl .pair rfl
@[simp] theorem raiseMoment_keeps_wire {x0 : Raise} {s : State} : (raiseMoment x0 s).wire = s.wire :=
  raiseMoment_only (Only.refl 4 s) rfl .wire rfl
@[simp] theorem raiseMoment_keeps_drawn {x0 : Raise} {s : State} : (raiseMoment x0 s).drawn = s.drawn :=
  raiseMoment_only (Only.refl 4 s) rfl .drawn rfl
@[simp] theorem raiseMoment_keeps_pending {x0 : Raise} {s : State} : (raiseMoment x0 s).pending = s.pending :=
  raiseMoment_only (Only.refl 4 s) rfl .pending rfl
@[simp] theorem postEvent_keeps_air {x0 : Event} {s : State} : (postEvent x0 s).air = s.air :=
  postEvent_only (Only.refl 2 s) rfl .air rfl
@[simp] theorem postEvent_keeps_fault {x0 : Event} {s : State} : (postEvent x0 s).fault = s.fault :=
  postEvent_only (Only.refl 2 s) rfl .fault rfl
@[simp] theorem postEvent_keeps_log {x0 : Event} {s : State} : (postEvent x0 s).log = s.log :=
  postEvent_only (Only.refl 2 s) rfl .log rfl
@[simp] theorem postEvent_keeps_sys {x0 : Event} {s : State} : (postEvent x0 s).sys = s.sys :=
  postEvent_only (Only.refl 2 s) rfl .sys rfl
@[simp] theorem postEvent_keeps_rf {x0 : Event} {s : State} : (postEvent x0 s).rf = s.rf :=
  postEvent_only (Only.refl 2 s) rfl .rf rfl
@[simp] theorem postEvent_keeps_ce {x0 : Event} {s : State} : (postEvent x0 s).ce = s.ce :=
  postEvent_only (Only.refl 2 s) rfl .ce rfl
@[simp] theorem postEvent_keeps_lg {x0 : Event} {s : State} : (postEvent x0 s).lg = s.lg :=
  postEvent_only (Only.refl 2 s) rfl .lg rfl
@[simp] theorem postEvent_keeps_np {x0 : Event} {s : State} : (postEvent x0 s).np = s.np :=
  postEvent_only (Only.refl 2 s) rfl .np rfl
@[simp] theorem postEvent_keeps_hk {x0 : Event} {s : State} : (postEvent x0 s).hk = s.hk :=
  postEvent_only (Only.refl 2 s) rfl .hk rfl
@[simp] theorem postEvent_keeps_cl {x0 : Event} {s : State} : (postEvent x0 s).cl = s.cl :=
  postEvent_only (Only.refl 2 s) rfl .cl rfl
@[simp] theorem postEvent_keeps_ps {x0 : Event} {s : State} : (postEvent x0 s).ps = s.ps :=
  postEvent_only (Only.refl 2 s) rfl .ps rfl
@[simp] theorem postEvent_keeps_fl {x0 : Event} {s : State} : (postEvent x0 s).fl = s.fl :=
  postEvent_only (Only.refl 2 s) rfl .fl rfl
@[simp] theorem postEvent_keeps_dv {x0 : Event} {s : State} : (postEvent x0 s).dv = s.dv :=
  postEvent_only (Only.refl 2 s) rfl .dv rfl
@[simp] theorem postEvent_keeps_mem {x0 : Event} {s : State} : (postEvent x0 s).mem = s.mem :=
  postEvent_only (Only.refl 2 s) rfl .mem rfl
@[simp] theorem postEvent_keeps_bell {x0 : Event} {s : State} : (postEvent x0 s).bell = s.bell :=
  postEvent_only (Only.refl 2 s) rfl .bell rfl
@[simp] theorem postEvent_keeps_pair {x0 : Event} {s : State} : (postEvent x0 s).pair = s.pair :=
  postEvent_only (Only.refl 2 s) rfl .pair rfl
@[simp] theorem postEvent_keeps_wire {x0 : Event} {s : State} : (postEvent x0 s).wire = s.wire :=
  postEvent_only (Only.refl 2 s) rfl .wire rfl
@[simp] theorem postEvent_keeps_drawn {x0 : Event} {s : State} : (postEvent x0 s).drawn = s.drawn :=
  postEvent_only (Only.refl 2 s) rfl .drawn rfl
@[simp] theorem postEvent_keeps_pending {x0 : Event} {s : State} : (postEvent x0 s).pending = s.pending :=
  postEvent_only (Only.refl 2 s) rfl .pending rfl
@[simp] theorem postNotice_keeps_air {x0 : Nat} {x1 : Nat} {x2 : Nat} {s : State} : (postNotice x0 x1 x2 s).air = s.air :=
  postNotice_only (Only.refl 2 s) rfl .air rfl
@[simp] theorem postNotice_keeps_fault {x0 : Nat} {x1 : Nat} {x2 : Nat} {s : State} : (postNotice x0 x1 x2 s).fault = s.fault :=
  postNotice_only (Only.refl 2 s) rfl .fault rfl
@[simp] theorem postNotice_keeps_log {x0 : Nat} {x1 : Nat} {x2 : Nat} {s : State} : (postNotice x0 x1 x2 s).log = s.log :=
  postNotice_only (Only.refl 2 s) rfl .log rfl
@[simp] theorem postNotice_keeps_sys {x0 : Nat} {x1 : Nat} {x2 : Nat} {s : State} : (postNotice x0 x1 x2 s).sys = s.sys :=
  postNotice_only (Only.refl 2 s) rfl .sys rfl
@[simp] theorem postNotice_keeps_rf {x0 : Nat} {x1 : Nat} {x2 : Nat} {s : State} : (postNotice x0 x1 x2 s).rf = s.rf :=
  postNotice_only (Only.refl 2 s) rfl .rf rfl
@[simp] theorem postNotice_keeps_ce {x0 : Nat} {x1 : Nat} {x2 : Nat} {s : State} : (postNotice x0 x1 x2 s).ce = s.ce :=
  postNotice_only (Only.refl 2 s) rfl .ce rfl
@[simp] theorem postNotice_keeps_lg {x0 : Nat} {x1 : Nat} {x2 : Nat} {s : State} : (postNotice x0 x1 x2 s).lg = s.lg :=
  postNotice_only (Only.refl 2 s) rfl .lg rfl
@[simp] theorem postNotice_keeps_np {x0 : Nat} {x1 : Nat} {x2 : Nat} {s : State} : (postNotice x0 x1 x2 s).np = s.np :=
  postNotice_only (Only.refl 2 s) rfl .np rfl
@[simp] theorem postNotice_keeps_hk {x0 : Nat} {x1 : Nat} {x2 : Nat} {s : State} : (postNotice x0 x1 x2 s).hk = s.hk :=
  postNotice_only (Only.refl 2 s) rfl .hk rfl
@[simp] theorem postNotice_keeps_cl {x0 : Nat} {x1 : Nat} {x2 : Nat} {s : State} : (postNotice x0 x1 x2 s).cl = s.cl :=
  postNotice_only (Only.refl 2 s) rfl .cl rfl
@[simp] theorem postNotice_keeps_ps {x0 : Nat} {x1 : Nat} {x2 : Nat} {s : State} : (postNotice x0 x1 x2 s).ps = s.ps :=
  postNotice_only (Only.refl 2 s) rfl .ps rfl
@[simp] theorem postNotice_keeps_fl {x0 : Nat} {x1 : Nat} {x2 : Nat} {s : State} : (postNotice x0 x1 x2 s).fl = s.fl :=
  postNotice_only (Only.refl 2 s) rfl .fl rfl
@[simp] theorem postNotice_keeps_dv {x0 : Nat} {x1 : Nat} {x2 : Nat} {s : State} : (postNotice x0 x1 x2 s).dv = s.dv :=
  postNotice_only (Only.refl 2 s) rfl .dv rfl
@[simp] theorem postNotice_keeps_mem {x0 : Nat} {x1 : Nat} {x2 : Nat} {s : State} : (postNotice x0 x1 x2 s).mem = s.mem :=
  postNotice_only (Only.refl 2 s) rfl .mem rfl
@[simp] theorem postNotice_keeps_bell {x0 : Nat} {x1 : Nat} {x2 : Nat} {s : State} : (postNotice x0 x1 x2 s).bell = s.bell :=
  postNotice_only (Only.refl 2 s) rfl .bell rfl
@[simp] theorem postNotice_keeps_pair {x0 : Nat} {x1 : Nat} {x2 : Nat} {s : State} : (postNotice x0 x1 x2 s).pair = s.pair :=
  postNotice_only (Only.refl 2 s) rfl .pair rfl
@[simp] theorem postNotice_keeps_wire {x0 : Nat} {x1 : Nat} {x2 : Nat} {s : State} : (postNotice x0 x1 x2 s).wire = s.wire :=
  postNotice_only (Only.refl 2 s) rfl .wire rfl
@[simp] theorem postNotice_keeps_drawn {x0 : Nat} {x1 : Nat} {x2 : Nat} {s : State} : (postNotice x0 x1 x2 s).drawn = s.drawn :=
  postNotice_only (Only.refl 2 s) rfl .drawn rfl
@[simp] theorem postNotice_keeps_pending {x0 : Nat} {x1 : Nat} {x2 : Nat} {s : State} : (postNotice x0 x1 x2 s).pending = s.pending :=
  postNotice_only (Only.refl 2 s) rfl .pending rfl
@[simp] theorem complete_keeps_air {x0 : Ticket} {x1 : Status} {x2 : Nat} {s : State} : (complete x0 x1 x2 s).air = s.air :=
  complete_only (Only.refl 2 s) rfl .air rfl
@[simp] theorem complete_keeps_fault {x0 : Ticket} {x1 : Status} {x2 : Nat} {s : State} : (complete x0 x1 x2 s).fault = s.fault :=
  complete_only (Only.refl 2 s) rfl .fault rfl
@[simp] theorem complete_keeps_log {x0 : Ticket} {x1 : Status} {x2 : Nat} {s : State} : (complete x0 x1 x2 s).log = s.log :=
  complete_only (Only.refl 2 s) rfl .log rfl
@[simp] theorem complete_keeps_sys {x0 : Ticket} {x1 : Status} {x2 : Nat} {s : State} : (complete x0 x1 x2 s).sys = s.sys :=
  complete_only (Only.refl 2 s) rfl .sys rfl
@[simp] theorem complete_keeps_rf {x0 : Ticket} {x1 : Status} {x2 : Nat} {s : State} : (complete x0 x1 x2 s).rf = s.rf :=
  complete_only (Only.refl 2 s) rfl .rf rfl
@[simp] theorem complete_keeps_ce {x0 : Ticket} {x1 : Status} {x2 : Nat} {s : State} : (complete x0 x1 x2 s).ce = s.ce :=
  complete_only (Only.refl 2 s) rfl .ce rfl
@[simp] theorem complete_keeps_lg {x0 : Ticket} {x1 : Status} {x2 : Nat} {s : State} : (complete x0 x1 x2 s).lg = s.lg :=
  complete_only (Only.refl 2 s) rfl .lg rfl
@[simp] theorem complete_keeps_np {x0 : Ticket} {x1 : Status} {x2 : Nat} {s : State} : (complete x0 x1 x2 s).np = s.np :=
  complete_only (Only.refl 2 s) rfl .np rfl
@[simp] theorem complete_keeps_hk {x0 : Ticket} {x1 : Status} {x2 : Nat} {s : State} : (complete x0 x1 x2 s).hk = s.hk :=
  complete_only (Only.refl 2 s) rfl .hk rfl
@[simp] theorem complete_keeps_cl {x0 : Ticket} {x1 : Status} {x2 : Nat} {s : State} : (complete x0 x1 x2 s).cl = s.cl :=
  complete_only (Only.refl 2 s) rfl .cl rfl
@[simp] theorem complete_keeps_ps {x0 : Ticket} {x1 : Status} {x2 : Nat} {s : State} : (complete x0 x1 x2 s).ps = s.ps :=
  complete_only (Only.refl 2 s) rfl .ps rfl
@[simp] theorem complete_keeps_fl {x0 : Ticket} {x1 : Status} {x2 : Nat} {s : State} : (complete x0 x1 x2 s).fl = s.fl :=
  complete_only (Only.refl 2 s) rfl .fl rfl
@[simp] theorem complete_keeps_dv {x0 : Ticket} {x1 : Status} {x2 : Nat} {s : State} : (complete x0 x1 x2 s).dv = s.dv :=
  complete_only (Only.refl 2 s) rfl .dv rfl
@[simp] theorem complete_keeps_mem {x0 : Ticket} {x1 : Status} {x2 : Nat} {s : State} : (complete x0 x1 x2 s).mem = s.mem :=
  complete_only (Only.refl 2 s) rfl .mem rfl
@[simp] theorem complete_keeps_bell {x0 : Ticket} {x1 : Status} {x2 : Nat} {s : State} : (complete x0 x1 x2 s).bell = s.bell :=
  complete_only (Only.refl 2 s) rfl .bell rfl
@[simp] theorem complete_keeps_pair {x0 : Ticket} {x1 : Status} {x2 : Nat} {s : State} : (complete x0 x1 x2 s).pair = s.pair :=
  complete_only (Only.refl 2 s) rfl .pair rfl
@[simp] theorem complete_keeps_wire {x0 : Ticket} {x1 : Status} {x2 : Nat} {s : State} : (complete x0 x1 x2 s).wire = s.wire :=
  complete_only (Only.refl 2 s) rfl .wire rfl
@[simp] theorem complete_keeps_drawn {x0 : Ticket} {x1 : Status} {x2 : Nat} {s : State} : (complete x0 x1 x2 s).drawn = s.drawn :=
  complete_only (Only.refl 2 s) rfl .drawn rfl
@[simp] theorem complete_keeps_pending {x0 : Ticket} {x1 : Status} {x2 : Nat} {s : State} : (complete x0 x1 x2 s).pending = s.pending :=
  complete_only (Only.refl 2 s) rfl .pending rfl
@[simp] theorem completeOpt_keeps_air {x0 : Option Ticket} {x1 : Status} {x2 : Nat} {s : State} : (completeOpt x0 x1 x2 s).air = s.air :=
  completeOpt_only (Only.refl 2 s) rfl .air rfl
@[simp] theorem completeOpt_keeps_fault {x0 : Option Ticket} {x1 : Status} {x2 : Nat} {s : State} : (completeOpt x0 x1 x2 s).fault = s.fault :=
  completeOpt_only (Only.refl 2 s) rfl .fault rfl
@[simp] theorem completeOpt_keeps_log {x0 : Option Ticket} {x1 : Status} {x2 : Nat} {s : State} : (completeOpt x0 x1 x2 s).log = s.log :=
  completeOpt_only (Only.refl 2 s) rfl .log rfl
@[simp] theorem completeOpt_keeps_sys {x0 : Option Ticket} {x1 : Status} {x2 : Nat} {s : State} : (completeOpt x0 x1 x2 s).sys = s.sys :=
  completeOpt_only (Only.refl 2 s) rfl .sys rfl
@[simp] theorem completeOpt_keeps_rf {x0 : Option Ticket} {x1 : Status} {x2 : Nat} {s : State} : (completeOpt x0 x1 x2 s).rf = s.rf :=
  completeOpt_only (Only.refl 2 s) rfl .rf rfl
@[simp] theorem completeOpt_keeps_ce {x0 : Option Ticket} {x1 : Status} {x2 : Nat} {s : State} : (completeOpt x0 x1 x2 s).ce = s.ce :=
  completeOpt_only (Only.refl 2 s) rfl .ce rfl
@[simp] theorem completeOpt_keeps_lg {x0 : Option Ticket} {x1 : Status} {x2 : Nat} {s : State} : (completeOpt x0 x1 x2 s).lg = s.lg :=
  completeOpt_only (Only.refl 2 s) rfl .lg rfl
@[simp] theorem completeOpt_keeps_np {x0 : Option Ticket} {x1 : Status} {x2 : Nat} {s : State} : (completeOpt x0 x1 x2 s).np = s.np :=
  completeOpt_only (Only.refl 2 s) rfl .np rfl
@[simp] theorem completeOpt_keeps_hk {x0 : Option Ticket} {x1 : Status} {x2 : Nat} {s : State} : (completeOpt x0 x1 x2 s).hk = s.hk :=
  completeOpt_only (Only.refl 2 s) rfl .hk rfl
@[simp] theorem completeOpt_keeps_cl {x0 : Option Ticket} {x1 : Status} {x2 : Nat} {s : State} : (completeOpt x0 x1 x2 s).cl = s.cl :=
  completeOpt_only (Only.refl 2 s) rfl .cl rfl
@[simp] theorem completeOpt_keeps_ps {x0 : Option Ticket} {x1 : Status} {x2 : Nat} {s : State} : (completeOpt x0 x1 x2 s).ps = s.ps :=
  completeOpt_only (Only.refl 2 s) rfl .ps rfl
@[simp] theorem completeOpt_keeps_fl {x0 : Option Ticket} {x1 : Status} {x2 : Nat} {s : State} : (completeOpt x0 x1 x2 s).fl = s.fl :=
  completeOpt_only (Only.refl 2 s) rfl .fl rfl
@[simp] theorem completeOpt_keeps_dv {x0 : Option Ticket} {x1 : Status} {x2 : Nat} {s : State} : (completeOpt x0 x1 x2 s).dv = s.dv :=
  completeOpt_only (Only.refl 2 s) rfl .dv rfl
@[simp] theorem completeOpt_keeps_mem {x0 : Option Ticket} {x1 : Status} {x2 : Nat} {s : State} : (completeOpt x0 x1 x2 s).mem = s.mem :=
  completeOpt_only (Only.refl 2 s) rfl .mem rfl
@[simp] theorem completeOpt_keeps_bell {x0 : Option Ticket} {x1 : Status} {x2 : Nat} {s : State} : (completeOpt x0 x1 x2 s).bell = s.bell :=
  completeOpt_only (Only.refl 2 s) rfl .bell rfl
@[simp] theorem completeOpt_keeps_pair {x0 : Option Ticket} {x1 : Status} {x2 : Nat} {s : State} : (completeOpt x0 x1 x2 s).pair = s.pair :=
  completeOpt_only (Only.refl 2 s) rfl .pair rfl
@[simp] theorem completeOpt_keeps_wire {x0 : Option Ticket} {x1 : Status} {x2 : Nat} {s : State} : (completeOpt x0 x1 x2 s).wire = s.wire :=
  completeOpt_only (Only.refl 2 s) rfl .wire rfl
@[simp] theorem completeOpt_keeps_drawn {x0 : Option Ticket} {x1 : Status} {x2 : Nat} {s : State} : (completeOpt x0 x1 x2 s).drawn = s.drawn :=
  completeOpt_only (Only.refl 2 s) rfl .drawn rfl
@[simp] theorem completeOpt_keeps_pending {x0 : Option Ticket} {x1 : Status} {x2 : Nat} {s : State} : (completeOpt x0 x1 x2 s).pending = s.pending :=
  completeOpt_only (Only.refl 2 s) rfl .pending rfl
@[simp] theorem submitLog_keeps_air {x0 : Nat} {x1 : Nat} {x2 : List Nat} {s : State} : (submitLog x0 x1 x2 s).air = s.air :=
  submitLog_only (Only.refl 8 s) rfl .air rfl
@[simp] theorem submitLog_keeps_host {x0 : Nat} {x1 : Nat} {x2 : List Nat} {s : State} : (submitLog x0 x1 x2 s).host = s.host :=
  submitLog_only (Only.refl 8 s) rfl .host rfl
@[simp] theorem submitLog_keeps_fault {x0 : Nat} {x1 : Nat} {x2 : List Nat} {s : State} : (submitLog x0 x1 x2 s).fault = s.fault :=
  submitLog_only (Only.refl 8 s) rfl .fault rfl
@[simp] theorem submitLog_keeps_sys {x0 : Nat} {x1 : Nat} {x2 : List Nat} {s : State} : (submitLog x0 x1 x2 s).sys = s.sys :=
  submitLog_only (Only.refl 8 s) rfl .sys rfl
@[simp] theorem submitLog_keeps_rf {x0 : Nat} {x1 : Nat} {x2 : List Nat} {s : State} : (submitLog x0 x1 x2 s).rf = s.rf :=
  submitLog_only (Only.refl 8 s) rfl .rf rfl
@[simp] theorem submitLog_keeps_ce {x0 : Nat} {x1 : Nat} {x2 : List Nat} {s : State} : (submitLog x0 x1 x2 s).ce = s.ce :=
  submitLog_only (Only.refl 8 s) rfl .ce rfl
@[simp] theorem submitLog_keeps_lg {x0 : Nat} {x1 : Nat} {x2 : List Nat} {s : State} : (submitLog x0 x1 x2 s).lg = s.lg :=
  submitLog_only (Only.refl 8 s) rfl .lg rfl
@[simp] theorem submitLog_keeps_np {x0 : Nat} {x1 : Nat} {x2 : List Nat} {s : State} : (submitLog x0 x1 x2 s).np = s.np :=
  submitLog_only (Only.refl 8 s) rfl .np rfl
@[simp] theorem submitLog_keeps_hk {x0 : Nat} {x1 : Nat} {x2 : List Nat} {s : State} : (submitLog x0 x1 x2 s).hk = s.hk :=
  submitLog_only (Only.refl 8 s) rfl .hk rfl
@[simp] theorem submitLog_keeps_cl {x0 : Nat} {x1 : Nat} {x2 : List Nat} {s : State} : (submitLog x0 x1 x2 s).cl = s.cl :=
  submitLog_only (Only.refl 8 s) rfl .cl rfl
@[simp] theorem submitLog_keeps_ps {x0 : Nat} {x1 : Nat} {x2 : List Nat} {s : State} : (submitLog x0 x1 x2 s).ps = s.ps :=
  submitLog_only (Only.refl 8 s) rfl .ps rfl
@[simp] theorem submitLog_keeps_fl {x0 : Nat} {x1 : Nat} {x2 : List Nat} {s : State} : (submitLog x0 x1 x2 s).fl = s.fl :=
  submitLog_only (Only.refl 8 s) rfl .fl rfl
@[simp] theorem submitLog_keeps_dv {x0 : Nat} {x1 : Nat} {x2 : List Nat} {s : State} : (submitLog x0 x1 x2 s).dv = s.dv :=
  submitLog_only (Only.refl 8 s) rfl .dv rfl
@[simp] theorem submitLog_keeps_mem {x0 : Nat} {x1 : Nat} {x2 : List Nat} {s : State} : (submitLog x0 x1 x2 s).mem = s.mem :=
  submitLog_only (Only.refl 8 s) rfl .mem rfl
@[simp] theorem submitLog_keeps_bell {x0 : Nat} {x1 : Nat} {x2 : List Nat} {s : State} : (submitLog x0 x1 x2 s).bell = s.bell :=
  submitLog_only (Only.refl 8 s) rfl .bell rfl
@[simp] theorem submitLog_keeps_pair {x0 : Nat} {x1 : Nat} {x2 : List Nat} {s : State} : (submitLog x0 x1 x2 s).pair = s.pair :=
  submitLog_only (Only.refl 8 s) rfl .pair rfl
@[simp] theorem submitLog_keeps_wire {x0 : Nat} {x1 : Nat} {x2 : List Nat} {s : State} : (submitLog x0 x1 x2 s).wire = s.wire :=
  submitLog_only (Only.refl 8 s) rfl .wire rfl
@[simp] theorem submitLog_keeps_drawn {x0 : Nat} {x1 : Nat} {x2 : List Nat} {s : State} : (submitLog x0 x1 x2 s).drawn = s.drawn :=
  submitLog_only (Only.refl 8 s) rfl .drawn rfl
@[simp] theorem submitLog_keeps_pending {x0 : Nat} {x1 : Nat} {x2 : List Nat} {s : State} : (submitLog x0 x1 x2 s).pending = s.pending :=
  submitLog_only (Only.refl 8 s) rfl .pending rfl
@[simp] theorem advance_keeps_host {x0 : Nat} {s : State} : (advance x0 s).host = s.host :=
  advance_only (Only.refl 1 s) rfl .host rfl
@[simp] theorem advance_keeps_fault {x0 : Nat} {s : State} : (advance x0 s).fault = s.fault :=
  advance_only (Only.refl 1 s) rfl .fault rfl
@[simp] theorem advance_keeps_log {x0 : Nat} {s : State} : (advance x0 s).log = s.log :=
  advance_only (Only.refl 1 s) rfl .log rfl
@[simp] theorem advance_keeps_sys {x0 : Nat} {s : State} : (advance x0 s).sys = s.sys :=
  advance_only (Only.refl 1 s) rfl .sys rfl
@[simp] theorem advance_keeps_rf {x0 : Nat} {s : State} : (advance x0 s).rf = s.rf :=
  advance_only (Only.refl 1 s) rfl .rf rfl
@[simp] theorem advance_keeps_ce {x0 : Nat} {s : State} : (advance x0 s).ce = s.ce :=
  advance_only (Only.refl 1 s) rfl .ce rfl
@[simp] theorem advance_keeps_lg {x0 : Nat} {s : State} : (advance x0 s).lg = s.lg :=
  advance_only (Only.refl 1 s) rfl .lg rfl
@[simp] theorem advance_keeps_np {x0 : Nat} {s : State} : (advance x0 s).np = s.np :=
  advance_only (Only.refl 1 s) rfl .np rfl
@[simp] theorem advance_keeps_hk {x0 : Nat} {s : State} : (advance x0 s).hk = s.hk :=
  advance_only (Only.refl 1 s) rfl .hk rfl
@[simp] theorem advance_keeps_cl {x0 : Nat} {s : State} : (advance x0 s).cl = s.cl :=
  advance_only (Only.refl 1 s) rfl .cl rfl
@[simp] theorem advance_keeps_ps {x0 : Nat} {s : State} : (advance x0 s).ps = s.ps :=
  advance_only (Only.refl 1 s) rfl .ps rfl
@[simp] theorem advance_keeps_fl {x0 : Nat} {s : State} : (advance x0 s).fl = s.fl :=
  advance_only (Only.refl 1 s) rfl .fl rfl
@[simp] theorem advance_keeps_dv {x0 : Nat} {s : State} : (advance x0 s).dv = s.dv :=
  advance_only (Only.refl 1 s) rfl .dv rfl
@[simp] theorem advance_keeps_mem {x0 : Nat} {s : State} : (advance x0 s).mem = s.mem :=
  advance_only (Only.refl 1 s) rfl .mem rfl
@[simp] theorem advance_keeps_bell {x0 : Nat} {s : State} : (advance x0 s).bell = s.bell :=
  advance_only (Only.refl 1 s) rfl .bell rfl
@[simp] theorem advance_keeps_pair {x0 : Nat} {s : State} : (advance x0 s).pair = s.pair :=
  advance_only (Only.refl 1 s) rfl .pair rfl
@[simp] theorem advance_keeps_wire {x0 : Nat} {s : State} : (advance x0 s).wire = s.wire :=
  advance_only (Only.refl 1 s) rfl .wire rfl
@[simp] theorem advance_keeps_drawn {x0 : Nat} {s : State} : (advance x0 s).drawn = s.drawn :=
  advance_only (Only.refl 1 s) rfl .drawn rfl
@[simp] theorem advance_keeps_pending {x0 : Nat} {s : State} : (advance x0 s).pending = s.pending :=
  advance_only (Only.refl 1 s) rfl .pending rfl
@[simp] theorem advanceTo_keeps_host {x0 : Nat} {s : State} : (advanceTo x0 s).host = s.host :=
  advanceTo_only (Only.refl 1 s) rfl .host rfl
@[simp] theorem advanceTo_keeps_fault {x0 : Nat} {s : State} : (advanceTo x0 s).fault = s.fault :=
  advanceTo_only (Only.refl 1 s) rfl .fault rfl
@[simp] theorem advanceTo_keeps_log {x0 : Nat} {s : State} : (advanceTo x0 s).log = s.log :=
  advanceTo_only (Only.refl 1 s) rfl .log rfl
@[simp] theorem advanceTo_keeps_sys {x0 : Nat} {s : State} : (advanceTo x0 s).sys = s.sys :=
  advanceTo_only (Only.refl 1 s) rfl .sys rfl
@[simp] theorem advanceTo_keeps_rf {x0 : Nat} {s : State} : (advanceTo x0 s).rf = s.rf :=
  advanceTo_only (Only.refl 1 s) rfl .rf rfl
@[simp] theorem advanceTo_keeps_ce {x0 : Nat} {s : State} : (advanceTo x0 s).ce = s.ce :=
  advanceTo_only (Only.refl 1 s) rfl .ce rfl
@[simp] theorem advanceTo_keeps_lg {x0 : Nat} {s : State} : (advanceTo x0 s).lg = s.lg :=
  advanceTo_only (Only.refl 1 s) rfl .lg rfl
@[simp] theorem advanceTo_keeps_np {x0 : Nat} {s : State} : (advanceTo x0 s).np = s.np :=
  advanceTo_only (Only.refl 1 s) rfl .np rfl
@[simp] theorem advanceTo_keeps_hk {x0 : Nat} {s : State} : (advanceTo x0 s).hk = s.hk :=
  advanceTo_only (Only.refl 1 s) rfl .hk rfl
@[simp] theorem advanceTo_keeps_cl {x0 : Nat} {s : State} : (advanceTo x0 s).cl = s.cl :=
  advanceTo_only (Only.refl 1 s) rfl .cl rfl
@[simp] theorem advanceTo_keeps_ps {x0 : Nat} {s : State} : (advanceTo x0 s).ps = s.ps :=
  advanceTo_only (Only.refl 1 s) rfl .ps rfl
@[simp] theorem advanceTo_keeps_fl {x0 : Nat} {s : State} : (advanceTo x0 s).fl = s.fl :=
  advanceTo_only (Only.refl 1 s) rfl .fl rfl
@[simp] theorem advanceTo_keeps_dv {x0 : Nat} {s : State} : (advanceTo x0 s).dv = s.dv :=
  advanceTo_only (Only.refl 1 s) rfl .dv rfl
@[simp] theorem advanceTo_keeps_mem {x0 : Nat} {s : State} : (advanceTo x0 s).mem = s.mem :=
  advanceTo_only (Only.refl 1 s) rfl .mem rfl
@[simp] theorem advanceTo_keeps_bell {x0 : Nat} {s : State} : (advanceTo x0 s).bell = s.bell :=
  advanceTo_only (Only.refl 1 s) rfl .bell rfl
@[simp] theorem advanceTo_keeps_pair {x0 : Nat} {s : State} : (advanceTo x0 s).pair = s.pair :=
  advanceTo_only (Only.refl 1 s) rfl .pair rfl
@[simp] theorem advanceTo_keeps_wire {x0 : Nat} {s : State} : (advanceTo x0 s).wire = s.wire :=
  advanceTo_only (Only.refl 1 s) rfl .wire rfl
@[simp] theorem advanceTo_keeps_drawn {x0 : Nat} {s : State} : (advanceTo x0 s).drawn = s.drawn :=
  advanceTo_only (Only.refl 1 s) rfl .drawn rfl
@[simp] theorem advanceTo_keeps_pending {x0 : Nat} {s : State} : (advanceTo x0 s).pending = s.pending :=
  advanceTo_only (Only.refl 1 s) rfl .pending rfl
@[simp] theorem advanceToAir_keeps_host {x0 : AirInstant} {s : State} : (advanceToAir x0 s).host = s.host :=
  advanceToAir_only (Only.refl 1 s) rfl .host rfl
@[simp] theorem advanceToAir_keeps_fault {x0 : AirInstant} {s : State} : (advanceToAir x0 s).fault = s.fault :=
  advanceToAir_only (Only.refl 1 s) rfl .fault rfl
@[simp] theorem advanceToAir_keeps_log {x0 : AirInstant} {s : State} : (advanceToAir x0 s).log = s.log :=
  advanceToAir_only (Only.refl 1 s) rfl .log rfl
@[simp] theorem advanceToAir_keeps_sys {x0 : AirInstant} {s : State} : (advanceToAir x0 s).sys = s.sys :=
  advanceToAir_only (Only.refl 1 s) rfl .sys rfl
@[simp] theorem advanceToAir_keeps_rf {x0 : AirInstant} {s : State} : (advanceToAir x0 s).rf = s.rf :=
  advanceToAir_only (Only.refl 1 s) rfl .rf rfl
@[simp] theorem advanceToAir_keeps_ce {x0 : AirInstant} {s : State} : (advanceToAir x0 s).ce = s.ce :=
  advanceToAir_only (Only.refl 1 s) rfl .ce rfl
@[simp] theorem advanceToAir_keeps_lg {x0 : AirInstant} {s : State} : (advanceToAir x0 s).lg = s.lg :=
  advanceToAir_only (Only.refl 1 s) rfl .lg rfl
@[simp] theorem advanceToAir_keeps_np {x0 : AirInstant} {s : State} : (advanceToAir x0 s).np = s.np :=
  advanceToAir_only (Only.refl 1 s) rfl .np rfl
@[simp] theorem advanceToAir_keeps_hk {x0 : AirInstant} {s : State} : (advanceToAir x0 s).hk = s.hk :=
  advanceToAir_only (Only.refl 1 s) rfl .hk rfl
@[simp] theorem advanceToAir_keeps_cl {x0 : AirInstant} {s : State} : (advanceToAir x0 s).cl = s.cl :=
  advanceToAir_only (Only.refl 1 s) rfl .cl rfl
@[simp] theorem advanceToAir_keeps_ps {x0 : AirInstant} {s : State} : (advanceToAir x0 s).ps = s.ps :=
  advanceToAir_only (Only.refl 1 s) rfl .ps rfl
@[simp] theorem advanceToAir_keeps_fl {x0 : AirInstant} {s : State} : (advanceToAir x0 s).fl = s.fl :=
  advanceToAir_only (Only.refl 1 s) rfl .fl rfl
@[simp] theorem advanceToAir_keeps_dv {x0 : AirInstant} {s : State} : (advanceToAir x0 s).dv = s.dv :=
  advanceToAir_only (Only.refl 1 s) rfl .dv rfl
@[simp] theorem advanceToAir_keeps_mem {x0 : AirInstant} {s : State} : (advanceToAir x0 s).mem = s.mem :=
  advanceToAir_only (Only.refl 1 s) rfl .mem rfl
@[simp] theorem advanceToAir_keeps_bell {x0 : AirInstant} {s : State} : (advanceToAir x0 s).bell = s.bell :=
  advanceToAir_only (Only.refl 1 s) rfl .bell rfl
@[simp] theorem advanceToAir_keeps_pair {x0 : AirInstant} {s : State} : (advanceToAir x0 s).pair = s.pair :=
  advanceToAir_only (Only.refl 1 s) rfl .pair rfl
@[simp] theorem advanceToAir_keeps_wire {x0 : AirInstant} {s : State} : (advanceToAir x0 s).wire = s.wire :=
  advanceToAir_only (Only.refl 1 s) rfl .wire rfl
@[simp] theorem advanceToAir_keeps_drawn {x0 : AirInstant} {s : State} : (advanceToAir x0 s).drawn = s.drawn :=
  advanceToAir_only (Only.refl 1 s) rfl .drawn rfl
@[simp] theorem advanceToAir_keeps_pending {x0 : AirInstant} {s : State} : (advanceToAir x0 s).pending = s.pending :=
  advanceToAir_only (Only.refl 1 s) rfl .pending rfl
@[simp] theorem advanceToBoundary_keeps_host {x0 : Nat} {x1 : Nat} {s : State} : (advanceToBoundary x0 x1 s).host = s.host :=
  advanceToBoundary_only (Only.refl 1 s) rfl .host rfl
@[simp] theorem advanceToBoundary_keeps_fault {x0 : Nat} {x1 : Nat} {s : State} : (advanceToBoundary x0 x1 s).fault = s.fault :=
  advanceToBoundary_only (Only.refl 1 s) rfl .fault rfl
@[simp] theorem advanceToBoundary_keeps_log {x0 : Nat} {x1 : Nat} {s : State} : (advanceToBoundary x0 x1 s).log = s.log :=
  advanceToBoundary_only (Only.refl 1 s) rfl .log rfl
@[simp] theorem advanceToBoundary_keeps_sys {x0 : Nat} {x1 : Nat} {s : State} : (advanceToBoundary x0 x1 s).sys = s.sys :=
  advanceToBoundary_only (Only.refl 1 s) rfl .sys rfl
@[simp] theorem advanceToBoundary_keeps_rf {x0 : Nat} {x1 : Nat} {s : State} : (advanceToBoundary x0 x1 s).rf = s.rf :=
  advanceToBoundary_only (Only.refl 1 s) rfl .rf rfl
@[simp] theorem advanceToBoundary_keeps_ce {x0 : Nat} {x1 : Nat} {s : State} : (advanceToBoundary x0 x1 s).ce = s.ce :=
  advanceToBoundary_only (Only.refl 1 s) rfl .ce rfl
@[simp] theorem advanceToBoundary_keeps_lg {x0 : Nat} {x1 : Nat} {s : State} : (advanceToBoundary x0 x1 s).lg = s.lg :=
  advanceToBoundary_only (Only.refl 1 s) rfl .lg rfl
@[simp] theorem advanceToBoundary_keeps_np {x0 : Nat} {x1 : Nat} {s : State} : (advanceToBoundary x0 x1 s).np = s.np :=
  advanceToBoundary_only (Only.refl 1 s) rfl .np rfl
@[simp] theorem advanceToBoundary_keeps_hk {x0 : Nat} {x1 : Nat} {s : State} : (advanceToBoundary x0 x1 s).hk = s.hk :=
  advanceToBoundary_only (Only.refl 1 s) rfl .hk rfl
@[simp] theorem advanceToBoundary_keeps_cl {x0 : Nat} {x1 : Nat} {s : State} : (advanceToBoundary x0 x1 s).cl = s.cl :=
  advanceToBoundary_only (Only.refl 1 s) rfl .cl rfl
@[simp] theorem advanceToBoundary_keeps_ps {x0 : Nat} {x1 : Nat} {s : State} : (advanceToBoundary x0 x1 s).ps = s.ps :=
  advanceToBoundary_only (Only.refl 1 s) rfl .ps rfl
@[simp] theorem advanceToBoundary_keeps_fl {x0 : Nat} {x1 : Nat} {s : State} : (advanceToBoundary x0 x1 s).fl = s.fl :=
  advanceToBoundary_only (Only.refl 1 s) rfl .fl rfl
@[simp] theorem advanceToBoundary_keeps_dv {x0 : Nat} {x1 : Nat} {s : State} : (advanceToBoundary x0 x1 s).dv = s.dv :=
  advanceToBoundary_only (Only.refl 1 s) rfl .dv rfl
@[simp] theorem advanceToBoundary_keeps_mem {x0 : Nat} {x1 : Nat} {s : State} : (advanceToBoundary x0 x1 s).mem = s.mem :=
  advanceToBoundary_only (Only.refl 1 s) rfl .mem rfl
@[simp] theorem advanceToBoundary_keeps_bell {x0 : Nat} {x1 : Nat} {s : State} : (advanceToBoundary x0 x1 s).bell = s.bell :=
  advanceToBoundary_only (Only.refl 1 s) rfl .bell rfl
@[simp] theorem advanceToBoundary_keeps_pair {x0 : Nat} {x1 : Nat} {s : State} : (advanceToBoundary x0 x1 s).pair = s.pair :=
  advanceToBoundary_only (Only.refl 1 s) rfl .pair rfl
@[simp] theorem advanceToBoundary_keeps_wire {x0 : Nat} {x1 : Nat} {s : State} : (advanceToBoundary x0 x1 s).wire = s.wire :=
  advanceToBoundary_only (Only.refl 1 s) rfl .wire rfl
@[simp] theorem advanceToBoundary_keeps_drawn {x0 : Nat} {x1 : Nat} {s : State} : (advanceToBoundary x0 x1 s).drawn = s.drawn :=
  advanceToBoundary_only (Only.refl 1 s) rfl .drawn rfl
@[simp] theorem advanceToBoundary_keeps_pending {x0 : Nat} {x1 : Nat} {s : State} : (advanceToBoundary x0 x1 s).pending = s.pending :=
  advanceToBoundary_only (Only.refl 1 s) rfl .pending rfl
@[simp] theorem setIrq_keeps_air {x0 : Nat} {s : State} : (setIrq x0 s).air = s.air :=
  setIrq_only (Only.refl 2 s) rfl .air rfl
@[simp] theorem setIrq_keeps_fault {x0 : Nat} {s : State} : (setIrq x0 s).fault = s.fault :=
  setIrq_only (Only.refl 2 s) rfl .fault rfl
@[simp] theorem setIrq_keeps_log {x0 : Nat} {s : State} : (setIrq x0 s).log = s.log :=
  setIrq_only (Only.refl 2 s) rfl .log rfl
@[simp] theorem setIrq_keeps_sys {x0 : Nat} {s : State} : (setIrq x0 s).sys = s.sys :=
  setIrq_only (Only.refl 2 s) rfl .sys rfl
@[simp] theorem setIrq_keeps_rf {x0 : Nat} {s : State} : (setIrq x0 s).rf = s.rf :=
  setIrq_only (Only.refl 2 s) rfl .rf rfl
@[simp] theorem setIrq_keeps_ce {x0 : Nat} {s : State} : (setIrq x0 s).ce = s.ce :=
  setIrq_only (Only.refl 2 s) rfl .ce rfl
@[simp] theorem setIrq_keeps_lg {x0 : Nat} {s : State} : (setIrq x0 s).lg = s.lg :=
  setIrq_only (Only.refl 2 s) rfl .lg rfl
@[simp] theorem setIrq_keeps_np {x0 : Nat} {s : State} : (setIrq x0 s).np = s.np :=
  setIrq_only (Only.refl 2 s) rfl .np rfl
@[simp] theorem setIrq_keeps_hk {x0 : Nat} {s : State} : (setIrq x0 s).hk = s.hk :=
  setIrq_only (Only.refl 2 s) rfl .hk rfl
@[simp] theorem setIrq_keeps_cl {x0 : Nat} {s : State} : (setIrq x0 s).cl = s.cl :=
  setIrq_only (Only.refl 2 s) rfl .cl rfl
@[simp] theorem setIrq_keeps_ps {x0 : Nat} {s : State} : (setIrq x0 s).ps = s.ps :=
  setIrq_only (Only.refl 2 s) rfl .ps rfl
@[simp] theorem setIrq_keeps_fl {x0 : Nat} {s : State} : (setIrq x0 s).fl = s.fl :=
  setIrq_only (Only.refl 2 s) rfl .fl rfl
@[simp] theorem setIrq_keeps_dv {x0 : Nat} {s : State} : (setIrq x0 s).dv = s.dv :=
  setIrq_only (Only.refl 2 s) rfl .dv rfl
@[simp] theorem setIrq_keeps_mem {x0 : Nat} {s : State} : (setIrq x0 s).mem = s.mem :=
  setIrq_only (Only.refl 2 s) rfl .mem rfl
@[simp] theorem setIrq_keeps_bell {x0 : Nat} {s : State} : (setIrq x0 s).bell = s.bell :=
  setIrq_only (Only.refl 2 s) rfl .bell rfl
@[simp] theorem setIrq_keeps_pair {x0 : Nat} {s : State} : (setIrq x0 s).pair = s.pair :=
  setIrq_only (Only.refl 2 s) rfl .pair rfl
@[simp] theorem setIrq_keeps_wire {x0 : Nat} {s : State} : (setIrq x0 s).wire = s.wire :=
  setIrq_only (Only.refl 2 s) rfl .wire rfl
@[simp] theorem setIrq_keeps_drawn {x0 : Nat} {s : State} : (setIrq x0 s).drawn = s.drawn :=
  setIrq_only (Only.refl 2 s) rfl .drawn rfl
@[simp] theorem setIrq_keeps_pending {x0 : Nat} {s : State} : (setIrq x0 s).pending = s.pending :=
  setIrq_only (Only.refl 2 s) rfl .pending rfl
@[simp] theorem modChain_keeps_air {x0 : Nat} {x1 : Chain → Chain} {s : State} : (modChain x0 x1 s).air = s.air :=
  modChain_only (Only.refl 32 s) rfl .air rfl
@[simp] theorem modChain_keeps_host {x0 : Nat} {x1 : Chain → Chain} {s : State} : (modChain x0 x1 s).host = s.host :=
  modChain_only (Only.refl 32 s) rfl .host rfl
@[simp] theorem modChain_keeps_fault {x0 : Nat} {x1 : Chain → Chain} {s : State} : (modChain x0 x1 s).fault = s.fault :=
  modChain_only (Only.refl 32 s) rfl .fault rfl
@[simp] theorem modChain_keeps_log {x0 : Nat} {x1 : Chain → Chain} {s : State} : (modChain x0 x1 s).log = s.log :=
  modChain_only (Only.refl 32 s) rfl .log rfl
@[simp] theorem modChain_keeps_sys {x0 : Nat} {x1 : Chain → Chain} {s : State} : (modChain x0 x1 s).sys = s.sys :=
  modChain_only (Only.refl 32 s) rfl .sys rfl
@[simp] theorem modChain_keeps_ce {x0 : Nat} {x1 : Chain → Chain} {s : State} : (modChain x0 x1 s).ce = s.ce :=
  modChain_only (Only.refl 32 s) rfl .ce rfl
@[simp] theorem modChain_keeps_lg {x0 : Nat} {x1 : Chain → Chain} {s : State} : (modChain x0 x1 s).lg = s.lg :=
  modChain_only (Only.refl 32 s) rfl .lg rfl
@[simp] theorem modChain_keeps_np {x0 : Nat} {x1 : Chain → Chain} {s : State} : (modChain x0 x1 s).np = s.np :=
  modChain_only (Only.refl 32 s) rfl .np rfl
@[simp] theorem modChain_keeps_hk {x0 : Nat} {x1 : Chain → Chain} {s : State} : (modChain x0 x1 s).hk = s.hk :=
  modChain_only (Only.refl 32 s) rfl .hk rfl
@[simp] theorem modChain_keeps_cl {x0 : Nat} {x1 : Chain → Chain} {s : State} : (modChain x0 x1 s).cl = s.cl :=
  modChain_only (Only.refl 32 s) rfl .cl rfl
@[simp] theorem modChain_keeps_ps {x0 : Nat} {x1 : Chain → Chain} {s : State} : (modChain x0 x1 s).ps = s.ps :=
  modChain_only (Only.refl 32 s) rfl .ps rfl
@[simp] theorem modChain_keeps_fl {x0 : Nat} {x1 : Chain → Chain} {s : State} : (modChain x0 x1 s).fl = s.fl :=
  modChain_only (Only.refl 32 s) rfl .fl rfl
@[simp] theorem modChain_keeps_dv {x0 : Nat} {x1 : Chain → Chain} {s : State} : (modChain x0 x1 s).dv = s.dv :=
  modChain_only (Only.refl 32 s) rfl .dv rfl
@[simp] theorem modChain_keeps_mem {x0 : Nat} {x1 : Chain → Chain} {s : State} : (modChain x0 x1 s).mem = s.mem :=
  modChain_only (Only.refl 32 s) rfl .mem rfl
@[simp] theorem modChain_keeps_bell {x0 : Nat} {x1 : Chain → Chain} {s : State} : (modChain x0 x1 s).bell = s.bell :=
  modChain_only (Only.refl 32 s) rfl .bell rfl
@[simp] theorem modChain_keeps_pair {x0 : Nat} {x1 : Chain → Chain} {s : State} : (modChain x0 x1 s).pair = s.pair :=
  modChain_only (Only.refl 32 s) rfl .pair rfl
@[simp] theorem modChain_keeps_wire {x0 : Nat} {x1 : Chain → Chain} {s : State} : (modChain x0 x1 s).wire = s.wire :=
  modChain_only (Only.refl 32 s) rfl .wire rfl
@[simp] theorem modChain_keeps_drawn {x0 : Nat} {x1 : Chain → Chain} {s : State} : (modChain x0 x1 s).drawn = s.drawn :=
  modChain_only (Only.refl 32 s) rfl .drawn rfl
@[simp] theorem modChain_keeps_pending {x0 : Nat} {x1 : Chain → Chain} {s : State} : (modChain x0 x1 s).pending = s.pending :=
  modChain_only (Only.refl 32 s) rfl .pending rfl
@[simp] theorem modBand_keeps_air {x0 : Dir} {x1 : Nat} {x2 : BandPath → BandPath} {s : State} : (modBand x0 x1 x2 s).air = s.air :=
  modBand_only (Only.refl 64 s) rfl .air rfl
@[simp] theorem modBand_keeps_host {x0 : Dir} {x1 : Nat} {x2 : BandPath → BandPath} {s : State} : (modBand x0 x1 x2 s).host = s.host :=
  modBand_only (Only.refl 64 s) rfl .host rfl
@[simp] theorem modBand_keeps_fault {x0 : Dir} {x1 : Nat} {x2 : BandPath → BandPath} {s : State} : (modBand x0 x1 x2 s).fault = s.fault :=
  modBand_only (Only.refl 64 s) rfl .fault rfl
@[simp] theorem modBand_keeps_log {x0 : Dir} {x1 : Nat} {x2 : BandPath → BandPath} {s : State} : (modBand x0 x1 x2 s).log = s.log :=
  modBand_only (Only.refl 64 s) rfl .log rfl
@[simp] theorem modBand_keeps_sys {x0 : Dir} {x1 : Nat} {x2 : BandPath → BandPath} {s : State} : (modBand x0 x1 x2 s).sys = s.sys :=
  modBand_only (Only.refl 64 s) rfl .sys rfl
@[simp] theorem modBand_keeps_rf {x0 : Dir} {x1 : Nat} {x2 : BandPath → BandPath} {s : State} : (modBand x0 x1 x2 s).rf = s.rf :=
  modBand_only (Only.refl 64 s) rfl .rf rfl
@[simp] theorem modBand_keeps_lg {x0 : Dir} {x1 : Nat} {x2 : BandPath → BandPath} {s : State} : (modBand x0 x1 x2 s).lg = s.lg :=
  modBand_only (Only.refl 64 s) rfl .lg rfl
@[simp] theorem modBand_keeps_np {x0 : Dir} {x1 : Nat} {x2 : BandPath → BandPath} {s : State} : (modBand x0 x1 x2 s).np = s.np :=
  modBand_only (Only.refl 64 s) rfl .np rfl
@[simp] theorem modBand_keeps_hk {x0 : Dir} {x1 : Nat} {x2 : BandPath → BandPath} {s : State} : (modBand x0 x1 x2 s).hk = s.hk :=
  modBand_only (Only.refl 64 s) rfl .hk rfl
@[simp] theorem modBand_keeps_cl {x0 : Dir} {x1 : Nat} {x2 : BandPath → BandPath} {s : State} : (modBand x0 x1 x2 s).cl = s.cl :=
  modBand_only (Only.refl 64 s) rfl .cl rfl
@[simp] theorem modBand_keeps_ps {x0 : Dir} {x1 : Nat} {x2 : BandPath → BandPath} {s : State} : (modBand x0 x1 x2 s).ps = s.ps :=
  modBand_only (Only.refl 64 s) rfl .ps rfl
@[simp] theorem modBand_keeps_fl {x0 : Dir} {x1 : Nat} {x2 : BandPath → BandPath} {s : State} : (modBand x0 x1 x2 s).fl = s.fl :=
  modBand_only (Only.refl 64 s) rfl .fl rfl
@[simp] theorem modBand_keeps_dv {x0 : Dir} {x1 : Nat} {x2 : BandPath → BandPath} {s : State} : (modBand x0 x1 x2 s).dv = s.dv :=
  modBand_only (Only.refl 64 s) rfl .dv rfl
@[simp] theorem modBand_keeps_mem {x0 : Dir} {x1 : Nat} {x2 : BandPath → BandPath} {s : State} : (modBand x0 x1 x2 s).mem = s.mem :=
  modBand_only (Only.refl 64 s) rfl .mem rfl
@[simp] theorem modBand_keeps_bell {x0 : Dir} {x1 : Nat} {x2 : BandPath → BandPath} {s : State} : (modBand x0 x1 x2 s).bell = s.bell :=
  modBand_only (Only.refl 64 s) rfl .bell rfl
@[simp] theorem modBand_keeps_pair {x0 : Dir} {x1 : Nat} {x2 : BandPath → BandPath} {s : State} : (modBand x0 x1 x2 s).pair = s.pair :=
  modBand_only (Only.refl 64 s) rfl .pair rfl
@[simp] theorem modBand_keeps_wire {x0 : Dir} {x1 : Nat} {x2 : BandPath → BandPath} {s : State} : (modBand x0 x1 x2 s).wire = s.wire :=
  modBand_only (Only.refl 64 s) rfl .wire rfl
@[simp] theorem modBand_keeps_drawn {x0 : Dir} {x1 : Nat} {x2 : BandPath → BandPath} {s : State} : (modBand x0 x1 x2 s).drawn = s.drawn :=
  modBand_only (Only.refl 64 s) rfl .drawn rfl
@[simp] theorem modBand_keeps_pending {x0 : Dir} {x1 : Nat} {x2 : BandPath → BandPath} {s : State} : (modBand x0 x1 x2 s).pending = s.pending :=
  modBand_only (Only.refl 64 s) rfl .pending rfl
@[simp] theorem modObs_keeps_air {x0 : Nat} {x1 : ObsState → ObsState} {s : State} : (modObs x0 x1 s).air = s.air :=
  modObs_only (Only.refl 32 s) rfl .air rfl
@[simp] theorem modObs_keeps_host {x0 : Nat} {x1 : ObsState → ObsState} {s : State} : (modObs x0 x1 s).host = s.host :=
  modObs_only (Only.refl 32 s) rfl .host rfl
@[simp] theorem modObs_keeps_fault {x0 : Nat} {x1 : ObsState → ObsState} {s : State} : (modObs x0 x1 s).fault = s.fault :=
  modObs_only (Only.refl 32 s) rfl .fault rfl
@[simp] theorem modObs_keeps_log {x0 : Nat} {x1 : ObsState → ObsState} {s : State} : (modObs x0 x1 s).log = s.log :=
  modObs_only (Only.refl 32 s) rfl .log rfl
@[simp] theorem modObs_keeps_sys {x0 : Nat} {x1 : ObsState → ObsState} {s : State} : (modObs x0 x1 s).sys = s.sys :=
  modObs_only (Only.refl 32 s) rfl .sys rfl
@[simp] theorem modObs_keeps_ce {x0 : Nat} {x1 : ObsState → ObsState} {s : State} : (modObs x0 x1 s).ce = s.ce :=
  modObs_only (Only.refl 32 s) rfl .ce rfl
@[simp] theorem modObs_keeps_lg {x0 : Nat} {x1 : ObsState → ObsState} {s : State} : (modObs x0 x1 s).lg = s.lg :=
  modObs_only (Only.refl 32 s) rfl .lg rfl
@[simp] theorem modObs_keeps_np {x0 : Nat} {x1 : ObsState → ObsState} {s : State} : (modObs x0 x1 s).np = s.np :=
  modObs_only (Only.refl 32 s) rfl .np rfl
@[simp] theorem modObs_keeps_hk {x0 : Nat} {x1 : ObsState → ObsState} {s : State} : (modObs x0 x1 s).hk = s.hk :=
  modObs_only (Only.refl 32 s) rfl .hk rfl
@[simp] theorem modObs_keeps_cl {x0 : Nat} {x1 : ObsState → ObsState} {s : State} : (modObs x0 x1 s).cl = s.cl :=
  modObs_only (Only.refl 32 s) rfl .cl rfl
@[simp] theorem modObs_keeps_ps {x0 : Nat} {x1 : ObsState → ObsState} {s : State} : (modObs x0 x1 s).ps = s.ps :=
  modObs_only (Only.refl 32 s) rfl .ps rfl
@[simp] theorem modObs_keeps_fl {x0 : Nat} {x1 : ObsState → ObsState} {s : State} : (modObs x0 x1 s).fl = s.fl :=
  modObs_only (Only.refl 32 s) rfl .fl rfl
@[simp] theorem modObs_keeps_dv {x0 : Nat} {x1 : ObsState → ObsState} {s : State} : (modObs x0 x1 s).dv = s.dv :=
  modObs_only (Only.refl 32 s) rfl .dv rfl
@[simp] theorem modObs_keeps_mem {x0 : Nat} {x1 : ObsState → ObsState} {s : State} : (modObs x0 x1 s).mem = s.mem :=
  modObs_only (Only.refl 32 s) rfl .mem rfl
@[simp] theorem modObs_keeps_bell {x0 : Nat} {x1 : ObsState → ObsState} {s : State} : (modObs x0 x1 s).bell = s.bell :=
  modObs_only (Only.refl 32 s) rfl .bell rfl
@[simp] theorem modObs_keeps_pair {x0 : Nat} {x1 : ObsState → ObsState} {s : State} : (modObs x0 x1 s).pair = s.pair :=
  modObs_only (Only.refl 32 s) rfl .pair rfl
@[simp] theorem modObs_keeps_wire {x0 : Nat} {x1 : ObsState → ObsState} {s : State} : (modObs x0 x1 s).wire = s.wire :=
  modObs_only (Only.refl 32 s) rfl .wire rfl
@[simp] theorem modObs_keeps_drawn {x0 : Nat} {x1 : ObsState → ObsState} {s : State} : (modObs x0 x1 s).drawn = s.drawn :=
  modObs_only (Only.refl 32 s) rfl .drawn rfl
@[simp] theorem modObs_keeps_pending {x0 : Nat} {x1 : ObsState → ObsState} {s : State} : (modObs x0 x1 s).pending = s.pending :=
  modObs_only (Only.refl 32 s) rfl .pending rfl
@[simp] theorem modDpd_keeps_air {x0 : Nat} {x1 : Dpd → Dpd} {s : State} : (modDpd x0 x1 s).air = s.air :=
  modDpd_only (Only.refl 64 s) rfl .air rfl
@[simp] theorem modDpd_keeps_host {x0 : Nat} {x1 : Dpd → Dpd} {s : State} : (modDpd x0 x1 s).host = s.host :=
  modDpd_only (Only.refl 64 s) rfl .host rfl
@[simp] theorem modDpd_keeps_fault {x0 : Nat} {x1 : Dpd → Dpd} {s : State} : (modDpd x0 x1 s).fault = s.fault :=
  modDpd_only (Only.refl 64 s) rfl .fault rfl
@[simp] theorem modDpd_keeps_log {x0 : Nat} {x1 : Dpd → Dpd} {s : State} : (modDpd x0 x1 s).log = s.log :=
  modDpd_only (Only.refl 64 s) rfl .log rfl
@[simp] theorem modDpd_keeps_sys {x0 : Nat} {x1 : Dpd → Dpd} {s : State} : (modDpd x0 x1 s).sys = s.sys :=
  modDpd_only (Only.refl 64 s) rfl .sys rfl
@[simp] theorem modDpd_keeps_rf {x0 : Nat} {x1 : Dpd → Dpd} {s : State} : (modDpd x0 x1 s).rf = s.rf :=
  modDpd_only (Only.refl 64 s) rfl .rf rfl
@[simp] theorem modDpd_keeps_lg {x0 : Nat} {x1 : Dpd → Dpd} {s : State} : (modDpd x0 x1 s).lg = s.lg :=
  modDpd_only (Only.refl 64 s) rfl .lg rfl
@[simp] theorem modDpd_keeps_np {x0 : Nat} {x1 : Dpd → Dpd} {s : State} : (modDpd x0 x1 s).np = s.np :=
  modDpd_only (Only.refl 64 s) rfl .np rfl
@[simp] theorem modDpd_keeps_hk {x0 : Nat} {x1 : Dpd → Dpd} {s : State} : (modDpd x0 x1 s).hk = s.hk :=
  modDpd_only (Only.refl 64 s) rfl .hk rfl
@[simp] theorem modDpd_keeps_cl {x0 : Nat} {x1 : Dpd → Dpd} {s : State} : (modDpd x0 x1 s).cl = s.cl :=
  modDpd_only (Only.refl 64 s) rfl .cl rfl
@[simp] theorem modDpd_keeps_ps {x0 : Nat} {x1 : Dpd → Dpd} {s : State} : (modDpd x0 x1 s).ps = s.ps :=
  modDpd_only (Only.refl 64 s) rfl .ps rfl
@[simp] theorem modDpd_keeps_fl {x0 : Nat} {x1 : Dpd → Dpd} {s : State} : (modDpd x0 x1 s).fl = s.fl :=
  modDpd_only (Only.refl 64 s) rfl .fl rfl
@[simp] theorem modDpd_keeps_dv {x0 : Nat} {x1 : Dpd → Dpd} {s : State} : (modDpd x0 x1 s).dv = s.dv :=
  modDpd_only (Only.refl 64 s) rfl .dv rfl
@[simp] theorem modDpd_keeps_mem {x0 : Nat} {x1 : Dpd → Dpd} {s : State} : (modDpd x0 x1 s).mem = s.mem :=
  modDpd_only (Only.refl 64 s) rfl .mem rfl
@[simp] theorem modDpd_keeps_bell {x0 : Nat} {x1 : Dpd → Dpd} {s : State} : (modDpd x0 x1 s).bell = s.bell :=
  modDpd_only (Only.refl 64 s) rfl .bell rfl
@[simp] theorem modDpd_keeps_pair {x0 : Nat} {x1 : Dpd → Dpd} {s : State} : (modDpd x0 x1 s).pair = s.pair :=
  modDpd_only (Only.refl 64 s) rfl .pair rfl
@[simp] theorem modDpd_keeps_wire {x0 : Nat} {x1 : Dpd → Dpd} {s : State} : (modDpd x0 x1 s).wire = s.wire :=
  modDpd_only (Only.refl 64 s) rfl .wire rfl
@[simp] theorem modDpd_keeps_drawn {x0 : Nat} {x1 : Dpd → Dpd} {s : State} : (modDpd x0 x1 s).drawn = s.drawn :=
  modDpd_only (Only.refl 64 s) rfl .drawn rfl
@[simp] theorem modDpd_keeps_pending {x0 : Nat} {x1 : Dpd → Dpd} {s : State} : (modDpd x0 x1 s).pending = s.pending :=
  modDpd_only (Only.refl 64 s) rfl .pending rfl
@[simp] theorem modRep_keeps_air {x0 : Nat} {x1 : Rep → Rep} {s : State} : (modRep x0 x1 s).air = s.air :=
  modRep_only (Only.refl 1024 s) rfl .air rfl
@[simp] theorem modRep_keeps_host {x0 : Nat} {x1 : Rep → Rep} {s : State} : (modRep x0 x1 s).host = s.host :=
  modRep_only (Only.refl 1024 s) rfl .host rfl
@[simp] theorem modRep_keeps_fault {x0 : Nat} {x1 : Rep → Rep} {s : State} : (modRep x0 x1 s).fault = s.fault :=
  modRep_only (Only.refl 1024 s) rfl .fault rfl
@[simp] theorem modRep_keeps_log {x0 : Nat} {x1 : Rep → Rep} {s : State} : (modRep x0 x1 s).log = s.log :=
  modRep_only (Only.refl 1024 s) rfl .log rfl
@[simp] theorem modRep_keeps_sys {x0 : Nat} {x1 : Rep → Rep} {s : State} : (modRep x0 x1 s).sys = s.sys :=
  modRep_only (Only.refl 1024 s) rfl .sys rfl
@[simp] theorem modRep_keeps_rf {x0 : Nat} {x1 : Rep → Rep} {s : State} : (modRep x0 x1 s).rf = s.rf :=
  modRep_only (Only.refl 1024 s) rfl .rf rfl
@[simp] theorem modRep_keeps_ce {x0 : Nat} {x1 : Rep → Rep} {s : State} : (modRep x0 x1 s).ce = s.ce :=
  modRep_only (Only.refl 1024 s) rfl .ce rfl
@[simp] theorem modRep_keeps_lg {x0 : Nat} {x1 : Rep → Rep} {s : State} : (modRep x0 x1 s).lg = s.lg :=
  modRep_only (Only.refl 1024 s) rfl .lg rfl
@[simp] theorem modRep_keeps_np {x0 : Nat} {x1 : Rep → Rep} {s : State} : (modRep x0 x1 s).np = s.np :=
  modRep_only (Only.refl 1024 s) rfl .np rfl
@[simp] theorem modRep_keeps_hk {x0 : Nat} {x1 : Rep → Rep} {s : State} : (modRep x0 x1 s).hk = s.hk :=
  modRep_only (Only.refl 1024 s) rfl .hk rfl
@[simp] theorem modRep_keeps_ps {x0 : Nat} {x1 : Rep → Rep} {s : State} : (modRep x0 x1 s).ps = s.ps :=
  modRep_only (Only.refl 1024 s) rfl .ps rfl
@[simp] theorem modRep_keeps_fl {x0 : Nat} {x1 : Rep → Rep} {s : State} : (modRep x0 x1 s).fl = s.fl :=
  modRep_only (Only.refl 1024 s) rfl .fl rfl
@[simp] theorem modRep_keeps_dv {x0 : Nat} {x1 : Rep → Rep} {s : State} : (modRep x0 x1 s).dv = s.dv :=
  modRep_only (Only.refl 1024 s) rfl .dv rfl
@[simp] theorem modRep_keeps_mem {x0 : Nat} {x1 : Rep → Rep} {s : State} : (modRep x0 x1 s).mem = s.mem :=
  modRep_only (Only.refl 1024 s) rfl .mem rfl
@[simp] theorem modRep_keeps_bell {x0 : Nat} {x1 : Rep → Rep} {s : State} : (modRep x0 x1 s).bell = s.bell :=
  modRep_only (Only.refl 1024 s) rfl .bell rfl
@[simp] theorem modRep_keeps_pair {x0 : Nat} {x1 : Rep → Rep} {s : State} : (modRep x0 x1 s).pair = s.pair :=
  modRep_only (Only.refl 1024 s) rfl .pair rfl
@[simp] theorem modRep_keeps_wire {x0 : Nat} {x1 : Rep → Rep} {s : State} : (modRep x0 x1 s).wire = s.wire :=
  modRep_only (Only.refl 1024 s) rfl .wire rfl
@[simp] theorem modRep_keeps_drawn {x0 : Nat} {x1 : Rep → Rep} {s : State} : (modRep x0 x1 s).drawn = s.drawn :=
  modRep_only (Only.refl 1024 s) rfl .drawn rfl
@[simp] theorem modRep_keeps_pending {x0 : Nat} {x1 : Rep → Rep} {s : State} : (modRep x0 x1 s).pending = s.pending :=
  modRep_only (Only.refl 1024 s) rfl .pending rfl
@[simp] theorem modLoop_keeps_air {x0 : Nat} {x1 : Loop → Loop} {s : State} : (modLoop x0 x1 s).air = s.air :=
  modLoop_only (Only.refl 128 s) rfl .air rfl
@[simp] theorem modLoop_keeps_host {x0 : Nat} {x1 : Loop → Loop} {s : State} : (modLoop x0 x1 s).host = s.host :=
  modLoop_only (Only.refl 128 s) rfl .host rfl
@[simp] theorem modLoop_keeps_fault {x0 : Nat} {x1 : Loop → Loop} {s : State} : (modLoop x0 x1 s).fault = s.fault :=
  modLoop_only (Only.refl 128 s) rfl .fault rfl
@[simp] theorem modLoop_keeps_log {x0 : Nat} {x1 : Loop → Loop} {s : State} : (modLoop x0 x1 s).log = s.log :=
  modLoop_only (Only.refl 128 s) rfl .log rfl
@[simp] theorem modLoop_keeps_sys {x0 : Nat} {x1 : Loop → Loop} {s : State} : (modLoop x0 x1 s).sys = s.sys :=
  modLoop_only (Only.refl 128 s) rfl .sys rfl
@[simp] theorem modLoop_keeps_rf {x0 : Nat} {x1 : Loop → Loop} {s : State} : (modLoop x0 x1 s).rf = s.rf :=
  modLoop_only (Only.refl 128 s) rfl .rf rfl
@[simp] theorem modLoop_keeps_ce {x0 : Nat} {x1 : Loop → Loop} {s : State} : (modLoop x0 x1 s).ce = s.ce :=
  modLoop_only (Only.refl 128 s) rfl .ce rfl
@[simp] theorem modLoop_keeps_np {x0 : Nat} {x1 : Loop → Loop} {s : State} : (modLoop x0 x1 s).np = s.np :=
  modLoop_only (Only.refl 128 s) rfl .np rfl
@[simp] theorem modLoop_keeps_hk {x0 : Nat} {x1 : Loop → Loop} {s : State} : (modLoop x0 x1 s).hk = s.hk :=
  modLoop_only (Only.refl 128 s) rfl .hk rfl
@[simp] theorem modLoop_keeps_cl {x0 : Nat} {x1 : Loop → Loop} {s : State} : (modLoop x0 x1 s).cl = s.cl :=
  modLoop_only (Only.refl 128 s) rfl .cl rfl
@[simp] theorem modLoop_keeps_ps {x0 : Nat} {x1 : Loop → Loop} {s : State} : (modLoop x0 x1 s).ps = s.ps :=
  modLoop_only (Only.refl 128 s) rfl .ps rfl
@[simp] theorem modLoop_keeps_fl {x0 : Nat} {x1 : Loop → Loop} {s : State} : (modLoop x0 x1 s).fl = s.fl :=
  modLoop_only (Only.refl 128 s) rfl .fl rfl
@[simp] theorem modLoop_keeps_dv {x0 : Nat} {x1 : Loop → Loop} {s : State} : (modLoop x0 x1 s).dv = s.dv :=
  modLoop_only (Only.refl 128 s) rfl .dv rfl
@[simp] theorem modLoop_keeps_mem {x0 : Nat} {x1 : Loop → Loop} {s : State} : (modLoop x0 x1 s).mem = s.mem :=
  modLoop_only (Only.refl 128 s) rfl .mem rfl
@[simp] theorem modLoop_keeps_bell {x0 : Nat} {x1 : Loop → Loop} {s : State} : (modLoop x0 x1 s).bell = s.bell :=
  modLoop_only (Only.refl 128 s) rfl .bell rfl
@[simp] theorem modLoop_keeps_pair {x0 : Nat} {x1 : Loop → Loop} {s : State} : (modLoop x0 x1 s).pair = s.pair :=
  modLoop_only (Only.refl 128 s) rfl .pair rfl
@[simp] theorem modLoop_keeps_wire {x0 : Nat} {x1 : Loop → Loop} {s : State} : (modLoop x0 x1 s).wire = s.wire :=
  modLoop_only (Only.refl 128 s) rfl .wire rfl
@[simp] theorem modLoop_keeps_drawn {x0 : Nat} {x1 : Loop → Loop} {s : State} : (modLoop x0 x1 s).drawn = s.drawn :=
  modLoop_only (Only.refl 128 s) rfl .drawn rfl
@[simp] theorem modLoop_keeps_pending {x0 : Nat} {x1 : Loop → Loop} {s : State} : (modLoop x0 x1 s).pending = s.pending :=
  modLoop_only (Only.refl 128 s) rfl .pending rfl
@[simp] theorem modPort_keeps_air {x0 : Nat} {x1 : FlPort → FlPort} {s : State} : (modPort x0 x1 s).air = s.air :=
  modPort_only (Only.refl 4096 s) rfl .air rfl
@[simp] theorem modPort_keeps_host {x0 : Nat} {x1 : FlPort → FlPort} {s : State} : (modPort x0 x1 s).host = s.host :=
  modPort_only (Only.refl 4096 s) rfl .host rfl
@[simp] theorem modPort_keeps_fault {x0 : Nat} {x1 : FlPort → FlPort} {s : State} : (modPort x0 x1 s).fault = s.fault :=
  modPort_only (Only.refl 4096 s) rfl .fault rfl
@[simp] theorem modPort_keeps_log {x0 : Nat} {x1 : FlPort → FlPort} {s : State} : (modPort x0 x1 s).log = s.log :=
  modPort_only (Only.refl 4096 s) rfl .log rfl
@[simp] theorem modPort_keeps_sys {x0 : Nat} {x1 : FlPort → FlPort} {s : State} : (modPort x0 x1 s).sys = s.sys :=
  modPort_only (Only.refl 4096 s) rfl .sys rfl
@[simp] theorem modPort_keeps_rf {x0 : Nat} {x1 : FlPort → FlPort} {s : State} : (modPort x0 x1 s).rf = s.rf :=
  modPort_only (Only.refl 4096 s) rfl .rf rfl
@[simp] theorem modPort_keeps_ce {x0 : Nat} {x1 : FlPort → FlPort} {s : State} : (modPort x0 x1 s).ce = s.ce :=
  modPort_only (Only.refl 4096 s) rfl .ce rfl
@[simp] theorem modPort_keeps_lg {x0 : Nat} {x1 : FlPort → FlPort} {s : State} : (modPort x0 x1 s).lg = s.lg :=
  modPort_only (Only.refl 4096 s) rfl .lg rfl
@[simp] theorem modPort_keeps_np {x0 : Nat} {x1 : FlPort → FlPort} {s : State} : (modPort x0 x1 s).np = s.np :=
  modPort_only (Only.refl 4096 s) rfl .np rfl
@[simp] theorem modPort_keeps_hk {x0 : Nat} {x1 : FlPort → FlPort} {s : State} : (modPort x0 x1 s).hk = s.hk :=
  modPort_only (Only.refl 4096 s) rfl .hk rfl
@[simp] theorem modPort_keeps_cl {x0 : Nat} {x1 : FlPort → FlPort} {s : State} : (modPort x0 x1 s).cl = s.cl :=
  modPort_only (Only.refl 4096 s) rfl .cl rfl
@[simp] theorem modPort_keeps_ps {x0 : Nat} {x1 : FlPort → FlPort} {s : State} : (modPort x0 x1 s).ps = s.ps :=
  modPort_only (Only.refl 4096 s) rfl .ps rfl
@[simp] theorem modPort_keeps_dv {x0 : Nat} {x1 : FlPort → FlPort} {s : State} : (modPort x0 x1 s).dv = s.dv :=
  modPort_only (Only.refl 4096 s) rfl .dv rfl
@[simp] theorem modPort_keeps_mem {x0 : Nat} {x1 : FlPort → FlPort} {s : State} : (modPort x0 x1 s).mem = s.mem :=
  modPort_only (Only.refl 4096 s) rfl .mem rfl
@[simp] theorem modPort_keeps_bell {x0 : Nat} {x1 : FlPort → FlPort} {s : State} : (modPort x0 x1 s).bell = s.bell :=
  modPort_only (Only.refl 4096 s) rfl .bell rfl
@[simp] theorem modPort_keeps_pair {x0 : Nat} {x1 : FlPort → FlPort} {s : State} : (modPort x0 x1 s).pair = s.pair :=
  modPort_only (Only.refl 4096 s) rfl .pair rfl
@[simp] theorem modPort_keeps_wire {x0 : Nat} {x1 : FlPort → FlPort} {s : State} : (modPort x0 x1 s).wire = s.wire :=
  modPort_only (Only.refl 4096 s) rfl .wire rfl
@[simp] theorem modPort_keeps_drawn {x0 : Nat} {x1 : FlPort → FlPort} {s : State} : (modPort x0 x1 s).drawn = s.drawn :=
  modPort_only (Only.refl 4096 s) rfl .drawn rfl
@[simp] theorem modPort_keeps_pending {x0 : Nat} {x1 : FlPort → FlPort} {s : State} : (modPort x0 x1 s).pending = s.pending :=
  modPort_only (Only.refl 4096 s) rfl .pending rfl
@[simp] theorem modLane_keeps_air {x0 : Nat} {x1 : Lane → Lane} {s : State} : (modLane x0 x1 s).air = s.air :=
  modLane_only (Only.refl 4096 s) rfl .air rfl
@[simp] theorem modLane_keeps_host {x0 : Nat} {x1 : Lane → Lane} {s : State} : (modLane x0 x1 s).host = s.host :=
  modLane_only (Only.refl 4096 s) rfl .host rfl
@[simp] theorem modLane_keeps_fault {x0 : Nat} {x1 : Lane → Lane} {s : State} : (modLane x0 x1 s).fault = s.fault :=
  modLane_only (Only.refl 4096 s) rfl .fault rfl
@[simp] theorem modLane_keeps_log {x0 : Nat} {x1 : Lane → Lane} {s : State} : (modLane x0 x1 s).log = s.log :=
  modLane_only (Only.refl 4096 s) rfl .log rfl
@[simp] theorem modLane_keeps_sys {x0 : Nat} {x1 : Lane → Lane} {s : State} : (modLane x0 x1 s).sys = s.sys :=
  modLane_only (Only.refl 4096 s) rfl .sys rfl
@[simp] theorem modLane_keeps_rf {x0 : Nat} {x1 : Lane → Lane} {s : State} : (modLane x0 x1 s).rf = s.rf :=
  modLane_only (Only.refl 4096 s) rfl .rf rfl
@[simp] theorem modLane_keeps_ce {x0 : Nat} {x1 : Lane → Lane} {s : State} : (modLane x0 x1 s).ce = s.ce :=
  modLane_only (Only.refl 4096 s) rfl .ce rfl
@[simp] theorem modLane_keeps_lg {x0 : Nat} {x1 : Lane → Lane} {s : State} : (modLane x0 x1 s).lg = s.lg :=
  modLane_only (Only.refl 4096 s) rfl .lg rfl
@[simp] theorem modLane_keeps_np {x0 : Nat} {x1 : Lane → Lane} {s : State} : (modLane x0 x1 s).np = s.np :=
  modLane_only (Only.refl 4096 s) rfl .np rfl
@[simp] theorem modLane_keeps_hk {x0 : Nat} {x1 : Lane → Lane} {s : State} : (modLane x0 x1 s).hk = s.hk :=
  modLane_only (Only.refl 4096 s) rfl .hk rfl
@[simp] theorem modLane_keeps_cl {x0 : Nat} {x1 : Lane → Lane} {s : State} : (modLane x0 x1 s).cl = s.cl :=
  modLane_only (Only.refl 4096 s) rfl .cl rfl
@[simp] theorem modLane_keeps_ps {x0 : Nat} {x1 : Lane → Lane} {s : State} : (modLane x0 x1 s).ps = s.ps :=
  modLane_only (Only.refl 4096 s) rfl .ps rfl
@[simp] theorem modLane_keeps_dv {x0 : Nat} {x1 : Lane → Lane} {s : State} : (modLane x0 x1 s).dv = s.dv :=
  modLane_only (Only.refl 4096 s) rfl .dv rfl
@[simp] theorem modLane_keeps_mem {x0 : Nat} {x1 : Lane → Lane} {s : State} : (modLane x0 x1 s).mem = s.mem :=
  modLane_only (Only.refl 4096 s) rfl .mem rfl
@[simp] theorem modLane_keeps_bell {x0 : Nat} {x1 : Lane → Lane} {s : State} : (modLane x0 x1 s).bell = s.bell :=
  modLane_only (Only.refl 4096 s) rfl .bell rfl
@[simp] theorem modLane_keeps_pair {x0 : Nat} {x1 : Lane → Lane} {s : State} : (modLane x0 x1 s).pair = s.pair :=
  modLane_only (Only.refl 4096 s) rfl .pair rfl
@[simp] theorem modLane_keeps_wire {x0 : Nat} {x1 : Lane → Lane} {s : State} : (modLane x0 x1 s).wire = s.wire :=
  modLane_only (Only.refl 4096 s) rfl .wire rfl
@[simp] theorem modLane_keeps_drawn {x0 : Nat} {x1 : Lane → Lane} {s : State} : (modLane x0 x1 s).drawn = s.drawn :=
  modLane_only (Only.refl 4096 s) rfl .drawn rfl
@[simp] theorem modLane_keeps_pending {x0 : Nat} {x1 : Lane → Lane} {s : State} : (modLane x0 x1 s).pending = s.pending :=
  modLane_only (Only.refl 4096 s) rfl .pending rfl
@[simp] theorem modSlot_keeps_air {x0 : Nat} {x1 : Slot → Slot} {s : State} : (modSlot x0 x1 s).air = s.air :=
  modSlot_only (Only.refl 1024 s) rfl .air rfl
@[simp] theorem modSlot_keeps_host {x0 : Nat} {x1 : Slot → Slot} {s : State} : (modSlot x0 x1 s).host = s.host :=
  modSlot_only (Only.refl 1024 s) rfl .host rfl
@[simp] theorem modSlot_keeps_fault {x0 : Nat} {x1 : Slot → Slot} {s : State} : (modSlot x0 x1 s).fault = s.fault :=
  modSlot_only (Only.refl 1024 s) rfl .fault rfl
@[simp] theorem modSlot_keeps_log {x0 : Nat} {x1 : Slot → Slot} {s : State} : (modSlot x0 x1 s).log = s.log :=
  modSlot_only (Only.refl 1024 s) rfl .log rfl
@[simp] theorem modSlot_keeps_sys {x0 : Nat} {x1 : Slot → Slot} {s : State} : (modSlot x0 x1 s).sys = s.sys :=
  modSlot_only (Only.refl 1024 s) rfl .sys rfl
@[simp] theorem modSlot_keeps_rf {x0 : Nat} {x1 : Slot → Slot} {s : State} : (modSlot x0 x1 s).rf = s.rf :=
  modSlot_only (Only.refl 1024 s) rfl .rf rfl
@[simp] theorem modSlot_keeps_ce {x0 : Nat} {x1 : Slot → Slot} {s : State} : (modSlot x0 x1 s).ce = s.ce :=
  modSlot_only (Only.refl 1024 s) rfl .ce rfl
@[simp] theorem modSlot_keeps_lg {x0 : Nat} {x1 : Slot → Slot} {s : State} : (modSlot x0 x1 s).lg = s.lg :=
  modSlot_only (Only.refl 1024 s) rfl .lg rfl
@[simp] theorem modSlot_keeps_np {x0 : Nat} {x1 : Slot → Slot} {s : State} : (modSlot x0 x1 s).np = s.np :=
  modSlot_only (Only.refl 1024 s) rfl .np rfl
@[simp] theorem modSlot_keeps_hk {x0 : Nat} {x1 : Slot → Slot} {s : State} : (modSlot x0 x1 s).hk = s.hk :=
  modSlot_only (Only.refl 1024 s) rfl .hk rfl
@[simp] theorem modSlot_keeps_ps {x0 : Nat} {x1 : Slot → Slot} {s : State} : (modSlot x0 x1 s).ps = s.ps :=
  modSlot_only (Only.refl 1024 s) rfl .ps rfl
@[simp] theorem modSlot_keeps_fl {x0 : Nat} {x1 : Slot → Slot} {s : State} : (modSlot x0 x1 s).fl = s.fl :=
  modSlot_only (Only.refl 1024 s) rfl .fl rfl
@[simp] theorem modSlot_keeps_dv {x0 : Nat} {x1 : Slot → Slot} {s : State} : (modSlot x0 x1 s).dv = s.dv :=
  modSlot_only (Only.refl 1024 s) rfl .dv rfl
@[simp] theorem modSlot_keeps_mem {x0 : Nat} {x1 : Slot → Slot} {s : State} : (modSlot x0 x1 s).mem = s.mem :=
  modSlot_only (Only.refl 1024 s) rfl .mem rfl
@[simp] theorem modSlot_keeps_bell {x0 : Nat} {x1 : Slot → Slot} {s : State} : (modSlot x0 x1 s).bell = s.bell :=
  modSlot_only (Only.refl 1024 s) rfl .bell rfl
@[simp] theorem modSlot_keeps_pair {x0 : Nat} {x1 : Slot → Slot} {s : State} : (modSlot x0 x1 s).pair = s.pair :=
  modSlot_only (Only.refl 1024 s) rfl .pair rfl
@[simp] theorem modSlot_keeps_wire {x0 : Nat} {x1 : Slot → Slot} {s : State} : (modSlot x0 x1 s).wire = s.wire :=
  modSlot_only (Only.refl 1024 s) rfl .wire rfl
@[simp] theorem modSlot_keeps_drawn {x0 : Nat} {x1 : Slot → Slot} {s : State} : (modSlot x0 x1 s).drawn = s.drawn :=
  modSlot_only (Only.refl 1024 s) rfl .drawn rfl
@[simp] theorem modSlot_keeps_pending {x0 : Nat} {x1 : Slot → Slot} {s : State} : (modSlot x0 x1 s).pending = s.pending :=
  modSlot_only (Only.refl 1024 s) rfl .pending rfl
@[simp] theorem finishMove_keeps_air {s : State} : (finishMove s).air = s.air :=
  finishMove_only (Only.refl 26 s) rfl .air rfl
@[simp] theorem finishMove_keeps_fault {s : State} : (finishMove s).fault = s.fault :=
  finishMove_only (Only.refl 26 s) rfl .fault rfl
@[simp] theorem finishMove_keeps_rf {s : State} : (finishMove s).rf = s.rf :=
  finishMove_only (Only.refl 26 s) rfl .rf rfl
@[simp] theorem finishMove_keeps_ce {s : State} : (finishMove s).ce = s.ce :=
  finishMove_only (Only.refl 26 s) rfl .ce rfl
@[simp] theorem finishMove_keeps_lg {s : State} : (finishMove s).lg = s.lg :=
  finishMove_only (Only.refl 26 s) rfl .lg rfl
@[simp] theorem finishMove_keeps_np {s : State} : (finishMove s).np = s.np :=
  finishMove_only (Only.refl 26 s) rfl .np rfl
@[simp] theorem finishMove_keeps_hk {s : State} : (finishMove s).hk = s.hk :=
  finishMove_only (Only.refl 26 s) rfl .hk rfl
@[simp] theorem finishMove_keeps_cl {s : State} : (finishMove s).cl = s.cl :=
  finishMove_only (Only.refl 26 s) rfl .cl rfl
@[simp] theorem finishMove_keeps_ps {s : State} : (finishMove s).ps = s.ps :=
  finishMove_only (Only.refl 26 s) rfl .ps rfl
@[simp] theorem finishMove_keeps_fl {s : State} : (finishMove s).fl = s.fl :=
  finishMove_only (Only.refl 26 s) rfl .fl rfl
@[simp] theorem finishMove_keeps_dv {s : State} : (finishMove s).dv = s.dv :=
  finishMove_only (Only.refl 26 s) rfl .dv rfl
@[simp] theorem finishMove_keeps_mem {s : State} : (finishMove s).mem = s.mem :=
  finishMove_only (Only.refl 26 s) rfl .mem rfl
@[simp] theorem finishMove_keeps_bell {s : State} : (finishMove s).bell = s.bell :=
  finishMove_only (Only.refl 26 s) rfl .bell rfl
@[simp] theorem finishMove_keeps_pair {s : State} : (finishMove s).pair = s.pair :=
  finishMove_only (Only.refl 26 s) rfl .pair rfl
@[simp] theorem finishMove_keeps_wire {s : State} : (finishMove s).wire = s.wire :=
  finishMove_only (Only.refl 26 s) rfl .wire rfl
@[simp] theorem finishMove_keeps_drawn {s : State} : (finishMove s).drawn = s.drawn :=
  finishMove_only (Only.refl 26 s) rfl .drawn rfl
@[simp] theorem finishMove_keeps_pending {s : State} : (finishMove s).pending = s.pending :=
  finishMove_only (Only.refl 26 s) rfl .pending rfl
@[simp] theorem reviewMove_keeps_air {s : State} : (reviewMove s).air = s.air :=
  reviewMove_only (Only.refl 26 s) rfl .air rfl
@[simp] theorem reviewMove_keeps_fault {s : State} : (reviewMove s).fault = s.fault :=
  reviewMove_only (Only.refl 26 s) rfl .fault rfl
@[simp] theorem reviewMove_keeps_rf {s : State} : (reviewMove s).rf = s.rf :=
  reviewMove_only (Only.refl 26 s) rfl .rf rfl
@[simp] theorem reviewMove_keeps_ce {s : State} : (reviewMove s).ce = s.ce :=
  reviewMove_only (Only.refl 26 s) rfl .ce rfl
@[simp] theorem reviewMove_keeps_lg {s : State} : (reviewMove s).lg = s.lg :=
  reviewMove_only (Only.refl 26 s) rfl .lg rfl
@[simp] theorem reviewMove_keeps_np {s : State} : (reviewMove s).np = s.np :=
  reviewMove_only (Only.refl 26 s) rfl .np rfl
@[simp] theorem reviewMove_keeps_hk {s : State} : (reviewMove s).hk = s.hk :=
  reviewMove_only (Only.refl 26 s) rfl .hk rfl
@[simp] theorem reviewMove_keeps_cl {s : State} : (reviewMove s).cl = s.cl :=
  reviewMove_only (Only.refl 26 s) rfl .cl rfl
@[simp] theorem reviewMove_keeps_ps {s : State} : (reviewMove s).ps = s.ps :=
  reviewMove_only (Only.refl 26 s) rfl .ps rfl
@[simp] theorem reviewMove_keeps_fl {s : State} : (reviewMove s).fl = s.fl :=
  reviewMove_only (Only.refl 26 s) rfl .fl rfl
@[simp] theorem reviewMove_keeps_dv {s : State} : (reviewMove s).dv = s.dv :=
  reviewMove_only (Only.refl 26 s) rfl .dv rfl
@[simp] theorem reviewMove_keeps_mem {s : State} : (reviewMove s).mem = s.mem :=
  reviewMove_only (Only.refl 26 s) rfl .mem rfl
@[simp] theorem reviewMove_keeps_bell {s : State} : (reviewMove s).bell = s.bell :=
  reviewMove_only (Only.refl 26 s) rfl .bell rfl
@[simp] theorem reviewMove_keeps_pair {s : State} : (reviewMove s).pair = s.pair :=
  reviewMove_only (Only.refl 26 s) rfl .pair rfl
@[simp] theorem reviewMove_keeps_wire {s : State} : (reviewMove s).wire = s.wire :=
  reviewMove_only (Only.refl 26 s) rfl .wire rfl
@[simp] theorem reviewMove_keeps_drawn {s : State} : (reviewMove s).drawn = s.drawn :=
  reviewMove_only (Only.refl 26 s) rfl .drawn rfl
@[simp] theorem reviewMove_keeps_pending {s : State} : (reviewMove s).pending = s.pending :=
  reviewMove_only (Only.refl 26 s) rfl .pending rfl
@[simp] theorem bandsRetuned_keeps_air {x0 : Nat} {s : State} : (bandsRetuned x0 s).air = s.air :=
  bandsRetuned_only (Only.refl 452 s) rfl .air rfl
@[simp] theorem bandsRetuned_keeps_host {x0 : Nat} {s : State} : (bandsRetuned x0 s).host = s.host :=
  bandsRetuned_only (Only.refl 452 s) rfl .host rfl
@[simp] theorem bandsRetuned_keeps_log {x0 : Nat} {s : State} : (bandsRetuned x0 s).log = s.log :=
  bandsRetuned_only (Only.refl 452 s) rfl .log rfl
@[simp] theorem bandsRetuned_keeps_sys {x0 : Nat} {s : State} : (bandsRetuned x0 s).sys = s.sys :=
  bandsRetuned_only (Only.refl 452 s) rfl .sys rfl
@[simp] theorem bandsRetuned_keeps_rf {x0 : Nat} {s : State} : (bandsRetuned x0 s).rf = s.rf :=
  bandsRetuned_only (Only.refl 452 s) rfl .rf rfl
@[simp] theorem bandsRetuned_keeps_hk {x0 : Nat} {s : State} : (bandsRetuned x0 s).hk = s.hk :=
  bandsRetuned_only (Only.refl 452 s) rfl .hk rfl
@[simp] theorem bandsRetuned_keeps_cl {x0 : Nat} {s : State} : (bandsRetuned x0 s).cl = s.cl :=
  bandsRetuned_only (Only.refl 452 s) rfl .cl rfl
@[simp] theorem bandsRetuned_keeps_ps {x0 : Nat} {s : State} : (bandsRetuned x0 s).ps = s.ps :=
  bandsRetuned_only (Only.refl 452 s) rfl .ps rfl
@[simp] theorem bandsRetuned_keeps_fl {x0 : Nat} {s : State} : (bandsRetuned x0 s).fl = s.fl :=
  bandsRetuned_only (Only.refl 452 s) rfl .fl rfl
@[simp] theorem bandsRetuned_keeps_dv {x0 : Nat} {s : State} : (bandsRetuned x0 s).dv = s.dv :=
  bandsRetuned_only (Only.refl 452 s) rfl .dv rfl
@[simp] theorem bandsRetuned_keeps_mem {x0 : Nat} {s : State} : (bandsRetuned x0 s).mem = s.mem :=
  bandsRetuned_only (Only.refl 452 s) rfl .mem rfl
@[simp] theorem bandsRetuned_keeps_bell {x0 : Nat} {s : State} : (bandsRetuned x0 s).bell = s.bell :=
  bandsRetuned_only (Only.refl 452 s) rfl .bell rfl
@[simp] theorem bandsRetuned_keeps_pair {x0 : Nat} {s : State} : (bandsRetuned x0 s).pair = s.pair :=
  bandsRetuned_only (Only.refl 452 s) rfl .pair rfl
@[simp] theorem bandsRetuned_keeps_wire {x0 : Nat} {s : State} : (bandsRetuned x0 s).wire = s.wire :=
  bandsRetuned_only (Only.refl 452 s) rfl .wire rfl
@[simp] theorem bandsRetuned_keeps_drawn {x0 : Nat} {s : State} : (bandsRetuned x0 s).drawn = s.drawn :=
  bandsRetuned_only (Only.refl 452 s) rfl .drawn rfl
@[simp] theorem bandsRetuned_keeps_pending {x0 : Nat} {s : State} : (bandsRetuned x0 s).pending = s.pending :=
  bandsRetuned_only (Only.refl 452 s) rfl .pending rfl
@[simp] theorem bandChanged_keeps_air {x0 : Dir} {x1 : Nat} {x2 : Bool} {s : State} : (bandChanged x0 x1 x2 s).air = s.air :=
  bandChanged_only (Only.refl 388 s) rfl .air rfl
@[simp] theorem bandChanged_keeps_host {x0 : Dir} {x1 : Nat} {x2 : Bool} {s : State} : (bandChanged x0 x1 x2 s).host = s.host :=
  bandChanged_only (Only.refl 388 s) rfl .host rfl
@[simp] theorem bandChanged_keeps_log {x0 : Dir} {x1 : Nat} {x2 : Bool} {s : State} : (bandChanged x0 x1 x2 s).log = s.log :=
  bandChanged_only (Only.refl 388 s) rfl .log rfl
@[simp] theorem bandChanged_keeps_sys {x0 : Dir} {x1 : Nat} {x2 : Bool} {s : State} : (bandChanged x0 x1 x2 s).sys = s.sys :=
  bandChanged_only (Only.refl 388 s) rfl .sys rfl
@[simp] theorem bandChanged_keeps_rf {x0 : Dir} {x1 : Nat} {x2 : Bool} {s : State} : (bandChanged x0 x1 x2 s).rf = s.rf :=
  bandChanged_only (Only.refl 388 s) rfl .rf rfl
@[simp] theorem bandChanged_keeps_ce {x0 : Dir} {x1 : Nat} {x2 : Bool} {s : State} : (bandChanged x0 x1 x2 s).ce = s.ce :=
  bandChanged_only (Only.refl 388 s) rfl .ce rfl
@[simp] theorem bandChanged_keeps_hk {x0 : Dir} {x1 : Nat} {x2 : Bool} {s : State} : (bandChanged x0 x1 x2 s).hk = s.hk :=
  bandChanged_only (Only.refl 388 s) rfl .hk rfl
@[simp] theorem bandChanged_keeps_cl {x0 : Dir} {x1 : Nat} {x2 : Bool} {s : State} : (bandChanged x0 x1 x2 s).cl = s.cl :=
  bandChanged_only (Only.refl 388 s) rfl .cl rfl
@[simp] theorem bandChanged_keeps_ps {x0 : Dir} {x1 : Nat} {x2 : Bool} {s : State} : (bandChanged x0 x1 x2 s).ps = s.ps :=
  bandChanged_only (Only.refl 388 s) rfl .ps rfl
@[simp] theorem bandChanged_keeps_fl {x0 : Dir} {x1 : Nat} {x2 : Bool} {s : State} : (bandChanged x0 x1 x2 s).fl = s.fl :=
  bandChanged_only (Only.refl 388 s) rfl .fl rfl
@[simp] theorem bandChanged_keeps_dv {x0 : Dir} {x1 : Nat} {x2 : Bool} {s : State} : (bandChanged x0 x1 x2 s).dv = s.dv :=
  bandChanged_only (Only.refl 388 s) rfl .dv rfl
@[simp] theorem bandChanged_keeps_mem {x0 : Dir} {x1 : Nat} {x2 : Bool} {s : State} : (bandChanged x0 x1 x2 s).mem = s.mem :=
  bandChanged_only (Only.refl 388 s) rfl .mem rfl
@[simp] theorem bandChanged_keeps_bell {x0 : Dir} {x1 : Nat} {x2 : Bool} {s : State} : (bandChanged x0 x1 x2 s).bell = s.bell :=
  bandChanged_only (Only.refl 388 s) rfl .bell rfl
@[simp] theorem bandChanged_keeps_pair {x0 : Dir} {x1 : Nat} {x2 : Bool} {s : State} : (bandChanged x0 x1 x2 s).pair = s.pair :=
  bandChanged_only (Only.refl 388 s) rfl .pair rfl
@[simp] theorem bandChanged_keeps_wire {x0 : Dir} {x1 : Nat} {x2 : Bool} {s : State} : (bandChanged x0 x1 x2 s).wire = s.wire :=
  bandChanged_only (Only.refl 388 s) rfl .wire rfl
@[simp] theorem bandChanged_keeps_drawn {x0 : Dir} {x1 : Nat} {x2 : Bool} {s : State} : (bandChanged x0 x1 x2 s).drawn = s.drawn :=
  bandChanged_only (Only.refl 388 s) rfl .drawn rfl
@[simp] theorem bandChanged_keeps_pending {x0 : Dir} {x1 : Nat} {x2 : Bool} {s : State} : (bandChanged x0 x1 x2 s).pending = s.pending :=
  bandChanged_only (Only.refl 388 s) rfl .pending rfl
@[simp] theorem chainStops_keeps_air {x0 : Nat} {s : State} : (chainStops x0 s).air = s.air :=
  chainStops_only (Only.refl 452 s) rfl .air rfl
@[simp] theorem chainStops_keeps_host {x0 : Nat} {s : State} : (chainStops x0 s).host = s.host :=
  chainStops_only (Only.refl 452 s) rfl .host rfl
@[simp] theorem chainStops_keeps_log {x0 : Nat} {s : State} : (chainStops x0 s).log = s.log :=
  chainStops_only (Only.refl 452 s) rfl .log rfl
@[simp] theorem chainStops_keeps_sys {x0 : Nat} {s : State} : (chainStops x0 s).sys = s.sys :=
  chainStops_only (Only.refl 452 s) rfl .sys rfl
@[simp] theorem chainStops_keeps_rf {x0 : Nat} {s : State} : (chainStops x0 s).rf = s.rf :=
  chainStops_only (Only.refl 452 s) rfl .rf rfl
@[simp] theorem chainStops_keeps_hk {x0 : Nat} {s : State} : (chainStops x0 s).hk = s.hk :=
  chainStops_only (Only.refl 452 s) rfl .hk rfl
@[simp] theorem chainStops_keeps_cl {x0 : Nat} {s : State} : (chainStops x0 s).cl = s.cl :=
  chainStops_only (Only.refl 452 s) rfl .cl rfl
@[simp] theorem chainStops_keeps_ps {x0 : Nat} {s : State} : (chainStops x0 s).ps = s.ps :=
  chainStops_only (Only.refl 452 s) rfl .ps rfl
@[simp] theorem chainStops_keeps_fl {x0 : Nat} {s : State} : (chainStops x0 s).fl = s.fl :=
  chainStops_only (Only.refl 452 s) rfl .fl rfl
@[simp] theorem chainStops_keeps_dv {x0 : Nat} {s : State} : (chainStops x0 s).dv = s.dv :=
  chainStops_only (Only.refl 452 s) rfl .dv rfl
@[simp] theorem chainStops_keeps_mem {x0 : Nat} {s : State} : (chainStops x0 s).mem = s.mem :=
  chainStops_only (Only.refl 452 s) rfl .mem rfl
@[simp] theorem chainStops_keeps_bell {x0 : Nat} {s : State} : (chainStops x0 s).bell = s.bell :=
  chainStops_only (Only.refl 452 s) rfl .bell rfl
@[simp] theorem chainStops_keeps_pair {x0 : Nat} {s : State} : (chainStops x0 s).pair = s.pair :=
  chainStops_only (Only.refl 452 s) rfl .pair rfl
@[simp] theorem chainStops_keeps_wire {x0 : Nat} {s : State} : (chainStops x0 s).wire = s.wire :=
  chainStops_only (Only.refl 452 s) rfl .wire rfl
@[simp] theorem chainStops_keeps_drawn {x0 : Nat} {s : State} : (chainStops x0 s).drawn = s.drawn :=
  chainStops_only (Only.refl 452 s) rfl .drawn rfl
@[simp] theorem chainStops_keeps_pending {x0 : Nat} {s : State} : (chainStops x0 s).pending = s.pending :=
  chainStops_only (Only.refl 452 s) rfl .pending rfl
@[simp] theorem chainDeliversAgain_keeps_air {x0 : Nat} {s : State} : (chainDeliversAgain x0 s).air = s.air :=
  chainDeliversAgain_only (Only.refl 452 s) rfl .air rfl
@[simp] theorem chainDeliversAgain_keeps_host {x0 : Nat} {s : State} : (chainDeliversAgain x0 s).host = s.host :=
  chainDeliversAgain_only (Only.refl 452 s) rfl .host rfl
@[simp] theorem chainDeliversAgain_keeps_log {x0 : Nat} {s : State} : (chainDeliversAgain x0 s).log = s.log :=
  chainDeliversAgain_only (Only.refl 452 s) rfl .log rfl
@[simp] theorem chainDeliversAgain_keeps_sys {x0 : Nat} {s : State} : (chainDeliversAgain x0 s).sys = s.sys :=
  chainDeliversAgain_only (Only.refl 452 s) rfl .sys rfl
@[simp] theorem chainDeliversAgain_keeps_rf {x0 : Nat} {s : State} : (chainDeliversAgain x0 s).rf = s.rf :=
  chainDeliversAgain_only (Only.refl 452 s) rfl .rf rfl
@[simp] theorem chainDeliversAgain_keeps_hk {x0 : Nat} {s : State} : (chainDeliversAgain x0 s).hk = s.hk :=
  chainDeliversAgain_only (Only.refl 452 s) rfl .hk rfl
@[simp] theorem chainDeliversAgain_keeps_cl {x0 : Nat} {s : State} : (chainDeliversAgain x0 s).cl = s.cl :=
  chainDeliversAgain_only (Only.refl 452 s) rfl .cl rfl
@[simp] theorem chainDeliversAgain_keeps_ps {x0 : Nat} {s : State} : (chainDeliversAgain x0 s).ps = s.ps :=
  chainDeliversAgain_only (Only.refl 452 s) rfl .ps rfl
@[simp] theorem chainDeliversAgain_keeps_fl {x0 : Nat} {s : State} : (chainDeliversAgain x0 s).fl = s.fl :=
  chainDeliversAgain_only (Only.refl 452 s) rfl .fl rfl
@[simp] theorem chainDeliversAgain_keeps_dv {x0 : Nat} {s : State} : (chainDeliversAgain x0 s).dv = s.dv :=
  chainDeliversAgain_only (Only.refl 452 s) rfl .dv rfl
@[simp] theorem chainDeliversAgain_keeps_mem {x0 : Nat} {s : State} : (chainDeliversAgain x0 s).mem = s.mem :=
  chainDeliversAgain_only (Only.refl 452 s) rfl .mem rfl
@[simp] theorem chainDeliversAgain_keeps_bell {x0 : Nat} {s : State} : (chainDeliversAgain x0 s).bell = s.bell :=
  chainDeliversAgain_only (Only.refl 452 s) rfl .bell rfl
@[simp] theorem chainDeliversAgain_keeps_pair {x0 : Nat} {s : State} : (chainDeliversAgain x0 s).pair = s.pair :=
  chainDeliversAgain_only (Only.refl 452 s) rfl .pair rfl
@[simp] theorem chainDeliversAgain_keeps_wire {x0 : Nat} {s : State} : (chainDeliversAgain x0 s).wire = s.wire :=
  chainDeliversAgain_only (Only.refl 452 s) rfl .wire rfl
@[simp] theorem chainDeliversAgain_keeps_drawn {x0 : Nat} {s : State} : (chainDeliversAgain x0 s).drawn = s.drawn :=
  chainDeliversAgain_only (Only.refl 452 s) rfl .drawn rfl
@[simp] theorem chainDeliversAgain_keeps_pending {x0 : Nat} {s : State} : (chainDeliversAgain x0 s).pending = s.pending :=
  chainDeliversAgain_only (Only.refl 452 s) rfl .pending rfl
@[simp] theorem becomeActive_keeps_air {x0 : Nat} {s : State} : (becomeActive x0 s).air = s.air :=
  becomeActive_only (Only.refl 486 s) rfl .air rfl
@[simp] theorem becomeActive_keeps_log {x0 : Nat} {s : State} : (becomeActive x0 s).log = s.log :=
  becomeActive_only (Only.refl 486 s) rfl .log rfl
@[simp] theorem becomeActive_keeps_sys {x0 : Nat} {s : State} : (becomeActive x0 s).sys = s.sys :=
  becomeActive_only (Only.refl 486 s) rfl .sys rfl
@[simp] theorem becomeActive_keeps_hk {x0 : Nat} {s : State} : (becomeActive x0 s).hk = s.hk :=
  becomeActive_only (Only.refl 486 s) rfl .hk rfl
@[simp] theorem becomeActive_keeps_cl {x0 : Nat} {s : State} : (becomeActive x0 s).cl = s.cl :=
  becomeActive_only (Only.refl 486 s) rfl .cl rfl
@[simp] theorem becomeActive_keeps_ps {x0 : Nat} {s : State} : (becomeActive x0 s).ps = s.ps :=
  becomeActive_only (Only.refl 486 s) rfl .ps rfl
@[simp] theorem becomeActive_keeps_fl {x0 : Nat} {s : State} : (becomeActive x0 s).fl = s.fl :=
  becomeActive_only (Only.refl 486 s) rfl .fl rfl
@[simp] theorem becomeActive_keeps_dv {x0 : Nat} {s : State} : (becomeActive x0 s).dv = s.dv :=
  becomeActive_only (Only.refl 486 s) rfl .dv rfl
@[simp] theorem becomeActive_keeps_mem {x0 : Nat} {s : State} : (becomeActive x0 s).mem = s.mem :=
  becomeActive_only (Only.refl 486 s) rfl .mem rfl
@[simp] theorem becomeActive_keeps_bell {x0 : Nat} {s : State} : (becomeActive x0 s).bell = s.bell :=
  becomeActive_only (Only.refl 486 s) rfl .bell rfl
@[simp] theorem becomeActive_keeps_pair {x0 : Nat} {s : State} : (becomeActive x0 s).pair = s.pair :=
  becomeActive_only (Only.refl 486 s) rfl .pair rfl
@[simp] theorem becomeActive_keeps_wire {x0 : Nat} {s : State} : (becomeActive x0 s).wire = s.wire :=
  becomeActive_only (Only.refl 486 s) rfl .wire rfl
@[simp] theorem becomeActive_keeps_drawn {x0 : Nat} {s : State} : (becomeActive x0 s).drawn = s.drawn :=
  becomeActive_only (Only.refl 486 s) rfl .drawn rfl
@[simp] theorem becomeActive_keeps_pending {x0 : Nat} {s : State} : (becomeActive x0 s).pending = s.pending :=
  becomeActive_only (Only.refl 486 s) rfl .pending rfl
@[simp] theorem powerDown_keeps_air {x0 : Nat} {s : State} : (powerDown x0 s).air = s.air :=
  powerDown_only (Only.refl 486 s) rfl .air rfl
@[simp] theorem powerDown_keeps_log {x0 : Nat} {s : State} : (powerDown x0 s).log = s.log :=
  powerDown_only (Only.refl 486 s) rfl .log rfl
@[simp] theorem powerDown_keeps_sys {x0 : Nat} {s : State} : (powerDown x0 s).sys = s.sys :=
  powerDown_only (Only.refl 486 s) rfl .sys rfl
@[simp] theorem powerDown_keeps_hk {x0 : Nat} {s : State} : (powerDown x0 s).hk = s.hk :=
  powerDown_only (Only.refl 486 s) rfl .hk rfl
@[simp] theorem powerDown_keeps_cl {x0 : Nat} {s : State} : (powerDown x0 s).cl = s.cl :=
  powerDown_only (Only.refl 486 s) rfl .cl rfl
@[simp] theorem powerDown_keeps_ps {x0 : Nat} {s : State} : (powerDown x0 s).ps = s.ps :=
  powerDown_only (Only.refl 486 s) rfl .ps rfl
@[simp] theorem powerDown_keeps_fl {x0 : Nat} {s : State} : (powerDown x0 s).fl = s.fl :=
  powerDown_only (Only.refl 486 s) rfl .fl rfl
@[simp] theorem powerDown_keeps_dv {x0 : Nat} {s : State} : (powerDown x0 s).dv = s.dv :=
  powerDown_only (Only.refl 486 s) rfl .dv rfl
@[simp] theorem powerDown_keeps_mem {x0 : Nat} {s : State} : (powerDown x0 s).mem = s.mem :=
  powerDown_only (Only.refl 486 s) rfl .mem rfl
@[simp] theorem powerDown_keeps_bell {x0 : Nat} {s : State} : (powerDown x0 s).bell = s.bell :=
  powerDown_only (Only.refl 486 s) rfl .bell rfl
@[simp] theorem powerDown_keeps_pair {x0 : Nat} {s : State} : (powerDown x0 s).pair = s.pair :=
  powerDown_only (Only.refl 486 s) rfl .pair rfl
@[simp] theorem powerDown_keeps_wire {x0 : Nat} {s : State} : (powerDown x0 s).wire = s.wire :=
  powerDown_only (Only.refl 486 s) rfl .wire rfl
@[simp] theorem powerDown_keeps_drawn {x0 : Nat} {s : State} : (powerDown x0 s).drawn = s.drawn :=
  powerDown_only (Only.refl 486 s) rfl .drawn rfl
@[simp] theorem powerDown_keeps_pending {x0 : Nat} {s : State} : (powerDown x0 s).pending = s.pending :=
  powerDown_only (Only.refl 486 s) rfl .pending rfl
@[simp] theorem startOp_keeps_air {x0 : Nat} {x1 : RfOp} {s : State} : (startOp x0 x1 s).air = s.air :=
  startOp_only (Only.refl 484 s) rfl .air rfl
@[simp] theorem startOp_keeps_host {x0 : Nat} {x1 : RfOp} {s : State} : (startOp x0 x1 s).host = s.host :=
  startOp_only (Only.refl 484 s) rfl .host rfl
@[simp] theorem startOp_keeps_log {x0 : Nat} {x1 : RfOp} {s : State} : (startOp x0 x1 s).log = s.log :=
  startOp_only (Only.refl 484 s) rfl .log rfl
@[simp] theorem startOp_keeps_sys {x0 : Nat} {x1 : RfOp} {s : State} : (startOp x0 x1 s).sys = s.sys :=
  startOp_only (Only.refl 484 s) rfl .sys rfl
@[simp] theorem startOp_keeps_hk {x0 : Nat} {x1 : RfOp} {s : State} : (startOp x0 x1 s).hk = s.hk :=
  startOp_only (Only.refl 484 s) rfl .hk rfl
@[simp] theorem startOp_keeps_cl {x0 : Nat} {x1 : RfOp} {s : State} : (startOp x0 x1 s).cl = s.cl :=
  startOp_only (Only.refl 484 s) rfl .cl rfl
@[simp] theorem startOp_keeps_ps {x0 : Nat} {x1 : RfOp} {s : State} : (startOp x0 x1 s).ps = s.ps :=
  startOp_only (Only.refl 484 s) rfl .ps rfl
@[simp] theorem startOp_keeps_fl {x0 : Nat} {x1 : RfOp} {s : State} : (startOp x0 x1 s).fl = s.fl :=
  startOp_only (Only.refl 484 s) rfl .fl rfl
@[simp] theorem startOp_keeps_dv {x0 : Nat} {x1 : RfOp} {s : State} : (startOp x0 x1 s).dv = s.dv :=
  startOp_only (Only.refl 484 s) rfl .dv rfl
@[simp] theorem startOp_keeps_mem {x0 : Nat} {x1 : RfOp} {s : State} : (startOp x0 x1 s).mem = s.mem :=
  startOp_only (Only.refl 484 s) rfl .mem rfl
@[simp] theorem startOp_keeps_bell {x0 : Nat} {x1 : RfOp} {s : State} : (startOp x0 x1 s).bell = s.bell :=
  startOp_only (Only.refl 484 s) rfl .bell rfl
@[simp] theorem startOp_keeps_pair {x0 : Nat} {x1 : RfOp} {s : State} : (startOp x0 x1 s).pair = s.pair :=
  startOp_only (Only.refl 484 s) rfl .pair rfl
@[simp] theorem startOp_keeps_wire {x0 : Nat} {x1 : RfOp} {s : State} : (startOp x0 x1 s).wire = s.wire :=
  startOp_only (Only.refl 484 s) rfl .wire rfl
@[simp] theorem startOp_keeps_drawn {x0 : Nat} {x1 : RfOp} {s : State} : (startOp x0 x1 s).drawn = s.drawn :=
  startOp_only (Only.refl 484 s) rfl .drawn rfl
@[simp] theorem startOp_keeps_pending {x0 : Nat} {x1 : RfOp} {s : State} : (startOp x0 x1 s).pending = s.pending :=
  startOp_only (Only.refl 484 s) rfl .pending rfl
@[simp] theorem beginOp_keeps_air {x0 : Nat} {x1 : RfOp} {s : State} : (beginOp x0 x1 s).air = s.air :=
  beginOp_only (Only.refl 484 s) rfl .air rfl
@[simp] theorem beginOp_keeps_host {x0 : Nat} {x1 : RfOp} {s : State} : (beginOp x0 x1 s).host = s.host :=
  beginOp_only (Only.refl 484 s) rfl .host rfl
@[simp] theorem beginOp_keeps_log {x0 : Nat} {x1 : RfOp} {s : State} : (beginOp x0 x1 s).log = s.log :=
  beginOp_only (Only.refl 484 s) rfl .log rfl
@[simp] theorem beginOp_keeps_sys {x0 : Nat} {x1 : RfOp} {s : State} : (beginOp x0 x1 s).sys = s.sys :=
  beginOp_only (Only.refl 484 s) rfl .sys rfl
@[simp] theorem beginOp_keeps_hk {x0 : Nat} {x1 : RfOp} {s : State} : (beginOp x0 x1 s).hk = s.hk :=
  beginOp_only (Only.refl 484 s) rfl .hk rfl
@[simp] theorem beginOp_keeps_cl {x0 : Nat} {x1 : RfOp} {s : State} : (beginOp x0 x1 s).cl = s.cl :=
  beginOp_only (Only.refl 484 s) rfl .cl rfl
@[simp] theorem beginOp_keeps_ps {x0 : Nat} {x1 : RfOp} {s : State} : (beginOp x0 x1 s).ps = s.ps :=
  beginOp_only (Only.refl 484 s) rfl .ps rfl
@[simp] theorem beginOp_keeps_fl {x0 : Nat} {x1 : RfOp} {s : State} : (beginOp x0 x1 s).fl = s.fl :=
  beginOp_only (Only.refl 484 s) rfl .fl rfl
@[simp] theorem beginOp_keeps_dv {x0 : Nat} {x1 : RfOp} {s : State} : (beginOp x0 x1 s).dv = s.dv :=
  beginOp_only (Only.refl 484 s) rfl .dv rfl
@[simp] theorem beginOp_keeps_mem {x0 : Nat} {x1 : RfOp} {s : State} : (beginOp x0 x1 s).mem = s.mem :=
  beginOp_only (Only.refl 484 s) rfl .mem rfl
@[simp] theorem beginOp_keeps_bell {x0 : Nat} {x1 : RfOp} {s : State} : (beginOp x0 x1 s).bell = s.bell :=
  beginOp_only (Only.refl 484 s) rfl .bell rfl
@[simp] theorem beginOp_keeps_pair {x0 : Nat} {x1 : RfOp} {s : State} : (beginOp x0 x1 s).pair = s.pair :=
  beginOp_only (Only.refl 484 s) rfl .pair rfl
@[simp] theorem beginOp_keeps_wire {x0 : Nat} {x1 : RfOp} {s : State} : (beginOp x0 x1 s).wire = s.wire :=
  beginOp_only (Only.refl 484 s) rfl .wire rfl
@[simp] theorem beginOp_keeps_drawn {x0 : Nat} {x1 : RfOp} {s : State} : (beginOp x0 x1 s).drawn = s.drawn :=
  beginOp_only (Only.refl 484 s) rfl .drawn rfl
@[simp] theorem beginOp_keeps_pending {x0 : Nat} {x1 : RfOp} {s : State} : (beginOp x0 x1 s).pending = s.pending :=
  beginOp_only (Only.refl 484 s) rfl .pending rfl
@[simp] theorem lockDeclared_keeps_air {x0 : Nat} {x1 : Nat} {s : State} : (lockDeclared x0 x1 s).air = s.air :=
  lockDeclared_only (Only.refl 486 s) rfl .air rfl
@[simp] theorem lockDeclared_keeps_log {x0 : Nat} {x1 : Nat} {s : State} : (lockDeclared x0 x1 s).log = s.log :=
  lockDeclared_only (Only.refl 486 s) rfl .log rfl
@[simp] theorem lockDeclared_keeps_sys {x0 : Nat} {x1 : Nat} {s : State} : (lockDeclared x0 x1 s).sys = s.sys :=
  lockDeclared_only (Only.refl 486 s) rfl .sys rfl
@[simp] theorem lockDeclared_keeps_hk {x0 : Nat} {x1 : Nat} {s : State} : (lockDeclared x0 x1 s).hk = s.hk :=
  lockDeclared_only (Only.refl 486 s) rfl .hk rfl
@[simp] theorem lockDeclared_keeps_cl {x0 : Nat} {x1 : Nat} {s : State} : (lockDeclared x0 x1 s).cl = s.cl :=
  lockDeclared_only (Only.refl 486 s) rfl .cl rfl
@[simp] theorem lockDeclared_keeps_ps {x0 : Nat} {x1 : Nat} {s : State} : (lockDeclared x0 x1 s).ps = s.ps :=
  lockDeclared_only (Only.refl 486 s) rfl .ps rfl
@[simp] theorem lockDeclared_keeps_fl {x0 : Nat} {x1 : Nat} {s : State} : (lockDeclared x0 x1 s).fl = s.fl :=
  lockDeclared_only (Only.refl 486 s) rfl .fl rfl
@[simp] theorem lockDeclared_keeps_dv {x0 : Nat} {x1 : Nat} {s : State} : (lockDeclared x0 x1 s).dv = s.dv :=
  lockDeclared_only (Only.refl 486 s) rfl .dv rfl
@[simp] theorem lockDeclared_keeps_mem {x0 : Nat} {x1 : Nat} {s : State} : (lockDeclared x0 x1 s).mem = s.mem :=
  lockDeclared_only (Only.refl 486 s) rfl .mem rfl
@[simp] theorem lockDeclared_keeps_bell {x0 : Nat} {x1 : Nat} {s : State} : (lockDeclared x0 x1 s).bell = s.bell :=
  lockDeclared_only (Only.refl 486 s) rfl .bell rfl
@[simp] theorem lockDeclared_keeps_pair {x0 : Nat} {x1 : Nat} {s : State} : (lockDeclared x0 x1 s).pair = s.pair :=
  lockDeclared_only (Only.refl 486 s) rfl .pair rfl
@[simp] theorem lockDeclared_keeps_wire {x0 : Nat} {x1 : Nat} {s : State} : (lockDeclared x0 x1 s).wire = s.wire :=
  lockDeclared_only (Only.refl 486 s) rfl .wire rfl
@[simp] theorem lockDeclared_keeps_drawn {x0 : Nat} {x1 : Nat} {s : State} : (lockDeclared x0 x1 s).drawn = s.drawn :=
  lockDeclared_only (Only.refl 486 s) rfl .drawn rfl
@[simp] theorem lockDeclared_keeps_pending {x0 : Nat} {x1 : Nat} {s : State} : (lockDeclared x0 x1 s).pending = s.pending :=
  lockDeclared_only (Only.refl 486 s) rfl .pending rfl
@[simp] theorem cancelHeld_keeps_air {x0 : Nat} {s : State} : (cancelHeld x0 s).air = s.air :=
  cancelHeld_only (Only.refl 34 s) rfl .air rfl
@[simp] theorem cancelHeld_keeps_fault {x0 : Nat} {s : State} : (cancelHeld x0 s).fault = s.fault :=
  cancelHeld_only (Only.refl 34 s) rfl .fault rfl
@[simp] theorem cancelHeld_keeps_log {x0 : Nat} {s : State} : (cancelHeld x0 s).log = s.log :=
  cancelHeld_only (Only.refl 34 s) rfl .log rfl
@[simp] theorem cancelHeld_keeps_sys {x0 : Nat} {s : State} : (cancelHeld x0 s).sys = s.sys :=
  cancelHeld_only (Only.refl 34 s) rfl .sys rfl
@[simp] theorem cancelHeld_keeps_ce {x0 : Nat} {s : State} : (cancelHeld x0 s).ce = s.ce :=
  cancelHeld_only (Only.refl 34 s) rfl .ce rfl
@[simp] theorem cancelHeld_keeps_lg {x0 : Nat} {s : State} : (cancelHeld x0 s).lg = s.lg :=
  cancelHeld_only (Only.refl 34 s) rfl .lg rfl
@[simp] theorem cancelHeld_keeps_np {x0 : Nat} {s : State} : (cancelHeld x0 s).np = s.np :=
  cancelHeld_only (Only.refl 34 s) rfl .np rfl
@[simp] theorem cancelHeld_keeps_hk {x0 : Nat} {s : State} : (cancelHeld x0 s).hk = s.hk :=
  cancelHeld_only (Only.refl 34 s) rfl .hk rfl
@[simp] theorem cancelHeld_keeps_cl {x0 : Nat} {s : State} : (cancelHeld x0 s).cl = s.cl :=
  cancelHeld_only (Only.refl 34 s) rfl .cl rfl
@[simp] theorem cancelHeld_keeps_ps {x0 : Nat} {s : State} : (cancelHeld x0 s).ps = s.ps :=
  cancelHeld_only (Only.refl 34 s) rfl .ps rfl
@[simp] theorem cancelHeld_keeps_fl {x0 : Nat} {s : State} : (cancelHeld x0 s).fl = s.fl :=
  cancelHeld_only (Only.refl 34 s) rfl .fl rfl
@[simp] theorem cancelHeld_keeps_dv {x0 : Nat} {s : State} : (cancelHeld x0 s).dv = s.dv :=
  cancelHeld_only (Only.refl 34 s) rfl .dv rfl
@[simp] theorem cancelHeld_keeps_mem {x0 : Nat} {s : State} : (cancelHeld x0 s).mem = s.mem :=
  cancelHeld_only (Only.refl 34 s) rfl .mem rfl
@[simp] theorem cancelHeld_keeps_bell {x0 : Nat} {s : State} : (cancelHeld x0 s).bell = s.bell :=
  cancelHeld_only (Only.refl 34 s) rfl .bell rfl
@[simp] theorem cancelHeld_keeps_pair {x0 : Nat} {s : State} : (cancelHeld x0 s).pair = s.pair :=
  cancelHeld_only (Only.refl 34 s) rfl .pair rfl
@[simp] theorem cancelHeld_keeps_wire {x0 : Nat} {s : State} : (cancelHeld x0 s).wire = s.wire :=
  cancelHeld_only (Only.refl 34 s) rfl .wire rfl
@[simp] theorem cancelHeld_keeps_drawn {x0 : Nat} {s : State} : (cancelHeld x0 s).drawn = s.drawn :=
  cancelHeld_only (Only.refl 34 s) rfl .drawn rfl
@[simp] theorem cancelHeld_keeps_pending {x0 : Nat} {s : State} : (cancelHeld x0 s).pending = s.pending :=
  cancelHeld_only (Only.refl 34 s) rfl .pending rfl
@[simp] theorem applyAtten_keeps_air {x0 : Nat} {x1 : Nat} {s : State} : (applyAtten x0 x1 s).air = s.air :=
  applyAtten_only (Only.refl 96 s) rfl .air rfl
@[simp] theorem applyAtten_keeps_host {x0 : Nat} {x1 : Nat} {s : State} : (applyAtten x0 x1 s).host = s.host :=
  applyAtten_only (Only.refl 96 s) rfl .host rfl
@[simp] theorem applyAtten_keeps_fault {x0 : Nat} {x1 : Nat} {s : State} : (applyAtten x0 x1 s).fault = s.fault :=
  applyAtten_only (Only.refl 96 s) rfl .fault rfl
@[simp] theorem applyAtten_keeps_log {x0 : Nat} {x1 : Nat} {s : State} : (applyAtten x0 x1 s).log = s.log :=
  applyAtten_only (Only.refl 96 s) rfl .log rfl
@[simp] theorem applyAtten_keeps_sys {x0 : Nat} {x1 : Nat} {s : State} : (applyAtten x0 x1 s).sys = s.sys :=
  applyAtten_only (Only.refl 96 s) rfl .sys rfl
@[simp] theorem applyAtten_keeps_lg {x0 : Nat} {x1 : Nat} {s : State} : (applyAtten x0 x1 s).lg = s.lg :=
  applyAtten_only (Only.refl 96 s) rfl .lg rfl
@[simp] theorem applyAtten_keeps_np {x0 : Nat} {x1 : Nat} {s : State} : (applyAtten x0 x1 s).np = s.np :=
  applyAtten_only (Only.refl 96 s) rfl .np rfl
@[simp] theorem applyAtten_keeps_hk {x0 : Nat} {x1 : Nat} {s : State} : (applyAtten x0 x1 s).hk = s.hk :=
  applyAtten_only (Only.refl 96 s) rfl .hk rfl
@[simp] theorem applyAtten_keeps_cl {x0 : Nat} {x1 : Nat} {s : State} : (applyAtten x0 x1 s).cl = s.cl :=
  applyAtten_only (Only.refl 96 s) rfl .cl rfl
@[simp] theorem applyAtten_keeps_ps {x0 : Nat} {x1 : Nat} {s : State} : (applyAtten x0 x1 s).ps = s.ps :=
  applyAtten_only (Only.refl 96 s) rfl .ps rfl
@[simp] theorem applyAtten_keeps_fl {x0 : Nat} {x1 : Nat} {s : State} : (applyAtten x0 x1 s).fl = s.fl :=
  applyAtten_only (Only.refl 96 s) rfl .fl rfl
@[simp] theorem applyAtten_keeps_dv {x0 : Nat} {x1 : Nat} {s : State} : (applyAtten x0 x1 s).dv = s.dv :=
  applyAtten_only (Only.refl 96 s) rfl .dv rfl
@[simp] theorem applyAtten_keeps_mem {x0 : Nat} {x1 : Nat} {s : State} : (applyAtten x0 x1 s).mem = s.mem :=
  applyAtten_only (Only.refl 96 s) rfl .mem rfl
@[simp] theorem applyAtten_keeps_bell {x0 : Nat} {x1 : Nat} {s : State} : (applyAtten x0 x1 s).bell = s.bell :=
  applyAtten_only (Only.refl 96 s) rfl .bell rfl
@[simp] theorem applyAtten_keeps_pair {x0 : Nat} {x1 : Nat} {s : State} : (applyAtten x0 x1 s).pair = s.pair :=
  applyAtten_only (Only.refl 96 s) rfl .pair rfl
@[simp] theorem applyAtten_keeps_wire {x0 : Nat} {x1 : Nat} {s : State} : (applyAtten x0 x1 s).wire = s.wire :=
  applyAtten_only (Only.refl 96 s) rfl .wire rfl
@[simp] theorem applyAtten_keeps_drawn {x0 : Nat} {x1 : Nat} {s : State} : (applyAtten x0 x1 s).drawn = s.drawn :=
  applyAtten_only (Only.refl 96 s) rfl .drawn rfl
@[simp] theorem applyAtten_keeps_pending {x0 : Nat} {x1 : Nat} {s : State} : (applyAtten x0 x1 s).pending = s.pending :=
  applyAtten_only (Only.refl 96 s) rfl .pending rfl
@[simp] theorem markStep_keeps_air {x0 : Nat} {s : State} : (markStep x0 s).air = s.air :=
  markStep_only (Only.refl 64 s) rfl .air rfl
@[simp] theorem markStep_keeps_host {x0 : Nat} {s : State} : (markStep x0 s).host = s.host :=
  markStep_only (Only.refl 64 s) rfl .host rfl
@[simp] theorem markStep_keeps_fault {x0 : Nat} {s : State} : (markStep x0 s).fault = s.fault :=
  markStep_only (Only.refl 64 s) rfl .fault rfl
@[simp] theorem markStep_keeps_log {x0 : Nat} {s : State} : (markStep x0 s).log = s.log :=
  markStep_only (Only.refl 64 s) rfl .log rfl
@[simp] theorem markStep_keeps_sys {x0 : Nat} {s : State} : (markStep x0 s).sys = s.sys :=
  markStep_only (Only.refl 64 s) rfl .sys rfl
@[simp] theorem markStep_keeps_rf {x0 : Nat} {s : State} : (markStep x0 s).rf = s.rf :=
  markStep_only (Only.refl 64 s) rfl .rf rfl
@[simp] theorem markStep_keeps_lg {x0 : Nat} {s : State} : (markStep x0 s).lg = s.lg :=
  markStep_only (Only.refl 64 s) rfl .lg rfl
@[simp] theorem markStep_keeps_np {x0 : Nat} {s : State} : (markStep x0 s).np = s.np :=
  markStep_only (Only.refl 64 s) rfl .np rfl
@[simp] theorem markStep_keeps_hk {x0 : Nat} {s : State} : (markStep x0 s).hk = s.hk :=
  markStep_only (Only.refl 64 s) rfl .hk rfl
@[simp] theorem markStep_keeps_cl {x0 : Nat} {s : State} : (markStep x0 s).cl = s.cl :=
  markStep_only (Only.refl 64 s) rfl .cl rfl
@[simp] theorem markStep_keeps_ps {x0 : Nat} {s : State} : (markStep x0 s).ps = s.ps :=
  markStep_only (Only.refl 64 s) rfl .ps rfl
@[simp] theorem markStep_keeps_fl {x0 : Nat} {s : State} : (markStep x0 s).fl = s.fl :=
  markStep_only (Only.refl 64 s) rfl .fl rfl
@[simp] theorem markStep_keeps_dv {x0 : Nat} {s : State} : (markStep x0 s).dv = s.dv :=
  markStep_only (Only.refl 64 s) rfl .dv rfl
@[simp] theorem markStep_keeps_mem {x0 : Nat} {s : State} : (markStep x0 s).mem = s.mem :=
  markStep_only (Only.refl 64 s) rfl .mem rfl
@[simp] theorem markStep_keeps_bell {x0 : Nat} {s : State} : (markStep x0 s).bell = s.bell :=
  markStep_only (Only.refl 64 s) rfl .bell rfl
@[simp] theorem markStep_keeps_pair {x0 : Nat} {s : State} : (markStep x0 s).pair = s.pair :=
  markStep_only (Only.refl 64 s) rfl .pair rfl
@[simp] theorem markStep_keeps_wire {x0 : Nat} {s : State} : (markStep x0 s).wire = s.wire :=
  markStep_only (Only.refl 64 s) rfl .wire rfl
@[simp] theorem markStep_keeps_drawn {x0 : Nat} {s : State} : (markStep x0 s).drawn = s.drawn :=
  markStep_only (Only.refl 64 s) rfl .drawn rfl
@[simp] theorem markStep_keeps_pending {x0 : Nat} {s : State} : (markStep x0 s).pending = s.pending :=
  markStep_only (Only.refl 64 s) rfl .pending rfl
@[simp] theorem restartLoop_keeps_air {x0 : Nat} {x1 : Option QualMode} {x2 : Bool} {s : State} : (restartLoop x0 x1 x2 s).air = s.air :=
  restartLoop_only (Only.refl 388 s) rfl .air rfl
@[simp] theorem restartLoop_keeps_host {x0 : Nat} {x1 : Option QualMode} {x2 : Bool} {s : State} : (restartLoop x0 x1 x2 s).host = s.host :=
  restartLoop_only (Only.refl 388 s) rfl .host rfl
@[simp] theorem restartLoop_keeps_log {x0 : Nat} {x1 : Option QualMode} {x2 : Bool} {s : State} : (restartLoop x0 x1 x2 s).log = s.log :=
  restartLoop_only (Only.refl 388 s) rfl .log rfl
@[simp] theorem restartLoop_keeps_sys {x0 : Nat} {x1 : Option QualMode} {x2 : Bool} {s : State} : (restartLoop x0 x1 x2 s).sys = s.sys :=
  restartLoop_only (Only.refl 388 s) rfl .sys rfl
@[simp] theorem restartLoop_keeps_rf {x0 : Nat} {x1 : Option QualMode} {x2 : Bool} {s : State} : (restartLoop x0 x1 x2 s).rf = s.rf :=
  restartLoop_only (Only.refl 388 s) rfl .rf rfl
@[simp] theorem restartLoop_keeps_ce {x0 : Nat} {x1 : Option QualMode} {x2 : Bool} {s : State} : (restartLoop x0 x1 x2 s).ce = s.ce :=
  restartLoop_only (Only.refl 388 s) rfl .ce rfl
@[simp] theorem restartLoop_keeps_hk {x0 : Nat} {x1 : Option QualMode} {x2 : Bool} {s : State} : (restartLoop x0 x1 x2 s).hk = s.hk :=
  restartLoop_only (Only.refl 388 s) rfl .hk rfl
@[simp] theorem restartLoop_keeps_cl {x0 : Nat} {x1 : Option QualMode} {x2 : Bool} {s : State} : (restartLoop x0 x1 x2 s).cl = s.cl :=
  restartLoop_only (Only.refl 388 s) rfl .cl rfl
@[simp] theorem restartLoop_keeps_ps {x0 : Nat} {x1 : Option QualMode} {x2 : Bool} {s : State} : (restartLoop x0 x1 x2 s).ps = s.ps :=
  restartLoop_only (Only.refl 388 s) rfl .ps rfl
@[simp] theorem restartLoop_keeps_fl {x0 : Nat} {x1 : Option QualMode} {x2 : Bool} {s : State} : (restartLoop x0 x1 x2 s).fl = s.fl :=
  restartLoop_only (Only.refl 388 s) rfl .fl rfl
@[simp] theorem restartLoop_keeps_dv {x0 : Nat} {x1 : Option QualMode} {x2 : Bool} {s : State} : (restartLoop x0 x1 x2 s).dv = s.dv :=
  restartLoop_only (Only.refl 388 s) rfl .dv rfl
@[simp] theorem restartLoop_keeps_mem {x0 : Nat} {x1 : Option QualMode} {x2 : Bool} {s : State} : (restartLoop x0 x1 x2 s).mem = s.mem :=
  restartLoop_only (Only.refl 388 s) rfl .mem rfl
@[simp] theorem restartLoop_keeps_bell {x0 : Nat} {x1 : Option QualMode} {x2 : Bool} {s : State} : (restartLoop x0 x1 x2 s).bell = s.bell :=
  restartLoop_only (Only.refl 388 s) rfl .bell rfl
@[simp] theorem restartLoop_keeps_pair {x0 : Nat} {x1 : Option QualMode} {x2 : Bool} {s : State} : (restartLoop x0 x1 x2 s).pair = s.pair :=
  restartLoop_only (Only.refl 388 s) rfl .pair rfl
@[simp] theorem restartLoop_keeps_wire {x0 : Nat} {x1 : Option QualMode} {x2 : Bool} {s : State} : (restartLoop x0 x1 x2 s).wire = s.wire :=
  restartLoop_only (Only.refl 388 s) rfl .wire rfl
@[simp] theorem restartLoop_keeps_drawn {x0 : Nat} {x1 : Option QualMode} {x2 : Bool} {s : State} : (restartLoop x0 x1 x2 s).drawn = s.drawn :=
  restartLoop_only (Only.refl 388 s) rfl .drawn rfl
@[simp] theorem restartLoop_keeps_pending {x0 : Nat} {x1 : Option QualMode} {x2 : Bool} {s : State} : (restartLoop x0 x1 x2 s).pending = s.pending :=
  restartLoop_only (Only.refl 388 s) rfl .pending rfl
@[simp] theorem createLoop_keeps_air {x0 : Nat} {s : State} : (createLoop x0 s).air = s.air :=
  createLoop_only (Only.refl 388 s) rfl .air rfl
@[simp] theorem createLoop_keeps_host {x0 : Nat} {s : State} : (createLoop x0 s).host = s.host :=
  createLoop_only (Only.refl 388 s) rfl .host rfl
@[simp] theorem createLoop_keeps_log {x0 : Nat} {s : State} : (createLoop x0 s).log = s.log :=
  createLoop_only (Only.refl 388 s) rfl .log rfl
@[simp] theorem createLoop_keeps_sys {x0 : Nat} {s : State} : (createLoop x0 s).sys = s.sys :=
  createLoop_only (Only.refl 388 s) rfl .sys rfl
@[simp] theorem createLoop_keeps_rf {x0 : Nat} {s : State} : (createLoop x0 s).rf = s.rf :=
  createLoop_only (Only.refl 388 s) rfl .rf rfl
@[simp] theorem createLoop_keeps_ce {x0 : Nat} {s : State} : (createLoop x0 s).ce = s.ce :=
  createLoop_only (Only.refl 388 s) rfl .ce rfl
@[simp] theorem createLoop_keeps_hk {x0 : Nat} {s : State} : (createLoop x0 s).hk = s.hk :=
  createLoop_only (Only.refl 388 s) rfl .hk rfl
@[simp] theorem createLoop_keeps_cl {x0 : Nat} {s : State} : (createLoop x0 s).cl = s.cl :=
  createLoop_only (Only.refl 388 s) rfl .cl rfl
@[simp] theorem createLoop_keeps_ps {x0 : Nat} {s : State} : (createLoop x0 s).ps = s.ps :=
  createLoop_only (Only.refl 388 s) rfl .ps rfl
@[simp] theorem createLoop_keeps_fl {x0 : Nat} {s : State} : (createLoop x0 s).fl = s.fl :=
  createLoop_only (Only.refl 388 s) rfl .fl rfl
@[simp] theorem createLoop_keeps_dv {x0 : Nat} {s : State} : (createLoop x0 s).dv = s.dv :=
  createLoop_only (Only.refl 388 s) rfl .dv rfl
@[simp] theorem createLoop_keeps_mem {x0 : Nat} {s : State} : (createLoop x0 s).mem = s.mem :=
  createLoop_only (Only.refl 388 s) rfl .mem rfl
@[simp] theorem createLoop_keeps_bell {x0 : Nat} {s : State} : (createLoop x0 s).bell = s.bell :=
  createLoop_only (Only.refl 388 s) rfl .bell rfl
@[simp] theorem createLoop_keeps_pair {x0 : Nat} {s : State} : (createLoop x0 s).pair = s.pair :=
  createLoop_only (Only.refl 388 s) rfl .pair rfl
@[simp] theorem createLoop_keeps_wire {x0 : Nat} {s : State} : (createLoop x0 s).wire = s.wire :=
  createLoop_only (Only.refl 388 s) rfl .wire rfl
@[simp] theorem createLoop_keeps_drawn {x0 : Nat} {s : State} : (createLoop x0 s).drawn = s.drawn :=
  createLoop_only (Only.refl 388 s) rfl .drawn rfl
@[simp] theorem createLoop_keeps_pending {x0 : Nat} {s : State} : (createLoop x0 s).pending = s.pending :=
  createLoop_only (Only.refl 388 s) rfl .pending rfl
@[simp] theorem removeLoop_keeps_air {x0 : Nat} {s : State} : (removeLoop x0 s).air = s.air :=
  removeLoop_only (Only.refl 132 s) rfl .air rfl
@[simp] theorem removeLoop_keeps_host {x0 : Nat} {s : State} : (removeLoop x0 s).host = s.host :=
  removeLoop_only (Only.refl 132 s) rfl .host rfl
@[simp] theorem removeLoop_keeps_log {x0 : Nat} {s : State} : (removeLoop x0 s).log = s.log :=
  removeLoop_only (Only.refl 132 s) rfl .log rfl
@[simp] theorem removeLoop_keeps_sys {x0 : Nat} {s : State} : (removeLoop x0 s).sys = s.sys :=
  removeLoop_only (Only.refl 132 s) rfl .sys rfl
@[simp] theorem removeLoop_keeps_rf {x0 : Nat} {s : State} : (removeLoop x0 s).rf = s.rf :=
  removeLoop_only (Only.refl 132 s) rfl .rf rfl
@[simp] theorem removeLoop_keeps_ce {x0 : Nat} {s : State} : (removeLoop x0 s).ce = s.ce :=
  removeLoop_only (Only.refl 132 s) rfl .ce rfl
@[simp] theorem removeLoop_keeps_np {x0 : Nat} {s : State} : (removeLoop x0 s).np = s.np :=
  removeLoop_only (Only.refl 132 s) rfl .np rfl
@[simp] theorem removeLoop_keeps_hk {x0 : Nat} {s : State} : (removeLoop x0 s).hk = s.hk :=
  removeLoop_only (Only.refl 132 s) rfl .hk rfl
@[simp] theorem removeLoop_keeps_cl {x0 : Nat} {s : State} : (removeLoop x0 s).cl = s.cl :=
  removeLoop_only (Only.refl 132 s) rfl .cl rfl
@[simp] theorem removeLoop_keeps_ps {x0 : Nat} {s : State} : (removeLoop x0 s).ps = s.ps :=
  removeLoop_only (Only.refl 132 s) rfl .ps rfl
@[simp] theorem removeLoop_keeps_fl {x0 : Nat} {s : State} : (removeLoop x0 s).fl = s.fl :=
  removeLoop_only (Only.refl 132 s) rfl .fl rfl
@[simp] theorem removeLoop_keeps_dv {x0 : Nat} {s : State} : (removeLoop x0 s).dv = s.dv :=
  removeLoop_only (Only.refl 132 s) rfl .dv rfl
@[simp] theorem removeLoop_keeps_mem {x0 : Nat} {s : State} : (removeLoop x0 s).mem = s.mem :=
  removeLoop_only (Only.refl 132 s) rfl .mem rfl
@[simp] theorem removeLoop_keeps_bell {x0 : Nat} {s : State} : (removeLoop x0 s).bell = s.bell :=
  removeLoop_only (Only.refl 132 s) rfl .bell rfl
@[simp] theorem removeLoop_keeps_pair {x0 : Nat} {s : State} : (removeLoop x0 s).pair = s.pair :=
  removeLoop_only (Only.refl 132 s) rfl .pair rfl
@[simp] theorem removeLoop_keeps_wire {x0 : Nat} {s : State} : (removeLoop x0 s).wire = s.wire :=
  removeLoop_only (Only.refl 132 s) rfl .wire rfl
@[simp] theorem removeLoop_keeps_drawn {x0 : Nat} {s : State} : (removeLoop x0 s).drawn = s.drawn :=
  removeLoop_only (Only.refl 132 s) rfl .drawn rfl
@[simp] theorem removeLoop_keeps_pending {x0 : Nat} {s : State} : (removeLoop x0 s).pending = s.pending :=
  removeLoop_only (Only.refl 132 s) rfl .pending rfl
@[simp] theorem loopChanged_keeps_air {x0 : Nat} {s : State} : (loopChanged x0 s).air = s.air :=
  loopChanged_only (Only.refl 388 s) rfl .air rfl
@[simp] theorem loopChanged_keeps_host {x0 : Nat} {s : State} : (loopChanged x0 s).host = s.host :=
  loopChanged_only (Only.refl 388 s) rfl .host rfl
@[simp] theorem loopChanged_keeps_log {x0 : Nat} {s : State} : (loopChanged x0 s).log = s.log :=
  loopChanged_only (Only.refl 388 s) rfl .log rfl
@[simp] theorem loopChanged_keeps_sys {x0 : Nat} {s : State} : (loopChanged x0 s).sys = s.sys :=
  loopChanged_only (Only.refl 388 s) rfl .sys rfl
@[simp] theorem loopChanged_keeps_rf {x0 : Nat} {s : State} : (loopChanged x0 s).rf = s.rf :=
  loopChanged_only (Only.refl 388 s) rfl .rf rfl
@[simp] theorem loopChanged_keeps_ce {x0 : Nat} {s : State} : (loopChanged x0 s).ce = s.ce :=
  loopChanged_only (Only.refl 388 s) rfl .ce rfl
@[simp] theorem loopChanged_keeps_hk {x0 : Nat} {s : State} : (loopChanged x0 s).hk = s.hk :=
  loopChanged_only (Only.refl 388 s) rfl .hk rfl
@[simp] theorem loopChanged_keeps_cl {x0 : Nat} {s : State} : (loopChanged x0 s).cl = s.cl :=
  loopChanged_only (Only.refl 388 s) rfl .cl rfl
@[simp] theorem loopChanged_keeps_ps {x0 : Nat} {s : State} : (loopChanged x0 s).ps = s.ps :=
  loopChanged_only (Only.refl 388 s) rfl .ps rfl
@[simp] theorem loopChanged_keeps_fl {x0 : Nat} {s : State} : (loopChanged x0 s).fl = s.fl :=
  loopChanged_only (Only.refl 388 s) rfl .fl rfl
@[simp] theorem loopChanged_keeps_dv {x0 : Nat} {s : State} : (loopChanged x0 s).dv = s.dv :=
  loopChanged_only (Only.refl 388 s) rfl .dv rfl
@[simp] theorem loopChanged_keeps_mem {x0 : Nat} {s : State} : (loopChanged x0 s).mem = s.mem :=
  loopChanged_only (Only.refl 388 s) rfl .mem rfl
@[simp] theorem loopChanged_keeps_bell {x0 : Nat} {s : State} : (loopChanged x0 s).bell = s.bell :=
  loopChanged_only (Only.refl 388 s) rfl .bell rfl
@[simp] theorem loopChanged_keeps_pair {x0 : Nat} {s : State} : (loopChanged x0 s).pair = s.pair :=
  loopChanged_only (Only.refl 388 s) rfl .pair rfl
@[simp] theorem loopChanged_keeps_wire {x0 : Nat} {s : State} : (loopChanged x0 s).wire = s.wire :=
  loopChanged_only (Only.refl 388 s) rfl .wire rfl
@[simp] theorem loopChanged_keeps_drawn {x0 : Nat} {s : State} : (loopChanged x0 s).drawn = s.drawn :=
  loopChanged_only (Only.refl 388 s) rfl .drawn rfl
@[simp] theorem loopChanged_keeps_pending {x0 : Nat} {s : State} : (loopChanged x0 s).pending = s.pending :=
  loopChanged_only (Only.refl 388 s) rfl .pending rfl
@[simp] theorem restartCancellers_keeps_air {x0 : Canceller → Bool} {s : State} : (restartCancellers x0 s).air = s.air :=
  restartCancellers_only (Only.refl 128 s) rfl .air rfl
@[simp] theorem restartCancellers_keeps_host {x0 : Canceller → Bool} {s : State} : (restartCancellers x0 s).host = s.host :=
  restartCancellers_only (Only.refl 128 s) rfl .host rfl
@[simp] theorem restartCancellers_keeps_fault {x0 : Canceller → Bool} {s : State} : (restartCancellers x0 s).fault = s.fault :=
  restartCancellers_only (Only.refl 128 s) rfl .fault rfl
@[simp] theorem restartCancellers_keeps_log {x0 : Canceller → Bool} {s : State} : (restartCancellers x0 s).log = s.log :=
  restartCancellers_only (Only.refl 128 s) rfl .log rfl
@[simp] theorem restartCancellers_keeps_sys {x0 : Canceller → Bool} {s : State} : (restartCancellers x0 s).sys = s.sys :=
  restartCancellers_only (Only.refl 128 s) rfl .sys rfl
@[simp] theorem restartCancellers_keeps_rf {x0 : Canceller → Bool} {s : State} : (restartCancellers x0 s).rf = s.rf :=
  restartCancellers_only (Only.refl 128 s) rfl .rf rfl
@[simp] theorem restartCancellers_keeps_ce {x0 : Canceller → Bool} {s : State} : (restartCancellers x0 s).ce = s.ce :=
  restartCancellers_only (Only.refl 128 s) rfl .ce rfl
@[simp] theorem restartCancellers_keeps_np {x0 : Canceller → Bool} {s : State} : (restartCancellers x0 s).np = s.np :=
  restartCancellers_only (Only.refl 128 s) rfl .np rfl
@[simp] theorem restartCancellers_keeps_hk {x0 : Canceller → Bool} {s : State} : (restartCancellers x0 s).hk = s.hk :=
  restartCancellers_only (Only.refl 128 s) rfl .hk rfl
@[simp] theorem restartCancellers_keeps_cl {x0 : Canceller → Bool} {s : State} : (restartCancellers x0 s).cl = s.cl :=
  restartCancellers_only (Only.refl 128 s) rfl .cl rfl
@[simp] theorem restartCancellers_keeps_ps {x0 : Canceller → Bool} {s : State} : (restartCancellers x0 s).ps = s.ps :=
  restartCancellers_only (Only.refl 128 s) rfl .ps rfl
@[simp] theorem restartCancellers_keeps_fl {x0 : Canceller → Bool} {s : State} : (restartCancellers x0 s).fl = s.fl :=
  restartCancellers_only (Only.refl 128 s) rfl .fl rfl
@[simp] theorem restartCancellers_keeps_dv {x0 : Canceller → Bool} {s : State} : (restartCancellers x0 s).dv = s.dv :=
  restartCancellers_only (Only.refl 128 s) rfl .dv rfl
@[simp] theorem restartCancellers_keeps_mem {x0 : Canceller → Bool} {s : State} : (restartCancellers x0 s).mem = s.mem :=
  restartCancellers_only (Only.refl 128 s) rfl .mem rfl
@[simp] theorem restartCancellers_keeps_bell {x0 : Canceller → Bool} {s : State} : (restartCancellers x0 s).bell = s.bell :=
  restartCancellers_only (Only.refl 128 s) rfl .bell rfl
@[simp] theorem restartCancellers_keeps_pair {x0 : Canceller → Bool} {s : State} : (restartCancellers x0 s).pair = s.pair :=
  restartCancellers_only (Only.refl 128 s) rfl .pair rfl
@[simp] theorem restartCancellers_keeps_wire {x0 : Canceller → Bool} {s : State} : (restartCancellers x0 s).wire = s.wire :=
  restartCancellers_only (Only.refl 128 s) rfl .wire rfl
@[simp] theorem restartCancellers_keeps_drawn {x0 : Canceller → Bool} {s : State} : (restartCancellers x0 s).drawn = s.drawn :=
  restartCancellers_only (Only.refl 128 s) rfl .drawn rfl
@[simp] theorem restartCancellers_keeps_pending {x0 : Canceller → Bool} {s : State} : (restartCancellers x0 s).pending = s.pending :=
  restartCancellers_only (Only.refl 128 s) rfl .pending rfl
@[simp] theorem applyChange_keeps_air {x0 : Dir} {x1 : Nat} {x2 : BpParams} {s : State} : (applyChange x0 x1 x2 s).air = s.air :=
  applyChange_only (Only.refl 452 s) rfl .air rfl
@[simp] theorem applyChange_keeps_host {x0 : Dir} {x1 : Nat} {x2 : BpParams} {s : State} : (applyChange x0 x1 x2 s).host = s.host :=
  applyChange_only (Only.refl 452 s) rfl .host rfl
@[simp] theorem applyChange_keeps_log {x0 : Dir} {x1 : Nat} {x2 : BpParams} {s : State} : (applyChange x0 x1 x2 s).log = s.log :=
  applyChange_only (Only.refl 452 s) rfl .log rfl
@[simp] theorem applyChange_keeps_sys {x0 : Dir} {x1 : Nat} {x2 : BpParams} {s : State} : (applyChange x0 x1 x2 s).sys = s.sys :=
  applyChange_only (Only.refl 452 s) rfl .sys rfl
@[simp] theorem applyChange_keeps_rf {x0 : Dir} {x1 : Nat} {x2 : BpParams} {s : State} : (applyChange x0 x1 x2 s).rf = s.rf :=
  applyChange_only (Only.refl 452 s) rfl .rf rfl
@[simp] theorem applyChange_keeps_hk {x0 : Dir} {x1 : Nat} {x2 : BpParams} {s : State} : (applyChange x0 x1 x2 s).hk = s.hk :=
  applyChange_only (Only.refl 452 s) rfl .hk rfl
@[simp] theorem applyChange_keeps_cl {x0 : Dir} {x1 : Nat} {x2 : BpParams} {s : State} : (applyChange x0 x1 x2 s).cl = s.cl :=
  applyChange_only (Only.refl 452 s) rfl .cl rfl
@[simp] theorem applyChange_keeps_ps {x0 : Dir} {x1 : Nat} {x2 : BpParams} {s : State} : (applyChange x0 x1 x2 s).ps = s.ps :=
  applyChange_only (Only.refl 452 s) rfl .ps rfl
@[simp] theorem applyChange_keeps_fl {x0 : Dir} {x1 : Nat} {x2 : BpParams} {s : State} : (applyChange x0 x1 x2 s).fl = s.fl :=
  applyChange_only (Only.refl 452 s) rfl .fl rfl
@[simp] theorem applyChange_keeps_dv {x0 : Dir} {x1 : Nat} {x2 : BpParams} {s : State} : (applyChange x0 x1 x2 s).dv = s.dv :=
  applyChange_only (Only.refl 452 s) rfl .dv rfl
@[simp] theorem applyChange_keeps_mem {x0 : Dir} {x1 : Nat} {x2 : BpParams} {s : State} : (applyChange x0 x1 x2 s).mem = s.mem :=
  applyChange_only (Only.refl 452 s) rfl .mem rfl
@[simp] theorem applyChange_keeps_bell {x0 : Dir} {x1 : Nat} {x2 : BpParams} {s : State} : (applyChange x0 x1 x2 s).bell = s.bell :=
  applyChange_only (Only.refl 452 s) rfl .bell rfl
@[simp] theorem applyChange_keeps_pair {x0 : Dir} {x1 : Nat} {x2 : BpParams} {s : State} : (applyChange x0 x1 x2 s).pair = s.pair :=
  applyChange_only (Only.refl 452 s) rfl .pair rfl
@[simp] theorem applyChange_keeps_wire {x0 : Dir} {x1 : Nat} {x2 : BpParams} {s : State} : (applyChange x0 x1 x2 s).wire = s.wire :=
  applyChange_only (Only.refl 452 s) rfl .wire rfl
@[simp] theorem applyChange_keeps_drawn {x0 : Dir} {x1 : Nat} {x2 : BpParams} {s : State} : (applyChange x0 x1 x2 s).drawn = s.drawn :=
  applyChange_only (Only.refl 452 s) rfl .drawn rfl
@[simp] theorem applyChange_keeps_pending {x0 : Dir} {x1 : Nat} {x2 : BpParams} {s : State} : (applyChange x0 x1 x2 s).pending = s.pending :=
  applyChange_only (Only.refl 452 s) rfl .pending rfl
@[simp] theorem startSettle_keeps_air {x0 : Dir} {x1 : Nat} {x2 : BpParams} {s : State} : (startSettle x0 x1 x2 s).air = s.air :=
  startSettle_only (Only.refl 452 s) rfl .air rfl
@[simp] theorem startSettle_keeps_host {x0 : Dir} {x1 : Nat} {x2 : BpParams} {s : State} : (startSettle x0 x1 x2 s).host = s.host :=
  startSettle_only (Only.refl 452 s) rfl .host rfl
@[simp] theorem startSettle_keeps_log {x0 : Dir} {x1 : Nat} {x2 : BpParams} {s : State} : (startSettle x0 x1 x2 s).log = s.log :=
  startSettle_only (Only.refl 452 s) rfl .log rfl
@[simp] theorem startSettle_keeps_sys {x0 : Dir} {x1 : Nat} {x2 : BpParams} {s : State} : (startSettle x0 x1 x2 s).sys = s.sys :=
  startSettle_only (Only.refl 452 s) rfl .sys rfl
@[simp] theorem startSettle_keeps_rf {x0 : Dir} {x1 : Nat} {x2 : BpParams} {s : State} : (startSettle x0 x1 x2 s).rf = s.rf :=
  startSettle_only (Only.refl 452 s) rfl .rf rfl
@[simp] theorem startSettle_keeps_hk {x0 : Dir} {x1 : Nat} {x2 : BpParams} {s : State} : (startSettle x0 x1 x2 s).hk = s.hk :=
  startSettle_only (Only.refl 452 s) rfl .hk rfl
@[simp] theorem startSettle_keeps_cl {x0 : Dir} {x1 : Nat} {x2 : BpParams} {s : State} : (startSettle x0 x1 x2 s).cl = s.cl :=
  startSettle_only (Only.refl 452 s) rfl .cl rfl
@[simp] theorem startSettle_keeps_ps {x0 : Dir} {x1 : Nat} {x2 : BpParams} {s : State} : (startSettle x0 x1 x2 s).ps = s.ps :=
  startSettle_only (Only.refl 452 s) rfl .ps rfl
@[simp] theorem startSettle_keeps_fl {x0 : Dir} {x1 : Nat} {x2 : BpParams} {s : State} : (startSettle x0 x1 x2 s).fl = s.fl :=
  startSettle_only (Only.refl 452 s) rfl .fl rfl
@[simp] theorem startSettle_keeps_dv {x0 : Dir} {x1 : Nat} {x2 : BpParams} {s : State} : (startSettle x0 x1 x2 s).dv = s.dv :=
  startSettle_only (Only.refl 452 s) rfl .dv rfl
@[simp] theorem startSettle_keeps_mem {x0 : Dir} {x1 : Nat} {x2 : BpParams} {s : State} : (startSettle x0 x1 x2 s).mem = s.mem :=
  startSettle_only (Only.refl 452 s) rfl .mem rfl
@[simp] theorem startSettle_keeps_bell {x0 : Dir} {x1 : Nat} {x2 : BpParams} {s : State} : (startSettle x0 x1 x2 s).bell = s.bell :=
  startSettle_only (Only.refl 452 s) rfl .bell rfl
@[simp] theorem startSettle_keeps_pair {x0 : Dir} {x1 : Nat} {x2 : BpParams} {s : State} : (startSettle x0 x1 x2 s).pair = s.pair :=
  startSettle_only (Only.refl 452 s) rfl .pair rfl
@[simp] theorem startSettle_keeps_wire {x0 : Dir} {x1 : Nat} {x2 : BpParams} {s : State} : (startSettle x0 x1 x2 s).wire = s.wire :=
  startSettle_only (Only.refl 452 s) rfl .wire rfl
@[simp] theorem startSettle_keeps_drawn {x0 : Dir} {x1 : Nat} {x2 : BpParams} {s : State} : (startSettle x0 x1 x2 s).drawn = s.drawn :=
  startSettle_only (Only.refl 452 s) rfl .drawn rfl
@[simp] theorem startSettle_keeps_pending {x0 : Dir} {x1 : Nat} {x2 : BpParams} {s : State} : (startSettle x0 x1 x2 s).pending = s.pending :=
  startSettle_only (Only.refl 452 s) rfl .pending rfl
@[simp] theorem fadeForChain_keeps_air {x0 : Nat} {s : State} : (fadeForChain x0 s).air = s.air :=
  fadeForChain_only (Only.refl 64 s) rfl .air rfl
@[simp] theorem fadeForChain_keeps_host {x0 : Nat} {s : State} : (fadeForChain x0 s).host = s.host :=
  fadeForChain_only (Only.refl 64 s) rfl .host rfl
@[simp] theorem fadeForChain_keeps_fault {x0 : Nat} {s : State} : (fadeForChain x0 s).fault = s.fault :=
  fadeForChain_only (Only.refl 64 s) rfl .fault rfl
@[simp] theorem fadeForChain_keeps_log {x0 : Nat} {s : State} : (fadeForChain x0 s).log = s.log :=
  fadeForChain_only (Only.refl 64 s) rfl .log rfl
@[simp] theorem fadeForChain_keeps_sys {x0 : Nat} {s : State} : (fadeForChain x0 s).sys = s.sys :=
  fadeForChain_only (Only.refl 64 s) rfl .sys rfl
@[simp] theorem fadeForChain_keeps_rf {x0 : Nat} {s : State} : (fadeForChain x0 s).rf = s.rf :=
  fadeForChain_only (Only.refl 64 s) rfl .rf rfl
@[simp] theorem fadeForChain_keeps_lg {x0 : Nat} {s : State} : (fadeForChain x0 s).lg = s.lg :=
  fadeForChain_only (Only.refl 64 s) rfl .lg rfl
@[simp] theorem fadeForChain_keeps_np {x0 : Nat} {s : State} : (fadeForChain x0 s).np = s.np :=
  fadeForChain_only (Only.refl 64 s) rfl .np rfl
@[simp] theorem fadeForChain_keeps_hk {x0 : Nat} {s : State} : (fadeForChain x0 s).hk = s.hk :=
  fadeForChain_only (Only.refl 64 s) rfl .hk rfl
@[simp] theorem fadeForChain_keeps_cl {x0 : Nat} {s : State} : (fadeForChain x0 s).cl = s.cl :=
  fadeForChain_only (Only.refl 64 s) rfl .cl rfl
@[simp] theorem fadeForChain_keeps_ps {x0 : Nat} {s : State} : (fadeForChain x0 s).ps = s.ps :=
  fadeForChain_only (Only.refl 64 s) rfl .ps rfl
@[simp] theorem fadeForChain_keeps_fl {x0 : Nat} {s : State} : (fadeForChain x0 s).fl = s.fl :=
  fadeForChain_only (Only.refl 64 s) rfl .fl rfl
@[simp] theorem fadeForChain_keeps_dv {x0 : Nat} {s : State} : (fadeForChain x0 s).dv = s.dv :=
  fadeForChain_only (Only.refl 64 s) rfl .dv rfl
@[simp] theorem fadeForChain_keeps_mem {x0 : Nat} {s : State} : (fadeForChain x0 s).mem = s.mem :=
  fadeForChain_only (Only.refl 64 s) rfl .mem rfl
@[simp] theorem fadeForChain_keeps_bell {x0 : Nat} {s : State} : (fadeForChain x0 s).bell = s.bell :=
  fadeForChain_only (Only.refl 64 s) rfl .bell rfl
@[simp] theorem fadeForChain_keeps_pair {x0 : Nat} {s : State} : (fadeForChain x0 s).pair = s.pair :=
  fadeForChain_only (Only.refl 64 s) rfl .pair rfl
@[simp] theorem fadeForChain_keeps_wire {x0 : Nat} {s : State} : (fadeForChain x0 s).wire = s.wire :=
  fadeForChain_only (Only.refl 64 s) rfl .wire rfl
@[simp] theorem fadeForChain_keeps_drawn {x0 : Nat} {s : State} : (fadeForChain x0 s).drawn = s.drawn :=
  fadeForChain_only (Only.refl 64 s) rfl .drawn rfl
@[simp] theorem fadeForChain_keeps_pending {x0 : Nat} {s : State} : (fadeForChain x0 s).pending = s.pending :=
  fadeForChain_only (Only.refl 64 s) rfl .pending rfl
@[simp] theorem fadeOutDone_keeps_air {x0 : Dir} {x1 : Nat} {s : State} : (fadeOutDone x0 x1 s).air = s.air :=
  fadeOutDone_only (Only.refl 452 s) rfl .air rfl
@[simp] theorem fadeOutDone_keeps_host {x0 : Dir} {x1 : Nat} {s : State} : (fadeOutDone x0 x1 s).host = s.host :=
  fadeOutDone_only (Only.refl 452 s) rfl .host rfl
@[simp] theorem fadeOutDone_keeps_log {x0 : Dir} {x1 : Nat} {s : State} : (fadeOutDone x0 x1 s).log = s.log :=
  fadeOutDone_only (Only.refl 452 s) rfl .log rfl
@[simp] theorem fadeOutDone_keeps_sys {x0 : Dir} {x1 : Nat} {s : State} : (fadeOutDone x0 x1 s).sys = s.sys :=
  fadeOutDone_only (Only.refl 452 s) rfl .sys rfl
@[simp] theorem fadeOutDone_keeps_rf {x0 : Dir} {x1 : Nat} {s : State} : (fadeOutDone x0 x1 s).rf = s.rf :=
  fadeOutDone_only (Only.refl 452 s) rfl .rf rfl
@[simp] theorem fadeOutDone_keeps_hk {x0 : Dir} {x1 : Nat} {s : State} : (fadeOutDone x0 x1 s).hk = s.hk :=
  fadeOutDone_only (Only.refl 452 s) rfl .hk rfl
@[simp] theorem fadeOutDone_keeps_cl {x0 : Dir} {x1 : Nat} {s : State} : (fadeOutDone x0 x1 s).cl = s.cl :=
  fadeOutDone_only (Only.refl 452 s) rfl .cl rfl
@[simp] theorem fadeOutDone_keeps_ps {x0 : Dir} {x1 : Nat} {s : State} : (fadeOutDone x0 x1 s).ps = s.ps :=
  fadeOutDone_only (Only.refl 452 s) rfl .ps rfl
@[simp] theorem fadeOutDone_keeps_fl {x0 : Dir} {x1 : Nat} {s : State} : (fadeOutDone x0 x1 s).fl = s.fl :=
  fadeOutDone_only (Only.refl 452 s) rfl .fl rfl
@[simp] theorem fadeOutDone_keeps_dv {x0 : Dir} {x1 : Nat} {s : State} : (fadeOutDone x0 x1 s).dv = s.dv :=
  fadeOutDone_only (Only.refl 452 s) rfl .dv rfl
@[simp] theorem fadeOutDone_keeps_mem {x0 : Dir} {x1 : Nat} {s : State} : (fadeOutDone x0 x1 s).mem = s.mem :=
  fadeOutDone_only (Only.refl 452 s) rfl .mem rfl
@[simp] theorem fadeOutDone_keeps_bell {x0 : Dir} {x1 : Nat} {s : State} : (fadeOutDone x0 x1 s).bell = s.bell :=
  fadeOutDone_only (Only.refl 452 s) rfl .bell rfl
@[simp] theorem fadeOutDone_keeps_pair {x0 : Dir} {x1 : Nat} {s : State} : (fadeOutDone x0 x1 s).pair = s.pair :=
  fadeOutDone_only (Only.refl 452 s) rfl .pair rfl
@[simp] theorem fadeOutDone_keeps_wire {x0 : Dir} {x1 : Nat} {s : State} : (fadeOutDone x0 x1 s).wire = s.wire :=
  fadeOutDone_only (Only.refl 452 s) rfl .wire rfl
@[simp] theorem fadeOutDone_keeps_drawn {x0 : Dir} {x1 : Nat} {s : State} : (fadeOutDone x0 x1 s).drawn = s.drawn :=
  fadeOutDone_only (Only.refl 452 s) rfl .drawn rfl
@[simp] theorem fadeOutDone_keeps_pending {x0 : Dir} {x1 : Nat} {s : State} : (fadeOutDone x0 x1 s).pending = s.pending :=
  fadeOutDone_only (Only.refl 452 s) rfl .pending rfl
@[simp] theorem zerosDone_keeps_air {x0 : Dir} {x1 : Nat} {s : State} : (zerosDone x0 x1 s).air = s.air :=
  zerosDone_only (Only.refl 454 s) rfl .air rfl
@[simp] theorem zerosDone_keeps_log {x0 : Dir} {x1 : Nat} {s : State} : (zerosDone x0 x1 s).log = s.log :=
  zerosDone_only (Only.refl 454 s) rfl .log rfl
@[simp] theorem zerosDone_keeps_sys {x0 : Dir} {x1 : Nat} {s : State} : (zerosDone x0 x1 s).sys = s.sys :=
  zerosDone_only (Only.refl 454 s) rfl .sys rfl
@[simp] theorem zerosDone_keeps_rf {x0 : Dir} {x1 : Nat} {s : State} : (zerosDone x0 x1 s).rf = s.rf :=
  zerosDone_only (Only.refl 454 s) rfl .rf rfl
@[simp] theorem zerosDone_keeps_hk {x0 : Dir} {x1 : Nat} {s : State} : (zerosDone x0 x1 s).hk = s.hk :=
  zerosDone_only (Only.refl 454 s) rfl .hk rfl
@[simp] theorem zerosDone_keeps_cl {x0 : Dir} {x1 : Nat} {s : State} : (zerosDone x0 x1 s).cl = s.cl :=
  zerosDone_only (Only.refl 454 s) rfl .cl rfl
@[simp] theorem zerosDone_keeps_ps {x0 : Dir} {x1 : Nat} {s : State} : (zerosDone x0 x1 s).ps = s.ps :=
  zerosDone_only (Only.refl 454 s) rfl .ps rfl
@[simp] theorem zerosDone_keeps_fl {x0 : Dir} {x1 : Nat} {s : State} : (zerosDone x0 x1 s).fl = s.fl :=
  zerosDone_only (Only.refl 454 s) rfl .fl rfl
@[simp] theorem zerosDone_keeps_dv {x0 : Dir} {x1 : Nat} {s : State} : (zerosDone x0 x1 s).dv = s.dv :=
  zerosDone_only (Only.refl 454 s) rfl .dv rfl
@[simp] theorem zerosDone_keeps_mem {x0 : Dir} {x1 : Nat} {s : State} : (zerosDone x0 x1 s).mem = s.mem :=
  zerosDone_only (Only.refl 454 s) rfl .mem rfl
@[simp] theorem zerosDone_keeps_bell {x0 : Dir} {x1 : Nat} {s : State} : (zerosDone x0 x1 s).bell = s.bell :=
  zerosDone_only (Only.refl 454 s) rfl .bell rfl
@[simp] theorem zerosDone_keeps_pair {x0 : Dir} {x1 : Nat} {s : State} : (zerosDone x0 x1 s).pair = s.pair :=
  zerosDone_only (Only.refl 454 s) rfl .pair rfl
@[simp] theorem zerosDone_keeps_wire {x0 : Dir} {x1 : Nat} {s : State} : (zerosDone x0 x1 s).wire = s.wire :=
  zerosDone_only (Only.refl 454 s) rfl .wire rfl
@[simp] theorem zerosDone_keeps_drawn {x0 : Dir} {x1 : Nat} {s : State} : (zerosDone x0 x1 s).drawn = s.drawn :=
  zerosDone_only (Only.refl 454 s) rfl .drawn rfl
@[simp] theorem zerosDone_keeps_pending {x0 : Dir} {x1 : Nat} {s : State} : (zerosDone x0 x1 s).pending = s.pending :=
  zerosDone_only (Only.refl 454 s) rfl .pending rfl
@[simp] theorem fadeInDone_keeps_air {x0 : Nat} {s : State} : (fadeInDone x0 s).air = s.air :=
  fadeInDone_only (Only.refl 454 s) rfl .air rfl
@[simp] theorem fadeInDone_keeps_log {x0 : Nat} {s : State} : (fadeInDone x0 s).log = s.log :=
  fadeInDone_only (Only.refl 454 s) rfl .log rfl
@[simp] theorem fadeInDone_keeps_sys {x0 : Nat} {s : State} : (fadeInDone x0 s).sys = s.sys :=
  fadeInDone_only (Only.refl 454 s) rfl .sys rfl
@[simp] theorem fadeInDone_keeps_rf {x0 : Nat} {s : State} : (fadeInDone x0 s).rf = s.rf :=
  fadeInDone_only (Only.refl 454 s) rfl .rf rfl
@[simp] theorem fadeInDone_keeps_hk {x0 : Nat} {s : State} : (fadeInDone x0 s).hk = s.hk :=
  fadeInDone_only (Only.refl 454 s) rfl .hk rfl
@[simp] theorem fadeInDone_keeps_cl {x0 : Nat} {s : State} : (fadeInDone x0 s).cl = s.cl :=
  fadeInDone_only (Only.refl 454 s) rfl .cl rfl
@[simp] theorem fadeInDone_keeps_ps {x0 : Nat} {s : State} : (fadeInDone x0 s).ps = s.ps :=
  fadeInDone_only (Only.refl 454 s) rfl .ps rfl
@[simp] theorem fadeInDone_keeps_fl {x0 : Nat} {s : State} : (fadeInDone x0 s).fl = s.fl :=
  fadeInDone_only (Only.refl 454 s) rfl .fl rfl
@[simp] theorem fadeInDone_keeps_dv {x0 : Nat} {s : State} : (fadeInDone x0 s).dv = s.dv :=
  fadeInDone_only (Only.refl 454 s) rfl .dv rfl
@[simp] theorem fadeInDone_keeps_mem {x0 : Nat} {s : State} : (fadeInDone x0 s).mem = s.mem :=
  fadeInDone_only (Only.refl 454 s) rfl .mem rfl
@[simp] theorem fadeInDone_keeps_bell {x0 : Nat} {s : State} : (fadeInDone x0 s).bell = s.bell :=
  fadeInDone_only (Only.refl 454 s) rfl .bell rfl
@[simp] theorem fadeInDone_keeps_pair {x0 : Nat} {s : State} : (fadeInDone x0 s).pair = s.pair :=
  fadeInDone_only (Only.refl 454 s) rfl .pair rfl
@[simp] theorem fadeInDone_keeps_wire {x0 : Nat} {s : State} : (fadeInDone x0 s).wire = s.wire :=
  fadeInDone_only (Only.refl 454 s) rfl .wire rfl
@[simp] theorem fadeInDone_keeps_drawn {x0 : Nat} {s : State} : (fadeInDone x0 s).drawn = s.drawn :=
  fadeInDone_only (Only.refl 454 s) rfl .drawn rfl
@[simp] theorem fadeInDone_keeps_pending {x0 : Nat} {s : State} : (fadeInDone x0 s).pending = s.pending :=
  fadeInDone_only (Only.refl 454 s) rfl .pending rfl
@[simp] theorem realign_keeps_air {x0 : Dir} {x1 : Nat} {s : State} : (realign x0 x1 s).air = s.air :=
  realign_only (Only.refl 452 s) rfl .air rfl
@[simp] theorem realign_keeps_host {x0 : Dir} {x1 : Nat} {s : State} : (realign x0 x1 s).host = s.host :=
  realign_only (Only.refl 452 s) rfl .host rfl
@[simp] theorem realign_keeps_log {x0 : Dir} {x1 : Nat} {s : State} : (realign x0 x1 s).log = s.log :=
  realign_only (Only.refl 452 s) rfl .log rfl
@[simp] theorem realign_keeps_sys {x0 : Dir} {x1 : Nat} {s : State} : (realign x0 x1 s).sys = s.sys :=
  realign_only (Only.refl 452 s) rfl .sys rfl
@[simp] theorem realign_keeps_rf {x0 : Dir} {x1 : Nat} {s : State} : (realign x0 x1 s).rf = s.rf :=
  realign_only (Only.refl 452 s) rfl .rf rfl
@[simp] theorem realign_keeps_hk {x0 : Dir} {x1 : Nat} {s : State} : (realign x0 x1 s).hk = s.hk :=
  realign_only (Only.refl 452 s) rfl .hk rfl
@[simp] theorem realign_keeps_cl {x0 : Dir} {x1 : Nat} {s : State} : (realign x0 x1 s).cl = s.cl :=
  realign_only (Only.refl 452 s) rfl .cl rfl
@[simp] theorem realign_keeps_ps {x0 : Dir} {x1 : Nat} {s : State} : (realign x0 x1 s).ps = s.ps :=
  realign_only (Only.refl 452 s) rfl .ps rfl
@[simp] theorem realign_keeps_fl {x0 : Dir} {x1 : Nat} {s : State} : (realign x0 x1 s).fl = s.fl :=
  realign_only (Only.refl 452 s) rfl .fl rfl
@[simp] theorem realign_keeps_dv {x0 : Dir} {x1 : Nat} {s : State} : (realign x0 x1 s).dv = s.dv :=
  realign_only (Only.refl 452 s) rfl .dv rfl
@[simp] theorem realign_keeps_mem {x0 : Dir} {x1 : Nat} {s : State} : (realign x0 x1 s).mem = s.mem :=
  realign_only (Only.refl 452 s) rfl .mem rfl
@[simp] theorem realign_keeps_bell {x0 : Dir} {x1 : Nat} {s : State} : (realign x0 x1 s).bell = s.bell :=
  realign_only (Only.refl 452 s) rfl .bell rfl
@[simp] theorem realign_keeps_pair {x0 : Dir} {x1 : Nat} {s : State} : (realign x0 x1 s).pair = s.pair :=
  realign_only (Only.refl 452 s) rfl .pair rfl
@[simp] theorem realign_keeps_wire {x0 : Dir} {x1 : Nat} {s : State} : (realign x0 x1 s).wire = s.wire :=
  realign_only (Only.refl 452 s) rfl .wire rfl
@[simp] theorem realign_keeps_drawn {x0 : Dir} {x1 : Nat} {s : State} : (realign x0 x1 s).drawn = s.drawn :=
  realign_only (Only.refl 452 s) rfl .drawn rfl
@[simp] theorem realign_keeps_pending {x0 : Dir} {x1 : Nat} {s : State} : (realign x0 x1 s).pending = s.pending :=
  realign_only (Only.refl 452 s) rfl .pending rfl
@[simp] theorem restartGate_keeps_air {x0 : Nat} {s : State} : (restartGate x0 s).air = s.air :=
  restartGate_only (Only.refl 256 s) rfl .air rfl
@[simp] theorem restartGate_keeps_host {x0 : Nat} {s : State} : (restartGate x0 s).host = s.host :=
  restartGate_only (Only.refl 256 s) rfl .host rfl
@[simp] theorem restartGate_keeps_fault {x0 : Nat} {s : State} : (restartGate x0 s).fault = s.fault :=
  restartGate_only (Only.refl 256 s) rfl .fault rfl
@[simp] theorem restartGate_keeps_log {x0 : Nat} {s : State} : (restartGate x0 s).log = s.log :=
  restartGate_only (Only.refl 256 s) rfl .log rfl
@[simp] theorem restartGate_keeps_sys {x0 : Nat} {s : State} : (restartGate x0 s).sys = s.sys :=
  restartGate_only (Only.refl 256 s) rfl .sys rfl
@[simp] theorem restartGate_keeps_rf {x0 : Nat} {s : State} : (restartGate x0 s).rf = s.rf :=
  restartGate_only (Only.refl 256 s) rfl .rf rfl
@[simp] theorem restartGate_keeps_ce {x0 : Nat} {s : State} : (restartGate x0 s).ce = s.ce :=
  restartGate_only (Only.refl 256 s) rfl .ce rfl
@[simp] theorem restartGate_keeps_lg {x0 : Nat} {s : State} : (restartGate x0 s).lg = s.lg :=
  restartGate_only (Only.refl 256 s) rfl .lg rfl
@[simp] theorem restartGate_keeps_hk {x0 : Nat} {s : State} : (restartGate x0 s).hk = s.hk :=
  restartGate_only (Only.refl 256 s) rfl .hk rfl
@[simp] theorem restartGate_keeps_cl {x0 : Nat} {s : State} : (restartGate x0 s).cl = s.cl :=
  restartGate_only (Only.refl 256 s) rfl .cl rfl
@[simp] theorem restartGate_keeps_ps {x0 : Nat} {s : State} : (restartGate x0 s).ps = s.ps :=
  restartGate_only (Only.refl 256 s) rfl .ps rfl
@[simp] theorem restartGate_keeps_fl {x0 : Nat} {s : State} : (restartGate x0 s).fl = s.fl :=
  restartGate_only (Only.refl 256 s) rfl .fl rfl
@[simp] theorem restartGate_keeps_dv {x0 : Nat} {s : State} : (restartGate x0 s).dv = s.dv :=
  restartGate_only (Only.refl 256 s) rfl .dv rfl
@[simp] theorem restartGate_keeps_mem {x0 : Nat} {s : State} : (restartGate x0 s).mem = s.mem :=
  restartGate_only (Only.refl 256 s) rfl .mem rfl
@[simp] theorem restartGate_keeps_bell {x0 : Nat} {s : State} : (restartGate x0 s).bell = s.bell :=
  restartGate_only (Only.refl 256 s) rfl .bell rfl
@[simp] theorem restartGate_keeps_pair {x0 : Nat} {s : State} : (restartGate x0 s).pair = s.pair :=
  restartGate_only (Only.refl 256 s) rfl .pair rfl
@[simp] theorem restartGate_keeps_wire {x0 : Nat} {s : State} : (restartGate x0 s).wire = s.wire :=
  restartGate_only (Only.refl 256 s) rfl .wire rfl
@[simp] theorem restartGate_keeps_drawn {x0 : Nat} {s : State} : (restartGate x0 s).drawn = s.drawn :=
  restartGate_only (Only.refl 256 s) rfl .drawn rfl
@[simp] theorem restartGate_keeps_pending {x0 : Nat} {s : State} : (restartGate x0 s).pending = s.pending :=
  restartGate_only (Only.refl 256 s) rfl .pending rfl
@[simp] theorem dpdDiverge_keeps_air {x0 : Nat} {s : State} : (dpdDiverge x0 s).air = s.air :=
  dpdDiverge_only (Only.refl 68 s) rfl .air rfl
@[simp] theorem dpdDiverge_keeps_host {x0 : Nat} {s : State} : (dpdDiverge x0 s).host = s.host :=
  dpdDiverge_only (Only.refl 68 s) rfl .host rfl
@[simp] theorem dpdDiverge_keeps_log {x0 : Nat} {s : State} : (dpdDiverge x0 s).log = s.log :=
  dpdDiverge_only (Only.refl 68 s) rfl .log rfl
@[simp] theorem dpdDiverge_keeps_sys {x0 : Nat} {s : State} : (dpdDiverge x0 s).sys = s.sys :=
  dpdDiverge_only (Only.refl 68 s) rfl .sys rfl
@[simp] theorem dpdDiverge_keeps_rf {x0 : Nat} {s : State} : (dpdDiverge x0 s).rf = s.rf :=
  dpdDiverge_only (Only.refl 68 s) rfl .rf rfl
@[simp] theorem dpdDiverge_keeps_lg {x0 : Nat} {s : State} : (dpdDiverge x0 s).lg = s.lg :=
  dpdDiverge_only (Only.refl 68 s) rfl .lg rfl
@[simp] theorem dpdDiverge_keeps_np {x0 : Nat} {s : State} : (dpdDiverge x0 s).np = s.np :=
  dpdDiverge_only (Only.refl 68 s) rfl .np rfl
@[simp] theorem dpdDiverge_keeps_hk {x0 : Nat} {s : State} : (dpdDiverge x0 s).hk = s.hk :=
  dpdDiverge_only (Only.refl 68 s) rfl .hk rfl
@[simp] theorem dpdDiverge_keeps_cl {x0 : Nat} {s : State} : (dpdDiverge x0 s).cl = s.cl :=
  dpdDiverge_only (Only.refl 68 s) rfl .cl rfl
@[simp] theorem dpdDiverge_keeps_ps {x0 : Nat} {s : State} : (dpdDiverge x0 s).ps = s.ps :=
  dpdDiverge_only (Only.refl 68 s) rfl .ps rfl
@[simp] theorem dpdDiverge_keeps_fl {x0 : Nat} {s : State} : (dpdDiverge x0 s).fl = s.fl :=
  dpdDiverge_only (Only.refl 68 s) rfl .fl rfl
@[simp] theorem dpdDiverge_keeps_dv {x0 : Nat} {s : State} : (dpdDiverge x0 s).dv = s.dv :=
  dpdDiverge_only (Only.refl 68 s) rfl .dv rfl
@[simp] theorem dpdDiverge_keeps_mem {x0 : Nat} {s : State} : (dpdDiverge x0 s).mem = s.mem :=
  dpdDiverge_only (Only.refl 68 s) rfl .mem rfl
@[simp] theorem dpdDiverge_keeps_bell {x0 : Nat} {s : State} : (dpdDiverge x0 s).bell = s.bell :=
  dpdDiverge_only (Only.refl 68 s) rfl .bell rfl
@[simp] theorem dpdDiverge_keeps_pair {x0 : Nat} {s : State} : (dpdDiverge x0 s).pair = s.pair :=
  dpdDiverge_only (Only.refl 68 s) rfl .pair rfl
@[simp] theorem dpdDiverge_keeps_wire {x0 : Nat} {s : State} : (dpdDiverge x0 s).wire = s.wire :=
  dpdDiverge_only (Only.refl 68 s) rfl .wire rfl
@[simp] theorem dpdDiverge_keeps_drawn {x0 : Nat} {s : State} : (dpdDiverge x0 s).drawn = s.drawn :=
  dpdDiverge_only (Only.refl 68 s) rfl .drawn rfl
@[simp] theorem dpdDiverge_keeps_pending {x0 : Nat} {s : State} : (dpdDiverge x0 s).pending = s.pending :=
  dpdDiverge_only (Only.refl 68 s) rfl .pending rfl
@[simp] theorem askRepClear_keeps_air {x0 : Nat} {s : State} : (askRepClear x0 s).air = s.air :=
  askRepClear_only (Only.refl 1024 s) rfl .air rfl
@[simp] theorem askRepClear_keeps_host {x0 : Nat} {s : State} : (askRepClear x0 s).host = s.host :=
  askRepClear_only (Only.refl 1024 s) rfl .host rfl
@[simp] theorem askRepClear_keeps_fault {x0 : Nat} {s : State} : (askRepClear x0 s).fault = s.fault :=
  askRepClear_only (Only.refl 1024 s) rfl .fault rfl
@[simp] theorem askRepClear_keeps_log {x0 : Nat} {s : State} : (askRepClear x0 s).log = s.log :=
  askRepClear_only (Only.refl 1024 s) rfl .log rfl
@[simp] theorem askRepClear_keeps_sys {x0 : Nat} {s : State} : (askRepClear x0 s).sys = s.sys :=
  askRepClear_only (Only.refl 1024 s) rfl .sys rfl
@[simp] theorem askRepClear_keeps_rf {x0 : Nat} {s : State} : (askRepClear x0 s).rf = s.rf :=
  askRepClear_only (Only.refl 1024 s) rfl .rf rfl
@[simp] theorem askRepClear_keeps_ce {x0 : Nat} {s : State} : (askRepClear x0 s).ce = s.ce :=
  askRepClear_only (Only.refl 1024 s) rfl .ce rfl
@[simp] theorem askRepClear_keeps_lg {x0 : Nat} {s : State} : (askRepClear x0 s).lg = s.lg :=
  askRepClear_only (Only.refl 1024 s) rfl .lg rfl
@[simp] theorem askRepClear_keeps_np {x0 : Nat} {s : State} : (askRepClear x0 s).np = s.np :=
  askRepClear_only (Only.refl 1024 s) rfl .np rfl
@[simp] theorem askRepClear_keeps_hk {x0 : Nat} {s : State} : (askRepClear x0 s).hk = s.hk :=
  askRepClear_only (Only.refl 1024 s) rfl .hk rfl
@[simp] theorem askRepClear_keeps_ps {x0 : Nat} {s : State} : (askRepClear x0 s).ps = s.ps :=
  askRepClear_only (Only.refl 1024 s) rfl .ps rfl
@[simp] theorem askRepClear_keeps_fl {x0 : Nat} {s : State} : (askRepClear x0 s).fl = s.fl :=
  askRepClear_only (Only.refl 1024 s) rfl .fl rfl
@[simp] theorem askRepClear_keeps_dv {x0 : Nat} {s : State} : (askRepClear x0 s).dv = s.dv :=
  askRepClear_only (Only.refl 1024 s) rfl .dv rfl
@[simp] theorem askRepClear_keeps_mem {x0 : Nat} {s : State} : (askRepClear x0 s).mem = s.mem :=
  askRepClear_only (Only.refl 1024 s) rfl .mem rfl
@[simp] theorem askRepClear_keeps_bell {x0 : Nat} {s : State} : (askRepClear x0 s).bell = s.bell :=
  askRepClear_only (Only.refl 1024 s) rfl .bell rfl
@[simp] theorem askRepClear_keeps_pair {x0 : Nat} {s : State} : (askRepClear x0 s).pair = s.pair :=
  askRepClear_only (Only.refl 1024 s) rfl .pair rfl
@[simp] theorem askRepClear_keeps_wire {x0 : Nat} {s : State} : (askRepClear x0 s).wire = s.wire :=
  askRepClear_only (Only.refl 1024 s) rfl .wire rfl
@[simp] theorem askRepClear_keeps_drawn {x0 : Nat} {s : State} : (askRepClear x0 s).drawn = s.drawn :=
  askRepClear_only (Only.refl 1024 s) rfl .drawn rfl
@[simp] theorem askRepClear_keeps_pending {x0 : Nat} {s : State} : (askRepClear x0 s).pending = s.pending :=
  askRepClear_only (Only.refl 1024 s) rfl .pending rfl
@[simp] theorem endDpdBackoff_keeps_air {x0 : Nat} {s : State} : (endDpdBackoff x0 s).air = s.air :=
  endDpdBackoff_only (Only.refl 452 s) rfl .air rfl
@[simp] theorem endDpdBackoff_keeps_host {x0 : Nat} {s : State} : (endDpdBackoff x0 s).host = s.host :=
  endDpdBackoff_only (Only.refl 452 s) rfl .host rfl
@[simp] theorem endDpdBackoff_keeps_log {x0 : Nat} {s : State} : (endDpdBackoff x0 s).log = s.log :=
  endDpdBackoff_only (Only.refl 452 s) rfl .log rfl
@[simp] theorem endDpdBackoff_keeps_sys {x0 : Nat} {s : State} : (endDpdBackoff x0 s).sys = s.sys :=
  endDpdBackoff_only (Only.refl 452 s) rfl .sys rfl
@[simp] theorem endDpdBackoff_keeps_rf {x0 : Nat} {s : State} : (endDpdBackoff x0 s).rf = s.rf :=
  endDpdBackoff_only (Only.refl 452 s) rfl .rf rfl
@[simp] theorem endDpdBackoff_keeps_hk {x0 : Nat} {s : State} : (endDpdBackoff x0 s).hk = s.hk :=
  endDpdBackoff_only (Only.refl 452 s) rfl .hk rfl
@[simp] theorem endDpdBackoff_keeps_cl {x0 : Nat} {s : State} : (endDpdBackoff x0 s).cl = s.cl :=
  endDpdBackoff_only (Only.refl 452 s) rfl .cl rfl
@[simp] theorem endDpdBackoff_keeps_ps {x0 : Nat} {s : State} : (endDpdBackoff x0 s).ps = s.ps :=
  endDpdBackoff_only (Only.refl 452 s) rfl .ps rfl
@[simp] theorem endDpdBackoff_keeps_fl {x0 : Nat} {s : State} : (endDpdBackoff x0 s).fl = s.fl :=
  endDpdBackoff_only (Only.refl 452 s) rfl .fl rfl
@[simp] theorem endDpdBackoff_keeps_dv {x0 : Nat} {s : State} : (endDpdBackoff x0 s).dv = s.dv :=
  endDpdBackoff_only (Only.refl 452 s) rfl .dv rfl
@[simp] theorem endDpdBackoff_keeps_mem {x0 : Nat} {s : State} : (endDpdBackoff x0 s).mem = s.mem :=
  endDpdBackoff_only (Only.refl 452 s) rfl .mem rfl
@[simp] theorem endDpdBackoff_keeps_bell {x0 : Nat} {s : State} : (endDpdBackoff x0 s).bell = s.bell :=
  endDpdBackoff_only (Only.refl 452 s) rfl .bell rfl
@[simp] theorem endDpdBackoff_keeps_pair {x0 : Nat} {s : State} : (endDpdBackoff x0 s).pair = s.pair :=
  endDpdBackoff_only (Only.refl 452 s) rfl .pair rfl
@[simp] theorem endDpdBackoff_keeps_wire {x0 : Nat} {s : State} : (endDpdBackoff x0 s).wire = s.wire :=
  endDpdBackoff_only (Only.refl 452 s) rfl .wire rfl
@[simp] theorem endDpdBackoff_keeps_drawn {x0 : Nat} {s : State} : (endDpdBackoff x0 s).drawn = s.drawn :=
  endDpdBackoff_only (Only.refl 452 s) rfl .drawn rfl
@[simp] theorem endDpdBackoff_keeps_pending {x0 : Nat} {s : State} : (endDpdBackoff x0 s).pending = s.pending :=
  endDpdBackoff_only (Only.refl 452 s) rfl .pending rfl
@[simp] theorem dropBackoffs_keeps_air {x0 : Backoff → Bool} {s : State} : (dropBackoffs x0 s).air = s.air :=
  dropBackoffs_only (Only.refl 452 s) rfl .air rfl
@[simp] theorem dropBackoffs_keeps_host {x0 : Backoff → Bool} {s : State} : (dropBackoffs x0 s).host = s.host :=
  dropBackoffs_only (Only.refl 452 s) rfl .host rfl
@[simp] theorem dropBackoffs_keeps_log {x0 : Backoff → Bool} {s : State} : (dropBackoffs x0 s).log = s.log :=
  dropBackoffs_only (Only.refl 452 s) rfl .log rfl
@[simp] theorem dropBackoffs_keeps_sys {x0 : Backoff → Bool} {s : State} : (dropBackoffs x0 s).sys = s.sys :=
  dropBackoffs_only (Only.refl 452 s) rfl .sys rfl
@[simp] theorem dropBackoffs_keeps_rf {x0 : Backoff → Bool} {s : State} : (dropBackoffs x0 s).rf = s.rf :=
  dropBackoffs_only (Only.refl 452 s) rfl .rf rfl
@[simp] theorem dropBackoffs_keeps_hk {x0 : Backoff → Bool} {s : State} : (dropBackoffs x0 s).hk = s.hk :=
  dropBackoffs_only (Only.refl 452 s) rfl .hk rfl
@[simp] theorem dropBackoffs_keeps_cl {x0 : Backoff → Bool} {s : State} : (dropBackoffs x0 s).cl = s.cl :=
  dropBackoffs_only (Only.refl 452 s) rfl .cl rfl
@[simp] theorem dropBackoffs_keeps_ps {x0 : Backoff → Bool} {s : State} : (dropBackoffs x0 s).ps = s.ps :=
  dropBackoffs_only (Only.refl 452 s) rfl .ps rfl
@[simp] theorem dropBackoffs_keeps_fl {x0 : Backoff → Bool} {s : State} : (dropBackoffs x0 s).fl = s.fl :=
  dropBackoffs_only (Only.refl 452 s) rfl .fl rfl
@[simp] theorem dropBackoffs_keeps_dv {x0 : Backoff → Bool} {s : State} : (dropBackoffs x0 s).dv = s.dv :=
  dropBackoffs_only (Only.refl 452 s) rfl .dv rfl
@[simp] theorem dropBackoffs_keeps_mem {x0 : Backoff → Bool} {s : State} : (dropBackoffs x0 s).mem = s.mem :=
  dropBackoffs_only (Only.refl 452 s) rfl .mem rfl
@[simp] theorem dropBackoffs_keeps_bell {x0 : Backoff → Bool} {s : State} : (dropBackoffs x0 s).bell = s.bell :=
  dropBackoffs_only (Only.refl 452 s) rfl .bell rfl
@[simp] theorem dropBackoffs_keeps_pair {x0 : Backoff → Bool} {s : State} : (dropBackoffs x0 s).pair = s.pair :=
  dropBackoffs_only (Only.refl 452 s) rfl .pair rfl
@[simp] theorem dropBackoffs_keeps_wire {x0 : Backoff → Bool} {s : State} : (dropBackoffs x0 s).wire = s.wire :=
  dropBackoffs_only (Only.refl 452 s) rfl .wire rfl
@[simp] theorem dropBackoffs_keeps_drawn {x0 : Backoff → Bool} {s : State} : (dropBackoffs x0 s).drawn = s.drawn :=
  dropBackoffs_only (Only.refl 452 s) rfl .drawn rfl
@[simp] theorem dropBackoffs_keeps_pending {x0 : Backoff → Bool} {s : State} : (dropBackoffs x0 s).pending = s.pending :=
  dropBackoffs_only (Only.refl 452 s) rfl .pending rfl
@[simp] theorem levelTrigger_keeps_air {x0 : Dir} {x1 : Nat} {x2 : Option ℤ} {x3 : Option ℤ} {x4 : Nat} {s : State} : (levelTrigger x0 x1 x2 x3 x4 s).air = s.air :=
  levelTrigger_only (Only.refl 16384 s) rfl .air rfl
@[simp] theorem levelTrigger_keeps_host {x0 : Dir} {x1 : Nat} {x2 : Option ℤ} {x3 : Option ℤ} {x4 : Nat} {s : State} : (levelTrigger x0 x1 x2 x3 x4 s).host = s.host :=
  levelTrigger_only (Only.refl 16384 s) rfl .host rfl
@[simp] theorem levelTrigger_keeps_fault {x0 : Dir} {x1 : Nat} {x2 : Option ℤ} {x3 : Option ℤ} {x4 : Nat} {s : State} : (levelTrigger x0 x1 x2 x3 x4 s).fault = s.fault :=
  levelTrigger_only (Only.refl 16384 s) rfl .fault rfl
@[simp] theorem levelTrigger_keeps_log {x0 : Dir} {x1 : Nat} {x2 : Option ℤ} {x3 : Option ℤ} {x4 : Nat} {s : State} : (levelTrigger x0 x1 x2 x3 x4 s).log = s.log :=
  levelTrigger_only (Only.refl 16384 s) rfl .log rfl
@[simp] theorem levelTrigger_keeps_sys {x0 : Dir} {x1 : Nat} {x2 : Option ℤ} {x3 : Option ℤ} {x4 : Nat} {s : State} : (levelTrigger x0 x1 x2 x3 x4 s).sys = s.sys :=
  levelTrigger_only (Only.refl 16384 s) rfl .sys rfl
@[simp] theorem levelTrigger_keeps_rf {x0 : Dir} {x1 : Nat} {x2 : Option ℤ} {x3 : Option ℤ} {x4 : Nat} {s : State} : (levelTrigger x0 x1 x2 x3 x4 s).rf = s.rf :=
  levelTrigger_only (Only.refl 16384 s) rfl .rf rfl
@[simp] theorem levelTrigger_keeps_ce {x0 : Dir} {x1 : Nat} {x2 : Option ℤ} {x3 : Option ℤ} {x4 : Nat} {s : State} : (levelTrigger x0 x1 x2 x3 x4 s).ce = s.ce :=
  levelTrigger_only (Only.refl 16384 s) rfl .ce rfl
@[simp] theorem levelTrigger_keeps_lg {x0 : Dir} {x1 : Nat} {x2 : Option ℤ} {x3 : Option ℤ} {x4 : Nat} {s : State} : (levelTrigger x0 x1 x2 x3 x4 s).lg = s.lg :=
  levelTrigger_only (Only.refl 16384 s) rfl .lg rfl
@[simp] theorem levelTrigger_keeps_np {x0 : Dir} {x1 : Nat} {x2 : Option ℤ} {x3 : Option ℤ} {x4 : Nat} {s : State} : (levelTrigger x0 x1 x2 x3 x4 s).np = s.np :=
  levelTrigger_only (Only.refl 16384 s) rfl .np rfl
@[simp] theorem levelTrigger_keeps_hk {x0 : Dir} {x1 : Nat} {x2 : Option ℤ} {x3 : Option ℤ} {x4 : Nat} {s : State} : (levelTrigger x0 x1 x2 x3 x4 s).hk = s.hk :=
  levelTrigger_only (Only.refl 16384 s) rfl .hk rfl
@[simp] theorem levelTrigger_keeps_cl {x0 : Dir} {x1 : Nat} {x2 : Option ℤ} {x3 : Option ℤ} {x4 : Nat} {s : State} : (levelTrigger x0 x1 x2 x3 x4 s).cl = s.cl :=
  levelTrigger_only (Only.refl 16384 s) rfl .cl rfl
@[simp] theorem levelTrigger_keeps_ps {x0 : Dir} {x1 : Nat} {x2 : Option ℤ} {x3 : Option ℤ} {x4 : Nat} {s : State} : (levelTrigger x0 x1 x2 x3 x4 s).ps = s.ps :=
  levelTrigger_only (Only.refl 16384 s) rfl .ps rfl
@[simp] theorem levelTrigger_keeps_fl {x0 : Dir} {x1 : Nat} {x2 : Option ℤ} {x3 : Option ℤ} {x4 : Nat} {s : State} : (levelTrigger x0 x1 x2 x3 x4 s).fl = s.fl :=
  levelTrigger_only (Only.refl 16384 s) rfl .fl rfl
@[simp] theorem levelTrigger_keeps_dv {x0 : Dir} {x1 : Nat} {x2 : Option ℤ} {x3 : Option ℤ} {x4 : Nat} {s : State} : (levelTrigger x0 x1 x2 x3 x4 s).dv = s.dv :=
  levelTrigger_only (Only.refl 16384 s) rfl .dv rfl
@[simp] theorem levelTrigger_keeps_bell {x0 : Dir} {x1 : Nat} {x2 : Option ℤ} {x3 : Option ℤ} {x4 : Nat} {s : State} : (levelTrigger x0 x1 x2 x3 x4 s).bell = s.bell :=
  levelTrigger_only (Only.refl 16384 s) rfl .bell rfl
@[simp] theorem levelTrigger_keeps_pair {x0 : Dir} {x1 : Nat} {x2 : Option ℤ} {x3 : Option ℤ} {x4 : Nat} {s : State} : (levelTrigger x0 x1 x2 x3 x4 s).pair = s.pair :=
  levelTrigger_only (Only.refl 16384 s) rfl .pair rfl
@[simp] theorem levelTrigger_keeps_wire {x0 : Dir} {x1 : Nat} {x2 : Option ℤ} {x3 : Option ℤ} {x4 : Nat} {s : State} : (levelTrigger x0 x1 x2 x3 x4 s).wire = s.wire :=
  levelTrigger_only (Only.refl 16384 s) rfl .wire rfl
@[simp] theorem levelTrigger_keeps_drawn {x0 : Dir} {x1 : Nat} {x2 : Option ℤ} {x3 : Option ℤ} {x4 : Nat} {s : State} : (levelTrigger x0 x1 x2 x3 x4 s).drawn = s.drawn :=
  levelTrigger_only (Only.refl 16384 s) rfl .drawn rfl
@[simp] theorem levelTrigger_keeps_pending {x0 : Dir} {x1 : Nat} {x2 : Option ℤ} {x3 : Option ℤ} {x4 : Nat} {s : State} : (levelTrigger x0 x1 x2 x3 x4 s).pending = s.pending :=
  levelTrigger_only (Only.refl 16384 s) rfl .pending rfl
@[simp] theorem noiseWindow_keeps_air {x0 : Nat} {x1 : List (List Nat)} {s : State} : (noiseWindow x0 x1 s).air = s.air :=
  noiseWindow_only (Only.refl 256 s) rfl .air rfl
@[simp] theorem noiseWindow_keeps_host {x0 : Nat} {x1 : List (List Nat)} {s : State} : (noiseWindow x0 x1 s).host = s.host :=
  noiseWindow_only (Only.refl 256 s) rfl .host rfl
@[simp] theorem noiseWindow_keeps_fault {x0 : Nat} {x1 : List (List Nat)} {s : State} : (noiseWindow x0 x1 s).fault = s.fault :=
  noiseWindow_only (Only.refl 256 s) rfl .fault rfl
@[simp] theorem noiseWindow_keeps_log {x0 : Nat} {x1 : List (List Nat)} {s : State} : (noiseWindow x0 x1 s).log = s.log :=
  noiseWindow_only (Only.refl 256 s) rfl .log rfl
@[simp] theorem noiseWindow_keeps_sys {x0 : Nat} {x1 : List (List Nat)} {s : State} : (noiseWindow x0 x1 s).sys = s.sys :=
  noiseWindow_only (Only.refl 256 s) rfl .sys rfl
@[simp] theorem noiseWindow_keeps_rf {x0 : Nat} {x1 : List (List Nat)} {s : State} : (noiseWindow x0 x1 s).rf = s.rf :=
  noiseWindow_only (Only.refl 256 s) rfl .rf rfl
@[simp] theorem noiseWindow_keeps_ce {x0 : Nat} {x1 : List (List Nat)} {s : State} : (noiseWindow x0 x1 s).ce = s.ce :=
  noiseWindow_only (Only.refl 256 s) rfl .ce rfl
@[simp] theorem noiseWindow_keeps_lg {x0 : Nat} {x1 : List (List Nat)} {s : State} : (noiseWindow x0 x1 s).lg = s.lg :=
  noiseWindow_only (Only.refl 256 s) rfl .lg rfl
@[simp] theorem noiseWindow_keeps_hk {x0 : Nat} {x1 : List (List Nat)} {s : State} : (noiseWindow x0 x1 s).hk = s.hk :=
  noiseWindow_only (Only.refl 256 s) rfl .hk rfl
@[simp] theorem noiseWindow_keeps_cl {x0 : Nat} {x1 : List (List Nat)} {s : State} : (noiseWindow x0 x1 s).cl = s.cl :=
  noiseWindow_only (Only.refl 256 s) rfl .cl rfl
@[simp] theorem noiseWindow_keeps_ps {x0 : Nat} {x1 : List (List Nat)} {s : State} : (noiseWindow x0 x1 s).ps = s.ps :=
  noiseWindow_only (Only.refl 256 s) rfl .ps rfl
@[simp] theorem noiseWindow_keeps_fl {x0 : Nat} {x1 : List (List Nat)} {s : State} : (noiseWindow x0 x1 s).fl = s.fl :=
  noiseWindow_only (Only.refl 256 s) rfl .fl rfl
@[simp] theorem noiseWindow_keeps_dv {x0 : Nat} {x1 : List (List Nat)} {s : State} : (noiseWindow x0 x1 s).dv = s.dv :=
  noiseWindow_only (Only.refl 256 s) rfl .dv rfl
@[simp] theorem noiseWindow_keeps_mem {x0 : Nat} {x1 : List (List Nat)} {s : State} : (noiseWindow x0 x1 s).mem = s.mem :=
  noiseWindow_only (Only.refl 256 s) rfl .mem rfl
@[simp] theorem noiseWindow_keeps_bell {x0 : Nat} {x1 : List (List Nat)} {s : State} : (noiseWindow x0 x1 s).bell = s.bell :=
  noiseWindow_only (Only.refl 256 s) rfl .bell rfl
@[simp] theorem noiseWindow_keeps_pair {x0 : Nat} {x1 : List (List Nat)} {s : State} : (noiseWindow x0 x1 s).pair = s.pair :=
  noiseWindow_only (Only.refl 256 s) rfl .pair rfl
@[simp] theorem noiseWindow_keeps_wire {x0 : Nat} {x1 : List (List Nat)} {s : State} : (noiseWindow x0 x1 s).wire = s.wire :=
  noiseWindow_only (Only.refl 256 s) rfl .wire rfl
@[simp] theorem noiseWindow_keeps_drawn {x0 : Nat} {x1 : List (List Nat)} {s : State} : (noiseWindow x0 x1 s).drawn = s.drawn :=
  noiseWindow_only (Only.refl 256 s) rfl .drawn rfl
@[simp] theorem noiseWindow_keeps_pending {x0 : Nat} {x1 : List (List Nat)} {s : State} : (noiseWindow x0 x1 s).pending = s.pending :=
  noiseWindow_only (Only.refl 256 s) rfl .pending rfl
@[simp] theorem afterRamp_keeps_air {x0 : Nat} {s : State} : (afterRamp x0 s).air = s.air :=
  afterRamp_only (Only.refl 484 s) rfl .air rfl
@[simp] theorem afterRamp_keeps_host {x0 : Nat} {s : State} : (afterRamp x0 s).host = s.host :=
  afterRamp_only (Only.refl 484 s) rfl .host rfl
@[simp] theorem afterRamp_keeps_log {x0 : Nat} {s : State} : (afterRamp x0 s).log = s.log :=
  afterRamp_only (Only.refl 484 s) rfl .log rfl
@[simp] theorem afterRamp_keeps_sys {x0 : Nat} {s : State} : (afterRamp x0 s).sys = s.sys :=
  afterRamp_only (Only.refl 484 s) rfl .sys rfl
@[simp] theorem afterRamp_keeps_hk {x0 : Nat} {s : State} : (afterRamp x0 s).hk = s.hk :=
  afterRamp_only (Only.refl 484 s) rfl .hk rfl
@[simp] theorem afterRamp_keeps_cl {x0 : Nat} {s : State} : (afterRamp x0 s).cl = s.cl :=
  afterRamp_only (Only.refl 484 s) rfl .cl rfl
@[simp] theorem afterRamp_keeps_ps {x0 : Nat} {s : State} : (afterRamp x0 s).ps = s.ps :=
  afterRamp_only (Only.refl 484 s) rfl .ps rfl
@[simp] theorem afterRamp_keeps_fl {x0 : Nat} {s : State} : (afterRamp x0 s).fl = s.fl :=
  afterRamp_only (Only.refl 484 s) rfl .fl rfl
@[simp] theorem afterRamp_keeps_dv {x0 : Nat} {s : State} : (afterRamp x0 s).dv = s.dv :=
  afterRamp_only (Only.refl 484 s) rfl .dv rfl
@[simp] theorem afterRamp_keeps_mem {x0 : Nat} {s : State} : (afterRamp x0 s).mem = s.mem :=
  afterRamp_only (Only.refl 484 s) rfl .mem rfl
@[simp] theorem afterRamp_keeps_bell {x0 : Nat} {s : State} : (afterRamp x0 s).bell = s.bell :=
  afterRamp_only (Only.refl 484 s) rfl .bell rfl
@[simp] theorem afterRamp_keeps_pair {x0 : Nat} {s : State} : (afterRamp x0 s).pair = s.pair :=
  afterRamp_only (Only.refl 484 s) rfl .pair rfl
@[simp] theorem afterRamp_keeps_wire {x0 : Nat} {s : State} : (afterRamp x0 s).wire = s.wire :=
  afterRamp_only (Only.refl 484 s) rfl .wire rfl
@[simp] theorem afterRamp_keeps_drawn {x0 : Nat} {s : State} : (afterRamp x0 s).drawn = s.drawn :=
  afterRamp_only (Only.refl 484 s) rfl .drawn rfl
@[simp] theorem afterRamp_keeps_pending {x0 : Nat} {s : State} : (afterRamp x0 s).pending = s.pending :=
  afterRamp_only (Only.refl 484 s) rfl .pending rfl
@[simp] theorem removeEb_keeps_air {x0 : Nat} {s : State} : (removeEb x0 s).air = s.air :=
  removeEb_only (Only.refl 452 s) rfl .air rfl
@[simp] theorem removeEb_keeps_host {x0 : Nat} {s : State} : (removeEb x0 s).host = s.host :=
  removeEb_only (Only.refl 452 s) rfl .host rfl
@[simp] theorem removeEb_keeps_log {x0 : Nat} {s : State} : (removeEb x0 s).log = s.log :=
  removeEb_only (Only.refl 452 s) rfl .log rfl
@[simp] theorem removeEb_keeps_sys {x0 : Nat} {s : State} : (removeEb x0 s).sys = s.sys :=
  removeEb_only (Only.refl 452 s) rfl .sys rfl
@[simp] theorem removeEb_keeps_rf {x0 : Nat} {s : State} : (removeEb x0 s).rf = s.rf :=
  removeEb_only (Only.refl 452 s) rfl .rf rfl
@[simp] theorem removeEb_keeps_hk {x0 : Nat} {s : State} : (removeEb x0 s).hk = s.hk :=
  removeEb_only (Only.refl 452 s) rfl .hk rfl
@[simp] theorem removeEb_keeps_cl {x0 : Nat} {s : State} : (removeEb x0 s).cl = s.cl :=
  removeEb_only (Only.refl 452 s) rfl .cl rfl
@[simp] theorem removeEb_keeps_ps {x0 : Nat} {s : State} : (removeEb x0 s).ps = s.ps :=
  removeEb_only (Only.refl 452 s) rfl .ps rfl
@[simp] theorem removeEb_keeps_fl {x0 : Nat} {s : State} : (removeEb x0 s).fl = s.fl :=
  removeEb_only (Only.refl 452 s) rfl .fl rfl
@[simp] theorem removeEb_keeps_dv {x0 : Nat} {s : State} : (removeEb x0 s).dv = s.dv :=
  removeEb_only (Only.refl 452 s) rfl .dv rfl
@[simp] theorem removeEb_keeps_mem {x0 : Nat} {s : State} : (removeEb x0 s).mem = s.mem :=
  removeEb_only (Only.refl 452 s) rfl .mem rfl
@[simp] theorem removeEb_keeps_bell {x0 : Nat} {s : State} : (removeEb x0 s).bell = s.bell :=
  removeEb_only (Only.refl 452 s) rfl .bell rfl
@[simp] theorem removeEb_keeps_pair {x0 : Nat} {s : State} : (removeEb x0 s).pair = s.pair :=
  removeEb_only (Only.refl 452 s) rfl .pair rfl
@[simp] theorem removeEb_keeps_wire {x0 : Nat} {s : State} : (removeEb x0 s).wire = s.wire :=
  removeEb_only (Only.refl 452 s) rfl .wire rfl
@[simp] theorem removeEb_keeps_drawn {x0 : Nat} {s : State} : (removeEb x0 s).drawn = s.drawn :=
  removeEb_only (Only.refl 452 s) rfl .drawn rfl
@[simp] theorem removeEb_keeps_pending {x0 : Nat} {s : State} : (removeEb x0 s).pending = s.pending :=
  removeEb_only (Only.refl 452 s) rfl .pending rfl
@[simp] theorem writeCap_keeps_air {x0 : Nat} {s : State} : (writeCap x0 s).air = s.air :=
  writeCap_only (Only.refl 256 s) rfl .air rfl
@[simp] theorem writeCap_keeps_host {x0 : Nat} {s : State} : (writeCap x0 s).host = s.host :=
  writeCap_only (Only.refl 256 s) rfl .host rfl
@[simp] theorem writeCap_keeps_fault {x0 : Nat} {s : State} : (writeCap x0 s).fault = s.fault :=
  writeCap_only (Only.refl 256 s) rfl .fault rfl
@[simp] theorem writeCap_keeps_log {x0 : Nat} {s : State} : (writeCap x0 s).log = s.log :=
  writeCap_only (Only.refl 256 s) rfl .log rfl
@[simp] theorem writeCap_keeps_sys {x0 : Nat} {s : State} : (writeCap x0 s).sys = s.sys :=
  writeCap_only (Only.refl 256 s) rfl .sys rfl
@[simp] theorem writeCap_keeps_rf {x0 : Nat} {s : State} : (writeCap x0 s).rf = s.rf :=
  writeCap_only (Only.refl 256 s) rfl .rf rfl
@[simp] theorem writeCap_keeps_ce {x0 : Nat} {s : State} : (writeCap x0 s).ce = s.ce :=
  writeCap_only (Only.refl 256 s) rfl .ce rfl
@[simp] theorem writeCap_keeps_lg {x0 : Nat} {s : State} : (writeCap x0 s).lg = s.lg :=
  writeCap_only (Only.refl 256 s) rfl .lg rfl
@[simp] theorem writeCap_keeps_hk {x0 : Nat} {s : State} : (writeCap x0 s).hk = s.hk :=
  writeCap_only (Only.refl 256 s) rfl .hk rfl
@[simp] theorem writeCap_keeps_cl {x0 : Nat} {s : State} : (writeCap x0 s).cl = s.cl :=
  writeCap_only (Only.refl 256 s) rfl .cl rfl
@[simp] theorem writeCap_keeps_ps {x0 : Nat} {s : State} : (writeCap x0 s).ps = s.ps :=
  writeCap_only (Only.refl 256 s) rfl .ps rfl
@[simp] theorem writeCap_keeps_fl {x0 : Nat} {s : State} : (writeCap x0 s).fl = s.fl :=
  writeCap_only (Only.refl 256 s) rfl .fl rfl
@[simp] theorem writeCap_keeps_dv {x0 : Nat} {s : State} : (writeCap x0 s).dv = s.dv :=
  writeCap_only (Only.refl 256 s) rfl .dv rfl
@[simp] theorem writeCap_keeps_mem {x0 : Nat} {s : State} : (writeCap x0 s).mem = s.mem :=
  writeCap_only (Only.refl 256 s) rfl .mem rfl
@[simp] theorem writeCap_keeps_bell {x0 : Nat} {s : State} : (writeCap x0 s).bell = s.bell :=
  writeCap_only (Only.refl 256 s) rfl .bell rfl
@[simp] theorem writeCap_keeps_pair {x0 : Nat} {s : State} : (writeCap x0 s).pair = s.pair :=
  writeCap_only (Only.refl 256 s) rfl .pair rfl
@[simp] theorem writeCap_keeps_wire {x0 : Nat} {s : State} : (writeCap x0 s).wire = s.wire :=
  writeCap_only (Only.refl 256 s) rfl .wire rfl
@[simp] theorem writeCap_keeps_drawn {x0 : Nat} {s : State} : (writeCap x0 s).drawn = s.drawn :=
  writeCap_only (Only.refl 256 s) rfl .drawn rfl
@[simp] theorem writeCap_keeps_pending {x0 : Nat} {s : State} : (writeCap x0 s).pending = s.pending :=
  writeCap_only (Only.refl 256 s) rfl .pending rfl
@[simp] theorem selectSource_keeps_host {x0 : Nat} {s : State} : (selectSource x0 s).host = s.host :=
  selectSource_only (Only.refl 1 s) rfl .host rfl
@[simp] theorem selectSource_keeps_fault {x0 : Nat} {s : State} : (selectSource x0 s).fault = s.fault :=
  selectSource_only (Only.refl 1 s) rfl .fault rfl
@[simp] theorem selectSource_keeps_log {x0 : Nat} {s : State} : (selectSource x0 s).log = s.log :=
  selectSource_only (Only.refl 1 s) rfl .log rfl
@[simp] theorem selectSource_keeps_sys {x0 : Nat} {s : State} : (selectSource x0 s).sys = s.sys :=
  selectSource_only (Only.refl 1 s) rfl .sys rfl
@[simp] theorem selectSource_keeps_rf {x0 : Nat} {s : State} : (selectSource x0 s).rf = s.rf :=
  selectSource_only (Only.refl 1 s) rfl .rf rfl
@[simp] theorem selectSource_keeps_ce {x0 : Nat} {s : State} : (selectSource x0 s).ce = s.ce :=
  selectSource_only (Only.refl 1 s) rfl .ce rfl
@[simp] theorem selectSource_keeps_lg {x0 : Nat} {s : State} : (selectSource x0 s).lg = s.lg :=
  selectSource_only (Only.refl 1 s) rfl .lg rfl
@[simp] theorem selectSource_keeps_np {x0 : Nat} {s : State} : (selectSource x0 s).np = s.np :=
  selectSource_only (Only.refl 1 s) rfl .np rfl
@[simp] theorem selectSource_keeps_hk {x0 : Nat} {s : State} : (selectSource x0 s).hk = s.hk :=
  selectSource_only (Only.refl 1 s) rfl .hk rfl
@[simp] theorem selectSource_keeps_cl {x0 : Nat} {s : State} : (selectSource x0 s).cl = s.cl :=
  selectSource_only (Only.refl 1 s) rfl .cl rfl
@[simp] theorem selectSource_keeps_ps {x0 : Nat} {s : State} : (selectSource x0 s).ps = s.ps :=
  selectSource_only (Only.refl 1 s) rfl .ps rfl
@[simp] theorem selectSource_keeps_fl {x0 : Nat} {s : State} : (selectSource x0 s).fl = s.fl :=
  selectSource_only (Only.refl 1 s) rfl .fl rfl
@[simp] theorem selectSource_keeps_dv {x0 : Nat} {s : State} : (selectSource x0 s).dv = s.dv :=
  selectSource_only (Only.refl 1 s) rfl .dv rfl
@[simp] theorem selectSource_keeps_mem {x0 : Nat} {s : State} : (selectSource x0 s).mem = s.mem :=
  selectSource_only (Only.refl 1 s) rfl .mem rfl
@[simp] theorem selectSource_keeps_bell {x0 : Nat} {s : State} : (selectSource x0 s).bell = s.bell :=
  selectSource_only (Only.refl 1 s) rfl .bell rfl
@[simp] theorem selectSource_keeps_pair {x0 : Nat} {s : State} : (selectSource x0 s).pair = s.pair :=
  selectSource_only (Only.refl 1 s) rfl .pair rfl
@[simp] theorem selectSource_keeps_wire {x0 : Nat} {s : State} : (selectSource x0 s).wire = s.wire :=
  selectSource_only (Only.refl 1 s) rfl .wire rfl
@[simp] theorem selectSource_keeps_drawn {x0 : Nat} {s : State} : (selectSource x0 s).drawn = s.drawn :=
  selectSource_only (Only.refl 1 s) rfl .drawn rfl
@[simp] theorem selectSource_keeps_pending {x0 : Nat} {s : State} : (selectSource x0 s).pending = s.pending :=
  selectSource_only (Only.refl 1 s) rfl .pending rfl
@[simp] theorem decidePhase_keeps_host {s : State} : (decidePhase s).host = s.host :=
  decidePhase_only (Only.refl 1 s) rfl .host rfl
@[simp] theorem decidePhase_keeps_fault {s : State} : (decidePhase s).fault = s.fault :=
  decidePhase_only (Only.refl 1 s) rfl .fault rfl
@[simp] theorem decidePhase_keeps_log {s : State} : (decidePhase s).log = s.log :=
  decidePhase_only (Only.refl 1 s) rfl .log rfl
@[simp] theorem decidePhase_keeps_sys {s : State} : (decidePhase s).sys = s.sys :=
  decidePhase_only (Only.refl 1 s) rfl .sys rfl
@[simp] theorem decidePhase_keeps_rf {s : State} : (decidePhase s).rf = s.rf :=
  decidePhase_only (Only.refl 1 s) rfl .rf rfl
@[simp] theorem decidePhase_keeps_ce {s : State} : (decidePhase s).ce = s.ce :=
  decidePhase_only (Only.refl 1 s) rfl .ce rfl
@[simp] theorem decidePhase_keeps_lg {s : State} : (decidePhase s).lg = s.lg :=
  decidePhase_only (Only.refl 1 s) rfl .lg rfl
@[simp] theorem decidePhase_keeps_np {s : State} : (decidePhase s).np = s.np :=
  decidePhase_only (Only.refl 1 s) rfl .np rfl
@[simp] theorem decidePhase_keeps_hk {s : State} : (decidePhase s).hk = s.hk :=
  decidePhase_only (Only.refl 1 s) rfl .hk rfl
@[simp] theorem decidePhase_keeps_cl {s : State} : (decidePhase s).cl = s.cl :=
  decidePhase_only (Only.refl 1 s) rfl .cl rfl
@[simp] theorem decidePhase_keeps_ps {s : State} : (decidePhase s).ps = s.ps :=
  decidePhase_only (Only.refl 1 s) rfl .ps rfl
@[simp] theorem decidePhase_keeps_fl {s : State} : (decidePhase s).fl = s.fl :=
  decidePhase_only (Only.refl 1 s) rfl .fl rfl
@[simp] theorem decidePhase_keeps_dv {s : State} : (decidePhase s).dv = s.dv :=
  decidePhase_only (Only.refl 1 s) rfl .dv rfl
@[simp] theorem decidePhase_keeps_mem {s : State} : (decidePhase s).mem = s.mem :=
  decidePhase_only (Only.refl 1 s) rfl .mem rfl
@[simp] theorem decidePhase_keeps_bell {s : State} : (decidePhase s).bell = s.bell :=
  decidePhase_only (Only.refl 1 s) rfl .bell rfl
@[simp] theorem decidePhase_keeps_pair {s : State} : (decidePhase s).pair = s.pair :=
  decidePhase_only (Only.refl 1 s) rfl .pair rfl
@[simp] theorem decidePhase_keeps_wire {s : State} : (decidePhase s).wire = s.wire :=
  decidePhase_only (Only.refl 1 s) rfl .wire rfl
@[simp] theorem decidePhase_keeps_drawn {s : State} : (decidePhase s).drawn = s.drawn :=
  decidePhase_only (Only.refl 1 s) rfl .drawn rfl
@[simp] theorem decidePhase_keeps_pending {s : State} : (decidePhase s).pending = s.pending :=
  decidePhase_only (Only.refl 1 s) rfl .pending rfl
@[simp] theorem loseSource_keeps_host {s : State} : (loseSource s).host = s.host :=
  loseSource_only (Only.refl 1 s) rfl .host rfl
@[simp] theorem loseSource_keeps_fault {s : State} : (loseSource s).fault = s.fault :=
  loseSource_only (Only.refl 1 s) rfl .fault rfl
@[simp] theorem loseSource_keeps_log {s : State} : (loseSource s).log = s.log :=
  loseSource_only (Only.refl 1 s) rfl .log rfl
@[simp] theorem loseSource_keeps_sys {s : State} : (loseSource s).sys = s.sys :=
  loseSource_only (Only.refl 1 s) rfl .sys rfl
@[simp] theorem loseSource_keeps_rf {s : State} : (loseSource s).rf = s.rf :=
  loseSource_only (Only.refl 1 s) rfl .rf rfl
@[simp] theorem loseSource_keeps_ce {s : State} : (loseSource s).ce = s.ce :=
  loseSource_only (Only.refl 1 s) rfl .ce rfl
@[simp] theorem loseSource_keeps_lg {s : State} : (loseSource s).lg = s.lg :=
  loseSource_only (Only.refl 1 s) rfl .lg rfl
@[simp] theorem loseSource_keeps_np {s : State} : (loseSource s).np = s.np :=
  loseSource_only (Only.refl 1 s) rfl .np rfl
@[simp] theorem loseSource_keeps_hk {s : State} : (loseSource s).hk = s.hk :=
  loseSource_only (Only.refl 1 s) rfl .hk rfl
@[simp] theorem loseSource_keeps_cl {s : State} : (loseSource s).cl = s.cl :=
  loseSource_only (Only.refl 1 s) rfl .cl rfl
@[simp] theorem loseSource_keeps_ps {s : State} : (loseSource s).ps = s.ps :=
  loseSource_only (Only.refl 1 s) rfl .ps rfl
@[simp] theorem loseSource_keeps_fl {s : State} : (loseSource s).fl = s.fl :=
  loseSource_only (Only.refl 1 s) rfl .fl rfl
@[simp] theorem loseSource_keeps_dv {s : State} : (loseSource s).dv = s.dv :=
  loseSource_only (Only.refl 1 s) rfl .dv rfl
@[simp] theorem loseSource_keeps_mem {s : State} : (loseSource s).mem = s.mem :=
  loseSource_only (Only.refl 1 s) rfl .mem rfl
@[simp] theorem loseSource_keeps_bell {s : State} : (loseSource s).bell = s.bell :=
  loseSource_only (Only.refl 1 s) rfl .bell rfl
@[simp] theorem loseSource_keeps_pair {s : State} : (loseSource s).pair = s.pair :=
  loseSource_only (Only.refl 1 s) rfl .pair rfl
@[simp] theorem loseSource_keeps_wire {s : State} : (loseSource s).wire = s.wire :=
  loseSource_only (Only.refl 1 s) rfl .wire rfl
@[simp] theorem loseSource_keeps_drawn {s : State} : (loseSource s).drawn = s.drawn :=
  loseSource_only (Only.refl 1 s) rfl .drawn rfl
@[simp] theorem loseSource_keeps_pending {s : State} : (loseSource s).pending = s.pending :=
  loseSource_only (Only.refl 1 s) rfl .pending rfl
@[simp] theorem reselect_keeps_host {s : State} : (reselect s).host = s.host :=
  reselect_only (Only.refl 1 s) rfl .host rfl
@[simp] theorem reselect_keeps_fault {s : State} : (reselect s).fault = s.fault :=
  reselect_only (Only.refl 1 s) rfl .fault rfl
@[simp] theorem reselect_keeps_log {s : State} : (reselect s).log = s.log :=
  reselect_only (Only.refl 1 s) rfl .log rfl
@[simp] theorem reselect_keeps_sys {s : State} : (reselect s).sys = s.sys :=
  reselect_only (Only.refl 1 s) rfl .sys rfl
@[simp] theorem reselect_keeps_rf {s : State} : (reselect s).rf = s.rf :=
  reselect_only (Only.refl 1 s) rfl .rf rfl
@[simp] theorem reselect_keeps_ce {s : State} : (reselect s).ce = s.ce :=
  reselect_only (Only.refl 1 s) rfl .ce rfl
@[simp] theorem reselect_keeps_lg {s : State} : (reselect s).lg = s.lg :=
  reselect_only (Only.refl 1 s) rfl .lg rfl
@[simp] theorem reselect_keeps_np {s : State} : (reselect s).np = s.np :=
  reselect_only (Only.refl 1 s) rfl .np rfl
@[simp] theorem reselect_keeps_hk {s : State} : (reselect s).hk = s.hk :=
  reselect_only (Only.refl 1 s) rfl .hk rfl
@[simp] theorem reselect_keeps_cl {s : State} : (reselect s).cl = s.cl :=
  reselect_only (Only.refl 1 s) rfl .cl rfl
@[simp] theorem reselect_keeps_ps {s : State} : (reselect s).ps = s.ps :=
  reselect_only (Only.refl 1 s) rfl .ps rfl
@[simp] theorem reselect_keeps_fl {s : State} : (reselect s).fl = s.fl :=
  reselect_only (Only.refl 1 s) rfl .fl rfl
@[simp] theorem reselect_keeps_dv {s : State} : (reselect s).dv = s.dv :=
  reselect_only (Only.refl 1 s) rfl .dv rfl
@[simp] theorem reselect_keeps_mem {s : State} : (reselect s).mem = s.mem :=
  reselect_only (Only.refl 1 s) rfl .mem rfl
@[simp] theorem reselect_keeps_bell {s : State} : (reselect s).bell = s.bell :=
  reselect_only (Only.refl 1 s) rfl .bell rfl
@[simp] theorem reselect_keeps_pair {s : State} : (reselect s).pair = s.pair :=
  reselect_only (Only.refl 1 s) rfl .pair rfl
@[simp] theorem reselect_keeps_wire {s : State} : (reselect s).wire = s.wire :=
  reselect_only (Only.refl 1 s) rfl .wire rfl
@[simp] theorem reselect_keeps_drawn {s : State} : (reselect s).drawn = s.drawn :=
  reselect_only (Only.refl 1 s) rfl .drawn rfl
@[simp] theorem reselect_keeps_pending {s : State} : (reselect s).pending = s.pending :=
  reselect_only (Only.refl 1 s) rfl .pending rfl
@[simp] theorem failSource_keeps_host {x0 : Nat} {s : State} : (failSource x0 s).host = s.host :=
  failSource_only (Only.refl 1 s) rfl .host rfl
@[simp] theorem failSource_keeps_fault {x0 : Nat} {s : State} : (failSource x0 s).fault = s.fault :=
  failSource_only (Only.refl 1 s) rfl .fault rfl
@[simp] theorem failSource_keeps_log {x0 : Nat} {s : State} : (failSource x0 s).log = s.log :=
  failSource_only (Only.refl 1 s) rfl .log rfl
@[simp] theorem failSource_keeps_sys {x0 : Nat} {s : State} : (failSource x0 s).sys = s.sys :=
  failSource_only (Only.refl 1 s) rfl .sys rfl
@[simp] theorem failSource_keeps_rf {x0 : Nat} {s : State} : (failSource x0 s).rf = s.rf :=
  failSource_only (Only.refl 1 s) rfl .rf rfl
@[simp] theorem failSource_keeps_ce {x0 : Nat} {s : State} : (failSource x0 s).ce = s.ce :=
  failSource_only (Only.refl 1 s) rfl .ce rfl
@[simp] theorem failSource_keeps_lg {x0 : Nat} {s : State} : (failSource x0 s).lg = s.lg :=
  failSource_only (Only.refl 1 s) rfl .lg rfl
@[simp] theorem failSource_keeps_np {x0 : Nat} {s : State} : (failSource x0 s).np = s.np :=
  failSource_only (Only.refl 1 s) rfl .np rfl
@[simp] theorem failSource_keeps_hk {x0 : Nat} {s : State} : (failSource x0 s).hk = s.hk :=
  failSource_only (Only.refl 1 s) rfl .hk rfl
@[simp] theorem failSource_keeps_cl {x0 : Nat} {s : State} : (failSource x0 s).cl = s.cl :=
  failSource_only (Only.refl 1 s) rfl .cl rfl
@[simp] theorem failSource_keeps_ps {x0 : Nat} {s : State} : (failSource x0 s).ps = s.ps :=
  failSource_only (Only.refl 1 s) rfl .ps rfl
@[simp] theorem failSource_keeps_fl {x0 : Nat} {s : State} : (failSource x0 s).fl = s.fl :=
  failSource_only (Only.refl 1 s) rfl .fl rfl
@[simp] theorem failSource_keeps_dv {x0 : Nat} {s : State} : (failSource x0 s).dv = s.dv :=
  failSource_only (Only.refl 1 s) rfl .dv rfl
@[simp] theorem failSource_keeps_mem {x0 : Nat} {s : State} : (failSource x0 s).mem = s.mem :=
  failSource_only (Only.refl 1 s) rfl .mem rfl
@[simp] theorem failSource_keeps_bell {x0 : Nat} {s : State} : (failSource x0 s).bell = s.bell :=
  failSource_only (Only.refl 1 s) rfl .bell rfl
@[simp] theorem failSource_keeps_pair {x0 : Nat} {s : State} : (failSource x0 s).pair = s.pair :=
  failSource_only (Only.refl 1 s) rfl .pair rfl
@[simp] theorem failSource_keeps_wire {x0 : Nat} {s : State} : (failSource x0 s).wire = s.wire :=
  failSource_only (Only.refl 1 s) rfl .wire rfl
@[simp] theorem failSource_keeps_drawn {x0 : Nat} {s : State} : (failSource x0 s).drawn = s.drawn :=
  failSource_only (Only.refl 1 s) rfl .drawn rfl
@[simp] theorem failSource_keeps_pending {x0 : Nat} {s : State} : (failSource x0 s).pending = s.pending :=
  failSource_only (Only.refl 1 s) rfl .pending rfl
@[simp] theorem becomeUsable_keeps_host {x0 : Nat} {s : State} : (becomeUsable x0 s).host = s.host :=
  becomeUsable_only (Only.refl 1 s) rfl .host rfl
@[simp] theorem becomeUsable_keeps_fault {x0 : Nat} {s : State} : (becomeUsable x0 s).fault = s.fault :=
  becomeUsable_only (Only.refl 1 s) rfl .fault rfl
@[simp] theorem becomeUsable_keeps_log {x0 : Nat} {s : State} : (becomeUsable x0 s).log = s.log :=
  becomeUsable_only (Only.refl 1 s) rfl .log rfl
@[simp] theorem becomeUsable_keeps_sys {x0 : Nat} {s : State} : (becomeUsable x0 s).sys = s.sys :=
  becomeUsable_only (Only.refl 1 s) rfl .sys rfl
@[simp] theorem becomeUsable_keeps_rf {x0 : Nat} {s : State} : (becomeUsable x0 s).rf = s.rf :=
  becomeUsable_only (Only.refl 1 s) rfl .rf rfl
@[simp] theorem becomeUsable_keeps_ce {x0 : Nat} {s : State} : (becomeUsable x0 s).ce = s.ce :=
  becomeUsable_only (Only.refl 1 s) rfl .ce rfl
@[simp] theorem becomeUsable_keeps_lg {x0 : Nat} {s : State} : (becomeUsable x0 s).lg = s.lg :=
  becomeUsable_only (Only.refl 1 s) rfl .lg rfl
@[simp] theorem becomeUsable_keeps_np {x0 : Nat} {s : State} : (becomeUsable x0 s).np = s.np :=
  becomeUsable_only (Only.refl 1 s) rfl .np rfl
@[simp] theorem becomeUsable_keeps_hk {x0 : Nat} {s : State} : (becomeUsable x0 s).hk = s.hk :=
  becomeUsable_only (Only.refl 1 s) rfl .hk rfl
@[simp] theorem becomeUsable_keeps_cl {x0 : Nat} {s : State} : (becomeUsable x0 s).cl = s.cl :=
  becomeUsable_only (Only.refl 1 s) rfl .cl rfl
@[simp] theorem becomeUsable_keeps_ps {x0 : Nat} {s : State} : (becomeUsable x0 s).ps = s.ps :=
  becomeUsable_only (Only.refl 1 s) rfl .ps rfl
@[simp] theorem becomeUsable_keeps_fl {x0 : Nat} {s : State} : (becomeUsable x0 s).fl = s.fl :=
  becomeUsable_only (Only.refl 1 s) rfl .fl rfl
@[simp] theorem becomeUsable_keeps_dv {x0 : Nat} {s : State} : (becomeUsable x0 s).dv = s.dv :=
  becomeUsable_only (Only.refl 1 s) rfl .dv rfl
@[simp] theorem becomeUsable_keeps_mem {x0 : Nat} {s : State} : (becomeUsable x0 s).mem = s.mem :=
  becomeUsable_only (Only.refl 1 s) rfl .mem rfl
@[simp] theorem becomeUsable_keeps_bell {x0 : Nat} {s : State} : (becomeUsable x0 s).bell = s.bell :=
  becomeUsable_only (Only.refl 1 s) rfl .bell rfl
@[simp] theorem becomeUsable_keeps_pair {x0 : Nat} {s : State} : (becomeUsable x0 s).pair = s.pair :=
  becomeUsable_only (Only.refl 1 s) rfl .pair rfl
@[simp] theorem becomeUsable_keeps_wire {x0 : Nat} {s : State} : (becomeUsable x0 s).wire = s.wire :=
  becomeUsable_only (Only.refl 1 s) rfl .wire rfl
@[simp] theorem becomeUsable_keeps_drawn {x0 : Nat} {s : State} : (becomeUsable x0 s).drawn = s.drawn :=
  becomeUsable_only (Only.refl 1 s) rfl .drawn rfl
@[simp] theorem becomeUsable_keeps_pending {x0 : Nat} {s : State} : (becomeUsable x0 s).pending = s.pending :=
  becomeUsable_only (Only.refl 1 s) rfl .pending rfl
@[simp] theorem measureSource_keeps_host {x0 : Nat} {x1 : ℤ} {x2 : Nat} {x3 : ℤ} {s : State} : (measureSource x0 x1 x2 x3 s).host = s.host :=
  measureSource_only (Only.refl 1 s) rfl .host rfl
@[simp] theorem measureSource_keeps_fault {x0 : Nat} {x1 : ℤ} {x2 : Nat} {x3 : ℤ} {s : State} : (measureSource x0 x1 x2 x3 s).fault = s.fault :=
  measureSource_only (Only.refl 1 s) rfl .fault rfl
@[simp] theorem measureSource_keeps_log {x0 : Nat} {x1 : ℤ} {x2 : Nat} {x3 : ℤ} {s : State} : (measureSource x0 x1 x2 x3 s).log = s.log :=
  measureSource_only (Only.refl 1 s) rfl .log rfl
@[simp] theorem measureSource_keeps_sys {x0 : Nat} {x1 : ℤ} {x2 : Nat} {x3 : ℤ} {s : State} : (measureSource x0 x1 x2 x3 s).sys = s.sys :=
  measureSource_only (Only.refl 1 s) rfl .sys rfl
@[simp] theorem measureSource_keeps_rf {x0 : Nat} {x1 : ℤ} {x2 : Nat} {x3 : ℤ} {s : State} : (measureSource x0 x1 x2 x3 s).rf = s.rf :=
  measureSource_only (Only.refl 1 s) rfl .rf rfl
@[simp] theorem measureSource_keeps_ce {x0 : Nat} {x1 : ℤ} {x2 : Nat} {x3 : ℤ} {s : State} : (measureSource x0 x1 x2 x3 s).ce = s.ce :=
  measureSource_only (Only.refl 1 s) rfl .ce rfl
@[simp] theorem measureSource_keeps_lg {x0 : Nat} {x1 : ℤ} {x2 : Nat} {x3 : ℤ} {s : State} : (measureSource x0 x1 x2 x3 s).lg = s.lg :=
  measureSource_only (Only.refl 1 s) rfl .lg rfl
@[simp] theorem measureSource_keeps_np {x0 : Nat} {x1 : ℤ} {x2 : Nat} {x3 : ℤ} {s : State} : (measureSource x0 x1 x2 x3 s).np = s.np :=
  measureSource_only (Only.refl 1 s) rfl .np rfl
@[simp] theorem measureSource_keeps_hk {x0 : Nat} {x1 : ℤ} {x2 : Nat} {x3 : ℤ} {s : State} : (measureSource x0 x1 x2 x3 s).hk = s.hk :=
  measureSource_only (Only.refl 1 s) rfl .hk rfl
@[simp] theorem measureSource_keeps_cl {x0 : Nat} {x1 : ℤ} {x2 : Nat} {x3 : ℤ} {s : State} : (measureSource x0 x1 x2 x3 s).cl = s.cl :=
  measureSource_only (Only.refl 1 s) rfl .cl rfl
@[simp] theorem measureSource_keeps_ps {x0 : Nat} {x1 : ℤ} {x2 : Nat} {x3 : ℤ} {s : State} : (measureSource x0 x1 x2 x3 s).ps = s.ps :=
  measureSource_only (Only.refl 1 s) rfl .ps rfl
@[simp] theorem measureSource_keeps_fl {x0 : Nat} {x1 : ℤ} {x2 : Nat} {x3 : ℤ} {s : State} : (measureSource x0 x1 x2 x3 s).fl = s.fl :=
  measureSource_only (Only.refl 1 s) rfl .fl rfl
@[simp] theorem measureSource_keeps_dv {x0 : Nat} {x1 : ℤ} {x2 : Nat} {x3 : ℤ} {s : State} : (measureSource x0 x1 x2 x3 s).dv = s.dv :=
  measureSource_only (Only.refl 1 s) rfl .dv rfl
@[simp] theorem measureSource_keeps_mem {x0 : Nat} {x1 : ℤ} {x2 : Nat} {x3 : ℤ} {s : State} : (measureSource x0 x1 x2 x3 s).mem = s.mem :=
  measureSource_only (Only.refl 1 s) rfl .mem rfl
@[simp] theorem measureSource_keeps_bell {x0 : Nat} {x1 : ℤ} {x2 : Nat} {x3 : ℤ} {s : State} : (measureSource x0 x1 x2 x3 s).bell = s.bell :=
  measureSource_only (Only.refl 1 s) rfl .bell rfl
@[simp] theorem measureSource_keeps_pair {x0 : Nat} {x1 : ℤ} {x2 : Nat} {x3 : ℤ} {s : State} : (measureSource x0 x1 x2 x3 s).pair = s.pair :=
  measureSource_only (Only.refl 1 s) rfl .pair rfl
@[simp] theorem measureSource_keeps_wire {x0 : Nat} {x1 : ℤ} {x2 : Nat} {x3 : ℤ} {s : State} : (measureSource x0 x1 x2 x3 s).wire = s.wire :=
  measureSource_only (Only.refl 1 s) rfl .wire rfl
@[simp] theorem measureSource_keeps_drawn {x0 : Nat} {x1 : ℤ} {x2 : Nat} {x3 : ℤ} {s : State} : (measureSource x0 x1 x2 x3 s).drawn = s.drawn :=
  measureSource_only (Only.refl 1 s) rfl .drawn rfl
@[simp] theorem measureSource_keeps_pending {x0 : Nat} {x1 : ℤ} {x2 : Nat} {x3 : ℤ} {s : State} : (measureSource x0 x1 x2 x3 s).pending = s.pending :=
  measureSource_only (Only.refl 1 s) rfl .pending rfl
@[simp] theorem checkTimeLoss_keeps_air {s : State} : (checkTimeLoss s).air = s.air :=
  checkTimeLoss_only (Only.refl 4 s) rfl .air rfl
@[simp] theorem checkTimeLoss_keeps_host {s : State} : (checkTimeLoss s).host = s.host :=
  checkTimeLoss_only (Only.refl 4 s) rfl .host rfl
@[simp] theorem checkTimeLoss_keeps_log {s : State} : (checkTimeLoss s).log = s.log :=
  checkTimeLoss_only (Only.refl 4 s) rfl .log rfl
@[simp] theorem checkTimeLoss_keeps_sys {s : State} : (checkTimeLoss s).sys = s.sys :=
  checkTimeLoss_only (Only.refl 4 s) rfl .sys rfl
@[simp] theorem checkTimeLoss_keeps_rf {s : State} : (checkTimeLoss s).rf = s.rf :=
  checkTimeLoss_only (Only.refl 4 s) rfl .rf rfl
@[simp] theorem checkTimeLoss_keeps_ce {s : State} : (checkTimeLoss s).ce = s.ce :=
  checkTimeLoss_only (Only.refl 4 s) rfl .ce rfl
@[simp] theorem checkTimeLoss_keeps_lg {s : State} : (checkTimeLoss s).lg = s.lg :=
  checkTimeLoss_only (Only.refl 4 s) rfl .lg rfl
@[simp] theorem checkTimeLoss_keeps_np {s : State} : (checkTimeLoss s).np = s.np :=
  checkTimeLoss_only (Only.refl 4 s) rfl .np rfl
@[simp] theorem checkTimeLoss_keeps_hk {s : State} : (checkTimeLoss s).hk = s.hk :=
  checkTimeLoss_only (Only.refl 4 s) rfl .hk rfl
@[simp] theorem checkTimeLoss_keeps_cl {s : State} : (checkTimeLoss s).cl = s.cl :=
  checkTimeLoss_only (Only.refl 4 s) rfl .cl rfl
@[simp] theorem checkTimeLoss_keeps_ps {s : State} : (checkTimeLoss s).ps = s.ps :=
  checkTimeLoss_only (Only.refl 4 s) rfl .ps rfl
@[simp] theorem checkTimeLoss_keeps_fl {s : State} : (checkTimeLoss s).fl = s.fl :=
  checkTimeLoss_only (Only.refl 4 s) rfl .fl rfl
@[simp] theorem checkTimeLoss_keeps_dv {s : State} : (checkTimeLoss s).dv = s.dv :=
  checkTimeLoss_only (Only.refl 4 s) rfl .dv rfl
@[simp] theorem checkTimeLoss_keeps_mem {s : State} : (checkTimeLoss s).mem = s.mem :=
  checkTimeLoss_only (Only.refl 4 s) rfl .mem rfl
@[simp] theorem checkTimeLoss_keeps_bell {s : State} : (checkTimeLoss s).bell = s.bell :=
  checkTimeLoss_only (Only.refl 4 s) rfl .bell rfl
@[simp] theorem checkTimeLoss_keeps_pair {s : State} : (checkTimeLoss s).pair = s.pair :=
  checkTimeLoss_only (Only.refl 4 s) rfl .pair rfl
@[simp] theorem checkTimeLoss_keeps_wire {s : State} : (checkTimeLoss s).wire = s.wire :=
  checkTimeLoss_only (Only.refl 4 s) rfl .wire rfl
@[simp] theorem checkTimeLoss_keeps_drawn {s : State} : (checkTimeLoss s).drawn = s.drawn :=
  checkTimeLoss_only (Only.refl 4 s) rfl .drawn rfl
@[simp] theorem checkTimeLoss_keeps_pending {s : State} : (checkTimeLoss s).pending = s.pending :=
  checkTimeLoss_only (Only.refl 4 s) rfl .pending rfl
@[simp] theorem phaseTick_keeps_host {s : State} : (phaseTick s).host = s.host :=
  phaseTick_only (Only.refl 1 s) rfl .host rfl
@[simp] theorem phaseTick_keeps_fault {s : State} : (phaseTick s).fault = s.fault :=
  phaseTick_only (Only.refl 1 s) rfl .fault rfl
@[simp] theorem phaseTick_keeps_log {s : State} : (phaseTick s).log = s.log :=
  phaseTick_only (Only.refl 1 s) rfl .log rfl
@[simp] theorem phaseTick_keeps_sys {s : State} : (phaseTick s).sys = s.sys :=
  phaseTick_only (Only.refl 1 s) rfl .sys rfl
@[simp] theorem phaseTick_keeps_rf {s : State} : (phaseTick s).rf = s.rf :=
  phaseTick_only (Only.refl 1 s) rfl .rf rfl
@[simp] theorem phaseTick_keeps_ce {s : State} : (phaseTick s).ce = s.ce :=
  phaseTick_only (Only.refl 1 s) rfl .ce rfl
@[simp] theorem phaseTick_keeps_lg {s : State} : (phaseTick s).lg = s.lg :=
  phaseTick_only (Only.refl 1 s) rfl .lg rfl
@[simp] theorem phaseTick_keeps_np {s : State} : (phaseTick s).np = s.np :=
  phaseTick_only (Only.refl 1 s) rfl .np rfl
@[simp] theorem phaseTick_keeps_hk {s : State} : (phaseTick s).hk = s.hk :=
  phaseTick_only (Only.refl 1 s) rfl .hk rfl
@[simp] theorem phaseTick_keeps_cl {s : State} : (phaseTick s).cl = s.cl :=
  phaseTick_only (Only.refl 1 s) rfl .cl rfl
@[simp] theorem phaseTick_keeps_ps {s : State} : (phaseTick s).ps = s.ps :=
  phaseTick_only (Only.refl 1 s) rfl .ps rfl
@[simp] theorem phaseTick_keeps_fl {s : State} : (phaseTick s).fl = s.fl :=
  phaseTick_only (Only.refl 1 s) rfl .fl rfl
@[simp] theorem phaseTick_keeps_dv {s : State} : (phaseTick s).dv = s.dv :=
  phaseTick_only (Only.refl 1 s) rfl .dv rfl
@[simp] theorem phaseTick_keeps_mem {s : State} : (phaseTick s).mem = s.mem :=
  phaseTick_only (Only.refl 1 s) rfl .mem rfl
@[simp] theorem phaseTick_keeps_bell {s : State} : (phaseTick s).bell = s.bell :=
  phaseTick_only (Only.refl 1 s) rfl .bell rfl
@[simp] theorem phaseTick_keeps_pair {s : State} : (phaseTick s).pair = s.pair :=
  phaseTick_only (Only.refl 1 s) rfl .pair rfl
@[simp] theorem phaseTick_keeps_wire {s : State} : (phaseTick s).wire = s.wire :=
  phaseTick_only (Only.refl 1 s) rfl .wire rfl
@[simp] theorem phaseTick_keeps_drawn {s : State} : (phaseTick s).drawn = s.drawn :=
  phaseTick_only (Only.refl 1 s) rfl .drawn rfl
@[simp] theorem phaseTick_keeps_pending {s : State} : (phaseTick s).pending = s.pending :=
  phaseTick_only (Only.refl 1 s) rfl .pending rfl
@[simp] theorem setWall_keeps_host {x0 : Nat} {x1 : Nat} {s : State} : (setWall x0 x1 s).host = s.host :=
  setWall_only (Only.refl 9 s) rfl .host rfl
@[simp] theorem setWall_keeps_fault {x0 : Nat} {x1 : Nat} {s : State} : (setWall x0 x1 s).fault = s.fault :=
  setWall_only (Only.refl 9 s) rfl .fault rfl
@[simp] theorem setWall_keeps_sys {x0 : Nat} {x1 : Nat} {s : State} : (setWall x0 x1 s).sys = s.sys :=
  setWall_only (Only.refl 9 s) rfl .sys rfl
@[simp] theorem setWall_keeps_rf {x0 : Nat} {x1 : Nat} {s : State} : (setWall x0 x1 s).rf = s.rf :=
  setWall_only (Only.refl 9 s) rfl .rf rfl
@[simp] theorem setWall_keeps_ce {x0 : Nat} {x1 : Nat} {s : State} : (setWall x0 x1 s).ce = s.ce :=
  setWall_only (Only.refl 9 s) rfl .ce rfl
@[simp] theorem setWall_keeps_lg {x0 : Nat} {x1 : Nat} {s : State} : (setWall x0 x1 s).lg = s.lg :=
  setWall_only (Only.refl 9 s) rfl .lg rfl
@[simp] theorem setWall_keeps_np {x0 : Nat} {x1 : Nat} {s : State} : (setWall x0 x1 s).np = s.np :=
  setWall_only (Only.refl 9 s) rfl .np rfl
@[simp] theorem setWall_keeps_hk {x0 : Nat} {x1 : Nat} {s : State} : (setWall x0 x1 s).hk = s.hk :=
  setWall_only (Only.refl 9 s) rfl .hk rfl
@[simp] theorem setWall_keeps_cl {x0 : Nat} {x1 : Nat} {s : State} : (setWall x0 x1 s).cl = s.cl :=
  setWall_only (Only.refl 9 s) rfl .cl rfl
@[simp] theorem setWall_keeps_ps {x0 : Nat} {x1 : Nat} {s : State} : (setWall x0 x1 s).ps = s.ps :=
  setWall_only (Only.refl 9 s) rfl .ps rfl
@[simp] theorem setWall_keeps_fl {x0 : Nat} {x1 : Nat} {s : State} : (setWall x0 x1 s).fl = s.fl :=
  setWall_only (Only.refl 9 s) rfl .fl rfl
@[simp] theorem setWall_keeps_dv {x0 : Nat} {x1 : Nat} {s : State} : (setWall x0 x1 s).dv = s.dv :=
  setWall_only (Only.refl 9 s) rfl .dv rfl
@[simp] theorem setWall_keeps_mem {x0 : Nat} {x1 : Nat} {s : State} : (setWall x0 x1 s).mem = s.mem :=
  setWall_only (Only.refl 9 s) rfl .mem rfl
@[simp] theorem setWall_keeps_bell {x0 : Nat} {x1 : Nat} {s : State} : (setWall x0 x1 s).bell = s.bell :=
  setWall_only (Only.refl 9 s) rfl .bell rfl
@[simp] theorem setWall_keeps_pair {x0 : Nat} {x1 : Nat} {s : State} : (setWall x0 x1 s).pair = s.pair :=
  setWall_only (Only.refl 9 s) rfl .pair rfl
@[simp] theorem setWall_keeps_wire {x0 : Nat} {x1 : Nat} {s : State} : (setWall x0 x1 s).wire = s.wire :=
  setWall_only (Only.refl 9 s) rfl .wire rfl
@[simp] theorem setWall_keeps_drawn {x0 : Nat} {x1 : Nat} {s : State} : (setWall x0 x1 s).drawn = s.drawn :=
  setWall_only (Only.refl 9 s) rfl .drawn rfl
@[simp] theorem setWall_keeps_pending {x0 : Nat} {x1 : Nat} {s : State} : (setWall x0 x1 s).pending = s.pending :=
  setWall_only (Only.refl 9 s) rfl .pending rfl
@[simp] theorem drainQueue_keeps_air {s : State} {x1 : Nat} : (drainQueue s x1).air = s.air :=
  drainQueue_only (Only.refl 397312 s) rfl .air rfl
@[simp] theorem drainQueue_keeps_host {s : State} {x1 : Nat} : (drainQueue s x1).host = s.host :=
  drainQueue_only (Only.refl 397312 s) rfl .host rfl
@[simp] theorem drainQueue_keeps_fault {s : State} {x1 : Nat} : (drainQueue s x1).fault = s.fault :=
  drainQueue_only (Only.refl 397312 s) rfl .fault rfl
@[simp] theorem drainQueue_keeps_log {s : State} {x1 : Nat} : (drainQueue s x1).log = s.log :=
  drainQueue_only (Only.refl 397312 s) rfl .log rfl
@[simp] theorem drainQueue_keeps_sys {s : State} {x1 : Nat} : (drainQueue s x1).sys = s.sys :=
  drainQueue_only (Only.refl 397312 s) rfl .sys rfl
@[simp] theorem drainQueue_keeps_rf {s : State} {x1 : Nat} : (drainQueue s x1).rf = s.rf :=
  drainQueue_only (Only.refl 397312 s) rfl .rf rfl
@[simp] theorem drainQueue_keeps_ce {s : State} {x1 : Nat} : (drainQueue s x1).ce = s.ce :=
  drainQueue_only (Only.refl 397312 s) rfl .ce rfl
@[simp] theorem drainQueue_keeps_lg {s : State} {x1 : Nat} : (drainQueue s x1).lg = s.lg :=
  drainQueue_only (Only.refl 397312 s) rfl .lg rfl
@[simp] theorem drainQueue_keeps_np {s : State} {x1 : Nat} : (drainQueue s x1).np = s.np :=
  drainQueue_only (Only.refl 397312 s) rfl .np rfl
@[simp] theorem drainQueue_keeps_hk {s : State} {x1 : Nat} : (drainQueue s x1).hk = s.hk :=
  drainQueue_only (Only.refl 397312 s) rfl .hk rfl
@[simp] theorem drainQueue_keeps_cl {s : State} {x1 : Nat} : (drainQueue s x1).cl = s.cl :=
  drainQueue_only (Only.refl 397312 s) rfl .cl rfl
@[simp] theorem drainQueue_keeps_ps {s : State} {x1 : Nat} : (drainQueue s x1).ps = s.ps :=
  drainQueue_only (Only.refl 397312 s) rfl .ps rfl
@[simp] theorem drainQueue_keeps_dv {s : State} {x1 : Nat} : (drainQueue s x1).dv = s.dv :=
  drainQueue_only (Only.refl 397312 s) rfl .dv rfl
@[simp] theorem drainQueue_keeps_mem {s : State} {x1 : Nat} : (drainQueue s x1).mem = s.mem :=
  drainQueue_only (Only.refl 397312 s) rfl .mem rfl
@[simp] theorem drainQueue_keeps_bell {s : State} {x1 : Nat} : (drainQueue s x1).bell = s.bell :=
  drainQueue_only (Only.refl 397312 s) rfl .bell rfl
@[simp] theorem drainQueue_keeps_pair {s : State} {x1 : Nat} : (drainQueue s x1).pair = s.pair :=
  drainQueue_only (Only.refl 397312 s) rfl .pair rfl
@[simp] theorem drainQueue_keeps_pending {s : State} {x1 : Nat} : (drainQueue s x1).pending = s.pending :=
  drainQueue_only (Only.refl 397312 s) rfl .pending rfl
@[simp] theorem donorTick_keeps_air {s : State} {x1 : Nat} : (donorTick s x1).air = s.air :=
  donorTick_only (Only.refl 260 s) rfl .air rfl
@[simp] theorem donorTick_keeps_host {s : State} {x1 : Nat} : (donorTick s x1).host = s.host :=
  donorTick_only (Only.refl 260 s) rfl .host rfl
@[simp] theorem donorTick_keeps_log {s : State} {x1 : Nat} : (donorTick s x1).log = s.log :=
  donorTick_only (Only.refl 260 s) rfl .log rfl
@[simp] theorem donorTick_keeps_sys {s : State} {x1 : Nat} : (donorTick s x1).sys = s.sys :=
  donorTick_only (Only.refl 260 s) rfl .sys rfl
@[simp] theorem donorTick_keeps_rf {s : State} {x1 : Nat} : (donorTick s x1).rf = s.rf :=
  donorTick_only (Only.refl 260 s) rfl .rf rfl
@[simp] theorem donorTick_keeps_ce {s : State} {x1 : Nat} : (donorTick s x1).ce = s.ce :=
  donorTick_only (Only.refl 260 s) rfl .ce rfl
@[simp] theorem donorTick_keeps_lg {s : State} {x1 : Nat} : (donorTick s x1).lg = s.lg :=
  donorTick_only (Only.refl 260 s) rfl .lg rfl
@[simp] theorem donorTick_keeps_hk {s : State} {x1 : Nat} : (donorTick s x1).hk = s.hk :=
  donorTick_only (Only.refl 260 s) rfl .hk rfl
@[simp] theorem donorTick_keeps_cl {s : State} {x1 : Nat} : (donorTick s x1).cl = s.cl :=
  donorTick_only (Only.refl 260 s) rfl .cl rfl
@[simp] theorem donorTick_keeps_ps {s : State} {x1 : Nat} : (donorTick s x1).ps = s.ps :=
  donorTick_only (Only.refl 260 s) rfl .ps rfl
@[simp] theorem donorTick_keeps_fl {s : State} {x1 : Nat} : (donorTick s x1).fl = s.fl :=
  donorTick_only (Only.refl 260 s) rfl .fl rfl
@[simp] theorem donorTick_keeps_dv {s : State} {x1 : Nat} : (donorTick s x1).dv = s.dv :=
  donorTick_only (Only.refl 260 s) rfl .dv rfl
@[simp] theorem donorTick_keeps_mem {s : State} {x1 : Nat} : (donorTick s x1).mem = s.mem :=
  donorTick_only (Only.refl 260 s) rfl .mem rfl
@[simp] theorem donorTick_keeps_bell {s : State} {x1 : Nat} : (donorTick s x1).bell = s.bell :=
  donorTick_only (Only.refl 260 s) rfl .bell rfl
@[simp] theorem donorTick_keeps_pair {s : State} {x1 : Nat} : (donorTick s x1).pair = s.pair :=
  donorTick_only (Only.refl 260 s) rfl .pair rfl
@[simp] theorem donorTick_keeps_wire {s : State} {x1 : Nat} : (donorTick s x1).wire = s.wire :=
  donorTick_only (Only.refl 260 s) rfl .wire rfl
@[simp] theorem donorTick_keeps_drawn {s : State} {x1 : Nat} : (donorTick s x1).drawn = s.drawn :=
  donorTick_only (Only.refl 260 s) rfl .drawn rfl
@[simp] theorem donorTick_keeps_pending {s : State} {x1 : Nat} : (donorTick s x1).pending = s.pending :=
  donorTick_only (Only.refl 260 s) rfl .pending rfl
@[simp] theorem clipTick_keeps_air {s : State} {x1 : Nat × Nat} : (clipTick s x1).air = s.air :=
  clipTick_only (Only.refl 100 s) rfl .air rfl
@[simp] theorem clipTick_keeps_host {s : State} {x1 : Nat × Nat} : (clipTick s x1).host = s.host :=
  clipTick_only (Only.refl 100 s) rfl .host rfl
@[simp] theorem clipTick_keeps_log {s : State} {x1 : Nat × Nat} : (clipTick s x1).log = s.log :=
  clipTick_only (Only.refl 100 s) rfl .log rfl
@[simp] theorem clipTick_keeps_sys {s : State} {x1 : Nat × Nat} : (clipTick s x1).sys = s.sys :=
  clipTick_only (Only.refl 100 s) rfl .sys rfl
@[simp] theorem clipTick_keeps_lg {s : State} {x1 : Nat × Nat} : (clipTick s x1).lg = s.lg :=
  clipTick_only (Only.refl 100 s) rfl .lg rfl
@[simp] theorem clipTick_keeps_np {s : State} {x1 : Nat × Nat} : (clipTick s x1).np = s.np :=
  clipTick_only (Only.refl 100 s) rfl .np rfl
@[simp] theorem clipTick_keeps_hk {s : State} {x1 : Nat × Nat} : (clipTick s x1).hk = s.hk :=
  clipTick_only (Only.refl 100 s) rfl .hk rfl
@[simp] theorem clipTick_keeps_cl {s : State} {x1 : Nat × Nat} : (clipTick s x1).cl = s.cl :=
  clipTick_only (Only.refl 100 s) rfl .cl rfl
@[simp] theorem clipTick_keeps_ps {s : State} {x1 : Nat × Nat} : (clipTick s x1).ps = s.ps :=
  clipTick_only (Only.refl 100 s) rfl .ps rfl
@[simp] theorem clipTick_keeps_fl {s : State} {x1 : Nat × Nat} : (clipTick s x1).fl = s.fl :=
  clipTick_only (Only.refl 100 s) rfl .fl rfl
@[simp] theorem clipTick_keeps_dv {s : State} {x1 : Nat × Nat} : (clipTick s x1).dv = s.dv :=
  clipTick_only (Only.refl 100 s) rfl .dv rfl
@[simp] theorem clipTick_keeps_mem {s : State} {x1 : Nat × Nat} : (clipTick s x1).mem = s.mem :=
  clipTick_only (Only.refl 100 s) rfl .mem rfl
@[simp] theorem clipTick_keeps_bell {s : State} {x1 : Nat × Nat} : (clipTick s x1).bell = s.bell :=
  clipTick_only (Only.refl 100 s) rfl .bell rfl
@[simp] theorem clipTick_keeps_pair {s : State} {x1 : Nat × Nat} : (clipTick s x1).pair = s.pair :=
  clipTick_only (Only.refl 100 s) rfl .pair rfl
@[simp] theorem clipTick_keeps_wire {s : State} {x1 : Nat × Nat} : (clipTick s x1).wire = s.wire :=
  clipTick_only (Only.refl 100 s) rfl .wire rfl
@[simp] theorem clipTick_keeps_drawn {s : State} {x1 : Nat × Nat} : (clipTick s x1).drawn = s.drawn :=
  clipTick_only (Only.refl 100 s) rfl .drawn rfl
@[simp] theorem clipTick_keeps_pending {s : State} {x1 : Nat × Nat} : (clipTick s x1).pending = s.pending :=
  clipTick_only (Only.refl 100 s) rfl .pending rfl
@[simp] theorem noiseTick_keeps_air {s : State} {x1 : Nat} : (noiseTick s x1).air = s.air :=
  noiseTick_only (Only.refl 260 s) rfl .air rfl
@[simp] theorem noiseTick_keeps_host {s : State} {x1 : Nat} : (noiseTick s x1).host = s.host :=
  noiseTick_only (Only.refl 260 s) rfl .host rfl
@[simp] theorem noiseTick_keeps_log {s : State} {x1 : Nat} : (noiseTick s x1).log = s.log :=
  noiseTick_only (Only.refl 260 s) rfl .log rfl
@[simp] theorem noiseTick_keeps_sys {s : State} {x1 : Nat} : (noiseTick s x1).sys = s.sys :=
  noiseTick_only (Only.refl 260 s) rfl .sys rfl
@[simp] theorem noiseTick_keeps_rf {s : State} {x1 : Nat} : (noiseTick s x1).rf = s.rf :=
  noiseTick_only (Only.refl 260 s) rfl .rf rfl
@[simp] theorem noiseTick_keeps_ce {s : State} {x1 : Nat} : (noiseTick s x1).ce = s.ce :=
  noiseTick_only (Only.refl 260 s) rfl .ce rfl
@[simp] theorem noiseTick_keeps_lg {s : State} {x1 : Nat} : (noiseTick s x1).lg = s.lg :=
  noiseTick_only (Only.refl 260 s) rfl .lg rfl
@[simp] theorem noiseTick_keeps_hk {s : State} {x1 : Nat} : (noiseTick s x1).hk = s.hk :=
  noiseTick_only (Only.refl 260 s) rfl .hk rfl
@[simp] theorem noiseTick_keeps_cl {s : State} {x1 : Nat} : (noiseTick s x1).cl = s.cl :=
  noiseTick_only (Only.refl 260 s) rfl .cl rfl
@[simp] theorem noiseTick_keeps_ps {s : State} {x1 : Nat} : (noiseTick s x1).ps = s.ps :=
  noiseTick_only (Only.refl 260 s) rfl .ps rfl
@[simp] theorem noiseTick_keeps_fl {s : State} {x1 : Nat} : (noiseTick s x1).fl = s.fl :=
  noiseTick_only (Only.refl 260 s) rfl .fl rfl
@[simp] theorem noiseTick_keeps_dv {s : State} {x1 : Nat} : (noiseTick s x1).dv = s.dv :=
  noiseTick_only (Only.refl 260 s) rfl .dv rfl
@[simp] theorem noiseTick_keeps_mem {s : State} {x1 : Nat} : (noiseTick s x1).mem = s.mem :=
  noiseTick_only (Only.refl 260 s) rfl .mem rfl
@[simp] theorem noiseTick_keeps_bell {s : State} {x1 : Nat} : (noiseTick s x1).bell = s.bell :=
  noiseTick_only (Only.refl 260 s) rfl .bell rfl
@[simp] theorem noiseTick_keeps_pair {s : State} {x1 : Nat} : (noiseTick s x1).pair = s.pair :=
  noiseTick_only (Only.refl 260 s) rfl .pair rfl
@[simp] theorem noiseTick_keeps_wire {s : State} {x1 : Nat} : (noiseTick s x1).wire = s.wire :=
  noiseTick_only (Only.refl 260 s) rfl .wire rfl
@[simp] theorem noiseTick_keeps_drawn {s : State} {x1 : Nat} : (noiseTick s x1).drawn = s.drawn :=
  noiseTick_only (Only.refl 260 s) rfl .drawn rfl
@[simp] theorem noiseTick_keeps_pending {s : State} {x1 : Nat} : (noiseTick s x1).pending = s.pending :=
  noiseTick_only (Only.refl 260 s) rfl .pending rfl
@[simp] theorem riseCap_keeps_air {s : State} {x1 : Nat × BandPath} : (riseCap s x1).air = s.air :=
  riseCap_only (Only.refl 384 s) rfl .air rfl
@[simp] theorem riseCap_keeps_host {s : State} {x1 : Nat × BandPath} : (riseCap s x1).host = s.host :=
  riseCap_only (Only.refl 384 s) rfl .host rfl
@[simp] theorem riseCap_keeps_fault {s : State} {x1 : Nat × BandPath} : (riseCap s x1).fault = s.fault :=
  riseCap_only (Only.refl 384 s) rfl .fault rfl
@[simp] theorem riseCap_keeps_log {s : State} {x1 : Nat × BandPath} : (riseCap s x1).log = s.log :=
  riseCap_only (Only.refl 384 s) rfl .log rfl
@[simp] theorem riseCap_keeps_sys {s : State} {x1 : Nat × BandPath} : (riseCap s x1).sys = s.sys :=
  riseCap_only (Only.refl 384 s) rfl .sys rfl
@[simp] theorem riseCap_keeps_rf {s : State} {x1 : Nat × BandPath} : (riseCap s x1).rf = s.rf :=
  riseCap_only (Only.refl 384 s) rfl .rf rfl
@[simp] theorem riseCap_keeps_ce {s : State} {x1 : Nat × BandPath} : (riseCap s x1).ce = s.ce :=
  riseCap_only (Only.refl 384 s) rfl .ce rfl
@[simp] theorem riseCap_keeps_hk {s : State} {x1 : Nat × BandPath} : (riseCap s x1).hk = s.hk :=
  riseCap_only (Only.refl 384 s) rfl .hk rfl
@[simp] theorem riseCap_keeps_cl {s : State} {x1 : Nat × BandPath} : (riseCap s x1).cl = s.cl :=
  riseCap_only (Only.refl 384 s) rfl .cl rfl
@[simp] theorem riseCap_keeps_ps {s : State} {x1 : Nat × BandPath} : (riseCap s x1).ps = s.ps :=
  riseCap_only (Only.refl 384 s) rfl .ps rfl
@[simp] theorem riseCap_keeps_fl {s : State} {x1 : Nat × BandPath} : (riseCap s x1).fl = s.fl :=
  riseCap_only (Only.refl 384 s) rfl .fl rfl
@[simp] theorem riseCap_keeps_dv {s : State} {x1 : Nat × BandPath} : (riseCap s x1).dv = s.dv :=
  riseCap_only (Only.refl 384 s) rfl .dv rfl
@[simp] theorem riseCap_keeps_mem {s : State} {x1 : Nat × BandPath} : (riseCap s x1).mem = s.mem :=
  riseCap_only (Only.refl 384 s) rfl .mem rfl
@[simp] theorem riseCap_keeps_bell {s : State} {x1 : Nat × BandPath} : (riseCap s x1).bell = s.bell :=
  riseCap_only (Only.refl 384 s) rfl .bell rfl
@[simp] theorem riseCap_keeps_pair {s : State} {x1 : Nat × BandPath} : (riseCap s x1).pair = s.pair :=
  riseCap_only (Only.refl 384 s) rfl .pair rfl
@[simp] theorem riseCap_keeps_wire {s : State} {x1 : Nat × BandPath} : (riseCap s x1).wire = s.wire :=
  riseCap_only (Only.refl 384 s) rfl .wire rfl
@[simp] theorem riseCap_keeps_drawn {s : State} {x1 : Nat × BandPath} : (riseCap s x1).drawn = s.drawn :=
  riseCap_only (Only.refl 384 s) rfl .drawn rfl
@[simp] theorem riseCap_keeps_pending {s : State} {x1 : Nat × BandPath} : (riseCap s x1).pending = s.pending :=
  riseCap_only (Only.refl 384 s) rfl .pending rfl
@[simp] theorem finishDeferred_keeps_air {x0 : Ticket} {x1 : Status} {x2 : Nat} {x3 : List Byte} {s : State} : (finishDeferred x0 x1 x2 x3 s).air = s.air :=
  finishDeferred_only (Only.refl 32770 s) rfl .air rfl
@[simp] theorem finishDeferred_keeps_fault {x0 : Ticket} {x1 : Status} {x2 : Nat} {x3 : List Byte} {s : State} : (finishDeferred x0 x1 x2 x3 s).fault = s.fault :=
  finishDeferred_only (Only.refl 32770 s) rfl .fault rfl
@[simp] theorem finishDeferred_keeps_log {x0 : Ticket} {x1 : Status} {x2 : Nat} {x3 : List Byte} {s : State} : (finishDeferred x0 x1 x2 x3 s).log = s.log :=
  finishDeferred_only (Only.refl 32770 s) rfl .log rfl
@[simp] theorem finishDeferred_keeps_sys {x0 : Ticket} {x1 : Status} {x2 : Nat} {x3 : List Byte} {s : State} : (finishDeferred x0 x1 x2 x3 s).sys = s.sys :=
  finishDeferred_only (Only.refl 32770 s) rfl .sys rfl
@[simp] theorem finishDeferred_keeps_rf {x0 : Ticket} {x1 : Status} {x2 : Nat} {x3 : List Byte} {s : State} : (finishDeferred x0 x1 x2 x3 s).rf = s.rf :=
  finishDeferred_only (Only.refl 32770 s) rfl .rf rfl
@[simp] theorem finishDeferred_keeps_ce {x0 : Ticket} {x1 : Status} {x2 : Nat} {x3 : List Byte} {s : State} : (finishDeferred x0 x1 x2 x3 s).ce = s.ce :=
  finishDeferred_only (Only.refl 32770 s) rfl .ce rfl
@[simp] theorem finishDeferred_keeps_lg {x0 : Ticket} {x1 : Status} {x2 : Nat} {x3 : List Byte} {s : State} : (finishDeferred x0 x1 x2 x3 s).lg = s.lg :=
  finishDeferred_only (Only.refl 32770 s) rfl .lg rfl
@[simp] theorem finishDeferred_keeps_np {x0 : Ticket} {x1 : Status} {x2 : Nat} {x3 : List Byte} {s : State} : (finishDeferred x0 x1 x2 x3 s).np = s.np :=
  finishDeferred_only (Only.refl 32770 s) rfl .np rfl
@[simp] theorem finishDeferred_keeps_hk {x0 : Ticket} {x1 : Status} {x2 : Nat} {x3 : List Byte} {s : State} : (finishDeferred x0 x1 x2 x3 s).hk = s.hk :=
  finishDeferred_only (Only.refl 32770 s) rfl .hk rfl
@[simp] theorem finishDeferred_keeps_cl {x0 : Ticket} {x1 : Status} {x2 : Nat} {x3 : List Byte} {s : State} : (finishDeferred x0 x1 x2 x3 s).cl = s.cl :=
  finishDeferred_only (Only.refl 32770 s) rfl .cl rfl
@[simp] theorem finishDeferred_keeps_ps {x0 : Ticket} {x1 : Status} {x2 : Nat} {x3 : List Byte} {s : State} : (finishDeferred x0 x1 x2 x3 s).ps = s.ps :=
  finishDeferred_only (Only.refl 32770 s) rfl .ps rfl
@[simp] theorem finishDeferred_keeps_fl {x0 : Ticket} {x1 : Status} {x2 : Nat} {x3 : List Byte} {s : State} : (finishDeferred x0 x1 x2 x3 s).fl = s.fl :=
  finishDeferred_only (Only.refl 32770 s) rfl .fl rfl
@[simp] theorem finishDeferred_keeps_dv {x0 : Ticket} {x1 : Status} {x2 : Nat} {x3 : List Byte} {s : State} : (finishDeferred x0 x1 x2 x3 s).dv = s.dv :=
  finishDeferred_only (Only.refl 32770 s) rfl .dv rfl
@[simp] theorem finishDeferred_keeps_mem {x0 : Ticket} {x1 : Status} {x2 : Nat} {x3 : List Byte} {s : State} : (finishDeferred x0 x1 x2 x3 s).mem = s.mem :=
  finishDeferred_only (Only.refl 32770 s) rfl .mem rfl
@[simp] theorem finishDeferred_keeps_pair {x0 : Ticket} {x1 : Status} {x2 : Nat} {x3 : List Byte} {s : State} : (finishDeferred x0 x1 x2 x3 s).pair = s.pair :=
  finishDeferred_only (Only.refl 32770 s) rfl .pair rfl
@[simp] theorem finishDeferred_keeps_wire {x0 : Ticket} {x1 : Status} {x2 : Nat} {x3 : List Byte} {s : State} : (finishDeferred x0 x1 x2 x3 s).wire = s.wire :=
  finishDeferred_only (Only.refl 32770 s) rfl .wire rfl
@[simp] theorem finishDeferred_keeps_drawn {x0 : Ticket} {x1 : Status} {x2 : Nat} {x3 : List Byte} {s : State} : (finishDeferred x0 x1 x2 x3 s).drawn = s.drawn :=
  finishDeferred_only (Only.refl 32770 s) rfl .drawn rfl
@[simp] theorem finishDeferred_keeps_pending {x0 : Ticket} {x1 : Status} {x2 : Nat} {x3 : List Byte} {s : State} : (finishDeferred x0 x1 x2 x3 s).pending = s.pending :=
  finishDeferred_only (Only.refl 32770 s) rfl .pending rfl
@[simp] theorem writeResponse_keeps_air {x0 : Nat} {x1 : Req} {x2 : Status} {x3 : Nat} {x4 : List Byte} {s : State} : (writeResponse x0 x1 x2 x3 x4 s).air = s.air :=
  writeResponse_only (Only.refl 2 s) rfl .air rfl
@[simp] theorem writeResponse_keeps_fault {x0 : Nat} {x1 : Req} {x2 : Status} {x3 : Nat} {x4 : List Byte} {s : State} : (writeResponse x0 x1 x2 x3 x4 s).fault = s.fault :=
  writeResponse_only (Only.refl 2 s) rfl .fault rfl
@[simp] theorem writeResponse_keeps_log {x0 : Nat} {x1 : Req} {x2 : Status} {x3 : Nat} {x4 : List Byte} {s : State} : (writeResponse x0 x1 x2 x3 x4 s).log = s.log :=
  writeResponse_only (Only.refl 2 s) rfl .log rfl
@[simp] theorem writeResponse_keeps_sys {x0 : Nat} {x1 : Req} {x2 : Status} {x3 : Nat} {x4 : List Byte} {s : State} : (writeResponse x0 x1 x2 x3 x4 s).sys = s.sys :=
  writeResponse_only (Only.refl 2 s) rfl .sys rfl
@[simp] theorem writeResponse_keeps_rf {x0 : Nat} {x1 : Req} {x2 : Status} {x3 : Nat} {x4 : List Byte} {s : State} : (writeResponse x0 x1 x2 x3 x4 s).rf = s.rf :=
  writeResponse_only (Only.refl 2 s) rfl .rf rfl
@[simp] theorem writeResponse_keeps_ce {x0 : Nat} {x1 : Req} {x2 : Status} {x3 : Nat} {x4 : List Byte} {s : State} : (writeResponse x0 x1 x2 x3 x4 s).ce = s.ce :=
  writeResponse_only (Only.refl 2 s) rfl .ce rfl
@[simp] theorem writeResponse_keeps_lg {x0 : Nat} {x1 : Req} {x2 : Status} {x3 : Nat} {x4 : List Byte} {s : State} : (writeResponse x0 x1 x2 x3 x4 s).lg = s.lg :=
  writeResponse_only (Only.refl 2 s) rfl .lg rfl
@[simp] theorem writeResponse_keeps_np {x0 : Nat} {x1 : Req} {x2 : Status} {x3 : Nat} {x4 : List Byte} {s : State} : (writeResponse x0 x1 x2 x3 x4 s).np = s.np :=
  writeResponse_only (Only.refl 2 s) rfl .np rfl
@[simp] theorem writeResponse_keeps_hk {x0 : Nat} {x1 : Req} {x2 : Status} {x3 : Nat} {x4 : List Byte} {s : State} : (writeResponse x0 x1 x2 x3 x4 s).hk = s.hk :=
  writeResponse_only (Only.refl 2 s) rfl .hk rfl
@[simp] theorem writeResponse_keeps_cl {x0 : Nat} {x1 : Req} {x2 : Status} {x3 : Nat} {x4 : List Byte} {s : State} : (writeResponse x0 x1 x2 x3 x4 s).cl = s.cl :=
  writeResponse_only (Only.refl 2 s) rfl .cl rfl
@[simp] theorem writeResponse_keeps_ps {x0 : Nat} {x1 : Req} {x2 : Status} {x3 : Nat} {x4 : List Byte} {s : State} : (writeResponse x0 x1 x2 x3 x4 s).ps = s.ps :=
  writeResponse_only (Only.refl 2 s) rfl .ps rfl
@[simp] theorem writeResponse_keeps_fl {x0 : Nat} {x1 : Req} {x2 : Status} {x3 : Nat} {x4 : List Byte} {s : State} : (writeResponse x0 x1 x2 x3 x4 s).fl = s.fl :=
  writeResponse_only (Only.refl 2 s) rfl .fl rfl
@[simp] theorem writeResponse_keeps_dv {x0 : Nat} {x1 : Req} {x2 : Status} {x3 : Nat} {x4 : List Byte} {s : State} : (writeResponse x0 x1 x2 x3 x4 s).dv = s.dv :=
  writeResponse_only (Only.refl 2 s) rfl .dv rfl
@[simp] theorem writeResponse_keeps_mem {x0 : Nat} {x1 : Req} {x2 : Status} {x3 : Nat} {x4 : List Byte} {s : State} : (writeResponse x0 x1 x2 x3 x4 s).mem = s.mem :=
  writeResponse_only (Only.refl 2 s) rfl .mem rfl
@[simp] theorem writeResponse_keeps_bell {x0 : Nat} {x1 : Req} {x2 : Status} {x3 : Nat} {x4 : List Byte} {s : State} : (writeResponse x0 x1 x2 x3 x4 s).bell = s.bell :=
  writeResponse_only (Only.refl 2 s) rfl .bell rfl
@[simp] theorem writeResponse_keeps_pair {x0 : Nat} {x1 : Req} {x2 : Status} {x3 : Nat} {x4 : List Byte} {s : State} : (writeResponse x0 x1 x2 x3 x4 s).pair = s.pair :=
  writeResponse_only (Only.refl 2 s) rfl .pair rfl
@[simp] theorem writeResponse_keeps_wire {x0 : Nat} {x1 : Req} {x2 : Status} {x3 : Nat} {x4 : List Byte} {s : State} : (writeResponse x0 x1 x2 x3 x4 s).wire = s.wire :=
  writeResponse_only (Only.refl 2 s) rfl .wire rfl
@[simp] theorem writeResponse_keeps_drawn {x0 : Nat} {x1 : Req} {x2 : Status} {x3 : Nat} {x4 : List Byte} {s : State} : (writeResponse x0 x1 x2 x3 x4 s).drawn = s.drawn :=
  writeResponse_only (Only.refl 2 s) rfl .drawn rfl
@[simp] theorem writeResponse_keeps_pending {x0 : Nat} {x1 : Req} {x2 : Status} {x3 : Nat} {x4 : List Byte} {s : State} : (writeResponse x0 x1 x2 x3 x4 s).pending = s.pending :=
  writeResponse_only (Only.refl 2 s) rfl .pending rfl
@[simp] theorem deliver_keeps_air {x0 : Req} {x1 : Status} {x2 : Nat} {x3 : List Byte} {s : State} : (deliver x0 x1 x2 x3 s).air = s.air :=
  deliver_only (Only.refl 2 s) rfl .air rfl
@[simp] theorem deliver_keeps_fault {x0 : Req} {x1 : Status} {x2 : Nat} {x3 : List Byte} {s : State} : (deliver x0 x1 x2 x3 s).fault = s.fault :=
  deliver_only (Only.refl 2 s) rfl .fault rfl
@[simp] theorem deliver_keeps_log {x0 : Req} {x1 : Status} {x2 : Nat} {x3 : List Byte} {s : State} : (deliver x0 x1 x2 x3 s).log = s.log :=
  deliver_only (Only.refl 2 s) rfl .log rfl
@[simp] theorem deliver_keeps_sys {x0 : Req} {x1 : Status} {x2 : Nat} {x3 : List Byte} {s : State} : (deliver x0 x1 x2 x3 s).sys = s.sys :=
  deliver_only (Only.refl 2 s) rfl .sys rfl
@[simp] theorem deliver_keeps_rf {x0 : Req} {x1 : Status} {x2 : Nat} {x3 : List Byte} {s : State} : (deliver x0 x1 x2 x3 s).rf = s.rf :=
  deliver_only (Only.refl 2 s) rfl .rf rfl
@[simp] theorem deliver_keeps_ce {x0 : Req} {x1 : Status} {x2 : Nat} {x3 : List Byte} {s : State} : (deliver x0 x1 x2 x3 s).ce = s.ce :=
  deliver_only (Only.refl 2 s) rfl .ce rfl
@[simp] theorem deliver_keeps_lg {x0 : Req} {x1 : Status} {x2 : Nat} {x3 : List Byte} {s : State} : (deliver x0 x1 x2 x3 s).lg = s.lg :=
  deliver_only (Only.refl 2 s) rfl .lg rfl
@[simp] theorem deliver_keeps_np {x0 : Req} {x1 : Status} {x2 : Nat} {x3 : List Byte} {s : State} : (deliver x0 x1 x2 x3 s).np = s.np :=
  deliver_only (Only.refl 2 s) rfl .np rfl
@[simp] theorem deliver_keeps_hk {x0 : Req} {x1 : Status} {x2 : Nat} {x3 : List Byte} {s : State} : (deliver x0 x1 x2 x3 s).hk = s.hk :=
  deliver_only (Only.refl 2 s) rfl .hk rfl
@[simp] theorem deliver_keeps_cl {x0 : Req} {x1 : Status} {x2 : Nat} {x3 : List Byte} {s : State} : (deliver x0 x1 x2 x3 s).cl = s.cl :=
  deliver_only (Only.refl 2 s) rfl .cl rfl
@[simp] theorem deliver_keeps_ps {x0 : Req} {x1 : Status} {x2 : Nat} {x3 : List Byte} {s : State} : (deliver x0 x1 x2 x3 s).ps = s.ps :=
  deliver_only (Only.refl 2 s) rfl .ps rfl
@[simp] theorem deliver_keeps_fl {x0 : Req} {x1 : Status} {x2 : Nat} {x3 : List Byte} {s : State} : (deliver x0 x1 x2 x3 s).fl = s.fl :=
  deliver_only (Only.refl 2 s) rfl .fl rfl
@[simp] theorem deliver_keeps_dv {x0 : Req} {x1 : Status} {x2 : Nat} {x3 : List Byte} {s : State} : (deliver x0 x1 x2 x3 s).dv = s.dv :=
  deliver_only (Only.refl 2 s) rfl .dv rfl
@[simp] theorem deliver_keeps_mem {x0 : Req} {x1 : Status} {x2 : Nat} {x3 : List Byte} {s : State} : (deliver x0 x1 x2 x3 s).mem = s.mem :=
  deliver_only (Only.refl 2 s) rfl .mem rfl
@[simp] theorem deliver_keeps_bell {x0 : Req} {x1 : Status} {x2 : Nat} {x3 : List Byte} {s : State} : (deliver x0 x1 x2 x3 s).bell = s.bell :=
  deliver_only (Only.refl 2 s) rfl .bell rfl
@[simp] theorem deliver_keeps_pair {x0 : Req} {x1 : Status} {x2 : Nat} {x3 : List Byte} {s : State} : (deliver x0 x1 x2 x3 s).pair = s.pair :=
  deliver_only (Only.refl 2 s) rfl .pair rfl
@[simp] theorem deliver_keeps_wire {x0 : Req} {x1 : Status} {x2 : Nat} {x3 : List Byte} {s : State} : (deliver x0 x1 x2 x3 s).wire = s.wire :=
  deliver_only (Only.refl 2 s) rfl .wire rfl
@[simp] theorem deliver_keeps_drawn {x0 : Req} {x1 : Status} {x2 : Nat} {x3 : List Byte} {s : State} : (deliver x0 x1 x2 x3 s).drawn = s.drawn :=
  deliver_only (Only.refl 2 s) rfl .drawn rfl
@[simp] theorem deliver_keeps_pending {x0 : Req} {x1 : Status} {x2 : Nat} {x3 : List Byte} {s : State} : (deliver x0 x1 x2 x3 s).pending = s.pending :=
  deliver_only (Only.refl 2 s) rfl .pending rfl
@[simp] theorem mirrorCommand_keeps_air {x0 : Req} {s : State} : (mirrorCommand x0 s).air = s.air :=
  mirrorCommand_only (Only.refl 65536 s) rfl .air rfl
@[simp] theorem mirrorCommand_keeps_host {x0 : Req} {s : State} : (mirrorCommand x0 s).host = s.host :=
  mirrorCommand_only (Only.refl 65536 s) rfl .host rfl
@[simp] theorem mirrorCommand_keeps_fault {x0 : Req} {s : State} : (mirrorCommand x0 s).fault = s.fault :=
  mirrorCommand_only (Only.refl 65536 s) rfl .fault rfl
@[simp] theorem mirrorCommand_keeps_log {x0 : Req} {s : State} : (mirrorCommand x0 s).log = s.log :=
  mirrorCommand_only (Only.refl 65536 s) rfl .log rfl
@[simp] theorem mirrorCommand_keeps_sys {x0 : Req} {s : State} : (mirrorCommand x0 s).sys = s.sys :=
  mirrorCommand_only (Only.refl 65536 s) rfl .sys rfl
@[simp] theorem mirrorCommand_keeps_rf {x0 : Req} {s : State} : (mirrorCommand x0 s).rf = s.rf :=
  mirrorCommand_only (Only.refl 65536 s) rfl .rf rfl
@[simp] theorem mirrorCommand_keeps_ce {x0 : Req} {s : State} : (mirrorCommand x0 s).ce = s.ce :=
  mirrorCommand_only (Only.refl 65536 s) rfl .ce rfl
@[simp] theorem mirrorCommand_keeps_lg {x0 : Req} {s : State} : (mirrorCommand x0 s).lg = s.lg :=
  mirrorCommand_only (Only.refl 65536 s) rfl .lg rfl
@[simp] theorem mirrorCommand_keeps_np {x0 : Req} {s : State} : (mirrorCommand x0 s).np = s.np :=
  mirrorCommand_only (Only.refl 65536 s) rfl .np rfl
@[simp] theorem mirrorCommand_keeps_hk {x0 : Req} {s : State} : (mirrorCommand x0 s).hk = s.hk :=
  mirrorCommand_only (Only.refl 65536 s) rfl .hk rfl
@[simp] theorem mirrorCommand_keeps_cl {x0 : Req} {s : State} : (mirrorCommand x0 s).cl = s.cl :=
  mirrorCommand_only (Only.refl 65536 s) rfl .cl rfl
@[simp] theorem mirrorCommand_keeps_ps {x0 : Req} {s : State} : (mirrorCommand x0 s).ps = s.ps :=
  mirrorCommand_only (Only.refl 65536 s) rfl .ps rfl
@[simp] theorem mirrorCommand_keeps_fl {x0 : Req} {s : State} : (mirrorCommand x0 s).fl = s.fl :=
  mirrorCommand_only (Only.refl 65536 s) rfl .fl rfl
@[simp] theorem mirrorCommand_keeps_dv {x0 : Req} {s : State} : (mirrorCommand x0 s).dv = s.dv :=
  mirrorCommand_only (Only.refl 65536 s) rfl .dv rfl
@[simp] theorem mirrorCommand_keeps_mem {x0 : Req} {s : State} : (mirrorCommand x0 s).mem = s.mem :=
  mirrorCommand_only (Only.refl 65536 s) rfl .mem rfl
@[simp] theorem mirrorCommand_keeps_bell {x0 : Req} {s : State} : (mirrorCommand x0 s).bell = s.bell :=
  mirrorCommand_only (Only.refl 65536 s) rfl .bell rfl
@[simp] theorem mirrorCommand_keeps_wire {x0 : Req} {s : State} : (mirrorCommand x0 s).wire = s.wire :=
  mirrorCommand_only (Only.refl 65536 s) rfl .wire rfl
@[simp] theorem mirrorCommand_keeps_drawn {x0 : Req} {s : State} : (mirrorCommand x0 s).drawn = s.drawn :=
  mirrorCommand_only (Only.refl 65536 s) rfl .drawn rfl
@[simp] theorem mirrorCommand_keeps_pending {x0 : Req} {s : State} : (mirrorCommand x0 s).pending = s.pending :=
  mirrorCommand_only (Only.refl 65536 s) rfl .pending rfl
@[simp] theorem mirrorItem_keeps_air {x0 : PairItem} {s : State} : (mirrorItem x0 s).air = s.air :=
  mirrorItem_only (Only.refl 65536 s) rfl .air rfl
@[simp] theorem mirrorItem_keeps_host {x0 : PairItem} {s : State} : (mirrorItem x0 s).host = s.host :=
  mirrorItem_only (Only.refl 65536 s) rfl .host rfl
@[simp] theorem mirrorItem_keeps_fault {x0 : PairItem} {s : State} : (mirrorItem x0 s).fault = s.fault :=
  mirrorItem_only (Only.refl 65536 s) rfl .fault rfl
@[simp] theorem mirrorItem_keeps_log {x0 : PairItem} {s : State} : (mirrorItem x0 s).log = s.log :=
  mirrorItem_only (Only.refl 65536 s) rfl .log rfl
@[simp] theorem mirrorItem_keeps_sys {x0 : PairItem} {s : State} : (mirrorItem x0 s).sys = s.sys :=
  mirrorItem_only (Only.refl 65536 s) rfl .sys rfl
@[simp] theorem mirrorItem_keeps_rf {x0 : PairItem} {s : State} : (mirrorItem x0 s).rf = s.rf :=
  mirrorItem_only (Only.refl 65536 s) rfl .rf rfl
@[simp] theorem mirrorItem_keeps_ce {x0 : PairItem} {s : State} : (mirrorItem x0 s).ce = s.ce :=
  mirrorItem_only (Only.refl 65536 s) rfl .ce rfl
@[simp] theorem mirrorItem_keeps_lg {x0 : PairItem} {s : State} : (mirrorItem x0 s).lg = s.lg :=
  mirrorItem_only (Only.refl 65536 s) rfl .lg rfl
@[simp] theorem mirrorItem_keeps_np {x0 : PairItem} {s : State} : (mirrorItem x0 s).np = s.np :=
  mirrorItem_only (Only.refl 65536 s) rfl .np rfl
@[simp] theorem mirrorItem_keeps_hk {x0 : PairItem} {s : State} : (mirrorItem x0 s).hk = s.hk :=
  mirrorItem_only (Only.refl 65536 s) rfl .hk rfl
@[simp] theorem mirrorItem_keeps_cl {x0 : PairItem} {s : State} : (mirrorItem x0 s).cl = s.cl :=
  mirrorItem_only (Only.refl 65536 s) rfl .cl rfl
@[simp] theorem mirrorItem_keeps_ps {x0 : PairItem} {s : State} : (mirrorItem x0 s).ps = s.ps :=
  mirrorItem_only (Only.refl 65536 s) rfl .ps rfl
@[simp] theorem mirrorItem_keeps_fl {x0 : PairItem} {s : State} : (mirrorItem x0 s).fl = s.fl :=
  mirrorItem_only (Only.refl 65536 s) rfl .fl rfl
@[simp] theorem mirrorItem_keeps_dv {x0 : PairItem} {s : State} : (mirrorItem x0 s).dv = s.dv :=
  mirrorItem_only (Only.refl 65536 s) rfl .dv rfl
@[simp] theorem mirrorItem_keeps_mem {x0 : PairItem} {s : State} : (mirrorItem x0 s).mem = s.mem :=
  mirrorItem_only (Only.refl 65536 s) rfl .mem rfl
@[simp] theorem mirrorItem_keeps_bell {x0 : PairItem} {s : State} : (mirrorItem x0 s).bell = s.bell :=
  mirrorItem_only (Only.refl 65536 s) rfl .bell rfl
@[simp] theorem mirrorItem_keeps_wire {x0 : PairItem} {s : State} : (mirrorItem x0 s).wire = s.wire :=
  mirrorItem_only (Only.refl 65536 s) rfl .wire rfl
@[simp] theorem mirrorItem_keeps_drawn {x0 : PairItem} {s : State} : (mirrorItem x0 s).drawn = s.drawn :=
  mirrorItem_only (Only.refl 65536 s) rfl .drawn rfl
@[simp] theorem mirrorItem_keeps_pending {x0 : PairItem} {s : State} : (mirrorItem x0 s).pending = s.pending :=
  mirrorItem_only (Only.refl 65536 s) rfl .pending rfl
@[simp] theorem noteStart_keeps_air {x0 : Req} {s : State} : (noteStart x0 s).air = s.air :=
  noteStart_only (Only.refl 2 s) rfl .air rfl
@[simp] theorem noteStart_keeps_fault {x0 : Req} {s : State} : (noteStart x0 s).fault = s.fault :=
  noteStart_only (Only.refl 2 s) rfl .fault rfl
@[simp] theorem noteStart_keeps_log {x0 : Req} {s : State} : (noteStart x0 s).log = s.log :=
  noteStart_only (Only.refl 2 s) rfl .log rfl
@[simp] theorem noteStart_keeps_sys {x0 : Req} {s : State} : (noteStart x0 s).sys = s.sys :=
  noteStart_only (Only.refl 2 s) rfl .sys rfl
@[simp] theorem noteStart_keeps_rf {x0 : Req} {s : State} : (noteStart x0 s).rf = s.rf :=
  noteStart_only (Only.refl 2 s) rfl .rf rfl
@[simp] theorem noteStart_keeps_ce {x0 : Req} {s : State} : (noteStart x0 s).ce = s.ce :=
  noteStart_only (Only.refl 2 s) rfl .ce rfl
@[simp] theorem noteStart_keeps_lg {x0 : Req} {s : State} : (noteStart x0 s).lg = s.lg :=
  noteStart_only (Only.refl 2 s) rfl .lg rfl
@[simp] theorem noteStart_keeps_np {x0 : Req} {s : State} : (noteStart x0 s).np = s.np :=
  noteStart_only (Only.refl 2 s) rfl .np rfl
@[simp] theorem noteStart_keeps_hk {x0 : Req} {s : State} : (noteStart x0 s).hk = s.hk :=
  noteStart_only (Only.refl 2 s) rfl .hk rfl
@[simp] theorem noteStart_keeps_cl {x0 : Req} {s : State} : (noteStart x0 s).cl = s.cl :=
  noteStart_only (Only.refl 2 s) rfl .cl rfl
@[simp] theorem noteStart_keeps_ps {x0 : Req} {s : State} : (noteStart x0 s).ps = s.ps :=
  noteStart_only (Only.refl 2 s) rfl .ps rfl
@[simp] theorem noteStart_keeps_fl {x0 : Req} {s : State} : (noteStart x0 s).fl = s.fl :=
  noteStart_only (Only.refl 2 s) rfl .fl rfl
@[simp] theorem noteStart_keeps_dv {x0 : Req} {s : State} : (noteStart x0 s).dv = s.dv :=
  noteStart_only (Only.refl 2 s) rfl .dv rfl
@[simp] theorem noteStart_keeps_mem {x0 : Req} {s : State} : (noteStart x0 s).mem = s.mem :=
  noteStart_only (Only.refl 2 s) rfl .mem rfl
@[simp] theorem noteStart_keeps_bell {x0 : Req} {s : State} : (noteStart x0 s).bell = s.bell :=
  noteStart_only (Only.refl 2 s) rfl .bell rfl
@[simp] theorem noteStart_keeps_pair {x0 : Req} {s : State} : (noteStart x0 s).pair = s.pair :=
  noteStart_only (Only.refl 2 s) rfl .pair rfl
@[simp] theorem noteStart_keeps_wire {x0 : Req} {s : State} : (noteStart x0 s).wire = s.wire :=
  noteStart_only (Only.refl 2 s) rfl .wire rfl
@[simp] theorem noteStart_keeps_drawn {x0 : Req} {s : State} : (noteStart x0 s).drawn = s.drawn :=
  noteStart_only (Only.refl 2 s) rfl .drawn rfl
@[simp] theorem noteStart_keeps_pending {x0 : Req} {s : State} : (noteStart x0 s).pending = s.pending :=
  noteStart_only (Only.refl 2 s) rfl .pending rfl
@[simp] theorem noteReject_keeps_air {x0 : Req} {s : State} : (noteReject x0 s).air = s.air :=
  noteReject_only (Only.refl 2 s) rfl .air rfl
@[simp] theorem noteReject_keeps_fault {x0 : Req} {s : State} : (noteReject x0 s).fault = s.fault :=
  noteReject_only (Only.refl 2 s) rfl .fault rfl
@[simp] theorem noteReject_keeps_log {x0 : Req} {s : State} : (noteReject x0 s).log = s.log :=
  noteReject_only (Only.refl 2 s) rfl .log rfl
@[simp] theorem noteReject_keeps_sys {x0 : Req} {s : State} : (noteReject x0 s).sys = s.sys :=
  noteReject_only (Only.refl 2 s) rfl .sys rfl
@[simp] theorem noteReject_keeps_rf {x0 : Req} {s : State} : (noteReject x0 s).rf = s.rf :=
  noteReject_only (Only.refl 2 s) rfl .rf rfl
@[simp] theorem noteReject_keeps_ce {x0 : Req} {s : State} : (noteReject x0 s).ce = s.ce :=
  noteReject_only (Only.refl 2 s) rfl .ce rfl
@[simp] theorem noteReject_keeps_lg {x0 : Req} {s : State} : (noteReject x0 s).lg = s.lg :=
  noteReject_only (Only.refl 2 s) rfl .lg rfl
@[simp] theorem noteReject_keeps_np {x0 : Req} {s : State} : (noteReject x0 s).np = s.np :=
  noteReject_only (Only.refl 2 s) rfl .np rfl
@[simp] theorem noteReject_keeps_hk {x0 : Req} {s : State} : (noteReject x0 s).hk = s.hk :=
  noteReject_only (Only.refl 2 s) rfl .hk rfl
@[simp] theorem noteReject_keeps_cl {x0 : Req} {s : State} : (noteReject x0 s).cl = s.cl :=
  noteReject_only (Only.refl 2 s) rfl .cl rfl
@[simp] theorem noteReject_keeps_ps {x0 : Req} {s : State} : (noteReject x0 s).ps = s.ps :=
  noteReject_only (Only.refl 2 s) rfl .ps rfl
@[simp] theorem noteReject_keeps_fl {x0 : Req} {s : State} : (noteReject x0 s).fl = s.fl :=
  noteReject_only (Only.refl 2 s) rfl .fl rfl
@[simp] theorem noteReject_keeps_dv {x0 : Req} {s : State} : (noteReject x0 s).dv = s.dv :=
  noteReject_only (Only.refl 2 s) rfl .dv rfl
@[simp] theorem noteReject_keeps_mem {x0 : Req} {s : State} : (noteReject x0 s).mem = s.mem :=
  noteReject_only (Only.refl 2 s) rfl .mem rfl
@[simp] theorem noteReject_keeps_bell {x0 : Req} {s : State} : (noteReject x0 s).bell = s.bell :=
  noteReject_only (Only.refl 2 s) rfl .bell rfl
@[simp] theorem noteReject_keeps_pair {x0 : Req} {s : State} : (noteReject x0 s).pair = s.pair :=
  noteReject_only (Only.refl 2 s) rfl .pair rfl
@[simp] theorem noteReject_keeps_wire {x0 : Req} {s : State} : (noteReject x0 s).wire = s.wire :=
  noteReject_only (Only.refl 2 s) rfl .wire rfl
@[simp] theorem noteReject_keeps_drawn {x0 : Req} {s : State} : (noteReject x0 s).drawn = s.drawn :=
  noteReject_only (Only.refl 2 s) rfl .drawn rfl
@[simp] theorem noteReject_keeps_pending {x0 : Req} {s : State} : (noteReject x0 s).pending = s.pending :=
  noteReject_only (Only.refl 2 s) rfl .pending rfl
@[simp] theorem capture_keeps_air {x0 : Nat} {x1 : HostRequest} {s : State} : (capture x0 x1 s).air = s.air :=
  capture_only (Only.refl 2 s) rfl .air rfl
@[simp] theorem capture_keeps_fault {x0 : Nat} {x1 : HostRequest} {s : State} : (capture x0 x1 s).fault = s.fault :=
  capture_only (Only.refl 2 s) rfl .fault rfl
@[simp] theorem capture_keeps_log {x0 : Nat} {x1 : HostRequest} {s : State} : (capture x0 x1 s).log = s.log :=
  capture_only (Only.refl 2 s) rfl .log rfl
@[simp] theorem capture_keeps_sys {x0 : Nat} {x1 : HostRequest} {s : State} : (capture x0 x1 s).sys = s.sys :=
  capture_only (Only.refl 2 s) rfl .sys rfl
@[simp] theorem capture_keeps_rf {x0 : Nat} {x1 : HostRequest} {s : State} : (capture x0 x1 s).rf = s.rf :=
  capture_only (Only.refl 2 s) rfl .rf rfl
@[simp] theorem capture_keeps_ce {x0 : Nat} {x1 : HostRequest} {s : State} : (capture x0 x1 s).ce = s.ce :=
  capture_only (Only.refl 2 s) rfl .ce rfl
@[simp] theorem capture_keeps_lg {x0 : Nat} {x1 : HostRequest} {s : State} : (capture x0 x1 s).lg = s.lg :=
  capture_only (Only.refl 2 s) rfl .lg rfl
@[simp] theorem capture_keeps_np {x0 : Nat} {x1 : HostRequest} {s : State} : (capture x0 x1 s).np = s.np :=
  capture_only (Only.refl 2 s) rfl .np rfl
@[simp] theorem capture_keeps_hk {x0 : Nat} {x1 : HostRequest} {s : State} : (capture x0 x1 s).hk = s.hk :=
  capture_only (Only.refl 2 s) rfl .hk rfl
@[simp] theorem capture_keeps_cl {x0 : Nat} {x1 : HostRequest} {s : State} : (capture x0 x1 s).cl = s.cl :=
  capture_only (Only.refl 2 s) rfl .cl rfl
@[simp] theorem capture_keeps_ps {x0 : Nat} {x1 : HostRequest} {s : State} : (capture x0 x1 s).ps = s.ps :=
  capture_only (Only.refl 2 s) rfl .ps rfl
@[simp] theorem capture_keeps_fl {x0 : Nat} {x1 : HostRequest} {s : State} : (capture x0 x1 s).fl = s.fl :=
  capture_only (Only.refl 2 s) rfl .fl rfl
@[simp] theorem capture_keeps_dv {x0 : Nat} {x1 : HostRequest} {s : State} : (capture x0 x1 s).dv = s.dv :=
  capture_only (Only.refl 2 s) rfl .dv rfl
@[simp] theorem capture_keeps_mem {x0 : Nat} {x1 : HostRequest} {s : State} : (capture x0 x1 s).mem = s.mem :=
  capture_only (Only.refl 2 s) rfl .mem rfl
@[simp] theorem capture_keeps_bell {x0 : Nat} {x1 : HostRequest} {s : State} : (capture x0 x1 s).bell = s.bell :=
  capture_only (Only.refl 2 s) rfl .bell rfl
@[simp] theorem capture_keeps_pair {x0 : Nat} {x1 : HostRequest} {s : State} : (capture x0 x1 s).pair = s.pair :=
  capture_only (Only.refl 2 s) rfl .pair rfl
@[simp] theorem capture_keeps_wire {x0 : Nat} {x1 : HostRequest} {s : State} : (capture x0 x1 s).wire = s.wire :=
  capture_only (Only.refl 2 s) rfl .wire rfl
@[simp] theorem capture_keeps_drawn {x0 : Nat} {x1 : HostRequest} {s : State} : (capture x0 x1 s).drawn = s.drawn :=
  capture_only (Only.refl 2 s) rfl .drawn rfl
@[simp] theorem capture_keeps_pending {x0 : Nat} {x1 : HostRequest} {s : State} : (capture x0 x1 s).pending = s.pending :=
  capture_only (Only.refl 2 s) rfl .pending rfl
@[simp] theorem unregister_keeps_air {x0 : Nat} {s : State} : (unregister x0 s).air = s.air :=
  unregister_only (Only.refl 2 s) rfl .air rfl
@[simp] theorem unregister_keeps_fault {x0 : Nat} {s : State} : (unregister x0 s).fault = s.fault :=
  unregister_only (Only.refl 2 s) rfl .fault rfl
@[simp] theorem unregister_keeps_log {x0 : Nat} {s : State} : (unregister x0 s).log = s.log :=
  unregister_only (Only.refl 2 s) rfl .log rfl
@[simp] theorem unregister_keeps_sys {x0 : Nat} {s : State} : (unregister x0 s).sys = s.sys :=
  unregister_only (Only.refl 2 s) rfl .sys rfl
@[simp] theorem unregister_keeps_rf {x0 : Nat} {s : State} : (unregister x0 s).rf = s.rf :=
  unregister_only (Only.refl 2 s) rfl .rf rfl
@[simp] theorem unregister_keeps_ce {x0 : Nat} {s : State} : (unregister x0 s).ce = s.ce :=
  unregister_only (Only.refl 2 s) rfl .ce rfl
@[simp] theorem unregister_keeps_lg {x0 : Nat} {s : State} : (unregister x0 s).lg = s.lg :=
  unregister_only (Only.refl 2 s) rfl .lg rfl
@[simp] theorem unregister_keeps_np {x0 : Nat} {s : State} : (unregister x0 s).np = s.np :=
  unregister_only (Only.refl 2 s) rfl .np rfl
@[simp] theorem unregister_keeps_hk {x0 : Nat} {s : State} : (unregister x0 s).hk = s.hk :=
  unregister_only (Only.refl 2 s) rfl .hk rfl
@[simp] theorem unregister_keeps_cl {x0 : Nat} {s : State} : (unregister x0 s).cl = s.cl :=
  unregister_only (Only.refl 2 s) rfl .cl rfl
@[simp] theorem unregister_keeps_ps {x0 : Nat} {s : State} : (unregister x0 s).ps = s.ps :=
  unregister_only (Only.refl 2 s) rfl .ps rfl
@[simp] theorem unregister_keeps_fl {x0 : Nat} {s : State} : (unregister x0 s).fl = s.fl :=
  unregister_only (Only.refl 2 s) rfl .fl rfl
@[simp] theorem unregister_keeps_dv {x0 : Nat} {s : State} : (unregister x0 s).dv = s.dv :=
  unregister_only (Only.refl 2 s) rfl .dv rfl
@[simp] theorem unregister_keeps_mem {x0 : Nat} {s : State} : (unregister x0 s).mem = s.mem :=
  unregister_only (Only.refl 2 s) rfl .mem rfl
@[simp] theorem unregister_keeps_bell {x0 : Nat} {s : State} : (unregister x0 s).bell = s.bell :=
  unregister_only (Only.refl 2 s) rfl .bell rfl
@[simp] theorem unregister_keeps_pair {x0 : Nat} {s : State} : (unregister x0 s).pair = s.pair :=
  unregister_only (Only.refl 2 s) rfl .pair rfl
@[simp] theorem unregister_keeps_wire {x0 : Nat} {s : State} : (unregister x0 s).wire = s.wire :=
  unregister_only (Only.refl 2 s) rfl .wire rfl
@[simp] theorem unregister_keeps_drawn {x0 : Nat} {s : State} : (unregister x0 s).drawn = s.drawn :=
  unregister_only (Only.refl 2 s) rfl .drawn rfl
@[simp] theorem unregister_keeps_pending {x0 : Nat} {s : State} : (unregister x0 s).pending = s.pending :=
  unregister_only (Only.refl 2 s) rfl .pending rfl
@[simp] theorem ignoreDoorbell_keeps_air {x0 : Nat} {s : State} : (ignoreDoorbell x0 s).air = s.air :=
  ignoreDoorbell_only (Only.refl 2 s) rfl .air rfl
@[simp] theorem ignoreDoorbell_keeps_fault {x0 : Nat} {s : State} : (ignoreDoorbell x0 s).fault = s.fault :=
  ignoreDoorbell_only (Only.refl 2 s) rfl .fault rfl
@[simp] theorem ignoreDoorbell_keeps_log {x0 : Nat} {s : State} : (ignoreDoorbell x0 s).log = s.log :=
  ignoreDoorbell_only (Only.refl 2 s) rfl .log rfl
@[simp] theorem ignoreDoorbell_keeps_sys {x0 : Nat} {s : State} : (ignoreDoorbell x0 s).sys = s.sys :=
  ignoreDoorbell_only (Only.refl 2 s) rfl .sys rfl
@[simp] theorem ignoreDoorbell_keeps_rf {x0 : Nat} {s : State} : (ignoreDoorbell x0 s).rf = s.rf :=
  ignoreDoorbell_only (Only.refl 2 s) rfl .rf rfl
@[simp] theorem ignoreDoorbell_keeps_ce {x0 : Nat} {s : State} : (ignoreDoorbell x0 s).ce = s.ce :=
  ignoreDoorbell_only (Only.refl 2 s) rfl .ce rfl
@[simp] theorem ignoreDoorbell_keeps_lg {x0 : Nat} {s : State} : (ignoreDoorbell x0 s).lg = s.lg :=
  ignoreDoorbell_only (Only.refl 2 s) rfl .lg rfl
@[simp] theorem ignoreDoorbell_keeps_np {x0 : Nat} {s : State} : (ignoreDoorbell x0 s).np = s.np :=
  ignoreDoorbell_only (Only.refl 2 s) rfl .np rfl
@[simp] theorem ignoreDoorbell_keeps_hk {x0 : Nat} {s : State} : (ignoreDoorbell x0 s).hk = s.hk :=
  ignoreDoorbell_only (Only.refl 2 s) rfl .hk rfl
@[simp] theorem ignoreDoorbell_keeps_cl {x0 : Nat} {s : State} : (ignoreDoorbell x0 s).cl = s.cl :=
  ignoreDoorbell_only (Only.refl 2 s) rfl .cl rfl
@[simp] theorem ignoreDoorbell_keeps_ps {x0 : Nat} {s : State} : (ignoreDoorbell x0 s).ps = s.ps :=
  ignoreDoorbell_only (Only.refl 2 s) rfl .ps rfl
@[simp] theorem ignoreDoorbell_keeps_fl {x0 : Nat} {s : State} : (ignoreDoorbell x0 s).fl = s.fl :=
  ignoreDoorbell_only (Only.refl 2 s) rfl .fl rfl
@[simp] theorem ignoreDoorbell_keeps_dv {x0 : Nat} {s : State} : (ignoreDoorbell x0 s).dv = s.dv :=
  ignoreDoorbell_only (Only.refl 2 s) rfl .dv rfl
@[simp] theorem ignoreDoorbell_keeps_mem {x0 : Nat} {s : State} : (ignoreDoorbell x0 s).mem = s.mem :=
  ignoreDoorbell_only (Only.refl 2 s) rfl .mem rfl
@[simp] theorem ignoreDoorbell_keeps_bell {x0 : Nat} {s : State} : (ignoreDoorbell x0 s).bell = s.bell :=
  ignoreDoorbell_only (Only.refl 2 s) rfl .bell rfl
@[simp] theorem ignoreDoorbell_keeps_pair {x0 : Nat} {s : State} : (ignoreDoorbell x0 s).pair = s.pair :=
  ignoreDoorbell_only (Only.refl 2 s) rfl .pair rfl
@[simp] theorem ignoreDoorbell_keeps_wire {x0 : Nat} {s : State} : (ignoreDoorbell x0 s).wire = s.wire :=
  ignoreDoorbell_only (Only.refl 2 s) rfl .wire rfl
@[simp] theorem ignoreDoorbell_keeps_drawn {x0 : Nat} {s : State} : (ignoreDoorbell x0 s).drawn = s.drawn :=
  ignoreDoorbell_only (Only.refl 2 s) rfl .drawn rfl
@[simp] theorem ignoreDoorbell_keeps_pending {x0 : Nat} {s : State} : (ignoreDoorbell x0 s).pending = s.pending :=
  ignoreDoorbell_only (Only.refl 2 s) rfl .pending rfl

end Sys2Proof.Machine
end

