-- ==== Sys2Proof/WellFormed.lean ====
section
/-! DEFINITION. Which commands and events the part's surroundings can bring: a request fits its mailbox, an index names a unit
that exists. A step is defined on every command; statements that speak of one unit assume this of it. -/

namespace Sys2Proof

/-- Numbers of units: lanes, ports (R260), TDD patterns (R52), member IDs (R273), flow IDs (R262), band paths of one direction
(R82), control slots (R178), capture slots (R320), transmit and receive chains, comparators (R218), cassettes, measured channels
(R237), observation receivers, mirror links (R469). -/
abbrev laneCount : Nat := 24
abbrev portTotal : Nat := 12
abbrev patternCount : Nat := 8
abbrev memberCount : Nat := 16384
abbrev flowCount : Nat := 262144
abbrev pathCount : Nat := 128
abbrev slotCount : Nat := 512
abbrev captureCount : Nat := 16
abbrev chainCount : Nat := 16
abbrev chainSideCount : Nat := 8
abbrev comparatorCount : Nat := 40
abbrev cassetteCount : Nat := 8
abbrev channelCount : Nat := 84
abbrev obsCount : Nat := 2
abbrev linkCount : Nat := 2

/-- A request as a mailbox can hold it: one of sixteen mailboxes, 32-bit header fields, at most 2,032 payload bytes (R421). -/
def requestOk (r : HostRequest) : Bool :=
  decide (r.mailbox < 16) && decide (r.tag < 4294967296) && decide (r.length < 4294967296) &&
    decide (r.session < 4294967296) && decide (r.payload.length ≤ 2032) && r.path != .none

/-- A frame header whose member IDs have 14 bits and whose TTL has 8 (table *Control frame header*). -/
def headOk (h : FrameHeader) : Bool :=
  decide (h.dest < memberCount) && decide (h.src.getD 0 < memberCount) && decide (h.ttl < 256)

/-- Well-formed commands and events. -/
def Instr.wf (i : Instr) : Bool :=
  match i with
  | .powerOnReset _ _ => true
  | .resetN _ _ => true
  | .bootStageAdvance _ _ _ _ => true
  | .ready => true
  | .trialTimeout => true
  | .warmReset => true
  | .watchdogTimeout => true
  | .watchdogReset => true
  | .unitResetComplete _ => true
  | .dormantWake _ _ => true
  | .dormantEntry _ => true
  | .pwrEnDrop => true
  | .standbyEntry => true
  | .standbyExitComplete => true
  | .quietExit => true
  | .pwrFailNFall _ => true
  | .pwrRestore => true
  | .aonOscTick => true
  | .loopTick _ => true
  | .slotBoundary => true
  | .subframeBoundary => true
  | .frameBoundary _ => true
  | .symbolBoundary _ n _ _ => decide (n < pathCount)
  | .ppsOutPulseEnd => true
  | .donorDetection _ => true
  | .donorSyncTimeout => true
  | .ptpSyncRx _ => true
  | .ptpSyncTimeout => true
  | .ppsInEdge _ => true
  | .ppsInMissing => true
  | .flockSourceTimeout => true
  | .sourceRetryTimer code => decide (code < 5)
  | .revertHoldExpiry => true
  | .atLocked => true
  | .airTimeStep => true
  | .stepPendingEnd => true
  | .refInQualify _ => true
  | .timeErrLimitExceeded => true
  | .scheduledCommandFire => true
  | .tddPatternEffective p => decide (p < patternCount)
  | .tddVerifyWindowEnd p _ _ => decide (p < patternCount)
  | .atSourceConfig r => requestOk r
  | .tddPatternSet r => requestOk r
  | .wallTimeSet r => requestOk r
  | .atSchedule r => requestOk r
  | .atCancel r => requestOk r
  | .rfChainConfig r => requestOk r
  | .rfTxEnable r => requestOk r
  | .rfRxAtten r => requestOk r
  | .rfCalRun r => requestOk r
  | .rfCalGrant r => requestOk r
  | .rfPolicy r => requestOk r
  | .rfObsMap r => requestOk r
  | .attenDeferredApply c => decide (c < chainCount)
  | .synthLock c _ => decide (c < chainCount)
  | .synthUnlock c => decide (c < chainCount)
  | .chainActivate c => decide (c < chainCount)
  | .lockTimeout c => decide (c < chainCount)
  | .relockTimeout c => decide (c < chainCount)
  | .calEvaluation => true
  | .calibrationStart c => decide (c < chainCount)
  | .calibrationComplete c _ _ _ _ => decide (c < chainCount)
  | .grantStart _ => true
  | .converterSelfCheckFail c => decide (c < chainCount)
  | .obsDwellStart o => decide (o < obsCount)
  | .obsDwellEnd o _ => decide (o < obsCount)
  | .bpConfig r => requestOk r
  | .bpRelease r => requestOk r
  | .bpDetector r => requestOk r
  | .bpAlign r => requestOk r
  | .bpSyncPin r => requestOk r
  | .dpdConfig r => requestOk r
  | .dpdControl r => requestOk r
  | .fadeOutEnd _ n => decide (n < pathCount)
  | .settleZerosEnd _ n => decide (n < pathCount)
  | .fadeInEnd n => decide (n < pathCount)
  | .alignmentApply => true
  | .syncAlignEdge _ => true
  | .syncAlignPulseEnd => true
  | .alignLossDetect _ n => decide (n < pathCount)
  | .detectorWindowEnd _ n _ _ _ => decide (n < pathCount)
  | .detectorSelfCheckFail _ n => decide (n < pathCount)
  | .pathSettleTimeout _ n => decide (n < pathCount)
  | .dpdUpdateApply t => decide (t < chainSideCount)
  | .dpdUpdateRevert t => decide (t < chainSideCount)
  | .dpdSetSwitch t => decide (t < chainSideCount)
  | .flowBlockArrival eb flow _ _ => decide (eb < pathCount) && decide (flow < flowCount)
  | .lgLoopConfig r => requestOk r
  | .lgBeaconConfig r => requestOk r
  | .lgCancelConfig r => requestOk r
  | .lgCancelControl r => requestOk r
  | .lgSearchConfig r => requestOk r
  | .lgPolicy r => requestOk r
  | .pilotPeriodEnd eb _ => decide (eb < pathCount)
  | .ladderStep eb => decide (eb < pathCount)
  | .lineDetectorFrame _ n _ => decide (n < pathCount)
  | .holdoffEnd _ n => decide (n < pathCount)
  | .reacquireFitComplete inst => decide (inst < pathCount)
  | .cancellerSnapshotRestore inst => decide (inst < pathCount)
  | .marginCapReceive _ => true
  | .marginCapApply eb => decide (eb < pathCount)
  | .marginLowTimeout eb => decide (eb < pathCount)
  | .beaconLossTimeout eb => decide (eb < pathCount)
  | .admitReqReceive member => decide (member < memberCount)
  | .admitGrantReceive _ => true
  | .admissionFrame => true
  | .gsSetGain r => requestOk r
  | .gsMute r => requestOk r
  | .npBackoffSet r => requestOk r
  | .npPolicy r => requestOk r
  | .ulGateConfig r => requestOk r
  | .ulNoiseConfig r => requestOk r
  | .npDonorConfig r => requestOk r
  | .npOutputConfig r => requestOk r
  | .gainRampEnd eb => decide (eb < pathCount)
  | .noiseWindowFilled ib => decide (ib < pathCount)
  | .ulNoiseRiseTimeout eb => decide (eb < pathCount)
  | .donorLossTimeout ib => decide (ib < pathCount)
  | .donorRecovery ib => decide (ib < pathCount)
  | .donorOverloadDetect ib => decide (ib < pathCount)
  | .clSlotConfig r => requestOk r
  | .clBankWrite r => requestOk r
  | .clBankSwap r => requestOk r
  | .clSetpoint r => requestOk r
  | .clSlotControl r => requestOk r
  | .clRepConfig r => requestOk r
  | .clInject r => requestOk r
  | .clTraceConfig r => requestOk r
  | .clTraceRead r => requestOk r
  | .clPolicy r => requestOk r
  | .slotIteration n _ => decide (n < slotCount)
  | .iterationOverrun n => decide (n < slotCount)
  | .overrunHoldEnd n => decide (n < slotCount)
  | .loopSaturatedTimeout n => decide (n < slotCount)
  | .repBinBoundary t => decide (t < chainSideCount)
  | .repTableClear t => decide (t < chainSideCount)
  | .injectionStart n => decide (n < slotCount)
  | .injectionEnd n => decide (n < slotCount)
  | .hvLinkTimeout => true
  | .paConfig r => requestOk r
  | .paTiming r => requestOk r
  | .paBiasTable r => requestOk r
  | .cmpConfig r => requestOk r
  | .cmpMode r => requestOk r
  | .paEnable r => requestOk r
  | .paBiasCal r => requestOk r
  | .casPolicy r => requestOk r
  | .casIdentityRead r => requestOk r
  | .drainRampEnd n _ => decide (n < cassetteCount)
  | .drainingComplete n _ => decide (n < cassetteCount)
  | .gateOnEdge n => decide (n < cassetteCount)
  | .gateOffEdge n => decide (n < cassetteCount)
  | .comparatorTrip x => decide (x.cmp < comparatorCount)
  | .comparatorTripClear x => decide (x.cmp < comparatorCount)
  | .tOffMinExpiry n => decide (n < cassetteCount)
  | .comparatorQualify x => decide (x.cmp < comparatorCount)
  | .tripHoldExpiry c => decide (c < comparatorCount)
  | .cassetteIdPoll n _ => decide (n < cassetteCount)
  | .cassetteIdentify n _ => decide (n < cassetteCount)
  | .biasCalComplete n _ => decide (n < cassetteCount)
  | .stressMinute => true
  | .lifeRecordWrite => true
  | .hkSlotMap r => requestOk r
  | .hkUrgent r => requestOk r
  | .hkCalPoint r => requestOk r
  | .hkTestDac r => requestOk r
  | .hkSupplyWindow r => requestOk r
  | .hkThermalPolicy r => requestOk r
  | .hkSlotEnd _ => true
  | .urgentSlotEnd _ => true
  | .hkRoundEnd _ => true
  | .calPointComplete _ => true
  | .channelRecordLatch c => decide (c < channelCount)
  | .clockMonitorCheck _ => true
  | .flPortConfig r => requestOk r
  | .flFlockConfig r => requestOk r
  | .flJoin r => requestOk r
  | .flLeave r => requestOk r
  | .flLaneControl r => requestOk r
  | .flMemberQuery r => requestOk r
  | .flExpel r => requestOk r
  | .signalDetect l => decide (l < laneCount)
  | .laneUp l _ => decide (l < laneCount)
  | .laneTrainTimeout l => decide (l < laneCount)
  | .laneDown l _ => decide (l < laneCount)
  | .retrainBackoffExpiry l => decide (l < laneCount)
  | .laneSerWarn l => decide (l < laneCount)
  | .laneQualComplete l => decide (l < laneCount)
  | .laneSet port _ _ => decide (port < portTotal)
  | .laneSetApply port => decide (port < portTotal)
  | .flitReceive port _ => decide (port < portTotal)
  | .hello port _ => decide (port < portTotal)
  | .ttReq port _ => decide (port < portTotal)
  | .ttResp port _ _ _ _ => decide (port < portTotal)
  | .joinReq port h _ => decide (port < portTotal) && headOk h
  | .joinResp port h _ => decide (port < portTotal) && headOk h
  | .leave port h member _ _ => decide (port < portTotal) && headOk h && decide (member < memberCount)
  | .leaveAck port h member _ _ => decide (port < portTotal) && headOk h && decide (member < memberCount)
  | .status port h _ => decide (port < portTotal) && headOk h
  | .pathDown port h => decide (port < portTotal) && headOk h
  | .rehome port h member _ _ => decide (port < portTotal) && headOk h && decide (member < memberCount)
  | .lost port h _ _ => decide (port < portTotal) && headOk h
  | .expel port h => decide (port < portTotal) && headOk h
  | .joinReqSend => true
  | .joinRespTimeout => true
  | .backoffExpiry => true
  | .joinAdmission => true
  | .memberTimeout member => decide (member < memberCount)
  | .rehomeWaitExpiry => true
  | .idHoldExpiry member => decide (member < memberCount)
  | .leaveFrame => true
  | .dvIntentSet r => requestOk r
  | .dvIntentClear r => requestOk r
  | .dvPolicy r => requestOk r
  | .dvReplace r => requestOk r
  | .dvFlowQuery r => requestOk r
  | .dvFlowControl r => requestOk r
  | .placementCompute => true
  | .plan port h _ _ _ _ _ => decide (port < portTotal) && headOk h
  | .planAck port h _ _ => decide (port < portTotal) && headOk h
  | .planCancel port h _ => decide (port < portTotal) && headOk h
  | .planAckTimeout => true
  | .bindStatus port h _ => decide (port < portTotal) && headOk h
  | .flowReport port h _ => decide (port < portTotal) && headOk h
  | .descriptorLoad => true
  | .planApply => true
  | .planDrainEnd => true
  | .targetDelayApply => true
  | .sumDeadline flow _ _ => decide (flow < flowCount)
  | .consumeDeadline flow _ => decide (flow < flowCount)
  | .flowQualComplete flow => decide (flow < flowCount)
  | .capArm r => requestOk r
  | .capTrigger r => requestOk r
  | .capControl r => requestOk r
  | .arConfig r => requestOk r
  | .arControl r => requestOk r
  | .arRestore r => requestOk r
  | .memRetireClear r => requestOk r
  | .captureAtInstant slot => decide (slot < captureCount)
  | .captureStop slot => decide (slot < captureCount)
  | .drainComplete => true
  | .restoreComplete _ => true
  | .archiveFault _ => true
  | .patrolScrub _ => true
  | .hbmUncorrectable _ _ _ _ => true
  | .extentRemap => true
  | .stackPowerDown => true
  | .bellConfig r => requestOk r
  | .bellEnable r => requestOk r
  | .keeperKey r => requestOk r
  | .bellChainConfig r => requestOk r
  | .syncDetect _ => true
  | .headerComplete _ _ => true
  | .clipCollision _ => true
  | .payloadComplete _ => true
  | .keeperRequest => true
  | .chainPacketReceive => true
  | .bellTxStart _ => true
  | .bellTxEnd _ => true
  | .ccaRetry _ => true
  | .keeperResponseDue => true
  | .keeperResponseExpiry => true
  | .bellTxWatchdog => true
  | .synBellCalStart => true
  | .synBellLock _ => true
  | .bellTxResume => true
  | .chainHelloTimer => true
  | .neighbourExpiry member => decide (member < memberCount)
  | .chainStatusTimer => true
  | .chainAckTimeout => true
  | .keeperLockoutExpiry _ => true
  | .faultClassConfig r => requestOk r
  | .faultPolicy r => requestOk r
  | .faultAck r => requestOk r
  | .faultUnitPen r => requestOk r
  | .faultUnitRelease r => requestOk r
  | .faultHaltRelease r => requestOk r
  | .faultFfClear r => requestOk r
  | .faultInject r => requestOk r
  | .faultTableRead r => requestOk r
  | .collectorCycle => true
  | .reactionStart => true
  | .reactionComplete => true
  | .consequenceWindowClose => true
  | .haltReleaseFrame => true
  | .logMode r => requestOk r
  | .logRead r => requestOk r
  | .logClear r => requestOk r
  | .logMediaReset r => requestOk r
  | .logWrite r => requestOk r
  | .logVerify r => requestOk r
  | .recordCommit => true
  | .logClearComplete _ => true
  | .logBankScrub _ _ _ => true
  | .mirrorWrite _ _ => true
  | .doorbellWrite path _ => path != .none
  | .commandStart => true
  | .irqStatusWrite _ => true
  | .irqEnableWrite _ => true
  | .irqNEnableWrite _ => true
  | .doorbellOverrunWrite _ => true
  | .evtAckWrite _ => true
  | .eventHoldoffExpiry => true
  | .siteEdgeWrite _ => true
  | .logCursorWrite _ => true
  | .capWinWrite _ _ => true
  | .registerWrite path _ _ _ => path != .none
  | .lowHalfRead path _ => path != .none
  | .pcieReset _ => true
  | .ethRequest _ => true
  | .ethRead _ => true
  | .spiTransfer _ _ _ _ => true
  | .i2cTransfer _ _ => true
  | .nonceExpiry path => path != .none
  | .sessionIdleExpiry _ => true
  | .hostLockoutExpiry path => path != .none
  | .siteSample _ => true
  | .sysNop r => requestOk r
  | .sysSessionOpen r => requestOk r
  | .sysSessionClose r => requestOk r
  | .sysHostConfig r => requestOk r
  | .sysNetConfig r => requestOk r
  | .sysSiteConfig r => requestOk r
  | .pwrStateSet r => requestOk r
  | .pwrWakeConfig r => requestOk r
  | .pwrLimitSet r => requestOk r
  | .pwrReset r => requestOk r
  | .lcProvision r => requestOk r
  | .lcAdvance r => requestOk r
  | .lcRoleSet r => requestOk r
  | .keyInstall r => requestOk r
  | .dbgPolicy r => requestOk r
  | .fwWrite r => requestOk r
  | .fwControl r => requestOk r
  | .keysZeroised => true
  | .debugAuthRequest _ => true
  | .debugOpenRequest _ => true
  | .debugSessionClose _ => true
  | .debugLockoutExpiry => true
  | .securityViolation _ => true
  | .pairConfig r => requestOk r
  | .pairSwitchover r => requestOk r
  | .pairTailRead r => requestOk r
  | .pairHb port _ => decide (port < portTotal)
  | .pairHbMissed link => decide (link < linkCount)
  | .pairSync _ _ => true
  | .mirrorPeriodicSync => true
  | .pairWaitTimeout => true
  | .bulkSyncTimeout => true
  | .pairLinkRecovery => true
  | .pairTakeover => true
  | .pairDemote => true
  | .portTrainingStart => true
  | .refInLoss _ => true
  | .stackPowerUpComplete => true
  | .hbmCorrectedError _ => true
  | .arControlComplete _ => true
  | .logMediaResetComplete _ _ => true
  | .logVerifyComplete => true
  | .fwVerifyComplete _ => true
  | .paEnableQualTimeout n => decide (n < cassetteCount)
  | .i2cHeartbeatTick => true

end Sys2Proof
end

