-- ==== Sys2Proof/Tests/Slice0.lean ====
section
/-! SUPPORT. Tests: witnesses of the statements' hypotheses, ill-formed terms that the checks refuse, and single steps with
expected results computed by hand from the spec's rules. -/

namespace Sys2Proof.Tests

set_option Elab.async false

open Sys2Proof Sys2Proof.Machine

/-- A READY, provisioned hub in ACTIVE with an ADMIN session, 7, on PCIe. -/
def readyState : State := { State.reset with
  sys := { State.reset.sys with ready := true, lifecycle := .provisioned, role := .hub, powerFigures := Bank.fill 0 }
  host := { State.reset.host with
    pcieUp := true, sessions := (Bank.fill none).set 0 (some { id := 7, role := .admin, path := .pcie }) } }

/-- Zero bytes. -/
def zeroBytes (n : Nat) : List Byte := List.replicate n 0

/-- The part in another role. -/
def withRole (x : PartRole) (s : State) : State := s.modSys (fun y => { y with role := x })

/-- A request of that session in mailbox 1. -/
def ask (p : List Byte) : HostRequest := { mailbox := 1, tag := 5, length := p.length, session := 7, payload := p }

/-- Hypothesis of StepRunsFrontCommand. -/
theorem witness_step_front : ({ State.reset with pending := [.ready] } : State).pending = .ready :: [] := rfl

/-- Hypotheses of EmptyQueueLetsOneTcPass: an empty queue, in DORMANT and in ACTIVE. -/
theorem witness_idle_dormant : ({ State.reset with sys := { State.reset.sys with power := .dormant } } : State).pending = [] ∧
    ({ State.reset with sys := { State.reset.sys with power := .dormant } } : State).sys.power = .dormant := ⟨rfl, rfl⟩
theorem witness_idle_active : State.reset.pending = [] ∧ State.reset.sys.power ≠ .dormant := ⟨rfl, by decide⟩

/-- Hypotheses of AirTimeStaysInRange. -/
theorem witness_air_range : State.reset.air.inRange ∧ step State.reset = .next (idle State.reset) :=
  ⟨⟨by decide, by decide, by decide⟩, rfl⟩

/-- Hypothesis of EveryStepTakesOneFromQueue. -/
theorem witness_queue_step : step { State.reset with pending := [.ready] } = .next (ready State.reset) := rfl

/-- Hypotheses of MonotonicTimeNeverDecreases. -/
theorem witness_mono_step : (∀ (role : BitVec 2) (boot : BootPins) (rest : List Instr), State.reset.pending ≠ .powerOnReset role boot :: rest) ∧
    step State.reset = .next (idle State.reset) := ⟨fun _ _ _ h => (by cases h), rfl⟩

/-- Hypotheses of IgnoredDoorbellSetsOverrun: a RUNNING mailbox, and a mailbox of another path. -/
theorem witness_ignored_running :
    let s : State := readyState.modHost (fun h => { h with mailboxes := h.mailboxes.mod 1 (fun m => { m with state := .running }) })
    commandOf (.sysNop (ask [])) = some (specSysNop, ask []) ∧ (ask []).mailbox < 16 ∧ (s.host.mailboxes.get 1).state = .running :=
  ⟨rfl, by decide, by decide⟩
theorem witness_ignored_path : commandOf (.sysNop { ask [] with path := .spi }) = some (specSysNop, { ask [] with path := .spi }) ∧
    readyState.host.config.paths.get 1 ≠ .spi := ⟨rfl, by decide⟩

/-- Hypotheses of DoorbellWaitsItsTurn: before READY, and behind another doorbell. -/
theorem witness_waits_ready : commandOf (.sysNop (ask [])) = some (specSysNop, ask []) ∧
    doorbellAccepted State.reset.host 1 .pcie = true ∧ State.reset.sys.ready = false := ⟨rfl, by decide, rfl⟩
theorem witness_waits_order : doorbellAccepted (readyState.modHost (fun h => { h with order := [3] })).host 1 .pcie = true ∧
    (readyState.modHost (fun h => { h with order := [3] })).host.order ≠ [] := ⟨by decide, by decide⟩

/-- Hypotheses of RejectedCommandAnswersItsStatus: a SYS_NOP with a wrong length. -/
theorem witness_rejected : commandOf (.gsMute { ask [] with length := 3 }) = some (specGsMute, { ask [] with length := 3 }) ∧
    Rejects specGsMute { ask [] with length := 3 } readyState .eLength 0x8000_0008 :=
  ⟨rfl, ⟨rfl, rfl, by decide +kernel, by decide +kernel⟩, by decide +kernel⟩

/-- Hypotheses of RejectedCommandRaisesNoFault: GS_MUTE of a wrong length, which is not SYS_SESSION_OPEN. -/
theorem witness_rejected_fault : Rejects specGsMute { ask [] with length := 3 } readyState .eLength 0x8000_0008 ∧
    specGsMute.opcode ≠ 0x0101 ∧ specGsMute.opcode ≠ 0x0902 := ⟨witness_rejected.2, by decide, by decide⟩

/-- Hypotheses of AcceptedCommandIsAnswered: SYS_NOP, which is answered at once, and HK_URGENT, which waits. -/
theorem witness_accepted : commandOf (.sysNop (ask [])) = some (specSysNop, ask []) ∧ Accepts specSysNop (ask []) readyState ∧
    (specSysNop.effect (atStart 0x0100 (ask []) readyState) (reqOf 0x0100 (ask []))).2.deferred = false :=
  ⟨rfl, ⟨⟨rfl, rfl, by decide +kernel, by decide +kernel⟩, by decide +kernel⟩, by decide +kernel⟩
theorem witness_accepted_waits : Accepts specHkUrgent (ask [0, 0, 0, 0]) readyState ∧
    (specHkUrgent.effect (atStart 0x0902 (ask [0, 0, 0, 0]) readyState) (reqOf 0x0902 (ask [0, 0, 0, 0]))).2.deferred = true :=
  ⟨⟨⟨rfl, rfl, by decide +kernel, by decide +kernel⟩, by decide +kernel⟩, by decide +kernel⟩

/-- Hypothesis of ChecksFollowValidationOrder. -/
theorem witness_inner : specSysNop ∈ innerTable := by simp [innerTable]

/-- AirTimeCommandsSetTime: AtSourceConfig is accepted. -/
theorem accepts_AtSourceConfig : Accepts specAtSourceConfig (ask ([2, 4, 0, 0, 0, 0, 0, 0] ++ le 4 0 ++ le 4 1000 ++ le 4 10000 ++ le 4 1000 ++ le 4 10 ++ le 4 1000 ++ le 4 10000 ++ le 8 0))
    (readyState) :=
  ⟨⟨rfl, rfl, by decide +kernel, by decide +kernel⟩, by decide +kernel⟩
/-- AirTimeCommandsSetTime: TddPatternSet is accepted. -/
theorem accepts_TddPatternSet : Accepts specTddPatternSet (ask ([0, 1, 1, 0] ++ le 4 0 ++ le 4 983040 ++ le 4 0 ++ le 4 0 ++ le 2 4 ++ le 2 100 ++ le 4 1000 ++ le 4 983040 ++ [0, 0, 0, 0]))
    (readyState) :=
  ⟨⟨rfl, rfl, by decide +kernel, by decide +kernel⟩, by decide +kernel⟩
/-- AirTimeCommandsSetTime: WallTimeSet is accepted. -/
theorem accepts_WallTimeSet : Accepts specWallTimeSet (ask (le 8 1000000000))
    (readyState) :=
  ⟨⟨rfl, rfl, by decide +kernel, by decide +kernel⟩, by decide +kernel⟩
/-- AirTimeCommandsSetTime: AtSchedule is accepted. -/
theorem accepts_AtSchedule : Accepts specAtSchedule (ask ([0, 0, 0, 0] ++ le 4 2 ++ le 4 0 ++ le 8 0 ++ le 2 0x0100 ++ [0, 0] ++ le 4 0))
    (readyState) :=
  ⟨⟨rfl, rfl, by decide +kernel, by decide +kernel⟩, by decide +kernel⟩
/-- AirTimeCommandsSetTime: AtCancel is accepted. -/
theorem accepts_AtCancel : Accepts specAtCancel (ask (le 4 1))
    (readyState.modAir (fun a => { a with scheduled := [{ handle := 1, at_ := .air ⟨2, 0⟩, late := false, opcode := 0x0100, payload := [], tag := 5, mailbox := 1, path := .pcie, session := 7, role := .admin }] })) :=
  ⟨⟨rfl, rfl, by decide +kernel, by decide +kernel⟩, by decide +kernel⟩
/-- WALL_TIME_SET of the first clause's value where wall time was never set. -/
theorem witness_wall_unset : readyState.air.wallSet = false := rfl

/-- Hypotheses of TimingSourcesFailAndRetry: every source USABLE; PPS_IN in use; DONOR FAILED; PTP ahead of the selected DONOR. -/
def usableSources : State := readyState.modAir (fun a => { a with
  sources := Bank.fill { a.sources.dflt with state := .usable }, ppsAt := some 0, source := 1
  config := { a.config with priority := some [2, 1, 0, 0], revertive := true } })
theorem witness_sources_usable : (usableSources.air.sources.get 1).state = .usable ∧
    (usableSources.air.sources.get 2).state = .usable ∧ (usableSources.air.sources.get 3).state = .usable ∧
    usableSources.air.ppsAt = some 0 := ⟨rfl, rfl, rfl, rfl⟩
theorem witness_source_failed : ((usableSources.modAir (fun a => { a with
    sources := a.sources.mod 1 (fun x => { x with state := .failed }) })).air.sources.get 1).state = .failed := by decide +kernel
theorem witness_revert : usableSources.air.config.revertive = true ∧ usableSources.air.source ≠ 0 ∧
    (selectionList usableSources).contains usableSources.air.source = true ∧
    sourceUsable usableSources usableSources.air.source = true ∧
    ((selectionList usableSources).takeWhile (fun x => x != usableSources.air.source)).find? (sourceUsable usableSources) = some 2 := by
  decide +kernel

/-- Hypotheses of TimingInputsQualifySources: a valid detection and a valid Sync message after 2 s of good ones. -/
theorem witness_timing_inputs :
    let i : DonorInput := { path := 0, valid := true, nr := false, sfn := 4, second := false, timing := 0, bound := 10, freq := 0 }
    let m : PtpInput := { valid := true, time := 3000000000, offset := 20, bound := 10, freq := 0 }
    let s := usableSources.modAir (fun a => { a with ptpGoodFrom := some 0 })
    i.valid = true ∧ i.path = s.air.config.donorPath ∧ (s.air.sources.get 1).state ≠ .failed ∧ ptpCounts s.host.net m = true ∧
    (s.air.sources.get 1).state ≠ .absent ∧ (s.air.sources.get 2).state ≠ .failed ∧
    (s.air.sources.get 2).state ≠ .absent ∧ m.offset.natAbs ≤ 100 ∧ s.air.ptpGoodFrom = some 0 ∧
    0 + 2000000000 ≤ m.time := by decide +kernel
theorem witness_pps_width : (100 ≤ 500 ∧ 500 ≤ 900000000) ∧ (99 < 100 ∨ 900000000 < 99) := by decide

/-- Hypotheses of AirTimeLocksStepsAndLoses. -/
theorem witness_at_locked : (readyState.modAir (fun a => { a with lock := .acquiring, lockTicks := 16 })).air.lock = .acquiring ∧
    16 ≤ (readyState.modAir (fun a => { a with lock := .acquiring, lockTicks := 16 })).air.lockTicks := ⟨rfl, by decide⟩
theorem witness_step : (readyState.modAir (fun a => { a with
    step := some (⟨0, 65536⟩, 1000), stepEndAt := some 5, ppsOutEnd := some 9 })).air.step = some (⟨0, 65536⟩, 1000) ∧
    (readyState.modAir (fun a => { a with stepEndAt := some 5, ppsOutEnd := some 9 })).air.stepEndAt = some 5 ∧
    (readyState.modAir (fun a => { a with stepEndAt := some 5, ppsOutEnd := some 9 })).air.ppsOutEnd = some 9 := ⟨rfl, rfl, rfl⟩
theorem witness_time_loss : let s := readyState.modAir (fun a => { a with acquired := true, lock := .holdover, errBase := 1000000000 * 196608000000 })
    s.air.acquired = true ∧ timeErrOk s.air = false := by decide +kernel
theorem witness_fire : let x : Scheduled := { handle := 1, at_ := .air ⟨2, 0⟩, late := false, opcode := 0x0100, payload := [], tag := 5
                                              mailbox := 1, path := .pcie, session := 7, role := .admin }
    nextScheduled (readyState.modAir (fun a => { a with scheduled := [x] })) = some x ∧ x.opcode ≠ 0x0210 := by decide +kernel

/-- Hypotheses of GridBoundariesAndPatterns. -/
theorem witness_grid : readyState.air.inRange ∧ readyState.air.step = none ∧ readyState.air.slotMu ≤ 4 :=
  ⟨⟨by decide, by decide, by decide⟩, rfl, by decide⟩
def onePattern : PatternDef := { mu := 1, segments := [(491520, .dl), (491520, .ul)], refKind := 1, refId := 0, period := 983040
                                 anchor := 0, verifyFrames := 4, verifyRatio := 100, tol := 1000 }
theorem witness_pattern_waits : ((readyState.modAir (fun a => { a with
    patterns := a.patterns.mod 0 (fun x => { x with waiting := some (2, onePattern) }) })).air.patterns.get 0).waiting =
    some (2, onePattern) := by decide +kernel
theorem witness_pattern_verify : let s := readyState.modAir (fun a => { a with
      patterns := a.patterns.mod 0 (fun x => { x with defn := some onePattern, state := .provisional }) })
    (s.air.patterns.get 0).defn = some onePattern ∧ onePattern.refKind ≠ 0 ∧ (s.air.patterns.get 0).state ≠ .unset ∧
    (s.air.patterns.get 0).state ≠ .asserted ∧
    windowVoid onePattern.segments ([{}, {}].map PowerSum.mean) = true ∧
    windowVoid onePattern.segments ([⟨2 ^ 50, 4, 0⟩, ⟨2 ^ 30, 4, 0⟩].map PowerSum.mean) = false ∧
    ((segmentRatio onePattern.segments ([⟨2 ^ 50, 4, 0⟩, ⟨2 ^ 30, 4, 0⟩].map PowerSum.mean)).any
      (fun r => decide (10 * (onePattern.verifyRatio : Int) ≤ r))) = true ∧ (5 : Int).natAbs ≤ onePattern.tol := by decide +kernel

/-- RfCommandsConfigureChains: RfChainConfig is accepted. -/
theorem accepts_RfChainConfig : Accepts specRfChainConfig (ask ([0, 1, 0, 0, 0, 0, 0, 0] ++ le 8 2500000000 ++ le 8 2600000000 ++ le 8 0))
    (readyState) :=
  ⟨⟨rfl, rfl, by decide +kernel, by decide +kernel⟩, by decide +kernel⟩
/-- A chain in a front-end state. -/
def withChain (c : Nat) (fe : FeState) (s : State) : State :=
  s.modRf (fun x => { x with chains := x.chains.mod c (fun y => { y with fe := fe, window := ⟨2500000000, 2600000000, 1800000000⟩ }) })
/-- RF_CHAIN_CONFIG with enable 0, and on a LOCKING chain. -/
theorem accepts_RfChainConfig_off : Accepts specRfChainConfig (ask ([0, 0, 0, 0, 0, 0, 0, 0] ++ le 8 0 ++ le 8 0 ++ le 8 0))
    (withChain 0 .active readyState) := ⟨⟨rfl, rfl, by decide +kernel, by decide +kernel⟩, by decide +kernel⟩
theorem accepts_RfChainConfig_busy : Accepts specRfChainConfig
    (ask ([0, 1, 0, 0, 0, 0, 0, 0] ++ le 8 2500000000 ++ le 8 2600000000 ++ le 8 0)) (withChain 0 .locking readyState) ∧
    chainBusy ((withChain 0 .locking readyState).rf.chains.get 0) = true :=
  ⟨⟨⟨rfl, rfl, by decide +kernel, by decide +kernel⟩, by decide +kernel⟩, by decide +kernel⟩
/-- RfCommandsConfigureChains: RfTxEnable is accepted. -/
theorem accepts_RfTxEnable : Accepts specRfTxEnable (ask ([8, 1, 0, 0]))
    (withChain 8 .ready readyState) :=
  ⟨⟨rfl, rfl, by decide +kernel, by decide +kernel⟩, by decide +kernel⟩
theorem accepts_RfTxEnable_off : Accepts specRfTxEnable (ask [8, 0, 0, 0]) (withChain 8 .active readyState) :=
  ⟨⟨rfl, rfl, by decide +kernel, by decide +kernel⟩, by decide +kernel⟩
theorem accepts_RfTxEnable_busy : Accepts specRfTxEnable (ask [8, 1, 0, 0]) (withChain 8 .locking readyState) ∧
    standbyHub (withChain 8 .locking readyState) = false ∧ chainBusy ((withChain 8 .locking readyState).rf.chains.get 8) = true :=
  ⟨⟨⟨rfl, rfl, by decide +kernel, by decide +kernel⟩, by decide +kernel⟩, by decide +kernel, by decide +kernel⟩
/-- A standby of a hub pair. -/
def standbyState : State := readyState.modPair (fun p => { p with config := { p.config with enable := true }, phase := .standbyReady })
theorem accepts_RfTxEnable_standby : Accepts specRfTxEnable (ask [8, 1, 0, 0]) (withChain 8 .ready standbyState) ∧
    standbyHub (withChain 8 .ready standbyState) = true :=
  ⟨⟨⟨rfl, rfl, by decide +kernel, by decide +kernel⟩, by decide +kernel⟩, by decide +kernel⟩
/-- RfCommandsConfigureChains: RfRxAtten is accepted. -/
theorem accepts_RfRxAtten : Accepts specRfRxAtten (ask ([0, 6, 0, 0]))
    (withChain 0 .active readyState) :=
  ⟨⟨rfl, rfl, by decide +kernel, by decide +kernel⟩, by decide +kernel⟩
theorem accepts_RfRxAtten_stored : Accepts specRfRxAtten (ask [0, 6, 0, 0]) (withChain 0 .locking readyState) :=
  ⟨⟨rfl, rfl, by decide +kernel, by decide +kernel⟩, by decide +kernel⟩
/-- RfCommandsConfigureChains: RfCalRun is accepted. -/
theorem accepts_RfCalRun : Accepts specRfCalRun (ask (le 4 1 ++ [1, 1, 0, 0]))
    (withChain 0 .active readyState) :=
  ⟨⟨rfl, rfl, by decide +kernel, by decide +kernel⟩, by decide +kernel⟩
theorem accepts_RfCalRun_bell : Accepts specRfCalRun (ask (le 4 0x10000 ++ [0, 0, 0, 0]))
    (readyState.modBell (fun b => { b with rx := .search })) := ⟨⟨rfl, rfl, by decide +kernel, by decide +kernel⟩, by decide +kernel⟩
/-- RfCommandsConfigureChains: RfCalGrant is accepted. -/
theorem accepts_RfCalGrant : Accepts specRfCalGrant (ask (le 4 1 ++ le 4 2 ++ le 4 0 ++ le 4 120 ++ [0, 0, 0, 0]))
    (readyState) :=
  ⟨⟨rfl, rfl, by decide +kernel, by decide +kernel⟩, by decide +kernel⟩
/-- RfCommandsConfigureChains: RfPolicy is accepted. -/
theorem accepts_RfPolicy : Accepts specRfPolicy (ask (le 2 500 ++ [1, 0] ++ le 2 100 ++ [0, 0]))
    (readyState) :=
  ⟨⟨rfl, rfl, by decide +kernel, by decide +kernel⟩, by decide +kernel⟩
/-- RfCommandsConfigureChains: RfObsMap is accepted. -/
theorem accepts_RfObsMap : Accepts specRfObsMap (ask ([0, 0, 1, 1, 0xFF, 0xFF, 0xFF, 0xFF] ++ le 2 8 ++ [3, 4]))
    (readyState) :=
  ⟨⟨rfl, rfl, by decide +kernel, by decide +kernel⟩, by decide +kernel⟩

/-- Hypotheses of SynthesisersLockAndUnlock. -/
def lockingState : State := (withChain 0 .locking readyState).modRf (fun x => { x with chains := x.chains.mod 0 (fun y => { y with
  op := some { kind := .retune, startedAt := 0 }, deadline_ := some 3932160, previous := some (⟨2500000000, 2600000000, 1800000000⟩, .off)
  activateAt := some ⟨0, 983040⟩, ret := .active, relockBy := some 5, attenWait := some 4, attenAt := some 7 }) })
theorem witness_locking : let x := lockingState.rf.chains.get 0
    x.op = some { kind := .retune, startedAt := 0 } ∧ x.deadline_ = some 3932160 ∧
    x.previous = some (⟨2500000000, 2600000000, 1800000000⟩, .off) ∧ x.activateAt = some ⟨0, 983040⟩ ∧ x.held = none ∧ x.offAt = none ∧ waitingEnable x = none ∧
    x.ret = .active ∧ x.relockBy = some 5 ∧ x.attenWait = some 4 ∧ x.attenAt = some 7 := by decide +kernel
theorem witness_chain_disabled : let k : Ticket := { opcode := 0x0301, tag := 5, mailbox := 1 }
    ((modChain 8 (fun y => { y with offAt := some (9, k) }) (withChain 8 .ready readyState)).rf.chains.get 8).offAt = some (9, k) := by
  decide +kernel
theorem witness_lock_lost : let x := (withChain 0 .active readyState).rf.chains.get 0
    x.op = none ∧ x.fe ≠ .off ∧ x.locked = false ∧ x.fe = .active := by decide +kernel
theorem witness_held_enable : let k : Ticket := { opcode := 0x0302, tag := 5, mailbox := 1 }
    let x := ((withChain 8 .locking readyState).modRf (fun x => { x with chains := x.chains.mod 8 (fun y => { y with
      held := some (.txEnable k 3932160) }) })).rf.chains.get 8
    x.deadline_ = none ∧ x.held = some (.txEnable k 3932160) := by decide +kernel

/-- Hypotheses of CalibrationAndObservationRun. -/
theorem witness_calibration : let s := lockingState.modRf (fun x => { x with
      grants := [{ handle := 3, mask := 1, start := ⟨2, 0⟩, duration := 120, refresh := false, session := 7 }]
      chains := x.chains.mod 0 (fun y => { y with op := some { kind := .full, startedAt := 0 }, calAt := some 9
                                                  due := some { kind := .full, since := 0 } }) })
    toneFree s 0 = true ∧ (s.rf.chains.get 0).calAt = some 9 ∧ (s.rf.chains.get 0).due = some { kind := .full, since := 0 } ∧
    (s.rf.chains.get 0).op = some { kind := .full, startedAt := 0 } ∧
    s.rf.grants.find? (fun x => x.handle == 3) =
      some { handle := 3, mask := 1, start := ⟨2, 0⟩, duration := 120, refresh := false, session := 7 } := by decide +kernel
theorem witness_dwell : let s := (withChain 8 .active readyState).modRf (fun x => { x with
      obsMap := x.obsMap.set 0 (some 0), obs := x.obs.mod 1 (fun o => { o with observing := true }) })
    (s.rf.obs.get 0).observing = false ∧ nextObserved s 0 = some 0 ∧ (s.rf.obs.get 1).observing = true := by decide +kernel

/-- ChannelCommandsConfigureBandPaths: BpConfig is accepted. -/
theorem accepts_BpConfig : Accepts specBpConfig (ask ([0, 0, 0, 0] ++ le 4 20000000 ++ le 8 2550000000 ++ [0, 0xFF, 1, 0] ++ le 4 0))
    (withChain 0 .active readyState) :=
  ⟨⟨rfl, rfl, by decide +kernel, by decide +kernel⟩, by decide +kernel⟩
/-- Parameters of a 20 MHz band path. -/
def oneBand (chain : Nat) : BpParams := { chain, preset := 0, bw := 20000000, center := 2550000000, srcFlow := false, srcId := 3
                                          tdd := none, mu := 1, protected_ := false, alignStrict := false, stages := 4 }
/-- A READY hub with ingress band path 3 on RX.A0 and egress band path 5 on TX.A0, both chains ACTIVE. -/
def bandState : State := (withChain 8 .active (withChain 0 .active readyState)).modCe (fun c => { c with
  ib := c.ib.set 3 (some { params := oneBand 0 }), eb := c.eb.set 5 (some { params := oneBand 8 }) })
/-- ChannelCommandsConfigureBandPaths: BpRelease is accepted. -/
theorem accepts_BpRelease : Accepts specBpRelease (ask ([5, 1, 0, 0]))
    (bandState) :=
  ⟨⟨rfl, rfl, by decide +kernel, by decide +kernel⟩, by decide +kernel⟩
theorem accepts_BpRelease_ingress : Accepts specBpRelease (ask [3, 0, 0, 0])
    (bandState.modCe (fun c => { c with eb := c.eb.set 5 none })) := ⟨⟨rfl, rfl, by decide +kernel, by decide +kernel⟩, by decide +kernel⟩
/-- ChannelCommandsConfigureBandPaths: BpDetector is accepted. -/
theorem accepts_BpDetector : Accepts specBpDetector (ask ([3, 0, 4, 1]))
    (bandState) :=
  ⟨⟨rfl, rfl, by decide +kernel, by decide +kernel⟩, by decide +kernel⟩
/-- ChannelCommandsConfigureBandPaths: BpAlign is accepted. -/
theorem accepts_BpAlign : Accepts specBpAlign (ask (zeroBytes 32 ++ le 4 0))
    (bandState) :=
  ⟨⟨rfl, rfl, by decide +kernel, by decide +kernel⟩, by decide +kernel⟩
/-- ChannelCommandsConfigureBandPaths: BpSyncPin is accepted. -/
theorem accepts_BpSyncPin : Accepts specBpSyncPin (ask ([2, 0, 0, 0] ++ zeroBytes 32))
    (readyState) :=
  ⟨⟨rfl, rfl, by decide +kernel, by decide +kernel⟩, by decide +kernel⟩
/-- ChannelCommandsConfigureBandPaths: DpdConfig is accepted. -/
theorem accepts_DpdConfig : Accepts specDpdConfig (ask ([8, 1, 3, 4, 1, 1, 0, 0] ++ [0x60, 0xF0, 0xFF, 0xFF]))
    (withChain 8 .ready readyState) :=
  ⟨⟨rfl, rfl, by decide +kernel, by decide +kernel⟩, by decide +kernel⟩
theorem witness_dpd_model : ((withChain 8 .ready readyState).ce.dpd.get 0).memory ≠ 4 := by decide +kernel
/-- DPD of TX.A0 adapts. -/
def dpdState : State := readyState.modCe (fun c => { c with dpd := c.dpd.mod 0 (fun d => { d with
  state := .adapting, pending := [.apply [(1, 0)], .revert, .switch 2], before := some (-4000, []) }) })
/-- ChannelCommandsConfigureBandPaths: DpdControl is accepted. -/
theorem accepts_DpdControl : Accepts specDpdControl (ask ([8, 0, 0, 0]))
    (dpdState) :=
  ⟨⟨rfl, rfl, by decide +kernel, by decide +kernel⟩, by decide +kernel⟩
theorem accepts_DpdControl_all : Accepts specDpdControl (ask [8, 1, 0, 0]) dpdState ∧ Accepts specDpdControl (ask [8, 2, 0, 0]) dpdState ∧
    Accepts specDpdControl (ask [8, 3, 0, 0]) dpdState :=
  ⟨⟨⟨rfl, rfl, by decide +kernel, by decide +kernel⟩, by decide +kernel⟩,
   ⟨⟨rfl, rfl, by decide +kernel, by decide +kernel⟩, by decide +kernel⟩,
   ⟨⟨rfl, rfl, by decide +kernel, by decide +kernel⟩, by decide +kernel⟩⟩

/-- Hypotheses of SettlesFadeAndAlign. -/
def settleState (x : SettlePhase) : State := bandState.modCe (fun c => { c with
  ib := c.ib.mod 3 (fun b => b.map (fun y => { y with phase := x, phaseEnd := 900, settleBy := 5000 }))
  eb := c.eb.mod 5 (fun b => b.map (fun y => { y with phase := x, phaseEnd := 900, settleBy := 5000 }))
  syncMode := .in_, align := some ⟨2, 8, 32, false⟩, syncEnd := some 7 })
theorem witness_settle_phases : ∀ x, ((bandPath (settleState x) .ingress 3).map (fun b => (b.phase, b.settleBy))) = some (x, 5000) ∧
    ((bandPath (settleState x) .egress 5).map (fun b => (b.phase, b.settleBy))) = some (x, 5000) := by
  intro x; cases x <;> decide +kernel
theorem witness_alignment : nextAlign (settleState .idle) = some ⟨2, 8, 32, false⟩ ∧ (settleState .idle).ce.syncMode = .in_ ∧
    (settleState .idle).ce.alignPin = none ∧ (settleState .idle).ce.syncEnd = some 7 := by decide +kernel
theorem witness_align_pin : ((settleState .idle).modCe (fun c => { c with alignPin := some ⟨1, 8, 32, true⟩ })).ce.alignPin ≠ none ∧
    nextAlign ((settleState .idle).modCe (fun c => { c with alignPin := some ⟨1, 8, 32, true⟩ })) = some ⟨1, 8, 32, true⟩ := by
  decide +kernel

/-- Hypotheses of DetectorsAndPredistortionRun. -/
theorem witness_detector : (bandPath bandState .ingress 3).isSome = true ∧ (bandPath bandState .egress 5).isSome = true ∧
    ({ params := oneBand 0 } : BandPath).detInvalid = false ∧ (⟨2 ^ 34, 4, 2 ^ 34⟩ : PowerSum).mean.isSome = true := by decide +kernel
theorem witness_gate : let s := bandState.modNp (fun x => { x with gates := x.gates.set 3 (some { mode := .open_ }) })
    s.np.gates.get 3 = some { mode := .open_ } ∧ inPaddock s (ibUnit 3) = false := by decide +kernel
theorem witness_dpd : .apply [(1, 0)] ∈ (dpdState.ce.dpd.get 0).pending ∧ .revert ∈ (dpdState.ce.dpd.get 0).pending ∧
    (dpdState.ce.dpd.get 0).before = some (-4000, []) ∧ .switch 2 ∈ (dpdState.ce.dpd.get 0).pending ∧
    (dpdState.ce.dpd.get 0).rejectRun < 2 := by decide +kernel
theorem witness_flow_fed : (bandState.modCe (fun c => { c with eb := c.eb.set 5 (some { params := { oneBand 8 with srcFlow := true } }) })).ce.eb.get 5 =
    some { params := { oneBand 8 with srcFlow := true } } ∧ (oneBand 8).srcFlow = false := by decide +kernel

/-- ProtectionCommandsSetLimits: GsSetGain is accepted. -/
theorem accepts_GsSetGain : Accepts specGsSetGain (ask ([5, 0, 0, 0] ++ le 4 3000))
    (bandState) :=
  ⟨⟨rfl, rfl, by decide +kernel, by decide +kernel⟩, by decide +kernel⟩
theorem witness_no_soft : (bandState.np.gain.get 5).soft = none := by decide +kernel
/-- ProtectionCommandsSetLimits: GsMute is accepted. -/
theorem accepts_GsMute : Accepts specGsMute (ask ([32] ++ zeroBytes 15 ++ [1, 0, 0, 0]))
    (bandState) :=
  ⟨⟨rfl, rfl, by decide +kernel, by decide +kernel⟩, by decide +kernel⟩
theorem witness_mute_mask : 5 ∈ mask128 ([32] ++ zeroBytes 15 ++ [1, 0, 0, 0]) 0 ∧ ebExists bandState 5 = true := by decide +kernel
/-- ProtectionCommandsSetLimits: NpBackoffSet is accepted. -/
theorem accepts_NpBackoffSet : Accepts specNpBackoffSet (ask ([0, 5, 0, 0] ++ le 4 300))
    (bandState) :=
  ⟨⟨rfl, rfl, by decide +kernel, by decide +kernel⟩, by decide +kernel⟩
theorem accepts_NpBackoffSet_chain : Accepts specNpBackoffSet (ask ([1, 8, 0, 0] ++ le 4 0)) bandState :=
  ⟨⟨rfl, rfl, by decide +kernel, by decide +kernel⟩, by decide +kernel⟩
/-- ProtectionCommandsSetLimits: NpPolicy is accepted. -/
theorem accepts_NpPolicy : Accepts specNpPolicy (ask (le 4 2000 ++ le 4 1200))
    (readyState) :=
  ⟨⟨rfl, rfl, by decide +kernel, by decide +kernel⟩, by decide +kernel⟩
/-- ProtectionCommandsSetLimits: UlGateConfig is accepted. -/
theorem accepts_UlGateConfig : Accepts specUlGateConfig (ask ([3, 0, 4, 0] ++ le 4 300 ++ le 4 100))
    (withRole .remote bandState) :=
  ⟨⟨rfl, rfl, by decide +kernel, by decide +kernel⟩, by decide +kernel⟩
/-- ProtectionCommandsSetLimits: UlNoiseConfig is accepted. -/
theorem accepts_UlNoiseConfig : Accepts specUlNoiseConfig (ask ([5, 1, 0, 0] ++ [0x18, 0xFC, 0xFF, 0xFF] ++ le 4 100 ++ le 4 600))
    (bandState) :=
  ⟨⟨rfl, rfl, by decide +kernel, by decide +kernel⟩, by decide +kernel⟩
/-- ProtectionCommandsSetLimits: NpDonorConfig is accepted. -/
theorem accepts_NpDonorConfig : Accepts specNpDonorConfig (ask ([3, 1, 0, 0] ++ [0x18, 0xFC, 0xFF, 0xFF] ++ le 4 100 ++ [0x18, 0xFC, 0xFF, 0xFF] ++ zeroBytes 16))
    (bandState) :=
  ⟨⟨rfl, rfl, by decide +kernel, by decide +kernel⟩, by decide +kernel⟩
/-- ProtectionCommandsSetLimits: NpOutputConfig is accepted. -/
theorem accepts_NpOutputConfig : Accepts specNpOutputConfig (ask ([8, 1, 0, 0] ++ le 4 3000 ++ le 4 3000 ++ le 4 300 ++ le 4 4500))
    (bandState.modRf (fun x => { x with obsMap := x.obsMap.set 0 (some 0) })) :=
  ⟨⟨rfl, rfl, by decide +kernel, by decide +kernel⟩, by decide +kernel⟩

/-- Hypotheses of ProtectionWatchesLevels. -/
theorem witness_ramp : rampEnds ((bandState.modNp (fun x => { x with gain := x.gain.mod 5 (fun g => { g with
    ramp := ⟨.falling, 900⟩ }) })).np.gain.get 5) = 900 :: [] ∧ rampEnds (bandState.np.gain.get 5) = [] := by decide +kernel
theorem witness_noise_full : let g : UlGate := { noiseWin := 0, envs := [-5000] }
    let s := bandState.modNp (fun x => { x with gates := x.gates.set 3 (some g) })
    s.np.gates.get 3 = some g ∧ s.ce.ib.get 3 = some { params := oneBand 0 } ∧
    noiseSymbols (symbolMu s { params := oneBand 0 }) g.noiseWin ≤ g.envs.length := by decide +kernel
theorem witness_levels : let s := bandState.modNp (fun x => { x with
      noise := x.noise.mod 5 (fun u => { u with lowSince := some 4 })
      donors := (x.donors.set 3 { lossSince := some 4, enable := true, overTicks := 32 }).set 4 { okSince := some 5, loss := true } })
    (s.np.noise.get 5).lowSince = some 4 ∧ (s.np.donors.get 3).lossSince = some 4 ∧ (s.np.donors.get 3).enable = true ∧
    (s.np.donors.get 3).loss = false ∧ 32 ≤ (s.np.donors.get 3).overTicks ∧ (s.np.donors.get 3).overload = false ∧
    (s.np.donors.get 4).okSince = some 5 ∧ (s.np.donors.get 4).loss = true := by decide +kernel

/-- The band paths of `bandState`, closed by a loop record in a state. -/
def loopState (x : LoopState) : State := (withRole .relay bandState).modLg (fun g => { g with
  loops := g.loops.set 5 (some { state := x, aLin := some 1000000, cLin := some 1000000, lastValid := 0, lineRun := 1
                                 lowSince := some 6, hubNext := some (⟨2, 0⟩, 3000), holdEnd := 9 }) })
/-- LoopGuardCommandsTakeEffectAtSlot: LgLoopConfig is accepted. -/
theorem accepts_LgLoopConfig : Accepts specLgLoopConfig (ask ([1, 5, 0, 0] ++ le 4 1500 ++ le 4 1000 ++ le 4 300 ++ le 2 4 ++ le 2 8 ++ le 4 100 ++ le 4 1000 ++ le 4 300))
    (loopState .guarded) :=
  ⟨⟨rfl, rfl, by decide +kernel, by decide +kernel⟩, by decide +kernel⟩
/-- LoopGuardCommandsTakeEffectAtSlot: LgBeaconConfig is accepted. -/
theorem accepts_LgBeaconConfig : Accepts specLgBeaconConfig (ask ([5, 16, 1, 0] ++ le 4 0 ++ [0x48, 0xF4, 0xFF, 0xFF] ++ [0x90, 0xE8, 0xFF, 0xFF] ++ le 2 20 ++ [0, 0]))
    (loopState .guarded) :=
  ⟨⟨rfl, rfl, by decide +kernel, by decide +kernel⟩, by decide +kernel⟩
theorem witness_loop_record : ((loopState .guarded).lg.loops.get 5).isSome = true := by decide +kernel
/-- LoopGuardCommandsTakeEffectAtSlot: LgCancelConfig is accepted. -/
theorem accepts_LgCancelConfig : Accepts specLgCancelConfig (ask ([0, 0] ++ zeroBytes 50))
    (loopState .guarded) :=
  ⟨⟨rfl, rfl, by decide +kernel, by decide +kernel⟩, by decide +kernel⟩
/-- LoopGuardCommandsTakeEffectAtSlot: LgCancelControl is accepted. -/
theorem accepts_LgCancelControl : Accepts specLgCancelControl (ask ([0, 2, 0, 0]))
    (bandState.modLg (fun g => { g with canc := g.canc.mod 0 (fun k => { k with state := .cold }) })) :=
  ⟨⟨rfl, rfl, by decide +kernel, by decide +kernel⟩, by decide +kernel⟩
/-- LoopGuardCommandsTakeEffectAtSlot: LgSearchConfig is accepted. -/
theorem accepts_LgSearchConfig : Accepts specLgSearchConfig (ask (zeroBytes 16 ++ [10, 0, 0, 0] ++ le 2 16 ++ le 2 4))
    (bandState) :=
  ⟨⟨rfl, rfl, by decide +kernel, by decide +kernel⟩, by decide +kernel⟩
/-- LoopGuardCommandsTakeEffectAtSlot: LgPolicy is accepted. -/
theorem accepts_LgPolicy : Accepts specLgPolicy (ask (le 4 300 ++ [0x38, 0xFF, 0xFF, 0xFF] ++ le 4 600 ++ le 4 1000 ++ [3, 0] ++ le 2 60 ++ le 4 600))
    (readyState) :=
  ⟨⟨rfl, rfl, by decide +kernel, by decide +kernel⟩, by decide +kernel⟩
theorem witness_lg_waits : (readyState.modLg (fun g => { g with waiting := [(0x0506, [])] })).lg.waiting = [(0x0506, [])] ∧
    (readyState.modLg (fun g => { g with waiting := [(0x0501, [0, 3, 1])] })).lg.waiting = [(0x0501, [0, 3, 1])] := ⟨rfl, rfl⟩

/-- Hypotheses of LoopsAreMeasuredAndHeldOff. -/
def lineState (x : Nat) : State :=
  let a : List Nat := x :: List.replicate 31 1
  let b : List Nat := List.replicate 32 1
  (loopState .guarded).modCe (fun c => { c with ib := c.ib.mod 3 (fun x => x.map (fun y => { y with lines := a :: List.replicate 8 b, linesAt := some ⟨0, 0⟩ })) })
theorem witness_loop_ladder : let s := (loopState .ladder).modLg (fun g => { g with
      loops := g.loops.mod 5 (fun l => l.map (fun y => { y with cap := some 2000, aLin := some (10 ^ 32), cLin := some (10 ^ 30) })) })
    ((s.ce.eb.get 5).bind (fun b => (s.lg.loops.get 5).map (fun l => (l.state, penned s (ebUnit 5), l.cap,
      (creditedMargin s 5 b l).map (fun q => decide (q < l.config.mReq)))))) = some (.ladder, false, some 2000, some true) := by
  decide +kernel
theorem witness_loop_line : ((loopState .guarded).ce.eb.get 5).isSome = true ∧
    ((loopState .guarded).lg.loops.get 5).map (fun l => (l.state, l.lineRun, l.lowSince)) = some (.guarded, 1, some 6) ∧
    ((loopState .guarded).ce.eb.get 5).bind (fun b => ((loopState .guarded).lg.loops.get 5).map (fun l =>
      loopClosed (loopState .guarded) b l)) = some true ∧ penned (loopState .guarded) (ebUnit 5) = false ∧
    lineSeen (lineView 833 (some 3) [] (lineState 100000)) 3 = true ∧
    lineSeen (lineView 833 (some 3) [] (lineState 1)) 3 = false := by decide +kernel
theorem witness_loop_holdoff : ((loopState .holdoff).lg.loops.get 5).map (fun l => l.state) = some .holdoff := by decide +kernel
theorem witness_hub_line : let s := bandState.modLg (fun g => { g with searchMask := 8, hubHold := g.hubHold.mod 3 (fun h => { h with lineRun := 1 }) })
    s.sys.role = .hub ∧ s.lg.searchMask.testBit 3 = true ∧ ibExists s 3 = true ∧
    lineSeen (lineView 703 (some 3) [] (lineState 100000)) 3 = true ∧ 1 ≤ (s.lg.hubHold.get 3).lineRun ∧
    (s.lg.hubHold.get 3).active = false := by decide +kernel
theorem witness_canceller : let s := bandState.modLg (fun g => { g with
      hubHold := g.hubHold.mod 3 (fun h => { h with active := true })
      canc := g.canc.mod 0 (fun k => { k with state := .reAcquire, restore := true, fitCount := 1024 }) })
    (s.lg.hubHold.get 3).active = true ∧ (s.lg.canc.get 0).state = .reAcquire ∧ (s.lg.canc.get 0).restore = true := by decide +kernel

/-- Hypotheses of CapsAndAdmissionsAreExchanged. -/
theorem witness_cap_receive : let s := loopState .guarded
    s.sys.role ≠ .hub ∧ (0 : Nat) = ownMember s ∧ (s.lg.loops.get 5).isSome = true ∧
    (s.lg.loops.get 5).bind (fun l => l.hubNext) = some (⟨2, 0⟩, 3000) := by decide +kernel
theorem witness_admit : let s := readyState.modFl (fun f => { f with below := f.below.set 9 (some (4, 1)) })
    activeHub s = true ∧ portTowards s 9 = some 4 ∧ (s.fl.ports.get 4).queue.length < 256 ∧
    activeHub (withRole .relay readyState) = false := by decide +kernel
theorem witness_admit_frame : let s := readyState.modLg (fun g => { g with admitAsked := true, admitFrame := some 6 })
    s.lg.admitAsked = true ∧ s.lg.admitFrame = some 6 ∧ readyState.lg.admitAsked = false := by decide +kernel

/-- A coefficient bank of a feed-forward slot with a limit of 3000. -/
def ffBank : Coeffs := { kp := 0, ki := 0, kd := 0, tf := 0, kt := 0, uMin := 0, uMax := 3000 }
/-- Slot 4 as a GAIN slot of egress band path 5. -/
def gainSlot : Slot := { kind := some .gain, target := 5, bankA := some ffBank, bankB := some ffBank }
/-- Slot 6 as a LEVEL slot, running, with an injection. -/
def levelSlot : Slot := {
  kind := some .level, target := 7, run := .running, limitAt := some 8, reason := .overrun, onTime := 64, ovrRun := 2
  inj := some { atOutput := false, shape := 1, amp := 10, arg := 0, trace := none, count := 5, frame := none
                ticket := { opcode := 0x0707, tag := 1, mailbox := 1 } } }
/-- Slot 4 as a GAIN slot of egress band path 5, slot 6 as its LEVEL twin on RX.A0's attenuator. -/
def slotState : State := bandState.modCl (fun c => { c with slots := (c.slots.set 4 gainSlot).set 6 levelSlot })
/-- ControlCommandsConfigureSlots: ClSlotConfig is accepted. -/
theorem accepts_ClSlotConfig : Accepts specClSlotConfig (ask (le 2 9 ++ [2, 0] ++ le 2 5 ++ [0, 0] ++ le 4 3000 ++ le 4 0 ++ le 4 100))
    (bandState) :=
  ⟨⟨rfl, rfl, by decide +kernel, by decide +kernel⟩, by decide +kernel⟩
theorem accepts_ClSlotConfig_release : Accepts specClSlotConfig (ask (le 2 4 ++ zeroBytes 18)) slotState ∧
    slotKindOf 2 = some .gain := ⟨⟨⟨rfl, rfl, by decide +kernel, by decide +kernel⟩, by decide +kernel⟩, by decide +kernel⟩
/-- ControlCommandsConfigureSlots: ClBankWrite is accepted. -/
theorem accepts_ClBankWrite : Accepts specClBankWrite (ask (le 2 4 ++ [0, 0] ++ zeroBytes 20 ++ le 4 0 ++ le 4 3000))
    (slotState) :=
  ⟨⟨rfl, rfl, by decide +kernel, by decide +kernel⟩, by decide +kernel⟩
/-- ControlCommandsConfigureSlots: ClBankSwap is accepted. -/
theorem accepts_ClBankSwap : Accepts specClBankSwap (ask ([16] ++ zeroBytes 63 ++ [1, 0, 0, 0]))
    (slotState) :=
  ⟨⟨rfl, rfl, by decide +kernel, by decide +kernel⟩, by decide +kernel⟩
/-- ControlCommandsConfigureSlots: ClSetpoint is accepted. -/
theorem accepts_ClSetpoint : Accepts specClSetpoint (ask (le 2 4 ++ [0, 0] ++ le 4 2000 ++ le 4 0))
    (slotState) :=
  ⟨⟨rfl, rfl, by decide +kernel, by decide +kernel⟩, by decide +kernel⟩
/-- ControlCommandsConfigureSlots: ClSlotControl is accepted. -/
theorem accepts_ClSlotControl : Accepts specClSlotControl (ask (le 2 4 ++ [1, 0]))
    (slotState) :=
  ⟨⟨rfl, rfl, by decide +kernel, by decide +kernel⟩, by decide +kernel⟩
theorem accepts_ClSlotControl_off : Accepts specClSlotControl (ask (le 2 4 ++ [0, 0])) slotState :=
  ⟨⟨rfl, rfl, by decide +kernel, by decide +kernel⟩, by decide +kernel⟩
/-- ControlCommandsConfigureSlots: ClRepConfig is accepted. -/
theorem accepts_ClRepConfig : Accepts specClRepConfig (ask ([8, 0, 0, 0] ++ le 2 100 ++ le 2 10 ++ le 2 100 ++ le 2 20))
    ((dpdState.modRf (fun x => { x with obsMap := x.obsMap.set 0 (some 0) })).modAir (fun a => { a with patterns := a.patterns.mod 0 (fun x => { x with state := .asserted, defn := some onePattern }) })) :=
  ⟨⟨rfl, rfl, by decide +kernel, by decide +kernel⟩, by decide +kernel⟩
/-- ControlCommandsConfigureSlots: ClInject is accepted. -/
theorem accepts_ClInject : Accepts specClInject (ask (le 2 6 ++ [0, 0] ++ le 4 1 ++ le 2 0 ++ [0xFF, 0] ++ le 4 1 ++ le 4 0))
    (slotState) :=
  ⟨⟨rfl, rfl, by decide +kernel, by decide +kernel⟩, by decide +kernel⟩
theorem accepts_ClInject_start : Accepts specClInject (ask (le 2 6 ++ [0, 1] ++ le 4 1 ++ le 2 0 ++ [0xFF, 0] ++ le 4 1 ++ le 4 0))
    (slotState.modCl (fun c => { c with slots := c.slots.mod 6 (fun x => { x with inj := none }) })) :=
  ⟨⟨rfl, rfl, by decide +kernel, by decide +kernel⟩, by decide +kernel⟩
/-- ControlCommandsConfigureSlots: ClTraceConfig is accepted. -/
theorem accepts_ClTraceConfig : Accepts specClTraceConfig (ask ([0, 1] ++ le 2 4 ++ le 2 1 ++ le 2 0 ++ [0, 0, 0, 0]))
    (slotState) :=
  ⟨⟨rfl, rfl, by decide +kernel, by decide +kernel⟩, by decide +kernel⟩
/-- ControlCommandsConfigureSlots: ClTraceRead is accepted. -/
theorem accepts_ClTraceRead : Accepts specClTraceRead (ask ([0, 0] ++ le 2 0 ++ le 2 4 ++ [0, 0]))
    (slotState) :=
  ⟨⟨rfl, rfl, by decide +kernel, by decide +kernel⟩, by decide +kernel⟩
/-- ControlCommandsConfigureSlots: ClPolicy is accepted. -/
theorem accepts_ClPolicy : Accepts specClPolicy (ask (le 4 300 ++ le 2 4 ++ le 2 10 ++ le 2 64 ++ [0, 0]))
    (readyState) :=
  ⟨⟨rfl, rfl, by decide +kernel, by decide +kernel⟩, by decide +kernel⟩

/-- Hypotheses of ControlSlotsIterate. -/
theorem witness_turn : slotTurn slotState 6 = true ∧
    slotTurn (slotState.modCl (fun c => { c with slots := c.slots.set 2 { levelSlot with target := 9 } })) 6 = false := by
  decide +kernel
theorem witness_slots : slotEnabled (slotOf slotState 6) = true ∧ slotEnabled (slotOf slotState 4) = false ∧
    2 ≤ (slotOf slotState 6).ovrRun ∧ (slotOf slotState 6).reason = .overrun ∧ slotState.cl.resume ≤ (slotOf slotState 6).onTime ∧
    (slotOf slotState 6).limitAt = some 8 := by decide +kernel
theorem witness_injections : ((slotOf slotState 6).inj.map (fun j => j.started)) = some false ∧
    let x := slotState.modCl (fun c => { c with slots := c.slots.mod 6 (fun x => { x with inj := x.inj.map (fun j => { j with done := 5 }) }) })
    ((slotOf x 6).inj.map (fun j => decide (j.count ≤ j.done))) = some true := by decide +kernel
theorem witness_gain_held : let x := (slotState.modCl (fun c => { c with slots := c.slots.mod 4 (fun y => { y with run := .running }) })).modFault (fun f =>
      { f with paddock := [ebUnit 5] })
    slotEnabled (slotOf x 4) = true ∧ (slotOf x 4).kind = some .gain ∧ serviceCode x (actuated x (slotOf x 4)) ≠ 0 := by decide +kernel
theorem witness_rep : let x := (readyState.modCl (fun c => { c with reps := c.reps.mod 0 (fun r => { r with enabled := true, clear := true }) })).modAir (fun a =>
      { a with patterns := a.patterns.mod 0 (fun p => { p with state := .asserted, defn := some onePattern }) })
    repPattern x 0 = some onePattern ∧ (x.cl.reps.get 0).enabled = true ∧ (x.cl.reps.get 0).clear = true := by decide +kernel

/-- PowerStageCommandsConfigure: PaConfig is accepted. -/
theorem accepts_PaConfig : Accepts specPaConfig (ask ([0, 1, 0, 0] ++ le 4 1000 ++ le 2 0xFFFF ++ le 2 100 ++ le 4 500 ++ le 4 1000 ++ le 2 4 ++ [0, 0] ++ le 4 100))
    (readyState) :=
  ⟨⟨rfl, rfl, by decide +kernel, by decide +kernel⟩, by decide +kernel⟩
/-- PowerStageCommandsConfigure: PaTiming is accepted. -/
theorem accepts_PaTiming : Accepts specPaTiming (ask ([0, 0, 0, 0] ++ zeroBytes 48))
    (readyState) :=
  ⟨⟨rfl, rfl, by decide +kernel, by decide +kernel⟩, by decide +kernel⟩
/-- PowerStageCommandsConfigure: PaBiasTable is accepted. -/
theorem accepts_PaBiasTable : Accepts specPaBiasTable (ask ([0, 0] ++ zeroBytes 12))
    (readyState) :=
  ⟨⟨rfl, rfl, by decide +kernel, by decide +kernel⟩, by decide +kernel⟩
/-- PowerStageCommandsConfigure: CmpConfig is accepted. -/
theorem accepts_CmpConfig : Accepts specCmpConfig (ask ([0, 0, 0, 0] ++ (List.replicate 6 (le 4 0x80000000 ++ le 4 0x80000000 ++ zeroBytes 8)).flatten))
    (readyState.modPs (fun p => { p with cassettes := p.cassettes.mod 0 (fun x => { x with shunt := 1000 }) })) :=
  ⟨⟨rfl, rfl, by decide +kernel, by decide +kernel⟩, by decide +kernel⟩
/-- PowerStageCommandsConfigure: CmpMode is accepted. -/
theorem accepts_CmpMode : Accepts specCmpMode (ask (le 8 1 ++ [0, 0, 0, 0]))
    (readyState) :=
  ⟨⟨rfl, rfl, by decide +kernel, by decide +kernel⟩, by decide +kernel⟩
/-- Cassette 0 in a PA state. -/
def cassetteState (x : PaState) : State := bandState.modPs (fun p => { p with
  link := true, cassettes := p.cassettes.mod 0 (fun y => { y with pa := x, mode := 2, upEnd := 900, drainAt := 7 })
  cmps := (List.range 40).foldl (fun b c => b.mod c (fun y => { y with configured := true, qualified := true, trip := false })) p.cmps })
/-- PowerStageCommandsConfigure: PaEnable is accepted. -/
theorem accepts_PaEnable : Accepts specPaEnable (ask ([1, 1, 0, 0]))
    (cassetteState .pinched) :=
  ⟨⟨rfl, rfl, by decide +kernel, by decide +kernel⟩, by decide +kernel⟩
theorem accepts_PaEnable_off : Accepts specPaEnable (ask [1, 0, 0, 0]) (withChain 8 .ready (cassetteState .ready)) :=
  ⟨⟨rfl, rfl, by decide +kernel, by decide +kernel⟩, by decide +kernel⟩
/-- PowerStageCommandsConfigure: PaBiasCal is accepted. -/
theorem accepts_PaBiasCal : Accepts specPaBiasCal (ask ([0, 0, 0, 0]))
    (withChain 8 .ready (cassetteState .ready)) :=
  ⟨⟨rfl, rfl, by decide +kernel, by decide +kernel⟩, by decide +kernel⟩
/-- PowerStageCommandsConfigure: CasPolicy is accepted. -/
theorem accepts_CasPolicy : Accepts specCasPolicy (ask (le 4 100000 ++ [80, 1, 0, 0] ++ le 4 40000 ++ le 4 55000))
    (readyState) :=
  ⟨⟨rfl, rfl, by decide +kernel, by decide +kernel⟩, by decide +kernel⟩
/-- PowerStageCommandsConfigure: CasIdentityRead is accepted. -/
theorem accepts_CasIdentityRead : Accepts specCasIdentityRead (ask ([0, 0, 0, 0]))
    (cassetteState .pinched) :=
  ⟨⟨rfl, rfl, by decide +kernel, by decide +kernel⟩, by decide +kernel⟩

/-- Hypotheses of CassettesRunAndTrip. -/
theorem witness_cassette : (cas (cassetteState .drainUp) 0).pa = .drainUp ∧ (cas (cassetteState .draining) 0).pa = .draining ∧
    (cas (cassetteState .draining) 0).enabling = none ∧ (cas (cassetteState .draining) 0).lost = false ∧
    (cassetteState .ready).ps.link = true ∧ (cas (cassetteState .ready) 0).mode = 2 ∧ (cas readyState 0).mode ≠ 2 := by decide +kernel
theorem witness_cassette_waits : let s := (cassetteState .pinched).modPs (fun p => { p with
      cassettes := p.cassettes.mod 0 (fun y => { y with enabling := some ([], 5) }) })
    (cas s 0).enabling = some ([], 5) ∧ (cas s 0).pa = .pinched := by decide +kernel
theorem witness_edges : let s := (cassetteState .ready).modAir (fun a => { a with patterns := a.patterns.mod 0 (fun x =>
      { x with state := .asserted, defn := some onePattern }) })
    (nextEdge s 0 true).isSome = true ∧ (nextEdge s 0 false).isSome = true := by decide +kernel
theorem witness_comparators : let s := (cassetteState .ready).modPs (fun p => { p with
      cmps := (p.cmps.mod 1 (fun y => { y with trip := true, leftAt := some 6 })).mod 2 (fun y => { y with qualified := false }) })
    (s.ps.cmps.get 34).qualified = true ∧ (s.ps.cmps.get 34).trip = false ∧ (s.ps.cmps.get 1).trip = true ∧
    (s.ps.cmps.get 1).qualified = true ∧ (s.ps.cmps.get 1).raised = false ∧ (s.ps.cmps.get 2).qualified = false ∧
    opensDrain 3 = true ∧ ((cmpsOf 0).filterMap (fun m => (s.ps.cmps.get m).leftAt)).foldl max 0 = 5 + 1 ∧
    cmpBeyond s 34 2000000 = true ∧ cmpSafe s 1 0 = true ∧ cmpSafe s 2 0 = true := by decide +kernel

/-- Hypotheses of CassettesAreIdentifiedAndAged. -/
theorem witness_poll : (cas (cassetteState .pinched) 0).pa ≠ .absent ∧ (none : Option Nat) ≠ some (cas (cassetteState .pinched) 0).record.serial ∧
    (cas (cassetteState .ready) 0).pa ≠ .pinched ∧ some (cas (cassetteState .ready) 0).record.serial = some (cas (cassetteState .ready) 0).record.serial := by
  decide +kernel
/-- A valid identity record. -/
def goodRecord : List Byte :=
  let b := le 4 0x43415331 ++ le 2 1 ++ zeroBytes 26 ++ le 8 77 ++ le 4 500 ++ le 2 3000 ++ le 2 0 ++ le 4 1000 ++ le 4 3450 ++ zeroBytes 68
  b ++ le 4 (crc32c b).toNat
set_option maxRecDepth 200000 in
theorem witness_identify : readyState.sys.ready = true ∧ (cas readyState 0).pa = .absent ∧ (cas readyState 0).enabling = none ∧
    recordOfBytes [] = none ∧ (recordOfBytes goodRecord).map (fun r => (r.serial, r.idqTarget)) = some (77, 500) ∧
    readyState.sys.lifecycle = .provisioned := by decide +kernel
theorem witness_bias : let m := ((cassetteState .ready).modPs (fun p => { p with cassettes := p.cassettes.mod 0 (fun y =>
      { y with biasRun := some ⟨{ opcode := 0x0807, tag := 1, mailbox := 1 }, 0⟩, idq := 100 }) })).modCe (fun c => { c with eb := c.eb.set 5 none })
    (cas m 0).biasRun.map (fun r => casOpenedSince m 0 r.start) = some false ∧ casSilent m 0 = true ∧ (0 : Int) ≤ (idqOf (cas m 0) : Int) ∧
    (idqOf (cas m 0) : Int) ≤ 1000 := by decide +kernel

/-- HousekeepingCommandsComplete: HkSlotMap is accepted. -/
theorem accepts_HkSlotMap : Accepts specHkSlotMap (ask ([82, 2, 0, 0, 7, 9] ++ zeroBytes 42))
    (readyState) :=
  ⟨⟨rfl, rfl, by decide +kernel, by decide +kernel⟩, by decide +kernel⟩
/-- HousekeepingCommandsComplete: HkUrgent is accepted. -/
theorem accepts_HkUrgent : Accepts specHkUrgent (ask ([5, 0, 0, 0]))
    (readyState) :=
  ⟨⟨rfl, rfl, by decide +kernel, by decide +kernel⟩, by decide +kernel⟩
/-- An urgent request is pending. -/
def urgentState : State := readyState.modHk (fun h => { h with urgent := some (7, .trip 3), urgentUsed := 1, urgentRun := true })
theorem rejects_HkUrgent : Rejects specHkUrgent (ask [5, 0, 0, 0]) urgentState .eBusy 0 :=
  ⟨⟨rfl, rfl, by decide +kernel, by decide +kernel⟩, by decide +kernel⟩
/-- HousekeepingCommandsComplete: HkCalPoint is accepted. -/
theorem accepts_HkCalPoint : Accepts specHkCalPoint (ask ([78, 0] ++ le 2 16 ++ le 4 1000))
    (readyState) :=
  ⟨⟨rfl, rfl, by decide +kernel, by decide +kernel⟩, by decide +kernel⟩
/-- HousekeepingCommandsComplete: HkTestDac is accepted. -/
theorem accepts_HkTestDac : Accepts specHkTestDac (ask ([1, 0] ++ le 2 512))
    (readyState) :=
  ⟨⟨rfl, rfl, by decide +kernel, by decide +kernel⟩, by decide +kernel⟩
/-- HousekeepingCommandsComplete: HkSupplyWindow is accepted. -/
theorem accepts_HkSupplyWindow : Accepts specHkSupplyWindow (ask ([46, 4, 0, 0] ++ le 4 (supplyNominals.getD 0 0) ++ le 4 (supplyNominals.getD 0 0 + 1)))
    (readyState) :=
  ⟨⟨rfl, rfl, by decide +kernel, by decide +kernel⟩, by decide +kernel⟩
/-- HousekeepingCommandsComplete: HkThermalPolicy is accepted. -/
theorem accepts_HkThermalPolicy : Accepts specHkThermalPolicy (ask (le 2 10000 ++ le 2 11000 ++ le 2 50 ++ [0, 0]))
    (readyState) :=
  ⟨⟨rfl, rfl, by decide +kernel, by decide +kernel⟩, by decide +kernel⟩

/-- Hypotheses of HousekeepingRoundsMeasure. -/
theorem witness_hk_slots : hkPowered readyState = true ∧ readyState.hk.urgentRun = false ∧ readyState.hk.slot < 127 ∧
    hkPowered urgentState = true ∧ urgentState.hk.urgentRun = true ∧ urgentState.hk.urgent = some (7, .trip 3) := by decide +kernel
/-- All slots of the round have ended, and a calibration has its rounds. -/
def roundState : State := readyState.modHk (fun h => { h with
  slot := 128, calRun := some { channel := 78, point := 0, left := 0, value := 1000, sum := 5, count := 2, ticket := { opcode := 0x0903, tag := 1, mailbox := 1 } } })
theorem witness_hk_round : hkPowered roundState = true ∧ roundState.hk.urgentRun = false ∧ roundState.hk.slot = 128 ∧
    (roundState.hk.calRun.map (fun x => (x.left, x.point))) = some (0, 0) := by decide +kernel
theorem witness_hk_clock : failedClocks [122880, 0, 983040, 491520] = 2 ∧ failedClocks clockNominals = 0 ∧
    (List.range 4).any (fun k => (2 : Nat).testBit k && !readyState.hk.clocks.testBit k) = true := by
  decide +kernel

/-- The HELLO of a peer that is member 3, two hops from the hub. -/
def peerHello : Hello := { flockId := 5, serial := 9, member := some 3, hops := some 2, admitting := true, port := 2, lanes := 2 }
/-- Port 1 is UP to the hub through that peer on lane 2; port 3 serves member 20 below; lane 3 is penned. -/
def flockState : State := (withRole .relay readyState).modFl (fun f => { f with
  config := { f.config with flockId := some 5, joinEnabled := true }, primary := some 1, memberId := some 7, heldId := some 7
  state := .joined
  below := f.below.set 20 (some (3, 7, 100))
  members := f.members.set 20 (some { serial := 77, state := .joined, hops := 1, parent := 7 })
  ports := (f.ports.mod 1 (fun p => { p with
    config := { p.config with function := .up, bond := 2 }, peer := some peerHello, lanes := [2], t1 := some 0 })).mod 3 (fun p => { p with
      config := { p.config with function := .down, bond := 2 } })
  lanes := (f.lanes.mod 2 (fun l => { l with state := .up, wasUp := true, badRun := 2, serRun := 100 })).mod 3 (fun l => { l with
    state := .up, wasUp := true, prbs := some (1, 100) }) })
/-- FlockCommandsComplete: FlPortConfig is accepted. -/
theorem accepts_FlPortConfig : Accepts specFlPortConfig (ask ([5, 1, 2, 0] ++ le 4 0 ++ le 4 100))
    (flockState) :=
  ⟨⟨rfl, rfl, by decide +kernel, by decide +kernel⟩, by decide +kernel⟩
/-- FlockCommandsComplete: FlFlockConfig is accepted. -/
theorem accepts_FlFlockConfig : Accepts specFlFlockConfig (ask (le 4 5 ++ le 2 0xFFFF ++ [0, 8] ++ le 2 4 ++ le 2 4 ++ le 2 100 ++ le 2 16 ++ le 4 600 ++ le 4 60))
    (flockState.modFl (fun f => { f with state := .joinWait })) :=
  ⟨⟨rfl, rfl, by decide +kernel, by decide +kernel⟩, by decide +kernel⟩
/-- FlockCommandsComplete: FlJoin is accepted. -/
theorem accepts_FlJoin : Accepts specFlJoin (ask ([1, 0, 0, 0]))
    (flockState.modFl (fun f => { f with state := .refused })) :=
  ⟨⟨rfl, rfl, by decide +kernel, by decide +kernel⟩, by decide +kernel⟩
/-- FlockCommandsComplete: FlLeave is accepted. -/
theorem accepts_FlLeave : Accepts specFlLeave (ask (le 4 0))
    (flockState) :=
  ⟨⟨rfl, rfl, by decide +kernel, by decide +kernel⟩, by decide +kernel⟩
/-- FlockCommandsComplete: FlLaneControl is accepted. -/
theorem accepts_FlLaneControl : Accepts specFlLaneControl (ask ([2, 0, 0, 0]))
    (flockState) :=
  ⟨⟨rfl, rfl, by decide +kernel, by decide +kernel⟩, by decide +kernel⟩
theorem accepts_FlLaneControl_pen : Accepts specFlLaneControl (ask [2, 1, 0, 0]) flockState ∧
    Accepts specFlLaneControl (ask [2, 2, 0, 0]) flockState ∧ Accepts specFlLaneControl (ask [3, 4, 0, 0]) flockState :=
  ⟨⟨⟨rfl, rfl, by decide +kernel, by decide +kernel⟩, by decide +kernel⟩,
   ⟨⟨rfl, rfl, by decide +kernel, by decide +kernel⟩, by decide +kernel⟩,
   ⟨⟨rfl, rfl, by decide +kernel, by decide +kernel⟩, by decide +kernel⟩⟩
theorem accepts_FlLaneControl_test : Accepts specFlLaneControl (ask [3, 3, 0, 0])
    (flockState.modFault (fun f => { f with pens := [⟨laneUnit 3, .host⟩] })) :=
  ⟨⟨rfl, rfl, by decide +kernel, by decide +kernel⟩, by decide +kernel⟩
/-- FlockCommandsComplete: FlMemberQuery is accepted. -/
theorem accepts_FlMemberQuery : Accepts specFlMemberQuery (ask (le 2 20 ++ [0, 0]))
    (withRole .hub flockState) :=
  ⟨⟨rfl, rfl, by decide +kernel, by decide +kernel⟩, by decide +kernel⟩
theorem witness_hub_record : (hubRecord (withRole .hub flockState) 20).isSome = true ∧ hubRecord (withRole .hub flockState) 21 = none := by
  decide +kernel
/-- FlockCommandsComplete: FlExpel is accepted. -/
theorem accepts_FlExpel : Accepts specFlExpel (ask (le 2 20 ++ [0, 0] ++ le 4 60))
    (withRole .hub flockState) :=
  ⟨⟨rfl, rfl, by decide +kernel, by decide +kernel⟩, by decide +kernel⟩
theorem witness_expelled : ((withRole .hub flockState).fl.members.get 20).isSome = true := by decide +kernel

/-- Hypotheses of LanesTrainServeAndFail: lane 2 in one state. -/
def laneState (x : LaneState) : State := flockState.modFl (fun f => { f with
  lanes := f.lanes.mod 2 (fun l => { l with state := x, retrainAt := if x = .down then some 5 else none })
  ports := f.ports.mod 1 (fun y => { y with laneNext := some (4, [2, 3]), lanes := [2] }) })
theorem witness_lane : ((laneState .signalWait).fl.lanes.get 2).state = .signalWait ∧ ((laneState .signalWait).fl.lanes.get 2).retrainAt = none ∧
    ((laneState .training).fl.lanes.get 2).state = .training ∧
    ((laneState .training).fl.ports.get (portOfLane (laneState .training) 2)).mismatch = false ∧
    (laneState .training).air.mono ≤ ((laneState .training).fl.lanes.get 2).since + tcOfMs 50 ∧
    ((laneState .up).fl.lanes.get 2).state = .up ∧ 2 ≤ ((laneState .up).fl.lanes.get 2).badRun ∧
    ((laneState .down).fl.lanes.get 2).retrainAt = some 5 ∧ 100 ≤ ((laneState .up).fl.lanes.get 2).serRun ∧
    ((laneState .up).fl.ports.get 1).laneNext = some (4, [2, 3]) ∧ (laneState .up).sys.role ≠ .unset := by decide +kernel
theorem witness_lane_returns : (flockState.fl.lanes.get 3).state = .up ∧ (flockState.fl.lanes.get 3).wasUp = true ∧
    (flockState.fl.lanes.get 3).qualLeft = 0 ∧ (flockState.fl.lanes.get 3).offered = false ∧ laneHeld flockState 3 = false ∧
    3 ∉ (flockState.fl.ports.get (portOfLane flockState 3)).lanes := by decide +kernel
theorem witness_ports : portTrained flockState 1 = true ∧ portUp flockState 1 = true ∧ (flockState.fl.ports.get 1).queue.length < 256 ∧
    (flockState.fl.ports.get 1).t1 = some 0 ∧ flockState.fl.config.flockId = some peerHello.flockId ∧
    frameDistance flockState 0 = 0 ∧ frameDistance flockState 4 ≠ 0 ∧ (nowSixteenths flockState : Int) - 0 < 2 * tcPerMs * 16 := by
  decide +kernel

/-- Hypotheses of MembersJoinLeaveAndAreLost: a relay that may join, in a membership state. -/
def joiningState (x : MemberState) : State := (flockState.modFl (fun f => { f with
  state := x, leave := some (9, .expelled), grant := if x = .backoff then some (8, 7) else none })).modAir (fun a => { a with
    lock := .locked, source := srcFlock, acquired := true })
/-- The same with a flock key. -/
def keyedState (x : MemberState) : State := (joiningState x).modSys (fun y => { y with keys := { y.keys with flock := some [1] } })
theorem witness_joining : mayJoin (keyedState .timeQual) = true ∧ (keyedState .timeQual).fl.state = .timeQual ∧
    mayJoin (keyedState .joinWait) = true ∧ (keyedState .joinWait).fl.grant = none ∧ (keyedState .joinWait).fl.state = .joinWait ∧
    mayJoin (keyedState .backoff) = true ∧ mayJoin readyState = false ∧ State.reset.sys.ready = false ∧
    (keyedState .rehoming).fl.state = .rehoming := by decide +kernel
/-- A hub with member 20 below port 3 in an ID state, and a request that no refusal meets. -/
def hubState (x : IdState) : State := (withRole .hub (joiningState .joined)).modFl (fun f => { f with
  memberId := some 0, leave := none
  members := f.members.set 20 (some { serial := 77, state := x, hops := 1, parent := 0, admitAt := 6, leaveAt := some 9 }) })
/-- A request of a node with serial 5, three hops away. -/
def nodeRequest : JoinReq := { rejoin := false, role := 1, member := some 30, serial := 5, fw := 0, hops := 3, lifecycle := 1, parent := 20
                               nonce := 0, tag := 0 }
theorem witness_hub_admits : (hubState .granted).sys.ready = true ∧ ({ ttl := 63 } : FrameHeader).ttl ≠ 64 ∧
    (hubState .granted).air.acquired = true ∧ (hubState .granted).fl.admitNow < (hubState .granted).fl.config.admitLimit ∧
    activeHub (hubState .granted) = true ∧ hubRefusal (hubState .granted) nodeRequest = none ∧
    assignId (hubState .granted) nodeRequest = some 30 ∧ firstFrame (hubState .granted) (admissionFrames (hubState .granted)) = some 6 ∧
    ((hubState .joined).fl.members.get 20).map (fun x => x.state) = some .joined ∧
    ((Bank.find (hubState .granted).fl.members.cells 20).map (fun x => x.map (fun y => (y.state, y.admitAt)))) = some (some (.granted, 6)) ∧
    ((Bank.find (hubState .joined).fl.members.cells 20).map (fun x => x.map (fun y => y.state))) = some (some .joined) ∧
    ((hubState .heldLost).fl.members.get 20).map (fun x => x.state) = some .heldLost := by decide +kernel
theorem witness_admitted : let s := (keyedState .joinWait).modFl (fun f => { f with grant := some (8, 7) })
    firstFrame s (admissionFrames s) = some 8 ∧ s.fl.grant = some (8, 7) ∧ s.fl.state = .joinWait := by decide +kernel
theorem witness_leaving : let s := joiningState .leaving
    firstFrame s (leaveFrames s) = some 9 ∧ s.fl.leave = some (9, .expelled) ∧ ownMember s = 7 ∧ s.fl.memberId.isSome = true ∧
    s.sys.role ≠ .hub ∧ Bank.find s.fl.below.cells 20 = some (some (3, ownMember s, 100)) ∧ s.fl.primary = some 1 ∧
    (some 3 : Option Nat) = (s.fl.ports.get 1).peer.bind (fun y => y.member) := by decide +kernel

/-- A hub whose own ingress band path 3 is bound, with an intent and a flow descriptor. -/
def droverState : State := (withRole .hub bandState).modDv (fun d => { d with
  bindings := d.bindings.set 0 [⟨3, true, false, false, 0, 61440⟩], ownBinds := [⟨3, true, false, false, 0, 61440⟩]
  intents := d.intents.set 4 (some { uplink := false, flow := 1, homeBp := 3, protected_ := false, priority := 2, rate := 61440, ranges := [(0, 0, 1)] })
  desc := d.desc.set 16 { place := { kind := 1, consumer := true, localBp := 5, rate := 61440, out := 1 } } })
/-- DroverCommandsComplete: DvIntentSet is accepted. -/
theorem accepts_DvIntentSet : Accepts specDvIntentSet (ask (le 2 3 ++ [0, 0] ++ le 2 0 ++ [3, 0] ++ le 4 61440 ++ le 2 1 ++ le 2 0 ++ le 2 20 ++ le 2 30 ++ [1, 0, 0, 0]))
    (droverState) :=
  ⟨⟨rfl, rfl, by decide +kernel, by decide +kernel⟩, by decide +kernel⟩
/-- DroverCommandsComplete: DvIntentClear is accepted. -/
theorem accepts_DvIntentClear : Accepts specDvIntentClear (ask (le 2 4 ++ [0, 0]))
    (droverState) :=
  ⟨⟨rfl, rfl, by decide +kernel, by decide +kernel⟩, by decide +kernel⟩
/-- DroverCommandsComplete: DvPolicy is accepted. -/
theorem accepts_DvPolicy : Accepts specDvPolicy (ask ([1, 4, 0, 90] ++ le 4 491520 ++ le 4 1000 ++ le 4 0 ++ le 4 16))
    (droverState) :=
  ⟨⟨rfl, rfl, by decide +kernel, by decide +kernel⟩, by decide +kernel⟩
theorem witness_target_changes : policyTarget droverState ([1, 4, 0, 90] ++ le 4 491520 ++ le 4 1000 ++ le 4 0 ++ le 4 16) = 491520 ∧
    droverState.dv.targetTc ≠ 491520 := by decide +kernel
/-- DroverCommandsComplete: DvReplace is accepted. -/
theorem accepts_DvReplace : Accepts specDvReplace (ask ([1, 0, 0, 0]))
    (droverState) :=
  ⟨⟨rfl, rfl, by decide +kernel, by decide +kernel⟩, by decide +kernel⟩
/-- DroverCommandsComplete: DvFlowQuery is accepted. -/
theorem accepts_DvFlowQuery : Accepts specDvFlowQuery (ask (le 4 16))
    (droverState) :=
  ⟨⟨rfl, rfl, by decide +kernel, by decide +kernel⟩, by decide +kernel⟩
/-- DroverCommandsComplete: DvFlowControl is accepted. -/
theorem accepts_DvFlowControl : Accepts specDvFlowControl (ask (le 4 16 ++ [0, 0, 0, 0]))
    (droverState) :=
  ⟨⟨rfl, rfl, by decide +kernel, by decide +kernel⟩, by decide +kernel⟩
theorem accepts_DvFlowControl_all : Accepts specDvFlowControl (ask (le 4 16 ++ [2, 0, 0, 0])) droverState ∧
    Accepts specDvFlowControl (ask (le 4 16 ++ [3, 0, 0, 0])) droverState :=
  ⟨⟨⟨rfl, rfl, by decide +kernel, by decide +kernel⟩, by decide +kernel⟩,
   ⟨⟨rfl, rfl, by decide +kernel, by decide +kernel⟩, by decide +kernel⟩⟩

/-- A plan entry that makes flow 16 a consumer here. -/
def consumeEntry : PlanEntry := ⟨word0Of 16 { kind := 1, consumer := true }, 1, 32768, 5, 0, 100, 61440⟩
/-- The hub of `droverState` with an issued plan whose acknowledgement is out, a held plan, a drain and a delay that waits. -/
def planState : State := droverState.modDv (fun d => { d with
  trigger := true, held := [⟨3, 9, 245760, [consumeEntry], true, 0⟩], issued := [⟨3, 9, 245760, [], [], [20]⟩]
  drains := [(0, ⟨1, 0⟩)], targetNext := some (9, 491520) })
theorem witness_plans : activeHub planState = true ∧ planState.dv.trigger = true ∧ planState.dv.issued.length < 8 ∧
    ({} : FrameHeader).dest = ownMember planState ∧ planState.dv.held.find? (fun z => z.seq == 4) = none ∧
    (planState.dv.issued.find? (fun z => !z.waiting.isEmpty)).isSome = true ∧
    (nextPlan planState).map (fun x => (x.seq, x.entries)) = some (3, [consumeEntry]) ∧ (placementOf consumeEntry).kind ≠ 0 ∧
    (Bank.find planState.dv.desc.cells 16).map (fun d => d.plan) = some 0 ∧
    (placeFor planState 16 ⟨0, 5⟩).consumer = true ∧ (placeFor planState 16 ⟨0, 5⟩).sums = false ∧
    (placeFor planState 17 ⟨0, 5⟩).consumer = false := by decide +kernel
theorem witness_sums : let s := droverState.modDv (fun d => { d with desc := d.desc.set 17 { place := { kind := 2, sums := true } } })
    (placeFor s 17 ⟨0, 5⟩).kind = 2 ∧ (placeFor s 17 ⟨0, 5⟩).sums = true := by decide +kernel
theorem witness_flow_waits : let s := (droverState.modDv (fun d => { d with desc := d.desc.mod 16 (fun x => { x with cleanRun := 1000 }) })).modFault (fun f =>
      { f with paddock := [flowUnit 16] })
    inPaddock s (flowUnit 16) = true ∧ admissionWanted s = true ∧ s.lg.admitFrame = none ∧ s.lg.admitAsked = false ∧
    s.fl.memberId = none := by decide +kernel

/-- CAP_ARM of slot 2: RAW, chain 0, 1000 µs with 400 before the trigger. -/
def armPayload : List Byte := [2, 0, 3, 0] ++ le 4 1000 ++ le 4 400 ++ [1] ++ zeroBytes 15 ++ le 4 2 ++ le 4 0 ++ [0, 0, 0, 0, 2, 3, 0, 0] ++ le 4 0 ++ zeroBytes 16
/-- CaptureAndArchiveCommandsComplete: CapArm is accepted. -/
theorem accepts_CapArm : Accepts specCapArm (ask (armPayload))
    (bandState) :=
  ⟨⟨rfl, rfl, by decide +kernel, by decide +kernel⟩, by decide +kernel⟩
/-- Slot 2 in a capture state, an archive with one capture, and an extent of stack 1 in use by a capture that waits for it. -/
def captureState (x : CapState) : State := bandState.modMem (fun m => { m with
  slots := (m.slots.set 2 { state := x, extents := [52], triggers := 3, at_ := ⟨2, 0⟩, info := { lengthUs := 1000, preUs := 400 } }).set 3
    { extents := [384], arming := some { opcode := 0x0C01, tag := 1, mailbox := 1 } }
  enable := true, mounted := true, segments := 70
  index := [{ segment := 0, seq := 1, serial := 1, part := 0, parts := 1, trigMono := 5, trigWall := 6, epoch := 0, keep := false }] })
/-- CaptureAndArchiveCommandsComplete: CapTrigger is accepted. -/
theorem accepts_CapTrigger : Accepts specCapTrigger (ask (le 2 4 ++ [0, 0]))
    (captureState .armed) :=
  ⟨⟨rfl, rfl, by decide +kernel, by decide +kernel⟩, by decide +kernel⟩
theorem witness_armed : (4 : Nat).testBit 2 = true ∧ ((captureState .armed).mem.slots.get 2).state = .armed ∧
    ((captureState .armed).mem.slots.get 2).triggers.testBit 0 = true := by decide +kernel
/-- CaptureAndArchiveCommandsComplete: CapControl is accepted. -/
theorem accepts_CapControl : Accepts specCapControl (ask ([2, 1, 0, 0]))
    (captureState .triggered) :=
  ⟨⟨rfl, rfl, by decide +kernel, by decide +kernel⟩, by decide +kernel⟩
theorem accepts_CapControl_others : Accepts specCapControl (ask [2, 0, 0, 0]) (captureState .armed) ∧
    Accepts specCapControl (ask [2, 2, 0, 0]) (captureState .complete) ∧ Accepts specCapControl (ask [2, 3, 0, 0]) (captureState .complete) :=
  ⟨⟨⟨rfl, rfl, by decide +kernel, by decide +kernel⟩, by decide +kernel⟩,
   ⟨⟨rfl, rfl, by decide +kernel, by decide +kernel⟩, by decide +kernel⟩,
   ⟨⟨rfl, rfl, by decide +kernel, by decide +kernel⟩, by decide +kernel⟩⟩
/-- CaptureAndArchiveCommandsComplete: ArConfig is accepted. -/
theorem accepts_ArConfig : Accepts specArConfig (ask ([0, 0] ++ le 2 10))
    (captureState .complete) :=
  ⟨⟨rfl, rfl, by decide +kernel, by decide +kernel⟩, by decide +kernel⟩
/-- CaptureAndArchiveCommandsComplete: ArControl is accepted. -/
theorem accepts_ArControl : Accepts specArControl (ask ([3, 0, 0, 0] ++ le 4 1))
    (captureState .complete) :=
  ⟨⟨rfl, rfl, by decide +kernel, by decide +kernel⟩, by decide +kernel⟩
/-- CaptureAndArchiveCommandsComplete: ArRestore is accepted. -/
theorem accepts_ArRestore : Accepts specArRestore (ask (le 4 1 ++ [5, 0, 0, 0]))
    (captureState .complete) :=
  ⟨⟨rfl, rfl, by decide +kernel, by decide +kernel⟩, by decide +kernel⟩
/-- CaptureAndArchiveCommandsComplete: MemRetireClear is accepted. -/
theorem accepts_MemRetireClear : Accepts specMemRetireClear (ask ([]))
    (readyState) :=
  ⟨⟨rfl, rfl, by decide +kernel, by decide +kernel⟩, by decide +kernel⟩

/-- The archive with an operation, a restore into slot 5, and a drain of slot 2 in progress. -/
def archiveState (a : Nat) : State := (captureState .draining).modMem (fun m => { m with
  ops := [⟨a, 1, { opcode := 0x0C11, tag := 1, mailbox := 1 }⟩], restores := [(1, 5, { opcode := 0x0C12, tag := 2, mailbox := 1 })]
  draining := some (2, 7, [1, 2]), powering := some 9, remapDue := [3], extents := m.extents.set 60 { errors := List.replicate 15 5 } })
theorem witness_captures : ((captureState .armed).mem.slots.get 2).state = .armed ∧
    ((captureState .armed).mem.slots.get 2).triggers.testBit 1 = true ∧ ((captureState .triggered).mem.slots.get 2).state = .triggered ∧
    (archiveState 0).mem.draining = some (2, 7, [1, 2]) ∧ (archiveState 0).mem.powering = some 9 ∧
    ((archiveState 0).mem.slots.get 3).arming ≠ none ∧ stack1Used readyState.mem = false ∧
    (archiveState 0).mem.remapDue = [3] ∧ ((freeExtents (archiveState 0).mem).head?).isSome = true ∧
    ((archiveState 0).mem.slots.get 5).extents.all (fun x => stackPowered (archiveState 0).mem x) = true := by decide +kernel
theorem witness_errors : stackPowered (archiveState 0).mem 60 = true ∧ stackPowered (archiveState 0).mem 400 = false ∧
    15 ≤ (((archiveState 0).mem.extents.get 60).errors.filter (fun x => decide ((archiveState 0).air.mono < x + tcOfS 86400))).length ∧
    regionAt (archiveState 0).mem 52 = .capture ∧
    (Bank.find (archiveState 0).mem.slots.cells 2).map (fun c => c.extents.contains 52) = some true := by decide +kernel
theorem witness_mount : let d : ArchiveDevice := { bytes := 137438953472, block := 512, gen := 3, width := 4, copyA := some [], copyB := none, images := [] }
    namespaceOk d = true ∧ mountIndex d = some [] ∧ (archiveState 4).mem.ops.map (fun o => o.action) = [4] := by decide +kernel

/-- BELL_CONFIG of a hub at 868 MHz for keepers. -/
def bellPayload : List Byte := le 8 868000000 ++ [0, 0, 1, 0xFF, 2, 1] ++ le 2 600 ++ le 2 45875 ++ le 2 2000 ++ le 4 5 ++ [0xE4, 0xDA, 0xFF, 0xFF] ++ [1, 8, 0, 0]
/-- BellCommandsComplete: BellConfig is accepted. -/
theorem accepts_BellConfig : Accepts specBellConfig (ask (bellPayload))
    (readyState) :=
  ⟨⟨rfl, rfl, by decide +kernel, by decide +kernel⟩, by decide +kernel⟩
/-- The link configured by that payload, in a receiver state. -/
def bellState (x : BellRx) : State := readyState.modBell (fun b => { b with
  config := { bellConfigOf bellPayload with chainRate := some 2 }, configured := true, rx := x, enabled := true })
/-- BellCommandsComplete: BellEnable is accepted. -/
theorem accepts_BellEnable : Accepts specBellEnable (ask ([1, 0, 0, 0]))
    (bellState .off) :=
  ⟨⟨rfl, rfl, by decide +kernel, by decide +kernel⟩, by decide +kernel⟩
theorem accepts_BellEnable_off : Accepts specBellEnable (ask [0, 0, 0, 0]) (bellState .search) ∧ (bellState .search).bell.sending = none ∧
    (bellState .off).bell.rx = .off := ⟨⟨⟨rfl, rfl, by decide +kernel, by decide +kernel⟩, by decide +kernel⟩, by decide +kernel⟩
/-- A response on the air. -/
def heldResponse : BellTx := { header := { kind := 1, twoThirds := false, length := 24, seq := 1 }, rate := 1, content := .response [], start := 5 }
/-- A chain packet to member 3. -/
def chainTx : BellTx := { header := { kind := 2, twoThirds := false, length := 8, seq := 2 }, rate := 2
                          content := .chain { src := 0, dst := some 3, kind := 1, hops := none } }
theorem accepts_BellEnable_sending : Accepts specBellEnable (ask [0, 0, 0, 0])
    ((bellState .transmit).modBell (fun b => { b with sending := some (heldResponse, 5, 9) })) :=
  ⟨⟨rfl, rfl, by decide +kernel, by decide +kernel⟩, by decide +kernel⟩
/-- BellCommandsComplete: KeeperKey is accepted. -/
theorem accepts_KeeperKey : Accepts specKeeperKey (ask (le 2 7 ++ [1, 1] ++ zeroBytes 32))
    (readyState) :=
  ⟨⟨rfl, rfl, by decide +kernel, by decide +kernel⟩, by decide +kernel⟩
theorem accepts_KeeperKey_delete : Accepts specKeeperKey (ask (le 2 7 ++ [0, 0] ++ zeroBytes 32))
    (readyState.modBell (fun b => { b with keys := [{ id := 7, role := .operate, key := [1] }] })) :=
  ⟨⟨rfl, rfl, by decide +kernel, by decide +kernel⟩, by decide +kernel⟩
/-- BellCommandsComplete: BellChainConfig is accepted. -/
theorem accepts_BellChainConfig : Accepts specBellChainConfig (ask ([1, 0] ++ le 2 1000 ++ le 2 1000 ++ [3, 0]))
    (readyState) :=
  ⟨⟨rfl, rfl, by decide +kernel, by decide +kernel⟩, by decide +kernel⟩

/-- A sync of a keeper's rate 1. -/
def keeperSync : SyncInput := {
  rate := 1, keeper := true, level := -8000
  soft := (syncWord (bellState .search) true).map (fun b => if b then 1000 else -1000) }
/-- A reception under way on that sync. -/
def receiving (x : BellRx) (h : Option BellHeader) : State := (bellState x).modBell (fun b => { b with
  reception := some { sync := keeperSync, at_ := 3, header := h }, agcFrozen := true, locked := [(9, 700)] })
theorem witness_receiver : syncDetected (bellState .search) keeperSync = true ∧ (bellState .search).bell.rx = .search ∧
    syncDetected readyState keeperSync = false ∧ headerOf 160 = some { kind := 0, twoThirds := false, length := 20, seq := 0 } ∧
    headerFits true { kind := 0, twoThirds := false, length := 20, seq := 0 } = true ∧ crc16 (le 4 160) ≠ crc16 (le 4 160) + 1 ∧
    (receiving .header none).bell.rx = .header ∧ (receiving .header none).bell.agcFrozen = true ∧
    (receiving .payload none).bell.rx = .payload ∧ bodyOk { kind := 2, twoThirds := false, length := 8, seq := 0 } (.chain true { src := 3, dst := none, kind := 0, hops := none }) = true ∧
    (receiving .search none).bell.locked.find? (fun z => z.1 == 9) = some (9, 700) := by decide +kernel
/-- A keeper's DISCOVER request: its payload up to the tag, and with the tag. -/
def discoverBody : List Byte := le 2 7 ++ le 4 5 ++ le 4 0 ++ [0, 0]
/-- The header of that request. -/
def discoverHeader : BellHeader := { kind := 0, twoThirds := false, length := 20, seq := 0 }
/-- The request with the tag that the key [1] gives. -/
def discoverPayload : List Byte := discoverBody ++ le 8 (keeperTag [1] discoverHeader discoverBody)
/-- The request has arrived, with its keeper's key installed or not. -/
def keeperState (l : List KeeperKey) : State := (bellState .search).modBell (fun b => { b with
  keys := l, arrivals := [{ header := discoverHeader, level := -8000, rate := 1, end_ := 3, body := .keeper true discoverPayload 0 }] })
theorem witness_keeper_unknown : keeperTarget discoverPayload = true ∧ u16 discoverPayload 0 = 7 ∧ u8 discoverPayload 10 ≤ 2 ∧
    (keeperState []).bell.locked.any (fun z => z.1 == 7) = false ∧ (keeperState []).bell.keys.find? (fun z => z.id == 7) = none :=
  ⟨rfl, rfl, by decide +kernel, rfl, rfl⟩
theorem witness_keeper_known : (keeperState [{ id := 7, role := .operate, key := [1] }]).bell.keys.find? (fun z => z.id == 7) =
      some { id := 7, role := .operate, key := [1] } ∧
    keeperFault (keeperState [{ id := 7, role := .operate, key := [1] }]) discoverHeader discoverPayload = none := by
  have h : keeperTag [1] discoverHeader discoverBody < 2 ^ 64 := Nat.mod_lt _ (by decide)
  have e : uN discoverPayload 12 8 = keeperTag [1] discoverHeader discoverBody := by
    unfold discoverPayload
    generalize keeperTag [1] discoverHeader discoverBody = n at h
    show (BitVec.ofNat 8 (n / 256 ^ 0)).toNat + 256 * ((BitVec.ofNat 8 (n / 256 ^ 1)).toNat + 256 * ((BitVec.ofNat 8 (n / 256 ^ 2)).toNat +
      256 * ((BitVec.ofNat 8 (n / 256 ^ 3)).toNat + 256 * ((BitVec.ofNat 8 (n / 256 ^ 4)).toNat + 256 * ((BitVec.ofNat 8 (n / 256 ^ 5)).toNat +
      256 * ((BitVec.ofNat 8 (n / 256 ^ 6)).toNat + 256 * ((BitVec.ofNat 8 (n / 256 ^ 7)).toNat + 256 * 0))))))) = n
    simp only [BitVec.toNat_ofNat]
    omega
  refine ⟨rfl, ?_⟩
  have f : keeperFault (keeperState [{ id := 7, role := .operate, key := [1] }]) discoverHeader discoverPayload =
      if 20 < 20 ∨ uN discoverPayload 12 8 ≠ keeperTag [1] discoverHeader discoverBody then some 1
      else if 5 ≤ 0 then some 2 else none := rfl
  rw [f, e]
  simp
theorem witness_chain : let s := ((bellState .search).modFl (fun f => { f with config := { f.config with flockId := some 5 } })).modBell (fun b =>
      { b with arrivals := [{ header := { kind := 2, twoThirds := false, length := 8, seq := 0 }, level := -8000, rate := 2, end_ := 3
                              body := .chain true { src := 3, dst := none, kind := 0, hops := none } }] })
    chainOn s = true ∧ (s.bell.arrivals.find? (fun z => z.header.kind == 2)).isSome = true := by decide +kernel

/-- The link in SEARCH with SYN.BELL locked, a response that is due or a chain packet that waits for a clear channel. -/
def sendingState (q : List BellTx) : State := ((bellState .search).modBell (fun b => { b with
  queue := q, sending := none, awaiting := some (chainTx, 9), resumeAt := some 4, neighbours := [{ member := 3, hops := some 2, level := -8000, heard := 1 }] })).modRf (fun x =>
    { x with bellLocked := true, bellCal := true, bellDue := true })
theorem witness_sending : let s := sendingState [{ heldResponse with start := 0 }]
    let c := sendingState [chainTx]
    let w := sendingState [{ chainTx with ccaUntil := some 6 }]
    txFree s = true ∧ (nextToSend s).map isResponse = some true ∧ txFree c = true ∧ nextToSend c = some chainTx ∧ isResponse chainTx = false ∧
    chainTx.attempts < 7 ∧ txFree readyState = false ∧ w.bell.queue.find? (fun z => !isResponse z) = some { chainTx with ccaUntil := some 6 } ∧
    maySend w true = true ∧ s.bell.queue.find? (fun z => isResponse z && z.waiting.isNone) = some { heldResponse with start := 0 } ∧
    nextDue (sendingState [heldResponse]) = some (heldResponse, 5) ∧ heldResponse.waiting = none := by decide +kernel
theorem witness_link : let s := sendingState []
    s.bell.rx = .search ∧ s.bell.queue = [] ∧ bellCalDue s = true ∧ readyState.bell.rx ≠ .search ∧ s.rf.bellCal = true ∧
    s.bell.resumeAt = some 4 ∧ chainOn readyState = false ∧ s.bell.awaiting = some (chainTx, 9) ∧
    chainTx.resends < s.bell.chain.retries ∧ (s.bell.neighbours.find? (fun z => z.member == 3)).isSome = true := by decide +kernel
theorem witness_on_air : ((bellState .transmit).modBell (fun b => { b with sending := some (heldResponse, 5, 9) })).bell.sending =
    some (heldResponse, 5, 9) := rfl

/-- ClassConfigTouchesOnlyLaterRaises: FaultClassConfig is accepted. -/
theorem accepts_FaultClassConfig : Accepts specFaultClassConfig (ask ([0x10, 3, 4, 1]))
    (readyState) :=
  ⟨⟨rfl, rfl, by decide +kernel, by decide +kernel⟩, by decide +kernel⟩

/-- An entry of TX_IMAGE's class on TX.A0. -/
def chainEntry (active : Bool) (sev : Nat) : FaultEntry := {
  cls := 0x12, unit := chainUnit 8, severity := sev, active := active, acked := false, reaction := true, escalated := false
  injected := false, firstSeq := 1, lastSeq := 1, raises := 1, firstTime := 5, lastTime := 5, handle := 1 }
/-- That entry is in the table, a HALT is in force, and a host pen stands on RX.A0. -/
def faultedState (active : Bool) (sev : Nat) : State := bandState.modFault (fun f => { f with
  entries := [chainEntry active sev], halt := some (1, 5), pens := [⟨chainUnit 0, .host⟩], handles := 1 })
/-- FaultCommandsComplete: FaultPolicy is accepted. -/
theorem accepts_FaultPolicy : Accepts specFaultPolicy (ask ([3, 2, 0, 0]))
    (readyState) :=
  ⟨⟨rfl, rfl, by decide +kernel, by decide +kernel⟩, by decide +kernel⟩
/-- FaultCommandsComplete: FaultAck is accepted. -/
theorem accepts_FaultAck : Accepts specFaultAck (ask ([0, 0, 0, 0] ++ le 4 1))
    (faultedState true 2) :=
  ⟨⟨rfl, rfl, by decide +kernel, by decide +kernel⟩, by decide +kernel⟩
theorem accepts_FaultAck_others : Accepts specFaultAck (ask ([1, 0x12, 0, 0] ++ le 4 0)) (faultedState true 2) ∧
    Accepts specFaultAck (ask ([2, 0, 0, 0] ++ le 4 0)) (faultedState true 2) :=
  ⟨⟨⟨rfl, rfl, by decide +kernel, by decide +kernel⟩, by decide +kernel⟩,
   ⟨⟨rfl, rfl, by decide +kernel, by decide +kernel⟩, by decide +kernel⟩⟩
/-- FaultCommandsComplete: FaultUnitPen is accepted. -/
theorem accepts_FaultUnitPen : Accepts specFaultUnitPen (ask (le 4 (unitCode (chainUnit 8))))
    (bandState) :=
  ⟨⟨rfl, rfl, by decide +kernel, by decide +kernel⟩, by decide +kernel⟩
/-- FaultCommandsComplete: FaultUnitRelease is accepted. -/
theorem accepts_FaultUnitRelease : Accepts specFaultUnitRelease (ask (le 4 (unitCode (chainUnit 0))))
    (faultedState true 2) :=
  ⟨⟨rfl, rfl, by decide +kernel, by decide +kernel⟩, by decide +kernel⟩
theorem witness_units : existingUnit bandState (u32 (le 4 (unitCode (chainUnit 8))) 0) = some (chainUnit 8) ∧
    existingUnit (faultedState true 2) (u32 (le 4 (unitCode (chainUnit 0))) 0) = some (chainUnit 0) ∧
    existingUnit readyState (u32 ([0x12, 0, 0, 0] ++ le 4 (unitCode (chainUnit 8))) 4) = some (chainUnit 8) := by decide +kernel
/-- FaultCommandsComplete: FaultHaltRelease is accepted. -/
theorem accepts_FaultHaltRelease : Accepts specFaultHaltRelease (ask (le 4 0))
    (faultedState false 4) :=
  ⟨⟨rfl, rfl, by decide +kernel, by decide +kernel⟩, by decide +kernel⟩
/-- FaultCommandsComplete: FaultFfClear is accepted. -/
theorem accepts_FaultFfClear : Accepts specFaultFfClear (ask ([]))
    (readyState) :=
  ⟨⟨rfl, rfl, by decide +kernel, by decide +kernel⟩, by decide +kernel⟩
/-- FaultCommandsComplete: FaultInject is accepted. -/
theorem accepts_FaultInject : Accepts specFaultInject (ask ([0x12, 0, 0, 0] ++ le 4 (unitCode (chainUnit 8))))
    (readyState) :=
  ⟨⟨rfl, rfl, by decide +kernel, by decide +kernel⟩, by decide +kernel⟩
/-- FaultCommandsComplete: FaultTableRead is accepted. -/
theorem accepts_FaultTableRead : Accepts specFaultTableRead (ask (le 2 0 ++ le 2 4))
    (faultedState true 2) :=
  ⟨⟨rfl, rfl, by decide +kernel, by decide +kernel⟩, by decide +kernel⟩

/-- A raise of TX_IMAGE's class on TX.A0. -/
def chainRaise : Raise := { cls := 0x12, unit := chainUnit 8 }
/-- Reactions that wait and are complete, a window that closes, and a HALT about to be released. -/
def reactingState (started : Option Nat) : State := bandState.modFault (fun f => { f with
  reactions := [{ order := 3, cls := 0x12, unit := chainUnit 8, severity := 2, seq := 1, cycle := 0, handle := none, startedAt := started, detail4 := 0, detail5 := 0 }]
  windows := [{ parent := 1, mask := 1, cycle := 0, order := 3, closeAt := some 9, count := 1, raised := [chainRaise] }]
  halt := some (1, 5), haltRelease := some 6 })
theorem witness_collector : readyState.sys.power ≠ .dormant ∧ (bandState.modFault (fun f => { f with latched := [.raise chainRaise] })).fault.latched = [.raise chainRaise] ∧
    chainRaise.cycle ≤ cycleNow readyState ∧ readyState.log.submissions = [] ∧ maskedClasses.contains chainRaise.cls = false ∧
    entryOf readyState.fault 0x12 (chainUnit 8) = none ∧ entryOf (faultedState true 2).fault 0x12 (chainUnit 8) = some (chainEntry true 2) ∧
    chainRaise.fixed = none := by decide +kernel
theorem witness_reactions : ((reactingState none).fault.reactions.find? (fun y => y.startedAt.isNone)).map (fun y => (y.order, y.handle)) = some (3, none) ∧
    ((reactingState (some 5)).fault.reactions.find? (reactionDone (reactingState (some 5)))).map (fun y => y.order) = some 3 ∧
    ((reactingState none).fault.windows.map (fun y => y.closeAt)) = [some 9] ∧ (reactingState none).fault.haltRelease = some 6 := by
  decide +kernel

/-- LogbookCommandsComplete: LogMode is accepted. -/
theorem accepts_LogMode : Accepts specLogMode (ask ([1, 4, 0, 0] ++ le 4 10000))
    (readyState) :=
  ⟨⟨rfl, rfl, by decide +kernel, by decide +kernel⟩, by decide +kernel⟩
/-- LogbookCommandsComplete: LogRead is accepted. -/
theorem accepts_LogRead : Accepts specLogRead (ask (le 4 1 ++ [3, 0, 0, 0]))
    (readyState) :=
  ⟨⟨rfl, rfl, by decide +kernel, by decide +kernel⟩, by decide +kernel⟩
/-- LogbookCommandsComplete: LogClear is accepted. -/
theorem accepts_LogClear : Accepts specLogClear (ask ([]))
    (readyState) :=
  ⟨⟨rfl, rfl, by decide +kernel, by decide +kernel⟩, by decide +kernel⟩
/-- LogbookCommandsComplete: LogMediaReset is accepted. -/
theorem accepts_LogMediaReset : Accepts specLogMediaReset (ask ([1, 0, 0, 0]))
    (readyState) :=
  ⟨⟨rfl, rfl, by decide +kernel, by decide +kernel⟩, by decide +kernel⟩
/-- LogbookCommandsComplete: LogWrite is accepted. -/
theorem accepts_LogWrite : Accepts specLogWrite (ask (le 2 0xF001 ++ [1, 0] ++ zeroBytes 24))
    (readyState) :=
  ⟨⟨rfl, rfl, by decide +kernel, by decide +kernel⟩, by decide +kernel⟩
/-- A LOG_SEAL is the newest record of bank A. -/
def sealedState : State := readyState.modLog (fun l => { l with
  head := 1024, bankA := { records := [{ seq := 1024, code := 0x0105, mono := 0, wall := 0, source := 0, params := params6 [] }] } })
/-- LogbookCommandsComplete: LogVerify is accepted. -/
theorem accepts_LogVerify : Accepts specLogVerify (ask (le 4 1024 ++ le 4 1024 ++ [0, 0, 0, 0]))
    (sealedState) :=
  ⟨⟨rfl, rfl, by decide +kernel, by decide +kernel⟩, by decide +kernel⟩
theorem witness_log_write : readyState.log.mediaWait = false ∧ readyState.log.submissions = [] ∧ readyState.log.full = false ∧ 1 < ordinaryRoom readyState.log ∧
    nextSeq readyState.log.head % 1024 ≠ 0 ∧ (heldRecords readyState.log).head? = none ∧ readyState.log.ig = false ∧
    u16 (le 2 0xF001 ++ [1, 0] ++ zeroBytes 24) 0 = 0xF001 := by decide +kernel

/-- A LOG_MODE record, the newest one held, and its submission again. -/
def heldRecord (seq : Nat) : Record := { seq := seq, code := 0xF001, mono := 0, wall := 0, source := sourceIndex 10 0, params := params6 [] }
/-- The submission that equals that record. -/
def repeatOf : Submission := { code := 0xF001, source := sourceIndex 10 0, params := params6 [], mono := 7 }
/-- One record held, submissions waiting. -/
def loggedState (sub : List Submission) : State := readyState.modLog (fun l => { l with
  head := 1, bankA := { records := [heldRecord 1] }, submissions := sub, unmirrored := [1], clearing := some { opcode := 0x0F03, tag := 1, mailbox := 1 }
  mediaReset := [(0, { opcode := 0x0F04, tag := 1, mailbox := 1 })], verifying := [(1024, 1024, 0, { opcode := 0x0F06, tag := 1, mailbox := 1 })] })
theorem witness_log_writer : (loggedState [repeatOf]).log.mediaWait = false ∧ (loggedState [repeatOf]).log.submissions = repeatOf :: [] ∧
    heldRecords (loggedState [repeatOf]).log = heldRecord 1 :: [] ∧ mergesInto repeatOf (heldRecord 1) = true ∧
    mergesInto { repeatOf with code := 0xF002 } (heldRecord 1) = false ∧ 0 < ordinaryRoom (loggedState []).log ∧
    nextSeq (loggedState []).log.head % 1024 ≠ 0 ∧ (loggedState []).log.full = false ∧ (loggedState []).log.ig = false ∧
    ((loggedState [repeatOf]).modLog (fun l => { l with full := true })).log.full = true := by decide +kernel
theorem witness_log_media : (loggedState []).log.submissions = [] ∧ readyState.log.unmirrored = [] ∧
    (loggedState []).log.unmirrored = 1 :: [] ∧ findRecord (servedRecords (loggedState []).log) 1 = some (heldRecord 1) ∧
    (loggedState []).log.active = some .bankA ∧ (loggedState []).log.bankA.failed = false ∧ (loggedState []).log.clearing.isSome = true ∧
    (loggedState []).log.mediaReset.map (fun z => z.1) = [0] ∧ (loggedState []).log.verifying.length = 1 := by decide +kernel

/-- SystemCommandsComplete: SysNop is accepted. -/
theorem accepts_SysNop : Accepts specSysNop (ask ([1, 2, 3]))
    (readyState) :=
  ⟨⟨rfl, rfl, by decide +kernel, by decide +kernel⟩, by decide +kernel⟩
theorem accepts_SysSessionOpen : Accepts specSysSessionOpen { ask ([1, 0, 0, 0] ++ zeroBytes 32) with session := 0 }
    (readyState.modSys (fun y => { y with lifecycle := .blank })) ∧ readyState.host.usedSessions.length < 0xFFFF_FFFE :=
  ⟨⟨⟨rfl, rfl, by decide +kernel, by decide +kernel⟩, by decide +kernel⟩, by decide +kernel⟩
/-- SystemCommandsComplete: SysSessionClose is accepted. -/
theorem accepts_SysSessionClose : Accepts specSysSessionClose (ask ([0, 0, 0, 0]))
    (readyState) :=
  ⟨⟨rfl, rfl, by decide +kernel, by decide +kernel⟩, by decide +kernel⟩
/-- SystemCommandsComplete: SysHostConfig is accepted. -/
theorem accepts_SysHostConfig : Accepts specSysHostConfig (ask (zeroBytes 16 ++ le 4 600 ++ [0x58, 0, 0, 0]))
    (readyState) :=
  ⟨⟨rfl, rfl, by decide +kernel, by decide +kernel⟩, by decide +kernel⟩
/-- SystemCommandsComplete: SysNetConfig is accepted. -/
theorem accepts_SysNetConfig : Accepts specSysNetConfig (ask ([0, 0, 0, 0] ++ le 4 0x0A000002 ++ le 4 0xFF000000 ++ zeroBytes 4 ++ le 2 7216 ++ zeroBytes 6))
    (readyState) :=
  ⟨⟨rfl, rfl, by decide +kernel, by decide +kernel⟩, by decide +kernel⟩
/-- SystemCommandsComplete: SysSiteConfig is accepted. -/
theorem accepts_SysSiteConfig : Accepts specSysSiteConfig (ask (List.replicate 16 20 ++ [0xFF, 0xFF] ++ zeroBytes 6))
    (readyState) :=
  ⟨⟨rfl, rfl, by decide +kernel, by decide +kernel⟩, by decide +kernel⟩

/-- The Ethernet path answers; mailbox 2 is its own and stands as given. -/
def ethState (m : Mailbox) : State := readyState.modHost (fun h => { h with
  ethUp := true, paths := h.paths.set 1 { up := true, lockedUntil := some 5 }
  config := { h.config with paths := h.config.paths.set 2 .ethernet }, mailboxes := h.mailboxes.set 2 m })
theorem witness_eth : let d : EthDatagram := { kind := 0, mailbox := 2, xid := 9 }
    pathAnswers (ethState {}) .ethernet = true ∧ datagramOk d = true ∧ d.session = 0 ∧ d.mailbox < 16 ∧
    (ethState {}).host.config.paths.get 2 = .ethernet ∧ ((ethState {}).host.mailboxes.get 2).state = .idle ∧
    ((ethState {}).host.mailboxes.get 2).xid ≠ some 9 ∧
    ((ethState { state := .done, xid := some 9 }).host.mailboxes.get 2).xid = some d.xid ∧
    ((ethState { state := .running, xid := some 9 }).host.mailboxes.get 2).state = .running := by decide +kernel

/-- The PCIe path answers; mailbox 1 holds a command whose turn has come. -/
def pcieState (opcode : Nat) : State := readyState.modHost (fun h => { h with
  paths := h.paths.set 0 { up := true }, order := [1], irqStatus := 0xFFFFFFFF, siteRise := 0xFFFF
  mailboxes := h.mailboxes.set 1 { state := .pending, captured := some { opcode := opcode, request := ask [7] } } })
theorem witness_registers : pathAnswers (pcieState 0x0100) .pcie = true ∧ pathAnswers readyState .spi = false ∧
    doorbellAccepted (pcieState 0x0100).host 2 .pcie = true ∧ doorbellAccepted (pcieState 0x0100).host 1 .pcie = false ∧
    (pcieState 0x0100).sys.ready = true ∧ (pcieState 0x0100).host.order = 1 :: [] ∧ (pcieState 0x0100).sys.power ≠ .dormant ∧
    ((pcieState 0x0100).host.mailboxes.get 1).captured = some { opcode := 0x0100, request := ask [7] } ∧
    ((pcieState 0x0100).host.mailboxes.get 1).discard = false ∧ (ask [7]).mailbox = 1 ∧ (ask [7]).flags >>> 1 = 0 ∧
    (pcieState 0x0100).host.config.paths.get 1 = .pcie ∧ ((pcieState 0x0100).host.msixTable.get 3).control.testBit 0 = true ∧
    (((pcieState 0x0100).modHost (fun h => { h with msixTable := h.msixTable.set 3 { control := 0 } })).host.msixTable.get 3).control.testBit 0 = false := by decide +kernel
theorem witness_unassigned : commandSpec 0x0999 = none := by decide +kernel
theorem witness_low_half : ∃ v tag, regAt .pcie (pcieState 0x0100) 0x10 = .low v tag := ⟨Config.serial.toNat, 0, rfl⟩

/-- All three paths answer, an event is unacknowledged, a mailbox of PCIe is as given, and site inputs run. -/
def pathsState (m : MailboxState) : State := (ethState {}).modHost (fun h => { h with
  paths := (h.paths.set 0 { up := true }).set 2 { up := true }, evtHead := 1, holdStart := some 3
  mailboxes := h.mailboxes.set 4 { state := m }, site := { h.site with enable := 3 }, siteFresh := 1, siteRun := h.siteRun.set 1 19 })
theorem witness_paths : pathAnswers (pathsState .idle) .ethernet = true ∧ datagramOk { kind := 2, address := 0 } = true ∧
    pathAnswers (pathsState .idle) .spi = true ∧ readAnswers (ethState {}) .spi = false ∧ (pathsState .idle).host.holdStart = some 3 ∧
    (pathsState .idle).host.evtAck < (pathsState .idle).host.evtHead ∧ placeOf (pathsState .idle).host 7 = some 0 ∧
    (pathsState .idle).host.sessions.get 0 = some { id := 7, role := .admin, path := .pcie } ∧
    ((pathsState .idle).host.paths.get (pathCode .ethernet)).lockedUntil = some 5 ∧
    ((pathsState .idle).host.paths.get (pathCode .spi)).up = true := by decide +kernel
theorem witness_pcie_and_sites : ((pathsState .pending).host.mailboxes.get 4).state = .pending ∧ (pathsState .pending).host.config.paths.get 4 = .pcie ∧
    (pathsState .pending).host.config.paths.get 2 ≠ .pcie ∧ ((pathsState .running).host.mailboxes.get 4).state = .running ∧
    (pathsState .idle).sys.power ≠ .dormant ∧ (pathsState .idle).host.site.enable.getLsbD 1 = true ∧
    (pathsState .idle).host.site.enable.getLsbD 2 = false ∧ (pathsState .idle).host.siteFresh.getLsbD 0 = true ∧
    (pathsState .idle).host.siteFresh.getLsbD 1 = false ∧ (pathsState .idle).host.siteLevel.getLsbD 1 = false ∧
    (pathsState .idle).host.site.debounce.get 1 ≤ (pathsState .idle).host.siteRun.get 1 + 1 ∧
    ((1 : BitVec 16).getLsbD 0 != (pathsState .idle).host.site.invert.getLsbD 0) = true := by decide +kernel

/-- The part in another power state. -/
def inPower (p : PowerState) : State := readyState.modSys (fun y => { y with power := p })
/-- ManagementCommandsComplete: PwrStateSet is accepted. -/
theorem accepts_PwrStateSet : Accepts specPwrStateSet (ask ([0, 0, 0, 0]))
    (readyState) :=
  ⟨⟨rfl, rfl, by decide +kernel, by decide +kernel⟩, by decide +kernel⟩
theorem accepts_PwrStateSet_others : Accepts specPwrStateSet (ask [2, 0, 0, 0]) readyState ∧ Accepts specPwrStateSet (ask [1, 0, 0, 0]) readyState ∧
    Accepts specPwrStateSet (ask [0, 0, 0, 0]) (inPower .standby) ∧ Accepts specPwrStateSet (ask [0, 0, 0, 0]) (inPower .quiet) ∧
    Accepts specPwrStateSet (ask [3, 0, 0, 0]) readyState :=
  ⟨⟨⟨rfl, rfl, by decide +kernel, by decide +kernel⟩, by decide +kernel⟩, ⟨⟨rfl, rfl, by decide +kernel, by decide +kernel⟩, by decide +kernel⟩,
   ⟨⟨rfl, rfl, by decide +kernel, by decide +kernel⟩, by decide +kernel⟩, ⟨⟨rfl, rfl, by decide +kernel, by decide +kernel⟩, by decide +kernel⟩,
   ⟨⟨rfl, rfl, by decide +kernel, by decide +kernel⟩, by decide +kernel⟩⟩
theorem witness_power_codes : powerOfCode 0 = readyState.sys.power ∧ powerOfCode 1 = .quiet ∧ powerOfCode 2 = .standby ∧
    powerOfCode 3 = .dormant ∧ readyState.sys.power ≠ .standby ∧ readyState.fl.state ≠ .joined := by decide +kernel
/-- ManagementCommandsComplete: PwrWakeConfig is accepted. -/
theorem accepts_PwrWakeConfig : Accepts specPwrWakeConfig (ask ([1, 0, 0, 0] ++ le 4 60 ++ [2, 0, 0, 0]))
    (readyState) :=
  ⟨⟨rfl, rfl, by decide +kernel, by decide +kernel⟩, by decide +kernel⟩
/-- ManagementCommandsComplete: PwrLimitSet is accepted. -/
theorem accepts_PwrLimitSet : Accepts specPwrLimitSet (ask (le 4 60000))
    (readyState) :=
  ⟨⟨rfl, rfl, by decide +kernel, by decide +kernel⟩, by decide +kernel⟩
/-- ManagementCommandsComplete: PwrReset is accepted. -/
theorem accepts_PwrReset : Accepts specPwrReset (ask ([0, 0, 0, 0]))
    (readyState) :=
  ⟨⟨rfl, rfl, by decide +kernel, by decide +kernel⟩, by decide +kernel⟩
theorem accepts_PwrReset_unit : Accepts specPwrReset (ask [1, 5, 0, 0]) readyState :=
  ⟨⟨rfl, rfl, by decide +kernel, by decide +kernel⟩, by decide +kernel⟩
/-- ManagementCommandsComplete: LcProvision is accepted. -/
theorem accepts_LcProvision : Accepts specLcProvision (ask (zeroBytes 96))
    (readyState.modSys (fun y => { y with lifecycle := .blank })) :=
  ⟨⟨rfl, rfl, by decide +kernel, by decide +kernel⟩, by decide +kernel⟩
/-- ManagementCommandsComplete: LcAdvance is accepted. -/
theorem accepts_LcAdvance : Accepts specLcAdvance (ask ([2, 0, 0, 0] ++ le 4 0x4C434144 ++ zeroBytes 32))
    (readyState) :=
  ⟨⟨rfl, rfl, by decide +kernel, by decide +kernel⟩, by decide +kernel⟩
theorem accepts_LcAdvance_return : Accepts specLcAdvance (ask ([3, 0, 0, 0] ++ le 4 0x4C434144 ++ List.replicate 32 5)) readyState :=
  ⟨⟨rfl, rfl, by decide +kernel, by decide +kernel⟩, by decide +kernel⟩
/-- ManagementCommandsComplete: LcRoleSet is accepted. -/
theorem accepts_LcRoleSet : Accepts specLcRoleSet (ask ([1, 0, 0, 0]))
    (readyState) :=
  ⟨⟨rfl, rfl, by decide +kernel, by decide +kernel⟩, by decide +kernel⟩
/-- ManagementCommandsComplete: KeyInstall is accepted. -/
theorem accepts_KeyInstall : Accepts specKeyInstall (ask ([3, 0, 0, 0] ++ List.replicate 48 7 ++ zeroBytes 52))
    (readyState) :=
  ⟨⟨rfl, rfl, by decide +kernel, by decide +kernel⟩, by decide +kernel⟩
/-- ManagementCommandsComplete: DbgPolicy is accepted. -/
theorem accepts_DbgPolicy : Accepts specDbgPolicy (ask ([0, 0, 0, 0]))
    (readyState) :=
  ⟨⟨rfl, rfl, by decide +kernel, by decide +kernel⟩, by decide +kernel⟩
/-- ManagementCommandsComplete: FwWrite is accepted. -/
theorem accepts_FwWrite : Accepts specFwWrite (ask (le 4 16 ++ le 4 3 ++ [1, 2, 3]))
    (readyState) :=
  ⟨⟨rfl, rfl, by decide +kernel, by decide +kernel⟩, by decide +kernel⟩
/-- ManagementCommandsComplete: FwControl is accepted. -/
theorem accepts_FwControl : Accepts specFwControl (ask ([0, 0, 0, 0]))
    (readyState) :=
  ⟨⟨rfl, rfl, by decide +kernel, by decide +kernel⟩, by decide +kernel⟩
theorem accepts_FwControl_others : Accepts specFwControl (ask [1, 0, 0, 0]) readyState ∧ Accepts specFwControl (ask [2, 0, 0, 0]) readyState :=
  ⟨⟨⟨rfl, rfl, by decide +kernel, by decide +kernel⟩, by decide +kernel⟩, ⟨⟨rfl, rfl, by decide +kernel, by decide +kernel⟩, by decide +kernel⟩⟩

/-- A part that boots, at this stage, on trial, with a unit reset, a warm and a watchdog reset to come. -/
def bootState (stage : Nat) (loaded : Bool) : State := readyState.modSys (fun y => { y with
  ready := false, stage := stage, configLoaded := loaded, trial := true, trialSlot := true, warmAt := some 5, wdtAt := some 9
  unitReset := [(5, 40, { opcode := 0x1004, tag := 3, mailbox := 1 })] })
theorem witness_boot : (bootState 1 false).sys.stage = 1 ∧ (bootState 1 false).sys.zeroising = none ∧ (bootState 1 false).sys.configLoaded = false ∧
    (bootState 0 false).air.mono < (bootState 0 false).sys.lastReset + tcOfMs (stageEnds.getD (bootState 0 false).sys.stage 175) ∧
    (bootState 5 true).sys.ready = false ∧ (bootState 5 true).sys.configLoaded = true ∧ (bootState 5 true).sys.trial = true ∧
    5 < (bootState 7 false).sys.stage ∧ (bootState 1 false).sys.testMode = false := by decide +kernel
theorem witness_resets : (bootState 5 true).sys.warmAt = some 5 ∧ readyState.sys.warmAt = none ∧ (bootState 5 true).sys.wdtAt = some 9 ∧
    (bootState 5 true).sys.unitReset.length = 1 ∧ readyState.sys.power ≠ .dormant ∧ readyState.sys.wdtAt = none ∧
    readyState.sys.coreHalted = false ∧ conditionHolds readyState.fault 0xB0 partUnit = false := by decide +kernel
theorem witness_core_halted : let s := readyState.modSys (fun y => { y with debug := .open_, coreHalted := true })
    s.sys.debug = .open_ ∧ s.sys.coreHalted = true := ⟨rfl, rfl⟩

/-- A move under way in this power state. -/
def movingState (p : PowerState) (m : PowerMove) : State := bandState.modSys (fun y => { y with power := p, move := some m })
/-- DORMANT, with a timer as wake source. -/
def dormantState : State := readyState.modSys (fun y => { y with power := .dormant, wake := { timer := 60 } })
theorem witness_power_moves : (movingState .active { target := .standby, frame := some 3, ticket := none }).sys.move = some ⟨.standby, some 3, none, false⟩ ∧
    (movingState .active { target := .standby, frame := none, ticket := none, exit := true }).sys.move.map (fun m => m.exit) = some true ∧
    (∀ j, j < 16 → (bandState.rf.chains.get j).resume ≠ .off → (bandState.rf.chains.get j).locked = true) ∧
    (movingState .quiet { target := .active, frame := none, ticket := none }).sys.power = .quiet ∧
    (movingState .active { target := .dormant, frame := some 3, ticket := none }).sys.move = some ⟨.dormant, some 3, none, false⟩ := by decide +kernel
theorem witness_dormant : dormantState.sys.power = .dormant ∧ dormantState.sys.pwrEn = true ∧ wakeEnabled dormantState .timer = true ∧
    wakeEnabled dormantState .debug = false ∧ readyState.sys.power ≠ .dormant ∧ readyState.sys.pwrFail = false := by decide +kernel
/-- Supply loss, zeroisation, a debug lockout and a firmware verification under way. -/
def securityState (locked : Option Nat) (d : DebugLevel) (l : Lifecycle) : State := readyState.modSys (fun y => { y with
  power := .quiet, pwrFail := true, pwrFailFrom := some .active, zeroising := some ([1], none), debug := d, debugLocked := locked, lifecycle := l
  keys := { y.keys with debug := some [4] }, fwVerify := some { opcode := 0x1021, tag := 2, mailbox := 1 } })
theorem witness_security : (securityState none .closed .deployed).sys.pwrFail = true ∧
    (∀ j, j < 32 → ((securityState none .closed .deployed).hk.windows.get j).isOut = false) ∧
    (securityState none .closed .deployed).sys.pwrFailFrom = some .active ∧ (securityState none .closed .deployed).sys.power = .quiet ∧
    (securityState none .closed .deployed).sys.zeroising = some ([1], none) ∧ (securityState none .closed .deployed).sys.debugLocked = none ∧
    (securityState none .closed .deployed).sys.keys.debug = some [4] ∧ (securityState none .closed .deployed).sys.authAllowed = true ∧
    (securityState (some 6) .open_ .blank).sys.debugLocked = some 6 ∧ (securityState none .open_ .blank).sys.debug ≠ .closed ∧
    (securityState none .closed .blank).sys.lifecycle = .blank ∧ (securityState none .closed .blank).sys.fwVerify.isSome = true ∧
    conditionHolds readyState.fault 0xB1 partUnit = false := by decide +kernel

/-- A hub of a pair in this pair state, whose mirror link is P11. -/
def pairState (x : PairPhase) : State := (readyState.modPair (fun p => { p with
  config := { p.config with enable := true }, phase := x, frozen := some [], bulk := some (9, 3), switchAt := some 4
  links := p.links.set 0 { up := true, upSince := 6, missed := 3 } })).modFl (fun f => { f with
    ports := f.ports.set 11 { f.ports.get 11 with config := { (f.ports.get 11).config with function := .mirror } } })
/-- PairCommandsAndMirroring: PairConfig is accepted. -/
theorem accepts_PairConfig : Accepts specPairConfig (ask ([1, 0] ++ le 2 0x800 ++ zeroBytes 12 ++ le 4 10))
    (pairState .activePaired) :=
  ⟨⟨rfl, rfl, by decide +kernel, by decide +kernel⟩, by decide +kernel⟩
/-- PairCommandsAndMirroring: PairSwitchover is accepted. -/
theorem accepts_PairSwitchover : Accepts specPairSwitchover (ask ([0, 0, 0, 0] ++ le 4 0))
    (pairState .activePaired) :=
  ⟨⟨rfl, rfl, by decide +kernel, by decide +kernel⟩, by decide +kernel⟩
theorem accepts_PairSwitchover_force : Accepts specPairSwitchover (ask ([1, 0, 0, 0] ++ le 4 0)) (pairState .standbyReady) :=
  ⟨⟨rfl, rfl, by decide +kernel, by decide +kernel⟩, by decide +kernel⟩
/-- PairCommandsAndMirroring: PairTailRead is accepted. -/
theorem accepts_PairTailRead : Accepts specPairTailRead (ask (le 4 1 ++ [3, 0, 0, 0]))
    (pairState .activePaired) :=
  ⟨⟨rfl, rfl, by decide +kernel, by decide +kernel⟩, by decide +kernel⟩
theorem witness_mirroring : pairRuns (pairState .activePaired) = true ∧ activeHub (pairState .activePaired) = true ∧
    standbyListens (pairState .activePaired).pair = true ∧ pairRuns readyState = false ∧ pairRuns (pairState .standbyReady) = true ∧
    standbyHub (pairState .standbyReady) = true ∧ (pairState .activePaired).pair.bulk = some (9, 3) ∧ readyState.pair.bulk = none ∧
    conditionHolds readyState.fault 0xC0 pairLinkUnit = false ∧ mirrorPorts (pairState .activePaired) = [11] ∧
    ((pairState .activePaired).pair.links.get 0).up = true := by decide +kernel
theorem witness_pair_link : let s := raiseLevel { cls := 0xC0, unit := pairLinkUnit } (pairState .activePaired)
    pairRuns s = true ∧ mirrorPorts s = [11] ∧ (s.pair.links.get 0).up = true ∧ conditionHolds s.fault 0xC0 pairLinkUnit = true := by decide +kernel

/-- A heartbeat of a peer in this state with this term. -/
def peerHb (state term : Nat) : Heartbeat := { term := term, state := state, serial := 5, at_ := ⟨0, 0⟩, applied := 0 }
theorem witness_heartbeats : (mirrorPorts (pairState .waiting)).findIdx? (· == 11) = some 0 ∧
    (mirrorPorts (pairState .waiting)).findIdx? (· == 3) = none ∧ pairRuns (pairState .waiting) = true ∧
    fromPeer (pairState .waiting) (peerHb 1 2) = true ∧ (pairState .waiting).pair.phase = .waiting ∧
    (pairState .waiting).pair.term < (peerHb 1 2).term ∧
    (peerHb 1 2).term < ((pairState .waiting).modPair (fun x => { x with term := 3 })).pair.term ∧ (peerHb 2 2).state = 2 ∧
    fromPeer (pairState .activeAlone) (peerHb 4 0) = true ∧
    ((pairState .activeAlone).modPair (fun x => { x with bulk := none })).pair.bulk = none ∧
    fromPeer (pairState .standbySyncing) (peerHb 3 2) = true := by decide +kernel
theorem witness_takeover : pairRuns (pairState .standbyReady) = true ∧ mirrorPorts (pairState .standbyReady) = [11] ∧
    3 ≤ ((pairState .standbyReady).pair.links.get 0).missed ∧ (pairState .standbyReady).pair.phase = .standbyReady ∧
    standbyHub (pairState .standbyReady) = true ∧ takeoverFrame (pairState .standbyReady) = some 4 ∧
    activeHub (pairState .activePaired) = true ∧ (pairState .activePaired).pair.config.enable = true ∧
    demoteFrame (pairState .activePaired) = some 4 ∧ activeHub (pairState .waiting) = false ∧ pairRuns readyState = false := by decide +kernel


/-! ## Ill-formed commands that the checks of `Instr.wf` refuse, one for each check -/

/-- A request whose field is beyond its width, whose mailbox or path does not exist, or whose payload does not fit. -/
theorem test_wf_requests : Instr.wf (.sysNop (ask [])) = true ∧ Instr.wf (.sysNop { ask [] with mailbox := 16 }) = false ∧
    Instr.wf (.sysNop { ask [] with tag := 4294967296 }) = false ∧ Instr.wf (.sysNop { ask [] with length := 4294967296 }) = false ∧
    Instr.wf (.sysNop { ask [] with session := 4294967296 }) = false ∧ Instr.wf (.sysNop { ask [] with path := .none }) = false ∧
    Instr.wf (.sysNop (ask (zeroBytes 2033))) = false := by decide +kernel
/-- A chain, band path, control slot, pattern, observation receiver or search branch that does not exist. -/
theorem test_wf_radio_units : Instr.wf (.synthUnlock 16) = false ∧ Instr.wf (.pathSettleTimeout .ingress 128) = false ∧
    Instr.wf (.iterationOverrun 512) = false ∧ Instr.wf (.tddPatternEffective 8) = false ∧ Instr.wf (.obsDwellStart 2) = false ∧
    Instr.wf (.repTableClear 8) = false ∧ Instr.wf (.sourceRetryTimer 5) = false ∧ Instr.wf (.marginLowTimeout 128) = false ∧
    Instr.wf (.donorRecovery 128) = false ∧ Instr.wf (.reacquireFitComplete 128) = false := by decide +kernel
/-- A cassette, comparator, channel, lane, port, member, flow, capture slot or mirror link that does not exist. -/
theorem test_wf_system_units : Instr.wf (.gateOnEdge 8) = false ∧ Instr.wf (.comparatorTrip ⟨40, 0⟩) = false ∧
    Instr.wf (.channelRecordLatch 84) = false ∧ Instr.wf (.laneSerWarn 24) = false ∧ Instr.wf (.laneSetApply 12) = false ∧
    Instr.wf (.memberTimeout 16384) = false ∧ Instr.wf (.flowQualComplete 262144) = false ∧ Instr.wf (.captureStop 16) = false ∧
    Instr.wf (.pairHbMissed 2) = false := by decide +kernel
/-- A frame header with a field beyond its width, a frame about no member, and a path that is none. -/
theorem test_wf_frames : Instr.wf (.expel 0 { dest := 1, src := some 2, ttl := 3 }) = true ∧ Instr.wf (.expel 12 { dest := 1, src := some 2, ttl := 3 }) = false ∧
    Instr.wf (.expel 0 { dest := 16384, src := some 2, ttl := 3 }) = false ∧ Instr.wf (.expel 0 { dest := 1, src := some 16384, ttl := 3 }) = false ∧
    Instr.wf (.expel 0 { dest := 1, src := some 2, ttl := 256 }) = false ∧ Instr.wf (.nonceExpiry .none) = false := by decide +kernel

/-! ## Worked examples of the spec -/

/-- A 100 MHz carrier under FIXED. -/
def fixedPath : BpParams := {
  chain := 0, preset := 0, bw := 100000000, center := 3500000000, srcFlow := false, srcId := 0, tdd := none, mu := 1
  protected_ := false, alignStrict := false, stages := 3 }

/-- Air time, section Timing sources: PTP time 1,700,000,000.005 s is AT 964564628:9,830,400. -/
theorem test_ptp_example : ptpPhase { frame := 964564628, offset := 9830400 } 1700000000005000000 = 0 := by decide +kernel
/-- Band paths and the channel engine, section Group delay: a 100 MHz carrier under FIXED, d = 3 and d = 9. -/
theorem test_group_delay_example : stagesFor 0 100000000 = some 3 ∧ groupDelay .ingress fixedPath = 834 ∧
    groupDelay .ingress { fixedPath with stages := 9 } = 26538 := by decide +kernel
/-- Housekeeping, section Throttling and shutdown: 2.1 dB at 104.37 °C, held at 104.05 °C, 2.0 dB at 103.75 °C. -/
theorem test_throttle_example : nextDemand { tGov := 10437 } = 210 ∧ nextDemand { tGov := 10405, dTh := 210 } = 210 ∧
    nextDemand { tGov := 10375, dTh := 210 } = 200 := by decide +kernel
/-- Bell link, section Receiving: 40 bytes at rate 1/2 and 50 kb/s last 14,320 µs, the header 2,160 µs. -/
theorem test_bell_packet_example : payloadUs 0 { kind := 0, twoThirds := false, length := 40, seq := 0 } = 14320 ∧
    headerUs 0 = 2160 := by decide +kernel
/-- The check value of CRC-32C, 0xE3069283 for the nine characters 1 to 9 (the polynomial and form of R392). -/
theorem test_crc32c : crc32c [0x31, 0x32, 0x33, 0x34, 0x35, 0x36, 0x37, 0x38, 0x39] = 0xE3069283#32 := by decide +kernel

/-! ## Single steps -/

/-- On an empty queue 1 Tc passes (log entry 1); SYS_NOP at the front answers OK with its payload. -/
theorem test_steps : (∃ t, step readyState = .next t ∧ t.air.mono = 1 ∧ t.pending = []) ∧
    ∃ t, step { readyState with pending := [.sysNop (ask [7])] } = .next t ∧ t.pending = [] ∧ answerBytes (ask [7]) t = [7] :=
  ⟨⟨_, rfl, by decide +kernel, by decide +kernel⟩, ⟨_, rfl, by decide +kernel, by decide +kernel⟩⟩

end Sys2Proof.Tests
end

section
/-! Frames of masks read off a list of parts, and what the mailbox protocol leaves behind: the checks that an accepted
command has passed (R425), and the answer of a rejected one (R365, R426). -/

namespace Sys2Proof.Machine

open Sys2Proof

/-- The list of every part lists every part. -/
theorem mem_but_nil (p : Part) : p ∈ but [] := by cases p <;> decide

/-- A frame by mask is a frame by list where the mask holds no part outside the list, which `decide` tells. -/
theorem Only.changesOnly_of_mask {m : Nat} {s t : State} {l : List Part} (h : Only m s t)
    (k : ∀ p ∈ but [], p ∉ l → m.testBit p.bit = false) : ChangesOnly l s t :=
  h.changesOnly fun p hp => k p (mem_but_nil p) hp

theorem firstBad_eq_none {l : List Chk} : firstBad l = none ↔ ∀ k ∈ l, k.bad = false := by
  unfold firstBad
  cases h : l.find? (·.bad) with
  | none => simpa using h
  | some k => simpa using ⟨k, List.mem_of_find?_eq_some h, List.find?_some h⟩

/-- The checks of a command that validation lets pass hold (R425). -/
theorem checks_hold_of_validate {c : CommandSpec} {s : State} {q : Req} (h : validate c false s q = none) :
    ∀ k ∈ c.checks s q, k.bad = false := by
  have hall : (c.checks s q).filter (fun k => !(false && k.status == .eState)) = c.checks s q := by simp
  rw [← firstBad_eq_none]
  unfold validate at h
  rw [hall] at h
  cases hb : firstBad (c.checks s q) with
  | none => rfl
  | some x =>
    -- a check fails, so every branch of `validate` answers a status
    rw [hb] at h
    repeat' split at h
    all_goals contradiction

/-- A mailbox command that starts and fails a check is counted and answered with the check's status (R425, R426); what its
rejection leaves behind is the command's own. -/
theorem submit_rejected {c : CommandSpec} {r : HostRequest} {s : State} {st : Status} {d : Nat} (h : Rejects c r s st d) :
    submit c r s = deliver (reqOf c.opcode r) st d []
      (noteReject (reqOf c.opcode r) (c.reject (atStart c.opcode r s) (reqOf c.opcode r) st)) := by
  obtain ⟨⟨hready, horder, hdoorbell, -⟩, hfails⟩ := h
  have hstart : noteStart (reqOf c.opcode r) (unregister r.mailbox (capture c.opcode r s)) = atStart c.opcode r s := rfl
  simp only [submit, hready, horder, hdoorbell, Bool.true_eq_false, if_false, ne_eq, not_true_eq_false, or_self, runCommand,
    hstart, hfails]

/-- After a rejected command every part but the host's is what its rejection left. -/
theorem submit_after_rejection {c : CommandSpec} {r : HostRequest} {s : State} {st : Status} {d : Nat}
    (h : Rejects c r s st d) : Only 2 (c.reject (atStart c.opcode r s) (reqOf c.opcode r) st) (submit c r s) := by
  rw [submit_rejected h]
  exact deliver_only (noteReject_only (Only.refl 2 _) rfl) rfl

/-- Two commands alone leave something behind when they are rejected: SYS_SESSION_OPEN (R428) and HK_URGENT (R242). -/
theorem reject_of_commandOf {i : Instr} {c : CommandSpec} {r : HostRequest} (h : commandOf i = some (c, r)) :
    c = specSysSessionOpen ∨ c = specHkUrgent ∨ ∀ s q st, c.reject s q st = s := by
  cases i with
  | sysSessionOpen _ => cases h; exact .inl rfl
  | hkUrgent _ => cases h; exact .inr (.inl rfl)
  | _ => cases h <;> exact .inr (.inr fun _ _ _ => rfl)

end Sys2Proof.Machine
end

section
/-! What a rejected command leaves behind (R365): the records that a rejected SYS_SESSION_OPEN gives the Logbook writer (R428),
and for the other commands nothing but HK_URGENT's count (R242). -/

namespace Sys2Proof.Machine

open Sys2Proof

/-- The records that wait for the Logbook writer are those before, and behind them records of this code alone. -/
def AppendsRecords (code : Nat) (s t : State) : Prop :=
  ∃ l, t.log.submissions = s.log.submissions ++ l ∧ ∀ x ∈ l, x.code = code

theorem AppendsRecords.of_log_eq {code : Nat} {s t : State} (h : t.log = s.log) : AppendsRecords code s t :=
  ⟨[], by simp [h], by simp⟩

theorem AppendsRecords.trans {code : Nat} {s t u : State} (h : AppendsRecords code s t) (k : AppendsRecords code t u) :
    AppendsRecords code s u := by
  obtain ⟨l, hl, hcode⟩ := h
  obtain ⟨l', hl', hcode'⟩ := k
  refine ⟨l ++ l', by rw [hl', hl, List.append_assoc], fun x hx => ?_⟩
  exact (List.mem_append.1 hx).elim (hcode x) (hcode' x)

theorem submitLog_appends (code source : Nat) (params : List Nat) (s : State) :
    AppendsRecords code s (submitLog code source params s) :=
  ⟨[_], rfl, by simp⟩

theorem openFailed_appends (s : State) (q : Req) : AppendsRecords 0x1008 s (openFailed s q) := by
  unfold openFailed
  dsimp only
  split
  · exact ((AppendsRecords.of_log_eq rfl).trans (submitLog_appends ..)).trans
      ((AppendsRecords.of_log_eq rfl).trans (submitLog_appends ..))
  · exact (AppendsRecords.of_log_eq rfl).trans (submitLog_appends ..)

theorem consumeNonce_keeps_log (s : State) (q : Req) : (consumeNonce s q).log = s.log :=
  consumeNonce_only (Only.refl 262146 s) rfl .log rfl

theorem specSysSessionOpen_reject_appends (s : State) (q : Req) (st : Status) :
    AppendsRecords 0x1008 s (specSysSessionOpen.reject s q st) := by
  have hnonce : AppendsRecords 0x1008 s (if q.length = 36 then consumeNonce s q else s) := by
    split
    · exact .of_log_eq (consumeNonce_keeps_log s q)
    · exact .of_log_eq rfl
  dsimp only [specSysSessionOpen]
  split
  · exact hnonce.trans (openFailed_appends _ q)
  · exact hnonce

/-- The rejection of a command row leaves the fault collector alone. -/
theorem reject_keeps_fault {i : Instr} {c : CommandSpec} {r : HostRequest} (h : commandOf i = some (c, r)) (s : State)
    (q : Req) (st : Status) : (c.reject s q st).fault = s.fault := by
  obtain rfl | rfl | hkeeps := reject_of_commandOf h
  · exact specSysSessionOpen_only.2 s q st .fault rfl
  · exact specHkUrgent_only.2 s q st .fault rfl
  · rw [hkeeps]

/-- The rejection of a command row gives the Logbook writer no record but those of a failed SYS_SESSION_OPEN. -/
theorem reject_appends {i : Instr} {c : CommandSpec} {r : HostRequest} (h : commandOf i = some (c, r)) (s : State)
    (q : Req) (st : Status) : AppendsRecords 0x1008 s (c.reject s q st) := by
  obtain rfl | rfl | hkeeps := reject_of_commandOf h
  · exact specSysSessionOpen_reject_appends s q st
  · exact .of_log_eq (specHkUrgent_only.2 s q st .log rfl)
  · exact .of_log_eq (by rw [hkeeps])

/-- The rejection of a command row that is neither SYS_SESSION_OPEN nor HK_URGENT leaves nothing behind. -/
theorem reject_eq_self {i : Instr} {c : CommandSpec} {r : HostRequest} (h : commandOf i = some (c, r))
    (hopen : c.opcode ≠ 0x0101) (hurgent : c.opcode ≠ 0x0902) (s : State) (q : Req) (st : Status) : c.reject s q st = s := by
  obtain rfl | rfl | hkeeps := reject_of_commandOf h
  · exact absurd rfl hopen
  · exact absurd rfl hurgent
  · exact hkeeps s q st

/-- Settles O11: what a rejection leaves behind is the command's own `reject`, and around it the host part alone changes. -/
theorem rejectedCommandRaisesNoFault : Obligations.RejectedCommandRaisesNoFault := by
  unfold Obligations.RejectedCommandRaisesNoFault
  intro i c r s st d hc hrej
  have hafter := submit_after_rejection hrej
  refine ⟨submit c r s, exec_command hc s, ?_, ?_, fun hopen hurgent => ?_⟩
  · calc (submit c r s).fault
      _ = (c.reject (atStart c.opcode r s) (reqOf c.opcode r) st).fault := hafter .fault rfl
      _ = (atStart c.opcode r s).fault := reject_keeps_fault hc ..
      _ = s.fault := atStart_fault ..
  · have hstart : AppendsRecords 0x1008 s (atStart c.opcode r s) := .of_log_eq (atStart_log ..)
    exact (hstart.trans (reject_appends hc ..)).trans (.of_log_eq (hafter .log rfl))
  · rw [reject_eq_self hc hopen hurgent] at hafter
    exact (atStart_only (Only.refl 2 s) rfl |>.trans hafter).changesOnly_of_mask (by decide)

end Sys2Proof.Machine
end

section
/-! Class configurations (R372, R373): what FAULT_CLASS_CONFIG sets, and what a raise reads of it. -/

namespace Sys2Proof.Machine

open Sys2Proof

/-- The collector with the configuration of one class written. -/
def FaultState.setClass (f : FaultState) (cls : Nat) (x : ClassConfig) : FaultState :=
  { f with classes := f.classes.set cls (some x) }

theorem classConfig_setClass_same (f : FaultState) (cls : Nat) (x : ClassConfig) :
    classConfig (f.setClass cls x) cls = x := by
  simp [classConfig, FaultState.setClass]

theorem classConfig_setClass_other (f : FaultState) {cls c : Nat} (x : ClassConfig) (h : c ≠ cls) :
    classConfig (f.setClass cls x) c = classConfig f c := by
  simp [classConfig, FaultState.setClass, get_set_other _ _ h]

theorem entryOf_setClass (f : FaultState) (cls : Nat) (x : ClassConfig) : entryOf (f.setClass cls x) = entryOf f := rfl

/-- A raise without an entry and without a severity of its own takes the severity of its class (R371). -/
theorem raiseSeverity_of_no_entry {f : FaultState} {x : Raise} (hfixed : x.fixed = none)
    (hentry : entryOf f x.cls x.unit = none) : raiseSeverity f x = (classConfig f x.cls).severity := by
  simp [raiseSeverity, hentry, baseSeverity, hfixed]

/-- What FAULT_CLASS_CONFIG sets a class to. -/
def classConfigOf (r : HostRequest) : ClassConfig := ⟨r.u8 1, r.u8 2, r.u8 3 == 1⟩

/-- An accepted FAULT_CLASS_CONFIG writes the configuration of its class and nothing else of the collector. -/
theorem submit_faultClassConfig_fault {r : HostRequest} {s : State} (h : Accepts specFaultClassConfig r s) :
    (submit specFaultClassConfig r s).fault = s.fault.setClass (r.u8 0) (classConfigOf r) := by
  have hset : (submit specFaultClassConfig r s).fault =
      (atStart 0x0E01 r s).fault.setClass (r.u8 0) (classConfigOf r) := submit_after h .fault rfl
  rw [hset, atStart_fault]

/-- An accepted FAULT_CLASS_CONFIG gives its class no severity below the class's floor: its second check (R373). -/
theorem floor_le_of_accepts_faultClassConfig {r : HostRequest} {s : State} (h : Accepts specFaultClassConfig r s)
    {row : ClassRow} (hrow : classRow (r.u8 0) = some row) : row.floor ≤ r.u8 1 := by
  have hchk := checks_hold_of_validate h.2 (field 1 (within (((classRow (r.u8 0)).map (·.floor)).getD 0) 4 (r.u8 1)))
    (List.mem_cons_of_mem _ List.mem_cons_self)
  rw [hrow] at hchk
  obtain ⟨hfloor, -⟩ : row.floor ≤ r.u8 1 ∧ r.u8 1 ≤ 4 := by simpa [field, within] using hchk
  exact hfloor

/-- Settles O47: the command's effect is one write of the class bank, read back by `classConfig`. -/
theorem classConfigTouchesOnlyLaterRaises : Obligations.ClassConfigTouchesOnlyLaterRaises := by
  unfold Obligations.ClassConfigTouchesOnlyLaterRaises
  intro r s
  refine ⟨specFaultClassConfig, rfl, rfl, fun hacc => ⟨submit specFaultClassConfig r s, rfl, ?_, ?_, ?_⟩⟩
  · exact (submit_only (m := 65542) specFaultClassConfig_only (Only.refl _ s) rfl rfl rfl).changesOnly_of_mask (by decide)
  · exact (submit_answered hacc specFaultClassConfig_only rfl rfl).1
  · beta_reduce
    rw [submit_faultClassConfig_fault hacc]
    have hsame := classConfig_setClass_same s.fault (r.u8 0) (classConfigOf r)
    refine ⟨rfl, hsame, fun c hc => classConfig_setClass_other _ _ hc,
      fun row hrow => floor_le_of_accepts_faultClassConfig hacc hrow, fun x hcls hfixed hentry => ?_⟩
    rw [raiseSeverity_of_no_entry hfixed (by rwa [entryOf_setClass]), hcls, hsame]
    rfl

end Sys2Proof.Machine
end

section
/-! Doorbells (R421, R422): what an ignored doorbell and a captured one leave in the host part, and which of the two a doorbell
is. -/

namespace Sys2Proof.Machine

open Sys2Proof

@[simp] theorem ignoreDoorbell_order (n : Nat) (s : State) : (ignoreDoorbell n s).host.order = s.host.order := by
  simp [ignoreDoorbell]

@[simp] theorem ignoreDoorbell_overrun (n : Nat) (s : State) :
    (ignoreDoorbell n s).host.overrun = s.host.overrun ||| (1#16 <<< n) := by
  simp [ignoreDoorbell]

/-- The mailbox of an ignored doorbell counts it, and is otherwise as it was. -/
@[simp] theorem ignoreDoorbell_mbx_same (n : Nat) (s : State) :
    (ignoreDoorbell n s).mbx n = { s.mbx n with ignored := (s.mbx n).ignored + 1 } := by
  simp [ignoreDoorbell, State.mbx]

theorem ignoreDoorbell_sets_overrun {n : Nat} (hn : n < 16) (s : State) :
    (ignoreDoorbell n s).host.overrun.getLsbD n = true := by
  simp [hn]

@[simp] theorem capture_order (opcode : Nat) (r : HostRequest) (s : State) :
    (capture opcode r s).host.order = s.host.order ++ [r.mailbox] := rfl

@[simp] theorem capture_mbx_same (opcode : Nat) (r : HostRequest) (s : State) :
    (capture opcode r s).mbx r.mailbox = { s.mbx r.mailbox with state := .pending, captured := some ⟨opcode, r⟩ } := by
  simp [capture, State.mbx]

/-- The doorbells that are not ignored: the path is the mailbox's, and the mailbox is IDLE or DONE (R422). -/
theorem doorbellAccepted_iff {h : HostState} {n : Nat} {p : HostPath} : doorbellAccepted h n p = true ↔
    n < 16 ∧ h.config.paths.get n = p ∧ p ≠ .none ∧
      ((h.mailboxes.get n).state = .idle ∨ (h.mailboxes.get n).state = .done) := by
  simp [doorbellAccepted, and_assoc]

theorem doorbellAccepted_eq_false_of_busy {h : HostState} {n : Nat} {p : HostPath}
    (hbusy : (h.mailboxes.get n).state = .pending ∨ (h.mailboxes.get n).state = .running) :
    doorbellAccepted h n p = false := by
  rw [Bool.eq_false_iff, ne_eq, doorbellAccepted_iff]
  rintro ⟨-, -, -, hfree⟩
  rcases hbusy with hb | hb <;> simp [hb] at hfree

theorem doorbellAccepted_eq_false_of_other_path {h : HostState} {n : Nat} {p : HostPath} (hpath : h.config.paths.get n ≠ p) :
    doorbellAccepted h n p = false := by
  rw [Bool.eq_false_iff, ne_eq, doorbellAccepted_iff]
  exact fun ⟨_, hp, _⟩ => hpath hp

/-- A command whose doorbell is refused does nothing but the ignored doorbell (R422). -/
theorem submit_ignored {c : CommandSpec} {r : HostRequest} {s : State} (hn : r.mailbox < 16)
    (hrefused : doorbellAccepted s.host r.mailbox r.path = false) : submit c r s = ignoreDoorbell r.mailbox s := by
  simp [submit, hrefused, hn]

/-- Settles O8: the doorbell is refused, so the whole step is `ignoreDoorbell`. -/
theorem ignoredDoorbellSetsOverrun : Obligations.IgnoredDoorbellSetsOverrun := by
  unfold Obligations.IgnoredDoorbellSetsOverrun
  intro i c r s hc hn hwhy
  have hrefused : doorbellAccepted s.host r.mailbox r.path = false := by
    rcases hwhy with hpending | hrunning | hpath
    · exact doorbellAccepted_eq_false_of_busy (.inl hpending)
    · exact doorbellAccepted_eq_false_of_busy (.inr hrunning)
    · exact doorbellAccepted_eq_false_of_other_path hpath
  refine ⟨ignoreDoorbell r.mailbox s, ?_, ?_, ignoreDoorbell_sets_overrun hn s, ?_, ?_, ignoreDoorbell_order ..⟩
  · rw [exec_command hc, submit_ignored hn hrefused]
  · exact (ignoreDoorbell_only (Only.refl 2 s) rfl).changesOnly_of_mask (by decide)
  · rw [ignoreDoorbell_mbx_same]
  · rw [ignoreDoorbell_mbx_same]

end Sys2Proof.Machine
end

section
/-! REQUEST datagrams of the management Ethernet (R415, R416): one equation for each thing that a well-formed REQUEST does. -/

namespace Sys2Proof.Machine

open Sys2Proof

/-- A well-formed REQUEST reaches a mailbox of the management Ethernet while that path answers. -/
def RequestArrives (d : EthDatagram) (s : State) : Prop :=
  pathAnswers s .ethernet = true ∧ d.kind = 0 ∧ datagramOk d = true ∧ d.session = 0 ∧ d.mailbox < 16 ∧
    s.host.config.paths.get d.mailbox = .ethernet

/-- The mailbox of an accepted REQUEST notes its xid. -/
def noteXid (d : EthDatagram) (s : State) : State :=
  s.modHost (fun h => { h with mailboxes := h.mailboxes.mod d.mailbox (fun x => { x with xid := some d.xid }) })

theorem noteXid_mbx_same (d : EthDatagram) (s : State) :
    (noteXid d s).mbx d.mailbox = { s.mbx d.mailbox with xid := some d.xid } := by
  simp [noteXid, State.mbx]

/-- The stored response of a REQUEST is sent again and counted. -/
def resendResponse (d : EthDatagram) (s : State) : State :=
  s.modHost (fun h => { h with
    ethResent := h.ethResent + 1, out := .ethResponse d.mailbox d.xid (s.mbx d.mailbox).response :: h.out })

/-- The command that a REQUEST carries is captured for its mailbox, with its xid. -/
def captureRequest (d : EthDatagram) (s : State) : State :=
  capture (u16 d.body 0) (requestOf d.mailbox .ethernet d.body) (noteXid d s)

/-- A REQUEST that arrives is told by its xid, and a new one by its mailbox (R416, R422). -/
theorem ethRequest_of_arrives {d : EthDatagram} {s : State} (h : RequestArrives d s) :
    ethRequest d s =
      if (s.mbx d.mailbox).xid = some d.xid then
        if (s.mbx d.mailbox).state = .done then resendResponse d s else s
      else if doorbellAccepted s.host d.mailbox .ethernet then captureRequest d s else ignoreDoorbell d.mailbox s := by
  obtain ⟨hanswers, hkind, hok, hsession, hn, hpath⟩ := h
  simp only [ethRequest, hanswers, hkind, hok, hsession, hn, hpath, beq_self_eq_true, decide_true, Bool.and_self,
    Bool.true_eq_false, ne_eq, not_true_eq_false, or_self, if_false]
  rfl

theorem captureRequest_order (d : EthDatagram) (s : State) :
    (captureRequest d s).host.order = s.host.order ++ [d.mailbox] := rfl

theorem captureRequest_mbx (d : EthDatagram) (s : State) : (captureRequest d s).mbx d.mailbox =
    { s.mbx d.mailbox with
      xid := some d.xid, state := .pending, captured := some ⟨u16 d.body 0, requestOf d.mailbox .ethernet d.body⟩ } := by
  have hcapture : (captureRequest d s).mbx d.mailbox = { (noteXid d s).mbx d.mailbox with
      state := .pending, captured := some ⟨u16 d.body 0, requestOf d.mailbox .ethernet d.body⟩ } := capture_mbx_same ..
  rw [hcapture, noteXid_mbx_same]

/-- Settles O53: the xid tells a repeated REQUEST, and the mailbox's state tells what either kind does. -/
theorem repeatedRequestIsNotExecuted : Obligations.RepeatedRequestIsNotExecuted := by
  unfold Obligations.RepeatedRequestIsNotExecuted
  intro d s hanswers hkind hok hsession hn hpath
  have heq := ethRequest_of_arrives ⟨hanswers, hkind, hok, hsession, hn, hpath⟩
  refine ⟨ethRequest d s, rfl, (ethRequest_only (Only.refl 2 s) rfl).changesOnly_of_mask (by decide), ?_, fun hnew => ⟨?_, ?_⟩⟩
  · intro hrepeat
    rw [if_pos hrepeat] at heq
    by_cases hdone : (s.mbx d.mailbox).state = .done
    · rw [heq, if_pos hdone]
      exact ⟨rfl, rfl, fun _ => ⟨rfl, rfl⟩, fun h => absurd hdone h⟩
    · rw [heq, if_neg hdone]
      exact ⟨rfl, rfl, fun h => absurd h hdone, fun _ => rfl⟩
  · intro hbusy
    have hrefused : doorbellAccepted s.host d.mailbox .ethernet = false := doorbellAccepted_eq_false_of_busy hbusy
    rw [heq, if_neg hnew, hrefused]
    exact ⟨ignoreDoorbell_sets_overrun hn s, ignoreDoorbell_order .., ignoreDoorbell_mbx_same ..⟩
  · intro hfree
    have haccepted : doorbellAccepted s.host d.mailbox .ethernet = true :=
      doorbellAccepted_iff.2 ⟨hn, hpath, by decide, hfree⟩
    rw [heq, if_neg hnew, if_pos haccepted, captureRequest_mbx]
    exact ⟨captureRequest_order .., rfl, rfl, rfl⟩

end Sys2Proof.Machine
end

section
set_option Elab.async false
/-! What every step leaves alone (log entry 37): no row of the table touches the queue of waiting commands. -/

namespace Sys2Proof.Machine

open Sys2Proof

/-- The frame of every row: the queue of waiting commands is no part that a row touches. -/
theorem exec_only {i : Instr} {s t : State} (h : exec i s = .next t) : Only 524287 s t := by
  cases i with
  | powerOnReset _ _ => exact (execPowerOnReset_only h).weaken (by decide)
  | resetN _ _ => exact (execResetN_only h).weaken (by decide)
  | bootStageAdvance _ _ _ _ => exact (execBootStageAdvance_only h).weaken (by decide)
  | ready => exact (execReady_only h).weaken (by decide)
  | trialTimeout => exact (execTrialTimeout_only h).weaken (by decide)
  | warmReset => exact (execWarmReset_only h).weaken (by decide)
  | watchdogTimeout => exact (execWatchdogTimeout_only h).weaken (by decide)
  | watchdogReset => exact (execWatchdogReset_only h).weaken (by decide)
  | unitResetComplete _ => exact (execUnitResetComplete_only h).weaken (by decide)
  | dormantWake _ _ => exact (execDormantWake_only h).weaken (by decide)
  | dormantEntry _ => exact (execDormantEntry_only h).weaken (by decide)
  | pwrEnDrop => exact (execPwrEnDrop_only h).weaken (by decide)
  | standbyEntry => exact (execStandbyEntry_only h).weaken (by decide)
  | standbyExitComplete => exact (execStandbyExitComplete_only h).weaken (by decide)
  | quietExit => exact (execQuietExit_only h).weaken (by decide)
  | pwrFailNFall _ => exact (execPwrFailNFall_only h).weaken (by decide)
  | pwrRestore => exact (execPwrRestore_only h).weaken (by decide)
  | aonOscTick => exact (execAonOscTick_only h).weaken (by decide)
  | loopTick _ => exact (execLoopTick_only h).weaken (by decide)
  | slotBoundary => exact (execSlotBoundary_only h).weaken (by decide)
  | subframeBoundary => exact (execSubframeBoundary_only h).weaken (by decide)
  | frameBoundary _ => exact (execFrameBoundary_only h).weaken (by decide)
  | symbolBoundary _ _ _ _ => exact (execSymbolBoundary_only h).weaken (by decide)
  | ppsOutPulseEnd => exact (execPpsOutPulseEnd_only h).weaken (by decide)
  | donorDetection _ => exact (execDonorDetection_only h).weaken (by decide)
  | donorSyncTimeout => exact (execDonorSyncTimeout_only h).weaken (by decide)
  | ptpSyncRx _ => exact (execPtpSyncRx_only h).weaken (by decide)
  | ptpSyncTimeout => exact (execPtpSyncTimeout_only h).weaken (by decide)
  | ppsInEdge _ => exact (execPpsInEdge_only h).weaken (by decide)
  | ppsInMissing => exact (execPpsInMissing_only h).weaken (by decide)
  | flockSourceTimeout => exact (execFlockSourceTimeout_only h).weaken (by decide)
  | sourceRetryTimer _ => exact (execSourceRetryTimer_only h).weaken (by decide)
  | revertHoldExpiry => exact (execRevertHoldExpiry_only h).weaken (by decide)
  | atLocked => exact (execAtLocked_only h).weaken (by decide)
  | airTimeStep => exact (execAirTimeStep_only h).weaken (by decide)
  | stepPendingEnd => exact (execStepPendingEnd_only h).weaken (by decide)
  | refInQualify _ => exact (execRefInQualify_only h).weaken (by decide)
  | timeErrLimitExceeded => exact (execTimeErrLimitExceeded_only h).weaken (by decide)
  | scheduledCommandFire => exact (execScheduledCommandFire_only h).weaken (by decide)
  | tddPatternEffective _ => exact (execTddPatternEffective_only h).weaken (by decide)
  | tddVerifyWindowEnd _ _ _ => exact (execTddVerifyWindowEnd_only h).weaken (by decide)
  | atSourceConfig _ => exact (execAtSourceConfig_only h).weaken (by decide)
  | tddPatternSet _ => exact (execTddPatternSet_only h).weaken (by decide)
  | wallTimeSet _ => exact (execWallTimeSet_only h).weaken (by decide)
  | atSchedule _ => exact (execAtSchedule_only h).weaken (by decide)
  | atCancel _ => exact (execAtCancel_only h).weaken (by decide)
  | rfChainConfig _ => exact (execRfChainConfig_only h).weaken (by decide)
  | rfTxEnable _ => exact (execRfTxEnable_only h).weaken (by decide)
  | rfRxAtten _ => exact (execRfRxAtten_only h).weaken (by decide)
  | rfCalRun _ => exact (execRfCalRun_only h).weaken (by decide)
  | rfCalGrant _ => exact (execRfCalGrant_only h).weaken (by decide)
  | rfPolicy _ => exact (execRfPolicy_only h).weaken (by decide)
  | rfObsMap _ => exact (execRfObsMap_only h).weaken (by decide)
  | attenDeferredApply _ => exact (execAttenDeferredApply_only h).weaken (by decide)
  | synthLock _ _ => exact (execSynthLock_only h).weaken (by decide)
  | synthUnlock _ => exact (execSynthUnlock_only h).weaken (by decide)
  | chainActivate _ => exact (execChainActivate_only h).weaken (by decide)
  | lockTimeout _ => exact (execLockTimeout_only h).weaken (by decide)
  | relockTimeout _ => exact (execRelockTimeout_only h).weaken (by decide)
  | calEvaluation => exact (execCalEvaluation_only h).weaken (by decide)
  | calibrationStart _ => exact (execCalibrationStart_only h).weaken (by decide)
  | calibrationComplete _ _ _ _ _ => exact (execCalibrationComplete_only h).weaken (by decide)
  | grantStart _ => exact (execGrantStart_only h).weaken (by decide)
  | converterSelfCheckFail _ => exact (execConverterSelfCheckFail_only h).weaken (by decide)
  | obsDwellStart _ => exact (execObsDwellStart_only h).weaken (by decide)
  | obsDwellEnd _ _ => exact (execObsDwellEnd_only h).weaken (by decide)
  | bpConfig _ => exact (execBpConfig_only h).weaken (by decide)
  | bpRelease _ => exact (execBpRelease_only h).weaken (by decide)
  | bpDetector _ => exact (execBpDetector_only h).weaken (by decide)
  | bpAlign _ => exact (execBpAlign_only h).weaken (by decide)
  | bpSyncPin _ => exact (execBpSyncPin_only h).weaken (by decide)
  | dpdConfig _ => exact (execDpdConfig_only h).weaken (by decide)
  | dpdControl _ => exact (execDpdControl_only h).weaken (by decide)
  | fadeOutEnd _ _ => exact (execFadeOutEnd_only h).weaken (by decide)
  | settleZerosEnd _ _ => exact (execSettleZerosEnd_only h).weaken (by decide)
  | fadeInEnd _ => exact (execFadeInEnd_only h).weaken (by decide)
  | alignmentApply => exact (execAlignmentApply_only h).weaken (by decide)
  | syncAlignEdge _ => exact (execSyncAlignEdge_only h).weaken (by decide)
  | syncAlignPulseEnd => exact (execSyncAlignPulseEnd_only h).weaken (by decide)
  | alignLossDetect _ _ => exact (execAlignLossDetect_only h).weaken (by decide)
  | detectorWindowEnd _ _ _ _ _ => exact (execDetectorWindowEnd_only h).weaken (by decide)
  | detectorSelfCheckFail _ _ => exact (execDetectorSelfCheckFail_only h).weaken (by decide)
  | pathSettleTimeout _ _ => exact (execPathSettleTimeout_only h).weaken (by decide)
  | dpdUpdateApply _ => exact (execDpdUpdateApply_only h).weaken (by decide)
  | dpdUpdateRevert _ => exact (execDpdUpdateRevert_only h).weaken (by decide)
  | dpdSetSwitch _ => exact (execDpdSetSwitch_only h).weaken (by decide)
  | flowBlockArrival _ _ _ _ => exact (execFlowBlockArrival_only h).weaken (by decide)
  | lgLoopConfig _ => exact (execLgLoopConfig_only h).weaken (by decide)
  | lgBeaconConfig _ => exact (execLgBeaconConfig_only h).weaken (by decide)
  | lgCancelConfig _ => exact (execLgCancelConfig_only h).weaken (by decide)
  | lgCancelControl _ => exact (execLgCancelControl_only h).weaken (by decide)
  | lgSearchConfig _ => exact (execLgSearchConfig_only h).weaken (by decide)
  | lgPolicy _ => exact (execLgPolicy_only h).weaken (by decide)
  | pilotPeriodEnd _ _ => exact (execPilotPeriodEnd_only h).weaken (by decide)
  | ladderStep _ => exact (execLadderStep_only h).weaken (by decide)
  | lineDetectorFrame _ _ _ => exact (execLineDetectorFrame_only h).weaken (by decide)
  | holdoffEnd _ _ => exact (execHoldoffEnd_only h).weaken (by decide)
  | reacquireFitComplete _ => exact (execReacquireFitComplete_only h).weaken (by decide)
  | cancellerSnapshotRestore _ => exact (execCancellerSnapshotRestore_only h).weaken (by decide)
  | marginCapReceive _ => exact (execMarginCapReceive_only h).weaken (by decide)
  | marginCapApply _ => exact (execMarginCapApply_only h).weaken (by decide)
  | marginLowTimeout _ => exact (execMarginLowTimeout_only h).weaken (by decide)
  | beaconLossTimeout _ => exact (execBeaconLossTimeout_only h).weaken (by decide)
  | admitReqReceive _ => exact (execAdmitReqReceive_only h).weaken (by decide)
  | admitGrantReceive _ => exact (execAdmitGrantReceive_only h).weaken (by decide)
  | admissionFrame => exact (execAdmissionFrame_only h).weaken (by decide)
  | gsSetGain _ => exact (execGsSetGain_only h).weaken (by decide)
  | gsMute _ => exact (execGsMute_only h).weaken (by decide)
  | npBackoffSet _ => exact (execNpBackoffSet_only h).weaken (by decide)
  | npPolicy _ => exact (execNpPolicy_only h).weaken (by decide)
  | ulGateConfig _ => exact (execUlGateConfig_only h).weaken (by decide)
  | ulNoiseConfig _ => exact (execUlNoiseConfig_only h).weaken (by decide)
  | npDonorConfig _ => exact (execNpDonorConfig_only h).weaken (by decide)
  | npOutputConfig _ => exact (execNpOutputConfig_only h).weaken (by decide)
  | gainRampEnd _ => exact (execGainRampEnd_only h).weaken (by decide)
  | noiseWindowFilled _ => exact (execNoiseWindowFilled_only h).weaken (by decide)
  | ulNoiseRiseTimeout _ => exact (execUlNoiseRiseTimeout_only h).weaken (by decide)
  | donorLossTimeout _ => exact (execDonorLossTimeout_only h).weaken (by decide)
  | donorRecovery _ => exact (execDonorRecovery_only h).weaken (by decide)
  | donorOverloadDetect _ => exact (execDonorOverloadDetect_only h).weaken (by decide)
  | clSlotConfig _ => exact (execClSlotConfig_only h).weaken (by decide)
  | clBankWrite _ => exact (execClBankWrite_only h).weaken (by decide)
  | clBankSwap _ => exact (execClBankSwap_only h).weaken (by decide)
  | clSetpoint _ => exact (execClSetpoint_only h).weaken (by decide)
  | clSlotControl _ => exact (execClSlotControl_only h).weaken (by decide)
  | clRepConfig _ => exact (execClRepConfig_only h).weaken (by decide)
  | clInject _ => exact (execClInject_only h).weaken (by decide)
  | clTraceConfig _ => exact (execClTraceConfig_only h).weaken (by decide)
  | clTraceRead _ => exact (execClTraceRead_only h).weaken (by decide)
  | clPolicy _ => exact (execClPolicy_only h).weaken (by decide)
  | slotIteration _ _ => exact (execSlotIteration_only h).weaken (by decide)
  | iterationOverrun _ => exact (execIterationOverrun_only h).weaken (by decide)
  | overrunHoldEnd _ => exact (execOverrunHoldEnd_only h).weaken (by decide)
  | loopSaturatedTimeout _ => exact (execLoopSaturatedTimeout_only h).weaken (by decide)
  | repBinBoundary _ => exact (execRepBinBoundary_only h).weaken (by decide)
  | repTableClear _ => exact (execRepTableClear_only h).weaken (by decide)
  | injectionStart _ => exact (execInjectionStart_only h).weaken (by decide)
  | injectionEnd _ => exact (execInjectionEnd_only h).weaken (by decide)
  | hvLinkTimeout => exact (execHvLinkTimeout_only h).weaken (by decide)
  | paConfig _ => exact (execPaConfig_only h).weaken (by decide)
  | paTiming _ => exact (execPaTiming_only h).weaken (by decide)
  | paBiasTable _ => exact (execPaBiasTable_only h).weaken (by decide)
  | cmpConfig _ => exact (execCmpConfig_only h).weaken (by decide)
  | cmpMode _ => exact (execCmpMode_only h).weaken (by decide)
  | paEnable _ => exact (execPaEnable_only h).weaken (by decide)
  | paBiasCal _ => exact (execPaBiasCal_only h).weaken (by decide)
  | casPolicy _ => exact (execCasPolicy_only h).weaken (by decide)
  | casIdentityRead _ => exact (execCasIdentityRead_only h).weaken (by decide)
  | drainRampEnd _ _ => exact (execDrainRampEnd_only h).weaken (by decide)
  | drainingComplete _ _ => exact (execDrainingComplete_only h).weaken (by decide)
  | gateOnEdge _ => exact (execGateOnEdge_only h).weaken (by decide)
  | gateOffEdge _ => exact (execGateOffEdge_only h).weaken (by decide)
  | comparatorTrip _ => exact (execComparatorTrip_only h).weaken (by decide)
  | comparatorTripClear _ => exact (execComparatorTripClear_only h).weaken (by decide)
  | tOffMinExpiry _ => exact (execTOffMinExpiry_only h).weaken (by decide)
  | comparatorQualify _ => exact (execComparatorQualify_only h).weaken (by decide)
  | tripHoldExpiry _ => exact (execTripHoldExpiry_only h).weaken (by decide)
  | cassetteIdPoll _ _ => exact (execCassetteIdPoll_only h).weaken (by decide)
  | cassetteIdentify _ _ => exact (execCassetteIdentify_only h).weaken (by decide)
  | biasCalComplete _ _ => exact (execBiasCalComplete_only h).weaken (by decide)
  | stressMinute => exact (execStressMinute_only h).weaken (by decide)
  | lifeRecordWrite => exact (execLifeRecordWrite_only h).weaken (by decide)
  | hkSlotMap _ => exact (execHkSlotMap_only h).weaken (by decide)
  | hkUrgent _ => exact (execHkUrgent_only h).weaken (by decide)
  | hkCalPoint _ => exact (execHkCalPoint_only h).weaken (by decide)
  | hkTestDac _ => exact (execHkTestDac_only h).weaken (by decide)
  | hkSupplyWindow _ => exact (execHkSupplyWindow_only h).weaken (by decide)
  | hkThermalPolicy _ => exact (execHkThermalPolicy_only h).weaken (by decide)
  | hkSlotEnd _ => exact (execHkSlotEnd_only h).weaken (by decide)
  | urgentSlotEnd _ => exact (execUrgentSlotEnd_only h).weaken (by decide)
  | hkRoundEnd _ => exact (execHkRoundEnd_only h).weaken (by decide)
  | calPointComplete _ => exact (execCalPointComplete_only h).weaken (by decide)
  | channelRecordLatch _ => exact (execChannelRecordLatch_only h).weaken (by decide)
  | clockMonitorCheck _ => exact (execClockMonitorCheck_only h).weaken (by decide)
  | flPortConfig _ => exact (execFlPortConfig_only h).weaken (by decide)
  | flFlockConfig _ => exact (execFlFlockConfig_only h).weaken (by decide)
  | flJoin _ => exact (execFlJoin_only h).weaken (by decide)
  | flLeave _ => exact (execFlLeave_only h).weaken (by decide)
  | flLaneControl _ => exact (execFlLaneControl_only h).weaken (by decide)
  | flMemberQuery _ => exact (execFlMemberQuery_only h).weaken (by decide)
  | flExpel _ => exact (execFlExpel_only h).weaken (by decide)
  | signalDetect _ => exact (execSignalDetect_only h).weaken (by decide)
  | laneUp _ _ => exact (execLaneUp_only h).weaken (by decide)
  | laneTrainTimeout _ => exact (execLaneTrainTimeout_only h).weaken (by decide)
  | laneDown _ _ => exact (execLaneDown_only h).weaken (by decide)
  | retrainBackoffExpiry _ => exact (execRetrainBackoffExpiry_only h).weaken (by decide)
  | laneSerWarn _ => exact (execLaneSerWarn_only h).weaken (by decide)
  | laneQualComplete _ => exact (execLaneQualComplete_only h).weaken (by decide)
  | laneSet _ _ _ => exact (execLaneSet_only h).weaken (by decide)
  | laneSetApply _ => exact (execLaneSetApply_only h).weaken (by decide)
  | flitReceive _ _ => exact (execFlitReceive_only h).weaken (by decide)
  | hello _ _ => exact (execHello_only h).weaken (by decide)
  | ttReq _ _ => exact (execTtReq_only h).weaken (by decide)
  | ttResp _ _ _ _ _ => exact (execTtResp_only h).weaken (by decide)
  | joinReq _ _ _ => exact (execJoinReq_only h).weaken (by decide)
  | joinResp port _ _ => exact (execJoinResp_only (x0 := port) h).weaken (by decide)
  | leave port _ _ _ _ => exact (execLeave_only (x0 := port) h).weaken (by decide)
  | leaveAck port _ _ _ _ => exact (execLeaveAck_only (x0 := port) h).weaken (by decide)
  | status _ _ _ => exact (execStatus_only h).weaken (by decide)
  | pathDown _ _ => exact (execPathDown_only h).weaken (by decide)
  | rehome _ _ _ _ _ => exact (execRehome_only h).weaken (by decide)
  | lost port _ _ _ => exact (execLost_only (x0 := port) h).weaken (by decide)
  | expel port _ => exact (execExpel_only (x0 := port) h).weaken (by decide)
  | joinReqSend => exact (execJoinReqSend_only h).weaken (by decide)
  | joinRespTimeout => exact (execJoinRespTimeout_only h).weaken (by decide)
  | backoffExpiry => exact (execBackoffExpiry_only h).weaken (by decide)
  | joinAdmission => exact (execJoinAdmission_only h).weaken (by decide)
  | memberTimeout _ => exact (execMemberTimeout_only h).weaken (by decide)
  | rehomeWaitExpiry => exact (execRehomeWaitExpiry_only h).weaken (by decide)
  | idHoldExpiry _ => exact (execIdHoldExpiry_only h).weaken (by decide)
  | leaveFrame => exact (execLeaveFrame_only h).weaken (by decide)
  | dvIntentSet _ => exact (execDvIntentSet_only h).weaken (by decide)
  | dvIntentClear _ => exact (execDvIntentClear_only h).weaken (by decide)
  | dvPolicy _ => exact (execDvPolicy_only h).weaken (by decide)
  | dvReplace _ => exact (execDvReplace_only h).weaken (by decide)
  | dvFlowQuery _ => exact (execDvFlowQuery_only h).weaken (by decide)
  | dvFlowControl _ => exact (execDvFlowControl_only h).weaken (by decide)
  | placementCompute => exact (execPlacementCompute_only h).weaken (by decide)
  | plan port _ _ _ _ _ _ => exact (execPlan_only (x0 := port) h).weaken (by decide)
  | planAck port _ _ _ => exact (execPlanAck_only (x0 := port) h).weaken (by decide)
  | planCancel port _ _ => exact (execPlanCancel_only (x0 := port) h).weaken (by decide)
  | planAckTimeout => exact (execPlanAckTimeout_only h).weaken (by decide)
  | bindStatus port _ _ => exact (execBindStatus_only (x0 := port) h).weaken (by decide)
  | flowReport port _ _ => exact (execFlowReport_only (x0 := port) h).weaken (by decide)
  | descriptorLoad => exact (execDescriptorLoad_only h).weaken (by decide)
  | planApply => exact (execPlanApply_only h).weaken (by decide)
  | planDrainEnd => exact (execPlanDrainEnd_only h).weaken (by decide)
  | targetDelayApply => exact (execTargetDelayApply_only h).weaken (by decide)
  | sumDeadline _ _ _ => exact (execSumDeadline_only h).weaken (by decide)
  | consumeDeadline _ _ => exact (execConsumeDeadline_only h).weaken (by decide)
  | flowQualComplete _ => exact (execFlowQualComplete_only h).weaken (by decide)
  | capArm _ => exact (execCapArm_only h).weaken (by decide)
  | capTrigger _ => exact (execCapTrigger_only h).weaken (by decide)
  | capControl _ => exact (execCapControl_only h).weaken (by decide)
  | arConfig _ => exact (execArConfig_only h).weaken (by decide)
  | arControl _ => exact (execArControl_only h).weaken (by decide)
  | arRestore _ => exact (execArRestore_only h).weaken (by decide)
  | memRetireClear _ => exact (execMemRetireClear_only h).weaken (by decide)
  | captureAtInstant _ => exact (execCaptureAtInstant_only h).weaken (by decide)
  | captureStop _ => exact (execCaptureStop_only h).weaken (by decide)
  | drainComplete => exact (execDrainComplete_only h).weaken (by decide)
  | restoreComplete _ => exact (execRestoreComplete_only h).weaken (by decide)
  | archiveFault _ => exact (execArchiveFault_only h).weaken (by decide)
  | patrolScrub _ => exact (execPatrolScrub_only h).weaken (by decide)
  | hbmUncorrectable _ _ _ _ => exact (execHbmUncorrectable_only h).weaken (by decide)
  | extentRemap => exact (execExtentRemap_only h).weaken (by decide)
  | stackPowerDown => exact (execStackPowerDown_only h).weaken (by decide)
  | bellConfig _ => exact (execBellConfig_only h).weaken (by decide)
  | bellEnable _ => exact (execBellEnable_only h).weaken (by decide)
  | keeperKey _ => exact (execKeeperKey_only h).weaken (by decide)
  | bellChainConfig _ => exact (execBellChainConfig_only h).weaken (by decide)
  | syncDetect _ => exact (execSyncDetect_only h).weaken (by decide)
  | headerComplete _ _ => exact (execHeaderComplete_only h).weaken (by decide)
  | clipCollision _ => exact (execClipCollision_only h).weaken (by decide)
  | payloadComplete _ => exact (execPayloadComplete_only h).weaken (by decide)
  | keeperRequest => exact (execKeeperRequest_only h).weaken (by decide)
  | chainPacketReceive => exact (execChainPacketReceive_only h).weaken (by decide)
  | bellTxStart _ => exact (execBellTxStart_only h).weaken (by decide)
  | bellTxEnd _ => exact (execBellTxEnd_only h).weaken (by decide)
  | ccaRetry _ => exact (execCcaRetry_only h).weaken (by decide)
  | keeperResponseDue => exact (execKeeperResponseDue_only h).weaken (by decide)
  | keeperResponseExpiry => exact (execKeeperResponseExpiry_only h).weaken (by decide)
  | bellTxWatchdog => exact (execBellTxWatchdog_only h).weaken (by decide)
  | synBellCalStart => exact (execSynBellCalStart_only h).weaken (by decide)
  | synBellLock _ => exact (execSynBellLock_only h).weaken (by decide)
  | bellTxResume => exact (execBellTxResume_only h).weaken (by decide)
  | chainHelloTimer => exact (execChainHelloTimer_only h).weaken (by decide)
  | neighbourExpiry _ => exact (execNeighbourExpiry_only h).weaken (by decide)
  | chainStatusTimer => exact (execChainStatusTimer_only h).weaken (by decide)
  | chainAckTimeout => exact (execChainAckTimeout_only h).weaken (by decide)
  | keeperLockoutExpiry _ => exact (execKeeperLockoutExpiry_only h).weaken (by decide)
  | faultClassConfig _ => exact (execFaultClassConfig_only h).weaken (by decide)
  | faultPolicy _ => exact (execFaultPolicy_only h).weaken (by decide)
  | faultAck _ => exact (execFaultAck_only h).weaken (by decide)
  | faultUnitPen _ => exact (execFaultUnitPen_only h).weaken (by decide)
  | faultUnitRelease _ => exact (execFaultUnitRelease_only h).weaken (by decide)
  | faultHaltRelease _ => exact (execFaultHaltRelease_only h).weaken (by decide)
  | faultFfClear _ => exact (execFaultFfClear_only h).weaken (by decide)
  | faultInject _ => exact (execFaultInject_only h).weaken (by decide)
  | faultTableRead _ => exact (execFaultTableRead_only h).weaken (by decide)
  | collectorCycle => exact (execCollectorCycle_only h).weaken (by decide)
  | reactionStart => exact (execReactionStart_only h).weaken (by decide)
  | reactionComplete => exact (execReactionComplete_only h).weaken (by decide)
  | consequenceWindowClose => exact (execConsequenceWindowClose_only h).weaken (by decide)
  | haltReleaseFrame => exact (execHaltReleaseFrame_only h).weaken (by decide)
  | logMode _ => exact (execLogMode_only h).weaken (by decide)
  | logRead _ => exact (execLogRead_only h).weaken (by decide)
  | logClear _ => exact (execLogClear_only h).weaken (by decide)
  | logMediaReset _ => exact (execLogMediaReset_only h).weaken (by decide)
  | logWrite _ => exact (execLogWrite_only h).weaken (by decide)
  | logVerify _ => exact (execLogVerify_only h).weaken (by decide)
  | recordCommit => exact (execRecordCommit_only h).weaken (by decide)
  | logClearComplete _ => exact (execLogClearComplete_only h).weaken (by decide)
  | logBankScrub _ _ _ => exact (execLogBankScrub_only h).weaken (by decide)
  | mirrorWrite _ _ => exact (execMirrorWrite_only h).weaken (by decide)
  | doorbellWrite _ _ => exact (execDoorbellWrite_only h).weaken (by decide)
  | commandStart => exact (execCommandStart_only h).weaken (by decide)
  | irqStatusWrite _ => exact (execIrqStatusWrite_only h).weaken (by decide)
  | irqEnableWrite _ => exact (execIrqEnableWrite_only h).weaken (by decide)
  | irqNEnableWrite _ => exact (execIrqNEnableWrite_only h).weaken (by decide)
  | doorbellOverrunWrite _ => exact (execDoorbellOverrunWrite_only h).weaken (by decide)
  | evtAckWrite _ => exact (execEvtAckWrite_only h).weaken (by decide)
  | eventHoldoffExpiry => exact (execEventHoldoffExpiry_only h).weaken (by decide)
  | siteEdgeWrite _ => exact (execSiteEdgeWrite_only h).weaken (by decide)
  | logCursorWrite _ => exact (execLogCursorWrite_only h).weaken (by decide)
  | capWinWrite _ _ => exact (execCapWinWrite_only h).weaken (by decide)
  | registerWrite _ _ _ _ => exact (execRegisterWrite_only h).weaken (by decide)
  | lowHalfRead _ _ => exact (execLowHalfRead_only h).weaken (by decide)
  | pcieReset _ => exact (execPcieReset_only h).weaken (by decide)
  | ethRequest _ => exact (execEthRequest_only h).weaken (by decide)
  | ethRead _ => exact (execEthRead_only h).weaken (by decide)
  | spiTransfer _ _ _ _ => exact (execSpiTransfer_only h).weaken (by decide)
  | i2cTransfer _ _ => exact (execI2cTransfer_only h).weaken (by decide)
  | nonceExpiry _ => exact (execNonceExpiry_only h).weaken (by decide)
  | sessionIdleExpiry _ => exact (execSessionIdleExpiry_only h).weaken (by decide)
  | hostLockoutExpiry _ => exact (execHostLockoutExpiry_only h).weaken (by decide)
  | siteSample _ => exact (execSiteSample_only h).weaken (by decide)
  | sysNop _ => exact (execSysNop_only h).weaken (by decide)
  | sysSessionOpen _ => exact (execSysSessionOpen_only h).weaken (by decide)
  | sysSessionClose _ => exact (execSysSessionClose_only h).weaken (by decide)
  | sysHostConfig _ => exact (execSysHostConfig_only h).weaken (by decide)
  | sysNetConfig _ => exact (execSysNetConfig_only h).weaken (by decide)
  | sysSiteConfig _ => exact (execSysSiteConfig_only h).weaken (by decide)
  | pwrStateSet _ => exact (execPwrStateSet_only h).weaken (by decide)
  | pwrWakeConfig _ => exact (execPwrWakeConfig_only h).weaken (by decide)
  | pwrLimitSet _ => exact (execPwrLimitSet_only h).weaken (by decide)
  | pwrReset _ => exact (execPwrReset_only h).weaken (by decide)
  | lcProvision _ => exact (execLcProvision_only h).weaken (by decide)
  | lcAdvance _ => exact (execLcAdvance_only h).weaken (by decide)
  | lcRoleSet _ => exact (execLcRoleSet_only h).weaken (by decide)
  | keyInstall _ => exact (execKeyInstall_only h).weaken (by decide)
  | dbgPolicy _ => exact (execDbgPolicy_only h).weaken (by decide)
  | fwWrite _ => exact (execFwWrite_only h).weaken (by decide)
  | fwControl _ => exact (execFwControl_only h).weaken (by decide)
  | keysZeroised => exact (execKeysZeroised_only h).weaken (by decide)
  | debugAuthRequest _ => exact (execDebugAuthRequest_only h).weaken (by decide)
  | debugOpenRequest _ => exact (execDebugOpenRequest_only h).weaken (by decide)
  | debugSessionClose _ => exact (execDebugSessionClose_only h).weaken (by decide)
  | debugLockoutExpiry => exact (execDebugLockoutExpiry_only h).weaken (by decide)
  | securityViolation _ => exact (execSecurityViolation_only h).weaken (by decide)
  | pairConfig _ => exact (execPairConfig_only h).weaken (by decide)
  | pairSwitchover _ => exact (execPairSwitchover_only h).weaken (by decide)
  | pairTailRead _ => exact (execPairTailRead_only h).weaken (by decide)
  | pairHb _ _ => exact (execPairHb_only h).weaken (by decide)
  | pairHbMissed _ => exact (execPairHbMissed_only h).weaken (by decide)
  | pairSync _ _ => exact (execPairSync_only h).weaken (by decide)
  | mirrorPeriodicSync => exact (execMirrorPeriodicSync_only h).weaken (by decide)
  | pairWaitTimeout => exact (execPairWaitTimeout_only h).weaken (by decide)
  | bulkSyncTimeout => exact (execBulkSyncTimeout_only h).weaken (by decide)
  | pairLinkRecovery => exact (execPairLinkRecovery_only h).weaken (by decide)
  | pairTakeover => exact (execPairTakeover_only h).weaken (by decide)
  | pairDemote => exact (execPairDemote_only h).weaken (by decide)
  | portTrainingStart => exact (execPortTrainingStart_only h).weaken (by decide)
  | refInLoss _ => exact (execRefInLoss_only h).weaken (by decide)
  | stackPowerUpComplete => exact (execStackPowerUpComplete_only h).weaken (by decide)
  | hbmCorrectedError _ => exact (execHbmCorrectedError_only h).weaken (by decide)
  | arControlComplete _ => exact (execArControlComplete_only h).weaken (by decide)
  | logMediaResetComplete _ _ => exact (execLogMediaResetComplete_only h).weaken (by decide)
  | logVerifyComplete => exact (execLogVerifyComplete_only h).weaken (by decide)
  | fwVerifyComplete _ => exact (execFwVerifyComplete_only h).weaken (by decide)
  | paEnableQualTimeout _ => exact (execPaEnableQualTimeout_only h).weaken (by decide)
  | i2cHeartbeatTick => exact (execI2cHeartbeatTick_only h).weaken (by decide)

theorem exec_pending {i : Instr} {s t : State} (h : exec i s = .next t) : t.pending = s.pending :=
  exec_only h .pending rfl

theorem step_of_pending_cons {s : State} {c : Instr} {rest : List Instr} (h : s.pending = c :: rest) :
    step s = exec c { s with pending := rest } := by
  unfold step
  rw [h]

theorem step_of_pending_nil {s : State} (h : s.pending = []) : step s = .next (idle s) := by
  unfold step
  rw [h]

theorem idle_only (s : State) : Only 1 s (idle s) := Only.ite (Only.refl 1 s) (advance_only (Only.refl 1 s) rfl)

/-- Settles O1. -/
theorem stepRunsFrontCommand : Obligations.StepRunsFrontCommand := by
  unfold Obligations.StepRunsFrontCommand
  exact fun s c rest h => step_of_pending_cons h

/-- Settles O2: the idle step is `advance 1` outside DORMANT. -/
theorem emptyQueueLetsOneTcPass : Obligations.EmptyQueueLetsOneTcPass := by
  unfold Obligations.EmptyQueueLetsOneTcPass
  intro s h
  refine ⟨idle s, step_of_pending_nil h, ?_, fun hd => if_pos hd, fun hd => ⟨?_, ?_⟩⟩
  · rw [idle_only s .pending rfl, h]
  · rw [idle, if_neg hd]
    rfl
  · exact (idle_only s).changesOnly_of_mask (by decide)

/-- Settles O6: the front command is taken before it runs, and no row touches the queue. -/
theorem everyStepTakesOneFromQueue : Obligations.EveryStepTakesOneFromQueue := by
  unfold Obligations.EveryStepTakesOneFromQueue
  intro s t h
  cases hq : s.pending with
  | nil =>
    rw [step_of_pending_nil hq] at h
    injection h with h
    rw [← h, idle_only s .pending rfl, hq, List.tail_nil]
  | cons c rest =>
    rw [step_of_pending_cons hq] at h
    exact exec_pending h

/-- Settles O3: every clause is a field of the reset state. -/
theorem resetGivesSpecValues : Obligations.ResetGivesSpecValues := by
  unfold Obligations.ResetGivesSpecValues
  refine ⟨rfl, rfl, rfl, rfl, rfl, by decide, rfl, rfl, rfl, rfl, rfl, rfl, rfl, rfl, rfl, fun _ => rfl, by decide, rfl, rfl,
    rfl, rfl, rfl, rfl, rfl, rfl⟩

/-- Settles O4. -/
theorem resetAirTimeInRange : Obligations.ResetAirTimeInRange := by
  unfold Obligations.ResetAirTimeInRange AirState.inRange
  decide

end Sys2Proof.Machine
end

section
set_option Elab.async false
/-! How a step moves the clock: `Clock s t` says that air time is an instant after if it was one before (R10, R11), and that
monotonic time has not gone back (R12). The relation composes, so that each operation on air time has one lemma, which takes the
lemma of the state it is applied to; an operation that leaves the air-time part alone needs its frame only. -/

namespace Sys2Proof.Machine

open Sys2Proof

/-- The air-time count, as it stands in the counters, and monotonic time. -/
def AirState.time (a : AirState) : Nat × Nat × Nat × Nat := (a.frame, a.offset, a.frac, a.mono)

/-- The clock of `t` comes after the clock of `s`. -/
def AirState.Later (a b : AirState) : Prop := (a.inRange → b.inRange) ∧ a.mono ≤ b.mono

theorem AirState.Later.refl (a : AirState) : a.Later a := ⟨id, le_rfl⟩

theorem AirState.Later.trans {a b c : AirState} (h : a.Later b) (k : b.Later c) : a.Later c :=
  ⟨k.1 ∘ h.1, h.2.trans k.2⟩

theorem AirState.Later.of_time_eq {a b : AirState} (h : b.time = a.time) : a.Later b := by
  simp only [AirState.time, Prod.mk.injEq] at h
  obtain ⟨hframe, hoffset, hfrac, hmono⟩ := h
  exact ⟨fun ha => by simpa only [AirState.inRange, hframe, hoffset, hfrac] using ha, hmono.ge⟩

/-- The count is an instant wherever it is moved to (R11). -/
theorem moveCount_inRange (a : AirState) (fine : Int) : (a.moveCount fine).inRange := by
  simp only [AirState.inRange, AirState.moveCount, tcPerFrame]
  omega

theorem pass_inRange (a : AirState) (dt : Nat) : (a.pass dt).inRange := moveCount_inRange a (fineOver a dt)

theorem pass_later (a : AirState) (dt : Nat) : a.Later (a.pass dt) := ⟨fun _ => pass_inRange a dt, Nat.le_add_right ..⟩

theorem sleep_later (a : AirState) (n : Nat) : a.Later (a.sleep n) := ⟨id, Nat.le_add_right ..⟩

theorem passTo_later (a : AirState) (i : AirInstant) : a.Later (a.passTo i) := by
  unfold AirState.passTo
  dsimp only
  split
  · exact .refl a
  · refine ⟨fun _ => ⟨Nat.mod_lt _ (by decide), Nat.mod_lt _ (by decide), ?_⟩, (pass_later a _).2⟩
    dsimp only
    omega

/-- The clock of the state `t` comes after that of `s`. -/
def Clock (s t : State) : Prop := s.air.Later t.air

theorem Clock.refl (s : State) : Clock s s := AirState.Later.refl s.air

theorem Clock.trans {s t u : State} (h : Clock s t) (k : Clock t u) : Clock s u := AirState.Later.trans h k

theorem Clock.of_air_eq {s t : State} (h : t.air = s.air) : Clock s t := .of_time_eq (congrArg _ h)

/-- What leaves the air-time part alone leaves the clock alone. -/
theorem Clock.keeps {s t u : State} (h : Clock s t) (k : Only 1048574 t u) : Clock s u :=
  h.trans (.of_air_eq (k .air rfl))

theorem Clock.later {s0 s : State} {f : AirState → AirState} (h : Clock s0 s) (k : s.air.Later (f s.air)) :
    Clock s0 (s.modAir f) := h.trans k

/-- A change of the air-time part that leaves the counters alone. -/
theorem Clock.modAir {s0 s : State} {f : AirState → AirState} (h : Clock s0 s) (k : ∀ a, (f a).time = a.time := by intro; rfl) :
    Clock s0 (s.modAir f) := h.later (.of_time_eq (k _))

theorem Clock.ite {s t u : State} {c : Prop} {d : Decidable c} (h : Clock s t) (k : Clock s u) :
    Clock s (if c then t else u) := by
  split
  · exact h
  · exact k

theorem Clock.foldl {α : Type} {s u : State} {g : State → α → State} {l : List α} (h : Clock s u)
    (k : ∀ a x, Clock s a → Clock s (g a x)) : Clock s (l.foldl g u) := by
  induction l generalizing u with
  | nil => exact h
  | cons x xs ih => exact ih (k _ _ h)

theorem Clock.ite1 {β : Type} {s : State} {t u : State × β} {c : Prop} {d : Decidable c} (h : Clock s t.1) (k : Clock s u.1) :
    Clock s (if c then t else u).1 := by
  split
  · exact h
  · exact k

theorem Clock.ite2 {β : Type} {s : State} {t u : β × State} {c : Prop} {d : Decidable c} (h : Clock s t.2) (k : Clock s u.2) :
    Clock s (if c then t else u).2 := by
  split
  · exact h
  · exact k

theorem Clock.foldl1 {β α : Type} {s : State} {u : State × β} {g : State × β → α → State × β} {l : List α} (h : Clock s u.1)
    (k : ∀ a x, Clock s a.1 → Clock s (g a x).1) : Clock s (l.foldl g u).1 := by
  induction l generalizing u with
  | nil => exact h
  | cons x xs ih => exact ih (k _ _ h)

theorem Clock.foldl2 {β α : Type} {s : State} {u : β × State} {g : β × State → α → β × State} {l : List α} (h : Clock s u.2)
    (k : ∀ a x, Clock s a.2 → Clock s (g a x).2) : Clock s (l.foldl g u).2 := by
  induction l generalizing u with
  | nil => exact h
  | cons x xs ih => exact ih (k _ _ h)

theorem advance_clock {s0 : State} {x0 : Nat} {s : State} (h : Clock s0 s) : Clock s0 (advance x0 s) :=
  h.later (pass_later _ _)

theorem advanceTo_clock {s0 : State} {x0 : Nat} {s : State} (h : Clock s0 s) : Clock s0 (advanceTo x0 s) := by
  unfold advanceTo
  exact advance_clock h

theorem waitUntil_clock {s0 : State} {x0 : Nat} {s : State} (h : Clock s0 s) : Clock s0 (waitUntil x0 s) := by
  unfold waitUntil
  exact Clock.ite (h.later (sleep_later _ _)) (advanceTo_clock h)

theorem advanceToAir_clock {s0 : State} {x0 : AirInstant} {s : State} (h : Clock s0 s) : Clock s0 (advanceToAir x0 s) :=
  h.later (passTo_later _ _)

theorem advanceToBoundary_clock {s0 : State} {x0 : Nat} {x1 : Nat} {s : State}
    (h : Clock s0 s) : Clock s0 (advanceToBoundary x0 x1 s) := by
  unfold advanceToBoundary
  exact Clock.modAir (advanceToAir_clock h)

theorem mirrorWrite_clock {s0 : State} {x0 : Bool} {x1 : Bool} {s : State}
    (h : Clock s0 s) : Clock s0 (mirrorWrite x0 x1 s) := by
  unfold mirrorWrite
  split
  · exact h
  · dsimp only
    split
    · exact Clock.keeps (Clock.ite (advanceTo_clock h) h) (State_modLog_only (Only.refl _ _) rfl)
    · exact Clock.ite (Clock.keeps (Clock.ite (advanceTo_clock h) h) (State_modLog_only (Only.refl _ _) rfl)) (Clock.ite
        (Clock.keeps (Clock.ite (advanceTo_clock h) h) (State_modLog_only (Only.refl _ _) rfl)) (Clock.keeps (Clock.ite
        (advanceTo_clock h) h) (raiseFault_only (State_modLog_only (Only.refl _ _) rfl) rfl)))

theorem fadeTowards_clock {s0 : State} {x0 : Nat} {x1 : List (Dir × Nat)} {s : State}
    (h : Clock s0 s) : Clock s0 (fadeTowards x0 x1 s) := by
  unfold fadeTowards
  exact Clock.foldl h (fun _ _ h0 => (Clock.keeps (advanceTo_clock h0) (realignFade_only (Only.refl _ _) rfl)))

theorem notePatterns_clock {s0 : State} {x0 : Nat} {x1 : Nat} {x2 : List (AirInstant × Cx)} {s : State}
    (h : Clock s0 s) : Clock s0 (notePatterns x0 x1 x2 s) := by
  unfold notePatterns
  exact Clock.modAir h

theorem ingressBlock_clock {s0 : State} {x0 : Nat} {s : State} {x2 : RawBlock}
    (h : Clock s0 s) : Clock s0 (ingressBlock x0 s x2) := by
  unfold ingressBlock
  split
  · exact h
  · dsimp only
    split
    · refine Clock.keeps (Clock.ite (notePatterns_clock (h.keeps (modBand_only ?_ rfl))) (h.keeps (modBand_only ?_ rfl)))
        (State_modNp_only (tapBlock_only (Only.refl _ _) rfl) rfl)
      · split
        · exact State_modLg_only (Only.refl _ _) rfl
        · exact Only.refl _ _
      · split
        · exact State_modLg_only (Only.refl _ _) rfl
        · exact Only.refl _ _
    · refine Clock.keeps (Clock.ite (notePatterns_clock (h.keeps (modBand_only ?_ rfl))) (h.keeps (modBand_only ?_ rfl)))
        (passOn_only (tapBlock_only (Only.refl _ _) rfl) rfl)
      · split
        · exact State_modLg_only (Only.refl _ _) rfl
        · exact Only.refl _ _
      · split
        · exact State_modLg_only (Only.refl _ _) rfl
        · exact Only.refl _ _

theorem feed_clock {s0 : State} {x0 : Nat} {x1 : List RawBlock} {s : State} (h : Clock s0 s) : Clock s0 (feed x0 x1 s) := by
  unfold feed
  exact Clock.foldl h (fun _ _ h0 => (ingressBlock_clock h0))

theorem advanceToSymbol_clock {s0 : State} {x0 : Nat} {x1 : Nat} {s : State}
    (h : Clock s0 s) : Clock s0 (advanceToSymbol x0 x1 s) := by
  unfold advanceToSymbol
  exact Clock.modAir (advanceToAir_clock h)

theorem symbolBoundary_clock {s0 : State} {x0 : Dir} {x1 : Nat} {x2 : List RawBlock} {s : State}
    (h : Clock s0 s) : Clock s0 (symbolBoundary x0 x1 x2 s) := by
  unfold symbolBoundary
  split
  · exact h
  · dsimp only
    split
    · exact Clock.ite (feed_clock (advanceToSymbol_clock h)) (advanceToSymbol_clock h)
    · exact Clock.ite (Clock.keeps (Clock.ite (feed_clock (advanceToSymbol_clock h)) (advanceToSymbol_clock h))
        (gateDecides_only (modBand_only (Only.refl _ _) rfl) rfl)) (Clock.keeps (Clock.ite (feed_clock
        (advanceToSymbol_clock h)) (advanceToSymbol_clock h)) (modBand_only (Only.refl _ _) rfl))

theorem ulNoiseRiseTimeout_clock {s0 : State} {x0 : Nat} {s : State}
    (h : Clock s0 s) : Clock s0 (ulNoiseRiseTimeout x0 s) := by
  unfold ulNoiseRiseTimeout
  split
  · exact h
  · exact Clock.keeps (advanceTo_clock h) (raiseFault_only (State_modNp_only (Only.refl _ _) rfl) rfl)

theorem donorLossTimeout_clock {s0 : State} {x0 : Nat} {s : State} (h : Clock s0 s) : Clock s0 (donorLossTimeout x0 s) := by
  unfold donorLossTimeout
  dsimp only
  split
  · exact h
  · exact Clock.ite h (Clock.keeps (advanceTo_clock h) (raiseLevel_only (State_modNp_only (Only.refl _ _) rfl) rfl))

theorem donorRecovery_clock {s0 : State} {x0 : Nat} {s : State} (h : Clock s0 s) : Clock s0 (donorRecovery x0 s) := by
  unfold donorRecovery
  dsimp only
  split
  · exact h
  · exact Clock.ite (Clock.keeps (advanceTo_clock h) (endFault_only (State_modNp_only (Only.refl _ _) rfl) rfl)) h

theorem attenDeferredApply_clock {s0 : State} {x0 : Nat} {s : State}
    (h : Clock s0 s) : Clock s0 (attenDeferredApply x0 s) := by
  unfold attenDeferredApply
  dsimp only
  split
  · exact Clock.keeps (advanceTo_clock h) (applyAtten_only (Only.refl _ _) rfl)
  · exact h

theorem synthLock_clock {s0 : State} {x0 : Nat} {x1 : Nat} {s : State} (h : Clock s0 s) : Clock s0 (synthLock x0 x1 s) := by
  unfold synthLock
  dsimp only
  split
  · exact Clock.ite (Clock.keeps (advanceTo_clock h) (lockDeclared_only (Only.refl _ _) rfl)) h
  · exact h.keeps (Only.ite (Only.refl _ _) (Only.ite (chainDeliversAgain_only (takeStored_only (endFault_only
      (modChain_only (Only.refl _ _) rfl) rfl) rfl) rfl) (endFault_only (modChain_only (Only.refl _ _) rfl) rfl)))

theorem chainActivate_clock {s0 : State} {x0 : Nat} {s : State} (h : Clock s0 s) : Clock s0 (chainActivate x0 s) := by
  unfold chainActivate
  dsimp only
  split
  · exact Clock.keeps (advanceTo_clock h) (powerDown_only (Only.refl _ _) rfl)
  · exact h
  · split
    · exact Clock.keeps (advanceToAir_clock h) (Only.ite (modChain_only (Only.ite (becomeActive_only (modChain_only
        (Only.refl _ _) rfl) rfl) (modChain_only (Only.refl _ _) rfl)) rfl) (startHeld_only (Only.ite (becomeActive_only
        (modChain_only (Only.refl _ _) rfl) rfl) (modChain_only (Only.refl _ _) rfl)) rfl))
    · exact Clock.keeps (advanceToAir_clock h) (startHeld_only (Only.ite (becomeActive_only (modChain_only
        (Only.refl _ _) rfl) rfl) (modChain_only (Only.refl _ _) rfl)) rfl)
    · exact Clock.keeps (advanceToAir_clock h) (Only.ite (becomeActive_only (modChain_only (Only.refl _ _) rfl) rfl)
        (modChain_only (Only.refl _ _) rfl))

theorem configTimeout_clock {s0 : State} {x0 : Nat} {x1 : Nat} {s : State}
    (h : Clock s0 s) : Clock s0 (configTimeout x0 x1 s) := by
  unfold configTimeout
  dsimp only
  split
  · exact Clock.keeps (advanceTo_clock h) (powerDown_only (dropHeld_only (completeOpt_only (modChain_only
      (Only.refl _ _) rfl) rfl) rfl) rfl)
  · exact Clock.keeps (advanceTo_clock h) (startOp_only (bandsRetuned_only (modChain_only (completeOpt_only (modChain_only
      (Only.refl _ _) rfl) rfl) rfl) rfl) rfl)
  · exact Clock.keeps (advanceTo_clock h) (completeOpt_only (modChain_only (Only.refl _ _) rfl) rfl)

theorem enableTimeout_clock {s0 : State} {x0 : Nat} {x1 : Ticket} {x2 : Nat} {s : State}
    (h : Clock s0 s) : Clock s0 (enableTimeout x0 x1 x2 s) := by
  unfold enableTimeout
  exact Clock.keeps (advanceTo_clock h) (relockHere_only (complete_only (modChain_only (Only.refl _ _) rfl) rfl) rfl)

theorem lockTimeout_clock {s0 : State} {x0 : Nat} {s : State} (h : Clock s0 s) : Clock s0 (lockTimeout x0 s) := by
  unfold lockTimeout
  dsimp only
  split
  · exact Clock.ite (enableTimeout_clock h) (configTimeout_clock h)
  · exact configTimeout_clock h
  · exact enableTimeout_clock h
  · exact h

theorem relockTimeout_clock {s0 : State} {x0 : Nat} {s : State} (h : Clock s0 s) : Clock s0 (relockTimeout x0 s) := by
  unfold relockTimeout
  split
  · exact Clock.keeps (advanceTo_clock h) (raiseLevel_only (modChain_only (Only.refl _ _) rfl) rfl)
  · exact h

theorem calEvaluation_clock {s0 : State} {s : State} (h : Clock s0 s) : Clock s0 (calEvaluation s) := by
  unfold calEvaluation
  exact Clock.keeps (advanceTo_clock h) (Only.foldl (refreshDue_only (Only.refl _ _) rfl) (fun _ _ h0 =>
    (tryCalibration_only h0 rfl)))

theorem calibrationStart_clock {s0 : State} {x0 : Nat} {s : State} (h : Clock s0 s) : Clock s0 (calibrationStart x0 s) := by
  unfold calibrationStart
  dsimp only
  split
  · exact Clock.keeps (advanceTo_clock h) (Only.ite (Only.ite (chainDeliversAgain_only (modChain_only
      (Only.refl _ _) rfl) rfl) (refreshGains_only (modChain_only (Only.refl _ _) rfl) rfl)) (startOp_only (modChain_only
      (Only.refl _ _) rfl) rfl))
  · exact h

theorem calibrationComplete_clock {s0 : State} {x0 : Nat} {x1 : Nat} {x2 : Bool} {x3 : ℤ} {x4 : ℤ} {x5 : FrontCal} {s : State}
    (h : Clock s0 s) : Clock s0 (calibrationComplete x0 x1 x2 x3 x4 x5 s) := by
  unfold calibrationComplete
  dsimp only
  split
  · exact h
  · exact Clock.ite h (Clock.keeps (advanceTo_clock h) (Only.ite (raiseMoment_only (Only.foldl (State_modRf_only
      (noteForced_only (Only.refl _ _) rfl) rfl) (fun _ _ h0 => (complete_only h0 rfl))) rfl) (lockDeclared_only
      (noteForced_only (Only.ite (Only.ite (endFault_only (Only.ite (cancellersReacquire_only (State_modRf_only
      (Only.refl _ _) rfl) rfl) (State_modRf_only (Only.refl _ _) rfl)) rfl) (raiseLevel_only (Only.ite
      (cancellersReacquire_only (State_modRf_only (Only.refl _ _) rfl) rfl) (State_modRf_only (Only.refl _ _) rfl)) rfl))
      (Only.ite (cancellersReacquire_only (State_modRf_only (Only.refl _ _) rfl) rfl) (State_modRf_only
      (Only.refl _ _) rfl))) rfl) rfl)))

theorem grantStart_clock {s0 : State} {x0 : Nat} {s : State} (h : Clock s0 s) : Clock s0 (grantStart x0 s) := by
  unfold grantStart
  split
  · exact h
  · exact Clock.ite h (Clock.keeps (advanceToAir_clock h) (State_modRf_only (Only.refl _ _) rfl))

theorem gainRampEnd_clock {s0 : State} {x0 : Nat} {s : State} (h : Clock s0 s) : Clock s0 (gainRampEnd x0 s) := by
  unfold gainRampEnd
  split
  · exact h
  · exact Clock.keeps (advanceTo_clock h) (reviewMove_only (afterRamp_only (refreshGains_only (Only.refl _ _) rfl) rfl) rfl)

theorem fadeOutEnd_clock {s0 : State} {x0 : Dir} {x1 : Nat} {s : State}
    (h : Clock s0 s) : Clock s0 (fadeOutEnd x0 x1 s) := by
  unfold fadeOutEnd
  split
  · exact h
  · refine Clock.ite ?_ h
    dsimp only
    split
    · exact Clock.keeps (advanceTo_clock h) (fadeOutDone_only (Only.refl _ _) rfl)
    · split
      · exact Clock.keeps (advanceTo_clock h) (Only.ite (startOp_only (fadeOutDone_only (Only.refl _ _) rfl) rfl)
          (fadeOutDone_only (Only.refl _ _) rfl))
      · exact Clock.keeps (advanceTo_clock h) (fadeOutDone_only (Only.refl _ _) rfl)

theorem settleZerosEnd_clock {s0 : State} {x0 : Dir} {x1 : Nat} {s : State}
    (h : Clock s0 s) : Clock s0 (settleZerosEnd x0 x1 s) := by
  unfold settleZerosEnd
  split
  · exact Clock.ite (Clock.keeps (advanceTo_clock h) (zerosDone_only (Only.refl _ _) rfl)) h
  · exact h

theorem fadeInEnd_clock {s0 : State} {x0 : Nat} {s : State} (h : Clock s0 s) : Clock s0 (fadeInEnd x0 s) := by
  unfold fadeInEnd
  split
  · exact Clock.ite (Clock.keeps (advanceTo_clock h) (restartGate_only (fadeInDone_only (Only.refl _ _) rfl) rfl)) h
  · exact h

theorem pathSettleTimeout_clock {s0 : State} {x0 : Dir} {x1 : Nat} {s : State}
    (h : Clock s0 s) : Clock s0 (pathSettleTimeout x0 x1 s) := by
  unfold pathSettleTimeout
  split
  · exact Clock.ite (Clock.keeps (advanceTo_clock h) (raiseMoment_only (Only.refl _ _) rfl)) h
  · exact h

theorem alignmentApply_clock {s0 : State} {s : State} (h : Clock s0 s) : Clock s0 (alignmentApply s) := by
  unfold alignmentApply
  split
  · exact h
  · exact Clock.keeps (advanceToAir_clock (fadeTowards_clock h)) (State_modCe_only (Only.foldl (Only.refl _ _)
      (fun _ _ h0 => (realignNow_only h0 rfl))) rfl)

theorem syncAlignPulseEnd_clock {s0 : State} {s : State} (h : Clock s0 s) : Clock s0 (syncAlignPulseEnd s) := by
  unfold syncAlignPulseEnd
  split
  · exact Clock.keeps (advanceTo_clock h) (State_modCe_only (Only.refl _ _) rfl)
  · exact h

theorem detectorWindowEnd_clock {s0 : State} {x0 : Dir} {x1 : Nat} {x2 : List RawBlock} {x3 : List (List Nat)} {s : State}
    (h : Clock s0 s) : Clock s0 (detectorWindowEnd x0 x1 x2 x3 s) := by
  unfold detectorWindowEnd
  split
  · exact h
  · extract_lets i s1 s2
    have h2 : Clock s0 s2 := Clock.ite (feed_clock (advanceToAir_clock h)) (advanceToAir_clock h)
    split
    · exact h2
    · extract_lets x mean peak broken ok m s3 s4 s5
      have h4 : Clock s0 s4 := h2.keeps (levelTrigger_only (modBand_only (Only.refl _ _) rfl) rfl)
      have h5 : Clock s0 s5 := Clock.ite (h4.keeps (raiseLevel_only (Only.refl _ _) rfl))
        (Clock.ite (h4.keeps (endFault_only (Only.refl _ _) rfl)) h4)
      split
      · exact h5
      · exact h5.keeps (refreshGains_only (noiseWindow_only (Only.refl _ _) rfl) rfl)

theorem toNextSlot_clock {s0 : State} {s : State} (h : Clock s0 s) : Clock s0 (toNextSlot s) := by
  unfold toNextSlot
  exact advanceToAir_clock h

theorem dpdUpdateApply_clock {s0 : State} {x0 : Nat} {s : State} (h : Clock s0 s) : Clock s0 (dpdUpdateApply x0 s) := by
  unfold dpdUpdateApply
  dsimp only
  split
  · exact Clock.keeps (toNextSlot_clock h) (modDpd_only (Only.refl _ _) rfl)
  · exact h

theorem dpdUpdateRevert_clock {s0 : State} {x0 : Nat} {s : State} (h : Clock s0 s) : Clock s0 (dpdUpdateRevert x0 s) := by
  unfold dpdUpdateRevert
  exact Clock.ite (Clock.keeps (toNextSlot_clock h) (Only.ite (dpdDiverge_only (modDpd_only (Only.refl _ _) rfl) rfl)
    (modDpd_only (Only.refl _ _) rfl))) h

theorem dpdSetSwitch_clock {s0 : State} {x0 : Nat} {s : State} (h : Clock s0 s) : Clock s0 (dpdSetSwitch x0 s) := by
  unfold dpdSetSwitch
  split
  · exact Clock.keeps (toNextSlot_clock h) (modDpd_only (Only.refl _ _) rfl)
  · exact h

theorem feedPaths_clock {s0 : State} {x0 : List PathBlocks} {s : State} (h : Clock s0 s) : Clock s0 (feedPaths x0 s) := by
  unfold feedPaths
  exact Clock.foldl h (fun _ _ h0 => (feed_clock h0))

theorem pilotPeriodEnd_clock {s0 : State} {x0 : Nat} {x1 : PilotInput} {s : State}
    (h : Clock s0 s) : Clock s0 (pilotPeriodEnd x0 x1 s) := by
  unfold pilotPeriodEnd
  split
  · dsimp only
    split
    · exact Clock.keeps (feedPaths_clock (advanceToBoundary_clock h)) (seekAdmission_only (searchPeriod_only (qualify_only
        (refreshGains_only (modLoop_only (beaconBoundary_only (modLoop_only (Only.ite (Only.refl _ _) (takePeriod_only
        (Only.refl _ _) rfl)) rfl) rfl) rfl) rfl) rfl) rfl) rfl)
    · exact feedPaths_clock (advanceToBoundary_clock h)
  · exact h

theorem ladderStep_clock {s0 : State} {x0 : Nat} {s : State} (h : Clock s0 s) : Clock s0 (ladderStep x0 s) := by
  unfold ladderStep
  split
  · refine Clock.ite h ?_
    dsimp only
    split
    · exact advanceToBoundary_clock h
    · split
      · exact Clock.keeps (advanceToBoundary_clock h) (Only.ite (noteMargin_only (modLoop_only (Only.ite
          (refreshGains_only (writeCap_only (modLoop_only (Only.refl _ _) rfl) rfl) rfl) (Only.refl _ _)) rfl) rfl)
          (Only.ite (refreshGains_only (writeCap_only (modLoop_only (Only.refl _ _) rfl) rfl) rfl) (Only.refl _ _)))
      · exact Clock.keeps (advanceToBoundary_clock h) (Only.ite (refreshGains_only (writeCap_only (modLoop_only
          (Only.refl _ _) rfl) rfl) rfl) (Only.refl _ _))
  · exact h

theorem lineView_clock {s0 : State} {x0 : Nat} {x1 : Option Nat} {x2 : List RawBlock} {s : State}
    (h : Clock s0 s) : Clock s0 (lineView x0 x1 x2 s) := by
  unfold lineView
  dsimp only
  split
  · exact Clock.keeps (feed_clock (advanceToBoundary_clock h)) (takeLine_only (Only.refl _ _) rfl)
  · exact advanceToBoundary_clock h

theorem lineDetectorFrame_clock {s0 : State} {x0 : Dir} {x1 : Nat} {x2 : List RawBlock} {s : State}
    (h : Clock s0 s) : Clock s0 (lineDetectorFrame x0 x1 x2 s) := by
  unfold lineDetectorFrame
  split
  · split
    · exact Clock.keeps (lineView_clock h) (Only.ite (declareOsc_only (Only.refl _ _) rfl) (modLoop_only
        (Only.refl _ _) rfl))
    · exact h
  · exact Clock.ite (Clock.keeps (lineView_clock h) (Only.ite (declareHubOsc_only (Only.refl _ _) rfl) (State_modLg_only
      (Only.refl _ _) rfl))) h

theorem holdoffEnd_clock {s0 : State} {x0 : Dir} {x1 : Nat} {s : State}
    (h : Clock s0 s) : Clock s0 (holdoffEnd x0 x1 s) := by
  unfold holdoffEnd
  split
  · split
    · exact Clock.ite (Clock.keeps (toNextSlot_clock (advanceTo_clock h)) (enterGuarded_only (restartCancellers_only
        (Only.refl _ _) rfl) rfl)) h
    · exact h
  · exact Clock.ite (Clock.keeps (toNextSlot_clock (advanceTo_clock h)) (refreshGains_only (restartCancellers_only
      (State_modLg_only (Only.refl _ _) rfl) rfl) rfl)) h

theorem cancellerSnapshotRestore_clock {s0 : State} {x0 : Nat} {s : State}
    (h : Clock s0 s) : Clock s0 (cancellerSnapshotRestore x0 s) := by
  unfold cancellerSnapshotRestore
  exact Clock.ite (Clock.keeps (toNextSlot_clock h) (refreshGains_only (State_modLg_only (Only.refl _ _) rfl) rfl)) h

theorem marginCapApply_clock {s0 : State} {x0 : Nat} {s : State} (h : Clock s0 s) : Clock s0 (marginCapApply x0 s) := by
  unfold marginCapApply
  split
  · split
    · exact Clock.keeps (advanceToAir_clock h) (refreshGains_only (writeCap_only (modLoop_only
        (Only.refl _ _) rfl) rfl) rfl)
    · exact h
  · exact h

theorem marginLowTimeout_clock {s0 : State} {x0 : Nat} {s : State} (h : Clock s0 s) : Clock s0 (marginLowTimeout x0 s) := by
  unfold marginLowTimeout
  split
  · exact Clock.keeps (advanceTo_clock h) (raiseLevel_only (Only.refl _ _) rfl)
  · exact h

theorem beaconLossTimeout_clock {s0 : State} {x0 : Nat} {s : State}
    (h : Clock s0 s) : Clock s0 (beaconLossTimeout x0 s) := by
  unfold beaconLossTimeout
  split
  · exact Clock.ite (Clock.keeps (advanceTo_clock h) (raiseLevel_only (Only.refl _ _) rfl)) h
  · exact h

theorem slotIteration_clock {s0 : State} {x0 : Nat} {x1 : IterInput} {s : State} (h : Clock s0 s) :
    Clock s0 (slotIteration x0 x1 s) := by
  unfold slotIteration
  extract_lets x due s1 sample s2 s3 f s4 s5 s6 lim s7
  have h2 : Clock s0 s2 := advanceTo_clock (advanceToAir_clock h)
  have h3 : Clock s0 s3 := by
    unfold s3
    split
    · extract_lets a
      have ha : Clock s0 a := Clock.ite (h2.keeps (beginInjection_only (Only.refl _ _) rfl)) h2
      exact Clock.ite (ha.keeps (stopInjection_only (Only.refl _ _) rfl)) ha
    · exact h2
  have h5 : Clock s0 s5 := h3.keeps (modSlot_only (notePlausibility_only (Only.refl _ _) rfl) rfl)
  have h6 : Clock s0 s6 :=
    Clock.ite (h5.keeps (runIteration_only (Only.refl _ _) rfl)) (h5.keeps (holdIteration_only (Only.refl _ _) rfl))
  have h7 : Clock s0 s7 := Clock.ite (h6.keeps (modSlot_only (causeTraces_only (Only.refl _ _) rfl) rfl)) h6
  exact Clock.ite h (h7.keeps (noteUsage_only (recordTrace_only (Only.refl _ _) rfl) rfl))

theorem iterationOverrun_clock {s0 : State} {x0 : Nat} {s : State} (h : Clock s0 s) : Clock s0 (iterationOverrun x0 s) := by
  unfold iterationOverrun
  exact Clock.ite h (Clock.keeps (advanceToAir_clock h) (recordTrace_only (Only.ite (raiseLevel_only (Only.ite
    (causeTraces_only (stopInjection_only (State_modCl_only (modSlot_only (Only.refl _ _) rfl) rfl) rfl) rfl) (Only.ite
    (stopInjection_only (State_modCl_only (modSlot_only (Only.refl _ _) rfl) rfl) rfl) (State_modCl_only (modSlot_only
    (Only.refl _ _) rfl) rfl))) rfl) (Only.ite (causeTraces_only (stopInjection_only (State_modCl_only (modSlot_only
    (Only.refl _ _) rfl) rfl) rfl) rfl) (Only.ite (stopInjection_only (State_modCl_only (modSlot_only
    (Only.refl _ _) rfl) rfl) rfl) (State_modCl_only (modSlot_only (Only.refl _ _) rfl) rfl)))) rfl))

theorem loopSaturatedTimeout_clock {s0 : State} {x0 : Nat} {s : State}
    (h : Clock s0 s) : Clock s0 (loopSaturatedTimeout x0 s) := by
  unfold loopSaturatedTimeout
  split
  · exact Clock.keeps (advanceTo_clock h) (raiseLevel_only (Only.refl _ _) rfl)
  · exact h

theorem injectionStart_clock {s0 : State} {x0 : Nat} {s : State} (h : Clock s0 s) : Clock s0 (injectionStart x0 s) := by
  unfold injectionStart
  dsimp only
  split
  · refine Clock.ite h (Clock.keeps (advanceToAir_clock ?_) (beginInjection_only (Only.refl _ _) rfl))
    split
    · exact advanceToAir_clock h
    · exact h
  · exact h

theorem repBinBoundary_clock {s0 : State} {x0 : Nat} {s : State} (h : Clock s0 s) : Clock s0 (repBinBoundary x0 s) := by
  unfold repBinBoundary
  split
  · exact h
  · refine Clock.ite h ?_
    split
    · exact Clock.keeps (advanceToAir_clock h) (Only.foldl (modRep_only (Only.refl _ _) rfl) (fun _ _ h0 =>
        (writeGcmd_only h0 rfl)))

theorem repTableClear_clock {s0 : State} {x0 : Nat} {s : State} (h : Clock s0 s) : Clock s0 (repTableClear x0 s) := by
  unfold repTableClear
  refine Clock.ite h (Clock.keeps (Clock.keeps ?_ (modRep_only (Only.refl _ _) rfl)) (Only.foldl (Only.refl _ _)
    (fun _ _ h0 => (writeGcmd_only h0 rfl))))
  split
  · exact Clock.ite h (advanceToAir_clock h)
  · exact h

theorem hkSlotEnd_clock {s0 : State} {x0 : HkSlotInput} {s : State} (h : Clock s0 s) : Clock s0 (hkSlotEnd x0 s) := by
  unfold hkSlotEnd
  exact Clock.ite h (Clock.keeps (advanceTo_clock h) (Only.ite (testConverter_only (testConverter_only (State_modHk_only
    (Only.refl _ _) rfl) rfl) rfl) (State_modHk_only (Only.refl _ _) rfl)))

theorem urgentSlotEnd_clock {s0 : State} {x0 : HkSlotInput} {s : State}
    (h : Clock s0 s) : Clock s0 (urgentSlotEnd x0 s) := by
  unfold urgentSlotEnd
  split
  · exact h
  · refine Clock.ite h ?_
    dsimp only
    split
    · exact Clock.keeps (advanceTo_clock h) (finishDeferred_only (State_modHk_only (Only.refl _ _) rfl) rfl)
    · exact Clock.keeps (advanceTo_clock h) (State_modPs_only (State_modHk_only (Only.refl _ _) rfl) rfl)

theorem drainRampEnd_clock {s0 : State} {x0 : Nat} {x1 : ℤ} {s : State}
    (h : Clock s0 s) : Clock s0 (drainRampEnd x0 x1 s) := by
  unfold drainRampEnd
  exact Clock.ite h (Clock.keeps (advanceTo_clock h) (Only.ite (completeEnable_only (modCas_only (Only.refl _ _) rfl) rfl)
    (raiseMoment_only (startDraining_only (Only.refl _ _) rfl) rfl)))

theorem drainingComplete_clock {s0 : State} {x0 : Nat} {x1 : Nat} {s : State}
    (h : Clock s0 s) : Clock s0 (drainingComplete x0 x1 s) := by
  unfold drainingComplete
  exact Clock.ite h (Clock.keeps (advanceTo_clock h) (reviewMove_only (tryDrainUp_only (reachPinched_only
    (Only.refl _ _) rfl) rfl) rfl))

theorem paEnableQualTimeout_clock {s0 : State} {x0 : Nat} {s : State}
    (h : Clock s0 s) : Clock s0 (paEnableQualTimeout x0 s) := by
  unfold paEnableQualTimeout
  dsimp only
  split
  · exact Clock.ite (Clock.keeps (advanceTo_clock h) (completeEnable_only (modCas_only (Only.refl _ _) rfl) rfl)) h
  · exact h

theorem gateOnEdge_clock {s0 : State} {x0 : Nat} {s : State} (h : Clock s0 s) : Clock s0 (gateOnEdge x0 s) := by
  unfold gateOnEdge
  refine Clock.ite h ?_
  split
  · exact h
  · exact Clock.ite (Clock.keeps (Clock.ite h (advanceToAir_clock h)) (modCas_only (modCas_only (Only.refl _ _) rfl) rfl))
      (Clock.keeps (Clock.ite h (advanceToAir_clock h)) (modCas_only (Only.refl _ _) rfl))

theorem gateOffEdge_clock {s0 : State} {x0 : Nat} {s : State} (h : Clock s0 s) : Clock s0 (gateOffEdge x0 s) := by
  unfold gateOffEdge
  refine Clock.ite h ?_
  split
  · exact h
  · exact Clock.keeps (Clock.ite h (advanceToAir_clock h)) (modCas_only (Only.refl _ _) rfl)

theorem tOffMinExpiry_clock {s0 : State} {x0 : Nat} {s : State} (h : Clock s0 s) : Clock s0 (tOffMinExpiry x0 s) := by
  unfold tOffMinExpiry
  exact Clock.ite h (advanceTo_clock h)

theorem tripHoldExpiry_clock {s0 : State} {x0 : Nat} {s : State} (h : Clock s0 s) : Clock s0 (tripHoldExpiry x0 s) := by
  unfold tripHoldExpiry
  exact Clock.ite h (Clock.keeps (advanceTo_clock h) (raiseCmp_only (modCmp_only (Only.refl _ _) rfl) rfl))

theorem stressMinute_clock {s0 : State} {s : State} (h : Clock s0 s) : Clock s0 (stressMinute s) := by
  unfold stressMinute
  exact Clock.keeps (advanceTo_clock h) (Only.foldl (Only.refl _ _) (fun _ _ h0 => (Only.ite h0 (checkLife_only
    (modCas_only h0 rfl) rfl))))

theorem lifeRecordWrite_clock {s0 : State} {s : State} (h : Clock s0 s) : Clock s0 (lifeRecordWrite s) := by
  unfold lifeRecordWrite
  exact Clock.keeps (advanceTo_clock h) (Only.foldl (Only.refl _ _) (fun _ _ h0 => (writeLife_only h0 rfl)))

theorem decidePhase_clock {s0 : State} {s : State} (h : Clock s0 s) : Clock s0 (decidePhase s) := by
  unfold decidePhase
  exact Clock.ite (Clock.modAir h) (Clock.modAir h)

theorem selectSource_clock {s0 : State} {x0 : Nat} {s : State} (h : Clock s0 s) : Clock s0 (selectSource x0 s) := by
  unfold selectSource
  exact decidePhase_clock (Clock.modAir h)

theorem loseSource_clock {s0 : State} {s : State} (h : Clock s0 s) : Clock s0 (loseSource s) := by
  unfold loseSource
  refine Clock.modAir h fun a => ?_
  split_ifs <;> rfl

theorem reselect_clock {s0 : State} {s : State} (h : Clock s0 s) : Clock s0 (reselect s) := by
  unfold reselect
  refine Clock.ite ?_ ?_
  · split
    · exact Clock.ite (selectSource_clock h) h
    · exact h
  · split
    · exact selectSource_clock h
    · exact Clock.ite h (loseSource_clock h)

theorem failSource_clock {s0 : State} {x0 : Nat} {s : State} (h : Clock s0 s) : Clock s0 (failSource x0 s) := by
  unfold failSource
  exact Clock.ite (Clock.ite (reselect_clock (Clock.modAir h)) (Clock.modAir h)) h

theorem becomeUsable_clock {s0 : State} {x0 : Nat} {s : State} (h : Clock s0 s) : Clock s0 (becomeUsable x0 s) := by
  unfold becomeUsable
  exact Clock.modAir h

theorem measureSource_clock {s0 : State} {x0 : Nat} {x1 : Int} {x2 : Nat} {x3 : Int} {s : State} (h : Clock s0 s) :
    Clock s0 (measureSource x0 x1 x2 x3 s) := by
  unfold measureSource
  refine Clock.modAir h fun a => ?_
  dsimp only
  split_ifs <;> rfl

theorem donorDetection_clock {s0 : State} {x0 : DonorInput} {s : State}
    (h : Clock s0 s) : Clock s0 (donorDetection x0 s) := by
  unfold donorDetection
  exact Clock.ite h (Clock.ite (Clock.ite (reselect_clock (Clock.modAir h)) (Clock.modAir h)) (Clock.ite
    (measureSource_clock (Clock.modAir h)) (Clock.ite (Clock.modAir h) (Clock.ite (becomeUsable_clock (measureSource_clock
    (Clock.modAir h))) (Clock.modAir h)))))

theorem donorSyncTimeout_clock {s0 : State} {s : State} (h : Clock s0 s) : Clock s0 (donorSyncTimeout s) := by
  unfold donorSyncTimeout
  exact Clock.ite (failSource_clock (advanceTo_clock h)) h

theorem setWall_clock {s0 : State} {x0 : Nat} {x1 : Nat} {s : State} (h : Clock s0 s) : Clock s0 (setWall x0 x1 s) := by
  unfold setWall
  exact Clock.ite (Clock.modAir h) (Clock.keeps (Clock.modAir (h.keeps (Only.ite (State_modLog_only (Only.refl _ _) rfl)
    (Only.refl _ _)))) (submitLog_only (Only.refl _ _) rfl))

theorem ptpSyncRx_clock {s0 : State} {x0 : PtpInput} {s : State} (h : Clock s0 s) : Clock s0 (ptpSyncRx x0 s) := by
  unfold ptpSyncRx
  refine Clock.ite h (Clock.ite (setWall_clock ?_) ?_)
  · split
    · exact Clock.ite (becomeUsable_clock (measureSource_clock (Clock.modAir h))) (measureSource_clock (Clock.modAir h))
    · exact measureSource_clock (Clock.modAir h)
  · split
    · exact Clock.ite (becomeUsable_clock (measureSource_clock (Clock.modAir h))) (measureSource_clock (Clock.modAir h))
    · exact measureSource_clock (Clock.modAir h)

theorem ptpSyncTimeout_clock {s0 : State} {s : State} (h : Clock s0 s) : Clock s0 (ptpSyncTimeout s) := by
  unfold ptpSyncTimeout
  exact Clock.ite (failSource_clock (advanceTo_clock h)) h

theorem ppsInEdge_clock {s0 : State} {x0 : Nat} {s : State} (h : Clock s0 s) : Clock s0 (ppsInEdge x0 s) := by
  unfold ppsInEdge
  refine Clock.ite h ?_
  dsimp only
  split
  · exact Clock.ite (measureSource_clock (Clock.modAir h)) (Clock.modAir h)
  · exact Clock.modAir h

theorem ppsInMissing_clock {s0 : State} {s : State} (h : Clock s0 s) : Clock s0 (ppsInMissing s) := by
  unfold ppsInMissing
  split
  · exact failSource_clock (Clock.modAir (advanceTo_clock h))
  · exact h

theorem sourceRetry_clock {s0 : State} {x0 : Nat} {s : State} (h : Clock s0 s) : Clock s0 (sourceRetry x0 s) := by
  unfold sourceRetry
  exact Clock.ite (Clock.modAir (advanceTo_clock h)) h

theorem revertHoldExpiry_clock {s0 : State} {s : State} (h : Clock s0 s) : Clock s0 (revertHoldExpiry s) := by
  unfold revertHoldExpiry
  split
  · exact Clock.ite (reselect_clock (advanceTo_clock h)) h
  · exact h

theorem phaseTick_clock {s0 : State} {s : State} (h : Clock s0 s) : Clock s0 (phaseTick s) := by
  unfold phaseTick
  dsimp only
  split
  · exact Clock.ite (Clock.modAir h) (decidePhase_clock (Clock.modAir h))
  · exact Clock.modAir h
  · exact h

theorem atLocked_clock {s0 : State} {s : State} (h : Clock s0 s) : Clock s0 (atLocked s) := by
  unfold atLocked
  exact Clock.ite (Clock.keeps (Clock.modAir h) (checkTimeLoss_only (Only.refl _ _) rfl)) h

theorem timeErrLimitExceeded_clock {s0 : State} {s : State} (h : Clock s0 s) : Clock s0 (timeErrLimitExceeded s) := by
  unfold timeErrLimitExceeded
  exact Clock.ite (Clock.keeps (advance_clock h) (Only.ite (Only.refl _ _) (raiseLevel_only (Only.refl _ _) rfl))) h

theorem stepPendingEnd_clock {s0 : State} {s : State} (h : Clock s0 s) : Clock s0 (stepPendingEnd s) := by
  unfold stepPendingEnd
  split
  · exact Clock.modAir (advanceTo_clock h)
  · exact h

theorem refInQualify_clock {s0 : State} {x0 : ℤ} {s : State} (h : Clock s0 s) : Clock s0 (refInQualify x0 s) := by
  unfold refInQualify
  exact Clock.ite (Clock.modAir (waitUntil_clock h)) (Clock.modAir (waitUntil_clock h))

theorem refInLoss_clock {s0 : State} {x0 : Bool} {s : State} (h : Clock s0 s) : Clock s0 (refInLoss x0 s) := by
  unfold refInLoss
  exact Clock.modAir h

theorem ppsOutPulseEnd_clock {s0 : State} {s : State} (h : Clock s0 s) : Clock s0 (ppsOutPulseEnd s) := by
  unfold ppsOutPulseEnd
  split
  · exact Clock.modAir (advanceTo_clock h)
  · exact h

theorem judgeWindow_clock {s0 : State} {x0 : Nat} {x1 : ℤ} {x2 : PatternDef} {x3 : List (Option ℤ)} {x4 : Pattern} {s : State}
    (h : Clock s0 s) : Clock s0 (judgeWindow x0 x1 x2 x3 x4 s) := by
  unfold judgeWindow
  exact Clock.ite (Clock.ite (Clock.modAir h) (Clock.keeps (Clock.modAir h) (postNotice_only (Only.refl _ _) rfl)))
    (Clock.ite (Clock.keeps (Clock.modAir h) (postNotice_only (Only.refl _ _) rfl)) (Clock.modAir h))

theorem tddVerifyWindowEnd_clock {s0 : State} {x0 : Nat} {x1 : ℤ} {s : State}
    (h : Clock s0 s) : Clock s0 (tddVerifyWindowEnd x0 x1 s) := by
  unfold tddVerifyWindowEnd
  dsimp only
  split
  · exact h
  · exact Clock.ite h (Clock.ite (Clock.modAir (advanceToAir_clock h)) (judgeWindow_clock (advanceToAir_clock h)))

theorem followFlock_clock {s0 : State} {s : State} (h : Clock s0 s) : Clock s0 (followFlock s) := by
  unfold followFlock
  split
  · exact Clock.ite h (failSource_clock h)
  · exact failSource_clock h

theorem losePrimary_clock {s0 : State} {s : State} (h : Clock s0 s) : Clock s0 (losePrimary s) := by
  unfold losePrimary
  exact followFlock_clock (h.keeps (leavePrimary_only (Only.refl _ _) rfl))

theorem timePortLost_clock {s0 : State} {x0 : Nat} {s : State} (h : Clock s0 s) : Clock s0 (timePortLost x0 s) := by
  unfold timePortLost
  exact Clock.ite (followFlock_clock (h.keeps (failTimePort_only (Only.refl _ _) rfl))) (h.keeps (failTimePort_only
    (Only.refl _ _) rfl))

theorem flockSourceTimeout_clock {s0 : State} {s : State} (h : Clock s0 s) : Clock s0 (flockSourceTimeout s) := by
  unfold flockSourceTimeout
  refine Clock.ite ?_ h
  dsimp only
  split
  · exact timePortLost_clock (advanceTo_clock h)
  · exact failSource_clock (advanceTo_clock h)

theorem flockExchange_clock {s0 : State} {x0 : Nat} {x1 : ℤ} {x2 : Nat} {x3 : ℤ} {s : State}
    (h : Clock s0 s) : Clock s0 (flockExchange x0 x1 x2 x3 s) := by
  unfold flockExchange
  exact Clock.ite (Clock.ite h (Clock.ite (becomeUsable_clock (measureSource_clock (Clock.modAir h))) (measureSource_clock
    (Clock.modAir h)))) h

theorem ttResp_clock {s0 : State} {x0 : Nat} {x1 : Nat} {x2 : Nat} {x3 : Nat} {x4 : ℤ} {s : State}
    (h : Clock s0 s) : Clock s0 (ttResp x0 x1 x2 x3 x4 s) := by
  unfold ttResp
  dsimp only
  split
  · exact h
  · exact Clock.ite (flockExchange_clock (h.keeps (modPort_only (modPort_only (Only.refl _ _) rfl) rfl))) (h.keeps
      (modPort_only (modPort_only (Only.refl _ _) rfl) rfl))

theorem portDown_clock {s0 : State} {x0 : Nat} {s : State} (h : Clock s0 s) : Clock s0 (portDown x0 s) := by
  unfold portDown
  exact Clock.ite (followFlock_clock (Clock.ite (losePrimary_clock (h.keeps (failTimePort_only (Only.ite (State_modFl_only
    (modPort_only (Only.refl _ _) rfl) rfl) (modPort_only (Only.refl _ _) rfl)) rfl))) (h.keeps (chooseAlternate_only
    (failTimePort_only (Only.ite (State_modFl_only (modPort_only (Only.refl _ _) rfl) rfl) (modPort_only
    (Only.refl _ _) rfl)) rfl) rfl)))) (Clock.ite (losePrimary_clock (h.keeps (failTimePort_only (Only.ite
    (State_modFl_only (modPort_only (Only.refl _ _) rfl) rfl) (modPort_only (Only.refl _ _) rfl)) rfl))) (h.keeps
    (chooseAlternate_only (failTimePort_only (Only.ite (State_modFl_only (modPort_only (Only.refl _ _) rfl) rfl)
    (modPort_only (Only.refl _ _) rfl)) rfl) rfl)))

theorem reviewPort_clock {s0 : State} {x0 : Nat} {x1 : Bool} {s : State}
    (h : Clock s0 s) : Clock s0 (reviewPort x0 x1 s) := by
  unfold reviewPort
  exact Clock.ite (portDown_clock h) h

theorem laneTrainTimeout_clock {s0 : State} {x0 : Nat} {s : State} (h : Clock s0 s) : Clock s0 (laneTrainTimeout x0 s) := by
  unfold laneTrainTimeout
  exact Clock.ite (Clock.keeps (advanceTo_clock h) (modLane_only (Only.refl _ _) rfl)) h

theorem laneDown_clock {s0 : State} {x0 : Nat} {x1 : LaneLoss} {s : State}
    (h : Clock s0 s) : Clock s0 (laneDown x0 x1 s) := by
  unfold laneDown
  exact Clock.ite (Clock.ite (portDown_clock (h.keeps (raiseLevel_only (withdrawLane_only (modLane_only
    (Only.refl _ _) rfl) rfl) rfl))) (timePortLost_clock (h.keeps (raiseLevel_only (withdrawLane_only (modLane_only
    (Only.refl _ _) rfl) rfl) rfl)))) h

theorem retrainBackoffExpiry_clock {s0 : State} {x0 : Nat} {s : State}
    (h : Clock s0 s) : Clock s0 (retrainBackoffExpiry x0 s) := by
  unfold retrainBackoffExpiry
  split
  · exact Clock.keeps (advanceTo_clock h) (modLane_only (Only.refl _ _) rfl)
  · exact h

theorem laneSetApply_clock {s0 : State} {x0 : Nat} {s : State} (h : Clock s0 s) : Clock s0 (laneSetApply x0 s) := by
  unfold laneSetApply
  split
  · exact Clock.keeps (advanceToAir_clock h) (Only.foldl (modPort_only (Only.refl _ _) rfl) (fun _ _ h0 =>
      (modLane_only h0 rfl)))
  · exact h

theorem portTrainingStart_clock {s0 : State} {s : State} (h : Clock s0 s) : Clock s0 (portTrainingStart s) := by
  unfold portTrainingStart
  exact Clock.keeps (advanceTo_clock h) (Only.foldl (Only.refl _ _) (fun _ _ h0 => (powerPort_only h0 rfl)))

theorem hello_clock {s0 : State} {x0 : Nat} {x1 : Hello} {s : State} (h : Clock s0 s) : Clock s0 (hello x0 x1 s) := by
  unfold hello
  refine Clock.ite h (Clock.ite (reviewPort_clock (h.keeps (Only.foldl (modPort_only (Only.refl _ _) rfl) (fun _ _ h0 =>
    (modLane_only h0 rfl))))) (Clock.keeps (Clock.ite (losePrimary_clock (h.keeps ?_)) (Clock.ite (losePrimary_clock
    (h.keeps ?_)) (h.keeps ?_))) (choosePath_only (displace_only (Only.refl _ _) rfl) rfl)))
  · split
    · exact Only.ite (State_modFl_only (alignLanes_only (modPort_only (Only.refl _ _) rfl) rfl) rfl) (alignLanes_only
        (modPort_only (Only.refl _ _) rfl) rfl)
    · exact alignLanes_only (modPort_only (Only.refl _ _) rfl) rfl
  · split
    · exact Only.ite (State_modFl_only (alignLanes_only (modPort_only (Only.refl _ _) rfl) rfl) rfl) (alignLanes_only
        (modPort_only (Only.refl _ _) rfl) rfl)
    · exact alignLanes_only (modPort_only (Only.refl _ _) rfl) rfl
  · split
    · exact Only.ite (State_modFl_only (alignLanes_only (modPort_only (Only.refl _ _) rfl) rfl) rfl) (alignLanes_only
        (modPort_only (Only.refl _ _) rfl) rfl)
    · exact alignLanes_only (modPort_only (Only.refl _ _) rfl) rfl

theorem joinRespTimeout_clock {s0 : State} {s : State} (h : Clock s0 s) : Clock s0 (joinRespTimeout s) := by
  unfold joinRespTimeout
  exact Clock.ite (Clock.keeps (advanceToAir_clock h) (Only.ite (sendJoin_only (Only.refl _ _) rfl) (State_modFl_only
    (Only.refl _ _) rfl))) h

theorem backoffExpiry_clock {s0 : State} {s : State} (h : Clock s0 s) : Clock s0 (backoffExpiry s) := by
  unfold backoffExpiry
  exact Clock.ite (Clock.keeps (advanceToAir_clock h) (Only.ite (sendJoin_only (Only.refl _ _) rfl) (State_modFl_only
    (Only.refl _ _) rfl))) h

theorem joinAdmission_clock {s0 : State} {s : State} (h : Clock s0 s) : Clock s0 (joinAdmission s) := by
  unfold joinAdmission
  split
  · exact h
  · dsimp only
    split
    · exact Clock.keeps (advanceToAir_clock h) (Only.ite (becomeJoined_only (State_modFl_only (Only.refl _ _) rfl) rfl)
        (State_modFl_only (Only.refl _ _) rfl))
    · exact Clock.keeps (advanceToAir_clock h) (State_modFl_only (Only.refl _ _) rfl)

theorem leaveFrame_clock {s0 : State} {s : State} (h : Clock s0 s) : Clock s0 (leaveFrame s) := by
  unfold leaveFrame
  split
  · exact h
  · dsimp only
    split
    · exact Clock.keeps (advanceToAir_clock h) (Only.ite (becomeLeft_only (State_modFl_only (Only.refl _ _) rfl) rfl)
        (State_modFl_only (Only.refl _ _) rfl))
    · exact Clock.keeps (advanceToAir_clock h) (State_modFl_only (Only.refl _ _) rfl)

theorem memberTimeout_clock {s0 : State} {x0 : Nat} {s : State} (h : Clock s0 s) : Clock s0 (memberTimeout x0 s) := by
  unfold memberTimeout
  split
  · exact Clock.ite (Clock.keeps (advanceTo_clock h) (Only.ite (memberLost_only (State_modFl_only
      (Only.refl _ _) rfl) rfl) (sendUp_only (State_modFl_only (Only.refl _ _) rfl) rfl))) h
  · exact h

theorem idHoldExpiry_clock {s0 : State} {x0 : Nat} {s : State} (h : Clock s0 s) : Clock s0 (idHoldExpiry x0 s) := by
  unfold idHoldExpiry
  split
  · exact Clock.ite (Clock.keeps (advanceTo_clock h) (State_modFl_only (Only.refl _ _) rfl)) h
  · exact h

theorem pathDown_clock {s0 : State} {x0 : Nat} {x1 : FrameHeader} {s : State}
    (h : Clock s0 s) : Clock s0 (pathDown x0 x1 s) := by
  unfold pathDown
  exact Clock.ite (Clock.ite (losePrimary_clock (h.keeps (modPort_only (Only.refl _ _) rfl))) (h.keeps (forwardBelow_only
    (Only.refl _ _) rfl))) (h.keeps (Only.ite (chooseAlternate_only (modPort_only (Only.refl _ _) rfl) rfl)
    (Only.refl _ _)))

theorem rehomeWaitExpiry_clock {s0 : State} {s : State} (h : Clock s0 s) : Clock s0 (rehomeWaitExpiry s) := by
  unfold rehomeWaitExpiry
  exact Clock.ite (Clock.keeps (advanceToAir_clock h) (State_modFl_only (Only.refl _ _) rfl)) h

theorem penLane_clock {s0 : State} {x0 : Nat} {s : State} (h : Clock s0 s) : Clock s0 (penLane x0 s) := by
  unfold penLane
  exact reviewPort_clock (h.keeps (withdrawLane_only (State_modFault_only (Only.refl _ _) rfl) rfl))

theorem retrainLane_clock {s0 : State} {x0 : Nat} {s : State} (h : Clock s0 s) : Clock s0 (retrainLane x0 s) := by
  unfold retrainLane
  exact reviewPort_clock (h.keeps (withdrawLane_only (modLane_only (Only.refl _ _) rfl) rfl))

theorem headerComplete_clock {s0 : State} {x0 : Nat} {x1 : Nat} {s : State}
    (h : Clock s0 s) : Clock s0 (headerComplete x0 x1 s) := by
  unfold headerComplete
  split
  · dsimp only
    split
    · exact Clock.keeps (advanceTo_clock h) (Only.ite (State_modBell_only (Only.refl _ _) rfl) (State_modBell_only
        (Only.refl _ _) rfl))
    · exact Clock.keeps (advanceTo_clock h) (State_modBell_only (Only.refl _ _) rfl)
  · exact h

theorem payloadComplete_clock {s0 : State} {x0 : BellBody} {s : State}
    (h : Clock s0 s) : Clock s0 (payloadComplete x0 s) := by
  unfold payloadComplete
  split
  · exact Clock.keeps (advanceTo_clock h) (Only.ite (State_modBell_only (Only.refl _ _) rfl) (State_modBell_only
      (Only.refl _ _) rfl))
  · exact h

theorem ccaRetry_clock {s0 : State} {x0 : ℤ} {s : State} (h : Clock s0 s) : Clock s0 (ccaRetry x0 s) := by
  unfold ccaRetry
  split
  · exact h
  · split
    · exact h
    · exact Clock.keeps (advanceTo_clock h) (Only.ite (ccaAttempt_only (State_modBell_only (Only.refl _ _) rfl) rfl)
        (State_modBell_only (Only.refl _ _) rfl))

theorem bellTxEnd_clock {s0 : State} {x0 : Bool} {s : State} (h : Clock s0 s) : Clock s0 (bellTxEnd x0 s) := by
  unfold bellTxEnd
  split
  · exact h
  · exact Clock.keeps (advanceTo_clock h) (Only.ite (bellOff_only (Only.ite (State_modBell_only (Only.refl _ _) rfl)
      (raiseMoment_only (State_modBell_only (Only.refl _ _) rfl) rfl)) rfl) (Only.ite (State_modBell_only
      (Only.refl _ _) rfl) (raiseMoment_only (State_modBell_only (Only.refl _ _) rfl) rfl)))

theorem keeperResponseExpiry_clock {s0 : State} {s : State} (h : Clock s0 s) : Clock s0 (keeperResponseExpiry s) := by
  unfold keeperResponseExpiry
  split
  · exact h
  · exact Clock.keeps (advanceTo_clock h) (State_modBell_only (Only.refl _ _) rfl)

theorem bellTxWatchdog_clock {s0 : State} {s : State} (h : Clock s0 s) : Clock s0 (bellTxWatchdog s) := by
  unfold bellTxWatchdog
  split
  · exact h
  · exact Clock.keeps (advanceTo_clock h) (Only.ite (bellOff_only (raiseMoment_only (State_modBell_only
      (Only.refl _ _) rfl) rfl) rfl) (raiseMoment_only (State_modBell_only (Only.refl _ _) rfl) rfl))

theorem bellTxResume_clock {s0 : State} {s : State} (h : Clock s0 s) : Clock s0 (bellTxResume s) := by
  unfold bellTxResume
  split
  · exact Clock.keeps (advanceTo_clock h) (State_modBell_only (Only.refl _ _) rfl)
  · exact h

theorem chainHelloTimer_clock {s0 : State} {s : State} (h : Clock s0 s) : Clock s0 (chainHelloTimer s) := by
  unfold chainHelloTimer
  exact Clock.ite (Clock.keeps (advanceTo_clock h) (queueChain_only (State_modBell_only (Only.refl _ _) rfl) rfl)) h

theorem neighbourExpiry_clock {s0 : State} {x0 : Nat} {s : State} (h : Clock s0 s) : Clock s0 (neighbourExpiry x0 s) := by
  unfold neighbourExpiry
  split
  · exact Clock.keeps (advanceTo_clock h) (reviewRelay_only (State_modBell_only (Only.refl _ _) rfl) rfl)
  · exact h

theorem chainStatusTimer_clock {s0 : State} {s : State} (h : Clock s0 s) : Clock s0 (chainStatusTimer s) := by
  unfold chainStatusTimer
  refine Clock.ite ?_ h
  dsimp only
  split
  · exact Clock.keeps (advanceTo_clock h) (queueChain_only (State_modBell_only (State_modBell_only
      (Only.refl _ _) rfl) rfl) rfl)
  · exact Clock.keeps (advanceTo_clock h) (State_modBell_only (Only.refl _ _) rfl)

theorem chainAckTimeout_clock {s0 : State} {s : State} (h : Clock s0 s) : Clock s0 (chainAckTimeout s) := by
  unfold chainAckTimeout
  split
  · exact h
  · refine Clock.ite (Clock.keeps (advanceTo_clock h) (bellQueue_only (State_modBell_only (Only.refl _ _) rfl) rfl)) ?_
    split
    · exact Clock.keeps (advanceTo_clock h) (reviewRelay_only (State_modBell_only (State_modBell_only
        (Only.refl _ _) rfl) rfl) rfl)
    · exact Clock.keeps (advanceTo_clock h) (State_modBell_only (Only.refl _ _) rfl)

theorem keeperLockoutExpiry_clock {s0 : State} {x0 : Nat} {s : State}
    (h : Clock s0 s) : Clock s0 (keeperLockoutExpiry x0 s) := by
  unfold keeperLockoutExpiry
  split
  · exact Clock.keeps (waitUntil_clock h) (State_modBell_only (Only.refl _ _) rfl)
  · exact h

theorem placementCompute_clock {s0 : State} {s : State} (h : Clock s0 s) : Clock s0 (placementCompute s) := by
  unfold placementCompute
  exact Clock.ite (Clock.keeps (Clock.ite h (advanceToAir_clock h)) (issuePlan_only (Only.refl _ _) rfl)) h

theorem planAckTimeout_clock {s0 : State} {s : State} (h : Clock s0 s) : Clock s0 (planAckTimeout s) := by
  unfold planAckTimeout
  split
  · exact h
  · exact Clock.keeps (advanceToAir_clock h) (State_modDv_only (dropPlans_only (sendBelow_only
      (Only.refl _ _) rfl) rfl) rfl)

theorem descriptorLoad_clock {s0 : State} {s : State} (h : Clock s0 s) : Clock s0 (descriptorLoad s) := by
  unfold descriptorLoad
  split
  · exact h
  · exact Clock.keeps (advanceToAir_clock h) (Only.foldl (Only.refl _ _) (fun _ _ h0 => (Only.ite h0
      (modDesc_only h0 rfl))))

theorem planApply_clock {s0 : State} {s : State} (h : Clock s0 s) : Clock s0 (planApply s) := by
  unfold planApply
  split
  · exact h
  · exact Clock.keeps (advanceToAir_clock h) (refreshGains_only (State_modDv_only (Only.foldl (Only.refl _ _)
      (fun _ _ h0 => (applyEntry_only h0 rfl))) rfl) rfl)

theorem planDrainEnd_clock {s0 : State} {s : State} (h : Clock s0 s) : Clock s0 (planDrainEnd s) := by
  unfold planDrainEnd
  split
  · exact h
  · exact Clock.keeps (advanceToAir_clock h) (State_modDv_only (Only.refl _ _) rfl)

theorem targetDelayApply_clock {s0 : State} {s : State} (h : Clock s0 s) : Clock s0 (targetDelayApply s) := by
  unfold targetDelayApply
  split
  · exact h
  · exact Clock.keeps (advanceToAir_clock h) (refreshGains_only (State_modLg_only (restartCancellers_only (Only.foldl
      (State_modDv_only (Only.refl _ _) rfl) (fun _ _ h0 => (realign_only h0 rfl))) rfl) rfl) rfl)

theorem sumDeadline_clock {s0 : State} {x0 : Nat} {x1 : AirInstant} {s : State}
    (h : Clock s0 s) : Clock s0 (sumDeadline x0 x1 s) := by
  unfold sumDeadline
  exact Clock.ite h (Clock.keeps (advanceToAir_clock h) (Only.ite (flowBlockArrival_only (sendGrouped_only (modDesc_only
    (Only.refl _ _) rfl) rfl) rfl) (sendGrouped_only (modDesc_only (Only.refl _ _) rfl) rfl)))

theorem consumeDeadline_clock {s0 : State} {x0 : Nat} {x1 : AirInstant} {s : State}
    (h : Clock s0 s) : Clock s0 (consumeDeadline x0 x1 s) := by
  unfold consumeDeadline
  refine Clock.ite h ?_
  dsimp only
  split
  · exact Clock.keeps (advanceToAir_clock h) (consume_only (modDesc_only (Only.refl _ _) rfl) rfl)
  · exact Clock.keeps (advanceToAir_clock h) (consume_only (noteLate_only (modDesc_only (Only.refl _ _) rfl) rfl) rfl)

theorem blockArrives_clock {s0 : State} {x0 : Nat} {x1 : Nat} {s : State} {x3 : Block}
    (h : Clock s0 s) : Clock s0 (blockArrives x0 x1 s x3) := by
  unfold blockArrives
  exact Clock.ite h (Clock.ite (h.keeps (noteLate_only (Only.refl _ _) rfl)) (Clock.keeps (notePatterns_clock (h.keeps
    (modDesc_only (Only.refl _ _) rfl))) (Only.ite (modDesc_only (Only.refl _ _) rfl) (Only.refl _ _))))

theorem drainComplete_clock {s0 : State} {s : State} (h : Clock s0 s) : Clock s0 (drainComplete s) := by
  unfold drainComplete
  split
  · exact h
  · exact Clock.keeps (advanceTo_clock h) (pumpDrain_only (noteRelease_only (modCap_only (State_modMem_only
      (Only.refl _ _) rfl) rfl) rfl) rfl)

theorem captureAtInstant_clock {s0 : State} {x0 : Nat} {s : State} (h : Clock s0 s) : Clock s0 (captureAtInstant x0 s) := by
  unfold captureAtInstant
  exact Clock.ite (Clock.keeps (advanceToAir_clock h) (fireSlot_only (Only.refl _ _) rfl)) h

theorem captureStop_clock {s0 : State} {x0 : Nat} {s : State} (h : Clock s0 s) : Clock s0 (captureStop x0 s) := by
  unfold captureStop
  exact Clock.ite (Clock.keeps (advanceTo_clock h) (stopCapture_only (Only.refl _ _) rfl)) h

theorem stackPowerDown_clock {s0 : State} {s : State} (h : Clock s0 s) : Clock s0 (stackPowerDown s) := by
  unfold stackPowerDown
  exact Clock.ite (Clock.keeps (advanceTo_clock h) (State_modMem_only (Only.refl _ _) rfl)) h

theorem extentRemap_clock {s0 : State} {s : State} (h : Clock s0 s) : Clock s0 (extentRemap s) := by
  unfold extentRemap
  exact Clock.ite h (Clock.keeps (advanceToAir_clock h) (State_modMem_only (Only.foldl (Only.refl _ _) (fun _ _ h0 =>
    (remapOne_only h0 rfl))) rfl))

/-- A reset starts the count at 0, and monotonic time again where it is a power-on reset (R449, R457). -/
theorem airAfter_inRange (k : ResetKind) (a : AirState) : (airAfter k a).inRange := by
  have hzero : 0 < 4294967296 ∧ 0 < tcPerFrame ∧ 0 < 65536 := by decide
  unfold airAfter
  split_ifs
  · exact hzero
  · exact hzero

theorem airAfter_mono {k : ResetKind} (hk : k ≠ .powerOn) (a : AirState) : (airAfter k a).mono = a.mono := by
  rw [airAfter, if_neg hk]

theorem resetTo_air (k : ResetKind) (s : State) : (resetTo k s).air = airAfter k s.air := by
  unfold resetTo
  dsimp only
  split_ifs <;> rfl

theorem resetTo_clock {s0 : State} {k : ResetKind} {s : State} (h : Clock s0 s)
    (hk : k ≠ .powerOn := by decide) : Clock s0 (resetTo k s) := by
  refine h.trans ⟨fun _ => ?_, ?_⟩
  · rw [resetTo_air]
    exact airAfter_inRange k s.air
  · rw [resetTo_air, airAfter_mono hk]

theorem powerOnReset_inRange (role boot : BitVec 2) (test : Bool) (s : State) :
    (powerOnReset role boot test s).air.inRange := by
  have hair : (powerOnReset role boot test s).air = (resetTo .powerOn (sampleStraps role boot test s)).air := rfl
  rw [hair, resetTo_air]
  exact airAfter_inRange _ _

theorem resetN_clock {s0 : State} {x0 : BitVec 2} {x1 : BitVec 2} {x2 : Bool} {s : State}
    (h : Clock s0 s) : Clock s0 (resetN x0 x1 x2 s) := by
  unfold resetN
  exact Clock.keeps (resetTo_clock (h.keeps (sampleStraps_only (Only.refl _ _) rfl))) (refreshFaultN_only
    (Only.refl _ _) rfl)

theorem bootStageAdvance_clock {s0 : State} {x0 : Nat} {x1 : Option Image} {x2 x3 : Bool} {s : State} (h : Clock s0 s) :
    Clock s0 (bootStageAdvance x0 x1 x2 x3 s) := by
  have hwait {t : Nat} {f : SysState → SysState} : Clock s0 (advanceTo t (s.modSys f)) :=
    advanceTo_clock (h.keeps (State_modSys_only (Only.refl _ _) rfl))
  unfold bootStageAdvance
  refine Clock.ite h ?_
  extract_lets t limit s1 s2 s3
  split
  · exact hwait.keeps (State_modSys_only (Only.refl _ _) rfl)
  · refine Clock.keeps ?_ (loadImage_only (Only.refl _ _) rfl)
    split
    · exact hwait.keeps (zeroise_only (Only.refl _ _) rfl)
    · exact hwait
  · exact hwait.keeps (issueNonce_only (State_modSys_only (Only.refl _ _) rfl) rfl)
  · exact hwait.keeps (issueNonce_only (issueNonce_only (State_modHost_only (State_modSys_only (Only.refl _ _) rfl) rfl) rfl) rfl)
  · have h1 : Clock s0 s2 := hwait.keeps (logStart_only (State_modSys_only (Only.refl _ _) rfl) rfl)
    have h2 : Clock s0 s3 := Clock.ite (h1.keeps (failBank_only (Only.refl _ _) rfl)) h1
    exact Clock.ite (h2.keeps (failBank_only (Only.refl _ _) rfl)) h2
  · exact hwait.keeps (State_modSys_only (Only.refl _ _) rfl)

theorem trialTimeout_clock {s0 : State} {s : State} (h : Clock s0 s) : Clock s0 (trialTimeout s) := by
  unfold trialTimeout
  exact Clock.ite h (Clock.keeps (advanceTo_clock h) (State_modSys_only (revertTrial_only (Only.refl _ _) rfl) rfl))

theorem warmReset_clock {s0 : State} {s : State} (h : Clock s0 s) : Clock s0 (warmReset s) := by
  unfold warmReset
  split
  · exact h
  · exact Clock.keeps (resetTo_clock (advanceTo_clock h)) (refreshFaultN_only (Only.refl _ _) rfl)

theorem watchdogReset_clock {s0 : State} {s : State} (h : Clock s0 s) : Clock s0 (watchdogReset s) := by
  unfold watchdogReset
  split
  · exact h
  · exact Clock.keeps (resetTo_clock (advanceTo_clock h)) (Only.ite (revertTrial_only (refreshFaultN_only
      (Only.refl _ _) rfl) rfl) (refreshFaultN_only (Only.refl _ _) rfl))

theorem unitResetComplete_clock {s0 : State} {x0 : Nat} {s : State}
    (h : Clock s0 s) : Clock s0 (unitResetComplete x0 s) := by
  unfold unitResetComplete
  split
  · exact h
  · exact Clock.keeps (advanceTo_clock h) (complete_only (submitLog_only (State_modSys_only (Only.refl _ _) rfl) rfl) rfl)

theorem standbyEntry_clock {s0 : State} {s : State} (h : Clock s0 s) : Clock s0 (standbyEntry s) := by
  unfold standbyEntry
  split
  · exact Clock.keeps (advanceToAir_clock h) (reviewMove_only (State_modSys_only (enterStandby_only
      (Only.refl _ _) rfl) rfl) rfl)
  · exact h

theorem quietExit_clock {s0 : State} {s : State} (h : Clock s0 s) : Clock s0 (quietExit s) := by
  unfold quietExit
  split
  · exact Clock.ite (Clock.keeps (toNextSlot_clock h) (finishMove_only (leaveQuiet_only (Only.refl _ _) rfl) rfl)) h
  · exact h

theorem dormantEntry_clock {s0 : State} {x0 : Nat} {s : State} (h : Clock s0 s) : Clock s0 (dormantEntry x0 s) := by
  unfold dormantEntry
  split
  · refine Clock.keeps (advance_clock (Clock.keeps ?_ (finishMove_only (enterStandby_only (Only.refl _ _) rfl) rfl)))
      (State_modSys_only (State_modLog_only (drainSubmissions_only (closeDebug_only (closeSessions_only
      (Only.refl _ _) rfl) rfl) rfl) rfl) rfl)
    split
    · exact Clock.keeps (advanceToAir_clock h) (Only.ite (becomeLeft_only (Only.refl _ _) rfl) (Only.refl _ _))
    · exact advanceToAir_clock h
  · exact h

theorem pwrEnDrop_clock {s0 : State} {s : State} (h : Clock s0 s) : Clock s0 (pwrEnDrop s) := by
  unfold pwrEnDrop
  exact Clock.ite (Clock.keeps (waitUntil_clock h) (State_modSys_only (Only.refl _ _) rfl)) h

theorem dormantWake_clock {s0 : State} {x0 : WakeSource} {x1 : Nat} {s : State} (h : Clock s0 s) :
    Clock s0 (dormantWake x0 x1 s) := by
  unfold dormantWake
  extract_lets s1 s2
  have h1 : Clock s0 s1 := by
    unfold s1
    split
    · exact waitUntil_clock h
    · exact h
  have h2 : Clock s0 s2 := Clock.ite h1 (waitUntil_clock h1)
  exact Clock.ite h ((resetTo_clock h2).keeps (State_modSys_only (refreshFaultN_only (Only.refl _ _) rfl) rfl))

theorem aonOscTick_clock {s0 : State} {s : State} (h : Clock s0 s) : Clock s0 (aonOscTick s) := by
  unfold aonOscTick
  exact Clock.ite h (h.later (sleep_later _ _))

theorem pwrFailFall_clock {s0 : State} {x0 : BitVec 8} {s : State} (h : Clock s0 s) : Clock s0 (pwrFailFall x0 s) := by
  unfold pwrFailFall
  exact Clock.ite h (Clock.keeps (advance_clock h) (postNotice_only (State_modLog_only (drainSubmissions_only
    (submitLog_only (State_modBell_only (State_modPs_only (Only.foldl (Only.ite (enterQuiet_only (State_modSys_only
    (stopDrain_only (Only.refl _ _) rfl) rfl) rfl) (State_modSys_only (stopDrain_only (Only.refl _ _) rfl) rfl))
    (fun _ _ h0 => (writeLife_only h0 rfl))) rfl) rfl) rfl) rfl) rfl) rfl))

theorem pwrRestore_clock {s0 : State} {s : State} (h : Clock s0 s) : Clock s0 (pwrRestore s) := by
  unfold pwrRestore
  refine Clock.ite h (Clock.keeps ?_ (pumpDrain_only (postNotice_only (Only.refl _ _) rfl) rfl))
  split
  · exact Clock.ite (Clock.keeps (toNextSlot_clock (Clock.keeps (advance_clock h) (State_modSys_only
      (Only.refl _ _) rfl))) (leaveQuiet_only (Only.refl _ _) rfl)) (Clock.keeps (advance_clock h) (State_modSys_only
      (Only.refl _ _) rfl))
  · exact Clock.keeps (advance_clock h) (State_modSys_only (Only.refl _ _) rfl)

theorem debugSessionClose_clock {s0 : State} {x0 : Bool} {s : State}
    (h : Clock s0 s) : Clock s0 (debugSessionClose x0 s) := by
  unfold debugSessionClose
  exact Clock.ite h (Clock.keeps (Clock.ite h (advanceTo_clock h)) (closeDebug_only (Only.refl _ _) rfl))

theorem debugLockoutExpiry_clock {s0 : State} {s : State} (h : Clock s0 s) : Clock s0 (debugLockoutExpiry s) := by
  unfold debugLockoutExpiry
  split
  · exact Clock.keeps (waitUntil_clock h) (State_modSys_only (Only.refl _ _) rfl)
  · exact h

theorem penEffect_clock {s0 : State} {x0 : UnitId} {s : State} (h : Clock s0 s) : Clock s0 (penEffect x0 s) := by
  unfold penEffect
  refine Clock.keeps ?_ (refreshGains_only (Only.refl _ _) rfl)
  split
  · exact h.keeps (shutCassette_only (Only.refl _ _) rfl)
  · exact reviewPort_clock (h.keeps (withdrawLane_only (Only.refl _ _) rfl))
  · exact h.keeps (Only.ite (Only.foldl (Only.refl _ _) (fun _ _ h0 => (shutCassette_only h0 rfl))) (Only.refl _ _))
  · exact h.keeps (Only.ite (Only.foldl (Only.refl _ _) (fun _ _ h0 => (shutCassette_only h0 rfl))) (Only.refl _ _))
  · exact h

theorem penUnit_clock {s0 : State} {x0 : PenReason} {s : State} {x2 : UnitId}
    (h : Clock s0 s) : Clock s0 (penUnit x0 s x2) := by
  unfold penUnit
  exact Clock.ite h (Clock.ite (h.keeps (State_modFault_only (Only.refl _ _) rfl)) (penEffect_clock (h.keeps
    (State_modFault_only (Only.refl _ _) rfl))))

theorem doOwnSystem_clock {s0 : State} {x0 : Nat} {x1 : UnitId} {s : State} (h : Clock s0 s) :
    Clock s0 (doOwnSystem x0 x1 s).1 := by
  unfold doOwnSystem
  split <;> dsimp only
  · exact Clock.ite (h.keeps (setBackoff_only (modCas_only (Only.refl _ _) rfl) rfl)) h
  · exact h.keeps (applyThermal_only (Only.refl _ _) rfl)
  · exact Clock.ite (h.keeps (State_modHk_only (Only.refl _ _) rfl)) (h.keeps (State_modHk_only (Only.refl _ _) rfl))
  · exact Clock.ite (retrainLane_clock h) h
  · exact h.keeps (holdMember_only (Only.refl _ _) rfl)
  · exact h.keeps (placementTrigger_only (Only.refl _ _) rfl)
  · exact h.keeps (State_modMem_only (stopDrain_only (Only.refl _ _) rfl) rfl)
  · exact h.keeps (bellFaultAction_only (Only.refl _ _) rfl)
  · exact h.keeps (State_modSys_only (Only.refl _ _) rfl)
  · exact h.keeps (State_modSys_only (Only.refl _ _) rfl)
  · exact h

theorem doOwn_clock {s0 : State} {x0 : Nat} {x1 : UnitId} {s : State} (h : Clock s0 s) : Clock s0 (doOwn x0 x1 s).1 := by
  unfold doOwn
  extract_lets band s1 t d s2
  split
  · exact Clock.ite (h.keeps (setBackoff_only (Only.refl _ _) rfl)) h
  · dsimp only
    exact h.keeps (reinitialise_only (Only.refl _ _) rfl)
  · have h1 : Clock s0 s1 := h.keeps (modBand_only (Only.refl _ _) rfl)
    exact Clock.ite (h1.keeps (setBackoff_only (Only.refl _ _) rfl)) h1
  · have h2 : Clock s0 s2 := Clock.ite (h.keeps (modDpd_only (Only.refl _ _) rfl)) h
    exact Clock.ite (h2.keeps (setBackoff_only (Only.refl _ _) rfl)) h2
  · dsimp only
    exact h.keeps (setBackoff_only (Only.refl _ _) rfl)
  · dsimp only
    exact h.keeps (modLoop_only (Only.refl _ _) rfl)
  · dsimp only
    exact h.keeps (noiseBackoff_only (Only.refl _ _) rfl)
  · exact h.keeps (donorOverloadAction_only (Only.refl _ _) rfl)
  · exact doOwnSystem_clock h

theorem collectorCycle_clock {s0 : State} {s : State} (h : Clock s0 s) : Clock s0 (collectorCycle s) := by
  unfold collectorCycle
  exact Clock.ite h (Clock.keeps (advanceTo_clock h) (refreshFaultN_only (Only.foldl (drainSubmissions_only
    (Only.refl _ _) rfl) (fun _ _ h0 => (processCycle_only h0 rfl))) rfl))

/-- After the own action a reaction pens units, and touches the air-time part in nothing else. -/
theorem performReaction_clock {s0 : State} {x0 : Reaction} {s : State} (h : Clock s0 s) :
    Clock s0 (performReaction x0 s) := by
  unfold performReaction
  extract_lets _ _ p s1 s2 _ s3 s4 s5
  have hown : Clock s0 p.1 := doOwn_clock h
  have h1 : Clock s0 s1 := by
    unfold s1
    split
    · exact hown.keeps (setBackoff_only (Only.refl _ _) rfl)
    · exact hown
  have h2 : Clock s0 s2 := h1.keeps (State_modFault_only (Only.refl _ _) rfl)
  have h3 : Clock s0 s3 := Clock.ite (Clock.foldl h2 fun _ _ h0 => penUnit_clock h0) h2
  have h4 : Clock s0 s4 := Clock.ite (h3.keeps (donorMute_only (Only.refl _ _) rfl)) h3
  have h5 : Clock s0 s5 := Clock.ite (h4.keeps (applyThermal_only (Only.refl _ _) rfl)) h4
  exact Clock.ite (h5.keeps (enterHalt_only (Only.refl _ _) rfl)) h5

theorem reactionStart_clock {s0 : State} {s : State} (h : Clock s0 s) : Clock s0 (reactionStart s) := by
  unfold reactionStart
  split
  · exact h
  · refine Clock.keeps ?_ (refreshFaultN_only (Only.refl _ _) rfl)
    split
    · exact Clock.keeps (performReaction_clock (advanceTo_clock h)) (releaseHandle_only (State_modFault_only
        (Only.refl _ _) rfl) rfl)
    · exact Clock.keeps (performReaction_clock (advanceTo_clock h)) (State_modFault_only (Only.refl _ _) rfl)

theorem consequenceWindowClose_clock {s0 : State} {s : State} (h : Clock s0 s) : Clock s0 (consequenceWindowClose s) := by
  unfold consequenceWindowClose
  dsimp only
  split
  · exact h
  · exact Clock.keeps (advanceTo_clock h) (State_modFault_only (Only.refl _ _) rfl)

theorem haltReleaseFrame_clock {s0 : State} {s : State} (h : Clock s0 s) : Clock s0 (haltReleaseFrame s) := by
  unfold haltReleaseFrame
  split
  · exact h
  · exact Clock.keeps (advanceToAir_clock h) (refreshFaultN_only (refreshGains_only (Only.foldl (State_modFault_only
      (submitFault_only (Only.refl _ _) rfl) rfl) (fun _ _ h0 => (modLoop_only h0 rfl))) rfl) rfl)

theorem eventHoldoffExpiry_clock {s0 : State} {s : State} (h : Clock s0 s) : Clock s0 (eventHoldoffExpiry s) := by
  unfold eventHoldoffExpiry
  split
  · exact Clock.ite (Clock.keeps (advanceTo_clock h) (moderate_only (Only.refl _ _) rfl)) h
  · exact h

theorem nonceExpiry_clock {s0 : State} {x0 : HostPath} {s : State} (h : Clock s0 s) : Clock s0 (nonceExpiry x0 s) := by
  unfold nonceExpiry
  exact Clock.ite h (Clock.keeps (advanceTo_clock h) (issueNonce_only (Only.refl _ _) rfl))

theorem sessionIdleExpiry_clock {s0 : State} {x0 : Nat} {s : State}
    (h : Clock s0 s) : Clock s0 (sessionIdleExpiry x0 s) := by
  unfold sessionIdleExpiry
  split
  · exact Clock.keeps (advanceTo_clock h) (postNotice_only (closeSession_only (Only.refl _ _) rfl) rfl)
  · exact h

theorem hostLockoutExpiry_clock {s0 : State} {x0 : HostPath} {s : State}
    (h : Clock s0 s) : Clock s0 (hostLockoutExpiry x0 s) := by
  unfold hostLockoutExpiry
  split
  · exact Clock.keeps (waitUntil_clock h) (State_modHost_only (Only.refl _ _) rfl)
  · exact h

theorem siteSample_clock {s0 : State} {x0 : BitVec 16} {s : State} (h : Clock s0 s) : Clock s0 (siteSample x0 s) := by
  unfold siteSample
  exact Clock.ite h (Clock.keeps (advanceTo_clock h) (Only.foldl (State_modHost_only (Only.refl _ _) rfl) (fun _ _ h0 =>
    (siteInput_only h0 rfl))))

theorem i2cHeartbeatTick_clock {s0 : State} {s : State} (h : Clock s0 s) : Clock s0 (i2cHeartbeatTick s) := by
  unfold i2cHeartbeatTick
  exact Clock.keeps (waitUntil_clock h) (State_modHost_only (Only.refl _ _) rfl)

theorem mirrorPeriodicSync_clock {s0 : State} {s : State} (h : Clock s0 s) : Clock s0 (mirrorPeriodicSync s) := by
  unfold mirrorPeriodicSync
  exact Clock.ite (Clock.keeps (advanceTo_clock h) (mirrorItem_only (mirrorItem_only (Only.refl _ _) rfl) rfl)) h

theorem becomeActiveHub_clock {s0 : State} {s : State} (h : Clock s0 s) : Clock s0 (becomeActiveHub s) := by
  unfold becomeActiveHub
  exact Clock.keeps (reselect_clock (h.keeps (State_modFl_only (State_modPair_only (Only.refl _ _) rfl) rfl)))
    (reportBindings_only (Only.refl _ _) rfl)

theorem becomeStandbyHub_clock {s0 : State} {s : State} (h : Clock s0 s) : Clock s0 (becomeStandbyHub s) := by
  unfold becomeStandbyHub
  exact Clock.keeps (reselect_clock (h.keeps (Only.foldl (State_modPair_only (State_modFl_only (State_modPair_only
    (Only.refl _ _) rfl) rfl) rfl) (fun _ _ h0 => (disableTx_only h0 rfl))))) (refreshGains_only (Only.refl _ _) rfl)

theorem pairHb_clock {s0 : State} {x0 : Nat} {x1 : Heartbeat} {s : State} (h : Clock s0 s) : Clock s0 (pairHb x0 x1 s) := by
  unfold pairHb
  split
  · exact h
  · refine Clock.ite h ?_
    dsimp only
    split
    · exact Clock.ite (becomeActiveHub_clock (h.keeps (noteHeartbeat_only (Only.refl _ _) rfl))) (becomeStandbyHub_clock
        (h.keeps (noteHeartbeat_only (Only.refl _ _) rfl)))
    · exact h.keeps (activeHears_only (noteHeartbeat_only (Only.refl _ _) rfl) rfl)
    · exact h.keeps (activeHears_only (noteHeartbeat_only (Only.refl _ _) rfl) rfl)
    · exact h.keeps (standbyHears_only (noteHeartbeat_only (Only.refl _ _) rfl) rfl)
    · exact h.keeps (standbyHears_only (noteHeartbeat_only (Only.refl _ _) rfl) rfl)
    · exact h.keeps (noteHeartbeat_only (Only.refl _ _) rfl)

theorem pairHbMissed_clock {s0 : State} {x0 : Nat} {s : State} (h : Clock s0 s) : Clock s0 (pairHbMissed x0 s) := by
  unfold pairHbMissed
  exact Clock.ite h (Clock.ite (Clock.keeps (Clock.ite (Clock.keeps (Clock.ite h (advanceToAir_clock h)) (raiseLevel_only
    (State_modPair_only (Only.refl _ _) rfl) rfl)) (Clock.keeps (Clock.ite h (advanceToAir_clock h)) (State_modPair_only
    (Only.refl _ _) rfl))) (State_modPair_only (Only.refl _ _) rfl)) (Clock.ite (Clock.keeps (Clock.ite h
    (advanceToAir_clock h)) (raiseLevel_only (State_modPair_only (Only.refl _ _) rfl) rfl)) (Clock.keeps (Clock.ite h
    (advanceToAir_clock h)) (State_modPair_only (Only.refl _ _) rfl))))

theorem pairWaitTimeout_clock {s0 : State} {s : State} (h : Clock s0 s) : Clock s0 (pairWaitTimeout s) := by
  unfold pairWaitTimeout
  exact Clock.ite (becomeActiveHub_clock (advanceTo_clock h)) h

theorem bulkSyncTimeout_clock {s0 : State} {s : State} (h : Clock s0 s) : Clock s0 (bulkSyncTimeout s) := by
  unfold bulkSyncTimeout
  split
  · exact Clock.keeps (advanceTo_clock h) (raiseLevel_only (Only.refl _ _) rfl)
  · exact h

theorem pairLinkRecovery_clock {s0 : State} {s : State} (h : Clock s0 s) : Clock s0 (pairLinkRecovery s) := by
  unfold pairLinkRecovery
  exact Clock.ite (Clock.keeps (advanceTo_clock h) (endFault_only (Only.refl _ _) rfl)) h

theorem pairTakeover_clock {s0 : State} {s : State} (h : Clock s0 s) : Clock s0 (pairTakeover s) := by
  unfold pairTakeover
  split
  · exact h
  · exact Clock.keeps (failSource_clock (Clock.keeps (advanceToAir_clock h) (State_modFl_only (State_modPair_only
      (Only.refl _ _) rfl) rfl))) (refreshFaultN_only (refreshGains_only (postNotice_only (submitLog_only
      (adoptModels_only (enableChains_only (issuePlan_only (reportBindings_only (takeFlows_only (adoptDrover_only
      (adoptBelow_only (adoptFaults_only (Only.refl _ _) rfl) rfl) rfl) rfl) rfl) rfl) rfl) rfl) rfl) rfl) rfl) rfl)

theorem muteTowards_clock {s0 : State} {x0 : Nat} {s : State} (h : Clock s0 s) : Clock s0 (muteTowards x0 s) := by
  unfold muteTowards
  exact Clock.foldl h (fun _ _ h0 => (Clock.keeps (advanceTo_clock h0) (refreshGains_only (State_modPair_only
    (Only.refl _ _) rfl) rfl)))

theorem pairDemote_clock {s0 : State} {s : State} (h : Clock s0 s) : Clock s0 (pairDemote s) := by
  unfold pairDemote
  split
  · exact h
  · exact Clock.keeps (becomeStandbyHub_clock (Clock.keeps (advanceToAir_clock (Clock.ite h (muteTowards_clock h)))
      (discardTables_only (Only.refl _ _) rfl))) (Only.ite (submitLog_only (submitLog_only (State_modPair_only
      (Only.refl _ _) rfl) rfl) rfl) (submitLog_only (State_modPair_only (Only.refl _ _) rfl) rfl))

theorem admissionFrame_clock {s0 : State} {s : State} (h : Clock s0 s) : Clock s0 (admissionFrame s) := by
  unfold admissionFrame
  split
  · exact h
  · exact Clock.keeps (advanceToAir_clock h) (seekAdmission_only (refreshGains_only (Only.foldl (Only.foldl
      (State_modLg_only (State_modFault_only (Only.refl _ _) rfl) rfl) (fun _ _ h0 => (admitBand_only h0 rfl)))
      (fun _ _ h0 => (admitChain_only h0 rfl))) rfl) rfl)

/-- A command's effect and its rejection keep the clock. -/
def SpecClock (c : CommandSpec) : Prop :=
  (∀ s q, Clock s (c.effect s q).1) ∧ ∀ s q st, Clock s (c.reject s q st)

theorem SpecClock.of_only {c : CommandSpec} {m : Nat} (h : SpecOnly m c) (k : m &&& 1048574 = m) : SpecClock c :=
  ⟨fun s q => (Clock.refl s).keeps ((h.1 s q).weaken k), fun s q st => (Clock.refl s).keeps ((h.2 s q st).weaken k)⟩

theorem specRfCalGrant_clock : SpecClock specRfCalGrant :=
  ⟨fun s _ => (Clock.modAir (Clock.refl s)).keeps (State_modRf_only (Only.refl _ _) rfl), fun s _ _ => Clock.refl s⟩

theorem specAtSourceConfig_clock : SpecClock specAtSourceConfig :=
  ⟨fun s _ => Clock.modAir (Clock.refl s), fun s _ _ => Clock.refl s⟩

theorem specTddPatternSet_clock : SpecClock specTddPatternSet :=
  ⟨fun s _ => Clock.modAir (Clock.refl s), fun s _ _ => Clock.refl s⟩

theorem specWallTimeSet_clock : SpecClock specWallTimeSet :=
  ⟨fun s _ => setWall_clock (Clock.refl s), fun s _ _ => Clock.refl s⟩

theorem specFlPortConfig_clock : SpecClock specFlPortConfig :=
  ⟨fun s _ => (reviewPort_clock ((Clock.refl s).keeps (modPort_only (unpowerLanes_only (Only.refl _ _) rfl) rfl))).keeps
    (placementTrigger_only (powerPort_only (State_modFl_only (modPort_only (Only.refl _ _) rfl) rfl) rfl) rfl),
    fun s _ _ => Clock.refl s⟩

theorem specFlFlockConfig_clock : SpecClock specFlFlockConfig :=
  ⟨fun s _ => reselect_clock ((Clock.refl s).keeps (joinSettingChanged_only (State_modFl_only (Only.refl _ _) rfl) rfl)),
    fun s _ _ => Clock.refl s⟩

theorem specFlLaneControl_clock : SpecClock specFlLaneControl := by
  refine ⟨fun s q => ?_, fun s _ _ => Clock.refl s⟩
  dsimp only [specFlLaneControl]
  split
  · exact retrainLane_clock (Clock.refl s)
  · exact penLane_clock (Clock.refl s)
  · exact (Clock.refl s).keeps (releaseLane_only (Only.refl _ _) rfl)
  · exact (Clock.refl s).keeps (modLane_only (Only.refl _ _) rfl)
  · exact (Clock.refl s).keeps (modLane_only (Only.refl _ _) rfl)

theorem specFaultUnitPen_clock : SpecClock specFaultUnitPen := by
  refine ⟨fun s q => ?_, fun s _ _ => Clock.refl s⟩
  dsimp only [specFaultUnitPen]
  split
  · exact (penUnit_clock (Clock.refl s)).keeps (submitFault_only (Only.refl _ _) rfl)
  · exact Clock.refl s

theorem specAtSchedule_clock : SpecClock specAtSchedule :=
  ⟨fun s _ => Clock.modAir (Clock.refl s), fun s _ _ => Clock.refl s⟩

theorem specAtCancel_clock : SpecClock specAtCancel :=
  ⟨fun s _ => (Clock.modAir (Clock.refl s)).keeps (State_modRf_only (Only.refl _ _) rfl), fun s _ _ => Clock.refl s⟩

theorem commandTable_clock : ∀ c ∈ commandTable, SpecClock c := by
  simp only [commandTable, innerTable, List.forall_mem_append, List.forall_mem_cons, List.not_mem_nil, false_imp_iff,
    implies_true, and_true, and_assoc]
  exact
    ⟨.of_only specSysNop_only rfl, .of_only specSysSessionOpen_only rfl, .of_only specSysSessionClose_only rfl,
    .of_only specSysHostConfig_only rfl, .of_only specSysNetConfig_only rfl, .of_only specSysSiteConfig_only rfl,
    specAtSourceConfig_clock, specTddPatternSet_clock, specWallTimeSet_clock, .of_only specRfChainConfig_only rfl,
    .of_only specRfTxEnable_only rfl, .of_only specRfRxAtten_only rfl, .of_only specRfCalRun_only rfl,
    specRfCalGrant_clock, .of_only specRfPolicy_only rfl, .of_only specRfObsMap_only rfl, .of_only specBpConfig_only rfl,
    .of_only specBpRelease_only rfl, .of_only specBpDetector_only rfl, .of_only specBpAlign_only rfl,
    .of_only specBpSyncPin_only rfl, .of_only specDpdConfig_only rfl, .of_only specDpdControl_only rfl,
    .of_only specLgLoopConfig_only rfl, .of_only specLgBeaconConfig_only rfl, .of_only specLgCancelConfig_only rfl,
    .of_only specLgCancelControl_only rfl, .of_only specLgSearchConfig_only rfl, .of_only specLgPolicy_only rfl,
    .of_only specGsSetGain_only rfl, .of_only specGsMute_only rfl, .of_only specNpBackoffSet_only rfl,
    .of_only specNpPolicy_only rfl, .of_only specUlGateConfig_only rfl, .of_only specUlNoiseConfig_only rfl,
    .of_only specNpDonorConfig_only rfl, .of_only specNpOutputConfig_only rfl, .of_only specClSlotConfig_only rfl,
    .of_only specClBankWrite_only rfl, .of_only specClBankSwap_only rfl, .of_only specClSetpoint_only rfl,
    .of_only specClSlotControl_only rfl, .of_only specClRepConfig_only rfl, .of_only specClInject_only rfl,
    .of_only specClTraceConfig_only rfl, .of_only specClTraceRead_only rfl, .of_only specClPolicy_only rfl,
    .of_only specPaConfig_only rfl, .of_only specPaTiming_only rfl, .of_only specPaBiasTable_only rfl,
    .of_only specCmpConfig_only rfl, .of_only specCmpMode_only rfl, .of_only specPaEnable_only rfl,
    .of_only specPaBiasCal_only rfl, .of_only specCasPolicy_only rfl, .of_only specCasIdentityRead_only rfl,
    .of_only specHkSlotMap_only rfl, .of_only specHkUrgent_only rfl, .of_only specHkCalPoint_only rfl,
    .of_only specHkTestDac_only rfl, .of_only specHkSupplyWindow_only rfl, .of_only specHkThermalPolicy_only rfl,
    specFlPortConfig_clock, specFlFlockConfig_clock, .of_only specFlJoin_only rfl, .of_only specFlLeave_only rfl,
    specFlLaneControl_clock, .of_only specFlMemberQuery_only rfl, .of_only specFlExpel_only rfl,
    .of_only specDvIntentSet_only rfl, .of_only specDvIntentClear_only rfl, .of_only specDvPolicy_only rfl,
    .of_only specDvReplace_only rfl, .of_only specDvFlowQuery_only rfl, .of_only specDvFlowControl_only rfl,
    .of_only specCapArm_only rfl, .of_only specCapTrigger_only rfl, .of_only specCapControl_only rfl,
    .of_only specArConfig_only rfl, .of_only specArControl_only rfl, .of_only specArRestore_only rfl,
    .of_only specMemRetireClear_only rfl, .of_only specBellConfig_only rfl, .of_only specBellEnable_only rfl,
    .of_only specKeeperKey_only rfl, .of_only specBellChainConfig_only rfl, .of_only specFaultClassConfig_only rfl,
    .of_only specFaultPolicy_only rfl, .of_only specFaultAck_only rfl, specFaultUnitPen_clock,
    .of_only specFaultUnitRelease_only rfl, .of_only specFaultHaltRelease_only rfl, .of_only specFaultFfClear_only rfl,
    .of_only specFaultInject_only rfl, .of_only specFaultTableRead_only rfl, .of_only specLogMode_only rfl,
    .of_only specLogRead_only rfl, .of_only specLogClear_only rfl, .of_only specLogMediaReset_only rfl,
    .of_only specLogWrite_only rfl, .of_only specLogVerify_only rfl, .of_only specPwrStateSet_only rfl,
    .of_only specPwrWakeConfig_only rfl, .of_only specPwrLimitSet_only rfl, .of_only specPwrReset_only rfl,
    .of_only specLcProvision_only rfl, .of_only specLcAdvance_only rfl, .of_only specLcRoleSet_only rfl,
    .of_only specKeyInstall_only rfl, .of_only specDbgPolicy_only rfl, .of_only specFwWrite_only rfl,
    .of_only specFwControl_only rfl, .of_only specPairConfig_only rfl, .of_only specPairSwitchover_only rfl,
    .of_only specPairTailRead_only rfl, specAtSchedule_clock, specAtCancel_clock⟩

theorem runCommand_clock {s0 s : State} {c : CommandSpec} {q : Req} (hc : SpecClock c) (h : Clock s0 s) :
    Clock s0 (runCommand c q s) := by
  have hstart : Clock s0 (noteStart q s) := h.keeps (noteStart_only (Only.refl _ _) rfl)
  unfold runCommand
  dsimp only
  split
  · exact (hstart.trans (hc.2 _ _ _)).keeps (deliver_only (noteReject_only (Only.refl _ _) rfl) rfl)
  · have heffect := (hstart.trans (hc.1 _ q)).keeps (mirrorCommand_only (x0 := q) (Only.refl _ _) rfl)
    split
    · exact heffect
    · exact heffect.keeps (deliver_only (Only.refl _ _) rfl)

theorem submit_clock {s0 s : State} {c : CommandSpec} {r : HostRequest} (hc : SpecClock c) (h : Clock s0 s) :
    Clock s0 (submit c r s) := by
  unfold submit
  dsimp only
  split
  · split
    · exact h.keeps (ignoreDoorbell_only (Only.refl _ _) rfl)
    · exact h
  · split
    · exact h.keeps (capture_only (Only.refl _ _) rfl)
    · exact runCommand_clock hc (h.keeps (unregister_only (capture_only (Only.refl _ _) rfl) rfl))

theorem commandSpec_clock {n : Nat} {c : CommandSpec} (h : commandSpec n = some c) : SpecClock c :=
  commandTable_clock c (List.mem_of_find?_eq_some h)

theorem runRequest_clock {s0 : State} {x0 : Req} {s : State} (h : Clock s0 s) : Clock s0 (runRequest x0 s) := by
  unfold runRequest
  split
  · rename_i c hc
    exact runCommand_clock (commandSpec_clock hc) h
  · exact h.keeps (runUnassigned_only (Only.refl _ _) rfl)

theorem commandStart_clock {s0 : State} {s : State} (h : Clock s0 s) : Clock s0 (commandStart s) := by
  unfold commandStart
  refine Clock.ite h ?_
  split
  · exact h
  · split
    · exact runRequest_clock (h.keeps (unregister_only (Only.refl _ _) rfl))
    · exact h.keeps (unregister_only (Only.refl _ _) rfl)

theorem scheduledCommandFire_clock {s0 : State} {s : State} (h : Clock s0 s) : Clock s0 (scheduledCommandFire s) := by
  unfold scheduledCommandFire
  split
  · exact h
  · refine runRequest_clock (Clock.modAir ?_)
    split
    · exact advanceTo_clock h
    · exact Clock.ite (advanceToAir_clock h) h

theorem applyMirrored_clock {s0 : State} {x0 : Nat} {x1 : List Byte} {s : State} (h : Clock s0 s) :
    Clock s0 (applyMirrored x0 x1 s) := by
  unfold applyMirrored
  split
  · exact h
  · rename_i c hc
    dsimp only
    split
    · exact h.trans ((commandSpec_clock hc).1 _ _)
    · exact h

theorem applyItem_clock {s0 : State} {x0 : PairItem} {s : State} (h : Clock s0 s) : Clock s0 (applyItem x0 s) := by
  unfold applyItem
  split
  · exact Clock.ite (h.keeps (State_modPair_only (Only.refl _ _) rfl)) (applyMirrored_clock (h.keeps (State_modPair_only
      (Only.refl _ _) rfl)))
  · exact h.keeps (State_modPair_only (Only.refl _ _) rfl)
  · exact h.keeps (State_modPair_only (Only.refl _ _) rfl)
  · exact h.keeps (State_modPair_only (Only.refl _ _) rfl)
  · exact h.keeps (State_modPair_only (Only.refl _ _) rfl)
  · exact h.keeps (takeCounters_only (Only.refl _ _) rfl)
  · exact h.keeps (takeMembers_only (Only.refl _ _) rfl)
  · exact h.keeps (State_modDv_only (State_modPair_only (Only.refl _ _) rfl) rfl)
  · exact h.keeps (State_modDv_only (Only.refl _ _) rfl)
  · exact h.keeps (State_modDv_only (Only.refl _ _) rfl)
  · exact h.keeps (State_modPair_only (Only.refl _ _) rfl)

theorem pairSync_clock {s0 : State} {x0 : Nat} {x1 : PairItem} {s : State}
    (h : Clock s0 s) : Clock s0 (pairSync x0 x1 s) := by
  unfold pairSync
  exact Clock.ite (applyItem_clock (h.keeps (State_modPair_only (Only.refl _ _) rfl))) h

theorem ttRespFrame_clock {s0 : State} {x0 : Nat} {x1 : Nat} {x2 : Nat} {s : State}
    (h : Clock s0 s) : Clock s0 (ttRespFrame x0 x1 x2 s) := by
  unfold ttRespFrame
  exact ttResp_clock (h.keeps (draw_only (draw_only (Only.refl _ _) rfl) rfl))

/-- What a part does with a frame that it does not relay moves the clock as a step does. -/
theorem orRelay_clock {s0 : State} {f : CtrlFrame} {g : State → State} {s : State} (h : Clock s0 s) (hg : Clock s0 (g s)) :
    Clock s0 (orRelay f g s) := by
  unfold orRelay
  split
  · exact hg
  · cases hr : relayDown f.head.dest f s with
    | none => exact hg
    | some t => exact h.keeps (relayDown_only (Only.refl _ _) rfl hr)

theorem handleFrame_clock {s0 : State} {x0 : Nat} {x2 : CtrlFrame} {s : State} (h : Clock s0 s) :
    Clock s0 (handleFrame x0 s x2) := by
  unfold handleFrame
  dsimp only
  split
  · exact hello_clock h
  · refine Clock.ite h (orRelay_clock h ?_)
    split
    · exact h
    · exact h.keeps (ttReq_only (Only.refl _ _) rfl)
    · exact ttRespFrame_clock h
    · exact h.keeps (joinReq_only (Only.refl _ _) rfl)
    · exact h.keeps (joinResp_only (Only.refl _ _) rfl)
    · exact h.keeps (leave_only (Only.refl _ _) rfl)
    · exact h.keeps (leaveAck_only (Only.refl _ _) rfl)
    · exact h.keeps (status_only (Only.refl _ _) rfl)
    · exact pathDown_clock h
    · exact h.keeps (rehome_only (Only.refl _ _) rfl)
    · exact h.keeps (lost_only (Only.refl _ _) rfl)
    · exact h.keeps (laneSet_only (Only.refl _ _) rfl)
    · exact h.keeps (expel_only (Only.refl _ _) rfl)
    · exact h.keeps (forMember_only (Only.refl _ _) rfl (marginCapReceive_only (Only.refl _ _) rfl))
    · refine Clock.ite ?_ (h.keeps (forwardUp_only (Only.refl _ _) rfl))
      split
      · exact h.keeps (admitReqReceive_only (Only.refl _ _) rfl)
      · exact h
    · exact h.keeps (forMember_only (Only.refl _ _) rfl (admitGrantReceive_only (Only.refl _ _) rfl))
    · exact h.keeps (sendBelow_only (raiseGates_only (Only.refl _ _) rfl) rfl)
    · exact h.keeps (plan_only (Only.refl _ _) rfl)
    · exact h.keeps (planAck_only (Only.refl _ _) rfl)
    · exact h.keeps (planCancel_only (Only.refl _ _) rfl)
    · exact h.keeps (bindStatus_only (Only.refl _ _) rfl)
    · exact h.keeps (flowReport_only (Only.refl _ _) rfl)
    · exact pairHb_clock h
    · exact Clock.ite (pairSync_clock h) h
    · exact h.keeps (modPort_only (Only.refl _ _) rfl)

theorem flitReceive_clock {s0 : State} {x0 : Nat} {x1 : Flit} {s : State}
    (h : Clock s0 s) : Clock s0 (flitReceive x0 x1 s) := by
  unfold flitReceive
  refine Clock.ite h (Clock.ite (h.keeps (loseFlit_only (Only.refl _ _) rfl)) ?_)
  split
  · exact h
  · exact h.keeps (loseFlit_only (Only.refl _ _) rfl)
  · exact Clock.ite (Clock.keeps (Clock.foldl h (fun _ _ h0 => (blockArrives_clock h0))) (forwardFlit_only
      (Only.refl _ _) rfl)) h
  · exact Clock.foldl h (fun _ _ h0 => (handleFrame_clock h0))

theorem approachStep_clock {s0 : State} {x0 : AirInstant} {s : State} (h : Clock s0 s) : Clock s0 (approachStep x0 s) := by
  unfold approachStep
  exact advanceToAir_clock (fadeTowards_clock h)

theorem toTick_clock {s0 : State} {s : State} (h : Clock s0 s) : Clock s0 (toTick s) := by
  unfold toTick
  refine Clock.modAir ?_
  split
  · exact Clock.ite (approachStep_clock h) (advanceToAir_clock h)
  · exact advanceToAir_clock h

theorem tickSamples_clock {s0 : State} {x0 : TickInput} {s : State} (h : Clock s0 s) : Clock s0 (tickSamples x0 s) := by
  unfold tickSamples
  exact Clock.keeps (feedPaths_clock (h.keeps (Only.foldl (Only.refl _ _) (fun _ _ h0 => (Only.ite
    (tapRaw_only h0 rfl) h0))))) (Only.foldl (trackingLimit_only (Only.foldl (Only.refl _ _) (fun _ _ h0 =>
    (transmitTick_only h0 rfl))) rfl) (fun _ _ h0 => (clipTick_only h0 rfl)))

theorem loopTick_clock {s0 : State} {x0 : TickInput} {s : State} (h : Clock s0 s) : Clock s0 (loopTick x0 s) := by
  unfold loopTick
  exact Clock.keeps (tickSamples_clock (Clock.keeps (phaseTick_clock (reselect_clock (toTick_clock h))) (Only.foldl
    (State_modPs_only (checkTimeLoss_only (Only.refl _ _) rfl) rfl) (fun _ _ h0 => (drainQueue_only h0 rfl))))) (Only.ite
    (sendStatus_only (reportStacks_only (refreshGains_only (hubLadders_only (Only.foldl (takeGains_only (Only.foldl
    (Only.foldl (Only.refl _ _) (fun _ _ h0 => (donorTick_only h0 rfl))) (fun _ _ h0 => (noiseTick_only h0 rfl))) rfl)
    (fun _ _ h0 => (riseCap_only h0 rfl))) rfl) rfl) rfl) rfl) (reportStacks_only (refreshGains_only (hubLadders_only
    (Only.foldl (takeGains_only (Only.foldl (Only.foldl (Only.refl _ _) (fun _ _ h0 => (donorTick_only h0 rfl)))
    (fun _ _ h0 => (noiseTick_only h0 rfl))) rfl) (fun _ _ h0 => (riseCap_only h0 rfl))) rfl) rfl) rfl))

theorem slotBoundary_clock {s0 : State} {s : State} (h : Clock s0 s) : Clock s0 (slotBoundary s) := by
  unfold slotBoundary
  exact Clock.keeps (advanceToBoundary_clock h) (admitAcquired_only (dpdSlot_only (placeClusters_only (keepSnapshots_only
    (lgSlot_only (Only.refl _ _) rfl) rfl) rfl) rfl) rfl)

theorem subframeBoundary_clock {s0 : State} {s : State} (h : Clock s0 s) : Clock s0 (subframeBoundary s) := by
  unfold subframeBoundary
  exact Clock.keeps (advanceToBoundary_clock h) (pairSubframe_only (Only.refl _ _) rfl)

theorem ppsFrame_clock {s0 : State} {s : State} (h : Clock s0 s) : Clock s0 (ppsFrame s) := by
  unfold ppsFrame
  exact Clock.modAir h

theorem frameBoundary_clock {s0 : State} {x0 : FrameInput} {s : State}
    (h : Clock s0 s) : Clock s0 (frameBoundary x0 s) := by
  unfold frameBoundary
  exact Clock.keeps (ppsFrame_clock (advanceToBoundary_clock h)) (Only.ite (dvFrame_only (flFrame_only
    (Only.refl _ _) rfl) rfl) (seekAdmission_only (dvFrame_only (flFrame_only (Only.refl _ _) rfl) rfl) rfl))

theorem moveBy_later (e : Int) (a : AirState) : a.Later (moveBy e a) := ⟨fun _ => moveCount_inRange a e, le_rfl⟩

theorem applyStep_clock {s0 : State} {x0 : Int} {s : State} (h : Clock s0 s) : Clock s0 (applyStep x0 s) := by
  have hmove : Clock s0 (s.modAir fun a => moveBy x0 { a with
      scheduled := a.scheduled.map fun x => match x.at_ with
        | .air i => if skipped a x0 i then { x with late := true } else x
        | .mono _ => x }) := h.later (moveBy_later x0 _)
  unfold applyStep
  exact Clock.keeps (Clock.modAir hmove)
    (submitLog_only (stepSlots_only (stepBands_only (Only.refl _ _) rfl) rfl) rfl)

theorem airTimeStep_clock {s0 : State} {s : State} (h : Clock s0 s) : Clock s0 (airTimeStep s) := by
  unfold airTimeStep
  split
  · exact h
  · exact Clock.keeps (applyStep_clock (Clock.modAir (Clock.ite (approachStep_clock h) h))) (refreshGains_only
      (Only.refl _ _) rfl)

theorem tddPatternEffective_clock {s0 : State} {x0 : Nat} {s : State}
    (h : Clock s0 s) : Clock s0 (tddPatternEffective x0 s) := by
  unfold tddPatternEffective
  split
  · exact h
  · exact Clock.keeps (Clock.modAir (Clock.keeps (advanceToAir_clock h) (Only.ite (patternClears_only (Only.refl _ _) rfl)
      (Only.refl _ _)))) (refreshGains_only (Only.refl _ _) rfl)

theorem obsDwellStart_clock {s0 : State} {x0 : Nat} {s : State} (h : Clock s0 s) : Clock s0 (obsDwellStart x0 s) := by
  unfold obsDwellStart
  refine Clock.ite ?_ h
  dsimp only
  split
  · exact Clock.keeps (advanceToAir_clock h) (modObs_only (Only.refl _ _) rfl)
  · exact h

theorem obsDwellEnd_clock {s0 : State} {x0 : Nat} {x1 : DwellInput} {s : State}
    (h : Clock s0 s) : Clock s0 (obsDwellEnd x0 x1 s) := by
  unfold obsDwellEnd
  exact Clock.ite h (Clock.keeps (advanceTo_clock h) (Only.ite (modObs_only (modObs_only (Only.refl _ _) rfl) rfl)
    (refreshGains_only (dpdDwell_only (Only.ite (usableDwell_only (outputMeasured_only (modObs_only (modObs_only
    (Only.refl _ _) rfl) rfl) rfl) rfl) (outputMeasured_only (modObs_only (modObs_only
    (Only.refl _ _) rfl) rfl) rfl)) rfl) rfl)))

theorem keeperCommand_clock {s0 : State} {x0 : BellArrival} {x1 : KeeperKey} {x2 : Nat} {x3 : Nat} {x4 : List Byte} {s : State}
    (h : Clock s0 s) : Clock s0 (keeperCommand x0 x1 x2 x3 x4 s) := by
  unfold keeperCommand
  refine Clock.ite (h.keeps (queueResponse_only (Only.refl _ _) rfl)) (Clock.ite (runRequest_clock (h.keeps
    (State_modHost_only (Only.refl _ _) rfl))) ?_)
  split
  · exact Clock.keeps (runRequest_clock (h.keeps (State_modHost_only (Only.refl _ _) rfl))) (queueResponse_only
      (State_modHost_only (Only.refl _ _) rfl) rfl)
  · exact Clock.keeps (runRequest_clock (h.keeps (State_modHost_only (Only.refl _ _) rfl))) (bellQueue_only
      (Only.refl _ _) rfl)

theorem keeperService_clock {s0 : State} {x0 : BellArrival} {x1 : KeeperKey} {x2 : List Byte} {s : State}
    (h : Clock s0 s) : Clock s0 (keeperService x0 x1 x2 s) := by
  unfold keeperService
  exact Clock.ite (h.keeps (queueResponse_only (Only.refl _ _) rfl)) (Clock.ite (h.keeps (Only.ite (queueResponse_only
    (draw_only (Only.refl _ _) rfl) rfl) (queueResponse_only (draw_only (Only.refl _ _) rfl) rfl))) (Clock.ite (h.keeps
    (queueResponse_only (readResult_only (Only.refl _ _) rfl) rfl)) (Clock.ite (h.keeps (queueResponse_only
    (Only.refl _ _) rfl)) (keeperCommand_clock h))))

theorem keeperRequest_clock {s0 : State} {s : State} (h : Clock s0 s) : Clock s0 (keeperRequest s) := by
  unfold keeperRequest
  split
  · exact h
  · dsimp only
    split
    · exact h.keeps (State_modBell_only (Only.refl _ _) rfl)
    · refine Clock.ite (h.keeps (State_modBell_only (Only.refl _ _) rfl)) ?_
      split
      · exact keeperService_clock (h.keeps (acceptCounter_only (State_modBell_only (Only.refl _ _) rfl) rfl))
      · exact h.keeps (keeperFailed_only (State_modBell_only (Only.refl _ _) rfl) rfl)
      · exact h.keeps (State_modBell_only (Only.refl _ _) rfl)

theorem keeperResponseDue_clock {s0 : State} {s : State} (h : Clock s0 s) : Clock s0 (keeperResponseDue s) := by
  unfold keeperResponseDue
  split
  · exact h
  · dsimp only
    split
    · exact Clock.keeps (advanceTo_clock h) (settleResponse_only (Only.refl _ _) rfl)
    · exact advanceTo_clock h

theorem Clock.of_next {s t u : State} (h : (.next u : Host.Outcome State Fault Refusal) = .next t) (k : Clock s u) :
    Clock s t := by
  cases h
  exact k

/-- Every row but POWER_ON_RESET moves the clock on (R11, R12). -/
theorem exec_clock {i : Instr} {s t : State} (hi : ∀ role boot, i ≠ .powerOnReset role boot) (h : exec i s = .next t) :
    Clock s t := by
  cases i with
  | powerOnReset role boot => exact absurd rfl (hi role boot)
  | resetN _ _ => exact .of_next h (resetN_clock (Clock.refl s))
  | bootStageAdvance _ _ _ _ => exact .of_next h (bootStageAdvance_clock (Clock.refl s))
  | ready => exact (Clock.refl s).keeps ((execReady_only h).weaken (by decide))
  | trialTimeout => exact .of_next h (trialTimeout_clock (Clock.refl s))
  | warmReset => exact .of_next h (warmReset_clock (Clock.refl s))
  | watchdogTimeout => exact (Clock.refl s).keeps ((execWatchdogTimeout_only h).weaken (by decide))
  | watchdogReset => exact .of_next h (watchdogReset_clock (Clock.refl s))
  | unitResetComplete _ => exact .of_next h (unitResetComplete_clock (Clock.refl s))
  | dormantWake _ _ => exact .of_next h (dormantWake_clock (Clock.refl s))
  | dormantEntry _ => exact .of_next h (dormantEntry_clock (Clock.refl s))
  | pwrEnDrop => exact .of_next h (pwrEnDrop_clock (Clock.refl s))
  | standbyEntry => exact .of_next h (standbyEntry_clock (Clock.refl s))
  | standbyExitComplete => exact (Clock.refl s).keeps ((execStandbyExitComplete_only h).weaken (by decide))
  | quietExit => exact .of_next h (quietExit_clock (Clock.refl s))
  | pwrFailNFall _ => exact .of_next h (pwrFailFall_clock (Clock.refl s))
  | pwrRestore => exact .of_next h (pwrRestore_clock (Clock.refl s))
  | aonOscTick => exact .of_next h (aonOscTick_clock (Clock.refl s))
  | loopTick _ => exact .of_next h (loopTick_clock (Clock.refl s))
  | slotBoundary => exact .of_next h (slotBoundary_clock (Clock.refl s))
  | subframeBoundary => exact .of_next h (subframeBoundary_clock (Clock.refl s))
  | frameBoundary _ => exact .of_next h (frameBoundary_clock (Clock.refl s))
  | symbolBoundary _ _ _ _ => exact .of_next h (symbolBoundary_clock (Clock.refl s))
  | ppsOutPulseEnd => exact .of_next h (ppsOutPulseEnd_clock (Clock.refl s))
  | donorDetection _ => exact .of_next h (donorDetection_clock (Clock.refl s))
  | donorSyncTimeout => exact .of_next h (donorSyncTimeout_clock (Clock.refl s))
  | ptpSyncRx _ => exact .of_next h (ptpSyncRx_clock (Clock.refl s))
  | ptpSyncTimeout => exact .of_next h (ptpSyncTimeout_clock (Clock.refl s))
  | ppsInEdge _ => exact .of_next h (ppsInEdge_clock (Clock.refl s))
  | ppsInMissing => exact .of_next h (ppsInMissing_clock (Clock.refl s))
  | flockSourceTimeout => exact .of_next h (flockSourceTimeout_clock (Clock.refl s))
  | sourceRetryTimer _ => exact .of_next h (sourceRetry_clock (Clock.refl s))
  | revertHoldExpiry => exact .of_next h (revertHoldExpiry_clock (Clock.refl s))
  | atLocked => exact .of_next h (atLocked_clock (Clock.refl s))
  | airTimeStep => exact .of_next h (airTimeStep_clock (Clock.refl s))
  | stepPendingEnd => exact .of_next h (Clock.keeps (stepPendingEnd_clock (Clock.refl s)) (refreshGains_only (Only.refl _ _) rfl))
  | refInQualify _ => exact .of_next h (refInQualify_clock (Clock.refl s))
  | timeErrLimitExceeded => exact .of_next h (timeErrLimitExceeded_clock (Clock.refl s))
  | scheduledCommandFire => exact .of_next h (scheduledCommandFire_clock (Clock.refl s))
  | tddPatternEffective _ => exact .of_next h (tddPatternEffective_clock (Clock.refl s))
  | tddVerifyWindowEnd _ _ _ => exact .of_next h (tddVerifyWindowEnd_clock (Clock.refl s))
  | atSourceConfig _ => exact .of_next h (submit_clock specAtSourceConfig_clock (Clock.refl s))
  | tddPatternSet _ => exact .of_next h (submit_clock specTddPatternSet_clock (Clock.refl s))
  | wallTimeSet _ => exact .of_next h (submit_clock specWallTimeSet_clock (Clock.refl s))
  | atSchedule _ => exact .of_next h (submit_clock specAtSchedule_clock (Clock.refl s))
  | atCancel _ => exact .of_next h (submit_clock specAtCancel_clock (Clock.refl s))
  | rfChainConfig _ => exact (Clock.refl s).keeps ((execRfChainConfig_only h).weaken (by decide))
  | rfTxEnable _ => exact (Clock.refl s).keeps ((execRfTxEnable_only h).weaken (by decide))
  | rfRxAtten _ => exact (Clock.refl s).keeps ((execRfRxAtten_only h).weaken (by decide))
  | rfCalRun _ => exact (Clock.refl s).keeps ((execRfCalRun_only h).weaken (by decide))
  | rfCalGrant _ => exact .of_next h (submit_clock specRfCalGrant_clock (Clock.refl s))
  | rfPolicy _ => exact (Clock.refl s).keeps ((execRfPolicy_only h).weaken (by decide))
  | rfObsMap _ => exact (Clock.refl s).keeps ((execRfObsMap_only h).weaken (by decide))
  | attenDeferredApply _ => exact .of_next h (attenDeferredApply_clock (Clock.refl s))
  | synthLock _ _ => exact .of_next h (synthLock_clock (Clock.refl s))
  | synthUnlock _ => exact (Clock.refl s).keeps ((execSynthUnlock_only h).weaken (by decide))
  | chainActivate _ => exact .of_next h (chainActivate_clock (Clock.refl s))
  | lockTimeout _ => exact .of_next h (lockTimeout_clock (Clock.refl s))
  | relockTimeout _ => exact .of_next h (relockTimeout_clock (Clock.refl s))
  | calEvaluation => exact .of_next h (calEvaluation_clock (Clock.refl s))
  | calibrationStart _ => exact .of_next h (calibrationStart_clock (Clock.refl s))
  | calibrationComplete _ _ _ _ _ => exact .of_next h (calibrationComplete_clock (Clock.refl s))
  | grantStart _ => exact .of_next h (grantStart_clock (Clock.refl s))
  | converterSelfCheckFail _ => exact (Clock.refl s).keeps ((execConverterSelfCheckFail_only h).weaken (by decide))
  | obsDwellStart _ => exact .of_next h (obsDwellStart_clock (Clock.refl s))
  | obsDwellEnd _ _ => exact .of_next h (obsDwellEnd_clock (Clock.refl s))
  | bpConfig _ => exact (Clock.refl s).keeps ((execBpConfig_only h).weaken (by decide))
  | bpRelease _ => exact (Clock.refl s).keeps ((execBpRelease_only h).weaken (by decide))
  | bpDetector _ => exact (Clock.refl s).keeps ((execBpDetector_only h).weaken (by decide))
  | bpAlign _ => exact (Clock.refl s).keeps ((execBpAlign_only h).weaken (by decide))
  | bpSyncPin _ => exact (Clock.refl s).keeps ((execBpSyncPin_only h).weaken (by decide))
  | dpdConfig _ => exact (Clock.refl s).keeps ((execDpdConfig_only h).weaken (by decide))
  | dpdControl _ => exact (Clock.refl s).keeps ((execDpdControl_only h).weaken (by decide))
  | fadeOutEnd _ _ => exact .of_next h (fadeOutEnd_clock (Clock.refl s))
  | settleZerosEnd _ _ => exact .of_next h (settleZerosEnd_clock (Clock.refl s))
  | fadeInEnd _ => exact .of_next h (fadeInEnd_clock (Clock.refl s))
  | alignmentApply => exact .of_next h (alignmentApply_clock (Clock.refl s))
  | syncAlignEdge _ => exact (Clock.refl s).keeps ((execSyncAlignEdge_only h).weaken (by decide))
  | syncAlignPulseEnd => exact .of_next h (syncAlignPulseEnd_clock (Clock.refl s))
  | alignLossDetect _ _ => exact (Clock.refl s).keeps ((execAlignLossDetect_only h).weaken (by decide))
  | detectorWindowEnd _ _ _ _ _ => exact .of_next h (detectorWindowEnd_clock (Clock.refl s))
  | detectorSelfCheckFail _ _ => exact (Clock.refl s).keeps ((execDetectorSelfCheckFail_only h).weaken (by decide))
  | pathSettleTimeout _ _ => exact .of_next h (pathSettleTimeout_clock (Clock.refl s))
  | dpdUpdateApply _ => exact .of_next h (dpdUpdateApply_clock (Clock.refl s))
  | dpdUpdateRevert _ => exact .of_next h (dpdUpdateRevert_clock (Clock.refl s))
  | dpdSetSwitch _ => exact .of_next h (dpdSetSwitch_clock (Clock.refl s))
  | flowBlockArrival _ _ _ _ => exact (Clock.refl s).keeps ((execFlowBlockArrival_only h).weaken (by decide))
  | lgLoopConfig _ => exact (Clock.refl s).keeps ((execLgLoopConfig_only h).weaken (by decide))
  | lgBeaconConfig _ => exact (Clock.refl s).keeps ((execLgBeaconConfig_only h).weaken (by decide))
  | lgCancelConfig _ => exact (Clock.refl s).keeps ((execLgCancelConfig_only h).weaken (by decide))
  | lgCancelControl _ => exact (Clock.refl s).keeps ((execLgCancelControl_only h).weaken (by decide))
  | lgSearchConfig _ => exact (Clock.refl s).keeps ((execLgSearchConfig_only h).weaken (by decide))
  | lgPolicy _ => exact (Clock.refl s).keeps ((execLgPolicy_only h).weaken (by decide))
  | pilotPeriodEnd _ _ => exact .of_next h (pilotPeriodEnd_clock (Clock.refl s))
  | ladderStep _ => exact .of_next h (ladderStep_clock (Clock.refl s))
  | lineDetectorFrame _ _ _ => exact .of_next h (lineDetectorFrame_clock (Clock.refl s))
  | holdoffEnd _ _ => exact .of_next h (holdoffEnd_clock (Clock.refl s))
  | reacquireFitComplete _ => exact (Clock.refl s).keeps ((execReacquireFitComplete_only h).weaken (by decide))
  | cancellerSnapshotRestore _ => exact .of_next h (cancellerSnapshotRestore_clock (Clock.refl s))
  | marginCapReceive _ => exact (Clock.refl s).keeps ((execMarginCapReceive_only h).weaken (by decide))
  | marginCapApply _ => exact .of_next h (marginCapApply_clock (Clock.refl s))
  | marginLowTimeout _ => exact .of_next h (marginLowTimeout_clock (Clock.refl s))
  | beaconLossTimeout _ => exact .of_next h (beaconLossTimeout_clock (Clock.refl s))
  | admitReqReceive _ => exact (Clock.refl s).keeps ((execAdmitReqReceive_only h).weaken (by decide))
  | admitGrantReceive _ => exact (Clock.refl s).keeps ((execAdmitGrantReceive_only h).weaken (by decide))
  | admissionFrame => exact .of_next h (admissionFrame_clock (Clock.refl s))
  | gsSetGain _ => exact (Clock.refl s).keeps ((execGsSetGain_only h).weaken (by decide))
  | gsMute _ => exact (Clock.refl s).keeps ((execGsMute_only h).weaken (by decide))
  | npBackoffSet _ => exact (Clock.refl s).keeps ((execNpBackoffSet_only h).weaken (by decide))
  | npPolicy _ => exact (Clock.refl s).keeps ((execNpPolicy_only h).weaken (by decide))
  | ulGateConfig _ => exact (Clock.refl s).keeps ((execUlGateConfig_only h).weaken (by decide))
  | ulNoiseConfig _ => exact (Clock.refl s).keeps ((execUlNoiseConfig_only h).weaken (by decide))
  | npDonorConfig _ => exact (Clock.refl s).keeps ((execNpDonorConfig_only h).weaken (by decide))
  | npOutputConfig _ => exact (Clock.refl s).keeps ((execNpOutputConfig_only h).weaken (by decide))
  | gainRampEnd _ => exact .of_next h (gainRampEnd_clock (Clock.refl s))
  | noiseWindowFilled _ => exact (Clock.refl s).keeps ((execNoiseWindowFilled_only h).weaken (by decide))
  | ulNoiseRiseTimeout _ => exact .of_next h (ulNoiseRiseTimeout_clock (Clock.refl s))
  | donorLossTimeout _ => exact .of_next h (donorLossTimeout_clock (Clock.refl s))
  | donorRecovery _ => exact .of_next h (donorRecovery_clock (Clock.refl s))
  | donorOverloadDetect _ => exact (Clock.refl s).keeps ((execDonorOverloadDetect_only h).weaken (by decide))
  | clSlotConfig _ => exact (Clock.refl s).keeps ((execClSlotConfig_only h).weaken (by decide))
  | clBankWrite _ => exact (Clock.refl s).keeps ((execClBankWrite_only h).weaken (by decide))
  | clBankSwap _ => exact (Clock.refl s).keeps ((execClBankSwap_only h).weaken (by decide))
  | clSetpoint _ => exact (Clock.refl s).keeps ((execClSetpoint_only h).weaken (by decide))
  | clSlotControl _ => exact (Clock.refl s).keeps ((execClSlotControl_only h).weaken (by decide))
  | clRepConfig _ => exact (Clock.refl s).keeps ((execClRepConfig_only h).weaken (by decide))
  | clInject _ => exact (Clock.refl s).keeps ((execClInject_only h).weaken (by decide))
  | clTraceConfig _ => exact (Clock.refl s).keeps ((execClTraceConfig_only h).weaken (by decide))
  | clTraceRead _ => exact (Clock.refl s).keeps ((execClTraceRead_only h).weaken (by decide))
  | clPolicy _ => exact (Clock.refl s).keeps ((execClPolicy_only h).weaken (by decide))
  | slotIteration _ _ => exact .of_next h (slotIteration_clock (Clock.refl s))
  | iterationOverrun _ => exact .of_next h (iterationOverrun_clock (Clock.refl s))
  | overrunHoldEnd _ => exact (Clock.refl s).keeps ((execOverrunHoldEnd_only h).weaken (by decide))
  | loopSaturatedTimeout _ => exact .of_next h (loopSaturatedTimeout_clock (Clock.refl s))
  | repBinBoundary _ => exact .of_next h (repBinBoundary_clock (Clock.refl s))
  | repTableClear _ => exact .of_next h (repTableClear_clock (Clock.refl s))
  | injectionStart _ => exact .of_next h (injectionStart_clock (Clock.refl s))
  | injectionEnd _ => exact (Clock.refl s).keeps ((execInjectionEnd_only h).weaken (by decide))
  | hvLinkTimeout => exact (Clock.refl s).keeps ((execHvLinkTimeout_only h).weaken (by decide))
  | paConfig _ => exact (Clock.refl s).keeps ((execPaConfig_only h).weaken (by decide))
  | paTiming _ => exact (Clock.refl s).keeps ((execPaTiming_only h).weaken (by decide))
  | paBiasTable _ => exact (Clock.refl s).keeps ((execPaBiasTable_only h).weaken (by decide))
  | cmpConfig _ => exact (Clock.refl s).keeps ((execCmpConfig_only h).weaken (by decide))
  | cmpMode _ => exact (Clock.refl s).keeps ((execCmpMode_only h).weaken (by decide))
  | paEnable _ => exact (Clock.refl s).keeps ((execPaEnable_only h).weaken (by decide))
  | paBiasCal _ => exact (Clock.refl s).keeps ((execPaBiasCal_only h).weaken (by decide))
  | casPolicy _ => exact (Clock.refl s).keeps ((execCasPolicy_only h).weaken (by decide))
  | casIdentityRead _ => exact (Clock.refl s).keeps ((execCasIdentityRead_only h).weaken (by decide))
  | drainRampEnd _ _ => exact .of_next h (drainRampEnd_clock (Clock.refl s))
  | drainingComplete _ _ => exact .of_next h (drainingComplete_clock (Clock.refl s))
  | gateOnEdge _ => exact .of_next h (gateOnEdge_clock (Clock.refl s))
  | gateOffEdge _ => exact .of_next h (gateOffEdge_clock (Clock.refl s))
  | comparatorTrip _ => exact (Clock.refl s).keeps ((execComparatorTrip_only h).weaken (by decide))
  | comparatorTripClear _ => exact (Clock.refl s).keeps ((execComparatorTripClear_only h).weaken (by decide))
  | tOffMinExpiry _ => exact .of_next h (tOffMinExpiry_clock (Clock.refl s))
  | comparatorQualify _ => exact (Clock.refl s).keeps ((execComparatorQualify_only h).weaken (by decide))
  | tripHoldExpiry _ => exact .of_next h (tripHoldExpiry_clock (Clock.refl s))
  | cassetteIdPoll _ _ => exact (Clock.refl s).keeps ((execCassetteIdPoll_only h).weaken (by decide))
  | cassetteIdentify _ _ => exact (Clock.refl s).keeps ((execCassetteIdentify_only h).weaken (by decide))
  | biasCalComplete _ _ => exact (Clock.refl s).keeps ((execBiasCalComplete_only h).weaken (by decide))
  | stressMinute => exact .of_next h (stressMinute_clock (Clock.refl s))
  | lifeRecordWrite => exact .of_next h (lifeRecordWrite_clock (Clock.refl s))
  | hkSlotMap _ => exact (Clock.refl s).keeps ((execHkSlotMap_only h).weaken (by decide))
  | hkUrgent _ => exact (Clock.refl s).keeps ((execHkUrgent_only h).weaken (by decide))
  | hkCalPoint _ => exact (Clock.refl s).keeps ((execHkCalPoint_only h).weaken (by decide))
  | hkTestDac _ => exact (Clock.refl s).keeps ((execHkTestDac_only h).weaken (by decide))
  | hkSupplyWindow _ => exact (Clock.refl s).keeps ((execHkSupplyWindow_only h).weaken (by decide))
  | hkThermalPolicy _ => exact (Clock.refl s).keeps ((execHkThermalPolicy_only h).weaken (by decide))
  | hkSlotEnd _ => exact .of_next h (hkSlotEnd_clock (Clock.refl s))
  | urgentSlotEnd _ => exact .of_next h (urgentSlotEnd_clock (Clock.refl s))
  | hkRoundEnd _ => exact (Clock.refl s).keeps ((execHkRoundEnd_only h).weaken (by decide))
  | calPointComplete _ => exact (Clock.refl s).keeps ((execCalPointComplete_only h).weaken (by decide))
  | channelRecordLatch _ => exact (Clock.refl s).keeps ((execChannelRecordLatch_only h).weaken (by decide))
  | clockMonitorCheck _ => exact (Clock.refl s).keeps ((execClockMonitorCheck_only h).weaken (by decide))
  | flPortConfig _ => exact .of_next h (submit_clock specFlPortConfig_clock (Clock.refl s))
  | flFlockConfig _ => exact .of_next h (submit_clock specFlFlockConfig_clock (Clock.refl s))
  | flJoin _ => exact (Clock.refl s).keeps ((execFlJoin_only h).weaken (by decide))
  | flLeave _ => exact (Clock.refl s).keeps ((execFlLeave_only h).weaken (by decide))
  | flLaneControl _ => exact .of_next h (submit_clock specFlLaneControl_clock (Clock.refl s))
  | flMemberQuery _ => exact (Clock.refl s).keeps ((execFlMemberQuery_only h).weaken (by decide))
  | flExpel _ => exact (Clock.refl s).keeps ((execFlExpel_only h).weaken (by decide))
  | signalDetect _ => exact (Clock.refl s).keeps ((execSignalDetect_only h).weaken (by decide))
  | laneUp _ _ => exact (Clock.refl s).keeps ((execLaneUp_only h).weaken (by decide))
  | laneTrainTimeout _ => exact .of_next h (laneTrainTimeout_clock (Clock.refl s))
  | laneDown _ _ => exact .of_next h (laneDown_clock (Clock.refl s))
  | retrainBackoffExpiry _ => exact .of_next h (retrainBackoffExpiry_clock (Clock.refl s))
  | laneSerWarn _ => exact (Clock.refl s).keeps ((execLaneSerWarn_only h).weaken (by decide))
  | laneQualComplete _ => exact (Clock.refl s).keeps ((execLaneQualComplete_only h).weaken (by decide))
  | laneSet _ _ _ => exact (Clock.refl s).keeps ((execLaneSet_only h).weaken (by decide))
  | laneSetApply _ => exact .of_next h (laneSetApply_clock (Clock.refl s))
  | flitReceive _ _ => exact .of_next h (flitReceive_clock (Clock.refl s))
  | hello _ _ => exact .of_next h (hello_clock (Clock.refl s))
  | ttReq _ _ => exact (Clock.refl s).keeps ((execTtReq_only h).weaken (by decide))
  | ttResp _ _ _ _ _ => exact .of_next h (ttResp_clock (Clock.refl s))
  | joinReq _ _ _ => exact (Clock.refl s).keeps ((execJoinReq_only h).weaken (by decide))
  | joinResp port _ _ => exact (Clock.refl s).keeps ((execJoinResp_only (x0 := port) h).weaken (by decide))
  | leave port _ _ _ _ => exact (Clock.refl s).keeps ((execLeave_only (x0 := port) h).weaken (by decide))
  | leaveAck port _ _ _ _ => exact (Clock.refl s).keeps ((execLeaveAck_only (x0 := port) h).weaken (by decide))
  | status _ _ _ => exact (Clock.refl s).keeps ((execStatus_only h).weaken (by decide))
  | pathDown _ _ => exact .of_next h (pathDown_clock (Clock.refl s))
  | rehome _ _ _ _ _ => exact (Clock.refl s).keeps ((execRehome_only h).weaken (by decide))
  | lost port _ _ _ => exact (Clock.refl s).keeps ((execLost_only (x0 := port) h).weaken (by decide))
  | expel port _ => exact (Clock.refl s).keeps ((execExpel_only (x0 := port) h).weaken (by decide))
  | joinReqSend => exact (Clock.refl s).keeps ((execJoinReqSend_only h).weaken (by decide))
  | joinRespTimeout => exact .of_next h (joinRespTimeout_clock (Clock.refl s))
  | backoffExpiry => exact .of_next h (backoffExpiry_clock (Clock.refl s))
  | joinAdmission => exact .of_next h (joinAdmission_clock (Clock.refl s))
  | memberTimeout _ => exact .of_next h (memberTimeout_clock (Clock.refl s))
  | rehomeWaitExpiry => exact .of_next h (rehomeWaitExpiry_clock (Clock.refl s))
  | idHoldExpiry _ => exact .of_next h (idHoldExpiry_clock (Clock.refl s))
  | leaveFrame => exact .of_next h (leaveFrame_clock (Clock.refl s))
  | dvIntentSet _ => exact (Clock.refl s).keeps ((execDvIntentSet_only h).weaken (by decide))
  | dvIntentClear _ => exact (Clock.refl s).keeps ((execDvIntentClear_only h).weaken (by decide))
  | dvPolicy _ => exact (Clock.refl s).keeps ((execDvPolicy_only h).weaken (by decide))
  | dvReplace _ => exact (Clock.refl s).keeps ((execDvReplace_only h).weaken (by decide))
  | dvFlowQuery _ => exact (Clock.refl s).keeps ((execDvFlowQuery_only h).weaken (by decide))
  | dvFlowControl _ => exact (Clock.refl s).keeps ((execDvFlowControl_only h).weaken (by decide))
  | placementCompute => exact .of_next h (placementCompute_clock (Clock.refl s))
  | plan port _ _ _ _ _ _ => exact (Clock.refl s).keeps ((execPlan_only (x0 := port) h).weaken (by decide))
  | planAck port _ _ _ => exact (Clock.refl s).keeps ((execPlanAck_only (x0 := port) h).weaken (by decide))
  | planCancel port _ _ => exact (Clock.refl s).keeps ((execPlanCancel_only (x0 := port) h).weaken (by decide))
  | planAckTimeout => exact .of_next h (planAckTimeout_clock (Clock.refl s))
  | bindStatus port _ _ => exact (Clock.refl s).keeps ((execBindStatus_only (x0 := port) h).weaken (by decide))
  | flowReport port _ _ => exact (Clock.refl s).keeps ((execFlowReport_only (x0 := port) h).weaken (by decide))
  | descriptorLoad => exact .of_next h (descriptorLoad_clock (Clock.refl s))
  | planApply => exact .of_next h (planApply_clock (Clock.refl s))
  | planDrainEnd => exact .of_next h (planDrainEnd_clock (Clock.refl s))
  | targetDelayApply => exact .of_next h (targetDelayApply_clock (Clock.refl s))
  | sumDeadline _ _ _ => exact .of_next h (sumDeadline_clock (Clock.refl s))
  | consumeDeadline _ _ => exact .of_next h (consumeDeadline_clock (Clock.refl s))
  | flowQualComplete _ => exact (Clock.refl s).keeps ((execFlowQualComplete_only h).weaken (by decide))
  | capArm _ => exact (Clock.refl s).keeps ((execCapArm_only h).weaken (by decide))
  | capTrigger _ => exact (Clock.refl s).keeps ((execCapTrigger_only h).weaken (by decide))
  | capControl _ => exact (Clock.refl s).keeps ((execCapControl_only h).weaken (by decide))
  | arConfig _ => exact (Clock.refl s).keeps ((execArConfig_only h).weaken (by decide))
  | arControl _ => exact (Clock.refl s).keeps ((execArControl_only h).weaken (by decide))
  | arRestore _ => exact (Clock.refl s).keeps ((execArRestore_only h).weaken (by decide))
  | memRetireClear _ => exact (Clock.refl s).keeps ((execMemRetireClear_only h).weaken (by decide))
  | captureAtInstant _ => exact .of_next h (captureAtInstant_clock (Clock.refl s))
  | captureStop _ => exact .of_next h (captureStop_clock (Clock.refl s))
  | drainComplete => exact .of_next h (drainComplete_clock (Clock.refl s))
  | restoreComplete _ => exact (Clock.refl s).keeps ((execRestoreComplete_only h).weaken (by decide))
  | archiveFault _ => exact (Clock.refl s).keeps ((execArchiveFault_only h).weaken (by decide))
  | patrolScrub _ => exact (Clock.refl s).keeps ((execPatrolScrub_only h).weaken (by decide))
  | hbmUncorrectable _ _ _ _ => exact (Clock.refl s).keeps ((execHbmUncorrectable_only h).weaken (by decide))
  | extentRemap => exact .of_next h (extentRemap_clock (Clock.refl s))
  | stackPowerDown => exact .of_next h (stackPowerDown_clock (Clock.refl s))
  | bellConfig _ => exact (Clock.refl s).keeps ((execBellConfig_only h).weaken (by decide))
  | bellEnable _ => exact (Clock.refl s).keeps ((execBellEnable_only h).weaken (by decide))
  | keeperKey _ => exact (Clock.refl s).keeps ((execKeeperKey_only h).weaken (by decide))
  | bellChainConfig _ => exact (Clock.refl s).keeps ((execBellChainConfig_only h).weaken (by decide))
  | syncDetect _ => exact (Clock.refl s).keeps ((execSyncDetect_only h).weaken (by decide))
  | headerComplete _ _ => exact .of_next h (headerComplete_clock (Clock.refl s))
  | clipCollision _ => exact (Clock.refl s).keeps ((execClipCollision_only h).weaken (by decide))
  | payloadComplete _ => exact .of_next h (payloadComplete_clock (Clock.refl s))
  | keeperRequest => exact .of_next h (keeperRequest_clock (Clock.refl s))
  | chainPacketReceive => exact (Clock.refl s).keeps ((execChainPacketReceive_only h).weaken (by decide))
  | bellTxStart _ => exact (Clock.refl s).keeps ((execBellTxStart_only h).weaken (by decide))
  | bellTxEnd _ => exact .of_next h (bellTxEnd_clock (Clock.refl s))
  | ccaRetry _ => exact .of_next h (ccaRetry_clock (Clock.refl s))
  | keeperResponseDue => exact .of_next h (keeperResponseDue_clock (Clock.refl s))
  | keeperResponseExpiry => exact .of_next h (keeperResponseExpiry_clock (Clock.refl s))
  | bellTxWatchdog => exact .of_next h (bellTxWatchdog_clock (Clock.refl s))
  | synBellCalStart => exact (Clock.refl s).keeps ((execSynBellCalStart_only h).weaken (by decide))
  | synBellLock _ => exact (Clock.refl s).keeps ((execSynBellLock_only h).weaken (by decide))
  | bellTxResume => exact .of_next h (bellTxResume_clock (Clock.refl s))
  | chainHelloTimer => exact .of_next h (chainHelloTimer_clock (Clock.refl s))
  | neighbourExpiry _ => exact .of_next h (neighbourExpiry_clock (Clock.refl s))
  | chainStatusTimer => exact .of_next h (chainStatusTimer_clock (Clock.refl s))
  | chainAckTimeout => exact .of_next h (chainAckTimeout_clock (Clock.refl s))
  | keeperLockoutExpiry _ => exact .of_next h (keeperLockoutExpiry_clock (Clock.refl s))
  | faultClassConfig _ => exact (Clock.refl s).keeps ((execFaultClassConfig_only h).weaken (by decide))
  | faultPolicy _ => exact (Clock.refl s).keeps ((execFaultPolicy_only h).weaken (by decide))
  | faultAck _ => exact (Clock.refl s).keeps ((execFaultAck_only h).weaken (by decide))
  | faultUnitPen _ => exact .of_next h (submit_clock specFaultUnitPen_clock (Clock.refl s))
  | faultUnitRelease _ => exact (Clock.refl s).keeps ((execFaultUnitRelease_only h).weaken (by decide))
  | faultHaltRelease _ => exact (Clock.refl s).keeps ((execFaultHaltRelease_only h).weaken (by decide))
  | faultFfClear _ => exact (Clock.refl s).keeps ((execFaultFfClear_only h).weaken (by decide))
  | faultInject _ => exact (Clock.refl s).keeps ((execFaultInject_only h).weaken (by decide))
  | faultTableRead _ => exact (Clock.refl s).keeps ((execFaultTableRead_only h).weaken (by decide))
  | collectorCycle => exact .of_next h (collectorCycle_clock (Clock.refl s))
  | reactionStart => exact .of_next h (reactionStart_clock (Clock.refl s))
  | reactionComplete => exact (Clock.refl s).keeps ((execReactionComplete_only h).weaken (by decide))
  | consequenceWindowClose => exact .of_next h (consequenceWindowClose_clock (Clock.refl s))
  | haltReleaseFrame => exact .of_next h (haltReleaseFrame_clock (Clock.refl s))
  | logMode _ => exact (Clock.refl s).keeps ((execLogMode_only h).weaken (by decide))
  | logRead _ => exact (Clock.refl s).keeps ((execLogRead_only h).weaken (by decide))
  | logClear _ => exact (Clock.refl s).keeps ((execLogClear_only h).weaken (by decide))
  | logMediaReset _ => exact (Clock.refl s).keeps ((execLogMediaReset_only h).weaken (by decide))
  | logWrite _ => exact (Clock.refl s).keeps ((execLogWrite_only h).weaken (by decide))
  | logVerify _ => exact (Clock.refl s).keeps ((execLogVerify_only h).weaken (by decide))
  | recordCommit => exact (Clock.refl s).keeps ((execRecordCommit_only h).weaken (by decide))
  | logClearComplete _ => exact (Clock.refl s).keeps ((execLogClearComplete_only h).weaken (by decide))
  | logBankScrub _ _ _ => exact (Clock.refl s).keeps ((execLogBankScrub_only h).weaken (by decide))
  | mirrorWrite _ _ => exact .of_next h (mirrorWrite_clock (Clock.refl s))
  | doorbellWrite _ _ => exact (Clock.refl s).keeps ((execDoorbellWrite_only h).weaken (by decide))
  | commandStart => exact .of_next h (commandStart_clock (Clock.refl s))
  | irqStatusWrite _ => exact (Clock.refl s).keeps ((execIrqStatusWrite_only h).weaken (by decide))
  | irqEnableWrite _ => exact (Clock.refl s).keeps ((execIrqEnableWrite_only h).weaken (by decide))
  | irqNEnableWrite _ => exact (Clock.refl s).keeps ((execIrqNEnableWrite_only h).weaken (by decide))
  | doorbellOverrunWrite _ => exact (Clock.refl s).keeps ((execDoorbellOverrunWrite_only h).weaken (by decide))
  | evtAckWrite _ => exact (Clock.refl s).keeps ((execEvtAckWrite_only h).weaken (by decide))
  | eventHoldoffExpiry => exact .of_next h (eventHoldoffExpiry_clock (Clock.refl s))
  | siteEdgeWrite _ => exact (Clock.refl s).keeps ((execSiteEdgeWrite_only h).weaken (by decide))
  | logCursorWrite _ => exact (Clock.refl s).keeps ((execLogCursorWrite_only h).weaken (by decide))
  | capWinWrite _ _ => exact (Clock.refl s).keeps ((execCapWinWrite_only h).weaken (by decide))
  | registerWrite _ _ _ _ => exact (Clock.refl s).keeps ((execRegisterWrite_only h).weaken (by decide))
  | lowHalfRead _ _ => exact (Clock.refl s).keeps ((execLowHalfRead_only h).weaken (by decide))
  | pcieReset _ => exact (Clock.refl s).keeps ((execPcieReset_only h).weaken (by decide))
  | ethRequest _ => exact (Clock.refl s).keeps ((execEthRequest_only h).weaken (by decide))
  | ethRead _ => exact (Clock.refl s).keeps ((execEthRead_only h).weaken (by decide))
  | spiTransfer _ _ _ _ => exact (Clock.refl s).keeps ((execSpiTransfer_only h).weaken (by decide))
  | i2cTransfer _ _ => exact (Clock.refl s).keeps ((execI2cTransfer_only h).weaken (by decide))
  | nonceExpiry _ => exact .of_next h (nonceExpiry_clock (Clock.refl s))
  | sessionIdleExpiry _ => exact .of_next h (sessionIdleExpiry_clock (Clock.refl s))
  | hostLockoutExpiry _ => exact .of_next h (hostLockoutExpiry_clock (Clock.refl s))
  | siteSample _ => exact .of_next h (siteSample_clock (Clock.refl s))
  | sysNop _ => exact (Clock.refl s).keeps ((execSysNop_only h).weaken (by decide))
  | sysSessionOpen _ => exact (Clock.refl s).keeps ((execSysSessionOpen_only h).weaken (by decide))
  | sysSessionClose _ => exact (Clock.refl s).keeps ((execSysSessionClose_only h).weaken (by decide))
  | sysHostConfig _ => exact (Clock.refl s).keeps ((execSysHostConfig_only h).weaken (by decide))
  | sysNetConfig _ => exact (Clock.refl s).keeps ((execSysNetConfig_only h).weaken (by decide))
  | sysSiteConfig _ => exact (Clock.refl s).keeps ((execSysSiteConfig_only h).weaken (by decide))
  | pwrStateSet _ => exact (Clock.refl s).keeps ((execPwrStateSet_only h).weaken (by decide))
  | pwrWakeConfig _ => exact (Clock.refl s).keeps ((execPwrWakeConfig_only h).weaken (by decide))
  | pwrLimitSet _ => exact (Clock.refl s).keeps ((execPwrLimitSet_only h).weaken (by decide))
  | pwrReset _ => exact (Clock.refl s).keeps ((execPwrReset_only h).weaken (by decide))
  | lcProvision _ => exact (Clock.refl s).keeps ((execLcProvision_only h).weaken (by decide))
  | lcAdvance _ => exact (Clock.refl s).keeps ((execLcAdvance_only h).weaken (by decide))
  | lcRoleSet _ => exact (Clock.refl s).keeps ((execLcRoleSet_only h).weaken (by decide))
  | keyInstall _ => exact (Clock.refl s).keeps ((execKeyInstall_only h).weaken (by decide))
  | dbgPolicy _ => exact (Clock.refl s).keeps ((execDbgPolicy_only h).weaken (by decide))
  | fwWrite _ => exact (Clock.refl s).keeps ((execFwWrite_only h).weaken (by decide))
  | fwControl _ => exact (Clock.refl s).keeps ((execFwControl_only h).weaken (by decide))
  | keysZeroised => exact (Clock.refl s).keeps ((execKeysZeroised_only h).weaken (by decide))
  | debugAuthRequest _ => exact (Clock.refl s).keeps ((execDebugAuthRequest_only h).weaken (by decide))
  | debugOpenRequest _ => exact (Clock.refl s).keeps ((execDebugOpenRequest_only h).weaken (by decide))
  | debugSessionClose _ => exact .of_next h (debugSessionClose_clock (Clock.refl s))
  | debugLockoutExpiry => exact .of_next h (debugLockoutExpiry_clock (Clock.refl s))
  | securityViolation _ => exact (Clock.refl s).keeps ((execSecurityViolation_only h).weaken (by decide))
  | pairConfig _ => exact (Clock.refl s).keeps ((execPairConfig_only h).weaken (by decide))
  | pairSwitchover _ => exact (Clock.refl s).keeps ((execPairSwitchover_only h).weaken (by decide))
  | pairTailRead _ => exact (Clock.refl s).keeps ((execPairTailRead_only h).weaken (by decide))
  | pairHb _ _ => exact .of_next h (pairHb_clock (Clock.refl s))
  | pairHbMissed _ => exact .of_next h (pairHbMissed_clock (Clock.refl s))
  | pairSync _ _ => exact .of_next h (pairSync_clock (Clock.refl s))
  | mirrorPeriodicSync => exact .of_next h (mirrorPeriodicSync_clock (Clock.refl s))
  | pairWaitTimeout => exact .of_next h (pairWaitTimeout_clock (Clock.refl s))
  | bulkSyncTimeout => exact .of_next h (bulkSyncTimeout_clock (Clock.refl s))
  | pairLinkRecovery => exact .of_next h (pairLinkRecovery_clock (Clock.refl s))
  | pairTakeover => exact .of_next h (pairTakeover_clock (Clock.refl s))
  | pairDemote => exact .of_next h (pairDemote_clock (Clock.refl s))
  | portTrainingStart => exact .of_next h (portTrainingStart_clock (Clock.refl s))
  | refInLoss _ => exact .of_next h (refInLoss_clock (Clock.refl s))
  | stackPowerUpComplete => exact (Clock.refl s).keeps ((execStackPowerUpComplete_only h).weaken (by decide))
  | hbmCorrectedError _ => exact (Clock.refl s).keeps ((execHbmCorrectedError_only h).weaken (by decide))
  | arControlComplete _ => exact (Clock.refl s).keeps ((execArControlComplete_only h).weaken (by decide))
  | logMediaResetComplete _ _ => exact (Clock.refl s).keeps ((execLogMediaResetComplete_only h).weaken (by decide))
  | logVerifyComplete => exact (Clock.refl s).keeps ((execLogVerifyComplete_only h).weaken (by decide))
  | fwVerifyComplete _ => exact (Clock.refl s).keeps ((execFwVerifyComplete_only h).weaken (by decide))
  | paEnableQualTimeout _ => exact .of_next h (paEnableQualTimeout_clock (Clock.refl s))
  | i2cHeartbeatTick => exact .of_next h (i2cHeartbeatTick_clock (Clock.refl s))

theorem exec_powerOnReset_inRange {role : BitVec 2} {boot : BootPins} {s t : State}
    (h : exec (.powerOnReset role boot) s = .next t) : t.air.inRange := by
  cases h
  exact powerOnReset_inRange _ _ _ s

theorem idle_clock (s : State) : Clock s (idle s) := Clock.ite (Clock.refl s) (advance_clock (Clock.refl s))

/-- Settles O7: the clock of every step but a power-on reset comes after the clock before. -/
theorem monotonicTimeNeverDecreases : Obligations.MonotonicTimeNeverDecreases := by
  unfold Obligations.MonotonicTimeNeverDecreases
  intro s t hfront h
  cases hq : s.pending with
  | nil =>
    rw [step_of_pending_nil hq] at h
    cases h
    exact (idle_clock s).2
  | cons c rest =>
    rw [step_of_pending_cons hq] at h
    exact (exec_clock (fun role boot hc => hfront role boot rest (hc ▸ hq)) h).2

/-- Settles O5: a power-on reset starts the count at 0, and every other row moves the clock on. -/
theorem airTimeStaysInRange : Obligations.AirTimeStaysInRange := by
  unfold Obligations.AirTimeStaysInRange
  intro s t hs h
  cases hq : s.pending with
  | nil =>
    rw [step_of_pending_nil hq] at h
    cases h
    exact (idle_clock s).1 hs
  | cons c rest =>
    rw [step_of_pending_cons hq] at h
    by_cases hreset : ∃ role boot, c = .powerOnReset role boot
    · obtain ⟨role, boot, rfl⟩ := hreset
      exact exec_powerOnReset_inRange h
    · exact (exec_clock (fun role boot hc => hreset ⟨role, boot, hc⟩) h).1 hs

end Sys2Proof.Machine
end

section
set_option Elab.async false
/-! Which responses are discarded (R414): no operation of a command marks a mailbox's response to be discarded.
`KeepsResponses s t` says so of `t` after `s`; it composes, so that each operation on the host part has one lemma, which takes
the lemma of the state it is applied to, and an operation that leaves the host part alone needs its frame only. -/

namespace Sys2Proof.Machine

open Sys2Proof

/-- A mailbox whose response is not to be discarded in `s` is none in `t`. -/
def KeepsResponses (s t : State) : Prop := ∀ n, (s.mbx n).discard = false → (t.mbx n).discard = false

theorem KeepsResponses.refl (s : State) : KeepsResponses s s := fun _ => id

theorem KeepsResponses.trans {s t u : State} (h : KeepsResponses s t) (k : KeepsResponses t u) : KeepsResponses s u :=
  fun n => k n ∘ h n

theorem KeepsResponses.of_mailboxes_eq {s t : State} (h : t.host.mailboxes = s.host.mailboxes) : KeepsResponses s t := by
  intro n hn
  rwa [State.mbx, h]

/-- What leaves the host part alone discards no response. -/
theorem KeepsResponses.keeps {s t u : State} (h : KeepsResponses s t) (k : Only 1048573 t u) : KeepsResponses s u :=
  h.trans (.of_mailboxes_eq (by rw [k .host rfl]))

/-- A change of the host part that leaves its mailboxes alone. -/
theorem KeepsResponses.modHost {s0 s : State} {f : HostState → HostState} (h : KeepsResponses s0 s)
    (k : ∀ a, (f a).mailboxes = a.mailboxes := by intro; rfl) : KeepsResponses s0 (s.modHost f) :=
  h.trans (.of_mailboxes_eq (k _))

theorem KeepsResponses.ite {s t u : State} {c : Prop} {d : Decidable c} (h : KeepsResponses s t) (k : KeepsResponses s u) :
    KeepsResponses s (if c then t else u) := by
  split
  · exact h
  · exact k

theorem KeepsResponses.ite1 {β : Type} {s : State} {t u : State × β} {c : Prop} {d : Decidable c} (h : KeepsResponses s t.1)
    (k : KeepsResponses s u.1) : KeepsResponses s (if c then t else u).1 := by
  split
  · exact h
  · exact k

theorem KeepsResponses.foldl {α : Type} {s u : State} {g : State → α → State} {l : List α} (h : KeepsResponses s u)
    (k : ∀ a x, KeepsResponses s a → KeepsResponses s (g a x)) : KeepsResponses s (l.foldl g u) := by
  induction l generalizing u with
  | nil => exact h
  | cons x xs ih => exact ih (k _ _ h)

theorem postEvent_keepsResponses {s0 : State} {x0 : Event} {s : State} (h : KeepsResponses s0 s) :
    KeepsResponses s0 (postEvent x0 s) :=
  h.trans (.of_mailboxes_eq (postEvent_mailboxes x0 s))

theorem postNotice_keepsResponses {s0 : State} {x0 : Nat} {x1 : Nat} {x2 : Nat} {s : State}
    (h : KeepsResponses s0 s) : KeepsResponses s0 (postNotice x0 x1 x2 s) := by
  unfold postNotice
  exact postEvent_keepsResponses h

theorem complete_keepsResponses {s0 : State} {x0 : Ticket} {x1 : Status} {x2 : Nat} {s : State}
    (h : KeepsResponses s0 s) : KeepsResponses s0 (complete x0 x1 x2 s) :=
  h.trans (.of_mailboxes_eq (complete_mailboxes x0 x1 x2 s))

theorem completeOpt_keepsResponses {s0 : State} {x0 : Option Ticket} {x1 : Status} {x2 : Nat} {s : State}
    (h : KeepsResponses s0 s) : KeepsResponses s0 (completeOpt x0 x1 x2 s) := by
  unfold completeOpt
  split
  · exact complete_keepsResponses h
  · exact h

/-- The mailbox that takes a response is not one whose response is to be discarded, before or after. -/
theorem writeResponse_keepsResponses {s0 : State} {x0 : Nat} {x1 : Req} {x2 : Status} {x3 : Nat} {x4 : List Byte} {s : State}
    (h : KeepsResponses s0 s) : KeepsResponses s0 (writeResponse x0 x1 x2 x3 x4 s) := by
  refine h.trans fun n hn => ?_
  by_cases hx : n = x0
  · subst hx
    have hn' : (s.host.mailboxes.get n).discard = false := hn
    simp only [writeResponse, hn', Bool.false_eq_true, if_false, State.mbx]
    split <;> simp only [complete_mailboxes, modHost_host, setIrqBits_mailboxes, apply_ite HostState.mailboxes, ite_self,
      get_set_same]
  · have hsame : (writeResponse x0 x1 x2 x3 x4 s).mbx n = s.mbx n := by
      simp only [writeResponse, State.mbx]
      split
      · simp only [modHost_host, get_set_other _ _ hx]
      · split <;> simp only [complete_mailboxes, modHost_host, setIrqBits_mailboxes, apply_ite HostState.mailboxes, ite_self,
          get_set_other _ _ hx]
    rw [hsame]
    exact hn

theorem finishKeeper_keepsResponses {s0 : State} {x0 : Ticket} {x1 : Status} {x2 : Nat} {x3 : List Byte} {s : State}
    (h : KeepsResponses s0 s) : KeepsResponses s0 (finishKeeper x0 x1 x2 x3 s) := by
  unfold finishKeeper
  split
  · exact complete_keepsResponses h
  · exact h.keeps (State_modBell_only (Only.refl _ _) rfl)

theorem finishDeferred_keepsResponses {s0 : State} {x0 : Ticket} {x1 : Status} {x2 : Nat} {x3 : List Byte} {s : State}
    (h : KeepsResponses s0 s) : KeepsResponses s0 (finishDeferred x0 x1 x2 x3 s) := by
  unfold finishDeferred
  refine KeepsResponses.ite (complete_keepsResponses h) (KeepsResponses.ite (finishKeeper_keepsResponses h) ?_)
  split
  · exact writeResponse_keepsResponses h
  · exact h

theorem commitOne_keepsResponses {s0 : State} {s : State} {x1 : Submission} (h : KeepsResponses s0 s) : KeepsResponses s0 (commitOne s x1) := by
  unfold commitOne
  dsimp only
  split
  · exact finishDeferred_keepsResponses (h.keeps (writeSubmission_only (Only.refl _ _) rfl))
  · exact h.keeps (writeSubmission_only (Only.refl _ _) rfl)

theorem drainSubmissions_keepsResponses {s0 : State} {s : State} (h : KeepsResponses s0 s) : KeepsResponses s0 (drainSubmissions s) := by
  unfold drainSubmissions
  exact KeepsResponses.ite h (KeepsResponses.foldl (h.keeps (State_modLog_only (Only.refl _ _) rfl)) (fun _ _ h0 => (commitOne_keepsResponses h0)))

theorem writeNow_keepsResponses {s0 : State} {x0 : Nat} {x1 : Nat} {x2 : Nat} {x3 : Nat} {x4 : List Nat} {s : State}
    (h : KeepsResponses s0 s) : KeepsResponses s0 (writeNow x0 x1 x2 x3 x4 s).1 := by
  unfold writeNow
  exact KeepsResponses.keeps (drainSubmissions_keepsResponses h) (writeSubmission_only (Only.refl _ _) rfl)

theorem powerDown_keepsResponses {s0 : State} {x0 : Nat} {s : State} (h : KeepsResponses s0 s) : KeepsResponses s0 (powerDown x0 s) := by
  unfold powerDown
  exact KeepsResponses.keeps (KeepsResponses.ite (KeepsResponses.keeps (completeOpt_keepsResponses (KeepsResponses.foldl (h.keeps (State_modRf_only
    (Only.refl _ _) rfl)) (fun _ _ h0 => (complete_keepsResponses h0)))) (chainStops_only (Only.refl _ _) rfl)) (KeepsResponses.keeps
    (completeOpt_keepsResponses (KeepsResponses.foldl (h.keeps (State_modRf_only (Only.refl _ _) rfl)) (fun _ _ h0 => (complete_keepsResponses h0))))
    (refreshGains_only (Only.refl _ _) rfl))) (endFault_only (Only.refl _ _) rfl)

theorem dropHeld_keepsResponses {s0 : State} {x0 : Nat} {x1 : Status} {s : State}
    (h : KeepsResponses s0 s) : KeepsResponses s0 (dropHeld x0 x1 s) := by
  unfold dropHeld
  refine KeepsResponses.foldl ?_ (fun _ _ h0 => (complete_keepsResponses h0))
  split
  · exact complete_keepsResponses (h.keeps (modChain_only (Only.refl _ _) rfl))
  · exact complete_keepsResponses (h.keeps (modChain_only (Only.refl _ _) rfl))
  · exact h.keeps (modChain_only (Only.refl _ _) rfl)

theorem cancelHeld_keepsResponses {s0 : State} {x0 : Nat} {s : State} (h : KeepsResponses s0 s) : KeepsResponses s0 (cancelHeld x0 s) := by
  unfold cancelHeld
  exact dropHeld_keepsResponses h

theorem finishOff_keepsResponses {s0 : State} {x0 : Nat} {s : State} (h : KeepsResponses s0 s) : KeepsResponses s0 (finishOff x0 s) := by
  unfold finishOff
  exact KeepsResponses.ite (powerDown_keepsResponses h) h

theorem startConfig_keepsResponses {s0 : State} {x0 : Nat} {x1 : RfWindow} {x2 : Nat} {x3 : Ticket} {s : State}
    (h : KeepsResponses s0 s) : KeepsResponses s0 (startConfig x0 x1 x2 x3 s) := by
  unfold startConfig
  exact KeepsResponses.ite (complete_keepsResponses (h.keeps (modChain_only (Only.ite (requestAtten_only (Only.refl _ _) rfl)
    (Only.refl _ _)) rfl))) (h.keeps (beginOp_only (bandsRetuned_only (modChain_only (Only.ite (requestAtten_only
    (Only.refl _ _) rfl) (Only.refl _ _)) rfl) rfl) rfl))

theorem disableTx_keepsResponses {s0 : State} {x0 : Nat} {s : State} (h : KeepsResponses s0 s) : KeepsResponses s0 (disableTx x0 s) := by
  unfold disableTx
  exact KeepsResponses.keeps (cancelHeld_keepsResponses h) (Only.ite (Only.ite (modChain_only (refreshGains_only (modChain_only
    (Only.refl _ _) rfl) rfl) rfl) (refreshGains_only (modChain_only (Only.refl _ _) rfl) rfl)) (Only.ite (Only.refl _ _)
    (modChain_only (Only.refl _ _) rfl)))

theorem finishMove_keepsResponses {s0 : State} {s : State} (h : KeepsResponses s0 s) : KeepsResponses s0 (finishMove s) := by
  unfold finishMove
  split
  · exact completeOpt_keepsResponses (KeepsResponses.keeps (postNotice_keepsResponses (h.keeps (State_modSys_only (Only.refl _ _) rfl)))
      (submitLog_only (Only.refl _ _) rfl))
  · exact h

theorem reviewMove_keepsResponses {s0 : State} {s : State} (h : KeepsResponses s0 s) : KeepsResponses s0 (reviewMove s) := by
  unfold reviewMove
  split
  · exact KeepsResponses.ite (finishMove_keepsResponses h) h
  · exact h

theorem endInjection_keepsResponses {s0 : State} {x0 : Nat} {s : State} (h : KeepsResponses s0 s) : KeepsResponses s0 (endInjection x0 s) := by
  unfold endInjection
  split
  · exact complete_keepsResponses (h.keeps (State_modCl_only (causeTraces_only (modSlot_only (Only.refl _ _) rfl) rfl) rfl))
  · exact h

theorem releaseSlot_keepsResponses {s0 : State} {x0 : Nat} {s : State} (h : KeepsResponses s0 s) : KeepsResponses s0 (releaseSlot x0 s) := by
  unfold releaseSlot
  exact KeepsResponses.keeps (endInjection_keepsResponses (h.keeps (stopInjection_only (Only.refl _ _) rfl))) (endFault_only (endFault_only
    (modSlot_only (Only.refl _ _) rfl) rfl) rfl)

theorem slotConfig_keepsResponses {s0 : State} {x0 : List Byte} {s : State} (h : KeepsResponses s0 s) : KeepsResponses s0 (slotConfig x0 s) := by
  unfold slotConfig
  dsimp only
  split
  · exact releaseSlot_keepsResponses h
  · exact h.keeps (Only.ite (enableSlot_only (Only.ite (modBand_only (modSlot_only (Only.refl _ _) rfl) rfl) (modSlot_only
      (Only.refl _ _) rfl)) rfl) (Only.ite (modSlot_only (Only.ite (modBand_only (modSlot_only (Only.refl _ _) rfl) rfl)
      (modSlot_only (Only.refl _ _) rfl)) rfl) (Only.ite (modBand_only (modSlot_only (Only.refl _ _) rfl) rfl)
      (modSlot_only (Only.refl _ _) rfl))))

theorem completeEnable_keepsResponses {s0 : State} {x0 : Option (List Ticket × Nat)} {x1 : Status} {s : State}
    (h : KeepsResponses s0 s) : KeepsResponses s0 (completeEnable x0 x1 s) := by
  unfold completeEnable
  split
  · exact KeepsResponses.foldl h (fun _ _ h0 => (complete_keepsResponses h0))
  · exact h

theorem startDraining_keepsResponses {s0 : State} {x0 : Nat} {x1 : Bool} {s : State}
    (h : KeepsResponses s0 s) : KeepsResponses s0 (startDraining x0 x1 s) := by
  unfold startDraining
  refine KeepsResponses.ite ?_ h
  dsimp only
  split
  · exact complete_keepsResponses (completeEnable_keepsResponses (h.keeps (modCas_only (Only.refl _ _) rfl)))
  · exact completeEnable_keepsResponses (h.keeps (modCas_only (Only.refl _ _) rfl))

theorem abortEnable_keepsResponses {s0 : State} {x0 : Nat} {s : State} (h : KeepsResponses s0 s) : KeepsResponses s0 (abortEnable x0 s) := by
  unfold abortEnable
  exact KeepsResponses.ite (completeEnable_keepsResponses (h.keeps (modCas_only (Only.refl _ _) rfl))) h

theorem shutCassette_keepsResponses {s0 : State} {x0 : Nat} {s : State} (h : KeepsResponses s0 s) : KeepsResponses s0 (shutCassette x0 s) := by
  unfold shutCassette
  exact startDraining_keepsResponses (abortEnable_keepsResponses h)

theorem paEnableOne_keepsResponses {s0 : State} {x0 : Nat} {x1 : Ticket} {s : State} {x3 : Nat}
    (h : KeepsResponses s0 s) : KeepsResponses s0 (paEnableOne x0 x1 s x3) := by
  unfold paEnableOne
  refine KeepsResponses.ite ?_ ?_
  · split
    · exact complete_keepsResponses h
    · exact h.keeps (modCas_only (Only.refl _ _) rfl)
    · exact h.keeps (tryDrainUp_only (modCas_only (Only.refl _ _) rfl) rfl)
  · dsimp only
    split
    · exact complete_keepsResponses (abortEnable_keepsResponses h)
    · exact KeepsResponses.keeps (completeOpt_keepsResponses (abortEnable_keepsResponses h)) (modCas_only (Only.refl _ _) rfl)
    · exact KeepsResponses.keeps (startDraining_keepsResponses (abortEnable_keepsResponses h)) (modCas_only (Only.refl _ _) rfl)

theorem bellOff_keepsResponses {s0 : State} {s : State} (h : KeepsResponses s0 s) : KeepsResponses s0 (bellOff s) := by
  unfold bellOff
  dsimp only
  split
  · exact finishDeferred_keepsResponses (KeepsResponses.keeps (KeepsResponses.foldl (KeepsResponses.foldl h (fun _ _ h0 => (complete_keepsResponses h0)))
      (fun _ _ h0 => (complete_keepsResponses h0))) (State_modBell_only (State_modRf_only (Only.refl _ _) rfl) rfl))
  · exact KeepsResponses.keeps (KeepsResponses.foldl (KeepsResponses.foldl h (fun _ _ h0 => (complete_keepsResponses h0))) (fun _ _ h0 =>
      (complete_keepsResponses h0))) (State_modBell_only (State_modRf_only (Only.refl _ _) rfl) rfl)

theorem pumpDrain_keepsResponses {s0 : State} {s : State} (h : KeepsResponses s0 s) : KeepsResponses s0 (pumpDrain s) := by
  unfold pumpDrain
  refine KeepsResponses.ite h ?_
  split
  · exact h.keeps (State_modMem_only (Only.refl _ _) rfl)
  · exact KeepsResponses.ite (h.keeps (modCap_only (State_modMem_only (Only.ite (overwriteFor_only (Only.refl _ _) rfl)
      (Only.refl _ _)) rfl) rfl)) (KeepsResponses.ite (h.keeps (Only.ite (overwriteFor_only (Only.refl _ _) rfl) (Only.refl _ _)))
      (postNotice_keepsResponses (h.keeps (State_modMem_only (Only.ite (overwriteFor_only (Only.refl _ _) rfl)
      (Only.refl _ _)) rfl))))

theorem stopCapture_keepsResponses {s0 : State} {x0 : Nat} {x1 : Bool} {s : State}
    (h : KeepsResponses s0 s) : KeepsResponses s0 (stopCapture x0 x1 s) := by
  unfold stopCapture
  exact pumpDrain_keepsResponses (h.keeps (modCap_only (draw_only (Only.refl _ _) rfl) rfl))

theorem issueNonce_keepsResponses {s0 : State} {x0 : Nat} {s : State} (h : KeepsResponses s0 s) : KeepsResponses s0 (issueNonce x0 s) := by
  unfold issueNonce
  exact KeepsResponses.modHost (h.keeps (draw_only (Only.refl _ _) rfl))

theorem resetHousekeeping_keepsResponses {s0 : State} {s : State} (h : KeepsResponses s0 s) :
    KeepsResponses s0 (resetHousekeeping s) := by
  unfold resetHousekeeping
  extract_lets _ _ s1 s2
  have h1 : KeepsResponses s0 s1 := h.trans (.of_mailboxes_eq rfl)
  have h2 : KeepsResponses s0 s2 := by
    unfold s2
    split
    · exact complete_keepsResponses h1
    · exact h1
  split
  · exact finishDeferred_keepsResponses h2
  · exact h2

theorem unitResetEffect_keepsResponses {s0 : State} {x0 : Nat} {s : State} (h : KeepsResponses s0 s) : KeepsResponses s0 (unitResetEffect x0 s) := by
  unfold unitResetEffect
  split
  · exact h.keeps (refreshGains_only (resetLoopGuard_only (Only.refl _ _) rfl) rfl)
  · exact h.keeps (resetEngine_only (Only.refl _ _) rfl)
  · exact KeepsResponses.keeps (KeepsResponses.foldl h (fun _ _ h0 => (shutCassette_keepsResponses h0))) (refreshGains_only (resetPowerStage_only
      (Only.refl _ _) rfl) rfl)
  · exact resetHousekeeping_keepsResponses h
  · exact bellOff_keepsResponses h

theorem startUnitReset_keepsResponses {s0 : State} {x0 : Nat} {x1 : Ticket} {s : State}
    (h : KeepsResponses s0 s) : KeepsResponses s0 (startUnitReset x0 x1 s) := by
  unfold startUnitReset
  exact unitResetEffect_keepsResponses (h.keeps (State_modSys_only (Only.refl _ _) rfl))

theorem endInjections_keepsResponses {s0 : State} {x0 : Nat} {s : State} (h : KeepsResponses s0 s) : KeepsResponses s0 (endInjections x0 s) := by
  unfold endInjections
  exact KeepsResponses.foldl h (fun _ _ h0 => (endInjection_keepsResponses (h0.keeps (stopInjection_only (Only.refl _ _) rfl))))

theorem enterQuiet_keepsResponses {s0 : State} {s : State} (h : KeepsResponses s0 s) : KeepsResponses s0 (enterQuiet s) := by
  unfold enterQuiet
  exact KeepsResponses.keeps (endInjections_keepsResponses (h.keeps (State_modSys_only (Only.refl _ _) rfl))) (refreshGains_only
    (Only.refl _ _) rfl)

theorem replaceMove_keepsResponses {s0 : State} {x0 : PowerMove} {s : State} (h : KeepsResponses s0 s) : KeepsResponses s0 (replaceMove x0 s) := by
  unfold replaceMove
  dsimp only
  split
  · exact completeOpt_keepsResponses (h.keeps (State_modSys_only (Only.refl _ _) rfl))
  · exact h.keeps (State_modSys_only (Only.refl _ _) rfl)

theorem startMove_keepsResponses {s0 : State} {x0 : PowerState} {x1 : Option Ticket} {s : State}
    (h : KeepsResponses s0 s) : KeepsResponses s0 (startMove x0 x1 s) := by
  unfold startMove
  split
  · exact KeepsResponses.ite ((replaceMove_keepsResponses h).keeps (startLeave_only (Only.refl _ _) rfl)) (replaceMove_keepsResponses h)
  · exact replaceMove_keepsResponses h
  · exact KeepsResponses.ite (KeepsResponses.keeps (replaceMove_keepsResponses h) (leaveStandby_only (State_modSys_only (Only.refl _ _) rfl) rfl))
      (KeepsResponses.ite (reviewMove_keepsResponses (enterQuiet_keepsResponses (replaceMove_keepsResponses h))) (replaceMove_keepsResponses h))

theorem penEffect_keepsResponses {s0 : State} {x0 : UnitId} {s : State} (h : KeepsResponses s0 s) : KeepsResponses s0 (penEffect x0 s) := by
  unfold penEffect
  refine KeepsResponses.keeps ?_ (refreshGains_only (Only.refl _ _) rfl)
  split
  · exact shutCassette_keepsResponses h
  · exact h.keeps (reviewPort_only (withdrawLane_only (Only.refl _ _) rfl) rfl)
  · exact KeepsResponses.ite (KeepsResponses.foldl h (fun _ _ h0 => (shutCassette_keepsResponses h0))) h
  · exact KeepsResponses.ite (KeepsResponses.foldl h (fun _ _ h0 => (shutCassette_keepsResponses h0))) h
  · exact h

theorem penUnit_keepsResponses {s0 : State} {x0 : PenReason} {s : State} {x2 : UnitId}
    (h : KeepsResponses s0 s) : KeepsResponses s0 (penUnit x0 s x2) := by
  unfold penUnit
  exact KeepsResponses.ite h (KeepsResponses.ite (h.keeps (State_modFault_only (Only.refl _ _) rfl)) (penEffect_keepsResponses (h.keeps
    (State_modFault_only (Only.refl _ _) rfl))))

theorem closeSession_keepsResponses {s0 : State} {x0 : Nat} {s : State} (h : KeepsResponses s0 s) : KeepsResponses s0 (closeSession x0 s) := by
  unfold closeSession
  split
  · exact KeepsResponses.modHost h
  · exact h

theorem consumeNonce_keepsResponses {s0 : State} {s : State} {x1 : Req} (h : KeepsResponses s0 s) : KeepsResponses s0 (consumeNonce s x1) := by
  unfold consumeNonce
  exact KeepsResponses.ite (issueNonce_keepsResponses h) h

theorem openFailed_keepsResponses {s0 : State} {s : State} {x1 : Req} (h : KeepsResponses s0 s) : KeepsResponses s0 (openFailed s x1) := by
  unfold openFailed
  exact KeepsResponses.ite (KeepsResponses.keeps (KeepsResponses.modHost (KeepsResponses.keeps (KeepsResponses.modHost h) (submitLog_only (Only.refl _ _) rfl)))
    (submitLog_only (Only.refl _ _) rfl)) (KeepsResponses.keeps (KeepsResponses.modHost h) (submitLog_only (Only.refl _ _) rfl))

/-! ### The commands -/

/-- Neither the effect nor the rejection of the command discards a response. -/
def SpecKeepsResponses (c : CommandSpec) : Prop :=
  (∀ s q, KeepsResponses s (c.effect s q).1) ∧ ∀ s q st, KeepsResponses s (c.reject s q st)

theorem SpecKeepsResponses.of_only {c : CommandSpec} {m : Nat} (h : SpecOnly m c) (k : m &&& 1048573 = m) :
    SpecKeepsResponses c :=
  ⟨fun s q => (KeepsResponses.refl s).keeps ((h.1 s q).weaken k),
    fun s q st => (KeepsResponses.refl s).keeps ((h.2 s q st).weaken k)⟩

theorem specLogMode_keepsResponses : SpecKeepsResponses specLogMode :=
  ⟨fun s _ => (drainSubmissions_keepsResponses (.refl s)).keeps
    (submitLog_only (State_modLog_only (Only.refl _ _) rfl) rfl), fun s _ _ => .refl s⟩

theorem specLogWrite_keepsResponses : SpecKeepsResponses specLogWrite :=
  ⟨fun s _ => .ite1 ((KeepsResponses.refl s).keeps (State_modLog_only (Only.refl _ _) rfl))
    (writeNow_keepsResponses (.refl s)), fun s _ _ => .refl s⟩

theorem specRfChainConfig_keepsResponses : SpecKeepsResponses specRfChainConfig := by
  refine ⟨fun s q => ?_, fun s _ _ => .refl s⟩
  dsimp only [specRfChainConfig]
  have hoff := finishOff_keepsResponses (x0 := u8 q.payload 0) (.refl s)
  have hdropped := cancelHeld_keepsResponses (x0 := u8 q.payload 0) hoff
  exact .ite1
    (.ite1 (complete_keepsResponses (completeOpt_keepsResponses hdropped))
      ((completeOpt_keepsResponses hdropped).keeps (refreshGains_only (modChain_only (Only.refl _ _) rfl) rfl)))
    (.ite1 (hoff.keeps (startFromOff_only (Only.refl _ _) rfl))
      (.ite1 (hoff.keeps (modChain_only (Only.refl _ _) rfl)) (startConfig_keepsResponses hoff)))

theorem specRfTxEnable_keepsResponses : SpecKeepsResponses specRfTxEnable :=
  ⟨fun s _ => .ite1 (disableTx_keepsResponses ((KeepsResponses.refl s).keeps (State_modPair_only (Only.refl _ _) rfl)))
    (.ite1 ((KeepsResponses.refl s).keeps (State_modPair_only (Only.refl _ _) rfl))
      (.ite1 ((KeepsResponses.refl s).keeps (modChain_only (Only.refl _ _) rfl))
        ((KeepsResponses.refl s).keeps (modChain_only (Only.refl _ _) rfl)))), fun s _ _ => .refl s⟩

theorem specClSlotConfig_keepsResponses : SpecKeepsResponses specClSlotConfig :=
  ⟨fun s _ => slotConfig_keepsResponses (.refl s), fun s _ _ => .refl s⟩

theorem specPaEnable_keepsResponses : SpecKeepsResponses specPaEnable :=
  ⟨fun s _ => .foldl (.refl s) (fun _ _ h => paEnableOne_keepsResponses h), fun s _ _ => .refl s⟩

theorem specBellEnable_keepsResponses : SpecKeepsResponses specBellEnable := by
  refine ⟨fun s q => ?_, fun s _ _ => .refl s⟩
  have h := KeepsResponses.refl s
  exact .ite1
    (.ite1 (h.keeps (startBellCal_only (State_modBell_only (Only.refl _ _) rfl) rfl))
      (.ite1 (complete_keepsResponses h) (h.keeps (State_modBell_only (Only.refl _ _) rfl))))
    (.ite1 (h.keeps (State_modBell_only (Only.refl _ _) rfl)) (bellOff_keepsResponses h))

theorem specCapArm_keepsResponses : SpecKeepsResponses specCapArm := by
  refine ⟨fun s q => ?_, fun s _ _ => .refl s⟩
  have h := KeepsResponses.refl s
  exact .ite1 (h.keeps (powerFor_only (modCap_only (Only.refl _ _) rfl) rfl))
    (complete_keepsResponses (h.keeps (startArmed_only (modCap_only (Only.refl _ _) rfl) rfl)))

theorem specCapControl_keepsResponses : SpecKeepsResponses specCapControl := by
  refine ⟨fun s q => ?_, fun s _ _ => .refl s⟩
  have h := KeepsResponses.refl s
  exact .ite (stopCapture_keepsResponses h) (.ite (pumpDrain_keepsResponses (h.keeps (modCap_only (Only.refl _ _) rfl)))
    (h.keeps (freeSlot_only (Only.refl _ _) rfl)))

theorem specArConfig_keepsResponses : SpecKeepsResponses specArConfig := by
  refine ⟨fun s q => ?_, fun s _ _ => .refl s⟩
  have h := KeepsResponses.refl s
  exact .ite (pumpDrain_keepsResponses (h.keeps (State_modMem_only (Only.refl _ _) rfl)))
    (h.keeps (endFault_only (State_modMem_only (stopDrain_only (State_modMem_only (Only.refl _ _) rfl) rfl) rfl) rfl))

theorem specPwrReset_keepsResponses : SpecKeepsResponses specPwrReset :=
  ⟨fun s _ => .ite1 ((KeepsResponses.refl s).keeps (State_modSys_only (Only.refl _ _) rfl))
    (startUnitReset_keepsResponses (.refl s)), fun s _ _ => .refl s⟩

theorem specPwrStateSet_keepsResponses : SpecKeepsResponses specPwrStateSet :=
  ⟨fun s _ => .ite1 (.refl s) (startMove_keepsResponses (.refl s)), fun s _ _ => .refl s⟩

theorem specLcAdvance_keepsResponses : SpecKeepsResponses specLcAdvance := by
  refine ⟨fun s q => ?_, fun s _ _ => .refl s⟩
  have h := KeepsResponses.refl s
  exact .ite1 (complete_keepsResponses (h.keeps (submitLog_only (State_modSys_only (Only.refl _ _) rfl) rfl)))
    (h.keeps (State_modSys_only (Only.refl _ _) rfl))

theorem specFaultUnitPen_keepsResponses : SpecKeepsResponses specFaultUnitPen := by
  refine ⟨fun s q => ?_, fun s _ _ => .refl s⟩
  dsimp only [specFaultUnitPen]
  split
  · exact (penUnit_keepsResponses (.refl s)).keeps (submitFault_only (Only.refl _ _) rfl)
  · exact .refl s

theorem specSysSessionOpen_keepsResponses : SpecKeepsResponses specSysSessionOpen := by
  have hnonce : ∀ s q, KeepsResponses s (consumeNonce s q) := fun s _ => consumeNonce_keepsResponses (.refl s)
  refine ⟨fun s q => ?_, fun s q st => .ite (openFailed_keepsResponses (.ite (hnonce s q) (.refl s))) (.ite (hnonce s q) (.refl s))⟩
  dsimp only [specSysSessionOpen]
  split
  · exact .refl s
  · exact .modHost ((hnonce s q).keeps (draw_only (Only.refl _ _) rfl))

theorem specSysSessionClose_keepsResponses : SpecKeepsResponses specSysSessionClose :=
  ⟨fun s _ => closeSession_keepsResponses (.refl s), fun s _ _ => .refl s⟩

theorem specSysNetConfig_keepsResponses : SpecKeepsResponses specSysNetConfig :=
  ⟨fun s _ => .modHost ((KeepsResponses.refl s).keeps (State_modSys_only (Only.refl _ _) rfl)), fun s _ _ => .refl s⟩

theorem specSysSiteConfig_keepsResponses : SpecKeepsResponses specSysSiteConfig :=
  ⟨fun s _ => .modHost ((KeepsResponses.refl s).keeps (State_modSys_only (Only.refl _ _) rfl)), fun s _ _ => .refl s⟩

theorem commandTable_keepsResponses : ∀ c ∈ commandTable, SpecKeepsResponses c := by
  simp only [commandTable, innerTable, List.forall_mem_append, List.forall_mem_cons, List.not_mem_nil, false_imp_iff,
    implies_true, and_true, and_assoc]
  exact
    ⟨.of_only specSysNop_only rfl, specSysSessionOpen_keepsResponses, specSysSessionClose_keepsResponses,
    .of_only specSysHostConfig_only rfl, specSysNetConfig_keepsResponses, specSysSiteConfig_keepsResponses,
    .of_only specAtSourceConfig_only rfl, .of_only specTddPatternSet_only rfl, .of_only specWallTimeSet_only rfl,
    specRfChainConfig_keepsResponses, specRfTxEnable_keepsResponses, .of_only specRfRxAtten_only rfl,
    .of_only specRfCalRun_only rfl, .of_only specRfCalGrant_only rfl, .of_only specRfPolicy_only rfl,
    .of_only specRfObsMap_only rfl, .of_only specBpConfig_only rfl, .of_only specBpRelease_only rfl,
    .of_only specBpDetector_only rfl, .of_only specBpAlign_only rfl, .of_only specBpSyncPin_only rfl,
    .of_only specDpdConfig_only rfl, .of_only specDpdControl_only rfl, .of_only specLgLoopConfig_only rfl,
    .of_only specLgBeaconConfig_only rfl, .of_only specLgCancelConfig_only rfl, .of_only specLgCancelControl_only rfl,
    .of_only specLgSearchConfig_only rfl, .of_only specLgPolicy_only rfl, .of_only specGsSetGain_only rfl,
    .of_only specGsMute_only rfl, .of_only specNpBackoffSet_only rfl, .of_only specNpPolicy_only rfl,
    .of_only specUlGateConfig_only rfl, .of_only specUlNoiseConfig_only rfl, .of_only specNpDonorConfig_only rfl,
    .of_only specNpOutputConfig_only rfl, specClSlotConfig_keepsResponses, .of_only specClBankWrite_only rfl,
    .of_only specClBankSwap_only rfl, .of_only specClSetpoint_only rfl, .of_only specClSlotControl_only rfl,
    .of_only specClRepConfig_only rfl, .of_only specClInject_only rfl, .of_only specClTraceConfig_only rfl,
    .of_only specClTraceRead_only rfl, .of_only specClPolicy_only rfl, .of_only specPaConfig_only rfl,
    .of_only specPaTiming_only rfl, .of_only specPaBiasTable_only rfl, .of_only specCmpConfig_only rfl,
    .of_only specCmpMode_only rfl, specPaEnable_keepsResponses, .of_only specPaBiasCal_only rfl,
    .of_only specCasPolicy_only rfl, .of_only specCasIdentityRead_only rfl, .of_only specHkSlotMap_only rfl,
    .of_only specHkUrgent_only rfl, .of_only specHkCalPoint_only rfl, .of_only specHkTestDac_only rfl,
    .of_only specHkSupplyWindow_only rfl, .of_only specHkThermalPolicy_only rfl, .of_only specFlPortConfig_only rfl,
    .of_only specFlFlockConfig_only rfl, .of_only specFlJoin_only rfl, .of_only specFlLeave_only rfl,
    .of_only specFlLaneControl_only rfl, .of_only specFlMemberQuery_only rfl, .of_only specFlExpel_only rfl,
    .of_only specDvIntentSet_only rfl, .of_only specDvIntentClear_only rfl, .of_only specDvPolicy_only rfl,
    .of_only specDvReplace_only rfl, .of_only specDvFlowQuery_only rfl, .of_only specDvFlowControl_only rfl,
    specCapArm_keepsResponses, .of_only specCapTrigger_only rfl, specCapControl_keepsResponses, specArConfig_keepsResponses,
    .of_only specArControl_only rfl, .of_only specArRestore_only rfl, .of_only specMemRetireClear_only rfl,
    .of_only specBellConfig_only rfl, specBellEnable_keepsResponses, .of_only specKeeperKey_only rfl,
    .of_only specBellChainConfig_only rfl, .of_only specFaultClassConfig_only rfl, .of_only specFaultPolicy_only rfl,
    .of_only specFaultAck_only rfl, specFaultUnitPen_keepsResponses, .of_only specFaultUnitRelease_only rfl,
    .of_only specFaultHaltRelease_only rfl, .of_only specFaultFfClear_only rfl, .of_only specFaultInject_only rfl,
    .of_only specFaultTableRead_only rfl, specLogMode_keepsResponses, .of_only specLogRead_only rfl,
    .of_only specLogClear_only rfl, .of_only specLogMediaReset_only rfl, specLogWrite_keepsResponses,
    .of_only specLogVerify_only rfl, specPwrStateSet_keepsResponses, .of_only specPwrWakeConfig_only rfl,
    .of_only specPwrLimitSet_only rfl, specPwrReset_keepsResponses, .of_only specLcProvision_only rfl,
    specLcAdvance_keepsResponses, .of_only specLcRoleSet_only rfl, .of_only specKeyInstall_only rfl,
    .of_only specDbgPolicy_only rfl, .of_only specFwWrite_only rfl, .of_only specFwControl_only rfl,
    .of_only specPairConfig_only rfl, .of_only specPairSwitchover_only rfl, .of_only specPairTailRead_only rfl,
    .of_only specAtSchedule_only rfl, .of_only specAtCancel_only rfl⟩

/-- Every command row stands in the command table. -/
theorem mem_commandTable_of_commandOf {i : Instr} {c : CommandSpec} {r : HostRequest} (h : commandOf i = some (c, r)) :
    c ∈ commandTable := by
  cases i <;> cases h <;> simp only [commandTable, innerTable, List.mem_append, List.mem_cons, true_or, or_true]

/-! ### Accepted and rejected commands -/

/-- A command starts with the mailbox RUNNING, its request captured, and no response to discard. -/
theorem atStart_mbx_same (opcode : Nat) (r : HostRequest) (s : State) : (atStart opcode r s).mbx r.mailbox =
    { s.mbx r.mailbox with
      state := .running, captured := some ⟨opcode, r⟩, started := (s.mbx r.mailbox).started + 1 } := by
  simp only [atStart, noteStart, unregister, capture, reqOf, State.mbx, modHost_host]
  split <;> simp

/-- The response of an accepted command that waits for nothing stands in its mailbox. -/
theorem submit_answers {i : Instr} {c : CommandSpec} {r : HostRequest} {s : State} (hc : commandOf i = some (c, r))
    (h : Accepts c r s) (hnow : (c.effect (atStart c.opcode r s) (reqOf c.opcode r)).2.deferred = false) :
    Answered c.opcode r (c.effect (atStart c.opcode r s) (reqOf c.opcode r)).2.status (submit c r s) ∧
    answerBytes r (submit c r s) =
      (if (c.effect (atStart c.opcode r s) (reqOf c.opcode r)).2.status = .ok ∨
          (c.effect (atStart c.opcode r s) (reqOf c.opcode r)).2.status = .accepted
       then (c.effect (atStart c.opcode r s) (reqOf c.opcode r)).2.payload else []) := by
  have hkeeps : KeepsResponses (atStart c.opcode r s)
      (mirrorCommand (reqOf c.opcode r) (c.effect (atStart c.opcode r s) (reqOf c.opcode r)).1) :=
    ((commandTable_keepsResponses c (mem_commandTable_of_commandOf hc)).1 _ _).keeps
      (mirrorCommand_only (Only.refl _ _) rfl)
  obtain ⟨⟨-, -, -, hstands⟩, -⟩ := id h
  have hdiscard := hkeeps r.mailbox (by rw [atStart_mbx_same]; exact hstands)
  have heq := submit_accepted h
  rw [if_neg (by simp [hnow])] at heq
  obtain ⟨hdone, hresponse⟩ := writeResponse_mailbox (q := reqOf c.opcode r)
    (st := (c.effect (atStart c.opcode r s) (reqOf c.opcode r)).2.status)
    (d := (c.effect (atStart c.opcode r s) (reqOf c.opcode r)).2.detail)
    (p := (c.effect (atStart c.opcode r s) (reqOf c.opcode r)).2.payload) hdiscard
  rw [heq, Answered, answerBytes]
  dsimp only [deliver, reqOf] at hresponse hdone ⊢
  rw [hresponse]
  exact ⟨⟨hdone, rfl, rfl, rfl⟩, rfl⟩

/-- A command whose response waits for hardware leaves the host part alone while it waits. -/
def DefersAlone (c : CommandSpec) : Prop :=
  ∀ s q, (c.effect s q).2.deferred = true → (c.effect s q).1.host = s.host

theorem specLogWrite_defersAlone : DefersAlone specLogWrite := by
  intro s q
  dsimp only [specLogWrite]
  split
  · exact fun _ => rfl
  · exact fun h => absurd h (by simp)

theorem specBellEnable_defersAlone : DefersAlone specBellEnable := by
  intro s q
  dsimp only [specBellEnable]
  split
  · split
    · exact fun h => absurd h (by simp)
    · split <;> exact fun h => absurd h (by simp)
  · split
    · exact fun _ => rfl
    · exact fun h => absurd h (by simp)

theorem specHkUrgent_defersAlone : DefersAlone specHkUrgent := fun s q _ => specHkUrgent_only.1 s q .host rfl

/-- The command's response waits for nothing. -/
def NeverDefers (c : CommandSpec) : Prop := ∀ s q, (c.effect s q).2.deferred = false

theorem NeverDefers.defersAlone {c : CommandSpec} (h : NeverDefers c) : DefersAlone c :=
  fun s q k => absurd k (by simp [h s q])

theorem specSysSessionOpen_neverDefers : NeverDefers specSysSessionOpen := by
  intro s q
  dsimp only [specSysSessionOpen]
  repeat' split
  all_goals rfl

theorem specRfChainConfig_neverDefers : NeverDefers specRfChainConfig := by
  intro s q
  dsimp only [specRfChainConfig]
  repeat' split
  all_goals rfl

theorem specRfTxEnable_neverDefers : NeverDefers specRfTxEnable := by
  intro s q
  dsimp only [specRfTxEnable]
  repeat' split
  all_goals rfl

theorem specBpConfig_neverDefers : NeverDefers specBpConfig := by
  intro s q
  dsimp only [specBpConfig]
  repeat' split
  all_goals rfl

theorem specBpRelease_neverDefers : NeverDefers specBpRelease := by
  intro s q
  dsimp only [specBpRelease]
  repeat' split
  all_goals rfl

theorem specNpDonorConfig_neverDefers : NeverDefers specNpDonorConfig := by
  intro s q
  dsimp only [specNpDonorConfig]
  repeat' split
  all_goals rfl

theorem specClInject_neverDefers : NeverDefers specClInject := by
  intro s q
  dsimp only [specClInject]
  repeat' split
  all_goals rfl

theorem specFlLaneControl_neverDefers : NeverDefers specFlLaneControl := by
  intro s q
  dsimp only [specFlLaneControl]
  repeat' split
  all_goals rfl

theorem specFlMemberQuery_neverDefers : NeverDefers specFlMemberQuery := by
  intro s q
  dsimp only [specFlMemberQuery]
  repeat' split
  all_goals rfl

theorem specFlExpel_neverDefers : NeverDefers specFlExpel := by
  intro s q
  dsimp only [specFlExpel]
  repeat' split
  all_goals rfl

theorem specDvPolicy_neverDefers : NeverDefers specDvPolicy := by
  intro s q
  dsimp only [specDvPolicy]
  repeat' split
  all_goals rfl

theorem specDvFlowControl_neverDefers : NeverDefers specDvFlowControl := by
  intro s q
  dsimp only [specDvFlowControl]
  repeat' split
  all_goals rfl

theorem specCapArm_neverDefers : NeverDefers specCapArm := by
  intro s q
  dsimp only [specCapArm]
  repeat' split
  all_goals rfl

theorem specFaultUnitPen_neverDefers : NeverDefers specFaultUnitPen := by
  intro s q
  dsimp only [specFaultUnitPen]
  repeat' split
  all_goals rfl

theorem specFaultUnitRelease_neverDefers : NeverDefers specFaultUnitRelease := by
  intro s q
  dsimp only [specFaultUnitRelease]
  repeat' split
  all_goals rfl

theorem specFaultInject_neverDefers : NeverDefers specFaultInject := by
  intro s q
  dsimp only [specFaultInject]
  repeat' split
  all_goals rfl

theorem specPwrStateSet_neverDefers : NeverDefers specPwrStateSet := by
  intro s q
  dsimp only [specPwrStateSet]
  repeat' split
  all_goals rfl

theorem specPwrReset_neverDefers : NeverDefers specPwrReset := by
  intro s q
  dsimp only [specPwrReset]
  repeat' split
  all_goals rfl

theorem specLcAdvance_neverDefers : NeverDefers specLcAdvance := by
  intro s q
  dsimp only [specLcAdvance]
  repeat' split
  all_goals rfl

theorem specFwControl_neverDefers : NeverDefers specFwControl := by
  intro s q
  dsimp only [specFwControl]
  repeat' split
  all_goals rfl

theorem commandTable_defersAlone : ∀ c ∈ commandTable, DefersAlone c := by
  simp only [commandTable, innerTable, List.forall_mem_append, List.forall_mem_cons, List.not_mem_nil, false_imp_iff,
    implies_true, and_true, and_assoc]
  have now {c : CommandSpec} (h : NeverDefers c) : DefersAlone c := h.defersAlone
  exact ⟨now fun _ _ => rfl, specSysSessionOpen_neverDefers.defersAlone, now fun _ _ => rfl, now fun _ _ => rfl,
    now fun _ _ => rfl, now fun _ _ => rfl, now fun _ _ => rfl, now fun _ _ => rfl, now fun _ _ => rfl,
    specRfChainConfig_neverDefers.defersAlone, specRfTxEnable_neverDefers.defersAlone, now fun _ _ => rfl,
    now fun _ _ => rfl, now fun _ _ => rfl, now fun _ _ => rfl, now fun _ _ => rfl, specBpConfig_neverDefers.defersAlone,
    specBpRelease_neverDefers.defersAlone, now fun _ _ => rfl, now fun _ _ => rfl, now fun _ _ => rfl, now fun _ _ => rfl,
    now fun _ _ => rfl, now fun _ _ => rfl, now fun _ _ => rfl, now fun _ _ => rfl, now fun _ _ => rfl, now fun _ _ => rfl,
    now fun _ _ => rfl, now fun _ _ => rfl, now fun _ _ => rfl, now fun _ _ => rfl, now fun _ _ => rfl, now fun _ _ => rfl,
    now fun _ _ => rfl, specNpDonorConfig_neverDefers.defersAlone, now fun _ _ => rfl, now fun _ _ => rfl,
    now fun _ _ => rfl, now fun _ _ => rfl, now fun _ _ => rfl, now fun _ _ => rfl, now fun _ _ => rfl,
    specClInject_neverDefers.defersAlone, now fun _ _ => rfl, now fun _ _ => rfl, now fun _ _ => rfl, now fun _ _ => rfl,
    now fun _ _ => rfl, now fun _ _ => rfl, now fun _ _ => rfl, now fun _ _ => rfl, now fun _ _ => rfl, now fun _ _ => rfl,
    now fun _ _ => rfl, now fun _ _ => rfl, now fun _ _ => rfl, specHkUrgent_defersAlone, now fun _ _ => rfl,
    now fun _ _ => rfl, now fun _ _ => rfl, now fun _ _ => rfl, now fun _ _ => rfl, now fun _ _ => rfl, now fun _ _ => rfl,
    now fun _ _ => rfl, specFlLaneControl_neverDefers.defersAlone, specFlMemberQuery_neverDefers.defersAlone,
    specFlExpel_neverDefers.defersAlone, now fun _ _ => rfl, now fun _ _ => rfl, specDvPolicy_neverDefers.defersAlone,
    now fun _ _ => rfl, now fun _ _ => rfl, specDvFlowControl_neverDefers.defersAlone, specCapArm_neverDefers.defersAlone,
    now fun _ _ => rfl, now fun _ _ => rfl, now fun _ _ => rfl, now fun _ _ => rfl, now fun _ _ => rfl, now fun _ _ => rfl,
    now fun _ _ => rfl, specBellEnable_defersAlone, now fun _ _ => rfl, now fun _ _ => rfl, now fun _ _ => rfl,
    now fun _ _ => rfl, now fun _ _ => rfl, specFaultUnitPen_neverDefers.defersAlone,
    specFaultUnitRelease_neverDefers.defersAlone, now fun _ _ => rfl, now fun _ _ => rfl,
    specFaultInject_neverDefers.defersAlone, now fun _ _ => rfl, now fun _ _ => rfl, now fun _ _ => rfl, now fun _ _ => rfl,
    now fun _ _ => rfl, specLogWrite_defersAlone, now fun _ _ => rfl, specPwrStateSet_neverDefers.defersAlone,
    now fun _ _ => rfl, now fun _ _ => rfl, specPwrReset_neverDefers.defersAlone, now fun _ _ => rfl,
    specLcAdvance_neverDefers.defersAlone, now fun _ _ => rfl, now fun _ _ => rfl, now fun _ _ => rfl, now fun _ _ => rfl,
    specFwControl_neverDefers.defersAlone, now fun _ _ => rfl, now fun _ _ => rfl, now fun _ _ => rfl, now fun _ _ => rfl,
    now fun _ _ => rfl⟩

/-- Settles O9: the doorbell is captured, and nothing more. -/
theorem doorbellWaitsItsTurn : Obligations.DoorbellWaitsItsTurn := by
  unfold Obligations.DoorbellWaitsItsTurn
  intro i c r s hc hdoorbell hwaits
  have hcaptured : submit c r s = capture c.opcode r s := by
    have hturn : s.sys.ready = false ∨ s.host.order ≠ [] := hwaits.imp_left Bool.eq_false_of_not_eq_true
    simp only [submit, hdoorbell, Bool.true_eq_false, if_false, if_pos hturn]
  refine ⟨capture c.opcode r s, ?_, ?_, ?_, ?_, capture_order ..⟩
  · rw [exec_command hc, hcaptured]
  · exact (capture_only (Only.refl 2 s) rfl).changesOnly_of_mask (by decide)
  · rw [capture_mbx_same]
  · rw [capture_mbx_same]

/-- An event leaves a bit of IRQ_STATUS that is set as it is. -/
theorem complete_keeps_irqStatus {t : Ticket} {st : Status} {d n : Nat} {s : State}
    (h : s.host.irqStatus.getLsbD n = true) : (complete t st d s).host.irqStatus.getLsbD n = true := by
  simp only [complete, postEvent, modHost_host, apply_ite HostState.irqStatus, setIrqBits_irqStatus,
    apply_ite (fun w : Word => w.getLsbD n), BitVec.getLsbD_or, h, Bool.true_or, ite_self]

/-- A response that is not discarded sets MB_DONE of its mailbox (R421). -/
theorem writeResponse_sets_irqStatus {n : Nat} {q : Req} {st : Status} {d : Nat} {p : List Byte} {s : State} (hn : n < 16)
    (h : (s.mbx n).discard = false) : (writeResponse n q st d p s).host.irqStatus.getLsbD n = true := by
  have h' : (s.host.mailboxes.get n).discard = false := h
  have hbit : ∀ w : Word, (w ||| 1#32 <<< n).getLsbD n = true := by
    intro w
    have hn' : n < 32 := by omega
    simp [hn']
  simp only [writeResponse, h', Bool.false_eq_true, if_false]
  split
  · refine complete_keeps_irqStatus ?_
    simp only [modHost_host, setIrqBits_irqStatus, hbit]
  · simp only [modHost_host, setIrqBits_irqStatus, hbit]

theorem noteReject_keepsResponses {s0 s : State} {q : Req} (h : KeepsResponses s0 s) : KeepsResponses s0 (noteReject q s) := by
  refine h.trans ?_
  unfold noteReject
  split
  next m _ _ =>
    intro n hn
    by_cases hx : n = m
    · subst hx
      simpa [State.mbx] using hn
    · simpa [State.mbx, get_mod_other _ _ hx] using hn
  · exact .refl s

/-- Settles O10: the rejection discards no response, so the answer stands in the mailbox. -/
theorem rejectedCommandAnswersItsStatus : Obligations.RejectedCommandAnswersItsStatus := by
  unfold Obligations.RejectedCommandAnswersItsStatus
  intro i c r s st d hc hrej
  have hkeeps : KeepsResponses (atStart c.opcode r s)
      (noteReject (reqOf c.opcode r) (c.reject (atStart c.opcode r s) (reqOf c.opcode r) st)) :=
    noteReject_keepsResponses ((commandTable_keepsResponses c (mem_commandTable_of_commandOf hc)).2 _ _ _)
  have heq := submit_rejected hrej
  obtain ⟨⟨-, -, hdoorbell, hstands⟩, -⟩ := hrej
  have hdiscard := hkeeps r.mailbox (by rw [atStart_mbx_same]; exact hstands)
  obtain ⟨hn, -⟩ := doorbellAccepted_iff.1 hdoorbell
  have hmailbox := writeResponse_mailbox (q := reqOf c.opcode r) (st := st) (d := d) (p := []) hdiscard
  have hirq := writeResponse_sets_irqStatus (q := reqOf c.opcode r) (st := st) (d := d) (p := []) hn hdiscard
  refine ⟨submit c r s, exec_command hc s, ?_⟩
  rw [heq]
  dsimp only [deliver, reqOf, Answered, answerBytes, State.mbx] at hmailbox hirq ⊢
  obtain ⟨hdone, hresponse⟩ := hmailbox
  rw [hresponse]
  exact ⟨⟨hdone, rfl, rfl, rfl⟩, ite_self _, rfl, hirq⟩

/-- Settles O12: an effect that waits leaves the mailbox RUNNING, any other is answered. -/
theorem acceptedCommandIsAnswered : Obligations.AcceptedCommandIsAnswered := by
  unfold Obligations.AcceptedCommandIsAnswered
  intro i c r s hc hacc
  refine ⟨submit c r s, exec_command hc s, fun hnow => ?_, fun hlater => ?_⟩
  · exact (submit_answers hc hacc (Bool.eq_false_of_not_eq_true hnow)).1
  · have heq := submit_accepted hacc
    rw [if_pos hlater] at heq
    have hhost : (submit c r s).host = (atStart c.opcode r s).host := by
      rw [heq, mirrorCommand_only (Only.refl 65536 _) rfl .host rfl]
      exact commandTable_defersAlone c (mem_commandTable_of_commandOf hc) _ _ hlater
    have hrunning := congrArg Mailbox.state (atStart_mbx_same c.opcode r s)
    rw [StillRuns, hhost]
    exact hrunning

end Sys2Proof.Machine
end

section
set_option Elab.async false
/-! The order of validation (R425): the conditions of a command's own section come with ranks that do not fall. -/

namespace Sys2Proof.Machine

open Sys2Proof

/-- The ranks of these checks are at least `n` and do not fall. -/
def ascendsFrom (n : Nat) : List Chk → Bool
  | [] => true
  | k :: l => decide (n ≤ statusRank k.status) && ascendsFrom (statusRank k.status) l

theorem pairwise_of_ascendsFrom {n : Nat} {l : List Chk} (h : ascendsFrom n l = true) :
    (∀ x ∈ l.map (fun k => statusRank k.status), n ≤ x) ∧ (l.map (fun k => statusRank k.status)).Pairwise (· ≤ ·) := by
  induction l generalizing n with
  | nil => exact ⟨by simp, .nil⟩
  | cons k l ih =>
    simp only [ascendsFrom, Bool.and_eq_true, decide_eq_true_eq] at h
    obtain ⟨hfirst, hrest⟩ := h
    obtain ⟨habove, hpairwise⟩ := ih hrest
    rw [List.map_cons]
    refine ⟨?_, .cons habove hpairwise⟩
    rintro x (_ | ⟨_, hx⟩)
    · exact hfirst
    · exact hfirst.trans (habove x hx)

/-- Field conditions (E_RANGE) may stand in front of any checks that follow them in the order. -/
theorem ascendsFrom_append_of_fields {l m : List Chk} (h : ∀ k ∈ l, k.status = .eRange) (hm : ascendsFrom 4 m = true) :
    ascendsFrom 4 (l ++ m) = true := by
  induction l with
  | nil => exact hm
  | cons k l ih =>
    obtain ⟨hk, hl⟩ := List.forall_mem_cons.1 h
    simp only [List.cons_append, ascendsFrom, hk, statusRank, le_refl, decide_true, Bool.true_and]
    exact ih hl

theorem ascendsFrom_of_fields {l : List Chk} (h : ∀ k ∈ l, k.status = .eRange) : ascendsFrom 4 l = true := by
  rw [← l.append_nil]
  exact ascendsFrom_append_of_fields h rfl

/-- Conditions each of which is one of a field. -/
theorem map_field_status {α : Type} (l : List α) (off : α → Nat) (ok : α → Bool) :
    ∀ k ∈ l.map (fun a => field (off a) (ok a)), k.status = .eRange := by
  simp only [List.forall_mem_map]
  exact fun _ _ => rfl

/-- The checks of a command follow the order of validation from E_RANGE on. -/
def ChecksAscend (c : CommandSpec) : Prop := ∀ s q, ascendsFrom 4 (c.checks s q) = true

theorem specTddPatternSet_checksAscend : ChecksAscend specTddPatternSet := by
  intro s q
  dsimp only [specTddPatternSet]
  rw [List.append_assoc]
  refine ascendsFrom_append_of_fields (by simp [field]) (ascendsFrom_append_of_fields ?_ rfl)
  simp only [List.mem_flatMap, List.mem_cons, List.not_mem_nil, or_false]
  rintro k ⟨_, -, rfl | rfl⟩ <;> rfl

theorem specClSlotConfig_checksAscend : ChecksAscend specClSlotConfig := by
  intro s q
  dsimp only [specClSlotConfig]
  split <;> rfl

theorem specHkSlotMap_checksAscend : ChecksAscend specHkSlotMap := fun _ _ =>
  ascendsFrom_append_of_fields (by simp [field]) (ascendsFrom_of_fields (map_field_status _ _ _))

theorem specDvIntentSet_checksAscend : ChecksAscend specDvIntentSet := by
  intro s q
  dsimp only [specDvIntentSet]
  rw [List.append_assoc]
  refine ascendsFrom_append_of_fields (by simp [field]) (ascendsFrom_append_of_fields ?_ rfl)
  simp only [List.mem_flatMap, List.mem_cons, List.not_mem_nil, or_false]
  rintro k ⟨_, -, rfl | rfl | rfl⟩ <;> rfl


/-- Every command that can be scheduled checks in the order of validation: a list whose statuses are written out by evaluation,
the four with a part of variable length or a choice by the lemmas above. -/
theorem innerTable_checksAscend : ∀ c ∈ innerTable, ChecksAscend c := by
  simp only [innerTable, List.forall_mem_append, List.forall_mem_cons, List.not_mem_nil, false_imp_iff,
    implies_true, and_true, and_assoc]
  exact ⟨fun _ _ => rfl, fun _ _ => rfl, fun _ _ => rfl, fun _ _ => rfl, fun _ _ => rfl, fun _ _ => rfl, fun _ _ => rfl,
    specTddPatternSet_checksAscend, fun _ _ => rfl, fun _ _ => rfl, fun _ _ => rfl, fun _ _ => rfl, fun _ _ => rfl,
    fun _ _ => rfl, fun _ _ => rfl, fun _ _ => rfl, fun _ _ => rfl, fun _ _ => rfl, fun _ _ => rfl, fun _ _ => rfl,
    fun _ _ => rfl, fun _ _ => rfl, fun _ _ => rfl, fun _ _ => rfl, fun _ _ => rfl, fun _ _ => rfl, fun _ _ => rfl,
    fun _ _ => rfl, fun _ _ => rfl, fun _ _ => rfl, fun _ _ => rfl, fun _ _ => rfl, fun _ _ => rfl, fun _ _ => rfl,
    fun _ _ => rfl, fun _ _ => rfl, fun _ _ => rfl, specClSlotConfig_checksAscend, fun _ _ => rfl, fun _ _ => rfl,
    fun _ _ => rfl, fun _ _ => rfl, fun _ _ => rfl, fun _ _ => rfl, fun _ _ => rfl, fun _ _ => rfl, fun _ _ => rfl,
    fun _ _ => rfl, fun _ _ => rfl, fun _ _ => rfl, fun _ _ => rfl, fun _ _ => rfl, fun _ _ => rfl, fun _ _ => rfl,
    fun _ _ => rfl, fun _ _ => rfl, specHkSlotMap_checksAscend, fun _ _ => rfl, fun _ _ => rfl, fun _ _ => rfl,
    fun _ _ => rfl, fun _ _ => rfl, fun _ _ => rfl, fun _ _ => rfl, fun _ _ => rfl, fun _ _ => rfl, fun _ _ => rfl,
    fun _ _ => rfl, fun _ _ => rfl, specDvIntentSet_checksAscend, fun _ _ => rfl, fun _ _ => rfl, fun _ _ => rfl,
    fun _ _ => rfl, fun _ _ => rfl, fun _ _ => rfl, fun _ _ => rfl, fun _ _ => rfl, fun _ _ => rfl, fun _ _ => rfl,
    fun _ _ => rfl, fun _ _ => rfl, fun _ _ => rfl, fun _ _ => rfl, fun _ _ => rfl, fun _ _ => rfl, fun _ _ => rfl,
    fun _ _ => rfl, fun _ _ => rfl, fun _ _ => rfl, fun _ _ => rfl, fun _ _ => rfl, fun _ _ => rfl, fun _ _ => rfl,
    fun _ _ => rfl, fun _ _ => rfl, fun _ _ => rfl, fun _ _ => rfl, fun _ _ => rfl, fun _ _ => rfl, fun _ _ => rfl,
    fun _ _ => rfl, fun _ _ => rfl, fun _ _ => rfl, fun _ _ => rfl, fun _ _ => rfl, fun _ _ => rfl, fun _ _ => rfl,
    fun _ _ => rfl, fun _ _ => rfl, fun _ _ => rfl, fun _ _ => rfl, fun _ _ => rfl, fun _ _ => rfl, fun _ _ => rfl⟩

/-- Settles O13: the ranks of each command's checks ascend. -/
theorem checksFollowValidationOrder : Obligations.ChecksFollowValidationOrder := by
  unfold Obligations.ChecksFollowValidationOrder
  exact fun c hc s q => (pairwise_of_ascendsFrom (innerTable_checksAscend c hc s q)).2

end Sys2Proof.Machine
end

section
set_option Elab.async false
/-! What an accepted command does, in the form of the statements: `does_of_only` takes the command's frame and its reply, and leaves
what its effect made of the parts it changes. -/

namespace Sys2Proof.Machine

open Sys2Proof

theorem and_or_self_mask (m n : Nat) : m &&& (m ||| n) = m := by
  apply Nat.eq_of_testBit_eq
  simp +contextual

/-- A command row changes beside its own parts what its mailbox and the mirroring change. -/
theorem submit_changesOnly {c : CommandSpec} {m : Nat} {l : List Part} (honly : SpecOnly m c)
    (hmask : ∀ p ∈ but [], p ∉ l → (m ||| 65538).testBit p.bit = false) (r : HostRequest) (s : State) :
    ChangesOnly l s (submit c r s) := by
  have hpair : m ||| 65538 = 65536 ||| (2 ||| m) := (Nat.or_comm ..).trans (Nat.or_assoc 65536 2 m)
  have hhost : m ||| 65538 = 2 ||| (65536 ||| m) := (Nat.or_comm ..).trans (Nat.or_assoc 2 65536 m)
  exact (submit_only (m := m ||| 65538) honly (Only.refl _ s) (and_or_self_mask ..)
    (by rw [hpair]; exact and_or_self_mask ..) (by rw [hhost]; exact and_or_self_mask ..)).changesOnly_of_mask hmask

/-- The command waits for nothing and answers this status. -/
def Replies (st : Status) (x : Reply) : Prop := x.deferred = false ∧ x.status = st

/-- An accepted command that answers at once has answered with its status, within its frame. -/
theorem runs_of_accepts {c : CommandSpec} {i : Instr} {r : HostRequest} {s : State} {l : List Part} {m : Nat} {st : Status}
    {P : State → Prop} (hc : commandOf i = some (c, r)) (honly : SpecOnly m c)
    (hmask : ∀ p ∈ but [], p ∉ l → (m ||| 65538).testBit p.bit = false) (hacc : Accepts c r s)
    (hreply : Replies st (c.effect (atStart c.opcode r s) (reqOf c.opcode r)).2)
    (hP : P (submit c r s)) : Runs i s l (fun t => Answered c.opcode r st t ∧ P t) := by
  refine ⟨submit c r s, exec_command hc s, submit_changesOnly honly hmask r s, ?_, hP⟩
  rw [← hreply.2]
  exact (submit_answers hc hacc hreply.1).1

/-- A command whose reply is OK does what its effect does. -/
theorem does_of_only {c : CommandSpec} {n m : Nat} {i : HostRequest → Instr} {r : HostRequest} {s : State} {l : List Part}
    {P : State → Prop} (hc : commandOf (i r) = some (c, r)) (hop : c.opcode = n) (honly : SpecOnly m c)
    (hmask : ∀ p ∈ but [], p ∉ .host :: .pair :: l → (m ||| 65538).testBit p.bit = false)
    (hreply : ∀ s q, Replies .ok (c.effect s q).2) (hP : Accepts c r s → P (submit c r s)) : Does n i r s l P := by
  refine ⟨c, hc, hop, fun hacc => ?_⟩
  subst hop
  exact runs_of_accepts hc honly hmask hacc (hreply _ _) (hP hacc)

end Sys2Proof.Machine
end

section
set_option Elab.async false
/-! The commands of air time (R31, R50, R52, R55). -/

namespace Sys2Proof.Machine

open Sys2Proof

theorem u64_lt (p : List Byte) (o : Nat) : u64 p o < 2 ^ 64 := by
  have hbyte (k : Nat) : u8 p k < 256 := (p.getD k 0).isLt
  have h := hbyte o; have h1 := hbyte (o + 1); have h2 := hbyte (o + 2); have h3 := hbyte (o + 2 + 1)
  have h4 := hbyte (o + 4); have h5 := hbyte (o + 4 + 1); have h6 := hbyte (o + 4 + 2); have h7 := hbyte (o + 4 + 2 + 1)
  simp only [u64, u32, u16]
  omega

theorem firstEvenFrame_even (s : State) : firstEvenFrame s % 2 = 0 := by
  unfold firstEvenFrame framesAhead
  by_cases h : (s.air.frame + 2) % 4294967296 % 2 = 0
  · exact (if_pos h).symm ▸ h
  · have hodd : (s.air.frame + 3) % 4294967296 % 2 = 0 := by omega
    exact (if_neg h).symm ▸ hodd

theorem firstEvenFrame_eq (s : State) : firstEvenFrame s = framesAhead s 2 ∨ firstEvenFrame s = framesAhead s 3 := by
  simp only [firstEvenFrame]
  split <;> simp

/-- The frame of an accepted TDD_PATTERN_SET that names one is even. -/
theorem even_of_accepts_tddPatternSet {r : HostRequest} {s : State} (h : Accepts specTddPatternSet r s)
    (hframe : r.u32 16 ≠ 0) : r.u32 16 % 2 = 0 := by
  have hchk := checks_hold_of_validate h.2 (field 16 (r.u32 16 == 0 || (r.u32 16 % 2 == 0 && decide (2 ≤ frameDistance s (r.u32 16)))))
    (by simp only [specTddPatternSet, List.mem_append, List.mem_cons]; tauto)
  simp only [field, Bool.not_eq_false', Bool.or_eq_true, beq_iff_eq, Bool.and_eq_true, hframe, false_or] at hchk
  exact hchk.1

theorem wallNow_of_acc {s : State} {t : Nat} (h : s.air.wallAcc = t * wallNs) (ht : t < 2 ^ 64) : wallNow s = t := by
  rw [wallNow, h, Nat.mul_div_cancel _ (by decide), Nat.mod_eq_of_lt ht]

/-- Wall time is set after every setting. -/
theorem setWall_wallSet (t kind : Nat) (s : State) : (setWall t kind s).air.wallSet = true := by
  unfold setWall
  extract_lets old d s1
  split
  next h => exact h.1
  · rfl

/-- A setting of a wall time that was not set, or that is more than 1 µs away, is a step (R55). -/
theorem wallNow_setWall_of_step {t : Nat} (kind : Nat) {s : State} (ht : t < 2 ^ 64)
    (h : ¬s.air.wallSet ∨ 1000 < ((t : Int) - wallNow s).natAbs) : wallNow (setWall t kind s) = t := by
  refine wallNow_of_acc ?_ ht
  unfold setWall
  extract_lets old d s1
  rw [if_neg (by rintro ⟨hset, hnear⟩; exact h.elim (· hset) (fun hfar => absurd hnear (by omega)))]
  rfl

/-- Settles O14: each clause is the command's effect on air time. -/
theorem airTimeCommandsSetTime : Obligations.AirTimeCommandsSetTime := by
  unfold Obligations.AirTimeCommandsSetTime
  intro r s
  refine ⟨?_, ?_, ?_, ?_, ?_⟩
  · exact does_of_only rfl rfl specAtSourceConfig_only (by decide) (fun _ _ => ⟨rfl, rfl⟩) fun h => submit_after h .air rfl
  · refine does_of_only rfl rfl specTddPatternSet_only (by decide) (fun _ _ => ⟨rfl, rfl⟩) fun h => ?_
    have hair : (submit specTddPatternSet r s).air = _ := submit_after h .air rfl
    refine ⟨⟨if r.u32 16 = 0 then firstEvenFrame s else r.u32 16, ?_, ?_, ?_, ?_⟩, fun p hp => ?_, ?_⟩
    · rw [State.pattern, hair]
      exact congrArg Pattern.waiting (get_mod_same ..)
    · split
      · exact firstEvenFrame_even s
      · exact even_of_accepts_tddPatternSet h ‹_›
    · exact fun hframe => if_neg hframe
    · intro hframe
      rw [if_pos hframe]
      exact firstEvenFrame_eq s
    · rw [State.pattern, hair]
      exact get_mod_other _ _ hp
    · rw [hair]
      rfl
  · refine does_of_only rfl rfl specWallTimeSet_only (by decide) (fun _ _ => ⟨rfl, rfl⟩) fun h => ?_
    have hair : (submit specWallTimeSet r s).air = (setWall (r.u64 0) 1 (atStart 0x0205 r s)).air := submit_after h .air rfl
    refine ⟨?_, fun hstep => ?_⟩
    · rw [hair]
      exact setWall_wallSet ..
    · rw [wallNow, hair]
      exact wallNow_setWall_of_step 1 (u64_lt _ _) hstep
  · refine does_of_only rfl rfl specAtSchedule_only (by decide) (fun _ _ => ⟨rfl, rfl⟩) fun h => ?_
    exact ⟨_, submit_after h .air rfl, rfl, Bool.false_ne_true, rfl, rfl, rfl⟩
  · refine does_of_only rfl rfl specAtCancel_only (by decide) (fun _ _ => ⟨rfl, rfl⟩) fun h => ?_
    exact ⟨submit_after h .air rfl, submit_after h .rf rfl⟩

end Sys2Proof.Machine
end

section
set_option Elab.async false
/-! Events of the table: `runs_of_only` takes the frame of the row and the state that it answers. -/

namespace Sys2Proof.Machine

open Sys2Proof

/-- A row that answers `t` within its frame. -/
theorem runs_of_only {i : Instr} {s t : State} {l : List Part} {m : Nat} {P : State → Prop} (hexec : exec i s = .next t)
    (honly : exec i s = .next t → Only m s t) (hmask : ∀ p ∈ but [], p ∉ l → m.testBit p.bit = false) (hP : P t) :
    Runs i s l P :=
  ⟨t, hexec, (honly hexec).changesOnly_of_mask hmask, hP⟩

/-- A row answers one state, so what `Runs` says holds of that state. -/
theorem Runs.of_exec {i : Instr} {s t : State} {l : List Part} {P : State → Prop} (h : Runs i s l P)
    (hexec : exec i s = .next t) : ChangesOnly l s t ∧ P t := by
  obtain ⟨u, hu, honly, hP⟩ := h
  rw [hexec] at hu
  cases hu
  exact ⟨honly, hP⟩

/-! Waiting for an instant (R12, R28): monotonic time, and what else of air time is the same. -/

theorem advanceTo_waited (x : Nat) (s : State) : waited s (advanceTo x s) x := by
  have h : (advanceTo x s).air.mono = s.air.mono + (x - s.air.mono) := rfl
  rw [waited, h]
  omega

theorem map_find {α β : Type} (f : Nat → α → β) (l : List (Nat × α)) (k : Nat) :
    Bank.find (l.map (fun p => (p.1, f p.1 p.2))) k = (Bank.find l k).map (f k) := by
  induction l with
  | nil => rfl
  | cons p l ih =>
    simp only [List.map_cons, Bank.find]
    split
    next h => rw [h]; rfl
    next => exact ih

/-- A source whose phase has moved by `e`; LOCAL's does not move. -/
def TimeSource.moved (e : Int) (c : Nat) (y : TimeSource) : TimeSource := if c = 4 then y else { y with phase := y.phase - e }

/-- Passing time moves the phase of a source, and nothing else of it. -/
theorem movePhases_get (e : Int) (b : Bank TimeSource) (c : Nat) :
    ∃ x, (movePhases e b).get c = { b.get c with phase := x } := by
  have hfind : Bank.find (movePhases e b).cells c = (Bank.find b.cells c).map (TimeSource.moved e c) :=
    map_find (TimeSource.moved e) b.cells c
  rw [Bank.get, Bank.get, hfind]
  cases Bank.find b.cells c with
  | none => exact ⟨_, rfl⟩
  | some y =>
    by_cases h : c = 4
    · exact ⟨y.phase, by simp [TimeSource.moved, h]⟩
    · exact ⟨y.phase - e, by simp [TimeSource.moved, h]⟩

theorem pass_config (a : AirState) (dt : Nat) : (a.pass dt).config = a.config := rfl

theorem pass_source (a : AirState) (dt : Nat) : (a.pass dt).source = a.source := rfl

@[simp] theorem advanceTo_config (x : Nat) (s : State) : (advanceTo x s).air.config = s.air.config := pass_config ..

@[simp] theorem advanceTo_air_source (x : Nat) (s : State) : (advanceTo x s).air.source = s.air.source := pass_source ..

theorem advanceTo_source (x : Nat) (s : State) (c : Nat) :
    ∃ y, (advanceTo x s).source c = { s.source c with phase := y } := movePhases_get _ _ c

theorem advanceTo_source_state (x : Nat) (s : State) (c : Nat) : ((advanceTo x s).source c).state = (s.source c).state := by
  obtain ⟨y, h⟩ := advanceTo_source x s c
  rw [h]

end Sys2Proof.Machine
end

section
set_option Elab.async false
/-! Timing sources (R32, R33, R36, R513): what the failure of a source and a selection leave of the inputs. -/

namespace Sys2Proof.Machine

open Sys2Proof

/-- The inputs of air time: monotonic time, the sources, and what is kept of their inputs. -/
def AirState.inputs (a : AirState) : Nat × Bank TimeSource × List DonorDetection × Option Nat × Option (Nat × Nat) × Option Nat :=
  (a.mono, a.sources, a.detections, a.ptpGoodFrom, a.ptpAt, a.ppsAt)

theorem decidePhase_inputs (s : State) : (decidePhase s).air.inputs = s.air.inputs := by
  unfold decidePhase
  dsimp only
  split <;> rfl

theorem selectSource_inputs (c : Nat) (s : State) : (selectSource c s).air.inputs = s.air.inputs :=
  decidePhase_inputs _

theorem loseSource_inputs (s : State) : (loseSource s).air.inputs = s.air.inputs := by
  simp only [loseSource, modAir_air]
  split
  · split <;> rfl
  · rfl

/-- A selection leaves the inputs alone. -/
theorem reselect_inputs (s : State) : (reselect s).air.inputs = s.air.inputs := by
  unfold reselect
  dsimp only
  split
  · split
    · split
      · exact selectSource_inputs ..
      · rfl
    · rfl
  · split
    · exact selectSource_inputs ..
    · split
      · rfl
      · exact loseSource_inputs s

/-- The air-time part when a source has failed, before the selection is made again. -/
def AirState.failed (a : AirState) (c : Nat) : AirState :=
  { a with
    sources := a.sources.mod c (fun x => { x with state := .failed, failedAt := a.mono, run := 0 })
    detections := if c = srcDonor then [] else a.detections
    ptpGoodFrom := if c = srcPtp then none else a.ptpGoodFrom }

/-- A source that is QUALIFYING or USABLE fails. -/
theorem failSource_inputs {c : Nat} {s : State} (h : (s.source c).state = .usable ∨ (s.source c).state = .qualifying) :
    (failSource c s).air.inputs = (s.air.failed c).inputs := by
  unfold failSource
  dsimp only
  rw [if_pos h]
  split
  · exact reselect_inputs _
  · rfl

theorem failed_state (a : AirState) (c : Nat) : ((a.failed c).sources.get c).state = .failed := by
  simp [AirState.failed]

/-- What stands after a failure: the source is FAILED, no time has passed, and no edge of PPS_IN is forgotten. -/
theorem failSource_source {c : Nat} {s : State} (h : (s.source c).state = .usable ∨ (s.source c).state = .qualifying) :
    ((failSource c s).source c).state = .failed ∧ (failSource c s).air.mono = s.air.mono ∧
      (failSource c s).air.ppsAt = s.air.ppsAt ∧ (c = srcDonor → (failSource c s).air.detections = []) ∧
      (c = srcPtp → (failSource c s).air.ptpGoodFrom = none) := by
  have hinputs := failSource_inputs h
  simp only [AirState.inputs, Prod.mk.injEq] at hinputs
  obtain ⟨hmono, hsources, hdetections, hgood, -, hpps⟩ := hinputs
  refine ⟨?_, hmono, hpps, fun hc => ?_, fun hc => ?_⟩
  · rw [State.source, hsources]
    exact failed_state ..
  · rw [hdetections]
    exact if_pos hc
  · rw [hgood]
    exact if_pos hc

/-- A source that is live fails at a deadline. -/
theorem failSource_advanceTo {c : Nat} (x : Nat) {s : State}
    (h : (s.source c).state = .usable ∨ (s.source c).state = .qualifying) :
    ((failSource c (advanceTo x s)).source c).state = .failed ∧ waited s (failSource c (advanceTo x s)) x ∧
      (c = srcDonor → (failSource c (advanceTo x s)).air.detections = []) ∧
      (c = srcPtp → (failSource c (advanceTo x s)).air.ptpGoodFrom = none) := by
  obtain ⟨hfailed, hmono, -, hdonor, hptp⟩ := failSource_source (c := c) (s := advanceTo x s) (by rwa [advanceTo_source_state])
  exact ⟨hfailed, hmono.trans (advanceTo_waited x s), hdonor, hptp⟩

theorem standbyHub_advanceTo (x : Nat) (s : State) : standbyHub (advanceTo x s) = standbyHub s := by
  simp only [standbyHub, advanceTo_keeps_sys, advanceTo_keeps_pair]

theorem bellwether_modAir (f : AirState → AirState) (s : State) : bellwether (s.modAir f) = bellwether s := rfl

theorem defaultPriority_modAir (f : AirState → AirState) (s : State) : defaultPriority (s.modAir f) = defaultPriority s := rfl

theorem selectionList_modAir {f : AirState → AirState} {s : State} (h : (f s.air).config = s.air.config) :
    selectionList (s.modAir f) = selectionList s := by
  have hlist : priorityList (s.modAir f) = priorityList s := by
    unfold priorityList
    rw [bellwether_modAir, defaultPriority_modAir, modAir_air, h]
  have hstandby : standbyHub (s.modAir f) = standbyHub s := rfl
  rw [selectionList, selectionList, hlist, hstandby]

theorem selectionList_advanceTo (x : Nat) (s : State) : selectionList (advanceTo x s) = selectionList s :=
  selectionList_modAir (pass_config ..)

/-- The loss of the port from which FLOCK is taken passes no time. -/
theorem timePortLost_now (p : Nat) (s : State) : (timePortLost p s).air.mono = s.air.mono := by
  have hfail (u : State) : (failSource srcFlock u).air.mono = u.air.mono := by
    by_cases h : (u.source 3).state = .usable ∨ (u.source 3).state = .qualifying
    · exact (failSource_source h).2.1
    · exact congrArg (fun v : State => v.air.mono) (if_neg h)
  have hport : (failTimePort p s).air = s.air := failTimePort_only (Only.refl 4096 s) rfl .air rfl
  unfold timePortLost followFlock
  dsimp only
  split
  · split
    · split
      · rw [hport]
      · rw [hfail, hport]
    · rw [hfail, hport]
  · rw [hport]

/-- Where the alternate delivers no time, FLOCK fails with the port from which it is taken, or without one (R36). -/
theorem followFlock_of_silent {p : Nat} {s : State} (hhub : ¬standbyHub s) (hport : flockPort s = some p)
    (hsilent : ∀ a, s.fl.alternate = some a → (s.port a).ttRun = 0) :
    followFlock (failTimePort p s) = failSource srcFlock (failTimePort p s) := by
  have hrun : ((failTimePort p s).port p).ttRun = 0 := by simp [failTimePort, modPort, State.port]
  have hsilent' (a : Nat) (ha : s.fl.alternate = some a) : ((failTimePort p s).fl.ports.get a).ttRun = 0 := by
    by_cases hap : a = p
    · exact hap ▸ hrun
    · have hother : (failTimePort p s).fl.ports.get a = s.fl.ports.get a := get_mod_other _ _ hap
      rw [hother]
      exact hsilent a ha
  have hsame : flockPort (failTimePort p s) = some p := by
    have hstandby : standbyHub (failTimePort p s) = standbyHub s := rfl
    have hfl : (failTimePort p s).fl.primary = s.fl.primary ∧ (failTimePort p s).fl.alternate = s.fl.alternate ∧
        (failTimePort p s).sys.role = s.sys.role := ⟨rfl, rfl, rfl⟩
    obtain ⟨hprimary, halternate, hrole⟩ := hfl
    unfold flockPort at hport ⊢
    rw [hstandby, hprimary, halternate, hrole]
    by_cases hr : s.sys.role = .hub
    · rw [if_pos hr, if_neg hhub] at hport
      cases hport
    · rw [if_neg hr] at hport ⊢
      cases hp : s.fl.primary with
      | none => simp [hp] at hport
      | some b =>
        cases ha : s.fl.alternate with
        | none => simpa [hp, ha] using hport
        | some a =>
          have hquiet := hsilent a ha
          simp only [State.port] at hquiet
          simp only [hp, ha, hquiet, lt_self_iff_false, and_false, if_false] at hport ⊢
          simp only [hsilent' a ha, lt_self_iff_false, and_false, if_false, hport]
  unfold followFlock
  rw [hsame]
  exact if_neg (by rw [State.port] at hrun; omega)

/-- The list up to the selected source holds no source that is not ahead of it; the first usable one leads the candidates of a
selection once its time has come (R33). -/
theorem revertCandidates_head {c : Nat} {s : State}
    (hfind : ((selectionList s).takeWhile (fun x => x != s.air.source)).find? (sourceUsable s) = some c)
    (hheld : (s.source c).usableSince + tcOfMs s.air.config.revertHold ≤ s.now) :
    ∃ l, revertCandidates s = c :: l := by
  obtain ⟨husable, before, after, hlist, hbefore⟩ := List.find?_eq_some_iff_append.1 hfind
  refine ⟨after.filter (fun c => sourceUsable s c &&
    decide ((s.air.sources.get c).usableSince + tcOfMs s.air.config.revertHold ≤ now s)), ?_⟩
  have hskip : before.filter (fun c => sourceUsable s c &&
      decide ((s.air.sources.get c).usableSince + tcOfMs s.air.config.revertHold ≤ now s)) = [] := by
    rw [List.filter_eq_nil_iff]
    intro x hx
    have hx' := hbefore x hx
    simp only [Bool.not_eq_true'] at hx'
    simp [hx']
  have hkeep : decide ((s.air.sources.get c).usableSince + tcOfMs s.air.config.revertHold ≤ now s) = true :=
    decide_eq_true hheld
  rw [revertCandidates, hlist, List.filter_append, hskip, List.nil_append, List.filter_cons, husable, hkeep]
  rfl

theorem decidePhase_lock (s : State) :
    (decidePhase s).air.source = s.air.source ∧ (decidePhase s).air.lock = s.air.lock := by
  unfold decidePhase
  dsimp only
  split <;> exact ⟨rfl, rfl⟩

theorem selectSource_lock (c : Nat) (s : State) : (selectSource c s).air.source = c ∧ (selectSource c s).air.lock = .acquiring :=
  decidePhase_lock _

theorem donorSyncTimeout_fails {s : State} (h : (s.source 1).state = .usable ∨ (s.source 1).state = .qualifying) :
    Runs .donorSyncTimeout s [.air] fun t => (t.source 1).state = .failed ∧ t.air.detections = [] ∧
      waited s t ((s.source 1).lastAt + 4 * tcOfMs (if s.air.donorPeriod = 0 then 160 else s.air.donorPeriod)) := by
  refine runs_of_only (t := donorSyncTimeout s) rfl execDonorSyncTimeout_only (by decide) ?_
  have heq : donorSyncTimeout s = failSource srcDonor (advanceTo ((s.source 1).lastAt +
      4 * tcOfMs (if s.air.donorPeriod = 0 then 160 else s.air.donorPeriod)) s) := if_pos h
  obtain ⟨hfailed, htime, hdropped, -⟩ := failSource_advanceTo (c := srcDonor) ((s.source 1).lastAt +
      4 * tcOfMs (if s.air.donorPeriod = 0 then 160 else s.air.donorPeriod)) h
  rw [heq]
  exact ⟨hfailed, hdropped rfl, htime⟩

theorem ptpSyncTimeout_fails {s : State} (h : (s.source 2).state = .usable ∨ (s.source 2).state = .qualifying) :
    Runs .ptpSyncTimeout s [.air] fun t => (t.source 2).state = .failed ∧ t.air.ptpGoodFrom = none ∧
      waited s t ((s.source 2).lastAt + tcOfS 3) := by
  refine runs_of_only (t := ptpSyncTimeout s) rfl execPtpSyncTimeout_only (by decide) ?_
  generalize hdeadline : (s.source 2).lastAt + tcOfS 3 = x
  have heq : ptpSyncTimeout s = failSource srcPtp (advanceTo x s) := by
    rw [← hdeadline]
    exact if_pos h
  obtain ⟨hfailed, htime, -, hdropped⟩ := failSource_advanceTo (c := srcPtp) x h
  rw [heq]
  exact ⟨hfailed, hdropped rfl, htime⟩

/-- FLOCK at its deadline, from the port on which it then stands. -/
theorem flockSourceTimeout_fails {s : State} (h : (s.source 3).state = .usable ∨ (s.source 3).state = .qualifying) :
    Runs .flockSourceTimeout s [.air, .fl] fun t => waited s t ((s.source 3).lastAt + 4 * tcPerFrame) ∧
      (¬standbyHub s → (∀ a, s.fl.alternate = some a → (s.port a).ttRun = 0) → (t.source 3).state = .failed) := by
  refine runs_of_only (t := flockSourceTimeout s) rfl execFlockSourceTimeout_only (by decide) ?_
  generalize hdeadline : (s.source 3).lastAt + 4 * tcPerFrame = x
  have hair (p : Nat) : (failTimePort p (advanceTo x s)).air = (advanceTo x s).air :=
    failTimePort_only (Only.refl 4096 _) rfl .air rfl
  have hlive (p : Nat) : ((failTimePort p (advanceTo x s)).source 3).state = (s.source 3).state := by
    rw [State.source, hair]
    exact advanceTo_source_state x s 3
  unfold flockSourceTimeout
  dsimp only
  rw [if_pos h, hdeadline]
  cases hport : flockPort (advanceTo x s) with
  | none =>
    obtain ⟨hfailed, hnow, -⟩ := failSource_advanceTo (c := srcFlock) x h
    exact ⟨hnow, fun _ _ => hfailed⟩
  | some p =>
    refine ⟨(timePortLost_now p _).trans (advanceTo_waited x s), fun hhub hsilent => ?_⟩
    have hlost : timePortLost p (advanceTo x s) = failSource srcFlock (failTimePort p (advanceTo x s)) :=
      (if_pos hport).trans (followFlock_of_silent (by rwa [standbyHub_advanceTo]) hport (by
        simpa only [State.port, advanceTo_keeps_fl] using hsilent))
    dsimp only
    rw [hlost]
    exact (failSource_source (c := srcFlock) (by rwa [hlive])).1

theorem ppsInMissing_fails {s : State} {n : Nat} (hpps : s.air.ppsAt = some n)
    (h : (s.source 2).state = .usable ∨ (s.source 2).state = .qualifying) :
    Runs .ppsInMissing s [.air] fun t => (t.source 2).state = .failed ∧ t.air.ppsAt = none ∧ waited s t (n + tcOfS 2) := by
  refine runs_of_only (t := ppsInMissing s) rfl execPpsInMissing_only (by decide) ?_
  generalize hdeadline : n + tcOfS 2 = x
  have heq : ppsInMissing s = failSource srcPtp ((advanceTo x s).modAir (fun a => { a with ppsAt := none })) := by
    simp only [ppsInMissing, hpps, hdeadline]
  have hlive : (((advanceTo x s).modAir (fun a => { a with ppsAt := none })).source 2).state = (s.source 2).state := by
    rw [State.source, modAir_air]
    exact advanceTo_source_state x s 2
  obtain ⟨hfailed, hnow, hnone, -⟩ := failSource_source (c := srcPtp)
    (s := (advanceTo x s).modAir (fun a => { a with ppsAt := none })) (by rwa [hlive])
  rw [heq]
  exact ⟨hfailed, hnone, hnow.trans (advanceTo_waited x s)⟩

theorem sourceRetry_searches {s : State} {c : Nat} (h : (s.source c).state = .failed) :
    Runs (.sourceRetryTimer c) s [.air] fun t => (t.source c).state = .searching ∧
      waited s t ((s.source c).failedAt + tcPerSecond) := by
  refine runs_of_only (t := sourceRetry c s) rfl execSourceRetryTimer_only (by decide) ?_
  generalize hdeadline : (s.source c).failedAt + tcPerSecond = x
  have heq : sourceRetry c s = (advanceTo x s).modAir (fun a => { a with
      sources := a.sources.mod c (fun y => { y with state := .searching, run := 0 }) }) := by
    rw [← hdeadline]
    exact if_pos h
  rw [heq]
  exact ⟨by simp [State.source], advanceTo_waited x s⟩

/-- The first usable source ahead of the selected one is taken back once it has been usable for REVERT_HOLD (R33). -/
theorem revertHoldExpiry_selects {s : State} {c : Nat} (hrevert : s.air.config.revertive) (hzero : s.air.source ≠ 0)
    (hlisted : (selectionList s).contains s.air.source) (husable : sourceUsable s s.air.source)
    (hfind : ((selectionList s).takeWhile (fun x => x != s.air.source)).find? (sourceUsable s) = some c) :
    Runs .revertHoldExpiry s [.air] fun t => t.air.source = c ∧ t.air.lock = .acquiring ∧
      (s.source c).usableSince + tcOfMs s.air.config.revertHold ≤ t.now := by
  refine runs_of_only (t := revertHoldExpiry s) rfl execRevertHoldExpiry_only (by decide) ?_
  generalize hdeadline : (s.source c).usableSince + tcOfMs s.air.config.revertHold = x
  have heq : revertHoldExpiry s = reselect (advanceTo x s) := by
    simp only [revertHoldExpiry, hfind, hrevert, if_true, ← hdeadline]
  have hsame : sourceUsable (advanceTo x s) = sourceUsable s :=
    funext fun y => congrArg (· == SourceState.usable) (advanceTo_source_state x s y)
  have htime : x ≤ (advanceTo x s).now := (le_max_right ..).trans_eq (advanceTo_waited x s).symm
  have hheld : ((advanceTo x s).source c).usableSince + tcOfMs (advanceTo x s).air.config.revertHold ≤ (advanceTo x s).now := by
    obtain ⟨y, hsource⟩ := advanceTo_source x s c
    rw [hsource, advanceTo_config]
    exact hdeadline.trans_le htime
  have hfound : ((selectionList (advanceTo x s)).takeWhile (fun y => y != (advanceTo x s).air.source)).find?
      (sourceUsable (advanceTo x s)) = some c := by
    rwa [hsame, selectionList_advanceTo, advanceTo_air_source]
  obtain ⟨l, hcandidates⟩ := revertCandidates_head hfound hheld
  have hselect : reselect (advanceTo x s) = selectSource c (advanceTo x s) := by
    unfold reselect
    dsimp only
    rw [advanceTo_air_source, selectionList_advanceTo, hsame, if_pos ⟨hzero, hlisted, husable⟩, hcandidates]
    exact if_pos (by rwa [advanceTo_config])
  obtain ⟨hsource, hlock⟩ := selectSource_lock c (advanceTo x s)
  have hnow : (selectSource c (advanceTo x s)).now = (advanceTo x s).now := congrArg Prod.fst (selectSource_inputs ..)
  rw [heq, hselect]
  exact ⟨hsource, hlock, hnow ▸ htime⟩

/-- Settles O15: each deadline passes, and the source fails, is retried or is taken back. -/
theorem timingSourcesFailAndRetry : Obligations.TimingSourcesFailAndRetry := by
  unfold Obligations.TimingSourcesFailAndRetry
  exact fun s c n => ⟨donorSyncTimeout_fails, ptpSyncTimeout_fails, flockSourceTimeout_fails, ppsInMissing_fails,
    sourceRetry_searches, revertHoldExpiry_selects⟩

end Sys2Proof.Machine
end

section
set_option Elab.async false
/-! Air time that locks, steps and is lost (R37, R40, R45): TIME_LOSS where the allowance of slewing is out of its range. -/

namespace Sys2Proof.Machine

open Sys2Proof

/-- The error estimate exceeds its limit by the phase of the selected source alone, all of which is still to be slewed, and the
allowance of SLEW_RATE that is left over is not below 2^−16 Tc. -/
def slewOwed : State := { State.reset with
  air := { State.reset.air with
    lock := .locked, acquired := true, source := 1, sources := State.reset.air.sources.set 1 { state := .usable, phase := 10 ^ 12 }
    slewLeft := 10 ^ 12, slewRem := 10 ^ 21 } }

/-- An advance by no time at all takes the whole phase away, so the estimate is within its limit and TIME_LOSS is not raised. -/
theorem timeErrLimitExceeded_slewOwed : holding (timeErrLimitExceeded slewOwed) 0x82 partUnit = false := by decide +kernel

/-- A scheduled command: the clause that fails does not speak of it. -/
def anyScheduled : Scheduled :=
  { handle := 0, at_ := .mono 0, late := false, opcode := 0, payload := [], tag := 0, mailbox := 0, path := .none
    session := 0, role := .monitor }

/-- Refutes O17: `slewRem` is the allowance of SLEW_RATE that is left over, below 2^−16 Tc (R48). The statement does not ask for that
range, and beyond it the advance to the instant of TIME_ERR_LIMIT, of no time at all, slews. -/
theorem not_airTimeLocksStepsAndLoses : ¬ Obligations.AirTimeLocksStepsAndLoses := by
  unfold Obligations.AirTimeLocksStepsAndLoses
  intro h
  obtain ⟨-, -, -, hloss, -⟩ := h slewOwed ⟨0, 0⟩ 0 0 anyScheduled
  obtain ⟨-, hholds, -⟩ := (hloss (by decide +kernel) (by decide +kernel)).of_exec (t := timeErrLimitExceeded slewOwed) rfl
  rw [timeErrLimitExceeded_slewOwed] at hholds
  exact absurd hholds (by decide)

end Sys2Proof.Machine
end

section
set_option Elab.async false
/-! The inputs of the timing sources (R32, R39, R417, R500, R513): what each leaves of its source. -/

namespace Sys2Proof.Machine

open Sys2Proof

theorem source_of_inputs {s t : State} (h : t.air.inputs = s.air.inputs) (c : Nat) : t.source c = s.source c := by
  simp only [AirState.inputs, Prod.mk.injEq] at h
  rw [State.source, h.2.1]

/-- The source after a measurement. -/
def TimeSource.measured (x : TimeSource) (phase : Int) (bound : Nat) (freq : Int) (t : Nat) : TimeSource :=
  { x with phase := phase, bound := bound, freq := freq, lastAt := t }

theorem measureSource_sources (c : Nat) (phase : Int) (bound : Nat) (freq : Int) (s : State) :
    (measureSource c phase bound freq s).air.sources =
      s.air.sources.mod c (fun x => x.measured phase bound freq s.air.mono) := by
  simp only [measureSource, modAir_air]
  split <;> rfl

/-- A measurement leaves the edges and the times of PTP alone. -/
theorem measureSource_times (c : Nat) (phase : Int) (bound : Nat) (freq : Int) (s : State) :
    (measureSource c phase bound freq s).air.ptpAt = s.air.ptpAt ∧
      (measureSource c phase bound freq s).air.ptpGoodFrom = s.air.ptpGoodFrom ∧
      (measureSource c phase bound freq s).air.ppsAt = s.air.ppsAt := by
  simp only [measureSource, modAir_air]
  split <;> exact ⟨rfl, rfl, rfl⟩

theorem measureSource_source (c : Nat) (phase : Int) (bound : Nat) (freq : Int) (s : State) :
    (measureSource c phase bound freq s).source c = (s.source c).measured phase bound freq s.now := by
  rw [State.source, measureSource_sources, get_mod_same]

/-- A source that has become USABLE keeps its time. -/
theorem becomeUsable_source (c : Nat) (s : State) :
    ((becomeUsable c s).source c).state = .usable ∧ ((becomeUsable c s).source c).lastAt = (s.source c).lastAt := by
  simp only [becomeUsable, State.source, modAir_air, get_mod_same]
  split
  next h => exact ⟨h, rfl⟩
  · exact ⟨rfl, rfl⟩

/-- A setting of wall time leaves the inputs alone. -/
theorem setWall_inputs (t kind : Nat) (s : State) : (setWall t kind s).air.inputs = s.air.inputs := by
  unfold setWall
  extract_lets old d s1
  have hs1 : s1.air = s.air := by
    unfold s1
    split <;> rfl
  split
  · rfl
  · rw [submitLog_only (Only.refl 8 _) rfl .air rfl, modAir_air, hs1]
    rfl

/-- What a detection that counts does: the source is seen now, and stays QUALIFYING or USABLE. A USABLE one loses that only by a
change of the spacing. -/
theorem donorDetection_source {s : State} {i : DonorInput} (hvalid : i.valid) (hpath : i.path = s.air.config.donorPath)
    (hfailed : (s.source 1).state ≠ .failed) (habsent : (s.source 1).state ≠ .absent) :
    ((donorDetection i s).source 1).lastAt = s.now ∧
      (((donorDetection i s).source 1).state = .qualifying ∨ ((donorDetection i s).source 1).state = .usable) ∧
      ((s.source 1).state = .usable → ((donorDetection i s).source 1).state =
        (if spacingChanged i.nr s.air.donorPeriod s.air.detections
          ⟨2 * i.sfn + flag i.second, i.timing - s.air.config.donorDelay⟩ then .qualifying else .usable)) := by
  have husable : sourceUsable s srcDonor = ((s.source 1).state == .usable) := rfl
  unfold donorDetection
  extract_lets d prev period kept restart s1 s2
  rw [if_neg (by simp only [hvalid, hpath]; tauto)]
  by_cases hu : (s.source 1).state = .usable
  · have hu' : sourceUsable s srcDonor = true := by rw [husable, hu]; rfl
    by_cases hchanged : spacingChanged i.nr s.air.donorPeriod s.air.detections d
    · rw [if_pos ⟨hu', hchanged⟩]
      have hsame : (if s.air.source = srcDonor then reselect s1 else s1).source 1 = s1.source 1 := by
        split
        · exact source_of_inputs (reselect_inputs s1) 1
        · rfl
      have hs1 : s1.source 1 = { s.source 1 with state := .qualifying, run := 1, lastAt := s.now } := get_mod_same ..
      rw [hsame, hs1]
      exact ⟨rfl, .inl rfl, fun _ => (if_pos hchanged).symm⟩
    · rw [if_neg (fun h => hchanged h.2), if_pos hu', measureSource_source]
      have hseen : (s.modAir (fun a => { a with
          detections := (a.detections ++ [d]).drop (a.detections.length + 1 - 8)
          sources := a.sources.mod srcDonor (fun x => { x with lastAt := a.mono }) })).source srcDonor =
          { s.source 1 with lastAt := s.now } := get_mod_same ..
      rw [hseen]
      exact ⟨rfl, .inr hu, fun _ => hu.trans (if_neg hchanged).symm⟩
  · have hu' : ¬sourceUsable s srcDonor = true := by rw [husable]; simpa using hu
    rw [if_neg (fun h => hu' h.1), if_neg hu']
    have hnew (x : List DonorDetection) (p : Nat) (f : Nat → Nat) : (s.modAir (fun a => { a with
        detections := x, donorPeriod := p
        sources := a.sources.mod srcDonor (fun x => { x with state := .qualifying, run := f x.run, lastAt := a.mono }) })).source
          srcDonor = { s.source 1 with state := .qualifying, run := f (s.source 1).run, lastAt := s.now } := get_mod_same ..
    split
    · have hs := hnew [d] (if i.nr then 0 else 10) (fun _ => 1)
      exact ⟨congrArg TimeSource.lastAt hs, .inl (congrArg TimeSource.state hs), fun h => absurd h hu⟩
    · have hs2 : s2.source srcDonor = _ := hnew (kept.drop (kept.length - 8)) period (· + 1)
      split
      · obtain ⟨hstate, hlast⟩ := becomeUsable_source srcDonor
          (measureSource srcDonor (donorPhase s2.air d) (1000 * i.bound) i.freq s2)
        rw [measureSource_source] at hlast
        exact ⟨hlast, .inr hstate, fun h => absurd h hu⟩
      · exact ⟨congrArg TimeSource.lastAt hs2, .inl (congrArg TimeSource.state hs2), fun h => absurd h hu⟩

/-- What a Sync message that counts keeps: its time, the start of the run of good offsets, and a USABLE source once the run has
lasted 2 s (R513). -/
theorem ptpSyncRx_ptp {s : State} {m : PtpInput} (hcounts : ptpCounts s.host.net m) (hfailed : (s.source 2).state ≠ .failed)
    (habsent : (s.source 2).state ≠ .absent) :
    (ptpSyncRx m s).air.ptpAt = some (m.time, s.now) ∧ (100 < m.offset.natAbs → (ptpSyncRx m s).air.ptpGoodFrom = none) ∧
      (∀ t0, m.offset.natAbs ≤ 100 → s.air.ptpGoodFrom = some t0 → t0 + 2000000000 ≤ m.time →
        ((ptpSyncRx m s).source 2).state = .usable) := by
  unfold ptpSyncRx
  extract_lets st good s1 s2 s3
  rw [if_neg (by simp only [st, hcounts]; tauto)]
  obtain ⟨hat, hfrom, -⟩ : s2.air.ptpAt = s1.air.ptpAt ∧ s2.air.ptpGoodFrom = s1.air.ptpGoodFrom ∧ _ :=
    measureSource_times srcPtp (ptpPhase s1.air m.time) (1000 * m.bound) m.freq s1
  have hs3 : s3.air.ptpAt = s2.air.ptpAt ∧ s3.air.ptpGoodFrom = s2.air.ptpGoodFrom := by
    unfold s3
    split
    · split <;> exact ⟨rfl, rfl⟩
    · exact ⟨rfl, rfl⟩
  have hset : (if sourceUsable s3 srcPtp then setWall m.time 0 s3 else s3).air.inputs = s3.air.inputs := by
    split
    · exact setWall_inputs ..
    · rfl
  have hset' := hset
  simp only [AirState.inputs, Prod.mk.injEq] at hset'
  obtain ⟨-, -, -, hgood, hptp, -⟩ := hset'
  refine ⟨?_, fun hfar => ?_, fun t0 hnear hfrom0 htime => ?_⟩
  · rw [hptp, hs3.1, hat]
    rfl
  · rw [hgood, hs3.2, hfrom]
    exact if_neg (by simpa [good] using hfar)
  · have hrun : s2.air.ptpGoodFrom = some t0 := by
      rw [hfrom]
      simp only [s1, modAir_air, good, hnear, decide_true, if_true, hfrom0]
    have hthree : s3 = becomeUsable srcPtp s2 := by
      simp only [s3, hrun, htime, if_true]
    rw [source_of_inputs hset, hthree]
    exact (becomeUsable_source srcPtp s2).1

theorem ppsInEdge_kept {s : State} {w : Nat} (hlow : 100 ≤ w) (hhigh : w ≤ 900000000) :
    (ppsInEdge w s).air.ppsAt = some s.now := by
  unfold ppsInEdge
  extract_lets s1
  rw [if_neg (by omega)]
  split
  · extract_lets here second x
    split
    · exact (measureSource_times ..).2.2
    · rfl
  · rfl

/-- Settles O16: each input's own equation. -/
theorem timingInputsQualifySources : Obligations.TimingInputsQualifySources := by
  unfold Obligations.TimingInputsQualifySources
  intro s i m w f b
  refine ⟨fun hvalid hpath hfailed habsent => ?_, fun hcounts hfailed habsent => ?_, fun hlow hhigh => ?_, fun hout => ?_, ?_, ?_⟩
  · exact runs_of_only (t := donorDetection i s) rfl execDonorDetection_only (by decide)
      (donorDetection_source hvalid hpath hfailed habsent)
  · exact runs_of_only (t := ptpSyncRx m s) rfl execPtpSyncRx_only (by decide) (ptpSyncRx_ptp hcounts hfailed habsent)
  · exact runs_of_only (t := ppsInEdge w s) rfl execPpsInEdge_only (by decide) (ppsInEdge_kept hlow hhigh)
  · exact congrArg Host.Outcome.next (if_pos hout)
  · refine runs_of_only (t := refInQualify f s) rfl execRefInQualify_only (by decide) ?_
    unfold refInQualify
    extract_lets s1
    refine ⟨s1.air, rfl, fun hnear => ?_, fun hfar => ?_⟩
    · rw [if_pos hnear]
      rfl
    · rw [if_neg (by omega)]
      rfl
  · exact runs_of_only (t := refInLoss b s) rfl execRefInLoss_only (by decide) rfl

end Sys2Proof.Machine
end

section
set_option Elab.async false
/-! What the operations leave of a chain (R64–R69), and the conditions of faults (R366). -/

namespace Sys2Proof.Machine

open Sys2Proof

/-! Conditions: a level that was raised holds. -/

theorem holding_raiseFault (r : Raise) (s : State) : holding (raiseFault r s) r.cls r.unit := by
  simp [conditionHolds, raiseFault]

theorem holding_raiseLevel (r : Raise) (s : State) : holding (raiseLevel r s) r.cls r.unit := by
  unfold raiseLevel
  split
  next h => exact h
  next => exact holding_raiseFault r s

/-! A chain after the operations on it. -/

theorem chain_of_rf {s t : State} (h : t.rf = s.rf) (c : Nat) : t.chain c = s.chain c := by rw [State.chain, h]

@[simp] theorem modChain_chain (c : Nat) (f : Chain → Chain) (s : State) : (modChain c f s).chain c = f (s.chain c) :=
  get_mod_same ..

/-- Completions leave the front end alone. -/
theorem foldl_complete_rf {α : Type} (l : List α) (g : α → Ticket) (st : Status) (s : State) :
    (l.foldl (fun acc t => complete (g t) st 0 acc) s).rf = s.rf :=
  (Only.refl 2 s).foldl (fun _ _ h => complete_only h rfl) .rf rfl

/-- A chain that has become ACTIVE: only its attenuation and what no clause speaks of may differ besides. -/
theorem becomeActive_chain (c : Nat) (s : State) : ∃ a st, (becomeActive c s).chain c = { s.chain c with
    fe := .active, ret := .active, activateAt := if (s.chain c).held.isSome then (s.chain c).activateAt else none
    enabling := [], outputOff := false, gapped := (s.chain c).gapped && !(s.chain c).locked
    atten := a, attenStore := st } := by
  unfold becomeActive
  extract_lets x s1
  have hs1 : s1.chain c = _ := modChain_chain ..
  rw [chain_of_rf (foldl_complete_rf ..)]
  split
  · split
    · exact ⟨_, _, hs1⟩
    · rw [chain_of_rf chainDeliversAgain_keeps_rf, takeStored, modChain_chain, hs1]
      split <;> exact ⟨_, _, rfl⟩
  · rw [chain_of_rf refreshGains_keeps_rf]
    exact ⟨_, _, hs1⟩

/-- A chain whose retune was declared locked after `us` µs. -/
def Chain.LockedIn (us : Nat) (y : Chain) : Prop :=
  y.locked ∧ y.op = none ∧ y.lockUs = us % 65536 ∧ (y.fe = .ready ∨ y.fe = .active)

/-- A chain whose lock is declared (R66–R68). -/
theorem lockDeclared_chain {c us : Nat} {s : State} {o : RfOp} (h : (s.chain c).op = some o) :
    ((lockDeclared c us s).chain c).LockedIn us := by
  unfold lockDeclared
  extract_lets x toActive slot
  have hx : x.op = some o := h
  rw [hx]
  dsimp -zeta only
  extract_lets atLock s1 s2 s3
  have hs1 : s1.chain c = { x with
      fe := .ready, locked := true, op := none, lockUs := us % 65536, relockBy := none, previous := none, deadline_ := none
      activateAt := if (toActive && !atLock) || x.held.isSome || !x.enabling.isEmpty then some slot else none } :=
    get_set_same ..
  have hs3 : s3.chain c = s1.chain c := by
    rw [chain_of_rf (foldl_complete_rf ..), chain_of_rf endFault_keeps_rf, chain_of_rf completeOpt_keeps_rf]
  rw [hs1] at hs3
  split
  · obtain ⟨a, st, hactive⟩ := becomeActive_chain c s3
    rw [hactive, hs3]
    exact ⟨rfl, rfl, rfl, .inr rfl⟩
  · rw [chain_of_rf refreshGains_keeps_rf, hs3]
    exact ⟨rfl, rfl, rfl, .inl rfl⟩

/-- A chain that lost its lock is locked again and stays in its state (R66). -/
theorem synthLock_chain {c us : Nat} {s : State} (hop : (s.chain c).op = none) (hoff : (s.chain c).fe ≠ .off)
    (hlocked : ¬(s.chain c).locked) :
    ((synthLock c us s).chain c).locked ∧ ((synthLock c us s).chain c).fe = (s.chain c).fe := by
  unfold synthLock
  extract_lets x s1
  have hx : x.op = none := hop
  rw [hx]
  dsimp -zeta only
  rw [if_neg (not_or.mpr ⟨hoff, hlocked⟩)]
  have hs1 : (s1.chain c).locked ∧ (s1.chain c).fe = (s.chain c).fe := by
    rw [chain_of_rf endFault_keeps_rf, modChain_chain]
    exact ⟨rfl, rfl⟩
  split
  · rw [chain_of_rf chainDeliversAgain_keeps_rf, takeStored, modChain_chain]
    split <;> exact hs1
  · exact hs1

/-- A synthesiser of a READY or ACTIVE chain unlocks (R66). -/
theorem synthUnlock_chain {c : Nat} {s : State} (hc : c ≠ 16) (hfe : (s.chain c).fe = .ready ∨ (s.chain c).fe = .active) :
    ¬((synthUnlock c s).chain c).locked ∧ ((synthUnlock c s).chain c).unlocks = (s.chain c).unlocks + 1 ∧
      (c < 8 ∨ (s.chain c).fe = .active → holding (synthUnlock c s) 0x10 (chainUnit c)) := by
  unfold synthUnlock
  extract_lets x busy bell tx s1
  rw [if_neg hc, if_pos hfe]
  have hs1 : s1.chain c = _ := modChain_chain ..
  split
  next h =>
    rw [hs1]
    refine ⟨Bool.false_ne_true, rfl, fun hnot => ?_⟩
    simp only [tx, x, Bool.and_eq_true, decide_eq_true_eq, beq_iff_eq] at h
    obtain ⟨htx, hready⟩ := h
    rcases hnot with hrx | hactive
    · omega
    · rw [State.chain, hready] at hactive
      cases hactive
  next =>
    rw [chain_of_rf raiseLevel_keeps_rf, chain_of_rf refreshGains_keeps_rf, hs1]
    exact ⟨Bool.false_ne_true, rfl, fun _ => holding_raiseLevel _ _⟩

theorem synthUnlock_bell (s : State) : (synthUnlock 16 s).rf = { s.rf with bellLocked := false } := by
  unfold synthUnlock
  extract_lets x busy s1
  rw [if_pos rfl]
  split
  · rw [raiseMoment_keeps_rf]; rfl
  · rfl

/-- The slot boundary of a chain that is to be ACTIVE (R67). -/
theorem chainActivate_chain {c : Nat} {s : State} {i : AirInstant} (hat : (s.chain c).activateAt = some i)
    (hheld : (s.chain c).held = none) (hoff : (s.chain c).offAt = none) (hlock : c < 8 ∨ (s.chain c).locked)
    (hwants : (s.chain c).ret = .active ∨ (s.chain c).enabling ≠ []) :
    ((chainActivate c s).chain c).fe = .active ∧ ((chainActivate c s).chain c).activateAt = none ∧
      ((chainActivate c s).chain c).enabling = [] := by
  have h : chainActivate c s =
      becomeActive c (modChain c (fun y => { y with activateAt := none, held := none }) (advanceToAir i s)) := by
    unfold chainActivate
    extract_lets x awaits
    have hgo : (wantsActive x && !awaits) = true := by
      have hawaits : awaits = false := by
        simp only [awaits, Bool.and_eq_false_iff, decide_eq_false_iff_not, Bool.not_eq_false']
        exact hlock.imp (by omega) id
      rw [hawaits, wantsActive]
      rcases hwants with h | h
      · simp [x, h]
      · simp [x, h]
    rw [show x.offAt = none from hoff, show x.activateAt = some i from hat, show x.held = none from hheld]
    exact if_pos hgo
  obtain ⟨a, st, hactive⟩ := becomeActive_chain c
    (modChain c (fun y => { y with activateAt := none, held := none }) (advanceToAir i s))
  rw [modChain_chain] at hactive
  rw [h, hactive]
  exact ⟨rfl, rfl, rfl⟩

theorem powerDown_fe (c : Nat) (s : State) : ((powerDown c s).chain c).fe = .off := by
  unfold powerDown
  extract_lets x s1 runs s2
  have hs2 : s2.chain c = s1.chain c := by
    rw [chain_of_rf completeOpt_keeps_rf, chain_of_rf (foldl_complete_rf ..)]
  have hs1 : (s1.chain c).fe = .off := congrArg Chain.fe (get_set_same ..)
  rw [chain_of_rf endFault_keeps_rf]
  split
  · rw [chain_of_rf chainStops_keeps_rf, hs2, hs1]
  · rw [chain_of_rf refreshGains_keeps_rf, hs2, hs1]

/-- A chain on which an operation starts keeps its window, its held command and its limit of R69. -/
theorem startOp_chain (c : Nat) (o : RfOp) (s : State) :
    ((startOp c o s).chain c).window = (s.chain c).window ∧ ((startOp c o s).chain c).held = (s.chain c).held ∧
      ((startOp c o s).chain c).relockBy = (s.chain c).relockBy ∧
      (((startOp c o s).chain c).fe = .locking ∨ ((startOp c o s).chain c).fe = .calibrating) := by
  unfold startOp
  extract_lets x back s1
  have hs1 : s1.chain c = _ := get_set_same ..
  have hfe : (s1.chain c).fe = .locking ∨ (s1.chain c).fe = .calibrating := by
    rw [hs1]
    dsimp only
    split
    · exact .inl rfl
    · exact .inr rfl
  have hrest : (s1.chain c).window = (s.chain c).window ∧ (s1.chain c).held = (s.chain c).held ∧
      (s1.chain c).relockBy = (s.chain c).relockBy := by
    rw [hs1]
    exact ⟨rfl, rfl, rfl⟩
  split
  · rw [chain_of_rf chainStops_keeps_rf]
    exact ⟨hrest.1, hrest.2.1, hrest.2.2, hfe⟩
  · rw [chain_of_rf refreshGains_keeps_rf]
    exact ⟨hrest.1, hrest.2.1, hrest.2.2, hfe⟩

/-- The state in which a configuration has timed out and its command has completed (R69). -/
def configFailed (c d : Nat) (s : State) : State :=
  completeOpt (((s.chain c).op.bind (·.ticket)) <|> (s.chain c).opTicket) .eNotReady 0 (modChain c (fun y => { y with
    deadline_ := none, opTicket := none, op := y.op.map (fun o => { o with ticket := none }) }) (advanceTo d s))

theorem configFailed_waited (c d : Nat) (s : State) : waited s (configFailed c d s) d := by
  rw [waited, configFailed, completeOpt_keeps_air, modChain_keeps_air]
  exact advanceTo_waited d s

/-- A chain that was OFF before the configuration that has not locked in time is OFF (R69). -/
theorem configTimeout_off {c d : Nat} {s : State} {w : RfWindow} (hprevious : (s.chain c).previous = some (w, .off)) :
    waited s (configTimeout c d s) d ∧ ((configTimeout c d s).chain c).fe = .off := by
  have h : configTimeout c d s = powerDown c (dropHeld c .eNotReady (configFailed c d s)) := by
    rw [configTimeout, show (s.rf.chains.get c).previous = some (w, .off) from hprevious]
    rfl
  rw [h, waited, powerDown_keeps_air, dropHeld_only (Only.refl 34 _) rfl .air rfl]
  exact ⟨configFailed_waited c d s, powerDown_fe ..⟩

/-- Any other chain goes back to its previous window, with a limit for the lock (R69). -/
theorem configTimeout_back {c d : Nat} {s : State} {w : RfWindow} {f : FeState} (hprevious : (s.chain c).previous = some (w, f))
    (hf : f ≠ .off) :
    waited s (configTimeout c d s) d ∧ ((configTimeout c d s).chain c).window = w ∧
      ((configTimeout c d s).chain c).relockBy ≠ none ∧
      (((configTimeout c d s).chain c).fe = .locking ∨ ((configTimeout c d s).chain c).fe = .calibrating) := by
  have h : ∃ o, configTimeout c d s = startOp c o (bandsRetuned c (modChain c (fun y => { y with
      window := w, ret := f, previous := none, op := none
      relockBy := some (now (configFailed c d s) + tcOfMs 2) }) (configFailed c d s))) := by
    rw [configTimeout, show (s.rf.chains.get c).previous = some (w, f) from hprevious]
    cases f
    case off => exact absurd rfl hf
    all_goals exact ⟨_, rfl⟩
  obtain ⟨o, h⟩ := h
  rw [h]
  obtain ⟨hwindow, -, hrelock, hfe⟩ := startOp_chain c o (bandsRetuned c (modChain c (fun y => { y with
      window := w, ret := f, previous := none, op := none
      relockBy := some (now (configFailed c d s) + tcOfMs 2) }) (configFailed c d s)))
  rw [chain_of_rf bandsRetuned_keeps_rf, modChain_chain] at hwindow hrelock
  refine ⟨?_, hwindow, ?_, hfe⟩
  · rw [waited, startOp_keeps_air, bandsRetuned_keeps_air]
    exact configFailed_waited c d s
  · rw [hrelock]
    exact Option.some_ne_none _

/-- A chain that tries its LO again keeps its held command; without lock and operation it has a limit (R69). -/
theorem relockHere_chain (c : Nat) (s : State) : ((relockHere c s).chain c).held = (s.chain c).held ∧
    ((s.chain c).op = none → ¬(s.chain c).locked → ((relockHere c s).chain c).relockBy ≠ none) := by
  unfold relockHere
  extract_lets x limit
  cases hop : x.op with
  | some o =>
    dsimp only
    refine ⟨?_, fun h => absurd h (Option.some_ne_none o)⟩
    split
    · rw [modChain_chain]
    · rfl
  | none =>
    dsimp only
    split
    next h => exact ⟨rfl, fun _ hnot => absurd h hnot⟩
    next =>
      rw [modChain_chain]
      exact ⟨(startOp_chain c _ s).2.1, fun _ _ => Option.some_ne_none _⟩

theorem enableTimeout_chain {c d : Nat} {k : Ticket} {s : State} {n : Nat} (hheld : (s.chain c).held = some (.txEnable k n)) :
    ((enableTimeout c k d s).chain c).held = none ∧ waited s (enableTimeout c k d s) d ∧
      ((s.chain c).op = none → ¬(s.chain c).locked → ((enableTimeout c k d s).chain c).relockBy ≠ none) := by
  unfold enableTimeout
  extract_lets s1
  have hs1 : s1.chain c = { s.chain c with held := none } := by
    have hadvance : (advanceTo d s).chain c = s.chain c := chain_of_rf advanceTo_keeps_rf c
    rw [modChain_chain, hadvance, hheld]
    rfl
  have hcomplete : (complete k .eNotReady 0 s1).chain c = { s.chain c with held := none } := by
    rw [chain_of_rf complete_keeps_rf, hs1]
  obtain ⟨hkeeps, hrelock⟩ := relockHere_chain c (complete k .eNotReady 0 s1)
  rw [hcomplete] at hkeeps hrelock
  refine ⟨hkeeps, ?_, hrelock⟩
  rw [waited, relockHere_only (Only.refl 484 _) rfl .air rfl, complete_keeps_air, modChain_keeps_air]
  exact advanceTo_waited d s

theorem attenDeferredApply_chain {c v n : Nat} {s : State} (hwait : (s.chain c).attenWait = some v)
    (hat : (s.chain c).attenAt = some n) :
    ((attenDeferredApply c s).chain c).atten = v ∧ ((attenDeferredApply c s).chain c).attenWait = none ∧
      waited s (attenDeferredApply c s) (n + tcOfUs 1) ∧
      ((attenDeferredApply c s).chain c).attenAt = some (attenDeferredApply c s).now := by
  unfold attenDeferredApply
  extract_lets x
  have hxw : x.attenWait = some v := hwait
  have hxa : x.attenAt = some n := hat
  rw [hxw, hxa]
  dsimp only
  have hair : (applyAtten c v (advanceTo (n + tcOfUs 1) s)).air = (advanceTo (n + tcOfUs 1) s).air := applyAtten_keeps_air
  have hchain : (applyAtten c v (advanceTo (n + tcOfUs 1) s)).chain c = { s.chain c with
      atten := v, attenOld := (s.chain c).atten, attenAt := some (now (advanceTo (n + tcOfUs 1) s)), attenWait := none
      attenStore := none } := by
    rw [applyAtten, chain_of_rf markStep_keeps_rf, modChain_chain, chain_of_rf advanceTo_keeps_rf]
  rw [hchain, waited, hair, State.now, hair]
  exact ⟨rfl, rfl, advanceTo_waited _ s, rfl⟩

end Sys2Proof.Machine
end

section
set_option Elab.async false
/-! The synthesisers (R64–R69). -/

namespace Sys2Proof.Machine

open Sys2Proof

/-- Settles O20, row by row. -/
theorem synthesisersLockAndUnlock : Obligations.SynthesisersLockAndUnlock := by
  unfold Obligations.SynthesisersLockAndUnlock
  intro s c us n o i w f k v
  refine ⟨fun hop hkind => ?_, fun hop hoff hlocked => ?_, fun hc hfe => ?_, ?_, fun hat hheld hoff hlock hwants => ?_,
    fun hoff => ?_, fun hdeadline hwaiting hprevious => ?_, fun hdeadline hheld => ?_, fun hrelock => ?_, fun hwait hat => ?_⟩
  · refine runs_of_only (t := synthLock c us s) rfl execSynthLock_only (by decide) ?_
    have h : synthLock c us s = lockDeclared c us (advanceTo (o.startedAt + tcOfUs us) s) := by
      rw [synthLock, show (s.rf.chains.get c).op = some o from hop]
      exact if_pos hkind
    rw [h]
    exact lockDeclared_chain ((congrArg Chain.op (chain_of_rf advanceTo_keeps_rf c)).trans hop)
  · exact runs_of_only (t := synthLock c us s) rfl execSynthLock_only (by decide) (synthLock_chain hop hoff hlocked)
  · exact runs_of_only (t := synthUnlock c s) rfl execSynthUnlock_only (by decide) (synthUnlock_chain hc hfe)
  · exact runs_of_only (t := synthUnlock 16 s) rfl execSynthUnlock_only (by decide) (synthUnlock_bell s)
  · exact runs_of_only (t := chainActivate c s) rfl execChainActivate_only (by decide)
      (chainActivate_chain hat hheld hoff hlock hwants)
  · refine runs_of_only (t := chainActivate c s) rfl execChainActivate_only (by decide) ?_
    have h : chainActivate c s = powerDown c (advanceTo n s) := by
      rw [chainActivate, show (s.rf.chains.get c).offAt = some (n, k) from hoff]
    rw [h, waited, powerDown_keeps_air]
    exact ⟨powerDown_fe .., advanceTo_waited n s⟩
  · refine runs_of_only (t := lockTimeout c s) rfl execLockTimeout_only (by decide) ?_
    have h : lockTimeout c s = configTimeout c n s := by
      rw [lockTimeout, show (s.rf.chains.get c).deadline_ = some n from hdeadline,
        show waitingEnable (s.rf.chains.get c) = none from hwaiting]
    rw [h]
    by_cases hf : f = .off
    · subst hf
      obtain ⟨hwaited, hfe⟩ := configTimeout_off hprevious
      exact ⟨hwaited, fun _ => hfe, fun hne => absurd rfl hne⟩
    · obtain ⟨hwaited, hback⟩ := configTimeout_back hprevious hf
      exact ⟨hwaited, fun heq => absurd heq hf, fun _ => hback⟩
  · refine runs_of_only (t := lockTimeout c s) rfl execLockTimeout_only (by decide) ?_
    have h : lockTimeout c s = enableTimeout c k n s := by
      have hwaiting : waitingEnable (s.rf.chains.get c) = some (k, n) := by
        rw [waitingEnable, show (s.rf.chains.get c).held = some (.txEnable k n) from hheld]
      rw [lockTimeout, show (s.rf.chains.get c).deadline_ = none from hdeadline, hwaiting]
    rw [h]
    exact enableTimeout_chain hheld
  · refine runs_of_only (t := relockTimeout c s) rfl execRelockTimeout_only (by decide) ?_
    have h : relockTimeout c s = raiseLevel { cls := 0x10, unit := chainUnit c }
        (modChain c (fun y => { y with relockBy := none }) (advanceTo n s)) := by
      rw [relockTimeout, show (s.rf.chains.get c).relockBy = some n from hrelock]
    rw [h, chain_of_rf raiseLevel_keeps_rf, modChain_chain]
    exact ⟨rfl, holding_raiseLevel _ _⟩
  · exact runs_of_only (t := attenDeferredApply c s) rfl execAttenDeferredApply_only (by decide)
      (attenDeferredApply_chain hwait hat)

end Sys2Proof.Machine
end

section
set_option Elab.async false
/-! What the operations leave of the band paths. A refresh of the gains notes gaps of ingress band paths and touches nothing else of
the channel engine (R105, R107); changes and settles touch the band paths alone. -/

namespace Sys2Proof.Machine

open Sys2Proof

/-- What every step of a fold keeps, the fold keeps. -/
theorem foldl_keeps {α β : Type} {f : State → α → State} (g : State → β) (hf : ∀ s x, g (f s x) = g s) (l : List α) (s : State) :
    g (l.foldl f s) = g s := by
  induction l generalizing s with
  | nil => rfl
  | cons x l ih => exact (ih _).trans (hf s x)

/-! Gaps. -/

/-- A band path without what a gap leaves on it. -/
def BandPath.sansGap (b : BandPath) : BandPath := { b with gapSince := none, marks := [] }

/-- From `s` to `t` the channel engine may have noted gaps of ingress band paths, and nothing else. -/
structure GapsOnly (s t : State) : Prop where
  ib : ∀ n, (t.ce.ib.get n).map BandPath.sansGap = (s.ce.ib.get n).map BandPath.sansGap
  rest : { t.ce with ib := s.ce.ib } = s.ce

namespace GapsOnly

theorem of_ce {s t : State} (h : t.ce = s.ce) : GapsOnly s t := ⟨fun _ => by rw [h], by rw [h]⟩

theorem trans {s t u : State} (h : GapsOnly s t) (k : GapsOnly t u) : GapsOnly s u := by
  refine ⟨fun n => (k.ib n).trans (h.ib n), ?_⟩
  have hrest := congrArg (fun c : CeState => { c with ib := s.ce.ib }) k.rest
  exact hrest.trans h.rest

theorem foldl {α : Type} {f : State → α → State} (hf : ∀ s x, GapsOnly s (f s x)) (l : List α) (s : State) :
    GapsOnly s (l.foldl f s) := by
  induction l generalizing s with
  | nil => exact of_ce rfl
  | cons x l ih => exact (hf s x).trans (ih _)

theorem eb {s t : State} (h : GapsOnly s t) : t.ce.eb = s.ce.eb := (congrArg CeState.eb h.rest :)

theorem dpd {s t : State} (h : GapsOnly s t) : t.ce.dpd = s.ce.dpd := (congrArg CeState.dpd h.rest :)

theorem ingress {s t : State} (h : GapsOnly s t) {n : Nat} {b : BandPath} (hb : s.ce.ib.get n = some b) :
    ∃ g m, t.ce.ib.get n = some { b with gapSince := g, marks := m } := by
  have hib := h.ib n
  rw [hb] at hib
  cases ht : t.ce.ib.get n with
  | none => rw [ht] at hib; cases hib
  | some x =>
    rw [ht] at hib
    simp only [Option.map_some, Option.some.injEq] at hib
    refine ⟨x.gapSince, x.marks, congrArg some ?_⟩
    exact (congrArg (fun y : BandPath => { y with gapSince := x.gapSince, marks := x.marks }) hib :)

theorem bandPath {s t : State} (h : GapsOnly s t) {d : Dir} {n : Nat} {b : BandPath} (hb : bandPath s d n = some b) :
    ∃ g m, Machine.bandPath t d n = some { b with gapSince := g, marks := m } := by
  cases d with
  | ingress => exact h.ingress hb
  | egress =>
    refine ⟨b.gapSince, b.marks, ?_⟩
    rw [Machine.bandPath, h.eb]
    exact hb

theorem modNp (f : NpState → NpState) (s : State) : GapsOnly s (s.modNp f) := of_ce rfl

end GapsOnly

/-! Changes of one band path. -/

@[simp] theorem bandPath_modBand (d : Dir) (n : Nat) (f : BandPath → BandPath) (s : State) :
    bandPath (modBand d n f s) d n = (bandPath s d n).map f := by
  cases d
  case ingress =>
    simp only [bandPath, modBand, State.modCe]
    split
    next => exact get_mod_same ..
    next h =>
      rw [Option.not_isSome_iff_eq_none.mp h]
      rfl
  case egress =>
    simp only [bandPath, modBand, State.modCe]
    split
    next => exact get_mod_same ..
    next h =>
      rw [Option.not_isSome_iff_eq_none.mp h]
      rfl

theorem bandPath_of_ce {s t : State} (h : t.ce = s.ce) (d : Dir) (n : Nat) : bandPath t d n = bandPath s d n := by
  cases d <;> rw [bandPath, bandPath, h]

theorem gapsOnly_modBand {n : Nat} {f : BandPath → BandPath} (hf : ∀ b, (f b).sansGap = b.sansGap) (s : State) :
    GapsOnly s (modBand .ingress n f s) := by
  refine ⟨fun k => ?_, ?_⟩
  · by_cases hk : k = n
    · subst hk
      have h : (modBand .ingress k f s).ce.ib.get k = (s.ce.ib.get k).map f := bandPath_modBand .ingress k f s
      rw [h, Option.map_map]
      exact congrArg (fun g => (s.ce.ib.get k).map g) (funext hf)
    · simp only [modBand, modCe_ce]
      split
      · rw [show Bank.get _ k = s.ce.ib.get k from get_mod_other _ _ hk]
      · rfl
  · simp only [modBand, modCe_ce]
    split <;> rfl

theorem gapsOnly_noteGap (s : State) (p : Nat × BandPath) : GapsOnly s (noteGap s p) := by
  unfold noteGap
  extract_lets g
  split
  · exact .of_ce rfl
  · refine gapsOnly_modBand (fun b => ?_) s
    split <;> rfl

theorem gapsOnly_refreshOne (s : State) (p : Nat × BandPath) : GapsOnly s (refreshOne s p) := .modNp _ s

theorem gapsOnly_refreshGains (s : State) : GapsOnly s (refreshGains s) := by
  unfold refreshGains
  extract_lets s0 s1 s2
  have h0 : GapsOnly s s0 := .foldl gapsOnly_noteGap _ _
  have h1 : GapsOnly s0 s1 := .foldl gapsOnly_refreshOne _ _
  have h2 : GapsOnly s1 s2 := .foldl (fun acc p => .of_ce (evalLoop_only (Only.refl 388 acc) rfl .ce rfl)) _ _
  exact ((h0.trans h1).trans h2).trans (.foldl gapsOnly_refreshOne _ _)

theorem gapsOnly_writeBackoff (s : State) (p : Nat × BandPath) : GapsOnly s (writeBackoff s p) :=
  .of_ce (writeBackoff_only (Only.refl 256 s) rfl .ce rfl)

theorem gapsOnly_shareBackoff (s : State) : GapsOnly s (shareBackoff s) := by
  unfold shareBackoff
  extract_lets s1
  have h1 : GapsOnly s s1 := .modNp _ s
  exact (h1.trans (.foldl gapsOnly_writeBackoff _ _)).trans (gapsOnly_refreshGains _)

theorem gapsOnly_dropBackoffs (f : Backoff → Bool) (s : State) : GapsOnly s (dropBackoffs f s) := by
  unfold dropBackoffs
  exact (GapsOnly.modNp _ s).trans (gapsOnly_shareBackoff _)

/-! Settles (R101–R108). -/

/-- A change that is applied: the band path has its parameters, in the zero interval or waiting for its chain. -/
theorem bandPath_applyChange {d : Dir} {n : Nat} {s : State} {b : BandPath} (p : BpParams) (hb : bandPath s d n = some b) :
    ∃ x, bandPath (applyChange d n p s) d n = some x ∧ (x.phase = .zeros ∨ x.phase = .waiting) ∧ x.next = none ∧
      x.params = p := by
  unfold applyChange
  rw [hb]
  extract_lets waits
  rw [bandPath_of_ce bandChanged_keeps_ce, bandPath_modBand, hb]
  refine ⟨_, rfl, ?_⟩
  split
  · exact ⟨.inr rfl, rfl, rfl⟩
  · exact ⟨.inl rfl, rfl, rfl⟩

/-- A settling change is applied, or stands as the parameters that are to follow. -/
theorem aimedParams_startSettle {d : Dir} {n : Nat} {s : State} {b : BandPath} (p : BpParams) (hb : bandPath s d n = some b) :
    (bandPath (startSettle d n p s) d n).map aimedParams = some p := by
  have happly (f : BandPath → BandPath) : (bandPath (applyChange d n p (modBand d n f s)) d n).map aimedParams = some p := by
    obtain ⟨x, hx, -, hnext, hparams⟩ := bandPath_applyChange (s := modBand d n f s) (b := f b) p (by rw [bandPath_modBand, hb]; rfl)
    rw [hx, Option.map_some, aimedParams, hnext, hparams]
    rfl
  unfold startSettle
  rw [hb]
  dsimp -zeta only
  extract_lets by_ note
  cases hphase : b.phase
  case zeros => exact happly _
  case waiting => exact happly _
  case fadeOut =>
    simp only [bandPath_modBand, hb]
    rfl
  all_goals
    simp only
    split
    · exact happly _
    · simp only [bandPath_modBand, hb]
      rfl

end Sys2Proof.Machine
end

section
set_option Elab.async false
/-! The channel-engine commands (R82–R117). -/

namespace Sys2Proof.Machine

open Sys2Proof

/-- A gap that is noted leaves what a band path aims at. -/
theorem GapsOnly.aimedParams {s t : State} (h : GapsOnly s t) {d : Dir} {n : Nat} {p : BpParams}
    (hp : (Machine.bandPath s d n).map Machine.aimedParams = some p) :
    (Machine.bandPath t d n).map Machine.aimedParams = some p := by
  cases hb : Machine.bandPath s d n with
  | none => rw [hb] at hp; cases hp
  | some b =>
    rw [hb] at hp
    obtain ⟨g, m, ht⟩ := h.bandPath hb
    rw [ht]
    exact hp

/-- A band path that BP_CONFIG creates. -/
theorem aimedParams_created {d : Dir} {n : Nat} {s : State} {b : BandPath} (p : BpParams) (hb : bandPath s d n = some b) :
    (bandPath (applyChange d n p s) d n).map aimedParams = some p := by
  obtain ⟨x, hx, -, hnext, hparams⟩ := bandPath_applyChange p hb
  rw [hx, Option.map_some, aimedParams, hnext, hparams]
  rfl

/-- What BP_CONFIG makes of its band path: it has the parameters of the payload, or aims at them. -/
theorem aimedParams_bpConfig (s : State) (q : Req) :
    (bandPath (specBpConfig.effect s q).1 (dirOf (u8 q.payload 1)) (u8 q.payload 0)).map aimedParams =
      some (paramsOf q.payload ((stagesFor (u8 q.payload 3) (u32 q.payload 4)).getD 1)) := by
  dsimp -zeta only [specBpConfig]
  extract_lets p n dir d b flags rsp fresh created gated created' kept
  have hcreated : (bandPath (refreshGains gated) .ingress n).map aimedParams = some b :=
    (gapsOnly_refreshGains gated).aimedParams
      (aimedParams_created (d := .ingress) (s := created) (b := fresh) b (get_set_same ..))
  have hcreated' : (bandPath (shareBackoff (createLoop n (applyChange .egress n b created'))) .egress n).map aimedParams =
      some b := by
    refine (gapsOnly_shareBackoff _).aimedParams ?_
    rw [bandPath_of_ce createLoop_keeps_ce]
    exact aimedParams_created (d := .egress) (s := created') (b := fresh) b (get_set_same ..)
  have hkept : bandPath kept dir n = (bandPath s dir n).map (fun x => { x with
      preTap := flags.testBit 2, includeAll := flags.testBit 3 }) := bandPath_modBand ..
  change Option.map _ (bandPath _ dir n) = some b
  clear_value gated created created' kept fresh rsp flags b dir n
  cases hb : bandPath s dir n with
  | none =>
    cases dir with
    | ingress =>
      dsimp -zeta only
      exact hcreated
    | egress =>
      dsimp -zeta only
      exact hcreated'
  | some old =>
    rw [hb, Option.map_some] at hkept
    dsimp -zeta only
    by_cases hsettles : settles (aimedParams old) b = true
    · rw [if_pos hsettles]
      dsimp -zeta only
      exact (gapsOnly_refreshGains _).aimedParams (aimedParams_startSettle b hkept)
    · rw [if_neg hsettles]
      dsimp -zeta only
      refine (gapsOnly_shareBackoff _).aimedParams ?_
      rw [bandPath_modBand, hkept, Option.map_some, Option.map_some]
      dsimp only [aimedParams]
      cases old.next <;> rfl

theorem bpConfig_replies (s : State) (q : Req) : Replies .ok (specBpConfig.effect s q).2 := by
  dsimp -zeta only [specBpConfig]
  extract_lets p n dir d b flags rsp fresh created gated created' kept
  have hrsp (k : Nat) : Replies .ok (rsp k) := ⟨rfl, rfl⟩
  clear_value gated created' kept rsp dir
  split
  · cases dir
    · exact hrsp 2
    · exact hrsp 2
  · split
    · exact hrsp 1
    · exact hrsp 0

/-- An egress band path that is released is gone, or is releasing. -/
theorem bpRelease_egress {s : State} {q : Req} (h : u8 q.payload 1 ≠ 0) :
    (((specBpRelease.effect s q).1.ce.eb.get (u8 q.payload 0)).map (fun b => b.releasing)).getD true := by
  dsimp -zeta only [specBpRelease]
  extract_lets n s1
  rw [if_neg h]
  have hs1 : s1.ce.eb.get n = (s.ce.eb.get n).map (fun b => { b with releasing := true }) := by
    rw [(gapsOnly_refreshGains _).eb]
    exact bandPath_modBand .egress n _ s
  clear_value s1
  by_cases hsilent : (settleRamp (now s1) (s1.np.gain.get n).ramp).state = .silent
  · have h1 : (removeEb n s1).ce.eb.get n = none := by
      rw [removeEb, (gapsOnly_shareBackoff _).eb]
      exact get_set_same ..
    dsimp -zeta only
    rw [if_pos hsilent, h1]
    rfl
  · dsimp -zeta only
    rw [if_neg hsilent, hs1]
    cases s.ce.eb.get n <;> rfl

theorem bpRelease_replies (s : State) (q : Req) : Replies .ok (specBpRelease.effect s q).2 := by
  dsimp -zeta only [specBpRelease]
  extract_lets n s1
  split <;> exact ⟨rfl, rfl⟩

theorem dpd_of_ce {s t : State} (h : t.ce = s.ce) (k : Nat) : t.dpd k = s.dpd k := by rw [State.dpd, h]

@[simp] theorem modDpd_dpd (k : Nat) (f : Dpd → Dpd) (s : State) : (modDpd k f s).dpd k = f (s.dpd k) := get_mod_same ..

/-- The end of a back-off leaves predistortion alone. -/
theorem endDpdBackoff_dpd (c k : Nat) (s : State) : (endDpdBackoff c s).dpd k = s.dpd k := by
  rw [State.dpd, endDpdBackoff, (gapsOnly_dropBackoffs _ _).dpd]

/-- Predistortion of a chain after DPD_CONFIG (R113–R116). -/
theorem dpd_dpdConfig (s : State) (q : Req) : (specDpdConfig.effect s q).1.dpd (u8 q.payload 0 - 8) =
    let d := s.dpd (u8 q.payload 0 - 8)
    let same := d.model == (u8 q.payload 2, u8 q.payload 3, u8 q.payload 4)
    { d with
      model := (u8 q.payload 2, u8 q.payload 3, u8 q.payload 4)
      state := if u8 q.payload 1 = 0 then .off else if u8 q.payload 5 = 1 then .adapting else .frozen
      orders := u8 q.payload 2, memory := u8 q.payload 3, cross := u8 q.payload 4, limit := s32 q.payload 8
      sets := if same then d.sets else Bank.fill []
      best := if same then d.best else none, before := if same then d.before else none
      rejectRun := 0, overRun := 0, pending := if same then d.pending else [] } := by
  dsimp -zeta only [specDpdConfig]
  extract_lets p d s0
  have hs0 : s0.dpd (u8 p 0 - 8) = s.dpd (u8 p 0 - 8) := by
    unfold s0
    split
    · rfl
    · exact dpd_of_ce (askRepClear_only (Only.refl 1024 s) rfl .ce rfl) _
  clear_value s0
  rw [endDpdBackoff_dpd, modDpd_dpd, hs0]

theorem fill_get {α : Type} (x : α) (k : Nat) : (Bank.fill x).get k = x := rfl

/-- Predistortion of a chain after DPD_CONTROL (R115). -/
theorem dpd_dpdControl (s : State) (q : Req) : (specDpdControl.effect s q).1.dpd (u8 q.payload 0 - 8) =
    let d := s.dpd (u8 q.payload 0 - 8)
    if u8 q.payload 1 = 0 then { d with state := .frozen }
    else if u8 q.payload 1 = 1 then { d with state := .adapting, rejectRun := 0, overRun := 0 }
    else if u8 q.payload 1 = 2 then { d with pending := d.pending ++ [.identity] }
    else { d with pending := d.pending ++ [.copyAll] } := by
  dsimp -zeta only [specDpdControl]
  extract_lets a c s1
  have hs1 : s1.dpd (c - 8) = _ := modDpd_dpd ..
  clear_value s1
  by_cases h : a < 2
  · rw [if_pos h, endDpdBackoff_dpd]
    exact hs1
  · rw [if_neg h]
    exact hs1

/-- Settles O22: each clause is the command's effect on the channel engine. -/
theorem channelCommandsConfigureBandPaths : Obligations.ChannelCommandsConfigureBandPaths := by
  unfold Obligations.ChannelCommandsConfigureBandPaths
  intro r s
  refine ⟨?_, ?_, ?_, ?_, ?_, ?_, ?_⟩
  · refine does_of_only rfl rfl specBpConfig_only (by decide) bpConfig_replies fun h => ?_
    have hce : (submit specBpConfig r s).ce = _ := submit_after h .ce rfl
    rw [bandPath_of_ce hce]
    exact aimedParams_bpConfig _ _
  · refine does_of_only rfl rfl specBpRelease_only (by decide) bpRelease_replies fun h => ?_
    have hce : (submit specBpRelease r s).ce = _ := submit_after h .ce rfl
    rw [hce]
    refine ⟨fun hdir => ?_, fun hdir => bpRelease_egress ?_⟩
    · exact congrArg (fun x : State × Reply => x.1.ce) (if_pos hdir)
    · exact fun hzero => absurd (hdir.symm.trans hzero) (by decide)
  · refine does_of_only rfl rfl specBpDetector_only (by decide) (fun _ _ => ⟨rfl, rfl⟩) fun h => ?_
    have hce : (submit specBpDetector r s).ce = _ := submit_after h .ce rfl
    rw [bandPath_of_ce hce]
    exact bandPath_modBand ..
  · exact does_of_only rfl rfl specBpAlign_only (by decide) (fun _ _ => ⟨rfl, rfl⟩) fun h => submit_after h .ce rfl
  · exact does_of_only rfl rfl specBpSyncPin_only (by decide) (fun _ _ => ⟨rfl, rfl⟩) fun h => submit_after h .ce rfl
  · refine does_of_only rfl rfl specDpdConfig_only (by decide) (fun _ _ => ⟨rfl, rfl⟩) fun h => ?_
    have hce : (submit specDpdConfig r s).ce = _ := submit_after h .ce rfl
    have hdpd := (dpd_of_ce hce (r.u8 0 - 8)).trans (dpd_dpdConfig _ _)
    rw [hdpd]
    refine ⟨rfl, rfl, rfl, rfl, rfl, fun hmodel k => ?_⟩
    have hother : ((s.dpd (r.u8 0 - 8)).model == (r.u8 2, r.u8 3, r.u8 4)) = false := beq_false_of_ne hmodel
    exact (congrArg (fun b : Bool => (if b = true then (s.dpd (r.u8 0 - 8)).sets else Bank.fill []).get k) hother :)
  · refine does_of_only rfl rfl specDpdControl_only (by decide) (fun _ _ => ⟨rfl, rfl⟩) fun h => ?_
    have hce : (submit specDpdControl r s).ce = _ := submit_after h .ce rfl
    have hdpd : (submit specDpdControl r s).dpd (r.u8 0 - 8) =
        if r.u8 1 = 0 then { s.dpd (r.u8 0 - 8) with state := .frozen }
        else if r.u8 1 = 1 then { s.dpd (r.u8 0 - 8) with state := .adapting, rejectRun := 0, overRun := 0 }
        else if r.u8 1 = 2 then { s.dpd (r.u8 0 - 8) with pending := (s.dpd (r.u8 0 - 8)).pending ++ [.identity] }
        else { s.dpd (r.u8 0 - 8) with pending := (s.dpd (r.u8 0 - 8)).pending ++ [.copyAll] } :=
      (dpd_of_ce hce (r.u8 0 - 8)).trans (dpd_dpdControl _ _)
    rw [hdpd]
    refine ⟨fun ha => ?_, fun ha => ?_, fun ha => ?_, fun ha => ?_⟩
    · rw [if_pos ha]
    · rw [if_neg (by omega), if_pos ha]
    · rw [if_neg (by omega), if_neg (by omega), if_pos ha]
      exact List.mem_append_right _ (List.mem_singleton_self _)
    · rw [if_neg (by omega), if_neg (by omega), if_neg (by omega)]
      exact List.mem_append_right _ (List.mem_singleton_self _)

end Sys2Proof.Machine
end

section
set_option Elab.async false
/-! Settles and alignment (R97–R103, R107, R117): the fields of the channel engine that no band path holds stay as they are. -/

namespace Sys2Proof.Machine

open Sys2Proof

/-- The channel engine without its band paths. -/
def CeState.others (c : CeState) : CeState := { c with ib := Bank.fill none, eb := Bank.fill none }

theorem others_of_ce {s t : State} (h : t.ce = s.ce) : t.ce.others = s.ce.others := by rw [h]

theorem GapsOnly.others {s t : State} (h : GapsOnly s t) : t.ce.others = s.ce.others :=
  (congrArg CeState.others h.rest :)

theorem others_modBand (d : Dir) (n : Nat) (f : BandPath → BandPath) (s : State) :
    (modBand d n f s).ce.others = s.ce.others := by
  cases d <;> simp only [modBand, modCe_ce] <;> split <;> rfl

theorem others_refreshGains (s : State) : (refreshGains s).ce.others = s.ce.others := (gapsOnly_refreshGains s).others

theorem others_applyChange (d : Dir) (n : Nat) (p : BpParams) (s : State) :
    (applyChange d n p s).ce.others = s.ce.others := by
  unfold applyChange
  split
  · rfl
  · extract_lets waits same
    rw [others_of_ce bandChanged_keeps_ce, others_modBand]

theorem others_startSettle (d : Dir) (n : Nat) (p : BpParams) (s : State) :
    (startSettle d n p s).ce.others = s.ce.others := by
  unfold startSettle
  split
  · rfl
  next b _ =>
    extract_lets by_ note
    split
    · rw [others_applyChange, others_modBand]
    · rw [others_applyChange, others_modBand]
    · rw [others_modBand]
    all_goals
      split
      · rw [others_applyChange, others_modBand]
      · rw [others_modBand]

theorem others_realign (d : Dir) (n : Nat) (s : State) : (realign d n s).ce.others = s.ce.others := by
  unfold realign
  split
  · exact others_startSettle ..
  · rfl

theorem others_fadeOutDone (d : Dir) (n : Nat) (s : State) : (fadeOutDone d n s).ce.others = s.ce.others := by
  unfold fadeOutDone
  split
  · split
    · rw [others_refreshGains, others_applyChange]
    · rw [others_refreshGains, others_modBand]
  · rfl

theorem others_realignFade (d : Dir) (n : Nat) (s : State) : (realignFade d n s).ce.others = s.ce.others := by
  unfold realignFade
  split
  · split
    · rw [others_refreshGains, others_realign]
    · rfl
  · rfl

theorem others_realignNow (d : Dir) (n : Nat) (s : State) : (realignNow d n s).ce.others = s.ce.others := by
  unfold realignNow
  extract_lets fading s1
  have hs1 : s1.ce.others = s.ce.others := by
    unfold s1
    split
    · rfl
    · exact others_realign ..
  split
  · rw [others_fadeOutDone, hs1]
  · exact hs1

theorem others_fadeTowards (t : Nat) (l : List (Dir × Nat)) (s : State) : (fadeTowards t l s).ce.others = s.ce.others := by
  unfold fadeTowards
  exact foldl_keeps (fun x => x.ce.others) (fun acc x => (others_realignFade ..).trans (others_of_ce advanceTo_keeps_ce)) _ _

/-- The pending alignments that are left after one is applied, the count of those applied and the frame of the last. -/
theorem alignmentApply_aligns {s : State} {p : AlignPending} (h : nextAlign s = some p) :
    (alignmentApply s).ce.alignCount = s.ce.alignCount + 1 ∧ (alignmentApply s).ce.alignFrame = p.frame ∧
      (p.byPin → (alignmentApply s).ce.alignPin = none) ∧ (¬p.byPin → (alignmentApply s).ce.align = none) := by
  unfold alignmentApply
  rw [h]
  dsimp -zeta only
  extract_lets i l s1 s4
  have hs4 : s4.ce.others = s.ce.others := by
    unfold s4
    rw [foldl_keeps (fun x => x.ce.others) (fun acc x => others_realignNow ..), others_of_ce advanceToAir_keeps_ce,
      others_fadeTowards]
  have hcount : s4.ce.alignCount = s.ce.alignCount := (congrArg CeState.alignCount hs4 :)
  clear_value s4
  rw [modCe_ce]
  exact ⟨congrArg (· + 1) hcount, rfl, fun hpin => if_pos hpin, fun hpin => if_neg hpin⟩

/-! The phases of a settle. -/

/-- A band path whose change to `p` is applied: in its zero interval, or waiting for its chain. -/
def BandPath.AppliedTo (p : BpParams) (x : BandPath) : Prop :=
  (x.phase = .zeros ∨ x.phase = .waiting) ∧ x.next = none ∧ x.params = p

theorem GapsOnly.applied {s t : State} (h : GapsOnly s t) {d : Dir} {n : Nat} {p : BpParams}
    (hs : ∃ x, Machine.bandPath s d n = some x ∧ x.AppliedTo p) : ∃ x, Machine.bandPath t d n = some x ∧ x.AppliedTo p := by
  obtain ⟨x, hx, hp⟩ := hs
  obtain ⟨g, m, ht⟩ := h.bandPath hx
  exact ⟨_, ht, hp⟩

/-- The fade-out of a band path that has ended (R101, R103). -/
theorem applied_fadeOutDone {d : Dir} {n : Nat} {s : State} {b : BandPath} (hb : bandPath s d n = some b) :
    ∃ x, bandPath (fadeOutDone d n s) d n = some x ∧ x.AppliedTo (b.next.getD b.params) := by
  unfold fadeOutDone
  rw [hb]
  dsimp -zeta only
  cases hnext : b.next with
  | some p => exact (gapsOnly_refreshGains _).applied (bandPath_applyChange p hb)
  | none =>
    refine (gapsOnly_refreshGains _).applied ⟨b.enter (now s) .waiting 0, ?_, .inr rfl, hnext, rfl⟩
    rw [bandPath_modBand, hb]
    rfl

theorem ib_modBand_other {n k : Nat} (h : k ≠ n) (f : BandPath → BandPath) (s : State) :
    (modBand .ingress n f s).ce.ib.get k = s.ce.ib.get k := by
  simp only [modBand, modCe_ce]
  split
  · exact get_mod_other _ _ h
  · rfl

theorem ib_applyChange_other {n k : Nat} (h : k ≠ n) (p : BpParams) (s : State) :
    (applyChange .ingress n p s).ce.ib.get k = s.ce.ib.get k := by
  unfold applyChange
  split
  · rfl
  · extract_lets waits same
    rw [bandChanged_keeps_ce, ib_modBand_other h]

/-- A chain that stops leaves an applied change applied (R105). -/
theorem applied_chainStops {c n : Nat} {p : BpParams} {s : State} (h : ∃ x, s.ce.ib.get n = some x ∧ x.AppliedTo p) :
    ∃ x, (chainStops c s).ce.ib.get n = some x ∧ x.AppliedTo p := by
  unfold chainStops
  refine (gapsOnly_refreshGains _).applied (d := .ingress) ?_
  change ∃ x, Bank.get (State.ce (List.foldl _ s _)).ib n = some x ∧ x.AppliedTo p
  generalize ibsOfChain s c = l
  induction l generalizing s with
  | nil => exact h
  | cons k l ih =>
    refine ih ?_
    obtain ⟨x, hx, hphase, hnext, hparams⟩ := h
    dsimp -zeta only
    extract_lets acc1
    by_cases hk : n = k
    · subst hk
      have hacc1 : acc1 = s := by
        unfold acc1
        rw [hx, Option.bind_some, hnext]
      rw [hacc1]
      refine ⟨_, (bandPath_modBand .ingress n _ s).trans (congrArg _ hx), ?_⟩
      dsimp only
      split
      · exact ⟨hphase, hnext, hparams⟩
      · split
        · exact ⟨hphase, hnext, hparams⟩
        · exact ⟨.inr rfl, hnext, hparams⟩
    · refine ⟨x, ?_, hphase, hnext, hparams⟩
      rw [ib_modBand_other hk]
      unfold acc1
      split
      · rw [ib_applyChange_other hk, hx]
      · exact hx

theorem applied_startOp {c n : Nat} {o : RfOp} {p : BpParams} {s : State} (h : ∃ x, s.ce.ib.get n = some x ∧ x.AppliedTo p) :
    ∃ x, (startOp c o s).ce.ib.get n = some x ∧ x.AppliedTo p := by
  unfold startOp
  extract_lets x back s1
  split
  · exact applied_chainStops (s := s1) h
  · exact (gapsOnly_refreshGains s1).applied (d := .ingress) h

/-- The end of a fade-out leaves the change of its band path applied (R101, R103, R105). -/
theorem applied_fadeOutEnd {d : Dir} {n : Nat} {s : State} {b : BandPath} (hb : bandPath s d n = some b)
    (hphase : b.phase = .fadeOut) : ∃ x, bandPath (fadeOutEnd d n s) d n = some x ∧ x.AppliedTo (b.next.getD b.params) := by
  have hdone := applied_fadeOutDone ((bandPath_of_ce (s := s) (t := advanceTo b.phaseEnd s) advanceTo_keeps_ce d n).trans hb)
  unfold fadeOutEnd
  rw [hb]
  dsimp -zeta only
  rw [if_pos hphase]
  extract_lets s1 c
  cases d with
  | egress => exact hdone
  | ingress =>
    dsimp -zeta only
    split
    next o _ =>
      by_cases hfaded : chainFaded s1 c = true
      · rw [if_pos hfaded]
        exact applied_startOp hdone
      · rw [if_neg hfaded]
        exact hdone
    next => exact hdone

/-- The zero interval has ended (R101, R103). -/
theorem phase_zerosDone {d : Dir} {n : Nat} {s : State} {b : BandPath} (hb : bandPath s d n = some b) :
    (bandPath (zerosDone d n s) d n).map (fun x => x.phase) = some (if d = .ingress then .fadeIn else .idle) := by
  unfold zerosDone
  rw [hb]
  cases d with
  | ingress =>
    dsimp only
    rw [bandPath_modBand, hb]
    rfl
  | egress =>
    dsimp -zeta only
    rw [bandPath_of_ce postNotice_keeps_ce]
    have hx : bandPath (modBand .egress n (fun x => { x.enter (now s) .idle 0 with settleBy := 0 }) s) .egress n =
        some { b.enter (now s) .idle 0 with settleBy := 0 } := by
      rw [bandPath_modBand, hb]
      rfl
    obtain ⟨g, m, ht⟩ := (gapsOnly_refreshGains _).bandPath hx
    rw [ht]
    rfl

/-- The settle of an ingress band path is over (R107). -/
theorem phase_fadeInDone {n : Nat} {s : State} {b : BandPath} (hb : s.ce.ib.get n = some b) :
    ((fadeInDone n s).ce.ib.get n).map (fun x => (x.phase, x.settleBy)) = some (.idle, 0) := by
  unfold fadeInDone
  rw [postNotice_keeps_ce]
  have hx : bandPath (modBand .ingress n (fun x => { x.enter (now s) .idle 0 with settleBy := 0 }) s) .ingress n =
      some { b.enter (now s) .idle 0 with settleBy := 0 } := by
    rw [bandPath_modBand]
    exact congrArg _ hb
  obtain ⟨g, m, ht⟩ := (gapsOnly_refreshGains _).ingress hx
  rw [ht]
  rfl

/-! Moments of faults. -/

/-- A moment latches its raise and its end (R366). -/
theorem raisedOnce_raiseMoment (r : Raise) (s : State) : RaisedOnce r.cls r.unit s (raiseMoment r s) := by
  refine ⟨{ r with cycle := cycleNow s }, .ended ⟨r.cls, r.unit⟩ (cycleNow s) false, ?_, rfl, rfl⟩
  have hholds : holding (raiseFault r s) r.cls r.unit = true := holding_raiseFault r s
  rw [raiseMoment, endFault, if_pos hholds]
  simp [raiseFault]
  rfl

/-- Settles O23, event by event. -/
theorem settlesFadeAndAlign : Obligations.SettlesFadeAndAlign := by
  unfold Obligations.SettlesFadeAndAlign
  intro s d n m b p h
  refine ⟨fun hb hphase => ?_, fun hb hphase => ?_, fun hb hphase => ?_, fun hb hphase hby => ?_, fun hp => ?_, fun hmode => ?_,
    fun hno => ?_, fun hend => ?_, fun hb => ?_⟩
  · exact runs_of_only (t := fadeOutEnd d n s) rfl execFadeOutEnd_only (by decide) (applied_fadeOutEnd hb hphase)
  · refine runs_of_only (t := settleZerosEnd d n s) rfl execSettleZerosEnd_only (by decide) ?_
    have heq : settleZerosEnd d n s = zerosDone d n (advanceTo b.phaseEnd s) := by
      rw [settleZerosEnd, hb]
      exact if_pos hphase
    rw [heq, waited, zerosDone_only (Only.refl 454 _) rfl .air rfl]
    refine ⟨advanceTo_waited .., (phase_zerosDone ((bandPath_of_ce advanceTo_keeps_ce d n).trans hb)).trans ?_⟩
    cases d <;> rfl
  · refine runs_of_only (t := fadeInEnd n s) rfl execFadeInEnd_only (by decide) ?_
    have heq : fadeInEnd n s = restartGate n (fadeInDone n (advanceTo b.phaseEnd s)) := by
      rw [fadeInEnd, hb]
      dsimp -zeta only
      rw [if_pos hphase]
    have hair : (restartGate n (fadeInDone n (advanceTo b.phaseEnd s))).air = (advanceTo b.phaseEnd s).air :=
      restartGate_keeps_air.trans (fadeInDone_only (Only.refl 454 _) rfl .air rfl)
    have hce : (restartGate n (fadeInDone n (advanceTo b.phaseEnd s))).ce = (fadeInDone n (advanceTo b.phaseEnd s)).ce := restartGate_keeps_ce
    rw [heq, waited, hair, hce]
    exact ⟨advanceTo_waited .., phase_fadeInDone ((bandPath_of_ce advanceTo_keeps_ce .ingress n).trans hb)⟩
  · refine runs_of_only (t := pathSettleTimeout d n s) rfl execPathSettleTimeout_only (by decide) ?_
    have heq : pathSettleTimeout d n s = raiseMoment { cls := 0x20, unit := bpUnit d n } (advanceTo b.settleBy s) := by
      rw [pathSettleTimeout, hb]
      exact if_pos ⟨hphase, hby⟩
    rw [heq, waited, raiseMoment_keeps_air]
    refine ⟨advanceTo_waited .., ?_⟩
    have hfault : (advanceTo b.settleBy s).fault = s.fault := advanceTo_keeps_fault
    obtain ⟨x, y, hlatched, hclass⟩ := raisedOnce_raiseMoment { cls := 0x20, unit := bpUnit d n } (advanceTo b.settleBy s)
    exact ⟨x, y, by rw [hlatched, hfault], hclass⟩
  · exact runs_of_only (t := alignmentApply s) rfl execAlignmentApply_only (by decide) (alignmentApply_aligns hp)
  · refine runs_of_only (t := syncAlignEdge true s) rfl execSyncAlignEdge_only (by decide) ?_
    unfold syncAlignEdge
    rw [if_pos ⟨hmode, rfl⟩]
    cases hpin : s.ce.alignPin with
    | none => exact ⟨fun _ => ⟨rfl, rfl⟩, fun hne => absurd rfl hne⟩
    | some x => exact ⟨fun he => absurd he (Option.some_ne_none x), fun _ => ⟨rfl, hpin⟩⟩
  · refine congrArg Host.Outcome.next (if_neg ?_)
    rintro ⟨hmode, hheld⟩
    exact hno.elim (fun hnot => hnot hheld) (fun hnot => hnot hmode)
  · refine runs_of_only (t := syncAlignPulseEnd s) rfl execSyncAlignPulseEnd_only (by decide) ?_
    have heq : syncAlignPulseEnd s = (advanceTo m s).modCe (fun c => { c with syncEnd := none, syncLevel := false }) := by
      rw [syncAlignPulseEnd, hend]
    rw [heq, modCe_ce, advanceTo_keeps_ce]
    exact ⟨rfl, advanceTo_waited m s⟩
  · refine runs_of_only (t := alignLossDetect d n s) rfl execAlignLossDetect_only (by decide) ?_
    have heq : alignLossDetect d n s =
        raiseMoment { cls := 0x23, unit := bpUnit d n } (modBand d n (fun x => { x with misaligned := true }) s) := by
      rw [alignLossDetect, hb]
      rfl
    have hfault : (modBand d n (fun x => { x with misaligned := true }) s).fault = s.fault :=
      modBand_only (Only.refl 64 _) rfl .fault rfl
    obtain ⟨x, y, hlatched, hclass⟩ := raisedOnce_raiseMoment { cls := 0x23, unit := bpUnit d n }
      (modBand d n (fun x => { x with misaligned := true }) s)
    rw [heq, bandPath_of_ce raiseMoment_keeps_ce, bandPath_modBand, hb]
    exact ⟨rfl, x, y, by rw [hlatched, hfault], hclass⟩

end Sys2Proof.Machine
end

section
set_option Elab.async false
/-! Detectors and predistortion (R102–R116, R162): what the blocks of a band path leave of it, its detector, its gate. -/

namespace Sys2Proof.Machine

open Sys2Proof

/-! Blocks on their way from an ingress band path to its consumers touch no ingress band path. -/

theorem ib_modBand_egress (n : Nat) (f : BandPath → BandPath) (s : State) : (modBand .egress n f s).ce.ib = s.ce.ib := by
  simp only [modBand, modCe_ce]
  split <;> rfl

theorem egressBlock_ce (e : Nat) (pin : AirInstant) (blk : Block) (s : State) :
    ∃ f : BandPath → BandPath, (egressBlock e pin blk s).ce = (modBand .egress e f s).ce ∧
      ∀ b, (f b).params = b.params ∧ (f b).srcSettling = b.srcSettling ∧ (f b).srcGapped = b.srcGapped ∧
        (f b).rateMismatch = b.rateMismatch := by
  unfold egressBlock
  split
  next h =>
    refine ⟨id, ?_, fun _ => ⟨rfl, rfl, rfl, rfl⟩⟩
    simp only [modBand, modCe_ce, h]
    rfl
  next =>
    extract_lets per f g wave delay t0 zeroed ok one l clipped rec_
    clear_value rec_ l clipped
    refine ⟨_, (tapBlock_only (Only.refl 16384 _) rfl .ce rfl).trans (pushRefs_only (Only.refl 128 _) rfl .ce rfl), fun _ => ?_⟩
    exact ⟨rfl, rfl, rfl, rfl⟩

theorem egressBlock_ib (e : Nat) (pin : AirInstant) (blk : Block) (s : State) : (egressBlock e pin blk s).ce.ib = s.ce.ib := by
  obtain ⟨f, h, -⟩ := egressBlock_ce e pin blk s
  rw [h, ib_modBand_egress]

theorem sendOwn_ce (n per : Nat) (blk : Block) (s : State) (f : Nat) : (sendOwn n per blk s f).ce = s.ce :=
  sendOwn_only (Only.refl 405632 s) rfl .ce rfl

theorem passOn_ib (n : Nat) (b : BandPath) (blk : Block) (s : State) : (passOn n b blk s).ce.ib = s.ce.ib := by
  unfold passOn
  extract_lets held silence gap s1
  have hs1 : s1.ce.ib = s.ce.ib := foldl_keeps (fun x => x.ce.ib) (fun acc f => congrArg CeState.ib (sendOwn_ce ..)) _ _
  refine (foldl_keeps (fun x => x.ce.ib) (fun acc e => ?_) _ _).trans hs1
  split
  · exact egressBlock_ib ..
  · rfl

theorem emitFlit_memberId (p kind flow blocks : Nat) (frames : List CtrlFrame) (l : List Block) (body : List Byte) (s : State) :
    (emitFlit p kind flow blocks frames l body s).fl.memberId = s.fl.memberId := by
  unfold emitFlit
  extract_lets d lane s1
  change s1.fl.memberId = _
  unfold s1
  split <;> rfl

theorem emitBlocks_memberId (f mask : Nat) (l : List Block) (s : State) :
    (emitBlocks f mask l s).fl.memberId = s.fl.memberId := by
  unfold emitBlocks
  exact foldl_keeps (fun x => x.fl.memberId) (fun acc p =>
    foldl_keeps (fun x => x.fl.memberId) (fun a x => emitFlit_memberId ..) _ _) _ _

theorem flushGroup_memberId (f : Nat) (s : State) : (flushGroup f s).fl.memberId = s.fl.memberId := by
  unfold flushGroup
  split
  · rfl
  · exact emitBlocks_memberId ..

theorem sendGrouped_memberId (f : Nat) (p : Placement) (b : Block) (s : State) :
    (sendGrouped f p b s).fl.memberId = s.fl.memberId := by
  unfold sendGrouped
  split
  · rfl
  · extract_lets s1 s2
    have hs2 : s2.fl.memberId = s.fl.memberId := by
      change s1.fl.memberId = _
      unfold s1
      split
      · exact flushGroup_memberId ..
      · rfl
    split
    · rw [flushGroup_memberId, hs2]
    · exact hs2

theorem sendOwn_memberId (n per : Nat) (blk : Block) (s : State) (f : Nat) :
    (sendOwn n per blk s f).fl.memberId = s.fl.memberId := by
  unfold sendOwn
  extract_lets p own b s1 s2
  have hs2 : s2.fl.memberId = s.fl.memberId := by
    unfold s2
    split
    · rfl
    · rw [sendGrouped_memberId]
      rfl
  exact (congrArg FlState.memberId (pushRefs_only (Only.refl 128 s2) rfl .fl rfl)).trans hs2

theorem passOn_memberId (n : Nat) (b : BandPath) (blk : Block) (s : State) :
    (passOn n b blk s).fl.memberId = s.fl.memberId := by
  unfold passOn
  extract_lets held silence gap s1
  have hs1 : s1.fl.memberId = s.fl.memberId := foldl_keeps (fun x => x.fl.memberId) (fun acc f => sendOwn_memberId ..) _ _
  refine (foldl_keeps (fun x => x.fl.memberId) (fun acc e => ?_) _ _).trans hs1
  split
  · exact congrArg FlState.memberId (egressBlock_only (Only.refl 16576 acc) rfl .fl rfl)
  · rfl

theorem passOn_np (n : Nat) (b : BandPath) (blk : Block) (s : State) : (passOn n b blk s).np = s.np :=
  passOn_only (Only.refl 422080 s) rfl .np rfl

/-- From `s` to `t` the band path has taken blocks: samples and counts of it, and what its gate holds, may differ. -/
structure Fed (n : Nat) (s t : State) : Prop where
  band : ∀ b, s.ce.ib.get n = some b → ∃ r c g, t.ce.ib.get n = some { b with recent := r, clipBlocks := c, gapBlocks := g }
  gate : ∀ g, s.np.gates.get n = some g → ∃ h, t.np.gates.get n = some { g with held := h }
  member : t.fl.memberId = s.fl.memberId

theorem Fed.refl (n : Nat) (s : State) : Fed n s s :=
  ⟨fun b h => ⟨b.recent, b.clipBlocks, b.gapBlocks, h⟩, fun g h => ⟨g.held, h⟩, rfl⟩

theorem Fed.trans {n : Nat} {s t u : State} (h : Fed n s t) (k : Fed n t u) : Fed n s u := by
  refine ⟨fun b hb => ?_, fun g hg => ?_, k.member.trans h.member⟩
  · obtain ⟨r, c, g, ht⟩ := h.band b hb
    obtain ⟨r', c', g', hu⟩ := k.band _ ht
    exact ⟨r', c', g', hu⟩
  · obtain ⟨x, ht⟩ := h.gate g hg
    obtain ⟨y, hu⟩ := k.gate _ ht
    exact ⟨y, hu⟩

theorem Fed.of_parts {n : Nat} {s t : State} (hib : t.ce.ib = s.ce.ib) (hnp : t.np = s.np)
    (hmember : t.fl.memberId = s.fl.memberId) : Fed n s t := by
  refine ⟨fun b hb => ⟨b.recent, b.clipBlocks, b.gapBlocks, ?_⟩, fun g hg => ⟨g.held, ?_⟩, hmember⟩
  · rw [hib]
    exact hb
  · rw [hnp]
    exact hg

theorem fed_ingressBlock (n : Nat) (s : State) (x : RawBlock) : Fed n s (ingressBlock n s x) := by
  unfold ingressBlock
  split
  · exact .refl n s
  next b hb =>
    extract_lets c per sub fine at_ lo hi front down faded gapped settling valid ok pins pre run s1 post clipped seen s2 s3 blk s4
    clear_value run
    have h1 : Fed n s s1 := by
      unfold s1
      split <;> exact .of_parts rfl rfl rfl
    have h2 : Fed n s1 s2 := by
      refine ⟨fun b hb => ⟨_, _, _, (bandPath_modBand .ingress n _ s1).trans (congrArg _ hb)⟩, fun g hg => ⟨g.held, ?_⟩, ?_⟩
      · rw [show s2.np = s1.np from modBand_only (Only.refl 64 s1) rfl .np rfl]
        exact hg
      · exact congrArg FlState.memberId (modBand_only (Only.refl 64 s1) rfl .fl rfl)
    have h3 : Fed n s2 s3 := by
      unfold s3
      split
      · exact .of_parts rfl rfl rfl
      · exact .refl ..
    have h4 : Fed n s3 s4 := .of_parts (congrArg CeState.ib (tapBlock_only (Only.refl 16384 s3) rfl .ce rfl))
      (tapBlock_only (Only.refl 16384 s3) rfl .np rfl)
      (congrArg FlState.memberId (tapBlock_only (Only.refl 16384 s3) rfl .fl rfl))
    have h := ((h1.trans h2).trans h3).trans h4
    clear_value s4 blk
    split
    next g hg =>
      refine h.trans ⟨fun b hb => ⟨_, _, _, hb⟩, fun g hg => ⟨g.held ++ [blk], ?_⟩, rfl⟩
      exact (get_mod_same ..).trans (congrArg _ hg)
    next => exact h.trans (.of_parts (passOn_ib ..) (passOn_np ..) (passOn_memberId ..))

theorem fed_feed (n : Nat) (l : List RawBlock) (s : State) : Fed n s (feed n l s) := by
  unfold feed
  induction l generalizing s with
  | nil => exact .refl n s
  | cons x l ih => exact (fed_ingressBlock n s x).trans (ih _)

/-! Symbols (R111, R162). -/

/-- Blocks that leave a gate leave the ingress band paths alone, and its gate but for what it holds. -/
theorem ib_releaseHeld (n mu : Nat) (upTo : AirInstant) (s : State) : (releaseHeld n mu upTo s).ce.ib = s.ce.ib := by
  unfold releaseHeld
  split
  · extract_lets per out s1
    exact foldl_keeps (fun x => x.ce.ib) (fun acc x => passOn_ib ..) _ s1
  · rfl

theorem gates_releaseHeld {n : Nat} (mu : Nat) (upTo : AirInstant) {s : State} {g : UlGate} (hg : s.np.gates.get n = some g) :
    ∃ h, (releaseHeld n mu upTo s).np.gates.get n = some { g with held := h } := by
  unfold releaseHeld
  split
  next k b hk _ =>
    extract_lets per out s1
    obtain rfl : g = k := Option.some.inj (hg.symm.trans hk)
    rw [foldl_keeps (fun x => x.np) (fun acc x => passOn_np ..) _ s1]
    exact ⟨_, get_set_same ..⟩
  next => exact ⟨g.held, hg⟩

/-- What the gate of an ingress band path is after it decided for a symbol. -/
theorem gates_gateDecides {n mu : Nat} {b : BandPath} {lo hi : AirInstant} {env : Option Int} {s : State} {g : UlGate}
    (hg : s.np.gates.get n = some g) : ∃ h d, (gateDecides n mu b lo hi env s).np.gates.get n =
      some { gateSymbol mu env (ownSegment s b.params lo) (inPaddock s (ibUnit n)) g with held := h, decided := d } := by
  unfold gateDecides
  rw [hg]
  dsimp -zeta only
  extract_lets g1 s1
  obtain ⟨h, hs1⟩ : ∃ h, s1.np.gates.get n = some { g1 with held := h, decided := ((lo, g1.isOpen) :: g1.decided).take 4 } :=
    gates_releaseHeld (g := { g1 with decided := ((lo, g1.isOpen) :: g1.decided).take 4 }) mu hi (get_set_same ..)
  refine ⟨h, ((lo, g1.isOpen) :: g1.decided).take 4, ?_⟩
  split
  · rw [foldl_keeps (f := noteOpen g1.nEst) (fun x => x.np.gates) (fun _ _ => rfl)]
    exact hs1
  · exact hs1

/-- The decision of a gate leaves the ingress band paths alone. -/
theorem ib_gateDecides (n mu : Nat) (b : BandPath) (lo hi : AirInstant) (env : Option Int) (s : State) :
    (gateDecides n mu b lo hi env s).ce.ib = s.ce.ib := by
  unfold gateDecides
  split
  · rfl
  next g hg =>
    extract_lets g1 s1
    have hs1 : s1.ce.ib = s.ce.ib := ib_releaseHeld ..
    split
    · exact (foldl_keeps (f := noteOpen g1.nEst) (fun x => x.ce.ib) (fun _ _ => rfl) _ s1).trans hs1
    · exact hs1

/-- A gate after a symbol (R162, R163). -/
theorem gateSymbol_rules (mu : Nat) (env : Option Int) (own paddock : Bool) (g : UlGate) :
    (g.mode = .closed ∨ own = false → (gateSymbol mu env own paddock g).isOpen = false) ∧
      (env = none → (gateSymbol mu env own paddock g).envs = g.envs) ∧
      (g.mode = .open_ → paddock = false → own = true → (gateSymbol mu env own paddock g).isOpen = true ∧
        (gateSymbol mu env own paddock g).openCount = g.openCount + 1) := by
  refine ⟨fun h => ?_, fun h => ?_, fun hmode hpaddock hown => ?_⟩
  · rcases h with h | h <;> simp [gateSymbol, h]
  · simp [gateSymbol, h]
  · simp [gateSymbol, hmode, hpaddock, hown]

theorem bandPath_feed {d : Dir} {n : Nat} (l : List RawBlock) {s : State} {b : BandPath} (hb : bandPath s d n = some b) :
    ∃ r c g, bandPath (if d = .ingress then feed n l s else s) d n =
      some { b with recent := r, clipBlocks := c, gapBlocks := g } := by
  cases d with
  | ingress => exact (fed_feed n l s).band b hb
  | egress => exact ⟨b.recent, b.clipBlocks, b.gapBlocks, hb⟩

theorem advanceToSymbol_ce (key mu : Nat) (s : State) : (advanceToSymbol key mu s).ce = s.ce :=
  advanceToSymbol_only (Only.refl 1 s) rfl .ce rfl

/-- The state `t` after a symbol of the band path `b` ended: its envelope is kept, and its gate has decided. -/
def SymbolEnded (d : Dir) (n : Nat) (s : State) (b : BandPath) (t : State) : Prop :=
  ∃ x, bandPath t d n = some x ∧
    x.envLast = (x.power d (symbolStart (symbolMu s b) (airNow t.air)) (airNow t.air)).mean.getD b.envLast ∧
    (d = .ingress → ∀ g, s.np.gates.get n = some g → ∃ h e, t.np.gates.get n = some { gateSymbol (symbolMu s b)
      (x.power d (symbolStart (symbolMu s b) (airNow t.air)) (airNow t.air)).mean
      (ownSegment t x.params (symbolStart (symbolMu s b) (airNow t.air))) (inPaddock s (ibUnit n)) g with held := h, decided := e })

/-- Whether an ingress band path is in PADDOCK is a matter of the faults, its chain and the part's member. -/
theorem inPaddock_ib {n : Nat} {s t : State} (hfault : t.fault = s.fault) (hchain : ibChain t n = ibChain s n)
    (hmember : t.fl.memberId = s.fl.memberId) : inPaddock t (ibUnit n) = inPaddock s (ibUnit n) := by
  have hown : ownMember t = ownMember s := by rw [ownMember, hmember, ownMember]
  have hcontainers : containers t (ibUnit n) = containers s (ibUnit n) := by
    change [chainUnit (ibChain t n), memberUnit (ownMember t), partUnit] = [chainUnit (ibChain s n), memberUnit (ownMember s), partUnit]
    rw [hchain, hown]
  have hpattern (x : State) : onPattern x (ibUnit n) = false := rfl
  rw [inPaddock, inPaddock, penned, penned, hfault, hcontainers, hpattern, hpattern]

/-- Whether an instant lies in a segment of the own direction is a matter of the patterns and the role. -/
theorem ownSegment_congr {s t : State} (hair : t.air = s.air) (hsys : t.sys = s.sys) (p : BpParams) (i : AirInstant) :
    ownSegment t p i = ownSegment s p i := by
  have hdl (c : Nat) : dlChain t c = dlChain s c := by rw [dlChain, dlChain, hsys]
  unfold ownSegment
  rw [hair]
  simp only [hdl]

theorem power_envLast (d : Dir) (b : BandPath) (e : Int) (lo hi : AirInstant) :
    ({ b with envLast := e } : BandPath).power d lo hi = b.power d lo hi := rfl

theorem gateSymbol_held (mu : Nat) (env : Option Int) (own paddock : Bool) (g : UlGate) (l h : List Block)
    (e : List (AirInstant × Bool)) :
    ({ gateSymbol mu env own paddock { g with held := l } with held := h, decided := e } : UlGate) =
      { gateSymbol mu env own paddock g with held := h, decided := e } := rfl

/-- The end of a symbol (R111, R162). -/
theorem symbolEnded_symbolBoundary {d : Dir} {n : Nat} (l : List RawBlock) {s : State} {b : BandPath}
    (hb : bandPath s d n = some b) : SymbolEnded d n s b (symbolBoundary d n l s) := by
  unfold symbolBoundary
  rw [hb]
  dsimp -zeta only
  extract_lets mu key s0 s1 hi lo
  have hb0 : bandPath s0 d n = some b := (bandPath_of_ce (advanceToSymbol_ce ..) d n).trans hb
  obtain ⟨y, hs1, henv, hchain⟩ : ∃ y, bandPath s1 d n = some y ∧ y.envLast = b.envLast ∧ y.params = b.params := by
    obtain ⟨r, c, g, h⟩ := bandPath_feed l hb0
    exact ⟨_, h, rfl, rfl⟩
  have hingress : d = .ingress → Fed n s0 s1 := by
    rintro rfl
    exact fed_feed n l s0
  have hfault : s1.fault = s.fault := by
    unfold s1
    split
    · exact (feed_only (Only.refl 422337 s0) rfl .fault rfl).trans (advanceToSymbol_only (Only.refl 1 s) rfl .fault rfl)
    · exact advanceToSymbol_only (Only.refl 1 s) rfl .fault rfl
  have hfl : s0.fl = s.fl := advanceToSymbol_only (Only.refl 1 s) rfl .fl rfl
  have hnp : s0.np = s.np := advanceToSymbol_only (Only.refl 1 s) rfl .np rfl
  clear_value s0 s1 key
  rw [hs1]
  dsimp -zeta only
  extract_lets env s2
  have hs2 : bandPath s2 d n = some { y with envLast := env.getD y.envLast } := by
    rw [bandPath_modBand, hs1]
    rfl
  have hkeeps : Only 64 s1 s2 := modBand_only (Only.refl 64 s1) rfl
  have henvLast : ({ y with envLast := env.getD y.envLast } : BandPath).envLast = env.getD b.envLast := by rw [← henv]
  cases d with
  | egress =>
    refine ⟨{ y with envLast := env.getD y.envLast }, hs2, ?_, fun h => by cases h⟩
    have hair : s2.air = s1.air := hkeeps .air rfl
    rw [if_neg (by decide), hair, power_envLast]
    exact henvLast
  | ingress =>
    have hgate := gateDecides_only (x0 := n) (x1 := mu) (x2 := y) (x3 := lo) (x4 := hi) (x5 := env) (Only.refl 422336 s2) rfl
    have hair : (gateDecides n mu y lo hi env s2).air = s1.air := hgate .air rfl
    have hfed := hingress rfl
    refine ⟨{ y with envLast := env.getD y.envLast }, ?_, ?_, fun _ g hg => ?_⟩
    · exact (congrArg (fun x => x.get n) (ib_gateDecides ..)).trans hs2
    · rw [if_pos rfl, hair, power_envLast]
      exact henvLast
    · obtain ⟨h, hheld⟩ := hfed.gate g (by rw [hnp]; exact hg)
      obtain ⟨h', e, hv⟩ := gates_gateDecides (mu := mu) (b := y) (lo := lo) (hi := hi) (env := env) (s := s2) hheld
      refine ⟨h', e, ?_⟩
      have hpaddock : inPaddock s2 (ibUnit n) = inPaddock s (ibUnit n) := by
        refine inPaddock_ib ((hkeeps .fault rfl).trans hfault) ?_ ?_
        · have h2 : s2.ce.ib.get n = some { y with envLast := env.getD y.envLast } := hs2
          have h0 : s.ce.ib.get n = some b := hb
          rw [ibChain, ibChain, h2, h0]
          exact congrArg BpParams.chain hchain
        · exact (congrArg FlState.memberId (hkeeps .fl rfl)).trans (hfed.member.trans (congrArg FlState.memberId hfl))
      rw [if_pos rfl, hv, hpaddock, hair, ownSegment_congr (hgate .air rfl) (hgate .sys rfl), power_envLast, gateSymbol_held]

/-! Windows (R109, R110). -/

/-- What a window's end latches of a band path whose detector saw the power `p` in it. -/
def WindowLatched (b x : BandPath) (p : PowerSum) : Prop :=
  x.detSeq = b.detSeq + 1 ∧ x.windowK = b.windowNext.getD b.windowK ∧ x.windowNext = none ∧
    (p.count = 0 → x.detMean = none) ∧
    ∀ a, 0 < p.count → p.mean = some a → (decibel (p.peak * unity / 2 ^ 36) < a → x.detInvalid ∧ x.detMean = none) ∧
      (a ≤ decibel (p.peak * unity / 2 ^ 36) → ¬b.detInvalid → x.detMean = some a ∧
        x.detPeak = some (decibel (p.peak * unity / 2 ^ 36)))

theorem mean_of_count_zero {p : PowerSum} (h : p.count = 0) : p.mean = none := by
  rw [PowerSum.mean, meanPower, h]
  rfl

/-- The end of a detector window (R109, R110). -/
theorem windowLatched_detectorWindowEnd {d : Dir} {n : Nat} (l : List RawBlock) (symbols : List (List Nat)) {s : State}
    {b : BandPath} (hb : bandPath s d n = some b) : ∃ x, bandPath (detectorWindowEnd d n l symbols s) d n = some x ∧
      WindowLatched b x (x.power d (instantBack (windowBoundary s.air b) (tcPerTick * 2 ^ b.windowK)) (windowBoundary s.air b)) := by
  unfold detectorWindowEnd
  rw [hb]
  dsimp -zeta only
  extract_lets i s0 s1
  have hb0 : bandPath s0 d n = some b := (bandPath_of_ce advanceToAir_keeps_ce d n).trans hb
  obtain ⟨y, hs1, hseq, hnext, hk, hinvalid⟩ : ∃ y, bandPath s1 d n = some y ∧ y.detSeq = b.detSeq ∧
      y.windowNext = b.windowNext ∧ y.windowK = b.windowK ∧ y.detInvalid = b.detInvalid := by
    obtain ⟨r, c, g, h⟩ := bandPath_feed l hb0
    exact ⟨_, h, rfl, rfl, rfl, rfl⟩
  clear_value s1
  rw [hs1]
  dsimp -zeta only
  extract_lets p mean peak broken ok m s2 trigger s3
  have hs2 : bandPath s2 d n = some { y with
      windowAt := some i, windowK := y.windowNext.getD y.windowK, windowNext := none
      detMean := m, detPeak := if ok then peak else none, lastMean := m <|> y.lastMean, detSeq := y.detSeq + 1
      goodWindows := if m.isSome then y.goodWindows + 1 else 0
      detInvalid := y.detInvalid || broken, detFault := if broken then y.detSeq + 1 else y.detFault } := by
    rw [bandPath_modBand, hs1]
    rfl
  have hs3 : s3.ce = s2.ce := by
    have htrigger : trigger.ce = s2.ce := levelTrigger_keeps_ce
    unfold s3
    split
    · rw [raiseLevel_keeps_ce, htrigger]
    · split
      · rw [endFault_keeps_ce, htrigger]
      · exact htrigger
  have hx := (bandPath_of_ce hs3 d n).trans hs2
  have hlatched : WindowLatched b { y with
      windowAt := some i, windowK := y.windowNext.getD y.windowK, windowNext := none
      detMean := m, detPeak := if ok then peak else none, lastMean := m <|> y.lastMean, detSeq := y.detSeq + 1
      goodWindows := if m.isSome then y.goodWindows + 1 else 0
      detInvalid := y.detInvalid || broken, detFault := if broken then y.detSeq + 1 else y.detFault } p := by
    refine ⟨congrArg (· + 1) hseq, ?_, rfl, fun hzero => ?_, fun a hpos hmean => ⟨fun hlt => ?_, fun hle hvalid => ?_⟩⟩
    · rw [hnext, hk]
    · have hm : mean = none := mean_of_count_zero hzero
      change (if ok = true then mean else none) = none
      rw [hm, ite_self]
    · have hpeak : peak = some (decibel (p.peak * unity / 2 ^ 36)) := if_neg (Nat.pos_iff_ne_zero.mp hpos)
      have hbroken : broken = true := by
        unfold broken
        rw [show mean = some a from hmean, hpeak]
        exact decide_eq_true hlt
      have hok : ok = false := by
        unfold ok
        rw [hbroken]
        rfl
      refine ⟨?_, ?_⟩
      · rw [hbroken, Bool.or_true]
      · change (if ok = true then mean else none) = none
        rw [hok]
        rfl
    · have hpeak : peak = some (decibel (p.peak * unity / 2 ^ 36)) := if_neg (Nat.pos_iff_ne_zero.mp hpos)
      have hbroken : broken = false := by
        unfold broken
        rw [show mean = some a from hmean, hpeak]
        exact decide_eq_false (not_lt.mpr hle)
      have hok : ok = true := by
        unfold ok
        rw [hbroken, hinvalid, Bool.eq_false_iff.mpr hvalid]
        rfl
      refine ⟨?_, ?_⟩
      · change (if ok = true then mean else none) = some a
        rw [hok]
        exact hmean
      · rw [hok]
        exact hpeak
  have hpower : p = y.power d (instantBack i (tcPerTick * 2 ^ b.windowK)) i := by
    rw [← hk]
  rw [hpower] at hlatched
  cases d with
  | ingress => exact ⟨_, hx, hlatched⟩
  | egress =>
    have hnoise : (noiseWindow n symbols s3).ce = s3.ce := noiseWindow_only (Only.refl 256 s3) rfl .ce rfl
    clear_value s3
    refine ⟨_, ?_, hlatched⟩
    dsimp -zeta only [bandPath]
    rw [(gapsOnly_refreshGains _).eb, hnoise]
    exact hx

/-! Predistortion (R113–R116) and flow blocks. -/

theorem dpd_toNextSlot (k : Nat) (s : State) : (toNextSlot s).dpd k = s.dpd k :=
  dpd_of_ce (toNextSlot_only (Only.refl 1 s) rfl .ce rfl) k

/-- A waiting set is applied: one of those that wait is in use, and none waits. -/
theorem dpdUpdateApply_dpd {n : Nat} {s : State} {set : DpdSet} (h : .apply set ∈ (s.dpd n).pending) :
    ((dpdUpdateApply n s).dpd n).updates = (s.dpd n).updates + 1 ∧ (∀ x, .apply x ∉ ((dpdUpdateApply n s).dpd n).pending) ∧
      ∃ x, .apply x ∈ (s.dpd n).pending ∧ ((dpdUpdateApply n s).dpd n).sets.get (s.dpd n).active = x := by
  unfold dpdUpdateApply
  extract_lets d s1
  cases hfirst : d.pending.findSome? (fun p => match p with
    | .apply x => some x
    | _ => none) with
  | none => exact absurd (List.findSome?_eq_none_iff.mp hfirst _ h) (Option.some_ne_none set)
  | some x =>
    have hx : .apply x ∈ (s.dpd n).pending := by
      obtain ⟨p, hp, hpx⟩ := List.exists_of_findSome?_eq_some hfirst
      cases p <;> cases hpx
      exact hp
    dsimp -zeta only
    rw [modDpd_dpd, dpd_toNextSlot]
    refine ⟨rfl, fun y hy => ?_, x, hx, get_set_same ..⟩
    exact absurd (List.mem_filter.mp hy).2 Bool.false_ne_true

/-- A waiting revert restores the earlier set; the third in a row holds the chain (R116). -/
theorem dpdUpdateRevert_dpd {n : Nat} {s : State} {a : Int} {old : DpdSet} (h : .revert ∈ (s.dpd n).pending)
    (hbefore : (s.dpd n).before = some (a, old)) :
    ((dpdUpdateRevert n s).dpd n).rejects = (s.dpd n).rejects + 1 ∧ .revert ∉ ((dpdUpdateRevert n s).dpd n).pending ∧
      ((s.dpd n).rejectRun < 2 → ((dpdUpdateRevert n s).dpd n).sets.get (s.dpd n).active = old ∧
        ((dpdUpdateRevert n s).dpd n).state = (s.dpd n).state) ∧
      (2 ≤ (s.dpd n).rejectRun → ((dpdUpdateRevert n s).dpd n).state = .held) := by
  have hcontains : (s.dpd n).pending.contains .revert = true := List.contains_iff_mem.mpr h
  unfold dpdUpdateRevert
  extract_lets d s1 s2
  have hd : d.pending.contains .revert = true := hcontains
  rw [if_pos hd]
  have hs2 : s2.dpd n = { s.dpd n with
      pending := (s.dpd n).pending.filter (· != .revert), sets := (s.dpd n).sets.set (s.dpd n).active old
      before := none, rejects := (s.dpd n).rejects + 1, rejectRun := (s.dpd n).rejectRun + 1 } := by
    unfold s2 s1
    rw [modDpd_dpd, dpd_toNextSlot, hbefore]
  have hrun : (s2.ce.dpd.get n).rejectRun = (s.dpd n).rejectRun + 1 := congrArg Dpd.rejectRun hs2
  clear_value s2
  by_cases hthree : 3 ≤ (s2.ce.dpd.get n).rejectRun
  · have hdiverge : (dpdDiverge n s2).dpd n = { s2.dpd n with
        state := .held, rejectRun := 0, overRun := 0, pending := []
        sets := match (s2.dpd n).best with
          | some (_, x) => (s2.dpd n).sets.set (s2.dpd n).active x
          | none => (s2.dpd n).sets } := by
      rw [dpdDiverge, dpd_of_ce raiseMoment_keeps_ce, modDpd_dpd] <;> rfl
    rw [if_pos hthree, hdiverge]
    refine ⟨?_, List.not_mem_nil, fun hlt => by omega, fun _ => rfl⟩
    rw [hs2]
  · rw [if_neg hthree, hs2]
    refine ⟨rfl, fun hmem => ?_, fun _ => ⟨get_set_same .., rfl⟩, fun hle => by omega⟩
    exact absurd (List.mem_filter.mp hmem).2 (by decide)

/-- A waiting switch selects its set (R114). -/
theorem dpdSetSwitch_dpd {n k : Nat} {s : State} (h : .switch k ∈ (s.dpd n).pending) :
    .switch ((dpdSetSwitch n s).dpd n).active ∈ (s.dpd n).pending ∧ ((dpdSetSwitch n s).dpd n).best = none ∧
      ∀ x, .switch x ∉ ((dpdSetSwitch n s).dpd n).pending := by
  unfold dpdSetSwitch
  cases hband : switchBand (s.ce.dpd.get n).pending with
  | none => exact absurd (List.findSome?_eq_none_iff.mp hband _ h) (Option.some_ne_none k)
  | some x =>
    have hx : .switch x ∈ (s.dpd n).pending := by
      obtain ⟨p, hp, hpx⟩ := List.exists_of_findSome?_eq_some hband
      cases p <;> cases hpx
      exact hp
    dsimp -zeta only
    rw [modDpd_dpd]
    refine ⟨hx, rfl, fun y hy => ?_⟩
    exact absurd (List.mem_filter.mp hy).2 Bool.false_ne_true

/-- A block of the flow that feeds an egress band path sets its source marks (R102, R104). -/
theorem flowBlockArrival_marks {n k : Nat} {blk : Block} {s : State} {b : BandPath} (hb : s.ce.eb.get n = some b)
    (hflow : b.params.srcFlow) : ((flowBlockArrival n k blk s).ce.eb.get n).map (fun x => (x.srcSettling, x.srcGapped, x.rateMismatch)) =
      some (blk.settling, blk.gapped, k != rateKsps b.params.stages) := by
  unfold flowBlockArrival
  rw [hb]
  dsimp -zeta only
  rw [if_pos hflow]
  obtain ⟨f, hce, hf⟩ := egressBlock_ce n (instantAfter blk.at_ s.dv.targetTc) blk (refreshGains (modBand .egress n (fun x => { x with
    srcSettling := blk.settling, srcGapped := blk.gapped, rateMismatch := k != rateKsps x.params.stages
    gapBlocks := if blk.gapped then x.gapBlocks + 1 else x.gapBlocks }) s))
  have hmarked : (refreshGains (modBand .egress n (fun x => { x with
      srcSettling := blk.settling, srcGapped := blk.gapped, rateMismatch := k != rateKsps x.params.stages
      gapBlocks := if blk.gapped then x.gapBlocks + 1 else x.gapBlocks }) s)).ce.eb.get n = some { b with
        srcSettling := blk.settling, srcGapped := blk.gapped, rateMismatch := k != rateKsps b.params.stages
        gapBlocks := if blk.gapped then b.gapBlocks + 1 else b.gapBlocks } := by
    rw [(gapsOnly_refreshGains _).eb]
    exact (bandPath_modBand .egress n _ s).trans (congrArg _ hb)
  rw [hce]
  refine (congrArg _ ((bandPath_modBand .egress n f _).trans (congrArg _ hmarked))).trans ?_
  obtain ⟨-, hsettling, hgapped, hrate⟩ := hf { b with
    srcSettling := blk.settling, srcGapped := blk.gapped, rateMismatch := k != rateKsps b.params.stages
    gapBlocks := if blk.gapped then b.gapBlocks + 1 else b.gapBlocks }
  rw [Option.map_some, Option.map_some, hsettling, hgapped, hrate]

/-- A block of another flow, or one at a band path that no flow feeds, does nothing. -/
theorem execFlowBlockArrival_other {n f k : Nat} {blk : Block} {s : State} {b : BandPath} (hb : s.ce.eb.get n = some b)
    (h : ¬b.params.srcFlow ∨ b.params.srcId ≠ f) : execFlowBlockArrival n f k blk s = .next s := by
  unfold execFlowBlockArrival flowBlockArrival
  rw [hb]
  dsimp -zeta only
  by_cases hid : b.params.srcId = f
  · rw [if_neg (h.resolve_right (not_not_intro hid)), ite_self]
  · rw [if_neg]
    simpa using hid

/-- Settles O24, event by event. -/
theorem detectorsAndPredistortionRun : Obligations.DetectorsAndPredistortionRun := by
  unfold Obligations.DetectorsAndPredistortionRun
  intro s d n k f b fs cs y a g blk set old
  refine ⟨fun hb => ?_, fun hb => ?_, fun hb => ?_, fun h => ?_, fun h hbefore => ?_, fun h => ?_, fun hb hflow hid => ?_,
    fun hb h => ?_⟩
  · refine runs_of_only (t := detectorWindowEnd d n (rawBlocks fs cs) y s) rfl execDetectorWindowEnd_only (by decide) ?_
    obtain ⟨x, hx, hseq, hk, hnext, hzero, hmean⟩ := windowLatched_detectorWindowEnd (rawBlocks fs cs) y hb
    exact ⟨x, _, _, hx, hseq, hk, hnext, rfl, rfl, hzero, hmean a⟩
  · refine runs_of_only (t := detectorSelfCheckFail d n s) rfl execDetectorSelfCheckFail_only (by decide) ?_
    have heq : detectorSelfCheckFail d n s = raiseLevel { cls := 0x21, unit := bpUnit d n } (modBand d n (fun x => { x with
        detInvalid := true, detFault := x.detSeq, detMean := none, detPeak := none, goodWindows := 0 }) s) := by
      rw [detectorSelfCheckFail, hb]
      rfl
    rw [heq, bandPath_of_ce raiseLevel_keeps_ce, bandPath_modBand, hb]
    rfl
  · refine runs_of_only (t := symbolBoundary d n (rawBlocks fs cs) s) rfl execSymbolBoundary_only (by decide) ?_
    obtain ⟨x, hx, henv, hgate⟩ := symbolEnded_symbolBoundary (rawBlocks fs cs) hb
    refine ⟨x, _, _, hx, rfl, rfl, henv, fun hd hg => ?_⟩
    obtain ⟨h, e, hv⟩ := hgate hd g hg
    obtain ⟨hclosed, hkept, hopen⟩ := gateSymbol_rules (symbolMu s b)
      (x.power d (symbolStart (symbolMu s b) (airNow (symbolBoundary d n (rawBlocks fs cs) s).air))
        (airNow (symbolBoundary d n (rawBlocks fs cs) s).air)).mean
      (ownSegment (symbolBoundary d n (rawBlocks fs cs) s) x.params
        (symbolStart (symbolMu s b) (airNow (symbolBoundary d n (rawBlocks fs cs) s).air))) (inPaddock s (ibUnit n)) g
    refine ⟨_, hv, fun hc => ?_, fun he => hkept he, fun hm hp ho => ?_⟩
    · exact Bool.eq_false_iff.mp (hclosed (hc.imp_right (fun hn => Bool.eq_false_iff.mpr hn)))
    · exact hopen hm (Bool.eq_false_iff.mpr hp) ho
  · exact runs_of_only (t := dpdUpdateApply n s) rfl execDpdUpdateApply_only (by decide) (dpdUpdateApply_dpd h)
  · exact runs_of_only (t := dpdUpdateRevert n s) rfl execDpdUpdateRevert_only (by decide) (dpdUpdateRevert_dpd h hbefore)
  · exact runs_of_only (t := dpdSetSwitch n s) rfl execDpdSetSwitch_only (by decide) (dpdSetSwitch_dpd h)
  · refine runs_of_only (t := flowBlockArrival n k blk s) ?_ execFlowBlockArrival_only (by decide) (flowBlockArrival_marks hb hflow)
    refine congrArg Host.Outcome.next (if_pos ?_)
    rw [hb, Option.any_some, hid, beq_self_eq_true]
  · exact execFlowBlockArrival_other hb h

end Sys2Proof.Machine
end

section
set_option Elab.async false
/-! What a refresh leaves of network protection (R152–R160): of a gain stack its mutes, and its commanded gain where no soft-start
runs; of the rest everything but the shares. -/

namespace Sys2Proof.Machine

open Sys2Proof

/-- A gain stack followed in time: the mute sources are the same, and the commanded gain where no soft-start runs. -/
structure GainStack.Kept (g h : GainStack) : Prop where
  host : h.host = g.host
  donors : h.donors = g.donors
  cmd : g.soft = none → h.soft = none ∧ h.gCmd = g.gCmd

namespace GainStack.Kept

theorem refl (g : GainStack) : g.Kept g := ⟨rfl, rfl, fun h => ⟨h, rfl⟩⟩

theorem trans {g h k : GainStack} (p : g.Kept h) (q : h.Kept k) : g.Kept k :=
  ⟨q.host.trans p.host, q.donors.trans p.donors, fun hsoft =>
    have hh := p.cmd hsoft
    have hk := q.cmd hh.1
    ⟨hk.1, hk.2.trans hh.2⟩⟩

/-- Whatever leaves the three fields of the command alone. -/
theorem of_fields {g h : GainStack} (hhost : h.host = g.host) (hdonors : h.donors = g.donors) (hsoft : h.soft = g.soft)
    (hcmd : h.gCmd = g.gCmd) : g.Kept h := ⟨hhost, hdonors, fun hnone => ⟨hsoft.trans hnone, hcmd⟩⟩

theorem followSoft (t : Nat) (g : GainStack) : g.Kept (followSoft t g) := by
  unfold Machine.followSoft
  split
  · exact .refl g
  next x hx => exact ⟨rfl, rfl, fun hnone => absurd (hx.symm.trans hnone) (Option.some_ne_none x)⟩

theorem followSlew (t : Nat) (g : GainStack) : g.Kept (followSlew t g) := by
  unfold Machine.followSlew
  split
  · exact .refl g
  · extract_lets m
    split
    · exact .of_fields rfl rfl rfl rfl
    · exact .of_fields rfl rfl rfl rfl

theorem aimAt (t : Nat) (x : Int) (g : GainStack) : g.Kept (aimAt t x g) := by
  unfold Machine.aimAt
  split
  · exact .of_fields rfl rfl rfl rfl
  · split
    · exact .of_fields rfl rfl rfl rfl
    · exact .of_fields rfl rfl rfl rfl

theorem refreshTerms (s : State) (e : Nat) (b : BandPath) (g : GainStack) : g.Kept (refreshTerms s e b g) := by
  unfold Machine.refreshTerms
  extract_lets t muted excl g1 x g2 f
  have h : g.Kept g2 := ((followSoft t g).trans (followSlew t _)).trans (aimAt t x.1 g1)
  exact h.trans (.of_fields rfl rfl rfl rfl)

end GainStack.Kept

/-- From `s` to `t` the gain stacks are followed in time, and nothing else of network protection differs. -/
structure StacksKept (s t : State) : Prop where
  stack : ∀ e, (s.np.gain.get e).Kept (t.np.gain.get e)
  rest : { t.np with gain := s.np.gain } = s.np

namespace StacksKept

theorem of_np {s t : State} (h : t.np = s.np) : StacksKept s t := ⟨fun _ => by rw [h]; exact .refl _, by rw [h]⟩

theorem trans {s t u : State} (h : StacksKept s t) (k : StacksKept t u) : StacksKept s u := by
  refine ⟨fun e => (h.stack e).trans (k.stack e), ?_⟩
  have hrest := congrArg (fun n : NpState => { n with gain := s.np.gain }) k.rest
  exact hrest.trans h.rest

theorem foldl {α : Type} {f : State → α → State} (hf : ∀ s x, StacksKept s (f s x)) (l : List α) (s : State) :
    StacksKept s (l.foldl f s) := by
  induction l generalizing s with
  | nil => exact of_np rfl
  | cons x l ih => exact (hf s x).trans (ih _)

/-- One stack changed. -/
theorem modStack {e : Nat} {f : NpState → GainStack → GainStack} (s : State) (hf : ∀ g : GainStack, g.Kept (f s.np g)) :
    StacksKept s (s.modNp (fun n => { n with gain := n.gain.mod e (f n) })) := by
  refine ⟨fun k => ?_, rfl⟩
  by_cases hk : k = e
  · subst hk
    rw [modNp_np, get_mod_same]
    exact hf _
  · rw [modNp_np, get_mod_other _ _ hk]
    exact .refl _

theorem noise {s t : State} (h : StacksKept s t) : t.np.noise = s.np.noise := (congrArg NpState.noise h.rest :)

theorem outputs {s t : State} (h : StacksKept s t) : t.np.outputs = s.np.outputs := (congrArg NpState.outputs h.rest :)

theorem backoffs {s t : State} (h : StacksKept s t) : t.np.backoffs = s.np.backoffs := (congrArg NpState.backoffs h.rest :)

end StacksKept

theorem stacksKept_noteGap (s : State) (p : Nat × BandPath) : StacksKept s (noteGap s p) :=
  .of_np (noteGap_only (Only.refl 64 s) rfl .np rfl)

theorem stacksKept_refreshOne (s : State) (p : Nat × BandPath) : StacksKept s (refreshOne s p) := by
  unfold refreshOne
  exact .modStack s (fun g => .refreshTerms s p.1 p.2 g)

theorem stacksKept_writeCap (e : Nat) (s : State) : StacksKept s (writeCap e s) := by
  unfold writeCap
  split
  · refine .modStack s (fun g => ?_)
    exact .of_fields rfl rfl rfl rfl
  · refine .modStack s (fun g => ?_)
    exact .of_fields rfl rfl rfl rfl

theorem stacksKept_applyCap (e : Nat) (s : State) : StacksKept s (applyCap e s) := by
  unfold applyCap
  extract_lets s1
  split
  · exact (stacksKept_writeCap e s).trans (.of_np raiseLevel_keeps_np)
  · exact stacksKept_writeCap e s

theorem stacksKept_noteMargin (e : Nat) (below : Bool) (s : State) : StacksKept s (noteMargin e below s) :=
  .of_np (noteMargin_only (Only.refl 132 s) rfl .np rfl)

theorem stacksKept_modLoop (e : Nat) (f : Loop → Loop) (s : State) : StacksKept s (modLoop e f s) :=
  .of_np (modLoop_only (Only.refl 128 s) rfl .np rfl)

theorem stacksKept_evalLoop (e : Nat) (s : State) : StacksKept s (evalLoop e s) := by
  unfold evalLoop
  split
  next b l _ _ =>
    split
    · exact stacksKept_writeCap ..
    · split
      next m t _ _ =>
        split
        · exact ((stacksKept_modLoop ..).trans (stacksKept_noteMargin ..)).trans (stacksKept_applyCap ..)
        · extract_lets below
          refine (StacksKept.trans ?_ (stacksKept_noteMargin e below _)).trans (stacksKept_applyCap ..)
          split
          · exact stacksKept_modLoop ..
          · exact .of_np rfl
      · exact stacksKept_applyCap ..
  · exact .of_np rfl

theorem stacksKept_refreshGains (s : State) : StacksKept s (refreshGains s) := by
  unfold refreshGains
  extract_lets s0 s1 s2
  have h0 : StacksKept s s0 := .foldl stacksKept_noteGap _ _
  have h1 : StacksKept s0 s1 := .foldl stacksKept_refreshOne _ _
  have h2 : StacksKept s1 s2 := .foldl (fun (acc : State) (p : Nat × BandPath) => stacksKept_evalLoop p.1 acc) _ _
  exact ((h0.trans h1).trans h2).trans (.foldl stacksKept_refreshOne _ _)

/-! The shares (R158, R160). -/

/-- An output rule without its shares. -/
def OutputRule.sansShares (o : OutputRule) : OutputRule := { o with dTh := 0, xTh := 0, yTh := 0, dNp := 0, xNp := 0, yNp := 0, pProt := 0 }

/-- From `s` to `t` the back-off is shared out again: nothing of network protection but the stacks and the shares differs. -/
structure SharesKept (s t : State) : Prop where
  stack : ∀ e, (s.np.gain.get e).Kept (t.np.gain.get e)
  output : ∀ k, (t.np.outputs.get k).sansShares = (s.np.outputs.get k).sansShares
  rest : { t.np with gain := s.np.gain, outputs := s.np.outputs } = s.np

theorem StacksKept.sharesKept {s t : State} (h : StacksKept s t) : SharesKept s t := by
  refine ⟨h.stack, fun k => by rw [h.outputs], ?_⟩
  have hrest := congrArg (fun n : NpState => { n with outputs := s.np.outputs }) h.rest
  exact hrest

theorem SharesKept.trans {s t u : State} (h : SharesKept s t) (k : SharesKept t u) : SharesKept s u := by
  refine ⟨fun e => (h.stack e).trans (k.stack e), fun e => (k.output e).trans (h.output e), ?_⟩
  have hrest := congrArg (fun n : NpState => { n with gain := s.np.gain, outputs := s.np.outputs }) k.rest
  exact hrest.trans h.rest

theorem SharesKept.backoffs {s t : State} (h : SharesKept s t) : t.np.backoffs = s.np.backoffs :=
  (congrArg NpState.backoffs h.rest :)

theorem SharesKept.limits {s t : State} (h : SharesKept s t) :
    t.np.backoffMax = s.np.backoffMax ∧ t.np.shareMax = s.np.shareMax :=
  ⟨(congrArg NpState.backoffMax h.rest :), (congrArg NpState.shareMax h.rest :)⟩

theorem modAll_get {α : Type} {β : Type} (g : α → β) {f : Nat → α → α} (hf : ∀ k x, g (f k x) = g x) (l : List Nat) (b : Bank α)
    (j : Nat) : g ((b.modAll l f).get j) = g (b.get j) := by
  unfold Bank.modAll
  induction l generalizing b with
  | nil => rfl
  | cons k l ih =>
    refine (ih _).trans ?_
    by_cases hj : j = k
    · rw [hj, get_mod_same, hf]
    · rw [get_mod_other _ _ hj]

theorem stacksKept_writeBackoff (s : State) (p : Nat × BandPath) : StacksKept s (writeBackoff s p) := by
  unfold writeBackoff
  extract_lets o th np
  refine .modStack s (fun g => ?_)
  exact .of_fields rfl rfl rfl rfl

theorem sharesKept_shareBackoff (s : State) : SharesKept s (shareBackoff s) := by
  unfold shareBackoff
  extract_lets s1
  have h1 : SharesKept s s1 :=
    ⟨fun e => .refl _, fun k => modAll_get OutputRule.sansShares (f := computeShares s) (fun _ _ => rfl) _ _ k, rfl⟩
  have h2 : StacksKept s1 ((ebs s1).foldl writeBackoff s1) := .foldl stacksKept_writeBackoff _ _
  exact h1.trans (h2.trans (stacksKept_refreshGains _)).sharesKept

/-- A cause set or removed: nothing of an output rule but its shares differs. -/
theorem sansShares_setBackoff (x : Backoff) (s : State) (k : Nat) :
    ((setBackoff x s).np.outputs.get k).sansShares = (s.np.outputs.get k).sansShares := by
  unfold setBackoff
  exact (sharesKept_shareBackoff _).output k

theorem backoffs_setBackoff (x : Backoff) (s : State) : (setBackoff x s).np.backoffs = (if x.amount = 0 then [] else [x]) ++
    s.np.backoffs.filter (fun y => !(y.cause == x.cause && y.unit == x.unit && y.inst == x.inst)) := by
  unfold setBackoff
  exact (sharesKept_shareBackoff _).backoffs

end Sys2Proof.Machine
end

section
set_option Elab.async false
/-! The commands of network protection (R152–R172). -/

namespace Sys2Proof.Machine

open Sys2Proof

/-- A gain that is commanded while no soft-start runs is the commanded gain. -/
theorem gCmd_gsSetGain {s : State} {q : Req} (hsoft : (s.np.gain.get (u8 q.payload 0)).soft = none) :
    ((specGsSetGain.effect s q).1.np.gain.get (u8 q.payload 0)).gCmd = s32 q.payload 4 := by
  dsimp -zeta only [specGsSetGain]
  extract_lets p t v
  have hset : (s.modNp (fun n => { n with
      gain := n.gain.mod (u8 p 0) (fun g0 =>
        let g := followSoft t g0
        match g.soft with
        | some (_, _, start, dur) =>
          { g with soft := some (g.gCmd, v, t, max (start + dur - t) ((v - g.gCmd).natAbs * 196608)) }
        | none => { g with gCmd := v }) })).np.gain.get (u8 p 0) = { s.np.gain.get (u8 p 0) with gCmd := v } := by
    refine (get_mod_same ..).trans ?_
    have hfollow : followSoft t (s.np.gain.get (u8 p 0)) = s.np.gain.get (u8 p 0) := by
      rw [followSoft, show (s.np.gain.get (u8 p 0)).soft = none from hsoft]
    dsimp only
    rw [hfollow, show (s.np.gain.get (u8 p 0)).soft = none from hsoft]
  have hkept := (stacksKept_refreshGains (s.modNp (fun n => { n with
      gain := n.gain.mod (u8 p 0) (fun g0 =>
        let g := followSoft t g0
        match g.soft with
        | some (_, _, start, dur) =>
          { g with soft := some (g.gCmd, v, t, max (start + dur - t) ((v - g.gCmd).natAbs * 196608)) }
        | none => { g with gCmd := v }) }))).stack (u8 p 0)
  rw [hset] at hkept
  exact (hkept.cmd hsoft).2

theorem modAll_get_not_mem {α : Type} {f : Nat → α → α} {l : List Nat} (b : Bank α) {j : Nat} (hj : j ∉ l) :
    (b.modAll l f).get j = b.get j := by
  unfold Bank.modAll
  induction l generalizing b with
  | nil => rfl
  | cons k l ih =>
    rw [List.mem_cons, not_or] at hj
    exact (ih _ hj.2).trans (get_mod_other _ _ hj.1)

theorem modAll_get_mem {α : Type} {β : Type} (g : α → β) {f : Nat → α → α} {y : β} (hf : ∀ k x, g (f k x) = y) {l : List Nat} (b : Bank α)
    {j : Nat} (hj : j ∈ l) : g ((b.modAll l f).get j) = y := by
  induction l generalizing b with
  | nil => exact absurd hj List.not_mem_nil
  | cons k l ih =>
    change g (((b.mod k (f k)).modAll l f).get j) = y
    by_cases hl : j ∈ l
    · exact ih _ hl
    · have hjk : j = k := (List.mem_cons.mp hj).resolve_right hl
      rw [modAll_get_not_mem _ hl, hjk, get_mod_same, hf]

/-- The HOST mute of the band paths that GS_MUTE names. -/
theorem host_gsMute {s : State} {q : Req} {e : Nat} (he : e ∈ mask128 q.payload 0) (hex : ebExists s e) :
    ((specGsMute.effect s q).1.np.gain.get e).host = (u8 q.payload 16 == 1) := by
  dsimp -zeta only [specGsMute]
  extract_lets p
  rw [((stacksKept_refreshGains _).stack e).host]
  exact modAll_get_mem GainStack.host (f := fun _ g => { g with host := u8 p 16 == 1 }) (fun _ _ => rfl) s.np.gain
    (List.mem_filter.mpr ⟨he, hex⟩)

/-- The host's back-off that NP_BACKOFF_SET puts or removes. -/
theorem backoffs_npBackoffSet {s : State} {q : Req} {u : UnitId}
    (hu : u = if u8 q.payload 0 = 0 then ebUnit (u8 q.payload 1) else chainUnit (u8 q.payload 1)) :
    (u32 q.payload 4 ≠ 0 → ∃ x ∈ (specNpBackoffSet.effect s q).1.np.backoffs,
      x.cause = .host ∧ x.amount = u32 q.payload 4 ∧ x.unit = u) ∧
    (u32 q.payload 4 = 0 → ∀ x ∈ (specNpBackoffSet.effect s q).1.np.backoffs, ¬(x.cause = .host ∧ x.inst = 0 ∧ x.unit = u)) := by
  dsimp -zeta only [specNpBackoffSet]
  extract_lets p v
  have hv : v = u := hu.symm
  rw [backoffs_setBackoff, hv]
  refine ⟨fun hamount => ⟨{ cause := .host, unit := u, inst := 0, amount := u32 p 4 }, ?_, rfl, rfl, rfl⟩, fun hamount x hx => ?_⟩
  · rw [if_neg hamount]
    exact List.mem_append_left _ (List.mem_singleton_self _)
  · rw [if_pos hamount, List.nil_append, List.mem_filter] at hx
    rintro ⟨hcause, hinst, hunit⟩
    simp [hcause, hinst, hunit] at hx

theorem limits_npPolicy (s : State) (q : Req) : (specNpPolicy.effect s q).1.np.backoffMax = u32 q.payload 0 ∧
    (specNpPolicy.effect s q).1.np.shareMax = u32 q.payload 4 := by
  dsimp -zeta only [specNpPolicy]
  obtain ⟨hmax, hshare⟩ := (sharesKept_shareBackoff (s.modNp (fun n => { n with
    backoffMax := u32 q.payload 0, shareMax := u32 q.payload 4 }))).limits
  rw [hmax, hshare]
  exact ⟨rfl, rfl⟩

theorem gate_ulGateConfig (s : State) (q : Req) : ((specUlGateConfig.effect s q).1.np.gates.get (u8 q.payload 0)).map
    (fun g => (g.mode, g.hang, g.gOpen, g.noiseWin)) =
      some (if u8 q.payload 1 = 0 then .gated else if u8 q.payload 1 = 1 then .open_ else .closed, u8 q.payload 2,
        (u32 q.payload 4 : Int), u32 q.payload 8) := by
  dsimp -zeta only [specUlGateConfig]
  extract_lets p n old g s1
  have hs1 : s1.np.gates.get n = some g := get_set_same ..
  split
  · rw [show s1.np.gates.get (u8 p 0) = some g from hs1]
    rfl
  · have hrestart : (restartGate n s1).np.gates.get n = some { g with envs := [], pendingN := true } := by
      rw [restartGate]
      exact (get_mod_same ..).trans (congrArg _ hs1)
    rw [show (restartGate n s1).np.gates.get (u8 p 0) = _ from hrestart]
    rfl

theorem noise_ulNoiseConfig (s : State) (q : Req) :
    ((specUlNoiseConfig.effect s q).1.np.noise.get (u8 q.payload 0)).enable = (u8 q.payload 1 == 1) ∧
      ((specUlNoiseConfig.effect s q).1.np.noise.get (u8 q.payload 0)).limit = s32 q.payload 4 ∧
      ((specUlNoiseConfig.effect s q).1.np.noise.get (u8 q.payload 0)).rise = u32 q.payload 8 ∧
      ((specUlNoiseConfig.effect s q).1.np.noise.get (u8 q.payload 0)).deficit = (u32 q.payload 12 : Int) := by
  dsimp -zeta only [specUlNoiseConfig]
  extract_lets p e on old u s1
  have hs1 : s1.np.noise.get e = u := get_set_same ..
  have hnoise (x : State) (hx : x.np.noise = s1.np.noise) : (refreshGains x).np.noise.get e = u := by
    rw [(stacksKept_refreshGains x).noise, hx, hs1]
  have h : (refreshGains (if on = true then s1 else endFault 0x40 (ebUnit e) s1)).np.noise.get e = u := by
    refine hnoise _ ?_
    split
    · rfl
    · rw [endFault_keeps_np]
  rw [show (refreshGains (if on = true then s1 else endFault 0x40 (ebUnit e) s1)).np.noise.get (u8 p 0) = u from h]
  exact ⟨rfl, rfl, rfl, rfl⟩

/-- The rule of a donor after NP_DONOR_CONFIG. -/
theorem donor_npDonorConfig (s : State) (q : Req) : Replies .ok (specNpDonorConfig.effect s q).2 ∧
    ∃ a b c d e, (specNpDonorConfig.effect s q).1.donor (u8 q.payload 0) = { s.donor (u8 q.payload 0) with
      enable := u8 q.payload 1 == 1, minLevel := s32 q.payload 4, lossTime := u32 q.payload 8
      maxLevel := s32 q.payload 12, ulMask := uN q.payload 16 16
      lossSince := a, okSince := b, loss := c, overTicks := d, overload := e } := by
  dsimp -zeta only [specNpDonorConfig]
  extract_lets p n old r
  by_cases hon : u8 p 1 = 1
  · rw [if_pos hon]
    exact ⟨⟨rfl, rfl⟩, _, _, _, _, _, get_set_same ..⟩
  · rw [if_neg hon]
    refine ⟨⟨rfl, rfl⟩, none, none, false, 0, false, ?_⟩
    rw [State.donor, endFault_keeps_np, endFault_keeps_np]
    exact get_set_same ..

/-- The output rule of a chain after NP_OUTPUT_CONFIG, without its shares. -/
theorem output_npOutputConfig (s : State) (q : Req) : ∃ a b c d,
    ((specNpOutputConfig.effect s q).1.np.outputs.get (u8 q.payload 0 - 8)).sansShares =
      { (s.np.outputs.get (u8 q.payload 0 - 8)).sansShares with
        enable := u8 q.payload 1 == 1, limit := s32 q.payload 4, coupling := (u32 q.payload 8 : Int)
        trip := (u32 q.payload 12 : Int), aclrLimit := (u32 q.payload 16 : Int)
        overRun := a, underRun := b, failRun := c, emission := d } := by
  dsimp -zeta only [specNpOutputConfig]
  extract_lets p t on s1
  have hs1 := congrArg OutputRule.sansShares (show s1.np.outputs.get t = _ from get_mod_same ..)
  have h : ((if on = true then s1 else endFault 0x43 (chainUnit (t + 8)) (endFault 0x44 (chainUnit (t + 8))
      (preBackoff .overpower t 0 (preBackoff .emission t 0 s1)))).np.outputs.get t).sansShares = (s1.np.outputs.get t).sansShares := by
    split
    · rfl
    · rw [endFault_keeps_np, endFault_keeps_np, preBackoff, sansShares_setBackoff, preBackoff, sansShares_setBackoff]
  exact ⟨_, _, _, _, h.trans hs1⟩

/-- Settles O25: each clause is the command's effect on network protection. -/
theorem protectionCommandsSetLimits : Obligations.ProtectionCommandsSetLimits := by
  unfold Obligations.ProtectionCommandsSetLimits
  intro r s
  refine ⟨?_, ?_, ?_, ?_, ?_, ?_, ?_, ?_⟩
  · refine does_of_only rfl rfl specGsSetGain_only (by decide) (fun _ _ => ⟨rfl, rfl⟩) fun h hsoft => ?_
    rw [show (submit specGsSetGain r s).np = _ from submit_after h .np rfl]
    exact gCmd_gsSetGain hsoft
  · refine does_of_only rfl rfl specGsMute_only (by decide) (fun _ _ => ⟨rfl, rfl⟩) fun h e he hex => ?_
    rw [show (submit specGsMute r s).np = _ from submit_after h .np rfl]
    exact host_gsMute he hex
  · refine does_of_only rfl rfl specNpBackoffSet_only (by decide) (fun _ _ => ⟨rfl, rfl⟩) fun h => ?_
    rw [show (submit specNpBackoffSet r s).np = _ from submit_after h .np rfl]
    exact backoffs_npBackoffSet (q := reqOf specNpBackoffSet.opcode r) rfl
  · refine does_of_only rfl rfl specNpPolicy_only (by decide) (fun _ _ => ⟨rfl, rfl⟩) fun h => ?_
    rw [show (submit specNpPolicy r s).np = _ from submit_after h .np rfl]
    exact limits_npPolicy _ (reqOf specNpPolicy.opcode r)
  · refine does_of_only rfl rfl specUlGateConfig_only (by decide) (fun _ _ => ⟨rfl, rfl⟩) fun h => ?_
    rw [show (submit specUlGateConfig r s).np = _ from submit_after h .np rfl]
    exact gate_ulGateConfig _ (reqOf specUlGateConfig.opcode r)
  · refine does_of_only rfl rfl specUlNoiseConfig_only (by decide) (fun _ _ => ⟨rfl, rfl⟩) fun h => ?_
    rw [show (submit specUlNoiseConfig r s).np = _ from submit_after h .np rfl]
    exact noise_ulNoiseConfig _ (reqOf specUlNoiseConfig.opcode r)
  · refine does_of_only rfl rfl specNpDonorConfig_only (by decide) (fun s q => (donor_npDonorConfig s q).1) fun h => ?_
    obtain ⟨-, a, b, c, d, e, hdonor⟩ := donor_npDonorConfig (atStart specNpDonorConfig.opcode r s) (reqOf specNpDonorConfig.opcode r)
    rw [State.donor, show (submit specNpDonorConfig r s).np = _ from submit_after h .np rfl,
      show Bank.get _ (r.u8 0) = _ from hdonor]
    exact ⟨rfl, rfl, rfl, rfl, rfl⟩
  · refine does_of_only rfl rfl specNpOutputConfig_only (by decide) (fun _ _ => ⟨rfl, rfl⟩) fun h => ?_
    obtain ⟨a, b, c, d, hout⟩ := output_npOutputConfig (atStart specNpOutputConfig.opcode r s) (reqOf specNpOutputConfig.opcode r)
    rw [show (submit specNpOutputConfig r s).np = _ from submit_after h .np rfl]
    exact ⟨(congrArg OutputRule.enable hout :), (congrArg OutputRule.limit hout :), (congrArg OutputRule.coupling hout :),
      (congrArg OutputRule.trip hout :), (congrArg OutputRule.aclrLimit hout :)⟩

end Sys2Proof.Machine
end

section
set_option Elab.async false
/-! The watches of network protection (R155, R163–R172). -/

namespace Sys2Proof.Machine

open Sys2Proof

/-- A condition that ended does not hold (R366). -/
theorem holding_endFault (cls : Nat) (u : UnitId) (s : State) : holding (endFault cls u s) cls u = false := by
  unfold endFault
  split
  · simp [conditionHolds, imp_iff_not_or]
  next h => exact Bool.eq_false_iff.mpr h

theorem donor_of_np {s t : State} (h : t.np = s.np) (n : Nat) : t.donor n = s.donor n := by rw [State.donor, h]

theorem donor_set (n : Nat) (r : DonorRule) (s : State) :
    (s.modNp (fun y => { y with donors := y.donors.set n r })).donor n = r := get_set_same ..

theorem gainRampEnd_eq {n m : Nat} {l : List Nat} {s : State} (h : rampEnds (s.np.gain.get n) = m :: l) :
    gainRampEnd n s = reviewMove (afterRamp n (refreshGains (advanceTo (l.foldl min m) s))) := by
  rw [gainRampEnd, h]

theorem ulNoiseRiseTimeout_eq {n m : Nat} {s : State} (hlow : (s.np.noise.get n).lowSince = some m) :
    ulNoiseRiseTimeout n s = raiseFault { cls := 0x40, unit := ebUnit n } ((advanceTo (m + tcPerSecond) s).modNp (fun x => { x with
      noise := x.noise.mod n (fun u => { u with lowSince := some (now (advanceTo (m + tcPerSecond) s)) }) })) := by
  rw [ulNoiseRiseTimeout, hlow]

theorem donorLossTimeout_eq {n m : Nat} {s : State} (hsince : (s.donor n).lossSince = some m) (hon : (s.donor n).enable)
    (hloss : ¬(s.donor n).loss) : donorLossTimeout n s = raiseLevel { cls := 0x41, unit := ibUnit n }
      ((advanceTo (m + tcOfMs (s.donor n).lossTime) s).modNp (fun y => { y with
        donors := y.donors.set n { s.donor n with loss := true, losses := (s.donor n).losses + 1, okSince := none } })) := by
  unfold donorLossTimeout
  extract_lets r
  split
  next h => exact absurd (hsince.symm.trans h) (Option.some_ne_none m)
  next t h =>
    obtain rfl : m = t := Option.some.inj (hsince.symm.trans h)
    refine if_neg ?_
    rintro (hoff | hlost)
    · exact absurd (hon.symm.trans hoff) (by decide)
    · exact hloss hlost

theorem donorRecovery_eq {n m : Nat} {s : State} (hsince : (s.donor n).okSince = some m) (hloss : (s.donor n).loss) :
    donorRecovery n s = endFault 0x41 (ibUnit n) ((advanceTo (m + tcPerSecond) s).modNp (fun y => { y with
      donors := y.donors.set n { s.donor n with loss := false } })) := by
  unfold donorRecovery
  extract_lets r
  split
  next h => exact absurd (hsince.symm.trans h) (Option.some_ne_none m)
  next t h =>
    obtain rfl : m = t := Option.some.inj (hsince.symm.trans h)
    exact if_pos hloss

theorem donorOverloadDetect_eq {n : Nat} {s : State} (hon : (s.donor n).enable) (hover : 32 ≤ (s.donor n).overTicks)
    (hno : ¬(s.donor n).overload) : donorOverloadDetect n s = raiseLevel { cls := 0x42, unit := ibUnit n }
      (s.modNp (fun y => { y with
        donors := y.donors.set n { s.donor n with overload := true, overloads := (s.donor n).overloads + 1 } })) :=
  if_pos ⟨hon, hover, Bool.eq_false_iff.mpr hno⟩

/-- Settles O26, event by event. -/
theorem protectionWatchesLevels : Obligations.ProtectionWatchesLevels := by
  unfold Obligations.ProtectionWatchesLevels
  intro s n m l g b
  refine ⟨fun h => ?_, fun h => ?_, fun hg hb hfull => ?_, fun hlow => ?_, fun hsince hon hloss => ?_, fun hsince hloss => ?_,
    fun hon hover hno => ?_⟩
  · refine runs_of_only (t := gainRampEnd n s) rfl execGainRampEnd_only (by decide) ?_
    rw [gainRampEnd_eq h, waited, reviewMove_only (Only.refl 26 _) rfl .air rfl, afterRamp_only (Only.refl 484 _) rfl .air rfl,
      refreshGains_keeps_air]
    exact advanceTo_waited ..
  · refine congrArg Host.Outcome.next ?_
    rw [gainRampEnd, h]
  · refine runs_of_only (t := noiseWindowFilled n s) rfl execNoiseWindowFilled_only (by decide) ?_
    have heq : noiseWindowFilled n s = s.modNp (fun x => { x with
        gates := x.gates.set n (some { g with pendingN := false, nEst := noiseEstimate g.envs }) }) := by
      rw [noiseWindowFilled, hg, hb]
      exact if_pos hfull
    rw [heq]
    exact get_set_same ..
  · refine runs_of_only (t := ulNoiseRiseTimeout n s) rfl execUlNoiseRiseTimeout_only (by decide) ?_
    rw [ulNoiseRiseTimeout_eq hlow]
    generalize m + tcPerSecond = x
    rw [waited, raiseFault_keeps_air, modNp_air, raiseFault_keeps_np]
    refine ⟨advanceTo_waited x s, ?_, holding_raiseFault _ _⟩
    rw [modNp_np, get_mod_same, State.now, raiseFault_keeps_air, modNp_air, now]
  · refine runs_of_only (t := donorLossTimeout n s) rfl execDonorLossTimeout_only (by decide) ?_
    rw [donorLossTimeout_eq hsince hon hloss]
    generalize m + tcOfMs (s.donor n).lossTime = x
    rw [waited, donor_of_np raiseLevel_keeps_np, donor_set, raiseLevel_keeps_air,
      modNp_air]
    exact ⟨rfl, rfl, holding_raiseLevel _ _, advanceTo_waited ..⟩
  · refine runs_of_only (t := donorRecovery n s) rfl execDonorRecovery_only (by decide) ?_
    rw [donorRecovery_eq hsince hloss]
    generalize m + tcPerSecond = x
    rw [waited, donor_of_np endFault_keeps_np, donor_set, endFault_keeps_air, modNp_air,
      holding_endFault]
    exact ⟨Bool.false_ne_true, Bool.false_ne_true, advanceTo_waited ..⟩
  · refine runs_of_only (t := donorOverloadDetect n s) rfl execDonorOverloadDetect_only (by decide) ?_
    rw [donorOverloadDetect_eq hon hover hno, donor_of_np raiseLevel_keeps_np, donor_set]
    exact ⟨rfl, rfl, holding_raiseLevel _ _⟩

end Sys2Proof.Machine
end

section
set_option Elab.async false
/-! Resets, boot and READY (R440–R451, R457): a reset rebuilds each part from what it keeps, so each part is stated once. -/

namespace Sys2Proof.Machine

open Sys2Proof

/-! What a reset leaves in each part. An open debug session adds its record to the Logbook and nothing else. -/

/-- What a reset leaves of a part that the record of an open debug session does not touch. -/
theorem resetTo_eq {β : Type} (g : State → β) (hg : ∀ (x : List Nat) (u : State), g (submitLog 0x1005 mgmtSource x u) = g u)
    (k : ResetKind) (s : State) : g (resetTo k s) = g (resetTo k { s with sys := { s.sys with debug := .closed } }) := by
  unfold resetTo
  dsimp only [now]
  rw [if_pos rfl]
  by_cases h : s.sys.debug = .closed
  · rw [if_pos h]
    rfl
  · rw [if_neg h, hg]
    rfl

theorem resetTo_sys (k : ResetKind) (s : State) :
    (resetTo k s).sys = sysAfter k (if k = .powerOn then 0 else now s) s.sys :=
  resetTo_eq State.sys (fun _ _ => submitLog_keeps_sys) k s

theorem resetTo_host (k : ResetKind) (s : State) : (resetTo k s).host = hostAfter k (resetTo k s).sys s.host :=
  (resetTo_eq State.host (fun _ _ => submitLog_keeps_host) k s).trans (by rw [resetTo_sys]; rfl)

theorem resetTo_fault (k : ResetKind) (s : State) : (resetTo k s).fault = faultAfter k s.fault :=
  resetTo_eq State.fault (fun _ _ => submitLog_keeps_fault) k s

theorem resetTo_rf (k : ResetKind) (s : State) : (resetTo k s).rf = rfAfter k s.rf :=
  resetTo_eq State.rf (fun _ _ => submitLog_keeps_rf) k s

theorem resetTo_log (k : ResetKind) (s : State) : ∃ l, (resetTo k s).log = { logAfter k s.log with submissions := l } := by
  unfold resetTo
  extract_lets t y s1
  by_cases h : s.sys.debug = .closed
  · exact ⟨_, congrArg State.log (if_pos h)⟩
  · exact ⟨_, congrArg State.log (if_neg h)⟩

theorem find_map_value {α β : Type} (f : α → β) (l : List (Nat × α)) (k : Nat) :
    Bank.find (l.map (fun p => (p.1, f p.2))) k = (Bank.find l k).map f := map_find (fun _ => f) l k

/-- No chain is on after a reset. -/
theorem rfAfter_fe (k : ResetKind) (r : RfState) (n : Nat) : ((rfAfter k r).chains.get n).fe = .off := by
  unfold rfAfter
  split
  · rw [Bank.get, find_map_value (fun y : Chain => ({ tCal := y.tCal, front := y.front } : Chain))]
    cases Bank.find r.chains.cells n <;> rfl
  · rfl

theorem powerOn_runs (s : State) (role : BitVec 2) (boot : BootPins) (k : Nat) :
    Runs (.powerOnReset role boot) s (but [.wire, .drawn, .pending]) (fun t => t.now = 0 ∧ ¬t.sys.ready ∧ t.sys.stage = 0 ∧
      t.sys.resetKind = .powerOn ∧ t.fault.halt = none ∧ heldRecords t.log = [] ∧ t.log.mirror = s.log.mirror ∧
      t.log.head = s.log.mirror.foldl (fun m y => max m y.seq) 0 ∧ ¬t.log.ig ∧ t.host.sessions.get k = none ∧
      t.sys.lifecycle = s.sys.lifecycle ∧ (t.chain k).fe = .off ∧ t.sys.role = s.sys.storedRole.getD (roleOfStraps role)) := by
  refine runs_of_only (t := powerOnReset role boot.boot boot.test s) rfl execPowerOnReset_only (by decide) ?_
  obtain ⟨l, hlog⟩ := resetTo_log .powerOn (sampleStraps role boot.boot boot.test s)
  have hl : (powerOnReset role boot.boot boot.test s).log = { logAfter .powerOn s.log with submissions := l } := hlog
  have hy : (powerOnReset role boot.boot boot.test s).sys = sysAfter .powerOn 0 (sampleStraps role boot.boot boot.test s).sys :=
    resetTo_sys ..
  have hhost := resetTo_host .powerOn (sampleStraps role boot.boot boot.test s)
  have hhalt : (powerOnReset role boot.boot boot.test s).fault.halt = none :=
    congrArg FaultState.halt (resetTo_fault .powerOn (sampleStraps role boot.boot boot.test s))
  have hmono : (powerOnReset role boot.boot boot.test s).air.mono = 0 :=
    congrArg AirState.mono (resetTo_air .powerOn (sampleStraps role boot.boot boot.test s))
  have hfe : ((powerOnReset role boot.boot boot.test s).rf.chains.get k).fe = .off := by
    rw [show (powerOnReset role boot.boot boot.test s).rf = rfAfter .powerOn s.rf from resetTo_rf ..]
    exact rfAfter_fe ..
  have hsess : (powerOnReset role boot.boot boot.test s).host.sessions.get k = none :=
    congrArg (fun h : HostState => h.sessions.get k) hhost
  rw [hl, hy]
  exact ⟨hmono, Bool.false_ne_true, rfl, rfl, hhalt, rfl, rfl, rfl, Bool.false_ne_true, hsess, rfl, hfe, rfl⟩

theorem resetN_runs (s : State) (role : BitVec 2) (boot : BootPins) (k : Nat) :
    Runs (.resetN role boot) s (but [.wire, .drawn, .pending]) (fun t => t.now = s.now ∧ t.air.wallAcc = s.air.wallAcc ∧
      t.air.frame = 0 ∧ t.air.offset = 0 ∧ ¬t.sys.ready ∧ t.sys.resetKind = .resetN ∧ t.fault.halt = none ∧
      heldRecords t.log = heldRecords s.log ∧ t.log.head = s.log.head ∧ ¬t.log.ig ∧ t.host.sessions.get k = none ∧
      (t.chain k).fe = .off) := by
  refine runs_of_only (t := resetN role boot.boot boot.test s) rfl execResetN_only (by decide) ?_
  obtain ⟨l, hlog⟩ := resetTo_log .resetN (sampleStraps role boot.boot boot.test s)
  have hl : (resetN role boot.boot boot.test s).log = { logAfter .resetN s.log with submissions := l } := hlog
  have ha : (resetN role boot.boot boot.test s).air = airAfter .resetN s.air := resetTo_air ..
  have hy : (resetN role boot.boot boot.test s).sys = sysAfter .resetN s.now (sampleStraps role boot.boot boot.test s).sys :=
    resetTo_sys ..
  have hhalt : (resetN role boot.boot boot.test s).fault.halt = none :=
    congrArg FaultState.halt (resetTo_fault .resetN (sampleStraps role boot.boot boot.test s))
  have hfe : ((resetN role boot.boot boot.test s).rf.chains.get k).fe = .off := by
    rw [show (resetN role boot.boot boot.test s).rf = rfAfter .resetN s.rf from resetTo_rf ..]
    exact rfAfter_fe ..
  have hsess : (resetN role boot.boot boot.test s).host.sessions.get k = none :=
    congrArg (fun h : HostState => h.sessions.get k) (resetTo_host .resetN (sampleStraps role boot.boot boot.test s))
  have hig : ¬ ({ logAfter .resetN s.log with submissions := l } : LogState).ig = true := by
    simp [logAfter, ResetKind.keepsHalt]
  rw [hl, ha, hy]
  exact ⟨(congrArg AirState.mono ha).trans rfl, rfl, rfl, rfl, Bool.false_ne_true, rfl, hhalt, rfl, rfl, hig, hsess, hfe⟩

theorem warmReset_eq {s : State} {u : Nat} (h : s.sys.warmAt = some u) :
    warmReset s = refreshFaultN (resetTo .warm (advanceTo (u + tcOfUs 10) s)) := by
  rw [warmReset, h]

theorem warmReset_runs {s : State} {u : Nat} (k : Nat) (h : s.sys.warmAt = some u) :
    Runs .warmReset s (but [.wire, .drawn, .pending]) fun t => waited s t (u + tcOfUs 10) ∧ ¬t.sys.ready ∧
      t.sys.resetKind = .warm ∧ t.sys.warmResets = s.sys.warmResets + 1 ∧ t.fault.halt = s.fault.halt ∧
      t.log.ig = s.log.ig ∧ ¬t.host.pcieUp ∧ t.host.sessions.get k = none ∧ ∀ y ∈ t.rf.chains.cells, y.2.fe = .off := by
  refine runs_of_only (t := warmReset s) rfl execWarmReset_only (by decide) ?_
  rw [warmReset_eq h]
  have hwait := advanceTo_waited (u + tcOfUs 10) s
  generalize u + tcOfUs 10 = x at *
  have hsys : (advanceTo x s).sys = s.sys := advanceTo_keeps_sys
  have hfault : (advanceTo x s).fault = s.fault := advanceTo_keeps_fault
  have hlogs : (advanceTo x s).log = s.log := advanceTo_keeps_log
  obtain ⟨l, hlog⟩ := resetTo_log .warm (advanceTo x s)
  generalize advanceTo x s = v at *
  have hl : (refreshFaultN (resetTo .warm v)).log = { logAfter .warm v.log with submissions := l } := hlog
  have hy : (refreshFaultN (resetTo .warm v)).sys = sysAfter .warm v.now v.sys := resetTo_sys ..
  have ha : (refreshFaultN (resetTo .warm v)).air.mono = v.air.mono := (congrArg AirState.mono (resetTo_air .warm v)).trans rfl
  have hhalt : (refreshFaultN (resetTo .warm v)).fault.halt = v.fault.halt :=
    (congrArg FaultState.halt (resetTo_fault .warm v)).trans rfl
  have hhost : (refreshFaultN (resetTo .warm v)).host = hostAfter .warm (resetTo .warm v).sys v.host := resetTo_host ..
  have hrf : (refreshFaultN (resetTo .warm v)).rf = rfAfter .warm v.rf := resetTo_rf ..
  have hig : ({ logAfter .warm v.log with submissions := l } : LogState).ig = v.log.ig := by
    simp [logAfter, ResetKind.keepsHalt]
  rw [waited, ha, hhalt, hl, hy, hhost, hrf, hig, hfault, hlogs]
  refine ⟨hwait, Bool.false_ne_true, rfl, by rw [← hsys]; rfl, rfl, rfl, Bool.false_ne_true, rfl, fun y hmem => ?_⟩
  obtain ⟨p, -, rfl⟩ := List.mem_map.mp hmem
  rfl

/-! ## The watchdog -/

theorem watchdogTimeout_eq {s : State} (hpower : s.power ≠ .dormant) (hat : s.sys.wdtAt = none) (hcore : ¬s.sys.coreHalted) :
    watchdogTimeout s =
      raiseMoment { cls := 0xB0, unit := partUnit } (s.modSys (fun y => { y with wdtAt := some (now s + tcOfMs 10) })) := by
  rw [watchdogTimeout, if_neg]
  rintro (⟨-, h⟩ | h | h)
  · exact hcore h
  · exact hpower h
  · exact absurd h (by simp [hat])

theorem watchdogTimeout_runs {s : State} (hpower : s.power ≠ .dormant) (hat : s.sys.wdtAt = none) (hcore : ¬s.sys.coreHalted) :
    Runs .watchdogTimeout s [.fault, .sys] fun t => t.sys = { s.sys with wdtAt := some (s.now + tcOfMs 10) } ∧
      RaisedOnce 0xB0 partUnit s t := by
  refine runs_of_only (t := watchdogTimeout s) rfl execWatchdogTimeout_only (by decide) ?_
  rw [watchdogTimeout_eq hpower hat hcore]
  exact ⟨raiseMoment_keeps_sys,
    raisedOnce_raiseMoment { cls := 0xB0, unit := partUnit } (s.modSys (fun y => { y with wdtAt := some (now s + tcOfMs 10) }))⟩

theorem watchdogReset_eq {s : State} {u : Nat} (h : s.sys.wdtAt = some u) :
    watchdogReset s = (if (s.sys.trial && !s.sys.ready) = true then revertTrial (refreshFaultN (resetTo .watchdog (advanceTo u s)))
      else refreshFaultN (resetTo .watchdog (advanceTo u s))) := by
  rw [watchdogReset, h]

@[simp] theorem revertTrial_sys (s : State) :
    (revertTrial s).sys = { s.sys with preferred := otherSlot s.sys.preferred, trialSlot := false, trial := false } := by
  unfold revertTrial
  exact submitLog_keeps_sys

theorem watchdogReset_runs {s : State} {u : Nat} (h : s.sys.wdtAt = some u) :
    Runs .watchdogReset s (but [.wire, .drawn, .pending]) fun t => waited s t u ∧ ¬t.sys.ready ∧
      t.sys.resetKind = .watchdog ∧ t.sys.wdtResets = s.sys.wdtResets + 1 ∧ t.fault.halt = s.fault.halt ∧
      t.sys.preferred = (if s.sys.trial ∧ ¬s.sys.ready then otherSlot s.sys.preferred else s.sys.preferred) := by
  refine runs_of_only (t := watchdogReset s) rfl execWatchdogReset_only (by decide) ?_
  rw [watchdogReset_eq h]
  have hwait := advanceTo_waited u s
  have hsys : (advanceTo u s).sys = s.sys := advanceTo_keeps_sys
  have hfault : (advanceTo u s).fault = s.fault := advanceTo_keeps_fault
  generalize advanceTo u s = v at *
  have hy : (refreshFaultN (resetTo .watchdog v)).sys = sysAfter .watchdog v.now v.sys := resetTo_sys ..
  have ha : (refreshFaultN (resetTo .watchdog v)).air.mono = v.air.mono := (congrArg AirState.mono (resetTo_air .watchdog v)).trans rfl
  have hhalt : (refreshFaultN (resetTo .watchdog v)).fault.halt = s.fault.halt := by
    rw [← hfault]
    exact (congrArg FaultState.halt (resetTo_fault .watchdog v)).trans rfl
  generalize refreshFaultN (resetTo .watchdog v) = w at *
  by_cases hrevert : (s.sys.trial && !s.sys.ready) = true
  · rw [if_pos hrevert, if_pos (by simpa using hrevert), waited, revertTrial_only (Only.refl 24 _) rfl .air rfl,
      revertTrial_only (Only.refl 24 _) rfl .fault rfl, revertTrial_sys, hy, hsys]
    exact ⟨ha.trans hwait, Bool.false_ne_true, rfl, rfl, hhalt, rfl⟩
  · rw [if_neg hrevert, if_neg (by simpa using hrevert), waited, hy, hsys]
    exact ⟨ha.trans hwait, Bool.false_ne_true, rfl, rfl, hhalt, rfl⟩

/-! ## Boot stages -/

/-- The latest end of the present boot stage (R444). -/
def bootLimit (s : State) : Nat := s.sys.lastReset + tcOfMs (stageEnds.getD s.sys.stage 175)

/-- The state at which a boot stage ends, with the image that the host image device offers (R444). -/
def bootView (us : Nat) (x : Option Image) (s : State) : State :=
  advanceTo (if now s < bootLimit s then min (now s + tcOfUs us) (bootLimit s) else now s + tcOfUs us)
    (s.modSys (fun y => { y with imageHost := x }))

/-- A boot stage that can end (R444, R497). -/
def Boots (s : State) : Prop := s.sys.stage ≤ 5 ∧ ¬s.sys.configLoaded ∧ ¬s.sys.testMode

theorem Boots.live {s : State} (h : Boots s) : ¬(5 < s.sys.stage ∨ s.sys.configLoaded ∨ s.sys.testMode) := by
  obtain ⟨hstage, hloaded, htest⟩ := h
  rintro (h | h | h)
  · omega
  · exact hloaded h
  · exact htest h

/-- The image is loaded and verified, after a zeroisation that a reset had interrupted (R442, R444, R463). -/
def bootLoad (s : State) : State :=
  loadImage (match s.sys.zeroising with
    | some z => zeroise z.1 s
    | none => s)

/-- The Logbook starts, and its banks are tested (R444). -/
def bootLogbook (badA badB : Bool) (s : State) : State :=
  let s1 := logStart (s.modSys (fun y => { y with stage := 5 }))
  let s2 := if badA && !s1.log.bankA.failed then failBank .bankA s1 else s1
  if badB && !s2.log.bankB.failed then failBank .bankB s2 else s2

/-- The host paths come up (R444). -/
def bootPaths (s : State) : State :=
  issueNonce 0 (issueNonce 1 ((s.modSys (fun y => { y with stage := 4 })).modHost (fun h => { h with
    pcieUp := true, ethUp := true, ethMode := ethModeOf h.net })))

/-- What the end of a boot stage does (R444). -/
def bootTo (badA badB : Bool) (v : State) : Nat → State
  | 0 => v.modSys (fun y => { y with stage := 1 })
  | 1 => bootLoad v
  | 2 => issueNonce 2 (v.modSys (fun y => { y with stage := 3 }))
  | 3 => bootPaths v
  | 4 => bootLogbook badA badB v
  | _ => v.modSys (fun y => { y with configLoaded := true })

theorem bootLogbook_stage (badA badB : Bool) (s : State) : (bootLogbook badA badB s).sys.stage = 5 := by
  unfold bootLogbook
  extract_lets s1 s2
  have h1 : s1.sys.stage = 5 := congrArg SysState.stage (logStart_only (Only.refl 8 _) rfl .sys rfl)
  have h2 : s2.sys = s1.sys := by
    unfold s2
    split
    · exact failBank_only (Only.refl 12 _) rfl .sys rfl
    · rfl
  split
  · rw [failBank_only (Only.refl 12 _) rfl .sys rfl, h2, h1]
  · rw [h2, h1]

/-- The part runs the image, or stops without one (R442, R444). -/
def Loaded (image : Option (Option SlotSel × Image)) (y : SysState) : Prop :=
  match image with
  | none => y.stage = 7
  | some (some j, i) => y.stage = 2 ∧ y.running = j ∧ y.firmware = i.version ∧ y.bootSource = 0
  | some (none, i) => y.stage = 2 ∧ y.firmware = i.version ∧ y.bootSource = 1

theorem loaded_loadImage (s : State) : Loaded (bootImage s.sys) (loadImage s).sys := by
  unfold Loaded loadImage
  rcases bootImage s.sys with _ | ⟨_ | j, i⟩
  · rfl
  · exact ⟨rfl, rfl, rfl⟩
  · exact ⟨rfl, rfl, rfl, rfl⟩

theorem issueNonce_up (p : Nat) (s : State) : ((issueNonce p s).host.paths.get p).up = true := by
  simp only [issueNonce, modHost_host, get_mod_same]

theorem issueNonce_up_other {p n : Nat} (hne : n ≠ p) (s : State) :
    ((issueNonce p s).host.paths.get n).up = (s.host.paths.get n).up := by
  simp only [issueNonce, modHost_host, get_mod_other _ _ hne, draw]

section
set_option Elab.async false
variable {us : Nat} {x : Option Image} {badA badB : Bool} {s : State} (h : Boots s)
include h

theorem boot_of_stage {n : Nat} (hn : s.sys.stage = n) :
    bootStageAdvance us x badA badB s = bootTo badA badB (bootView us x s) n := by
  have heq : bootStageAdvance us x badA badB s = bootTo badA badB (bootView us x s) s.sys.stage := by
    unfold bootStageAdvance
    exact if_neg h.live
  rw [heq, hn]

theorem bootStage_air : (bootStageAdvance us x badA badB s).air = (bootView us x s).air := by
  rw [boot_of_stage h rfl]
  generalize bootView us x s = v
  unfold bootTo
  split
  · rfl
  · unfold bootLoad
    rw [loadImage_only (Only.refl 16 _) rfl .air rfl]
    split
    · exact zeroise_only (Only.refl 32792 _) rfl .air rfl
    · rfl
  · exact issueNonce_only (Only.refl 262146 _) rfl .air rfl
  · exact issueNonce_only (issueNonce_only (Only.refl 262146 _) rfl) rfl .air rfl
  · unfold bootLogbook
    extract_lets s1 s2
    have h1 : s1.air = v.air := logStart_only (Only.refl 8 _) rfl .air rfl
    have h2 : s2.air = s1.air := by
      unfold s2
      split
      · exact failBank_only (Only.refl 12 _) rfl .air rfl
      · rfl
    split
    · exact (failBank_only (Only.refl 12 _) rfl .air rfl).trans (h2.trans h1)
    · exact h2.trans h1
  · rfl

theorem bootStage_now (hin : s.now < bootLimit s) : (bootStageAdvance us x badA badB s).now ≤ bootLimit s := by
  have hwait : (bootView us x s).air.mono = max s.air.mono _ := advanceTo_waited ..
  rw [if_pos (show now s < bootLimit s from hin)] at hwait
  rw [State.now, bootStage_air h, hwait]
  exact max_le hin.le (min_le_right ..)

theorem bootStage_stage (hn : s.sys.stage = 0 ∨ s.sys.stage = 2 ∨ s.sys.stage = 3 ∨ s.sys.stage = 4) :
    (bootStageAdvance us x badA badB s).sys.stage = s.sys.stage + 1 := by
  obtain hn | hn | hn | hn := hn
  · rw [boot_of_stage h hn, hn]
    rfl
  · rw [boot_of_stage h hn, hn]
    exact congrArg SysState.stage (issueNonce_only (Only.refl 262146 _) rfl .sys rfl)
  · rw [boot_of_stage h hn, hn]
    exact congrArg SysState.stage (issueNonce_only (issueNonce_only (Only.refl 262146 _) rfl) rfl .sys rfl)
  · rw [boot_of_stage h hn, hn]
    exact bootLogbook_stage ..

theorem bootStage_loads (hn : s.sys.stage = 1) (hz : s.sys.zeroising = none) :
    Loaded (bootImage { s.sys with imageHost := x }) (bootStageAdvance us x badA badB s).sys := by
  have hsys : (bootView us x s).sys = { s.sys with imageHost := x } := advanceTo_keeps_sys
  have hz' : (bootView us x s).sys.zeroising = none := by rw [hsys]; exact hz
  have hload : bootLoad (bootView us x s) = loadImage (bootView us x s) := by rw [bootLoad, hz']
  rw [boot_of_stage h hn, ← hsys]
  exact (congrArg (fun t => Loaded _ t.sys) hload).mpr (loaded_loadImage _)

theorem bootStage_ethernet (hn : s.sys.stage = 2) : ((bootStageAdvance us x badA badB s).host.paths.get 2).up := by
  rw [boot_of_stage h hn]
  exact issueNonce_up ..

theorem bootStage_paths (hn : s.sys.stage = 3) :
    ((bootStageAdvance us x badA badB s).host.paths.get 0).up ∧ ((bootStageAdvance us x badA badB s).host.paths.get 1).up ∧
      (bootStageAdvance us x badA badB s).host.pcieUp := by
  rw [boot_of_stage h hn]
  exact ⟨issueNonce_up .., (issueNonce_up_other (by decide) _).trans (issueNonce_up ..), rfl⟩

theorem bootStage_submits (hn : s.sys.stage = 4) (hA : ¬badA) (hB : ¬badB) :
    Submits [0x0100] s (bootStageAdvance us x badA badB s) := by
  have hlog : (bootView us x s).log = s.log := advanceTo_keeps_log
  obtain rfl : badA = false := by simpa using hA
  obtain rfl : badB = false := by simpa using hB
  rw [boot_of_stage h hn]
  simp [Submits, bootTo, bootLogbook, logStart, submitLog, hlog]

theorem bootStage_config (hn : s.sys.stage = 5) : (bootStageAdvance us x badA badB s).sys.configLoaded := by
  rw [boot_of_stage h hn]
  rfl

theorem bootStageAdvance_runs :
    Runs (.bootStageAdvance us x badA badB) s [.air, .host, .fault, .log, .sys, .bell, .drawn] fun t =>
      (s.now < s.sys.lastReset + tcOfMs (stageEnds.getD s.sys.stage 175) →
        t.now ≤ s.sys.lastReset + tcOfMs (stageEnds.getD s.sys.stage 175)) ∧
      (s.sys.stage = 0 ∨ s.sys.stage = 2 ∨ s.sys.stage = 3 ∨ s.sys.stage = 4 → t.sys.stage = s.sys.stage + 1) ∧
      (s.sys.stage = 1 → s.sys.zeroising = none → (match bootImage { s.sys with imageHost := x } with
        | none => t.sys.stage = 7
        | some (some j, i) => t.sys.stage = 2 ∧ t.sys.running = j ∧ t.sys.firmware = i.version ∧ t.sys.bootSource = 0
        | some (none, i) => t.sys.stage = 2 ∧ t.sys.firmware = i.version ∧ t.sys.bootSource = 1)) ∧
      (s.sys.stage = 2 → (t.host.paths.get 2).up) ∧
      (s.sys.stage = 3 → (t.host.paths.get 0).up ∧ (t.host.paths.get 1).up ∧ t.host.pcieUp) ∧
      (s.sys.stage = 4 → ¬badA → ¬badB → Submits [0x0100] s t) ∧ (s.sys.stage = 5 → t.sys.configLoaded) :=
  runs_of_only (t := bootStageAdvance us x badA badB s) rfl execBootStageAdvance_only (by decide)
    ⟨bootStage_now h, bootStage_stage h, bootStage_loads h, bootStage_ethernet h, bootStage_paths h, bootStage_submits h,
      bootStage_config h⟩

end

/-! ## READY, trials and unit resets -/

theorem ready_runs {s : State} (hready : ¬s.sys.ready) (hstage : s.sys.stage = 5) (hconfig : s.sys.configLoaded) :
    Runs .ready s [.host, .fault, .sys, .fl, .pair] fun t => t.sys.ready ∧ t.sys.stage = 6 ∧ ¬t.sys.trial ∧
      t.host.irqStatus.getLsbD irqReady ∧ t.host.order = (List.range 16).filter (fun n => s.host.order.contains n) := by
  refine runs_of_only (t := ready s) rfl execReady_only (by decide) ?_
  unfold ready
  rw [if_neg (by simp [hready, hstage, hconfig])]
  extract_lets hub s1 s2 s3 s4
  have hsys : s4.sys = s1.sys := by
    have h3 : s3.sys = s1.sys :=
      (trainDownPorts_only (Only.refl 4096 s2) rfl .sys rfl).trans (setIrq_keeps_sys (x0 := irqReady) (s := s1))
    unfold s4
    split
    · exact h3
    · split <;> exact h3
  have hhost : s4.host = s2.host := by
    have h3 : s3.host = s2.host := trainDownPorts_only (Only.refl 4096 s2) rfl .host rfl
    unfold s4
    split
    · exact h3
    · split <;> exact h3
  have hirq : s2.host.irqStatus = s.host.irqStatus ||| 1#32 <<< irqReady := setIrqBits_irqStatus ..
  have horder : s2.host.order = ascending s.host.order := congrArg ascending (setIrqBits_order s.host (1#32 <<< irqReady))
  show s4.sys.ready ∧ s4.sys.stage = 6 ∧ ¬s4.sys.trial ∧ s4.host.irqStatus.getLsbD irqReady ∧ s4.host.order = _
  rw [hsys, hhost, hirq, horder]
  exact ⟨rfl, rfl, Bool.false_ne_true, by simp [irqReady], rfl⟩

theorem trialTimeout_runs {s : State} (htrial : s.sys.trial) (hready : ¬s.sys.ready) :
    Runs .trialTimeout s [.air, .log, .sys] fun t => t.sys.preferred = otherSlot s.sys.preferred ∧ ¬t.sys.trial ∧
      t.sys.stage = 1 ∧ waited s t (s.sys.lastReset + tcOfS 2) := by
  refine runs_of_only (t := trialTimeout s) rfl execTrialTimeout_only (by decide) ?_
  have heq : trialTimeout s = (revertTrial (advanceTo (s.sys.lastReset + tcOfS 2) s)).modSys
      (fun y => { y with stage := 1, configLoaded := false }) := by
    rw [trialTimeout, if_neg (by simp [htrial, hready])]
  rw [heq]
  have hwait := advanceTo_waited (s.sys.lastReset + tcOfS 2) s
  have hsys : (advanceTo (s.sys.lastReset + tcOfS 2) s).sys = s.sys := advanceTo_keeps_sys
  generalize s.sys.lastReset + tcOfS 2 = x at *
  generalize advanceTo x s = v at *
  rw [modSys_sys, revertTrial_sys, hsys, waited, modSys_air, revertTrial_only (Only.refl 24 _) rfl .air rfl]
  exact ⟨rfl, Bool.false_ne_true, rfl, hwait⟩

theorem postEvent_evtHead (e : Event) (s : State) : (postEvent e s).host.evtHead = s.host.evtHead + 1 := by
  unfold postEvent
  simp only [modHost_host, apply_ite HostState.evtHead, setIrqBits_evtHead, ite_self]

theorem unitResetComplete_runs {s : State} {us sub by_ : Nat} {tk : Ticket} {rest : List (Nat × Nat × Ticket)}
    (h : s.sys.unitReset = (sub, by_, tk) :: rest) :
    Runs (.unitResetComplete us) s [.air, .host, .log, .sys] fun t =>
      t.sys = { s.sys with unitReset := rest, unitResets := s.sys.unitResets + 1 } ∧
      waited s t (min by_ (s.now + tcOfUs us)) ∧ t.host.evtHead = s.host.evtHead + 1 ∧ Submits [0x1001] s t := by
  refine runs_of_only (t := unitResetComplete us s) rfl execUnitResetComplete_only (by decide) ?_
  have heq : unitResetComplete us s = complete tk .ok 0 (submitLog 0x1001 mgmtSource [sub]
      ((advanceTo (min by_ (s.now + tcOfUs us)) s).modSys
        (fun y => { y with unitReset := rest, unitResets := y.unitResets + 1 }))) := by
    rw [unitResetComplete, h]
    rfl
  rw [heq]
  have hwait := advanceTo_waited (min by_ (s.now + tcOfUs us)) s
  have hsys : (advanceTo (min by_ (s.now + tcOfUs us)) s).sys = s.sys := advanceTo_keeps_sys
  have hhost : (advanceTo (min by_ (s.now + tcOfUs us)) s).host = s.host := advanceTo_keeps_host
  have hlog : (advanceTo (min by_ (s.now + tcOfUs us)) s).log = s.log := advanceTo_keeps_log
  generalize min by_ (s.now + tcOfUs us) = x at *
  generalize advanceTo x s = v at *
  refine ⟨?_, ?_, ?_, ?_⟩
  · rw [complete_keeps_sys, submitLog_keeps_sys, modSys_sys, hsys]
  · rw [waited, complete_keeps_air, submitLog_keeps_air, modSys_air]
    exact hwait
  · rw [complete, postEvent_evtHead, submitLog_keeps_host, modSys_host, hhost]
  · simp [Submits, submitLog, hlog]

/-- Settles O57: each reset rebuilds every part from what it keeps; each boot stage is one equation. -/
theorem resetsKeepWhatRetentionSays : Obligations.ResetsKeepWhatRetentionSays := by
  intro s role boot us k u x badA badB tk sub by_ rest
  refine ⟨powerOn_runs s role boot k, resetN_runs s role boot k, fun h => ?_, warmReset_runs k, watchdogTimeout_runs,
    fun hdebug hcore => ?_, watchdogReset_runs, fun hstage hconfig htest => bootStageAdvance_runs ⟨hstage, hconfig, htest⟩,
    fun h => ?_, ready_runs, trialTimeout_runs, unitResetComplete_runs⟩
  · exact congrArg Host.Outcome.next (by rw [warmReset, h])
  · exact congrArg Host.Outcome.next (if_pos (.inl ⟨hdebug, hcore⟩))
  · have hstop : 5 < s.sys.stage ∨ s.sys.configLoaded ∨ s.sys.testMode := h.imp_right .inr
    exact congrArg Host.Outcome.next (by unfold bootStageAdvance; exact if_pos hstop)

end Sys2Proof.Machine
end

section
set_option Elab.async false
/-! Power states, supply loss, keys and the debug port (R452–R466). The long chains of steps keep what a clause speaks of,
so each clause follows the one step that sets it. -/

namespace Sys2Proof.Machine

open Sys2Proof

/-! ## What the Logbook writer leaves alone -/

/-- The Bell link without its queue, in which a keeper's reply waits. -/
def BellState.others (b : BellState) : BellState := { b with queue := [] }

theorem rx_others (b : BellState) : b.others.rx = b.rx := rfl
theorem keys_others (b : BellState) : b.others.keys = b.keys := rfl

theorem finishKeeper_others (t : Ticket) (st : Status) (d : Nat) (p : List Byte) (s : State) :
    (finishKeeper t st d p s).bell.others = s.bell.others := by
  unfold finishKeeper
  split
  · rw [complete_keeps_bell]
  · rfl

theorem finishDeferred_others (t : Ticket) (st : Status) (d : Nat) (p : List Byte) (s : State) :
    (finishDeferred t st d p s).bell.others = s.bell.others := by
  unfold finishDeferred
  split
  · rw [complete_keeps_bell]
  · split
    · exact finishKeeper_others ..
    · split
      · exact congrArg BellState.others (writeResponse_only (Only.refl 2 _) rfl .bell rfl)
      · rfl

theorem commitOne_others (s : State) (x : Submission) : (commitOne s x).bell.others = s.bell.others := by
  unfold commitOne
  dsimp only
  split
  · exact finishDeferred_others ..
  · rfl

theorem drainSubmissions_others (s : State) : (drainSubmissions s).bell.others = s.bell.others := by
  unfold drainSubmissions
  split
  · rfl
  · exact foldl_keeps (fun t => t.bell.others) commitOne_others _ _

/-! ## The mirror is completed -/

/-- One record of those that wait for the mirror is mirrored, or is no longer held. -/
def mirrorStep (l : LogState) (q : Nat) : LogState :=
  match findRecord (servedRecords l) q with
  | some r => mirrorRecord r l
  | none => { l with unmirrored := without l.unmirrored q }

theorem mirrorAll_steps (l : LogState) : mirrorAll l = l.unmirrored.foldl mirrorStep l := rfl

theorem mirrorStep_unmirrored (l : LogState) (q : Nat) : (mirrorStep l q).unmirrored = without l.unmirrored q := by
  unfold mirrorStep
  cases h : findRecord (servedRecords l) q with
  | none => rfl
  | some r =>
    have hseq : r.seq = q := by simpa using List.find?_some h
    simp [mirrorRecord, hseq]

theorem mirrorAll_unmirrored (l : LogState) : (mirrorAll l).unmirrored = [] := by
  have hmem : ∀ (qs : List Nat) (l : LogState), ∀ x ∈ (qs.foldl mirrorStep l).unmirrored, x ∈ l.unmirrored ∧ x ∉ qs := by
    intro qs
    induction qs with
    | nil => exact fun l x hx => ⟨hx, List.not_mem_nil⟩
    | cons q qs ih =>
      intro l x hx
      obtain ⟨hin, hout⟩ := ih _ x hx
      rw [mirrorStep_unmirrored, without, List.mem_filter] at hin
      exact ⟨hin.1, by simpa using ⟨by simpa using hin.2, hout⟩⟩
  rw [mirrorAll_steps]
  refine List.eq_nil_iff_forall_not_mem.mpr fun x hx => ?_
  obtain ⟨hin, hout⟩ := hmem l.unmirrored l x hx
  exact hout hin

/-! ## Entry to STANDBY -/

theorem foldl_reaches {α : Type} {P : State → Prop} {f : State → α → State} {x : α} (hmake : ∀ s, P (f s x))
    (hkeep : ∀ s y, P s → P (f s y)) {l : List α} (hx : x ∈ l) (s : State) : P (l.foldl f s) := by
  have hkeeps : ∀ (l : List α) s, P s → P (l.foldl f s) := by
    intro l
    induction l with
    | nil => exact fun _ h => h
    | cons y l ih => exact fun s h => ih _ (hkeep s y h)
  induction l generalizing s with
  | nil => exact absurd hx List.not_mem_nil
  | cons y l ih =>
    rcases List.mem_cons.mp hx with rfl | hl
    · exact hkeeps l _ (hmake s)
    · exact ih hl _

theorem powerDown_other {c d : Nat} (hne : c ≠ d) (s : State) : (powerDown d s).chain c = s.chain c := by
  unfold powerDown
  extract_lets x s1 runs s2
  have hs2 : s2.chain c = s1.chain c := by
    rw [chain_of_rf completeOpt_keeps_rf, chain_of_rf (foldl_complete_rf ..)]
  have hs1 : s1.chain c = s.chain c := get_set_other _ _ hne
  rw [chain_of_rf endFault_keeps_rf]
  split
  · rw [chain_of_rf chainStops_keeps_rf, hs2, hs1]
  · rw [chain_of_rf refreshGains_keeps_rf, hs2, hs1]

theorem dropHeld_other {c d : Nat} (hne : c ≠ d) (st : Status) (s : State) : (dropHeld d st s).chain c = s.chain c := by
  unfold dropHeld
  extract_lets x s1 s2
  have hs1 : s1.chain c = s.chain c := get_mod_other _ _ hne
  have hs2 : s2.rf = s1.rf := by
    unfold s2
    split <;> first | exact complete_keeps_rf | rfl
  rw [chain_of_rf (foldl_keeps State.rf (fun _ _ => complete_keeps_rf) _ _), chain_of_rf hs2, hs1]

/-- A chain that STANDBY has unpowered is OFF. -/
theorem standbyChain_off (c : Nat) (s : State) : ((standbyChain s c).chain c).fe = .off := by
  unfold standbyChain
  extract_lets back s1
  have hrf : s1.rf = s.rf := by
    unfold s1
    split <;> rfl
  have hmod : ∀ u, ((modChain c (fun x => { x with resume := back }) u).chain c).fe = (u.chain c).fe :=
    fun u => by rw [modChain_chain]
  rw [hmod]
  split
  next hback =>
    rw [finishOff]
    split
    · exact powerDown_fe ..
    next hoff =>
      have hfe : (s.rf.chains.get c).fe = .off := by
        by_contra hfe
        rw [hrf] at hoff
        simp only [back, resumeOf, hfe, hoff, Bool.false_eq_true, or_self, if_false] at hback
        split at hback <;> cases hback
      rw [chain_of_rf hrf]
      exact hfe
  · exact powerDown_fe ..

theorem standbyChain_other {c d : Nat} (hne : c ≠ d) (s : State) : (standbyChain s d).chain c = s.chain c := by
  unfold standbyChain
  extract_lets back s1
  have hrf : s1.rf = s.rf := by
    unfold s1
    split <;> rfl
  have hmod : ∀ u, (modChain d (fun x => { x with resume := back }) u).chain c = u.chain c :=
    fun u => get_mod_other _ _ hne
  rw [hmod]
  split
  · rw [finishOff]
    split
    · rw [powerDown_other hne, chain_of_rf hrf]
    · exact chain_of_rf hrf c
  · rw [powerDown_other hne, cancelHeld, dropHeld_other hne, chain_of_rf hrf]

theorem standbyChains_off {c : Nat} (hc : c < 16) (s : State) :
    (((List.range 16).foldl standbyChain s).chain c).fe = .off := by
  refine foldl_reaches (P := fun t => (t.chain c).fe = .off) (x := c) (standbyChain_off c) (fun s d h => ?_)
    (List.mem_range.mpr hc) s
  by_cases hne : c = d
  · rw [hne]
    exact standbyChain_off ..
  · rw [standbyChain_other hne, h]

theorem bellOff_rx (s : State) : (bellOff s).bell.rx = .off := by
  unfold bellOff
  extract_lets b s1 s2 s3
  split
  · rw [← rx_others, finishDeferred_others]
    rfl
  · rfl

/-- Entry to STANDBY sets the power state, unpowers every chain and stops the Bell link. -/
theorem enterStandby_effect (s : State) :
    (enterStandby s).sys = { s.sys with power := .standby } ∧ (enterStandby s).bell.rx = .off ∧
      ∀ c, c < 16 → ((enterStandby s).chain c).fe = .off := by
  unfold enterStandby
  extract_lets s1 s2
  have hsys1 : s1.sys = { s.sys with power := .standby } := endInjections_only (Only.refl 1026 _) rfl .sys rfl
  have hsys2 : s2.sys = s1.sys :=
    (standbyCassettes_only (Only.refl 2050 _) rfl .sys rfl).trans
      ((clearArming_only (Only.refl 16386 _) rfl .sys rfl).trans (bellOff_only (Only.refl 32802 _) rfl .sys rfl))
  have hrx2 : s2.bell.rx = .off := by
    rw [standbyCassettes_only (Only.refl 2050 _) rfl .bell rfl, clearArming_only (Only.refl 16386 _) rfl .bell rfl]
    exact bellOff_rx s1
  have hoff := fun c (hc : c < 16) => standbyChains_off hc s2
  have hsys3 : ((List.range 16).foldl standbyChain s2).sys = s2.sys :=
    foldl_keeps State.sys (fun _ _ => standbyChain_only (Only.refl 486 _) rfl .sys rfl) _ _
  have hbell3 : ((List.range 16).foldl standbyChain s2).bell = s2.bell :=
    foldl_keeps State.bell (fun _ _ => standbyChain_only (Only.refl 486 _) rfl .bell rfl) _ _
  generalize (List.range 16).foldl standbyChain s2 = s3 at *
  have hlanes := standbyLanes_only (Only.refl 4096 s3) rfl
  refine ⟨?_, ?_, fun c hc => ?_⟩
  · rw [refreshGains_keeps_sys, hlanes .sys rfl, hsys3, hsys2, hsys1]
  · rw [refreshGains_keeps_bell, hlanes .bell rfl, hbell3, hrx2]
  · rw [chain_of_rf refreshGains_keeps_rf, chain_of_rf (hlanes .rf rfl), hoff c hc]

theorem finishMove_sys (s : State) : (finishMove s).sys = { s.sys with move := none } := by
  unfold finishMove
  split
  · rw [completeOpt_keeps_sys, submitLog_keeps_sys, postNotice_keeps_sys, modSys_sys]
  next h => rw [← h]

theorem reviewMove_power (s : State) : (reviewMove s).sys.power = s.sys.power := by
  unfold reviewMove
  split
  · split
    · rw [finishMove_sys]
    · rfl
  · rfl

theorem standbyEntry_runs {s : State} {f : Nat} {tk : Option Ticket} (c : Nat)
    (h : s.sys.move = some ⟨.standby, some f, tk, false⟩) :
    Runs .standbyEntry s (but [.hk, .dv, .pair, .wire, .drawn, .pending]) fun t =>
      t.power = .standby ∧ t.bell.rx = .off ∧ (c < 16 → (t.chain c).fe = .off) := by
  refine runs_of_only (t := standbyEntry s) rfl execStandbyEntry_only (by decide) ?_
  have heq : standbyEntry s = reviewMove ((enterStandby (advanceToAir ⟨f, 0⟩ s)).modSys
      (fun y => { y with move := some ⟨.standby, none, tk, false⟩ })) := by
    rw [standbyEntry, h]
  rw [heq]
  obtain ⟨hsys, hrx, hoff⟩ := enterStandby_effect (advanceToAir ⟨f, 0⟩ s)
  generalize enterStandby (advanceToAir ⟨f, 0⟩ s) = v at *
  refine ⟨(reviewMove_power _).trans ?_, ?_, fun hc => ?_⟩
  · rw [modSys_sys, hsys]
  · rw [reviewMove_only (Only.refl 26 _) rfl .bell rfl]
    exact hrx
  · rw [chain_of_rf (reviewMove_only (Only.refl 26 _) rfl .rf rfl)]
    exact hoff c hc

/-! ## Leaving STANDBY and QUIET -/

theorem foldl_chains (f : Nat → Chain → Chain) (l : List Nat) (s : State) :
    (l.foldl (fun acc c => modChain c (f c) acc) s) = s.modRf (fun r => { r with chains := r.chains.modAll l f }) := by
  unfold Bank.modAll
  induction l generalizing s with
  | nil => rfl
  | cons c l ih => exact ih _

theorem standbyExitComplete_runs {s : State} {m : PowerMove} (c : Nat) (h : s.sys.move = some m) (hexit : m.exit)
    (hlocked : ∀ j, j < 16 → (s.chain j).resume ≠ .off → (s.chain j).locked) :
    Runs .standbyExitComplete s [.host, .log, .sys, .rf] fun t =>
      t.sys = { s.sys with move := none } ∧ (c < 16 → (t.chain c).resume = .off) := by
  refine runs_of_only (t := standbyExitComplete s) rfl execStandbyExitComplete_only (by decide) ?_
  have heq : standbyExitComplete s = finishMove (((List.range 16).filter (fun c => (s.rf.chains.get c).resume != .off)).foldl
      (fun acc c => modChain c (fun x => { x with resume := .off }) acc) s) := by
    rw [standbyExitComplete, h]
    refine if_pos ⟨hexit, List.all_eq_true.mpr fun j hj => ?_⟩
    obtain ⟨hin, hback⟩ := List.mem_filter.mp hj
    exact hlocked j (List.mem_range.mp hin) (by simpa using hback)
  rw [heq, foldl_chains (fun _ x => { x with resume := .off })]
  refine ⟨by rw [finishMove_sys, modRf_sys], fun hc => ?_⟩
  rw [chain_of_rf (finishMove_only (Only.refl 26 _) rfl .rf rfl)]
  by_cases hback : (s.rf.chains.get c).resume = .off
  · have hnot : c ∉ (List.range 16).filter (fun c => (s.rf.chains.get c).resume != .off) := by simp [hback]
    exact (congrArg Chain.resume (modAll_get_not_mem (f := fun _ x => { x with resume := .off }) s.rf.chains hnot)).trans hback
  · exact modAll_get_mem Chain.resume (f := fun _ x => { x with resume := .off }) (fun _ _ => rfl) s.rf.chains
      (List.mem_filter.mpr ⟨List.mem_range.mpr hc, by simpa using hback⟩)

theorem leaveQuiet_sys (s : State) : (leaveQuiet s).sys = { s.sys with power := .active } := by
  unfold leaveQuiet
  extract_lets stale
  rw [refreshGains_keeps_sys, foldl_keeps State.sys (fun _ _ => restartLoop_keeps_sys) _ _, modSys_sys]

theorem quietExit_runs {s : State} {fr : Option Nat} {tk : Option Ticket}
    (h : s.sys.move = some ⟨.active, fr, tk, false⟩) (hquiet : s.power = .quiet) :
    Runs .quietExit s (bands [.air, .host, .fault, .log, .sys]) fun t => t.power = .active ∧ t.sys.move = none := by
  refine runs_of_only (t := quietExit s) rfl execQuietExit_only (by decide) ?_
  have heq : quietExit s = finishMove (leaveQuiet (toNextSlot s)) := by
    rw [quietExit, h]
    exact if_pos hquiet
  rw [heq, State.power, finishMove_sys, leaveQuiet_sys]
  exact ⟨rfl, rfl⟩

/-! ## DORMANT -/

theorem drainSubmissions_sys (s : State) : (drainSubmissions s).sys = s.sys :=
  drainSubmissions_only (Only.refl 32778 _) rfl .sys rfl

theorem closeDebug_debug (s : State) : (closeDebug s).sys.debug = .closed := by
  unfold closeDebug
  split
  next h => exact h
  next => rw [submitLog_keeps_sys, modSys_sys]

theorem closeDebug_sys (s : State) :
    (closeDebug s).sys = { s.sys with debug := .closed, coreHalted := (closeDebug s).sys.coreHalted } := by
  unfold closeDebug
  split
  next h => rw [← h]
  next => rw [submitLog_keeps_sys, modSys_sys]

/-- The sessions are those of before the answer of a command that waited. -/
theorem finishDeferred_sessions (t : Ticket) (st : Status) (d : Nat) (p : List Byte) (s : State) :
    (finishDeferred t st d p s).host.sessions = s.host.sessions := by
  have hpost : ∀ (e : Event) (u : State), (postEvent e u).host.sessions = u.host.sessions := by
    intro e u
    unfold postEvent
    simp only [modHost_host, apply_ite HostState.sessions, setIrqBits_sessions, ite_self]
  unfold finishDeferred
  split
  · exact hpost ..
  · split
    · unfold finishKeeper
      split
      · exact hpost ..
      · rfl
    · split
      · unfold writeResponse
        extract_lets mb resp s1
        split
        · rfl
        · have hs1 : s1.host.sessions = s.host.sessions := by
            unfold s1
            simp only [modHost_host, setIrqBits_sessions, apply_ite HostState.sessions, ite_self]
          split
          · exact (hpost ..).trans hs1
          · exact hs1
      · rfl

theorem drainSubmissions_sessions (s : State) : (drainSubmissions s).host.sessions = s.host.sessions := by
  unfold drainSubmissions
  split
  · rfl
  · refine foldl_keeps (fun t => t.host.sessions) (fun u x => ?_) _ _
    unfold commitOne
    dsimp only
    split
    · exact finishDeferred_sessions ..
    · rfl

theorem fill_none (c : Nat) : (Bank.fill (none : Option Session)).get c = none := rfl

/-- The state at the leave frame, when DORMANT makes the part leave (R456). -/
def leftFor (f : Nat) (s : State) : State :=
  match (advanceToAir ⟨f, 0⟩ s).fl.leave with
  | some (_, why) => if why = .dormant then becomeLeft why (advanceToAir ⟨f, 0⟩ s) else advanceToAir ⟨f, 0⟩ s
  | none => advanceToAir ⟨f, 0⟩ s

/-- Sessions and the debug session close, and what waits for the Logbook is written (R456). -/
def closeAll (s : State) : State := drainSubmissions (closeDebug (closeSessions s))

/-- The Logbook is complete in flash, and the part is in DORMANT (R456). -/
def fallAsleep (v : State) : State := (v.modLog mirrorAll).modSys (fun y => { y with power := .dormant, dormantAt := now v })

theorem dormantEntry_eq {s : State} {f : Nat} {tk : Option Ticket} {b : Bool} (us : Nat)
    (h : s.sys.move = some ⟨.dormant, some f, tk, b⟩) :
    dormantEntry us s = fallAsleep (closeAll (advance (min (tcOfUs us) (tcOfMs 100)) (finishMove (enterStandby (leftFor f s))))) := by
  rw [dormantEntry, h]
  rfl

/-- Whoever falls asleep keeps no session, no debug session and nothing that is not mirrored. -/
def Asleep (c : Nat) (t : State) : Prop :=
  t.power = .dormant ∧ t.sys.move = none ∧ t.host.sessions.get c = none ∧ t.sys.debug = .closed ∧ t.sys.dormantAt = t.now ∧
    t.log.unmirrored = [] ∧ t.bell.rx = .off

theorem closeAll_sys (s : State) : (closeAll s).sys = (closeDebug (closeSessions s)).sys := drainSubmissions_sys _

theorem closeAll_rx (s : State) : (closeAll s).bell.rx = s.bell.rx := by
  rw [← rx_others, closeAll, drainSubmissions_others, closeDebug_only (Only.refl 24 _) rfl .bell rfl]
  rfl

theorem closeAll_sessions (c : Nat) (s : State) : (closeAll s).host.sessions.get c = none := by
  rw [closeAll, drainSubmissions_sessions, closeDebug_only (Only.refl 24 _) rfl .host rfl]
  exact fill_none c

theorem dormantEntry_runs {s : State} {f : Nat} {tk : Option Ticket} {b : Bool} (us c : Nat)
    (h : s.sys.move = some ⟨.dormant, some f, tk, b⟩) :
    Runs (.dormantEntry us) s (but [.hk, .pair, .wire, .drawn, .pending]) (Asleep c) := by
  refine runs_of_only (t := dormantEntry us s) rfl execDormantEntry_only (by decide) ?_
  obtain ⟨-, hstandby, -⟩ := enterStandby_effect (leftFor f s)
  rw [dormantEntry_eq us h]
  generalize enterStandby (leftFor f s) = u at *
  have hrx : (advance (min (tcOfUs us) (tcOfMs 100)) (finishMove u)).bell.rx = .off := by
    rw [advance_keeps_bell, finishMove_only (Only.refl 26 _) rfl .bell rfl, hstandby]
  have hmove : (advance (min (tcOfUs us) (tcOfMs 100)) (finishMove u)).sys.move = none := by
    rw [advance_keeps_sys, finishMove_sys]
  generalize advance (min (tcOfUs us) (tcOfMs 100)) (finishMove u) = v at *
  have hclosed : (closeAll v).bell.rx = .off := (closeAll_rx v).trans hrx
  have hdebug : (closeAll v).sys.move = none ∧ (closeAll v).sys.debug = .closed := by
    rw [closeAll_sys, closeDebug_debug, closeDebug_sys]
    exact ⟨hmove, rfl⟩
  have hsess := closeAll_sessions c v
  generalize closeAll v = w at *
  exact ⟨rfl, hdebug.1, hsess, hdebug.2, rfl, mirrorAll_unmirrored _, hclosed⟩

theorem sleep_mono (a : AirState) (n : Nat) : (a.sleep n).mono = a.mono + 60000 * n := by
  rw [AirState.sleep]

theorem waitUntil_eq {s : State} (x : Nat) (h : s.power = .dormant) :
    waitUntil x s = s.modAir (fun a => a.sleep ((x - a.mono + 59999) / 60000)) := by
  rw [waitUntil]
  exact if_pos h

/-- In DORMANT a wait ends at the first tick of AON_OSC at or after its instant (R29). -/
theorem waitUntil_now {s : State} (x : Nat) (h : s.power = .dormant) :
    max s.now x ≤ (waitUntil x s).now ∧ (waitUntil x s).now < max s.now x + 60000 := by
  have hnow : (waitUntil x s).now = s.now + 60000 * ((x - s.now + 59999) / 60000) := by
    rw [waitUntil_eq x h]
    exact sleep_mono ..
  rw [hnow]
  generalize s.now = n
  constructor <;> omega

theorem pwrEnDrop_runs {s : State} (hpower : s.power = .dormant) (hen : s.sys.pwrEn) :
    Runs .pwrEnDrop s [.air, .sys] fun t => t.sys = { s.sys with pwrEn := false } ∧
      max s.now (s.sys.dormantAt + tcOfMs 1) ≤ t.now ∧ t.now < max s.now (s.sys.dormantAt + tcOfMs 1) + 60000 := by
  refine runs_of_only (t := pwrEnDrop s) rfl execPwrEnDrop_only (by decide) ?_
  have heq : pwrEnDrop s = (waitUntil (s.sys.dormantAt + tcOfMs 1) s).modSys (fun y => { y with pwrEn := false }) := by
    rw [pwrEnDrop, if_pos ⟨hpower, hen⟩]
  have hsys : (waitUntil (s.sys.dormantAt + tcOfMs 1) s).sys = s.sys := waitUntil_only (Only.refl 1 _) rfl .sys rfl
  have hnow := waitUntil_now (s.sys.dormantAt + tcOfMs 1) hpower
  rw [heq]
  generalize s.sys.dormantAt + tcOfMs 1 = x at *
  generalize waitUntil x s = v at *
  rw [modSys_sys, hsys]
  exact ⟨rfl, hnow⟩

theorem aonOscTick_runs {s : State} (h : s.power = .dormant) :
    Runs .aonOscTick s [.air] fun t => t.now = s.now + 60000 ∧ t.air.frame = s.air.frame ∧ t.air.offset = s.air.offset := by
  refine runs_of_only (t := aonOscTick s) rfl execAonOscTick_only (by decide) ?_
  have heq : aonOscTick s = s.modAir (fun a => a.sleep 1) := if_neg (not_not.mpr h)
  rw [heq]
  exact ⟨(sleep_mono s.air 1).trans (by rw [Nat.mul_one]), rfl, rfl⟩

theorem dormantWake_runs {s : State} {w : WakeSource} (us : Nat) (hpower : s.power = .dormant) (hwake : wakeEnabled s w) :
    Runs (.dormantWake w us) s (but [.wire, .drawn, .pending]) fun t => t.sys.resetKind = .dormantWake ∧
      ¬t.sys.ready ∧ t.power = .active ∧ t.sys.wakes = s.sys.wakes + 1 ∧ t.fault.halt = s.fault.halt ∧
      t.sys.wakeTarget = some (if w = .debug then .standby else s.sys.wake.wakeState) := by
  refine runs_of_only (t := dormantWake w us s) rfl execDormantWake_only (by decide) ?_
  unfold dormantWake
  rw [if_neg (not_or.mpr ⟨not_not.mpr hpower, by simp [hwake]⟩)]
  extract_lets s1 s2
  have hwait : ∀ x u, (waitUntil x u).sys = u.sys ∧ (waitUntil x u).fault = u.fault := fun x u =>
    ⟨waitUntil_only (Only.refl 1 _) rfl .sys rfl, waitUntil_only (Only.refl 1 _) rfl .fault rfl⟩
  have h1 : s1.sys = s.sys ∧ s1.fault = s.fault := by
    unfold s1
    split
    · exact hwait ..
    · exact ⟨rfl, rfl⟩
  have h2 : s2.sys = s.sys ∧ s2.fault = s.fault := by
    unfold s2
    split
    · exact h1
    · exact ⟨(hwait ..).1.trans h1.1, (hwait ..).2.trans h1.2⟩
  obtain ⟨hsys, hfault⟩ := h2
  clear_value s2
  have hy : (refreshFaultN (resetTo .dormantWake s2)).sys = sysAfter .dormantWake s2.now s2.sys := resetTo_sys ..
  have hhalt : (refreshFaultN (resetTo .dormantWake s2)).fault.halt = s.fault.halt := by
    rw [← hfault]
    exact (congrArg FaultState.halt (resetTo_fault .dormantWake s2)).trans rfl
  rw [State.power, modSys_sys, hy, hsys]
  exact ⟨rfl, Bool.false_ne_true, rfl, rfl, hhalt, rfl⟩

/-! ## Supply loss -/

theorem pwrFailNFall_runs {s : State} (failed : BitVec 8) (hfail : ¬s.sys.pwrFail) (hpower : s.power ≠ .dormant) :
    Runs (.pwrFailNFall failed) s (but [.rf, .hk, .fl, .dv, .pair, .wire, .drawn, .pending]) fun t => t.sys.pwrFail ∧
      t.sys.pwrFailFrom = some s.power ∧ t.sys.pwrFailCount = s.sys.pwrFailCount + 1 ∧ t.log.unmirrored = [] ∧
      t.power = (if s.power = .active then .quiet else s.power) ∧ ∀ y ∈ t.bell.keys, y.stored = y.counter := by
  refine runs_of_only (t := pwrFailFall failed s) rfl execPwrFailNFall_only (by decide) ?_
  unfold pwrFailFall
  rw [if_neg (not_or.mpr ⟨hfail, hpower⟩)]
  extract_lets from_ v s1 good bad s2 s3 s4
  have hv : v.sys = { s.sys with pwrFail := true, pwrFailFrom := some s.power, pwrFailCount := s.sys.pwrFailCount + 1 } := by
    unfold v
    rw [modSys_sys, stopDrain_only (Only.refl 16384 _) rfl .sys rfl]
    rfl
  have h1 : s1.sys = { v.sys with power := if s.power = .active then .quiet else s.power } := by
    by_cases h : s.power = .active
    · rw [show s1 = enterQuiet v from if_pos h, enterQuiet, refreshGains_keeps_sys,
        endInjections_only (Only.refl 1026 _) rfl .sys rfl, if_pos h, modSys_sys]
    · rw [show s1 = v from if_neg h, if_neg h, hv]
  clear_value v
  have h2 : s2.sys = s1.sys := by
    unfold s2
    rw [modPs_sys]
    exact foldl_keeps State.sys (fun _ _ => writeLife_only (Only.refl 2048 _) rfl .sys rfl) _ _
  have h4 : s4.sys = s1.sys := (drainSubmissions_sys _).trans (submitLog_keeps_sys.trans h2)
  have hkeys : s4.bell.keys = s3.bell.keys := by
    rw [← keys_others, ← keys_others s3.bell]
    unfold s4
    rw [drainSubmissions_others, submitLog_keeps_bell]
  have hstored : ∀ y ∈ s3.bell.keys, y.stored = y.counter := by
    intro y hy
    obtain ⟨x, -, rfl⟩ := List.mem_map.mp hy
    rfl
  rw [State.power, State.power, postNotice_keeps_sys, postNotice_keeps_log, postNotice_keeps_bell, modLog_sys, modLog_bell, h4, h1, hv,
    hkeys]
  exact ⟨rfl, rfl, rfl, mirrorAll_unmirrored _, rfl, hstored⟩

theorem pwrRestore_runs {s : State} (hfail : s.sys.pwrFail) (hok : ∀ j, j < 32 → ¬(s.hk.windows.get j).isOut) :
    Runs .pwrRestore s [.air, .host, .fault, .log, .sys, .ce, .lg, .np, .mem] fun t => ¬t.sys.pwrFail ∧
      (s.sys.pwrFailFrom = some .active → s.power = .quiet → t.power = .active) ∧
      (s.sys.pwrFailFrom ≠ some .active → t.power = s.power) := by
  refine runs_of_only (t := pwrRestore s) rfl execPwrRestore_only (by decide) ?_
  have hwindows : ¬((List.range 32).any (fun k => (s.hk.windows.get k).isOut)) := by
    rw [List.any_eq_true]
    rintro ⟨j, hj, hout⟩
    exact hok j (List.mem_range.mp hj) hout
  unfold pwrRestore
  rw [if_neg (not_or.mpr ⟨by simp [hfail], hwindows⟩)]
  extract_lets v s1
  have hv : v.sys = { s.sys with pwrFail := false, pwrFailFrom := none } := rfl
  clear_value v
  have hkeep : (pumpDrain (postNotice 0x1003 0 0 s1)).sys = s1.sys :=
    (pumpDrain_only (Only.refl 16394 _) rfl .sys rfl).trans postNotice_keeps_sys
  have hquiet : s1.sys.pwrFail = false ∧ (s.sys.pwrFailFrom = some .active → s.power = .quiet → s1.sys.power = .active) ∧
      (s.sys.pwrFailFrom ≠ some .active → s1.sys.power = s.power) := by
    unfold s1
    split
    next hfrom =>
      split
      next => rw [leaveQuiet_sys, toNextSlot_only (Only.refl 1 _) rfl .sys rfl, hv]; exact ⟨rfl, fun _ _ => rfl, fun h => absurd hfrom h⟩
      next h => rw [hv] at h ⊢; exact ⟨rfl, fun _ hq => absurd hq h, fun h => absurd hfrom h⟩
    next hfrom => rw [hv]; exact ⟨rfl, fun h => absurd h hfrom, fun _ => rfl⟩
  rw [State.power, State.power, hkeep]
  exact ⟨by simp [hquiet.1], hquiet.2.1, hquiet.2.2⟩

/-! ## Keys, the debug port and firmware images -/

theorem zeroise_sys (cred : List Byte) (s : State) : (zeroise cred s).sys = { s.sys with
    lifecycle := .returned, zeroising := none
    keys := { s.sys.keys with monitor := some cred, operate := some cred, admin := some cred, flock := none, debug := none } } := by
  unfold zeroise
  rw [submitLog_keeps_sys, submitLog_keeps_sys]
  rfl

theorem zeroise_bellKeys (cred : List Byte) (s : State) : (zeroise cred s).bell.keys = [] := by
  unfold zeroise
  rw [submitLog_keeps_bell, submitLog_keeps_bell]
  rfl

theorem keysZeroised_runs {s : State} {cred : List Byte} {tk : Option Ticket} (h : s.sys.zeroising = some (cred, tk)) :
    Runs .keysZeroised s [.host, .log, .sys, .bell] fun t => t.sys.lifecycle = .returned ∧ t.sys.zeroising = none ∧
      t.sys.keys = { s.sys.keys with monitor := some cred, operate := some cred, admin := some cred, flock := none, debug := none } ∧
      t.bell.keys = [] := by
  refine runs_of_only (t := keysZeroised s) rfl execKeysZeroised_only (by decide) ?_
  have heq : keysZeroised s = completeOpt tk .ok 0 (zeroise cred s) := by rw [keysZeroised, h]
  rw [heq, completeOpt_keeps_sys, completeOpt_keeps_bell, zeroise_sys, zeroise_bellKeys]
  exact ⟨rfl, rfl, rfl, rfl⟩

/-- A failed signature is counted; the third in 60 s locks the port for 300 s (R460). -/
theorem debugFailure_sys (s : State) :
    (debugFailure s).sys.debug = s.sys.debug ∧ (debugFailure s).sys.challenge = s.sys.challenge ∧
      (debugFailure s).sys.debugFailCount = s.sys.debugFailCount + 1 ∧ (debugFailure s).sys.debugLocked =
        (if 2 ≤ (s.sys.debugFails.filter (fun j => decide (now s < j + tcOfS 60))).length then some (now s + tcOfS 300)
          else s.sys.debugLocked) := by
  unfold debugFailure
  generalize tcOfS 60 = a
  generalize tcOfS 300 = z
  extract_lets l lock s1
  have hlock : lock = decide (2 ≤ (s.sys.debugFails.filter (fun j => decide (now s < j + a))).length) := by
    unfold lock l
    rw [List.length_cons, decide_eq_decide]
    omega
  have hs1 : s1.sys = { s.sys with
      debugFails := if lock = true then [] else l, debugFailCount := s.sys.debugFailCount + 1
      debugLocked := if lock = true then some (now s + z) else s.sys.debugLocked } := submitLog_keeps_sys
  have hsys : (if lock = true then submitLog 0x1008 mgmtSource [3] s1 else s1).sys = s1.sys := by
    split
    · exact submitLog_keeps_sys
    · rfl
  rw [hsys, hs1, hlock]
  exact ⟨rfl, rfl, rfl, by simp only [decide_eq_true_eq]⟩

theorem debugAuthRequest_eq {s : State} {key sig : List Byte} (hpower : s.power ≠ .dormant) (hclosed : s.sys.debug = .closed)
    (hunlocked : s.sys.debugLocked = none) (hallowed : s.sys.authAllowed) (hlife : s.sys.lifecycle = .deployed)
    (hkey : s.sys.keys.debug = some key) :
    debugAuthRequest sig s = (if Config.ecdsaP384 key (authMessage s.sys) sig
      then openDebug .auth ((draw s).2.modSys (fun y => { y with challenge := Config.challenge (draw s).1 }))
      else debugFailure ((draw s).2.modSys (fun y => { y with challenge := Config.challenge (draw s).1 }))) := by
  rw [debugAuthRequest, if_neg (by
    rintro (h | h | h | h | h)
    · exact hpower h
    · exact h hclosed
    · rw [hunlocked] at h; cases h
    · rw [hallowed] at h; cases h
    · exact h (.inr hlife)), hkey]

theorem debugAuthRequest_runs {s : State} {key : List Byte} (sig : List Byte) (hpower : s.power ≠ .dormant)
    (hclosed : s.sys.debug = .closed) (hunlocked : s.sys.debugLocked = none) (hallowed : s.sys.authAllowed)
    (hlife : s.sys.lifecycle = .deployed) (hkey : s.sys.keys.debug = some key) :
    Runs (.debugAuthRequest sig) s [.log, .sys, .drawn] fun t => t.sys.challenge = Config.challenge s.drawn ∧
      (if Config.ecdsaP384 key (authMessage s.sys) sig then t.sys.debug = .auth ∧ t.sys.debugLast = s.now
       else t.sys.debug = .closed ∧ t.sys.debugFailCount = s.sys.debugFailCount + 1 ∧ t.sys.debugLocked =
        (if 2 ≤ (s.sys.debugFails.filter (fun j => decide (s.now < j + tcOfS 60))).length then some (s.now + tcOfS 300)
          else none)) := by
  refine runs_of_only (t := debugAuthRequest sig s) rfl execDebugAuthRequest_only (by decide) ?_
  rw [debugAuthRequest_eq hpower hclosed hunlocked hallowed hlife hkey]
  have hdrawn : ((draw s).2.modSys (fun y => { y with challenge := Config.challenge (draw s).1 })).sys =
    { s.sys with challenge := Config.challenge s.drawn } := rfl
  have hnow : now ((draw s).2.modSys (fun y => { y with challenge := Config.challenge (draw s).1 })) = s.now := rfl
  generalize (draw s).2.modSys (fun y => { y with challenge := Config.challenge (draw s).1 }) = v at *
  by_cases hgood : Config.ecdsaP384 key (authMessage s.sys) sig
  · rw [if_pos hgood, if_pos hgood, openDebug, submitLog_keeps_sys, modSys_sys, hdrawn]
    exact ⟨rfl, rfl, hnow⟩
  · obtain ⟨hdebug, hchallenge, hcount, hlocked⟩ := debugFailure_sys v
    rw [if_neg hgood, if_neg hgood, hdebug, hchallenge, hcount, hlocked, hdrawn, hnow, hunlocked]
    exact ⟨rfl, hclosed, rfl, rfl⟩

theorem debugOpenRequest_runs {s : State} (b : Bool) (hpower : s.power ≠ .dormant) (hclosed : s.sys.debug = .closed)
    (hlife : s.sys.lifecycle = .blank ∨ s.sys.lifecycle = .returned) :
    Runs (.debugOpenRequest b) s [.log, .sys] fun t => t.sys.debug = .open_ ∧ t.sys.coreHalted = b := by
  refine runs_of_only (t := debugOpenRequest b s) rfl execDebugOpenRequest_only (by decide) ?_
  have heq : debugOpenRequest b s =
      (openDebug .open_ s).modSys (fun y => { y with debugLast := now s, coreHalted := b && y.debug == .open_ }) := by
    rw [debugOpenRequest, if_neg (not_or.mpr ⟨hpower, not_not.mpr hlife⟩)]
    dsimp only
    rw [if_pos hclosed]
  rw [heq, modSys_sys, openDebug, submitLog_keeps_sys, modSys_sys]
  exact ⟨rfl, by simp⟩

theorem debugSessionClose_runs {s : State} (b : Bool) (hdebug : s.sys.debug ≠ .closed) :
    Runs (.debugSessionClose b) s [.air, .log, .sys] fun t => t.sys.debug = .closed ∧ ¬t.sys.coreHalted ∧
      (¬b → waited s t (s.sys.debugLast + tcOfS 600)) ∧ (b → t.now = s.now) := by
  refine runs_of_only (t := debugSessionClose b s) rfl execDebugSessionClose_only (by decide) ?_
  rw [debugSessionClose, if_neg hdebug]
  have hcore : ∀ u : State, u.sys.debug ≠ .closed → ¬(closeDebug u).sys.coreHalted := by
    intro u hu
    rw [closeDebug, if_neg hu, submitLog_keeps_sys, modSys_sys]
    exact Bool.false_ne_true
  have hwait := advanceTo_waited (s.sys.debugLast + tcOfS 600) s
  have hsys : (advanceTo (s.sys.debugLast + tcOfS 600) s).sys = s.sys := advanceTo_keeps_sys
  generalize s.sys.debugLast + tcOfS 600 = x at *
  generalize advanceTo x s = v at *
  refine ⟨closeDebug_debug _, hcore _ ?_, fun hb => ?_, fun hb => ?_⟩
  · split
    · exact hdebug
    · rw [hsys]
      exact hdebug
  · rw [if_neg hb, waited, closeDebug_only (Only.refl 24 _) rfl .air rfl]
    exact hwait
  · rw [if_pos hb, State.now, closeDebug_only (Only.refl 24 _) rfl .air rfl]

theorem debugLockoutExpiry_runs {s : State} {u : Nat} (h : s.sys.debugLocked = some u) :
    Runs .debugLockoutExpiry s [.air, .sys] fun t =>
      t.sys = { s.sys with debugLocked := none } ∧ (s.power ≠ .dormant → waited s t u) := by
  refine runs_of_only (t := debugLockoutExpiry s) rfl execDebugLockoutExpiry_only (by decide) ?_
  have heq : debugLockoutExpiry s = (waitUntil u s).modSys (fun y => { y with debugLocked := none }) := by
    rw [debugLockoutExpiry, h]
  rw [heq, modSys_sys, waitUntil_only (Only.refl 1 _) rfl .sys rfl]
  refine ⟨rfl, fun hpower => ?_⟩
  rw [waited, modSys_air, waitUntil, if_neg hpower]
  exact advanceTo_waited u s

theorem securityViolation_runs (s : State) (us : Nat) : Runs (.securityViolation us) s [.fault] (fun t => ∃ x y,
    t.fault.latched = s.fault.latched ++ [.raise x, y] ∧ x.cls = 0xB1 ∧ x.unit = partUnit ∧ x.detail4 = us) := by
  refine runs_of_only (t := securityViolation us s) rfl execSecurityViolation_only (by decide) ?_
  rw [securityViolation, raiseMoment, endFault, if_pos (by simp [conditionHolds, raiseFault])]
  exact ⟨_, _, List.append_assoc .., rfl, rfl, rfl⟩

theorem imageOf_setImage (k : SlotSel) (x : Option Image) (y : SysState) : imageOf (setImage k x y) k = x := by
  cases k <;> rfl

theorem setImage_trial (k : SlotSel) (x : Option Image) (y : SysState) :
    (setImage k x y).fwVerify = y.fwVerify ∧ (setImage k x y).preferred = y.preferred ∧
      (setImage k x y).trialSlot = y.trialSlot := by
  cases k <;> exact ⟨rfl, rfl, rfl⟩

theorem imageOf_congr {y z : SysState} (k : SlotSel) (hA : y.imageA = z.imageA) (hB : y.imageB = z.imageB) :
    imageOf y k = imageOf z k := by
  cases k
  · exact hA
  · exact hB

/-- A completion event does not depend on the start-up part. -/
theorem complete_host_modSys (k : Ticket) (st : Status) (f : SysState → SysState) (s : State) :
    (complete k st 0 (s.modSys f)).host = (complete k st 0 s).host := rfl

theorem fwVerifyComplete_runs {s : State} {k : Ticket} (x : Option Image) (h : s.sys.fwVerify = some k) :
    Runs (.fwVerifyComplete x) s [.host, .sys] fun t => t.sys.fwVerify = none ∧ imageOf t.sys (otherSlot s.sys.running) = x ∧
      (if (x.filter (imageAccepted s.sys.keys)).isSome
       then t.sys.preferred = otherSlot s.sys.running ∧ t.sys.trialSlot ∧ t.host = (complete k .ok 0 s).host
       else t.sys.preferred = s.sys.preferred ∧ t.sys.trialSlot = s.sys.trialSlot ∧
        t.host = (complete k .eIntegrity 0 s).host) := by
  refine runs_of_only (t := fwVerifyComplete x s) rfl execFwVerifyComplete_only (by decide) ?_
  have heq : fwVerifyComplete x s = (if (x.filter (imageAccepted s.sys.keys)).isSome
      then complete k .ok 0 ((s.modSys (fun y => setImage (otherSlot s.sys.running) x { y with fwVerify := none })).modSys
        (fun y => { y with preferred := otherSlot s.sys.running, trialSlot := true }))
      else complete k .eIntegrity 0 (s.modSys (fun y => setImage (otherSlot s.sys.running) x { y with fwVerify := none }))) := by
    rw [fwVerifyComplete, h]
  rw [heq]
  obtain ⟨hverify, hpreferred, htrial⟩ := setImage_trial (otherSlot s.sys.running) x { s.sys with fwVerify := none }
  have himage := imageOf_setImage (otherSlot s.sys.running) x { s.sys with fwVerify := none }
  by_cases hok : (x.filter (imageAccepted s.sys.keys)).isSome
  · rw [if_pos hok, if_pos hok, complete_keeps_sys, complete_host_modSys, complete_host_modSys, modSys_sys, modSys_sys]
    exact ⟨hverify, (imageOf_congr _ rfl rfl).trans himage, rfl, rfl, rfl⟩
  · rw [if_neg hok, if_neg hok, complete_keeps_sys, complete_host_modSys, modSys_sys]
    exact ⟨hverify, himage, hpreferred, htrial, rfl⟩

/-- Settles O58: every row is one equation; what the long rows keep comes from the frames of their steps. -/
theorem powerStatesAndSecurityEvents : Obligations.PowerStatesAndSecurityEvents := by
  intro s w m tk k f us u c fr b failed cred key sig x
  refine ⟨standbyEntry_runs c, standbyExitComplete_runs c, quietExit_runs, dormantEntry_runs us c, pwrEnDrop_runs,
    fun h => ⟨?_, ?_, ?_⟩, aonOscTick_runs, dormantWake_runs us, fun h => ?_, pwrFailNFall_runs failed, pwrRestore_runs,
    keysZeroised_runs, debugAuthRequest_runs sig, fun h => ?_, debugOpenRequest_runs b, debugSessionClose_runs b,
    debugLockoutExpiry_runs, securityViolation_runs s us, fwVerifyComplete_runs x⟩
  · exact congrArg Host.Outcome.next (if_neg (fun hboth => h hboth.1))
  · exact congrArg Host.Outcome.next (if_pos h)
  · exact congrArg Host.Outcome.next (if_pos (.inl h))
  · exact congrArg Host.Outcome.next (if_pos (.inr (by simpa using h)))
  · exact congrArg Host.Outcome.next (if_pos (.inr (.inr (.inl (by rw [h]; rfl)))))

end Sys2Proof.Machine
end

section
set_option Elab.async false
/-! What the collector's state and the member ID are not touched by: conditions come and go with the gains, frames join the
queues of the ports, and neither changes who is penned, halted or which member this part is. -/

namespace Sys2Proof.Machine

open Sys2Proof

/-! ## The collector beyond its conditions -/

/-- The collector's state without the conditions that hold and the raises that are latched. -/
def FaultState.others (f : FaultState) : FaultState := { f with latched := [], conditions := [] }

theorem halt_others (f : FaultState) : f.others.halt = f.halt := rfl
theorem paddock_others (f : FaultState) : f.others.paddock = f.paddock := rfl
theorem pens_others (f : FaultState) : f.others.pens = f.pens := rfl

/-- The course of faults and reactions: HALT, the open windows, the count of raises, and the reactions that run. -/
def FaultState.course (f : FaultState) : Option (Nat × Nat) × List Window × Nat × List Reaction :=
  (f.halt, f.windows, f.raises, f.reactions)

/-- The books of the collector: their course, the table and the actions. -/
def FaultState.books (f : FaultState) : (Option (Nat × Nat) × List Window × Nat × List Reaction) × List FaultEntry × List OwnAction :=
  (f.course, f.entries, f.actions)

theorem books_of_others {f g : FaultState} (h : g.others = f.others) : g.books = f.books :=
  (congrArg FaultState.books h :)

theorem raiseFault_others (r : Raise) (s : State) : (raiseFault r s).fault.others = s.fault.others := rfl

theorem raiseLevel_others (r : Raise) (s : State) : (raiseLevel r s).fault.others = s.fault.others := by
  unfold raiseLevel
  split
  · rfl
  · exact raiseFault_others ..

theorem endFault_others (cls : Nat) (u : UnitId) (s : State) : (endFault cls u s).fault.others = s.fault.others := by
  unfold endFault
  split <;> rfl

theorem noteMargin_others (e : Nat) (below : Bool) (s : State) : (noteMargin e below s).fault.others = s.fault.others := by
  unfold noteMargin
  split
  · rfl
  · dsimp only
    split
    · rfl
    · exact endFault_others ..

theorem applyCap_others (e : Nat) (s : State) : (applyCap e s).fault.others = s.fault.others := by
  have hcap : (writeCap e s).fault = s.fault := writeCap_only (Only.refl 256 s) rfl .fault rfl
  unfold applyCap
  dsimp only
  split
  · rw [raiseLevel_others, hcap]
  · rw [hcap]

theorem modLoop_fault (e : Nat) (f : Loop → Loop) (s : State) : (modLoop e f s).fault = s.fault := rfl

theorem evalLoop_others (e : Nat) (s : State) : (evalLoop e s).fault.others = s.fault.others := by
  unfold evalLoop
  split
  · split
    · rw [writeCap_only (Only.refl 256 s) rfl .fault rfl]
    · split
      · split
        · rw [applyCap_others, noteMargin_others, modLoop_fault]
        · dsimp only
          rw [applyCap_others, noteMargin_others]
          split <;> rfl
      · exact applyCap_others ..
  · rfl

theorem refreshGains_others (s : State) : (refreshGains s).fault.others = s.fault.others := by
  unfold refreshGains
  extract_lets s0 s1 s2
  have h0 : s0.fault = s.fault := foldl_keeps State.fault (fun _ _ => noteGap_only (Only.refl 64 _) rfl .fault rfl) _ _
  have h1 : s1.fault = s0.fault := foldl_keeps (f := refreshOne) State.fault (fun _ _ => rfl) _ _
  have h2 : s2.fault.others = s1.fault.others := foldl_keeps (fun t => t.fault.others) (fun _ _ => evalLoop_others ..) _ _
  rw [foldl_keeps (f := refreshOne) State.fault (fun _ _ => rfl) _ _, h2, h1, h0]

theorem restartLoop_others (e : Nat) (m : Option QualMode) (c : Bool) (s : State) :
    (restartLoop e m c s).fault.others = s.fault.others := by
  unfold restartLoop
  split
  · rfl
  · dsimp only
    rw [writeCap_only (Only.refl 256 _) rfl .fault rfl, endFault_others, endFault_others, modLoop_fault]

theorem loopChanged_others (e : Nat) (s : State) : (loopChanged e s).fault.others = s.fault.others := by
  unfold loopChanged
  split
  · rfl
  · split
    · rfl
    · exact restartLoop_others ..

theorem bandChanged_others (d : Dir) (n : Nat) (b : Bool) (s : State) : (bandChanged d n b s).fault.others = s.fault.others := by
  unfold bandChanged
  split
  · dsimp only
    split
    · rfl
    · rw [foldl_keeps (fun t => t.fault.others) (fun _ _ => loopChanged_others ..) _ _]
      rfl
  · dsimp only
    split
    · rfl
    · rw [loopChanged_others]
      rfl

theorem modBand_fault (d : Dir) (n : Nat) (f : BandPath → BandPath) (s : State) : (modBand d n f s).fault = s.fault :=
  modBand_only (Only.refl 64 s) rfl .fault rfl

theorem applyChange_others (d : Dir) (n : Nat) (p : BpParams) (s : State) :
    (applyChange d n p s).fault.others = s.fault.others := by
  unfold applyChange
  split
  · rfl
  · extract_lets waits same
    rw [bandChanged_others, modBand_fault]

theorem startSettle_others (d : Dir) (n : Nat) (p : BpParams) (s : State) :
    (startSettle d n p s).fault.others = s.fault.others := by
  unfold startSettle
  split
  · rfl
  next b _ =>
    extract_lets by_ note
    split
    · rw [applyChange_others, modBand_fault]
    · rw [applyChange_others, modBand_fault]
    · rw [modBand_fault]
    all_goals
      split
      · rw [applyChange_others, modBand_fault]
      · rw [modBand_fault]

theorem realign_others (d : Dir) (n : Nat) (s : State) : (realign d n s).fault.others = s.fault.others := by
  unfold realign
  split
  · exact startSettle_others ..
  · rfl

/-! ## The member ID beyond the queues -/

theorem enqueueRaw_memberId (p : Nat) (f : CtrlFrame) (s : State) : (enqueueRaw p f s).2.fl.memberId = s.fl.memberId := by
  unfold enqueueRaw
  dsimp only
  split <;> rfl

theorem refuse_memberId (r : JoinReq) (reason port : Nat) (s : State) :
    (refuse r reason port s).fl.memberId = s.fl.memberId := by
  unfold refuse
  extract_lets d
  exact (enqueueRaw_memberId ..).trans (congrArg FlState.memberId (drawRetry_only (Only.refl 262144 s) rfl .fl rfl))

theorem enqueue_memberId (p : Nat) (f : CtrlFrame) (s : State) : (enqueue p f s).fl.memberId = s.fl.memberId := by
  have hraw := enqueueRaw_memberId p f s
  unfold enqueue
  split
  next h =>
    rw [h] at hraw
    split
    · exact (refuse_memberId ..).trans hraw
    · exact hraw
  next h =>
    rw [h] at hraw
    exact hraw

theorem sendLink_memberId (p : Nat) (b : FrameBody) (s : State) : (sendLink p b s).fl.memberId = s.fl.memberId :=
  enqueue_memberId ..

theorem sendTo_memberId (d : Nat) (b : FrameBody) (s : State) : (sendTo d b s).fl.memberId = s.fl.memberId := by
  unfold sendTo
  split
  · exact enqueue_memberId ..
  · rfl

theorem sendBelow_memberId (b : FrameBody) (s : State) : (sendBelow b s).fl.memberId = s.fl.memberId := by
  unfold sendBelow
  exact foldl_keeps (fun t => t.fl.memberId) (fun _ _ => enqueue_memberId ..) _ _

theorem sendUp_memberId (b : FrameBody) (s : State) : (sendUp b s).fl.memberId = s.fl.memberId := by
  unfold sendUp
  split
  · exact foldl_keeps (fun t => t.fl.memberId) (fun _ _ => enqueue_memberId ..) _ _
  · rfl

theorem reportBindings_memberId (s : State) : (reportBindings s).fl.memberId = s.fl.memberId := by
  unfold reportBindings
  dsimp only
  split
  · rfl
  · split
    · rfl
    · split
      · exact sendUp_memberId ..
      · rfl

theorem sendPlan_memberId (p : IssuedPlan) (m : Nat) (s : State) : (sendPlan p m s).fl.memberId = s.fl.memberId := by
  unfold sendPlan
  dsimp only
  exact foldl_keeps (fun t => t.fl.memberId) (fun _ _ => sendTo_memberId ..) _ _

theorem nameLanes_memberId (f : Nat) (s : State) : (nameLanes f s).fl.memberId = s.fl.memberId := by
  unfold nameLanes
  refine foldl_keeps (fun t => t.fl.memberId) (fun u p => ?_) _ _
  dsimp only
  split
  · rfl
  · exact sendLink_memberId ..

theorem issuePlan_memberId (s : State) : (issuePlan s).fl.memberId = s.fl.memberId := by
  unfold issuePlan
  extract_lets d f first dT w whole changes others plan s1 own s2
  have h1 : s1.fl = s.fl := modDv_fl ..
  clear_value s1
  have h2 : s2.fl.memberId = s.fl.memberId := by
    unfold s2
    rw [nameLanes_memberId, holdPlan_only (Only.refl 8192 _) rfl .fl rfl, h1]
  rw [postEnds_only (Only.refl 2 _) rfl .fl rfl, foldl_keeps (fun t => t.fl.memberId) (fun _ _ => sendPlan_memberId ..) _ _, h2]

theorem seekAdmission_memberId (s : State) : (seekAdmission s).fl.memberId = s.fl.memberId := by
  unfold seekAdmission
  split
  · rfl
  · split
    · rfl
    · dsimp only
      split
      · rfl
      · split
        · rfl
        · exact sendUp_memberId ..

/-! ## Entry to PADDOCK keeps both -/

/-- What entry to PADDOCK keeps: the member ID, and the books of the collector. -/
structure KeepsRank (s t : State) : Prop where
  member : t.fl.memberId = s.fl.memberId
  books : t.fault.books = s.fault.books

theorem KeepsRank.refl (s : State) : KeepsRank s s := ⟨rfl, rfl⟩

theorem KeepsRank.trans {s t u : State} (h : KeepsRank s t) (k : KeepsRank t u) : KeepsRank s u :=
  ⟨k.member.trans h.member, k.books.trans h.books⟩

theorem KeepsRank.of_others {s t : State} (hfl : t.fl = s.fl) (hfault : t.fault.others = s.fault.others) : KeepsRank s t :=
  ⟨congrArg FlState.memberId hfl, books_of_others hfault⟩

theorem KeepsRank.halt {s t : State} (h : KeepsRank s t) : t.fault.halt = s.fault.halt := (congrArg (fun x => x.1.1) h.books :)

theorem KeepsRank.foldl {α : Type} {f : State → α → State} (hf : ∀ s x, KeepsRank s (f s x)) (l : List α) (s : State) :
    KeepsRank s (l.foldl f s) := by
  induction l generalizing s with
  | nil => exact .refl s
  | cons x l ih => exact (hf s x).trans (ih _)

theorem keepsRank_modBand (d : Dir) (n : Nat) (f : BandPath → BandPath) (s : State) : KeepsRank s (modBand d n f s) :=
  .of_others (modBand_only (Only.refl 64 s) rfl .fl rfl) (by rw [modBand_fault])

theorem keepsRank_realign (d : Dir) (n : Nat) (s : State) : KeepsRank s (realign d n s) :=
  .of_others (realign_only (Only.refl 452 s) rfl .fl rfl) (realign_others ..)

theorem keepsRank_refreshGains (s : State) : KeepsRank s (refreshGains s) :=
  .of_others refreshGains_keeps_fl (refreshGains_others s)

theorem keepsRank_enterPaddock (u : UnitId) (s : State) : KeepsRank s (enterPaddock u s) := by
  unfold enterPaddock
  extract_lets l s1
  have h1 : KeepsRank s s1 := ⟨rfl, rfl⟩
  refine (h1.trans ((KeepsRank.foldl (fun acc v => ?_) l s1).trans (keepsRank_refreshGains _))).trans
    ⟨seekAdmission_memberId _, congrArg FaultState.books (seekAdmission_only (Only.refl 274560 _) rfl .fault rfl)⟩
  split
  · have hrestart : KeepsRank acc (restartLoop v.index (some .paddock) false acc) :=
      .of_others restartLoop_keeps_fl (restartLoop_others ..)
    dsimp only
    split
    · split
      · exact hrestart.trans (keepsRank_realign ..)
      · exact hrestart
    · exact hrestart
  · dsimp only
    split
    · split
      · exact (keepsRank_modBand ..).trans (keepsRank_realign ..)
      · exact keepsRank_modBand ..
    · exact keepsRank_modBand ..
  all_goals exact ⟨rfl, rfl⟩

end Sys2Proof.Machine
end

section
set_option Elab.async false
/-! The redundant hub pair (R468–R480): who is active follows the heartbeats, and each change of role is one equation of the
pair's state and of the member ID. -/

namespace Sys2Proof.Machine

open Sys2Proof

/-! ## The two roles -/

theorem becomeActiveHub_pair (s : State) :
    (becomeActiveHub s).pair = { s.pair with phase := .activeAlone, bulk := none, outgoing := [] } := by
  unfold becomeActiveHub
  rw [reportBindings_only (Only.refl 274432 _) rfl .pair rfl, reselect_keeps_pair]
  rfl

theorem becomeActiveHub_memberId (s : State) : (becomeActiveHub s).fl.memberId = some 0 := by
  unfold becomeActiveHub
  rw [reportBindings_memberId, reselect_keeps_fl]
  rfl

theorem becomeActiveHub_now (s : State) : (becomeActiveHub s).air.mono = s.air.mono := by
  unfold becomeActiveHub
  rw [reportBindings_only (Only.refl 274432 _) rfl .air rfl]
  exact congrArg Prod.fst (reselect_inputs _)

theorem disableTxs_keeps {β : Type} (g : State → β) (hg : ∀ c s, g (disableTx c s) = g s) (l : List Nat) (s : State) :
    g (l.foldl (fun acc k => disableTx (8 + k) acc) s) = g s := foldl_keeps g (fun _ _ => hg ..) l s

theorem becomeStandbyHub_pair (s : State) : ∃ l, (becomeStandbyHub s).pair = { s.pair with
    phase := .standbySyncing, seqApplied := 0, seqAcked := 0, outgoing := [], bulk := none, failover := false, demote := false
    split := false, switchAt := none, forced := false, mirrored := [], enableTx := l, muting := [], tail := [], frozen := none } := by
  unfold becomeStandbyHub
  extract_lets s1 on s2
  rw [refreshGains_keeps_pair, reselect_keeps_pair,
    disableTxs_keeps State.pair (fun _ _ => disableTx_only (Only.refl 486 _) rfl .pair rfl)]
  exact ⟨_, rfl⟩

theorem becomeStandbyHub_memberId (s : State) : (becomeStandbyHub s).fl.memberId = some 1 := by
  unfold becomeStandbyHub
  extract_lets s1 on s2
  rw [refreshGains_keeps_fl, reselect_keeps_fl,
    disableTxs_keeps State.fl (fun _ _ => disableTx_only (Only.refl 486 _) rfl .fl rfl)]
  rfl

theorem becomeStandbyHub_dv (s : State) : (becomeStandbyHub s).dv = s.dv :=
  becomeStandbyHub_only (Only.refl 70119 s) rfl .dv rfl

/-! ## Heartbeats -/

/-- What a heartbeat that is noted leads to (R473, R474, R479). -/
def hears (h : Heartbeat) (s : State) : State :=
  match s.pair.phase with
  | .waiting => if winsOver s h then becomeActiveHub s else becomeStandbyHub s
  | .activeAlone | .activePaired => activeHears h s
  | .standbySyncing | .standbyReady => standbyHears h s
  | .unpaired => s

theorem pairHb_eq {s : State} {port k : Nat} {h : Heartbeat} (hk : (mirrorPorts s).findIdx? (· == port) = some k)
    (hruns : pairRuns s) (hpeer : fromPeer s h) : pairHb port h s = hears h (noteHeartbeat k h s) := by
  rw [pairHb, hk]
  exact if_neg (by simp [hruns, hpeer])

theorem activeHears_links (h : Heartbeat) (s : State) : (activeHears h s).pair.links = s.pair.links := by
  unfold activeHears
  split
  · split <;> rfl
  · split
    · rfl
    · dsimp only
      split
      · split <;> rfl
      · rfl

theorem standbyHears_links (h : Heartbeat) (s : State) : (standbyHears h s).pair.links = s.pair.links := by
  unfold standbyHears
  split <;> rfl

theorem hears_links (h : Heartbeat) (s : State) : (hears h s).pair.links = s.pair.links := by
  unfold hears
  split
  · split
    · rw [becomeActiveHub_pair]
    · obtain ⟨l, hpair⟩ := becomeStandbyHub_pair s
      rw [hpair]
  · exact activeHears_links ..
  · exact activeHears_links ..
  · exact standbyHears_links ..
  · exact standbyHears_links ..
  · rfl

theorem hears_waiting {h : Heartbeat} {s : State} (hphase : s.pair.phase = .waiting) :
    hears h s = if winsOver s h then becomeActiveHub s else becomeStandbyHub s := by
  rw [hears, hphase]

theorem hears_active {h : Heartbeat} {s : State} (hphase : s.pair.phase = .activeAlone) : hears h s = activeHears h s := by
  rw [hears, hphase]

theorem hears_standby {h : Heartbeat} {s : State} (hphase : s.pair.phase = .standbySyncing ∨ s.pair.phase = .standbyReady) :
    hears h s = standbyHears h s := by
  rcases hphase with hphase | hphase <;> rw [hears, hphase]

/-- The higher term decides before anything else (R474). -/
theorem winsOver_of_term {h : Heartbeat} {s : State} (hne : s.pair.term ≠ h.term) : winsOver s h = decide (h.term < s.pair.term) :=
  if_pos hne

theorem pairHb_runs {s : State} {port k : Nat} {h : Heartbeat} (hk : (mirrorPorts s).findIdx? (· == port) = some k)
    (hruns : pairRuns s) (hpeer : fromPeer s h) :
    Runs (.pairHb port h) s (but [.sys, .hk, .cl, .ps, .mem, .bell, .wire, .pending]) fun t =>
      (t.pair.links.get k).missed = 0 ∧ (t.pair.links.get k).up ∧ (t.pair.links.get k).lastHb = some s.now ∧
      (s.pair.phase = .waiting → h.term < s.pair.term → t.pair.phase = .activeAlone ∧ t.fl.memberId = some 0) ∧
      (s.pair.phase = .waiting → s.pair.term < h.term → t.pair.phase = .standbySyncing ∧ t.fl.memberId = some 1) ∧
      (s.pair.phase = .activeAlone → h.state = 2 → s.pair.term < h.term → t.pair.demote ∧ t.pair.split) ∧
      (s.pair.phase = .activeAlone → h.state = 4 → s.pair.bulk = none →
        t.pair.bulks = s.pair.bulks + 1 ∧ t.pair.bulk ≠ none ∧ t.pair.seqAcked = 0) ∧
      ((s.pair.phase = .standbySyncing ∨ s.pair.phase = .standbyReady) → h.state = 3 →
        t.pair.phase = .standbyReady ∧ ¬t.pair.failover ∧ t.pair.term = h.term) := by
  refine runs_of_only (t := pairHb port h s) rfl execPairHb_only (by decide) ?_
  rw [pairHb_eq hk hruns hpeer, hears_links]
  have hlink : (noteHeartbeat k h s).pair.links.get k = { s.pair.links.get k with
      lastHb := some (now s), missed := 0, up := true
      upSince := if (s.pair.links.get k).up then (s.pair.links.get k).upSince else now s } := get_mod_same ..
  have hphase : (noteHeartbeat k h s).pair.phase = s.pair.phase := rfl
  have hterm : (noteHeartbeat k h s).pair.term = s.pair.term := rfl
  have hbulk : (noteHeartbeat k h s).pair.bulk = s.pair.bulk := rfl
  have hbulks : (noteHeartbeat k h s).pair.bulks = s.pair.bulks := rfl
  generalize noteHeartbeat k h s = v at *
  rw [hlink]
  refine ⟨rfl, rfl, rfl, fun hw hlt => ?_, fun hw hlt => ?_, fun ha h2 hlt => ?_, fun ha h4 hnone => ?_, fun hs h3 => ?_⟩
  · have hwins : winsOver v h = true := by
      rw [winsOver_of_term (by omega)]
      exact decide_eq_true (by omega)
    rw [hears_waiting (hphase.trans hw), if_pos hwins, becomeActiveHub_pair, becomeActiveHub_memberId]
    exact ⟨rfl, rfl⟩
  · have hloses : ¬winsOver v h = true := by
      rw [winsOver_of_term (by omega), decide_eq_true_eq]
      omega
    obtain ⟨l, hpair⟩ := becomeStandbyHub_pair v
    rw [hears_waiting (hphase.trans hw), if_neg hloses, hpair, becomeStandbyHub_memberId]
    exact ⟨rfl, rfl⟩
  · rw [hears_active (hphase.trans ha), activeHears, if_pos (.inl h2), if_pos (.inl (by omega))]
    exact ⟨rfl, rfl⟩
  · rw [hears_active (hphase.trans ha), activeHears, if_neg (by omega),
      if_pos ⟨h4, by simp [hbulk, hnone, hphase, ha]⟩]
    exact ⟨congrArg (· + 1) hbulks, Option.some_ne_none _, rfl⟩
  · rw [hears_standby (by rw [hphase]; exact hs), standbyHears, if_pos (.inr h3)]
    exact ⟨if_pos h3, Bool.false_ne_true, rfl⟩

/-! ## Missed heartbeats and WAITING -/

/-- The instant at which a missed heartbeat is judged (R469). -/
def judgedAt (k : Nat) (s : State) : State :=
  if (s.air.offset % tcPerMs == tcPerMs / 2) && (s.pair.links.get k).judged != some (airNow s.air) then s
  else advanceToAir (nextHbCheck s.air) s

/-- A miss is counted on its link (R469, R475). -/
def countMiss (k : Nat) (s : State) : State :=
  s.modPair (fun p => { p with
    misses := p.misses + 1
    links := p.links.mod k (fun x => { x with missed := x.missed + 1, up := false, judged := some (airNow s.air) }) })

/-- Four misses in a row raise PAIR_LINK; on every link they end a READY standby's wait (R475, R480). -/
def judge (k n : Nat) (s : State) : State :=
  let s1 := if 4 ≤ (s.pair.links.get k).missed then raiseLevel { cls := 0xC0, unit := pairLinkUnit, detail4 := k } s else s
  if (List.range n).all (fun j => decide (4 ≤ (s1.pair.links.get j).missed)) ∧ s1.pair.phase = .standbyReady
  then s1.modPair (fun p => { p with failover := true }) else s1

theorem pairHbMissed_eq {s : State} {k : Nat} (hruns : pairRuns s) (hk : k < (mirrorPorts s).length) :
    pairHbMissed k s = judge k (mirrorPorts s).length (countMiss k (judgedAt k s)) := by
  rw [pairHbMissed, if_neg (by simp [hruns, hk])]
  rfl

theorem judgedAt_keeps (k : Nat) (s : State) : (judgedAt k s).pair = s.pair ∧ (judgedAt k s).fault = s.fault := by
  unfold judgedAt
  split
  · exact ⟨rfl, rfl⟩
  · exact ⟨advanceToAir_keeps_pair, advanceToAir_keeps_fault⟩

theorem judge_pair (k n : Nat) (s : State) : ∃ b, (judge k n s).pair = { s.pair with failover := b } ∧
    ((List.range n).all (fun j => decide (4 ≤ (s.pair.links.get j).missed)) → s.pair.phase = .standbyReady → b = true) ∧
    (s.pair.phase ≠ .standbyReady → b = s.pair.failover) := by
  unfold judge
  extract_lets s1
  have h1 : s1.pair = s.pair := by
    unfold s1
    split
    · exact raiseLevel_keeps_pair
    · rfl
  by_cases hall : (List.range n).all (fun j => decide (4 ≤ (s1.pair.links.get j).missed)) ∧ s1.pair.phase = .standbyReady
  · rw [if_pos hall, modPair_pair, h1]
    exact ⟨true, rfl, fun _ _ => rfl, fun hnot => absurd (h1 ▸ hall.2) hnot⟩
  · rw [if_neg hall, h1]
    rw [h1] at hall
    exact ⟨s.pair.failover, rfl, fun h hready => absurd ⟨h, hready⟩ hall, fun _ => rfl⟩

theorem judge_fault {k n : Nat} {s : State} (hfour : 4 ≤ (s.pair.links.get k).missed) :
    (judge k n s).fault = (raiseLevel { cls := 0xC0, unit := pairLinkUnit, detail4 := k } s).fault := by
  unfold judge
  extract_lets s1
  have h1 : s1 = raiseLevel { cls := 0xC0, unit := pairLinkUnit, detail4 := k } s := if_pos hfour
  rw [← h1]
  split <;> rfl

theorem raised_raiseLevel {r : Raise} {s : State} (h : ¬holding s r.cls r.unit) : Raised r.cls r.unit s (raiseLevel r s) := by
  rw [raiseLevel, if_neg h]
  exact ⟨_, rfl, rfl, rfl⟩

theorem pairHbMissed_runs {s : State} {p : Nat} (hruns : pairRuns s) (hports : mirrorPorts s = [p]) :
    Runs (.pairHbMissed 0) s [.air, .fault, .pair] fun t => t.pair.misses = s.pair.misses + 1 ∧
      (t.pair.links.get 0).missed = (s.pair.links.get 0).missed + 1 ∧ ¬(t.pair.links.get 0).up ∧
      (3 ≤ (s.pair.links.get 0).missed → ¬holding s 0xC0 pairLinkUnit → Raised 0xC0 pairLinkUnit s t) ∧
      (3 ≤ (s.pair.links.get 0).missed → s.pair.phase = .standbyReady → t.pair.failover) ∧
      (s.pair.phase ≠ .standbyReady → t.pair.failover = s.pair.failover) := by
  refine runs_of_only (t := pairHbMissed 0 s) rfl execPairHbMissed_only (by decide) ?_
  rw [pairHbMissed_eq hruns (by rw [hports]; exact Nat.one_pos), hports]
  obtain ⟨hpair, hfault⟩ := judgedAt_keeps 0 s
  generalize judgedAt 0 s = v at *
  have hlink : (countMiss 0 v).pair.links.get 0 = { v.pair.links.get 0 with
      missed := (v.pair.links.get 0).missed + 1, up := false, judged := some (airNow v.air) } := get_mod_same ..
  have hmisses : (countMiss 0 v).pair.misses = s.pair.misses + 1 := congrArg (fun x => PairState.misses x + 1) hpair
  have hphase : (countMiss 0 v).pair.phase = s.pair.phase := by
    rw [countMiss, modPair_pair, hpair]
  have hover : (countMiss 0 v).pair.failover = s.pair.failover := by
    rw [countMiss, modPair_pair, hpair]
  have hcount : (countMiss 0 v).fault = s.fault := hfault
  rw [hpair] at hlink
  generalize countMiss 0 v = w at *
  obtain ⟨b, hb, hready, hother⟩ := judge_pair 0 [p].length w
  rw [hb]
  refine ⟨hmisses, congrArg MirrorLink.missed hlink, by simp [hlink], fun hthree hnot => ?_, fun hthree hr => ?_, fun hr => ?_⟩
  · have hfour : 4 ≤ (w.pair.links.get 0).missed := by rw [hlink]; exact Nat.succ_le_succ hthree
    obtain ⟨x, hx, hcls, hunit⟩ := raised_raiseLevel (r := { cls := 0xC0, unit := pairLinkUnit, detail4 := 0 }) (s := w)
      (by rw [holding, hcount]; exact hnot)
    exact ⟨x, by rw [judge_fault hfour, hx, hcount], hcls, hunit⟩
  · have hall : (List.range [p].length).all (fun j => decide (4 ≤ (w.pair.links.get j).missed)) = true := by
      have hfour : 4 ≤ (w.pair.links.get 0).missed := by rw [hlink]; exact Nat.succ_le_succ hthree
      simp [hfour]
    exact hready hall (hphase.trans hr)
  · exact (hother (by rw [hphase]; exact hr)).trans hover

theorem pairWaitTimeout_runs {s : State} (h : s.pair.phase = .waiting) :
    Runs .pairWaitTimeout s [.air, .fl, .dv, .pair, .drawn] fun t => t.pair.phase = .activeAlone ∧ t.fl.memberId = some 0 ∧
      waited s t (s.pair.waitFrom + tcOfS (if s.pair.config.preferStandby then s.pair.config.wait else 2)) := by
  refine runs_of_only (t := pairWaitTimeout s) rfl execPairWaitTimeout_only (by decide) ?_
  have heq : pairWaitTimeout s = becomeActiveHub (advanceTo
      (s.pair.waitFrom + tcOfS (if s.pair.config.preferStandby then s.pair.config.wait else 2)) s) := by
    rw [pairWaitTimeout, if_pos h]
  rw [heq]
  generalize s.pair.waitFrom + tcOfS (if s.pair.config.preferStandby then s.pair.config.wait else 2) = x
  rw [becomeActiveHub_pair, becomeActiveHub_memberId, waited, becomeActiveHub_now]
  exact ⟨rfl, rfl, advanceTo_waited x s⟩

/-! ## Takeover and demotion -/

/-- The standby takes its rank at the takeover frame (R476). -/
def takeRank (f : Nat) (s : State) : State :=
  (advanceToAir ⟨f, 0⟩ s).modPair (fun p => { p with
    term := p.term + 1, phase := .activeAlone, takeovers := p.takeovers + 1, lastFrame := f, frozen := some p.tail
    switchAt := none, forced := false, failover := false, outgoing := [], bulk := none, sent := [] })

theorem takeRank_pair (f : Nat) (s : State) : (takeRank f s).pair = { s.pair with
    term := s.pair.term + 1, phase := .activeAlone, takeovers := s.pair.takeovers + 1, lastFrame := f
    frozen := some s.pair.tail, switchAt := none, forced := false, failover := false, outgoing := [], bulk := none, sent := [] } := by
  rw [takeRank, modPair_pair, advanceToAir_keeps_pair]

theorem takeRank_fault (f : Nat) (s : State) : (takeRank f s).fault = s.fault := by
  rw [takeRank, modPair_fault, advanceToAir_keeps_fault]

/-- The hub's tables, flows and chains are adopted (R476, R477). -/
def takeTables (s : State) : State :=
  adoptModels (enableChains (issuePlan (reportBindings (takeFlows (adoptDrover (adoptBelow (adoptFaults
    (failSource srcFlock (s.modFl (fun f => { f with memberId := some 0 }))))))))))

theorem adoptDrover_memberId (s : State) : (adoptDrover s).fl.memberId = s.fl.memberId := by
  unfold adoptDrover
  extract_lets later s1 s2
  have h1 : s1.fl.memberId = s.fl.memberId := foldl_keeps (fun t => t.fl.memberId) (fun _ _ => sendBelow_memberId ..) _ _
  have h2 : s2.fl = s1.fl := by
    unfold s2
    split <;> rfl
  exact (congrArg FlState.memberId h2).trans h1

theorem keepsRank_adoptModels (s : State) : KeepsRank s (adoptModels s) := by
  unfold adoptModels
  extract_lets warm s1 s2
  have h2 : KeepsRank s s2 := ⟨rfl, rfl⟩
  exact h2.trans (KeepsRank.foldl (fun _ _ => keepsRank_enterPaddock ..) _ _)

theorem takeTables_pair (s : State) : (takeTables s).pair = s.pair := by
  unfold takeTables
  rw [adoptModels_only (Only.refl 276932 _) rfl .pair rfl, enableChains_only (Only.refl 32 _) rfl .pair rfl,
    issuePlan_only (Only.refl 274434 _) rfl .pair rfl, reportBindings_only (Only.refl 274432 _) rfl .pair rfl,
    takeFlows_only (Only.refl 8192 _) rfl .pair rfl, adoptDrover_only (Only.refl 274432 _) rfl .pair rfl,
    adoptBelow_only (Only.refl 4096 _) rfl .pair rfl, adoptFaults_only (Only.refl 4 _) rfl .pair rfl,
    failSource_only (Only.refl 1 _) rfl .pair rfl, modFl_pair]

theorem takeTables_memberId (s : State) : (takeTables s).fl.memberId = some 0 := by
  unfold takeTables
  rw [(keepsRank_adoptModels _).member, enableChains_only (Only.refl 32 _) rfl .fl rfl, issuePlan_memberId,
    reportBindings_memberId, takeFlows_only (Only.refl 8192 _) rfl .fl rfl, adoptDrover_memberId]
  show (failSource srcFlock _).fl.memberId = _
  rw [failSource_only (Only.refl 1 _) rfl .fl rfl]
  rfl

theorem takeTables_halt (s : State) : (takeTables s).fault.halt = (s.fault.halt <|> s.pair.halt) := by
  unfold takeTables
  rw [(keepsRank_adoptModels _).halt, enableChains_only (Only.refl 32 _) rfl .fault rfl,
    issuePlan_only (Only.refl 274434 _) rfl .fault rfl, reportBindings_only (Only.refl 274432 _) rfl .fault rfl,
    takeFlows_only (Only.refl 8192 _) rfl .fault rfl, adoptDrover_only (Only.refl 274432 _) rfl .fault rfl,
    adoptBelow_only (Only.refl 4096 _) rfl .fault rfl, adoptFaults, modFault_fault,
    failSource_only (Only.refl 1 _) rfl .fault rfl, failSource_only (Only.refl 1 _) rfl .pair rfl, modFl_fault, modFl_pair]

theorem pairTakeover_eq {s : State} {f : Nat} (hstandby : standbyHub s) (hframe : takeoverFrame s = some f) :
    pairTakeover s = refreshFaultN (refreshGains (postNotice 0x1101 (takeTables (takeRank f s)).pair.term f
      (submitLog 0x1101 (sourceIndex 7 0) [(takeTables (takeRank f s)).pair.term, s.pair.peerSerial, f, s.pair.seqApplied]
        (takeTables (takeRank f s))))) := by
  rw [pairTakeover, if_pos hstandby, hframe]
  rfl

theorem pairTakeover_runs {s : State} {f : Nat} (hstandby : standbyHub s) (hframe : takeoverFrame s = some f) :
    Runs .pairTakeover s (but [.sys, .hk, .cl, .mem, .bell, .wire, .pending]) fun t => t.pair.term = s.pair.term + 1 ∧
      t.pair.phase = .activeAlone ∧ t.pair.takeovers = s.pair.takeovers + 1 ∧ t.pair.lastFrame = f ∧
      t.pair.frozen = some s.pair.tail ∧ t.fl.memberId = some 0 ∧ t.fault.halt = (s.fault.halt <|> s.pair.halt) := by
  refine runs_of_only (t := pairTakeover s) rfl execPairTakeover_only (by decide) ?_
  have hpair := takeTables_pair (takeRank f s)
  have hmember := takeTables_memberId (takeRank f s)
  have hhalt := takeTables_halt (takeRank f s)
  rw [pairTakeover_eq hstandby hframe]
  generalize takeTables (takeRank f s) = v at *
  have hfault : ∀ u : State, (refreshFaultN u).fault.halt = u.fault.halt := fun _ => rfl
  rw [hfault, ← halt_others, refreshGains_others, halt_others, postNotice_keeps_fault, submitLog_keeps_fault, hhalt,
    refreshFaultN_only (Only.refl 4 _) rfl .pair rfl, refreshGains_keeps_pair, postNotice_keeps_pair, submitLog_keeps_pair, hpair,
    refreshFaultN_only (Only.refl 4 _) rfl .fl rfl, refreshGains_keeps_fl, postNotice_keeps_fl, submitLog_keeps_fl, hmember,
    takeRank_pair, takeRank_fault]
  exact ⟨rfl, rfl, rfl, rfl, rfl, rfl, rfl⟩

/-- What muting ahead of a planned demotion keeps of the pair. -/
theorem muteTowards_pair (m : Nat) (s : State) : ∃ l, (muteTowards m s).pair = { s.pair with muting := l } := by
  have hfold : ∀ (l : List (Dir × Nat)) (v : State), (∃ x, v.pair = { s.pair with muting := x }) →
      ∃ x, (l.foldl (fun acc x => refreshGains ((advanceTo (m - fadeOf acc x) acc).modPair
        (fun p => { p with muting := p.muting ++ [x.2] }))) v).pair = { s.pair with muting := x } := by
    intro l
    induction l with
    | nil => exact fun v hv => hv
    | cons x l ih =>
      rintro v ⟨y, hv⟩
      refine ih _ ⟨y ++ [x.2], ?_⟩
      rw [refreshGains_keeps_pair, modPair_pair, advanceTo_keeps_pair, hv]
  exact hfold _ s ⟨s.pair.muting, rfl⟩

/-- The state at the demotion frame (R475, R479). -/
def demoteView (f : Nat) (s : State) : State :=
  advanceToAir ⟨f, 0⟩ (if s.pair.demote then s else muteTowards (now s + monoOfAir s.air ⟨f, 0⟩) s)

theorem demoteView_pair (f : Nat) (s : State) : ∃ l, (demoteView f s).pair = { s.pair with muting := l } := by
  unfold demoteView
  rw [advanceToAir_keeps_pair]
  split
  · exact ⟨s.pair.muting, rfl⟩
  · exact muteTowards_pair ..

/-- The hub takes the rank of the standby (R479). -/
def giveRank (f : Nat) (split : Bool) (v : State) : State :=
  (becomeStandbyHub (discardTables v)).modPair (fun p => { p with
    frozen := some v.pair.tail, demotions := p.demotions + 1, splits := p.splits + flag split, lastFrame := f })

theorem pairDemote_eq {s : State} {f : Nat} (hactive : activeHub s) (henable : s.pair.config.enable)
    (hframe : demoteFrame s = some f) :
    pairDemote s = (if s.pair.split then submitLog 0x1103 (sourceIndex 7 0) [s.pair.term, s.pair.peerTerm]
        (submitLog 0x1102 (sourceIndex 7 0) [if s.pair.split then s.pair.peerTerm else s.pair.term + 1, Config.serial.toNat, f,
          s.pair.seqApplied] (giveRank f s.pair.split (demoteView f s)))
      else submitLog 0x1102 (sourceIndex 7 0) [if s.pair.split then s.pair.peerTerm else s.pair.term + 1, Config.serial.toNat, f,
          s.pair.seqApplied] (giveRank f s.pair.split (demoteView f s))) := by
  rw [pairDemote, if_pos (by simp [hactive, henable]), hframe]
  rfl

theorem giveRank_pair {s v : State} {f : Nat} {l : List Nat} (h : v.pair = { s.pair with muting := l }) (split : Bool) :
    (giveRank f split v).pair.phase = .standbySyncing ∧ (giveRank f split v).pair.demotions = s.pair.demotions + 1 ∧
      (giveRank f split v).pair.lastFrame = f ∧ (giveRank f split v).pair.splits = s.pair.splits + (if split then 1 else 0) ∧
      (giveRank f split v).pair.frozen = some s.pair.tail := by
  obtain ⟨e, hpair⟩ := becomeStandbyHub_pair (discardTables v)
  have hv : (discardTables v).pair = v.pair := rfl
  rw [giveRank, modPair_pair, hpair, hv, h]
  exact ⟨rfl, rfl, rfl, by cases split <;> rfl, rfl⟩

theorem pairDemote_runs {s : State} {f : Nat} (m : Nat) (hactive : activeHub s) (henable : s.pair.config.enable)
    (hframe : demoteFrame s = some f) :
    Runs .pairDemote s [.air, .host, .fault, .log, .rf, .ce, .lg, .np, .fl, .dv, .pair] fun t =>
      t.pair.phase = .standbySyncing ∧ t.fl.memberId = some 1 ∧ t.pair.demotions = s.pair.demotions + 1 ∧
      t.pair.lastFrame = f ∧ t.pair.splits = s.pair.splits + (if s.pair.split then 1 else 0) ∧
      t.pair.frozen = some s.pair.tail ∧ t.dv.intents.get m = none := by
  refine runs_of_only (t := pairDemote s) rfl execPairDemote_only (by decide) ?_
  rw [pairDemote_eq hactive henable hframe]
  obtain ⟨l, hview⟩ := demoteView_pair f s
  obtain ⟨hphase, hdemotions, hlast, hsplits, hfrozen⟩ := giveRank_pair (f := f) hview s.pair.split
  have hmember : (giveRank f s.pair.split (demoteView f s)).fl.memberId = some 1 := by
    rw [giveRank, modPair_fl, becomeStandbyHub_memberId]
  have hintents : (giveRank f s.pair.split (demoteView f s)).dv.intents.get m = none := by
    rw [giveRank, modPair_dv, becomeStandbyHub_dv]
    rfl
  generalize giveRank f s.pair.split (demoteView f s) = v at *
  split
  all_goals
    simp only [submitLog_keeps_pair, submitLog_keeps_fl, submitLog_keeps_dv]
    exact ⟨hphase, hmember, hdemotions, hlast, by simp [*], hfrozen, hintents⟩

/-- Settles O60: a heartbeat is noted and then heard by the phase; each change of role is one equation. -/
theorem pairRolesFollowHeartbeats : Obligations.PairRolesFollowHeartbeats := by
  intro s port k f p m h
  refine ⟨pairHb_runs, fun hnone => ?_, pairHbMissed_runs, fun hnot => ?_, pairWaitTimeout_runs, fun hnot => ?_,
    pairTakeover_runs, fun hnot => ?_, pairDemote_runs m, fun hnot => ?_⟩
  · exact congrArg Host.Outcome.next (by rw [pairHb, hnone])
  · exact congrArg Host.Outcome.next (if_pos (by simp [hnot]))
  · exact congrArg Host.Outcome.next (if_neg hnot)
  · have hnone : (if standbyHub s then takeoverFrame s else none) = none := by
      rcases hnot with h | h
      · exact if_neg h
      · simp [h]
    exact congrArg Host.Outcome.next (by rw [pairTakeover, hnone])
  · exact congrArg Host.Outcome.next (by rw [pairDemote, if_neg (by simp [hnot])])

end Sys2Proof.Machine
end

section
set_option Elab.async false
/-! The Logbook's writer (R395–R409): what each operation on the store leaves of it, and the events built from them. -/

namespace Sys2Proof.Machine

open Sys2Proof

/-! ## The store -/

theorem setHeld_eq (l : LogState) (rs : List Record) : ∃ a b e, setHeld l rs = { l with bankA := a, bankB := b, emergency := e } := by
  unfold setHeld
  split
  · exact ⟨_, l.bankB, l.emergency, rfl⟩
  · exact ⟨l.bankA, _, l.emergency, rfl⟩
  · exact ⟨l.bankA, l.bankB, _, rfl⟩

theorem heldRecords_setHeld (l : LogState) (rs : List Record) : heldRecords (setHeld l rs) = rs := by
  unfold setHeld
  split
  all_goals
    next h =>
      unfold heldRecords
      simp only [h]

theorem setHeld_head (l : LogState) (rs : List Record) : (setHeld l rs).head = l.head := by
  obtain ⟨a, b, e, h⟩ := setHeld_eq l rs
  rw [h]

theorem setHeld_lost (l : LogState) (rs : List Record) : (setHeld l rs).lost = l.lost := by
  obtain ⟨a, b, e, h⟩ := setHeld_eq l rs
  rw [h]

theorem setHeld_full (l : LogState) (rs : List Record) : (setHeld l rs).full = l.full := by
  obtain ⟨a, b, e, h⟩ := setHeld_eq l rs
  rw [h]

theorem setHeld_igCodes (l : LogState) (rs : List Record) : (setHeld l rs).igCodes = l.igCodes := by
  obtain ⟨a, b, e, h⟩ := setHeld_eq l rs
  rw [h]

/-- What waits for the writer: submissions, and LOG_CLEAR. -/
def LogState.waits (l : LogState) : List Submission × Option Ticket := (l.submissions, l.clearing)

theorem setHeld_waits (l : LogState) (rs : List Record) : (setHeld l rs).waits = l.waits := by
  obtain ⟨a, b, e, h⟩ := setHeld_eq l rs
  rw [h]
  rfl

/-! ## One record pushed, changed or lost -/

theorem pushRecord_held (t : Nat) (r : Record) (l : LogState) :
    heldRecords (pushRecord t r l) = { r with seq := nextSeq l.head, epoch := l.epoch } :: heldRecords l :=
  heldRecords_setHeld ..

theorem pushRecord_lost (t : Nat) (r : Record) (l : LogState) : (pushRecord t r l).lost = l.lost := setHeld_lost ..

theorem pushRecord_full (t : Nat) (r : Record) (l : LogState) : (pushRecord t r l).full = l.full := setHeld_full ..

theorem pushRecord_waits (t : Nat) (r : Record) (l : LogState) : (pushRecord t r l).waits = l.waits := setHeld_waits ..

theorem changeLast_cons {t : Nat} {f : Record → Record} {l : LogState} {r : Record} {rest : List Record}
    (h : heldRecords l = r :: rest) :
    heldRecords (changeLast t f l) = f r :: rest ∧ (changeLast t f l).head = l.head ∧ (changeLast t f l).lost = l.lost := by
  unfold changeLast
  rw [h]
  exact ⟨heldRecords_setHeld .., setHeld_head .., setHeld_lost ..⟩

theorem changeLast_waits (t : Nat) (f : Record → Record) (l : LogState) : (changeLast t f l).waits = l.waits := by
  unfold changeLast
  split
  · rfl
  · exact setHeld_waits ..

theorem loseEvent_waits (t : Nat) (l : LogState) : (loseEvent t l).waits = l.waits := by
  unfold loseEvent
  dsimp only
  split
  · exact changeLast_waits ..
  · rfl

theorem satInc_eq (w x : Nat) : satInc w x = min (x + 1) (2 ^ w - 1) := by
  unfold satInc
  split <;> omega

/-- After LOG_FULL an event is only counted, in LOST and in LOG_FULL (R401). -/
theorem loseEvent_full {t : Nat} {l : LogState} {y : Record} {rest : List Record} (hfull : l.full)
    (h : heldRecords l = y :: rest) :
    (loseEvent t l).lost = min (l.lost + 1) 0xFFFF_FFFF ∧ (loseEvent t l).head = l.head ∧
      heldRecords (loseEvent t l) = { y with params := params6 (min (l.lost + 1) 0xFFFF_FFFF :: y.params.tail) } :: rest := by
  have hn : satInc 32 l.lost = min (l.lost + 1) 0xFFFF_FFFF := satInc_eq ..
  unfold loseEvent
  rw [hn]
  dsimp only
  rw [if_pos hfull]
  obtain ⟨hheld, hhead, hlost⟩ := changeLast_cons (t := t)
    (f := fun r => { r with params := params6 (min (l.lost + 1) 0xFFFF_FFFF :: r.params.tail) })
    (l := { l with lost := min (l.lost + 1) 0xFFFF_FFFF }) h
  exact ⟨hlost, hhead, hheld⟩

/-! ## A new record -/

theorem commitSeal_waits (key : List Byte) (t wall : Nat) (l : LogState) : (commitSeal key t wall l).waits = l.waits := by
  unfold commitSeal
  split
  · exact pushRecord_waits t _ l
  · rfl

theorem commitNew_waits (key : List Byte) (t wall : Nat) (x : Submission) (n : Nat) (l : LogState) :
    (commitNew key t wall x n l).1.waits = l.waits := by
  unfold commitNew
  extract_lets l1
  have h1 : l1.waits = l.waits := commitSeal_waits ..
  split
  · exact (pushRecord_waits ..).trans h1
  · split
    · exact (pushRecord_waits t _ l1).trans h1
    · exact (loseEvent_waits ..).trans h1

/-- With room, and with no seal due, a submission becomes a record of its own (R395, R404). -/
theorem commitNew_plain {key : List Byte} {t wall : Nat} {x : Submission} {n : Nat} {l : LogState} (hroom : 0 < ordinaryRoom l)
    (hseal : nextSeq l.head % 1024 ≠ 0) : commitNew key t wall x n l = (pushRecord t (recordOf x wall n) l, true) := by
  have hplain : commitSeal key t wall l = l := if_neg (fun h => hseal h.1)
  rw [commitNew, hplain]
  exact if_pos hroom

theorem writeOne_waits (key : List Byte) (t wall : Nat) (x : Submission) (l : LogState) :
    (writeOne key t wall x l).1.waits = l.waits := by
  unfold writeOne
  split
  · exact loseEvent_waits ..
  · split
    · extract_lets w c w1
      have hc : c.1.waits = l.waits := commitNew_waits ..
      split
      · split
        · exact hc
        · exact hc
      · split
        · rfl
        · split
          · exact hc
          · exact hc
    · split
      · split
        · exact changeLast_waits ..
        · exact commitNew_waits ..
      · exact commitNew_waits ..

theorem writeOne_full {key : List Byte} {t wall : Nat} {x : Submission} {l : LogState} (h : l.full) :
    (writeOne key t wall x l).1 = loseEvent t l := by
  rw [writeOne, if_pos h]

theorem writeOne_merge {key : List Byte} {t wall : Nat} {x : Submission} {l : LogState} {y : Record} {rest : List Record}
    (hfull : ¬l.full) (hig : ¬l.ig) (h : heldRecords l = y :: rest) (hmerge : mergesInto x y) (hroom : 0 < ordinaryRoom l) :
    (writeOne key t wall x l).1 =
      changeLast t (fun y => { y with repeats := y.repeats + 1, lastRepeat := x.mono % 4294967296 }) l := by
  rw [writeOne, if_neg hfull, if_neg hig, h]
  exact congrArg Prod.fst (if_pos ⟨hmerge, hroom⟩)

theorem writeOne_new {key : List Byte} {t wall : Nat} {x : Submission} {l : LogState} (hfull : ¬l.full) (hig : ¬l.ig)
    (hnew : ∀ z ∈ (heldRecords l).head?, ¬mergesInto x z) (hroom : 0 < ordinaryRoom l) (hseal : nextSeq l.head % 1024 ≠ 0) :
    writeOne key t wall x l = (pushRecord t (recordOf x wall 0) l, nextSeq l.head) := by
  rw [writeOne, if_neg hfull, if_neg hig]
  split
  next r rest h =>
    rw [if_neg (fun hm => hnew r (by rw [h]; exact rfl) hm.1), commitNew_plain hroom hseal]
    rfl
  next h =>
    rw [commitNew_plain hroom hseal]
    rfl

/-- A record that no mode limits is committed as a new one whatever the mode (R399). -/
theorem writeOne_never {key : List Byte} {t wall : Nat} {x : Submission} {l : LogState} (hfull : ¬l.full)
    (hnever : neverLimited x) (hempty : heldRecords l = []) (hroom : 0 < ordinaryRoom l) (hseal : nextSeq l.head % 1024 ≠ 0) :
    ∃ n b, (writeOne key t wall x l).1 = { pushRecord t (recordOf x wall n) l with igCodes := b } ∧
      (writeOne key t wall x l).2 = nextSeq l.head := by
  by_cases hig : l.ig
  · rw [writeOne, if_neg hfull, if_pos hig]
    extract_lets w c w1
    have hc : c = (pushRecord t (recordOf x wall w.suppressed) l, true) := commitNew_plain hroom hseal
    have hw : w1 = pushRecord t (recordOf x wall w.suppressed) l := congrArg Prod.fst hc
    rw [if_pos hnever, hc, if_pos rfl, hw]
    exact ⟨w.suppressed, _, rfl, rfl⟩
  · rw [writeOne_new hfull hig (by simp [hempty]) hroom hseal]
    exact ⟨0, l.igCodes, by
      unfold pushRecord noteChange
      rw [← setHeld_igCodes l], rfl⟩

/-! ## The events of the writer -/

theorem commitOne_log (s : State) (x : Submission) : (commitOne s x).log = (writeSubmission x s).1.log := by
  unfold commitOne
  dsimp only
  split
  · exact finishDeferred_only (Only.refl 32770 _) rfl .log rfl
  · rfl

theorem recordCommit_log {s : State} {x : Submission} {rest : List Submission} (hwait : ¬s.log.mediaWait)
    (h : s.log.submissions = x :: rest) : (recordCommit s).log =
      (writeOne s.sys.keys.log (now s) (wallAt s x.mono) x { s.log with submissions := rest }).1 := by
  rw [recordCommit, if_neg hwait, h]
  exact commitOne_log ..

theorem recordCommit_runs {s : State} {x : Submission} {rest : List Submission} (y : Record) (l : List Record)
    (hwait : ¬s.log.mediaWait) (h : s.log.submissions = x :: rest) :
    Runs .recordCommit s [.host, .log, .bell] fun t => t.log.submissions = rest ∧
      (s.log.full → heldRecords s.log = y :: l → t.log.lost = min (s.log.lost + 1) 0xFFFF_FFFF ∧ t.log.head = s.log.head ∧
        heldRecords t.log = { y with params := params6 (min (s.log.lost + 1) 0xFFFF_FFFF :: y.params.tail) } :: l) ∧
      (¬s.log.full → ¬s.log.ig → heldRecords s.log = y :: l → mergesInto x y → 0 < ordinaryRoom s.log →
        heldRecords t.log = { y with repeats := y.repeats + 1, lastRepeat := x.mono % 4294967296 } :: l ∧
        t.log.head = s.log.head) ∧
      (¬s.log.full → ¬s.log.ig → (∀ z ∈ (heldRecords s.log).head?, ¬mergesInto x z) → 0 < ordinaryRoom s.log →
        nextSeq s.log.head % 1024 ≠ 0 → t.log.head = nextSeq s.log.head ∧ t.log.lost = s.log.lost ∧
        heldRecords t.log =
          { recordOf x (wallAt s x.mono) 0 with seq := nextSeq s.log.head, epoch := s.log.epoch } :: heldRecords s.log) := by
  refine runs_of_only (t := recordCommit s) rfl execRecordCommit_only (by decide) ?_
  rw [recordCommit_log hwait h]
  refine ⟨congrArg Prod.fst (writeOne_waits ..), fun hfull hheld => ?_, fun hfull hig hheld hmerge hroom => ?_,
    fun hfull hig hnew hroom hseal => ?_⟩
  · rw [writeOne_full (l := { s.log with submissions := rest }) hfull]
    exact loseEvent_full (l := { s.log with submissions := rest }) hfull hheld
  · rw [writeOne_merge (l := { s.log with submissions := rest }) hfull hig hheld hmerge hroom]
    obtain ⟨hrecords, hhead, -⟩ := changeLast_cons (t := now s)
      (f := fun y => { y with repeats := y.repeats + 1, lastRepeat := x.mono % 4294967296 })
      (l := { s.log with submissions := rest }) hheld
    exact ⟨hrecords, hhead⟩
  · rw [writeOne_new (l := { s.log with submissions := rest }) hfull hig hnew hroom hseal]
    exact ⟨rfl, pushRecord_lost .., pushRecord_held ..⟩

theorem mirrorWrite_eq {s : State} {q : Nat} {qs : List Nat} {y : Record} (c : Bool) (h : s.log.unmirrored = q :: qs)
    (hfind : findRecord (servedRecords s.log) q = some y) : mirrorWrite true c s =
      (if q = s.log.head then advanceTo (s.log.lastChange + tcPerSecond) s else s).modLog (mirrorRecord y) := by
  have hlog : (if q = s.log.head then advanceTo (s.log.lastChange + tcPerSecond) s else s).log = s.log := by
    split
    · exact advanceTo_keeps_log
    · rfl
  rw [mirrorWrite, h]
  dsimp only
  rw [hlog, hfind]
  exact if_pos rfl

theorem mirrorWrite_runs {s : State} {q : Nat} {qs : List Nat} {y : Record} (c : Bool) (h : s.log.unmirrored = q :: qs)
    (hfind : findRecord (servedRecords s.log) q = some y) :
    Runs (.mirrorWrite true c) s [.air, .fault, .log] fun t => t.log.mirror.head? = some y ∧ ¬t.log.mirrorFault ∧
      t.log.unmirrored = without (q :: qs) q ∧ t.log.head = s.log.head ∧
      (q = s.log.head → waited s t (s.log.lastChange + tcPerSecond)) := by
  refine runs_of_only (t := mirrorWrite true c s) rfl execMirrorWrite_only (by decide) ?_
  have hseq : y.seq = q := by simpa using List.find?_some hfind
  rw [mirrorWrite_eq c h hfind]
  have hwait := advanceTo_waited (s.log.lastChange + tcPerSecond) s
  have hlog : (advanceTo (s.log.lastChange + tcPerSecond) s).log = s.log := advanceTo_keeps_log
  generalize advanceTo (s.log.lastChange + tcPerSecond) s = v at *
  generalize s.log.lastChange + tcPerSecond = x at *
  have hv : (if q = s.log.head then v else s).log = s.log := by
    split
    · exact hlog
    · rfl
  rw [modLog_log, hv]
  refine ⟨rfl, Bool.false_ne_true, by simp only [mirrorRecord, hseq, h], rfl, fun hnew => ?_⟩
  rw [if_pos hnew]
  exact hwait

/-! ## Banks and their tests -/

/-- Completing the mirror changes the mirror, what waits for it and its fault, nothing else. -/
theorem mirrorAll_eq (l : LogState) : ∃ m u b, mirrorAll l = { l with mirror := m, unmirrored := u, mirrorFault := b } := by
  have hfold : ∀ (qs : List Nat) (v : LogState), (∃ m u b, v = { l with mirror := m, unmirrored := u, mirrorFault := b }) →
      ∃ m u b, qs.foldl mirrorStep v = { l with mirror := m, unmirrored := u, mirrorFault := b } := by
    intro qs
    induction qs with
    | nil => exact fun v hv => hv
    | cons q qs ih =>
      rintro v ⟨m, u, b, rfl⟩
      refine ih _ ?_
      unfold mirrorStep
      split
      · exact ⟨_, _, _, rfl⟩
      · exact ⟨_, _, _, rfl⟩
  exact hfold l.unmirrored l ⟨l.mirror, l.unmirrored, l.mirrorFault, rfl⟩

/-- The active bank A fails: the spare takes over, or no bank is active, and LOG_MEDIA is awaited (R405, R406). -/
theorem failBank_log {s : State} (h : s.log.active = some .bankA) : (failBank .bankA s).log.corrected = s.log.corrected ∧
    (failBank .bankA s).log.bankA.failed ∧ (failBank .bankA s).log.mediaWait ∧ (failBank .bankA s).log.goodSeq = s.log.head ∧
    (failBank .bankA s).log.active = (if s.log.bankB.failed then none else some .bankB) := by
  unfold failBank
  rw [if_pos h]
  extract_lets good spare l1 l2
  have hspare : spare = !s.log.bankB.failed := by
    unfold spare spareOk
    rw [h]
    rfl
  obtain ⟨m, u, b, hmirror⟩ := mirrorAll_eq s.log
  have h1 : l1 = markFailed .bankA { s.log with mirror := m, unmirrored := u, mirrorFault := b } := by
    unfold l1
    rw [hmirror]
  rw [raiseFault_keeps_log]
  refine ⟨?_, ?_, rfl, rfl, ?_⟩
  · show l1.corrected = _
    rw [h1]
    rfl
  · show l1.bankA.failed = true
    rw [h1]
    rfl
  · show (if spare = true then some (otherBank .bankA) else none) = _
    rw [hspare]
    cases s.log.bankB.failed <;> rfl

theorem logBankScrub_runs {s : State} (n : Nat) (a : Bool) (hactive : s.log.active = some .bankA)
    (hgood : ¬s.log.bankA.failed) :
    Runs (.logBankScrub n a false) s [.fault, .log] fun t => t.log.corrected = min 65535 (s.log.corrected + n) ∧
      (¬a → t.log.active = some .bankA ∧ heldRecords t.log = heldRecords s.log) ∧
      (a → t.log.bankA.failed ∧ t.log.mediaWait ∧ t.log.goodSeq = s.log.head ∧
        t.log.active = (if s.log.bankB.failed then none else some .bankB)) := by
  refine runs_of_only (t := logBankScrub n a false s) rfl execLogBankScrub_only (by decide) ?_
  have heq : logBankScrub n a false s = (if a = true
      then failBank .bankA (s.modLog (fun l => { l with corrected := min 65535 (l.corrected + n) }))
      else s.modLog (fun l => { l with corrected := min 65535 (l.corrected + n) })) := by
    rw [logBankScrub, if_neg (fun h => Bool.false_ne_true h.1)]
    by_cases ha : a = true
    · rw [if_pos ha]
      exact if_pos ⟨ha, by simpa using hgood⟩
    · rw [if_neg ha]
      exact if_neg (fun h => ha h.1)
  rw [heq]
  by_cases ha : a = true
  · obtain ⟨hcorrected, hfailed, hwait, hseq, hnext⟩ :=
      failBank_log (s := s.modLog (fun l => { l with corrected := min 65535 (l.corrected + n) })) hactive
    rw [if_pos ha]
    exact ⟨hcorrected, fun h => absurd ha h, fun _ => ⟨hfailed, hwait, hseq, hnext⟩⟩
  · rw [if_neg ha]
    exact ⟨rfl, fun _ => ⟨hactive, rfl⟩, fun h => absurd h ha⟩

/-- A completion event does not depend on the Logbook. -/
theorem complete_host_modLog (k : Ticket) (st : Status) (d : Nat) (f : LogState → LogState) (s : State) :
    (complete k st d (s.modLog f)).host = (complete k st d s).host := rfl

theorem complete_host_congr {k : Ticket} {st : Status} {d : Nat} {s t : State} (hair : t.air = s.air) (hhost : t.host = s.host) :
    (complete k st d t).host = (complete k st d s).host := by
  cases s
  cases t
  dsimp only at hair hhost
  subst hair hhost
  rfl

/-- Nothing is submitted: the writer has nothing to drain. -/
theorem drainSubmissions_nil {s : State} (h : s.log.submissions = []) : drainSubmissions s = s := by
  unfold drainSubmissions
  rw [h]
  split
  · rfl
  · show s.modLog (fun l => { l with submissions := [] }) = s
    rw [← h]
    rfl

/-- LOG_CLEARED is the first record of the emptied store (R409). -/
theorem writeOne_cleared (key : List Byte) (t wall : Nat) (x : Submission) (l : LogState) (hcode : x.code = 0x0102)
    (hfull : ¬l.full) (hempty : heldRecords l = []) (hseal : nextSeq l.head % 1024 ≠ 0) :
    (writeOne key t wall x l).2 = nextSeq l.head ∧ (writeOne key t wall x l).1.lost = l.lost ∧
      ¬(writeOne key t wall x l).1.full ∧
      (heldRecords (writeOne key t wall x l).1).map (fun z => (z.code, z.seq)) = [(0x0102, nextSeq l.head)] := by
  have hroom : 0 < ordinaryRoom l := by
    unfold ordinaryRoom
    split
    · simp [hempty]
    next h =>
      have hnone : l.emergency = [] := by
        rw [heldRecords, h] at hempty
        exact hempty
      simp [hnone]
  obtain ⟨n, b, hlog, hseq⟩ := writeOne_never (key := key) (t := t) (wall := wall) hfull (x := x)
    (by simp [neverLimited, hcode]) hempty hroom hseal
  have hheld : heldRecords ({ pushRecord t (recordOf x wall n) l with igCodes := b } : LogState) =
      heldRecords (pushRecord t (recordOf x wall n) l) := rfl
  rw [hlog, hheld, pushRecord_held, hempty]
  refine ⟨hseq, pushRecord_lost t (recordOf x wall n) l, ?_, ?_⟩
  · rw [show ({ pushRecord t (recordOf x wall n) l with igCodes := b } : LogState).full = l.full from pushRecord_full t _ l]
    exact hfull
  · simp [recordOf, hcode]

/-- The store as LOG_CLEAR leaves it before its record (R409). -/
def clearedStore (l : LogState) : LogState := { setHeld (mirrorAll l) [] with lost := 0, full := false, clearing := none }

theorem clearedStore_facts (l : LogState) : heldRecords (clearedStore l) = [] ∧ (clearedStore l).head = l.head ∧
    (clearedStore l).lost = 0 ∧ ¬(clearedStore l).full ∧ (clearedStore l).clearing = none := by
  obtain ⟨m, u, b, h⟩ := mirrorAll_eq l
  refine ⟨heldRecords_setHeld .., (setHeld_head ..).trans ?_, rfl, Bool.false_ne_true, rfl⟩
  rw [h]

/-- The submission of LOG_CLEARED (R409). -/
def clearedNote (k : Ticket) (s : State) : Submission :=
  { code := 0x0102, source := sourceIndex 10 0, mono := now s
    params := params6 [((heldRecords s.log).getLast?.map (·.seq)).getD 0, ((heldRecords s.log).head?.map (·.seq)).getD 0, k.session] }

theorem logClearComplete_eq {s : State} {k : Ticket} (d : Bool) (h : s.log.clearing = some k) (hnone : s.log.submissions = []) :
    logClearComplete d s = (if d = true
      then complete k .ok (writeSubmission (clearedNote k s) (s.modLog clearedStore)).2
        (writeSubmission (clearedNote k s) (s.modLog clearedStore)).1
      else complete k .eIntegrity 0 (s.modLog (fun l => { l with clearing := none }))) := by
  rw [logClearComplete, h]
  dsimp only
  rw [drainSubmissions_nil hnone]
  rfl

theorem logClearComplete_runs {s : State} {k : Ticket} (d : Bool) (h : s.log.clearing = some k) (hnone : s.log.submissions = []) :
    Runs (.logClearComplete d) s [.host, .log, .bell] fun t => t.log.clearing = none ∧
      (¬d → heldRecords t.log = heldRecords s.log ∧ t.log.lost = s.log.lost ∧ t.host = (complete k .eIntegrity 0 s).host) ∧
      (d → nextSeq s.log.head % 1024 ≠ 0 → t.log.lost = 0 ∧ ¬t.log.full ∧
        (heldRecords t.log).map (fun z => (z.code, z.seq)) = [(0x0102, nextSeq s.log.head)] ∧
        t.host = (complete k .ok (nextSeq s.log.head) s).host) := by
  refine runs_of_only (t := logClearComplete d s) rfl execLogClearComplete_only (by decide) ?_
  rw [logClearComplete_eq d h hnone]
  by_cases hd : d = true
  · rw [if_pos hd, complete_keeps_log]
    obtain ⟨hempty, hhead, hlost, hfull, hclearing⟩ := clearedStore_facts s.log
    have hlog : (writeSubmission (clearedNote k s) (s.modLog clearedStore)).1.log =
      (writeOne s.sys.keys.log (now s) (wallAt s (now s)) (clearedNote k s) (clearedStore s.log)).1 := rfl
    have hseq : (writeSubmission (clearedNote k s) (s.modLog clearedStore)).2 =
      (writeOne s.sys.keys.log (now s) (wallAt s (now s)) (clearedNote k s) (clearedStore s.log)).2 := rfl
    have hhost := fun z => complete_host_congr (k := k) (st := .ok) (d := z)
      (t := (writeSubmission (clearedNote k s) (s.modLog clearedStore)).1) (s := s) rfl rfl
    have hwaits := writeOne_waits s.sys.keys.log (now s) (wallAt s (now s)) (clearedNote k s) (clearedStore s.log)
    rw [hhost, hseq, hlog]
    refine ⟨(congrArg Prod.snd hwaits).trans hclearing, fun h => absurd hd h, fun _ hseal => ?_⟩
    obtain ⟨hnew, hsame, hroom, hheld⟩ := writeOne_cleared s.sys.keys.log (now s) (wallAt s (now s)) (clearedNote k s)
      (clearedStore s.log) rfl hfull hempty (by rw [hhead]; exact hseal)
    rw [hnew, hheld, hsame, hlost, hhead]
    exact ⟨rfl, hroom, rfl, rfl⟩
  · rw [if_neg hd, complete_keeps_log, complete_host_modLog]
    exact ⟨rfl, fun _ => ⟨rfl, rfl, rfl⟩, fun h => absurd h hd⟩

/-- The oldest test is done, and the tested banks have passed or failed (R405). -/
def tested (t : Nat) (passA passB : Bool) (ms : List (Nat × Ticket)) (l : LogState) : LogState :=
  let l1 := { l with mediaReset := ms }
  let l2 := if (resetTargets t).contains .bankA then (if passA then passBank .bankA else markFailed .bankA) l1 else l1
  if (resetTargets t).contains .bankB then (if passB then passBank .bankB else markFailed .bankB) l2 else l2

theorem logMediaResetComplete_parts {s : State} {tgt : Nat} {k : Ticket} {ms : List (Nat × Ticket)} (a b : Bool)
    (h : s.log.mediaReset = (tgt, k) :: ms) :
    (logMediaResetComplete a b s).log = tested tgt a b ms s.log ∧ (logMediaResetComplete a b s).host =
      (complete k (if (!(resetTargets tgt).contains .bankA || a) && (!(resetTargets tgt).contains .bankB || b) then .ok
        else .eIntegrity) 0 s).host := by
  unfold logMediaResetComplete
  rw [h]
  dsimp -zeta only
  extract_lets targets okA okB s1 s2 s3 s4
  have hparts : s3.log = tested tgt a b ms s.log ∧ s3.air = s.air ∧ s3.host = s.host := by
    unfold s3 s2
    refine ⟨?_, ?_, ?_⟩
    · simp only [apply_ite State.log, modLog_log]
      rfl
    · split <;> split <;> rfl
    · split <;> split <;> rfl
  have hkeep : s4.log = s3.log ∧ s4.air = s3.air ∧ s4.host = s3.host := by
    unfold s4
    split
    · exact ⟨endFault_keeps_log, endFault_keeps_air, endFault_keeps_host⟩
    · exact ⟨rfl, rfl, rfl⟩
  obtain ⟨hlog, hair, hhost⟩ := hparts
  rw [complete_keeps_log]
  exact ⟨hkeep.1.trans hlog, complete_host_congr (hkeep.2.1.trans hair) (hkeep.2.2.trans hhost)⟩

theorem passBank_mediaReset (b : BankSel) (l : LogState) : (passBank b l).mediaReset = l.mediaReset := by
  unfold passBank
  cases b <;> dsimp only <;> split <;> rfl

theorem markFailed_mediaReset (b : BankSel) (l : LogState) : (markFailed b l).mediaReset = l.mediaReset := by
  cases b <;> rfl

theorem tested_mediaReset (t : Nat) (a b : Bool) (ms : List (Nat × Ticket)) (l : LogState) :
    (tested t a b ms l).mediaReset = ms := by
  unfold tested
  extract_lets l1 l2
  have h2 : l2.mediaReset = ms := by
    unfold l2
    split
    · split
      · exact passBank_mediaReset ..
      · exact markFailed_mediaReset ..
    · rfl
  split
  · split
    · exact (passBank_mediaReset ..).trans h2
    · exact (markFailed_mediaReset ..).trans h2
  · exact h2

/-- A test of bank A alone (R405). -/
theorem tested_bankA (a b : Bool) (ms : List (Nat × Ticket)) (l : LogState) :
    (tested 0 a b ms l).bankA.failed = !a ∧ (tested 0 a b ms l).bankB = l.bankB ∧
      (tested 0 a b ms l).active = (if a ∧ l.active = none then some .bankA else l.active) := by
  have heq : tested 0 a b ms l = (if a then passBank .bankA else markFailed .bankA) { l with mediaReset := ms } := rfl
  rw [heq]
  cases a with
  | false => exact ⟨rfl, rfl, rfl⟩
  | true => cases l.active <;> simp [passBank]

theorem logMediaResetComplete_runs {s : State} {tgt : Nat} {k : Ticket} {ms : List (Nat × Ticket)} (a b : Bool)
    (h : s.log.mediaReset = (tgt, k) :: ms) :
    Runs (.logMediaResetComplete a b) s [.host, .fault, .log] fun t => t.log.mediaReset = ms ∧ (tgt = 0 →
      t.log.bankA.failed = !a ∧ t.log.bankB = s.log.bankB ∧
      t.log.active = (if a ∧ s.log.active = none then some .bankA else s.log.active) ∧
      t.host = (complete k (if a then .ok else .eIntegrity) 0 s).host) := by
  refine runs_of_only (t := logMediaResetComplete a b s) rfl execLogMediaResetComplete_only (by decide) ?_
  obtain ⟨hlog, hhost⟩ := logMediaResetComplete_parts a b h
  rw [hlog, hhost]
  refine ⟨tested_mediaReset .., fun hzero => ?_⟩
  subst hzero
  obtain ⟨hA, hB, hactive⟩ := tested_bankA a b ms s.log
  exact ⟨hA, hB, hactive, by cases a <;> rfl⟩

theorem logVerifyComplete_runs {s : State} {first last store : Nat} {k : Ticket} {vs : List (Nat × Nat × Nat × Ticket)}
    (h : s.log.verifying = (first, last, store, k) :: vs) :
    Runs .logVerifyComplete s [.host, .log] fun t => t.log = { s.log with verifying := vs } ∧
      t.host = (match firstBadSeal s.sys.keys.log (verifyStore s.log store) first last with
        | none => complete k .ok 0 s
        | some z => complete k .eIntegrity z s).host := by
  refine runs_of_only (t := logVerifyComplete s) rfl execLogVerifyComplete_only (by decide) ?_
  unfold logVerifyComplete
  rw [h]
  dsimp only
  cases firstBadSeal s.sys.keys.log (verifyStore s.log store) first last with
  | none => exact ⟨complete_keeps_log, rfl⟩
  | some z => exact ⟨complete_keeps_log, rfl⟩

/-- Settles O51: the writer's cases are lemmas about the store; the events only choose between them. -/
theorem logbookWriterCommitsAndRecovers : Obligations.LogbookWriterCommitsAndRecovers := by
  intro s x rest y l q qs k n tgt first last store a b c d vs ms
  refine ⟨fun h => ?_, recordCommit_runs y l, mirrorWrite_runs c, fun h => ?_, logBankScrub_runs n a, logClearComplete_runs d,
    logMediaResetComplete_runs a b, logVerifyComplete_runs⟩
  · refine congrArg Host.Outcome.next ?_
    unfold recordCommit
    rcases h with h | h
    · rw [if_pos h]
    · rw [h]
      exact ite_self _
  · exact congrArg Host.Outcome.next (by rw [mirrorWrite, h])

end Sys2Proof.Machine
end

section
set_option Elab.async false
/-! What reactions and releases leave of the collector's books, and the collector cycle: what a raise and an end do to the table
and to the windows (R365–R386). -/

namespace Sys2Proof.Machine

open Sys2Proof

/-! ## Back-offs and gains leave the books alone -/

theorem shareBackoff_others (s : State) : (shareBackoff s).fault.others = s.fault.others := by
  unfold shareBackoff
  extract_lets s1
  rw [refreshGains_others, foldl_keeps State.fault (fun _ _ => writeBackoff_only (Only.refl 256 _) rfl .fault rfl)]
  rfl

theorem setBackoff_others (x : Backoff) (s : State) : (setBackoff x s).fault.others = s.fault.others :=
  (shareBackoff_others _).trans rfl

theorem dropBackoffs_others (f : Backoff → Bool) (s : State) : (dropBackoffs f s).fault.others = s.fault.others :=
  (shareBackoff_others _).trans rfl

theorem applyThermal_others (s : State) : (applyThermal s).fault.others = s.fault.others :=
  (shareBackoff_others _).trans rfl

theorem donorMute_others (n : Nat) (on : Bool) (s : State) : (donorMute n on s).fault.others = s.fault.others :=
  (refreshGains_others _).trans rfl

theorem reinitialise_others (d : Dir) (n : Nat) (s : State) : (reinitialise d n s).fault.others = s.fault.others := by
  unfold reinitialise
  split
  · rw [refreshGains_others, modBand_fault, applyChange_others]
  · rfl

theorem donorOverloadAction_others (n : Nat) (s : State) : (donorOverloadAction n s).1.fault.others = s.fault.others := by
  unfold donorOverloadAction
  extract_lets c a s1
  split
  · rfl
  · split
    · exact foldl_keeps (fun t => t.fault.others) (fun _ _ => setBackoff_others ..) _ s1
    · exact congrArg FaultState.others (requestAtten_only (Only.refl 96 s1) rfl .fault rfl)

/-- A change that is made on a condition keeps what it keeps. -/
theorem ite_keeps {β : Type} (g : State → β) {p : Prop} [Decidable p] {a s : State} (h : g a = g s) :
    g (if p then a else s) = g s := by
  by_cases hp : p
  · rw [if_pos hp, h]
  · rw [if_neg hp]

/-- What an own action leaves alone: monotonic time, and the collector beyond its conditions. -/
def State.pace (s : State) : Nat × FaultState := (s.air.mono, s.fault.others)

theorem pace_of_parts {s t : State} (hair : t.air = s.air) (hfault : t.fault.others = s.fault.others) : t.pace = s.pace :=
  congrArg₂ Prod.mk (congrArg AirState.mono hair) hfault

theorem pace_of_fault {s t : State} (hair : t.air = s.air) (hfault : t.fault = s.fault) : t.pace = s.pace :=
  pace_of_parts hair (congrArg FaultState.others hfault)

theorem setBackoff_pace (x : Backoff) (s : State) : (setBackoff x s).pace = s.pace :=
  pace_of_parts (setBackoff_only (Only.refl 452 s) rfl .air rfl) (setBackoff_others x s)

theorem applyThermal_pace (s : State) : (applyThermal s).pace = s.pace :=
  pace_of_parts (applyThermal_only (Only.refl 452 s) rfl .air rfl) (applyThermal_others s)

theorem failSource_now (c : Nat) (s : State) : (failSource c s).air.mono = s.air.mono := by
  by_cases h : (s.source c).state = .usable ∨ (s.source c).state = .qualifying
  · exact (failSource_source h).2.1
  · exact congrArg (fun v : State => v.air.mono) (if_neg h)

theorem followFlock_now (s : State) : (followFlock s).air.mono = s.air.mono := by
  unfold followFlock
  split
  · split
    · rfl
    · exact failSource_now ..
  · exact failSource_now ..

theorem portDown_now (p : Nat) (s : State) : (portDown p s).air.mono = s.air.mono := by
  unfold portDown
  extract_lets s1 s2 s3
  have h1 : s1.air = s.air := rfl
  have h2 : s2.air = s.air := by
    unfold s2
    rw [failTimePort_only (Only.refl 4096 _) rfl .air rfl]
    split
    · exact h1
    · exact h1
  have h3 : s3.air.mono = s.air.mono := by
    unfold s3
    split
    · rw [losePrimary, followFlock_now, leavePrimary_only (Only.refl 266240 _) rfl .air rfl, h2]
    · rw [chooseAlternate_only (Only.refl 4096 _) rfl .air rfl, h2]
  split
  · rw [followFlock_now, h3]
  · exact h3

theorem reviewPort_pace (p : Nat) (was : Bool) (s : State) : (reviewPort p was s).pace = s.pace := by
  refine congrArg₂ Prod.mk ?_ (congrArg FaultState.others (reviewPort_only (Only.refl 266241 s) rfl .fault rfl))
  unfold reviewPort
  split
  · exact portDown_now ..
  · rfl

theorem retrainLane_pace (l : Nat) (s : State) : (retrainLane l s).pace = s.pace := by
  unfold retrainLane
  extract_lets p was
  rw [reviewPort_pace]
  exact pace_of_fault (withdrawLane_only (Only.refl 274432 _) rfl .air rfl) (withdrawLane_only (Only.refl 274432 _) rfl .fault rfl)

theorem doOwnSystem_pace (cls : Nat) (u : UnitId) (s : State) : (doOwnSystem cls u s).1.pace = s.pace := by
  unfold doOwnSystem
  split
  · dsimp only
    exact ite_keeps State.pace ((setBackoff_pace ..).trans (pace_of_fault rfl rfl))
  · dsimp only
    exact applyThermal_pace s
  · dsimp only
    split <;> rfl
  · dsimp only
    exact ite_keeps State.pace (retrainLane_pace ..)
  · rfl
  · dsimp only
    exact pace_of_fault (placementTrigger_only (Only.refl 8192 s) rfl .air rfl)
      (placementTrigger_only (Only.refl 8192 s) rfl .fault rfl)
  · dsimp only
    exact pace_of_fault (stopDrain_only (Only.refl 16384 s) rfl .air rfl) (stopDrain_only (Only.refl 16384 s) rfl .fault rfl)
  · dsimp only
    exact pace_of_fault (bellFaultAction_only (Only.refl 32800 s) rfl .air rfl)
      (bellFaultAction_only (Only.refl 32800 s) rfl .fault rfl)
  all_goals rfl

theorem modBand_pace (d : Dir) (n : Nat) (f : BandPath → BandPath) (s : State) : (modBand d n f s).pace = s.pace :=
  pace_of_fault (modBand_only (Only.refl 64 s) rfl .air rfl) (modBand_fault ..)

theorem doOwn_pace (cls : Nat) (u : UnitId) (s : State) : (doOwn cls u s).1.pace = s.pace := by
  unfold doOwn
  extract_lets band s1 t d s2
  split
  · dsimp only
    exact ite_keeps State.pace (setBackoff_pace ..)
  · dsimp only
    exact pace_of_parts (reinitialise_only (Only.refl 452 s) rfl .air rfl) (reinitialise_others ..)
  · have h1 : s1.pace = s.pace := modBand_pace ..
    clear_value s1
    dsimp only
    rw [ite_keeps State.pace (setBackoff_pace ..), h1]
  · have h2 : s2.pace = s.pace := by
      unfold s2
      split <;> rfl
    clear_value s2
    dsimp only
    rw [ite_keeps State.pace (setBackoff_pace ..), h2]
  · dsimp only
    exact setBackoff_pace ..
  · rfl
  · dsimp only
    exact pace_of_fault (noiseBackoff_only (Only.refl 256 s) rfl .air rfl) (noiseBackoff_only (Only.refl 256 s) rfl .fault rfl)
  · exact pace_of_parts (donorOverloadAction_only (Only.refl 1508 s) rfl .air rfl) (donorOverloadAction_others ..)
  · exact doOwnSystem_pace ..

theorem undoOwn_others (cls : Nat) (u : UnitId) (s : State) : (undoOwn cls u s).fault.others = s.fault.others := by
  unfold undoOwn
  extract_lets drop band
  have hdrop (c : BackoffCause) (v : UnitId) : (drop c v).fault.others = s.fault.others := dropBackoffs_others ..
  split
  · exact hdrop ..
  · exact (congrArg FaultState.others (modBand_fault ..)).trans (hdrop ..)
  · exact hdrop ..
  · rfl
  · exact congrArg FaultState.others (noiseBackoff_only (Only.refl 256 s) rfl .fault rfl)
  · exact donorMute_others ..
  · exact dropBackoffs_others ..
  · exact applyThermal_others s
  · exact ite_keeps (fun t => t.fault.others) rfl
  · split
    · exact ite_keeps (fun t => t.fault.others) (hdrop ..)
    · rfl

/-! ## Pens leave the books alone -/

theorem refreshGains_pace (s : State) : (refreshGains s).pace = s.pace :=
  pace_of_parts refreshGains_keeps_air (refreshGains_others s)

theorem penEffect_pace (u : UnitId) (s : State) : (penEffect u s).pace = s.pace := by
  have hshut (n : Nat) (x : State) : (shutCassette n x).pace = x.pace :=
    pace_of_fault (shutCassette_only (Only.refl 2050 x) rfl .air rfl) (shutCassette_only (Only.refl 2050 x) rfl .fault rfl)
  have hall : ((List.range 8).foldl (fun acc n => shutCassette n acc) s).pace = s.pace :=
    foldl_keeps (f := fun acc n => shutCassette n acc) State.pace (fun _ _ => hshut ..) _ _
  unfold penEffect
  rw [refreshGains_pace]
  split
  · exact hshut ..
  · exact (reviewPort_pace ..).trans (pace_of_fault (withdrawLane_only (Only.refl 274432 _) rfl .air rfl)
      (withdrawLane_only (Only.refl 274432 _) rfl .fault rfl))
  · exact ite_keeps State.pace hall
  · exact ite_keeps State.pace hall
  · rfl

/-- What a pen leaves alone: monotonic time, and the books of the collector. -/
def State.record (s : State) : Nat × (Option (Nat × Nat) × List Window × Nat × List Reaction) × List FaultEntry × List OwnAction :=
  (s.air.mono, s.fault.books)

theorem record_of_pace {s t : State} (h : t.pace = s.pace) : t.record = s.record :=
  congrArg (fun p : Nat × FaultState => (p.1, p.2.books)) h

theorem penUnit_record (r : PenReason) (s : State) (u : UnitId) : (penUnit r s u).record = s.record := by
  unfold penUnit
  split
  · rfl
  · dsimp only
    split
    · rfl
    · exact (record_of_pace (penEffect_pace ..)).trans rfl

theorem unpenned_books (s : State) (u : UnitId) : (unpenned s u).fault.books = s.fault.books := by
  unfold unpenned
  split
  · exact (congrArg FaultState.books (choosePath_only (Only.refl 266240 _) rfl .fault rfl)).trans rfl
  · split
    · exact foldl_keeps (fun t => t.fault.books) (fun _ _ => (keepsRank_enterPaddock ..).books) _ s
    · exact ite_keeps (fun t => t.fault.books) (keepsRank_enterPaddock ..).books

theorem dropPens_books (f : Pen → Bool) (s : State) : (dropPens f s).fault.books = s.fault.books := by
  unfold dropPens
  extract_lets units s1
  split
  · rfl
  · exact (books_of_others (refreshGains_others _)).trans
      (foldl_keeps (fun t => t.fault.books) (fun _ _ => unpenned_books ..) _ s1)

/-! ## Releases keep the course and never lengthen the table -/

/-- A release keeps HALT, the windows, the count of raises and the reactions, and enters nothing. -/
structure Releases (s t : State) : Prop where
  course : t.fault.course = s.fault.course
  table : t.fault.entries.length ≤ s.fault.entries.length

theorem Releases.refl (s : State) : Releases s s := ⟨rfl, Nat.le_refl _⟩

theorem Releases.trans {s t u : State} (h : Releases s t) (k : Releases t u) : Releases s u :=
  ⟨k.course.trans h.course, k.table.trans h.table⟩

theorem Releases.of_books {s t : State} (h : t.fault.books = s.fault.books) : Releases s t :=
  ⟨congrArg Prod.fst h, Nat.le_of_eq (congrArg (fun x => x.2.1.length) h :)⟩

theorem releases_modEntry (h : Nat) (g : FaultEntry → FaultEntry) (s : State) : Releases s (modEntry h g s) :=
  ⟨rfl, Nat.le_of_eq (List.length_map _)⟩

theorem undoAtten_fault (s : State) (a : OwnAction) : (undoAtten s a).fault = s.fault :=
  undoAtten_only (Only.refl 1120 s) rfl .fault rfl

theorem releases_dropActions (f : OwnAction → Bool) (s : State) : Releases s (dropActions f s) := by
  unfold dropActions
  extract_lets gone rest s1 pairs
  have h1 : s1.fault = { s.fault with actions := rest } := foldl_keeps State.fault undoAtten_fault _ _
  have h2 : Releases s s1 := ⟨by rw [h1]; rfl, by rw [h1]⟩
  exact h2.trans (.of_books (foldl_keeps (fun t => t.fault.books) (fun _ _ => books_of_others (undoOwn_others ..)) _ s1))

theorem releases_releaseHandle (h : Nat) (s : State) : Releases s (releaseHandle h s) :=
  ((releases_modEntry ..).trans (releases_dropActions ..)).trans (.of_books (dropPens_books ..))

theorem releases_reviewEntry (h : Nat) (s : State) : Releases s (reviewEntry h s) := by
  unfold reviewEntry
  split
  · exact .refl s
  · split
    · exact .refl s
    · extract_lets s1
      have h1 : Releases s s1 := by
        unfold s1
        split
        · exact releases_releaseHandle ..
        · exact .refl s
      split
      · exact h1.trans ⟨rfl, List.length_filter_le ..⟩
      · exact h1

theorem releases_ackEntry (s : State) (e : FaultEntry) : Releases s (ackEntry s e) := by
  unfold ackEntry
  split
  · exact .refl s
  · refine (releases_modEntry e.handle (fun x => { x with acked := true }) s).trans (.trans ?_ (releases_reviewEntry ..))
    exact .of_books rfl

theorem releases_makeRoom (s : State) : Releases s (makeRoom s) := by
  unfold makeRoom
  split
  · exact .refl s
  · dsimp only
    split
    · exact .refl s
    · exact releases_ackEntry ..

/-! ## The bounds of the table and of the windows (R370, R381) -/

/-- The table keeps within 256 entries and the windows within 32. -/
structure Bounded (s t : State) : Prop where
  table : s.fault.entries.length ≤ 256 → t.fault.entries.length ≤ 256
  windows : s.fault.windows.length ≤ 32 → t.fault.windows.length ≤ 32

theorem Bounded.refl (s : State) : Bounded s s := ⟨id, id⟩

theorem Bounded.trans {s t u : State} (h : Bounded s t) (k : Bounded t u) : Bounded s u :=
  ⟨k.table ∘ h.table, k.windows ∘ h.windows⟩

theorem Bounded.of_lengths {s t : State} (h : t.fault.entries.length = s.fault.entries.length)
    (k : t.fault.windows.length = s.fault.windows.length) : Bounded s t := ⟨by rw [h]; exact id, by rw [k]; exact id⟩

theorem Bounded.of_fault {s t : State} (h : t.fault = s.fault) : Bounded s t := .of_lengths (by rw [h]) (by rw [h])

theorem Releases.bounded {s t : State} (h : Releases s t) : Bounded s t :=
  ⟨h.table.trans, by rw [show t.fault.windows = s.fault.windows from (congrArg (fun x => x.2.1) h.course :)]; exact id⟩

theorem Bounded.foldl {α : Type} {f : State → α → State} (hf : ∀ s x, Bounded s (f s x)) (l : List α) (s : State) :
    Bounded s (l.foldl f s) := by
  induction l generalizing s with
  | nil => exact .refl s
  | cons x l ih => exact (hf s x).trans (ih _)

/-! ## A raise and an end are recorded -/

/-- The table after a raise that was given an entry: its pair's entry takes it, or a new one joins where there is room. -/
def enteredTable (g : Graded) (seq t : Nat) (f : FaultState) : List FaultEntry :=
  match entryOf f g.r.cls g.r.unit with
  | some e => f.entries.map (fun x => if x.handle = e.handle then { x with
      severity := g.sev, active := true, reaction := true, escalated := x.escalated || decide (x.severity < g.sev)
      injected := g.r.injected, lastSeq := seq, raises := x.raises + 1, lastTime := t } else x)
  | none =>
    if 256 ≤ f.entries.length then f.entries
    else f.entries ++ [{ cls := g.r.cls, unit := g.r.unit, severity := g.sev, active := true, acked := false
                         reaction := true, escalated := false, injected := g.r.injected, firstSeq := seq
                         lastSeq := seq, raises := 1, firstTime := t, lastTime := t, handle := f.handles + 1 }]

theorem enterRaise_fault (g : Graded) (seq t : Nat) (s : State) :
    (enterRaise g seq t s).1.fault.entries = enteredTable g seq t s.fault ∧
      (enterRaise g seq t s).1.fault.course = s.fault.course := by
  unfold enterRaise enteredTable
  cases entryOf s.fault g.r.cls g.r.unit with
  | some e => exact ⟨rfl, rfl⟩
  | none =>
    dsimp only
    split <;> exact ⟨rfl, rfl⟩

theorem enteredTable_length (g : Graded) (seq t : Nat) {f : FaultState} (h : f.entries.length ≤ 256) :
    (enteredTable g seq t f).length ≤ 256 := by
  unfold enteredTable
  split
  · rwa [List.length_map]
  · split
    · exact h
    · rw [List.length_append, List.length_singleton]
      omega

/-- The state in which a raise takes its entry: where it has none yet, room has been made. -/
def roomFor (g : Graded) (s : State) : State := if (entryOf s.fault g.r.cls g.r.unit).isSome then s else makeRoom s

theorem releases_roomFor (g : Graded) (s : State) : Releases s (roomFor g s) := by
  unfold roomFor
  split
  · exact .refl s
  · exact releases_makeRoom s

theorem roomFor_of_room {g : Graded} {s : State} (h : s.fault.entries.length < 256) : roomFor g s = s := by
  unfold roomFor makeRoom
  rw [if_pos h, ite_self]

theorem roomFor_of_entry {g : Graded} {s : State} {e : FaultEntry} (h : entryOf s.fault g.r.cls g.r.unit = some e) :
    roomFor g s = s := by
  unfold roomFor
  rw [h]
  rfl

/-- What a recorded raise leaves: its entry is taken, it is counted, and at most one window opens, where there is room. -/
structure Recorded (g : Graded) (seq t : Nat) (s u : State) : Prop where
  entries : u.fault.entries = enteredTable g seq t (roomFor g s).fault
  raises : u.fault.raises = s.fault.raises + 1
  windows : s.fault.windows.length ≤ 32 → u.fault.windows.length ≤ 32

theorem recordRaise_direct (same : Bool) (t : Nat) (acc : State × List Nat) {g : Graded} (h : g.parent = none) :
    ∃ seq, Recorded g seq t acc.1 (recordRaise same t acc g).1 := by
  have hroom := (releases_roomFor g acc.1).course
  unfold recordRaise
  rw [h]
  dsimp -zeta only
  extract_lets old s0 esc order room handle fl params p q s1 s2 s3
  have h0 : s0 = roomFor g acc.1 := rfl
  have hp : p.1.fault = s0.fault := rfl
  obtain ⟨hentries, hcourse⟩ := enterRaise_fault g p.2 t p.1
  change q.1.fault.entries = _ at hentries
  change q.1.fault.course = _ at hcourse
  rw [hp, h0] at hentries hcourse
  rw [hroom] at hcourse
  have h3 : s3.fault = s1.fault := by
    have h2 : s2.fault = s1.fault :=
      (slotFault_only (Only.refl 1024 _) rfl .fault rfl).trans (captureTrigger_only (Only.refl 16384 _) rfl .fault rfl)
    unfold s3
    split
    · rw [setIrq_keeps_fault, postEvent_keeps_fault, h2]
    · exact h2
  refine ⟨p.2, ?_, ?_, ?_⟩
  · dsimp only
    rw [h3]
    exact hentries
  · dsimp only
    rw [h3]
    exact congrArg (· + 1) (congrArg (fun x => x.2.2.1) hcourse :)
  · intro hw
    dsimp only
    rw [h3]
    have hq : q.1.fault.windows = acc.1.fault.windows := (congrArg (fun x => x.2.1) hcourse :)
    change (if 2 ≤ g.sev ∧ q.1.fault.windows.length < 32 then _ else q.1.fault.windows : List Window).length ≤ 32
    split
    next hfree =>
      rw [List.length_append]
      exact hfree.2
    · rwa [hq]

theorem bounded_recordRaise (same : Bool) (t : Nat) (acc : State × List Nat) (g : Graded) :
    Bounded acc.1 (recordRaise same t acc g).1 := by
  cases h : g.parent with
  | some w =>
    unfold recordRaise
    rw [h]
    exact .of_lengths rfl (List.length_map _)
  | none =>
    obtain ⟨seq, hrec⟩ := recordRaise_direct same t acc h
    refine ⟨fun he => ?_, hrec.windows⟩
    rw [hrec.entries]
    exact enteredTable_length _ _ _ ((releases_roomFor g acc.1).table.trans he)

theorem bounded_recordRaises (same : Bool) (t : Nat) (l : List Graded) (acc : State × List Nat) :
    Bounded acc.1 (l.foldl (recordRaise same t) acc).1 := by
  induction l generalizing acc with
  | nil => exact .refl _
  | cons g l ih => exact (bounded_recordRaise ..).trans (ih _)

theorem bounded_recordEnd (t : Nat) (s : State) (c : Condition) : Bounded s (recordEnd t s c) := by
  unfold recordEnd
  extract_lets e r sev p s1
  split
  · exact .of_lengths rfl rfl
  · have h1 : Bounded s s1 := .of_lengths rfl (List.length_map _)
    clear_value s1
    cases e with
    | some x => exact h1.trans ((releases_modEntry ..).trans (releases_reviewEntry ..)).bounded
    | none => exact h1

theorem bounded_recordEnds (t : Nat) (l : List Condition) (s : State) : Bounded s (l.foldl (recordEnd t) s) :=
  .foldl (fun _ _ => bounded_recordEnd ..) l s

/-! ## One collector cycle -/

/-- The first-fault record's companions are noted when the record was made in this cycle. -/
theorem bounded_companions (f f' : Option Record) (l : List Nat) (s : State) : Bounded s (match f, f' with
    | none, some x => s.modFault (fun f => { f with companions := (l.filter (· != x.seq)).take 3 })
    | _, _ => s) := by
  split <;> exact .of_lengths rfl rfl

theorem bounded_processCycle (s : State) (n : Nat) : Bounded s (processCycle s n) := by
  unfold processCycle
  extract_lets items t s0 media others p0 s1 hidden live s2 p s3 s4
  have h0 : Bounded s s0 := .of_lengths rfl rfl
  have h1 : Bounded s0 s1 := (bounded_recordRaises _ _ _ (s0, [])).trans (bounded_recordEnds ..)
  have h2 : Bounded s1 s2 := .of_lengths rfl rfl
  have h3 : Bounded s2 s3 := (bounded_recordRaises _ _ _ (s2, p0.2)).trans (bounded_companions ..)
  have h4 : Bounded s s4 := (((h0.trans h1).trans h2).trans h3).trans (bounded_recordEnds ..)
  split
  · exact h4
  · exact h4.trans (.of_fault (drainSubmissions_only (Only.refl 32778 _) rfl .fault rfl))

theorem collectorCycle_now {s : State} (h : s.power ≠ .dormant) : ticked s (collectorCycle s) tcPerCycle := by
  unfold collectorCycle
  rw [if_neg h]
  extract_lets s1
  have h1 : s1.air.mono = max s.air.mono ((s.air.mono / tcPerCycle + 1) * tcPerCycle) :=
    (congrArg AirState.mono (drainSubmissions_only (Only.refl 32778 _) rfl .air rfl)).trans (advanceTo_waited ..)
  have hair : ((waitingCycles s1.fault (cycleNow s1)).foldl processCycle s1).air = s1.air :=
    foldl_keeps State.air (fun _ _ => processCycle_only (Only.refl 327662 _) rfl .air rfl) _ s1
  change ((waitingCycles s1.fault (cycleNow s1)).foldl processCycle s1).air.mono = _
  rw [hair, h1]
  have hlt : s.air.mono < (s.air.mono / tcPerCycle + 1) * tcPerCycle := Nat.lt_mul_of_div_lt (Nat.lt_succ_self _) (by decide)
  exact Nat.max_eq_right hlt.le

theorem bounded_collectorCycle {s : State} (h : s.power ≠ .dormant) : Bounded s (collectorCycle s) := by
  unfold collectorCycle
  rw [if_neg h]
  extract_lets s1
  have h1 : Bounded s s1 := .of_fault
    ((drainSubmissions_only (Only.refl 32778 _) rfl .fault rfl).trans (advanceTo_keeps_fault ..))
  exact h1.trans ((Bounded.foldl bounded_processCycle _ s1).trans (.of_lengths rfl rfl))

/-! ## A cycle with one raise -/

/-- The severity that a raise of its own, in no window, is recorded with. -/
def ownGrade (f : FaultState) (r : Raise) : Graded := ⟨r, raiseSeverity f r, none⟩

theorem gradeRaises_one {s : State} {r : Raise} (h : s.fault.windows = []) : gradeRaises s [r] = [ownGrade s.fault r] := by
  have hparent (sev : Severity) : parentWindow s.fault r sev = none := by
    unfold parentWindow
    rw [h, List.find?_nil, ite_self]
  unfold gradeRaises
  simp only [List.map_cons, List.map_nil, List.foldl_cons, List.foldl_nil, insertGraded, hparent]
  rfl

theorem maskedRaise_of_class {s : State} {r : Raise} (h : ¬maskedClasses.contains r.cls) : maskedRaise s r = false := by
  unfold maskedRaise
  rw [Bool.eq_false_iff.mpr h]
  rfl

theorem Recorded.of_fields {g : Graded} {seq t : Nat} {s u v : State} (h : Recorded g seq t s u)
    (hentries : v.fault.entries = u.fault.entries) (hraises : v.fault.raises = u.fault.raises)
    (hwindows : v.fault.windows = u.fault.windows) : Recorded g seq t s v :=
  ⟨hentries.trans h.entries, hraises.trans h.raises, fun k => by rw [hwindows]; exact h.windows k⟩

/-- The course and the table are those of another state. -/
structure SameBooks (s t : State) : Prop where
  entries : t.fault.entries = s.fault.entries
  raises : t.fault.raises = s.fault.raises
  windows : t.fault.windows = s.fault.windows

theorem sameBooks_companions (f f' : Option Record) (l : List Nat) (s : State) : SameBooks s (match f, f' with
    | none, some x => s.modFault (fun f => { f with companions := (l.filter (· != x.seq)).take 3 })
    | _, _ => s) := by
  split <;> exact ⟨rfl, rfl, rfl⟩

/-- A cycle whose only item is a raise of a class that is not masked, with no window open, records that raise. -/
theorem processCycle_one {s : State} {r : Raise} (hlatched : s.fault.latched = [.raise r]) (hwindows : s.fault.windows = [])
    (hclass : ¬maskedClasses.contains r.cls) :
    ∃ seq t u, Recorded (ownGrade s.fault r) seq t u (processCycle s r.cycle) ∧ u.fault.entries = s.fault.entries ∧
      u.fault.raises = s.fault.raises := by
  have hitems : s.fault.latched.filter (fun x => latchCycle x == r.cycle) = [.raise r] := by
    rw [hlatched]
    exact List.filter_cons_of_pos (by simp [latchCycle])
  have hends (b : Bool) : endsOf b [.raise r] = [] := rfl
  have hraises : raisesOf [.raise r] = [r] := rfl
  unfold processCycle
  extract_lets items t s0 media others p0 s1 hidden live s2 p s3 s4
  have hmedia : media = [r].filter (awaitedMedia s0) := by unfold media items; rw [hitems, hraises]
  have hothers : others = [r].filter (fun r => !awaitedMedia s0 r) := by unfold others items; rw [hitems, hraises]
  have h1 : s1 = p0.1 := by unfold s1 items; rw [hitems, hends]; rfl
  have h4 : s4 = s3 := by unfold s4 items; rw [hitems, hends]; rfl
  have h3 : SameBooks p.1 s3 := sameBooks_companions ..
  cases ha : awaitedMedia s0 r with
  | true =>
    rw [List.filter_cons_of_pos ha, List.filter_nil] at hmedia
    rw [List.filter_cons_of_neg (by simp [ha]), List.filter_nil] at hothers
    have hgrade : gradeRaises s0 media = [ownGrade s.fault r] := by rw [hmedia]; exact gradeRaises_one hwindows
    have hp0 : p0 = recordRaise (decide (1 < (media ++ others.filter (fun r => !maskedRaise s0 r)).length)) t (s0, [])
        (ownGrade s.fault r) := by unfold p0; rw [hgrade]; rfl
    obtain ⟨seq, hrec⟩ := recordRaise_direct (decide (1 < (media ++ others.filter (fun r => !maskedRaise s0 r)).length)) t
      (s0, []) (g := ownGrade s.fault r) rfl
    rw [← hp0, ← h1] at hrec
    have hlive : live = [] := by unfold live; rw [hothers]; rfl
    have hp : p = (s2, p0.2) := by unfold p; rw [hlive]; rfl
    have h2 : SameBooks s1 s2 := ⟨rfl, rfl, rfl⟩
    have hdrain : (if media.isEmpty then s4 else drainSubmissions (s4.modLog (fun l => { l with mediaWait := false }))).fault =
        s3.fault := by
      rw [if_neg (by rw [hmedia]; exact Bool.false_ne_true), h4, drainSubmissions_only (Only.refl 32778 _) rfl .fault rfl]
      rfl
    rw [hp] at h3
    refine ⟨seq, t, s0, hrec.of_fields ?_ ?_ ?_, rfl, rfl⟩
    · exact (congrArg FaultState.entries hdrain).trans h3.entries
    · exact (congrArg FaultState.raises hdrain).trans h3.raises
    · exact (congrArg FaultState.windows hdrain).trans h3.windows
  | false =>
    rw [List.filter_cons_of_neg (by simp [ha]), List.filter_nil] at hmedia
    rw [List.filter_cons_of_pos (by simp [ha]), List.filter_nil] at hothers
    have hp0 : p0 = (s0, []) := by unfold p0; rw [hmedia]; rfl
    have hlive : live = [r] := by
      unfold live
      rw [hothers]
      exact List.filter_cons_of_pos (by rw [maskedRaise_of_class hclass]; rfl)
    have hs1 : s1 = s0 := by rw [h1, hp0]
    have h2 : ownGrade s2.fault r = ownGrade s1.fault r := rfl
    have hgrade : gradeRaises s2 live = [ownGrade s.fault r] := by
      rw [hlive, gradeRaises_one (show s2.fault.windows = [] from (congrArg (fun x => x.fault.windows) hs1).trans hwindows), h2,
        hs1]
      rfl
    have hp : p = recordRaise (decide (1 < (media ++ live).length)) t (s2, p0.2) (ownGrade s.fault r) := by
      unfold p
      rw [hgrade]
      rfl
    obtain ⟨seq, hrec⟩ := recordRaise_direct (decide (1 < (media ++ live).length)) t (s2, p0.2) (g := ownGrade s.fault r) rfl
    rw [← hp] at hrec
    rw [if_pos (by rw [hmedia]; rfl), h4]
    refine ⟨seq, t, s2, hrec.of_fields h3.entries h3.raises h3.windows, ?_, ?_⟩
    · change s1.fault.entries = _
      rw [hs1]
      rfl
    · change s1.fault.raises = _
      rw [hs1]
      rfl

theorem waitingCycles_one {f : FaultState} {r : Raise} {n : Nat} (h : f.latched = [.raise r]) (hn : r.cycle < n) :
    waitingCycles f n = [r.cycle] := by
  unfold waitingCycles
  rw [h]
  have hc : latchCycle (.raise r) < n ∧ !([] : List Nat).contains (latchCycle (.raise r)) := ⟨hn, rfl⟩
  rw [List.foldl_cons, List.foldl_nil]
  dsimp only
  rw [if_pos hc]
  exact List.mergeSort_singleton _

/-- A collector cycle with one raise latched and nothing else to do records that raise. -/
theorem collectorCycle_one {s : State} {r : Raise} (h : s.power ≠ .dormant) (hlatched : s.fault.latched = [.raise r])
    (hcycle : r.cycle ≤ cycleNow s) (hwindows : s.fault.windows = []) (hlog : s.log.submissions = [])
    (hclass : ¬maskedClasses.contains r.cls) :
    ∃ seq t u, Recorded (ownGrade s.fault r) seq t u (collectorCycle s) ∧ u.fault.entries = s.fault.entries ∧
      u.fault.raises = s.fault.raises := by
  unfold collectorCycle
  rw [if_neg h]
  extract_lets s1
  have h1 : s1 = advanceTo ((now s / tcPerCycle + 1) * tcPerCycle) s :=
    drainSubmissions_nil ((congrArg LogState.submissions (advanceTo_keeps_log ..)).trans hlog)
  have hfault : s1.fault = s.fault := by rw [h1, advanceTo_keeps_fault]
  have hlt : r.cycle < cycleNow s1 := by
    have hnow : s1.air.mono = max s.air.mono ((s.air.mono / tcPerCycle + 1) * tcPerCycle) := by rw [h1]; exact advanceTo_waited ..
    have hle : s.air.mono / tcPerCycle + 1 ≤ s1.air.mono / tcPerCycle :=
      (Nat.le_div_iff_mul_le (by decide)).mpr (hnow ▸ Nat.le_max_right ..)
    exact Nat.lt_of_lt_of_le (Nat.lt_succ_of_le hcycle) hle
  rw [waitingCycles_one (by rw [hfault]; exact hlatched) hlt, List.foldl_cons, List.foldl_nil, ← hfault]
  obtain ⟨seq, t, u, hrec, hentries, hraises⟩ :=
    processCycle_one (s := s1) (r := r) (by rw [hfault]; exact hlatched) (by rw [hfault]; exact hwindows) hclass
  exact ⟨seq, t, u, hrec.of_fields rfl rfl rfl, hentries, hraises⟩

/-- A recorded raise without an entry appends a new ACTIVE one of its severity, where there is room (R370, R371). -/
theorem Recorded.enters {r : Raise} {f : FaultState} {seq t : Nat} {s u : State} (h : Recorded (ownGrade f r) seq t s u)
    (hentries : s.fault.entries = f.entries) (hnone : entryOf f r.cls r.unit = none) (hroom : f.entries.length < 256) :
    ∃ y, u.fault.entries = f.entries ++ [y] ∧ y.cls = r.cls ∧ y.unit = r.unit ∧ y.severity = baseSeverity f r ∧ y.active ∧
      ¬y.acked := by
  have hold : entryOf s.fault r.cls r.unit = none := (congrArg (List.find? _) hentries).trans hnone
  have hsev : raiseSeverity f r = baseSeverity f r := by rw [raiseSeverity, hnone]
  rw [← hsev]
  have ht := h.entries
  rw [roomFor_of_room (hentries ▸ hroom), enteredTable, show (ownGrade f r).r = r from rfl, hold] at ht
  dsimp only at ht
  rw [if_neg (by rw [hentries]; omega), hentries] at ht
  exact ⟨_, ht, rfl, rfl, rfl, rfl, Bool.false_ne_true⟩

/-- A recorded raise of an unacknowledged entry raises it by one level, up to its class's ceiling (R372). -/
theorem Recorded.escalates {r : Raise} {f : FaultState} {seq t : Nat} {s u : State} (h : Recorded (ownGrade f r) seq t s u)
    (hentries : s.fault.entries = f.entries) {e : FaultEntry} (hsome : entryOf f r.cls r.unit = some e) (hacked : ¬e.acked)
    (hfixed : r.fixed = none) :
    ∃ y ∈ u.fault.entries, y.handle = e.handle ∧ y.active ∧
      y.severity = max e.severity (min (e.severity + 1) (classConfig f r.cls).ceiling) := by
  have hold : entryOf s.fault r.cls r.unit = some e := (congrArg (List.find? _) hentries).trans hsome
  have hsev : raiseSeverity f r = max e.severity (min (e.severity + 1) (classConfig f r.cls).ceiling) := by
    rw [raiseSeverity, hsome, hfixed]
    dsimp only
    rw [if_neg hacked]
    exact Nat.max_zero _
  rw [← hsev]
  have ht := h.entries
  rw [roomFor_of_entry hold, enteredTable, show (ownGrade f r).r = r from rfl, hold] at ht
  rw [ht]
  refine ⟨_, List.mem_map_of_mem (List.mem_of_find?_eq_some hold), ?_, ?_, ?_⟩
  all_goals rw [if_pos rfl]
  rfl

/-! ## Reactions and the other events of the collector -/

theorem donorMute_pace (n : Nat) (on : Bool) (s : State) : (donorMute n on s).pace = s.pace :=
  pace_of_parts (donorMute_only (Only.refl 452 s) rfl .air rfl) (donorMute_others ..)

/-- Collectors that agree beyond their conditions agree on the HALT and on what runs. -/
theorem halt_of_others {f g : FaultState} (h : g.others = f.others) :
    g.halt = f.halt ∧ g.haltRelease = f.haltRelease ∧ g.haltMuted = f.haltMuted ∧ g.reactions = f.reactions ∧
      g.actions = f.actions :=
  ⟨(congrArg FaultState.halt h :), (congrArg FaultState.haltRelease h :), (congrArg FaultState.haltMuted h :),
    (congrArg FaultState.reactions h :), (congrArg FaultState.actions h :)⟩

/-- The HALT is in force after it has begun, and nothing else of the books differs. -/
theorem enterHalt_fault (seq : Nat) (s : State) :
    (enterHalt seq s).air.mono = s.air.mono ∧ (enterHalt seq s).fault.halt ≠ none ∧
      (enterHalt seq s).fault.reactions = s.fault.reactions ∧ (enterHalt seq s).fault.actions = s.fault.actions := by
  unfold enterHalt
  obtain ⟨hhalt, -, -, hreactions, hactions⟩ := halt_of_others (refreshGains_others (s.modFault (fun f => { f with
    halt := f.halt <|> some (seq, now s), haltRelease := none, haltMuted := (ebs s).map (·.1) })))
  refine ⟨congrArg AirState.mono refreshGains_keeps_air, ?_, hreactions, hactions⟩
  rw [hhalt]
  change (s.fault.halt <|> some (seq, now s)) ≠ none
  cases s.fault.halt <;> exact Option.some_ne_none _

/-- A reaction that acts takes no time and leaves the list of reactions; its action is noted, and at HALT severity the HALT is in
force (R374, R377). -/
theorem performReaction_effect (r : Reaction) (s : State) :
    (performReaction r s).air.mono = s.air.mono ∧ (performReaction r s).fault.reactions = s.fault.reactions ∧
      (∃ a ∈ (performReaction r s).fault.actions, a.cls = r.cls ∧ a.unit = r.unit ∧ a.handle = r.handle) ∧
      (4 ≤ r.severity → (performReaction r s).fault.halt ≠ none) := by
  unfold performReaction
  extract_lets own none_ p s1 s2 reason s3 s4 s5
  have h1 : s1.pace = s.pace := by
    have hp : p.1.pace = s.pace := doOwn_pace ..
    unfold s1
    split
    · exact (setBackoff_pace ..).trans hp
    · exact hp
  have h5 : s5.record = s2.record := by
    have h3 : s3.record = s2.record := ite_keeps State.record (foldl_keeps State.record (penUnit_record _) _ s2)
    have h4 : s4.record = s3.record := ite_keeps State.record (record_of_pace (donorMute_pace ..))
    have h5 : s5.record = s4.record := ite_keeps State.record (record_of_pace (applyThermal_pace ..))
    exact h5.trans (h4.trans h3)
  have hmono : s5.air.mono = s.air.mono := (congrArg Prod.fst h5).trans (congrArg Prod.fst h1)
  have hreactions : s5.fault.reactions = s.fault.reactions :=
    (congrArg (fun x => x.2.1.2.2.2) h5 :).trans (congrArg (fun x => x.2.reactions) h1 :)
  have hactions : s5.fault.actions = s2.fault.actions := (congrArg (fun x => x.2.2.2) h5 :)
  have hmem : ∃ a ∈ s5.fault.actions, a.cls = r.cls ∧ a.unit = r.unit ∧ a.handle = r.handle := by
    rw [hactions]
    exact ⟨_, List.mem_append_right _ (List.mem_singleton_self _), rfl, rfl, rfl⟩
  clear_value s5
  by_cases hsev : 4 ≤ r.severity
  · rw [if_pos hsev]
    obtain ⟨hm, hh, hr, ha⟩ := enterHalt_fault r.seq s5
    exact ⟨hm.trans hmono, hr.trans hreactions, ha ▸ hmem, fun _ => hh⟩
  · rw [if_neg hsev]
    exact ⟨hmono, hreactions, hmem, (absurd · hsev)⟩

/-- A release takes no time. -/
theorem releaseHandle_now (h : Nat) (s : State) : (releaseHandle h s).air.mono = s.air.mono :=
  congrArg AirState.mono (releaseHandle_only (Only.refl 278500 s) rfl .air rfl)

/-- The oldest reaction that has not begun begins two cycles after its raise (R368). -/
theorem reactionStart_effect {s : State} {x : Reaction} (h : s.fault.reactions.find? (fun y => y.startedAt.isNone) = some x) :
    waited s (reactionStart s) ((x.cycle + 2) * tcPerCycle) ∧ (4 ≤ x.severity → (reactionStart s).fault.halt ≠ none) ∧
      (x.severity < 2 → (reactionStart s).fault.reactions = s.fault.reactions.filter (fun y => y.order != x.order)) ∧
      (x.handle = none → ∃ a ∈ (reactionStart s).fault.actions, a.cls = x.cls ∧ a.unit = x.unit ∧ a.handle = none) := by
  unfold reactionStart
  rw [h]
  dsimp -zeta only
  extract_lets s1 s2 s3
  have h1 : s1.fault = s.fault := advanceTo_keeps_fault ..
  have hmono1 : waited s s1 ((x.cycle + 2) * tcPerCycle) := advanceTo_waited ..
  obtain ⟨hmono, hreactions, hactions, hhalt⟩ := performReaction_effect x s1
  change s2.air.mono = _ at hmono
  change s2.fault.reactions = _ at hreactions
  change ∃ a ∈ s2.fault.actions, _ at hactions
  change _ → s2.fault.halt ≠ none at hhalt
  have hlow (hsev : x.severity < 2) : s3.fault.reactions = s.fault.reactions.filter (fun y => y.order != x.order) := by
    rw [← h1, ← hreactions]
    exact if_pos hsev
  cases hrel : releasedBefore s3.fault x with
  | none => exact ⟨hmono.trans hmono1, hhalt, hlow, fun hnone => by rwa [hnone] at hactions⟩
  | some n =>
    have hcourse := (releases_releaseHandle n s3).course
    refine ⟨(releaseHandle_now ..).trans (hmono.trans hmono1), fun hsev => ?_, fun hsev => ?_, fun hnone => ?_⟩
    · exact fun hc => hhalt hsev ((congrArg Prod.fst hcourse :).symm.trans hc)
    · exact (congrArg (fun y => y.2.2.2) hcourse :).trans (hlow hsev)
    · exact absurd (hrel.symm.trans (by rw [releasedBefore, hnone]; rfl)) (Option.some_ne_none _)

theorem reactionComplete_effect {s : State} {x : Reaction} (h : s.fault.reactions.find? (reactionDone s) = some x) :
    (reactionComplete s).fault.reactions = s.fault.reactions.filter (fun y => y.order != x.order) ∧
      ∀ y ∈ (reactionComplete s).fault.windows, y.order = x.order → y.closeAt = some (s.now + 3932160) := by
  unfold reactionComplete
  rw [h]
  refine ⟨rfl, fun y hy horder => ?_⟩
  obtain ⟨w, -, rfl⟩ := List.mem_map.mp hy
  by_cases hw : w.order = x.order
  · rw [if_pos hw]
    rfl
  · rw [if_neg hw] at horder
    exact absurd horder hw

/-- The only window closes at its time, and what stands in it is raised afresh (R383). -/
theorem consequenceWindowClose_one {s : State} {w : Window} {k : Nat} (h : s.fault.windows = [w]) (hk : w.closeAt = some k) :
    (consequenceWindowClose s).fault.windows = [] ∧ waited s (consequenceWindowClose s) k ∧
      (consequenceWindowClose s).fault.latched = s.fault.latched ++
        w.raised.reverse.map (fun y => .raise { y with afresh := true, cycle := cycleNow (consequenceWindowClose s) }) := by
  have hl : s.fault.windows.filterMap (fun w => w.closeAt.map (fun t => (t, w))) = [(k, w)] := by
    rw [h]
    exact List.filterMap_cons_some (by rw [hk]; rfl)
  have heq : consequenceWindowClose s = (advanceTo k s).modFault (fun f => { f with
      windows := f.windows.filter (fun x => x.order != w.order)
      latched := f.latched ++ w.raised.reverse.map (fun r => .raise { r with afresh := true, cycle := cycleNow (advanceTo k s) }) }) := by
    unfold consequenceWindowClose
    rw [hl]
    rfl
  rw [heq, modFault_fault, advanceTo_keeps_fault, h]
  refine ⟨?_, advanceTo_waited .., rfl⟩
  exact List.filter_cons_of_neg (p := fun x : Window => x.order != w.order) (by simp)

/-- Where band paths are changed and the gains follow, the HALT is as it was. -/
theorem halt_refreshed {g : State → Nat × BandPath → State} (hg : ∀ s p, (g s p).fault = s.fault) (l : List (Nat × BandPath))
    (s : State) : (refreshFaultN (refreshGains (l.foldl g s))).fault.halt = s.fault.halt ∧
      (refreshFaultN (refreshGains (l.foldl g s))).fault.haltRelease = s.fault.haltRelease ∧
      (refreshFaultN (refreshGains (l.foldl g s))).fault.haltMuted = s.fault.haltMuted := by
  obtain ⟨hhalt, hrelease, hmuted, -⟩ :=
    halt_of_others ((refreshGains_others (l.foldl g s)).trans (congrArg FaultState.others (foldl_keeps State.fault hg l s)))
  generalize refreshGains (l.foldl g s) = t at *
  exact ⟨hhalt, hrelease, hmuted⟩

/-- At the release frame no HALT is in force (R377). -/
theorem haltReleaseFrame_effect {s : State} {k : Nat} (h : s.fault.haltRelease = some k) :
    (haltReleaseFrame s).fault.halt = none ∧ (haltReleaseFrame s).fault.haltRelease = none ∧
      (haltReleaseFrame s).fault.haltMuted = [] := by
  unfold haltReleaseFrame
  rw [h]
  dsimp -zeta only
  extract_lets s1 s2
  have h2 : s2.fault.halt = none ∧ s2.fault.haltRelease = none ∧ s2.fault.haltMuted = [] := ⟨rfl, rfl, rfl⟩
  obtain ⟨hhalt, hrelease, hmuted⟩ := h2
  clear_value s2
  rw [← hhalt, ← hrelease, ← hmuted]
  refine halt_refreshed ?_ _ _
  exact fun _ _ => rfl

/-- Settles O49: the cycle is a fold over what was latched, of which only a raise can enter an entry or open a window; a reaction
leaves the list of reactions to its start and its end. -/
theorem collectorRecordsAndReacts : Obligations.CollectorRecordsAndReacts := by
  unfold Obligations.CollectorRecordsAndReacts
  intro s r e x w k
  refine ⟨fun h => congrArg Host.Outcome.next (if_pos h), fun h => ?_, fun h => ?_, fun h => ?_, fun h hk => ?_, fun h => ?_⟩
  · have hbound := bounded_collectorCycle h
    refine runs_of_only (t := collectorCycle s) rfl execCollectorCycle_only (by decide)
      ⟨collectorCycle_now h, hbound.table, hbound.windows, fun hlatched hcycle hwindows hlog hclass => ?_⟩
    obtain ⟨seq, t, u, hrec, hentries, hraises⟩ := collectorCycle_one h hlatched hcycle hwindows hlog hclass
    exact ⟨hrec.raises.trans (congrArg (· + 1) hraises), hrec.enters hentries, hrec.escalates hentries⟩
  · exact runs_of_only (t := reactionStart s) rfl execReactionStart_only (by decide) (reactionStart_effect h)
  · exact runs_of_only (t := reactionComplete s) rfl execReactionComplete_only (by decide) (reactionComplete_effect h)
  · obtain ⟨hwindows, hwaited, hlatched⟩ := consequenceWindowClose_one h hk
    exact runs_of_only (t := consequenceWindowClose s) rfl execConsequenceWindowClose_only (by decide)
      ⟨hwindows, hwaited, hlatched⟩
  · exact runs_of_only (t := haltReleaseFrame s) rfl execHaltReleaseFrame_only (by decide) (haltReleaseFrame_effect h)

end Sys2Proof.Machine
end

section
set_option Elab.async false
/-! The grids of air time (R30) and the TDD patterns (R52–R54): a boundary that time has passed up to leaves the count on it, since
nothing that runs at the boundary moves the counters. -/

namespace Sys2Proof.Machine

open Sys2Proof

/-! ## Time up to a boundary -/

theorem airAhead_eq (a : AirState) (i : AirInstant) : airAhead a i =
    if (i.frame + 4294967296 - a.frame) % 4294967296 < 2147483648 then
      (i.frame + 4294967296 - a.frame) % 4294967296 * tcPerFrame + i.offset - a.offset
    else 0 := rfl

theorem frames_none {x y : Nat} (h : y = x) : (y + 4294967296 - x) % 4294967296 = 0 := by rw [h, Nat.add_sub_cancel_left]

theorem frames_one {x y : Nat} (hx : x < 4294967296) (h : y = (x + 1) % 4294967296) :
    (y + 4294967296 - x) % 4294967296 = 1 := by omega

theorem airAhead_same {a : AirState} {i : AirInstant} (hi : i.frame = a.frame) : airAhead a i = i.offset - a.offset := by
  rw [airAhead_eq, frames_none hi, if_pos (by decide), Nat.zero_mul, Nat.zero_add]

theorem airAhead_next {a : AirState} {i : AirInstant} (ha : a.frame < 4294967296) (hi : i.frame = (a.frame + 1) % 4294967296) :
    airAhead a i = tcPerFrame + i.offset - a.offset := by
  rw [airAhead_eq, frames_one ha hi, if_pos (by decide), Nat.one_mul]

/-- The instants at or after the present one, within the next frame, that lie on a grid of `period` Tc. -/
inductive OnGrid (a : AirState) (period : Nat) (i : AirInstant) : Prop
  | present (hi : i = airNow a) (hgrid : a.offset % period = 0)
  | later (hframe : i.frame = a.frame) (hoffset : a.offset < i.offset) (hi : i.offset < tcPerFrame) (hgrid : i.offset % period = 0)
  | next (hframe : i.frame = (a.frame + 1) % 4294967296) (hi : i.offset < tcPerFrame) (hgrid : i.offset % period = 0)

theorem passTo_here {a : AirState} {i : AirInstant} (h : airAhead a i = 0) : a.passTo i = a := by
  unfold AirState.passTo
  exact if_pos h

/-- The air-time part when the count reads the instant `i`, with what the count has beyond it. -/
def AirState.arrived (i : AirInstant) (past kept : Int) (b : AirState) : AirState :=
  { b with
    frame := i.frame % 4294967296
    offset := i.offset % tcPerFrame
    frac := kept.toNat
    rateRem := b.rateRem + (past - kept) * 100000000000 }

theorem arrived_offset (i : AirInstant) (past kept : Int) (b : AirState) : (b.arrived i past kept).offset = i.offset % tcPerFrame := rfl

theorem arrived_patterns (i : AirInstant) (past kept : Int) (b : AirState) : (b.arrived i past kept).patterns = b.patterns := rfl

theorem pass_patterns (a : AirState) (dt : Nat) : (a.pass dt).patterns = a.patterns := rfl

/-- An instant that lies ahead is what the count then reads. -/
theorem passTo_ahead {a : AirState} {i : AirInstant} (h : airAhead a i ≠ 0) :
    ∃ past kept, a.passTo i = (a.pass (monoOfAir a i)).arrived i past kept := by
  unfold AirState.passTo
  exact ⟨_, _, if_neg h⟩

theorem passTo_offset {a : AirState} {i : AirInstant} (h : airAhead a i ≠ 0) (hi : i.offset < tcPerFrame) :
    (a.passTo i).offset = i.offset := by
  obtain ⟨past, kept, hpass⟩ := passTo_ahead h
  rw [hpass, arrived_offset, Nat.mod_eq_of_lt hi]

theorem passTo_patterns (a : AirState) (i : AirInstant) : (a.passTo i).patterns = a.patterns := by
  by_cases h : airAhead a i = 0
  · rw [passTo_here h]
  · obtain ⟨past, kept, hpass⟩ := passTo_ahead h
    rw [hpass, arrived_patterns, pass_patterns]

/-- Time that passes up to an instant on a grid leaves the count on the grid. -/
theorem OnGrid.reached {a : AirState} {period : Nat} {i : AirInstant} (ha : a.inRange) (h : OnGrid a period i) :
    (a.passTo i).offset % period = 0 := by
  cases h with
  | present hi hgrid =>
    have h : airAhead a i = 0 := by rw [airAhead_same (by rw [hi, airNow]), hi, airNow, Nat.sub_self]
    rwa [passTo_here h]
  | later hframe hoffset hi hgrid =>
    have h : airAhead a i ≠ 0 := by rw [airAhead_same hframe]; exact Nat.sub_ne_zero_of_lt hoffset
    rwa [passTo_offset h hi]
  | next hframe hi hgrid =>
    have h : airAhead a i ≠ 0 := by
      rw [airAhead_next ha.1 hframe]
      exact Nat.sub_ne_zero_of_lt (Nat.lt_add_right _ ha.2.1)
    rwa [passTo_offset h hi]

theorem onGrid_nextBoundary (a : AirState) (grid : Nat) {period : Nat} (hp : 0 < period) :
    OnGrid a period (nextBoundary a grid period) := by
  unfold nextBoundary
  split
  next h => exact .present rfl h.1
  next =>
    dsimp only
    split
    next h => exact .later rfl (Nat.lt_mul_of_div_lt (Nat.lt_succ_self _) hp) h (Nat.mul_mod_left ..)
    next => exact .next rfl (show 0 < tcPerFrame by decide) (Nat.zero_mod _)

/-- The next boundary of a grid starts the next frame when it does not lie in this one. -/
theorem nextBoundary_frame (a : AirState) (grid period : Nat) : (nextBoundary a grid period).frame = a.frame ∨
    (nextBoundary a grid period).frame = (a.frame + 1) % 4294967296 ∧ (nextBoundary a grid period).offset = 0 := by
  unfold nextBoundary
  split
  · exact .inl rfl
  · dsimp only
    split
    · exact .inl rfl
    · exact .inr ⟨rfl, rfl⟩

/-- The boundary after one that lies on the loop-tick grid lies on it as well. -/
theorem OnGrid.nextTick {a : AirState} {i : AirInstant} (h : OnGrid a tcPerTick i) (hframe : i.frame = a.frame ∨
    i.frame = (a.frame + 1) % 4294967296 ∧ i.offset = 0) :
    OnGrid a tcPerTick (if i.offset + tcPerTick < tcPerFrame then ⟨i.frame, i.offset + tcPerTick⟩ else
      ⟨(i.frame + 1) % 4294967296, 0⟩) := by
  have hgrid : i.offset % tcPerTick = 0 := by
    cases h with
    | present hi hgrid => rw [hi]; exact hgrid
    | later _ _ _ hgrid => exact hgrid
    | next _ _ hgrid => exact hgrid
  have htick : (i.offset + tcPerTick) % tcPerTick = 0 := (Nat.add_mod_right ..).trans hgrid
  split
  next hlt =>
    rcases hframe with hsame | ⟨hnext, -⟩
    · refine .later hsame ?_ hlt htick
      cases h with
      | present hi _ => rw [hi]; exact Nat.lt_add_of_pos_right (by decide)
      | later _ hoffset _ _ => exact Nat.lt_add_right _ hoffset
      | next hframe _ _ => omega
    · exact .next hnext hlt htick
  next hge =>
    rcases hframe with hsame | ⟨-, hzero⟩
    · exact .next (by rw [hsame]) (show 0 < tcPerFrame by decide) (Nat.zero_mod _)
    · exact absurd (by rw [hzero]; decide) hge

theorem onGrid_nextTick (a : AirState) : OnGrid a tcPerTick (nextTick a) := by
  have hgrid := onGrid_nextBoundary a gridTick (period := tcPerTick) (by decide)
  have hframe := nextBoundary_frame a gridTick tcPerTick
  unfold nextTick
  dsimp only
  split
  · exact hgrid.nextTick hframe
  · exact hgrid

/-- The air-time part once a boundary of a grid counts as passed. -/
def AirState.passed (grid : Nat) (b : AirInstant) (a : AirState) : AirState := { a with gridDone := a.gridDone.set grid (some b) }

theorem passed_offset (grid : Nat) (b : AirInstant) (a : AirState) : (a.passed grid b).offset = a.offset := rfl

theorem advanceToBoundary_air (grid period : Nat) (s : State) : (advanceToBoundary grid period s).air =
    (s.air.passTo (nextBoundary s.air grid period)).passed grid (nextBoundary s.air grid period) := rfl

theorem advanceToBoundary_offset {s : State} (hs : s.air.inRange) (grid : Nat) {period : Nat} (hp : 0 < period) :
    (advanceToBoundary grid period s).air.offset % period = 0 := by
  rw [advanceToBoundary_air, passed_offset]
  exact (onGrid_nextBoundary s.air grid hp).reached hs

/-- The air-time part at a loop tick. -/
def AirState.ticked (b : AirInstant) (a : AirState) : AirState :=
  { a with gridDone := a.gridDone.set gridTick (some b), lastTick := a.mono }

theorem ticked_offset (b : AirInstant) (a : AirState) : (a.ticked b).offset = a.offset := rfl

theorem toTick_air {s : State} (h : s.air.step = none) :
    (toTick s).air = (s.air.passTo (nextTick s.air)).ticked (nextTick s.air) := by
  unfold toTick
  rw [h]
  rfl

theorem toTick_offset {s : State} (hs : s.air.inRange) (hstep : s.air.step = none) : (toTick s).air.offset % tcPerTick = 0 := by
  rw [toTick_air hstep, ticked_offset]
  exact (onGrid_nextTick s.air).reached hs

/-! ## What runs at a boundary leaves the counters alone -/

theorem offset_of_time {s t : State} (h : t.air.time = s.air.time) : t.air.offset = s.air.offset :=
  congrArg (fun x => x.2.1) h

theorem ingressBlock_time (n : Nat) (s : State) (x : RawBlock) : (ingressBlock n s x).air.time = s.air.time := by
  unfold ingressBlock
  split
  · rfl
  next b hb =>
    extract_lets c per sub fine at_ lo hi front down faded gapped settling valid ok pins pre run s1 post clipped seen s2 s3 blk s4
    clear_value run
    have h1 : s1.air = s.air := by
      unfold s1
      split <;> rfl
    have h2 : s2.air = s1.air := modBand_only (Only.refl 64 s1) rfl .air rfl
    have h3 : s3.air.time = s2.air.time := by
      unfold s3
      split <;> rfl
    have h4 : s4.air = s3.air := tapBlock_only (Only.refl 16384 s3) rfl .air rfl
    have h : s4.air.time = s.air.time := by rw [h4, h3, h2, h1]
    clear_value s4 blk
    split
    · exact h
    · rw [passOn_only (Only.refl 422336 _) rfl .air rfl, h]

theorem feed_time (n : Nat) (l : List RawBlock) (s : State) : (feed n l s).air.time = s.air.time :=
  foldl_keeps (fun t => t.air.time) (fun _ _ => ingressBlock_time ..) l s

theorem feedPaths_time (l : List PathBlocks) (s : State) : (feedPaths l s).air.time = s.air.time :=
  foldl_keeps (fun t => t.air.time) (fun _ _ => feed_time ..) l s

theorem tickSamples_time (i : TickInput) (s : State) : (tickSamples i s).air.time = s.air.time := by
  unfold tickSamples
  extract_lets s0 s1
  have h0 : s0.air = s.air := by
    refine foldl_keeps State.air (fun t x => ?_) _ _
    exact ite_keeps State.air (tapRaw_only (Only.refl 16384 t) rfl .air rfl)
  have h1 : s1.air = (feedPaths i.paths s0).air := (trackingLimit_only (Only.refl 68 _) rfl .air rfl).trans
    (foldl_keeps State.air (fun t _ => transmitTick_only (Only.refl 16484 t) rfl .air rfl) _ _)
  rw [foldl_keeps (f := clipTick) State.air (fun t _ => clipTick_only (Only.refl 100 t) rfl .air rfl), h1, feedPaths_time, h0]

theorem decidePhase_time (s : State) : (decidePhase s).air.time = s.air.time := by
  unfold decidePhase
  dsimp only
  split <;> rfl

theorem selectSource_time (c : Nat) (s : State) : (selectSource c s).air.time = s.air.time := decidePhase_time _

theorem loseSource_time (s : State) : (loseSource s).air.time = s.air.time := by
  simp only [loseSource, modAir_air]
  split
  · split <;> rfl
  · rfl

theorem reselect_time (s : State) : (reselect s).air.time = s.air.time := by
  unfold reselect
  dsimp only
  split
  · split
    · split
      · exact selectSource_time ..
      · rfl
    · rfl
  · split
    · exact selectSource_time ..
    · split
      · rfl
      · exact loseSource_time s

theorem phaseTick_time (s : State) : (phaseTick s).air.time = s.air.time := by
  unfold phaseTick
  dsimp only
  split
  · split
    · rfl
    · exact decidePhase_time _
  · rfl
  · rfl

theorem loopTick_offset (i : TickInput) {s : State} (hs : s.air.inRange) (hstep : s.air.step = none) :
    (loopTick i s).air.offset % 61440 = 0 := by
  unfold loopTick
  extract_lets s1 s2 s3 s4 s5 s6 s7
  have h1 : s1.air.time = (toTick s).air.time := by
    unfold s1
    rw [checkTimeLoss_only (Only.refl 4 _) rfl .air rfl, phaseTick_time, reselect_time]
  have h2 : s2.air = s1.air := foldl_keeps (f := drainQueue) State.air
    (fun t _ => drainQueue_only (Only.refl 397312 t) rfl .air rfl) _ _
  have h3 : s3.air.time = s2.air.time := tickSamples_time ..
  have h4 : s4.air = s3.air := foldl_keeps (f := donorTick) State.air
    (fun t _ => donorTick_only (Only.refl 260 t) rfl .air rfl) _ _
  have h5 : s5.air = s4.air := (takeGains_only (Only.refl 128 _) rfl .air rfl).trans
    (foldl_keeps (f := noiseTick) State.air (fun t _ => noiseTick_only (Only.refl 260 t) rfl .air rfl) _ _)
  have h6 : s6.air = s5.air := (hubLadders_only (Only.refl 266368 _) rfl .air rfl).trans
    (foldl_keeps (f := riseCap) State.air (fun t _ => riseCap_only (Only.refl 384 t) rfl .air rfl) _ _)
  have h7 : s7.air = s6.air :=
    (reportStacks_only (Only.refl 256 _) rfl .air rfl).trans (refreshGains_only (Only.refl 452 _) rfl .air rfl)
  have h : s7.air.offset = (toTick s).air.offset := by rw [h7, h6, h5, h4, offset_of_time h3, h2, offset_of_time h1]
  have htick := toTick_offset hs hstep
  split
  · rw [sendStatus_only (Only.refl 266496 _) rfl .air rfl, h]
    exact htick
  · rw [h]
    exact htick

theorem slotPeriod_pos {a : AirState} (h : a.slotMu ≤ 4) : 0 < slotPeriod a :=
  Nat.div_pos ((Nat.pow_le_pow_right (by decide) h).trans (by decide)) (Nat.two_pow_pos _)

theorem slotBoundary_offset {s : State} (hs : s.air.inRange) (hmu : s.air.slotMu ≤ 4) :
    (slotBoundary s).air.offset % slotPeriod s.air = 0 := by
  have h : (slotBoundary s).air = (advanceToBoundary gridSlot (slotPeriod s.air) s).air := by
    unfold slotBoundary
    rw [admitAcquired_only (Only.refl 452 _) rfl .air rfl, dpdSlot_only (Only.refl 1088 _) rfl .air rfl]
    exact lgSlot_only (Only.refl 452 _) rfl .air rfl
  rw [h]
  exact advanceToBoundary_offset hs _ (slotPeriod_pos hmu)

theorem subframeBoundary_offset {s : State} (hs : s.air.inRange) : (subframeBoundary s).air.offset % 1966080 = 0 := by
  unfold subframeBoundary
  rw [pairSubframe_only (Only.refl 331784 _) rfl .air rfl]
  exact advanceToBoundary_offset hs _ (by decide)

theorem ppsFrame_time (s : State) : (ppsFrame s).air.time = s.air.time := rfl

theorem frameBoundary_offset (i : FrameInput) {s : State} (hs : s.air.inRange) : (frameBoundary i s).air.offset = 0 := by
  unfold frameBoundary
  extract_lets s1
  have h1 : s1.air.time = (advanceToBoundary gridFrame tcPerFrame s).air.time := by
    unfold s1
    rw [dvFrame_only (Only.refl 274436 _) rfl .air rfl, flFrame_only (Only.refl 266496 _) rfl .air rfl, ppsFrame_time]
  have hgrid : (advanceToBoundary gridFrame tcPerFrame s).air.offset % tcPerFrame = 0 :=
    advanceToBoundary_offset hs _ (by decide)
  have hrange : (advanceToBoundary gridFrame tcPerFrame s).air.offset < tcPerFrame := ((advanceToBoundary_clock (Clock.refl s)).1 hs).2.1
  have h : s1.air.offset = 0 := by rw [offset_of_time h1, ← Nat.mod_eq_of_lt hrange, hgrid]
  split
  · exact h
  · rw [seekAdmission_only (Only.refl 274560 _) rfl .air rfl, h]

/-! ## TDD patterns (R52–R54) -/

theorem advanceToAir_patterns (i : AirInstant) (s : State) : (advanceToAir i s).air.patterns = s.air.patterns :=
  passTo_patterns s.air i

theorem tddPatternEffective_pattern {p f : Nat} {d : PatternDef} {s : State} (h : (s.pattern p).waiting = some (f, d)) :
    (tddPatternEffective p s).pattern p = applyPattern f d (s.pattern p) := by
  unfold tddPatternEffective
  rw [h]
  dsimp -zeta only
  extract_lets s1 changed s2
  have h2 : s2.air = s1.air := ite_keeps State.air (patternClears_only (Only.refl 1024 s1) rfl .air rfl)
  change (refreshGains _).air.patterns.get p = _
  rw [refreshGains_keeps_air]
  change (s2.air.patterns.mod p (applyPattern f d)).get p = _
  rw [get_mod_same, h2, advanceToAir_patterns]

theorem judgeWindow_verified {p : Nat} {fitted r : Int} {d : PatternDef} {powers : List (Option Int)} {x : Pattern} {s : State}
    (hratio : segmentRatio d.segments powers = some r) (hr : 10 * (d.verifyRatio : Int) ≤ r) (htol : fitted.natAbs ≤ d.tol) :
    ((judgeWindow p fitted d powers x s).pattern p).state = .verified ∧ ((judgeWindow p fitted d powers x s).pattern p).fails = 0 := by
  unfold judgeWindow
  rw [hratio]
  extract_lets ratio pass y s1 bad s2
  have hpass : pass = true := by
    unfold pass
    rw [Bool.and_eq_true]
    exact ⟨decide_eq_true (by push_cast; exact hr), decide_eq_true htol⟩
  have h1 : s1.pattern p = { y with state := .verified, fails := 0, passed := y.passed + 1 } := get_set_same ..
  rw [if_pos hpass]
  split
  · rw [h1]
    exact ⟨rfl, rfl⟩
  · have hair : (postNotice 0x0202 p (unsignedOf 32 y.ratio) s1).air = s1.air := postNotice_keeps_air
    rw [State.pattern, hair]
    exact ⟨congrArg Pattern.state h1, congrArg Pattern.fails h1⟩

theorem tddVerifyWindowEnd_pattern {p : Nat} {fitted : Int} {d : PatternDef} {s : State} (hd : (s.pattern p).defn = some d)
    (href : d.refKind ≠ 0) (hunset : (s.pattern p).state ≠ .unset) (hasserted : (s.pattern p).state ≠ .asserted) :
    (windowVoid d.segments ((s.pattern p).powers.map PowerSum.mean) →
      ((tddVerifyWindowEnd p fitted s).pattern p).state = (s.pattern p).state) ∧
    ∀ r, ¬windowVoid d.segments ((s.pattern p).powers.map PowerSum.mean) →
      segmentRatio d.segments ((s.pattern p).powers.map PowerSum.mean) = some r → 10 * (d.verifyRatio : Int) ≤ r →
      fitted.natAbs ≤ d.tol → ((tddVerifyWindowEnd p fitted s).pattern p).state = .verified ∧
        ((tddVerifyWindowEnd p fitted s).pattern p).fails = 0 := by
  unfold tddVerifyWindowEnd
  extract_lets x
  rw [show x.defn = some d from hd]
  dsimp -zeta only
  rw [if_neg (by rintro (h | h | h) <;> contradiction)]
  extract_lets s0 y
  refine ⟨fun hvoid => ?_, fun r hvoid hratio hr htol => ?_⟩
  · rw [if_pos hvoid]
    have h : ((s0.modAir (fun a => { a with patterns := a.patterns.set p y })).pattern p) = y := get_set_same ..
    rw [h]
  · rw [if_neg hvoid]
    exact judgeWindow_verified hratio hr htol

/-- Settles O18: the counters stand on the boundary that time has passed up to, whatever runs there; a pattern's change and its
verification write one pattern. -/
theorem gridBoundariesAndPatterns : Obligations.GridBoundariesAndPatterns := by
  unfold Obligations.GridBoundariesAndPatterns
  intro s i j p f m late d r
  refine ⟨fun hs hstep => ?_, fun hs hmu => ?_, fun hs => ?_, fun hs => ?_, fun h => ?_, fun hd href hunset hasserted => ?_⟩
  · exact runs_of_only (t := loopTick i s) rfl execLoopTick_only (by decide) (loopTick_offset i hs hstep)
  · exact runs_of_only (t := slotBoundary s) rfl execSlotBoundary_only (by decide) (slotBoundary_offset hs hmu)
  · exact runs_of_only (t := subframeBoundary s) rfl execSubframeBoundary_only (by decide) (subframeBoundary_offset hs)
  · exact runs_of_only (t := frameBoundary j s) rfl execFrameBoundary_only (by decide) (frameBoundary_offset j hs)
  · refine runs_of_only (t := tddPatternEffective p s) rfl execTddPatternEffective_only (by decide) ?_
    rw [tddPatternEffective_pattern h]
    exact ⟨rfl, rfl, rfl⟩
  · obtain ⟨hvoid, hverified⟩ := tddVerifyWindowEnd_pattern (fitted := if late then (m : Int) else -(m : Int)) hd href hunset
      hasserted
    refine runs_of_only (t := tddVerifyWindowEnd p (if late then (m : Int) else -(m : Int)) s) rfl execTddVerifyWindowEnd_only
      (by decide) ⟨_, rfl, hvoid, fun hv hratio hr htol => hverified r hv hratio hr ?_⟩
    cases late
    · simpa using htol
    · simpa using htol

end Sys2Proof.Machine
end

section
set_option Elab.async false
/-! The loop guard beyond its loop records: the evaluation of loops and gains changes the loop records only, so that the commands'
changes stand as their slot boundary applied them. -/

namespace Sys2Proof.Machine

open Sys2Proof

/-- The loop guard without the loop records. -/
def LgState.beyond (g : LgState) : LgState := { g with loops := Bank.fill none }

theorem beyond_fields {g h : LgState} (e : g.beyond = h.beyond) : g.waiting = h.waiting ∧ g.policy = h.policy ∧
    g.conducted = h.conducted ∧ g.canc = h.canc ∧ g.hubHold = h.hubHold ∧ g.oscTotal = h.oscTotal :=
  ⟨(congrArg LgState.waiting e :), (congrArg LgState.policy e :), (congrArg LgState.conducted e :), (congrArg LgState.canc e :),
    (congrArg LgState.hubHold e :), (congrArg LgState.oscTotal e :)⟩

theorem modLoop_beyond (e : Nat) (f : Loop → Loop) (s : State) : (modLoop e f s).lg.beyond = s.lg.beyond := by
  change (if (s.lg.loops.get e).isSome then _ else s.lg : LgState).beyond = s.lg.beyond
  split <;> rfl

theorem writeCap_lg (e : Nat) (s : State) : (writeCap e s).lg = s.lg := writeCap_only (Only.refl 256 s) rfl .lg rfl

theorem noteMargin_beyond (e : Nat) (below : Bool) (s : State) : (noteMargin e below s).lg.beyond = s.lg.beyond := by
  unfold noteMargin
  split
  · exact modLoop_beyond ..
  · dsimp only
    split
    · exact modLoop_beyond ..
    · rw [endFault_only (Only.refl 4 _) rfl .lg rfl, modLoop_beyond]

theorem applyCap_lg (e : Nat) (s : State) : (applyCap e s).lg = s.lg := by
  unfold applyCap
  dsimp only
  split
  · rw [raiseLevel_only (Only.refl 4 _) rfl .lg rfl, writeCap_lg]
  · exact writeCap_lg ..

theorem evalLoop_beyond (e : Nat) (s : State) : (evalLoop e s).lg.beyond = s.lg.beyond := by
  unfold evalLoop
  split
  · split
    · rw [writeCap_lg]
    · split
      · split
        · rw [applyCap_lg, noteMargin_beyond, modLoop_beyond]
        · dsimp only
          rw [applyCap_lg, noteMargin_beyond]
          split
          · exact modLoop_beyond ..
          · rfl
      · rw [applyCap_lg]
  · rfl

theorem refreshGains_beyond (s : State) : (refreshGains s).lg.beyond = s.lg.beyond := by
  unfold refreshGains
  extract_lets s0 s1 s2
  have h0 : s0.lg = s.lg := foldl_keeps State.lg (fun _ _ => noteGap_only (Only.refl 64 _) rfl .lg rfl) _ _
  have h1 : s1.lg = s0.lg := foldl_keeps (f := refreshOne) State.lg (fun _ _ => rfl) _ _
  have h2 : s2.lg.beyond = s1.lg.beyond := foldl_keeps (fun t => t.lg.beyond) (fun _ _ => evalLoop_beyond ..) _ _
  rw [foldl_keeps (f := refreshOne) State.lg (fun _ _ => rfl) _ _, h2, h1, h0]

theorem restartLoop_beyond (e : Nat) (m : Option QualMode) (c : Bool) (s : State) :
    (restartLoop e m c s).lg.beyond = s.lg.beyond := by
  unfold restartLoop
  split
  · rfl
  · dsimp only
    rw [writeCap_lg, endFault_only (Only.refl 4 _) rfl .lg rfl, endFault_only (Only.refl 4 _) rfl .lg rfl, modLoop_beyond]

theorem reviewClosure_beyond (e : Nat) (s : State) : (reviewClosure e s).lg.beyond = s.lg.beyond := by
  unfold reviewClosure
  split
  · split
    · rfl
    · split
      · rfl
      · exact restartLoop_beyond ..
  · rfl

theorem enterOpen_beyond (e : Nat) (s : State) : (enterOpen e s).lg.beyond = s.lg.beyond := by
  rw [enterOpen, refreshGains_beyond, writeCap_lg, modLoop_beyond]

theorem enterGuarded_beyond (e : Nat) (cap : Option Int) (s : State) : (enterGuarded e cap s).lg.beyond = s.lg.beyond := by
  rw [enterGuarded, refreshGains_beyond, writeCap_lg, modLoop_beyond]

theorem admitAcquired_beyond (s : State) : (admitAcquired s).lg.beyond = s.lg.beyond := by
  unfold admitAcquired
  refine foldl_keeps (fun t => t.lg.beyond) (fun acc p => ?_) _ _
  split
  · split
    · split
      · exact enterOpen_beyond ..
      · split
        · exact enterGuarded_beyond ..
        · rfl
    · rfl
  · rfl

/-! ## Waiting changes at a slot boundary -/

/-- What the commands of the loop guard set at a slot boundary. -/
def LgState.commanded (g : LgState) : List (Nat × List Byte) × LgPolicy × List Nat := (g.waiting, g.policy, g.conducted)

theorem commanded_of_beyond {g h : LgState} (e : g.beyond = h.beyond) : g.commanded = h.commanded :=
  (congrArg LgState.commanded e :)

theorem slotBoundary_commanded (s : State) : (slotBoundary s).lg.commanded =
    (lgSlot (advanceToBoundary gridSlot (slotPeriod s.air) s)).lg.commanded := by
  unfold slotBoundary
  extract_lets s1
  rw [commanded_of_beyond (admitAcquired_beyond _), dpdSlot_only (Only.refl 1088 _) rfl .lg rfl]
  rfl

/-- A slot boundary leaves no change waiting. -/
theorem lgSlot_waiting (s : State) : (lgSlot s).lg.waiting = [] := by
  unfold lgSlot
  split
  next h => exact List.isEmpty_iff.mp h
  next => exact (beyond_fields (refreshGains_beyond _)).1

theorem lgSlot_one {s : State} {x : Nat × List Byte} (h : s.lg.waiting = [x]) :
    (lgSlot s).lg.policy = (applyLg s x).lg.policy ∧ (lgSlot s).lg.conducted = (applyLg s x).lg.conducted := by
  unfold lgSlot
  rw [if_neg (by rw [h]; exact Bool.false_ne_true)]
  obtain ⟨-, hpolicy, hconducted, -⟩ := beyond_fields (refreshGains_beyond (lgView s))
  rw [hpolicy, hconducted, lgView, h]
  exact ⟨rfl, rfl⟩

/-- The policy that an LG_POLICY payload gives. -/
def policyOf (p : List Byte) : LgPolicy :=
  { oscMargin := (u32 p 0 : Int), oscGain := s32 p 4, lineGrowth := (u32 p 8 : Int), holdoff := u32 p 12
    mutesToPen := u8 p 16, penWindow := u16 p 18, retryDrop := (u32 p 20 : Int) }

theorem applyLg_policy (s : State) (p : List Byte) : (applyLg s (0x0506, p)).lg.policy = policyOf p := by
  unfold applyLg
  dsimp only
  rw [if_neg (by decide), if_neg (by decide), if_neg (by decide), if_neg (by decide)]
  rfl

theorem applyLg_conducted {s : State} {p : List Byte} (hdir : u8 p 0 = 0) (hmark : u8 p 2 = 1) :
    u8 p 1 ∈ (applyLg s (0x0501, p)).lg.conducted := by
  unfold applyLg
  rw [if_pos rfl, if_pos hdir]
  extract_lets n s1
  have h1 : s1.lg.conducted = n :: without s.lg.conducted n := if_pos hmark
  obtain ⟨-, -, hconducted, -⟩ := beyond_fields (foldl_keeps (f := fun acc e => reviewClosure e acc) (fun t => t.lg.beyond)
    (fun _ _ => reviewClosure_beyond ..) (fedBy s1 n) s1)
  rw [hconducted, h1]
  exact List.mem_cons_self

theorem modLoop_loop {e : Nat} (f : Loop → Loop) {s : State} : (modLoop e f s).loop e = (s.loop e).map f := by
  change (if (s.lg.loops.get e).isSome then _ else s.lg : LgState).loops.get e = (s.lg.loops.get e).map f
  split
  · exact get_mod_same ..
  next h => rw [Option.not_isSome_iff_eq_none.mp h]; rfl

/-- Settles O27: the commands append their change, and a slot boundary applies every waiting one; the gains that follow leave
them alone. -/
theorem loopGuardCommandsTakeEffectAtSlot : Obligations.LoopGuardCommandsTakeEffectAtSlot := by
  unfold Obligations.LoopGuardCommandsTakeEffectAtSlot
  intro r s
  refine ⟨?_, fun hacc hsome => ?_, ?_, ?_, ?_, ?_, ?_⟩
  · exact does_of_only rfl rfl specLgLoopConfig_only (by decide) (fun _ _ => ⟨rfl, rfl⟩) fun h => submit_after h .lg rfl
  · refine runs_of_accepts rfl specLgBeaconConfig_only (by decide) hacc ⟨rfl, rfl⟩ ?_
    have hlg : (submit specLgBeaconConfig r s).lg = _ := submit_after hacc .lg rfl
    rw [State.loop, hlg]
    obtain ⟨l, hl⟩ := Option.isSome_iff_exists.mp hsome
    have hloop := modLoop_loop (fun l => { l with beaconNext := some (beaconOf r.payload) }) (e := r.u8 0) (s := s)
    rw [hl] at hloop
    exact congrArg (fun x => x.bind (fun l => l.beaconNext)) hloop
  · exact does_of_only rfl rfl specLgCancelConfig_only (by decide) (fun _ _ => ⟨rfl, rfl⟩) fun h => submit_after h .lg rfl
  · exact does_of_only rfl rfl specLgCancelControl_only (by decide) (fun _ _ => ⟨rfl, rfl⟩) fun h => submit_after h .lg rfl
  · exact does_of_only rfl rfl specLgSearchConfig_only (by decide) (fun _ _ => ⟨rfl, rfl⟩) fun h => submit_after h .lg rfl
  · exact does_of_only rfl rfl specLgPolicy_only (by decide) (fun _ _ => ⟨rfl, rfl⟩) fun h => submit_after h .lg rfl
  · have hslot := slotBoundary_commanded s
    have hwait : (advanceToBoundary gridSlot (slotPeriod s.air) s).lg.waiting = s.lg.waiting :=
      congrArg LgState.waiting advanceToBoundary_keeps_lg
    have hwaiting : (slotBoundary s).lg.waiting = _ := congrArg Prod.fst hslot
    have hpolicy : (slotBoundary s).lg.policy = _ := congrArg (fun x => x.2.1) hslot
    have hconducted : (slotBoundary s).lg.conducted = _ := congrArg (fun x => x.2.2) hslot
    refine runs_of_only (t := slotBoundary s) rfl execSlotBoundary_only (by decide) ⟨?_, fun hone => ?_, fun hone hdir hmark => ?_⟩
    · rw [hwaiting]
      exact lgSlot_waiting _
    · rw [hpolicy]
      exact (lgSlot_one (hwait.trans hone)).1.trans (applyLg_policy ..)
    · rw [hconducted]
      change _ ∈ (lgSlot _).lg.conducted
      rw [(lgSlot_one (hwait.trans hone)).2]
      exact applyLg_conducted hdir hmark

end Sys2Proof.Machine
end

section
set_option Elab.async false
/-! What becomes of a loop record (R118–R132, R139–R143): blocks on their way leave it alone, the evaluation at a gain moves it
between GUARDED and LADDER only, and whatever follows a measurement keeps the measurement's number and validity. -/

namespace Sys2Proof.Machine

open Sys2Proof

/-! ## Blocks leave the loops, the parameters and the pens alone -/

/-- The loop guard without its canceller instances. -/
def LgState.beyondCanc (g : LgState) : LgState := { g with canc := Bank.fill {} }

theorem beyondCanc_fields {g h : LgState} (e : g.beyondCanc = h.beyondCanc) : g.loops = h.loops ∧ g.hubHold = h.hubHold ∧
    g.oscTotal = h.oscTotal ∧ g.policy = h.policy :=
  ⟨(congrArg LgState.loops e :), (congrArg LgState.hubHold e :), (congrArg LgState.oscTotal e :), (congrArg LgState.policy e :)⟩

/-- From `s` to `t` blocks have passed: the loop guard differs in its cancellers only, an egress band path keeps its parameters,
and the part its member ID. -/
structure Carried (s t : State) : Prop where
  lg : t.lg.beyondCanc = s.lg.beyondCanc
  params : ∀ e, (t.ce.eb.get e).map (fun b => b.params) = (s.ce.eb.get e).map (fun b => b.params)
  member : t.fl.memberId = s.fl.memberId

theorem Carried.refl (s : State) : Carried s s := ⟨rfl, fun _ => rfl, rfl⟩

theorem Carried.trans {s t u : State} (h : Carried s t) (k : Carried t u) : Carried s u :=
  ⟨k.lg.trans h.lg, fun e => (k.params e).trans (h.params e), k.member.trans h.member⟩

theorem Carried.of_parts {s t : State} (hlg : t.lg.beyondCanc = s.lg.beyondCanc) (hce : t.ce = s.ce)
    (hmember : t.fl.memberId = s.fl.memberId) : Carried s t := ⟨hlg, fun _ => by rw [hce], hmember⟩

theorem Carried.foldl {α : Type} {f : State → α → State} (hf : ∀ s x, Carried s (f s x)) (l : List α) (s : State) :
    Carried s (l.foldl f s) := by
  induction l generalizing s with
  | nil => exact .refl s
  | cons x l ih => exact (hf s x).trans (ih _)

theorem pushRefs_beyondCanc (f : Canceller → Bool) (per : Nat) (at_ : Canceller → AirInstant) (l : List (Cx × Bool)) (s : State) :
    (pushRefs f per at_ l s).lg.beyondCanc = s.lg.beyondCanc := rfl

theorem modBand_params (d : Dir) (n : Nat) {f : BandPath → BandPath} (hf : ∀ b, (f b).params = b.params) (s : State) (e : Nat) :
    ((modBand d n f s).ce.eb.get e).map (fun b => b.params) = (s.ce.eb.get e).map (fun b => b.params) := by
  cases d with
  | ingress =>
    change ((if (s.ce.ib.get n).isSome then _ else s.ce : CeState).eb.get e).map _ = _
    split <;> rfl
  | egress =>
    change ((if (s.ce.eb.get n).isSome then _ else s.ce : CeState).eb.get e).map _ = _
    split
    · by_cases h : e = n
      · subst h
        change ((s.ce.eb.mod e _).get e).map _ = _
        rw [get_mod_same]
        cases s.ce.eb.get e with
        | none => rfl
        | some b => exact congrArg some (hf b)
      · change ((s.ce.eb.mod n _).get e).map _ = _
        rw [get_mod_other (h := h)]
    · rfl

theorem carried_egressBlock (e : Nat) (pin : AirInstant) (blk : Block) (s : State) : Carried s (egressBlock e pin blk s) := by
  obtain ⟨f, hce, hf⟩ := egressBlock_ce e pin blk s
  refine ⟨?_, fun n => ?_, congrArg FlState.memberId (egressBlock_only (Only.refl 16576 s) rfl .fl rfl)⟩
  · unfold egressBlock
    split
    · rfl
    · extract_lets per g gain wave delay t0 zeroed ok one l clipped rec_
      clear_value rec_ l clipped
      rw [tapBlock_only (Only.refl 16384 _) rfl .lg rfl, pushRefs_beyondCanc, modBand_only (Only.refl 64 s) rfl .lg rfl]
  · rw [hce]
    exact modBand_params .egress e (fun b => (hf b).1) s n

theorem sendOwn_beyondCanc (n per : Nat) (blk : Block) (s : State) (f : Nat) :
    (sendOwn n per blk s f).lg.beyondCanc = s.lg.beyondCanc := by
  unfold sendOwn
  extract_lets p own b s1 s2
  have h2 : s2.lg = s.lg := by
    unfold s2
    split
    · rfl
    · exact (sendGrouped_only (Only.refl 405504 _) rfl .lg rfl).trans rfl
  exact (pushRefs_beyondCanc ..).trans (congrArg LgState.beyondCanc h2)

theorem carried_passOn (n : Nat) (b : BandPath) (blk : Block) (s : State) : Carried s (passOn n b blk s) := by
  unfold passOn
  extract_lets held silence gap s1
  refine (Carried.foldl (fun acc f => ?_) _ _).trans (Carried.foldl (fun acc e => ?_) _ _)
  · exact .of_parts (sendOwn_beyondCanc ..) (sendOwn_ce ..) (sendOwn_memberId ..)
  · split
    · exact carried_egressBlock ..
    · exact .refl acc

theorem carried_ingressBlock (n : Nat) (s : State) (x : RawBlock) : Carried s (ingressBlock n s x) := by
  unfold ingressBlock
  split
  · exact .refl s
  next b hb =>
    extract_lets c per sub fine at_ lo hi front down faded gapped settling valid ok pins pre run s1 post clipped seen s2 s3 blk s4
    clear_value run
    have h1 : Carried s s1 := by
      unfold s1
      split <;> exact .of_parts rfl rfl rfl
    have h2 : Carried s1 s2 := by
      refine ⟨congrArg LgState.beyondCanc (modBand_only (Only.refl 64 s1) rfl .lg rfl), modBand_params .ingress n ?_ s1,
        congrArg FlState.memberId (modBand_only (Only.refl 64 s1) rfl .fl rfl)⟩
      exact fun _ => rfl
    have h3 : Carried s2 s3 := by
      unfold s3
      split
      · exact .of_parts rfl rfl rfl
      · exact .refl ..
    have h4 : Carried s3 s4 := .of_parts (congrArg LgState.beyondCanc (tapBlock_only (Only.refl 16384 s3) rfl .lg rfl))
      (tapBlock_only (Only.refl 16384 s3) rfl .ce rfl) (congrArg FlState.memberId (tapBlock_only (Only.refl 16384 s3) rfl .fl rfl))
    have h := ((h1.trans h2).trans h3).trans h4
    clear_value s4 blk
    split
    · exact h.trans (.of_parts rfl rfl rfl)
    · exact h.trans (carried_passOn ..)

theorem carried_feed (n : Nat) (l : List RawBlock) (s : State) : Carried s (feed n l s) :=
  .foldl (fun _ _ => carried_ingressBlock ..) l s

theorem carried_feedPaths (l : List PathBlocks) (s : State) : Carried s (feedPaths l s) :=
  .foldl (fun _ _ => carried_feed ..) l s

theorem carried_advanceToBoundary (key period : Nat) (s : State) : Carried s (advanceToBoundary key period s) :=
  .of_parts (congrArg LgState.beyondCanc advanceToBoundary_keeps_lg) advanceToBoundary_keeps_ce
    (congrArg FlState.memberId advanceToBoundary_keeps_fl)

theorem Carried.loop {s t : State} (h : Carried s t) (e : Nat) : t.loop e = s.loop e :=
  congrArg (fun b => b.get e) (beyondCanc_fields h.lg).1

/-- Whether an egress band path is penned is a matter of the pens, its parameters and the part's member. -/
theorem Carried.penned {s t : State} (h : Carried s t) (hfault : t.fault = s.fault) (e : Nat) :
    penned t (ebUnit e) = penned s (ebUnit e) := by
  have hown : ownMember t = ownMember s := by rw [ownMember, h.member, ownMember]
  have hchain : ebChain t e = ebChain s e := by
    have hc := congrArg (Option.map BpParams.chain) (h.params e)
    rw [Option.map_map, Option.map_map] at hc
    exact congrArg (fun o => o.getD 8) hc
  have hcontainers : containers t (ebUnit e) = containers s (ebUnit e) := by
    change [chainUnit (ebChain t e), cassetteUnit (ebChain t e - 8), memberUnit (ownMember t), partUnit] =
      [chainUnit (ebChain s e), cassetteUnit (ebChain s e - 8), memberUnit (ownMember s), partUnit]
    rw [hchain, hown]
  have hpattern (x : State) : onPattern x (ebUnit e) =
      (((x.ce.eb.get e).map (fun b => b.params)).map (fun p => p.tdd.isSome)).getD false := by
    change (match x.ce.eb.get e with
      | some b => b.params.tdd.isSome
      | none => false) = _
    cases x.ce.eb.get e <;> rfl
  rw [Machine.penned, Machine.penned, hfault, hcontainers, hpattern, hpattern, h.params]

/-! ## Relations between loop records -/

/-- A relation that a chain of changes may be followed along. -/
structure Follows (R : Loop → Loop → Prop) : Prop where
  refl : ∀ l, R l l
  trans : ∀ {a b c}, R a b → R b c → R a c

/-- Every loop record of `s` has one in `t` to which `R` relates it. -/
structure LoopsAre (R : Loop → Loop → Prop) (s t : State) : Prop where
  get : ∀ e l, s.loop e = some l → ∃ k, t.loop e = some k ∧ R l k

section
set_option Elab.async false

variable {R : Loop → Loop → Prop} (hR : Follows R)

include hR

theorem LoopsAre.of_loops {s t : State} (h : t.lg.loops = s.lg.loops) : LoopsAre R s t :=
  ⟨fun e l hl => ⟨l, (congrArg (fun b => b.get e) h).trans hl, hR.refl l⟩⟩

theorem LoopsAre.of_lg {s t : State} (h : t.lg = s.lg) : LoopsAre R s t := .of_loops hR (congrArg LgState.loops h)

theorem LoopsAre.trans {s t u : State} (h : LoopsAre R s t) (k : LoopsAre R t u) : LoopsAre R s u := by
  refine ⟨fun e l hl => ?_⟩
  obtain ⟨x, hx, hlx⟩ := h.get e l hl
  obtain ⟨y, hy, hxy⟩ := k.get e x hx
  exact ⟨y, hy, hR.trans hlx hxy⟩

theorem LoopsAre.foldl {α : Type} {f : State → α → State} (hf : ∀ s x, LoopsAre R s (f s x)) (l : List α) (s : State) :
    LoopsAre R s (l.foldl f s) := by
  induction l generalizing s with
  | nil => exact .of_lg hR rfl
  | cons x l ih => exact .trans hR (hf s x) (ih _)

omit hR in
theorem modLoop_other {e n : Nat} (h : n ≠ e) (f : Loop → Loop) (s : State) : (modLoop e f s).loop n = s.loop n := by
  change (if (s.lg.loops.get e).isSome then _ else s.lg : LgState).loops.get n = s.lg.loops.get n
  split
  · exact get_mod_other (h := h) ..
  · rfl

theorem LoopsAre.modLoop {e : Nat} {f : Loop → Loop} {s : State} (hf : ∀ l, s.loop e = some l → R l (f l)) :
    LoopsAre R s (modLoop e f s) := by
  refine ⟨fun n l hl => ?_⟩
  by_cases h : n = e
  · subst h
    exact ⟨f l, by rw [modLoop_loop, hl]; rfl, hf l hl⟩
  · exact ⟨l, (modLoop_other h f s).trans hl, hR.refl l⟩

theorem LoopsAre.noteMargin (hlow : ∀ l x, R l { l with lowSince := x }) (e : Nat) (below : Bool) (s : State) :
    LoopsAre R s (noteMargin e below s) := by
  unfold Machine.noteMargin
  split
  · exact .modLoop hR fun l _ => hlow l _
  · dsimp only
    split
    · exact .modLoop hR fun l _ => hlow l _
    · exact .trans hR (.modLoop hR fun l _ => hlow l none) (.of_lg hR (endFault_only (Only.refl 4 _) rfl .lg rfl))

end

/-! ## Evaluation at a gain -/

/-- A loop record that has been evaluated: GUARDED may have fallen to LADDER, and any other state stands with its cap. -/
structure Evaluated (l k : Loop) : Prop where
  seq : k.seq = l.seq
  valid : k.valid = l.valid
  mutes : k.muteCount = l.muteCount
  hub : (k.hubCap, k.hubGrant, k.hubNext) = (l.hubCap, l.hubGrant, l.hubNext)
  still : l.state ≠ .guarded → k.state = l.state ∧ k.cap = l.cap
  guarded : l.state = .guarded → k.state = .guarded ∨ k.state = .ladder

theorem Evaluated.refl (l : Loop) : Evaluated l l := ⟨rfl, rfl, rfl, rfl, fun _ => ⟨rfl, rfl⟩, .inl⟩

theorem Evaluated.trans {a b c : Loop} (h : Evaluated a b) (k : Evaluated b c) : Evaluated a c := by
  refine ⟨k.seq.trans h.seq, k.valid.trans h.valid, k.mutes.trans h.mutes, k.hub.trans h.hub, fun hn => ?_, fun hg => ?_⟩
  · obtain ⟨hs, hc⟩ := h.still hn
    obtain ⟨hs', hc'⟩ := k.still (hs ▸ hn)
    exact ⟨hs'.trans hs, hc'.trans hc⟩
  · rcases h.guarded hg with hb | hb
    · exact k.guarded hb
    · exact .inr ((k.still (by rw [hb]; decide)).1.trans hb)

theorem evaluated_follows : Follows Evaluated := ⟨.refl, .trans⟩

theorem Evaluated.low (l : Loop) (x : Option Nat) : Evaluated l { l with lowSince := x } :=
  ⟨rfl, rfl, rfl, rfl, fun _ => ⟨rfl, rfl⟩, .inl⟩

theorem evalLoop_evaluated (e : Nat) (s : State) : LoopsAre Evaluated s (evalLoop e s) := by
  have hnote (below : Bool) (t : State) : LoopsAre Evaluated t (applyCap e (noteMargin e below t)) :=
    .trans evaluated_follows (.noteMargin evaluated_follows Evaluated.low e below t) (.of_lg evaluated_follows (applyCap_lg ..))
  unfold evalLoop
  split
  next b l hb hl =>
    split
    · exact .of_lg evaluated_follows (writeCap_lg ..)
    · split
      · split
        next hguard =>
          refine LoopsAre.trans evaluated_follows (.modLoop evaluated_follows fun k hk => ?_) (hnote ..)
          obtain rfl : l = k := Option.some.inj (hl.symm.trans hk)
          exact ⟨rfl, rfl, rfl, rfl, fun hn => absurd hguard.1 hn, .inl⟩
        next =>
          dsimp only
          refine LoopsAre.trans evaluated_follows ?_ (hnote ..)
          split
          next hbelow =>
            refine .modLoop evaluated_follows fun k hk => ?_
            obtain rfl : l = k := Option.some.inj (hl.symm.trans hk)
            exact ⟨rfl, rfl, rfl, rfl, fun hn => absurd hbelow.1 hn, fun _ => .inr rfl⟩
          next => exact .of_lg evaluated_follows rfl
      · exact .of_lg evaluated_follows (applyCap_lg ..)
  · exact .of_lg evaluated_follows rfl

theorem refreshGains_evaluated (s : State) : LoopsAre Evaluated s (refreshGains s) := by
  unfold refreshGains
  extract_lets s0 s1 s2
  have h0 : s0.lg = s.lg := foldl_keeps State.lg (fun _ _ => noteGap_only (Only.refl 64 _) rfl .lg rfl) _ _
  have h1 : s1.lg = s0.lg := foldl_keeps (f := refreshOne) State.lg (fun _ _ => rfl) _ _
  have h2 : LoopsAre Evaluated s1 s2 := .foldl evaluated_follows (fun _ _ => evalLoop_evaluated ..) _ _
  refine LoopsAre.trans evaluated_follows (.of_lg evaluated_follows (h1.trans h0)) (.trans evaluated_follows h2 (.of_lg evaluated_follows ?_))
  exact foldl_keeps (f := refreshOne) State.lg (fun _ _ => rfl) _ _

/-! ## What follows a measurement -/

/-- A loop record with the same measurement: its number and whether it is valid. -/
structure SameReading (l k : Loop) : Prop where
  seq : k.seq = l.seq
  valid : k.valid = l.valid

theorem SameReading.refl (l : Loop) : SameReading l l := ⟨rfl, rfl⟩

theorem SameReading.trans {a b c : Loop} (h : SameReading a b) (k : SameReading b c) : SameReading a c :=
  ⟨k.seq.trans h.seq, k.valid.trans h.valid⟩

theorem reading_follows : Follows SameReading := ⟨.refl, .trans⟩

theorem Evaluated.reading {l k : Loop} (h : Evaluated l k) : SameReading l k := ⟨h.seq, h.valid⟩

/-- Every loop record keeps its measurement. -/
abbrev Readings (s t : State) : Prop := LoopsAre SameReading s t

theorem Readings.of_lg {s t : State} (h : t.lg = s.lg) : Readings s t := LoopsAre.of_lg reading_follows h

theorem Readings.trans {s t u : State} (h : Readings s t) (k : Readings t u) : Readings s u := LoopsAre.trans reading_follows h k

theorem readings_modLoop (e : Nat) {f : Loop → Loop} (s : State)
    (hf : ∀ l, SameReading l (f l) := by exact fun _ => ⟨rfl, rfl⟩) : Readings s (modLoop e f s) :=
  .modLoop reading_follows fun l _ => hf l

theorem readings_refreshGains (s : State) : Readings s (refreshGains s) := by
  refine ⟨fun e l hl => ?_⟩
  obtain ⟨k, hk, h⟩ := (refreshGains_evaluated s).get e l hl
  exact ⟨k, hk, h.reading⟩

theorem readings_restartLoop (e : Nat) (m : Option QualMode) (c : Bool) (s : State) : Readings s (restartLoop e m c s) := by
  unfold restartLoop
  split
  · exact .of_lg rfl
  · dsimp only
    exact (readings_modLoop e s).trans (.of_lg ((writeCap_lg ..).trans
      ((endFault_only (Only.refl 4 _) rfl .lg rfl).trans (endFault_only (Only.refl 4 _) rfl .lg rfl))))

theorem readings_loopChanged (e : Nat) (s : State) : Readings s (loopChanged e s) := by
  unfold loopChanged
  split
  · exact .of_lg rfl
  · split
    · exact .of_lg rfl
    · exact readings_restartLoop ..

theorem takeMeasure_loops (i : Nat) (c1 : Int) (per : Nat) (k : Canceller) (u : UnitId) (s : State) :
    (takeMeasure i c1 per k u s).lg.loops = s.lg.loops := by
  unfold takeMeasure
  extract_lets r s1
  have h1 : s1.lg.loops = s.lg.loops := rfl
  split
  · rw [raiseLevel_only (Only.refl 4 _) rfl .lg rfl, h1]
  · split
    · rw [endFault_only (Only.refl 4 _) rfl .lg rfl, h1]
    · exact h1

theorem readings_measureLoop (e : Nat) (b : BandPath) (m : PilotMeasure) (s : State) : Readings s (measureLoop e b m s) := by
  unfold measureLoop
  split
  · exact .of_lg rfl
  · extract_lets a1 c1 s1
    have h1 : Readings s s1 := readings_modLoop e s
    refine h1.trans (LoopsAre.of_loops reading_follows ?_)
    unfold servingCanceller
    split
    · rfl
    · exact takeMeasure_loops ..

theorem readings_enterGuarded (e : Nat) (cap : Option Int) (s : State) : Readings s (enterGuarded e cap s) := by
  unfold enterGuarded
  exact .trans (.trans (readings_modLoop e s) (.of_lg (writeCap_lg ..))) (readings_refreshGains _)

theorem readings_capped (e : Nat) {f : Loop → Loop} (s : State)
    (hf : ∀ l, SameReading l (f l) := by exact fun _ => ⟨rfl, rfl⟩) : Readings s (writeCap e (modLoop e f s)) :=
  (readings_modLoop e s hf).trans (.of_lg (writeCap_lg ..))

theorem readings_closeByMeasurement (e : Nat) (b : BandPath) (m : PilotMeasure) (s : State) :
    Readings s (closeByMeasurement e b m s) := by
  unfold closeByMeasurement
  split
  · split
    · exact .of_lg rfl
    · split
      · exact .of_lg rfl
      · extract_lets s1
        have h1 : Readings s s1 := (readings_modLoop e s).trans (readings_measureLoop ..)
        split
        · exact h1.trans (readings_capped e s1)
        · split
          · split
            · split
              · exact h1.trans (readings_capped e s1)
              · exact h1.trans (readings_enterGuarded ..)
            · exact h1
          · exact h1
  · exact .of_lg rfl

/-- A loop on which oscillation was declared. -/
structure Muted (l k : Loop) : Prop where
  reading : SameReading l k
  state : k.state = .holdoff
  mutes : k.muteCount = l.muteCount + 1

theorem oscTrigger_lg (n : Nat) (s : State) : (oscTrigger n s).lg = s.lg := oscTrigger_only (Only.refl 16384 s) rfl .lg rfl

/-- The loop on which oscillation is declared is in HOLDOFF, and it alone. -/
theorem declareOsc_loops (e criterion : Nat) (s : State) :
    Readings s (declareOsc e criterion s) ∧ ∀ l, s.loop e = some l → ∃ k, (declareOsc e criterion s).loop e = some k ∧ Muted l k := by
  unfold declareOsc
  split
  next hnone => exact ⟨.of_lg rfl, fun l hl => absurd (hnone.symm.trans hl) (Option.some_ne_none l).symm⟩
  next l0 hl0 =>
    extract_lets t g p mutes s1 s2
    have h1 : Readings s s1 := (readings_modLoop e s).trans (LoopsAre.of_loops reading_follows rfl)
    have hmuted : ∀ l, s.loop e = some l → ∃ k, s1.loop e = some k ∧ Muted l k := fun l hl =>
      ⟨_, (modLoop_loop ..).trans (congrArg (Option.map _) hl), ⟨rfl, rfl⟩, rfl, rfl⟩
    have hcap : (writeCap e (oscTrigger e s1)).lg = s1.lg := (writeCap_lg ..).trans (oscTrigger_lg ..)
    have h2 : LoopsAre Evaluated s1 s2 := LoopsAre.trans evaluated_follows (.of_lg evaluated_follows hcap)
      (.trans evaluated_follows (refreshGains_evaluated _) (.of_lg evaluated_follows submitLog_keeps_lg))
    have h3 : LoopsAre Evaluated s1 (if p.mutesToPen ≤ mutes.length then
        raiseMoment { cls := 0x31, unit := ebUnit e, direct := true } s2 else s2) := by
      split
      · exact .trans evaluated_follows h2 (.of_lg evaluated_follows raiseMoment_keeps_lg)
      · exact h2
    refine ⟨h1.trans ⟨fun n l hl => ?_⟩, fun l hl => ?_⟩
    · obtain ⟨k, hk, he⟩ := h3.get n l hl
      exact ⟨k, hk, he.reading⟩
    · obtain ⟨k, hk, hm⟩ := hmuted l hl
      obtain ⟨j, hj, he⟩ := h3.get e k hk
      exact ⟨j, hj, hm.reading.trans he.reading, (he.still (by rw [hm.state]; decide)).1.trans hm.state, he.mutes.trans hm.mutes⟩

theorem readings_pilotCriteria (e : Nat) (s : State) : Readings s (pilotCriteria e s) := by
  unfold pilotCriteria
  split
  · exact .of_lg rfl
  · split
    · split
      · split
        · exact (declareOsc_loops ..).1
        · split
          · exact (declareOsc_loops ..).1
          · exact .of_lg rfl
      · exact .of_lg rfl
    · exact .of_lg rfl

/-- A period that is taken leaves the loop with the period's validity (R128). -/
theorem takePeriod_loop {e : Nat} {b : BandPath} {l y : Loop} {m : PilotMeasure} {s : State} (hy : s.loop e = some y) :
    ∃ k, (takePeriod e b l m s).loop e = some k ∧ k.seq = y.seq ∧ k.valid = decide (25 ≤ m.emitted) := by
  unfold takePeriod
  extract_lets valid closed s1 good s2
  have h1 : Readings s s1 := by
    unfold s1
    split
    · split
      · split
        · exact readings_measureLoop ..
        · exact .of_lg rfl
      · exact readings_closeByMeasurement ..
    · exact .of_lg rfl
  obtain ⟨k, hk, hread⟩ := h1.get e y hy
  have h2 : s2.loop e = _ := (modLoop_loop ..).trans (congrArg (Option.map _) hk)
  have h3 : Readings s2 (pilotCriteria e (refreshGains (if valid then endFault 0x33 (ebUnit e) s2 else s2))) := by
    refine Readings.trans ?_ ((readings_refreshGains _).trans (readings_pilotCriteria ..))
    split
    · exact .of_lg (endFault_only (Only.refl 4 _) rfl .lg rfl)
    · exact .of_lg rfl
  obtain ⟨j, hj, hjread⟩ := h3.get e _ h2
  exact ⟨j, hj, hjread.seq.trans hread.seq, hjread.valid⟩

theorem readings_beaconBoundary (e : Nat) (s : State) : Readings s (beaconBoundary e s) := by
  unfold beaconBoundary
  split
  · split
    · extract_lets changed s1
      have h1 : Readings s s1 := readings_modLoop e s
      split
      · exact h1.trans (readings_loopChanged ..)
      · exact h1
    · exact .of_lg rfl
  · exact .of_lg rfl

theorem readings_qualify (e : Nat) (s : State) : Readings s (qualify e s) := by
  unfold qualify
  split
  · split
    · exact readings_modLoop e s
    · exact .of_lg rfl
  · exact .of_lg rfl

theorem sendCap_loops (t : Tracked) (cap : Int) (s : State) : (sendCap t cap s).lg.loops = s.lg.loops :=
  (congrArg LgState.loops (sendTo_only (Only.refl 266240 _) rfl .lg rfl)).trans rfl

theorem readings_declareHubOsc (n criterion : Nat) (s : State) : Readings s (declareHubOsc n criterion s) := by
  unfold declareHubOsc
  extract_lets t p h mutes s1 s2
  have h1 : Readings s s1 := LoopsAre.of_loops reading_follows rfl
  have h2 : Readings s1 s2 := (Readings.of_lg (oscTrigger_lg n s1)).trans
    ((readings_refreshGains _).trans (.of_lg submitLog_keeps_lg))
  split
  · exact (h1.trans h2).trans (.of_lg raiseMoment_keeps_lg)
  · exact h1.trans h2

theorem readings_searchPath (hi : AirInstant) (levels : List MemberLevel) (s : State) (n : Nat) :
    Readings s (searchPath hi levels s n) := by
  unfold searchPath
  split
  · exact .of_lg rfl
  · extract_lets per lanes ends key kept live rest fresh tested l s1 mine strongest s2 cfg s3 now_ m s4
    have h1 : s1.lg.loops = s.lg.loops := rfl
    have h2 : s2.lg.loops = s1.lg.loops := by
      unfold s2
      split
      · exact takeMeasure_loops ..
      · rfl
    have h3 : s3.lg.loops = s2.lg.loops := foldl_keeps (fun t => t.lg.loops) (fun _ _ => sendCap_loops ..) _ _
    have h4 : Readings s s4 := LoopsAre.of_loops reading_follows (h3.trans (h2.trans h1))
    clear_value s4
    split
    · exact h4
    · split
      · exact h4.trans (readings_declareHubOsc ..)
      · split
        · exact h4.trans (readings_declareHubOsc ..)
        · exact h4

theorem readings_searchPeriod (hi : AirInstant) (levels : List MemberLevel) (s : State) : Readings s (searchPeriod hi levels s) := by
  unfold searchPeriod
  split
  · exact .foldl reading_follows (fun _ _ => readings_searchPath ..) _ _
  · exact .of_lg rfl

theorem readings_seekAdmission (s : State) : Readings s (seekAdmission s) := by
  refine LoopsAre.of_loops reading_follows ?_
  unfold seekAdmission
  split
  · rfl
  · split
    · rfl
    · dsimp only
      split
      · rfl
      · split
        · rfl
        · exact (congrArg LgState.loops (sendUp_only (Only.refl 266240 _) rfl .lg rfl)).trans rfl

end Sys2Proof.Machine
end

section
set_option Elab.async false
/-! The measured loops at work (R128–R151): pilot periods, ladder steps, the line detector, hold-off, cancellers and timeouts. -/

namespace Sys2Proof.Machine

open Sys2Proof

/-! ## Pilot periods -/

theorem pilotPeriodEnd_loop {e : Nat} {m : PilotInput} {b : BandPath} {l : Loop} {s : State} (hb : s.ce.eb.get e = some b)
    (hl : s.loop e = some l) : ∃ y, (pilotPeriodEnd e m s).loop e = some y ∧ y.seq = l.seq + 1 ∧
      (penned s (ebUnit e) → y.valid = l.valid) ∧
      ∀ d, ¬penned s (ebUnit e) →
        (feedPaths m.paths (advanceToBoundary (pilotKey e) (periodOf s e l.beacon) s)).ce.eb.get e = some d →
        y.valid = decide (25 ≤ (measurePilot (feedPaths m.paths (advanceToBoundary (pilotKey e) (periodOf s e l.beacon) s)) e d l
          (periodOf s e l.beacon) (airNow (feedPaths m.paths (advanceToBoundary (pilotKey e) (periodOf s e l.beacon) s)).air)).emitted) := by
  unfold pilotPeriodEnd
  rw [hb, show s.lg.loops.get e = some l from hl]
  dsimp -zeta only
  generalize periodOf s e l.beacon = period
  extract_lets p s1 hi
  have hcarried : Carried s s1 := (carried_advanceToBoundary ..).trans (carried_feedPaths ..)
  have hfault : s1.fault = s.fault :=
    (feedPaths_only (Only.refl 422337 _) rfl .fault rfl).trans advanceToBoundary_keeps_fault
  have hpenned : penned s1 (ebUnit e) = penned s (ebUnit e) := hcarried.penned hfault e
  have hl1 : s1.lg.loops.get e = some l := (hcarried.loop e).trans hl
  obtain ⟨b1, hb1⟩ : ∃ b1, s1.ce.eb.get e = some b1 := by
    have h := hcarried.params e
    rw [hb] at h
    obtain ⟨b1, hb1, -⟩ := Option.map_eq_some_iff.mp h
    exact ⟨b1, hb1⟩
  rw [show feedPaths m.paths (advanceToBoundary (pilotKey e) period s) = s1 from rfl]
  clear_value s1
  rw [hb1, hl1]
  dsimp -zeta only
  extract_lets x s2 s3 s4
  obtain ⟨k, hk, hseq, hvalid⟩ : ∃ k, s2.loop e = some k ∧ k.seq = l.seq ∧
      k.valid = if penned s (ebUnit e) then l.valid else decide (25 ≤ x.emitted) := by
    unfold s2
    rw [hpenned]
    split
    · exact ⟨l, hl1, rfl, rfl⟩
    · exact takePeriod_loop hl1
  have h3 : Readings s2 s3 := (readings_modLoop e s2).trans (readings_beaconBoundary ..)
  obtain ⟨k3, hk3, hread3⟩ := h3.get e k hk
  have hnext : (modLoop e (pilotNext s3 e x) s3).loop e = some (pilotNext s3 e x k3) :=
    (modLoop_loop ..).trans (congrArg (Option.map _) hk3)
  have hrest : Readings (modLoop e (pilotNext s3 e x) s3) (seekAdmission (searchPeriod hi m.levels s4)) :=
    ((readings_refreshGains _).trans (readings_qualify ..)).trans ((readings_searchPeriod ..).trans (readings_seekAdmission _))
  obtain ⟨y, hy, hread⟩ := hrest.get e _ hnext
  have hyvalid : y.valid = k.valid := hread.valid.trans hread3.valid
  refine ⟨y, hy, ?_, fun hpen => ?_, fun d hpen hd => ?_⟩
  · rw [hread.seq, ← hseq, ← hread3.seq]
    rfl
  · rw [hyvalid, hvalid, if_pos hpen]
  · obtain rfl : b1 = d := Option.some.inj hd
    rw [hyvalid, hvalid, if_neg hpen]

/-! ## The ladder -/

/-- The cap of a loop record stays. -/
def SameCap (l k : Loop) : Prop := k.cap = l.cap

theorem sameCap_follows : Follows SameCap := ⟨fun _ => rfl, fun h k => Eq.trans k h⟩

theorem creditedMargin_congr {s t : State} (hlg : t.lg = s.lg) (hnp : t.np = s.np) (e : Nat) (b : BandPath) (l : Loop) :
    creditedMargin t e b l = creditedMargin s e b l := by
  have hcredited (c : Int) : credited t b l c = credited s b l c := by
    have hcanc (n : Nat) : cancellerOf t n = cancellerOf s n := by rw [cancellerOf, hlg, cancellerOf]
    unfold credited
    rw [show returnIb t b l = returnIb s b l from rfl]
    simp only [hcanc]
  unfold creditedMargin
  rw [hnp]
  simp only [hcredited]

theorem ladderStep_cap {e : Nat} {b : BandPath} {l : Loop} {s : State} {c q : Int} (hb : s.ce.eb.get e = some b)
    (hl : s.loop e = some l) (hstate : l.state = .ladder) (hpenned : ¬penned s (ebUnit e)) (hcap : l.cap = some c)
    (hmargin : creditedMargin s e b l = some q) (hlow : q < l.config.mReq) :
    ((ladderStep e s).loop e).bind (fun y => y.cap) = some (max gLow (min c (s.np.gain.get e).target - 100)) := by
  unfold ladderStep
  rw [hb, show s.lg.loops.get e = some l from hl]
  dsimp -zeta only
  rw [if_neg (by rintro (h | h) <;> contradiction)]
  extract_lets s1 g cap
  have hlg1 : s1.lg = s.lg := advanceToBoundary_keeps_lg
  have hnp1 : s1.np = s.np := advanceToBoundary_keeps_np
  have hcapval : cap = max gLow (min c (s.np.gain.get e).target - 100) := by
    unfold cap g
    rw [hcap, hnp1]
  clear_value cap s1
  rw [creditedMargin_congr hlg1 hnp1, hmargin, ← hcapval]
  dsimp -zeta only
  rw [if_pos hlow]
  extract_lets s2
  have hset : (modLoop e (fun x => { x with cap := some cap }) s1).loop e = some { l with cap := some cap } :=
    (modLoop_loop ..).trans (congrArg (Option.map _) ((congrArg (fun g : LgState => g.loops.get e) hlg1).trans hl))
  have h2 : LoopsAre Evaluated (modLoop e (fun x => { x with cap := some cap }) s1) s2 :=
    .trans evaluated_follows (.of_lg evaluated_follows (writeCap_lg ..)) (refreshGains_evaluated _)
  obtain ⟨k, hk, heval⟩ := h2.get e _ hset
  have hkcap : k.cap = some cap := (heval.still (by rw [hstate]; decide)).2
  have hguard : LoopsAre SameCap s2 (noteMargin e false (modLoop e (fun x => { x with state := .guarded, riseAt := now s2 }) s2)) := by
    refine .trans sameCap_follows (.modLoop sameCap_follows ?_) (.noteMargin sameCap_follows ?_ ..)
    · exact fun _ _ => rfl
    · exact fun _ _ => rfl
  have hdone (t : State) (ht : LoopsAre SameCap s2 t) : (t.loop e).bind (fun y => y.cap) = some cap := by
    obtain ⟨j, hj, hsame⟩ := ht.get e k hk
    rw [hj]
    exact Eq.trans hsame hkcap
  split
  · split
    · exact hdone _ hguard
    · exact hdone _ (.of_lg sameCap_follows rfl)
  · exact hdone _ (.of_lg sameCap_follows rfl)

theorem ladderStep_outside {e : Nat} {l : Loop} {s : State} (hl : s.loop e = some l) (hstate : l.state ≠ .ladder) :
    ladderStep e s = s := by
  unfold ladderStep
  rw [show s.lg.loops.get e = some l from hl]
  split
  next b k _ hk =>
    obtain rfl : l = k := Option.some.inj hk
    exact if_pos (.inl hstate)
  next => rfl

/-! ## The line detector -/

theorem takeLine_lg (n : Nat) (s : State) : (takeLine s n).lg = s.lg := takeLine_only (Only.refl 64 s) rfl .lg rfl

/-- A view of the line detector changes of the loop guard the cancellers only. -/
theorem lineView_beyondCanc (key : Nat) (w : Option Nat) (x : List RawBlock) (s : State) :
    (lineView key w x s).lg.beyondCanc = s.lg.beyondCanc := by
  have h0 : (advanceToBoundary key 24576 s).lg.beyondCanc = s.lg.beyondCanc := congrArg LgState.beyondCanc advanceToBoundary_keeps_lg
  unfold lineView
  dsimp only
  split
  · rw [takeLine_lg]
    exact (carried_feed ..).lg.trans h0
  · exact h0

theorem lineDetectorFrame_declares {e : Nat} {x : List RawBlock} {b : BandPath} {l : Loop} {s : State}
    (hb : s.ce.eb.get e = some b) (hl : s.loop e = some l) (hclosed : loopClosed s b l)
    (hstate : l.state = .guarded ∨ l.state = .ladder) (hpenned : ¬penned s (ebUnit e))
    (hseen : (returnIb s b l).any (lineSeen (lineView (828 + e) (returnIb s b l) x s))) (hrun : 1 ≤ l.lineRun) :
    ((lineDetectorFrame .egress e x s).loop e).map (fun y => (y.state, y.muteCount)) = some (.holdoff, l.muteCount + 1) := by
  unfold lineDetectorFrame
  dsimp -zeta only
  rw [hb, show s.lg.loops.get e = some l from hl]
  dsimp -zeta only
  extract_lets ret s1 run
  have hl1 : s1.loop e = some l :=
    (congrArg (fun b => b.get e) (beyondCanc_fields (lineView_beyondCanc ..)).1).trans hl
  have hrun2 : 2 ≤ run := by
    have h : run = l.lineRun + 1 := if_pos hseen
    omega
  rw [if_pos ⟨hclosed, hstate, Bool.eq_false_iff.mpr hpenned, hrun2⟩]
  obtain ⟨k, hk, hmuted⟩ := (declareOsc_loops e 2 s1).2 l hl1
  rw [hk, Option.map_some, hmuted.state, hmuted.mutes]

theorem lineDetectorFrame_unseen {e : Nat} {x : List RawBlock} {b : BandPath} {l : Loop} {s : State}
    (hb : s.ce.eb.get e = some b) (hl : s.loop e = some l)
    (hseen : ¬(returnIb s b l).any (lineSeen (lineView (828 + e) (returnIb s b l) x s))) :
    (lineDetectorFrame .egress e x s).loop e = some { l with lineRun := 0 } := by
  unfold lineDetectorFrame
  dsimp -zeta only
  rw [hb, show s.lg.loops.get e = some l from hl]
  dsimp -zeta only
  extract_lets ret s1 run
  have hl1 : s1.loop e = some l :=
    (congrArg (fun b => b.get e) (beyondCanc_fields (lineView_beyondCanc ..)).1).trans hl
  have hrun : run = 0 := if_neg hseen
  rw [if_neg (by rintro ⟨-, -, -, h⟩; omega), modLoop_loop, hl1, hrun]
  rfl

theorem declareHubOsc_hold (n criterion : Nat) (s : State) :
    ((declareHubOsc n criterion s).lg.hubHold.get n).active ∧ (declareHubOsc n criterion s).lg.oscTotal = s.lg.oscTotal + 1 := by
  unfold declareHubOsc
  extract_lets t p h mutes s1 s2
  have h2 : s2.lg.beyond = s1.lg.beyond := by
    unfold s2
    rw [submitLog_keeps_lg, refreshGains_beyond, oscTrigger_lg]
  obtain ⟨-, -, -, -, hhold, htotal⟩ := beyond_fields h2
  have hlg : (if p.mutesToPen ≤ mutes.length then raiseMoment { cls := 0x31, unit := ibUnit n, direct := true } s2 else s2).lg =
      s2.lg := ite_keeps State.lg raiseMoment_keeps_lg
  rw [hlg, hhold, htotal]
  exact ⟨by rw [show (s1.lg.hubHold.get n) = _ from get_set_same ..], rfl⟩

theorem lineDetectorFrame_hub {e : Nat} {x : List RawBlock} {s : State} (hhub : s.sys.role = .hub)
    (hmask : s.lg.searchMask.testBit e) (hexists : ibExists s e) (hseen : lineSeen (lineView (700 + e) (some e) x s) e)
    (hrun : 1 ≤ (s.lg.hubHold.get e).lineRun) (hidle : ¬(s.lg.hubHold.get e).active) :
    ((lineDetectorFrame .ingress e x s).lg.hubHold.get e).active ∧
      (lineDetectorFrame .ingress e x s).lg.oscTotal = s.lg.oscTotal + 1 := by
  unfold lineDetectorFrame
  dsimp -zeta only
  rw [if_pos ⟨hhub, hmask, hexists⟩]
  extract_lets s1 run
  have htotal : s1.lg.oscTotal = s.lg.oscTotal := (beyondCanc_fields (lineView_beyondCanc ..)).2.2.1
  have hrun2 : 2 ≤ run := by
    have h : run = (s.lg.hubHold.get e).lineRun + 1 := if_pos hseen
    omega
  rw [if_pos ⟨hrun2, Bool.eq_false_iff.mpr hidle⟩, ← htotal]
  exact declareHubOsc_hold ..

/-! ## Hold-off and cancellers -/

theorem restartCancellers_loops (f : Canceller → Bool) (s : State) : (restartCancellers f s).lg.loops = s.lg.loops := rfl

theorem toNextSlot_lg (s : State) : (toNextSlot s).lg = s.lg := toNextSlot_only (Only.refl 1 s) rfl .lg rfl

/-- A loop that enters GUARDED is GUARDED or, below its required margin, already LADDER (R140). -/
theorem enterGuarded_state {e : Nat} {l : Loop} (cap : Option Int) {s : State} (hl : s.loop e = some l) :
    ∃ y, (enterGuarded e cap s).loop e = some y ∧ (y.state = .guarded ∨ y.state = .ladder) := by
  unfold enterGuarded
  have hset := (modLoop_loop (e := e) (s := s) (fun l => { l with
    state := .guarded, cap := cap.map (max gLow), qualMode := none, qualified := false, riseAt := now s })).trans
      (congrArg (Option.map _) hl)
  obtain ⟨y, hy, heval⟩ := (LoopsAre.trans evaluated_follows (.of_lg evaluated_follows (writeCap_lg e _))
    (refreshGains_evaluated _)).get e _ hset
  exact ⟨y, hy, heval.guarded rfl⟩

theorem holdoffEnd_loop {e : Nat} {b : BandPath} {l : Loop} {s : State} (hb : s.ce.eb.get e = some b) (hl : s.loop e = some l)
    (hstate : l.state = .holdoff) (hpenned : ¬penned s (ebUnit e)) :
    ∃ y, (holdoffEnd .egress e s).loop e = some y ∧ (y.state = .guarded ∨ y.state = .ladder) := by
  unfold holdoffEnd
  dsimp -zeta only
  rw [hb, show s.lg.loops.get e = some l from hl]
  dsimp -zeta only
  rw [if_pos ⟨hstate, Bool.eq_false_iff.mpr hpenned⟩]
  extract_lets s1 ret s2
  have h1 : s1.lg = s.lg := (toNextSlot_lg _).trans advanceTo_keeps_lg
  refine enterGuarded_state (l := l) _ ?_
  exact (congrArg (fun b => b.get e) ((restartCancellers_loops _ s1).trans (congrArg LgState.loops h1))).trans hl

theorem holdoffEnd_hub {e : Nat} {s : State} (hactive : (s.lg.hubHold.get e).active) :
    ((holdoffEnd .ingress e s).lg.hubHold.get e).active = penned s (ibUnit e) := by
  unfold holdoffEnd
  dsimp -zeta only
  extract_lets h s1
  rw [if_pos hactive]
  obtain ⟨-, -, -, -, hhold, -⟩ := beyond_fields (refreshGains_beyond (restartCancellers (fun k => k.ib == e)
    (s1.modLg (fun g => { g with hubHold := g.hubHold.mod e (fun x => { x with active := penned s (ibUnit e) }) }))))
  rw [hhold]
  exact congrArg HubHold.active (get_mod_same (b := s1.lg.hubHold) (k := e) ..)

theorem canc_refreshGains (s : State) (i : Nat) : (refreshGains s).canc i = s.canc i :=
  congrArg (fun b : Bank Canceller => b.get i) (beyond_fields (refreshGains_beyond s)).2.2.2.1

theorem reacquireFitComplete_canc {i : Nat} {s : State} (hstate : (s.canc i).state = .reAcquire)
    (hcount : 1024 ≤ (s.canc i).fitCount) : ((reacquireFitComplete i s).canc i).state = (s.canc i).before := by
  unfold reacquireFitComplete
  rw [if_pos ⟨hstate, hcount⟩, canc_refreshGains]
  exact congrArg Canceller.state (get_mod_same (b := s.lg.canc) (k := i) ..)

theorem cancellerSnapshotRestore_canc {i : Nat} {s : State} (hrestore : (s.canc i).restore) :
    (cancellerSnapshotRestore i s).canc i = (s.canc i).restored := by
  unfold cancellerSnapshotRestore
  rw [if_pos hrestore, canc_refreshGains]
  refine (get_mod_same (b := (toNextSlot s).lg.canc) (k := i) ..).trans ?_
  rw [toNextSlot_lg]

/-! ## Timeouts -/

theorem marginLowTimeout_raises {e k : Nat} {s : State} (h : (s.loop e).bind (fun y => y.lowSince) = some k) :
    holding (marginLowTimeout e s) 0x30 (ebUnit e) ∧ waited s (marginLowTimeout e s) (k + tcOfMs 100) := by
  unfold marginLowTimeout
  rw [show (s.lg.loops.get e).bind (fun y => y.lowSince) = some k from h]
  dsimp only
  generalize k + tcOfMs 100 = x
  refine ⟨holding_raiseLevel { cls := 0x30, unit := ebUnit e } (advanceTo x s), ?_⟩
  rw [waited, raiseLevel_only (Only.refl 4 _) rfl .air rfl]
  exact advanceTo_waited x s

theorem beaconLossTimeout_raises {e : Nat} {b : BandPath} {l : Loop} {s : State} (hb : s.ce.eb.get e = some b)
    (hl : s.loop e = some l) (hstate : l.state = .guarded ∨ l.state = .ladder) (hpenned : ¬penned s (ebUnit e)) :
    holding (beaconLossTimeout e s) 0x33 (ebUnit e) := by
  unfold beaconLossTimeout
  rw [hb, show s.lg.loops.get e = some l from hl]
  dsimp -zeta only
  rw [if_pos ⟨hstate, Bool.eq_false_iff.mpr hpenned⟩]
  exact holding_raiseLevel { cls := 0x33, unit := ebUnit e } _

/-- Settles O28: a period and a frame of the line detector change the loop record they are about, and the evaluation that follows
keeps its number, its validity and its hold-off. -/
theorem loopsAreMeasuredAndHeldOff : Obligations.LoopsAreMeasuredAndHeldOff := by
  unfold Obligations.LoopsAreMeasuredAndHeldOff
  intro s e i k m b l x c q
  refine ⟨?_, ?_, ?_, ?_, ?_, ?_, ?_, ?_, ?_, ?_, ?_, ?_⟩
  · intro p u hb hl
    exact runs_of_only (t := pilotPeriodEnd e m s) rfl execPilotPeriodEnd_only (by decide) (pilotPeriodEnd_loop hb hl)
  · intro hb hl hstate hpenned hcap hmargin hlow
    exact runs_of_only (t := ladderStep e s) rfl execLadderStep_only (by decide)
      (ladderStep_cap hb hl hstate hpenned hcap hmargin hlow)
  · intro hl hstate
    exact congrArg Host.Outcome.next (ladderStep_outside hl hstate)
  · intro hb hl hclosed hstate hpenned hseen hrun
    exact runs_of_only (t := lineDetectorFrame .egress e x s) rfl execLineDetectorFrame_only (by decide)
      (lineDetectorFrame_declares hb hl hclosed hstate hpenned hseen hrun)
  · intro hb hl hseen
    exact runs_of_only (t := lineDetectorFrame .egress e x s) rfl execLineDetectorFrame_only (by decide)
      (lineDetectorFrame_unseen hb hl hseen)
  · intro hhub hmask hexists hseen hrun hidle
    exact runs_of_only (t := lineDetectorFrame .ingress e x s) rfl execLineDetectorFrame_only (by decide)
      (lineDetectorFrame_hub hhub hmask hexists hseen hrun hidle)
  · intro hb hl hstate hpenned
    exact runs_of_only (t := holdoffEnd .egress e s) rfl execHoldoffEnd_only (by decide) (holdoffEnd_loop hb hl hstate hpenned)
  · intro hactive
    exact runs_of_only (t := holdoffEnd .ingress e s) rfl execHoldoffEnd_only (by decide) (holdoffEnd_hub hactive)
  · intro hstate hcount
    exact runs_of_only (t := reacquireFitComplete i s) rfl execReacquireFitComplete_only (by decide)
      (reacquireFitComplete_canc hstate hcount)
  · intro hrestore
    refine runs_of_only (t := cancellerSnapshotRestore i s) rfl execCancellerSnapshotRestore_only (by decide) ?_
    rw [cancellerSnapshotRestore_canc hrestore]
    exact ⟨Bool.false_ne_true, Bool.false_ne_true⟩
  · intro h
    exact runs_of_only (t := marginLowTimeout e s) rfl execMarginLowTimeout_only (by decide) (marginLowTimeout_raises h)
  · intro hb hl hstate hpenned
    exact runs_of_only (t := beaconLossTimeout e s) rfl execBeaconLossTimeout_only (by decide)
      (beaconLossTimeout_raises hb hl hstate hpenned)

end Sys2Proof.Machine
end

section
set_option Elab.async false
/-! Hub caps and admissions (R131, R132, R147–R150). -/

namespace Sys2Proof.Machine

open Sys2Proof

theorem marginCapReceive_loop {f : MarginCap} {l : Loop} {s : State} (hrole : s.sys.role ≠ .hub) (hmember : f.member = ownMember s)
    (hl : s.loop f.eb = some l) :
    (marginCapReceive f s).loop f.eb = some { l with hubNext := some (f.at_, f.cap), hubAt := s.now } := by
  unfold marginCapReceive
  rw [if_pos ⟨hrole, hmember⟩, modLoop_loop, hl]
  rfl

theorem marginCapReceive_foreign {f : MarginCap} {s : State} (h : s.sys.role = .hub ∨ f.member ≠ ownMember s) :
    marginCapReceive f s = s := by
  unfold marginCapReceive
  exact if_neg fun hc => h.elim hc.1 (absurd hc.2)

theorem marginCapApply_loop {e : Nat} {l : Loop} {i : AirInstant} {c : Int} {s : State} (hl : s.loop e = some l)
    (hnext : l.hubNext = some (i, c)) :
    ((marginCapApply e s).loop e).map (fun x => (x.hubCap, x.hubGrant, x.hubNext)) = some (some c, some c, none) := by
  unfold marginCapApply
  rw [show s.lg.loops.get e = some l from hl]
  dsimp -zeta only
  rw [hnext]
  dsimp -zeta only
  have hair : (advanceToAir i s).loop e = some l := (congrArg (fun g : LgState => g.loops.get e) advanceToAir_keeps_lg).trans hl
  generalize advanceToAir i s = u at *
  have hset := (modLoop_loop (e := e) (s := u) (fun x => { x with hubCap := some c, hubGrant := some c, hubNext := none })).trans
    (congrArg (Option.map _) hair)
  obtain ⟨k, hk, heval⟩ := (LoopsAre.trans evaluated_follows (.of_lg evaluated_follows (writeCap_lg e _))
    (refreshGains_evaluated _)).get e _ hset
  rw [hk]
  exact congrArg some heval.hub

/-- A frame joins a queue that has room behind what waits there. -/
theorem enqueue_of_room {p : Nat} (f : CtrlFrame) {s : State} (h : (s.port p).queue.length < 256) :
    enqueue p f s = modPort p (fun x => { x with queue := x.queue ++ [f] }) s := by
  have hraw : enqueueRaw p f s = (none, modPort p (fun x => { x with queue := x.queue ++ [f] }) s) := if_pos h
  rw [enqueue, hraw]

theorem modPort_port (p : Nat) (f : FlPort → FlPort) (s : State) : (modPort p f s).port p = f (s.port p) := get_mod_same ..

theorem admitReqReceive_grants {m p : Nat} {s : State} (hhub : activeHub s) (hport : portTowards s m = some p)
    (hroom : (s.port p).queue.length < 256) :
    (∃ h : FrameHeader, ((admitReqReceive m s).port p).queue =
      (s.port p).queue ++ [⟨h, .admitGrant (frameBoundaryAhead s 4)⟩] ∧ h.dest = m) ∧
      (admitReqReceive m s).dv.joinFrame = some (frameBoundaryAhead s 4) := by
  unfold admitReqReceive
  rw [if_pos hhub]
  generalize frameBoundaryAhead s 4 = f
  have hport' : portTowards (bindPlan f s) m = some p := hport
  rw [sendTo, hport']
  dsimp only
  rw [enqueue_of_room _ (show ((bindPlan f s).port p).queue.length < 256 from hroom)]
  exact ⟨⟨_, congrArg FlPort.queue (modPort_port p _ (bindPlan f s)), rfl⟩, rfl⟩

/-! ## The admission frame -/

theorem enterGuarded_others (e : Nat) (cap : Option Int) (s : State) : (enterGuarded e cap s).fault.others = s.fault.others := by
  rw [enterGuarded, refreshGains_others, writeCap_only (Only.refl 256 _) rfl .fault rfl, modLoop_fault]

theorem admitBand_others (s : State) (e : Nat) : (admitBand s e).fault.others = s.fault.others := by
  unfold admitBand
  split
  · rw [softStartOuters_only (Only.refl 1024 _) rfl .fault rfl, softStartBand_only (Only.refl 1280 _) rfl .fault rfl]
    unfold admitLoop
    dsimp only
    split
    · rw [enterGuarded_others, modLoop_fault]
    · rw [modLoop_fault]
  · rfl

/-- At the admission frame the units that are admitted leave PADDOCK, and no other. -/
theorem admissionFrame_paddock {k : Nat} {s : State} (h : s.lg.admitFrame = some k) : (admissionFrame s).fault.paddock =
    s.fault.paddock.filter (fun u => !(admittedUnits (advanceToAir ⟨k, 0⟩ s)).contains u) := by
  unfold admissionFrame
  rw [h]
  dsimp -zeta only
  extract_lets s1 units bands chains s2 s3
  have h2 : s2.fault.paddock = s.fault.paddock.filter (fun u => !units.contains u) :=
    congrArg (fun f : FaultState => f.paddock.filter (fun u => !units.contains u)) (advanceToAir_keeps_fault (s := s))
  have h3 : s3.fault.others = s2.fault.others := by
    have hchains : s3.fault = (bands.foldl admitBand s2).fault :=
      foldl_keeps (f := admitChain) State.fault (fun _ _ => admitChain_only (Only.refl 1024 _) rfl .fault rfl) _ _
    rw [hchains]
    exact foldl_keeps (f := admitBand) (fun t => t.fault.others) (fun _ _ => admitBand_others ..) _ _
  have h4 : (seekAdmission (refreshGains s3)).fault.others = s2.fault.others :=
    (congrArg FaultState.others (seekAdmission_only (Only.refl 274560 _) rfl .fault rfl)).trans
      ((refreshGains_others _).trans h3)
  rw [← h2, ← paddock_others, h4, paddock_others]

/-- Settles O29: a cap waits in the loop's record and is evaluated there; a grant is one frame in the queue towards the member. -/
theorem capsAndAdmissionsAreExchanged : Obligations.CapsAndAdmissionsAreExchanged := by
  unfold Obligations.CapsAndAdmissionsAreExchanged
  intro s f e m p k l i c
  refine ⟨?_, ?_, ?_, ?_, ?_, ?_, ?_, ?_⟩
  · intro hrole hmember hl
    exact runs_of_only (t := marginCapReceive f s) rfl execMarginCapReceive_only (by decide)
      (marginCapReceive_loop hrole hmember hl)
  · intro h
    exact congrArg Host.Outcome.next (marginCapReceive_foreign h)
  · intro hl hnext
    exact runs_of_only (t := marginCapApply e s) rfl execMarginCapApply_only (by decide) (marginCapApply_loop hl hnext)
  · intro hhub hport hroom
    obtain ⟨⟨h, hqueue, hdest⟩, hframe⟩ := admitReqReceive_grants hhub hport hroom
    exact runs_of_only (t := admitReqReceive m s) rfl execAdmitReqReceive_only (by decide) ⟨h, hqueue, hdest, hframe⟩
  · intro h
    exact congrArg Host.Outcome.next (if_neg h)
  · intro h
    exact runs_of_only (t := admitGrantReceive k s) rfl execAdmitGrantReceive_only (by decide)
      (congrArg State.lg (if_pos h))
  · intro h
    exact congrArg Host.Outcome.next (if_neg h)
  · intro h
    exact runs_of_only (t := admissionFrame s) rfl execAdmissionFrame_only (by decide) (admissionFrame_paddock h)

end Sys2Proof.Machine
end

section
set_option Elab.async false
/-! The commands of the control engine (R176–R206): what they leave of a slot, a repetitive controller and a trace. -/

namespace Sys2Proof.Machine

open Sys2Proof

theorem Runs.mono {i : Instr} {s : State} {l : List Part} {P Q : State → Prop} (h : Runs i s l P) (hPQ : ∀ t, P t → Q t) :
    Runs i s l Q := by
  obtain ⟨t, hexec, honly, hP⟩ := h
  exact ⟨t, hexec, honly, hPQ t hP⟩

theorem slotOf_of_cl {s t : State} (h : t.cl = s.cl) (n : Nat) : slotOf t n = slotOf s n :=
  congrArg (fun c : ClState => c.slots.get n) h

theorem slotOf_modSlot_same (n : Nat) (f : Slot → Slot) (s : State) : slotOf (modSlot n f s) n = f (slotOf s n) := get_mod_same ..

theorem slotOf_modSlot_other {n m : Nat} (f : Slot → Slot) (s : State) (h : m ≠ n) : slotOf (modSlot n f s) m = slotOf s m :=
  get_mod_other _ _ h

theorem slotOf_causeTraces (m : Nat) (c : TraceCause) (s : State) (n : Nat) : slotOf (causeTraces m c s) n = slotOf s n := rfl

theorem slotOf_endFault (k : Nat) (u : UnitId) (s : State) (n : Nat) : slotOf (endFault k u s) n = slotOf s n :=
  slotOf_of_cl (by simp) n

/-- What CL_SLOT_CONFIG sets of a slot. -/
def Slot.setting (x : Slot) : Option SlotKind × Nat × Nat × Int × Int := (x.kind, x.rate, x.target, x.setpoint, x.param)

theorem setting_modSlot {m : Nat} {f : Slot → Slot} (s : State) (n : Nat) (hf : ∀ x, (f x).setting = x.setting) :
    (slotOf (modSlot m f s) n).setting = (slotOf s n).setting := by
  by_cases h : n = m
  · subst h
    rw [slotOf_modSlot_same, hf]
  · rw [slotOf_modSlot_other _ _ h]

theorem setting_softStart (m : Nat) (v : Int) (d : Nat) (s : State) (n : Nat) :
    (slotOf (softStart m v d s) n).setting = (slotOf s n).setting :=
  setting_modSlot s n fun _ => rfl

theorem setting_enableSlot (m : Nat) (soft : Bool) (s : State) (n : Nat) :
    (slotOf (enableSlot m soft s) n).setting = (slotOf s n).setting := by
  unfold enableSlot
  extract_lets x s1
  have h1 : (slotOf s1 n).setting = (slotOf s n).setting := setting_modSlot s n fun _ => rfl
  split
  · exact (setting_softStart ..).trans h1
  · exact h1

theorem setting_slotConfig {p : List Byte} {k : SlotKind} (s : State) (hk : slotKindOf (u8 p 2) = some k) :
    (slotOf (slotConfig p s) (u16 p 0)).setting = (some k, u8 p 3, u16 p 4, s32 p 8, s32 p 12) := by
  unfold slotConfig
  rw [hk]
  dsimp -zeta only
  extract_lets n x s1 s2
  have h1 : (slotOf s1 n).setting = (some k, u8 p 3, u16 p 4, s32 p 8, s32 p 12) := by
    rw [slotOf_modSlot_same]
    unfold takesOver
    split <;> rfl
  have h2 : (slotOf s2 n).setting = (some k, u8 p 3, u16 p 4, s32 p 8, s32 p 12) :=
    (congrArg Slot.setting (slotOf_of_cl (ite_keeps State.cl (by simp)) n)).trans h1
  split
  · exact (setting_enableSlot ..).trans h2
  · split
    · refine (setting_modSlot s2 n ?_).trans h2
      exact fun _ => rfl
    · exact h2

theorem slotOf_releaseSlot (n : Nat) (s : State) : slotOf (releaseSlot n s) n = {} := by
  unfold releaseSlot
  rw [slotOf_endFault, slotOf_endFault, slotOf_modSlot_same]

/-! ## Enabling and disabling -/

theorem slotEnabled_softStart (n : Nat) (v : Int) (d : Nat) (s : State) :
    slotEnabled (slotOf (softStart n v d s) n) = (slotOf s n).kind.isSome := by
  unfold softStart
  extract_lets x ramped k
  rw [slotOf_causeTraces, slotOf_modSlot_same]
  cases ramped <;> exact Bool.and_true _

theorem slotEnabled_enableSlot (n : Nat) (soft : Bool) (s : State) :
    slotEnabled (slotOf (enableSlot n soft s) n) = (slotOf s n).kind.isSome := by
  unfold enableSlot
  extract_lets x s1
  have h1 : slotOf s1 n = _ := slotOf_modSlot_same ..
  split
  · rw [slotEnabled_softStart, h1]
  · rw [h1]
    exact Bool.and_true _

theorem slotEnabled_disableSlot (n : Nat) (s : State) : slotEnabled (slotOf (disableSlot n s) n) = false := by
  unfold disableSlot stopInjection
  rw [slotOf_endFault, slotOf_endFault, slotOf_modSlot_same, slotOf_modSlot_same]
  exact Bool.and_false _

theorem slotEnabled_slotControl {n action : Nat} {s : State} (hkind : (slotOf s n).kind.isSome = true) :
    slotEnabled (slotOf (slotControl n action s) n) = decide (action ≠ 0) := by
  unfold slotControl
  extract_lets x
  by_cases h0 : action = 0
  · rw [if_pos h0, slotEnabled_disableSlot, h0]
    rfl
  · rw [if_neg h0, decide_eq_true h0]
    split
    · split
      next h => exact h
      · rw [slotEnabled_enableSlot, hkind]
    · rw [slotEnabled_enableSlot, hkind]

/-! ## Swaps -/

theorem foldl_modSlot_not_mem {f : Slot → Slot} {l : List Nat} (s : State) {n : Nat} (h : n ∉ l) :
    slotOf (l.foldl (fun acc m => modSlot m f acc) s) n = slotOf s n := by
  induction l generalizing s with
  | nil => rfl
  | cons m l ih =>
    rw [List.mem_cons, not_or] at h
    exact (ih _ h.2).trans (slotOf_modSlot_other _ _ h.1)

/-- Each slot of a list without repeats is changed once. -/
theorem foldl_modSlot_mem {f : Slot → Slot} {l : List Nat} (s : State) {n : Nat} (hnodup : l.Nodup) (h : n ∈ l) :
    slotOf (l.foldl (fun acc m => modSlot m f acc) s) n = f (slotOf s n) := by
  induction l generalizing s with
  | nil => exact absurd h List.not_mem_nil
  | cons m l ih =>
    obtain ⟨hm, hl⟩ := List.nodup_cons.mp hnodup
    obtain rfl | hmem := List.mem_cons.mp h
    · exact (foldl_modSlot_not_mem _ hm).trans (slotOf_modSlot_same ..)
    · refine (ih _ hl hmem).trans (congrArg f (slotOf_modSlot_other _ _ ?_))
      rintro rfl
      exact hm hmem

theorem mem_swapSlots {p : List Byte} {n : Nat} (h : n < 512) : n ∈ swapSlots p ↔ (uN p 0 64).testBit n = true := by
  simp only [swapSlots, List.mem_filter, List.mem_range, h, true_and]

theorem slotOf_bankSwap {p : List Byte} (b : Bool) (s : State) {n : Nat} (h : n < 512) :
    slotOf ((swapSlots p).foldl (fun acc m => modSlot m (fun x => { x with swap := x.bankSel != b }) acc) s) n =
      if (uN p 0 64).testBit n then { slotOf s n with swap := (slotOf s n).bankSel != b } else slotOf s n := by
  split
  next hbit => exact foldl_modSlot_mem s (List.nodup_range.filter _) ((mem_swapSlots h).mpr hbit)
  next hbit => exact foldl_modSlot_not_mem s (mt (mem_swapSlots h).mp hbit)

/-! ## The repetitive controller and the injection -/

/-- What CL_REP_CONFIG sets of a repetitive controller. -/
def Rep.setting (x : Rep) : Bool × Nat × Nat × Nat × Nat × Nat := (x.enabled, x.pattern, x.lGain, x.lambda, x.limit, x.stepMax)

theorem setting_repConfig (p : List Byte) (s : State) :
    ((repConfig p s).rep (u8 p 0 - 8)).setting =
      (decide (u8 p 1 ≠ 0), u8 p 2, u16 p 4, u16 p 6, u16 p 8, u16 p 10) := by
  have hget : (repConfig p s).rep (u8 p 0 - 8) = _ := get_mod_same ..
  rw [hget]
  extract_lets y
  by_cases h : u8 p 1 = 0
  · rw [if_pos h, h]
    rfl
  · rw [if_neg h, decide_eq_true h]
    split
    next hen => exact congrArg (·, u8 p 2, u16 p 4, u16 p 6, u16 p 8, u16 p 10) hen
    · rfl

theorem inj_startInjection (p : List Byte) (q : Ticket) (s : State) :
    (slotOf (startInjection p q s) (u16 p 0)).inj.map (fun j => (j.shape, j.amp, j.count, j.started)) =
      some (u8 p 3, u32 p 4, u32 p 12, false) := by
  unfold startInjection
  extract_lets n s1
  have h1 : (slotOf s1 n).inj = some _ := congrArg Slot.inj (slotOf_modSlot_same ..)
  have h (t : State) (ht : slotOf t n = slotOf s1 n) :
      (slotOf t n).inj.map (fun j => (j.shape, j.amp, j.count, j.started)) = some (u8 p 3, u32 p 4, u32 p 12, false) := by
    rw [ht, h1]
    rfl
  exact h _ (ite_keeps (fun t => slotOf t n) rfl)

theorem inj_stopInjection (n why : Nat) (s : State) {j : Injection} (h : (slotOf s n).inj = some j) :
    ((slotOf (stopInjection n why s) n).inj.bind (fun x => x.stop)).isSome = true := by
  unfold stopInjection
  rw [slotOf_modSlot_same, h]
  cases hs : j.stop <;> simp [hs]

/-- An accepted CL_SLOT_CONTROL names a slot that has a kind. -/
theorem kind_of_accepts_clSlotControl {r : HostRequest} {s : State} (h : Accepts specClSlotControl r s) :
    (slotOf s (r.u16 0)).kind.isSome = true := by
  have hchk := checks_hold_of_validate h.2 (field 0 (decide (r.u16 0 < 512) && (slotOf s (r.u16 0)).kind.isSome))
    (List.mem_cons_self ..)
  simp only [field, Bool.not_eq_false', Bool.and_eq_true] at hchk
  exact hchk.2

theorem clSlotControl_does (r : HostRequest) (s : State) : Does 0x0705 .clSlotControl r s [.fault, .cl] fun t =>
    slotEnabled (slotOf t (r.u16 0)) = decide (r.u8 2 ≠ 0) := by
  refine does_of_only rfl rfl specClSlotControl_only (by decide) (fun _ _ => ⟨rfl, rfl⟩) fun h => ?_
  have hcl : (submit specClSlotControl r s).cl = (slotControl (r.u16 0) (r.u8 2) (atStart 0x0705 r s)).cl := submit_after h .cl rfl
  rw [slotOf_of_cl hcl]
  exact slotEnabled_slotControl (s := atStart 0x0705 r s) (kind_of_accepts_clSlotControl (s := s) h)

theorem clBankWrite_does (r : HostRequest) (s : State) : Does 0x0702 .clBankWrite r s [.cl] fun t =>
    (if r.u8 2 = 0 then (slotOf t (r.u16 0)).bankA else (slotOf t (r.u16 0)).bankB) = some {
      kp := r.s32 4, ki := r.u32 8, kd := r.u32 12, tf := r.u32 16, kt := r.u32 20, uMin := r.s32 24, uMax := r.s32 28 } := by
  refine does_of_only rfl rfl specClBankWrite_only (by decide) (fun _ _ => ⟨rfl, rfl⟩) fun h => ?_
  have hcl : (submit specClBankWrite r s).cl = _ := submit_after h .cl rfl
  rw [slotOf_of_cl hcl]
  have hslot := slotOf_modSlot_same (r.u16 0) (fun x : Slot =>
    if r.u8 2 = 0 then { x with bankA := some (coeffsOf r.payload) } else { x with bankB := some (coeffsOf r.payload) })
    (atStart 0x0702 r s)
  by_cases h2 : r.u8 2 = 0
  · rw [if_pos h2] at hslot ⊢
    exact congrArg Slot.bankA hslot
  · rw [if_neg h2] at hslot ⊢
    exact congrArg Slot.bankB hslot

theorem clInject_runs {r : HostRequest} {s : State} (h : Accepts specClInject r s) :
    Runs (.clInject r) s [.host, .cl, .pair] fun t => (r.u8 3 = 0 → Answered 0x0707 r .ok t ∧
      ∀ j, (slotOf s (r.u16 0)).inj = some j → ((slotOf t (r.u16 0)).inj.bind (fun x => x.stop)).isSome) ∧
      (r.u8 3 ≠ 0 → Answered 0x0707 r .accepted t ∧
      (slotOf t (r.u16 0)).inj.map (fun j => (j.shape, j.amp, j.count, j.started)) = some (r.u8 3, r.u32 4, r.u32 12, false)) := by
  have heff : (submit specClInject r s).cl = _ := submit_after h .cl rfl
  by_cases h3 : r.u8 3 = 0
  · have hval : specClInject.effect (atStart 0x0707 r s) (reqOf 0x0707 r) = (stopInjection (r.u16 0) 4 (atStart 0x0707 r s), {}) :=
      if_pos h3
    refine (runs_of_accepts (st := .ok) (P := fun t => ∀ j, (slotOf s (r.u16 0)).inj = some j →
      ((slotOf t (r.u16 0)).inj.bind (fun x => x.stop)).isSome) rfl specClInject_only (by decide) h
      (by rw [show specClInject.opcode = 0x0707 from rfl, hval]; exact ⟨rfl, rfl⟩) fun j hj => ?_).mono
      fun t ht => ⟨fun _ => ht, fun hne => absurd h3 hne⟩
    rw [slotOf_of_cl heff, show specClInject.opcode = 0x0707 from rfl, hval]
    exact inj_stopInjection _ _ (atStart 0x0707 r s) hj
  · have hval : specClInject.effect (atStart 0x0707 r s) (reqOf 0x0707 r) =
        (startInjection r.payload (ticketOf (reqOf 0x0707 r)) (atStart 0x0707 r s), { status := .accepted }) := if_neg h3
    refine (runs_of_accepts (st := .accepted) (P := fun t =>
      (slotOf t (r.u16 0)).inj.map (fun j => (j.shape, j.amp, j.count, j.started)) = some (r.u8 3, r.u32 4, r.u32 12, false))
      rfl specClInject_only (by decide) h
      (by rw [show specClInject.opcode = 0x0707 from rfl, hval]; exact ⟨rfl, rfl⟩) ?_).mono
      fun t ht => ⟨fun h0 => absurd h0 h3, fun _ => ht⟩
    rw [slotOf_of_cl heff, show specClInject.opcode = 0x0707 from rfl, hval]
    exact inj_startInjection ..

/-- A command that answers OK at once answers the payload of its effect. -/
theorem answerBytes_of_accepts {i : Instr} {c : CommandSpec} {r : HostRequest} {s : State} (hc : commandOf i = some (c, r))
    (h : Accepts c r s) (hreply : Replies .ok (c.effect (atStart c.opcode r s) (reqOf c.opcode r)).2) :
    answerBytes r (submit c r s) = (c.effect (atStart c.opcode r s) (reqOf c.opcode r)).2.payload := by
  rw [(submit_answers hc h hreply.1).2]
  exact if_pos (Or.inl hreply.2)

theorem take_le_append (n v : Nat) (l : List Byte) : (le n v ++ l).take n = le n v :=
  List.take_left' (by simp [le])

theorem clTraceRead_does (r : HostRequest) (s : State) : Does 0x0709 .clTraceRead r s [] fun t => t.cl = s.cl ∧
    (answerBytes r t).take 2 = le 2 (min (r.u16 4) ((s.cl.traces.get (r.u8 0)).entries.length - r.u16 2)) := by
  refine does_of_only rfl rfl specClTraceRead_only (by decide) (fun _ _ => ⟨rfl, rfl⟩) fun h => ⟨submit_after h .cl rfl, ?_⟩
  rw [answerBytes_of_accepts (i := .clTraceRead r) rfl h ⟨rfl, rfl⟩]
  dsimp only [specClTraceRead]
  rw [List.append_assoc, List.append_assoc, take_le_append, List.length_take, List.length_drop, List.length_reverse]
  rfl

/-- Settles O30: each clause is the command's effect on its slot, bank, controller, injection or trace. -/
theorem controlCommandsConfigureSlots : Obligations.ControlCommandsConfigureSlots := by
  unfold Obligations.ControlCommandsConfigureSlots
  intro r s
  refine ⟨?_, clBankWrite_does r s, ?_, ?_, clSlotControl_does r s, ?_, clInject_runs, ?_, clTraceRead_does r s, ?_⟩
  · refine does_of_only rfl rfl specClSlotConfig_only (by decide) (fun _ _ => ⟨rfl, rfl⟩) fun h => ?_
    have hcl : (submit specClSlotConfig r s).cl = (slotConfig r.payload (atStart 0x0701 r s)).cl := submit_after h .cl rfl
    rw [slotOf_of_cl hcl]
    refine ⟨fun h0 => ?_, fun k hk => ?_⟩
    · have hnone : slotKindOf (u8 r.payload 2) = none := (congrArg slotKindOf h0).trans (by decide)
      rw [slotConfig, hnone]
      exact slotOf_releaseSlot ..
    · have hset := setting_slotConfig (atStart 0x0701 r s) hk
      simpa only [Slot.setting, Prod.mk.injEq] using hset
  · refine does_of_only rfl rfl specClBankSwap_only (by decide) (fun _ _ => ⟨rfl, rfl⟩) fun h n hn => ?_
    have hcl : (submit specClBankSwap r s).cl = ((swapSlots r.payload).foldl (fun acc m =>
        modSlot m (fun x => { x with swap := x.bankSel != (r.u8 64 == 1) }) acc) (atStart 0x0703 r s)).cl := submit_after h .cl rfl
    rw [slotOf_of_cl hcl]
    exact slotOf_bankSwap _ (atStart 0x0703 r s) hn
  · refine does_of_only rfl rfl specClSetpoint_only (by decide) (fun _ _ => ⟨rfl, rfl⟩) fun h => ?_
    rw [slotOf_of_cl (submit_after h .cl rfl)]
    have hslot := slotOf_modSlot_same (r.u16 0) (fun x : Slot => { x with
      setpoint := r.s32 4
      spRamp := if r.u32 8 = 0 ∨ x.soft.isSome then none else some (baseSetpoint (now (atStart 0x0704 r s)) x,
        now (atStart 0x0704 r s), tcOfMs (r.u32 8)) }) (atStart 0x0704 r s)
    exact ⟨congrArg Slot.setpoint hslot, fun h8 => (congrArg Slot.spRamp hslot).trans (if_pos (Or.inl h8))⟩
  · refine does_of_only rfl rfl specClRepConfig_only (by decide) (fun _ _ => ⟨rfl, rfl⟩) fun h => ?_
    have hcl : (submit specClRepConfig r s).cl = (repConfig r.payload (atStart 0x0706 r s)).cl := submit_after h .cl rfl
    have hset := setting_repConfig r.payload (atStart 0x0706 r s)
    rw [State.rep, hcl]
    simpa only [Rep.setting, Prod.mk.injEq] using hset
  · refine does_of_only rfl rfl specClTraceConfig_only (by decide) (fun _ _ => ⟨rfl, rfl⟩) fun h => ?_
    have hcl : (submit specClTraceConfig r s).cl = (traceConfig r.payload (atStart 0x0708 r s)).cl := submit_after h .cl rfl
    have htrace : (submit specClTraceConfig r s).cl.traces.get (r.u8 0) =
        armTrace (r.u8 1) (r.u16 2) (r.u16 4) (r.u16 6) (r.u8 8) := by
      rw [hcl]
      exact get_set_same ..
    rw [htrace]
    exact ⟨rfl, rfl, rfl, rfl⟩
  · exact does_of_only rfl rfl specClPolicy_only (by decide) (fun _ _ => ⟨rfl, rfl⟩) fun h => submit_after h .cl rfl

end Sys2Proof.Machine
end

section
set_option Elab.async false
/-! The iterations of the control engine (R181–R207). Of a slot, what the parts of an iteration leave alone is followed through any
function of the slot that the change of the slot leaves alone. -/

namespace Sys2Proof.Machine

open Sys2Proof

section
set_option Elab.async false
variable {β : Type} (g : Slot → β)

theorem modSlot_keeps {m : Nat} {f : Slot → Slot} (s : State) (n : Nat) (hf : ∀ x, g (f x) = g x := by exact fun _ => rfl) :
    g (slotOf (modSlot m f s) n) = g (slotOf s n) := by
  by_cases h : n = m
  · subst h
    rw [slotOf_modSlot_same, hf]
  · rw [slotOf_modSlot_other _ _ h]

theorem slotOf_writeGcmd (e : Nat) (u : Int) (s : State) (n : Nat) : slotOf (writeGcmd e u s) n = slotOf s n :=
  slotOf_of_cl (writeGcmd_only (Only.refl 453 s) rfl .cl rfl) n

theorem slotOf_requestAtten (c v : Nat) (s : State) (n : Nat) : slotOf (requestAtten c v s).1 n = slotOf s n :=
  slotOf_of_cl (requestAtten_only (Only.refl 96 s) rfl .cl rfl) n

theorem slotOf_raiseLevel (r : Raise) (s : State) (n : Nat) : slotOf (raiseLevel r s) n = slotOf s n :=
  slotOf_of_cl (by simp) n

theorem slotOf_submitLog (c i : Nat) (l : List Nat) (s : State) (n : Nat) : slotOf (submitLog c i l s) n = slotOf s n :=
  slotOf_of_cl (by simp) n

theorem slotOf_modCl {f : ClState → ClState} (s : State) (n : Nat) (hf : ∀ c : ClState, (f c).slots = c.slots) :
    slotOf (s.modCl f) n = slotOf s n :=
  congrArg (fun b : Bank Slot => b.get n) (hf s.cl)

theorem slotOf_recordTrace (m k : Nat) (abandoned late : Bool) (latency : Nat) (s : State) (n : Nat) :
    slotOf (recordTrace m k abandoned late latency s) n = slotOf s n :=
  slotOf_modCl s n fun _ => rfl

theorem slotOf_noteUsage (c : Nat) (s : State) (n : Nat) : slotOf (noteUsage c s) n = slotOf s n :=
  slotOf_modCl s n fun _ => rfl

theorem holding_recordTrace (m k : Nat) (abandoned late : Bool) (latency : Nat) (s : State) (c : Nat) (u : UnitId) :
    holding (recordTrace m k abandoned late latency s) c u = holding s c u :=
  congrArg (fun f : FaultState => f.conditions.any (fun x => x.cls == c && x.unit == u))
    (recordTrace_only (Only.refl 1024 s) rfl .fault rfl)

theorem overruns_causeTraces (n : Nat) (c : TraceCause) (s : State) : (causeTraces n c s).cl.overruns = s.cl.overruns := rfl

theorem overruns_stopInjection (n why : Nat) (s : State) : (stopInjection n why s).cl.overruns = s.cl.overruns := rfl

theorem overruns_count (n : Nat) (f : Slot → Slot) (s : State) :
    ((modSlot n f s).modCl (fun c => { c with overruns := c.overruns + 1 })).cl.overruns = s.cl.overruns + 1 := rfl

theorem overruns_recordTrace (m k : Nat) (abandoned late : Bool) (latency : Nat) (s : State) :
    (recordTrace m k abandoned late latency s).cl.overruns = s.cl.overruns := rfl

theorem rep_modRep (n : Nat) (f : Rep → Rep) (s : State) : (modRep n f s).rep n = f (s.rep n) := get_mod_same ..

theorem slotOf_advanceToAir (i : AirInstant) (s : State) (n : Nat) : slotOf (advanceToAir i s) n = slotOf s n :=
  slotOf_of_cl advanceToAir_keeps_cl n

end

/-! ## What an iteration leaves of the slot's count and instant -/

/-- The iterations of a slot since it was enabled, and its last sample. -/
def Slot.samples (x : Slot) : Nat × Option AirInstant := (x.iter, x.lastAt)

theorem samples_setSat (m : Nat) (v w : Int) (s : State) (n : Nat) : (slotOf (setSat m v w s) n).samples = (slotOf s n).samples := by
  unfold setSat
  extract_lets x s1
  have h1 : (slotOf s1 n).samples = (slotOf s n).samples := modSlot_keeps Slot.samples s n
  split
  · rw [slotOf_causeTraces]
    exact h1
  · exact h1

theorem samples_noteLimit (m : Nat) (c : Coeffs) (s : State) (n : Nat) :
    (slotOf (noteLimit m c s) n).samples = (slotOf s n).samples := by
  unfold noteLimit
  extract_lets x
  split
  · exact modSlot_keeps Slot.samples s n
  · rw [slotOf_endFault]
    exact modSlot_keeps Slot.samples s n

theorem samples_putOutput (m : Nat) (u : Int) (s : State) (n : Nat) :
    (slotOf (putOutput m u s) n).samples = (slotOf s n).samples := by
  unfold putOutput
  split
  · rw [slotOf_writeGcmd]
    exact modSlot_keeps Slot.samples s n
  · exact modSlot_keeps Slot.samples s n

theorem samples_gainIteration (m : Nat) (c : Coeffs) (s : State) (n : Nat) :
    (slotOf (gainIteration m c s) n).samples = (slotOf s n).samples := by
  unfold gainIteration
  extract_lets x p t target j v u0 u s1 w s2
  have h1 : (slotOf s1 n).samples = (slotOf s n).samples := by
    unfold s1
    split
    · rfl
    · exact samples_putOutput ..
  exact ((samples_noteLimit ..).trans (samples_setSat ..)).trans ((modSlot_keeps Slot.samples s1 n).trans h1)

theorem samples_chainGainIteration (m : Nat) (c : Coeffs) (w : Int) (s : State) (n : Nat) :
    (slotOf (chainGainIteration m c w s) n).samples = (slotOf s n).samples := by
  unfold chainGainIteration
  extract_lets x a v s1
  have h1 : (slotOf s1 n).samples = (slotOf s n).samples := by
    unfold s1
    split
    · rfl
    · exact congrArg Slot.samples (slotOf_requestAtten ..)
  exact (samples_noteLimit ..).trans ((modSlot_keeps Slot.samples s1 n).trans h1)

theorem samples_pidIteration (m : Nat) (c : Coeffs) (y : Int) (s : State) (n : Nat) :
    (slotOf (pidIteration m c y s) n).samples = (slotOf s n).samples := by
  unfold pidIteration
  extract_lets x p t overrun k target r e j d i0 v u0 u s1 w inner push stopped integ s2
  have h1 : (slotOf s1 n).samples = (slotOf s n).samples := by
    unfold s1
    split
    · rfl
    · exact samples_putOutput ..
  exact ((samples_noteLimit ..).trans (samples_setSat ..)).trans ((modSlot_keeps Slot.samples s1 n).trans h1)

theorem samples_takeSwap (m : Nat) (s : State) (n : Nat) : (slotOf (takeSwap m s) n).samples = (slotOf s n).samples := by
  unfold takeSwap
  extract_lets x s1 s2 s3
  split
  · rfl
  · have h1 : (slotOf s1 n).samples = (slotOf s n).samples := modSlot_keeps Slot.samples s n
    have h2 : (slotOf s2 n).samples = (slotOf s n).samples := by
      unfold s2
      split
      · split
        · exact h1
        · exact (modSlot_keeps Slot.samples s1 n).trans h1
      · exact h1
    split
    · rw [slotOf_submitLog]
      exact h2
    · exact h2

theorem samples_runIteration (m : Nat) (f : Feed) (s : State) (n : Nat) :
    (slotOf (runIteration m f s) n).samples = (slotOf s n).samples := by
  unfold runIteration
  extract_lets x s1 s2 s3
  have h1 : (slotOf s1 n).samples = (slotOf s n).samples := (modSlot_keeps Slot.samples _ n).trans (samples_takeSwap ..)
  have h2 : (slotOf s2 n).samples = (slotOf s n).samples := by
    unfold s2
    split
    · exact h1
    · split
      · exact (samples_gainIteration ..).trans h1
      · exact (samples_chainGainIteration ..).trans h1
      · exact (samples_pidIteration ..).trans h1
      · exact h1
  have h3 : (slotOf s3 n).samples = (slotOf s n).samples := (modSlot_keeps Slot.samples s2 n).trans h2
  split
  · exact h3
  · exact h3

theorem samples_holdIteration (m : Nat) (f : Feed) (s : State) (n : Nat) :
    (slotOf (holdIteration m f s) n).samples = (slotOf s n).samples := by
  unfold holdIteration stopInjection
  extract_lets x s1 s2
  have h1 : (slotOf s1 n).samples = (slotOf s n).samples := modSlot_keeps Slot.samples s n
  have h2 : (slotOf s2 n).samples = (slotOf s n).samples := by
    unfold s2
    split
    · exact h1
    · exact (modSlot_keeps Slot.samples s1 n).trans h1
  split
  · exact h2
  · rw [slotOf_causeTraces]
    exact h2

theorem samples_checkLevel (tol : Int) (b : Nat) (base y : Int) (x : Slot) :
    (checkLevel tol b base y x).2.samples = x.samples := by
  unfold checkLevel
  extract_lets k meas m v lim
  split
  · rfl
  · split <;> rfl

theorem samples_notePlausibility (m : Nat) (f : Feed) (s : State) (n : Nat) :
    (slotOf (notePlausibility m f s) n).samples = (slotOf s n).samples := by
  unfold notePlausibility
  extract_lets x u checked s1
  have h1 : (slotOf s1 n).samples = (slotOf s n).samples := by
    unfold s1
    split
    · split
      · exact modSlot_keeps Slot.samples s n fun _ => samples_checkLevel ..
      · rfl
    · split
      · exact modSlot_keeps Slot.samples s n
      · split
        · exact modSlot_keeps Slot.samples s n
        · rfl
    · rfl
  split
  · exact h1
  · split
    · split
      · rw [slotOf_raiseLevel, h1]
      · exact h1
    · split
      · rw [slotOf_endFault, h1]
      · exact h1

theorem run_holdIteration (n : Nat) (f : Feed) (s : State) : (slotOf (holdIteration n f s) n).run = .hold := by
  unfold holdIteration stopInjection
  extract_lets x s1 s2
  have h1 : (slotOf s1 n).run = .hold := congrArg Slot.run (slotOf_modSlot_same n _ s)
  have h2 : (slotOf s2 n).run = .hold := by
    unfold s2
    split
    · exact h1
    · exact (modSlot_keeps Slot.run s1 n).trans h1
  split
  · exact h2
  · rw [slotOf_causeTraces]
    exact h2

/-! ## The service of a GAIN slot's unit -/

theorem serviceCode_ne_zero {s : State} {u : UnitId} : serviceCode s u ≠ 0 ↔ penned s u = true ∨ s.fault.paddock.contains u = true := by
  unfold serviceCode inPaddock
  cases penned s u <;> simp

/-- A GAIN slot whose unit is out of service has no sample to work with (R187). -/
theorem slotFeed_of_out {n : Nat} {i : IterInput} {s : State} (hkind : (slotOf s n).kind = some .gain)
    (hout : serviceCode s (ebUnit (slotOf s n).target) ≠ 0) : slotFeed s n i = staleFeed := by
  have hinner : isOuter (slotOf s n) = false := by
    rw [isOuter, hkind]
    rfl
  have hunit : actuated s (slotOf s n) = ebUnit (slotOf s n).target := by
    rw [actuated, hkind, baseSlot, hinner]
    rfl
  unfold slotFeed
  extract_lets x e lim out shut
  rw [hkind]
  exact if_pos (Or.inl (by rw [show out = (serviceCode s (actuated s (slotOf s n)) ≠ 0) from rfl, hunit]; exact hout))

/-- What the samples, the kind and the target of a slot follow. -/
def Slot.binding (x : Slot) : (Nat × Option AirInstant) × Option SlotKind × Nat := (x.samples, x.kind, x.target)

theorem binding_beginInjection (m : Nat) (s : State) (n : Nat) :
    (slotOf (beginInjection m s) n).binding = (slotOf s n).binding :=
  modSlot_keeps Slot.binding s n

theorem binding_stopInjection (m why : Nat) (s : State) (n : Nat) :
    (slotOf (stopInjection m why s) n).binding = (slotOf s n).binding :=
  modSlot_keeps Slot.binding s n

theorem slotIteration_iterates {n : Nat} {i : IterInput} {s : State} (hon : slotEnabled (slotOf s n) = true)
    (hturn : slotTurn s n = true) :
    (slotOf (slotIteration n i s) n).samples =
      ((slotOf s n).iter + 1, some (dueSample s.air (periodExp s (slotOf s n)) (slotOf s n))) ∧
    ((slotOf s n).kind = some .gain → serviceCode s (actuated s (slotOf s n)) ≠ 0 →
      (slotOf (slotIteration n i s) n).run = .hold) := by
  unfold slotIteration
  extract_lets x due s1 sample s2 s3 f s4 s5 s6 lim s7
  rw [if_neg (by rw [hon, hturn]; simp)]
  have hadvance : Only 1 s s2 := advanceTo_only (advanceToAir_only (Only.refl 1 s) rfl) rfl
  clear_value s2
  have hinject : Only 1024 s2 s3 ∧ (slotOf s3 n).binding = (slotOf s2 n).binding := by
    unfold s3
    split
    next j hj =>
      extract_lets a
      have ha : Only 1024 s2 a ∧ (slotOf a n).binding = (slotOf s2 n).binding := by
        unfold a
        split
        · exact ⟨beginInjection_only (Only.refl 1024 s2) rfl, binding_beginInjection ..⟩
        · exact ⟨Only.refl 1024 s2, rfl⟩
      split
      · exact ⟨stopInjection_only ha.1 rfl, (binding_stopInjection ..).trans ha.2⟩
      · exact ha
    next => exact ⟨Only.refl 1024 s2, rfl⟩
  clear_value s3
  have hbind : (slotOf s3 n).binding = x.binding := hinject.2.trans (congrArg Slot.binding (slotOf_of_cl (hadvance .cl rfl) n))
  have h4 : (slotOf s4 n).samples = x.samples := (samples_notePlausibility ..).trans (congrArg Prod.fst hbind)
  have h5 : (slotOf s5 n).samples = (x.iter + 1, some due) := by
    rw [slotOf_modSlot_same]
    exact congrArg (fun p : Nat × Option AirInstant => (p.1 + 1, some due)) h4
  have h6 : (slotOf s6 n).samples = (x.iter + 1, some due) := by
    unfold s6
    split
    · exact (samples_runIteration ..).trans h5
    · exact (samples_holdIteration ..).trans h5
  have hhold : x.kind = some .gain → serviceCode s (actuated s x) ≠ 0 → (slotOf s6 n).run = .hold := by
    intro hkind hout
    have hkind3 : (slotOf s3 n).kind = some .gain := (congrArg (fun p => p.2.1) hbind).trans hkind
    have htarget3 : (slotOf s3 n).target = x.target := congrArg (fun p => p.2.2) hbind
    have hunit : actuated s x = ebUnit x.target := by
      rw [actuated, show x.kind = some .gain from hkind, baseSlot, isOuter, show x.kind = some .gain from hkind]
      rfl
    have hfault : s3.fault = s.fault := (hinject.1 .fault rfl).trans (hadvance .fault rfl)
    have hpenned : penned s3 (ebUnit x.target) = penned s (ebUnit x.target) :=
      (Carried.of_parts (congrArg LgState.beyondCanc ((hinject.1 .lg rfl).trans (hadvance .lg rfl)))
        ((hinject.1 .ce rfl).trans (hadvance .ce rfl))
        (congrArg FlState.memberId ((hinject.1 .fl rfl).trans (hadvance .fl rfl)))).penned hfault _
    rw [show actuated s x = ebUnit x.target from hunit, serviceCode_ne_zero] at hout
    have hfeed : f = staleFeed := slotFeed_of_out hkind3 (by
      rw [htarget3, serviceCode_ne_zero, hpenned, hfault]
      exact hout)
    unfold s6
    rw [if_neg (by rw [hfeed]; decide)]
    exact run_holdIteration ..
  clear_value s6
  have h7 {β : Type} (g : Slot → β) (hg : ∀ (y : Slot) l, g { y with limiter := l } = g y) :
      g (slotOf s7 n) = g (slotOf s6 n) := by
    unfold s7
    split
    · exact modSlot_keeps g (causeTraces n .limiter s6) n fun y => hg y lim
    · rfl
  clear_value s7
  rw [slotOf_noteUsage, slotOf_recordTrace]
  exact ⟨(h7 Slot.samples fun _ _ => rfl).trans h6, fun hkind hout => (h7 Slot.run fun _ _ => rfl).trans (hhold hkind hout)⟩

theorem slotIteration_waits {n : Nat} {i : IterInput} {s : State} (h : slotEnabled (slotOf s n) = false ∨ slotTurn s n = false) :
    slotIteration n i s = s := by
  unfold slotIteration
  exact if_pos h

/-! ## Overruns -/

/-- What an overrun counts and decides of a slot. -/
def Slot.overrun (x : Slot) : Nat × SlotRun × HoldReason := (x.overruns, x.run, x.reason)

theorem iterationOverrun_counts {n : Nat} {s : State} (hon : slotEnabled (slotOf s n) = true) :
    (slotOf (iterationOverrun n s) n).overruns = (slotOf s n).overruns + 1 ∧
    (iterationOverrun n s).cl.overruns = s.cl.overruns + 1 ∧
    (2 ≤ (slotOf s n).ovrRun → (slotOf (iterationOverrun n s) n).run = .hold ∧
      (slotOf (iterationOverrun n s) n).reason = .overrun ∧ holding (iterationOverrun n s) 0x50 (slotUnit n)) := by
  unfold iterationOverrun
  extract_lets x p due s1 third s2 s3 s4 s5
  rw [if_neg (by rw [hon]; decide)]
  have hcl1 : s1.cl = s.cl := advanceToAir_keeps_cl
  clear_value s1
  have hslot1 : slotOf s1 n = x := slotOf_of_cl hcl1 n
  have h2 : (slotOf s2 n).overrun =
      (x.overruns + 1, if third then SlotRun.hold else x.run, if third then HoldReason.overrun else x.reason) := by
    rw [slotOf_modSlot_same, hslot1]
    rfl
  have h3 : (slotOf s3 n).overrun = (slotOf s2 n).overrun := congrArg Slot.overrun (slotOf_modCl s2 n fun _ => rfl)
  have hcount3 : s3.cl.overruns = s.cl.overruns + 1 :=
    (overruns_count n _ s1).trans (congrArg (fun c : ClState => c.overruns + 1) hcl1)
  clear_value s2 s3
  have hstop : (slotOf (stopInjection n 1 s3) n).overrun = (slotOf s3 n).overrun := modSlot_keeps Slot.overrun s3 n
  have h4 : (slotOf s4 n).overrun = (slotOf s3 n).overrun := by
    unfold s4
    split
    · rw [slotOf_causeTraces]
      exact hstop
    · split
      · exact hstop
      · rfl
  have hcount4 : s4.cl.overruns = s3.cl.overruns := by
    unfold s4
    split
    · rw [overruns_causeTraces, overruns_stopInjection]
    · split
      · rw [overruns_stopInjection]
      · rfl
  have hcl5 : s5.cl = s4.cl := ite_keeps State.cl raiseLevel_keeps_cl
  have h5 : (slotOf s5 n).overrun =
      (x.overruns + 1, if third then SlotRun.hold else x.run, if third then HoldReason.overrun else x.reason) := by
    rw [slotOf_of_cl hcl5, h4, h3, h2]
  have hcount5 : s5.cl.overruns = s.cl.overruns + 1 := (congrArg ClState.overruns hcl5).trans (hcount4.trans hcount3)
  have hraised (hthird : third = true) : holding s5 0x50 (slotUnit n) := by
    unfold s5
    rw [if_pos hthird]
    exact holding_raiseLevel { cls := 0x50, unit := slotUnit n } s4
  clear_value s5
  simp only [Slot.overrun, Prod.mk.injEq] at h5
  obtain ⟨hover, hrun, hreason⟩ := h5
  rw [slotOf_recordTrace, overruns_recordTrace, holding_recordTrace]
  refine ⟨hover, hcount5, fun htwo => ?_⟩
  have hthird : third = true := decide_eq_true htwo
  rw [if_pos hthird] at hrun hreason
  exact ⟨hrun, hreason, hraised hthird⟩

theorem overrunHoldEnd_ends {n : Nat} {s : State} (hreason : (slotOf s n).reason = .overrun) (hresume : s.cl.resume ≤ (slotOf s n).onTime) :
    (slotOf (overrunHoldEnd n s) n).reason = .none ∧ ¬holding (overrunHoldEnd n s) 0x50 (slotUnit n) := by
  unfold overrunHoldEnd
  extract_lets x
  rw [if_pos ⟨hreason, hresume⟩]
  refine ⟨?_, ?_⟩
  · rw [slotOf_endFault, slotOf_modSlot_same]
  · rw [holding_endFault]
    decide

theorem loopSaturatedTimeout_raises {n k : Nat} {s : State} (h : (slotOf s n).limitAt = some k) :
    holding (loopSaturatedTimeout n s) 0x52 (slotUnit n) ∧
      waited s (loopSaturatedTimeout n s) (k + s.cl.satTime * 196608000) := by
  unfold loopSaturatedTimeout
  rw [h]
  refine ⟨holding_raiseLevel { cls := 0x52, unit := slotUnit n } _, ?_⟩
  have hair : (raiseLevel { cls := 0x52, unit := slotUnit n } (advanceTo (k + s.cl.satTime * 196608000) s)).air =
      (advanceTo (k + s.cl.satTime * 196608000) s).air := raiseLevel_keeps_air
  dsimp only
  rw [waited, hair]
  exact advanceTo_waited _ s

/-! ## Injections -/

theorem injectionStart_starts {n : Nat} {j : Injection} {s : State} (hinj : (slotOf s n).inj = some j) (hidle : ¬j.started = true) :
    (slotOf (injectionStart n s) n).inj = some { j with started := true } := by
  unfold injectionStart
  extract_lets x
  rw [show x.inj = some j from hinj]
  dsimp -zeta only
  rw [if_neg hidle]
  extract_lets s1
  have h1 : slotOf s1 n = x := by
    unfold s1
    split
    · rw [slotOf_advanceToAir]
    · rfl
  clear_value s1
  rw [beginInjection, slotOf_causeTraces, slotOf_modSlot_same, slotOf_advanceToAir, h1]
  exact congrArg (Option.map _) hinj

theorem injectionEnd_removes {n : Nat} {j : Injection} {s : State} (hinj : (slotOf s n).inj = some j)
    (hover : j.count ≤ j.done ∨ j.stop ≠ none) :
    (slotOf (injectionEnd n s) n).inj = none ∧ (injectionEnd n s).cl.injDone = s.cl.injDone + 1 := by
  unfold injectionEnd
  rw [hinj]
  dsimp only
  rw [if_pos (hover.imp_right Option.isSome_iff_ne_none.mpr), endInjection, hinj]
  dsimp only
  have hcl (t : State) (d : Nat) : (complete j.ticket .ok d t).cl = t.cl := complete_only (Only.refl 2 t) rfl .cl rfl
  refine ⟨?_, ?_⟩
  · rw [slotOf_of_cl (hcl ..)]
    exact congrArg Slot.inj (slotOf_modSlot_same n (fun x => { x with inj := none, injected := 0 }) s)
  · rw [hcl]
    rfl

/-! ## Repetitive controllers -/

theorem writeGcmd_cl (e : Nat) (u : Int) (s : State) : (writeGcmd e u s).cl = s.cl := writeGcmd_only (Only.refl 452 s) rfl .cl rfl

theorem foldl_writeGcmd_cl (l : List (Nat × Int)) (s : State) : (l.foldl (fun acc p => writeGcmd p.1 p.2 acc) s).cl = s.cl :=
  foldl_keeps State.cl (fun _ _ => writeGcmd_cl ..) l s

theorem rep_of_cl {s t : State} (h : t.cl = s.cl) (n : Nat) : t.rep n = s.rep n := congrArg (fun c : ClState => c.reps.get n) h

theorem repBinBoundary_moves {n : Nat} {d : PatternDef} {s : State} (hd : repPattern s n = some d) (hon : (s.rep n).enabled = true) :
    ((repBinBoundary n s).rep n).bin = some (nextBin s.air d (s.rep n)).2 ∧
      ((repBinBoundary n s).rep n).binAt = some (nextBin s.air d (s.rep n)).1 := by
  unfold repBinBoundary
  split
  next hnone => rw [hd] at hnone; cases hnone
  next d' hd' =>
    obtain rfl : d = d' := Option.some.inj (hd.symm.trans hd')
    extract_lets r
    rw [if_neg (by rw [show r.enabled = true from hon]; simp)]
    split
    next i b hib =>
      extract_lets s1
      have h1 : s1.rep n = _ := rep_modRep ..
      rw [rep_of_cl (foldl_writeGcmd_cl (repTargets s1 n) s1), h1, hib]
      generalize (advanceToAir i s).rep n = y
      exact ⟨rfl, rfl⟩

theorem repTableClear_clears {n : Nat} {s : State} (hclear : (s.rep n).clear = true) :
    ((repTableClear n s).rep n).clear = false ∧ ∀ b, ((repTableClear n s).rep n).table.get b = 0 := by
  unfold repTableClear
  extract_lets r s1 s2
  rw [if_neg (by rw [show r.clear = true from hclear]; decide)]
  have h2 : s2.rep n = clearRep (s1.rep n) := rep_modRep ..
  rw [rep_of_cl (foldl_writeGcmd_cl (repTargets s2 n) s2), h2]
  exact ⟨rfl, fun b => fill_get 0 b⟩

/-- Settles O31: each clause is the iteration, the overrun, the injection or the controller's bin of its row. -/
theorem controlSlotsIterate : Obligations.ControlSlotsIterate := by
  unfold Obligations.ControlSlotsIterate
  intro s n k i j d
  refine ⟨?_, fun hoff => ⟨?_, ?_⟩, ?_, ?_, ?_, ?_, ?_, ?_, ?_, ?_⟩
  · intro hon hturn
    obtain ⟨hsamples, hhold⟩ := slotIteration_iterates (i := i) hon hturn
    exact runs_of_only (t := slotIteration n i s) rfl execSlotIteration_only (by decide)
      ⟨congrArg Prod.fst hsamples, congrArg Prod.snd hsamples, hhold⟩
  · exact congrArg Host.Outcome.next (slotIteration_waits (Or.inl (Bool.eq_false_iff.mpr hoff)))
  · exact congrArg Host.Outcome.next (if_pos (Bool.eq_false_iff.mpr hoff))
  · exact fun hturn => congrArg Host.Outcome.next (slotIteration_waits (Or.inr (Bool.eq_false_iff.mpr hturn)))
  · exact fun hon => runs_of_only (t := iterationOverrun n s) rfl execIterationOverrun_only (by decide) (iterationOverrun_counts hon)
  · exact fun hreason hresume => runs_of_only (t := overrunHoldEnd n s) rfl execOverrunHoldEnd_only (by decide)
      (overrunHoldEnd_ends hreason hresume)
  · exact fun h => runs_of_only (t := loopSaturatedTimeout n s) rfl execLoopSaturatedTimeout_only (by decide)
      (loopSaturatedTimeout_raises h)
  · exact fun hinj hidle => runs_of_only (t := injectionStart n s) rfl execInjectionStart_only (by decide)
      (injectionStart_starts hinj hidle)
  · exact fun hinj hover => runs_of_only (t := injectionEnd n s) rfl execInjectionEnd_only (by decide)
      (injectionEnd_removes hinj hover)
  · exact fun hd hon => runs_of_only (t := repBinBoundary n s) rfl execRepBinBoundary_only (by decide) (repBinBoundary_moves hd hon)
  · intro hclear
    obtain ⟨hnot, htable⟩ := repTableClear_clears hclear
    exact runs_of_only (t := repTableClear n s) rfl execRepTableClear_only (by decide)
      ⟨by rw [hnot]; decide, htable⟩

end Sys2Proof.Machine
end

section
set_option Elab.async false
/-! The power stage's cassettes and comparators (R208–R233): what an operation leaves of one, and what a walk over several does to
each. -/

namespace Sys2Proof.Machine

open Sys2Proof

/-! ## A walk over numbered units -/

/-- A walk that touches only the numbers it visits. -/
theorem foldl_passes {β : Type} {f : State → Nat → State} {g : State → β} {n : Nat} {l : List Nat}
    (hf : ∀ s m, n ≠ m → g (f s m) = g s) (h : n ∉ l) (s : State) : g (l.foldl f s) = g s := by
  induction l generalizing s with
  | nil => rfl
  | cons m l ih =>
    rw [List.mem_cons, not_or] at h
    exact (ih h.2 _).trans (hf s m h.1)

/-- A walk without repeats visits a number once, and finds there what stood there at its start. -/
theorem foldl_visits {β : Type} {f : State → Nat → State} {g : State → β} {n : Nat} {l : List Nat}
    (hf : ∀ s m, n ≠ m → g (f s m) = g s) (hnodup : l.Nodup) (h : n ∈ l) (s : State) :
    ∃ u, g u = g s ∧ g (l.foldl f s) = g (f u n) := by
  induction l generalizing s with
  | nil => exact absurd h List.not_mem_nil
  | cons m l ih =>
    obtain ⟨hm, hl⟩ := List.nodup_cons.mp hnodup
    obtain rfl | hmem := List.mem_cons.mp h
    · exact ⟨s, rfl, foldl_passes hf hm _⟩
    · obtain ⟨u, hu, hval⟩ := ih hl hmem (f s m)
      refine ⟨u, hu.trans (hf s m ?_), hval⟩
      rintro rfl
      exact hm hmem

theorem nodup_maskBits (m : Nat) : (maskBits m).Nodup := List.nodup_range.filter _

theorem mem_maskBits {m n : Nat} (hn : n < 64) (h : m.testBit n = true) : n ∈ maskBits m := by
  simp only [maskBits, List.mem_filter, List.mem_range]
  exact ⟨hn, h⟩

/-! ## Cassettes and comparators -/

theorem cas_of_ps {s t : State} (h : t.ps = s.ps) (n : Nat) : cas t n = cas s n :=
  congrArg (fun p : PsState => p.cassettes.get n) h

theorem cmp_of_ps {s t : State} (h : t.ps = s.ps) (c : Nat) : t.cmp c = s.cmp c :=
  congrArg (fun p : PsState => p.cmps.get c) h

theorem cas_modCas_same (n : Nat) (f : Cassette → Cassette) (s : State) : cas (modCas n f s) n = f (cas s n) := get_mod_same ..

theorem cas_modCas_other {n m : Nat} (f : Cassette → Cassette) (s : State) (h : m ≠ n) : cas (modCas n f s) m = cas s m :=
  get_mod_other _ _ h

theorem cmp_modCmp_same (c : Nat) (f : Cmp → Cmp) (s : State) : (modCmp c f s).cmp c = f (s.cmp c) := get_mod_same ..

theorem cmp_modCmp_other {c d : Nat} (f : Cmp → Cmp) (s : State) (h : d ≠ c) : (modCmp c f s).cmp d = s.cmp d :=
  get_mod_other _ _ h

theorem cmp_modCas (n : Nat) (f : Cassette → Cassette) (s : State) (c : Nat) : (modCas n f s).cmp c = s.cmp c := rfl

theorem cas_modCmp (c : Nat) (f : Cmp → Cmp) (s : State) (n : Nat) : cas (modCmp c f s) n = cas s n := rfl

/-- What a change of a cassette leaves alone of it stays. -/
theorem modCas_keeps {β : Type} (g : Cassette → β) {m : Nat} {f : Cassette → Cassette} (s : State) (n : Nat)
    (hf : ∀ x, g (f x) = g x := by exact fun _ => rfl) : g (cas (modCas m f s) n) = g (cas s n) := by
  by_cases h : n = m
  · subst h
    rw [cas_modCas_same, hf]
  · rw [cas_modCas_other _ _ h]

theorem completeOpt_ps (t : Option Ticket) (st : Status) (d : Nat) (s : State) : (completeOpt t st d s).ps = s.ps :=
  completeOpt_only (Only.refl 2 s) rfl .ps rfl

theorem complete_ps (t : Ticket) (st : Status) (d : Nat) (s : State) : (complete t st d s).ps = s.ps :=
  complete_only (Only.refl 2 s) rfl .ps rfl

theorem completeEnable_ps (e : Option (List Ticket × Nat)) (st : Status) (s : State) : (completeEnable e st s).ps = s.ps :=
  completeEnable_only (Only.refl 2 s) rfl .ps rfl

/-- A fault on a cassette that waits for its enable ends the enable and nothing else of it. -/
theorem abortEnable_keeps {β : Type} (g : Cassette → β) (m : Nat) (s : State) (n : Nat)
    (hg : ∀ x, g { x with enabling := none, checkDue := false } = g x := by exact fun _ => rfl) :
    g (cas (abortEnable m s) n) = g (cas s n) := by
  unfold abortEnable
  extract_lets x
  split
  · rw [cas_of_ps (completeEnable_ps ..)]
    exact modCas_keeps g s n hg
  · rfl

theorem abortEnable_other {n m : Nat} (s : State) (h : n ≠ m) : cas (abortEnable m s) n = cas s n := by
  unfold abortEnable
  extract_lets x
  split
  · rw [cas_of_ps (completeEnable_ps ..), cas_modCas_other _ _ h]
  · rfl

theorem cmp_abortEnable (m : Nat) (s : State) (c : Nat) : (abortEnable m s).cmp c = s.cmp c := by
  unfold abortEnable
  extract_lets x
  split
  · rw [cmp_of_ps (completeEnable_ps ..), cmp_modCas]
  · rfl

/-- The stage after a cassette began to drain. -/
theorem startDraining_ps (n : Nat) (latch : Bool) (s : State) : (startDraining n latch s).ps =
    if drainOn (cas s n) then (modCas n (fun y => { y with
      pa := .draining, drainAt := now s, latched := y.latched || latch, enabling := none, biasRun := none }) s).ps else s.ps := by
  unfold startDraining
  extract_lets x s1 s2
  have h2 : s2.ps = s1.ps := completeEnable_ps ..
  clear_value s2
  split
  · split
    · rw [complete_ps, h2]
    · exact h2
  · rfl

theorem startDraining_same {n : Nat} {s : State} (latch : Bool) (h : drainOn (cas s n) = true) :
    cas (startDraining n latch s) n = { cas s n with
      pa := .draining, drainAt := now s, latched := (cas s n).latched || latch, enabling := none, biasRun := none } := by
  have hps := startDraining_ps n latch s
  rw [if_pos h] at hps
  rw [cas_of_ps hps, cas_modCas_same]

theorem startDraining_off {n : Nat} {s : State} (latch : Bool) (h : drainOn (cas s n) = false) :
    cas (startDraining n latch s) n = cas s n := by
  have hps := startDraining_ps n latch s
  rw [if_neg (by rw [h]; decide)] at hps
  rw [cas_of_ps hps]

theorem startDraining_other {n m : Nat} (latch : Bool) (s : State) (h : n ≠ m) : cas (startDraining m latch s) n = cas s n := by
  have hps := startDraining_ps m latch s
  split at hps
  · rw [cas_of_ps hps, cas_modCas_other _ _ h]
  · rw [cas_of_ps hps]

theorem cmp_startDraining (m : Nat) (latch : Bool) (s : State) (c : Nat) : (startDraining m latch s).cmp c = s.cmp c := by
  have hps := startDraining_ps m latch s
  split at hps
  · rw [cmp_of_ps hps, cmp_modCas]
  · rw [cmp_of_ps hps]

/-- A cassette that began to drain has its drain off. -/
theorem drainOn_startDraining (n : Nat) (latch : Bool) (s : State) : drainOn (cas (startDraining n latch s) n) = false := by
  cases h : drainOn (cas s n) with
  | true =>
    rw [startDraining_same latch h]
    rfl
  | false => rw [startDraining_off latch h, h]

theorem tryDrainUp_other {n m : Nat} (s : State) (h : n ≠ m) : cas (tryDrainUp m s) n = cas s n := by
  unfold tryDrainUp
  extract_lets x
  split
  · exact cas_modCas_other _ _ h
  · rfl

theorem cmp_tryDrainUp (m : Nat) (s : State) (c : Nat) : (tryDrainUp m s).cmp c = s.cmp c := by
  unfold tryDrainUp
  extract_lets x
  split
  · exact cmp_modCas ..
  · rfl

/-- A cassette with an enable waiting is in DRAIN_UP, or waits on. -/
theorem tryDrainUp_waits {n : Nat} {s : State} (h : (cas s n).enabling ≠ none) :
    (cas (tryDrainUp n s) n).pa = .drainUp ∨ (cas (tryDrainUp n s) n).enabling ≠ none := by
  unfold tryDrainUp
  extract_lets x
  split
  · left
    rw [cas_modCas_same]
  · exact Or.inr h

/-- Without an enable no drain is switched on. -/
theorem tryDrainUp_idle {n : Nat} {s : State} (h : (cas s n).enabling = none) : tryDrainUp n s = s := by
  unfold tryDrainUp
  extract_lets x
  refine if_neg fun hc => ?_
  have hsome := hc.2.1
  rw [show x.enabling = none from h] at hsome
  exact absurd hsome (by decide)

/-- A band change leaves the codes of a cassette, and its state, as they are. -/
theorem bandsChanged_keeps {β : Type} (g : Cassette → β) (s : State) (n : Nat)
    (hg : ∀ t m x, g (takeBand t m x) = g x) : g (cas (bandsChanged s) n) = g (cas s n) := by
  unfold bandsChanged
  refine foldl_keeps (fun t => g (cas t n)) (fun t m => ?_) _ s
  split
  · rfl
  · exact modCas_keeps g t n (hg t m)

end Sys2Proof.Machine
end

section
set_option Elab.async false
/-! The commands of the power stage (R208–R233). -/

namespace Sys2Proof.Machine

open Sys2Proof

/-- The E_STATE conditions of a command hold where validation finds nothing (R425). -/
theorem states_hold_of_validate {c : CommandSpec} {s : State} {q : Req} (h : validate c false s q = none) : c.states s q = true := by
  by_contra hno
  have hbad : (c.power.contains s.sys.power && c.lifecycle.contains s.sys.lifecycle && c.states s q) = false := by
    rw [Bool.eq_false_iff.mpr hno, Bool.and_false]
  unfold validate at h
  rw [if_pos (show false = false ∧ _ from ⟨rfl, hbad⟩)] at h
  repeat' split at h
  all_goals contradiction

/-- PA_ENABLE on one cassette touches no other. -/
theorem paEnableOne_other {n m : Nat} (action : Nat) (t : Ticket) (s : State) (h : n ≠ m) :
    cas (paEnableOne action t s m) n = cas s n := by
  unfold paEnableOne
  extract_lets x s1
  have h1 : cas s1 n = cas s n := abortEnable_other s h
  clear_value s1
  split
  · split
    · rw [cas_of_ps (complete_ps ..)]
    · exact cas_modCas_other _ _ h
    · rw [tryDrainUp_other _ h, cas_modCas_other _ _ h]
  · split
    · rw [cas_of_ps (complete_ps ..), h1]
    · rw [cas_modCas_other _ _ h, cas_of_ps (completeOpt_ps ..), h1]
    · rw [cas_modCas_other _ _ h, startDraining_other _ _ h, h1]

theorem paEnableOne_on (t : Ticket) (s : State) (n : Nat) : (cas (paEnableOne 1 t s n) n).pa = .ready ∨
    (cas (paEnableOne 1 t s n) n).pa = .drainUp ∨ (cas (paEnableOne 1 t s n) n).enabling ≠ none := by
  unfold paEnableOne
  extract_lets x s1
  rw [if_pos rfl]
  split
  next hpa =>
    rw [cas_of_ps (complete_ps ..)]
    exact Or.inl hpa
  next hpa =>
    rw [cas_modCas_same]
    exact Or.inr (Or.inl hpa)
  next =>
    refine Or.inr (tryDrainUp_waits ?_)
    rw [cas_modCas_same]
    exact Option.some_ne_none _

theorem paEnableOne_off {t : Ticket} {s : State} {n : Nat} (hpresent : (cas s n).pa ≠ .absent) :
    (cas (paEnableOne 0 t s n) n).pa = .pinched ∨ (cas (paEnableOne 0 t s n) n).pa = .draining := by
  unfold paEnableOne
  extract_lets x s1
  have h1 : (cas s1 n).pa = x.pa := abortEnable_keeps Cassette.pa n s n
  clear_value s1
  rw [if_neg (by decide)]
  split
  next hpa =>
    rw [cas_of_ps (complete_ps ..), h1]
    exact Or.inl hpa
  next hpa =>
    rw [cas_modCas_same, cas_of_ps (completeOpt_ps ..)]
    exact Or.inr (h1.trans hpa)
  next hpinched hdraining =>
    right
    have hon : drainOn (cas s1 n) = true := by
      rw [drainOn, h1]
      have hneabsent : x.pa ≠ .absent := hpresent
      revert hpinched hdraining hneabsent
      cases x.pa <;> simp
    rw [cas_modCas_same, startDraining_same false hon]

/-- An accepted PA_ENABLE names only cassettes that are there. -/
theorem present_of_accepts_paEnable {r : HostRequest} {s : State} (h : Accepts specPaEnable r s) {n : Nat} (hn : n < 64)
    (hbit : (r.u8 0).testBit n = true) : (cas s n).pa ≠ .absent := by
  have hstates := states_hold_of_validate h.2
  have hall : ((maskBits (r.u8 0)).all fun n => (cas (atStart 0x0806 r s) n).pa != .absent) = true := by
    simp only [specPaEnable, Bool.and_eq_true] at hstates
    exact hstates.1.2
  exact bne_iff_ne.mp (List.all_eq_true.mp hall n (mem_maskBits hn hbit))

theorem paEnable_runs {r : HostRequest} {s : State} (h : Accepts specPaEnable r s) :
    Runs (.paEnable r) s [.host, .ps, .pair] fun t => Answered 0x0806 r .accepted t ∧ ∀ n, n < 8 → (r.u8 0).testBit n →
      (r.u8 1 = 1 → (cas t n).pa = .ready ∨ (cas t n).pa = .drainUp ∨ (cas t n).enabling ≠ none) ∧
      (r.u8 1 = 0 → (cas t n).pa = .pinched ∨ (cas t n).pa = .draining) := by
  refine runs_of_accepts rfl specPaEnable_only (by decide) h ⟨rfl, rfl⟩ fun n hn hbit => ?_
  have hps : (submit specPaEnable r s).ps = ((maskBits (r.u8 0)).foldl (paEnableOne (r.u8 1) (ticketOf (reqOf 0x0806 r)))
    (atStart 0x0806 r s)).ps := submit_after h .ps rfl
  obtain ⟨u, hu, hval⟩ := foldl_visits (f := paEnableOne (r.u8 1) (ticketOf (reqOf 0x0806 r))) (g := fun t => cas t n)
    (fun s m hm => paEnableOne_other _ _ s hm) (nodup_maskBits _) (mem_maskBits (by omega) hbit) (atStart 0x0806 r s)
  rw [cas_of_ps hps, hval]
  refine ⟨fun h1 => ?_, fun h0 => ?_⟩
  · rw [h1]
    exact paEnableOne_on ..
  · rw [h0]
    refine paEnableOne_off ?_
    rw [hu]
    exact present_of_accepts_paEnable (s := s) h (by omega) hbit

theorem paBiasTable_does (r : HostRequest) (s : State) : Does 0x0803 .paBiasTable r s [.ps] fun t =>
    ¬(cas t (r.u8 0)).biasUnset ∧ (cas t (r.u8 0)).code = [r.u16 2, r.u16 4, r.u16 6, r.u16 8, r.u16 10, r.u16 12] := by
  refine does_of_only rfl rfl specPaBiasTable_only (by decide) (fun _ _ => ⟨rfl, rfl⟩) fun h => ?_
  have hps : (submit specPaBiasTable r s).ps = (bandsChanged (modCas (r.u8 0) (fun x => { x with
    code := (List.range 6).map (fun k => r.u16 (2 + 2 * k)), biasUnset := false }) (atStart 0x0803 r s))).ps := submit_after h .ps rfl
  have hkeeps := bandsChanged_keeps (fun x : Cassette => (x.biasUnset, x.code)) (modCas (r.u8 0) (fun x => { x with
    code := (List.range 6).map (fun k => r.u16 (2 + 2 * k)), biasUnset := false }) (atStart 0x0803 r s)) (r.u8 0) (fun _ _ _ => rfl)
  rw [cas_of_ps hps]
  rw [cas_modCas_same] at hkeeps
  obtain ⟨hset, hcode⟩ := Prod.mk.inj hkeeps
  exact ⟨by rw [hset]; exact Bool.false_ne_true, hcode⟩

theorem cmpMode_does (r : HostRequest) (s : State) : Does 0x0805 .cmpMode r s [.ps] fun t =>
    ∀ c, c < 40 → (r.u64 0).testBit c → (t.cmp c).mode = r.u8 8 ∧ (t.cmp c).trip ∧ ¬(t.cmp c).qualified := by
  refine does_of_only rfl rfl specCmpMode_only (by decide) (fun _ _ => ⟨rfl, rfl⟩) fun h c hc hbit => ?_
  have hps : (submit specCmpMode r s).ps = ((maskBits (r.u64 0)).foldl (fun acc c => modCmp c (fun x =>
    { x with mode := r.u8 8, qualified := false, trip := true, raised := false, leftAt := none }) acc) (atStart 0x0805 r s)).ps :=
    submit_after h .ps rfl
  obtain ⟨u, -, hval⟩ := foldl_visits (f := fun acc c => modCmp c (fun x =>
    { x with mode := r.u8 8, qualified := false, trip := true, raised := false, leftAt := none }) acc) (g := fun t => t.cmp c)
    (fun s m hm => cmp_modCmp_other _ s hm) (nodup_maskBits _) (mem_maskBits (by omega) hbit) (atStart 0x0805 r s)
  rw [cmp_of_ps hps, hval, cmp_modCmp_same]
  exact ⟨rfl, rfl, Bool.false_ne_true⟩

/-- Settles O32: each clause is the command's effect on its cassettes or comparators. -/
theorem powerStageCommandsConfigure : Obligations.PowerStageCommandsConfigure := by
  unfold Obligations.PowerStageCommandsConfigure
  intro r s
  refine ⟨?_, ?_, paBiasTable_does r s, ?_, cmpMode_does r s, paEnable_runs, fun h => ?_, ?_, ?_⟩
  · refine does_of_only rfl rfl specPaConfig_only (by decide) (fun _ _ => ⟨rfl, rfl⟩) fun h => ?_
    have hps : (submit specPaConfig r s).ps = _ := submit_after h .ps rfl
    rw [cas_of_ps hps]
    exact cas_modCas_same _ _ (atStart 0x0801 r s)
  · refine does_of_only rfl rfl specPaTiming_only (by decide) (fun _ _ => ⟨rfl, rfl⟩) fun h => ?_
    have hps : (submit specPaTiming r s).ps = _ := submit_after h .ps rfl
    rw [cas_of_ps hps]
    exact cas_modCas_same _ _ (atStart 0x0802 r s)
  · refine does_of_only rfl rfl specCmpConfig_only (by decide) (fun _ _ => ⟨rfl, rfl⟩) fun h => ?_
    have hps : (submit specCmpConfig r s).ps = _ := submit_after h .ps rfl
    rw [cmp_of_ps hps]
    exact cmp_modCmp_same _ _ (atStart 0x0804 r s)
  · refine runs_of_accepts rfl specPaBiasCal_only (by decide) h ⟨rfl, rfl⟩ ?_
    have hps : (submit specPaBiasCal r s).ps = (modCas (r.u8 0) (fun x => { x with
      biasRun := some ⟨ticketOf (reqOf 0x0807 r), now (atStart 0x0807 r s)⟩ }) (atStart 0x0807 r s)).ps := submit_after h .ps rfl
    rw [cas_of_ps hps, cas_modCas_same]
    exact Option.some_ne_none _
  · exact does_of_only rfl rfl specCasPolicy_only (by decide) (fun _ _ => ⟨rfl, rfl⟩) fun h => submit_after h .ps rfl
  · refine does_of_only rfl rfl specCasIdentityRead_only (by decide) (fun _ _ => ⟨rfl, rfl⟩) fun h => ⟨submit_after h .ps rfl, ?_⟩
    rw [answerBytes_of_accepts (i := .casIdentityRead r) rfl h ⟨rfl, rfl⟩]
    rfl

end Sys2Proof.Machine
end

section
set_option Elab.async false
/-! The cassettes' states, gate schedules and comparators (R209–R224). -/

namespace Sys2Proof.Machine

open Sys2Proof

/-! ## Cassette states (R211) -/

theorem drainRampEnd_pa {n : Nat} {v : Int} {s : State} (h : (cas s n).pa = .drainUp) :
    (cas (drainRampEnd n v s) n).pa = if drainGood s n v then .ready else .draining := by
  unfold drainRampEnd
  extract_lets x s1
  rw [if_neg (not_not_intro (show x.pa = .drainUp from h))]
  have h1 : cas s1 n = x := cas_of_ps advanceTo_keeps_ps n
  clear_value s1
  by_cases hgood : drainGood s n v
  · rw [if_pos hgood, if_pos hgood, cas_of_ps (completeEnable_ps ..), cas_modCas_same]
  · have hon : drainOn (cas s1 n) = true := by
      rw [h1, drainOn, show x.pa = .drainUp from h]
      rfl
    rw [if_neg hgood, if_neg hgood, cas_of_ps (raiseMoment_only (Only.refl 4 _) rfl .ps rfl), startDraining_same false hon]

theorem cassetteGone_keeps {β : Type} (g : Cassette → β) (m : Nat) (s : State) (n : Nat)
    (hg : ∀ x, g { x with derated := false } = g x := by exact fun _ => rfl) : g (cas (cassetteGone m s) n) = g (cas s n) := by
  unfold cassetteGone
  rw [cas_of_ps (dropBackoffs_only (Only.refl 452 _) rfl .ps rfl)]
  exact modCas_keeps g s n hg

theorem reachPinched_course (n : Nat) (s : State) : (cas (reachPinched n s) n).pa = (if (cas s n).lost then .absent else .pinched) ∧
    (cas (reachPinched n s) n).enabling = (cas s n).enabling := by
  unfold reachPinched
  extract_lets x s1
  have h1 : ((cas s1 n).pa, (cas s1 n).enabling) = (if x.lost then PaState.absent else .pinched, x.enabling) := by
    rw [cas_modCas_same]
  clear_value s1
  rw [cas_of_ps (completeOpt_ps ..)]
  have h2 : ((cas (if x.lost then cassetteGone n s1 else s1) n).pa, (cas (if x.lost then cassetteGone n s1 else s1) n).enabling) =
      ((cas s1 n).pa, (cas s1 n).enabling) :=
    ite_keeps (fun t => ((cas t n).pa, (cas t n).enabling))
      (cassetteGone_keeps (fun x : Cassette => (x.pa, x.enabling)) n s1 n)
  exact Prod.mk.inj (h2.trans h1)

theorem drainingComplete_settles {n us : Nat} {s : State} (h : (cas s n).pa = .draining) :
    waited s (drainingComplete n us s) ((cas s n).drainAt + tcOfUs (10 + min us 10000)) ∧
    ((cas s n).lost = true → (cas (drainingComplete n us s) n).pa = .absent) ∧
    (¬(cas s n).lost = true → (cas s n).enabling = none → (cas (drainingComplete n us s) n).pa = .pinched) := by
  unfold drainingComplete
  extract_lets x
  rw [if_neg (not_not_intro (show x.pa = .draining from h))]
  generalize hx : x.drainAt + tcOfUs (10 + min us 10000) = d
  have hwait := advanceTo_waited d s
  have h1 : cas (advanceTo d s) n = x := cas_of_ps advanceTo_keeps_ps n
  generalize advanceTo d s = s1 at *
  obtain ⟨hpa, hen⟩ := reachPinched_course n s1
  have hair2 : (reachPinched n s1).air = s1.air := reachPinched_only (Only.refl 2502 s1) rfl .air rfl
  generalize reachPinched n s1 = s2 at *
  rw [h1] at hpa hen
  have hair3 : (tryDrainUp n s2).air = s2.air := tryDrainUp_only (Only.refl 2048 s2) rfl .air rfl
  have hreview (t : State) : (reviewMove t).air = t.air := reviewMove_only (Only.refl 26 t) rfl .air rfl
  have hcas (t : State) : cas (reviewMove t) n = cas t n := cas_of_ps (reviewMove_only (Only.refl 26 t) rfl .ps rfl) n
  refine ⟨?_, fun hlost => ?_, fun hlost hidle => ?_⟩
  · rw [waited, hreview, hair3, hair2]
    exact hwait
  · rw [if_pos hlost] at hpa
    have hstay : tryDrainUp n s2 = s2 := by
      unfold tryDrainUp
      extract_lets y
      exact if_neg fun hc => absurd (hc.1.symm.trans hpa) (by decide)
    rw [hcas, hstay, hpa]
  · rw [if_neg hlost] at hpa
    rw [hcas, tryDrainUp_idle (hen.trans hidle), hpa]

theorem paEnableQualTimeout_drops {n k : Nat} {l : List Ticket} {s : State} (hen : (cas s n).enabling = some (l, k))
    (hpa : (cas s n).pa = .pinched) :
    (cas (paEnableQualTimeout n s) n).enabling = none ∧ waited s (paEnableQualTimeout n s) (k + tcOfMs 100) := by
  unfold paEnableQualTimeout
  extract_lets x
  rw [show x.enabling = some (l, k) from hen]
  dsimp -zeta only
  rw [if_pos (show x.pa = .pinched from hpa)]
  generalize hd : k + tcOfMs 100 = d
  have hwait := advanceTo_waited d s
  generalize advanceTo d s = s1 at *
  refine ⟨?_, ?_⟩
  · rw [cas_of_ps (completeEnable_ps ..), cas_modCas_same]
  · have hair (e : Option (List Ticket × Nat)) (t : State) : (completeEnable e .eNotReady t).air = t.air :=
      completeEnable_only (Only.refl 2 t) rfl .air rfl
    rw [waited, hair]
    exact hwait

/-! ## The HV link (R209) -/

/-- What the loss of the link does to one cassette. -/
def linkLost (s : State) (n : Nat) : State :=
  if (cas s n).pa = .absent then s
  else raiseMoment { cls := 0x62, unit := cassetteUnit n, direct := true, detail4 := 1 }
    (modCas n (fun y => { y with linkHold := true }) (startDraining n false (abortEnable n s)))

theorem raiseMoment_ps (r : Raise) (s : State) : (raiseMoment r s).ps = s.ps := raiseMoment_only (Only.refl 4 s) rfl .ps rfl

theorem linkLost_other {n m : Nat} (s : State) (h : n ≠ m) : cas (linkLost s m) n = cas s n := by
  unfold linkLost
  split
  · rfl
  · rw [cas_of_ps (raiseMoment_ps ..), cas_modCas_other _ _ h, startDraining_other _ _ h, abortEnable_other _ h]

theorem drainOn_linkLost (s : State) (n : Nat) : drainOn (cas (linkLost s n) n) = false := by
  unfold linkLost
  split
  next h =>
    rw [drainOn, h]
    rfl
  · rw [cas_of_ps (raiseMoment_ps ..)]
    exact (modCas_keeps drainOn _ n).trans (drainOn_startDraining ..)

/-- What the stage counts of its link. -/
def PsState.linkCount (p : PsState) : Bool × Nat := (p.link, p.linkLoss)

theorem linkCount_modCas (n : Nat) (f : Cassette → Cassette) (s : State) : (modCas n f s).ps.linkCount = s.ps.linkCount := rfl

theorem linkCount_linkLost (s : State) (n : Nat) : (linkLost s n).ps.linkCount = s.ps.linkCount := by
  unfold linkLost
  split
  · rfl
  · have hdrain (t : State) : (startDraining n false t).ps.linkCount = t.ps.linkCount := by
      rw [startDraining_ps]
      split <;> rfl
    have habort : (abortEnable n s).ps.linkCount = s.ps.linkCount := by
      unfold abortEnable
      extract_lets x
      split
      · rw [completeEnable_ps]
        rfl
      · rfl
    rw [raiseMoment_ps]
    generalize abortEnable n s = u at *
    exact (linkCount_modCas n _ _).trans ((hdrain u).trans habort)

theorem hvLinkTimeout_eq {s : State} (h : s.ps.link = true) : hvLinkTimeout s =
    (List.range 8).foldl linkLost (s.modPs (fun p => { p with link := false, linkLoss := p.linkLoss + 1 })) :=
  if_neg fun hoff => Bool.false_ne_true (hoff.symm.trans h)

theorem hvLinkTimeout_shuts {s : State} (h : s.ps.link = true) : (hvLinkTimeout s).ps.link = false ∧
    (hvLinkTimeout s).ps.linkLoss = s.ps.linkLoss + 1 ∧ ∀ m, m < 8 → drainOn (cas (hvLinkTimeout s) m) = false := by
  rw [hvLinkTimeout_eq h]
  generalize hs1 : s.modPs (fun p => { p with link := false, linkLoss := p.linkLoss + 1 }) = s1
  have hcount : ((List.range 8).foldl linkLost s1).ps.linkCount = (false, s.ps.linkLoss + 1) := by
    rw [foldl_keeps (fun t => t.ps.linkCount) linkCount_linkLost, ← hs1]
    rfl
  obtain ⟨hlink, hloss⟩ := Prod.mk.inj hcount
  refine ⟨hlink, hloss, fun m hm => ?_⟩
  obtain ⟨u, -, hval⟩ := foldl_visits (f := linkLost) (g := fun t => cas t m) (fun s k hk => linkLost_other s hk) List.nodup_range
    (List.mem_range.mpr hm) s1
  rw [hval]
  exact drainOn_linkLost u m

/-! ## Gate schedule (R215–R217) -/

theorem gateOnEdge_sched {n k : Nat} {s : State} (hmode : (cas s n).mode = 2) (hedge : nextEdge s n true = some k) :
    (cas (gateOnEdge n s) n).sched = true := by
  unfold gateOnEdge
  extract_lets x
  rw [if_neg (not_not_intro (show x.mode = 2 from hmode)), hedge]
  dsimp -zeta only
  extract_lets i s1 s2
  have h2 : (cas s2 n).sched = true := by
    rw [cas_modCas_same]
  clear_value s2
  split
  · exact (modCas_keeps Cassette.sched s2 n).trans h2
  · exact h2

theorem gateOffEdge_sched {n k : Nat} {s : State} (hmode : (cas s n).mode = 2) (hedge : nextEdge s n false = some k) :
    (cas (gateOffEdge n s) n).sched = false := by
  unfold gateOffEdge
  extract_lets x
  rw [if_neg (not_not_intro (show x.mode = 2 from hmode)), hedge]
  dsimp -zeta only
  extract_lets i s1
  rw [cas_modCas_same]

/-! ## Comparators (R219–R224) -/

theorem nodup_cassettesOf (c : Nat) : (cassettesOf c).Nodup := by
  unfold cassettesOf
  split
  · exact List.nodup_singleton _
  · split
    · decide
    · split
      · decide
      · exact List.nodup_range

/-- A trip that opens drain switches, on one cassette. -/
def openDrain (s : State) (n : Nat) : State := if drainOn (cas s n) then startDraining n true s else abortEnable n s

theorem openDrain_other {n m : Nat} (s : State) (h : n ≠ m) : cas (openDrain s m) n = cas s n := by
  unfold openDrain
  split
  · exact startDraining_other _ _ h
  · exact abortEnable_other _ h

theorem drainOn_openDrain (s : State) (n : Nat) : drainOn (cas (openDrain s n) n) = false := by
  unfold openDrain
  split
  · exact drainOn_startDraining ..
  next h =>
    rw [abortEnable_keeps drainOn n s n]
    exact Bool.eq_false_iff.mpr h

theorem cmp_openDrain (s : State) (n c : Nat) : (openDrain s n).cmp c = s.cmp c := by
  unfold openDrain
  split
  · exact cmp_startDraining ..
  · exact cmp_abortEnable ..

theorem openDrains_eq (c : Nat) (s : State) :
    openDrains c s = if opensDrain c then (cassettesOf c).foldl openDrain s else s := rfl

theorem cmp_openDrains (c : Nat) (s : State) (d : Nat) : (openDrains c s).cmp d = s.cmp d := by
  rw [openDrains_eq]
  exact ite_keeps (fun t => t.cmp d) (foldl_keeps (fun t => t.cmp d) (fun t m => cmp_openDrain t m d) _ s)

theorem drainOn_openDrains {c : Nat} (s : State) (h : opensDrain c = true) {m : Nat} (hm : m ∈ cassettesOf c) :
    drainOn (cas (openDrains c s) m) = false := by
  rw [openDrains_eq, if_pos h]
  obtain ⟨u, -, hval⟩ := foldl_visits (f := openDrain) (g := fun t => cas t m) (fun s k hk => openDrain_other s hk)
    (nodup_cassettesOf c) hm s
  rw [hval]
  exact drainOn_openDrain u m

theorem raiseCmp_ps (c : Nat) (moment : Bool) (s : State) : (raiseCmp c moment s).ps = s.ps :=
  raiseCmp_only (Only.refl 4 s) rfl .ps rfl

theorem endCmp_ps (c : Nat) (s : State) : (endCmp c s).ps = s.ps := endCmp_only (Only.refl 4 s) rfl .ps rfl

theorem requestUrgent_ps (c : Nat) (b : UrgentBy) (s : State) : (requestUrgent c b s).ps = s.ps :=
  requestUrgent_only (Only.refl 512 s) rfl .ps rfl

/-- What the events of a comparator say of it. -/
def Cmp.course (x : Cmp) : Bool × Nat × Nat := (x.trip, x.count, x.tripAt)

theorem comparatorTrip_trips {c : Nat} {v : Int} {s : State} (hc : c < 40) (hqualified : (s.cmp c).qualified = true)
    (htrip : ¬(s.cmp c).trip = true) (hbeyond : cmpBeyond s c v = true) :
    ((comparatorTrip c v s).cmp c).course = (true, (s.cmp c).count + 1, s.now) ∧
    (opensDrain c = true → ∀ m ∈ cassettesOf c, drainOn (cas (comparatorTrip c v s) m) = false) := by
  unfold comparatorTrip
  extract_lets x t w s1 s2 s3 s4
  rw [if_neg (by
    rw [show x.qualified = true from hqualified, show x.trip = false from Bool.eq_false_iff.mpr htrip, hbeyond]
    simp only [Bool.true_eq_false, Bool.false_eq_true, or_false]
    omega)]
  have h1 : (s1.cmp c).course = (true, x.count + 1, t) := by
    rw [cmp_modCmp_same]
    rfl
  have h2 : s2.cmp c = s1.cmp c := foldl_keeps (fun u => u.cmp c) (fun _ _ => cmp_modCas ..) _ s1
  clear_value s2
  have h3 : (s3.cmp c).course = (true, x.count + 1, t) := by rw [cmp_openDrains, h2, h1]
  have hdrain : opensDrain c = true → ∀ m ∈ cassettesOf c, drainOn (cas s3 m) = false :=
    fun hopens m hm => drainOn_openDrains s2 hopens hm
  clear_value s3
  by_cases hinput : c < 32 ∧ c % 4 ≠ 3
  · rw [if_pos hinput]
    have h4 : s4.ps = s3.ps := by
      unfold s4
      split
      · exact requestUrgent_ps ..
      · exact ite_keeps State.ps (requestUrgent_ps ..)
    have h5 : (if (cas s4 (c / 4)).tripLimit ≤ w.length then raiseCmp c true s4 else s4).ps = s3.ps :=
      (ite_keeps State.ps (raiseCmp_ps ..)).trans h4
    rw [cmp_of_ps h5]
    exact ⟨h3, fun hopens m hm => by rw [cas_of_ps h5]; exact hdrain hopens m hm⟩
  · rw [if_neg hinput]
    refine ⟨?_, fun hopens m hm => ?_⟩
    · rw [cmp_of_ps (raiseCmp_ps ..), cmp_modCmp_same]
      exact h3
    · rw [cas_of_ps (raiseCmp_ps ..), cas_modCmp]
      exact hdrain hopens m hm

theorem comparatorTripClear_leaves {c : Nat} {v : Int} {s : State} (hc : c < 40) (hqualified : (s.cmp c).qualified = true)
    (htrip : (s.cmp c).trip = true) (hsafe : cmpSafe s c v = true) :
    ((comparatorTripClear c v s).cmp c).trip = false ∧ ((comparatorTripClear c v s).cmp c).leftAt = some s.now := by
  unfold comparatorTripClear
  extract_lets x
  rw [if_neg (by
    rw [show x.qualified = true from hqualified, show x.trip = true from htrip, hsafe]
    simp only [Bool.true_eq_false, or_false]
    omega), cmp_of_ps (endCmp_ps ..), cmp_modCmp_same]
  exact ⟨rfl, rfl⟩

theorem comparatorQualify_qualifies {c : Nat} {v : Int} {s : State} (hc : c < 40) (hqualified : ¬(s.cmp c).qualified = true)
    (hsafe : cmpSafe s c v = true) :
    ((comparatorQualify c v s).cmp c).qualified = true ∧ ((comparatorQualify c v s).cmp c).trip = false := by
  unfold comparatorQualify
  rw [if_neg (by
    rw [Bool.eq_false_iff.mpr hqualified, hsafe]
    simp only [Bool.true_eq_false, Bool.false_eq_true, or_false]
    omega)]
  generalize hs1 : modCmp c (fun y => { y with qualified := true, trip := false, raised := false }) s = s1
  have h1 : (s1.cmp c).qualified = true ∧ (s1.cmp c).trip = false := by
    rw [← hs1, cmp_modCmp_same]
    exact ⟨rfl, rfl⟩
  have h2 : ((cassettesOf c).foldl (fun acc n => tryDrainUp n acc) s1).cmp c = s1.cmp c :=
    foldl_keeps (f := fun acc n => tryDrainUp n acc) (fun u => u.cmp c) (fun _ _ => cmp_tryDrainUp ..) _ s1
  rw [h2]
  exact h1

/-- A comparator's class stands on the one cassette on which a PA comparator acts. -/
theorem holding_raiseCmp {c : Nat} {s : State} (hc : c < 32) (hpa : (cas s (c / 4)).pa ≠ .absent) :
    holding (raiseCmp c false s) (0x60 + c % 4) (cassetteUnit (c / 4)) := by
  unfold raiseCmp
  rw [show cassettesOf c = [c / 4] from if_pos hc]
  simp only [List.foldl_cons, List.foldl_nil]
  rw [if_neg hpa, if_neg Bool.false_ne_true, ← show cmpClass c = 0x60 + c % 4 from if_pos hc]
  exact holding_raiseLevel { cls := cmpClass c, unit := cassetteUnit (c / 4), direct := true, detail4 := 3 + c } s

theorem tripHoldExpiry_raises {c : Nat} {s : State} (hc : c < 32) (hkind : c % 4 ≠ 3) (htrip : (s.cmp c).trip = true)
    (hqualified : (s.cmp c).qualified = true) (hraised : ¬(s.cmp c).raised = true) :
    ((tripHoldExpiry c s).cmp c).raised = true ∧
    waited s (tripHoldExpiry c s) ((s.cmp c).tripAt + tcOfUs (cas s (c / 4)).tripHold) ∧
    ((cas s (c / 4)).pa ≠ .absent → holding (tripHoldExpiry c s) (0x60 + c % 4) (cassetteUnit (c / 4))) := by
  unfold tripHoldExpiry
  extract_lets x s1
  rw [if_neg (by
    rw [show x.trip = true from htrip, show x.qualified = true from hqualified]
    simp only [Bool.true_eq_false, false_or]
    rintro (h | h | h)
    · omega
    · exact hkind h
    · exact hraised h)]
  have hwait : waited s s1 (x.tripAt + tcOfUs (cas s (c / 4)).tripHold) := advanceTo_waited _ s
  have hps : s1.ps = s.ps := advanceTo_keeps_ps
  clear_value s1
  have hair (f : Cmp → Cmp) : (raiseCmp c false (modCmp c f s1)).air = s1.air :=
    raiseCmp_only (modCmp_only (Only.refl 2052 s1) rfl) rfl .air rfl
  refine ⟨?_, ?_, fun hpa => holding_raiseCmp hc ?_⟩
  · rw [cmp_of_ps (raiseCmp_ps ..), cmp_modCmp_same]
  · rw [waited, hair]
    exact hwait
  · rw [cas_modCmp, cas_of_ps hps]
    exact hpa

/-- Settles O33: each clause is the row's effect on its cassette or comparator. -/
theorem cassettesRunAndTrip : Obligations.CassettesRunAndTrip := by
  unfold Obligations.CassettesRunAndTrip
  intro s n us c k v l
  refine ⟨fun h => ?_, fun h => ?_, fun hen hpa => ?_, fun h => ?_, fun hmode hedge => ?_, fun hmode hedge => ?_, fun hmode => ⟨?_, ?_⟩,
    fun hc hqualified htrip hbeyond => ?_, fun hc hqualified htrip hsafe => ?_, fun hc hqualified hsafe => ?_,
    fun hc hkind htrip hqualified hraised => ?_, fun hlast => ?_⟩
  · exact runs_of_only (t := drainRampEnd n v s) rfl execDrainRampEnd_only (by decide) (drainRampEnd_pa h)
  · exact runs_of_only (t := drainingComplete n us s) rfl execDrainingComplete_only (by decide) (drainingComplete_settles h)
  · exact runs_of_only (t := paEnableQualTimeout n s) rfl execPaEnableQualTimeout_only (by decide) (paEnableQualTimeout_drops hen hpa)
  · obtain ⟨hlink, hloss, hdrain⟩ := hvLinkTimeout_shuts h
    exact runs_of_only (t := hvLinkTimeout s) rfl execHvLinkTimeout_only (by decide)
      ⟨Bool.eq_false_iff.mp hlink, hloss, fun m hm => Bool.eq_false_iff.mp (hdrain m hm)⟩
  · exact runs_of_only (t := gateOnEdge n s) rfl execGateOnEdge_only (by decide) (gateOnEdge_sched hmode hedge)
  · exact runs_of_only (t := gateOffEdge n s) rfl execGateOffEdge_only (by decide) (Bool.eq_false_iff.mp (gateOffEdge_sched hmode hedge))
  · exact congrArg Host.Outcome.next (if_pos hmode)
  · exact congrArg Host.Outcome.next (if_pos hmode)
  · obtain ⟨hcourse, hdrain⟩ := comparatorTrip_trips hc hqualified htrip hbeyond
    obtain ⟨htripped, hrest⟩ := Prod.mk.inj hcourse
    obtain ⟨hcount, hat⟩ := Prod.mk.inj hrest
    exact runs_of_only (t := comparatorTrip c v s) rfl execComparatorTrip_only (by decide)
      ⟨htripped, hcount, hat, fun hopens m hm => Bool.eq_false_iff.mp (hdrain hopens m hm)⟩
  · obtain ⟨hleft, hat⟩ := comparatorTripClear_leaves hc hqualified htrip hsafe
    exact runs_of_only (t := comparatorTripClear c v s) rfl execComparatorTripClear_only (by decide) ⟨Bool.eq_false_iff.mp hleft, hat⟩
  · obtain ⟨hnow, hout⟩ := comparatorQualify_qualifies hc hqualified hsafe
    exact runs_of_only (t := comparatorQualify c v s) rfl execComparatorQualify_only (by decide) ⟨hnow, Bool.eq_false_iff.mp hout⟩
  · exact runs_of_only (t := tripHoldExpiry c s) rfl execTripHoldExpiry_only (by decide)
      (tripHoldExpiry_raises hc hkind htrip hqualified hraised)
  · refine runs_of_only (t := tOffMinExpiry n s) rfl execTOffMinExpiry_only (by decide) ?_
    unfold tOffMinExpiry
    extract_lets last
    have hk : last = k + 1 := hlast
    clear_value last
    subst hk
    rw [if_neg (Nat.succ_ne_zero k)]
    exact advanceTo_waited _ s

end Sys2Proof.Machine
end

section
set_option Elab.async false
/-! Cassette identity, bias calibration and life (R227–R232). -/

namespace Sys2Proof.Machine

open Sys2Proof

/-! ## What is latched stays latched -/

/-- From `s` to `t` raises and ends have been latched behind those that were. -/
structure LatchesOnto (s t : State) : Prop where
  latched : ∃ l, t.fault.latched = s.fault.latched ++ l

namespace LatchesOnto

theorem of_fault {s t : State} (h : t.fault = s.fault) : LatchesOnto s t := ⟨[], by rw [h, List.append_nil]⟩

theorem refl (s : State) : LatchesOnto s s := of_fault rfl

theorem trans {s t u : State} (h : LatchesOnto s t) (k : LatchesOnto t u) : LatchesOnto s u := by
  obtain ⟨a, ha⟩ := h.latched
  obtain ⟨b, hb⟩ := k.latched
  exact ⟨a ++ b, by rw [hb, ha, List.append_assoc]⟩

theorem foldl {α : Type} {f : State → α → State} (hf : ∀ s x, LatchesOnto s (f s x)) (l : List α) (s : State) :
    LatchesOnto s (l.foldl f s) := by
  induction l generalizing s with
  | nil => exact refl s
  | cons x l ih => exact (hf s x).trans (ih _)

theorem endFault (c : Nat) (u : UnitId) (s : State) : LatchesOnto s (endFault c u s) := by
  unfold Machine.endFault
  split
  · exact ⟨⟨_, rfl⟩⟩
  · exact refl s

theorem raiseLevel (r : Raise) (s : State) : LatchesOnto s (raiseLevel r s) := by
  unfold Machine.raiseLevel
  split
  · exact refl s
  · exact ⟨⟨_, rfl⟩⟩

theorem noteMargin (e : Nat) (below : Bool) (s : State) : LatchesOnto s (noteMargin e below s) := by
  unfold Machine.noteMargin
  split
  · exact of_fault (modLoop_fault ..)
  · extract_lets s1
    have h1 : LatchesOnto s s1 := of_fault (modLoop_fault ..)
    split
    · exact h1
    · exact h1.trans (endFault ..)

theorem writeCap (e : Nat) (s : State) : LatchesOnto s (writeCap e s) := of_fault (writeCap_only (Only.refl 256 s) rfl .fault rfl)

theorem applyCap (e : Nat) (s : State) : LatchesOnto s (applyCap e s) := by
  unfold Machine.applyCap
  extract_lets s1
  have h1 : LatchesOnto s s1 := writeCap ..
  clear_value s1
  split
  · exact h1.trans (raiseLevel ..)
  · exact h1

theorem modLoop (e : Nat) (f : Loop → Loop) (s : State) : LatchesOnto s (modLoop e f s) := of_fault (modLoop_fault ..)

/-- The margin noted on a loop that was changed or not, and the cap applied. -/
theorem margin {e : Nat} {s t : State} (below : Bool) (h : LatchesOnto s t) :
    LatchesOnto s (Machine.applyCap e (Machine.noteMargin e below t)) :=
  (h.trans (noteMargin e below t)).trans (applyCap e _)

theorem evalLoop (e : Nat) (s : State) : LatchesOnto s (evalLoop e s) := by
  unfold Machine.evalLoop
  split
  · split
    · exact writeCap ..
    · split
      · split
        · exact margin false (modLoop ..)
        · extract_lets below
          refine margin below ?_
          split
          · exact modLoop ..
          · exact refl s
      · exact applyCap ..
  · exact refl s

theorem noteGap (s : State) (p : Nat × BandPath) : LatchesOnto s (noteGap s p) :=
  of_fault (noteGap_only (Only.refl 64 s) rfl .fault rfl)

theorem refreshOne (s : State) (p : Nat × BandPath) : LatchesOnto s (refreshOne s p) := of_fault rfl

theorem refreshGains (s : State) : LatchesOnto s (refreshGains s) := by
  unfold Machine.refreshGains
  extract_lets s0 s1 s2
  have h0 : LatchesOnto s s0 := foldl noteGap _ s
  clear_value s0
  have h1 : LatchesOnto s0 s1 := foldl refreshOne _ s0
  clear_value s1
  have h2 : LatchesOnto s1 s2 := foldl (f := fun acc (p : Nat × BandPath) => Machine.evalLoop p.1 acc) (fun _ _ => evalLoop ..) _ s1
  clear_value s2
  exact ((h0.trans h1).trans h2).trans (foldl refreshOne _ s2)

theorem writeBackoff (s : State) (p : Nat × BandPath) : LatchesOnto s (writeBackoff s p) := of_fault rfl

theorem modNp (f : NpState → NpState) (s : State) : LatchesOnto s (s.modNp f) := of_fault rfl

theorem shareBackoff (s : State) : LatchesOnto s (shareBackoff s) := by
  unfold Machine.shareBackoff
  extract_lets s1
  have h1 : LatchesOnto s s1 := modNp ..
  clear_value s1
  exact (h1.trans (foldl writeBackoff _ s1)).trans (refreshGains ..)

theorem dropBackoffs (f : Backoff → Bool) (s : State) : LatchesOnto s (dropBackoffs f s) := by
  unfold Machine.dropBackoffs
  exact (modNp ..).trans (shareBackoff ..)

end LatchesOnto

/-! ## Identity (R228, R229) -/

theorem raiseId_ps (n : Nat) (s : State) : (raiseId n s).ps = s.ps := raiseMoment_ps ..

theorem raisedOnce_raiseId (n : Nat) (s : State) : RaisedOnce 0x64 (cassetteUnit n) s (raiseId n s) :=
  raisedOnce_raiseMoment { cls := 0x64, unit := cassetteUnit n } s

/-- A raise that follows what was latched before it. -/
theorem RaisedOnce.after {c : Nat} {u : UnitId} {s t v : State} (h : LatchesOnto s t) (k : RaisedOnce c u t v) :
    ∃ l x y, v.fault.latched = s.fault.latched ++ l ++ [.raise x, y] ∧ x.cls = c ∧ x.unit = u := by
  obtain ⟨l, hl⟩ := h.latched
  obtain ⟨x, y, hxy, hcls, hunit⟩ := k
  exact ⟨l, x, y, by rw [hxy, hl], hcls, hunit⟩

theorem abortEnable_fault (n : Nat) (s : State) : (abortEnable n s).fault = s.fault :=
  abortEnable_only (Only.refl 2050 s) rfl .fault rfl

theorem startDraining_fault (n : Nat) (latch : Bool) (s : State) : (startDraining n latch s).fault = s.fault :=
  startDraining_only (Only.refl 2050 s) rfl .fault rfl

theorem cassetteGone_latches (n : Nat) (s : State) : LatchesOnto s (cassetteGone n s) := by
  unfold cassetteGone
  exact (LatchesOnto.of_fault (modCas_only (Only.refl 2048 s) rfl .fault rfl)).trans (.dropBackoffs ..)

theorem identChanged_leaves (n : Nat) (s : State) :
    (cas (identChanged n s) n).pa = .absent ∧ (cas (identChanged n s) n).derated = false ∧
    ∃ l x y, (identChanged n s).fault.latched = s.fault.latched ++ l ++ [.raise x, y] ∧ x.cls = 0x64 ∧ x.unit = cassetteUnit n := by
  unfold identChanged
  generalize hs1 : modCas n (fun y => { y with pa := .absent, certOk := false }) (abortEnable n s) = s1
  have hfault : s1.fault = s.fault := by
    rw [← hs1]
    exact (modCas_only (Only.refl 2048 _) rfl .fault rfl).trans (abortEnable_fault ..)
  have hpa : (cas s1 n).pa = .absent := by rw [← hs1, cas_modCas_same]
  refine ⟨?_, ?_, RaisedOnce.after ((LatchesOnto.of_fault hfault).trans (cassetteGone_latches n s1)) (raisedOnce_raiseId n _)⟩
  · rw [cas_of_ps (raiseId_ps ..), cassetteGone_keeps Cassette.pa n s1 n, hpa]
  · rw [cas_of_ps (raiseId_ps ..), cassetteGone, cas_of_ps (dropBackoffs_only (Only.refl 452 _) rfl .ps rfl), cas_modCas_same]

theorem cassetteIdPoll_still {n : Nat} {q : Option Nat} {s : State} (h : q = some (cas s n).record.serial) :
    cassetteIdPoll n q s = s := by
  unfold cassetteIdPoll
  extract_lets x
  exact if_pos (Or.inr (Or.inr h))

theorem cassetteIdPoll_leaves {n : Nat} {q : Option Nat} {s : State} (hn : n < 8) (hpa : (cas s n).pa ≠ .absent)
    (hq : q ≠ some (cas s n).record.serial) :
    ((cas s n).pa = .pinched → (cas (cassetteIdPoll n q s) n).pa = .absent ∧ (cas (cassetteIdPoll n q s) n).derated = false) ∧
    ((cas s n).pa ≠ .pinched → (cas (cassetteIdPoll n q s) n).lost = true) ∧
    ∃ l x y, (cassetteIdPoll n q s).fault.latched = s.fault.latched ++ l ++ [.raise x, y] ∧ x.cls = 0x64 ∧ x.unit = cassetteUnit n := by
  unfold cassetteIdPoll
  extract_lets x
  rw [if_neg (by
    rintro (h | h | h)
    · omega
    · exact hpa h
    · exact hq h)]
  by_cases hpinched : x.pa = .pinched
  · rw [if_pos hpinched]
    obtain ⟨habsent, hderated, hraise⟩ := identChanged_leaves n s
    exact ⟨fun _ => ⟨habsent, hderated⟩, fun hne => absurd hpinched hne, hraise⟩
  · rw [if_neg hpinched]
    generalize hs1 : modCas n (fun y => { y with lost := true }) s = s1
    have hfault : s1.fault = s.fault := by
      rw [← hs1]
      exact modCas_only (Only.refl 2048 s) rfl .fault rfl
    have hlost : (cas s1 n).lost = true := by rw [← hs1, cas_modCas_same]
    refine ⟨fun h => absurd h hpinched, fun _ => ?_,
      RaisedOnce.after (.of_fault ((startDraining_fault ..).trans hfault)) (raisedOnce_raiseId n _)⟩
    rw [cas_of_ps (raiseId_ps ..)]
    cases hon : drainOn (cas s1 n) with
    | true => rw [startDraining_same false hon, hlost]
    | false => rw [startDraining_off false hon, hlost]

theorem identFails_absent {n : Nat} {s : State} (hpa : (cas s n).pa = .absent) :
    (cas (identFails n s) n).pa = .absent ∧ RaisedOnce 0x64 (cassetteUnit n) s (identFails n s) := by
  unfold identFails
  generalize hs1 : modCas n (fun y => { y with certOk := false }) (abortEnable n s) = s1
  have hfault : s1.fault = s.fault := by
    rw [← hs1]
    exact (modCas_only (Only.refl 2048 _) rfl .fault rfl).trans (abortEnable_fault ..)
  refine ⟨?_, ?_⟩
  · rw [cas_of_ps (raiseId_ps ..), ← hs1]
    exact (modCas_keeps Cassette.pa _ n).trans ((abortEnable_keeps Cassette.pa n s n).trans hpa)
  · obtain ⟨x, y, hlatched, hclass⟩ := raisedOnce_raiseId n s1
    exact ⟨x, y, by rw [hlatched, hfault], hclass⟩

theorem cassetteIdentify_invalid {n : Nat} {i : IdentInput} {s : State} (hn : n < 8) (hready : s.sys.ready = true)
    (hpa : (cas s n).pa = .absent) (hrec : recordOfBytes i.record = none) : cassetteIdentify n i s = identFails n s := by
  unfold cassetteIdentify
  extract_lets x fresh
  rw [if_neg (by
    rw [hready]
    rintro (h | h | h)
    · omega
    · exact Bool.false_ne_true h.symm
    · exact h (Or.inl hpa)), hrec]

/-- What the identification decides of a cassette. -/
def Cassette.identity (x : Cassette) : PaState × Bool × CasRecord := (x.pa, x.uncertified, x.record)

theorem lifeWarning_keeps {β : Type} (g : Cassette → β) (m : Nat) (s : State) (n : Nat)
    (hg : ∀ x, g { x with lifeWarn := true } = g x := by exact fun _ => rfl) : g (cas (lifeWarning m s) n) = g (cas s n) := by
  unfold lifeWarning
  extract_lets x pct
  have h (t : State) (c i : Nat) (a b d : Nat) (l : List Nat) : (submitLog c i l (postNotice a b d t)).ps = t.ps :=
    submitLog_only (postNotice_only (Only.refl 10 t) rfl) rfl .ps rfl
  rw [cas_of_ps (h ..)]
  exact modCas_keeps g s n hg

theorem cassetteIdentify_uncertified {n : Nat} {i : IdentInput} {rec : CasRecord} {s : State} (hn : n < 8)
    (hready : s.sys.ready = true) (hpa : (cas s n).pa = .absent) (hrec : recordOfBytes i.record = some rec) (hcert : i.cert = none)
    (hen : (cas s n).enabling = none) :
    (¬s.ps.allowUncert = true → (cas (cassetteIdentify n i s) n).pa = .absent) ∧
    (s.ps.allowUncert = true → s.sys.lifecycle = .provisioned → (cas (cassetteIdentify n i s) n).identity = (.pinched, true, rec)) := by
  unfold cassetteIdentify
  extract_lets x fresh
  rw [if_neg (by
    rw [hready]
    rintro (h | h | h)
    · omega
    · exact Bool.false_ne_true h.symm
    · exact h (Or.inl hpa)), hrec]
  dsimp -zeta only [draw]
  extract_lets step allowed s2 life s3 s4
  rw [if_neg (by
    rintro ⟨h, -⟩
    rw [show x.pa = .absent from hpa] at h
    exact absurd h (by decide))]
  have hstep : step = some 0 := by
    unfold step certStep
    rw [hcert]
  have hallowed : allowed = (s.ps.allowUncert && s.sys.lifecycle == .provisioned) := rfl
  have hcas : cas { s with drawn := s.drawn + 1 } n = x := rfl
  have hpa1 : (cas { s with drawn := s.drawn + 1 } n).pa = .absent := hpa
  clear_value step allowed
  subst hstep
  refine ⟨fun hno => ?_, fun hallow hlife => ?_⟩
  · rw [if_pos ⟨rfl, by rw [hallowed, Bool.eq_false_iff.mpr hno, Bool.false_and]⟩]
    exact (identFails_absent hpa1).1
  · rw [if_neg (by
      rintro ⟨-, h⟩
      rw [hallowed, hallow, hlife] at h
      exact absurd h (by decide))]
    have h2 : cas s2 n = x := (cas_of_ps (submitLog_only (Only.refl 8 _) rfl .ps rfl) n).trans hcas
    clear_value s2
    have h3 : ((cas s3 n).identity, (cas s3 n).enabling) = ((.pinched, true, rec), none) := by
      rw [cas_modCas_same, h2]
      exact congrArg (Prod.mk _) hen
    clear_value s3
    have h4 : ((cas s4 n).identity, (cas s4 n).enabling) = ((.pinched, true, rec), none) :=
      (ite_keeps (fun t => ((cas t n).identity, (cas t n).enabling))
        (lifeWarning_keeps (fun y : Cassette => (y.identity, y.enabling)) n s3 n)).trans h3
    obtain ⟨hident, hidle⟩ := Prod.mk.inj h4
    rw [tryDrainUp_idle hidle, hident]

/-! ## Bias calibration (R227) -/

theorem takeBand_codes (s : State) (n : Nat) (x : Cassette) :
    ((takeBand s n x).biasRun, (takeBand s n x).biasUnset, (takeBand s n x).code) = (x.biasRun, x.biasUnset, x.code) := rfl

theorem biasCalComplete_ends {n : Nat} {b : BiasInput} {run : BiasRun} {s : State} (hrun : (cas s n).biasRun = some run) :
    (cas (biasCalComplete n b s) n).biasRun = none ∧
    (¬casSilent s n = true → (cas (biasCalComplete n b s) n).code = (cas s n).code) ∧
    (casSilent s n = true → ¬casOpenedSince s n run.start = true → b.atZero ≤ (idqOf (cas s n) : Int) →
      (idqOf (cas s n) : Int) ≤ b.atMax → ¬(cas (biasCalComplete n b s) n).biasUnset = true ∧
        (cas (biasCalComplete n b s) n).code = biasTable (cas s n).record.tempco (s.hk.sensors.get (casSensor n)).usedTemp
          (vgMaxOf (cas s n)) (s.hk.sensors.get (casSensor n)).usedBand
          (biasSearch (idqOf (cas s n) : Int) (b.steps.take 12) 0 (vgMaxOf (cas s n)))) := by
  unfold biasCalComplete
  extract_lets x s1 target band code tab
  rw [show x.biasRun = some run from hrun]
  dsimp -zeta only
  have h1 : (cas s1 n).biasRun = none ∧ (cas s1 n).code = x.code := by
    rw [cas_modCas_same]
    exact ⟨rfl, rfl⟩
  clear_value s1
  by_cases hheld : casSilent s n = false ∨ casOpenedSince s n run.start = true
  · rw [if_pos hheld, cas_of_ps (complete_ps ..)]
    refine ⟨h1.1, fun _ => h1.2, fun hsilent hopen => ?_⟩
    exact absurd hheld (not_or.mpr ⟨by rw [hsilent]; decide, hopen⟩)
  · rw [if_neg hheld]
    rw [not_or] at hheld
    have hsilent : casSilent s n = true := by simpa using hheld.1
    by_cases hrange : target < b.atZero ∨ b.atMax < target
    · rw [if_pos hrange, cas_of_ps (complete_ps ..), cas_of_ps (raiseMoment_ps ..)]
      refine ⟨h1.1, fun hno => absurd hsilent hno, fun _ _ hlo hhi => ?_⟩
      exact absurd hrange (not_or.mpr ⟨not_lt.mpr hlo, not_lt.mpr hhi⟩)
    · rw [if_neg hrange, cas_of_ps (complete_ps ..)]
      have hkeeps := bandsChanged_keeps (fun y : Cassette => (y.biasRun, y.biasUnset, y.code))
        (modCas n (fun y => { y with code := tab, biasUnset := false }) s1) n takeBand_codes
      rw [cas_modCas_same] at hkeeps
      obtain ⟨hbias, hrest⟩ := Prod.mk.inj hkeeps
      obtain ⟨hunset, hcode⟩ := Prod.mk.inj hrest
      refine ⟨hbias.trans h1.1, fun hno => absurd hsilent hno, fun _ _ _ _ => ⟨?_, hcode⟩⟩
      rw [hunset]
      exact Bool.false_ne_true

/-! ## Life (R230–R232) -/

theorem checkLife_keeps {β : Type} (g : Cassette → β) (m : Nat) (s : State) (n : Nat)
    (hwarn : ∀ x, g { x with lifeWarn := true } = g x := by exact fun _ => rfl)
    (hexpired : ∀ x, g { x with lifeExpired := true } = g x := by exact fun _ => rfl) :
    g (cas (checkLife m s) n) = g (cas s n) := by
  unfold checkLife
  extract_lets x full s1
  have h1 : g (cas s1 n) = g (cas s n) := ite_keeps (fun t => g (cas t n)) (lifeWarning_keeps g m s n hwarn)
  clear_value s1
  split
  · rw [cas_of_ps (raiseMoment_ps ..)]
    exact (modCas_keeps g s1 n hexpired).trans h1
  · exact h1

/-- One cassette's minute (R230, R232). -/
def cassetteMinute (s : State) (n : Nat) : State :=
  let x := cas s n
  if x.pa = .absent then s
  else
    let add := if x.afRounds = 0 then 0 else (roundEven ((x.afSum * 1000000 : Nat) : Int) ((x.afRounds * 60 * 1000000000000000000 : Nat) : Int)).toNat
    checkLife n (modCas n (fun y => { y with
      afSum := 0, afRounds := 0
      life := { y.life with stress := y.life.stress + add, minutes := y.life.minutes + flag (drainOn y) } }) s)

theorem stressMinute_eq (s : State) :
    stressMinute s = (List.range 8).foldl cassetteMinute (advanceTo ((now s / tcOfS 60 + 1) * tcOfS 60) s) := rfl

theorem cassetteMinute_air (s : State) (n : Nat) : (cassetteMinute s n).air = s.air := by
  unfold cassetteMinute
  extract_lets x add
  split
  · rfl
  · exact checkLife_only (modCas_only (Only.refl 2062 s) rfl) rfl .air rfl

/-- What a minute reads and changes of a cassette. -/
def Cassette.minute (x : Cassette) : PaState × Nat := (x.pa, x.life.minutes)

theorem cassetteMinute_other {n m : Nat} (s : State) (h : n ≠ m) : (cas (cassetteMinute s m) n).minute = (cas s n).minute := by
  unfold cassetteMinute
  extract_lets x add
  split
  · rfl
  · rw [checkLife_keeps Cassette.minute, cas_modCas_other _ _ h]

theorem cassetteMinute_counts {n : Nat} {s : State} (hpa : (cas s n).pa ≠ .absent) :
    (cas (cassetteMinute s n) n).life.minutes = (cas s n).life.minutes + flag (drainOn (cas s n)) := by
  unfold cassetteMinute
  extract_lets x add
  rw [if_neg (show x.pa ≠ .absent from hpa), checkLife_keeps (fun y : Cassette => y.life.minutes), cas_modCas_same]

theorem ticked_advanceTo {s : State} {m : Nat} (hm : 0 < m) : ticked s (advanceTo ((now s / m + 1) * m) s) m := by
  have hwait : waited s (advanceTo ((now s / m + 1) * m) s) ((now s / m + 1) * m) := advanceTo_waited _ s
  have hlt : now s < (now s / m + 1) * m := by
    rw [Nat.mul_comm]
    exact Nat.lt_mul_div_succ _ hm
  exact hwait.trans (max_eq_right (le_of_lt hlt))

theorem stressMinute_counts (s : State) : ticked s (stressMinute s) (tcOfS 60) ∧
    ∀ n, n < 8 → (cas s n).pa ≠ .absent →
      (cas (stressMinute s) n).life.minutes = (cas s n).life.minutes + flag (drainOn (cas s n)) := by
  rw [stressMinute_eq]
  have htick : ticked s (advanceTo ((now s / tcOfS 60 + 1) * tcOfS 60) s) (tcOfS 60) := ticked_advanceTo (by decide)
  have hps : (advanceTo ((now s / tcOfS 60 + 1) * tcOfS 60) s).ps = s.ps := advanceTo_keeps_ps
  generalize advanceTo ((now s / tcOfS 60 + 1) * tcOfS 60) s = s1 at *
  refine ⟨(congrArg AirState.mono (foldl_keeps State.air cassetteMinute_air _ s1)).trans htick, fun n hn hpa => ?_⟩
  obtain ⟨u, hu, hval⟩ := foldl_visits (f := cassetteMinute) (g := fun t => (cas t n).minute)
    (fun t m hm => cassetteMinute_other t hm) List.nodup_range (List.mem_range.mpr hn) s1
  obtain ⟨hpa', hminutes⟩ := Prod.mk.inj (hu.trans (congrArg Cassette.minute (cas_of_ps hps n)))
  have hon : drainOn (cas u n) = drainOn (cas s n) := by rw [drainOn, drainOn, hpa']
  obtain ⟨-, hcount⟩ := Prod.mk.inj hval
  rw [hcount, cassetteMinute_counts (hpa' ▸ hpa), hminutes, hon]

theorem cas_writeLife_other {n m : Nat} (s : State) (h : n ≠ m) : cas (writeLife m s) n = cas s n := cas_modCas_other _ _ h

theorem cas_writeLife (n : Nat) (s : State) : (cas (writeLife n s) n).life.seq = ((cas s n).life.seq + 1) % 4294967296 ∧
    (cas (writeLife n s) n).lifeB = !(cas s n).lifeB := by
  unfold writeLife
  rw [cas_modCas_same]
  cases h : (cas s n).lifeB <;> exact ⟨rfl, rfl⟩

theorem lifeRecordWrite_writes (s : State) : ticked s (lifeRecordWrite s) (tcOfS 600) ∧
    ∀ n, n < 8 → (cas s n).pa ≠ .absent → (cas (lifeRecordWrite s) n).life.seq = ((cas s n).life.seq + 1) % 4294967296 ∧
      (cas (lifeRecordWrite s) n).lifeB = !(cas s n).lifeB := by
  unfold lifeRecordWrite
  extract_lets m s1
  have htick : ticked s s1 m := ticked_advanceTo (by decide)
  have hps : s1.ps = s.ps := advanceTo_keeps_ps
  clear_value s1
  have hair (t : State) (k : Nat) : (writeLife k t).air = t.air := writeLife_only (Only.refl 2048 t) rfl .air rfl
  refine ⟨(congrArg AirState.mono (foldl_keeps (f := fun acc n => writeLife n acc) State.air hair _ s1)).trans htick, fun n hn hpa => ?_⟩
  have hmem : n ∈ identified s1 := by
    rw [identified, List.mem_filter, List.mem_range, cas_of_ps hps]
    exact ⟨hn, bne_iff_ne.mpr hpa⟩
  have hnodup : (identified s1).Nodup := List.nodup_range.filter _
  obtain ⟨u, hu, hval⟩ := foldl_visits (f := fun acc n => writeLife n acc) (g := fun t => cas t n)
    (fun t k hk => cas_writeLife_other t hk) hnodup hmem s1
  rw [hval, ← cas_of_ps hps, ← hu]
  exact cas_writeLife n u

/-- Settles O34: each clause is the row's effect on its cassette. -/
theorem cassettesAreIdentifiedAndAged : Obligations.CassettesAreIdentifiedAndAged := by
  unfold Obligations.CassettesAreIdentifiedAndAged
  intro s n q i rec b run
  refine ⟨fun h => ?_, fun hn hpa hq => ?_, fun hn hready hpa hrec => ?_, fun hn hready hpa hrec hcert hen => ?_, fun hrun => ?_, ?_, ?_⟩
  · exact congrArg Host.Outcome.next (cassetteIdPoll_still h)
  · obtain ⟨hpinched, hlost, hraise⟩ := cassetteIdPoll_leaves hn hpa hq
    exact runs_of_only (t := cassetteIdPoll n q s) rfl execCassetteIdPoll_only (by decide)
      ⟨fun h => ⟨(hpinched h).1, Bool.eq_false_iff.mp (hpinched h).2⟩, hlost, hraise⟩
  · refine runs_of_only (t := cassetteIdentify n i s) rfl execCassetteIdentify_only (by decide) ?_
    rw [cassetteIdentify_invalid hn hready hpa hrec]
    exact identFails_absent hpa
  · obtain ⟨hno, hallowed⟩ := cassetteIdentify_uncertified hn hready hpa hrec hcert hen
    refine runs_of_only (t := cassetteIdentify n i s) rfl execCassetteIdentify_only (by decide) ⟨hno, fun hallow hlife => ?_⟩
    obtain ⟨hpinched, hrest⟩ := Prod.mk.inj (hallowed hallow hlife)
    exact ⟨hpinched, Prod.mk.inj hrest⟩
  · exact runs_of_only (t := biasCalComplete n b s) rfl execBiasCalComplete_only (by decide) (biasCalComplete_ends hrun)
  · exact runs_of_only (t := stressMinute s) rfl execStressMinute_only (by decide)
      ⟨(stressMinute_counts s).1, fun hn hpa => (stressMinute_counts s).2 n hn hpa⟩
  · exact runs_of_only (t := lifeRecordWrite s) rfl execLifeRecordWrite_only (by decide)
      ⟨(lifeRecordWrite_writes s).1, fun hn hpa => (lifeRecordWrite_writes s).2 n hn hpa⟩

end Sys2Proof.Machine
end

section
set_option Elab.async false
/-! The housekeeping commands (R237–R246), and what the protocol answers of a command that waits and of one that is rejected. -/

namespace Sys2Proof.Machine

open Sys2Proof

theorem submit_of_exec {i : Instr} {c : CommandSpec} {r : HostRequest} {s t : State} (hc : commandOf i = some (c, r))
    (h : exec i s = .next t) : submit c r s = t :=
  Host.Outcome.next.inj ((exec_command hc s).symm.trans h)

/-- An accepted command whose response waits still runs (R424). -/
theorem stillRuns_of_accepts {i : Instr} {c : CommandSpec} {r : HostRequest} {s : State} (hc : commandOf i = some (c, r))
    (h : Accepts c r s) (hlater : (c.effect (atStart c.opcode r s) (reqOf c.opcode r)).2.deferred = true) :
    StillRuns r (submit c r s) := by
  obtain ⟨t, hexec, -, hruns⟩ := acceptedCommandIsAnswered i c r s hc h
  rw [submit_of_exec hc hexec]
  exact hruns hlater

/-- A rejected command is answered with its status (R425). -/
theorem answered_of_rejects {i : Instr} {c : CommandSpec} {r : HostRequest} {s : State} {st : Status} {d : Nat}
    (hc : commandOf i = some (c, r)) (h : Rejects c r s st d) : Answered c.opcode r st (submit c r s) := by
  obtain ⟨t, hexec, hanswer, -⟩ := rejectedCommandAnswersItsStatus i c r s st d hc h
  rw [submit_of_exec hc hexec]
  exact hanswer

/-- A rejection with E_BUSY is a failing check of the command's own. -/
theorem busy_check_of_validate {c : CommandSpec} {s : State} {q : Req} {d : Nat} (h : validate c false s q = some (.eBusy, d)) :
    ∃ k ∈ c.checks s q, k.bad = true ∧ k.status = .eBusy := by
  have hall : (c.checks s q).filter (fun k => !(false && k.status == .eState)) = c.checks s q := by simp
  unfold validate at h
  rw [hall] at h
  cases hb : firstBad (c.checks s q) with
  | none =>
    rw [hb] at h
    repeat' split at h
    all_goals simp_all
  | some x =>
    have hx : x = (.eBusy, d) := by
      rw [hb] at h
      repeat' split at h
      all_goals simp_all
    rw [hx, firstBad] at hb
    cases hfind : (c.checks s q).find? (·.bad) with
    | none => simp [hfind] at hb
    | some k =>
      rw [hfind] at hb
      refine ⟨k, List.mem_of_find?_eq_some hfind, List.find?_some (p := fun k : Chk => k.bad) hfind, ?_⟩
      exact congrArg Prod.fst (Option.some.inj hb)

/-! ## The commands -/

/-- The spare slots of a map after HK_SLOT_MAP. -/
theorem get_foldl_set (f : Nat → Nat) (o m : Nat) (b : Bank Nat) {k : Nat} (hk : k < m) :
    ((List.range m).foldl (fun (acc : Bank Nat) k => acc.set (o + k) (f k)) b).get (o + k) = f k := by
  induction m with
  | zero => exact absurd hk (Nat.not_lt_zero k)
  | succ m ih =>
    rw [List.range_succ, List.foldl_append, List.foldl_cons, List.foldl_nil]
    obtain rfl | hlt := Nat.eq_or_lt_of_le (Nat.le_of_lt_succ hk)
    · exact get_set_same ..
    · rw [get_set_other _ _ (by omega), ih hlt]

theorem requestUrgent_hk {c : Nat} {b : UrgentBy} {s : State} (h : urgentDropped s.hk = 0) :
    (requestUrgent c b s).hk = { s.hk with urgent := some (c, b), urgentUsed := s.hk.urgentUsed + 1 } := by
  unfold requestUrgent
  rw [if_pos h]
  rfl

theorem countDrop_hk {s : State} (h : urgentDropped s.hk ≠ 0) : (countDrop s).hk.urgent = s.hk.urgent ∧
    (countDrop s).hk.urgentDrop + (countDrop s).hk.urgentCap = s.hk.urgentDrop + s.hk.urgentCap + 1 := by
  have heq : (countDrop s).hk = if s.hk.urgent.isSome then { s.hk with urgentDrop := s.hk.urgentDrop + 1 }
    else if 16 ≤ s.hk.urgentUsed then { s.hk with urgentCap := s.hk.urgentCap + 1 } else s.hk := rfl
  rw [heq]
  unfold urgentDropped at h
  by_cases hsome : s.hk.urgent.isSome
  · rw [if_pos hsome]
    exact ⟨rfl, Nat.add_right_comm ..⟩
  · rw [if_neg hsome] at h ⊢
    by_cases hused : 16 ≤ s.hk.urgentUsed
    · rw [if_pos hused]
      exact ⟨rfl, rfl⟩
    · exact absurd (if_neg hused) h

theorem hkUrgent_accepted {r : HostRequest} {s : State} (h : Accepts specHkUrgent r s) :
    Runs (.hkUrgent r) s [.host, .hk, .pair] fun t => StillRuns r t ∧ t.hk.urgentUsed = s.hk.urgentUsed + 1 ∧
      t.hk.urgent.map (fun x => x.1) = some (r.u8 0) := by
  have hfree : urgentDropped s.hk = 0 := by
    have hchk := checks_hold_of_validate h.2 (need .eBusy (urgentDropped s.hk == 0))
      (by simp only [specHkUrgent, List.mem_cons]; tauto)
    simpa [need] using hchk
  have hhk : (submit specHkUrgent r s).hk = _ := submit_after h .hk rfl
  rw [show (specHkUrgent.effect (atStart specHkUrgent.opcode r s) (reqOf specHkUrgent.opcode r)).1 =
    requestUrgent (r.u8 0) (.host (ticketOf (reqOf 0x0902 r))) (atStart 0x0902 r s) from rfl,
    requestUrgent_hk (s := atStart 0x0902 r s) hfree] at hhk
  refine ⟨submit specHkUrgent r s, exec_command rfl s, submit_changesOnly specHkUrgent_only (by decide) r s,
    stillRuns_of_accepts (i := .hkUrgent r) rfl h rfl, ?_, ?_⟩
  · rw [hhk]
    rfl
  · rw [hhk]
    rfl

theorem hkUrgent_rejected {r : HostRequest} {s : State} {d : Nat} (h : Rejects specHkUrgent r s .eBusy d) :
    Runs (.hkUrgent r) s [.host, .hk, .pair] fun t => Answered 0x0902 r .eBusy t ∧ t.hk.urgent = s.hk.urgent ∧
      t.hk.urgentDrop + t.hk.urgentCap = s.hk.urgentDrop + s.hk.urgentCap + 1 := by
  have hbusy : urgentDropped s.hk ≠ 0 := by
    obtain ⟨k, hk, hbad, hstatus⟩ := busy_check_of_validate h.2
    simp only [specHkUrgent, List.mem_cons, List.not_mem_nil, or_false] at hk
    obtain rfl | rfl | rfl := hk
    · exact absurd hstatus (by simp [field])
    · exact absurd hstatus (by simp [field])
    · simpa [need] using hbad
  have hhk : (submit specHkUrgent r s).hk = (countDrop (atStart 0x0902 r s)).hk := submit_after_rejection h .hk rfl
  refine ⟨submit specHkUrgent r s, exec_command rfl s, submit_changesOnly specHkUrgent_only (by decide) r s,
    answered_of_rejects (i := .hkUrgent r) rfl h, ?_⟩
  rw [hhk]
  exact countDrop_hk (s := atStart 0x0902 r s) hbusy

/-- Settles O35: each clause is the command's effect on housekeeping; HK_URGENT is dropped exactly where its check fails. -/
theorem housekeepingCommandsComplete : Obligations.HousekeepingCommandsComplete := by
  unfold Obligations.HousekeepingCommandsComplete
  intro r s d
  refine ⟨?_, hkUrgent_accepted, hkUrgent_rejected, fun h => ?_, ?_, ?_, ?_⟩
  · refine does_of_only rfl rfl specHkSlotMap_only (by decide) (fun _ _ => ⟨rfl, rfl⟩) fun h => ⟨?_, _, submit_after h .hk rfl, ?_⟩
    · rw [answerBytes_of_accepts (i := .hkSlotMap r) rfl h ⟨rfl, rfl⟩]
      rfl
    · exact fun k hk => get_foldl_set (fun k => r.u8 (4 + k)) (r.u8 0) (r.u8 1) (s.hk.mapNext.getD s.hk.map) hk
  · refine runs_of_accepts rfl specHkCalPoint_only (by decide) h ⟨rfl, rfl⟩ ?_
    have hhk : (submit specHkCalPoint r s).hk = _ := submit_after h .hk rfl
    rw [hhk]
    rfl
  · exact does_of_only rfl rfl specHkTestDac_only (by decide) (fun _ _ => ⟨rfl, rfl⟩) fun h => submit_after h .hk rfl
  · exact does_of_only rfl rfl specHkSupplyWindow_only (by decide) (fun _ _ => ⟨rfl, rfl⟩) fun h => submit_after h .hk rfl
  · exact does_of_only rfl rfl specHkThermalPolicy_only (by decide) (fun _ _ => ⟨rfl, rfl⟩) fun h => submit_after h .hk rfl

end Sys2Proof.Machine
end

section
set_option Elab.async false
/-! Rounds, urgent slots, calibrations, the record latch and the clock monitor (R235–R257). -/

namespace Sys2Proof.Machine

open Sys2Proof

theorem hkSlotEnd_joins {i : HkSlotInput} {s : State} (hpower : hkPowered s = true) (hrun : ¬s.hk.urgentRun = true)
    (hslot : s.hk.slot < 127) :
    (hkSlotEnd i s).hk.slot = s.hk.slot + 1 ∧ waited s (hkSlotEnd i s) (s.hk.slotStart + 36864) ∧
    (hkSlotEnd i s).hk.slotStart = (hkSlotEnd i s).now ∧
    (hkSlotEnd i s).hk.accum.get (slotChannel s.hk s.hk.slot) =
      joinAccum (s.hk.accum.get (slotChannel s.hk s.hk.slot)) (slotSums s.hk i) ∧
    ∀ n, n ≠ slotChannel s.hk s.hk.slot → (hkSlotEnd i s).hk.accum.get n = s.hk.accum.get n := by
  unfold hkSlotEnd
  extract_lets s1 k c s2
  rw [if_neg (by
    rw [hpower]
    rintro (h | h | h)
    · exact Bool.false_ne_true h.symm
    · exact hrun h
    · omega), if_neg (by omega)]
  have hwait : waited s s1 (s.hk.slotStart + hkSlotTc) := advanceTo_waited _ s
  have hhk : s1.hk = s.hk := advanceTo_keeps_hk
  clear_value s1
  have h2 : s2.hk = { beginSlot s.hk (now s1) with
      accum := s.hk.accum.mod c (fun a => joinAccum a (slotSums s.hk i)), slot := k + 1 } := by
    rw [← hhk]
    exact modHk_hk ..
  have hair : s2.air = s1.air := rfl
  clear_value s2
  refine ⟨?_, ?_, ?_, ?_, fun n hn => ?_⟩
  · rw [h2]
  · rw [waited, hair]
    exact hwait
  · rw [h2]
    exact congrArg AirState.mono hair.symm
  · rw [h2]
    exact get_mod_same ..
  · rw [h2]
    exact get_mod_other _ _ hn

theorem urgentSlotEnd_clears {i : HkSlotInput} {c : Nat} {b : UrgentBy} {s : State} (hpower : hkPowered s = true)
    (hrun : s.hk.urgentRun = true) (hurgent : s.hk.urgent = some (c, b)) :
    (urgentSlotEnd i s).hk = { s.hk with
      urgent := none, urgents := s.hk.urgents + 1, slotStart := (advanceTo (s.hk.slotStart + hkSlotTc) s).now, urgentRun := false } := by
  unfold urgentSlotEnd
  rw [hurgent]
  dsimp -zeta only
  rw [if_neg (by rw [hpower, hrun]; decide)]
  extract_lets s1 a v s2
  have hhk : s1.hk = s.hk := advanceTo_keeps_hk
  have h2 : s2.hk = { s.hk with urgent := none, urgents := s.hk.urgents + 1, slotStart := s1.now, urgentRun := false } := by
    rw [← hhk]
    exact modHk_hk ..
  clear_value s2
  cases b with
  | host t => exact (finishDeferred_only (Only.refl 32770 s2) rfl .hk rfl).trans h2
  | trip k => exact h2

/-! ## The end of a round -/

/-- What a round publishes: its number and maps, the records and the accumulation. -/
def HkState.publication (h : HkState) : (Nat × Bank Nat × Option (Bank Nat)) × Bank HkRecord × Bank HkAccum :=
  ((h.round, h.map, h.mapNext), h.records, h.accum)

theorem publication_modHk {f : HkState → HkState} (s : State) (hf : ∀ h : HkState, (f h).publication = h.publication) :
    (s.modHk f).hk.publication = s.hk.publication := hf s.hk

theorem hk_raiseLevel (r : Raise) (s : State) : (raiseLevel r s).hk = s.hk := raiseLevel_keeps_hk

theorem hk_endFault (c : Nat) (u : UnitId) (s : State) : (endFault c u s).hk = s.hk := endFault_keeps_hk

theorem publication_measureCal (s : State) : (measureCal s).hk.publication = s.hk.publication :=
  publication_modHk s fun _ => rfl

theorem publication_checkWindow (s : State) (ch : Nat) : (checkWindow s ch).hk.publication = s.hk.publication := by
  unfold checkWindow
  extract_lets k w u put beyond inside
  have hput (x : SupplyWindow) : (put x).hk.publication = s.hk.publication := publication_modHk s fun _ => rfl
  clear_value put
  split
  · exact hput _
  · split
    · exact hput _
    · split
      · rw [hk_raiseLevel]
        exact hput _
      · exact hput _
    · split
      · rw [hk_endFault]
        exact hput _
      · exact hput _

theorem publication_failSensor (k : Nat) (s : State) : (failSensor k s).hk.publication = s.hk.publication := by
  unfold failSensor
  rw [hk_raiseLevel]
  exact publication_modHk s fun _ => rfl

theorem publication_readSensor (l : List SensorInput) (s : State) (k : Nat) :
    (readSensor l s k).hk.publication = s.hk.publication := by
  unfold readSensor
  extract_lets n raw
  split
  · rfl
  · split
    · exact publication_modHk s fun _ => rfl
    · exact (publication_failSensor ..).trans (publication_modHk s fun _ => rfl)

theorem publication_compareSensor (v s : State) (k : Nat) : (compareSensor v s k).hk.publication = s.hk.publication := by
  unfold compareSensor
  extract_lets y
  split
  · rfl
  · split
    · rfl
    · extract_lets run s1
      have h1 : s1.hk.publication = s.hk.publication := publication_modHk s fun _ => rfl
      clear_value s1
      split
      · exact (publication_failSensor ..).trans h1
      · exact h1

theorem publication_reviewOvertemp (s : State) : (reviewOvertemp s).hk.publication = s.hk.publication :=
  congrArg HkState.publication (reviewOvertemp_only (Only.refl 4 s) rfl .hk rfl)

theorem publication_raiseOvertemp (f : Option Severity) (c : Nat) (s : State) :
    (raiseOvertemp f c s).hk.publication = s.hk.publication :=
  congrArg HkState.publication (raiseOvertemp_only (Only.refl 4 s) rfl .hk rfl)

theorem publication_blindCheck (s : State) (die : Nat) : (blindCheck s die).hk.publication = s.hk.publication := by
  unfold blindCheck
  split
  · exact (publication_raiseOvertemp ..).trans (publication_modHk s fun _ => rfl)
  · split
    · exact (publication_reviewOvertemp _).trans (publication_modHk s fun _ => rfl)
    · rfl

theorem publication_sensors (h : HkState) (x : Bank Sensor) : { h with sensors := x }.publication = h.publication := rfl

theorem publication_readSensors (l : List SensorInput) (s : State) : (readSensors l s).hk.publication = s.hk.publication := by
  unfold readSensors
  extract_lets s1 s2 s3
  have h1 : s1.hk.publication = s.hk.publication := foldl_keeps (fun t => t.hk.publication) (publication_readSensor l) _ s
  clear_value s1
  have h2 : s2.hk.publication = s1.hk.publication := foldl_keeps (fun t => t.hk.publication) (publication_compareSensor s1) _ s1
  clear_value s2
  have h3 : s3.hk.publication = s2.hk.publication := by
    unfold s3
    rw [modHk_hk, publication_sensors]
  clear_value s3
  exact (foldl_keeps (fun t => t.hk.publication) publication_blindCheck _ s3).trans (h3.trans (h2.trans h1))

theorem publication_takePolicy (h : HkState) : (takePolicy h).publication = h.publication := by
  unfold takePolicy
  split
  · split <;> rfl
  · rfl

theorem publication_governTemp (h : HkState) : (governTemp h).publication = h.publication := by
  unfold governTemp
  split <;> rfl

theorem publication_throttle (s : State) : (throttle s).hk.publication = s.hk.publication := by
  unfold throttle
  extract_lets s1 was s2 s3 s4
  have h1 : s1.hk.publication = s.hk.publication := publication_modHk s publication_governTemp
  clear_value s1
  have h2 : s2.hk.publication = s1.hk.publication := publication_modHk s1 fun _ => rfl
  clear_value s2
  have h3 : s3.hk.publication = s2.hk.publication := by
    unfold s3
    exact ite_keeps (fun t => t.hk.publication) (publication_raiseOvertemp none 0 s2)
  clear_value s3
  have h4 : s4.hk.publication = s3.hk.publication := by
    unfold s4
    split
    · exact (publication_raiseOvertemp ..).trans (publication_modHk s3 fun _ => rfl)
    · split
      · exact publication_modHk s3 fun _ => rfl
      · rfl
  clear_value s4
  exact (congrArg HkState.publication (applyThermal_only (Only.refl 452 _) rfl .hk rfl)).trans
    ((publication_reviewOvertemp s4).trans (h4.trans (h3.trans (h2.trans h1))))

/-- A bank whose numbers in a list are all set. -/
theorem modAll_get_const {α : Type} (f : Nat → α) (b : Bank α) {l : List Nat} {n : Nat} (hn : n ∈ l) :
    (b.modAll l (fun c _ => f c)).get n = f n := by
  induction l generalizing b with
  | nil => exact absurd hn List.not_mem_nil
  | cons k l ih =>
    change ((b.mod k (fun _ => f k)).modAll l (fun c _ => f c)).get n = f n
    by_cases hl : n ∈ l
    · exact ih _ hl
    · obtain rfl := (List.mem_cons.mp hn).resolve_right hl
      rw [modAll_get_not_mem _ hl, get_mod_same]

theorem publishRecords_get (s : State) {n : Nat} (hn : n < 85) :
    ((publishRecords s).hk.records.get n).acc = s.hk.accum.get n ∧ ((publishRecords s).hk.records.get n).round = s.hk.round := by
  unfold publishRecords
  extract_lets one
  have hget (f : Nat → HkRecord) : (s.hk.records.modAll (List.range 85) (fun c _ => f c)).get n = f n := by
    exact modAll_get_const f _ (List.mem_range.mpr hn)
  rw [modHk_hk]
  dsimp only
  rw [hget]
  exact ⟨rfl, rfl⟩

theorem hkRoundEnd_publishes {l : List SensorInput} {s : State} (hpower : hkPowered s = true) (hrun : ¬s.hk.urgentRun = true)
    (hslot : s.hk.slot = 128) :
    ∃ u : State, ∃ k : Nat, u.hk.publication = (publishRecords s).hk.publication ∧ (hkRoundEnd l s).hk = startRound k u.hk := by
  unfold hkRoundEnd
  extract_lets s1 s2 s3 s4
  rw [if_neg (by
    rw [hpower, hslot]
    rintro (h | h | h)
    · exact Bool.false_ne_true h.symm
    · exact h rfl
    · exact hrun h)]
  have h1 : s1.hk.publication = (publishRecords s).hk.publication := publication_measureCal _
  clear_value s1
  have h2 : s2.hk.publication = s1.hk.publication := foldl_keeps (fun t => t.hk.publication) publication_checkWindow _ s1
  clear_value s2
  have h3 : s3.hk.publication = s2.hk.publication :=
    (publication_throttle _).trans ((publication_modHk _ publication_takePolicy).trans (publication_readSensors l s2))
  clear_value s3
  refine ⟨s3, now s3, h3.trans (h2.trans h1), ?_⟩
  have hrest (t : State) : (reviewTemperatures (stressRound (deliverBands t))).hk = t.hk :=
    reviewTemperatures_only (stressRound_only (deliverBands_only (Only.refl 285156 t) rfl) rfl) rfl .hk rfl
  exact (hrest s4).trans (modHk_hk ..)

/-! ## Calibration and clocks -/

theorem calPointComplete_ends {w : Bool} {x : CalRun} {s : State} (hrun : s.hk.calRun = some x) (hleft : x.left = 0) :
    (calPointComplete w s).hk.calRun = none ∧
      (x.point = 0 → (calPointComplete w s).hk.zero.get x.channel = some (x.value, x.sum, x.count)) := by
  have hhk (t : Ticket) (st : Status) (d : Nat) (u : State) : (complete t st d u).hk = u.hk :=
    complete_only (Only.refl 2 u) rfl .hk rfl
  unfold calPointComplete
  rw [hrun]
  dsimp -zeta only
  rw [if_neg (not_not_intro hleft)]
  extract_lets s1 mean
  have h1 : s1.hk.calRun = none := rfl
  clear_value s1
  by_cases hzero : x.point = 0
  · rw [if_pos hzero, hhk]
    exact ⟨h1, fun _ => get_set_same ..⟩
  · rw [if_neg hzero]
    refine ⟨?_, fun h => absurd h hzero⟩
    split
    · split
      · split
        · rw [hhk, h1]
        · split
          · rw [hhk]
            exact h1
          · rw [hhk, h1]
      · rw [hhk, h1]
    · split
      · rw [hhk]
        exact h1
      · rw [hhk, h1]

theorem latched_raiseFault (r : Raise) (s : State) :
    (raiseFault r s).fault.latched = s.fault.latched ++ [.raise { r with cycle := cycleNow s }] := rfl

theorem clockMonitorCheck_notes {f : List Nat} {s : State} (hpower : hkPowered s = true) :
    (clockMonitorCheck f s).hk.clocks = failedClocks f ∧
    (failedClocks f = 0 → holding (clockMonitorCheck f s) 0x73 partUnit = false) ∧
    ((List.range 4).any (fun k => (failedClocks f).testBit k && !s.hk.clocks.testBit k) = true →
      ∃ y, (clockMonitorCheck f s).fault.latched = s.fault.latched ++ [.raise y] ∧ y.cls = 0x73 ∧
        holding (clockMonitorCheck f s) 0x73 partUnit = true) := by
  unfold clockMonitorCheck
  extract_lets m fresh s1
  rw [if_neg (by rw [hpower]; decide)]
  have hclocks : s1.hk.clocks = m := congrArg HkState.clocks (modHk_hk ..)
  have hfault : s1.fault = s.fault := modHk_fault ..
  cases hfresh : fresh with
  | some k =>
    dsimp only
    refine ⟨?_, fun h0 => ?_, fun _ =>
      ⟨{ cls := 0x73, unit := partUnit, detail4 := k, cycle := cycleNow s1 }, ?_, rfl, holding_raiseFault { cls := 0x73, unit := partUnit, detail4 := k } s1⟩⟩
    · rw [raiseFault_keeps_hk, hclocks]
    · have hbit := List.find?_some hfresh
      rw [show m = 0 from h0] at hbit
      simp at hbit
    · rw [latched_raiseFault, hfault]
  | none =>
    dsimp only
    refine ⟨?_, fun h0 => ?_, fun hany => ?_⟩
    · split
      · rw [hk_endFault, hclocks]
      · exact hclocks
    · rw [if_pos h0]
      exact holding_endFault ..
    · obtain ⟨k, hk, hbit⟩ := List.any_eq_true.mp hany
      exact absurd hbit (List.find?_eq_none.mp hfresh k hk)

/-- Settles O36: each clause is the row's effect on the round, its records and the clocks. -/
theorem housekeepingRoundsMeasure : Obligations.HousekeepingRoundsMeasure := by
  unfold Obligations.HousekeepingRoundsMeasure
  intro s i l c b w x f
  refine ⟨fun hpower hrun hslot => ?_, fun hrun => ⟨?_, ?_⟩, fun hpower hrun hurgent => ?_, fun hpower hrun hslot => ?_,
    fun hslot => ?_, fun hrun hleft => ?_, fun hc => ?_, fun hpower => ?_⟩
  · exact runs_of_only (t := hkSlotEnd i s) rfl execHkSlotEnd_only (by decide) (hkSlotEnd_joins hpower hrun hslot)
  · exact congrArg Host.Outcome.next (if_pos (Or.inr (Or.inl hrun)))
  · exact congrArg Host.Outcome.next (if_pos (Or.inr (Or.inr hrun)))
  · refine runs_of_only (t := urgentSlotEnd i s) rfl execUrgentSlotEnd_only (by decide) ?_
    rw [urgentSlotEnd_clears hpower hrun hurgent]
    exact ⟨rfl, rfl, rfl, rfl, Bool.false_ne_true⟩
  · obtain ⟨u, k, hpub, hhk⟩ := hkRoundEnd_publishes (l := l) hpower hrun hslot
    obtain ⟨hcourse, hrest⟩ := Prod.mk.inj hpub
    obtain ⟨hround, hmaps⟩ := Prod.mk.inj hcourse
    obtain ⟨hmap, hnext⟩ := Prod.mk.inj hmaps
    obtain ⟨hrecords, haccum⟩ := Prod.mk.inj hrest
    refine runs_of_only (t := hkRoundEnd l s) rfl execHkRoundEnd_only (by decide) ?_
    rw [hhk]
    dsimp only [startRound]
    rw [hround, hmap, hnext, hrecords, haccum]
    exact ⟨rfl, rfl, rfl, rfl, rfl, rfl, fun n hn => ⟨(publishRecords_get s hn).1, (publishRecords_get s hn).2, rfl⟩⟩
  · exact congrArg Host.Outcome.next (if_pos (Or.inr (Or.inl hslot)))
  · exact runs_of_only (t := calPointComplete w s) rfl execCalPointComplete_only (by decide) (calPointComplete_ends hrun hleft)
  · refine runs_of_only (t := channelRecordLatch c s) rfl execChannelRecordLatch_only (by decide) ?_
    unfold channelRecordLatch
    rw [if_pos hc]
    exact get_set_same ..
  · obtain ⟨hclocks, hgood, hbad⟩ := clockMonitorCheck_notes (f := f) hpower
    exact runs_of_only (t := clockMonitorCheck f s) rfl execClockMonitorCheck_only (by decide)
      ⟨hclocks, fun h => Bool.eq_false_iff.mp (hgood h), hbad⟩

end Sys2Proof.Machine
end

section
set_option Elab.async false
/-! Frames that join the queues of the ports, and the choice of the upstream path (R264–R283): what they leave of the flock's state. -/

namespace Sys2Proof.Machine

open Sys2Proof

/-! ## Frames -/

/-- The flock's state beyond its ports and the refusals it has counted. -/
def FlState.books (f : FlState) : FlState := { f with ports := Bank.fill {}, nakNow := 0, nakTotal := 0, nakReasons := Bank.fill 0 }

/-- A port beyond the frames that wait on it and the nonces it has used. -/
def FlPort.settled (x : FlPort) : FlPort := { x with queue := [], ctrlDrops := 0, nonce := 0, noncePrev := 0 }

/-- From `s` to `t` frames have joined queues, and a request dropped there may have been refused. -/
structure Sent (s t : State) : Prop where
  books : t.fl.books = s.fl.books
  port : ∀ p, (t.port p).settled = (s.port p).settled

/-- What no frame touches. -/
theorem books_fields {f g : FlState} (h : g.books = f.books) :
    (g.lanes = f.lanes ∧ g.storedPorts = f.storedPorts ∧ g.config = f.config ∧ g.state = f.state ∧ g.memberId = f.memberId) ∧
    (g.heldId = f.heldId ∧ g.rejoin = f.rejoin ∧ g.primary = f.primary ∧ g.alternate = f.alternate ∧ g.grant = f.grant) ∧
    (g.joinTickets = f.joinTickets ∧ g.leave = f.leave ∧ g.below = f.below ∧ g.members = f.members ∧ g.blocked = f.blocked) ∧
    g.sentAt = f.sentAt ∧ g.attempts = f.attempts ∧ g.lostCount = f.lostCount ∧ g.admitTotal = f.admitTotal := by
  simp only [FlState.books, FlState.mk.injEq] at h
  tauto

theorem settled_fields {x y : FlPort} (h : y.settled = x.settled) : y.config = x.config ∧ y.lanes = x.lanes ∧ y.laneNext = x.laneNext ∧
    y.peer = x.peer ∧ y.mismatch = x.mismatch ∧ y.mismatches = x.mismatches ∧ y.t1 = x.t1 ∧ y.ttRun = x.ttRun ∧ y.ttLast = x.ttLast ∧
    y.flitsLost = x.flitsLost := by
  simp only [FlPort.settled, FlPort.mk.injEq] at h
  tauto

namespace Sent

theorem of_fl {s t : State} (h : t.fl = s.fl) : Sent s t := ⟨by rw [h], fun p => by rw [State.port, h]⟩

theorem refl (s : State) : Sent s s := of_fl rfl

theorem trans {s t u : State} (h : Sent s t) (k : Sent t u) : Sent s u :=
  ⟨k.books.trans h.books, fun p => (k.port p).trans (h.port p)⟩

theorem foldl {α : Type} {f : State → α → State} (hf : ∀ s x, Sent s (f s x)) (l : List α) (s : State) : Sent s (l.foldl f s) := by
  induction l generalizing s with
  | nil => exact refl s
  | cons x l ih => exact (hf s x).trans (ih _)

theorem modPort {p : Nat} {f : FlPort → FlPort} (s : State) (hf : ∀ x, (f x).settled = x.settled := by exact fun _ => rfl) :
    Sent s (modPort p f s) := by
  refine ⟨rfl, fun q => ?_⟩
  by_cases h : q = p
  · subst h
    rw [modPort_port, hf]
  · exact congrArg FlPort.settled (get_mod_other _ _ h)

theorem draw (s : State) : Sent s (draw s).2 := of_fl rfl

theorem enqueueRaw (p : Nat) (f : CtrlFrame) (s : State) : Sent s (enqueueRaw p f s).2 := by
  unfold Machine.enqueueRaw
  extract_lets q d
  split
  · exact modPort s
  · exact modPort s

theorem refuse (r : JoinReq) (reason port : Nat) (s : State) : Sent s (refuse r reason port s) := by
  unfold Machine.refuse
  extract_lets d
  have h1 : Sent s d.2 := of_fl (drawRetry_only (Only.refl 262144 s) rfl .fl rfl)
  have h2 := h1.trans (enqueueRaw port ⟨{ src := some (s.fl.memberId.getD 0) }, .joinResp ⟨reason, d.1, none, r.serial, 0⟩⟩ d.2)
  exact ⟨h2.books, h2.port⟩

theorem enqueue (p : Nat) (f : CtrlFrame) (s : State) : Sent s (enqueue p f s) := by
  have hraw := enqueueRaw p f s
  unfold Machine.enqueue
  split
  next h =>
    rw [h] at hraw
    split
    · exact hraw.trans (refuse ..)
    · exact hraw
  next h =>
    rw [h] at hraw
    exact hraw

theorem sendLink (p : Nat) (b : FrameBody) (s : State) : Sent s (sendLink p b s) := enqueue ..

theorem sendTo (d : Nat) (b : FrameBody) (s : State) : Sent s (sendTo d b s) := by
  unfold Machine.sendTo
  split
  · exact enqueue ..
  · exact refl s

theorem sendBelow (b : FrameBody) (s : State) : Sent s (sendBelow b s) := foldl (fun _ _ => enqueue ..) _ s

theorem sendUp (b : FrameBody) (s : State) : Sent s (sendUp b s) := by
  unfold Machine.sendUp
  split
  · exact foldl (fun _ _ => enqueue ..) _ s
  · exact refl s

theorem forward (p : Nat) (f : CtrlFrame) (s : State) : Sent s (forward p f s) := by
  unfold Machine.forward
  split
  · exact refl s
  · exact enqueue ..

theorem forwardUp (f : CtrlFrame) (s : State) : Sent s (forwardUp f s) := by
  unfold Machine.forwardUp
  split
  · exact forward ..
  · exact refl s

theorem sendHello (p : Nat) (s : State) : Sent s (sendHello p s) := by
  unfold Machine.sendHello
  extract_lets d n
  have h1 : Sent s d.2 := draw s
  exact (h1.trans (modPort d.2)).trans (sendLink ..)

theorem sendHellos (s : State) : Sent s (sendHellos s) := by
  unfold Machine.sendHellos
  split
  · exact refl s
  · exact foldl (fun _ _ => sendHello ..) _ s

theorem sendRehome (s : State) : Sent s (sendRehome s) := by
  unfold Machine.sendRehome
  split
  · exact sendUp ..
  · exact refl s

theorem lane {s t : State} (h : Sent s t) (l : Nat) : t.lane l = s.lane l :=
  congrArg (fun b : Bank Lane => b.get l) (books_fields h.books).1.1

theorem state {s t : State} (h : Sent s t) : t.fl.state = s.fl.state := (books_fields h.books).1.2.2.2.1

theorem primary {s t : State} (h : Sent s t) : t.fl.primary = s.fl.primary := (books_fields h.books).2.1.2.2.1

theorem portLanes {s t : State} (h : Sent s t) (p : Nat) : portLanes t p = portLanes s p :=
  congrArg (configLanes p) (settled_fields (h.port p)).1

end Sent

/-! ## The upstream path (R275, R283) -/

/-- The flock's state beyond its ports, its refusals, and the path it has chosen with the membership that hangs on it. -/
def FlState.tables (f : FlState) : FlState :=
  { f.books with primary := none, alternate := none, rehomes := 0, state := .detached, rehomeFrom := 0, grant := none }

/-- What the choice of a path leaves alone. -/
theorem tables_fields {f g : FlState} (h : g.tables = f.tables) :
    (g.lanes = f.lanes ∧ g.storedPorts = f.storedPorts ∧ g.config = f.config ∧ g.memberId = f.memberId) ∧
    (g.rejoin = f.rejoin ∧ g.joinTickets = f.joinTickets ∧ g.members = f.members ∧ g.below = f.below) := by
  simp only [FlState.tables, FlState.books, FlState.mk.injEq] at h
  tauto

/-- From `s` to `t` another path may have been chosen, and frames sent about it. -/
structure Rerouted (s t : State) : Prop where
  tables : t.fl.tables = s.fl.tables
  port : ∀ p, (t.port p).settled = (s.port p).settled

namespace Rerouted

theorem of_sent {s t : State} (h : Sent s t) : Rerouted s t :=
  ⟨congrArg (fun f : FlState => { f with
    primary := none, alternate := none, rehomes := 0, state := .detached, rehomeFrom := 0, grant := none }) h.books, h.port⟩

theorem refl (s : State) : Rerouted s s := of_sent (.refl s)

theorem trans {s t u : State} (h : Rerouted s t) (k : Rerouted t u) : Rerouted s u :=
  ⟨k.tables.trans h.tables, fun p => (k.port p).trans (h.port p)⟩

/-- A change of the path or of the membership alone. -/
theorem modFl {f : FlState → FlState} (s : State)
    (hf : ∀ x : FlState, (f x).tables = x.tables ∧ (f x).ports = x.ports := by exact fun _ => ⟨rfl, rfl⟩) : Rerouted s (s.modFl f) :=
  ⟨(hf s.fl).1, fun p => congrArg (fun b : Bank FlPort => (b.get p).settled) (hf s.fl).2⟩

theorem chooseAlternate (s : State) : Rerouted s (chooseAlternate s) := by
  unfold Machine.chooseAlternate
  split
  · extract_lets a
    clear_value a
    exact modFl s
  · exact modFl s

theorem takePrimary (p : Nat) (s : State) : Rerouted s (takePrimary p s) := by
  unfold Machine.takePrimary
  extract_lets s1
  have h1 : Rerouted s s1 := (modFl s).trans (chooseAlternate _)
  clear_value s1
  split
  · exact (h1.trans (modFl s1)).trans (of_sent ((Sent.sendRehome _).trans (.sendHellos _)))
  · split
    · exact h1.trans (modFl s1)
    · exact h1
  · exact h1

theorem choosePath (s : State) : Rerouted s (choosePath s) := by
  unfold Machine.choosePath
  split
  · exact refl s
  · split
    · exact chooseAlternate s
    · split
      · exact takePrimary ..
      · exact refl s

theorem leavePrimary (s : State) : Rerouted s (leavePrimary s) := by
  unfold Machine.leavePrimary
  extract_lets old s1 s2
  have h1 : Rerouted s s1 := modFl s
  have h2 : Rerouted s s2 := (h1.trans (modFl s1)).trans (of_sent (.sendBelow ..))
  clear_value s1 s2
  have hleave (t : State) (ht : Rerouted s t) : Rerouted s (match s.fl.alternate with
      | some a => if some a ≠ old ∧ eligible t a then Machine.takePrimary a t else Machine.choosePath t
      | none => Machine.choosePath t) := by
    split
    · split
      · exact ht.trans (takePrimary ..)
      · exact ht.trans (choosePath t)
    · exact ht.trans (choosePath t)
  split
  · exact hleave s2 h2
  · exact hleave s2 h2
  · exact (h1.trans (modFl s1)).trans (choosePath _)
  · exact (h1.trans (modFl s1)).trans (choosePath _)
  · exact (h1.trans (modFl s1)).trans (choosePath _)
  · exact h1.trans (choosePath s1)

theorem followFlock (s : State) : Rerouted s (followFlock s) := of_sent (.of_fl (followFlock_only (Only.refl 1 s) rfl .fl rfl))

theorem losePrimary (s : State) : Rerouted s (losePrimary s) := (leavePrimary s).trans (followFlock _)

theorem lane {s t : State} (h : Rerouted s t) (l : Nat) : t.lane l = s.lane l :=
  congrArg (fun b : Bank Lane => b.get l) (tables_fields h.tables).1.1

theorem portLanes {s t : State} (h : Rerouted s t) (p : Nat) : portLanes t p = portLanes s p :=
  congrArg (configLanes p) (settled_fields (h.port p)).1

end Rerouted

/-! ## A port that is down -/

/-- A port beyond what its loss takes from it: the peer, the time exchange and the child it had. -/
def FlPort.frame (x : FlPort) : FlPort := { x.settled with peer := none, childDown := none, ttRun := 0, t1 := none, ttFailed := false }

theorem frame_fields {x y : FlPort} (h : y.frame = x.frame) : y.config = x.config ∧ y.lanes = x.lanes ∧ y.laneNext = x.laneNext ∧
    y.mismatch = x.mismatch ∧ y.mismatches = x.mismatches := by
  simp only [FlPort.frame, FlPort.settled, FlPort.mk.injEq] at h
  tauto

/-- From `s` to `t` a port may have gone down, and another path may have been chosen. -/
structure Downed (s t : State) : Prop where
  tables : t.fl.tables = s.fl.tables
  port : ∀ p, (t.port p).frame = (s.port p).frame

namespace Downed

theorem of_rerouted {s t : State} (h : Rerouted s t) : Downed s t :=
  ⟨h.tables, fun p => congrArg (fun x : FlPort => { x with peer := none, childDown := none, ttRun := 0, t1 := none, ttFailed := false })
    (h.port p)⟩

theorem refl (s : State) : Downed s s := of_rerouted (.refl s)

theorem of_fl {s t : State} (h : t.fl = s.fl) : Downed s t := of_rerouted (.of_sent (.of_fl h))

theorem trans {s t u : State} (h : Downed s t) (k : Downed t u) : Downed s u :=
  ⟨k.tables.trans h.tables, fun p => (k.port p).trans (h.port p)⟩

theorem modPort {p : Nat} {f : FlPort → FlPort} (s : State) (hf : ∀ x, (f x).frame = x.frame := by exact fun _ => rfl) :
    Downed s (modPort p f s) := by
  refine ⟨rfl, fun q => ?_⟩
  by_cases h : q = p
  · subst h
    rw [modPort_port, hf]
  · exact congrArg FlPort.frame (get_mod_other _ _ h)

theorem failTimePort (p : Nat) (s : State) : Downed s (failTimePort p s) := modPort s

theorem timePortLost (p : Nat) (s : State) : Downed s (timePortLost p s) := by
  unfold Machine.timePortLost
  extract_lets s1
  have h1 : Downed s s1 := failTimePort p s
  clear_value s1
  split
  · exact h1.trans (of_rerouted (.followFlock s1))
  · exact h1

theorem portDown (p : Nat) (s : State) : Downed s (portDown p s) := by
  unfold Machine.portDown
  extract_lets s1 s2 s3
  have h1 : Downed s s1 := by
    unfold s1
    split
    · exact modPort s
    · exact modPort s
  clear_value s1
  have h2 : Downed s1 s2 := by
    refine Downed.trans (t := if s.fl.alternate = some p then s1.modFl (fun f => { f with alternate := none }) else s1) ?_ (failTimePort p _)
    split
    · exact of_rerouted (.modFl s1)
    · exact refl s1
  clear_value s2
  have h3 : Downed s2 s3 := by
    unfold s3
    split
    · exact of_rerouted (.losePrimary s2)
    · exact of_rerouted (.chooseAlternate s2)
  clear_value s3
  have h := (h1.trans h2).trans h3
  split
  · exact h.trans (of_rerouted (.followFlock s3))
  · exact h

theorem reviewPort (p : Nat) (was : Bool) (s : State) : Downed s (reviewPort p was s) := by
  unfold Machine.reviewPort
  split
  · exact portDown p s
  · exact refl s

theorem lane {s t : State} (h : Downed s t) (l : Nat) : t.lane l = s.lane l :=
  congrArg (fun b : Bank Lane => b.get l) (tables_fields h.tables).1.1

theorem lanes {s t : State} (h : Downed s t) (p : Nat) : (t.port p).lanes = (s.port p).lanes := (frame_fields (h.port p)).2.1

theorem portLanes {s t : State} (h : Downed s t) (p : Nat) : portLanes t p = portLanes s p :=
  congrArg (configLanes p) (frame_fields (h.port p)).1

end Downed

/-! ## Lanes -/

theorem lane_modLane_same (l : Nat) (f : Lane → Lane) (s : State) : (modLane l f s).lane l = f (s.lane l) := get_mod_same ..

theorem lane_modLane_other {l k : Nat} (f : Lane → Lane) (s : State) (h : k ≠ l) : (modLane l f s).lane k = s.lane k :=
  get_mod_other _ _ h

theorem port_modLane (l : Nat) (f : Lane → Lane) (s : State) (p : Nat) : (modLane l f s).port p = s.port p := rfl

theorem lane_modPort (p : Nat) (f : FlPort → FlPort) (s : State) (l : Nat) : (modPort p f s).lane l = s.lane l := rfl

theorem lane_of_fl {s t : State} (h : t.fl = s.fl) (l : Nat) : t.lane l = s.lane l := congrArg (fun f : FlState => f.lanes.get l) h

theorem port_of_fl {s t : State} (h : t.fl = s.fl) (p : Nat) : t.port p = s.port p := congrArg (fun f : FlState => f.ports.get p) h

theorem modLane_keeps {β : Type} (g : Lane → β) {m : Nat} {f : Lane → Lane} (s : State) (l : Nat)
    (hf : ∀ x, g (f x) = g x := by exact fun _ => rfl) : g ((modLane m f s).lane l) = g (s.lane l) := by
  by_cases h : l = m
  · subst h
    rw [lane_modLane_same, hf]
  · rw [lane_modLane_other _ _ h]

theorem placementTrigger_fl (s : State) : (placementTrigger s).fl = s.fl := placementTrigger_only (Only.refl 8192 s) rfl .fl rfl

/-- A lane withdrawn from its port serves it no longer, and nothing else of the lane differs but its qualification. -/
theorem withdrawLane_port (l : Nat) (s : State) : l ∉ ((withdrawLane l s).port (portOfLane s l)).lanes := by
  unfold withdrawLane
  extract_lets p s1 rest s2
  have h1 : s1.port p = s.port p := port_modLane ..
  clear_value s1
  split
  · rw [port_of_fl (placementTrigger_fl _)]
    have h2 : (s2.port p).lanes = rest := congrArg FlPort.lanes (modPort_port p _ s1)
    clear_value s2
    have hrest : l ∉ rest := fun h => (bne_iff_ne.mp (List.mem_filter.mp h).2) rfl
    have h3 : Sent s2 (if rest.isEmpty = true then s2 else sendLink p (.laneSet (laneMask s2 p rest) s.air.frame) s2) := by
      split
      · exact .refl s2
      · exact .sendLink ..
    rw [(settled_fields (h3.port p)).2.1, h2]
    exact hrest
  next h =>
    rw [h1]
    exact fun hmem => h (List.elem_eq_true_of_mem hmem)

theorem withdrawLane_keeps {β : Type} (g : Lane → β) (m : Nat) (s : State) (l : Nat)
    (hg : ∀ x, g { x with qualLeft := 0, offered := false } = g x := by exact fun _ => rfl) :
    g ((withdrawLane m s).lane l) = g (s.lane l) := by
  unfold withdrawLane
  extract_lets p s1 rest s2
  have h1 : g (s1.lane l) = g (s.lane l) := modLane_keeps g s l hg
  clear_value s1
  split
  · rw [lane_of_fl (placementTrigger_fl _)]
    have h2 : s2.lane l = s1.lane l := lane_modPort ..
    clear_value s2
    have h3 : Sent s2 (if rest.isEmpty = true then s2 else sendLink p (.laneSet (laneMask s2 p rest) s.air.frame) s2) := by
      split
      · exact .refl s2
      · exact .sendLink ..
    rw [h3.lane, h2, h1]
  · exact h1

/-- A port whose lanes are powered has none that is OFF. -/
theorem powerPort_on {p l : Nat} {s : State} (hrole : s.sys.role ≠ .unset) (hl : l ∈ portLanes s p) : ((powerPort p s).lane l).state ≠ .off := by
  unfold powerPort
  rw [if_neg hrole]
  have hkeep (m : List Nat) (t : State) (h : (t.lane l).state ≠ .off) :
      ((m.foldl (fun acc k => modLane k (fun y => if y.state = .off then { y with state := .signalWait } else y) acc) t).lane l).state ≠ .off := by
    induction m generalizing t with
    | nil => exact h
    | cons k m ih =>
      refine ih _ ?_
      by_cases hk : l = k
      · subst hk
        rw [lane_modLane_same, if_neg h]
        exact h
      · rw [lane_modLane_other _ _ hk]
        exact h
  have hget (m : List Nat) (t : State) (h : l ∈ m) :
      ((m.foldl (fun acc k => modLane k (fun y => if y.state = .off then { y with state := .signalWait } else y) acc) t).lane l).state ≠ .off := by
    induction m generalizing t with
    | nil => exact absurd h List.not_mem_nil
    | cons k m ih =>
      obtain rfl | hm := List.mem_cons.mp h
      · refine hkeep m _ ?_
        rw [lane_modLane_same]
        split
        · exact fun h => LaneState.noConfusion h
        · assumption
      · exact ih _ hm
  exact hget _ s hl

theorem powerPort_ports (p : Nat) (s : State) : (powerPort p s).fl.ports = s.fl.ports ∧ (powerPort p s).fl.storedPorts = s.fl.storedPorts := by
  have hfold (l : List Nat) (t : State) (f : Lane → Lane) :
      ((l.foldl (fun acc k => modLane k f acc) t).fl.ports, (l.foldl (fun acc k => modLane k f acc) t).fl.storedPorts) =
        (t.fl.ports, t.fl.storedPorts) :=
    foldl_keeps (f := fun acc k => modLane k f acc) (fun u => (u.fl.ports, u.fl.storedPorts)) (fun _ _ => rfl) l t
  unfold powerPort
  split
  · exact ⟨rfl, rfl⟩
  · exact Prod.mk.inj (hfold _ s _)

end Sys2Proof.Machine
end

section
set_option Elab.async false
/-! The commands of the flock (R260–R284). -/

namespace Sys2Proof.Machine

open Sys2Proof

/-! ## FL_PORT_CONFIG -/

/-- A port has taken a configuration: it is stored, and the port has no peer yet. -/
def takeConfig (p : Nat) (c : PortConfig) (s : State) : State :=
  (modPort p (fun x => { x with config := c, peer := none }) s).modFl (fun f => { f with storedPorts := f.storedPorts.set p (some c) })

theorem takeConfig_port (p : Nat) (c : PortConfig) (s : State) :
    ((takeConfig p c s).port p).config = c ∧ ((takeConfig p c s).port p).peer = none ∧ (takeConfig p c s).fl.storedPorts.get p = some c :=
  ⟨congrArg FlPort.config (modPort_port p (fun x => { x with config := c, peer := none }) s),
    congrArg FlPort.peer (modPort_port p (fun x => { x with config := c, peer := none }) s), get_set_same ..⟩

theorem flPortConfig_takes (q : Req) (s : State) : ∃ u : State, u.sys = s.sys ∧
    (specFlPortConfig.effect s q).1 = placementTrigger (powerPort (u8 q.payload 0) (takeConfig (u8 q.payload 0) (portConfigOf q.payload) u)) := by
  refine ⟨_, ?_, rfl⟩
  rw [show ∀ p was t, (reviewPort p was t).sys = t.sys from fun p was t => reviewPort_only (Only.refl 266241 t) rfl .sys rfl]
  exact unpowerLanes_only (Only.refl 4096 s) rfl .sys rfl

theorem flPortConfig_does (r : HostRequest) (s : State) : Does 0x0A01 .flPortConfig r s [.air, .fl, .dv, .drawn] fun t =>
    (t.port (r.u8 0)).config = portConfigOf r.payload ∧ (t.port (r.u8 0)).peer = none ∧
    t.fl.storedPorts.get (r.u8 0) = some (portConfigOf r.payload) ∧
    ∀ l ∈ configLanes (r.u8 0) (portConfigOf r.payload), (t.lane l).state ≠ .off := by
  refine does_of_only rfl rfl specFlPortConfig_only (by decide) (fun _ _ => ⟨rfl, rfl⟩) fun h => ?_
  obtain ⟨u, hsys, heffect⟩ := flPortConfig_takes (reqOf 0x0A01 r) (atStart 0x0A01 r s)
  have hfl : (submit specFlPortConfig r s).fl = (powerPort (r.u8 0) (takeConfig (r.u8 0) (portConfigOf r.payload) u)).fl := by
    rw [submit_after h .fl rfl]
    exact (congrArg State.fl heffect).trans (placementTrigger_fl _)
  have hrole : (takeConfig (r.u8 0) (portConfigOf r.payload) u).sys.role ≠ .unset := by
    have hstates := states_hold_of_validate h.2
    exact (congrArg SysState.role hsys).trans_ne (bne_iff_ne.mp hstates)
  obtain ⟨hconfig, hpeer, hstored⟩ := takeConfig_port (r.u8 0) (portConfigOf r.payload) u
  obtain ⟨hports, hstores⟩ := powerPort_ports (r.u8 0) (takeConfig (r.u8 0) (portConfigOf r.payload) u)
  refine ⟨?_, ?_, ?_, fun l hl => ?_⟩
  · rw [port_of_fl hfl, State.port, hports]
    exact hconfig
  · rw [port_of_fl hfl, State.port, hports]
    exact hpeer
  · rw [hfl, hstores]
    exact hstored
  · rw [lane_of_fl hfl]
    refine powerPort_on hrole ?_
    rw [portLanes, hconfig]
    exact hl

/-! ## FL_FLOCK_CONFIG -/

theorem joinSettingChanged_config (s : State) : (joinSettingChanged s).fl.config = s.fl.config := by
  have hpath (t : State) : (choosePath t).fl.config = t.fl.config := (tables_fields (Rerouted.choosePath t).tables).1.2.2.1
  unfold joinSettingChanged
  split
  · rfl
  · split
    · split
      · rfl
      · exact hpath s
    · split <;> rfl

/-- A member that waits for its admission stops where joining is forbidden. -/
theorem joinSettingChanged_stops {s : State} (hrole : s.sys.role ≠ .hub) (hoff : s.fl.config.joinEnabled = false)
    (hwait : s.fl.state = .joinWait) : (joinSettingChanged s).fl.state = .detached := by
  unfold joinSettingChanged
  rw [if_neg hrole, if_neg (by rw [hoff]; exact Bool.false_ne_true), hwait]
  rfl

/-! ## FL_LANE_CONTROL -/

theorem retrainLane_state (l : Nat) (s : State) : ((retrainLane l s).lane l).state = .signalWait := by
  unfold retrainLane
  extract_lets p was
  rw [(Downed.reviewPort ..).lane, withdrawLane_keeps Lane.state, lane_modLane_same]

theorem penLane_fault (l : Nat) (s : State) : (penLane l s).fault = { s.fault with
    pens := s.fault.pens.filter (fun x => !(x.unit == laneUnit l && x.reason == .host)) ++ [⟨laneUnit l, .host⟩]
    paddock := s.fault.paddock.filter (· != laneUnit l) } := by
  unfold penLane
  extract_lets p was
  rw [show ∀ u, (reviewPort p was u).fault = u.fault from fun u => reviewPort_only (Only.refl 266241 u) rfl .fault rfl,
    show ∀ u, (withdrawLane l u).fault = u.fault from fun u => withdrawLane_only (Only.refl 274432 u) rfl .fault rfl]
  rfl

theorem penLane_held (l : Nat) (s : State) : laneHeld (penLane l s) l = true := by
  rw [laneHeld, penLane_fault]
  simp

theorem releaseLane_pens (l : Nat) (s : State) :
    (releaseLane l s).fault.pens = s.fault.pens.filter (fun x => !(x.unit == laneUnit l && x.reason == .host)) := by
  unfold releaseLane
  extract_lets s1
  have h1 : s1.fault.pens = s.fault.pens.filter (fun x => !(x.unit == laneUnit l && x.reason == .host)) := rfl
  clear_value s1
  split
  · rw [show ∀ u, (choosePath u).fault = u.fault from fun u => choosePath_only (Only.refl 266240 u) rfl .fault rfl]
    exact h1
  · exact h1

theorem flLaneControl_does (r : HostRequest) (s : State) : Does 0x0A05 .flLaneControl r s [.air, .fault, .fl, .dv, .drawn] fun t =>
    (r.u8 1 = 0 → (t.lane (r.u8 0)).state = .signalWait) ∧ (r.u8 1 = 1 → laneHeld t (r.u8 0)) ∧
    (r.u8 1 = 2 → t.fault.pens = s.fault.pens.filter (fun y => !(y.unit == laneUnit (r.u8 0) && y.reason == .host))) ∧
    (r.u8 1 = 3 → (t.lane (r.u8 0)).prbs = some (0, 0)) ∧
    (r.u8 1 = 4 → (t.lane (r.u8 0)).prbs = none ∧
      answerBytes r t = le 8 (((s.lane (r.u8 0)).prbs).getD (0, 0)).1 ++ le 8 (((s.lane (r.u8 0)).prbs).getD (0, 0)).2) := by
  refine does_of_only rfl rfl specFlLaneControl_only (by decide) (fun s q => ?_) fun h => ?_
  · simp only [specFlLaneControl]
    split <;> exact ⟨rfl, rfl⟩
  have hfl := submit_after h .fl rfl
  have hfault := submit_after h .fault rfl
  have heffect : specFlLaneControl.effect (atStart 0x0A05 r s) (reqOf 0x0A05 r) = (match r.u8 1 with
    | 0 => (retrainLane (r.u8 0) (atStart 0x0A05 r s), {})
    | 1 => (penLane (r.u8 0) (atStart 0x0A05 r s), {})
    | 2 => (releaseLane (r.u8 0) (atStart 0x0A05 r s), {})
    | 3 => (modLane (r.u8 0) (fun x => { x with prbs := some (0, 0) }) (atStart 0x0A05 r s), {})
    | _ => (modLane (r.u8 0) (fun x => { x with prbs := none }) (atStart 0x0A05 r s),
        { payload := le 8 (((s.lane (r.u8 0)).prbs).getD (0, 0)).1 ++ le 8 (((s.lane (r.u8 0)).prbs).getD (0, 0)).2 })) := rfl
  refine ⟨fun h0 => ?_, fun h1 => ?_, fun h2 => ?_, fun h3 => ?_, fun h4 => ?_⟩
  · rw [h0] at heffect
    rw [lane_of_fl (hfl.trans (congrArg (fun x => x.1.fl) heffect))]
    exact retrainLane_state ..
  · rw [h1] at heffect
    rw [laneHeld, hfault.trans (congrArg (fun x => x.1.fault) heffect)]
    exact penLane_held ..
  · rw [h2] at heffect
    rw [hfault.trans (congrArg (fun x => x.1.fault) heffect)]
    exact releaseLane_pens ..
  · rw [h3] at heffect
    rw [lane_of_fl (hfl.trans (congrArg (fun x => x.1.fl) heffect))]
    exact congrArg Lane.prbs (lane_modLane_same _ _ (atStart 0x0A05 r s))
  · rw [h4] at heffect
    refine ⟨?_, ?_⟩
    · rw [lane_of_fl (hfl.trans (congrArg (fun x => x.1.fl) heffect))]
      exact congrArg Lane.prbs (lane_modLane_same _ _ (atStart 0x0A05 r s))
    · rw [answerBytes_of_accepts (i := .flLaneControl r) rfl h (by
        rw [show specFlLaneControl.opcode = 0x0A05 from rfl, heffect]
        exact ⟨rfl, rfl⟩)]
      exact congrArg (fun x => x.2.payload) heffect

/-! ## The members -/

theorem flMemberQuery_does (r : HostRequest) (s : State) (x : MemberRec) : Does 0x0A06 .flMemberQuery r s [] fun t => t.fl = s.fl ∧
    (hubRecord s (r.u16 0) = none → answerBytes r t = List.replicate 24 0) ∧
    (hubRecord s (r.u16 0) = some x → answerBytes r t = le 8 x.serial.toNat ++ le 1 x.state.code ++ le 1 x.hops ++ le 2 x.parent ++
      le 4 (place 8 0 x.role + place 8 8 x.power) ++ le 8 x.lastSeen) := by
  refine does_of_only rfl rfl specFlMemberQuery_only (by decide) (fun s q => ?_) fun h => ?_
  · simp only [specFlMemberQuery]
    split <;> exact ⟨rfl, rfl⟩
  have hrecord : hubRecord (atStart 0x0A06 r s) (r.u16 0) = hubRecord s (r.u16 0) := rfl
  have heffect : specFlMemberQuery.effect (atStart 0x0A06 r s) (reqOf 0x0A06 r) = (match hubRecord (atStart 0x0A06 r s) (r.u16 0) with
    | some x => (atStart 0x0A06 r s, {
        payload := le 8 x.serial.toNat ++ le 1 x.state.code ++ le 1 x.hops ++ le 2 x.parent ++
          le 4 (place 8 0 x.role + place 8 8 x.power) ++ le 8 x.lastSeen })
    | none => (atStart 0x0A06 r s, { payload := le 8 0 ++ le 1 0 ++ le 1 0 ++ le 2 0 ++ le 4 0 ++ le 8 0 })) := rfl
  refine ⟨?_, fun hnone => ?_, fun hsome => ?_⟩
  · rw [submit_after h .fl rfl]
    refine (congrArg (fun y => y.1.fl) heffect).trans ?_
    split <;> rfl
  · rw [hrecord, hnone] at heffect
    rw [answerBytes_of_accepts (i := .flMemberQuery r) rfl h (by
      rw [show specFlMemberQuery.opcode = 0x0A06 from rfl, heffect]
      exact ⟨rfl, rfl⟩)]
    exact congrArg (fun x => x.2.payload) heffect
  · rw [hrecord, hsome] at heffect
    rw [answerBytes_of_accepts (i := .flMemberQuery r) rfl h (by
      rw [show specFlMemberQuery.opcode = 0x0A06 from rfl, heffect]
      exact ⟨rfl, rfl⟩)]
    exact congrArg (fun x => x.2.payload) heffect

theorem flExpel_runs {r : HostRequest} {s : State} {x : MemberRec} (h : Accepts specFlExpel r s) (hx : s.fl.members.get (r.u16 0) = some x) :
    Runs (.flExpel r) s [.host, .fl, .pair, .drawn] fun t => Answered 0x0A07 r .ok t ∧ t.fl.blocked.head? = some (x.serial,
      if r.u32 4 = 0 then none else some (s.now + tcOfS (r.u32 4))) := by
  have heffect : specFlExpel.effect (atStart 0x0A07 r s) (reqOf 0x0A07 r) = (sendTo (r.u16 0) .expel ((atStart 0x0A07 r s).modFl (fun f =>
      { f with blocked := (x.serial, if r.u32 4 = 0 then none else some (s.now + tcOfS (r.u32 4))) ::
        f.blocked.filter (fun b => b.1 != x.serial) })), {}) := by
    have hmember : (atStart 0x0A07 r s).fl.members.get (u16 (reqOf 0x0A07 r).payload 0) = some x := hx
    simp only [specFlExpel, hmember]
    rfl
  refine runs_of_accepts rfl specFlExpel_only (by decide) h ?_ ?_
  · rw [show specFlExpel.opcode = 0x0A07 from rfl, heffect]
    exact ⟨rfl, rfl⟩
  · rw [submit_after h .fl rfl, show specFlExpel.opcode = 0x0A07 from rfl, heffect]
    obtain ⟨-, -, ⟨-, -, -, -, hblocked⟩, -⟩ := books_fields (Sent.sendTo (r.u16 0) .expel ((atStart 0x0A07 r s).modFl (fun f =>
      { f with blocked := (x.serial, if r.u32 4 = 0 then none else some (s.now + tcOfS (r.u32 4))) ::
        f.blocked.filter (fun b => b.1 != x.serial) }))).books
    exact congrArg List.head? hblocked

/-- Settles O37: each clause is the command's effect on its port, lane or member. -/
theorem flockCommandsComplete : Obligations.FlockCommandsComplete := by
  unfold Obligations.FlockCommandsComplete
  intro r s x
  refine ⟨flPortConfig_does r s, ?_, fun h => ?_, ?_, flLaneControl_does r s, flMemberQuery_does r s x, flExpel_runs⟩
  · refine does_of_only rfl rfl specFlFlockConfig_only (by decide) (fun _ _ => ⟨rfl, rfl⟩) fun h => ?_
    have hfl : (submit specFlFlockConfig r s).fl = (joinSettingChanged ((atStart 0x0A02 r s).modFl (fun f => { f with
        config := flockConfigOf r.payload }))).fl := by
      rw [submit_after h .fl rfl]
      exact reselect_only (Only.refl 1 (joinSettingChanged ((atStart 0x0A02 r s).modFl (fun f => { f with
        config := flockConfigOf r.payload })))) rfl .fl rfl
    rw [hfl]
    refine ⟨joinSettingChanged_config _, fun hrole hoff hwait => ?_⟩
    refine joinSettingChanged_stops hrole ?_ hwait
    exact beq_eq_false_iff_ne.mpr fun h1 => absurd (h1.symm.trans hoff) (by decide)
  · refine runs_of_accepts rfl specFlJoin_only (by decide) h ⟨rfl, rfl⟩ ?_
    rw [submit_after h .fl rfl]
    obtain ⟨-, hrejoin, htickets, -⟩ := tables_fields (Rerouted.choosePath ((atStart 0x0A03 r s).modFl (fun f => { f with
      joinTickets := f.joinTickets ++ [ticketOf (reqOf 0x0A03 r)], rejoin := r.u8 0 == 1, hardRun := 0
      state := if f.state = .refused then (if f.primary.isSome then .timeQual else .detached) else f.state }))).tables
    exact ⟨htickets, hrejoin⟩
  · refine does_of_only rfl rfl specFlLeave_only (by decide) (fun _ _ => ⟨rfl, rfl⟩) fun h => ⟨?_, ?_⟩
    · rw [answerBytes_of_accepts (i := .flLeave r) rfl h ⟨rfl, rfl⟩]
      rfl
    · rw [submit_after h .fl rfl]
      obtain ⟨⟨-, -, -, hstate, -⟩, -, ⟨-, hleave, -⟩, -⟩ := books_fields (Sent.sendUp
        (.leave (ownMember (atStart 0x0A04 r s)) (leaveAtFrame s (r.u32 0)) LeaveCause.command.code)
        ((atStart 0x0A04 r s).modFl (fun x => { x with state := .leaving, leave := some (leaveAtFrame s (r.u32 0), .command) }))).books
      exact ⟨hstate, hleave⟩

end Sys2Proof.Machine
end

section
set_option Elab.async false
/-! The rows of the lanes, and of the frames that ports exchange (R261–R273, R310). -/

namespace Sys2Proof.Machine

open Sys2Proof

/-! ## Lanes -/

theorem signalDetect_trains {l : Nat} {s : State} (hstate : (s.lane l).state = .signalWait) (hwait : (s.lane l).retrainAt = none) :
    ((signalDetect l s).lane l).state = .training ∧ ((signalDetect l s).lane l).since = s.now ∧
    ((signalDetect l s).lane l).trainings = (s.lane l).trainings + 1 := by
  unfold signalDetect
  rw [if_pos ⟨hstate, hwait⟩, lane_modLane_same]
  exact ⟨rfl, rfl, rfl⟩

theorem air_modLane (l : Nat) (f : Lane → Lane) (s : State) : (modLane l f s).air = s.air := rfl

theorem laneTrainTimeout_of_training {l : Nat} {s : State} (h : (s.lane l).state = .training ∨ (s.lane l).state = .aligning) :
    laneTrainTimeout l s = modLane l (fun y => { y with
      state := .signalWait, wait := if y.wasUp then min (2 * (s.lane l).wait) 10000 else y.wait
      retrainAt := if y.wasUp then some (now (advanceTo ((s.lane l).since + tcOfMs 50) s) + tcOfMs (min (2 * (s.lane l).wait) 10000))
        else none }) (advanceTo ((s.lane l).since + tcOfMs 50) s) := by
  unfold laneTrainTimeout
  exact if_pos h

theorem laneTrainTimeout_waits {l : Nat} {s : State} (h : (s.lane l).state = .training ∨ (s.lane l).state = .aligning) :
    ((laneTrainTimeout l s).lane l).state = .signalWait ∧ waited s (laneTrainTimeout l s) ((s.lane l).since + tcOfMs 50) ∧
    ((s.lane l).wasUp → ((laneTrainTimeout l s).lane l).retrainAt =
      some ((laneTrainTimeout l s).now + tcOfMs (min (2 * (s.lane l).wait) 10000))) := by
  have hair : (laneTrainTimeout l s).air = (advanceTo ((s.lane l).since + tcOfMs 50) s).air := by
    rw [laneTrainTimeout_of_training h, air_modLane]
  refine ⟨?_, ?_, fun hup => ?_⟩
  · rw [laneTrainTimeout_of_training h, lane_modLane_same]
  · rw [waited, hair]
    exact advanceTo_waited ((s.lane l).since + tcOfMs 50) s
  · have hnow : (laneTrainTimeout l s).now = now (advanceTo ((s.lane l).since + tcOfMs 50) s) := by rw [now, ← hair]
    rw [hnow, laneTrainTimeout_of_training h, lane_modLane_same, lane_of_fl advanceTo_keeps_fl l]
    dsimp only
    rw [if_pos hup]

theorem laneUp_serves {l : Nat} {b : Bool} {s : State} (hstate : (s.lane l).state = .training ∨ (s.lane l).state = .aligning)
    (hpeer : ¬(s.port (portOfLane s l)).mismatch = true) (hnow : s.now ≤ (s.lane l).since + tcOfMs 50) :
    ((laneUp l b s).lane l).state = .up ∧ ((laneUp l b s).lane l).wait = 100 ∧ ((laneUp l b s).lane l).precoding = b ∧
    holding (laneUp l b s) 0x80 (laneUnit l) = false ∧
    ((s.lane l).wasUp → ((laneUp l b s).lane l).qualLeft = s.fl.config.laneQual) := by
  unfold laneUp
  extract_lets x p again s1 s2
  rw [if_pos ⟨hstate, Bool.eq_false_iff.mpr hpeer, hnow⟩]
  have hlane1 : s1.lane l = { x with
      state := .up, precoding := b, trainTime := (now s - x.since) * 100 / 196608, wait := 100, retrainAt := none
      wasUp := true, badRun := 0, serRun := 0, qualLeft := if again then s.fl.config.laneQual else 0 } :=
    (lane_of_fl endFault_keeps_fl l).trans (lane_modLane_same ..)
  have hend1 : holding s1 0x80 (laneUnit l) = false := holding_endFault ..
  clear_value s1
  have hlane2 : s2.lane l = s1.lane l := by
    unfold s2
    split
    · rfl
    · exact (lane_of_fl (placementTrigger_fl _) l).trans (lane_modPort ..)
  have hfault2 : s2.fault = s1.fault := by
    unfold s2
    split
    · rfl
    · exact placementTrigger_only (Only.refl 8192 _) rfl .fault rfl
  clear_value s2
  have hlane := ((Rerouted.choosePath (modPort p (fun y => { y with childDown := none }) s2)).lane l).trans
    ((lane_modPort ..).trans (hlane2.trans hlane1))
  have hfault : (choosePath (modPort p (fun y => { y with childDown := none }) s2)).fault = s2.fault :=
    choosePath_only (Only.refl 266240 (modPort p (fun y => { y with childDown := none }) s2)) rfl .fault rfl
  rw [hlane, holding, hfault, hfault2]
  exact ⟨rfl, rfl, rfl, hend1, fun hup => if_pos hup⟩

theorem laneDown_waits {l : Nat} {w : LaneLoss} {s : State} (hstate : (s.lane l).state = .up)
    (hloss : w = .uncorrectable → 2 ≤ (s.lane l).badRun) :
    ((laneDown l w s).lane l).state = .down ∧ ((laneDown l w s).lane l).lastDown = s.now ∧
    ((laneDown l w s).lane l).retrainAt = some (s.now + tcOfMs (s.lane l).wait) ∧
    l ∉ ((laneDown l w s).port (portOfLane s l)).lanes ∧ holding (laneDown l w s) 0x80 (laneUnit l) = true := by
  unfold laneDown
  extract_lets x p was s1 s2
  rw [if_pos ⟨hstate, Decidable.imp_iff_not_or.mp hloss⟩]
  have hlane1 : ((s1.lane l).state, (s1.lane l).lastDown, (s1.lane l).retrainAt) = (.down, s.now, some (s.now + tcOfMs x.wait)) := by
    unfold s1
    rw [withdrawLane_keeps (fun y : Lane => (y.state, y.lastDown, y.retrainAt)), lane_modLane_same]
    rfl
  have hport1 : l ∉ (s1.port p).lanes := withdrawLane_port l (modLane l (fun y => { y with
      state := .down, lastDown := now s, retrainAt := some (now s + tcOfMs y.wait), badRun := 0, serRun := 0 }) s)
  clear_value s1
  have hfl2 : s2.fl = s1.fl := raiseLevel_keeps_fl
  have hhold2 : holding s2 0x80 (laneUnit l) = true := holding_raiseLevel _ s1
  clear_value s2
  have h3 : Downed s2 (if was = true ∧ portUp s2 p = false then portDown p s2 else timePortLost p s2) := by
    split
    · exact .portDown p s2
    · exact .timePortLost p s2
  have hfault3 : (if was = true ∧ portUp s2 p = false then portDown p s2 else timePortLost p s2).fault = s2.fault := by
    split
    · exact portDown_only (Only.refl 266241 s2) rfl .fault rfl
    · exact timePortLost_only (Only.refl 4097 s2) rfl .fault rfl
  obtain ⟨hdown, hrest⟩ := Prod.mk.inj hlane1
  obtain ⟨hlast, hretrain⟩ := Prod.mk.inj hrest
  rw [h3.lane, h3.lanes, holding, hfault3, lane_of_fl hfl2, port_of_fl hfl2]
  exact ⟨hdown, hlast, hretrain, hport1, hhold2⟩

theorem retrainBackoffExpiry_ends {l k : Nat} {s : State} (h : (s.lane l).retrainAt = some k) :
    ((retrainBackoffExpiry l s).lane l).retrainAt = none ∧ waited s (retrainBackoffExpiry l s) k ∧
    ((s.lane l).state = .down → ((retrainBackoffExpiry l s).lane l).state = .signalWait) := by
  unfold retrainBackoffExpiry
  rw [show (s.fl.lanes.get l).retrainAt = some k from h]
  dsimp only
  rw [lane_modLane_same]
  refine ⟨rfl, advanceTo_waited k s, fun hdown => if_pos ?_⟩
  rw [lane_of_fl advanceTo_keeps_fl, hdown]

/-! ## Ports -/

theorem laneSet_takes (p m n : Nat) (s : State) :
    (frameDistance s n = 0 → ∀ x, x ∈ ((laneSet p m n s).port p).lanes ↔ x ∈ (s.port p).lanes ∧
      ∃ j, j < (portLanes s p).length ∧ m.testBit j ∧ (portLanes s p).getD j 0 = x) ∧
    (frameDistance s n ≠ 0 → ((laneSet p m n s).port p).laneNext.map (fun x => x.1) = some n ∧
      ((laneSet p m n s).port p).lanes = (s.port p).lanes) := by
  unfold laneSet
  extract_lets set
  refine ⟨fun h x => ?_, fun h => ?_⟩
  · rw [if_pos h, port_of_fl (placementTrigger_fl _), modPort_port]
    simp [set, and_assoc]
  · rw [if_neg h, modPort_port]
    exact ⟨rfl, rfl⟩

theorem laneSetApply_changes {p n : Nat} {set : List Nat} {s : State} (h : (s.port p).laneNext = some (n, set)) :
    ((laneSetApply p s).port p).laneNext = none ∧
    ((laneSetApply p s).port p).lanes = set.filter (fun x => (usableLanes s p).contains x) := by
  unfold laneSetApply
  rw [show (s.fl.ports.get p).laneNext = some (n, set) from h]
  dsimp -zeta only
  extract_lets s1 use
  have hfl : s1.fl = s.fl := advanceToAir_keeps_fl
  have hfault : s1.fault = s.fault := advanceToAir_keeps_fault
  have huse : use = set.filter (fun x => (usableLanes s p).contains x) := by
    unfold use usableLanes portLanes laneHeld
    rw [hfl, hfault]
  clear_value use s1
  have hfold (l : List Nat) (t : State) :
      (l.foldl (fun acc l => modLane l (fun y => { y with offered := false, qualLeft := 0 }) acc) t).port p = t.port p :=
    foldl_keeps (f := fun acc l => modLane l (fun y => { y with offered := false, qualLeft := 0 }) acc) (fun u => u.port p)
      (fun _ _ => rfl) l t
  rw [hfold, modPort_port]
  exact ⟨rfl, huse⟩

theorem portLanes_of_ports {s t : State} (h : t.fl.ports = s.fl.ports) (p : Nat) : portLanes t p = portLanes s p :=
  congrArg (fun b : Bank FlPort => configLanes p (b.get p).config) h

/-- Powering a port switches no lane off. -/
theorem powerPort_keeps_on {p l : Nat} {s : State} (h : (s.lane l).state ≠ .off) : ((powerPort p s).lane l).state ≠ .off := by
  unfold powerPort
  split
  · exact h
  · generalize portLanes s p = m
    clear * - h
    induction m generalizing s with
    | nil => exact h
    | cons k m ih =>
      refine ih ?_
      by_cases hk : l = k
      · subst hk
        rw [lane_modLane_same, if_neg h]
        exact h
      · rw [lane_modLane_other _ _ hk]
        exact h

/-- Once every port of a list is powered, none of their lanes is OFF. -/
theorem powerPorts_on {m : List Nat} {p l : Nat} {s : State} (hrole : s.sys.role ≠ .unset) (hp : p ∈ m) (hl : l ∈ portLanes s p) :
    ((m.foldl (fun acc q => powerPort q acc) s).lane l).state ≠ .off := by
  have hkeep (m : List Nat) (t : State) (h : (t.lane l).state ≠ .off) :
      ((m.foldl (fun acc q => powerPort q acc) t).lane l).state ≠ .off := by
    induction m generalizing t with
    | nil => exact h
    | cons k m ih => exact ih _ (powerPort_keeps_on h)
  induction m generalizing s with
  | nil => exact absurd hp List.not_mem_nil
  | cons k m ih =>
    obtain rfl | hm := List.mem_cons.mp hp
    · exact hkeep m _ (powerPort_on hrole hl)
    · refine ih ?_ hm ?_
      · rw [show (powerPort k s).sys = s.sys from powerPort_only (Only.refl 4096 s) rfl .sys rfl]
        exact hrole
      · rw [portLanes_of_ports (powerPort_ports k s).1]
        exact hl

theorem portTrainingStart_powers {s : State} (hrole : s.sys.role ≠ .unset) (p : Nat) :
    waited s (portTrainingStart s) (s.sys.lastReset + tcOfMs 5) ∧
    (p < 12 → ((s.port p).config.function = .up ∨ (s.port p).config.function = .ring) →
      ∀ x ∈ portLanes s p, ((portTrainingStart s).lane x).state ≠ .off) := by
  unfold portTrainingStart
  have hwait : waited s (advanceTo (s.sys.lastReset + tcOfMs 5) s) (s.sys.lastReset + tcOfMs 5) := advanceTo_waited ..
  have hfl : (advanceTo (s.sys.lastReset + tcOfMs 5) s).fl = s.fl := advanceTo_keeps_fl
  have hsys : (advanceTo (s.sys.lastReset + tcOfMs 5) s).sys = s.sys := advanceTo_keeps_sys
  generalize advanceTo (s.sys.lastReset + tcOfMs 5) s = s1 at hwait hfl hsys
  refine ⟨?_, fun hp hfunction x hx => ?_⟩
  · rw [waited, show ∀ m : List Nat, (m.foldl (fun acc q => powerPort q acc) s1).air = s1.air from fun m =>
      foldl_keeps (f := fun acc q => powerPort q acc) (fun u => u.air) (fun u _ => powerPort_only (Only.refl 4096 u) rfl .air rfl) m s1]
    exact hwait
  · refine powerPorts_on (p := p) (by rw [hsys]; exact hrole) ?_ ?_
    · refine List.mem_filter.mpr ⟨List.mem_range.mpr hp, ?_⟩
      rw [Bool.or_eq_true, beq_iff_eq, beq_iff_eq]
      exact hfunction
    · rw [portLanes_of_ports (congrArg FlState.ports hfl)]
      exact hx

/-! ## HELLO and time transfer -/

theorem modLanes_ports (f : Lane → Lane) (m : List Nat) (s : State) : (m.foldl (fun acc l => modLane l f acc) s).fl.ports = s.fl.ports :=
  foldl_keeps (f := fun acc l => modLane l f acc) (fun u => u.fl.ports) (fun _ _ => rfl) m s

theorem port_of_ports {s t : State} (h : t.fl.ports = s.fl.ports) (p : Nat) : t.port p = s.port p :=
  congrArg (fun b : Bank FlPort => b.get p) h

theorem port_modFl (f : FlState → FlState) (s : State) (p : Nat) (hf : ∀ x : FlState, (f x).ports = x.ports := by exact fun _ => rfl) :
    (s.modFl f).port p = s.port p :=
  congrArg (fun b : Bank FlPort => b.get p) (hf s.fl)

theorem hello_mismatches {p : Nat} {h : Hello} {s : State} (htrained : portTrained s p = true) (hflock : s.fl.config.flockId ≠ some h.flockId) :
    ((hello p h s).port p).mismatch = true ∧ ((hello p h s).port p).mismatches = (s.port p).mismatches + 1 := by
  unfold hello
  rw [if_neg (by rw [htrained]; decide), if_pos hflock]
  extract_lets was
  obtain ⟨-, -, -, hmismatch, hcount⟩ := frame_fields ((Downed.reviewPort p was ((portLanes s p).foldl (fun acc l => modLane l (fun y =>
    if y.state = .up ∨ y.state = .training then { y with state := .aligning, since := now s } else y) acc)
    (modPort p (fun x => { x with mismatch := true, mismatches := x.mismatches + 1, lanes := [] }) s))).port p)
  rw [hmismatch, hcount, port_of_ports (modLanes_ports ..)]
  have hport := modPort_port p (fun x => { x with mismatch := true, mismatches := x.mismatches + 1, lanes := [] }) s
  exact ⟨congrArg FlPort.mismatch hport, congrArg FlPort.mismatches hport⟩

theorem displace_sent (p : Nat) (h : Hello) (s : State) : Sent s (displace p h s) := by
  unfold displace
  split
  · split
    · split
      · exact .enqueue ..
      · exact .refl s
    · exact .refl s
  · exact .refl s

theorem hello_meets {p : Nat} {h : Hello} {s : State} (htrained : portTrained s p = true) (hflock : s.fl.config.flockId = some h.flockId) :
    ((hello p h s).port p).mismatch = false ∧ ((hello p h s).port p).peer = some h := by
  unfold hello
  rw [if_neg (by rw [htrained]; decide), if_neg (not_not_intro hflock)]
  extract_lets s1 s2 s3
  have h1 : s1.port p = { s.port p with mismatch := false, peer := some h } := by
    have hports : s1.fl.ports = _ := modLanes_ports ..
    exact (port_of_ports hports p).trans (modPort_port p (fun x => { x with mismatch := false, peer := some h }) s)
  clear_value s1
  have h2 : s2.port p = s1.port p := by
    unfold s2
    split
    · split
      · exact port_modFl _ s1 p
      · rfl
    · rfl
  clear_value s2
  have h3 : Rerouted s2 s3 := by
    refine Rerouted.trans ?_ (.of_sent (displace_sent p h _))
    split
    · exact .losePrimary s2
    · split
      · exact .losePrimary s2
      · exact .refl s2
  clear_value s3
  obtain ⟨-, -, -, hpeer, hmismatch, -⟩ := settled_fields ((h3.trans (.choosePath s3)).port p)
  rw [hpeer, hmismatch, h2, h1]
  exact ⟨rfl, rfl⟩

theorem ttReq_answers {p k : Nat} {s : State} (hup : portUp s p = true) (hroom : (s.port p).queue.length < 256) :
    ∃ x, nowSixteenths s ≤ x ∧ ((ttReq p k s).port p).queue =
      (s.port p).queue ++ [⟨{ ownHead s with ttl := 1 }, .ttResp (nowSixteenths s) x⟩] := by
  unfold ttReq
  rw [if_pos hup]
  extract_lets d t2
  have hport : d.2.port p = s.port p := rfl
  have hhead : ownHead d.2 = ownHead s := rfl
  clear_value d
  refine ⟨t2 + Config.freeNat d.1, Nat.le_add_right .., ?_⟩
  rw [sendLink, enqueue_of_room _ (by rw [hport]; exact hroom), modPort_port, hport, hhead]

/-- What a port keeps of its time exchange. -/
def FlPort.exchange (x : FlPort) : Option Nat × Nat × Nat := (x.t1, x.ttRun, x.ttLast)

theorem ttResp_exchange {p k n m l : Nat} {q : Int} {s : State} (hup : portUp s p = true) (ht1 : (s.port p).t1 = some k) :
    ((ttResp p n m l q s).port p).exchange = if (nowSixteenths s : Int) - k < 2 * tcPerMs * 16
      then (none, (s.port p).ttRun + 1, s.now) else (none, 0, (s.port p).ttLast) := by
  unfold ttResp
  extract_lets x t4 s1 asym signed back
  rw [show x.t1 = some k from ht1]
  dsimp -zeta only
  extract_lets there d o s2
  have h1 : s1.port p = { x with t1 := none } := modPort_port ..
  clear_value s1
  by_cases hlate : (t4 : Int) - k < 2 * tcPerMs * 16
  · rw [if_pos ⟨hup, hlate⟩, if_pos hlate]
    have hfl (u v : Int) (y : Nat) (t : State) : (flockExchange p u y v t).fl = t.fl := flockExchange_only (Only.refl 1 t) rfl .fl rfl
    rw [port_of_fl (hfl _ _ _ s2), show s2.port p = _ from modPort_port .., h1]
    rfl
  · rw [if_neg fun hc => hlate hc.2, if_neg hlate, modPort_port, h1]
    rfl

theorem ttResp_measures {p k n m l : Nat} {q : Int} {s : State} (hup : portUp s p = true) (ht1 : (s.port p).t1 = some k) :
    ((ttResp p n m l q s).port p).t1 = none ∧
    ((nowSixteenths s : Int) - k < 2 * tcPerMs * 16 →
      ((ttResp p n m l q s).port p).ttRun = (s.port p).ttRun + 1 ∧ ((ttResp p n m l q s).port p).ttLast = s.now) ∧
    (2 * tcPerMs * 16 ≤ (nowSixteenths s : Int) - k → ((ttResp p n m l q s).port p).ttRun = 0) := by
  have hport := ttResp_exchange (n := n) (m := m) (l := l) (q := q) hup ht1
  by_cases hin : (nowSixteenths s : Int) - k < 2 * tcPerMs * 16
  · rw [if_pos hin] at hport
    obtain ⟨ht, hrest⟩ := Prod.mk.inj hport
    exact ⟨ht, fun _ => Prod.mk.inj hrest, fun hlate => absurd hin (not_lt.mpr hlate)⟩
  · rw [if_neg hin] at hport
    obtain ⟨ht, hrest⟩ := Prod.mk.inj hport
    exact ⟨ht, fun h => absurd h hin, fun _ => (Prod.mk.inj hrest).1⟩

/-- Settles O38: each clause is the row's effect on its lane or its port. -/
theorem lanesTrainServeAndFail : Obligations.LanesTrainServeAndFail := by
  unfold Obligations.LanesTrainServeAndFail
  intro s l p k n m b w h set q
  refine ⟨fun hstate hwait => ?_, fun hstate => ?_, fun hstate => ⟨?_, fun hpeer hnow => ?_⟩, fun hstate hloss => ?_, fun hretrain => ?_,
    fun hrun => ?_, fun hstate hwas hqual hoffer hheld hport => ?_, ?_, fun hnext => ?_, fun hrole => ?_, fun htrained => ?_, ?_,
    fun htrained => ?_, fun hup hroom => ?_, fun hup ht1 => ?_⟩
  · exact runs_of_only (t := signalDetect l s) rfl execSignalDetect_only (by decide) (signalDetect_trains hstate hwait)
  · exact congrArg Host.Outcome.next (if_neg fun hc => hstate hc.1)
  · exact runs_of_only (t := laneTrainTimeout l s) rfl execLaneTrainTimeout_only (by decide) (laneTrainTimeout_waits hstate)
  · obtain ⟨hup, hwait, hpre, hend, hqual⟩ := laneUp_serves (b := b) hstate hpeer hnow
    exact runs_of_only (t := laneUp l b s) rfl execLaneUp_only (by decide) ⟨hup, hwait, hpre, Bool.eq_false_iff.mp hend, hqual⟩
  · exact runs_of_only (t := laneDown l w s) rfl execLaneDown_only (by decide) (laneDown_waits hstate hloss)
  · exact runs_of_only (t := retrainBackoffExpiry l s) rfl execRetrainBackoffExpiry_only (by decide) (retrainBackoffExpiry_ends hretrain)
  · refine runs_of_only (t := laneSerWarn l s) rfl execLaneSerWarn_only (by decide) ?_
    unfold laneSerWarn
    extract_lets x
    rw [if_pos hrun, lane_of_fl postNotice_keeps_fl, lane_modLane_same]
  · refine runs_of_only (t := laneQualComplete l s) rfl execLaneQualComplete_only (by decide) ?_
    unfold laneQualComplete
    extract_lets x
    rw [if_pos ⟨hstate, hwas, hqual, Bool.eq_false_iff.mpr hoffer, Bool.eq_false_iff.mpr hheld,
      Bool.eq_false_iff.mpr fun hc => hport (List.contains_iff_mem.mp hc)⟩, lane_of_fl (placementTrigger_fl _),
      show ∀ u, (placementTrigger u).fault = u.fault from fun u => placementTrigger_only (Only.refl 8192 u) rfl .fault rfl]
    refine ⟨?_, fun hc => ?_⟩
    · exact congrArg Lane.offered (lane_modLane_same l (fun y => { y with offered := true }) s)
    · exact bne_iff_ne.mp (List.mem_filter.mp hc).2 rfl
  · exact runs_of_only (t := laneSet p m n s) rfl execLaneSet_only (by decide) (laneSet_takes p m n s)
  · exact runs_of_only (t := laneSetApply p s) rfl execLaneSetApply_only (by decide) (laneSetApply_changes hnext)
  · exact runs_of_only (t := portTrainingStart s) rfl execPortTrainingStart_only (by decide) (portTrainingStart_powers hrole p)
  · refine runs_of_only (t := flitReceive p { good := false, content := .idle } s) rfl execFlitReceive_only (by decide) ?_
    unfold flitReceive
    rw [if_neg (by rw [htrained]; decide), if_pos rfl]
    exact congrArg FlPort.flitsLost (modPort_port ..)
  · refine congrArg Host.Outcome.next ?_
    unfold flitReceive
    split
    · rfl
    · exact if_neg (by decide)
  · refine runs_of_only (t := hello p h s) rfl execHello_only (by decide) ⟨hello_mismatches htrained, fun hflock => ?_⟩
    exact ⟨Bool.eq_false_iff.mp (hello_meets htrained hflock).1, (hello_meets htrained hflock).2⟩
  · exact runs_of_only (t := ttReq p k s) rfl execTtReq_only (by decide) (ttReq_answers hup hroom)
  · exact runs_of_only (t := ttResp p n m l q s) rfl execTtResp_only (by decide) (ttResp_measures hup ht1)

end Sys2Proof.Machine
end

section
set_option Elab.async false
/-! Membership of the flock: joining, admission, leaving and loss (R275–R283, R311). -/

namespace Sys2Proof.Machine

open Sys2Proof

/-! ## Joining (R277, R280) -/

theorem pass_lock (a : AirState) (dt : Nat) : (a.pass dt).lock = a.lock ∧ (a.pass dt).source = a.source := ⟨rfl, rfl⟩

theorem arrived_lock (i : AirInstant) (past kept : Int) (b : AirState) :
    (b.arrived i past kept).lock = b.lock ∧ (b.arrived i past kept).source = b.source := ⟨rfl, rfl⟩

theorem advanceToAir_lock (i : AirInstant) (s : State) :
    (advanceToAir i s).air.lock = s.air.lock ∧ (advanceToAir i s).air.source = s.air.source := by
  change (s.air.passTo i).lock = _ ∧ (s.air.passTo i).source = _
  by_cases h : airAhead s.air i = 0
  · rw [passTo_here h]
    exact ⟨rfl, rfl⟩
  · obtain ⟨past, kept, hpass⟩ := passTo_ahead h
    rw [hpass, (arrived_lock ..).1, (arrived_lock ..).2, (pass_lock ..).1, (pass_lock ..).2]
    exact ⟨rfl, rfl⟩

theorem mayJoin_advanceToAir (i : AirInstant) (s : State) : mayJoin (advanceToAir i s) = mayJoin s := by
  unfold mayJoin
  rw [advanceToAir_keeps_sys, advanceToAir_keeps_fl, (advanceToAir_lock i s).1, (advanceToAir_lock i s).2]

theorem primary_of_mayJoin {s : State} (h : mayJoin s = true) : s.fl.primary.isSome = true := by
  simp only [mayJoin, Bool.and_eq_true] at h
  exact h.1.1.1.2

theorem sendJoin_sends {s : State} (h : mayJoin s = true) : (sendJoin s).fl.state = .joinWait ∧ (sendJoin s).fl.sentAt = s.air.frame ∧
    (sendJoin s).fl.attempts = s.fl.attempts + 1 := by
  obtain ⟨p, hp⟩ := Option.isSome_iff_exists.mp (primary_of_mayJoin h)
  unfold sendJoin
  rw [hp]
  exact ⟨rfl, rfl, congrArg (· + 1) (books_fields (Sent.enqueue p ⟨{ src := none, up := true }, .joinReq (ownRequest s)⟩ s).books).2.2.2.2.1⟩

/-- The request is sent again once an instant has come. -/
theorem sendJoin_later {i : AirInstant} {s : State} (h : mayJoin s = true) : (sendJoin (advanceToAir i s)).fl.state = .joinWait ∧
    (sendJoin (advanceToAir i s)).fl.attempts = s.fl.attempts + 1 := by
  obtain ⟨hstate, -, hcount⟩ := sendJoin_sends ((mayJoin_advanceToAir i s).trans h)
  rw [hcount, advanceToAir_keeps_fl]
  exact ⟨hstate, rfl⟩

theorem completeJoins_fl (st : Status) (s : State) : (completeJoins st s).fl = { s.fl with joinTickets := [] } := by
  unfold completeJoins
  exact foldl_keeps (f := fun acc t => complete t st 0 acc) (fun u => u.fl)
    (fun u t => complete_only (Only.refl 2 u) rfl .fl rfl) _ (s.modFl (fun f => { f with joinTickets := [] }))

theorem ownResponse_granted {a : JoinResp} {s : State} (hwait : s.fl.state = .joinWait) (h : a.result = 0) :
    (ownResponse a s).fl.grant = some (a.admitFrame, a.member.getD 0) ∧ (ownResponse a s).fl.state = .joinWait := by
  unfold ownResponse
  rw [if_neg (not_not_intro hwait), if_pos h]
  exact ⟨rfl, hwait⟩

theorem ownResponse_refused {a : JoinResp} {s : State} (hwait : s.fl.state = .joinWait) (h : a.result ≠ 0) :
    (ownResponse a s).fl.naks = s.fl.naks + 1 ∧ (ownResponse a s).fl.lastNak = a.result ∧
    (a.result < 4 ∨ s.fl.hardRun < 7 → (ownResponse a s).fl.state = .backoff ∧ (ownResponse a s).fl.backoffEnd = framesAhead s a.retryAfter) ∧
    (4 ≤ a.result → 7 ≤ s.fl.hardRun → (ownResponse a s).fl.state = .refused) := by
  have hrun (n : Nat) : n = (if decide (4 ≤ a.result) = true then s.fl.hardRun + 1 else 0) →
      (8 ≤ n ↔ 4 ≤ a.result ∧ 7 ≤ s.fl.hardRun) := by
    rintro rfl
    split <;> simp_all
  unfold ownResponse
  rw [if_neg (not_not_intro hwait), if_neg h]
  extract_lets hard n s1
  have h1 : s1.fl = { s.fl with naks := s.fl.naks + 1, lastNak := a.result, hardRun := n } := rfl
  by_cases hn : 8 ≤ n
  · rw [if_pos hn, completeJoins_fl, postNotice_keeps_fl]
    exact ⟨rfl, rfl, fun hsoft => absurd ((hrun n rfl).mp hn) (by omega), fun _ _ => rfl⟩
  · rw [if_neg hn]
    exact ⟨rfl, rfl, fun _ => ⟨rfl, rfl⟩, fun hhard hlong => absurd ((hrun n rfl).mpr ⟨hhard, hlong⟩) hn⟩

/-! ## The hub's answer (R278, R279) -/

theorem refuse_counts (r : JoinReq) (reason port : Nat) (s : State) :
    (refuse r reason port s).fl.nakTotal = s.fl.nakTotal + 1 ∧ (refuse r reason port s).fl.members = s.fl.members := by
  have hraw (f : CtrlFrame) (t : State) : (enqueueRaw port f t).2.fl.nakTotal = t.fl.nakTotal := by
    unfold enqueueRaw
    extract_lets q d
    split <;> rfl
  refine ⟨?_, (books_fields (Sent.refuse r reason port s).books).2.2.1.2.2.2.1⟩
  unfold refuse
  extract_lets d
  have hd : d.2.fl = s.fl := drawRetry_only (Only.refl 262144 s) rfl .fl rfl
  exact congrArg (· + 1) ((hraw _ d.2).trans (congrArg FlState.nakTotal hd))

theorem grantJoin_grants (p : Nat) (r : JoinReq) (m : Nat) (s : State) :
    (grantJoin p r m s).fl.admitTotal = s.fl.admitTotal + 1 ∧
    ((grantJoin p r m s).fl.members.get m).map (fun y => (y.serial, y.state, y.admitAt)) = some (r.serial, .granted, framesAhead s 4) := by
  unfold grantJoin
  extract_lets f old x s1
  have hx : (x.serial, x.state, x.admitAt) = (r.serial, .granted, framesAhead s 4) := rfl
  have htotal1 : s1.fl.admitTotal = s.fl.admitTotal + 1 := rfl
  have hmembers1 : s1.fl.members.get m = some x := get_set_same ..
  clear_value s1 x
  obtain ⟨-, -, ⟨-, -, -, hmembers, -⟩, -, -, -, htotal⟩ := books_fields
    (Sent.enqueue p ⟨{ dest := m, src := some (ownMember s) }, .joinResp ⟨0, 0, some m, r.serial, f⟩⟩ s1).books
  rw [modDv_fl, hmembers, htotal, hmembers1, Option.map_some, hx]
  exact ⟨htotal1, rfl⟩

/-- The way back of a request is noted, and the ways that are over are forgotten. -/
def noteRoute (p : Nat) (r : JoinReq) (s : State) : State :=
  s.modFl (fun f => { f with routes := (r.serial, p, s.air.frame) ::
    (f.routes.filter (fun x => x.1 != r.serial && decide ((s.air.frame + 4294967296 - x.2.2) % 4294967296 ≤ 16))) })

theorem memberOf_noteRoute (p : Nat) (r : JoinReq) (s : State) (serial : BitVec 64) :
    memberOf (noteRoute p r s) serial = memberOf s serial := rfl

theorem isBlocked_noteRoute (p : Nat) (r : JoinReq) (s : State) (serial : BitVec 64) :
    isBlocked (noteRoute p r s) serial = isBlocked s serial := rfl

theorem idFree_noteRoute (p : Nat) (r : JoinReq) (s : State) (serial : BitVec 64) :
    idFree (noteRoute p r s) serial = idFree s serial := rfl

theorem assignId_noteRoute (p : Nat) (r q : JoinReq) (s : State) : assignId (noteRoute p r s) q = assignId s q := by
  unfold assignId
  rw [memberOf_noteRoute, idFree_noteRoute]

theorem hubRefusal_noteRoute (p : Nat) (r q : JoinReq) (s : State) : hubRefusal (noteRoute p r s) q = hubRefusal s q := by
  unfold hubRefusal
  rw [memberOf_noteRoute, isBlocked_noteRoute, assignId_noteRoute]

/-- A request that needs no check of its sender, on a part that is READY and has air time. -/
theorem joinReq_acquired {p : Nat} {h : FrameHeader} {q : JoinReq} {s : State} (hready : s.sys.ready = true) (httl : h.ttl ≠ 64)
    (hacquired : s.air.acquired = true) :
    (s.fl.config.admitLimit ≤ s.fl.admitNow → joinReq p h q s = refuse q 1 p (noteRoute p q s)) ∧
    (∀ m, s.fl.admitNow < s.fl.config.admitLimit → activeHub s → hubRefusal s q = none → assignId s q = some m →
      joinReq p h q s = grantJoin p q m (noteRoute p q s)) := by
  have heq : joinReq p h q s = if s.fl.config.admitLimit ≤ s.fl.admitNow then refuse q 1 p (noteRoute p q s)
      else if activeHub s then
        match hubRefusal (noteRoute p q s) q with
        | some reason => refuse q reason p (noteRoute p q s)
        | none =>
          (match assignId (noteRoute p q s) q with
           | some m => grantJoin p q m (noteRoute p q s)
           | none => refuse q 3 p (noteRoute p q s))
      else if 64 < q.hops then refuse q 4 p (noteRoute p q s)
      else if s.fl.state = .joined ∨ standbyHub s then forwardUp ⟨h, .joinReq q⟩ (countAdmit (noteRoute p q s))
      else noteRoute p q s := by
    unfold joinReq
    rw [if_neg (by rw [hready]; decide), if_neg httl]
    dsimp only
    rw [if_neg (by rw [hacquired]; decide)]
    rfl
  refine ⟨fun hfull => heq.trans (if_pos hfull), fun m hroom hhub hrefusal hid => ?_⟩
  rw [heq, if_neg (not_le.mpr hroom), if_pos hhub, hubRefusal_noteRoute, hrefusal, assignId_noteRoute, hid]

theorem joinReq_answers {p m : Nat} {h : FrameHeader} {q : JoinReq} {s : State} (hready : s.sys.ready = true) (httl : h.ttl ≠ 64)
    (hacquired : s.air.acquired = true) :
    (s.fl.config.admitLimit ≤ s.fl.admitNow → (joinReq p h q s).fl.nakTotal = s.fl.nakTotal + 1 ∧ (joinReq p h q s).fl.members = s.fl.members) ∧
    (s.fl.admitNow < s.fl.config.admitLimit → activeHub s → hubRefusal s q = none → assignId s q = some m →
      (joinReq p h q s).fl.admitTotal = s.fl.admitTotal + 1 ∧
      ((joinReq p h q s).fl.members.get m).map (fun y => (y.serial, y.state, y.admitAt)) = some (q.serial, .granted, framesAhead s 4)) := by
  obtain ⟨hrefuse, hgrant⟩ := joinReq_acquired (p := p) (q := q) hready httl hacquired
  refine ⟨fun hfull => ?_, fun hroom hhub hrefusal hid => ?_⟩
  · rw [hrefuse hfull]
    exact refuse_counts q 1 p (noteRoute p q s)
  · rw [hgrant m hroom hhub hrefusal hid]
    exact grantJoin_grants p q m (noteRoute p q s)

/-! ## Admission (R278) -/

theorem chooseAlternate_state (s : State) : (chooseAlternate s).fl.state = s.fl.state := by
  unfold chooseAlternate
  split
  · extract_lets a
    rfl
  · rfl

theorem choosePath_joined {s : State} (h : s.fl.state = .joined) : (choosePath s).fl.state = .joined := by
  unfold choosePath
  split
  · exact h
  · split
    · exact (chooseAlternate_state s).trans h
    · split
      · unfold takePrimary
        rw [h]
        exact (chooseAlternate_state _).trans h
      · exact h

theorem becomeJoined_joins (m : Nat) (s : State) : (becomeJoined m s).fl.state = .joined ∧ (becomeJoined m s).fl.memberId = some m ∧
    (becomeJoined m s).fl.members = s.fl.members := by
  unfold becomeJoined
  extract_lets again flows s1
  have h1 : s1.fl.state = .joined ∧ s1.fl.memberId = some m ∧ s1.fl.members = s.fl.members := ⟨rfl, rfl, rfl⟩
  clear_value s1
  rw [show ∀ u, (refreshGains u).fl = u.fl from fun u => refreshGains_only (Only.refl 452 u) rfl .fl rfl]
  have hjoins := completeJoins_fl .ok (s1.modDv (fun d => { d with ownBinds := [] }))
  rw [modDv_fl] at hjoins
  generalize completeJoins .ok (s1.modDv (fun d => { d with ownBinds := [] })) = s2 at hjoins
  have hstate : s2.fl.state = .joined := (congrArg FlState.state hjoins).trans h1.1
  have hpath := Rerouted.choosePath s2
  have hhello := Sent.sendHellos (choosePath s2)
  obtain ⟨⟨-, -, -, hid⟩, -, -, hmembers, -⟩ := tables_fields (hpath.trans (.of_sent hhello)).tables
  refine ⟨hhello.state.trans (choosePath_joined hstate), ?_, ?_⟩
  · rw [hid, hjoins]
    exact h1.2.1
  · rw [hmembers, hjoins]
    exact h1.2.2

/-- The member table after an admission frame. -/
theorem get_mapped_members {x y : MemberRec} {b : Bank (Option MemberRec)} {n : Nat} (g : Nat → MemberRec → MemberRec)
    (h : Bank.find b.cells n = some (some x)) (hy : g n x = y) :
    ({ b with cells := b.cells.map (fun p => (p.1, p.2.map (g p.1))) } : Bank (Option MemberRec)).get n = some y := by
  unfold Bank.get
  rw [map_find (fun k (o : Option MemberRec) => o.map (g k)), h]
  exact congrArg some hy

/-- The member table once the members granted for frame `f` are joined. -/
def FlState.admitted (f now : Nat) (x : FlState) : FlState :=
  { x with members := { x.members with
    cells := x.members.cells.map (fun p => (p.1, p.2.map (fun r =>
      if r.state = .granted ∧ r.admitAt = f then { r with state := .joined, lastSeen := now } else r))) } }

theorem joinAdmission_admits {n m f : Nat} {x : MemberRec} {s : State} (hdue : firstFrame s (admissionFrames s) = some f) :
    (Bank.find s.fl.members.cells n = some (some x) → x.state = .granted → x.admitAt = f →
      ((joinAdmission s).fl.members.get n).map (fun y => y.state) = some .joined) ∧
    (s.fl.grant = some (f, m) → s.fl.state = .joinWait → (joinAdmission s).fl.state = .joined ∧ (joinAdmission s).fl.memberId = some m) := by
  unfold joinAdmission
  rw [hdue]
  dsimp -zeta only
  extract_lets s1
  have h1 : s1.fl = s.fl.admitted f s.air.mono := congrArg (FlState.admitted f s.air.mono) advanceToAir_keeps_fl
  clear_value s1
  refine ⟨fun hfind hgranted hat => ?_, fun hgrant hwait => ?_⟩
  · have hget : (s1.fl.members.get n).map (fun y => y.state) = some .joined := by
      rw [h1]
      exact congrArg (Option.map fun y => y.state) (get_mapped_members (y := { x with state := .joined, lastSeen := s.air.mono })
        (fun _ r => if r.state = .granted ∧ r.admitAt = f then { r with state := .joined, lastSeen := s.air.mono } else r) hfind
        (if_pos ⟨hgranted, hat⟩))
    split
    · split
      · rw [(becomeJoined_joins _ s1).2.2]
        exact hget
      · exact hget
    · exact hget
  · rw [show s1.fl.grant = some (f, m) from (congrArg FlState.grant h1).trans hgrant]
    dsimp only
    rw [if_pos ⟨rfl, (congrArg FlState.state h1).trans hwait⟩]
    exact ⟨(becomeJoined_joins m s1).1, (becomeJoined_joins m s1).2.1⟩

/-! ## Leaving (R282) -/

theorem becomeLeft_left (why : LeaveCause) (s : State) : (becomeLeft why s).fl.memberId = none ∧ (becomeLeft why s).fl.leave = none ∧
    (why = .expelled → (becomeLeft why s).fl.state = .refused) := by
  unfold becomeLeft
  extract_lets s1 s2
  have h2 : s2.fl = s1.fl := rfl
  have h1 : s1.fl.memberId = none ∧ s1.fl.leave = none ∧ s1.fl.state = if why = .expelled then .refused else .detached := ⟨rfl, rfl, rfl⟩
  clear_value s2
  rw [← h2] at h1
  obtain ⟨hid, hleave, hstate⟩ := h1
  by_cases hend : why = .expelled ∨ why = .dormant
  · rw [if_pos hend]
    exact ⟨hid, hleave, fun h => hstate.trans (if_pos h)⟩
  · rw [if_neg hend]
    split
    · exact ⟨hid, hleave, fun h => absurd (Or.inl h) hend⟩
    · exact ⟨hid, hleave, fun h => absurd (Or.inl h) hend⟩

theorem leaveFrame_leaves {f : Nat} {why : LeaveCause} {s : State} (hdue : firstFrame s (leaveFrames s) = some f)
    (h : s.fl.leave = some (f, why)) : ∃ u, leaveFrame s = becomeLeft why u := by
  unfold leaveFrame
  rw [hdue]
  dsimp -zeta only
  extract_lets s1 s2
  have h1 : s1.fl.leave = some (f, why) := (congrArg FlState.leave advanceToAir_keeps_fl).trans h
  have h2 : s2.fl.leave = some (f, why) := by
    unfold s2
    rw [modFl_fl]
    exact h1
  refine ⟨s2, ?_⟩
  clear_value s2
  rw [h2]
  exact if_pos rfl

/-! ## Reports and losses (R281) -/

theorem hubStatus_fl (m : Nat) (r : StatusReport) (s : State) : (hubStatus m r s).fl = { s.fl with
    members := s.fl.members.mod m (fun o => o.map (fun y =>
      let z : MemberRec := { y with lastSeen := s.air.mono, power := r.power, hops := r.hops, parent := r.parent }
      if y.state = .heldLost then { z with byBell := true, holdEnd := s.air.mono + tcOfS s.fl.config.lostHold }
      else { z with byBell := false })) } := by
  unfold hubStatus
  extract_lets s1 s2 s3
  have h2 : s2.fl = s1.fl := by
    unfold s2
    split <;> rfl
  clear_value s2
  have h3 : s3.fl = s2.fl := takeGains_only (Only.refl 128 _) rfl .fl rfl
  clear_value s3
  rw [modNp_fl, h3, h2]
  rfl

theorem status_notes {p m : Nat} {h : FrameHeader} {st : StatusReport} {x : MemberRec} {s : State} (hsrc : h.src = some m) :
    (status p h st s).fl.below.get m = some (p, st.parent, s.now) ∧ (activeHub s → s.fl.members.get m = some x →
      ((status p h st s).fl.members.get m).map (fun y => (y.lastSeen, y.parent, y.hops)) = some (s.now, st.parent, st.hops)) := by
  unfold status
  rw [hsrc]
  dsimp -zeta only
  extract_lets s1
  have hbelow : s1.fl.below.get m = some (p, st.parent, s.now) := get_set_same ..
  have hmembers : s1.fl.members = s.fl.members := rfl
  have hair : s1.air = s.air := rfl
  clear_value s1
  by_cases hhub : activeHub s = true
  · rw [if_pos hhub, hubStatus_fl]
    refine ⟨hbelow, fun _ hx => ?_⟩
    dsimp only
    rw [get_mod_same, hmembers, hx, Option.map_some, hair]
    split <;> rfl
  · rw [if_neg hhub]
    refine ⟨?_, fun h => absurd h hhub⟩
    rw [(books_fields (Sent.forwardUp ⟨h, .status st⟩ s1).books).2.2.1.2.2.1]
    exact hbelow

/-- The flock's state when the hub has taken a loss. -/
theorem memberLost_fl (root count : Nat) (s : State) : (memberLost root count s).fl = { s.fl with
    lostCount := s.fl.lostCount + 1
    members := { s.fl.members with cells := s.fl.members.cells.map (fun p => (p.1, p.2.map (fun r =>
      if (r.state = .joined ∨ r.state = .granted) ∧ leadsTo (fun m => (s.fl.members.get m).map (·.parent)) root 64 p.1 then
        { r with state := .heldLost, holdEnd := s.air.mono + tcOfS s.fl.config.lostHold }
      else r))) } } :=
  raiseMoment_only (Only.refl 4 _) rfl .fl rfl

theorem leadsTo_self (parent : Nat → Option Nat) (root n : Nat) : leadsTo parent root n root = true := by
  cases n <;> simp [leadsTo]

theorem memberLost_holds {m k : Nat} {x : MemberRec} {s : State} (hfind : Bank.find s.fl.members.cells m = some (some x))
    (hjoined : x.state = .joined) : ((memberLost m k s).fl.members.get m).map (fun y => y.state) = some .heldLost := by
  rw [memberLost_fl]
  exact congrArg (Option.map fun y => y.state) (get_mapped_members (y := { x with
      state := .heldLost, holdEnd := s.air.mono + tcOfS s.fl.config.lostHold })
    (fun n r => if (r.state = .joined ∨ r.state = .granted) ∧ leadsTo (fun m => (s.fl.members.get m).map (·.parent)) m 64 n then
      { r with state := .heldLost, holdEnd := s.air.mono + tcOfS s.fl.config.lostHold } else r) hfind
    (if_pos ⟨Or.inl hjoined, leadsTo_self ..⟩))

theorem mem_of_find {α : Type} {l : List (Nat × α)} {k : Nat} {x : α} (h : Bank.find l k = some x) : (k, x) ∈ l := by
  induction l with
  | nil => exact absurd h (Option.some_ne_none x).symm
  | cons p l ih =>
    obtain ⟨j, y⟩ := p
    unfold Bank.find at h
    split at h
    next hj =>
      rw [← hj, Option.some.inj h]
      exact List.mem_cons_self
    next => exact List.mem_cons_of_mem _ (ih h)

theorem subtree_root {m : Nat} {v : Nat × Nat × Nat} {s : State} (h : Bank.find s.fl.below.cells m = some (some v)) : m ∈ subtree s m :=
  List.mem_filter.mpr ⟨List.mem_filterMap.mpr ⟨(m, some v), mem_of_find h, rfl⟩, leadsTo_self ..⟩

theorem memberTimeout_forgets {p m k : Nat} {s : State} (h : Bank.find s.fl.below.cells m = some (some (p, ownMember s, k))) :
    waited s (memberTimeout m s) (childDeadline s p k) ∧ (memberTimeout m s).fl.below.get m = none := by
  have hget : s.fl.below.get m = some (p, ownMember s, k) := by rw [Bank.get, h]; rfl
  unfold memberTimeout
  rw [hget]
  dsimp -zeta only
  rw [if_pos rfl]
  extract_lets s1 l s2
  have hwait : waited s s1 (childDeadline s p k) := advanceTo_waited ..
  have hmem : m ∈ l := subtree_root (by rw [show s1.fl = s.fl from advanceTo_keeps_fl]; exact h)
  have h2 : s2.air = s1.air := modFl_air ..
  have hbelow2 : s2.fl.below.get m = none := modAll_get_mem (fun o => o) (fun _ _ => rfl) s1.fl.below hmem
  clear_value s1 s2 l
  split
  · rw [waited, memberLost_only (Only.refl 12292 s2) rfl .air rfl, h2, memberLost_fl]
    exact ⟨hwait, hbelow2⟩
  · rw [waited, sendUp_only (Only.refl 266240 s2) rfl .air rfl, h2,
      (books_fields (Sent.sendUp (.lost m l.length) s2).books).2.2.1.2.2.1]
    exact ⟨hwait, hbelow2⟩

/-! ## Another path (R283) -/

theorem takePrimary_primary (p : Nat) (s : State) : (takePrimary p s).fl.primary = some p := by
  unfold takePrimary
  extract_lets s1
  have h1 : s1.fl.primary = some p := by
    unfold s1 chooseAlternate
    split
    · extract_lets a
      rfl
    · rfl
  clear_value s1
  split
  · rw [(Sent.sendHellos _).primary, (Sent.sendRehome _).primary]
    exact h1
  · split
    · exact h1
    · exact h1
  · exact h1

/-- A port whose peer advertises no hops is not eligible. -/
theorem not_eligible_of_peerHops {s : State} {p : Nat} (h : peerHops s p = none) : eligible s p = false := by
  unfold eligible
  rw [h, Bool.and_false, Bool.false_and]

theorem bestPort_eligible {s : State} {l : List Nat} {p : Nat} (h : bestPort s l = some p) : eligible s p = true := by
  have hfold (m : List Nat) (o : Option Nat) (ho : ∀ q, o = some q → eligible s q = true) (hm : ∀ q ∈ m, eligible s q = true) (q : Nat)
      (hq : m.foldl (fun best p => match best with
        | none => some p
        | some b => if portRank s p < portRank s b then some p else some b) o = some q) : eligible s q = true := by
    induction m generalizing o with
    | nil => exact ho q hq
    | cons k m ih =>
      refine ih _ (fun r hr => ?_) (fun r hr => hm r (List.mem_cons_of_mem _ hr)) hq
      dsimp only at hr
      split at hr
      · exact Option.some.inj hr ▸ hm k List.mem_cons_self
      · split at hr
        · exact Option.some.inj hr ▸ hm k List.mem_cons_self
        · exact ho r hr
  exact hfold _ none (fun _ hq => absurd hq.symm (Option.some_ne_none _)) (fun q hq => (List.mem_filter.mp hq).2) p h

theorem choosePath_avoids {s : State} {p : Nat} (hprimary : s.fl.primary ≠ some p) (h : eligible s p = false) :
    (choosePath s).fl.primary ≠ some p := by
  unfold choosePath
  split
  · exact hprimary
  · split
    · unfold chooseAlternate
      split
      · extract_lets a
        exact hprimary
      · exact hprimary
    · split
      next q hq =>
        rw [takePrimary_primary]
        rintro hp
        rw [Option.some.inj hp] at hq
        exact absurd ((bestPort_eligible hq).symm.trans h) (by decide)
      next => exact hprimary

theorem eligible_of_sent {s t : State} (h : Rerouted s t) {p : Nat} (hhops : peerHops s p = none) : eligible t p = false :=
  not_eligible_of_peerHops ((congrArg (fun o : Option Hello => o.bind (·.hops)) (settled_fields (h.port p)).2.2.2.1).trans hhops)

/-- A path that is given up is not taken again while its peer advertises no hops. -/
theorem leavePrimary_avoids {s : State} {p : Nat} (hold : s.fl.primary = some p) (hhops : peerHops s p = none) :
    (leavePrimary s).fl.primary ≠ some p := by
  unfold leavePrimary
  extract_lets old s1 s2
  have h1 : Rerouted s s1 := .modFl s
  have hprimary1 : s1.fl.primary = none := rfl
  have h2 : Rerouted s s2 := (h1.trans (.modFl s1)).trans (.of_sent (.sendBelow ..))
  have hprimary2 : s2.fl.primary = none := (Sent.sendBelow ..).primary
  clear_value s1 s2
  have hpath (t : State) (ht : Rerouted s t) (hnone : t.fl.primary = none) : (choosePath t).fl.primary ≠ some p :=
    choosePath_avoids (by rw [hnone]; exact (Option.some_ne_none p).symm) (eligible_of_sent ht hhops)
  have hleave : (match s.fl.alternate with
      | some a => if some a ≠ old ∧ eligible s2 a then takePrimary a s2 else choosePath s2
      | none => choosePath s2).fl.primary ≠ some p := by
    split
    · split
      next hne =>
        rw [takePrimary_primary, ← hold]
        exact hne.1
      next => exact hpath s2 h2 hprimary2
    · exact hpath s2 h2 hprimary2
  split
  · exact hleave
  · exact hleave
  · exact hpath _ (h1.trans (.modFl s1)) hprimary1
  · exact hpath _ (h1.trans (.modFl s1)) hprimary1
  · exact hpath _ (h1.trans (.modFl s1)) hprimary1
  · exact hpath s1 h1 hprimary1

theorem pathDown_leaves {p : Nat} {h : FrameHeader} {s : State} (hprimary : s.fl.primary = some p) (hsome : h.src.isSome = true)
    (hsrc : h.src = (s.port p).peer.bind (fun y => y.member)) : (pathDown p h s).fl.primary ≠ some p := by
  unfold pathDown
  rw [if_pos hprimary, if_pos ⟨hsome, hsrc⟩, losePrimary,
    show ∀ u, (followFlock u).fl = u.fl from fun u => followFlock_only (Only.refl 1 u) rfl .fl rfl]
  refine leavePrimary_avoids hprimary ?_
  have hport := modPort_port p (fun x => { x with peer := x.peer.map (fun y => { y with hops := none }) }) s
  refine (congrArg (fun x : FlPort => x.peer.bind (·.hops)) hport).trans ?_
  cases (s.port p).peer <;> rfl

theorem rehome_notes {p m n k : Nat} {h : FrameHeader} {x : MemberRec} {s : State} (hhub : activeHub s = true) :
    (rehome p h m n k s).fl.below.get m = some (p, n, s.now) ∧
    (s.fl.members.get m = some x → ((rehome p h m n k s).fl.members.get m).map (fun y => (y.parent, y.hops)) = some (n, k)) := by
  unfold rehome
  extract_lets s1
  have hbelow : s1.fl.below.get m = some (p, n, s.now) := get_set_same ..
  have hmembers : s1.fl.members = s.fl.members := rfl
  clear_value s1
  rw [if_pos hhub, modDv_fl, modFl_fl]
  refine ⟨hbelow, fun hx => ?_⟩
  dsimp only
  rw [get_mod_same, hmembers, hx]
  rfl

/-- Settles O39: each clause is the row's effect on the membership it names. -/
theorem membersJoinLeaveAndAreLost : Obligations.MembersJoinLeaveAndAreLost := by
  unfold Obligations.MembersJoinLeaveAndAreLost
  intro s p m n k f h q a x why st
  refine ⟨fun hmay hstate => ?_, fun hmay => ?_, fun hstate hgrant hmay => ?_, fun hstate hmay => ?_, fun hserial hwait => ?_,
    fun hready => ?_, fun hready httl hacquired => ?_, fun hdue => ?_, fun hhub hx => ?_, fun hdest hmember hrole => ⟨?_, ?_⟩,
    fun hdue => ?_, fun hsrc => ?_, fun hhub => ?_, fun hbelow => ?_, fun hx hheld => ?_, fun hprimary hsome hsrc => ?_,
    fun hhub => ?_, fun hstate => ?_⟩
  · refine runs_of_only (t := joinReqSend s) rfl execJoinReqSend_only (by decide) ?_
    unfold joinReqSend
    rw [if_pos ⟨hmay, hstate⟩]
    exact sendJoin_sends hmay
  · exact congrArg Host.Outcome.next (if_neg fun hc => hmay hc.1)
  · refine runs_of_only (t := joinRespTimeout s) rfl execJoinRespTimeout_only (by decide) ?_
    unfold joinRespTimeout
    rw [if_pos ⟨hstate, hgrant⟩]
    extract_lets s1
    rw [if_pos ((mayJoin_advanceToAir _ s).trans hmay)]
    exact sendJoin_later hmay
  · refine runs_of_only (t := backoffExpiry s) rfl execBackoffExpiry_only (by decide) ?_
    unfold backoffExpiry
    rw [if_pos hstate]
    extract_lets s1
    rw [if_pos ((mayJoin_advanceToAir _ s).trans hmay)]
    exact sendJoin_later hmay
  · refine runs_of_only (t := joinResp h a s) rfl (execJoinResp_only (x0 := p)) (by decide) ?_
    unfold joinResp
    rw [if_pos hserial]
    exact ⟨ownResponse_granted hwait, ownResponse_refused hwait⟩
  · exact congrArg Host.Outcome.next (if_pos (Bool.eq_false_iff.mpr hready))
  · exact runs_of_only (t := joinReq p h q s) rfl execJoinReq_only (by decide) (joinReq_answers hready httl hacquired)
  · exact runs_of_only (t := joinAdmission s) rfl execJoinAdmission_only (by decide) (joinAdmission_admits hdue)
  · refine runs_of_only (t := leave h m f k s) rfl (execLeave_only (x0 := p)) (by decide) ?_
    unfold leave
    rw [if_pos hhub, hx]
    dsimp -zeta only
    extract_lets g
    rw [(books_fields (Sent.sendTo m (.leaveAck m g k) _).books).2.2.1.2.2.2.1, modDv_fl, modFl_fl]
    exact get_set_same ..
  · refine runs_of_only (t := leaveAck h m f k s) rfl (execLeaveAck_only (x0 := p)) (by decide) ?_
    unfold leaveAck
    rw [if_pos ⟨hdest, hmember, hrole⟩]
    split
    next hleave => exact ⟨rfl, fun hnone => absurd (hnone.symm.trans hleave) (Option.some_ne_none _).symm⟩
    next => exact ⟨rfl, fun _ => rfl⟩
  · refine runs_of_only (t := expel h s) rfl (execExpel_only (x0 := p)) (by decide) ?_
    unfold expel startLeave
    rw [if_pos ⟨hdest, hmember, hrole⟩]
    obtain ⟨⟨-, -, -, hstate, -⟩, -, ⟨-, hleave, -⟩, -⟩ := books_fields (Sent.sendUp
      (.leave (ownMember s) (frameBoundaryAhead s 4) LeaveCause.expelled.code)
      (s.modFl (fun x => { x with state := .leaving, leave := some (frameBoundaryAhead s 4, .expelled) }))).books
    exact ⟨hstate, hleave⟩
  · refine runs_of_only (t := leaveFrame s) rfl execLeaveFrame_only (by decide) fun hleave => ?_
    obtain ⟨u, hu⟩ := leaveFrame_leaves hdue hleave
    rw [hu]
    exact becomeLeft_left why u
  · exact runs_of_only (t := status p h st s) rfl execStatus_only (by decide) (status_notes hsrc)
  · refine runs_of_only (t := lost h m k s) rfl (execLost_only (x0 := p)) (by decide) ?_
    unfold lost
    rw [if_pos hhub]
    exact ⟨congrArg FlState.lostCount (memberLost_fl m k s), memberLost_holds⟩
  · exact runs_of_only (t := memberTimeout m s) rfl execMemberTimeout_only (by decide) (memberTimeout_forgets hbelow)
  · refine runs_of_only (t := idHoldExpiry m s) rfl execIdHoldExpiry_only (by decide) ?_
    unfold idHoldExpiry
    rw [hx]
    dsimp only
    rw [if_pos hheld]
    exact ⟨get_set_same .., advanceTo_waited x.holdEnd s⟩
  · exact runs_of_only (t := pathDown p h s) rfl execPathDown_only (by decide) (pathDown_leaves hprimary hsome hsrc)
  · exact runs_of_only (t := rehome p h m n k s) rfl execRehome_only (by decide) (rehome_notes hhub)
  · refine runs_of_only (t := rehomeWaitExpiry s) rfl execRehomeWaitExpiry_only (by decide) ?_
    unfold rehomeWaitExpiry
    rw [if_pos hstate, modFl_fl, advanceToAir_keeps_fl]
    exact ⟨rfl, rfl⟩

end Sys2Proof.Machine
end

section
set_option Elab.async false
/-! The commands of Drover (R289–R312). -/

namespace Sys2Proof.Machine

open Sys2Proof

/-- The placement reads nothing of the host part. -/
theorem routeAll_modHost (h : HostState) (s : State) (dT : Nat) (shed : List (Nat × Nat)) :
    routeAll (s.modHost (fun _ => h)) dT shed = routeAll s dT shed := rfl

theorem descriptorBytes_modHost (h : HostState) (s : State) (f : Nat) : descriptorBytes (s.modHost (fun _ => h)) f = descriptorBytes s f := rfl

theorem atStart_modHost (n : Nat) (r : HostRequest) (s : State) : atStart n r s = s.modHost (fun _ => (atStart n r s).host) := rfl

theorem policyTarget_atStart (n : Nat) (r : HostRequest) (s : State) (p : List Byte) : policyTarget (atStart n r s) p = policyTarget s p := by
  rw [atStart_modHost]
  unfold policyTarget
  rw [show policySet (s.modHost (fun _ => (atStart n r s).host)) p = (policySet s p).modHost (fun _ => (atStart n r s).host) from rfl,
    routeAll_modHost]

theorem dvPolicy_does (r : HostRequest) (s : State) : Does 0x0B03 .dvPolicy r s [.dv] fun t => t.dv.auto = (r.u8 0 == 0) ∧
    t.dv.planLead = r.u8 1 ∧ t.dv.split = (r.u8 2 == 1) ∧ t.dv.fillLimit = r.u8 3 ∧ t.dv.margin = r.u32 8 ∧ t.dv.qualFrames = r.u32 16 ∧
    (policyTarget s r.payload = s.dv.targetTc → t.dv.dTFrame = s.dv.dTFrame ∧ answerBytes r t = le 4 s.dv.targetTc ++ le 4 0) ∧
    (policyTarget s r.payload ≠ s.dv.targetTc → t.dv.trigger ∧ t.dv.dTFrame.map (fun x => x.2) = some (policyTarget s r.payload)) := by
  refine does_of_only rfl rfl specDvPolicy_only (by decide) (fun s q => ?_) fun h => ?_
  · simp only [specDvPolicy]
    split <;> exact ⟨rfl, rfl⟩
  have heffect : specDvPolicy.effect (atStart 0x0B03 r s) (reqOf 0x0B03 r) = if policyTarget s r.payload = s.dv.targetTc then
      (policySet (atStart 0x0B03 r s) r.payload, { payload := le 4 (policyTarget s r.payload) ++ le 4 0 })
    else
      ((policySet (atStart 0x0B03 r s) r.payload).modDv (fun d => { d with
          dTFrame := some (if r.u32 12 = 0 then frameBoundaryAhead (atStart 0x0B03 r s) (r.u8 1) else r.u32 12, policyTarget s r.payload)
          trigger := true }),
        { payload := le 4 (policyTarget s r.payload) ++
            le 4 (if r.u32 12 = 0 then frameBoundaryAhead (atStart 0x0B03 r s) (r.u8 1) else r.u32 12) }) := by
    rw [← policyTarget_atStart 0x0B03 r s]
    rfl
  have hdv := submit_after h .dv rfl
  rw [show specDvPolicy.opcode = 0x0B03 from rfl, heffect] at hdv
  by_cases hsame : policyTarget s r.payload = s.dv.targetTc
  · rw [if_pos hsame] at hdv heffect
    rw [answerBytes_of_accepts (i := .dvPolicy r) rfl h (by
      rw [show specDvPolicy.opcode = 0x0B03 from rfl, heffect]
      exact ⟨rfl, rfl⟩), show specDvPolicy.opcode = 0x0B03 from rfl, heffect, hdv, hsame]
    exact ⟨rfl, rfl, rfl, rfl, rfl, rfl, fun _ => ⟨rfl, rfl⟩, fun hne => absurd rfl hne⟩
  · rw [if_neg hsame] at hdv
    rw [hdv]
    exact ⟨rfl, rfl, rfl, rfl, rfl, rfl, fun heq => absurd heq hsame, fun _ => ⟨rfl, rfl⟩⟩

/-! ## DV_FLOW_CONTROL -/

theorem refreshGains_pens (s : State) : (refreshGains s).fault.pens = s.fault.pens := by
  rw [← pens_others, refreshGains_others, pens_others]

theorem penned_of_mem {s : State} {u : UnitId} {r : PenReason} (h : (⟨u, r⟩ : Pen) ∈ s.fault.pens) : penned s u = true :=
  List.any_eq_true.mpr ⟨⟨u, r⟩, h, by simp⟩

theorem releaseFlow_pens (f : Nat) (s : State) :
    (releaseFlow f s).fault.pens = s.fault.pens.filter (fun p => !(p.unit == flowUnit f && p.reason == .host)) := by
  unfold releaseFlow
  extract_lets s1
  have h1 : s1.fault.pens = _ := rfl
  split
  · exact h1
  · exact h1

theorem dvFlowControl_does (r : HostRequest) (s : State) : Does 0x0B06 .dvFlowControl r s [.fault, .ce, .lg, .np, .dv] fun t =>
    (r.u8 4 = 0 → penned t (flowUnit (r.u32 0))) ∧
    (r.u8 4 = 1 → t.fault.pens = s.fault.pens.filter (fun y => !(y.unit == flowUnit (r.u32 0) && y.reason == .host))) ∧
    (r.u8 4 = 2 → r.u32 0 ∈ t.dv.pennedAll ∧ t.dv.trigger) ∧ (r.u8 4 = 3 → r.u32 0 ∉ t.dv.pennedAll ∧ t.dv.trigger) := by
  refine does_of_only rfl rfl specDvFlowControl_only (by decide) (fun s q => ?_) fun h => ?_
  · simp only [specDvFlowControl]
    split <;> exact ⟨rfl, rfl⟩
  have hdv := submit_after h .dv rfl
  have hfault := submit_after h .fault rfl
  have heffect : specDvFlowControl.effect (atStart 0x0B06 r s) (reqOf 0x0B06 r) = (match r.u8 4 with
    | 0 => (refreshGains (penFlow (r.u32 0) (atStart 0x0B06 r s)), {})
    | 1 => (refreshGains (releaseFlow (r.u32 0) (atStart 0x0B06 r s)), {})
    | 2 => ((atStart 0x0B06 r s).modDv (fun d => { d with pennedAll := without d.pennedAll (r.u32 0) ++ [r.u32 0], trigger := true }), {})
    | _ => ((atStart 0x0B06 r s).modDv (fun d => { d with pennedAll := without d.pennedAll (r.u32 0), trigger := true }), {})) := rfl
  refine ⟨fun h0 => ?_, fun h1 => ?_, fun h2 => ?_, fun h3 => ?_⟩
  · rw [h0] at heffect
    have hafter : (submit specDvFlowControl r s).fault = (refreshGains (penFlow (r.u32 0) (atStart 0x0B06 r s))).fault :=
      hfault.trans (congrArg (fun x => x.1.fault) heffect)
    refine penned_of_mem (r := .host) ?_
    rw [hafter, refreshGains_pens]
    exact List.mem_append_right _ (List.mem_singleton_self _)
  · rw [h1] at heffect
    have hafter : (submit specDvFlowControl r s).fault = (refreshGains (releaseFlow (r.u32 0) (atStart 0x0B06 r s))).fault :=
      hfault.trans (congrArg (fun x => x.1.fault) heffect)
    rw [hafter, refreshGains_pens, releaseFlow_pens]
    rfl
  · rw [h2] at heffect
    rw [hdv.trans (congrArg (fun x => x.1.dv) heffect)]
    exact ⟨List.mem_append_right _ (List.mem_singleton_self _), rfl⟩
  · rw [h3] at heffect
    rw [hdv.trans (congrArg (fun x => x.1.dv) heffect)]
    exact ⟨fun hm => bne_iff_ne.mp (List.mem_filter.mp hm).2 rfl, rfl⟩

/-- Settles O40: each clause is the command's effect on Drover or on the flow it names. -/
theorem droverCommandsComplete : Obligations.DroverCommandsComplete := by
  unfold Obligations.DroverCommandsComplete
  intro r s
  refine ⟨?_, ?_, dvPolicy_does r s, ?_, ?_, dvFlowControl_does r s⟩
  · refine does_of_only rfl rfl specDvIntentSet_only (by decide) (fun _ _ => ⟨rfl, rfl⟩) fun h => ⟨submit_after h .dv rfl, ?_⟩
    rw [answerBytes_of_accepts (i := .dvIntentSet r) rfl h ⟨rfl, rfl⟩]
    rfl
  · refine does_of_only rfl rfl specDvIntentClear_only (by decide) (fun _ _ => ⟨rfl, rfl⟩) fun h => ⟨submit_after h .dv rfl, ?_⟩
    rw [answerBytes_of_accepts (i := .dvIntentClear r) rfl h ⟨rfl, rfl⟩]
    rfl
  · refine does_of_only rfl rfl specDvReplace_only (by decide) (fun _ _ => ⟨rfl, rfl⟩) fun h => ⟨submit_after h .dv rfl, ?_⟩
    rw [answerBytes_of_accepts (i := .dvReplace r) rfl h ⟨rfl, rfl⟩]
    rfl
  · refine does_of_only rfl rfl specDvFlowQuery_only (by decide) (fun _ _ => ⟨rfl, rfl⟩) fun h => ⟨submit_after h .dv rfl, ?_⟩
    rw [answerBytes_of_accepts (i := .dvFlowQuery r) rfl h ⟨rfl, rfl⟩]
    exact (congrArg (fun t => descriptorBytes t (r.u32 0)) (atStart_modHost 0x0B05 r s)).trans (descriptorBytes_modHost _ s _)

end Sys2Proof.Machine
end

section
set_option Elab.async false
/-! Plans: issued, held, acknowledged, cancelled, applied and drained, and the deadlines of their flows (R295–R312). -/

namespace Sys2Proof.Machine

open Sys2Proof

/-! ## Descriptors -/

theorem desc_modDesc_same (f : Nat) (g : Descriptor → Descriptor) (s : State) : (modDesc f g s).desc f = g (s.desc f) := get_mod_same ..

theorem desc_modDesc_other {f n : Nat} (g : Descriptor → Descriptor) (s : State) (h : n ≠ f) : (modDesc f g s).desc n = s.desc n :=
  get_mod_other _ _ h

theorem desc_of_dv {s t : State} (h : t.dv = s.dv) (f : Nat) : t.desc f = s.desc f := congrArg (fun d : DvState => d.desc.get f) h

theorem modDesc_keeps {β : Type} (k : Descriptor → β) {f : Nat} {g : Descriptor → Descriptor} (s : State) (n : Nat)
    (hg : ∀ d, k (g d) = k d := by exact fun _ => rfl) : k ((modDesc f g s).desc n) = k (s.desc n) := by
  by_cases h : n = f
  · subst h
    rw [desc_modDesc_same, hg]
  · rw [desc_modDesc_other _ _ h]

/-- Drover beyond its descriptors. -/
def DvState.beyondDesc (d : DvState) : DvState := { d with desc := Bank.fill {} }

theorem beyondDesc_fields {d e : DvState} (h : e.beyondDesc = d.beyondDesc) : e.held = d.held ∧ e.drains = d.drains ∧
    e.targetTc = d.targetTc ∧ e.late = d.late := by
  simp only [DvState.beyondDesc, DvState.mk.injEq] at h
  tauto

theorem modDesc_beyondDesc (f : Nat) (g : Descriptor → Descriptor) (s : State) : (modDesc f g s).dv.beyondDesc = s.dv.beyondDesc := rfl

/-! ## The hub's plans (R303–R306) -/

theorem postEnds_dv (old new : List Endpoint) (s : State) : (postEnds old new s).dv = s.dv := postEnds_only (Only.refl 2 s) rfl .dv rfl

theorem nameLanes_dv (f : Nat) (s : State) : (nameLanes f s).dv = s.dv := nameLanes_only (Only.refl 266240 s) rfl .dv rfl

theorem issuePlan_issues (s : State) : (issuePlan s).dv.seq = s.dv.seq + 1 ∧ (issuePlan s).dv.trigger = false ∧
    (issuePlan s).dv.issued.length = s.dv.issued.length + 1 := by
  obtain ⟨plan, u, hu, hdv⟩ : ∃ plan u, (u.seq, u.trigger, u.issued) = (s.dv.seq + 1, false, s.dv.issued ++ [plan]) ∧
      (issuePlan s).dv = u := by
    unfold issuePlan
    extract_lets d f first dT w whole changes others plan s1 own s2
    refine ⟨plan, s2.dv, ?_, ?_⟩
    · rw [show s2.dv = _ from nameLanes_dv ..]
      rfl
    · rw [postEnds_dv]
      exact foldl_keeps (f := fun acc m => sendPlan plan m acc) (fun t => t.dv)
        (fun t m => sendPlan_only (Only.refl 266240 t) rfl .dv rfl) others s2
  obtain ⟨hseq, hrest⟩ := Prod.mk.inj hu
  obtain ⟨htrigger, hissued⟩ := Prod.mk.inj hrest
  rw [hdv, hissued, List.length_append]
  exact ⟨hseq, htrigger, rfl⟩

theorem placementCompute_issues {s : State} (hhub : activeHub s = true) (htrigger : s.dv.trigger = true) (hroom : s.dv.issued.length < 8) :
    (placementCompute s).dv.seq = s.dv.seq + 1 ∧ (placementCompute s).dv.trigger = false ∧
    (placementCompute s).dv.issued.length = s.dv.issued.length + 1 := by
  unfold placementCompute
  rw [if_pos ⟨hhub, htrigger, hroom⟩]
  have hdv : (if s.air.offset = 0 then s else advanceToAir ⟨framesAhead s 1, 0⟩ s).dv = s.dv := by
    split
    · rfl
    · exact advanceToAir_keeps_dv
  have h := issuePlan_issues (if s.air.offset = 0 then s else advanceToAir ⟨framesAhead s 1, 0⟩ s)
  rwa [hdv] at h

theorem fabricOverflow_keeps {β : Type} (k : DvState → β) (f : Nat) (s : State)
    (hk : ∀ d : DvState, ∀ n b, k { d with overflows := n, trigger := b } = k d := by exact fun _ _ _ => rfl) :
    k (fabricOverflow f s).dv = k s.dv := by
  unfold fabricOverflow
  split
  · rfl
  · unfold placementTrigger
    split
    · exact hk s.dv _ _
    · exact hk s.dv _ _

theorem held_holdPlan (p : HeldPlan) (s : State) :
    (holdPlan p s).dv.held.filter (fun z => z.seq == p.seq) = [p] := by
  have hnone : (s.dv.held.filter (fun x => x.seq != p.seq)).filter (fun z => z.seq == p.seq) = [] := by
    rw [List.filter_filter]
    exact List.filter_eq_nil_iff.mpr fun z _ => by simp
  change List.filter _ (s.dv.held.filter (fun x => x.seq != p.seq) ++ [p]) = _
  rw [List.filter_append, hnone, List.nil_append]
  exact List.filter_cons_of_pos (beq_self_eq_true _)

theorem finishPlan_holds (p : HeldPlan) (s : State) : (finishPlan p s).dv.held.filter (fun z => z.seq == p.seq) =
    [{ p with entries := (admitEntries s p.entries).1, final := true, status := (admitEntries s p.entries).2.1 }] := by
  unfold finishPlan
  extract_lets r s1 s2 s3
  have h1 : s1.dv.held.filter (fun z => z.seq == p.seq) = _ := held_holdPlan { p with entries := r.1, final := true, status := r.2.1 } s
  clear_value s1
  have h2 : s2.dv.held = s1.dv.held := by
    unfold s2
    split <;> rfl
  clear_value s2
  have h3 : s3.dv.held = s2.dv.held := by
    unfold s3
    split
    · exact fabricOverflow_keeps DvState.held _ s2
    · rfl
  clear_value s3
  rw [nameLanes_dv, show (sendUp (.planAck p.seq r.2.1) s3).dv = s3.dv from sendUp_only (Only.refl 266240 s3) rfl .dv rfl, h3, h2, h1]

/-- A PLAN for this part whose number is new. -/
theorem plan_gathers {h : FrameHeader} {n f k : Nat} {b : Bool} {l : List PlanEntry} {s : State} (hdest : h.dest = ownMember s)
    (hnew : s.dv.held.find? (fun z => z.seq == n) = none) :
    plan h n f k b l s = if b then finishPlan ⟨n, f, k, l, false, 0⟩ s else holdPlan ⟨n, f, k, l, false, 0⟩ s := by
  unfold plan
  rw [if_neg (not_not_intro hdest), hnew]

theorem planAck_ends {m n k : Nat} {h : FrameHeader} {s : State} (hhub : activeHub s = true) (hsrc : h.src = some m) :
    ∀ z ∈ (planAck h n k s).dv.issued, z.seq = n → m ∉ z.waiting := by
  have hissued : (planAck h n k s).dv.issued = s.dv.issued.map (fun p => if p.seq = n then { p with waiting := without p.waiting m } else p) := by
    unfold planAck
    rw [if_pos hhub, hsrc]
    dsimp -zeta only
    extract_lets entries s1 flows new
    have h1 : s1.dv.issued = s.dv.issued.map (fun p => if p.seq = n then { p with waiting := without p.waiting m } else p) := rfl
    clear_value s1
    split
    · rw [postEnds_dv]
      exact h1
    · split
      · split
        · exact (fabricOverflow_keeps DvState.issued _ s1).trans h1
        · exact h1
      · exact h1
  intro z hz hseq
  rw [hissued] at hz
  obtain ⟨p, -, rfl⟩ := List.mem_map.mp hz
  by_cases hp : p.seq = n
  · rw [if_pos hp]
    exact fun hm => bne_iff_ne.mp (List.mem_filter.mp hm).2 rfl
  · rw [if_neg hp] at hseq
    exact absurd hseq hp

theorem forwardBelow_dv (f : CtrlFrame) (s : State) : (forwardBelow f s).dv = s.dv := forwardBelow_only (Only.refl 266240 s) rfl .dv rfl

theorem planAckTimeout_cancels {y : IssuedPlan} {s : State} (h : s.dv.issued.find? (fun z => !z.waiting.isEmpty) = some y) :
    (planAckTimeout s).dv.trigger = true ∧ (planAckTimeout s).dv.issued = s.dv.issued.filter (fun z => decide (z.seq < y.seq)) ∧
    (planAckTimeout s).dv.held = s.dv.held.filter (fun z => decide (z.seq < y.seq)) := by
  unfold planAckTimeout
  rw [h]
  dsimp -zeta only
  extract_lets s1 s2
  have h1 : s1.dv = s.dv := advanceToAir_keeps_dv
  clear_value s1
  have hsend : (sendBelow (.planCancel y.seq) s1).dv = s.dv := (sendBelow_only (Only.refl 266240 s1) rfl .dv rfl).trans h1
  have h2 : s2.dv.issued = s.dv.issued ∧ s2.dv.held = s.dv.held.filter (fun z => decide (z.seq < y.seq)) := by
    unfold s2 dropPlans
    rw [modDv_dv, hsend]
    exact ⟨rfl, rfl⟩
  clear_value s2
  rw [modDv_dv]
  exact ⟨rfl, congrArg (List.filter _) h2.1, h2.2⟩

/-! ## The plan takes effect (R290, R307) -/

theorem descriptorLoad_caches {x : HeldPlan} {e : PlanEntry} {s : State} (hnext : nextPlan s = some x) (hmem : e ∈ x.entries)
    (hkind : (placementOf e).kind ≠ 0) : ((descriptorLoad s).desc (entryFlow e)).cached = true := by
  have hstep (t : State) (a : PlanEntry) (n : Nat) (h : (t.desc n).cached = true) :
      ((if (placementOf a).kind = 0 then t else modDesc (entryFlow a) (fun d => { d with cached := true }) t).desc n).cached = true := by
    split
    · exact h
    · by_cases hn : n = entryFlow a
      · subst hn
        rw [desc_modDesc_same]
      · rw [desc_modDesc_other _ _ hn]
        exact h
  have hkeep (l : List PlanEntry) (t : State) (n : Nat) (h : (t.desc n).cached = true) :
      ((l.foldl (fun acc a => if (placementOf a).kind = 0 then acc else modDesc (entryFlow a) (fun d => { d with cached := true }) acc) t).desc
        n).cached = true := by
    induction l generalizing t with
    | nil => exact h
    | cons a l ih => exact ih _ (hstep t a n h)
  have hload (l : List PlanEntry) (t : State) (h : e ∈ l) :
      ((l.foldl (fun acc a => if (placementOf a).kind = 0 then acc else modDesc (entryFlow a) (fun d => { d with cached := true }) acc) t).desc
        (entryFlow e)).cached = true := by
    induction l generalizing t with
    | nil => exact absurd h List.not_mem_nil
    | cons a l ih =>
      obtain rfl | hl := List.mem_cons.mp h
      · refine hkeep l _ _ ?_
        dsimp only
        rw [if_neg hkind, desc_modDesc_same]
      · exact ih _ hl
  unfold descriptorLoad
  rw [hnext]
  exact hload x.entries _ hmem

theorem penFlow_dv (f : Nat) (s : State) : (penFlow f s).dv = s.dv := rfl

/-- What the release of a flow leaves of Drover and of its descriptors. -/
theorem releaseFlow_desc (f : Nat) (s : State) : (releaseFlow f s).dv.beyondDesc = s.dv.beyondDesc ∧
    ∀ n, (((releaseFlow f s).desc n).place, ((releaseFlow f s).desc n).plan) = ((s.desc n).place, (s.desc n).plan) := by
  unfold releaseFlow
  extract_lets s1
  have h1 : s1.dv = s.dv := rfl
  clear_value s1
  split
  · refine ⟨?_, fun n => ?_⟩
    · rw [modDesc_beyondDesc, modFault_dv, h1]
    · rw [modDesc_keeps (fun d => (d.place, d.plan)), desc_of_dv (modFault_dv ..), desc_of_dv h1]
  · exact ⟨by rw [h1], fun n => by rw [desc_of_dv h1]⟩

/-- An entry takes effect on its own descriptor, and nothing else of Drover differs. -/
theorem applyEntry_places (seq : Nat) (again : Bool) (s : State) (e : PlanEntry) :
    (applyEntry seq again s e).dv.beyondDesc = s.dv.beyondDesc ∧
    (((applyEntry seq again s e).desc (entryFlow e)).place, ((applyEntry seq again s e).desc (entryFlow e)).plan) = (placementOf e, seq) := by
  unfold applyEntry
  extract_lets f old new fresh s1 s2 s3
  have h1 : s1.dv.beyondDesc = s.dv.beyondDesc ∧ ((s1.desc f).place, (s1.desc f).plan) = (new, seq) := by
    refine ⟨modDesc_beyondDesc .., ?_⟩
    unfold s1
    rw [desc_modDesc_same]
  clear_value s1
  have h2 : s2.dv.beyondDesc = s1.dv.beyondDesc ∧ ((s2.desc f).place, (s2.desc f).plan) = ((s1.desc f).place, (s1.desc f).plan) := by
    unfold s2
    split
    · rw [desc_of_dv (penFlow_dv f s1), penFlow_dv]
      exact ⟨rfl, rfl⟩
    · split
      · exact ⟨(releaseFlow_desc f s1).1, (releaseFlow_desc f s1).2 f⟩
      · exact ⟨rfl, rfl⟩
  clear_value s2
  have h3 : s3.dv = s2.dv := by
    unfold s3
    split <;> rfl
  clear_value s3
  have h : s3.dv.beyondDesc = s.dv.beyondDesc ∧ ((s3.desc f).place, (s3.desc f).plan) = (new, seq) := by
    rw [desc_of_dv h3, h3]
    exact ⟨h2.1.trans h1.1, h2.2.trans h1.2⟩
  split
  · have hband (t : State) (b : BandPath → BandPath) : (modBand .egress old.localBp b t).dv = t.dv := rfl
    rw [desc_of_dv (hband ..), hband]
    exact h
  · exact h

theorem planApply_applies {x : HeldPlan} {e : PlanEntry} {s : State} (hnext : nextPlan s = some x) :
    (planApply s).dv.lastSeq = x.seq ∧ (planApply s).dv.lastFrame = x.frame ∧ (planApply s).dv.held = s.dv.held.filter (fun z => z.seq != x.seq) ∧
    (planApply s).dv.drains = s.dv.drains ++ [(x.seq, ⟨x.frame, max x.dT s.dv.targetTc⟩)] ∧
    (x.entries = [e] → ((planApply s).desc (entryFlow e)).place = placementOf e ∧ ((planApply s).desc (entryFlow e)).plan = x.seq) := by
  unfold planApply
  rw [hnext]
  dsimp -zeta only
  extract_lets s1 s2 n
  have h1 : s1.dv = s.dv := advanceToAir_keeps_dv
  clear_value s1
  have h2 : s2.dv.beyondDesc = s1.dv.beyondDesc := foldl_keeps (fun t => t.dv.beyondDesc) (fun t a => (applyEntry_places x.seq _ t a).1) _ s1
  have hplace : x.entries = [e] → ((s2.desc (entryFlow e)).place, (s2.desc (entryFlow e)).plan) = (placementOf e, x.seq) := by
    intro hone
    unfold s2
    rw [hone]
    exact (applyEntry_places x.seq _ s1 e).2
  clear_value s2
  rw [h1] at h2
  obtain ⟨hheld, hdrains, htarget, -⟩ := beyondDesc_fields h2
  have hgains (t : State) : (refreshGains t).dv = t.dv := refreshGains_only (Only.refl 452 t) rfl .dv rfl
  rw [desc_of_dv (hgains _), hgains, modDv_dv]
  refine ⟨rfl, rfl, congrArg (List.filter _) hheld, ?_, fun hone => Prod.mk.inj (hplace hone)⟩
  dsimp only
  rw [hdrains, htarget]

/-- A descriptor when the drain of plan `n` ends. -/
def Descriptor.drained (n : Nat) (d : Descriptor) : Descriptor :=
  if d.plan = n then { d with
    old := none, cached := d.place.kind != 0, buffer := if d.place.kind = 0 then [] else d.buffer } else d

theorem planDrainEnd_releases {n f : Nat} {i : AirInstant} {ds : List (Nat × AirInstant)} {d : Descriptor} {s : State}
    (h : s.dv.drains = (n, i) :: ds) : (planDrainEnd s).dv.drains = ds ∧
    (Bank.find s.dv.desc.cells f = some d → d.plan = n → ((planDrainEnd s).desc f).old = none) := by
  unfold planDrainEnd
  rw [h]
  dsimp only
  refine ⟨rfl, fun hfind hplan => ?_⟩
  have hcells (b : Bank Descriptor) : b.cells.map (fun p => if p.2.plan = n then (p.1, { p.2 with
        old := none, cached := p.2.place.kind != 0, buffer := if p.2.place.kind = 0 then [] else p.2.buffer }) else p) =
      b.cells.map (fun p => (p.1, p.2.drained n)) := by
    refine List.map_congr_left fun p _ => ?_
    unfold Descriptor.drained
    split <;> rfl
  rw [State.desc, modDv_dv, advanceToAir_keeps_dv]
  unfold Bank.get
  dsimp only
  rw [hcells, find_map_value (Descriptor.drained n), hfind, Option.map_some, Option.getD_some, Descriptor.drained, if_pos hplan]

theorem targetDelayApply_applies {f n : Nat} {s : State} (h : s.dv.targetNext = some (f, n)) :
    (targetDelayApply s).dv.targetTc = n ∧ (targetDelayApply s).dv.targetNext = none := by
  unfold targetDelayApply
  rw [h]
  dsimp -zeta only
  extract_lets s1 s2 s3
  have h1 : s1.dv.targetTc = n ∧ s1.dv.targetNext = none := ⟨rfl, rfl⟩
  clear_value s1
  have h2 : s2.dv = s1.dv := foldl_keeps (fun t => t.dv) (fun t a => realign_only (Only.refl 452 t) rfl .dv rfl) _ s1
  clear_value s2
  rw [show ∀ t, (refreshGains t).dv = t.dv from fun t => refreshGains_only (Only.refl 452 t) rfl .dv rfl, modLg_dv,
    show s3.dv = s2.dv from restartCancellers_only (Only.refl 128 s2) rfl .dv rfl, h2]
  exact h1

/-! ## Deadlines (R295, R296) -/

theorem flushGroup_keeps {β : Type} (k : Descriptor → β) (f : Nat) (s : State) (n : Nat)
    (hk : ∀ d : Descriptor, k { d with group := [] } = k d := by exact fun _ => rfl) : k ((flushGroup f s).desc n) = k (s.desc n) := by
  unfold flushGroup
  split
  · rfl
  · rw [modDesc_keeps k (hg := hk), desc_of_dv (emitBlocks_only (Only.refl 397312 s) rfl .dv rfl)]

theorem sendGrouped_keeps {β : Type} (k : Descriptor → β) (f : Nat) (p : Placement) (b : Block) (s : State) (n : Nat)
    (hk : ∀ (d : Descriptor) (g : List Block), k { d with group := g } = k d := by exact fun _ _ => rfl) :
    k ((sendGrouped f p b s).desc n) = k (s.desc n) := by
  unfold sendGrouped
  split
  · rfl
  · extract_lets s1 s2
    have h1 : k (s1.desc n) = k (s.desc n) := by
      unfold s1
      split
      · exact flushGroup_keeps k f s n (fun d => hk d [])
      · rfl
    clear_value s1
    have h2 : k (s2.desc n) = k (s1.desc n) := modDesc_keeps k s1 n (fun d => hk d _)
    clear_value s2
    split
    · exact (flushGroup_keeps k f s2 n (fun d => hk d [])).trans (h2.trans h1)
    · exact h2.trans h1

theorem flowBlockArrival_dv (e r : Nat) (b : Block) (s : State) : (flowBlockArrival e r b s).dv = s.dv :=
  flowBlockArrival_only (Only.refl 16836 s) rfl .dv rfl

theorem sumDeadline_closes {f : Nat} {i : AirInstant} {s : State} (hkind : (placeFor s f i).kind = 2) (hsums : (placeFor s f i).sums = true) :
    ((sumDeadline f i s).desc f).done = some i ∧ ((sumDeadline f i s).desc f).blocks = (s.desc f).blocks + 1 := by
  unfold sumDeadline
  extract_lets p s1 d got b s2 s3
  rw [if_neg (by rw [show p.kind = 2 from hkind, show p.sums = true from hsums]; decide)]
  have h1 : s1.desc f = s.desc f := desc_of_dv advanceToAir_keeps_dv f
  clear_value s1
  have h2 : ((s2.desc f).done, (s2.desc f).blocks) = (some i, (s.desc f).blocks + 1) := by
    unfold s2
    rw [desc_modDesc_same, h1]
  clear_value s2
  have h3 : ((s3.desc f).done, (s3.desc f).blocks) = ((s2.desc f).done, (s2.desc f).blocks) :=
    sendGrouped_keeps (fun d => (d.done, d.blocks)) f p b s2 f
  clear_value s3
  refine Prod.mk.inj (Eq.trans ?_ (h3.trans h2))
  split
  · rw [desc_of_dv (flowBlockArrival_dv ..)]
  · rfl

theorem consume_keeps {β : Type} (k : Descriptor → β) (f : Nat) (p : Placement) (b : Block) (s : State) (n : Nat)
    (hk : ∀ (d : Descriptor) (x y z : Nat), k { d with lastTs := x, handledAt := y, gapped := z } = k d := by exact fun _ _ _ _ => rfl) :
    k ((consume f p b s).desc n) = k (s.desc n) := by
  unfold consume
  rw [desc_of_dv (flowBlockArrival_dv ..)]
  exact modDesc_keeps k s n (fun d => hk d _ _ _)

theorem consume_late (f : Nat) (p : Placement) (b : Block) (s : State) : (consume f p b s).dv.late = s.dv.late := by
  unfold consume
  rw [flowBlockArrival_dv]
  exact (beyondDesc_fields (modDesc_beyondDesc ..)).2.2.2

theorem consumeDeadline_closes {f : Nat} {i : AirInstant} {s : State} (hconsumer : (placeFor s f i).consumer = true)
    (hsums : ¬(placeFor s f i).sums = true) : ((consumeDeadline f i s).desc f).done = some i ∧
    ((s.desc f).buffer.find? (fun z => z.2.at_ == i) = none →
      ((consumeDeadline f i s).desc f).late = (s.desc f).late + 1 ∧ (consumeDeadline f i s).dv.late = s.dv.late + 1) := by
  unfold consumeDeadline
  extract_lets p s1 d clear
  rw [if_neg (by rw [show p.consumer = true from hconsumer, Bool.eq_false_iff.mpr hsums]; decide)]
  have hdv : s1.dv = s.dv := advanceToAir_keeps_dv
  have h1 : s1.desc f = s.desc f := desc_of_dv hdv f
  have hd : d = s.desc f := h1
  clear_value s1 d
  subst hd
  have hdone : ((clear s1).desc f).done = some i := by
    unfold clear
    rw [desc_modDesc_same]
  have hlate : ((clear s1).desc f).late = (s.desc f).late ∧ (clear s1).dv.late = s.dv.late :=
    ⟨(modDesc_keeps Descriptor.late s1 f).trans (congrArg Descriptor.late h1),
      (beyondDesc_fields (modDesc_beyondDesc ..)).2.2.2.trans (congrArg DvState.late hdv)⟩
  generalize clear s1 = s2 at hdone hlate
  split
  next hfound =>
    refine ⟨(consume_keeps Descriptor.done ..).trans hdone, fun hnone => ?_⟩
    exact absurd (hnone.symm.trans hfound) (Option.some_ne_none _).symm
  next =>
    refine ⟨?_, fun _ => ⟨?_, ?_⟩⟩
    · refine (consume_keeps Descriptor.done ..).trans ((modDesc_keeps Descriptor.done _ f).trans ?_)
      exact hdone
    · rw [consume_keeps Descriptor.late, noteLate, desc_modDesc_same]
      exact congrArg (· + 1) hlate.1
    · rw [consume_late]
      exact congrArg (· + 1) hlate.2

/-! ## Admission and reports (R305, R311, R312) -/

theorem flowQualComplete_seeks {f : Nat} {s : State} (hpaddock : inPaddock s (flowUnit f) = true) (hwanted : admissionWanted s = true)
    (hframe : s.lg.admitFrame = none) (hasked : ¬s.lg.admitAsked = true) (hhub : s.fl.memberId = none ∨ activeHub s = true) :
    (flowQualComplete f s).lg.admitFrame = some (frameBoundaryAhead s (if s.fl.memberId.isNone then 2 else 4)) := by
  unfold flowQualComplete seekAdmission
  rw [if_pos hpaddock, if_neg (by rw [hwanted]; decide), if_neg (by rw [hframe]; rintro (h | h); exacts [Bool.false_ne_true h, hasked h])]
  extract_lets s1
  by_cases hid : s.fl.memberId.isNone = true
  · rw [if_pos hid, if_pos hid]
    rfl
  · rw [if_neg hid, if_neg hid, if_pos (hhub.resolve_left fun h => hid (by rw [h]; rfl))]
    rfl

/-- Settles O41: each clause is the row's effect on the plans or on the descriptors it names. -/
theorem plansAreIssuedHeldAndApplied : Obligations.PlansAreIssuedHeldAndApplied := by
  unfold Obligations.PlansAreIssuedHeldAndApplied
  intro s p m n k f h l x y e b i ds d q
  refine ⟨fun hhub htrigger hroom => ?_, fun hidle => ?_, fun hdest hnew => ⟨?_, ?_⟩, fun hhub hsrc => ?_, ?_, fun hy => ?_,
    fun hnext => ⟨?_, ?_⟩, fun hdrains => ?_, fun htarget => ?_, fun hkind hsums => ?_, fun hconsumer hsums => ?_,
    fun hconsumer hsums => ⟨?_, ?_⟩, fun hpaddock hwanted hframe hasked hhub => ?_, fun hhub hsrc => ⟨?_, ?_⟩⟩
  · obtain ⟨hseq, hdone, hissued⟩ := placementCompute_issues hhub htrigger hroom
    exact runs_of_only (t := placementCompute s) rfl execPlacementCompute_only (by decide) ⟨hseq, Bool.eq_false_iff.mp hdone, hissued⟩
  · exact congrArg Host.Outcome.next (if_neg fun hc => hidle.elim (fun h => h hc.2.1) (fun h => absurd hc.2.2 (not_lt.mpr h)))
  · refine runs_of_only (t := plan h n f k true l s) rfl (execPlan_only (x0 := p)) (by decide) ?_
    rw [plan_gathers hdest hnew, if_pos rfl]
    exact finishPlan_holds ⟨n, f, k, l, false, 0⟩ s
  · refine runs_of_only (t := plan h n f k false l s) rfl (execPlan_only (x0 := p)) (by decide) ?_
    rw [plan_gathers hdest hnew, if_neg Bool.false_ne_true]
    exact held_holdPlan ⟨n, f, k, l, false, 0⟩ s
  · exact runs_of_only (t := planAck h n k s) rfl (execPlanAck_only (x0 := p)) (by decide) (planAck_ends hhub hsrc)
  · refine runs_of_only (t := planCancel h n s) rfl (execPlanCancel_only (x0 := p)) (by decide) ?_
    unfold planCancel dropPlans
    rw [modDv_dv, forwardBelow_dv]
  · exact runs_of_only (t := planAckTimeout s) rfl execPlanAckTimeout_only (by decide) (planAckTimeout_cancels hy)
  · exact runs_of_only (t := descriptorLoad s) rfl execDescriptorLoad_only (by decide) (descriptorLoad_caches hnext)
  · exact runs_of_only (t := planApply s) rfl execPlanApply_only (by decide) (planApply_applies hnext)
  · exact runs_of_only (t := planDrainEnd s) rfl execPlanDrainEnd_only (by decide) (planDrainEnd_releases hdrains)
  · exact runs_of_only (t := targetDelayApply s) rfl execTargetDelayApply_only (by decide) (targetDelayApply_applies htarget)
  · exact runs_of_only (t := sumDeadline f i s) rfl execSumDeadline_only (by decide) (sumDeadline_closes hkind hsums)
  · exact runs_of_only (t := consumeDeadline f i s) rfl execConsumeDeadline_only (by decide) (consumeDeadline_closes hconsumer hsums)
  · exact congrArg Host.Outcome.next (if_pos (Or.inl (Bool.eq_false_iff.mpr hconsumer)))
  · exact congrArg Host.Outcome.next (if_pos (Or.inr (Bool.eq_false_iff.mpr hsums)))
  · exact runs_of_only (t := flowQualComplete f s) rfl execFlowQualComplete_only (by decide)
      (flowQualComplete_seeks hpaddock hwanted hframe hasked hhub)
  · refine runs_of_only (t := bindStatus h b s) rfl (execBindStatus_only (x0 := p)) (by decide) ?_
    unfold bindStatus
    rw [if_pos hhub, hsrc]
    exact ⟨get_set_same .., rfl⟩
  · refine runs_of_only (t := flowReport h q s) rfl (execFlowReport_only (x0 := p)) (by decide) fun z hz hlost => ?_
    unfold flowReport
    rw [if_pos hhub, hsrc]
    dsimp -zeta only
    extract_lets lossy again s1
    refine List.mem_append_right _ (List.mem_map.mpr ⟨z.1, List.mem_map.mpr ⟨z, List.mem_filter.mpr ⟨hz, bne_iff_ne.mpr hlost⟩, rfl⟩, rfl⟩)

end Sys2Proof.Machine
end

section
set_option Elab.async false
/-! Captures and the archive: the commands (R320–R334), and a bank of slots on which the end of a drain starts another of the same slot. -/

namespace Sys2Proof.Machine

open Sys2Proof

/-! ## Capture slots -/

theorem capture_modCap_same (k : Nat) (f : CapSlot → CapSlot) (s : State) : (modCap k f s).capture k = f (s.capture k) := get_mod_same ..

theorem capture_modCap_other {k n : Nat} (f : CapSlot → CapSlot) (s : State) (h : n ≠ k) : (modCap k f s).capture n = s.capture n :=
  get_mod_other _ _ h

theorem capture_of_mem {s t : State} (h : t.mem = s.mem) (k : Nat) : t.capture k = s.capture k := congrArg (fun m : MemState => m.slots.get k) h

theorem complete_mem (t : Ticket) (st : Status) (d : Nat) (s : State) : (complete t st d s).mem = s.mem :=
  complete_only (Only.refl 2 s) rfl .mem rfl

theorem noteRelease_slots (s : State) : (noteRelease s).mem.slots = s.mem.slots := by
  unfold noteRelease
  split <;> rfl

theorem freeSlot_capture (k : Nat) (s : State) : (freeSlot k s).capture k = {} :=
  (congrArg (fun b : Bank CapSlot => b.get k) (noteRelease_slots _)).trans (capture_modCap_same k (fun _ => {}) s)

/-! ## Draining -/

/-- What a drain that starts leaves of the memory. -/
theorem overwriteFor_keeps {β : Type} (g : MemState → β) (need fuel : Nat) (s : State)
    (hg : ∀ (m : MemState) i a, g { m with index := i, archived := a } = g m := by exact fun _ _ _ => rfl) :
    g (overwriteFor need fuel s).mem = g s.mem := by
  induction fuel generalizing s with
  | zero => rfl
  | succ fuel ih =>
    unfold overwriteFor
    split
    · rfl
    · split
      · rfl
      · extract_lets n
        rw [ih, submitLog_only (Only.refl 8 _) rfl .mem rfl]
        exact hg s.mem _ _

theorem pumpDrain_keeps {β : Type} (g : MemState → β) (s : State)
    (hg : ∀ (m : MemState) i a, g { m with index := i, archived := a } = g m := by exact fun _ _ _ => rfl)
    (hd : ∀ (m : MemState) f n d b, g { m with full := f, serial := n, draining := d, slots := b } = g m := by exact fun _ _ _ _ _ => rfl) :
    g (pumpDrain s).mem = g s.mem := by
  unfold pumpDrain
  split
  · rfl
  · split
    · exact hd s.mem false s.mem.serial s.mem.draining s.mem.slots
    · extract_lets need s1 free serial
      have h1 : g s1.mem = g s.mem := by
        unfold s1
        split
        · exact overwriteFor_keeps g _ _ s hg
        · rfl
      clear_value s1
      split
      · exact (hd s1.mem _ _ _ _).trans h1
      · split
        · exact h1
        · rw [postNotice_only (Only.refl 2 _) rfl .mem rfl]
          exact (hd s1.mem true s1.mem.serial s1.mem.draining s1.mem.slots).trans h1

/-- A slot that begins to drain under a serial. -/
def CapSlot.drains (n : Nat) (c : CapSlot) : CapSlot := { c with state := .draining, info := { c.info with serial := n } }

/-- The next drain takes one slot, and only its state and its serial. -/
theorem pumpDrain_slot (s : State) (k : Nat) : (pumpDrain s).capture k = s.capture k ∨
    ∃ n, (pumpDrain s).capture k = (s.capture k).drains n := by
  unfold pumpDrain
  split
  · exact Or.inl rfl
  · split
    · exact Or.inl rfl
    next j rest _ =>
      extract_lets need s1 free serial
      have h1 : s1.capture k = s.capture k := by
        unfold s1
        split
        · exact overwriteFor_keeps (fun m => m.slots.get k) _ _ s
        · rfl
      clear_value s1
      split
      · by_cases hk : k = j
        · subst hk
          rw [capture_modCap_same]
          exact Or.inr ⟨serial, congrArg (CapSlot.drains serial) h1⟩
        · rw [capture_modCap_other _ _ hk]
          exact Or.inl h1
      · split
        · exact Or.inl h1
        · rw [capture_of_mem (postNotice_only (Only.refl 2 _) rfl .mem rfl)]
          exact Or.inl h1

theorem pumpDrain_capture {β : Type} (g : CapSlot → β) (s : State) (k : Nat)
    (hg : ∀ (c : CapSlot) n, g (c.drains n) = g c := by exact fun _ _ => rfl) :
    g ((pumpDrain s).capture k) = g (s.capture k) := by
  obtain h | ⟨n, h⟩ := pumpDrain_slot s k
  · rw [h]
  · rw [h, hg]

/-- A capture that stops is frozen, or drains already. -/
theorem stopCapture_stops (k : Nat) (early : Bool) (s : State) : ((stopCapture k early s).capture k).info.stoppedEarly = early ∧
    (((stopCapture k early s).capture k).state = .complete ∨ ((stopCapture k early s).capture k).state = .draining) := by
  unfold stopCapture
  extract_lets c n i post onTime held
  have h1 := capture_modCap_same k (fun x => { x with
    state := .complete, stopAt := min x.stopAt (now s), info := { x.info with stoppedEarly := early, heldUs := held, content := n } })
    (draw s).2
  generalize modCap k (fun x => { x with
    state := .complete, stopAt := min x.stopAt (now s), info := { x.info with stoppedEarly := early, heldUs := held, content := n } })
    (draw s).2 = s1 at h1
  obtain h | ⟨n, h⟩ := pumpDrain_slot s1 k
  · rw [h, h1]
    exact ⟨rfl, Or.inl rfl⟩
  · rw [h, h1]
    exact ⟨rfl, Or.inr rfl⟩

/-! ## The commands -/

theorem startArmed_slot (k : Nat) (s : State) : (startArmed k s).capture k = { s.capture k with state := .armed, armedAt := now s, arming := none } :=
  capture_modCap_same ..

theorem powerFor_slots (l : List Nat) (s : State) : (powerFor l s).mem.slots = s.mem.slots := by
  unfold powerFor
  split <;> rfl

theorem powerFor_restores (l : List Nat) (s : State) : (powerFor l s).mem.restores = s.mem.restores := by
  unfold powerFor
  split <;> rfl

/-- Where extents need stack 1 and it is not powered, it powers up. -/
theorem powerFor_powers {l : List Nat} {s : State} (hneed : l.any (fun e => decide (384 ≤ e)) = true) (hoff : s.mem.stack1 = false) :
    (powerFor l s).mem.powering ≠ none := by
  unfold powerFor
  split
  · exact Option.some_ne_none _
  next h => exact fun hnone => h ⟨hneed, hoff, by rw [hnone]; rfl⟩

theorem fireSlot_other {k n : Nat} (bit t : Nat) (s : State) (h : n ≠ k) : (fireSlot k bit t s).capture n = s.capture n := by
  unfold fireSlot
  extract_lets c
  split
  · rfl
  · split
    · exact capture_modCap_other _ _ h
    · split
      · split
        · exact capture_modCap_other _ _ h
        · exact capture_modCap_other _ _ h
      · rfl

theorem fireSlot_fires {k bit t : Nat} {s : State} (harmed : (s.capture k).state = .armed) (hbit : (s.capture k).triggers.testBit bit = true) :
    ((fireSlot k bit t s).capture k).state = .triggered ∧ ((fireSlot k bit t s).capture k).info.trigMono = t := by
  unfold fireSlot
  extract_lets c
  rw [if_neg (by rw [show c.triggers.testBit bit = true from hbit]; decide), if_pos harmed, capture_modCap_same]
  exact ⟨rfl, rfl⟩

theorem capTrigger_fires {l : List Nat} {n : Nat} (hnodup : l.Nodup) (hmem : n ∈ l) {s : State} (harmed : (s.capture n).state = .armed)
    (hbit : (s.capture n).triggers.testBit 0 = true) :
    ((l.foldl (fun acc k => fireSlot k trigHost (now acc) acc) s).capture n).state = .triggered ∧
    ((l.foldl (fun acc k => fireSlot k trigHost (now acc) acc) s).capture n).info.trigMono = s.now := by
  have hair (k : Nat) (t : State) : (fireSlot k trigHost (now t) t).air = t.air := fireSlot_only (Only.refl 16384 t) rfl .air rfl
  obtain ⟨u, hu, hval⟩ := foldl_visits (f := fun acc k => fireSlot k trigHost (now acc) acc) (g := fun t => (t.capture n, t.air))
    (fun t m hm => by rw [fireSlot_other _ _ _ hm, hair]) hnodup hmem s
  obtain ⟨hcapture, hnow⟩ := Prod.mk.inj hu
  obtain ⟨hfired, hmono⟩ := fireSlot_fires (t := now u) (s := u) (k := n) (bit := trigHost) (by rw [hcapture]; exact harmed)
    (by rw [hcapture]; exact hbit)
  rw [(Prod.mk.inj hval).1]
  exact ⟨hfired, hmono.trans (congrArg AirState.mono hnow)⟩

/-- The slot that a CAP_ARM describes, with the extents it takes and the command that waits. -/
def armedAs (s : State) (q : Req) : CapSlot :=
  { armedSlot s q.payload with
    extents := (freeExtents s.mem).take (ringExtents (armedSlot s q.payload).info), arming := some (ticketOf q) }

theorem armedSlot_modHost (h : HostState) (s : State) (p : List Byte) : armedSlot (s.modHost (fun _ => h)) p = armedSlot s p := rfl

theorem armedAs_atStart (n : Nat) (r : HostRequest) (s : State) (q : Req) : armedAs (atStart n r s) q = armedAs s q := by
  rw [atStart_modHost, armedAs, armedSlot_modHost]
  rfl

theorem capArm_runs {r : HostRequest} {s : State} (h : Accepts specCapArm r s) : Runs (.capArm r) s [.host, .mem, .pair] fun t =>
    Answered 0x0C01 r .accepted t ∧ (t.capture (r.u8 0)).info = (armedSlot s r.payload).info ∧
    (t.capture (r.u8 0)).triggers = r.u8 2 ∧ (t.capture (r.u8 0)).extents = (freeExtents s.mem).take (ringExtents (armedSlot s r.payload).info) ∧
    ((s.mem.stack1 ∨ ∀ e ∈ (t.capture (r.u8 0)).extents, e < 384) →
      (t.capture (r.u8 0)).state = .armed ∧ (t.capture (r.u8 0)).armedAt = s.now) ∧
    (¬s.mem.stack1 → (∃ e ∈ (t.capture (r.u8 0)).extents, 384 ≤ e) →
      (t.capture (r.u8 0)).state = .free ∧ t.mem.powering ≠ none) := by
  have hmem : (submit specCapArm r s).mem = (if (armedAs s (reqOf 0x0C01 r)).extents.any (fun e => decide (384 ≤ e)) ∧ s.mem.stack1 = false
      then powerFor (armedAs s (reqOf 0x0C01 r)).extents (modCap (r.u8 0) (fun _ => armedAs s (reqOf 0x0C01 r)) (atStart 0x0C01 r s))
      else complete (ticketOf (reqOf 0x0C01 r)) .ok 0
        (startArmed (r.u8 0) (modCap (r.u8 0) (fun _ => armedAs s (reqOf 0x0C01 r)) (atStart 0x0C01 r s)))).mem := by
    rw [submit_after h .mem rfl, ← armedAs_atStart 0x0C01 r s]
    exact congrArg State.mem (apply_ite Prod.fst _ _ _)
  have hreply : Replies .accepted (specCapArm.effect (atStart 0x0C01 r s) (reqOf 0x0C01 r)).2 := by
    simp only [specCapArm]
    split <;> exact ⟨rfl, rfl⟩
  refine runs_of_accepts rfl specCapArm_only (by decide) h hreply ?_
  rw [capture_of_mem hmem, hmem]
  have hslot := capture_modCap_same (r.u8 0) (fun _ => armedAs s (reqOf 0x0C01 r)) (atStart 0x0C01 r s)
  have hstack : (modCap (r.u8 0) (fun _ => armedAs s (reqOf 0x0C01 r)) (atStart 0x0C01 r s)).mem.stack1 = s.mem.stack1 := rfl
  have hnow : now (modCap (r.u8 0) (fun _ => armedAs s (reqOf 0x0C01 r)) (atStart 0x0C01 r s)) = s.now := rfl
  generalize modCap (r.u8 0) (fun _ => armedAs s (reqOf 0x0C01 r)) (atStart 0x0C01 r s) = s1 at hslot hstack hnow
  by_cases hpower : (armedAs s (reqOf 0x0C01 r)).extents.any (fun e => decide (384 ≤ e)) = true ∧ s.mem.stack1 = false
  · have hpowers : (powerFor (armedAs s (reqOf 0x0C01 r)).extents s1).capture (r.u8 0) = armedAs s (reqOf 0x0C01 r) :=
      (congrArg (fun b : Bank CapSlot => b.get (r.u8 0)) (powerFor_slots ..)).trans hslot
    rw [if_pos hpower, hpowers]
    refine ⟨rfl, rfl, rfl, fun hready => ?_, fun _ _ => ⟨rfl, powerFor_powers hpower.1 (hstack.trans hpower.2)⟩⟩
    obtain ⟨e, he, hhigh⟩ := List.any_eq_true.mp hpower.1
    obtain hon | hlow := hready
    · exact absurd (hon.symm.trans hpower.2) (by decide)
    · exact absurd (hlow e he) (not_lt.mpr (of_decide_eq_true hhigh))
  · have harmed : (complete (ticketOf (reqOf 0x0C01 r)) .ok 0 (startArmed (r.u8 0) s1)).capture (r.u8 0) =
        { armedAs s (reqOf 0x0C01 r) with state := .armed, armedAt := s.now, arming := none } := by
      rw [capture_of_mem (complete_mem ..), startArmed_slot, hslot, hnow]
    rw [if_neg hpower, harmed]
    refine ⟨rfl, rfl, rfl, fun _ => ⟨rfl, rfl⟩, fun hoff hhigh => ?_⟩
    obtain ⟨e, he, hle⟩ := hhigh
    exact absurd ⟨List.any_eq_true.mpr ⟨e, he, decide_eq_true hle⟩, Bool.eq_false_iff.mpr hoff⟩ hpower

theorem capControl_does (r : HostRequest) (s : State) : Does 0x0C03 .capControl r s [.log, .mem, .drawn] fun t =>
    ((r.u8 1 = 0 ∨ r.u8 1 = 2) → t.capture (r.u8 0) = {}) ∧ (r.u8 1 = 1 → (t.capture (r.u8 0)).info.stoppedEarly ∧
      ((t.capture (r.u8 0)).state = .complete ∨ (t.capture (r.u8 0)).state = .draining)) ∧
    (r.u8 1 = 3 → (t.capture (r.u8 0)).drain) := by
  refine does_of_only rfl rfl specCapControl_only (by decide) (fun _ _ => ⟨rfl, rfl⟩) fun h => ?_
  have hmem : (submit specCapControl r s).mem = (if r.u8 1 = 1 then stopCapture (r.u8 0) true (atStart 0x0C03 r s)
      else if r.u8 1 = 3 then pumpDrain (modCap (r.u8 0) (fun c => { c with drain := true }) (atStart 0x0C03 r s))
      else freeSlot (r.u8 0) (atStart 0x0C03 r s)).mem := submit_after h .mem rfl
  rw [capture_of_mem hmem]
  refine ⟨fun hfree => ?_, fun hstop => ?_, fun hdrain => ?_⟩
  · rw [if_neg (by omega), if_neg (by omega)]
    exact freeSlot_capture ..
  · rw [if_pos hstop]
    exact stopCapture_stops ..
  · rw [if_neg (by omega), if_pos hdrain, pumpDrain_capture CapSlot.drain, capture_modCap_same]

theorem stopDrain_idle (s : State) : (stopDrain s).mem.draining = none := by
  unfold stopDrain
  split
  · rfl
  next h => exact h

theorem stopDrain_keeps {β : Type} (g : MemState → β) (s : State)
    (hg : ∀ (m : MemState) b, g { m with draining := none, slots := b } = g m := by exact fun _ _ => rfl) : g (stopDrain s).mem = g s.mem := by
  unfold stopDrain
  split
  · exact hg s.mem _
  · rfl

theorem arConfig_does (r : HostRequest) (s : State) : Does 0x0C10 .arConfig r s [.fault, .log, .mem] fun t =>
    t.mem.enable = (r.u8 0 == 1) ∧ t.mem.overwrite = (r.u8 1 == 1) ∧ t.mem.limit = r.u16 2 ∧
    (r.u8 0 = 0 → ¬t.mem.mounted ∧ t.mem.draining = none ∧ ¬holding t 0x91 archiveUnit) := by
  refine does_of_only rfl rfl specArConfig_only (by decide) (fun _ _ => ⟨rfl, rfl⟩) fun h => ?_
  have heffect : (specArConfig.effect (atStart 0x0C10 r s) (reqOf 0x0C10 r)).1 = if (r.u8 0 == 1) = true then
        pumpDrain ((atStart 0x0C10 r s).modMem (fun m => { m with enable := r.u8 0 == 1, overwrite := r.u8 1 == 1, limit := r.u16 2 }))
      else endFault 0x91 archiveUnit ((stopDrain ((atStart 0x0C10 r s).modMem (fun m => { m with
        enable := r.u8 0 == 1, overwrite := r.u8 1 == 1, limit := r.u16 2 }))).modMem (fun m => { m with mounted := false, full := false })) :=
    rfl
  have hmem := (submit_after h .mem rfl).trans (congrArg State.mem heffect)
  have hfault := (submit_after h .fault rfl).trans (congrArg State.fault heffect)
  generalize hs1 : (atStart 0x0C10 r s).modMem (fun m => { m with
    enable := r.u8 0 == 1, overwrite := r.u8 1 == 1, limit := r.u16 2 }) = s1 at hmem hfault
  have h1 : (s1.mem.enable, s1.mem.overwrite, s1.mem.limit) = (r.u8 0 == 1, r.u8 1 == 1, r.u16 2) := by rw [← hs1]; rfl
  clear hs1 heffect
  by_cases hon : (r.u8 0 == 1) = true
  · rw [if_pos hon] at hmem
    have hkeep := (pumpDrain_keeps (fun m => (m.enable, m.overwrite, m.limit)) s1).trans h1
    obtain ⟨henable, hrest⟩ := Prod.mk.inj hkeep
    obtain ⟨hover, hlimit⟩ := Prod.mk.inj hrest
    rw [hmem]
    exact ⟨henable, hover, hlimit, fun h0 => absurd (beq_iff_eq.mp hon) (by rw [h0]; decide)⟩
  · rw [if_neg hon] at hmem hfault
    have hend : (endFault 0x91 archiveUnit ((stopDrain s1).modMem (fun m => { m with mounted := false, full := false }))).mem =
        { (stopDrain s1).mem with mounted := false, full := false } := endFault_only (Only.refl 4 _) rfl .mem rfl
    have hkeep := (stopDrain_keeps (fun m => (m.enable, m.overwrite, m.limit)) s1).trans h1
    obtain ⟨henable, hrest⟩ := Prod.mk.inj hkeep
    obtain ⟨hover, hlimit⟩ := Prod.mk.inj hrest
    rw [hmem, hend, holding, hfault]
    exact ⟨henable, hover, hlimit, fun _ => ⟨Bool.false_ne_true, stopDrain_idle s1, Bool.eq_false_iff.mp (holding_endFault ..)⟩⟩

/-- Settles O42: each clause is the command's effect on its slot or on the archive. -/
theorem captureAndArchiveCommandsComplete : Obligations.CaptureAndArchiveCommandsComplete := by
  unfold Obligations.CaptureAndArchiveCommandsComplete
  intro r s
  refine ⟨capArm_runs, ?_, capControl_does r s, arConfig_does r s, fun h => ?_, fun h => ?_, ?_⟩
  · refine does_of_only rfl rfl specCapTrigger_only (by decide) (fun _ _ => ⟨rfl, rfl⟩) fun h n hn hbit harmed htrigger => ?_
    have hmem : (submit specCapTrigger r s).mem = ((maskBits (r.u16 0)).foldl (fun acc k => fireSlot k trigHost (now acc) acc)
      (atStart 0x0C02 r s)).mem := submit_after h .mem rfl
    rw [capture_of_mem hmem]
    exact capTrigger_fires (s := atStart 0x0C02 r s) (nodup_maskBits _) (mem_maskBits (by omega) hbit) harmed htrigger
  · exact runs_of_accepts rfl specArControl_only (by decide) h ⟨rfl, rfl⟩ (submit_after h .mem rfl)
  · refine runs_of_accepts rfl specArRestore_only (by decide) h ⟨rfl, rfl⟩ ?_
    have hmem : (submit specArRestore r s).mem = (powerFor ((freeExtents s.mem).take (restoreExtents s.mem (r.u32 0)))
        ((modCap (r.u8 4) (fun c => { c with extents := (freeExtents s.mem).take (restoreExtents s.mem (r.u32 0)) })
          (atStart 0x0C12 r s)).modMem (fun m => { m with
            restores := m.restores ++ [(r.u32 0, r.u8 4, ticketOf (reqOf 0x0C12 r))] }))).mem := submit_after h .mem rfl
    rw [capture_of_mem hmem, hmem, powerFor_restores, State.capture, powerFor_slots]
    exact ⟨rfl, congrArg CapSlot.extents (capture_modCap_same (r.u8 4) _ (atStart 0x0C12 r s))⟩
  · exact does_of_only rfl rfl specMemRetireClear_only (by decide) (fun _ _ => ⟨rfl, rfl⟩) fun h => submit_after h .mem rfl

/-! ## A drain that ends -/

/-- Slot 0 is listed twice, the second time as a capture that waits to drain, while its drain ends. -/
def listedTwice : State := { State.reset with
  mem := { State.reset.mem with
    slots := ⟨{}, [(0, {}), (0, { state := .complete, drain := true })]⟩, draining := some (0, 0, []), enable := true, mounted := true
    segments := 1 } }

theorem drainComplete_listedTwice : ((drainComplete listedTwice).capture 0).state = .draining := by decide +kernel

/-- A ticket: the clause that fails does not speak of it. -/
def anyTicket : Ticket := { opcode := 0, tag := 0, mailbox := 0 }

/-- Refutes O43: a bank is a list of numbered values, and the statement does not ask that it lists a slot once. The end of the drain of
a slot that is listed twice leaves the second copy COMPLETE, which puts the slot back in the drain queue (R323, R331). -/
theorem not_capturesRecordDrainAndLoseMemory : ¬ Obligations.CapturesRecordDrainAndLoseMemory := by
  unfold Obligations.CapturesRecordDrainAndLoseMemory
  intro h
  obtain ⟨-, -, hdrain, -⟩ := h listedTwice 0 0 0 0 0 [] ⟨0, 0, anyTicket⟩ [] {} [] anyTicket [] .index none none {} (0, 0)
  obtain ⟨-, hstate, -⟩ := (hdrain rfl).of_exec (t := drainComplete listedTwice) rfl
  rw [drainComplete_listedTwice] at hstate
  exact absurd hstate (by decide)

end Sys2Proof.Machine
end

section
set_option Elab.async false
/-! The Bell link: its commands, and what it receives (R338–R362). -/

namespace Sys2Proof.Machine

open Sys2Proof

/-! ## The commands -/

/-- The link when everything of it has stopped, without the queue, in which a keeper's reply waits. -/
theorem bellOff_others (s : State) : (bellOff s).bell.others = { endReception s.bell with
    rx := .off, enabled := false, enabling := [], disabling := none, queue := [], sending := none, awaiting := none
    arrivals := [], suspended := false, resumeAt := none, neighbours := [], relay := none, relayed := [] } := by
  have hfold (l : List Ticket) (t : State) : (l.foldl (fun acc x => complete x .eNotReady 0 acc) t).bell = t.bell :=
    foldl_keeps (f := fun acc x => complete x .eNotReady 0 acc) (fun u => u.bell) (fun u x => complete_keeps_bell) l t
  unfold bellOff
  extract_lets b s1 s2 s3
  have h1 : s1.bell = s.bell := hfold ..
  clear_value s1
  have h2 : s2.bell = s1.bell := hfold ..
  clear_value s2
  have h3 : s3.bell.others = { endReception s.bell with
      rx := .off, enabled := false, enabling := [], disabling := none, queue := [], sending := none, awaiting := none
      arrivals := [], suspended := false, resumeAt := none, neighbours := [], relay := none, relayed := [] } := by
    unfold s3
    rw [modBell_bell, modRf_bell, h2, h1]
    rfl
  clear_value s3
  split
  · exact (finishDeferred_others ..).trans h3
  · exact h3

theorem others_fields {b c : BellState} (h : c.others = b.others) : (c.rx = b.rx ∧ c.enabled = b.enabled ∧ c.enabling = b.enabling ∧
    c.sending = b.sending ∧ c.packets = b.packets) ∧ c.keys = b.keys ∧ c.authFail = b.authFail ∧ c.neighbours = b.neighbours := by
  simp only [BellState.others, BellState.mk.injEq] at h
  tauto

theorem bellOff_link (s : State) : (bellOff s).bell.rx = .off ∧ (bellOff s).bell.enabled = false ∧ (bellOff s).bell.sending = none ∧
    (bellOff s).bell.packets = s.bell.packets := by
  obtain ⟨⟨hrx, hon, -, hsending, hpackets⟩, -⟩ := others_fields (b := { endReception s.bell with
    rx := .off, enabled := false, enabling := [], disabling := none, queue := [], sending := none, awaiting := none
    arrivals := [], suspended := false, resumeAt := none, neighbours := [], relay := none, relayed := [] }) (bellOff_others s)
  exact ⟨hrx, hon, hsending, hpackets⟩

theorem bellEnable_starts {r : HostRequest} {s : State} (h : Accepts specBellEnable r s) (hon : r.u8 0 = 1) (hoff : s.bell.rx = .off) :
    Runs (.bellEnable r) s [.host, .rf, .bell, .pair] fun t => Answered 0x0D02 r .accepted t ∧ t.bell.enabled ∧ t.bell.rx = .calibrating ∧
      t.rf.bellCal ∧ t.bell.enabling = [ticketOf (reqOf 0x0D02 r)] := by
  have heffect : specBellEnable.effect (atStart 0x0D02 r s) (reqOf 0x0D02 r) = (startBellCal ((atStart 0x0D02 r s).modBell (fun b =>
      { b with enabled := true, enabling := [ticketOf (reqOf 0x0D02 r)] })), { status := .accepted }) := by
    have hu8 : u8 (reqOf 0x0D02 r).payload 0 = 1 := hon
    have hrx : (atStart 0x0D02 r s).bell.rx = .off := hoff
    simp only [specBellEnable, hu8, hrx, if_true]
  refine runs_of_accepts rfl specBellEnable_only (by decide) h ?_ ?_
  · rw [show specBellEnable.opcode = 0x0D02 from rfl, heffect]
    exact ⟨rfl, rfl⟩
  · rw [submit_after h .bell rfl, submit_after h .rf rfl, show specBellEnable.opcode = 0x0D02 from rfl, heffect]
    exact ⟨rfl, rfl, rfl, rfl⟩

theorem bellEnable_stops {r : HostRequest} {s : State} (h : Accepts specBellEnable r s) (hzero : r.u8 0 = 0) :
    Runs (.bellEnable r) s [.host, .rf, .bell, .pair] fun t =>
      (s.bell.sending = none → Answered 0x0D02 r .ok t ∧ ¬t.bell.enabled ∧ t.bell.rx = .off) ∧
      (s.bell.sending ≠ none → StillRuns r t ∧ t.bell.queue = [] ∧ t.bell.disabling = some (ticketOf (reqOf 0x0D02 r))) := by
  have heffect : specBellEnable.effect (atStart 0x0D02 r s) (reqOf 0x0D02 r) = if s.bell.sending.isSome then
      ((atStart 0x0D02 r s).modBell (fun b => { b with queue := [], reception := none, disabling := some (ticketOf (reqOf 0x0D02 r)) }),
        { deferred := true })
      else (bellOff (atStart 0x0D02 r s), {}) := by
    have hu8 : ¬u8 (reqOf 0x0D02 r).payload 0 = 1 := fun h1 => absurd (h1.symm.trans hzero) (by decide)
    simp only [specBellEnable, if_neg hu8]
    rfl
  by_cases hsending : s.bell.sending.isSome = true
  · rw [if_pos hsending] at heffect
    refine ⟨submit specBellEnable r s, exec_command rfl s, submit_changesOnly specBellEnable_only (by decide) r s, fun hnone => ?_, fun _ =>
      ⟨stillRuns_of_accepts (i := .bellEnable r) rfl h ?_, ?_⟩⟩
    · rw [hnone] at hsending
      exact absurd hsending Bool.false_ne_true
    · rw [show specBellEnable.opcode = 0x0D02 from rfl, heffect]
    · rw [submit_after h .bell rfl, show specBellEnable.opcode = 0x0D02 from rfl, heffect]
      exact ⟨rfl, rfl⟩
  · rw [if_neg hsending] at heffect
    refine (runs_of_accepts (st := .ok) (P := fun t => ¬t.bell.enabled ∧ t.bell.rx = .off) rfl specBellEnable_only (by decide) h ?_ ?_).mono
      fun t ht => ⟨fun _ => ht, fun hne => absurd (Option.isSome_iff_ne_none.mpr hne) hsending⟩
    · rw [show specBellEnable.opcode = 0x0D02 from rfl, heffect]
      exact ⟨rfl, rfl⟩
    · rw [submit_after h .bell rfl, show specBellEnable.opcode = 0x0D02 from rfl, heffect]
      obtain ⟨hrx, hon, -⟩ := bellOff_link (atStart 0x0D02 r s)
      exact ⟨Bool.eq_false_iff.mp hon, hrx⟩

theorem keeperKey_does (r : HostRequest) (s : State) : Does 0x0D03 .keeperKey r s [.bell] fun t =>
    (r.u8 2 = 0 → t.bell.keys = s.bell.keys.filter (fun k => k.id != r.u16 0)) ∧
    (r.u8 2 = 1 → (∀ x ∈ t.bell.locked, x.1 ≠ r.u16 0) ∧ (t.bell.keys.find? (fun k => k.id == r.u16 0)).map (fun k => (k.role, k.key, k.counter)) =
      some (roleOfCode (r.u8 3), bytesAt r.payload 4 32, 0)) := by
  refine does_of_only rfl rfl specKeeperKey_only (by decide) (fun _ _ => ⟨rfl, rfl⟩) fun h => ?_
  have hbell : (submit specKeeperKey r s).bell = if r.u8 2 = 0 then { s.bell with keys := s.bell.keys.filter (fun k => k.id != r.u16 0) }
      else { s.bell with
        keys := s.bell.keys.filter (fun k => k.id != r.u16 0) ++ [{ id := r.u16 0, role := roleOfCode (r.u8 3), key := bytesAt r.payload 4 32 }]
        locked := s.bell.locked.filter (fun x => x.1 != r.u16 0), fails := s.bell.fails.filter (fun x => x.1 != r.u16 0) } :=
    submit_after h .bell rfl
  rw [hbell]
  refine ⟨fun h0 => ?_, fun h1 => ?_⟩
  · rw [if_pos h0]
  · rw [if_neg (by omega)]
    refine ⟨fun x hx => bne_iff_ne.mp (List.mem_filter.mp hx).2, ?_⟩
    have hnone : (s.bell.keys.filter (fun k => k.id != r.u16 0)).find? (fun k => k.id == r.u16 0) = none :=
      List.find?_eq_none.mpr fun k hk hid => bne_iff_ne.mp (List.mem_filter.mp hk).2 (beq_iff_eq.mp hid)
    dsimp only
    rw [List.find?_append, hnone, Option.none_or, List.find?_singleton, if_pos (beq_self_eq_true _)]
    rfl

/-- Settles O44: each clause is the command's effect on the link or on its keeper. -/
theorem bellCommandsComplete : Obligations.BellCommandsComplete := by
  unfold Obligations.BellCommandsComplete
  intro r s
  refine ⟨?_, bellEnable_starts, bellEnable_stops, keeperKey_does r s, ?_⟩
  · exact does_of_only rfl rfl specBellConfig_only (by decide) (fun _ _ => ⟨rfl, rfl⟩) fun h => submit_after h .bell rfl
  · exact does_of_only rfl rfl specBellChainConfig_only (by decide) (fun _ _ => ⟨rfl, rfl⟩) fun h => submit_after h .bell rfl

/-! ## Reception -/

theorem headerComplete_reads {hdr crc : Nat} {r : Reception} {h : BellHeader} {s : State} (hrx : s.bell.rx = .header)
    (hreception : s.bell.reception = some r) : waited s (headerComplete hdr crc s) (r.at_ + tcOfUs (headerUs r.sync.rate)) ∧
    (crc = crc16 (le 4 hdr) → headerOf hdr = some h → headerFits r.sync.keeper h →
      (headerComplete hdr crc s).bell.rx = .payload ∧ (headerComplete hdr crc s).bell.reception = some { r with header := some h }) ∧
    (crc ≠ crc16 (le 4 hdr) → (headerComplete hdr crc s).bell.rx = .search ∧ (headerComplete hdr crc s).bell.reception = none ∧
      (headerComplete hdr crc s).bell.hdrFail = s.bell.hdrFail + 1) := by
  unfold headerComplete
  rw [hrx, hreception]
  dsimp -zeta only
  extract_lets s1 ok
  have hwait : waited s s1 (r.at_ + tcOfUs (headerUs r.sync.rate)) := advanceTo_waited ..
  have hbell : s1.bell = s.bell := advanceTo_keeps_bell
  clear_value s1
  have hair (f : BellState → BellState) : (s1.modBell f).air = s1.air := rfl
  cases hheader : headerOf hdr with
  | none =>
    dsimp only
    rw [waited, hair, modBell_bell, hbell]
    exact ⟨hwait, fun _ hsome => absurd hsome.symm (Option.some_ne_none h), fun _ => ⟨rfl, rfl, rfl⟩⟩
  | some g =>
    dsimp only
    by_cases hfits : (ok && headerFits r.sync.keeper g) = true
    · rw [if_pos hfits, waited, hair, modBell_bell]
      refine ⟨hwait, fun _ hsome _ => ?_, fun hne => ?_⟩
      · rw [Option.some.inj hsome]
        exact ⟨rfl, rfl⟩
      · exact absurd (beq_iff_eq.mp (Bool.and_eq_true_iff.mp hfits).1) hne
    · rw [if_neg hfits, waited, hair, modBell_bell, hbell]
      refine ⟨hwait, fun hcrc hsome hfit => ?_, fun _ => ⟨rfl, rfl, rfl⟩⟩
      rw [Option.some.inj hsome] at hfits
      exact absurd (Bool.and_eq_true_iff.mpr ⟨beq_iff_eq.mpr hcrc, hfit⟩) hfits

theorem payloadComplete_hands {r : Reception} {h : BellHeader} {body : BellBody} {s : State} (hrx : s.bell.rx = .payload)
    (hreception : s.bell.reception = some r) (hheader : r.header = some h) : (payloadComplete body s).bell.rx = .search ∧
    (bodyOk h body → (payloadComplete body s).bell.ok = s.bell.ok + 1 ∧ (payloadComplete body s).bell.arrivals = s.bell.arrivals ++
      [{ header := h, level := r.sync.level, rate := r.sync.rate, end_ := (payloadComplete body s).now, body }]) ∧
    (¬bodyOk h body → (payloadComplete body s).bell.payFail = s.bell.payFail + 1 ∧ (payloadComplete body s).bell.arrivals = s.bell.arrivals) := by
  obtain ⟨s1, hbell, heq⟩ : ∃ s1 : State, s1.bell = s.bell ∧ payloadComplete body s = if bodyOk h body then
      s1.modBell (fun b => { endReception b with
        ok := b.ok + 1
        arrivals := b.arrivals ++ [{ header := h, level := r.sync.level, rate := r.sync.rate, end_ := now s1, body }] })
      else s1.modBell (fun b => { endReception b with payFail := b.payFail + 1 }) := by
    refine ⟨advanceTo (r.at_ + tcOfUs (headerUs r.sync.rate + payloadUs r.sync.rate h)) s, advanceTo_keeps_bell, ?_⟩
    unfold payloadComplete
    rw [hrx, hreception, Option.bind_some, hheader, Option.map_some]
  rw [heq]
  by_cases hok : bodyOk h body = true
  · rw [if_pos hok, modBell_bell, hbell]
    exact ⟨rfl, fun _ => ⟨rfl, rfl⟩, fun hno => absurd hok hno⟩
  · rw [if_neg hok, modBell_bell, hbell]
    exact ⟨rfl, fun hyes => absurd hyes hok, fun _ => ⟨rfl, rfl⟩⟩

/-! ## Keeper requests (R356–R359) -/

/-- A request that fails is counted; the keys and the queue stay as they are. -/
theorem keeperFailed_counts (id reason counter : Nat) (s : State) :
    (keeperFailed id reason counter s).bell.authFail = (s.bell.authFail + 1) % 4294967296 ∧
    (keeperFailed id reason counter s).bell.keys = s.bell.keys ∧ (keeperFailed id reason counter s).bell.queue = s.bell.queue := by
  have hlog (c i : Nat) (l : List Nat) (t : State) : (submitLog c i l t).bell = t.bell := submitLog_only (Only.refl 8 t) rfl .bell rfl
  unfold keeperFailed
  extract_lets s1
  have h1 : s1.bell.authFail = (s.bell.authFail + 1) % 4294967296 ∧ s1.bell.keys = s.bell.keys ∧ s1.bell.queue = s.bell.queue := by
    unfold s1
    rw [hlog]
    exact ⟨rfl, rfl, rfl⟩
  clear_value s1
  split
  · rw [hlog]
    exact h1
  · exact h1

/-- An accepted request moves the counter of its keeper. -/
theorem acceptCounter_moves {id n : Nat} {k : KeeperKey} {s : State} (h : s.bell.keys.find? (fun z => z.id == id) = some k) :
    ((acceptCounter id n s).bell.keys.find? (fun z => z.id == id)).map (fun z => z.counter) = some n := by
  have hid (z : KeeperKey) : (if z.id ≠ id then z else if 64 ≤ z.since + 1 then { z with counter := n, stored := n, since := 0 }
      else { z with counter := n, since := z.since + 1 }).id = z.id := by
    split
    · rfl
    · split <;> rfl
  have hk : k.id = id := beq_iff_eq.mp (List.find?_some (p := fun z : KeeperKey => z.id == id) h)
  have hfind : (acceptCounter id n s).bell.keys.find? (fun z => z.id == id) = some (if k.id ≠ id then k
      else if 64 ≤ k.since + 1 then { k with counter := n, stored := n, since := 0 } else { k with counter := n, since := k.since + 1 }) := by
    unfold acceptCounter
    rw [modBell_bell]
    dsimp only
    rw [List.find?_map, Function.comp_def]
    simp only [hid, h]
    rfl
  rw [hfind, if_neg (not_not_intro hk), Option.map_some]
  split <;> rfl

theorem bellQueue_keys (x : BellTx) (s : State) : (bellQueue x s).bell.keys = s.bell.keys ∧ (bellQueue x s).bell.authFail = s.bell.authFail := by
  unfold bellQueue
  split <;> exact ⟨rfl, rfl⟩

/-- A service that only answers leaves the keys and the count of failures as they are. -/
theorem keeperService_keys {a : BellArrival} {k : KeeperKey} {p : List Byte} {s : State} (h : u8 p 10 ≤ 2) :
    (keeperService a k p s).bell.keys = s.bell.keys ∧ (keeperService a k p s).bell.authFail = s.bell.authFail := by
  have hqueue (start : Nat) (head : List Byte) (st : Status) (result : List Byte) (t : State) (ht : t.bell = s.bell) :
      (queueResponse a k.key start head st result t).bell.keys = s.bell.keys ∧
      (queueResponse a k.key start head st result t).bell.authFail = s.bell.authFail := by
    rw [← ht]
    exact bellQueue_keys _ t
  unfold keeperService
  extract_lets counter service args start head d wait r v
  split
  · exact hqueue _ _ _ _ s rfl
  · split
    · split
      · exact hqueue _ _ _ _ d.2 rfl
      · exact hqueue _ _ _ _ d.2 rfl
    · split
      · exact hqueue _ _ _ _ r.2 (readResult_only (Only.refl 262146 s) rfl .bell rfl)
      · split
        · exact hqueue _ _ _ _ s rfl
        · exact absurd h (by omega)

theorem keeperRequest_settles {a : BellArrival} {ok : Bool} {p : List Byte} {crc : Nat} {key : KeeperKey} {s : State}
    (hfind : s.bell.arrivals.find? (fun z => z.header.kind != 2) = some a) (hbody : a.body = .keeper ok p crc) (hkind : a.header.kind = 0)
    (htarget : keeperTarget p = true) (hlocked : s.bell.locked.any (fun z => z.1 == u16 p 0) = false) :
    (s.bell.keys.find? (fun z => z.id == u16 p 0) = none → (keeperRequest s).bell.authFail = (s.bell.authFail + 1) % 4294967296 ∧
      (keeperRequest s).bell.keys = s.bell.keys ∧ (keeperRequest s).bell.queue = s.bell.queue) ∧
    (s.bell.keys.find? (fun z => z.id == u16 p 0) = some key → keeperFault s a.header p = none → u8 p 10 ≤ 2 →
      ((keeperRequest s).bell.keys.find? (fun z => z.id == u16 p 0)).map (fun z => z.counter) = some (u32 p 2) ∧
      (keeperRequest s).bell.authFail = s.bell.authFail) := by
  obtain ⟨s0, hkeys, hfail, hqueue, heq⟩ : ∃ s0 : State, s0.bell.keys = s.bell.keys ∧ s0.bell.authFail = s.bell.authFail ∧
      s0.bell.queue = s.bell.queue ∧ keeperRequest s = match keeperFault s a.header p, s.bell.keys.find? (fun k => k.id == u16 p 0) with
        | none, some k => keeperService a k p (acceptCounter (u16 p 0) (u32 p 2) s0)
        | some reason, _ => keeperFailed (u16 p 0) reason (u32 p 2) s0
        | none, none => s0 := by
    refine ⟨s.modBell (fun b => { b with arrivals := b.arrivals.erase a }), rfl, rfl, rfl, ?_⟩
    unfold keeperRequest
    rw [hfind]
    dsimp only
    rw [hbody]
    dsimp only
    refine (if_neg ?_).trans ?_
    · rw [hkind, htarget, hlocked]
      decide
    · rfl
  rw [heq]
  refine ⟨fun hnone => ?_, fun hsome hpass hservice => ?_⟩
  · have hfault : keeperFault s a.header p = some 0 := by
      unfold keeperFault
      rw [hnone]
    rw [hfault]
    obtain ⟨h1, h2, h3⟩ := keeperFailed_counts (u16 p 0) 0 (u32 p 2) s0
    exact ⟨by rw [h1, hfail], h2.trans hkeys, h3.trans hqueue⟩
  · rw [hpass, hsome]
    obtain ⟨h1, h2⟩ := keeperService_keys (a := a) (k := key) (s := acceptCounter (u16 p 0) (u32 p 2) s0) hservice
    dsimp only
    rw [h1, h2]
    exact ⟨acceptCounter_moves (by rw [hkeys]; exact hsome), hfail⟩

/-! ## Chain packets and lockouts -/

theorem mem_hearNeighbour (n : Neighbour) (l : List Neighbour) : n ∈ hearNeighbour n l := by
  unfold hearNeighbour
  extract_lets others
  split
  · exact List.mem_append_right _ (List.mem_singleton_self _)
  · split
    · exact List.mem_append_right _ (List.mem_singleton_self _)
    · exact List.mem_singleton_self _

theorem chainPacketReceive_hears {a : BellArrival} {ok : Bool} {q : ChainPacket} {s : State}
    (hfind : s.bell.arrivals.find? (fun z => z.header.kind == 2) = some a) (hbody : a.body = .chain ok q) (hon : chainOn s = true)
    (hdst : q.dst = none) (hkind : q.kind = 0) : (chainPacketReceive s).bell.arrivals = s.bell.arrivals.erase a ∧
    ({ member := q.src, hops := q.hops, level := a.level, heard := a.end_ } : Neighbour) ∈ (chainPacketReceive s).bell.neighbours := by
  unfold chainPacketReceive
  rw [hfind]
  dsimp only
  rw [hbody]
  dsimp only
  rw [if_pos (by rw [hon, hdst]; rfl), chainPacket, if_pos hkind]
  exact ⟨rfl, mem_hearNeighbour ..⟩

theorem keeperLockoutExpiry_ends {k : Nat} {y : Nat × Nat} {s : State} (h : s.bell.locked.find? (fun z => z.1 == k) = some y) :
    (keeperLockoutExpiry k s).bell.locked = s.bell.locked.filter (fun z => z.1 != k) ∧
    (s.power ≠ .dormant → waited s (keeperLockoutExpiry k s) y.2) := by
  unfold keeperLockoutExpiry
  rw [h]
  dsimp only
  have hair (t : State) (f : BellState → BellState) : (t.modBell f).air = t.air := rfl
  rw [modBell_bell, show (waitUntil y.2 s).bell = s.bell from waitUntil_only (Only.refl 1 s) rfl .bell rfl, waited, hair]
  refine ⟨rfl, fun hpower => ?_⟩
  rw [waitUntil, if_neg hpower]
  exact advanceTo_waited y.2 s

/-- Settles O45: each clause is the row's effect on the reception or on its sender's place in the tables. -/
theorem bellLinkReceives : Obligations.BellLinkReceives := by
  unfold Obligations.BellLinkReceives
  intro s x hdr crc n k r h body a ok p key q y
  refine ⟨fun hsync hrx => ?_, fun hsync => ?_, fun hrx hreception => ?_, fun hrx hfrozen hn => ?_, fun hn => ?_, fun hrx hreception hheader => ?_,
    fun hfind hbody hkind htarget hlocked => ?_, fun hfind hbody hon hdst hkind => ?_, fun hfind => ?_⟩
  · refine runs_of_only (t := syncDetect x s) rfl execSyncDetect_only (by decide) ?_
    have hgo : ¬(syncDetected s x = false ∨ (!(s.bell.rx == .search || s.bell.second)) = true) := by
      rw [hsync, hrx]
      simp
    unfold syncDetect
    rw [if_neg hgo, hrx]
    exact ⟨rfl, rfl, rfl, rfl⟩
  · exact congrArg Host.Outcome.next (if_pos (Or.inl (Bool.eq_false_iff.mpr hsync)))
  · exact runs_of_only (t := headerComplete hdr crc s) rfl execHeaderComplete_only (by decide) (headerComplete_reads hrx hreception)
  · refine runs_of_only (t := clipCollision n s) rfl execClipCollision_only (by decide) ?_
    unfold clipCollision
    rw [if_pos ⟨hrx, hfrozen, hn⟩]
    exact ⟨rfl, rfl⟩
  · exact congrArg Host.Outcome.next (if_neg fun hc => absurd hc.2.2 (not_lt.mpr hn))
  · exact runs_of_only (t := payloadComplete body s) rfl execPayloadComplete_only (by decide) (payloadComplete_hands hrx hreception hheader)
  · exact runs_of_only (t := keeperRequest s) rfl execKeeperRequest_only (by decide)
      (keeperRequest_settles hfind hbody hkind htarget hlocked)
  · exact runs_of_only (t := chainPacketReceive s) rfl execChainPacketReceive_only (by decide)
      (chainPacketReceive_hears hfind hbody hon hdst hkind)
  · exact runs_of_only (t := keeperLockoutExpiry k s) rfl execKeeperLockoutExpiry_only (by decide) (keeperLockoutExpiry_ends hfind)

end Sys2Proof.Machine
end

section
set_option Elab.async false
/-! What the Bell link sends: packets, clear-channel attempts, calibration of SYN.BELL, and the chain's timers (R351–R364). -/

namespace Sys2Proof.Machine

open Sys2Proof

/-! ## Packets -/

theorem sendPacket_sends (x : BellTx) (s : State) : (sendPacket x s).bell.rx = .transmit ∧ (sendPacket x s).bell.sending.map (fun z => z.1) = some x :=
  ⟨rfl, rfl⟩

theorem ccaAttempt_clear {x : BellTx} {level : Int} {s : State} (h : level < s.bell.config.ccaLevel) : ccaAttempt x level s = sendPacket x s :=
  if_pos h

theorem ccaAttempt_busy {x : BellTx} {level : Int} {s : State} (hlevel : s.bell.config.ccaLevel ≤ level) (hleft : x.attempts < 7) :
    (ccaAttempt x level s).bell.sending = s.bell.sending ∧ (ccaAttempt x level s).bell.ccaDefer = s.bell.ccaDefer + 1 := by
  unfold ccaAttempt
  rw [if_neg (not_lt.mpr hlevel), if_neg (by omega)]
  exact ⟨rfl, rfl⟩

theorem sending_of_txFree {s : State} (h : txFree s = true) : s.bell.sending = none := by
  simp only [txFree, Bool.and_eq_true] at h
  exact Option.isNone_iff_eq_none.mp h.1.1.1.2

theorem bellTxStart_starts {level : Int} {x : BellTx} {s : State} (hfree : txFree s = true) (hnext : nextToSend s = some x) :
    (isResponse x → (bellTxStart level s).bell.rx = .transmit ∧ (bellTxStart level s).bell.sending.map (fun z => z.1) = some x) ∧
    (¬isResponse x → x.ccaUntil = none → level < s.bell.config.ccaLevel →
      (bellTxStart level s).bell.rx = .transmit ∧ (bellTxStart level s).bell.sending.map (fun z => z.1) = some x) ∧
    (¬isResponse x → x.ccaUntil = none → s.bell.config.ccaLevel ≤ level → x.attempts < 7 →
      (bellTxStart level s).bell.sending = none ∧ (bellTxStart level s).bell.ccaDefer = s.bell.ccaDefer + 1) := by
  have heq : bellTxStart level s = if isResponse x then sendPacket x s else if x.ccaUntil.isSome then s else ccaAttempt x level s := by
    unfold bellTxStart
    rw [if_neg (by rw [hfree]; decide), hnext]
  rw [heq]
  refine ⟨fun hresponse => ?_, fun hchain hidle hlevel => ?_, fun hchain hidle hlevel hleft => ?_⟩
  · rw [if_pos hresponse]
    exact sendPacket_sends x s
  · rw [if_neg hchain, if_neg (by rw [hidle]; decide), ccaAttempt_clear hlevel]
    exact sendPacket_sends x s
  · rw [if_neg hchain, if_neg (by rw [hidle]; decide), (ccaAttempt_busy hlevel hleft).1, (ccaAttempt_busy hlevel hleft).2]
    exact ⟨sending_of_txFree hfree, rfl⟩

/-- Whether the transmitter is free is no matter of the time or of what waits in the queue. -/
theorem txFree_modBell_queue (f : BellState → List BellTx) (s : State) : txFree (s.modBell (fun b => { b with queue := f b })) = txFree s := rfl

theorem txFree_advanceTo (k : Nat) (s : State) : txFree (advanceTo k s) = txFree s := by
  unfold txFree bellTempMoved bellTemp
  rw [advanceTo_keeps_sys, advanceTo_keeps_bell, advanceTo_keeps_rf, advanceTo_keeps_hk]

theorem maySend_advanceTo (k : Nat) (s : State) (b : Bool) : maySend (advanceTo k s) b = maySend s b := by
  unfold maySend halted
  rw [advanceTo_keeps_sys, advanceTo_keeps_fault]

theorem ccaAttempt_air (x : BellTx) (level : Int) (s : State) : (ccaAttempt x level s).air = s.air :=
  ccaAttempt_only (Only.refl 294912 s) rfl .air rfl

theorem ccaRetry_tries {level : Int} {x : BellTx} {k : Nat} {s : State} (hfind : s.bell.queue.find? (fun z => !isResponse z) = some x)
    (hwait : x.ccaUntil = some k) : waited s (ccaRetry level s) k ∧
    (txFree s → maySend s true → level < s.bell.config.ccaLevel → (ccaRetry level s).bell.rx = .transmit) := by
  unfold ccaRetry
  rw [hfind]
  dsimp -zeta only
  rw [hwait]
  dsimp -zeta only
  extract_lets s1
  have hair : s1.air = (advanceTo k s).air := modBell_air ..
  have hfree : txFree s1 = txFree s := (txFree_modBell_queue _ (advanceTo k s)).trans (txFree_advanceTo k s)
  have hmay : maySend s1 true = maySend s true := maySend_advanceTo k s true
  have hlevel : s1.bell.config = s.bell.config := by
    unfold s1
    rw [modBell_bell, advanceTo_keeps_bell]
  clear_value s1
  refine ⟨?_, fun htx hsend hclear => ?_⟩
  · have hpass : (if (txFree s1 && maySend s1 true) = true then ccaAttempt { x with ccaUntil := none } level s1 else s1).air = s1.air := by
      split
      · exact ccaAttempt_air ..
      · rfl
    rw [waited, hpass, hair]
    exact advanceTo_waited k s
  · rw [if_pos (by rw [hfree, hmay, htx, hsend]; rfl), ccaAttempt_clear (by rw [hlevel]; exact hclear)]
    rfl

/-! ## The end of a transmission (R351, R355, R364) -/

/-- A disable that waits for the transmission takes the link off the air, which keeps the time and what is latched. -/
theorem disabled_link {t u : State} (h : (u = bellOff t) ∨ (u = t)) (hsending : t.bell.sending = none) :
    u.bell.sending = none ∧ u.bell.packets = t.bell.packets ∧ u.air = t.air ∧ u.fault = t.fault := by
  obtain rfl | rfl := h
  · obtain ⟨-, -, hoff, hpackets⟩ := bellOff_link t
    exact ⟨hoff, hpackets, bellOff_only (Only.refl 32802 t) rfl .air rfl, bellOff_only (Only.refl 32802 t) rfl .fault rfl⟩
  · exact ⟨hsending, rfl, rfl, rfl⟩

theorem bellTxEnd_ends {x : BellTx} {a e : Nat} {b : Bool} {s : State} (h : s.bell.sending = some (x, a, e)) :
    (bellTxEnd b s).bell.sending = none ∧ waited s (bellTxEnd b s) (e + tcOfUs 20) ∧ (bellTxEnd b s).bell.packets = s.bell.packets + 1 ∧
    (¬b → ∃ y z, (bellTxEnd b s).fault.latched = s.fault.latched ++ [.raise y, z] ∧ y.cls = 0xA0) := by
  unfold bellTxEnd
  rw [h]
  dsimp -zeta only
  extract_lets s1 s2 s3
  have hwait : waited s s1 (e + tcOfUs 20) := advanceTo_waited ..
  have hbell : s1.bell = s.bell := advanceTo_keeps_bell
  have hfault : s1.fault = s.fault := advanceTo_keeps_fault
  clear_value s1
  have h2 : s2.bell.sending = none ∧ s2.bell.packets = s.bell.packets + 1 ∧ s2.air = s1.air ∧ s2.fault = s1.fault := by
    unfold s2
    rw [modBell_bell, modBell_air, modBell_fault, hbell]
    exact ⟨rfl, rfl, rfl, rfl⟩
  clear_value s2
  have h3 : s3.bell = s2.bell ∧ s3.air = s2.air ∧
      (¬b → ∃ y z, s3.fault.latched = s2.fault.latched ++ [.raise y, z] ∧ y.cls = 0xA0) := by
    unfold s3
    split
    next hb => exact ⟨rfl, rfl, fun hn => absurd hb hn⟩
    next =>
      obtain ⟨y, z, hlatched, hcls, -⟩ := raisedOnce_raiseMoment { cls := 0xA0, unit := bellUnit, detail4 := 3 } s2
      exact ⟨raiseMoment_only (Only.refl 4 s2) rfl .bell rfl, raiseMoment_only (Only.refl 4 s2) rfl .air rfl, fun _ => ⟨y, z, hlatched, hcls⟩⟩
  clear_value s3
  obtain ⟨hsending, hpackets, hair2, hfault2⟩ := h2
  obtain ⟨hbell3, hair3, hraise⟩ := h3
  have hlink := disabled_link (t := s3) (u := if s3.bell.disabling.isSome then bellOff s3 else s3) (by split <;> simp) (by rw [hbell3, hsending])
  obtain ⟨hoff, hcount, hair4, hfault4⟩ := hlink
  rw [hoff, hcount, waited, hair4, hfault4, hair3, hair2, hbell3]
  refine ⟨rfl, hwait, hpackets, fun hb => ?_⟩
  obtain ⟨y, z, hlatched, hcls⟩ := hraise hb
  exact ⟨y, z, by rw [hlatched, hfault2, hfault], hcls⟩

theorem bellTxWatchdog_stops {x : BellTx} {a e : Nat} {s : State} (h : s.bell.sending = some (x, a, e)) :
    (bellTxWatchdog s).bell.sending = none ∧ waited s (bellTxWatchdog s) (a + tcOfMs 100) ∧
    ∃ y z, (bellTxWatchdog s).fault.latched = s.fault.latched ++ [.raise y, z] ∧ y.cls = 0xA0 := by
  unfold bellTxWatchdog
  rw [h]
  dsimp -zeta only
  extract_lets s1 s2
  have h1 : s1.bell.sending = none ∧ s1.air = (advanceTo (a + tcOfMs 100) s).air ∧ s1.fault = s.fault := by
    unfold s1
    rw [modBell_bell, modBell_air, modBell_fault]
    exact ⟨rfl, rfl, advanceTo_keeps_fault⟩
  clear_value s1
  obtain ⟨y, z, hlatched, hcls, -⟩ := raisedOnce_raiseMoment { cls := 0xA0, unit := bellUnit, detail4 := 2 } s1
  have h2 : s2.bell = s1.bell ∧ s2.air = s1.air :=
    ⟨raiseMoment_only (Only.refl 4 s1) rfl .bell rfl, raiseMoment_only (Only.refl 4 s1) rfl .air rfl⟩
  change s2.fault.latched = _ at hlatched
  clear_value s2
  obtain ⟨hoff, -, hair, hfault⟩ := disabled_link (t := s2) (u := if s2.bell.disabling.isSome then bellOff s2 else s2) (by split <;> simp)
    (by rw [h2.1, h1.1])
  rw [hoff, waited, hair, hfault, h2.2, h1.2.1]
  exact ⟨rfl, advanceTo_waited (a + tcOfMs 100) s, y, z, by rw [hlatched, h1.2.2], hcls⟩

/-! ## Responses (R352, R357) -/

theorem settleResponse_air (x : BellTx) (w : KeeperWait) (s : State) : (settleResponse x w s).air = s.air :=
  settleResponse_only (Only.refl 32768 s) rfl .air rfl

theorem keeperResponseDue_waits {x : BellTx} {k : Nat} {s : State} (h : nextDue s = some (x, k)) :
    waited s (keeperResponseDue s) k ∧ (x.waiting = none → (keeperResponseDue s).bell.queue = s.bell.queue) := by
  unfold keeperResponseDue
  rw [h]
  dsimp -zeta only
  extract_lets s1
  have hwait : waited s s1 k := advanceTo_waited ..
  have hbell : s1.bell = s.bell := advanceTo_keeps_bell
  clear_value s1
  cases hx : x.waiting with
  | some w =>
    dsimp only
    rw [waited, settleResponse_air]
    exact ⟨hwait, fun hnone => absurd hnone (Option.some_ne_none w)⟩
  | none => exact ⟨hwait, fun _ => congrArg BellState.queue hbell⟩

/-! ## SYN.BELL (R354) -/

theorem completes_keep {l : List Ticket} {st : Status} {s : State} :
    (l.foldl (fun acc t => complete t st 0 acc) s).bell = s.bell ∧ (l.foldl (fun acc t => complete t st 0 acc) s).rf = s.rf ∧
    (l.foldl (fun acc t => complete t st 0 acc) s).fault = s.fault :=
  ⟨foldl_keeps (f := fun acc t => complete t st 0 acc) (fun u => u.bell) (fun _ _ => complete_keeps_bell) l s,
    foldl_keeps (f := fun acc t => complete t st 0 acc) (fun u => u.rf) (fun u _ => complete_only (Only.refl 2 u) rfl .rf rfl) l s,
    foldl_keeps (f := fun acc t => complete t st 0 acc) (fun u => u.fault) (fun u _ => complete_only (Only.refl 2 u) rfl .fault rfl) l s⟩

theorem synBellLock_locks {s : State} (h : s.rf.bellCal = true) : (synBellLock true s).bell.rx = .search ∧
    (synBellLock true s).rf.bellLocked = true ∧ (synBellLock true s).rf.bellCal = false ∧ (synBellLock true s).bell.enabling = [] := by
  unfold synBellLock
  rw [if_neg (by rw [h]; decide), if_pos rfl]
  extract_lets s1
  have h1 : s1.bell.rx = .search ∧ s1.rf.bellLocked = true ∧ s1.rf.bellCal = false ∧ s1.bell.enabling = [] := ⟨rfl, rfl, rfl, rfl⟩
  clear_value s1
  obtain ⟨hbell, hrf, -⟩ := completes_keep (l := s.bell.enabling ++ s.rf.bellRuns) (st := .ok) (s := s1)
  rw [hbell, hrf]
  exact h1

theorem synBellLock_fails {s : State} (h : s.rf.bellCal = true) : (synBellLock false s).rf.bellRuns = [] ∧
    ∃ y z, (synBellLock false s).fault.latched = s.fault.latched ++ [.raise y, z] ∧ y.cls = 0xA0 := by
  unfold synBellLock
  rw [if_neg (by rw [h]; decide), if_neg Bool.false_ne_true]
  have hruns : (s.modRf (fun r => { r with bellRuns := [] })).rf.bellRuns = [] := rfl
  have hfault : (s.modRf (fun r => { r with bellRuns := [] })).fault = s.fault := rfl
  generalize s.modRf (fun r => { r with bellRuns := [] }) = s1 at hruns hfault
  obtain ⟨y, z, hlatched, hcls, -⟩ := raisedOnce_raiseMoment { cls := 0xA0, unit := bellUnit, detail4 := 1 } s1
  obtain ⟨-, hrf, hkeep⟩ := completes_keep (l := s.rf.bellRuns) (st := .eIntegrity)
    (s := raiseMoment { cls := 0xA0, unit := bellUnit, detail4 := 1 } s1)
  rw [hrf, hkeep, raiseMoment_only (Only.refl 4 s1) rfl .rf rfl]
  exact ⟨hruns, y, z, by rw [hlatched, hfault], hcls⟩

/-! ## The chain's timers (R360, R361) -/

theorem bellQueue_keeps {β : Type} (g : BellState → β) (x : BellTx) (s : State)
    (hg : ∀ (b : BellState) q n d, g { b with queue := q, seq := n, dropped := d } = g b := by exact fun _ _ _ _ => rfl) :
    g (bellQueue x s).bell = g s.bell := by
  unfold bellQueue
  split
  · exact hg s.bell s.bell.queue s.bell.seq _
  · exact hg s.bell _ _ s.bell.dropped

theorem queueChain_keeps {β : Type} (g : BellState → β) (p : ChainPacket) (s : State)
    (hg : ∀ (b : BellState) q n d, g { b with queue := q, seq := n, dropped := d } = g b := by exact fun _ _ _ _ => rfl) :
    g (queueChain p s).bell = g s.bell := by
  unfold queueChain
  split
  · extract_lets l
    exact bellQueue_keeps g _ _ hg
  · rfl

theorem queueChain_air (p : ChainPacket) (s : State) : (queueChain p s).air = s.air := queueChain_only (Only.refl 294912 s) rfl .air rfl

/-- A timer of the chain has run: time has passed to its instant, and it is due again one interval on. -/
theorem timer_runs {s t : State} {k d n : Nat} (hair : t.air = (advanceTo k s).air) (hat : n = now (advanceTo k s) + d) :
    waited s t k ∧ n = t.now + d := by
  rw [waited, State.now.eq_1, hair]
  exact ⟨advanceTo_waited k s, hat⟩

theorem chainHelloTimer_runs {s : State} (hon : chainOn s = true) : waited s (chainHelloTimer s) s.bell.helloAt ∧
    (chainHelloTimer s).bell.helloAt = (chainHelloTimer s).now + tcOfMs s.bell.chain.helloInt := by
  obtain ⟨p, heq⟩ : ∃ p, chainHelloTimer s = queueChain p ((advanceTo s.bell.helloAt s).modBell (fun b =>
      { b with helloAt := now (advanceTo s.bell.helloAt s) + tcOfMs b.chain.helloInt })) := by
    refine ⟨chainFrom (advanceTo s.bell.helloAt s) none 0 [] [], ?_⟩
    unfold chainHelloTimer
    exact if_pos hon
  refine timer_runs ?_ ?_
  · rw [heq, queueChain_air, modBell_air]
  · rw [heq, queueChain_keeps BellState.helloAt, modBell_bell, advanceTo_keeps_bell]

theorem chainStatusTimer_runs {s : State} (hon : chainOn s = true) : waited s (chainStatusTimer s) s.bell.statusAt ∧
    (chainStatusTimer s).bell.statusAt = (chainStatusTimer s).now + tcOfMs s.bell.chain.statusInt := by
  have hkeeps : (chainStatusTimer s).air = (advanceTo s.bell.statusAt s).air ∧
      (chainStatusTimer s).bell.statusAt = now (advanceTo s.bell.statusAt s) + tcOfMs s.bell.chain.statusInt := by
    unfold chainStatusTimer
    rw [if_pos hon]
    extract_lets s1 s2 f all
    have h2 : s2.air = s1.air ∧ s2.bell.statusAt = now s1 + tcOfMs s.bell.chain.statusInt := by
      unfold s2
      rw [modBell_bell, modBell_air, show s1.bell = s.bell from advanceTo_keeps_bell]
      exact ⟨rfl, rfl⟩
    clear_value s2
    split
    · rw [queueChain_air, queueChain_keeps BellState.statusAt, modBell_air, modBell_bell]
      exact h2
    · exact h2
  exact timer_runs hkeeps.1 hkeeps.2

theorem chainAckTimeout_gives_up {x : BellTx} {k : Nat} {s : State} (h : s.bell.awaiting = some (x, k)) :
    (chainAckTimeout s).bell.awaiting = none ∧ waited s (chainAckTimeout s) k ∧
    (x.resends < s.bell.chain.retries → s.bell.queue.length < 16 → (chainAckTimeout s).bell.queue.length = s.bell.queue.length + 1) := by
  unfold chainAckTimeout
  rw [h]
  dsimp -zeta only
  extract_lets s1
  have h1 : s1.bell.awaiting = none ∧ s1.bell.queue = s.bell.queue ∧ s1.air = (advanceTo k s).air := by
    unfold s1
    rw [modBell_bell, modBell_air, advanceTo_keeps_bell]
    exact ⟨rfl, rfl, rfl⟩
  clear_value s1
  obtain ⟨hawaiting, hqueue, hair⟩ := h1
  have hwait : waited s s1 k := by
    rw [waited, hair]
    exact advanceTo_waited k s
  by_cases hleft : x.resends < s.bell.chain.retries
  · rw [if_pos hleft, bellQueue_keeps BellState.awaiting, waited, bellQueue_only (Only.refl 32768 s1) rfl .air rfl]
    refine ⟨hawaiting, hwait, fun _ hroom => ?_⟩
    unfold bellQueue
    rw [if_neg (by rw [hqueue]; omega), modBell_bell]
    dsimp only
    rw [List.length_append, hqueue]
    rfl
  · rw [if_neg hleft]
    refine ⟨?_, ?_, fun hr => absurd hr hleft⟩
    · split
      · exact hawaiting
      · exact hawaiting
    · split
      · exact hwait
      · exact hwait

/-- Settles O46: each clause is the row's effect on the transmitter, on SYN.BELL or on the chain's tables. -/
theorem bellLinkTransmits : Obligations.BellLinkTransmits := by
  unfold Obligations.BellLinkTransmits
  intro s level x k e a b n
  refine ⟨fun hfree hnext => ?_, fun hfree => ?_, fun hfind hwait => ?_, fun hsending => ⟨?_, ?_⟩, fun hfind => ?_, fun hdue => ?_,
    fun hrx hqueue hcal => ?_, fun hrx => ?_, fun hcal => ⟨?_, ?_⟩, fun hresume => ?_, fun hon => ⟨?_, ?_⟩, fun hoff => ⟨?_, ?_⟩,
    fun hfind => ?_, fun hawaiting => ?_⟩
  · exact runs_of_only (t := bellTxStart level s) rfl execBellTxStart_only (by decide) (bellTxStart_starts hfree hnext)
  · exact congrArg Host.Outcome.next (if_pos (Bool.eq_false_iff.mpr hfree))
  · exact runs_of_only (t := ccaRetry level s) rfl execCcaRetry_only (by decide) (ccaRetry_tries hfind hwait)
  · exact runs_of_only (t := bellTxEnd b s) rfl execBellTxEnd_only (by decide) (bellTxEnd_ends hsending)
  · exact runs_of_only (t := bellTxWatchdog s) rfl execBellTxWatchdog_only (by decide) (bellTxWatchdog_stops hsending)
  · refine runs_of_only (t := keeperResponseExpiry s) rfl execKeeperResponseExpiry_only (by decide) ?_
    unfold keeperResponseExpiry
    rw [hfind]
    dsimp only
    rw [modBell_bell, advanceTo_keeps_bell, waited, modBell_air]
    exact ⟨rfl, advanceTo_waited (x.start + tcOfMs 10) s, fun z hz => bne_iff_ne.mp (List.mem_filter.mp hz).2⟩
  · exact runs_of_only (t := keeperResponseDue s) rfl execKeeperResponseDue_only (by decide) (keeperResponseDue_waits hdue)
  · refine runs_of_only (t := synBellCalStart s) rfl execSynBellCalStart_only (by decide) ?_
    unfold synBellCalStart
    rw [if_pos ⟨hrx, by rw [hqueue]; rfl, hcal⟩]
    exact ⟨rfl, rfl, Bool.false_ne_true⟩
  · exact congrArg Host.Outcome.next (if_neg fun hc => hrx hc.1)
  · obtain ⟨hrx, hlocked, hdone, henabling⟩ := synBellLock_locks hcal
    exact runs_of_only (t := synBellLock true s) rfl execSynBellLock_only (by decide) ⟨hrx, hlocked, Bool.eq_false_iff.mp hdone, henabling⟩
  · exact runs_of_only (t := synBellLock false s) rfl execSynBellLock_only (by decide) (synBellLock_fails hcal)
  · refine runs_of_only (t := bellTxResume s) rfl execBellTxResume_only (by decide) ?_
    unfold bellTxResume
    rw [hresume]
    dsimp only
    rw [waited, modBell_air, modBell_bell]
    exact ⟨Bool.false_ne_true, rfl, advanceTo_waited k s⟩
  · exact runs_of_only (t := chainHelloTimer s) rfl execChainHelloTimer_only (by decide) (chainHelloTimer_runs hon)
  · exact runs_of_only (t := chainStatusTimer s) rfl execChainStatusTimer_only (by decide) (chainStatusTimer_runs hon)
  · exact congrArg Host.Outcome.next (if_neg hoff)
  · exact congrArg Host.Outcome.next (if_neg hoff)
  · refine runs_of_only (t := neighbourExpiry k s) rfl execNeighbourExpiry_only (by decide) ?_
    unfold neighbourExpiry reviewRelay
    rw [hfind]
    dsimp only
    rw [modBell_bell, modBell_bell, waited, modBell_air, modBell_air, advanceTo_keeps_bell]
    exact ⟨rfl, advanceTo_waited (n.heard + 3 * tcOfMs s.bell.chain.helloInt) s⟩
  · exact runs_of_only (t := chainAckTimeout s) rfl execChainAckTimeout_only (by decide) (chainAckTimeout_gives_up hawaiting)

end Sys2Proof.Machine
end

section
set_option Elab.async false
/-! # O48: the fault commands

An acknowledgement or a release only loosens: entries, actions and pens leave and none comes, and an entry that stays keeps its
handle and its class. -/

namespace Sys2Proof.Machine

open Sys2Proof

/-! ## PADDOCK and released pens keep the other pens -/

theorem enterPaddock_pens (u : UnitId) (s : State) : (enterPaddock u s).fault.pens = s.fault.pens := by
  have hrealign (d : Dir) (n : Nat) (x : State) : (realign d n x).fault.pens = x.fault.pens := by
    rw [← pens_others, realign_others, pens_others]
  have hrestart (e : Nat) (x : State) : (restartLoop e (some .paddock) false x).fault.pens = x.fault.pens := by
    rw [← pens_others, restartLoop_others, pens_others]
  have hband (d : Dir) (n : Nat) (f : BandPath → BandPath) (x : State) : (modBand d n f x).fault.pens = x.fault.pens :=
    congrArg FaultState.pens (modBand_fault ..)
  unfold enterPaddock
  extract_lets l s1
  rw [show (seekAdmission _).fault = _ from seekAdmission_only (Only.refl 274560 _) rfl .fault rfl, refreshGains_pens]
  refine foldl_keeps (fun t => t.fault.pens) (fun acc v => ?_) l s1
  split
  · dsimp only
    split
    · exact (ite_keeps (fun t => t.fault.pens) (hrealign ..)).trans (hrestart ..)
    · exact hrestart ..
  · dsimp only
    split
    · exact (ite_keeps (fun t => t.fault.pens) (hrealign ..)).trans (hband ..)
    · exact hband ..
  all_goals rfl

theorem unpenned_pens (s : State) (u : UnitId) : (unpenned s u).fault.pens = s.fault.pens := by
  unfold unpenned
  split
  · exact (congrArg FaultState.pens (choosePath_only (Only.refl 266240 _) rfl .fault rfl)).trans rfl
  · split
    · exact foldl_keeps (fun t => t.fault.pens) (fun _ _ => enterPaddock_pens ..) _ s
    · exact ite_keeps (fun t => t.fault.pens) (enterPaddock_pens ..)

theorem dropPens_pens (f : Pen → Bool) (s : State) : (dropPens f s).fault.pens = s.fault.pens.filter (fun p => !f p) := by
  unfold dropPens
  extract_lets units s1
  split
  · next hnone =>
    have hseen (l : List Pen) (us : List UnitId) (hus : us ≠ []) :
        l.foldl (fun acc p => if acc.contains p.unit then acc else acc ++ [p.unit]) us ≠ [] := by
      induction l generalizing us with
      | nil => exact hus
      | cons p l ih =>
        refine ih _ ?_
        dsimp only
        split
        · exact hus
        · exact List.append_ne_nil_of_right_ne_nil _ (List.cons_ne_nil _ _)
    have hempty : s.fault.pens.filter f = [] := by
      unfold units at hnone
      cases hl : s.fault.pens.filter f with
      | nil => rfl
      | cons p l =>
        rw [hl] at hnone
        exact absurd (List.isEmpty_iff.mp hnone) (hseen l [p.unit] (List.cons_ne_nil _ _))
    refine (List.filter_eq_self.mpr fun p hp => ?_).symm
    rw [List.filter_eq_nil_iff] at hempty
    simpa using hempty p hp
  · exact (refreshGains_pens _).trans (foldl_keeps (fun t => t.fault.pens) (fun _ _ => unpenned_pens ..) _ s1)

theorem dropActions_actions (f : OwnAction → Bool) (s : State) :
    (dropActions f s).fault.actions = s.fault.actions.filter (fun a => !f a) ∧ (dropActions f s).fault.entries = s.fault.entries ∧
    (dropActions f s).fault.pens = s.fault.pens := by
  unfold dropActions
  extract_lets gone rest s1 pairs
  have h1 : s1.fault = { s.fault with actions := rest } := foldl_keeps State.fault undoAtten_fault _ _
  have h2 := foldl_keeps (fun t : State => t.fault.others) (fun t (p : Nat × UnitId) => undoOwn_others p.1 p.2 t)
    (pairs.filter (fun p => !rest.any (fun a => a.cls == p.1 && a.unit == p.2))) s1
  rw [h1] at h2
  exact ⟨(congrArg FaultState.actions h2 :), (congrArg FaultState.entries h2 :), (congrArg FaultState.pens h2 :)⟩

/-! ## What only loosens -/

/-- Actions and pens leave and none comes; an entry that is there was there, under its handle and its class, and is ACKED if it
was. -/
structure Loosens (s t : State) : Prop where
  actions : ∀ a ∈ t.fault.actions, a ∈ s.fault.actions
  pens : ∀ p ∈ t.fault.pens, p ∈ s.fault.pens
  entries : ∀ e ∈ t.fault.entries, ∃ x ∈ s.fault.entries, x.handle = e.handle ∧ x.cls = e.cls ∧ (x.acked = true → e.acked = true)

theorem Loosens.refl (s : State) : Loosens s s := ⟨fun _ h => h, fun _ h => h, fun e h => ⟨e, h, rfl, rfl, id⟩⟩

theorem Loosens.trans {s t u : State} (h : Loosens s t) (k : Loosens t u) : Loosens s u := by
  refine ⟨fun a ha => h.actions a (k.actions a ha), fun p hp => h.pens p (k.pens p hp), fun e he => ?_⟩
  obtain ⟨x, hx, hxh, hxc, hxa⟩ := k.entries e he
  obtain ⟨y, hy, hyh, hyc, hya⟩ := h.entries x hx
  exact ⟨y, hy, hyh.trans hxh, hyc.trans hxc, hxa ∘ hya⟩

theorem Loosens.of_entries {s t : State} (ha : t.fault.actions = s.fault.actions) (hp : t.fault.pens = s.fault.pens)
    (he : ∀ e ∈ t.fault.entries, ∃ x ∈ s.fault.entries, x.handle = e.handle ∧ x.cls = e.cls ∧ (x.acked = true → e.acked = true)) :
    Loosens s t := ⟨fun _ h => ha ▸ h, fun _ h => hp ▸ h, he⟩

theorem loosens_modEntry {g : FaultEntry → FaultEntry} (h : Nat)
    (hg : ∀ e, (g e).handle = e.handle ∧ (g e).cls = e.cls ∧ (e.acked = true → (g e).acked = true)) (s : State) :
    Loosens s (modEntry h g s) := by
  refine .of_entries rfl rfl fun e he => ?_
  obtain ⟨x, hx, rfl⟩ := List.mem_map.mp he
  refine ⟨x, hx, ?_⟩
  split
  · exact ⟨(hg x).1.symm, (hg x).2.1.symm, (hg x).2.2⟩
  · exact ⟨rfl, rfl, id⟩

theorem loosens_dropActions (f : OwnAction → Bool) (s : State) : Loosens s (dropActions f s) := by
  obtain ⟨ha, he, hp⟩ := dropActions_actions f s
  refine ⟨fun a h => ?_, fun p h => hp ▸ h, fun e h => ⟨e, he ▸ h, rfl, rfl, id⟩⟩
  rw [ha] at h
  exact List.mem_of_mem_filter h

theorem loosens_dropPens (f : Pen → Bool) (s : State) : Loosens s (dropPens f s) := by
  have hbooks := dropPens_books f s
  have ha : (dropPens f s).fault.actions = s.fault.actions := (congrArg (fun x => x.2.2) hbooks :)
  have he : (dropPens f s).fault.entries = s.fault.entries := (congrArg (fun x => x.2.1) hbooks :)
  refine ⟨fun a h => ha ▸ h, fun p h => ?_, fun e h => ⟨e, he ▸ h, rfl, rfl, id⟩⟩
  rw [dropPens_pens] at h
  exact List.mem_of_mem_filter h

theorem loosens_releaseHandle (h : Nat) (s : State) : Loosens s (releaseHandle h s) :=
  ((loosens_modEntry h (g := fun e => { e with reaction := false }) (fun _ => ⟨rfl, rfl, id⟩) s).trans
    (loosens_dropActions ..)).trans (loosens_dropPens ..)

theorem loosens_reviewEntry (h : Nat) (s : State) : Loosens s (reviewEntry h s) := by
  unfold reviewEntry
  split
  · exact .refl s
  · split
    · exact .refl s
    · extract_lets s1
      have h1 : Loosens s s1 := by
        unfold s1
        split
        · exact loosens_releaseHandle ..
        · exact .refl s
      split
      · exact h1.trans (.of_entries rfl rfl fun e he => ⟨e, List.mem_of_mem_filter he, rfl, rfl, id⟩)
      · exact h1

/-- The state in which an acknowledged entry is reviewed. -/
def ackNoted (s : State) (e : FaultEntry) : State :=
  submitFault 0xF1 (sourceIndex (classSubsystem e.cls) e.unit.index) e.severity 0
    [unitCode e.unit, 0, 0, e.handle, e.cls] (modEntry e.handle (fun x => { x with acked := true }) s)

theorem ackEntry_of_not_acked {e : FaultEntry} (h : e.acked = false) (s : State) :
    ackEntry s e = reviewEntry e.handle (ackNoted s e) := by
  unfold ackEntry
  exact if_neg (by rw [h]; exact Bool.false_ne_true)

theorem loosens_ackNoted (s : State) (e : FaultEntry) : Loosens s (ackNoted s e) :=
  (loosens_modEntry e.handle (g := fun x => { x with acked := true }) (fun _ => ⟨rfl, rfl, fun _ => rfl⟩) s).trans
    (.of_entries rfl rfl fun x hx => ⟨x, hx, rfl, rfl, id⟩)

theorem loosens_ackEntry (s : State) (e : FaultEntry) : Loosens s (ackEntry s e) := by
  cases h : e.acked with
  | true =>
    have hsame : ackEntry s e = s := if_pos h
    rw [hsame]
    exact .refl s
  | false =>
    rw [ackEntry_of_not_acked h]
    exact (loosens_ackNoted s e).trans (loosens_reviewEntry ..)

theorem loosens_acks (l : List FaultEntry) (s : State) : Loosens s (l.foldl ackEntry s) := by
  induction l generalizing s with
  | nil => exact .refl s
  | cons e l ih => exact (loosens_ackEntry s e).trans (ih _)

/-- The entries that stay under the handle of an acknowledged one are ACKED. -/
theorem ackEntry_acks {e : FaultEntry} (h : e.acked = false) (s : State) :
    ∀ x ∈ (ackEntry s e).fault.entries, x.handle = e.handle → x.acked = true := by
  rw [ackEntry_of_not_acked h]
  intro x hx hh
  obtain ⟨y, hy, hyh, -, hya⟩ := (loosens_reviewEntry ..).entries x hx
  refine hya ?_
  obtain ⟨z, -, rfl⟩ := List.mem_map.mp hy
  by_cases hz : z.handle = e.handle
  · rw [if_pos hz]
  · rw [if_neg hz] at hyh
    exact absurd (hyh.trans hh) hz

theorem acks_ack {e : FaultEntry} {l : List FaultEntry} (h : e.acked = false) (he : e ∈ l) (s : State) :
    ∀ x ∈ (l.foldl ackEntry s).fault.entries, x.handle = e.handle → x.acked = true := by
  refine foldl_reaches (f := ackEntry) (P := fun t => ∀ x ∈ t.fault.entries, x.handle = e.handle → x.acked = true)
    (ackEntry_acks h) (fun t y ht x hx hh => ?_) he s
  obtain ⟨z, hz, hzh, -, hza⟩ := (loosens_ackEntry t y).entries x hx
  exact hza (ht z hz (hzh.trans hh))

/-- What a walk acknowledges of the table: an entry that stays is ACKED where it was among the selected. -/
theorem selected_acked {sel : FaultEntry → Bool} (hsel : ∀ x y, x.handle = y.handle → x.cls = y.cls → sel x = sel y) (s : State) :
    ∀ e ∈ ((s.fault.entries.filter (fun e => !e.acked && sel e)).foldl ackEntry s).fault.entries, sel e = true → e.acked = true := by
  intro e he hs
  obtain ⟨x, hx, hxh, hxc, hxa⟩ := (loosens_acks ..).entries e he
  cases hacked : x.acked with
  | true => exact hxa hacked
  | false =>
    have hmem : x ∈ s.fault.entries.filter (fun e => !e.acked && sel e) :=
      List.mem_filter.mpr ⟨hx, by rw [hacked, hsel x e hxh hxc, hs]; rfl⟩
    exact acks_ack hacked hmem s e he hxh.symm

/-! ## The commands -/

theorem faultPolicy_does (r : HostRequest) (s : State) : Does 0x0E02 .faultPolicy r s [.fault] fun t =>
    t.fault.faultNLevel = r.u8 0 ∧ t.fault.ffLevel = r.u8 1 ∧ t.fault.faultN = faultNLow t := by
  refine does_of_only rfl rfl specFaultPolicy_only (by decide) (fun _ _ => ⟨rfl, rfl⟩) fun h => ?_
  have hfault : (submit specFaultPolicy r s).fault = (refreshFaultN ((atStart 0x0E02 r s).modFault (fun f =>
    { f with faultNLevel := r.u8 0, ffLevel := r.u8 1 }))).fault := submit_after h .fault rfl
  have hsys : (submit specFaultPolicy r s).sys = s.sys := submit_after h .sys rfl
  have hlow : faultNLow (submit specFaultPolicy r s) = faultNLow ((atStart 0x0E02 r s).modFault (fun f =>
      { f with faultNLevel := r.u8 0, ffLevel := r.u8 1 })) := by
    unfold faultNLow
    rw [hfault, hsys]
    rfl
  rw [hlow, hfault]
  exact ⟨rfl, rfl, rfl⟩

theorem faultAck_does (r : HostRequest) (s : State) : Does 0x0E03 .faultAck r s (but [.air, .sys, .mem, .bell, .wire, .pending]) fun t =>
    ∀ e ∈ t.fault.entries, (r.u8 0 = 0 → e.handle = r.u32 4 → e.acked) ∧ (r.u8 0 = 1 → e.cls = r.u8 1 → e.acked) ∧
    (r.u8 0 = 2 → e.acked) := by
  refine does_of_only rfl rfl specFaultAck_only (by decide) (fun _ _ => ⟨rfl, rfl⟩) fun h => ?_
  have hfault : (submit specFaultAck r s).fault = (refreshFaultN (((atStart 0x0E03 r s).fault.entries.filter (fun e => !e.acked &&
      (if r.u8 0 = 0 then e.handle == r.u32 4 else if r.u8 0 = 1 then e.cls == r.u8 1 else true))).foldl ackEntry
      (atStart 0x0E03 r s))).fault := submit_after h .fault rfl
  rw [hfault]
  intro e he
  have hacked := selected_acked (sel := fun e => if r.u8 0 = 0 then e.handle == r.u32 4 else if r.u8 0 = 1 then e.cls == r.u8 1 else true)
    (fun x y hxy hcls => by rw [hxy, hcls]) _ e he
  refine ⟨fun h0 hh => hacked ?_, fun h1 hc => hacked ?_, fun h2 => hacked ?_⟩
  · rw [if_pos h0]
    exact beq_iff_eq.mpr hh
  · rw [h1, if_neg (by decide), if_pos rfl]
    exact beq_iff_eq.mpr hc
  · rw [h2, if_neg (by decide), if_neg (by decide)]

theorem penUnit_pens (r : PenReason) (s : State) (u : UnitId) : (⟨u, r⟩ : Pen) ∈ (penUnit r s u).fault.pens := by
  have hshut (n : Nat) (x : State) : (shutCassette n x).fault.pens = x.fault.pens :=
    congrArg FaultState.pens (shutCassette_only (Only.refl 2050 x) rfl .fault rfl)
  have heffect (x : State) : (penEffect u x).fault.pens = x.fault.pens := by
    unfold penEffect
    dsimp only
    rw [refreshGains_pens]
    have hall : ((List.range 8).foldl (fun acc n => shutCassette n acc) x).fault.pens = x.fault.pens :=
      foldl_keeps (f := fun acc n => shutCassette n acc) (fun t => t.fault.pens) (fun _ _ => hshut ..) _ _
    split
    · exact hshut ..
    · exact (congrArg FaultState.pens (reviewPort_only (Only.refl 266241 _) rfl .fault rfl)).trans
        (congrArg FaultState.pens (withdrawLane_only (Only.refl 274432 x) rfl .fault rfl))
    · exact ite_keeps (fun t => t.fault.pens) hall
    · exact ite_keeps (fun t => t.fault.pens) hall
    · rfl
  unfold penUnit
  split
  · next hin => exact List.contains_iff_mem.mp hin
  · extract_lets was s1
    have h1 : (⟨u, r⟩ : Pen) ∈ s1.fault.pens := List.mem_append_right _ (List.mem_singleton_self _)
    split
    · exact h1
    · rw [heffect]
      exact h1

theorem faultUnitPen_runs {r : HostRequest} {s : State} {u : UnitId} (h : Accepts specFaultUnitPen r s)
    (hu : existingUnit s (r.u32 0) = some u) :
    Runs (.faultUnitPen r) s (but [.sys, .rf, .hk, .cl, .mem, .bell, .wire, .pending]) fun t =>
      Answered 0x0E04 r .ok t ∧ ⟨u, .host⟩ ∈ t.fault.pens ∧ penned t u := by
  have hmatch : specFaultUnitPen.effect (atStart 0x0E04 r s) (reqOf 0x0E04 r) = (match existingUnit s (r.u32 0) with
    | some u => (submitFault 0xF4 (sourceIndex 10 u.index) 0 0 [unitCode u] (penUnit .host (atStart 0x0E04 r s) u), {})
    | none => (atStart 0x0E04 r s, {})) := rfl
  rw [hu] at hmatch
  have hafter : (submit specFaultUnitPen r s).fault = (penUnit .host (atStart 0x0E04 r s) u).fault :=
    (submit_after h .fault rfl).trans (congrArg (fun x => x.1.fault) hmatch)
  refine runs_of_accepts (c := specFaultUnitPen) rfl specFaultUnitPen_only (by decide) h ?_ ?_
  · rw [show specFaultUnitPen.opcode = 0x0E04 from rfl, hmatch]
    exact ⟨rfl, rfl⟩
  · have hmem : (⟨u, .host⟩ : Pen) ∈ (submit specFaultUnitPen r s).fault.pens := by
      rw [hafter]
      exact penUnit_pens ..
    exact ⟨hmem, penned_of_mem hmem⟩

/-- The release of a unit takes the host's pen reason and every untracked action away. -/
theorem releaseUnit_frees (u : UnitId) (s : State) : (⟨u, .host⟩ : Pen) ∉ (releaseUnit u s).fault.pens ∧
    ∀ a ∈ (releaseUnit u s).fault.actions, a.unit = u → a.handle ≠ none := by
  unfold releaseUnit
  extract_lets classes s1 s2 s3 again
  have h3 : Loosens s2 s3 := loosens_acks ..
  have h2 : Loosens s1 s2 := loosens_dropPens ..
  constructor
  · intro hmem
    have hin : (⟨u, .host⟩ : Pen) ∈ s2.fault.pens := h3.pens _ hmem
    rw [dropPens_pens] at hin
    simpa using (List.mem_filter.mp hin).2
  · intro a ha hunit hnone
    have hin : a ∈ s1.fault.actions := h2.actions a (h3.actions a ha)
    rw [(dropActions_actions ..).1] at hin
    have hkept := (List.mem_filter.mp hin).2
    rw [hunit, hnone] at hkept
    simp at hkept

/-- The record and the level of FAULT_N leave pens and actions alone. -/
theorem recorded_keeps (code source sev flags : Nat) (ps : List Nat) (s : State) :
    (refreshFaultN (submitFault code source sev flags ps s)).fault.pens = s.fault.pens ∧
    (refreshFaultN (submitFault code source sev flags ps s)).fault.actions = s.fault.actions := ⟨rfl, rfl⟩

theorem faultUnitRelease_runs {r : HostRequest} {s : State} {u : UnitId} (h : Accepts specFaultUnitRelease r s)
    (hu : existingUnit s (r.u32 0) = some u) :
    Runs (.faultUnitRelease r) s (but [.air, .sys, .mem, .bell, .wire, .pending]) fun t =>
      Answered 0x0E05 r .ok t ∧ ⟨u, .host⟩ ∉ t.fault.pens ∧ ∀ a ∈ t.fault.actions, a.unit = u → a.handle ≠ none := by
  have hmatch : specFaultUnitRelease.effect (atStart 0x0E05 r s) (reqOf 0x0E05 r) = (match existingUnit s (r.u32 0) with
    | some u => (refreshFaultN (submitFault 0xF2 (sourceIndex 10 u.index) 0 0 [unitCode u] (releaseUnit u (atStart 0x0E05 r s))), {})
    | none => (atStart 0x0E05 r s, {})) := rfl
  rw [hu] at hmatch
  have hafter : (submit specFaultUnitRelease r s).fault = (refreshFaultN (submitFault 0xF2 (sourceIndex 10 u.index) 0 0 [unitCode u]
      (releaseUnit u (atStart 0x0E05 r s)))).fault := (submit_after h .fault rfl).trans (congrArg (fun x => x.1.fault) hmatch)
  refine runs_of_accepts (c := specFaultUnitRelease) rfl specFaultUnitRelease_only (by decide) h ?_ ?_
  · rw [show specFaultUnitRelease.opcode = 0x0E05 from rfl, hmatch]
    exact ⟨rfl, rfl⟩
  · have hkeeps := recorded_keeps 0xF2 (sourceIndex 10 u.index) 0 0 [unitCode u] (releaseUnit u (atStart 0x0E05 r s))
    rw [hafter, hkeeps.1, hkeeps.2]
    exact releaseUnit_frees u (atStart 0x0E05 r s)

theorem faultHaltRelease_does (r : HostRequest) (s : State) :
    Does 0x0E06 .faultHaltRelease r s (but [.air, .sys, .mem, .bell, .wire, .pending]) fun t =>
      answerBytes r t = le 4 (if r.u32 0 = 0 then frameBoundaryAhead s 4 else r.u32 0) ∧
      t.fault.haltRelease = some (if r.u32 0 = 0 then frameBoundaryAhead s 4 else r.u32 0) ∧ t.fault.halt = s.fault.halt := by
  refine does_of_only rfl rfl specFaultHaltRelease_only (by decide) (fun _ _ => ⟨rfl, rfl⟩) fun h => ?_
  have hfault : (submit specFaultHaltRelease r s).fault = (refreshFaultN ((((atStart 0x0E06 r s).fault.entries.filter
      (fun e => e.severity == 4)).foldl ackEntry (atStart 0x0E06 r s)).modFault (fun x =>
      { x with haltRelease := some (if r.u32 0 = 0 then frameBoundaryAhead s 4 else r.u32 0) }))).fault :=
    submit_after h .fault rfl
  refine ⟨answerBytes_of_accepts (i := .faultHaltRelease r) rfl h ⟨rfl, rfl⟩, ?_⟩
  rw [hfault]
  refine ⟨rfl, ?_⟩
  have hcourse := foldl_keeps (f := ackEntry) (fun t => t.fault.course) (fun t e => (releases_ackEntry t e).course)
    ((atStart 0x0E06 r s).fault.entries.filter (fun e => e.severity == 4)) (atStart 0x0E06 r s)
  exact congrArg Prod.fst hcourse

theorem faultInject_runs {r : HostRequest} {s : State} {u : UnitId} (h : Accepts specFaultInject r s)
    (hu : existingUnit s (r.u32 4) = some u) : Runs (.faultInject r) s [.host, .fault, .pair] fun t =>
      Answered 0x0E08 r .ok t ∧ t.fault = { s.fault with latched := s.fault.latched ++ [if r.u8 1 = 0
        then .raise { cls := r.u8 0, unit := u, injected := true, cycle := cycleNow s + 1 }
        else .ended ⟨r.u8 0, u⟩ (cycleNow s + 1) true] } := by
  have hmatch : specFaultInject.effect (atStart 0x0E08 r s) (reqOf 0x0E08 r) = (match existingUnit s (r.u32 4) with
    | some u => ((atStart 0x0E08 r s).modFault (fun f => { f with latched := f.latched ++ [if r.u8 1 = 0
        then .raise { cls := r.u8 0, unit := u, injected := true, cycle := cycleNow s + 1 }
        else .ended ⟨r.u8 0, u⟩ (cycleNow s + 1) true] }), {})
    | none => (atStart 0x0E08 r s, {})) := rfl
  rw [hu] at hmatch
  refine runs_of_accepts (c := specFaultInject) rfl specFaultInject_only (by decide) h ?_ ?_
  · rw [show specFaultInject.opcode = 0x0E08 from rfl, hmatch]
    exact ⟨rfl, rfl⟩
  · exact (submit_after h .fault rfl).trans (congrArg (fun x => x.1.fault) hmatch)

/-- Settles O48: each clause is the command's effect; acknowledging and releasing only loosen. -/
theorem faultCommandsComplete : Obligations.FaultCommandsComplete := by
  unfold Obligations.FaultCommandsComplete
  intro r s u
  refine ⟨faultPolicy_does r s, faultAck_does r s, faultUnitPen_runs, faultUnitRelease_runs, faultHaltRelease_does r s, ?_,
    faultInject_runs, ?_⟩
  · refine does_of_only rfl rfl specFaultFfClear_only (by decide) (fun _ _ => ⟨rfl, rfl⟩) fun h => ?_
    exact ⟨submit_after h .fault rfl, answerBytes_of_accepts (i := .faultFfClear r) rfl h ⟨rfl, rfl⟩⟩
  · refine does_of_only rfl rfl specFaultTableRead_only (by decide) (fun _ _ => ⟨rfl, rfl⟩) fun h => ?_
    exact ⟨submit_after h .fault rfl, answerBytes_of_accepts (i := .faultTableRead r) rfl h ⟨rfl, rfl⟩⟩

end Sys2Proof.Machine
end

section
set_option Elab.async false
/-! # O50: the Logbook commands -/

namespace Sys2Proof.Machine

open Sys2Proof

theorem u32_lt (p : List Byte) (k : Nat) : u32 p k < 4294967296 := by
  have h8 (o : Nat) : u8 p o < 256 := (p.getD o 0).isLt
  have h0 := h8 k
  have h1 := h8 (k + 1)
  have h2 := h8 (k + 2)
  have h3 := h8 (k + 2 + 1)
  unfold u32 u16
  omega

/-- A record that no mode limits, and that merges into none in native mode, becomes a record of its own (R395, R399). -/
theorem writeOne_appends {key : List Byte} {t wall : Nat} {x : Submission} {l : LogState} (hfull : ¬l.full)
    (hnever : neverLimited x) (hnew : ¬l.ig → ∀ z ∈ (heldRecords l).head?, ¬mergesInto x z) (hroom : 0 < ordinaryRoom l)
    (hseal : nextSeq l.head % 1024 ≠ 0) :
    ∃ n, heldRecords (writeOne key t wall x l).1 = heldRecords (pushRecord t (recordOf x wall n) l) ∧
      (writeOne key t wall x l).2 = nextSeq l.head := by
  by_cases hig : l.ig
  · rw [writeOne, if_neg hfull, if_pos hig]
    extract_lets w c w1
    have hc : c = (pushRecord t (recordOf x wall w.suppressed) l, true) := commitNew_plain hroom hseal
    have hw : w1 = pushRecord t (recordOf x wall w.suppressed) l := congrArg Prod.fst hc
    rw [if_pos hnever, hc, if_pos rfl, hw]
    exact ⟨w.suppressed, rfl, rfl⟩
  · rw [writeOne_new hfull hig (hnew hig) hroom hseal]
    exact ⟨0, rfl, rfl⟩

theorem writeNow_of_idle {s : State} (h : s.log.submissions = []) (code source severity flags : Nat) (ps : List Nat) :
    writeNow code source severity flags ps s =
      writeSubmission { code, source, severity, flags, params := params6 ps, mono := now s } s := by
  unfold writeNow
  rw [drainSubmissions_nil h]

/-- The parameters of a host record, as LOG_WRITE carries them. -/
def hostParams (p : List Byte) : List Nat := (List.range 6).map (fun i => u32 p (4 + 4 * i))

theorem params6_hostParams (p : List Byte) : params6 (hostParams p) = hostParams p := by
  unfold params6 hostParams
  refine List.map_congr_left fun i hi => ?_
  rw [List.getD_eq_getElem _ 0 (by simpa using hi), List.getElem_map, List.getElem_range, Nat.mod_eq_of_lt (u32_lt ..)]

/-- The submission of a LOG_WRITE. -/
def hostNote (r : HostRequest) (s : State) : Submission :=
  { code := r.u16 0, source := sourceIndex 10 0, severity := r.u8 2, flags := 0x80, params := params6 (hostParams r.payload), mono := now s }

theorem logWrite_runs {r : HostRequest} {s : State} (h : Accepts specLogWrite r s) (hwait : ¬s.log.mediaWait)
    (hidle : s.log.submissions = []) (hfull : ¬s.log.full) (hroom : 1 < ordinaryRoom s.log) (hseal : nextSeq s.log.head % 1024 ≠ 0)
    (hnew : ¬s.log.ig → ∀ y ∈ (heldRecords s.log).head?, y.code ≠ r.u16 0) :
    Runs (.logWrite r) s [.host, .log, .bell, .pair] fun t => Answered 0x0F05 r .ok t ∧ answerBytes r t = le 4 (nextSeq s.log.head) ∧
      ∃ y, heldRecords t.log = y :: heldRecords s.log ∧ y.seq = nextSeq s.log.head ∧ y.code = r.u16 0 ∧ y.severity = r.u8 2 ∧
        y.flags = 0x80 ∧ y.mono = s.now ∧ y.params = (List.range 6).map (fun i => r.u32 (4 + 4 * i)) := by
  have hcode : within 0xF000 0xFFFF (r.u16 0) = true := by
    have hchk := checks_hold_of_validate h.2 (field 0 (within 0xF000 0xFFFF (r.u16 0))) (List.mem_cons_self ..)
    simpa [field] using hchk
  obtain ⟨n, hheld, hseq⟩ := writeOne_appends (key := s.sys.keys.log) (t := now s) (wall := wallAt s (now s)) (x := hostNote r s) hfull
    (by
      have hlow : 0xF000 ≤ r.u16 0 := of_decide_eq_true (Bool.and_eq_true_iff.mp hcode).1
      simp [neverLimited, hostNote, hlow])
    (fun hig z hz hm => hnew hig z hz (by simp [mergesInto, hostNote] at hm; tauto)) (by omega) hseal
  have heffect : specLogWrite.effect (atStart 0x0F05 r s) (reqOf 0x0F05 r) = ((writeSubmission (hostNote r s) (atStart 0x0F05 r s)).1,
      { payload := le 4 (writeSubmission (hostNote r s) (atStart 0x0F05 r s)).2 }) := by
    refine (if_neg hwait).trans ?_
    rw [writeNow_of_idle (s := atStart 0x0F05 r s) hidle]
    rfl
  have hlog : (submit specLogWrite r s).log =
      (writeOne s.sys.keys.log (now s) (wallAt s (now s)) (hostNote r s) s.log).1 :=
    (submit_after h .log rfl).trans (congrArg (fun x => x.1.log) heffect)
  have hreply : Replies .ok (specLogWrite.effect (atStart 0x0F05 r s) (reqOf 0x0F05 r)).2 := by
    rw [heffect]
    exact ⟨rfl, rfl⟩
  refine runs_of_accepts (c := specLogWrite) rfl specLogWrite_only (by decide) h hreply ⟨?_, ?_⟩
  · rw [answerBytes_of_accepts (i := .logWrite r) rfl h hreply, show specLogWrite.opcode = 0x0F05 from rfl, heffect]
    exact congrArg (le 4) hseq
  · rw [hlog, hheld, pushRecord_held]
    exact ⟨_, rfl, rfl, rfl, rfl, rfl, rfl, params6_hostParams ..⟩

theorem logMode_does (r : HostRequest) (s : State) : Does 0x0F01 .logMode r s [.log, .bell] fun t =>
    t.log.ig = (r.u8 0 == 1) ∧ t.log.igLimit = r.u8 1 ∧ t.log.igWindow = r.u32 4 ∧
    (s.log.submissions = [] → (¬s.log.ig ∨ r.u8 0 = 1) → heldRecords t.log = heldRecords s.log ∧ t.log.submissions = [{
      code := 0x0103, source := sourceIndex 10 0, mono := s.now, params := params6 [r.u8 0, r.u8 1, r.u32 4, 0] }]) := by
  refine does_of_only rfl rfl specLogMode_only (by decide) (fun _ _ => ⟨rfl, rfl⟩) fun h => ?_
  have hlog : (submit specLogMode r s).log = (specLogMode.effect (atStart 0x0F01 r s) (reqOf 0x0F01 r)).1.log := submit_after h .log rfl
  have hmode : within 0 1 (r.u8 0) = true := by
    have hchk := checks_hold_of_validate h.2 (field 0 (within 0 1 (r.u8 0))) (List.mem_cons_self ..)
    simpa [field] using hchk
  have hcode : flag (r.u8 0 == 1) = r.u8 0 := by
    have hle : r.u8 0 ≤ 1 := of_decide_eq_true (Bool.and_eq_true_iff.mp hmode).2
    obtain h0 | h1 : r.u8 0 = 0 ∨ r.u8 0 = 1 := by omega
    · rw [h0]; rfl
    · rw [h1]; rfl
  rw [hlog]
  refine ⟨rfl, rfl, rfl, fun hidle hig => ?_⟩
  have hdrain : drainSubmissions (atStart 0x0F01 r s) = atStart 0x0F01 r s := drainSubmissions_nil hidle
  have hnative : (s.log.ig && !(r.u8 0 == 1)) = false := by
    obtain hn | h1 := hig
    · rw [Bool.eq_false_iff.mpr hn]; rfl
    · rw [h1]; exact Bool.and_false _
  simp only [specLogMode]
  rw [hdrain]
  refine ⟨rfl, ?_⟩
  show s.log.submissions ++ [({ code := 0x0103, source := sourceIndex 10 0, mono := s.now, params := params6 [flag (r.u8 0 == 1), r.u8 1, r.u32 4,
    if s.log.ig && !(r.u8 0 == 1) then _ else 0] } : Submission)] = _
  rw [hidle, hcode, hnative]
  rfl

/-- Settles O50: each clause is the command's effect on the Logbook. -/
theorem logbookCommandsComplete : Obligations.LogbookCommandsComplete := by
  unfold Obligations.LogbookCommandsComplete
  intro r s
  refine ⟨logMode_does r s, ?_, fun h => ?_, fun h => ?_, logWrite_runs, fun h => ?_⟩
  · refine does_of_only rfl rfl specLogRead_only (by decide) (fun _ _ => ⟨rfl, rfl⟩) fun h => ?_
    exact ⟨submit_after h .log rfl, answerBytes_of_accepts (i := .logRead r) rfl h ⟨rfl, rfl⟩⟩
  · exact runs_of_accepts (c := specLogClear) rfl specLogClear_only (by decide) h ⟨rfl, rfl⟩ (submit_after h .log rfl)
  · exact runs_of_accepts (c := specLogMediaReset) rfl specLogMediaReset_only (by decide) h ⟨rfl, rfl⟩ (submit_after h .log rfl)
  · exact runs_of_accepts (c := specLogVerify) rfl specLogVerify_only (by decide) h ⟨rfl, rfl⟩ (submit_after h .log rfl)

end Sys2Proof.Machine
end

section
set_option Elab.async false
/-! # O52: the SYS commands -/

namespace Sys2Proof.Machine

open Sys2Proof

/-! ## What an answer leaves alone in the host part -/

/-- The settings of the host part: sessions and identifiers given, its configuration, and the site inputs'. -/
def HostState.settings (h : HostState) : Bank (Option Session) × List Nat × HostConfig × NetConfig × SiteConfig × BitVec 16 :=
  (h.sessions, h.usedSessions, h.config, h.net, h.site, h.siteFresh)

theorem setIrqBits_settings (h : HostState) (m : Word) : (setIrqBits h m).settings = h.settings := by
  obtain ⟨_, _, e⟩ := setIrqBits_eq h m
  rw [e]
  rfl

theorem complete_settings (t : Ticket) (st : Status) (d : Nat) (s : State) : (complete t st d s).host.settings = s.host.settings := by
  unfold complete postEvent
  rw [modHost_host]
  extract_lets seq idx old ev h1
  split
  · exact setIrqBits_settings ..
  · rfl

theorem writeResponse_settings (n : Nat) (q : Req) (st : Status) (d : Nat) (p : List Byte) (s : State) :
    (writeResponse n q st d p s).host.settings = s.host.settings := by
  unfold writeResponse
  extract_lets mb resp s1
  split
  · rfl
  · have h1 : s1.host.settings = s.host.settings := by
      refine (setIrqBits_settings ..).trans ?_
      split <;> rfl
    split
    · exact (complete_settings ..).trans h1
    · exact h1

/-- The answer of an accepted command leaves the settings as its effect has them. -/
theorem submit_settings {c : CommandSpec} {r : HostRequest} {s : State} (h : Accepts c r s) :
    (submit c r s).host.settings = (c.effect (atStart c.opcode r s) (reqOf c.opcode r)).1.host.settings := by
  have hmirror (t : State) : (mirrorCommand (reqOf c.opcode r) t).host = t.host :=
    mirrorCommand_only (Only.refl 65536 t) rfl .host rfl
  rw [submit_accepted h]
  split
  · rw [hmirror]
  · exact (writeResponse_settings ..).trans (congrArg HostState.settings (hmirror _))

/-- What identifies an open session. -/
def Session.face (x : Session) : Nat × Role × HostPath := (x.id, x.role, x.path)

theorem atStart_faces (n : Nat) (r : HostRequest) (s : State) (j : Nat) :
    ((atStart n r s).host.sessions.get j).map Session.face = (s.host.sessions.get j).map Session.face := by
  simp only [atStart, noteStart, reqOf, modHost_host]
  split
  next k _ =>
    by_cases hj : j = k
    · subst hj
      exact (congrArg (Option.map Session.face) (get_mod_same ..)).trans (Option.map_map ..)
    · exact congrArg (Option.map Session.face) (get_mod_other _ _ hj)
  next => rfl

/-- The settings, the sessions apart, that a command finds at its start. -/
theorem atStart_settings (n : Nat) (r : HostRequest) (s : State) : (atStart n r s).host.settings.2 = s.host.settings.2 := by
  simp only [atStart, noteStart, reqOf, modHost_host]
  split <;> rfl

/-! ## Sessions -/

/-- While the identifiers are not used up, a new session's is not 0 and was never given (R429). -/
theorem freshSession_fresh {used : List Nat} (h : used.length < 0xFFFF_FFFE) (w : Nat) :
    freshSession used w ≠ 0 ∧ freshSession used w ∉ used := by
  unfold freshSession
  generalize hl : (List.range (used.length + 2)).map (fun i => (w + i) % 4294967296) = l
  have hnodup : l.Nodup := by
    rw [← hl]
    refine List.Nodup.map_on (fun x hx y hy hxy => ?_) List.nodup_range
    rw [List.mem_range] at hx hy
    omega
  cases hfind : l.find? (fun n => n != 0 && !used.contains n) with
  | some n =>
    have hn := List.find?_some hfind
    simpa using hn
  | none =>
    have hsub : l ⊆ 0 :: used := by
      intro n hn
      have hno := List.find?_eq_none.mp hfind n hn
      rw [List.mem_cons]
      by_contra hboth
      rw [not_or] at hboth
      exact hno (by simpa using hboth)
    have hlen := (List.subperm_of_subset hnodup hsub).length_le
    rw [← hl, List.length_map, List.length_range, List.length_cons] at hlen
    omega

theorem placeOf_congr {g h : HostState} (heq : ∀ j, (g.sessions.get j).map Session.face = (h.sessions.get j).map Session.face)
    (id : Nat) : placeOf g id = placeOf h id := by
  unfold placeOf
  congr 1
  funext k
  have hk := heq k
  cases hg : g.sessions.get k with
  | none =>
    rw [hg] at hk
    cases hh : h.sessions.get k with
    | none => rfl
    | some y => rw [hh] at hk; cases hk
  | some x =>
    rw [hg] at hk
    cases hh : h.sessions.get k with
    | none => rw [hh] at hk; cases hk
    | some y =>
      rw [hh] at hk
      have hid : x.id = y.id := congrArg Prod.fst (Option.some.inj hk)
      dsimp only
      rw [hid]

theorem consumeNonce_settings (s : State) (q : Req) : (consumeNonce s q).host.settings = s.host.settings :=
  ite_keeps (fun t => t.host.settings) rfl

/-- The identifier that SYS_SESSION_OPEN gives in a state. -/
def openedId (s : State) (q : Req) : Nat :=
  freshSession (consumeNonce s q).host.usedSessions (Config.randomWord (consumeNonce s q).drawn).toNat

/-- What SYS_SESSION_OPEN does where a place is free. -/
theorem sysSessionOpen_effect {s : State} {q : Req} {k : Nat} (hk : freePlace s.host = some k) :
    (specSysSessionOpen.effect s q).1.host.sessions = (consumeNonce s q).host.sessions.set k (some
      { id := openedId s q, role := roleOfCode (u8 q.payload 0), path := reqPath q, last := now s }) ∧
    (specSysSessionOpen.effect s q).1.host.usedSessions = openedId s q :: (consumeNonce s q).host.usedSessions ∧
    (specSysSessionOpen.effect s q).2 = { payload := le 4 (openedId s q) ++ le 4 s.host.config.idle } := by
  simp only [specSysSessionOpen]
  rw [hk]
  exact ⟨rfl, rfl, rfl⟩

theorem sysSessionOpen_runs {r : HostRequest} {s : State} (h : Accepts specSysSessionOpen r s)
    (hroom : s.host.usedSessions.length < 0xFFFF_FFFE) : Runs (.sysSessionOpen r) s [.host, .log, .pair, .drawn] fun t =>
      Answered 0x0101 r .ok t ∧ ∃ k x, s.host.sessions.get k = none ∧ t.host.sessions.get k = some x ∧ x.path = r.path ∧
        x.role = roleOfCode (r.u8 0) ∧ x.id ≠ 0 ∧ x.id ∉ s.host.usedSessions ∧ t.host.usedSessions = x.id :: s.host.usedSessions ∧
        answerBytes r t = le 4 x.id ++ le 4 s.host.config.idle := by
  have hplace : (freePlace (atStart 0x0101 r s).host).isSome = true := by
    have hchk := checks_hold_of_validate h.2 (need .eResource (freePlace (atStart 0x0101 r s).host).isSome)
      (List.mem_cons_of_mem _ (List.mem_cons_of_mem _ (List.mem_cons_of_mem _ (List.mem_cons_self ..))))
    simpa [need] using hchk
  obtain ⟨k, hk⟩ := Option.isSome_iff_exists.mp hplace
  have hfree : s.host.sessions.get k = none := by
    have hnone : (atStart 0x0101 r s).host.sessions.get k = none := Option.isNone_iff_eq_none.mp
      (List.find?_some (p := fun k => ((atStart 0x0101 r s).host.sessions.get k).isNone) hk)
    have hface := atStart_faces 0x0101 r s k
    rw [hnone] at hface
    exact Option.map_eq_none_iff.mp hface.symm
  obtain ⟨hsessions, hgiven, hreply⟩ := sysSessionOpen_effect (q := reqOf 0x0101 r) hk
  have hset := submit_settings h
  have hstart := atStart_settings 0x0101 r s
  have hused : (consumeNonce (atStart 0x0101 r s) (reqOf 0x0101 r)).host.usedSessions = s.host.usedSessions :=
    (congrArg (fun x => x.2.1) (consumeNonce_settings ..) :).trans (congrArg Prod.fst hstart)
  have hidle : (atStart 0x0101 r s).host.config = s.host.config := (congrArg (fun x => x.2.1) hstart :)
  have hopened : (submit specSysSessionOpen r s).host.sessions.get k = some
      { id := openedId (atStart 0x0101 r s) (reqOf 0x0101 r), role := roleOfCode (r.u8 0), path := r.path, last := now s } := by
    rw [show (submit specSysSessionOpen r s).host.sessions = _ from (congrArg Prod.fst hset).trans hsessions, get_set_same]
    rfl
  have hlist : (submit specSysSessionOpen r s).host.usedSessions =
      openedId (atStart 0x0101 r s) (reqOf 0x0101 r) :: s.host.usedSessions := by
    rw [← hused]
    exact (congrArg (fun x => x.2.1) hset).trans hgiven
  have hfresh : openedId (atStart 0x0101 r s) (reqOf 0x0101 r) ≠ 0 ∧
      openedId (atStart 0x0101 r s) (reqOf 0x0101 r) ∉ s.host.usedSessions := by
    unfold openedId
    rw [hused]
    exact freshSession_fresh hroom _
  have hok : Replies .ok (specSysSessionOpen.effect (atStart 0x0101 r s) (reqOf 0x0101 r)).2 := by
    rw [hreply]
    exact ⟨rfl, rfl⟩
  refine runs_of_accepts (c := specSysSessionOpen) rfl specSysSessionOpen_only (by decide) h hok
    ⟨k, _, hfree, hopened, rfl, rfl, hfresh.1, hfresh.2, hlist, ?_⟩
  rw [answerBytes_of_accepts (i := .sysSessionOpen r) rfl h hok, show specSysSessionOpen.opcode = 0x0101 from rfl, hreply, hidle]

theorem sysSessionClose_does (r : HostRequest) (s : State) : Does 0x0102 .sysSessionClose r s [] fun t =>
    ∃ k, placeOf s.host (closeTarget (reqOf 0x0102 r)) = some k ∧ t.host.sessions.get k = none ∧
    ∀ j, j ≠ k → (t.host.sessions.get j).map (fun x => (x.id, x.role, x.path)) =
      (s.host.sessions.get j).map (fun x => (x.id, x.role, x.path)) := by
  refine does_of_only rfl rfl specSysSessionClose_only (by decide) (fun _ _ => ⟨rfl, rfl⟩) fun h => ?_
  have hplaces : placeOf (atStart 0x0102 r s).host (closeTarget (reqOf 0x0102 r)) = placeOf s.host (closeTarget (reqOf 0x0102 r)) :=
    placeOf_congr (atStart_faces 0x0102 r s) _
  have hplace : (placeOf s.host (closeTarget (reqOf 0x0102 r))).isSome = true := by
    have hchk := checks_hold_of_validate h.2
      (field 0 (placeOf (atStart 0x0102 r s).host (closeTarget (reqOf 0x0102 r))).isSome) (List.mem_cons_self ..)
    rw [hplaces] at hchk
    simpa [field] using hchk
  obtain ⟨k, hk⟩ := Option.isSome_iff_exists.mp hplace
  have hclosed : closeSession (closeTarget (reqOf 0x0102 r)) (atStart 0x0102 r s) =
      (atStart 0x0102 r s).modHost (fun h => { h with sessions := h.sessions.set k none }) := by
    unfold closeSession
    rw [hplaces, hk]
  have hsessions : (submit specSysSessionClose r s).host.sessions = (atStart 0x0102 r s).host.sessions.set k none :=
    (congrArg Prod.fst (submit_settings h)).trans (congrArg (fun t => t.host.sessions) hclosed)
  refine ⟨k, hk, ?_, fun j hj => ?_⟩
  · rw [hsessions, get_set_same]
  · rw [hsessions, get_set_other _ _ hj]
    exact atStart_faces 0x0102 r s j

/-! ## Configurations -/

/-- A bank that lists the values of a function holds them. -/
theorem get_listed {α : Type} (d : α) (f : Nat → α) {n k : Nat} (h : k < n) :
    ({ dflt := d, cells := (List.range n).map (fun i => (i, f i)) } : Bank α).get k = f k := by
  have hfind (l : List Nat) (hk : k ∈ l) : Bank.find (l.map (fun i => (i, f i))) k = some (f k) := by
    induction l with
    | nil => exact absurd hk List.not_mem_nil
    | cons j l ih =>
      rw [List.map_cons, Bank.find]
      split
      next hj => rw [hj]
      next hj => exact ih ((List.mem_cons.mp hk).resolve_left (fun heq => hj heq.symm))
  rw [Bank.get, hfind _ (List.mem_range.mpr h)]
  rfl

theorem sysHostConfig_does (r : HostRequest) (s : State) : Does 0x0103 .sysHostConfig r s [.sys] fun t =>
    t.host.config = s.host.config ∧ t.sys.storedHost.idle = r.u32 16 ∧ t.sys.storedHost.i2c = r.u8 20 ∧
    ∀ n, n < 16 → t.sys.storedHost.paths.get n = pathOfCode (r.u8 n) := by
  refine does_of_only rfl rfl specSysHostConfig_only (by decide) (fun _ _ => ⟨rfl, rfl⟩) fun h => ?_
  have hsys : (submit specSysHostConfig r s).sys = { s.sys with storedHost :=
      ⟨⟨.pcie, (List.range 16).map (fun i => (i, pathOfCode (r.u8 i)))⟩, r.u32 16, r.u8 20⟩ } := submit_after h .sys rfl
  have hconfig : (submit specSysHostConfig r s).host.config = (atStart 0x0103 r s).host.config :=
    (congrArg (fun x => x.2.2.1) (submit_settings h) :)
  rw [hsys, hconfig]
  exact ⟨(congrArg (fun x => x.2.1) (atStart_settings 0x0103 r s) :), rfl, rfl, fun n hn => get_listed _ (fun i => pathOfCode (r.u8 i)) hn⟩

/-- Settles O52: each clause is the command's effect on the host part or on what is stored. -/
theorem systemCommandsComplete : Obligations.SystemCommandsComplete := by
  unfold Obligations.SystemCommandsComplete
  intro r s
  refine ⟨?_, sysSessionOpen_runs, sysSessionClose_does r s, sysHostConfig_does r s, ?_, ?_⟩
  · exact does_of_only rfl rfl specSysNop_only (by decide) (fun _ _ => ⟨rfl, rfl⟩)
      fun h => answerBytes_of_accepts (i := .sysNop r) rfl h ⟨rfl, rfl⟩
  · refine does_of_only rfl rfl specSysNetConfig_only (by decide) (fun _ _ => ⟨rfl, rfl⟩) fun h => ?_
    have hnet : (submit specSysNetConfig r s).host.net =
        { (atStart 0x0104 r s).host.net with transport := r.u8 1, profile := r.u8 2, domain := r.u8 3 } :=
      (congrArg (fun x => x.2.2.2.1) (submit_settings h) :)
    have hsame : (atStart 0x0104 r s).host.net = s.host.net := (congrArg (fun x => x.2.2.1) (atStart_settings 0x0104 r s) :)
    rw [hnet, hsame]
    exact ⟨congrArg SysState.storedNet (submit_after h .sys rfl), rfl⟩
  · refine does_of_only rfl rfl specSysSiteConfig_only (by decide) (fun _ _ => ⟨rfl, rfl⟩) fun h => ?_
    have hsite : ((submit specSysSiteConfig r s).host.site, (submit specSysSiteConfig r s).host.siteFresh) =
        ((specSysSiteConfig.effect (atStart 0x0105 r s) (reqOf 0x0105 r)).1.sys.storedSite, (atStart 0x0105 r s).host.siteFresh |||
          (BitVec.ofNat 16 (r.u16 16) &&& ~~~(atStart 0x0105 r s).host.site.enable)) := (congrArg (fun x => x.2.2.2.2) (submit_settings h) :)
    have hsame : ((atStart 0x0105 r s).host.site, (atStart 0x0105 r s).host.siteFresh) = (s.host.site, s.host.siteFresh) :=
      (congrArg (fun x => x.2.2.2) (atStart_settings 0x0105 r s) :)
    obtain ⟨hnow, hfresh⟩ := Prod.mk.inj hsite
    obtain ⟨hwas, hold⟩ := Prod.mk.inj hsame
    have hstored : (submit specSysSiteConfig r s).sys.storedSite =
        (specSysSiteConfig.effect (atStart 0x0105 r s) (reqOf 0x0105 r)).1.sys.storedSite :=
      congrArg SysState.storedSite (submit_after h .sys rfl)
    rw [hnow, hfresh, hstored, hwas, hold]
    exact ⟨rfl, rfl, rfl, fun n hn => get_listed 20 r.u8 hn, rfl⟩

end Sys2Proof.Machine
end

section
set_option Elab.async false
/-! # O54 and O55: host registers and paths with TEST_MODE high

With TEST_MODE high the part drives nothing (R497), which neither statement takes up where something is to leave on a path. -/

namespace Sys2Proof.Machine

open Sys2Proof

/-- The part as power-on reset leaves it, with TEST_MODE high and the PCIe path up. -/
def testing : State := { State.reset with
  sys := { State.reset.sys with testMode := true }
  host := { State.reset.host with pcieUp := true, paths := State.reset.host.paths.mod (pathCode .pcie) (fun p => { p with up := true }) } }

theorem testing_answers : pathAnswers testing .pcie = true := by decide +kernel

/-- At 0x10 stands the low half of the serial number. -/
theorem regAt_serial : regAt .pcie testing (16 / 4 * 4) = .low Config.serial.toNat 0 := rfl

theorem lowHalfRead_testing : (lowHalfRead .pcie 16 testing).host.out = [] := rfl

/-- A captured request: the clause that fails does not speak of it. -/
def anyCaptured : Captured := ⟨0, { mailbox := 0, path := .none, flags := 0, tag := 0, length := 0, session := 0, payload := [] }⟩

/-- Refutes O54: with TEST_MODE high a read of a low half drives nothing (R497), so its value does not leave on the path; the
statement asks that it does wherever the path answers. -/
theorem not_hostRegistersRingAndSignal : ¬ Obligations.HostRegistersRingAndSignal := by
  unfold Obligations.HostRegistersRingAndSignal
  intro h
  obtain ⟨-, -, -, -, -, -, -, -, -, -, -, -, -, -, hread⟩ := h testing .pcie 0 0 0 0 16 4 Config.serial.toNat 0 false [] anyCaptured
  obtain ⟨-, hout, -⟩ := (hread testing_answers regAt_serial).of_exec (t := lowHalfRead .pcie 16 testing) rfl
  rw [lowHalfRead_testing] at hout
  exact List.cons_ne_nil _ _ hout.symm

theorem i2cTransfer_testing : (i2cTransfer [10] 1 testing).host.out = [] := rfl

/-- An open session: the clause that fails does not speak of it. -/
def anySession : Session := { id := 0, role := .monitor, path := .none }

/-- Refutes O55: with TEST_MODE high a read on the I2C target drives nothing (R497), so no byte leaves there; the statement asks
for the heartbeat register's in every state. -/
theorem not_hostPathsTransferAndTimeOut : ¬ Obligations.HostPathsTransferAndTimeOut := by
  unfold Obligations.HostPathsTransferAndTimeOut
  intro h
  obtain ⟨-, -, -, -, -, -, hread, -⟩ := h testing { kind := 0 } [] 0 10 0 0 0 0 .none anySession false 0
  obtain ⟨-, hout, -⟩ := hread.of_exec (t := i2cTransfer [10] 1 testing) rfl
  rw [i2cTransfer_testing] at hout
  exact List.cons_ne_nil _ _ hout.symm

end Sys2Proof.Machine
end

section
set_option Elab.async false
/-! # O56: the power, lifecycle, key, debug and firmware commands -/

namespace Sys2Proof.Machine

open Sys2Proof

/-! ## Moves between power states -/

/-- A command that validation lets pass is accepted in the power state (R425). -/
theorem power_of_validate {c : CommandSpec} {s : State} {q : Req} (h : validate c false s q = none) : s.sys.power ∈ c.power := by
  by_contra hno
  have hbad : (c.power.contains s.sys.power && c.lifecycle.contains s.sys.lifecycle && c.states s q) = false := by
    rw [Bool.eq_false_iff.mpr (fun hin => hno (List.contains_iff_mem.mp hin)), Bool.false_and, Bool.false_and]
  unfold validate at h
  rw [if_pos (show false = false ∧ _ from ⟨rfl, hbad⟩)] at h
  repeat' split at h
  all_goals contradiction

theorem replaceMove_sys (m : PowerMove) (s : State) : (replaceMove m s).sys = { s.sys with move := some m } := by
  unfold replaceMove
  extract_lets s1
  split
  · exact completeOpt_only (Only.refl 2 s1) rfl .sys rfl
  · rfl

theorem startMove_standby (t : Option Ticket) (s : State) : (startMove .standby t s).sys =
    { s.sys with move := some { target := .standby, frame := some (frameBoundaryAhead s 1), ticket := t } } := replaceMove_sys ..

theorem startMove_dormant {s : State} (t : Option Ticket) (h : s.fl.state ≠ .joined) : (startMove .dormant t s).sys =
    { s.sys with move := some { target := .dormant, frame := some (frameBoundaryAhead s 1), ticket := t } } := by
  have hmove : startMove .dormant t s = replaceMove { target := .dormant, frame := some (frameBoundaryAhead s 1), ticket := t } s :=
    if_neg (fun hj => h hj.1)
  rw [hmove, replaceMove_sys]

/-- From STANDBY a move to ACTIVE or QUIET shows its target at once (R455). -/
theorem startMove_leaves {s : State} {target : PowerState} (t : Option Ticket) (h : s.sys.power = .standby)
    (hup : target = .active ∨ target = .quiet) : (startMove target t s).sys.power = target := by
  have hmove : startMove target t s = leaveStandby ((replaceMove { target, frame := none, ticket := t, exit := true } s).modSys
      (fun y => { y with power := target })) := by
    obtain rfl | rfl := hup
    · exact if_pos h
    · exact if_pos h
  rw [hmove, leaveStandby_only (Only.refl 7652 _) rfl .sys rfl]
  rfl

theorem enterQuiet_sys (s : State) : (enterQuiet s).sys = { s.sys with power := .quiet } := by
  unfold enterQuiet
  rw [refreshGains_keeps_sys, endInjections_only (Only.refl 1026 _) rfl .sys rfl]
  rfl

theorem startMove_quiet (t : Option Ticket) (s : State) : (startMove .quiet t s).sys.power = .quiet := by
  by_cases h : s.sys.power = .standby
  · exact startMove_leaves t h (Or.inr rfl)
  · have hmove : startMove .quiet t s = reviewMove (enterQuiet (replaceMove { target := .quiet, frame := none, ticket := t } s)) :=
      (if_neg h).trans (if_pos rfl)
    rw [hmove, reviewMove_power, enterQuiet_sys]

theorem startMove_active {s : State} (t : Option Ticket) (h : s.sys.power = .quiet) : (startMove .active t s).sys =
    { s.sys with move := some { target := .active, frame := none, ticket := t } } := by
  have hmove : startMove .active t s = replaceMove { target := .active, frame := none, ticket := t } s :=
    (if_neg (by rw [h]; decide)).trans (if_neg (by decide))
  rw [hmove, replaceMove_sys]

theorem pwrStateSet_runs {r : HostRequest} {s : State} (h : Accepts specPwrStateSet r s) :
    Runs (.pwrStateSet r) s (but [.air, .hk, .dv, .mem, .bell, .wire, .pending]) fun t =>
      (powerOfCode (r.u8 0) = s.power → Answered 0x1001 r .ok t ∧ t.sys = s.sys) ∧
      (powerOfCode (r.u8 0) ≠ s.power → Answered 0x1001 r .accepted t) ∧
      (powerOfCode (r.u8 0) = .standby → s.power ≠ .standby → t.power = s.power ∧
        t.sys.move = some { target := .standby, frame := some (frameBoundaryAhead s 1), ticket := some (ticketOf (reqOf 0x1001 r)) }) ∧
      (powerOfCode (r.u8 0) = .quiet → t.power = .quiet) ∧
      (powerOfCode (r.u8 0) = .active → s.power = .standby → t.power = .active) ∧
      (powerOfCode (r.u8 0) = .active → s.power = .quiet → t.power = .quiet ∧
        t.sys.move = some { target := .active, frame := none, ticket := some (ticketOf (reqOf 0x1001 r)) }) ∧
      (powerOfCode (r.u8 0) = .dormant → s.fl.state ≠ .joined → t.power = s.power ∧
        t.sys.move = some { target := .dormant, frame := some (frameBoundaryAhead s 1), ticket := some (ticketOf (reqOf 0x1001 r)) }) := by
  have hawake : s.power ≠ .dormant := by
    have hpower : (atStart 0x1001 r s).sys.power ∈ [PowerState.active, .quiet, .standby] := power_of_validate (c := specPwrStateSet) h.2
    intro hdormant
    rw [show (atStart 0x1001 r s).sys.power = .dormant from hdormant] at hpower
    exact absurd hpower (by decide)
  have heffect : specPwrStateSet.effect (atStart 0x1001 r s) (reqOf 0x1001 r) = (if powerOfCode (r.u8 0) = s.power
      then (atStart 0x1001 r s, {})
      else (startMove (powerOfCode (r.u8 0)) (some (ticketOf (reqOf 0x1001 r))) (atStart 0x1001 r s), { status := .accepted })) := rfl
  by_cases hsame : powerOfCode (r.u8 0) = s.power
  · rw [if_pos hsame] at heffect
    have hsys : (submit specPwrStateSet r s).sys = s.sys :=
      (submit_after h .sys rfl).trans (congrArg (fun x => x.1.sys) heffect)
    refine Runs.mono (runs_of_accepts (c := specPwrStateSet) (st := .ok) (P := fun t => t.sys = s.sys) rfl specPwrStateSet_only
      (by decide) h ?_ hsys) fun t ⟨hans, ht⟩ => ?_
    · rw [show specPwrStateSet.opcode = 0x1001 from rfl, heffect]
      exact ⟨rfl, rfl⟩
    have hpower : t.power = powerOfCode (r.u8 0) := (congrArg SysState.power ht).trans hsame.symm
    refine ⟨fun _ => ⟨hans, ht⟩, fun hne => absurd hsame hne, fun hto hne => absurd (hsame.symm.trans hto) hne, hpower.trans,
      fun hto _ => hpower.trans hto, fun hto hq => ?_, fun hto _ => absurd (hsame.symm.trans hto) hawake⟩
    rw [hto, hq] at hsame
    exact absurd hsame (by decide)
  · rw [if_neg hsame] at heffect
    have hsys : (submit specPwrStateSet r s).sys =
        (startMove (powerOfCode (r.u8 0)) (some (ticketOf (reqOf 0x1001 r))) (atStart 0x1001 r s)).sys :=
      (submit_after h .sys rfl).trans (congrArg (fun x => x.1.sys) heffect)
    refine Runs.mono (runs_of_accepts (c := specPwrStateSet) (st := .accepted) (P := fun t => t.sys =
      (startMove (powerOfCode (r.u8 0)) (some (ticketOf (reqOf 0x1001 r))) (atStart 0x1001 r s)).sys) rfl specPwrStateSet_only
      (by decide) h ?_ hsys) fun t ⟨hans, ht⟩ => ?_
    · rw [show specPwrStateSet.opcode = 0x1001 from rfl, heffect]
      exact ⟨rfl, rfl⟩
    refine ⟨fun heq => absurd heq hsame, fun _ => hans, fun hto _ => ?_, fun hto => ?_, fun hto hfrom => ?_, fun hto hfrom => ?_,
      fun hto hfl => ?_⟩
    · rw [hto, startMove_standby] at ht
      exact ⟨(congrArg SysState.power ht :), (congrArg SysState.move ht :)⟩
    · rw [hto] at ht
      exact (congrArg SysState.power ht).trans (startMove_quiet ..)
    · rw [hto] at ht
      exact (congrArg SysState.power ht).trans (startMove_leaves _ hfrom (Or.inl rfl))
    · rw [hto, startMove_active (s := atStart 0x1001 r s) _ hfrom] at ht
      exact ⟨(congrArg SysState.power ht :).trans hfrom, (congrArg SysState.move ht :)⟩
    · rw [hto, startMove_dormant (s := atStart 0x1001 r s) _ hfl] at ht
      exact ⟨(congrArg SysState.power ht :), (congrArg SysState.move ht :)⟩

theorem atStart_links (n : Nat) (r : HostRequest) (s : State) :
    (atStart n r s).host.pcieUp = s.host.pcieUp ∧ (atStart n r s).host.ethUp = s.host.ethUp := by
  simp only [atStart, noteStart, reqOf, modHost_host]
  split <;> exact ⟨rfl, rfl⟩

/-- Of the host part the power model reads only which links are up. -/
theorem domainUsed_modHost {h : HostState} {s : State} (hpcie : h.pcieUp = s.host.pcieUp) (heth : h.ethUp = s.host.ethUp) (d : Nat) :
    domainUsed (s.modHost (fun _ => h)) d = domainUsed s d := by
  unfold domainUsed
  rw [modHost_host, hpcie, heth]
  rfl

theorem modelledPower_modHost {h : HostState} {s : State} (hpcie : h.pcieUp = s.host.pcieUp) (heth : h.ethUp = s.host.ethUp) :
    modelledPower (s.modHost (fun _ => h)) = modelledPower s := by
  have hdomains : countedDomains (s.modHost (fun _ => h)) = countedDomains s := by
    unfold countedDomains
    refine List.filter_congr fun d _ => ?_
    unfold domainIn
    rw [domainUsed_modHost hpcie heth]
    rfl
  have hloads : loads (s.modHost (fun _ => h)) = loads s := rfl
  unfold modelledPower
  rw [hdomains, hloads]
  rfl

theorem modelledPower_atStart (n : Nat) (r : HostRequest) (s : State) : modelledPower (atStart n r s) = modelledPower s := by
  rw [atStart_modHost]
  exact modelledPower_modHost (atStart_links n r s).1 (atStart_links n r s).2

theorem pwrLimitSet_does (r : HostRequest) (s : State) : Does 0x1003 .pwrLimitSet r s [.sys] fun t =>
    t.sys = { s.sys with powerLimit := r.u32 0 } ∧ modelledPower s ≤ t.sys.powerLimit := by
  refine does_of_only rfl rfl specPwrLimitSet_only (by decide) (fun _ _ => ⟨rfl, rfl⟩) fun h => ?_
  have hsys : (submit specPwrLimitSet r s).sys = { s.sys with powerLimit := r.u32 0 } := submit_after h .sys rfl
  have hchk := checks_hold_of_validate h.2 (needD .eConflict (modelledPower (atStart 0x1003 r s))
    (decide (modelledPower (atStart 0x1003 r s) ≤ r.u32 0))) (List.mem_cons_of_mem _ (List.mem_cons_self ..))
  rw [modelledPower_atStart] at hchk
  rw [hsys]
  exact ⟨rfl, by simpa [needD] using hchk⟩

theorem pwrReset_runs {r : HostRequest} {s : State} (h : Accepts specPwrReset r s) :
    Runs (.pwrReset r) s (but [.air, .log, .fl, .dv, .mem, .wire, .drawn, .pending]) fun t =>
      (r.u8 0 = 0 → Answered 0x1004 r .ok t ∧ t.sys = { s.sys with warmAt := some (s.now + tcOfMs 1) }) ∧
      (r.u8 0 = 1 → Answered 0x1004 r .accepted t ∧ t.sys.unitReset =
        s.sys.unitReset ++ [(r.u8 1, s.now + tcOfMs (unitResetMs (r.u8 1)), ticketOf (reqOf 0x1004 r))]) := by
  have heffect : specPwrReset.effect (atStart 0x1004 r s) (reqOf 0x1004 r) = (if r.u8 0 = 0
      then ((atStart 0x1004 r s).modSys (fun y => { y with warmAt := some (s.now + tcOfMs 1) }), {})
      else (startUnitReset (r.u8 1) (ticketOf (reqOf 0x1004 r)) (atStart 0x1004 r s), { status := .accepted })) := rfl
  by_cases hwarm : r.u8 0 = 0
  · rw [if_pos hwarm] at heffect
    have hsys : (submit specPwrReset r s).sys = { s.sys with warmAt := some (s.now + tcOfMs 1) } :=
      (submit_after h .sys rfl).trans (congrArg (fun x => x.1.sys) heffect)
    refine Runs.mono (runs_of_accepts (c := specPwrReset) (st := .ok) rfl specPwrReset_only (by decide) h ?_ hsys)
      fun t ht => ⟨fun _ => ht, fun h1 => absurd (hwarm.symm.trans h1) (by decide)⟩
    rw [show specPwrReset.opcode = 0x1004 from rfl, heffect]
    exact ⟨rfl, rfl⟩
  · rw [if_neg hwarm] at heffect
    have hunit : (submit specPwrReset r s).sys.unitReset =
        s.sys.unitReset ++ [(r.u8 1, s.now + tcOfMs (unitResetMs (r.u8 1)), ticketOf (reqOf 0x1004 r))] := by
      rw [(submit_after h .sys rfl).trans (congrArg (fun x => x.1.sys) heffect)]
      exact congrArg SysState.unitReset (unitResetEffect_only (Only.refl 36838 _) rfl .sys rfl)
    refine Runs.mono (runs_of_accepts (c := specPwrReset) (st := .accepted) rfl specPwrReset_only (by decide) h ?_ hunit)
      fun t ht => ⟨fun h0 => absurd h0 hwarm, fun _ => ht⟩
    rw [show specPwrReset.opcode = 0x1004 from rfl, heffect]
    exact ⟨rfl, rfl⟩

/-! ## Lifecycle, debug and firmware -/

theorem lcAdvance_runs {r : HostRequest} {s : State} (h : Accepts specLcAdvance r s) :
    Runs (.lcAdvance r) s [.host, .log, .sys, .pair] fun t => Answered 0x1011 r .accepted t ∧
      (r.u8 0 = 2 → t.sys = { s.sys with lifecycle := .deployed }) ∧
      (r.u8 0 = 3 → t.sys = { s.sys with zeroising := some (bytesAt r.payload 8 32, some (ticketOf (reqOf 0x1011 r))) }) := by
  have heffect : specLcAdvance.effect (atStart 0x1011 r s) (reqOf 0x1011 r) = (if r.u8 0 = 2
      then (complete (ticketOf (reqOf 0x1011 r)) .ok 0 (submitLog 0x1003 mgmtSource [2]
        ((atStart 0x1011 r s).modSys (fun y => { y with lifecycle := .deployed }))), { status := .accepted })
      else ((atStart 0x1011 r s).modSys (fun y =>
        { y with zeroising := some (bytesAt r.payload 8 32, some (ticketOf (reqOf 0x1011 r))) }), { status := .accepted })) := rfl
  have hsys := submit_after h .sys rfl
  refine runs_of_accepts (c := specLcAdvance) rfl specLcAdvance_only (by decide) h ?_ ⟨fun h2 => ?_, fun h3 => ?_⟩
  · rw [show specLcAdvance.opcode = 0x1011 from rfl, heffect]
    split <;> exact ⟨rfl, rfl⟩
  · rw [if_pos h2] at heffect
    exact hsys.trans (congrArg (fun x => x.1.sys) heffect)
  · rw [if_neg (by rw [h3]; decide)] at heffect
    exact hsys.trans (congrArg (fun x => x.1.sys) heffect)

theorem dbgPolicy_does (r : HostRequest) (s : State) : Does 0x1014 .dbgPolicy r s [.log, .sys] fun t =>
    t.sys.authAllowed = (r.u8 0 == 1) ∧ (r.u8 0 = 0 → t.sys.debug ≠ .auth) ∧ (s.sys.debug ≠ .auth → t.sys.debug = s.sys.debug) := by
  refine does_of_only rfl rfl specDbgPolicy_only (by decide) (fun _ _ => ⟨rfl, rfl⟩) fun h => ?_
  have hsys : (submit specDbgPolicy r s).sys = (if (r.u8 0 == 1) = false ∧ s.sys.debug = .auth
      then closeDebug ((atStart 0x1014 r s).modSys (fun y => { y with authAllowed := r.u8 0 == 1 }))
      else (atStart 0x1014 r s).modSys (fun y => { y with authAllowed := r.u8 0 == 1 })).sys := submit_after h .sys rfl
  rw [hsys]
  split
  next hclose =>
    refine ⟨?_, fun _ => ?_, fun hno => absurd hclose.2 hno⟩
    · rw [closeDebug_sys]
      rfl
    · rw [closeDebug_debug]
      decide
  next hopen =>
    refine ⟨rfl, fun h0 hauth => hopen ⟨by rw [h0]; rfl, hauth⟩, fun _ => rfl⟩

theorem fwWrite_does (r : HostRequest) (s : State) : Does 0x1020 .fwWrite r s [.sys] fun t =>
    imageOf t.sys (otherSlot s.sys.running) = none ∧ imageOf t.sys s.sys.running = imageOf s.sys s.sys.running ∧
    ∀ k, k < r.u32 4 → t.sys.fwBytes.get (r.u32 0 + k) = r.u8 (8 + k) := by
  refine does_of_only rfl rfl specFwWrite_only (by decide) (fun _ _ => ⟨rfl, rfl⟩) fun h => ?_
  have hsys : (submit specFwWrite r s).sys = { setImage (otherSlot s.sys.running) none s.sys with
      fwBytes := (List.range (r.u32 4)).foldl (fun b k => b.set (r.u32 0 + k) (r.u8 (8 + k)))
        (setImage (otherSlot s.sys.running) none s.sys).fwBytes } := submit_after h .sys rfl
  rw [hsys]
  refine ⟨?_, ?_, fun k hk => get_foldl_set (fun k => r.u8 (8 + k)) (r.u32 0) _ _ hk⟩
  · cases s.sys.running <;> rfl
  · cases s.sys.running <;> rfl

theorem fwControl_runs {r : HostRequest} {s : State} (h : Accepts specFwControl r s) :
    Runs (.fwControl r) s [.host, .sys, .pair] fun t =>
      (r.u8 0 = 0 → Answered 0x1021 r .accepted t ∧ t.sys = { s.sys with fwVerify := some (ticketOf (reqOf 0x1021 r)) }) ∧
      (r.u8 0 = 1 → Answered 0x1021 r .ok t ∧
        t.sys = { s.sys with keys := { s.sys.keys with counter := max s.sys.keys.counter s.sys.imageCounter } }) ∧
      (r.u8 0 = 2 → Answered 0x1021 r .ok t ∧ t.sys = { s.sys with preferred := s.sys.running, trialSlot := false }) := by
  have heffect : specFwControl.effect (atStart 0x1021 r s) (reqOf 0x1021 r) = (match r.u8 0 with
      | 0 => ((atStart 0x1021 r s).modSys (fun y => { y with fwVerify := some (ticketOf (reqOf 0x1021 r)) }), { status := .accepted })
      | 1 => ((atStart 0x1021 r s).modSys (fun y => { y with keys := { y.keys with counter := max y.keys.counter y.imageCounter } }), {})
      | _ => ((atStart 0x1021 r s).modSys (fun y => { y with preferred := y.running, trialSlot := false }), {})) := rfl
  have hsys := submit_after h .sys rfl
  have hruns {st : Status} {P : State → Prop} (hok : Replies st (specFwControl.effect (atStart 0x1021 r s) (reqOf 0x1021 r)).2)
      (hP : P (submit specFwControl r s)) : Runs (.fwControl r) s [.host, .sys, .pair] fun t => Answered 0x1021 r st t ∧ P t :=
    runs_of_accepts (c := specFwControl) rfl specFwControl_only (by decide) h hok hP
  split at heffect
  next h0 =>
    refine (hruns (st := .accepted) (P := fun t => t.sys = { s.sys with fwVerify := some (ticketOf (reqOf 0x1021 r)) })
      (by rw [heffect]; exact ⟨rfl, rfl⟩) (hsys.trans (congrArg (fun x => x.1.sys) heffect))).mono fun t ht => ?_
    rw [h0]
    exact ⟨fun _ => ht, fun h => absurd h (by decide), fun h => absurd h (by decide)⟩
  next h1 =>
    refine (hruns (st := .ok) (P := fun t => t.sys = { s.sys with keys := { s.sys.keys with
      counter := max s.sys.keys.counter s.sys.imageCounter } }) (by rw [heffect]; exact ⟨rfl, rfl⟩)
      (hsys.trans (congrArg (fun x => x.1.sys) heffect))).mono fun t ht => ?_
    rw [h1]
    exact ⟨fun h => absurd h (by decide), fun _ => ht, fun h => absurd h (by decide)⟩
  next h0 h1 =>
    refine (hruns (st := .ok) (P := fun t => t.sys = { s.sys with preferred := s.sys.running, trialSlot := false })
      (by rw [heffect]; exact ⟨rfl, rfl⟩) (hsys.trans (congrArg (fun x => x.1.sys) heffect))).mono fun t ht => ?_
    exact ⟨fun h => absurd h h0, fun h => absurd h h1, fun _ => ht⟩

/-- Settles O56: each clause is the command's effect on the system part. -/
theorem managementCommandsComplete : Obligations.ManagementCommandsComplete := by
  unfold Obligations.ManagementCommandsComplete
  intro r s
  refine ⟨pwrStateSet_runs, ?_, pwrLimitSet_does r s, pwrReset_runs, ?_, lcAdvance_runs, ?_, ?_, dbgPolicy_does r s, fwWrite_does r s,
    fwControl_runs⟩
  · exact does_of_only rfl rfl specPwrWakeConfig_only (by decide) (fun _ _ => ⟨rfl, rfl⟩) fun h => submit_after h .sys rfl
  · refine does_of_only rfl rfl specLcProvision_only (by decide) (fun _ _ => ⟨rfl, rfl⟩) fun h => ?_
    have hsys : (submit specLcProvision r s).sys = { s.sys with
        lifecycle := .provisioned
        keys := { s.sys.keys with monitor := some (bytesAt r.payload 0 32), operate := some (bytesAt r.payload 32 32)
                                  admin := some (bytesAt r.payload 64 32) } } := submit_after h .sys rfl
    rw [hsys]
    exact ⟨rfl, rfl⟩
  · exact does_of_only rfl rfl specLcRoleSet_only (by decide) (fun _ _ => ⟨rfl, rfl⟩) fun h => submit_after h .sys rfl
  · exact does_of_only rfl rfl specKeyInstall_only (by decide) (fun _ _ => ⟨rfl, rfl⟩) fun h => submit_after h .sys rfl

end Sys2Proof.Machine
end

section
set_option Elab.async false
/-! # O59: the pair commands, mirrored items, and PAIR_LINK -/

namespace Sys2Proof.Machine

open Sys2Proof

/-! ## Mirroring -/

/-- A command that is not mirrored leaves the pair as its effect has it (R473). -/
theorem submit_pair {c : CommandSpec} {r : HostRequest} {s : State} (h : Accepts c r s) (hown : mirroredOpcodes.contains c.opcode = false) :
    (submit c r s).pair = (c.effect (atStart c.opcode r s) (reqOf c.opcode r)).1.pair := by
  have hmirror (t : State) : mirrorCommand (reqOf c.opcode r) t = t := by
    unfold mirrorCommand
    refine if_neg ?_
    rw [show (reqOf c.opcode r).opcode = c.opcode from rfl, hown, Bool.and_false]
    exact Bool.false_ne_true
  rw [submit_accepted h, hmirror]
  split
  · rfl
  · exact deliver_only (Only.refl 2 _) rfl .pair rfl

/-- An item goes to a standby that takes the mirrored items. -/
theorem mirrorItem_sends {s : State} (hactive : activeHub s) (hlistens : standbyListens s.pair) (i : PairItem) : mirrorItem i s =
    s.modPair (fun p => { p with seqSent := p.seqSent + 1, outgoing := p.outgoing ++ [(p.seqSent + 1, i)] }) := by
  unfold mirrorItem
  exact if_pos (by rw [hactive, hlistens]; rfl)

/-- Two items in a row. -/
theorem mirrorItem_sends_two {s : State} (hactive : activeHub s) (hlistens : standbyListens s.pair) (i j : PairItem) :
    mirrorItem j (mirrorItem i s) = s.modPair (fun p => { p with
      seqSent := p.seqSent + 2, outgoing := p.outgoing ++ [(p.seqSent + 1, i), (p.seqSent + 2, j)] }) := by
  have hfirst := mirrorItem_sends hactive hlistens i
  have hsecond := mirrorItem_sends (s := mirrorItem i s) (by rw [hfirst]; exact hactive) (by rw [hfirst]; exact hlistens) j
  rw [hsecond, hfirst]
  exact congrArg (fun l => s.modPair (fun p => { p with seqSent := p.seqSent + 2, outgoing := l }))
    (List.append_assoc s.pair.outgoing [(s.pair.seqSent + 1, i)] [(s.pair.seqSent + 2, j)])

/-- What the items of a period are made of. -/
def State.mirrors (s : State) : PairState × Bool × PairItem × PairItem := (s.pair, activeHub s, modelItem s, loopItem s)

theorem mirrors_modAir (f : AirState → AirState) (s : State) : (s.modAir f).mirrors = s.mirrors := rfl

theorem advanceTo_mirrors (x : Nat) (s : State) : (advanceTo x s).mirrors = s.mirrors := mirrors_modAir _ s

theorem mirrorPeriodicSync_runs {s : State} (hruns : pairRuns s) (hactive : activeHub s) (hlistens : standbyListens s.pair) :
    Runs .mirrorPeriodicSync s [.air, .pair] fun t => ticked s t (tcOfMs 10) ∧ t.pair.seqSent = s.pair.seqSent + 2 ∧
      t.pair.outgoing = s.pair.outgoing ++ [(s.pair.seqSent + 1, modelItem s), (s.pair.seqSent + 2, loopItem s)] := by
  refine runs_of_only (t := mirrorPeriodicSync s) rfl execMirrorPeriodicSync_only (by decide) ?_
  have heq : mirrorPeriodicSync s = mirrorItem (loopItem (advanceTo (nextMono (tcOfMs 10) s) s))
      (mirrorItem (modelItem (advanceTo (nextMono (tcOfMs 10) s) s)) (advanceTo (nextMono (tcOfMs 10) s) s)) := by
    unfold mirrorPeriodicSync
    exact if_pos (by rw [hruns, hactive]; rfl)
  have htick : ticked s (advanceTo (nextMono (tcOfMs 10) s) s) (tcOfMs 10) := ticked_advanceTo (by decide)
  have hmirrors := advanceTo_mirrors (nextMono (tcOfMs 10) s) s
  rw [heq]
  generalize advanceTo (nextMono (tcOfMs 10) s) s = v at htick hmirrors ⊢
  obtain ⟨hpair, hactive', hmodels, hloops⟩ : v.pair = s.pair ∧ activeHub v = activeHub s ∧ modelItem v = modelItem s ∧
      loopItem v = loopItem s := by
    simpa only [State.mirrors, Prod.mk.injEq] using hmirrors
  rw [mirrorItem_sends_two (hactive'.trans hactive) (by rw [hpair]; exact hlistens), hmodels, hloops, ← hpair]
  exact ⟨htick, rfl, rfl⟩

/-! ## Items that arrive -/

theorem pairSync_applies {s : State} (hruns : pairRuns s) (hstandby : standbyHub s) (i : PairItem) :
    pairSync (s.pair.seqApplied + 1) i s = applyItem i (s.modPair (fun p => { p with seqApplied := s.pair.seqApplied + 1 })) := by
  unfold pairSync
  exact if_pos (by rw [hruns, hstandby, beq_self_eq_true]; rfl)

theorem pairSync_still_of_stopped {s : State} (h : ¬pairRuns s) (n : Nat) (i : PairItem) : Still (.pairSync n i) s :=
  congrArg Host.Outcome.next (if_neg (by rw [Bool.eq_false_iff.mpr h, Bool.false_and, Bool.false_and]; exact Bool.false_ne_true))

theorem pairSync_still_of_order {s : State} {n : Nat} (h : n ≠ s.pair.seqApplied + 1) (i : PairItem) : Still (.pairSync n i) s :=
  congrArg Host.Outcome.next (if_neg (by rw [beq_eq_false_iff_ne.mpr h, Bool.and_false]; exact Bool.false_ne_true))

/-! ## PAIR_LINK -/

theorem bulkSyncTimeout_runs {s : State} {u n : Nat} (h : s.pair.bulk = some (u, n)) (hnot : ¬holding s 0xC0 pairLinkUnit) :
    Runs .bulkSyncTimeout s [.air, .fault] fun t => waited s t u ∧ t.pair = s.pair ∧ Raised 0xC0 pairLinkUnit s t := by
  have heq : bulkSyncTimeout s = raiseLevel { cls := 0xC0, unit := pairLinkUnit, detail4 := 0xFF } (advanceTo u s) := by
    unfold bulkSyncTimeout
    rw [h]
  refine runs_of_only (t := bulkSyncTimeout s) rfl execBulkSyncTimeout_only (by decide) ?_
  rw [heq]
  have hraised : Raised 0xC0 pairLinkUnit (advanceTo u s) (raiseLevel { cls := 0xC0, unit := pairLinkUnit, detail4 := 0xFF } (advanceTo u s)) :=
    raised_raiseLevel (r := { cls := 0xC0, unit := pairLinkUnit, detail4 := 0xFF }) hnot
  refine ⟨?_, raiseLevel_only (Only.refl 4 _) rfl .pair rfl, hraised⟩
  rw [waited, raiseLevel_only (Only.refl 4 _) rfl .air rfl]
  exact advanceTo_waited u s

/-- The links that a hub with one mirror port watches are the first alone. -/
theorem pairLinkRecovery_eq {s : State} {p : Nat} (hruns : pairRuns s) (hports : mirrorPorts s = [p]) (hup : (s.pair.links.get 0).up) :
    pairLinkRecovery s = endFault 0xC0 pairLinkUnit (advanceTo ((s.pair.links.get 0).upSince + tcOfMs 100) s) := by
  have hlinks : ((List.range (mirrorPorts s).length).map (fun k => s.pair.links.get k)) = [s.pair.links.get 0] := by
    rw [hports]
    rfl
  unfold pairLinkRecovery
  dsimp only
  rw [hlinks, hports]
  refine (if_pos ?_).trans ?_
  · rw [hruns, List.all_cons, hup]
    rfl
  · rw [List.foldl_cons, List.foldl_nil, Nat.zero_max]

theorem endFault_ends {cls : Nat} {u : UnitId} {s : State} (h : holding s cls u) :
    (endFault cls u s).fault.latched = s.fault.latched ++ [.ended ⟨cls, u⟩ (cycleNow s) false] :=
  congrArg (fun t : State => t.fault.latched) (if_pos h)

theorem pairLinkRecovery_runs {s : State} {p : Nat} (hruns : pairRuns s) (hports : mirrorPorts s = [p]) (hup : (s.pair.links.get 0).up)
    (hholds : holding s 0xC0 pairLinkUnit) : Runs .pairLinkRecovery s [.air, .fault] fun t =>
      waited s t ((s.pair.links.get 0).upSince + tcOfMs 100) ∧ ¬holding t 0xC0 pairLinkUnit ∧
      t.fault.latched = s.fault.latched ++ [.ended ⟨0xC0, pairLinkUnit⟩ (cycleNow t) false] := by
  refine runs_of_only (t := pairLinkRecovery s) rfl execPairLinkRecovery_only (by decide) ?_
  rw [pairLinkRecovery_eq hruns hports hup]
  have hwait := advanceTo_waited ((s.pair.links.get 0).upSince + tcOfMs 100) s
  have hfault : (advanceTo ((s.pair.links.get 0).upSince + tcOfMs 100) s).fault = s.fault := advanceTo_only (Only.refl 1 s) rfl .fault rfl
  generalize advanceTo ((s.pair.links.get 0).upSince + tcOfMs 100) s = v at hwait hfault ⊢
  have hair : (endFault 0xC0 pairLinkUnit v).air = v.air := endFault_only (Only.refl 4 _) rfl .air rfl
  refine ⟨?_, Bool.eq_false_iff.mp (holding_endFault ..), ?_⟩
  · rw [waited, hair]
    exact hwait
  · rw [endFault_ends (by rw [holding, hfault]; exact hholds), hfault, cycleNow, cycleNow, now, now, hair]

/-! ## The commands -/

theorem pairSwitchover_runs {r : HostRequest} {s : State} {q : Nat} (h : Accepts specPairSwitchover r s)
    (hq : q = (if r.u32 4 = 0 then frameBoundaryAhead s 4 else r.u32 4)) :
    Runs (.pairSwitchover r) s [.host, .pair] fun t => Answered 0x1102 r .ok t ∧ answerBytes r t = le 4 q ∧ t.pair.switchAt = some q ∧
      t.pair.phase = s.pair.phase ∧
      (r.u8 0 = 0 → ¬t.pair.forced ∧
        t.pair.outgoing = s.pair.outgoing ++ [(s.pair.seqSent + 1, .command 0x1102 (le 4 0 ++ le 4 q))]) ∧
      (r.u8 0 = 1 → t.pair.forced ∧ t.pair.outgoing = s.pair.outgoing) := by
  subst hq
  generalize hq : (if r.u32 4 = 0 then frameBoundaryAhead s 4 else r.u32 4) = q
  have heffect : specPairSwitchover.effect (atStart 0x1102 r s) (reqOf 0x1102 r) =
      (if r.u8 0 = 0 then mirrorItem (.command 0x1102 (le 4 0 ++ le 4 q))
          ((atStart 0x1102 r s).modPair (fun x => { x with switchAt := some q, forced := r.u8 0 == 1 }))
        else (atStart 0x1102 r s).modPair (fun x => { x with switchAt := some q, forced := r.u8 0 == 1 }), { payload := le 4 q }) := by
    rw [← hq]
    rfl
  have hreply : Replies .ok (specPairSwitchover.effect (atStart 0x1102 r s) (reqOf 0x1102 r)).2 := ⟨rfl, rfl⟩
  have hpair : (submit specPairSwitchover r s).pair = _ :=
    (submit_pair h (by decide)).trans (congrArg (fun x => x.1.pair) heffect)
  have hstates : (s.sys.role == .hub && (match r.u8 0 with
      | 0 => s.pair.phase == .activePaired
      | 1 => standbyHub s
      | _ => true)) = true := states_hold_of_validate h.2
  refine runs_of_accepts (c := specPairSwitchover) rfl specPairSwitchover_only (by decide) h hreply
    ⟨(answerBytes_of_accepts (i := .pairSwitchover r) rfl h hreply).trans (congrArg (fun x => x.2.payload) heffect), ?_⟩
  by_cases h0 : r.u8 0 = 0
  · rw [h0, Bool.and_eq_true] at hstates
    obtain ⟨hrole, hphase⟩ := hstates
    have hphase : s.pair.phase = .activePaired := beq_iff_eq.mp hphase
    have hactive : activeHub s = true := by
      unfold activeHub
      rw [hrole, hphase]
      rfl
    have hlistens : standbyListens s.pair = true := by
      unfold standbyListens
      rw [hphase]
      rfl
    dsimp only at hpair
    rw [if_pos h0, mirrorItem_sends (s := (atStart 0x1102 r s).modPair (fun x =>
      { x with switchAt := some q, forced := r.u8 0 == 1 })) hactive hlistens] at hpair
    rw [hpair]
    refine ⟨rfl, rfl, fun _ => ⟨?_, rfl⟩, fun h1 => absurd (h0.symm.trans h1) (by decide)⟩
    show ¬(r.u8 0 == 1) = true
    rw [h0]
    decide
  · dsimp only at hpair
    rw [if_neg h0] at hpair
    rw [hpair]
    exact ⟨rfl, rfl, fun h => absurd h h0, fun h1 => ⟨beq_iff_eq.mpr h1, rfl⟩⟩

/-- Settles O59: the commands by their effects, the events by the branch that they take. -/
theorem pairCommandsAndMirroring : Obligations.PairCommandsAndMirroring := by
  unfold Obligations.PairCommandsAndMirroring
  intro r s q u n p h y item
  refine ⟨?_, pairSwitchover_runs, ?_, mirrorPeriodicSync_runs, fun hstop => ⟨?_, pairSync_still_of_stopped hstop q item, ?_⟩,
    fun hruns hstandby => ?_, fun hruns hstandby => ?_, fun hne => pairSync_still_of_order hne item, bulkSyncTimeout_runs, fun hnone => ?_,
    pairLinkRecovery_runs⟩
  · exact does_of_only rfl rfl specPairConfig_only (by decide) (fun _ _ => ⟨rfl, rfl⟩) fun h => submit_pair h (by decide)
  · refine does_of_only rfl rfl specPairTailRead_only (by decide) (fun _ _ => ⟨rfl, rfl⟩) fun h => ?_
    exact ⟨submit_pair h (by decide), answerBytes_of_accepts (i := .pairTailRead r) rfl h ⟨rfl, rfl⟩⟩
  · exact congrArg Host.Outcome.next (if_neg (by rw [Bool.eq_false_iff.mpr hstop]; exact Bool.false_ne_true))
  · exact congrArg Host.Outcome.next (if_neg (by rw [Bool.eq_false_iff.mpr hstop, Bool.false_and, Bool.false_and]; exact Bool.false_ne_true))
  · refine runs_of_only (t := pairSync (s.pair.seqApplied + 1) (.halt h) s) rfl execPairSync_only (by decide) ?_
    rw [pairSync_applies hruns hstandby]
    rfl
  · refine runs_of_only (t := pairSync (s.pair.seqApplied + 1) (.record y) s) rfl execPairSync_only (by decide) ?_
    rw [pairSync_applies hruns hstandby]
    exact ⟨rfl, rfl⟩
  · show Host.Outcome.next (bulkSyncTimeout s) = .next s
    unfold bulkSyncTimeout
    rw [hnone]

end Sys2Proof.Machine
end
